-- ==== Sys2Proof/Word.lean ====
section
/-!
DEFINITION. The machine's words and the one container the whole model uses: a sparse table of numbered
entries in canonical form.
-/

namespace Sys2Proof

/-- A byte (R11). -/
abbrev Byte := BitVec 8
/-- A 64-bit register or register-space word (R19, R288). -/
abbrev W64 := BitVec 64
/-- A 32-bit number: an instruction word, a handle, a sequence number. -/
abbrev W32 := BitVec 32
/-- A general register number (R288). -/
abbrev Reg := BitVec 5
/-- One word of the intake FIFO (R115). -/
abbrev IWord := BitVec 72

/-- A sparse table: entries in strictly rising order of their number, none equal to the default. -/
abbrev SMap (α : Type) := List (Nat × α)

/-- The entry numbered `k`, the default where the table lists none. -/
def SMap.get {α : Type} (d : α) (m : SMap α) (k : Nat) : α :=
  match m with
  | [] => d
  | (j, v) :: rest => if j = k then v else SMap.get d rest k

/-- The table without entry `k`. -/
def SMap.erase {α : Type} (m : SMap α) (k : Nat) : SMap α :=
  match m with
  | [] => []
  | (j, v) :: rest => if j = k then SMap.erase rest k else (j, v) :: SMap.erase rest k

/-- The table with `(k, v)` put before the first entry of a higher number. -/
def SMap.ins {α : Type} (m : SMap α) (k : Nat) (v : α) : SMap α :=
  match m with
  | [] => [(k, v)]
  | (j, w) :: rest => if k < j then (k, v) :: (j, w) :: rest else (j, w) :: SMap.ins rest k v

/-- Write entry `k`; writing the default removes it, so that equal tables are equal data. -/
def SMap.set {α : Type} [DecidableEq α] (d : α) (m : SMap α) (k : Nat) (v : α) : SMap α :=
  if v = d then SMap.erase m k else SMap.ins (SMap.erase m k) k v

/-- The canonical form of a sparse table. -/
def SMap.wf {α : Type} [DecidableEq α] (d : α) (m : SMap α) : Bool :=
  match m with
  | [] => true
  | (j, v) :: rest => (v != d) && (rest.all fun p => decide (j < p.1)) && SMap.wf d rest

end Sys2Proof
end

