-- ==== Sys2Proof/Syntax.lean ====
section
/-!
DEFINITION. The commands of the QZM-192: the operand types, and the one inductive `Instr` with a constructor for
every row of spec/opcode_table.json. A row is one indivisible step of the device (95_what_each_step_holds.md);
its operands are what comes from outside the step: the number of the part that acts, and whatever the device's
surroundings bring in (frame words, pin levels, host entries, module answers, error observations).
-/

namespace Sys2Proof

/-- The host functions (R475). -/
inductive HostFn where
  | hostA | hostB
deriving DecidableEq, Repr

/-- A party that reads a register block or uses a lock: a thread, the Pumphouse or a host function (R46, R345, R394). -/
inductive Requester where
  | thread (t : Nat)
  | pumphouse
  | host (f : HostFn)
deriving DecidableEq, Repr

/-- The number of an accepted command: its function and its CSEQ (R485). -/
structure CmdRef where
  fn : HostFn
  cseq : W32
deriving DecidableEq, Repr

/-- A command entry as the Pumphouse reads it from a command ring (R484). `payload` is its bytes 63:16, followed, with
INDIRECT, by the PLEN bytes read from the payload's host address. -/
structure CmdEntry where
  opcode : Nat
  flags : BitVec 16
  cseq : W32
  plen : Nat
  tag : BitVec 16
  rsv : W32
  payload : List Byte
deriving DecidableEq, Repr

/-- Where an uncorrectable buffer-memory error was met (R187): a word of the buffer's cell with this place in its chain, the
link of that cell, the owner entry, a bitmap word, the 32-byte unit of the cistern (block × 128 + unit), or both next-block
links of a block. -/
inductive BufErr where
  | data (cell : Nat)
  | link (cell : Nat)
  | owner | bitmap
  | cisternRecord (unit : Nat)
  | cisternLinks
deriving DecidableEq, Repr

/-- Which memory shows an error to a core's load (R276). -/
inductive CoreArray where
  | l1i | l1dClean | l1dDirty | l1dTag | l2Clean | l2Dirty | l2Tag | scratch
  /-- A basin word of the buffer window (R263). -/
  | basin
  /-- A single-bit error that is corrected: 1 L1D, 2 L2, 3 scratch. -/
  | corrected (array : Nat)
deriving DecidableEq, Repr

/-- What the link partner offers in Clause 73: its modes, one bit per mode of R78, and its RS-FEC request (R94). -/
structure Partner where
  modes : BitVec 8
  rsfec : Bool
deriving DecidableEq, Repr

/-- A link loss's kind (R98, R110). -/
inductive LossKind where
  | lock | fault | module
deriving DecidableEq, Repr

/-- The data set of an Announce message: what the best master clock algorithm compares (R52, log 152). -/
structure PtpSet where
  prio1 : Nat := 128
  cls : Nat := 248
  accuracy : Nat := 254
  variance : Nat := 65535
  prio2 : Nat := 128
  id : Nat := 0
  steps : Nat := 0
deriving DecidableEq, Repr

/-- What every PTP message names: its transport (0 Layer 2, 1 UDP over IPv4, 2 UDP over IPv6), its domain and the port
identity of its source (R52). -/
structure PtpHdr where
  transport : Nat
  domain : Nat
  src : Nat
deriving DecidableEq, Repr

/-- A PTP message received by the slave, with the times its measurement needs in nanoseconds (R52, R58). A Delay_Resp names
the sequence number of its request, and whether the request's port identity is the device's. -/
inductive PtpMsg where
  | announce (d : PtpSet)
  | sync (seq : Nat) (twoStep : Bool) (t1 t2 : Nat) (intervalNs : Nat)
  | followUp (seq : Nat) (t1 : Nat)
  | delayResp (seq : Nat) (mine : Bool) (t4 : Nat)
deriving DecidableEq, Repr

/-- An application advertised by a CMIS module (R106): the host mode it names and its lane count. -/
structure ModApp where
  code : W32
  mode : Nat
deriving DecidableEq, Repr

/-- The CMIS pages read from a module (R103). -/
structure ModPages where
  rev : Byte
  powerClass : Nat
  fast : Bool
  powerUpNs : Nat
  apps : List ModApp
deriving DecidableEq, Repr

/-- A firmware image: the 512 header bytes and the body (R512). -/
structure FwImage where
  header : List Byte
  body : List Byte
deriving DecidableEq, Repr

/-- A flash slot as it is read: its image and the two bytes of its state sector (R511, R514). -/
structure FlashSlot where
  image : Option FwImage
  tries : Byte
  confirmed : Byte
deriving DecidableEq, Repr

/-- What a cold priming meets (R506-R510): straps, slots, and the outcome of the tests. -/
structure PrimingObs where
  bootSrc : BitVec 2
  pcieMode : BitVec 2
  strapSafe : Bool
  slotA : FlashSlot
  slotB : FlashSlot
  badCores : List Nat
  badClusters : List Nat
  sramFatal : Bool
  badPcs : List Nat
  trngOk : Bool
deriving DecidableEq, Repr

/-- A parse graph record of PARSE_GRAPH_LOAD (R133, R499). -/
inductive GraphRec where
  | state (idx : Nat) (entry : W64)
  | tcam (idx : Nat) (entry : BitVec 128)
  | extract (idx : Nat) (ops : List (Nat × Nat × Nat))
deriving DecidableEq, Repr

/-- One operation of TABLE_BATCH: a TBL_CMD image with its key and data words (R397, R499). -/
structure TblOp where
  cmd : W64
  keys : List W64
  data : List W64
deriving DecidableEq, Repr

/-- The fields of PORT_CONFIG (R499 0x0201). -/
structure PortConfigArgs where
  maxFrame : Nat
  fcMode : Nat
  an : Nat
  ability : BitVec 8
  cascade : Nat
  macctlPass : Nat
  standpipe : Nat
  startState : Nat
  defaultDomain : Nat
  fragVrf : Nat
  learn : Nat
  defaultBd : Nat
  classMap : W32
  defaultClass : Nat
  holdoffMs : Nat
  debounceMs : Nat
  flapWindowS : Nat
  flapThreshold : Nat
  suppressS : Nat
  train : Nat
deriving DecidableEq, Repr

/-- The fields of CORE_CONFIG after TARGET (R287). -/
structure CoreConfigArgs where
  workThreads : Nat
  shareMode : Nat
  capSb : Nat
  capMshr : Nat
  capPf : Nat
  capWb : Nat
  defaultPrio : Nat
deriving DecidableEq, Repr

/-- The record a LEDGER_INIT with CONTINUE supplies (R443). -/
structure LedgerPrev where
  statement : List Byte
  header : List Byte
  digest : List Byte
  signature : List Byte
deriving DecidableEq, Repr

/-- The load kinds of R299 that have rows of their own. -/
inductive HbmErr where
  | none | corrected | uncorrectable | caParity
deriving DecidableEq, Repr

/-- A unit fault that the device detects in itself (R547, R548). -/
inductive FaultUnit where
  | thread (t : Nat)
  | core (c : Nat)
  | cluster (c : Nat)
  | helper (unit idx : Nat)
  | well (w : Nat)
  | pump (p : Nat)
  | commit
  | pumphouse
deriving DecidableEq, Repr

/-- The requesters of the lock unit, with the register a thread's load writes (R345, R349). -/
inductive LockReq where
  | thread (t : Nat) (gd : Reg)
  | pumphouse
  | host (f : HostFn)
deriving DecidableEq, Repr

/-- The first words of a frame; `ended`: the last of them is also the frame's end (R116). -/
structure SofWords where
  words : List IWord
  ended : Bool
deriving DecidableEq, Repr

/-- A PTP message with what every message names (R52). -/
structure PtpRx where
  hdr : PtpHdr
  msg : PtpMsg
deriving DecidableEq, Repr

/-- A queue whose aggregate is written, and the errors that the reads of its packets meet, by place in the aggregate (R187). -/
structure AggRead where
  queue : Nat
  errs : List (Nat × BufErr)
deriving DecidableEq, Repr

/-- What arrives at the balls of a port that is not UP: the port, the data, and what the checkers of PRBS find in it by lane
(R97, R108). -/
structure DownRx where
  port : Nat
  data : List Byte
  checks : List (Nat × Bool)
deriving DecidableEq, Repr

/-- The commands: one constructor per row of spec/opcode_table.json; the docstring is the row. -/
inductive Instr where
  /-- FRAME_SOF (R122). -/
  | frameSof (port : Nat) (first : SofWords)
  /-- FIFO_BANK_SWAP (R112). -/
  | fifoBankSwap (port : Nat)
  /-- DRAIN_READ (R114). -/
  | drainRead (port : Nat) (n : Nat)
  /-- CELL_GRANT (R166). -/
  | cellGrant (bank : Nat)
  /-- PARSE_START (R120). -/
  | parseStart (port : Nat)
  /-- PARSE_COMPLETE (R129). -/
  | parseComplete (port : Nat)
  /-- FRAME_TAIL (R21). `fec` gives the symbol errors of the RS-FEC codewords that carried the frame (R80). -/
  | frameTail (port : Nat) (words : List IWord) (fec : List Nat)
  /-- GRAPH_SWITCH_TIMEOUT (R133). -/
  | graphSwitchTimeout (well : Nat)
  /-- FRAG_ENTRY_EXPIRY (R140). -/
  | fragEntryExpiry (well : Nat) (entry : Nat)
  /-- FRAG_HOLD_TIMEOUT (R142). -/
  | fragHoldTimeout (well : Nat)
  /-- QUIESCE_FALL (R124). -/
  | quiesceFall
  /-- QUIESCE_RISE (R124). -/
  | quiesceRise
  /-- PARSER_RESET_DONE (R146). -/
  | parserResetDone (well : Nat)
  /-- DISPATCH (R198). -/
  | dispatch
  /-- AFFINITY_WAIT_EXPIRY (R198). -/
  | affinityWaitExpiry (pkt : Nat)
  /-- ORDER_YIELD (R226). -/
  | orderYield (domain : Nat)
  /-- PENDING_STORE_ROOM (R209). -/
  | pendingStoreRoom
  /-- COMMIT (R211). -/
  | commit (lane : Nat)
  /-- CUT_THROUGH_START (R27). -/
  | cutThroughStart (pkt : Nat)
  /-- LOG_RECORD_ACK (R214). -/
  | logRecordAck (lane : Nat)
  /-- COMMIT_RESET_RESUME (R216). -/
  | commitResetResume
  /-- WAL_UNCORRECTABLE (R217). -/
  | walUncorrectable (lane : Nat) (position : Nat)
  /-- FENCE_DRAIN_EXPIRY (R238). -/
  | fenceDrainExpiry
  /-- ORDER_STALL_TIMER (R244). -/
  | orderStallTimer (domain : Nat)
  /-- DT_NOW_READ (R46). -/
  | dtNowRead (r : Requester)
  /-- PTP_MESSAGE_RX (R52). -/
  | ptpMessageRx (port : Nat) (rx : PtpRx)
  /-- PTP_LOSS_TIMEOUT (R52). -/
  | ptpLossTimeout
  /-- PPS_IN_EDGE (R53). -/
  | ppsInEdge
  /-- PPS_IN_MISSING (R53). -/
  | ppsInMissing
  /-- TREF_QUALIFIED (R54). -/
  | trefQualified (ppt : Int)
  /-- TREF_LOSS (R54). -/
  | trefLoss
  /-- HOLDOVER_EXPIRY (R49). -/
  | holdoverExpiry
  /-- TIME_STEP_DEFERRED_APPLY (R61). -/
  | timeStepDeferredApply
  /-- PPS_OUT_RISE (R72). -/
  | ppsOutRise
  /-- PPS_OUT_FALL (R72). -/
  | ppsOutFall
  /-- EPOCH_CLOSE (R435). -/
  | epochClose
  /-- EPOCH_SEAL (R435). -/
  | epochSeal
  /-- SEAL_RESIDUALS_DONE (R435). -/
  | sealResidualsDone
  /-- RECORD_DIGEST_DONE (R435). -/
  | recordDigestDone
  /-- RECORD_SIGN_DONE (R435). -/
  | recordSignDone
  /-- REFCLK_LOSS (R76). -/
  | refclkLoss (well : Nat)
  /-- REFCLK_RETURN (R76). -/
  | refclkReturn (well : Nat)
  /-- LANE_RECAL_DONE (R76). -/
  | laneRecalDone (well : Nat)
  /-- TIMEBASE_SWITCHBACK (R588). -/
  | timebaseSwitchback
  /-- MAC_CONTROL_RX (R87). -/
  | macControlRx (port : Nat) (bytes : List Byte) (rxerr : Bool)
  /-- PAUSE_EXPIRY (R416). -/
  | pauseExpiry (port : Nat) (prio : Nat)
  /-- LINK_LOSS (R98). -/
  | linkLoss (port : Nat) (kind : LossKind)
  /-- LINK_RETURN (R99). -/
  | linkReturn (port : Nat)
  /-- LINK_HOLDOFF_EXPIRY (R98). -/
  | linkHoldoffExpiry (port : Nat)
  /-- LINK_DEBOUNCE_EXPIRY (R99). -/
  | linkDebounceExpiry (port : Nat)
  /-- AN_COMPLETE (R94). -/
  | anComplete (port : Nat) (partner : Partner)
  /-- TRAINING_DONE (R95). -/
  | trainingDone (port : Nat)
  /-- TRAINING_TIMEOUT (R95). -/
  | trainingTimeout (port : Nat)
  /-- TRAINING_RETRY (R95). -/
  | trainingRetry (port : Nat)
  /-- FLAP_SUPPRESS_EXPIRY (R100). -/
  | flapSuppressExpiry (port : Nat)
  /-- MODULE_SCAN (R591). -/
  | moduleScan (inputs : BitVec 256)
  /-- PRESENCE_DEBOUNCE_END (R103). -/
  | presenceDebounceEnd (slot : Nat)
  /-- MODULE_ID_POLL (R103). -/
  | moduleIdPoll (slot : Nat) (answer : Option Byte) (cmis : Bool)
  /-- MODULE_LOWPWR_POLL (R103). -/
  | moduleLowpwrPoll (slot : Nat) (low : Bool)
  /-- MODULE_PAGES_READ (R103). -/
  | modulePagesRead (slot : Nat) (pages : ModPages)
  /-- MODULE_READY (R103). -/
  | moduleReady (slot : Nat)
  /-- MODULE_DISCOVERY_TIMEOUT (R103). -/
  | moduleDiscoveryTimeout (slot : Nat)
  /-- MODULE_INT (R105). -/
  | moduleInt (slot : Nat) (flags : List Byte)
  /-- I2C_BUS_RECOVERY (R590). -/
  | i2cBusRecovery (bus : Nat) (released : Bool)
  /-- PORT_DISABLE_COMPLETE (R554). -/
  | portDisableComplete (port : Nat)
  /-- WELL_DISABLE_DONE (R555). -/
  | wellDisableDone (well : Nat)
  /-- L2_TRIGGER_APPLY (R371). -/
  | l2TriggerApply (well : Nat)
  /-- LEARN_NOTICE_SEND (R373). -/
  | learnNoticeSend
  /-- L2_NOTICE_APPLY (R371). -/
  | l2NoticeApply (well : Nat)
  /-- L2_AGING_SWEEP (R375). -/
  | l2AgingSweep (well : Nat)
  /-- BUFFER_PORT_LOAD (R159). -/
  | bufferPortLoad (t : Nat) (gd : Reg) (n : Nat)
  /-- SIZED_POOL_ALLOC (R175). -/
  | sizedPoolAlloc (cls : Nat) (len : Nat)
  /-- BASIN_REBUILD_DONE (R189). -/
  | basinRebuildDone
  /-- REBUILD_RETRY (R189). -/
  | rebuildRetry
  /-- SPILL_CHOOSE (R182). -/
  | spillChoose (queue : Nat)
  /-- AGGREGATE_TIMER (R183). -/
  | aggregateTimer (pump : Nat) (read : AggRead)
  /-- AGGREGATE_WRITE_ACK (R183). -/
  | aggregateWriteAck (pump : Nat) (queue : Nat)
  /-- REFILL_READ (R182). -/
  | refillRead (queue : Nat)
  /-- REFILL_READ_DONE (R184). -/
  | refillReadDone (queue : Nat) (err : Option BufErr)
  /-- CISTERN_SHRINK_DONE (R178). -/
  | cisternShrinkDone
  /-- COPY_ARRIVAL (R412). -/
  | copyArrival (pump : Nat)
  /-- WHEEL_SLOT (R413). -/
  | wheelSlot (pump : Nat)
  /-- PUMP_SELECT (R409). -/
  | pumpSelect (port : Nat) (err : Option BufErr)
  /-- TX_COMPLETE (R426). -/
  | txComplete (port : Nat)
  /-- PFC_RESEND (R417). -/
  | pfcResend (port : Nat) (prio : Nat)
  /-- HOLD_TIME_EXPIRY (R424). -/
  | holdTimeExpiry (port : Nat)
  /-- FLUSH_WALK (R424). -/
  | flushWalk (pump : Nat)
  /-- PUMP_RESET_DONE (R427). -/
  | pumpResetDone (pump : Nat)
  /-- LOCK_ACQUIRE (R349). -/
  | lockAcquire (r : LockReq) (lock : Nat)
  /-- LOCK_TRY (R350). -/
  | lockTry (r : LockReq) (lock : Nat)
  /-- LOCK_RELEASE (R351). -/
  | lockRelease (r : Requester) (lock : Nat)
  /-- LOCK_CLEAR (R351). -/
  | lockClear (r : Requester) (lock : Nat)
  /-- LOCK_WAIT_TIMEOUT (R349). -/
  | lockWaitTimeout (lock : Nat)
  /-- DELAY_TICK (R361). -/
  | delayTick (cluster : Nat) (lst : Nat)
  /-- DEADLOCK_DETECT (R365). -/
  | deadlockDetect (cluster : Nat)
  /-- WAITEV_WAKE (R321). -/
  | waitevWake (t : Nat)
  /-- PARK_WAKE (R321). -/
  | parkWake (t : Nat)
  /-- JOIN_WAKE (R258). -/
  | joinWake (t : Nat)
  /-- CHGET_WAKE (R356). -/
  | chgetWake (t : Nat)
  /-- CHPUT_RESERVE_WAKE (R355). -/
  | chputReserveWake (t : Nat)
  /-- ORDER_ENTER_WAKE (R220). -/
  | orderEnterWake (t : Nat)
  /-- LONG_OP_DONE (R331). -/
  | longOpDone (t : Nat)
  /-- LKP_COMPLETE (R311). -/
  | lkpComplete (t : Nat) (idx : Nat) (err : Bool)
  /-- LINE_FILL (R268). -/
  | lineFill (core : Nat) (line : Nat) (err : Bool)
  /-- WRITEBACK_ACK (R271). -/
  | writebackAck (core : Nat) (line : Nat)
  /-- CACHE_MAINT_DONE (R270). -/
  | cacheMaintDone (t : Nat)
  /-- STARVE_GRANT (R251). -/
  | starveGrant (t : Nat)
  /-- WATCHDOG_EXPIRY (R285). -/
  | watchdogExpiry (t : Nat)
  /-- ADD (R294). -/
  | addR (t : Nat) (gd : Reg) (ga : Reg) (gb : Reg)
  /-- SUB (R294). -/
  | subR (t : Nat) (gd : Reg) (ga : Reg) (gb : Reg)
  /-- AND (R294). -/
  | andR (t : Nat) (gd : Reg) (ga : Reg) (gb : Reg)
  /-- OR (R294). -/
  | orR (t : Nat) (gd : Reg) (ga : Reg) (gb : Reg)
  /-- XOR (R294). -/
  | xorR (t : Nat) (gd : Reg) (ga : Reg) (gb : Reg)
  /-- ANDN (R294). -/
  | andnR (t : Nat) (gd : Reg) (ga : Reg) (gb : Reg)
  /-- ADDW (R294). -/
  | addwR (t : Nat) (gd : Reg) (ga : Reg) (gb : Reg)
  /-- SUBW (R294). -/
  | subwR (t : Nat) (gd : Reg) (ga : Reg) (gb : Reg)
  /-- SLL (R294). -/
  | sllR (t : Nat) (gd : Reg) (ga : Reg) (gb : Reg)
  /-- SRL (R294). -/
  | srlR (t : Nat) (gd : Reg) (ga : Reg) (gb : Reg)
  /-- SRA (R294). -/
  | sraR (t : Nat) (gd : Reg) (ga : Reg) (gb : Reg)
  /-- ROR (R294). -/
  | rorR (t : Nat) (gd : Reg) (ga : Reg) (gb : Reg)
  /-- CEQ (R294). -/
  | ceqR (t : Nat) (gd : Reg) (ga : Reg) (gb : Reg)
  /-- CNE (R294). -/
  | cneR (t : Nat) (gd : Reg) (ga : Reg) (gb : Reg)
  /-- CLT (R294). -/
  | cltR (t : Nat) (gd : Reg) (ga : Reg) (gb : Reg)
  /-- CLTU (R294). -/
  | cltuR (t : Nat) (gd : Reg) (ga : Reg) (gb : Reg)
  /-- CLE (R294). -/
  | cleR (t : Nat) (gd : Reg) (ga : Reg) (gb : Reg)
  /-- CLEU (R294). -/
  | cleuR (t : Nat) (gd : Reg) (ga : Reg) (gb : Reg)
  /-- CBS (R294). -/
  | cbsR (t : Nat) (gd : Reg) (ga : Reg) (gb : Reg)
  /-- CBC (R294). -/
  | cbcR (t : Nat) (gd : Reg) (ga : Reg) (gb : Reg)
  /-- MIN (R294). -/
  | minR (t : Nat) (gd : Reg) (ga : Reg) (gb : Reg)
  /-- MAX (R294). -/
  | maxR (t : Nat) (gd : Reg) (ga : Reg) (gb : Reg)
  /-- MINU (R294). -/
  | minuR (t : Nat) (gd : Reg) (ga : Reg) (gb : Reg)
  /-- MAXU (R294). -/
  | maxuR (t : Nat) (gd : Reg) (ga : Reg) (gb : Reg)
  /-- MUL (R294). -/
  | mulR (t : Nat) (gd : Reg) (ga : Reg) (gb : Reg)
  /-- MULHU (R294). -/
  | mulhuR (t : Nat) (gd : Reg) (ga : Reg) (gb : Reg)
  /-- MULH (R294). -/
  | mulhR (t : Nat) (gd : Reg) (ga : Reg) (gb : Reg)
  /-- BSWAP16 (R294). -/
  | bswap16 (t : Nat) (gd : Reg) (ga : Reg)
  /-- BSWAP32 (R294). -/
  | bswap32 (t : Nat) (gd : Reg) (ga : Reg)
  /-- BSWAP64 (R294). -/
  | bswap64 (t : Nat) (gd : Reg) (ga : Reg)
  /-- POPC (R294). -/
  | popc (t : Nat) (gd : Reg) (ga : Reg)
  /-- CLZ (R294). -/
  | clz (t : Nat) (gd : Reg) (ga : Reg)
  /-- CTZ (R294). -/
  | ctz (t : Nat) (gd : Reg) (ga : Reg)
  /-- RDLK (R294). -/
  | rdlk (t : Nat) (gd : Reg)
  /-- WRLK (R294). -/
  | wrlk (t : Nat) (ga : Reg)
  /-- ADDI (R295). -/
  | addi (t : Nat) (gd : Reg) (ga : Reg) (imm : BitVec 16)
  /-- ANDI (R295). -/
  | andi (t : Nat) (gd : Reg) (ga : Reg) (imm : BitVec 16)
  /-- ORI (R295). -/
  | ori (t : Nat) (gd : Reg) (ga : Reg) (imm : BitVec 16)
  /-- XORI (R295). -/
  | xori (t : Nat) (gd : Reg) (ga : Reg) (imm : BitVec 16)
  /-- SHLORI (R295). -/
  | shlori (t : Nat) (gd : Reg) (ga : Reg) (imm : BitVec 16)
  /-- SLLI (R295). -/
  | slli (t : Nat) (gd : Reg) (ga : Reg) (amt : BitVec 6)
  /-- SRLI (R295). -/
  | srli (t : Nat) (gd : Reg) (ga : Reg) (amt : BitVec 6)
  /-- SRAI (R295). -/
  | srai (t : Nat) (gd : Reg) (ga : Reg) (amt : BitVec 6)
  /-- RORI (R295). -/
  | rori (t : Nat) (gd : Reg) (ga : Reg) (amt : BitVec 6)
  /-- CEQI (R295). -/
  | ceqi (t : Nat) (gd : Reg) (ga : Reg) (imm : BitVec 16)
  /-- CNEI (R295). -/
  | cnei (t : Nat) (gd : Reg) (ga : Reg) (imm : BitVec 16)
  /-- CLTI (R295). -/
  | clti (t : Nat) (gd : Reg) (ga : Reg) (imm : BitVec 16)
  /-- CLTUI (R295). -/
  | cltui (t : Nat) (gd : Reg) (ga : Reg) (imm : BitVec 16)
  /-- CBSI (R295). -/
  | cbsi (t : Nat) (gd : Reg) (ga : Reg) (amt : BitVec 6)
  /-- CBCI (R295). -/
  | cbci (t : Nat) (gd : Reg) (ga : Reg) (amt : BitVec 6)
  /-- EXTU (R296). -/
  | extu (t : Nat) (gd : Reg) (ga : Reg) (pos : BitVec 6) (lenm1 : BitVec 6)
  /-- EXTS (R296). -/
  | exts (t : Nat) (gd : Reg) (ga : Reg) (pos : BitVec 6) (lenm1 : BitVec 6)
  /-- INS (R296). -/
  | insF (t : Nat) (gd : Reg) (ga : Reg) (pos : BitVec 6) (lenm1 : BitVec 6)
  /-- BZ (R297). -/
  | bz (t : Nat) (ga : Reg) (off : BitVec 21)
  /-- BNZ (R297). -/
  | bnz (t : Nat) (ga : Reg) (off : BitVec 21)
  /-- BR (R297). -/
  | br (t : Nat) (off : BitVec 26)
  /-- CALL (R297). -/
  | call (t : Nat) (off : BitVec 26)
  /-- JR (R297). -/
  | jr (t : Nat) (ga : Reg)
  /-- JRL (R297). -/
  | jrl (t : Nat) (ga : Reg)
  /-- RET (R298). -/
  | retI (t : Nat)
  /-- JLK (R297). -/
  | jlk (t : Nat)
  /-- LB (R299). -/
  | lb (t : Nat) (gd : Reg) (ga : Reg) (imm : BitVec 16)
  /-- LBU (R299). -/
  | lbu (t : Nat) (gd : Reg) (ga : Reg) (imm : BitVec 16)
  /-- LH (R299). -/
  | lh (t : Nat) (gd : Reg) (ga : Reg) (imm : BitVec 16)
  /-- LHU (R299). -/
  | lhu (t : Nat) (gd : Reg) (ga : Reg) (imm : BitVec 16)
  /-- LW (R299). -/
  | lw (t : Nat) (gd : Reg) (ga : Reg) (imm : BitVec 16)
  /-- LWU (R299). -/
  | lwu (t : Nat) (gd : Reg) (ga : Reg) (imm : BitVec 16)
  /-- LD (R299). -/
  | ld (t : Nat) (gd : Reg) (ga : Reg) (imm : BitVec 16) (err : Option CoreArray)
  /-- LHN (R299). -/
  | lhn (t : Nat) (gd : Reg) (ga : Reg) (imm : BitVec 16)
  /-- LWN (R299). -/
  | lwn (t : Nat) (gd : Reg) (ga : Reg) (imm : BitVec 16)
  /-- LDN (R300). -/
  | ldn (t : Nat) (gd : Reg) (ga : Reg) (imm : BitVec 16)
  /-- SB (R299). -/
  | sb (t : Nat) (gd : Reg) (ga : Reg) (imm : BitVec 16)
  /-- SH (R299). -/
  | sh (t : Nat) (gd : Reg) (ga : Reg) (imm : BitVec 16)
  /-- SW (R299). -/
  | sw (t : Nat) (gd : Reg) (ga : Reg) (imm : BitVec 16)
  /-- SD (R299). -/
  | sd (t : Nat) (gd : Reg) (ga : Reg) (imm : BitVec 16)
  /-- SHN (R299). -/
  | shn (t : Nat) (gd : Reg) (ga : Reg) (imm : BitVec 16)
  /-- SWN (R299). -/
  | swn (t : Nat) (gd : Reg) (ga : Reg) (imm : BitVec 16)
  /-- SDN (R300). -/
  | sdn (t : Nat) (gd : Reg) (ga : Reg) (imm : BitVec 16)
  /-- CZERO (R270). -/
  | czero (t : Nat) (all : Bool) (ga : Reg) (imm : BitVec 16)
  /-- CCLEAN (R270). -/
  | cclean (t : Nat) (all : Bool) (ga : Reg) (imm : BitVec 16)
  /-- CINVAL (R270). -/
  | cinval (t : Nat) (all : Bool) (ga : Reg) (imm : BitVec 16)
  /-- CFLUSH (R270). -/
  | cflush (t : Nat) (all : Bool) (ga : Reg) (imm : BitVec 16)
  /-- CPREF (R270). -/
  | cpref (t : Nat) (all : Bool) (ga : Reg) (imm : BitVec 16)
  /-- REP (R301). -/
  | rep (t : Nat) (w : W32) (nxt : W32)
  /-- BCOPY (R305). -/
  | bcopy (t : Nat) (size : BitVec 2)
  /-- BFILL (R305). -/
  | bfill (t : Nat) (size : BitVec 2) (ga : Reg)
  /-- BCMP (R305). -/
  | bcmp (t : Nat) (size : BitVec 2) (gd : Reg)
  /-- BFIND (R305). -/
  | bfind (t : Nat) (size : BitVec 2) (ne : Bool) (gd : Reg) (ga : Reg) (gb : Reg)
  /-- LKP (R310). -/
  | lkp (t : Nat) (gd : Reg) (ga : Reg) (gb : Reg)
  /-- WEIR (R312). -/
  | weir (t : Nat) (gd : Reg) (ga : Reg) (gb : Reg)
  /-- JEMIT (R313). -/
  | jemit (t : Nat) (gd : Reg) (ga : Reg) (gb : Reg)
  /-- JDELIV (R314). -/
  | jdeliv (t : Nat) (gd : Reg) (ga : Reg) (gb : Reg)
  /-- JCNT (R315). -/
  | jcnt (t : Nat) (gd : Reg) (ga : Reg) (gb : Reg)
  /-- JLEDG (R315). -/
  | jledg (t : Nat) (gd : Reg) (ga : Reg) (gb : Reg)
  /-- JTBL (R316). -/
  | jtbl (t : Nat) (gd : Reg) (ga : Reg) (gb : Reg)
  /-- JCTX (R317). -/
  | jctx (t : Nat) (gd : Reg) (ga : Reg) (gb : Reg)
  /-- JFREE (R317). -/
  | jfree (t : Nat) (gd : Reg) (ga : Reg)
  /-- ORDER_ENTER (R220). -/
  | orderEnter (t : Nat) (n : BitVec 2)
  /-- ORDER_EXIT (R220). -/
  | orderExit (t : Nat) (n : BitVec 2)
  /-- RETIRE (R208). -/
  | retire (t : Nat) (reason : BitVec 2)
  /-- WAITEV (R321). -/
  | waitev (t : Nat) (gd : Reg) (ga : Reg) (gb : Reg)
  /-- SETEV (R320). -/
  | setev (t : Nat) (ga : Reg) (gb : Reg)
  /-- DELAY (R320). -/
  | delay (t : Nat) (gd : Reg) (ga : Reg) (gb : Reg)
  /-- FORK (R256). -/
  | fork (t : Nat) (gd : Reg) (ga : Reg) (gb : Reg)
  /-- JOIN (R258). -/
  | join (t : Nat) (gd : Reg) (ga : Reg)
  /-- PARK (R321). -/
  | park (t : Nat) (gd : Reg) (ga : Reg) (gb : Reg)
  /-- END (R258). -/
  | endI (t : Nat)
  /-- CHPUT (R322). -/
  | chput (t : Nat) (gd : Reg) (ga : Reg) (gb : Reg)
  /-- CHEND (R322). -/
  | chend (t : Nat) (gd : Reg) (ga : Reg)
  /-- CHGET (R322). -/
  | chget (t : Nat) (gd : Reg) (ga : Reg)
  /-- CHPOLL (R322). -/
  | chpoll (t : Nat) (gd : Reg) (ga : Reg)
  /-- MFS (R323). -/
  | mfs (t : Nat) (gd : Reg) (n : BitVec 8)
  /-- MTS (R323). -/
  | mts (t : Nat) (gd : Reg) (n : BitVec 8)
  /-- TRET (R324). -/
  | tret (t : Nat)
  /-- BREAK (R325). -/
  | breakI (t : Nat) (code : BitVec 15)
  /-- CSUM (R336). -/
  | csum (t : Nat) (gd : Reg) (ga : Reg) (gb : Reg)
  /-- CSUMADJ (R336). -/
  | csumadj (t : Nat) (gd : Reg) (ga : Reg) (gb : Reg)
  /-- CRC (R337). -/
  | crc (t : Nat) (gd : Reg) (ga : Reg) (gb : Reg) (size : BitVec 2) (ieee : Bool)
  /-- CSUMM (R336). -/
  | csumm (t : Nat) (gd : Reg) (ga : Reg)
  /-- CRCM (R337). -/
  | crcm (t : Nat) (gd : Reg) (ga : Reg) (ieee : Bool)
  /-- HMIX (R338). -/
  | hmix (t : Nat) (gd : Reg) (ga : Reg) (gb : Reg)
  /-- TPLZ (R338). -/
  | tplz (t : Nat) (gd : Reg) (ga : Reg) (gb : Reg)
  /-- HRANGE (R338). -/
  | hrange (t : Nat) (gd : Reg) (ga : Reg) (gb : Reg)
  /-- GCTR_ENC (R344). -/
  | gctrEnc (t : Nat) (gd : Reg) (ga : Reg)
  /-- GCTR_DEC (R344). -/
  | gctrDec (t : Nat) (gd : Reg) (ga : Reg)
  /-- GHASH_AAD (R344). -/
  | ghashAad (t : Nat) (gd : Reg) (ga : Reg)
  /-- GCM_FINAL (R344). -/
  | gcmFinal (t : Nat) (gd : Reg) (ga : Reg) (gb : Reg)
  /-- COPROC_UNFITTED (R326). -/
  | coprocUnfitted (t : Nat) (w : W32)
  /-- TBL_INSERT (R396). -/
  | tblInsert (r : Requester) (w : W64)
  /-- TBL_UPDATE (R396). -/
  | tblUpdate (r : Requester) (w : W64)
  /-- TBL_DELETE (R396). -/
  | tblDelete (r : Requester) (w : W64)
  /-- TBL_LOOKUP (R396). -/
  | tblLookup (r : Requester) (w : W64)
  /-- TBL_READ_INDEX (R396). -/
  | tblReadIndex (r : Requester) (w : W64)
  /-- TBL_WRITE_INDEX (R396). -/
  | tblWriteIndex (r : Requester) (w : W64)
  /-- TBL_DIGEST_BLOCK (R400). -/
  | tblDigestBlock (r : Requester) (w : W64)
  /-- TBL_CMD_DONE (R396). -/
  | tblCmdDone (r : Requester)
  /-- EM_OVERLAY_DECIDE (R384). -/
  | emOverlayDecide
  /-- EM_OVERLAY_RETIRE (R384). -/
  | emOverlayRetire
  /-- LPM_REBUILD_DONE (R399). -/
  | lpmRebuildDone (vrf : Nat) (family : Nat)
  /-- DIGEST_SCRUB_BLOCK (R401). -/
  | digestScrubBlock (table : Nat)
  /-- HBM_REQUEST (R460). -/
  | hbmRequest (port : Nat) (addr : Nat) (len : Nat) (write : Bool) (data : List Byte)
  /-- HBM_ISSUE (R460). -/
  | hbmIssue (pc : Nat) (err : HbmErr)
  /-- ROW_TIMEOUT (R458). -/
  | rowTimeout (pc : Nat) (bank : Nat)
  /-- REFRESH_DUE (R464). -/
  | refreshDue (pc : Nat) (bank : Nat) (idle : Bool)
  /-- HBM_TEMP_READ (R464). -/
  | hbmTempRead (stack : Nat) (temp : Nat)
  /-- PC_POWER_DOWN (R465). -/
  | pcPowerDown (pc : Nat)
  /-- STACK_SELF_REFRESH (R465). -/
  | stackSelfRefresh (stack : Nat)
  /-- PATROL_SCRUB (R468). -/
  | patrolScrub (pc : Nat) (err : HbmErr)
  /-- TIMING_TRACK (R469). -/
  | timingTrack (pc : Nat)
  /-- TEMP_RETRAIN (R469). -/
  | tempRetrain (pc : Nat)
  /-- RETIRE_DRAIN_DONE (R471). -/
  | retireDrainDone
  /-- RETIRE_WAIT_EXPIRY (R471). -/
  | retireWaitExpiry
  /-- GRANULE_COPY_DONE (R471). -/
  | granuleCopyDone
  /-- CMD_DOORBELL (R483). -/
  | cmdDoorbell (fn : HostFn) (tail : Byte)
  /-- COMMAND_FETCH (R485). -/
  | commandFetch (fn : HostFn) (e : CmdEntry)
  /-- RSP_HEAD_WRITE (R484). -/
  | rspHeadWrite (fn : HostFn) (head : Byte)
  /-- ESEQ_ACK_WRITE (R486). -/
  | eseqAckWrite (fn : HostFn) (seq : W32)
  /-- LEASE_HEARTBEAT_WRITE (R492). -/
  | leaseHeartbeatWrite (fn : HostFn) (gen : W32)
  /-- LEASE_EXPIRY (R492). -/
  | leaseExpiry
  /-- DCI_RING_ENABLE (R482). -/
  | dciRingEnable (fn : HostFn) (ring : Nat) (base : W64)
  /-- DCI_RING_DISABLE (R482). -/
  | dciRingDisable (fn : HostFn) (ring : Nat)
  /-- FUNCTION_RESET (R487). -/
  | functionReset (fn : HostFn) (linkDown : Bool)
  /-- INT_MOD_EXPIRY (R501). -/
  | intModExpiry (fn : HostFn) (source : Nat)
  /-- PUNT_RING_ENABLE (R502). -/
  | puntRingEnable (fn : HostFn) (tx : Bool) (ring : Nat) (base : W64)
  /-- PUNT_RING_DISABLE (R502). -/
  | puntRingDisable (fn : HostFn) (tx : Bool) (ring : Nat)
  /-- PUNT_RX_POST (R502). -/
  | puntRxPost (fn : HostFn) (ring : Nat) (tail : BitVec 16)
  /-- PUNT_RX_DELIVER (R503). -/
  | puntRxDeliver (fn : HostFn) (ring : Nat) (bufs : List (Nat × Nat))
  /-- PUNT_TX_DOORBELL (R502). -/
  | puntTxDoorbell (fn : HostFn) (ring : Nat) (tail : BitVec 16)
  /-- PUNT_TX_FETCH (R505). -/
  | puntTxFetch (fn : HostFn) (ring : Nat) (len : Nat) (mode : Nat) (ts : Bool) (target : Nat) (frame : List Byte)
  /-- REGISTER_WRITE (R16). -/
  | registerWrite (fn : HostFn) (bar : Nat) (off : Nat) (size : Nat) (val : W64)
  /-- NOP (R499). -/
  | nopC (c : CmdRef)
  /-- DEVICE_INFO (R499). -/
  | deviceInfo (c : CmdRef)
  /-- LEASE_CLAIM (R493). -/
  | leaseClaim (c : CmdRef)
  /-- LEASE_RELEASE (R493). -/
  | leaseRelease (c : CmdRef)
  /-- LEASE_CONFIG (R492). -/
  | leaseConfig (c : CmdRef) (timeoutMs : Nat)
  /-- DEVICE_RESET (R525). -/
  | deviceReset (c : CmdRef) (kind : Nat)
  /-- PORT_MODE_SET (R81). -/
  | portModeSet (c : CmdRef) (port : Nat) (mode : Nat) (fec : Nat) (txPol : Byte) (rxPol : Byte)
  /-- PORT_CONFIG (R83). -/
  | portConfig (c : CmdRef) (port : Nat) (a : PortConfigArgs)
  /-- PORT_ENABLE (R82). -/
  | portEnable (c : CmdRef) (port : Nat)
  /-- PORT_DISABLE (R554). -/
  | portDisable (c : CmdRef) (port : Nat)
  /-- PORT_TEST (R108). -/
  | portTest (c : CmdRef) (port : Nat) (mode : Nat) (pattern : Nat)
  /-- PORT_STATUS (R499). -/
  | portStatus (c : CmdRef) (port : Nat)
  /-- MODULE_MAP (R102). -/
  | moduleMap (c : CmdRef) (slot : Nat) (bus : Nat) (firstLane : Nat) (lanes : Nat) (hasModsel : Nat)
  /-- MODULE_POLICY (R106). -/
  | modulePolicy (c : CmdRef) (slot : Nat) (mode : Nat) (mask : Byte) (powerClass : Nat)
  /-- MODULE_ACCESS (R107). -/
  | moduleAccess (c : CmdRef) (slot : Nat) (bank : Nat) (page : Nat) (offset : Nat) (len : Nat) (write : Nat) (data : List Byte) (answer : List Byte)
  /-- MODULE_STATUS (R499). -/
  | moduleStatus (c : CmdRef) (slot : Nat)
  /-- ECID_MAP_SET (R92). -/
  | ecidMapSet (c : CmdRef) (index : Nat) (entry : W64)
  /-- WELL_CONFIG (R113). -/
  | wellConfig (c : CmdRef) (well : Nat) (holdDomain : Nat) (holdTimeUs : Nat) (regionKib : List Nat)
  /-- SLUICE (R123). -/
  | sluice (c : CmdRef) (well : Nat) (mask : BitVec 16)
  /-- UNSLUICE (R123). -/
  | unsluice (c : CmdRef) (well : Nat) (mask : BitVec 16)
  /-- PARSE_GRAPH_LOAD (R133). -/
  | parseGraphLoad (c : CmdRef) (recs : List GraphRec)
  /-- PARSE_GRAPH_COMMIT (R133). -/
  | parseGraphCommit (c : CmdRef) (version : Nat)
  /-- HASH_PROFILE_SET (R135). -/
  | hashProfileSet (c : CmdRef) (profile : Nat) (alg : Nat) (keySel : Nat) (mode : Nat) (table : Nat) (fixedDomain : Nat) (input : BitVec 128)
  /-- HASH_KEY_SET (R135). -/
  | hashKeySet (c : CmdRef) (key : Nat) (bytes : List Byte)
  /-- INDIRECTION_SET (R137). -/
  | indirectionSet (c : CmdRef) (table : Nat) (first : Nat) (entries : List W32)
  /-- INTAKE_STATS (R148). -/
  | intakeStats (c : CmdRef) (port : Nat)
  /-- TABLE_BATCH (R397). -/
  | tableBatch (c : CmdRef) (atomic : Bool) (stopOnError : Bool) (ops : List TblOp)
  /-- TABLE_BATCH_DONE (R397). -/
  | tableBatchDone (c : CmdRef)
  /-- TABLE_READ (R499). -/
  | tableRead (c : CmdRef) (w : W64) (keys : List W64)
  /-- TABLE_STATS (R499). -/
  | tableStats (c : CmdRef) (table : Nat)
  /-- EM_TABLE_SET (R382). -/
  | emTableSet (c : CmdRef) (table : Nat) (bucketsLog2 : Nat) (klen : Nat) (cache : Nat) (destroy : Nat) (seed : W32)
  /-- L2_CONFIG (R374). -/
  | l2Config (c : CmdRef) (ageTimeS : Nat) (flushOnDown : Nat)
  /-- L2_FLUSH (R376). -/
  | l2Flush (c : CmdRef) (scope : Nat) (value : Nat)
  /-- TABLE_SCRUB_CONFIG (R401). -/
  | tableScrubConfig (c : CmdRef) (table : Nat) (enable : Nat) (periodS : Nat) (ringAddr : Nat) (ringEntries : Nat)
  /-- IMAGE_LOAD (R518). -/
  | imageLoad (c : CmdRef) (version : Nat) (addr : Nat) (len : Nat) (image : List Byte)
  /-- IMAGE_LOAD_DONE (R518). -/
  | imageLoadDone (c : CmdRef)
  /-- CLUSTER_LOAD (R558). -/
  | clusterLoad (c : CmdRef) (cluster : Nat) (version : Nat)
  /-- CLUSTER_DRAIN (R558). -/
  | clusterDrain (c : CmdRef) (cluster : Nat) (timeoutUs : Nat)
  /-- CLUSTER_DRAIN_TIMEOUT (R558). -/
  | clusterDrainTimeout (cluster : Nat)
  /-- CLUSTER_ADMIT (R558). -/
  | clusterAdmit (c : CmdRef) (cluster : Nat)
  /-- CORE_RETIRE (R559). -/
  | coreRetire (c : CmdRef) (core : Nat) (restore : Nat)
  /-- CORE_RETIRE_TIMEOUT (R559). -/
  | coreRetireTimeout (core : Nat)
  /-- CORE_CONFIG (R287). -/
  | coreConfig (c : CmdRef) (target : Nat) (a : CoreConfigArgs)
  /-- CLUSTER_CONFIG (R287). -/
  | clusterConfig (c : CmdRef) (cluster : Nat) (scratchWays : Nat) (watchdog : Nat) (pfDepth : Nat)
  /-- CORE_STATS (R287). -/
  | coreStats (c : CmdRef) (core : Nat)
  /-- ORDER_CONFIG (R243). -/
  | orderConfig (c : CmdRef) (affinityWait : Nat) (excHost : Nat) (excRing : Nat) (fenceDrain : Nat) (stallTime : Nat)
  /-- VERSION_FENCE (R236). -/
  | versionFence (c : CmdRef) (version : Nat) (all : Bool) (cancel : Bool) (first : Nat) (count : Nat)
  /-- DOMAIN_STATUS (R244). -/
  | domainStatus (c : CmdRef) (first : Nat) (count : Nat)
  /-- ORDER_STATS (R242). -/
  | orderStats (c : CmdRef)
  /-- HELPER_CONTROL (R334). -/
  | helperControl (c : CmdRef) (action : Nat) (unitNo : Nat) (index : Nat)
  /-- LOCK_GROUP_SET (R346). -/
  | lockGroupSet (c : CmdRef) (group : Nat) (mask : Nat) (timeout : Nat)
  /-- LOCK_FORCE_RELEASE (R352). -/
  | lockForceRelease (c : CmdRef) (lock : Nat)
  /-- TASK_CONFIG (R362). -/
  | taskConfig (c : CmdRef) (cluster : Nat) (tick0 : Nat) (tick1 : Nat) (tick2 : Nat) (tick3 : Nat) (detectEn : Nat) (window : Nat)
  /-- TASK_SIGNAL (R360). -/
  | taskSignal (c : CmdRef) (thread : Nat) (flags : W32)
  /-- TASK_STATUS (R365). -/
  | taskStatus (c : CmdRef) (cluster : Nat)
  /-- CHANNEL_STATUS (R358). -/
  | channelStatus (c : CmdRef) (cluster : Nat) (first : Nat) (count : Nat)
  /-- TIME_SOURCE (R51). -/
  | timeSource (c : CmdRef) (phase : Nat) (freq : Nat) (ptpPort : Nat) (ptpDomain : Nat) (holdoverS : Nat)
  /-- TIME_STEP (R60). -/
  | timeStep (c : CmdRef) (amount : Nat) (gen : W32)
  /-- TIME_STATUS (R46). -/
  | timeStatus (c : CmdRef)
  /-- PPS_OUT_CONFIG (R72). -/
  | ppsOutConfig (c : CmdRef) (compQns : Int) (highNs : Nat) (freerun : Nat)
  /-- EPOCH_CONFIG (R436). -/
  | epochConfig (c : CmdRef) (action : Nat) (lengthS : Nat) (graceMs : Nat)
  /-- LEDGER_INIT (R443). -/
  | ledgerInit (c : CmdRef) (slots : Nat) (prev : Option LedgerPrev)
  /-- LEDGER_INIT_DONE (R443). -/
  | ledgerInitDone (c : CmdRef)
  /-- LEDGER_READ (R444). -/
  | ledgerRead (c : CmdRef) (epoch : Nat) (offset : Nat) (len : Nat) (addr : Nat)
  /-- LEDGER_READ_DONE (R444). -/
  | ledgerReadDone (c : CmdRef)
  /-- LEDGER_ACK (R444). -/
  | ledgerAck (c : CmdRef) (epoch : Nat)
  /-- LEDGER_FLUSH_SET (R446). -/
  | ledgerFlushSet (c : CmdRef) (addr : Nat)
  /-- LEDGER_INFO (R499). -/
  | ledgerInfo (c : CmdRef)
  /-- LEDGER_STATS (R448). -/
  | ledgerStats (c : CmdRef)
  /-- BUFFER_QUOTA_SET (R173). -/
  | bufferQuotaSet (c : CmdRef) (kind : Nat) (index : Nat) (min : Nat) (max : Nat) (alpha : Nat)
  /-- QUEUE_SPILL_SET (R181). -/
  | queueSpillSet (c : CmdRef) (queue : Nat) (en : Nat) (spillOn : Nat) (refillLow : Nat)
  /-- CISTERN_CONFIG (R178). -/
  | cisternConfig (c : CmdRef) (sizeGib : Nat)
  /-- BUFFER_RECLAIM (R161). -/
  | bufferReclaim (c : CmdRef) (mode : Nat) (cluster : Nat) (handles : List W32)
  /-- BUFFER_STATUS (R193). -/
  | bufferStatus (c : CmdRef)
  /-- QUEUE_GROUP_SET (R404). -/
  | queueGroupSet (c : CmdRef) (group : Nat) (port : Nat) (weight : Nat) (spMask : Byte) (rate : Nat) (burst : Nat)
  /-- QUEUE_CONFIG (R405). -/
  | queueConfig (c : CmdRef) (queue : Nat) (qmax : Nat) (weight : Nat) (wred : Nat) (rate : Nat) (burst : Nat)
  /-- EGRESS_PORT_SET (R406). -/
  | egressPortSet (c : CmdRef) (port : Nat) (rate : Nat) (burst : Nat) (overhead : Int) (downPolicy : Nat) (holdTime : Nat) (pfcMap : BitVec 24)
  /-- WRED_PROFILE_SET (R415). -/
  | wredProfileSet (c : CmdRef) (profile : Nat) (min : Nat) (max : Nat) (pmax : Nat) (w : Nat) (ecn : Nat) (kmark : Nat)
  /-- PFC_THRESHOLD_SET (R417). -/
  | pfcThresholdSet (c : CmdRef) (port : Nat) (cls : Nat) (xoff : Nat) (xon : Nat)
  /-- MC_GROUP_SET (R418). -/
  | mcGroupSet (c : CmdRef) (group : Nat) (members : List W32)
  /-- MC_MEMBER_OP_SET (R418). -/
  | mcMemberOpSet (c : CmdRef) (mop : Nat) (slot : BitVec 128)
  /-- QUEUE_FLUSH (R425). -/
  | queueFlush (c : CmdRef) (scope : Nat) (index : Nat)
  /-- SUMP_CONFIG (R429). -/
  | sumpConfig (c : CmdRef) (code : Nat) (rate : Nat) (host : Nat) (ring : Nat)
  /-- QUEUE_STATS (R499). -/
  | queueStats (c : CmdRef) (first : Nat) (count : Nat)
  /-- SUMP_STATS (R428). -/
  | sumpStats (c : CmdRef)
  /-- POWER_POLICY (R535). -/
  | powerPolicy (c : CmdRef) (tol : List W32)
  /-- POWER_STATUS (R545). -/
  | powerStatus (c : CmdRef)
  /-- PART_RESET (R552). -/
  | partReset (c : CmdRef) (kind : Nat) (index : Nat)
  /-- PART_RESET_DONE (R552). -/
  | partResetDone (kind : Nat) (index : Nat)
  /-- WELL_ENABLE (R555). -/
  | wellEnable (c : CmdRef) (well : Nat) (enable : Nat)
  /-- FAULT_LOG_READ (R561). -/
  | faultLogRead (c : CmdRef) (frm : W32) (count : Nat)
  /-- ERROR_STATS (R561). -/
  | errorStats (c : CmdRef)
  /-- DEBUG_HALT (R563). -/
  | debugHalt (c : CmdRef) (thread : Nat) (release : Nat)
  /-- DEBUG_RESUME (R565). -/
  | debugResume (c : CmdRef) (thread : Nat)
  /-- DEBUG_STEP (R565). -/
  | debugStep (c : CmdRef) (thread : Nat) (count : Nat)
  /-- DEBUG_BREAK_SET (R567). -/
  | debugBreakSet (c : CmdRef) (cluster : Nat) (slot : Nat) (kind : Nat) (addr : Nat)
  /-- DEBUG_READ (R569). -/
  | debugRead (c : CmdRef) (thread : Nat) (space : Nat) (addr : Nat) (len : Nat)
  /-- DEBUG_WRITE (R569). -/
  | debugWrite (c : CmdRef) (thread : Nat) (space : Nat) (addr : Nat) (len : Nat) (data : List Byte)
  /-- TRACE_CONFIG (R571). -/
  | traceConfig (c : CmdRef) (cluster : Nat) (mode : Nat) (filter : W64)
  /-- TRACE_READ (R571). -/
  | traceRead (c : CmdRef) (cluster : Nat)
  /-- DEBUG_DISCARD (R570). -/
  | debugDiscard (c : CmdRef) (domain : Nat) (seq : W32)
  /-- ATTEST (R522). -/
  | attest (c : CmdRef) (nonce : List Byte)
  /-- IDENTITY_CERT (R520). -/
  | identityCert (c : CmdRef)
  /-- DEBUG_CHALLENGE (R523). -/
  | debugChallenge (c : CmdRef)
  /-- DEBUG_UNLOCK (R523). -/
  | debugUnlock (c : CmdRef) (nonce : List Byte) (sig : List Byte)
  /-- DEBUG_NONCE_EXPIRY (R523). -/
  | debugNonceExpiry
  /-- FW_UPDATE (R529). -/
  | fwUpdate (c : CmdRef) (slot : Nat) (addr : Nat) (len : Nat) (image : FwImage)
  /-- FW_UPDATE_DONE (R529). -/
  | fwUpdateDone (c : CmdRef) (ok : Bool)
  /-- FW_ACTIVATE (R530). -/
  | fwActivate (c : CmdRef) (slot : Nat)
  /-- FW_CONFIRM_TIMEOUT (R530). -/
  | fwConfirmTimeout
  /-- CRYPTO_KEY_SET (R340). -/
  | cryptoKeySet (c : CmdRef) (slot : Nat) (alg : Nat) (key : List Byte)
  /-- HBM_PARTITION (R454). -/
  | hbmPartition (c : CmdRef) (action : Nat) (id : Nat) (order : Nat) (right : Nat) (sizes : List Nat)
  /-- HBM_PARTITION_READ (R499). -/
  | hbmPartitionRead (c : CmdRef)
  /-- HBM_QOS_SET (R463). -/
  | hbmQosSet (c : CmdRef) (port : Nat) (priority : Nat) (targetNs : Nat) (rowTimeoutNs : Nat)
  /-- HBM_SCRUB_CONFIG (R468). -/
  | hbmScrubConfig (c : CmdRef) (periodH : Nat) (retireWaitMs : Nat)
  /-- HBM_REPAIR (R470). -/
  | hbmRepair (c : CmdRef) (pc : Nat) (sid : Nat) (bank : Nat) (kind : Nat) (row : Nat) (spare : Bool)
  /-- HBM_PC_RETIRE (R471). -/
  | hbmPcRetire (c : CmdRef) (pc : Nat)
  /-- HBM_STATS (R499). -/
  | hbmStats (c : CmdRef)
  /-- PH_WATCHDOG_EXPIRY (R526). -/
  | phWatchdogExpiry
  /-- PH_RESTART_DONE (R489). -/
  | phRestartDone
  /-- UNIT_FAULT (R547). -/
  | unitFault (u : FaultUnit) (cause : Nat)
  /-- COLD_PRIMING (R508). -/
  | coldPriming (o : PrimingObs)
  /-- COLD_RESET (R524). -/
  | coldReset
  /-- BROWN_OUT (R586). -/
  | brownOut
  /-- HOST_PUSH_GO (R515). -/
  | hostPushGo (fn : HostFn) (len : Nat)
  /-- HOST_PUSH_DONE (R515). -/
  | hostPushDone (image : FwImage)
  /-- WARM_RESET (R525). -/
  | warmReset
  /-- WRST_RISE (R525). -/
  | wrstRise
  /-- POWER_FAIL (R540). -/
  | powerFail
  /-- POWER_FAIL_FLUSH_DONE (R540). -/
  | powerFailFlushDone
  /-- PWRFAIL_RISE (R543). -/
  | pwrfailRise
  /-- CLASS_IDLE (R532). -/
  | classIdle (cls : Nat)
  /-- CORE_GATE_IDLE (R531). -/
  | coreGateIdle (core : Nat)
  /-- CLUSTER_RETENTION_IDLE (R531). -/
  | clusterRetentionIdle (cluster : Nat)
  /-- CLUSTER_OFF_IDLE (R531). -/
  | clusterOffIdle (cluster : Nat)
  /-- CLUSTER_WAKE_DISPATCH (R534). -/
  | clusterWakeDispatch
  /-- PREWAKE (R536). -/
  | prewake (part : Nat)
  /-- SENSOR_READ (R537). -/
  | sensorRead (sensor : Nat) (temp : Nat)
  /-- EXTEST (R573). -/
  | extest
  /-- SAMPLE_PRELOAD (R573). -/
  | samplePreload
  /-- IDCODE (R573). -/
  | idcode
  /-- CLAMP (R573). -/
  | clampJ
  /-- HIGHZ (R573). -/
  | highz
  /-- EXTEST_PULSE (R573). -/
  | extestPulse
  /-- EXTEST_TRAIN (R573). -/
  | extestTrain
  /-- BYPASS (R573). -/
  | bypass
  /-- BOUNDARY_SCAN_EXIT (R573). -/
  | boundaryScanExit
  /-- DEBUG_ACCESS (R574). -/
  | debugAccess (dr : BitVec 1024)
  /-- OTP_PROG (R517). -/
  | otpProg (dr : BitVec 2064)
  /-- TAP_RESET (R593). -/
  | tapReset
  /-- RX_WHILE_DOWN (R97). -/
  | rxWhileDown (rx : DownRx)
  /-- SHAPER_TOKENS_RETURN (R410). -/
  | shaperTokensReturn (port : Nat)
  /-- BROWN_OUT_RECOVERY (R586). -/
  | brownOutRecovery
  /-- HOST_LINK_UP (R475). -/
  | hostLinkUp (fn : HostFn)
  /-- STORE_BUFFER_DRAIN (R273). -/
  | storeBufferDrain (t : Nat)
deriving DecidableEq, Repr

end Sys2Proof
end

