-- ==== Sys2Proof/Decode.lean ====
section
/-!
DEFINITION. The command that a word of the opcode table spells. This block takes commands and decodes no words: no row
of the table gives bits, so no word spells a command.
-/

namespace Sys2Proof

/-- The command a word spells: none. -/
def decodeTableWord (_nbits _w : Nat) : Option Instr := none

end Sys2Proof
end

