-- ==== Sys2Proof/Config.lean ====
section
/-!
DEFINITION. What an implementation fixes and the spec does not, and the free values: constants without a body, so
that no proof can see what they are.
-/

namespace Sys2Proof.Config

/-- The n-th free value the machine draws: a TRNG word, a value the spec leaves undefined (log 2). -/
opaque freeWord : Nat → BitVec 64

/-- A byte string of free bytes drawn from the n-th free value. -/
def freeBytes (n len : Nat) : List Byte :=
  (List.range len).map fun k => (freeWord (n + k / 8) >>> (8 * (k % 8))).setWidth 8

/-- Whether the part is of the -27 grade (2.7 GHz) and not of the -30 grade (R14). -/
opaque slowGrade : Bool

/-- The PTP announce receipt timeout in nanoseconds, to which the spec gives no value (log 37). -/
opaque announceTimeoutNs : Nat

/-- The silicon and ROM revisions (R479). -/
opaque silicon : BitVec 8
opaque romRev : BitVec 8

/-- The ARRAY code of CORE_MEM_ERROR for a core memory, which no rule numbers (log 12). -/
opaque arrayCode : Nat → BitVec 8

/-- The EFFECT code of TABLE_ERROR for a row of R399's table, which no rule numbers (log 12). -/
opaque effectCode : Nat → BitVec 8

/-- A cage's spare output after a MODULE_ACCESS write of bank, page, offset and data, from what it was: R101 has MODULE_ACCESS
set it, and no field of the command names it (log 161). -/
opaque spareOutput : Nat → Nat → Nat → List (BitVec 8) → Bool → Bool

/-! SM2 (GB/T 32918.2) is left uninterpreted: what it computes is not in the spec (log 5). -/

/-- The public key of a private key. -/
opaque sm2PublicKey : List Byte → List Byte
def sm2Public (key : List Byte) : List Byte := ((sm2PublicKey key) ++ List.replicate 64 0).take 64

/-- A signature: private key, signer identity, message, nonce. -/
opaque sm2Signature : List Byte → List Byte → List Byte → BitVec 64 → List Byte
def sm2Sign (key ident msg : List Byte) (nonce : BitVec 64) : List Byte :=
  ((sm2Signature key ident msg nonce) ++ List.replicate 64 0).take 64

/-- Whether a signature verifies: public key, signer identity, message, signature. -/
opaque sm2Verify : List Byte → List Byte → List Byte → List Byte → Bool

/-- The Fenilqua key hash held in ROM (R513), the SM3 of the ROM (R521), and the intermediate certificate (R520). -/
opaque romKeyHash : List Byte
opaque romDigest : List Byte
opaque intermediateCert : List Byte

end Sys2Proof.Config
end

