-- ==== Sys2Proof/Machine/State.lean ====
section
/-!
DEFINITION. The state of the QZM-192 as plain data. Each structure is one part of the device; a field's default is
its value after reset (the rule that gives it is cited beside it, or the log entry that chose it).
-/

namespace Sys2Proof.Machine

/-! ### What the device has sent out -/

/-- A frame put on a port's wire (R84, R28): its bytes without FCS, and whether the FCS sent is correct. -/
structure TxFrame where
  port : Nat
  bytes : List Byte
  fcsGood : Bool
  dt : Nat
deriving DecidableEq, Repr

/-- A write into host memory: responses, events, punt descriptors, record parts, digests. -/
structure HostWrite where
  fn : HostFn
  addr : Nat
  bytes : List Byte
deriving DecidableEq, Repr

/-- Everything the device's surroundings can see of it, oldest first. -/
structure Outputs where
  wire : List TxFrame := []
  hostMem : List HostWrite := []
  /-- MSI-X messages sent: function and vector (R501). -/
  irqs : List (HostFn × Nat) := []
  /-- PFC and PAUSE frames generated: port, priority mask (PAUSE: 0x100), quanta (R417). -/
  fcTx : List (Nat × Nat × Nat) := []
  /-- Frames punted to a receive ring: function, ring, frame bytes (R503). -/
  punted : List (HostFn × Nat × List Byte) := []
  /-- Delay_Req messages sent by the PTP slave: port, sequence number, DT (R52). -/
  ptpTx : List (Nat × Nat × Nat) := []
  /-- Data that SERDES_FAR sends back on the lanes of a port (R108). -/
  serdes : List (Nat × List Byte) := []
  /-- Bytes written to a module: slot, bank, page, offset, data (R106, R107). -/
  modWrites : List (Nat × Nat × Nat × Nat × List Byte) := []
deriving DecidableEq, Repr

/-! ### Device time -/

/-- DT's states (R47). -/
inductive DtState where
  | freerun | holdover | locked
deriving DecidableEq, Repr

/-- What a requester's snapshot latch holds (R46). -/
structure Snap where
  frac : BitVec 16 := 0
  st : DtState := .freerun
  slewing : Bool := false
  stepNeeded : Bool := false
  stepGen : W32 := 0
  valid : Bool := false
deriving DecidableEq, Repr

/-- A TIME_STEP waiting for the grace window to end (R61). -/
structure StepReq where
  c : CmdRef
  amount : Nat
  gen : W32
deriving DecidableEq, Repr

/-- A master whose Announce messages the slave has received: its port identity, data set, and the DT of the last. -/
structure PtpMaster where
  src : Nat
  set : Sys2Proof.PtpSet
  dt : Nat
deriving DecidableEq, Repr

/-- The PTP slave: the masters heard, the one selected, and the measurement in progress (R52). -/
structure PtpSt where
  masters : List PtpMaster := []
  parent : Option Nat := none
  /-- The Delay_Req that awaits its Delay_Resp: sequence number and DT of its transmission. -/
  req : Option (Nat × Nat) := none
  reqNo : Nat := 0
  qualified : Bool := false
  announced : Bool := false
  syncSeq : Nat := 0
  t1 : Nat := 0
  t2 : Nat := 0
  haveT1 : Bool := false
  haveSync : Bool := false
  lastSyncDt : Nat := 0
  intervalNs : Nat := 1000000000
  announceDt : Nat := 0
deriving DecidableEq, Repr

/-- PPS_IN and TREF_10M qualification (R53, R54). -/
structure RefIn where
  ppsQualified : Bool := false
  ppsGood : Nat := 0
  ppsLast : Nat := 0
  ppsSeen : Bool := false
  trefQualified : Bool := false
  trefPpt : Int := 0
deriving DecidableEq, Repr

/-- PPS_OUT (R72, R73). -/
structure PpsOut where
  compQns : Int := 0
  highNs : Nat := 100000000
  freerun : Bool := false
  level : Bool := false
  riseDt : Nat := 0
  lastSecond : Int := 0
deriving DecidableEq, Repr

/-- Device time (R42-R74). `ns` and `frac` are DT; `rem` is what the rate arithmetic has not yet carried into `frac`. -/
structure TimeSt where
  ns : W64 := 0
  frac : BitVec 16 := 0
  rem : Int := 0
  /-- Core clock cycles since the last device reset, and tenths not yet carried (R14). -/
  cycles : Nat := 0
  cycTenths : Nat := 0
  /-- Nanoseconds of the local time base since the last device reset. -/
  localNs : Nat := 0
  /-- DT at the last device reset, with every step since added: interval deadlines count DT from here (R15, R62). -/
  ivBase : Nat := 0
  /-- DT to which the last step led; 0 before a step. -/
  stepDt : Nat := 0
  st : DtState := .freerun
  /-- Slew in parts per 10^12: 0, or ±500 ppm (R58). -/
  slew : Int := 0
  /-- Nanoseconds of the local time base until the slew's target is reached (R59, log 36). -/
  slewNs : Nat := 0
  stepNeeded : Bool := false
  stepGen : W32 := 0
  /-- The command that made the last step (R60). -/
  stepBy : Option CmdRef := none
  offset : Int := 0
  /-- The servo's frequency correction, parts per 10^12, at most 100 ppm (R50), the corrections of LOCKED with the DT
  each began, newest first, and their average over the last 64 s of LOCKED (R47). -/
  freqCorr : Int := 0
  freqHist : List (Nat × Int) := []
  freqAvg : Int := 0
  goodMeas : Nat := 0
  phase : Nat := 0
  freq : Nat := 2
  ptpPort : Nat := 0
  ptpDomain : Nat := 0
  holdoverS : Nat := 14400
  holdoverSince : Nat := 0
  ptp : PtpSt := {}
  refs : RefIn := {}
  pps : PpsOut := {}
  snaps : SMap Snap := []
  /-- The last DT_NOW value a requester has read. -/
  reads : SMap W64 := []
  deferred : List StepReq := []
  /-- The well whose reference input is the local time base, 8 for the internal oscillator, and the DT second at which
  it switches back to W0's (R588). -/
  base : Nat := 0
  baseReturn : Option Nat := none
deriving DecidableEq, Repr

/-! ### Ports, wells, modules -/

/-- Port states (R96). -/
inductive PortState where
  | disabled | down | training | up | suppressed | test
deriving DecidableEq, Repr

/-- Flow-control modes (R86). -/
inductive FcMode where
  | none | pause | pfc
deriving DecidableEq, Repr

/-- The settings of PORT_CONFIG (R83-R100, R120, R128, R136, R139, R145, R170). -/
structure PortCfg where
  maxFrame : Nat := 9216
  fc : FcMode := .none
  an : Bool := false
  ability : BitVec 8 := 0
  cascade : Bool := false
  macctlPass : Bool := false
  standpipe : Nat := 256
  startState : Nat := 0
  defaultDomain : Nat := 0
  fragVrf : Nat := 0
  learn : Bool := false
  defaultBd : Nat := 0
  classMap : BitVec 24 := 0xFAC688
  defaultClass : Nat := 0
  holdoffMs : Nat := 0
  debounceMs : Nat := 10
  flapWindowS : Nat := 10
  flapThreshold : Nat := 0
  suppressS : Nat := 30
  train : Bool := true
deriving DecidableEq, Repr

/-- The per-port intake counters (R148), refusals by code 0-7 (R29). -/
structure IntakeCnt where
  acceptedFrames : W64 := 0
  acceptedBytes : W64 := 0
  refused : SMap W64 := []
  poisonWords : W64 := 0
  lateReplays : W64 := 0
  parseShort : W64 := 0
  parseDepth : W64 := 0
  parseError : W64 := 0
  fragUntracked : W64 := 0
  fragDup : W64 := 0
  learnDrop : W64 := 0
deriving DecidableEq, Repr

/-- The MAC and FEC counters of a port (R80, R87, R97, R28). -/
structure MacCnt where
  fecCorrected : W64 := 0
  fecUncorrectable : W64 := 0
  fecHist : SMap W64 := []
  pauseRx : W64 := 0
  pfcRx : W64 := 0
  unknownRx : W64 := 0
  ctrlErr : W64 := 0
  rxWhileDown : W64 := 0
  stomps : W64 := 0
  /-- PRBS error counters and lock flags, by lane of the port (R108). -/
  prbsErrors : SMap (BitVec 48) := []
  prbsLock : SMap Bool := []
deriving DecidableEq, Repr

/-- Link bring-up and damping of a port (R94-R100). -/
structure LinkSt where
  present : Bool := false
  /-- DT of the loss whose hold-off runs (R98). -/
  lossDt : Option Nat := none
  lossReason : Nat := 0
  /-- DT at which the running debounce began (R99). -/
  debounceDt : Option Nat := none
  downs : List Nat := []
  suppressEnd : Option Nat := none
  trainFails : Nat := 0
  trainRetry : Option Nat := none
  trained : Bool := false
  anDone : Bool := false
deriving DecidableEq, Repr

/-- A physical port, numbered by its lowest lane (R6). -/
structure Port where
  /-- The lanes it occupies; 0 when the number names no port (R82). -/
  lanes : Nat := 0
  mode : Nat := 0
  fec : Nat := 0
  st : PortState := .disabled
  enabled : Bool := false
  cfg : PortCfg := {}
  txPol : Byte := 0
  rxPol : Byte := 0
  testMode : Nat := 0
  testPattern : Nat := 0
  link : LinkSt := {}
  intake : IntakeCnt := {}
  mac : MacCnt := {}
  dciSluice : Bool := false
  /-- A PORT_DISABLE that waits for the frame in progress (R554). -/
  disabling : Option CmdRef := none
  /-- Fill and drain halves (R112): the words waiting, oldest first. -/
  fill : List IWord := []
  drain : List IWord := []
  /-- Frames of this port in order of arrival that are not yet wholly drained, and those waiting for a walk (R129). -/
  arriving : List Nat := []
  parseQ : List Nat := []
deriving DecidableEq, Repr

/-- A fragment table entry (R140). -/
structure Frag where
  key : List Nat
  domain : Nat
  hash : W32
  cls : Nat
  pref : Nat
  l4s : BitVec 16
  l4d : BitVec 16
  born : Nat
deriving DecidableEq, Repr

/-- A parse graph (R125-R127): states, TCAM entries numbered state × 64 + index, extract lists. -/
structure Graph where
  states : SMap W64 := []
  tcam : SMap (BitVec 128) := []
  extract : SMap (List (Nat × Nat × Nat)) := []
deriving DecidableEq, Repr

/-- A learn trigger or notice (R145, R371): MAC, bridge domain, port. -/
structure Learn where
  mac : BitVec 48
  bd : Nat
  port : Nat
deriving DecidableEq, Repr

/-- A well (R112-R148). -/
structure Well where
  refclk : Bool := true
  recal : Bool := false
  regions : SMap Nat := []
  holdDomain : Option Nat := none
  holdTimeUs : Nat := 2000
  disabled : Bool := false
  /-- A disable that still drains (R555): the WELL_ENABLE that asked for it, none for an escalation (R547). -/
  disabling : Option (Option CmdRef) := none
  enabledBefore : List Nat := []
  parserReset : Bool := false
  reconfig : Bool := false
  graph : Graph := {}
  graphVer : Option Nat := none
  switchPending : Bool := false
  frags : List (Nat × Frag) := []
  nextFrag : Nat := 0
  /-- Held fragments, oldest first: packet and its fragment key (R142). -/
  held : List (Nat × List Nat × Nat) := []
  triggers : List Learn := []
  noticesOut : List Learn := []
  noticesIn : List Learn := []
  lastSweep : Nat := 0
  /-- The AGE_TIME that times the next sweep; a change of it acts at that sweep (R375). -/
  sweepAge : Nat := 300
deriving DecidableEq, Repr

/-- A hash profile (R135). -/
structure HashProfile where
  alg : Nat := 0
  keySel : Nat := 0
  input : BitVec 128 := 0
  mode : Nat := 0
  table : Nat := 0
  fixedDomain : Nat := 0
deriving DecidableEq, Repr

/-- A PARSE_GRAPH_COMMIT in progress (R133). -/
structure GraphCommit where
  c : CmdRef
  version : Nat
  startDt : Nat
  /-- The graph that becomes active, and the one that was. -/
  next : Graph
  former : Graph
deriving DecidableEq, Repr

/-- Where module discovery stands (R103). -/
inductive ModPhase where
  | absent | debounceIn | idPoll | lowPower | pages | powerUp | ready | fault | unsupported | powerDenied
deriving DecidableEq, Repr

/-- A cage slot (R101-R107). -/
structure Cage where
  inputs : BitVec 4 := 0xF
  resetN : Bool := false
  lpmode : Bool := true
  modselN : Bool := true
  spareOut : Bool := false
  mapped : Bool := false
  bus : Nat := 0
  firstLane : Nat := 0
  lanes : Nat := 0
  hasModsel : Bool := false
  auto : Bool := false
  modeMask : Byte := 0
  powerClass : Nat := 0
  phase : ModPhase := .absent
  /-- DT of the presence change being debounced, and of the release of RESET_N. -/
  changeDt : Option Nat := none
  releaseDt : Nat := 0
  /-- DT of the last poll of discovery. -/
  pollDt : Nat := 0
  /-- INT_N has fallen and the flag pages have not been read (R105). -/
  intSeen : Bool := false
  ident : Byte := 0
  pages : Option ModPages := none
  selected : Option Nat := none
deriving DecidableEq, Repr

/-- A module management bus (R590). -/
structure Bus where
  fast : Bool := false
  stuck : Nat := 0
  firstStuckDt : Nat := 0
deriving DecidableEq, Repr

/-- The network side: ports, wells, graph, hash and modules. -/
structure NetSt where
  ports : SMap Port := []
  wells : SMap Well := []
  shadow : Graph := {}
  committing : Option GraphCommit := none
  profiles : SMap HashProfile := []
  hashKeys : SMap (List Byte) := []
  indirection : SMap W32 := []
  ecid : SMap W64 := []
  cages : SMap Cage := []
  buses : SMap Bus := []
  /-- MSC_OE_N is low: a load after priming has set the outputs (R591). -/
  chainValid : Bool := false
  /-- The cage inputs captured at the last load, and the output latches (R591). -/
  captured : Option (BitVec 256) := none
  latched : BitVec 256 := 0
  /-- QUIESCE_N low after filtering (R124). -/
  quiesce : Bool := false
  /-- Every port is sluiced by a device reset, a power failure, a critical temperature or the JTAG port (R525, R537, R540,
  R573). -/
  shut : Bool := false
deriving DecidableEq, Repr

/-! ### Packets, order and the journal -/

/-- Where a frame or packet stands. -/
inductive PktSt where
  | intake            -- drained, not parsed
  | walking           -- a walk has started (R120)
  | held              -- in the fragment hold queue (R142)
  | listed            -- on the dispatch list (R197)
  | next (t : Nat)    -- in a NEXT slot
  | run (t : Nat)     -- CURRENT on a thread
  | waitStore (t : Nat) -- its RETIRE waits for the pending store (R209)
  | pending           -- its journal is in the pending store
  | finished          -- committed, refused or ended
deriving DecidableEq, Repr

/-- A frame from its first word, and the packet it becomes (R21-R41, R194). Key: its arrival number. -/
structure Pkt where
  port : Nat := 0
  well : Nat := 0
  inPort : Nat := 0
  sofDt : Nat := 0
  qns : Nat := 0
  quotaClass : Nat := 0
  /-- Handed to the well by a host (R505), and that host's quota entity where the target is no physical port. -/
  host : Option HostFn := none
  /-- The bytes drained so far, and the words of them that are poisoned (R118). -/
  bytes : List Byte := []
  poisonWords : List Nat := []
  rxerr : Bool := false
  /-- The boundary list (R116): words the MAC has written, words the drain has read, whether the MAC has ended the frame,
  and whether a link loss cut it (R97). -/
  wIn : Nat := 0
  wOut : Nat := 0
  ended : Bool := false
  cut : Bool := false
  /-- The drain has read the tail, and no reason to refuse the frame was found (R21). -/
  tailIn : Bool := false
  /-- Head cell of its buffer, and how many cells have been requested (R168). -/
  head : Option Nat := none
  asked : Nat := 0
  /-- The graph and its version under which its walk runs: those active at the walk's start (R133). -/
  walkGraph : Option (Graph × Option Nat) := none
  /-- Its place in the order of parser completion (R197). -/
  parseNo : Nat := 0
  /-- The learn trigger its acceptance sends (R145). -/
  learn : Option Learn := none
  /-- Its E-tag is popped on ingress (R90). -/
  pop : Bool := false
  st : PktSt := .intake
  walkBytes : Nat := 0
  parsed : Bool := false
  fv : List Byte := []
  domain : Nat := 0
  seq : W32 := 0
  hasSeq : Bool := false
  cls : Nat := 0
  hash : W32 := 0
  pref : Nat := 0
  accepted : Bool := false
  acceptDt : Nat := 0
  refusal : Option Nat := none
  stomped : Bool := false
deriving DecidableEq, Repr

/-- The part of a packet's record that its runs change (R194, R195, R230). -/
structure RunRec where
  replay : Nat := 0
  lastTrap : Nat := 0
  poison : Bool := false
  debug : Bool := false
  cascade : Bool := false
  fenced : Bool := false
  heldFrag : Bool := false
  imageVer : Nat := 0
  dispatchDt : Nat := 0
  listDt : Nat := 0
  isReplay : Bool := false
  noCore : Option Nat := none
  firstDone : Bool := false
  /-- The poison flag was set after the present run had begun (R119). -/
  lateRun : Bool := false
  ct : Bool := false
  /-- Its cut-through frame was aborted before it committed: its copy ends as TX_ABORT at its commit (R425). -/
  ctAbort : Bool := false
  discard : Option Nat := none
  disposition : Option Nat := none
  copies : Nat := 0
  sent : Nat := 0
  left : Nat := 0
  /-- Lowest outcome code among the copies so far (R32). -/
  outcome : Nat := 31
deriving DecidableEq, Repr

/-- A journal entry (R203-R205), with the slot index of its header slot. -/
inductive JEntry where
  | emit (slot handle queue : Nat) (mc ts : Bool) (timed : Option Nat) (ops : Nat) (edit : List Byte)
  | deliver (slot handle : Nat) (host : Bool) (primary : Bool) (ring reason trunc : Nat)
  | count (slot counter : Nat) (finalLen : Bool) (pkts : Nat) (bytes : W64)
  | ledger (slot account ctr : Nat) (finalLen tx : Bool) (emitRef : Nat) (value : W64)
  | table (slot tbl op klen dlen : Nat) (keys data : List W64)
  | context (slot ctx : Nat) (qmask : Nat)
  | free (slot handle : Nat)
deriving DecidableEq, Repr

/-- The effects of a run until they are committed or discarded (R36, R240). -/
structure RunSt where
  journal : List JEntry := []
  used : Nat := 0
  copies : Nat := 0
  bufs : List Nat := []
  held : List Nat := []
  passed : List Nat := []
  /-- Forwarded quarters read inside sections: context × 4 + quarter, writer packet (R219, R234). -/
  reads : List (Nat × Nat) := []
  hasLock : Bool := false
deriving DecidableEq, Repr

/-- A journal in the pending store (R209). -/
structure PendJ where
  pkt : Nat
  run : RunSt
  reason : Nat
  reserved : Bool
  /-- For the replacement journals of R232: the disposition they carry. -/
  forced : Option Nat := none
deriving DecidableEq, Repr

/-- A RETIRE or a replacement journal that waits for room (R209). -/
structure StoreWait where
  pkt : Nat
  thread : Option Nat
  run : RunSt
  reason : Nat
  forced : Option Nat
deriving DecidableEq, Repr

/-- A commit record in a lane's share of the write-ahead log (R211, R214): the packet with its journal. -/
structure WalRec where
  pkt : Nat
  domain : Nat
  seq : W32
  j : PendJ
deriving DecidableEq, Repr

/-- An order domain (R200, R237, R244). -/
structure Dom where
  nextSeq : W32 := 0
  commitSeq : W32 := 0
  voids : List W32 := []
  live : Nat := 0
  since : Nat := 0
  stalled : Bool := false
  switch : Option W32 := none
deriving DecidableEq, Repr

/-- The armed version fence (R236). -/
structure Fence where
  version : Nat
  first : Nat
  count : Nat
  breaks : Nat
  drainEnd : Option Nat
  /-- A drain has set the switch point of every domain that had none (R238). -/
  rest : Bool := false
  /-- The cluster whose drain the fence governs (R238). -/
  drainCl : Nat := 12
deriving DecidableEq, Repr

/-- ORDER_CONFIG (R243). -/
structure OrderCfg where
  affinityWait : Nat := 100
  excHost : Nat := 0
  excRing : Nat := 0
  fenceDrain : Nat := 10
  stallTime : Nat := 50
deriving DecidableEq, Repr

/-- The order counters (R242). -/
structure OrderCnt where
  replaysCounted : W64 := 0
  replaysUncounted : W64 := 0
  cascades : W64 := 0
  orderYield : W64 := 0
  replayLimit : W64 := 0
  journalOverflow : W64 := 0
  retireStall : W64 := 0
  weirUncharged : W64 := 0
  fenceBreak : W64 := 0
  commits : SMap W64 := []
deriving DecidableEq, Repr

/-- The order unit, the headrace and the commit unit (R194-R244). -/
structure OrderSt where
  pkts : SMap Pkt := []
  recs : SMap RunRec := []
  nextPkt : Nat := 0
  nextParse : Nat := 0
  doms : SMap Dom := []
  /-- The dispatch list, in the order of R197. -/
  list : List Nat := []
  lastCluster : Nat := 11
  lastThread : Nat := 1535
  pend : List PendJ := []
  storeWait : List StoreWait := []
  wal : SMap (List WalRec) := []
  commitReset : Bool := false
  commitFault : Bool := false
  badLanes : List Nat := []
  /-- High-water marks: target unit × 65,536 + domain, the last sequence number applied (R215). -/
  marks : SMap W32 := []
  fence : Option Fence := none
  cfg : OrderCfg := {}
  cnt : OrderCnt := {}
  /-- Dispatch stopped (R540) and commit lanes stopped. -/
  stopped : Bool := false
deriving DecidableEq, Repr

/-! ### Buffers -/

/-- A basin buffer: its owner entry, its chain of cells and their bytes (R151-R156). Key: its head cell. -/
structure Buf where
  cls : Nat
  id : Nat
  count : Nat
  held : Bool
  cells : List Nat
  data : List Byte
  poison : List Nat
  /-- The packet whose run holds it provisionally (R160). -/
  prov : Option Nat
  /-- The quota entities charged for its cells (R169). -/
  ents : List Nat
  ownerBad : Bool := false
  /-- A link of its chain is broken (R187). -/
  linkBad : Bool := false
  /-- Its 64-bit words that show an uncorrectable error (R263). -/
  bad : List Nat := []
deriving DecidableEq, Repr

/-- A quota entity (R169-R173, R193). -/
structure Ent where
  min : Nat
  max : Nat
  alpha : Nat
  used : Nat := 0
  shared : Nat := 0
  extra : Nat := 0
  peak : Nat := 0
  quotaFails : W64 := 0
  noBufFails : W64 := 0
deriving DecidableEq, Repr

/-- A cell request pending at a bank (R166): the requester (0-7 wells, 8-15 refill, 16 cluster port, 17 Pumphouse and
hosts) and the packet it is for. -/
structure CellReq where
  who : Nat
  pkt : Nat
deriving DecidableEq, Repr

/-- The owner entry of a sized-pool buffer (R155). -/
structure SizedBuf where
  cls : Nat
  id : Nat := 0
  count : Nat := 1
  held : Bool := false
deriving DecidableEq, Repr

/-- The basin and the buffer pool manager (R149-R193). -/
structure BasinSt where
  bufs : List (Nat × Buf) := []
  /-- Cells in use per bank, rising (R165). -/
  used : SMap (List Nat) := []
  /-- Cells of fenced bitmap words (R187), cells replaced by a spare, and cells retired without one (R188). -/
  fenced : List Nat := []
  retired : List Nat := []
  lost : List Nat := []
  faults : List (Nat × Nat) := []
  spares : Nat := 2048
  reqs : SMap (List CellReq) := []
  bankPtr : SMap Nat := []
  toggle : SMap Bool := []
  rrPort : SMap Nat := []
  ents : SMap Ent := []
  sharedUsed : Nat := 0
  /-- Requests of these packets have lost a bank's last free cell (R167). -/
  lostReqs : List Nat := []
  /-- The sized pools: buffers in use, by number (R150, R155, R175). -/
  pools : SMap (List (Nat × SizedBuf)) := []
  rebuild : Bool := false
  rebuildWait : Bool := false
  rebuildStart : Nat := 0
  /-- Cells beyond a broken link, with the entities they are charged to (R187). -/
  orphans : List (Nat × List Nat) := []
  badFree : SMap W64 := []
  badFreeDt : SMap Nat := []
  badFreeNew : SMap Nat := []
deriving DecidableEq, Repr

/-- A spilled record (R179, R180): the copy it holds, under its cistern handle; its blocks, and where it starts in the first of
them; and, until its write is acknowledged, the basin buffer it was read from (R183). -/
structure SpillRec (κ : Type) where
  copy : κ
  bytes : List Byte
  poison : Bool
  blocks : List Nat
  recNo : Nat
  pos : Nat := 0
  basin : Nat := 0
deriving DecidableEq, Repr

/-- The cistern (R177-R186). -/
structure CisternSt where
  sizeGib : Nat := 0
  limit : Nat := 0
  shrink : Option CmdRef := none
  shrinking : Bool := false
  shrinkCause : Nat := 0
  usedBlocks : List Nat := []
  /-- The pseudo-channel of the block taken last (R461). -/
  lastPc : Nat := 63
  /-- Pseudo-channels whose blocks are fenced from allocation (R471). -/
  fencedPcs : List Nat := []
deriving DecidableEq, Repr

/-! ### Queues, pumps, rewrite -/

/-- A copy of an emission (R407). -/
structure Copy where
  handle : Nat
  queue : Nat
  len : Nat
  ts : Bool
  mark : Bool
  ct : Bool
  /-- Slot index of the journal entry that made it: copies of one emission share one stored edit list (R419). -/
  emit : Nat := 0
  /-- Attached LEDGER entries with TX 1: account, counter, final-length flag, value (R211). -/
  txl : List (Nat × Nat × Bool × W64)
  edit : List Byte
  ops : Nat
  member : Option (BitVec 128)
  no : Nat
  inPort : Nat
  pkt : Nat
  domain : Nat
  seq : W32
  finalLen : Nat
  ingressDt : Nat
  qns : Nat
  slots : Nat
  release : Option Nat
  /-- The cascade port at whose pump it waits, for a queue of an extended port (R93). -/
  cascade : Option Nat := none
  /-- A host transmit: function, ring × 65,536 + descriptor index (R505). -/
  hostTx : Option (HostFn × Nat)
deriving DecidableEq, Repr

/-- An aggregate of a queue (R183): open, or written and not yet acknowledged. -/
structure Agg where
  copies : List Copy
  opened : Nat
  written : Bool
  /-- Its records, once it is written. -/
  recs : List (SpillRec Copy) := []
deriving DecidableEq, Repr

/-- A shaper (R410): tokens in 1/512 byte. -/
structure Shaper where
  rate : Nat := 0
  burst : Nat := 16384
  tokens : Int := 8388608
  last : Nat := 0
deriving DecidableEq, Repr

/-- A class queue (R405, R181). -/
structure Queue where
  qmax : Nat := 0
  weight : Nat := 1
  wred : Nat := 0
  shaper : Shaper := {}
  /-- Below 0 after a cut-through frame longer than its credit (R409). -/
  deficit : Int := 0
  avg : Nat := 0
  spillEn : Bool := false
  spillOn : Nat := 256
  refillLow : Nat := 64
  head : List Copy := []
  spill : List (SpillRec Copy) := []
  /-- The last block of the spill segment: the record bytes in it, and how many records start in it (R179, R180). -/
  spillLast : List Byte := []
  spillRecs : Nat := 0
  tail : List Copy := []
  agg : Option Agg := none
  /-- Aggregates written and not yet acknowledged, oldest first (R183). -/
  writing : List Agg := []
  /-- Records that reads are bringing back, oldest read first (R184). -/
  refilling : List (List (SpillRec Copy)) := []
  peak : Nat := 0
  drops : W64 := 0
  flush : Option CmdRef := none
  flushed : Nat := 0
deriving DecidableEq, Repr

/-- A queue group (R404, R409). -/
structure QGroup where
  port : Nat := 0xFFFF
  weight : Nat := 1
  spMask : Byte := 0
  shaper : Shaper := {}
  /-- Below 0 after a cut-through frame longer than its credit (R409). -/
  deficit : Int := 0
  lastClass : Nat := 7
deriving DecidableEq, Repr

/-- Where a frame being sent stands (R425, R426). -/
structure TxNow where
  copy : Copy
  bytes : List Byte
  poisonAt : Option Nat
  started : Nat
  startedQ : Nat
deriving DecidableEq, Repr

/-- The down-policy phases (R424). -/
inductive DownPhase where
  | none | hold | flush
deriving DecidableEq, Repr

/-- The egress side of a logical port (R406, R416, R417, R424). -/
structure EPort where
  shaper : Shaper := {}
  overhead : Int := 0
  downPolicy : Nat := 0
  holdTime : Nat := 50
  pfcMap : BitVec 24 := 0xFAC688
  phase : DownPhase := .none
  downDt : Nat := 0
  flushed : Nat := 0
  /-- DT at which the pause of a class ends (R416). -/
  pauseEnd : SMap Nat := []
  /-- Ingress classes for which XOFF is in force, as DT of the last send plus 1; class 8 is PAUSE (R417). -/
  xoff : SMap Nat := []
  /-- The XOFF and XON thresholds of the ingress port, by class; 8 is the PAUSE pair (R417). -/
  thrOff : SMap Nat := []
  thrOn : SMap Nat := []
  lastGroup : Nat := 8191
  now : Option TxNow := none
deriving DecidableEq, Repr

/-- A pump (R409-R430). -/
structure Pump where
  arrivals : List Copy := []
  /-- The timed-release wheel: slot time in µs and the copy, in order of entry (R412). -/
  wheel : List (Nat × Copy) := []
  /-- Edit lists held: packet, emission, slots, copies that share it (R419, R422). -/
  edits : List (Nat × Nat × Nat × Nat) := []
  clamp : W64 := 0
  resetting : Bool := false
  deferBw : W64 := 0
  deferFull : W64 := 0
  deferAgg : W64 := 0
  blocksWritten : W64 := 0
  blocksRead : W64 := 0
deriving DecidableEq, Repr

/-- A WRED profile (R415). -/
structure Wred where
  min : Nat := 0
  max : Nat := 0
  pmax : Nat := 0
  w : Nat := 0
  ecn : Bool := false
  kmark : Nat := 0
deriving DecidableEq, Repr

/-- Sampling of a drop code (R429). -/
structure SampleCfg where
  rate : Nat := 255
  host : Nat := 0
  ring : Nat := 0
  seen : Nat := 0
deriving DecidableEq, Repr

/-- A counter of packets and bytes (R428). -/
structure PB where
  pkts : W64 := 0
  bytes : W64 := 0
deriving DecidableEq, Repr

/-- The egress side (R403-R430). -/
structure EgressSt where
  queues : SMap Queue := []
  groups : SMap QGroup := []
  eports : SMap EPort := []
  pumps : SMap Pump := []
  wreds : SMap Wred := []
  mcGroups : SMap (List W32) := []
  memberOps : SMap (BitVec 128) := []
  /-- The sump: disposition code × 16 + sub-reason; and logical egress port × 32 + code (R428). -/
  sump : SMap PB := []
  sumpPort : SMap PB := []
  samples : SMap SampleCfg := []
  sampleSkip : W64 := 0
  sampleWin : Nat := 0
  sampleNow : Nat := 0
deriving DecidableEq, Repr

/-! ### Threads, cores and clusters -/

/-- The load kinds of R299. -/
inductive LdKind where
  | b | bu | h | hu | w | wu | d | hn | wn | dn
deriving DecidableEq, Repr

/-- The long helper operations (R335, R342), with what they read when they start. -/
inductive LongOp where
  | csumm | crcm (ieee : Bool)
  | gctr (enc : Bool) (alg : Nat) (key : List Byte)
  | ghash (alg : Nat) (key : List Byte)
deriving DecidableEq, Repr

/-- What a thread waits for. -/
inductive Wait where
  | none
  /-- A cached load whose line is not in the L1D (R268). -/
  | fill (gd : Reg) (k : LdKind) (addr : Nat)
  | lock (lk : Nat)
  | orderEnter (n : Nat)
  | waitev (gd : Reg) (mask : W32) (all : Bool) (since : Nat)
  | park (gd : Reg) (wake : W64) (mask : W32)
  | join (gd : Reg) (handle : Nat)
  | chget (gd : Reg) (ch : Nat)
  | chput (gd : Reg) (ch : Nat) (word : W64)
  /-- A helper long operation in its unit (R331). -/
  | long (unit : Nat) (gd ga : Reg) (op : LongOp)
  /-- A journal closed by RETIRE that waits for the pending store (R209). -/
  | store
  /-- A string instruction whose granule's line is not in the L1D: it goes on once the line is filled (R307). -/
  | granule (addr : Nat)
  /-- A string instruction whose granule is a lock acquire that waits (R305, R349). -/
  | granLock (lk : Nat)
  /-- A wait that ended while its thread was halted: the result is held for the resume (R563). -/
  | held (gd : Reg) (v : W64)
deriving DecidableEq, Repr

/-- A store that waits in the store buffer (R254, R273). -/
structure SbEntry where
  addr : Nat
  bytes : List Byte
deriving DecidableEq, Repr

/-- An outstanding lookup (R310, R311). -/
structure Lkp where
  idx : Nat
  gd : Reg
  table : Nat
  key : List Byte
  res : Nat
  /-- Bytes of its result area, and whether it was issued inside an ordered section (R219). -/
  len : Nat
  sec : Bool
deriving DecidableEq, Repr

/-- The reasons of a debug halt (R568). -/
inductive HaltReason where
  | halt | step | insn (slot : Nat) | watch (slot : Nat) (addr : W64) | brk | released
deriving DecidableEq, Repr

/-- A child of a run (R256-R259): its thread number, and its g1 at END once it has ended. -/
structure Child where
  t : Nat
  ended : Option W64 := none
deriving DecidableEq, Repr

/-- A hardware thread (R245-R247, R283, R288, R359). Thread scratch is kept by its byte offset from 0x4000. -/
structure Thr where
  regs : SMap W64 := []
  lk : W64 := 0
  pc : W64 := 0
  handler : Bool := false
  prio : BitVec 2 := 1
  bufsel : W32 := 0
  pfctl : Bool := true
  tepc : W64 := 0
  tcause : Byte := 0
  tdetail : W64 := 0
  taddr : W64 := 0
  tsave : SMap W64 := []
  evflags : W32 := 0
  evext : W32 := 0
deriving DecidableEq, Repr

/-- What a thread is doing, beside its registers. -/
structure ThrRun where
  /-- The packet in its CURRENT and NEXT slot (R196). -/
  cur : Option Nat := none
  next : Option Nat := none
  /-- For a started pool thread: the work thread whose run it is a child of (R256). -/
  parent : Option Nat := none
  wait : Wait := .none
  /-- DT at which the thread's PARK began, and at which its ORDER_ENTER began to wait. -/
  parkDt : Nat := 0
  enterDt : Nat := 0
  halted : Option HaltReason := none
  /-- Instructions left of a DEBUG_STEP, and the thread's step count (R565). -/
  stepLeft : Option Nat := none
  /-- The next instruction is not matched against breakpoints: the thread has just been resumed at it (log 20). -/
  skipBreak : Bool := false
  stepCount : W32 := 0
  run : RunSt := {}
  children : List Child := []
  sb : List SbEntry := []
  lkps : List Lkp := []
  lkpNo : Nat := 0
  staged : Option (Nat × List W64) := none
  maint : List Nat := []
  wdBudget : Nat := 262144
  wdCount : Nat := 0
  wdGrace : Bool := false
  starve : Nat := 0
  /-- The thread stalls on bytes or LENGTH not yet arrived: address and length in its thread-local view (R24, R284). -/
  late : Option (Nat × Nat) := none
  /-- Its instruction found no entry, unit or register free and has not been tried since one came free (R249, R251). -/
  stalled : Bool := false
  /-- A string instruction between granules: it copies from the top down (R305); the values its present granule has
  read, where a second read waits. -/
  str : Option Bool := none
  gran : List W64 := []
  missLine : Nat := 0
  missStride : Int := 0
  missRun : Nat := 0
deriving DecidableEq, Repr

/-- A line of the L1D or the L2: its line number (address over 64), its bytes, a dirty bit per byte, its poison. -/
structure Line where
  no : Nat
  data : List Byte
  dirty : BitVec 64
  poison : Bool
deriving DecidableEq, Repr

/-- A miss-status register (R254, R268, R272). -/
structure Mshr where
  line : Nat
  t : Nat
  prefetch : Bool
  /-- The L2 has no copy, so the miss started an HBM fill (R598 FILLS_OUT). -/
  l2miss : Bool
  dropped : Bool
  /-- Maintenance operations placed in the entry: operation and level ALL (R272). -/
  ops : List (Nat × Bool)
deriving DecidableEq, Repr

/-- A write-back buffer entry (R255, R271). -/
structure WbEnt where
  ln : Line
  t : Nat
  issued : Bool
deriving DecidableEq, Repr

/-- A prefetch stream (R269). -/
structure Stream where
  t : Nat
  stride : Int
  next : Nat
  /-- PF_DEPTH when the stream began (R287). -/
  depth : Nat
  unused : List Nat
deriving DecidableEq, Repr

/-- What a posted maintenance operation holds until it completes: its thread and line, and whether a miss-status
register and a write-back entry are held (R270). -/
structure Posted where
  t : Nat
  line : Nat
  mshr : Bool
  wb : Bool
deriving DecidableEq, Repr

/-- A Usoth core (R254, R265, R287). -/
structure CoreSt where
  workThreads : Nat := 8
  dynamic : Bool := true
  capSb : Nat := 16
  capMshr : Nat := 8
  capPf : Nat := 4
  capWb : Nat := 4
  defaultPrio : BitVec 2 := 1
  /-- Core cycles at the core's last reset: CYCLE counts from here (R283). -/
  cycleBase : Nat := 0
  l1d : SMap (Option Line) := []
  l1dLru : SMap (BitVec 7) := []
  /-- L1I: the lines present, by set × 4 + way, as line number plus 1 (R265). -/
  l1i : SMap Nat := []
  l1iLru : SMap (BitVec 3) := []
  mshr : List Mshr := []
  wb : List WbEnt := []
  posted : List Posted := []
  streams : List Stream := []
  helperOff : BitVec 3 := 0
  retired : Bool := false
  /-- A retirement in progress: its command, none for an escalation, and the DT of its end (R547, R559). -/
  retiring : Option (Option CmdRef × Nat) := none
  gated : Bool := false
  /-- Nanoseconds for which all its threads have been parked (R531). -/
  idleFor : Nat := 0
  starveGrants : W64 := 0
  /-- Hits, misses, prefetches issued and dropped; corrected and uncorrectable errors per array (R287). -/
  l1iHits : W64 := 0
  l1iMisses : W64 := 0
  l1dHits : W64 := 0
  l1dMisses : W64 := 0
  pfIssued : W64 := 0
  pfDropped : W64 := 0
  uncorr : SMap W64 := []
  corr : SMap W64 := []
deriving DecidableEq, Repr

/-- A published message of a channel (R355, R356): its words not yet read, words read, and the thread it is bound to. -/
structure Msg where
  words : List W64
  read : Nat := 0
  bound : Option Nat := none
deriving DecidableEq, Repr

/-- A channel. Waiters are threads in order of arrival. -/
structure Chan where
  msgs : List Msg := []
  /-- Threads that stage a message here, each holding 8 reserved words. -/
  stagers : List Nat := []
  producers : List Nat := []
  consumers : List Nat := []
deriving DecidableEq, Repr

/-- A delay list entry (R361). -/
structure DelayEnt where
  wake : W64
  t : Nat
  flag : BitVec 5
  /-- DT at which the entry was made: it wakes at a later boundary (R320). -/
  born : Nat := 0
deriving DecidableEq, Repr

/-- Cluster states (R557). -/
inductive ClState where
  | empty | drained | admitted | draining | failed
deriving DecidableEq, Repr

/-- A trace record (R571). -/
structure TraceRec where
  t : Nat
  kind : Nat
  detail : Nat
  time : W32
  addr : W64
deriving DecidableEq, Repr

/-- A cluster's trace (R571). -/
structure Trace where
  mode : Nat := 0
  filter : W64 := 0
  recs : List TraceRec := []
  drops : W64 := 0
  wrapped : Bool := false
deriving DecidableEq, Repr

/-- A breakpoint slot (R567). -/
structure Break where
  kind : Nat := 0
  addr : W64 := 0
deriving DecidableEq, Repr

/-- Power states of a cluster (R531). -/
inductive ClPower where
  | active | retention | off | waking
deriving DecidableEq, Repr

/-- The L2 of a cluster with its counters (R265, R598). -/
structure L2St where
  lines : SMap (Option Line) := []
  lru : SMap (BitVec 15) := []
  hits : W64 := 0
  misses : W64 := 0
  writebacks : W64 := 0
  corrected : W64 := 0
  uncorrectable : W64 := 0
deriving DecidableEq, Repr

/-- The task unit of a cluster (R361-R365). -/
structure TaskSt where
  lists : SMap (List DelayEnt) := []
  /-- Tick exponents (R362), by list; the defaults are 10, 14, 18 and 22. -/
  tick0 : Nat := 10
  tick1 : Nat := 14
  tick2 : Nat := 18
  tick3 : Nat := 22
  /-- DT of the last change of a list's tick: it applies from its next boundary (R362). -/
  tickDt : SMap Nat := []
  detect : Bool := true
  window : Nat := 16
  /-- DT since which the detector's conditions have held, and whether it may act. -/
  holdSince : Option Nat := none
  ready : Bool := true
  breaks : W64 := 0
  noBreaks : W64 := 0
  lockAtEnd : W64 := 0
  chStagedLost : W64 := 0
  chPartialLost : W64 := 0
deriving DecidableEq, Repr

/-- A cluster (R246, R265, R278, R287, R355-R365, R557-R571). -/
structure ClusterSt where
  st : ClState := .empty
  version : Nat := 0
  loaded : Bool := false
  scratchWays : Nat := 0
  watchdog : Nat := 262144
  pfDepth : Nat := 4
  scratch : SMap Byte := []
  scratchPoison : List Nat := []
  l2 : L2St := {}
  chans : SMap Chan := []
  task : TaskSt := {}
  breaks : SMap Break := []
  trace : Trace := {}
  power : ClPower := .active
  /-- A drain in progress: its command, none for an escalation, the DT of its timeout, and the runs discarded (R547, R558). -/
  drain : Option (Option CmdRef × Nat) := none
  drained : Nat := 0
  /-- Nanoseconds for which all its cores have been gated, and the end of a running exit, in nanoseconds of the local
  time base (R531, R533). -/
  idleFor : Nat := 0
  wakeNs : Nat := 0
  memErrDt : Option Nat := none
  memErrCount : Nat := 0
  cryptoOff : BitVec 2 := 0
deriving DecidableEq, Repr

/-- A thread's scratch memory (R247) with its poisoned 8-byte words (R276). -/
structure ScratchSt where
  bytes : SMap Byte := []
  poison : List Nat := []
deriving DecidableEq, Repr

/-! ### Locks, keys -/

/-- A requester in a lock's queue (R349). -/
structure LkWaiter where
  who : Requester
  gd : Reg
  /-- The load is in network order (LDN). -/
  net : Bool
  joined : Nat
  timeout : Nat
  ahead : Nat
deriving DecidableEq, Repr

/-- A lock (R345-R354). -/
structure LockEnt where
  holder : Option Requester := none
  gen : W32 := 0
  abandoned : Bool := false
  waiters : List LkWaiter := []
deriving DecidableEq, Repr

/-- A lock group (R345, R346, R351). Index of the three counts: 0 BAD_RELEASE, 1 BAD_CLEAR, 2 NO_RIGHT. -/
structure LockGrp where
  mask : BitVec 15 := 0x1FFF
  timeout : Nat := 65536
  counts : SMap W64 := []
deriving DecidableEq, Repr

/-- The lock unit. `answers` holds the last result given to the Pumphouse (0x800) and the hosts (0x801, 0x802). By reason,
`lastDt` is one more than the DT of the last LOCK_FAULT and `since` the count since it (R351). -/
structure LockSt where
  locks : SMap LockEnt := []
  groups : SMap LockGrp := []
  lastDt : SMap Nat := []
  since : SMap Nat := []
  answers : SMap W64 := []
deriving DecidableEq, Repr

/-- A crypto key slot (R340): algorithm 0-3 and its key. -/
structure KeySlot where
  alg : Nat := 0
  key : List Byte := []
deriving DecidableEq, Repr

/-! ### HBM contents and regions -/

/-- An HBM region (R453, R454). `right` is 0 NONE, 1 R, 2 RX, 3 RW (R262). -/
structure Region where
  use : Nat
  base : Nat
  size : Nat
  order : Nat
  right : Nat
deriving DecidableEq, Repr

/-- HBM contents: bytes in canonical form (rising addresses, no entry 0: an unlisted byte reads 0), and the poisoned
32-byte units (R467). -/
structure HbmMem where
  cells : List Host.Cell := []
  poison : List Nat := []
  regions : List Region := []
deriving DecidableEq, Repr

/-- A request, or the part of it that one pseudo-channel serves (R451, R456, R460): its port, the HBM addresses of its
pieces of at most 256 bytes with their lengths, and the interval clock at its arrival. -/
structure HbmReq where
  port : Nat
  pieces : List (Nat × Nat)
  write : Bool
  data : List Byte
  arrived : Nat
deriving DecidableEq, Repr

/-- A bank (R458, R464): predictor, recorded row, whether a row is open, the last access, postponed refreshes, a refresh
that is forced, and consecutive row hits. -/
structure BankSt where
  p : Nat := 2
  row : Option Nat := none
  isOpen : Bool := false
  lastNs : Nat := 0
  postponed : Nat := 0
  forced : Bool := false
  hits : Nat := 0
deriving DecidableEq, Repr

/-- A pseudo-channel (R449-R472). `waiting` holds the parts that wait at their ports; spill credit is in
1/38,122,560 byte; a bank is numbered stack ID × 16 + bank group × 4 + bank. -/
structure PcSt where
  queue : List HbmReq := []
  waiting : List HbmReq := []
  banks : SMap BankSt := []
  credit : Nat := 0
  creditNs : Nat := 0
  asleep : Bool := false
  /-- The interval clock since which the queue is empty, and at which an exit ends. -/
  idleNs : Nat := 0
  wakeNs : Nat := 0
  /-- Writes issued in the batch that runs. -/
  batch : Option Nat := none
  /-- The last command met a parity error (R450). -/
  parity : Bool := false
  corrected : W64 := 0
  uncorrectable : W64 := 0
  caParity : W64 := 0
  errDt : Option Nat := none
  errSince : Nat := 0
  trainTemp : Nat := 0
  trackNs : Nat := 0
  /-- Patrol scrub (R468): the next unit, DT of the pass's beginning, and the rows corrected in this pass and the last, as
  bank × 32,768 + row; the on-die error count read at the end of a pass. -/
  scrubNext : Nat := 0
  scrubDt : Nat := 0
  rowsNow : List Nat := []
  rowsBefore : List Nat := []
  onDie : W64 := 0
deriving DecidableEq, Repr

/-- A stack's state (R474). -/
inductive StackMode where
  | active | selfRefresh | training | fault
deriving DecidableEq, Repr

/-- A stack (R449, R464, R474, R538). -/
structure StackSt where
  mode : StackMode := .training
  temp : Nat := 0
  level : Nat := 0
  /-- Ports 12 and 15 are held and spill credit is halved (R538). -/
  hot : Bool := false
deriving DecidableEq, Repr

/-- A retirement in progress (R471). -/
structure Migration where
  pc : Nat
  c : CmdRef
  startNs : Nat
  oldGib : Nat
  /-- The granules to copy, by pseudo-channel address, each with what it holds: pseudo-channel × 2,048 + granule. -/
  todo : Option (List Nat) := none
deriving DecidableEq, Repr

/-- A port's QoS (R459). -/
structure HbmPort where
  priority : Nat
  target : Nat
deriving DecidableEq, Repr

/-- The HBM subsystem beside its contents (R449-R474). -/
structure HbmSt where
  stackA : StackSt := {}
  stackB : StackSt := {}
  pcs : SMap PcSt := []
  retired : List Nat := []
  migration : Option Migration := none
  /-- Redirects of granules: what they hold, as pseudo-channel × 2,048 + granule, to where it lies plus 1 (R457, R471). -/
  redirects : SMap Nat := []
  /-- Spare pools: base and size of the HBM space that the cistern's shrinks freed (R471). -/
  pools : List (Nat × Nat) := []
  /-- QoS by port where it is not R459's default. -/
  qos : SMap (Option HbmPort) := []
  rowTimeout : Nat := 120
  scrubHours : Nat := 24
  retireWaitMs : Nat := 1000
  /-- Soft repairs in force, hard repairs recorded, hard repairs programmed: stack, bank and row in
  pseudo-channel × 2,097,152 + bank × 32,768 + row (R470). -/
  soft : List Nat := []
  hard : List Nat := []
  hardDone : List Nat := []
  stray : W64 := 0
  portBytes : SMap W64 := []
  portReqs : SMap W64 := []
  portWait : SMap W64 := []
  /-- The cap bucket (R461) in bytes: what has been taken of it, at a time of the interval clock. -/
  capUsed : Nat := 0
  capNs : Nat := 0
  /-- What each port was last answered: the address of the part, its bytes, and its poison mark. -/
  answers : SMap (List (Nat × List Byte × Bool)) := []
deriving DecidableEq, Repr

/-! ### Power -/

/-- A die sensor (R537): its level and its last temperature. -/
structure Sensor where
  level : Nat := 0
  temp : Nat := 0
deriving DecidableEq, Repr

/-- The power-fail flush (R540-R543): the epochs still to push in order, the slot each goes to, the function and buffer,
and how many records have been written. -/
structure FlushRun where
  cause : Nat
  todo : List Nat
  total : Nat
  target : Option (HostFn × Nat)
deriving DecidableEq, Repr

/-- Power (R531-R545). Tolerances are kept where they differ from the default of 2,000 ns. -/
structure PowerSt where
  tol : SMap Nat := []
  /-- DT plus 1 of the last frame accepted, by class. -/
  lastAccept : SMap Nat := []
  active : BitVec 8 := 0
  /-- Wakes: 0 thread park, 1 core gate, 2 retention, 3 off, 4 pseudo-channel power-down, 5 self-refresh. -/
  wakes : SMap W64 := []
  prewakes : W64 := 0
  prewakeLate : W64 := 0
  throttled : SMap W64 := []
  sensors : SMap Sensor := []
  flush : Option FlushRun := none
  /-- PWRFAIL_N is low, and a flush has completed. -/
  failing : Bool := false
deriving DecidableEq, Repr

/-! ### The Diralys Command Interface -/

/-- A response (R484) as recorded in the journal. -/
structure Resp where
  status : Nat
  detail : W32
  result : List Byte
  outWritten : Bool
  repeated : Bool
deriving DecidableEq, Repr

/-- An accepted command in the command journal (R485, R488-R490). -/
structure JCmd where
  fn : HostFn
  e : CmdEntry
  lease : Bool
  started : Bool
  /-- Being executed again after a Pumphouse reset (R489). -/
  rerun : Bool
  resp : Option Resp
  /-- TAGs of DUPLICATE requests that wait for the original (R485). -/
  dups : List (BitVec 16)
  /-- The GUARD taken at acceptance (R499). -/
  guard : Nat
deriving DecidableEq, Repr

/-- An event as stored (R484, R486). -/
structure EvRec where
  eseq : W32
  code : Nat
  dt : W64
  body : List Byte
deriving DecidableEq, Repr

/-- A receive-ring copy that waits (R503, R504). -/
structure PuntCopy where
  handle : Nat
  bytes : List Byte
  code : Nat
  flags : Byte
  reason : Nat
  inPort : Nat
  domain : Nat
  seq : W32
  dt : Nat
  pkt : Option Nat
deriving DecidableEq, Repr

/-- A punt ring (R502). -/
structure PuntRing where
  base : W64 := 0
  entries : Nat := 64
  qmax : Nat := 1024
  done : W32 := 0
  dropped : W32 := 0
  tail : BitVec 16 := 0
  head : BitVec 16 := 0
  waiting : List PuntCopy := []
deriving DecidableEq, Repr

/-- A host function (R475-R505). -/
structure FnSt where
  linkUp : Bool := false
  cmdBase : W64 := 0
  rspBase : W64 := 0
  evtBase : W64 := 0
  cmdTail : Byte := 0
  cmdHead : Byte := 0
  rspTail : Byte := 0
  rspHead : Byte := 0
  phase : Bool := true
  cseq : W32 := 0
  eseqIssued : W32 := 0
  eseqAcked : W32 := 0
  events : List EvRec := []
  lost : Nat := 0
  lostDt : W64 := 0
  /-- Events issued during a Pumphouse restart, which wait for its end (R445, R524). -/
  unput : Nat := 0
  /-- Interrupt mapping (R501) by source, the DT at which a source's gap ends, and the sources that wait for it. -/
  intMap : SMap W64 := []
  intGap : SMap Nat := []
  intWait : List Nat := []
  /-- MSI-X: table words (two per vector), pending bits, vector masks. -/
  msix : SMap W64 := []
  msixPend : BitVec 64 := 0
  rx : SMap PuntRing := []
  tx : SMap PuntRing := []
deriving DecidableEq, Repr

/-- DEVICE_STATE.STATE (R479). -/
inductive DevState where
  | priming | ready | phRestart | fault | warmReset
deriving DecidableEq, Repr

/-- The control lease (R492, R493). -/
structure LeaseSt where
  holder : Option HostFn := none
  gen : W32 := 0
  expired : Bool := false
  deadline : Nat := 0
  timeoutMs : Nat := 3000
  /-- Nanoseconds left while frozen (R492). -/
  frozen : Option Nat := none
  ignored : W64 := 0
deriving DecidableEq, Repr

/-- DCI (R475-R505). -/
structure DciSt where
  fnA : FnSt := {}
  fnB : FnSt := {}
  journal : List JCmd := []
  st : DevState := .priming
  step : Nat := 0
  cause : Nat := 0
  phRestarts : W32 := 0
  firmware : W32 := 0
  lease : LeaseSt := {}
deriving DecidableEq, Repr

/-! ### Faults -/

/-- A fault log entry (R560). -/
structure LogRec where
  seq : W32
  code : Nat
  dt : W64
  body : List Byte
deriving DecidableEq, Repr

/-- Counters of ERROR_STATS for a unit code (R561). -/
structure ErrCnt where
  corrected : W64 := 0
  uncorrectable : W64 := 0
  unitFaults : W64 := 0
  autoResets : W64 := 0
  cmdResets : W64 := 0
deriving DecidableEq, Repr

/-- A part reset in progress (R552): kind, index, the commands that wait for it, the runs it discarded. -/
structure ResetRun where
  kind : Nat
  index : Nat
  cmds : List CmdRef
  replayed : Nat
  startDt : Nat
deriving DecidableEq, Repr

/-- Faults and repair (R546-R561). Keys of `counts` and `auto`: kind × 65,536 + index. -/
structure FaultSt where
  log : List LogRec := []
  nextSeq : W32 := 1
  cnt : SMap ErrCnt := []
  counts : SMap W32 := []
  /-- DT of the automatic resets of a part, newest first (R547). -/
  auto : SMap (List Nat) := []
  resets : List ResetRun := []
  /-- Parts that an escalation took out of service (R548), by kind × 65,536 + index; kind 7 is a helper. -/
  fenced : List Nat := []
deriving DecidableEq, Repr

/-! ### Forwarding tables -/

/-- A weir (R390). -/
structure Weir where
  mode : Nat := 0
  cir : Nat := 0
  pir : Nat := 0
  cbs : Nat := 0
  pbs : Nat := 0
  tc : Nat := 0
  tp : Nat := 0
  last : Nat := 0
deriving DecidableEq, Repr

/-- A provisional weir debit (R227, R392): what was taken from each bucket. -/
structure Debit where
  weir : Nat
  pkt : Nat
  c : Nat
  p : Nat
deriving DecidableEq, Repr

/-- A quarter of a provisional flow-context version (R218, R219): the run's own contents, and the forwarded ones. -/
structure CtxVer where
  ctx : Nat
  q : Nat
  pkt : Nat
  own : List Byte
  fwd : Option (List Byte)
deriving DecidableEq, Repr

/-- The weir counters (R393). -/
structure WeirCnt where
  green : W64 := 0
  yellow : W64 := 0
  red : W64 := 0
  disabled : W64 := 0
  finalized : W64 := 0
  refunded : W64 := 0
  cappedBytes : W64 := 0
  /-- WEIR_PROV_FULL: DT of the last event plus 1, and the charges counted since (R227). -/
  fullDt : Nat := 0
  fullSince : Nat := 0
deriving DecidableEq, Repr

/-- An L2 entry (R370). -/
structure L2Ent where
  mac : BitVec 48
  bd : Nat
  port : Nat
  static : Bool
  hit : Bool
  report : Bool
  user : BitVec 16
deriving DecidableEq, Repr

/-- A well's L2 table, by entry index, with its counters (R369-R375). -/
structure L2Tbl where
  ents : SMap (Option L2Ent) := []
  learn : W64 := 0
  learnFull : W64 := 0
  move : W64 := 0
  staticMove : W64 := 0
  aged : W64 := 0
  noticeDrop : W64 := 0
  /-- DT of the last L2_STATIC_MOVE plus 1, and the static moves reported since (R372). -/
  reportDt : Nat := 0
  reportSince : Nat := 0
deriving DecidableEq, Repr

/-- A prefix of the LPM table (R377). `addr` is the 32-bit or 128-bit address. -/
structure Prefix where
  vrf : Nat
  fam : Nat
  len : Nat
  addr : Nat
  nh : W32
deriving DecidableEq, Repr

/-- The LPM table: its prefix store by index (R381), and the directory words an uncorrectable error has damaged: VRF,
family, directory bits (R399). -/
structure LpmSt where
  store : SMap (Option Prefix) := []
  damaged : List (Nat × Nat × Nat) := []
deriving DecidableEq, Repr

/-- An exact-match entry (R383). -/
structure EmEnt where
  key : List W64
  data : List W64
deriving DecidableEq, Repr

/-- An exact-match table (R382, R383): `kick` is its 2-bit counter. -/
structure EmTbl where
  log2 : Nat
  klen : Nat
  cache : Nat
  seed : W32
  base : Nat
  ents : SMap (Option EmEnt) := []
  kick : Nat := 0
deriving DecidableEq, Repr

/-- A table operation's result (R395, R396). -/
structure TblRes where
  code : Nat := 0
  index : Nat := 0
  len : Nat := 0
  dflt : Bool := false
  keys : List W64 := []
  data : List W64 := []
deriving DecidableEq, Repr

/-- A change in the exact-match overlay (R384), and its result once it is decided. `who` is none for a commit's. -/
structure OvEnt where
  id : Nat
  tbl : Nat
  op : Nat
  index : Nat
  key : List W64
  data : List W64
  who : Option Requester
  done : Option TblRes
deriving DecidableEq, Repr

/-- A line of the flow-context cache (R387), by quarters. -/
structure CtxLine where
  ctx : Nat
  valid : BitVec 4
  dirty : BitVec 4
  quarters : List (List Byte)
deriving DecidableEq, Repr

/-- A counter pair (R389): residuals and backing totals; `lost` after an uncorrectable error (R399). -/
structure CtrPair where
  resP : Nat := 0
  resB : Nat := 0
  backP : W64 := 0
  backB : W64 := 0
  lost : Bool := false
deriving DecidableEq, Repr

/-- A running table command: its TBL_CMD, the key and data it copied, and its result once it is known (R395). -/
structure TblRun where
  w : W64
  keys : List W64
  data : List W64
  /-- The overlay entry it waits for. -/
  ov : Option Nat := none
  res : Option TblRes := none
deriving DecidableEq, Repr

/-- A command register set (R394). -/
structure TblSet where
  cmd : W64 := 0
  status : W64 := 0
  keys : SMap W64 := []
  data : SMap W64 := []
  run : Option TblRun := none
deriving DecidableEq, Repr

/-- The digest scrubber of a table (R401). -/
structure ScrubCfg where
  enable : Bool := false
  period : Nat := 3600
  host : HostFn := .hostA
  ring : Nat := 0
  entries : Nat := 64
  produced : W64 := 0
  next : Nat := 0
  lastDt : Nat := 0
deriving DecidableEq, Repr

/-- The result of a TABLE_BATCH that awaits its response (R397). -/
structure BatchRun where
  c : CmdRef
  results : List W64
  applied : Nat
  failIndex : Nat
deriving DecidableEq, Repr

/-- The forwarding tables (R366-R402). -/
structure TableSt where
  weirs : SMap Weir := []
  debits : List Debit := []
  vers : List CtxVer := []
  weirCnt : WeirCnt := {}
  l2 : SMap L2Tbl := []
  ageTime : Nat := 300
  flushOnDown : Bool := true
  lpm : LpmSt := {}
  em : SMap (Option EmTbl) := []
  overlay : List OvEnt := []
  ovNo : Nat := 0
  ovFull : SMap W64 := []
  /-- The flow-context cache, least recently used first, and the contexts' quarters in HBM (R387, R388). -/
  ctxCache : List CtxLine := []
  ctxBack : SMap (List Byte) := []
  counters : SMap CtrPair := []
  sets : SMap TblSet := []
  /-- JTBL_FAIL: table × 16 + result code (R367). -/
  jtblFail : SMap W64 := []
  errDt : SMap Nat := []
  errSince : SMap Nat := []
  scrub : SMap ScrubCfg := []
  scrubStall : W64 := 0
  /-- Blocks the data path has changed since their last record: table × 1,048,576 + block. -/
  dpMod : SMap Bool := []
  lastCseq : W32 := 0
  /-- The well whose notice the learn bus carried last (R373). -/
  learnPtr : Nat := 7
  batches : List BatchRun := []
deriving DecidableEq, Repr

/-! ### The billing ledger -/

/-- Where an epoch's record stands (R435). -/
inductive EpPhase where
  | open_ | closing | sealed | summed | digested | signed
deriving DecidableEq, Repr

/-- An epoch: its record's header fields, the bank's residuals and the slot's counters by account × 16 + counter
(R433-R440). -/
structure LEpoch where
  no : Nat
  start : Nat
  /-- Where it ends if nothing ends it sooner, and the length in nanoseconds in force when it began. -/
  endAt : Nat
  lenNs : Nat
  phase : EpPhase := .open_
  stop : Nat := 0
  /-- DT from which its grace counts, and DT of its seal. -/
  graceFrom : Nat := 0
  sealAt : Nat := 0
  graceUs : Nat := 0
  holdover : Bool := false
  damaged : Bool := false
  partialCause : Nat := 0
  lateUpdates : W32 := 0
  lateMin : W64 := 0xFFFFFFFFFFFFFFFF
  res : SMap Nat := []
  slot : SMap W64 := []
  prev : List Byte := []
  digest : List Byte := []
  sig : List Byte := []
  /-- Damaged 32-byte units of the body after the signature (R445). -/
  badUnits : List Nat := []
deriving DecidableEq, Repr

/-- A ledger ring (R437, R442). `key` is the private key's seed, never readable; `by_` the command that created it. -/
structure Ring where
  id : W64
  slots : Nat
  statement : List Byte
  key : List Byte
  pub : List Byte
  by_ : CmdRef
deriving DecidableEq, Repr

/-- A LEDGER_INIT whose key generation runs (R443). -/
structure RingInit where
  c : CmdRef
  slots : Nat
  prev : Option LedgerPrev
deriving DecidableEq, Repr

/-- A LEDGER_READ that runs (R444). -/
structure LedgerXfer where
  c : CmdRef
  epoch : Nat
deriving DecidableEq, Repr

/-- The tally and the ledger (R431-R448). `recs` holds the sealed epochs that are retained, oldest first. -/
structure LedgerSt where
  ring : Option Ring := none
  init : Option RingInit := none
  fault : Bool := false
  lengthS : Nat := 60
  /-- A length that takes effect at the next boundary (R69). -/
  nextLength : Nat := 60
  graceMs : Nat := 10
  openEp : Option LEpoch := none
  closing : Option LEpoch := none
  recs : List LEpoch := []
  nextNo : Nat := 0
  acked : Option Nat := none
  idleDrop : W64 := 0
  lateTotal : W64 := 0
  lost : W64 := 0
  damagedRecs : W64 := 0
  flushes : W64 := 0
  lastSeal : W64 := 0
  flushA : W64 := 0
  flushB : W64 := 0
  reads : List LedgerXfer := []
  /-- Epochs were running when a warm reset began (R445). -/
  resume : Bool := false
deriving DecidableEq, Repr

/-- DT at which the open epoch began; none while none is open (R46). -/
def LedgerSt.openStart (l : LedgerSt) : Option Nat := l.openEp.map (·.start)

/-! ### Priming and trust -/

/-- A loaded program image (R518): text and data addresses, entry and vector addresses (0: no handler). -/
structure Image where
  version : Nat
  text : Nat
  textLen : Nat
  dataLen : Nat
  entry : List W64
  vector : List W64
  digest : List Byte
  svn : Nat
  commitSvn : Bool
deriving DecidableEq, Repr

/-- Straps (R506). -/
structure Straps where
  bootSrc : BitVec 2 := 0
  pcieMode : BitVec 2 := 0
  strapSafe : Bool := false
deriving DecidableEq, Repr

/-- An entry of the measurement log (R521). -/
structure Meas where
  type : Nat
  index : Nat
  dt : W64
  digest : List Byte
deriving DecidableEq, Repr

/-- The host push (R515): the function whose push the ROM waits for, `BOOT_ADDR`, `BOOT_CTL` without its STATUS, and
STATUS. -/
structure BootSt where
  waits : Option HostFn := none
  addr : W64 := 0
  ctl : W64 := 0
  status : Nat := 0
deriving DecidableEq, Repr

/-- A FW_UPDATE that writes its slot (R529). -/
structure FwWrite where
  c : CmdRef
  slot : Nat
  image : FwImage
  startDt : Nat
deriving DecidableEq, Repr

/-- An FW_ACTIVATE whose firmware has not yet reached READY (R530). -/
structure FwTrial where
  slot : Nat
  image : FwImage
  startDt : Nat
deriving DecidableEq, Repr

/-- An IMAGE_LOAD that copies (R518): its header, the image without its place, and the text and data. -/
structure ImgLoad where
  c : CmdRef
  header : List Byte
  image : Image
  bytes : List Byte
deriving DecidableEq, Repr

/-- The JTAG port (R573): the instruction register, whether its instruction has taken the pins, and the data register. -/
structure JtagSt where
  ir : Nat := 2
  pins : Bool := false
  dr : Nat := 0
deriving DecidableEq, Repr

/-- Priming and trust (R506-R530). -/
structure TrustSt where
  straps : Straps := {}
  images : List Image := []
  loads : List ImgLoad := []
  /-- OTP fields by id, as the number their bytes spell, least significant first (R516). -/
  otp : SMap Nat := []
  slotA : FlashSlot := ⟨none, 0xFF, 0xFF⟩
  slotB : FlashSlot := ⟨none, 0xFF, 0xFF⟩
  /-- What the last cold priming has met; none before it has begun (R508). -/
  obs : Option PrimingObs := none
  /-- The active firmware, whose digest is latched (R526), the slot it came from: 0 A, 1 B, 2 pushed; and which of two places
  in the Pumphouse region holds its copy. -/
  fw : Option FwImage := none
  fwSlot : Nat := 0
  fwPlace : Nat := 0
  trial : Option FwTrial := none
  writing : Option FwWrite := none
  meas : List Meas := []
  chain : List Byte := List.replicate 32 0
  overflow : Bool := false
  /-- The unlock nonce that is current and its DT (R523), and the command that unlocked the device. -/
  nonce : Option (List Byte × Nat) := none
  unlocked : Bool := false
  unlockBy : Option CmdRef := none
  boot : BootSt := {}
  /-- PORST_N is low, the brown-out detector acts (R586), WRST_N is low (R525). -/
  porst : Bool := true
  brown : Bool := false
  wrst : Bool := false
  /-- DT at which a DEVICE_RESET takes effect (R525). -/
  resetAt : Option Nat := none
  /-- DT of the Pumphouse watchdog resets, newest first (R526). -/
  phResets : List Nat := []
  jtag : JtagSt := {}
deriving DecidableEq, Repr

/-- Why the machine stops. No rule of the spec stops this device, so no command raises a fault. -/
inductive Fault where
  /-- Raised by nothing: kept so that the type has a name for a stop. Safe. -/
  | stopped
deriving DecidableEq, Repr

/-- Why a command is not executed. -/
inductive Refusal where
  /-- A command without a meaning yet, by mnemonic (raised by the dispatch alone). Safe. -/
  | notModelled (mnemonic : String)
deriving DecidableEq, Repr

/-- The QZM-192. -/
structure State where
  pending : List Instr := []
  out : Outputs := {}
  time : TimeSt := {}
  net : NetSt := {}
  order : OrderSt := {}
  basin : BasinSt := {}
  cistern : CisternSt := {}
  egress : EgressSt := {}
  thrs : SMap Thr := []
  truns : SMap ThrRun := []
  scratch : SMap ScratchSt := []
  cores : SMap CoreSt := []
  clusters : SMap ClusterSt := []
  locks : LockSt := {}
  keys : SMap KeySlot := []
  mem : HbmMem := {}
  hbm : HbmSt := {}
  power : PowerSt := {}
  tables : TableSt := {}
  ledger : LedgerSt := {}
  dci : DciSt := {}
  faults : FaultSt := {}
  trust : TrustSt := {}
  /-- The model's own: how many free values have been drawn. -/
  free : Nat := 0
deriving DecidableEq, Repr

/-- The machine right after reset. -/
def State.reset : State := {}

end Sys2Proof.Machine
end

