-- ==== Sys2Proof/Machine/Ops.lean ====
section
/-!
DEFINITION. The named operations that every family uses: reading and writing parts of the state, device time, free
values, byte strings, HBM contents, events, interrupts and the fault log.
-/

namespace Sys2Proof.Machine

/-! ### Outcome shorthand -/

/-- What a meaning answers. -/
abbrev Out := Host.Outcome State Fault Refusal

/-- The command completes in this state. -/
def done (s : State) : Out := .next s

/-! ### Byte strings -/

/-- The `n` low bytes of a number, lowest first (R11). -/
def leBytes (n v : Nat) : List Byte := (List.range n).map fun k => BitVec.ofNat 8 (v / 256 ^ k)

/-- The `n` low bytes of a number, highest first. -/
def beBytes (n v : Nat) : List Byte := (leBytes n v).reverse

/-- The number a byte string spells, lowest byte first. -/
def leVal (bs : List Byte) : Nat :=
  match bs with
  | [] => 0
  | b :: rest => b.toNat + 256 * leVal rest

/-- The number a byte string spells, highest byte first. -/
def beVal (bs : List Byte) : Nat := leVal bs.reverse

/-- `n` bytes from offset `o`, zeros beyond the end. -/
def slice (bs : List Byte) (o n : Nat) : List Byte :=
  let d := (bs.drop o).take n
  d ++ List.replicate (n - d.length) 0

/-- A byte string with bytes put at offset `o`. -/
def splice (bs : List Byte) (o : Nat) (d : List Byte) : List Byte :=
  let a := bs.take o
  a ++ List.replicate (o - a.length) 0 ++ d ++ bs.drop (o + d.length)

/-- The list with the entry at `k` replaced through `f`. -/
def modAt {α : Type} (l : List α) (k : Nat) (f : α → α) : List α :=
  match l, k with
  | [], _ => []
  | a :: rest, 0 => f a :: rest
  | a :: rest, n + 1 => a :: modAt rest n f

/-- Insert a number into a rising list without repeats. -/
def insNat (l : List Nat) (k : Nat) : List Nat :=
  match l with
  | [] => [k]
  | a :: rest => if k < a then k :: a :: rest else if k = a then a :: rest else a :: insNat rest k

/-- The last `n` entries. -/
def lastN {α : Type} (n : Nat) (l : List α) : List α := l.drop (l.length - n)

/-- Sum of a list of numbers. -/
def total (l : List Nat) : Nat := l.foldl (· + ·) 0

/-- Lay fields out as R497 says: each at a multiple of its size, to at most 8. -/
def layout (fs : List (Nat × Nat)) : List Byte :=
  fs.foldl (fun acc (sz, v) =>
    let al := if sz ≤ 8 then sz else 8
    let pad := if al = 0 then 0 else (al - acc.length % al) % al
    acc ++ List.replicate pad 0 ++ leBytes sz v) []

/-- A signed number as the two's complement of `w` bits. -/
def ofInt (w : Nat) (i : Int) : Nat := (BitVec.ofInt w i).toNat

/-! ### Parts of the state -/

def State.thr (s : State) (t : Nat) : Thr := SMap.get {} s.thrs t
def State.setThr (s : State) (t : Nat) (x : Thr) : State := { s with thrs := SMap.set {} s.thrs t x }
def State.updThr (s : State) (t : Nat) (f : Thr → Thr) : State := s.setThr t (f (s.thr t))

def State.tr (s : State) (t : Nat) : ThrRun := SMap.get {} s.truns t
def State.setTr (s : State) (t : Nat) (x : ThrRun) : State := { s with truns := SMap.set {} s.truns t x }
def State.updTr (s : State) (t : Nat) (f : ThrRun → ThrRun) : State := s.setTr t (f (s.tr t))

def State.core (s : State) (c : Nat) : CoreSt := SMap.get {} s.cores c
def State.setCore (s : State) (c : Nat) (x : CoreSt) : State := { s with cores := SMap.set {} s.cores c x }
def State.updCore (s : State) (c : Nat) (f : CoreSt → CoreSt) : State := s.setCore c (f (s.core c))

def State.cl (s : State) (c : Nat) : ClusterSt := SMap.get {} s.clusters c
def State.setCl (s : State) (c : Nat) (x : ClusterSt) : State := { s with clusters := SMap.set {} s.clusters c x }
def State.updCl (s : State) (c : Nat) (f : ClusterSt → ClusterSt) : State := s.setCl c (f (s.cl c))

def State.scr (s : State) (t : Nat) : ScratchSt := SMap.get {} s.scratch t
def State.setScr (s : State) (t : Nat) (x : ScratchSt) : State := { s with scratch := SMap.set {} s.scratch t x }

def State.port (s : State) (p : Nat) : Port := SMap.get {} s.net.ports p
def State.setPort (s : State) (p : Nat) (x : Port) : State :=
  { s with net := { s.net with ports := SMap.set {} s.net.ports p x } }
def State.updPort (s : State) (p : Nat) (f : Port → Port) : State := s.setPort p (f (s.port p))

def State.well (s : State) (w : Nat) : Well := SMap.get {} s.net.wells w
def State.setWell (s : State) (w : Nat) (x : Well) : State :=
  { s with net := { s.net with wells := SMap.set {} s.net.wells w x } }
def State.updWell (s : State) (w : Nat) (f : Well → Well) : State := s.setWell w (f (s.well w))

def State.pkt (s : State) (p : Nat) : Pkt := SMap.get {} s.order.pkts p
def State.setPkt (s : State) (p : Nat) (x : Pkt) : State :=
  { s with order := { s.order with pkts := SMap.set {} s.order.pkts p x } }
def State.updPkt (s : State) (p : Nat) (f : Pkt → Pkt) : State := s.setPkt p (f (s.pkt p))

def State.rc (s : State) (p : Nat) : RunRec := SMap.get {} s.order.recs p
def State.setRc (s : State) (p : Nat) (x : RunRec) : State :=
  { s with order := { s.order with recs := SMap.set {} s.order.recs p x } }
def State.updRc (s : State) (p : Nat) (f : RunRec → RunRec) : State := s.setRc p (f (s.rc p))

def State.dom (s : State) (d : Nat) : Dom := SMap.get {} s.order.doms d
def State.setDom (s : State) (d : Nat) (x : Dom) : State :=
  { s with order := { s.order with doms := SMap.set {} s.order.doms d x } }
def State.updDom (s : State) (d : Nat) (f : Dom → Dom) : State := s.setDom d (f (s.dom d))

def State.updOrder (s : State) (f : OrderSt → OrderSt) : State := { s with order := f s.order }
def State.updCnt (s : State) (f : OrderCnt → OrderCnt) : State :=
  s.updOrder fun o => { o with cnt := f o.cnt }

def State.eport (s : State) (p : Nat) : EPort := SMap.get {} s.egress.eports p
def State.setEport (s : State) (p : Nat) (x : EPort) : State :=
  { s with egress := { s.egress with eports := SMap.set {} s.egress.eports p x } }
def State.updEport (s : State) (p : Nat) (f : EPort → EPort) : State := s.setEport p (f (s.eport p))

def State.queue (s : State) (q : Nat) : Queue := SMap.get {} s.egress.queues q
def State.setQueue (s : State) (q : Nat) (x : Queue) : State :=
  { s with egress := { s.egress with queues := SMap.set {} s.egress.queues q x } }
def State.updQueue (s : State) (q : Nat) (f : Queue → Queue) : State := s.setQueue q (f (s.queue q))

def State.group (s : State) (g : Nat) : QGroup := SMap.get {} s.egress.groups g
def State.setGroup (s : State) (g : Nat) (x : QGroup) : State :=
  { s with egress := { s.egress with groups := SMap.set {} s.egress.groups g x } }

def State.pump (s : State) (p : Nat) : Pump := SMap.get {} s.egress.pumps p
def State.setPump (s : State) (p : Nat) (x : Pump) : State :=
  { s with egress := { s.egress with pumps := SMap.set {} s.egress.pumps p x } }
def State.updPump (s : State) (p : Nat) (f : Pump → Pump) : State := s.setPump p (f (s.pump p))

def State.lock (s : State) (k : Nat) : LockEnt := SMap.get {} s.locks.locks k
def State.setLock (s : State) (k : Nat) (x : LockEnt) : State :=
  { s with locks := { s.locks with locks := SMap.set {} s.locks.locks k x } }

def State.fn (s : State) (f : HostFn) : FnSt :=
  match f with
  | .hostA => s.dci.fnA
  | .hostB => s.dci.fnB
def State.setFn (s : State) (f : HostFn) (x : FnSt) : State :=
  match f with
  | .hostA => { s with dci := { s.dci with fnA := x } }
  | .hostB => { s with dci := { s.dci with fnB := x } }
def State.updFn (s : State) (f : HostFn) (g : FnSt → FnSt) : State := s.setFn f (g (s.fn f))
def State.updDci (s : State) (f : DciSt → DciSt) : State := { s with dci := f s.dci }

/-- The host functions that the PCIE_MODE strap makes (R475). -/
def State.fns (s : State) : List HostFn :=
  if s.trust.straps.pcieMode = 1 then [.hostA, .hostB] else [.hostA]

/-! ### Numbers of parts (R5) -/

def coreOf (t : Nat) : Nat := t / 8
def clusterOf (t : Nat) : Nat := t / 128
def clusterOfCore (c : Nat) : Nat := c / 16
/-- The threads of a core, of a cluster. -/
def coreThreads (c : Nat) : List Nat := (List.range 8).map (8 * c + ·)
def clusterThreads (c : Nat) : List Nat := (List.range 128).map (128 * c + ·)
def allThreads : List Nat := List.range 1536
def secNs : Nat := 1000000000
/-- The well (and pump) of a physical port (R6). -/
def wellOf (port : Nat) : Nat := port / 16

/-- A pool thread of its core (R245). -/
def State.isPool (s : State) (t : Nat) : Bool := (s.core (coreOf t)).workThreads ≤ t % 8

/-- The run a thread's instructions belong to: a child works on its parent's (R257). -/
def State.owner (s : State) (t : Nat) : Nat :=
  match (s.tr t).parent with
  | some p => p
  | none => t

/-- The packet of the run a thread works on. -/
def State.curPkt (s : State) (t : Nat) : Option Nat := (s.tr (s.owner t)).cur

/-! ### Device time -/

/-- DT in whole nanoseconds (R42). -/
def State.dt (s : State) : Nat := s.time.ns.toNat

/-- The clock of interval deadlines: DT since the last device reset without what steps skipped (R15, R62). -/
def State.iv (s : State) : Nat := s.dt - s.time.ivBase

/-- Quarter nanoseconds of DT's fraction (R55, R56). -/
def State.qns (s : State) : Nat := s.time.frac.toNat / 16384

/-! ### Free values (log 2) -/

/-- Draw one free word. -/
def State.draw (s : State) : BitVec 64 × State := (Config.freeWord s.free, { s with free := s.free + 1 })

/-- Draw `n` free bytes. -/
def State.drawBytes (s : State) (n : Nat) : List Byte × State :=
  (Config.freeBytes s.free n, { s with free := s.free + (n + 7) / 8 })

/-! ### HBM contents (R451, R452, R467) -/

def hbmSize : Nat := 137438953472

/-- The byte at an HBM address; a byte nothing has written reads 0 (log 3). -/
def HbmMem.byte (m : HbmMem) (a : Nat) : Byte := SMap.get 0 m.cells a

/-- `n` bytes from an address. -/
def HbmMem.read (m : HbmMem) (a n : Nat) : List Byte := (List.range n).map fun k => m.byte (a + k)

/-- Write one byte, keeping the canonical form. -/
def HbmMem.setByte (m : HbmMem) (a : Nat) (b : Byte) : HbmMem := { m with cells := SMap.set 0 m.cells a b }

/-- Write bytes from an address upward. -/
def HbmMem.write (m : HbmMem) (a : Nat) (bs : List Byte) : HbmMem :=
  match bs with
  | [] => m
  | b :: rest => HbmMem.write (m.setByte a b) (a + 1) rest

/-- The 32-byte units a range touches. -/
def unitsOf (a n : Nat) : List Nat := if n = 0 then [] else (List.range ((a + n - 1) / 32 - a / 32 + 1)).map (a / 32 + ·)

/-- Some unit of the range is poisoned. -/
def HbmMem.poisoned (m : HbmMem) (a n : Nat) : Bool := (unitsOf a n).any m.poison.contains

/-- Mark the units of a range poisoned (R467). -/
def HbmMem.mark (m : HbmMem) (a n : Nat) : HbmMem := { m with poison := (unitsOf a n).foldl insNat m.poison }

/-- A write clears the poison of the units it covers whole (R550). -/
def HbmMem.store (m : HbmMem) (a : Nat) (bs : List Byte) : HbmMem :=
  let m' := m.write a bs
  { m' with poison := m'.poison.filter fun u => !(a ≤ 32 * u && 32 * u + 32 ≤ a + bs.length) }

/-- Memory in canonical form. -/
def HbmMem.wf (m : HbmMem) : Bool := SMap.wf 0 m.cells

/-- The region that holds an address (R452). -/
def HbmMem.region (m : HbmMem) (a : Nat) : Option Region :=
  m.regions.find? fun r => r.base ≤ a && a < r.base + r.size

def State.updMem (s : State) (f : HbmMem → HbmMem) : State := { s with mem := f s.mem }

/-- The Pumphouse firmware runs and takes measurements (R44); not in a FAULT that the firmware's own failure led to
(R526, R549). -/
def State.phRuns (s : State) : Bool :=
  s.dci.st = .ready || (s.dci.st = .fault && s.dci.cause ≠ 4 && s.dci.cause ≠ 5)

/-! ### Host memory and interrupts (R501) -/

/-- The device writes host memory. -/
def State.hostWrite (s : State) (f : HostFn) (a : Nat) (bs : List Byte) : State :=
  { s with out := { s.out with hostMem := s.out.hostMem ++ [⟨f, a, bs⟩] } }

/-- The MSI-X table word `k`; a vector's mask bit is set until the host clears it (log 6). -/
def FnSt.msixWord (f : FnSt) (k : Nat) : W64 :=
  (if k % 2 = 1 then (0x100000000 : W64) else 0) ^^^ SMap.get 0 f.msix k

/-- Write the MSI-X table word `k`. -/
def FnSt.setMsix (f : FnSt) (k : Nat) (v : W64) : FnSt :=
  { f with msix := SMap.set 0 f.msix k (v ^^^ (if k % 2 = 1 then (0x100000000 : W64) else 0)) }

/-- Send a vector's message, or set its pending bit while it is masked (R501). -/
def State.sendVector (s : State) (f : HostFn) (v : Nat) : State :=
  if ((s.fn f).msixWord (2 * v + 1)).getLsbD 32 then
    s.updFn f fun x => { x with msixPend := x.msixPend ||| (1 <<< v) }
  else { s with out := { s.out with irqs := s.out.irqs ++ [(f, v)] } }

/-- Raise an interrupt source: at once, or at the end of the source's gap (R501). -/
def State.irq (s : State) (f : HostFn) (src : Nat) : State :=
  let m := SMap.get 0 (s.fn f).intMap src
  if !m.getLsbD 8 then s
  else if s.dt < SMap.get 0 (s.fn f).intGap src then
    s.updFn f fun x => { x with intWait := insNat x.intWait src }
  else
    let s1 := s.sendVector f (m.toNat % 64)
    s1.updFn f fun x => { x with intGap := SMap.set 0 x.intGap src (s.dt + 1000 * (m.toNat / 65536 % 65536)) }

/-! ### Events and the fault log (R486, R500, R560) -/

/-- The event codes that the fault log keeps (R560). -/
def loggedCodes : List Nat :=
  [0x0003, 0x0004, 0x0300, 0x0400, 0x0402, 0x0404, 0x0406, 0x0602, 0x0603, 0x0700, 0x0701, 0x0702, 0x0703, 0x0800,
   0x0900, 0x0901, 0x0A00, 0x0B00, 0x0C00, 0x0C01, 0x0C02, 0x0C03]

/-- An event's 64-byte image (R484). -/
def EvRec.image (e : EvRec) : List Byte :=
  slice (leBytes 4 e.eseq.toNat ++ leBytes 2 e.code ++ [0, 0] ++ leBytes 8 e.dt.toNat ++ e.body) 0 64

/-- Write a stored event into its slot of the event ring, when the ring is enabled (R482, R486); during a Pumphouse
restart it waits (R524). -/
def State.putEvent (s : State) (f : HostFn) (e : EvRec) : State :=
  if s.dci.st = .phRestart then s.updFn f fun x => { x with unput := x.unput + 1 }
  else if (s.fn f).evtBase.getLsbD 0 then
    (s.hostWrite f ((s.fn f).evtBase.toNat / 64 * 64 + 64 * (e.eseq.toNat % 1024)) e.image).irq f 1
  else s

/-- The firmware has restarted: the events that waited are written. -/
def State.putWaiting (s : State) (f : HostFn) : State :=
  (lastN (s.fn f).unput (s.fn f).events).foldl (fun (acc : State) e => acc.putEvent f e) (s.updFn f fun x => { x with unput := 0 })

/-- Issue an event into a function's stream: room is known (R486). -/
def State.issueEvent (s : State) (f : HostFn) (code : Nat) (dt : W64) (body : List Byte) : State :=
  let e : EvRec := ⟨(s.fn f).eseqIssued + 1, code, dt, body⟩
  (s.updFn f fun x => { x with eseqIssued := x.eseqIssued + 1, events := x.events ++ [e] }).putEvent f e

/-- Events outstanding: ESEQ_ISSUED − ESEQ_ACKED (R486). -/
def FnSt.outstanding (x : FnSt) : Nat := (x.eseqIssued - x.eseqAcked).toNat

/-- Once room for two events has appeared, LOST is issued (R486). -/
def State.lostEvent (s : State) (f : HostFn) : State :=
  let x := s.fn f
  if x.lost ≠ 0 && x.outstanding + 2 ≤ 1023 then
    (s.issueEvent f 0x0001 s.time.ns (layout [(4, x.lost), (8, x.lostDt.toNat)])).updFn f
      fun y => { y with lost := 0, lostDt := 0 }
  else s

/-- A new event of one function: stored, or discarded and counted when there is no room (R486). -/
def State.eventOn (s : State) (f : HostFn) (code : Nat) (dt : W64) (body : List Byte) : State :=
  let s1 := s.lostEvent f
  if (s1.fn f).lost = 0 ∧ (s1.fn f).outstanding < 1023 then s1.issueEvent f code dt body
  else s1.updFn f fun y => { y with lost := y.lost + 1, lostDt := if y.lost = 0 then dt else y.lostDt }

/-- LOG_SEQ after `n`: past 0xFFFF_FFFF comes 1 (R560). -/
def nextLogSeq (n : W32) : W32 := if n = 0xFFFFFFFF then 1 else n + 1

/-- Enter an event in the fault log when its code is logged (R560). -/
def State.logEvent (s : State) (code : Nat) (dt : W64) (body : List Byte) : State :=
  if loggedCodes.contains code then
    { s with faults := { s.faults with
        log := lastN 4096 (s.faults.log ++ [⟨s.faults.nextSeq, code, dt, slice body 0 48⟩])
        nextSeq := nextLogSeq s.faults.nextSeq } }
  else s

/-- An event of the device, on every function that exists (R500). -/
def State.event (s : State) (code : Nat) (fields : List (Nat × Nat)) : State :=
  let body := layout fields
  (s.fns.foldl (fun acc f => acc.eventOn f code s.time.ns body) s).logEvent code s.time.ns body

/-! ### DEVICE_STATE (R479, R480, R549) -/

def DevState.code : DevState → Nat
  | .priming => 0
  | .ready => 1
  | .phRestart => 2
  | .fault => 3
  | .warmReset => 4

/-- Change DEVICE_STATE.STATE: the STATE interrupt, and the event, which waits for the restart's end when the change
is into PH_RESTART (R480, R500). -/
def State.setDev (s : State) (n : DevState) (cause : Nat) : State :=
  if s.dci.st = n then s
  else
    let old := s.dci.st
    let s1 := s.updDci fun d => { d with st := n, cause := cause }
    let s2 := s1.fns.foldl (fun acc f => acc.irq f 2) s1
    if n = .phRestart then s2 else s2.event 0x0003 [(1, old.code), (1, n.code), (1, cause)]

/-- ERROR_STATS counters of a unit code (R561). -/
def State.errCnt (s : State) (unit : Nat) (f : ErrCnt → ErrCnt) : State :=
  { s with faults := { s.faults with cnt := SMap.set {} s.faults.cnt unit (f (SMap.get {} s.faults.cnt unit)) } }

/-- Raise FAULT (R548). -/
def State.faultEvent (s : State) (unit cause idx info : Nat) : State :=
  s.event 0x0901 [(1, unit), (1, cause), (2, idx), (8, info)]

/-! ### OTP (R516) -/

/-- A field of the OTP, as its bytes. -/
def State.otpBytes (s : State) (id n : Nat) : List Byte := leBytes n (SMap.get 0 s.trust.otp id)

/-- The device's private identity key (R520). -/
def State.idKey (s : State) : List Byte := s.otpBytes 2 32

/-- The TRNG failed its health test (R510). -/
def State.trngBad (s : State) : Bool := s.trust.obs.any fun o => !o.trngOk

/-! ### Images -/

/-- The image a cluster runs (R518, R558). -/
def State.image (s : State) (cl : Nat) : Option Image :=
  if (s.cl cl).loaded then s.trust.images.find? fun i => i.version = (s.cl cl).version else none

/-- The core address of an HBM address in the cached view (R260). -/
def cachedBase : Nat := 0x8000000000
def uncachedBase : Nat := 0xC000000000

/-- The address lies in the text of the cluster's image (R264). -/
def State.inText (s : State) (cl : Nat) (a : Nat) : Bool :=
  match s.image cl with
  | some i => cachedBase + i.text ≤ a && a < cachedBase + i.text + i.textLen
  | none => false

end Sys2Proof.Machine
end

