-- ==== Sys2Proof/Machine/Crypto.lean ====
section
/-!
DEFINITION. The standard functions the spec names: CRC-32 and CRC-32C (R337), ones'-complement sums (R336), Toeplitz
(R135, R338), AES and SM4 with GCM (R339, R344), and SM3 (R442, R513). SM2 is left uninterpreted (log 5).
-/

namespace Sys2Proof.Machine

/-! ### CRC (R337) -/

def crcPoly (ieee : Bool) : W32 := if ieee then 0xEDB88320 else 0x82F63B78

def crcBits (poly c : W32) (n : Nat) : W32 :=
  match n with
  | 0 => c
  | n + 1 => crcBits poly (if c.getLsbD 0 then (c >>> 1) ^^^ poly else c >>> 1) n

/-- step(c, b) of R337. -/
def crcStep (poly c : W32) (b : Byte) : W32 := crcBits poly (c ^^^ b.setWidth 32) 8

def crcBytes (poly c : W32) (bs : List Byte) : W32 := bs.foldl (crcStep poly) c

/-- The standard CRC: all ones in, inverted out. -/
def crcStd (ieee : Bool) (bs : List Byte) : W32 := crcBytes (crcPoly ieee) 0xFFFFFFFF bs ^^^ 0xFFFFFFFF

/-- The Ethernet FCS of a frame's bytes, lowest byte first on the wire. -/
def fcs (bs : List Byte) : List Byte := leBytes 4 (crcStd true bs).toNat

/-! ### Ones'-complement sums (R336) -/

/-- fold(s): s = (s and 0xFFFF) + (s >> 16) until s ≤ 0xFFFF. Eight rounds suffice for 128-bit sums. -/
def foldSum (s : Nat) : Nat := (List.range 8).foldl (fun a _ => if a ≤ 0xFFFF then a else a % 65536 + a / 65536) s

/-- The byte pairs of a string, the first byte high; a missing second byte is 0. -/
def pairSum (bs : List Byte) : Nat :=
  match bs with
  | [] => 0
  | [a] => a.toNat * 256
  | a :: b :: rest => a.toNat * 256 + b.toNat + pairSum rest

/-! ### Toeplitz (R135, R338) -/

/-- Key bit 0 is the most significant bit of key byte 0. -/
def keyBit (key : List Byte) (k : Nat) : Bool := (key.getD (k / 8) 0).getLsbD (7 - k % 8)

/-- The 32-bit window of a key from bit `p`, read most significant first. -/
def keyWindow (key : List Byte) (p : Nat) : W32 :=
  BitVec.ofNat 32 ((List.range 32).foldl (fun a k => 2 * a + if keyBit key (p + k) then 1 else 0) 0)

/-- Toeplitz over bytes whose first bit stands at key bit `p`. -/
def toeplitz (key : List Byte) (p : Nat) (bs : List Byte) : W32 :=
  (List.range (8 * bs.length)).foldl (fun a i =>
    if keyBit bs i then a ^^^ keyWindow key (p + i) else a) 0

/-! ### GF(2^8) -/

/-- Product in GF(2^8) modulo a polynomial with x^8. -/
def gfMul (poly a b : Nat) : Nat :=
  ((List.range 8).foldl (fun (acc : Nat × Nat) k =>
    let x := if b.testBit k then acc.1 ^^^ acc.2 else acc.1
    let d := acc.2 * 2
    (x, if 256 ≤ d then d ^^^ poly else d)) (0, a)).1

def gfSq (poly a : Nat) : Nat := gfMul poly a a

/-- The inverse, a^254, and 0 for 0. -/
def gfInv (poly a : Nat) : Nat :=
  let a2 := gfSq poly a
  let a4 := gfSq poly a2
  let a8 := gfSq poly a4
  let a16 := gfSq poly a8
  let a32 := gfSq poly a16
  let a64 := gfSq poly a32
  let a128 := gfSq poly a64
  gfMul poly a128 (gfMul poly a64 (gfMul poly a32 (gfMul poly a16 (gfMul poly a8 (gfMul poly a4 a2)))))

def parity8 (a : Nat) : Nat := ((List.range 8).filter fun k => a.testBit k).length % 2
def rotl8 (a n : Nat) : Nat := (a * 2 ^ n + a / 2 ^ (8 - n)) % 256

/-! ### AES (FIPS 197) -/

def aesSbox (a : Nat) : Nat :=
  let i := gfInv 0x11B a
  i ^^^ rotl8 i 1 ^^^ rotl8 i 2 ^^^ rotl8 i 3 ^^^ rotl8 i 4 ^^^ 0x63

def xorList (a b : List Nat) : List Nat := List.zipWith (· ^^^ ·) a b

/-- The key schedule as a list of 4-byte words, oldest first. -/
def aesExpand (nk : Nat) (ws : List (List Nat)) (rcon : Nat) (i n : Nat) : List (List Nat) :=
  match n with
  | 0 => ws
  | n + 1 =>
    let prev := ws.getLastD []
    let back := ws.getD (i - nk) []
    let t := if i % nk = 0 then
        let r := (prev.drop 1 ++ prev.take 1).map aesSbox
        xorList r [rcon, 0, 0, 0]
      else if nk = 8 ∧ i % 8 = 4 then prev.map aesSbox
      else prev
    aesExpand nk (ws ++ [xorList back t]) (if i % nk = 0 then gfMul 0x11B rcon 2 else rcon) (i + 1) n

def chunk4 (l : List Nat) (n : Nat) : List (List Nat) := (List.range n).map fun k => (l.drop (4 * k)).take 4

def shiftRows (st : List Nat) : List Nat :=
  (List.range 16).map fun k => st.getD ((k / 4 + k % 4) % 4 * 4 + k % 4) 0

def mixColumns (st : List Nat) : List Nat :=
  (List.range 16).map fun k =>
    let c := k / 4 * 4
    let g := fun j => st.getD (c + (k + j) % 4) 0
    gfMul 0x11B (g 0) 2 ^^^ gfMul 0x11B (g 1) 3 ^^^ g 2 ^^^ g 3

/-- AES encryption of one block with a 16- or 32-byte key. -/
def aesEnc (key blk : List Byte) : List Byte :=
  let nk := key.length / 4
  let rounds := nk + 6
  let ws := aesExpand nk (chunk4 (key.map BitVec.toNat) nk) 1 nk (4 * (rounds + 1) - nk)
  let rk := fun r => ((ws.drop (4 * r)).take 4).flatten
  let st0 := xorList (blk.map BitVec.toNat) (rk 0)
  let st := (List.range (rounds - 1)).foldl (fun st r =>
    xorList (mixColumns (shiftRows (st.map aesSbox))) (rk (r + 1))) st0
  (xorList (shiftRows (st.map aesSbox)) (rk rounds)).map (BitVec.ofNat 8)

/-! ### SM4 (GB/T 32907) -/

def sm4Affine (a : Nat) : Nat := (List.range 8).foldl (fun y k => y + parity8 (rotl8 0xA7 k &&& a) * 2 ^ k) 0

def sm4Sbox (a : Nat) : Nat := sm4Affine (gfInv 0x1F5 (sm4Affine a ^^^ 0xD3)) ^^^ 0xD3

def rotl32 (a : W32) (n : Nat) : W32 := (a <<< n) ||| (a >>> ((32 - n) % 32))

def word32 (bs : List Byte) : W32 := BitVec.ofNat 32 (beVal bs)

def sm4Tau (a : W32) : W32 := word32 ((beBytes 4 a.toNat).map fun b => BitVec.ofNat 8 (sm4Sbox b.toNat))

/-- T of a data round, T' of a key round. -/
def sm4T (a : W32) : W32 := let b := sm4Tau a; b ^^^ rotl32 b 2 ^^^ rotl32 b 10 ^^^ rotl32 b 18 ^^^ rotl32 b 24
def sm4T' (a : W32) : W32 := let b := sm4Tau a; b ^^^ rotl32 b 13 ^^^ rotl32 b 23

/-- Round constant i: bytes (4i + j) × 7 mod 256. -/
def sm4Ck (i : Nat) : W32 := word32 ((List.range 4).map fun j => BitVec.ofNat 8 ((4 * i + j) * 7))

def sm4Keys (key : List Byte) : List W32 :=
  let k := fun j => word32 ((key.drop (4 * j)).take 4)
  let k0 := k 0 ^^^ (0xA3B1BAC6 : W32)
  let k1 := k 1 ^^^ (0x56AA3350 : W32)
  let k2 := k 2 ^^^ (0x677D9197 : W32)
  let k3 := k 3 ^^^ (0xB27022DC : W32)
  ((List.range 32).foldl (fun (acc : List W32 × W32 × W32 × W32 × W32) i =>
    let (rs, a, b, c, d) := acc
    let r := a ^^^ sm4T' (b ^^^ c ^^^ d ^^^ sm4Ck i)
    (rs ++ [r], b, c, d, r)) ([], k0, k1, k2, k3)).1

/-- SM4 encryption of one block with a 16-byte key. -/
def sm4Enc (key blk : List Byte) : List Byte :=
  let w := fun j => word32 ((blk.drop (4 * j)).take 4)
  let (a, b, c, d) := (sm4Keys key).foldl (fun (x : W32 × W32 × W32 × W32) r =>
    let (a, b, c, d) := x
    (b, c, d, a ^^^ sm4T (b ^^^ c ^^^ d ^^^ r))) (w 0, w 1, w 2, w 3)
  beBytes 4 d.toNat ++ beBytes 4 c.toNat ++ beBytes 4 b.toNat ++ beBytes 4 a.toNat

/-! ### GCM (NIST SP 800-38D, R339, R344) -/

/-- The block cipher of a key slot's algorithm: 1 AES-128, 2 AES-256, 3 SM4 (R340). -/
def blockEnc (alg : Nat) (key blk : List Byte) : List Byte :=
  match alg with
  | 1 => aesEnc (key.take 16) blk
  | 2 => aesEnc (key.take 32) blk
  | _ => sm4Enc (key.take 16) blk

/-- Product in GF(2^128), blocks as big-endian numbers. -/
def gcmMul (x y : BitVec 128) : BitVec 128 :=
  ((List.range 128).foldl (fun (acc : BitVec 128 × BitVec 128) i =>
    let z := if x.getLsbD (127 - i) then acc.1 ^^^ acc.2 else acc.1
    let v := if acc.2.getLsbD 0 then (acc.2 >>> 1) ^^^ (0xE1#128 <<< 120) else acc.2 >>> 1
    (z, v)) (0, y)).1

def blockVal (bs : List Byte) : BitVec 128 := BitVec.ofNat 128 (beVal (slice bs 0 16))
def blockBytes (v : BitVec 128) : List Byte := beBytes 16 v.toNat

/-- The GHASH subkey. -/
def gcmH (alg : Nat) (key : List Byte) : BitVec 128 := blockVal (blockEnc alg key (List.replicate 16 0))

/-- The accumulator after a data block, padded with zeros. -/
def ghashStep (h acc : BitVec 128) (blk : List Byte) : BitVec 128 := gcmMul (acc ^^^ blockVal blk) h

def blocksOf (bs : List Byte) (fuel : Nat) : List (List Byte) :=
  match fuel with
  | 0 => []
  | n + 1 => if bs.isEmpty then [] else bs.take 16 :: blocksOf (bs.drop 16) n

/-- The counter's low 32 bits rise by 1, wrapping. -/
def ctrNext (c : BitVec 128) : BitVec 128 :=
  ((c >>> 32) <<< 32) ||| ((c.setWidth 32 + 1 : W32).setWidth 128)

/-- GCTR over a message: output, counter and accumulator (R344). -/
def gctr (enc : Bool) (alg : Nat) (key src : List Byte) (ctr acc : BitVec 128) :
    List Byte × BitVec 128 × BitVec 128 :=
  let h := gcmH alg key
  (blocksOf src (src.length / 16 + 1)).foldl (fun (st : List Byte × BitVec 128 × BitVec 128) x =>
    let ks := blockEnc alg key (blockBytes st.2.1)
    let y := List.zipWith (· ^^^ ·) x ks
    (st.1 ++ y, ctrNext st.2.1, ghashStep h st.2.2 (if enc then y else x))) ([], ctr, acc)

def ghashAll (alg : Nat) (key src : List Byte) (acc : BitVec 128) : BitVec 128 :=
  (blocksOf src (src.length / 16 + 1)).foldl (ghashStep (gcmH alg key)) acc

/-- GCM_FINAL's tag (R344). -/
def gcmTag (alg : Nat) (key : List Byte) (ctr acc : BitVec 128) (aad text : Nat) : BitVec 128 :=
  let lens := BitVec.ofNat 128 (8 * aad * 2 ^ 64 + 8 * text)
  let a := gcmMul (acc ^^^ lens) (gcmH alg key)
  let j0 := ((ctr >>> 32) <<< 32) ||| 1
  blockVal (blockEnc alg key (blockBytes j0)) ^^^ a

/-! ### SM3 (GB/T 32905) -/

def sm3P0 (x : W32) : W32 := x ^^^ rotl32 x 9 ^^^ rotl32 x 17
def sm3P1 (x : W32) : W32 := x ^^^ rotl32 x 15 ^^^ rotl32 x 23

/-- The message words W0 to W67. -/
def sm3Expand (w : List W32) (n : Nat) : List W32 :=
  match n with
  | 0 => w
  | n + 1 =>
    let j := w.length
    let g := fun k => w.getD (j - k) 0
    sm3Expand (w ++ [sm3P1 (g 16 ^^^ g 9 ^^^ rotl32 (g 3) 15) ^^^ rotl32 (g 13) 7 ^^^ g 6]) n

def sm3Round (w : List W32) (st : List W32) (j : Nat) : List W32 :=
  let g := fun k => st.getD k 0
  let tj : W32 := if j < 16 then 0x79CC4519 else 0x7A879D8A
  let ss1 := rotl32 (rotl32 (g 0) 12 + g 4 + rotl32 tj (j % 32)) 7
  let ss2 := ss1 ^^^ rotl32 (g 0) 12
  let ff := if j < 16 then g 0 ^^^ g 1 ^^^ g 2 else (g 0 &&& g 1) ||| (g 0 &&& g 2) ||| (g 1 &&& g 2)
  let gg := if j < 16 then g 4 ^^^ g 5 ^^^ g 6 else (g 4 &&& g 5) ||| (~~~(g 4) &&& g 6)
  let tt1 := ff + g 3 + ss2 + (w.getD j 0 ^^^ w.getD (j + 4) 0)
  let tt2 := gg + g 7 + ss1 + w.getD j 0
  [tt1, g 0, rotl32 (g 1) 9, g 2, sm3P0 tt2, g 4, rotl32 (g 5) 19, g 6]

def sm3Block (v : List W32) (blk : List Byte) : List W32 :=
  let w := sm3Expand ((List.range 16).map fun k => word32 ((blk.drop (4 * k)).take 4)) 52
  List.zipWith (· ^^^ ·) v ((List.range 64).foldl (sm3Round w) v)

def chunks64 (bs : List Byte) (fuel : Nat) : List (List Byte) :=
  match fuel with
  | 0 => []
  | n + 1 => if bs.isEmpty then [] else bs.take 64 :: chunks64 (bs.drop 64) n

/-- The SM3 digest of a byte string. -/
def sm3 (bs : List Byte) : List Byte :=
  let pad := (119 - bs.length % 64) % 64
  let m := bs ++ [0x80] ++ List.replicate pad 0 ++ beBytes 8 (8 * bs.length)
  let iv : List W32 := [0x7380166F, 0x4914B2B9, 0x172442D7, 0xDA8A0600, 0xA96F30BC, 0x163138AA, 0xE38DEE4D, 0xB0FB0E4E]
  ((chunks64 m (m.length / 64 + 1)).foldl sm3Block iv).flatMap fun w => beBytes 4 w.toNat

end Sys2Proof.Machine
end

