-- ==== Sys2Proof/Machine/Queues.lean ====
section
/-!
DEFINITION. Ports behind queues: the E-CID map, the logical and physical port of a queue, and its pump (R7, R91, R93, R403).
-/

namespace Sys2Proof.Machine

/-- Bits [hi:lo] of an operand as a number. -/
def fld (v : W64) (lo n : Nat) : Nat := v.toNat / 2 ^ lo % 2 ^ n

/-! ### Ports behind queues (R7, R93, R403) -/

def ecidValid (w : W64) : Bool := w.getLsbD 0
def ecidCascade (w : W64) : Nat := fld w 1 7
def ecidEcid (w : W64) : Nat := fld w 8 20
def ecidLport (w : W64) : Nat := fld w 30 10

/-- The valid E-CID entry of an extended port. -/
def State.ecidOf (s : State) (lp : Nat) : Option W64 :=
  (s.net.ecid.find? fun e => ecidValid e.2 && ecidLport e.2 = lp).map (·.2)

/-- The physical port through which a logical port is reached. -/
def State.physOf (s : State) (lp : Nat) : Option Nat :=
  if lp < 128 then some lp else (s.ecidOf lp).map ecidCascade

/-- The logical port of a queue's group; 0xFFFF when it is unmapped. -/
def State.queuePort (s : State) (q : Nat) : Nat := (s.group (q / 8)).port

/-- The copies of a queue, oldest first. -/
def Queue.copies (q : Queue) : List Copy :=
  q.head ++ q.refilling.flatten.map (·.copy) ++ q.spill.map (·.copy) ++ q.writing.flatMap (fun a => a.recs.map (·.copy))
    ++ q.agg.toList.flatMap (·.copies) ++ q.tail

/-- The physical port where a queue's copies wait: of an extended port, the cascade port for which its oldest copy was
queued, and for an empty queue that of its present entry (R93, R403). -/
def State.queuePhys (s : State) (q : Nat) : Option Nat :=
  let lp := s.queuePort q
  if lp = 0xFFFF then none
  else if lp < 128 then some lp
  else match (s.queue q).copies.head?.bind (·.cascade) with
    | some p => some p
    | none => s.physOf lp

/-- The pump of a queue; a queue without one counts as pump 0's (log 29). -/
def State.pumpOf (s : State) (q : Nat) : Nat := match s.queuePhys q with
  | some p => wellOf p
  | none => 0

/-- The copy as the pump takes it: with the cascade port of its queue's present entry, where it has none yet (R93). -/
def State.bindCascade (s : State) (c : Copy) : Copy :=
  let lp := s.queuePort c.queue
  if lp < 128 ∨ lp = 0xFFFF ∨ c.cascade.isSome then c else { c with cascade := s.physOf lp }

/-- The physical port for which a copy is queued. -/
def State.copyPhys (s : State) (c : Copy) : Option Nat :=
  let lp := s.queuePort c.queue
  if lp = 0xFFFF then none else if lp < 128 then some lp else (s.bindCascade c).cascade

/-- The pump that holds a copy's edit list. -/
def State.copyPump (s : State) (c : Copy) : Nat := match s.copyPhys c with
  | some p => wellOf p
  | none => 0

/-- The copies of a queue push an E-tag. -/
def State.tagged (s : State) (q : Nat) : Bool :=
  match s.ecidOf (s.queuePort q) with
  | some w => 128 ≤ s.queuePort q && w.getLsbD 41
  | none => false

end Sys2Proof.Machine
end

