-- ==== Sys2Proof/Machine/HbmMap.lean ====
section
/-!
DEFINITION. Where an HBM address lies: map ranges, pseudo-channel, bank and row, the redirects of retired
pseudo-channels; and uncorrectable HBM errors (R449-R457, R467).
-/

namespace Sys2Proof.Machine

def State.updHbm (s : State) (f : HbmSt → HbmSt) : State := { s with hbm := f s.hbm }
def State.pc (s : State) (p : Nat) : PcSt := SMap.get {} s.hbm.pcs p
def State.updPc (s : State) (p : Nat) (f : PcSt → PcSt) : State :=
  s.updHbm fun h => { h with pcs := SMap.set {} h.pcs p (f (s.pc p)) }

/-- Stack A holds PC0-PC31, stack B the others. -/
def State.stack (s : State) (k : Nat) : StackSt := if k = 0 then s.hbm.stackA else s.hbm.stackB
def State.updStack (s : State) (k : Nat) (f : StackSt → StackSt) : State :=
  s.updHbm fun h => if k = 0 then { h with stackA := f h.stackA } else { h with stackB := f h.stackB }
def stackOf (pc : Nat) : Nat := pc / 32

/-- Base, size and order of the map range that holds a region: flow contexts through the ledger share range 0 (R453). -/
def HbmMem.rangeOf (m : HbmMem) (r : Region) : Nat × Nat × Nat :=
  if r.use ≤ 5 then (0, total ((m.regions.filter fun x => x.use ≤ 5).map (·.size)), 0) else (r.base, r.size, r.order)

/-- The slot and local offset of an offset within a range of this order and size (R456). -/
def mapOffset (order size o : Nat) : Nat × Nat :=
  match order with
  | 0 => (o / 256 % 64, o / 16384 * 256 + o % 256)
  | 1 => (o / 4096 % 64, o / 262144 * 4096 + o % 4096)
  | 2 => (o / 1024 % 64, o / 262144 * 4096 + o / 256 % 4 * 1024 + o / 65536 % 4 * 256 + o % 256)
  | _ =>
    let h := size / 2
    let p := if h ≤ o then o - h else o
    ((if h ≤ o then 32 else 0) + p / 256 % 32, p / 8192 * 256 + p % 256)

/-- The offset of a slot and local offset: the inverse of `mapOffset` (R456). -/
def unmapOffset (order size slot l : Nat) : Nat :=
  match order with
  | 0 => l / 256 * 16384 + slot * 256 + l % 256
  | 1 => l / 4096 * 262144 + slot * 4096 + l % 4096
  | 2 => l / 4096 * 262144 + l / 256 % 4 * 65536 + slot * 1024 + l / 1024 % 4 * 256 + l % 256
  | _ => (if 32 ≤ slot then size / 2 else 0) + l / 256 * 8192 + slot % 32 * 256 + l % 256

/-- Where the granule of a pseudo-channel address lies: at its redirect, when its pseudo-channel is retired (R457). -/
def State.redirected (s : State) (pc a : Nat) : Nat × Nat :=
  match SMap.get 0 s.hbm.redirects (pc * 2048 + a / 1048576) with
  | 0 => (pc, a)
  | n + 1 => (n / 2048, n % 2048 * 1048576 + a % 1048576)

/-- The pseudo-channel and the pseudo-channel address of an HBM address; none in unassigned space (R456, R457). -/
def State.hbmPlace (s : State) (a : Nat) : Option (Nat × Nat) :=
  (s.mem.region a).map fun r =>
    let g := s.mem.rangeOf r
    let x := mapOffset g.2.2 g.2.1 (a - g.1)
    s.redirected x.1 (g.1 / 64 + x.2)

/-- The HBM address that lies at a pseudo-channel address, redirected granules included. -/
def State.hbmAt (s : State) (pc a : Nat) : Option Nat :=
  let k := pc * 2048 + a / 1048576
  let src := match s.hbm.redirects.find? fun e => e.2 = k + 1 with
    | some e => e.1
    | none => k
  let l := src % 2048 * 1048576 + a % 1048576
  (s.mem.region (src % 2048 * 67108864)).map fun r =>
    let g := s.mem.rangeOf r
    g.1 + unmapOffset g.2.2 g.2.1 (src / 2048) (l - g.1 / 64)

/-- Bank, as stack ID × 16 + bank group × 4 + bank, and row of a pseudo-channel address (R456). -/
def bankOf (a : Nat) : Nat := a / 16384 % 4 * 16 + a / 1024 % 4 * 4 + a / 4096 % 4
def rowOf (a : Nat) : Nat := a / 65536 % 32768

/-- HBM_ERROR, at most once per pseudo-channel in each 1 ms of DT (R467). -/
def State.hbmErrorEvent (s : State) (pc a port : Nat) : State :=
  let x := s.pc pc
  let limited := match x.errDt with
    | some d => decide (s.dt < d + 1000000)
    | none => false
  if limited then s.updPc pc fun y => { y with errSince := y.errSince + 1 }
  else (s.updPc pc fun y => { y with errDt := some s.dt, errSince := 0 }).event 0x0C00
    [(1, pc), (1, bankOf a / 16), (1, bankOf a % 16), (1, port), (2, rowOf a), (2, a % 1024 / 32 * 32), (4, x.errSince + 1)]

/-- An uncorrectable error at an HBM address: the unit is written back poisoned, counted and reported (R467). -/
def State.hbmError (s : State) (addr port : Nat) : State :=
  let s1 := (s.updMem fun m => m.mark addr 1).errCnt 13 fun e => { e with uncorrectable := e.uncorrectable + 1 }
  match s1.hbmPlace addr with
  | some x => (s1.updPc x.1 fun y => { y with uncorrectable := y.uncorrectable + 1 }).hbmErrorEvent x.1 x.2 port
  | none => s1

/-- The HBM address of an offset in the region of a use. -/
def State.regionAddr (s : State) (use off : Nat) : Nat :=
  match s.mem.regions.find? fun r => r.use = use with
  | some r => r.base + off
  | none => off

end Sys2Proof.Machine
end

