-- ==== Sys2Proof/Machine/Sleep.lean ====
section
/-!
DEFINITION. Power states: the active classes, the allowance T, the states it permits, and the exits of sleeping parts
(R531-R536).
-/

namespace Sys2Proof.Machine

def State.updPower (s : State) (f : PowerSt → PowerSt) : State := { s with power := f s.power }

/-- The tolerance of a class in nanoseconds (R532). -/
def State.tol (s : State) (c : Nat) : Nat := SMap.get 2000 s.power.tol c

/-- T: the least tolerance of the active classes; none for no limit (R532). -/
def State.powerT (s : State) : Option Nat :=
  (List.range 8).foldl (fun m c =>
    if s.power.active.getLsbD c ∧ s.tol c ≠ 0xFFFFFFFF then some (match m with
      | some x => Nat.min x (s.tol c)
      | none => s.tol c) else m) none

/-- The latency fits T. -/
def State.fitsT (s : State) (n : Nat) : Bool := match s.powerT with
  | some t => n ≤ t
  | none => true

/-- The exit latency of a compute state: 0 none, 1 core gate, 2 retention, 3 off (R531). -/
def exitNs (k : Nat) : Nat := [10, 50, 4000, 40000].getD k 10

/-- The deepest compute state allowed (R533). -/
def State.computeState (s : State) : Nat :=
  if s.fitsT (exitNs 3 + 30) then 3 else if s.fitsT (exitNs 2 + 30) then 2 else if s.fitsT (exitNs 1 + 30) then 1 else 0

def State.selfRefreshAllowed (s : State) : Bool := s.fitsT (exitNs s.computeState + 1000)

def State.countWake (s : State) (k : Nat) : State :=
  s.updPower fun p => { p with wakes := SMap.set 0 p.wakes k (SMap.get 0 p.wakes k + 1) }

/-- A cluster's power state now: a waking cluster is active once its exit has ended. -/
def State.clPower (s : State) (c : Nat) : ClPower :=
  if (s.cl c).power = .waking ∧ (s.cl c).wakeNs ≤ s.iv then .active else (s.cl c).power

/-- A core's clock runs again. -/
def State.ungate (s : State) (core : Nat) : State :=
  if (s.core core).gated then (s.updCore core fun c => { c with gated := false, idleFor := 0 }).countWake 1
  else s.updCore core fun c => { c with idleFor := 0 }

/-- Clusters stay asleep after a critical temperature and a power failure (R537, R540). -/
def State.keptAsleep (s : State) : Bool := s.order.stopped || (s.dci.st = .fault && s.dci.cause = 6)

/-- A sleeping cluster starts its exit, its cores with it (R531, R533). -/
def State.wakeCluster (s : State) (c : Nat) : State :=
  let k := if (s.cl c).power = .off then 3 else 2
  if s.keptAsleep then s
  else if (s.cl c).power = .retention ∨ (s.cl c).power = .off then
    let s1 := (s.updCl c fun x => { x with
      power := .waking, wakeNs := s.iv + exitNs k, idleFor := 0 }).countWake k
    ((List.range 16).map (16 * c + ·)).foldl State.ungate s1
  else s.updCl c fun x => { x with idleFor := 0 }

/-- A thread of a core leaves its parked state: the core's clock runs, and its cluster wakes (R534). -/
def State.wakeThread (s : State) (t : Nat) : State :=
  ((s.wakeCluster (clusterOf t)).ungate (coreOf t)).countWake 0

/-- A stack leaves self-refresh; its pseudo-channels can issue when the exit of 1 µs ends (R465). -/
def State.wakeStack (s : State) (k : Nat) : State :=
  if (s.stack k).mode = .selfRefresh then
    ((s.updStack k fun x => { x with mode := .active }).countWake 5).updHbm fun h =>
      { h with pcs := ((List.range 32).map (32 * k + ·)).foldl (fun m p =>
          SMap.set {} m p { SMap.get {} m p with wakeNs := s.iv + 1000, idleNs := s.iv + 1000 }) h.pcs }
  else s

/-- A pseudo-channel leaves power-down in 30 ns, after its stack's exit (R465). -/
def State.wakePc (s : State) (p : Nat) : State :=
  let s1 := s.wakeStack (stackOf p)
  if (s1.pc p).asleep then
    (s1.updPc p fun x => { x with
      asleep := false, wakeNs := (Nat.max x.wakeNs s.iv) + 30, idleNs := s.iv }).countWake 4
  else s1

/-- Parts in a state deeper than T allows start their exit (R533). -/
def State.applyT (s : State) : State :=
  let k := s.computeState
  let s1 := (List.range 12).foldl (fun (acc : State) c =>
    if ((acc.cl c).power = .off ∧ k < 3) ∨ ((acc.cl c).power = .retention ∧ k < 2) then acc.wakeCluster c else acc) s
  let s2 := if k = 0 then (s1.cores.map Prod.fst).foldl State.ungate s1 else s1
  if s2.selfRefreshAllowed then s2 else (s2.wakeStack 0).wakeStack 1

/-- A class becomes active (R532). -/
def State.classActive (s : State) (c : Nat) : State :=
  if s.power.active.getLsbD c then s
  else (s.updPower fun p => { p with active := p.active ||| (1 <<< c) }).applyT

/-- A frame of a class is accepted. -/
def State.classFrame (s : State) (c : Nat) : State :=
  (s.updPower fun p => { p with lastAccept := SMap.set 0 p.lastAccept c (s.dt + 1) }).classActive c

end Sys2Proof.Machine
end

