-- ==== Sys2Proof/Machine/HbmReq.lean ====
section
/-!
DEFINITION. Requests to the HBM as its ports take them, and those of the spill path (R178, R179, R185, R451, R460, R461).
-/

namespace Sys2Proof.Machine

/-! ### Requests (R451, R460) -/

/-- The pieces of a request, each within one row of one bank, with the pseudo-channel that serves it. -/
def State.hbmPieces (s : State) (addr len : Nat) : List (Nat × Nat × Nat) :=
  let n := if len ≤ 256 then 1 else len / 256
  (List.range n).filterMap fun k =>
    let a := addr + 256 * k
    (s.hbmPlace a).map fun x => (x.1, a, Nat.min len 256)

/-- A port may use an entry of a queue: 2 are reserved for each port, 32 are shared (R460). -/
def PcSt.room (x : PcSt) (port : Nat) : Bool :=
  let own := fun p => (x.queue.filter fun r => r.port = p).length
  own port < 2 || total ((List.range 16).map fun p => own p - 2) < 32

/-- Parts that wait at their ports enter the queue, the oldest first, while their ports may use an entry. -/
def PcSt.takeIn (x : PcSt) (todo : List HbmReq) : PcSt :=
  match todo with
  | [] => x
  | r :: rest =>
    if x.room r.port && !(x.waiting.any fun w => w.port = r.port) then
      PcSt.takeIn { x with queue := x.queue ++ [r] } rest
    else PcSt.takeIn { x with waiting := x.waiting ++ [r] } rest

def PcSt.enter (x : PcSt) : PcSt := PcSt.takeIn { x with waiting := [] } x.waiting

/-- The part of a request that one pseudo-channel serves reaches it; a sleeping one starts its exit (R465). -/
def State.hbmPart (s : State) (port : Nat) (write : Bool) (data : List Byte) (addr pc : Nat)
    (ps : List (Nat × Nat × Nat)) : State :=
  let mine := ps.filter fun e => e.1 = pc
  let bs := if write then mine.flatMap fun e => (data.drop (e.2.1 - addr)).take e.2.2 else []
  let r : HbmReq := ⟨port, mine.map fun e => (e.2.1, e.2.2), write, bs, s.iv⟩
  (s.wakePc pc).updPc pc fun x => PcSt.takeIn x [r]

/-- Bytes left in the device-wide cap bucket of 64 blocks (R461). -/
def State.capNow (s : State) : Nat := 262144 - (s.hbm.capUsed - 800 * (s.iv - s.hbm.capNs))

/-! ### The spill path (R179, R185) -/

/-- A request of the spill path for one block of the cistern: port 0 writes, port 1 reads (R461). -/
def State.spillReq (s : State) (write : Bool) (block : Nat) (data : List Byte) : State :=
  let a := s.regionAddr 6 (4096 * block)
  let ps := s.hbmPieces a 4096
  ((ps.map Prod.fst).foldl insNat []).foldl (fun (acc : State) pc =>
    acc.hbmPart (if write then 0 else 1) write data a pc ps) s

/-- A request of the spill path for one of these blocks has not been served. -/
def State.spillBusy (s : State) (write : Bool) (blocks : List Nat) : Bool :=
  let as := blocks.map fun b => s.regionAddr 6 (4096 * b) / 4096
  s.hbm.pcs.any fun e => (e.2.queue ++ e.2.waiting).any fun r =>
    r.port = (if write then 0 else 1) && r.pieces.any fun p => as.contains (p.1 / 4096)

/-- The spill bandwidth is used up: no block is left in the cap bucket (R185, R186). -/
def State.spillSpent (s : State) : Bool := s.capNow < 4096

/-! ### Blocks (R178, R461, R471) -/

/-- The lowest number from `n` up that a rising list does not hold. -/
def firstGap (l : List Nat) (n : Nat) : Nat :=
  match l with
  | [] => n
  | a :: rest => if a = n then firstGap rest (n + 1) else n

/-- The lowest free block of a pseudo-channel below the limit. -/
def State.freeBlockOf (s : State) (pc : Nat) : Option Nat :=
  let used := (s.cistern.usedBlocks.filter fun b => b % 64 = pc).map (· / 64)
  let b := 64 * firstGap used 0 + pc
  if b < s.cistern.limit ∧ !s.cistern.fencedPcs.contains pc then some b else none

/-- The next block: in rotation over the pseudo-channels that hold a free one, the lowest of its pseudo-channel (log 163). -/
def State.freeBlock (s : State) : Option Nat :=
  ((List.range 64).map fun k => (s.cistern.lastPc + 1 + k) % 64).findSome? s.freeBlockOf

def State.takeBlock (s : State) (b : Nat) : State :=
  { s with cistern := { s.cistern with usedBlocks := insNat s.cistern.usedBlocks b, lastPc := b % 64 } }

end Sys2Proof.Machine
end

