-- ==== Sys2Proof/Machine/Buffers.lean ====
section
/-!
DEFINITION. The basin and the buffer pool manager: quota entities, cell grants, buffers, references and frees
(R149-R174, R417 thresholds), as operations that the command families call.
-/

namespace Sys2Proof.Machine

/-! ### Quota entities (R169-R174) -/

/-- The entity number: type × 65,536 + index (R173). -/
def entPortClass (port cls : Nat) : Nat := port * 8 + cls
def entPort (port : Nat) : Nat := 0x10000 + port
def entCluster (c : Nat) : Nat := 0x20000 + c
def entPumphouse : Nat := 0x30000
def entHost (f : HostFn) : Nat := match f with | .hostA => 0x40000 | .hostB => 0x40001
def entRefill (p : Nat) : Nat := 0x50000 + p

/-- An entity's values after priming (R174). -/
def entDef (k : Nat) : Ent :=
  match k / 65536 with
  | 0 => ⟨0, 0, 8, 0, 0, 0, 0, 0, 0⟩
  | 1 => ⟨0, 0, 12, 0, 0, 0, 0, 0, 0⟩
  | 2 => ⟨1024, 0, 5, 0, 0, 0, 0, 0, 0⟩
  | 3 => ⟨2048, 0, 0, 0, 0, 0, 0, 0, 0⟩
  | 4 => ⟨4096, 0, 4, 0, 0, 0, 0, 0, 0⟩
  | _ => ⟨4096, 0, 0, 0, 0, 0, 0, 0, 0⟩

def State.ent (s : State) (k : Nat) : Ent := SMap.get (entDef k) s.basin.ents k
def State.setEnt (s : State) (k : Nat) (e : Ent) : State :=
  { s with basin := { s.basin with ents := SMap.set (entDef k) s.basin.ents k e } }
def State.updEnt (s : State) (k : Nat) (f : Ent → Ent) : State := s.setEnt k (f (s.ent k))

/-- The sum of all reservations: 55,296 cells after priming (R174). -/
def State.minSum (s : State) : Nat :=
  (s.basin.ents.foldl (fun acc (k, e) => acc + (e.min : Int) - (entDef k).min) (55296 : Int)).toNat

/-- Free cells of the shared pool: s_free of R171. A cell retired without a spare is no capacity (R188). -/
def State.sharedFree (s : State) : Nat := 491520 - s.basin.lost.length - s.minSum - s.basin.sharedUsed

/-- A grant's answer. -/
inductive Grant where
  | ok (kind : Nat)
  | quota
  | noBuffer
deriving DecidableEq, Repr

/-- `shared_used ≥ alpha × s_free`, for the encodings of R172. -/
def overShare (e : Ent) (sFree : Nat) : Bool :=
  if e.alpha = 12 then false
  else if e.alpha = 0 then true
  else 2 ^ (e.alpha - 1) * sFree ≤ e.shared * 128

/-- The admission of R171: kind 0 reservation, 1 the port's guarantee, 2 the shared pool. -/
def State.allows (s : State) (ents : List Nat) : Grant :=
  if ents.any fun k => (s.ent k).max ≠ 0 && (s.ent k).max ≤ (s.ent k).used then .quota
  else match ents with
    | [] => .ok 0
    | e :: rest =>
      let guaranteed := match rest with
        | [] => false
        | p :: _ => (s.ent p).extra < (s.ent p).min
      if (s.ent e).used < (s.ent e).min then .ok 0
      else if guaranteed then .ok 1
      else if ents.any fun k => overShare (s.ent k) s.sharedFree then .quota
      else if s.sharedFree = 0 then .noBuffer
      else .ok 2

/-- One cell charged to one entity, under a kind of R171. -/
def Ent.charge (e : Ent) (kind : Nat) : Ent :=
  { e with
    used := e.used + 1
    extra := if kind = 1 then e.extra + 1 else e.extra
    shared := if kind = 2 then e.shared + 1 else e.shared
    peak := Nat.max e.peak (e.used + 1) }

/-- One cell uncharged: a shared cell first, then one of the port's guarantee, then a reserved one (log 8). -/
def Ent.uncharge (e : Ent) (kind : Nat) : Ent :=
  { e with
    used := e.used - 1
    extra := if kind = 1 then e.extra - 1 else e.extra
    shared := if kind = 2 then e.shared - 1 else e.shared }

/-- Send PFC or PAUSE quanta for an ingress class (R417). -/
def State.sendFc (s : State) (port cls quanta : Nat) : State :=
  let mask := if cls = 8 then 0x100
    else total ((List.range 8).map fun p =>
      if (s.port port).cfg.classMap.toNat / 8 ^ p % 8 = cls then 2 ^ p else 0)
  { s with out := { s.out with fcTx := s.out.fcTx ++ [(port, mask, quanta)] } }

/-- Compare a port-class's use, or the port's for PAUSE, with its thresholds (R417). -/
def State.fcCheck1 (s : State) (port cls used : Nat) : State :=
  let e := s.eport port
  let off := SMap.get 0 e.thrOff cls
  let on := SMap.get 0 e.thrOn cls
  if SMap.get 0 e.xoff cls = 0 then
    if off ≠ 0 ∧ off ≤ used then
      (s.sendFc port cls 0xFFFF).updEport port fun e => { e with xoff := SMap.set 0 e.xoff cls (s.dt + 1) }
    else s
  else if used ≤ on then
    (s.sendFc port cls 0).updEport port fun e => { e with xoff := SMap.set 0 e.xoff cls 0 }
  else s

/-- The comparison in the mode of R86. -/
def State.fcCheck (s : State) (port cls : Nat) : State :=
  match (s.port port).cfg.fc with
  | .none => s
  | .pfc => s.fcCheck1 port cls (s.ent (entPortClass port cls)).used
  | .pause => s.fcCheck1 port 8 (s.ent (entPort port)).used

/-- After a change of the use of these entities (R417). -/
def State.fcAfter (s : State) (ents : List Nat) : State :=
  match ents with
  | [e, p] => if p / 65536 = 1 then s.fcCheck (p % 65536) (e % 8) else s
  | _ => s

def State.charge (s : State) (ents : List Nat) (kind : Nat) : State :=
  let s1 := ents.foldl (fun acc k => acc.updEnt k (Ent.charge · kind)) s
  let s2 := if kind = 2 then { s1 with basin := { s1.basin with sharedUsed := s1.basin.sharedUsed + 1 } } else s1
  s2.fcAfter ents

def State.uncharge (s : State) (ents : List Nat) : State :=
  match ents with
  | [] => s
  | e :: _ =>
    let kind := if (s.ent e).shared ≠ 0 then 2 else if (s.ent e).extra ≠ 0 then 1 else 0
    let s1 := ents.foldl (fun acc k => acc.updEnt k (Ent.uncharge · kind)) s
    let s2 := if kind = 2 then { s1 with basin := { s1.basin with sharedUsed := s1.basin.sharedUsed - 1 } } else s1
    s2.fcAfter ents

/-! ### Cells and banks (R149, R165, R188) -/

def cellsPerBank : Nat := 32768
def grantable : Nat := 30720

/-- Cells of a bank in use, fenced or lost, by their place in the bank, rising. -/
def State.taken (s : State) (bank : Nat) : List Nat :=
  (s.basin.fenced ++ s.basin.lost).foldl (fun acc c => if c / cellsPerBank = bank then insNat acc (c % cellsPerBank) else acc)
    (SMap.get [] s.basin.used bank)

/-- The lowest-numbered free grantable cell of a bank (R165). -/
def State.freeCell (s : State) (bank : Nat) : Option Nat :=
  let k := firstGap (s.taken bank) 0
  if k < grantable then some (bank * cellsPerBank + k) else none

def State.takeCell (s : State) (c : Nat) : State :=
  let b := c / cellsPerBank
  { s with basin := { s.basin with
      used := SMap.set [] s.basin.used b (insNat (SMap.get [] s.basin.used b) (c % cellsPerBank)) } }

def State.dropCell (s : State) (c : Nat) : State :=
  let b := c / cellsPerBank
  { s with basin := { s.basin with
      used := SMap.set [] s.basin.used b ((SMap.get [] s.basin.used b).filter (· ≠ c % cellsPerBank)) } }

/-- Cells in use: all banks. -/
def State.usedCells (s : State) : Nat := total (s.basin.used.map fun e => e.2.length)

/-- The next bank with a free cell after `b`, in ascending order modulo 16 (R166). -/
def State.nextBank (s : State) (b : Nat) : Option Nat :=
  ((List.range 16).map fun k => (b + 1 + k) % 16).find? fun k => (s.freeCell k).isSome

/-- The bank of the next request of a requester with home banks, a well (0-7) or a pump's refill path (8-15): the home bank
of its toggle, the other, or the lowest-numbered one that has a free cell (R166). -/
def State.homeBank (s : State) (who : Nat) : Option Nat :=
  let w := who % 8
  let a := 2 * w + (SMap.get false s.basin.toggle who).toNat
  let b := 2 * w + 1 - (SMap.get false s.basin.toggle who).toNat
  if (s.freeCell a).isSome then some a
  else if (s.freeCell b).isSome then some b
  else (List.range 16).find? fun k => (s.freeCell k).isSome

/-- A bank's requesters in order (R166). -/
def bankOrder (b : Nat) : List Nat :=
  [b / 2, 8 + b / 2] ++ ((List.range 8).filter fun w => w ≠ b / 2) ++ [16, 17]

/-- A request has been sent to a bank: a home bank's flips the requester's toggle (R166). -/
def State.requested (s : State) (who b : Nat) : State :=
  { s with basin := { s.basin with
      toggle := if who < 16 ∧ b / 2 = who % 8 then SMap.set false s.basin.toggle who (!SMap.get false s.basin.toggle who)
        else s.basin.toggle } }

/-- A bank has granted a requester: its pointer moves on, a requester without home banks keeps the bank, and a bank without a
free cell has lost its pending requests (R166, R167). -/
def State.granted (s : State) (who b : Nat) : State :=
  let gone := if (s.freeCell b).isSome then [] else (SMap.get [] s.basin.reqs b).map (·.pkt)
  { s with basin := { s.basin with
      bankPtr := SMap.set 0 s.basin.bankPtr b (((bankOrder b).idxOf who + 1) % 11)
      rrPort := if 16 ≤ who then SMap.set 15 s.basin.rrPort who b else s.basin.rrPort
      lostReqs := gone.foldl insNat s.basin.lostReqs } }

/-- The bank a requester's next cell comes from: a grant asked for outside a frame is made at once, when its bank has a free
cell (log 162). -/
def State.bankFor (s : State) (who : Nat) : Option Nat :=
  if who < 16 then s.homeBank who else s.nextBank (SMap.get 15 s.basin.rrPort who)

/-- A cell shows an uncorrectable error: the second within 24 h retires it (R188). -/
def State.cellFault (s : State) (c : Nat) : State :=
  match s.basin.faults.find? fun e => e.1 = c with
  | some e =>
    if s.dt < e.2 + 86400 * secNs then
      { s with basin := { s.basin with
          faults := s.basin.faults.filter fun x => x.1 ≠ c
          spares := s.basin.spares - 1
          retired := if s.basin.spares ≠ 0 then insNat s.basin.retired c else s.basin.retired
          lost := if s.basin.spares = 0 then insNat s.basin.lost c else s.basin.lost } }
    else { s with basin := { s.basin with faults := s.basin.faults.map fun x => if x.1 = c then (c, s.dt) else x } }
  | none => { s with basin := { s.basin with faults := s.basin.faults ++ [(c, s.dt)] } }

/-! ### Buffers (R153-R164) -/

/-- A buffer at its allocation with one reference and HELD 0: its class and allocator, cells, bytes and charges. -/
def Buf.fresh (cls id : Nat) (cells : List Nat) (data : List Byte) (ents : List Nat) : Buf :=
  { cls := cls, id := id, count := 1, held := false, cells := cells, data := data, poison := [], prov := none, ents := ents }

def State.buf (s : State) (head : Nat) : Option Buf :=
  (s.basin.bufs.find? fun e => e.1 = head).map Prod.snd

def State.setBuf (s : State) (head : Nat) (b : Buf) : State :=
  { s with basin := { s.basin with bufs := SMap.ins (SMap.erase s.basin.bufs head) head b } }

def State.updBuf (s : State) (head : Nat) (f : Buf → Buf) : State :=
  match s.buf head with
  | some b => s.setBuf head (f b)
  | none => s

/-- A cell of a buffer, by its place in the chain. -/
def State.cellAt (s : State) (h k : Nat) : Nat := match s.buf h with
  | some b => b.cells.getD k h
  | none => h

/-- The 12-bit owner tag (R155). -/
def Buf.tag (b : Buf) : Nat := b.cls * 256 + b.id

/-- Free a buffer: its owner entry, its cells and their charges (R156, R169). -/
def State.freeBuf (s : State) (head : Nat) : State :=
  match s.buf head with
  | none => s
  | some b =>
    let s1 := { s with basin := { s.basin with bufs := SMap.erase s.basin.bufs head } }
    b.cells.foldl (fun acc c => (acc.dropCell c).uncharge b.ents) s1

/-- Free the buffer once its count is 0 and HELD is 0 (R156). -/
def State.settle (s : State) (head : Nat) : State :=
  match s.buf head with
  | some b => if b.count = 0 && !b.held then s.freeBuf head else s
  | none => s

/-- A copy of the buffer ends: its reference is released (R156). -/
def State.decRef (s : State) (head : Nat) : State :=
  (s.updBuf head fun b => { b with count := b.count - 1 }).settle head

/-- A bad free: counted, and the rate-limited event (R162, R163). -/
def State.badFree (s : State) (reason reqTag bufTag handle : Nat) : State :=
  let c := SMap.get 0 s.basin.badFree reason
  let n := SMap.get 0 s.basin.badFreeNew reason + 1
  let last := SMap.get 0 s.basin.badFreeDt reason
  let s1 := { s with basin := { s.basin with badFree := SMap.set 0 s.basin.badFree reason (c + 1) } }
  if last = 0 ∨ last - 1 + 1000000 ≤ s.dt then
    ({ s1 with basin := { s1.basin with
        badFreeNew := SMap.set 0 s1.basin.badFreeNew reason 0
        badFreeDt := SMap.set 0 s1.basin.badFreeDt reason (s.dt + 1) } }).event 0x0700
      [(1, reason), (2, reqTag), (2, bufTag), (4, handle), (4, n)]
  else { s1 with basin := { s1.basin with badFreeNew := SMap.set 0 s1.basin.badFreeNew reason n } }

/-- The handle names a cell of the basin: SPACE 0 and a cell in [18:0] (R153, R154). -/
def validBasin (h : Nat) : Bool := h < 524288

/-- Buffers of a sized pool (R150). -/
def poolSize (pool : Nat) : Nat :=
  match pool with
  | 0 => 2048
  | 1 => 1024
  | _ => 512

/-- The handle of a sized-pool buffer, and of a cistern record (R153). -/
def sizedHandle (pool n : Nat) : Nat := 0x80000000 + pool * 0x10000000 + n
def cisternHandle (block n : Nat) : Nat := 0x40000000 + block * 64 + n

/-- Blocks of 4 KiB of a cistern size (R177). -/
def blocksOfGib (g : Nat) : Nat := g * 262144

/-- The handle is invalid under R154: a reserved space or pool, a nonzero reserved bit, or a cell, block or buffer outside its
store. -/
def State.invalidHandle (s : State) (h : Nat) : Bool :=
  match h / 0x40000000 with
  | 0 => 524288 ≤ h
  | 1 => blocksOfGib s.cistern.sizeGib ≤ h / 64 % 0x1000000
  | 2 => h / 0x10000000 % 4 = 3 || poolSize (h / 0x10000000 % 4) ≤ h % 0x10000000
  | _ => true

/-- The records of a queue that lie in the cistern, oldest first. -/
def Queue.records (q : Queue) : List (SpillRec Copy) :=
  q.refilling.flatten ++ q.spill ++ q.writing.flatMap (·.recs)

/-- The owner tag of what a handle outside the basin names, none when it names nothing in use: a cistern record has class
SPILL with its pump's id (R155, R180). -/
def State.farTag (s : State) (h : Nat) : Option Nat :=
  if h / 0x40000000 = 1 then
    (s.egress.queues.find? fun q => q.2.records.any fun r => r.copy.handle = h).map fun q => 0x600 + s.pumpOf q.1
  else ((SMap.get [] s.basin.pools (h / 0x10000000 % 4)).find? fun e => e.1 = h % 0x10000000).map fun e =>
    e.2.cls * 256 + e.2.id

/-- Some buffer's chain holds the cell. -/
def State.chained (s : State) (c : Nat) : Bool := s.basin.bufs.any fun e => e.2.cells.contains c

/-- A free request for the allocation reference of a CLUSTER buffer: JFREE (R160, R162, R164). Requester tag 0. -/
def State.releaseHeld (s : State) (h reqTag : Nat) : State :=
  if s.invalidHandle h then s.badFree 3 reqTag 0 h
  else if 0x40000000 ≤ h then match s.farTag h with
    | some tag => s.badFree 1 reqTag tag h
    | none => s.badFree 0 reqTag 0 h
  else match s.buf h with
    | none => if s.chained h then s.badFree 2 reqTag 0 h else s.badFree 0 reqTag 0 h
    | some b =>
      if b.cls ≠ 3 then s.badFree 1 reqTag b.tag h
      else if !b.held then s.badFree 0 reqTag b.tag h
      else (s.updBuf h fun b => { b with held := false }).settle h

/-- Write bytes of a buffer at an offset, within its cells. -/
def Buf.write (b : Buf) (o : Nat) (d : List Byte) : Buf := { b with data := splice b.data o d }

/-- Read `n` bytes of a buffer; bytes beyond what was written read 0. -/
def Buf.read (b : Buf) (o n : Nat) : List Byte := slice b.data o n

/-- The entity at which a request fails QUOTA: the first at its cap, else the first over its share (R171). -/
def State.quotaEnt (s : State) (ents : List Nat) : Option Nat :=
  match ents.find? fun k => (s.ent k).max ≠ 0 && (s.ent k).max ≤ (s.ent k).used with
  | some k => some k
  | none => ents.find? fun k => overShare (s.ent k) s.sharedFree

/-- Count a failed allocation (R193): QUOTA at the entity that failed it, NO_BUFFER at every entity of the request
(log 146). -/
def State.failCount (s : State) (ents : List Nat) (g : Grant) : State :=
  match g with
  | .quota =>
    match s.quotaEnt ents with
    | some e => s.updEnt e fun x => { x with quotaFails := x.quotaFails + 1 }
    | none => s
  | .noBuffer => ents.foldl (fun acc e => acc.updEnt e fun x => { x with noBufFails := x.noBufFails + 1 }) s
  | .ok _ => s

/-- Allocate `n` cells one after another, each from the requester's next bank (R166, R171): the cells, or why not. Cells of a
failed chain are given back. -/
def State.allocCells (s : State) (who : Nat) (ents : List Nat) (n : Nat) (got : List Nat) :
    State × Option (List Nat) × Grant :=
  match n with
  | 0 => (s, some got.reverse, .ok 0)
  | n + 1 =>
    let undo (s0 : State) := got.foldl (fun acc c => (acc.dropCell c).uncharge ents) s0
    match s.allows ents with
    | .ok kind =>
      match s.bankFor who with
      | none => (undo (s.failCount ents .noBuffer), none, .noBuffer)
      | some b =>
        match s.freeCell b with
        | none => (undo (s.failCount ents .noBuffer), none, .noBuffer)
        | some c =>
          ((((s.requested who b).takeCell c).charge ents kind).granted who b).allocCells who ents n (c :: got)
    | g => (undo (s.failCount ents g), none, g)

end Sys2Proof.Machine
end

