-- ==== Sys2Proof/Machine/Operands.lean ====
section
/-!
DEFINITION. Operand forms of the Usoth instructions: registers, immediates, load values, and how a waiting
instruction completes (R288-R301).
-/

namespace Sys2Proof.Machine

/-! ### Registers (R288) -/

/-- Read a general register: g0 reads 0. -/
def Thr.get (x : Thr) (r : Reg) : W64 := if r = 0 then 0 else SMap.get 0 x.regs r.toNat

/-- Write a general register: a write to g0 is discarded. -/
def Thr.set (x : Thr) (r : Reg) (v : W64) : Thr :=
  if r = 0 then x else { x with regs := SMap.set 0 x.regs r.toNat v }

def State.reg (s : State) (t : Nat) (r : Reg) : W64 := (s.thr t).get r
def State.setReg (s : State) (t : Nat) (r : Reg) (v : W64) : State := s.updThr t fun x => x.set r v

/-! ### Immediates (R290, R295) -/

def sext (imm : BitVec 16) : W64 := imm.signExtend 64
def zext (imm : BitVec 16) : W64 := imm.setWidth 64

/-- 1 for true. -/
def bit (b : Bool) : W64 := if b then 1 else 0

/-- The low `n` bits all ones. -/
def maskLow (n : Nat) : W64 := BitVec.ofNat 64 (2 ^ n - 1)

/-! ### Load and store values (R299) -/

def LdKind.size : LdKind → Nat
  | .b | .bu => 1
  | .h | .hu | .hn => 2
  | .w | .wu | .wn => 4
  | .d | .dn => 8

/-- The register value a load makes of the bytes at its address. -/
def LdKind.value (k : LdKind) (bs : List Byte) : W64 :=
  match k with
  | .b => (BitVec.ofNat 8 (leVal bs)).signExtend 64
  | .bu | .hu | .wu | .d => BitVec.ofNat 64 (leVal bs)
  | .h => (BitVec.ofNat 16 (leVal bs)).signExtend 64
  | .w => (BitVec.ofNat 32 (leVal bs)).signExtend 64
  | .hn | .wn | .dn => BitVec.ofNat 64 (beVal bs)

/-- The store kinds of R299: size and byte order. -/
structure StKind where
  size : Nat
  net : Bool

/-- The bytes a store writes from its address upward. -/
def StKind.bytes (k : StKind) (v : W64) : List Byte :=
  if k.net then beBytes k.size v.toNat else leBytes k.size v.toNat

/-- A doubleword with its bytes reversed. -/
def rev64 (v : W64) : W64 := BitVec.ofNat 64 (beVal (leBytes 8 v.toNat))

/-! ### Completion -/

/-- The instruction at PC completes: PC moves to the next one. -/
def State.advance (s : State) (t : Nat) : State := s.updThr t fun x => { x with pc := x.pc + 4 }

/-- The instruction a thread waits in completes with a value for its register; while the thread is halted the value
is held for the resume (R563). -/
def State.complete (s : State) (t : Nat) (gd : Reg) (v : W64) : State :=
  if (s.tr t).halted.isSome then s.updTr t fun x => { x with wait := .held gd v }
  else ((s.setReg t gd v).advance t).updTr t fun x => { x with
    wait := .none, stepLeft := x.stepLeft.map (· - 1) }

end Sys2Proof.Machine
end

