-- ==== Sys2Proof/Machine/Locks.lean ====
section
/-!
DEFINITION. The lock unit (R345-R354): rights, acquire, try, release, clear, abandon, and the status word.
-/

namespace Sys2Proof.Machine

def reqCode : Requester → Nat
  | .thread t => t
  | .pumphouse => 0x800
  | .host .hostA => 0x801
  | .host .hostB => 0x802

/-- The bit of a requester in a group's access mask (R345). -/
def reqBit : Requester → Nat
  | .thread t => clusterOf t
  | .pumphouse => 12
  | .host .hostA => 13
  | .host .hostB => 14

def State.lockGrp (s : State) (g : Nat) : LockGrp := SMap.get {} s.locks.groups g
def State.setLockGrp (s : State) (g : Nat) (x : LockGrp) : State :=
  { s with locks := { s.locks with groups := SMap.set {} s.locks.groups g x } }

/-- A group's mask; LG63's is fixed (R345). -/
def State.lockMask (s : State) (g : Nat) : BitVec 15 := if g = 63 then 0x0FFF else (s.lockGrp g).mask
def State.lockTimeout (s : State) (g : Nat) : Nat := if g = 63 then 65536 else (s.lockGrp g).timeout

/-- The right to a lock (R341, R345). -/
def State.lockRight (s : State) (r : Requester) (k : Nat) : Bool :=
  (s.lockMask (k / 64)).getLsbD (reqBit r) && (k < 4072 || (reqBit r) = (k - 4072) / 2)

/-- The lock result word (R348). -/
def lockWord (granted abandoned timeout noRight busy : Bool) (pos : Nat) (gen : W32) : W64 :=
  bit granted ||| (bit abandoned <<< 1) ||| (bit timeout <<< 2) ||| (bit noRight <<< 3) ||| (bit busy <<< 4)
    ||| (BitVec.ofNat 64 (Nat.min pos 255) <<< 8) ||| (gen.setWidth 64 <<< 32)

/-- Waiter-pool entries in use (R349). -/
def State.lockWaiters (s : State) : Nat := total (s.locks.locks.map fun e => e.2.waiters.length)

/-- The clock of a requester's lock timeout: core cycles for a thread, and for the Pumphouse its 1.5 GHz cycles (R346). -/
def State.lockClock (s : State) (r : Requester) : Nat :=
  match r with
  | .thread _ => s.time.cycles
  | _ => s.time.localNs * 3 / 2

/-- Keep the answer given to the Pumphouse or a host. -/
def State.lockAnswer (s : State) (r : Requester) (v : W64) : State :=
  { s with locks := { s.locks with answers := SMap.set 0 s.locks.answers (reqCode r) v } }

/-- A waiting requester gets its answer: a load's register, or the value of a string instruction's granule (R305). -/
def State.answerWaiter (s : State) (w : LkWaiter) (v : W64) : State :=
  match w.who with
  | .thread t =>
    let x := if w.net then rev64 v else v
    match (s.tr t).wait with
    | .granLock _ => s.updTr t fun y => { y with wait := .none, gran := y.gran ++ [x] }
    | _ => s.complete t w.gd x
  | r => s.lockAnswer r v

/-- Grant a lock to a requester: GEN rises by 1 (R348). -/
def State.lockGrant (s : State) (k : Nat) (r : Requester) : State :=
  s.setLock k { s.lock k with holder := some r, gen := (s.lock k).gen + 1 }

/-- The lock has become free: the first waiter gets it (R349). -/
def State.lockPass (s : State) (k : Nat) : State :=
  let l := s.lock k
  match l.waiters with
  | [] => s.setLock k { l with holder := none }
  | w :: rest =>
    let s1 := s.setLock k { l with holder := some w.who, gen := l.gen + 1, waiters := rest }
    s1.answerWaiter w (lockWord true l.abandoned false false false w.ahead (l.gen + 1))

/-- The holder goes away: the mark is set and the lock passes on (R354). -/
def State.lockAbandon (s : State) (k : Nat) : State :=
  (s.setLock k { s.lock k with abandoned := true }).lockPass k

/-- The locks a requester holds, lowest first. -/
def State.locksOf (s : State) (r : Requester) : List Nat :=
  (s.locks.locks.filter fun e => e.2.holder = some r).map Prod.fst

/-- Abandon every lock a requester holds (R354). -/
def State.abandonAll (s : State) (r : Requester) : State := (s.locksOf r).foldl State.lockAbandon s

/-- A requester leaves every queue without a grant (R285, R349). -/
def State.lockLeave (s : State) (r : Requester) : State :=
  { s with locks := { s.locks with locks := s.locks.locks.map fun e =>
      (e.1, { e.2 with waiters := e.2.waiters.filter fun w => w.who ≠ r }) } }

/-- What an acquire or try does at once: the answer, or none when the requester must wait (R349, R350). -/
def State.lockAcquireNow (s : State) (r : Requester) (k : Nat) (tryOnly : Bool) : State × Option W64 :=
  let l := s.lock k
  if !s.lockRight r k then (s, some (lockWord false false false true false 0 0))
  else if l.holder = some r then (s, some (lockWord true l.abandoned false false false 0 l.gen))
  else if l.holder = none then
    (s.lockGrant k r, some (lockWord true l.abandoned false false false 0 (l.gen + 1)))
  else if tryOnly then (s, some (lockWord false l.abandoned false false false l.waiters.length l.gen))
  else if 2048 ≤ s.lockWaiters then
    (s, some (lockWord false l.abandoned false false true l.waiters.length l.gen))
  else (s, none)

/-- Join a lock's queue with the timeout now in force (R346, R349). -/
def State.lockJoin (s : State) (w : Requester) (gd : Reg) (net : Bool) (k : Nat) : State :=
  let l := s.lock k
  s.setLock k { l with waiters := l.waiters ++
    [⟨w, gd, net, s.lockClock w, s.lockTimeout (k / 64), l.waiters.length⟩] }

/-- Count a bad access in its group and raise LOCK_FAULT, at most once per reason in each 1 ms of DT (R351). Reason
0 BAD_RELEASE, 1 BAD_CLEAR, 2 NO_RIGHT. -/
def State.lockFault (s : State) (reason k : Nat) (r : Requester) : State :=
  let g := s.lockGrp (k / 64)
  let n := SMap.get 0 s.locks.since reason + 1
  let last := SMap.get 0 s.locks.lastDt reason
  let s1 := s.setLockGrp (k / 64) { g with counts := SMap.set 0 g.counts reason (SMap.get 0 g.counts reason + 1) }
  if last = 0 ∨ last - 1 + 1000000 ≤ s.dt then
    { s1 with locks := { s1.locks with
      lastDt := SMap.set 0 s1.locks.lastDt reason (s.dt + 1), since := SMap.set 0 s1.locks.since reason 0 } }.event 0x0405
        [(1, reason), (2, k), (2, (reqCode r)), (4, n)]
  else { s1 with locks := { s1.locks with since := SMap.set 0 s1.locks.since reason n } }

/-- A store to LOCK_RELEASE (R351). -/
def State.lockRelease (s : State) (r : Requester) (k : Nat) : State :=
  if !s.lockRight r k && (s.lock k).holder ≠ some r then s.lockFault 2 k r
  else if (s.lock k).holder ≠ some r then s.lockFault 0 k r
  else s.lockPass k

/-- A store to LOCK_CLEAR (R351, R354). -/
def State.lockClear (s : State) (r : Requester) (k : Nat) : State :=
  if !s.lockRight r k then s.lockFault 2 k r
  else if (s.lock k).holder ≠ some r then s.lockFault 1 k r
  else s.setLock k { s.lock k with abandoned := false }

/-- LOCK_STATUS (R353). -/
def State.lockStatus (s : State) (k : Nat) : W64 :=
  let l := s.lock k
  bit l.holder.isSome ||| (bit l.abandoned <<< 1)
    ||| (BitVec.ofNat 64 (match l.holder with | some r => reqCode r | none => 0xFFF) <<< 2)
    ||| (BitVec.ofNat 64 l.waiters.length <<< 14) ||| (l.gen.setWidth 64 <<< 32)

/-- LOCKS_HELD of a thread (R359). -/
def State.locksHeld (s : State) (t : Nat) : Nat := (s.locksOf (.thread t)).length

end Sys2Proof.Machine
end

