-- ==== Sys2Proof/Machine/Runs.lean ====
section
/-!
DEFINITION. Runs: how a slot becomes a run, how a run ends or is discarded, replays, cascades, refusals, the pending
store's room, and taking a trap (R26, R196, R209, R230-R235, R246, R259, R277-R282, R357).
-/

namespace Sys2Proof.Machine

/-- A reset of the thread, its core or its cluster runs (R286). -/
def State.inReset (s : State) (t : Nat) : Bool := s.faults.resets.any fun r =>
  (r.kind = 0 && r.index = t) || (r.kind = 1 && r.index = coreOf t) || (r.kind = 2 && r.index = clusterOf t)

/-! ### Sequence numbers (R200) -/

/-- `a` is earlier than `b`. -/
def seqBefore (a b : W32) : Bool := 1 ≤ (b - a).toNat && (b - a).toNat ≤ 2147483647

/-- COMMIT_SEQ moves past the void numbers that follow it (R211). -/
def skipVoids (d : Dom) (fuel : Nat) : Dom :=
  match fuel with
  | 0 => d
  | n + 1 =>
    if d.voids.contains d.commitSeq then
      skipVoids { d with commitSeq := d.commitSeq + 1, voids := d.voids.filter (· ≠ d.commitSeq) } n
    else d

/-- The packet at COMMIT_SEQ is done: COMMIT_SEQ advances (R211, R244). -/
def Dom.advance (d : Dom) (dt : Nat) : Dom :=
  let d1 := skipVoids { d with commitSeq := d.commitSeq + 1 } d.voids.length
  { d1 with live := d1.live - 1, since := dt, stalled := false }

/-- A sequence number becomes void: it counts as committed with no effect (R26). -/
def Dom.void (d : Dom) (seq : W32) (dt : Nat) : Dom :=
  if d.commitSeq = seq then d.advance dt else { d with voids := seq :: d.voids, live := d.live - 1 }

/-- The packet is the oldest uncommitted one of its domain (R25). -/
def State.oldest (s : State) (p : Nat) : Bool := (s.pkt p).hasSeq && (s.dom (s.pkt p).domain).commitSeq = (s.pkt p).seq

/-- The packets of a domain that are uncommitted. -/
def State.domPkts (s : State) (d : Nat) : List Nat :=
  (s.order.pkts.filter fun e => e.2.hasSeq && e.2.domain = d && e.2.st ≠ .finished).map Prod.fst

/-! ### Version fences (R236, R239) -/

def Fence.covers (f : Fence) (d : Nat) : Bool := f.first ≤ d && d < f.first + f.count

/-- The switch point of a fenced domain. -/
def State.switchOf (s : State) (f : Fence) (d : Nat) : Option W32 :=
  match (s.dom d).switch with
  | some x => some x
  | none => if f.rest then some 0 else none

/-- Disarm the fence: every switch point goes. -/
def State.disarm (s : State) : State :=
  s.updOrder fun o => { o with fence := none, doms := o.doms.map fun e => (e.1, { e.2 with switch := none }) }

/-- The fence completes when every fenced domain has its switch point and has committed up to it (R239). -/
def State.fenceCheck (s : State) : State :=
  match s.order.fence with
  | none => s
  | some f =>
    let all := (List.range f.count).all fun k =>
      match s.switchOf f (f.first + k) with
      | some x => !seqBefore (s.dom (f.first + k)).commitSeq x
      | none => false
    if all then s.disarm.event 0x0401 [(1, 0), (2, f.version), (4, f.breaks)] else s

/-! ### Trace (R571) -/

/-- A record enters a cluster's trace buffer: a full one drops it, or its oldest record. -/
def State.tracePut (s : State) (c : Nat) (r : TraceRec) : State :=
  let tr := (s.cl c).trace
  if tr.recs.length < 4096 then s.updCl c fun x => { x with trace := { tr with recs := tr.recs ++ [r] } }
  else if tr.filter.getLsbD 24 then s.updCl c fun x => { x with trace := { tr with drops := tr.drops + 1 } }
  else s.updCl c fun x => { x with trace := { tr with recs := tr.recs.drop 1 ++ [r], wrapped := true } }

/-- Write a trace record of a thread, when its cluster's mode and filter take it. -/
def State.traceRec (s : State) (t kind detail : Nat) (addr : W64) : State :=
  let c := clusterOf t
  let tr := (s.cl c).trace
  let wanted := if kind = 0 then tr.mode % 2 = 1 else 2 ≤ tr.mode
  if wanted && tr.filter.getLsbD (coreOf t % 16) && tr.filter.getLsbD (16 + t % 8) then
    s.tracePut c ⟨t, kind, detail, BitVec.ofNat 32 s.dt, addr⟩
  else s

/-- DOMAIN in [15:0] and SEQ in [47:16] (R571). -/
def State.runId (s : State) (p : Nat) : W64 :=
  BitVec.ofNat 64 ((s.pkt p).domain + 65536 * (s.pkt p).seq.toNat)

/-! ### The dispatch list (R197) -/

/-- `p` goes before `q`: replays first; then in order of parser completion, which within a domain is the order of the
sequence numbers. -/
def State.listBefore (s : State) (p q : Nat) : Bool :=
  if (s.rc p).isReplay != (s.rc q).isReplay then (s.rc p).isReplay else decide ((s.pkt p).parseNo < (s.pkt q).parseNo)

def State.listIns (s : State) (l : List Nat) (p : Nat) : List Nat :=
  match l with
  | [] => [p]
  | q :: rest => if s.listBefore p q then p :: q :: rest else q :: State.listIns s rest p

/-- Place a packet on the dispatch list. -/
def State.listPut (s : State) (p : Nat) : State :=
  let s1 := (s.updPkt p fun x => { x with st := .listed }).updRc p fun r => { r with listDt := s.dt }
  s1.updOrder fun o => { o with list := s1.listIns (o.list.filter (· ≠ p)) p }

def State.listDrop (s : State) (p : Nat) : State := s.updOrder fun o => { o with list := o.list.filter (· ≠ p) }

/-! ### Weir debits (R227, R228, R392) -/

def State.weir (s : State) (w : Nat) : Weir := SMap.get {} s.tables.weirs w
def State.setWeir (s : State) (w : Nat) (x : Weir) : State :=
  { s with tables := { s.tables with weirs := SMap.set {} s.tables.weirs w x } }
def State.updWeirCnt (s : State) (f : WeirCnt → WeirCnt) : State :=
  { s with tables := { s.tables with weirCnt := f s.tables.weirCnt } }

/-- Refund one debit, each amount capped at its bucket size. -/
def State.refund1 (s : State) (d : Debit) : State :=
  let w := s.weir d.weir
  let c := w.tc + d.c
  let p := w.tp + d.p
  let lost := (c - w.cbs * 512) + (p - w.pbs * 512)
  (s.setWeir d.weir { w with tc := Nat.min c (w.cbs * 512), tp := Nat.min p (w.pbs * 512) }).updWeirCnt
    fun k => { k with refunded := k.refunded + 1, cappedBytes := k.cappedBytes + BitVec.ofNat 64 (lost / 512) }

/-- Refund every debit of a packet. -/
def State.refund (s : State) (p : Nat) : State :=
  let ds := s.tables.debits.filter fun d => d.pkt = p
  ds.foldl State.refund1 { s with tables := { s.tables with debits := s.tables.debits.filter fun d => d.pkt ≠ p } }

/-- At commit every debit of the packet is finalized (R228). -/
def State.finalize (s : State) (p : Nat) : State :=
  let n := (s.tables.debits.filter fun d => d.pkt = p).length
  ({ s with tables := { s.tables with debits := s.tables.debits.filter fun d => d.pkt ≠ p } }).updWeirCnt
    fun k => { k with finalized := k.finalized + BitVec.ofNat 64 n }

/-! ### Channels of a thread that ends (R357) -/

def State.chan (s : State) (c n : Nat) : Chan := SMap.get {} (s.cl c).chans n
def State.setChan (s : State) (c n : Nat) (x : Chan) : State :=
  s.updCl c fun k => { k with chans := SMap.set {} k.chans n x }
def State.updTask (s : State) (c : Nat) (f : TaskSt → TaskSt) : State := s.updCl c fun k => { k with task := f k.task }

/-- The thread's staged message is discarded, and the rest of a message bound to it. -/
def State.chanEnd (s : State) (t : Nat) : State :=
  let c := clusterOf t
  let staged := ((s.cl c).chans.filter fun e => e.2.stagers.contains t).length
  let part := total ((s.cl c).chans.map fun e => (e.2.msgs.filter fun m => m.bound = some t).length)
  let s1 := s.updCl c fun k => { k with chans := k.chans.map fun e =>
    (e.1, { e.2 with
      stagers := e.2.stagers.filter (· ≠ t)
      producers := e.2.producers.filter (· ≠ t)
      consumers := e.2.consumers.filter (· ≠ t)
      msgs := e.2.msgs.filter fun m => m.bound ≠ some t }) }
  let s2 := s1.updTask c fun k => { k with
    chStagedLost := k.chStagedLost + BitVec.ofNat 64 staged
    chPartialLost := k.chPartialLost + BitVec.ofNat 64 part }
  s2.updTr t fun x => { x with staged := none }

/-! ### The end of a thread's activity -/

/-- The thread leaves whatever it waits in, and what it holds for its run goes (R252, R349, R357). -/
def State.quiet (s : State) (t : Nat) : State :=
  let s1 := (s.lockLeave (.thread t)).chanEnd t
  let s2 := s1.updCore (coreOf t) fun c => { c with streams := c.streams.filter fun x => x.t ≠ t }
  s2.updTr t fun x => { x with
    wait := .none, lkps := [], late := none, stalled := false, str := none, gran := [], staged := none
    missLine := 0, missStride := 0, missRun := 0, stepLeft := none }

/-- A child stops and returns to the pool; its locks are abandoned (R259, R354). -/
def State.stopChild (s : State) (t : Nat) : State :=
  ((s.quiet t).abandonAll (.thread t)).updTr t fun x => { x with
    parent := none, halted := none, run := {}, children := [] }

/-- Every child of a thread's run is stopped (R259). -/
def State.stopChildren (s : State) (t : Nat) : State :=
  let kids := (s.tr t).children.filter fun c => c.ended.isNone
  (kids.foldl (fun acc c => acc.stopChild c.t) s).updTr t fun x => { x with children := [] }

/-- A run's end finds locks held: counted once as LOCK_AT_END (R354). -/
def State.lockAtEnd (s : State) (t : Nat) : State :=
  if s.locksHeld t = 0 then s else s.updTask (clusterOf t) fun k => { k with lockAtEnd := k.lockAtEnd + 1 }

/-! ### Slots (R196, R246) -/

/-- CURRENT becomes this packet's run, in the state of R246. -/
def State.startRun (s : State) (t p : Nat) : State :=
  let c := clusterOf t
  let k := s.core (coreOf t)
  let entry := match s.image c with
    | some i => i.entry.getD (s.pkt p).cls 0
    | none => 0
  let s1 := s.updThr t fun x => { x with
    regs := [], lk := 0, pc := entry, handler := false, prio := k.defaultPrio
    bufsel := BitVec.ofNat 32 ((s.pkt p).head.getD 0), pfctl := true, evext := 0 }
  let s2 := s1.updTr t fun x => { x with
    cur := some p, next := if x.next = some p then none else x.next, wait := .none, run := {}, children := []
    lkps := [], late := none, stalled := false, str := none, gran := [], staged := none, wdBudget := (s.cl c).watchdog
    wdCount := 0, wdGrace := false
    missLine := 0, missStride := 0, missRun := 0, starve := 0 }
  let s3 := (s2.updPkt p fun x => { x with st := .run t }).updRc p fun r => { r with firstDone := true, lateRun := false }
  let s4 := s3.ungate (coreOf t)
  s4.traceRec t 2 0 (s4.runId p)

/-- A thread of the cluster has just been busy: the deadlock detector's conditions begin anew, and it may act again (R365). -/
def State.wasBusy (s : State) (c : Nat) : State := s.updTask c fun k => { k with ready := true, holdSince := none }

/-- The thread has no run any more: its locks are abandoned, and NEXT becomes CURRENT or the thread parks; a halted
thread takes nothing (R196, R354, R564). -/
def State.nextSlot (s : State) (t : Nat) : State :=
  let s1 := (s.abandonAll (.thread t)).updTr t fun x => { x with cur := none, run := {}, wait := .none }
  if (s1.tr t).halted.isSome then s1
  else match (s1.tr t).next with
    | some p => s1.startRun t p
    | none => s1.wasBusy (clusterOf t)

/-- A NEXT slot is emptied: its packet returns to the dispatch list uncounted (R558, R559, R563). -/
def State.returnNext (s : State) (t : Nat) : State :=
  match (s.tr t).next with
  | some p => (s.updTr t fun x => { x with next := none }).listPut p
  | none => s

/-! ### The pending store's room (R209) -/

def pendSlots (l : List PendJ) : Nat := total (l.map fun j => j.run.used)

/-- Room for a journal of `n` slots: some false unreserved, some true in the reserve, none for no room. -/
def State.storeRoom (s : State) (p n : Nat) : Option Bool :=
  let un := s.order.pend.filter fun j => !j.reserved
  let re := s.order.pend.filter fun j => j.reserved
  if un.length + 1 ≤ 3584 ∧ pendSlots un + n ≤ 196608 then some false
  else if s.oldest p ∧ re.length + 1 ≤ 512 ∧ pendSlots re + n ≤ 65536 then some true
  else none

/-- Put a journal into the pending store, or make it wait for room (R209). -/
def State.storePut (s : State) (p : Nat) (t : Option Nat) (run : RunSt) (reason : Nat) (forced : Option Nat) : State :=
  match s.storeRoom p run.used with
  | some r =>
    (s.updPkt p fun x => { x with st := .pending }).updOrder fun o => { o with
      pend := o.pend ++ [⟨p, run, reason, r, forced⟩] }
  | none =>
    (s.updPkt p fun x => { x with st := .waitStore (t.getD 1536) }).updOrder fun o => { o with
      storeWait := o.storeWait ++ [⟨p, t, run, reason, forced⟩] }

/-- The packet's journal is a replacement of R232 or R570: it is dispatched no more. -/
def State.isForced (s : State) (p : Nat) : Bool :=
  (s.order.pend.any fun j => j.pkt = p && j.forced.isSome) || (s.order.storeWait.any fun w => w.pkt = p && w.forced.isSome)

/-! ### Discarding a run (R230-R234) -/

/-- The run state of a packet, wherever it is. -/
def State.runOf (s : State) (p : Nat) : Option RunSt :=
  match (s.pkt p).st with
  | .run t => some (s.tr t).run
  | .waitStore _ => (s.order.storeWait.find? fun w => w.pkt = p).map (·.run)
  | .pending => (s.order.pend.find? fun j => j.pkt = p).map (·.run)
  | _ => none

/-- Uncommitted packets that have read a forwarded quarter of `p`'s versions (R234). A refused packet is uncommitted no
more: it runs on (R26). -/
def State.readersOf (s : State) (p : Nat) : List Nat :=
  (s.order.pkts.map Prod.fst).filter fun q =>
    q ≠ p && (s.pkt q).refusal.isNone && (match s.runOf q with
      | some r => r.reads.any fun e => e.2 = p
      | none => false)

/-- The packets a withdrawal reaches, through packets that are themselves cascaded. -/
def State.cascadeSet (s : State) (todo seen : List Nat) (fuel : Nat) : List Nat :=
  match fuel, todo with
  | 0, _ => seen
  | _, [] => seen
  | n + 1, p :: rest =>
    let new := (s.readersOf p).filter fun q => !seen.contains q && !rest.contains q
    s.cascadeSet (rest ++ new) (seen ++ new) n

/-- Withdraw a packet's provisional versions. -/
def State.dropVers (s : State) (p : Nat) : State :=
  { s with tables := { s.tables with vers := s.tables.vers.filter fun v => v.pkt ≠ p } }

/-- Free the buffers that a packet's run still holds provisionally (R160). -/
def State.freeProv (s : State) (p : Nat) (run : RunSt) : State :=
  run.bufs.foldl (fun acc h => if (acc.buf h).any fun b => b.prov = some p then acc.freeBuf h else acc) s

/-- Take a packet's run or journal away: journal, debits, versions, buffers, sections; its thread goes on with its
next slot (R231 steps 1 to 5). A packet without a run leaves the dispatch list or its NEXT slot. -/
def State.clearRun (s : State) (p : Nat) : State :=
  match s.runOf p with
  | none => match (s.pkt p).st with
    | .listed => s.listDrop p
    | .next t => s.updTr t fun x => { x with next := none }
    | _ => s
  | some run =>
    let s1 := ((s.refund p).dropVers p).freeProv p run
    match (s.pkt p).st with
    | .run t => (((s1.lockAtEnd t).stopChildren t).quiet t).nextSlot t
    | .waitStore t =>
      let s2 := s1.updOrder fun o => { o with storeWait := o.storeWait.filter fun w => w.pkt ≠ p }
      if t < 1536 then (((s2.lockAtEnd t).stopChildren t).quiet t).nextSlot t else s2
    | _ => s1.updOrder fun o => { o with pend := o.pend.filter fun j => j.pkt ≠ p }

/-- The marks an uncounted replay leaves (R230). -/
inductive Mark where
  | none | cascade | poison | fenced | debug
deriving DecidableEq, Repr

def RunRec.mark (r : RunRec) (m : Mark) : RunRec :=
  match m with
  | .none => r
  | .cascade => { r with cascade := true }
  | .poison => { r with poison := true }
  | .fenced => { r with fenced := true }
  | .debug => { r with debug := true }

/-- A refused packet whose run is discarded, or ends, leaves nothing (R26). -/
def State.endRefused (s : State) (p : Nat) : State := s.updPkt p fun x => { x with st := .finished }

/-- Discard one packet's run without its cascade and re-dispatch it, uncounted. A packet marked for discard is given
its disposition at its turn instead (R570). -/
def State.redo1 (s : State) (p : Nat) (m : Mark) : State :=
  let s1 := s.clearRun p
  if (s.pkt p).refusal.isSome then s1.endRefused p
  else
    ((s1.updRc p fun r => { r.mark m with isReplay := true, lateRun := false, noCore := none }).updCnt fun c => { c with
      replaysUncounted := c.replaysUncounted + 1 }).listPut p

/-- Cascade from the withdrawal of packets' versions (R234). -/
def State.cascade (s : State) (from' : List Nat) : State :=
  let hit := s.cascadeSet from' [] (s.order.pkts.length * s.order.pkts.length + 1)
  hit.foldl (fun acc q => (acc.redo1 q .cascade).updCnt fun c => { c with cascades := c.cascades + 1 }) s

/-- Discard a packet's run uncounted (R230, R231). -/
def State.redo (s : State) (p : Nat) (m : Mark) : State :=
  let s1 := s.cascade [p]
  s1.redo1 p m

/-- The journal that replaces a failed packet's own: one delivery to the exception host and ring (R232). -/
def State.excJournal (s : State) (p cause : Nat) : RunSt :=
  { journal := [.deliver 0 ((s.pkt p).head.getD 0) (s.order.cfg.excHost = 2) (s.order.cfg.excHost = 0)
      s.order.cfg.excRing cause 0], used := 1, copies := 1 }

/-- The packet ends as REPLAY_LIMIT or JOURNAL_OVERFLOW (R31, R232). -/
def State.endForced (s : State) (p cause disp : Nat) : State :=
  let s1 := (s.cascade [p]).clearRun p
  if (s.pkt p).refusal.isSome then s1.endRefused p
  else
    ((s1.updRc p fun r => { r with lateRun := false }).updCnt fun c => if disp = 7 then { c with replayLimit := c.replayLimit + 1 }
      else { c with journalOverflow := c.journalOverflow + 1 }).storePut p none (s.excJournal p cause) 0 (some disp)

/-- The core that a packet's run is on. -/
def State.coreOfRun (s : State) (p : Nat) : Option Nat :=
  match (s.pkt p).st with
  | .run t => some (coreOf t)
  | .waitStore t => if t < 1536 then some (coreOf t) else none
  | _ => none

/-- A counted failure of a packet's run on a core (R198, R230, R232). -/
def State.failAt (s : State) (p lastTrap : Nat) (core : Option Nat) : State :=
  if (s.rc p).replay = 3 then s.endForced p lastTrap 7
  else
    let s1 := (s.cascade [p]).clearRun p
    if (s.pkt p).refusal.isSome then s1.endRefused p
    else
      ((s1.updRc p fun r => { r with
        replay := r.replay + 1, lastTrap := lastTrap, isReplay := true, noCore := core, lateRun := false }).updCnt
          fun c => { c with replaysCounted := c.replaysCounted + 1 }).listPut p

/-- A counted failure of a packet's run. -/
def State.fail (s : State) (p lastTrap : Nat) : State := s.failAt p lastTrap (s.coreOfRun p)

/-! ### Refusals (R26, R29) -/

/-- Count a refusal against a port, under its code. -/
def State.countRefusal (s : State) (port code : Nat) : State :=
  s.updPort port fun x => { x with intake := { x.intake with
    refused := SMap.set 0 x.intake.refused code (SMap.get 0 x.intake.refused code + 1) } }

/-- A frame is refused: counted once; after its parse its effects go and its sequence number is void; before its first
dispatch it never runs, and a RETIRE that waits for room ends with its journal discarded (R26, R158). -/
def State.refuse (s : State) (p code : Nat) : State :=
  let k := s.pkt p
  if k.refusal.isSome ∨ k.accepted then s
  else
    let s0 := (s.countRefusal k.inPort code).updPkt p fun x => { x with refusal := some code }
    let s1 := if k.stomped then s0 else
      match k.head with
      | some h => s0.freeBuf h
      | none => s0
    if !k.hasSeq then s1
    else
      let s2 := ((s1.refund p).cascade [p]).dropVers p
      let s3 := (s2.updDom k.domain fun d => d.void k.seq s.dt).fenceCheck
      match k.st with
      | .waitStore _ => (s3.clearRun p).endRefused p
      | .listed => (s3.listDrop p).endRefused p
      | .held => (s3.updWell k.well fun w => { w with held := w.held.filter fun e => e.1 ≠ p }).endRefused p
      | .next t => (s3.updTr t fun x => { x with next := none }).endRefused p
      | .pending => ((s3.freeProv p ((s.runOf p).getD {})).updOrder fun o => { o with
          pend := o.pend.filter fun j => j.pkt ≠ p }).endRefused p
      | _ => s3

/-! ### Debug halts (R562-R568) -/

def HaltReason.code : HaltReason → Nat
  | .halt => 0
  | .step => 1
  | .insn _ => 2
  | .watch _ _ => 3
  | .brk => 4
  | .released => 5

/-- TDETAIL of a halt (R568). -/
def HaltReason.detail (r : HaltReason) : W64 :=
  match r with
  | .insn k | .watch k _ => BitVec.ofNat 64 (r.code + 16 * k)
  | _ => BitVec.ofNat 64 r.code

def HaltReason.addr : HaltReason → W64
  | .watch _ a => a
  | _ => 0

/-- The thread halts: its NEXT slot empties, the reason is recorded and DEBUG_STOP raised (R563, R568). -/
def State.halt (s : State) (t : Nat) (r : HaltReason) : State :=
  let s1 := (s.returnNext t).updTr t fun x => { x with halted := some r, stepLeft := none, str := none }
  let s2 := s1.updThr t fun x => { x with tdetail := r.detail, taddr := r.addr }
  (s2.traceRec t 4 r.code (s2.thr t).pc).event 0x0A00 [(2, t), (1, r.code), (8, (s2.thr t).pc.toNat)]

/-- A debug session is open on a cluster (R562). -/
def State.session (s : State) (c : Nat) : Bool :=
  (s.cl c).breaks.any (fun e => e.2.kind ≠ 0) || (s.cl c).trace.mode ≠ 0
    || (clusterThreads c).any fun t => (s.tr t).halted.isSome

/-- A packet ends as DEBUG_DISCARD with a sub-reason, at its turn in sequence order (R567, R570). -/
def State.discardPkt (s : State) (p sub : Nat) : State :=
  let s1 := ((s.cascade [p]).clearRun p).updRc p fun r => { r with discard := some sub }
  if (s.pkt p).refusal.isSome then s1.endRefused p else s1.storePut p none {} 0 (some 10)

/-! ### Traps (R277-R282) -/

/-- A cause of R278. -/
inductive Cause where
  | undef | coproc | journalFull | align | access | poison | watchdog | order | brk | string
deriving DecidableEq, Repr

def Cause.code : Cause → Nat
  | .undef => 1
  | .coproc => 2
  | .journalFull => 3
  | .align => 4
  | .access => 5
  | .poison => 6
  | .watchdog => 7
  | .order => 8
  | .brk => 10
  | .string => 11

/-- A trap with its detail and address (R327). -/
structure Trap where
  cause : Cause
  detail : W64 := 0
  addr : W64 := 0
deriving DecidableEq, Repr

/-- The handler address of a cause, 0 for none (R278). -/
def State.vector (s : State) (t cause : Nat) : W64 :=
  match s.image (clusterOf t) with
  | some i => i.vector.getD cause 0
  | none => 0

/-- A trap that no handler resolves ends the run (R31, R230, R259, R281, R282). -/
def State.unresolved (s : State) (t cause : Nat) : State :=
  match s.curPkt t with
  | none => s
  | some p => if cause = 3 then s.endForced p 3 9 else s.fail p cause

/-- Enter handler mode at the vector (R280): TEPC, TCAUSE, TDETAIL, TADDR, handler mode, PC. -/
def State.enterHandler (s : State) (t : Nat) (c : Nat) (detail addr tepc : W64) : State :=
  let s1 := s.traceRec t 1 c (s.thr t).pc
  (s1.updThr t fun x => { x with
    tepc := tepc, tcause := BitVec.ofNat 8 c, tdetail := detail, taddr := addr, handler := true
    pc := s.vector t c }).updTr t fun x => { x with wait := .none, str := none, gran := [] }

/-- Take a synchronous trap at the instruction at PC (R278-R281). -/
def State.trap (s : State) (t : Nat) (x : Trap) : State :=
  let c := x.cause.code
  if !(s.thr t).handler && s.vector t c ≠ 0 then s.enterHandler t c x.detail x.addr (s.thr t).pc
  else if !(s.thr t).handler && c = 10 && s.session (clusterOf t) then s.halt t .brk
  else s.unresolved t c

end Sys2Proof.Machine
end

