-- ==== Sys2Proof/Machine/Caches.lean ====
section
/-!
DEFINITION. The caches of a core and its cluster: lookup, replacement, fills, write-backs, maintenance, prefetch and
the store buffer (R254, R255, R265-R273, R276).
-/

namespace Sys2Proof.Machine

/-! ### Tree pseudo-LRU (R266) -/

/-- Set or clear bit `k` of a number. -/
def putBit (b k : Nat) (v : Bool) : Nat :=
  if b.testBit k = v then b else if v then b + 2 ^ k else b - 2 ^ k

/-- Turn the tree's bits away from a way: bit n − 1 belongs to node n; 1 names the upper half. -/
def plruTouch (bits levels way : Nat) : Nat :=
  ((List.range levels).foldl (fun (acc : Nat × Nat) k =>
    let d := way / 2 ^ (levels - 1 - k) % 2
    (putBit acc.1 (acc.2 - 1) (d = 0), 2 * acc.2 + d)) (bits, 1)).1

/-- The way the tree names among the ways below `limit` (log 13). -/
def plruVictim (bits levels limit : Nat) : Nat :=
  ((List.range levels).foldl (fun (acc : Nat × Nat) k =>
    let half := 2 ^ (levels - 1 - k)
    if bits.testBit (acc.1 - 1) && acc.2 + half < limit then (2 * acc.1 + 1, acc.2 + half)
    else (2 * acc.1, acc.2)) (1, 0)).2

/-! ### Shares of the shared buffers (R254) -/

def shareOf (c : CoreSt) (cap entries : Nat) : Nat := if c.dynamic then cap else entries / 8

/-! ### Lines -/

/-- Bytes merged into a line, with their dirty bits. -/
def mergeBytes (old new : List Byte) (mask : BitVec 64) : List Byte :=
  (List.range 64).map fun k => if mask.getLsbD k then new.getD k 0 else old.getD k 0

/-- The mask of `n` bytes at offset `o`. -/
def byteMask (o n : Nat) : BitVec 64 := BitVec.ofNat 64 ((2 ^ n - 1) * 2 ^ o)

/-- Write the dirty bytes of a line to HBM; its poison goes with it (R267, R276). -/
def HbmMem.putLine (m : HbmMem) (ln : Line) : HbmMem :=
  let m1 := (List.range 64).foldl (fun acc k =>
    if ln.dirty.getLsbD k then acc.setByte (64 * ln.no + k) (ln.data.getD k 0) else acc) m
  if ln.poison then m1.mark (64 * ln.no) 64
  else { m1 with poison := m1.poison.filter fun u =>
    !(u = 2 * ln.no && ln.dirty.toNat % 2 ^ 32 = 2 ^ 32 - 1)
      && !(u = 2 * ln.no + 1 && ln.dirty.toNat / 2 ^ 32 = 2 ^ 32 - 1) }

/-! ### The L2 (R265, R267) -/

def State.updL2 (s : State) (c : Nat) (f : L2St → L2St) : State := s.updCl c fun k => { k with l2 := f k.l2 }

/-- Ways that serve as cache. -/
def State.l2Ways (s : State) (c : Nat) : Nat := 16 - (s.cl c).scratchWays

def L2St.way (x : L2St) (no ways : Nat) : Option Nat :=
  (List.range ways).find? fun w => match SMap.get none x.lines (no % 4096 * 16 + w) with
    | some ln => ln.no = no
    | none => false

def State.l2Has (s : State) (c no : Nat) : Bool := ((s.cl c).l2.way no 16).isSome

def L2St.put (x : L2St) (w : Nat) (ln : Line) : L2St :=
  { x with
    lines := SMap.set none x.lines (ln.no % 4096 * 16 + w) (some ln)
    lru := SMap.set 0 x.lru (ln.no % 4096) (BitVec.ofNat 15 (plruTouch (SMap.get 0 x.lru (ln.no % 4096)).toNat 4 w)) }

/-- The way of a set that takes a new line. -/
def L2St.victim (x : L2St) (set ways : Nat) : Nat :=
  match (List.range ways).find? fun w => (SMap.get none x.lines (set * 16 + w)).isNone with
  | some w => w
  | none => plruVictim (SMap.get 0 x.lru set).toNat 4 ways

/-- Install a line in the L2; a dirty victim is written back to HBM. -/
def State.l2Install (s : State) (c : Nat) (ln : Line) : State :=
  let w := (s.cl c).l2.victim (ln.no % 4096) (s.l2Ways c)
  let s1 := match SMap.get none (s.cl c).l2.lines (ln.no % 4096 * 16 + w) with
    | some v =>
      if v.dirty ≠ 0 then (s.updMem fun m => m.putLine v).updL2 c fun x => { x with writebacks := x.writebacks + 1 }
      else s
    | none => s
  s1.updL2 c fun x => x.put w ln

/-- The line's bytes and poison as the L2 gives them, fetched from HBM on a miss. -/
def State.l2Get (s : State) (c no : Nat) : State × Line :=
  match (s.cl c).l2.way no 16 with
  | some w =>
    match SMap.get none (s.cl c).l2.lines (no % 4096 * 16 + w) with
    | some ln => (s.updL2 c fun x => x.put w ln, ln)
    | none => (s, ⟨no, List.replicate 64 0, 0, false⟩)
  | none =>
    let ln : Line := ⟨no, s.mem.read (64 * no) 64, 0, s.mem.poisoned (64 * no) 64⟩
    (s.l2Install c ln, ln)

/-- Dirty bytes of an L1D line reach the L2 (R267). -/
def State.l2Merge (s : State) (c : Nat) (ln : Line) : State :=
  let (s1, old) := s.l2Get c ln.no
  match (s1.cl c).l2.way ln.no 16 with
  | some w => s1.updL2 c fun x => x.put w
      ⟨ln.no, mergeBytes old.data ln.data ln.dirty, old.dirty ||| ln.dirty, old.poison || ln.poison⟩
  | none => s1

/-- Clean an L2 line to HBM. -/
def State.l2Clean (s : State) (c no : Nat) : State :=
  match (s.cl c).l2.way no 16 with
  | some w =>
    match SMap.get none (s.cl c).l2.lines (no % 4096 * 16 + w) with
    | some ln =>
      if ln.dirty = 0 then s
      else (s.updMem fun m => m.putLine ln).updL2 c fun x =>
        { x.put w { ln with dirty := 0 } with writebacks := x.writebacks + 1 }
    | none => s
  | none => s

/-- Discard an L2 line. -/
def State.l2Drop (s : State) (c no : Nat) : State :=
  match (s.cl c).l2.way no 16 with
  | some w => s.updL2 c fun x => { x with lines := SMap.set none x.lines (no % 4096 * 16 + w) none }
  | none => s

/-! ### The L1D -/

def CoreSt.way (c : CoreSt) (no : Nat) : Option Nat :=
  (List.range 8).find? fun w => match SMap.get none c.l1d (no % 64 * 8 + w) with
    | some ln => ln.no = no
    | none => false

def CoreSt.line (c : CoreSt) (no : Nat) : Option Line :=
  match c.way no with
  | some w => SMap.get none c.l1d (no % 64 * 8 + w)
  | none => none

def CoreSt.put (c : CoreSt) (w : Nat) (ln : Line) : CoreSt :=
  { c with
    l1d := SMap.set none c.l1d (ln.no % 64 * 8 + w) (some ln)
    l1dLru := SMap.set 0 c.l1dLru (ln.no % 64) (BitVec.ofNat 7 (plruTouch (SMap.get 0 c.l1dLru (ln.no % 64)).toNat 3 w)) }

def CoreSt.drop (c : CoreSt) (no : Nat) : CoreSt :=
  match c.way no with
  | some w => { c with l1d := SMap.set none c.l1d (no % 64 * 8 + w) none }
  | none => c

def CoreSt.victim (c : CoreSt) (set : Nat) : Nat :=
  match (List.range 8).find? fun w => (SMap.get none c.l1d (set * 8 + w)).isNone with
  | some w => w
  | none => plruVictim (SMap.get 0 c.l1dLru set).toNat 3 8

/-- Entries of the write-back buffer that a set of threads holds, evictions and posted operations together (R254, R270). -/
def CoreSt.wbHeld (c : CoreSt) (who : Nat → Bool) : Nat :=
  (c.wb.filter fun e => who e.t).length + (c.posted.filter fun e => e.wb && who e.t).length

/-- Room in the write-back buffer for one more entry of a thread (R254, R255). -/
def CoreSt.wbRoom (c : CoreSt) (t : Nat) : Bool :=
  c.wbHeld (fun _ => true) < 8 && c.wbHeld (· = t) < shareOf c c.capWb 8

/-- Install a line for a thread: none when a dirty victim finds no room (R255). -/
def CoreSt.install (c : CoreSt) (t : Nat) (ln : Line) : Option CoreSt :=
  let w := c.victim (ln.no % 64)
  match SMap.get none c.l1d (ln.no % 64 * 8 + w) with
  | some v =>
    if v.dirty = 0 then some (c.put w ln)
    else if c.wbRoom t then some { c.put w ln with wb := c.wb ++ [⟨v, t, false⟩] }
    else none
  | none => some (c.put w ln)

/-- A request that finds its line in the write-back buffer, not yet issued: the write-back is cancelled and the line
reinstalled; a dirty victim takes the entry that this frees (R271). -/
def CoreSt.reclaim (c : CoreSt) (no : Nat) : CoreSt :=
  match c.wb.find? fun e => e.ln.no = no && !e.issued with
  | some e =>
    let c1 := { c with wb := c.wb.filter fun x => x.ln.no ≠ no }
    let w := c1.victim (no % 64)
    let c2 := c1.put w e.ln
    match SMap.get none c1.l1d (no % 64 * 8 + w) with
    | some v => if v.dirty = 0 then c2 else { c2 with wb := c1.wb ++ [⟨v, e.t, false⟩] }
    | none => c2
  | none => c

/-- The line's write-back has been issued: requests for it wait (R271). -/
def CoreSt.wbIssued (c : CoreSt) (no : Nat) : Bool := c.wb.any fun e => e.ln.no = no && e.issued

def CoreSt.pendingFill (c : CoreSt) (no : Nat) : Bool := c.mshr.any fun m => m.line = no && !m.dropped

/-- Miss-status registers that a set of threads holds, misses and posted operations together (R254, R270). -/
def CoreSt.mshrHeld (c : CoreSt) (who : Nat → Bool) : Nat :=
  (c.mshr.filter fun m => who m.t).length + (c.posted.filter fun e => e.mshr && who e.t).length

/-- A miss-status register for a demand miss of a thread (R254, R255). -/
def CoreSt.mshrRoom (c : CoreSt) (t : Nat) : Bool :=
  c.mshrHeld (fun _ => true) < 16 && c.mshrHeld (· = t) < shareOf c c.capMshr 16

/-- A prefetch never takes a thread's last free entry: neither the last of its own share nor the last of the pool, which is
every thread's last (R255). -/
def CoreSt.pfRoom (c : CoreSt) (t : Nat) : Bool :=
  c.mshrHeld (fun _ => true) + 1 < 16 && c.mshrHeld (· = t) + 1 < shareOf c c.capMshr 16

/-- The lines that a cluster's L2 is fetching from HBM (R265). -/
def State.l2Filling (s : State) (c : Nat) : List Nat :=
  ((List.range 16).flatMap fun k => ((s.core (16 * c + k)).mshr.filter fun m => m.l2miss).map (·.line)).eraseDups

/-- FILLS_OUT of a cluster (R598). -/
def State.fillsOut (s : State) (c : Nat) : Nat := Nat.min 64 (s.l2Filling c).length

/-- The L2 can serve a miss: it has the line, fetches it already, or has one of its 64 fills left (R265). -/
def State.l2Room (s : State) (c no : Nat) : Bool :=
  s.l2Has c no || (s.l2Filling c).contains no || (s.l2Filling c).length < 64

/-- Count an L1 miss in the L2: a hit, or a miss that starts a fill (R598). -/
def State.l2Count (s : State) (c no : Nat) : State :=
  if s.l2Has c no then s.updL2 c fun x => { x with hits := x.hits + 1 }
  else if (s.l2Filling c).contains no then s
  else s.updL2 c fun x => { x with misses := x.misses + 1 }

/-- Start a miss: its entry, and the L2's count (R598). -/
def State.startMiss (s : State) (core t no : Nat) (prefetch : Bool) : State :=
  let cl := clusterOfCore core
  (s.l2Count cl no).updCore core fun c => { c with mshr := c.mshr ++ [⟨no, t, prefetch, !s.l2Has cl no, false, []⟩] }

/-- A core may read an HBM line: its region has a right other than NONE (R262). -/
def State.lineReadable (s : State) (no : Nat) : Bool :=
  match s.mem.region (64 * no) with
  | some r => r.right ≠ 0
  | none => false

/-- A prefetch of a line, dropped where it would trap or finds no room (R255, R269, R270); a line in the write-back
buffer is reinstalled, or awaited by the fill (R271). -/
def State.prefetch (s : State) (core t no : Nat) : State :=
  let s0 := s.updCore core fun c => c.reclaim no
  let c := s0.core core
  if (c.line no).isSome || c.pendingFill no then s0
  else if s0.lineReadable no && c.pfRoom t && s0.l2Room (clusterOfCore core) no then
    (s0.startMiss core t no true).updCore core fun c => { c with pfIssued := c.pfIssued + 1 }
  else s0.updCore core fun c => { c with pfDropped := c.pfDropped + 1 }

/-! ### The stride detector (R269) -/

/-- The lines a stream keeps ahead of an access; those it requests stand unused until an access meets them. -/
def State.streamAhead (s : State) (core t : Nat) (addr : Nat) (stride : Int) (n : Nat) : State :=
  (List.range n).foldl (fun acc k =>
    let a := (addr : Int) + stride * (k + 1)
    if 0 ≤ a && (s.mem.region a.toNat).map (·.base) = (s.mem.region addr).map (·.base) then
      let no := a.toNat / 64
      let acc1 := acc.prefetch core t no
      if (acc1.core core).pfIssued = (acc.core core).pfIssued then acc1 else acc1.updCore core fun c => { c with streams := c.streams.map fun x =>
        if x.t = t && x.stride = stride then { x with unused := x.unused ++ [no] } else x }
    else acc.updCore core fun c => { c with streams := c.streams.filter fun x => !(x.t = t && x.stride = stride) }) s

/-- A demand miss of a thread on the cached view, seen by its stride detector. -/
def State.missSeen (s : State) (core t addr : Nat) : State :=
  let r := s.tr t
  let d : Int := (addr : Int) - r.missLine
  let same := d = r.missStride && r.missRun ≠ 0
  let run := if same then r.missRun + 1 else 1
  let s1 := s.updTr t fun x => { x with missLine := addr, missStride := d, missRun := run }
  let s2 := if same then s1
    else s1.updCore core fun c => { c with streams := c.streams.filter fun x => x.t ≠ t }
  let inRange := (64 ≤ d && d ≤ 4096) || (-4096 ≤ d && d ≤ -64)
  let c := s2.core core
  let mine := (c.streams.filter fun x => x.t = t).length
  if (s.thr t).pfctl && 2 ≤ run && inRange then
    let s3 := if c.streams.any (fun x => x.t = t && x.stride = d) then s2
      else if c.streams.length < 8 && mine < shareOf c c.capPf 8 then
        s2.updCore core fun c => { c with streams := c.streams ++ [⟨t, d, addr, (s2.cl (clusterOfCore core)).pfDepth, []⟩] }
      else s2
    match (s3.core core).streams.find? fun x => x.t = t && x.stride = d with
    | some x => s3.streamAhead core t addr d x.depth
    | none => s3
  else s2

/-- An access to a prefetched line keeps its stream ahead; a stream with 16 unused lines ends. -/
def State.hitSeen (s : State) (core t addr : Nat) : State :=
  let c := s.core core
  match c.streams.find? fun x => x.t = t && x.unused.contains (addr / 64) with
  | some x =>
    let s1 := s.updCore core fun c => { c with streams := c.streams.map fun y =>
      if y.t = t && y.stride = x.stride then { y with unused := y.unused.filter (· ≠ addr / 64) } else y }
    let s2 := s1.streamAhead core t addr x.stride x.depth
    s2.updCore core fun c => { c with streams := c.streams.filter fun y => y.unused.length < 16 }
  | none => s

/-! ### Core memory errors (R276) -/

/-- Count an uncorrectable error and raise the rate-limited CORE_MEM_ERROR. -/
def State.coreMemError (s : State) (core array set way : Nat) : State :=
  let cl := clusterOfCore core
  let k := s.cl cl
  let n := k.memErrCount + 1
  let s1 := s.updCore core fun c => { c with uncorr := SMap.set 0 c.uncorr array (SMap.get 0 c.uncorr array + 1) }
  let s2 := if array = 2 then s1.updL2 cl fun x => { x with uncorrectable := x.uncorrectable + 1 } else s1
  let s3 := s2.errCnt 2 fun e => { e with uncorrectable := e.uncorrectable + 1 }
  let due := match k.memErrDt with
    | none => true
    | some d => d + 1000000 ≤ s.dt
  if due then
    (s3.updCl cl fun k => { k with memErrDt := some s.dt, memErrCount := 0 }).event 0x0404
      [(1, cl), (1, core), (1, (Config.arrayCode array).toNat), (2, set), (1, way), (4, n)]
  else s3.updCl cl fun k => { k with memErrCount := n }

/-- Count an error that a core memory with ECC corrects: 1 L1D, 2 L2, 3 scratch (R276). -/
def State.coreCorrected (s : State) (core array : Nat) : State :=
  if array = 0 ∨ 3 < array then s
  else
    let s1 := (s.updCore core fun c => { c with corr := SMap.set 0 c.corr array (SMap.get 0 c.corr array + 1) }).errCnt 2
      fun e => { e with corrected := e.corrected + 1 }
    if array = 2 then s1.updL2 (clusterOfCore core) fun x => { x with corrected := x.corrected + 1 } else s1

/-! ### Maintenance (R270-R272) -/

/-- Write a line's dirty bytes to the next level, and with ALL on to HBM; the line stays, clean. -/
def State.cleanLine (s : State) (core no : Nat) (all : Bool) : State :=
  let cl := clusterOfCore core
  let s1 := match (s.core core).line no with
    | some ln =>
      if ln.dirty = 0 then s
      else
        let w := ((s.core core).way no).getD 0
        (s.l2Merge cl ln).updCore core fun c => c.put w { ln with dirty := 0 }
    | none => s
  if all then s1.l2Clean cl no else s1

/-- Discard a line at the named levels. -/
def State.invalLine (s : State) (core no : Nat) (all : Bool) : State :=
  let s1 := s.updCore core fun c => c.drop no
  if all then s1.l2Drop (clusterOfCore core) no else s1

/-- The operations of R270 on a line that no fill is pending for: 1 CCLEAN, 2 CINVAL, 3 CFLUSH. -/
def State.maintLine (s : State) (core no op : Nat) (all : Bool) : State :=
  match op with
  | 1 => s.cleanLine core no all
  | 2 => s.invalLine core no all
  | _ => (s.cleanLine core no all).invalLine core no all

/-! ### Loads through the cached view -/

/-- Bytes with a thread's waiting stores laid over them (R273). -/
def overlay (sb : List SbEntry) (addr : Nat) (bs : List Byte) : List Byte :=
  sb.foldl (fun acc e => (List.range acc.length).map fun k =>
    if e.addr ≤ addr + k && addr + k < e.addr + e.bytes.length then e.bytes.getD (addr + k - e.addr) 0
    else acc.getD k 0) bs

/-- Every byte of a range lies in some waiting store. -/
def covered (sb : List SbEntry) (addr n : Nat) : Bool :=
  (List.range n).all fun k => sb.any fun e => e.addr ≤ addr + k && addr + k < e.addr + e.bytes.length

/-- What a load meets. -/
inductive LdR where
  | ok (bs : List Byte) (s : State)
  | trap (x : Trap) (s : State)
  /-- Nothing happens yet: the command can be sent again. -/
  | stall
  /-- The line is not in the L1D: the load waits for its fill. -/
  | miss (s : State)

/-- A load of `n` bytes at an HBM address through the cached view (R265-R273). The rights have been checked. -/
def State.cachedLoad (s : State) (t a n : Nat) : LdR :=
  let core := coreOf t
  let no := a / 64
  let sb := (s.tr t).sb
  if (s.tr t).maint.contains no then .stall
  else if covered sb a n then .ok (overlay sb a (List.replicate n 0)) s
  else
    let s0 := s.updCore core fun c => c.reclaim no
    match (s0.core core).line no with
    | some ln =>
      if ln.poison then .trap ⟨.poison, 1, BitVec.ofNat 64 (cachedBase + a)⟩ s0
      else
        let w := ((s0.core core).way no).getD 0
        let s1 := s0.updCore core fun c => { c.put w ln with l1dHits := c.l1dHits + 1 }
        .ok (overlay sb a (slice ln.data (a % 64) n)) (s1.hitSeen core t a)
    | none =>
      if (s0.core core).pendingFill no then .miss (s0.hitSeen core t a)
      else if (s0.core core).mshrRoom t && s0.l2Room (clusterOfCore core) no then
        let s1 := (s0.startMiss core t no false).updCore core fun c => { c with l1dMisses := c.l1dMisses + 1 }
        .miss (s1.missSeen core t a)
      else .stall

/-! ### Fills, write-backs, the store buffer -/

/-- An entry, a unit or a register of a core has come free: its stalled threads may be ready again (R251, log 165). -/
def State.unstall (s : State) (core : Nat) : State :=
  (coreThreads core).foldl (fun acc t => if (acc.tr t).stalled then acc.updTr t fun x => { x with stalled := false } else acc) s

/-- The loads of a core's threads that wait for a line restart with its data (R268). -/
def State.wakeFill (s : State) (core no : Nat) (data : List Byte) (poison : Bool) : State :=
  (coreThreads core).foldl (fun acc t =>
    match (acc.tr t).wait with
    | .fill gd k addr =>
      if addr / 64 = no then
        if poison then
          (acc.updTr t fun x => { x with wait := .none }).trap t ⟨.poison, 1, BitVec.ofNat 64 (cachedBase + addr)⟩
        else acc.complete t gd (k.value (overlay (acc.tr t).sb addr (slice data (addr % 64) k.size)))
      else acc
    | .granule addr => if addr / 64 = no then acc.updTr t fun x => { x with wait := .none } else acc
    | _ => acc) s

/-- Operations placed in the entry of a fill that a CZERO dropped: the L1D's line is the later, zeroed one, so they act on
the L2 alone (R272). -/
def State.maintL2 (s : State) (c no op : Nat) (all : Bool) : State :=
  if !all then s
  else match op with
    | 1 => s.l2Clean c no
    | 2 => s.l2Drop c no
    | _ => (s.l2Clean c no).l2Drop c no

/-- The miss that a fill of a line ends: its entry, or that of a cached load which a taken branch squashed: such a fill
completes and installs the line (R252). The model issues no squashed instruction: a LINE_FILL of a line that nothing
waits for, in a readable region, is that fill, counted as a miss of the core's thread 0 (log 164). -/
def State.fillOf (s : State) (core no : Nat) : Option (State × Mshr) :=
  let c := s.core core
  match c.mshr.find? fun m => m.line = no with
  | some m => some (s, m)
  | none =>
    if core < 192 && (c.line no).isNone && (c.wb.all fun e => e.ln.no ≠ no) && s.lineReadable no then
      let cl := clusterOfCore core
      some ((s.l2Count cl no).updCore core fun c => { c with l1dMisses := c.l1dMisses + 1 },
        ⟨no, 8 * core, false, !s.l2Has cl no, false, []⟩)
    else none

/-- A line fill completes: the line is installed, waiting loads restart, operations placed in the entry act (R268,
R271, R272). `err` is an uncorrectable unit met by the HBM fill (R467). Nothing happens while the line's write-back or room for the victim is awaited (R255). -/
def State.fill (s : State) (core no : Nat) (err : Bool) : State :=
  let c := s.core core
  match s.fillOf core no with
  | none => s
  | some (sm, m) =>
    if c.wbIssued no then s
    else
      let cl := clusterOfCore core
      let s0 := if err ∧ m.l2miss ∧ ((s.cl cl).l2.way no 16).isNone then
          sm.hbmError (64 * no) (if m.prefetch then 15 else if cl < 6 then 6 else 7) else sm
      let (s1, ln0) := s0.l2Get cl no
      let ln : Line := ⟨no, ln0.data, 0, ln0.poison⟩
      let c1 := { s1.core core with mshr := (s1.core core).mshr.erase m }
      if m.dropped then
        m.ops.foldl (fun acc o => acc.maintL2 cl no o.1 o.2)
          (((s1.setCore core c1).wakeFill core no ln.data ln.poison).unstall core)
      else match c1.install m.t ln with
        | none => s
        | some c2 =>
          let s2 := ((s1.setCore core c2).wakeFill core no ln.data ln.poison).unstall core
          m.ops.foldl (fun acc o => acc.maintLine core no o.1 o.2) s2

/-- The next level acknowledges an issued write-back: its dirty bytes are in the L2 (R267, R271). -/
def State.wbAck (s : State) (core no : Nat) : State :=
  match (s.core core).wb.find? fun e => e.ln.no = no && e.issued with
  | some e =>
    ((s.l2Merge (clusterOfCore core) e.ln).updCore core fun c => { c with
      wb := c.wb.filter fun x => x.ln.no ≠ no }).unstall core
  | none => s

/-- The oldest waiting store of a thread leaves the store buffer for the L1D; a store whose line is absent starts a
miss and waits (R265, R268, R273). -/
def State.drainStore (s : State) (t : Nat) : State :=
  match (s.tr t).sb with
  | [] => s
  | e :: rest =>
    let core := coreOf t
    let no := e.addr / 64
    let s0 := s.updCore core fun c => c.reclaim no
    match (s0.core core).line no with
    | some ln =>
      let w := ((s0.core core).way no).getD 0
      let o := e.addr % 64
      let ln1 := { ln with data := splice ln.data o e.bytes, dirty := ln.dirty ||| byteMask o e.bytes.length }
      (((s0.updCore core fun c => c.put w ln1).hitSeen core t e.addr).updTr t fun x => { x with sb := rest }).unstall core
    | none =>
      if (s0.core core).pendingFill no then s0.hitSeen core t e.addr
      else if (s0.core core).mshrRoom t && s0.l2Room (clusterOfCore core) no then
        ((s0.startMiss core t no false).updCore core fun c => { c with l1dMisses := c.l1dMisses + 1 }).missSeen core t e.addr
      else s0

/-- Room in the store buffer for a thread's next store (R254, R255). -/
def State.sbRoom (s : State) (t : Nat) : Bool :=
  let c := s.core (coreOf t)
  total ((coreThreads (coreOf t)).map fun u => (s.tr u).sb.length) < 32
    && (s.tr t).sb.length < shareOf c c.capSb 32

/-- Everything a release waits for is done: earlier stores and maintenance operations (R274). -/
def State.released (s : State) (t : Nat) : Bool := (s.tr t).sb.isEmpty && (s.tr t).maint.isEmpty

/-! ### The L1I (R264, R265): the line an instruction is fetched from -/

/-- The fetch of an instruction's line: present, or filled at once through the L2 (log 14). -/
def State.fetchLine (s : State) (t : Nat) : State :=
  let core := coreOf t
  let no := (s.thr t).pc.toNat % hbmSize / 64
  let c := s.core core
  let set := no % 128
  let look := (List.range 4).find? fun w => SMap.get 0 c.l1i (set * 4 + w) = no + 1
  let touch := fun (x : CoreSt) (w : Nat) => { x with
    l1i := SMap.set 0 x.l1i (set * 4 + w) (no + 1)
    l1iLru := SMap.set 0 x.l1iLru set (BitVec.ofNat 3 (plruTouch (SMap.get 0 x.l1iLru set).toNat 2 w)) }
  match look with
  | some w => s.updCore core fun x => { touch x w with l1iHits := x.l1iHits + 1 }
  | none =>
    let w := match (List.range 4).find? fun w => SMap.get 0 c.l1i (set * 4 + w) = 0 with
      | some w => w
      | none => plruVictim (SMap.get 0 c.l1iLru set).toNat 2 4
    let cl := clusterOfCore core
    let s1 := ((s.l2Count cl no).l2Get cl no).1
    s1.updCore core fun x => { touch x w with l1iMisses := x.l1iMisses + 1 }

end Sys2Proof.Machine
end

