-- ==== Sys2Proof/Machine/Issue.lean ====
section
/-!
DEFINITION. How an instruction command issues: the thread must be able to issue, breakpoints and the fetch are checked,
and the instruction acts, traps, starts to wait, or does nothing yet (R248, R252, R264, R279, R565, R567).
-/

namespace Sys2Proof.Machine

/-- The thread has a run, is not halted and waits for nothing, and its cluster is awake (R531). -/
def State.ready (s : State) (t : Nat) : Bool :=
  t < 1536 && s.clPower (clusterOf t) = .active && (s.curPkt t).isSome && (s.tr t).halted.isNone && (s.tr t).wait = .none

/-- The trap of a fetch that is not from the text: its address lies in no HBM region, or is not text (R262, R264). -/
def State.fetchTrap (s : State) (t : Nat) : Trap :=
  let pc := (s.thr t).pc
  let a := pc.toNat
  let hbm := (cachedBase ≤ a && a < cachedBase + hbmSize) || (uncachedBase ≤ a && a < uncachedBase + hbmSize)
  ⟨.access, if hbm && (s.mem.region (a % hbmSize)).isNone then 0 else 5, pc⟩

/-- A breakpoint slot armed for execution at an address: slot and kind (R567). -/
def State.insnBreak (s : State) (t : Nat) : Option (Nat × Nat) :=
  if (s.tr t).skipBreak then none
  else match (s.cl (clusterOf t)).breaks.find? fun e =>
      (e.2.kind = 1 || e.2.kind = 5) && e.2.addr = (s.thr t).pc with
    | some e => some (e.1, e.2.kind)
    | none => none

/-- A watchpoint that an access matches: slot (R567). -/
def State.watch (s : State) (t addr : Nat) (store : Bool) : Option Nat :=
  if (s.tr t).skipBreak then none
  else match (s.cl (clusterOf t)).breaks.find? fun e =>
      (e.2.kind = 4 || e.2.kind = (if store then 3 else 2)) && e.2.addr.toNat / 8 = addr / 8 with
    | some e => some e.1
    | none => none

/-- A DEBUG_STEP has run its instructions: the thread halts with reason STEP (R565). -/
def State.stepCheck (s : State) (t : Nat) : State :=
  if (s.tr t).stepLeft = some 0 && (s.tr t).halted.isNone then s.halt t .step else s

/-- An instruction has acted: one instruction of a step is done unless the thread waits in it. -/
def State.issued (s : State) (t : Nat) : State :=
  let s1 := s.updTr t fun x => { x with
    skipBreak := false, starve := 0, late := none, stalled := false
    stepLeft := if x.wait = .none then x.stepLeft.map (· - 1) else x.stepLeft }
  s1.stepCheck t

/-- Issue an instruction: `body` answers the state it leaves, or none when it cannot issue yet (log 10) and the thread
stalls; `late` names the bytes not yet arrived that it then waits for (R24). -/
def issueLate (t : Nat) (late : State → Option (Nat × Nat)) (body : State → Option State) (s : State) : Out :=
  if !s.ready t then done s
  else match s.insnBreak t with
    | some (slot, kind) =>
      if kind = 5 then done (s.discardPkt ((s.curPkt t).getD 0) 1) else done (s.halt t (.insn slot))
    | none =>
      if !s.inText (clusterOf t) (s.thr t).pc.toNat then
        done ((s.trap t (s.fetchTrap t)).issued t)
      else match body (s.fetchLine t) with
        | some s1 => done (s1.issued t)
        | none => match late s with
          | some r => done (s.updTr t fun x => { x with late := some r, starve := 0 })
          | none => done (s.updTr t fun x => { x with stalled := true, starve := 0 })

/-- Issue an instruction that reads no byte which may not have arrived. -/
def issue (t : Nat) (body : State → Option State) (s : State) : Out := issueLate t (fun _ => none) body s

/-- A register of an outstanding lookup: its readers and writers wait (R311). -/
def State.regBusy (s : State) (t : Nat) (rs : List Reg) : Bool :=
  (s.tr t).lkps.any fun l => l.gd ≠ 0 && rs.contains l.gd

/-- The instruction writes one register and falls through. -/
def State.result (s : State) (t : Nat) (gd : Reg) (v : W64) : State := (s.setReg t gd v).advance t

/-- Raise a trap instead of acting. -/
def trapAt (t : Nat) (x : Trap) (s : State) : Option State := some (s.trap t x)

/-- The word of an instruction of format A and I (R290). -/
def wordA (major : Nat) (gd ga gb : Reg) (fn : Nat) : W32 :=
  BitVec.ofNat 32 (major * 0x4000000 + gd.toNat * 0x200000 + ga.toNat * 0x10000 + gb.toNat * 0x800 + fn)
def wordI (major : Nat) (gd ga : Reg) (imm : BitVec 16) : W32 :=
  BitVec.ofNat 32 (major * 0x4000000 + gd.toNat * 0x200000 + ga.toNat * 0x10000 + imm.toNat)

/-- UNDEF_INSTR of an instruction word (R327). -/
def undef (w : W32) : Trap := ⟨.undef, w.setWidth 64, 0⟩
/-- ACCESS with TDETAIL OPERAND, MODE (R327). -/
def badOperand : Trap := ⟨.access, 4, 0⟩
def badMode : Trap := ⟨.access, 3, 0⟩

/-- A meaning that checks the registers it names and acts. -/
def issueRegs (t : Nat) (rs : List Reg) (body : State → Option State) (s : State) : Out :=
  issue t (fun s1 => if s1.regBusy t rs then none else body s1) s

/-- The same, for one that may stall on bytes not yet arrived. -/
def issueRegsLate (t : Nat) (rs : List Reg) (late : State → Option (Nat × Nat)) (body : State → Option State) (s : State) : Out :=
  issueLate t (fun s1 => if s1.regBusy t rs then none else late s1) (fun s1 => if s1.regBusy t rs then none else body s1) s

end Sys2Proof.Machine
end

