-- ==== Sys2Proof/Machine/Flags.lean ====
section
/-!
DEFINITION. Flags. The Usoth instruction set has no condition flags (R288); the flags of this device are the 32 event
flags of each thread (R359), and here are the ways they are set, tested and taken.
-/

namespace Sys2Proof.Machine

/-- Set event flags of a thread (R359, R360). -/
def State.setFlags (s : State) (t : Nat) (f : W32) : State :=
  s.updThr t fun x => { x with evflags := x.evflags ||| f }

/-- The flags satisfy a mask in the named mode (R321). -/
def flagsMet (flags mask : W32) (all : Bool) : Bool :=
  if all then flags &&& mask = mask else flags &&& mask ≠ 0

/-- What WAITEV returns: the flags of the mask that are set, and bit 63 when the wait was broken (R321). -/
def State.flagValue (s : State) (t : Nat) (mask : W32) (broken : Bool) : W64 :=
  ((s.thr t).evflags &&& mask).setWidth 64 ||| (bit broken <<< 63)

/-- WAITEV clears the flags it returns (R321). -/
def State.clearFlags (s : State) (t : Nat) (mask : W32) : State :=
  s.updThr t fun x => { x with evflags := x.evflags &&& ~~~mask }

/-- A waiting WAITEV completes (R321, R365). -/
def State.wakeFlags (s : State) (t : Nat) (gd : Reg) (mask : W32) (broken : Bool) : State :=
  (s.clearFlags t mask).complete t gd (s.flagValue t mask broken)

end Sys2Proof.Machine
end

