-- ==== Sys2Proof/Machine/UsothAlu.lean ====
section
/-!
DEFINITION. The Usoth integer, compare, field and multiply instructions, the REP prefix, branches, special registers and
the trap returns (R288-R303, R323-R325).
-/

namespace Sys2Proof.Machine

/-! ### The operations (R294-R296) -/

/-- The operations of the ALU group, of the immediate majors and of the field majors. -/
inductive Alu where
  | add | sub | and | or | xor | andn | addw | subw | sll | srl | sra | ror
  | ceq | cne | clt | cltu | cle | cleu | cbs | cbc | min | max | minu | maxu
  | mul | mulhu | mulh | bswap16 | bswap32 | bswap64 | popc | clz | ctz | shlor
  | extu (pos len : Nat) | exts (pos len : Nat) | ins (pos len : Nat)
deriving DecidableEq, Repr

/-- Number of 1 bits. -/
def popCount (a : W64) : Nat := ((List.range 64).filter fun k => a.getLsbD k).length

/-- The number of zeros before the first 1, going over the bits in the order given; 64 for none. -/
def zerosBefore (a : W64) (order : List Nat) : Nat :=
  match order with
  | [] => 0
  | k :: rest => if a.getLsbD k then 0 else zerosBefore a rest + 1

def rotr64 (a : W64) (n : Nat) : W64 := (a >>> n) ||| (a <<< ((64 - n) % 64))

/-- What each operation computes from ga, gb (or the immediate) and the old gd. -/
def Alu.eval (f : Alu) (a b d : W64) : W64 :=
  let sh := b.toNat % 64
  match f with
  | .add => a + b
  | .sub => a - b
  | .and => a &&& b
  | .or => a ||| b
  | .xor => a ^^^ b
  | .andn => a &&& ~~~b
  | .addw => ((a + b).setWidth 32).signExtend 64
  | .subw => ((a - b).setWidth 32).signExtend 64
  | .sll => a <<< sh
  | .srl => a >>> sh
  | .sra => a.sshiftRight sh
  | .ror => rotr64 a sh
  | .ceq => bit (a = b)
  | .cne => bit (a ≠ b)
  | .clt => bit (a.slt b)
  | .cltu => bit (a.ult b)
  | .cle => bit (a.sle b)
  | .cleu => bit (a.ule b)
  | .cbs => bit (a.getLsbD sh)
  | .cbc => bit (!a.getLsbD sh)
  | .min => if a.slt b then a else b
  | .max => if a.slt b then b else a
  | .minu => if a.ult b then a else b
  | .maxu => if a.ult b then b else a
  | .mul => a * b
  | .mulhu => BitVec.ofNat 64 (a.toNat * b.toNat / 2 ^ 64)
  | .mulh => BitVec.ofInt 64 (a.toInt * b.toInt / 2 ^ 64)
  | .bswap16 => BitVec.ofNat 64 (beVal (leBytes 2 a.toNat))
  | .bswap32 => BitVec.ofNat 64 (beVal (leBytes 4 a.toNat))
  | .bswap64 => rev64 a
  | .popc => BitVec.ofNat 64 (popCount a)
  | .clz => BitVec.ofNat 64 (zerosBefore a (List.range 64).reverse)
  | .ctz => BitVec.ofNat 64 (zerosBefore a (List.range 64))
  | .shlor => (a <<< 16) ||| b
  | .extu pos len => (a >>> pos) &&& maskLow len
  | .exts pos len => (((a >>> pos) <<< (64 - len)).sshiftRight (64 - len))
  | .ins pos len => (d &&& ~~~(maskLow len <<< pos)) ||| ((a <<< pos) &&& (maskLow len <<< pos))

/-- The second operand. -/
inductive Src where
  | reg (gb : Reg)
  | imm (v : W64)
deriving DecidableEq, Repr

def Src.val (s : State) (t : Nat) (x : Src) : W64 :=
  match x with
  | .reg gb => s.reg t gb
  | .imm v => v

def Src.regs (x : Src) : List Reg :=
  match x with
  | .reg gb => [gb]
  | .imm _ => []

/-- The value an operation gives a thread's registers. -/
def State.aluVal (s : State) (t : Nat) (f : Alu) (gd ga : Reg) (b : Src) : W64 :=
  f.eval (s.reg t ga) (b.val s t) (s.reg t gd)

/-- The one meaning of every ALU and field instruction. -/
def execAlu (t : Nat) (f : Alu) (gd ga : Reg) (b : Src) (s : State) : Out :=
  issueRegs t (gd :: ga :: b.regs) (fun s => some (s.result t gd (s.aluVal t f gd ga b))) s

/-- ADD (R294). -/
def execAddR (t : Nat) (gd ga gb : Reg) (s : State) : Out := execAlu t .add gd ga (.reg gb) s

/-- SUB (R294). -/
def execSubR (t : Nat) (gd ga gb : Reg) (s : State) : Out := execAlu t .sub gd ga (.reg gb) s

/-- AND (R294). -/
def execAndR (t : Nat) (gd ga gb : Reg) (s : State) : Out := execAlu t .and gd ga (.reg gb) s

/-- OR (R294). -/
def execOrR (t : Nat) (gd ga gb : Reg) (s : State) : Out := execAlu t .or gd ga (.reg gb) s

/-- XOR (R294). -/
def execXorR (t : Nat) (gd ga gb : Reg) (s : State) : Out := execAlu t .xor gd ga (.reg gb) s

/-- ANDN (R294). -/
def execAndnR (t : Nat) (gd ga gb : Reg) (s : State) : Out := execAlu t .andn gd ga (.reg gb) s

/-- ADDW (R294). -/
def execAddwR (t : Nat) (gd ga gb : Reg) (s : State) : Out := execAlu t .addw gd ga (.reg gb) s

/-- SUBW (R294). -/
def execSubwR (t : Nat) (gd ga gb : Reg) (s : State) : Out := execAlu t .subw gd ga (.reg gb) s

/-- SLL (R294). -/
def execSllR (t : Nat) (gd ga gb : Reg) (s : State) : Out := execAlu t .sll gd ga (.reg gb) s

/-- SRL (R294). -/
def execSrlR (t : Nat) (gd ga gb : Reg) (s : State) : Out := execAlu t .srl gd ga (.reg gb) s

/-- SRA (R294). -/
def execSraR (t : Nat) (gd ga gb : Reg) (s : State) : Out := execAlu t .sra gd ga (.reg gb) s

/-- ROR (R294). -/
def execRorR (t : Nat) (gd ga gb : Reg) (s : State) : Out := execAlu t .ror gd ga (.reg gb) s

/-- CEQ (R294). -/
def execCeqR (t : Nat) (gd ga gb : Reg) (s : State) : Out := execAlu t .ceq gd ga (.reg gb) s

/-- CNE (R294). -/
def execCneR (t : Nat) (gd ga gb : Reg) (s : State) : Out := execAlu t .cne gd ga (.reg gb) s

/-- CLT (R294). -/
def execCltR (t : Nat) (gd ga gb : Reg) (s : State) : Out := execAlu t .clt gd ga (.reg gb) s

/-- CLTU (R294). -/
def execCltuR (t : Nat) (gd ga gb : Reg) (s : State) : Out := execAlu t .cltu gd ga (.reg gb) s

/-- CLE (R294). -/
def execCleR (t : Nat) (gd ga gb : Reg) (s : State) : Out := execAlu t .cle gd ga (.reg gb) s

/-- CLEU (R294). -/
def execCleuR (t : Nat) (gd ga gb : Reg) (s : State) : Out := execAlu t .cleu gd ga (.reg gb) s

/-- CBS (R294). -/
def execCbsR (t : Nat) (gd ga gb : Reg) (s : State) : Out := execAlu t .cbs gd ga (.reg gb) s

/-- CBC (R294). -/
def execCbcR (t : Nat) (gd ga gb : Reg) (s : State) : Out := execAlu t .cbc gd ga (.reg gb) s

/-- MIN (R294). -/
def execMinR (t : Nat) (gd ga gb : Reg) (s : State) : Out := execAlu t .min gd ga (.reg gb) s

/-- MAX (R294). -/
def execMaxR (t : Nat) (gd ga gb : Reg) (s : State) : Out := execAlu t .max gd ga (.reg gb) s

/-- MINU (R294). -/
def execMinuR (t : Nat) (gd ga gb : Reg) (s : State) : Out := execAlu t .minu gd ga (.reg gb) s

/-- MAXU (R294). -/
def execMaxuR (t : Nat) (gd ga gb : Reg) (s : State) : Out := execAlu t .maxu gd ga (.reg gb) s

/-- MUL (R294). -/
def execMulR (t : Nat) (gd ga gb : Reg) (s : State) : Out := execAlu t .mul gd ga (.reg gb) s

/-- MULHU (R294). -/
def execMulhuR (t : Nat) (gd ga gb : Reg) (s : State) : Out := execAlu t .mulhu gd ga (.reg gb) s

/-- MULH (R294). -/
def execMulhR (t : Nat) (gd ga gb : Reg) (s : State) : Out := execAlu t .mulh gd ga (.reg gb) s

/-- BSWAP16 (R294). -/
def execBswap16 (t : Nat) (gd ga : Reg) (s : State) : Out := execAlu t .bswap16 gd ga (.imm 0) s

/-- BSWAP32 (R294). -/
def execBswap32 (t : Nat) (gd ga : Reg) (s : State) : Out := execAlu t .bswap32 gd ga (.imm 0) s

/-- BSWAP64 (R294). -/
def execBswap64 (t : Nat) (gd ga : Reg) (s : State) : Out := execAlu t .bswap64 gd ga (.imm 0) s

/-- POPC (R294). -/
def execPopc (t : Nat) (gd ga : Reg) (s : State) : Out := execAlu t .popc gd ga (.imm 0) s

/-- CLZ (R294). -/
def execClz (t : Nat) (gd ga : Reg) (s : State) : Out := execAlu t .clz gd ga (.imm 0) s

/-- CTZ (R294). -/
def execCtz (t : Nat) (gd ga : Reg) (s : State) : Out := execAlu t .ctz gd ga (.imm 0) s

/-- ADDI (R295). -/
def execAddi (t : Nat) (gd ga : Reg) (imm : BitVec 16) (s : State) : Out :=
  execAlu t .add gd ga (.imm (sext imm)) s

/-- ANDI (R295). -/
def execAndi (t : Nat) (gd ga : Reg) (imm : BitVec 16) (s : State) : Out :=
  execAlu t .and gd ga (.imm (zext imm)) s

/-- ORI (R295). -/
def execOri (t : Nat) (gd ga : Reg) (imm : BitVec 16) (s : State) : Out :=
  execAlu t .or gd ga (.imm (zext imm)) s

/-- XORI (R295). -/
def execXori (t : Nat) (gd ga : Reg) (imm : BitVec 16) (s : State) : Out :=
  execAlu t .xor gd ga (.imm (zext imm)) s

/-- SHLORI (R295). -/
def execShlori (t : Nat) (gd ga : Reg) (imm : BitVec 16) (s : State) : Out :=
  execAlu t .shlor gd ga (.imm (zext imm)) s

/-- CEQI (R295). -/
def execCeqi (t : Nat) (gd ga : Reg) (imm : BitVec 16) (s : State) : Out :=
  execAlu t .ceq gd ga (.imm (sext imm)) s

/-- CNEI (R295). -/
def execCnei (t : Nat) (gd ga : Reg) (imm : BitVec 16) (s : State) : Out :=
  execAlu t .cne gd ga (.imm (sext imm)) s

/-- CLTI (R295). -/
def execClti (t : Nat) (gd ga : Reg) (imm : BitVec 16) (s : State) : Out :=
  execAlu t .clt gd ga (.imm (sext imm)) s

/-- CLTUI (R295). -/
def execCltui (t : Nat) (gd ga : Reg) (imm : BitVec 16) (s : State) : Out :=
  execAlu t .cltu gd ga (.imm (zext imm)) s

/-- SLLI (R295). -/
def execSlli (t : Nat) (gd ga : Reg) (amt : BitVec 6) (s : State) : Out :=
  execAlu t .sll gd ga (.imm (amt.setWidth 64)) s

/-- SRLI (R295). -/
def execSrli (t : Nat) (gd ga : Reg) (amt : BitVec 6) (s : State) : Out :=
  execAlu t .srl gd ga (.imm (amt.setWidth 64)) s

/-- SRAI (R295). -/
def execSrai (t : Nat) (gd ga : Reg) (amt : BitVec 6) (s : State) : Out :=
  execAlu t .sra gd ga (.imm (amt.setWidth 64)) s

/-- RORI (R295). -/
def execRori (t : Nat) (gd ga : Reg) (amt : BitVec 6) (s : State) : Out :=
  execAlu t .ror gd ga (.imm (amt.setWidth 64)) s

/-- CBSI (R295). -/
def execCbsi (t : Nat) (gd ga : Reg) (amt : BitVec 6) (s : State) : Out :=
  execAlu t .cbs gd ga (.imm (amt.setWidth 64)) s

/-- CBCI (R295). -/
def execCbci (t : Nat) (gd ga : Reg) (amt : BitVec 6) (s : State) : Out :=
  execAlu t .cbc gd ga (.imm (amt.setWidth 64)) s

/-- RDLK (R294). -/
def execRdlk (t : Nat) (gd : Reg) (s : State) : Out :=
  issueRegs t [gd] (fun s => some (s.result t gd (s.thr t).lk)) s

/-- WRLK (R294). -/
def execWrlk (t : Nat) (ga : Reg) (s : State) : Out :=
  issueRegs t [ga] (fun s => some ((s.updThr t fun x => { x with lk := x.get ga }).advance t)) s

/-- imm16 of EXTU, EXTS and INS (R296). -/
def fieldImm (pos lenm1 : BitVec 6) (signed : Bool) : BitVec 16 :=
  BitVec.ofNat 16 (pos.toNat + 64 * lenm1.toNat + if signed then 4096 else 0)

/-- A field instruction: pos + len above 64 is undefined (R296). -/
def execField (t : Nat) (major : Nat) (f : Nat → Nat → Alu) (gd ga : Reg) (pos lenm1 : BitVec 6) (signed : Bool)
    (s : State) : Out :=
  if 64 < pos.toNat + lenm1.toNat + 1 then issue t (trapAt t (undef (wordI major gd ga (fieldImm pos lenm1 signed)))) s
  else execAlu t (f pos.toNat (lenm1.toNat + 1)) gd ga (.imm 0) s

/-- EXTU (R296). -/
def execExtu (t : Nat) (gd ga : Reg) (pos lenm1 : BitVec 6) (s : State) : Out :=
  execField t 0x0C .extu gd ga pos lenm1 false s

/-- EXTS (R296). -/
def execExts (t : Nat) (gd ga : Reg) (pos lenm1 : BitVec 6) (s : State) : Out :=
  execField t 0x0C .exts gd ga pos lenm1 true s

/-- INS (R296). -/
def execInsF (t : Nat) (gd ga : Reg) (pos lenm1 : BitVec 6) (s : State) : Out :=
  execField t 0x0D .ins gd ga pos lenm1 false s

/-! ### REP (R301-R303) -/

/-- A repeatable instruction: operation, destination, first and second operand. -/
structure RepOp where
  f : Alu
  gd : Reg
  ga : Reg
  b : Src
deriving DecidableEq, Repr

/-- The three-operand functions of major 0x00 (R294). -/
def aluFn (fn : Nat) : Option Alu :=
  match fn with
  | 0x00 => some .add | 0x01 => some .sub | 0x02 => some .and | 0x03 => some .or | 0x04 => some .xor
  | 0x05 => some .andn | 0x06 => some .addw | 0x07 => some .subw | 0x08 => some .sll | 0x09 => some .srl
  | 0x0A => some .sra | 0x0B => some .ror | 0x10 => some .ceq | 0x11 => some .cne | 0x12 => some .clt
  | 0x13 => some .cltu | 0x14 => some .cle | 0x15 => some .cleu | 0x16 => some .cbs | 0x17 => some .cbc
  | 0x18 => some .min | 0x19 => some .max | 0x1A => some .minu | 0x1B => some .maxu | 0x20 => some .mul
  | 0x21 => some .mulhu | 0x22 => some .mulh
  | _ => none

/-- The one-operand functions of major 0x00, whose gb is 0. -/
def aluFn1 (fn : Nat) : Option Alu :=
  match fn with
  | 0x30 => some .bswap16 | 0x31 => some .bswap32 | 0x32 => some .bswap64
  | 0x33 => some .popc | 0x34 => some .clz | 0x35 => some .ctz
  | _ => none

/-- The instruction a REP may repeat: major 0x00 but RDLK and WRLK, or majors 0x01 to 0x0D, well encoded (R291, R302). -/
def repOp (w : W32) : Option RepOp :=
  let n := w.toNat
  let major := n / 0x4000000
  let gd : Reg := BitVec.ofNat 5 (n / 0x200000)
  let ga : Reg := BitVec.ofNat 5 (n / 0x10000)
  let gb : Reg := BitVec.ofNat 5 (n / 0x800)
  let imm : BitVec 16 := BitVec.ofNat 16 n
  let i := n % 65536
  let amt : W64 := BitVec.ofNat 64 (n % 64)
  match major with
  | 0x00 => match aluFn (n % 2048) with
    | some f => some ⟨f, gd, ga, .reg gb⟩
    | none => match aluFn1 (n % 2048) with
      | some f => if gb = 0 then some ⟨f, gd, ga, .imm 0⟩ else none
      | none => none
  | 0x01 => some ⟨.add, gd, ga, .imm (sext imm)⟩
  | 0x02 => some ⟨.and, gd, ga, .imm (zext imm)⟩
  | 0x03 => some ⟨.or, gd, ga, .imm (zext imm)⟩
  | 0x04 => some ⟨.xor, gd, ga, .imm (zext imm)⟩
  | 0x05 => some ⟨.shlor, gd, ga, .imm (zext imm)⟩
  | 0x06 =>
    if i / 256 ≠ 0 then none
    else match i / 64 with
      | 0 => some ⟨.sll, gd, ga, .imm amt⟩
      | 1 => some ⟨.srl, gd, ga, .imm amt⟩
      | 2 => some ⟨.sra, gd, ga, .imm amt⟩
      | _ => some ⟨.ror, gd, ga, .imm amt⟩
  | 0x07 => some ⟨.ceq, gd, ga, .imm (sext imm)⟩
  | 0x08 => some ⟨.cne, gd, ga, .imm (sext imm)⟩
  | 0x09 => some ⟨.clt, gd, ga, .imm (sext imm)⟩
  | 0x0A => some ⟨.cltu, gd, ga, .imm (zext imm)⟩
  | 0x0B =>
    if i / 128 ≠ 0 then none else if i / 64 = 0 then some ⟨.cbs, gd, ga, .imm amt⟩ else some ⟨.cbc, gd, ga, .imm amt⟩
  | 0x0C =>
    if i / 8192 ≠ 0 ∨ 64 < i % 64 + i / 64 % 64 + 1 then none
    else if i / 4096 = 0 then some ⟨.extu (i % 64) (i / 64 % 64 + 1), gd, ga, .imm 0⟩
    else some ⟨.exts (i % 64) (i / 64 % 64 + 1), gd, ga, .imm 0⟩
  | 0x0D =>
    if i / 4096 ≠ 0 ∨ 64 < i % 64 + i / 64 % 64 + 1 then none
    else some ⟨.ins (i % 64) (i / 64 % 64 + 1), gd, ga, .imm 0⟩
  | _ => none

/-- The REP word's fields: interruptible, register count, the count register, COUNT; none where the word is undefined
(R301). -/
def repFields (w : W32) : Option (Bool × Bool × Reg × Nat) :=
  let n := w.toNat
  let i := n / 0x2000000 % 2 = 1
  let r := n / 0x1000000 % 2 = 1
  let ga : Reg := BitVec.ofNat 5 (n / 0x10000)
  if n / 0x4000000 ≠ 0x27 ∨ n / 0x200000 % 8 ≠ 0 ∨ n / 64 % 1024 ≠ 0 then none
  else if i ∧ !r then none
  else if !r ∧ ga ≠ 0 then none
  else if r ∧ n % 64 ≠ 0 then none
  else some (i, r, ga, n % 64)

/-- `n` elements one after another. -/
def State.elements (s : State) (t : Nat) (o : RepOp) (n : Nat) : State :=
  match n with
  | 0 => s
  | n + 1 => (s.setReg t o.gd (s.aluVal t o.f o.gd o.ga o.b)).elements t o n

/-- REP (R301-R303). A non-interruptible REP runs whole; an interruptible one runs one element, and PC stays at the
prefix until the count register reads 0, so traps and halts fall between elements. -/
def execRep (t : Nat) (w nxt : W32) (s : State) : Out :=
  issue t (fun s =>
    match repFields w, repOp nxt with
    | some (i, r, ga, count), some o =>
      if r && o.gd = ga then some (s.trap t (undef w))
      else if s.regBusy t (o.gd :: o.ga :: ga :: o.b.regs) then none
      else
        let c := (s.reg t ga).toNat
        let leave := fun (s : State) => s.updThr t fun x => { x with pc := x.pc + 8 }
        if !r then some (leave (s.elements t o (count + 1)))
        else if c = 0 then some (leave s)
        else if i then
          let s1 := (s.elements t o 1).setReg t ga (s.reg t ga - 1)
          some (if c = 1 then leave s1 else s1)
        else
          let n := Nat.min c 64
          some (leave ((s.elements t o n).setReg t ga (s.reg t ga - BitVec.ofNat 64 n)))
    | _, _ => some (s.trap t (undef w))) s

/-! ### Branches, calls and jumps (R297) -/

/-- PC plus four times a signed number of words. -/
def branchTo (pc : W64) {w : Nat} (off : BitVec w) : W64 := pc + (off.signExtend 64 <<< 2)

/-- A taken branch, jump or call: PC, and a BRANCH record (R571). -/
def State.goto (s : State) (t : Nat) (pc : W64) : State :=
  (s.updThr t fun x => { x with pc := pc }).traceRec t 0 0 pc

/-- Branch when the condition holds, else fall through. -/
def State.branchIf (s : State) (t : Nat) (c : Bool) (off : BitVec 21) : State :=
  if c then s.goto t (branchTo (s.thr t).pc off) else s.advance t

/-- BZ (R297). -/
def execBz (t : Nat) (ga : Reg) (off : BitVec 21) (s : State) : Out :=
  issueRegs t [ga] (fun s => some (s.branchIf t (s.reg t ga = 0) off)) s

/-- BNZ (R297). -/
def execBnz (t : Nat) (ga : Reg) (off : BitVec 21) (s : State) : Out :=
  issueRegs t [ga] (fun s => some (s.branchIf t (s.reg t ga ≠ 0) off)) s

/-- BR (R297). -/
def execBr (t : Nat) (off : BitVec 26) (s : State) : Out :=
  issue t (fun s => some (s.goto t (branchTo (s.thr t).pc off))) s

/-- CALL (R297). -/
def execCall (t : Nat) (off : BitVec 26) (s : State) : Out :=
  issue t (fun s => some ((s.updThr t fun x => { x with lk := x.pc + 4 }).goto t (branchTo (s.thr t).pc off))) s

/-- A register jump: an unaligned target raises ALIGN at the jump (R297). -/
def State.jump (s : State) (t : Nat) (target : W64) (link : Bool) : State :=
  if target.toNat % 4 ≠ 0 then s.trap t ⟨.align, 0, target⟩
  else (s.updThr t fun x => { x with lk := if link then x.pc + 4 else x.lk }).goto t target

/-- JR (R297). -/
def execJr (t : Nat) (ga : Reg) (s : State) : Out :=
  issueRegs t [ga] (fun s => some (s.jump t (s.reg t ga) false)) s

/-- JRL (R297). -/
def execJrl (t : Nat) (ga : Reg) (s : State) : Out :=
  issueRegs t [ga] (fun s => some (s.jump t (s.reg t ga) true)) s

/-- RET (R297). -/
def execRetI (t : Nat) (s : State) : Out := issue t (fun s => some (s.jump t (s.thr t).lk false)) s

/-- JLK (R297). -/
def execJlk (t : Nat) (s : State) : Out := issue t (fun s => some (s.jump t (s.thr t).lk true)) s

/-! ### Special registers (R283, R323, R359) -/

/-- Free journal slots (R203). -/
def State.jslots (s : State) (t : Nat) : Nat := 128 - (s.tr (s.owner t)).run.used

/-- Watchdog cycles remaining of the run (R283, R284). -/
def State.wdrem (s : State) (t : Nat) : Nat := (s.tr (s.owner t)).wdBudget - (s.tr (s.owner t)).wdCount

/-- A handler special register (R283). -/
def handlerReg (n : Nat) : Bool := (0x08 ≤ n && n ≤ 0x0C) || (0x10 ≤ n && n ≤ 0x13)

/-- A number of R283 or R359 that is assigned. -/
def specialReg (n : Nat) : Bool := n ≤ 0x06 || handlerReg n || n = 0x20 || n = 0x21 || n = 0x22

/-- The value of a special register. -/
def State.special (s : State) (t n : Nat) : W64 :=
  let x := s.thr t
  match n with
  | 0x00 => BitVec.ofNat 64 (t + if s.isPool t then 2048 else 0)
  | 0x01 => x.prio.setWidth 64
  | 0x02 => x.bufsel.setWidth 64
  | 0x03 => bit x.pfctl
  | 0x04 => BitVec.ofNat 64 (s.jslots t)
  | 0x05 => BitVec.ofNat 64 (s.wdrem t)
  | 0x06 => BitVec.ofNat 64 (s.time.cycles - (s.core (coreOf t)).cycleBase)
  | 0x08 => x.tepc
  | 0x09 => x.tcause.setWidth 64
  | 0x0A => x.tdetail
  | 0x0B => x.taddr
  | 0x10 | 0x11 | 0x12 | 0x13 => SMap.get 0 x.tsave (n - 0x10)
  | 0x20 => x.evflags.setWidth 64
  | 0x21 => x.evext.setWidth 64
  | 0x22 => BitVec.ofNat 64 (s.locksHeld t)
  | _ => 0

/-- Write a special register; a write to a read-only one is ignored (R16). -/
def Thr.setSpecial (x : Thr) (n : Nat) (v : W64) : Thr :=
  match n with
  | 0x01 => { x with prio := v.setWidth 2 }
  | 0x02 => { x with bufsel := v.setWidth 32 }
  | 0x03 => { x with pfctl := v.getLsbD 0 }
  | 0x08 => { x with tepc := v }
  | 0x10 | 0x11 | 0x12 | 0x13 => { x with tsave := SMap.set 0 x.tsave (n - 0x10) v }
  | 0x20 => { x with evflags := v.setWidth 32 }
  | 0x21 => { x with evext := v.setWidth 32 }
  | _ => x

/-- MFS (R277, R323). -/
def execMfs (t : Nat) (gd : Reg) (n : BitVec 8) (s : State) : Out :=
  issueRegs t [gd] (fun s =>
    if !specialReg n.toNat then some (s.trap t (undef (wordI 0x2D gd 0 (n.setWidth 16))))
    else if handlerReg n.toNat && !(s.thr t).handler then some (s.trap t badMode)
    else some (s.result t gd (s.special t n.toNat))) s

/-- MTS (R277, R281, R323): a 1 written to TCTL.FAIL ends the run as an unresolved trap. -/
def execMts (t : Nat) (gd : Reg) (n : BitVec 8) (s : State) : Out :=
  issueRegs t [gd] (fun s =>
    if !specialReg n.toNat then some (s.trap t (undef (wordI 0x2E gd 0 (n.setWidth 16))))
    else if handlerReg n.toNat && !(s.thr t).handler then some (s.trap t badMode)
    else if n.toNat = 0x0C && (s.reg t gd).getLsbD 0 then some (s.unresolved t (s.thr t).tcause.toNat)
    else some ((s.updThr t fun x => x.setSpecial n.toNat (s.reg t gd)).advance t)) s

/-- TRET (R281, R324); after a WATCHDOG the run goes on with the grace of R285. -/
def execTret (t : Nat) (s : State) : Out :=
  issue t (fun s =>
    if !(s.thr t).handler then some (s.trap t badMode)
    else
      let s1 := s.updThr t fun x => { x with handler := false, pc := x.tepc }
      some (if (s.thr t).tcause = 7 then
        s1.updTr (s.owner t) fun x => if x.wdGrace then { x with wdBudget := 4096, wdCount := 0 } else x
      else s1)) s

/-- BREAK (R278, R325). -/
def execBreakI (t : Nat) (code : BitVec 15) (s : State) : Out :=
  issue t (fun s => some (s.trap t ⟨.brk, code.setWidth 64, 0⟩)) s

end Sys2Proof.Machine
end

