-- ==== Sys2Proof/Machine/UsothTask.lean ====
section
/-!
DEFINITION. The Usoth task, channel and ordered-section instructions, RETIRE, and the wakes of what waits in them
(R219-R226, R256-R259, R319-R322, R355-R361).
-/

namespace Sys2Proof.Machine

/-! ### WAITEV, SETEV, DELAY, PARK (R320, R321) -/

/-- WAITEV (R321). -/
def execWaitev (t : Nat) (gd ga gb : Reg) (s : State) : Out :=
  issueRegs t [gd, ga, gb] (fun s =>
    let mask : W32 := (s.reg t ga).setWidth 32
    let all := (s.reg t gb).getLsbD 0
    if mask = 0 ∨ flagsMet (s.thr t).evflags mask all then
      some ((s.clearFlags t mask).result t gd (s.flagValue t mask false))
    else some ((s.wasBusy (clusterOf t)).updTr t fun x => { x with wait := .waitev gd mask all s.dt })) s

/-- SETEV (R274, R320). -/
def execSetev (t : Nat) (ga gb : Reg) (s : State) : Out :=
  issueRegs t [ga, gb] (fun s =>
    let target := (s.reg t ga).toNat % 2048
    if clusterOf target ≠ clusterOf t then some (s.trap t badOperand)
    else if !s.released t then none
    else some ((s.setFlags target ((s.reg t gb).setWidth 32)).advance t)) s

/-- Insert a delay entry: rising wake DT, equal ones in order of insertion (R361). -/
def delayIns (l : List DelayEnt) (e : DelayEnt) : List DelayEnt :=
  match l with
  | [] => [e]
  | d :: rest => if e.wake.toNat < d.wake.toNat then e :: d :: rest else d :: delayIns rest e

/-- DELAY (R320, R361). -/
def execDelay (t : Nat) (gd ga gb : Reg) (s : State) : Out :=
  issueRegs t [gd, ga, gb] (fun s =>
    let c := clusterOf t
    let lst := (s.reg t gb).toNat / 256 % 4
    let l := SMap.get [] (s.cl c).task.lists lst
    if 1024 ≤ l.length then some (s.result t gd 1)
    else
      let e : DelayEnt := ⟨s.reg t ga, t, (s.reg t gb).setWidth 5, s.dt⟩
      some ((s.updTask c fun k => { k with lists := SMap.set [] k.lists lst (delayIns l e) }).result t gd 0)) s

/-- PARK (R321): a flag of the mask ends it at once; the time is compared at the boundaries of list 0's tick. -/
def execPark (t : Nat) (gd ga gb : Reg) (s : State) : Out :=
  issueRegs t [gd, ga, gb] (fun s =>
    let mask : W32 := (s.reg t gb).setWidth 32
    let wake := s.reg t ga
    if (s.thr t).evflags &&& mask ≠ 0 then
      some (s.result t gd (1 ||| (bit (wake ≠ 0 ∧ wake.toNat ≤ s.dt) <<< 1)))
    else some ((s.wasBusy (clusterOf t)).updTr t fun x => { x with wait := .park gd wake mask, parkDt := s.dt })) s

/-- WAITEV_WAKE: the flags satisfy the mask of a thread that waits in WAITEV (R321). -/
def execWaitevWake (t : Nat) (s : State) : Out :=
  match (s.tr t).wait with
  | .waitev gd mask all _ =>
    if flagsMet (s.thr t).evflags mask all then done ((s.wakeFlags t gd mask false).stepCheck t) else done s
  | _ => done s

/-- The tick exponent of a delay list (R362). -/
def TaskSt.tick (k : TaskSt) (lst : Nat) : Nat :=
  match lst with
  | 0 => k.tick0
  | 1 => k.tick1
  | 2 => k.tick2
  | _ => k.tick3

/-- A boundary of the list's tick has come, at or after the wake DT, since the wake was asked for and since the tick
applies (R320, R361, R362). -/
def State.boundary (s : State) (cl lst wake born : Nat) : Bool :=
  let k := (s.cl cl).task
  let edge := s.dt / 2 ^ k.tick lst * 2 ^ k.tick lst
  decide (wake ≤ edge) && decide (born < edge) && decide (SMap.get 0 k.tickDt lst < edge)

/-- PARK_WAKE: a flag of the mask, or the wake DT at a boundary of list 0's tick (R321, R361). -/
def execParkWake (t : Nat) (s : State) : Out :=
  match (s.tr t).wait with
  | .park gd wake mask =>
    let flag := (s.thr t).evflags &&& mask ≠ 0
    let time := wake ≠ 0 ∧ (s.boundary (clusterOf t) 0 wake.toNat (s.tr t).parkDt
      ∨ (wake.toNat ≤ s.time.stepDt ∧ (s.tr t).parkDt < s.time.stepDt))
    if flag ∨ time then done (((s.wakeThread t).complete t gd (bit flag ||| (bit time <<< 1))).stepCheck t) else done s
  | _ => done s

/-- DELAY_TICK: at a boundary of a list's tick every due entry sets its flag, in list order (R361). -/
def execDelayTick (cluster lst : Nat) (s : State) : Out :=
  let l := SMap.get [] (s.cl cluster).task.lists lst
  let due := fun (d : DelayEnt) => s.boundary cluster lst d.wake.toNat d.born
  let s1 := s.updTask cluster fun k => { k with lists := SMap.set [] k.lists lst (l.filter fun d => !due d) }
  done ((l.filter due).foldl (fun acc d => acc.setFlags d.t (BitVec.ofNat 32 (2 ^ d.flag.toNat))) s1)

/-! ### FORK, JOIN, END (R256-R259) -/

/-- The lowest-numbered free pool thread of a core (R256). -/
def State.freePool (s : State) (core : Nat) : Option Nat :=
  (coreThreads core).find? fun u => s.isPool u && (s.tr u).parent.isNone && (s.tr u).halted.isNone && !s.inReset u

/-- FORK (R256, R257, R320): the parent's waiting stores leave first, so that the child sees them. -/
def execFork (t : Nat) (gd ga gb : Reg) (s : State) : Out :=
  issueRegs t [gd, ga, gb] (fun s =>
    let entry := s.reg t ga
    if entry.toNat % 4 ≠ 0 then some (s.trap t ⟨.align, 0, entry⟩)
    else if (s.tr t).parent.isSome then some (s.result t gd 0)
    else match s.freePool (coreOf t) with
      | none => some (s.result t gd 0)
      | some u =>
        if !(s.tr t).sb.isEmpty then none
        else
          let p := s.thr t
          let s1 := s.updThr u fun x => { x with
            regs := SMap.set 0 [] 1 (s.reg t gb), lk := 0, pc := entry, handler := false
            prio := p.prio, bufsel := p.bufsel, pfctl := true }
          let s2 := s1.updTr u fun x => { x with
            parent := some t, wait := .none, run := {}, children := []
            lkps := [], late := none, stalled := false, str := none, gran := [], staged := none, starve := 0 }
          let s3 := s2.updTr t fun x => { x with
            children := (x.children.filter fun c => c.t ≠ u) ++ [⟨u, none⟩] }
          some (s3.result t gd (BitVec.ofNat 64 (u % 8 + 1)))) s

/-- The child a handle names in a thread's run (R258). -/
def State.child (s : State) (t : Nat) (h : W64) : Option Child :=
  if h.toNat = 0 ∨ 8 < h.toNat then none
  else (s.tr t).children.find? fun c => c.t % 8 + 1 = h.toNat

/-- JOIN (R258). -/
def execJoin (t : Nat) (gd ga : Reg) (s : State) : Out :=
  issueRegs t [gd, ga] (fun s =>
    match s.child t (s.reg t ga) with
    | none => some (s.trap t ⟨.order, 2, 0⟩)
    | some c => match c.ended with
      | some v => some (s.result t gd v)
      | none => some ((s.wasBusy (clusterOf t)).updTr t fun x => { x with wait := .join gd (s.reg t ga).toNat })) s

/-- JOIN_WAKE: the child has executed END (R258). -/
def execJoinWake (t : Nat) (s : State) : Out :=
  match (s.tr t).wait with
  | .join gd h =>
    match s.child t (BitVec.ofNat 64 h) with
    | some c => match c.ended with
      | some v => done ((s.complete t gd v).stepCheck t)
      | none => done s
    | none => done s
  | _ => done s

/-- END (R258, R274, R320, R354, R357). -/
def execEndI (t : Nat) (s : State) : Out :=
  issueRegs t [1] (fun s =>
    match (s.tr t).parent with
    | none => some (s.trap t ⟨.order, 5, 0⟩)
    | some p =>
      if !s.released t then none
      else
        let v := s.reg t 1
        let s1 := s.updTr p fun x => { x with
          children := x.children.map fun c => if c.t = t then { c with ended := some v } else c }
        some (((s1.quiet t).abandonAll (.thread t)).updTr t fun x => { x with parent := none })) s

/-! ### Channels (R322, R355, R356) -/

/-- Free words of a channel: 32 less published and reserved words (R356). -/
def Chan.free (c : Chan) : Nat := 32 - total (c.msgs.map fun m => m.words.length + m.read) - 8 * c.stagers.length

/-- The channel a register names, or none when it is out of range (R322). -/
def chanNo (v : W64) : Option Nat := if v.toNat < 256 then some v.toNat else none

/-- A first CHPUT reserves 8 words and stages its word. -/
def State.stage (s : State) (t n : Nat) (w : W64) : State :=
  let c := clusterOf t
  (s.setChan c n { s.chan c n with
    stagers := (s.chan c n).stagers ++ [t], producers := (s.chan c n).producers.filter (· ≠ t) }).updTr t
      fun x => { x with staged := some (n, [w]) }

/-- CHPUT (R322, R355). -/
def execChput (t : Nat) (gd ga gb : Reg) (s : State) : Out :=
  issueRegs t [gd, ga, gb] (fun s =>
    match chanNo (s.reg t ga) with
    | none => some (s.trap t badOperand)
    | some n =>
      let w := s.reg t gb
      match (s.tr t).staged with
      | some (m, ws) =>
        if m ≠ n then some (s.result t gd 2)
        else if 8 ≤ ws.length then some (s.result t gd 1)
        else some ((s.updTr t fun x => { x with staged := some (n, ws ++ [w]) }).result t gd 0)
      | none =>
        let c := s.chan (clusterOf t) n
        if 8 ≤ c.free ∧ c.producers.isEmpty then some ((s.stage t n w).result t gd 0)
        else some (((s.wasBusy (clusterOf t)).setChan (clusterOf t) n { c with producers := c.producers ++ [t] }).updTr t
          fun x => { x with wait := .chput gd n w })) s

/-- CHPUT_RESERVE_WAKE: the first waiting producer finds 8 free words (R355). -/
def execChputReserveWake (t : Nat) (s : State) : Out :=
  match (s.tr t).wait with
  | .chput gd n w =>
    let c := s.chan (clusterOf t) n
    if 8 ≤ c.free ∧ c.producers.head? = some t then done (((s.stage t n w).complete t gd 0).stepCheck t) else done s
  | _ => done s

/-- CHEND (R274, R322, R355). -/
def execChend (t : Nat) (gd ga : Reg) (s : State) : Out :=
  issueRegs t [gd, ga] (fun s =>
    match chanNo (s.reg t ga) with
    | none => some (s.trap t badOperand)
    | some n =>
      match (s.tr t).staged with
      | some (m, ws) =>
        if m ≠ n then some (s.result t gd 3)
        else if !s.released t then none
        else
          let c := s.chan (clusterOf t) n
          let s1 := s.setChan (clusterOf t) n { c with
            stagers := c.stagers.filter (· ≠ t), msgs := c.msgs ++ [⟨ws, 0, none⟩] }
          some ((s1.updTr t fun x => { x with staged := none }).result t gd 0)
      | none => some (s.result t gd 3)) s

/-- The place of the message a thread reads from: the one bound to it, else the first that is not bound (R356). -/
def Chan.source (c : Chan) (t : Nat) : Option Nat :=
  match c.msgs.findIdx? fun m => m.bound = some t with
  | some k => some k
  | none => c.msgs.findIdx? fun m => m.bound.isNone

/-- Read the next word of message `k` for a thread; reading the last word frees the message (R356). -/
def State.readMsg (s : State) (t n k : Nat) : State × W64 :=
  let c := s.chan (clusterOf t) n
  match c.msgs[k]? with
  | none => (s, 0)
  | some m =>
    let c1 := { c with consumers := c.consumers.filter (· ≠ t) }
    let c2 := if m.words.length ≤ 1 then { c1 with msgs := c.msgs.eraseIdx k }
      else { c1 with msgs := modAt c.msgs k fun m =>
        { m with words := m.words.drop 1, read := m.read + 1, bound := some t } }
    (s.setChan (clusterOf t) n c2, m.words.headD 0)

/-- CHGET (R322, R356). -/
def execChget (t : Nat) (gd ga : Reg) (s : State) : Out :=
  issueRegs t [gd, ga] (fun s =>
    match chanNo (s.reg t ga) with
    | none => some (s.trap t badOperand)
    | some n =>
      let c := s.chan (clusterOf t) n
      let mine := c.msgs.any fun m => m.bound = some t
      match c.source t with
      | some k =>
        if mine ∨ c.consumers.isEmpty then
          let r := s.readMsg t n k
          some (r.1.result t gd r.2)
        else some (((s.wasBusy (clusterOf t)).setChan (clusterOf t) n { c with consumers := c.consumers ++ [t] }).updTr t
          fun x => { x with wait := .chget gd n })
      | none => some (((s.wasBusy (clusterOf t)).setChan (clusterOf t) n { c with consumers := c.consumers ++ [t] }).updTr t
          fun x => { x with wait := .chget gd n })) s

/-- CHGET_WAKE: the first waiting consumer finds a word (R356). -/
def execChgetWake (t : Nat) (s : State) : Out :=
  match (s.tr t).wait with
  | .chget gd n =>
    let c := s.chan (clusterOf t) n
    match c.source t with
    | some k =>
      if c.consumers.head? = some t then
        let r := s.readMsg t n k
        done ((r.1.complete t gd r.2).stepCheck t)
      else done s
    | none => done s
  | _ => done s

/-- CHPOLL (R322). -/
def execChpoll (t : Nat) (gd ga : Reg) (s : State) : Out :=
  issueRegs t [gd, ga] (fun s =>
    match chanNo (s.reg t ga) with
    | none => some (s.trap t badOperand)
    | some n =>
      let c := s.chan (clusterOf t) n
      let (unread, started) := match c.msgs.head? with
        | some m => (m.words.length, decide (m.read ≠ 0))
        | none => (0, false)
      some (s.result t gd (BitVec.ofNat 64 unread ||| (bit started <<< 4) ||| (BitVec.ofNat 64 c.free <<< 5)))) s

/-- CH_STATUS (R358). -/
def Chan.status (c : Chan) : W64 :=
  let started := match c.msgs.head? with
    | some m => m.bound.isSome
    | none => false
  BitVec.ofNat 64 (total (c.msgs.map fun m => m.words.length) + 64 * (8 * c.stagers.length)
    + 4096 * c.msgs.length + 2 ^ 18 * (if started then 1 else 0) + 2 ^ 19 * c.stagers.length)

/-! ### Ordered sections (R220-R222, R319) -/

/-- A packet has passed a section (R220). -/
def State.passed (s : State) (q n : Nat) : Bool :=
  (s.rc q).heldFrag || (s.pkt q).refusal.isSome ||
  (match (s.pkt q).st with
    | .run t => (s.tr t).run.passed.contains n
    | .waitStore _ | .pending | .finished => true
    | _ => false)

/-- Every earlier packet of the domain has passed the section; a held fragment enters at once (R220, R223). -/
def State.mayEnter (s : State) (p n : Nat) : Bool :=
  (s.rc p).heldFrag || (s.domPkts (s.pkt p).domain).all fun q =>
    !seqBefore (s.pkt q).seq (s.pkt p).seq || s.passed q n

def State.updRun (s : State) (t : Nat) (f : RunSt → RunSt) : State := s.updTr t fun x => { x with run := f x.run }

def State.enterSection (s : State) (t n : Nat) : State := s.updRun t fun r => { r with held := r.held ++ [n] }

/-- ORDER_ENTER (R220-R223, R259). -/
def execOrderEnter (t : Nat) (n : BitVec 2) (s : State) : Out :=
  issue t (fun s =>
    if (s.tr t).parent.isSome then some (s.trap t ⟨.order, 3, 0⟩)
    else if (s.tr t).run.held.any fun m => n.toNat ≤ m then some (s.trap t ⟨.order, 0, 0⟩)
    else if s.mayEnter ((s.curPkt t).getD 0) n.toNat then some ((s.enterSection t n.toNat).advance t)
    else some (s.updTr t fun x => { x with wait := .orderEnter n.toNat, enterDt := s.dt })) s

/-- ORDER_ENTER_WAKE: every earlier packet has passed (R220). -/
def execOrderEnterWake (t : Nat) (s : State) : Out :=
  match (s.tr t).wait with
  | .orderEnter n =>
    if s.mayEnter ((s.curPkt t).getD 0) n then done (((s.enterSection t n).complete t 0 0).stepCheck t) else done s
  | _ => done s

/-- ORDER_EXIT (R220, R221, R259). -/
def execOrderExit (t : Nat) (n : BitVec 2) (s : State) : Out :=
  issue t (fun s =>
    if (s.tr t).parent.isSome then some (s.trap t ⟨.order, 3, 0⟩)
    else if !(s.tr t).run.held.contains n.toNat then some (s.trap t ⟨.order, 1, 0⟩)
    else some ((s.updRun t fun r => { r with
      held := r.held.filter (· ≠ n.toNat)
      passed := if r.passed.contains n.toNat then r.passed else r.passed ++ [n.toNat] }).advance t)) s

/-! ### RETIRE (R208, R209, R319) -/

/-- RETIRE has completed: the thread's next slot (R196, R354, R357). -/
def State.retireDone (s : State) (t : Nat) : State :=
  let s1 := s.updThr t fun x => { x with handler := false }
  (((s1.lockAtEnd t).stopChildren t).quiet t).nextSlot t

/-- RETIRE (R26, R208, R209, R259, R274, R319). -/
def execRetire (t : Nat) (reason : BitVec 2) (s : State) : Out :=
  issue t (fun s =>
    if reason = 3 then some (s.trap t (undef (wordA 0x2A 0 0 0 (0x200 + reason.toNat))))
    else if (s.tr t).parent.isSome || (s.tr t).children.any fun c => c.ended.isNone then
      some (s.trap t ⟨.order, 4, 0⟩)
    else if !s.released t then none
    else
      let p := (s.curPkt t).getD 0
      let run := (s.tr t).run
      let s0 := s.traceRec t 3 reason.toNat (s.runId p)
      if (s0.pkt p).refusal.isSome then
        some (((((s0.freeProv p run).dropVers p).endRefused p).retireDone t))
      else
        let s1 := s0.storePut p (some t) { run with held := [] } reason.toNat none
        if (s1.pkt p).st = .pending then some (s1.retireDone t)
        else some (s1.updTr t fun x => { x with run := {}, wait := .store })) s

/-- PENDING_STORE_ROOM: the first journal that waits and finds room it may use enters the store (R209); the RETIRE of a halted
thread waits for the resume (R244, R563). -/
def execPendingStoreRoom (s : State) : Out :=
  match s.order.storeWait.find? fun w => (s.storeRoom w.pkt w.run.used).isSome && (match w.thread with
      | some t => (s.tr t).halted.isNone
      | none => true) with
  | none => done s
  | some w =>
    let s1 := s.updOrder fun o => { o with storeWait := o.storeWait.filter fun x => x.pkt ≠ w.pkt }
    let s2 := s1.storePut w.pkt w.thread w.run w.reason w.forced
    match w.thread with
    | some t => done (s2.retireDone t)
    | none => done s2

end Sys2Proof.Machine
end

