-- ==== Sys2Proof/Machine/UsothJournal.lean ====
section
/-!
DEFINITION. The journal instructions (R203-R207, R218, R219, R259, R309-R318).
-/

namespace Sys2Proof.Machine

/-! ### Reading thread scratch -/

/-- A range lies wholly within thread scratch (R247). -/
def inScratch (a n : Nat) : Bool := 0x4000 ≤ a && a + n ≤ 0x8000

/-- The bytes of thread scratch at a thread-local address, of the run's work thread (R257). -/
def State.scratchBytes (s : State) (t a n : Nat) : List Byte :=
  (List.range n).map fun k => SMap.get 0 (s.scr (s.owner t)).bytes (a + k - 0x4000)

/-- Some word of the range is poisoned (R276). -/
def State.scratchPoisoned (s : State) (t a n : Nat) : Bool :=
  (s.scr (s.owner t)).poison.any fun w => w * 8 < a + n - 0x4000 && a - 0x4000 < w * 8 + 8

/-- 64-bit words of thread scratch. -/
def State.scratchWords (s : State) (t a n : Nat) : List W64 :=
  (List.range n).map fun k => BitVec.ofNat 64 (leVal (s.scratchBytes t (a + 8 * k) 8))

/-- A thread-local access overlaps the result area of an outstanding lookup (R311). -/
def State.lkpOverlap (s : State) (t a n : Nat) : Bool :=
  (s.tr t).lkps.any fun l => l.res < a + n && a < l.res + l.len

/-! ### Appending -/

/-- Append an entry that takes `need` slots; gd gets the header slot's index (R203, R309). -/
def State.append (s : State) (t : Nat) (gd : Reg) (need copies : Nat) (e : JEntry) : State :=
  let run := (s.tr t).run
  (s.updRun t fun r => { r with journal := r.journal ++ [e], used := r.used + need, copies := r.copies + copies }).result
    t gd (BitVec.ofNat 64 run.used)

/-- What every journal instruction checks first, in the order of R279: a child misuses it, then its operands, then the
journal's room (R207, R259, R309), then the poison of the block of thread scratch that it reads, `src` its address and
length (R276). It waits while that block overlaps the result area of an outstanding lookup (R311). -/
def journalFrom (t : Nat) (rs : List Reg) (ok : State → Bool) (full : State → Option Nat) (src : State → Nat × Nat)
    (body : State → State) (s : State) : Out :=
  issueRegs t rs (fun s =>
    if (s.tr t).parent.isSome then some (s.trap t ⟨.order, 3, 0⟩)
    else if !ok s then some (s.trap t badOperand)
    else if (src s).2 ≠ 0 ∧ s.lkpOverlap t (src s).1 (src s).2 then none
    else match full s with
      | some c => some (s.trap t ⟨.journalFull, BitVec.ofNat 64 c, 0⟩)
      | none =>
        if (src s).2 ≠ 0 ∧ s.scratchPoisoned t (src s).1 (src s).2 then
          some (s.trap t ⟨.poison, 1, BitVec.ofNat 64 (src s).1⟩)
        else some (body s)) s

/-- A journal instruction that reads no scratch. -/
def journalOp (t : Nat) (rs : List Reg) (ok : State → Bool) (full : State → Option Nat) (body : State → State)
    (s : State) : Out :=
  journalFrom t rs ok full (fun _ => (0, 0)) body s

/-- JOURNAL_FULL of an entry of `need` slots that adds copies: case 0 SLOTS, 2 COPY_LIMIT (R207). -/
def State.full (s : State) (t need copies : Nat) : Option Nat :=
  if 128 < (s.tr t).run.used + need then some 0
  else if 255 ≤ (s.tr t).run.copies ∧ copies ≠ 0 then some 2
  else none

/-! ### JEMIT (R205, R313) -/

/-- ESLOTS plus TIMED: the entry's EXT. -/
def emitExt (a : W64) : Nat := fld a 56 5 + fld a 50 1

/-- The operand checks of JEMIT. -/
def emitOk (a b : W64) : Bool :=
  fld a 0 32 < 524288 && (fld a 48 1 = 0 || fld a 32 16 < 16384) && fld a 51 5 ≤ 16 && fld a 56 5 ≤ 16
    && emitExt a ≤ 16 && fld a 61 3 = 0
    && (if emitExt a = 0 then b.toNat = 0 else b.toNat % 16 = 0 && inScratch b.toNat (16 * emitExt a))

/-- The copies an emission counts: one, or the group's size (R313). -/
def State.emitCopies (s : State) (a : W64) : Nat :=
  if fld a 48 1 = 1 then (SMap.get [] s.egress.mcGroups (fld a 32 14)).length else 1

/-- The entry of a JEMIT. -/
def State.emitEntry (s : State) (t : Nat) (a b : W64) : JEntry :=
  let timed := fld a 50 1 = 1
  let rel := if timed then some (leVal (s.scratchBytes t b.toNat 8)) else none
  let o := if timed then b.toNat + 16 else b.toNat
  .emit (s.tr t).run.used (fld a 0 32) (fld a 32 16) (fld a 48 1 = 1) (fld a 49 1 = 1) rel (fld a 51 5)
    (s.scratchBytes t o (16 * fld a 56 5))

/-- JEMIT (R313). -/
def execJemit (t : Nat) (gd ga gb : Reg) (s : State) : Out :=
  journalFrom t [gd, ga, gb] (fun s => emitOk (s.reg t ga) (s.reg t gb))
    (fun s => s.full t (1 + emitExt (s.reg t ga)) (s.emitCopies (s.reg t ga)))
    (fun s => ((s.reg t gb).toNat, 16 * emitExt (s.reg t ga)))
    (fun s => s.append t gd (1 + emitExt (s.reg t ga)) (s.emitCopies (s.reg t ga))
      (s.emitEntry t (s.reg t ga) (s.reg t gb))) s

/-! ### JDELIV (R314) -/

def delivOk (a b : W64) : Bool :=
  fld a 0 32 < 524288 && fld a 40 24 = 0 && fld b 30 34 = 0
    && (fld b 16 14 = 0 || (64 ≤ fld b 16 14 && fld b 16 14 ≤ 10240))

/-- JDELIV (R314). -/
def execJdeliv (t : Nat) (gd ga gb : Reg) (s : State) : Out :=
  journalOp t [gd, ga, gb] (fun s => delivOk (s.reg t ga) (s.reg t gb)) (fun s => s.full t 1 1)
    (fun s =>
      let a := s.reg t ga
      let b := s.reg t gb
      s.append t gd 1 1 (.deliver (s.tr t).run.used (fld a 0 32) (fld a 32 1 = 1) (fld a 33 1 = 1) (fld a 34 6)
        (fld b 0 16) (fld b 16 14))) s

/-! ### JCNT and JLEDG (R206, R315) -/

/-- The slot index of an entry. -/
def JEntry.slot : JEntry → Nat
  | .emit k .. | .deliver k .. | .count k .. | .ledger k .. | .table k .. | .context k .. | .free k .. => k

/-- The entry merges with one like it: its increments are added (R206). -/
def JEntry.merge (e new : JEntry) : Option JEntry :=
  match e, new with
  | .count k c f p b, .count _ c' f' p' b' =>
    if c = c' ∧ f = f' then some (.count k c f ((p + p') % 2 ^ 24) (b + b')) else none
  | .ledger k a c f x r v, .ledger _ a' c' f' x' r' v' =>
    if a = a' ∧ c = c' ∧ f = f' ∧ x = x' ∧ r = r' then some (.ledger k a c f x r (v + v')) else none
  | _, _ => none

/-- The journal with a new entry merged into the first that takes it, and that entry's slot. -/
def mergeInto (j : List JEntry) (new : JEntry) : Option (List JEntry × Nat) :=
  match j with
  | [] => none
  | e :: rest => match e.merge new with
    | some e' => some (e' :: rest, e.slot)
    | none => (mergeInto rest new).map fun r => (e :: r.1, r.2)

/-- Merge the entry, or append it in one slot (R206). -/
def State.mergeOrAppend (s : State) (t : Nat) (gd : Reg) (e : JEntry) : State :=
  match mergeInto (s.tr t).run.journal e with
  | some (j, k) => (s.updRun t fun r => { r with journal := j }).result t gd (BitVec.ofNat 64 k)
  | none => s.append t gd 1 0 e

/-- JOURNAL_FULL of an entry that may merge. -/
def State.mergeFull (s : State) (t : Nat) (e : JEntry) : Option Nat :=
  if (mergeInto (s.tr t).run.journal e).isSome then none else s.full t 1 0

def State.countEntry (s : State) (t : Nat) (a b : W64) : JEntry :=
  .count (s.tr t).run.used (fld a 0 22) (fld a 22 1 = 1) (fld a 40 24) b

/-- JCNT (R315). -/
def execJcnt (t : Nat) (gd ga gb : Reg) (s : State) : Out :=
  journalOp t [gd, ga, gb] (fun s => fld (s.reg t ga) 23 17 = 0)
    (fun s => s.mergeFull t (s.countEntry t (s.reg t ga) (s.reg t gb)))
    (fun s => s.mergeOrAppend t gd (s.countEntry t (s.reg t ga) (s.reg t gb))) s

def State.ledgEntry (s : State) (t : Nat) (a b : W64) : JEntry :=
  .ledger (s.tr t).run.used (fld a 0 16) (fld a 16 4) (fld a 20 1 = 1) (fld a 21 1 = 1) (fld a 22 7) b

/-- EMIT_REF names an EMIT or EMIT_MC entry of this run. -/
def State.emitRef (s : State) (t k : Nat) : Bool :=
  (s.tr t).run.journal.any fun e => match e with
    | .emit j .. => j = k
    | _ => false

def State.ledgOk (s : State) (t : Nat) (a : W64) : Bool :=
  fld a 29 35 = 0 && (if fld a 21 1 = 1 then s.emitRef t (fld a 22 7) else fld a 22 7 = 0)

/-- JLEDG (R315). -/
def execJledg (t : Nat) (gd ga gb : Reg) (s : State) : Out :=
  journalOp t [gd, ga, gb] (fun s => s.ledgOk t (s.reg t ga))
    (fun s => s.mergeFull t (s.ledgEntry t (s.reg t ga) (s.reg t gb)))
    (fun s => s.mergeOrAppend t gd (s.ledgEntry t (s.reg t ga) (s.reg t gb))) s

/-! ### JTBL (R316) -/

def tblLen (a : W64) : Nat := fld a 16 4 + fld a 20 4
def tblExt (a : W64) : Nat := (fld a 16 4 + 1) / 2 + (fld a 20 4 + 1) / 2

def tblOk (a b : W64) : Bool :=
  fld a 24 40 = 0 && 1 ≤ fld a 16 4 && fld a 16 4 ≤ 8 && fld a 20 4 ≤ 8
    && (fld a 12 4 = 1 || fld a 12 4 = 2 || fld a 12 4 = 3 || fld a 12 4 = 6)
    && b.toNat % 8 = 0 && inScratch b.toNat (8 * tblLen a)

/-- JTBL (R316). -/
def execJtbl (t : Nat) (gd ga gb : Reg) (s : State) : Out :=
  journalFrom t [gd, ga, gb] (fun s => tblOk (s.reg t ga) (s.reg t gb))
    (fun s => s.full t (1 + tblExt (s.reg t ga)) 0) (fun s => ((s.reg t gb).toNat, 8 * tblLen (s.reg t ga)))
    (fun s =>
      let a := s.reg t ga
      let b := (s.reg t gb).toNat
      s.append t gd (1 + tblExt a) 0 (.table (s.tr t).run.used (fld a 0 12) (fld a 12 4) (fld a 16 4) (fld a 20 4)
        (s.scratchWords t b (fld a 16 4)) (s.scratchWords t (b + 8 * fld a 16 4) (fld a 20 4)))) s

/-! ### JCTX (R206, R207, R218, R219, R234, R317) -/

/-- The distinct contexts of a journal. -/
def ctxCount (j : List JEntry) : Nat :=
  (j.filter fun e => match e with
    | .context .. => true
    | _ => false).length

def ctxSlot (j : List JEntry) (ctx : Nat) : Option Nat :=
  match j with
  | [] => none
  | .context k c _ :: rest => if c = ctx then some k else ctxSlot rest ctx
  | _ :: rest => ctxSlot rest ctx

/-- JOURNAL_FULL of a JCTX: case 1 for a fifth context, 0 for want of a slot (R207, R317). -/
def State.ctxFull (s : State) (t ctx : Nat) : Option Nat :=
  if (ctxSlot (s.tr t).run.journal ctx).isSome then none
  else if 4 ≤ ctxCount (s.tr t).run.journal then some 1
  else s.full t 1 0

/-- The CONTEXT entry gets the quarter in its QMASK, or is appended. -/
def State.ctxEntry (s : State) (t : Nat) (gd : Reg) (ctx q : Nat) : State :=
  match ctxSlot (s.tr t).run.journal ctx with
  | some k =>
    (s.updRun t fun r => { r with journal := r.journal.map fun e => match e with
      | .context j c m => if c = ctx then .context j c (m ||| 2 ^ q) else .context j c m
      | e => e }).result t gd (BitVec.ofNat 64 k)
  | none => s.append t gd 1 0 (.context (s.tr t).run.used ctx (2 ^ q))

/-- Write a quarter of the run's provisional version; inside a section its forwarded contents too, and whoever has
read the old ones is cascaded (R219, R234). A refused packet's and a held fragment's writes are never forwarded
(R26, R223). -/
def State.writeVer (s : State) (t ctx q : Nat) (bytes : List Byte) : State :=
  let p := (s.curPkt t).getD 0
  let fwd := !(s.tr t).run.held.isEmpty && (s.pkt p).refusal.isNone && !(s.rc p).heldFrag
  let old := s.tables.vers.find? fun v => v.ctx = ctx && v.q = q && v.pkt = p
  let oldFwd := match old with
    | some v => v.fwd
    | none => none
  let v : CtxVer := ⟨ctx, q, p, bytes, if fwd then some bytes else oldFwd⟩
  let s1 := { s with tables := { s.tables with
    vers := s.tables.vers.filter (fun v => !(v.ctx = ctx && v.q = q && v.pkt = p)) ++ [v] } }
  if fwd then
    let hit := (s.order.pkts.map Prod.fst).filter fun r => r ≠ p && (s.pkt r).refusal.isNone && (match s.runOf r with
      | some run => run.reads.contains (ctx * 4 + q, p)
      | none => false)
    let all := s1.cascadeSet hit [] (s1.order.pkts.length * s1.order.pkts.length + 1)
    (hit ++ all.filter fun r => !hit.contains r).foldl (fun acc r =>
      (acc.redo1 r .cascade).updCnt fun c => { c with cascades := c.cascades + 1 }) s1
  else s1

/-- JCTX (R317). -/
def execJctx (t : Nat) (gd ga gb : Reg) (s : State) : Out :=
  journalFrom t [gd, ga, gb]
    (fun s => fld (s.reg t ga) 26 38 = 0 && (s.reg t gb).toNat % 64 = 0 && inScratch (s.reg t gb).toNat 64)
    (fun s => s.ctxFull t (fld (s.reg t ga) 0 24)) (fun s => ((s.reg t gb).toNat, 64))
    (fun s =>
      let ctx := fld (s.reg t ga) 0 24
      let q := fld (s.reg t ga) 24 2
      let bytes := s.scratchBytes t (s.reg t gb).toNat 64
      (s.ctxEntry t gd ctx q).writeVer t ctx q bytes) s

/-! ### JFREE (R317) -/

/-- JFREE (R317). -/
def execJfree (t : Nat) (gd ga : Reg) (s : State) : Out :=
  journalOp t [gd, ga] (fun s => fld (s.reg t ga) 32 32 = 0) (fun s => s.full t 1 0)
    (fun s => s.append t gd 1 0 (.free (s.tr t).run.used (fld (s.reg t ga) 0 32))) s

end Sys2Proof.Machine
end

