-- ==== Sys2Proof/Machine/LocalView.lean ====
section
/-!
DEFINITION. The thread-local view (R194, R247, R257, R263): the header window, the work descriptor, the field vector,
thread scratch and the buffer window, for loads, stores, lookups and helper operations.
-/

namespace Sys2Proof.Machine

/-- What a read of the thread-local view meets. -/
inductive LvR where
  | ok (bs : List Byte)
  | stall
  | trap (x : Trap)

/-- ACCESS with TDETAIL REGION, RIGHT, WINDOW (R327). -/
def noRegion (a : Nat) : Trap := ⟨.access, 0, BitVec.ofNat 64 a⟩
def noRight (a : Nat) : Trap := ⟨.access, 1, BitVec.ofNat 64 a⟩
def badWindow (a : Nat) : Trap := ⟨.access, 2, BitVec.ofNat 64 a⟩

/-- LENGTH of the descriptor: the bytes received (R24, R26, R194). -/
def Pkt.length (k : Pkt) : Nat := k.bytes.length

/-- Bytes of a frame at an offset: those not arrived stall, unless the tail is in or the frame refused; then they
read 0 (R24, R26, R247). -/
def Pkt.window (k : Pkt) (o n : Nat) : LvR :=
  if o + n ≤ k.bytes.length ∨ k.tailIn ∨ k.refusal.isSome then .ok (slice k.bytes o n) else .stall

/-- FLAGS of the descriptor (R194). -/
def State.descFlags (s : State) (p : Nat) : Nat :=
  let r := s.rc p
  let frag := ((s.pkt p).fv.getD 0 0).toNat / 16
  (if r.poison then 1 else 0) + (if frag % 4 ≠ 0 then 2 else 0) + (if r.debug then 4 else 0)
    + (if r.cascade then 8 else 0) + (if r.heldFrag then 16 else 0) + (if r.fenced then 32 else 0)

/-- The 64 bytes of the work descriptor (R194). -/
def State.descriptor (s : State) (p : Nat) : List Byte :=
  let k := s.pkt p
  let r := s.rc p
  leBytes 4 (k.head.getD 0) ++ leBytes 2 k.length ++ leBytes 2 k.inPort ++ leBytes 8 k.sofDt ++ leBytes 2 k.domain
    ++ leBytes 1 k.cls ++ leBytes 1 r.replay ++ leBytes 4 k.seq.toNat ++ leBytes 2 r.imageVer
    ++ leBytes 2 (s.descFlags p) ++ leBytes 1 k.port ++ leBytes 1 k.well ++ leBytes 1 k.pref ++ leBytes 1 r.lastTrap
    ++ leBytes 4 k.hash.toNat ++ leBytes 4 0 ++ leBytes 8 r.dispatchDt ++ leBytes 16 0

/-- The bytes lie in a word of the buffer that shows an uncorrectable error (R263). -/
def Buf.badAt (b : Buf) (o n : Nat) : Bool := b.bad.any fun w => w * 8 < o + n && o < w * 8 + 8

/-- A read of the buffer window (R26, R263): a basin word with an uncorrectable error raises MEM_POISON with TDETAIL 0 (R327). -/
def State.windowRead (s : State) (t o n : Nat) : LvR :=
  let h := (s.thr t).bufsel.toNat
  let a := 0x8000 + o
  match s.curPkt t with
  | none => .trap (badWindow a)
  | some p =>
    let k := s.pkt p
    if k.head = some h then
      if k.refusal.isSome then .ok (List.replicate n 0)
      else if (s.buf h).any fun b => b.badAt o n then .trap ⟨.poison, 0, BitVec.ofNat 64 a⟩ else k.window o n
    else match s.buf h with
      | none => .trap (badWindow a)
      | some b =>
        let mine := b.prov = some p
        let perm := b.prov = none ∧ b.id = clusterOf t
        if b.cls = 3 ∧ (mine ∨ perm) ∧ o + n ≤ 256 * b.cells.length then
          if b.badAt o n then .trap ⟨.poison, 0, BitVec.ofNat 64 a⟩ else .ok (b.read o n)
        else .trap (badWindow a)

/-- A read of `n` bytes of the thread-local view (R247). -/
def State.localRead (s : State) (t a n : Nat) : LvR :=
  match s.curPkt t with
  | none => .trap (noRegion a)
  | some p =>
    let k := s.pkt p
    if s.lkpOverlap t a n then .stall
    else if a + n ≤ 0x100 then k.window a n
    else if 0x100 ≤ a ∧ a + n ≤ 0x140 then
      if a < 0x106 ∧ 0x104 < a + n ∧ !k.tailIn ∧ k.refusal.isNone then .stall
      else .ok (slice (s.descriptor p) (a - 0x100) n)
    else if 0x200 ≤ a ∧ a + n ≤ 0x280 then .ok (slice k.fv (a - 0x200) n)
    else if inScratch a n then
      if s.scratchPoisoned t a n then .trap ⟨.poison, 1, BitVec.ofNat 64 a⟩ else .ok (s.scratchBytes t a n)
    else if 0x8000 ≤ a ∧ a + n ≤ 0xA800 then s.windowRead t (a - 0x8000) n
    else .trap (noRegion a)

/-- A read of the thread-local view stalls on bytes or LENGTH not yet arrived (R24). -/
def State.lateRead (s : State) (t a n : Nat) : Bool :=
  !s.lkpOverlap t a n && match s.localRead t a n with
    | .stall => true
    | _ => false

/-- The thread is ready: it can issue, and its next instruction does not stall (R249, R251). -/
def State.issuable (s : State) (t : Nat) : Bool :=
  s.ready t && !(s.tr t).stalled && match (s.tr t).late with
    | some (a, n) => !s.lateRead t a n
    | none => true

/-- The range, when a read of it is late. -/
def State.lateRange (s : State) (t a n : Nat) : Option (Nat × Nat) := if s.lateRead t a n then some (a, n) else none

/-- Write bytes into thread scratch; a whole 64-bit word clears its poison (R276). -/
def State.scratchWrite (s : State) (t a : Nat) (bs : List Byte) : State :=
  let x := s.scr (s.owner t)
  let o := a - 0x4000
  let bytes := (List.range bs.length).foldl (fun m k => SMap.set 0 m (o + k) (bs.getD k 0)) x.bytes
  s.setScr (s.owner t) { bytes := bytes, poison := x.poison.filter fun w => !(o ≤ 8 * w && 8 * w + 8 ≤ o + bs.length) }

/-- What a write meets. -/
inductive StR where
  | ok (s : State)
  | stall
  | trap (x : Trap)

/-- A write to the thread-local view (R247, R263): thread scratch and provisional buffers of the run. -/
def State.localWrite (s : State) (t a : Nat) (bs : List Byte) : StR :=
  let n := bs.length
  if s.lkpOverlap t a n then .stall
  else if a + n ≤ 0x140 ∨ (0x200 ≤ a ∧ a + n ≤ 0x280) then .trap (noRight a)
  else if inScratch a n then .ok (s.scratchWrite t a bs)
  else if 0x8000 ≤ a ∧ a + n ≤ 0xA800 then
    let h := (s.thr t).bufsel.toNat
    match s.curPkt t, s.buf h with
    | some p, some b =>
      if b.cls = 3 ∧ b.prov = some p ∧ a - 0x8000 + n ≤ 256 * b.cells.length then
        .ok (s.updBuf h fun b => b.write (a - 0x8000) bs)
      else .trap (badWindow a)
    | _, _ => .trap (badWindow a)
  else .trap (noRegion a)

/-- The area of the thread-local view that a range lies wholly within: 0 header window, 1 field vector, 2 scratch,
3 buffer window (R331). -/
def localArea (a n : Nat) : Option Nat :=
  if a + n ≤ 0x100 then some 0
  else if 0x200 ≤ a ∧ a + n ≤ 0x280 then some 1
  else if inScratch a n then some 2
  else if 0x8000 ≤ a ∧ a + n ≤ 0xA800 then some 3
  else none

end Sys2Proof.Machine
end

