-- ==== Sys2Proof/Machine/Tables.lean ====
section
/-!
DEFINITION. The forwarding tables: L2, LPM, exact match, flow contexts, counters and weirs, and the operations that
act on them (R366-R400).
-/

namespace Sys2Proof.Machine

def State.updTables (s : State) (f : TableSt → TableSt) : State := { s with tables := f s.tables }

/-! ### Identifiers (R366) -/

/-- The kinds of table. -/
inductive TblKind where
  | l2 (w : Nat) | l2All | l2Ingress | lpm | em (k : Nat) | ctx | counters | weirs
deriving DecidableEq, Repr

def tblKind (t : Nat) : Option TblKind :=
  if t < 8 then some (.l2 t)
  else if t = 8 then some .l2All
  else if t = 0x10 then some .l2Ingress
  else if t = 0x20 then some .lpm
  else if 0x40 ≤ t ∧ t < 0x50 then some (.em (t - 0x40))
  else if t = 0x80 then some .ctx
  else if t = 0x90 then some .counters
  else if t = 0xA0 then some .weirs
  else none

/-- The operations of TBL_CMD that a command may name for a table (R366): 1 INSERT to 7 DIGEST_BLOCK. -/
def TblKind.cmdOk (k : TblKind) (op : Nat) : Bool :=
  match k with
  | .l2 _ | .lpm => op ≠ 6
  | .l2All => op ≤ 3
  | .l2Ingress => false
  | .em _ => true
  | .ctx | .counters => op = 5 || op = 6
  | .weirs => op = 5 || op = 6 || op = 7

/-- The operations that JTBL may name for a table (R366). -/
def TblKind.jtblOk (k : TblKind) (op : Nat) : Bool :=
  match k with
  | .l2 _ | .l2All | .em _ => 1 ≤ op && op ≤ 3
  | _ => false

/-- LKP may name the table (R366). -/
def TblKind.lkpOk (k : TblKind) : Bool :=
  match k with
  | .l2 _ | .l2Ingress | .lpm | .em _ | .ctx => true
  | _ => false

/-- RESULT codes of R395. -/
def resNotFound : TblRes := { code := 1 }
def resExists : TblRes := { code := 2 }
def resNoRoom : TblRes := { code := 3 }
def resBadArg : TblRes := { code := 4 }
def resUnsupported : TblRes := { code := 5 }
def resNoRight : TblRes := { code := 7 }
def resNoTable : TblRes := { code := 8 }

/-- The bytes of table words, each little-endian (R400). -/
def wordsBytes (ws : List W64) : List Byte := ws.flatMap fun w => leBytes 8 w.toNat

/-- Words of a byte string. -/
def bytesWords (bs : List Byte) (n : Nat) : List W64 :=
  (List.range n).map fun k => BitVec.ofNat 64 (leVal (slice bs (8 * k) 8))

/-- A value of `n` little-endian words. -/
def wordsVal (ws : List W64) : Nat := leVal (wordsBytes ws)

/-- CRC32C with another initial value and R135's final XOR. -/
def crcInit (init : W32) (bs : List Byte) : W32 := crcBytes (crcPoly false) init bs ^^^ 0xFFFFFFFF

/-! ### Errors (R399) -/

/-- Raise TABLE_ERROR, at most once per table in each 1 ms of DT. -/
def State.tableError (s : State) (tbl effect index : Nat) : State :=
  let n := SMap.get 0 s.tables.errSince tbl + 1
  let last := SMap.get 0 s.tables.errDt tbl
  let s0 := s.errCnt 12 fun e => { e with uncorrectable := e.uncorrectable + 1 }
  if last = 0 ∨ last - 1 + 1000000 ≤ s.dt then
    (s0.updTables fun x => { x with
      errDt := SMap.set 0 x.errDt tbl (s.dt + 1), errSince := SMap.set 0 x.errSince tbl 0 }).event 0x0300
      [(2, tbl), (1, (Config.effectCode effect).toNat), (4, index), (4, n)]
  else s0.updTables fun x => { x with errSince := SMap.set 0 x.errSince tbl n }

/-- The data path has changed a block (R401). -/
def State.dpTouch (s : State) (tbl index : Nat) : State :=
  s.updTables fun x => { x with dpMod := SMap.set false x.dpMod (tbl * 1048576 + index / 256) true }

/-! ### L2 (R369-R376) -/

def State.l2t (s : State) (w : Nat) : L2Tbl := SMap.get {} s.tables.l2 w
def State.setL2t (s : State) (w : Nat) (x : L2Tbl) : State := s.updTables fun t => { t with l2 := SMap.set {} t.l2 w x }
def State.updL2t (s : State) (w : Nat) (f : L2Tbl → L2Tbl) : State := s.setL2t w (f (s.l2t w))

/-- KEY0 of an L2 entry. -/
def l2Key (mac : BitVec 48) (bd : Nat) : W64 := BitVec.ofNat 64 (mac.toNat + bd * 2 ^ 48)

/-- DATA0 of an L2 entry (R370). -/
def L2Ent.data (e : L2Ent) : W64 :=
  BitVec.ofNat 64 (e.port + (if e.static then 1024 else 0) + (if e.hit then 2048 else 0)
    + (if e.report then 4096 else 0) + 65536 * e.user.toNat)

/-- The two candidate buckets: bank 0's and bank 1's (R369). -/
def l2Buckets (key : W64) : Nat × Nat :=
  let bs := leBytes 8 key.toNat
  let home := (crcInit 0x5A5A5A5A bs).toNat % 32768
  (home, home / 32 * 32 + (crcInit 0xA5A5A5A5 bs).toNat % 32)

def l2Index (bank bucket way : Nat) : Nat := bucket / 32 * 256 + bank * 128 + bucket % 32 * 4 + way

/-- The indexes of a key's candidates: the four of bank 0, then of bank 1. -/
def l2Cands (key : W64) : List Nat :=
  let b := l2Buckets key
  (List.range 4).map (l2Index 0 b.1) ++ (List.range 4).map (l2Index 1 b.2)

/-- The index of an entry. -/
def L2Tbl.find (x : L2Tbl) (mac : BitVec 48) (bd : Nat) : Option Nat :=
  (l2Cands (l2Key mac bd)).find? fun i => match SMap.get none x.ents i with
    | some e => e.mac = mac && e.bd = bd
    | none => false

/-- Where an insertion goes: the candidate with more free ways, bank 0 on a tie, the lowest free way (R369). -/
def L2Tbl.place (x : L2Tbl) (mac : BitVec 48) (bd : Nat) : Option Nat :=
  let b := l2Buckets (l2Key mac bd)
  let free := fun bank bucket => ((List.range 4).map (l2Index bank bucket)).filter fun i => (SMap.get none x.ents i).isNone
  let f0 := free 0 b.1
  let f1 := free 1 b.2
  if f0.length < f1.length then f1.head? else f0.head?

def L2Tbl.put (x : L2Tbl) (i : Nat) (e : Option L2Ent) : L2Tbl := { x with ents := SMap.set none x.ents i e }

/-- The entry that KEY0 and DATA0 spell, or none where a reserved bit is 1. -/
def l2Of (k d : W64) : Option L2Ent :=
  if k.toNat / 2 ^ 60 ≠ 0 ∨ d.toNat / 8192 % 8 ≠ 0 ∨ d.toNat / 2 ^ 32 ≠ 0 then none
  else some ⟨k.setWidth 48, k.toNat / 2 ^ 48 % 4096, d.toNat % 1024, d.getLsbD 10, true, d.getLsbD 12,
    BitVec.ofNat 16 (d.toNat / 65536)⟩

/-- The image of an L2 entry in a digest: HIT is 0 (R400). -/
def L2Ent.image (e : L2Ent) : List Byte := wordsBytes [l2Key e.mac e.bd, { e with hit := false }.data]

/-- The CRC32C sum and count of images (R400). -/
def digestOf (imgs : List (List Byte)) : W64 :=
  BitVec.ofNat 64 (total (imgs.map fun i => (crcStd false i).toNat) % 2 ^ 32 + imgs.length * 2 ^ 32)

/-- An operation on one well's L2 table. -/
def L2Tbl.op (x : L2Tbl) (op index : Nat) (keys data : List W64) : L2Tbl × TblRes :=
  if op = 5 then
    match SMap.get none x.ents index with
    | some e => (x, { index := index, keys := [l2Key e.mac e.bd], data := [e.data] })
    | none => (x, { code := 1, index := index, keys := [0], data := [0] })
  else if op = 7 then
    (x, { index := index, data := [digestOf ((List.range 256).filterMap fun k =>
      match SMap.get none x.ents (256 * index + k) with
      | some e => if e.static then some e.image else none
      | none => none)] })
  else match l2Of (keys.headD 0) (if op = 1 ∨ op = 2 then data.headD 0 else 0) with
    | none => (x, resBadArg)
    | some n => match x.find n.mac n.bd with
      | some i =>
        match SMap.get none x.ents i with
        | none => (x, resNotFound)
        | some e =>
          if op = 1 then (x, { code := if { e with hit := true } = n then 0 else 2, index := i })
          else if op = 2 then (x.put i (some { n with hit := e.hit }), { index := i })
          else if op = 3 then (x.put i none, { index := i })
          else (x, { index := i, data := [e.data] })
      | none =>
        if op = 1 then
          match x.place n.mac n.bd with
          | some i => (x.put i (some n), { index := i })
          | none => (x, resNoRoom)
        else (x, resNotFound)

/-! ### LPM (R377-R381) -/

def famBits (fam : Nat) : Nat := if fam = 0 then 32 else 128
def famDir (fam : Nat) : Nat := if fam = 0 then 16 else 32

/-- A key of the LPM table: VRF, FAMILY, LEN, address; none when it is malformed (R377). -/
def lpmKey (keys : List W64) : Option Prefix :=
  let k := (keys.headD 0).toNat
  let fam := k / 16384 % 4
  let a := (keys.getD 1 0).toNat
  if 1 < fam ∨ keys.length ≠ 2 + fam ∨ 2 ^ 24 ≤ k ∨ (fam = 0 ∧ 2 ^ 32 ≤ a) then none
  else some ⟨k % 16384, fam, k / 65536 % 256, if fam = 0 then a else a * 2 ^ 64 + (keys.getD 2 0).toNat, 0⟩

/-- LEN is in range and no address bit is set beyond it. -/
def Prefix.ok (p : Prefix) : Bool := p.len ≤ famBits p.fam && p.addr % 2 ^ (famBits p.fam - p.len) = 0

def Prefix.keys (p : Prefix) : List W64 :=
  let k0 := BitVec.ofNat 64 (p.vrf + p.fam * 16384 + p.len * 65536)
  if p.fam = 0 then [k0, BitVec.ofNat 64 p.addr]
  else [k0, BitVec.ofNat 64 (p.addr / 2 ^ 64), BitVec.ofNat 64 p.addr]

/-- The first `n` bits of an address. -/
def firstBits (fam addr n : Nat) : Nat := addr / 2 ^ (famBits fam - n)

/-- The prefix matches an address. -/
def Prefix.covers (p : Prefix) (vrf fam addr : Nat) : Bool :=
  p.vrf = vrf && p.fam = fam && firstBits fam p.addr p.len = firstBits fam addr p.len

def LpmSt.prefixes (x : LpmSt) : List (Nat × Prefix) := x.store.filterMap fun e => e.2.map fun p => (e.1, p)

/-- The longest match of an address, with its index. -/
def LpmSt.lookup (x : LpmSt) (vrf fam addr : Nat) : Option (Nat × Prefix) :=
  x.prefixes.foldl (fun best e =>
    if e.2.covers vrf fam addr then
      match best with
      | some b => if b.2.len < e.2.len then some e else best
      | none => some e
    else best) none

/-- A lookup of the address reads a damaged word (R399). -/
def LpmSt.hurt (x : LpmSt) (vrf fam addr : Nat) : Bool := x.damaged.contains (vrf, fam, firstBits fam addr (famDir fam))

/-- The VRF's default. -/
def LpmSt.default (x : LpmSt) (vrf fam : Nat) : Option (Nat × Prefix) :=
  x.prefixes.find? fun e => e.2.vrf = vrf && e.2.fam = fam && e.2.len = 0

/-- The prefix with the same VRF, family, length and address. -/
def LpmSt.find (x : LpmSt) (p : Prefix) : Option (Nat × Prefix) :=
  x.prefixes.find? fun e => { e.2 with nh := 0 } = { p with nh := 0 }

/-- The slots a prefix set takes (R379). -/
def slotsOf (ps : List Prefix) : Nat :=
  total (ps.map fun p =>
    let c := p.fam + 1
    let d := famDir p.fam
    if d ≤ p.len then c
    else if p.len = 0 then 0
    else if ps.any fun q => 1 ≤ q.len && q.len < p.len && q.covers p.vrf p.fam p.addr then 0
    else c * 2 ^ (d - p.len))

def lpmSlots : Nat := 2097152

def LpmSt.used (x : LpmSt) : Nat := slotsOf (x.prefixes.map (·.2))

/-- A free index of the prefix store: the first one from a drawn start; a /0 entry has its own (R381, log 2). -/
def LpmSt.freeIndex (x : LpmSt) (p : Prefix) (start : Nat) : Nat :=
  if p.len = 0 then lpmSlots + 2 * p.vrf + p.fam
  else
    let taken := (x.store.map (·.1)).filter (· < lpmSlots)
    let up := firstGap (taken.filter fun k => start ≤ k) start
    if up < lpmSlots then up else firstGap taken 0

/-- An operation on the LPM table; a LOOKUP that reads a damaged word answers ECC_INVALID with the VRF's default (R395,
R399, log 170). -/
def LpmSt.op (x : LpmSt) (op index start : Nat) (keys data : List W64) : LpmSt × TblRes :=
  if op = 5 then
    match SMap.get none x.store index with
    | some p => (x, { index := index, keys := p.keys, data := [p.nh.setWidth 64] })
    | none => (x, { code := 1, index := index, keys := [0, 0, 0], data := [0] })
  else if op = 7 then
    (x, { index := index, data := [digestOf ((List.range 256).filterMap fun k =>
      (SMap.get none x.store (256 * index + k)).map fun p =>
        leBytes 4 (256 * index + k) ++ wordsBytes (p.keys ++ [p.nh.setWidth 64]))] })
  else match lpmKey keys with
    | none => (x, resBadArg)
    | some p =>
      if op = 4 then
        if x.hurt p.vrf p.fam p.addr then
          match x.default p.vrf p.fam with
          | some (i, q) => (x, { code := 6, index := i, dflt := true, data := [q.nh.setWidth 64] })
          | none => (x, { code := 6 })
        else match x.lookup p.vrf p.fam p.addr with
        | some (i, q) => (x, { index := i, len := q.len, dflt := q.len = 0, data := [q.nh.setWidth 64] })
        | none => (x, resNotFound)
      else if !p.ok ∨ (op ≠ 3 ∧ 2 ^ 32 ≤ (data.headD 0).toNat) then (x, resBadArg)
      else
        let n := { p with nh := (data.headD 0).setWidth 32 }
        match x.find p with
        | some (i, q) =>
          if op = 1 then (x, { code := if q = n then 0 else 2, index := i })
          else if op = 2 then ({ x with store := SMap.set none x.store i (some n) }, { index := i })
          else ({ x with store := SMap.set none x.store i none }, { index := i })
        | none =>
          if op ≠ 1 then (x, resNotFound)
          else if lpmSlots < slotsOf (n :: x.prefixes.map (·.2)) then (x, resNoRoom)
          else
            let i := x.freeIndex n start
            ({ x with store := SMap.set none x.store i (some n) }, { index := i })

/-! ### Exact match (R382-R385) -/

def State.emt (s : State) (k : Nat) : Option EmTbl := SMap.get none s.tables.em k
def State.setEmt (s : State) (k : Nat) (x : Option EmTbl) : State :=
  s.updTables fun t => { t with em := SMap.set none t.em k x }

/-- The candidate buckets of a key (R383). -/
def EmTbl.buckets (x : EmTbl) (key : List W64) : Nat × Nat :=
  let bs := wordsBytes key
  let home := (crcInit x.seed bs).toNat % 2 ^ x.log2
  let alt := home / 64 * 64 + (crcInit (~~~x.seed) bs).toNat % 64
  (home, if alt = home then home ^^^ 1 else alt)

def EmTbl.ent (x : EmTbl) (i : Nat) : Option EmEnt := SMap.get none x.ents i
def EmTbl.put (x : EmTbl) (i : Nat) (e : Option EmEnt) : EmTbl := { x with ents := SMap.set none x.ents i e }

def EmTbl.find (x : EmTbl) (key : List W64) : Option Nat :=
  let b := x.buckets key
  ((List.range 4).map (4 * b.1 + ·) ++ (List.range 4).map (4 * b.2 + ·)).find? fun i =>
    match x.ent i with
    | some e => e.key = key
    | none => false

/-- The free ways of a bucket. -/
def EmTbl.free (x : EmTbl) (b : Nat) : List Nat := ((List.range 4).map (4 * b + ·)).filter fun i => (x.ent i).isNone

/-- One of several free ways, which one the draw says (log 2). -/
def pickOf (l : List Nat) (draw : Nat) : Option Nat := if l.isEmpty then none else l[draw % l.length]?

/-- The displacement of R383: the entry takes the way that the counter names, whose entry moves on to its other
candidate; none when no path of at most 64 kicks ends in a free way. -/
def EmTbl.displace (x : EmTbl) (e : EmEnt) (b draw fuel : Nat) : Option EmTbl :=
  match fuel with
  | 0 => none
  | n + 1 =>
    let i := 4 * b + x.kick
    match x.ent i with
    | none => none
    | some v =>
      let x1 := { x.put i (some e) with kick := (x.kick + 1) % 4 }
      let c := x.buckets v.key
      let other := if c.1 = b then c.2 else c.1
      match pickOf (x1.free other) draw with
      | some j => some (x1.put j (some v))
      | none => x1.displace v other draw n

/-- INSERT of a new key. -/
def EmTbl.insert (x : EmTbl) (e : EmEnt) (draw : Nat) : Option EmTbl :=
  let b := x.buckets e.key
  match pickOf (x.free b.1) draw with
  | some i => some (x.put i (some e))
  | none => match pickOf (x.free b.2) draw with
    | some i => some (x.put i (some e))
    | none => x.displace e b.1 draw 64

def EmTbl.op (x : EmTbl) (op index draw : Nat) (keys data : List W64) : EmTbl × TblRes :=
  if op = 5 then
    match x.ent index with
    | some e => (x, { index := index, keys := e.key, data := e.data })
    | none => (x, { code := 1, index := index, keys := List.replicate x.klen 0, data := List.replicate (7 - x.klen) 0 })
  else if op = 7 then
    (x, { index := index, data := [digestOf ((List.range 256).filterMap fun k =>
      (x.ent (256 * index + k)).map fun e => wordsBytes (e.key ++ e.data))] })
  else if op = 6 then
    let b := x.buckets keys
    if index / 4 ≠ b.1 ∧ index / 4 ≠ b.2 then (x, resBadArg)
    else
      let x1 := match x.find keys with
        | some i => x.put i none
        | none => x
      (x1.put index (some ⟨keys, data⟩), { index := index })
  else match x.find keys with
    | some i =>
      match x.ent i with
      | none => (x, resNotFound)
      | some e =>
        if op = 1 then (x, { code := if e.data = data then 0 else 2, index := i })
        else if op = 2 then (x.put i (some ⟨keys, data⟩), { index := i })
        else if op = 3 then (x.put i none, { index := i })
        else (x, { index := i, data := e.data })
    | none =>
      if op = 1 then
        match x.insert ⟨keys, data⟩ draw with
        | some x1 => (x1, { index := (x1.find keys).getD 0 })
        | none => (x, resNoRoom)
      else (x, resNotFound)

/-! ### Flow contexts (R386-R388) -/

def State.ctxQuarter (s : State) (ctx q : Nat) : List Byte :=
  match s.tables.ctxCache.find? fun l => l.ctx = ctx && l.valid.getLsbD q with
  | some l => l.quarters.getD q []
  | none => SMap.get (List.replicate 64 0) s.tables.ctxBack (4 * ctx + q)

def TableSt.setBack (x : TableSt) (k : Nat) (bs : List Byte) : TableSt :=
  { x with ctxBack := SMap.set (List.replicate 64 0) x.ctxBack k bs }

/-- Write a line's dirty quarters to HBM. -/
def TableSt.writeBack (x : TableSt) (l : CtxLine) : TableSt :=
  (List.range 4).foldl (fun acc q =>
    if l.dirty.getLsbD q then acc.setBack (4 * l.ctx + q) (l.quarters.getD q []) else acc) x

/-- The line becomes the most recently used; beyond 43,008 entries the least recently used one is evicted (R387). -/
def TableSt.ctxUse (x : TableSt) (l : CtxLine) : TableSt :=
  let rest := x.ctxCache.filter fun m => m.ctx ≠ l.ctx
  if 43008 ≤ rest.length then
    match rest with
    | v :: more => { x.writeBack v with ctxCache := more ++ [l] }
    | [] => { x with ctxCache := [l] }
  else { x with ctxCache := rest ++ [l] }

def emptyLine (ctx : Nat) : CtxLine := ⟨ctx, 0, 0, List.replicate 4 (List.replicate 64 0)⟩

/-- A quarter of a line, valid; dirty when it is written. -/
def CtxLine.setQ (l : CtxLine) (q : Nat) (bs : List Byte) (dirty : Bool) : CtxLine :=
  { l with
    valid := l.valid ||| BitVec.ofNat 4 (2 ^ q)
    dirty := if dirty then l.dirty ||| BitVec.ofNat 4 (2 ^ q) else l.dirty
    quarters := modAt l.quarters q fun _ => bs }

/-- A commit writes a quarter into the cache without fetching the rest (R387). -/
def State.ctxCommit (s : State) (ctx q : Nat) (bs : List Byte) : State :=
  s.updTables fun x =>
    let l := (x.ctxCache.find? fun l => l.ctx = ctx).getD (emptyLine ctx)
    x.ctxUse (l.setQ q bs true)

/-- A lookup makes every quarter valid, fetching from HBM under the valid ones (R387). -/
def State.ctxFetch (s : State) (ctx : Nat) : State :=
  s.updTables fun x =>
    let l := (x.ctxCache.find? fun l => l.ctx = ctx).getD (emptyLine ctx)
    x.ctxUse ((List.range 4).foldl (fun acc q =>
      if l.valid.getLsbD q then acc
      else acc.setQ q (SMap.get (List.replicate 64 0) x.ctxBack (4 * ctx + q)) false) l)

/-- WRITE_INDEX of a quarter (R388). -/
def State.ctxWrite (s : State) (ctx q : Nat) (bs : List Byte) : State :=
  s.updTables fun x =>
    match x.ctxCache.find? fun l => l.ctx = ctx with
    | some _ => { x with ctxCache := x.ctxCache.map fun l => if l.ctx = ctx then l.setQ q bs true else l }
    | none => x.setBack (4 * ctx + q) bs

/-! ### Counters (R389) -/

def State.pair' (s : State) (k : Nat) : CtrPair := SMap.get {} s.tables.counters k

/-- A COUNT entry at commit. -/
def CtrPair.add (c : CtrPair) (pkts : Nat) (bytes : W64) : CtrPair :=
  if c.resP + pkts < 2 ^ 16 ∧ c.resB + bytes.toNat < 2 ^ 32 then { c with resP := c.resP + pkts, resB := c.resB + bytes.toNat }
  else { c with
    backP := c.backP + BitVec.ofNat 64 (c.resP + pkts), backB := c.backB + BitVec.ofNat 64 c.resB + bytes, resP := 0, resB := 0 }

def State.count (s : State) (k pkts : Nat) (bytes : W64) : State :=
  s.updTables fun t => { t with counters := SMap.set {} t.counters k ((SMap.get {} t.counters k).add pkts bytes) }

/-! ### Weirs (R390-R392) -/

/-- The 256-bit image of a weir. -/
def Weir.image (w : Weir) : Nat :=
  w.mode + w.cir * 2 ^ 2 + w.pir * 2 ^ 34 + w.cbs * 2 ^ 66 + w.pbs * 2 ^ 93 + w.tc * 2 ^ 120 + w.tp * 2 ^ 156
    + w.last * 2 ^ 192

def Weir.words (w : Weir) : List W64 := (List.range 4).map fun k => BitVec.ofNat 64 (w.image / 2 ^ (64 * k))

/-- WRITE_INDEX of a weir at a DT; none for BAD_ARG (R391). -/
def weirOf (data : List W64) (dt : Nat) : Option Weir :=
  let v := wordsVal data
  let mode := v % 4
  let cir := v / 2 ^ 2 % 2 ^ 32
  let pir := v / 2 ^ 34 % 2 ^ 32
  let cbs := v / 2 ^ 66 % 2 ^ 27
  let pbs := v / 2 ^ 93 % 2 ^ 27
  if (mode = 2 ∧ pir < cir) ∨ (mode = 1 ∧ pir ≠ 0) then none
  else some { mode := mode, cir := cir, pir := pir, cbs := cbs, pbs := pbs, tc := cbs * 512, tp := pbs * 512, last := dt }

/-- The refill of R392. -/
def Weir.refill (w : Weir) (now : Nat) : Weir :=
  let e := now - w.last
  let t := w.tc + w.cir * e / 15625
  let c := w.cbs * 512
  { w with
    last := now
    tc := Nat.min t c
    tp := if w.mode = 1 then Nat.min (w.tp + (t - c)) (w.pbs * 512)
      else Nat.min (w.tp + w.pir * e / 15625) (w.pbs * 512) }

/-- The colour of a charge and what it takes from each bucket (R392): 0 GREEN, 1 YELLOW, 2 RED. -/
def Weir.charge (w : Weir) (b inCol : Nat) (aware : Bool) : Nat × Nat × Nat :=
  if w.mode = 2 then
    if (aware ∧ inCol = 2) ∨ w.tp < b then (2, 0, 0)
    else if (aware ∧ inCol = 1) ∨ w.tc < b then (1, 0, b)
    else (0, b, b)
  else if (!aware ∨ inCol = 0) ∧ b ≤ w.tc then (0, b, 0)
  else if (!aware ∨ inCol ≠ 2) ∧ b ≤ w.tp then (1, 0, b)
  else (2, 0, 0)

/-! ### One operation on any table (R366, R367, R394, R396) -/

/-- The key length of a table, given the first key word. -/
def State.tblKlen (s : State) (k : TblKind) (key0 : W64) : Nat :=
  match k with
  | .l2 _ | .l2All | .l2Ingress | .ctx => 1
  | .lpm => if key0.toNat / 16384 % 4 = 1 then 3 else 2
  | .em n => match s.emt n with
    | some x => x.klen
    | none => 0
  | .counters | .weirs => 0

/-- The data length of a table. -/
def State.tblDlen (s : State) (k : TblKind) : Nat :=
  match k with
  | .l2 _ | .l2All | .l2Ingress | .lpm => 1
  | .em n => match s.emt n with
    | some x => 7 - x.klen
    | none => 0
  | .ctx => 8
  | .counters => 2
  | .weirs => 4

/-- The indexes of a table. -/
def State.tblSize (s : State) (k : TblKind) : Nat :=
  match k with
  | .l2 _ | .l2All | .l2Ingress => 262144
  | .lpm => lpmSlots + 32768
  | .em n => match s.emt n with
    | some x => 4 * 2 ^ x.log2
    | none => 0
  | .ctx => 4 * 16777216
  | .counters => 4194304
  | .weirs => 262144

/-- KLEN and DLEN are as R394 wants them. -/
def State.lensOk (s : State) (k : TblKind) (op klen dlen : Nat) (key0 : W64) : Bool :=
  let noKey := op = 5 || op = 7 || (op = 6 && (match k with | .em _ => false | _ => true))
  let noData := op = 3 || op = 4 || op = 5 || op = 7
  let kOk := if k = .lpm ∧ noKey then klen = 2 || klen = 3 else klen = s.tblKlen k key0
  (kOk || (noKey && klen = 0)) && (dlen = s.tblDlen k || (noData && dlen = 0))

/-- An L2 operation on every well's table: the result is the first that is not OK (log 21). -/
def State.l2AllOp (s : State) (op : Nat) (keys data : List W64) : State × TblRes :=
  (List.range 8).foldl (fun acc w =>
    let r := (acc.1.l2t w).op op 0 keys data
    (acc.1.setL2t w r.1, if acc.2.code = 0 then (if w = 0 then r.2 else { acc.2 with code := r.2.code }) else acc.2))
    (s, {})

/-- Carry out an operation whose identifier, operation, lengths and index are in order. -/
def State.tblAct (s : State) (k : TblKind) (op index : Nat) (keys data : List W64) : State × TblRes :=
  match k with
  | .l2 w => let r := (s.l2t w).op op index keys data
    (s.setL2t w r.1, r.2)
  | .l2All => s.l2AllOp op keys data
  | .l2Ingress => (s, resUnsupported)
  | .lpm =>
    let d := s.draw
    let r := s.tables.lpm.op op index (d.1.toNat % lpmSlots) keys data
    (d.2.updTables fun t => { t with lpm := r.1 }, r.2)
  | .em n =>
    match s.emt n with
    | none => (s, resNoTable)
    | some x =>
      let d := s.draw
      let r := x.op op index d.1.toNat keys data
      (d.2.setEmt n (some r.1), r.2)
  | .ctx =>
    let ws := bytesWords (s.ctxQuarter (index / 4) (index % 4)) 8
    if op = 5 then (s, { index := index, keys := [BitVec.ofNat 64 (index / 4)], data := ws })
    else (s.ctxWrite (index / 4) (index % 4) (slice (wordsBytes data) 0 64), { index := index })
  | .counters =>
    let c := s.pair' index
    let sum := [c.backP + BitVec.ofNat 64 c.resP, c.backB + BitVec.ofNat 64 c.resB]
    if op = 5 then (s, { code := if c.lost then 6 else 0, index := index, data := sum })
    else
      let n : CtrPair := { backP := data.getD 0 0, backB := data.getD 1 0 }
      (s.updTables fun t => { t with counters := SMap.set {} t.counters index n }, { index := index })
  | .weirs =>
    let image := fun j => leBytes 4 j ++ wordsBytes (Weir.words { s.weir j with tc := 0, tp := 0, last := 0 })
    if op = 5 then (s, { index := index, data := (s.weir index).words })
    else if op = 7 then (s, { index := index, data := [digestOf ((List.range 256).map fun j => image (256 * index + j))] })
    else match weirOf data s.dt with
      | some w => (s.setWeir index w, { index := index })
      | none => (s, resBadArg)

/-- The checks before an operation (R366, R367, R394, R396), for a command or a commit's JTBL. -/
def State.tblCheck (s : State) (cmd : Bool) (tbl op index : Nat) (keys data : List W64) : Option TblRes :=
  match tblKind tbl with
  | none => some (if cmd then resBadArg else resUnsupported)
  | some k =>
    if op = 0 ∨ 8 ≤ op then some resBadArg
    else if !(if cmd then k.cmdOk op else k.jtblOk op) then some resUnsupported
    else if (match k with | .em n => (s.emt n).isNone | _ => false) then some resNoTable
    else if !s.lensOk k op keys.length data.length (keys.headD 0) then some resBadArg
    else if (op = 5 ∨ op = 6) ∧ s.tblSize k ≤ index then some resBadArg
    else if op = 7 ∧ s.tblSize k ≤ 256 * index then some resBadArg
    else none

/-- The whole operation. -/
def State.tblOp (s : State) (cmd : Bool) (tbl op index : Nat) (keys data : List W64) : State × TblRes :=
  match s.tblCheck cmd tbl op index keys data with
  | some r => (s, r)
  | none => match tblKind tbl with
    | some k => s.tblAct k op index keys data
    | none => (s, resBadArg)

/-- TBL_STATUS of a result, BUSY and LOST 0; bit 2 is REPEATED in a batch's result (R395, R499). -/
def TblRes.status (r : TblRes) : W64 :=
  BitVec.ofNat 64 (r.code * 16 + r.index % 2 ^ 28 * 256 + r.len % 256 * 2 ^ 36 + (if r.dflt then 2 ^ 44 else 0))

/-! ### The exact-match overlay (R384) -/

/-- A change of an exact-match table, which goes through the overlay. -/
def emChange (tbl op : Nat) : Bool := 0x40 ≤ tbl && tbl < 0x50 && (op = 1 || op = 2 || op = 3 || op = 6)

/-- Enter a change; the caller has found room. -/
def State.ovEnter (s : State) (tbl op index : Nat) (keys data : List W64) (who : Option Requester) : State :=
  s.updTables fun t => { t with ovNo := t.ovNo + 1, overlay := t.overlay ++ [⟨t.ovNo, tbl, op, index, keys, data, who, none⟩] }

/-- Count a failed JTBL (R367). -/
def State.jtblFailed (s : State) (tbl code : Nat) : State :=
  s.updTables fun t => { t with jtblFail := SMap.set 0 t.jtblFail (tbl * 16 + code) (SMap.get 0 t.jtblFail (tbl * 16 + code) + 1) }

/-- The running command that waits for an overlay entry gets its result. -/
def TblSet.setRes (x : TblSet) (id : Nat) (r : TblRes) : TblSet :=
  { x with run := x.run.map fun y => if y.ov = some id then { y with res := some r } else y }

/-- Decide one undecided change: a change that fails leaves the overlay, since nothing is to be written. -/
def State.ovDecide (s : State) (e : OvEnt) : State :=
  let r : State × TblRes := s.tblOp true e.tbl e.op e.index e.key e.data
  let s1 : State := if e.who.isNone then (if r.2.code = 0 then r.1.dpTouch e.tbl r.2.index else r.1.jtblFailed e.tbl r.2.code) else r.1
  let s2 : State := match e.who with
    | some q => s1.updTables fun t => { t with
        sets := t.sets.map fun p => (p.1, if p.1 = reqCode q then TblSet.setRes p.2 e.id r.2 else p.2) }
    | none => s1
  s2.updTables fun t => { t with
    overlay := if r.2.code = 0 then t.overlay.map fun x => if x.id = e.id then { x with done := some r.2 } else x
    else t.overlay.filter fun x => x.id ≠ e.id }

/-- Decide every undecided change, oldest first. -/
def State.ovSettle (s : State) : State := (s.tables.overlay.filter fun e => e.done.isNone).foldl State.ovDecide s

/-- A lookup of the key waits for an undecided change (R384). -/
def State.ovWaits (s : State) (tbl : Nat) (key : List W64) : Bool :=
  s.tables.overlay.any fun e => e.tbl = tbl && e.key = key && e.done.isNone

/-- A committed TABLE entry (R211, R213, R316, R367, R384). -/
def State.jtblApply (s : State) (tbl op : Nat) (keys data : List W64) : State :=
  match s.tblCheck false tbl op 0 keys data with
  | some r => s.jtblFailed tbl r.code
  | none =>
    if emChange tbl op then
      if 4096 ≤ s.tables.overlay.length then
        (s.jtblFailed tbl 3).updTables fun t => { t with ovFull := SMap.set 0 t.ovFull tbl (SMap.get 0 t.ovFull tbl + 1) }
      else s.ovEnter tbl op 0 keys data none
    else
      let r := s.tblOp false tbl op 0 keys data
      let block := (l2Cands (keys.headD 0)).headD 0
      let s1 := if tbl = 8 then (List.range 8).foldl (fun acc w =>
          if r.1.l2t w = s.l2t w then acc else acc.dpTouch w block) r.1
        else if r.2.code = 0 then r.1.dpTouch tbl r.2.index else r.1
      if r.2.code = 0 then s1 else s1.jtblFailed tbl r.2.code

/-- A change made at once for a command of the Pumphouse, with what the overlay holds decided before it (R368, R384). -/
def State.tblNow (s : State) (tbl op index : Nat) (keys data : List W64) : State × TblRes :=
  if emChange tbl op then
    let s1 := s.ovSettle
    s1.tblOp true tbl op index keys data
  else s.tblOp true tbl op index keys data

end Sys2Proof.Machine
end

