-- ==== Sys2Proof/Machine/TableRows.lean ====
section
/-!
DEFINITION. The commands of the tables: lookups, weir charges, the table command registers, the exact-match overlay,
learning and aging, the LPM rebuild and the digest scrubber (R310-R312, R366-R401).
-/

namespace Sys2Proof.Machine

/-! ### LKP (R310, R311, R367) -/

/-- Bytes of a table's lookup result. -/
def State.lkpSize (s : State) (k : TblKind) : Nat :=
  match k with
  | .ctx => 256
  | .em _ => 8 * s.tblDlen k
  | _ => 8

/-- The operand checks of LKP. -/
def State.lkpOk (s : State) (a b : W64) : Bool :=
  match tblKind (fld b 0 12) with
  | none => false
  | some k =>
    let klen := fld b 32 4
    k.lkpOk && fld b 12 4 = 0 && fld b 36 28 = 0 && 1 ≤ klen && klen ≤ 8 && a.toNat % 8 = 0
      && (match localArea a.toNat (8 * klen) with
        | some 3 => false
        | some _ => true
        | none => false)
      && fld b 16 16 % 64 = 0 && inScratch (fld b 16 16) (s.lkpSize k)

/-- LKP (R310, R311). -/
def execLkp (t : Nat) (gd ga gb : Reg) (s : State) : Out :=
  issueRegsLate t [gd, ga, gb]
    (fun s => if 4 ≤ (s.tr t).lkps.length then none else s.lateRange t (s.reg t ga).toNat (8 * fld (s.reg t gb) 32 4)) (fun s =>
    let a := s.reg t ga
    let b := s.reg t gb
    if !s.lkpOk a b then some (s.trap t badOperand)
    else if 4 ≤ (s.tr t).lkps.length then none
    else match s.localRead t a.toNat (8 * fld b 32 4) with
      | .stall => none
      | .trap x => some (s.trap t x)
      | .ok key =>
        let k := (tblKind (fld b 0 12)).getD .weirs
        let l : Lkp := ⟨(s.tr t).lkpNo, gd, fld b 0 12, key, fld b 16 16, s.lkpSize k, !(s.tr (s.owner t)).run.held.isEmpty⟩
        some ((s.updTr t fun x => { x with lkps := x.lkps ++ [l], lkpNo := x.lkpNo + 1 }).advance t)) s

/-- What a lookup answers: HIT, ERROR, gd[63:32], the result bytes. -/
structure LkpAns where
  hit : Bool
  err : Bool
  val : W32
  bytes : List Byte

def lkpMiss : LkpAns := ⟨false, false, 0, []⟩
def lkpBad : LkpAns := ⟨false, true, 0, []⟩

/-- A lookup in a well's L2 table; an error invalidates the entry (R370, R399). -/
def State.lkpL2 (s : State) (w : Nat) (key0 : W64) (err : Bool) : State × LkpAns :=
  match l2Of key0 0 with
  | none => (s, lkpBad)
  | some n =>
    let at' := (s.l2t w).find n.mac n.bd
    if err then
      let i := at'.getD ((l2Cands key0).headD 0)
      ((s.updL2t w fun x => x.put i none).tableError w 0 i, lkpBad)
    else match at' with
      | none => (s, lkpMiss)
      | some i => match SMap.get none (s.l2t w).ents i with
        | none => (s, lkpMiss)
        | some e => (s, ⟨true, false, e.data.setWidth 32, leBytes 8 e.data.toNat⟩)

/-- The result of an LPM match (R377). -/
def lpmAns (p : Prefix) (err : Bool) : LkpAns :=
  ⟨true, err, p.nh, leBytes 8 (p.nh.toNat + p.len * 2 ^ 32 + (if p.len = 0 then 2 ^ 40 else 0))⟩

/-- A lookup in the LPM table; where it reads a damaged word it answers the VRF's default (R377, R399). -/
def State.lkpLpm (s : State) (keys : List W64) (err : Bool) : State × LkpAns :=
  match lpmKey keys with
  | none => (s, lkpBad)
  | some p =>
    let dir := (p.vrf, p.fam, firstBits p.fam p.addr (famDir p.fam))
    let s1 := if err then
        (s.updTables fun t => { t with lpm := { t.lpm with damaged := dir :: t.lpm.damaged } }).tableError 0x20 1
          (((s.tables.lpm.lookup p.vrf p.fam p.addr).map (·.1)).getD 0)
      else s
    let x := s1.tables.lpm
    if x.hurt p.vrf p.fam p.addr then
      (s1, match x.default p.vrf p.fam with
        | some q => lpmAns q.2 true
        | none => lkpBad)
    else (s1, match x.lookup p.vrf p.fam p.addr with
      | some q => lpmAns q.2 false
      | none => lkpMiss)

/-- A lookup in an exact-match table (R382, R384, R399). -/
def State.lkpEm (s : State) (k : Nat) (keys : List W64) (err : Bool) : State × LkpAns :=
  match s.emt k with
  | none => (s, lkpMiss)
  | some x =>
    if keys.length ≠ x.klen then (s, lkpBad)
    else if err then
      let i := (x.find keys).getD (4 * (x.buckets keys).1)
      (((s.setEmt k (some (x.put i none))).tableError (0x40 + k) 2 i).hbmError (s.regionAddr 1 (x.base + 64 * i)) 3, lkpBad)
    else match x.find keys with
      | none => (s, lkpMiss)
      | some i => match x.ent i with
        | none => (s, lkpMiss)
        | some e => (s, ⟨true, false, (e.data.headD 0).setWidth 32, wordsBytes e.data⟩)

/-- The version a quarter is read from: the run's own, else, inside a section, the forwarded contents of the latest
earlier packet of the domain (R219, R223): the writer and the bytes. -/
def State.verOf (s : State) (p ctx q : Nat) (sec : Bool) : Option (Nat × List Byte) :=
  let vs := s.tables.vers.filter fun v => v.ctx = ctx && v.q = q
  match vs.find? fun v => v.pkt = p with
  | some v => some (p, v.own)
  | none =>
    if !sec || (s.rc p).heldFrag then none
    else
      let k := s.pkt p
      vs.foldl (fun best v =>
        let o := s.pkt v.pkt
        match v.fwd with
        | none => best
        | some bs =>
          if o.domain = k.domain && seqBefore o.seq k.seq && (match best with
              | some b => seqBefore (s.pkt b.1).seq o.seq
              | none => true) then some (v.pkt, bs) else best) none

/-- A lookup of a flow context (R219, R386, R387, R399): an error is in the quarters it fetches from HBM, or, where it
fetches none, in those it reads on die. -/
def State.lkpCtx (s : State) (t : Nat) (keys : List W64) (sec err : Bool) : State × LkpAns :=
  let c := (keys.headD 0).toNat
  if 2 ^ 24 ≤ c ∨ keys.length ≠ 1 then (s, lkpBad)
  else
    let p := (s.curPkt t).getD 0
    let vers := (List.range 4).map fun q => s.verOf p c q sec
    let need := (List.range 4).filter fun q => (vers.getD q none).isNone
    let line := s.tables.ctxCache.find? fun l => l.ctx = c
    let onDie := need.all fun q => match line with
      | some l => l.valid.getLsbD q
      | none => false
    let absent := need.filter fun q => match line with
      | some l => !l.valid.getLsbD q
      | none => true
    let bad := if onDie then need else absent
    let hurt := (bad.foldl (fun acc q => acc.ctxWrite c q (List.replicate 64 0)) s).tableError 0x80 3 c
    let s1 := if !err then s else if onDie then hurt else hurt.hbmError (s.regionAddr 0 (256 * c)) 2
    let s2 := if need.isEmpty then s1 else s1.ctxFetch c
    let bytes := (List.range 4).flatMap fun q => match vers.getD q none with
      | some v => v.2
      | none => s2.ctxQuarter c q
    let fwd := (List.range 4).filterMap fun q => match vers.getD q none with
      | some v => if v.1 = p then none else some (4 * c + q, v.1)
      | none => none
    let prov := total ((List.range 4).map fun q => if (vers.getD q none).isSome then 2 ^ (q + 1) else 0)
    (s2.updRun (s.owner t) fun r => { r with reads := r.reads ++ fwd },
      ⟨true, err, BitVec.ofNat 32 ((if onDie then 1 else 0) + prov), bytes⟩)

/-- The lookup of an outstanding LKP. -/
def State.lkpDo (s : State) (t : Nat) (l : Lkp) (err : Bool) : State × LkpAns :=
  let keys := bytesWords l.key (l.key.length / 8)
  match tblKind l.table with
  | some (.l2 w) => if keys.length = 1 then s.lkpL2 w (keys.headD 0) err else (s, lkpBad)
  | some .l2Ingress =>
    if keys.length = 1 then s.lkpL2 (s.pkt ((s.curPkt t).getD 0)).well (keys.headD 0) err else (s, lkpBad)
  | some .lpm => s.lkpLpm keys err
  | some (.em k) => s.lkpEm k keys err
  | some .ctx => s.lkpCtx t keys l.sec err
  | _ => (s, lkpBad)

/-- gd of a lookup (R310). -/
def LkpAns.gd (a : LkpAns) : W64 :=
  bit a.hit ||| (bit a.err <<< 1) ||| (BitVec.ofNat 64 (a.bytes.length / 8) <<< 8) ||| (a.val.setWidth 64 <<< 32)

/-- LKP_COMPLETE: an outstanding lookup completes; one whose key has an undecided change waits (R311, R384). -/
def execLkpComplete (t idx : Nat) (err : Bool) (s : State) : Out :=
  match (s.tr t).lkps.find? fun l => l.idx = idx with
  | none => done s
  | some l =>
    if s.ovWaits l.table (bytesWords l.key (l.key.length / 8)) then done s
    else
      let r := s.lkpDo t l err
      let s1 := (r.1.updTr t fun x => { x with lkps := x.lkps.filter fun m => m.idx ≠ idx }).unstall (coreOf t)
      done ((s1.scratchWrite t l.res r.2.bytes).setReg t l.gd r.2.gd)

/-! ### WEIR (R227, R312, R392, R393) -/

def weirOk (a b : W64) : Bool := fld a 18 46 = 0 && fld b 27 37 = 0 && fld b 24 2 ≠ 3

/-- Count a charge by its colour. -/
def WeirCnt.charge (k : WeirCnt) (col : Nat) : WeirCnt :=
  match col with
  | 0 => { k with green := k.green + 1 }
  | 1 => { k with yellow := k.yellow + 1 }
  | _ => { k with red := k.red + 1 }

/-- The provisional weir table is full (R227): counted, and the rate-limited event. -/
def State.weirFull (s : State) : State :=
  let k := s.tables.weirCnt
  let s1 := s.updCnt fun c => { c with weirUncharged := c.weirUncharged + 1 }
  if k.fullDt = 0 ∨ k.fullDt - 1 + 1000000 ≤ s.dt then
    (s1.updWeirCnt fun x => { x with fullDt := s.dt + 1, fullSince := 0 }).event 0x0403 [(4, k.fullSince + 1)]
  else s1.updWeirCnt fun x => { x with fullSince := x.fullSince + 1 }

/-- A charge: the state it leaves and gd (R26, R227, R312, R392). -/
def State.weirCharge (s : State) (p w bytes inCol : Nat) (aware : Bool) : State × W64 :=
  if (s.weir w).mode = 0 then (s.updWeirCnt fun k => { k with disabled := k.disabled + 1 }, 0x200)
  else
    let x := (s.weir w).refill s.dt
    let r := x.charge (bytes * 512) inCol aware
    let s1 := (s.setWeir w x).updWeirCnt fun k => k.charge r.1
    let col := BitVec.ofNat 64 r.1
    if (s.pkt p).refusal.isSome ∨ (r.2.1 = 0 ∧ r.2.2 = 0) then (s1, col)
    else if 8192 ≤ s.tables.debits.length then (s1.weirFull, col ||| 0x100)
    else
      let s2 := s1.setWeir w { x with tc := x.tc - r.2.1, tp := x.tp - r.2.2 }
      (s2.updTables fun t => { t with debits := t.debits ++ [⟨w, p, r.2.1, r.2.2⟩] }, col)

/-- WEIR (R312). -/
def execWeir (t : Nat) (gd ga gb : Reg) (s : State) : Out :=
  issueRegs t [gd, ga, gb] (fun s =>
    if (s.tr t).parent.isSome then some (s.trap t ⟨.order, 3, 0⟩)
    else if !weirOk (s.reg t ga) (s.reg t gb) then some (s.trap t badOperand)
    else
      let b := s.reg t gb
      let r := s.weirCharge ((s.curPkt t).getD 0) (fld (s.reg t ga) 0 18) (fld b 0 24) (fld b 24 2) (b.getLsbD 26)
      some (r.1.result t gd r.2)) s

/-! ### The table command registers (R394-R396) -/

def State.tset (s : State) (r : Requester) : TblSet := SMap.get {} s.tables.sets (reqCode r)
def State.setTset (s : State) (r : Requester) (x : TblSet) : State :=
  s.updTables fun t => { t with sets := SMap.set {} t.sets (reqCode r) x }

/-- Fields of a TBL_CMD image. -/
def cmdOp (w : W64) : Nat := fld w 0 4
def cmdTable (w : W64) : Nat := fld w 4 12
def cmdIndex (w : W64) : Nat := fld w 24 28

/-- The requester may issue only LOOKUP, READ_INDEX and DIGEST_BLOCK (R394). -/
def readsOnly (r : Requester) : Bool := r ≠ .pumphouse
def readOp (op : Nat) : Bool := op = 4 || op = 5 || op = 7

/-- A running command's outputs: TBL_STATUS, the data of a read, the key of READ_INDEX (R395, R396). -/
def State.tblFinish (s : State) (r : Requester) (res : TblRes) : State :=
  let x := s.tset r
  match x.run with
  | none => s
  | some run =>
    let op := cmdOp run.w
    let put := fun (m : SMap W64) (ws : List W64) =>
      (List.range ws.length).foldl (fun acc k => SMap.set 0 acc k (ws.getD k 0)) m
    s.setTset r { x with
      status := (x.status &&& 2) ||| res.status
      data := if readOp op then put x.data res.data else x.data
      keys := if op = 5 then put x.keys res.keys else x.keys
      run := none }

/-- Enter the change of a running command in the overlay when there is room (R384). -/
def State.tblEnter (s : State) (r : Requester) (run : TblRun) : State :=
  if 4096 ≤ s.tables.overlay.length then s
  else
    let id := s.tables.ovNo
    (s.ovEnter (cmdTable run.w) (cmdOp run.w) (cmdIndex run.w) run.keys run.data (some r)).setTset r
      { s.tset r with run := some { run with ov := some id } }

/-- A write of TBL_CMD (R394, R395), its reserved bits as 0 (R17). A change takes effect in its order of arrival (R368). -/
def State.tblStart (s : State) (r : Requester) (image : W64) : State :=
  let w := image &&& 0x000FFFFFFFFFFFFF
  let x := s.tset r
  if x.status.getLsbD 0 then s.setTset r { x with status := x.status ||| 2 }
  else
    let op := cmdOp w
    let keys := (List.range (fld w 16 4)).map fun k => SMap.get 0 x.keys k
    let data := (List.range (fld w 20 4)).map fun k => SMap.get 0 x.data k
    let run : TblRun := { w := w, keys := keys, data := data }
    if op = 0 ∨ 8 ≤ op then s.setTset r { x with cmd := w, status := resBadArg.status, run := none }
    else
      let s1 := s.setTset r { x with cmd := w, status := 1, run := some run }
      if readsOnly r ∧ !readOp op then
        s1.setTset r { x with cmd := w, status := 1, run := some { run with res := some resNoRight } }
      else if readOp op then s1
      else match s.tblCheck true (cmdTable w) op (cmdIndex w) keys data with
        | some e => s1.setTset r { x with cmd := w, status := 1, run := some { run with res := some e } }
        | none =>
          if emChange (cmdTable w) op then s1.tblEnter r run
          else
            let a := s1.tblOp true (cmdTable w) op (cmdIndex w) keys data
            a.1.setTset r { x with cmd := w, status := 1, run := some { run with res := some a.2 } }

/-- A TBL_CMD image with the operation of its row. -/
def withOp (w : W64) (op : Nat) : W64 := BitVec.ofNat 64 (w.toNat / 16 * 16 + op)

/-- TBL_INSERT (R396). -/
def execTblInsert (r : Requester) (w : W64) (s : State) : Out := done (s.tblStart r (withOp w 1))
/-- TBL_UPDATE (R396). -/
def execTblUpdate (r : Requester) (w : W64) (s : State) : Out := done (s.tblStart r (withOp w 2))
/-- TBL_DELETE (R396). -/
def execTblDelete (r : Requester) (w : W64) (s : State) : Out := done (s.tblStart r (withOp w 3))
/-- TBL_LOOKUP (R396). -/
def execTblLookup (r : Requester) (w : W64) (s : State) : Out := done (s.tblStart r (withOp w 4))
/-- TBL_READ_INDEX (R396). -/
def execTblReadIndex (r : Requester) (w : W64) (s : State) : Out := done (s.tblStart r (withOp w 5))
/-- TBL_WRITE_INDEX (R396). -/
def execTblWriteIndex (r : Requester) (w : W64) (s : State) : Out := done (s.tblStart r (withOp w 6))
/-- TBL_DIGEST_BLOCK (R396, R400). -/
def execTblDigestBlock (r : Requester) (w : W64) (s : State) : Out := done (s.tblStart r (withOp w 7))

/-- TBL_CMD_DONE: the running command completes; a change waits for its overlay decision, and an exact-match lookup
for an undecided change of its key (R384, R395, R396). -/
def execTblCmdDone (r : Requester) (s : State) : Out :=
  match (s.tset r).run with
  | none => done s
  | some run =>
    match run.res with
    | some res => done (s.tblFinish r res)
    | none =>
      let op := cmdOp run.w
      if readOp op then
        if op = 4 ∧ s.ovWaits (cmdTable run.w) run.keys then done s
        else
          let a := s.tblOp true (cmdTable run.w) op (cmdIndex run.w) run.keys run.data
          done (a.1.tblFinish r a.2)
      else if run.ov.isNone then done (s.tblEnter r run)
      else done s

/-- EM_OVERLAY_DECIDE: the oldest undecided change is decided (R384). -/
def execEmOverlayDecide (s : State) : Out :=
  match s.tables.overlay.find? fun e => e.done.isNone with
  | some e => done (s.ovDecide e)
  | none => done s

/-- EM_OVERLAY_RETIRE: the oldest decided change's bucket write is acknowledged (R384). -/
def execEmOverlayRetire (s : State) : Out :=
  match s.tables.overlay.find? fun e => e.done.isSome with
  | some e => done (s.updTables fun t => { t with overlay := t.overlay.filter fun x => x.id ≠ e.id })
  | none => done s

/-- LPM_REBUILD_DONE: the trie of a VRF and family is whole again (R399). -/
def execLpmRebuildDone (vrf family : Nat) (s : State) : Out :=
  done (s.updTables fun t => { t with
    lpm := { t.lpm with damaged := t.lpm.damaged.filter fun d => !(d.1 = vrf && d.2.1 = family) } })

/-! ### The digest scrubber (R401) -/

def State.scrubOf (s : State) (tbl : Nat) : ScrubCfg := SMap.get {} s.tables.scrub tbl

/-- The 16-byte record of a block. -/
def State.scrubRecord (s : State) (tbl block : Nat) (digest : W64) : List Byte :=
  let mod := SMap.get false s.tables.dpMod (tbl * 1048576 + block)
  leBytes 16 (tbl + block * 2 ^ 12 + digest.toNat % 2 ^ 32 * 2 ^ 32 + s.tables.lastCseq.toNat * 2 ^ 64
    + digest.toNat / 2 ^ 32 % 512 * 2 ^ 96 + (if mod then 2 ^ 105 else 0))

/-- DIGEST_SCRUB_BLOCK: the next block's record goes to the ring at its pace. CONSUMED, which the host writes in its
own memory, is a free value of the read (log 22). -/
def execDigestScrubBlock (tbl : Nat) (s : State) : Out :=
  let c := s.scrubOf tbl
  match tblKind tbl with
  | none => done s
  | some k =>
    let blocks := (s.tblSize k + 255) / 256
    if !s.phRuns ∨ !c.enable ∨ blocks = 0 ∨ s.dt < c.lastDt + c.period * 1000000000 / blocks then done s
    else
      let d := s.draw
      if c.entries ≤ (c.produced - d.1).toNat then
        done (d.2.updTables fun t => { t with scrubStall := t.scrubStall + 1 })
      else
        let block := c.next % blocks
        let a := d.2.tblOp true tbl 7 block [] []
        let rec' := a.1.scrubRecord tbl block (a.2.data.headD 0)
        let s1 := a.1.hostWrite c.host (c.ring + 16 + 16 * (c.produced.toNat % c.entries)) rec'
        let s2 := s1.hostWrite c.host c.ring (leBytes 8 (c.produced + 1).toNat)
        done (s2.updTables fun t => { t with
          dpMod := SMap.set false t.dpMod (tbl * 1048576 + block) false
          scrub := SMap.set {} t.scrub tbl { c with produced := c.produced + 1, next := (block + 1) % blocks, lastDt := s.dt } })

/-! ### Learning and aging (R371-R375) -/

/-- A notice is queued for the learn bus, or dropped and counted (R373). -/
def State.notice (s : State) (w : Nat) (n : Learn) : State :=
  if (s.well w).noticesOut.length < 1024 then s.updWell w fun x => { x with noticesOut := x.noticesOut ++ [n] }
  else s.updL2t w fun x => { x with noticeDrop := x.noticeDrop + 1 }

/-- A move attempt on a static entry, with its rate-limited event (R372). -/
def State.staticMove (s : State) (w : Nat) (e : L2Ent) (n : Learn) : State :=
  let s1 := s.updL2t w fun x => { x with staticMove := x.staticMove + 1 }
  if !e.report then s1
  else
    let x := s.l2t w
    if x.reportDt = 0 ∨ x.reportDt - 1 + 1000000 ≤ s.dt then
      (s1.updL2t w fun x => { x with reportDt := s.dt + 1, reportSince := 0 }).event 0x0301
        [(1, w), (2, n.bd), (2, e.port), (2, n.port), (8, n.mac.toNat), (4, x.reportSince + 1)]
    else s1.updL2t w fun x => { x with reportSince := x.reportSince + 1 }

/-- An entry that learning inserts. -/
def learnt (n : Learn) : L2Ent := ⟨n.mac, n.bd, n.port, false, true, false, 0⟩

/-- A learn trigger at its well (R371). -/
def State.trigger (s : State) (w : Nat) (n : Learn) : State :=
  let x := s.l2t w
  match x.find n.mac n.bd with
  | none =>
    match x.place n.mac n.bd with
    | some i => (((s.setL2t w (x.put i (some (learnt n)))).updL2t w fun y => { y with learn := y.learn + 1 }).dpTouch w i).notice w n
    | none => s.updL2t w fun y => { y with learnFull := y.learnFull + 1 }
  | some i =>
    match SMap.get none x.ents i with
    | none => s
    | some e =>
      if e.port = n.port then
        if e.hit then s else ((s.setL2t w (x.put i (some { e with hit := true }))).dpTouch w i).notice w n
      else if e.static then s.staticMove w e n
      else (((s.setL2t w (x.put i (some { e with port := n.port, hit := true }))).updL2t w
        fun y => { y with move := y.move + 1 }).dpTouch w i).notice w n

/-- A notice at another well (R371). -/
def State.heed (s : State) (v : Nat) (n : Learn) : State :=
  let x := s.l2t v
  match x.find n.mac n.bd with
  | none =>
    match x.place n.mac n.bd with
    | some i => (s.setL2t v (x.put i (some (learnt n)))).dpTouch v i
    | none => s.updL2t v fun y => { y with learnFull := y.learnFull + 1 }
  | some i =>
    match SMap.get none x.ents i with
    | none => s
    | some e =>
      if e.static then s
      else (s.setL2t v (x.put i (some { e with port := n.port, hit := true }))).dpTouch v i

/-- L2_TRIGGER_APPLY: the well's oldest trigger, once no notice waits (R371, R373). -/
def execL2TriggerApply (well : Nat) (s : State) : Out :=
  let x := s.well well
  match x.triggers, x.noticesIn with
  | n :: rest, [] => done ((s.setWell well { x with triggers := rest }).trigger well n)
  | _, _ => done s

/-- L2_NOTICE_APPLY: the oldest notice that has reached a well (R371). -/
def execL2NoticeApply (well : Nat) (s : State) : Out :=
  let x := s.well well
  match x.noticesIn with
  | n :: rest => done ((s.setWell well { x with noticesIn := rest }).heed well n)
  | [] => done s

/-- LEARN_NOTICE_SEND: the learn bus takes the next well's oldest notice, round-robin, to every other well (R373). -/
def execLearnNoticeSend (s : State) : Out :=
  match ((List.range 8).map fun k => (s.tables.learnPtr + 1 + k) % 8).find? fun w => !(s.well w).noticesOut.isEmpty with
  | none => done s
  | some w =>
    match (s.well w).noticesOut with
    | [] => done s
    | n :: rest =>
      let s1 := (s.updWell w fun x => { x with noticesOut := rest }).updTables fun t => { t with learnPtr := w }
      done ((List.range 8).foldl (fun acc v =>
        if v = w then acc else acc.updWell v fun x => { x with noticesIn := x.noticesIn ++ [n] }) s1)

/-- The indexes of the dynamic entries of a well that a predicate names. -/
def L2Tbl.dynamic (x : L2Tbl) (p : L2Ent → Bool) : List Nat :=
  x.ents.filterMap fun e => match e.2 with
    | some y => if !y.static && p y then some e.1 else none
    | none => none

/-- Remove the dynamic entries that a predicate names, in one well. -/
def State.l2Remove (s : State) (w : Nat) (p : L2Ent → Bool) : State :=
  ((s.l2t w).dynamic p).foldl (fun acc i => acc.updL2t w fun x => x.put i none) s

/-- L2_AGING_SWEEP, when the AGE_TIME in force since the well's last sweep has passed; it changes the block of every
dynamic entry that it removes or whose HIT it clears (R375, R401). -/
def execL2AgingSweep (well : Nat) (s : State) : Out :=
  let age := (s.well well).sweepAge
  if age = 0 ∨ s.dt < (s.well well).lastSweep + age * 1000000000 then done s
  else
    let x := s.l2t well
    let s1 := (x.dynamic fun _ => true).foldl (fun acc i => acc.dpTouch well i) s
    let s2 := (s1.l2Remove well fun e => !e.hit).updL2t well fun y => { y with
      aged := y.aged + BitVec.ofNat 64 (x.dynamic fun e => !e.hit).length
      ents := y.ents.map fun e => (e.1, e.2.map fun z => if z.static then z else { z with hit := false }) }
    done (s2.updWell well fun y => { y with lastSweep := s.dt, sweepAge := s.tables.ageTime })

/-- The dynamic entries that name a physical port or an extended port behind it go (R376). -/
def State.l2FlushPort (s : State) (names : Nat → Bool) : State :=
  (List.range 8).foldl (fun acc w => acc.l2Remove w fun e => names e.port) s

end Sys2Proof.Machine
end

