-- ==== Sys2Proof/Machine/DeviceRegs.lean ====
section
/-!
DEFINITION. The registers that cores and hosts read: the time block, well, basin and order status, channels, the L2
control range, table ports, weirs and locks (R45, R46, R147, R192, R241, R347, R358, R393, R394, R598).
-/

namespace Sys2Proof.Machine

def ones64 : W64 := 0xFFFFFFFFFFFFFFFF

/-! ### The time block (R45, R46) -/

def DtState.code : DtState → Nat
  | .freerun => 0
  | .holdover => 1
  | .locked => 2

/-- A read of DT_NOW: the requester's latch is loaded. -/
def State.dtNow (s : State) (r : Requester) : State × W64 :=
  let t := s.time
  let snap : Snap := ⟨t.frac, t.st, t.slew ≠ 0, t.stepNeeded, t.stepGen, true⟩
  let t1 := { t with snaps := SMap.set {} t.snaps (reqCode r) snap, reads := SMap.set 0 t.reads (reqCode r) t.ns }
  ({ s with time := t1 }, t.ns)

/-- DT_SNAP of a requester: zeros before its first DT_NOW. -/
def State.dtSnap (s : State) (r : Requester) : W64 :=
  let x := SMap.get {} s.time.snaps (reqCode r)
  if !x.valid then 0
  else BitVec.ofNat 64 (x.frac.toNat + x.st.code * 2 ^ 16 + (if x.slewing then 2 ^ 18 else 0)
    + (if x.stepNeeded then 2 ^ 19 else 0) + x.stepGen.toNat * 2 ^ 32)

/-- A register of the time block at an offset. -/
def State.timeReg (s : State) (r : Requester) (off : Nat) : Option (State × W64) :=
  if off = 0 then some (s.dtNow r)
  else if off = 8 then some (s, s.dtSnap r)
  else if off = 0x10 then some (s, BitVec.ofInt 64 s.time.offset)
  else if off = 0x18 then some (s, match s.ledger.openStart with
    | some d => BitVec.ofNat 64 d
    | none => ones64)
  else none

/-- DT_NOW_READ (R46). -/
def execDtNowRead (r : Requester) (s : State) : Out := done (s.dtNow r).1

/-! ### Status registers -/

/-- A port is sluiced: by DCI, by QUIESCE_N, by its own disable, or by its well's disable, reset or reconfiguration
(R81, R122-R124, R146, R554, R555), or with every port (R525, R537, R540, R573). -/
def State.sluiced (s : State) (port : Nat) : Bool :=
  let w := s.well (wellOf port)
  (s.port port).dciSluice || (s.port port).disabling.isSome || s.net.quiesce || s.net.shut || w.disabled || w.disabling.isSome
    || w.parserReset || w.reconfig

/-- WELL_STATUS (R147). -/
def State.wellStatus (s : State) (n : Nat) : W64 :=
  let w := s.well n
  let sl := total ((List.range 16).map fun k =>
    if (s.port (16 * n + k)).lanes = 0 || s.sluiced (16 * n + k) then 2 ^ k else 0)
  BitVec.ofNat 64 (sl + (if s.net.quiesce then 2 ^ 16 else 0) + (if w.graphVer.isSome then 2 ^ 17 else 0)
    + (if s.net.committing.isSome then 2 ^ 18 else 0) + w.graphVer.getD 0 * 2 ^ 32 + w.held.length * 2 ^ 48)

/-- BASIN_STATUS (R192): no reservation stands before the end of priming (R174). -/
def State.basinStatus (s : State) : W64 :=
  let free := 491520 - total ((List.range 16).map fun b => ((s.taken b).filter (· < grantable)).length)
  let shared := if s.dci.st = .priming then 491520 else s.sharedFree
  BitVec.ofNat 64 (free + shared * 2 ^ 20 + (if s.basin.rebuild then 2 ^ 40 else 0)
    + (if s.basin.fenced.isEmpty then 0 else 2 ^ 41) + s.basin.spares * 2 ^ 42)

/-- SIZED_POOL_STATUS (R192). -/
def State.sizedStatus (s : State) : W64 :=
  let free := fun c => poolSize c - (SMap.get [] s.basin.pools c).length
  BitVec.ofNat 64 (free 0 + free 1 * 2 ^ 12 + free 2 * 2 ^ 24)

/-- CISTERN_STATUS (R192). -/
def State.cisternStatus (s : State) : W64 :=
  let size := blocksOfGib s.cistern.sizeGib
  let used := (s.cistern.usedBlocks.filter (· < s.cistern.limit)).length
  BitVec.ofNat 64 (s.cistern.limit - used + size * 2 ^ 25 + (if s.cistern.shrinking then 2 ^ 50 else 0))

/-- ORDER_STATUS (R241). -/
def State.orderStatus (s : State) : W64 :=
  BitVec.ofNat 64 (s.order.list.length + s.order.pend.length * 2 ^ 20 + s.tables.debits.length * 2 ^ 33
    + (if s.order.fence.isSome then 2 ^ 47 else 0) + (if s.order.commitReset then 2 ^ 48 else 0)
    + (if s.order.commitFault then 2 ^ 49 else 0))

/-- A register of the L2 control range (R598). -/
def State.l2Reg (s : State) (c off : Nat) : W64 :=
  let k := s.cl c
  match off with
  | 0x00 => BitVec.ofNat 64 (k.scratchWays + s.fillsOut c * 16)
  | 0x08 => k.l2.hits
  | 0x10 => k.l2.misses
  | 0x18 => k.l2.writebacks
  | 0x20 => k.l2.corrected
  | 0x28 => k.l2.uncorrectable
  | _ => 0

/-! ### Table registers (R394) -/

/-- A register of a requester's table set. -/
def State.tsetReg (s : State) (r : Requester) (off : Nat) : Option W64 :=
  let x := s.tset r
  if off % 8 ≠ 0 ∨ 0x90 ≤ off then none
  else if off = 0 then some x.cmd
  else if off = 8 then some x.status
  else if off < 0x50 then some (SMap.get 0 x.keys (off / 8 - 2))
  else some (SMap.get 0 x.data (off / 8 - 10))

/-- A write to a requester's table set. -/
def State.tsetWrite (s : State) (r : Requester) (off : Nat) (v : W64) : Option State :=
  let x := s.tset r
  if off % 8 ≠ 0 ∨ 0x90 ≤ off then none
  else if off = 0 then some (s.tblStart r v)
  else if off = 8 then some s
  else if off < 0x50 then some (s.setTset r { x with keys := SMap.set 0 x.keys (off / 8 - 2) v })
  else some (s.setTset r { x with data := SMap.set 0 x.data (off / 8 - 10) v })

/-! ### The buffer port (R159, R160) -/

/-- The doubleword of a buffer-port load. -/
def portWord (handle : Nat) (ok : Bool) (fail : Nat) : W64 :=
  BitVec.ofNat 64 ((if ok then handle else 0xFFFFFFFF) + (if ok then 2 ^ 32 else 0) + fail * 2 ^ 33)

/-- A load from the buffer port: a provisional chain of `n` cells for the run of a thread, with HELD 1 and a count of 0
(R156, R159, R160). -/
def State.portLoad (s : State) (t n : Nat) : State × W64 :=
  let c := clusterOf t
  let o := s.owner t
  let p := (s.curPkt t).getD 0
  let stopped := (s.cl c).st = .draining || (s.core (coreOf t)).retiring.isSome || (s.core (coreOf t)).retired
  if stopped then (s, portWord 0 false 4)
  else if 16 ≤ (s.tr o).run.bufs.length then (s, portWord 0 false 3)
  else
    let ents := [entCluster c]
    match s.allocCells 16 ents n [] with
    | (s1, some cells, _) =>
      let h := cells.headD 0
      let b : Buf := { cls := 3, id := c, count := 0, held := true, cells := cells, data := [], poison := [], prov := some p, ents := ents }
      (((s1.setBuf h b).updRun o fun r => { r with bufs := r.bufs ++ [h] }), portWord h true 0)
    | (s1, none, .quota) => (s1, portWord 0 false 1)
    | (s1, none, _) => (s1, portWord 0 false 2)

/-! ### Device units as cores reach them (R261, R300) -/

/-- What a load from a device unit meets. -/
inductive DevR where
  | ok (v : W64) (s : State)
  | trap (x : Trap)
  /-- A LOCK_ACQUIRE that must wait. -/
  | lock (k : Nat)

def lockBase : Nat := 0x2000100000
def lockMaskBase : Nat := 0x2000140000

/-- A 64-bit load from a device-unit address. -/
def State.devLoad (s : State) (t a : Nat) : DevR :=
  let none' : DevR := .trap (noRegion a)
  let r : Requester := .thread t
  if 0x2000010000 ≤ a ∧ a < 0x2000020000 then
    match s.timeReg r (a - 0x2000010000) with
    | some x => .ok x.2 x.1
    | none => none'
  else if 0x2000020000 ≤ a ∧ a < 0x2000020800 ∧ a % 0x100 = 0 then .ok (s.wellStatus (a / 0x100 % 8)) s
  else if 0x2000030000 ≤ a ∧ a < 0x2000030140 then
    let x := s.portLoad t ((a - 0x2000030000) / 8 + 1)
    .ok x.2 x.1
  else if a = 0x2000031000 then .ok s.basinStatus s
  else if a = 0x2000031008 then .ok s.sizedStatus s
  else if a = 0x2000031010 then .ok s.cisternStatus s
  else if a = 0x2000040000 then .ok s.orderStatus s
  else if lockBase ≤ a ∧ a < lockMaskBase then
    let k := (a - lockBase) / 64
    match a % 64 with
    | 0x00 => match s.lockAcquireNow r k false with
      | (s1, some v) => .ok v s1
      | (_, none) => .lock k
    | 0x08 => match s.lockAcquireNow r k true with
      | (s1, some v) => .ok v s1
      | (_, none) => .lock k
    | 0x20 => .ok (s.lockStatus k) s
    | 0x10 | 0x18 => .trap (noRight a)
    | _ => none'
  else if lockMaskBase ≤ a ∧ a < lockMaskBase + 512 then
    .ok ((s.lockMask ((a - lockMaskBase) / 8)).setWidth 64) s
  else if 0x2000200000 ≤ a ∧ a < 0x2000200800 then .ok (s.chan (clusterOf t) ((a - 0x2000200000) / 8)).status s
  else if 0x2000400000 ≤ a ∧ a < 0x2000400090 then
    match s.tsetReg r (a - 0x2000400000) with
    | some v => .ok v s
    | none => none'
  else if 0x2000500000 ≤ a ∧ a < 0x2000D00000 then
    .ok ((s.weir ((a - 0x2000500000) / 32)).words.getD (a / 8 % 4) 0) s
  else none'

/-- What a 64-bit store to a device-unit address meets. Registers that are read-only ignore it (R16); the channels and
the weirs trap (R358, R393); release and clear wait for what they order (R274). -/
def State.devStore (s : State) (t a : Nat) (v : W64) : StR :=
  let r : Requester := .thread t
  if (0x2000010000 ≤ a ∧ a < 0x2000010020) ∨ (0x2000020000 ≤ a ∧ a < 0x2000020800 ∧ a % 0x100 = 0)
      ∨ (0x2000030000 ≤ a ∧ a < 0x2000030140) ∨ (0x2000031000 ≤ a ∧ a < 0x2000031018) ∨ a = 0x2000040000
      ∨ (lockMaskBase ≤ a ∧ a < lockMaskBase + 512) then .ok s
  else if lockBase ≤ a ∧ a < lockMaskBase then
    let k := (a - lockBase) / 64
    match a % 64 with
    | 0x10 => if s.released t then .ok (s.lockRelease r k) else .stall
    | 0x18 => if s.released t then .ok (s.lockClear r k) else .stall
    | 0x00 | 0x08 | 0x20 => .trap (noRight a)
    | _ => .trap (noRegion a)
  else if 0x2000200000 ≤ a ∧ a < 0x2000200800 then .trap (noRight a)
  else if 0x2000400000 ≤ a ∧ a < 0x2000400090 then
    match s.tsetWrite r (a - 0x2000400000) v with
    | some s1 => .ok s1
    | none => .trap (noRegion a)
  else if 0x2000500000 ≤ a ∧ a < 0x2000D00000 then .trap (noRight a)
  else .trap (noRegion a)

/-- A device-unit address that some access reaches: a narrower one there acts on nothing (R19, R300). -/
def State.devThere (s : State) (t a : Nat) : Bool :=
  match s.devLoad t a with
  | .trap _ => (match s.devStore t a 0 with
    | .trap _ => false
    | _ => true)
  | _ => true

end Sys2Proof.Machine
end

