-- ==== Sys2Proof/Machine/MacRx.lean ====
section
/-!
DEFINITION. What a port's MAC does with what it receives: intake words, the words it writes into the fill half, and MAC
control frames (R87, R88, R108, R112, R115, R116, R122, R416).
-/

namespace Sys2Proof.Machine

def State.updNet (s : State) (f : NetSt → NetSt) : State := { s with net := f s.net }

/-- Change a port's intake counters. -/
def State.intakeCnt (s : State) (port : Nat) (f : IntakeCnt → IntakeCnt) : State :=
  s.updPort port fun x => { x with intake := f x.intake }

/-- Change a port's MAC counters. -/
def State.macCnt (s : State) (p : Nat) (f : MacCnt → MacCnt) : State := s.updPort p fun x => { x with mac := f x.mac }

/-- A port's rate in Gb/s, that is bits per nanosecond (R78). -/
def modeRate (mode : Nat) : Nat := [10, 25, 50, 100, 200, 400, 800].getD mode 10
def State.portRate (s : State) (p : Nat) : Nat := modeRate (s.port p).mode

/-! ### Words (R115, R116) -/

def wordData (w : IWord) : List Byte := leBytes 8 (w.toNat % 2 ^ 64)
def wordSof (w : IWord) : Bool := w.getLsbD 66
def wordEof (w : IWord) : Bool := w.getLsbD 67
def wordRxerr (w : IWord) : Bool := w.getLsbD 71

/-- The frame bytes of a word. -/
def wordBytes (w : IWord) (last : Bool) : List Byte :=
  let n := w.toNat / 2 ^ 68 % 8
  if last && wordEof w && n ≠ 0 then (wordData w).take n else wordData w

/-- Even parity over DATA, PAR and [71:66]. -/
def wordParity (w : IWord) : Bool :=
  ((List.range 72).filter fun k => k ≠ 65 && w.getLsbD k).length % 2 = 0

/-- A word as the MAC writes it: its data, bits [71:66], and the parity bit that makes them even. -/
def macWord (data : List Byte) (ctl : Nat) : IWord :=
  let w := BitVec.ofNat 72 (leVal data + 2 ^ 66 * ctl)
  if wordParity w then w else w ^^^ 0x10000000000000000

/-- The `n` words of a frame's remaining bytes: SOF in the first word of all, EOF and NBYTES in the last. -/
def macWords (n : Nat) (first rxerr : Bool) (bytes : List Byte) : List IWord :=
  match n with
  | 0 => []
  | n + 1 =>
    let d := bytes.take 8
    macWord d (first.toNat + (if n = 0 then 2 + 4 * (d.length % 8) else 0) + 32 * rxerr.toNat)
      :: macWords n false rxerr (bytes.drop 8)

/-- The words of a whole frame. -/
def frameWords (bytes : List Byte) : List IWord := macWords ((bytes.length + 7) / 8) true false bytes

/-! ### Frames arriving (R55, R97, R112, R122) -/

/-- The port's MAC hands frames from the lanes to the intake: the port is UP (R96). -/
def State.receives (s : State) (port : Nat) : Bool := port < 128 && (s.port port).lanes ≠ 0 && (s.port port).st = .up

/-- The frame whose words the MAC writes now. -/
def State.inProgress (s : State) (port : Nat) : Option Nat :=
  match (s.port port).arriving.getLast? with
  | some p => if (s.pkt p).ended then none else some p
  | none => none

/-- A new frame on a port: its number, its ingress DT, and its place in the port's order of arrival. -/
def State.newFrame (s : State) (port well : Nat) (host : Option HostFn) : State × Nat :=
  let p := s.order.nextPkt
  let s1 := s.updOrder fun o => { o with nextPkt := o.nextPkt + 1 }
  (s1.setPkt p { port := port, well := well, inPort := port, sofDt := s.dt, qns := s.qns, host := host }, p)

/-- A frame that starts on a sluiced port is refused; another one waits for its walk (R122). -/
def State.startFrame (s : State) (port p : Nat) : State :=
  if s.sluiced port then s.refuse p 5 else s.updPort port fun x => { x with parseQ := x.parseQ ++ [p] }

/-- The MAC writes words into the fill half, and the end of the frame into the boundary list (R112, R116). -/
def State.macWrite (s : State) (port p : Nat) (words : List IWord) (ended : Bool) : State :=
  (s.updPort port fun x => { x with fill := x.fill ++ words }).updPkt p fun x => { x with
    wIn := x.wIn + words.length, ended := x.ended || ended }

/-- A frame begins with these words. -/
def State.frameIn (s : State) (port : Nat) (words : List IWord) (ended : Bool) : State :=
  let r := s.newFrame port (wellOf port) none
  let s1 := r.1.updPort port fun x => { x with arriving := x.arriving ++ [r.2] }
  (s1.startFrame port r.2).macWrite port r.2 words ended

/-! ### MAC control frames (R87, R88, R416) -/

/-- The quanta of a priority pause it, for the quanta times 512 bit times at the port's rate; 0 ends the pause. -/
def State.pauseFor (s : State) (p prio quanta : Nat) : State :=
  let d := (quanta * 512 + s.portRate p - 1) / s.portRate p
  s.updEport p fun e => { e with pauseEnd := SMap.set 0 e.pauseEnd prio (if quanta = 0 then 0 else s.dt + d) }

/-- A PFC frame's quanta: the enable vector at byte 16, eight quanta from byte 18. -/
def State.pfcTake (s : State) (p : Nat) (bytes : List Byte) : State :=
  let en := beVal (slice bytes 16 2)
  (List.range 8).foldl (fun acc k =>
    if en / 2 ^ k % 2 = 1 then acc.pauseFor p k (beVal (slice bytes (18 + 2 * k) 2)) else acc) s

/-- A received frame is a MAC control frame. -/
def isMacControl (bytes : List Byte) : Bool := 14 ≤ bytes.length && slice bytes 12 2 = [0x88, 0x08]

/-- A MAC control frame with its FCS: consumed and counted, its quanta taken; with passthrough, a good one of an unknown
opcode enters the FIFO as an ordinary frame. -/
def State.macControl (s : State) (port : Nat) (bytes : List Byte) (rxerr : Bool) : State :=
  let x := s.port port
  let n := bytes.length
  if rxerr ∨ n < 64 ∨ x.cfg.maxFrame < n ∨ bytes.drop (n - 4) ≠ fcs (bytes.take (n - 4)) then
    s.macCnt port fun m => { m with ctrlErr := m.ctrlErr + 1 }
  else
    let op := beVal (slice bytes 14 2)
    if op = 1 then
      let s1 := s.macCnt port fun m => { m with pauseRx := m.pauseRx + 1 }
      if x.cfg.fc = .pause then s1.pauseFor port 8 (beVal (slice bytes 16 2)) else s1
    else if op = 0x0101 then
      let s1 := s.macCnt port fun m => { m with pfcRx := m.pfcRx + 1 }
      if x.cfg.fc = .pfc then s1.pfcTake port bytes else s1
    else if x.cfg.macctlPass then s.frameIn port (frameWords bytes) true
    else s.macCnt port fun m => { m with unknownRx := m.unknownRx + 1 }

/-- A frame that the MAC transmits in MAC_NEAR comes back to the port's intake, as a frame received does (R108). -/
def State.macReturn (s : State) (port : Nat) (bytes : List Byte) : State :=
  if bytes.isEmpty then s
  else if isMacControl bytes then s.macControl port bytes false
  else s.frameIn port (frameWords bytes) true

/-- The port is in TEST in this mode (R108): 1 PRBS, 2 SERDES_NEAR, 3 SERDES_FAR, 4 MAC_NEAR. -/
def State.testing (s : State) (port mode : Nat) : Bool := (s.port port).st = .test && (s.port port).testMode = mode

end Sys2Proof.Machine
end

