-- ==== Sys2Proof/Machine/UsothMem.lean ====
section
/-!
DEFINITION. Loads, stores, cache operations and string instructions, and the events of the memory system (R260-R276,
R299, R300, R304-R308).
-/

namespace Sys2Proof.Machine

/-! ### Regions (R260) -/

/-- The region of R260 that an address lies in. -/
inductive MReg where
  | localView | clScratch | l2ctl | device | cached | uncached
deriving DecidableEq, Repr

def State.mreg (s : State) (t a : Nat) : Option MReg :=
  if a < 0x10000 then some .localView
  else if 0x1000000000 ≤ a ∧ a < 0x1000000000 + 262144 * (s.cl (clusterOf t)).scratchWays then some .clScratch
  else if 0x1040000000 ≤ a ∧ a < 0x1040001000 then some .l2ctl
  else if 0x2000000000 ≤ a ∧ a < 0x2001000000 then some .device
  else if cachedBase ≤ a ∧ a < cachedBase + hbmSize then some .cached
  else if uncachedBase ≤ a ∧ a < uncachedBase + hbmSize then some .uncached
  else none

/-! ### Cluster scratch (R265, R275, R276) -/

def State.clBytes (s : State) (c o n : Nat) : List Byte := (List.range n).map fun k => SMap.get 0 (s.cl c).scratch (o + k)

def State.clPoisoned (s : State) (c o n : Nat) : Bool :=
  (s.cl c).scratchPoison.any fun w => w * 8 < o + n && o < w * 8 + 8

def State.clWrite (s : State) (c o : Nat) (bs : List Byte) : State :=
  s.updCl c fun k => { k with
    scratch := (List.range bs.length).foldl (fun m j => SMap.set 0 m (o + j) (bs.getD j 0)) k.scratch
    scratchPoison := k.scratchPoison.filter fun w => !(o ≤ 8 * w && 8 * w + 8 ≤ o + bs.length) }

/-! ### One access -/

/-- What a load meets. -/
inductive MemR where
  | ok (bs : List Byte) (s : State)
  | trap (x : Trap) (s : State)
  | stall
  | miss (s : State)
  | lock (k : Nat)

/-- The right a core access to an HBM address needs and lacks (R262). -/
def State.hbmFault (s : State) (a addr : Nat) (store : Bool) : Option Trap :=
  match s.mem.region a with
  | none => some (noRegion addr)
  | some r => if r.right = 0 ∨ (store ∧ r.right ≠ 3) then some (noRight addr) else none

/-- A load of `n` aligned bytes at a core address. -/
def State.memLoad (s : State) (t a n : Nat) : MemR :=
  match s.mreg t a with
  | none => .trap (noRegion a) s
  | some .localView => match s.localRead t a n with
    | .ok bs => .ok bs s
    | .stall => .stall
    | .trap x => .trap x s
  | some .clScratch =>
    let o := a - 0x1000000000
    if s.clPoisoned (clusterOf t) o n then .trap ⟨.poison, 1, BitVec.ofNat 64 a⟩ s
    else .ok (s.clBytes (clusterOf t) o n) s
  | some .l2ctl =>
    if n = 8 then .ok (leBytes 8 (s.l2Reg (clusterOf t) (a - 0x1040000000)).toNat) s else .ok (List.replicate n 0xFF) s
  | some .device =>
    if n = 8 then
      match s.devLoad t a with
      | .ok v s1 => .ok (leBytes 8 v.toNat) s1
      | .trap x => .trap x s
      | .lock k => .lock k
    else if s.devThere t (a / 8 * 8) then .ok (List.replicate n 0xFF) s
    else .trap (noRegion a) s
  | some .cached =>
    match s.hbmFault (a - cachedBase) a false with
    | some x => .trap x s
    | none => match s.cachedLoad t (a - cachedBase) n with
      | .ok bs s1 => .ok bs s1
      | .trap x s1 => .trap x s1
      | .stall => .stall
      | .miss s1 => .miss s1
  | some .uncached =>
    match s.hbmFault (a - uncachedBase) a false with
    | some x => .trap x s
    | none =>
      if s.mem.poisoned (a - uncachedBase) n then .trap ⟨.poison, 1, BitVec.ofNat 64 a⟩ s
      else .ok (s.mem.read (a - uncachedBase) n) s

/-- A store that does not go to the L1D enters the store buffer when the thread's earlier stores have left it, and leaves
it at once, so that the buffer drains in program order (R255, R273, R300, log 166). -/
def State.inOrder (s : State) (t : Nat) (r : StR) : StR :=
  match r with
  | .ok s1 => if (s.tr t).sb.isEmpty && s.sbRoom t then .ok s1 else .stall
  | _ => r

/-- A store of aligned bytes at a core address. -/
def State.memStore (s : State) (t a : Nat) (bs : List Byte) : StR :=
  match s.mreg t a with
  | none => .trap (noRegion a)
  | some .localView => s.inOrder t (s.localWrite t a bs)
  | some .clScratch => s.inOrder t (.ok (s.clWrite (clusterOf t) (a - 0x1000000000) bs))
  | some .l2ctl => .trap (noRight a)
  | some .device =>
    if bs.length = 8 then s.inOrder t (s.devStore t a (BitVec.ofNat 64 (leVal bs)))
    else if s.devThere t (a / 8 * 8) then s.inOrder t (.ok s)
    else .trap (noRegion a)
  | some .cached =>
    match s.hbmFault (a - cachedBase) a true with
    | some x => .trap x
    | none =>
      if (s.tr t).maint.contains ((a - cachedBase) / 64) || !s.sbRoom t then .stall
      else .ok (s.updTr t fun x => { x with sb := x.sb ++ [⟨a - cachedBase, bs⟩] })
  | some .uncached =>
    match s.hbmFault (a - uncachedBase) a true with
    | some x => .trap x
    | none => s.inOrder t (.ok (s.updMem fun m => m.store (a - uncachedBase) bs))

/-! ### Core memory errors met by a load (R276) -/

/-- The error's effect on what the load is about to read. -/
def State.coreErr (s : State) (t a : Nat) (e : CoreArray) : State :=
  let core := coreOf t
  let cl := clusterOf t
  let no := (a - cachedBase) / 64
  let way := ((s.core core).way no).getD 0
  let l2way := ((s.cl cl).l2.way no 16).getD 0
  let pcLine := (s.thr t).pc.toNat % hbmSize / 64
  match e with
  | .l1i => (s.updCore core fun c => { c with
      l1i := c.l1i.filter fun x => x.2 ≠ pcLine + 1 }).coreMemError core 0 (pcLine % 128) 0
  | .l1dClean => (s.updCore core fun c => match c.line no with
      | some ln => if ln.dirty = 0 then c.drop no else c
      | none => c).coreMemError core 1 (no % 64) way
  | .l1dDirty => (s.updCore core fun c => match c.line no with
      | some ln => if ln.dirty = 0 then c else { c with l1d := SMap.set none c.l1d (no % 64 * 8 + way) (some { ln with poison := true }) }
      | none => c).coreMemError core 1 (no % 64) way
  | .l1dTag => (s.updCore core fun c => match c.line no with
      | some ln => if ln.dirty = 0 then c else c.drop no
      | none => c).coreMemError core 1 (no % 64) way
  | .l2Clean => (s.updL2 cl fun x => match SMap.get none x.lines (no % 4096 * 16 + l2way) with
      | some ln => if ln.no = no ∧ ln.dirty = 0 then { x with lines := SMap.set none x.lines (no % 4096 * 16 + l2way) none } else x
      | none => x).coreMemError core 2 (no % 4096) l2way
  | .l2Dirty => (s.updL2 cl fun x => match SMap.get none x.lines (no % 4096 * 16 + l2way) with
      | some ln => if ln.no = no ∧ ln.dirty ≠ 0 then
          { x with lines := SMap.set none x.lines (no % 4096 * 16 + l2way) (some { ln with poison := true }) } else x
      | none => x).coreMemError core 2 (no % 4096) l2way
  | .l2Tag => (s.updL2 cl fun x => match SMap.get none x.lines (no % 4096 * 16 + l2way) with
      | some ln => if ln.no = no ∧ ln.dirty ≠ 0 then { x with lines := SMap.set none x.lines (no % 4096 * 16 + l2way) none } else x
      | none => x).coreMemError core 2 (no % 4096) l2way
  | .basin => match s.buf (s.thr t).bufsel.toNat with
    | some _ => if 0x8000 ≤ a ∧ a < 0xA800 then
        (s.updBuf (s.thr t).bufsel.toNat fun b => { b with bad := insNat b.bad ((a - 0x8000) / 8) }).cellFault
          (s.cellAt (s.thr t).bufsel.toNat ((a - 0x8000) / 256)) else s
    | none => s
  | .corrected k => s.coreCorrected core k
  | .scratch =>
    let s1 := if inScratch a 8 then
        s.setScr (s.owner t) { s.scr (s.owner t) with poison := insNat (s.scr (s.owner t)).poison ((a - 0x4000) / 8) }
      else if s.mreg t a = some .clScratch then
        s.updCl cl fun k => { k with scratchPoison := insNat k.scratchPoison ((a - 0x1000000000) / 8) }
      else s
    s1.coreMemError core 3 0 0

/-! ### Load and store instructions (R299, R300) -/

/-- The range of a memory read, when it lies in the thread-local view and is late. -/
def State.lateLoad (s : State) (t a n : Nat) : Option (Nat × Nat) :=
  if s.mreg t a = some .localView then s.lateRange t a n else none

/-- A load instruction. -/
def execLoad (t : Nat) (k : LdKind) (gd ga : Reg) (imm : BitVec 16) (err : Option CoreArray) (s : State) : Out :=
  issueRegsLate t [gd, ga] (fun s => s.lateLoad t (s.reg t ga + sext imm).toNat k.size) (fun s =>
    let addr := s.reg t ga + sext imm
    let a := addr.toNat
    match s.watch t a false with
    | some slot => some (s.halt t (.watch slot addr))
    | none =>
      if a % k.size ≠ 0 then some (s.trap t ⟨.align, 0, addr⟩)
      else
        let s0 := match err with
          | some e => s.coreErr t a e
          | none => s
        match s0.memLoad t a k.size with
        | .ok bs s1 => some (s1.result t gd (k.value bs))
        | .trap x s1 => some (s1.trap t x)
        | .stall => none
        | .miss s1 => some (s1.updTr t fun x => { x with wait := .fill gd k (a - cachedBase) })
        | .lock lk => some ((s0.lockJoin (.thread t) gd (k = .dn) lk).updTr t fun x => { x with wait := .lock lk })) s

/-- LB (R299). -/
def execLb (t : Nat) (gd ga : Reg) (imm : BitVec 16) (s : State) : Out := execLoad t .b gd ga imm none s
/-- LBU (R299). -/
def execLbu (t : Nat) (gd ga : Reg) (imm : BitVec 16) (s : State) : Out := execLoad t .bu gd ga imm none s
/-- LH (R299). -/
def execLh (t : Nat) (gd ga : Reg) (imm : BitVec 16) (s : State) : Out := execLoad t .h gd ga imm none s
/-- LHU (R299). -/
def execLhu (t : Nat) (gd ga : Reg) (imm : BitVec 16) (s : State) : Out := execLoad t .hu gd ga imm none s
/-- LW (R299). -/
def execLw (t : Nat) (gd ga : Reg) (imm : BitVec 16) (s : State) : Out := execLoad t .w gd ga imm none s
/-- LWU (R299). -/
def execLwu (t : Nat) (gd ga : Reg) (imm : BitVec 16) (s : State) : Out := execLoad t .wu gd ga imm none s
/-- LD (R299), with the core memory error it meets, if any (R276). -/
def execLd (t : Nat) (gd ga : Reg) (imm : BitVec 16) (err : Option CoreArray) (s : State) : Out :=
  execLoad t .d gd ga imm err s
/-- LHN (R299). -/
def execLhn (t : Nat) (gd ga : Reg) (imm : BitVec 16) (s : State) : Out := execLoad t .hn gd ga imm none s
/-- LWN (R299). -/
def execLwn (t : Nat) (gd ga : Reg) (imm : BitVec 16) (s : State) : Out := execLoad t .wn gd ga imm none s
/-- LDN (R299, R300). -/
def execLdn (t : Nat) (gd ga : Reg) (imm : BitVec 16) (s : State) : Out := execLoad t .dn gd ga imm none s

/-- A store instruction. -/
def execStore (t : Nat) (k : StKind) (gd ga : Reg) (imm : BitVec 16) (s : State) : Out :=
  issueRegs t [gd, ga] (fun s =>
    let addr := s.reg t ga + sext imm
    let a := addr.toNat
    match s.watch t a true with
    | some slot => some (s.halt t (.watch slot addr))
    | none =>
      if a % k.size ≠ 0 then some (s.trap t ⟨.align, 0, addr⟩)
      else match s.memStore t a (k.bytes (s.reg t gd)) with
        | .ok s1 => some (s1.advance t)
        | .trap x => some (s.trap t x)
        | .stall => none) s

/-- SB (R299). -/
def execSb (t : Nat) (gd ga : Reg) (imm : BitVec 16) (s : State) : Out := execStore t ⟨1, false⟩ gd ga imm s
/-- SH (R299). -/
def execSh (t : Nat) (gd ga : Reg) (imm : BitVec 16) (s : State) : Out := execStore t ⟨2, false⟩ gd ga imm s
/-- SW (R299). -/
def execSw (t : Nat) (gd ga : Reg) (imm : BitVec 16) (s : State) : Out := execStore t ⟨4, false⟩ gd ga imm s
/-- SD (R299). -/
def execSd (t : Nat) (gd ga : Reg) (imm : BitVec 16) (s : State) : Out := execStore t ⟨8, false⟩ gd ga imm s
/-- SHN (R299). -/
def execShn (t : Nat) (gd ga : Reg) (imm : BitVec 16) (s : State) : Out := execStore t ⟨2, true⟩ gd ga imm s
/-- SWN (R299). -/
def execSwn (t : Nat) (gd ga : Reg) (imm : BitVec 16) (s : State) : Out := execStore t ⟨4, true⟩ gd ga imm s
/-- SDN (R299, R300). -/
def execSdn (t : Nat) (gd ga : Reg) (imm : BitVec 16) (s : State) : Out := execStore t ⟨8, true⟩ gd ga imm s

/-! ### Cache operations (R270-R272, R308) -/

/-- The thread still has a store or an operation of its own before this one on the line, or the line's write-back is
with the next level. -/
def State.lineBusy (s : State) (t no : Nat) : Bool :=
  (s.tr t).maint.contains no || ((s.tr t).sb.any fun e => e.addr / 64 = no) || (s.core (coreOf t)).wbIssued no

/-- What an operation needs until it completes: a miss-status register for its request to the L2 when it names ALL, and a
write-back entry for dirty bytes that it writes; one placed in its line's entry needs neither (R270, log 167). -/
def State.maintNeeds (s : State) (t no op : Nat) (all : Bool) : Posted :=
  let c := s.core (coreOf t)
  if op = 0 ∨ c.pendingFill no then ⟨t, no, false, false⟩
  else ⟨t, no, all, op ≠ 2 && ((c.reclaim no).line no).any fun ln => ln.dirty ≠ 0⟩

/-- The thread's shares have room for it (R254, R255, R270). -/
def State.maintRoom (s : State) (p : Posted) : Bool :=
  let c := s.core (coreOf p.t)
  (!p.mshr || c.mshrRoom p.t) && (!p.wb || c.wbRoom p.t || (c.wb.any fun e => e.ln.no = p.line && !e.issued))

/-- A posted operation is noted until CACHE_MAINT_DONE. -/
def State.post (s : State) (p : Posted) : State :=
  (s.updTr p.t fun x => { x with maint := x.maint ++ [p.line] }).updCore (coreOf p.t) fun c => { c with
    posted := c.posted ++ [p] }

/-- CZERO of a line: zeroed and wholly dirty; a pending fill is marked dropped (R270, R272). -/
def State.zeroLine (s : State) (t no : Nat) : Option State :=
  let core := coreOf t
  let c0 := (s.core core).reclaim no
  let c1 : CoreSt := { c0 with mshr := c0.mshr.map fun m => if m.line = no then { m with dropped := true } else m }
  let ln : Line := ⟨no, List.replicate 64 0, BitVec.allOnes 64, false⟩
  match c1.way no with
  | some w => some (s.setCore core (c1.put w ln))
  | none => (c1.install t ln).map fun c2 => s.setCore core c2

/-- CCLEAN, CINVAL or CFLUSH of a line, in the line's miss-status register when its fill is pending (R272). -/
def State.maintOp (s : State) (t no op : Nat) (all : Bool) : State :=
  let core := coreOf t
  if (s.core core).pendingFill no then
    s.updCore core fun c => { c with
      mshr := c.mshr.map fun m => if m.line = no then { m with ops := m.ops ++ [(op, all)] } else m }
  else (s.updCore core fun c => c.reclaim no).maintLine core no op all

/-- The cache operations: 0 CZERO, 1 CCLEAN, 2 CINVAL, 3 CFLUSH. -/
def execMaint (t op : Nat) (all : Bool) (ga : Reg) (imm : BitVec 16) (s : State) : Out :=
  issueRegs t [ga] (fun s =>
    let a := (s.reg t ga + sext imm).toNat
    match s.mreg t a with
    | none => some (s.trap t (noRegion a))
    | some .uncached => if (s.mem.region (a - uncachedBase)).isNone then some (s.trap t (noRegion a)) else some (s.advance t)
    | some .cached =>
      match s.hbmFault (a - cachedBase) a (op ≠ 1) with
      | some x => some (s.trap t x)
      | none =>
        let no := (a - cachedBase) / 64
        let p := s.maintNeeds t no op all
        if s.lineBusy t no || !s.maintRoom p then none
        else if op = 0 then (s.zeroLine t no).map fun s1 => (s1.post p).advance t
        else some (((s.maintOp t no op all).post p).advance t)
    | some _ => some (s.advance t)) s

/-- CZERO (R270, R308). -/
def execCzero (t : Nat) (all : Bool) (ga : Reg) (imm : BitVec 16) (s : State) : Out := execMaint t 0 all ga imm s
/-- CCLEAN (R270, R308). -/
def execCclean (t : Nat) (all : Bool) (ga : Reg) (imm : BitVec 16) (s : State) : Out := execMaint t 1 all ga imm s
/-- CINVAL (R270, R308). -/
def execCinval (t : Nat) (all : Bool) (ga : Reg) (imm : BitVec 16) (s : State) : Out := execMaint t 2 all ga imm s
/-- CFLUSH (R270, R308). -/
def execCflush (t : Nat) (all : Bool) (ga : Reg) (imm : BitVec 16) (s : State) : Out := execMaint t 3 all ga imm s

/-- CPREF: a hint that never traps; ALL has no further effect (R255, R270). -/
def execCpref (t : Nat) (_all : Bool) (ga : Reg) (imm : BitVec 16) (s : State) : Out :=
  issueRegs t [ga] (fun s =>
    let a := (s.reg t ga + sext imm).toNat
    let s1 := if s.mreg t a = some .cached then s.prefetch (coreOf t) t ((a - cachedBase) / 64)
      else s.updCore (coreOf t) fun c => { c with pfDropped := c.pfDropped + 1 }
    some (s1.advance t)) s

/-- A list without its first element that meets a test. -/
def dropFirst {α : Type} (f : α → Bool) (l : List α) : List α :=
  match l with
  | [] => []
  | x :: rest => if f x then rest else x :: dropFirst f rest

/-- CACHE_MAINT_DONE: the oldest posted operation of a thread completes, once a fill it waits for is in (R270, R272). -/
def execCacheMaintDone (t : Nat) (s : State) : Out :=
  match (s.tr t).maint with
  | [] => done s
  | no :: rest =>
    if (s.core (coreOf t)).mshr.any fun m => m.line = no && !m.ops.isEmpty then done s
    else done (((s.updTr t fun x => { x with maint := rest }).updCore (coreOf t) fun c => { c with
      posted := dropFirst (fun e => e.t = t && e.line = no) c.posted }).unstall (coreOf t))

/-! ### String instructions (R304-R307) -/

/-- What one granule step does. -/
inductive GrR where
  | cont (s : State)
  | fin (s : State)
  | trap (x : Trap) (s : State)
  | stall
  | miss (a : Nat) (s : State)
  /-- The granule is a lock acquire that waits (R349). -/
  | lock (k : Nat) (s : State)

/-- Read the granule's value number `i` at an address, or say why not. A value read before a wait is not read again. -/
def State.granule (s : State) (t i a n : Nat) (k : Nat → State → GrR) : GrR :=
  match (s.tr t).gran[i]? with
  | some v => k v.toNat s
  | none =>
    let keep : List Byte → State → State := fun bs s1 => s1.updTr t fun x => { x with
      gran := x.gran ++ [BitVec.ofNat 64 (leVal bs)] }
    match s.memLoad t a n with
    | .ok bs s1 => k (leVal bs) (keep bs s1)
    | .trap x s1 => .trap x s1
    | .stall => .stall
    | .miss s1 => .miss (a - cachedBase) s1
    | .lock lk => .lock lk s

/-- Write a granule, or say why not. -/
def State.putGranule (s : State) (t a n v : Nat) (k : State → GrR) : GrR :=
  match s.memStore t a (leBytes n v) with
  | .ok s1 => k s1
  | .trap x => .trap x s
  | .stall => .stall

/-- A range leaves its region. -/
def State.leaves (s : State) (t a n : Nat) : Bool := n ≠ 0 && (s.mreg t a != s.mreg t (a + n - 1) || (s.mreg t a).isNone)

/-- The ACCESS that a granule's load or store raises (R306). -/
def State.loadAccess (s : State) (t a n : Nat) : Option Trap :=
  match s.memLoad t a n with
  | .trap x _ => if x.cause = .access then some x else none
  | _ => none
def State.storeAccess (s : State) (t a n : Nat) : Option Trap :=
  match s.memStore t a (List.replicate n 0) with
  | .trap x => if x.cause = .access then some x else none
  | _ => none

/-- How a string instruction uses its ranges: the source is read, the destination is read or written, and whether the
first granule is the topmost. -/
structure StrUse where
  src : Bool
  dstRead : Bool
  dstWrite : Bool

/-- BCOPY copies from the top down: the direction chosen at its start, or the overlap it finds there (R305). -/
def State.copyDown (s : State) (t : Nat) : Bool :=
  match (s.tr t).str with
  | some d => d
  | none =>
    let src := (s.reg t 24).toNat
    let dst := (s.reg t 25).toNat
    decide (src < dst ∧ dst < src + (s.reg t 26).toNat)

/-- The checks of R306 at a start or restart, in the order of R279: ALIGN, the ACCESS of the first granule, STRING_FAULT.
`o` is where the first granule lies in its ranges. -/
def State.stringCheck (s : State) (t n o : Nat) (u : StrUse) : Option Trap :=
  let src := s.reg t 24
  let dst := s.reg t 25
  let cnt := (s.reg t 26).toNat
  let useDst := u.dstRead || u.dstWrite
  let first := fun (use : Bool) (f : Nat → Nat → Option Trap) (a : W64) => if use && cnt ≠ 0 then f (a.toNat + o) n else none
  if u.src ∧ src.toNat % n ≠ 0 then some ⟨.align, 0, src⟩
  else if useDst ∧ dst.toNat % n ≠ 0 then some ⟨.align, 0, dst⟩
  else match first u.src (s.loadAccess t) src, first u.dstRead (s.loadAccess t) dst, first u.dstWrite (s.storeAccess t) dst with
    | some x, _, _ | none, some x, _ | none, none, some x => some x
    | none, none, none =>
      if 1048576 < cnt ∨ cnt % n ≠ 0 then some ⟨.string, 1, src⟩
      else if u.src ∧ s.leaves t src.toNat cnt then some ⟨.string, 0, src⟩
      else if useDst ∧ s.leaves t dst.toNat cnt then some ⟨.string, 0, dst⟩
      else none

/-- Add to a register. -/
def State.bump (s : State) (t : Nat) (r : Reg) (v : W64) : State := s.setReg t r (s.reg t r + v)

/-- The instruction is under way, and its present granule is done. -/
def State.strNext (s : State) (t : Nat) (d : Option Bool) : State := s.updTr t fun x => { x with str := d, gran := [] }

/-- A string instruction issues one granule per command: it stays at its address until it has finished. Its checks and its
first assignment (`zero`) are made at its start, and again when it is executed anew after a trap or a halt (R305-R307). -/
def stringOp (t : Nat) (rs : List Reg) (size : BitVec 2) (u : StrUse) (down : State → Bool) (zero : State → State)
    (late : Nat → State → Option (Nat × Nat)) (body : Nat → State → GrR) (s : State) : Out :=
  issueRegsLate t ([24, 25, 26] ++ rs) (fun s => late (2 ^ size.toNat) s) (fun s =>
    let n := 2 ^ size.toNat
    let d := down s
    let fresh := (s.tr t).str.isNone
    let bad := if fresh then s.stringCheck t n (if d then (s.reg t 26).toNat - n else 0) u else none
    match bad with
    | some x => some (s.trap t x)
    | none =>
      let s := (if fresh then zero s else s).updTr t fun x => { x with str := some d }
      if s.reg t 26 = 0 then some ((s.strNext t none).advance t)
      else match body n s with
        | .cont s1 => if s1.reg t 26 = 0 then some ((s1.strNext t none).advance t) else some (s1.strNext t (some d))
        | .fin s1 => some ((s1.strNext t none).advance t)
        | .trap x s1 => some ((s1.strNext t none).trap t x)
        | .stall => none
        | .miss a s1 => some (s1.updTr t fun x => { x with wait := .granule a })
        | .lock k s1 => some ((s1.lockJoin (.thread t) 0 false k).updTr t fun x => { x with wait := .granLock k })) s

/-- One granule of BCOPY (R305): a top-down copy leaves g24 and g25 as they are. -/
def State.bcopyStep (t n : Nat) (s : State) : GrR :=
  let src := (s.reg t 24).toNat
  let dst := (s.reg t 25).toNat
  let left := (s.reg t 26).toNat - n
  if s.copyDown t then
    s.granule t 0 (src + left) n fun v s1 => s1.putGranule t (dst + left) n v fun s2 =>
      .cont (s2.setReg t 26 (BitVec.ofNat 64 left))
  else
    s.granule t 0 src n fun v s1 => s1.putGranule t dst n v fun s2 =>
      .cont (((s2.bump t 24 (BitVec.ofNat 64 n)).bump t 25 (BitVec.ofNat 64 n)).setReg t 26 (BitVec.ofNat 64 left))

/-- The source granule of BCOPY, when it is late. -/
def State.bcopyLate (t n : Nat) (s : State) : Option (Nat × Nat) :=
  let src := (s.reg t 24).toNat
  s.lateLoad t (if s.copyDown t then src + ((s.reg t 26).toNat - n) else src) n

/-- One granule of BFILL. -/
def State.bfillStep (t : Nat) (ga : Reg) (n : Nat) (s : State) : GrR :=
  s.putGranule t (s.reg t 25).toNat n (s.reg t ga).toNat fun s1 =>
    .cont ((s1.bump t 25 (BitVec.ofNat 64 n)).setReg t 26 (s.reg t 26 - BitVec.ofNat 64 n))

/-- One granule of BCMP. -/
def State.bcmpStep (t : Nat) (gd : Reg) (n : Nat) (s : State) : GrR :=
  s.granule t 0 (s.reg t 24).toNat n fun a s1 => s1.granule t 1 (s.reg t 25).toNat n fun b s2 =>
    if a ≠ b then .fin (s2.setReg t gd (if a < b then 1 else 2))
    else .cont (((s2.bump t 24 (BitVec.ofNat 64 n)).bump t 25 (BitVec.ofNat 64 n)).setReg t 26 (s.reg t 26 - BitVec.ofNat 64 n))

/-- One granule of BFIND. -/
def State.bfindStep (t : Nat) (ne : Bool) (gd ga gb : Reg) (n : Nat) (s : State) : GrR :=
  s.granule t 0 (s.reg t 24).toNat n fun a s1 =>
    let m := (s.reg t gb).toNat % 256 ^ n
    let eq : Bool := (a &&& m) = ((s.reg t ga).toNat % 256 ^ n &&& m)
    if eq != ne then .fin (s1.setReg t gd 1)
    else .cont ((s1.bump t 24 (BitVec.ofNat 64 n)).setReg t 26 (s.reg t 26 - BitVec.ofNat 64 n))

/-- BCOPY (R305). -/
def execBcopy (t : Nat) (size : BitVec 2) (s : State) : Out :=
  stringOp t [] size ⟨true, false, true⟩ (fun s => s.copyDown t) id (State.bcopyLate t) (State.bcopyStep t) s
/-- BFILL (R305). -/
def execBfill (t : Nat) (size : BitVec 2) (ga : Reg) (s : State) : Out :=
  stringOp t [ga] size ⟨false, false, true⟩ (fun _ => false) id (fun _ _ => none) (State.bfillStep t ga) s
/-- BCMP (R305). -/
def execBcmp (t : Nat) (size : BitVec 2) (gd : Reg) (s : State) : Out :=
  stringOp t [gd] size ⟨true, true, false⟩ (fun _ => false) (fun s => s.setReg t gd 0)
    (fun n s => match s.lateLoad t (s.reg t 24).toNat n with
      | some r => some r
      | none => s.lateLoad t (s.reg t 25).toNat n) (State.bcmpStep t gd) s
/-- BFIND (R305). -/
def execBfind (t : Nat) (size : BitVec 2) (ne : Bool) (gd ga gb : Reg) (s : State) : Out :=
  stringOp t [gd, ga, gb] size ⟨true, false, false⟩ (fun _ => false) (fun s => s.setReg t gd 0)
    (fun n s => s.lateLoad t (s.reg t 24).toNat n) (State.bfindStep t ne gd ga gb) s

/-! ### Events of the memory system -/

/-- LINE_FILL (R268, R271, R272, R276). -/
def execLineFill (core line : Nat) (err : Bool) (s : State) : Out := done (s.fill core line err)

/-- WRITEBACK_ACK (R271). -/
def execWritebackAck (core line : Nat) (s : State) : Out := done (s.wbAck core line)

/-- STORE_BUFFER_DRAIN (R273). -/
def execStoreBufferDrain (t : Nat) (s : State) : Out := done (s.drainStore t)

/-- STARVE_GRANT: a thread that could issue and has not for 1,024 cycles goes first; it is counted (R251). -/
def execStarveGrant (t : Nat) (s : State) : Out :=
  if s.issuable t ∧ 1024 ≤ (s.tr t).starve then
    done ((s.updCore (coreOf t) fun c => { c with starveGrants := c.starveGrants + 1 }).updTr t fun x => { x with starve := 0 })
  else done s

/-! ### The buffer port and locks as steps of their own -/

/-- BUFFER_PORT_LOAD: the load of a thread from offset 8 × (n − 1) of the buffer port (R159). -/
def execBufferPortLoad (t : Nat) (gd : Reg) (n : Nat) (s : State) : Out :=
  issueRegs t [gd] (fun s =>
    if n = 0 ∨ 40 < n then some (s.trap t (noRegion (0x2000030000 + 8 * n - 8)))
    else
      let r := s.portLoad t n
      some (r.1.result t gd r.2)) s

/-- A lock load of a thread. -/
def lockLoad (t : Nat) (gd : Reg) (k : Nat) (tryOnly : Bool) (s : State) : Out :=
  issueRegs t [gd] (fun s =>
    match s.lockAcquireNow (.thread t) k tryOnly with
    | (s1, some v) => some (s1.result t gd v)
    | (s1, none) => some ((s1.lockJoin (.thread t) gd false k).updTr t fun x => { x with wait := .lock k })) s

/-- LOCK_ACQUIRE (R349); a host's read acts as LOCK_TRY (R352). -/
def execLockAcquire (r : LockReq) (lock : Nat) (s : State) : Out :=
  match r with
  | .thread t gd => lockLoad t gd lock false s
  | .pumphouse => match s.lockAcquireNow .pumphouse lock false with
    | (s1, some v) => done (s1.lockAnswer .pumphouse v)
    | (s1, none) => done (s1.lockJoin .pumphouse 0 false lock)
  | .host f =>
    let r := s.lockAcquireNow (.host f) lock true
    done (r.1.lockAnswer (.host f) (r.2.getD 0))

/-- LOCK_TRY (R350). -/
def execLockTry (r : LockReq) (lock : Nat) (s : State) : Out :=
  match r with
  | .thread t gd => lockLoad t gd lock true s
  | .pumphouse =>
    let r := s.lockAcquireNow .pumphouse lock true
    done (r.1.lockAnswer .pumphouse (r.2.getD 0))
  | .host f =>
    let r := s.lockAcquireNow (.host f) lock true
    done (r.1.lockAnswer (.host f) (r.2.getD 0))

/-- A lock store: a thread's issues as an instruction and waits for what it orders (R274, R351). -/
def lockStore (r : Requester) (act : State → State) (s : State) : Out :=
  match r with
  | .thread t => issue t (fun s => if s.released t then some ((act s).advance t) else none) s
  | _ => done (act s)

/-- LOCK_RELEASE (R351). -/
def execLockRelease (r : Requester) (lock : Nat) (s : State) : Out := lockStore r (fun s => s.lockRelease r lock) s
/-- LOCK_CLEAR (R351). -/
def execLockClear (r : Requester) (lock : Nat) (s : State) : Out := lockStore r (fun s => s.lockClear r lock) s

/-- LOCK_WAIT_TIMEOUT: the first waiter of a lock whose timeout has passed leaves with TIMEOUT (R346, R349). -/
def execLockWaitTimeout (lock : Nat) (s : State) : Out :=
  let l := s.lock lock
  match l.waiters.find? fun w => w.joined + w.timeout ≤ s.lockClock w.who with
  | none => done s
  | some w =>
    let s1 := s.setLock lock { l with waiters := l.waiters.filter fun x => x.who ≠ w.who }
    let s2 := s1.answerWaiter w (lockWord false l.abandoned true false false w.ahead l.gen)
    match w.who with
    | .thread t => done (s2.stepCheck t)
    | _ => done s2

/-! ### The watchdog (R284, R285) -/

/-- The counting thread waits where the watchdog does not expire: excluded waits, and operations that complete first. -/
def wdHeld (w : Wait) : Bool :=
  match w with
  | .store | .orderEnter _ | .long .. => true
  | _ => false

/-- A counted wait is abandoned: the thread leaves every queue and takes nothing. -/
def State.abandonWait (s : State) (t : Nat) : State :=
  let c := clusterOf t
  let s1 := (s.lockLeave (.thread t)).updCl c fun k => { k with
    chans := k.chans.map fun e => (e.1, { e.2 with
      producers := e.2.producers.filter (· ≠ t), consumers := e.2.consumers.filter (· ≠ t) }) }
  s1.updTr t fun x => { x with wait := .none }

/-- WATCHDOG_EXPIRY (R284, R285): the count of a run has reached its budget. -/
def execWatchdogExpiry (t : Nat) (s : State) : Out :=
  let x := s.tr t
  let h := s.thr t
  if x.cur.isNone ∨ x.halted.isSome ∨ x.wdCount < x.wdBudget ∨ wdHeld x.wait ∨ (x.wdGrace ∧ h.handler ∧ h.tcause = 7) then
    done s
  else
    let s1 := s.abandonWait t
    if x.wdGrace ∨ h.handler ∨ s.vector t 7 = 0 then done (s1.unresolved t 7)
    else done ((s1.updTr t fun y => { y with wdGrace := true }).enterHandler t 7 0 0 h.pc)

/-! ### The deadlock detector (R364, R365) -/

/-- A thread's state for the detector: 0 busy, 1 waiting, 2 parked. -/
def State.detState (s : State) (t : Nat) : Nat :=
  let x := s.tr t
  if x.halted.isSome then 0
  else match x.wait with
    | .waitev .. | .join .. | .chput .. => 1
    | .chget _ ch => if ((s.chan (clusterOf t) ch).source t).isSome then 0 else 1
    | .park .. => 2
    | _ => if x.cur.isNone ∧ x.parent.isNone then 2 else 0

/-- The conditions of R365 hold now. -/
def State.detHolds (s : State) (c : Nat) : Bool :=
  let k := s.cl c
  let ts := clusterThreads c
  let horizon := s.dt + 2 ^ (k.task.window + k.task.tick0)
  k.task.detect && ts.any (fun t => s.detState t = 1) && ts.all (fun t => s.detState t ≠ 0)
    && (List.range 4).all (fun l => (SMap.get [] k.task.lists l).all fun e => horizon < e.wake.toNat)
    && ts.all (fun t => match (s.tr t).wait with
      | .park _ wake _ => wake = 0 || horizon < wake.toNat
      | .waitev _ mask _ _ => mask &&& (s.thr t).evext = 0
      | _ => true)

/-- The detector watches its cluster as DT advances: since when its conditions hold, and whether some thread has been
busy since it last acted. -/
def State.detWatch (s : State) (c : Nat) : State :=
  let busy := (clusterThreads c).any fun t => s.detState t = 0
  s.updTask c fun k => { k with
    holdSince := if s.detHolds c then (match k.holdSince with
      | some d => some d
      | none => some s.dt) else none
    ready := k.ready || busy }

/-- DEADLOCK_DETECT: the conditions have held for 1 µs (R365). -/
def execDeadlockDetect (cluster : Nat) (s : State) : Out :=
  let k := (s.cl cluster).task
  let due := match k.holdSince with
    | some d => d + 1000 ≤ s.dt
    | none => false
  if !due || !k.ready || !s.detHolds cluster then done s
  else
    let ts := clusterThreads cluster
    let waiting := (ts.filter fun t => s.detState t = 1).length
    let parked := (ts.filter fun t => s.detState t = 2).length
    let longest := ts.foldl (fun best t => match (s.tr t).wait with
      | .waitev gd mask _ since => (match best with
        | some (_, _, _, d) => if since < d then some (t, gd, mask, since) else best
        | none => some (t, gd, mask, since))
      | _ => best) (none : Option (Nat × Reg × W32 × Nat))
    let s1 := (s.updTask cluster fun k => { k with ready := false, holdSince := none }).event 0x0406
      [(1, cluster), (1, if longest.isSome then 1 else 0), (2, waiting), (2, parked)]
    match longest with
    | some (t, gd, mask, _) =>
      done (((s1.updTask cluster fun k => { k with breaks := k.breaks + 1 }).wakeFlags t gd mask true).stepCheck t)
    | none => done (s1.updTask cluster fun k => { k with noBreaks := k.noBreaks + 1 })

end Sys2Proof.Machine
end

