-- ==== Sys2Proof/Machine/Dci.lean ====
section
/-!
DEFINITION. The Diralys Command Interface: the catalogue of commands, payload checks, the command journal, responses and
the lease, as operations that every command row uses (R482-R499).
-/

namespace Sys2Proof.Machine

/-! ### The catalogue (R499) -/

/-- Who may send a command: read class, the lease required, neither, or the lease for its writing form. -/
inductive Need where
  | read | lease | open_ | writeLease
deriving DecidableEq, Repr

/-- A row of the catalogue: opcode, need, sizes of its fixed fields, whether it needs OUTBUF, and INDIRECT. -/
structure Cat where
  op : Nat
  need : Need
  sizes : List Nat
  outbuf : Bool := false
  indirect : Bool := false
deriving DecidableEq, Repr

/-- Control, ports and modules. -/
def catA : List Cat :=
  [⟨0x0100, .read, [], false, false⟩, ⟨0x0101, .read, [], true, false⟩, ⟨0x0102, .open_, [], false, false⟩,
   ⟨0x0103, .open_, [], false, false⟩, ⟨0x0104, .lease, [4], false, false⟩, ⟨0x0105, .lease, [1], false, false⟩,
   ⟨0x0200, .lease, [2, 1, 1, 1, 1], false, false⟩,
   ⟨0x0201, .lease, [2, 2, 1, 1, 1, 1, 1, 2, 1, 2, 2, 1, 2, 4, 1, 2, 2, 1, 1, 2, 1], false, false⟩,
   ⟨0x0202, .lease, [2], false, false⟩, ⟨0x0203, .lease, [2], false, false⟩, ⟨0x0204, .lease, [2, 1, 1], false, false⟩,
   ⟨0x0205, .read, [2], true, false⟩, ⟨0x0206, .lease, [1, 1, 1, 1, 1], false, false⟩,
   ⟨0x0207, .lease, [1, 1, 1, 1], false, false⟩, ⟨0x0208, .writeLease, [1, 1, 1, 1, 1, 1, 32], false, false⟩,
   ⟨0x0209, .read, [1], true, false⟩, ⟨0x020A, .lease, [2, 8], false, false⟩,
   ⟨0x020B, .lease, [1, 2, 2] ++ List.replicate 16 2, false, false⟩, ⟨0x020C, .lease, [1, 2], false, false⟩,
   ⟨0x020D, .lease, [1, 2], false, false⟩, ⟨0x020E, .lease, [], false, true⟩, ⟨0x020F, .lease, [2], false, false⟩,
   ⟨0x0210, .lease, [1, 1, 1, 1, 1, 2, 16], false, false⟩, ⟨0x0211, .lease, [1, 64], false, true⟩,
   ⟨0x0212, .lease, [1, 2, 2], false, false⟩, ⟨0x0213, .read, [2], true, false⟩]

/-- Tables, programs, order, helpers, tasks and time. -/
def catB : List Cat :=
  [⟨0x0300, .lease, [1, 1], true, true⟩, ⟨0x0301, .read, [8], false, false⟩, ⟨0x0302, .read, [2], true, false⟩,
   ⟨0x0303, .lease, [1, 1, 1, 1, 1, 4], false, false⟩, ⟨0x0304, .lease, [4, 1], false, false⟩,
   ⟨0x0305, .lease, [1, 2], false, false⟩, ⟨0x0306, .lease, [2, 1, 4, 8, 4], false, false⟩,
   ⟨0x0400, .lease, [2, 8, 4], false, false⟩, ⟨0x0401, .lease, [1, 2], false, false⟩,
   ⟨0x0402, .lease, [1, 4], false, false⟩, ⟨0x0403, .lease, [1], false, false⟩, ⟨0x0404, .lease, [1, 1], false, false⟩,
   ⟨0x0405, .lease, [2, 1, 1, 1, 1, 1, 1, 1], false, false⟩, ⟨0x0406, .lease, [1, 1, 4, 1], false, false⟩,
   ⟨0x0407, .read, [1], true, false⟩, ⟨0x0408, .lease, [8, 1, 1, 1, 2], false, false⟩,
   ⟨0x0409, .lease, [2, 1, 2, 4], false, false⟩, ⟨0x040A, .read, [2, 1], true, false⟩,
   ⟨0x040B, .read, [], true, false⟩, ⟨0x040C, .lease, [1, 1, 1], false, false⟩,
   ⟨0x040D, .lease, [1, 2, 4], false, false⟩, ⟨0x040E, .lease, [2], false, false⟩,
   ⟨0x040F, .lease, [1, 1, 1, 1, 1, 1, 1], false, false⟩, ⟨0x0410, .lease, [2, 4], false, false⟩,
   ⟨0x0411, .read, [1], true, false⟩, ⟨0x0412, .read, [1, 1, 2], true, false⟩,
   ⟨0x0500, .lease, [1, 1, 2, 1, 4], false, false⟩, ⟨0x0501, .lease, [8, 4], false, false⟩,
   ⟨0x0502, .read, [], false, false⟩, ⟨0x0503, .lease, [4, 4, 1], false, false⟩,
   ⟨0x0504, .lease, [1, 2, 1], false, false⟩]

/-- Ledger, buffers, queues, power, faults, debug, trust and HBM. -/
def catC : List Cat :=
  [⟨0x0600, .lease, [2, 1], true, false⟩, ⟨0x0601, .read, [8, 4, 4, 8], false, false⟩,
   ⟨0x0602, .lease, [8], false, false⟩, ⟨0x0603, .lease, [8], false, false⟩, ⟨0x0604, .read, [], true, false⟩,
   ⟨0x0605, .read, [], false, false⟩, ⟨0x0700, .lease, [1, 2, 4, 4, 1], false, false⟩,
   ⟨0x0701, .lease, [2, 1, 4, 2], false, false⟩, ⟨0x0702, .lease, [1], false, false⟩,
   ⟨0x0703, .lease, [1, 1, 2], false, false⟩, ⟨0x0704, .read, [], true, false⟩,
   ⟨0x0705, .lease, [2, 2, 1, 1, 4, 4], false, false⟩, ⟨0x0706, .lease, [2, 4, 1, 1, 4, 4], false, false⟩,
   ⟨0x0707, .lease, [2, 4, 4, 1, 1, 2, 4], false, false⟩, ⟨0x0708, .lease, [1, 4, 4, 1, 1, 1, 4], false, false⟩,
   ⟨0x0709, .lease, [1, 1, 4, 4], false, false⟩, ⟨0x070A, .lease, [2, 1], false, false⟩,
   ⟨0x070B, .lease, [2, 16], false, false⟩, ⟨0x070C, .lease, [1, 2], false, false⟩,
   ⟨0x070D, .lease, [1, 1, 1, 1], false, false⟩, ⟨0x070E, .read, [2, 2], true, false⟩,
   ⟨0x070F, .read, [], true, false⟩, ⟨0x0800, .lease, List.replicate 8 4, false, false⟩,
   ⟨0x0801, .read, [], true, false⟩, ⟨0x0900, .lease, [1, 2], false, false⟩, ⟨0x0901, .lease, [1, 1], false, false⟩,
   ⟨0x0902, .read, [4, 2], true, false⟩, ⟨0x0903, .read, [], true, false⟩, ⟨0x0A00, .lease, [2, 1], false, false⟩,
   ⟨0x0A01, .lease, [2], false, false⟩, ⟨0x0A02, .lease, [2, 2], false, false⟩,
   ⟨0x0A03, .lease, [1, 1, 1, 8], false, false⟩, ⟨0x0A04, .read, [2, 1, 8, 4], true, false⟩,
   ⟨0x0A05, .lease, [2, 1, 8, 4, 24], false, false⟩, ⟨0x0A06, .lease, [1, 1, 8], false, false⟩,
   ⟨0x0A07, .read, [1], true, false⟩, ⟨0x0A08, .lease, [2, 4], false, false⟩, ⟨0x0B00, .read, [32], true, false⟩,
   ⟨0x0B01, .read, [], true, false⟩, ⟨0x0B02, .read, [], false, false⟩, ⟨0x0B03, .lease, [32, 64], false, true⟩,
   ⟨0x0B04, .lease, [1, 8, 4], false, false⟩, ⟨0x0B05, .lease, [1], false, false⟩,
   ⟨0x0B06, .lease, [2, 1, 32], false, false⟩, ⟨0x0C00, .lease, [1, 1, 1, 1], false, false⟩,
   ⟨0x0C01, .read, [], true, false⟩, ⟨0x0C02, .lease, [1, 1, 4, 2], false, false⟩,
   ⟨0x0C03, .lease, [1, 4], false, false⟩, ⟨0x0C04, .lease, [1, 1, 1, 1, 2], false, false⟩,
   ⟨0x0C05, .lease, [1], false, false⟩, ⟨0x0C06, .read, [], true, false⟩]

/-- The catalogue of R499. -/
def catalogue : List Cat := catA ++ catB ++ catC

def catOf (op : Nat) : Option Cat := catalogue.find? fun r => r.op = op

/-! ### Payload layout (R497) -/

/-- The bytes are laid out as fields of these sizes, with zeros between them. -/
def fitsLayout (sizes : List Nat) (bs : List Byte) : Bool :=
  let mask := layout (sizes.map fun z => (z, 256 ^ z - 1))
  mask.length = bs.length && (mask.zip bs).all fun p => p.1 ≠ 0 || p.2 = 0

/-- Operations of TABLE_BATCH: `n` of them fill the bytes. -/
def fitsOps (n : Nat) (bs : List Byte) : Bool :=
  match n with
  | 0 => bs.isEmpty
  | n + 1 =>
    let w := leVal (bs.take 8)
    let len := 8 + 8 * (w / 65536 % 16) + 8 * (w / 1048576 % 16)
    decide (8 ≤ bs.length ∧ len ≤ bs.length ∧ w < 4503599627370496) && fitsOps n (bs.drop len)

/-- Records of PARSE_GRAPH_LOAD, of at most `fuel`. -/
def fitsGraph (fuel : Nat) (bs : List Byte) : Bool :=
  match fuel with
  | 0 => bs.isEmpty
  | n + 1 =>
    match bs with
    | [] => true
    | k :: _ =>
      let len := if k = 0 then 16 else if k = 1 then 24 else 40
      decide (k.toNat ≤ 2 ∧ len ≤ bs.length) && fitsLayout [1, 2] (bs.take 4) && bs.getD 1 0 = 0
        && ((bs.drop 4).take 4).all (· = 0) && fitsGraph n (bs.drop len)

/-- The payload has the command's layout, its variable part included. -/
def fitsCommand (r : Cat) (bs : List Byte) : Bool :=
  let head := fun n => fitsLayout r.sizes (bs.take n)
  match r.op with
  | 0x020E => fitsGraph (bs.length / 16 + 1) bs
  | 0x0212 => head 6 && ((bs.drop 6).take 2).all (· = 0) && bs.length = 8 + 4 * leVal (slice bs 4 2)
  | 0x0300 => head 2 && decide ((bs.getD 0 0).toNat < 4) && ((bs.drop 2).take 6).all (· = 0) && fitsOps (bs.getD 1 0).toNat (bs.drop 8)
  | 0x0301 => head 8 && decide (leVal (slice bs 0 8) < 4503599627370496) && bs.length = 8 + 8 * (leVal (slice bs 0 8) / 65536 % 16)
  | 0x0409 => fitsLayout r.sizes bs && decide ((bs.getD 2 0).toNat < 4)
  | 0x0600 =>
    decide ((bs.getD 2 0).toNat < 2) && if (bs.getD 2 0).getLsbD 0 then fitsLayout [2, 1, 208, 64, 32, 64] bs else fitsLayout [2, 1] bs
  | 0x0703 => head 4 && bs.length = 4 + 4 * leVal (slice bs 2 2)
  | 0x070A => head 3 && bs.getD 3 0 = 0 && bs.length = 4 + 4 * (bs.getD 2 0).toNat
  | 0x0707 => fitsLayout r.sizes bs && bs.getD 19 0 = 0
  | 0x0C00 =>
    head 4 && (match bs.getD 0 0 with
      | 0 => bs.length = 24
      | 1 => bs.length = 8
      | 2 => bs.length = 4
      | _ => false)
  | _ => fitsLayout r.sizes bs

def CmdEntry.isIndirect (e : Sys2Proof.CmdEntry) : Bool := e.flags.getLsbD 0
def CmdEntry.isOutbuf (e : Sys2Proof.CmdEntry) : Bool := e.flags.getLsbD 1

/-- The payload of an entry: PLEN bytes. -/
def entryPayload (e : Sys2Proof.CmdEntry) : List Byte :=
  if e.flags.getLsbD 0 then (e.payload.drop 48).take e.plen else e.payload.take e.plen

def entryOutAddr (e : Sys2Proof.CmdEntry) : Nat := leVal (slice e.payload 32 8)
def entryOutLen (e : Sys2Proof.CmdEntry) : Nat := leVal (slice e.payload 40 4)

/-- The entry is well formed as R484, R495, R497 and R498 say: flags, PLEN, layout, and reserved bytes. -/
def wellFormedEntry (r : Cat) (e : Sys2Proof.CmdEntry) : Bool :=
  let ind := e.flags.getLsbD 0
  let out := e.flags.getLsbD 1
  e.flags.toNat < 4 && e.rsv = 0 && (!r.outbuf || out)
    && (ind || !(r.indirect || (r.op = 0x0600 && e.plen > 8)))
    && (if ind then 1 ≤ e.plen && e.plen ≤ 65535 && leVal (slice e.payload 0 8) % 64 = 0
        else e.plen ≤ (if out then 32 else 48))
    && (!out || leVal (slice e.payload 44 4) = 0)
    && fitsCommand r (entryPayload e)

/-! ### Journal entries -/

def CmdRef.isFor (c : Sys2Proof.CmdRef) (j : JCmd) : Bool := j.fn = c.fn && j.e.cseq = c.cseq

/-- The journal entry of an accepted command. -/
def State.jcmd (s : State) (c : Sys2Proof.CmdRef) : Option JCmd := s.dci.journal.find? fun j => CmdRef.isFor c j

def State.updJ (s : State) (c : Sys2Proof.CmdRef) (f : JCmd → JCmd) : State :=
  s.updDci fun d => { d with journal := d.journal.map fun j => if CmdRef.isFor c j then f j else j }

/-- SLUICE and UNSLUICE form a stream of their own (R488). -/
def ownStream (op : Nat) : Bool := op = 0x020C || op = 0x020D

/-- Every command before this one in its stream has completed or runs in the background (R488). -/
def serialFirst (l : List JCmd) (c : Sys2Proof.CmdRef) (own : Bool) : Bool :=
  match l with
  | [] => false
  | j :: rest =>
    if CmdRef.isFor c j then true
    else (ownStream j.e.opcode != own || j.resp.isSome || j.started) && serialFirst rest c own

/-! ### Responses (R484, R485, R489, R498) -/

/-- A response's 64 bytes. -/
def rspImage (cseq : W32) (op status : Nat) (tag : BitVec 16) (orig : Nat) (flags : Nat) (eseq detail : W32)
    (result : List Byte) : List Byte :=
  leBytes 4 cseq.toNat ++ leBytes 2 op ++ leBytes 2 status ++ leBytes 2 tag.toNat ++ leBytes 2 orig ++ leBytes 2 flags
    ++ [0, 0] ++ leBytes 4 eseq.toNat ++ leBytes 4 detail.toNat ++ slice result 0 40

/-- Write a response at RSP_TAIL, when the response ring is enabled. -/
def State.putRsp (s : State) (f : HostFn) (cseq : W32) (op status : Nat) (tag : BitVec 16) (orig : Nat)
    (flags : Nat) (detail : W32) (result : List Byte) : State :=
  let x := s.fn f
  if x.rspBase.getLsbD 0 then
    let img := rspImage cseq op status tag orig (flags + x.phase.toNat) x.eseqIssued detail result
    let s1 := s.hostWrite f (x.rspBase.toNat / 64 * 64 + 64 * x.rspTail.toNat) img
    let s2 := s1.updFn f fun y => { y with
      rspTail := y.rspTail + 1, phase := if y.rspTail = 255 then !y.phase else y.phase }
    s2.irq f 0
  else s

/-- A DUPLICATE response of a recorded one. -/
def State.putDup (s : State) (j : JCmd) (r : Resp) (tag : BitVec 16) : State :=
  s.putRsp j.fn j.e.cseq j.e.opcode 1 tag r.status (2 * r.outWritten.toNat + 4 * r.repeated.toNat) r.detail r.result

/-- What a command's execution answers: a response's status, DETAIL and result, with bytes that follow the length in
RESULT when the result went to the output buffer; that the command goes on in the background; or that it waits in its
place for something to end. -/
inductive Ans where
  | reply (status : Nat) (detail : Nat) (result : List Byte) (tail : List Byte)
  | later
  | wait
deriving DecidableEq, Repr

def Ans.ok : Ans := .reply 0 0 [] []
def Ans.data (bs : List Byte) : Ans := .reply 0 0 bs []
def Ans.status (k : Nat) : Ans := .reply k 0 [] []
def badArg : Ans := .status 4
def unsupported : Ans := .status 5
def noRoom : Ans := .status 6
def busy : Ans := .status 7
def authFail : Ans := .status 8
def timedOut : Ans := .status 9
def wrongState : Ans := .status 10
def faulted : Ans := .status 11

/-- The result is asked for in an output buffer too short for it: BAD_ARG, and nothing changed (R484, R495). -/
def JCmd.tooLong (j : JCmd) (result : List Byte) : Bool :=
  j.e.flags.getLsbD 1 && !result.isEmpty && entryOutLen j.e < result.length

/-- Record a command's response and write it, with the DUPLICATEs that waited for it (R485, R489, R498). During a
Pumphouse restart nothing is answered: the command is run again after it. -/
def State.finish (s : State) (c : Sys2Proof.CmdRef) (status detail : Nat) (result tail : List Byte) : State :=
  match s.jcmd c with
  | none => s
  | some j =>
    if s.dci.st = .phRestart ∨ j.resp.isSome then s else
    let out := j.e.flags.getLsbD 1
    let short := j.tooLong result
    let wrote := out && !result.isEmpty && !short
    let s0 := if wrote then s.hostWrite c.fn (entryOutAddr j.e) result else s
    let st := if short then 4 else status
    let det := if short then result.length else detail
    let res := if short then [] else if wrote then leBytes 4 result.length ++ tail else result ++ tail
    let r : Resp := ⟨st, BitVec.ofNat 32 det, slice res 0 40, wrote, j.rerun⟩
    let s1 := s0.updJ c fun y => { y with resp := some r, dups := [] }
    let s2 := s1.putRsp c.fn j.e.cseq j.e.opcode st j.e.tag 0 (2 * wrote.toNat + 4 * j.rerun.toNat) r.detail r.result
    j.dups.foldl (fun acc t => acc.putDup j r t) s2

/-- The answer is a result that its command's output buffer cannot take. -/
def State.tooLong (s : State) (c : Sys2Proof.CmdRef) (a : Ans) : Bool :=
  match s.jcmd c, a with
  | some j, .reply _ _ result _ => j.tooLong result
  | _, _ => false

/-- Carry out an answer. -/
def State.answer (s : State) (c : Sys2Proof.CmdRef) (a : Ans) : State :=
  match a with
  | .reply st d r t => s.finish c st d r t
  | .later => s.updJ c fun y => { y with started := true }
  | .wait => s

/-- The lease is held and valid for this function (R490, R492). -/
def State.mine (s : State) (f : HostFn) : Bool := s.dci.lease.holder = some f && !s.dci.lease.expired

/-- READ-class commands run in FAULT too (R491). -/
def readClass (op : Nat) (payload : List Byte) : Bool :=
  match catOf op with
  | some r => r.need = .read || (r.need = .writeLease && payload.getD 5 0 = 0)
  | none => false

/-- A field of bytes; operand bytes of another length spell no payload. -/
def bytesField (n : Nat) (bs : List Byte) : Nat × Nat := (n, if bs.length = n then leVal bs else 256 ^ n)

/-- The payload spells these fields, each within its size. -/
def spells (p : List Byte) (fields : List (Nat × Nat)) : Bool :=
  fields.all (fun f => decide (f.2 < 256 ^ f.1)) && p = layout fields

/-- The command is due: accepted, not answered, not started, and first in its stream (R488), with this opcode and these
fields, while the firmware runs (R491). -/
def State.cmdDue (s : State) (c : Sys2Proof.CmdRef) (op : Nat) (fields : List (Nat × Nat)) : Bool :=
  (s.dci.st = .ready || s.dci.st = .fault) &&
  match s.jcmd c with
  | some j =>
    j.resp.isNone && !j.started && j.e.opcode = op && spells (entryPayload j.e) fields
      && serialFirst s.dci.journal c (ownStream op)
  | none => false

/-- Key of a part's reset count: KIND × 65,536 + INDEX (R552). -/
def resetKey (kind idx : Nat) : Nat := kind * 65536 + idx

/-- A part's reset count. -/
def State.resetCount (s : State) (kind idx : Nat) : W32 := SMap.get 0 s.faults.counts (resetKey kind idx)

def State.bumpReset (s : State) (kind idx : Nat) : State :=
  { s with faults := { s.faults with
      counts := SMap.set 0 s.faults.counts (resetKey kind idx) (s.resetCount kind idx + 1) } }

/-! ### Fenced parts (R548) -/

/-- The part that a command names, as kind × 65,536 + index: 1 core, 2 cluster, 3 well, 7 helper. -/
def namedPart (op : Nat) (p : List Byte) : Option Nat :=
  let b := fun (k : Nat) => leVal (slice p k 1)
  match op with
  | 0x0900 => some (resetKey (b 0) (leVal (slice p 2 2)))
  | 0x0401 | 0x0402 | 0x0403 | 0x0406 => some (resetKey 2 (b 0))
  | 0x0404 | 0x0407 => some (resetKey 1 (b 0))
  | 0x0405 => some (if b 1 = 1 then resetKey 2 (b 0) else resetKey 1 (b 0))
  | 0x040C => some (resetKey 7 (b 1 * 256 + b 2))
  | 0x0901 | 0x020B | 0x020C | 0x020D => some (resetKey 3 (b 0))
  | _ => none

/-- UNIT and INDEX of a part in FAULT (R548). -/
def partUnit (kind idx : Nat) : Nat × Nat :=
  if kind < 7 then (kind + 1, idx) else (9, if idx / 256 = 1 then 0x100 + idx % 256 else idx % 256)

/-- FAULT with INFO, whose value no rule gives: a free value (log 2). -/
def State.raiseFault (s : State) (kind idx cause : Nat) : State :=
  let r := s.draw
  r.2.faultEvent (partUnit kind idx).1 cause (partUnit kind idx).2 r.1.toNat

/-- FAULT of unit 0, the device, whose CAUSE and INFO no rule gives: free values, CAUSE one of the six that R548 lists
(log 175). -/
def State.deviceFault (s : State) : State :=
  let r := s.draw
  let i := r.2.draw
  i.2.faultEvent 0 (1 + r.1.toNat % 6) 0 i.1.toNat

/-- A device fault shows in DEVICE_STATE and in FAULT (R546, R549). -/
def State.toFault (s : State) (cause : Nat) : State :=
  if s.dci.st = .fault then s else (s.setDev .fault cause).deviceFault

/-- A command that names a part which an escalation has taken out of service raises FAULT with cause FENCED. -/
def State.fenceNotice (s : State) (op : Nat) (p : List Byte) : State :=
  match namedPart op p with
  | some k => if s.faults.fenced.contains k then s.raiseFault (k / 65536) (k % 65536) 6 else s
  | none => s

/-- The part is in service again. -/
def State.unfence (s : State) (kind idx : Nat) : State :=
  { s with faults := { s.faults with fenced := s.faults.fenced.filter (· ≠ resetKey kind idx) } }

def State.fencePart (s : State) (kind idx : Nat) : State :=
  { s with faults := { s.faults with fenced := insNat s.faults.fenced (resetKey kind idx) } }

/-- Execute an accepted command in its place in the serial order; a command that is not due changes nothing (log 4). In
FAULT every command but reading ones and DEVICE_RESET is answered FAULTED (R491); one whose result does not fit changes
nothing (R495). -/
def State.command (s : State) (c : Sys2Proof.CmdRef) (op : Nat) (fields : List (Nat × Nat))
    (body : State → State × Ans) : Out :=
  if s.cmdDue c op fields then
    if s.dci.st = .fault ∧ op ≠ 0x0105 ∧ !readClass op (layout fields) then done (s.answer c faulted)
    else
      let s0 := s.fenceNotice op (layout fields)
      let r := body s0
      done ((if s.tooLong c r.2 then s0 else r.1).answer c r.2)
  else done s

/-- A started background command of this opcode that has not been answered. -/
def State.running (s : State) (c : Sys2Proof.CmdRef) (op : Nat) : Bool :=
  (s.dci.st = .ready || s.dci.st = .fault) &&
  match s.jcmd c with
  | some j => j.started && j.resp.isNone && j.e.opcode = op
  | none => false

/-- The guard taken when a command is accepted, and whether this execution is a re-run (R489). -/
def State.guardTaken (s : State) (c : Sys2Proof.CmdRef) : Nat × Bool :=
  match s.jcmd c with
  | some j => (j.guard, j.rerun)
  | none => (0, false)

/-- The guard of a command at its acceptance (R499). -/
def State.guardOf (s : State) (op : Nat) (p : List Byte) : Nat :=
  match op with
  | 0x040C => (s.resetCount 7 (leVal (slice p 1 1) * 256 + leVal (slice p 2 1))).toNat
  | 0x040E => (s.lock (leVal (slice p 0 2))).gen.toNat
  | 0x0900 => (s.resetCount (leVal (slice p 0 1)) (leVal (slice p 2 2))).toNat
  | 0x0A02 => (s.tr (leVal (slice p 0 2))).stepCount.toNat
  | _ => 0

/-! ### The lease (R492) -/

/-- Restart the lease's timeout. -/
def State.renew (s : State) : State :=
  s.updDci fun d => { d with lease := { d.lease with deadline := s.dt + 1000000 * d.lease.timeoutMs } }

def holderCode : Option HostFn → Nat
  | none => 0
  | some .hostA => 1
  | some .hostB => 2

/-- LEASE_CHANGE (R500). -/
def State.leaseChange (s : State) (cause : Nat) : State :=
  s.event 0x0002 [(1, holderCode s.dci.lease.holder), (1, cause), (4, s.dci.lease.gen.toNat)]

/-- The lease's timeout is frozen with the time it has left (R492, R525). -/
def State.leaseFreeze (s : State) : State :=
  s.updDci fun d =>
    let l := d.lease
    if l.holder.isSome && !l.expired && l.frozen.isNone then { d with lease := { l with frozen := some (l.deadline - s.dt) } }
    else d

/-- The lease's timeout goes on. -/
def State.leaseThaw (s : State) : State :=
  s.updDci fun d =>
    match d.lease.frozen with
    | some n => { d with lease := { d.lease with frozen := none, deadline := s.dt + n } }
    | none => d

end Sys2Proof.Machine
end

