-- ==== Sys2Proof/Machine/Ledger.lean ====
section
/-!
DEFINITION. The billing ledger: the tally, epochs, seals, records, and the ledger's commands (R65-R71, R431-R448).
-/

namespace Sys2Proof.Machine

def State.updLedger (s : State) (f : LedgerSt → LedgerSt) : State := { s with ledger := f s.ledger }

/-! ### Additions (R432-R434) -/

/-- Add to a counter's residual, or move both into the slot (R433). -/
def LEpoch.add (e : LEpoch) (k : Nat) (v : W64) : LEpoch :=
  let r := SMap.get 0 e.res k
  if r + v.toNat < 16777216 then { e with res := SMap.set 0 e.res k (r + v.toNat) }
  else { e with
    slot := SMap.set 0 e.slot k (SMap.get 0 e.slot k + BitVec.ofNat 64 r + v)
    res := SMap.set 0 e.res k 0 }

/-- A late addition's marks (R434). -/
def LEpoch.late (e : LEpoch) (t : Nat) : LEpoch :=
  { e with
    lateUpdates := if e.lateUpdates = 0xFFFFFFFF then e.lateUpdates else e.lateUpdates + 1
    lateMin := if t < e.lateMin.toNat then BitVec.ofNat 64 t else e.lateMin }

/-- An addition with attribution DT `t` (R434). Between a STOP and its seal the closing epoch alone takes additions
(log 23). -/
def State.ledgerAdd (s : State) (acct ctr : Nat) (v : W64) (t : Nat) : State :=
  let k := acct * 16 + ctr
  let l := s.ledger
  match l.openEp, l.closing with
  | none, none => s.updLedger fun l => { l with idleDrop := l.idleDrop + 1 }
  | none, some c =>
    if c.start ≤ t then s.updLedger fun l => { l with closing := some (c.add k v) }
    else s.updLedger fun l => { l with closing := some ((c.add k v).late t), lateTotal := l.lateTotal + 1 }
  | some o, some c =>
    if o.start ≤ t then s.updLedger fun l => { l with openEp := some (o.add k v) }
    else if c.start ≤ t then s.updLedger fun l => { l with closing := some (c.add k v) }
    else s.updLedger fun l => { l with openEp := some ((o.add k v).late t), lateTotal := l.lateTotal + 1 }
  | some o, none =>
    if o.start ≤ t then s.updLedger fun l => { l with openEp := some (o.add k v) }
    else s.updLedger fun l => { l with openEp := some ((o.add k v).late t), lateTotal := l.lateTotal + 1 }

/-! ### Epochs (R65-R70, R435, R436) -/

/-- The next multiple of `len` after `t`. -/
def nextMultiple (len t : Nat) : Nat := (t / len + 1) * len

/-- A new open epoch from DT `t` with the length in force (R65-R67). -/
def State.openEpoch (s : State) (t : Nat) : State :=
  let len := s.ledger.lengthS * secNs
  s.updLedger fun l => { l with
    openEp := some { no := l.nextNo, start := t, endAt := nextMultiple len t, lenNs := len, holdover := s.time.st ≠ .locked }
    nextNo := l.nextNo + 1 }

/-- DT left LOCKED: the open epoch's record will carry HOLDOVER (R70). -/
def State.markHoldover (s : State) : State :=
  s.updLedger fun l => { l with openEp := l.openEp.map fun e => { e with holdover := true } }

/-- Seals left before the record of epoch `e` is overwritten, counted at the seal of epoch `n` (R437, R438). -/
def sealsLeft (slots e n : Nat) : Nat := e + slots - 2 - n

/-- The oldest unacknowledged epoch. -/
def LedgerSt.oldestUnacked (l : LedgerSt) : Nat :=
  match l.acked with
  | some a => a + 1
  | none => 0

/-- Seal the closing epoch at the current DT (R435, R437, R438). -/
def State.sealClosing (s : State) : State :=
  match s.ledger.closing with
  | none => s
  | some e =>
    let slots := match s.ledger.ring with
      | some r => r.slots
      | none => 0
    let rec' := { e with phase := .sealed, graceUs := Nat.min ((s.dt - e.graceFrom) / 1000) 100000 }
    let s1 := s.updLedger fun l => { l with closing := none, lastSeal := s.time.ns, recs := l.recs ++ [rec'] }
    -- the slot of the epoch after next is zeroed: the record it held is overwritten
    let gone := e.no + 2 - slots
    let s2 :=
      if slots ≤ e.no + 2 then
        let t := s1.updLedger fun l => { l with recs := l.recs.filter fun r => r.no ≠ gone }
        if t.ledger.oldestUnacked ≤ gone then
          (t.updLedger fun l => { l with lost := l.lost + 1 }).event 0x0602 [(8, gone)]
        else t
      else s1
    let old := if s2.ledger.oldestUnacked ≤ gone ∧ slots ≤ e.no + 2 then gone + 1 else s2.ledger.oldestUnacked
    if old ≤ e.no ∧ sealsLeft slots old e.no ≤ 64 then
      s2.event 0x0601 [(1, sealsLeft slots old e.no), (8, old)]
    else s2

/-- The open epoch closes at DT `t`; its grace counts from `g`. A closing epoch that still waits for its seal is sealed
first, since the tally has two banks (log 24). -/
def State.closeOpen (s : State) (t g : Nat) : State :=
  match s.ledger.openEp with
  | none => s
  | some e =>
    (s.sealClosing).updLedger fun l => { l with
      openEp := none
      closing := some { e with phase := .closing, stop := t, graceFrom := g, sealAt := g + 1000000 * l.graceMs } }

/-- EPOCH_CLOSE: DT reaches the open epoch's end (R435, R69). -/
def execEpochClose (s : State) : Out :=
  match s.ledger.openEp with
  | none => done s
  | some e =>
    if s.dt < e.endAt then done s
    else
      let s1 := (s.closeOpen e.endAt e.endAt).updLedger fun l => { l with lengthS := l.nextLength }
      done (s1.openEpoch e.endAt)

/-- EPOCH_SEAL: the closing epoch's grace ends (R435). -/
def execEpochSeal (s : State) : Out :=
  match s.ledger.closing with
  | none => done s
  | some e => if s.dt < e.sealAt then done s else done s.sealClosing

/-! ### Records (R439-R441) -/

/-- Every residual is added into the slot: the body is final (R435). -/
def LEpoch.sumUp (e : LEpoch) : LEpoch :=
  { e with
    slot := e.res.foldl (fun m p => SMap.set 0 m p.1 (SMap.get 0 m p.1 + BitVec.ofNat 64 p.2)) e.slot
    res := []
    phase := .summed }

/-- The FLAGS of a record (R440). -/
def LEpoch.flags (e : LEpoch) : Nat :=
  e.holdover.toNat + 2 * (decide (e.stop - e.start ≠ e.lenNs)).toNat + 4 * (decide (e.lateUpdates ≠ 0)).toNat
    + 8 * (decide (e.partialCause ≠ 0)).toNat + 16 * e.damaged.toNat

/-- The 64-byte header of a record (R440). -/
def LEpoch.header (e : LEpoch) (ring : W64) : List Byte :=
  leBytes 4 0x5A4C4752 ++ leBytes 2 1 ++ leBytes 2 e.flags ++ leBytes 8 e.no ++ leBytes 8 e.start
    ++ leBytes 8 (e.stop - e.start) ++ leBytes 4 65536 ++ leBytes 1 e.partialCause ++ [0, 0, 0]
    ++ leBytes 4 e.lateUpdates.toNat ++ leBytes 4 e.graceUs ++ leBytes 8 ring.toNat ++ leBytes 8 e.lateMin.toNat

def recordLen : Nat := 8388768

/-- Byte `k` of a record (R439); a damaged unit reads as zeros (R445). -/
def LEpoch.byteAt (e : LEpoch) (ring : W64) (k : Nat) : Byte :=
  if k < 64 then (e.header ring).getD k 0
  else if k < 96 then e.prev.getD (k - 64) 0
  else if k < 8388704 then
    if e.badUnits.contains ((k - 96) / 32) then 0
    else (leBytes 8 (SMap.get 0 e.slot ((k - 96) / 8)).toNat).getD ((k - 96) % 8) 0
  else e.sig.getD (k - 8388704) 0

/-- Bytes of a record from an offset. -/
def LEpoch.bytes (e : LEpoch) (ring : W64) (off len : Nat) : List Byte :=
  (List.range len).map fun k => e.byteAt ring (off + k)

/-- D(n) of a record: SM3 of its bytes before the signature (R441). -/
def LEpoch.digestOf (e : LEpoch) (ring : W64) : List Byte := sm3 (e.bytes ring 0 8388704)

/-- An ASCII string as bytes. -/
def ascii (t : String) : List Byte := t.toList.map fun c => BitVec.ofNat 8 c.toNat

/-- Replace the record of an epoch. -/
def State.setRec (s : State) (e : LEpoch) : State :=
  s.updLedger fun l => { l with recs := l.recs.map fun r => if r.no = e.no then e else r }

/-- SEAL_RESIDUALS_DONE: the first sealed bank's residuals have all been added into its slot (R435). -/
def execSealResidualsDone (s : State) : Out :=
  match s.ledger.recs.find? fun r => r.phase = .sealed with
  | none => done s
  | some e => done (s.setRec e.sumUp)

/-- PREV of epoch `n`: the digest of the record before it, or of the ring's statement (R441, R442). -/
def State.prevDigest (s : State) (r : Ring) (n : Nat) : Option (List Byte) :=
  if n = 0 then some (sm3 r.statement)
  else match s.ledger.recs.find? fun x => x.no + 1 = n with
    | some p => if p.digest.isEmpty then none else some p.digest
    | none => none

/-- RECORD_DIGEST_DONE: the SM3 digest of the next record in epoch order is complete (R435, R441). -/
def execRecordDigestDone (s : State) : Out :=
  match s.ledger.ring, s.ledger.recs.find? fun r => r.digest.isEmpty with
  | some ring, some e =>
    match s.prevDigest ring e.no with
    | some p =>
      if e.phase ≠ .summed ∨ s.ledger.fault then done s
      else
        let e1 := { e with prev := p }
        done (s.setRec { e1 with digest := e1.digestOf ring.id, phase := .digested })
    | none => done s
  | _, _ => done s

/-- RECORD_SIGN_DONE: the SM2 signature of a record is complete, in epoch order (R435, R441). -/
def execRecordSignDone (s : State) : Out :=
  match s.ledger.ring, s.ledger.recs.find? fun r => r.phase ≠ .signed with
  | some ring, some e =>
    if e.phase ≠ .digested ∨ s.ledger.fault then done s
    else
      let d := s.draw
      let e1 := { e with phase := .signed, sig := Config.sm2Sign ring.key (ascii "QZMLEDGER1") e.digest d.1 }
      let s1 := (d.2.setRec e1).updLedger fun l => { l with
        damagedRecs := if e.damaged then l.damagedRecs + 1 else l.damagedRecs }
      done (s1.event 0x0600 [(2, e1.flags), (8, e1.no), (32, leVal e1.digest)])
  | _, _ => done s

/-! ### Commands -/

/-- EPOCH_CONFIG (R65-R69, R435, R436). -/
def epochConfigBody (action lengthS graceMs : Nat) (s : State) : State × Ans :=
  if 2 < action ∨ lengthS = 0 ∨ 3600 < lengthS ∨ 100 < graceMs then (s, badArg)
  else if action = 0 ∧ (s.ledger.ring.isNone ∨ s.ledger.fault) then (s, wrongState)
  else
    let running := s.ledger.openEp.isSome
    let set := fun (x : State) => x.updLedger fun l => { l with
      nextLength := lengthS, lengthS := if running then l.lengthS else lengthS, graceMs := graceMs }
    match action with
    | 0 => let s1 := set s; (if running then s1 else s1.openEpoch s.dt, .ok)
    | 1 => let s1 := set (s.closeOpen s.dt s.dt)
           (s1.updLedger fun l => { l with lengthS := lengthS }, .ok)
    | _ => (set s, .ok)

def execEpochConfig (c : CmdRef) (action lengthS graceMs : Nat) (s : State) : Out :=
  s.command c 0x0504 [(1, action), (2, lengthS), (1, graceMs)] (epochConfigBody action lengthS graceMs)

/-- Bytes of the regions of a use (R453). -/
def State.regionSize (s : State) (use : Nat) : Nat :=
  total ((s.mem.regions.filter fun r => r.use = use).map (·.size))

/-- The statement's bytes before its signature (R442). -/
def ringHead (id : W64) (dt slots : Nat) (prev : Option LedgerPrev) (pub : List Byte) : List Byte :=
  leBytes 4 0x5A4C4B53 ++ leBytes 4 1 ++ leBytes 8 id.toNat ++ leBytes 8 dt ++ leBytes 4 slots ++ [0, 0, 0, 0]
    ++ (match prev with
      | some p => slice p.statement 8 8 ++ slice p.header 8 8 ++ slice p.digest 0 32
      | none => List.replicate 48 0)
    ++ slice pub 0 64

/-- Both signatures of CONTINUE verify: the statement's against the device's identity, the digest's against the
statement's ledger key (R443). -/
def State.prevOk (s : State) (p : LedgerPrev) : Bool :=
  Config.sm2Verify (Config.sm2Public s.idKey) (ascii "QZMDEVICE1") (sm3 (slice p.statement 0 144))
    (slice p.statement 144 64)
  && Config.sm2Verify (slice p.statement 80 64) (ascii "QZMLEDGER1") p.digest p.signature

/-- The conditions of R443 with no ledger, or with one in FAULT, whose recovery is a new LEDGER_INIT (R445). -/
def ringStart (c : CmdRef) (slots : Nat) (prev : Option LedgerPrev) (s : State) : State × Ans :=
  let go := (s.updLedger fun l => { l with init := some ⟨c, slots, prev⟩ }, Ans.later)
  if slots < 256 ∨ 8192 < slots then (s, badArg)
  else if s.regionSize 5 < slots * 8388608 then (s, noRoom)
  else match prev with
    | some p => if s.prevOk p then go else (s, authFail)
    | none => go

/-- LEDGER_INIT: the checks, and the start of key generation (R443); FAULTED without a healthy TRNG (R510). -/
def ledgerInitBody (c : CmdRef) (slots : Nat) (prev : Option LedgerPrev) (s : State) : State × Ans :=
  match s.ledger.init with
  | some i => if i.c = c then (s, .later) else (s, busy)
  | none =>
    let held := s.ledger.ring.isSome && !s.ledger.fault
    match s.ledger.ring with
    | some r =>
      if r.by_ = c then (s, .data r.statement)
      else if held then (s, wrongState)
      else if s.trngBad then (s, faulted)
      else ringStart c slots prev s
    | none => if s.trngBad then (s, faulted) else ringStart c slots prev s

/-- The payload fields of LEDGER_INIT (R499). -/
def ledgerInitFields (slots : Nat) (prev : Option LedgerPrev) : List (Nat × Nat) :=
  match prev with
  | none => [(2, slots), (1, 0)]
  | some p => [(2, slots), (1, 1), bytesField 208 p.statement, bytesField 64 p.header, bytesField 32 p.digest,
      bytesField 64 p.signature]

def execLedgerInit (c : CmdRef) (slots : Nat) (prev : Option LedgerPrev) (s : State) : Out :=
  s.command c 0x0600 (ledgerInitFields slots prev) (ledgerInitBody c slots prev)

/-- LEDGER_INIT_DONE: the key exists, the ring is created and the statement returned (R442, R443). -/
def execLedgerInitDone (c : CmdRef) (s : State) : Out :=
  match s.ledger.init with
  | none => done s
  | some i =>
    if i.c ≠ c ∨ !s.running c 0x0600 then done s
    else
      let k := s.drawBytes 32
      let d := k.2.draw
      let n := d.2.draw
      let pub := Config.sm2Public k.1
      let head := ringHead d.1 s.dt i.slots i.prev pub
      let st := head ++ Config.sm2Sign s.idKey (ascii "QZMDEVICE1") (sm3 head) n.1
      let s1 := n.2.updLedger fun l => { l with
        ring := some ⟨d.1, i.slots, st, k.1, pub, c⟩, init := none, fault := false, nextNo := 0, recs := []
        openEp := none, closing := none, acked := none }
      done (s1.answer c (.data st))

/-- Whether the newest epochs say that an epoch is still open, closing or unsigned (R444). -/
def LedgerSt.unsigned (l : LedgerSt) (e : Nat) : Bool :=
  (l.openEp.any fun x => x.no = e) || (l.closing.any fun x => x.no = e)
    || l.recs.any fun r => r.no = e && r.phase ≠ .signed

def LedgerSt.record (l : LedgerSt) (e : Nat) : Option LEpoch := l.recs.find? fun r => r.no = e && r.phase = .signed

/-- LEDGER_READ: the transfer starts (R444). A read may also end at the record's end, whose offset is no multiple of 64
(log 25). -/
def ledgerReadBody (c : CmdRef) (epoch offset len addr : Nat) (s : State) : State × Ans :=
  if offset % 64 ≠ 0 ∨ recordLen < offset + len ∨ (len % 64 ≠ 0 ∧ offset + len ≠ recordLen) then (s, badArg)
  else if s.ledger.unsigned epoch then (s, wrongState)
  else match s.ledger.record epoch, s.ledger.ring with
    | some r, some ring =>
      let s1 := s.hostWrite c.fn addr (r.bytes ring.id offset len)
      (s1.updLedger fun l => { l with reads := l.reads.filter (fun x => x.c ≠ c) ++ [⟨c, epoch⟩] }, .later)
    | _, _ => (s, badArg)

def execLedgerRead (c : CmdRef) (epoch offset len addr : Nat) (s : State) : Out :=
  s.command c 0x0601 [(8, epoch), (4, offset), (4, len), (8, addr)] (ledgerReadBody c epoch offset len addr)

/-- LEDGER_READ_DONE: OK while the slot still holds the record, FAULTED when a unit of it is damaged, BAD_ARG when it has
been overwritten (R444, R445). -/
def execLedgerReadDone (c : CmdRef) (s : State) : Out :=
  match s.ledger.reads.find? fun x => x.c = c with
  | none => done s
  | some x =>
    if !s.running c 0x0601 then done s
    else
      let s1 := s.updLedger fun l => { l with reads := l.reads.filter fun y => y.c ≠ c }
      match s.ledger.record x.epoch with
      | none => done (s1.answer c badArg)
      | some r => done (s1.answer c (if r.badUnits.isEmpty then .ok else faulted))

/-- LEDGER_ACK (R444): an epoch not yet signed, or never begun, is answered STATE. -/
def ledgerAckBody (epoch : Nat) (s : State) : State × Ans :=
  match s.ledger.acked with
  | some a =>
    if epoch ≤ a then (s, .ok)
    else if (s.ledger.recs.any fun r => r.no = epoch && r.phase = .signed) then
      (s.updLedger fun l => { l with acked := some epoch }, .ok)
    else if epoch < s.ledger.nextNo ∧ !s.ledger.unsigned epoch then (s.updLedger fun l => { l with acked := some epoch }, .ok)
    else (s, wrongState)
  | none =>
    if epoch < s.ledger.nextNo ∧ !s.ledger.unsigned epoch then (s.updLedger fun l => { l with acked := some epoch }, .ok)
    else (s, wrongState)

def execLedgerAck (c : CmdRef) (epoch : Nat) (s : State) : Out :=
  s.command c 0x0602 [(8, epoch)] (ledgerAckBody epoch)

/-- LEDGER_FLUSH_SET (R446): the sender's buffer; 0 unregisters. -/
def ledgerFlushSetBody (f : HostFn) (addr : Nat) (s : State) : State × Ans :=
  if addr % 4096 ≠ 0 then (s, badArg)
  else match f with
    | .hostA => (s.updLedger fun l => { l with flushA := BitVec.ofNat 64 addr }, .ok)
    | .hostB => (s.updLedger fun l => { l with flushB := BitVec.ofNat 64 addr }, .ok)

def execLedgerFlushSet (c : CmdRef) (addr : Nat) (s : State) : Out :=
  s.command c 0x0603 [(8, addr)] (ledgerFlushSetBody c.fn addr)

/-- The ledger registers (R447): status, open, newest signed, newest acknowledged, oldest retained. -/
def LedgerSt.status (l : LedgerSt) : Nat :=
  let st := if l.fault then 3 else if l.ring.isNone then 0 else if l.openEp.isSome || l.closing.isSome then 2 else 1
  let un := (l.recs.filter fun r => r.phase ≠ .signed).length
  st + 4 * l.closing.isSome.toNat + 65536 * Nat.min un 65535
    + 4294967296 * (match l.ring with
      | some r => r.slots
      | none => 0)

def noneOnes (o : Option Nat) : Nat := o.getD 0xFFFFFFFFFFFFFFFF

def LedgerSt.registers (l : LedgerSt) : List Nat :=
  [l.status, noneOnes (l.openEp.map (·.no)), noneOnes (((l.recs.filter fun r => r.phase = .signed).getLast?).map (·.no)),
   noneOnes l.acked, noneOnes (l.recs.head?.map (·.no))]

/-- LEDGER_INFO: the statement, zeros while there is none, and the registers (R447, R499). -/
def ledgerInfoBody (s : State) : State × Ans :=
  let st := match s.ledger.ring with
    | some r => r.statement
    | none => List.replicate 208 0
  (s, .data (st ++ (s.ledger.registers.flatMap fun v => leBytes 8 v)))

def execLedgerInfo (c : CmdRef) (s : State) : Out := s.command c 0x0604 [] ledgerInfoBody

/-- LEDGER_STATS (R448): six 8-byte values, more than RESULT holds, are cut to its 40 bytes unless OUTBUF is set
(log 26). -/
def ledgerStatsBody (s : State) : State × Ans :=
  let l := s.ledger
  (s, .data ([l.idleDrop, l.lateTotal, l.lost, l.damagedRecs, l.flushes, l.lastSeal].flatMap fun v => leBytes 8 v.toNat))

def execLedgerStats (c : CmdRef) (s : State) : Out := s.command c 0x0605 [] ledgerStatsBody

end Sys2Proof.Machine
end

