-- ==== Sys2Proof/Machine/Rewrite.lean ====
section
/-!
DEFINITION. The rewrite engine: edit lists, their form, and what each operation does to a frame (R420, R421, R93).
-/

namespace Sys2Proof.Machine

/-- An edit operation (R420). -/
structure EOp where
  op : Nat
  off : Nat
  len : Nat
  aux : Nat
  data : List Byte
deriving DecidableEq, Repr

/-- Data bytes of an operation. -/
def editData (op len : Nat) : Nat := if op = 2 ∨ op = 3 ∨ op = 4 then len else 0

/-- Slots of an operation: 1 + ceil(max(0, data bytes − 8) / 16). -/
def editSlots (op len : Nat) : Nat := 1 + (editData op len - 8 + 15) / 16

/-- Every OP is defined and every field within its range (R420). -/
def EOp.ok (e : EOp) : Bool :=
  match e.op with
  | 1 => 1 ≤ e.len && e.len ≤ 256 && e.aux = 0
  | 2 | 3 => 1 ≤ e.len && e.len ≤ 128 && e.aux = 0
  | 4 => 2 ≤ e.len && e.len ≤ 64 && e.len % 2 = 0 && (e.off + e.aux) % 2 = 0
  | 5 => e.len = 0
  | 6 | 9 => e.len = 0 && (e.aux = 4 || e.aux = 6)
  | 7 => e.len = 0 && e.aux = 0
  | 8 | 10 => e.len = 0
  | 11 => e.off = 0 && 60 ≤ e.len && e.len ≤ 10236 && e.aux = 0
  | _ => false

/-- Read `n` operations that fill the slots. -/
def parseEdits (n : Nat) (bs : List Byte) : Option (List EOp) :=
  match n with
  | 0 => if bs.isEmpty then some [] else none
  | n + 1 =>
    let h := slice bs 0 16
    let e : EOp := ⟨(h.getD 0 0).toNat, leVal (slice h 2 2), leVal (slice h 4 2), leVal (slice h 6 2), []⟩
    let slots := (h.getD 1 0).toNat
    if bs.length < 16 ∨ slots ≠ editSlots e.op e.len ∨ bs.length < 16 * slots ∨ !e.ok then none
    else
      let d := slice h 8 8 ++ slice bs 16 (16 * (slots - 1))
      match parseEdits n (bs.drop (16 * slots)) with
      | some rest => some ({ e with data := d.take (editData e.op e.len) } :: rest)
      | none => none

/-- The operations of a well-formed list: SET_LEN only first, and exactly on a CLUSTER buffer (R420). -/
def editList (ops : Nat) (bs : List Byte) (cluster : Bool) : Option (List EOp) :=
  match parseEdits ops bs with
  | none => none
  | some l =>
    let first := match l with
      | e :: _ => e.op = 11
      | [] => false
    if first = cluster ∧ (l.drop 1).all (fun e => e.op ≠ 11) then some l else none

/-- A member operation: one slot (R418, R419). -/
def memberEdit (slot : BitVec 128) : Option EOp :=
  match parseEdits 1 (leBytes 16 slot.toNat) with
  | some [e] => if e.op = 11 then none else some e
  | _ => none

/-! ### Structural operations, steps 1 to 3 of R421 -/

/-- A frame being edited, with the bytes inserted and deleted so far. -/
structure Ed where
  frame : List Byte
  ins : Nat := 0
  del : Nat := 0
deriving DecidableEq, Repr

/-- The bytes [off, off + n) lie in the frame and in its first 512 bytes. -/
def Ed.reach (x : Ed) (off n : Nat) : Bool := off + n ≤ x.frame.length && off + n ≤ 512

/-- Sum of bytes as 16-bit words aligned to position `at'`. -/
def posSum (at' off : Nat) (bs : List Byte) : Nat :=
  match bs with
  | [] => 0
  | b :: rest => (if (off + at') % 2 = 0 then b.toNat * 256 else b.toNat) + posSum at' (off + 1) rest

/-- RFC 1624: HC' = ~(~HC + ~m + m'), over the words that `old` and `new` cover at `off`. -/
def adjustSum (hc cs off : Nat) (old new : List Byte) : Nat :=
  let inv := old.map fun b => ~~~b
  65535 - foldSum (65535 - hc + posSum cs off inv + posSum cs off new)

def getBe16 (f : List Byte) (o : Nat) : Nat := beVal (slice f o 2)
def putBe16 (f : List Byte) (o v : Nat) : List Byte := splice f o (beBytes 2 v)

/-- Overwrite bytes, then adjust the checksum at `cs`. -/
def putAdjust (f : List Byte) (off : Nat) (new : List Byte) (cs : Nat) : List Byte :=
  let g := splice f off new
  putBe16 g cs (adjustSum (getBe16 g cs) cs off (slice f off new.length) new)

/-- The IP version nibble at `off`. -/
def ipVer (f : List Byte) (off : Nat) : Nat := (f.getD off 0).toNat / 16

/-- One structural operation; none when it breaks a limit or meets another header type. -/
def Ed.step (x : Ed) (e : EOp) : Option Ed :=
  match e.op with
  | 1 =>
    if x.reach e.off e.len && x.del + e.len ≤ 256 then
      some { x with frame := x.frame.take e.off ++ x.frame.drop (e.off + e.len), del := x.del + e.len }
    else none
  | 2 =>
    if e.off ≤ x.frame.length && e.off + e.len ≤ 512 && x.ins + e.len ≤ 128 then
      some { x with frame := x.frame.take e.off ++ e.data ++ x.frame.drop e.off, ins := x.ins + e.len }
    else none
  | 3 => if x.reach e.off e.len then some { x with frame := splice x.frame e.off e.data } else none
  | 4 =>
    if x.reach e.off e.len && x.reach e.aux 2 then some { x with frame := putAdjust x.frame e.off e.data e.aux } else none
  | 5 =>
    if x.reach e.off 2 then some { x with frame := putBe16 x.frame e.off ((getBe16 x.frame e.off + e.aux) % 65536) }
    else none
  | 6 =>
    let o := if e.aux = 4 then e.off + 8 else e.off + 7
    let n := if e.aux = 4 then 12 else 8
    if x.reach e.off n && ipVer x.frame e.off = e.aux then
      let ttl := x.frame.getD o 0
      if ttl = 0 then some x
      else if e.aux = 4 then some { x with frame := putAdjust x.frame o [ttl - 1] (e.off + 10) }
      else some { x with frame := splice x.frame o [ttl - 1] }
    else none
  | _ => some x

/-- The structural operations in list order. -/
def Ed.steps (x : Ed) (l : List EOp) : Option Ed :=
  match l with
  | [] => some x
  | e :: rest => match x.step e with
    | some y => y.steps rest
    | none => none

/-- Change of length by a list's structural operations. -/
def editGrowth (l : List EOp) : Int :=
  l.foldl (fun (g : Int) e => if e.op = 1 then g - e.len else if e.op = 2 then g + e.len else g) 0

/-- LENGTH: the frame bytes after the structural operations (R407). -/
def editLength (base : Nat) (l : List EOp) (m : Option EOp) : Nat :=
  let b := match l with
    | e :: _ => if e.op = 11 then e.len else base
    | [] => base
  ((b : Int) + editGrowth l + editGrowth m.toList).toNat

/-! ### Steps 4 to 7 -/

/-- How a rewrite ends. -/
inductive Rw where
  | frame (f : List Byte)
  | drop (code sub : Nat)
deriving DecidableEq, Repr

def editError : Rw := .drop 2 1

/-- ECN marking (R415): CE on ECT, nothing on CE, the drop of a Not-ECT frame. -/
def markEcn (f : List Byte) (e : EOp) : Rw :=
  let o := e.off + 1
  let n := if e.aux = 4 then 12 else 2
  if f.length < e.off + n ∨ 512 < e.off + n ∨ ipVer f e.off ≠ e.aux then editError
  else
    let b := (f.getD o 0).toNat
    let ecn := if e.aux = 4 then b % 4 else b / 16 % 4
    if ecn = 0 then .drop 4 1
    else if ecn = 3 then .frame f
    else if e.aux = 4 then .frame (putAdjust f o [BitVec.ofNat 8 (b - ecn + 3)] (e.off + 10))
    else .frame (splice f o [BitVec.ofNat 8 (b + (3 - ecn) * 16)])

/-- PTP_CORR: add the residence time, in 2^-16 ns, to the correctionField. -/
def ptpCorr (f : List Byte) (e : EOp) (residence : Int) : Rw :=
  if f.length < e.off + 16 ∨ 512 < e.off + 16 then editError
  else
    let old := slice f (e.off + 8) 8
    let new := beBytes 8 (ofInt 64 ((beVal old : Int) + residence))
    if e.aux = 0xFFFF then .frame (splice f (e.off + 8) new)
    else if f.length < e.aux + 2 ∨ 512 < e.aux + 2 then editError
    else .frame (putAdjust f (e.off + 8) new e.aux)

/-- The Internet checksum of bytes. -/
def inetSum (extra : Nat) (bs : List Byte) : Nat := 65535 - foldSum (extra + pairSum bs)

/-- IP4_CSUM: the header checksum over IHL words. -/
def ip4Csum (f : List Byte) (e : EOp) : Rw :=
  let ihl := (f.getD e.off 0).toNat % 16 * 4
  if ipVer f e.off ≠ 4 ∨ ihl < 20 ∨ f.length < e.off + ihl ∨ 512 < e.off + ihl then editError
  else
    let z := putBe16 f (e.off + 10) 0
    .frame (putBe16 z (e.off + 10) (inetSum 0 (slice z e.off ihl)))

/-- L4_CSUM: the TCP or UDP checksum over the pseudo-header and the rest of the frame. -/
def l4Csum (f : List Byte) (e : EOp) : Rw :=
  let v := ipVer f e.off
  let hdr := if v = 4 then 20 else 40
  let proto := (f.getD (e.off + (if v = 4 then 9 else 6)) 0).toNat
  let cs := e.aux + (if proto = 6 then 16 else 6)
  if (v ≠ 4 ∧ v ≠ 6) ∨ f.length < e.off + hdr ∨ 512 < e.off + hdr ∨ (proto ≠ 6 ∧ proto ≠ 17) ∨ f.length < cs + 2
      ∨ 512 < cs + 2 then editError
  else
    let z := putBe16 f cs 0
    let rest := z.drop e.aux
    let addrs := if v = 4 then slice z (e.off + 12) 8 else slice z (e.off + 8) 32
    let pseudo := pairSum addrs + proto + rest.length % 65536 + rest.length / 65536
    let c := inetSum pseudo rest
    .frame (putBe16 z cs (if c = 0 ∧ proto = 17 then 0xFFFF else c))

/-- Apply to a frame what has not ended it yet. -/
def Rw.bind (r : Rw) (g : List Byte → Rw) : Rw :=
  match r with
  | .frame f => g f
  | .drop a b => .drop a b

/-- A member operation that is not structural, at step 3. -/
def rwMember (m : Option EOp) (residence : Int) (f : List Byte) : Rw :=
  match m with
  | some e =>
    if e.op = 7 then ip4Csum f e
    else if e.op = 8 then l4Csum f e
    else if e.op = 10 then ptpCorr f e residence
    else .frame f
  | none => .frame f

/-- Steps 1 to 3: SET_LEN, the structural operations and the member operation. -/
def rwStruct (l : List EOp) (m : Option EOp) (residence : Int) (frame : List Byte) : Rw :=
  let start := match l with
    | e :: _ => if e.op = 11 then (if frame.length < e.len then none else some (frame.take e.len)) else some frame
    | [] => some frame
  match start with
  | none => editError
  | some f => match (Ed.steps { frame := f } (l ++ m.toList)) with
    | some x => rwMember m residence x.frame
    | none => editError

def opsOf (l : List EOp) (k : Nat) : List EOp := l.filter fun e => e.op = k

/-- Step 4. -/
def rwMark (l : List EOp) (mark : Bool) (f : List Byte) : Rw :=
  match mark, opsOf l 9 with
  | true, e :: _ => markEcn f e
  | _, _ => .frame f

/-- Steps 5 to 7. -/
def rwFix (l : List EOp) (residence : Int) (f : List Byte) : Rw :=
  let r1 := (opsOf l 10).foldl (fun r e => Rw.bind r fun g => ptpCorr g e residence) (.frame f)
  let r2 := (opsOf l 7).foldl (fun r e => Rw.bind r fun g => ip4Csum g e) r1
  (opsOf l 8).foldl (fun r e => Rw.bind r fun g => l4Csum g e) r2

/-! ### Steps 8 and 9 -/

/-- The E-tag of IEEE 802.1BR: EtherType 0x893F, E-PCP, E-CID; the ingress E-CID is 0 (R93, log 27). -/
def etag (pcp ecid : Nat) : List Byte :=
  beBytes 2 0x893F ++ beBytes 2 (pcp * 8192) ++ beBytes 2 (ecid % 4096) ++ [0] ++ beBytes 1 (ecid / 4096)

/-- Push the E-tag after the source address. -/
def pushEtag (f : List Byte) (tag : List Byte) : List Byte := f.take 12 ++ tag ++ f.drop 12

/-- Padding: zero bytes to 64 bytes, FCS included (R84). -/
def padFrame (f : List Byte) : List Byte := f ++ List.replicate (60 - f.length) 0

/-- Steps 8 and 9 with the limit on length. -/
def rwFinish (tag : Option (List Byte)) (f : List Byte) : Rw :=
  let g := match tag with
    | some t => pushEtag f t
    | none => f
  if 10236 < g.length then .drop 2 2 else .frame (padFrame g)

/-- Wire bytes: LENGTH with E-tag, padding and FCS, plus 20 (R409). -/
def wireBytes (len : Nat) (tagged : Bool) : Nat := Nat.max (len + (if tagged then 8 else 0)) 60 + 4 + 20

end Sys2Proof.Machine
end

