-- ==== Sys2Proof/Machine/Sump.lean ====
section
/-!
DEFINITION. How copies end: the sump and its samples, the outcomes of a packet's copies, and the arrival of a copy at a
punt ring (R32, R428, R429, R503, R504).
-/

namespace Sys2Proof.Machine

def State.updEgress (s : State) (f : EgressSt → EgressSt) : State := { s with egress := f s.egress }

/-! ### Counting (R428) -/

def PB.add (x : PB) (n : Nat) : PB := ⟨x.pkts + 1, x.bytes + BitVec.ofNat 64 n⟩

/-- Count under a code and sub-reason. -/
def State.sump (s : State) (code sub bytes : Nat) : State :=
  s.updEgress fun e => { e with sump := SMap.set {} e.sump (code * 16 + sub) ((SMap.get {} e.sump (code * 16 + sub)).add bytes) }

/-- Count a copy under its logical egress port and code. -/
def State.sumpAt (s : State) (lport code bytes : Nat) : State :=
  if 1024 ≤ lport then s
  else s.updEgress fun e => { e with
    sumpPort := SMap.set {} e.sumpPort (lport * 32 + code) ((SMap.get {} e.sumpPort (lport * 32 + code)).add bytes) }

/-! ### Punt arrival (R503, R504) -/

def State.rxRing (s : State) (f : HostFn) (r : Nat) : PuntRing := SMap.get {} (s.fn f).rx r
def State.updRx (s : State) (f : HostFn) (r : Nat) (g : PuntRing → PuntRing) : State :=
  s.updFn f fun x => { x with rx := SMap.set {} x.rx r (g (SMap.get {} x.rx r)) }
def State.updTx (s : State) (f : HostFn) (r : Nat) (g : PuntRing → PuntRing) : State :=
  s.updFn f fun x => { x with tx := SMap.set {} x.tx r (g (SMap.get {} x.tx r)) }

/-- The host of a delivery to the lease holder: Host A when no lease is valid (R503). -/
def State.primary (s : State) : HostFn :=
  match s.dci.lease.holder with
  | some f => if s.dci.lease.expired then .hostA else f
  | none => .hostA

/-- SUMP_CONFIG's HOST. -/
def State.sampleHost (s : State) (h : Nat) : HostFn := if h = 0 then .hostA else if h = 1 then .hostB else s.primary

/-- The ring takes copies: its function exists and it is enabled. -/
def State.rxOpen (s : State) (f : HostFn) (r : Nat) : Bool := s.fns.contains f && (s.rxRing f r).base.getLsbD 0

/-- A sample of a drop: a mirror of its first 128 bytes, when its turn comes and at most 1e6 in a second of DT
(R429, log 28). -/
def State.sample (s : State) (code sub inPort domain : Nat) (seq : W32) (dt : Nat) (bytes : List Byte) : State :=
  let k : SampleCfg := SMap.get {} s.egress.samples code
  if 20 < k.rate then s
  else
    let s1 := s.updEgress fun e => { e with
      samples := SMap.set {} e.samples code { k with seen := (k.seen + 1) % 2 ^ k.rate } }
    if k.seen ≠ 0 then s1
    else
      let win := s.dt / 1000000000
      let used := if s.egress.sampleWin = win then s.egress.sampleNow else 0
      if 1000000 ≤ used then s1.updEgress fun e => { e with sampleSkip := e.sampleSkip + 1 }
      else
        let s2 := s1.updEgress fun e => { e with sampleWin := win, sampleNow := used + 1 }
        let f := s.sampleHost k.host
        if s2.rxOpen f k.ring && decide ((s2.rxRing f k.ring).waiting.length < (s2.rxRing f k.ring).qmax) then
          s2.updRx f k.ring fun r => { r with
            waiting := r.waiting ++ [⟨0xFFFFFFFF, bytes.take 128, code, 0x10, sub, inPort, domain, seq, dt, none⟩] }
        else s2

/-! ### Packet outcomes (R32) -/

/-- A copy of a packet ends with an outcome; with the last copy the disposition is final. -/
def State.outcome (s : State) (p code : Nat) : State :=
  let r := s.rc p
  let low := Nat.min r.outcome code
  let r1 := { r with left := r.left - 1, outcome := low, sent := if code ≤ 1 then r.sent + 1 else r.sent }
  s.setRc p (if r.left ≤ 1 ∧ r.disposition.isNone then { r1 with disposition := some low } else r1)

/-- A packet ends in a disposition that no copy carries: counted, and sampled (R428, R429). -/
def State.dispose (s : State) (p code sub : Nat) : State :=
  let k := s.pkt p
  let s1 := s.updRc p fun r => { r with disposition := some code }
  if code ≤ 1 then s1
  else (s1.sump code sub k.bytes.length).sample code sub k.inPort k.domain k.seq k.sofDt k.bytes

/-! ### Deliveries -/

/-- A waiting or arriving copy ends without reaching host memory: counted in DROPPED, its reference released and its
outcome counted (R502, R504). A sample has no outcome. -/
def State.puntDrop (s : State) (f : HostFn) (ring : Nat) (c : PuntCopy) (code sub : Nat) : State :=
  if c.flags.getLsbD 4 then s
  else
    let s0 := s.updRx f ring fun r => { r with dropped := r.dropped + 1 }
    let s1 := ((s0.sump code sub c.bytes.length).sample code sub c.inPort c.domain c.seq c.dt c.bytes).decRef c.handle
    match c.pkt with
    | some p => s1.outcome p code
    | none => s1

/-- A copy arrives at a receive ring (R504). -/
def State.puntArrive (s : State) (f : HostFn) (ring : Nat) (c : PuntCopy) : State :=
  if !s.rxOpen f ring then s.puntDrop f ring c 5 2
  else if (s.rxRing f ring).qmax ≤ (s.rxRing f ring).waiting.length then s.puntDrop f ring c 4 0
  else s.updRx f ring fun r => { r with waiting := r.waiting ++ [c] }

/-- The ring stops: every waiting copy is flushed (R504). -/
def State.puntFlush (s : State) (f : HostFn) (ring : Nat) : State :=
  let l := (s.rxRing f ring).waiting
  l.foldl (fun acc c => acc.puntDrop f ring c 5 0) (s.updRx f ring fun r => { r with waiting := [] })

end Sys2Proof.Machine
end

