-- ==== Sys2Proof/Machine/Pumps.lean ====
section
/-!
DEFINITION. The pumps as operations: ports behind queues, queue lengths, the end of a copy, enqueue with its checks,
shapers, eligibility and selection, and the start and end of a transmission (R403-R426).
-/

namespace Sys2Proof.Machine

/-! ### Copies, their frames and lengths -/

/-- The frame a buffer holds, without a received FCS (R420). -/
def Buf.frame (b : Buf) : List Byte := if b.cls = 1 ∨ b.cls = 5 then b.data.take (b.data.length - 4) else b.data

/-- The operations of a copy's list, none when the list is not well formed. -/
def State.copyOps (s : State) (c : Copy) : Option (List EOp) :=
  match s.buf c.handle with
  | some b => editList c.ops c.edit (b.cls = 3)
  | none => none

def Copy.member' (c : Copy) : Option EOp := c.member.bind memberEdit

/-- Cells a copy's buffer holds. -/
def State.copyCells (s : State) (c : Copy) : Nat := match s.buf c.handle with
  | some b => b.cells.length
  | none => 0

def State.cellsOf (s : State) (l : List Copy) : Nat := total (l.map s.copyCells)

/-- Record bytes of a spilled copy: header and frame padded to 8 (R179). -/
def recSize (len : Nat) : Nat := 16 + (len + 7) / 8 * 8

def SpillRec.size (r : SpillRec Copy) : Nat := recSize r.bytes.length

def Queue.aggCopies (q : Queue) : List Copy := match q.agg with
  | some a => a.copies
  | none => []

/-- The queue length in cells (R414). -/
def State.queueLen (s : State) (q : Queue) : Nat :=
  s.cellsOf (q.head ++ q.aggCopies ++ q.tail) + (total (q.records.map SpillRec.size) + 255) / 256

/-- The queue holds no copy. -/
def Queue.empty (q : Queue) : Bool :=
  q.head.isEmpty && q.records.isEmpty && q.aggCopies.isEmpty && q.tail.isEmpty

/-- With nothing spilled and no aggregate the tail joins the head (R182). -/
def Queue.settle (q : Queue) : Queue :=
  if q.records.isEmpty ∧ q.agg.isNone then { q with head := q.head ++ q.tail, tail := [] } else q

/-! ### The edit store (R419, R422) -/

def Pump.editUsed (x : Pump) : Nat := total (x.edits.map fun e => e.2.2.1)

/-- Hold a copy's list: copies of one emission share it. -/
def Pump.hold (x : Pump) (pkt emit slots : Nat) : Pump :=
  if slots = 0 then x
  else if x.edits.any fun e => e.1 = pkt ∧ e.2.1 = emit then
    { x with edits := x.edits.map fun e => if e.1 = pkt ∧ e.2.1 = emit then (e.1, e.2.1, e.2.2.1, e.2.2.2 + 1) else e }
  else { x with edits := x.edits ++ [(pkt, emit, slots, 1)] }

def Pump.release (x : Pump) (pkt emit : Nat) : Pump :=
  { x with edits := (x.edits.map fun e =>
      if e.1 = pkt ∧ e.2.1 = emit then (e.1, e.2.1, e.2.2.1, e.2.2.2 - 1) else e).filter fun e => e.2.2.2 ≠ 0 }

def Pump.hasRoom (x : Pump) (pkt emit slots : Nat) : Bool :=
  slots = 0 || (x.edits.any fun e => e.1 = pkt ∧ e.2.1 = emit) || x.editUsed + slots ≤ 65536

/-! ### The end of a copy (R32, R156, R426, R428) -/

/-- The copy's reference to its buffer is released; a missing buffer or count is a bad free (R156, R162). -/
def State.endRef (s : State) (h : Nat) : State :=
  match s.buf h with
  | none => s.badFree (if s.chained h then 2 else 0) 0 0 h
  | some b => if b.count = 0 then s.badFree 0 0 b.tag h else s.decRef h

/-- A copy's outcome goes to its packet; a host transmit has none (R32, R505). -/
def State.copyOutcome (s : State) (c : Copy) (code : Nat) : State :=
  if c.hostTx.isSome then s else s.outcome c.pkt code

/-- A copy ends without completing. `bytes` is what it held, `ref` whether it still refers to a buffer, `held` whether it
holds its edit list. -/
def State.dropCopy (s : State) (c : Copy) (code sub : Nat) (bytes : List Byte) (ref held : Bool) : State :=
  let s1 := ((s.sump code sub c.len).sumpAt (s.queuePort c.queue) code c.len).sample code sub c.inPort c.domain c.seq
    c.ingressDt bytes
  let s2 := s1.updQueue c.queue fun q => { q with drops := q.drops + 1 }
  let s3 := if held then s2.updPump (s.copyPump c) fun x => x.release c.pkt c.emit else s2
  let s4 := if ref then s3.endRef c.handle else s3
  s4.copyOutcome c code

/-- The bytes of a copy's buffer. -/
def State.copyBytes (s : State) (c : Copy) : List Byte := match s.buf c.handle with
  | some b => b.data
  | none => []

/-- A copy in the basin that holds its list ends without completing. -/
def State.killCopy (s : State) (c : Copy) (code sub : Nat) : State := s.dropCopy c code sub (s.copyBytes c) true true

/-! ### Enqueue (R412, R414, R415) -/

/-- WRED (R415): the queue's average, and 0 enqueue, 1 mark, 2 drop. -/
def wredStep (w : Wred) (avg len : Nat) (ecnPoint : Bool) (r : Nat) : Nat × Nat :=
  let a0 : Int := if len = 0 then 0 else avg
  let a := (a0 + ((len : Int) * 65536 - a0) / 2 ^ w.w).toNat
  let ect := w.ecn && ecnPoint
  if ect ∧ w.kmark ≠ 0 ∧ w.kmark ≤ len then (a, 1)
  else if a < w.min * 65536 then (a, 0)
  else if w.max * 65536 ≤ a then (a, 2)
  else if r * (w.max - w.min) * 256 < w.pmax * (a - w.min * 65536) then (a, if ect then 1 else 2)
  else (a, 0)

/-- Append a copy to its queue (R182); its class is active (R532). -/
def State.append' (s : State) (c : Copy) : State :=
  (s.classActive (c.queue % 8)).updQueue c.queue fun q =>
    let q1 := if q.records.isEmpty ∧ q.agg.isNone ∧ q.tail.isEmpty then { q with head := q.head ++ [c] }
      else { q with tail := q.tail ++ [c] }
    { q1 with peak := Nat.max q1.peak (s.queueLen q1) }

/-- The port of the queue is in its FLUSH phase. -/
def State.flushing (s : State) (q : Nat) : Bool := match s.queuePhys q with
  | some p => (s.eport p).phase = .flush
  | none => false

/-- The port for which a copy is queued is in its FLUSH phase. -/
def State.flushingFor (s : State) (c : Copy) : Bool := match s.copyPhys c with
  | some p => (s.eport p).phase = .flush
  | none => false

/-- Enqueue a copy: the checks of R414 in their order. A group whose extended port has no valid entry is mapped, but its copy
would be dropped by the rewrite engine (R93, log 29). -/
def State.enqueue (s : State) (c0 : Copy) : State :=
  let c := s.bindCascade c0
  let q := s.queue c.queue
  let bytes := s.copyBytes c
  if s.queuePort c.queue = 0xFFFF then s.dropCopy c 5 2 bytes true false
  else if s.copyPhys c = none then s.dropCopy c 5 3 bytes true false
  else if s.flushingFor c then s.dropCopy c 5 1 bytes true false
  else match s.copyOps c, s.buf c.handle with
    | some ops, some b =>
      if (c.member.isSome ∧ c.member'.isNone) then s.dropCopy c 2 1 bytes true false
      else
        let pn := s.copyPump c
        let c1 := { c with len := if c.ct then 0 else editLength b.frame.length ops c.member', slots := c.edit.length / 16 }
        let len := s.queueLen q
        if !(s.pump pn).hasRoom c.pkt c.emit c1.slots then s.dropCopy c1 4 3 bytes true false
        else if q.qmax ≠ 0 ∧ q.qmax ≤ len then s.dropCopy c1 4 0 bytes true false
        else
          let w : Wred := SMap.get {} s.egress.wreds q.wred
          if q.wred = 0 ∨ w = {} then (s.updPump pn fun x => x.hold c.pkt c.emit c1.slots).append' c1
          else
            let d := s.draw
            let r := wredStep w q.avg len ((opsOf ops 9).length ≠ 0) (d.1.toNat % 65536)
            let s1 := d.2.updQueue c.queue fun q => { q with avg := r.1 }
            if r.2 = 2 then s1.dropCopy c1 4 1 bytes true false
            else (s1.updPump pn fun x => x.hold c.pkt c.emit c1.slots).append' { c1 with mark := r.2 = 1 }
    | _, _ => s.dropCopy c 2 1 bytes true false

/-- The release slot of a timed copy in µs (R412): none when it is enqueued at once, with whether it was clamped. The last
slot is the one 16,384 boundaries ahead, or the one before it where that is not before the release DT. -/
def State.wheelSlot (s : State) (rel : Nat) : Option (Nat × Bool) :=
  if rel ≤ s.dt then none
  else if s.dt + 16383000 < rel then
    let last := s.dt / 1000 + 16384
    some (if last * 1000 < rel then last else last - 1, true)
  else some ((rel + 999) / 1000, false)

/-- A copy reaches its pump (R412). -/
def State.arrive (s : State) (pn : Nat) (c0 : Copy) : State :=
  let c := s.bindCascade c0
  match c.release.bind s.wheelSlot with
  | none => s.enqueue c
  | some (slot, clamped) =>
    if 16384 ≤ (s.pump pn).wheel.length then s.dropCopy c 4 4 (s.copyBytes c) true false
    else (s.classActive (c.queue % 8)).updPump pn fun x => { x with
      wheel := x.wheel ++ [(slot, c)], clamp := if clamped then x.clamp + 1 else x.clamp }

/-! ### Shapers (R410) -/

def Shaper.refill (x : Shaper) (now : Nat) : Shaper :=
  { x with
    last := now
    tokens := min (x.tokens + ((x.rate * (now - x.last) / 15625 : Nat) : Int)) ((x.burst * 512 : Nat) : Int) }

/-- The shaper lets frames through: unshaped, or tokens above 0. -/
def Shaper.open' (x : Shaper) (now : Nat) : Bool := x.rate = 0 || 0 < (x.refill now).tokens

def Shaper.charge (x : Shaper) (now bytes : Nat) : Shaper :=
  if x.rate = 0 then x
  else
    let y := x.refill now
    { y with tokens := y.tokens - ((bytes * 512 : Nat) : Int) }

/-- Write a shaper's settings: the tokens stay, capped at the new burst; the elapsed time of an unshaped one is not
credited (log 30). -/
def Shaper.config (x : Shaper) (now rate burst : Nat) : Shaper :=
  let y := if x.rate = 0 then { x with last := now } else x.refill now
  { y with rate := rate, burst := burst, tokens := min y.tokens ((burst * 512 : Nat) : Int) }

/-! ### Eligibility and selection (R409, R416) -/

/-- The class of a queue is paused by a PFC priority or by PAUSE (R416). -/
def State.paused (s : State) (phys q : Nat) : Bool :=
  let prio := (s.eport (s.queuePort q)).pfcMap.toNat / 8 ^ (q % 8) % 8
  SMap.get 0 (s.eport phys).pauseEnd prio ≠ 0 || SMap.get 0 (s.eport phys).pauseEnd 8 ≠ 0

def groupQueues (g : Nat) : List Nat := (List.range 8).map (8 * g + ·)

def State.queueEligible (s : State) (phys q : Nat) : Bool :=
  !(s.queue q).head.isEmpty && s.queuePhys q = some phys && !s.paused phys q && (s.queue q).shaper.open' s.dt

def State.groupEligible (s : State) (phys g : Nat) : Bool :=
  (groupQueues g).any (s.queueEligible phys) && (s.group g).shaper.open' s.dt
    && (s.eport (s.group g).port).shaper.open' s.dt

/-- The groups scheduled on a physical port: its own, and those of extended ports behind it or with copies queued there. -/
def State.portGroups (s : State) (phys : Nat) : List Nat :=
  (s.egress.groups.filter fun e => e.2.port ≠ 0xFFFF && if e.2.port < 128 then e.2.port = phys
    else s.physOf e.2.port = some phys || (groupQueues e.1).any fun q => s.queuePhys q = some phys).map Prod.fst

def State.updGroup (s : State) (g : Nat) (f : QGroup → QGroup) : State := s.setGroup g (f (s.group g))

/-- A group or class left with no eligible queue has its deficit set to 0. -/
def State.clearDeficits (s : State) (phys : Nat) : State :=
  (s.portGroups phys).foldl (fun acc g =>
    let a1 := if acc.groupEligible phys g then acc else acc.updGroup g fun x => { x with deficit := 0 }
    (groupQueues g).foldl (fun b q =>
      if b.queueEligible phys q || (b.queue q).deficit = 0 then b else b.updQueue q fun x => { x with deficit := 0 }) a1) s

/-- The wire bytes of a queue's head copy. -/
def State.headWire (s : State) (q : Nat) : Nat := match (s.queue q).head with
  | c :: _ => wireBytes c.len (s.tagged q)
  | [] => 0

/-- The class a visit to a group looks at, and whether it is strict. -/
def State.pickClass (s : State) (phys g : Nat) : Option (Nat × Bool) :=
  let grp := s.group g
  let el := (List.range 8).filter fun c => s.queueEligible phys (8 * g + c)
  match (el.filter fun c => grp.spMask.getLsbD c).getLast? with
  | some c => some (c, true)
  | none =>
    (((List.range 8).map fun k => (grp.lastClass + 1 + k) % 8).find? fun c => el.contains c).map fun c => (c, false)

/-- The loop of R409 over the eligible groups: the queue chosen. -/
def State.selectLoop (s : State) (phys : Nat) (order : List Nat) (fuel : Nat) : State × Option Nat :=
  match fuel, order with
  | 0, _ => (s, none)
  | _, [] => (s, none)
  | n + 1, g :: rest =>
    let s1 := s.updGroup g fun x => { x with deficit := x.deficit + 256 * x.weight }
    match s1.pickClass phys g with
    | none => s1.selectLoop phys (rest ++ [g]) n
    | some (c, strict) =>
      let q := 8 * g + c
      let w := s1.headWire q
      let s2 := if strict then s1
        else (s1.updQueue q fun x => { x with deficit := x.deficit + 256 * x.weight }).updGroup g fun x => { x with lastClass := c }
      if w ≤ (s2.group g).deficit ∧ (strict ∨ w ≤ (s2.queue q).deficit) then
        let s3 := s2.updGroup g fun x => { x with deficit := x.deficit - w }
        let s4 := if strict then s3 else s3.updQueue q fun x => { x with deficit := x.deficit - w }
        (s4.updEport phys fun x => { x with lastGroup := g }, some q)
      else s2.selectLoop phys (rest ++ [g]) n

/-- The queue whose head copy the port sends next (R409). -/
def State.select (s : State) (phys : Nat) : State × Option Nat :=
  let s1 := s.clearDeficits phys
  let el := (s1.portGroups phys).filter (s1.groupEligible phys)
  let last := (s1.eport phys).lastGroup
  let order := (el.filter fun g => last < g) ++ (el.filter fun g => g ≤ last)
  s1.selectLoop phys order (el.length * 1280)

/-- The MAC can take a frame: the port is UP, or in SERDES_NEAR or MAC_NEAR loopback, and the pump is not being reset (R108). -/
def State.macTakes (s : State) (phys : Nat) : Bool :=
  (((s.port phys).st = .up && (s.port phys).link.lossDt.isNone) || s.testing phys 2 || s.testing phys 4)
    && (s.eport phys).now.isNone && !(s.pump (wellOf phys)).resetting

/-! ### Rewrite of a copy (R421, R93) -/

/-- The residence time of a copy in 2^-16 ns (R420). -/
def residence (c : Copy) (dt q : Nat) : Int := ((dt : Int) - c.ingressDt) * 65536 + ((q : Int) - c.qns) * 16384

/-- The tag of a copy, or the drop when its E-CID entry has gone or names another cascade port (R93). -/
def State.copyTag (s : State) (phys q : Nat) : Option (Option (List Byte)) :=
  let lp := s.queuePort q
  if lp < 128 then some none
  else match s.ecidOf lp with
    | some w => if ecidCascade w = phys then some (if w.getLsbD 41 then some (etag (fld w 42 3) (ecidEcid w)) else none)
                else none
    | none => none

/-- The whole rewrite of a copy's frame at a transmit DT. -/
def State.rewrite (s : State) (phys : Nat) (c : Copy) (frame : List Byte) (cluster : Bool) (dt q : Nat) : Rw :=
  match editList c.ops c.edit cluster with
  | none => editError
  | some ops =>
    match s.copyTag phys c.queue with
    | none => .drop 5 3
    | some tag =>
      let res := residence c dt q
      (((rwStruct ops c.member' res frame).bind (rwMark ops c.mark)).bind (rwFix ops res)).bind (rwFinish tag)

/-! ### Starting and ending a transmission (R425, R426) -/

/-- A frame goes onto the wire, with its FCS or the complement of it; in MAC_NEAR it returns to the port's intake instead
(R84, R108, log 159). -/
def State.wire (s : State) (phys : Nat) (bytes : List Byte) (good : Bool) (dt : Nat) : State :=
  if s.testing phys 4 then
    s.macReturn phys (if bytes.isEmpty then [] else bytes ++ if good then fcs bytes else (fcs bytes).map (~~~ ·))
  else { s with out := { s.out with wire := s.out.wire ++ [⟨phys, bytes, good, dt⟩] } }

def State.stompCount (s : State) (phys : Nat) : State :=
  s.updPort phys fun x => { x with mac := { x.mac with stomps := x.mac.stomps + 1 } }

/-- End what a port transmits with the complement of the correct FCS. -/
def State.stompNow (s : State) (phys : Nat) (n : TxNow) : State :=
  ((s.wire phys n.bytes false n.started).stompCount phys).updEport phys fun x => { x with now := none }

/-- The copy a port sends is aborted: it ends as TX_ABORT (R425). The bytes sent before are not given. -/
def State.txAbort (s : State) (phys : Nat) : State :=
  match (s.eport phys).now with
  | none => s
  | some n =>
    let s1 := (s.wire phys [] false n.started).updEport phys fun x => { x with now := none }
    if n.copy.ct ∧ n.copy.hostTx.isNone ∧ (s.pkt n.copy.pkt).st ≠ .finished then
      (s1.updPump (wellOf phys) fun x => x.release n.copy.pkt n.copy.emit).updRc n.copy.pkt fun r => { r with ctAbort := true }
    else s1.killCopy n.copy 5 4

/-- The FLUSH phase of a port starts (R424, R425). -/
def State.flushStart (s : State) (p : Nat) : State :=
  (s.updEport p fun x => { x with phase := .flush, flushed := 0 }).event 0x0705 [(1, 0), (2, p), (4, 0)]

/-- The down policy of a port begins (R424). -/
def State.policyStart (s : State) (p : Nat) : State :=
  let s1 := s.updEport p fun x => { x with phase := .hold, downDt := s.dt }
  if (s.eport p).downPolicy = 2 then s1.flushStart p else s1

/-- The port is UP: its phase ends (R425). -/
def State.policyEnd (s : State) (p : Nat) : State :=
  let e := s.eport p
  let s1 := s.updEport p fun x => { x with phase := .none, flushed := 0 }
  if e.phase = .flush then s1.event 0x0705 [(1, 1), (2, p), (4, e.flushed)] else s1

end Sys2Proof.Machine
end

