-- ==== Sys2Proof/Machine/PumpRows.lean ====
section
/-!
DEFINITION. What the pumps do: arrivals, timed release, selection, transmission, spill and refill, flow control and
flush (R182-R188, R409-R429).
-/

namespace Sys2Proof.Machine

/-! ### Errors in buffer memory (R187, R188) -/

def BufErr.store : BufErr → Nat
  | .data _ => 0
  | .link _ => 1
  | .owner => 2
  | .bitmap => 3
  | .cisternRecord _ => 4
  | .cisternLinks => 5

/-- BUFFER_ERROR (R187, R500), with its error count (R561). -/
def State.bufferError (s : State) (e : Sys2Proof.BufErr) (loc : Nat) : State :=
  (s.errCnt (if 4 ≤ BufErr.store e then 11 else 10) fun k => { k with uncorrectable := k.uncorrectable + 1 }).event 0x0701
    [(1, BufErr.store e), (4, loc)]

/-- Basin rebuild starts (R189). -/
def State.rebuildBegin (s : State) : State :=
  if s.basin.rebuild then s
  else { s with basin := { s.basin with rebuild := true, rebuildWait := true, rebuildStart := s.dt } }

/-- The cells of a bitmap word are fenced, and rebuild starts (R187). -/
def State.fenceWord (s : State) (c : Nat) : State :=
  ({ s with basin := { s.basin with
      fenced := ((List.range 64).map (c / 64 * 64 + ·)).foldl insNat s.basin.fenced } }).rebuildBegin

/-- A broken link: the cells beyond it become orphans (R187). -/
def State.breakLink (s : State) (h cell : Nat) : State :=
  match s.buf h with
  | none => s
  | some b =>
    let s1 := s.updBuf h fun x => { x with cells := x.cells.take (cell + 1), linkBad := true }
    { s1 with basin := { s1.basin with orphans := s1.basin.orphans ++ (b.cells.drop (cell + 1)).map fun k => (k, b.ents) } }

/-- What the reader of a buffer meets that earlier errors have left: a damaged owner entry, a broken chain, or a word that
reads with an error (R187, R263). -/
def Buf.broken (b : Buf) : Option Nat :=
  if b.ownerBad then some 4 else if b.linkBad || !b.bad.isEmpty then some 1 else none

/-- The error met when a copy is read from the basin: the effect, and how the copy ends if it does. -/
def State.readError (s : State) (c : Copy) (err : Option Sys2Proof.BufErr) : State × Option Nat :=
  match err with
  | some (.data k) => ((s.bufferError (.data k) (s.cellAt c.handle k)).cellFault (s.cellAt c.handle k), some 1)
  | some (.link k) => ((s.bufferError (.link k) (s.cellAt c.handle k)).breakLink c.handle k, some 1)
  | some .owner => (((s.bufferError .owner c.handle).updBuf c.handle fun b => { b with ownerBad := true }).rebuildBegin, some 4)
  | some .bitmap => ((s.bufferError .bitmap (c.handle / 64 * 64)).fenceWord c.handle, (s.buf c.handle).bind Buf.broken)
  | _ => (s, (s.buf c.handle).bind Buf.broken)

/-! ### Arrival and release -/

/-- COPY_ARRIVAL: the first copy on its way to a pump arrives (R412, R414); commits wait during a pump reset (R427). -/
def execCopyArrival (pump : Nat) (s : State) : Out :=
  match (s.pump pump).arrivals with
  | [] => done s
  | c :: rest =>
    if (s.pump pump).resetting then done s
    else done ((s.updPump pump fun x => { x with arrivals := rest }).arrive pump c)

/-- Copies in order of their slot, and of entry within it. -/
def bySlot (l : List (Nat × Copy)) : List (Nat × Copy) :=
  l.foldl (fun acc e => acc.takeWhile (fun x => x.1 ≤ e.1) ++ [e] ++ acc.dropWhile (fun x => x.1 ≤ e.1)) []

/-- WHEEL_SLOT: at a slot boundary the copies due are enqueued (R413, R62). -/
def execWheelSlot (pump : Nat) (s : State) : Out :=
  let due := (s.pump pump).wheel.filter fun e => e.1 * 1000 ≤ s.dt
  if due.isEmpty ∨ (s.pump pump).resetting then done s
  else
    let s1 := s.updPump pump fun x => { x with wheel := x.wheel.filter fun e => s.dt < e.1 * 1000 }
    done ((bySlot due).foldl (fun acc e => acc.enqueue e.2) s1)

/-! ### Selection and transmission -/

/-- Take the head copy of a queue. -/
def State.popHead (s : State) (q : Nat) : State := s.updQueue q fun x => Queue.settle { x with head := x.head.drop 1 }

/-- The place in the frame sent of the first poisoned word (R551): its place in the buffer, moved by the growth of the
frame (log 32). -/
def poisonPlace (b : Buf) (sent : Nat) : Option Nat :=
  match b.poison with
  | [] => none
  | w :: ws => some (((ws.foldl Nat.min w) * 8 + sent) - b.frame.length)

/-- Rewrite a copy and start its frame, or end it (R421, R551). -/
def State.startCopy (s : State) (phys : Nat) (c : Copy) : State :=
  match s.buf c.handle with
  | none => s.killCopy c 2 1
  | some b =>
    match s.rewrite phys c b.frame (b.cls = 3) s.dt s.qns with
    | .drop code sub => s.killCopy c code sub
    | .frame f => s.updEport phys fun x => { x with now := some ⟨c, f, poisonPlace b f.length, s.dt, s.qns⟩ }

/-- PUMP_SELECT: when the port's MAC can take a frame, the pump selects a copy and rewrite starts it (R409, R421, R187). -/
def execPumpSelect (port : Nat) (err : Option BufErr) (s : State) : Out :=
  if !s.macTakes port then done s
  else
    let r := s.select port
    match r.2 with
    | none => done r.1
    | some q =>
      match (r.1.queue q).head with
      | [] => done r.1
      | c :: _ =>
        let s1 := (r.1.popHead q).clearDeficits port
        let e := s1.readError c err
        match e.2 with
        | some sub => done (e.1.killCopy c 6 sub)
        | none => done (e.1.startCopy port c)

/-- TX_TIMESTAMP (R56, R500, R505). -/
def State.txStamp (s : State) (n : TxNow) : State :=
  let c := n.copy
  match c.hostTx with
  | some (f, idx) =>
    s.eventOn f 0x0005 s.time.ns (layout [(1, 1), (1, 0), (2, c.queue), (2, 0), (2, c.inPort), (4, idx), (1, n.startedQ),
      (8, n.started)])
  | none =>
    s.eventOn s.primary 0x0005 s.time.ns (layout [(1, 0), (1, c.no), (2, c.queue), (2, c.domain), (2, c.inPort),
      (4, c.seq.toNat), (1, n.startedQ), (8, n.started)])

/-- Charge the shapers of a queue, its group and its logical port (R410). -/
def State.chargeShapers (s : State) (q bytes : Nat) : State :=
  let lp := s.queuePort q
  let b := (((bytes : Int) + (s.eport lp).overhead)).toNat
  let s1 := s.updQueue q fun x => { x with shaper := x.shaper.charge s.dt b }
  let s2 := s1.updGroup (q / 8) fun x => { x with shaper := x.shaper.charge s.dt b }
  s2.updEport lp fun x => { x with shaper := x.shaper.charge s.dt b }

/-- The attached LEDGER entries of a copy that completes (R211, R426, R432). -/
def State.txLedger (s : State) (n : TxNow) : State :=
  n.copy.txl.foldl (fun acc e =>
    acc.ledgerAdd e.1 e.2.1 (e.2.2.2 + (if e.2.2.1 then BitVec.ofNat 64 n.copy.finalLen else 0)) n.started) s

/-- The frame of a copy that completes, as the wire carries it. -/
def State.sendFrame (s : State) (port : Nat) (n : TxNow) : State :=
  match n.poisonAt with
  | some k => ((s.wire port (n.bytes.take k) false n.started).stompCount port)
  | none => s.wire port n.bytes true n.started

/-- A copy completes. -/
def State.txDone (s : State) (port : Nat) (n : TxNow) : State :=
  let s1 := (s.sendFrame port n).updEport port fun x => { x with now := none }
  let s2 := if n.copy.ts then s1.txStamp n else s1
  let s3 := (s2.txLedger n).updPump (s2.copyPump n.copy) fun x => x.release n.copy.pkt n.copy.emit
  let s4 := (s3.chargeShapers n.copy.queue (n.bytes.length + 24)).endRef n.copy.handle
  s4.copyOutcome n.copy 0

/-- A cut-through copy is charged to its group, and to its class under DWRR, after its tail (R409). -/
def State.ctCharge (s : State) (q wire : Nat) : State :=
  let s1 := s.updGroup (q / 8) fun x => { x with deficit := x.deficit - wire }
  if (s.group (q / 8)).spMask.getLsbD (q % 8) then s1
  else s1.updQueue q fun x => { x with deficit := x.deficit - wire }

/-- TX_COMPLETE: the copy's last byte reaches the MAC (R426). A cut-through copy completes once its packet has committed;
its frame and its charges are then taken with the real length (R407, R409). -/
def execTxComplete (port : Nat) (s : State) : Out :=
  match (s.eport port).now with
  | none => done s
  | some n =>
    if !n.copy.ct then done (s.txDone port n)
    else if (s.pkt n.copy.pkt).st ≠ .finished then done s
    else
      match s.buf n.copy.handle with
      | none => done (s.txDone port n)
      | some b =>
        match s.rewrite port n.copy b.frame (b.cls = 3) n.started n.startedQ with
        | .drop code sub => done (((s.stompNow port n)).killCopy n.copy code sub)
        | .frame f =>
          let s1 := s.ctCharge n.copy.queue (f.length + 24)
          done ((s1.txDone port { n with
            bytes := f, poisonAt := poisonPlace b f.length
            copy := { n.copy with finalLen := (s.pkt n.copy.pkt).bytes.length } }).clearDeficits port)

/-- SHAPER_TOKENS_RETURN: the shapers of a port, of its groups and their queues are brought up to date (R410). -/
def execShaperTokensReturn (port : Nat) (s : State) : Out :=
  let refillE := fun (a : State) (lp : Nat) => a.updEport lp fun x =>
    if x.shaper.rate = 0 then x else { x with shaper := x.shaper.refill s.dt }
  done ((s.portGroups port).foldl (fun acc g =>
    let a1 := refillE acc (acc.group g).port
    let a2 := a1.updGroup g fun x => if x.shaper.rate = 0 then x else { x with shaper := x.shaper.refill s.dt }
    (groupQueues g).foldl (fun b q => b.updQueue q fun x =>
      if x.shaper.rate = 0 then x else { x with shaper := x.shaper.refill s.dt }) a2) s)

/-! ### Flow control (R416, R417) -/

/-- PAUSE_EXPIRY: a pause quantum's time runs out; priority 8 is PAUSE (R416). -/
def execPauseExpiry (port prio : Nat) (s : State) : Out :=
  let e := SMap.get 0 (s.eport port).pauseEnd prio
  if e ≠ 0 ∧ e ≤ s.dt then done (s.updEport port fun x => { x with pauseEnd := SMap.set 0 x.pauseEnd prio 0 })
  else done s

/-- PFC_RESEND: while the use stays above XON, the frame goes out again every 0x8000 quanta at the port's rate (R417).
`prio` is a priority of the ingress class, or 8 for PAUSE. -/
def execPfcResend (port prio : Nat) (s : State) : Out :=
  let cls := if prio = 8 then 8 else (s.port port).cfg.classMap.toNat / 8 ^ prio % 8
  let last := SMap.get 0 (s.eport port).xoff cls
  if last = 0 ∨ s.dt + 1 < last + 0x8000 * 512 / s.portRate port then done s
  else done ((s.sendFc port cls 0xFFFF).updEport port fun x => { x with xoff := SMap.set 0 x.xoff cls (s.dt + 1) })

/-! ### Down policy and flush (R424, R425) -/

/-- HOLD_TIME_EXPIRY: a HOLD_THEN_FLUSH port's hold time ends (R424). -/
def execHoldTimeExpiry (port : Nat) (s : State) : Out :=
  let e := s.eport port
  if e.phase = .hold ∧ e.downPolicy = 0 ∧ e.downDt + 1000000 * e.holdTime ≤ s.dt then done (s.flushStart port) else done s

/-- Cistern blocks that no record of a queue uses any more are freed (R180). -/
def State.freeBlocks (s : State) (q : Nat) (gone : List (SpillRec Copy)) : State :=
  let left := (s.queue q).records.flatMap (·.blocks)
  let old := (gone.flatMap (·.blocks)).filter fun b => !left.contains b
  let s1 := { s with cistern := { s.cistern with usedBlocks := s.cistern.usedBlocks.filter fun b => !old.contains b } }
  if left.isEmpty then s1.updQueue q fun x => { x with spillLast := [], spillRecs := 0 } else s1

/-- A spilled copy ends without completing. -/
def State.killRec (s : State) (r : SpillRec Copy) (code sub : Nat) : State := s.dropCopy r.copy code sub r.bytes false true

/-- The reads under way without their first record. -/
def dropRefill (l : List (List (SpillRec Copy))) : List (List (SpillRec Copy)) :=
  match l with
  | (_ :: r :: rs) :: rest => (r :: rs) :: rest
  | _ :: rest => rest
  | [] => []

/-- The first copy, or the records of the first block, of a queue: they end, with how many they were (R424). Records whose
write is not acknowledged wait for it. -/
def State.flushOne (s : State) (q sub : Nat) : State × Nat :=
  let x := s.queue q
  match x.head, x.refilling.flatten, x.spill with
  | c :: _, _, _ => ((s.popHead q).killCopy c 5 sub, 1)
  | [], r :: _, _ =>
    let s1 := (s.updQueue q fun y => Queue.settle { y with refilling := dropRefill (y.refilling.filter (!·.isEmpty)) }).freeBlocks q [r]
    (s1.killRec r 5 sub, 1)
  | [], [], r :: rs =>
    let b := r.blocks.head?
    let rs' := r :: rs.takeWhile fun e => e.blocks.head? = b
    let s1 := (s.updQueue q fun y => Queue.settle { y with spill := y.spill.drop rs'.length }).freeBlocks q rs'
    (rs'.foldl (fun acc e => acc.killRec e 5 sub) s1, rs'.length)
  | [], [], [] =>
    if !x.writing.isEmpty then (s, 0)
    else match x.agg with
    | some a => match a.copies with
      | c :: rest =>
        let agg' := if rest.isEmpty then none else some { a with copies := rest }
        ((s.updQueue q fun y => Queue.settle { y with agg := agg' }).killCopy c 5 sub, 1)
      | [] => (s.updQueue q fun y => Queue.settle { y with agg := none }, 0)
    | none =>
      match x.tail with
      | c :: rest => ((s.updQueue q fun y => { y with tail := rest }).killCopy c 5 sub, 1)
      | [] => (s, 0)

/-- Queues a QUEUE_FLUSH disposes of. -/
def State.flushQueues (s : State) (c : Sys2Proof.CmdRef) : List Nat :=
  (s.egress.queues.filter fun e => e.2.flush = some c).map Prod.fst

/-- A QUEUE_FLUSH is answered once its queues are empty, with the copies it disposed of (R425, R499). -/
def State.flushCheck (s : State) (c : Sys2Proof.CmdRef) : State :=
  let qs := s.flushQueues c
  if !qs.isEmpty ∧ qs.all fun q => (s.queue q).empty then
    let n := total (qs.map fun q => (s.queue q).flushed)
    let s1 := qs.foldl (fun acc q => acc.updQueue q fun x => { x with flush := none, flushed := 0 }) s
    s1.answer c (.data (leBytes 4 n))
  else s

/-- FLUSH_WALK: the pump disposes of one copy or one cistern block of a flushing port or of a QUEUE_FLUSH (R424, R425). -/
def execFlushWalk (pump : Nat) (s : State) : Out :=
  let mine := (s.egress.queues.filter fun e => s.pumpOf e.1 = pump).map Prod.fst
  if (s.pump pump).resetting then done s
  else match mine.find? fun q => !(s.queue q).empty && (s.flushing q || (s.queue q).flush.isSome) with
  | none => done (mine.foldl (fun acc q => match (acc.queue q).flush with
      | some c => acc.flushCheck c
      | none => acc) s)
  | some q =>
    let byPort := s.flushing q
    let r := s.flushOne q (if byPort then 0 else 5)
    let s1 := match byPort, s.queuePhys q with
      | true, some p => r.1.updEport p fun x => { x with flushed := x.flushed + r.2 }
      | _, _ => r.1
    let s2 := if (s.queue q).flush.isSome then s1.updQueue q fun x => { x with flushed := x.flushed + r.2 } else s1
    match (s.queue q).flush with
    | some c => done (s2.flushCheck c)
    | none => done s2

/-- PUMP_RESET_DONE: the pump takes commits and sends frames again (R427). -/
def execPumpResetDone (pump : Nat) (s : State) : Out :=
  if (s.pump pump).resetting then done (s.updPump pump fun x => { x with resetting := false }) else done s

/-! ### Spill (R182, R183, R186, R422) -/

/-- A kept operation as a slot of its own. -/
def EOp.image (e : EOp) : List Byte :=
  leBytes 1 e.op ++ [1] ++ leBytes 2 e.off ++ leBytes 2 e.len ++ leBytes 2 e.aux ++ List.replicate 8 0

/-- What spill writes of a copy: the rewritten frame with the copy as its record's entry keeps it, or how the copy ends
(R422). -/
def State.spillCopy (s : State) (c : Copy) : Copy × Rw :=
  match s.buf c.handle, s.copyOps c with
  | some b, some ops =>
    let late := (c.member'.filter fun e => e.op = 8 ∨ e.op = 10).toList
    let ops := ops ++ late
    let fix := ops.any fun e => e.op = 8 ∨ e.op = 10
    let f := (rwStruct ops (if late.isEmpty then c.member' else none) 0 b.frame).bind (rwMark ops c.mark)
    let kept := if fix then ops.filter fun e => e.op = 7 ∨ e.op = 8 ∨ e.op = 10 else []
    let f' := if fix then f else f.bind (rwFix ops 0)
    let len := match f' with
      | .frame g => g.length
      | .drop _ _ => 0
    ({ c with len := len, mark := false, member := none, ops := kept.length, edit := kept.flatMap EOp.image
              slots := kept.length, emit := 256 + c.no }, f')
  | _, _ => (c, editError)

/-- The queue entry of a copy (R407); EDIT is the place of its list among those its pump holds (log 163). -/
def State.queueEntry (s : State) (c : Copy) : List Byte :=
  let i := (s.pump (s.copyPump c)).edits.findIdx fun e => e.1 = c.pkt ∧ e.2.1 = c.emit
  leBytes 12 (c.handle + c.len * 2 ^ 32 + c.ts.toNat * 2 ^ 46 + c.mark.toNat * 2 ^ 47 + c.ct.toNat * 2 ^ 48
    + (!c.txl.isEmpty).toNat * 2 ^ 49 + (if c.slots = 0 then 0 else i % 65536 * 2 ^ 50 + 2 ^ 66) + c.no * 2 ^ 67 + c.inPort * 2 ^ 75)

/-- A record: its header of the queue entry, the frame length and the poison flag, and the padded frame (R179; the places of
the two in the header: log 163). -/
def State.recImage (s : State) (c : Copy) (frame : List Byte) (poison : Bool) : List Byte :=
  s.queueEntry c ++ leBytes 4 (frame.length + 16384 * poison.toNat) ++ frame
    ++ List.replicate ((8 - frame.length % 8) % 8) 0

/-- A block's header: in each half the next-block link, all ones for none, the queue, and the records that start in the block
(R179; the places: log 163). -/
def blockHeader (next : Option Nat) (queue recs : Nat) : List Byte :=
  let half := leBytes 4 (next.getD 0xFFFFFFFF) ++ leBytes 2 queue ++ leBytes 10 recs
  half ++ half

/-- A queue's chain of blocks while an aggregate is laid out: the blocks that are full, and the last one, each with its record
bytes and how many records start in it. -/
structure Chain where
  full : List (Nat × List Byte × Nat) := []
  last : Option (Nat × List Byte × Nat) := none
deriving DecidableEq, Repr

/-- The chain with room in its last block; none when the cistern has no free block. -/
def State.chainRoom (s : State) (x : Chain) : Option (State × Chain × Nat × List Byte × Nat) :=
  match x.last with
  | some (b, img, n) =>
    if img.length < 4064 then some (s, x, b, img, n)
    else s.freeBlock.map fun k => (s.takeBlock k, ⟨x.full ++ [(b, img, n)], none⟩, k, [], 0)
  | none => s.freeBlock.map fun k => (s.takeBlock k, x, k, [], 0)

/-- Put the bytes of a record at the end of a chain (R179): the blocks it touches; none when the cistern has none left. -/
def State.chainPut (s : State) (x : Chain) (bs : List Byte) (fuel : Nat) (got : List Nat) : Option (State × Chain × List Nat) :=
  match fuel with
  | 0 => none
  | f + 1 =>
    match s.chainRoom x with
    | none => none
    | some (s1, x1, b, img, n) =>
      let room := 4064 - img.length
      let y : Chain := ⟨x1.full, some (b, img ++ bs.take room, n)⟩
      if bs.length ≤ room then some (s1, y, got ++ [b]) else s1.chainPut y (bs.drop room) f (got ++ [b])

/-- Write an aggregate's copies as records, in order: none when the cistern lacks blocks. `errs` are the errors their reads
meet, by place (R187). -/
def State.writeAgg (s : State) (errs : List (Nat × Sys2Proof.BufErr)) (k : Nat) (l : List Copy) (x : Chain)
    (recs : List (SpillRec Copy)) : Option (State × List (SpillRec Copy) × Chain) :=
  match l with
  | [] => some (s, recs, x)
  | c :: rest =>
    let e := s.readError c ((errs.find? fun e => e.1 = k).map (·.2))
    match e.2 with
    | some sub => (e.1.killCopy c 6 sub).writeAgg errs (k + 1) rest x recs
    | none =>
      let s0 := e.1
      let w := s0.spillCopy c
      match w.2 with
      | .drop code sub => (s0.killCopy c code sub).writeAgg errs (k + 1) rest x recs
      | .frame f =>
        match s0.chainRoom x with
        | none => none
        | some (s1, x1, b, img, n) =>
          let poison := match s0.buf c.handle with
            | some b => !b.poison.isEmpty
            | none => false
          let c1 := { w.1 with handle := cisternHandle b n }
          let s2 := s1.updPump (s1.copyPump c) fun x => (x.release c.pkt c.emit).hold c.pkt c1.emit c1.slots
          match s2.chainPut ⟨x1.full, some (b, img, n + 1)⟩ (s2.recImage c1 f poison) 8 [] with
          | none => none
          | some (s3, y, bs) =>
            s3.writeAgg errs (k + 1) rest y (recs ++ [⟨c1, f, poison, bs, n, img.length, c.handle⟩])

/-- Write the blocks of a chain, each with the link to the next (R179). -/
def State.writeChain (s : State) (queue : Nat) (l : List (Nat × List Byte × Nat)) : State :=
  match l with
  | [] => s
  | (b, img, n) :: rest =>
    (s.spillReq true b (blockHeader (rest.head?.map (·.1)) queue n ++ img)).writeChain queue rest

/-- Open aggregates of a pump. -/
def State.openAggs (s : State) (pn : Nat) : Nat :=
  (s.egress.queues.filter fun e => e.2.agg.isSome && s.pumpOf e.1 = pn).length

/-- Record bytes an aggregate will hold. -/
def aggBytes (a : Agg) : Nat := total (a.copies.map fun c => recSize c.len)

/-- SPILL_CHOOSE: a queue above SPILL_ON moves its first tail packet to its open aggregate, when spill may proceed
(R182, R183, R186). An aggregate that holds 4,064 bytes is written first. -/
def execSpillChoose (queue : Nat) (s : State) : Out :=
  let q := s.queue queue
  let pn := s.pumpOf queue
  match q.tail with
  | [] => done s
  | c :: rest =>
    let cells := BitVec.ofNat 64 (s.copyCells c)
    if !q.spillEn ∨ s.cellsOf (q.head ++ q.tail) ≤ q.spillOn ∨ (q.agg.any fun a => 4064 ≤ aggBytes a) ∨ (s.pump pn).resetting then
      done s
    else if s.spillSpent then done (s.updPump pn fun x => { x with deferBw := x.deferBw + cells })
    else if s.freeBlock = none then done (s.updPump pn fun x => { x with deferFull := x.deferFull + cells })
    else if q.agg.isNone ∧ 64 ≤ s.openAggs pn then done (s.updPump pn fun x => { x with deferAgg := x.deferAgg + cells })
    else
      let a := q.agg.getD ⟨[], s.dt, false, []⟩
      done (s.setQueue queue { q with tail := rest, agg := some { a with copies := a.copies ++ [c] } })

/-- The last block of a queue's spill segment, as the next record finds it. -/
def Queue.chain (q : Queue) : Chain :=
  ⟨[], ((q.records.getLast?).bind fun r => r.blocks.getLast?).map fun b => (b, q.spillLast, q.spillRecs)⟩

/-- AGGREGATE_TIMER: an open aggregate is written when it is full or 2 µs old (R183), with the errors that the reads of its
packets meet (R187). -/
def execAggregateTimer (pump : Nat) (read : AggRead) (s : State) : Out :=
  let queue := read.queue
  match (s.queue queue).agg with
  | none => done s
  | some a =>
    if s.pumpOf queue ≠ pump ∨ (aggBytes a < 4064 ∧ s.dt < a.opened + 2000) then done s
    else
      match s.writeAgg read.errs 0 a.copies (s.queue queue).chain [] with
      | none => done s
      | some (s1, recs, x) =>
        let blocks := x.full ++ x.last.toList
        let last := x.last.getD (0, [], 0)
        let s2 := s1.updQueue queue fun y => Queue.settle { y with
          agg := none, spillLast := last.2.1, spillRecs := last.2.2
          writing := if recs.isEmpty then y.writing else y.writing ++ [{ a with copies := [], written := true, recs := recs }] }
        if recs.isEmpty then done s2
        else done ((s2.writeChain queue blocks).updPump pump fun y => { y with
          blocksWritten := y.blocksWritten + BitVec.ofNat 64 blocks.length })

/-- A packet's cells are uncharged, though copies of it may still hold its buffer (R169, R183). -/
def State.unchargeBuf (s : State) (h : Nat) : State :=
  match s.buf h with
  | none => s
  | some b => (b.cells.foldl (fun acc _ => acc.uncharge b.ents) s).updBuf h fun x => { x with ents := [] }

/-- AGGREGATE_WRITE_ACK: the writes of the queue's oldest written aggregate have been made; its records join the spill
segment, its packets' cells are uncharged, and the references of its copies released (R183). -/
def execAggregateWriteAck (pump queue : Nat) (s : State) : Out :=
  match (s.queue queue).writing with
  | [] => done s
  | a :: rest =>
    if s.pumpOf queue ≠ pump ∨ s.spillBusy true (a.recs.flatMap (·.blocks)) then done s
    else
      let s1 := s.updQueue queue fun x => { x with writing := rest, spill := x.spill ++ a.recs }
      done (a.recs.foldl (fun acc r => (acc.unchargeBuf r.basin).endRef r.basin) s1)

/-! ### Refill (R182, R184, R187) -/

/-- Cells a record needs. -/
def recCells (r : SpillRec Copy) : Nat := (r.bytes.length + 255) / 256

/-- Cells that reads under way will take from a pump's refill reserve. -/
def State.refillPending (s : State) (pn : Nat) : Nat :=
  total ((s.egress.queues.filter fun e => s.pumpOf e.1 = pn).flatMap fun e => e.2.refilling.flatten.map recCells)

/-- Cells of a pump's refill reserve that neither refilled buffers nor reads under way have taken (R184). -/
def State.refillRoom (s : State) (pn : Nat) : Nat :=
  (s.ent (entRefill pn)).min - (s.ent (entRefill pn)).used - s.refillPending pn

/-- The records, of those that start in the first block, that fit into the refill reserve. -/
def fitRecs (l : List (SpillRec Copy)) (b : Option Nat) (room : Nat) : List (SpillRec Copy) :=
  match l with
  | [] => []
  | r :: rest =>
    if r.blocks.head? = b ∧ recCells r ≤ room then r :: fitRecs rest b (room - recCells r) else []

/-- REFILL_READ: a queue whose head is below REFILL_LOW reads its next records, by the blocks they lie in; an aggregate not yet
written gives its packets back (R182, R183, R184). -/
def execRefillRead (queue : Nat) (s : State) : Out :=
  let q := s.queue queue
  let pn := s.pumpOf queue
  if q.refillLow ≤ s.cellsOf q.head ∨ (s.pump pn).resetting then done s
  else match q.spill with
    | r :: _ =>
      let l := fitRecs q.spill r.blocks.head? (s.refillRoom pn)
      let blocks := (l.flatMap (·.blocks)).dedup
      if l.isEmpty then done s
      else
        let s1 := s.setQueue queue { q with spill := q.spill.drop l.length, refilling := q.refilling ++ [l] }
        done ((blocks.foldl (fun (acc : State) b => acc.spillReq false b []) s1).updPump pn fun x => { x with
          blocksRead := x.blocksRead + BitVec.ofNat 64 blocks.length })
    | [] => match q.agg with
      | some a =>
        if q.records.isEmpty then done (s.setQueue queue (Queue.settle { q with head := q.head ++ a.copies, agg := none }))
        else done s
      | none => done s

/-- A record becomes a REFILL buffer of its pump at the end of the queue's head (R184). -/
def State.refillOne (s : State) (queue pn : Nat) (r : SpillRec Copy) : Option State :=
  match s.allocCells (8 + pn) [entRefill pn] (recCells r) [] with
  | (s1, some (h :: hs), _) =>
    let b : Buf := { cls := 2, id := pn, count := 1, held := false, cells := h :: hs, data := r.bytes,
                     poison := if r.poison then [0] else [], prov := none, ents := [entRefill pn] }
    some ((s1.setBuf h b).updQueue queue fun x => { x with head := x.head ++ [{ r.copy with handle := h }] })
  | _ => none

/-- The bytes of a record in its blocks: from and to, in a block with its header. -/
def recSpans (blocks : List Nat) (pos n : Nat) : List (Nat × Nat × Nat) :=
  match blocks with
  | [] => []
  | b :: rest =>
    let m := Nat.min n (4064 - pos)
    (b, 32 + pos, 32 + pos + m) :: recSpans rest 0 (n - m)

/-- The record overlaps a 32-byte unit, given as block × 128 + unit (R187). -/
def SpillRec.hit (r : SpillRec Copy) (u : Nat) : Bool :=
  (recSpans r.blocks r.pos r.size).any fun e => e.1 = u / 128 && e.2.1 < u % 128 * 32 + 32 && u % 128 * 32 < e.2.2

/-- The first unit of a record that reads with a poison mark (R467), given as block × 128 + unit. -/
def State.recPoison (s : State) (r : SpillRec Copy) : Option Nat :=
  (recSpans r.blocks r.pos r.size).findSome? fun e =>
    (List.range 128).find? (fun u => e.2.1 < 32 * u + 32 && 32 * u < e.2.2
      && s.mem.poisoned (s.regionAddr 6 (4096 * e.1 + 32 * u)) 32) |>.map (128 * e.1 + ·)

/-- The header of one of these blocks reads with a poison mark: both halves lie in one unit (R179, R467). -/
def State.headerPoison (s : State) (blocks : List Nat) : Bool :=
  blocks.any fun b => s.mem.poisoned (s.regionAddr 6 (4096 * b)) 32

/-- Refill records in order, those that overlap a failed unit end as POISON_DROP; none when cells lack. -/
def State.refillAll (s : State) (queue pn : Nat) (bad : Option Nat) (l : List (SpillRec Copy)) : Option State :=
  match l with
  | [] => some s
  | r :: rest =>
    if bad.any fun u => r.hit u then (s.killRec r 6 2).refillAll queue pn bad rest
    else if (s.recPoison r).isSome then
      (((s.bufferError (.cisternRecord 0) ((s.recPoison r).getD 0 / 128)).killRec r 6 2)).refillAll queue pn bad rest
    else match s.refillOne queue pn r with
      | some s1 => s1.refillAll queue pn bad rest
      | none => none

/-- The error of a cistern read is counted and reported by both stores (R187, R467). -/
def State.cisternError (s : State) (e : Sys2Proof.BufErr) (block off : Nat) : State :=
  (s.bufferError e block).hbmError (s.regionAddr 6 (4096 * block + off)) 1

/-- REFILL_READ_DONE: the records of the oldest read arrive and join the head, and emptied blocks are freed (R180, R184). A
unit in error, met now or marked earlier, ends the copies whose records overlap it; broken links end the rest of the
segment (R187, R467). -/
def execRefillReadDone (queue : Nat) (err : Option BufErr) (s : State) : Out :=
  match (s.queue queue).refilling with
  | [] => done s
  | l :: later =>
    if s.spillBusy false (l.flatMap (·.blocks)) then done s
    else
      let b := ((l.head?).bind fun r => r.blocks.head?).getD 0
      let met := if s.headerPoison (l.flatMap (·.blocks)) then some .cisternLinks else err
      match met with
      | some .cisternLinks =>
        let all := l ++ later.flatten ++ (s.queue queue).spill
        let s1 := (s.updQueue queue fun x => Queue.settle { x with refilling := [], spill := [] }).freeBlocks queue all
        let s2 := all.foldl (fun acc e => acc.killRec e 6 3) (s1.cisternError .cisternLinks b 0)
        done (s2.event 0x0703 [(1, s.pumpOf queue), (2, queue), (4, all.length)])
      | _ =>
        let bad := match met with
          | some (.cisternRecord u) => some u
          | _ => none
        let s1 := s.updQueue queue fun x => { x with refilling := later }
        let s2 := match bad with
          | some u => s1.cisternError (.cisternRecord u) (u / 128) (u % 128 * 32)
          | none => s1
        match s2.refillAll queue (s.pumpOf queue) bad l with
        | some s3 => done ((s3.freeBlocks queue l).updQueue queue Queue.settle)
        | none => done s

end Sys2Proof.Machine
end

