-- ==== Sys2Proof/Machine/Commit.lean ====
section
/-!
DEFINITION. The headrace and the commit unit: dispatch, version fences, commit with its journal's effects, cut-through
starts, the write-ahead log, and the order commands (R26-R32, R196-R244, R418, R419, R423).
-/

namespace Sys2Proof.Machine

/-! ### Version fences (R236-R239) -/

/-- The packet belongs to the old side of its domain: it comes before the switch point. -/
def State.beforeSwitch (s : State) (f : Fence) (p : Nat) : Bool :=
  match s.switchOf f (s.pkt p).domain with
  | some x => seqBefore (s.pkt p).seq x
  | none => true

/-- Pull a packet back to the dispatch list, whatever it is doing, with the FENCED mark; a replacement journal stays
(R31, R232, R570). -/
def State.pullBack (s : State) (p : Nat) : State :=
  match (s.pkt p).st with
  | .run _ | .waitStore _ | .pending => if s.isForced p then s else s.redo p .fenced
  | .next t => ((s.updTr t fun x => { x with next := none }).listPut p).updRc p fun r => r.mark .fenced
  | .listed | .held => s.updRc p fun r => r.mark .fenced
  | _ => s

/-- The packet runs, or has run, under another image version than the fence's. -/
def State.oldSide (s : State) (f : Fence) (p : Nat) : Bool :=
  match (s.pkt p).st with
  | .run _ | .waitStore _ | .pending | .next _ => (s.rc p).imageVer ≠ f.version
  | _ => false

/-- On the dispatch of `p` to the fence's version the switch point is set, and later packets that run old-side are
discarded (R237). -/
def State.fenceDispatch (s : State) (p ver : Nat) : State :=
  match s.order.fence with
  | none => s
  | some f =>
    let d := (s.pkt p).domain
    if !f.covers d ∨ ver ≠ f.version ∨ (s.switchOf f d).isSome then s
    else
      let s1 := s.updDom d fun x => { x with switch := some (s.pkt p).seq }
      let hit := (s1.domPkts d).filter fun q =>
        seqBefore (s.pkt p).seq (s.pkt q).seq && s1.oldSide f q && !(s.rc q).ct && (s.pkt q).refusal.isNone
      (hit.foldl State.pullBack s1).fenceCheck

/-! ### Dispatch (R196-R199, R534) -/

/-- A work thread that can be given a slot: not retired, not halted, not in reset, NEXT empty. -/
def State.slotFree (s : State) (t : Nat) : Bool :=
  !s.isPool t && !s.inReset t && (s.tr t).next.isNone && (s.tr t).halted.isNone
    && !(s.core (coreOf t)).retired && (s.core (coreOf t)).retiring.isNone

/-- The free slots of a cluster that a packet may take: without the core of its last counted failure (R198). -/
def State.freeSlots (s : State) (c : Nat) (avoid : Option Nat) : List Nat :=
  (clusterThreads c).filter fun t => s.slotFree t && avoid ≠ some (coreOf t)

/-- The version rule of R237 for a packet and a cluster. -/
def State.versionOk (s : State) (p c : Nat) : Bool :=
  match s.order.fence with
  | none => true
  | some f =>
    if !f.covers (s.pkt p).domain then true
    else match s.switchOf f (s.pkt p).domain with
      | none => true
      | some x =>
        if seqBefore (s.pkt p).seq x ∧ f.breaks = 0 then (s.cl c).version ≠ f.version
        else (s.cl c).version = f.version

/-- A cluster under a fence's drain still takes old-side packets of fenced domains (R238). -/
def State.fenceDrains (s : State) (p c : Nat) : Bool :=
  match s.order.fence with
  | none => false
  | some f => f.drainEnd.isSome && f.drainCl = c && (s.cl c).st = .draining && f.covers (s.pkt p).domain && s.beforeSwitch f p

def State.clusterEligible (s : State) (p c : Nat) (avoid : Option Nat) : Bool :=
  ((s.cl c).st = .admitted || s.fenceDrains p c) && s.clPower c = .active && s.versionOk p c
    && !(s.freeSlots c avoid).isEmpty

/-- The core a packet keeps away from: that of its last counted failure, while another one has room. -/
def State.avoidCore (s : State) (p : Nat) : Option Nat :=
  match (s.rc p).noCore with
  | none => none
  | some k => if (List.range 12).any fun c => s.clusterEligible p c (some k) then some k else none

/-- The first of `f`-largest clusters after the last one chosen. -/
def bestCluster (l : List Nat) (f : Nat → Nat) (last : Nat) : Option Nat :=
  let top := l.foldl (fun m c => Nat.max m (f c)) 0
  let best := l.filter fun c => f c = top
  match best.find? fun c => last < c with
  | some c => some c
  | none => best.head?

/-- The cluster for a packet (R198). -/
def State.chooseCluster (s : State) (p : Nat) : Option Nat :=
  let avoid := s.avoidCore p
  let el := (List.range 12).filter fun c => s.clusterEligible p c avoid
  let pref := (s.pkt p).pref
  if pref ≠ 0 ∧ el.contains (pref - 1) then some (pref - 1)
  else if pref ≠ 0 ∧ s.dt < (s.rc p).listDt + s.order.cfg.affinityWait then none
  else bestCluster el (fun c => (s.freeSlots c none).length) s.order.lastCluster

/-- The thread for a packet in a cluster (R198). -/
def State.chooseThread (s : State) (p c : Nat) : Option Nat :=
  let l := s.freeSlots c (s.avoidCore p)
  let rot := (l.filter fun t => s.order.lastThread < t) ++ (l.filter fun t => t ≤ s.order.lastThread)
  match rot.find? fun t => (s.tr t).cur.isNone with
  | some t => some t
  | none => rot.head?

/-- An earlier packet of the domain waits for its first dispatch; held fragments are exempt (R197). -/
def State.firstBlocked (s : State) (p : Nat) : Bool :=
  !(s.rc p).firstDone && !(s.rc p).heldFrag &&
  (s.order.list.any fun q => q ≠ p && (s.pkt q).domain = (s.pkt p).domain && !(s.rc q).firstDone && !(s.rc q).heldFrag
    && seqBefore (s.pkt q).seq (s.pkt p).seq)

/-- A packet is given a slot of a cluster: its switch point, and what its descriptor says of this run (R194, R237). -/
def State.toCluster (s : State) (p c : Nat) : State :=
  let ver := (s.cl c).version
  let fenced := match s.order.fence with
    | some f => f.covers (s.pkt p).domain && f.breaks ≠ 0 && s.beforeSwitch f p
    | none => false
  (s.fenceDispatch p ver).updRc p fun r =>
    { r with imageVer := ver, dispatchDt := s.dt, firstDone := true, fenced := r.fenced || fenced }

/-- Fill a thread's slot with a packet of the dispatch list (R194, R196). -/
def State.fillSlot (s : State) (p c t : Nat) : State :=
  let s1 := (s.toCluster p c).listDrop p
  let s2 := s1.updOrder fun o => { o with lastCluster := c, lastThread := t }
  if (s2.tr t).cur.isNone then s2.startRun t p
  else (s2.updTr t fun x => { x with next := some p }).updPkt p fun x => { x with st := .next t }

/-- The packet can be dispatched now: where to. -/
def State.place (s : State) (p : Nat) : Option (Nat × Nat) :=
  if s.firstBlocked p then none
  else match s.chooseCluster p with
    | some c => (s.chooseThread p c).map fun t => (c, t)
    | none => none

/-- DISPATCH: the first packet of the dispatch list that a slot can take is given one (R197, R198, R237). -/
def execDispatch (s : State) : Out :=
  if s.order.stopped then done s
  else match s.order.list.find? fun p => (s.place p).isSome with
    | none => done s
    | some p => match s.place p with
      | some (c, t) => done (s.fillSlot p c t)
      | none => done s

/-- AFFINITY_WAIT_EXPIRY: the packet has waited AFFINITY_WAIT for its cluster and goes to another one (R198). -/
def execAffinityWaitExpiry (pkt : Nat) (s : State) : Out :=
  if !s.order.list.contains pkt ∨ s.order.stopped ∨ (s.pkt pkt).pref = 0
      ∨ s.dt < (s.rc pkt).listDt + s.order.cfg.affinityWait then done s
  else match s.place pkt with
    | some (c, t) => done (s.fillSlot pkt c t)
    | none => done s

/-- The thread whose run of the packet waits in ORDER_ENTER; a halted thread keeps its run (R563). -/
def State.waitsToEnter (s : State) (q : Nat) : Option Nat :=
  match (s.pkt q).st with
  | .run t => match (s.tr t).wait with
    | .orderEnter _ => if (s.tr t).halted.isNone then some t else none
    | _ => none
  | _ => none

/-- The packet has no thread: it is on the list or behind another run; a held fragment has passed every section (R220). -/
def State.threadless (s : State) (q : Nat) : Bool :=
  (s.pkt q).refusal.isNone && !(s.rc q).heldFrag && (match (s.pkt q).st with
    | .listed | .next _ => true
    | _ => false)

/-- The first of a list of packets of one domain under an order of their sequence numbers. -/
def State.firstBy (s : State) (before : W32 → W32 → Bool) (l : List Nat) : Option Nat :=
  l.foldl (fun acc q => match acc with
    | none => some q
    | some a => if before (s.pkt q).seq (s.pkt a).seq then some q else some a) none

/-- The oldest packet of a domain that a later one awaits in ORDER_ENTER and no thread has taken for 100 ns, and the thread of
the youngest such waiter whose cluster may run it (R226, R237, log 156). -/
def State.yieldPair (s : State) (d : Nat) : Option (Nat × Nat × Nat) :=
  let later := fun (a : Nat) => (s.domPkts d).filter fun q =>
    seqBefore (s.pkt a).seq (s.pkt q).seq && (s.waitsToEnter q).isSome
  let since := fun (a : Nat) => (later a).any fun q => match s.waitsToEnter q with
    | some t => decide ((s.tr t).enterDt + 100 ≤ s.dt)
    | none => false
  match s.firstBy seqBefore ((s.domPkts d).filter fun a =>
      s.threadless a && decide ((s.rc a).listDt + 100 ≤ s.dt) && since a) with
  | none => none
  | some a =>
    let fit := (later a).filter fun q => match s.waitsToEnter q with
      | some t => s.versionOk a (clusterOf t)
      | none => false
    match s.firstBy (fun x y => seqBefore y x) fit with
    | none => none
    | some y => (s.waitsToEnter y).map fun t => (a, y, t)

/-- ORDER_YIELD (R226): the youngest waiter's run is discarded uncounted, its CURRENT slot is given to the awaited packet, and
its own packet returns to the list. -/
def execOrderYield (domain : Nat) (s : State) : Out :=
  match s.yieldPair domain with
  | none => done s
  | some (a, y, t) =>
    let s1 := match (s.pkt a).st with
      | .next u => s.updTr u fun x => { x with next := none }
      | _ => s.listDrop a
    let keep := (s1.tr t).next
    let s2 := (s1.updTr t fun x => { x with next := none }).redo y .none
    let s3 := ((s2.toCluster a (clusterOf t)).updTr t fun x => { x with next := keep }).startRun t a
    done (s3.updCnt fun c => { c with orderYield := c.orderYield + 1 })

/-! ### Copies of a journal (R156, R211, R418, R419) -/

/-- The TX entries attached to an emission. -/
def txEntries (j : List JEntry) (slot : Nat) : List (Nat × Nat × Bool × W64) :=
  j.filterMap fun e => match e with
    | .ledger _ a c f true r v => if r = slot then some (a, c, f, v) else none
    | _ => none

/-- A copy of an emission to a queue. -/
def State.mkCopy (s : State) (p : Nat) (j : List JEntry) (slot handle queue : Nat) (ts : Bool) (rel : Option Nat)
    (ops : Nat) (edit : List Byte) (member : Option (BitVec 128)) (no : Nat) : Copy :=
  let k := s.pkt p
  { handle := handle, queue := queue, len := 0, ts := ts, mark := false, ct := false, emit := slot
    txl := txEntries j slot, edit := edit, ops := ops, member := member, no := no, inPort := k.inPort, pkt := p
    domain := k.domain, seq := k.seq, finalLen := k.bytes.length, ingressDt := k.sofDt, qns := k.qns, slots := 0
    release := rel, hostTx := none }

/-- What an emission or delivery makes: copies to queues, a host delivery, or an empty group's outcome. -/
inductive Made where
  | copy (c : Copy)
  | host (f : HostFn) (ring : Nat) (c : PuntCopy)
  | empty
deriving DecidableEq, Repr

/-- The members of a multicast group that get a copy: queue and member operation (R418, R419). -/
def State.members (s : State) (g inPort : Nat) : List (Nat × Option (BitVec 128)) :=
  ((SMap.get [] s.egress.mcGroups g).filter fun m =>
      !(m.getLsbD 28 && s.queuePort (m.toNat % 65536) = inPort)).map fun m =>
    let mop := m.toNat / 65536 % 4096
    (m.toNat % 65536, if mop = 4095 then none else some (SMap.get 0 s.egress.memberOps mop))

/-- The delivered bytes of a buffer (R503). -/
def deliverBytes (b : Buf) (trunc : Nat) : List Byte :=
  let all := if b.cls = 3 then slice b.data 0 (256 * b.cells.length) else b.data
  if trunc = 0 then all else all.take trunc

/-- What one entry makes, its copies numbered from `no`. -/
def State.makes (s : State) (p : Nat) (j : List JEntry) (forced : Option Nat) (e : JEntry) (no : Nat) : List Made :=
  match e with
  | .emit slot h q mc ts rel ops edit =>
    if mc then
      let m := s.members q (s.pkt p).inPort
      if m.isEmpty then [.empty]
      else (List.range m.length).map fun k =>
        let x := m.getD k (0, none)
        .copy (s.mkCopy p j slot h x.1 ts rel ops edit x.2 (no + k))
    else [.copy (s.mkCopy p j slot h q ts rel ops edit none no)]
  | .deliver _ h host primary ring reason trunc =>
    let f := if primary then s.primary else if host then .hostB else .hostA
    let k := s.pkt p
    let b := (s.buf h).getD (Buf.fresh 0 0 [] [] [])
    let full := deliverBytes b 0
    let bytes := deliverBytes b trunc
    let flags : Byte := (if trunc ≠ 0 ∧ bytes.length < full.length then 4 else 0) + (if b.poison.isEmpty then 0 else 8)
    [.host f ring ⟨h, bytes, forced.getD 1, flags, reason, k.inPort, k.domain, k.seq, k.sofDt, some p⟩]
  | _ => []

/-- Everything a journal makes, in journal order, with the entry's kind: emissions first at application. -/
def State.allMade (s : State) (p : Nat) (j : List JEntry) (forced : Option Nat) (l : List JEntry) (no : Nat) : List Made :=
  match l with
  | [] => []
  | e :: rest =>
    let m := s.makes p j forced e no
    m ++ s.allMade p j forced rest (no + (m.filter fun x => x ≠ .empty).length)

def Made.handle : Made → Option Nat
  | .copy c => some c.handle
  | .host _ _ c => some c.handle
  | .empty => none

/-- The first 255 copies are made; the others are over the limit (R156). -/
def splitMade (l : List Made) (n : Nat) : List Made × List Made :=
  match l with
  | [] => ([], [])
  | .empty :: rest => let r := splitMade rest n; (.empty :: r.1, r.2)
  | m :: rest => let r := splitMade rest (n + 1); if n < 255 then (m :: r.1, r.2) else (r.1, m :: r.2)

/-! ### High-water marks (R215) -/

/-- The target units: 0 tables, 1 flow contexts, 2 weirs, 3 counters, 4 tally, 5 to 12 pumps, 13 punt DMA, 14 the buffer
pool manager. -/
def State.fresh (s : State) (unit domain : Nat) (seq : W32) : Bool :=
  match s.order.marks.find? fun e => e.1 = unit * 65536 + domain with
  | some e => seqBefore e.2 seq
  | none => true

def State.marked (s : State) (unit domain : Nat) (seq : W32) : State :=
  s.updOrder fun o => { o with marks := SMap.ins (SMap.erase o.marks (unit * 65536 + domain)) (unit * 65536 + domain) seq }

/-- Apply an operation at a target unless its mark covers the record. -/
def State.atUnit (s : State) (unit : Nat) (r : WalRec) (f : State → State) : State :=
  if s.fresh unit r.domain r.seq then (f s).marked unit r.domain r.seq else s

/-! ### Applying a record (R211) -/

def State.applyTables (s : State) (j : List JEntry) : State :=
  j.foldl (fun acc e => match e with
    | .table _ t op _ _ ks ds => acc.jtblApply t op ks ds
    | _ => acc) s

/-- The run's own contents of a quarter. -/
def State.ownQuarter (s : State) (p ctx q : Nat) : Option (List Byte) :=
  (s.tables.vers.find? fun v => v.pkt = p && v.ctx = ctx && v.q = q).map (·.own)

def State.applyContexts (s : State) (p : Nat) (j : List JEntry) : State :=
  let s1 := j.foldl (fun acc e => match e with
    | .context _ ctx mask => (List.range 4).foldl (fun a q =>
        if mask / 2 ^ q % 2 = 1 then
          match s.ownQuarter p ctx q with
          | some bs => a.ctxCommit ctx q bs
          | none => a
        else a) acc
    | _ => acc) s
  s1.dropVers p

def finalAdd (f : Bool) (len : Nat) : W64 := if f then BitVec.ofNat 64 len else 0

def State.applyCounts (s : State) (j : List JEntry) (len : Nat) : State :=
  j.foldl (fun acc e => match e with
    | .count _ c f n b => acc.count c n (b + finalAdd f len)
    | _ => acc) s

def State.applyLedger (s : State) (j : List JEntry) (len dt : Nat) : State :=
  j.foldl (fun acc e => match e with
    | .ledger _ a c f false _ v => acc.ledgerAdd a c (v + finalAdd f len) dt
    | _ => acc) s

/-- Apply the journal's frees; one of the packet's own buffer, which has class PACKET, is refused (R160, R162, R164). -/
def State.applyFrees (s : State) (p : Nat) (j : List JEntry) : State :=
  j.foldl (fun acc e => match e with
    | .free _ h =>
      if (s.pkt p).head = some h then acc.badFree 1 0 (0x100 + (s.pkt p).well) h else acc.releaseHeld h 0
    | _ => acc) s

/-- Set and raise reference counts at commit: a buffer of the run becomes permanent, HELD 1 (R156, R160). -/
def State.refCounts (s : State) (p : Nat) (run : RunSt) (made : List Made) : State :=
  let hs := made.filterMap Made.handle
  let s1 := run.bufs.foldl (fun acc h => acc.updBuf h fun b => { b with prov := none }) s
  let s2 := hs.foldl (fun acc h => acc.updBuf h fun b => if b.cls = 3 then { b with count := b.count + 1 } else b) s1
  match (s.pkt p).head with
  | some h => (s2.updBuf h fun b => { b with count := (hs.filter (· = h)).length }).settle h
  | none => s2

/-- Hand one emission's copy to its pump. -/
def State.toPump (s : State) (c : Copy) : State :=
  s.updPump (s.copyPump c) fun x => { x with arrivals := x.arrivals ++ [c] }

/-- The number of the pump target a copy goes to. -/
def pumpUnits : List Nat := (List.range 8).map (5 + ·)

/-- Apply a committed record at every target that has not applied it (R211, R215). -/
def State.applyRec (s : State) (r : WalRec) : State :=
  let p := r.pkt
  let k := s.pkt p
  let j := r.j.run.journal
  let len := k.bytes.length
  let ct := (s.rc p).ct
  let all := splitMade (s.allMade p j r.j.forced j 0) 0
  let copies := all.1.filterMap fun m => match m with
    | .copy c => some c
    | _ => none
  let hosts := all.1.filterMap fun m => match m with
    | .host f ring c => some (f, ring, c)
    | _ => none
  let empties := (all.1.filter fun m => m = .empty).length
  let s1 := s.atUnit 0 r fun x => x.applyTables j
  let s2 := s1.atUnit 1 r fun x => x.applyContexts p j
  let s3 := s2.atUnit 2 r fun x => x.finalize p
  let s4 := s3.atUnit 3 r fun x => x.applyCounts j len
  let s5 := s4.atUnit 4 r fun x => x.applyLedger j len k.sofDt
  let s6 := s5.atUnit 14 r fun x =>
    let y := x.updRc p fun q => { q with
      copies := copies.length + hosts.length, left := copies.length + hosts.length + empties + all.2.length
      disposition := r.j.forced }
    y.refCounts p r.j.run all.1
  let s7 := pumpUnits.foldl (fun acc u =>
    acc.atUnit u r fun x =>
      if ct then (if (s.rc p).ctAbort then
          (copies.filter fun c => 5 + x.copyPump c = u).foldl (fun y c => y.dropCopy c 5 4 (y.copyBytes c) true false) x
        else x)
      else (copies.filter fun c => 5 + x.copyPump c = u).foldl State.toPump x) s6
  let s8 := s7.atUnit 13 r fun x =>
    let a := (List.replicate empties ()).foldl (fun b _ => (b.sump 4 5 len).outcome p 4) x
    let b := all.2.foldl (fun b _ => (b.sump 4 2 len).outcome p 4) a
    hosts.foldl (fun b h => b.puntArrive h.1 h.2.1 h.2.2) b
  if s.fresh 14 r.domain r.seq then s8.applyFrees p j else s8

/-- The entry is an emission or a delivery. -/
def JEntry.sends : JEntry → Bool
  | .emit .. => true
  | .deliver .. => true
  | _ => false

/-- The disposition of a packet whose journal makes nothing (R30, R208): by RETIRE's reason, and POISON_DROP without a
reason for a packet that carries the poison flag (log 33). -/
def State.quietEnd (s : State) (p : Nat) (j : PendJ) : State :=
  match j.forced with
  | some 10 => s.dispose p 10 ((s.rc p).discard.getD 0)
  | some d => (s.sump d 0 (s.pkt p).bytes.length).sample d 0 (s.pkt p).inPort (s.pkt p).domain (s.pkt p).seq
      (s.pkt p).sofDt (s.pkt p).bytes
  | none =>
    if j.run.journal.any JEntry.sends then s
    else if j.reason = 2 then s.dispose p 3 0
    else if j.reason = 0 ∧ (s.rc p).poison then s.dispose p 6 0
    else s.dispose p 2 0

/-- Slots of a lane's share of the log: 256 KiB in 16-byte units (R214). -/
def laneShare : Nat := 16384

def recUnits (j : PendJ) : Nat := 1 + j.run.used

/-- The journal can be released: its packet is accepted and the oldest of its domain (R25). -/
def State.releasable (s : State) (j : PendJ) : Bool := (s.pkt j.pkt).accepted && s.oldest j.pkt

/-- COMMIT: the lane releases a packet, writes its record, applies it and advances COMMIT_SEQ (R25, R201, R211, R214). -/
def execCommit (lane : Nat) (s : State) : Out :=
  let log := SMap.get [] s.order.wal lane
  if 16 ≤ lane ∨ s.order.commitReset ∨ s.order.stopped ∨ s.order.badLanes.contains lane then done s
  else match s.order.pend.find? fun j => (s.pkt j.pkt).domain % 16 = lane && s.releasable j with
    | none => done s
    | some j =>
      if laneShare < total (log.map fun r => recUnits r.j) + recUnits j then done s
      else
        let p := j.pkt
        let k := s.pkt p
        let r : WalRec := ⟨p, k.domain, k.seq, j⟩
        let s1 := s.updOrder fun o => { o with
          pend := o.pend.filter fun x => x.pkt ≠ p, wal := SMap.set [] o.wal lane (log ++ [r]) }
        let s2 := (s1.applyRec r).quietEnd p j
        let s3 := (s2.updPkt p fun x => { x with st := .finished }).updDom k.domain fun d => d.advance s.dt
        done ((s3.updCnt fun c => { c with commits := SMap.set 0 c.commits lane (SMap.get 0 c.commits lane + 1) }).fenceCheck)

/-- LOG_RECORD_ACK: the oldest record of a lane leaves the log once its copies have reached their pumps (R214, R215). -/
def execLogRecordAck (lane : Nat) (s : State) : Out :=
  match SMap.get [] s.order.wal lane with
  | [] => done s
  | r :: rest =>
    let waiting := (List.range 8).any fun n => (s.pump n).arrivals.any fun c => c.pkt = r.pkt && c.hostTx.isNone
    if waiting ∨ s.order.commitReset then done s
    else done (s.updOrder fun o => { o with wal := SMap.set [] o.wal lane rest })

/-- COMMIT_RESET_RESUME: the log has been scanned, every record still in it is sent again, targets drop what their marks
cover, and the lanes go on (R216). -/
def execCommitResetResume (s : State) : Out :=
  if !s.order.commitReset then done s
  else
    let recs := s.order.wal.flatMap fun e => e.2
    let s1 := recs.foldl State.applyRec s
    done (s1.updOrder fun o => { o with commitReset := false })

/-- WAL_UNCORRECTABLE: the lane stops and COMMIT_FAULT is raised (R217, R561). -/
def execWalUncorrectable (lane position : Nat) (s : State) : Out :=
  if 16 ≤ lane then done s
  else
    let s1 := s.updOrder fun o => { o with commitFault := true, badLanes := insNat o.badLanes lane }
    let s2 := s1.errCnt 6 fun k => { k with uncorrectable := k.uncorrectable + 1 }
    done (s2.event 0x0400 [(1, lane), (4, position)])

/-! ### Cut-through (R27, R28, R423) -/

/-- The one emission of a journal that may start early. -/
def ctEntry (j : List JEntry) : Option JEntry :=
  let em := j.filter fun e => match e with
    | .emit .. => true
    | .deliver .. => true
    | _ => false
  match em with
  | [.emit a h q false ts none ops edit] => some (.emit a h q false ts none ops edit)
  | _ => none

/-- The growth of a list that counts for R423: bytes inserted. -/
def listGrowth (l : List EOp) : Nat := total (l.map fun e => if e.op = 2 then e.len else 0)

/-- The conditions of R27 and R423, and the copy they let start. The one emission must be of the packet's own head buffer
(log 155); a late poison waits for its replay (R119, R235). -/
def State.ctCopy (s : State) (p : Nat) : Option (Nat × Copy) :=
  match s.order.pend.find? fun j => j.pkt = p with
  | none => none
  | some j =>
    let k := s.pkt p
    if j.forced.isSome ∨ (s.rc p).lateRun ∨ !s.oldest p ∨ k.accepted ∨ k.refusal.isSome ∨ (s.rc p).ct ∨ k.stomped ∨ s.order.commitReset
        ∨ s.order.stopped ∨ s.order.badLanes.contains (k.domain % 16) then none
    else match ctEntry j.run.journal with
      | some (.emit slot h q _ ts rel ops edit) =>
        let c := s.bindCascade { s.mkCopy p j.run.journal slot h q ts rel ops edit none 0 with ct := true }
        match s.queuePhys q, s.copyOps c with
        | some phys, some l =>
          let grow := listGrowth l + (if s.tagged q then 8 else 0)
          if k.head ≠ some h ∨ !(s.queue q).empty ∨ !s.macTakes phys ∨ s.portRate k.port < s.portRate phys
              ∨ l.any (fun e => e.op = 8) ∨ s.flushing q ∨ 10236 < (s.port k.port).cfg.maxFrame - 4 + grow
              ∨ !(s.pump (wellOf phys)).hasRoom p slot (edit.length / 16) then none
          else
            let s1 := s.updQueue q fun x => { x with head := [c] }
            if (s1.select phys).2 = some q then some (phys, { c with slots := edit.length / 16 }) else none
        | _, _ => none
      | _ => none

/-- The selection that a cut-through start makes: the visits' credits stay, and the charge waits for the tail (R409). -/
def State.ctVisit (s : State) (phys : Nat) (c : Copy) : State :=
  let s1 := ((s.updQueue c.queue fun x => { x with head := [c] }).select phys).1
  let w := s1.headWire c.queue
  let s2 := s1.updGroup (c.queue / 8) fun x => { x with deficit := x.deficit + w }
  s2.updQueue c.queue fun x => { x with
    head := [], deficit := if (s2.group (c.queue / 8)).spMask.getLsbD (c.queue % 8) then x.deficit else x.deficit + w }

/-- CUT_THROUGH_START: the pump starts to send a packet that is not yet accepted (R27, R423). -/
def execCutThroughStart (pkt : Nat) (s : State) : Out :=
  match s.ctCopy pkt with
  | none => done s
  | some (phys, c) =>
    let s1 := ((s.ctVisit phys c).updRc pkt fun r => { r with ct := true }).updPump (wellOf phys) fun x => x.hold pkt c.emit c.slots
    done (s1.updEport phys fun x => { x with now := some ⟨c, [], none, s.dt, s.qns⟩, lastGroup := c.queue / 8 })

/-- What of a cut-through frame has been sent: the rewritten bytes that have arrived. -/
def State.ctSoFar (s : State) (phys : Nat) (n : TxNow) : List Byte :=
  match s.buf n.copy.handle with
  | none => []
  | some b => match s.rewrite phys n.copy b.data (b.cls = 3) n.started n.startedQ with
    | .frame f => f
    | .drop _ _ => []

/-- The pump ends a packet's cut-through frame with the complement of the correct FCS; the copy has no outcome
(R28, R119, R570). -/
def State.stompCt (s : State) (p : Nat) : State :=
  if (s.rc p).ctAbort then s.updRc p fun r => { r with ct := false, ctAbort := false } else
  (List.range 128).foldl (fun acc phys =>
    match (acc.eport phys).now with
    | some n =>
      if n.copy.ct ∧ n.copy.pkt = p ∧ n.copy.hostTx.isNone then
        let s1 := acc.stompNow phys { n with bytes := acc.ctSoFar phys n }
        (s1.updPump (wellOf phys) fun x => x.release p n.copy.emit).updRc p fun r => { r with ct := false }
      else acc
    | none => acc) s

/-! ### Fence drain and stall -/

/-- FENCE_DRAIN_EXPIRY: the packets left on the old side run under the fence's version (R238). -/
def execFenceDrainExpiry (s : State) : Out :=
  match s.order.fence with
  | none => done s
  | some f => match f.drainEnd with
    | none => done s
    | some e =>
      if s.dt < e then done s
      else
        let left := (s.order.pkts.filter fun x => x.2.hasSeq && x.2.st ≠ .finished && x.2.refusal.isNone && f.covers x.2.domain
          && s.beforeSwitch f x.1 && !(s.rc x.1).ct && !s.isForced x.1).map Prod.fst
        let n := f.breaks + left.length
        let s1 := s.updOrder fun o => { o with fence := some { f with drainEnd := none, breaks := n } }
        let s2 := left.foldl State.pullBack s1
        let s3 := s2.updCnt fun c => { c with fenceBreak := c.fenceBreak + BitVec.ofNat 64 left.length }
        done (if left.isEmpty then s3 else s3.event 0x0401 [(1, 1), (2, f.version), (4, n)])

/-- The packet at COMMIT_SEQ. -/
def State.headPkt (s : State) (d : Nat) : Option Nat := (s.domPkts d).find? fun p => (s.pkt p).seq = (s.dom d).commitSeq

/-- The state of a head packet, and its thread (R244). A filled NEXT slot waits for its dispatch still; a packet without a
thread gives 0xFFFF (log 34). -/
def State.headState (s : State) (p : Nat) : Nat × Nat :=
  let k := s.pkt p
  match k.st with
  | .run t => (if (s.tr t).halted.isSome then 2 else 1, t)
  | .held => (4, 0xFFFF)
  | .waitStore t => if t < 1536 then (if (s.tr t).halted.isSome then 2 else 1, t) else (1, 0xFFFF)
  | .pending => (if k.accepted then 5 else 3, 0xFFFF)
  | _ => (0, 0xFFFF)

/-- ORDER_STALL_TIMER: the domain has not advanced for STALL_TIME (R244). -/
def execOrderStallTimer (domain : Nat) (s : State) : Out :=
  let d := s.dom domain
  if s.order.cfg.stallTime = 0 ∨ d.live = 0 ∨ d.stalled ∨ s.dt < d.since + 1000000 * s.order.cfg.stallTime then done s
  else
    let h := match s.headPkt domain with
      | some p => s.headState p
      | none => (0, 0xFFFF)
    done ((s.updDom domain fun x => { x with stalled := true }).event 0x0402
      [(1, h.1), (2, domain), (4, d.commitSeq.toNat), (2, h.2)])

/-! ### Order commands -/

/-- ORDER_CONFIG (R243). -/
def orderConfigBody (affinityWait excHost excRing fenceDrain stallTime : Nat) (s : State) : State × Ans :=
  if 2000 < affinityWait ∨ 2 < excHost ∨ 63 < excRing ∨ fenceDrain = 0 ∨ 100 < fenceDrain ∨ 1000 < stallTime then (s, badArg)
  else (s.updOrder fun o => { o with cfg := ⟨affinityWait, excHost, excRing, fenceDrain, stallTime⟩ }, .ok)

def execOrderConfig (c : CmdRef) (affinityWait excHost excRing fenceDrain stallTime : Nat) (s : State) : Out :=
  s.command c 0x0408 [(8, affinityWait), (1, excHost), (1, excRing), (1, fenceDrain), (2, stallTime)]
    (orderConfigBody affinityWait excHost excRing fenceDrain stallTime)

/-- VERSION_FENCE (R236). -/
def versionFenceBody (version : Nat) (all cancel : Bool) (first count : Nat) (s : State) : State × Ans :=
  if cancel then (s.disarm, .ok)
  else
    let f := if all then 0 else first
    let n := if all then 65536 else count
    if n = 0 ∨ 65536 < f + n then (s, badArg)
    else match s.order.fence with
      | some x => if x.version = version ∧ x.first = f ∧ x.count = n then (s, .ok) else (s, busy)
      | none => (s.updOrder fun o => { o with fence := some ⟨version, f, n, 0, none, false, 12⟩ }, .ok)

def execVersionFence (c : CmdRef) (version : Nat) (all cancel : Bool) (first count : Nat) (s : State) : Out :=
  s.command c 0x0409 [(2, version), (1, all.toNat + 2 * cancel.toNat), (2, first), (4, count)]
    (versionFenceBody version all cancel first count)

/-- A domain's 32 bytes of DOMAIN_STATUS (R244, log 26): NEXT_SEQ, COMMIT_SEQ, in flight, S, fence state, head state and
thread. -/
def State.domainImage (s : State) (d : Nat) : List Byte :=
  let x := s.dom d
  let sw := match s.order.fence with
    | some f => if f.covers d then s.switchOf f d else none
    | none => none
  let fs := match s.order.fence with
    | some f => if f.covers d then (if sw.isSome then 2 else 1) else 0
    | none => 0
  let h := match s.headPkt d with
    | some p => s.headState p
    | none => (0, 0xFFFF)
  slice (leBytes 4 x.nextSeq.toNat ++ leBytes 4 x.commitSeq.toNat ++ leBytes 4 x.live ++ leBytes 4 (sw.getD 0).toNat
    ++ leBytes 1 fs ++ leBytes 1 h.1 ++ leBytes 2 h.2) 0 32

/-- DOMAIN_STATUS (R244). -/
def domainStatusBody (first count : Nat) (s : State) : State × Ans :=
  if count = 0 ∨ 64 < count ∨ 65536 < first + count then (s, badArg)
  else (s, .data ((List.range count).flatMap fun k => s.domainImage (first + k)))

def execDomainStatus (c : CmdRef) (first count : Nat) (s : State) : Out :=
  s.command c 0x040A [(2, first), (1, count)] (domainStatusBody first count)

/-- The order counters in the order of R242. -/
def OrderCnt.words (c : OrderCnt) : List W64 :=
  [c.replaysCounted, c.replaysUncounted, c.cascades, c.orderYield, c.replayLimit, c.journalOverflow, c.retireStall,
   c.weirUncharged, c.fenceBreak] ++ (List.range 16).map fun k => SMap.get 0 c.commits k

/-- ORDER_STATS (R242). -/
def orderStatsBody (s : State) : State × Ans := (s, .data (wordsBytes s.order.cnt.words))

def execOrderStats (c : CmdRef) (s : State) : Out := s.command c 0x040B [] orderStatsBody

end Sys2Proof.Machine
end

