-- ==== Sys2Proof/Machine/DciRows.lean ====
section
/-!
DEFINITION. The Diralys Command Interface: command fetch, doorbells, rings, the lease, function resets, interrupts, punt
receive rings and register writes (R475-R504).
-/

namespace Sys2Proof.Machine

/-- A host function's registers can be reached: it exists and its link is up. -/
def State.reach (s : State) (f : HostFn) : Bool := s.fns.contains f && (s.fn f).linkUp

/-! ### Command fetch (R483-R491) -/

/-- Responses the device owes a function. -/
def State.owed (s : State) (f : HostFn) : Nat :=
  let mine := s.dci.journal.filter fun j => j.fn = f
  (mine.filter fun j => j.resp.isNone).length + total (mine.map fun j => j.dups.length)

def FnSt.unread (x : FnSt) : Nat := (x.rspTail - x.rspHead).toNat

/-- Commands accepted before a Pumphouse reset and still to be run again (R489). -/
def State.rerunLeft (s : State) : Bool := s.dci.journal.any fun j => j.rerun && j.resp.isNone

/-- The device may read a command entry of this function. -/
def State.canFetch (s : State) (f : HostFn) : Bool :=
  let x := s.fn f
  s.reach f && (s.dci.st = .ready || s.dci.st = .fault) && !s.rerunLeft && x.cmdBase.getLsbD 0 && x.cmdHead ≠ x.cmdTail
    && s.owed f + x.unread < 255

/-- The cache keeps the last 256 accepted commands, and every one not answered (R485). -/
def State.trimJournal (s : State) (f : HostFn) : State :=
  s.updDci fun d => { d with journal := d.journal.filter fun j =>
    j.fn ≠ f || j.resp.isNone || decide (((s.fn f).cseq - j.e.cseq).toNat < 256) }

/-- Accept a command (R485, R490, R492, R495): an unknown opcode, a missing lease or a bad layout is answered at once. -/
def State.accept (s : State) (f : HostFn) (e : CmdEntry) : State :=
  let p := entryPayload e
  let mine := s.mine f
  let s0 := s.updFn f fun x => { x with cseq := e.cseq }
  let s1 := (s0.updDci fun d => { d with journal := d.journal ++
    [⟨f, e, mine, false, false, none, [], s.guardOf e.opcode p⟩] }).trimJournal f
  let s2 := if mine then s1.renew else s1
  let c : CmdRef := ⟨f, e.cseq⟩
  match catOf e.opcode with
  | none => s2.answer c unsupported
  | some r =>
    let needs := r.need = .lease || (r.need = .writeLease && p.getD 5 0 ≠ 0)
    if needs && !mine then s2.answer c (.status 3)
    else if !wellFormedEntry r e then s2.answer c badArg
    else s2

/-- COMMAND_FETCH: an entry is read; it is accepted, or answered DUPLICATE or BAD_SEQ (R483, R485). -/
def execCommandFetch (fn : HostFn) (e : CmdEntry) (s : State) : Out :=
  if !s.canFetch fn then done s
  else
    let s0 := s.updFn fn fun x => { x with cmdHead := x.cmdHead + 1 }
    let d := (e.cseq - (s.fn fn).cseq).toNat
    if d = 1 then done (s0.accept fn e)
    else if d = 0 ∨ 4294967296 - 255 ≤ d then
      match s0.jcmd ⟨fn, e.cseq⟩ with
      | some j => match j.resp with
        | some r => done (s0.putDup j r e.tag)
        | none => done (s0.updJ ⟨fn, e.cseq⟩ fun y => { y with dups := y.dups ++ [e.tag] })
      | none => done (s0.putRsp fn e.cseq e.opcode 1 e.tag 0 0 0 [])
    else done (s0.putRsp fn e.cseq e.opcode 2 e.tag 0 0 ((s.fn fn).cseq + 1) [])

/-! ### Doorbells and ring registers (R481-R486) -/

/-- CMD_DOORBELL: a write of CMD_TAIL (R483). -/
def execCmdDoorbell (fn : HostFn) (tail : Byte) (s : State) : Out :=
  if s.reach fn then done (s.updFn fn fun x => { x with cmdTail := tail }) else done s

/-- RSP_HEAD_WRITE (R484). -/
def execRspHeadWrite (fn : HostFn) (head : Byte) (s : State) : Out :=
  if s.reach fn then done (s.updFn fn fun x => { x with rspHead := head }) else done s

/-- A write to ESEQ_ACKED (R486). -/
def State.ackEvents (s : State) (f : HostFn) (seq : W32) : State :=
  let x := s.fn f
  if (x.eseqIssued - x.eseqAcked).toNat < (seq - x.eseqAcked).toNat then s
  else
    (s.updFn f fun y => { y with
      eseqAcked := seq, events := y.events.filter fun e => (seq - x.eseqAcked).toNat < (e.eseq - x.eseqAcked).toNat }).lostEvent f

/-- ESEQ_ACK_WRITE (R486). -/
def execEseqAckWrite (fn : HostFn) (seq : W32) (s : State) : Out :=
  if s.reach fn then done (s.ackEvents fn seq) else done s

/-- A base register with its reserved bits clear. -/
def baseImage (v : W64) : W64 := v &&& ~~~(0x3E : W64)

/-- Ring 0 command, 1 response, 2 event. -/
def FnSt.ringBase (x : FnSt) (ring : Nat) : W64 := if ring = 0 then x.cmdBase else if ring = 1 then x.rspBase else x.evtBase
def FnSt.setRingBase (x : FnSt) (ring : Nat) (v : W64) : FnSt :=
  if ring = 0 then { x with cmdBase := v } else if ring = 1 then { x with rspBase := v } else { x with evtBase := v }

/-- EN of a ring goes from 0 to 1 (R482). -/
def State.ringOn (s : State) (f : HostFn) (ring : Nat) (v : W64) : State :=
  let s1 := s.updFn f fun x => x.setRingBase ring (baseImage v)
  match ring with
  | 0 => s1.updFn f fun x => { x with cmdHead := 0, cmdTail := 0 }
  | 1 => s1.updFn f fun x => { x with rspHead := 0, rspTail := 0, phase := true }
  | _ => (s1.fn f).events.foldl (fun acc e => acc.putEvent f e) s1

/-- EN of a ring goes from 1 to 0 (R482). -/
def State.ringOff (s : State) (f : HostFn) (ring : Nat) : State :=
  s.updFn f fun x => x.setRingBase ring (x.ringBase ring &&& ~~~(1 : W64))

/-- A write to a ring base register (R482). -/
def State.ringWrite (s : State) (f : HostFn) (ring : Nat) (v : W64) : State :=
  let old := (s.fn f).ringBase ring
  let moved := old.toNat / 64 ≠ v.toNat / 64
  if old.getLsbD 0 then
    if moved then s else if v.getLsbD 0 then s else s.ringOff f ring
  else if v.getLsbD 0 then s.ringOn f ring v
  else s.updFn f fun x => x.setRingBase ring (baseImage v)

/-- DCI_RING_ENABLE (R482). -/
def execDciRingEnable (fn : HostFn) (ring : Nat) (base : W64) (s : State) : Out :=
  if s.reach fn ∧ ring < 3 ∧ base.getLsbD 0 ∧ !((s.fn fn).ringBase ring).getLsbD 0 then done (s.ringOn fn ring base)
  else done s

/-- DCI_RING_DISABLE (R482). -/
def execDciRingDisable (fn : HostFn) (ring : Nat) (s : State) : Out :=
  if s.reach fn ∧ ring < 3 then done (s.ringOff fn ring) else done s

/-! ### The lease (R492, R493) -/

/-- Renew by heartbeat; a frozen timeout starts again in full. -/
def State.heartbeat (s : State) (f : HostFn) (gen : W32) : State :=
  if s.mine f ∧ gen = s.dci.lease.gen then
    match s.dci.lease.frozen with
    | some _ => s.updDci fun d => { d with lease := { d.lease with frozen := some (1000000 * d.lease.timeoutMs) } }
    | none => s.renew
  else s.updDci fun d => { d with lease := { d.lease with ignored := d.lease.ignored + 1 } }

/-- LEASE_HEARTBEAT_WRITE (R492). -/
def execLeaseHeartbeatWrite (fn : HostFn) (gen : W32) (s : State) : Out :=
  if s.reach fn then done (s.heartbeat fn gen) else done s

/-- LEASE_EXPIRY (R492). -/
def execLeaseExpiry (s : State) : Out :=
  let l := s.dci.lease
  if l.holder.isSome ∧ !l.expired ∧ l.frozen.isNone ∧ l.deadline ≤ s.dt then
    done ((s.updDci fun d => { d with lease := { d.lease with expired := true } }).leaseChange 2)
  else done s

/-- The result of LEASE_CLAIM: GEN, PREV_HOLDER, and the previous holder's CSEQ_ACCEPTED and running commands (R493). -/
def State.claimResult (s : State) (gen : W32) (prev : Option HostFn) : List Byte :=
  match prev with
  | none => layout [(4, gen.toNat), (1, 0), (2, 0), (4, 0), (2, 0)]
  | some f =>
    let run := (s.dci.journal.filter fun j => j.fn = f && j.resp.isNone && j.started).length
    leBytes 4 gen.toNat ++ leBytes 1 (holderCode (some f)) ++ [0, 0, 0] ++ leBytes 4 (s.fn f).cseq.toNat ++ leBytes 2 run

/-- LEASE_CLAIM (R493). -/
def leaseClaimBody (f : HostFn) (s : State) : State × Ans :=
  let l := s.dci.lease
  if l.holder.isNone ∨ l.expired then
    let s1 := (s.updDci fun d => { d with lease := { d.lease with
      holder := some f, expired := false, gen := l.gen + 1, frozen := none } }).renew
    (s1.leaseChange 0, .data (s.claimResult (l.gen + 1) l.holder))
  else if l.holder = some f then (s.renew, .data (s.claimResult l.gen l.holder))
  else (s, busy)

def execLeaseClaim (c : CmdRef) (s : State) : Out := s.command c 0x0102 [] (leaseClaimBody c.fn)

/-- LEASE_RELEASE (R493). -/
def leaseReleaseBody (f : HostFn) (s : State) : State × Ans :=
  if s.mine f then
    ((s.updDci fun d => { d with lease := { d.lease with holder := none, expired := false, frozen := none } }).leaseChange 1, .ok)
  else (s, .ok)

def execLeaseRelease (c : CmdRef) (s : State) : Out := s.command c 0x0103 [] (leaseReleaseBody c.fn)

/-- LEASE_CONFIG (R492): a changed timeout counts from now and raises LEASE_CHANGE (log 35). -/
def leaseConfigBody (timeoutMs : Nat) (s : State) : State × Ans :=
  if timeoutMs < 1000 ∨ 60000 < timeoutMs then (s, badArg)
  else if timeoutMs = s.dci.lease.timeoutMs then (s, .ok)
  else
    let s1 := s.updDci fun d => { d with lease := { d.lease with timeoutMs := timeoutMs } }
    ((if s.dci.lease.holder.isSome && !s.dci.lease.expired then s1.renew else s1).leaseChange 3, .ok)

def execLeaseConfig (c : CmdRef) (timeoutMs : Nat) (s : State) : Out :=
  s.command c 0x0104 [(4, timeoutMs)] (leaseConfigBody timeoutMs)

/-- NOP. -/
def execNopC (c : CmdRef) (s : State) : Out := s.command c 0x0100 [] fun s => (s, .ok)

/-! ### Links, function resets and interrupts (R475, R487, R501) -/

/-- HOST_LINK_UP: the function's link trains (R475). -/
def execHostLinkUp (fn : HostFn) (s : State) : Out :=
  if s.fns.contains fn then done (s.updFn fn fun x => { x with linkUp := true }) else done s

/-- A function's registers lose their EN bits and mapping; its sequence numbers, cache, events and the lease stay (R487). -/
def FnSt.reset (x : FnSt) : FnSt :=
  let off := fun (v : W64) => v &&& ~~~(1 : W64)
  { x with
    cmdBase := off x.cmdBase, rspBase := off x.rspBase, evtBase := off x.evtBase
    intMap := [], intGap := [], intWait := [], msix := [], msixPend := 0
    rx := x.rx.map fun e => (e.1, { e.2 with base := off e.2.base })
    tx := x.tx.map fun e => (e.1, { e.2 with base := off e.2.base }) }

/-- A function reset: waiting receive copies are flushed, the function's locks are abandoned, unread transmit descriptors
go (R354, R487, R504, R505). -/
def State.fnReset (s : State) (f : HostFn) : State :=
  let s1 := ((s.fn f).rx.map Prod.fst).foldl (fun acc r => acc.puntFlush f r) s
  ((s1.updFn f FnSt.reset).lockLeave (.host f)).abandonAll (.host f)

/-- FUNCTION_RESET: FLR, hot reset or link down (R487). -/
def execFunctionReset (fn : HostFn) (linkDown : Bool) (s : State) : Out :=
  if !s.fns.contains fn then done s
  else done ((s.fnReset fn).updFn fn fun x => { x with linkUp := x.linkUp && !linkDown })

/-- INT_MOD_EXPIRY: the gap of a source ends and a happening held in it is signalled (R501). -/
def execIntModExpiry (fn : HostFn) (source : Nat) (s : State) : Out :=
  let x := s.fn fn
  if x.intWait.contains source ∧ SMap.get 0 x.intGap source ≤ s.dt then
    done ((s.updFn fn fun y => { y with intWait := y.intWait.filter (· ≠ source) }).irq fn source)
  else done s

/-! ### Punt rings (R502-R504) -/

def State.puntRing (s : State) (f : HostFn) (tx : Bool) (r : Nat) : PuntRing :=
  if tx then SMap.get {} (s.fn f).tx r else SMap.get {} (s.fn f).rx r
def State.updPunt (s : State) (f : HostFn) (tx : Bool) (r : Nat) (g : PuntRing → PuntRing) : State :=
  if tx then s.updTx f r g else s.updRx f r g

/-- PUNT_BASE with its reserved bits clear. -/
def puntImage (v : W64) : W64 := v &&& ~~~(0x1E : W64)

def State.puntOn (s : State) (f : HostFn) (tx : Bool) (r : Nat) (v : W64) : State :=
  s.updPunt f tx r fun x => { x with base := puntImage v, tail := 0, head := 0 }

def State.puntOff (s : State) (f : HostFn) (tx : Bool) (r : Nat) : State :=
  let s1 := if tx then s else s.puntFlush f r
  s1.updPunt f tx r fun x => { x with base := x.base &&& ~~~(1 : W64) }

/-- A write to PUNT_BASE (R482, R502). -/
def State.puntBaseWrite (s : State) (f : HostFn) (tx : Bool) (r : Nat) (v : W64) : State :=
  let old := (s.puntRing f tx r).base
  if old.getLsbD 0 then
    if old.toNat / 32 ≠ v.toNat / 32 then s else if v.getLsbD 0 then s else s.puntOff f tx r
  else if v.getLsbD 0 then s.puntOn f tx r v
  else s.updPunt f tx r fun x => { x with base := puntImage v }

/-- The sizes a punt ring can have. -/
def puntSizes : List Nat := [64, 128, 256, 512, 1024, 2048, 4096, 8192, 16384, 32768]

/-- A write to PUNT_SIZE (R502). -/
def State.puntSizeWrite (s : State) (f : HostFn) (tx : Bool) (r : Nat) (v : W64) : State :=
  let n := fld v 0 16
  let x := s.puntRing f tx r
  if !puntSizes.contains n ∨ (x.base.getLsbD 0 ∧ n ≠ x.entries) then s
  else s.updPunt f tx r fun y => { y with entries := n, qmax := fld v 16 16 }

/-- PUNT_RING_ENABLE (R502). -/
def execPuntRingEnable (fn : HostFn) (tx : Bool) (ring : Nat) (base : W64) (s : State) : Out :=
  if s.reach fn ∧ ring < 64 ∧ base.getLsbD 0 ∧ !(s.puntRing fn tx ring).base.getLsbD 0 then done (s.puntOn fn tx ring base)
  else done s

/-- PUNT_RING_DISABLE (R502, R504). -/
def execPuntRingDisable (fn : HostFn) (tx : Bool) (ring : Nat) (s : State) : Out :=
  if s.reach fn ∧ ring < 64 ∧ (s.puntRing fn tx ring).base.getLsbD 0 then done (s.puntOff fn tx ring) else done s

/-- PUNT_RX_POST: a write of a receive ring's TAIL (R502). -/
def execPuntRxPost (fn : HostFn) (ring : Nat) (tail : BitVec 16) (s : State) : Out :=
  if s.reach fn ∧ ring < 64 then done (s.updRx fn ring fun r => { r with tail := tail }) else done s

/-- PUNT_TX_DOORBELL: a write of a transmit ring's TAIL (R502). -/
def execPuntTxDoorbell (fn : HostFn) (ring : Nat) (tail : BitVec 16) (s : State) : Out :=
  if s.reach fn ∧ ring < 64 then done (s.updTx fn ring fun r => { r with tail := tail }) else done s

/-- Descriptors posted and not yet used. -/
def PuntRing.posted (r : PuntRing) : Nat := (r.tail.toNat + r.entries - r.head.toNat % r.entries) % r.entries

/-- The buffers just hold a copy of this length: no fewer would (R503). -/
def fitsBufs (len : Nat) (bufs : List (Nat × Nat)) : Bool :=
  match bufs with
  | [] => false
  | [b] => len ≤ b.2
  | b :: rest => b.2 < len && fitsBufs (len - b.2) rest

def bufOk (b : Nat × Nat) : Bool := b.1 % 64 = 0 && 256 ≤ b.2 && b.2 ≤ 16384 && b.2 % 64 = 0

/-- The device's part of a receive descriptor, bytes 31:10 (R503). -/
def rxDescriptor (c : PuntCopy) (len : Nat) (sop eop : Bool) : List Byte :=
  leBytes 2 len ++ leBytes 1 c.code ++ [(c.flags + BitVec.ofNat 8 (sop.toNat + 2 * eop.toNat + 128))]
    ++ leBytes 2 c.reason ++ leBytes 2 c.inPort ++ leBytes 2 c.domain ++ leBytes 4 c.seq.toNat ++ leBytes 8 c.dt

/-- Write the copy's pieces into the posted descriptors, from the ring's HEAD. -/
def State.writePunt (s : State) (f : HostFn) (ring : Nat) (c : PuntCopy) (bytes : List Byte) (bufs : List (Nat × Nat))
    (first : Bool) : State :=
  match bufs with
  | [] => s
  | b :: rest =>
    let r := s.rxRing f ring
    let piece := bytes.take b.2
    let slot := r.head.toNat % r.entries
    let s1 := s.hostWrite f b.1 piece
    let s2 := s1.hostWrite f (r.base.toNat / 32 * 32 + 32 * slot + 10) (rxDescriptor c piece.length first rest.isEmpty)
    let s3 := s2.updRx f ring fun x => { x with
      head := BitVec.ofNat 16 ((slot + 1) % x.entries), done := x.done + 1 }
    s3.writePunt f ring c (bytes.drop b.2) rest false

/-- PUNT_RX_DELIVER: a waiting copy is written into posted descriptors, and its reference released (R503, R504). `bufs`
gives ADDR and BUF_LEN of the descriptors it takes. -/
def execPuntRxDeliver (fn : HostFn) (ring : Nat) (bufs : List (Nat × Nat)) (s : State) : Out :=
  let r := s.rxRing fn ring
  match r.waiting with
  | [] => done s
  | c :: rest =>
    if !s.reach fn ∨ !r.base.getLsbD 0 ∨ r.posted < bufs.length ∨ !bufs.all bufOk ∨ !fitsBufs c.bytes.length bufs then done s
    else
      let s1 := (s.updRx fn ring fun x => { x with waiting := rest }).writePunt fn ring c c.bytes bufs true
      let s2 : State := { s1 with out := { s1.out with punted := s1.out.punted ++ [(fn, ring, c.bytes)] } }
      let s3 := s2.irq fn (64 + ring)
      if c.flags.getLsbD 4 then done s3
      else
        let s4 := s3.endRef c.handle
        match c.pkt with
        | some p => done (s4.outcome p 1)
        | none => done s4

/-! ### Register writes (R16-R19, R476-R478) -/

/-- A write to an interrupt mapping register (R501). -/
def State.intMapWrite (s : State) (f : HostFn) (src : Nat) (v : W64) : State :=
  if src < 3 ∨ (64 ≤ src ∧ src < 192) then
    s.updFn f fun x => { x with intMap := SMap.set 0 x.intMap src (v &&& 0xFFFF013F) }
  else s

/-- A write to the MSI-X table; an unmasked vector with its pending bit set sends its message. -/
def State.msixWrite (s : State) (f : HostFn) (k : Nat) (v : W64) : State :=
  let s1 := s.updFn f fun x => x.setMsix k v
  let vec := k / 2
  if k % 2 = 1 ∧ !v.getLsbD 32 ∧ (s.fn f).msixPend.getLsbD vec then
    (s1.updFn f fun x => { x with msixPend := x.msixPend &&& ~~~((1 : BitVec 64) <<< vec) }).sendVector f vec
  else s1

/-- A write to a punt ring's configuration. -/
def State.puntCfgWrite (s : State) (f : HostFn) (tx : Bool) (o : Nat) (v : W64) : State :=
  match o % 64 with
  | 0 => s.puntBaseWrite f tx (o / 64) v
  | 8 => s.puntSizeWrite f tx (o / 64) v
  | _ => s

/-- A write to BOOT_ADDR or BOOT_CTL of the function whose push the ROM waits for (R515): GO starts the load unless one
runs, and a length out of range is BAD_IMAGE. Reserved bits read 0 (R17). -/
def State.bootWrite (s : State) (f : HostFn) (off : Nat) (v : W64) : State :=
  let b := s.trust.boot
  if b.waits ≠ some f then s
  else if off = 0x4000 then { s with trust := { s.trust with boot := { b with addr := v &&& ~~~(0x3F : W64) } } }
  else
    let len := v.toNat % 2 ^ 24
    let st := if !v.getLsbD 24 ∨ b.status = 1 then b.status else if len < 512 ∨ 8388608 < len then 4 else 1
    { s with trust := { s.trust with boot := { b with ctl := v &&& 0xFFFFFF, status := st } } }

/-- A 64-bit write to BAR0. Offsets no table assigns, read-only registers and the telemetry window discard it (R477). -/
def State.bar0Write (s : State) (f : HostFn) (off : Nat) (v : W64) : State :=
  if off = 0x28 then s.heartbeat f (v.setWidth 32)
  else if off = 0x1000 then s.ringWrite f 0 v
  else if off = 0x1020 then s.ringWrite f 1 v
  else if off = 0x1040 then s.ringWrite f 2 v
  else if off = 0x1010 then s.updFn f fun x => { x with cmdTail := v.setWidth 8 }
  else if off = 0x1038 then s.updFn f fun x => { x with rspHead := v.setWidth 8 }
  else if off = 0x1060 then s.ackEvents f (v.setWidth 32)
  else if 0x2000 ≤ off ∧ off < 0x3000 then s.intMapWrite f ((off - 0x2000) / 8) v
  else if 0x3000 ≤ off ∧ off < 0x3090 then (s.tsetWrite (.host f) (off - 0x3000) v).getD s
  else if off = 0x4000 ∨ off = 0x4008 then s.bootWrite f off v
  else if 0x8000 ≤ off ∧ off < 0x8400 then s.msixWrite f ((off - 0x8000) / 8) v
  else if 0x10000 ≤ off ∧ off < 0x11000 then s.puntCfgWrite f false (off - 0x10000) v
  else if 0x11000 ≤ off ∧ off < 0x12000 then s.puntCfgWrite f true (off - 0x11000) v
  else if 0x200000 ≤ off ∧ off < 0x240000 then
    match off % 64 with
    | 0x10 => s.lockRelease (.host f) ((off - 0x200000) / 64)
    | 0x18 => s.lockClear (.host f) ((off - 0x200000) / 64)
    | _ => s
  else s

/-- A 64-bit write to BAR2: TAIL of a ring (R478). -/
def State.bar2Write (s : State) (f : HostFn) (off : Nat) (v : W64) : State :=
  if off % 4096 ≠ 0 ∨ 0x80000 ≤ off then s
  else if off < 0x40000 then s.updRx f (off / 4096) fun r => { r with tail := v.setWidth 16 }
  else s.updTx f ((off - 0x40000) / 4096) fun r => { r with tail := v.setWidth 16 }

/-- REGISTER_WRITE: a host's write to register space; only aligned 64-bit writes act (R16-R19). -/
def execRegisterWrite (fn : HostFn) (bar off size : Nat) (val : W64) (s : State) : Out :=
  if !s.reach fn ∨ size ≠ 8 ∨ off % 8 ≠ 0 then done s
  else if bar = 0 then done (s.bar0Write fn off val)
  else if bar = 2 then done (s.bar2Write fn off val)
  else done s

end Sys2Proof.Machine
end

