-- ==== Sys2Proof/Machine/HostRegs.lean ====
section
/-!
DEFINITION. What a host function reads from its BAR0 and BAR2 registers: identity, rings, interrupt mapping, table
registers, boot push, MSI-X, punt rings, telemetry and locks (R16, R17, R19, R45, R147, R192, R241, R352, R394, R430,
R447, R474-R481, R501, R502, R515). A read that changes nothing has no row: `State.hostRead` says what it answers.
-/

namespace Sys2Proof.Machine

/-! ### Identity and state (R479) -/

/-- DEV_ID. -/
def State.devId (s : State) (f : HostFn) : W64 :=
  BitVec.ofNat 64 (0x01921FE7 + (if Config.slowGrade then 2 ^ 32 else 0) + (if f = .hostB then 2 ^ 36 else 0)
    + 2 ^ 37 * s.trust.straps.pcieMode.toNat)

/-- REV. -/
def State.revReg (s : State) : W64 :=
  BitVec.ofNat 64 (Config.silicon.toNat + 256 * Config.romRev.toNat + 2 ^ 32 * s.dci.firmware.toNat)

/-- DEVICE_STATE. -/
def State.deviceState (s : State) : W64 :=
  BitVec.ofNat 64 (s.dci.st.code + 16 * s.dci.step + 256 * s.dci.cause + 2 ^ 32 * s.dci.phRestarts.toNat)

/-- Milliseconds to the lease's expiry, saturating; 0 with no valid lease. -/
def State.leaseRemain (s : State) : Nat :=
  let l := s.dci.lease
  if l.holder.isNone ∨ l.expired then 0
  else match l.frozen with
    | some n => Nat.min (n / 1000000) 65535
    | none => Nat.min ((l.deadline - s.dt) / 1000000) 65535

/-- LEASE_STATE as a function reads it. -/
def State.leaseState (s : State) (f : HostFn) : W64 :=
  let l := s.dci.lease
  BitVec.ofNat 64 (holderCode l.holder + 4 * (s.mine f).toNat + 8 * l.expired.toNat + 65536 * s.leaseRemain
    + 2 ^ 32 * l.gen.toNat)

/-- The registers of the identity and state block; LEASE_HEARTBEAT is write-only and reads 0 (R16). -/
def State.identityWords (s : State) (f : HostFn) : List W64 :=
  [s.devId f, s.revReg, 2, s.deviceState, s.leaseState f, 0]

/-- The identity and state block as bytes. -/
def State.identity (s : State) (f : HostFn) : List Byte := (s.identityWords f).flatMap fun w => leBytes 8 w.toNat

/-! ### Rings, interrupt mapping, boot push and punt rings (R481, R501, R502, R515) -/

/-- The DCI ring registers from CMD_RING_BASE to ESEQ_ACKED; the ring sizes are fixed (R481). -/
def FnSt.ringRegs (x : FnSt) : List W64 :=
  [x.cmdBase, 256, x.cmdTail.setWidth 64, x.cmdHead.setWidth 64, x.rspBase, 256, x.rspTail.setWidth 64,
   x.rspHead.setWidth 64, x.evtBase, 1024, x.cseq.setWidth 64, x.eseqIssued.setWidth 64, x.eseqAcked.setWidth 64]

/-- PUNT_BASE, PUNT_SIZE and PUNT_COUNT of a ring. -/
def PuntRing.regs (r : PuntRing) : List W64 :=
  [r.base, BitVec.ofNat 64 (r.entries + 65536 * r.qmax), (r.dropped ++ r.done)]

/-- The function that BOOT_SRC names for a push (R506). -/
def State.pushFn (s : State) : Option HostFn :=
  match s.trust.straps.bootSrc with
  | 1 => some .hostA
  | 2 => some (if s.fns.contains .hostB then .hostB else .hostA)
  | _ => none

/-- BOOT_ADDR and BOOT_CTL of the function whose push the ROM waits for, or that BOOT_SRC names: there STATUS stays readable
as DONE (R515, log 173). GO reads 0. -/
def State.bootRegs (s : State) (f : HostFn) : List W64 :=
  let b := s.trust.boot
  if b.waits = some f ∨ s.pushFn = some f then [b.addr, BitVec.ofNat 64 (fld b.ctl 0 24 + 2 ^ 32 * b.status)] else []

/-! ### Telemetry (R430, R447, R474, R476) -/

/-- Ports of a pump in their FLUSH phase. -/
def State.pumpFlushing (s : State) (n : Nat) : Bool :=
  s.egress.eports.any fun e => wellOf e.1 = n && e.2.phase = .flush

/-- PUMP_STATUS (R430). -/
def State.pumpStatus (s : State) (n : Nat) : W64 :=
  let x := s.pump n
  BitVec.ofNat 64 (65536 - x.editUsed + 2 ^ 17 * x.wheel.length + 2 ^ 32 * x.resetting.toNat
    + 2 ^ 33 * (s.pumpFlushing n).toNat)

def StackMode.code : StackMode → Nat
  | .active => 0
  | .selfRefresh => 1
  | .training => 2
  | .fault => 3

/-- A stack refreshes at double rate above 85 °C (R464). -/
def StackSt.refresh2x (x : StackSt) : Bool := decide (85 < x.temp)

/-- HBM_STATUS (R474). -/
def HbmSt.status (h : HbmSt) : W64 :=
  BitVec.ofNat 64 (h.stackA.mode.code + 4 * h.stackB.mode.code + 16 * h.retired.length + 128 * h.migration.isSome.toNat
    + 256 * (h.migration.map (·.pc)).getD 0 + 2 ^ 16 * (h.stackA.temp % 256) + 2 ^ 24 * (h.stackB.temp % 256)
    + 2 ^ 32 * h.stackA.refresh2x.toNat + 2 ^ 33 * h.stackB.refresh2x.toNat)

/-- HBM_RETIRED_MAP (R474). -/
def HbmSt.retiredMap (h : HbmSt) : W64 :=
  BitVec.ofNat 64 (total ((List.range 64).map fun n => if h.retired.contains n then 2 ^ n else 0))

/-- A read in the telemetry window, by its offset in the window; only the time block's DT_NOW acts (R45, R46). -/
def State.telemetry (s : State) (f : HostFn) (off : Nat) : Option (State × W64) :=
  let at' := fun (ws : List W64) (o : Nat) => (ws[o / 8]?).map fun w => (s, w)
  if off < 0x1000 then none
  else if off < 0x2000 then s.timeReg (.host f) (off - 0x1000)
  else if off < 0x2800 then if off % 256 = 0 then some (s, s.wellStatus ((off - 0x2000) / 256)) else none
  else if off < 0x3000 then none
  else if off < 0x4000 then at' [s.basinStatus, s.sizedStatus, s.cisternStatus] (off - 0x3000)
  else if off < 0x5000 then at' [s.orderStatus] (off - 0x4000)
  else if off < 0x5800 then if off % 256 = 0 then some (s, s.pumpStatus ((off - 0x5000) / 256)) else none
  else if off < 0x6000 then none
  else if off < 0x7000 then at' (s.ledger.registers.map (BitVec.ofNat 64)) (off - 0x6000)
  else if off < 0x8000 then at' [s.hbm.status, s.hbm.retiredMap] (off - 0x7000)
  else none

/-! ### Locks (R352) -/

/-- A host's read of a lock's 64 bytes: LOCK_ACQUIRE acts as LOCK_TRY; the write-only registers read 0 (R16). -/
def State.lockRead (s : State) (f : HostFn) (k off : Nat) : Option (State × W64) :=
  match off with
  | 0x00 | 0x08 =>
    let a := s.lockAcquireNow (.host f) k true
    a.2.map fun w => (a.1, w)
  | 0x10 | 0x18 => some (s, 0)
  | 0x20 => some (s, s.lockStatus k)
  | _ => none

/-! ### The address map (R476, R478) -/

/-- A 64-bit read of BAR0; none for an offset that no table assigns. Reserved registers of the interrupt mapping read 0
(R17, log 169). -/
def State.bar0Read (s : State) (f : HostFn) (off : Nat) : Option (State × W64) :=
  let x := s.fn f
  let at' := fun (ws : List W64) (o : Nat) => (ws[o / 8]?).map fun w => (s, w)
  if off < 0x1000 then at' (s.identityWords f) off
  else if off < 0x2000 then at' x.ringRegs (off - 0x1000)
  else if off < 0x3000 then some (s, SMap.get 0 x.intMap ((off - 0x2000) / 8))
  else if off < 0x4000 then (s.tsetReg (.host f) (off - 0x3000)).map fun w => (s, w)
  else if off < 0x8000 then at' (s.bootRegs f) (off - 0x4000)
  else if off < 0x8400 then some (s, x.msixWord ((off - 0x8000) / 8))
  else if off = 0x9000 then some (s, x.msixPend)
  else if off < 0x10000 then none
  else if off < 0x11000 then at' (s.puntRing f false ((off - 0x10000) / 64)).regs (off % 64)
  else if off < 0x12000 then at' (s.puntRing f true ((off - 0x11000) / 64)).regs (off % 64)
  else if 0x100000 ≤ off ∧ off < 0x110000 then s.telemetry f (off - 0x100000)
  else if 0x200000 ≤ off ∧ off < 0x240000 then s.lockRead f ((off - 0x200000) / 64) (off % 64)
  else none

/-- A 64-bit read of BAR2: TAIL and HEAD of a punt ring (R478, R502). -/
def State.bar2Read (s : State) (f : HostFn) (off : Nat) : Option (State × W64) :=
  let r := s.puntRing f (decide (0x40000 ≤ off)) (off % 0x40000 / 4096)
  if 0x80000 ≤ off then none
  else match off % 4096 with
    | 0 => some (s, r.tail.setWidth 64)
    | 8 => some (s, r.head.setWidth 64)
    | _ => none

/-- A host's read of register space: anything but an aligned 64-bit read of an assigned offset answers all ones and acts
on nothing (R19, R477). None while the function's link is down: no read reaches the block. -/
def State.hostRead (s : State) (f : HostFn) (bar off size : Nat) : State × Option W64 :=
  if !s.reach f then (s, none)
  else
    let r := if size ≠ 8 ∨ off % 8 ≠ 0 then none
      else if bar = 0 then s.bar0Read f off
      else if bar = 2 then s.bar2Read f off
      else none
    match r with
    | some (s1, w) => (s1, some w)
    | none => (s, some ones64)

end Sys2Proof.Machine
end

