-- ==== Sys2Proof/Machine/Time.lean ====
section
/-!
DEFINITION. Device time: states, discipline, slew and step, PPS_OUT, the reference of the local time base, and the time
commands (R42-R74, R588).
-/

namespace Sys2Proof.Machine

def State.updTime (s : State) (f : TimeSt → TimeSt) : State := { s with time := f s.time }

/-! ### States (R47-R50) -/

/-- The frequency correction in force, in parts per 10^12 (R47). -/
def TimeSt.corr (t : TimeSt) : Int :=
  match t.st with
  | .freerun => if t.freq = 1 ∧ t.refs.trefQualified then t.refs.trefPpt else 0
  | .locked => t.freqCorr
  | .holdover => t.freqAvg

/-- Sum of correction times duration, and the duration, of the part of a history after `lo` and before `hi`. -/
def histSum (h : List (Nat × Int)) (lo hi : Nat) : Int × Nat :=
  match h with
  | [] => (0, 0)
  | (a, v) :: rest =>
    let d := hi - Nat.max a lo
    let r := histSum rest lo (Nat.min a hi)
    (r.1 + v * d, r.2 + d)

/-- The correction averaged over the last 64 s of LOCKED (R47). -/
def TimeSt.average (t : TimeSt) : Int :=
  let r := histSum t.freqHist (t.ns.toNat - 64000000000) t.ns.toNat
  if r.2 = 0 then t.freqCorr else r.1 / r.2

/-- TIME_STATE (R500). -/
def State.timeEvent (s : State) (old new : DtState) (reason : Nat) : State :=
  s.event 0x0100 [(1, old.code), (1, new.code), (1, reason)]

/-- Quarter nanoseconds of DT less the compensation of PPS_OUT (R72). -/
def TimeSt.ppsTime (t : TimeSt) : Int := 4 * (t.ns.toNat : Int) + (t.frac.toNat / 16384 : Nat) - t.pps.compQns

/-- Seconds before the present instant give no pulse any more. -/
def TimeSt.ppsSkip (t : TimeSt) : TimeSt := { t with pps := { t.pps with lastSecond := (t.ppsTime - 1) / 4000000000 } }

/-- PPS_OUT is driven (R73). -/
def TimeSt.ppsOn (t : TimeSt) : Bool := t.st ≠ .freerun || t.pps.freerun

/-- PPS_OUT after a change of what drives it: held low while it is not driven. -/
def TimeSt.ppsSettle (t : TimeSt) (was : Bool) : TimeSt :=
  if !t.ppsOn then { t with pps := { t.pps with level := false } } else if was then t else t.ppsSkip

/-- LOCKED is left for HOLDOVER (R49). -/
def State.leaveLocked (s : State) (reason : Nat) : State :=
  if s.time.st = .locked then
    ((s.updTime fun t => { t with
      st := .holdover, freqAvg := t.average, holdoverSince := t.ns.toNat, goodMeas := 0 }).markHoldover).timeEvent
      .locked .holdover reason
  else s

/-- DT enters LOCKED (R49). -/
def State.enterLocked (s : State) : State :=
  let was := s.time.ppsOn
  (s.updTime fun t => TimeSt.ppsSettle { t with st := .locked, freqHist := [(t.ns.toNat, t.freqCorr)] } was).timeEvent
    s.time.st .locked 0

/-- The selected phase source is qualified (R49, R51). -/
def TimeSt.phaseUp (t : TimeSt) : Bool :=
  match t.phase with
  | 1 => t.ptp.qualified
  | 2 => t.refs.ppsQualified
  | 3 => t.ptp.qualified || t.refs.ppsQualified
  | _ => false

/-- A source has been lost: consecutive measurements end, and LOCKED with no phase source is left (R49). -/
def State.lostCheck (s : State) (reason : Nat) : State :=
  if s.time.phaseUp then s else (s.updTime fun t => { t with goodMeas := 0 }).leaveLocked reason

/-- The servo's correction from now on; the history keeps what the average of R47 needs. -/
def TimeSt.setCorr (t : TimeSt) (v : Int) : TimeSt :=
  { t with
    freqCorr := v
    freqHist := if t.st = .locked then
        let lo := t.ns.toNat - 64000000000
        let h := t.freqHist.takeWhile fun e => lo < e.1
        (t.ns.toNat, v) :: (h ++ (t.freqHist.drop h.length).take 1)
      else t.freqHist }

/-- The source that needs a correction beyond ±100 ppm is treated as lost, PPS_IN or PTP (R50); with the other one
qualified DT keeps its state. -/
def State.freqRange (s : State) (pps : Bool) : State :=
  let s1 := s.updTime fun t =>
    if pps then { t with refs := { t.refs with ppsQualified := false, ppsGood := 0 } } else { t with ptp := {} }
  if s1.time.st = .locked ∧ !s1.time.phaseUp then s1.leaveLocked 3
  else (s1.updTime fun t => { t with goodMeas := 0 }).timeEvent s1.time.st s1.time.st 3

/-! ### Slew (R58, R59) -/

/-- R58's rule at a measurement. A slew ends when its target has been removed to within 1 µs (log 36). -/
def State.slewRule (s : State) (off : Int) : State :=
  if off > 1000000 then
    let s1 := s.updTime fun t => { t with stepNeeded := true, slew := 0, slewNs := 0 }
    if s.time.stepNeeded then s1 else s1.event 0x0101 [(8, ofInt 64 off)]
  else if off.natAbs > 1000 then
    s.updTime fun t => { t with
      stepNeeded := false, slew := if off > 0 then 500000000 else -500000000, slewNs := (off.natAbs - 1000) * 2000 }
  else s.updTime fun t => { t with stepNeeded := false, slew := 0, slewNs := 0 }

/-- What a measurement does once the servo's correction is known (R49, R58). -/
def State.measured (s : State) (off : Int) : State :=
  let s1 := (s.slewRule off).updTime fun t => { t with
    goodMeas := if off.natAbs ≤ 1000 then Nat.min 8 (t.goodMeas + 1) else 0 }
  if s1.time.st = .locked then (if off.natAbs > 10000 then s1.leaveLocked 2 else s1)
  else if s1.time.goodMeas = 8 ∧ s1.time.phaseUp then s1.enterLocked
  else s1

/-- A discipline measurement of PPS_IN or PTP: source time minus DT. The correction that a servo recovers from the phase is
a free value (log 38). -/
def State.measure (s : State) (pps : Bool) (off : Int) : State :=
  if !s.phRuns then s
  else
    let s0 := s.updTime fun t => { t with offset := off }
    if s.time.freq = 0 then
      let d := s0.draw
      if d.1.toInt.natAbs > 100000000 then d.2.freqRange pps
      else (d.2.updTime fun t => t.setCorr d.1.toInt).measured off
    else s0.measured off

/-! ### PTP (R52) -/

/-- Lexicographic order. -/
def lexLt (a b : List Nat) : Bool :=
  match a, b with
  | x :: xs, y :: ys => x < y || (x = y && lexLt xs ys)
  | [], _ :: _ => true
  | _, [] => false

/-- The data set comparison of IEEE 1588-2019: the better of two masters (log 152). -/
def PtpMaster.better (a b : PtpMaster) : Bool :=
  if a.set.id = b.set.id then lexLt [a.set.steps, a.src] [b.set.steps, b.src]
  else lexLt [a.set.prio1, a.set.cls, a.set.accuracy, a.set.variance, a.set.prio2, a.set.id]
    [b.set.prio1, b.set.cls, b.set.accuracy, b.set.variance, b.set.prio2, b.set.id]

/-- The best of the masters heard. -/
def bestMaster (l : List PtpMaster) : Option PtpMaster :=
  l.foldl (fun m x => match m with
    | none => some x
    | some b => if x.better b then some x else some b) none

/-- An Announce message: the masters heard within the receipt timeout, and the best of them is selected; a change of master
begins the measurement anew (R52, log 152). -/
def PtpSt.announce (p : PtpSt) (dt src : Nat) (d : Sys2Proof.PtpSet) : PtpSt :=
  let l := (p.masters.filter fun m => m.src ≠ src && decide (dt < m.dt + Config.announceTimeoutNs)) ++ [⟨src, d, dt⟩]
  let best := (bestMaster l).map (·.src)
  let q := { p with
    masters := l, parent := best, announced := true, announceDt := if best = some src then dt else p.announceDt }
  if best = p.parent then q else { q with haveT1 := false, haveSync := false, req := none, announceDt := dt }

/-- The measurement has its T1 and T2: a Delay_Req is sent at once (log 153). -/
def PtpSt.ask (p : PtpSt) (dt : Nat) : PtpSt :=
  { p with req := some (p.reqNo, dt), reqNo := (p.reqNo + 1) % 65536, haveT1 := true }

/-- The slave's state after a message, with the offset it completes. Messages of a master that is not selected change
nothing. PTP is qualified at the first offset that is complete (log 153). -/
def PtpSt.take (p : PtpSt) (dt src : Nat) (m : Sys2Proof.PtpMsg) : PtpSt × Option Int :=
  match m with
  | .announce d => (p.announce dt src d, none)
  | .sync seq two t1 t2 interval =>
    if p.parent ≠ some src then (p, none)
    else
      let q := { p with
        syncSeq := seq, t1 := t1, t2 := t2, haveT1 := false, haveSync := true, lastSyncDt := dt, intervalNs := interval }
      (if two then q else q.ask dt, none)
  | .followUp seq t1 =>
    if p.parent = some src ∧ p.haveSync ∧ seq = p.syncSeq then (PtpSt.ask { p with t1 := t1 } dt, none) else (p, none)
  | .delayResp seq mine t4 =>
    match p.req with
    | some (n, t3) =>
      if p.parent = some src ∧ mine ∧ seq = n ∧ p.haveSync ∧ p.haveT1 then
        ({ p with qualified := true, req := none }, some ((((p.t1 : Int) - p.t2) + ((t4 : Int) - t3)) / 2))
      else (p, none)
    | none => (p, none)

/-- PTP_MESSAGE_RX: a message of the selected port and domain over one of the three transports (R52). -/
def execPtpMessageRx (port : Nat) (rx : PtpRx) (s : State) : Out :=
  if !s.phRuns ∨ port ≠ s.time.ptpPort ∨ rx.hdr.domain ≠ s.time.ptpDomain ∨ 2 < rx.hdr.transport
      ∨ (s.time.phase ≠ 1 ∧ s.time.phase ≠ 3) then done s
  else
    let r := s.time.ptp.take s.dt rx.hdr.src rx.msg
    let sent := decide (r.1.reqNo ≠ s.time.ptp.reqNo)
    let s1 := { s.updTime fun t => { t with ptp := r.1 } with
      out := if sent then { s.out with ptpTx := s.out.ptpTx ++ [(port, s.time.ptp.reqNo, s.dt)] } else s.out }
    match r.2 with
    | some off => done (s1.measure false off)
    | none => done s1

/-- PTP_LOSS_TIMEOUT (R52). -/
def execPtpLossTimeout (s : State) : Out :=
  let p := s.time.ptp
  if p.announced ∧ ((p.haveSync ∧ p.lastSyncDt + 3 * p.intervalNs ≤ s.dt)
      ∨ p.announceDt + Config.announceTimeoutNs ≤ s.dt) then
    done ((s.updTime fun t => { t with ptp := {} }).lostCheck 1)
  else done s

/-! ### PPS_IN and TREF_10M (R53, R54) -/

/-- The nearest whole DT second minus a timestamp. Half a second away both are nearest, and which one is taken is a free
value (log 2). -/
def State.ppsOffset (s : State) (t : Nat) : State × Int :=
  let r := t % secNs
  if r * 2 < secNs then (s, -(r : Int))
  else if r * 2 > secNs then (s, (secNs : Int) - r)
  else
    let d := s.draw
    (d.2, if d.1.getLsbD 0 then (r : Int) else -(r : Int))

/-- PPS_IN_EDGE (R53). -/
def execPpsInEdge (s : State) : Out :=
  let r := s.time.refs
  let gap := s.dt - r.ppsLast
  let ok := secNs ≤ gap + 100000 ∧ gap ≤ secNs + 100000
  let set := fun (q : Bool) (n : Nat) => s.updTime fun t => { t with
    refs := { t.refs with ppsSeen := true, ppsLast := t.ns.toNat, ppsQualified := q, ppsGood := n } }
  if r.ppsSeen ∧ !decide ok then
    let s1 := set false 1
    done (if r.ppsQualified then s1.lostCheck 1 else s1)
  else
    let n := Nat.min 4 (r.ppsGood + 1)
    let s1 := set (decide (n = 4)) n
    if n = 4 ∧ (s.time.phase = 2 ∨ (s.time.phase = 3 ∧ !s.time.ptp.qualified)) then
      let o := s1.ppsOffset s.dt
      done (o.1.measure true o.2)
    else done s1

/-- PPS_IN_MISSING (R53). -/
def execPpsInMissing (s : State) : Out :=
  if s.time.refs.ppsSeen ∧ s.time.refs.ppsLast + 3 * secNs + 100000 < s.dt then
    let s1 := s.updTime fun t => { t with refs := { t.refs with ppsSeen := false, ppsQualified := false, ppsGood := 0 } }
    done (if s.time.refs.ppsQualified then s1.lostCheck 1 else s1)
  else done s

/-- TREF_QUALIFIED: the measured deviation of the input from the local time base (R54). -/
def execTrefQualified (ppt : Int) (s : State) : Out :=
  if ppt.natAbs > 50000000 then done s
  else
    let s1 := s.updTime fun t => { t with refs := { t.refs with trefQualified := true, trefPpt := ppt } }
    done (if s.time.freq = 1 then s1.updTime fun t => t.setCorr ppt else s1)

/-- TREF_LOSS (R54). -/
def execTrefLoss (s : State) : Out :=
  done (s.updTime fun t => { t with refs := { t.refs with trefQualified := false } })

/-- HOLDOVER_EXPIRY (R49). -/
def execHoldoverExpiry (s : State) : Out :=
  let t := s.time
  if t.st = .holdover ∧ t.holdoverS ≠ 0 ∧ t.holdoverSince + t.holdoverS * secNs ≤ s.dt then
    done ((s.updTime fun t => TimeSt.ppsSettle { t with st := .freerun } true).timeEvent .holdover .freerun 4)
  else done s

/-! ### The local time base (R588) -/

/-- The reference input of a well has been lost while it was the local time base. -/
def State.baseLost (s : State) (well : Nat) : State :=
  let s0 := if well = 0 then s.updTime fun t => { t with baseReturn := none } else s
  if s.time.base ≠ well then s0
  else
    let next := (List.range 8).find? fun w => w ≠ well && (s.well w).refclk
    (s0.updTime fun t => { t with base := next.getD 8 }).leaveLocked 1

/-- W0's reference input has returned: the switch back waits for the next DT second. -/
def State.baseBack (s : State) : State :=
  if s.time.base = 0 then s else s.updTime fun t => { t with baseReturn := some (nextMultiple secNs t.ns.toNat) }

/-- TIMEBASE_SWITCHBACK (R588). -/
def execTimebaseSwitchback (s : State) : Out :=
  match s.time.baseReturn with
  | some d => if d ≤ s.dt then done (s.updTime fun t => { t with base := 0, baseReturn := none }) else done s
  | none => done s

/-! ### Steps (R60-R62, R68) -/

/-- Move an interval's DT by a step. -/
def moveOpt (a : Nat) (d : Option Nat) : Option Nat := d.map (· + a)
/-- Move a stamp kept as DT plus 1, 0 for none. -/
def moveMark (a d : Nat) : Nat := if d = 0 then 0 else d + a
/-- Move every stamp of a table. -/
def moveAll (a : Nat) (m : SMap Nat) : SMap Nat := m.map fun e => (e.1, moveMark a e.2)

def LinkSt.move (a : Nat) (l : LinkSt) : LinkSt :=
  { l with
    lossDt := moveOpt a l.lossDt, debounceDt := moveOpt a l.debounceDt, downs := l.downs.map (· + a)
    suppressEnd := moveOpt a l.suppressEnd, trainRetry := moveOpt a l.trainRetry }

def Well.move (a : Nat) (w : Well) : Well :=
  { w with
    lastSweep := w.lastSweep + a
    frags := w.frags.map fun e => (e.1, { e.2 with born := e.2.born + a })
    held := w.held.map fun e => (e.1, e.2.1, e.2.2 + a) }

def Cage.move (a : Nat) (g : Cage) : Cage :=
  { g with changeDt := moveOpt a g.changeDt, releaseDt := g.releaseDt + a, pollDt := g.pollDt + a }

def EPort.move (a : Nat) (e : EPort) : EPort :=
  { e with downDt := e.downDt + a, pauseEnd := moveAll a e.pauseEnd, xoff := moveAll a e.xoff }

def ClusterSt.move (a : Nat) (k : ClusterSt) : ClusterSt :=
  { k with
    drain := k.drain.map fun d => (d.1, d.2 + a), memErrDt := moveOpt a k.memErrDt
    task := { k.task with holdSince := moveOpt a k.task.holdSince } }

/-- Intervals of the network side, the basin and the queues move with a step. -/
def State.moveNet (s : State) (a : Nat) : State :=
  { s with
    net := { s.net with
      ports := s.net.ports.map fun e => (e.1, { e.2 with link := e.2.link.move a })
      wells := (List.range 8).foldl (fun m w => SMap.set {} m w (Well.move a (SMap.get {} m w))) s.net.wells
      committing := s.net.committing.map fun g => { g with startDt := g.startDt + a }
      cages := s.net.cages.map fun e => (e.1, e.2.move a)
      buses := s.net.buses.map fun e => (e.1, { e.2 with firstStuckDt := e.2.firstStuckDt + a }) }
    basin := { s.basin with
      rebuildStart := s.basin.rebuildStart + a, badFreeDt := moveAll a s.basin.badFreeDt
      faults := s.basin.faults.map fun e => (e.1, e.2 + a) }
    egress := { s.egress with
      eports := s.egress.eports.map fun e => (e.1, e.2.move a)
      queues := s.egress.queues.map fun e =>
        (e.1, { e.2 with agg := e.2.agg.map fun g => { g with opened := g.opened + a } }) } }

/-- Intervals of the order unit, the clusters, the tables and DCI move with a step. -/
def State.moveUnits (s : State) (a : Nat) : State :=
  { s with
    order := { s.order with
      recs := s.order.recs.map fun e => (e.1, { e.2 with listDt := e.2.listDt + a })
      doms := s.order.doms.map fun e => (e.1, { e.2 with since := e.2.since + a })
      fence := s.order.fence.map fun f => { f with drainEnd := moveOpt a f.drainEnd } }
    clusters := s.clusters.map fun e => (e.1, e.2.move a)
    truns := s.truns.map fun e => (e.1, { e.2 with enterDt := e.2.enterDt + a })
    cores := s.cores.map fun e => (e.1, { e.2 with retiring := e.2.retiring.map fun r => (r.1, r.2 + a) })
    locks := { s.locks with lastDt := moveAll a s.locks.lastDt }
    tables := { s.tables with
      weirCnt := { s.tables.weirCnt with fullDt := moveMark a s.tables.weirCnt.fullDt }
      l2 := s.tables.l2.map fun e => (e.1, { e.2 with reportDt := moveMark a e.2.reportDt })
      errDt := moveAll a s.tables.errDt
      scrub := s.tables.scrub.map fun e => (e.1, { e.2 with lastDt := e.2.lastDt + a }) }
    dci := { s.dci with
      lease := { s.dci.lease with deadline := s.dci.lease.deadline + a }
      fnA := { s.dci.fnA with intGap := moveAll a s.dci.fnA.intGap }
      fnB := { s.dci.fnB with intGap := moveAll a s.dci.fnB.intGap } }
    hbm := { s.hbm with pcs := (List.range 64).foldl (fun m k =>
      let x := SMap.get {} m k
      SMap.set {} m k { x with errDt := moveOpt a x.errDt, scrubDt := x.scrubDt + a }) s.hbm.pcs }
    trust := { s.trust with
      nonce := s.trust.nonce.map fun x => (x.1, x.2 + a), resetAt := moveOpt a s.trust.resetAt
      phResets := s.trust.phResets.map (· + a), trial := s.trust.trial.map fun x => { x with startDt := x.startDt + a }
      writing := s.trust.writing.map fun x => { x with startDt := x.startDt + a } }
    power := { s.power with lastAccept := s.power.lastAccept.map fun e => (e.1, e.2 + a) }
    faults := { s.faults with
      auto := s.faults.auto.map fun e => (e.1, e.2.map (· + a))
      resets := s.faults.resets.map fun r => { r with startDt := r.startDt + a } } }

/-- Stamps of the time block itself. -/
def TimeSt.move (a : Nat) (t : TimeSt) : TimeSt :=
  { t with
    holdoverSince := t.holdoverSince + a, freqHist := t.freqHist.map fun e => (e.1 + a, e.2)
    ivBase := t.ivBase + a, refs := { t.refs with ppsLast := t.refs.ppsLast + a }
    ptp := { t.ptp with
      lastSyncDt := t.ptp.lastSyncDt + a, announceDt := t.ptp.announceDt + a
      masters := t.ptp.masters.map fun m => { m with dt := m.dt + a } }
    pps := { t.pps with riseDt := t.pps.riseDt + a } }

/-- The delay entries of a cluster that fall due within the skipped interval wake at once, in wake-DT order (R62). -/
def State.stepDelays (s : State) (cl : Nat) : State :=
  let now := s.dt
  let lists := (s.cl cl).task.lists
  let due := lists.foldl (fun (l : List DelayEnt) e =>
    (e.2.filter fun d => d.wake.toNat ≤ now).foldl delayIns l) []
  let s1 := s.updTask cl fun k => { k with
    lists := lists.map fun e => (e.1, e.2.filter fun d => now < d.wake.toNat) }
  due.foldl (fun acc d => acc.setFlags d.t (BitVec.ofNat 32 (2 ^ d.flag.toNat))) s1

/-- DT is stepped forward: intervals move with it (R62, log 39), the open epoch closes at the old DT and a new one opens
at the new DT (R68), and PPS_OUT gives no pulse for the seconds skipped. -/
def State.stepDt (s : State) (c : CmdRef) (a : Nat) : State :=
  let old := s.dt
  let s1 := ((s.moveNet a).moveUnits a).updTime fun t => TimeSt.ppsSkip { (t.move a) with
    ns := t.ns + BitVec.ofNat 64 a, stepGen := t.stepGen + 1, stepBy := some c, stepNeeded := false, stepDt := old + a }
  let s2 := (s1.clusters.map Prod.fst).foldl State.stepDelays s1
  if s.ledger.openEp.isSome then (s2.closeOpen old (old + a)).openEpoch (old + a) else s2

/-- R60's answer at the moment a step would be applied. A step that would carry DT past its 64 bits is answered BAD_ARG,
since DT never decreases (log 40). When several of R60's conditions hold at once, the lease is tested first, then the amount,
then the generation (log 154). -/
def State.tryStep (s : State) (c : CmdRef) (amount : Nat) (gen : W32) : State × Ans :=
  if !s.mine c.fn then (s, .status 3)
  else if amount = 0 ∨ 2 ^ 62 < amount ∨ 2 ^ 64 ≤ s.dt + amount then (s, badArg)
  else if gen = s.time.stepGen then (s.stepDt c amount, .ok)
  else if gen + 1 = s.time.stepGen ∧ s.time.stepBy = some c then (s, .ok)
  else (s, wrongState)

/-- TIME_STEP: applied, or deferred while a closing epoch is within its grace (R60, R61). -/
def timeStepBody (c : CmdRef) (amount : Nat) (gen : W32) (s : State) : State × Ans :=
  if s.ledger.closing.isSome ∨ !s.time.deferred.isEmpty then
    (s.updTime fun t => { t with deferred := t.deferred ++ [⟨c, amount, gen⟩] }, .later)
  else s.tryStep c amount gen

def execTimeStep (c : CmdRef) (amount : Nat) (gen : W32) (s : State) : Out :=
  s.command c 0x0501 [(8, amount), (4, gen.toNat)] (timeStepBody c amount gen)

/-- TIME_STEP_DEFERRED_APPLY: the closing epoch is sealed, and the first deferred step is decided (R61). -/
def execTimeStepDeferredApply (s : State) : Out :=
  match s.time.deferred with
  | [] => done s
  | r :: rest =>
    if s.ledger.closing.isSome ∨ !s.running r.c 0x0501 then done s
    else
      let s1 := s.updTime fun t => { t with deferred := rest }
      let a := s1.tryStep r.c r.amount r.gen
      done (a.1.answer r.c a.2)

/-! ### PPS_OUT (R72, R73) -/

/-- PPS_OUT_RISE. -/
def execPpsOutRise (s : State) : Out :=
  let t := s.time
  let sec := t.ppsTime / 4000000000
  if !t.ppsOn ∨ t.pps.level ∨ sec ≤ t.pps.lastSecond then done s
  else done (s.updTime fun t => { t with pps := { t.pps with level := true, riseDt := t.ns.toNat, lastSecond := sec } })

/-- PPS_OUT_FALL. -/
def execPpsOutFall (s : State) : Out :=
  let p := s.time.pps
  if p.level ∧ p.riseDt + p.highNs ≤ s.dt then
    done (s.updTime fun t => { t with pps := { t.pps with level := false } })
  else done s

/-- PPS_OUT_CONFIG. -/
def ppsOutConfigBody (comp : Int) (high free : Nat) (s : State) : State × Ans :=
  if comp.natAbs > 4000000 ∨ high < 1000 ∨ 500000000 < high ∨ 1 < free then (s, badArg)
  else
    let was := s.time.ppsOn && decide (comp = s.time.pps.compQns)
    (s.updTime fun t => TimeSt.ppsSettle { t with
      pps := { t.pps with compQns := comp, highNs := high, freerun := free = 1 } } was, .ok)

def execPpsOutConfig (c : CmdRef) (compQns : Int) (highNs freerun : Nat) (s : State) : Out :=
  s.command c 0x0503 [(4, ofInt 32 compQns), (4, highNs), (1, freerun)] (ppsOutConfigBody compQns highNs freerun)

/-! ### TIME_SOURCE, TIME_STATUS -/

/-- The phase or frequency sources change: measurements start anew, and LOCKED without its source is left (log 41). -/
def State.setSource (s : State) (phase freq port domain hold : Nat) : State :=
  let t := s.time
  let samePtp := decide (t.ptpPort = port ∧ t.ptpDomain = domain)
  let same := decide (t.phase = phase) && samePtp
  let s1 := s.updTime fun t => { t with
    phase := phase, freq := freq, ptpPort := port, ptpDomain := domain, holdoverS := hold
    ptp := if samePtp && (phase = 1 || phase = 3) then t.ptp else {}
    goodMeas := if same then t.goodMeas else 0 }
  let s2 := if same then s1 else s1.leaveLocked 1
  if t.freq = freq then s2
  else if freq = 2 then s2.updTime fun t => t.setCorr 0
  else if freq = 1 ∧ t.refs.trefQualified then s2.updTime fun x => x.setCorr t.refs.trefPpt
  else s2

/-- TIME_SOURCE (R49, R51, R52). -/
def timeSourceBody (phase freq port domain hold : Nat) (s : State) : State × Ans :=
  if 3 < phase ∨ 2 < freq ∨ 127 < domain ∨ 127 < port ∨ 604800 < hold then (s, badArg)
  else (s.setSource phase freq port domain hold, .ok)

def execTimeSource (c : CmdRef) (phase freq ptpPort ptpDomain holdoverS : Nat) (s : State) : Out :=
  s.command c 0x0500 [(1, phase), (1, freq), (2, ptpPort), (1, ptpDomain), (4, holdoverS)]
    (timeSourceBody phase freq ptpPort ptpDomain holdoverS)

/-- TIME_STATUS: the fields of a DT_NOW read by the Pumphouse (R46). -/
def timeStatusBody (s : State) : State × Ans :=
  let r := s.dtNow .pumphouse
  let t := s.time
  let qual := t.ptp.qualified.toNat + 2 * t.refs.ppsQualified.toNat + 4 * t.refs.trefQualified.toNat
  (r.1, .data (layout [(8, (r.1.dtSnap .pumphouse).toNat), (8, ofInt 64 t.offset), (1, qual), (4, ofInt 32 t.corr)]))

def execTimeStatus (c : CmdRef) (s : State) : Out := s.command c 0x0502 [] timeStatusBody

end Sys2Proof.Machine
end

