-- ==== Sys2Proof/Machine/Parser.lean ====
section
/-!
DEFINITION. The parse graph: the walk, the field vector, hashes, order domains, the E-tag lookup and fragments
(R90, R125-R142).
-/

namespace Sys2Proof.Machine

/-! ### The walk (R125-R130) -/

/-- What a walk has gathered: header offsets in order, flags, class, field vector bytes written by extract lists, and the
roles of the headers with their offsets, in order. -/
structure Walk where
  hot : List Nat := []
  flags : Nat := 0
  cls : Nat := 0
  fv : List Byte := List.replicate 128 0
  roles : List (Nat × Nat) := []
deriving DecidableEq, Repr

/-- What a walk reads: the graph, the staging, the poisoned words of it. -/
structure WalkIn where
  graph : Graph
  stage : List Byte
  poison : List Nat

/-- `n` bytes from an offset lie in the staging, and none of them is poisoned. -/
def WalkIn.has (i : WalkIn) (o n : Nat) : Bool := o + n ≤ i.stage.length
def WalkIn.bad (i : WalkIn) (o n : Nat) : Bool := i.poison.any fun w => 8 * w < o + n && o < 8 * w + 8

/-- One operation of an extract list: a byte that the staging does not hold writes 0 and sets PARSE_SHORT (R127). -/
def Walk.copy (w : Walk) (i : WalkIn) (base : Nat) (op : Nat × Nat × Nat) : Walk :=
  { w with
    fv := splice w.fv op.2.2 (slice i.stage (base + op.1) op.2.1)
    flags := if i.has (base + op.1) op.2.1 then w.flags else w.flags ||| 1 }

/-- An extract list, up to its first operation of length 0. -/
def Walk.extract (w : Walk) (i : WalkIn) (base lst : Nat) : Walk :=
  if lst = 0x3FF then w
  else ((SMap.get [] i.graph.extract lst).takeWhile fun op => op.2.1 ≠ 0).foldl (fun acc op => acc.copy i base op) w

/-- The first valid entry of a state that matches a key (R126). -/
def Graph.tcamFind (g : Graph) (state key : Nat) : Option (BitVec 128) :=
  ((List.range 64).map fun k => SMap.get 0 g.tcam (state * 64 + k)).find? fun e =>
    e.getLsbD 122 && ((BitVec.ofNat 32 key) &&& e.extractLsb' 32 32) = (e.extractLsb' 0 32 &&& e.extractLsb' 32 32)

/-- A field of a TCAM entry. -/
def tfld (e : BitVec 128) (lo n : Nat) : Nat := e.toNat / 2 ^ lo % 2 ^ n

/-- The length of a header in field mode (R126). -/
def fieldLen (e : BitVec 128) (b : Byte) : Nat :=
  b.toNat / 2 ^ tfld e 88 3 % 2 ^ (tfld e 91 3 + 1) * 2 ^ tfld e 94 2 + tfld e 96 8

/-- The walk from a header on, of at most `fuel` headers (R128). -/
def walkFrom (i : WalkIn) (fuel hdr off state : Nat) (w : Walk) : Walk :=
  match fuel with
  | 0 => w
  | n + 1 =>
    let st := SMap.get 0 i.graph.states state
    let w1 := { w with hot := w.hot ++ [off], roles := w.roles ++ [(fld st 16 4, off)] }
    let ko := off + fld st 0 6
    let kl := fld st 6 2 + 1
    if !i.has ko kl then { w1 with flags := w1.flags ||| 1 }
    else if i.bad ko kl then { w1 with flags := w1.flags ||| 8 }
    else match i.graph.tcamFind state (beVal (slice i.stage ko kl)) with
      | none => { w1 with cls := fld st 8 8, flags := w1.flags ||| 4 }
      | some e =>
        let w2 := w1.extract i off (tfld e 104 10)
        let w3 := if tfld e 114 8 ≠ 0 then { w2 with cls := tfld e 114 8 } else w2
        let lo := off + tfld e 82 6
        if e.getLsbD 73 ∧ !i.has lo 1 then { w3 with flags := w3.flags ||| 1 }
        else if e.getLsbD 73 ∧ i.bad lo 1 then { w3 with flags := w3.flags ||| 8 }
        else
          let len := if e.getLsbD 73 then fieldLen e (i.stage.getD lo 0) else tfld e 74 8
          if len = 0 then { w3 with flags := w3.flags ||| 4 }
          else if e.getLsbD 72 then w3
          else if 254 < off + len ∨ hdr + 1 = 16 then { w3 with flags := w3.flags ||| 2 }
          else if !(SMap.get 0 i.graph.states (tfld e 64 8)).getLsbD 20 then { w3 with flags := w3.flags ||| 4 }
          else walkFrom i n (hdr + 1) (off + len) (tfld e 64 8) w3

/-- A whole walk from a start state. -/
def walk (i : WalkIn) (start : Nat) : Walk :=
  if (SMap.get 0 i.graph.states start).getLsbD 20 then walkFrom i 16 0 0 start {}
  else { hot := [0], flags := 4 }

/-- The offset of the first header of a role. -/
def Walk.role (w : Walk) (r : Nat) : Option Nat := (w.roles.find? fun e => e.1 = r).map (·.2)

/-! ### Hash and domain (R135-R137) -/

/-- The bytes of the field vector that a profile selects. -/
def selectBytes (mask : BitVec 128) (fv : List Byte) : List Byte :=
  ((List.range 128).filter fun k => mask.getLsbD k).map fun k => fv.getD k 0

/-- The hash of a field vector under a profile. -/
def State.hashOf (s : State) (x : HashProfile) (fv : List Byte) : W32 :=
  let input := selectBytes x.input fv
  match x.alg with
  | 1 => toeplitz (SMap.get [] s.net.hashKeys x.keySel) 0 input
  | 2 => crcStd false input
  | _ => 0

/-- A frame's hash, domain and cluster preference (R136). -/
structure Decision where
  domain : Nat
  hash : W32
  cls : Nat
  pref : Nat
deriving DecidableEq, Repr

def State.decide' (s : State) (port : Nat) (w : Walk) : Decision :=
  if w.flags / 8 % 2 = 1 then ⟨(s.port port).cfg.defaultDomain, 0, w.cls, 0⟩
  else
    let x : HashProfile := SMap.get {} s.net.profiles w.cls
    let h := s.hashOf x w.fv
    match x.mode with
    | 2 => ⟨x.fixedDomain, h, w.cls, 0⟩
    | 1 => ⟨h.toNat % 65536, h, w.cls, 0⟩
    | _ =>
      let e := SMap.get 0 s.net.indirection (x.table * 512 + h.toNat % 512)
      ⟨e.toNat % 65536 + h.toNat / 65536 % 2 ^ (e.toNat / 65536 % 16), h, w.cls, e.toNat / 1048576 % 16⟩

/-! ### The E-tag (R90, R131) -/

/-- The E-tag flag and the entry of a frame on a cascade port. An E-tag whose GRP is not 0 gives no key: it is a miss
(log 160). -/
def State.etagLookup (s : State) (port : Nat) (stage : List Byte) : Nat × Option W64 :=
  if !(s.port port).cfg.cascade then (0, none)
  else if slice stage 12 2 ≠ [0x89, 0x3F] then (256, none)
  else
    let grpBase := beVal (slice stage 16 2)
    let ecid := (stage.getD 19 0).toNat * 4096 + grpBase % 4096
    match (s.net.ecid.find? fun e => ecidValid e.2 && ecidCascade e.2 = port && ecidEcid e.2 = ecid).map (·.2) with
    | some e => if grpBase / 4096 % 4 = 0 then (0, some e) else (512, none)
    | none => (512, none)

/-! ### Fragments (R139) -/

/-- A fragment's key, whether it is the first, and its MF bit. -/
structure FragInfo where
  key : List Nat
  first : Bool
  more : Bool
deriving DecidableEq, Repr

/-- From the offset field and MF: offset 0 with MF 0 is no fragment. -/
def fragInfo (key : List Nat) (off : Nat) (more : Bool) : Option FragInfo :=
  if off = 0 ∧ !more then none else some ⟨key, off = 0, more⟩

/-- The fragment fields of an IPv4 header at an offset. -/
def frag4 (stage : List Byte) (o vrf : Nat) : Option FragInfo :=
  let f := beVal (slice stage (o + 6) 2)
  fragInfo [4, beVal (slice stage (o + 12) 4), beVal (slice stage (o + 16) 4), beVal (slice stage (o + 4) 2),
    (slice stage (o + 9) 1).foldl (fun _ b => b.toNat) 0, vrf] (f % 8192) (decide (f / 8192 % 2 = 1))

/-- The fragment fields of an IPv6 header and its fragment header. -/
def frag6 (stage : List Byte) (o q vrf : Nat) : Option FragInfo :=
  let f := beVal (slice stage (q + 2) 2)
  fragInfo [6, beVal (slice stage (o + 8) 16), beVal (slice stage (o + 24) 16), beVal (slice stage (q + 4) 4),
    (slice stage q 1).foldl (fun _ b => b.toNat) 0, vrf] (f / 8) (decide (f % 2 = 1))

/-- The header at which fragmentation is handled: the first IPV4 header, or the first IPV6 header when the header that
follows it is an IPV6_FRAG header (log 144), whichever stands first. -/
def Walk.frag (w : Walk) (stage : List Byte) (vrf : Nat) : Option FragInfo :=
  let six := match w.roles.dropWhile fun e => e.1 ≠ 4 with
    | [] => none
    | e :: rest => (rest.head?.filter fun x => x.1 = 5).map fun x => (e.2, x.2)
  match w.role 3, six with
  | some o, none => frag4 stage o vrf
  | some o, some (a, q) => if o < a then frag4 stage o vrf else frag6 stage a q vrf
  | none, some (a, q) => frag6 stage a q vrf
  | none, none => none

/-! ### The field vector (R132) -/

/-- L4_SRC and L4_DST: bytes 0-3 of the first L4 header, in network order. -/
def Walk.l4 (w : Walk) (stage : List Byte) : List Byte :=
  match w.role 6 with
  | some o => slice stage o 4
  | none => [0, 0, 0, 0]

/-- PTP_EVENT: the low nibble of the first PTP header's byte 0 is 0 to 3 (R130). -/
def Walk.ptpEvent (w : Walk) (stage : List Byte) : Nat :=
  match w.role 7 with
  | some o => if o < stage.length ∧ (stage.getD o 0).toNat % 16 ≤ 3 then 1024 else 0
  | none => 0

/-- Bytes 0-31 of a field vector: flags, class, header count, hash, graph version, PTP_QNS, L4 ports, offsets. -/
def fvHead (flags cls : Nat) (hash : W32) (ver qns : Nat) (l4 : List Byte) (hot : List Nat) : List Byte :=
  leBytes 2 flags ++ leBytes 1 cls ++ leBytes 1 hot.length ++ leBytes 4 hash.toNat ++ leBytes 2 ver ++ leBytes 1 qns
    ++ [0] ++ slice l4 0 4 ++ (List.range 16).map fun k => BitVec.ofNat 8 (hot.getD k 255)

/-- The L4 ports of a fragment's entry. -/
def Frag.l4 (f : Frag) : List Byte := beBytes 2 f.l4s.toNat ++ beBytes 2 f.l4d.toNat

/-- Set class, hash, L4 ports and flags in a field vector. -/
def fvTake (fv : List Byte) (flags cls : Nat) (hash : W32) (l4 : List Byte) : List Byte :=
  splice (splice (splice fv 0 (leBytes 2 (leVal (slice fv 0 2) ||| flags) ++ leBytes 1 cls)) 4 (leBytes 4 hash.toNat)) 12 l4

/-! ### Learn triggers (R145) -/

/-- The source MAC and bridge domain of a walk, when they make a trigger. -/
def Walk.learn (w : Walk) (stage : List Byte) (flags inPort defaultBd : Nat) : Option Learn :=
  match w.role 1 with
  | none => none
  | some o =>
    let src := slice stage (o + 6) 6
    let bd := match w.role 2 with
      | some v => beVal (slice stage v 2) % 4096
      | none => defaultBd
    if (src.getD 0 0).getLsbD 0 ∨ src.all (· = 0) ∨ flags % 16 ≠ 0 ∨ flags / 256 % 4 ≠ 0 then none
    else some ⟨BitVec.ofNat 48 (beVal src), bd, inPort⟩

end Sys2Proof.Machine
end

