-- ==== Sys2Proof/Machine/Intake.lean ====
section
/-!
DEFINITION. The wells: the intake FIFO and its drain, cell requests and grants, acceptance and refusal, walks with their
fragments, sluices, and the well's commands (R21-R29, R112-R148, R166-R170, R505).
-/

namespace Sys2Proof.Machine

/-! ### Cell requests (R166, R168-R171) -/

/-- The intake class of a frame from its first 16 bytes (R170). -/
def PortCfg.classOf (c : PortCfg) (bytes : List Byte) : Nat :=
  if slice bytes 12 2 = [0x81, 0x00] then c.classMap.toNat / 8 ^ ((bytes.getD 14 0).toNat / 32) % 8 else c.defaultClass

/-- The quota entities of a frame's cells (R169): the class is that of its first cell (R170). A host's frame on a port that is
not physical stays charged to the host (log 42). -/
def State.frameEnts (_ : State) (k : Pkt) : List Nat :=
  match k.host with
  | some f => if k.port < 128 then [entPortClass k.port k.quotaClass, entPort k.port] else [entHost f]
  | none => [entPortClass k.port k.quotaClass, entPort k.port]

/-- Cells a frame needs for the bytes drained so far: the first once 16 bytes are in, each further one when the previous
is full (R168); at the tail, as many as it occupies (R151). -/
def cellsDue (len : Nat) (tail : Bool) : Nat :=
  if tail then (len + 255) / 256 else if len < 16 then 0 else len / 256 + 1

/-- A refusal found by the drain; a cut-through frame is stomped (R26, R28). -/
def State.refuseFrame (s : State) (p code : Nat) : State :=
  if (s.pkt p).refusal.isSome then s
  else if (s.rc p).ct then
    let h := (s.pkt p).head
    let s1 := (s.updPkt p fun x => { x with stomped := true }).stompCt p
    let s2 := (s1.refuse p code).updPkt p fun x => { x with stomped := false }
    match h with
    | some b => s2.freeBuf b
    | none => s2
  else s.refuse p code

/-- Request a frame's next cell, under the quota check of R171; a request that fails refuses the frame. -/
def State.requestCell (s : State) (p : Nat) : State :=
  let k := s.pkt p
  let ents := s.frameEnts k
  match s.allows ents with
  | .quota => (s.failCount ents .quota).refuseFrame p 4
  | .noBuffer => (s.failCount ents .noBuffer).refuseFrame p 3
  | .ok _ =>
    match s.homeBank k.well with
    | none => (s.failCount ents .noBuffer).refuseFrame p 3
    | some b =>
      let s0 := s.requested k.well b
      let s1 : State := { s0 with basin := { s0.basin with
        reqs := SMap.set [] s0.basin.reqs b (SMap.get [] s0.basin.reqs b ++ [⟨k.well, p⟩]) } }
      s1.updPkt p fun x => { x with asked := x.asked + 1 }

/-- Request the cells that the bytes drained so far call for. -/
def State.requestCells (s : State) (p : Nat) (n : Nat) : State :=
  match n with
  | 0 => s
  | n + 1 => if (s.pkt p).refusal.isSome then s else (s.requestCell p).requestCells p n

/-- The frame as its buffer holds it: without an E-tag that is popped on ingress (R90, log 43). -/
def Pkt.stored (k : Pkt) : List Byte := if k.pop then k.bytes.take 12 ++ k.bytes.drop 20 else k.bytes

/-- The words of its buffer that are poisoned: those that hold bytes of a poisoned word of the frame (R118, R152). -/
def Pkt.storedPoison (k : Pkt) : List Nat :=
  if k.pop then k.poisonWords.map fun i => if i ≤ 1 then i else i - 1 else k.poisonWords

/-- Write what has been drained into the frame's buffer, with its poison marks (R118, R152). -/
def State.storeBytes (s : State) (p : Nat) : State :=
  let k := s.pkt p
  match k.head with
  | some h => s.updBuf h fun b => { b with data := k.stored, poison := k.storedPoison }
  | none => s

/-! ### Acceptance (R21, R119, R145) -/

/-- Cells of a packet that are held. -/
def State.heldCells (s : State) (k : Pkt) : Nat :=
  match k.head with
  | some h => match s.buf h with
    | some b => b.cells.length
    | none => 0
  | none => 0

/-- The well queues a learn trigger (R145). -/
def State.learnQueue (s : State) (k : Pkt) : State :=
  match k.learn with
  | none => s
  | some l =>
    if (s.well k.well).triggers.length < 1024 then s.updWell k.well fun w => { w with triggers := w.triggers ++ [l] }
    else s.intakeCnt k.inPort fun c => { c with learnDrop := c.learnDrop + 1 }

/-- The frame is accepted once its tail is good, its cells are held and it has a sequence number (R21). A run that began
before the poison flag was set is discarded and replayed (R119). -/
def State.tryAccept (s : State) (p : Nat) : State :=
  let k := s.pkt p
  if k.accepted ∨ k.refusal.isSome ∨ !k.tailIn ∨ !k.hasSeq ∨ s.heldCells k < cellsDue k.bytes.length true then s
  else
    let s1 := (s.updPkt p fun x => { x with accepted := true, acceptDt := s.dt }).intakeCnt k.inPort fun c => { c with
      acceptedFrames := c.acceptedFrames + 1, acceptedBytes := c.acceptedBytes + BitVec.ofNat 64 k.bytes.length }
    let s2 := (s1.classFrame k.quotaClass).learnQueue k
    if (s.rc p).lateRun then
      ((if (s.rc p).ct then s2.stompCt p else s2).intakeCnt k.inPort fun c => { c with
        lateReplays := c.lateReplays + 1 }).redo p .poison
    else s2

/-! ### The drain (R114-R118) -/

/-- A poisoned word: marked, counted, and the descriptor's flag set at once; a cut-through frame is stomped at it (R118,
R119). -/
def State.poisonWord (s : State) (p idx : Nat) : State :=
  let k := s.pkt p
  let begun := match k.st with
    | .run _ | .waitStore _ | .pending => !s.isForced p
    | _ => false
  let s1 := (s.updPkt p fun x => { x with poisonWords := x.poisonWords ++ [idx] }).intakeCnt k.inPort
    fun c => { c with poisonWords := c.poisonWords + 1 }
  let s2 := s1.updRc p fun r => { r with poison := true, lateRun := r.lateRun || (begun && !r.poison) }
  if (s.rc p).ct then s2.stompCt p else s2

/-- The verdict at the tail: RUNT before FCS (R29); a word with RXERR fails the FCS (R117). -/
def tailVerdict (k : Pkt) : Option Nat :=
  let n := k.bytes.length
  if n < 64 then some 1
  else if k.rxerr || k.cut || k.bytes.drop (n - 4) ≠ fcs (k.bytes.take (n - 4)) then some 0
  else none

/-- The tail of a frame is in. -/
def State.tailCheck (s : State) (p : Nat) : State :=
  match tailVerdict (s.pkt p) with
  | some c => s.refuseFrame p c
  | none => ((s.updPkt p fun x => { x with tailIn := true }).storeBytes p).tryAccept p

/-- The drain reads one word of the port's oldest frame. The boundary list says where the frame starts and ends; a word whose
SOF or EOF bit says otherwise is taken as one that fails parity (R116, log 158). -/
def State.drainWord (s : State) (port : Nat) (w : IWord) : State :=
  match (s.port port).arriving with
  | [] => s
  | p :: rest =>
    let k := s.pkt p
    let first := k.wOut = 0
    let last := k.ended && k.wOut + 1 = k.wIn
    let s0 := s.updPkt p fun x => { x with wOut := x.wOut + 1 }
    let gone := fun (x : State) => if last then x.updPort port fun q => { q with arriving := rest } else x
    let sound := wordParity w && wordSof w == first && wordEof w == (last && !k.cut)
    if k.refusal.isSome then gone s0
    else if !sound && (first || last) then gone (s0.refuseFrame p 6)
    else
      let s1 := if sound then s0 else s0.poisonWord p k.wOut
      let bytes := k.bytes ++ wordBytes w last
      let s2 := s1.updPkt p fun x => { x with
        bytes := bytes, rxerr := x.rxerr || wordRxerr w
        quotaClass := if k.asked = 0 then (s.port port).cfg.classOf bytes else x.quotaClass }
      let len := bytes.length
      if (s.port port).cfg.maxFrame < len then gone (s2.refuseFrame p 2)
      else
        let tail := last && (tailVerdict (s2.pkt p)).isNone
        let s3 := if last && !tail then s2 else (s2.requestCells p (cellsDue len last - k.asked)).storeBytes p
        gone (if last then s3.tailCheck p else s3)

/-- The drain reads up to `n` words of the drain half. -/
def State.drain (s : State) (port n : Nat) : State :=
  match n with
  | 0 => s
  | n + 1 =>
    match (s.port port).drain with
    | [] => s
    | w :: rest => ((s.updPort port fun x => { x with drain := rest }).drainWord port w).drain port n

/-- DRAIN_READ (R114). -/
def execDrainRead (port n : Nat) (s : State) : Out := done (s.drain port n)

/-- The halves exchange roles (R112). -/
def State.swap (s : State) (port : Nat) : State :=
  if (s.port port).drain.isEmpty then s.updPort port fun x => { x with drain := x.fill, fill := [] } else s

/-- FIFO_BANK_SWAP (R112). -/
def execFifoBankSwap (port : Nat) (s : State) : Out :=
  if (s.port port).fill.isEmpty then done s else done (s.swap port)

/-- The drain catches up with the port's words. -/
def State.drainAll (s : State) (port : Nat) : State :=
  let s1 := s.drain port (s.port port).drain.length
  let s2 := s1.swap port
  s2.drain port (s2.port port).drain.length

/-! ### Frames arriving (R55, R97, R122) -/

/-- The words show a MAC control frame, which the MAC consumes: MAC_CONTROL_RX gives those (R87). -/
def State.consumed (words : List IWord) : Bool := isMacControl ((words.take 2).flatMap wordData)

/-- FRAME_SOF: the first words of a frame, its start the first of them, are written into the fill half; with `ended` the last
is its end (R116, R122). -/
def execFrameSof (port : Nat) (first : SofWords) (s : State) : Out :=
  if !s.receives port ∨ (s.inProgress port).isSome ∨ first.words.isEmpty ∨ State.consumed first.words then done s
  else done (s.frameIn port first.words first.ended)

/-- Symbol errors that the port's FEC corrects in a codeword: 7 of RS(528,514), 15 of RS(544,514). -/
def State.fecCap (s : State) (port : Nat) : Nat := if (s.port port).fec = 1 then 7 else 15

/-- A codeword could not be corrected. -/
def State.fecBad (s : State) (port : Nat) (fec : List Nat) : Bool :=
  (s.port port).fec ≠ 0 && fec.any fun e => s.fecCap port < e

/-- RS-FEC codewords: corrected, uncorrectable, and the histogram of symbol errors (R80). -/
def State.fecCount (s : State) (port : Nat) (fec : List Nat) : State :=
  let cap := s.fecCap port
  if (s.port port).fec = 0 then s
  else s.updPort port fun x => { x with mac := fec.foldl (fun m e => { m with
    fecCorrected := if 0 < e ∧ e ≤ cap then m.fecCorrected + 1 else m.fecCorrected
    fecUncorrectable := if cap < e then m.fecUncorrectable + 1 else m.fecUncorrectable
    fecHist := if e ≤ 15 then SMap.set 0 m.fecHist e (SMap.get 0 m.fecHist e + 1) else m.fecHist }) x.mac }

/-- FRAME_TAIL: the rest of the frame's words, its end the last of them, are written; the drain, which has caught up, reads
them, and the frame is accepted or refused, or waits for a cell or for its walk (R21, log 44). A codeword that could not be
corrected makes the frame fail its FCS (R80, log 158). -/
def execFrameTail (port : Nat) (words : List IWord) (fec : List Nat) (s : State) : Out :=
  match s.inProgress port with
  | none => done s
  | some p =>
    if words.isEmpty then done s
    else
      let bad := s.fecBad port fec
      let s1 := (s.fecCount port fec).updPkt p fun x => { x with rxerr := x.rxerr || bad }
      done ((s1.macWrite port p words true).drainAll port)

/-- The link goes away: the frame in progress ends at that point, as RUNT or FCS (R97). -/
def State.cutFrame (s : State) (port : Nat) : State :=
  match s.inProgress port with
  | none => s
  | some p =>
    let s1 := s.updPkt p fun x => { x with ended := true, cut := true }
    let k := s1.pkt p
    if k.wOut = k.wIn then
      ((if k.refusal.isSome then s1 else s1.tailCheck p).updPort port fun x => { x with
        arriving := x.arriving.filter (· ≠ p) })
    else s1

/-- What a PRBS checker of a port's lane found in the data: its errors are added to the 48-bit counter, and its lock is noted
(R108). -/
def MacCnt.prbs (m : MacCnt) (lane : Nat) (found : Nat × Bool) : MacCnt :=
  { m with
    prbsErrors := SMap.set 0 m.prbsErrors lane (SMap.get 0 m.prbsErrors lane + BitVec.ofNat 48 found.1)
    prbsLock := SMap.set false m.prbsLock lane found.2 }

/-- RX_WHILE_DOWN: data on a port that is not UP is discarded and counted (R97). In TEST the data goes where R108 says, and is
not counted (R96, log 159): to the checkers of PRBS, which find `rx.checks` on the lanes, or back onto the lanes in
SERDES_FAR. -/
def execRxWhileDown (rx : DownRx) (s : State) : Out :=
  let port := rx.port
  let x := s.port port
  if x.lanes = 0 then done s
  else if s.testing port 1 then
    done (s.macCnt port fun m => (((List.range 8).zip rx.checks).take x.lanes).foldl (fun a e => a.prbs e.1 e.2) m)
  else if s.testing port 3 then done { s with out := { s.out with serdes := s.out.serdes ++ [(port, rx.data)] } }
  else if x.st ≠ .down ∧ x.st ≠ .training ∧ x.st ≠ .suppressed then done s
  else done (s.macCnt port fun m => { m with rxWhileDown := m.rxWhileDown + 1 })

/-! ### Cell grants (R156, R166, R167) -/

/-- The requests of a bank whose frames have not been refused meanwhile. -/
def State.bankReqs (s : State) (b : Nat) : List CellReq :=
  (SMap.get [] s.basin.reqs b).filter fun r => (s.pkt r.pkt).refusal.isNone

def State.setReqs (s : State) (b : Nat) (l : List CellReq) : State :=
  { s with basin := { s.basin with reqs := SMap.set [] s.basin.reqs b l } }

/-- Put a granted cell at the end of a frame's chain; the first makes its buffer, of class PACKET (R151, R155). -/
def State.addCell (s : State) (p cell : Nat) (ents : List Nat) : State :=
  let k := s.pkt p
  match k.head with
  | some h => s.updBuf h fun b => { b with cells := b.cells ++ [cell] }
  | none =>
    let s1 := s.setBuf cell (Buf.fresh 1 k.well [cell] [] ents)
    s1.updPkt p fun x => { x with head := some cell }

/-- Requests fail with NO_BUFFER. -/
def State.failThese (s : State) (l : List CellReq) : State :=
  l.foldl (fun acc r => (acc.failCount (acc.frameEnts (acc.pkt r.pkt)) .noBuffer).refuseFrame r.pkt 3) s

/-- Requests that ask a bank without a free cell fail at once (R167). -/
def State.failReqs (s : State) (b : Nat) : State :=
  if (s.freeCell b).isSome then s else (s.setReqs b []).failThese (s.bankReqs b)

/-- The requests of a bank that lost its last free cell to a grant outside the frames fail, though a cell has come free since
(R167). -/
def State.failLost (s : State) (b : Nat) : State :=
  let l := s.bankReqs b
  let gone := l.filter fun r => s.basin.lostReqs.contains r.pkt
  let s1 := s.setReqs b (l.filter fun r => !s.basin.lostReqs.contains r.pkt)
  ({ s1 with basin := { s1.basin with
      lostReqs := s1.basin.lostReqs.filter fun p => !gone.any fun r => r.pkt = p } }).failThese gone

/-- CELL_GRANT: the bank grants the request its pointer comes to first; the counters of R169 change with it, and a frame
that had all but this cell is accepted (R21, R166, R171). -/
def execCellGrant (bank : Nat) (s0 : State) : Out :=
  let s := if s0.basin.lostReqs.isEmpty then s0 else s0.failLost bank
  let reqs := s.bankReqs bank
  let order := bankOrder bank
  let ptr := SMap.get 0 s.basin.bankPtr bank
  let turn := order.drop ptr ++ order.take ptr
  match turn.find? fun w => reqs.any fun r => r.who = w with
  | none => done (s.setReqs bank [])
  | some w =>
    match reqs.find? fun r => r.who = w with
    | none => done s
    | some r =>
      let s0 := s.setReqs bank (reqs.erase r)
      let ents := s.frameEnts (s.pkt r.pkt)
      match s.freeCell bank, s.allows ents with
      | none, _ => done (s.failReqs bank)
      | some _, .quota => done ((s0.failCount ents .quota).refuseFrame r.pkt 4)
      | some _, .noBuffer => done ((s0.failCount ents .noBuffer).refuseFrame r.pkt 3)
      | some c, .ok kind =>
        let s1 : State := { s0 with basin := { s0.basin with
          bankPtr := SMap.set 0 s0.basin.bankPtr bank ((order.idxOf w + 1) % 11) } }
        let s2 := ((((s1.takeCell c).charge ents kind).addCell r.pkt c ents).storeBytes r.pkt).tryAccept r.pkt
        done (s2.failReqs bank)

/-! ### Walks (R120, R129, R133) -/

/-- The next walk of a port: its oldest frame that is not walking, when every earlier one is. -/
def State.nextWalk (s : State) (port : Nat) : Option Nat :=
  (s.port port).parseQ.find? fun p => (s.pkt p).st = .intake && (s.pkt p).refusal.isNone

/-- A well takes over the new graph of a commit in progress; when all have, the former graph becomes the shadow and the
command completes (R133). -/
def State.graphSwitch (s : State) (w : Nat) : State :=
  match s.net.committing with
  | none => s
  | some g =>
    if !(s.well w).switchPending then s
    else
      let s1 := s.updWell w fun x => { x with graph := g.next, graphVer := some g.version, switchPending := false }
      if (List.range 8).any fun k => (s1.well k).switchPending then s1
      else (s1.updNet fun n => { n with shadow := g.former, committing := none }).finish g.c 0 0 [] []

/-- PARSE_START: the parser takes a frame whose standpipe bytes, or whose EOF word, have been drained (R120). -/
def execParseStart (port : Nat) (s : State) : Out :=
  match s.nextWalk port with
  | none => done s
  | some p =>
    let k := s.pkt p
    let w := s.well k.well
    if w.parserReset ∨ (!k.tailIn ∧ k.bytes.length < (s.port port).cfg.standpipe) then done s
    else
      let s1 := s.graphSwitch k.well
      let w1 := s1.well k.well
      done (s1.updPkt p fun x => { x with
        st := .walking, walkBytes := Nat.min 256 k.bytes.length, walkGraph := some (w1.graph, w1.graphVer) })

/-- GRAPH_SWITCH_TIMEOUT: a well that has started no walk for 2 µs switches (R133). -/
def execGraphSwitchTimeout (well : Nat) (s : State) : Out :=
  match s.net.committing with
  | some g => if s.dt < g.startDt + 2000 then done s else done (s.graphSwitch well)
  | none => done s

/-- The order unit gives a frame the next sequence number of its domain (R22). -/
def State.assignSeq (s : State) (p d : Nat) : State :=
  let q := (s.dom d).nextSeq
  let n := s.order.nextParse
  let s1 := s.updDom d fun x => { x with
    nextSeq := x.nextSeq + 1, live := x.live + 1, since := if x.live = 0 then s.dt else x.since }
  (s1.updOrder fun o => { o with nextParse := n + 1 }).updPkt p fun x => { x with
    domain := d, seq := q, hasSeq := true, parseNo := n }

/-- Held fragments with a key leave the hold queue for dispatch, in its order (R142). -/
def State.releaseFrags (s : State) (well : Nat) (key : List Nat) (f : Frag) : State :=
  let go := (s.well well).held.filter fun e => e.2.1 = key
  let s1 := s.updWell well fun w => { w with held := w.held.filter fun e => e.2.1 ≠ key }
  go.foldl (fun acc e => (acc.updPkt e.1 fun x => { x with
    hash := f.hash, cls := f.cls, fv := fvTake x.fv (32 + 64) f.cls f.hash f.l4 }).listPut e.1) s1

/-- Where a parsed frame goes: its flags, decision and L4 ports, the entry it stores or frees, and whether it is held. -/
structure FragPlan where
  flags : Nat := 0
  dec : Decision
  l4 : List Byte
  store : Option (List Nat) := none
  free : Option Nat := none
  hold : Option (List Nat) := none
  untracked : Bool := false
  dup : Bool := false
  full : Bool := false

/-- Fragment handling (R139-R142). -/
def State.fragPlan (s : State) (well : Nat) (i : Option FragInfo) (d : Decision) (l4 : List Byte) : FragPlan :=
  let w := s.well well
  match i with
  | none => { dec := d, l4 := l4 }
  | some f =>
    match w.frags.find? fun e => e.2.key = f.key with
    | some e =>
      if f.first then { flags := 16, dec := d, l4 := l4, dup := true }
      else { flags := 32, dec := ⟨e.2.domain, e.2.hash, e.2.cls, e.2.pref⟩, l4 := e.2.l4
             free := if f.more then none else some e.1 }
    | none =>
      if f.first then
        if w.frags.length < 8192 then { flags := 16, dec := d, l4 := l4, store := some f.key }
        else { flags := 16 + 128, dec := d, l4 := l4, untracked := true }
      else if w.held.length < 256 then
        { dec := { d with domain := w.holdDomain.getD (65528 + well), pref := 0 }, l4 := l4, hold := some f.key }
      else { dec := d, l4 := l4, full := true }

/-- Counters of a walk (R148). -/
def walkCount (flags : Nat) (pl : FragPlan) (c : IntakeCnt) : IntakeCnt :=
  { c with
    parseShort := if flags % 2 = 1 then c.parseShort + 1 else c.parseShort
    parseDepth := if flags / 2 % 2 = 1 then c.parseDepth + 1 else c.parseDepth
    parseError := if flags / 4 % 2 = 1 then c.parseError + 1 else c.parseError
    fragUntracked := if pl.untracked then c.fragUntracked + 1 else c.fragUntracked
    fragDup := if pl.dup then c.fragDup + 1 else c.fragDup }

/-- The frame leaves the parser with its decision: to the hold queue, or to the dispatch list; a stored first fragment
releases those it was waited for by. -/
def State.parsed (s : State) (p well : Nat) (pl : FragPlan) : State :=
  let s1 := s.assignSeq p pl.dec.domain
  match pl.hold with
  | some key =>
    let s2 := (s1.updPkt p fun x => { x with st := .held }).updRc p fun r => { r with heldFrag := true }
    (s2.updWell well fun w => { w with held := w.held ++ [(p, key, s.dt)] }).tryAccept p
  | none =>
    let s2 := (s1.listPut p).updWell well fun w => { w with frags := match pl.free with
      | some n => w.frags.filter fun e => e.1 ≠ n
      | none => w.frags }
    let s3 := match pl.store with
      | none => s2
      | some key =>
        let f : Frag := { key := key, domain := pl.dec.domain, hash := pl.dec.hash, cls := pl.dec.cls, pref := pl.dec.pref
                          l4s := BitVec.ofNat 16 (beVal (slice pl.l4 0 2)), l4d := BitVec.ofNat 16 (beVal (slice pl.l4 2 2))
                          born := s.dt }
        (s2.updWell well fun w => { w with
          frags := w.frags ++ [(w.nextFrag, f)], nextFrag := w.nextFrag + 1 }).releaseFrags well key f
    s3.tryAccept p

/-- What a completed walk does with its frame, under the graph of its start (R22, R90, R129-R142, R145). -/
def State.walkDone (s : State) (p : Nat) : State :=
  let k := s.pkt p
  let w := s.well k.well
  let g := k.walkGraph.getD (w.graph, w.graphVer)
  let cfg := (s.port k.port).cfg
  let stage := k.bytes.take k.walkBytes
  let r := walk ⟨g.1, stage, k.poisonWords⟩ cfg.startState
  let tag := s.etagLookup k.port stage
  let inPort := match tag.2 with
    | some e => ecidLport e
    | none => k.inPort
  let l4 := r.l4 stage
  let fv0 := fvHead 0 r.cls 0 (g.2.getD 0) k.qns l4 r.hot ++ r.fv.drop 32
  let d := s.decide' k.port { r with fv := fv0 }
  let pl := s.fragPlan k.well (r.frag stage cfg.fragVrf) d l4
  let flags := r.flags + tag.1 + r.ptpEvent stage + pl.flags
  let s1 := s.updPkt p fun x => { x with
    inPort := inPort, cls := pl.dec.cls, hash := pl.dec.hash, pref := pl.dec.pref, parsed := true, walkGraph := none
    pop := match tag.2 with
      | some e => e.getLsbD 40
      | none => false
    fv := fvTake fv0 flags pl.dec.cls pl.dec.hash pl.l4
    learn := if cfg.learn then r.learn stage flags inPort cfg.defaultBd else none }
  let s2 := (s1.intakeCnt inPort (walkCount r.flags pl)).storeBytes p
  if pl.full then s2.refuseFrame p 7 else s2.parsed p k.well pl

/-- PARSE_COMPLETE: the walk of the port's oldest walking frame completes (R129). A frame refused meanwhile gets no
sequence number. -/
def execParseComplete (port : Nat) (s : State) : Out :=
  match (s.port port).parseQ.dropWhile fun p => (s.pkt p).refusal.isSome && (s.pkt p).st = .intake with
  | [] => done s
  | p :: rest =>
    if (s.pkt p).st ≠ .walking ∨ (s.well (s.pkt p).well).parserReset then done s
    else
      let s1 := s.updPort port fun x => { x with parseQ := rest }
      if (s.pkt p).refusal.isSome then done (s1.updPkt p fun x => { x with st := .finished })
      else if (s.pkt p).head.isNone then done s
      else done (s1.walkDone p)

/-- FRAG_ENTRY_EXPIRY: 30 ms after its creation an entry is freed (R140). -/
def execFragEntryExpiry (well entry : Nat) (s : State) : Out :=
  match (s.well well).frags.find? fun e => e.1 = entry with
  | some e =>
    if s.dt < e.2.born + 30000000 then done s
    else done (s.updWell well fun w => { w with frags := w.frags.filter fun x => x.1 ≠ entry })
  | none => done s

/-- FRAG_HOLD_TIMEOUT: the oldest held fragment whose hold time has expired at a 10 µs tick ends with FRAG_TIMEOUT (R142). -/
def execFragHoldTimeout (well : Nat) (s : State) : Out :=
  let w := s.well well
  match w.held.find? fun e => (s.pkt e.1).accepted && decide (e.2.2 + 1000 * w.holdTimeUs ≤ s.dt / 10000 * 10000) with
  | none => done s
  | some e =>
    let k := s.pkt e.1
    let s1 := s.updWell well fun w => { w with held := w.held.filter fun x => x.1 ≠ e.1 }
    let s2 := s1.dispose e.1 8 0
    let s3 := match k.head with
      | some h => s2.freeBuf h
      | none => s2
    done ((s3.updPkt e.1 fun x => { x with st := .finished }).updDom k.domain fun d => d.void k.seq s.dt).fenceCheck

/-! ### Sluices (R122-R124) and the parser reset (R146) -/

/-- QUIESCE_STATE with the DT of the edge at the ball. -/
def State.quiesceEvent (s : State) (level : Nat) : State := s.event 0x0102 [(1, level), (8, s.dt - 100)]

/-- QUIESCE_FALL (R124). -/
def execQuiesceFall (s : State) : Out :=
  if s.net.quiesce then done s else done ((s.updNet fun n => { n with quiesce := true }).quiesceEvent 0)

/-- QUIESCE_RISE (R124). -/
def execQuiesceRise (s : State) : Out :=
  if !s.net.quiesce then done s else done ((s.updNet fun n => { n with quiesce := false }).quiesceEvent 1)

/-- The ports that a well and lane mask name: 0xFFFF names the whole well (R499). A bit of a lane that starts no port names none
(log 160). -/
def State.maskPorts (s : State) (well : Nat) (mask : BitVec 16) : List Nat :=
  (List.range 16).filterMap fun k =>
    if mask.getLsbD k && (mask = 0xFFFF || (s.port (16 * well + k)).lanes ≠ 0) then some (16 * well + k) else none

/-- Set or remove the DCI sluice of ports (R123). -/
def sluiceBody (well : Nat) (mask : BitVec 16) (on : Bool) (s : State) : State × Ans :=
  if 8 ≤ well then (s, badArg)
  else ((s.maskPorts well mask).foldl (fun acc p => acc.updPort p fun x => { x with dciSluice := on }) s, .ok)

def execSluice (c : CmdRef) (well : Nat) (mask : BitVec 16) (s : State) : Out :=
  s.command c 0x020C [(1, well), (2, mask.toNat)] (sluiceBody well mask true)
def execUnsluice (c : CmdRef) (well : Nat) (mask : BitVec 16) (s : State) : Out :=
  s.command c 0x020D [(1, well), (2, mask.toNat)] (sluiceBody well mask false)

/-- A parser reset begins: walks that had not completed will start again (R146). -/
def State.parserResetStart (s : State) (well : Nat) : State :=
  let s1 := s.updWell well fun w => { w with parserReset := true }
  s1.updOrder fun o => { o with pkts := o.pkts.map fun e =>
    (e.1, if e.2.well = well ∧ e.2.st = .walking then { e.2 with st := .intake, walkGraph := none } else e.2) }

/-! ### The graph's commands (R133, R134) -/

/-- The payload of a record of PARSE_GRAPH_LOAD. -/
def graphFields (r : Sys2Proof.GraphRec) : List (Nat × Nat) :=
  match r with
  | .state i e => [(1, 0), (2, i), (8, e.toNat)]
  | .tcam i e => [(1, 1), (2, i), (16, e.toNat)]
  | .extract i ops => [(1, 2), (2, i), (4, 0)] ++ ops.flatMap fun o => [(1, o.1), (1, o.2.1), (1, o.2.2), (1, 0)]

/-- A record that may be loaded: its index exists, and an entry that can take part in a walk is legal (R133). -/
def graphRecOk (r : Sys2Proof.GraphRec) : Bool :=
  match r with
  | .state i e => i < 256 && (!e.getLsbD 20 || (fld e 16 4 ≤ 7 && fld e 21 43 = 0))
  | .tcam i e => i < 16384 && (!e.getLsbD 122 || (tfld e 123 5 = 0 &&
      (if e.getLsbD 73 then tfld e 88 3 + tfld e 91 3 ≤ 7 else tfld e 74 8 ≠ 0)))
  | .extract i ops => i < 1024 && ops.length = 8 &&
      (ops.takeWhile fun o => o.2.1 ≠ 0).all fun o => o.2.1 ≤ 16 && 32 ≤ o.2.2 && o.2.2 + o.2.1 ≤ 128

def Graph.put (g : Graph) (r : Sys2Proof.GraphRec) : Graph :=
  match r with
  | .state i e => { g with states := SMap.set 0 g.states i e }
  | .tcam i e => { g with tcam := SMap.set 0 g.tcam i e }
  | .extract i ops => { g with extract := SMap.set [] g.extract i ops }

/-- PARSE_GRAPH_LOAD. -/
def parseGraphLoadBody (recs : List Sys2Proof.GraphRec) (s : State) : State × Ans :=
  if s.net.committing.isSome then (s, busy)
  else if !recs.all graphRecOk then (s, badArg)
  else (s.updNet fun n => { n with shadow := recs.foldl Graph.put n.shadow }, .ok)

def execParseGraphLoad (c : CmdRef) (recs : List GraphRec) (s : State) : Out :=
  s.command c 0x020E (recs.flatMap graphFields) (parseGraphLoadBody recs)

/-- PARSE_GRAPH_COMMIT: the wells switch at their next walk starts or after 2 µs; the version of the active graph changes
nothing. A re-run finds its own commit in progress. -/
def parseGraphCommitBody (c : CmdRef) (version : Nat) (s : State) : State × Ans :=
  match s.net.committing with
  | some g => if g.c = c then (s, .later) else (s, busy)
  | none =>
    if (s.well 0).graphVer = some version then (s, .ok)
    else
      let s1 := s.updNet fun n => { n with committing := some ⟨c, version, s.dt, n.shadow, (s.well 0).graph⟩ }
      ((List.range 8).foldl (fun acc w => acc.updWell w fun x => { x with switchPending := true }) s1, .later)

def execParseGraphCommit (c : CmdRef) (version : Nat) (s : State) : Out :=
  s.command c 0x020F [(2, version)] (parseGraphCommitBody c version)

/-! ### Hash and indirection (R135, R137) -/

/-- HASH_PROFILE_SET. -/
def hashProfileBody (profile : Nat) (x : HashProfile) (s : State) : State × Ans :=
  let n := (selectBytes x.input (List.replicate 128 0)).length
  if 255 < profile ∨ 2 < x.alg ∨ 15 < x.keySel ∨ 2 < x.mode ∨ 63 < x.table ∨ 65535 < x.fixedDomain
      ∨ x.input.extractLsb' 0 16 ≠ 0 ∨ (x.alg = 2 ∧ 64 < n) ∨ (x.alg = 1 ∧ 60 < n) then (s, badArg)
  else (s.updNet fun k => { k with profiles := SMap.set {} k.profiles profile x }, .ok)

def execHashProfileSet (c : CmdRef) (profile alg keySel mode table fixedDomain : Nat) (input : BitVec 128) (s : State) : Out :=
  s.command c 0x0210 [(1, profile), (1, alg), (1, keySel), (1, mode), (1, table), (2, fixedDomain), (16, input.toNat)]
    (hashProfileBody profile ⟨alg, keySel, input, mode, table, fixedDomain⟩)

/-- HASH_KEY_SET. -/
def hashKeyBody (key : Nat) (bytes : List Byte) (s : State) : State × Ans :=
  if 15 < key ∨ bytes.length ≠ 64 then (s, badArg)
  else (s.updNet fun n => { n with hashKeys := SMap.set [] n.hashKeys key bytes }, .ok)

def execHashKeySet (c : CmdRef) (key : Nat) (bytes : List Byte) (s : State) : Out :=
  s.command c 0x0211 [(1, key), bytesField 64 bytes] (hashKeyBody key bytes)

/-- An indirection entry may be written (R137). -/
def indirOk (e : W32) : Bool :=
  e.toNat % 65536 + 2 ^ (e.toNat / 65536 % 16) ≤ 65536 && e.toNat / 1048576 % 16 ≤ 12 && e.toNat / 16777216 = 0

/-- INDIRECTION_SET. -/
def indirectionBody (table first : Nat) (es : List W32) (s : State) : State × Ans :=
  if 63 < table ∨ es.isEmpty ∨ 512 < first + es.length ∨ !es.all indirOk then (s, badArg)
  else (s.updNet fun n => { n with indirection := ((List.range es.length).zip es).foldl (fun m e =>
    SMap.set 0 m (table * 512 + first + e.1) e.2) n.indirection }, .ok)

def execIndirectionSet (c : CmdRef) (table first : Nat) (entries : List W32) (s : State) : Out :=
  s.command c 0x0212 ([(1, table), (2, first), (2, entries.length), (2, 0)] ++ entries.map fun e => (4, e.toNat))
    (indirectionBody table first entries)

/-! ### INTAKE_STATS (R148) -/

/-- The counters in the order of R148. -/
def IntakeCnt.image (c : IntakeCnt) : List Byte :=
  layout ([(8, c.acceptedFrames.toNat), (8, c.acceptedBytes.toNat)]
    ++ ((List.range 8).map fun k => (8, (SMap.get 0 c.refused k).toNat))
    ++ [(8, c.poisonWords.toNat), (8, c.lateReplays.toNat), (8, c.parseShort.toNat), (8, c.parseDepth.toNat),
        (8, c.parseError.toNat), (8, c.fragUntracked.toNat), (8, c.fragDup.toNat), (8, c.learnDrop.toNat)])

def intakeStatsBody (port : Nat) (s : State) : State × Ans :=
  if 1023 < port then (s, badArg) else (s, .data (s.port port).intake.image)

def execIntakeStats (c : CmdRef) (port : Nat) (s : State) : Out := s.command c 0x0213 [(2, port)] (intakeStatsBody port)

/-! ### Host transmit (R505) -/

/-- Why a transmit descriptor is bad. -/
def badDesc (len mode target : Nat) : Bool :=
  1 < mode || len < 60 || 10236 < len || (if mode = 0 then 65535 < target else 1023 < target)

/-- A port that a host names is sluiced: a logical port counts with its well. -/
def State.hostSluiced (s : State) (target : Nat) : Bool :=
  if target < 128 then s.sluiced target
  else
    let w := s.well (target % 8)
    s.net.quiesce || s.net.shut || w.disabled || w.disabling.isSome || w.parserReset || w.reconfig

/-- A host's frame enters a well as an arriving frame on the named port; STATUS and REFUSAL. -/
def State.hostIngress (s : State) (f : HostFn) (target : Nat) (frame : List Byte) : State × Nat × Nat :=
  let r := s.newFrame target (if target < 128 then wellOf target else target % 8) (some f)
  if s.hostSluiced target then (r.1.refuse r.2 5, 4, 5)
  else
    let bytes := frame ++ fcs frame
    let cfg := (s.port target).cfg
    let s1 := (r.1.updPort target fun x => { x with parseQ := x.parseQ ++ [r.2] }).updPkt r.2 fun k => { k with
      bytes := bytes, ended := true, quotaClass := cfg.classOf bytes }
    if cfg.maxFrame < bytes.length then (s1.refuse r.2 2, 0, 0)
    else (((s1.requestCells r.2 (cellsDue bytes.length true)).tailCheck r.2), 0, 0)

/-- The copy a TO_QUEUE frame becomes: no edit list, no domain, no disposition. -/
def hostCopy (s : State) (f : HostFn) (tag queue h len : Nat) (ts : Bool) : Copy :=
  { handle := h, queue := queue, len := 0, ts := ts, mark := false, ct := false, txl := [], edit := [], ops := 0
    member := none, no := 0, inPort := 0, pkt := 0, domain := 0, seq := 0, finalLen := len, ingressDt := s.dt, qns := s.qns
    slots := 0, release := none, hostTx := some (f, tag) }

/-- Take a descriptor's frame: STATUS and REFUSAL. -/
def State.takeTx (s : State) (f : HostFn) (tag len mode : Nat) (ts : Bool) (target : Nat) (frame : List Byte) :
    State × Nat × Nat :=
  if badDesc len mode target then (s, 3, 0)
  else
    match s.allocCells 17 [entHost f] ((len + 4 + 255) / 256) [] with
    | (s1, none, .quota) => (s1, 2, 0)
    | (s1, none, _) => (s1, 1, 0)
    | (s1, some cells, _) =>
      let h := cells.headD 0
      let b : Buf := Buf.fresh 5 (if f = .hostA then 0 else 1) cells (frame ++ fcs frame) [entHost f]
      if mode = 0 then
        let c := hostCopy s f tag target h (len + 4) ts
        ((s1.setBuf h b).updPump (s.copyPump c) fun x => { x with arrivals := x.arrivals ++ [c] }, 0, 0)
      else ((s1.setBuf h b).freeBuf h).hostIngress f target frame

/-- PUNT_TX_FETCH: the next transmit descriptor is read, its frame taken, and STATUS, REFUSAL and DONE written (R505). -/
def execPuntTxFetch (fn : HostFn) (ring len mode : Nat) (ts : Bool) (target : Nat) (frame : List Byte) (s : State) : Out :=
  let r := s.puntRing fn true ring
  if !s.reach fn ∨ 64 ≤ ring ∨ !r.base.getLsbD 0 ∨ r.posted = 0 ∨ frame.length ≠ len then done s
  else
    let slot := r.head.toNat % r.entries
    let x := s.takeTx fn (ring * 65536 + slot) len mode ts target frame
    let at' := r.base.toNat / 32 * 32 + 32 * slot
    let s1 := (x.1.hostWrite fn (at' + 14) [BitVec.ofNat 8 x.2.1, BitVec.ofNat 8 x.2.2]).hostWrite fn (at' + 11)
      [BitVec.ofNat 8 (128 + ts.toNat)]
    let s2 := s1.updTx fn ring fun y => { y with
      head := BitVec.ofNat 16 ((slot + 1) % y.entries), done := y.done + 1
      dropped := if x.2.1 = 0 then y.dropped else y.dropped + 1 }
    done (s2.irq fn (128 + ring))

end Sys2Proof.Machine
end

