-- ==== Sys2Proof/Machine/Ports.lean ====
section
/-!
DEFINITION. Lanes and ports: modes and regions, link bring-up, hold-off, debounce and damping, flow control frames,
tests, the E-CID map, and the port commands (R75-R100, R108-R111, R113, R425, R554).
-/

namespace Sys2Proof.Machine

/-! ### Modes and regions (R78, R79, R81, R113) -/

def lanesOf (mode : Nat) : Nat := [1, 1, 1, 1, 2, 4, 8].getD mode 1
def minRegion (mode : Nat) : Nat := [2, 3, 6, 12, 24, 47, 94].getD mode 2
def defRegion (mode : Nat) : Nat := [2, 4, 8, 16, 32, 64, 128].getD mode 2

/-- The FEC choices of a mode (R78). -/
def fecOk (mode fec : Nat) : Bool := if mode = 0 then fec = 0 else if mode = 1 then fec ≤ 1 else fec = 2

/-- The ports of a well. -/
def State.wellPorts (s : State) (w : Nat) : List Nat :=
  ((List.range 16).map (16 * w + ·)).filter fun p => (s.port p).lanes ≠ 0

/-- Ports other than `p` whose lanes overlap `n` lanes from `p`. -/
def State.overlap (s : State) (p n : Nat) : List Nat :=
  (s.wellPorts (wellOf p)).filter fun q => q ≠ p && q < p + n && p < q + (s.port q).lanes

/-- The regions of a well, by lane, after a port takes a mode: what is in force, or the default of R113. -/
def State.regionsFor (s : State) (p mode : Nat) : SMap Nat :=
  let old := (s.well (wellOf p)).regions
  if (s.port p).lanes = lanesOf mode then
    if minRegion mode ≤ SMap.get 0 old (p % 16) then old else SMap.set 0 old (p % 16) (defRegion mode)
  else
    let kept := (s.overlap p (lanesOf mode)).foldl (fun m q => SMap.set 0 m (q % 16) 0) old
    SMap.set 0 kept (p % 16) (defRegion mode)

/-- KiB of all regions. -/
def regionSum (m : SMap Nat) : Nat := total (m.map (·.2))

/-- The change is a well reconfiguration (R81). -/
def State.reconfigures (s : State) (p mode : Nat) : Bool :=
  (s.port p).lanes ≠ lanesOf mode || s.regionsFor p mode ≠ (s.well (wellOf p)).regions

/-- No frame is in progress in a well's intake: the packet boundary of a reconfiguration. -/
def State.wellQuiet (s : State) (w : Nat) : Bool := (s.wellPorts w).all fun p => (s.port p).arriving.isEmpty

/-! ### Port events and going down (R98, R110, R376, R424) -/

/-- PORT_EVENT. -/
def State.portEvent (s : State) (subject type reason : Nat) (detail : List Byte) : State :=
  s.event 0x0200 [(2, subject), (1, type), (1, reason), (40, leVal (slice detail 0 40))]

/-- LINK_DOWN is reported: with FLUSH_ON_DOWN the L2 entries that name the port or one behind it go, and the policy timer
starts. -/
def State.reportDown (s : State) (p reason : Nat) : State :=
  let s1 := s.portEvent p 1 reason []
  let s2 := if s1.tables.flushOnDown then s1.l2FlushPort fun q => q = p || s1.physOf q = some p else s1
  if (s2.eport p).phase = .flush then s2 else s2.policyStart p

/-- Change a port's link state. -/
def State.updLink (s : State) (p : Nat) (f : LinkSt → LinkSt) : State := s.updPort p fun x => { x with link := f x.link }

/-- The link is gone: reception and transmission end at that point (R97, R98, R425). -/
def State.stopLink (s : State) (p : Nat) : State := (s.txAbort p).cutFrame p

/-- A transition to DOWN counts in the sliding window; at the threshold the port is suppressed (R100). -/
def State.flap (s : State) (p : Nat) : State :=
  let x := s.port p
  let w := x.cfg.flapWindowS * secNs
  let downs := s.dt :: (x.link.downs.filter fun d => s.dt < d + w)
  let s1 := s.updLink p fun l => { l with downs := downs }
  if x.cfg.flapThreshold ≠ 0 ∧ x.cfg.flapThreshold ≤ downs.length then
    (s1.updPort p fun y => { y with
      st := .suppressed
      link := { y.link with
        present := false, debounceDt := none, suppressEnd := some (s.dt + x.cfg.suppressS * secNs) } }).portEvent p 12 0 []
  else s1

/-- A port goes DOWN; one that was UP reports it, and the transition counts as a flap (R100). -/
def State.goDown (s : State) (p reason : Nat) : State :=
  let s1 := (s.stopLink p).updPort p fun x => { x with
    st := .down, link := { x.link with present := false, lossDt := none, debounceDt := none, trainRetry := none } }
  if (s.port p).st = .up then (s1.reportDown p reason).flap p else s1

/-- TEST ends, by command or aborted: a port that was SUPPRESSED is so again, until its time ends; any other is DOWN, for
bring-up to start (R109). -/
def State.endTest (s : State) (p : Nat) (aborted : Bool) : State :=
  if (s.port p).st = .test then
    ((s.stopLink p).updPort p fun x => { x with
      st := if x.link.suppressEnd.isSome then .suppressed else .down, testMode := 0, testPattern := 0 }).portEvent p 14 0
      [0, if aborted then 1 else 0]
  else s

/-- Link bring-up starts: negotiation and training where the port has them (R94, R95), in a well whose lanes have their
reference clock (R76). -/
def State.bringUp (s : State) (p : Nat) : State :=
  let x := s.port p
  let w := s.well (wellOf p)
  let train := x.cfg.an || (x.cfg.train && x.mode ≠ 0)
  if !x.enabled then s
  else s.updPort p fun y => { y with
    st := if train && w.refclk && !w.recal then .training else .down
    link := { y.link with
      present := false, lossDt := none, debounceDt := none, suppressEnd := none, trainFails := 0, trainRetry := none
      trained := !train, anDone := !x.cfg.an } }

/-! ### Mode changes (R81) -/

/-- The port is neither DISABLED nor SUPPRESSED: a change of its well or mode takes it DOWN. -/
def State.portOn (s : State) (p : Nat) : Bool := (s.port p).st ≠ .disabled && (s.port p).st ≠ .suppressed

/-- A test ends, aborted, and a port that is on goes DOWN. -/
def State.takeDown (s : State) (p reason : Nat) : State :=
  let s1 := s.endTest p true
  if s1.portOn p then s1.goDown p reason else s1

/-- A port takes a mode within its lanes: it alone goes DOWN and comes up again. A port that is DISABLED or SUPPRESSED
stays so. -/
def State.modeAlone (s : State) (p mode fec : Nat) : State :=
  let s1 := (s.takeDown p 5).updPort p fun x => { x with mode := mode, fec := fec }
  if s1.portOn p then s1.bringUp p else s1

/-- A number that no longer starts a port: settings and enable state go, its queues follow its down policy. -/
def State.dropPort (s : State) (q : Nat) : State :=
  let x := s.port q
  let s1 := s.setPort q { intake := x.intake, mac := x.mac, parseQ := x.parseQ, dciSluice := x.dciSluice }
  if (s1.eport q).phase = .none then s1.policyStart q else s1

/-- The well restarts with a new grouping or new regions: all its ports go DOWN, and those enabled come up again. -/
def State.restartWell (s : State) (w : Nat) (change : State → State) : State :=
  let down := (s.wellPorts w).foldl (fun acc p => acc.takeDown p 5) s
  let s1 := change down
  (s1.wellPorts w).foldl (fun acc p => if (acc.port p).st = .suppressed then acc else acc.bringUp p)
    (s1.updWell w fun x => { x with reconfig := false })

/-- A mode change that reconfigures its well. A port whose lanes the new one takes, in part or whole, ceases to be a port with
all its lanes (log 157). -/
def State.modeRegroup (s : State) (p mode fec : Nat) : State :=
  let gone := if (s.port p).lanes = lanesOf mode then [] else s.overlap p (lanesOf mode)
  let regs := s.regionsFor p mode
  s.restartWell (wellOf p) fun a =>
    let b := (gone.foldl State.dropPort a).updPort p fun x => { x with lanes := lanesOf mode, mode := mode, fec := fec }
    b.updWell (wellOf p) fun w => { w with regions := regs }

/-- A mode change: done, or waiting for the frames in progress of a well that is being reconfigured. -/
def State.modeChange (s : State) (p mode fec : Nat) : State × Bool :=
  if !s.reconfigures p mode then (s.modeAlone p mode fec, true)
  else if s.wellQuiet (wellOf p) then (s.modeRegroup p mode fec, true)
  else (s.updWell (wellOf p) fun w => { w with reconfig := true }, false)

/-- A well is disabled, or being disabled (R555). -/
def State.wellOff (s : State) (w : Nat) : Bool := (s.well w).disabled || (s.well w).disabling.isSome

/-- PORT_MODE_SET (R77-R79, R81). A change of polarity alone takes the port DOWN and up again as a change of mode does
(log 157). -/
def portModeSetBody (p mode fec : Nat) (tx rx : Byte) (s : State) : State × Ans :=
  let x := s.port p
  if 127 < p then (s, badArg)
  else if 2 < fec then (s, badArg)
  else if 6 < mode ∨ !fecOk mode fec then (s, unsupported)
  else if p % lanesOf mode ≠ 0 then (s, badArg)
  else if s.wellOff (wellOf p) then (s, wrongState)
  else if x.lanes = lanesOf mode ∧ x.mode = mode ∧ x.fec = fec ∧ x.txPol = tx ∧ x.rxPol = rx then (s, .ok)
  else if 256 < regionSum (s.regionsFor p mode) then (s, badArg)
  else
    let r := s.modeChange p mode fec
    if r.2 then (r.1.updPort p fun y => { y with txPol := tx, rxPol := rx }, .ok) else (r.1, .wait)

def execPortModeSet (c : CmdRef) (port mode fec : Nat) (txPol rxPol : Byte) (s : State) : Out :=
  s.command c 0x0200 [(2, port), (1, mode), (1, fec), (1, txPol.toNat), (1, rxPol.toNat)]
    (portModeSetBody port mode fec txPol rxPol)

/-! ### PORT_CONFIG, PORT_ENABLE, PORT_DISABLE -/

/-- The fields of PORT_CONFIG in their order. -/
def portConfigFields (a : Sys2Proof.PortConfigArgs) : List (Nat × Nat) :=
  [(2, a.maxFrame), (1, a.fcMode), (1, a.an), (1, a.ability.toNat), (1, a.cascade), (1, a.macctlPass), (2, a.standpipe),
   (1, a.startState), (2, a.defaultDomain), (2, a.fragVrf), (1, a.learn), (2, a.defaultBd), (4, a.classMap.toNat),
   (1, a.defaultClass), (2, a.holdoffMs), (2, a.debounceMs), (1, a.flapWindowS), (1, a.flapThreshold), (2, a.suppressS),
   (1, a.train)]

/-- Every value lies in its range (R83, R86, R94-R100, R120, R139, R145, R170). -/
def portConfigOk (a : Sys2Proof.PortConfigArgs) : Bool :=
  128 ≤ a.maxFrame && a.maxFrame ≤ 10240 && a.fcMode ≤ 2 && a.an ≤ 1 && a.ability.toNat ≤ 127 && a.cascade ≤ 1
    && a.macctlPass ≤ 1 && 64 ≤ a.standpipe && a.standpipe ≤ 1024 && a.standpipe % 8 = 0 && a.fragVrf ≤ 16383
    && a.learn ≤ 1 && a.defaultBd ≤ 4095 && a.classMap.toNat < 16777216 && a.defaultClass ≤ 7 && a.holdoffMs ≤ 1000
    && a.debounceMs ≤ 1000 && 1 ≤ a.flapWindowS && a.flapWindowS ≤ 60 && 1 ≤ a.suppressS && a.suppressS ≤ 3600
    && a.train ≤ 1

def fcModeOf (n : Nat) : FcMode := match n with
  | 0 => .none
  | 1 => .pause
  | _ => .pfc

def portCfgOf (a : Sys2Proof.PortConfigArgs) : PortCfg :=
  { maxFrame := a.maxFrame, fc := fcModeOf a.fcMode, an := a.an = 1, ability := a.ability, cascade := a.cascade = 1
    macctlPass := a.macctlPass = 1, standpipe := a.standpipe, startState := a.startState, defaultDomain := a.defaultDomain
    fragVrf := a.fragVrf, learn := a.learn = 1, defaultBd := a.defaultBd, classMap := a.classMap.setWidth 24
    defaultClass := a.defaultClass, holdoffMs := a.holdoffMs, debounceMs := a.debounceMs, flapWindowS := a.flapWindowS
    flapThreshold := a.flapThreshold, suppressS := a.suppressS, train := a.train = 1 }

/-- PORT_CONFIG (R82, R83). A change of AN or TRAIN shows at the port's next bring-up (log 157). -/
def portConfigBody (p : Nat) (a : Sys2Proof.PortConfigArgs) (s : State) : State × Ans :=
  if 127 < p ∨ !portConfigOk a then (s, badArg)
  else if (s.port p).lanes = 0 then (s, wrongState)
  else (s.updPort p fun x => { x with cfg := portCfgOf a }, .ok)

def execPortConfig (c : CmdRef) (port : Nat) (a : PortConfigArgs) (s : State) : Out :=
  s.command c 0x0201 ((2, port) :: portConfigFields a) (portConfigBody port a)

/-- Suppression ends: the window is cleared, bring-up restarts, FLAP_RELEASED (R100). -/
def State.unsuppress (s : State) (p : Nat) : State :=
  ((s.updLink p fun l => { l with downs := [], suppressEnd := none }).bringUp p).portEvent p 13 0 []

/-- PORT_ENABLE (R82, R100, R134, R555). -/
def portEnableBody (p : Nat) (s : State) : State × Ans :=
  let x := s.port p
  if 127 < p then (s, badArg)
  else if x.lanes = 0 ∨ (s.well (wellOf p)).graphVer.isNone ∨ s.wellOff (wellOf p) then (s, wrongState)
  else if x.st = .suppressed then (s.unsuppress p, .ok)
  else if x.enabled then (s, .ok)
  else ((s.updPort p fun y => { y with enabled := true, link := {} }).bringUp p, .ok)

def execPortEnable (c : CmdRef) (port : Nat) (s : State) : Out := s.command c 0x0202 [(2, port)] (portEnableBody port)

/-- PORT_DISABLE: the port is sluiced, and the command waits for PORT_DISABLE_COMPLETE (R554). -/
def portDisableBody (c : CmdRef) (p : Nat) (s : State) : State × Ans :=
  let x := s.port p
  if 127 < p then (s, badArg)
  else if x.lanes = 0 ∨ x.st = .disabled then (s, .ok)
  else (s.updPort p fun y => { y with disabling := some c }, .wait)

def execPortDisable (c : CmdRef) (port : Nat) (s : State) : Out :=
  s.command c 0x0203 [(2, port)] (portDisableBody c port)

/-- The lanes of a port are powered off: LINK_DOWN with reason DISABLE, and DISABLED (R554). -/
def State.portOff (s : State) (p : Nat) : State :=
  let s1 := ((s.endTest p true).stopLink p).updPort p fun x => { x with
    st := .disabled, enabled := false, disabling := none, link := {} }
  s1.reportDown p 4

/-- PORT_DISABLE_COMPLETE: the frame in progress has ended, or its time is over, and the port enters DISABLED (R554). -/
def execPortDisableComplete (port : Nat) (s : State) : Out :=
  match (s.port port).disabling with
  | none => done s
  | some c => done ((s.portOff port).finish c 0 0 [] [])

/-! ### Link changes (R98-R100) -/

/-- LINK_DOWN's reason codes. -/
def LossKind.code (k : Sys2Proof.LossKind) : Nat := match k with
  | .lock => 0
  | .fault => 1
  | .module => 3

/-- A link that is there is lost: hold-off starts for a port that is UP, a running debounce ends (R98). -/
def State.loseLink (s : State) (p reason : Nat) : State :=
  let x := s.port p
  let s1 := if x.st = .up ∧ x.link.lossDt.isNone then
      (s.stopLink p).updLink p fun l => { l with lossDt := some s.dt, lossReason := reason }
    else s.stopLink p
  s1.updLink p fun l => { l with present := false, debounceDt := none }

/-- LINK_LOSS (R97, R98). -/
def execLinkLoss (port : Nat) (kind : LossKind) (s : State) : Out :=
  if (s.port port).link.present then done (s.loseLink port (LossKind.code kind)) else done s

/-- LINK_RETURN: an enabled port's link comes back, and its debounce starts (R98, R99); none does while the boundary
register drives the pins, which loses every link (R573). -/
def execLinkReturn (port : Nat) (s : State) : Out :=
  let x := s.port port
  let w := s.well (wellOf port)
  if x.lanes = 0 ∨ !x.enabled ∨ x.link.present ∨ !x.link.trained ∨ !w.refclk ∨ w.recal ∨ s.trust.jtag.pins
      ∨ (x.st ≠ .up ∧ x.st ≠ .down) then done s
  else done (s.updLink port fun l => { l with present := true, debounceDt := some s.dt })

/-- LINK_HOLDOFF_EXPIRY: the port goes DOWN and reports it; a debounce that runs goes on (R98). -/
def execLinkHoldoffExpiry (port : Nat) (s : State) : Out :=
  let x := s.port port
  match x.link.lossDt with
  | none => done s
  | some d =>
    if s.dt < d + 1000000 * x.cfg.holdoffMs then done s
    else
      let s1 := s.updPort port fun y => { y with st := .down, link := { y.link with lossDt := none } }
      done ((s1.reportDown port x.link.lossReason).flap port)

/-- LINK_DEBOUNCE_EXPIRY: a link that has stayed up ends a hold-off silently, or takes the port UP (R98, R99). -/
def execLinkDebounceExpiry (port : Nat) (s : State) : Out :=
  let x := s.port port
  match x.link.debounceDt with
  | none => done s
  | some d =>
    if s.dt < d + 1000000 * x.cfg.debounceMs then done s
    else
      let s1 := s.updLink port fun l => { l with debounceDt := none, lossDt := none }
      if x.st = .up then done s1
      else done (((s1.updPort port fun y => { y with st := .up }).portEvent port 0 0 []).policyEnd port)

/-- FLAP_SUPPRESS_EXPIRY (R100). -/
def execFlapSuppressExpiry (port : Nat) (s : State) : Out :=
  match (s.port port).link.suppressEnd with
  | some d => if (s.port port).st ≠ .suppressed ∨ s.dt < d then done s else done (s.unsuppress port)
  | none => done s

/-! ### Negotiation and training (R94, R95) -/

/-- The mode Clause 73 resolves: the highest common one of the port's lane count. -/
def resolveMode (lanes : Nat) (mine theirs : BitVec 8) : Option Nat :=
  [6, 5, 4, 3, 2, 1, 0].find? fun m => lanesOf m = lanes && mine.getLsbD m && theirs.getLsbD m

def resolveFec (mode : Nat) (rsfec : Bool) : Nat := if mode = 0 then 0 else if mode = 1 then rsfec.toNat else 2

/-- The port takes the resolved mode and goes on to training. -/
def State.negotiated (s : State) (p mode fec : Nat) : State :=
  let s1 := if s.reconfigures p mode then s.modeRegroup p mode fec else s.updPort p fun x => { x with mode := mode, fec := fec }
  (s1.updPort p fun x => { x with st := .training, link := { x.link with anDone := true, trained := false } }).portEvent p 2 0
    [BitVec.ofNat 8 mode, BitVec.ofNat 8 fec]

/-- AN_COMPLETE: the port takes the resolved mode, subject to R81: where that reconfigures the well while frames are in
progress, the well is sluiced, and the resolution, when it comes again at the packet boundary, changes it. A mode whose region
would not fit, or a partner without a common mode, leaves the port negotiating (log 45). -/
def execAnComplete (port : Nat) (partner : Partner) (s : State) : Out :=
  let x := s.port port
  if x.st ≠ .training ∨ x.link.anDone then done s
  else match resolveMode x.lanes x.cfg.ability partner.modes with
    | none => done s
    | some m =>
      if 256 < regionSum (s.regionsFor port m) then done s
      else if s.reconfigures port m ∧ !s.wellQuiet (wellOf port) then
        done (s.updWell (wellOf port) fun w => { w with reconfig := true })
      else done (s.negotiated port m (resolveFec m partner.rsfec))

/-- TRAINING_DONE (R95). -/
def execTrainingDone (port : Nat) (s : State) : Out :=
  let x := s.port port
  if x.st ≠ .training ∨ !x.link.anDone then done s
  else done (s.updPort port fun y => { y with st := .down, link := { y.link with trained := true, trainFails := 0 } })

/-- TRAINING_TIMEOUT: the eighth consecutive failure is reported; from then on a retry comes every second (R95). -/
def execTrainingTimeout (port : Nat) (s : State) : Out :=
  let x := s.port port
  if x.st ≠ .training ∨ !x.link.anDone then done s
  else
    let n := x.link.trainFails + 1
    if n < 8 then done (s.updLink port fun l => { l with trainFails := n })
    else
      let s1 := s.updPort port fun y => { y with
        st := .down, link := { y.link with trainFails := n, trainRetry := some (s.dt + secNs) } }
      done (if n = 8 then s1.portEvent port 3 0 [] else s1)

/-- TRAINING_RETRY, in a well whose lanes have their clock (R76, R95). -/
def execTrainingRetry (port : Nat) (s : State) : Out :=
  match (s.port port).link.trainRetry with
  | some d =>
    let w := s.well (wellOf port)
    if s.dt < d ∨ (s.port port).st ≠ .down ∨ !w.refclk ∨ w.recal then done s
    else done (s.updPort port fun y => { y with st := .training, link := { y.link with trainRetry := none } })
  | none => done s

/-! ### The reference clock (R76, R588) -/

/-- REFCLK_LOSS: every port of the well goes DOWN; for W0 the local time base switches. -/
def execRefclkLoss (well : Nat) (s : State) : Out :=
  if 8 ≤ well ∨ !(s.well well).refclk then done s
  else
    let s1 := s.updWell well fun w => { w with refclk := false, recal := false }
    let s2 := (s1.wellPorts well).foldl (fun acc p => acc.takeDown p 2) s1
    done (s2.baseLost well)

/-- REFCLK_RETURN: the lanes recalibrate before bring-up. -/
def execRefclkReturn (well : Nat) (s : State) : Out :=
  if 8 ≤ well ∨ (s.well well).refclk then done s
  else
    let s1 := s.updWell well fun w => { w with refclk := true, recal := true }
    done (if well = 0 then s1.baseBack else s1)

/-- LANE_RECAL_DONE: link bring-up restarts. -/
def execLaneRecalDone (well : Nat) (s : State) : Out :=
  if !(s.well well).recal then done s
  else
    let s1 := s.updWell well fun w => { w with recal := false }
    done ((s1.wellPorts well).foldl (fun acc p => if (acc.port p).st = .down then acc.bringUp p else acc) s1)

/-! ### MAC control frames (R87) -/

/-- MAC_CONTROL_RX: `bytes` is the frame with its FCS. -/
def execMacControlRx (port : Nat) (bytes : List Byte) (rxerr : Bool) (s : State) : Out :=
  if !s.receives port ∨ !isMacControl bytes ∨ (s.inProgress port).isSome then done s
  else done (s.macControl port bytes rxerr)

/-! ### Tests (R108, R109) -/

/-- A PRBS pattern suits the port's modulation. -/
def patternOk (mode pattern : Nat) : Bool := if mode ≤ 1 then pattern ≤ 5 else 6 ≤ pattern

/-- The port leaves TEST for its former state, through link bring-up (R109). -/
def State.leaveTest (s : State) (p : Nat) (aborted : Bool) : State :=
  let s1 := s.endTest p aborted
  if s1.portOn p then s1.bringUp p else s1

/-- PORT_TEST (R82, R108, R109). A test leaves the suppression of a SUPPRESSED port as it is; leaving TEST gives that state
back. -/
def portTestBody (p mode pattern : Nat) (s : State) : State × Ans :=
  let x := s.port p
  if 127 < p ∨ 4 < mode ∨ 7 < pattern then (s, badArg)
  else if x.lanes = 0 then (s, wrongState)
  else if mode = 0 then ((if x.st = .test then s.leaveTest p false else s), .ok)
  else if mode = 1 ∧ !patternOk x.mode pattern then (s, badArg)
  else if !x.enabled then (s, wrongState)
  else if x.st = .test ∧ x.testMode = mode ∧ x.testPattern = pattern then (s, .ok)
  else
    let s1 := (s.stopLink p).updPort p fun y => { y with
      st := .test, testMode := mode, testPattern := pattern
      link := { y.link with present := false, lossDt := none, debounceDt := none, trainRetry := none }
      mac := { y.mac with prbsErrors := [], prbsLock := [] } }
    (s1.portEvent p 14 0 [1, 0], .ok)

def execPortTest (c : CmdRef) (port mode pattern : Nat) (s : State) : Out :=
  s.command c 0x0204 [(2, port), (1, mode), (1, pattern)] (portTestBody port mode pattern)

/-! ### PORT_STATUS and ECID_MAP_SET -/

def PortState.code (x : PortState) : Nat := match x with
  | .disabled => 0
  | .down => 1
  | .training => 2
  | .up => 3
  | .suppressed => 4
  | .test => 5

/-- The result of PORT_STATUS: state, mode, FEC, lanes, then the counters (log 26). -/
def portStatusImage (x : Port) : List Byte :=
  let m := x.mac
  layout ([(1, x.st.code), (1, x.mode), (1, x.fec), (1, x.lanes), (8, m.fecCorrected.toNat), (8, m.fecUncorrectable.toNat)]
    ++ ((List.range 16).map fun k => (8, (SMap.get 0 m.fecHist k).toNat))
    ++ [(8, m.pauseRx.toNat), (8, m.pfcRx.toNat), (8, m.unknownRx.toNat), (8, m.ctrlErr.toNat), (8, m.rxWhileDown.toNat),
        (8, m.stomps.toNat)]
    ++ (List.range 8).map fun k => (8, (SMap.get 0 m.prbsErrors k).toNat + 2 ^ 63 * (SMap.get false m.prbsLock k).toNat))

def portStatusBody (p : Nat) (s : State) : State × Ans :=
  if 127 < p then (s, badArg) else (s, .data (portStatusImage (s.port p)))

def execPortStatus (c : CmdRef) (port : Nat) (s : State) : Out := s.command c 0x0205 [(2, port)] (portStatusBody port)

/-- Two entries may stand in the map together (R92). -/
def ecidApart (a b : W64) : Bool :=
  !ecidValid a || !ecidValid b ||
    (ecidLport a ≠ ecidLport b && !(ecidCascade a = ecidCascade b && ecidEcid a = ecidEcid b))

/-- ECID_MAP_SET (R91, R92): only entries in use may not share a key or a logical port; the ports of every entry are
checked. -/
def ecidBody (index : Nat) (e : W64) (s : State) : State × Ans :=
  if 895 < index ∨ fld e 28 2 ≠ 0 ∨ fld e 45 19 ≠ 0 then (s, badArg)
  else if ecidLport e < 128 ∨ (s.port (ecidCascade e)).lanes = 0
      ∨ s.net.ecid.any fun x => x.1 ≠ index && !ecidApart e x.2 then (s, badArg)
  else (s.updNet fun n => { n with ecid := SMap.set 0 n.ecid index e }, .ok)

def execEcidMapSet (c : CmdRef) (index : Nat) (entry : W64) (s : State) : Out :=
  s.command c 0x020A [(2, index), (8, entry.toNat)] (ecidBody index entry)

/-! ### WELL_CONFIG (R113, R142) -/

/-- The regions that WELL_CONFIG asks for, by lane: 0 is the default of the port's speed. A region asked for a lane that starts
no port is ignored (log 160). -/
def State.askedRegions (s : State) (w : Nat) (kib : List Nat) : SMap Nat :=
  (s.wellPorts w).foldl (fun m p =>
    let v := kib.getD (p % 16) 0
    SMap.set 0 m (p % 16) (if v = 0 then defRegion (s.port p).mode else v)) []

/-- WELL_CONFIG: a change of a region is a well reconfiguration, which waits for the frames in progress (R81, R113). -/
def wellConfigBody (w hold us : Nat) (kib : List Nat) (s : State) : State × Ans :=
  let regs := s.askedRegions w kib
  if 7 < w ∨ (us ≠ 0 ∧ (us < 100 ∨ 20000 < us)) ∨ 256 < regionSum regs
      ∨ (s.wellPorts w).any (fun p => SMap.get 0 regs (p % 16) < minRegion (s.port p).mode) then (s, badArg)
  else
    let set := fun (x : State) => x.updWell w fun y => { y with
      holdDomain := some hold, holdTimeUs := if us = 0 then 2000 else us, regions := regs }
    if regs = (s.well w).regions then (set s, .ok)
    else if s.wellQuiet w then (s.restartWell w set, .ok)
    else (s.updWell w fun y => { y with reconfig := true }, .wait)

def execWellConfig (c : CmdRef) (well holdDomain holdTimeUs : Nat) (regionKib : List Nat) (s : State) : Out :=
  s.command c 0x020B ([(1, well), (2, holdDomain), (2, holdTimeUs)] ++ regionKib.map fun v => (2, v))
    (wellConfigBody well holdDomain holdTimeUs regionKib)

end Sys2Proof.Machine
end

