-- ==== Sys2Proof/Machine/Modules.lean ====
section
/-!
DEFINITION. Pluggable modules: the shift chain, discovery, flags, management buses, automatic configuration and the
module commands (R101-R107, R590, R591); and disabling a well (R555).
-/

namespace Sys2Proof.Machine

/-! ### Cages and buses -/

def State.cage (s : State) (k : Nat) : Cage := SMap.get {} s.net.cages k
def State.updCage (s : State) (k : Nat) (f : Cage → Cage) : State :=
  s.updNet fun n => { n with cages := SMap.set {} n.cages k (f (SMap.get {} n.cages k)) }
def State.updBus (s : State) (b : Nat) (f : Bus → Bus) : State :=
  s.updNet fun n => { n with buses := SMap.set {} n.buses b (f (SMap.get {} n.buses b)) }

/-- PORT_EVENT for a cage slot. -/
def State.cageEvent (s : State) (k type : Nat) (detail : List Byte) : State := s.portEvent (0x8000 + k) type 0 detail

/-- The used cages of a bus. -/
def State.busCages (s : State) (b : Nat) : List Nat :=
  (List.range 64).filter fun k => (s.cage k).mapped && (s.cage k).bus = b

def Cage.present (g : Cage) : Bool := !g.inputs.getLsbD 0

/-- A module that has passed its debounce and has not been taken out. -/
def Cage.found (g : Cage) : Bool := g.phase ≠ .absent && g.phase ≠ .debounceIn

/-- The Pumphouse addresses one cage of a shared bus: its MODSEL_N alone is low (R102). -/
def State.busSelect (s : State) (k : Nat) : State :=
  (s.busCages (s.cage k).bus).foldl (fun acc j =>
    if (acc.cage j).hasModsel then acc.updCage j fun g => { g with modselN := j ≠ k } else acc) s

/-- The speed of a bus: 1 MHz when every module on it has advertised that (R590). -/
def State.busSpeed (s : State) (b : Nat) : State :=
  let ok := (s.busCages b).all fun k =>
    !(s.cage k).found || (match (s.cage k).pages with
      | some p => p.fast
      | none => false)
  s.updBus b fun x => { x with fast := ok }

/-- A module is held in reset and reported as MODULE_FAULT (R103). -/
def State.cageFault (s : State) (k : Nat) : State :=
  (s.updCage k fun g => { g with resetN := false, lpmode := true, phase := .fault, changeDt := none, intSeen := false }).cageEvent k 8 []

/-! ### The shift chain (R101, R591) -/

/-- The output bits of a cage slot. -/
def Cage.outs (g : Cage) : Nat := g.resetN.toNat + 2 * g.lpmode.toNat + 4 * g.modselN.toNat + 8 * g.spareOut.toNat

/-- The 256 output bits. -/
def State.chainOuts (s : State) : BitVec 256 :=
  BitVec.ofNat 256 (total ((List.range 64).map fun k => (s.cage k).outs * 16 ^ k))

/-- A used cage's inputs as a scan shows them: presence changes start or end a debounce, a fall of INT_N is noted. -/
def Cage.sees (g : Cage) (dt : Nat) (v : BitVec 4) : Cage :=
  let here := !v.getLsbD 0
  let fell := g.inputs.getLsbD 1 && !v.getLsbD 1
  let g1 := { g with
    inputs := v
    intSeen := (g.intSeen || fell) && here && g.found && g.phase ≠ .fault && g.phase ≠ .unsupported }
  if !g.mapped then g1
  else if g.phase = .absent then if here then { g1 with phase := .debounceIn, changeDt := some dt } else g1
  else if g.phase = .debounceIn then if here then g1 else { g1 with phase := .absent, changeDt := none }
  else if here then { g1 with changeDt := none }
  else { g1 with changeDt := some (g.changeDt.getD dt) }

/-- MODULE_SCAN: `inputs` are the levels at the cages while MSC_LOAD is high; the scan shifts in what the load before it
captured (R591). -/
def execModuleScan (inputs : BitVec 256) (s : State) : Out :=
  if !s.phRuns then done s
  else
    let seen := match s.net.captured with
      | some v => (List.range 64).foldl (fun (acc : State) k =>
          acc.updCage k fun g => g.sees s.dt ((v >>> (4 * k)).setWidth 4)) s
      | none => s
    done (seen.updNet fun n => { n with captured := some inputs, latched := s.chainOuts, chainValid := true })

/-! ### Discovery (R103-R105) -/

def debounceNs : Nat := 10000000

/-- A module has been taken out: its ports lose link, a test of one ends aborted, and only the removal is reported (R105,
R109). -/
def State.cageRemoved (s : State) (k : Nat) : State :=
  let g := s.cage k
  let ports := ((List.range g.lanes).map (g.firstLane + ·)).filter fun p => (s.port p).lanes ≠ 0
  let s1 := ports.foldl (fun acc p =>
    if (acc.port p).st = .test then acc.leaveTest p true
    else if (acc.port p).link.present then acc.loseLink p 3 else acc) s
  ((s1.updCage k fun g => { g with
    phase := .absent, changeDt := none, resetN := false, lpmode := true, intSeen := false, ident := 0, pages := none
    selected := none }).busSpeed g.bus).cageEvent k 5 []

/-- RESET_N is released, and polling of the identifier begins (R103). -/
def State.cageRelease (s : State) (k : Nat) : State :=
  (s.updCage k fun g => { g with
    phase := .idPoll, changeDt := none, resetN := true, lpmode := true, releaseDt := s.dt, pollDt := s.dt }).updBus (s.cage k).bus
      fun b => { b with fast := false }

/-- PRESENCE_DEBOUNCE_END (R103, R105). -/
def execPresenceDebounceEnd (slot : Nat) (s : State) : Out :=
  match (s.cage slot).changeDt with
  | none => done s
  | some d =>
    if !s.phRuns ∨ s.dt < d + debounceNs then done s
    else if (s.cage slot).phase = .debounceIn then done (s.cageRelease slot)
    else done (s.cageRemoved slot)

/-- A poll of discovery is due: 10 ms after the last, within 2 s of the release (R103). -/
def State.pollDue (s : State) (k : Nat) (ph : ModPhase) : Bool :=
  let g := s.cage k
  s.phRuns && g.phase = ph && g.pollDt + debounceNs ≤ s.dt && s.dt ≤ g.releaseDt + 2 * secNs

/-- MODULE_ID_POLL: no answer yet, a CMIS module, or one that is not (R103, R104). -/
def execModuleIdPoll (slot : Nat) (answer : Option Byte) (cmis : Bool) (s : State) : Out :=
  if !s.pollDue slot .idPoll then done s
  else
    let s1 := (s.busSelect slot).updCage slot fun g => { g with pollDt := s.dt }
    match answer with
    | none => done s1
    | some b =>
      if cmis then done (s1.updCage slot fun g => { g with ident := b, phase := .lowPower })
      else done ((s1.updCage slot fun g => { g with ident := b, phase := .unsupported, lpmode := false }).cageEvent slot 9 [b])

/-- MODULE_LOWPWR_POLL (R103). -/
def execModuleLowpwrPoll (slot : Nat) (low : Bool) (s : State) : Out :=
  if !s.pollDue slot .lowPower then done s
  else done ((s.busSelect slot).updCage slot fun g => { g with
    pollDt := s.dt, phase := if low then .pages else .lowPower })

/-- The pages are read: the bus speed, MODULE_INSERTED, and the power class (R103). -/
def State.cagePages (s : State) (k : Nat) (pages : Sys2Proof.ModPages) : State :=
  let s1 := (s.busSelect k).updCage k fun g => { g with pages := some pages }
  let s2 := (s1.busSpeed (s.cage k).bus).cageEvent k 4
    [(s.cage k).ident, pages.rev, BitVec.ofNat 8 pages.powerClass]
  if pages.powerClass ≤ (s.cage k).powerClass then s2.updCage k fun g => { g with phase := .powerUp, lpmode := false }
  else (s2.updCage k fun g => { g with phase := .powerDenied }).cageEvent k 7 []

/-- MODULE_PAGES_READ (R103). -/
def execModulePagesRead (slot : Nat) (pages : ModPages) (s : State) : Out :=
  if !s.phRuns ∨ (s.cage slot).phase ≠ .pages then done s else done (s.cagePages slot pages)

/-! ### Automatic configuration (R106) -/

/-- The ports an application makes on a cage's lanes. -/
def Cage.appPorts (g : Cage) (mode : Nat) : List Nat :=
  (List.range (g.lanes / lanesOf mode)).map fun k => g.firstLane + k * lanesOf mode

/-- The application can be used: an allowed mode, the grouping the lanes have, and no well reconfiguration. -/
def State.appFits (s : State) (g : Cage) (a : Sys2Proof.ModApp) : Bool :=
  decide (a.mode ≤ 6) && g.modeMask.getLsbD a.mode && g.lanes ≠ 0 && g.lanes % lanesOf a.mode = 0
    && (g.appPorts a.mode).all fun p =>
      (s.port p).lanes = lanesOf a.mode && !s.reconfigures p a.mode && !s.wellOff (wellOf p)

/-- The FEC an automatically configured port takes: its own where the mode allows it (log 47). -/
def autoFec (mode fec : Nat) : Nat := if fecOk mode fec then fec else if mode ≤ 1 then 0 else 2

/-- Set and enable one port of the chosen application. -/
def State.autoPort (s : State) (mode p : Nat) : State :=
  let x := s.port p
  let fec := autoFec mode x.fec
  let s1 := if x.mode = mode ∧ x.fec = fec then s else s.modeAlone p mode fec
  (portEnableBody p s1).1

/-- The Pumphouse writes the application selection: the chosen application's number to page 10h (CMIS). -/
def State.moduleWrite (s : State) (k bank page offset : Nat) (data : List Byte) : State :=
  { s.busSelect k with out := { s.out with modWrites := s.out.modWrites ++ [(k, bank, page, offset, data)] } }

/-- The bytes that select an application on a cage's lanes and run the CMIS data-path initialisation: the data paths are taken
down, each lane gets the application's number and its data path, the set is applied, and the data paths come up (page 10h;
PRESUMED, CMIS; log 47). -/
def State.dataPathInit (s : State) (k n mode : Nat) : State :=
  let g := s.cage k
  let lanes := BitVec.ofNat 8 (2 ^ Nat.min 8 g.lanes - 1)
  let app := (List.range g.lanes).map fun l => BitVec.ofNat 8 (16 * (n + 1) + 2 * (l / lanesOf mode * lanesOf mode))
  (((s.moduleWrite k 0 0x10 128 [lanes]).moduleWrite k 0 0x10 145 app).moduleWrite k 0 0x10 143 [lanes]).moduleWrite k 0 0x10
    128 [0]

/-- The module is ready: in AUTO mode the first application that fits is selected, and its ports are set and enabled. -/
def State.autoConfig (s : State) (k : Nat) : State :=
  let g := s.cage k
  let apps := match g.pages with
    | some p => p.apps
    | none => []
  match apps.findIdx? (s.appFits g) with
  | some n =>
    let mode := (apps.getD n ⟨0, 0⟩).mode
    let s1 := (s.dataPathInit k n mode).updCage k fun c => { c with selected := some n }
    ((g.appPorts mode).foldl (fun acc p => acc.autoPort mode p) s1).cageEvent k 10 []
  | none => s.cageEvent k 11 ((apps.take 8).flatMap fun a => leBytes 4 a.code.toNat)

/-- MODULE_READY (R103, R106). -/
def execModuleReady (slot : Nat) (s : State) : Out :=
  if !s.phRuns ∨ (s.cage slot).phase ≠ .powerUp then done s
  else
    let s1 := s.updCage slot fun g => { g with phase := .ready }
    done (if (s.cage slot).auto then s1.autoConfig slot else s1)

/-- MODULE_DISCOVERY_TIMEOUT: 2 s after the release while it still polls, at any point later in discovery (R103). -/
def execModuleDiscoveryTimeout (slot : Nat) (s : State) : Out :=
  let g := s.cage slot
  let polling := g.phase = .idPoll || g.phase = .lowPower
  if s.phRuns ∧ ((polling ∧ g.releaseDt + 2 * secNs < s.dt) ∨ g.phase = .pages ∨ g.phase = .powerUp) then
    done (s.cageFault slot)
  else done s

/-- MODULE_INT: the flag pages of a module whose INT_N fell are reported (R105). -/
def execModuleInt (slot : Nat) (flags : List Byte) (s : State) : Out :=
  if !s.phRuns ∨ !(s.cage slot).intSeen then done s
  else done (((s.busSelect slot).updCage slot fun g => { g with intSeen := false }).cageEvent slot 6 (flags.take 40))

/-- I2C_BUS_RECOVERY: the third recovery without release within 100 ms faults every module on the bus (R590). -/
def execI2cBusRecovery (bus : Nat) (released : Bool) (s : State) : Out :=
  let b := SMap.get {} s.net.buses bus
  let first := if b.stuck = 0 ∨ b.firstStuckDt + 100000000 < s.dt then s.dt else b.firstStuckDt
  let n := if b.stuck = 0 ∨ b.firstStuckDt + 100000000 < s.dt then 1 else b.stuck + 1
  if !s.phRuns ∨ 15 < bus then done s
  else if released then done (s.updBus bus fun x => { x with stuck := 0 })
  else if n < 3 then done (s.updBus bus fun x => { x with stuck := n, firstStuckDt := first })
  else
    let s1 := s.updBus bus fun x => { x with stuck := 0 }
    done (((s.busCages bus).filter fun k => (s.cage k).found && (s.cage k).phase ≠ .fault).foldl State.cageFault s1)

/-! ### Commands -/

/-- A bus may carry these cages: alone, or up to four that all have MODSEL_N (R102). -/
def State.busOk (s : State) (k bus : Nat) (modsel : Bool) : Bool :=
  let others := (s.busCages bus).filter (· ≠ k)
  others.isEmpty || (modsel && others.all (fun j => (s.cage j).hasModsel) && decide (others.length ≤ 3))

/-- MODULE_MAP (R102). -/
def moduleMapBody (k bus first lanes modsel : Nat) (s : State) : State × Ans :=
  if 63 < k ∨ 15 < bus ∨ 128 < first + lanes ∨ 1 < modsel ∨ !s.busOk k bus (modsel = 1) then (s, badArg)
  else
    let s1 := s.updCage k fun g => { g with
      mapped := true, bus := bus, firstLane := first, lanes := lanes, hasModsel := modsel = 1 }
    ((s1.busSpeed bus).busSpeed (s.cage k).bus, .ok)

def execModuleMap (c : CmdRef) (slot bus firstLane lanes hasModsel : Nat) (s : State) : Out :=
  s.command c 0x0206 [(1, slot), (1, bus), (1, firstLane), (1, lanes), (1, hasModsel)]
    (moduleMapBody slot bus firstLane lanes hasModsel)

/-- MODULE_POLICY (R106): a ready module whose cage enters AUTO mode is configured at once. -/
def modulePolicyBody (k mode : Nat) (mask : Byte) (cls : Nat) (s : State) : State × Ans :=
  if 63 < k ∨ 1 < mode ∨ 127 < mask.toNat then (s, badArg)
  else
    let s1 := s.updCage k fun g => { g with auto := mode = 1, modeMask := mask, powerClass := cls }
    (if mode = 1 ∧ !(s.cage k).auto ∧ (s.cage k).phase = .ready then s1.autoConfig k else s1, .ok)

def execModulePolicy (c : CmdRef) (slot mode : Nat) (mask : Byte) (powerClass : Nat) (s : State) : Out :=
  s.command c 0x0207 [(1, slot), (1, mode), (1, mask.toNat), (1, powerClass)] (modulePolicyBody slot mode mask powerClass)

/-- A module control byte: the low page's bytes 26 to 38 (PRESUMED, CMIS; log 47), and pages 10h and 11h. -/
def controlByte (page offset len : Nat) : Bool :=
  (offset < 39 && 26 < offset + len) || (128 < offset + len && (page = 0x10 || page = 0x11))

/-- MODULE_ACCESS (R107): `answer` is what the module gives on its bus, nothing when it does not answer. A write leaves the
cage's spare output, which R101 has it set and no field of it names, at a free value (log 161). -/
def moduleAccessBody (k bank page offset len write : Nat) (data answer : List Byte) (s : State) : State × Ans :=
  if 63 < k ∨ len = 0 ∨ 32 < len ∨ 1 < write then (s, badArg)
  else if !(s.cage k).mapped then (s, wrongState)
  else if write = 1 then
    if (s.cage k).auto ∧ controlByte page offset len then (s, wrongState)
    else
      let d := data.take len
      ((s.moduleWrite k bank page offset d).updCage k fun g => { g with
        spareOut := Config.spareOutput bank page offset d g.spareOut }, .ok)
  else if answer.isEmpty then (s, faulted)
  else (s.busSelect k, .data (slice (answer.take len) 0 32))

def execModuleAccess (c : CmdRef) (slot bank page offset len write : Nat) (data answer : List Byte) (s : State) : Out :=
  s.command c 0x0208 [(1, slot), (1, bank), (1, page), (1, offset), (1, len), (1, write), bytesField 32 data]
    (moduleAccessBody slot bank page offset len write data answer)

def ModPhase.code (p : ModPhase) : Nat := match p with
  | .absent => 0
  | .debounceIn => 1
  | .idPoll => 2
  | .lowPower => 3
  | .pages => 4
  | .powerUp => 5
  | .ready => 6
  | .fault => 7
  | .unsupported => 8
  | .powerDenied => 9

/-- The result of MODULE_STATUS: chain bits, state, identifier, application list (log 26). -/
def cageImage (g : Cage) : List Byte :=
  let apps := match g.pages with
    | some p => p.apps
    | none => []
  layout ([(1, g.inputs.toNat + 16 * g.outs), (1, g.phase.code), (1, g.ident.toNat), (1, apps.length)]
    ++ apps.map fun a => (4, a.code.toNat))

def moduleStatusBody (k : Nat) (s : State) : State × Ans :=
  if 63 < k then (s, badArg) else (s, .data (cageImage (s.cage k)))

def execModuleStatus (c : CmdRef) (slot : Nat) (s : State) : Out :=
  s.command c 0x0209 [(1, slot)] (moduleStatusBody slot)

/-! ### Disabling a well (R555) -/

/-- WELL_ENABLE: a disable sluices the well and waits for WELL_DISABLE_DONE. -/
def wellEnableBody (c : CmdRef) (w enable : Nat) (s : State) : State × Ans :=
  let x := s.well w
  if 7 < w ∨ 1 < enable then (s, badArg)
  else if enable = 0 then
    if x.disabled then (s, .ok)
    else if x.disabling.isSome then (s, .wait)
    else
      let ports := (s.wellPorts w).filter fun p => (s.port p).enabled
      (s.updWell w fun y => { y with disabling := some (some c), enabledBefore := ports }, .wait)
  else if !x.disabled then (s, .ok)
  else
    let s1 := (s.updWell w fun y => { y with disabled := false, enabledBefore := [] }).unfence 3 w
    (x.enabledBefore.foldl (fun acc p =>
      (acc.updPort p fun y => { y with enabled := true, link := {} }).bringUp p) s1, .ok)

def execWellEnable (c : CmdRef) (well enable : Nat) (s : State) : Out :=
  s.command c 0x0901 [(1, well), (1, enable)] (wellEnableBody c well enable)

/-- The intake FIFO of a well is empty and every frame in it has been parsed. -/
def State.wellDrained (s : State) (w : Nat) : Bool :=
  ((List.range 16).map (16 * w + ·)).all fun p =>
    let x := s.port p
    x.arriving.isEmpty && x.fill.isEmpty && x.drain.isEmpty && x.parseQ.isEmpty

/-- WELL_DISABLE_DONE: the parser stops, the lanes are powered off, and every port reports LINK_DOWN with reason DISABLE. -/
def execWellDisableDone (well : Nat) (s : State) : Out :=
  match (s.well well).disabling with
  | none => done s
  | some c =>
    if !s.wellDrained well then done s
    else
      let s1 := ((s.wellPorts well).filter fun p => (s.port p).st ≠ .disabled).foldl State.portOff s
      let s2 := s1.updWell well fun w => { w with disabled := true, disabling := none }
      match c with
      | some k => done (s2.finish k 0 0 [] [])
      | none => done s2

end Sys2Proof.Machine
end

