-- ==== Sys2Proof/Machine/Basin.lean ====
section
/-!
DEFINITION. Sized pools, basin rebuild, the size of the cistern, and the buffer commands (R161, R173-R178, R181, R188-R193).
-/

namespace Sys2Proof.Machine

def State.updBasin (s : State) (f : BasinSt → BasinSt) : State := { s with basin := f s.basin }
def State.updCistern (s : State) (f : CisternSt → CisternSt) : State := { s with cistern := f s.cistern }

/-! ### Sized pools (R175, R176) -/

/-- The smallest pool whose buffers hold a length. -/
def poolFor (len : Nat) : Option Nat :=
  if len ≤ 256 then some 0 else if len ≤ 2048 then some 1 else if len ≤ 10240 then some 2 else none

/-- The lowest number that no held buffer of the pool has. -/
def poolFree (l : List (Nat × SizedBuf)) : Nat := firstGap (l.map Prod.fst) 0

/-- Allocate a buffer of a class, with a count of 1 (R156); false when its pool is empty or no pool holds the length. -/
def State.poolTake (s : State) (cls len : Nat) : State × Bool :=
  match poolFor len with
  | none => (s, false)
  | some p =>
    let l := SMap.get [] s.basin.pools p
    if poolSize p ≤ poolFree l then (s, false)
    else (s.updBasin fun b => { b with pools := SMap.set [] b.pools p (SMap.ins l (poolFree l) { cls := cls }) }, true)

/-- Free the buffers of a class. -/
def State.poolDrop (s : State) (cls : Nat) : State :=
  (List.range 3).foldl (fun (acc : State) p => acc.updBasin fun b => { b with
    pools := SMap.set [] b.pools p ((SMap.get [] b.pools p).filter fun e => e.2.cls ≠ cls) }) s

/-- SIZED_POOL_ALLOC: class 7 PRIMING, 8 BIST, 9 REBUILD. A rebuild that waits for its buffers goes on with one. -/
def execSizedPoolAlloc (cls len : Nat) (s : State) : Out :=
  if cls < 7 ∨ 9 < cls then done s
  else
    let r := s.poolTake cls len
    if r.2 ∧ cls = 9 then done (r.1.updBasin fun b => { b with rebuildWait := false }) else done r.1

/-! ### Basin rebuild (R189) -/

/-- REBUILD_RETRY: the rebuild asks for its buffer again, one of the largest pool (log 48). -/
def execRebuildRetry (s : State) : Out :=
  if !s.phRuns ∨ !s.basin.rebuild ∨ !s.basin.rebuildWait ∨ s.dt < s.basin.rebuildStart + 1000000 then done s
  else
    let r := s.poolTake 9 10240
    done (r.1.updBasin fun b => { b with rebuildWait := !r.2, rebuildStart := s.dt })

/-- Copies and frames that refer to a basin buffer: in the queues, on their way to a pump or in its wheel, being sent, and in
records whose write is not acknowledged; and the packet whose buffer it is, until it commits. -/
def State.refsTo (s : State) (h : Nat) : Nat :=
  let n := fun (l : List Copy) => (l.filter fun c => c.handle = h).length
  total (s.egress.queues.map fun e => n (e.2.head ++ e.2.aggCopies ++ e.2.tail)
      + ((e.2.writing.flatMap (·.recs)).filter fun r => r.basin = h).length)
    + total (s.egress.pumps.map fun e => n (e.2.arrivals ++ e.2.wheel.map (·.2)))
    + n (s.egress.eports.filterMap fun e => e.2.now.map (·.copy))
    + (s.order.pkts.filter fun e => e.2.head = some h && e.2.st ≠ .finished).length

/-- Cells in use that no chain holds. -/
def State.strayCells (s : State) : List Nat :=
  (s.basin.used.flatMap fun e => e.2.map (e.1 * cellsPerBank + ·)).filter fun c => !s.chained c

/-- A buffer whose owner entry was damaged: reclaimed when nothing refers to it, its count rewritten from what does
otherwise. Its copies still end when they are touched (R187). -/
def State.rebuildOwner (s : State) (h : Nat) : State :=
  match s.buf h with
  | none => s
  | some b =>
    if !b.ownerBad then s
    else if s.refsTo h = 0 ∧ !b.held then s.freeBuf h
    else s.updBuf h fun x => { x with count := s.refsTo h }

/-- BASIN_REBUILD_DONE: the chains are walked; cells that no live chain holds are reclaimed and uncharged, damaged owner
entries are rewritten, and no word stays fenced. -/
def execBasinRebuildDone (s : State) : Out :=
  if !s.phRuns ∨ !s.basin.rebuild ∨ s.basin.rebuildWait then done s
  else
    let s0 := (s.basin.bufs.map Prod.fst).foldl State.rebuildOwner s
    let freed := s.usedCells - s0.usedCells
    let stray := s0.strayCells
    let s1 := stray.foldl (fun (acc : State) c =>
      (acc.dropCell c).uncharge (((s.basin.orphans.find? fun e => e.1 = c).map (·.2)).getD [])) s0
    let s2 := (s1.updBasin fun b => { b with orphans := [], fenced := [], rebuild := false }).poolDrop 9
    done (s2.event 0x0702 [(4, freed + stray.length)])

/-! ### Quotas (R173) -/

/-- The number of entities of a type. -/
def entCount (kind : Nat) : Nat := [1024, 128, 12, 1, 2, 8].getD kind 0

/-- Cells held beyond a lowered MIN of a first entity count against the shared pool; `port` is charged with them too. -/
def State.minLowered (s : State) (k n : Nat) (port : Option Nat) : State :=
  let s1 := s.updEnt k fun e => { e with shared := e.shared + n }
  let s2 := match port with
    | some p => s1.updEnt p fun e => { e with shared := e.shared + n }
    | none => s1
  s2.updBasin fun b => { b with sharedUsed := b.sharedUsed + n }

/-- Cells of a port's lowered guarantee count against the shared pool, class by class. -/
def State.portLowered (s : State) (p n : Nat) : State :=
  let r := (List.range 8).foldl (fun (acc : State × Nat) c =>
    let k := entPortClass p c
    let m := Nat.min acc.2 (acc.1.ent k).extra
    (acc.1.updEnt k fun e => { e with extra := e.extra - m, shared := e.shared + m }, acc.2 - m)) (s, n)
  (r.1.updEnt (entPort p) fun e => { e with extra := e.extra - n, shared := e.shared + n }).updBasin
    fun b => { b with sharedUsed := b.sharedUsed + n }

/-- Write an entity's settings. -/
def State.setQuota (s : State) (kind index min max alpha : Nat) : State :=
  let k := kind * 65536 + index
  let e := s.ent k
  let s1 := s.updEnt k fun x => { x with min := min, max := max, alpha := alpha }
  if kind = 1 then s1.portLowered index (e.extra - min)
  else s1.minLowered k (e.used - e.shared - e.extra - min) (if kind = 0 then some (entPort (index / 8)) else none)

/-- BUFFER_QUOTA_SET. -/
def bufferQuotaBody (kind index min max alpha : Nat) (s : State) : State × Ans :=
  if 5 < kind ∨ entCount kind ≤ index ∨ 1048575 < min ∨ 1048575 < max ∨ 12 < alpha ∨ (kind = 5 ∧ alpha ≠ 0)
      ∨ (max ≠ 0 ∧ max < min) ∨ 425984 < s.minSum - (s.ent (kind * 65536 + index)).min + min then (s, badArg)
  else (s.setQuota kind index min max alpha, .ok)

def execBufferQuotaSet (c : CmdRef) (kind index min max alpha : Nat) (s : State) : Out :=
  s.command c 0x0700 [(1, kind), (2, index), (4, min), (4, max), (1, alpha)] (bufferQuotaBody kind index min max alpha)

/-- QUEUE_SPILL_SET (R181). -/
def queueSpillBody (q en on low : Nat) (s : State) : State × Ans :=
  if 1 < en ∨ on < 256 ∨ 1048575 < on ∨ low < 16 then (s, badArg)
  else (s.updQueue q fun x => { x with spillEn := en = 1, spillOn := on, refillLow := low }, .ok)

def execQueueSpillSet (c : CmdRef) (queue en spillOn refillLow : Nat) (s : State) : Out :=
  s.command c 0x0701 [(2, queue), (1, en), (4, spillOn), (2, refillLow)] (queueSpillBody queue en spillOn refillLow)

/-! ### The cistern's size (R178) -/

/-- The unassigned bytes directly above the cistern. -/
def State.cisternRoom (s : State) : Nat :=
  match s.mem.regions.find? fun r => r.use = 6 with
  | none => 0
  | some r =>
    let top := r.base + r.size
    let starts := (s.mem.regions.map (·.base) ++ s.hbm.pools.map Prod.fst).filter fun b => top ≤ b
    starts.foldl (fun m b => Nat.min m (b - top)) (hbmSize - top)

/-- The cistern takes a size: its region and its limit. -/
def State.cisternResize (s : State) (gib : Nat) : State :=
  (s.updMem fun m => { m with regions := m.regions.map fun r =>
    if r.use = 6 then { r with size := gib * 1073741824 } else r }).updCistern fun k => { k with
      sizeGib := gib, limit := blocksOfGib gib }

/-- CISTERN_CONFIG: growth applies at once; a smaller size stops allocation above the new limit at once and completes
in the background. While a shrink runs the cistern is held (R488). -/
def cisternConfigBody (c : CmdRef) (gib : Nat) (s : State) : State × Ans :=
  let k := s.cistern
  if gib < 8 ∨ 64 < gib then (s, badArg)
  else if k.shrinking then (s, if k.shrink = some c then .later else busy)
  else if gib = k.sizeGib then (s, .ok)
  else if k.sizeGib < gib then
    if s.cisternRoom < (gib - k.sizeGib) * 1073741824 then (s, noRoom) else (s.cisternResize gib, .ok)
  else (s.updCistern fun x => { x with limit := blocksOfGib gib, shrink := some c, shrinking := true, shrinkCause := 0 }, .later)

def execCisternConfig (c : CmdRef) (sizeGib : Nat) (s : State) : Out :=
  s.command c 0x0702 [(1, sizeGib)] (cisternConfigBody c sizeGib)

/-- CISTERN_SHRINK_DONE: no block above the limit is in use. -/
def execCisternShrinkDone (s : State) : Out :=
  let k := s.cistern
  if !k.shrinking ∨ k.usedBlocks.any (fun b => decide (k.limit ≤ b)) then done s
  else
    let gib := k.limit / 262144
    let s1 := (s.cisternResize gib).updCistern fun x => { x with shrinking := false, shrink := none }
    let s2 := s1.event 0x0704 [(1, gib), (1, k.shrinkCause)]
    match k.shrink with
    | some c => done (s2.answer c .ok)
    | none => done s2

/-! ### BUFFER_RECLAIM (R161, R499) -/

/-- Reclaim by handle: buffers released, and provisional ones skipped. The requester is the Pumphouse, tag 0x400. -/
def State.reclaim1 (s : State) (h : Nat) : State × Nat × Nat :=
  match s.buf h with
  | some b =>
    if b.cls = 3 ∧ b.prov.isSome then (s, 0, 1)
    else if b.cls = 3 ∧ !b.held then (s, 0, 0)
    else if b.cls = 3 then (s.releaseHeld h 0x400, 1, 0)
    else (s.releaseHeld h 0x400, 0, 0)
  | none => if s.invalidHandle h ∨ 0x40000000 ≤ h ∨ s.chained h then (s.releaseHeld h 0x400, 0, 0) else (s, 0, 0)

/-- BUFFER_RECLAIM: FREED counts the buffers whose allocation reference it released (log 49). -/
def bufferReclaimBody (mode cluster : Nat) (hs : List W32) (s : State) : State × Ans :=
  if 1 < mode ∨ (mode = 1 ∧ 11 < cluster) then (s, badArg)
  else
    let l := if mode = 0 then hs.map (·.toNat)
      else (s.basin.bufs.filter fun e => e.2.cls = 3 && e.2.id = cluster).map Prod.fst
    let r := l.foldl (fun (acc : State × Nat × Nat) h =>
      let x := acc.1.reclaim1 h
      (x.1, acc.2.1 + x.2.1, acc.2.2 + x.2.2)) (s, 0, 0)
    (r.1, .data (layout [(4, r.2.1), (4, r.2.2)]))

def execBufferReclaim (c : CmdRef) (mode cluster : Nat) (handles : List W32) (s : State) : Out :=
  s.command c 0x0703 ([(1, mode), (1, cluster), (2, handles.length)] ++ handles.map fun h => (4, h.toNat))
    (bufferReclaimBody mode cluster handles)

/-! ### BUFFER_STATUS (R192, R193) -/

/-- Every entity number, by type and index. -/
def allEnts : List Nat :=
  (List.range 6).flatMap fun t => (List.range (entCount t)).map (t * 65536 + ·)

/-- Current and peak cells and the failures of an entity. -/
def Ent.fields (e : Ent) : List (Nat × Nat) :=
  [(4, e.used), (4, Nat.max e.peak e.used), (8, e.quotaFails.toNat), (8, e.noBufFails.toNat)]

def Pump.spillFields (x : Pump) : List (Nat × Nat) :=
  [(8, x.deferBw.toNat), (8, x.deferFull.toNat), (8, x.deferAgg.toNat), (8, x.blocksWritten.toNat), (8, x.blocksRead.toNat)]

/-- Sized-pool buffers that a class holds. -/
def State.poolHeld (s : State) (cls : Nat) : Nat :=
  total ((List.range 3).map fun p => ((SMap.get [] s.basin.pools p).filter fun e => e.2.cls = cls).length)

/-- The result of BUFFER_STATUS (log 26), with the sized-pool buffers held as PRIMING, BIST and REBUILD (R176). -/
def State.bufferImage (s : State) : List Byte :=
  layout ([(8, s.basinStatus.toNat), (8, s.sizedStatus.toNat), (8, s.cisternStatus.toNat)]
    ++ ((List.range 3).map fun k => (4, s.poolHeld (7 + k)))
    ++ ((List.range 4).map fun k => (8, (SMap.get 0 s.basin.badFree k).toNat))
    ++ ((List.range 8).flatMap fun p => (s.pump p).spillFields)
    ++ allEnts.flatMap fun k => (s.ent k).fields)

/-- BUFFER_STATUS: a peak read restarts from the current count. -/
def bufferStatusBody (s : State) : State × Ans :=
  (s.basin.ents.foldl (fun (acc : State) e => acc.updEnt e.1 fun x => { x with peak := x.used }) s, .data s.bufferImage)

def execBufferStatus (c : CmdRef) (s : State) : Out := s.command c 0x0704 [] bufferStatusBody

end Sys2Proof.Machine
end

