-- ==== Sys2Proof/Machine/EgressRows.lean ====
section
/-!
DEFINITION. The commands of queues, pumps and the sump (R404-R406, R415, R417, R418, R425, R428, R429).
-/

namespace Sys2Proof.Machine

/-- A shaper's BURST lies in its range (R404). -/
def burstOk (burst : Nat) : Bool := 64 ≤ burst && burst ≤ 16777215

/-! ### Queue groups and queues (R404, R405) -/

/-- A queue of the group holds a copy: in the basin or the cistern, in the wheel, on its way to the pump, or in
transmission. -/
def State.groupHolds (s : State) (g : Nat) : Bool :=
  (groupQueues g).any (fun q => !(s.queue q).empty)
    || s.egress.pumps.any (fun e => e.2.arrivals.any (fun c => c.queue / 8 = g) || e.2.wheel.any fun c => c.2.queue / 8 = g)
    || s.egress.eports.any fun e => match e.2.now with
      | some n => n.copy.queue / 8 = g
      | none => false

def queueGroupBody (g port weight : Nat) (sp : Byte) (rate burst : Nat) (s : State) : State × Ans :=
  if 8191 < g ∨ (1023 < port ∧ port ≠ 0xFFFF) ∨ weight = 0 ∨ 255 < weight ∨ !burstOk burst then (s, badArg)
  else if port ≠ (s.group g).port ∧ s.groupHolds g then (s, wrongState)
  else
    let x := s.group g
    let sh := if x.shaper.rate = rate ∧ x.shaper.burst = burst then x.shaper else x.shaper.config s.dt rate burst
    (s.setGroup g { x with port := port, weight := weight, spMask := sp, shaper := sh }, .ok)

def execQueueGroupSet (c : CmdRef) (group port weight : Nat) (spMask : Byte) (rate burst : Nat) (s : State) : Out :=
  s.command c 0x0705 [(2, group), (2, port), (1, weight), (1, spMask.toNat), (4, rate), (4, burst)]
    (queueGroupBody group port weight spMask rate burst)

def queueConfigBody (q qmax weight wred rate burst : Nat) (s : State) : State × Ans :=
  if 65535 < q ∨ 1048575 < qmax ∨ weight = 0 ∨ 255 < weight ∨ 255 < wred ∨ !burstOk burst then (s, badArg)
  else
    let x := s.queue q
    let sh := if x.shaper.rate = rate ∧ x.shaper.burst = burst then x.shaper else x.shaper.config s.dt rate burst
    (s.setQueue q { x with qmax := qmax, weight := weight, wred := wred, shaper := sh }, .ok)

def execQueueConfig (c : CmdRef) (queue qmax weight wred rate burst : Nat) (s : State) : Out :=
  s.command c 0x0706 [(2, queue), (4, qmax), (1, weight), (1, wred), (4, rate), (4, burst)]
    (queueConfigBody queue qmax weight wred rate burst)

/-! ### Egress ports (R406) -/

def egressPortBody (p rate burst : Nat) (overhead : Int) (down hold : Nat) (pfc : BitVec 24) (s : State) : State × Ans :=
  if 1023 < p ∨ !burstOk burst ∨ overhead < -32 ∨ 63 < overhead ∨ 2 < down ∨ 60000 < hold then (s, badArg)
  else
    let x := s.eport p
    let sh := if x.shaper.rate = rate ∧ x.shaper.burst = burst then x.shaper else x.shaper.config s.dt rate burst
    (s.setEport p { x with shaper := sh, overhead := overhead, downPolicy := down, holdTime := hold, pfcMap := pfc }, .ok)

/-- EGRESS_PORT_SET. OVERHEAD is a signed byte. -/
def execEgressPortSet (c : CmdRef) (port rate burst : Nat) (overhead : Int) (downPolicy holdTime : Nat)
    (pfcMap : BitVec 24) (s : State) : Out :=
  s.command c 0x0707 [(2, port), (4, rate), (4, burst), (1, ofInt 8 overhead), (1, downPolicy), (2, holdTime),
      (4, pfcMap.toNat)]
    (egressPortBody port rate burst (BitVec.ofInt 8 overhead).toInt downPolicy holdTime pfcMap)

/-! ### WRED and flow control (R415, R417) -/

def wredBody (n : Nat) (w : Wred) (ecn : Nat) (s : State) : State × Ans :=
  if n = 0 ∨ 255 < n ∨ 1048575 < w.max ∨ w.max ≤ w.min ∨ 255 < w.pmax ∨ 15 < w.w ∨ 1 < ecn then (s, badArg)
  else (s.updEgress fun e => { e with wreds := SMap.set {} e.wreds n w }, .ok)

def execWredProfileSet (c : CmdRef) (profile min max pmax w ecn kmark : Nat) (s : State) : Out :=
  s.command c 0x0708 [(1, profile), (4, min), (4, max), (1, pmax), (1, w), (1, ecn), (4, kmark)]
    (wredBody profile ⟨min, max, pmax, w, ecn = 1, kmark⟩ ecn)

/-- PFC_THRESHOLD_SET: the thresholds are compared with the use they meet. -/
def pfcThresholdBody (p cls xoff xon : Nat) (s : State) : State × Ans :=
  if 127 < p ∨ 8 < cls ∨ 1048575 < xoff ∨ (xoff ≠ 0 ∧ xoff ≤ xon) then (s, badArg)
  else
    let s1 := s.updEport p fun e => { e with thrOff := SMap.set 0 e.thrOff cls xoff, thrOn := SMap.set 0 e.thrOn cls xon }
    (s1.fcCheck p cls, .ok)

def execPfcThresholdSet (c : CmdRef) (port cls xoff xon : Nat) (s : State) : Out :=
  s.command c 0x0709 [(1, port), (1, cls), (4, xoff), (4, xon)] (pfcThresholdBody port cls xoff xon)

/-! ### Multicast (R418) -/

/-- Entries of the member pool in use. -/
def State.poolUsed (s : State) : Nat := total (s.egress.mcGroups.map fun e => e.2.length)

/-- MC_GROUP_SET: the new list takes free entries before the head is swapped. -/
def mcGroupBody (g : Nat) (members : List W32) (s : State) : State × Ans :=
  if 16383 < g ∨ 255 < members.length ∨ members.any (fun m => decide (0x20000000 ≤ m.toNat)) then (s, badArg)
  else if 131072 < s.poolUsed + members.length then (s, noRoom)
  else (s.updEgress fun e => { e with mcGroups := SMap.set [] e.mcGroups g members }, .ok)

def execMcGroupSet (c : CmdRef) (group : Nat) (members : List W32) (s : State) : Out :=
  s.command c 0x070A ([(2, group), (1, members.length), (1, 0)] ++ members.map fun m => (4, m.toNat))
    (mcGroupBody group members)

/-- MC_MEMBER_OP_SET: one edit-list slot that holds one well-formed operation. -/
def mcMemberBody (mop : Nat) (slot : BitVec 128) (s : State) : State × Ans :=
  if 4094 < mop ∨ (memberEdit slot).isNone then (s, badArg)
  else (s.updEgress fun e => { e with memberOps := SMap.set 0 e.memberOps mop slot }, .ok)

def execMcMemberOpSet (c : CmdRef) (mop : Nat) (slot : BitVec 128) (s : State) : Out :=
  s.command c 0x070B [(2, mop), (16, slot.toNat)] (mcMemberBody mop slot)

/-! ### QUEUE_FLUSH (R425) -/

/-- QUEUE_FLUSH: empty queues are answered at once; a queue that another flush holds answers BUSY. -/
def queueFlushBody (c : CmdRef) (scope index : Nat) (s : State) : State × Ans :=
  let qs := if scope = 0 then [index] else groupQueues index
  if 1 < scope ∨ (scope = 0 ∧ 65535 < index) ∨ (scope = 1 ∧ 8191 < index) then (s, badArg)
  else if qs.any fun q => (s.queue q).flush.isSome && (s.queue q).flush ≠ some c then (s, busy)
  else if qs.all fun q => (s.queue q).empty then (s, .data (leBytes 4 0))
  else (qs.foldl (fun (acc : State) q => acc.updQueue q fun x => { x with flush := some c, flushed := 0 }) s, .later)

def execQueueFlush (c : CmdRef) (scope index : Nat) (s : State) : Out :=
  s.command c 0x070C [(1, scope), (2, index)] (queueFlushBody c scope index)

/-! ### The sump and the statistics (R428, R429) -/

/-- SUMP_CONFIG: a code that copies or packets end with. -/
def sumpConfigBody (code rate host ring : Nat) (s : State) : State × Ans :=
  if code < 2 ∨ 10 < code ∨ (20 < rate ∧ rate ≠ 255) ∨ 2 < host ∨ 63 < ring then (s, badArg)
  else (s.updEgress fun e => { e with
    samples := SMap.set {} e.samples code { rate := rate, host := host, ring := ring } }, .ok)

def execSumpConfig (c : CmdRef) (code rate host ring : Nat) (s : State) : Out :=
  s.command c 0x070D [(1, code), (1, rate), (1, host), (1, ring)] (sumpConfigBody code rate host ring)

/-- One queue in QUEUE_STATS: length and peak in cells, drops, and RELEASE_CLAMP of its pump (log 26). -/
def State.queueFields (s : State) (q : Nat) : List (Nat × Nat) :=
  [(4, s.queueLen (s.queue q)), (4, (s.queue q).peak), (8, (s.queue q).drops.toNat), (8, (s.pump (s.pumpOf q)).clamp.toNat)]

def queueStatsBody (first count : Nat) (s : State) : State × Ans :=
  if 65536 < first + count then (s, badArg)
  else (s, .data (layout (((List.range count).map (first + ·)).flatMap s.queueFields)))

def execQueueStats (c : CmdRef) (first count : Nat) (s : State) : Out :=
  s.command c 0x070E [(2, first), (2, count)] (queueStatsBody first count)

def PB.fields (x : PB) : List (Nat × Nat) := [(8, x.pkts.toNat), (8, x.bytes.toNat)]

/-- The result of SUMP_STATS: codes 2 to 10 by sub-reason, SAMPLE_SKIP, then the ports' codes (log 26). -/
def State.sumpImage (s : State) : List Byte :=
  layout (((List.range 144).flatMap fun k => (SMap.get ({} : PB) s.egress.sump (32 + k)).fields)
    ++ [(8, s.egress.sampleSkip.toNat)]
    ++ (List.range 1024).flatMap fun p => (List.range 9).flatMap fun k =>
      (SMap.get ({} : PB) s.egress.sumpPort (p * 32 + 2 + k)).fields)

def sumpStatsBody (s : State) : State × Ans := (s, .data s.sumpImage)

def execSumpStats (c : CmdRef) (s : State) : Out := s.command c 0x070F [] sumpStatsBody

end Sys2Proof.Machine
end

