-- ==== Sys2Proof/Machine/TableCmds.lean ====
section
/-!
DEFINITION. The table commands of the Diralys Command Interface: batches, reads, statistics, exact-match tables, L2
settings and the digest scrubber (R374, R376, R382, R397, R398, R401).
-/

namespace Sys2Proof.Machine

/-- The last command whose table effects are complete (R401). -/
def State.tblSeen (s : State) (c : Sys2Proof.CmdRef) : State := s.updTables fun t => { t with lastCseq := c.cseq }

/-! ### TABLE_BATCH (R397, R398) -/

/-- An operation's key and data words are as many as its image says. -/
def batchOpOk (o : Sys2Proof.TblOp) : Bool := o.keys.length = fld o.cmd 16 4 && o.data.length = fld o.cmd 20 4

def State.batchOp (s : State) (o : Sys2Proof.TblOp) : State × TblRes :=
  s.tblNow (cmdTable o.cmd) (cmdOp o.cmd) (cmdIndex o.cmd) o.keys o.data

/-- Apply operations in order, to the end or to the first failure: the results in order. -/
def State.batchRun (s : State) (ops : List Sys2Proof.TblOp) (stop : Bool) (got : List TblRes) : State × List TblRes :=
  match ops with
  | [] => (s, got)
  | o :: rest =>
    let r := s.batchOp o
    if stop ∧ r.2.code ≠ 0 then (r.1, got ++ [r.2]) else r.1.batchRun rest stop (got ++ [r.2])

/-- The recorded result of a batch of `n` operations; those not carried out report 0 (log 26). -/
def batchResult (c : Sys2Proof.CmdRef) (n : Nat) (rs : List TblRes) (applied : Nat) : BatchRun :=
  ⟨c, (rs.map TblRes.status) ++ List.replicate (n - rs.length) 0, applied, (rs.findIdx? fun r => r.code ≠ 0).getD 0xFF⟩

/-- An atomic batch is prepared on the tables as they stand, and applied whole or not at all. -/
def State.batchAtomic (s : State) (c : Sys2Proof.CmdRef) (ops : List Sys2Proof.TblOp) : State × BatchRun :=
  let r := s.batchRun ops true []
  if r.2.all fun x => x.code = 0 then (r.1, batchResult c ops.length r.2 ops.length)
  else ({ s with free := r.1.free }, batchResult c ops.length r.2 0)

def State.batchPlain (s : State) (c : Sys2Proof.CmdRef) (ops : List Sys2Proof.TblOp) (stop : Bool) : State × BatchRun :=
  let r := s.batchRun ops stop []
  (r.1, batchResult c ops.length r.2 (r.2.filter fun x => x.code = 0).length)

/-- TABLE_BATCH: its effects take place here and are reported by TABLE_BATCH_DONE. A batch that a re-run finds recorded is
not applied again (R398). -/
def tableBatchBody (c : CmdRef) (atomic stop : Bool) (ops : List TblOp) (s : State) : State × Ans :=
  if ops.isEmpty ∨ 64 < ops.length then (s, badArg)
  else if atomic ∧ 4 < ((ops.map fun o => cmdTable o.cmd).dedup).length then (s, badArg)
  else if s.tables.batches.any fun b => b.c = c then (s, .later)
  else
    let r := if atomic then s.batchAtomic c ops else s.batchPlain c ops stop
    ((r.1.updTables fun t => { t with batches := t.batches ++ [r.2] }).tblSeen c, .later)

/-- The payload fields of TABLE_BATCH. -/
def batchFields (atomic stop : Bool) (ops : List Sys2Proof.TblOp) : List (Nat × Nat) :=
  [(1, atomic.toNat + 2 * stop.toNat), (1, ops.length)] ++ ops.flatMap fun o =>
    (8, o.cmd.toNat) :: (o.keys ++ o.data).map fun w => (8, w.toNat)

def execTableBatch (c : CmdRef) (atomic stopOnError : Bool) (ops : List TblOp) (s : State) : Out :=
  if !ops.all batchOpOk then done s
  else s.command c 0x0300 (batchFields atomic stopOnError ops) (tableBatchBody c atomic stopOnError ops)

/-- TABLE_BATCH_DONE: the results go to the output buffer, APPLIED and FAIL_INDEX into the response. -/
def execTableBatchDone (c : CmdRef) (s : State) : Out :=
  match s.tables.batches.find? fun b => b.c = c with
  | none => done s
  | some b =>
    if !s.running c 0x0300 then done s
    else
      let s1 := s.updTables fun t => { t with batches := t.batches.filter fun x => x.c ≠ c }
      done (s1.answer c (.reply 0 0 (wordsBytes b.results) [BitVec.ofNat 8 b.applied, BitVec.ofNat 8 b.failIndex]))

/-! ### TABLE_READ and TABLE_STATS -/

/-- The command's entry names an output buffer. -/
def State.hasOutbuf (s : State) (c : Sys2Proof.CmdRef) : Bool :=
  match s.jcmd c with
  | some j => j.e.flags.getLsbD 1
  | none => false

/-- TABLE_READ: TBL_STATUS and the data words; a lookup waits for an undecided change of its key (R384). -/
def tableReadBody (c : CmdRef) (w : W64) (keys : List W64) (s : State) : State × Ans :=
  if !readOp (cmdOp w) then (s, badArg)
  else if cmdOp w = 4 ∧ s.ovWaits (cmdTable w) keys then (s, .wait)
  else
    let klenOk := fld w 20 4 = 0 || (match tblKind (cmdTable w) with
      | some k => fld w 20 4 = s.tblDlen k
      | none => true)
    let r := if klenOk then s.tblOp true (cmdTable w) (cmdOp w) (cmdIndex w) keys [] else (s, resBadArg)
    if 4 < r.2.data.length ∧ !s.hasOutbuf c then (s, badArg)
    else (r.1, .data (wordsBytes (r.2.status :: r.2.data)))

def execTableRead (c : CmdRef) (w : W64) (keys : List W64) (s : State) : Out :=
  s.command c 0x0301 ((8, w.toNat) :: keys.map fun k => (8, k.toNat)) (tableReadBody c w keys)

/-- Entries in use and free slots of a table. -/
def State.tblOccupancy (s : State) (k : TblKind) : Nat × Nat :=
  match k with
  | .l2 w =>
    let n := ((s.l2t w).ents.filter fun e => e.2.isSome).length
    (n, 262144 - n)
  | .lpm => (s.tables.lpm.prefixes.length, lpmSlots - s.tables.lpm.used)
  | .em n => match s.emt n with
    | some x =>
      let u := (x.ents.filter fun e => e.2.isSome).length
      (u, 4 * 2 ^ x.log2 - u)
    | none => (0, 0)
  | .weirs =>
    let n := (s.tables.weirs.filter fun e => e.2.mode ≠ 0).length
    (n, 262144 - n)
  | _ => (0, 0)

/-- The counters a table has of its own. -/
def State.tblCounters (s : State) (k : TblKind) : List W64 :=
  match k with
  | .l2 w =>
    let x := s.l2t w
    [x.learn, x.learnFull, x.move, x.staticMove, x.aged, x.noticeDrop]
  | .em n => [SMap.get 0 s.tables.ovFull (0x40 + n)]
  | .weirs =>
    let x := s.tables.weirCnt
    [x.green, x.yellow, x.red, x.disabled, x.finalized, x.refunded, x.cappedBytes]
  | _ => []

/-- TABLE_STATS: occupancy, free slots, JTBL_FAIL by result code 1 to 8, SCRUB_STALL, the table's counters (log 26). -/
def tableStatsBody (table : Nat) (s : State) : State × Ans :=
  match tblKind table with
  | none => (s, badArg)
  | some k =>
    let o := s.tblOccupancy k
    let fails := (List.range 8).map fun j => SMap.get 0 s.tables.jtblFail (table * 16 + j + 1)
    (s, .data (wordsBytes ([BitVec.ofNat 64 o.1, BitVec.ofNat 64 o.2] ++ fails ++ [s.tables.scrubStall] ++ s.tblCounters k)))

def execTableStats (c : CmdRef) (table : Nat) (s : State) : Out := s.command c 0x0302 [(2, table)] (tableStatsBody table)

/-! ### EM_TABLE_SET (R382, R385) -/

/-- The bytes of a table in the exact-match region. -/
def emBytes (log2 : Nat) : Nat := 256 * 2 ^ log2

/-- The existing tables. -/
def State.emTables (s : State) : List EmTbl := s.tables.em.filterMap Prod.snd

/-- The lowest aligned free block of the region (log 26). -/
def State.emPlace (s : State) (log2 : Nat) : Option Nat :=
  let n := emBytes log2
  let l := s.emTables
  let starts := 0 :: l.map fun x => (x.base + emBytes x.log2 + n - 1) / n * n
  let fit := starts.filter fun b => b + n ≤ s.regionSize 1 && l.all fun x => b + n ≤ x.base || x.base + emBytes x.log2 ≤ b
  match fit with
  | [] => none
  | b :: rest => some (rest.foldl Nat.min b)

/-- Buckets of the pinned tables. -/
def State.pinned (s : State) : Nat := total ((s.emTables.filter fun x => x.cache = 2).map fun x => 2 ^ x.log2)

def emTableBody (c : CmdRef) (t log2 klen cache destroy : Nat) (seed : W32) (s : State) : State × Ans :=
  if 15 < t ∨ 1 < destroy then (s, badArg)
  else if destroy = 1 then ((s.setEmt t none).tblSeen c, .ok)
  else if log2 < 10 ∨ 24 < log2 ∨ klen < 1 ∨ 6 < klen ∨ 2 < cache then (s, badArg)
  else match s.emt t with
    | some x => (s, if x.log2 = log2 ∧ x.klen = klen ∧ x.cache = cache ∧ x.seed = seed then .ok else wrongState)
    | none =>
      if cache = 2 ∧ 32768 < s.pinned + 2 ^ log2 then (s, noRoom)
      else match s.emPlace log2 with
        | none => (s, noRoom)
        | some b => ((s.setEmt t (some { log2 := log2, klen := klen, cache := cache, seed := seed, base := b })).tblSeen c, .ok)

def execEmTableSet (c : CmdRef) (table bucketsLog2 klen cache destroy : Nat) (seed : W32) (s : State) : Out :=
  s.command c 0x0303 [(1, table), (1, bucketsLog2), (1, klen), (1, cache), (1, destroy), (4, seed.toNat)]
    (emTableBody c table bucketsLog2 klen cache destroy seed)

/-! ### L2 (R374, R376) -/

/-- L2_CONFIG: a new AGE_TIME acts from each well's next sweep; a well that does not age starts to (R374, R375). -/
def l2ConfigBody (age flush : Nat) (s : State) : State × Ans :=
  if (age ≠ 0 ∧ age < 10) ∨ 1000000 < age ∨ 1 < flush then (s, badArg)
  else
    let s1 := s.updTables fun t => { t with ageTime := age, flushOnDown := flush = 1 }
    ((List.range 8).foldl (fun (acc : State) w =>
      if (acc.well w).sweepAge = 0 then acc.updWell w fun x => { x with lastSweep := s.dt, sweepAge := age } else acc) s1, .ok)

def execL2Config (c : CmdRef) (ageTimeS flushOnDown : Nat) (s : State) : Out :=
  s.command c 0x0304 [(4, ageTimeS), (1, flushOnDown)] (l2ConfigBody ageTimeS flushOnDown)

/-- L2_FLUSH: the dynamic entries of a port, of a bridge domain, or all. -/
def l2FlushBody (c : CmdRef) (scope value : Nat) (s : State) : State × Ans :=
  if 2 < scope ∨ (scope = 0 ∧ 1023 < value) ∨ (scope = 1 ∧ 4095 < value) then (s, badArg)
  else
    let p := fun (e : L2Ent) => if scope = 0 then decide (e.port = value) else if scope = 1 then decide (e.bd = value) else true
    (((List.range 8).foldl (fun (acc : State) w => acc.l2Remove w p) s).tblSeen c, .ok)

def execL2Flush (c : CmdRef) (scope value : Nat) (s : State) : Out :=
  s.command c 0x0305 [(1, scope), (2, value)] (l2FlushBody c scope value)

/-! ### TABLE_SCRUB_CONFIG (R401) -/

/-- The table has a digest (R400). -/
def hasDigest (table : Nat) : Bool :=
  match tblKind table with
  | some (.l2 _) | some .lpm | some (.em _) | some .weirs => true
  | _ => false

/-- A change of a table's settings begins a new pass on an empty ring; the current settings change nothing. -/
def tableScrubBody (f : HostFn) (table enable period ring entries : Nat) (s : State) : State × Ans :=
  if !hasDigest table ∨ 1 < enable ∨ period < 60 ∨ 86400 < period
      ∨ !((List.range 11).map fun k => 64 * 2 ^ k).contains entries then (s, badArg)
  else
    let x := s.scrubOf table
    let n : ScrubCfg := { enable := enable = 1, period := period, host := f, ring := ring, entries := entries, lastDt := s.dt }
    if x.enable = n.enable ∧ x.period = period ∧ x.host = f ∧ x.ring = ring ∧ x.entries = entries then (s, .ok)
    else (s.updTables fun t => { t with scrub := SMap.set {} t.scrub table n }, .ok)

def execTableScrubConfig (c : CmdRef) (table enable periodS ringAddr ringEntries : Nat) (s : State) : Out :=
  s.command c 0x0306 [(2, table), (1, enable), (4, periodS), (8, ringAddr), (4, ringEntries)]
    (tableScrubBody c.fn table enable periodS ringAddr ringEntries)

end Sys2Proof.Machine
end

