-- ==== Sys2Proof/Machine/TaskCmds.lean ====
section
/-!
DEFINITION. The commands of locks, helper units, keys, tasks and channels, and the settings of cores and clusters
(R287, R334, R340, R346, R352, R358-R365).
-/

namespace Sys2Proof.Machine

/-! ### Locks (R346, R352) -/

def lockGroupBody (g mask timeout : Nat) (s : State) : State × Ans :=
  if 62 < g ∨ 32767 < mask ∨ timeout < 1024 ∨ 16777215 < timeout then (s, badArg)
  else (s.setLockGrp g { s.lockGrp g with mask := BitVec.ofNat 15 mask, timeout := timeout }, .ok)

def execLockGroupSet (c : CmdRef) (group mask timeout : Nat) (s : State) : Out :=
  s.command c 0x040D [(1, group), (2, mask), (4, timeout)] (lockGroupBody group mask timeout)

/-- LOCK_FORCE_RELEASE: a re-run acts only while the lock's GEN is what it was at acceptance (R499). -/
def lockForceBody (c : CmdRef) (k : Nat) (s : State) : State × Ans :=
  let g := s.guardTaken c
  if 4095 < k then (s, badArg)
  else if (s.lock k).holder.isNone ∨ (g.2 ∧ (s.lock k).gen.toNat ≠ g.1) then (s, .ok)
  else (s.lockAbandon k, .ok)

def execLockForceRelease (c : CmdRef) (lock : Nat) (s : State) : Out :=
  s.command c 0x040E [(2, lock)] (lockForceBody c lock)

/-! ### Helper units (R334) -/

/-- The unit is disabled: unit 1 is crypto unit `index % 2` of cluster `index / 2`, the others are of core `index`. -/
def State.unitOff (s : State) (unit index : Nat) : Bool :=
  if unit = 1 then (s.cl (index / 2)).cryptoOff.getLsbD (index % 2) else (s.core index).helperOff.getLsbD unit

/-- Disable or enable a unit. -/
def State.setUnit (s0 : State) (unit index : Nat) (off : Bool) : State :=
  let s := if off then s0 else s0.unfence 7 (unit * 256 + index)
  let bit := fun (n : Nat) (v k : Nat) => if off then v ||| 2 ^ k else v &&& (2 ^ n - 1 - 2 ^ k)
  if unit = 1 then
    s.updCl (index / 2) fun k => { k with cryptoOff := BitVec.ofNat 2 (bit 2 k.cryptoOff.toNat (index % 2)) }
  else s.updCore index fun k => { k with helperOff := BitVec.ofNat 3 (bit 3 k.helperOff.toNat unit) }

/-- The threads with an operation in progress in a unit. -/
def State.unitUsers (s : State) (unit index : Nat) : List Nat :=
  (if unit = 1 then clusterThreads (index / 2) else coreThreads index).filter fun t => match (s.tr t).wait with
    | .long u _ _ _ => u = if unit = 1 then 3 + index % 2 else unit
    | _ => false

/-- A unit's reset: its operation is abandoned, its run discarded as a counted failure, and the unit is enabled. -/
def State.unitReset (s : State) (unit index : Nat) : State :=
  let s1 := (s.unitUsers unit index).foldl (fun (acc : State) t => match acc.curPkt t with
    | some p => acc.fail p 0
    | none => acc.updTr t fun x => { x with wait := .none }) s
  (s1.setUnit unit index false).bumpReset 7 (unit * 256 + index)

/-- HELPER_CONTROL: a re-run resets the unit only while its reset count is what it was at acceptance (R499). -/
def helperControlBody (c : CmdRef) (action unit index : Nat) (s : State) : State × Ans :=
  let g := s.guardTaken c
  if 2 < action ∨ 2 < unit ∨ (if unit = 1 then 23 else 191) < index then (s, badArg)
  else if action < 2 then (s.setUnit unit index (action = 0), .ok)
  else if g.2 ∧ (s.resetCount 7 (unit * 256 + index)).toNat ≠ g.1 then (s, .ok)
  else ((s.unitReset unit index).errCnt 9 fun e => { e with cmdResets := e.cmdResets + 1 }, .ok)

def execHelperControl (c : CmdRef) (action unitNo index : Nat) (s : State) : Out :=
  s.command c 0x040C [(1, action), (1, unitNo), (1, index)] (helperControlBody c action unitNo index)

/-- Key bytes of an algorithm (R340). -/
def keyBytes (alg : Nat) : Nat := [0, 16, 32, 16].getD alg 0

def cryptoKeyBody (slot alg : Nat) (key : List Byte) (s : State) : State × Ans :=
  if 4095 < slot ∨ 3 < alg then (s, badArg)
  else ({ s with keys := SMap.set {} s.keys slot ⟨alg, key.take (keyBytes alg)⟩ }, .ok)

def execCryptoKeySet (c : CmdRef) (slot alg : Nat) (key : List Byte) (s : State) : Out :=
  s.command c 0x0B06 [(2, slot), (1, alg), bytesField 32 key] (cryptoKeyBody slot alg key)

/-! ### Tasks and channels (R358, R360, R362) -/

def tickOk (e : Nat) : Bool := 10 ≤ e && e ≤ 24

def taskConfigBody (cl t0 t1 t2 t3 en w : Nat) (s : State) : State × Ans :=
  if 11 < cl ∨ !tickOk t0 ∨ !tickOk t1 ∨ !tickOk t2 ∨ !tickOk t3 ∨ 1 < en ∨ w < 4 ∨ 24 < w then (s, badArg)
  else (s.updTask cl fun k => { k with
    tick0 := t0, tick1 := t1, tick2 := t2, tick3 := t3, detect := en = 1, window := w
    tickDt := (List.range 4).foldl (fun m l =>
      if k.tick l = [t0, t1, t2, t3].getD l 0 then m else SMap.set 0 m l s.dt) k.tickDt }, .ok)

def execTaskConfig (c : CmdRef) (cluster tick0 tick1 tick2 tick3 detectEn window : Nat) (s : State) : Out :=
  s.command c 0x040F [(1, cluster), (1, tick0), (1, tick1), (1, tick2), (1, tick3), (1, detectEn), (1, window)]
    (taskConfigBody cluster tick0 tick1 tick2 tick3 detectEn window)

def taskSignalBody (t : Nat) (flags : W32) (s : State) : State × Ans :=
  if 1535 < t then (s, badArg) else ((s.wakeCluster (clusterOf t)).setFlags t flags, .ok)

def execTaskSignal (c : CmdRef) (thread : Nat) (flags : W32) (s : State) : Out :=
  s.command c 0x0410 [(2, thread), (4, flags.toNat)] (taskSignalBody thread flags)

/-- The result of TASK_STATUS (R365, log 26): each list's occupancy and earliest wake DT, the threads waiting, parked
and busy, then LOCK_AT_END, CH_STAGED_LOST, CH_PARTIAL_LOST, DEADLOCK_BREAK and DEADLOCK_NO_BREAK. -/
def State.taskImage (s : State) (cl : Nat) : List Byte :=
  let k := (s.cl cl).task
  let states := (clusterThreads cl).map s.detState
  let count := fun (v : Nat) => (states.filter (· = v)).length
  layout (((List.range 4).flatMap fun l =>
      let es := SMap.get [] k.lists l
      [(4, es.length), (8, match es with
        | e :: _ => e.wake.toNat
        | [] => 0)])
    ++ [(2, count 1), (2, count 2), (2, count 0), (8, k.lockAtEnd.toNat), (8, k.chStagedLost.toNat),
        (8, k.chPartialLost.toNat), (8, k.breaks.toNat), (8, k.noBreaks.toNat)])

def taskStatusBody (cl : Nat) (s : State) : State × Ans := if 11 < cl then (s, badArg) else (s, .data (s.taskImage cl))

def execTaskStatus (c : CmdRef) (cluster : Nat) (s : State) : Out := s.command c 0x0411 [(1, cluster)] (taskStatusBody cluster)

def channelStatusBody (cl first count : Nat) (s : State) : State × Ans :=
  if 11 < cl ∨ 256 < first + count then (s, badArg)
  else (s, .data (wordsBytes ((List.range count).map fun k => (s.chan cl (first + k)).status)))

def execChannelStatus (c : CmdRef) (cluster first count : Nat) (s : State) : Out :=
  s.command c 0x0412 [(1, cluster), (1, first), (2, count)] (channelStatusBody cluster first count)

/-! ### Cores and clusters (R254, R287) -/

/-- The cluster is drained: no run can be active in it. -/
def State.isDrained (s : State) (cl : Nat) : Bool := (s.cl cl).st ≠ .admitted && (s.cl cl).st ≠ .draining

/-- The cores that CORE_CONFIG's TARGET names. -/
def targetCores (target : Nat) : Option (List Nat) :=
  if target < 192 then some [target]
  else if 0x100 ≤ target ∧ target < 0x10C then some ((List.range 16).map (16 * (target - 0x100) + ·))
  else none

def coreConfigOk (a : Sys2Proof.CoreConfigArgs) : Bool :=
  1 ≤ a.workThreads && a.workThreads ≤ 8 && a.shareMode ≤ 1 && 1 ≤ a.capSb && a.capSb ≤ 32 && 1 ≤ a.capMshr
    && a.capMshr ≤ 16 && a.capPf ≤ 8 && 1 ≤ a.capWb && a.capWb ≤ 8 && a.defaultPrio ≤ 3

def coreConfigBody (target : Nat) (a : Sys2Proof.CoreConfigArgs) (s : State) : State × Ans :=
  match targetCores target with
  | none => (s, badArg)
  | some cs =>
    if !coreConfigOk a then (s, badArg)
    else if cs.any fun k => (s.core k).workThreads ≠ a.workThreads && !s.isDrained (clusterOfCore k) then (s, wrongState)
    else (cs.foldl (fun (acc : State) k => acc.updCore k fun x => { x with
        workThreads := a.workThreads, dynamic := a.shareMode = 1, capSb := a.capSb, capMshr := a.capMshr, capPf := a.capPf
        capWb := a.capWb, defaultPrio := BitVec.ofNat 2 a.defaultPrio }) s, .ok)

def execCoreConfig (c : CmdRef) (target : Nat) (a : CoreConfigArgs) (s : State) : Out :=
  s.command c 0x0405 [(2, target), (1, a.workThreads), (1, a.shareMode), (1, a.capSb), (1, a.capMshr), (1, a.capPf),
    (1, a.capWb), (1, a.defaultPrio)] (coreConfigBody target a)

/-- The L2 ways from 16 − n up become scratch: their lines are written back and invalidated, and all scratch is zero. -/
def State.setScratchWays (s : State) (cl n : Nat) : State :=
  let nos := (s.cl cl).l2.lines.filterMap fun e => if 16 - n ≤ e.1 % 16 then e.2.map (·.no) else none
  (nos.foldl (fun (acc : State) no => (acc.l2Clean cl no).l2Drop cl no) s).updCl cl fun k => { k with
    scratchWays := n, scratch := [], scratchPoison := [] }

def clusterConfigBody (cl ways watchdog depth : Nat) (s : State) : State × Ans :=
  if 11 < cl ∨ 8 < ways ∨ watchdog < 4096 ∨ 16777215 < watchdog ∨ depth < 1 ∨ 8 < depth then (s, badArg)
  else if (s.cl cl).scratchWays ≠ ways ∧ !s.isDrained cl then (s, wrongState)
  else
    let s1 := if (s.cl cl).scratchWays = ways then s else s.setScratchWays cl ways
    (s1.updCl cl fun k => { k with watchdog := watchdog, pfDepth := depth }, .ok)

def execClusterConfig (c : CmdRef) (cluster scratchWays watchdog pfDepth : Nat) (s : State) : Out :=
  s.command c 0x0406 [(1, cluster), (1, scratchWays), (4, watchdog), (1, pfDepth)]
    (clusterConfigBody cluster scratchWays watchdog pfDepth)

def ClState.code (x : ClState) : Nat := match x with
  | .empty => 0
  | .drained => 1
  | .admitted => 2
  | .draining => 3
  | .failed => 4

/-- The result of CORE_STATS (R287, R557, log 26): the cluster's state and version, whether the core is retired, then the
core's and its L2's counters, and the corrected and uncorrectable errors per array. -/
def State.coreImage (s : State) (c : Nat) : List Byte :=
  let k := s.cl (clusterOfCore c)
  let x := s.core c
  layout ([(1, k.st.code), (1, x.retired.toNat), (2, k.version), (8, x.starveGrants.toNat), (8, x.l1iHits.toNat),
      (8, x.l1iMisses.toNat), (8, x.l1dHits.toNat), (8, x.l1dMisses.toNat), (8, x.pfIssued.toNat), (8, x.pfDropped.toNat),
      (8, k.l2.hits.toNat), (8, k.l2.misses.toNat), (8, k.l2.corrected.toNat), (8, k.l2.uncorrectable.toNat)]
    ++ (List.range 8).flatMap fun a => [(8, (SMap.get 0 x.corr a).toNat), (8, (SMap.get 0 x.uncorr a).toNat)])

def coreStatsBody (c : Nat) (s : State) : State × Ans := if 191 < c then (s, badArg) else (s, .data (s.coreImage c))

def execCoreStats (c : CmdRef) (core : Nat) (s : State) : Out := s.command c 0x0407 [(1, core)] (coreStatsBody core)

end Sys2Proof.Machine
end

