-- ==== Sys2Proof/Machine/Hbm.lean ====
section
/-!
DEFINITION. The HBM controllers: requests and arbitration, page policy, refresh, power-down and self-refresh, errors,
patrol scrub, training, retirement, and the HBM commands (R449-R474).
-/

namespace Sys2Proof.Machine

/-! ### Ports (R452, R459) -/

/-- Priority and target of a port (R459). -/
def hbmPortDef (p : Nat) : HbmPort :=
  ⟨[3, 5, 6, 6, 2, 2, 5, 5, 5, 7, 4, 4, 0, 1, 1, 0].getD p 0,
    [2000, 1000, 400, 400, 10000, 50000, 500, 500, 500, 1000, 2000, 2000, 1000000, 100000, 100000, 0].getD p 0⟩

def State.hbmPort (s : State) (p : Nat) : HbmPort := (SMap.get none s.hbm.qos p).getD (hbmPortDef p)

/-- The uses a port may reach (R452, log 50): its own unit's region; images, global data and customer regions for cores
and hosts; every region for the Pumphouse, scrub, migration and debug. -/
def hbmAllowed (port use : Nat) : Bool :=
  match port with
  | 0 | 1 => use = 6
  | 2 => use = 0
  | 3 => use = 1
  | 4 => use = 2
  | 5 => use = 5
  | 9 | 12 | 13 | 14 => true
  | _ => use = 3 || use = 4 || 8 ≤ use

/-! ### Requests (R451, R460) -/

/-- The answer a port receives for a part. -/
def State.hbmAnswer (s : State) (port addr : Nat) (bytes : List Byte) (poison : Bool) : State :=
  let l := (SMap.get [] s.hbm.answers port).filter fun e => e.1 ≠ addr
  s.updHbm fun h => { h with answers := SMap.set [] h.answers port (l ++ [(addr, bytes, poison)]) }

/-- HBM_REQUEST: 32 bytes to 4 KiB, naturally aligned (R451); a write's data may end within the last unit. A stray access
reads ones and writes nothing (R452). -/
def execHbmRequest (port addr len : Nat) (write : Bool) (data : List Byte) (s : State) : Out :=
  if 15 < port ∨ !([32, 64, 128, 256, 512, 1024, 2048, 4096] : List Nat).contains len ∨ addr % len ≠ 0 ∨ hbmSize ≤ addr
      ∨ (write ∧ (len < data.length ∨ data.isEmpty)) ∨ (s.stack 0).mode = .training then done s
  else
    let s0 := s.updHbm fun h => { h with answers := SMap.set [] h.answers port [] }
    match s.mem.region addr with
    | some r =>
      if hbmAllowed port r.use then
        let ps := s.hbmPieces addr len
        let pcs := (ps.map Prod.fst).foldl insNat []
        done (pcs.foldl (fun (acc : State) pc => acc.hbmPart port write data addr pc ps) s0)
      else
        let s1 := s0.updHbm fun h => { h with stray := h.stray + 1 }
        done (if write then s1 else s1.hbmAnswer port addr (List.replicate len 0xFF) false)
    | none =>
      let s1 := s0.updHbm fun h => { h with stray := h.stray + 1 }
      done (if write then s1 else s1.hbmAnswer port addr (List.replicate len 0xFF) false)

/-! ### Arbitration (R460-R462) -/

/-- Spill credit and the cap bucket grow at 800 GB/s; credit is in 1/38,122,560 byte, at most 16 KiB, and grows at half
rate on a hot stack (R461, R538). -/
def State.creditNow (s : State) (pc : Nat) : Nat :=
  let x := s.pc pc
  let rate := 800 * (38122560 / (64 - s.hbm.retired.length)) / (if (s.stack (stackOf pc)).hot then 2 else 1)
  Nat.min (16384 * 38122560) (x.credit + (s.iv - x.creditNs) * rate)

def HbmReq.bytes (r : HbmReq) : Nat := total (r.pieces.map (·.2))

/-- Urgency of a request (R460). -/
def State.urgency (s : State) (r : HbmReq) : Nat :=
  let t := (s.hbmPort r.port).target
  let w := s.iv - r.arrived
  if t = 0 then 0 else if t ≤ w then 3 else if 3 * t ≤ 4 * w then 2 else if t ≤ 2 * w then 1 else 0

/-- Banks and rows of a request at its pseudo-channel. -/
def State.banksOf (s : State) (r : HbmReq) : List (Nat × Nat) :=
  (r.pieces.filterMap fun e => (s.hbmPlace e.1).map fun x => (bankOf x.2, rowOf x.2)).eraseDups

def PcSt.bank (x : PcSt) (b : Nat) : BankSt := SMap.get {} x.banks b
def PcSt.setBank (x : PcSt) (b : Nat) (k : BankSt) : PcSt := { x with banks := SMap.set {} x.banks b k }

/-- Every row it needs is open. -/
def State.rowHit (s : State) (x : PcSt) (r : HbmReq) : Bool :=
  (s.banksOf r).all fun e => (x.bank e.1).isOpen && (x.bank e.1).row = some e.2

/-- The 32-byte units of a request. -/
def HbmReq.units (r : HbmReq) : List Nat := r.pieces.flatMap fun e => unitsOf e.1 e.2

/-- Requests that nothing orders behind another one: those of one port to the same unit keep their order (R460). -/
def unordered (l seen : List HbmReq) : List HbmReq :=
  match l with
  | [] => []
  | r :: rest =>
    let ok := seen.all fun q => q.port ≠ r.port || r.units.all fun u => !q.units.contains u
    if ok then r :: unordered rest (seen ++ [r]) else unordered rest (seen ++ [r])

def isSpill (r : HbmReq) : Bool := r.port ≤ 1

/-- A port that R538 holds on a hot stack. -/
def State.portHeld (s : State) (pc port : Nat) : Bool := (s.stack (stackOf pc)).hot && (port = 12 || port = 15)

/-- A bank has served 16 row hits in a row while another request for it waits (R458). -/
def State.hitLimit (s : State) (x : PcSt) (r : HbmReq) : Bool :=
  s.rowHit x r && (s.banksOf r).any fun e => 16 ≤ (x.bank e.1).hits
    && x.queue.any fun q => !s.rowHit x q && (s.banksOf q).any fun f => f.1 = e.1

/-- Requests that could be chosen but for batching. -/
def State.eligible (s : State) (pc : Nat) : List HbmReq :=
  let x := s.pc pc
  (unordered x.queue []).filter fun r =>
    !s.portHeld pc r.port && !s.hitLimit x r && (!isSpill r || r.bytes ≤ s.capNow)

/-- Writes issued in the batch that stands at this choice; none outside one (R460). -/
def State.batchNow (s : State) (pc : Nat) : Option Nat :=
  let x := s.pc pc
  let el := s.eligible pc
  let writes := (x.queue.filter (·.write)).length
  let reads := el.filter fun r => !r.write
  match x.batch with
  | some n =>
    if 16 ≤ n ∨ writes = 0 ∨ reads.any fun r => s.urgency r = 3 then
      (if 0 < writes ∧ reads.isEmpty then some 0 else none)
    else some n
  | none => if 0 < writes ∧ (24 ≤ writes ∨ reads.isEmpty) then some 0 else none

/-- Ready requests: reads outside a batch; in one, writes and the refill reads that have credit (log 51). -/
def State.readyReqs (s : State) (pc : Nat) : List HbmReq :=
  let credit := s.creditNow pc
  match s.batchNow pc with
  | none => (s.eligible pc).filter fun r => !r.write
  | some _ => (s.eligible pc).filter fun r => r.write || (r.port = 1 && r.bytes * 38122560 ≤ credit)

/-- Rank of a request, higher first: urgency, priority, row hit (R460). -/
def State.rank (s : State) (pc : Nat) (r : HbmReq) : Nat :=
  s.urgency r * 16 + (s.hbmPort r.port).priority * 2 + (s.rowHit (s.pc pc) r).toNat

/-- The best-ranked request, the oldest among equals. -/
def bestReq (f : HbmReq → Nat) (l : List HbmReq) (best : Option HbmReq) : Option HbmReq :=
  match l with
  | [] => best
  | r :: rest => match best with
    | none => bestReq f rest (some r)
    | some b => if f b < f r ∨ (f b = f r ∧ r.arrived < b.arrived) then bestReq f rest (some r) else bestReq f rest best

/-- The request a pseudo-channel chooses (R460). -/
def State.chooseReq (s : State) (pc : Nat) : Option HbmReq :=
  let l := s.readyReqs pc
  let spill := l.filter fun r => isSpill r && decide (r.bytes * 38122560 ≤ s.creditNow pc)
  match spill.find? fun r => r.port = 1 with
  | some r => some r
  | none => match spill.head? with
    | some r => some r
    | none => bestReq (s.rank pc) l none

/-! ### Page policy (R458) -/

/-- One access of a bank to a row at a time. -/
def BankSt.access (k : BankSt) (row now : Nat) : BankSt :=
  let p := if k.row = some row then Nat.min 3 (k.p + 1) else k.p - 1
  { k with
    p := p, row := some row, isOpen := 2 ≤ p, lastNs := now
    hits := if k.isOpen ∧ k.row = some row then k.hits + 1 else 0 }

/-- A refresh closes the bank's row. -/
def BankSt.refresh (k : BankSt) : BankSt := { k with isOpen := false, hits := 0 }

/-- Training sets every predictor to 2, closes the rows and records the temperature; the rows last accessed stay recorded, and
refreshes due (R458, R464, R469). -/
def PcSt.train (x : PcSt) (temp now : Nat) : PcSt :=
  let due := fun (k : BankSt) => ({ row := k.row, postponed := k.postponed, forced := k.forced } : BankSt)
  { x with banks := x.banks.foldl (fun m e => SMap.set {} m e.1 (due e.2)) [], trainTemp := temp, trackNs := now, parity := false }

/-! ### Errors (R399, R445, R467) -/

/-- A damaged unit of a ledger slot: dropped before the signature, listed after it (R445). -/
def State.ledgerUnit (s : State) (off : Nat) : State :=
  match s.ledger.ring with
  | none => s
  | some r =>
    let slot := off / 8388608
    let u := off % 8388608 / 32
    let keys := (List.range 4).map (4 * u + ·)
    let hurt := fun (e : LEpoch) => if e.no % r.slots ≠ slot then e
      else if e.phase = .signed then { e with badUnits := insNat e.badUnits u }
      else { e with damaged := true, slot := keys.foldl SMap.erase e.slot }
    let open_ := fun (e : LEpoch) => e.no % r.slots = slot && e.phase ≠ .signed
    let l := s.ledger
    let es := (l.openEp.toList ++ l.closing.toList ++ l.recs).filter open_
    let s1 := s.updLedger fun l => { l with
      openEp := l.openEp.map hurt, closing := l.closing.map hurt, recs := l.recs.map hurt }
    es.foldl (fun (acc : State) e => keys.foldl (fun (a : State) k =>
      a.event 0x0603 [(1, 1), (2, k / 16), (1, k % 16), (8, e.no)]) acc) s1

/-- The exact-match entry at an offset of its region. -/
def State.emAt (s : State) (off : Nat) : Option (Nat × EmTbl) :=
  s.tables.em.findSome? fun e => match e.2 with
    | some x => if x.base ≤ off ∧ off < x.base + emBytes x.log2 then some (e.1, x) else none
    | none => none

/-- What an uncorrectable unit does to the unit that owns its region (R399, R445). -/
def State.regionHurt (s : State) (use off : Nat) : State :=
  match use with
  | 0 => (s.updTables fun t => t.setBack (off / 64) (List.replicate 64 0)).tableError 0x80 3 (off / 256)
  | 1 => match s.emAt off with
    | some (k, x) =>
      let i := (off - x.base) / 64
      (s.setEmt k (some (x.put i none))).tableError (0x40 + k) 2 i
    | none => s
  | 2 =>
    let i := off / 32 * 2
    (s.updTables fun t => { t with counters := [i, i + 1].foldl (fun m k =>
      SMap.set {} m k { SMap.get {} m k with backP := 0, backB := 0, lost := true }) t.counters }).tableError 0x90 4 i
  | 5 => s.ledgerUnit off
  | _ => s

/-- A request meets an uncorrectable unit at an address (R467). -/
def State.hbmUncorrectable (s : State) (addr port : Nat) : State :=
  let s1 := s.hbmError addr port
  match s1.mem.region addr with
  | some r => s1.regionHurt r.use (addr - r.base)
  | none => s1

/-! ### Issue (R450, R458, R460, R466) -/

/-- The request leaves its queue, and what it did is counted. -/
def State.hbmServed (s : State) (pc : Nat) (r : HbmReq) (batch : Option Nat) : State :=
  let now := s.iv
  let credit := s.creditNow pc
  let cap := s.capNow
  let s1 := s.updPc pc fun x =>
    let y := { x with
      queue := x.queue.erase r, parity := false
      batch := if r.write then batch.map (· + 1) else batch
      credit := if isSpill r then credit - r.bytes * 38122560 else credit, creditNs := now
      banks := (s.banksOf r).foldl (fun m e => SMap.set {} m e.1 ((SMap.get {} m e.1).access e.2 now)) x.banks }
    let z := PcSt.enter y
    { z with idleNs := if z.queue.isEmpty then now else z.idleNs }
  s1.updHbm fun h => { h with
    capUsed := (if isSpill r then r.bytes else 0) + (262144 - cap), capNs := now
    portBytes := SMap.set 0 h.portBytes r.port (SMap.get 0 h.portBytes r.port + BitVec.ofNat 64 r.bytes)
    portReqs := SMap.set 0 h.portReqs r.port (SMap.get 0 h.portReqs r.port + 1)
    portWait := SMap.set 0 h.portWait r.port (SMap.get 0 h.portWait r.port + BitVec.ofNat 64 (now - r.arrived)) }

/-- The pieces of a write with their bytes. -/
def writePieces (ps : List (Nat × Nat)) (data : List Byte) : List (Nat × List Byte) :=
  match ps with
  | [] => []
  | p :: rest => (p.1, data.take p.2) :: writePieces rest (data.drop p.2)

/-- The request acts on the memory: a write keeps the mark of a unit it does not cover whole (R451, R467). -/
def State.hbmAct (s : State) (r : HbmReq) : State :=
  if r.write then s.updMem fun m => (writePieces r.pieces r.data).foldl (fun (a : HbmMem) e => a.store e.1 e.2) m
  else r.pieces.foldl (fun (acc : State) e =>
    acc.hbmAnswer r.port e.1 (s.mem.read e.1 e.2) (s.mem.poisoned e.1 e.2)) s

/-- The request reads units: a read, or a write that covers a unit in part. -/
def HbmReq.reads (r : HbmReq) : Bool := !r.write || (r.data.length % 32 ≠ 0)

/-- A parity error: the command is issued again; two in a row retrain the pseudo-channel (R450). -/
def State.caParity (s : State) (pc : Nat) : State :=
  let temp := (s.stack (stackOf pc)).temp
  let s1 := (s.updPc pc fun x => { x with caParity := x.caParity + 1 }).errCnt 13 fun e => { e with corrected := e.corrected + 1 }
  if (s.pc pc).parity then s1.updPc pc fun x => x.train temp s.iv
  else s1.updPc pc fun x => { x with parity := true }

/-- A pseudo-channel of a running stack that is awake. -/
def State.pcRuns (s : State) (pc : Nat) : Bool :=
  pc < 64 && (s.stack (stackOf pc)).mode = .active && !s.hbm.retired.contains pc && !(s.pc pc).asleep
    && decide ((s.pc pc).wakeNs ≤ s.iv)

/-- HBM_ISSUE. `err` is what the stack reports for the command: a parity error, or a corrected or uncorrectable unit, the
first that it reads. -/
def execHbmIssue (pc : Nat) (err : HbmErr) (s : State) : Out :=
  if !s.pcRuns pc then done s
  else match (s.pc pc).banks.find? fun e => e.2.forced with
    | some e => done (s.updPc pc fun x => x.setBank e.1 { e.2.refresh with forced := false })
    | none => match s.chooseReq pc with
      | none => done s
      | some r =>
        if err = .caParity then done (s.caParity pc)
        else
          let a := match r.pieces with
            | p :: _ => p.1
            | [] => 0
          let s1 := s.hbmServed pc r (s.batchNow pc)
          let s2 := if !r.reads then s1 else match err with
            | .corrected => (s1.updPc pc fun x => { x with corrected := x.corrected + 1 }).errCnt 13
                fun e => { e with corrected := e.corrected + 1 }
            | .uncorrectable => s1.hbmUncorrectable a r.port
            | _ => s1
          done (s2.hbmAct r)

/-- ROW_TIMEOUT: an open row with no access for ROW_TIMEOUT is closed (R458). -/
def execRowTimeout (pc bank : Nat) (s : State) : Out :=
  let k := (s.pc pc).bank bank
  if !k.isOpen ∨ s.iv < k.lastNs + s.hbm.rowTimeout then done s
  else done (s.updPc pc fun x => x.setBank bank { k with isOpen := false })

/-! ### Refresh, temperature, power (R464, R465, R538) -/

/-- REFRESH_DUE: in an idle gap the bank is refreshed, what was postponed included (log 52); otherwise the refresh is
postponed, and the ninth is forced. -/
def execRefreshDue (pc bank : Nat) (idle : Bool) (s : State) : Out :=
  if 63 < pc ∨ 63 < bank ∨ (s.stack (stackOf pc)).mode ≠ .active ∨ s.hbm.retired.contains pc then done s
  else
    let k := (s.pc pc).bank bank
    if idle then done (s.updPc pc fun x => x.setBank bank { k.refresh with postponed := 0 })
    else if k.postponed < 8 then done (s.updPc pc fun x => x.setBank bank { k with postponed := k.postponed + 1 })
    else done (s.updPc pc fun x => x.setBank bank { k with forced := true })

/-- The level of HBM_THERMAL. -/
def hbmLevel (temp : Nat) : Nat := if 95 ≤ temp then 2 else if 90 ≤ temp then 1 else 0

/-- HBM_TEMP_READ. -/
def execHbmTempRead (stack temp : Nat) (s : State) : Out :=
  if 1 < stack ∨ 255 < temp then done s
  else
    let x := s.stack stack
    let s1 := s.updStack stack fun y => { y with
      temp := temp, level := hbmLevel temp, hot := if 95 ≤ temp then true else if temp < 90 then false else y.hot }
    if hbmLevel temp = x.level then done s1 else done (s1.event 0x0C02 [(1, stack), (1, temp), (1, hbmLevel temp)])

/-- PC_POWER_DOWN: the queue has been empty for 200 ns. -/
def execPcPowerDown (pc : Nat) (s : State) : Out :=
  if !s.pcRuns pc ∨ !(s.pc pc).queue.isEmpty ∨ s.iv < (s.pc pc).idleNs + 200 then done s
  else done (s.updPc pc fun x => { x with asleep := true })

/-- The next digest passes over tables that HBM holds (R384, R401): the exact-match tables. -/
def State.scrubPasses (s : State) : List Nat :=
  s.tables.scrub.filterMap fun e => match tblKind e.1 with
    | some (.em n) =>
      let blocks := (s.tblSize (.em n) + 255) / 256
      if !e.2.enable ∨ e.2.next ≠ 0 ∨ blocks = 0 then none else some (e.2.lastDt + e.2.period * 1000000000 / blocks)
    | _ => none

/-- The next known event that needs the HBM stacks: a seal, the next patrol pass of a pseudo-channel, or the next digest
pass of an exact-match table (R536, log 53). -/
def State.stackEvents (s : State) (k : Nat) : List Nat :=
  let sealAt := match s.ledger.closing with
    | some e => [e.sealAt]
    | none => match s.ledger.openEp with
      | some e => [e.endAt + 1000000 * s.ledger.graceMs]
      | none => []
  sealAt ++ s.scrubPasses ++ ((List.range 32).map (32 * k + ·)).filterMap fun p =>
    if (s.pc p).scrubNext = 0 then some (s.pc p).scrubDt else none

/-- STACK_SELF_REFRESH: idle for 10 µs, allowed, and no known event within twice the exit latency (R465, R536). -/
def execStackSelfRefresh (stack : Nat) (s : State) : Out :=
  let pcs := (List.range 32).map (32 * stack + ·)
  if 1 < stack ∨ (s.stack stack).mode ≠ .active ∨ !s.selfRefreshAllowed
      ∨ pcs.any (fun p => !(s.pc p).queue.isEmpty || decide (s.iv < (s.pc p).idleNs + 10000))
      ∨ (s.stackEvents stack).any (fun d => decide (s.dt ≤ d ∧ d < s.dt + 2000)) then done s
  else done (s.updStack stack fun x => { x with mode := .selfRefresh })

/-! ### Patrol scrub and training (R468, R469) -/

/-- 32-byte units of a pseudo-channel. -/
def unitsPerPc : Nat := 67108864

/-- The end of a pass: the rows corrected become the earlier pass's, and the on-die error count is read (R468). -/
def State.passEnd (s : State) (pc : Nat) : State :=
  let d := s.draw
  d.2.updPc pc fun x => { x with
    scrubNext := 0, scrubDt := s.dt, rowsBefore := x.rowsNow, rowsNow := [], onDie := d.1 }

/-- A row corrected by the scrub; in two consecutive passes it raises HBM_ROW_ALERT. -/
def State.rowCorrected (s : State) (pc bank row : Nat) : State :=
  let k := bank * 32768 + row
  let x := s.pc pc
  let s1 := (s.updPc pc fun y => { y with corrected := y.corrected + 1, rowsNow := insNat y.rowsNow k }).errCnt 13
    fun e => { e with corrected := e.corrected + 1 }
  if x.rowsBefore.contains k ∧ !x.rowsNow.contains k then
    s1.event 0x0C01 [(1, pc), (1, bank / 16), (1, bank % 16), (2, row)]
  else s1

/-- PATROL_SCRUB: the next unit is read at the pace of SCRUB_PERIOD (R468); a sleeping part is woken first. -/
def execPatrolScrub (pc : Nat) (err : HbmErr) (s : State) : Out :=
  let x := s.pc pc
  let period := s.hbm.scrubHours * 3600 * secNs
  if 63 < pc ∨ s.hbm.retired.contains pc ∨ (s.stack (stackOf pc)).hot ∨ (s.dt - x.scrubDt) * unitsPerPc < x.scrubNext * period
  then done s
  else if !s.pcRuns pc then
    (if (s.stack (stackOf pc)).mode = .active ∨ (s.stack (stackOf pc)).mode = .selfRefresh then done (s.wakePc pc) else done s)
  else if err = .caParity then done (s.caParity pc)
  else
    let a := 32 * x.scrubNext
    let s1 := s.updPc pc fun y => { y with scrubNext := y.scrubNext + 1, parity := false }
    let s2 := match err with
      | .corrected => s1.rowCorrected pc (bankOf a) (rowOf a)
      | .uncorrectable => (match s1.hbmAt pc a with
          | some h => s1.hbmUncorrectable h 12
          | none => (s1.updPc pc fun y => { y with uncorrectable := y.uncorrectable + 1 }).hbmErrorEvent pc a 12)
      | _ => s1
    done (if (s2.pc pc).scrubNext = unitsPerPc then s2.passEnd pc else s2)

/-- TIMING_TRACK: every 64 ms of memory clock (R469). -/
def execTimingTrack (pc : Nat) (s : State) : Out :=
  if !s.pcRuns pc ∨ s.iv < (s.pc pc).trackNs + 64000000 then done s
  else done (s.updPc pc fun x => { x with trackNs := s.iv })

/-- TEMP_RETRAIN: the stack's temperature has moved 15 °C since the last full training (R469). -/
def execTempRetrain (pc : Nat) (s : State) : Out :=
  let temp := (s.stack (stackOf pc)).temp
  let old := (s.pc pc).trainTemp
  if !s.pcRuns pc ∨ (temp < old + 15 ∧ old < temp + 15) then done s
  else done (s.updPc pc fun x => x.train temp s.iv)

/-! ### Retirement (R471) -/

/-- The granules, one number in each pseudo-channel, that HBM space from `base` occupies. -/
def granulesOf (base size : Nat) : List Nat := (List.range (size / 67108864)).map (base / 67108864 + ·)

/-- Spare granules that hold nothing yet, of pseudo-channels in service other than `pc`. -/
def State.spareGranules (s : State) (pc : Nat) : List Nat :=
  (s.hbm.pools.flatMap fun e => granulesOf e.1 e.2).flatMap fun g =>
    ((List.range 64).filter fun p => p ≠ pc && !s.hbm.retired.contains p).filterMap fun p =>
      if s.hbm.redirects.any fun r => r.2 = p * 2048 + g + 1 then none else some (p * 2048 + g)

/-- Give each of these contents a spare granule. -/
def mapGranules (redirects : SMap Nat) (what spare : List Nat) : SMap Nat :=
  match what, spare with
  | w :: ws, g :: gs => mapGranules (SMap.set 0 redirects w (g + 1)) ws gs
  | _, _ => redirects

/-- What the granules of a pseudo-channel hold that must be copied: region granules outside the cistern, and redirected
data of an earlier retirement; and the unassigned granules, which are only mapped. -/
def State.granuleWork (s : State) (pc : Nat) : List Nat × List Nat :=
  let inPool := s.hbm.pools.flatMap fun e => granulesOf e.1 e.2
  let own := (List.range 2048).filter fun g => !inPool.contains g
  let use := fun g => (s.mem.region (67108864 * g)).map (·.use)
  let copy := own.filter fun g => (use g).isSome && use g ≠ some 6
  let plain := own.filter fun g => (use g).isNone
  let moved := s.hbm.redirects.filterMap fun r => if (r.2 - 1) / 2048 = pc then some r.1 else none
  (copy.map (pc * 2048 + ·) ++ moved, plain.map (pc * 2048 + ·))

/-- A part of a request, `p` its address and length, reaches the pseudo-channel that now holds the address (R457). -/
def State.redirectPart (s : State) (r : HbmReq) (p : Nat × Nat) (data : List Byte) : State :=
  match s.hbmPlace p.1 with
  | some x => (s.wakePc x.1).updPc x.1 fun y => PcSt.takeIn y [{ r with pieces := [p], data := data }]
  | none => s

/-- The requests that a retired pseudo-channel still holds go to where its granules now lie: none is lost (R457, R471). -/
def State.redirectQueue (s : State) (pc : Nat) : State :=
  let x := s.pc pc
  (x.queue ++ x.waiting).foldl (fun acc r =>
      (r.pieces.zip (writePieces r.pieces r.data)).foldl (fun a e => a.redirectPart r e.1 e.2.2) acc)
    (s.updPc pc fun y => { y with queue := [], waiting := [] })

/-- The retirement takes effect: the last granule is copied (R471). -/
def State.retireEnd (s : State) (m : Migration) : State :=
  (((s.updHbm fun h => { h with retired := insNat h.retired m.pc, migration := none }).redirectQueue m.pc).event 0x0C03
    [(1, m.pc), (1, 1)]).answer m.c .ok

/-- HBM_PC_RETIRE (R471). -/
def pcRetireBody (c : CmdRef) (pc : Nat) (s : State) : State × Ans :=
  if 63 < pc then (s, badArg)
  else if s.hbm.retired.contains pc then (s, .ok)
  else match s.hbm.migration with
    | some m => if m.c = c then (s, .later) else (s, busy)
    | none =>
      if 4 ≤ s.hbm.retired.length ∨ s.cistern.sizeGib < 10 then (s, noRoom)
      else if s.cistern.shrinking then (s, busy)
      else
        let old := s.cistern.sizeGib
        ((s.updCistern fun k => { k with
            limit := blocksOfGib (old - 2), shrinking := true, shrink := none, shrinkCause := 1
            fencedPcs := insNat k.fencedPcs pc }).updHbm fun h => { h with
          migration := some ⟨pc, c, s.iv, old, none⟩ }, .later)

def execHbmPcRetire (c : CmdRef) (pc : Nat) (s : State) : Out := s.command c 0x0C05 [(1, pc)] (pcRetireBody c pc)

/-- RETIRE_DRAIN_DONE: no block above the limit or on the pseudo-channel is in use. The freed space becomes a spare pool,
unassigned granules are mapped, and the copies begin. -/
def execRetireDrainDone (s : State) : Out :=
  match s.hbm.migration with
  | none => done s
  | some m =>
    let k := s.cistern
    let lim := blocksOfGib (m.oldGib - 2)
    if !s.phRuns ∨ m.todo.isSome ∨ k.usedBlocks.any (fun b => decide (lim ≤ b) || b % 64 = m.pc) then done s
    else
      let s1 := if k.shrinking then
          ((s.cisternResize (m.oldGib - 2)).updCistern fun x => { x with shrinking := false }).event 0x0704
            [(1, m.oldGib - 2), (1, 1)]
        else s
      let base := s1.regionAddr 6 ((m.oldGib - 2) * 1073741824)
      let s2 := s1.updHbm fun h => { h with pools := h.pools ++ [(base, 2147483648)] }
      let w := s2.granuleWork m.pc
      let spare := s2.spareGranules m.pc
      let s3 := s2.updHbm fun h => { h with
        redirects := mapGranules h.redirects w.2 (spare.drop w.1.length)
        migration := some { m with todo := some w.1 } }
      done (s3.event 0x0C03 [(1, m.pc), (1, 0)])

/-- RETIRE_WAIT_EXPIRY: the drain outlasts RETIRE_WAIT; the limit and the fence are lifted. -/
def execRetireWaitExpiry (s : State) : Out :=
  match s.hbm.migration with
  | none => done s
  | some m =>
    if !s.phRuns ∨ m.todo.isSome ∨ s.iv < m.startNs + 1000000 * s.hbm.retireWaitMs then done s
    else
      let s1 := (s.cisternResize m.oldGib).updCistern fun k => { k with
        shrinking := false, fencedPcs := k.fencedPcs.filter (· ≠ m.pc) }
      let s2 := (s1.updHbm fun h => { h with migration := none }).event 0x0C03 [(1, m.pc), (1, 2)]
      done (s2.answer m.c timedOut)

/-- GRANULE_COPY_DONE: the granule's redirect takes effect; the last one completes the retirement. -/
def execGranuleCopyDone (s : State) : Out :=
  match s.hbm.migration with
  | none => done s
  | some m => match m.todo with
    | some (w :: rest) =>
      if !s.phRuns then done s
      else
        let s1 := s.updHbm fun h => { h with
          redirects := mapGranules h.redirects [w] (s.spareGranules m.pc)
          migration := some { m with todo := some rest } }
        done (if rest.isEmpty then s1.retireEnd m else s1)
    | _ => done s

/-! ### The partition (R452-R455) -/

/-- The default partition (R453) with a cistern of this many GiB. -/
def partitionOf (em images global ledger cistern : Nat) : List Region :=
  let b1 := 4294967296
  let b2 := b1 + em
  let b3 := b2 + 67108864
  let b4 := b3 + images
  let b5 := b4 + global
  let b6 := b5 + ledger
  [⟨0, 0, b1, 0, 0⟩, ⟨1, b1, em, 0, 0⟩, ⟨2, b2, 67108864, 0, 0⟩, ⟨3, b3, images, 0, 2⟩, ⟨4, b4, global, 0, 3⟩,
   ⟨5, b5, ledger, 0, 0⟩, ⟨6, b6, cistern, 1, 0⟩, ⟨7, 0x1FC0000000, 1073741824, 3, 0⟩].filter fun r => r.size ≠ 0

def mib : Nat := 1048576

/-- Nothing stands against a new layout (R454). -/
def State.layoutFree (s : State) : Bool :=
  (s.net.ports.all fun e => !e.2.enabled) && s.ledger.ring.isNone && s.emTables.isEmpty
    && (s.clusters.all fun e => e.2.st ≠ .admitted) && (s.mem.regions.all fun r => r.use < 8)
    && s.hbm.retired.isEmpty && s.hbm.migration.isNone

/-- LAYOUT: sizes in MiB of deep exact-match, images, global data, ledger and cistern. -/
def layoutBody (sizes : List Nat) (s : State) : State × Ans :=
  match sizes with
  | [em, im, gl, le, ci] =>
    let regs := partitionOf (em * mib) (im * mib) (gl * mib) (le * mib) (ci * mib)
    if [em, im, gl, le, ci].any (· % 64 ≠ 0) ∨ 32768 < em ∨ im < 64 ∨ 1024 < im ∨ 65536 < gl ∨ le < 2048 ∨ 65536 < le
        ∨ ci < 8192 ∨ 65536 < ci ∨ ci % 1024 ≠ 0 then (s, badArg)
    else if regs = s.mem.regions then (s, .ok)
    else if !s.layoutFree then (s, wrongState)
    else if hbmSize < total (regs.map (·.size)) then (s, noRoom)
    else ((s.updMem fun m => { m with regions := regs }).updCistern fun k => { k with
      sizeGib := ci / 1024, limit := blocksOfGib (ci / 1024) }, .ok)
  | _ => (s, badArg)

/-- CREATE: below the lowest region that lies above the unassigned space (R455). -/
def createBody (id order right : Nat) (size : Nat) (s : State) : State × Ans :=
  let n := size * mib
  match s.mem.regions.find? fun r => r.use = 8 + id with
  | some r => if r.size = n ∧ r.order = order ∧ r.right = right then (s, .ok) else (s, wrongState)
  | none =>
    let top := s.regionAddr 6 0 + s.cistern.sizeGib * 1073741824 + total (s.hbm.pools.map Prod.snd)
    let low := (s.mem.regions.filter fun r => top ≤ r.base).foldl (fun m r => Nat.min m r.base) hbmSize
    if low < top + n then (s, noRoom)
    else (s.updMem fun m => { m with regions := m.regions ++ [⟨8 + id, low - n, n, order, right⟩] }, .ok)

/-- DESTROY: the lowest customer region; its contents are lost (R455). -/
def destroyBody (id : Nat) (s : State) : State × Ans :=
  match s.mem.regions.find? fun r => r.use = 8 + id with
  | none => (s, .ok)
  | some r =>
    if s.mem.regions.any fun x => 8 ≤ x.use && decide (x.base < r.base) then (s, wrongState)
    else (s.updMem fun m => { m with
      regions := m.regions.filter fun x => x.use ≠ 8 + id
      cells := m.cells.filter fun e => !(r.base ≤ e.1 && e.1 < r.base + r.size)
      poison := m.poison.filter fun u => !(r.base ≤ 32 * u && 32 * u < r.base + r.size) }, .ok)

/-- HBM_PARTITION. -/
def hbmPartitionBody (action id order right : Nat) (sizes : List Nat) (s : State) : State × Ans :=
  match action with
  | 0 => layoutBody sizes s
  | 1 =>
    let n := sizes.headD 0
    if id < 1 ∨ 5 < id ∨ 3 < order ∨ 3 < right ∨ n = 0 ∨ n % 64 ≠ 0 then (s, badArg) else createBody id order right n s
  | 2 => if id < 1 ∨ 5 < id then (s, badArg) else destroyBody id s
  | _ => (s, badArg)

def execHbmPartition (c : CmdRef) (action id order right : Nat) (sizes : List Nat) (s : State) : Out :=
  s.command c 0x0C00 ([(1, action), (1, id), (1, order), (1, right)] ++ sizes.map fun n => (4, n))
    (hbmPartitionBody action id order right sizes)

/-- The result of HBM_PARTITION_READ (log 26): for each region its use, order, right, base and size. -/
def State.partitionImage (s : State) : List Byte :=
  layout ((4, s.mem.regions.length) :: s.mem.regions.flatMap fun r =>
    [(1, r.use), (1, r.order), (1, r.right), (8, r.base), (8, r.size)])

def hbmPartitionReadBody (s : State) : State × Ans := (s, .data s.partitionImage)

def execHbmPartitionRead (c : CmdRef) (s : State) : Out := s.command c 0x0C01 [] hbmPartitionReadBody

/-! ### The other commands -/

/-- HBM_QOS_SET (R463). -/
def hbmQosBody (port priority target rowTimeout : Nat) (s : State) : State × Ans :=
  if 15 < port ∨ 7 < priority ∨ (target ≠ 0 ∧ (target < 100 ∨ 1000000 < target)) ∨ rowTimeout < 30 ∨ 1000 < rowTimeout then
    (s, badArg)
  else (s.updHbm fun h => { h with
    rowTimeout := rowTimeout
    qos := SMap.set none h.qos port
      (if (⟨priority, target⟩ : HbmPort) = hbmPortDef port then none else some ⟨priority, target⟩) }, .ok)

def execHbmQosSet (c : CmdRef) (port priority targetNs rowTimeoutNs : Nat) (s : State) : Out :=
  s.command c 0x0C02 [(1, port), (1, priority), (4, targetNs), (2, rowTimeoutNs)]
    (hbmQosBody port priority targetNs rowTimeoutNs)

/-- HBM_SCRUB_CONFIG (R468, R471). -/
def hbmScrubBody (hours wait : Nat) (s : State) : State × Ans :=
  if hours < 1 ∨ 168 < hours ∨ wait < 10 ∨ 60000 < wait then (s, badArg)
  else (s.updHbm fun h => { h with scrubHours := hours, retireWaitMs := wait }, .ok)

def execHbmScrubConfig (c : CmdRef) (periodH retireWaitMs : Nat) (s : State) : Out :=
  s.command c 0x0C03 [(1, periodH), (4, retireWaitMs)] (hbmScrubBody periodH retireWaitMs)

/-- The bank group of a repair. -/
def repairGroup (k : Nat) : Nat := k / 131072

/-- HBM_REPAIR (R470). `spare` is whether the stack reports a hard spare row in the bank group. -/
def hbmRepairBody (pc sid bank kind row : Nat) (spare : Bool) (s : State) : State × Ans :=
  let k := pc * 2097152 + (sid * 16 + bank) * 32768 + row
  if 63 < pc ∨ 3 < sid ∨ 15 < bank ∨ 1 < kind ∨ 32767 < row then (s, badArg)
  else if kind = 0 then
    (if s.hbm.soft.contains k then (s, .ok)
     else if s.hbm.soft.any fun x => repairGroup x = repairGroup k then (s, noRoom)
     else (s.updHbm fun h => { h with soft := insNat h.soft k }, .ok))
  else if s.hbm.hard.contains k ∨ s.hbm.hardDone.contains k then (s, .ok)
  else if !spare then (s, noRoom)
  else (s.updHbm fun h => { h with hard := insNat h.hard k }, .ok)

def execHbmRepair (c : CmdRef) (pc sid bank kind row : Nat) (spare : Bool) (s : State) : Out :=
  s.command c 0x0C04 [(1, pc), (1, sid), (1, bank), (1, kind), (2, row)] (hbmRepairBody pc sid bank kind row spare)

/-- The result of HBM_STATS (R474, log 26): HBM_STRAY; per pseudo-channel corrected, uncorrectable, CA_PARITY and on-die
counts; per port bytes, requests and nanoseconds waited. -/
def State.hbmImage (s : State) : List Byte :=
  layout ((8, s.hbm.stray.toNat) :: ((List.range 64).flatMap fun p =>
      let x := s.pc p
      [(8, x.corrected.toNat), (8, x.uncorrectable.toNat), (8, x.caParity.toNat), (8, x.onDie.toNat)])
    ++ (List.range 16).flatMap fun p => [(8, (SMap.get 0 s.hbm.portBytes p).toNat), (8, (SMap.get 0 s.hbm.portReqs p).toNat),
      (8, (SMap.get 0 s.hbm.portWait p).toNat)])

def hbmStatsBody (s : State) : State × Ans := (s, .data s.hbmImage)

def execHbmStats (c : CmdRef) (s : State) : Out := s.command c 0x0C06 [] hbmStatsBody

end Sys2Proof.Machine
end

