-- ==== Sys2Proof/Machine/Power.lean ====
section
/-!
DEFINITION. Power states and power loss: idle entries, wakes, the class tolerances, die sensors and the power-fail flush
(R531-R545).
-/

namespace Sys2Proof.Machine

/-! ### Classes (R532) -/

/-- A class has had no frame accepted for 1 ms, and no queue or wheel of it holds a copy. -/
def State.classQuiet (s : State) (c : Nat) : Bool :=
  (SMap.get 0 s.power.lastAccept c = 0 || decide (SMap.get 0 s.power.lastAccept c + 999999 < s.dt))
    && (s.egress.queues.all fun e => e.1 % 8 ≠ c || e.2.empty)
    && s.egress.pumps.all fun e => e.2.wheel.all fun w => w.2.queue % 8 ≠ c

/-- CLASS_IDLE: the class is no longer active, and T is recomputed. -/
def execClassIdle (cls : Nat) (s : State) : Out :=
  if 7 < cls ∨ !s.power.active.getLsbD cls ∨ !s.classQuiet cls then done s
  else done (s.updPower fun p => { p with active := p.active &&& ~~~((1 : BitVec 8) <<< cls) }).applyT

/-! ### Idle parts (R531, R536) -/

/-- Every thread of a core is parked. -/
def State.coreParked (s : State) (core : Nat) : Bool := (coreThreads core).all fun t => s.detState t = 2

/-- Known events of threads of a cluster: their delay entries and PARK wakes (R536). -/
def State.wakeEvents (s : State) (c : Nat) (threads : List Nat) : List Nat :=
  ((List.range 4).flatMap fun l =>
      ((SMap.get [] (s.cl c).task.lists l).filter fun e => threads.contains e.t).map fun e => e.wake.toNat)
    ++ threads.filterMap fun t => match (s.tr t).wait with
      | .park _ wake _ => if wake = 0 then none else some wake.toNat
      | _ => none

def State.clusterEvents (s : State) (c : Nat) : List Nat := s.wakeEvents c (clusterThreads c)
def State.coreEvents (s : State) (core : Nat) : List Nat := s.wakeEvents (clusterOfCore core) (coreThreads core)

/-- A known event falls due within twice an exit latency. -/
def soonDue (l : List Nat) (dt lat : Nat) : Bool := l.any fun d => decide (dt ≤ d ∧ d < dt + 2 * lat)

/-- CORE_GATE_IDLE: all 8 threads have been parked for 100 ns. -/
def execCoreGateIdle (core : Nat) (s : State) : Out :=
  let k := s.core core
  if 191 < core ∨ k.gated ∨ k.retired ∨ k.idleFor < 100 ∨ !s.coreParked core ∨ s.computeState < 1
      ∨ soonDue (s.coreEvents core) s.dt (exitNs 1) then done s
  else done (s.updCore core fun c => { c with gated := true })

/-- All 16 cores of a cluster are gated; a retired core takes no part. -/
def State.allGated (s : State) (c : Nat) : Bool :=
  (List.range 16).all fun k => (s.core (16 * c + k)).gated || (s.core (16 * c + k)).retired

/-- CLUSTER_RETENTION_IDLE. -/
def execClusterRetentionIdle (cluster : Nat) (s : State) : Out :=
  if 11 < cluster ∨ s.clPower cluster ≠ .active ∨ !s.allGated cluster ∨ (s.cl cluster).idleFor < 10000 ∨ s.computeState < 2
      ∨ soonDue (s.clusterEvents cluster) s.dt (exitNs 2) then done s
  else done (s.updCl cluster fun k => { k with power := .retention })

/-- Write every dirty line of a core's L1D to the L2, and invalidate both L1s; `poison` tells whether poisoned lines are
written too. -/
def State.coreFlush (s : State) (core : Nat) (poison : Bool) : State :=
  let dirty := (s.core core).l1d.filterMap fun e => e.2.bind fun ln =>
    if ln.dirty ≠ 0 ∧ (poison ∨ !ln.poison) then some ln else none
  let wb := ((s.core core).wb.map (·.ln)).filter fun ln => poison || !ln.poison
  let s1 := (dirty ++ wb).foldl (fun (acc : State) ln => acc.l2Merge (clusterOfCore core) ln) s
  s1.updCore core fun c => { c with l1d := [], l1dLru := [], l1i := [], l1iLru := [], mshr := [], wb := [], posted := [], streams := [] }

/-- Write every dirty line of the L2 to HBM and invalidate it. -/
def State.l2Flush (s : State) (c : Nat) (poison : Bool) : State :=
  let nos := (s.cl c).l2.lines.filterMap fun e => e.2.bind fun ln => if poison ∨ !ln.poison then some ln.no else none
  (nos.foldl (fun (acc : State) no => acc.l2Clean c no) s).updL2 c fun x => { x with lines := [], lru := [] }

/-- CLUSTER_OFF_IDLE: the caches are written back and lost. -/
def execClusterOffIdle (cluster : Nat) (s : State) : Out :=
  if 11 < cluster ∨ (s.clPower cluster ≠ .active ∧ s.clPower cluster ≠ .retention) ∨ !s.allGated cluster
      ∨ (s.cl cluster).idleFor < 100000 ∨ (s.cl cluster).scratchWays ≠ 0 ∨ s.computeState < 3
      ∨ soonDue (s.clusterEvents cluster) s.dt (exitNs 3) then done s
  else
    let s1 := ((List.range 16).map (16 * cluster + ·)).foldl (fun (acc : State) k => acc.coreFlush k true) s
    done ((s1.l2Flush cluster true).updCl cluster fun k => { k with power := .off })

/-- CLUSTER_WAKE_DISPATCH: a packet has waited 100 ns with no eligible cluster; the lowest-numbered sleeping cluster that
is admitted is woken (R534). -/
def execClusterWakeDispatch (s : State) : Out :=
  let stuck := s.order.list.any fun p =>
    decide ((s.rc p).listDt + 100 ≤ s.dt) && (List.range 12).all fun c => !s.clusterEligible p c (s.avoidCore p)
  if !stuck ∨ s.order.stopped then done s
  else match (List.range 12).find? fun c =>
      (s.cl c).st = .admitted && ((s.cl c).power = .retention || (s.cl c).power = .off) with
    | some c => done (s.wakeCluster c)
    | none => done s

/-- The latency of a sleeping part, and its known events: parts 0-11 are the clusters, 12 and 13 the stacks, 14-205 the cores
(log 53). -/
def State.sleepOf (s : State) (part : Nat) : Option (Nat × List Nat) :=
  if part < 12 then
    match (s.cl part).power with
    | .retention => some (exitNs 2, s.clusterEvents part)
    | .off => some (exitNs 3, s.clusterEvents part)
    | _ => none
  else if part < 14 then
    (if (s.stack (part - 12)).mode = .selfRefresh then some (1000, s.stackEvents (part - 12)) else none)
  else if part < 206 ∧ (s.core (part - 14)).gated ∧ s.clPower (clusterOfCore (part - 14)) = .active then
    some (exitNs 1, s.coreEvents (part - 14))
  else none

/-- PREWAKE: the earliest known event falls due after the part's exit latency or sooner (R536). -/
def execPrewake (part : Nat) (s : State) : Out :=
  match s.sleepOf part with
  | none => done s
  | some (lat, l) =>
    match l.filter (fun d => decide (d ≤ s.dt + lat)) with
    | [] => done s
    | d :: rest =>
      let first := rest.foldl Nat.min d
      let s1 := s.updPower fun p => { p with
        prewakes := p.prewakes + 1, prewakeLate := if first + 10 ≤ s.dt + lat then p.prewakeLate + 1 else p.prewakeLate }
      done (if part < 12 then s1.wakeCluster part else if part < 14 then s1.wakeStack (part - 12) else s1.ungate (part - 14))

/-! ### POWER_POLICY, POWER_STATUS (R532, R535, R545) -/

def powerPolicyBody (tol : List W32) (s : State) : State × Ans :=
  ((s.updPower fun p => { p with
    tol := (List.range 8).foldl (fun m c => SMap.set 2000 m c (tol.getD c 0).toNat) p.tol }).applyT, .ok)

def execPowerPolicy (c : CmdRef) (tol : List W32) (s : State) : Out :=
  s.command c 0x0800 (tol.map fun v => (4, v.toNat)) (powerPolicyBody tol)

def ClPower.code (x : ClPower) : Nat := match x with
  | .active => 0
  | .retention => 1
  | .off => 2
  | .waking => 3

/-- The result of POWER_STATUS (log 26): T (all ones for no limit) and the active classes; each cluster's state and gated
cores; the stacks' states; each sensor's level and temperature; the counters. -/
def State.powerImage (s : State) : List Byte :=
  let gated := fun c => ((List.range 16).filter fun k => (s.core (16 * c + k)).gated).length
  layout ([(4, s.powerT.getD 0xFFFFFFFF), (1, s.power.active.toNat)]
    ++ ((List.range 12).flatMap fun c => [(1, (s.clPower c).code), (1, gated c)])
    ++ [(1, (s.stack 0).mode.code), (1, (s.stack 1).mode.code)]
    ++ ((List.range 21).flatMap fun k =>
      let x : Sensor := SMap.get {} s.power.sensors k
      [(1, x.level), (1, x.temp)])
    ++ ((List.range 6).map fun k => (8, (SMap.get 0 s.power.wakes k).toNat))
    ++ [(8, s.power.prewakes.toNat), (8, s.power.prewakeLate.toNat)]
    ++ ((List.range 12).map fun c => (8, (SMap.get 0 s.power.throttled c).toNat))
    ++ [(8, s.ledger.flushes.toNat)])

def powerStatusBody (s : State) : State × Ans := (s, .data s.powerImage)

def execPowerStatus (c : CmdRef) (s : State) : Out := s.command c 0x0801 [] powerStatusBody

/-! ### Die sensors (R537) -/

def sensorThr (level : Nat) : Nat := [0, 100, 105, 115].getD level 0

/-- The level after a reading: it rises at a threshold and falls 5 °C below it. -/
def sensorLevel (old temp : Nat) : Nat :=
  if 115 ≤ temp ∨ (3 ≤ old ∧ 110 < temp) then 3
  else if 105 ≤ temp ∨ (2 ≤ old ∧ 100 < temp) then 2
  else if 100 ≤ temp ∨ (1 ≤ old ∧ 95 < temp) then 1
  else 0

/-- A sensor at CRITICAL: every port is sluiced, all clusters enter retention but those that are off, which stay so, and the
device is in FAULT. -/
def State.critical (s : State) : State :=
  let s1 := s.updNet fun n => { n with shut := true }
  let s2 := (List.range 12).foldl (fun (acc : State) c => if (acc.cl c).power = .off then acc else acc.updCl c fun k => { k with power := .retention }) s1
  if s2.dci.st = .ready ∨ s2.dci.st = .phRestart then s2.toFault 6 else s2

/-- SENSOR_READ. -/
def execSensorRead (sensor temp : Nat) (s : State) : Out :=
  if 20 < sensor ∨ 255 < temp ∨ s.trust.porst ∨ s.trust.brown then done s
  else
    let x : Sensor := SMap.get {} s.power.sensors sensor
    let n := sensorLevel x.level temp
    let s1 := s.updPower fun p => { p with sensors := SMap.set {} p.sensors sensor ⟨n, temp⟩ }
    if n = x.level then done s1
    else
      let s2 := s1.event 0x0800 [(1, sensor), (1, n), (1, temp)]
      done (if n = 3 then s2.critical else s2)

/-- ALERT_N is driven low while any sensor is at THROTTLE or higher (R537, R577). -/
def State.alertN (s : State) : Bool := !s.power.sensors.any fun e => 2 ≤ e.2.level

/-- INT_N is driven low while STATE is FAULT (R580). -/
def State.intN (s : State) : Bool := s.dci.st ≠ .fault

/-! ### The power-fail flush (R540-R543) -/

/-- Residuals are added, the closing epoch is sealed with the grace used so far, and the open epoch is sealed PARTIAL
(R445, R540). -/
def State.sealEarly (s : State) (cause : Nat) : State :=
  let s1 := s.sealClosing
  let s2 := match s1.ledger.openEp with
    | none => s1
    | some e => (s1.updLedger fun l => { l with
        openEp := none
        closing := some { e with
          phase := .closing, stop := s.dt, graceFrom := s.dt, sealAt := s.dt, partialCause := cause } }).sealClosing
  s2.updLedger fun l => { l with recs := l.recs.map fun r => if r.phase = .sealed then r.sumUp else r }

/-- Candidates of the flush in epoch order: the unacknowledged sealed records, of which the first 9 are pushed (R541). -/
def LedgerSt.candidates (l : LedgerSt) : List Nat :=
  ((l.recs.filter fun r => l.oldestUnacked ≤ r.no).map (·.no)).take 9

/-- The buffer of the function that holds the lease, when its link is up (R446, R540). -/
def State.flushTarget (s : State) : Option (HostFn × Nat) :=
  match s.dci.lease.holder with
  | none => none
  | some f =>
    let a : W64 := match f with
      | .hostA => s.ledger.flushA
      | .hostB => s.ledger.flushB
    if s.dci.lease.expired ∨ a = 0 ∨ !(s.fn f).linkUp then none else some (f, a.toNat)

/-- Lanes, pumps, wells and clusters lose power (R540). -/
def State.powerOff (s : State) : State :=
  let s1 := s.updNet fun n => { n with
    ports := n.ports.map fun e => (e.1, { e.2 with st := .disabled, enabled := false, disabling := none }) }
  let s2 := { s1 with egress := { s1.egress with eports := s1.egress.eports.map fun e => (e.1, { e.2 with now := none }) } }
  (List.range 12).foldl (fun (acc : State) c => acc.updCl c fun k => { k with power := .off }) s2

/-- POWER_FAIL. A warm reset in progress has already sealed; during priming after a cold reset there is nothing to flush,
and priming stops (R543). -/
def execPowerFail (s : State) : Out :=
  if s.power.failing ∨ s.power.flush.isSome ∨ s.trust.porst ∨ s.trust.brown then done s
  else if s.dci.st = .priming then done ((s.updPower fun p => { p with failing := true }).toFault 7)
  else
    let s1 := ((s.updNet fun n => { n with shut := true }).updOrder fun o => { o with stopped := true }).updPower
      fun p => { p with failing := true }
    let s2 := if s.dci.st = .warmReset then s1
      else (s1.sealEarly 2).updLedger fun l => { l with resume := l.resume || s.ledger.openEp.isSome }
    let s3 := ((s2.wakeStack 0).wakeStack 1).powerOff
    let l := s3.ledger.candidates
    done (s3.updPower fun p => { p with flush := some ⟨2, l, l.length, s.flushTarget⟩ })

/-- Push the records into their slots, and the descriptor last (R446). -/
def State.pushRecords (s : State) (f : HostFn) (a : Nat) (es : List Nat) : State :=
  let ring := match s.ledger.ring with
    | some r => r.id
    | none => 0
  let put := fun (acc : State) (k : Nat × Nat) => match s.ledger.recs.find? fun r => r.no = k.2 with
    | some r => acc.hostWrite f (a + 4096 + 8392704 * k.1) (r.bytes ring 0 recordLen)
    | none => acc
  let s1 := ((List.range es.length).zip es).foldl put s
  s1.hostWrite f a (slice (leBytes 4 0x5A4C4653 ++ leBytes 4 es.length ++ es.flatMap fun n => leBytes 8 n) 0 4096)

/-- POWER_FAIL_FLUSH_DONE: every record of the flush is signed and written, then the descriptor; FAULT (R540). -/
def execPowerFailFlushDone (s : State) : Out :=
  match s.power.flush with
  | none => done s
  | some x =>
    let signed := x.todo.all fun n => s.ledger.recs.any fun r => r.no = n && r.phase = .signed
    if s.ledger.ring.isSome ∧ !s.ledger.fault ∧ !signed then done s
    else
      let s1 := match x.target with
        | some (f, a) => if x.todo.isEmpty ∨ s.ledger.fault then s
          else (s.pushRecords f a x.todo).updLedger fun l => { l with flushes := l.flushes + 1 }
        | none => s
      done ((s1.updPower fun p => { p with flush := none }).toFault 7)

/-- PWRFAIL_RISE: the flush completes, and the device stays in FAULT (R543). -/
def execPwrfailRise (s : State) : Out := done (s.updPower fun p => { p with failing := false })

end Sys2Proof.Machine
end

