-- ==== Sys2Proof/Machine/Faults.lean ====
section
/-!
DEFINITION. Unit faults and part resets, cluster and core service, the fault log and the measurement log (R363, R427,
R519, R521, R524, R547-R561).
-/

namespace Sys2Proof.Machine

def State.updTrust (s : State) (f : TrustSt → TrustSt) : State := { s with trust := f s.trust }
def State.updFaults (s : State) (f : FaultSt → FaultSt) : State := { s with faults := f s.faults }

/-! ### The measurement log and the counters (R516, R519, R521) -/

/-- An entry's 48 bytes. -/
def Meas.bytes (m : Meas) : List Byte :=
  leBytes 2 m.type ++ [0, 0] ++ leBytes 4 m.index ++ leBytes 8 m.dt.toNat ++ slice m.digest 0 32

/-- Append a measurement; a full log extends M only. -/
def State.logMeas (s : State) (type index : Nat) (digest : List Byte) : State :=
  let e : Meas := ⟨type, index, s.time.ns, slice digest 0 32⟩
  s.updTrust fun t => { t with
    chain := sm3 (t.chain ++ e.bytes)
    meas := if t.meas.length < 1024 then t.meas ++ [e] else t.meas
    overflow := t.overflow || 1024 ≤ t.meas.length }

/-- The number of bits set among the 64 of a counter field. -/
def bitsSet (v : Nat) : Nat := ((List.range 64).filter v.testBit).length

/-- Set the lowest clear bits until `n` are set; bits only rise. -/
def raiseBits (v n fuel : Nat) : Nat :=
  match fuel with
  | 0 => v
  | k + 1 =>
    if n ≤ bitsSet v then v
    else match (List.range 64).find? fun b => !v.testBit b with
      | some b => raiseBits (v + 2 ^ b) n k
      | none => v

/-- An anti-rollback counter: id 0x20 FW_SVN, 0x21 PROG_SVN. -/
def State.svn (s : State) (id : Nat) : Nat := bitsSet (SMap.get 0 s.trust.otp id)

/-- Raise a counter to an image's SVN; a rise is measured (R519). -/
def State.raiseSvn (s : State) (id n : Nat) : State :=
  if n ≤ s.svn id then s
  else
    let s1 := s.updTrust fun t => { t with otp := SMap.set 0 t.otp id (raiseBits (SMap.get 0 t.otp id) n 64) }
    s1.logMeas 6 (id - 0x20) [BitVec.ofNat 8 (s1.svn id)]

/-- Debugging is refused: DEBUG_LOCK is 1 and the device is not unlocked (R523). -/
def State.debugLocked (s : State) : Bool := SMap.get 0 s.trust.otp 0x14 % 2 = 1 && !s.trust.unlocked

/-! ### What a reset does to a part (R286, R363, R427, R553) -/

/-- The packets whose runs the threads work on, each once. -/
def State.runsOn (s : State) (ts : List Nat) : List Nat := (ts.filterMap s.curPkt).eraseDups

/-- A thread's delay entries go (R363). -/
def State.dropDelays (s : State) (t : Nat) : State :=
  s.updTask (clusterOf t) fun k => { k with lists := k.lists.map fun e => (e.1, e.2.filter fun d => d.t ≠ t) }

/-- Registers, special registers and scratch of a thread are cleared, PRIO and WDREM to their reset values (R283), its halt ends, and it has no slot. Stores that wait
in its store buffer still drain: the caches are unchanged. -/
def State.clearThread (s : State) (t : Nat) : State :=
  let s1 := (((s.quiet t).abandonAll (.thread t)).dropDelays t).setThr t { prio := (s.core (coreOf t)).defaultPrio }
  (s1.setScr t {}).updTr t fun x => { ({} : ThrRun) with
    sb := x.sb, maint := x.maint, stepCount := x.stepCount, wdBudget := (s.cl (clusterOf t)).watchdog }

/-- Reset threads: their slots empty, their runs are discarded as counted failures, and they are cleared (R230, R286). -/
def State.resetThreads (s : State) (ts : List Nat) : State :=
  let s1 := ts.foldl State.returnNext s
  let s2 := (s1.runsOn ts).foldl (fun (acc : State) p => acc.failAt p 0 (s1.coreOfRun p)) s1
  ts.foldl State.clearThread s2

/-- A core's caches after its reset: dirty lines but poisoned ones reach the L2, and its cycle count starts (R283). -/
def State.resetCore (s : State) (core : Nat) : State :=
  let s1 := (s.coreFlush core false).updCore core fun k => { k with cycleBase := s.time.cycles, idleFor := 0 }
  (coreThreads core).foldl (fun (acc : State) t => acc.updTr t fun x => { x with maint := [] }) s1

def clusterCores (c : Nat) : List Nat := (List.range 16).map (16 * c + ·)

/-- A cluster's L2, scratch, channels and delay lists after its reset; its trace keeps its buffer and gets a RESET
record (R286, R357, R363, R571). -/
def State.resetCluster (s : State) (c : Nat) : State :=
  let s1 := ((clusterCores c).foldl State.resetCore s).l2Flush c false
  let s2 := s1.updCl c fun k => { k with
    scratch := [], scratchPoison := [], chans := [], task := { k.task with lists := [], holdSince := none } }
  if (s.cl c).trace.mode = 0 then s2 else s2.tracePut c ⟨128 * c, 6, 0, BitVec.ofNat 32 s.dt, 0⟩

/-- The frame a port sends ends with the complement of the correct FCS, and its copy goes back to the head of its queue; a
cut-through copy whose packet has not committed is made again at its commit (R427). -/
def State.pumpCut (s : State) (phys : Nat) : State :=
  match (s.eport phys).now with
  | none => s
  | some n =>
    let live := n.copy.ct && n.copy.hostTx.isNone && (s.pkt n.copy.pkt).st ≠ .finished
    let s1 := s.stompNow phys (if live then { n with bytes := s.ctSoFar phys n } else n)
    if live then
      (s1.updPump (wellOf phys) fun x => x.release n.copy.pkt n.copy.emit).updRc n.copy.pkt fun r => { r with ct := false }
    else s1.updQueue n.copy.queue fun q => { q with head := { n.copy with ct := false } :: q.head }

/-- A pump's reset: frames are cut, and open aggregates return their packets to the tail, which joins the head where nothing
is spilled (R182, R190, R427). -/
def State.pumpResetStart (s : State) (p : Nat) : State :=
  let s1 := ((List.range 16).map (16 * p + ·)).foldl State.pumpCut (s.updPump p fun x => { x with resetting := true })
  let qs := (s1.egress.queues.filter fun e => s1.pumpOf e.1 = p).map Prod.fst
  qs.foldl (fun (acc : State) q => acc.updQueue q fun x => match x.agg with
    | some a => Queue.settle { x with agg := none, tail := a.copies ++ x.tail }
    | none => x) s1

/-- The commands in the background with an opcode whose payload names a part in its first byte. -/
def State.waitingFor (s : State) (op part : Nat) : List Sys2Proof.CmdRef :=
  (s.dci.journal.filter fun j => j.started && j.resp.isNone && j.e.opcode = op
    && leVal (slice (entryPayload j.e) 0 1) = part).map fun j => ⟨j.fn, j.e.cseq⟩

/-- Answer every such command. -/
def State.answerAll (s : State) (op part : Nat) (a : Ans) : State :=
  (s.waitingFor op part).foldl (fun (acc : State) c => acc.answer c a) s

/-- A drain ends: the cluster is DRAINED, or FAILED after an escalation, and the drain's commands are answered with the
number of runs it discarded (R547, R558). -/
def State.drainEnd (s : State) (c : Nat) : State :=
  match (s.cl c).drain with
  | none => s
  | some (by_, _) =>
    let n := (s.cl c).drained
    let s1 := s.updCl c fun k => { k with
      st := if by_.isSome then .drained else .failed, drain := none, drained := 0 }
    s1.answerAll 0x0402 c (.data (leBytes 4 n))

/-! ### Part resets (R552) -/

/-- The threads of a part. -/
def partThreads (kind idx : Nat) : List Nat :=
  match kind with
  | 0 => [idx]
  | 1 => coreThreads idx
  | 2 => clusterThreads idx
  | _ => []

/-- Part (k, i) is part (k', i'), or contains it. -/
def partContains (k i k' i' : Nat) : Bool :=
  (k = k' && i = i') || (k = 1 && k' = 0 && coreOf i' = i) || (k = 2 && k' = 0 && clusterOf i' = i)
    || (k = 2 && k' = 1 && clusterOfCore i' = i)

/-- INDEX is in range. -/
def partThere (kind idx : Nat) : Bool :=
  match kind with
  | 0 => idx < 1536
  | 1 => idx < 192
  | 2 => idx < 12
  | 3 | 4 => idx < 8
  | 5 | 6 => idx = 0
  | _ => false

/-- The effect of a part's reset at its start. -/
def State.partEffect (s : State) (kind idx : Nat) : State :=
  match kind with
  | 0 => s.resetThreads [idx]
  | 1 => (s.resetThreads (coreThreads idx)).resetCore idx
  | 2 => (s.resetThreads (clusterThreads idx)).resetCluster idx
  | 3 => s.parserResetStart idx
  | 4 => s.pumpResetStart idx
  | 5 => s.updOrder fun o => { o with commitReset := true }
  | _ => s

/-- Start a part's reset: it absorbs the resets of what it contains, and a draining cluster's drain ends at once. -/
def State.partStart (s : State) (kind idx : Nat) (cmds : List Sys2Proof.CmdRef) (auto : Bool) : State :=
  let inside := s.faults.resets.filter fun r => partContains kind idx r.kind r.index
  let n := (s.runsOn (partThreads kind idx)).length
  let run : ResetRun := ⟨kind, idx, inside.flatMap (·.cmds) ++ cmds, n + total (inside.map (·.replayed)), s.dt⟩
  let s1 := ((s.partEffect kind idx).bumpReset kind idx).updFaults fun f => { f with
    resets := (f.resets.filter fun r => !partContains kind idx r.kind r.index) ++ [run] }
  let s2 := s1.errCnt (partUnit kind idx).1 fun e =>
    if auto then { e with autoResets := e.autoResets + 1 } else { e with cmdResets := e.cmdResets + 1 }
  if kind = 2 ∧ (s.cl idx).st = .draining then
    (s2.updCl idx fun k => { k with drained := k.drained + n }).drainEnd idx
  else s2

/-- Durations of R524 in nanoseconds, the limits of the parser, the pumps, the commit unit and the Pumphouse among them. -/
def partNs (kind : Nat) : Nat := [1000, 2000, 50000, 5000, 20000, 20000, 100000000].getD kind 0

/-- The Pumphouse's reset begins: STATE, the lease, device time's discipline, and its locks (R44, R480, R492, R524). -/
def State.phResetStart (s : State) : State :=
  let s1 := (((s.setDev .phRestart 0).leaseFreeze).lockLeave .pumphouse).abandonAll .pumphouse
  let s2 := if s1.time.st = .locked then s1.leaveLocked 5 else s1
  ((s2.updTime fun t => { t with ptp := {}, deferred := [] }).updDci fun d => { d with phRestarts := d.phRestarts + 1 }).updTrust
    fun t => { t with loads := [], writing := none }

/-- The reset of the Pumphouse as a part (R552). -/
def State.phPartStart (s : State) (auto : Bool) : State := s.phResetStart.partStart 6 0 [] auto

/-- A command joins the reset of the part, or of one that contains it. -/
def ResetRun.join (c : Sys2Proof.CmdRef) (kind idx : Nat) (r : ResetRun) : ResetRun :=
  if partContains r.kind r.index kind idx ∧ !r.cmds.contains c then { r with cmds := r.cmds ++ [c] } else r

def partResetBody (c : CmdRef) (kind idx : Nat) (s : State) : State × Ans :=
  let g := s.guardTaken c
  if !partThere kind idx then (s, badArg)
  else if (kind = 0 ∧ (s.core (coreOf idx)).retired) ∨ (kind = 1 ∧ (s.core idx).retired) ∨ (kind = 3 ∧ (s.well idx).disabled) then
    (s, wrongState)
  else if s.faults.resets.any fun r => partContains r.kind r.index kind idx then
    (s.updFaults fun f => { f with resets := f.resets.map (ResetRun.join c kind idx) }, .later)
  else if g.2 ∧ (s.resetCount kind idx).toNat ≠ g.1 then (s, .ok)
  else if kind = 6 then ((s.answer c .ok).phPartStart false, .wait)
  else (s.partStart kind idx [c] false, .later)

def execPartReset (c : CmdRef) (kind index : Nat) (s : State) : Out :=
  s.command c 0x0900 [(1, kind), (2, index)] (partResetBody c kind index)

/-- What the part itself still has to do before its reset is over. -/
def State.partBusy (s : State) (kind idx : Nat) : Bool :=
  match kind with
  | 3 => (s.well idx).parserReset
  | 4 => (s.pump idx).resetting
  | 5 => s.order.commitReset
  | _ => false

/-- A part's reset is over: the event, and the answers of its commands. -/
def State.partDone (s : State) (r : ResetRun) : State :=
  let s1 := s.updFaults fun f => { f with resets := f.resets.filter fun x => x ≠ r }
  let s2 : State := if r.kind = 2 ∧ (s.cl r.index).st = .failed then
      (s1.unfence 2 r.index).updCl r.index fun k => { k with st := .drained }
    else s1
  let s3 := s2.event 0x0900 [(1, r.kind), (2, r.index), (4, r.replayed)]
  r.cmds.foldl (fun (acc : State) c => acc.finish c 0 0 [] []) s3

/-- PART_RESET_DONE: after 1, 2 or 50 µs for a thread, a core or a cluster, and when the unit has ended its own reset for
the others; the Pumphouse's ends with PH_RESTART_DONE. -/
def execPartResetDone (kind index : Nat) (s : State) : Out :=
  match s.faults.resets.find? fun r => r.kind = kind && r.index = index with
  | none => done s
  | some r =>
    if kind = 6 ∨ s.partBusy kind index ∨ (kind ≤ 2 ∧ s.dt < r.startDt + partNs kind) then done s else done (s.partDone r)

/-- PARSER_RESET_DONE: the sluice is released, and unparsed frames are walked again (R146). -/
def execParserResetDone (well : Nat) (s : State) : Out :=
  if well < 8 ∧ (s.well well).parserReset then done (s.updWell well fun w => { w with parserReset := false }) else done s

/-! ### Clusters (R557, R558) -/

/-- An old-side packet of a fenced domain is uncommitted (R238). -/
def State.oldLeft (s : State) : Bool :=
  match s.order.fence with
  | none => false
  | some f => f.drainEnd.isSome && s.order.pkts.any fun e =>
      e.2.hasSeq && e.2.st ≠ .finished && e.2.refusal.isNone && f.covers e.2.domain && s.beforeSwitch f e.1

/-- The cluster is the last admitted one on the old side of an armed fence. -/
def State.lastOldSide (s : State) (c : Nat) : Bool :=
  match s.order.fence with
  | none => false
  | some f => (s.cl c).version ≠ f.version && (List.range 12).all fun k =>
      k = c || (s.cl k).st ≠ .admitted || (s.cl k).version = f.version

/-- The drain of the last old-side cluster sets every switch point, and lasts to the fence drain limit (R238). -/
def State.fenceDrain (s : State) (c : Nat) : State :=
  match s.order.fence with
  | none => s
  | some f => (s.updOrder fun o => { o with
      fence := some { f with rest := true, drainCl := c, drainEnd := some (s.dt + 1000000 * o.cfg.fenceDrain) }
      doms := o.doms.map fun e => (e.1,
        if f.covers e.1 ∧ e.2.switch.isNone then { e.2 with switch := some e.2.nextSeq } else e.2) }).fenceCheck

/-- A cluster becomes DRAINING (R558). -/
def State.drainStart (s : State) (c : Nat) (by_ : Option Sys2Proof.CmdRef) (us : Nat) : State :=
  let last := s.lastOldSide c
  let s1 := if last then s.fenceDrain c else s
  let ns := if last then 1000000 * s.order.cfg.fenceDrain else 1000 * (if us = 0 then 100 else us)
  let s2 := s1.updCl c fun k => { k with st := .draining, drain := some (by_, s.dt + ns), drained := 0 }
  (clusterThreads c).foldl State.returnNext s2

def clusterDrainBody (c : CmdRef) (cl us : Nat) (s : State) : State × Ans :=
  if 11 < cl ∨ 100000 < us then (s, badArg)
  else match (s.cl cl).st with
    | .admitted => (s.drainStart cl (some c) us, .later)
    | .draining => (s, .later)
    | .failed => (s, wrongState)
    | _ => (s, .data (leBytes 4 0))

def execClusterDrain (c : CmdRef) (cluster timeoutUs : Nat) (s : State) : Out :=
  s.command c 0x0402 [(1, cluster), (4, timeoutUs)] (clusterDrainBody c cluster timeoutUs)

/-- CLUSTER_DRAIN_TIMEOUT: the timeout has expired, or no run is active any more; under a fence's drain, no old-side
packet is left or its limit has expired. -/
def execClusterDrainTimeout (cluster : Nat) (s : State) : Out :=
  match (s.cl cluster).drain with
  | none => done s
  | some (_, e) =>
    let runs := s.runsOn (clusterThreads cluster)
    let fenced : Bool := match s.order.fence with
      | some f => f.drainEnd.isSome && f.drainCl = cluster
      | none => false
    if (fenced ∧ s.oldLeft) ∨ (s.dt < e ∧ !runs.isEmpty) ∨ 11 < cluster then done s
    else
      let s1 := runs.foldl (fun (acc : State) p => acc.redo p .none) ((clusterThreads cluster).foldl State.returnNext s)
      let s2 := s1.updOrder fun o => if fenced then { o with fence := o.fence.map fun f => { f with drainEnd := none } } else o
      done ((s2.updCl cluster fun k => { k with drained := k.drained + runs.length }).drainEnd cluster)

/-- Lines of the program images region leave an L2, and both L1s of every core are invalid; TSAVE0 to TSAVE3 are 0. -/
def State.loadImage (s : State) (c version : Nat) : State :=
  let s1 := (clusterCores c).foldl (fun (acc : State) k => acc.updCore k fun x => { x with
    l1d := [], l1dLru := [], l1i := [], l1iLru := [] }) s
  let s2 := s1.updL2 c fun x => { x with lines := x.lines.filter fun e => match e.2 with
    | some ln => match s.mem.region (64 * ln.no) with
      | some r => r.use ≠ 3
      | none => true
    | none => false }
  let s3 := (clusterThreads c).foldl (fun (acc : State) t => acc.updThr t fun x => { x with tsave := [] }) s2
  s3.updCl c fun k => { k with st := .drained, version := version, loaded := true }

def clusterLoadBody (cl version : Nat) (s : State) : State × Ans :=
  let k := s.cl cl
  if 11 < cl then (s, badArg)
  else if k.st ≠ .empty ∧ k.st ≠ .drained then (s, wrongState)
  else if k.loaded ∧ k.version = version then (s, .ok)
  else if !s.trust.images.any fun i => i.version = version then (s, wrongState)
  else (s.loadImage cl version, .ok)

def execClusterLoad (c : CmdRef) (cluster version : Nat) (s : State) : Out :=
  s.command c 0x0401 [(1, cluster), (2, version)] (clusterLoadBody cluster version)

/-- CLUSTER_ADMIT; the first admission under an image with COMMIT_SVN raises PROG_SVN (R519). -/
def clusterAdmitBody (cl : Nat) (s : State) : State × Ans :=
  if 11 < cl then (s, badArg)
  else match (s.cl cl).st with
    | .admitted => (s, .ok)
    | .drained =>
      let s1 := s.updCl cl fun k => { k with st := .admitted }
      (match s.image cl with
        | some i => if i.commitSvn then s1.raiseSvn 0x21 i.svn else s1
        | none => s1, .ok)
    | _ => (s, wrongState)

def execClusterAdmit (c : CmdRef) (cluster : Nat) (s : State) : Out :=
  s.command c 0x0403 [(1, cluster)] (clusterAdmitBody cluster)

/-! ### Retiring cores (R559) -/

/-- The core's runs are discarded uncounted, its threads park, and it is RETIRED. -/
def State.coreGone (s : State) (core : Nat) : State :=
  let ts := coreThreads core
  let s1 := (s.runsOn ts).foldl (fun (acc : State) p => acc.redo p .none) (ts.foldl State.returnNext s)
  let s2 := ts.foldl (fun (acc : State) t => acc.abandonAll (.thread t)) s1
  s2.updCore core fun k => { k with retired := true, retiring := none, gated := true }

/-- Retirement begins: no new slot, and 100 µs for the runs. -/
def State.coreLeave (s : State) (core : Nat) (by_ : Option Sys2Proof.CmdRef) : State :=
  (coreThreads core).foldl State.returnNext (s.updCore core fun k => { k with retiring := some (by_, s.dt + 100000) })

/-- Another core of the cluster is in service. -/
def State.coreLeft (s : State) (core : Nat) : Bool :=
  (clusterCores (clusterOfCore core)).any fun k => k ≠ core && !(s.core k).retired && (s.core k).retiring.isNone

/-- Priming found an array of the core or of its cluster's L2 beyond repair (R510). -/
def State.coreBad (s : State) (core : Nat) : Bool := s.trust.obs.any fun o => o.badCores.contains core || o.badClusters.contains (clusterOfCore core)

def coreRetireBody (c : CmdRef) (core restore : Nat) (s : State) : State × Ans :=
  let k := s.core core
  let st := (s.cl (clusterOfCore core)).st
  if 191 < core ∨ 1 < restore then (s, badArg)
  else if restore = 1 then
    if k.retiring.isSome then (s, .wait)
    else if !k.retired then (s, .ok)
    else if s.coreBad core then (s, wrongState)
    else
      let s1 := (coreThreads core).foldl (fun (acc : State) t => acc.setThr t { prio := (s.core core).defaultPrio }) (s.unfence 1 core)
      (s1.updCore core fun x => { x with
        retired := false, gated := false, idleFor := 0, l1d := [], l1dLru := [], l1i := [], l1iLru := [] }, .ok)
  else if k.retired then (s, .ok)
  else if k.retiring.isSome then (s, .later)
  else if (st = .admitted ∨ st = .draining) ∧ !s.coreLeft core then (s, wrongState)
  else if st ≠ .admitted then (s.coreGone core, .ok)
  else (s.coreLeave core (some c), .later)

def execCoreRetire (c : CmdRef) (core restore : Nat) (s : State) : Out :=
  s.command c 0x0404 [(1, core), (1, restore)] (coreRetireBody c core restore)

/-- CORE_RETIRE_TIMEOUT: 100 µs have passed, or no run is active any more. -/
def execCoreRetireTimeout (core : Nat) (s : State) : Out :=
  match (s.core core).retiring with
  | none => done s
  | some (_, e) =>
    if 191 < core ∨ (s.dt < e ∧ !(s.runsOn (coreThreads core)).isEmpty) then done s
    else done ((s.coreGone core).answerAll 0x0404 core .ok)

/-! ### Unit faults (R547-R549) -/

/-- The part that a unit's fault resets: kind and index; 7 is a helper. -/
def faultPart (u : Sys2Proof.FaultUnit) : Nat × Nat :=
  match u with
  | .thread t => (0, t)
  | .core c => (1, c)
  | .cluster c => (2, c)
  | .helper n i => (7, n * 256 + i)
  | .well w => (3, w)
  | .pump p => (4, p)
  | .commit => (5, 0)
  | .pumphouse => (6, 0)

/-- The unit exists and is in service. -/
def State.unitThere (s : State) (u : Sys2Proof.FaultUnit) : Bool :=
  match u with
  | .thread t => t < 1536 && !(s.core (coreOf t)).retired
  | .core c => c < 192 && !(s.core c).retired
  | .cluster c => c < 12 && (s.cl c).st ≠ .failed
  | .helper n i => n < 3 && i < (if n = 1 then 24 else 192) && !s.unitOff n i
  | .well w => w < 8 && !s.wellOff w
  | .pump p => p < 8
  | .commit => true
  | .pumphouse => s.dci.st = .ready

/-- Take a core out of service by an escalation. -/
def State.coreOut (s : State) (core : Nat) : State :=
  if (s.core core).retiring.isSome then s else (s.fencePart 1 core).coreLeave core none

/-- What an escalation does to the part (R547). -/
def State.escalate (s : State) (u : Sys2Proof.FaultUnit) : State :=
  match u with
  | .thread t => s.coreOut (coreOf t)
  | .core c => s.coreOut c
  | .cluster c =>
    let s1 := s.fencePart 2 c
    match (s.cl c).st with
    | .admitted => s1.drainStart c none 0
    | .draining => s1.updCl c fun k => { k with drain := k.drain.map fun d => (none, d.2) }
    | _ => s1.updCl c fun k => { k with st := .failed }
  | .helper n i => (s.setUnit n i true).fencePart 7 (n * 256 + i)
  | .well w =>
    let ports := (s.wellPorts w).filter fun p => (s.port p).enabled
    (s.fencePart 3 w).updWell w fun x => { x with disabling := some none, enabledBefore := ports }
  | .pump _ | .commit => s.setDev .fault 8
  | .pumphouse => s

/-- The Pumphouse is reset; the third watchdog reset within 10 s of DT leads to FAULT (R526). -/
def State.phWatchdog (s : State) : State :=
  let near := s.trust.phResets.filter fun d => decide (s.dt < d + 10 * secNs)
  let s1 := s.updTrust fun t => { t with phResets := s.dt :: near }
  if 2 ≤ near.length then
    let s2 := s1.bumpReset 6 0
    let s3 := ((s2.errCnt 7 fun e => { e with autoResets := e.autoResets + 1 }).lockLeave .pumphouse).abandonAll .pumphouse
    ((s3.leaveLocked 5).updTime fun t => { t with ptp := {}, deferred := [] }).toFault 4
  else s1.phPartStart true

/-- The automatic reset of the containing part (R547). -/
def State.autoReset (s : State) (u : Sys2Proof.FaultUnit) : State :=
  match u with
  | .helper n i => (s.unitReset n i).errCnt 9 fun e => { e with autoResets := e.autoResets + 1 }
  | .pumphouse => s.phWatchdog
  | _ => s.partStart (faultPart u).1 (faultPart u).2 [] true

/-- UNIT_FAULT: FAULT is raised, and the containing part is reset; instead of a fourth automatic reset within 1 s of DT,
and when the part's reset has taken twice its duration, the escalation is taken. A part that is being reset already
completes with that reset. -/
def execUnitFault (u : FaultUnit) (cause : Nat) (s : State) : Out :=
  let k := faultPart u
  let running := s.faults.resets.find? fun r => partContains r.kind r.index k.1 k.2
  let failed := match running with
    | some r => r.kind = k.1 && r.index = k.2 && decide (r.startDt + 2 * partNs k.1 ≤ s.dt)
    | none => false
  let near := (SMap.get [] s.faults.auto (resetKey k.1 k.2)).filter fun d => decide (s.dt < d + secNs)
  if cause = 0 ∨ 4 < cause ∨ (cause = 4 ∧ !failed) ∨ !s.unitThere u ∨ s.dci.st = .priming ∨ s.dci.st = .warmReset then done s
  else
    let s1 := (s.raiseFault k.1 k.2 cause).errCnt (partUnit k.1 k.2).1 fun e => { e with unitFaults := e.unitFaults + 1 }
    if cause = 4 then done (s1.escalate u)
    else if running.isSome then done s1
    else if 3 ≤ near.length ∧ k.1 ≠ 6 then done ((s1.raiseFault k.1 k.2 5).escalate u)
    else done ((s1.updFaults fun f => { f with auto := SMap.set [] f.auto (resetKey k.1 k.2) (s.dt :: near) }).autoReset u)

/-- PH_WATCHDOG_EXPIRY (R526). -/
def execPhWatchdogExpiry (s : State) : Out := if s.dci.st = .ready then done s.phWatchdog else done s

/-! ### The fault log and the error counters (R560, R561) -/

def LogRec.image (r : LogRec) : List Byte :=
  leBytes 4 r.seq.toNat ++ leBytes 2 r.code ++ [0, 0] ++ leBytes 8 r.dt.toNat ++ slice r.body 0 48

/-- The entries from a LOG_SEQ on; from the oldest held when it is older. -/
def logFrom (l : List LogRec) (frm : W32) : List LogRec :=
  match l.getLast? with
  | none => []
  | some z =>
    if seqBefore z.seq frm then []
    else if l.any fun r => r.seq = frm then l.dropWhile fun r => r.seq ≠ frm
    else l

def faultLogReadBody (frm : W32) (count : Nat) (s : State) : State × Ans :=
  let l := s.faults.log
  let es := (logFrom l frm).take count
  if count = 0 ∨ 1024 < count then (s, badArg)
  else
    let ends := fun (r : Option LogRec) => (r.map fun x => x.seq.toNat).getD 0
    (s, .data (leBytes 4 es.length ++ leBytes 4 (ends l.head?) ++ leBytes 4 (ends l.getLast?) ++ [0, 0, 0, 0]
      ++ es.flatMap LogRec.image))

def execFaultLogRead (c : CmdRef) (frm : W32) (count : Nat) (s : State) : Out :=
  s.command c 0x0902 [(4, frm.toNat), (2, count)] (faultLogReadBody frm count)

/-- The result of ERROR_STATS (log 26): five counters for each unit code 0 to 16, then the reset counts of the threads, the
cores, the clusters, the wells' parsers, the pumps, the commit unit and the Pumphouse. -/
def State.errorImage (s : State) : List Byte :=
  let unit := fun (u : Nat) =>
    let e : ErrCnt := SMap.get {} s.faults.cnt u
    wordsBytes [e.corrected, e.uncorrectable, e.unitFaults, e.autoResets, e.cmdResets]
  let counts := fun (kind n : Nat) => (List.range n).flatMap fun i => leBytes 4 (s.resetCount kind i).toNat
  (List.range 17).flatMap unit ++ counts 0 1536 ++ counts 1 192 ++ counts 2 12 ++ counts 3 8 ++ counts 4 8 ++ counts 5 1
    ++ counts 6 1

def errorStatsBody (s : State) : State × Ans := (s, .data s.errorImage)

def execErrorStats (c : CmdRef) (s : State) : Out := s.command c 0x0903 [] errorStatsBody

end Sys2Proof.Machine
end

