-- ==== Sys2Proof/Machine/Debug.lean ====
section
/-!
DEFINITION. The debug unit: halting and stepping threads, breakpoints, reading and writing a thread's spaces, discarding a
packet, and the trace (R523, R562-R572).
-/

namespace Sys2Proof.Machine

/-- A body that DEBUG_LOCK guards (R523). -/
def guarded (body : State → State × Ans) (s : State) : State × Ans := if s.debugLocked then (s, authFail) else body s

/-! ### Halt, resume, step (R563-R565) -/

/-- A thread's halt, or a release: the run of a halted thread is discarded uncounted, with the DEBUG mark (R564). -/
def State.debugHalt (s : State) (t : Nat) (release : Bool) : State :=
  match (s.tr t).cur with
  | some p =>
    if release then (s.halt t .released).redo p .debug
    else if (s.tr t).halted.isSome then s else s.halt t .halt
  | none => if (s.tr t).halted.isSome then s else s.halt t .halt

/-- DEBUG_HALT: a helper long operation in progress completes first; a thread in reset does not halt (R563, R572). -/
def debugHaltBody (t release : Nat) (s : State) : State × Ans :=
  if 1535 < t ∨ 1 < release then (s, badArg)
  else if s.inReset t then (s, .ok)
  else match (s.tr t).wait with
    | .long _ _ _ _ => (s, .wait)
    | _ => (s.debugHalt t (release = 1), .ok)

def execDebugHalt (c : CmdRef) (thread release : Nat) (s : State) : Out :=
  s.command c 0x0A00 [(2, thread), (1, release)] (guarded (debugHaltBody thread release))

/-- A halted thread issues again; a result that its wait has met is written (R563, R565). -/
def State.resume (s : State) (t : Nat) (steps : Option Nat) : State :=
  let s1 := s.updTr t fun x => { x with halted := none, skipBreak := true, stepLeft := steps }
  let s2 := s1.traceRec t 5 0 (s1.thr t).pc
  match (s2.tr t).wait with
  | .held gd v => (s2.complete t gd v).stepCheck t
  | _ => s2

def debugResumeBody (t : Nat) (s : State) : State × Ans :=
  if 1535 < t then (s, badArg) else (if (s.tr t).halted.isSome then s.resume t none else s, .ok)

def execDebugResume (c : CmdRef) (thread : Nat) (s : State) : Out :=
  s.command c 0x0A01 [(2, thread)] (debugResumeBody thread)

/-- DEBUG_STEP of a halted thread. -/
def debugStepNow (t count : Nat) (s : State) : State × Ans :=
  if 1535 < t ∨ count = 0 ∨ 65535 < count then (s, badArg)
  else if (s.tr t).halted.isNone then (s, wrongState)
  else ((s.updTr t fun x => { x with stepCount := x.stepCount + 1 }).resume t (some count), .ok)

/-- DEBUG_STEP: a re-run steps only while the thread's step count is what it was at acceptance (R499, R565). -/
def debugStepBody (c : CmdRef) (t count : Nat) (s : State) : State × Ans :=
  let g := s.guardTaken c
  if t ≤ 1535 ∧ g.2 ∧ (s.tr t).stepCount.toNat ≠ g.1 then (s, .ok) else debugStepNow t count s

def execDebugStep (c : CmdRef) (thread count : Nat) (s : State) : Out :=
  s.command c 0x0A02 [(2, thread), (2, count)] (guarded (debugStepBody c thread count))

/-! ### Breakpoints (R567) -/

def debugBreakBody (cl slot kind addr : Nat) (s : State) : State × Ans :=
  if 11 < cl ∨ 7 < slot ∨ 5 < kind ∨ (kind = 1 ∧ (addr % 4 ≠ 0 ∨ !s.inText cl addr)) then (s, badArg)
  else (s.updCl cl fun k => { k with breaks := SMap.set {} k.breaks slot ⟨kind, BitVec.ofNat 64 addr⟩ }, .ok)

def execDebugBreakSet (c : CmdRef) (cluster slot kind addr : Nat) (s : State) : Out :=
  s.command c 0x0A03 [(1, cluster), (1, slot), (1, kind), (8, addr)] (guarded (debugBreakBody cluster slot kind addr))

/-! ### Journal slots (R203-R205) -/

/-- Pad to whole 16-byte slots. -/
def padSlots (bs : List Byte) : List Byte := bs ++ List.replicate ((16 - bs.length % 16) % 16) 0

/-- An entry's header slot: TYPE, EXT and the fields, as (bit, value), of R205. -/
def slotHead (type ext : Nat) (fields : List (Nat × Nat)) : List Byte :=
  leBytes 16 (type + 16 * ext + total (fields.map fun f => f.2 * 2 ^ f.1))

/-- An entry's slots. -/
def JEntry.image (e : JEntry) : List Byte :=
  match e with
  | .emit _ h q mc ts timed ops edit =>
    let ext := (match timed with
      | some r => leBytes 16 r
      | none => []) ++ padSlots edit
    slotHead (if mc then 2 else 1) (ext.length / 16)
      [(16, h), (48, q), (64, ts.toNat), (65, timed.isSome.toNat), (66, ops)] ++ ext
  | .deliver _ h host primary ring reason trunc =>
    slotHead 3 0 [(16, h), (48, host.toNat), (49, primary.toNat), (50, ring), (56, reason), (72, trunc)]
  | .count _ k f p b => slotHead 4 0 [(16, k), (38, f.toNat), (40, p), (64, b.toNat)]
  | .ledger _ a k f tx r v => slotHead 5 0 [(16, a), (32, k), (36, f.toNat), (37, tx.toNat), (38, r), (64, v.toNat)]
  | .table _ t op kl dl ks ds =>
    let ext := padSlots (wordsBytes (ks.take kl)) ++ padSlots (wordsBytes (ds.take dl))
    slotHead 6 (ext.length / 16) [(16, t), (28, op), (32, kl), (37, dl)] ++ ext
  | .context _ k m => slotHead 7 0 [(16, k), (40, m)]
  | .free _ h => slotHead 8 0 [(16, h)]

/-! ### Reading (R569) -/

/-- What a debug read finds: bytes with their poison mark, a wait for bytes not arrived, an address outside the space. -/
inductive DbgR where
  | ok (bs : List Byte) (poison : Bool)
  | wait
  | bad

/-- Register `n` of space 0. -/
def State.debugReg (s : State) (t n : Nat) : Option W64 :=
  if n < 32 then some ((s.thr t).get (BitVec.ofNat 5 n))
  else if n = 32 then some (s.thr t).lk
  else if n = 33 then some (s.thr t).pc
  else if 0x100 ≤ n ∧ specialReg (n - 0x100) then some (s.special t (n - 0x100))
  else none

/-- A line as the thread's core and cluster caches hold it, without any effect on them. -/
def State.peekLine (s : State) (core no : Nat) : List Byte × Bool :=
  match (s.core core).line no with
  | some ln => (ln.data, ln.poison)
  | none =>
    let cl := clusterOfCore core
    let base := match (s.cl cl).l2.way no 16 with
      | some w => match SMap.get none (s.cl cl).l2.lines (no % 4096 * 16 + w) with
        | some ln => (ln.data, ln.poison)
        | none => (s.mem.read (64 * no) 64, s.mem.poisoned (64 * no) 64)
      | none => (s.mem.read (64 * no) 64, s.mem.poisoned (64 * no) 64)
    match (s.core core).wb.find? fun e => e.ln.no = no with
    | some e => (mergeBytes base.1 e.ln.data e.ln.dirty, base.2 || e.ln.poison)
    | none => base

/-- A device-unit register with RSE access: a debug read returns all ones (R569). -/
def rseAddr (a : Nat) : Bool :=
  a = 0x2000010000 || (0x2000030000 ≤ a && a < 0x2000030140)
    || (lockBase ≤ a && a < lockMaskBase && (a % 64 = 0 || a % 64 = 8))

/-- A doubleword of the thread-local view. -/
def State.debugLocal (s : State) (t a : Nat) : DbgR :=
  if inScratch a 8 then .ok (s.scratchBytes t a 8) (s.scratchPoisoned t a 8)
  else match s.localRead t a 8 with
    | .ok bs => .ok bs false
    | .stall => .wait
    | .trap _ => .bad

/-- A doubleword of the core map. -/
def State.debugPhys (s : State) (t a : Nat) : DbgR :=
  match s.mreg t a with
  | none => .bad
  | some .localView => s.debugLocal t a
  | some .clScratch =>
    let o := a - 0x1000000000
    .ok (s.clBytes (clusterOf t) o 8) (s.clPoisoned (clusterOf t) o 8)
  | some .l2ctl => .ok (leBytes 8 (s.l2Reg (clusterOf t) (a - 0x1040000000)).toNat) false
  | some .device =>
    if rseAddr a then .ok (List.replicate 8 0xFF) false
    else match s.devLoad t a with
      | .ok v _ => .ok (leBytes 8 v.toNat) false
      | _ => .bad
  | some .cached =>
    let h := a - cachedBase
    let ln := s.peekLine (coreOf t) (h / 64)
    .ok (slice ln.1 (h % 64) 8) ln.2
  | some .uncached =>
    let h := a - uncachedBase
    .ok (s.mem.read h 8) (s.mem.poisoned h 8)

/-- A doubleword of a space. -/
def State.debugWord (s : State) (t space a : Nat) : DbgR :=
  match space with
  | 0 => match s.debugReg t (a / 8) with
    | some v => .ok (leBytes 8 v.toNat) false
    | none => .bad
  | 1 => s.debugLocal t a
  | 2 => s.debugPhys t a
  | _ =>
    let img := (s.tr t).run.journal.flatMap JEntry.image
    if 2048 ≤ a then .bad
    else if a < img.length then .ok (slice img a 8) false
    else .ok (s.drawBytes 8).1 false

/-- `n` doublewords in turn. -/
def State.debugWords (s : State) (t space a n : Nat) (got : List Byte) (poison : Bool) : DbgR :=
  match n with
  | 0 => .ok got poison
  | k + 1 => match s.debugWord t space a with
    | .ok bs p => s.debugWords t space (a + 8) k (got ++ bs) (poison || p)
    | .wait => .wait
    | .bad => .bad

/-- The space needs a halted thread. -/
def needsHalt (space : Nat) : Bool := space = 0 || space = 3

/-- DEBUG_READ: RESULT byte 4 is 1 when some of the data was poisoned. Slots of the journal that hold no entry read as free
values. -/
def debugReadBody (t space addr len : Nat) (s : State) : State × Ans :=
  if 1535 < t ∨ 3 < space ∨ addr % 8 ≠ 0 ∨ len % 8 ≠ 0 ∨ len = 0 ∨ 4096 < len then (s, badArg)
  else if needsHalt space ∧ (s.tr t).halted.isNone then (s, wrongState)
  else match s.debugWords t space addr (len / 8) [] false with
    | .ok bs p => ({ s with free := s.free + 1 }, .reply 0 0 bs [BitVec.ofNat 8 p.toNat])
    | .wait => (s, .wait)
    | .bad => (s, badArg)

def execDebugRead (c : CmdRef) (thread space addr len : Nat) (s : State) : Out :=
  s.command c 0x0A04 [(2, thread), (1, space), (8, addr), (4, len)] (guarded (debugReadBody thread space addr len))

/-! ### Writing (R569) -/

/-- What a debug write meets. -/
inductive DbgW where
  | ok (s : State)
  | wait
  | bad

/-- The special registers that a program may write and read back. -/
def rwSpecial (n : Nat) : Bool := n = 1 || n = 2 || n = 3 || n = 8 || (0x10 ≤ n && n ≤ 0x13) || n = 0x20 || n = 0x21

def State.debugSetReg (s : State) (t n : Nat) (v : W64) : DbgW :=
  if n = 0 then .bad
  else if n < 32 then .ok (s.updThr t fun x => x.set (BitVec.ofNat 5 n) v)
  else if n = 32 then .ok (s.updThr t fun x => { x with lk := v })
  else if n = 33 then .ok (s.updThr t fun x => { x with pc := v })
  else if 0x100 ≤ n ∧ rwSpecial (n - 0x100) then .ok (s.updThr t fun x => x.setSpecial (n - 0x100) v)
  else .bad

/-- Bytes written through a core's caches: into its L1D line, else into the L2. -/
def State.pokeLine (s : State) (core h : Nat) (bs : List Byte) : State :=
  let no := h / 64
  let mask := byteMask (h % 64) bs.length
  match (s.core core).way no, (s.core core).line no with
  | some w, some ln => s.updCore core fun c => c.put w { ln with data := splice ln.data (h % 64) bs, dirty := ln.dirty ||| mask }
  | _, _ => s.l2Merge (clusterOfCore core) ⟨no, splice (List.replicate 64 0) (h % 64) bs, mask, false⟩

/-- A line of text that has been written: it reaches the L2, and the L1I of every core of the cluster drops it. -/
def State.textWritten (s : State) (core no : Nat) : State :=
  (clusterCores (clusterOfCore core)).foldl (fun (acc : State) k =>
    acc.updCore k fun x => { x with l1i := x.l1i.map fun e => (e.1, if e.2 = no + 1 then 0 else e.2) }) (s.cleanLine core no false)

/-- The right of an HBM address: RW, or RX, which a debug write may write too. -/
def State.pokeRight (s : State) (h : Nat) : Nat := ((s.mem.region h).map (·.right)).getD 0

def State.debugPoke (s : State) (t a : Nat) (bs : List Byte) : DbgW :=
  match s.mreg t a with
  | some .localView => if inScratch a bs.length then .ok (s.scratchWrite t a bs) else .bad
  | some .clScratch => .ok (s.clWrite (clusterOf t) (a - 0x1000000000) bs)
  | some .device => match s.devStore t a (BitVec.ofNat 64 (leVal bs)) with
    | .ok s1 => .ok s1
    | .stall => .wait
    | .trap _ => .bad
  | some .cached =>
    let h := a - cachedBase
    let s1 := s.pokeLine (coreOf t) h bs
    if s.pokeRight h = 3 then .ok s1 else if s.pokeRight h = 2 then .ok (s1.textWritten (coreOf t) (h / 64)) else .bad
  | some .uncached =>
    let h := a - uncachedBase
    let s1 := s.updMem fun m => m.store h bs
    if s.pokeRight h = 3 then .ok s1 else if s.pokeRight h = 2 then .ok (s1.textWritten (coreOf t) (h / 64)) else .bad
  | _ => .bad

/-- Write a doubleword of a space. -/
def State.debugSet (s : State) (t space a : Nat) (bs : List Byte) : DbgW :=
  match space with
  | 0 => s.debugSetReg t (a / 8) (BitVec.ofNat 64 (leVal bs))
  | 1 => if inScratch a 8 then .ok (s.scratchWrite t a bs) else .bad
  | 2 => s.debugPoke t a bs
  | _ => .bad

def State.debugSets (s : State) (t space a n : Nat) (data : List Byte) : DbgW :=
  match n with
  | 0 => .ok s
  | k + 1 => match s.debugSet t space a (slice data 0 8) with
    | .ok s1 => s1.debugSets t space (a + 8) k (data.drop 8)
    | .wait => .wait
    | .bad => .bad

def debugWriteBody (t space addr len : Nat) (data : List Byte) (s : State) : State × Ans :=
  if 1535 < t ∨ 3 < space ∨ addr % 8 ≠ 0 ∨ len % 8 ≠ 0 ∨ len = 0 ∨ 24 < len then (s, badArg)
  else if needsHalt space ∧ (s.tr t).halted.isNone then (s, wrongState)
  else match s.debugSets t space addr (len / 8) data with
    | .ok s1 => (s1, .ok)
    | .wait => (s, .wait)
    | .bad => (s, badArg)

def execDebugWrite (c : CmdRef) (thread space addr len : Nat) (data : List Byte) (s : State) : Out :=
  s.command c 0x0A05 [(2, thread), (1, space), (8, addr), (4, len), bytesField 24 data]
    (guarded (debugWriteBody thread space addr len data))

/-! ### Discarding a packet (R570) -/

/-- The packet of a domain with a sequence number that is assigned and neither committed nor void. -/
def State.seqPkt (s : State) (domain : Nat) (seq : W32) : Option Nat :=
  (s.domPkts domain).find? fun p => (s.pkt p).seq = seq && (s.pkt p).refusal.isNone

/-- The packet leaves the dispatch list, its NEXT slot or the hold queue. -/
def State.unplace (s : State) (p : Nat) : State :=
  match (s.pkt p).st with
  | .listed => s.listDrop p
  | .next t => s.updTr t fun x => { x with next := none }
  | .held => s.updWell (s.pkt p).well fun w => { w with held := w.held.filter fun e => e.1 ≠ p }
  | _ => s

def debugDiscardBody (domain : Nat) (seq : W32) (s : State) : State × Ans :=
  match s.seqPkt domain seq with
  | none => (s, wrongState)
  | some p =>
    if (s.rc p).discard.isSome then (s, .ok)
    else (((if (s.rc p).ct then s.stompCt p else s).unplace p).discardPkt p 0, .ok)

def execDebugDiscard (c : CmdRef) (domain : Nat) (seq : W32) (s : State) : Out :=
  s.command c 0x0A08 [(2, domain), (4, seq.toNat)] (debugDiscardBody domain seq)

/-! ### Trace (R571) -/

def traceConfigBody (cl mode : Nat) (filter : W64) (s : State) : State × Ans :=
  if 11 < cl ∨ 3 < mode ∨ 2 ^ 25 ≤ filter.toNat then (s, badArg)
  else (s.updCl cl fun k => { k with trace := { mode := mode, filter := filter } }, .ok)

def execTraceConfig (c : CmdRef) (cluster mode : Nat) (filter : W64) (s : State) : Out :=
  s.command c 0x0A06 [(1, cluster), (1, mode), (8, filter.toNat)] (guarded (traceConfigBody cluster mode filter))

/-- A record's 16 bytes. -/
def TraceRec.image (r : TraceRec) : List Byte :=
  leBytes 2 r.t ++ leBytes 1 r.kind ++ leBytes 1 r.detail ++ leBytes 4 r.time.toNat ++ leBytes 8 r.addr.toNat

def traceReadBody (cl : Nat) (s : State) : State × Ans :=
  let tr := (s.cl cl).trace
  if 11 < cl then (s, badArg)
  else (s, .data (leBytes 4 tr.recs.length ++ leBytes 8 tr.drops.toNat ++ leBytes 4 tr.wrapped.toNat
    ++ tr.recs.flatMap TraceRec.image))

def execTraceRead (c : CmdRef) (cluster : Nat) (s : State) : Out :=
  s.command c 0x0A07 [(1, cluster)] (guarded (traceReadBody cluster))

end Sys2Proof.Machine
end

