-- ==== Sys2Proof/Machine/Trust.lean ====
section
/-!
DEFINITION. Priming, device resets, images, firmware, attestation and the debug unlock (R506-R530).
-/

namespace Sys2Proof.Machine

/-! ### Firmware images (R512, R513) -/

def FwImage.version (i : Sys2Proof.FwImage) : Nat := leVal (slice i.header 8 4)
def FwImage.svn (i : Sys2Proof.FwImage) : Nat := leVal (slice i.header 12 1)
def FwImage.commitSvn (i : Sys2Proof.FwImage) : Bool := leVal (slice i.header 6 1) % 2 = 1

/-- MAGIC, FORMAT and BODY_LEN are as R512 states. -/
def FwImage.formOk (i : Sys2Proof.FwImage) : Bool :=
  let n := leVal (slice i.header 16 4)
  i.header.length = 512 && leVal (slice i.header 0 4) = 0x5A465748 && leVal (slice i.header 4 2) = 1
    && n ≤ 8388096 && i.body.length = n

/-- The header is valid (R513). -/
def State.fwHeaderOk (s : State) (i : Sys2Proof.FwImage) : Bool :=
  let msg := sm3 (slice i.header 0 256)
  let who := ascii "QZMFIRMWARE1"
  let fen := slice i.header 64 64
  let cust := slice i.header 128 64
  FwImage.formOk i && decide (sm3 fen = Config.romKeyHash) && Config.sm2Verify fen who msg (slice i.header 256 64)
    && (SMap.get 0 s.trust.otp 0x10 = 0
      || (decide (sm3 cust = s.otpBytes 0x10 32) && Config.sm2Verify cust who msg (slice i.header 320 64)))
    && s.svn 0x20 ≤ FwImage.svn i

def FwImage.bodyOk (i : Sys2Proof.FwImage) : Bool := sm3 i.body = slice i.header 32 32

/-- The image is valid (R513). -/
def State.fwOk (s : State) (i : Sys2Proof.FwImage) : Bool := s.fwHeaderOk i && FwImage.bodyOk i

/-! ### Choosing a slot (R514) -/

def State.slot (s : State) (n : Nat) : Sys2Proof.FlashSlot := if n = 0 then s.trust.slotA else s.trust.slotB
def State.setSlot (s : State) (n : Nat) (x : Sys2Proof.FlashSlot) : State :=
  s.updTrust fun t => if n = 0 then { t with slotA := x } else { t with slotB := x }

/-- Three starts without CONFIRMED. -/
def FlashSlot.failed (x : Sys2Proof.FlashSlot) : Bool := x.tries &&& 7 = 0 && x.confirmed ≠ 0

/-- The image of a slot whose header is valid and that is not FAILED. -/
def State.candidate (s : State) (n : Nat) : Option Sys2Proof.FwImage :=
  match (s.slot n).image with
  | some i => if s.fwHeaderOk i ∧ !FlashSlot.failed (s.slot n) then some i else none
  | none => none

/-- The slot to start and its image; none when no candidate's body matches its digest. -/
def State.chooseSlot (s : State) : Option (Nat × Sys2Proof.FwImage) :=
  let ok := fun (n : Nat) (o : Option Sys2Proof.FwImage) => match o with
    | some i => if FwImage.bodyOk i then some (n, i) else none
    | none => none
  match s.candidate 0, s.candidate 1 with
  | some a, some b =>
    let old := s.trust.straps.strapSafe
    let takeA := if FwImage.version a = FwImage.version b then true
      else if old then decide (FwImage.version a < FwImage.version b) else decide (FwImage.version b < FwImage.version a)
    if takeA then (ok 0 (some a)).or (ok 1 (some b)) else (ok 1 (some b)).or (ok 0 (some a))
  | a, b => (ok 0 a).or (ok 1 b)

/-- Clear the next TRIES bit of a slot that is not confirmed. -/
def State.tried (s : State) (n : Nat) : State :=
  let x := s.slot n
  if x.confirmed = 0 then s else s.setSlot n { x with tries := x.tries &&& (x.tries <<< 1) }

/-! ### The steps of priming (R508-R510, R525) -/

def State.setStep (s : State) (n : Nat) : State := s.updDci fun d => { d with step := n }

/-- Priming ends in FAULT with a cause, at a step. -/
def State.primeFault (s : State) (step cause : Nat) : State := (s.setStep step).toFault cause

/-- The firmware of a slot (0 A, 1 B, 2 pushed) is started: it is measured, and `REV`.FIRMWARE shows it. -/
def State.startFw (s : State) (n : Nat) (i : Sys2Proof.FwImage) : State :=
  ((s.updTrust fun t => { t with fw := some i, fwSlot := n }).updDci fun d => { d with
    firmware := BitVec.ofNat 32 (FwImage.version i) }).logMeas 3 n (sm3 i.header)

/-- The firmware writes CONFIRMED to its slot; an image with COMMIT_SVN raises FW_SVN (R514, R519). -/
def State.confirmFw (s : State) : State :=
  match s.trust.fw with
  | none => s
  | some i =>
    if 1 < s.trust.fwSlot then s
    else
      let s1 := s.setSlot s.trust.fwSlot { s.slot s.trust.fwSlot with confirmed := 0 }
      if FwImage.commitSvn i then s1.raiseSvn 0x20 (FwImage.svn i) else s1

/-- The bytes of a copy in the Pumphouse region: the image in whole 32-byte units. -/
def fwBytes (i : Sys2Proof.FwImage) : List Byte :=
  let b := i.header ++ i.body
  b ++ List.replicate ((32 - b.length % 32) % 32) 0

/-- The place of a copy in the Pumphouse region: two of 8 MiB and a header from its base (log 95). -/
def State.copyAddr (s : State) (place : Nat) : Nat := s.regionAddr 7 (16777216 * place)

/-- The image is copied into the Pumphouse region (R508, R530). -/
def State.copyFw (s : State) (i : Sys2Proof.FwImage) (place : Nat) : State :=
  s.updMem fun m => m.store (s.copyAddr place) (fwBytes i)

/-- The active copy matches the digest latched (R526). -/
def State.copyOk (s : State) : Bool :=
  match s.trust.fw with
  | none => true
  | some i =>
    let n := (fwBytes i).length
    let a := s.copyAddr s.trust.fwPlace
    !s.mem.poisoned a n && sm3 (s.mem.read a n) = sm3 (fwBytes i)

/-- What cannot be repaired is not admitted: cores are retired and clusters FAILED (R510). The test's buffers are freed
(R176). -/
def State.bistDone (s : State) (o : Sys2Proof.PrimingObs) : State :=
  let s1 := o.badCores.foldl (fun (acc : State) k => acc.updCore k fun x => { x with retired := true }) s
  (o.badClusters.foldl (fun (acc : State) k => acc.updCl k fun x => { x with st := .failed }) s1).poolDrop 8

/-- A pseudo-channel that fails training is retired without any copy: the cistern gives up 2 GiB, whose granules become
spare (R469, R471). -/
def State.trainRetire (s : State) (pc : Nat) : State :=
  let gib := s.cistern.sizeGib - 2
  let s1 := (s.cisternResize gib).updCistern fun k => { k with fencedPcs := insNat k.fencedPcs pc }
  let s2 := s1.updHbm fun h => { h with pools := h.pools ++ [(s1.regionAddr 6 (gib * 1073741824), 2147483648)] }
  let w := s2.granuleWork pc
  s2.updHbm fun h => { h with
    redirects := mapGranules h.redirects (w.1 ++ w.2) (s2.spareGranules pc), retired := insNat h.retired pc }

/-- Pseudo-channels that fail training, each once. -/
def badPcsOf (o : Sys2Proof.PrimingObs) : List Nat := (o.badPcs.filter (· < 64)).eraseDups

/-- The HBM after cold training: the partition of R453 and the pseudo-channels that failed retired. -/
def State.coldTrain (s : State) (o : Sys2Proof.PrimingObs) : State :=
  let gib := 1073741824
  let s1 := (s.updMem fun m => { m with
    regions := partitionOf (4 * gib) (268435456) (8 * gib) (16 * gib) (32 * gib) }).updCistern fun k => { k with
      sizeGib := 32, limit := blocksOfGib 32 }
  (badPcsOf o).foldl State.trainRetire s1

/-- A mode for both stacks. -/
def State.stacks (s : State) (m : StackMode) : State :=
  (s.updStack 0 fun x => { x with mode := m }).updStack 1 fun x => { x with mode := m }

/-- After a warm reset's restart: the lease's timeout goes on, and accepted commands that had not completed are answered
STATE with DETAIL 1 (R525). -/
def State.warmEnd (s : State) : State :=
  let left := (s.dci.journal.filter fun j => j.resp.isNone).map fun j => (⟨j.fn, j.e.cseq⟩ : Sys2Proof.CmdRef)
  left.foldl (fun (acc : State) c => acc.finish c 10 1 [] []) s.leaseThaw

/-- FINISH: STATE becomes READY, CONFIRMED is written, PRIMING buffers are freed (R176), and epochs that ran before a warm reset resume (R445, R508). -/
def State.primeReady (s : State) (warm : Bool) : State :=
  let s1 := (((s.setStep 6).setDev .ready 0).confirmFw).poolDrop 7
  let s2 := if s1.ledger.resume then
      (s1.openEpoch s1.dt).updLedger fun l => { l with resume := false }
    else s1
  if warm then s2.warmEnd else s2

/-- The steps from SRAM_BIST on. -/
def State.primeRest (s : State) : State :=
  match s.trust.obs with
  | none => s
  | some o =>
    let warm := s.dci.st = .warmReset
    let fault := fun (step cause : Nat) (x : State) =>
      if warm then (x.primeFault step cause).warmEnd else x.primeFault step cause
    if o.sramFatal then fault 3 1 s
    else if 4 < (badPcsOf o).length then fault 4 2 (s.stacks .fault)
    else
      let s1 := s.bistDone o
      let s2 := (if warm then s1.updHbm fun h => { h with hardDone := h.hard.foldl insNat h.hardDone, hard := [] }
        else s1.coldTrain o).stacks .active
      let s3 := match s2.trust.fw with
        | some i => s2.copyFw i s2.trust.fwPlace
        | none => s2
      if SMap.get 0 s.trust.otp 2 ≠ 0 then s3.primeReady warm
      else if !o.trngOk then fault 6 3 s3
      else
        let k := s3.drawBytes 32
        (k.2.updTrust fun t => { t with otp := SMap.set 0 t.otp 2 (leVal k.1) }).primeReady warm

/-- The ROM waits for a push (R510, R515). -/
def State.waitPush (s : State) (f : HostFn) (status : Nat) : State :=
  (s.setStep 2).updTrust fun t => { t with boot := { waits := some f, status := status } }

/-- FW_FETCH (R507, R514, R515): manufacturing test stops at STEP 7. -/
def State.fwFetch (s : State) : State :=
  if s.trust.straps.bootSrc = 3 then s.setStep 7
  else match s.pushFn, s.chooseSlot with
    | some f, _ => s.waitPush f 0
    | none, some (n, i) => ((s.tried n).startFw n i).primeRest
    | none, none => s.waitPush .hostA 5

/-- The bytes of the OTP configuration that is measured: fields 0x10 to 0x21 in order (log 60). -/
def State.otpConfig (s : State) : List Byte :=
  s.otpBytes 0x10 32 ++ s.otpBytes 0x11 32 ++ s.otpBytes 0x12 1 ++ s.otpBytes 0x13 64 ++ s.otpBytes 0x14 1
    ++ s.otpBytes 0x20 8 ++ s.otpBytes 0x21 8

/-- COLD_PRIMING: PORST_N has risen and the brown-out state is left; the straps are sampled and the steps run. -/
def execColdPriming (o : PrimingObs) (s : State) : Out :=
  if s.trust.brown ∨ s.trust.obs.isSome then done s
  else
    let s1 := s.updTrust fun t => { t with
      porst := false, obs := some o, slotA := o.slotA, slotB := o.slotB, straps := ⟨o.bootSrc, o.pcieMode, o.strapSafe⟩ }
    done ((s1.logMeas 1 Config.romRev.toNat Config.romDigest).logMeas 2 0 s1.otpConfig).fwFetch

/-- HOST_PUSH_GO: BOOT_CTL is written with LEN and GO (R515). -/
def execHostPushGo (fn : HostFn) (len : Nat) (s : State) : Out :=
  done (s.bootWrite fn 0x4008 (BitVec.ofNat 64 (len % 16777216 + 16777216)))

/-- HOST_PUSH_DONE: the image has been read and is verified; a failure leaves the ROM waiting for another push. -/
def execHostPushDone (image : FwImage) (s : State) : Out :=
  let setStatus := fun (n : Nat) => s.updTrust fun t => { t with boot := { t.boot with status := n } }
  if s.trust.boot.status ≠ 1 ∨ s.trust.boot.waits.isNone then done s
  else if !FwImage.formOk image ∨ image.header.length + image.body.length ≠ s.trust.boot.ctl.toNat % 16777216 then
    done (setStatus 4)
  else if !s.fwOk image then done (setStatus 3)
  else
    let s1 := s.updTrust fun t => { t with boot := { t.boot with status := 2, waits := none } }
    done (s1.startFw 2 image).primeRest

/-! ### Cold reset (R524, R528) -/

/-- Everything volatile is lost: the OTP, the flash, the repairs programmed, and what stands outside the device stay. -/
def State.coldReset (s : State) (porst brown : Bool) : State :=
  { State.reset with
    pending := s.pending, out := s.out, free := s.free, net := { quiesce := s.net.quiesce }
    hbm := { hardDone := s.hbm.hardDone }
    trust := { otp := s.trust.otp, slotA := s.trust.slotA, slotB := s.trust.slotB, porst := porst, brown := brown } }

/-- COLD_RESET: PORST_N falls; it overrides every other reset. -/
def execColdReset (s : State) : Out := done (s.coldReset true s.trust.brown)

/-- BROWN_OUT: the device acts as if PORST_N were low (R586). -/
def execBrownOut (s : State) : Out := done (s.coldReset s.trust.porst true)

/-- BROWN_OUT_RECOVERY: both supplies are back; priming starts with the sampling of the straps (R586). -/
def execBrownOutRecovery (s : State) : Out := done (s.updTrust fun t => { t with brown := false })

/-! ### Warm reset (R525, R527, R528) -/

/-- Device time over a warm reset: DT counts on with its source and PPS settings. Every snapshot latch is empty again
(log 154). -/
def TimeSt.warm (t : TimeSt) : TimeSt :=
  { t with cycles := 0, cycTenths := 0, localNs := 0, ivBase := t.ns.toNat, snaps := [], reads := [], deferred := [], ptp := {}, refs := {} }

/-- The HBM over a warm reset: partition, retirements and repairs are kept (R473, R527). -/
def HbmSt.warm (h : HbmSt) : HbmSt :=
  { stackA := { h.stackA with mode := .selfRefresh }, stackB := { h.stackB with mode := .selfRefresh }
    retired := h.retired, redirects := h.redirects, pools := h.pools
    soft := h.soft, hard := h.hard, hardDone := h.hardDone
    pcs := h.pcs.filterMap fun e => if e.2.trainTemp = 0 then none else some (e.1, { trainTemp := e.2.trainTemp }) }

/-- DCI over a warm reset: a function reset of each function; the lease, the journal and the event store stay. -/
def FnSt.warm (x : FnSt) : FnSt := { x.reset with rx := [], tx := [] }

/-- Trust over a warm reset: straps, OTP, flash and the measurement log stay; the unlock ends. -/
def TrustSt.warm (t : TrustSt) : TrustSt :=
  { straps := t.straps, otp := t.otp, slotA := t.slotA, slotB := t.slotB, obs := t.obs, meas := t.meas, chain := t.chain
    overflow := t.overflow, porst := t.porst, brown := t.brown, wrst := t.wrst, jtag := t.jtag }

/-- The basin over a warm reset: cells retired stay so, and DT's record of their errors (R188, R191). -/
def BasinSt.warm (b : BasinSt) : BasinSt := { retired := b.retired, lost := b.lost, spares := b.spares, faults := b.faults }

/-- The logic reset of t0 + 25 µs. -/
def State.logicReset (s : State) : State :=
  { State.reset with
    pending := s.pending, out := s.out, free := s.free, time := s.time.warm, mem := s.mem, hbm := s.hbm.warm
    net := { quiesce := s.net.quiesce, wells := s.net.wells.map fun e => (e.1, { refclk := e.2.refclk }) }
    basin := s.basin.warm
    cistern := { sizeGib := s.cistern.sizeGib, limit := blocksOfGib s.cistern.sizeGib, fencedPcs := s.hbm.retired }
    power := { failing := s.power.failing }
    ledger := { s.ledger with init := none, reads := [] }
    dci := { s.dci with fnA := s.dci.fnA.warm, fnB := s.dci.fnB.warm, step := 1 }
    faults := { log := s.faults.log, nextSeq := s.faults.nextSeq }
    trust := s.trust.warm }

/-- The reset up to its logic reset: STATE, the sluices, the ledger's seals, self-refresh. -/
def State.warmStart (s : State) : State :=
  let s1 := ((s.setDev .warmReset 0).leaseFreeze).updNet fun n => { n with shut := true }
  let s2 := if s1.time.st = .locked then s1.leaveLocked 5 else s1
  let s3 := (s2.sealEarly 1).updLedger fun l => { l with resume := l.resume || s2.ledger.openEp.isSome }
  s3.logicReset

/-- The device can be reset warm: it is powered, and no power-fail flush runs (R528, R543). -/
def State.canWarm (s : State) : Bool := !s.trust.porst && !s.trust.brown && s.trust.obs.isSome && s.power.flush.isNone

/-- A warm reset in priming after a cold reset restarts priming at STEP 1. -/
def State.warmOrPrime (s : State) : State :=
  if s.dci.st = .priming then (s.setStep 1).updTrust fun t => { t with boot := {}, resetAt := none } else s.warmStart

/-- WARM_RESET: a DEVICE_RESET takes effect and runs on to READY, or WRST_N has fallen and holds the device. -/
def execWarmReset (s : State) : Out :=
  if !s.canWarm then done s
  else
    let due := match s.trust.resetAt with
      | some d => decide (d ≤ s.dt)
      | none => false
    if due then done s.warmOrPrime.fwFetch
    else done (s.warmOrPrime.updTrust fun t => { t with wrst := true })

/-- WRST_RISE: the steps after the logic reset run. -/
def execWrstRise (s : State) : Out :=
  if !s.trust.wrst then done s else done (s.updTrust fun t => { t with wrst := false }).fwFetch

/-- DEVICE_RESET: the reset starts 1 ms after the response. -/
def deviceResetBody (kind : Nat) (s : State) : State × Ans :=
  if kind ≠ 0 then (s, badArg)
  else (s.updTrust fun t => { t with resetAt := some (t.resetAt.getD (s.dt + 1000000)) }, .ok)

def execDeviceReset (c : CmdRef) (kind : Nat) (s : State) : Out := s.command c 0x0105 [(1, kind)] (deviceResetBody kind)

/-! ### DEVICE_INFO (R479, R499) -/

/-- The result of DEVICE_INFO (log 26): the identity block, SERIAL, the versions in slots A and B (0 with no image), the
straps, then each cluster's state and version and the retired cores of it. -/
def State.deviceImage (s : State) (f : HostFn) : List Byte :=
  let ver := fun (n : Nat) => ((s.slot n).image.map FwImage.version).getD 0
  let st := s.trust.straps
  let gone := fun (c : Nat) => total ((List.range 16).map fun k => if (s.core (16 * c + k)).retired then 2 ^ k else 0)
  s.identity f ++ s.otpBytes 1 8 ++ layout ([(4, ver 0), (4, ver 1),
      (1, st.bootSrc.toNat + 4 * st.pcieMode.toNat + 16 * st.strapSafe.toNat)]
    ++ (List.range 12).flatMap fun c => [(1, (s.cl c).st.code), (2, (s.cl c).version), (2, gone c)])

def deviceInfoBody (f : HostFn) (s : State) : State × Ans := (s, .data (s.deviceImage f))

def execDeviceInfo (c : CmdRef) (s : State) : Out := s.command c 0x0101 [] (deviceInfoBody c.fn)

/-! ### Program images (R518) -/

/-- A table value is an aligned offset into the text. -/
def offsetOk (textLen v : Nat) : Bool := v % 4 = 0 && v < textLen

def allOnes64 : Nat := 18446744073709551615

/-- The `k`-th value of an image's entry table (0) or vector table (1). -/
def imageWord (bs : List Byte) (table k : Nat) : Nat := leVal (slice bs (256 + 2048 * table + 8 * k) 8)

/-- The header and the tables are well formed, and LEN and VERSION fit the command. -/
def imageFormOk (version : Nat) (bs : List Byte) : Bool :=
  let tl := leVal (slice bs 12 4)
  let dl := leVal (slice bs 16 4)
  leVal (slice bs 0 4) = 0x4B525631 && leVal (slice bs 4 2) = 1 && leVal (slice bs 6 2) < 2 && leVal (slice bs 8 2) = version
    && leVal (slice bs 10 1) ≤ 64 && tl % 64 = 0 && tl ≤ 16777216 && dl % 64 = 0 && dl ≤ 16777216
    && bs.length = 4352 + tl + dl
    && (List.range 256).all (fun k => offsetOk tl (imageWord bs 0 k))
    && (List.range 256).all fun k => imageWord bs 1 k = allOnes64 || offsetOk tl (imageWord bs 1 k)

/-- An image at an HBM address: table values become addresses (R246, R278). -/
def imageAt (bs : List Byte) (text : Nat) : Image :=
  let a := cachedBase + text
  { version := leVal (slice bs 8 2), text := text, textLen := leVal (slice bs 12 4), dataLen := leVal (slice bs 16 4)
    entry := (List.range 256).map fun k => BitVec.ofNat 64 (a + imageWord bs 0 k)
    vector := (List.range 256).map fun k => if imageWord bs 1 k = allOnes64 then 0 else BitVec.ofNat 64 (a + imageWord bs 1 k)
    digest := slice bs 32 32, svn := leVal (slice bs 10 1), commitSvn := leVal (slice bs 6 1) % 2 = 1 }

/-- The signature is as PROG_SIGN asks. -/
def State.imageSigOk (s : State) (bs : List Byte) : Bool :=
  let key := slice bs 64 64
  SMap.get 0 s.trust.otp 0x12 % 2 = 0
    || (decide (sm3 key = s.otpBytes 0x11 32)
      && Config.sm2Verify key (ascii "QZMPROGRAM1") (sm3 (slice bs 0 128)) (slice bs 128 64))

def Image.size (i : Image) : Nat := i.textLen + i.dataLen

/-- The lowest place for `n` bytes in the images region among the images held. -/
def State.imagePlace (s : State) (l : List Image) (n : Nat) : Option Nat :=
  match s.mem.regions.find? fun r => r.use = 3 with
  | none => none
  | some r =>
    let starts := r.base :: l.map fun i => i.text + i.size
    let fits := starts.filter fun a => decide (a + n ≤ r.base + r.size) && l.all fun i => decide (a + n ≤ i.text ∨ i.text + i.size ≤ a)
    match fits with
    | [] => none
    | a :: rest => some (rest.foldl Nat.min a)

/-- No cluster runs the version. -/
def State.unused (s : State) (i : Image) : Bool := s.clusters.all fun e => !e.2.loaded || e.2.version ≠ i.version

/-- Evict the oldest versions that no cluster runs until `n` bytes fit: the images left and the place. -/
def State.makeRoom (s : State) (l : List Image) (n fuel : Nat) : Option (List Image × Nat) :=
  match s.imagePlace l n with
  | some a => some (l, a)
  | none => match fuel, l.find? s.unused with
    | k + 1, some i => s.makeRoom (l.filter (· ≠ i)) n k
    | _, _ => none

/-- IMAGE_LOAD: `image` is what host memory holds at ADDR. -/
def imageLoadBody (c : CmdRef) (version len : Nat) (image : List Byte) (s : State) : State × Ans :=
  let i := imageAt image 0
  if s.trust.loads.any fun l => l.c = c then (s, .later)
  else if image.length ≠ len ∨ !imageFormOk version image then (s, badArg)
  else if sm3 (image.drop 256) ≠ i.digest ∨ !s.imageSigOk image ∨ i.svn < s.svn 0x21 then (s, authFail)
  else match s.trust.images.find? fun x => x.version = version with
    | some x => (s, if x.digest = i.digest then .ok else wrongState)
    | none =>
      if (s.makeRoom s.trust.images i.size s.trust.images.length).isNone then (s, noRoom)
      else (s.updTrust fun t => { t with loads := t.loads ++ [⟨c, image.take 256, i, image.drop 4352⟩] }, .later)

def execImageLoad (c : CmdRef) (version addr len : Nat) (image : List Byte) (s : State) : Out :=
  s.command c 0x0400 [(2, version), (8, addr), (4, len)] (imageLoadBody c version len image)

/-- An entry moves with its image. -/
def Image.moved (i : Image) (a : Nat) : Image :=
  let up := BitVec.ofNat 64 a
  { i with text := a, entry := i.entry.map (· + up), vector := i.vector.map fun v => if v = 0 then 0 else v + up }

/-- IMAGE_LOAD_DONE: the text and data are in the images region, and the image is measured (R521). -/
def execImageLoadDone (c : CmdRef) (s : State) : Out :=
  match s.trust.loads.find? fun l => l.c = c with
  | none => done s
  | some l =>
    if !s.phRuns then done s
    else
      let s1 := s.updTrust fun t => { t with loads := t.loads.filter fun x => x.c ≠ c }
      match s.trust.images.find? fun x => x.version = l.image.version with
      | some x => done (s1.answer c (if x.digest = l.image.digest then .ok else wrongState))
      | none => match s.makeRoom s.trust.images l.image.size s.trust.images.length with
        | none => done (s1.answer c noRoom)
        | some (left, a) =>
          let s2 := (s1.updTrust fun t => { t with images := left ++ [l.image.moved a] }).updMem fun m => m.store a l.bytes
          done ((s2.logMeas 4 l.image.version (sm3 l.header)).answer c .ok)

/-! ### Firmware update and activation (R529, R530) -/

/-- FW_STATE (R500). -/
def State.fwState (s : State) (slot st : Nat) : State := s.event 0x0B00 [(1, slot), (1, st)]

/-- FW_UPDATE: `image` is what host memory holds at ADDR. -/
def fwUpdateBody (c : CmdRef) (slot len : Nat) (image : Sys2Proof.FwImage) (s : State) : State × Ans :=
  if 1 < slot then (s, badArg)
  else match s.trust.writing with
    | some w => (s, if w.c = c then .later else busy)
    | none =>
      if s.trust.trial.isSome then (s, busy)
      else if s.trust.fwSlot = slot ∧ s.trust.fw.isSome then (s, wrongState)
      else if !FwImage.formOk image ∨ image.header.length + image.body.length ≠ len then (s, badArg)
      else if !s.fwOk image then (s, authFail)
      else
        let s1 := (s.setSlot slot ⟨none, 0xFF, 0xFF⟩).updTrust fun t => { t with writing := some ⟨c, slot, image, s.dt⟩ }
        (s1.fwState slot 0, .later)

def execFwUpdate (c : CmdRef) (slot addr len : Nat) (image : FwImage) (s : State) : Out :=
  s.command c 0x0B04 [(1, slot), (8, addr), (4, len)] (fwUpdateBody c slot len image)

/-- FW_UPDATE_DONE: the slot is written and checked, or the flash has not completed within 120 s. -/
def execFwUpdateDone (c : CmdRef) (ok : Bool) (s : State) : Out :=
  match s.trust.writing with
  | none => done s
  | some w =>
    let late := decide (w.startDt + 120 * secNs ≤ s.dt)
    if w.c ≠ c ∨ !s.phRuns ∨ (!ok ∧ !late) then done s
    else
      let s1 := s.updTrust fun t => { t with writing := none }
      if ok ∧ !late then done (((s1.setSlot w.slot ⟨some w.image, 0xFF, 0xFF⟩).fwState w.slot 1).answer c .ok)
      else done (((s1.setSlot w.slot ⟨none, 0xF8, 0xFF⟩).fwState w.slot 5).answer c timedOut)

/-- FW_ACTIVATE: answered, then the Pumphouse restarts from the slot. -/
def fwActivateBody (c : CmdRef) (slot : Nat) (s : State) : State × Ans :=
  if 1 < slot then (s, badArg)
  else if s.trust.writing.isSome ∨ s.trust.trial.isSome then (s, busy)
  else match (s.slot slot).image with
    | none => (s, wrongState)
    | some i =>
      if !s.fwOk i then (s, wrongState)
      else
        let s1 := ((s.answer c .ok).fwState slot 2).updTrust fun t => { t with trial := some ⟨slot, i, s.dt⟩ }
        (s1.phPartStart false, .wait)

def execFwActivate (c : CmdRef) (slot : Nat) (s : State) : Out :=
  s.command c 0x0B05 [(1, slot)] (fwActivateBody c slot)

/-- The new firmware is given up: the copy that ran before is started. -/
def State.rollBack (s : State) : State :=
  match s.trust.trial with
  | none => s
  | some t => (s.updTrust fun x => { x with trial := none }).fwState t.slot 4

/-- FW_CONFIRM_TIMEOUT: the new firmware has not reached READY within 2 s. -/
def execFwConfirmTimeout (s : State) : Out :=
  match s.trust.trial with
  | none => done s
  | some t => if s.dci.st ≠ .phRestart ∨ s.dt < t.startDt + 2 * secNs then done s else done s.rollBack

/-! ### The end of a Pumphouse restart (R105, R189, R190, R489, R524, R526) -/

/-- The trial's image starts: it is valid, and in time (R530). -/
def State.trialOk (s : State) : Bool :=
  match s.trust.trial with
  | some t => s.fwOk t.image && decide (s.dt < t.startDt + 2 * secNs)
  | none => false

/-- The active firmware starts again. -/
def State.startActive (s : State) : State :=
  match s.trust.fw with
  | some i => s.startFw s.trust.fwSlot i
  | none => s

/-- The firmware that starts: the trial's image, copied beside the active one and then the active one itself, or the active
copy (R526, R530). -/
def State.restartFw (s : State) : State :=
  match s.trust.trial with
  | some t =>
    if s.trialOk then
      let k := 1 - s.trust.fwPlace
      let s1 := (s.copyFw t.image k).updTrust fun x => { x with trial := none, fwPlace := k }
      ((s1.startFw t.slot t.image).confirmFw).fwState t.slot 3
    else s.rollBack.startActive
  | none => s.startActive

/-- PUMPHOUSE buffers are freed, and a basin rebuild begins again. -/
def State.restartBuffers (s : State) : State :=
  let hs := (s.basin.bufs.filter fun e => e.2.cls = 4).map Prod.fst
  let s1 := hs.foldl State.freeBuf s
  if s1.basin.rebuild then s1.updBasin fun b => { b with rebuildWait := true, rebuildStart := s.dt } else s1

/-- Discovery that had not completed is repeated. -/
def State.restartModules (s : State) : State :=
  (List.range 64).foldl (fun (acc : State) k =>
    match (acc.cage k).phase with
    | .idPoll | .lowPower | .pages | .powerUp => acc.cageRelease k
    | _ => acc) s

/-- Accepted commands without a response are run again, from their beginning. -/
def State.rerunAll (s : State) : State :=
  s.updDci fun d => { d with journal := d.journal.map fun j =>
    if j.resp.isNone then { j with rerun := true, started := false } else j }

/-- PH_RESTARTED on each function, with the commands re-run on it (R500). -/
def State.restarted (s : State) (f : HostFn) : State :=
  let body := layout [(4, s.dci.phRestarts.toNat),
    (4, (s.dci.journal.filter fun j => j.fn = f && j.rerun && j.resp.isNone).length)]
  (s.eventOn f 0x0004 s.time.ns body).logEvent 0x0004 s.time.ns body

/-- PH_RESTART is left for a state: the events that waited follow the report of the change into PH_RESTART (R480, R500). -/
def State.leaveRestart (s : State) (st : DevState) (cause : Nat) : State :=
  let held := s.event 0x0003 [(1, 1), (1, 2), (1, 0)]
  let live : State := { held with dci := { held.dci with st := st, cause := cause } }
  let told := live.fns.foldl (fun (acc : State) f => (acc.putWaiting f).irq f 2) live
  told.event 0x0003 [(1, 2), (1, st.code), (1, cause)]

/-- The active copy does not match its digest: the device is in FAULT with cause FW_COPY, and no firmware starts (R526, R549). -/
def State.copyFault (s : State) (r : ResetRun) : State :=
  (((s.rollBack.restartBuffers.rerunAll).leaveRestart .fault 5).deviceFault.leaseThaw).updFaults fun f => { f with
    resets := f.resets.filter fun x => x ≠ r }

/-- PH_RESTART_DONE. -/
def execPhRestartDone (s : State) : Out :=
  match s.faults.resets.find? fun r => r.kind = 6 with
  | none => done s
  | some r =>
    if s.dci.st ≠ .phRestart ∧ s.dci.st ≠ .fault then done s
    else if s.dci.st = .phRestart ∧ !s.trialOk ∧ !s.copyOk then done (s.copyFault r)
    else
      let up := s.dci.st = .phRestart
      let s1 := (s.restartFw.restartBuffers.restartModules).rerunAll
      let s2 := if up then s1.leaveRestart .ready 0 else s1.fns.foldl State.putWaiting s1
      done ((s2.fns.foldl State.restarted s2).leaseThaw.partDone r)

/-! ### Attestation and the debug unlock (R520, R522, R523) -/

/-- ATTEST: signed with the identity key. -/
def attestBody (nonce : List Byte) (s : State) : State × Ans :=
  if s.trngBad then (s, faulted)
  else
    let t := s.trust
    let msg := leBytes 4 0x5A415454 ++ leBytes 4 t.meas.length ++ leBytes 4 t.overflow.toNat ++ [0, 0, 0, 0]
      ++ s.otpBytes 1 8 ++ leBytes 8 s.dt ++ slice t.chain 0 32 ++ slice nonce 0 32 ++ t.meas.flatMap Meas.bytes
    let k := s.draw
    (k.2, .data (msg ++ Config.sm2Sign s.idKey (ascii "QZMDEVICE1") (sm3 msg) k.1))

def execAttest (c : CmdRef) (nonce : List Byte) (s : State) : Out :=
  s.command c 0x0B00 [bytesField 32 nonce] (attestBody nonce)

def identityCertBody (s : State) : State × Ans := (s, .data (s.otpBytes 3 1024 ++ Config.intermediateCert))

def execIdentityCert (c : CmdRef) (s : State) : Out := s.command c 0x0B01 [] identityCertBody

/-- DEBUG_CHALLENGE: a fresh nonce, valid for 60 s of DT. -/
def debugChallengeBody (s : State) : State × Ans :=
  if s.trngBad then (s, faulted)
  else
    let k := s.drawBytes 32
    (k.2.updTrust fun t => { t with nonce := some (k.1, s.dt) }, .data k.1)

def execDebugChallenge (c : CmdRef) (s : State) : Out := s.command c 0x0B02 [] debugChallengeBody

/-- DEBUG_UNLOCK: `by_` is the command, none through JTAG. A nonce is consumed by the first unlock that names it. -/
def debugUnlockBody (by_ : Option Sys2Proof.CmdRef) (nonce sig : List Byte) (s : State) : State × Ans :=
  let t := s.trust
  let key := s.otpBytes 0x13 64
  let fresh := match t.nonce with
    | some (n, d) => decide (n = nonce ∧ s.dt < d + 60 * secNs)
    | none => false
  if by_.isSome ∧ t.unlockBy = by_ then (s, .ok)
  else if !fresh then (s, authFail)
  else
    let s1 := s.updTrust fun t => { t with nonce := none }
    if SMap.get 0 t.otp 0x13 ≠ 0 ∧ Config.sm2Verify key (ascii "QZMDEBUG1") (sm3 (nonce ++ s.otpBytes 1 8)) sig then
      ((s1.updTrust fun t => { t with unlocked := true, unlockBy := by_ }).logMeas 5 0 (sm3 nonce), .ok)
    else (s1, authFail)

def execDebugUnlock (c : CmdRef) (nonce sig : List Byte) (s : State) : Out :=
  s.command c 0x0B03 [bytesField 32 nonce, bytesField 64 sig] (debugUnlockBody (some c) nonce sig)

/-- DEBUG_NONCE_EXPIRY: 60 s of DT have passed. -/
def execDebugNonceExpiry (s : State) : Out :=
  match s.trust.nonce with
  | some (_, d) => if s.dt < d + 60 * secNs then done s else done (s.updTrust fun t => { t with nonce := none })
  | none => done s

end Sys2Proof.Machine
end

