-- ==== Sys2Proof/Machine/Jtag.lean ====
section
/-!
DEFINITION. The JTAG port: boundary scan, DEBUG_ACCESS and OTP programming (R517, R523, R573, R574, R593).
-/

namespace Sys2Proof.Machine

def State.updJtag (s : State) (f : JtagSt → JtagSt) : State := s.updTrust fun t => { t with jtag := f t.jtag }

/-- The instructions that take the pins. -/
def takesPins (ir : Nat) : Bool := ir = 0 || ir = 3 || ir = 4 || ir = 5 || ir = 6

/-- The 32-bit identifier. -/
def idcodeWord : Nat := Config.silicon.toNat % 16 * 2 ^ 28 + 0x0192 * 2 ^ 12 + 0x4A3 * 2 + 1

/-- An instruction enters the instruction register, and what its data register captures. -/
def State.loadIr (s : State) (ir dr : Nat) : State := s.updJtag fun j => { j with ir := ir, dr := dr }

/-- What the boundary-scan register captures is not in the spec: a free value (log 2). -/
def State.scanIr (s : State) (ir : Nat) : State :=
  let k := s.draw
  k.2.loadIr ir k.1.toNat

/-- The pins are taken from the logic: every port is sluiced and every link is lost. -/
def State.takePins (s : State) : State :=
  let s1 := (s.updJtag fun j => { j with pins := true }).updNet fun n => { n with shut := true }
  ((s1.net.ports.filter fun e => e.2.link.present).map Prod.fst).foldl (fun (acc : State) p => acc.loseLink p 0) s1

def execExtest (s : State) : Out := done (s.scanIr 0).takePins
def execSamplePreload (s : State) : Out := done (s.scanIr 1)
def execIdcode (s : State) : Out := done (s.loadIr 2 idcodeWord)
/-- CLAMP: the bypass register captures 0. -/
def execClampJ (s : State) : Out := done (s.loadIr 3 0).takePins
def execHighz (s : State) : Out := done (s.loadIr 4 0).takePins
def execExtestPulse (s : State) : Out := done (s.scanIr 5).takePins
def execExtestTrain (s : State) : Out := done (s.scanIr 6).takePins
def execBypass (s : State) : Out := done (s.loadIr 0xFF 0)

/-- TAP_RESET: IDCODE is selected (R573, R593). -/
def execTapReset (s : State) : Out := done (s.loadIr 2 idcodeWord)

/-- BOUNDARY_SCAN_EXIT: a pin-taking instruction has left the instruction register, which starts a warm device reset; it
waits for a power-fail flush. -/
def execBoundaryScanExit (s : State) : Out :=
  let j := s.trust.jtag
  if !j.pins ∨ takesPins j.ir ∨ s.power.flush.isSome then done s
  else
    let s1 := s.updJtag fun j => { j with pins := false }
    done (if s1.canWarm then s1.warmOrPrime.fwFetch else s1)

/-! ### DEBUG_ACCESS (R574) -/

/-- The debug and trust commands that DEBUG_ACCESS may carry, their fields read from the payload (R497, R499). -/
def debugBody (op : Nat) (p : List Byte) : Option (State → State × Ans) :=
  let f := fun (o n : Nat) => leVal (slice p o n)
  match op with
  | 0x0A00 => some (guarded (debugHaltBody (f 0 2) (f 2 1)))
  | 0x0A01 => some (debugResumeBody (f 0 2))
  | 0x0A02 => some (guarded (debugStepNow (f 0 2) (f 2 2)))
  | 0x0A03 => some (guarded (debugBreakBody (f 0 1) (f 1 1) (f 2 1) (f 8 8)))
  | 0x0A04 => some (guarded (debugReadBody (f 0 2) (f 2 1) (f 8 8) (f 16 4)))
  | 0x0A05 => some (guarded (debugWriteBody (f 0 2) (f 2 1) (f 8 8) (f 16 4) (slice p 24 24)))
  | 0x0A06 => some (guarded (traceConfigBody (f 0 1) (f 1 1) (BitVec.ofNat 64 (f 8 8))))
  | 0x0A07 => some (guarded (traceReadBody (f 0 1)))
  | 0x0A08 => some (debugDiscardBody (f 0 2) (BitVec.ofNat 32 (f 4 4)))
  | 0x0B02 => some debugChallengeBody
  | 0x0B03 => some (debugUnlockBody none (slice p 0 32) (slice p 32 64))
  | _ => none

/-- The response entry in the register; a result of more than 40 bytes is not available (log 62). -/
def State.jtagAnswer (s : State) (e : List Byte) (a : Ans) : State :=
  let put := fun (st det : Nat) (res : List Byte) (x : State) =>
    let img := rspImage (BitVec.ofNat 32 (leVal (slice e 4 4))) (leVal (slice e 0 2)) st (BitVec.ofNat 16 (leVal (slice e 10 2)))
      0 0 0 (BitVec.ofNat 32 det) res
    x.updJtag fun j => { j with dr := leVal img }
  match a with
  | .reply st det res _ => if 40 < res.length then put 4 res.length [] s else put st det res s
  | _ => s

/-- DEBUG_ACCESS: one command runs without the lease, the sequence check and the journal. -/
def execDebugAccess (dr : BitVec 1024) (s : State) : Out :=
  let e := leBytes 128 dr.toNat
  let op := leVal (slice e 0 2)
  let plen := leVal (slice e 8 2)
  let p := (slice e 16 112).take plen
  let s1 := s.updJtag fun j => { j with ir := 0x20 }
  if s.trust.porst ∨ s.trust.brown ∨ s.trust.obs.isNone then done s
  else match debugBody op p, catOf op with
    | some body, some r =>
      if leVal (slice e 2 2) ≠ 0 ∨ leVal (slice e 12 4) ≠ 0 ∨ 112 < plen ∨ !fitsCommand r p then done (s1.jtagAnswer e badArg)
      else match body s1 with
        | (_, .wait) => done s
        | (s2, a) =>
          let tooLong := match a with
            | .reply _ _ res _ => decide (40 < res.length)
            | _ => false
          done ((if tooLong then s1 else s2).jtagAnswer e a)
    | _, _ => done (s1.jtagAnswer e unsupported)

/-! ### OTP_PROG (R516, R517) -/

/-- Bits of an OTP field. -/
def otpBits (id : Nat) : Nat :=
  match id with
  | 0x01 | 0x20 | 0x21 => 64
  | 0x02 | 0x04 | 0x10 | 0x11 => 256
  | 0x03 => 8192
  | 0x12 | 0x14 => 1
  | 0x13 => 512
  | _ => 0

/-- The bits of a chunk of a field: its number of bits and its present value. -/
def State.otpChunk (s : State) (id c : Nat) : Nat × Nat :=
  let n := Nat.min 2048 (otpBits id - 2048 * c)
  (n, SMap.get 0 s.trust.otp id / 2 ^ (2048 * c) % 2 ^ n)

/-- Program the 1 bits of a value into a chunk; a value without a bit that is 1 already programs nothing. -/
def State.otpWrite (s : State) (id c v : Nat) : State :=
  let k := s.otpChunk id c
  let w := v % 2 ^ k.1
  if w ||| k.2 ≠ w then s
  else s.updTrust fun t => { t with otp := SMap.set 0 t.otp id (SMap.get 0 t.otp id ||| w * 2 ^ (2048 * c)) }

/-- OTP_PROG: in manufacturing test, not while debugging is locked; ids 0x01 to 0x04 belong to Fenilqua's test flow. -/
def execOtpProg (dr : BitVec 2064) (s : State) : Out :=
  let id := dr.toNat % 256
  let c := dr.toNat / 256 % 256
  let v := dr.toNat / 65536
  let open_ := s.trust.obs.isSome && s.trust.straps.bootSrc = 3 && !s.debugLocked
  if s.trust.porst ∨ s.trust.brown then done s
  else if !open_ ∨ id < 0x10 then done (s.loadIr 0x21 (id + 256 * c))
  else
    let s1 := s.otpWrite id c v
    done (s1.loadIr 0x21 (id + 256 * c + 65536 * (s1.otpChunk id c).2))

end Sys2Proof.Machine
end

