-- ==== Sys2Proof/Machine/UsothDecode.lean ====
section
/-!
DEFINITION. The instruction words of Usoth-1 (R290-R292, R304, R308, R319, R335, R338, R342): the four formats, the opcode
map, and what each word is to a thread: an instruction, an undefined encoding, or an operation that a fitted unit refuses.
-/

namespace Sys2Proof.Machine

/-- What a word is to a thread. -/
inductive UWord where
  | instr (i : Instr)
  | undef
  /-- An operation code that a fitted unit does not define (R326, R333). -/
  | refused (unit : Nat)
deriving DecidableEq, Repr

/-- The fields of the formats A, I, B and J (R290). -/
def wMajor (w : W32) : Nat := w.toNat / 0x4000000
def wGd (w : W32) : Reg := BitVec.ofNat 5 (w.toNat / 0x200000)
def wGa (w : W32) : Reg := BitVec.ofNat 5 (w.toNat / 0x10000)
def wGb (w : W32) : Reg := BitVec.ofNat 5 (w.toNat / 0x800)
def wFn (w : W32) : Nat := w.toNat % 0x800
def wImm (w : W32) : BitVec 16 := BitVec.ofNat 16 w.toNat
/-- In format B the tested register stands in [25:21]. -/
def wOff21 (w : W32) : BitVec 21 := BitVec.ofNat 21 w.toNat
def wOff26 (w : W32) : BitVec 26 := BitVec.ofNat 26 w.toNat

/-- The word is this instruction when its unused fields are 0 (R291). -/
def usedOnly (ok : Bool) (i : Instr) : UWord := if ok then .instr i else .undef

/-- Major 0x00 (R294). -/
def decodeAlu (t : Nat) (w : W32) : UWord :=
  let d := wGd w
  let a := wGa w
  let b := wGb w
  match wFn w with
  | 0x00 => .instr (.addR t d a b)
  | 0x01 => .instr (.subR t d a b)
  | 0x02 => .instr (.andR t d a b)
  | 0x03 => .instr (.orR t d a b)
  | 0x04 => .instr (.xorR t d a b)
  | 0x05 => .instr (.andnR t d a b)
  | 0x06 => .instr (.addwR t d a b)
  | 0x07 => .instr (.subwR t d a b)
  | 0x08 => .instr (.sllR t d a b)
  | 0x09 => .instr (.srlR t d a b)
  | 0x0A => .instr (.sraR t d a b)
  | 0x0B => .instr (.rorR t d a b)
  | 0x10 => .instr (.ceqR t d a b)
  | 0x11 => .instr (.cneR t d a b)
  | 0x12 => .instr (.cltR t d a b)
  | 0x13 => .instr (.cltuR t d a b)
  | 0x14 => .instr (.cleR t d a b)
  | 0x15 => .instr (.cleuR t d a b)
  | 0x16 => .instr (.cbsR t d a b)
  | 0x17 => .instr (.cbcR t d a b)
  | 0x18 => .instr (.minR t d a b)
  | 0x19 => .instr (.maxR t d a b)
  | 0x1A => .instr (.minuR t d a b)
  | 0x1B => .instr (.maxuR t d a b)
  | 0x20 => .instr (.mulR t d a b)
  | 0x21 => .instr (.mulhuR t d a b)
  | 0x22 => .instr (.mulhR t d a b)
  | 0x30 => usedOnly (b = 0) (.bswap16 t d a)
  | 0x31 => usedOnly (b = 0) (.bswap32 t d a)
  | 0x32 => usedOnly (b = 0) (.bswap64 t d a)
  | 0x33 => usedOnly (b = 0) (.popc t d a)
  | 0x34 => usedOnly (b = 0) (.clz t d a)
  | 0x35 => usedOnly (b = 0) (.ctz t d a)
  | 0x40 => usedOnly (a = 0 && b = 0) (.rdlk t d)
  | 0x41 => usedOnly (d = 0 && b = 0) (.wrlk t a)
  | _ => .undef

/-- Majors 0x06 and 0x0B to 0x0D: shifts, bit tests and fields (R295, R296). -/
def decodeShift (t : Nat) (w : W32) : UWord :=
  let d := wGd w
  let a := wGa w
  let n : BitVec 6 := BitVec.ofNat 6 w.toNat
  match (wImm w).toNat / 64 with
  | 0 => .instr (.slli t d a n)
  | 1 => .instr (.srli t d a n)
  | 2 => .instr (.srai t d a n)
  | 3 => .instr (.rori t d a n)
  | _ => .undef

def decodeBit (t : Nat) (w : W32) : UWord :=
  let n : BitVec 6 := BitVec.ofNat 6 w.toNat
  match (wImm w).toNat / 64 with
  | 0 => .instr (.cbsi t (wGd w) (wGa w) n)
  | 1 => .instr (.cbci t (wGd w) (wGa w) n)
  | _ => .undef

def decodeField (t : Nat) (w : W32) : UWord :=
  let pos : BitVec 6 := BitVec.ofNat 6 w.toNat
  let len : BitVec 6 := BitVec.ofNat 6 (w.toNat / 64)
  if 64 < pos.toNat + len.toNat + 1 then .undef
  else match wMajor w, (wImm w).toNat / 4096 with
    | 0x0C, 0 => .instr (.extu t (wGd w) (wGa w) pos len)
    | 0x0C, 1 => .instr (.exts t (wGd w) (wGa w) pos len)
    | 0x0D, 0 => .instr (.insF t (wGd w) (wGa w) pos len)
    | _, _ => .undef

/-- Major 0x21: the operation and its level stand in the gd field (R308). -/
def decodeCache (t : Nat) (w : W32) : UWord :=
  let all := w.getLsbD 24
  let a := wGa w
  let i := wImm w
  match w.toNat / 0x200000 % 8, w.getLsbD 25 with
  | 0, false => .instr (.czero t all a i)
  | 1, false => .instr (.cclean t all a i)
  | 2, false => .instr (.cinval t all a i)
  | 3, false => .instr (.cflush t all a i)
  | 4, false => .instr (.cpref t all a i)
  | _, _ => .undef

/-- Major 0x26 (R297). -/
def decodeJump (t : Nat) (w : W32) : UWord :=
  let z := wGd w = 0 && wGb w = 0
  match wFn w with
  | 0 => usedOnly z (.jr t (wGa w))
  | 1 => usedOnly z (.jrl t (wGa w))
  | 2 => usedOnly (z && wGa w = 0) (.retI t)
  | 3 => usedOnly (z && wGa w = 0) (.jlk t)
  | _ => .undef

/-- Major 0x28 (R304). -/
def decodeString (t : Nat) (w : W32) : UWord :=
  let size : BitVec 2 := BitVec.ofNat 2 w.toNat
  let d := wGd w
  let a := wGa w
  let b := wGb w
  match wFn w / 4 with
  | 0 => usedOnly (d = 0 && a = 0 && b = 0) (.bcopy t size)
  | 1 => usedOnly (d = 0 && b = 0) (.bfill t size a)
  | 2 => usedOnly (a = 0 && b = 0) (.bcmp t size d)
  | 3 => .instr (.bfind t size false d a b)
  | 7 => .instr (.bfind t size true d a b)
  | _ => .undef

/-- Major 0x29 (R309, R317). -/
def decodeJournal (t : Nat) (w : W32) : UWord :=
  let d := wGd w
  let a := wGa w
  let b := wGb w
  match wFn w with
  | 0x00 => .instr (.lkp t d a b)
  | 0x01 => .instr (.weir t d a b)
  | 0x10 => .instr (.jemit t d a b)
  | 0x11 => .instr (.jdeliv t d a b)
  | 0x12 => .instr (.jcnt t d a b)
  | 0x13 => .instr (.jledg t d a b)
  | 0x14 => .instr (.jtbl t d a b)
  | 0x15 => .instr (.jctx t d a b)
  | 0x16 => usedOnly (b = 0) (.jfree t d a)
  | _ => .undef

/-- Major 0x2A: the operation in function[10:8], its argument in [1:0] (R319). -/
def decodeOrder (t : Nat) (w : W32) : UWord :=
  let n : BitVec 2 := BitVec.ofNat 2 w.toNat
  if w.toNat / 0x800 % 0x8000 ≠ 0 ∨ wFn w / 4 % 64 ≠ 0 then .undef
  else match wFn w / 256 with
    | 0 => .instr (.orderEnter t n)
    | 1 => .instr (.orderExit t n)
    | 2 => usedOnly (n ≠ 3) (.retire t n)
    | _ => .undef

/-- Majors 0x2B and 0x2C: tasks and channels (R320, R322). -/
def decodeTask (t : Nat) (w : W32) : UWord :=
  let d := wGd w
  let a := wGa w
  let b := wGb w
  match wFn w with
  | 0 => .instr (.waitev t d a b)
  | 1 => usedOnly (d = 0) (.setev t a b)
  | 2 => .instr (.delay t d a b)
  | 3 => .instr (.fork t d a b)
  | 4 => usedOnly (b = 0) (.join t d a)
  | 5 => .instr (.park t d a b)
  | 6 => usedOnly (d = 0 && a = 0 && b = 0) (.endI t)
  | _ => .undef

def decodeChannel (t : Nat) (w : W32) : UWord :=
  let d := wGd w
  let a := wGa w
  let z := wGb w = 0
  match wFn w with
  | 0 => .instr (.chput t d a (wGb w))
  | 1 => usedOnly z (.chend t d a)
  | 2 => usedOnly z (.chget t d a)
  | 3 => usedOnly z (.chpoll t d a)
  | _ => .undef

/-- Majors 0x2D to 0x2F (R323-R325). -/
def decodeSystem (t : Nat) (w : W32) : UWord :=
  let n : BitVec 8 := BitVec.ofNat 8 w.toNat
  let z := wGa w = 0 && (wImm w).toNat / 256 = 0
  match wMajor w, wFn w with
  | 0x2D, _ => usedOnly z (.mfs t (wGd w) n)
  | 0x2E, _ => usedOnly z (.mts t (wGd w) n)
  | 0x2F, 0 => usedOnly (w.toNat / 0x800 % 0x8000 = 0) (.tret t)
  | 0x2F, 1 => .instr (.breakI t (BitVec.ofNat 15 (w.toNat / 0x800)))
  | _, _ => .undef

/-- Unit 0: operation in function[3:0], CRC size in [5:4], polynomial in [6] (R335). -/
def decodeSum (t : Nat) (w : W32) : UWord :=
  let d := wGd w
  let a := wGa w
  let b := wGb w
  let size : BitVec 2 := BitVec.ofNat 2 (w.toNat / 16)
  let poly := w.getLsbD 6
  if wFn w / 128 ≠ 0 then .refused 0
  else match wFn w % 16, wFn w / 16 with
    | 0, 0 => .instr (.csum t d a b)
    | 1, 0 => .instr (.csumadj t d a b)
    | 2, _ => .instr (.crc t d a b size poly)
    | 3, 0 => usedOnly (b = 0) (.csumm t d a)
    | 4, 0 | 4, 4 => usedOnly (b = 0) (.crcm t d a poly)
    | _, _ => .refused 0

/-- Unit 1 (R342) and unit 2 (R338). -/
def decodeCrypto (t : Nat) (w : W32) : UWord :=
  let z := wGb w = 0
  match wFn w with
  | 0 => usedOnly z (.gctrEnc t (wGd w) (wGa w))
  | 1 => usedOnly z (.gctrDec t (wGd w) (wGa w))
  | 2 => usedOnly z (.ghashAad t (wGd w) (wGa w))
  | 3 => .instr (.gcmFinal t (wGd w) (wGa w) (wGb w))
  | _ => .refused 1

def decodeHash (t : Nat) (w : W32) : UWord :=
  match wFn w with
  | 0 => .instr (.hmix t (wGd w) (wGa w) (wGb w))
  | 1 => .instr (.tplz t (wGd w) (wGa w) (wGb w))
  | 2 => .instr (.hrange t (wGd w) (wGa w) (wGb w))
  | _ => .refused 2

/-- The instruction that a word is to a thread, by the opcode map (R292). A REP takes the word after it with it: whether the
two go together is the prefix's own check (R302). -/
def usothDecode (t : Nat) (w nxt : W32) : UWord :=
  let d := wGd w
  let a := wGa w
  let i := wImm w
  match wMajor w with
  | 0x00 => decodeAlu t w
  | 0x01 => .instr (.addi t d a i)
  | 0x02 => .instr (.andi t d a i)
  | 0x03 => .instr (.ori t d a i)
  | 0x04 => .instr (.xori t d a i)
  | 0x05 => .instr (.shlori t d a i)
  | 0x06 => decodeShift t w
  | 0x07 => .instr (.ceqi t d a i)
  | 0x08 => .instr (.cnei t d a i)
  | 0x09 => .instr (.clti t d a i)
  | 0x0A => .instr (.cltui t d a i)
  | 0x0B => decodeBit t w
  | 0x0C => decodeField t w
  | 0x0D => decodeField t w
  | 0x10 => .instr (.lb t d a i)
  | 0x11 => .instr (.lbu t d a i)
  | 0x12 => .instr (.lh t d a i)
  | 0x13 => .instr (.lhu t d a i)
  | 0x14 => .instr (.lw t d a i)
  | 0x15 => .instr (.lwu t d a i)
  | 0x16 => .instr (.ld t d a i none)
  | 0x17 => .instr (.lhn t d a i)
  | 0x18 => .instr (.lwn t d a i)
  | 0x19 => .instr (.ldn t d a i)
  | 0x1A => .instr (.sb t d a i)
  | 0x1B => .instr (.sh t d a i)
  | 0x1C => .instr (.sw t d a i)
  | 0x1D => .instr (.sd t d a i)
  | 0x1E => .instr (.shn t d a i)
  | 0x1F => .instr (.swn t d a i)
  | 0x20 => .instr (.sdn t d a i)
  | 0x21 => decodeCache t w
  | 0x22 => .instr (.bz t d (wOff21 w))
  | 0x23 => .instr (.bnz t d (wOff21 w))
  | 0x24 => .instr (.br t (wOff26 w))
  | 0x25 => .instr (.call t (wOff26 w))
  | 0x26 => decodeJump t w
  | 0x27 => .instr (.rep t w nxt)
  | 0x28 => decodeString t w
  | 0x29 => decodeJournal t w
  | 0x2A => decodeOrder t w
  | 0x2B => decodeTask t w
  | 0x2C => decodeChannel t w
  | 0x2D => decodeSystem t w
  | 0x2E => decodeSystem t w
  | 0x2F => decodeSystem t w
  | 0x30 => decodeSum t w
  | 0x31 => decodeCrypto t w
  | 0x32 => decodeHash t w
  | _ => .undef

end Sys2Proof.Machine
end

