-- ==== Sys2Proof/Machine/UsothHelper.lean ====
section
/-!
DEFINITION. The coprocessor helpers: checksum/CRC, hash and crypto units (R329-R344).
-/

namespace Sys2Proof.Machine

/-! ### Refusals (R327, R333) -/

/-- COPROC_REFUSED by a unit for a reason. -/
def refused (unit reason : Nat) : Trap := ⟨.coproc, BitVec.ofNat 64 (unit + 256 * reason), 0⟩

/-- Unit 0 or 2 of the core is disabled (R334). -/
def State.helperOff (s : State) (t unit : Nat) : Bool := (s.core (coreOf t)).helperOff.getLsbD unit

/-- A long operation of another thread occupies the unit: units 0 and 2 of the core, crypto unit 3 + u of the
cluster (R332). -/
def State.unitBusy (s : State) (t unit : Nat) : Bool :=
  let all := if unit < 3 then coreThreads (coreOf t) else clusterThreads (clusterOf t)
  all.any fun u => match (s.tr u).wait with
    | .long k _ _ _ => k = unit
    | _ => false

/-- A short operation of unit 0 or 2: disabled, busy, or its result. -/
def shortOp (t unit : Nat) (rs : List Reg) (bad : State → Option Nat) (gd : Reg) (v : State → W64) (s : State) : Out :=
  issueRegs t rs (fun s =>
    if bad s = some 1 then some (s.trap t (refused unit 1))
    else if s.helperOff t unit then some (s.trap t (refused unit 2))
    else match bad s with
      | some r => some (s.trap t (refused unit r))
      | none => if s.unitBusy t unit then none else some (s.result t gd (v s))) s

/-! ### Checksum and CRC (R335-R337) -/

/-- csum of R336. -/
def csumVal (a b : W64) : W64 :=
  BitVec.ofNat 64 (foldSum (a.toNat % 2 ^ 32 + b.toNat / 2 ^ 48 + b.toNat / 2 ^ 32 % 65536
    + b.toNat / 65536 % 65536 + b.toNat % 65536))

/-- csumadj of R336. -/
def csumadjVal (a b : W64) : W64 :=
  BitVec.ofNat 64 (65535 - foldSum ((65535 - a.toNat % 65536) + (65535 - b.toNat / 65536 % 65536) + b.toNat % 65536))

/-- crc of R337: byte 0 of gb first. -/
def crcVal (a b : W64) (size : Nat) (ieee : Bool) : W64 :=
  (crcBytes (crcPoly ieee) (a.setWidth 32) (leBytes size b.toNat)).setWidth 64

/-- CSUM (R336). -/
def execCsum (t : Nat) (gd ga gb : Reg) (s : State) : Out :=
  shortOp t 0 [gd, ga, gb] (fun _ => none) gd (fun s => csumVal (s.reg t ga) (s.reg t gb)) s

/-- CSUMADJ (R336). -/
def execCsumadj (t : Nat) (gd ga gb : Reg) (s : State) : Out :=
  shortOp t 0 [gd, ga, gb] (fun _ => none) gd (fun s => csumadjVal (s.reg t ga) (s.reg t gb)) s

/-- CRC (R335, R337). -/
def execCrc (t : Nat) (gd ga gb : Reg) (size : BitVec 2) (ieee : Bool) (s : State) : Out :=
  shortOp t 0 [gd, ga, gb] (fun _ => none) gd
    (fun s => crcVal (s.reg t ga) (s.reg t gb) (2 ^ size.toNat) ieee) s

/-! ### Hash (R338) -/

/-- hmix of R338. -/
def hmixVal (a b : W64) : W64 :=
  let x := a ^^^ (b * 0x9E3779B97F4A7C15)
  let y := (x ^^^ (x >>> 29)) * 0xB4F162D5A39E0C7B
  y ^^^ (y >>> 32)

/-- hrange of R338. -/
def hrangeVal (a b : W64) : W64 := BitVec.ofNat 64 (a.toNat % 2 ^ 32 * (b.toNat % 2 ^ 32) / 2 ^ 32)

/-- A Toeplitz key (R135); a key nothing has set is zeros. -/
def State.hashKey (s : State) (k : Nat) : List Byte := SMap.get [] s.net.hashKeys k

/-- tplz of R338. -/
def State.tplzVal (s : State) (d a b : W64) : W64 :=
  ((d.setWidth 32 : W32) ^^^ toeplitz (s.hashKey (b.toNat % 16)) (8 * (b.toNat / 16 % 64)) (beBytes 8 a.toNat)).setWidth 64

/-- HMIX (R338). -/
def execHmix (t : Nat) (gd ga gb : Reg) (s : State) : Out :=
  shortOp t 2 [gd, ga, gb] (fun _ => none) gd (fun s => hmixVal (s.reg t ga) (s.reg t gb)) s

/-- TPLZ (R333, R338): an offset above 52 is refused with OPERAND, nonzero gb[63:10] with UNDEF_OP. -/
def execTplz (t : Nat) (gd ga gb : Reg) (s : State) : Out :=
  shortOp t 2 [gd, ga, gb]
    (fun s => let b := (s.reg t gb).toNat
      if b / 1024 ≠ 0 then some 1 else if 52 < b / 16 % 64 then some 5 else none)
    gd (fun s => s.tplzVal (s.reg t gd) (s.reg t ga) (s.reg t gb)) s

/-- HRANGE (R338). -/
def execHrange (t : Nat) (gd ga gb : Reg) (s : State) : Out :=
  shortOp t 2 [gd, ga, gb] (fun _ => none) gd (fun s => hrangeVal (s.reg t ga) (s.reg t gb)) s

/-! ### Long operations (R331) -/

/-- g24, g25, g26. -/
def State.src (s : State) (t : Nat) : Nat := (s.reg t 24).toNat
def State.dst (s : State) (t : Nat) : Nat := (s.reg t 25).toNat
def State.cnt (s : State) (t : Nat) : Nat := (s.reg t 26).toNat

/-- The buffer window may be written: it shows a provisional buffer of the run (R263). -/
def State.windowWritable (s : State) (t : Nat) : Bool :=
  match s.curPkt t, s.buf (s.thr t).bufsel.toNat with
  | some p, some b => b.cls = 3 && b.prov = some p
  | _, _ => false

/-- The operand rules of R331: the lowest reason that applies, of OPERAND and RANGE (R333). A count of 0 names no byte, so
its empty ranges break no rule. -/
def State.longBad (s : State) (t : Nat) (writing : Bool) : Option Nat :=
  let n := s.cnt t
  let a := s.src t
  let d := s.dst t
  if 10240 < n then some 5
  else if n = 0 then none
  else if (localArea a n).isNone then some 6
  else if writing then
    let ok := match localArea d n with
      | some 2 => true
      | some 3 => s.windowWritable t
      | _ => false
    if ok && (a = d || a + n ≤ d || d + n ≤ a) then none else some 6
  else none

/-- Start a long operation: bytes not yet arrived stall it; a count of 0 completes at once and changes nothing. -/
def State.startLong (s : State) (t unit : Nat) (gd ga : Reg) (op : LongOp) : Option State :=
  if s.unitBusy t unit then none
  else if s.cnt t = 0 then some (s.advance t)
  else match s.localRead t (s.src t) (s.cnt t) with
    | .stall => none
    | .trap x => some (s.trap t x)
    | .ok _ => some (s.updTr t fun x => { x with wait := .long unit gd ga op })

/-- The source of a long operation, when it is late. -/
def State.lateLong (s : State) (t unit : Nat) : Option (Nat × Nat) :=
  if s.unitBusy t unit then none else s.lateRange t (s.src t) (s.cnt t)

/-- CSUMM (R335, R336). -/
def execCsumm (t : Nat) (gd ga : Reg) (s : State) : Out :=
  issueRegsLate t [gd, ga, 24, 25, 26] (fun s => s.lateLong t 0) (fun s =>
    if s.helperOff t 0 then some (s.trap t (refused 0 2))
    else match s.longBad t false with
      | some r => some (s.trap t (refused 0 r))
      | none => s.startLong t 0 gd ga .csumm) s

/-- CRCM (R335, R337). -/
def execCrcm (t : Nat) (gd ga : Reg) (ieee : Bool) (s : State) : Out :=
  issueRegsLate t [gd, ga, 24, 25, 26] (fun s => s.lateLong t 0) (fun s =>
    if s.helperOff t 0 then some (s.trap t (refused 0 2))
    else match s.longBad t false with
      | some r => some (s.trap t (refused 0 r))
      | none => s.startLong t 0 gd ga (.crcm ieee)) s

/-! ### Crypto (R339-R344) -/

/-- The control word: key slot, unit; none for a nonzero bit given as 0 (R342). -/
def cryptoCtl (v : W64) : Option (Nat × Nat) :=
  if v.toNat / 8192 ≠ 0 then none else some (v.toNat % 4096, v.toNat / 4096)

/-- The state groups allowed (R344). -/
def groupOk (b : Reg) : Bool := b = 4 || b = 8 || b = 12 || b = 16 || b = 20 || b = 28

def State.keySlot (s : State) (k : Nat) : KeySlot := SMap.get {} s.keys k

/-- The lock that guards crypto unit u of a cluster (R341). -/
def cryptoLock (cluster u : Nat) : Nat := 4072 + 2 * cluster + u

/-- The lowest refusal reason of a crypto operation, count and range apart (R333, R341, R344). -/
def State.cryptoBad (s : State) (t : Nat) (gd ga : Reg) : Option Nat :=
  match cryptoCtl (s.reg t ga) with
  | none => some 1
  | some (k, u) =>
    if (s.cl (clusterOf t)).cryptoOff.getLsbD u then some 2
    else if (s.lock (cryptoLock (clusterOf t) u)).holder ≠ some (.thread t) then some 3
    else if (s.keySlot k).alg = 0 then some 4
    else if !groupOk gd then some 5
    else none

def State.cryptoUnit (s : State) (t : Nat) (ga : Reg) : Nat := fld (s.reg t ga) 12 1
def State.cryptoKey (s : State) (t : Nat) (ga : Reg) : KeySlot := s.keySlot (fld (s.reg t ga) 0 12)

/-- The registers of a state group. -/
def groupRegs (b : Reg) : List Reg := [b, b + 1, b + 2, b + 3]

/-- A long crypto operation. -/
def cryptoLong (t : Nat) (gd ga : Reg) (writing : Bool) (op : KeySlot → LongOp) (s : State) : Out :=
  issueRegsLate t (groupRegs gd ++ [ga, 24, 25, 26]) (fun s => s.lateLong t (3 + s.cryptoUnit t ga)) (fun s =>
    match s.cryptoBad t gd ga with
    | some r => some (s.trap t (refused 1 r))
    | none => match s.longBad t writing with
      | some r => some (s.trap t (refused 1 r))
      | none => s.startLong t (3 + s.cryptoUnit t ga) gd ga (op (s.cryptoKey t ga))) s

/-- GCTR_ENC (R342, R344). -/
def execGctrEnc (t : Nat) (gd ga : Reg) (s : State) : Out :=
  cryptoLong t gd ga true (fun k => .gctr true k.alg k.key) s

/-- GCTR_DEC (R342, R344). -/
def execGctrDec (t : Nat) (gd ga : Reg) (s : State) : Out :=
  cryptoLong t gd ga true (fun k => .gctr false k.alg k.key) s

/-- GHASH_AAD (R342, R344). -/
def execGhashAad (t : Nat) (gd ga : Reg) (s : State) : Out :=
  cryptoLong t gd ga false (fun k => .ghash k.alg k.key) s

/-- Two registers as a 128-bit block: the first holds the first bytes (R343). -/
def State.pair (s : State) (t : Nat) (b : Reg) : BitVec 128 :=
  BitVec.ofNat 128 ((s.reg t b).toNat * 2 ^ 64 + (s.reg t (b + 1)).toNat)

def State.setPair (s : State) (t : Nat) (b : Reg) (v : BitVec 128) : State :=
  (s.setReg t b (BitVec.ofNat 64 (v.toNat / 2 ^ 64))).setReg t (b + 1) (BitVec.ofNat 64 v.toNat)

/-- GCM_FINAL (R342, R344). -/
def execGcmFinal (t : Nat) (gd ga gb : Reg) (s : State) : Out :=
  issueRegs t (groupRegs gd ++ [ga, gb]) (fun s =>
    match s.cryptoBad t gd ga with
    | some r => some (s.trap t (refused 1 r))
    | none =>
      if s.unitBusy t (3 + s.cryptoUnit t ga) then none
      else
        let k := s.cryptoKey t ga
        let len := (s.reg t gb).toNat
        let tag := gcmTag k.alg k.key (s.pair t gd) (s.pair t (gd + 2)) (len % 2 ^ 32) (len / 2 ^ 32)
        some ((s.setPair t (gd + 2) tag).advance t)) s

/-- The operands move on: g24, and g25 for a writing operation, by the count; g26 is 0 (R331). The values the operation
began with are read from `s0`, before its result is written. -/
def State.longEnd (s s0 : State) (t : Nat) (writing : Bool) : State :=
  let n := s0.reg t 26
  let s1 := s.setReg t 24 (s0.reg t 24 + n)
  let s2 := if writing then s1.setReg t 25 (s0.reg t 25 + n) else s1
  ((s2.setReg t 26 0).complete t 0 0).unstall (coreOf t)

/-- LONG_OP_DONE: the long operation of a thread completes in its unit (R331, R550). -/
def execLongOpDone (t : Nat) (s : State) : Out :=
  match (s.tr t).wait with
  | .long _ gd ga op =>
    match s.localRead t (s.src t) (s.cnt t) with
    | .stall => done s
    | .trap x => done ((s.updTr t fun r => { r with wait := .none }).trap t x)
    | .ok src =>
      let a := s.reg t ga
      done ((match op with
        | .csumm =>
          (s.setReg t gd (BitVec.ofNat 64 (foldSum (a.toNat % 2 ^ 32 + pairSum src)))).longEnd s t false
        | .crcm ieee =>
          (s.setReg t gd ((crcBytes (crcPoly ieee) (a.setWidth 32) src).setWidth 64)).longEnd s t false
        | .ghash alg key => (s.setPair t (gd + 2) (ghashAll alg key src (s.pair t (gd + 2)))).longEnd s t false
        | .gctr enc alg key =>
          let r := gctr enc alg key src (s.pair t gd) (s.pair t (gd + 2))
          match s.localWrite t (s.dst t) r.1 with
          | .ok s1 => ((s1.setPair t gd r.2.1).setPair t (gd + 2) r.2.2).longEnd s t true
          | .stall => s
          | .trap x => (s.updTr t fun r => { r with wait := .none }).trap t x).stepCheck t)
  | _ => done s

/-! ### Words that are no instruction (R291, R292, R326) -/

/-- COPROC_UNFITTED: the word at PC is for a unit that is not fitted, or is undefined in any other way, and raises
UNDEF_INSTR; an operation code that a fitted unit does not define is refused with UNDEF_OP. A word that is an instruction
has its own command, and this one changes nothing (R291, R292, R326, R333, log 168). -/
def execCoprocUnfitted (t : Nat) (w : W32) (s : State) : Out :=
  match usothDecode t w 0 with
  | .instr _ => done s
  | .undef => issue t (fun s => some (s.trap t (undef w))) s
  | .refused k => issue t (fun s => some (s.trap t (refused k 1))) s

end Sys2Proof.Machine
end

