-- ==== Sys2Proof/Machine/Dispatch.lean ====
section
/-!
DEFINITION. The effect of each command: one arm per row of the opcode table.
-/

namespace Sys2Proof.Machine

/-- What a command does to everything but the queue. -/
def exec (i : Instr) (s : State) : Host.Outcome State Fault Refusal :=
  match i with
  | .frameSof port first => Sys2Proof.Machine.execFrameSof port first s
  | .fifoBankSwap port => Sys2Proof.Machine.execFifoBankSwap port s
  | .drainRead port n => Sys2Proof.Machine.execDrainRead port n s
  | .cellGrant bank => Sys2Proof.Machine.execCellGrant bank s
  | .parseStart port => Sys2Proof.Machine.execParseStart port s
  | .parseComplete port => Sys2Proof.Machine.execParseComplete port s
  | .frameTail port words fec => Sys2Proof.Machine.execFrameTail port words fec s
  | .graphSwitchTimeout well => Sys2Proof.Machine.execGraphSwitchTimeout well s
  | .fragEntryExpiry well entry => Sys2Proof.Machine.execFragEntryExpiry well entry s
  | .fragHoldTimeout well => Sys2Proof.Machine.execFragHoldTimeout well s
  | .quiesceFall => Sys2Proof.Machine.execQuiesceFall s
  | .quiesceRise => Sys2Proof.Machine.execQuiesceRise s
  | .parserResetDone well => Sys2Proof.Machine.execParserResetDone well s
  | .dispatch => Sys2Proof.Machine.execDispatch s
  | .affinityWaitExpiry pkt => Sys2Proof.Machine.execAffinityWaitExpiry pkt s
  | .orderYield domain => Sys2Proof.Machine.execOrderYield domain s
  | .pendingStoreRoom => Sys2Proof.Machine.execPendingStoreRoom s
  | .commit lane => Sys2Proof.Machine.execCommit lane s
  | .cutThroughStart pkt => Sys2Proof.Machine.execCutThroughStart pkt s
  | .logRecordAck lane => Sys2Proof.Machine.execLogRecordAck lane s
  | .commitResetResume => Sys2Proof.Machine.execCommitResetResume s
  | .walUncorrectable lane position => Sys2Proof.Machine.execWalUncorrectable lane position s
  | .fenceDrainExpiry => Sys2Proof.Machine.execFenceDrainExpiry s
  | .orderStallTimer domain => Sys2Proof.Machine.execOrderStallTimer domain s
  | .dtNowRead r => Sys2Proof.Machine.execDtNowRead r s
  | .ptpMessageRx port rx => Sys2Proof.Machine.execPtpMessageRx port rx s
  | .ptpLossTimeout => Sys2Proof.Machine.execPtpLossTimeout s
  | .ppsInEdge => Sys2Proof.Machine.execPpsInEdge s
  | .ppsInMissing => Sys2Proof.Machine.execPpsInMissing s
  | .trefQualified ppt => Sys2Proof.Machine.execTrefQualified ppt s
  | .trefLoss => Sys2Proof.Machine.execTrefLoss s
  | .holdoverExpiry => Sys2Proof.Machine.execHoldoverExpiry s
  | .timeStepDeferredApply => Sys2Proof.Machine.execTimeStepDeferredApply s
  | .ppsOutRise => Sys2Proof.Machine.execPpsOutRise s
  | .ppsOutFall => Sys2Proof.Machine.execPpsOutFall s
  | .epochClose => Sys2Proof.Machine.execEpochClose s
  | .epochSeal => Sys2Proof.Machine.execEpochSeal s
  | .sealResidualsDone => Sys2Proof.Machine.execSealResidualsDone s
  | .recordDigestDone => Sys2Proof.Machine.execRecordDigestDone s
  | .recordSignDone => Sys2Proof.Machine.execRecordSignDone s
  | .refclkLoss well => Sys2Proof.Machine.execRefclkLoss well s
  | .refclkReturn well => Sys2Proof.Machine.execRefclkReturn well s
  | .laneRecalDone well => Sys2Proof.Machine.execLaneRecalDone well s
  | .timebaseSwitchback => Sys2Proof.Machine.execTimebaseSwitchback s
  | .macControlRx port bytes rxerr => Sys2Proof.Machine.execMacControlRx port bytes rxerr s
  | .pauseExpiry port prio => Sys2Proof.Machine.execPauseExpiry port prio s
  | .linkLoss port kind => Sys2Proof.Machine.execLinkLoss port kind s
  | .linkReturn port => Sys2Proof.Machine.execLinkReturn port s
  | .linkHoldoffExpiry port => Sys2Proof.Machine.execLinkHoldoffExpiry port s
  | .linkDebounceExpiry port => Sys2Proof.Machine.execLinkDebounceExpiry port s
  | .anComplete port partner => Sys2Proof.Machine.execAnComplete port partner s
  | .trainingDone port => Sys2Proof.Machine.execTrainingDone port s
  | .trainingTimeout port => Sys2Proof.Machine.execTrainingTimeout port s
  | .trainingRetry port => Sys2Proof.Machine.execTrainingRetry port s
  | .flapSuppressExpiry port => Sys2Proof.Machine.execFlapSuppressExpiry port s
  | .moduleScan inputs => Sys2Proof.Machine.execModuleScan inputs s
  | .presenceDebounceEnd slot => Sys2Proof.Machine.execPresenceDebounceEnd slot s
  | .moduleIdPoll slot answer cmis => Sys2Proof.Machine.execModuleIdPoll slot answer cmis s
  | .moduleLowpwrPoll slot low => Sys2Proof.Machine.execModuleLowpwrPoll slot low s
  | .modulePagesRead slot pages => Sys2Proof.Machine.execModulePagesRead slot pages s
  | .moduleReady slot => Sys2Proof.Machine.execModuleReady slot s
  | .moduleDiscoveryTimeout slot => Sys2Proof.Machine.execModuleDiscoveryTimeout slot s
  | .moduleInt slot flags => Sys2Proof.Machine.execModuleInt slot flags s
  | .i2cBusRecovery bus released => Sys2Proof.Machine.execI2cBusRecovery bus released s
  | .portDisableComplete port => Sys2Proof.Machine.execPortDisableComplete port s
  | .wellDisableDone well => Sys2Proof.Machine.execWellDisableDone well s
  | .l2TriggerApply well => Sys2Proof.Machine.execL2TriggerApply well s
  | .learnNoticeSend => Sys2Proof.Machine.execLearnNoticeSend s
  | .l2NoticeApply well => Sys2Proof.Machine.execL2NoticeApply well s
  | .l2AgingSweep well => Sys2Proof.Machine.execL2AgingSweep well s
  | .bufferPortLoad t gd n => Sys2Proof.Machine.execBufferPortLoad t gd n s
  | .sizedPoolAlloc cls len => Sys2Proof.Machine.execSizedPoolAlloc cls len s
  | .basinRebuildDone => Sys2Proof.Machine.execBasinRebuildDone s
  | .rebuildRetry => Sys2Proof.Machine.execRebuildRetry s
  | .spillChoose queue => Sys2Proof.Machine.execSpillChoose queue s
  | .aggregateTimer pump read => Sys2Proof.Machine.execAggregateTimer pump read s
  | .aggregateWriteAck pump queue => Sys2Proof.Machine.execAggregateWriteAck pump queue s
  | .refillRead queue => Sys2Proof.Machine.execRefillRead queue s
  | .refillReadDone queue err => Sys2Proof.Machine.execRefillReadDone queue err s
  | .cisternShrinkDone => Sys2Proof.Machine.execCisternShrinkDone s
  | .copyArrival pump => Sys2Proof.Machine.execCopyArrival pump s
  | .wheelSlot pump => Sys2Proof.Machine.execWheelSlot pump s
  | .pumpSelect port err => Sys2Proof.Machine.execPumpSelect port err s
  | .txComplete port => Sys2Proof.Machine.execTxComplete port s
  | .pfcResend port prio => Sys2Proof.Machine.execPfcResend port prio s
  | .holdTimeExpiry port => Sys2Proof.Machine.execHoldTimeExpiry port s
  | .flushWalk pump => Sys2Proof.Machine.execFlushWalk pump s
  | .pumpResetDone pump => Sys2Proof.Machine.execPumpResetDone pump s
  | .lockAcquire r lock => Sys2Proof.Machine.execLockAcquire r lock s
  | .lockTry r lock => Sys2Proof.Machine.execLockTry r lock s
  | .lockRelease r lock => Sys2Proof.Machine.execLockRelease r lock s
  | .lockClear r lock => Sys2Proof.Machine.execLockClear r lock s
  | .lockWaitTimeout lock => Sys2Proof.Machine.execLockWaitTimeout lock s
  | .delayTick cluster lst => Sys2Proof.Machine.execDelayTick cluster lst s
  | .deadlockDetect cluster => Sys2Proof.Machine.execDeadlockDetect cluster s
  | .waitevWake t => Sys2Proof.Machine.execWaitevWake t s
  | .parkWake t => Sys2Proof.Machine.execParkWake t s
  | .joinWake t => Sys2Proof.Machine.execJoinWake t s
  | .chgetWake t => Sys2Proof.Machine.execChgetWake t s
  | .chputReserveWake t => Sys2Proof.Machine.execChputReserveWake t s
  | .orderEnterWake t => Sys2Proof.Machine.execOrderEnterWake t s
  | .longOpDone t => Sys2Proof.Machine.execLongOpDone t s
  | .lkpComplete t idx err => Sys2Proof.Machine.execLkpComplete t idx err s
  | .lineFill core line err => Sys2Proof.Machine.execLineFill core line err s
  | .writebackAck core line => Sys2Proof.Machine.execWritebackAck core line s
  | .cacheMaintDone t => Sys2Proof.Machine.execCacheMaintDone t s
  | .starveGrant t => Sys2Proof.Machine.execStarveGrant t s
  | .watchdogExpiry t => Sys2Proof.Machine.execWatchdogExpiry t s
  | .addR t gd ga gb => Sys2Proof.Machine.execAddR t gd ga gb s
  | .subR t gd ga gb => Sys2Proof.Machine.execSubR t gd ga gb s
  | .andR t gd ga gb => Sys2Proof.Machine.execAndR t gd ga gb s
  | .orR t gd ga gb => Sys2Proof.Machine.execOrR t gd ga gb s
  | .xorR t gd ga gb => Sys2Proof.Machine.execXorR t gd ga gb s
  | .andnR t gd ga gb => Sys2Proof.Machine.execAndnR t gd ga gb s
  | .addwR t gd ga gb => Sys2Proof.Machine.execAddwR t gd ga gb s
  | .subwR t gd ga gb => Sys2Proof.Machine.execSubwR t gd ga gb s
  | .sllR t gd ga gb => Sys2Proof.Machine.execSllR t gd ga gb s
  | .srlR t gd ga gb => Sys2Proof.Machine.execSrlR t gd ga gb s
  | .sraR t gd ga gb => Sys2Proof.Machine.execSraR t gd ga gb s
  | .rorR t gd ga gb => Sys2Proof.Machine.execRorR t gd ga gb s
  | .ceqR t gd ga gb => Sys2Proof.Machine.execCeqR t gd ga gb s
  | .cneR t gd ga gb => Sys2Proof.Machine.execCneR t gd ga gb s
  | .cltR t gd ga gb => Sys2Proof.Machine.execCltR t gd ga gb s
  | .cltuR t gd ga gb => Sys2Proof.Machine.execCltuR t gd ga gb s
  | .cleR t gd ga gb => Sys2Proof.Machine.execCleR t gd ga gb s
  | .cleuR t gd ga gb => Sys2Proof.Machine.execCleuR t gd ga gb s
  | .cbsR t gd ga gb => Sys2Proof.Machine.execCbsR t gd ga gb s
  | .cbcR t gd ga gb => Sys2Proof.Machine.execCbcR t gd ga gb s
  | .minR t gd ga gb => Sys2Proof.Machine.execMinR t gd ga gb s
  | .maxR t gd ga gb => Sys2Proof.Machine.execMaxR t gd ga gb s
  | .minuR t gd ga gb => Sys2Proof.Machine.execMinuR t gd ga gb s
  | .maxuR t gd ga gb => Sys2Proof.Machine.execMaxuR t gd ga gb s
  | .mulR t gd ga gb => Sys2Proof.Machine.execMulR t gd ga gb s
  | .mulhuR t gd ga gb => Sys2Proof.Machine.execMulhuR t gd ga gb s
  | .mulhR t gd ga gb => Sys2Proof.Machine.execMulhR t gd ga gb s
  | .bswap16 t gd ga => Sys2Proof.Machine.execBswap16 t gd ga s
  | .bswap32 t gd ga => Sys2Proof.Machine.execBswap32 t gd ga s
  | .bswap64 t gd ga => Sys2Proof.Machine.execBswap64 t gd ga s
  | .popc t gd ga => Sys2Proof.Machine.execPopc t gd ga s
  | .clz t gd ga => Sys2Proof.Machine.execClz t gd ga s
  | .ctz t gd ga => Sys2Proof.Machine.execCtz t gd ga s
  | .rdlk t gd => Sys2Proof.Machine.execRdlk t gd s
  | .wrlk t ga => Sys2Proof.Machine.execWrlk t ga s
  | .addi t gd ga imm => Sys2Proof.Machine.execAddi t gd ga imm s
  | .andi t gd ga imm => Sys2Proof.Machine.execAndi t gd ga imm s
  | .ori t gd ga imm => Sys2Proof.Machine.execOri t gd ga imm s
  | .xori t gd ga imm => Sys2Proof.Machine.execXori t gd ga imm s
  | .shlori t gd ga imm => Sys2Proof.Machine.execShlori t gd ga imm s
  | .slli t gd ga amt => Sys2Proof.Machine.execSlli t gd ga amt s
  | .srli t gd ga amt => Sys2Proof.Machine.execSrli t gd ga amt s
  | .srai t gd ga amt => Sys2Proof.Machine.execSrai t gd ga amt s
  | .rori t gd ga amt => Sys2Proof.Machine.execRori t gd ga amt s
  | .ceqi t gd ga imm => Sys2Proof.Machine.execCeqi t gd ga imm s
  | .cnei t gd ga imm => Sys2Proof.Machine.execCnei t gd ga imm s
  | .clti t gd ga imm => Sys2Proof.Machine.execClti t gd ga imm s
  | .cltui t gd ga imm => Sys2Proof.Machine.execCltui t gd ga imm s
  | .cbsi t gd ga amt => Sys2Proof.Machine.execCbsi t gd ga amt s
  | .cbci t gd ga amt => Sys2Proof.Machine.execCbci t gd ga amt s
  | .extu t gd ga pos lenm1 => Sys2Proof.Machine.execExtu t gd ga pos lenm1 s
  | .exts t gd ga pos lenm1 => Sys2Proof.Machine.execExts t gd ga pos lenm1 s
  | .insF t gd ga pos lenm1 => Sys2Proof.Machine.execInsF t gd ga pos lenm1 s
  | .bz t ga off => Sys2Proof.Machine.execBz t ga off s
  | .bnz t ga off => Sys2Proof.Machine.execBnz t ga off s
  | .br t off => Sys2Proof.Machine.execBr t off s
  | .call t off => Sys2Proof.Machine.execCall t off s
  | .jr t ga => Sys2Proof.Machine.execJr t ga s
  | .jrl t ga => Sys2Proof.Machine.execJrl t ga s
  | .retI t => Sys2Proof.Machine.execRetI t s
  | .jlk t => Sys2Proof.Machine.execJlk t s
  | .lb t gd ga imm => Sys2Proof.Machine.execLb t gd ga imm s
  | .lbu t gd ga imm => Sys2Proof.Machine.execLbu t gd ga imm s
  | .lh t gd ga imm => Sys2Proof.Machine.execLh t gd ga imm s
  | .lhu t gd ga imm => Sys2Proof.Machine.execLhu t gd ga imm s
  | .lw t gd ga imm => Sys2Proof.Machine.execLw t gd ga imm s
  | .lwu t gd ga imm => Sys2Proof.Machine.execLwu t gd ga imm s
  | .ld t gd ga imm err => Sys2Proof.Machine.execLd t gd ga imm err s
  | .lhn t gd ga imm => Sys2Proof.Machine.execLhn t gd ga imm s
  | .lwn t gd ga imm => Sys2Proof.Machine.execLwn t gd ga imm s
  | .ldn t gd ga imm => Sys2Proof.Machine.execLdn t gd ga imm s
  | .sb t gd ga imm => Sys2Proof.Machine.execSb t gd ga imm s
  | .sh t gd ga imm => Sys2Proof.Machine.execSh t gd ga imm s
  | .sw t gd ga imm => Sys2Proof.Machine.execSw t gd ga imm s
  | .sd t gd ga imm => Sys2Proof.Machine.execSd t gd ga imm s
  | .shn t gd ga imm => Sys2Proof.Machine.execShn t gd ga imm s
  | .swn t gd ga imm => Sys2Proof.Machine.execSwn t gd ga imm s
  | .sdn t gd ga imm => Sys2Proof.Machine.execSdn t gd ga imm s
  | .czero t all ga imm => Sys2Proof.Machine.execCzero t all ga imm s
  | .cclean t all ga imm => Sys2Proof.Machine.execCclean t all ga imm s
  | .cinval t all ga imm => Sys2Proof.Machine.execCinval t all ga imm s
  | .cflush t all ga imm => Sys2Proof.Machine.execCflush t all ga imm s
  | .cpref t all ga imm => Sys2Proof.Machine.execCpref t all ga imm s
  | .rep t w nxt => Sys2Proof.Machine.execRep t w nxt s
  | .bcopy t size => Sys2Proof.Machine.execBcopy t size s
  | .bfill t size ga => Sys2Proof.Machine.execBfill t size ga s
  | .bcmp t size gd => Sys2Proof.Machine.execBcmp t size gd s
  | .bfind t size ne gd ga gb => Sys2Proof.Machine.execBfind t size ne gd ga gb s
  | .lkp t gd ga gb => Sys2Proof.Machine.execLkp t gd ga gb s
  | .weir t gd ga gb => Sys2Proof.Machine.execWeir t gd ga gb s
  | .jemit t gd ga gb => Sys2Proof.Machine.execJemit t gd ga gb s
  | .jdeliv t gd ga gb => Sys2Proof.Machine.execJdeliv t gd ga gb s
  | .jcnt t gd ga gb => Sys2Proof.Machine.execJcnt t gd ga gb s
  | .jledg t gd ga gb => Sys2Proof.Machine.execJledg t gd ga gb s
  | .jtbl t gd ga gb => Sys2Proof.Machine.execJtbl t gd ga gb s
  | .jctx t gd ga gb => Sys2Proof.Machine.execJctx t gd ga gb s
  | .jfree t gd ga => Sys2Proof.Machine.execJfree t gd ga s
  | .orderEnter t n => Sys2Proof.Machine.execOrderEnter t n s
  | .orderExit t n => Sys2Proof.Machine.execOrderExit t n s
  | .retire t reason => Sys2Proof.Machine.execRetire t reason s
  | .waitev t gd ga gb => Sys2Proof.Machine.execWaitev t gd ga gb s
  | .setev t ga gb => Sys2Proof.Machine.execSetev t ga gb s
  | .delay t gd ga gb => Sys2Proof.Machine.execDelay t gd ga gb s
  | .fork t gd ga gb => Sys2Proof.Machine.execFork t gd ga gb s
  | .join t gd ga => Sys2Proof.Machine.execJoin t gd ga s
  | .park t gd ga gb => Sys2Proof.Machine.execPark t gd ga gb s
  | .endI t => Sys2Proof.Machine.execEndI t s
  | .chput t gd ga gb => Sys2Proof.Machine.execChput t gd ga gb s
  | .chend t gd ga => Sys2Proof.Machine.execChend t gd ga s
  | .chget t gd ga => Sys2Proof.Machine.execChget t gd ga s
  | .chpoll t gd ga => Sys2Proof.Machine.execChpoll t gd ga s
  | .mfs t gd n => Sys2Proof.Machine.execMfs t gd n s
  | .mts t gd n => Sys2Proof.Machine.execMts t gd n s
  | .tret t => Sys2Proof.Machine.execTret t s
  | .breakI t code => Sys2Proof.Machine.execBreakI t code s
  | .csum t gd ga gb => Sys2Proof.Machine.execCsum t gd ga gb s
  | .csumadj t gd ga gb => Sys2Proof.Machine.execCsumadj t gd ga gb s
  | .crc t gd ga gb size ieee => Sys2Proof.Machine.execCrc t gd ga gb size ieee s
  | .csumm t gd ga => Sys2Proof.Machine.execCsumm t gd ga s
  | .crcm t gd ga ieee => Sys2Proof.Machine.execCrcm t gd ga ieee s
  | .hmix t gd ga gb => Sys2Proof.Machine.execHmix t gd ga gb s
  | .tplz t gd ga gb => Sys2Proof.Machine.execTplz t gd ga gb s
  | .hrange t gd ga gb => Sys2Proof.Machine.execHrange t gd ga gb s
  | .gctrEnc t gd ga => Sys2Proof.Machine.execGctrEnc t gd ga s
  | .gctrDec t gd ga => Sys2Proof.Machine.execGctrDec t gd ga s
  | .ghashAad t gd ga => Sys2Proof.Machine.execGhashAad t gd ga s
  | .gcmFinal t gd ga gb => Sys2Proof.Machine.execGcmFinal t gd ga gb s
  | .coprocUnfitted t w => Sys2Proof.Machine.execCoprocUnfitted t w s
  | .tblInsert r w => Sys2Proof.Machine.execTblInsert r w s
  | .tblUpdate r w => Sys2Proof.Machine.execTblUpdate r w s
  | .tblDelete r w => Sys2Proof.Machine.execTblDelete r w s
  | .tblLookup r w => Sys2Proof.Machine.execTblLookup r w s
  | .tblReadIndex r w => Sys2Proof.Machine.execTblReadIndex r w s
  | .tblWriteIndex r w => Sys2Proof.Machine.execTblWriteIndex r w s
  | .tblDigestBlock r w => Sys2Proof.Machine.execTblDigestBlock r w s
  | .tblCmdDone r => Sys2Proof.Machine.execTblCmdDone r s
  | .emOverlayDecide => Sys2Proof.Machine.execEmOverlayDecide s
  | .emOverlayRetire => Sys2Proof.Machine.execEmOverlayRetire s
  | .lpmRebuildDone vrf family => Sys2Proof.Machine.execLpmRebuildDone vrf family s
  | .digestScrubBlock table => Sys2Proof.Machine.execDigestScrubBlock table s
  | .hbmRequest port addr len write data => Sys2Proof.Machine.execHbmRequest port addr len write data s
  | .hbmIssue pc err => Sys2Proof.Machine.execHbmIssue pc err s
  | .rowTimeout pc bank => Sys2Proof.Machine.execRowTimeout pc bank s
  | .refreshDue pc bank idle => Sys2Proof.Machine.execRefreshDue pc bank idle s
  | .hbmTempRead stack temp => Sys2Proof.Machine.execHbmTempRead stack temp s
  | .pcPowerDown pc => Sys2Proof.Machine.execPcPowerDown pc s
  | .stackSelfRefresh stack => Sys2Proof.Machine.execStackSelfRefresh stack s
  | .patrolScrub pc err => Sys2Proof.Machine.execPatrolScrub pc err s
  | .timingTrack pc => Sys2Proof.Machine.execTimingTrack pc s
  | .tempRetrain pc => Sys2Proof.Machine.execTempRetrain pc s
  | .retireDrainDone => Sys2Proof.Machine.execRetireDrainDone s
  | .retireWaitExpiry => Sys2Proof.Machine.execRetireWaitExpiry s
  | .granuleCopyDone => Sys2Proof.Machine.execGranuleCopyDone s
  | .cmdDoorbell fn tail => Sys2Proof.Machine.execCmdDoorbell fn tail s
  | .commandFetch fn e => Sys2Proof.Machine.execCommandFetch fn e s
  | .rspHeadWrite fn head => Sys2Proof.Machine.execRspHeadWrite fn head s
  | .eseqAckWrite fn seq => Sys2Proof.Machine.execEseqAckWrite fn seq s
  | .leaseHeartbeatWrite fn gen => Sys2Proof.Machine.execLeaseHeartbeatWrite fn gen s
  | .leaseExpiry => Sys2Proof.Machine.execLeaseExpiry s
  | .dciRingEnable fn ring base => Sys2Proof.Machine.execDciRingEnable fn ring base s
  | .dciRingDisable fn ring => Sys2Proof.Machine.execDciRingDisable fn ring s
  | .functionReset fn linkDown => Sys2Proof.Machine.execFunctionReset fn linkDown s
  | .intModExpiry fn source => Sys2Proof.Machine.execIntModExpiry fn source s
  | .puntRingEnable fn tx ring base => Sys2Proof.Machine.execPuntRingEnable fn tx ring base s
  | .puntRingDisable fn tx ring => Sys2Proof.Machine.execPuntRingDisable fn tx ring s
  | .puntRxPost fn ring tail => Sys2Proof.Machine.execPuntRxPost fn ring tail s
  | .puntRxDeliver fn ring bufs => Sys2Proof.Machine.execPuntRxDeliver fn ring bufs s
  | .puntTxDoorbell fn ring tail => Sys2Proof.Machine.execPuntTxDoorbell fn ring tail s
  | .puntTxFetch fn ring len mode ts target frame => Sys2Proof.Machine.execPuntTxFetch fn ring len mode ts target frame s
  | .registerWrite fn bar off size val => Sys2Proof.Machine.execRegisterWrite fn bar off size val s
  | .nopC c => Sys2Proof.Machine.execNopC c s
  | .deviceInfo c => Sys2Proof.Machine.execDeviceInfo c s
  | .leaseClaim c => Sys2Proof.Machine.execLeaseClaim c s
  | .leaseRelease c => Sys2Proof.Machine.execLeaseRelease c s
  | .leaseConfig c timeoutMs => Sys2Proof.Machine.execLeaseConfig c timeoutMs s
  | .deviceReset c kind => Sys2Proof.Machine.execDeviceReset c kind s
  | .portModeSet c port mode fec txPol rxPol => Sys2Proof.Machine.execPortModeSet c port mode fec txPol rxPol s
  | .portConfig c port a => Sys2Proof.Machine.execPortConfig c port a s
  | .portEnable c port => Sys2Proof.Machine.execPortEnable c port s
  | .portDisable c port => Sys2Proof.Machine.execPortDisable c port s
  | .portTest c port mode pattern => Sys2Proof.Machine.execPortTest c port mode pattern s
  | .portStatus c port => Sys2Proof.Machine.execPortStatus c port s
  | .moduleMap c slot bus firstLane lanes hasModsel => Sys2Proof.Machine.execModuleMap c slot bus firstLane lanes hasModsel s
  | .modulePolicy c slot mode mask powerClass => Sys2Proof.Machine.execModulePolicy c slot mode mask powerClass s
  | .moduleAccess c slot bank page offset len write data answer => Sys2Proof.Machine.execModuleAccess c slot bank page offset len write data answer s
  | .moduleStatus c slot => Sys2Proof.Machine.execModuleStatus c slot s
  | .ecidMapSet c index entry => Sys2Proof.Machine.execEcidMapSet c index entry s
  | .wellConfig c well holdDomain holdTimeUs regionKib => Sys2Proof.Machine.execWellConfig c well holdDomain holdTimeUs regionKib s
  | .sluice c well mask => Sys2Proof.Machine.execSluice c well mask s
  | .unsluice c well mask => Sys2Proof.Machine.execUnsluice c well mask s
  | .parseGraphLoad c recs => Sys2Proof.Machine.execParseGraphLoad c recs s
  | .parseGraphCommit c version => Sys2Proof.Machine.execParseGraphCommit c version s
  | .hashProfileSet c profile alg keySel mode table fixedDomain input => Sys2Proof.Machine.execHashProfileSet c profile alg keySel mode table fixedDomain input s
  | .hashKeySet c key bytes => Sys2Proof.Machine.execHashKeySet c key bytes s
  | .indirectionSet c table first entries => Sys2Proof.Machine.execIndirectionSet c table first entries s
  | .intakeStats c port => Sys2Proof.Machine.execIntakeStats c port s
  | .tableBatch c atomic stopOnError ops => Sys2Proof.Machine.execTableBatch c atomic stopOnError ops s
  | .tableBatchDone c => Sys2Proof.Machine.execTableBatchDone c s
  | .tableRead c w keys => Sys2Proof.Machine.execTableRead c w keys s
  | .tableStats c table => Sys2Proof.Machine.execTableStats c table s
  | .emTableSet c table bucketsLog2 klen cache destroy seed => Sys2Proof.Machine.execEmTableSet c table bucketsLog2 klen cache destroy seed s
  | .l2Config c ageTimeS flushOnDown => Sys2Proof.Machine.execL2Config c ageTimeS flushOnDown s
  | .l2Flush c scope value => Sys2Proof.Machine.execL2Flush c scope value s
  | .tableScrubConfig c table enable periodS ringAddr ringEntries => Sys2Proof.Machine.execTableScrubConfig c table enable periodS ringAddr ringEntries s
  | .imageLoad c version addr len image => Sys2Proof.Machine.execImageLoad c version addr len image s
  | .imageLoadDone c => Sys2Proof.Machine.execImageLoadDone c s
  | .clusterLoad c cluster version => Sys2Proof.Machine.execClusterLoad c cluster version s
  | .clusterDrain c cluster timeoutUs => Sys2Proof.Machine.execClusterDrain c cluster timeoutUs s
  | .clusterDrainTimeout cluster => Sys2Proof.Machine.execClusterDrainTimeout cluster s
  | .clusterAdmit c cluster => Sys2Proof.Machine.execClusterAdmit c cluster s
  | .coreRetire c core restore => Sys2Proof.Machine.execCoreRetire c core restore s
  | .coreRetireTimeout core => Sys2Proof.Machine.execCoreRetireTimeout core s
  | .coreConfig c target a => Sys2Proof.Machine.execCoreConfig c target a s
  | .clusterConfig c cluster scratchWays watchdog pfDepth => Sys2Proof.Machine.execClusterConfig c cluster scratchWays watchdog pfDepth s
  | .coreStats c core => Sys2Proof.Machine.execCoreStats c core s
  | .orderConfig c affinityWait excHost excRing fenceDrain stallTime => Sys2Proof.Machine.execOrderConfig c affinityWait excHost excRing fenceDrain stallTime s
  | .versionFence c version all cancel first count => Sys2Proof.Machine.execVersionFence c version all cancel first count s
  | .domainStatus c first count => Sys2Proof.Machine.execDomainStatus c first count s
  | .orderStats c => Sys2Proof.Machine.execOrderStats c s
  | .helperControl c action unitNo index => Sys2Proof.Machine.execHelperControl c action unitNo index s
  | .lockGroupSet c group mask timeout => Sys2Proof.Machine.execLockGroupSet c group mask timeout s
  | .lockForceRelease c lock => Sys2Proof.Machine.execLockForceRelease c lock s
  | .taskConfig c cluster tick0 tick1 tick2 tick3 detectEn window => Sys2Proof.Machine.execTaskConfig c cluster tick0 tick1 tick2 tick3 detectEn window s
  | .taskSignal c thread flags => Sys2Proof.Machine.execTaskSignal c thread flags s
  | .taskStatus c cluster => Sys2Proof.Machine.execTaskStatus c cluster s
  | .channelStatus c cluster first count => Sys2Proof.Machine.execChannelStatus c cluster first count s
  | .timeSource c phase freq ptpPort ptpDomain holdoverS => Sys2Proof.Machine.execTimeSource c phase freq ptpPort ptpDomain holdoverS s
  | .timeStep c amount gen => Sys2Proof.Machine.execTimeStep c amount gen s
  | .timeStatus c => Sys2Proof.Machine.execTimeStatus c s
  | .ppsOutConfig c compQns highNs freerun => Sys2Proof.Machine.execPpsOutConfig c compQns highNs freerun s
  | .epochConfig c action lengthS graceMs => Sys2Proof.Machine.execEpochConfig c action lengthS graceMs s
  | .ledgerInit c slots prev => Sys2Proof.Machine.execLedgerInit c slots prev s
  | .ledgerInitDone c => Sys2Proof.Machine.execLedgerInitDone c s
  | .ledgerRead c epoch offset len addr => Sys2Proof.Machine.execLedgerRead c epoch offset len addr s
  | .ledgerReadDone c => Sys2Proof.Machine.execLedgerReadDone c s
  | .ledgerAck c epoch => Sys2Proof.Machine.execLedgerAck c epoch s
  | .ledgerFlushSet c addr => Sys2Proof.Machine.execLedgerFlushSet c addr s
  | .ledgerInfo c => Sys2Proof.Machine.execLedgerInfo c s
  | .ledgerStats c => Sys2Proof.Machine.execLedgerStats c s
  | .bufferQuotaSet c kind index min max alpha => Sys2Proof.Machine.execBufferQuotaSet c kind index min max alpha s
  | .queueSpillSet c queue en spillOn refillLow => Sys2Proof.Machine.execQueueSpillSet c queue en spillOn refillLow s
  | .cisternConfig c sizeGib => Sys2Proof.Machine.execCisternConfig c sizeGib s
  | .bufferReclaim c mode cluster handles => Sys2Proof.Machine.execBufferReclaim c mode cluster handles s
  | .bufferStatus c => Sys2Proof.Machine.execBufferStatus c s
  | .queueGroupSet c group port weight spMask rate burst => Sys2Proof.Machine.execQueueGroupSet c group port weight spMask rate burst s
  | .queueConfig c queue qmax weight wred rate burst => Sys2Proof.Machine.execQueueConfig c queue qmax weight wred rate burst s
  | .egressPortSet c port rate burst overhead downPolicy holdTime pfcMap => Sys2Proof.Machine.execEgressPortSet c port rate burst overhead downPolicy holdTime pfcMap s
  | .wredProfileSet c profile min max pmax w ecn kmark => Sys2Proof.Machine.execWredProfileSet c profile min max pmax w ecn kmark s
  | .pfcThresholdSet c port cls xoff xon => Sys2Proof.Machine.execPfcThresholdSet c port cls xoff xon s
  | .mcGroupSet c group members => Sys2Proof.Machine.execMcGroupSet c group members s
  | .mcMemberOpSet c mop slot => Sys2Proof.Machine.execMcMemberOpSet c mop slot s
  | .queueFlush c scope index => Sys2Proof.Machine.execQueueFlush c scope index s
  | .sumpConfig c code rate host ring => Sys2Proof.Machine.execSumpConfig c code rate host ring s
  | .queueStats c first count => Sys2Proof.Machine.execQueueStats c first count s
  | .sumpStats c => Sys2Proof.Machine.execSumpStats c s
  | .powerPolicy c tol => Sys2Proof.Machine.execPowerPolicy c tol s
  | .powerStatus c => Sys2Proof.Machine.execPowerStatus c s
  | .partReset c kind index => Sys2Proof.Machine.execPartReset c kind index s
  | .partResetDone kind index => Sys2Proof.Machine.execPartResetDone kind index s
  | .wellEnable c well enable => Sys2Proof.Machine.execWellEnable c well enable s
  | .faultLogRead c frm count => Sys2Proof.Machine.execFaultLogRead c frm count s
  | .errorStats c => Sys2Proof.Machine.execErrorStats c s
  | .debugHalt c thread release => Sys2Proof.Machine.execDebugHalt c thread release s
  | .debugResume c thread => Sys2Proof.Machine.execDebugResume c thread s
  | .debugStep c thread count => Sys2Proof.Machine.execDebugStep c thread count s
  | .debugBreakSet c cluster slot kind addr => Sys2Proof.Machine.execDebugBreakSet c cluster slot kind addr s
  | .debugRead c thread space addr len => Sys2Proof.Machine.execDebugRead c thread space addr len s
  | .debugWrite c thread space addr len data => Sys2Proof.Machine.execDebugWrite c thread space addr len data s
  | .traceConfig c cluster mode filter => Sys2Proof.Machine.execTraceConfig c cluster mode filter s
  | .traceRead c cluster => Sys2Proof.Machine.execTraceRead c cluster s
  | .debugDiscard c domain seq => Sys2Proof.Machine.execDebugDiscard c domain seq s
  | .attest c nonce => Sys2Proof.Machine.execAttest c nonce s
  | .identityCert c => Sys2Proof.Machine.execIdentityCert c s
  | .debugChallenge c => Sys2Proof.Machine.execDebugChallenge c s
  | .debugUnlock c nonce sig => Sys2Proof.Machine.execDebugUnlock c nonce sig s
  | .debugNonceExpiry => Sys2Proof.Machine.execDebugNonceExpiry s
  | .fwUpdate c slot addr len image => Sys2Proof.Machine.execFwUpdate c slot addr len image s
  | .fwUpdateDone c ok => Sys2Proof.Machine.execFwUpdateDone c ok s
  | .fwActivate c slot => Sys2Proof.Machine.execFwActivate c slot s
  | .fwConfirmTimeout => Sys2Proof.Machine.execFwConfirmTimeout s
  | .cryptoKeySet c slot alg key => Sys2Proof.Machine.execCryptoKeySet c slot alg key s
  | .hbmPartition c action id order right sizes => Sys2Proof.Machine.execHbmPartition c action id order right sizes s
  | .hbmPartitionRead c => Sys2Proof.Machine.execHbmPartitionRead c s
  | .hbmQosSet c port priority targetNs rowTimeoutNs => Sys2Proof.Machine.execHbmQosSet c port priority targetNs rowTimeoutNs s
  | .hbmScrubConfig c periodH retireWaitMs => Sys2Proof.Machine.execHbmScrubConfig c periodH retireWaitMs s
  | .hbmRepair c pc sid bank kind row spare => Sys2Proof.Machine.execHbmRepair c pc sid bank kind row spare s
  | .hbmPcRetire c pc => Sys2Proof.Machine.execHbmPcRetire c pc s
  | .hbmStats c => Sys2Proof.Machine.execHbmStats c s
  | .phWatchdogExpiry => Sys2Proof.Machine.execPhWatchdogExpiry s
  | .phRestartDone => Sys2Proof.Machine.execPhRestartDone s
  | .unitFault u cause => Sys2Proof.Machine.execUnitFault u cause s
  | .coldPriming o => Sys2Proof.Machine.execColdPriming o s
  | .coldReset => Sys2Proof.Machine.execColdReset s
  | .brownOut => Sys2Proof.Machine.execBrownOut s
  | .hostPushGo fn len => Sys2Proof.Machine.execHostPushGo fn len s
  | .hostPushDone image => Sys2Proof.Machine.execHostPushDone image s
  | .warmReset => Sys2Proof.Machine.execWarmReset s
  | .wrstRise => Sys2Proof.Machine.execWrstRise s
  | .powerFail => Sys2Proof.Machine.execPowerFail s
  | .powerFailFlushDone => Sys2Proof.Machine.execPowerFailFlushDone s
  | .pwrfailRise => Sys2Proof.Machine.execPwrfailRise s
  | .classIdle cls => Sys2Proof.Machine.execClassIdle cls s
  | .coreGateIdle core => Sys2Proof.Machine.execCoreGateIdle core s
  | .clusterRetentionIdle cluster => Sys2Proof.Machine.execClusterRetentionIdle cluster s
  | .clusterOffIdle cluster => Sys2Proof.Machine.execClusterOffIdle cluster s
  | .clusterWakeDispatch => Sys2Proof.Machine.execClusterWakeDispatch s
  | .prewake part => Sys2Proof.Machine.execPrewake part s
  | .sensorRead sensor temp => Sys2Proof.Machine.execSensorRead sensor temp s
  | .extest => Sys2Proof.Machine.execExtest s
  | .samplePreload => Sys2Proof.Machine.execSamplePreload s
  | .idcode => Sys2Proof.Machine.execIdcode s
  | .clampJ => Sys2Proof.Machine.execClampJ s
  | .highz => Sys2Proof.Machine.execHighz s
  | .extestPulse => Sys2Proof.Machine.execExtestPulse s
  | .extestTrain => Sys2Proof.Machine.execExtestTrain s
  | .bypass => Sys2Proof.Machine.execBypass s
  | .boundaryScanExit => Sys2Proof.Machine.execBoundaryScanExit s
  | .debugAccess dr => Sys2Proof.Machine.execDebugAccess dr s
  | .otpProg dr => Sys2Proof.Machine.execOtpProg dr s
  | .tapReset => Sys2Proof.Machine.execTapReset s
  | .rxWhileDown rx => Sys2Proof.Machine.execRxWhileDown rx s
  | .shaperTokensReturn port => Sys2Proof.Machine.execShaperTokensReturn port s
  | .brownOutRecovery => Sys2Proof.Machine.execBrownOutRecovery s
  | .hostLinkUp fn => Sys2Proof.Machine.execHostLinkUp fn s
  | .storeBufferDrain t => Sys2Proof.Machine.execStoreBufferDrain t s

end Sys2Proof.Machine
end

