-- ==== Sys2Proof/Machine/Tick.lean ====
section
/-!
DEFINITION. The tick: what one nanosecond of the local time base does when no command waits (log 1). DT advances by
the rate of R58, the core clock by its cycles (R14), and what the spec measures in cycles or nanoseconds counts.
-/

namespace Sys2Proof.Machine

/-! ### Device time (R42, R47, R58) -/

/-- DT's rate in parts per 10^12 of the local time base: the frequency correction and the slew in force (R58). -/
def TimeSt.rate (t : TimeSt) : Int := 1000000000000 + t.corr + t.slew

/-- DT after one nanosecond of the local time base. What does not fill 1/65,536 ns is kept in `rem`; DT stays at its
greatest value (log 40). -/
def TimeSt.advance (t : TimeSt) : TimeSt :=
  let x := t.rem + t.rate * 65536
  let f := t.frac.toNat + (x / 1000000000000).toNat
  if 2 ^ 64 ≤ t.ns.toNat + f / 65536 then { t with rem := 0, frac := 0xFFFF, ns := 0xFFFFFFFFFFFFFFFF }
  else { t with rem := x % 1000000000000, frac := BitVec.ofNat 16 f, ns := BitVec.ofNat 64 (t.ns.toNat + f / 65536) }

/-- A slew ends when its target has been removed (R59, log 36). -/
def TimeSt.slewTick (t : TimeSt) : TimeSt :=
  { t with slewNs := t.slewNs - 1, slew := if t.slewNs ≤ 1 then 0 else t.slew }

/-- The core cycles of one nanosecond, and the tenths left over (R14). -/
def cyclesOf (slow : Bool) (tenths : Nat) : Nat × Nat :=
  let n := tenths + (if slow then 27 else 30)
  (n / 10, n % 10)

/-- The clocks after one nanosecond. -/
def TimeSt.tick (slow : Bool) (t : TimeSt) : TimeSt :=
  let c := cyclesOf slow t.cycTenths
  let u := t.advance.slewTick
  { u with localNs := t.localNs + 1, cycles := t.cycles + c.1, cycTenths := c.2 }

/-! ### What counts cycles -/

/-- The thread's run waits where the watchdog does not count (R284). -/
def State.wdExcluded (s : State) (t : Nat) : Bool :=
  let x := s.tr t
  x.halted.isSome
    || (match x.wait with
      | .store | .orderEnter _ => true
      | _ => false)
    || (match x.late with
      | some (a, n) => s.lateRead t a n
      | none => false)

/-- The counts of a thread: the watchdog of its run, and the cycles for which it could issue and has not (R251, R284). -/
def State.tickThr (s : State) (t n : Nat) : State :=
  let wd := (s.tr t).cur.isSome && !s.wdExcluded t
  let rd := s.issuable t
  if wd || rd then
    s.updTr t fun x => { x with
      wdCount := if wd then x.wdCount + n else x.wdCount
      starve := if rd then x.starve + n else x.starve }
  else s

/-- Threads whose RETIRE waits for the pending store (R242). -/
def State.stalledThreads (s : State) : Nat :=
  (s.truns.filter fun e => match e.2.wait with
    | .store => true
    | _ => false).length

/-- A core: the `n` nanoseconds of DT of its idleness, and its write-backs, which are issued (R271, R531). -/
def State.tickCore (n : Nat) (s : State) (c : Nat) : State :=
  s.updCore c fun k => { k with
    idleFor := if s.coreParked c then k.idleFor + n else 0
    wb := k.wb.map fun e => { e with issued := true } }

/-- A cluster: its idleness, and its deadlock detector (R365, R531). -/
def State.tickCluster (n : Nat) (s : State) (c : Nat) : State :=
  (s.updCl c fun k => { k with idleFor := if s.allGated c then k.idleFor + n else 0 }).detWatch c

/-- The cycles for which a cluster has been throttled: `n` core cycles pass (R537, R545, log 176). -/
def State.tickThrottle (n : Nat) (s : State) : State :=
  s.updPower fun p => { p with throttled := (List.range 12).foldl (fun m c =>
    if 2 ≤ (SMap.get {} p.sensors c).level then SMap.set 0 m c (SMap.get 0 m c + BitVec.ofNat 64 n) else m) p.throttled }

/-- Everything that one nanosecond does. The parts that hold no entry are at rest and need no count of their own. -/
def State.tick (slow : Bool) (s : State) : State :=
  if s.trust.porst || s.trust.brown then s
  else
    let n := (cyclesOf slow s.time.cycTenths).1
    let s1 := (s.updTime (TimeSt.tick slow)).updCnt fun c =>
      { c with retireStall := c.retireStall + BitVec.ofNat 64 (n * s.stalledThreads) }
    let s2 := (s1.truns.map Prod.fst).foldl (fun (acc : State) t => acc.tickThr t n) s1
    let d := s2.dt - s.dt
    let s3 := (List.range 192).foldl (State.tickCore d) s2
    ((List.range 12).foldl (State.tickCluster d) s3).tickThrottle n

end Sys2Proof.Machine
end

