-- ==== Sys2Proof/WellFormed.lean ====
section
/-!
DEFINITION. Well-formed commands: every operand of a command that names a part of the device names one that exists (R5,
R6 and the rules cited below). A field of a Diralys command can hold any value: an improper one is answered BAD_ARG,
which is that command's meaning, so a Diralys command is well-formed whatever its fields.
-/

namespace Sys2Proof

/-! ### The parts (R5) -/

def threadOk (t : Nat) : Bool := t < 1536
def coreOk (c : Nat) : Bool := c < 192
def clusterOk (c : Nat) : Bool := c < 12
def wellOk (w : Nat) : Bool := w < 8
def pumpOk (p : Nat) : Bool := p < 8
/-- Physical ports and logical ports. -/
def portOk (p : Nat) : Bool := p < 128
def logicalOk (p : Nat) : Bool := p < 1024
def stackOk (k : Nat) : Bool := k < 2
def pcOk (p : Nat) : Bool := p < 64
def lockOk (k : Nat) : Bool := k < 4096
/-- Queues (R403), traffic classes (R532), order domains (R200), commit lanes (R211). -/
def queueOk (q : Nat) : Bool := q < 65536
def classOk (c : Nat) : Bool := c < 8
def domainOk (d : Nat) : Bool := d < 65536
def laneOk (l : Nat) : Bool := l < 16
/-- Bitmap banks of the basin (R149), banks of a pseudo-channel with its stack IDs (R458), ports of the HBM (R459). -/
def basinBankOk (b : Nat) : Bool := b < 16
def hbmBankOk (b : Nat) : Bool := b < 64
def hbmPortOk (p : Nat) : Bool := p < 16
/-- Cage slots (R101), module buses (R590), delay lists (R361), die sensors (R537). -/
def cageOk (k : Nat) : Bool := k < 64
def busOk (b : Nat) : Bool := b < 16
def listOk (l : Nat) : Bool := l < 4
def sensorOk (k : Nat) : Bool := k < 21
/-- Rings of DCI (R482) and punt rings (R502). -/
def ringOk (r : Nat) : Bool := r < 3
def puntOk (r : Nat) : Bool := r < 64
/-- A frame's words from the FIFO: at least one (R115). -/
def wordsOk (ws : List IWord) : Bool := !ws.isEmpty

def requesterOk (r : Requester) : Bool :=
  match r with
  | .thread t => threadOk t
  | _ => true

def lockReqOk (r : LockReq) : Bool :=
  match r with
  | .thread t _ => threadOk t
  | _ => true

def faultUnitOk (u : FaultUnit) : Bool :=
  match u with
  | .thread t => threadOk t
  | .core c => coreOk c
  | .cluster c => clusterOk c
  | .well w => wellOk w
  | .pump p => pumpOk p
  | .helper n i => n < 3 && i < (if n = 1 then 24 else 192)
  | .commit | .pumphouse => true

/-- The parts a command names exist. -/
def Instr.wf (i : Instr) : Bool :=
  match i with
  | .frameSof port first => portOk port && wordsOk first.words
  | .frameTail port words _ => portOk port && wordsOk words
  | .fifoBankSwap port | .drainRead port _ | .parseStart port | .parseComplete port | .ptpMessageRx port _
  | .macControlRx port _ _ | .linkLoss port _ | .linkReturn port | .linkHoldoffExpiry port
  | .linkDebounceExpiry port | .anComplete port _ | .trainingDone port | .trainingTimeout port
  | .trainingRetry port | .flapSuppressExpiry port | .portDisableComplete port | .pumpSelect port _
  | .txComplete port => portOk port
  | .rxWhileDown rx => portOk rx.port
  | .cellGrant bank => basinBankOk bank
  | .graphSwitchTimeout well | .fragEntryExpiry well _ | .fragHoldTimeout well | .parserResetDone well
  | .refclkLoss well | .refclkReturn well | .laneRecalDone well | .wellDisableDone well | .l2TriggerApply well
  | .l2NoticeApply well | .l2AgingSweep well => wellOk well
  | .quiesceFall | .quiesceRise | .dispatch | .affinityWaitExpiry _ | .pendingStoreRoom | .cutThroughStart _
  | .commitResetResume | .fenceDrainExpiry | .ptpLossTimeout | .ppsInEdge | .ppsInMissing | .trefQualified _
  | .trefLoss | .holdoverExpiry | .timeStepDeferredApply | .ppsOutRise | .ppsOutFall | .epochClose | .epochSeal
  | .sealResidualsDone | .recordDigestDone | .recordSignDone | .timebaseSwitchback | .moduleScan _
  | .learnNoticeSend | .sizedPoolAlloc _ _ | .basinRebuildDone | .rebuildRetry | .cisternShrinkDone
  | .emOverlayDecide | .emOverlayRetire | .lpmRebuildDone _ _ | .digestScrubBlock _ | .retireDrainDone
  | .retireWaitExpiry | .granuleCopyDone | .cmdDoorbell _ _ | .commandFetch _ _ | .rspHeadWrite _ _
  | .eseqAckWrite _ _ | .leaseHeartbeatWrite _ _ | .leaseExpiry | .functionReset _ _ | .intModExpiry _ _
  | .registerWrite _ _ _ _ _ | .nopC _ | .deviceInfo _ | .leaseClaim _ | .leaseRelease _ | .leaseConfig _ _
  | .deviceReset _ _ | .portModeSet _ _ _ _ _ _ | .portConfig _ _ _ | .portEnable _ _ | .portDisable _ _
  | .portTest _ _ _ _ | .portStatus _ _ | .moduleMap _ _ _ _ _ _ | .modulePolicy _ _ _ _ _
  | .moduleAccess _ _ _ _ _ _ _ _ _ | .moduleStatus _ _ | .ecidMapSet _ _ _ | .wellConfig _ _ _ _ _ | .sluice _ _ _
  | .unsluice _ _ _ | .parseGraphLoad _ _ | .parseGraphCommit _ _ | .hashProfileSet _ _ _ _ _ _ _ _
  | .hashKeySet _ _ _ | .indirectionSet _ _ _ _ | .intakeStats _ _ | .tableBatch _ _ _ _ | .tableBatchDone _
  | .tableRead _ _ _ | .tableStats _ _ | .emTableSet _ _ _ _ _ _ _ | .l2Config _ _ _ | .l2Flush _ _ _
  | .tableScrubConfig _ _ _ _ _ _ | .imageLoad _ _ _ _ _ | .imageLoadDone _ | .clusterLoad _ _ _
  | .clusterDrain _ _ _ | .clusterAdmit _ _ | .coreRetire _ _ _ | .coreConfig _ _ _ | .clusterConfig _ _ _ _ _
  | .coreStats _ _ | .orderConfig _ _ _ _ _ _ | .versionFence _ _ _ _ _ _ | .domainStatus _ _ _ | .orderStats _
  | .helperControl _ _ _ _ | .lockGroupSet _ _ _ _ | .lockForceRelease _ _ | .taskConfig _ _ _ _ _ _ _ _
  | .taskSignal _ _ _ | .taskStatus _ _ | .channelStatus _ _ _ _ | .timeSource _ _ _ _ _ _ | .timeStep _ _ _
  | .timeStatus _ | .ppsOutConfig _ _ _ _ | .epochConfig _ _ _ _ | .ledgerInit _ _ _ | .ledgerInitDone _
  | .ledgerRead _ _ _ _ _ | .ledgerReadDone _ | .ledgerAck _ _ | .ledgerFlushSet _ _ | .ledgerInfo _
  | .ledgerStats _ | .bufferQuotaSet _ _ _ _ _ _ | .queueSpillSet _ _ _ _ _ | .cisternConfig _ _
  | .bufferReclaim _ _ _ _ | .bufferStatus _ | .queueGroupSet _ _ _ _ _ _ _ | .queueConfig _ _ _ _ _ _ _
  | .egressPortSet _ _ _ _ _ _ _ _ | .wredProfileSet _ _ _ _ _ _ _ _ | .pfcThresholdSet _ _ _ _ _
  | .mcGroupSet _ _ _ | .mcMemberOpSet _ _ _ | .queueFlush _ _ _ | .sumpConfig _ _ _ _ _ | .queueStats _ _ _
  | .sumpStats _ | .powerPolicy _ _ | .powerStatus _ | .partReset _ _ _ | .partResetDone _ _ | .wellEnable _ _ _
  | .faultLogRead _ _ _ | .errorStats _ | .debugHalt _ _ _ | .debugResume _ _ | .debugStep _ _ _
  | .debugBreakSet _ _ _ _ _ | .debugRead _ _ _ _ _ | .debugWrite _ _ _ _ _ _ | .traceConfig _ _ _ _
  | .traceRead _ _ | .debugDiscard _ _ _ | .attest _ _ | .identityCert _ | .debugChallenge _ | .debugUnlock _ _ _
  | .debugNonceExpiry | .fwUpdate _ _ _ _ _ | .fwUpdateDone _ _ | .fwActivate _ _ | .fwConfirmTimeout
  | .cryptoKeySet _ _ _ _ | .hbmPartition _ _ _ _ _ _ | .hbmPartitionRead _ | .hbmQosSet _ _ _ _ _
  | .hbmScrubConfig _ _ _ | .hbmRepair _ _ _ _ _ _ _ | .hbmPcRetire _ _ | .hbmStats _ | .phWatchdogExpiry
  | .phRestartDone | .coldPriming _ | .coldReset | .brownOut | .hostPushGo _ _ | .hostPushDone _ | .warmReset
  | .wrstRise | .powerFail | .powerFailFlushDone | .pwrfailRise | .clusterWakeDispatch | .prewake _ | .extest
  | .samplePreload | .idcode | .clampJ | .highz | .extestPulse | .extestTrain | .bypass | .boundaryScanExit
  | .debugAccess _ | .otpProg _ | .tapReset | .brownOutRecovery | .hostLinkUp _ => true
  | .orderYield domain | .orderStallTimer domain => domainOk domain
  | .commit lane | .logRecordAck lane | .walUncorrectable lane _ => laneOk lane
  | .dtNowRead r | .tblInsert r _ | .tblUpdate r _ | .tblDelete r _ | .tblLookup r _ | .tblReadIndex r _
  | .tblWriteIndex r _ | .tblDigestBlock r _ | .tblCmdDone r => requesterOk r
  | .pauseExpiry port _ | .pfcResend port _ | .holdTimeExpiry port | .shaperTokensReturn port => logicalOk port
  | .presenceDebounceEnd slot | .moduleIdPoll slot _ _ | .moduleLowpwrPoll slot _ | .modulePagesRead slot _
  | .moduleReady slot | .moduleDiscoveryTimeout slot | .moduleInt slot _ => cageOk slot
  | .i2cBusRecovery bus _ => busOk bus
  | .bufferPortLoad t _ _ | .waitevWake t | .parkWake t | .joinWake t | .chgetWake t | .chputReserveWake t
  | .orderEnterWake t | .longOpDone t | .lkpComplete t _ _ | .cacheMaintDone t | .starveGrant t | .watchdogExpiry t
  | .addR t _ _ _ | .subR t _ _ _ | .andR t _ _ _ | .orR t _ _ _ | .xorR t _ _ _ | .andnR t _ _ _ | .addwR t _ _ _
  | .subwR t _ _ _ | .sllR t _ _ _ | .srlR t _ _ _ | .sraR t _ _ _ | .rorR t _ _ _ | .ceqR t _ _ _ | .cneR t _ _ _
  | .cltR t _ _ _ | .cltuR t _ _ _ | .cleR t _ _ _ | .cleuR t _ _ _ | .cbsR t _ _ _ | .cbcR t _ _ _ | .minR t _ _ _
  | .maxR t _ _ _ | .minuR t _ _ _ | .maxuR t _ _ _ | .mulR t _ _ _ | .mulhuR t _ _ _ | .mulhR t _ _ _
  | .bswap16 t _ _ | .bswap32 t _ _ | .bswap64 t _ _ | .popc t _ _ | .clz t _ _ | .ctz t _ _ | .rdlk t _
  | .wrlk t _ | .addi t _ _ _ | .andi t _ _ _ | .ori t _ _ _ | .xori t _ _ _ | .shlori t _ _ _ | .slli t _ _ _
  | .srli t _ _ _ | .srai t _ _ _ | .rori t _ _ _ | .ceqi t _ _ _ | .cnei t _ _ _ | .clti t _ _ _ | .cltui t _ _ _
  | .cbsi t _ _ _ | .cbci t _ _ _ | .extu t _ _ _ _ | .exts t _ _ _ _ | .insF t _ _ _ _ | .bz t _ _ | .bnz t _ _
  | .br t _ | .call t _ | .jr t _ | .jrl t _ | .retI t | .jlk t | .lb t _ _ _ | .lbu t _ _ _ | .lh t _ _ _
  | .lhu t _ _ _ | .lw t _ _ _ | .lwu t _ _ _ | .ld t _ _ _ _ | .lhn t _ _ _ | .lwn t _ _ _ | .ldn t _ _ _
  | .sb t _ _ _ | .sh t _ _ _ | .sw t _ _ _ | .sd t _ _ _ | .shn t _ _ _ | .swn t _ _ _ | .sdn t _ _ _
  | .czero t _ _ _ | .cclean t _ _ _ | .cinval t _ _ _ | .cflush t _ _ _ | .cpref t _ _ _ | .rep t _ _ | .bcopy t _
  | .bfill t _ _ | .bcmp t _ _ | .bfind t _ _ _ _ _ | .lkp t _ _ _ | .weir t _ _ _ | .jemit t _ _ _
  | .jdeliv t _ _ _ | .jcnt t _ _ _ | .jledg t _ _ _ | .jtbl t _ _ _ | .jctx t _ _ _ | .jfree t _ _
  | .orderEnter t _ | .orderExit t _ | .retire t _ | .waitev t _ _ _ | .setev t _ _ | .delay t _ _ _
  | .fork t _ _ _ | .join t _ _ | .park t _ _ _ | .endI t | .chput t _ _ _ | .chend t _ _ | .chget t _ _
  | .chpoll t _ _ | .mfs t _ _ | .mts t _ _ | .tret t | .breakI t _ | .csum t _ _ _ | .csumadj t _ _ _
  | .crc t _ _ _ _ _ | .csumm t _ _ | .crcm t _ _ _ | .hmix t _ _ _ | .tplz t _ _ _ | .hrange t _ _ _
  | .gctrEnc t _ _ | .gctrDec t _ _ | .ghashAad t _ _ | .gcmFinal t _ _ _ | .coprocUnfitted t _
  | .storeBufferDrain t => threadOk t
  | .spillChoose queue | .refillRead queue | .refillReadDone queue _ => queueOk queue
  | .aggregateTimer pump read => pumpOk pump && queueOk read.queue
  | .aggregateWriteAck pump queue => pumpOk pump && queueOk queue
  | .copyArrival pump | .wheelSlot pump | .flushWalk pump | .pumpResetDone pump => pumpOk pump
  | .lockAcquire r lock | .lockTry r lock => lockReqOk r && lockOk lock
  | .lockRelease r lock | .lockClear r lock => requesterOk r && lockOk lock
  | .lockWaitTimeout lock => lockOk lock
  | .delayTick cluster lst => clusterOk cluster && listOk lst
  | .deadlockDetect cluster | .clusterDrainTimeout cluster | .clusterRetentionIdle cluster
  | .clusterOffIdle cluster => clusterOk cluster
  | .lineFill core _ _ | .writebackAck core _ | .coreRetireTimeout core | .coreGateIdle core => coreOk core
  | .hbmRequest port _ _ _ _ => hbmPortOk port
  | .hbmIssue pc _ | .pcPowerDown pc | .patrolScrub pc _ | .timingTrack pc | .tempRetrain pc => pcOk pc
  | .rowTimeout pc bank | .refreshDue pc bank _ => pcOk pc && hbmBankOk bank
  | .hbmTempRead stack _ | .stackSelfRefresh stack => stackOk stack
  | .dciRingEnable _ ring _ | .dciRingDisable _ ring => ringOk ring
  | .puntRingEnable _ _ ring _ | .puntRingDisable _ _ ring | .puntRxPost _ ring _ | .puntRxDeliver _ ring _
  | .puntTxDoorbell _ ring _ | .puntTxFetch _ ring _ _ _ _ _ => puntOk ring
  | .unitFault u _ => faultUnitOk u
  | .classIdle cls => classOk cls
  | .sensorRead sensor _ => sensorOk sensor

end Sys2Proof
end

