-- ==== Sys2Proof/Safety.lean ====
section
/-!
DEFINITION. The terms in which claims speak: when a thread issues an instruction, when a command of a host is
accepted and due, what a step leaves alone, and the promises that every step keeps.
-/

namespace Sys2Proof.Machine

/-! ### Threads -/

/-- Thread `t` issues the instruction at its PC now: it has a run, is not halted and waits for nothing, no breakpoint
matches, the PC lies in the text of its cluster's image, no lookup is outstanding, and no debug step ends here
(R248, R264, R311, R565, R567). -/
def State.issues (s : State) (t : Nat) : Prop :=
  s.ready t = true ∧ s.insnBreak t = none ∧ s.inText (clusterOf t) (s.thr t).pc.toNat = true ∧ (s.tr t).lkps = []
    ∧ (s.tr t).stepLeft = none

/-- The line of the instruction at a thread's PC is in the L1I of its core. -/
def State.fetchHits (s : State) (t : Nat) : Prop :=
  ((List.range 4).any fun w => SMap.get 0 (s.core (coreOf t)).l1i ((s.thr t).pc.toNat % hbmSize / 64 % 128 * 4 + w)
    = (s.thr t).pc.toNat % hbmSize / 64 + 1) = true

/-- The two states agree on everything outside the cores, the clusters, the memory and the threads. -/
def sameDevice (s u : State) : Prop :=
  u.pending = s.pending ∧ u.out = s.out ∧ u.time = s.time ∧ u.net = s.net ∧ u.order = s.order ∧ u.basin = s.basin
    ∧ u.cistern = s.cistern ∧ u.egress = s.egress ∧ u.locks = s.locks ∧ u.keys = s.keys ∧ u.hbm = s.hbm
    ∧ u.power = s.power ∧ u.tables = s.tables ∧ u.ledger = s.ledger ∧ u.dci = s.dci ∧ u.faults = s.faults
    ∧ u.trust = s.trust ∧ u.free = s.free

/-- What a register instruction of thread `t` leaves alone: every general register not named, lk, the special
registers, every other thread, thread scratch and the rest of the device; memory and the clusters too when its line need
not be fetched. -/
def keepsBut (s u : State) (t : Nat) (written : List Reg) : Prop :=
  (∀ r, r ∉ written → u.reg t r = s.reg t r)
    ∧ u.thr t = { s.thr t with regs := (u.thr t).regs, pc := (u.thr t).pc }
    ∧ (∀ k, k ≠ t → u.thr k = s.thr k ∧ u.tr k = s.tr k) ∧ u.scratch = s.scratch ∧ sameDevice s u
    ∧ (s.fetchHits t → u.mem = s.mem ∧ u.clusters = s.clusters)

/-! ### Commands of a host -/

/-- The device is READY with no part out of service, and the command is accepted, unanswered and first in its stream,
with this opcode and these payload fields (R485, R488, R491). -/
def State.accepts (s : State) (c : Sys2Proof.CmdRef) (op : Nat) (fields : List (Nat × Nat)) : Prop :=
  s.dci.st = .ready ∧ s.faults.fenced = [] ∧ s.cmdDue c op fields = true

/-- The command's record in the journal holds a response with this status (R485, R489). -/
def State.answered (s : State) (c : Sys2Proof.CmdRef) (status : Nat) : Prop :=
  ∃ j r, s.jcmd c = some j ∧ j.resp = some r ∧ r.status = status

/-! ### What every step keeps -/

/-- Memory in canonical form (log 3), and no more entries than the fault log can hold (R560). -/
def State.sound (s : State) : Prop := s.mem.wf = true ∧ s.faults.log.length ≤ 4096

/-- Bits of `a` that are 1 are 1 in `b`. -/
def bitsKept (a b : Nat) : Prop := ∀ k, a.testBit k = true → b.testBit k = true

end Sys2Proof.Machine
end

