-- ==== Sys2Proof/Certificates/Slice0/Obligations.lean ====
section
/-!
DEFINITION. The statements about the QZM-192 for the provers, in the order of OBLIGATIONS.json.
-/

namespace Sys2Proof.Claims

open Sys2Proof.Machine

/-! ### The tables of the instruction set chapter, as the spec lays them out -/

/-- Bit `k` of a word as a number. -/
def bitAt (a : W64) (k : Nat) : W64 := if a.getLsbD k then 1 else 0

/-- Byte `k` of a word, as a word. -/
def byteAt (a : W64) (k : Nat) : W64 := (a >>> (8 * k)) &&& 0xFF

/-- Bits from the top that are 0 before the first 1. -/
def leadingZeros (a : W64) : Nat := ((List.range 65).find? fun n => n = 64 || a.getLsbD (63 - n)).getD 64

/-- Bits from the bottom that are 0 before the first 1. -/
def trailingZeros (a : W64) : Nat := ((List.range 65).find? fun n => n = 64 || a.getLsbD n).getD 64

/-- The three-operand rows of R294: the instruction, and gd from ga and gb. -/
def aluRows : List ((Nat → Reg → Reg → Reg → Instr) × (W64 → W64 → W64)) :=
  [(.addR, fun a b => a + b), (.subR, fun a b => a - b), (.andR, fun a b => a &&& b), (.orR, fun a b => a ||| b),
   (.xorR, fun a b => a ^^^ b), (.andnR, fun a b => a &&& ~~~b),
   (.addwR, fun a b => ((a + b).extractLsb' 0 32).signExtend 64),
   (.subwR, fun a b => ((a - b).extractLsb' 0 32).signExtend 64),
   (.sllR, fun a b => a <<< (b.toNat % 64)), (.srlR, fun a b => a >>> (b.toNat % 64)),
   (.sraR, fun a b => a.sshiftRight (b.toNat % 64)), (.rorR, fun a b => a.rotateRight (b.toNat % 64)),
   (.ceqR, fun a b => if a = b then 1 else 0), (.cneR, fun a b => if a = b then 0 else 1),
   (.cltR, fun a b => if a.toInt < b.toInt then 1 else 0), (.cltuR, fun a b => if a.toNat < b.toNat then 1 else 0),
   (.cleR, fun a b => if a.toInt ≤ b.toInt then 1 else 0), (.cleuR, fun a b => if a.toNat ≤ b.toNat then 1 else 0),
   (.cbsR, fun a b => bitAt a (b.toNat % 64)), (.cbcR, fun a b => 1 - bitAt a (b.toNat % 64)),
   (.minR, fun a b => if a.toInt ≤ b.toInt then a else b), (.maxR, fun a b => if a.toInt ≤ b.toInt then b else a),
   (.minuR, fun a b => if a.toNat ≤ b.toNat then a else b), (.maxuR, fun a b => if a.toNat ≤ b.toNat then b else a),
   (.mulR, fun a b => a * b), (.mulhuR, fun a b => BitVec.ofNat 64 (a.toNat * b.toNat / 2 ^ 64)),
   (.mulhR, fun a b => BitVec.ofInt 64 (a.toInt * b.toInt / 2 ^ 64))]

/-- The rows of R294 that use only ga. -/
def aluRows1 : List ((Nat → Reg → Reg → Instr) × (W64 → W64)) :=
  [(.bswap16, fun a => (byteAt a 0 <<< 8) ||| byteAt a 1),
   (.bswap32, fun a => (byteAt a 0 <<< 24) ||| (byteAt a 1 <<< 16) ||| (byteAt a 2 <<< 8) ||| byteAt a 3),
   (.bswap64, fun a => (byteAt a 0 <<< 56) ||| (byteAt a 1 <<< 48) ||| (byteAt a 2 <<< 40) ||| (byteAt a 3 <<< 32)
      ||| (byteAt a 4 <<< 24) ||| (byteAt a 5 <<< 16) ||| (byteAt a 6 <<< 8) ||| byteAt a 7),
   (.popc, fun a => ((List.range 64).map (bitAt a)).foldl (· + ·) 0),
   (.clz, fun a => BitVec.ofNat 64 (leadingZeros a)), (.ctz, fun a => BitVec.ofNat 64 (trailingZeros a))]

/-- The immediate rows of R295 with a 16-bit immediate. -/
def immRows : List ((Nat → Reg → Reg → BitVec 16 → Instr) × (W64 → BitVec 16 → W64)) :=
  [(.addi, fun a i => a + i.signExtend 64), (.andi, fun a i => a &&& i.setWidth 64), (.ori, fun a i => a ||| i.setWidth 64),
   (.xori, fun a i => a ^^^ i.setWidth 64), (.shlori, fun a i => (a <<< 16) ||| i.setWidth 64),
   (.ceqi, fun a i => if a = i.signExtend 64 then 1 else 0), (.cnei, fun a i => if a = i.signExtend 64 then 0 else 1),
   (.clti, fun a i => if a.toInt < (i.signExtend 64).toInt then 1 else 0),
   (.cltui, fun a i => if a.toNat < i.toNat then 1 else 0)]

/-- The rows of R295 with an amount or a bit number. -/
def amtRows : List ((Nat → Reg → Reg → BitVec 6 → Instr) × (W64 → Nat → W64)) :=
  [(.slli, fun a n => a <<< n), (.srli, fun a n => a >>> n), (.srai, fun a n => a.sshiftRight n),
   (.rori, fun a n => a.rotateRight n), (.cbsi, bitAt), (.cbci, fun a n => 1 - bitAt a n)]

/-- The ones of a field (R296): 2^len − 1. -/
def ones (len : Nat) : W64 := BitVec.ofNat 64 (2 ^ len - 1)

/-- EXTU, EXTS and INS of R296: ga, the old gd, pos and len. -/
def fieldRows : List ((Nat → Reg → Reg → BitVec 6 → BitVec 6 → Instr) × (W64 → W64 → Nat → Nat → W64)) :=
  [(.extu, fun a _ pos len => (a >>> pos) &&& ones len),
   (.exts, fun a _ pos len => if a.getLsbD (pos + len - 1) then ((a >>> pos) &&& ones len) ||| ~~~ones len
      else (a >>> pos) &&& ones len),
   (.insF, fun a d pos len => (d &&& ~~~(ones len <<< pos)) ||| ((a <<< pos) &&& (ones len <<< pos)))]

/-- A register instruction completes: the value in gd, PC four bytes on, nothing else. -/
def completes (s : State) (i : Instr) (t : Nat) (gd : Reg) (v : W64) : Prop :=
  ∃ u, exec i s = .next u ∧ u.reg t gd = (if gd = 0 then 0 else v) ∧ (u.thr t).pc = (s.thr t).pc + 4
    ∧ keepsBut s u t [gd]

end Sys2Proof.Claims

open Sys2Proof Sys2Proof.Machine Sys2Proof.Claims

/-! ### The Usoth instruction set -/

/-- Every three-operand ALU instruction of R294, every one that uses only ga, and every immediate one of R295 with its
immediate at every value: gd gets what the row says, PC moves on, and nothing else changes. EXTU, EXTS and INS of R296: the
field when it fits in 64 bits, and UNDEF_INSTR with the encoding else. -/
def Obligations.AluForms : Prop :=
  (∀ p ∈ aluRows, ∀ s t gd ga gb, s.issues t → completes s (p.1 t gd ga gb) t gd (p.2 (s.reg t ga) (s.reg t gb)))
  ∧ (∀ p ∈ aluRows1, ∀ s t gd ga, s.issues t → completes s (p.1 t gd ga) t gd (p.2 (s.reg t ga)))
  ∧ ((∀ p ∈ immRows, ∀ s t gd ga imm, s.issues t → completes s (p.1 t gd ga imm) t gd (p.2 (s.reg t ga) imm))
   ∧ (∀ p ∈ amtRows, ∀ s t gd ga amt, s.issues t → completes s (p.1 t gd ga amt) t gd (p.2 (s.reg t ga) amt.toNat)))
  ∧ (∀ p ∈ fieldRows, ∀ s t gd ga pos lenm1, s.issues t →
      (pos.toNat + lenm1.toNat + 1 ≤ 64 →
        completes s (p.1 t gd ga pos lenm1) t gd (p.2 (s.reg t ga) (s.reg t gd) pos.toNat (lenm1.toNat + 1)))
      ∧ (64 < pos.toNat + lenm1.toNat + 1 → (s.thr t).handler = false → s.vector t 1 ≠ 0 →
        ∃ u, exec (p.1 t gd ga pos lenm1) s = .next u ∧ (u.thr t).handler = true ∧ (u.thr t).pc = s.vector t 1
          ∧ (u.thr t).tcause = 1 ∧ (u.thr t).tepc = (s.thr t).pc ∧ ∀ r, u.reg t r = s.reg t r))

/-- BZ, BNZ, BR, CALL, JR, JRL, RET and JLK go where R297 says and save lk where it says, and RDLK and WRLK read and write
it; no general register changes but RDLK's. -/
def Obligations.BranchesAndLink : Prop :=
  ∀ s t, s.issues t →
    let pc := (s.thr t).pc
    let lk := (s.thr t).lk
    let goes := fun (i : Instr) (target link : W64) => ∃ u, exec i s = .next u ∧ (u.thr t).pc = target
      ∧ (u.thr t).lk = link ∧ ∀ r, u.reg t r = s.reg t r
    (∀ ga off, goes (.bz t ga off) (if s.reg t ga = 0 then pc + off.signExtend 64 * 4 else pc + 4) lk)
    ∧ (∀ ga off, goes (.bnz t ga off) (if s.reg t ga = 0 then pc + 4 else pc + off.signExtend 64 * 4) lk)
    ∧ (∀ off, goes (.br t off) (pc + off.signExtend 64 * 4) lk)
    ∧ (∀ off, goes (.call t off) (pc + off.signExtend 64 * 4) (pc + 4))
    ∧ (∀ ga, (s.reg t ga).toNat % 4 = 0 → goes (.jr t ga) (s.reg t ga) lk ∧ goes (.jrl t ga) (s.reg t ga) (pc + 4))
    ∧ (lk.toNat % 4 = 0 → goes (.retI t) lk lk ∧ goes (.jlk t) lk (pc + 4))
    ∧ (∀ gd, completes s (.rdlk t gd) t gd lk)
    ∧ (∀ ga, goes (.wrlk t ga) (pc + 4) (s.reg t ga))

/-- A thread enters its handler: PC at the vector, TEPC at the instruction, cause, detail and address in their registers,
no general register changed (R280). -/
def Claims.entersHandler (s u : State) (t cause : Nat) (detail addr : W64) : Prop :=
  (u.thr t).handler = true ∧ (u.thr t).pc = s.vector t cause ∧ (u.thr t).tepc = (s.thr t).pc
    ∧ (u.thr t).tcause = BitVec.ofNat 8 cause ∧ (u.thr t).tdetail = detail ∧ (u.thr t).taddr = addr
    ∧ ∀ r, u.reg t r = s.reg t r

/-- A trap in program mode whose vector is not 0 enters the handler: BREAK with its code; an undefined word, such as one for
a unit that is not fitted, with the word; an operation code that a fitted unit does not define, with UNDEF_OP and the unit;
a jump to an unaligned target; every load and store of R299 at an unaligned address (R278, R280, R297, R299, R325-R327). -/
def Obligations.TrapEntry : Prop :=
  ∀ s t, s.issues t → (s.thr t).handler = false →
    let enters := fun (i : Instr) (cause : Nat) (detail addr : W64) =>
      s.vector t cause ≠ 0 → ∃ u, exec i s = .next u ∧ Claims.entersHandler s u t cause detail addr
    (∀ code, enters (.breakI t code) 10 (code.setWidth 64) 0)
    ∧ (∀ w, usothDecode t w 0 = .undef → enters (.coprocUnfitted t w) 1 (w.setWidth 64) 0)
    ∧ (∀ w, 0x33 ≤ w.toNat / 2 ^ 26 → w.toNat / 2 ^ 26 ≤ 0x37 → usothDecode t w 0 = .undef)
    ∧ (∀ w k, usothDecode t w 0 = .refused k → enters (.coprocUnfitted t w) 2 (BitVec.ofNat 64 (k + 256)) 0)
    ∧ (∀ ga, (s.reg t ga).toNat % 4 ≠ 0 → enters (.jr t ga) 4 0 (s.reg t ga) ∧ enters (.jrl t ga) 4 0 (s.reg t ga))
    ∧ (∀ gd ga (imm : BitVec 16) (k : Nat), (s.cl (clusterOf t)).breaks = [] →
        (s.reg t ga + imm.signExtend 64).toNat % k ≠ 0 →
        (k = 2 → ∀ i ∈ [Instr.lh t gd ga imm, .lhu t gd ga imm, .lhn t gd ga imm, .sh t gd ga imm, .shn t gd ga imm],
          enters i 4 0 (s.reg t ga + imm.signExtend 64))
        ∧ (k = 4 → ∀ i ∈ [Instr.lw t gd ga imm, .lwu t gd ga imm, .lwn t gd ga imm, .sw t gd ga imm, .swn t gd ga imm],
          enters i 4 0 (s.reg t ga + imm.signExtend 64))
        ∧ (k = 8 → ∀ i ∈ [Instr.ld t gd ga imm none, .ldn t gd ga imm, .sd t gd ga imm, .sdn t gd ga imm],
          enters i 4 0 (s.reg t ga + imm.signExtend 64)))

/-- MFS and MTS read and write the special registers of R283 and R359, the handler's only in handler mode; TRET resumes at
TEPC in program mode (R277, R281, R323, R324). -/
def Obligations.SpecialRegisters : Prop :=
  ∀ s t, s.issues t →
    let x := s.thr t
    (∀ gd, completes s (.mfs t gd 0x01) t gd (x.prio.setWidth 64) ∧ completes s (.mfs t gd 0x02) t gd (x.bufsel.setWidth 64)
      ∧ completes s (.mfs t gd 0x03) t gd (if x.pfctl then 1 else 0)
      ∧ completes s (.mfs t gd 0x04) t gd (BitVec.ofNat 64 (128 - (s.tr (s.owner t)).run.used))
      ∧ completes s (.mfs t gd 0x20) t gd (x.evflags.setWidth 64) ∧ completes s (.mfs t gd 0x21) t gd (x.evext.setWidth 64))
    ∧ (∀ gd v, s.reg t gd = v →
      (∃ u, exec (.mts t gd 0x01) s = .next u ∧ u.thr t = { x with prio := v.setWidth 2, pc := x.pc + 4 })
      ∧ (∃ u, exec (.mts t gd 0x02) s = .next u ∧ u.thr t = { x with bufsel := v.setWidth 32, pc := x.pc + 4 })
      ∧ (∃ u, exec (.mts t gd 0x03) s = .next u ∧ u.thr t = { x with pfctl := v.getLsbD 0, pc := x.pc + 4 })
      ∧ (∃ u, exec (.mts t gd 0x20) s = .next u ∧ u.thr t = { x with evflags := v.setWidth 32, pc := x.pc + 4 })
      ∧ (∃ u, exec (.mts t gd 0x21) s = .next u ∧ u.thr t = { x with evext := v.setWidth 32, pc := x.pc + 4 }))
    ∧ (x.handler = true →
      (∀ gd, completes s (.mfs t gd 0x08) t gd x.tepc ∧ completes s (.mfs t gd 0x09) t gd (x.tcause.setWidth 64)
        ∧ completes s (.mfs t gd 0x0A) t gd x.tdetail ∧ completes s (.mfs t gd 0x0B) t gd x.taddr)
      ∧ (∀ gd (n : BitVec 8), 0x10 ≤ n.toNat → n.toNat ≤ 0x13 → completes s (.mfs t gd n) t gd (SMap.get 0 x.tsave (n.toNat - 0x10))
        ∧ ∃ u, exec (.mts t gd n) s = .next u ∧ SMap.get 0 (u.thr t).tsave (n.toNat - 0x10) = s.reg t gd
          ∧ u.thr t = { x with tsave := (u.thr t).tsave, pc := x.pc + 4 })
      ∧ (∀ gd, ∃ u, exec (.mts t gd 0x08) s = .next u ∧ u.thr t = { x with tepc := s.reg t gd, pc := x.pc + 4 })
      ∧ (∃ u, exec (.tret t) s = .next u ∧ u.thr t = { x with handler := false, pc := x.tepc }))
    ∧ (x.handler = false → s.vector t 5 ≠ 0 → ∀ gd, ∀ n ∈ [(0x08 : BitVec 8), 0x09, 0x0A, 0x0B, 0x0C, 0x10, 0x11, 0x12, 0x13],
      (∃ u, exec (.mfs t gd n) s = .next u ∧ Claims.entersHandler s u t 5 3 0)
      ∧ ∃ u, exec (.mts t gd n) s = .next u ∧ Claims.entersHandler s u t 5 3 0)
    ∧ (x.handler = false → s.vector t 5 ≠ 0 → ∃ u, exec (.tret t) s = .next u ∧ Claims.entersHandler s u t 5 3 0)

/-! ### Loads and stores -/

/-- The loads of R299: the instruction, its size, and gd from the bytes at its address, lowest address first. -/
def Claims.loadRows : List ((Nat → Reg → Reg → BitVec 16 → Instr) × Nat × (List Byte → W64)) :=
  let le := fun (bs : List Byte) => BitVec.ofNat 64 (bs.foldr (fun b n => b.toNat + 256 * n) 0)
  let be := fun (bs : List Byte) => BitVec.ofNat 64 (bs.foldl (fun n b => b.toNat + 256 * n) 0)
  [(.lb, 1, fun bs => ((le bs).setWidth 8).signExtend 64), (.lbu, 1, le), (.lh, 2, fun bs => ((le bs).setWidth 16).signExtend 64),
   (.lhu, 2, le), (.lw, 4, fun bs => ((le bs).setWidth 32).signExtend 64), (.lwu, 4, le),
   (fun t gd ga i => .ld t gd ga i none, 8, le), (.lhn, 2, be), (.lwn, 4, be), (.ldn, 8, be)]

/-- The stores of R299: the instruction, its size, and byte `k` of what it stores, from the lowest address. -/
def Claims.storeRows : List ((Nat → Reg → Reg → BitVec 16 → Instr) × Nat × (W64 → Nat → Byte)) :=
  let le := fun (v : W64) (k : Nat) => (v >>> (8 * k)).setWidth 8
  [(.sb, 1, le), (.sh, 2, le), (.sw, 4, le), (.sd, 8, le), (.shn, 2, fun v k => le v (1 - k)),
   (.swn, 4, fun v k => le v (3 - k)), (.sdn, 8, fun v k => le v (7 - k))]

/-- The byte of a run's thread scratch at a thread-local address. -/
def Claims.scratchAt (s : State) (t a : Nat) : Byte := SMap.get 0 (s.scr (s.owner t)).bytes (a - 0x4000)

/-- The address ga + sext(imm16) of a load or store (R299). -/
def Claims.ea (s : State) (t : Nat) (ga : Reg) (imm : BitVec 16) : Nat := (s.reg t ga + imm.signExtend 64).toNat

/-- `n` aligned bytes of thread scratch, none of them poisoned, and no watchpoint set (R247, R276, R567). -/
def Claims.scratchRange (s : State) (t a n : Nat) : Prop :=
  0x4000 ≤ a ∧ a + n ≤ 0x8000 ∧ a % n = 0 ∧ (s.scr (s.owner t)).poison = [] ∧ (s.cl (clusterOf t)).breaks = []

/-- Every load of R299. From thread scratch: gd from the bytes at the address, and nothing else changes. From any other
region whose memory answers: gd from the bytes answered, and the other registers as the access left them (R260, R299). -/
def Obligations.Loads : Prop :=
  (∀ p ∈ Claims.loadRows, ∀ s t gd ga imm, s.issues t → Claims.scratchRange s t (Claims.ea s t ga imm) p.2.1 →
     completes s (p.1 t gd ga imm) t gd
       (p.2.2 ((List.range p.2.1).map fun k => Claims.scratchAt s t (Claims.ea s t ga imm + k))))
  ∧ (∀ p ∈ Claims.loadRows, ∀ s t gd ga imm bs v, s.issues t → (s.cl (clusterOf t)).breaks = [] →
     Claims.ea s t ga imm % p.2.1 = 0 → (s.fetchLine t).memLoad t (Claims.ea s t ga imm) p.2.1 = .ok bs v →
     (v.tr t).stepLeft = none → bs.length = p.2.1 →
     ∃ u, exec (p.1 t gd ga imm) s = .next u ∧ u.reg t gd = (if gd = 0 then 0 else p.2.2 bs)
       ∧ (∀ r, r ≠ gd → u.reg t r = v.reg t r) ∧ (u.thr t).pc = (v.thr t).pc + 4)

/-- Every store of R299, to thread scratch or uncached HBM when the thread's earlier stores have left and the store buffer has
room: the bytes of gd at the address in the order R299 says, every other byte of scratch or memory as before, no register
changed, PC moves on. To cached HBM: the bytes enter the store buffer, and memory is as before (R255, R260, R273, R299). -/
def Obligations.Stores : Prop :=
  (∀ p ∈ Claims.storeRows, ∀ s t gd ga imm, s.issues t → Claims.scratchRange s t (Claims.ea s t ga imm) p.2.1 →
     (s.tr t).sb = [] → s.sbRoom t = true →
     ∃ u, exec (p.1 t gd ga imm) s = .next u ∧ (u.thr t) = { s.thr t with pc := (s.thr t).pc + 4 }
       ∧ (∀ k, k < p.2.1 → Claims.scratchAt u t (Claims.ea s t ga imm + k) = p.2.2 (s.reg t gd) k)
       ∧ (∀ a, 0x4000 ≤ a → (a < Claims.ea s t ga imm ∨ Claims.ea s t ga imm + p.2.1 ≤ a) →
           Claims.scratchAt u t a = Claims.scratchAt s t a)
       ∧ (∀ k, k ≠ s.owner t → u.scr k = s.scr k) ∧ sameDevice s u ∧ (s.fetchHits t → u.mem = s.mem ∧ u.clusters = s.clusters))
  ∧ (∀ p ∈ Claims.storeRows, ∀ s t gd ga imm x, s.issues t → s.fetchHits t → (s.cl (clusterOf t)).breaks = [] →
     Claims.ea s t ga imm = uncachedBase + x → x % p.2.1 = 0 → x + p.2.1 ≤ hbmSize →
     (∃ r, s.mem.region x = some r ∧ r.right = 3) → s.sbRoom t = true →
     ((s.tr t).sb = [] → ∃ u, exec (p.1 t gd ga imm) s = .next u ∧ (u.thr t) = { s.thr t with pc := (s.thr t).pc + 4 }
       ∧ (∀ k, k < p.2.1 → u.mem.byte (x + k) = p.2.2 (s.reg t gd) k)
       ∧ (∀ a, a < x ∨ x + p.2.1 ≤ a → u.mem.byte a = s.mem.byte a)
       ∧ u.scratch = s.scratch ∧ sameDevice s u))
  ∧ (∀ p ∈ Claims.storeRows, ∀ s t gd ga imm x, s.issues t → s.fetchHits t → (s.cl (clusterOf t)).breaks = [] →
     Claims.ea s t ga imm = cachedBase + x → x % p.2.1 = 0 → x + p.2.1 ≤ hbmSize →
     (∃ r, s.mem.region x = some r ∧ r.right = 3) → s.sbRoom t = true → (s.tr t).maint = [] →
     ∃ u, exec (p.1 t gd ga imm) s = .next u ∧ (u.thr t) = { s.thr t with pc := (s.thr t).pc + 4 }
       ∧ (u.tr t).sb = (s.tr t).sb ++ [⟨x, (List.range p.2.1).map fun k => p.2.2 (s.reg t gd) k⟩]
       ∧ u.mem = s.mem ∧ u.scratch = s.scratch ∧ sameDevice s u)

/-! ### The journal, lookups and weirs -/

/-- Bits [lo + n − 1 : lo] of an operand. -/
def Claims.bits (a : W64) (lo n : Nat) : Nat := (a.extractLsb' lo n).toNat

/-- A run works on its own thread and its journal has room for `slots` more slots and for another copy (R203, R207). -/
def Claims.hasRoom (s : State) (t slots : Nat) : Prop :=
  (s.tr t).parent = none ∧ (s.tr t).run.used + slots ≤ 128 ∧ (s.tr t).run.copies < 255

/-- The instruction appends one entry of `slots` slots that counts `copies` copies: gd gets the entry's slot index, PC moves
on, and no other register changes (R203, R309). -/
def Claims.appends (s : State) (i : Instr) (t : Nat) (gd : Reg) (e : JEntry) (slots copies : Nat) : Prop :=
  ∃ u, exec i s = .next u ∧ (u.tr t).run.journal = (s.tr t).run.journal ++ [e]
    ∧ (u.tr t).run.used = (s.tr t).run.used + slots ∧ (u.tr t).run.copies = (s.tr t).run.copies + copies
    ∧ u.reg t gd = (if gd = 0 then 0 else BitVec.ofNat 64 (s.tr t).run.used)
    ∧ (u.thr t).pc = (s.thr t).pc + 4 ∧ ∀ r, r ≠ gd → u.reg t r = s.reg t r

/-- `n` bytes of thread scratch from an address. -/
def Claims.scratchRun (s : State) (t a n : Nat) : List Byte := (List.range n).map fun k => Claims.scratchAt s t (a + k)

/-- The little-endian value of `n` bytes of thread scratch. -/
def Claims.scratchVal (s : State) (t a n : Nat) : Nat :=
  ((List.range n).map fun k => (Claims.scratchAt s t (a + k)).toNat * 256 ^ k).sum

/-- JEMIT records an emission with its edit list and release time from thread scratch (R313).

JDELIV, JFREE, JTBL, JCNT and JLEDG record their entries; an addition to a counter already in the journal is merged
with it (R206, R314-R317). -/
def Obligations.JournalInstructions : Prop :=
  (∀ s t gd ga gb, s.issues t →
     let a := s.reg t ga
     let b := (s.reg t gb).toNat
     let ext := Claims.bits a 56 5 + Claims.bits a 50 1
     let edits := if Claims.bits a 50 1 = 1 then b + 16 else b
     Claims.hasRoom s t (1 + ext) → Claims.bits a 0 32 < 524288 → (Claims.bits a 48 1 = 1 → Claims.bits a 32 16 < 16384) →
     Claims.bits a 51 5 ≤ 16 → Claims.bits a 56 5 ≤ 16 → ext ≤ 16 → Claims.bits a 61 3 = 0 → (ext = 0 → b = 0) →
     (ext ≠ 0 → b % 16 = 0 ∧ 0x4000 ≤ b ∧ b + 16 * ext ≤ 0x8000) → (s.scr (s.owner t)).poison = [] →
     Claims.appends s (.jemit t gd ga gb) t gd
       (.emit (s.tr t).run.used (Claims.bits a 0 32) (Claims.bits a 32 16) (Claims.bits a 48 1 = 1) (Claims.bits a 49 1 = 1)
         (if Claims.bits a 50 1 = 1 then some (Claims.scratchVal s t b 8) else none) (Claims.bits a 51 5)
         (Claims.scratchRun s t edits (16 * Claims.bits a 56 5)))
       (1 + ext) (if Claims.bits a 48 1 = 1 then (SMap.get [] s.egress.mcGroups (Claims.bits a 32 16)).length else 1))
  ∧ (∀ s t gd ga gb, s.issues t →
     let a := s.reg t ga
     let b := s.reg t gb
     let used := (s.tr t).run.used
     (Claims.hasRoom s t 1 → Claims.bits a 0 32 < 524288 → Claims.bits a 40 24 = 0 → Claims.bits b 30 34 = 0 →
       (Claims.bits b 16 14 = 0 ∨ (64 ≤ Claims.bits b 16 14 ∧ Claims.bits b 16 14 ≤ 10240)) →
       Claims.appends s (.jdeliv t gd ga gb) t gd
         (.deliver used (Claims.bits a 0 32) (Claims.bits a 32 1 = 1) (Claims.bits a 33 1 = 1) (Claims.bits a 34 6)
           (Claims.bits b 0 16) (Claims.bits b 16 14)) 1 1)
     ∧ (Claims.hasRoom s t 1 → Claims.bits a 32 32 = 0 →
       Claims.appends s (.jfree t gd ga) t gd (.free used (Claims.bits a 0 32)) 1 0)
     ∧ (Claims.bits a 24 40 = 0 → 1 ≤ Claims.bits a 16 4 → Claims.bits a 16 4 ≤ 8 → Claims.bits a 20 4 ≤ 8 →
       Claims.bits a 12 4 ∈ [1, 2, 3, 6] → b.toNat % 8 = 0 → 0x4000 ≤ b.toNat →
       b.toNat + 8 * (Claims.bits a 16 4 + Claims.bits a 20 4) ≤ 0x8000 →
       Claims.hasRoom s t (1 + ((Claims.bits a 16 4 + 1) / 2 + (Claims.bits a 20 4 + 1) / 2)) →
       (s.scr (s.owner t)).poison = [] →
       Claims.appends s (.jtbl t gd ga gb) t gd
         (.table used (Claims.bits a 0 12) (Claims.bits a 12 4) (Claims.bits a 16 4) (Claims.bits a 20 4)
           ((List.range (Claims.bits a 16 4)).map fun k => BitVec.ofNat 64 (Claims.scratchVal s t (b.toNat + 8 * k) 8))
           ((List.range (Claims.bits a 20 4)).map fun k =>
             BitVec.ofNat 64 (Claims.scratchVal s t (b.toNat + 8 * Claims.bits a 16 4 + 8 * k) 8)))
         (1 + ((Claims.bits a 16 4 + 1) / 2 + (Claims.bits a 20 4 + 1) / 2)) 0)
     ∧ (Claims.hasRoom s t 1 → Claims.bits a 23 17 = 0 → (s.tr t).run.journal = [] →
       Claims.appends s (.jcnt t gd ga gb) t gd
         (.count used (Claims.bits a 0 22) (Claims.bits a 22 1 = 1) (Claims.bits a 40 24) b) 1 0)
     ∧ (∀ k n m, (s.tr t).parent = none → Claims.bits a 23 17 = 0 →
       (s.tr t).run.journal = [.count k (Claims.bits a 0 22) (Claims.bits a 22 1 = 1) n m] →
       ∃ u, exec (.jcnt t gd ga gb) s = .next u ∧ (u.tr t).run.used = used
         ∧ (u.tr t).run.journal = [.count k (Claims.bits a 0 22) (Claims.bits a 22 1 = 1)
           ((n + Claims.bits a 40 24) % 2 ^ 24) (m + b)]
         ∧ u.reg t gd = (if gd = 0 then 0 else BitVec.ofNat 64 k))
     ∧ (Claims.hasRoom s t 1 → Claims.bits a 21 43 = 0 → (s.tr t).run.journal = [] →
       Claims.appends s (.jledg t gd ga gb) t gd
         (.ledger used (Claims.bits a 0 16) (Claims.bits a 16 4) (Claims.bits a 20 1 = 1) false 0 b) 1 0))

/-- JCTX writes the run's own version of a quarter and names it in a CONTEXT entry; a fifth context raises JOURNAL_FULL with
case 1 (R207, R218, R317). LKP becomes outstanding with the key its address holds (R310, R311). WEIR gives the colour that
its bucket gives, and 0x200 for a weir that is disabled (R312). -/
def Obligations.ContextsLookupsAndWeirs : Prop :=
  ∀ s t gd ga gb p, s.issues t → (s.tr t).parent = none → (s.tr t).cur = some p →
    let a := s.reg t ga
    let b := s.reg t gb
    (Claims.hasRoom s t 1 → Claims.bits a 26 38 = 0 → b.toNat % 64 = 0 → 0x4000 ≤ b.toNat → b.toNat + 64 ≤ 0x8000 →
      (s.tr t).run.journal = [] → (s.tr t).run.held = [] → (s.scr (s.owner t)).poison = [] →
      ∃ u, exec (.jctx t gd ga gb) s = .next u
        ∧ (u.tr t).run.journal = [.context (s.tr t).run.used (Claims.bits a 0 24) (2 ^ Claims.bits a 24 2)]
        ∧ ∃ v ∈ u.tables.vers, v.ctx = Claims.bits a 0 24 ∧ v.q = Claims.bits a 24 2 ∧ v.pkt = p
          ∧ v.own = Claims.scratchRun s t b.toNat 64)
    ∧ (Claims.bits a 26 38 = 0 → b.toNat % 64 = 0 → 0x4000 ≤ b.toNat → b.toNat + 64 ≤ 0x8000 →
      (s.thr t).handler = false → s.vector t 3 ≠ 0 → (∃ k0 k1 k2 k3 c0 c1 c2 c3 m0 m1 m2 m3,
        (s.tr t).run.journal = [.context k0 c0 m0, .context k1 c1 m1, .context k2 c2 m2, .context k3 c3 m3]
        ∧ Claims.bits a 0 24 ∉ [c0, c1, c2, c3]) →
      ∃ u, exec (.jctx t gd ga gb) s = .next u ∧ Claims.entersHandler s u t 3 1 0)
    ∧ (s.lkpOk a b = true → 0x4000 ≤ a.toNat → (s.scr (s.owner t)).poison = [] →
      ∃ u l, exec (.lkp t gd ga gb) s = .next u ∧ (u.tr t).lkps = [l] ∧ l.gd = gd ∧ l.table = Claims.bits b 0 12
        ∧ l.res = Claims.bits b 16 16 ∧ l.key = Claims.scratchRun s t a.toNat (8 * Claims.bits b 32 4)
        ∧ (u.thr t).pc = (s.thr t).pc + 4 ∧ ∀ r, u.reg t r = s.reg t r)
    ∧ (Claims.bits a 18 46 = 0 → Claims.bits b 27 37 = 0 → Claims.bits b 24 2 ≠ 3 →
      ((s.weir (Claims.bits a 0 18)).mode = 0 → ∃ u, exec (.weir t gd ga gb) s = .next u
        ∧ u.reg t gd = (if gd = 0 then 0 else 0x200) ∧ u.tables.weirs = s.tables.weirs ∧ u.tables.debits = s.tables.debits)
      ∧ ((s.weir (Claims.bits a 0 18)).mode ≠ 0 → (s.pkt p).refusal ≠ none → ∃ u col, exec (.weir t gd ga gb) s = .next u
        ∧ col ≤ 2 ∧ u.reg t gd = (if gd = 0 then 0 else BitVec.ofNat 64 col) ∧ u.tables.debits = s.tables.debits)
      ∧ ((s.weir (Claims.bits a 0 18)).mode ≠ 0 → s.tables.debits = [] → ∃ u col, exec (.weir t gd ga gb) s = .next u
        ∧ col ≤ 2 ∧ u.reg t gd = (if gd = 0 then 0 else BitVec.ofNat 64 col)
        ∧ ∀ d ∈ u.tables.debits, d.weir = Claims.bits a 0 18 ∧ d.pkt = p))

/-! ### Tasks, channels, ordered sections and RETIRE -/

/-- The thread waits in the instruction: its registers and PC are as before. -/
def Claims.waits (s : State) (i : Instr) (t : Nat) (w : Wait) : Prop :=
  ∃ u, exec i s = .next u ∧ (u.tr t).wait = w ∧ u.thr t = s.thr t

/-- WAITEV clears and returns the flags of its mask when they meet it, and waits else; PARK gives 1 when a flag of its mask is
set and waits else; SETEV sets the flags of a thread of its cluster; DELAY puts its entry into its list and gives 0, or 1 when
the list is full (R320, R321, R359-R361). -/
def Obligations.EventFlagsAndWaits : Prop :=
  ∀ s t gd ga gb, s.issues t →
    let m : W32 := (s.reg t ga).extractLsb' 0 32
    let f := (s.thr t).evflags
    let met := if (s.reg t gb).getLsbD 0 then f &&& m = m else f &&& m ≠ 0
    (m ≠ 0 → met → ∃ u, exec (.waitev t gd ga gb) s = .next u
      ∧ u.reg t gd = (if gd = 0 then 0 else (f &&& m).setWidth 64) ∧ (u.thr t).evflags = f &&& ~~~m
      ∧ (u.thr t).pc = (s.thr t).pc + 4)
    ∧ (m ≠ 0 → ¬ met → Claims.waits s (.waitev t gd ga gb) t (.waitev gd m ((s.reg t gb).getLsbD 0) s.dt))
    ∧ (f &&& (s.reg t gb).extractLsb' 0 32 = 0 →
      Claims.waits s (.park t gd ga gb) t (.park gd (s.reg t ga) ((s.reg t gb).extractLsb' 0 32)))
    ∧ (f &&& (s.reg t gb).extractLsb' 0 32 ≠ 0 → s.reg t ga = 0 → completes s (.park t gd ga gb) t gd 1)
    ∧ ((s.reg t ga).toNat % 2048 / 128 = t / 128 → s.released t = true → ∃ u, exec (.setev t ga gb) s = .next u
      ∧ (u.thr ((s.reg t ga).toNat % 2048)).evflags
        = (s.thr ((s.reg t ga).toNat % 2048)).evflags ||| (s.reg t gb).extractLsb' 0 32)
    ∧ ((s.cl (clusterOf t)).task.lists = [] → ∃ u, exec (.delay t gd ga gb) s = .next u ∧ u.reg t gd = 0
      ∧ SMap.get [] (u.cl (clusterOf t)).task.lists ((s.reg t gb).toNat / 256 % 4)
        = [⟨s.reg t ga, t, (s.reg t gb).extractLsb' 0 5, s.dt⟩])
    ∧ (1024 ≤ (SMap.get [] (s.cl (clusterOf t)).task.lists ((s.reg t gb).toNat / 256 % 4)).length →
      completes s (.delay t gd ga gb) t gd 1)

/-- FORK starts the lowest free pool thread of the core with g1 from gb and every other register 0, and gives its handle;
JOIN gives the g1 that the child ended with; END records it and returns the child to the pool (R256-R258, R320). -/
def Obligations.ForkJoinEnd : Prop :=
  ∀ s t gd ga gb k, s.issues t →
    (s.freePool (coreOf t) = some k → k ≠ t → (s.reg t ga).toNat % 4 = 0 → (s.tr t).parent = none → (s.tr t).sb = [] →
      ∃ u, exec (.fork t gd ga gb) s = .next u ∧ u.reg t gd = (if gd = 0 then 0 else BitVec.ofNat 64 (k % 8 + 1))
        ∧ (u.tr k).parent = some t ∧ (u.thr k).pc = s.reg t ga ∧ u.reg k 1 = s.reg t gb
        ∧ (∀ r, r ≠ 1 → u.reg k r = 0) ∧ ⟨k, none⟩ ∈ (u.tr t).children)
    ∧ (s.freePool (coreOf t) = none → (s.reg t ga).toNat % 4 = 0 → completes s (.fork t gd ga gb) t gd 0)
    ∧ (∀ v, s.child t (s.reg t ga) = some ⟨k, some v⟩ → completes s (.join t gd ga) t gd v)
    ∧ (s.child t (s.reg t ga) = some ⟨k, none⟩ → Claims.waits s (.join t gd ga) t (.join gd (s.reg t ga).toNat))
    ∧ (∀ p, (s.tr t).parent = some p → p ≠ t → s.released t = true → (s.tr p).children = [⟨t, none⟩] →
      ∃ u, exec (.endI t) s = .next u ∧ (u.tr t).parent = none ∧ (u.tr p).children = [⟨t, some (s.reg t 1)⟩])

/-- CHPUT stages words of a message, CHEND publishes it, CHGET reads it in order, CHPOLL tells what is there (R322, R355,
R356). -/
def Obligations.Channels : Prop :=
  ∀ s t gd ga gb, s.issues t → (s.reg t ga).toNat < 256 →
    let n := (s.reg t ga).toNat
    let c := s.chan (clusterOf t) n
    (c = {} → (s.tr t).staged = none → ∃ u, exec (.chput t gd ga gb) s = .next u ∧ u.reg t gd = 0
      ∧ (u.tr t).staged = some (n, [s.reg t gb]) ∧ (u.chan (clusterOf t) n).stagers = [t])
    ∧ (∀ ws, (s.tr t).staged = some (n, ws) → ws.length < 8 → ∃ u, exec (.chput t gd ga gb) s = .next u
      ∧ u.reg t gd = 0 ∧ (u.tr t).staged = some (n, ws ++ [s.reg t gb]))
    ∧ (∀ ws, (s.tr t).staged = some (n, ws) → s.released t = true → ∃ u, exec (.chend t gd ga) s = .next u
      ∧ u.reg t gd = 0 ∧ (u.tr t).staged = none ∧ (u.chan (clusterOf t) n).msgs = c.msgs ++ [⟨ws, 0, none⟩])
    ∧ (∀ w w2, c.msgs = [⟨[w, w2], 0, none⟩] → c.consumers = [] → ∃ u, exec (.chget t gd ga) s = .next u
      ∧ u.reg t gd = (if gd = 0 then 0 else w) ∧ (u.chan (clusterOf t) n).msgs = [⟨[w2], 1, some t⟩])
    ∧ (c.msgs = [] → c.consumers = [] → ∃ u, exec (.chget t gd ga) s = .next u ∧ (u.tr t).wait = .chget gd n
      ∧ (u.chan (clusterOf t) n).consumers = [t])
    ∧ (c = {} → completes s (.chpoll t gd ga) t gd 0x400)

/-- ORDER_ENTER enters when every earlier packet of the domain has passed the section, and waits else; ORDER_EXIT passes it;
RETIRE hands the journal to the pending store and frees the thread (R208, R209, R219-R221, R319). -/
def Obligations.OrderedSectionsAndRetire : Prop :=
  ∀ s t p, s.issues t → (s.tr t).parent = none → (s.tr t).cur = some p →
    (∀ n : BitVec 2, (s.tr t).run.held = [] → s.mayEnter p n.toNat = true → ∃ u, exec (.orderEnter t n) s = .next u
      ∧ (u.tr t).run.held = [n.toNat] ∧ (u.thr t).pc = (s.thr t).pc + 4)
    ∧ (∀ n : BitVec 2, (s.tr t).run.held = [] → s.mayEnter p n.toNat = false →
      Claims.waits s (.orderEnter t n) t (.orderEnter n.toNat))
    ∧ (∀ n : BitVec 2, (s.tr t).run.held = [n.toNat] → ∃ u, exec (.orderExit t n) s = .next u
      ∧ (u.tr t).run.held = [] ∧ n.toNat ∈ (u.tr t).run.passed ∧ (u.thr t).pc = (s.thr t).pc + 4)
    ∧ (∀ r : BitVec 2, r ≠ 3 → (s.tr t).children = [] → s.released t = true → (s.pkt p).refusal = none →
      s.order.pend = [] → (s.tr t).run.used ≤ 128 → (s.tr t).next = none →
      ∃ u, exec (.retire t r) s = .next u ∧ (u.tr t).cur = none ∧ (u.pkt p).st = .pending
        ∧ u.order.pend = [⟨p, { (s.tr t).run with held := [] }, r.toNat, false, none⟩])

/-! ### Helpers -/

/-- The one's complement sum of 16-bit words held in a number: end-around carry until it fits (R336). -/
def Claims.endAround (n : Nat) : Nat :=
  let a := n % 65536 + n / 65536
  let b := a % 65536 + a / 65536
  b % 65536 + b / 65536

/-- CSUM, CSUMADJ, CRC, HMIX, TPLZ and HRANGE of an enabled unit that is idle: gd as R336-R338 compute it; a disabled unit
refuses with reason 2 (R333). -/
def Obligations.ShortHelpers : Prop :=
  ∀ s t gd ga gb, s.issues t →
    let a := s.reg t ga
    let b := s.reg t gb
    (s.helperOff t 0 = false → s.unitBusy t 0 = false →
      completes s (.csum t gd ga gb) t gd (BitVec.ofNat 64 (Claims.endAround (a.toNat % 2 ^ 32 + Claims.bits b 48 16
        + Claims.bits b 32 16 + Claims.bits b 16 16 + Claims.bits b 0 16)))
      ∧ completes s (.csumadj t gd ga gb) t gd (BitVec.ofNat 64 (65535 - Claims.endAround ((65535 - Claims.bits a 0 16)
        + (65535 - Claims.bits b 16 16) + Claims.bits b 0 16)))
      ∧ (∀ size ieee, completes s (.crc t gd ga gb size ieee) t gd (crcVal a b (2 ^ size.toNat) ieee)))
    ∧ (s.helperOff t 2 = false → s.unitBusy t 2 = false →
      (completes s (.hmix t gd ga gb) t gd
        (let x := a ^^^ (b * 0x9E3779B97F4A7C15)
         let y := (x ^^^ (x >>> 29)) * 0xB4F162D5A39E0C7B
         y ^^^ (y >>> 32)))
      ∧ completes s (.hrange t gd ga gb) t gd (BitVec.ofNat 64 (Claims.bits a 0 32 * Claims.bits b 0 32 / 2 ^ 32))
      ∧ (Claims.bits b 10 54 = 0 → Claims.bits b 4 6 ≤ 52 →
        completes s (.tplz t gd ga gb) t gd (s.tplzVal (s.reg t gd) a b)))
    ∧ (s.helperOff t 0 = true → (s.thr t).handler = false → s.vector t 2 ≠ 0 →
      ∃ u, exec (.csum t gd ga gb) s = .next u ∧ Claims.entersHandler s u t 2 0x200 0)

/-- The operands of a long operation over thread scratch: count in g26, source in g24, and destination in g25 (R331). -/
def Claims.longOver (s : State) (t : Nat) : Prop :=
  0 < (s.reg t 26).toNat ∧ (s.reg t 26).toNat ≤ 10240 ∧ 0x4000 ≤ (s.reg t 24).toNat
    ∧ (s.reg t 24).toNat + (s.reg t 26).toNat ≤ 0x8000 ∧ (s.scr (s.owner t)).poison = [] ∧ (s.curPkt t).isSome = true

/-- The bytes a long operation reads. -/
def Claims.longBytes (s : State) (t : Nat) : List Byte := Claims.scratchRun s t (s.reg t 24).toNat (s.reg t 26).toNat

/-- CSUMM and CRCM start in an idle, enabled unit 0; when the unit is done gd holds what R336 and R337 compute over the
bytes, g24 has moved past them and g26 is 0 (R331). The crypto operations start where their checks pass, and GCM_FINAL
writes the tag (R341-R344). -/
def Obligations.LongHelpers : Prop :=
  (∀ s t gd ga, s.issues t → Claims.longOver s t →
    (s.helperOff t 0 = false → s.unitBusy t 0 = false →
      Claims.waits s (.csumm t gd ga) t (.long 0 gd ga .csumm)
      ∧ ∀ ieee, Claims.waits s (.crcm t gd ga ieee) t (.long 0 gd ga (.crcm ieee)))
    ∧ (s.cryptoBad t gd ga = none → s.unitBusy t (3 + s.cryptoUnit t ga) = false →
      (s.reg t 25).toNat = (s.reg t 24).toNat →
      Claims.waits s (.gctrEnc t gd ga) t
        (.long (3 + s.cryptoUnit t ga) gd ga (.gctr true (s.cryptoKey t ga).alg (s.cryptoKey t ga).key))
      ∧ Claims.waits s (.gctrDec t gd ga) t
        (.long (3 + s.cryptoUnit t ga) gd ga (.gctr false (s.cryptoKey t ga).alg (s.cryptoKey t ga).key))
      ∧ Claims.waits s (.ghashAad t gd ga) t
        (.long (3 + s.cryptoUnit t ga) gd ga (.ghash (s.cryptoKey t ga).alg (s.cryptoKey t ga).key))
      ∧ ∀ gb, ∃ u, exec (.gcmFinal t gd ga gb) s = .next u ∧ u.pair t (gd + 2) = gcmTag (s.cryptoKey t ga).alg
        (s.cryptoKey t ga).key (s.pair t gd) (s.pair t (gd + 2)) (Claims.bits (s.reg t gb) 0 32)
        (Claims.bits (s.reg t gb) 32 32)))
  ∧ (∀ s t gd ga, Claims.longOver s t → (s.tr t).halted = none → (s.tr t).stepLeft = none → (s.tr t).lkps = [] →
    gd ∉ [0, 24, 25, 26] →
    ((s.tr t).wait = .long 0 gd ga .csumm → ∃ u, exec (.longOpDone t) s = .next u ∧ (u.tr t).wait = .none
      ∧ u.reg t gd = BitVec.ofNat 64 (foldSum (Claims.bits (s.reg t ga) 0 32 + pairSum (Claims.longBytes s t)))
      ∧ u.reg t 24 = s.reg t 24 + s.reg t 26 ∧ u.reg t 26 = 0 ∧ (u.thr t).pc = (s.thr t).pc + 4)
    ∧ (∀ ieee, (s.tr t).wait = .long 0 gd ga (.crcm ieee) → ∃ u, exec (.longOpDone t) s = .next u ∧ (u.tr t).wait = .none
      ∧ u.reg t gd = (crcBytes (crcPoly ieee) ((s.reg t ga).extractLsb' 0 32) (Claims.longBytes s t)).setWidth 64
      ∧ u.reg t 26 = 0))

/-! ### Strings and REP -/

/-- The operands of a string instruction over thread scratch that starts now, with room for its stores: aligned, at least one
granule, a whole number of them (R306). -/
def Claims.stringOver (s : State) (t n : Nat) : Prop :=
  (s.reg t 24).toNat % n = 0 ∧ (s.reg t 25).toNat % n = 0 ∧ (s.reg t 26).toNat % n = 0 ∧ 0 < (s.reg t 26).toNat
    ∧ 0x4000 ≤ (s.reg t 24).toNat ∧ (s.reg t 24).toNat + (s.reg t 26).toNat ≤ 0x8000
    ∧ 0x4000 ≤ (s.reg t 25).toNat ∧ (s.reg t 25).toNat + (s.reg t 26).toNat ≤ 0x8000
    ∧ (s.scr (s.owner t)).poison = [] ∧ (s.tr t).str = none ∧ (s.tr t).gran = [] ∧ (s.tr t).sb = [] ∧ s.sbRoom t = true

/-- PC after a granule: it stays at the instruction until the count is used up (R304). -/
def Claims.stringPc (s : State) (t n : Nat) : W64 :=
  if (s.reg t 26).toNat = n then (s.thr t).pc + 4 else (s.thr t).pc

/-- One granule of BCOPY, BFILL, BCMP and BFIND in thread scratch, as the pseudocode of R305 says.

REP of ADDI gd, gd, 1 with an immediate count adds COUNT + 1; with a count register it repeats at most 64 times, counts
the register down and leaves past the repeated instruction; an interruptible one does one element at a time (R301-R303). -/
def Obligations.StringsAndRepetition : Prop :=
  (∀ s t (size : BitVec 2), s.issues t →
     let n := 2 ^ size.toNat
     let src := (s.reg t 24).toNat
     let dst := (s.reg t 25).toNat
     Claims.stringOver s t n →
     (¬ (src < dst ∧ dst < src + (s.reg t 26).toNat) → ∃ u, exec (.bcopy t size) s = .next u
       ∧ Claims.scratchRun u t dst n = Claims.scratchRun s t src n ∧ u.reg t 24 = s.reg t 24 + BitVec.ofNat 64 n
       ∧ u.reg t 25 = s.reg t 25 + BitVec.ofNat 64 n ∧ u.reg t 26 = s.reg t 26 - BitVec.ofNat 64 n
       ∧ (u.thr t).pc = Claims.stringPc s t n)
     ∧ (src < dst → dst < src + (s.reg t 26).toNat → ∃ u, exec (.bcopy t size) s = .next u
       ∧ Claims.scratchRun u t (dst + (s.reg t 26).toNat - n) n = Claims.scratchRun s t (src + (s.reg t 26).toNat - n) n
       ∧ u.reg t 24 = s.reg t 24 ∧ u.reg t 25 = s.reg t 25 ∧ u.reg t 26 = s.reg t 26 - BitVec.ofNat 64 n
       ∧ (u.thr t).pc = Claims.stringPc s t n)
     ∧ (∀ ga, ∃ u, exec (.bfill t size ga) s = .next u
       ∧ Claims.scratchRun u t dst n = (List.range n).map (fun k => (s.reg t ga >>> (8 * k)).setWidth 8)
       ∧ u.reg t 26 = s.reg t 26 - BitVec.ofNat 64 n ∧ (u.thr t).pc = Claims.stringPc s t n)
     ∧ (∀ gd, gd ∉ [0, 24, 25, 26] →
       (Claims.scratchVal s t src n < Claims.scratchVal s t dst n → ∃ u, exec (.bcmp t size gd) s = .next u
         ∧ u.reg t gd = 1 ∧ u.reg t 26 = s.reg t 26 ∧ (u.thr t).pc = (s.thr t).pc + 4)
       ∧ (Claims.scratchVal s t dst n < Claims.scratchVal s t src n → ∃ u, exec (.bcmp t size gd) s = .next u
         ∧ u.reg t gd = 2 ∧ (u.thr t).pc = (s.thr t).pc + 4)
       ∧ (Claims.scratchVal s t src n = Claims.scratchVal s t dst n → ∃ u, exec (.bcmp t size gd) s = .next u
         ∧ u.reg t gd = 0 ∧ u.reg t 26 = s.reg t 26 - BitVec.ofNat 64 n ∧ (u.thr t).pc = Claims.stringPc s t n))
     ∧ (∀ gd ga gb ne, gd ∉ [0, 24, 25, 26] → ga ≠ gd → gb ≠ gd →
       let m := (s.reg t gb).toNat % 256 ^ n
       let eq : Prop := Claims.scratchVal s t src n &&& m = (s.reg t ga).toNat % 256 ^ n &&& m
       ((ne = true ↔ ¬ eq) → ∃ u, exec (.bfind t size ne gd ga gb) s = .next u ∧ u.reg t gd = 1
         ∧ u.reg t 26 = s.reg t 26 ∧ (u.thr t).pc = (s.thr t).pc + 4)
       ∧ ((ne = true ↔ eq) → ∃ u, exec (.bfind t size ne gd ga gb) s = .next u ∧ u.reg t gd = 0
         ∧ u.reg t 24 = s.reg t 24 + BitVec.ofNat 64 n ∧ u.reg t 26 = s.reg t 26 - BitVec.ofNat 64 n
         ∧ (u.thr t).pc = Claims.stringPc s t n)))
  ∧ (∀ s t (count : BitVec 6) (gd ga : Reg), s.issues t → gd ≠ 0 → ga ≠ 0 → ga ≠ gd →
     let nxt := wordI 0x01 gd gd 1
     (∃ u, exec (.rep t (BitVec.ofNat 32 (0x27 * 0x4000000 + count.toNat)) nxt) s = .next u
       ∧ u.reg t gd = s.reg t gd + BitVec.ofNat 64 (count.toNat + 1) ∧ (u.thr t).pc = (s.thr t).pc + 8)
     ∧ (∃ u, exec (.rep t (BitVec.ofNat 32 (0x27 * 0x4000000 + 0x1000000 + ga.toNat * 0x10000)) nxt) s = .next u
       ∧ u.reg t gd = s.reg t gd + BitVec.ofNat 64 (Nat.min (s.reg t ga).toNat 64)
       ∧ u.reg t ga = s.reg t ga - BitVec.ofNat 64 (Nat.min (s.reg t ga).toNat 64)
       ∧ (u.thr t).pc = (s.thr t).pc + 8)
     ∧ (2 ≤ (s.reg t ga).toNat →
       ∃ u, exec (.rep t (BitVec.ofNat 32 (0x27 * 0x4000000 + 0x2000000 + 0x1000000 + ga.toNat * 0x10000)) nxt) s = .next u
         ∧ u.reg t gd = s.reg t gd + 1 ∧ u.reg t ga = s.reg t ga - 1 ∧ (u.thr t).pc = (s.thr t).pc))

/-! ### Caches -/

/-- The cache operations on a line of writable HBM that nothing else is doing to: CZERO installs it zeroed and dirty,
CCLEAN, CINVAL and CFLUSH are posted, CPREF requests a line that the core does not hold. On the thread-local view the first
four do nothing; CPREF completes at every address (R255, R270, R308). -/
def Obligations.CacheOperations : Prop :=
  ∀ s t all ga (imm : BitVec 16) no, s.issues t →
    (Claims.ea s t ga imm < 0x10000 →
      ∀ i ∈ [Instr.czero t all ga imm, .cclean t all ga imm, .cinval t all ga imm, .cflush t all ga imm],
        ∃ u, exec i s = .next u ∧ u.thr t = { s.thr t with pc := (s.thr t).pc + 4 } ∧ u.scratch = s.scratch
          ∧ (u.tr t).maint = (s.tr t).maint)
    ∧ (∃ u, exec (.cpref t all ga imm) s = .next u ∧ u.thr t = { s.thr t with pc := (s.thr t).pc + 4 }
        ∧ u.scratch = s.scratch)
    ∧ (Claims.ea s t ga imm / 64 = cachedBase / 64 + no → no < hbmSize / 64 →
      (∃ r, s.mem.region (Claims.ea s t ga imm - cachedBase) = some r ∧ r.right = 3) → (s.tr t).maint = [] → (s.tr t).sb = [] →
      (s.core (coreOf t)).wb = [] → (s.core (coreOf t)).mshr = [] → (s.core (coreOf t)).posted = [] →
      1 ≤ (s.core (coreOf t)).capMshr → 1 ≤ (s.core (coreOf t)).capWb →
      (∀ i ∈ [Instr.cclean t all ga imm, .cinval t all ga imm, .cflush t all ga imm],
        ∃ u, exec i s = .next u ∧ (u.tr t).maint = [no] ∧ u.thr t = { s.thr t with pc := (s.thr t).pc + 4 })
      ∧ ((s.core (coreOf t)).l1d = [] → ∃ u ln, exec (.czero t all ga imm) s = .next u
        ∧ (u.core (coreOf t)).line no = some ln ∧ ln.data = List.replicate 64 0 ∧ ln.dirty = BitVec.allOnes 64)
      ∧ ((s.core (coreOf t)).l1d = [] → (s.core (coreOf t)).pfRoom t = true →
        (∃ r, s.mem.region (64 * no) = some r ∧ r.right ≠ 0) → (s.l2Filling (clusterOf t)).length < 64 →
        ∃ u m, exec (.cpref t all ga imm) s = .next u ∧ (u.core (coreOf t)).mshr = [m] ∧ m.line = no ∧ m.t = t
          ∧ m.prefetch = true))

/-! ### What ends a thread's wait -/

/-- The wait ends with a value for its register, and the thread goes on after the instruction. -/
def Claims.wakes (s : State) (i : Instr) (t : Nat) (gd : Reg) (v : W64) : Prop :=
  ∃ u, exec i s = .next u ∧ (u.tr t).wait = .none ∧ u.reg t gd = (if gd = 0 then 0 else v)
    ∧ (u.thr t).pc = (s.thr t).pc + 4 ∧ ∀ r, r ≠ gd → u.reg t r = s.reg t r

/-- A thread that is neither halted nor stepping. -/
def Claims.running (s : State) (t : Nat) : Prop := (s.tr t).halted = none ∧ (s.tr t).stepLeft = none

/-- Every wake ends its wait when what the thread waits for has come: WAITEV and PARK by flags, PARK by its time at a
boundary of list 0's tick, JOIN, CHGET, CHPUT and ORDER_ENTER; an outstanding lookup completes (R220, R258, R310, R321, R355,
R356).

A delay entry that is due sets its flag at a boundary of its list's tick and leaves the list (R361). The watchdog of a
run that has used up its budget traps with WATCHDOG (R285). A thread that could issue and has not for 1,024 cycles is granted
(R251). The detector breaks the longest WAITEV of a cluster that could never go on by itself (R365). -/
def Obligations.WakesAndTimers : Prop :=
  (∀ s t gd, Claims.running s t →
     (∀ m : W32, m ≠ 0 → (s.tr t).wait = .waitev gd m false 0 → (s.thr t).evflags &&& m ≠ 0 →
       Claims.wakes s (.waitevWake t) t gd (((s.thr t).evflags &&& m).setWidth 64))
     ∧ (∀ m : W32, (s.tr t).wait = .park gd 0 m → (s.thr t).evflags &&& m ≠ 0 → Claims.wakes s (.parkWake t) t gd 1)
     ∧ (∀ w : W64, w ≠ 0 → (s.tr t).wait = .park gd w 0 → (s.cl (clusterOf t)).task.tick0 = 10 →
       w.toNat ≤ s.dt / 1024 * 1024 → (s.tr t).parkDt < s.dt / 1024 * 1024 →
       SMap.get 0 (s.cl (clusterOf t)).task.tickDt 0 < s.dt / 1024 * 1024 → Claims.wakes s (.parkWake t) t gd 2)
     ∧ (∀ h k v, 1 ≤ h → h ≤ 8 → (s.tr t).wait = .join gd h → s.child t (BitVec.ofNat 64 h) = some ⟨k, some v⟩ →
       Claims.wakes s (.joinWake t) t gd v)
     ∧ (∀ n w, (s.tr t).wait = .chget gd n → s.chan (clusterOf t) n = { msgs := [⟨[w], 0, none⟩], consumers := [t] } →
       Claims.wakes s (.chgetWake t) t gd w)
     ∧ (∀ n w, (s.tr t).wait = .chput gd n w → s.chan (clusterOf t) n = { producers := [t] } →
       Claims.wakes s (.chputReserveWake t) t gd 0)
     ∧ (∀ n p, (s.tr t).wait = .orderEnter n → s.curPkt t = some p → s.mayEnter p n = true →
       ∃ u, exec (.orderEnterWake t) s = .next u ∧ (u.tr t).wait = .none ∧ n ∈ (u.tr t).run.held
         ∧ (u.thr t).pc = (s.thr t).pc + 4)
     ∧ (∀ l, (s.tr t).lkps = [l] → s.tables.overlay = [] → ∃ u, exec (.lkpComplete t l.idx false) s = .next u
       ∧ (u.tr t).lkps = []))
  ∧ ((∀ s c e, (s.cl c).task.lists = [(0, [e])] → (s.cl c).task.tick0 = 10 → e.wake.toNat ≤ s.dt / 1024 * 1024 →
     e.born < s.dt / 1024 * 1024 → SMap.get 0 (s.cl c).task.tickDt 0 < s.dt / 1024 * 1024 →
     ∃ u, exec (.delayTick c 0) s = .next u ∧ (u.thr e.t).evflags = (s.thr e.t).evflags ||| BitVec.ofNat 32 (2 ^ e.flag.toNat)
       ∧ (u.cl c).task.lists = [])
   ∧ (∀ s t p, (s.tr t).cur = some p → (s.tr t).halted = none → (s.tr t).wdBudget ≤ (s.tr t).wdCount → (s.tr t).wait = .none →
     (s.tr t).wdGrace = false → (s.thr t).handler = false → s.vector t 7 ≠ 0 →
     ∃ u, exec (.watchdogExpiry t) s = .next u ∧ (u.tr t).wdGrace = true ∧ Claims.entersHandler s u t 7 0 0)
   ∧ (∀ s t, s.issuable t = true → 1024 ≤ (s.tr t).starve → ∃ u, exec (.starveGrant t) s = .next u
     ∧ (u.core (coreOf t)).starveGrants = (s.core (coreOf t)).starveGrants + 1 ∧ (u.tr t).starve = 0)
   ∧ (∀ s c d, (s.cl c).task.holdSince = some d → d + 1000 ≤ s.dt → (s.cl c).task.ready = true → s.detHolds c = true →
     ∃ u, exec (.deadlockDetect c) s = .next u ∧ (u.cl c).task.ready = false))

/-! ### The memory system's own steps -/

/-- A line fill installs the line from the L2 and gives the load that waits for it its value from HBM; an issued write-back
puts its dirty bytes in the L2; the oldest store of a thread leaves the store buffer for its line, whose bytes and dirty bits
it changes; a posted cache operation completes (R265-R273). -/
def Obligations.MemorySystemSteps : Prop :=
  (∀ s c m, c < 192 → (s.core c).mshr = [m] → m.dropped = false → m.ops = [] → (s.core c).l1d = [] → (s.core c).wb = [] →
    (∀ t ∈ coreThreads c, (s.tr t).wait = .none) →
    ∃ u, exec (.lineFill c m.line false) s = .next u ∧ (u.core c).mshr = [] ∧ ∃ ln, (u.core c).line m.line = some ln
      ∧ (s.l2Has (clusterOfCore c) m.line = false → ln.data = s.mem.read (64 * m.line) 64 ∧ ln.dirty = 0))
  ∧ (∀ s c m t gd k addr, c < 192 → (s.core c).mshr = [m] → m.dropped = false → m.ops = [] → (s.core c).l1d = [] →
    (s.core c).wb = [] → t ∈ coreThreads c → (∀ u ∈ coreThreads c, u ≠ t → (s.tr u).wait = .none) →
    (s.tr t).wait = .fill gd k addr → addr / 64 = m.line → (s.tr t).sb = [] → Claims.running s t →
    s.l2Has (clusterOfCore c) m.line = false → s.mem.poisoned (64 * m.line) 64 = false →
    ∃ u, exec (.lineFill c m.line false) s = .next u ∧ (u.tr t).wait = .none ∧ (u.thr t).pc = (s.thr t).pc + 4
      ∧ u.reg t gd = (if gd = 0 then 0 else k.value (slice (s.mem.read (64 * m.line) 64) (addr % 64) k.size)))
  ∧ (∀ s c e, (s.core c).wb = [e] → e.issued = true → (s.core c).l1d = [] →
    ∃ u, exec (.writebackAck c e.ln.no) s = .next u ∧ (u.core c).wb = []
      ∧ ∃ w ln, (u.cl (clusterOfCore c)).l2.way e.ln.no 16 = some w
        ∧ SMap.get none (u.cl (clusterOfCore c)).l2.lines (e.ln.no % 4096 * 16 + w) = some ln
        ∧ ∀ k, k < 64 → e.ln.dirty.getLsbD k = true → ln.data.getD k 0 = e.ln.data.getD k 0 ∧ ln.dirty.getLsbD k = true)
  ∧ (∀ s t e rest ln, (s.tr t).sb = e :: rest → (s.core (coreOf t)).line (e.addr / 64) = some ln →
    (s.core (coreOf t)).wb = [] → ∃ u, exec (.storeBufferDrain t) s = .next u ∧ (u.tr t).sb = rest
      ∧ (u.core (coreOf t)).line (e.addr / 64) = some { ln with
        data := splice ln.data (e.addr % 64) e.bytes, dirty := ln.dirty ||| byteMask (e.addr % 64) e.bytes.length })
  ∧ (∀ s t no rest, (s.tr t).maint = no :: rest → (s.core (coreOf t)).mshr = [] →
    ∃ u, exec (.cacheMaintDone t) s = .next u ∧ (u.tr t).maint = rest)

/-! ### Locks -/

/-- The requester of a lock command. -/
def Claims.who : LockReq → Requester
  | .thread t _ => .thread t
  | .pumphouse => .pumphouse
  | .host f => .host f

/-- A free lock is granted to a requester that has the right, with GEN raised by 1; a held one is waited for in turn by an
acquire and answered at once by a try; the holder's release passes it to the first waiter; CLEAR takes the ABANDONED mark
away; a wait that has timed out is answered TIMEOUT (R345-R352). -/
def Obligations.LocksPassInTurn : Prop :=
  (∀ s k (i : Instr), i = .lockAcquire .pumphouse k ∨ i = .lockTry .pumphouse k → s.lockRight .pumphouse k = true →
    (s.lock k).holder = none → ∃ u, exec i s = .next u ∧ (u.lock k).holder = some .pumphouse
      ∧ (u.lock k).gen = (s.lock k).gen + 1)
  ∧ (∀ s k t gd (i : Instr), i = .lockAcquire (.thread t gd) k ∨ i = .lockTry (.thread t gd) k → s.issues t →
    s.lockRight (.thread t) k = true → (s.lock k).holder = none → ∃ u, exec i s = .next u
      ∧ (u.lock k).holder = some (.thread t) ∧ (u.lock k).gen = (s.lock k).gen + 1
      ∧ (u.reg t gd).getLsbD 0 = (gd != 0) ∧ (u.thr t).pc = (s.thr t).pc + 4)
  ∧ (∀ s k t gd r, s.issues t → s.lockRight (.thread t) k = true → (s.lock k).holder = some r → r ≠ .thread t →
    s.lockWaiters < 2048 → ∃ u, exec (.lockAcquire (.thread t gd) k) s = .next u ∧ (u.tr t).wait = .lock k
      ∧ (u.lock k).holder = some r ∧ (u.lock k).waiters.map (·.who) = (s.lock k).waiters.map (·.who) ++ [.thread t])
  ∧ (∀ s k, s.lockRight .pumphouse k = true → (s.lock k).holder = some .pumphouse → (s.lock k).waiters = [] →
    (∃ u, exec (.lockRelease .pumphouse k) s = .next u ∧ (u.lock k).holder = none ∧ (u.lock k).gen = (s.lock k).gen)
    ∧ (∃ u, exec (.lockClear .pumphouse k) s = .next u ∧ (u.lock k).abandoned = false
      ∧ (u.lock k).holder = some .pumphouse))
  ∧ (∀ s k w rest, s.lockRight .pumphouse k = true → (s.lock k).holder = some .pumphouse → (s.lock k).waiters = w :: rest →
    ∃ u, exec (.lockRelease .pumphouse k) s = .next u ∧ (u.lock k).holder = some w.who
      ∧ (u.lock k).gen = (s.lock k).gen + 1 ∧ (u.lock k).waiters = rest)
  ∧ (∀ s k w t, (s.lock k).waiters = [w] → w.who = .thread t → w.joined + w.timeout ≤ s.time.cycles → Claims.running s t →
    w.net = false → w.gd ≠ 0 → ∃ u, exec (.lockWaitTimeout k) s = .next u ∧ (u.lock k).waiters = []
      ∧ (u.tr t).wait = .none ∧ (u.reg t w.gd).getLsbD 0 = false ∧ (u.reg t w.gd).getLsbD 2 = true)

/-- A load from the buffer port gives a provisional chain of `n` cells of the run with HELD 1, or answers STATE, LIMIT, QUOTA or
NO_BUFFER and gives none (R156, R159, R160). An awaited packet that has no thread is given the CURRENT slot of the youngest
waiter, whose own packet returns to the list (R226). A journal that waits for room enters the pending store when it finds
room, and its RETIRE completes (R209). -/
def Obligations.PortLoadsYieldsAndStoreRoom : Prop :=
  (∀ s t gd n, s.issues t → 1 ≤ n → n ≤ 40 →
    let stopped := (s.cl (clusterOf t)).st = .draining ∨ (s.core (coreOf t)).retiring ≠ none ∨ (s.core (coreOf t)).retired = true
    let full := 16 ≤ (s.tr (s.owner t)).run.bufs.length
    (stopped → completes s (.bufferPortLoad t gd n) t gd 0x8FFFFFFFF)
    ∧ (¬ stopped → full → completes s (.bufferPortLoad t gd n) t gd 0x6FFFFFFFF)
    ∧ (∀ v r g, ¬ stopped → ¬ full → (s.fetchLine t).allocCells 16 [entCluster (clusterOf t)] n [] = (v, r, g) →
      (r = none → ∃ u, exec (.bufferPortLoad t gd n) s = .next u ∧ u.basin = v.basin
        ∧ u.reg t gd = (if gd = 0 then 0 else if g = .quota then 0x2FFFFFFFF else 0x4FFFFFFFF)
        ∧ (u.thr t).pc = (s.thr t).pc + 4)
      ∧ (∀ cells, r = some cells → ∃ u h, exec (.bufferPortLoad t gd n) s = .next u ∧ cells.head? = some h ∧ cells.length = n
        ∧ u.reg t gd = (if gd = 0 then 0 else BitVec.ofNat 64 (h + 2 ^ 32)) ∧ (u.thr t).pc = (s.thr t).pc + 4
        ∧ (u.tr (s.owner t)).run.bufs = (s.tr (s.owner t)).run.bufs ++ [h]
        ∧ ∃ b, u.buf h = some b ∧ b.cells = cells ∧ b.prov = s.curPkt t ∧ b.cls = 3 ∧ b.held = true ∧ b.count = 0)))
  ∧ (∀ (s : State) d a y t, s.yieldPair d = some (a, y, t) → a ≠ y → (s.pkt y).refusal = none →
    ∃ u, exec (.orderYield d) s = .next u ∧ (u.tr t).cur = some a ∧ (u.pkt a).st = .run t ∧ (∀ r, u.reg t r = 0)
      ∧ (u.pkt y).st = .listed ∧ u.order.cnt.orderYield = s.order.cnt.orderYield + 1)
  ∧ (∀ (s : State) d a y t n, s.domPkts d = [a, y] → seqBefore (s.pkt a).seq (s.pkt y).seq = true → (s.pkt a).st = .listed →
    (s.pkt a).refusal = none → (s.rc a).heldFrag = false → (s.rc a).listDt + 100 ≤ s.dt → (s.pkt y).st = .run t →
    (s.tr t).wait = .orderEnter n → (s.tr t).halted = none → (s.tr t).enterDt + 100 ≤ s.dt → s.order.fence = none →
    s.yieldPair d = some (a, y, t))
  ∧ (∀ s w rest r, s.order.storeWait = w :: rest → s.storeRoom w.pkt w.run.used = some r →
    (∀ t, w.thread = some t → (s.tr t).halted = none) → ∃ u, exec .pendingStoreRoom s = .next u
      ∧ u.order.storeWait = rest.filter (fun x => x.pkt ≠ w.pkt) ∧ (u.pkt w.pkt).st = .pending
      ∧ u.order.pend = s.order.pend ++ [⟨w.pkt, w.run, w.reason, r, w.forced⟩])

/-! ### HBM -/

/-- A request of one piece enters the empty queue of the pseudo-channel that holds its address; an access outside every region,
or to one that its port may not reach, is a stray one: a read of it gives ones (R451, R452, R460).

The request of one piece that a pseudo-channel chooses acts: a read answers its port with the bytes and the mark, and a
write puts its bytes at its address and leaves every other byte (R451, R460, R467). -/
def Obligations.HbmRequestsAndIssues : Prop :=
  (∀ s port addr len write data, port ≤ 15 → len ∈ [32, 64, 128, 256] → addr % len = 0 → addr < hbmSize →
     (s.stack 0).mode ≠ .training → (write = true → data.length = len) →
     (∀ r pc a, s.mem.region addr = some r → hbmAllowed port r.use = true → s.hbmPlace addr = some (pc, a) →
       (s.pc pc).queue = [] → (s.pc pc).waiting = [] → ∃ u, exec (.hbmRequest port addr len write data) s = .next u
         ∧ (u.pc pc).queue = [⟨port, [(addr, len)], write, if write then data else [], s.iv⟩] ∧ u.mem = s.mem)
     ∧ ((∀ r, s.mem.region addr = some r → hbmAllowed port r.use = false) → ∃ u, exec (.hbmRequest port addr len write data) s = .next u
       ∧ u.hbm.stray = s.hbm.stray + 1 ∧ u.mem = s.mem
       ∧ (write = false → SMap.get [] u.hbm.answers port = [(addr, List.replicate len 0xFF, false)])))
  ∧ (∀ s pc r a n, s.pcRuns pc = true → (∀ e ∈ (s.pc pc).banks, e.2.forced = false) → s.chooseReq pc = some r →
     r.pieces = [(a, n)] →
     (r.write = false → ∃ u, exec (.hbmIssue pc .none) s = .next u ∧ u.mem = s.mem
       ∧ (a, s.mem.read a n, s.mem.poisoned a n) ∈ SMap.get [] u.hbm.answers r.port
       ∧ SMap.get 0 u.hbm.portReqs r.port = SMap.get 0 s.hbm.portReqs r.port + 1)
     ∧ (r.write = true → r.data.length = n → ∃ u, exec (.hbmIssue pc .none) s = .next u
       ∧ (∀ k, k < n → u.mem.byte (a + k) = r.data.getD k 0)
       ∧ (∀ x, x < a ∨ a + n ≤ x → u.mem.byte x = s.mem.byte x)))

/-- The controllers' own steps: an idle row is closed; a refresh is done in a gap, postponed, or forced after eight; a
temperature is kept, and marks its stack hot from 95 °C to below 90 °C; an idle pseudo-channel powers down and an idle stack
enters self-refresh; the patrol scrub reads the next unit and changes no byte; timing is tracked, and trained again after
15 °C, which closes the rows and sets every predictor to 2 (R458, R464, R465, R468, R469, R538). -/
def Obligations.HbmUpkeep : Prop :=
  (∀ s pc b, ((s.pc pc).bank b).isOpen = true → ((s.pc pc).bank b).lastNs + s.hbm.rowTimeout ≤ s.iv →
    ∃ u, exec (.rowTimeout pc b) s = .next u ∧ ((u.pc pc).bank b).isOpen = false)
  ∧ (∀ s pc b, pc < 64 → b < 64 → (s.stack (stackOf pc)).mode = .active → pc ∉ s.hbm.retired →
    (∃ u, exec (.refreshDue pc b true) s = .next u ∧ ((u.pc pc).bank b).postponed = 0
      ∧ ((u.pc pc).bank b).isOpen = false)
    ∧ (((s.pc pc).bank b).postponed < 8 → ∃ u, exec (.refreshDue pc b false) s = .next u
      ∧ ((u.pc pc).bank b).postponed = ((s.pc pc).bank b).postponed + 1)
    ∧ (((s.pc pc).bank b).postponed = 8 → ∃ u, exec (.refreshDue pc b false) s = .next u
      ∧ ((u.pc pc).bank b).forced = true))
  ∧ (∀ s k temp, k ≤ 1 → temp ≤ 255 → ∃ u, exec (.hbmTempRead k temp) s = .next u ∧ (u.stack k).temp = temp
    ∧ (95 ≤ temp → (u.stack k).hot = true) ∧ (temp < 90 → (u.stack k).hot = false))
  ∧ (∀ s pc, s.pcRuns pc = true → (s.pc pc).queue = [] → (s.pc pc).idleNs + 200 ≤ s.iv →
    ∃ u, exec (.pcPowerDown pc) s = .next u ∧ (u.pc pc).asleep = true)
  ∧ (∀ s k, k ≤ 1 → (s.stack k).mode = .active → s.selfRefreshAllowed = true →
    (∀ p, p / 32 = k → (s.pc p).queue = [] ∧ (s.pc p).idleNs + 10000 ≤ s.iv) →
    (∀ d ∈ s.stackEvents k, d < s.dt ∨ s.dt + 2000 ≤ d) →
    ∃ u, exec (.stackSelfRefresh k) s = .next u ∧ (u.stack k).mode = .selfRefresh)
  ∧ (∀ s pc, s.pcRuns pc = true → (s.stack (stackOf pc)).hot = false → (s.pc pc).scrubNext + 1 < 67108864 →
    (s.pc pc).scrubNext * (s.hbm.scrubHours * 3600000000000) ≤ (s.dt - (s.pc pc).scrubDt) * 67108864 →
    ∃ u, exec (.patrolScrub pc .none) s = .next u ∧ (u.pc pc).scrubNext = (s.pc pc).scrubNext + 1 ∧ u.mem = s.mem)
  ∧ (∀ s pc, s.pcRuns pc = true → (s.pc pc).trackNs + 64000000 ≤ s.iv →
    ∃ u, exec (.timingTrack pc) s = .next u ∧ (u.pc pc).trackNs = s.iv)
  ∧ (∀ s pc, s.pcRuns pc = true → (s.pc pc).trainTemp + 15 ≤ (s.stack (stackOf pc)).temp →
    ∃ u, exec (.tempRetrain pc) s = .next u ∧ (u.pc pc).trainTemp = (s.stack (stackOf pc)).temp
      ∧ ∀ b, ((u.pc pc).bank b).p = 2 ∧ ((u.pc pc).bank b).isOpen = false)

/-! ### Commands of a host -/

/-- The command completes with OK and no result: it leaves `u`, of which `P` tells the effect, and its answer. -/
def Claims.answersOk (s : State) (i : Instr) (c : CmdRef) (P : State → Prop) : Prop :=
  ∃ u, exec i s = .next (u.answer c .ok) ∧ P u

/-- The command goes on in the background: it leaves `u`, of which `P` tells the effect, and its mark in the journal. -/
def Claims.goesOn (s : State) (i : Instr) (c : CmdRef) (P : State → Prop) : Prop :=
  ∃ u, exec i s = .next (u.answer c .later) ∧ P u

/-- The command is answered OK with these bytes (BAD_ARG where its output buffer is too short for them), and changes nothing
else. -/
def Claims.answersData (s : State) (i : Instr) (c : CmdRef) (bs : List Byte) : Prop :=
  exec i s = .next (s.answer c (.data bs))

/-- The command is answered with this status and changes nothing else. -/
def Claims.refusedWith (s : State) (i : Instr) (c : CmdRef) (status : Nat) : Prop :=
  exec i s = .next (s.answer c (.status status))

/-- The HBM commands: a LAYOUT that differs and fits, CREATE and DESTROY of a customer region, QoS, scrub settings, a soft
repair, the start of a retirement, and the images they read (R454, R455, R459, R463, R468, R470, R471, R474).

A retirement frees 2 GiB once no block is in the way and copies granule by granule; the last one takes the
pseudo-channel out of service; a drain that outlasts RETIRE_WAIT is given up (R471). -/
def Obligations.HbmCommandsAndRetirement : Prop :=
  (∀ (s : State) (c : CmdRef),
     (∀ em im gl le ci, s.accepts c 0x0C00 [(1, 0), (1, 0), (1, 0), (1, 0), (4, em), (4, im), (4, gl), (4, le), (4, ci)] →
       (∀ n ∈ [em, im, gl, le, ci], n % 64 = 0) → em ≤ 32768 → 64 ≤ im → im ≤ 1024 → gl ≤ 65536 → 2048 ≤ le → le ≤ 65536 →
       8192 ≤ ci → ci ≤ 65536 → ci % 1024 = 0 → partitionOf (em * mib) (im * mib) (gl * mib) (le * mib) (ci * mib) ≠ s.mem.regions →
       s.layoutFree = true → 4294967296 + 67108864 + 1073741824 + (em + im + gl + le + ci) * 1048576 ≤ hbmSize →
       Claims.answersOk s (.hbmPartition c 0 0 0 0 [em, im, gl, le, ci]) c fun u => u.cistern.sizeGib = ci / 1024
         ∧ u.mem.regions = partitionOf (em * mib) (im * mib) (gl * mib) (le * mib) (ci * mib)
         ∧ u = { s with mem := u.mem, cistern := u.cistern })
     ∧ (∀ id ord right n, s.accepts c 0x0C00 [(1, 1), (1, id), (1, ord), (1, right), (4, n)] → 1 ≤ id → id ≤ 5 → ord ≤ 3 →
       right ≤ 3 → 1 ≤ n → n % 64 = 0 → (∀ x ∈ s.mem.regions, x.use ≠ 8 + id) →
       let top := s.regionAddr 6 0 + s.cistern.sizeGib * 1073741824 + (s.hbm.pools.map Prod.snd).sum
       let low := ((s.mem.regions.filter fun x => top ≤ x.base).map (·.base)).foldl Nat.min hbmSize
       top + n * 1048576 ≤ low → Claims.answersOk s (.hbmPartition c 1 id ord right [n]) c fun u =>
         u.mem.regions = s.mem.regions ++ [⟨8 + id, low - n * 1048576, n * 1048576, ord, right⟩]
           ∧ u.mem.cells = s.mem.cells)
     ∧ (∀ id r, s.accepts c 0x0C00 [(1, 2), (1, id), (1, 0), (1, 0)] → 1 ≤ id → id ≤ 5 →
       (s.mem.regions.find? fun x => x.use = 8 + id) = some r → (∀ x ∈ s.mem.regions, 8 ≤ x.use → r.base ≤ x.base) →
       Claims.answersOk s (.hbmPartition c 2 id 0 0 []) c fun u => (∀ x ∈ u.mem.regions, x.use ≠ 8 + id)
         ∧ (∀ a, r.base ≤ a → a < r.base + r.size → u.mem.byte a = 0)
         ∧ (∀ a, a < r.base ∨ r.base + r.size ≤ a → u.mem.byte a = s.mem.byte a))
     ∧ (s.accepts c 0x0C01 [] → Claims.answersData s (.hbmPartitionRead c) c s.partitionImage)
     ∧ (∀ port prio target rt, s.accepts c 0x0C02 [(1, port), (1, prio), (4, target), (2, rt)] → port ≤ 15 → prio ≤ 7 →
       (target = 0 ∨ (100 ≤ target ∧ target ≤ 1000000)) → 30 ≤ rt → rt ≤ 1000 →
       Claims.answersOk s (.hbmQosSet c port prio target rt) c fun u => u.hbmPort port = ⟨prio, target⟩
         ∧ u.hbm.rowTimeout = rt ∧ (∀ p, p ≠ port → u.hbmPort p = s.hbmPort p) ∧ u = { s with hbm := u.hbm })
     ∧ (∀ h w, s.accepts c 0x0C03 [(1, h), (4, w)] → 1 ≤ h → h ≤ 168 → 10 ≤ w → w ≤ 60000 →
       Claims.answersOk s (.hbmScrubConfig c h w) c fun u => u = { s with hbm := { s.hbm with
         scrubHours := h, retireWaitMs := w } })
     ∧ (∀ pc sid bank row sp, s.accepts c 0x0C04 [(1, pc), (1, sid), (1, bank), (1, 0), (2, row)] → pc ≤ 63 → sid ≤ 3 →
       bank ≤ 15 → row ≤ 32767 → s.hbm.soft = [] →
       Claims.answersOk s (.hbmRepair c pc sid bank 0 row sp) c fun u =>
         u.hbm.soft = [pc * 2097152 + (sid * 16 + bank) * 32768 + row] ∧ u = { s with hbm := u.hbm })
     ∧ (∀ pc, s.accepts c 0x0C05 [(1, pc)] → pc ≤ 63 → pc ∉ s.hbm.retired → s.hbm.migration = none →
       s.hbm.retired.length < 4 → 10 ≤ s.cistern.sizeGib → s.cistern.shrinking = false →
       Claims.goesOn s (.hbmPcRetire c pc) c fun u => u.hbm.migration = some ⟨pc, c, s.iv,
         s.cistern.sizeGib, none⟩ ∧ u.cistern.shrinking = true ∧ pc ∈ u.cistern.fencedPcs)
     ∧ (s.accepts c 0x0C06 [] → Claims.answersData s (.hbmStats c) c s.hbmImage))
  ∧ (∀ (s : State) m, s.hbm.migration = some m → s.dci.st = .ready →
     (m.todo = none → s.cistern.shrinking = true → s.cistern.usedBlocks = [] → ∃ u w, exec .retireDrainDone s = .next u
       ∧ u.hbm.migration = some { m with todo := some w } ∧ u.cistern.sizeGib = m.oldGib - 2
       ∧ u.cistern.shrinking = false ∧ u.hbm.pools.length = s.hbm.pools.length + 1)
     ∧ (m.todo = none → m.startNs + 1000000 * s.hbm.retireWaitMs ≤ s.iv → ∃ u : State,
       exec .retireWaitExpiry s = .next (u.answer m.c (.status 9)) ∧ u.hbm.migration = none
         ∧ u.cistern.sizeGib = m.oldGib ∧ u.cistern.shrinking = false ∧ m.pc ∉ u.cistern.fencedPcs)
     ∧ (∀ w g rest, m.todo = some [w] → s.spareGranules m.pc = g :: rest → ∃ u : State,
       exec .granuleCopyDone s = .next (u.answer m.c .ok) ∧ u.hbm.migration = none ∧ m.pc ∈ u.hbm.retired
         ∧ SMap.get 0 u.hbm.redirects w = g + 1)
     ∧ (∀ w w1 rest g gs, m.todo = some (w :: w1 :: rest) → s.spareGranules m.pc = g :: gs → ∃ u,
       exec .granuleCopyDone s = .next u ∧ u.hbm.migration = some { m with todo := some (w1 :: rest) }
         ∧ SMap.get 0 u.hbm.redirects w = g + 1))

/-! ### Tables -/

/-- A TBL_CMD image: an operation on a table with KLEN key words and DLEN data words at an index (R394). -/
def Claims.image (w : W64) (tbl klen dlen index : Nat) : Prop :=
  Claims.bits w 4 12 = tbl ∧ Claims.bits w 16 4 = klen ∧ Claims.bits w 20 4 = dlen ∧ Claims.bits w 24 28 = index

/-- A write of TBL_CMD to an idle set starts the command; a write while one runs is LOST (R394, R395). The Pumphouse's
changes of an L2 table and of a counter take effect, and its reads and those of the others give the data words when they
are done (R370, R389, R396). -/
def Obligations.TableCommandRegisters : Prop :=
  (∀ (s : State) r w, let x := s.tset r
    let rows := [Instr.tblInsert r w, .tblUpdate r w, .tblDelete r w, .tblLookup r w, .tblReadIndex r w, .tblWriteIndex r w,
      .tblDigestBlock r w]
    (x.status.getLsbD 0 = false → ∀ i ∈ rows, ∃ u, exec i s = .next u ∧ (u.tset r).status = 1
      ∧ (u.tset r).run.isSome = true ∧ (u.tset r).data = x.data)
    ∧ (x.status.getLsbD 0 = true → ∀ i ∈ rows, exec i s = .next (s.setTset r { x with status := x.status ||| 2 })))
  ∧ (∀ (s : State) w k n idx, k < 8 → (s.tset .pumphouse).status.getLsbD 0 = false →
    (Claims.image w k 1 1 idx → l2Of (SMap.get 0 (s.tset .pumphouse).keys 0) (SMap.get 0 (s.tset .pumphouse).data 0) = some n →
      (∀ j, (s.l2t k).find n.mac n.bd = none → (s.l2t k).place n.mac n.bd = some j →
        ∃ u, exec (.tblInsert .pumphouse w) s = .next u ∧ (u.l2t k).ents = SMap.set none (s.l2t k).ents j (some n)
          ∧ ∀ v, v ≠ k → u.l2t v = s.l2t v)
      ∧ (∀ j e, (s.l2t k).find n.mac n.bd = some j → SMap.get none (s.l2t k).ents j = some e →
        ∃ u, exec (.tblUpdate .pumphouse w) s = .next u
          ∧ (u.l2t k).ents = SMap.set none (s.l2t k).ents j (some { n with hit := e.hit })
          ∧ ∀ v, v ≠ k → u.l2t v = s.l2t v))
    ∧ (Claims.image w k 1 0 idx → l2Of (SMap.get 0 (s.tset .pumphouse).keys 0) 0 = some n →
      ∀ j e, (s.l2t k).find n.mac n.bd = some j → SMap.get none (s.l2t k).ents j = some e →
      ∃ u, exec (.tblDelete .pumphouse w) s = .next u ∧ (u.l2t k).ents = SMap.set none (s.l2t k).ents j none
        ∧ ∀ v, v ≠ k → u.l2t v = s.l2t v))
  ∧ (∀ (s : State) w k, k < 4194304 → Claims.image w 0x90 0 2 k → (s.tset .pumphouse).status.getLsbD 0 = false →
    ∃ u, exec (.tblWriteIndex .pumphouse w) s = .next u ∧ (∀ j, j ≠ k → u.pair' j = s.pair' j)
      ∧ u.pair' k = { backP := SMap.get 0 (s.tset .pumphouse).data 0, backB := SMap.get 0 (s.tset .pumphouse).data 1 })
  ∧ (∀ (s : State) r w run, (s.tset r).run = some run →
    (∀ res, run.res = some res → ∃ u, exec (.tblCmdDone r) s = .next u ∧ (u.tset r).run = none
      ∧ (u.tset r).status = ((s.tset r).status &&& 2) ||| res.status)
    ∧ (∀ k, k < 4194304 → run = { w := w, keys := [], data := [] } → w.toNat % 16 = 5 → Claims.image w 0x90 0 0 k →
      ∃ u, exec (.tblCmdDone r) s = .next u ∧ (u.tset r).run = none
        ∧ SMap.get 0 (u.tset r).data 0 = (s.pair' k).backP + BitVec.ofNat 64 (s.pair' k).resP
        ∧ SMap.get 0 (u.tset r).data 1 = (s.pair' k).backB + BitVec.ofNat 64 (s.pair' k).resB)
    ∧ (∀ t (n : L2Ent) j e idx, t < 8 → run = { w := w, keys := [l2Key n.mac n.bd], data := [] } → n.bd < 4096 → w.toNat % 16 = 4 →
      Claims.image w t 1 0 idx → s.tables.overlay = [] → (s.l2t t).find n.mac n.bd = some j →
      SMap.get none (s.l2t t).ents j = some e → ∃ u, exec (.tblCmdDone r) s = .next u
        ∧ SMap.get 0 (u.tset r).data 0 = e.data ∧ (u.l2t t) = s.l2t t))

/-- The overlay's oldest change is decided and, written, leaves it; a rebuilt trie is whole; the scrubber writes one block's
record to its ring, or counts that the ring is full (R384, R399, R401).

Learning: a trigger for an unknown address inserts a dynamic entry and queues a notice; the learn bus takes it to every
other well; a notice moves a dynamic entry; the aging sweep removes the dynamic entries without HIT and clears HIT of the
others (R371, R373, R375). -/
def Obligations.TableUpkeep : Prop :=
  ((∀ (s v : State) e r, s.tables.overlay = [e] → e.who = none →
     (e.done = none → s.tblOp true e.tbl e.op e.index e.key e.data = (v, r) → r.code = 0 →
       ∃ u, exec .emOverlayDecide s = .next u ∧ u.tables.em = v.tables.em
         ∧ u.tables.overlay = [{ e with done := some r }])
     ∧ (e.done ≠ none → ∃ u, exec .emOverlayRetire s = .next u ∧ u.tables.overlay = [] ∧ u.tables.em = s.tables.em))
   ∧ (∀ s vrf fam, ∃ u, exec (.lpmRebuildDone vrf fam) s = .next u ∧ (∀ x, (vrf, fam, x) ∉ u.tables.lpm.damaged)
     ∧ u.tables.lpm.store = s.tables.lpm.store)
   ∧ (∀ s k c, k < 8 → s.phRuns = true → s.scrubOf k = c → c.enable = true → c.lastDt + c.period * 1000000000 / 1024 ≤ s.dt →
     ∃ u, exec (.digestScrubBlock k) s = .next u
       ∧ (c.entries ≤ (c.produced - Config.freeWord s.free).toNat → u.tables.scrubStall = s.tables.scrubStall + 1
         ∧ u.scrubOf k = c)
       ∧ ((c.produced - Config.freeWord s.free).toNat < c.entries → (u.scrubOf k).produced = c.produced + 1
         ∧ (u.scrubOf k).next = (c.next % 1024 + 1) % 1024 ∧ (u.scrubOf k).lastDt = s.dt
         ∧ u.out.hostMem.length = s.out.hostMem.length + 2)))
  ∧ ((∀ s w n j, (s.well w).triggers = [n] → (s.well w).noticesIn = [] → (s.l2t w).find n.mac n.bd = none →
     (s.l2t w).place n.mac n.bd = some j → (s.well w).noticesOut.length < 1024 →
     ∃ u, exec (.l2TriggerApply w) s = .next u ∧ (u.well w).triggers = [] ∧ (u.well w).noticesOut = (s.well w).noticesOut ++ [n]
       ∧ (u.l2t w).ents = SMap.set none (s.l2t w).ents j (some (learnt n)) ∧ (u.l2t w).learn = (s.l2t w).learn + 1)
   ∧ (∀ s w n rest, w < 8 → (s.well w).noticesOut = n :: rest → (∀ v, v ≠ w → (s.well v).noticesOut = []) →
     ∃ u, exec .learnNoticeSend s = .next u ∧ (u.well w).noticesOut = rest ∧ (u.well w).noticesIn = (s.well w).noticesIn
       ∧ ∀ v, v < 8 → v ≠ w → (u.well v).noticesIn = (s.well v).noticesIn ++ [n])
   ∧ (∀ s w n rest j e, (s.well w).noticesIn = n :: rest → (s.l2t w).find n.mac n.bd = some j →
     SMap.get none (s.l2t w).ents j = some e → e.static = false → ∃ u, exec (.l2NoticeApply w) s = .next u
       ∧ (u.well w).noticesIn = rest ∧ (u.l2t w).ents = SMap.set none (s.l2t w).ents j (some { e with port := n.port, hit := true }))
   ∧ (∀ s w, (s.well w).sweepAge ≠ 0 → (s.well w).lastSweep + (s.well w).sweepAge * 1000000000 ≤ s.dt →
     SMap.wf none (s.l2t w).ents = true → ∃ u, exec (.l2AgingSweep w) s = .next u ∧ (u.well w).lastSweep = s.dt
       ∧ (u.well w).sweepAge = s.tables.ageTime
       ∧ ∀ j e, SMap.get none (s.l2t w).ents j = some e → SMap.get none (u.l2t w).ents j =
         if e.static then some e else if e.hit then some { e with hit := false } else none))

/-- The table commands: a batch of one operation applies it and records its result, an atomic one that fails leaves every
table as it was, its results come when it is done; reads, statistics, exact-match tables, L2 settings and flushes, and the
scrubber's settings (R374, R376, R382, R389, R397, R398, R401). -/
def Obligations.TableCommands : Prop :=
  ∀ (s : State) (c : CmdRef),
    (∀ o a b, batchOpOk o = true → s.accepts c 0x0300 (batchFields a b [o]) → s.tables.batches = [] →
      (∀ (v : State) r, s.batchOp o = (v, r) → v.tables.batches = [] →
        (r.code = 0 → Claims.goesOn s (.tableBatch c a b [o]) c fun u => u.tables.l2 = v.tables.l2 ∧ u.tables.em = v.tables.em
          ∧ u.tables.weirs = v.tables.weirs ∧ u.tables.batches = [⟨c, [r.status], 1, 0xFF⟩])
        ∧ (r.code ≠ 0 → a = true → Claims.goesOn s (.tableBatch c a b [o]) c fun u => u.tables.l2 = s.tables.l2
          ∧ u.tables.em = s.tables.em ∧ u.tables.weirs = s.tables.weirs ∧ u.tables.batches = [⟨c, [r.status], 0, 0⟩])))
    ∧ (∀ b, s.running c 0x0300 = true → s.tables.batches = [b] → b.c = c → ∃ u : State, exec (.tableBatchDone c) s
      = .next (u.answer c (.reply 0 0 (wordsBytes b.results) [BitVec.ofNat 8 b.applied, BitVec.ofNat 8 b.failIndex]))
        ∧ u.tables.batches = [])
    ∧ (∀ w k, s.accepts c 0x0301 [(8, w.toNat)] → w.toNat % 16 = 5 → Claims.image w 0x90 0 0 k → k < 4194304 →
      (s.pair' k).lost = false → Claims.answersData s (.tableRead c w []) c (wordsBytes [BitVec.ofNat 64 (k * 256),
        (s.pair' k).backP + BitVec.ofNat 64 (s.pair' k).resP, (s.pair' k).backB + BitVec.ofNat 64 (s.pair' k).resB]))
    ∧ (∀ k, k < 8 → s.accepts c 0x0302 [(2, k)] → ∃ rest, Claims.answersData s (.tableStats c k) c (wordsBytes
      (BitVec.ofNat 64 ((s.l2t k).ents.filter fun e => e.2.isSome).length :: rest)))
    ∧ (∀ t n klen cache (seed : W32), s.accepts c 0x0303 [(1, t), (1, n), (1, klen), (1, cache), (1, 0), (4, seed.toNat)] →
      t ≤ 15 → 10 ≤ n → n ≤ 24 → 1 ≤ klen → klen ≤ 6 → cache ≤ 1 → s.emTables = [] → s.emt t = none →
      256 * 2 ^ n ≤ s.regionSize 1 → Claims.answersOk s (.emTableSet c t n klen cache 0 seed) c fun u =>
        u.emt t = some { log2 := n, klen := klen, cache := cache, seed := seed, base := 0 })
    ∧ (∀ t n klen cache (seed : W32), s.accepts c 0x0303 [(1, t), (1, n), (1, klen), (1, cache), (1, 1), (4, seed.toNat)] →
      t ≤ 15 → Claims.answersOk s (.emTableSet c t n klen cache 1 seed) c fun u => u.emt t = none)
    ∧ (∀ age fl, s.accepts c 0x0304 [(4, age), (1, fl)] → (age = 0 ∨ 10 ≤ age) → age ≤ 1000000 → fl ≤ 1 →
      Claims.answersOk s (.l2Config c age fl) c fun u => u.tables.ageTime = age ∧ u.tables.flushOnDown = decide (fl = 1)
        ∧ u.tables.l2 = s.tables.l2)
    ∧ (∀ val w, s.accepts c 0x0305 [(1, 2), (2, val)] → w < 8 → SMap.wf none (s.l2t w).ents = true →
      Claims.answersOk s (.l2Flush c 2 val) c fun u => ∀ j e, SMap.get none (s.l2t w).ents j = some e →
        SMap.get none (u.l2t w).ents j = if e.static then some e else none)
    ∧ (∀ t per ring, s.accepts c 0x0306 [(2, t), (1, 1), (4, per), (8, ring), (4, 64)] → t < 8 → 60 ≤ per → per ≤ 86400 →
      (s.scrubOf t).enable = false → Claims.answersOk s (.tableScrubConfig c t 1 per ring 64) c fun u =>
        u.scrubOf t = { enable := true, period := per, host := c.fn, ring := ring, entries := 64, lastDt := s.dt })

/-! ### Device time and the ledger -/

/-- What DT does without a command: a read of DT_NOW loads its requester's latch; the PTP slave selects the master it hears,
keeps what it says, asks it and measures the offset, at which it counts as qualified (the model's choice, log 153), and is lost;
PPS_IN and TREF_10M are qualified and lost; HOLDOVER ends in FREERUN; PPS_OUT rises and falls; a well's reference input is lost
and returns (R45, R46, R49, R52-R54, R72, R76, R588).

The time commands: the sources, a step of DT at once or deferred behind a closing epoch, the status where its result fits,
PPS_OUT (R49, R51, R60, R61, R72). -/
def Obligations.DeviceTime : Prop :=
  ((∀ s r, ∃ u, exec (.dtNowRead r) s = .next u ∧ SMap.get 0 u.time.reads (reqCode r) = s.time.ns
     ∧ u.dtSnap r = BitVec.ofNat 64 (s.time.frac.toNat + s.time.st.code * 2 ^ 16 + (if s.time.slew ≠ 0 then 2 ^ 18 else 0)
       + (if s.time.stepNeeded then 2 ^ 19 else 0) + s.time.stepGen.toNat * 2 ^ 32) ∧ u = { s with time := u.time }
     ∧ u.dt = s.dt)
   ∧ (∀ s (h : PtpHdr), s.phRuns = true → h.domain = s.time.ptpDomain → h.transport ≤ 2 → s.time.phase = 1 →
     (∀ d, s.time.ptp.masters = [] → ∃ u, exec (.ptpMessageRx s.time.ptpPort ⟨h, .announce d⟩) s = .next u
       ∧ u.time.ptp.parent = some h.src ∧ u.time.ptp.announced = true ∧ u.time.ptp.announceDt = s.dt)
     ∧ (s.time.ptp.parent = some h.src →
       (∀ q t1 t2 i, ∃ u, exec (.ptpMessageRx s.time.ptpPort ⟨h, .sync q false t1 t2 i⟩) s = .next u
         ∧ u.time.ptp.t1 = t1 ∧ u.time.ptp.t2 = t2 ∧ u.time.ptp.haveT1 = true
         ∧ u.time.ptp.req = some (s.time.ptp.reqNo, s.dt))
       ∧ (∀ (q t3 t4 : Nat), s.time.ptp.haveSync = true → s.time.ptp.haveT1 = true → s.time.ptp.req = some (q, t3) →
         s.time.freq ≠ 0 → ∃ u, exec (.ptpMessageRx s.time.ptpPort ⟨h, .delayResp q true t4⟩) s = .next u
           ∧ u.time.ptp.qualified = true
           ∧ u.time.offset = (((s.time.ptp.t1 : Int) - s.time.ptp.t2) + ((t4 : Int) - t3)) / 2)))
   ∧ (∀ s, s.time.ptp.announced = true → (s.time.ptp.announceDt + Config.announceTimeoutNs ≤ s.dt
       ∨ s.time.ptp.haveSync = true ∧ s.time.ptp.lastSyncDt + 3 * s.time.ptp.intervalNs ≤ s.dt) →
     ∃ u, exec .ptpLossTimeout s = .next u ∧ u.time.ptp = {})
   ∧ (∀ s, s.time.refs.ppsSeen = false → s.time.refs.ppsGood = 0 → ∃ u, exec .ppsInEdge s = .next u
     ∧ u.time.refs.ppsSeen = true ∧ u.time.refs.ppsLast = s.dt ∧ u.time.refs.ppsGood = 1)
   ∧ (∀ s, s.phRuns = true → s.time.refs.ppsSeen = true → s.time.refs.ppsGood = 3 → s.time.phase = 2 → s.time.freq ≠ 0 →
     s.dt - s.time.refs.ppsLast = 1000000000 → s.dt % 1000000000 < 500000000 → ∃ u, exec .ppsInEdge s = .next u
       ∧ u.time.refs.ppsQualified = true ∧ u.time.offset = -((s.dt % 1000000000 : Nat) : Int))
   ∧ (∀ s, s.time.refs.ppsSeen = true → s.time.refs.ppsLast + 3000100000 < s.dt → ∃ u, exec .ppsInMissing s = .next u
     ∧ u.time.refs.ppsSeen = false ∧ u.time.refs.ppsQualified = false)
   ∧ (∀ s (ppt : Int), ppt.natAbs ≤ 50000000 → ∃ u, exec (.trefQualified ppt) s = .next u
     ∧ u.time.refs.trefQualified = true ∧ u.time.refs.trefPpt = ppt)
   ∧ (∀ s, ∃ u, exec .trefLoss s = .next u ∧ u.time.refs.trefQualified = false ∧ u.time.st = s.time.st)
   ∧ (∀ s, s.time.st = .holdover → s.time.holdoverS ≠ 0 → s.time.holdoverSince + s.time.holdoverS * 1000000000 ≤ s.dt →
     ∃ u, exec .holdoverExpiry s = .next u ∧ u.time.st = .freerun)
   ∧ (∀ s, s.time.ppsOn = true → s.time.pps.level = false → s.time.pps.lastSecond < s.time.ppsTime / 4000000000 →
     ∃ u, exec .ppsOutRise s = .next u ∧ u.time.pps.level = true ∧ u.time.pps.riseDt = s.dt)
   ∧ (∀ s, s.time.pps.level = true → s.time.pps.riseDt + s.time.pps.highNs ≤ s.dt → ∃ u, exec .ppsOutFall s = .next u
     ∧ u.time.pps.level = false)
   ∧ (∀ s w, w < 8 → (s.well w).refclk = true → ∃ u, exec (.refclkLoss w) s = .next u ∧ (u.well w).refclk = false)
   ∧ (∀ s w, w < 8 → (s.well w).refclk = false → ∃ u, exec (.refclkReturn w) s = .next u ∧ (u.well w).refclk = true
     ∧ (u.well w).recal = true)
   ∧ (∀ s w, (s.well w).recal = true → ∃ u, exec (.laneRecalDone w) s = .next u ∧ (u.well w).recal = false)
   ∧ (∀ s d, s.time.baseReturn = some d → d ≤ s.dt → ∃ u, exec .timebaseSwitchback s = .next u ∧ u.time.base = 0))
  ∧ (∀ (s : State) (c : CmdRef),
     (∀ ph fr port dom hold, s.accepts c 0x0500 [(1, ph), (1, fr), (2, port), (1, dom), (4, hold)] → ph ≤ 3 → fr ≤ 2 →
       dom ≤ 127 → port ≤ 127 → hold ≤ 604800 → Claims.answersOk s (.timeSource c ph fr port dom hold) c fun u =>
         u.time.phase = ph ∧ u.time.freq = fr ∧ u.time.ptpPort = port ∧ u.time.ptpDomain = dom ∧ u.time.holdoverS = hold
           ∧ u.dt = s.dt)
     ∧ (∀ a (g : W32), s.accepts c 0x0501 [(8, a), (4, g.toNat)] → s.mine c.fn = true → s.ledger.closing = none →
       s.time.deferred = [] → 0 < a → a ≤ 2 ^ 62 → s.dt + a < 2 ^ 64 →
       (g = s.time.stepGen → Claims.answersOk s (.timeStep c a g) c fun u => u.dt = s.dt + a ∧ u.time.stepGen = g + 1
         ∧ u.time.stepNeeded = false)
       ∧ (g ≠ s.time.stepGen → g + 1 ≠ s.time.stepGen → Claims.refusedWith s (.timeStep c a g) c 10))
     ∧ (∀ a (g : W32), s.accepts c 0x0501 [(8, a), (4, g.toNat)] → s.ledger.closing.isSome = true →
       Claims.goesOn s (.timeStep c a g) c fun u => u.time.deferred = s.time.deferred ++ [⟨c, a, g⟩] ∧ u.dt = s.dt)
     ∧ (∀ a (g : W32), s.time.deferred = [⟨c, a, g⟩] → s.ledger.closing = none → s.running c 0x0501 = true →
       s.mine c.fn = true → 0 < a → a ≤ 2 ^ 62 → s.dt + a < 2 ^ 64 → g = s.time.stepGen →
       Claims.answersOk s .timeStepDeferredApply c fun u => u.dt = s.dt + a ∧ u.time.deferred = [])
     ∧ (s.accepts c 0x0502 [] → ∃ (u : State) (l : List Byte), exec (.dtNowRead .pumphouse) s = .next u
       ∧ l = layout [(8, (u.dtSnap .pumphouse).toNat), (8, ofInt 64 s.time.offset), (1, s.time.ptp.qualified.toNat
         + 2 * s.time.refs.ppsQualified.toNat + 4 * s.time.refs.trefQualified.toNat), (4, ofInt 32 s.time.corr)]
       ∧ (s.tooLong c (.data l) = false → exec (.timeStatus c) s = .next (u.answer c (.data l))))
     ∧ (∀ (q : Int) h f, s.accepts c 0x0503 [(4, ofInt 32 q), (4, h), (1, f)] → q.natAbs ≤ 4000000 → 1000 ≤ h →
       h ≤ 500000000 → f ≤ 1 → Claims.answersOk s (.ppsOutConfig c q h f) c fun u => u.time.pps.compQns = q
         ∧ u.time.pps.highNs = h ∧ u.time.pps.freerun = decide (f = 1) ∧ u.dt = s.dt))

/-- An open epoch whose end DT has reached closes, and the next one opens there with the next number and the length in
force. A closing epoch whose grace has ended is sealed: its record joins the others, and the one whose slot the epoch after
next will use leaves them. The residuals of the first sealed bank go into its slot. The record without a digest is hashed
with the digest of what precedes it, and the first unsigned record is signed (R65, R66, R435, R437, R440, R441). -/
def Obligations.EpochsAndRecords : Prop :=
  (∀ (s : State) e, s.ledger.openEp = some e → e.endAt ≤ s.dt → ∃ u o, exec .epochClose s = .next u
    ∧ u.ledger.openEp = some o ∧ o.no = s.ledger.nextNo ∧ o.start = e.endAt ∧ o.lenNs = s.ledger.nextLength * 1000000000
    ∧ o.endAt = nextMultiple o.lenNs e.endAt ∧ o.slot = [] ∧ o.res = [] ∧ u.ledger.nextNo = s.ledger.nextNo + 1
    ∧ u.ledger.closing = some { e with
        phase := .closing, stop := e.endAt, graceFrom := e.endAt, sealAt := e.endAt + 1000000 * s.ledger.graceMs }
    ∧ (s.ledger.closing = none → u.ledger.recs = s.ledger.recs))
  ∧ (∀ (s : State) e r, s.ledger.closing = some e → s.ledger.ring = some r → e.sealAt ≤ s.dt →
    ∃ u, exec .epochSeal s = .next u ∧ u.ledger.closing = none ∧ u.ledger.lastSeal = s.time.ns
      ∧ u.ledger.recs = (s.ledger.recs ++ [{ e with
        phase := .sealed, graceUs := Nat.min ((s.dt - e.graceFrom) / 1000) 100000 }]).filter fun x =>
          !decide (r.slots ≤ e.no + 2 ∧ x.no = e.no + 2 - r.slots))
  ∧ (∀ (s : State) e, (s.ledger.recs.find? fun x => x.phase = .sealed) = some e → SMap.wf 0 e.res = true →
    ∃ u x, exec .sealResidualsDone s = .next u
    ∧ u.ledger.recs = s.ledger.recs.map (fun y => if y.no = e.no then { e with phase := .summed, res := [], slot := x } else y)
    ∧ ∀ k, SMap.get 0 x k = SMap.get 0 e.slot k + BitVec.ofNat 64 (SMap.get 0 e.res k))
  ∧ (∀ (s : State) e r p, (s.ledger.recs.find? fun x => x.digest.isEmpty) = some e → s.ledger.ring = some r →
    s.ledger.fault = false → e.phase = .summed →
    (e.no = 0 ∧ p = sm3 r.statement ∨ e.no ≠ 0 ∧ ∃ q, (s.ledger.recs.find? fun x => x.no + 1 = e.no) = some q
      ∧ q.digest ≠ [] ∧ p = q.digest) → ∃ u x, exec .recordDigestDone s = .next u ∧ x = { e with prev := p }
      ∧ u.ledger.recs = s.ledger.recs.map (fun y => if y.no = e.no
          then { x with phase := .digested, digest := sm3 (x.bytes r.id 0 8388704) } else y))
  ∧ (∀ (s : State) e r, (s.ledger.recs.find? fun x => x.phase ≠ .signed) = some e → s.ledger.ring = some r →
    s.ledger.fault = false → e.phase = .digested → ∃ u, exec .recordSignDone s = .next u
      ∧ u.ledger.recs = s.ledger.recs.map (fun y => if y.no = e.no then { e with
        phase := .signed, sig := Config.sm2Sign r.key (ascii "QZMLEDGER1") e.digest (Config.freeWord s.free) } else y)
      ∧ u.ledger.damagedRecs = if e.damaged then s.ledger.damagedRecs + 1 else s.ledger.damagedRecs)

/-- The ledger commands: epochs are started, stopped and configured; a ring is begun, or one in FAULT begun anew, and its
statement returned; records are read, and the reading ends with the record as it stands; epochs are acknowledged; the flush
buffer is set; the information and the statistics are returned (R65-R67, R442-R448). -/
def Obligations.LedgerCommands : Prop :=
  ∀ (s : State) (c : CmdRef),
    (∀ len gr, 1 ≤ len → len ≤ 3600 → gr ≤ 100 →
      (s.accepts c 0x0504 [(1, 0), (2, len), (1, gr)] → s.ledger.ring.isSome = true → s.ledger.fault = false →
        s.ledger.openEp = none → Claims.answersOk s (.epochConfig c 0 len gr) c fun u => ∃ o, u.ledger.openEp = some o
          ∧ o.no = s.ledger.nextNo ∧ o.start = s.dt ∧ o.lenNs = len * 1000000000 ∧ u.ledger.graceMs = gr)
      ∧ (∀ e, s.accepts c 0x0504 [(1, 1), (2, len), (1, gr)] → s.ledger.openEp = some e →
        Claims.answersOk s (.epochConfig c 1 len gr) c fun u => u.ledger.openEp = none
          ∧ ∃ x, u.ledger.closing = some x ∧ x.no = e.no ∧ x.stop = s.dt ∧ x.res = e.res ∧ x.slot = e.slot)
      ∧ (s.accepts c 0x0504 [(1, 2), (2, len), (1, gr)] → Claims.answersOk s (.epochConfig c 2 len gr) c fun u =>
        u.ledger.nextLength = len ∧ u.ledger.graceMs = gr ∧ u.ledger.openEp = s.ledger.openEp))
    ∧ (∀ n prev, s.accepts c 0x0600 (ledgerInitFields n prev) → s.ledger.init = none → s.trngBad = false →
      (∀ r, s.ledger.ring = some r → r.by_ ≠ c ∧ s.ledger.fault = true) → (∀ p, prev = some p → s.prevOk p = true) →
      256 ≤ n → n ≤ 8192 → n * 8388608 ≤ s.regionSize 5 → Claims.goesOn s (.ledgerInit c n prev) c fun u =>
        u.ledger.init = some ⟨c, n, prev⟩ ∧ u.ledger.ring = s.ledger.ring)
    ∧ (∀ i, s.ledger.init = some i → i.c = c → s.running c 0x0600 = true → ∃ (u : State) (r : Ring),
      exec (.ledgerInitDone c) s = .next (u.answer c (.data r.statement)) ∧ u.ledger.ring = some r ∧ r.slots = i.slots
        ∧ r.statement.take 144 = ringHead r.id s.dt i.slots i.prev r.pub ∧ r.pub = Config.sm2Public r.key
        ∧ u.ledger.nextNo = 0 ∧ u.ledger.init = none)
    ∧ (∀ e off len addr r ring, s.accepts c 0x0601 [(8, e), (4, off), (4, len), (8, addr)] → off % 64 = 0 →
      (len % 64 = 0 ∨ off + len = recordLen) → off + len ≤ recordLen → s.ledger.unsigned e = false →
      s.ledger.record e = some r → s.ledger.ring = some ring →
      Claims.goesOn s (.ledgerRead c e off len addr) c fun u => u.out.hostMem
        = s.out.hostMem ++ [⟨c.fn, addr, (List.range len).map fun k => r.byteAt ring.id (off + k)⟩])
    ∧ (∀ x, (s.ledger.reads.find? fun y => y.c = c) = some x → s.running c 0x0601 = true →
      let reads := s.ledger.reads.filter fun y => y.c ≠ c
      (∀ r, s.ledger.record x.epoch = some r → r.badUnits = [] →
        Claims.answersOk s (.ledgerReadDone c) c fun u => u.ledger.reads = reads ∧ u.ledger.recs = s.ledger.recs)
      ∧ (s.ledger.record x.epoch = none → ∃ u : State, exec (.ledgerReadDone c) s = .next (u.answer c badArg)
        ∧ u.ledger.reads = reads))
    ∧ (∀ e, s.accepts c 0x0602 [(8, e)] → (∀ a, s.ledger.acked = some a → a < e) → e < s.ledger.nextNo →
      s.ledger.unsigned e = false →
      Claims.answersOk s (.ledgerAck c e) c fun u => u = { s with ledger := { s.ledger with acked := some e } })
    ∧ (∀ addr, s.accepts c 0x0603 [(8, addr)] → addr % 4096 = 0 → Claims.answersOk s (.ledgerFlushSet c addr) c fun u =>
      (c.fn = .hostA → u.ledger.flushA = BitVec.ofNat 64 addr) ∧ (c.fn = .hostB → u.ledger.flushB = BitVec.ofNat 64 addr))
    ∧ (∀ r, s.accepts c 0x0604 [] → s.ledger.ring = some r → Claims.answersData s (.ledgerInfo c) c
      (r.statement ++ s.ledger.registers.flatMap fun v => leBytes 8 v))
    ∧ (s.accepts c 0x0605 [] → Claims.answersData s (.ledgerStats c) c ([s.ledger.idleDrop, s.ledger.lateTotal, s.ledger.lost,
      s.ledger.damagedRecs, s.ledger.flushes, s.ledger.lastSeal].flatMap fun v => leBytes 8 v.toNat))

/-! ### The wells -/

/-- The first words of a frame on a receiving port go into the FIFO, and the frame waits for its walk, or is refused where
the port is sluiced; the FIFO's halves change roles; the drain takes its words one by one, and a word inside a frame joins
the frame; a cell granted to the request that waits for it begins the frame's buffer or lengthens it; the last word of a
good frame that has its cells and its sequence number makes it accepted (R21, R55, R112, R114-R118, R122, R151, R166). -/
def Obligations.FramesComeIn : Prop :=
  (∀ (s : State) port w rest ended, s.receives port = true → s.inProgress port = none →
    State.consumed (w :: rest) = false → ∃ u, exec (.frameSof port ⟨w :: rest, ended⟩) s = .next u
      ∧ u.order.nextPkt = s.order.nextPkt + 1 ∧ (u.port port).arriving = (s.port port).arriving ++ [s.order.nextPkt]
      ∧ (u.port port).fill = (s.port port).fill ++ w :: rest ∧ (u.pkt s.order.nextPkt).sofDt = s.dt
      ∧ (u.pkt s.order.nextPkt).wIn = rest.length + 1
      ∧ (s.sluiced port = false → (u.pkt s.order.nextPkt).refusal = none
        ∧ (u.port port).parseQ = (s.port port).parseQ ++ [s.order.nextPkt])
      ∧ (s.sluiced port = true → (u.pkt s.order.nextPkt).refusal = some 5))
  ∧ (∀ (s : State) port, (s.port port).fill ≠ [] → (s.port port).drain = [] → ∃ u, exec (.fifoBankSwap port) s = .next u
    ∧ (u.port port).drain = (s.port port).fill ∧ (u.port port).fill = [])
  ∧ (∀ (s : State) port w rest p fs, (s.port port).drain = w :: rest → (s.port port).arriving = p :: fs →
    (s.pkt p).ended = false → (s.pkt p).wOut ≠ 0 → (s.pkt p).refusal = none → wordParity w = true → wordSof w = false →
    wordEof w = false → (s.pkt p).bytes.length + 8 ≤ (s.port port).cfg.maxFrame →
    cellsDue ((s.pkt p).bytes.length + 8) false = (s.pkt p).asked → ∃ u, exec (.drainRead port 1) s = .next u
      ∧ (u.pkt p).bytes = (s.pkt p).bytes ++ wordData w ∧ (u.pkt p).wOut = (s.pkt p).wOut + 1
      ∧ (u.port port).drain = rest ∧ (u.port port).arriving = p :: fs
      ∧ ∀ n, exec (.drainRead port (n + 1)) s = exec (.drainRead port n) u)
  ∧ (∀ (s : State) b w p c kind, b < 16 → w < 8 → s.basin.lostReqs = [] → SMap.get [] s.basin.reqs b = [⟨w, p⟩] →
    (s.pkt p).refusal = none → (s.pkt p).hasSeq = false → s.freeCell b = some c → s.allows (s.frameEnts (s.pkt p)) = .ok kind →
    ((s.pkt p).head = none → ∃ u x, exec (.cellGrant b) s = .next u ∧ (u.pkt p).head = some c ∧ u.buf c = some x
      ∧ x.cells = [c] ∧ SMap.get [] u.basin.reqs b = [])
    ∧ (∀ h y, (s.pkt p).head = some h → s.buf h = some y → ∃ u x, exec (.cellGrant b) s = .next u
      ∧ (u.pkt p).head = some h ∧ u.buf h = some x ∧ x.cells = y.cells ++ [c] ∧ SMap.get [] u.basin.reqs b = []))
  ∧ (∀ (s : State) port w fec p bytes, s.inProgress port = some p → (s.port port).arriving = [p] →
    (s.port port).fill = [] → (s.port port).drain = [] → (s.pkt p).wIn = (s.pkt p).wOut → (s.pkt p).wOut ≠ 0 →
    (s.pkt p).refusal = none → (s.pkt p).accepted = false → (s.pkt p).rxerr = false → (s.pkt p).cut = false →
    (s.pkt p).hasSeq = true → (s.rc p).lateRun = false → s.fecBad port fec = false →
    wordSof w = false → wordEof w = true → wordParity w = true → wordRxerr w = false →
    bytes = (s.pkt p).bytes ++ wordBytes w true → 64 ≤ bytes.length → bytes.length ≤ (s.port port).cfg.maxFrame →
    bytes.drop (bytes.length - 4) = fcs (bytes.take (bytes.length - 4)) → (s.pkt p).asked = (bytes.length + 255) / 256 →
    s.heldCells (s.pkt p) = (bytes.length + 255) / 256 →
    ∃ u, exec (.frameTail port [w] fec) s = .next u ∧ (u.pkt p).accepted = true ∧ (u.pkt p).acceptDt = s.dt
      ∧ (u.pkt p).bytes = bytes ∧ (u.port port).arriving = [])

/-- A walk starts when the standpipe is full or the frame's end is in, under the graph of its well; its end gives the frame
its sequence number. A graph commit switches a well that has started no walk for 2 µs, and completes with the last; fragment
entries and held fragments time out; QUIESCE_N is followed; a parser reset ends; data on a port that is down is counted, and
in TEST goes to the checkers or back onto the lanes (R22, R97, R108, R120, R124, R129, R133, R140, R142, R146). -/
def Obligations.WalksAndWells : Prop :=
  (∀ (s : State) port p, s.nextWalk port = some p → (s.well (s.pkt p).well).parserReset = false →
    ((s.pkt p).tailIn = true ∨ (s.port port).cfg.standpipe ≤ (s.pkt p).bytes.length) →
    ∃ u, exec (.parseStart port) s = .next u ∧ (u.pkt p).st = .walking
      ∧ (u.pkt p).walkBytes = Nat.min 256 (s.pkt p).bytes.length
      ∧ (u.pkt p).walkGraph = some ((u.well (s.pkt p).well).graph, (u.well (s.pkt p).well).graphVer))
  ∧ (∀ (s : State) port p rest, (s.port port).parseQ = p :: rest → (s.pkt p).refusal = none →
    (s.well (s.pkt p).well).parserReset = false → (s.pkt p).st = .walking → (s.pkt p).head.isSome = true →
    (s.well (s.pkt p).well).held.length < 256 → (s.rc p).lateRun = false → ∃ u, exec (.parseComplete port) s = .next u
        ∧ (u.port port).parseQ = rest ∧ (u.pkt p).parsed = true ∧ (u.pkt p).hasSeq = true
        ∧ (u.pkt p).seq = (s.dom (u.pkt p).domain).nextSeq ∧ u.order.nextParse = s.order.nextParse + 1)
  ∧ (∀ (s : State) w g, w < 8 → s.net.committing = some g → g.startDt + 2000 ≤ s.dt → (s.well w).switchPending = true →
    ((∀ v, v ≠ w → (s.well v).switchPending = false) → Claims.answersOk s (.graphSwitchTimeout w) g.c fun u =>
      (u.well w).graph = g.next ∧ (u.well w).graphVer = some g.version ∧ u.net.committing = none ∧ u.net.shadow = g.former)
    ∧ (∀ v, v < 8 → v ≠ w → (s.well v).switchPending = true → ∃ u, exec (.graphSwitchTimeout w) s = .next u
      ∧ (u.well w).graph = g.next ∧ (u.well w).graphVer = some g.version ∧ u.net.committing = some g))
  ∧ (∀ (s : State) w k e, ((s.well w).frags.find? fun x => x.1 = k) = some e → e.2.born + 30000000 ≤ s.dt →
    ∃ u, exec (.fragEntryExpiry w k) s = .next u ∧ (u.well w).frags = (s.well w).frags.filter fun x => x.1 ≠ k)
  ∧ (∀ (s : State) w e, ((s.well w).held.find? fun e => (s.pkt e.1).accepted
      && decide (e.2.2 + 1000 * (s.well w).holdTimeUs ≤ s.dt / 10000 * 10000)) = some e →
    ∃ u, exec (.fragHoldTimeout w) s = .next u ∧ (u.well w).held = ((s.well w).held.filter fun x => x.1 ≠ e.1)
      ∧ (u.pkt e.1).st = .finished)
  ∧ (∀ s : State, (s.net.quiesce = false → ∃ u, exec .quiesceFall s = .next u ∧ u.net.quiesce = true)
    ∧ (s.net.quiesce = true → ∃ u, exec .quiesceRise s = .next u ∧ u.net.quiesce = false))
  ∧ (∀ (s : State) w, w < 8 → (s.well w).parserReset = true → ∃ u, exec (.parserResetDone w) s = .next u
    ∧ (u.well w).parserReset = false)
  ∧ (∀ (s : State) p data checks, (s.port p).lanes ≠ 0 →
    ((s.port p).st = .down ∨ (s.port p).st = .training ∨ (s.port p).st = .suppressed →
      ∃ u, exec (.rxWhileDown ⟨p, data, checks⟩) s = .next u
        ∧ (u.port p).mac.rxWhileDown = (s.port p).mac.rxWhileDown + 1 ∧ (u.port p).fill = (s.port p).fill)
    ∧ (s.testing p 3 = true → ∃ u, exec (.rxWhileDown ⟨p, data, checks⟩) s = .next u
        ∧ u.out.serdes = s.out.serdes ++ [(p, data)] ∧ u.net = s.net)
    ∧ (s.testing p 1 = true → ∀ e rest, checks = e :: rest → ∃ u, exec (.rxWhileDown ⟨p, data, checks⟩) s = .next u
        ∧ SMap.get 0 (u.port p).mac.prbsErrors 0 = SMap.get 0 (s.port p).mac.prbsErrors 0 + BitVec.ofNat 48 e.1
        ∧ SMap.get false (u.port p).mac.prbsLock 0 = e.2 ∧ (u.port p).fill = (s.port p).fill))

/-- The intake's commands: sluices, the shadow graph and its commit, hash profiles, keys and indirection, the counters
(R123, R133-R137, R148). -/
def Obligations.IntakeCommands : Prop :=
  ∀ (s : State) (c : CmdRef),
    (∀ w (m : BitVec 16), w < 8 →
      (s.accepts c 0x020C [(1, w), (2, m.toNat)] → Claims.answersOk s (.sluice c w m) c fun u =>
        (∀ p ∈ s.maskPorts w m, (u.port p).dciSluice = true) ∧ ∀ p, p ∉ s.maskPorts w m → u.port p = s.port p)
      ∧ (s.accepts c 0x020D [(1, w), (2, m.toNat)] → Claims.answersOk s (.unsluice c w m) c fun u =>
        (∀ p ∈ s.maskPorts w m, (u.port p).dciSluice = false) ∧ ∀ p, p ∉ s.maskPorts w m → u.port p = s.port p))
    ∧ (∀ recs, s.accepts c 0x020E (recs.flatMap graphFields) → s.net.committing = none → recs.all graphRecOk = true →
      Claims.answersOk s (.parseGraphLoad c recs) c fun u => u = { s with net := u.net }
        ∧ u.net.shadow = recs.foldl Graph.put s.net.shadow ∧ u.net.wells = s.net.wells)
    ∧ (∀ v, s.accepts c 0x020F [(2, v)] → s.net.committing = none →
      ((s.well 0).graphVer ≠ some v → Claims.goesOn s (.parseGraphCommit c v) c fun u =>
        (∀ w, w < 8 → (u.well w).switchPending = true)
          ∧ ∃ g, u.net.committing = some g ∧ g.version = v ∧ g.next = s.net.shadow ∧ g.c = c)
      ∧ ((s.well 0).graphVer = some v → Claims.answersOk s (.parseGraphCommit c v) c fun u => u = s))
    ∧ (∀ pr alg ks mode tb fd (inp : BitVec 128), s.accepts c 0x0210 [(1, pr), (1, alg), (1, ks), (1, mode), (1, tb), (2, fd),
        (16, inp.toNat)] → pr ≤ 255 → alg ≤ 2 → ks ≤ 15 → mode ≤ 2 → tb ≤ 63 → fd ≤ 65535 → inp.extractLsb' 0 16 = 0 →
      (alg = 1 → (selectBytes inp (List.replicate 128 0)).length ≤ 60) →
      (alg = 2 → (selectBytes inp (List.replicate 128 0)).length ≤ 64) →
      Claims.answersOk s (.hashProfileSet c pr alg ks mode tb fd inp) c fun u => u = { s with net := u.net }
        ∧ SMap.get {} u.net.profiles pr = ⟨alg, ks, inp, mode, tb, fd⟩)
    ∧ (∀ k bs, s.accepts c 0x0211 [(1, k), bytesField 64 bs] → k ≤ 15 → bs.length = 64 →
      Claims.answersOk s (.hashKeySet c k bs) c fun u => SMap.get [] u.net.hashKeys k = bs ∧ u = { s with net := u.net })
    ∧ (∀ tb first (es : List W32), s.accepts c 0x0212 ([(1, tb), (2, first), (2, es.length), (2, 0)]
        ++ es.map fun e => (4, e.toNat)) → tb ≤ 63 → es ≠ [] → first + es.length ≤ 512 → es.all indirOk = true →
      Claims.answersOk s (.indirectionSet c tb first es) c fun u => u = { s with net := u.net }
        ∧ ∀ k, k < es.length → SMap.get 0 u.net.indirection (tb * 512 + first + k) = es.getD k 0)
    ∧ (∀ p, s.accepts c 0x0213 [(2, p)] → p ≤ 1023 → Claims.answersData s (.intakeStats c p) c (s.port p).intake.image)

/-! ### Ports and modules -/

/-- What happens on a port's link: a loss ends its presence, and on an UP port starts the hold-off; a return starts the
debounce; the expired hold-off takes the port DOWN, or suppresses it at the flap threshold; the expired debounce takes it UP,
or leaves it UP; negotiation and training go their steps; suppression ends; a MAC control frame pauses the port, or is
counted as bad (R87, R94, R95, R98-R100, R416). -/
def Obligations.LinksComeAndGo : Prop :=
  (∀ (s : State) p k, (s.port p).link.present = true → ∃ u, exec (.linkLoss p k) s = .next u
      ∧ (u.port p).link.present = false ∧ (u.port p).link.debounceDt = none ∧ (u.port p).st = (s.port p).st
      ∧ ((s.port p).st = .up → (s.port p).link.lossDt = none → (u.port p).link.lossDt = some s.dt))
  ∧ (∀ (s : State) p, (s.port p).lanes ≠ 0 → (s.port p).enabled = true → (s.port p).link.present = false →
    (s.port p).link.trained = true → (s.well (wellOf p)).refclk = true → (s.well (wellOf p)).recal = false →
    s.trust.jtag.pins = false → ((s.port p).st = .down ∨ (s.port p).st = .up) → ∃ u, exec (.linkReturn p) s = .next u
      ∧ (u.port p).link.present = true ∧ (u.port p).link.debounceDt = some s.dt)
  ∧ (∀ (s : State) p d, (s.port p).link.lossDt = some d → d + 1000000 * (s.port p).cfg.holdoffMs ≤ s.dt →
    let w := (s.port p).cfg.flapWindowS * 1000000000
    let downs := s.dt :: (s.port p).link.downs.filter fun d => s.dt < d + w
    ∃ u, exec (.linkHoldoffExpiry p) s = .next u ∧ (u.port p).link.lossDt = none ∧ (u.port p).link.downs = downs
      ∧ (u.port p).st = if (s.port p).cfg.flapThreshold ≠ 0 ∧ (s.port p).cfg.flapThreshold ≤ downs.length
          then .suppressed else .down)
  ∧ (∀ (s : State) p d, (s.port p).link.debounceDt = some d → d + 1000000 * (s.port p).cfg.debounceMs ≤ s.dt →
    ((s.port p).st = .down ∨ (s.port p).st = .up) → ∃ u, exec (.linkDebounceExpiry p) s = .next u ∧ (u.port p).st = .up
      ∧ (u.port p).link.debounceDt = none ∧ (u.port p).link.lossDt = none)
  ∧ (∀ (s : State) p (x : Partner) m, (s.port p).st = .training → (s.port p).link.anDone = false →
    resolveMode (s.port p).lanes (s.port p).cfg.ability x.modes = some m → regionSum (s.regionsFor p m) ≤ 256 →
    (s.reconfigures p m = false ∨ s.wellQuiet (wellOf p) = true → ∃ u, exec (.anComplete p x) s = .next u
      ∧ (u.port p).mode = m ∧ (u.port p).link.anDone = true ∧ (u.port p).st = .training)
    ∧ (s.reconfigures p m = true → s.wellQuiet (wellOf p) = false → ∃ u, exec (.anComplete p x) s = .next u
      ∧ (u.well (wellOf p)).reconfig = true ∧ u.port p = s.port p))
  ∧ (∀ (s : State) p, (s.port p).st = .training → (s.port p).link.anDone = true →
    (∃ u, exec (.trainingDone p) s = .next u ∧ (u.port p).link.trained = true ∧ (u.port p).st = .down)
    ∧ ((s.port p).link.trainFails < 7 → ∃ u, exec (.trainingTimeout p) s = .next u
      ∧ (u.port p).link.trainFails = (s.port p).link.trainFails + 1 ∧ (u.port p).st = .training)
    ∧ (7 ≤ (s.port p).link.trainFails → ∃ u, exec (.trainingTimeout p) s = .next u ∧ (u.port p).st = .down
      ∧ (u.port p).link.trainRetry = some (s.dt + 1000000000)))
  ∧ (∀ (s : State) p d, (s.port p).link.trainRetry = some d → d ≤ s.dt → (s.port p).st = .down →
    (s.well (wellOf p)).refclk = true → (s.well (wellOf p)).recal = false →
    ∃ u, exec (.trainingRetry p) s = .next u ∧ (u.port p).st = .training ∧ (u.port p).link.trainRetry = none)
  ∧ (∀ (s : State) p d, (s.port p).link.suppressEnd = some d → d ≤ s.dt → (s.port p).st = .suppressed →
    (s.port p).enabled = true → ∃ u, exec (.flapSuppressExpiry p) s = .next u
      ∧ ((u.port p).st = .training ∨ (u.port p).st = .down) ∧ (u.port p).link.downs = [] ∧ (u.port p).link.suppressEnd = none)
  ∧ (∀ (s : State) p bs rx, s.receives p = true → s.inProgress p = none → 14 ≤ bs.length → slice bs 12 2 = [0x88, 0x08] →
    let ok := 64 ≤ bs.length ∧ bs.length ≤ (s.port p).cfg.maxFrame ∧ rx = false
      ∧ bs.drop (bs.length - 4) = fcs (bs.take (bs.length - 4))
    (ok → slice bs 14 2 = [0, 1] → (s.port p).cfg.fc = .pause → beVal (slice bs 16 2) ≠ 0 →
      ∃ u, exec (.macControlRx p bs rx) s = .next u ∧ (u.port p).mac.pauseRx = (s.port p).mac.pauseRx + 1
        ∧ SMap.get 0 (u.eport p).pauseEnd 8
          = s.dt + (beVal (slice bs 16 2) * 512 + s.portRate p - 1) / s.portRate p)
    ∧ (ok → slice bs 14 2 = [1, 1] → ∃ u, exec (.macControlRx p bs rx) s = .next u
        ∧ (u.port p).mac.pfcRx = (s.port p).mac.pfcRx + 1)
    ∧ (¬ok → ∃ u, exec (.macControlRx p bs rx) s = .next u ∧ (u.port p).mac.ctrlErr = (s.port p).mac.ctrlErr + 1
        ∧ u.eport p = s.eport p))

/-- The port commands, and the end of a PORT_DISABLE: a mode takes effect at once, or waits for the frames in progress of the
well it reconfigures; configuration, enabling and disabling, the start and end of a test, status, the E-CID map, and the
well's hold settings and regions (R77-R83, R91, R108, R113, R554). -/
def Obligations.PortCommands : Prop :=
  ∀ (s : State) (c : CmdRef),
    (∀ p m fec (tx rx : Byte), s.accepts c 0x0200 [(2, p), (1, m), (1, fec), (1, tx.toNat), (1, rx.toNat)] → p ≤ 127 → m ≤ 6 →
      fecOk m fec = true → p % lanesOf m = 0 → s.wellOff (wellOf p) = false →
      ¬((s.port p).mode = m ∧ (s.port p).fec = fec ∧ (s.port p).txPol = tx ∧ (s.port p).rxPol = rx) →
      regionSum (s.regionsFor p m) ≤ 256 →
      (s.reconfigures p m = false ∨ s.wellQuiet (wellOf p) = true → Claims.answersOk s (.portModeSet c p m fec tx rx) c fun u =>
        (u.port p).mode = m ∧ (u.port p).fec = fec ∧ (u.port p).txPol = tx ∧ (u.port p).rxPol = rx
          ∧ (u.port p).lanes = lanesOf m)
      ∧ (s.reconfigures p m = true → s.wellQuiet (wellOf p) = false → ∃ u, exec (.portModeSet c p m fec tx rx) s = .next u
        ∧ (u.well (wellOf p)).reconfig = true ∧ u.port p = s.port p))
    ∧ (∀ p a, s.accepts c 0x0201 ((2, p) :: portConfigFields a) → p ≤ 127 → portConfigOk a = true → (s.port p).lanes ≠ 0 →
      Claims.answersOk s (.portConfig c p a) c fun u => u = { s with net := u.net }
        ∧ u.port p = { s.port p with cfg := portCfgOf a } ∧ ∀ q, q ≠ p → u.port q = s.port q)
    ∧ (∀ p, s.accepts c 0x0202 [(2, p)] → p ≤ 127 → (s.port p).lanes ≠ 0 → (s.well (wellOf p)).graphVer.isSome = true →
      s.wellOff (wellOf p) = false →
      ((s.port p).st ≠ .suppressed → (s.port p).enabled = false → Claims.answersOk s (.portEnable c p) c fun u =>
        (u.port p).enabled = true ∧ ((u.port p).st = .training ∨ (u.port p).st = .down))
      ∧ ((s.port p).st = .suppressed → (s.port p).enabled = true → Claims.answersOk s (.portEnable c p) c fun u =>
        (u.port p).link.suppressEnd = none ∧ ((u.port p).st = .training ∨ (u.port p).st = .down))
      ∧ ((s.port p).st ≠ .suppressed → (s.port p).enabled = true → Claims.answersOk s (.portEnable c p) c fun u => u = s))
    ∧ (∀ p, s.accepts c 0x0203 [(2, p)] → p ≤ 127 →
      ((s.port p).lanes ≠ 0 → (s.port p).st ≠ .disabled → ∃ u, exec (.portDisable c p) s = .next u
        ∧ (u.port p).disabling = some c ∧ u.sluiced p = true)
      ∧ ((s.port p).lanes = 0 ∨ (s.port p).st = .disabled → Claims.answersOk s (.portDisable c p) c fun u => u = s))
    ∧ (∀ p, (s.port p).disabling = some c → Claims.answersOk s (.portDisableComplete p) c fun u =>
      (u.port p).st = .disabled ∧ (u.port p).enabled = false ∧ (u.port p).disabling = none)
    ∧ (∀ p m pat, s.accepts c 0x0204 [(2, p), (1, m), (1, pat)] → p ≤ 127 → pat ≤ 7 → (s.port p).lanes ≠ 0 →
      (1 ≤ m → m ≤ 4 → (m = 1 → patternOk (s.port p).mode pat = true) → (s.port p).enabled = true →
        ¬((s.port p).st = .test ∧ (s.port p).testMode = m ∧ (s.port p).testPattern = pat) →
        Claims.answersOk s (.portTest c p m pat) c fun u => (u.port p).st = .test ∧ (u.port p).testMode = m
          ∧ (u.port p).testPattern = pat)
      ∧ (m = 0 → (s.port p).st = .test → Claims.answersOk s (.portTest c p m pat) c fun u => (u.port p).st ≠ .test)
      ∧ (m = 0 → (s.port p).st ≠ .test → Claims.answersOk s (.portTest c p m pat) c fun u => u = s))
    ∧ (∀ p, s.accepts c 0x0205 [(2, p)] → p ≤ 127 → Claims.answersData s (.portStatus c p) c (portStatusImage (s.port p)))
    ∧ (∀ k (e : W64), s.accepts c 0x020A [(2, k), (8, e.toNat)] → k ≤ 895 → fld e 28 2 = 0 → fld e 45 19 = 0 →
      (∀ x ∈ s.net.ecid, x.1 = k ∨ ecidApart e x.2 = true) → 128 ≤ ecidLport e → (s.port (ecidCascade e)).lanes ≠ 0 →
      Claims.answersOk s (.ecidMapSet c k e) c fun u => SMap.get 0 u.net.ecid k = e ∧ u = { s with net := u.net })
    ∧ (∀ w d us kib, s.accepts c 0x020B ([(1, w), (2, d), (2, us)] ++ kib.map fun v => (2, v)) → w ≤ 7 →
      (us = 0 ∨ 100 ≤ us ∧ us ≤ 20000) → regionSum (s.askedRegions w kib) ≤ 256 →
      (∀ p ∈ s.wellPorts w, minRegion (s.port p).mode ≤ SMap.get 0 (s.askedRegions w kib) (p % 16)) →
      (s.askedRegions w kib = (s.well w).regions → Claims.answersOk s (.wellConfig c w d us kib) c fun u =>
        u.well w = { s.well w with holdDomain := some d, holdTimeUs := if us = 0 then 2000 else us }
          ∧ ∀ v, v ≠ w → u.well v = s.well v)
      ∧ (s.askedRegions w kib ≠ (s.well w).regions → s.wellQuiet w = true →
        Claims.answersOk s (.wellConfig c w d us kib) c fun u => (u.well w).regions = s.askedRegions w kib
          ∧ (u.well w).holdDomain = some d ∧ (u.well w).reconfig = false)
      ∧ (s.askedRegions w kib ≠ (s.well w).regions → s.wellQuiet w = false →
        ∃ u, exec (.wellConfig c w d us kib) s = .next u ∧ (u.well w).reconfig = true
          ∧ (u.well w).regions = (s.well w).regions))

/-- The chain is scanned: what the scan before captured is seen at the cages. Discovery of a module goes its steps: presence,
identifier, low power, pages, power-up, ready, and removal; a step that outlasts its time is a fault; its flags are read; a
stuck bus is recovered (R101, R103, R105, R590, R591).

The module commands, and disabling and enabling a well (R102, R106, R107, R555). -/
def Obligations.ModulesAndWells : Prop :=
  (∀ (s : State) k, s.phRuns = true →
     (∀ v, ∃ u, exec (.moduleScan v) s = .next u ∧ u.net.captured = some v ∧ u.net.latched = s.chainOuts
       ∧ (s.net.captured = none → u.net.cages = s.net.cages)
       ∧ ∀ w, s.net.captured = some w → k < 64 → u.cage k = (s.cage k).sees s.dt ((w >>> (4 * k)).setWidth 4))
     ∧ (∀ d, (s.cage k).changeDt = some d → d + 10000000 ≤ s.dt →
       ((s.cage k).phase = .debounceIn → ∃ u, exec (.presenceDebounceEnd k) s = .next u ∧ (u.cage k).phase = .idPoll
         ∧ (u.cage k).resetN = true ∧ (u.cage k).releaseDt = s.dt)
       ∧ ((s.cage k).phase ≠ .debounceIn → ∃ u, exec (.presenceDebounceEnd k) s = .next u ∧ (u.cage k).phase = .absent
         ∧ (u.cage k).resetN = false))
     ∧ (s.pollDue k .idPoll = true →
       (∀ cmis, ∃ u, exec (.moduleIdPoll k none cmis) s = .next u ∧ (u.cage k).phase = .idPoll ∧ (u.cage k).pollDt = s.dt)
       ∧ ∀ b cmis, ∃ u, exec (.moduleIdPoll k (some b) cmis) s = .next u ∧ (u.cage k).ident = b
         ∧ (u.cage k).phase = if cmis then .lowPower else .unsupported)
     ∧ (s.pollDue k .lowPower = true → ∀ low, ∃ u, exec (.moduleLowpwrPoll k low) s = .next u
       ∧ (u.cage k).phase = if low then .pages else .lowPower)
     ∧ (∀ pages, (s.cage k).phase = .pages → ∃ u, exec (.modulePagesRead k pages) s = .next u
       ∧ (u.cage k).pages = some pages
       ∧ (u.cage k).phase = if pages.powerClass ≤ (s.cage k).powerClass then .powerUp else .powerDenied)
     ∧ ((s.cage k).phase = .powerUp → ∃ u, exec (.moduleReady k) s = .next u ∧ (u.cage k).phase = .ready)
     ∧ ((s.cage k).phase = .pages ∨ (s.cage k).phase = .powerUp ∨ ((s.cage k).phase = .idPoll ∨ (s.cage k).phase = .lowPower)
       ∧ (s.cage k).releaseDt + 2000000000 < s.dt →
       ∃ u, exec (.moduleDiscoveryTimeout k) s = .next u ∧ (u.cage k).phase = .fault ∧ (u.cage k).resetN = false)
     ∧ (∀ bs, (s.cage k).intSeen = true → ∃ u, exec (.moduleInt k bs) s = .next u ∧ (u.cage k).intSeen = false)
     ∧ (∀ b, b ≤ 15 → (∃ u, exec (.i2cBusRecovery b true) s = .next u ∧ (SMap.get {} u.net.buses b).stuck = 0)
       ∧ ((SMap.get {} s.net.buses b).stuck = 0 → ∃ u, exec (.i2cBusRecovery b false) s = .next u
         ∧ (SMap.get {} u.net.buses b).stuck = 1 ∧ (SMap.get {} u.net.buses b).firstStuckDt = s.dt)))
  ∧ (∀ (s : State) (c : CmdRef),
     (∀ k b first n m, s.accepts c 0x0206 [(1, k), (1, b), (1, first), (1, n), (1, m)] → k ≤ 63 → b ≤ 15 →
       first + n ≤ 128 → m ≤ 1 → s.busOk k b (decide (m = 1)) = true →
       Claims.answersOk s (.moduleMap c k b first n m) c fun u => (u.cage k).mapped = true ∧ (u.cage k).bus = b
         ∧ (u.cage k).firstLane = first ∧ (u.cage k).lanes = n ∧ (u.cage k).hasModsel = decide (m = 1))
     ∧ (∀ k mode (m : Byte) cls, s.accepts c 0x0207 [(1, k), (1, mode), (1, m.toNat), (1, cls)] → k ≤ 63 → mode ≤ 1 →
       m.toNat ≤ 127 → Claims.answersOk s (.modulePolicy c k mode m cls) c fun u =>
         (u.cage k).auto = decide (mode = 1) ∧ (u.cage k).modeMask = m ∧ (u.cage k).powerClass = cls)
     ∧ (∀ k bank pg off n data, k ≤ 63 → 1 ≤ n → n ≤ 32 → (s.cage k).mapped = true →
       (∀ ans, s.accepts c 0x0208 [(1, k), (1, bank), (1, pg), (1, off), (1, n), (1, 0), bytesField 32 data] → ans ≠ [] →
         ∃ u : State, exec (.moduleAccess c k bank pg off n 0 data ans) s = .next (u.answer c (.data (slice (ans.take n) 0 32))))
       ∧ (s.accepts c 0x0208 [(1, k), (1, bank), (1, pg), (1, off), (1, n), (1, 1), bytesField 32 data] →
         ((s.cage k).auto = false ∨ controlByte pg off n = false) →
         ∀ ans, Claims.answersOk s (.moduleAccess c k bank pg off n 1 data ans) c fun u =>
           u.out.modWrites = s.out.modWrites ++ [(k, bank, pg, off, data.take n)]))
     ∧ (∀ k, s.accepts c 0x0209 [(1, k)] → k ≤ 63 → Claims.answersData s (.moduleStatus c k) c (cageImage (s.cage k)))
     ∧ (∀ w, w ≤ 7 → (s.accepts c 0x0901 [(1, w), (1, 0)] →
         (s.wellOff w = false → ∃ u, exec (.wellEnable c w 0) s = .next u ∧ (u.well w).disabling = some (some c))
         ∧ ((s.well w).disabled = true → Claims.answersOk s (.wellEnable c w 0) c fun u => u = s))
       ∧ (s.accepts c 0x0901 [(1, w), (1, 1)] →
         ((s.well w).disabled = true → Claims.answersOk s (.wellEnable c w 1) c fun u => (u.well w).disabled = false)
         ∧ ((s.well w).disabled = false → Claims.answersOk s (.wellEnable c w 1) c fun u => u = s)))
     ∧ (∀ w, s.wellDrained w = true →
       ((s.well w).disabling = some (some c) → Claims.answersOk s (.wellDisableDone w) c
         fun u => (u.well w).disabled = true ∧ (u.well w).disabling = none)
       ∧ ((s.well w).disabling = some none → ∃ u, exec (.wellDisableDone w) s = .next u ∧ (u.well w).disabled = true
         ∧ (u.well w).disabling = none)))

/-! ### Order -/

/-- DISPATCH and AFFINITY_WAIT_EXPIRY start the packet on the thread chosen for it, which lies in the preferred cluster while
that one is eligible. COMMIT releases nothing while no packet that has executed RETIRE is accepted and the oldest uncommitted
one of its domain (R25); it releases such a packet, logs it, hands its copy to the pump or counts its counter, and moves
COMMIT_SEQ. A packet cuts through; a log record is acknowledged, a log position is uncorrectable, and the commit unit resumes;
a fence's drain expires, and a stalled domain is marked (R27, R194, R196-R198, R211, R214-R216, R238, R244). -/
def Obligations.DispatchAndCommit : Prop :=
  (∀ s p c t, s.order.stopped = false → s.order.list = [p] → s.order.fence = none → s.place p = some (c, t) →
    ((s.pkt p).pref ≠ 0 → (s.pkt p).pref ≤ 12 → s.clusterEligible p ((s.pkt p).pref - 1) (s.avoidCore p) = true →
      c = (s.pkt p).pref - 1 ∧ clusterOf t = c)
    ∧ ((s.tr t).cur = none → ∀ i, (i = .dispatch ∨ (i = .affinityWaitExpiry p ∧ (s.pkt p).pref ≠ 0
        ∧ (s.rc p).listDt + s.order.cfg.affinityWait ≤ s.dt)) → ∃ u, exec i s = .next u ∧ (u.tr t).cur = some p
      ∧ (u.pkt p).st = .run t ∧ u.order.list = [] ∧ (u.rc p).imageVer = (s.cl c).version ∧ ∀ r, u.reg t r = 0))
  ∧ (∀ s lane, (∀ j ∈ s.order.pend, ¬((s.pkt j.pkt).accepted = true ∧ s.oldest j.pkt = true)) →
    exec (.commit lane) s = .next s)
  ∧ (∀ s lane j, lane < 16 → s.order.commitReset = false → s.order.stopped = false → lane ∉ s.order.badLanes →
    s.order.pend = [j] → (s.pkt j.pkt).domain % 16 = lane → s.releasable j = true → SMap.get [] s.order.wal lane = [] →
    j.run.used < 16384 → s.order.fence = none → s.order.marks = [] → j.forced = none → (s.rc j.pkt).ct = false →
    (s.dom (s.pkt j.pkt).domain).voids = [] →
    let rest := fun (u : State) => (u.pkt j.pkt).st = .finished ∧ u.order.pend = []
      ∧ (u.dom (s.pkt j.pkt).domain).commitSeq = (s.dom (s.pkt j.pkt).domain).commitSeq + 1
      ∧ SMap.get [] u.order.wal lane = [⟨j.pkt, (s.pkt j.pkt).domain, (s.pkt j.pkt).seq, j⟩]
    (∀ a k f n b, j.run.journal = [.count a k f n b] → ∃ u, exec (.commit lane) s = .next u ∧ rest u
      ∧ SMap.get {} u.tables.counters k = (SMap.get {} s.tables.counters k).add n
        (b + if f then BitVec.ofNat 64 (s.pkt j.pkt).bytes.length else 0))
    ∧ (∀ a h q ts ops edit, j.run.journal = [.emit a h q false ts none ops edit] →
      let c := s.mkCopy j.pkt j.run.journal a h q ts none ops edit none 0
      s.copyPump c < 8 → ∃ u, exec (.commit lane) s = .next u ∧ rest u
        ∧ (u.pump (s.copyPump c)).arrivals = (s.pump (s.copyPump c)).arrivals ++ [c]))
  ∧ (∀ s p phys c, s.ctCopy p = some (phys, c) → ∃ u, exec (.cutThroughStart p) s = .next u ∧ (u.rc p).ct = true
    ∧ (u.eport phys).now = some ⟨c, [], none, s.dt, s.qns⟩)
  ∧ (∀ s lane r rest, SMap.get [] s.order.wal lane = r :: rest → s.order.commitReset = false →
    (∀ n, (s.pump n).arrivals = []) → ∃ u, exec (.logRecordAck lane) s = .next u ∧ SMap.get [] u.order.wal lane = rest)
  ∧ (∀ s, s.order.commitReset = true → ∃ u, exec .commitResetResume s = .next u ∧ u.order.commitReset = false)
  ∧ (∀ s lane pos, lane < 16 → ∃ u, exec (.walUncorrectable lane pos) s = .next u ∧ u.order.commitFault = true
    ∧ lane ∈ u.order.badLanes ∧ u.order.wal = s.order.wal)
  ∧ (∀ s f e p x, s.order.fence = some f → f.drainEnd = some e → e ≤ s.dt → s.order.pkts = [(p, x)] → x.hasSeq = true →
    x.st = .listed → x.refusal = none → f.covers x.domain = true → s.beforeSwitch f p = true → (s.rc p).ct = false →
    s.isForced p = false →
    ∃ u, exec .fenceDrainExpiry s = .next u ∧ u.order.fence = some { f with drainEnd := none, breaks := f.breaks + 1 }
      ∧ (u.rc p).fenced = true ∧ u.order.cnt.fenceBreak = s.order.cnt.fenceBreak + 1)
  ∧ (∀ s d, s.order.cfg.stallTime ≠ 0 → (s.dom d).live ≠ 0 → (s.dom d).stalled = false →
    (s.dom d).since + 1000000 * s.order.cfg.stallTime ≤ s.dt → ∃ u, exec (.orderStallTimer d) s = .next u
      ∧ (u.dom d).stalled = true ∧ (u.dom d).commitSeq = (s.dom d).commitSeq)

/-- ORDER_CONFIG, VERSION_FENCE, DOMAIN_STATUS and ORDER_STATS (R236, R242-R244). -/
def Obligations.OrderCommands : Prop :=
  ∀ (s : State) (c : CmdRef),
    (∀ aw eh er fd st, s.accepts c 0x0408 [(8, aw), (1, eh), (1, er), (1, fd), (2, st)] → aw ≤ 2000 → eh ≤ 2 → er ≤ 63 →
      1 ≤ fd → fd ≤ 100 → st ≤ 1000 → Claims.answersOk s (.orderConfig c aw eh er fd st) c fun u =>
        u = { s with order := { s.order with cfg := ⟨aw, eh, er, fd, st⟩ } })
    ∧ (∀ v first n (all : Bool), s.accepts c 0x0409 [(2, v), (1, all.toNat), (2, first), (4, n)] →
      (all = false → 1 ≤ n ∧ first + n ≤ 65536) →
      let f0 : Fence := { version := v, first := if all then 0 else first, count := if all then 65536 else n,
                          breaks := 0, drainEnd := none }
      (s.order.fence = none → Claims.answersOk s (.versionFence c v all false first n) c fun u =>
        u = { s with order := { s.order with fence := some f0 } })
      ∧ (∀ f, s.order.fence = some f → f.version = v → f.first = f0.first → f.count = f0.count →
        Claims.answersOk s (.versionFence c v all false first n) c fun u => u = s)
      ∧ (∀ f, s.order.fence = some f → f.version ≠ v → Claims.refusedWith s (.versionFence c v all false first n) c 7))
    ∧ (∀ v first n (all : Bool), s.accepts c 0x0409 [(2, v), (1, all.toNat + 2), (2, first), (4, n)] →
      Claims.answersOk s (.versionFence c v all true first n) c fun u => u.order.fence = none
        ∧ ∀ d, (u.dom d).switch = none)
    ∧ (∀ first n, s.accepts c 0x040A [(2, first), (1, n)] → 1 ≤ n → n ≤ 64 → first + n ≤ 65536 →
      Claims.answersData s (.domainStatus c first n) c ((List.range n).flatMap fun k => s.domainImage (first + k)))
    ∧ (s.accepts c 0x040B [] → Claims.answersData s (.orderStats c) c (wordsBytes s.order.cnt.words))

/-! ### Egress -/

/-- A copy that every check of R414 passes, for a queue with nothing spilled, no aggregate and no tail: its queue is mapped,
its port is not flushing, no member operation, room in the edit store, no limit reached, no WRED. -/
def Claims.enqueues (s : State) (c : Copy) (ops : List EOp) (b : Buf) : Prop :=
  s.queuePort c.queue ≠ 0xFFFF ∧ (s.copyPhys (s.bindCascade c)).isSome = true ∧ s.flushingFor (s.bindCascade c) = false
    ∧ s.copyOps c = some ops ∧ s.buf c.handle = some b ∧ c.member = none
    ∧ (s.pump (s.copyPump (s.bindCascade c))).hasRoom c.pkt c.emit (c.edit.length / 16) = true
    ∧ ((s.queue c.queue).qmax = 0 ∨ s.queueLen (s.queue c.queue) < (s.queue c.queue).qmax) ∧ (s.queue c.queue).wred = 0
    ∧ (s.queue c.queue).records = [] ∧ (s.queue c.queue).tail = [] ∧ (s.queue c.queue).agg = none ∧ c.ct = false

/-- The copy as it stands in its queue: with its length and slots, and the cascade port it is queued for. -/
def Claims.queued (s : State) (c : Copy) (ops : List EOp) (b : Buf) : Copy :=
  { s.bindCascade c with len := editLength b.frame.length ops none, slots := c.edit.length / 16 }

/-- What the pumps do: a copy that arrives, or whose slot comes, joins its queue, and one released later waits in the wheel;
the selected copy starts, or ends where its buffer shows an error; its end puts its frame on the wire and releases its
reference; shapers are brought up to date; pauses end and XOFF is sent again; a hold ends in FLUSH, whose walk ends copies,
and a QUEUE_FLUSH is answered when its queue is empty; a pump's reset ends (R156, R187, R408,
R410, R412-R414, R416, R417, R424, R425, R427). -/
def Obligations.PumpSteps : Prop :=
  (∀ (s : State) n c rest ops b, (s.pump n).resetting = false → Claims.enqueues s c ops b →
    ((s.pump n).arrivals = c :: rest → (∀ r, c.release = some r → r ≤ s.dt) → ∃ u, exec (.copyArrival n) s = .next u
      ∧ (u.pump n).arrivals = rest ∧ (u.queue c.queue).head = (s.queue c.queue).head ++ [Claims.queued s c ops b])
    ∧ (∀ k, (s.pump n).wheel = [(k, c)] → k * 1000 ≤ s.dt → ∃ u, exec (.wheelSlot n) s = .next u
      ∧ (u.pump n).wheel = [] ∧ (u.queue c.queue).head = (s.queue c.queue).head ++ [Claims.queued s c ops b]))
  ∧ (∀ (s : State) n c rest r, (s.pump n).resetting = false → (s.pump n).arrivals = c :: rest → c.release = some r →
    s.dt < r → (s.pump n).wheel.length < 16384 →
    (r ≤ s.dt + 16383000 → ∃ u, exec (.copyArrival n) s = .next u ∧ (u.pump n).arrivals = rest
      ∧ (u.pump n).wheel = (s.pump n).wheel ++ [((r + 999) / 1000, s.bindCascade c)] ∧ u.queue c.queue = s.queue c.queue)
    ∧ (s.dt + 16383000 < r → ∃ u, exec (.copyArrival n) s = .next u ∧ (u.pump n).clamp = (s.pump n).clamp + 1
      ∧ u.queue c.queue = s.queue c.queue))
  ∧ (∀ (s : State) p q c rest b, s.macTakes p = true → (s.select p).2 = some q → (s.queue q).head = c :: rest →
    c.queue = q → s.buf c.handle = some b →
    (∀ f, b.broken = none → s.rewrite p c b.frame (b.cls = 3) s.dt s.qns = .frame f →
      ∃ u l, exec (.pumpSelect p none) s = .next u ∧ (u.queue q).head = rest ++ l
        ∧ (u.eport p).now = some ⟨c, f, poisonPlace b f.length, s.dt, s.qns⟩)
    ∧ (∀ k, ∃ u l, exec (.pumpSelect p (some (.data k))) s = .next u ∧ (u.queue q).head = rest ++ l
        ∧ (u.eport p).now = none ∧ (u.queue q).drops = (s.queue q).drops + 1))
  ∧ (∀ (s : State) p n, (s.eport p).now = some n → n.copy.ct = false → s.testing p 4 = false →
    (n.poisonAt = none → ∃ u, exec (.txComplete p) s = .next u ∧ (u.eport p).now = none
      ∧ u.out.wire = s.out.wire ++ [⟨p, n.bytes, true, n.started⟩]
      ∧ (∀ b, s.buf n.copy.handle = some b → 2 ≤ b.count → u.buf n.copy.handle = some { b with count := b.count - 1 })
      ∧ (n.copy.hostTx = none → (u.rc n.copy.pkt).sent = (s.rc n.copy.pkt).sent + 1))
    ∧ (∀ k, n.poisonAt = some k → ∃ u, exec (.txComplete p) s = .next u ∧ (u.eport p).now = none
      ∧ u.out.wire = s.out.wire ++ [⟨p, n.bytes.take k, false, n.started⟩]
      ∧ (u.port p).mac.stomps = (s.port p).mac.stomps + 1))
  ∧ (∀ (s : State) p g, s.portGroups p = [g] → ∃ u, exec (.shaperTokensReturn p) s = .next u ∧ ∀ k, k < 8 →
    let x := (s.queue (8 * g + k)).shaper
    let y := (u.queue (8 * g + k)).shaper
    (x.rate = 0 → y = x) ∧ (x.rate ≠ 0 → y.rate = x.rate ∧ y.burst = x.burst ∧ y.last = s.dt
      ∧ y.tokens = min (x.tokens + ((x.rate * (s.dt - x.last) / 15625 : Nat) : Int)) ((x.burst * 512 : Nat) : Int)))
  ∧ (∀ (s : State) p k, SMap.get 0 (s.eport p).pauseEnd k ≠ 0 → SMap.get 0 (s.eport p).pauseEnd k ≤ s.dt →
    ∃ u, exec (.pauseExpiry p k) s = .next u ∧ SMap.get 0 (u.eport p).pauseEnd k = 0)
  ∧ (∀ (s : State) p k,
    let cls := if k = 8 then 8 else (s.port p).cfg.classMap.toNat / 8 ^ k % 8
    SMap.get 0 (s.eport p).xoff cls ≠ 0 → SMap.get 0 (s.eport p).xoff cls + 0x8000 * 512 / s.portRate p ≤ s.dt + 1 →
    ∃ u m, exec (.pfcResend p k) s = .next u ∧ u.out.fcTx = s.out.fcTx ++ [(p, m, 0xFFFF)] ∧ (k = 8 → m = 0x100)
      ∧ SMap.get 0 (u.eport p).xoff cls = s.dt + 1)
  ∧ (∀ (s : State) p, (s.eport p).phase = .hold → (s.eport p).downPolicy = 0 →
    (s.eport p).downDt + 1000000 * (s.eport p).holdTime ≤ s.dt → ∃ u, exec (.holdTimeExpiry p) s = .next u
      ∧ (u.eport p).phase = .flush)
  ∧ (∀ (s : State) n q c rest p, (s.pump n).resetting = false →
    (((s.egress.queues.filter fun e => s.pumpOf e.1 = n).map Prod.fst).find? fun q => !(s.queue q).empty
      && (s.flushing q || (s.queue q).flush.isSome)) = some q → (s.queue q).head = c :: rest → c.queue = q →
    s.queuePhys q = some p → (s.eport p).phase = .flush → (s.queue q).flush = none →
    ∃ u, exec (.flushWalk n) s = .next u ∧ (u.queue q).drops = (s.queue q).drops + 1
      ∧ (u.eport p).flushed = (s.eport p).flushed + 1)
  ∧ (∀ (s : State) n q x c d, (s.pump n).resetting = false → s.egress.queues = [(q, x)] → s.pumpOf q = n → x.head = [c] →
    c.queue = q → x.records = [] → x.agg = none → x.tail = [] → s.flushing q = false → x.flush = some d →
    ∃ u : State, exec (.flushWalk n) s = .next (u.answer d (.data (leBytes 4 (x.flushed + 1)))) ∧ (u.queue q).head = []
      ∧ (u.queue q).flush = none)
  ∧ (∀ (s : State) n, (s.pump n).resetting = true → ∃ u, exec (.pumpResetDone n) s = .next u ∧ (u.pump n).resetting = false
    ∧ (u.pump n).arrivals = (s.pump n).arrivals)

/-- A queue above SPILL_ON moves its first tail packet to its open aggregate, or counts the deferral where the bandwidth is
used up; the aggregate is written as records in cistern blocks, and its acknowledged records join the spill segment; below
REFILL_LOW the next records are read, or an aggregate not yet written gives its packets back, and a record read joins the
head in cells of the refill reserve; the cistern's shrink, sized pools and the basin's rebuild (R175, R176, R178-R186,
R189). -/
def Obligations.SpillAndRefill : Prop :=
  (∀ (s : State) q c rest, (s.queue q).tail = c :: rest → (s.queue q).spillEn = true →
    (s.queue q).spillOn < s.cellsOf ((s.queue q).head ++ (s.queue q).tail) →
    (∀ a, (s.queue q).agg = some a → aggBytes a < 4064) → (s.pump (s.pumpOf q)).resetting = false →
    (s.spillSpent = true → ∃ u, exec (.spillChoose q) s = .next u ∧ (u.pump (s.pumpOf q)).deferBw
      = (s.pump (s.pumpOf q)).deferBw + BitVec.ofNat 64 (s.copyCells c) ∧ u.queue q = s.queue q)
    ∧ (s.spillSpent = false → s.freeBlock.isSome = true →
      ((s.queue q).agg = none → s.openAggs (s.pumpOf q) < 64) → ∃ u a, exec (.spillChoose q) s = .next u
        ∧ a = (s.queue q).agg.getD ⟨[], s.dt, false, []⟩ ∧ (u.queue q).tail = rest
        ∧ (u.queue q).agg = some { a with copies := a.copies ++ [c] } ∧ (u.queue q).head = (s.queue q).head))
  ∧ (∀ (s : State) q n c o w f b, (s.queue q).agg = some ⟨[c], o, false, []⟩ → s.pumpOf q = n → o + 2000 ≤ s.dt →
    (s.queue q).records = [] → (s.buf c.handle).bind Buf.broken = none → s.spillCopy c = (w, .frame f) →
    f.length ≤ 4048 → s.freeBlock = some b → ∃ u r, exec (.aggregateTimer n ⟨q, []⟩) s = .next u ∧ (u.queue q).agg = none
      ∧ (u.queue q).writing = (s.queue q).writing ++ [{ copies := [], opened := o, written := true, recs := [r] }]
      ∧ r.copy = { w with handle := cisternHandle b 0 } ∧ r.bytes = f ∧ r.blocks = [b] ∧ r.basin = c.handle
      ∧ b ∈ u.cistern.usedBlocks)
  ∧ (∀ (s : State) q n a rest, (s.queue q).writing = a :: rest → s.pumpOf q = n →
    s.spillBusy true (a.recs.flatMap (·.blocks)) = false → ∃ u, exec (.aggregateWriteAck n q) s = .next u
      ∧ (u.queue q).writing = rest ∧ (u.queue q).spill = (s.queue q).spill ++ a.recs)
  ∧ (∀ (s : State) q, s.cellsOf (s.queue q).head < (s.queue q).refillLow → (s.pump (s.pumpOf q)).resetting = false →
    (∀ r rest, (s.queue q).spill = r :: rest → recCells r ≤ s.refillRoom (s.pumpOf q) →
      ∃ u l, exec (.refillRead q) s = .next u ∧ l = fitRecs (r :: rest) r.blocks.head? (s.refillRoom (s.pumpOf q)) ∧ l ≠ []
        ∧ (u.queue q).refilling = (s.queue q).refilling ++ [l] ∧ (u.queue q).spill = (r :: rest).drop l.length
        ∧ (u.queue q).head = (s.queue q).head)
    ∧ (∀ a, (s.queue q).records = [] → (s.queue q).agg = some a → ∃ u, exec (.refillRead q) s = .next u
        ∧ (u.queue q).head = (s.queue q).head ++ a.copies ++ (s.queue q).tail ∧ (u.queue q).agg = none
        ∧ (u.queue q).tail = []))
  ∧ (∀ (s : State) q r later h hs v g, (s.queue q).refilling = [r] :: later → s.spillBusy false r.blocks = false →
    s.headerPoison r.blocks = false → s.recPoison r = none →
    (s.updQueue q fun x => { x with refilling := later }).allocCells (8 + s.pumpOf q) [entRefill (s.pumpOf q)] (recCells r) []
      = (v, some (h :: hs), g) → ∃ u l, exec (.refillReadDone q none) s = .next u ∧ (u.queue q).refilling = later
      ∧ (u.queue q).head = (s.queue q).head ++ [{ r.copy with handle := h }] ++ l
      ∧ (u.buf h).map (fun b => (b.cls, b.id, b.data)) = some (2, s.pumpOf q, r.bytes))
  ∧ (∀ (s : State), s.cistern.shrinking = true → (∀ b ∈ s.cistern.usedBlocks, b < s.cistern.limit) →
    (∀ c, s.cistern.shrink = some c → Claims.answersOk s .cisternShrinkDone c fun u => u.cistern.shrinking = false
      ∧ u.cistern.shrink = none ∧ u.cistern.sizeGib = s.cistern.limit / 262144)
    ∧ (s.cistern.shrink = none → ∃ u, exec .cisternShrinkDone s = .next u ∧ u.cistern.shrinking = false
      ∧ u.cistern.sizeGib = s.cistern.limit / 262144))
  ∧ (∀ (s : State) cls len p, 7 ≤ cls → cls ≤ 9 → poolFor len = some p →
    poolFree (SMap.get [] s.basin.pools p) < poolSize p → ∃ u, exec (.sizedPoolAlloc cls len) s = .next u
      ∧ SMap.get [] u.basin.pools p
        = SMap.ins (SMap.get [] s.basin.pools p) (poolFree (SMap.get [] s.basin.pools p)) { cls := cls })
  ∧ (∀ (s : State), s.phRuns = true → s.basin.rebuild = true →
    (s.basin.rebuildWait = true → s.basin.rebuildStart + 1000000 ≤ s.dt → ∃ u, exec .rebuildRetry s = .next u
      ∧ u.basin.rebuildStart = s.dt
      ∧ (poolFree (SMap.get [] s.basin.pools 2) < poolSize 2 → u.basin.rebuildWait = false))
    ∧ (s.basin.rebuildWait = false → ∃ u, exec .basinRebuildDone s = .next u ∧ u.basin.rebuild = false
      ∧ u.basin.orphans = [] ∧ u.basin.fenced = []))

/-- The buffer commands: quotas, spill settings, the cistern's size, reclaim and status, whose reading restarts the peaks
(R161, R173, R178, R181, R192, R193). -/
def Obligations.BufferCommands : Prop :=
  ∀ (s : State) (c : CmdRef),
    (∀ k ix lo hi al, s.accepts c 0x0700 [(1, k), (2, ix), (4, lo), (4, hi), (1, al)] → k ≤ 5 → ix < entCount k →
      lo ≤ 1048575 → hi ≤ 1048575 → al ≤ 12 → (k = 5 → al = 0) → (hi = 0 ∨ lo ≤ hi) →
      s.minSum - (s.ent (k * 65536 + ix)).min + lo ≤ 425984 → Claims.answersOk s (.bufferQuotaSet c k ix lo hi al) c fun u =>
        (u.ent (k * 65536 + ix)).min = lo ∧ (u.ent (k * 65536 + ix)).max = hi ∧ (u.ent (k * 65536 + ix)).alpha = al
          ∧ (u.ent (k * 65536 + ix)).used = (s.ent (k * 65536 + ix)).used)
    ∧ (∀ q en on low, s.accepts c 0x0701 [(2, q), (1, en), (4, on), (2, low)] → en ≤ 1 → 256 ≤ on → on ≤ 1048575 → 16 ≤ low →
      Claims.answersOk s (.queueSpillSet c q en on low) c fun u =>
        u.queue q = { s.queue q with spillEn := en = 1, spillOn := on, refillLow := low } ∧ u = { s with egress := u.egress })
    ∧ (∀ g, s.accepts c 0x0702 [(1, g)] → 8 ≤ g → g ≤ 64 → s.cistern.shrinking = false →
      (s.cistern.sizeGib < g → (g - s.cistern.sizeGib) * 1073741824 ≤ s.cisternRoom →
        Claims.answersOk s (.cisternConfig c g) c fun u => u.cistern.sizeGib = g ∧ u.cistern.limit = blocksOfGib g)
      ∧ (g = s.cistern.sizeGib → Claims.answersOk s (.cisternConfig c g) c fun u => u = s)
      ∧ (g < s.cistern.sizeGib → Claims.goesOn s (.cisternConfig c g) c fun u => u.cistern.limit = blocksOfGib g
        ∧ u.cistern.shrinking = true ∧ u.cistern.shrink = some c ∧ u.cistern.sizeGib = s.cistern.sizeGib))
    ∧ (∀ mode cl (hs : List W32), s.accepts c 0x0703 ([(1, mode), (1, cl), (2, hs.length)] ++ hs.map fun h => (4, h.toNat)) →
      mode ≤ 1 → (mode = 1 → cl ≤ 11) → ∃ (u : State) (n m : Nat),
        exec (.bufferReclaim c mode cl hs) s = .next (u.answer c (.data (layout [(4, n), (4, m)]))))
    ∧ (∀ (h : W32) b, s.accepts c 0x0703 [(1, 0), (1, 0), (2, 1), (4, h.toNat)] → h.toNat < 524288 →
      s.buf h.toNat = some b → b.cls = 3 → b.held = true → b.prov = none →
      s.tooLong c (.data (layout [(4, 1), (4, 0)])) = false →
      ∃ u : State, exec (.bufferReclaim c 0 0 [h]) s = .next (u.answer c (.data (layout [(4, 1), (4, 0)])))
        ∧ u.buf h.toNat = if b.count = 0 then none else some { b with held := false })
    ∧ (s.accepts c 0x0704 [] → ∃ u : State, exec (.bufferStatus c) s = .next (u.answer c (.data s.bufferImage))
      ∧ (s.tooLong c (.data s.bufferImage) = false → ∀ k, (u.ent k).peak = (s.ent k).used ∧ (u.ent k).used = (s.ent k).used))

/-- The egress commands: groups, queues, ports, WRED, thresholds, multicast, flush, sampling and the counters (R404-R406,
R415, R417, R418, R425, R428, R429). -/
def Obligations.EgressCommands : Prop :=
  ∀ (s : State) (c : CmdRef),
    (∀ g p w (sp : Byte) rate burst, s.accepts c 0x0705 [(2, g), (2, p), (1, w), (1, sp.toNat), (4, rate), (4, burst)] →
      g ≤ 8191 → (p ≤ 1023 ∨ p = 0xFFFF) → 1 ≤ w → w ≤ 255 → 64 ≤ burst → burst ≤ 16777215 →
      (p = (s.group g).port ∨ s.groupHolds g = false) → Claims.answersOk s (.queueGroupSet c g p w sp rate burst) c fun u =>
        (u.group g).port = p ∧ (u.group g).weight = w ∧ (u.group g).spMask = sp ∧ (u.group g).shaper.rate = rate
          ∧ (u.group g).shaper.burst = burst ∧ u = { s with egress := u.egress })
    ∧ (∀ q qm w wr rate burst, s.accepts c 0x0706 [(2, q), (4, qm), (1, w), (1, wr), (4, rate), (4, burst)] → q ≤ 65535 →
      qm ≤ 1048575 → 1 ≤ w → w ≤ 255 → wr ≤ 255 → 64 ≤ burst → burst ≤ 16777215 →
      Claims.answersOk s (.queueConfig c q qm w wr rate burst) c fun u => (u.queue q).qmax = qm ∧ (u.queue q).weight = w
        ∧ (u.queue q).wred = wr ∧ (u.queue q).shaper.rate = rate ∧ (u.queue q).shaper.burst = burst
        ∧ (u.queue q).head = (s.queue q).head ∧ u = { s with egress := u.egress })
    ∧ (∀ p rate burst (oh : Int) dp ht (pfc : BitVec 24), s.accepts c 0x0707 [(2, p), (4, rate), (4, burst), (1, ofInt 8 oh),
        (1, dp), (2, ht), (4, pfc.toNat)] → p ≤ 1023 → 64 ≤ burst → burst ≤ 16777215 → -32 ≤ oh → oh ≤ 63 → dp ≤ 2 →
      ht ≤ 60000 → Claims.answersOk s (.egressPortSet c p rate burst oh dp ht pfc) c fun u => (u.eport p).overhead = oh
        ∧ (u.eport p).downPolicy = dp ∧ (u.eport p).holdTime = ht ∧ (u.eport p).pfcMap = pfc
        ∧ (u.eport p).shaper.rate = rate ∧ (u.eport p).shaper.burst = burst ∧ (u.eport p).now = (s.eport p).now)
    ∧ (∀ n lo hi pm w ecn km, s.accepts c 0x0708 [(1, n), (4, lo), (4, hi), (1, pm), (1, w), (1, ecn), (4, km)] → 1 ≤ n →
      n ≤ 255 → lo < hi → hi ≤ 1048575 → pm ≤ 255 → w ≤ 15 → ecn ≤ 1 →
      Claims.answersOk s (.wredProfileSet c n lo hi pm w ecn km) c fun u =>
        SMap.get {} u.egress.wreds n = ⟨lo, hi, pm, w, ecn = 1, km⟩ ∧ u = { s with egress := u.egress })
    ∧ (∀ p k off on, s.accepts c 0x0709 [(1, p), (1, k), (4, off), (4, on)] → p ≤ 127 → k ≤ 8 → off ≤ 1048575 →
      (off = 0 ∨ on < off) → Claims.answersOk s (.pfcThresholdSet c p k off on) c fun u =>
        SMap.get 0 (u.eport p).thrOff k = off ∧ SMap.get 0 (u.eport p).thrOn k = on)
    ∧ (∀ g (l : List W32), s.accepts c 0x070A ([(2, g), (1, l.length), (1, 0)] ++ l.map fun m => (4, m.toNat)) → g ≤ 16383 →
      l.length ≤ 255 → (∀ m ∈ l, m.toNat < 0x20000000) → s.poolUsed + l.length ≤ 131072 →
      Claims.answersOk s (.mcGroupSet c g l) c fun u => SMap.get [] u.egress.mcGroups g = l ∧ u = { s with egress := u.egress })
    ∧ (∀ k (slot : BitVec 128), s.accepts c 0x070B [(2, k), (16, slot.toNat)] → k ≤ 4094 → (memberEdit slot).isSome = true →
      Claims.answersOk s (.mcMemberOpSet c k slot) c fun u => SMap.get 0 u.egress.memberOps k = slot
        ∧ u = { s with egress := u.egress })
    ∧ (∀ q, s.accepts c 0x070C [(1, 0), (2, q)] → q ≤ 65535 → (s.queue q).flush = none →
      ((s.queue q).empty = true → Claims.answersData s (.queueFlush c 0 q) c (leBytes 4 0))
      ∧ ((s.queue q).empty = false → Claims.goesOn s (.queueFlush c 0 q) c fun u => (u.queue q).flush = some c
        ∧ (u.queue q).head = (s.queue q).head ∧ u = { s with egress := u.egress }))
    ∧ (∀ g, s.accepts c 0x070C [(1, 1), (2, g)] → g ≤ 8191 → (∀ q ∈ groupQueues g, (s.queue q).flush = none) →
      ((∀ q ∈ groupQueues g, (s.queue q).empty = true) → Claims.answersData s (.queueFlush c 1 g) c (leBytes 4 0))
      ∧ ((∃ q ∈ groupQueues g, (s.queue q).empty = false) → Claims.goesOn s (.queueFlush c 1 g) c fun u =>
        (∀ q ∈ groupQueues g, (u.queue q).flush = some c) ∧ u = { s with egress := u.egress }))
    ∧ (∀ k rate h r, s.accepts c 0x070D [(1, k), (1, rate), (1, h), (1, r)] → 2 ≤ k → k ≤ 10 → (rate ≤ 20 ∨ rate = 255) →
      h ≤ 2 → r ≤ 63 → Claims.answersOk s (.sumpConfig c k rate h r) c fun u =>
        SMap.get {} u.egress.samples k = { rate := rate, host := h, ring := r } ∧ u = { s with egress := u.egress })
    ∧ (∀ q n, s.accepts c 0x070E [(2, q), (2, n)] → q + n ≤ 65536 → Claims.answersData s (.queueStats c q n) c
      (layout (((List.range n).map (q + ·)).flatMap s.queueFields)))
    ∧ (s.accepts c 0x070F [] → Claims.answersData s (.sumpStats c) c s.sumpImage)

/-! ### The host interface -/

/-- An answer in the inline form is recorded as the command's response, with its status, its result and DETAIL, once; a
second one changes nothing. A background command is marked as started (R485, R489, R498).

A command entry with the next sequence number is accepted and waits in the journal; one outside the order, or a repeated
one, leaves the journal and CSEQ_ACCEPTED as they are (R483, R485, R490, R495). -/
def Obligations.CommandProtocol : Prop :=
  (∀ (s : State) (c : CmdRef) (j : JCmd), s.jcmd c = some j → j.resp = none → s.dci.st = .ready → j.e.flags.getLsbD 1 = false → j.dups = [] →
     (∀ st d (r : List Byte), r.length ≤ 40 → ∃ j1, (s.answer c (.reply st d r [])).jcmd c = some j1
       ∧ j1.resp = some ⟨st, BitVec.ofNat 32 d, slice r 0 40, false, j.rerun⟩
       ∧ ∀ b, (s.answer c (.reply st d r [])).answer c (.reply b 0 [] []) = s.answer c (.reply st d r []))
     ∧ (∃ j1, (s.answer c .later).jcmd c = some j1 ∧ j1 = { j with started := true }))
  ∧ (∀ (s : State) (f : HostFn) (e : CmdEntry), s.canFetch f = true →
     (∀ r, e.cseq = (s.fn f).cseq + 1 → s.jcmd ⟨f, e.cseq⟩ = none → catOf e.opcode = some r → (s.mine f = true ∨ r.need = .read) →
       wellFormedEntry r e = true → ∃ u j, exec (.commandFetch f e) s = .next u ∧ (u.fn f).cseq = e.cseq
         ∧ (u.fn f).cmdHead = (s.fn f).cmdHead + 1 ∧ u.jcmd ⟨f, e.cseq⟩ = some j ∧ j.e = e ∧ j.resp = none ∧ j.started = false)
     ∧ (2 ≤ (e.cseq - (s.fn f).cseq).toNat → (e.cseq - (s.fn f).cseq).toNat < 2 ^ 32 - 255 →
       ∃ u, exec (.commandFetch f e) s = .next u ∧ u.dci.journal = s.dci.journal ∧ (u.fn f).cseq = (s.fn f).cseq
         ∧ (u.fn f).cmdHead = (s.fn f).cmdHead + 1)
     ∧ (∀ j r, e.cseq = (s.fn f).cseq → s.jcmd ⟨f, e.cseq⟩ = some j → j.resp = some r →
       ∃ u, exec (.commandFetch f e) s = .next u ∧ u.dci.journal = s.dci.journal ∧ (u.fn f).cseq = (s.fn f).cseq
         ∧ (u.fn f).cmdHead = (s.fn f).cmdHead + 1))

/-- The registers of a function that a host writes: doorbells, heads and ESEQ_ACKED, ring enables, the heartbeat, the
interrupt map, the punt rings and their frames; a link trains and a function is reset; and what a host reads: identity,
rings, telemetry, all ones for a read of another width or of an unassigned offset (R16, R19, R475-R479, R481, R482, R492,
R501, R502). -/
def Obligations.HostRegisters : Prop :=
  (∀ (s : State) (f : HostFn), s.fns.contains f = true →
    (∀ down, ∃ u, exec (.functionReset f down) s = .next u ∧ (u.fn f).linkUp = ((s.fn f).linkUp && !down)
      ∧ (u.fn f).cmdBase = (s.fn f).cmdBase &&& ~~~(1 : W64) ∧ (u.fn f).rspBase = (s.fn f).rspBase &&& ~~~(1 : W64)
      ∧ (u.fn f).evtBase = (s.fn f).evtBase &&& ~~~(1 : W64) ∧ (u.fn f).cseq = (s.fn f).cseq ∧ u.dci.lease = s.dci.lease)
    ∧ (∃ u, exec (.hostLinkUp f) s = .next u ∧ u.fn f = { s.fn f with linkUp := true })
    ∧ (∀ k, (s.fn f).intWait.contains k = true → SMap.get 0 (s.fn f).intGap k ≤ s.dt →
      ∃ u, exec (.intModExpiry f k) s = .next u ∧ (u.fn f).intWait.contains k = false))
  ∧ ∀ (s : State) (f : HostFn), s.reach f = true →
    (∀ v, ∃ u, exec (.cmdDoorbell f v) s = .next u ∧ u.fn f = { s.fn f with cmdTail := v }
      ∧ exec (.registerWrite f 0 0x1010 8 (v.setWidth 64)) s = .next u)
    ∧ (∀ v, ∃ u, exec (.rspHeadWrite f v) s = .next u ∧ u.fn f = { s.fn f with rspHead := v }
      ∧ exec (.registerWrite f 0 0x1038 8 (v.setWidth 64)) s = .next u)
    ∧ (∀ v : W32, (v - (s.fn f).eseqAcked).toNat ≤ ((s.fn f).eseqIssued - (s.fn f).eseqAcked).toNat → (s.fn f).lost = 0 →
      ∃ u, exec (.eseqAckWrite f v) s = .next u ∧ (u.fn f).eseqAcked = v ∧ (u.fn f).eseqIssued = (s.fn f).eseqIssued
        ∧ exec (.registerWrite f 0 0x1060 8 (v.setWidth 64)) s = .next u)
    ∧ (∀ v : W32, ((s.fn f).eseqIssued - (s.fn f).eseqAcked).toNat < (v - (s.fn f).eseqAcked).toNat →
      exec (.eseqAckWrite f v) s = .next s)
    ∧ (∀ r (v : W64), r < 3 → v.getLsbD 0 = true → ((s.fn f).ringBase r).getLsbD 0 = false →
      ∃ u, exec (.dciRingEnable f r v) s = .next u ∧ exec (.registerWrite f 0 (0x1000 + 0x20 * r) 8 v) s = .next u
        ∧ (u.fn f).ringBase r = v &&& ~~~(0x3E : W64) ∧ (r = 0 → (u.fn f).cmdHead = 0 ∧ (u.fn f).cmdTail = 0)
        ∧ (r = 1 → (u.fn f).rspHead = 0 ∧ (u.fn f).rspTail = 0 ∧ (u.fn f).phase = true))
    ∧ (∀ r, r < 3 → ∃ u, exec (.dciRingDisable f r) s = .next u
      ∧ (u.fn f).ringBase r = (s.fn f).ringBase r &&& ~~~(1 : W64))
    ∧ (∀ g, s.dci.lease.frozen = none → ∃ u, exec (.leaseHeartbeatWrite f g) s = .next u
      ∧ exec (.registerWrite f 0 0x28 8 (g.setWidth 64)) s = .next u
      ∧ u.dci.lease = if s.mine f = true ∧ g = s.dci.lease.gen
          then { s.dci.lease with deadline := s.dt + 1000000 * s.dci.lease.timeoutMs }
          else { s.dci.lease with ignored := s.dci.lease.ignored + 1 })
    ∧ (∀ g n, s.dci.lease.frozen = some n → s.mine f = true → g = s.dci.lease.gen →
      ∃ u, exec (.leaseHeartbeatWrite f g) s = .next u
        ∧ u.dci.lease = { s.dci.lease with frozen := some (1000000 * s.dci.lease.timeoutMs) })
    ∧ (∀ tx r (v : W64), r < 64 → v.getLsbD 0 = true → (s.puntRing f tx r).base.getLsbD 0 = false →
      ∃ u, exec (.puntRingEnable f tx r v) s = .next u ∧ (u.puntRing f tx r).base = v &&& ~~~(0x1E : W64)
        ∧ (u.puntRing f tx r).head = 0 ∧ (u.puntRing f tx r).tail = 0)
    ∧ (∀ tx r, r < 64 → (s.puntRing f tx r).base.getLsbD 0 = true → ∃ u, exec (.puntRingDisable f tx r) s = .next u
      ∧ (u.puntRing f tx r).base = (s.puntRing f tx r).base &&& ~~~(1 : W64))
    ∧ (∀ r (v : BitVec 16), r < 64 → (∃ u, exec (.puntRxPost f r v) s = .next u
        ∧ u.puntRing f false r = { s.puntRing f false r with tail := v }
        ∧ exec (.registerWrite f 2 (4096 * r) 8 (v.setWidth 64)) s = .next u)
      ∧ (∃ u, exec (.puntTxDoorbell f r v) s = .next u ∧ u.puntRing f true r = { s.puntRing f true r with tail := v }
        ∧ exec (.registerWrite f 2 (0x40000 + 4096 * r) 8 (v.setWidth 64)) s = .next u))
    ∧ (∀ r c rest bufs, (s.rxRing f r).waiting = c :: rest → (s.rxRing f r).base.getLsbD 0 = true →
      bufs.length ≤ (s.rxRing f r).posted → bufs.all bufOk = true → fitsBufs c.bytes.length bufs = true →
      ∃ u, exec (.puntRxDeliver f r bufs) s = .next u ∧ u.out.punted = s.out.punted ++ [(f, r, c.bytes)]
        ∧ (u.rxRing f r).waiting = rest ∧ (u.rxRing f r).done = (s.rxRing f r).done + BitVec.ofNat _ bufs.length)
    ∧ (∀ r len mode ts q frame, r < 64 → (s.puntRing f true r).base.getLsbD 0 = true → (s.puntRing f true r).posted ≠ 0 →
      frame.length = len → ∃ u, exec (.puntTxFetch f r len mode ts q frame) s = .next u
        ∧ (u.puntRing f true r).done = (s.puntRing f true r).done + 1
        ∧ (u.puntRing f true r).head = BitVec.ofNat 16
          (((s.puntRing f true r).head.toNat % (s.puntRing f true r).entries + 1) % (s.puntRing f true r).entries))
    ∧ (∀ r len ts q frame v h hs g, r < 64 → (s.puntRing f true r).base.getLsbD 0 = true → (s.puntRing f true r).posted ≠ 0 →
      frame.length = len → badDesc len 0 q = false →
      s.allocCells 17 [entHost f] ((len + 4 + 255) / 256) [] = (v, some (h :: hs), g) →
      let c := hostCopy s f (r * 65536 + (s.puntRing f true r).head.toNat % (s.puntRing f true r).entries) q h (len + 4) ts
      ∃ u, exec (.puntTxFetch f r len 0 ts q frame) s = .next u
        ∧ (u.pump (s.copyPump c)).arrivals = (s.pump (s.copyPump c)).arrivals ++ [c])
    ∧ (∀ bar off size v, (size ≠ 8 ∨ off % 8 ≠ 0 ∨ (bar = 0 ∧ off < 0x28)) →
      exec (.registerWrite f bar off size v) s = .next s)
    ∧ (∀ k v, (k < 3 ∨ (64 ≤ k ∧ k < 192)) → ∃ u, exec (.registerWrite f 0 (0x2000 + 8 * k) 8 v) s = .next u
      ∧ SMap.get 0 (u.fn f).intMap k = v &&& 0xFFFF013F ∧ u.hostRead f 0 (0x2000 + 8 * k) 8 = (u, some (v &&& 0xFFFF013F)))
    ∧ (∀ bar off size, size ≠ 8 ∨ off % 8 ≠ 0 ∨ (bar = 0 ∧ 0x30 ≤ off ∧ off < 0x1000) →
      s.hostRead f bar off size = (s, some ones64))
    ∧ s.hostRead f 0 0x00 8 = (s, some (s.devId f)) ∧ s.hostRead f 0 0x08 8 = (s, some s.revReg)
    ∧ s.hostRead f 0 0x10 8 = (s, some 2) ∧ s.hostRead f 0 0x18 8 = (s, some s.deviceState)
    ∧ s.hostRead f 0 0x20 8 = (s, some (s.leaseState f)) ∧ s.hostRead f 0 0x28 8 = (s, some 0)
    ∧ (∀ r, r < 3 → s.hostRead f 0 (0x1000 + 0x20 * r) 8 = (s, some ((s.fn f).ringBase r))
      ∧ s.hostRead f 0 (0x1008 + 0x20 * r) 8 = (s, some (if r = 2 then 1024 else 256)))
    ∧ s.hostRead f 0 0x1010 8 = (s, some ((s.fn f).cmdTail.setWidth 64))
    ∧ s.hostRead f 0 0x1060 8 = (s, some ((s.fn f).eseqAcked.setWidth 64))
    ∧ s.hostRead f 0 0x103000 8 = (s, some s.basinStatus) ∧ s.hostRead f 0 0x107000 8 = (s, some s.hbm.status)

/-- The lease and the other control commands: a free or expired lease goes to the claimer with the next GEN, its holder's
claim renews it, one held by the other function is BUSY; release by the holder and by another, expiry and configuration;
NOP, DEVICE_INFO and DEVICE_RESET (R479, R492, R493, R527). -/
def Obligations.LeaseAndControl : Prop :=
  ∀ (s : State) (c : CmdRef),
    (s.accepts c 0x0100 [] → exec (.nopC c) s = .next (s.answer c .ok))
    ∧ (s.accepts c 0x0101 [] → Claims.answersData s (.deviceInfo c) c (s.deviceImage c.fn))
    ∧ (s.accepts c 0x0102 [] →
      ((s.dci.lease.holder = none ∨ s.dci.lease.expired = true) →
        let a := Ans.data (s.claimResult (s.dci.lease.gen + 1) s.dci.lease.holder)
        s.tooLong c a = false → ∃ u : State, exec (.leaseClaim c) s = .next (u.answer c a)
        ∧ u.dci.lease.holder = some c.fn ∧ u.dci.lease.gen = s.dci.lease.gen + 1 ∧ u.dci.lease.expired = false
        ∧ u.dci.lease.deadline = s.dt + 1000000 * s.dci.lease.timeoutMs)
      ∧ (s.dci.lease.holder = some c.fn → s.dci.lease.expired = false →
        let a := Ans.data (s.claimResult s.dci.lease.gen s.dci.lease.holder)
        s.tooLong c a = false → ∃ u : State, exec (.leaseClaim c) s = .next (u.answer c a)
        ∧ u.dci.lease = { s.dci.lease with deadline := s.dt + 1000000 * s.dci.lease.timeoutMs })
      ∧ (∀ g, s.dci.lease.holder = some g → s.dci.lease.expired = false → g ≠ c.fn → Claims.refusedWith s (.leaseClaim c) c 7))
    ∧ (s.accepts c 0x0103 [] →
      (s.mine c.fn = true → Claims.answersOk s (.leaseRelease c) c fun u =>
        u.dci.lease.holder = none ∧ u.dci.lease.gen = s.dci.lease.gen)
      ∧ (s.mine c.fn = false → Claims.answersOk s (.leaseRelease c) c fun u => u = s))
    ∧ (∀ ms, s.accepts c 0x0104 [(4, ms)] →
      (1000 ≤ ms → ms ≤ 60000 → Claims.answersOk s (.leaseConfig c ms) c fun u =>
        u.dci.lease.timeoutMs = ms ∧ u.dci.lease.holder = s.dci.lease.holder)
      ∧ (ms < 1000 ∨ 60000 < ms → Claims.refusedWith s (.leaseConfig c ms) c 4))
    ∧ (s.dci.lease.holder.isSome = true → s.dci.lease.expired = false → s.dci.lease.frozen = none →
      s.dci.lease.deadline ≤ s.dt → ∃ u, exec .leaseExpiry s = .next u ∧ u.dci.lease = { s.dci.lease with expired := true })
    ∧ (s.accepts c 0x0105 [(1, 0)] → Claims.answersOk s (.deviceReset c 0) c fun u =>
      u.trust.resetAt = some (s.trust.resetAt.getD (s.dt + 1000000)) ∧ u = { s with trust := u.trust })

/-! ### Programs, clusters, cores and their units -/

/-- The commands of images, clusters and cores: an image whose digest, signature and SVN are right is copied and measured, one
whose digest is wrong is AUTH_FAIL; a cluster is loaded, admitted and drained (a drained one answers at once, a draining one
joins); a core is retired, at once in a cluster that is not admitted, and restored; the settings of one core, of a cluster's
cores and of a cluster; and the counters (R238, R287, R518, R521, R557-R559). -/
def Obligations.ProgramAndClusterCommands : Prop :=
  ∀ (s : State) (c : CmdRef),
    (∀ v a n bs, s.accepts c 0x0400 [(2, v), (8, a), (4, n)] → s.trust.loads = [] → bs.length = n →
      imageFormOk v bs = true → (∀ x ∈ s.trust.images, x.version ≠ v) →
      (sm3 (bs.drop 256) ≠ slice bs 32 32 → Claims.refusedWith s (.imageLoad c v a n bs) c 8)
      ∧ (sm3 (bs.drop 256) = slice bs 32 32 → s.imageSigOk bs = true → s.svn 0x21 ≤ leVal (slice bs 10 1) →
        (s.makeRoom s.trust.images (imageAt bs 0).size s.trust.images.length).isSome = true →
        Claims.goesOn s (.imageLoad c v a n bs) c fun u =>
          u.trust.loads = [⟨c, bs.take 256, imageAt bs 0, bs.drop 4352⟩] ∧ u = { s with trust := u.trust }))
    ∧ (∀ l left a, s.trust.loads = [l] → l.c = c → s.phRuns = true → (∀ x ∈ s.trust.images, x.version ≠ l.image.version) →
      s.makeRoom s.trust.images l.image.size s.trust.images.length = some (left, a) →
      Claims.answersOk s (.imageLoadDone c) c fun u => u.trust.images = left ++ [l.image.moved a] ∧ u.trust.loads = []
        ∧ (∀ k, k < l.bytes.length → u.mem.byte (a + k) = l.bytes.getD k 0)
        ∧ (∀ x, x < a ∨ a + l.bytes.length ≤ x → u.mem.byte x = s.mem.byte x)
        ∧ u.trust.meas = if s.trust.meas.length < 1024
          then s.trust.meas ++ [⟨4, l.image.version, s.time.ns, slice (sm3 l.header) 0 32⟩] else s.trust.meas)
    ∧ (∀ k v, k ≤ 11 →
      (s.accepts c 0x0401 [(1, k), (2, v)] → ((s.cl k).st = .empty ∨ (s.cl k).st = .drained) → (s.cl k).version ≠ v →
        (s.trust.images.any fun i => i.version = v) = true → Claims.answersOk s (.clusterLoad c k v) c fun u =>
          (u.cl k).st = .drained ∧ (u.cl k).version = v ∧ (u.cl k).loaded = true)
      ∧ (∀ us, s.accepts c 0x0402 [(1, k), (4, us)] → us ≤ 100000 →
        ((s.cl k).st = .admitted → Claims.goesOn s (.clusterDrain c k us) c fun u => (u.cl k).st = .draining
          ∧ (u.cl k).drain = some (some c, s.dt + if s.lastOldSide k = true then 1000000 * s.order.cfg.fenceDrain
            else 1000 * if us = 0 then 100 else us))
        ∧ ((s.cl k).st = .draining → Claims.goesOn s (.clusterDrain c k us) c fun u => u = s)
        ∧ ((s.cl k).st = .empty ∨ (s.cl k).st = .drained → Claims.answersData s (.clusterDrain c k us) c (leBytes 4 0)))
      ∧ (∀ e, (s.cl k).drain = some (some c, e) → s.order.fence = none → (s.runsOn (clusterThreads k) = [] ∨ e ≤ s.dt) →
        ∃ u, exec (.clusterDrainTimeout k) s = .next u ∧ (u.cl k).st = .drained ∧ (u.cl k).drain = none)
      ∧ (s.accepts c 0x0403 [(1, k)] → (s.cl k).st = .drained → Claims.answersOk s (.clusterAdmit c k) c fun u =>
        (u.cl k).st = .admitted ∧ ∀ j, j ≠ k → u.cl j = s.cl j)
      ∧ (∀ w wd pf, s.accepts c 0x0406 [(1, k), (1, w), (4, wd), (1, pf)] → w ≤ 8 → 4096 ≤ wd → wd ≤ 16777215 → 1 ≤ pf →
        pf ≤ 8 → (w = (s.cl k).scratchWays ∨ s.isDrained k = true) → Claims.answersOk s (.clusterConfig c k w wd pf) c fun u =>
          (u.cl k).scratchWays = w ∧ (u.cl k).watchdog = wd ∧ (u.cl k).pfDepth = pf))
    ∧ (∀ k, k ≤ 191 →
      (s.accepts c 0x0404 [(1, k), (1, 0)] → (s.cl (clusterOfCore k)).st = .admitted → s.coreLeft k = true →
        (s.core k).retired = false → (s.core k).retiring = none → Claims.goesOn s (.coreRetire c k 0) c fun u =>
          (u.core k).retiring = some (some c, s.dt + 100000))
      ∧ (s.accepts c 0x0404 [(1, k), (1, 0)] → (s.cl (clusterOfCore k)).st = .empty ∨ (s.cl (clusterOfCore k)).st = .drained →
        (s.core k).retired = false → (s.core k).retiring = none → Claims.answersOk s (.coreRetire c k 0) c fun u =>
          (u.core k).retired = true)
      ∧ (s.accepts c 0x0404 [(1, k), (1, 1)] → (s.core k).retired = true → (s.core k).retiring = none → s.coreBad k = false →
        Claims.answersOk s (.coreRetire c k 1) c fun u => (u.core k).retired = false ∧ (u.core k).gated = false)
      ∧ (∀ b e, (s.core k).retiring = some (b, e) → (e ≤ s.dt ∨ s.runsOn (coreThreads k) = []) → ∃ u, exec (.coreRetireTimeout k) s = .next u
        ∧ (u.core k).retired = true ∧ (u.core k).retiring = none)
      ∧ (∀ a, s.accepts c 0x0405 [(2, k), (1, a.workThreads), (1, a.shareMode), (1, a.capSb), (1, a.capMshr), (1, a.capPf),
          (1, a.capWb), (1, a.defaultPrio)] → coreConfigOk a = true →
        (a.workThreads = (s.core k).workThreads ∨ s.isDrained (clusterOfCore k) = true) →
        Claims.answersOk s (.coreConfig c k a) c fun u => u.core k = { s.core k with
          workThreads := a.workThreads, dynamic := a.shareMode = 1, capSb := a.capSb, capMshr := a.capMshr
          capPf := a.capPf, capWb := a.capWb, defaultPrio := BitVec.ofNat 2 a.defaultPrio })
      ∧ (∀ a, k ≤ 11 → s.accepts c 0x0405 [(2, 0x100 + k), (1, a.workThreads), (1, a.shareMode), (1, a.capSb), (1, a.capMshr),
          (1, a.capPf), (1, a.capWb), (1, a.defaultPrio)] → coreConfigOk a = true → s.isDrained k = true →
        Claims.answersOk s (.coreConfig c (0x100 + k) a) c fun u => ∀ j, j < 16 →
          (u.core (16 * k + j)).workThreads = a.workThreads ∧ (u.core (16 * k + j)).capSb = a.capSb)
      ∧ (s.accepts c 0x0407 [(1, k)] → Claims.answersData s (.coreStats c k) c (s.coreImage k)))

/-- The commands of helper units, locks, keys, tasks and channels: a unit is disabled, enabled and reset; a lock group is set;
a held lock is released by force to its first waiter, a free one is left alone; a key slot is written; the ticks are set,
a list whose tick changes counting from now; a thread is signalled; and the two status images (R334, R340, R346, R352, R358,
R360, R362, R365). -/
def Obligations.UnitAndTaskCommands : Prop :=
  ∀ (s : State) (c : CmdRef),
    (∀ n k, n ≤ 2 → k ≤ (if n = 1 then 23 else 191) →
      (s.accepts c 0x040C [(1, 0), (1, n), (1, k)] → Claims.answersOk s (.helperControl c 0 n k) c fun u =>
        u.unitOff n k = true)
      ∧ (s.accepts c 0x040C [(1, 1), (1, n), (1, k)] → Claims.answersOk s (.helperControl c 1 n k) c fun u =>
        u.unitOff n k = false)
      ∧ (s.accepts c 0x040C [(1, 2), (1, n), (1, k)] → (s.guardTaken c).2 = false →
        Claims.answersOk s (.helperControl c 2 n k) c fun u => u.unitOff n k = false
          ∧ u.resetCount 7 (n * 256 + k) = s.resetCount 7 (n * 256 + k) + 1))
    ∧ (∀ g m t, s.accepts c 0x040D [(1, g), (2, m), (4, t)] → g ≤ 62 → m ≤ 32767 → 1024 ≤ t → t ≤ 16777215 →
      Claims.answersOk s (.lockGroupSet c g m t) c fun u =>
        u.lockGrp g = { s.lockGrp g with mask := BitVec.ofNat 15 m, timeout := t } ∧ u = { s with locks := u.locks })
    ∧ (∀ k, s.accepts c 0x040E [(2, k)] → k ≤ 4095 → (s.guardTaken c).2 = false → (s.lock k).holder.isSome = true →
      Claims.answersOk s (.lockForceRelease c k) c fun u => (u.lock k).abandoned = true
        ∧ (u.lock k).holder = ((s.lock k).waiters.head?).map (·.who))
    ∧ (∀ k, s.accepts c 0x040E [(2, k)] → k ≤ 4095 → (s.lock k).holder = none →
      Claims.answersOk s (.lockForceRelease c k) c fun u => u = s)
    ∧ (∀ k alg key, s.accepts c 0x0B06 [(2, k), (1, alg), bytesField 32 key] → k ≤ 4095 → alg ≤ 3 →
      Claims.answersOk s (.cryptoKeySet c k alg key) c fun u => SMap.get {} u.keys k
        = ⟨alg, key.take ([0, 16, 32, 16].getD alg 0)⟩ ∧ u = { s with keys := u.keys })
    ∧ (∀ k t0 t1 t2 t3 en w, s.accepts c 0x040F [(1, k), (1, t0), (1, t1), (1, t2), (1, t3), (1, en), (1, w)] → k ≤ 11 →
      tickOk t0 = true → tickOk t1 = true → tickOk t2 = true → tickOk t3 = true → en ≤ 1 → 4 ≤ w → w ≤ 24 →
      Claims.answersOk s (.taskConfig c k t0 t1 t2 t3 en w) c fun u => (u.cl k).task = { (s.cl k).task with
        tick0 := t0, tick1 := t1, tick2 := t2, tick3 := t3, detect := en = 1, window := w, tickDt := (u.cl k).task.tickDt }
        ∧ ∀ l, l < 4 → SMap.get 0 (u.cl k).task.tickDt l = if (s.cl k).task.tick l = (u.cl k).task.tick l
          then SMap.get 0 (s.cl k).task.tickDt l else s.dt)
    ∧ (∀ t (f : W32), s.accepts c 0x0410 [(2, t), (4, f.toNat)] → t ≤ 1535 → Claims.answersOk s (.taskSignal c t f) c fun u =>
      (u.thr t).evflags = (s.thr t).evflags ||| f ∧ ∀ r, u.reg t r = s.reg t r)
    ∧ (∀ k, s.accepts c 0x0411 [(1, k)] → k ≤ 11 → Claims.answersData s (.taskStatus c k) c (s.taskImage k))
    ∧ (∀ k f n, s.accepts c 0x0412 [(1, k), (1, f), (2, n)] → k ≤ 11 → f + n ≤ 256 →
      Claims.answersData s (.channelStatus c k f n) c (wordsBytes ((List.range n).map fun j => (s.chan k (f + j)).status)))

/-! ### Faults and resets of parts -/

/-- PART_RESET begins a part's reset and counts it, and the reset is over after its time; a unit's fault (cause 1 to 3) resets
its part and counts it; a watchdog reset of the Pumphouse restarts it, and the third within 10 s leads to FAULT; a restart of
the Pumphouse ends in READY, and in FAULT where the firmware copy does not match its digest; FAULT_LOG_READ and ERROR_STATS answer their images (R524, R526, R547, R552, R560, R561). -/
def Obligations.FaultsAndPartResets : Prop :=
  (∀ (s : State) (c : CmdRef),
    (∀ k i, s.accepts c 0x0900 [(1, k), (2, i)] → partThere k i = true → s.faults.resets = [] → (s.guardTaken c).2 = false →
      (k = 0 → (s.core (coreOf i)).retired = false) → (k = 1 → (s.core i).retired = false) →
      (k = 3 → (s.well i).disabled = false) →
      (k ≠ 6 → Claims.goesOn s (.partReset c k i) c fun u => u.resetCount k i = s.resetCount k i + 1
        ∧ u.faults.resets = [⟨k, i, [c], (s.runsOn (partThreads k i)).length, s.dt⟩])
      ∧ (k = 6 → ∃ u, exec (.partReset c k i) s = .next u ∧ u.dci.st = .phRestart
        ∧ u.resetCount k i = s.resetCount k i + 1))
    ∧ (∀ frm n, s.accepts c 0x0902 [(4, (frm : W32).toNat), (2, n)] → 1 ≤ n → n ≤ 1024 →
      let es := (logFrom s.faults.log frm).take n
      let no := fun (r : Option LogRec) => (r.map fun x => x.seq.toNat).getD 0
      Claims.answersData s (.faultLogRead c frm n) c (leBytes 4 es.length ++ leBytes 4 (no s.faults.log.head?)
        ++ leBytes 4 (no s.faults.log.getLast?) ++ [0, 0, 0, 0] ++ es.flatMap LogRec.image))
    ∧ (s.accepts c 0x0903 [] → Claims.answersData s (.errorStats c) c s.errorImage))
  ∧ (∀ s r, s.faults.resets = [r] → r.kind ≤ 5 → (r.kind ≤ 2 → r.startDt + partNs r.kind ≤ s.dt) →
    s.partBusy r.kind r.index = false → ∃ u, exec (.partResetDone r.kind r.index) s = .next u ∧ u.faults.resets = [])
  ∧ (∀ s x cause, 1 ≤ cause → cause ≤ 3 → s.dci.st = .ready → s.unitThere x = true → s.faults.resets = [] →
    SMap.get [] s.faults.auto (resetKey (faultPart x).1 (faultPart x).2) = [] → ∃ u, exec (.unitFault x cause) s = .next u
      ∧ u.resetCount (faultPart x).1 (faultPart x).2 = s.resetCount (faultPart x).1 (faultPart x).2 + 1)
  ∧ (∀ s, s.dci.st = .ready →
    (s.trust.phResets = [] → ∃ u, exec .phWatchdogExpiry s = .next u ∧ u.dci.st = .phRestart)
    ∧ (∀ d e, s.trust.phResets = [d, e] → s.dt < d + 10000000000 → s.dt < e + 10000000000 →
      ∃ u, exec .phWatchdogExpiry s = .next u ∧ u.dci.st = .fault ∧ u.dci.cause = 4))
  ∧ (∀ s r, s.faults.resets = [r] → r.kind = 6 → s.dci.st = .phRestart →
    (s.copyOk = true → ∃ u, exec .phRestartDone s = .next u ∧ u.dci.st = .ready ∧ u.faults.resets = [] ∧ u.dt = s.dt)
    ∧ (s.trust.trial = none → s.copyOk = false → ∃ u, exec .phRestartDone s = .next u ∧ u.dci.st = .fault ∧ u.dci.cause = 5
      ∧ u.faults.resets = [] ∧ u.trust.meas = s.trust.meas))

/-! ### Power -/

/-- POWER_POLICY writes all eight tolerances, every value is accepted, it needs the lease, and a warm reset restores 2,000 ns
(R535); beside that rule: POWER_STATUS; a quiet class goes idle; idle cores gate and idle clusters enter retention or off; a
dispatch that waits and a known event wake what sleeps; a sensor's reading sets its level, and CRITICAL leads to FAULT; a power
failure stops the device and ends in FAULT once the flush is written. -/
def Obligations.PowerAndSleep : Prop :=
  (∀ (s : State) (c : CmdRef),
    (∀ tol, s.accepts c 0x0800 (tol.map fun v => (4, (v : W32).toNat)) → tol.length = 8 →
      Claims.answersOk s (.powerPolicy c tol) c fun u => ∀ k, k < 8 → SMap.get 2000 u.power.tol k = (tol.getD k 0).toNat)
    ∧ (s.accepts c 0x0801 [] → Claims.answersData s (.powerStatus c) c s.powerImage))
  ∧ (∀ s f (e : CmdEntry), s.canFetch f = true → e.cseq = (s.fn f).cseq + 1 → s.jcmd ⟨f, e.cseq⟩ = none →
    e.opcode = 0x0800 → s.mine f = false → ∃ u j r, exec (.commandFetch f e) s = .next u ∧ u.jcmd ⟨f, e.cseq⟩ = some j
      ∧ j.resp = some r ∧ r.status = 3 ∧ u.power = s.power)
  ∧ (∀ s, s.canWarm = true → s.trust.resetAt = none → s.dci.st = .ready → ∃ u, exec .warmReset s = .next u
    ∧ ∀ k, SMap.get 2000 u.power.tol k = 2000)
  ∧ (∀ s k, k < 8 → s.power.active.getLsbD k = true → s.classQuiet k = true → ∃ u, exec (.classIdle k) s = .next u
    ∧ u.power.active.getLsbD k = false)
  ∧ (∀ s k, k < 192 → (s.core k).gated = false → (s.core k).retired = false → 100 ≤ (s.core k).idleFor →
    s.coreParked k = true → 1 ≤ s.computeState → soonDue (s.coreEvents k) s.dt 50 = false → ∃ u, exec (.coreGateIdle k) s = .next u
      ∧ u.core k = { s.core k with gated := true })
  ∧ (∀ s k, k < 12 → s.allGated k = true →
    (s.clPower k = .active → 10000 ≤ (s.cl k).idleFor → 2 ≤ s.computeState → soonDue (s.clusterEvents k) s.dt 4000 = false →
      ∃ u, exec (.clusterRetentionIdle k) s = .next u ∧ u.cl k = { s.cl k with power := .retention })
    ∧ ((s.clPower k = .active ∨ s.clPower k = .retention) → 100000 ≤ (s.cl k).idleFor → (s.cl k).scratchWays = 0 →
      3 ≤ s.computeState → soonDue (s.clusterEvents k) s.dt 40000 = false →
      ∃ u, exec (.clusterOffIdle k) s = .next u ∧ (u.cl k).power = .off ∧ (u.cl k).l2.lines = []
        ∧ ∀ j, j < 16 → (u.core (16 * k + j)).l1d = [] ∧ (u.core (16 * k + j)).l1i = []))
  ∧ (∀ s p k, p ∈ s.order.list → (s.rc p).listDt + 100 ≤ s.dt →
    (∀ j, j < 12 → s.clusterEligible p j (s.avoidCore p) = false) → s.order.stopped = false → s.keptAsleep = false →
    k < 12 → (s.cl k).st = .admitted → ((s.cl k).power = .retention ∨ (s.cl k).power = .off) →
    (∀ j, j < k → (s.cl j).st = .admitted → (s.cl j).power ≠ .retention ∧ (s.cl j).power ≠ .off) →
    ∃ u, exec .clusterWakeDispatch s = .next u ∧ (u.cl k).power = .waking
      ∧ (u.cl k).wakeNs = s.iv + (if (s.cl k).power = .off then 40000 else 4000))
  ∧ (∀ s k d, k < 12 → ((s.cl k).power = .retention ∨ (s.cl k).power = .off) → d ∈ s.clusterEvents k →
    d ≤ s.dt + (if (s.cl k).power = .off then 40000 else 4000) → s.keptAsleep = false →
    ∃ u, exec (.prewake k) s = .next u ∧ (u.cl k).power = .waking ∧ u.power.prewakes = s.power.prewakes + 1)
  ∧ (∀ s k d, k < 2 → (s.stack k).mode = .selfRefresh → d ∈ s.stackEvents k → d ≤ s.dt + 1000 →
    ∃ u, exec (.prewake (12 + k)) s = .next u ∧ (u.stack k).mode = .active ∧ u.power.prewakes = s.power.prewakes + 1)
  ∧ (∀ s k d, k < 192 → (s.core k).gated = true → s.clPower (clusterOfCore k) = .active → d ∈ s.coreEvents k →
    d ≤ s.dt + 50 → ∃ u, exec (.prewake (14 + k)) s = .next u ∧ (u.core k).gated = false
      ∧ u.power.prewakes = s.power.prewakes + 1)
  ∧ (∀ s k t, k ≤ 20 → t ≤ 255 → s.trust.porst = false → s.trust.brown = false → ∃ u, exec (.sensorRead k t) s = .next u
    ∧ (SMap.get {} u.power.sensors k).temp = t
    ∧ (115 ≤ t → (SMap.get {} u.power.sensors k).level = 3)
    ∧ (t ≤ 95 → (SMap.get {} u.power.sensors k).level = 0)
    ∧ (115 ≤ t → (SMap.get {} s.power.sensors k).level < 3 → s.dci.st = .ready → u.dci.st = .fault ∧ u.dci.cause = 6
      ∧ u.net.shut = true))
  ∧ (∀ s, s.power.failing = false → s.power.flush = none → s.trust.porst = false → s.trust.brown = false →
    s.dci.st = .ready → ∃ u, exec .powerFail s = .next u ∧ u.power.failing = true ∧ u.power.flush.isSome = true
      ∧ u.order.stopped = true ∧ u.net.shut = true ∧ ∀ k, k < 12 → (u.cl k).power = .off)
  ∧ (∀ s x, s.power.flush = some x → (s.ledger.ring = none ∨ s.ledger.fault = true
      ∨ ∀ n ∈ x.todo, ∃ r ∈ s.ledger.recs, r.no = n ∧ r.phase = .signed) → s.dci.st = .ready →
    ∃ u, exec .powerFailFlushDone s = .next u ∧ u.power.flush = none ∧ u.dci.st = .fault ∧ u.dci.cause = 7)
  ∧ (∀ s, ∃ u, exec .pwrfailRise s = .next u ∧ u.power = { s.power with failing := false }
    ∧ u = { s with power := u.power })

/-! ### Debug, trust and the JTAG port -/

/-- The debug commands: a thread is halted, resumed (one not halted is left alone) and stepped; a breakpoint is set; a general
register is read and written; an uncommitted packet is discarded, once; the trace is set and read; a locked device refuses
DEBUG_HALT (R523, R563, R565, R567, R569-R571). -/
def Obligations.DebugCommands : Prop :=
  ∀ (s : State) (c : CmdRef) (t : Nat), t ≤ 1535 →
    (s.accepts c 0x0A00 [(2, t), (1, 0)] →
      (s.debugLocked = true → Claims.refusedWith s (.debugHalt c t 0) c 8)
      ∧ (s.debugLocked = false → s.inReset t = false → (s.tr t).wait = .none → (s.tr t).halted = none →
        Claims.answersOk s (.debugHalt c t 0) c fun u => (u.tr t).halted = some .halt ∧ (u.tr t).cur = (s.tr t).cur
          ∧ (u.thr t).pc = (s.thr t).pc ∧ ∀ r, u.reg t r = s.reg t r))
    ∧ (s.accepts c 0x0A00 [(2, t), (1, 1)] → s.debugLocked = false → s.inReset t = false → (s.tr t).wait = .none →
      (s.tr t).halted = none → (s.tr t).cur = none → Claims.answersOk s (.debugHalt c t 1) c fun u =>
        (u.tr t).halted = some .halt)
    ∧ (s.accepts c 0x0A01 [(2, t)] → (s.tr t).halted = none → Claims.answersOk s (.debugResume c t) c fun u => u = s)
    ∧ (s.accepts c 0x0A01 [(2, t)] → (s.tr t).halted.isSome = true → (s.tr t).wait = .none →
      Claims.answersOk s (.debugResume c t) c fun u => (u.tr t).halted = none ∧ (u.tr t).stepLeft = none
        ∧ (u.thr t).pc = (s.thr t).pc)
    ∧ (∀ n, s.accepts c 0x0A02 [(2, t), (2, n)] → s.debugLocked = false → (s.guardTaken c).2 = false → 1 ≤ n → n ≤ 65535 →
      (s.tr t).wait = .none → ((s.tr t).halted = none → Claims.refusedWith s (.debugStep c t n) c 10)
      ∧ ((s.tr t).halted.isSome = true → Claims.answersOk s (.debugStep c t n) c fun u =>
        (u.tr t).halted = none ∧ (u.tr t).stepLeft = some n ∧ (u.tr t).stepCount = (s.tr t).stepCount + 1))
    ∧ (∀ k i kind a, s.accepts c 0x0A03 [(1, k), (1, i), (1, kind), (8, a)] → s.debugLocked = false → k ≤ 11 → i ≤ 7 →
      kind ≤ 5 → (kind = 1 → a % 4 = 0 ∧ s.inText k a = true) → Claims.answersOk s (.debugBreakSet c k i kind a) c fun u =>
        SMap.get {} (u.cl k).breaks i = ⟨kind, BitVec.ofNat 64 a⟩ ∧ ∀ j, j ≠ k → u.cl j = s.cl j)
    ∧ (∀ n, n < 32 → s.accepts c 0x0A04 [(2, t), (1, 0), (8, 8 * n), (4, 8)] → s.debugLocked = false →
      (s.tr t).halted.isSome = true → ∃ u : State, exec (.debugRead c t 0 (8 * n) 8) s
        = .next (u.answer c (.reply 0 0 (leBytes 8 (s.reg t (BitVec.ofNat 5 n)).toNat) [0])) ∧ u.thrs = s.thrs)
    ∧ (∀ n data, 1 ≤ n → n < 32 → s.accepts c 0x0A05 [(2, t), (1, 0), (8, 8 * n), (4, 8), bytesField 24 data] →
      s.debugLocked = false → (s.tr t).halted.isSome = true → Claims.answersOk s (.debugWrite c t 0 (8 * n) 8 data) c fun u =>
        u.reg t (BitVec.ofNat 5 n) = BitVec.ofNat 64 (leVal (slice data 0 8))
          ∧ ∀ r, r ≠ BitVec.ofNat 5 n → u.reg t r = s.reg t r)
    ∧ (∀ d q, s.accepts c 0x0A08 [(2, d), (4, (q : W32).toNat)] →
      (s.seqPkt d q = none → Claims.refusedWith s (.debugDiscard c d q) c 10)
      ∧ (∀ p, s.seqPkt d q = some p → (s.rc p).discard = none →
        Claims.answersOk s (.debugDiscard c d q) c fun u => (u.rc p).discard = some 0)
      ∧ (∀ p, s.seqPkt d q = some p → (s.rc p).discard.isSome = true →
        Claims.answersOk s (.debugDiscard c d q) c fun u => u = s))
    ∧ (∀ k m f, s.accepts c 0x0A06 [(1, k), (1, m), (8, (f : W64).toNat)] → s.debugLocked = false → k ≤ 11 → m ≤ 3 →
      f.toNat < 2 ^ 25 → Claims.answersOk s (.traceConfig c k m f) c fun u => (u.cl k).trace = { mode := m, filter := f })
    ∧ (∀ k, s.accepts c 0x0A07 [(1, k)] → s.debugLocked = false → k ≤ 11 → Claims.answersData s (.traceRead c k) c
      (leBytes 4 (s.cl k).trace.recs.length ++ leBytes 8 (s.cl k).trace.drops.toNat
        ++ leBytes 4 (s.cl k).trace.wrapped.toNat ++ (s.cl k).trace.recs.flatMap TraceRec.image))

/-- What ATTEST signs (R522). -/
def Claims.quote (s : State) (nonce : List Byte) : List Byte :=
  leBytes 4 0x5A415454 ++ leBytes 4 s.trust.meas.length ++ leBytes 4 s.trust.overflow.toNat ++ [0, 0, 0, 0]
    ++ s.otpBytes 1 8 ++ leBytes 8 s.dt ++ slice s.trust.chain 0 32 ++ slice nonce 0 32 ++ s.trust.meas.flatMap Meas.bytes

/-- ATTEST answers the signed quote and IDENTITY_CERT the certificates; a challenge's nonce unlocks debugging once, with a
right signature, and expires; a firmware image is written to the other slot, in time or not, and activated, and the
activation is given up after 2 s (R520-R523, R529, R530). -/
def Obligations.TrustAndFirmware : Prop :=
  ∀ (s : State) (c : CmdRef),
    (∀ n, s.accepts c 0x0B00 [bytesField 32 n] → s.trngBad = false → ∃ (u : State) (k : W64), exec (.attest c n) s
      = .next (u.answer c (.data (Claims.quote s n ++ Config.sm2Sign s.idKey (ascii "QZMDEVICE1") (sm3 (Claims.quote s n)) k)))
      ∧ u.trust = s.trust)
    ∧ (s.accepts c 0x0B01 [] → Claims.answersData s (.identityCert c) c (s.otpBytes 3 1024 ++ Config.intermediateCert))
    ∧ (s.accepts c 0x0B02 [] → s.trngBad = false → ∃ (u : State) (n : List Byte), exec (.debugChallenge c) s
      = .next (u.answer c (.data n)) ∧ n.length = 32
      ∧ (s.tooLong c (.data n) = false → u.trust.nonce = some (n, s.dt)))
    ∧ (∀ n g, s.accepts c 0x0B03 [bytesField 32 n, bytesField 64 g] → s.trust.unlockBy ≠ some c →
      (s.trust.nonce = none → Claims.refusedWith s (.debugUnlock c n g) c 8)
      ∧ (∀ d, s.trust.nonce = some (n, d) → s.dt < d + 60000000000 → SMap.get 0 s.trust.otp 0x13 ≠ 0 →
        Config.sm2Verify (s.otpBytes 0x13 64) (ascii "QZMDEBUG1") (sm3 (n ++ s.otpBytes 1 8)) g = true →
        Claims.answersOk s (.debugUnlock c n g) c fun u => u.trust.unlocked = true ∧ u.trust.nonce = none)
      ∧ (∀ d, s.trust.nonce = some (n, d) → s.dt < d + 60000000000 →
        (SMap.get 0 s.trust.otp 0x13 = 0
          ∨ Config.sm2Verify (s.otpBytes 0x13 64) (ascii "QZMDEBUG1") (sm3 (n ++ s.otpBytes 1 8)) g = false) →
        ∃ u : State, exec (.debugUnlock c n g) s = .next (u.answer c (.status 8))
          ∧ u = { s with trust := { s.trust with nonce := none } }))
    ∧ (∀ n d, s.trust.nonce = some (n, d) → d + 60000000000 ≤ s.dt → ∃ u, exec .debugNonceExpiry s = .next u
      ∧ u.trust = { s.trust with nonce := none })
    ∧ (∀ k a n i, s.accepts c 0x0B04 [(1, k), (8, a), (4, n)] → k ≤ 1 → s.trust.writing = none → s.trust.trial = none →
      s.trust.fwSlot ≠ k → FwImage.formOk i = true → i.header.length + i.body.length = n → s.fwOk i = true →
      Claims.goesOn s (.fwUpdate c k a n i) c fun u => u.trust.writing = some ⟨c, k, i, s.dt⟩
        ∧ (u.slot k).image = none ∧ u.trust.fw = s.trust.fw)
    ∧ (∀ w, s.trust.writing = some w → w.c = c → s.phRuns = true →
      (s.dt < w.startDt + 120000000000 → Claims.answersOk s (.fwUpdateDone c true) c fun u =>
        u.slot w.slot = ⟨some w.image, 0xFF, 0xFF⟩ ∧ u.trust.writing = none)
      ∧ (w.startDt + 120000000000 ≤ s.dt → ∀ ok, ∃ u : State, exec (.fwUpdateDone c ok) s = .next (u.answer c (.status 9))
        ∧ u.slot w.slot = ⟨none, 0xF8, 0xFF⟩ ∧ u.trust.writing = none))
    ∧ (∀ k i, s.accepts c 0x0B05 [(1, k)] → k ≤ 1 → s.trust.writing = none → s.trust.trial = none →
      (s.slot k).image = some i → s.fwOk i = true → ∃ u, exec (.fwActivate c k) s = .next u ∧ u.dci.st = .phRestart
        ∧ u.trust.trial = some ⟨k, i, s.dt⟩)
    ∧ (∀ t, s.trust.trial = some t → s.dci.st = .phRestart → t.startDt + 2000000000 ≤ s.dt →
      ∃ u, exec .fwConfirmTimeout s = .next u ∧ u.trust.trial = none ∧ u.trust.fw = s.trust.fw)

/-- Priming after the straps are sampled runs to READY from a slot with a valid image, waits for a push, or stops for
manufacturing test; a host's push of firmware; the cold reset, the brown-out and the warm reset: what they leave and what they
keep (R507, R508, R510, R514, R515, R524, R525, R527, R528, R586). -/
def Obligations.PrimingAndResets : Prop :=
  (∀ (s : State) (o : PrimingObs), s.trust.brown = false → s.trust.obs = none →
    (o.bootSrc = 3 → ∃ u, exec (.coldPriming o) s = .next u ∧ u.trust.obs = some o ∧ u.trust.porst = false ∧ u.dci.step = 7
      ∧ u.trust.straps = ⟨o.bootSrc, o.pcieMode, o.strapSafe⟩)
    ∧ (o.bootSrc = 1 → ∃ u, exec (.coldPriming o) s = .next u ∧ u.trust.boot.waits = some .hostA ∧ u.dci.step = 2)
    ∧ (o.bootSrc = 0 → o.slotA.image = none → o.slotB.image = none → ∃ u, exec (.coldPriming o) s = .next u
      ∧ u.trust.boot.waits = some .hostA ∧ u.trust.boot.status = 5 ∧ u.dci.step = 2)
    ∧ (∀ n i, o.bootSrc = 0 → o.sramFatal = false → badPcsOf o = [] → o.trngOk = true → s.dci.st = .priming →
      (s.updTrust fun t => { t with
        slotA := o.slotA, slotB := o.slotB, straps := ⟨o.bootSrc, o.pcieMode, o.strapSafe⟩ }).chooseSlot = some (n, i) →
      ∃ u, exec (.coldPriming o) s = .next u ∧ u.dci.st = .ready ∧ u.trust.fw = some i ∧ u.trust.fwSlot = n
        ∧ u.dci.firmware = BitVec.ofNat 32 (FwImage.version i)))
  ∧ (∀ s f n, s.trust.boot.waits = some f → s.trust.boot.status ≠ 1 → n < 16777216 →
    ∃ u, exec (.hostPushGo f n) s = .next u ∧ u.trust.boot.ctl = BitVec.ofNat 64 n
      ∧ u.trust.boot.status = if 512 ≤ n ∧ n ≤ 8388608 then 1 else 4)
  ∧ (∀ s i, s.trust.boot.status = 1 → s.trust.boot.waits.isSome = true → FwImage.formOk i = false →
    ∃ u, exec (.hostPushDone i) s = .next u ∧ u.trust.boot.status = 4 ∧ u.trust.fw = s.trust.fw)
  ∧ (∀ s i o, s.trust.boot.status = 1 → s.trust.boot.waits.isSome = true → FwImage.formOk i = true →
    i.header.length + i.body.length = s.trust.boot.ctl.toNat % 16777216 →
    (s.fwOk i = false → ∃ u, exec (.hostPushDone i) s = .next u ∧ u.trust.boot.status = 3 ∧ u.trust.fw = s.trust.fw
      ∧ u.dci = s.dci)
    ∧ (s.fwOk i = true → s.trust.obs = some o → o.sramFatal = false → badPcsOf o = [] → o.trngOk = true →
      s.dci.st = .priming → ∃ u, exec (.hostPushDone i) s = .next u ∧ u.dci.st = .ready ∧ u.trust.fw = some i
        ∧ u.dci.firmware = BitVec.ofNat 32 (FwImage.version i)))
  ∧ (∀ s, (∃ u, exec .coldReset s = .next u ∧ u.trust.porst = true ∧ u.trust.otp = s.trust.otp
      ∧ u.trust.slotA = s.trust.slotA ∧ u.trust.slotB = s.trust.slotB ∧ u.dci = State.reset.dci ∧ u.time = State.reset.time
      ∧ u.order = State.reset.order ∧ u.mem = State.reset.mem ∧ u.thrs = State.reset.thrs ∧ u.pending = s.pending)
    ∧ (∃ u, exec .brownOut s = .next u ∧ u.trust.brown = true ∧ u.trust.otp = s.trust.otp ∧ u.dci = State.reset.dci)
    ∧ (∃ u, exec .brownOutRecovery s = .next u ∧ u.trust = { s.trust with brown := false } ∧ u = { s with trust := u.trust }))
  ∧ (∀ s, s.canWarm = true → s.trust.resetAt = none → s.dci.st = .ready → ∃ u, exec .warmReset s = .next u
    ∧ u.dci.st = .warmReset ∧ u.trust.wrst = true ∧ u.dt = s.dt ∧ u.mem = s.mem ∧ u.trust.otp = s.trust.otp
    ∧ u.trust.meas = s.trust.meas ∧ u.thrs = State.reset.thrs)
  ∧ (∀ s d, s.canWarm = true → s.trust.resetAt = some d → d ≤ s.dt → s.dci.st = .ready → s.trust.straps.bootSrc = 3 →
    ∃ u, exec .warmReset s = .next u ∧ u.dci.st = .warmReset ∧ u.dci.step = 7 ∧ u.trust.wrst = s.trust.wrst)
  ∧ (∀ s, s.trust.wrst = true → s.trust.straps.bootSrc = 3 → ∃ u, exec .wrstRise s = .next u ∧ u.trust.wrst = false
    ∧ u.dci.step = 7)

/-- The JTAG port: the instructions and what their registers capture, the pins taken, DEBUG_ACCESS and OTP programming,
whose bits only rise (R516, R517, R573, R574, R593). -/
def Obligations.JtagPort : Prop :=
  (∀ s, (∃ u, exec .idcode s = .next u ∧ u.trust.jtag = { s.trust.jtag with ir := 2, dr := idcodeWord })
    ∧ exec .tapReset s = exec .idcode s
    ∧ (∃ u, exec .bypass s = .next u ∧ u.trust.jtag = { s.trust.jtag with ir := 0xFF, dr := 0 })
    ∧ (∃ u, exec .samplePreload s = .next u ∧ u.trust.jtag.ir = 1 ∧ u.trust.jtag.pins = s.trust.jtag.pins)
    ∧ (∀ p ∈ ([(.extest, 0), (.clampJ, 3), (.highz, 4), (.extestPulse, 5), (.extestTrain, 6)] : List (Instr × Nat)),
      ∃ u, exec p.1 s = .next u ∧ u.trust.jtag.ir = p.2 ∧ u.trust.jtag.pins = true ∧ u.net.shut = true))
  ∧ (∀ s, s.trust.jtag.pins = true → takesPins s.trust.jtag.ir = false → s.power.flush = none →
    ∃ u, exec .boundaryScanExit s = .next u ∧ u.trust.jtag.pins = false
      ∧ (s.canWarm = true → s.dci.st = .ready → s.trust.straps.bootSrc = 3 → u.dci.st = .warmReset ∧ u.dci.step = 7))
  ∧ (∀ s (dr : BitVec 1024) body r u a d res tail,
    let e := leBytes 128 dr.toNat
    let p := (slice e 16 112).take (leVal (slice e 8 2))
    let s1 := s.updJtag fun j => { j with ir := 0x20 }
    s.trust.porst = false → s.trust.brown = false → s.trust.obs.isSome = true → debugBody (leVal (slice e 0 2)) p = some body →
    catOf (leVal (slice e 0 2)) = some r → leVal (slice e 2 2) = 0 → leVal (slice e 12 4) = 0 → leVal (slice e 8 2) ≤ 112 →
    fitsCommand r p = true → body s1 = (u, .reply a d res tail) →
    exec (.debugAccess dr) s = .next ((if 40 < res.length then s1 else u).jtagAnswer e (.reply a d res tail)))
  ∧ (∀ s (dr : BitVec 2064) id k v, id < 256 → k < 256 → v < 2 ^ 2048 → dr.toNat = id + 256 * k + 65536 * v →
    s.trust.porst = false → s.trust.brown = false → s.trust.obs.isSome = true → s.trust.straps.bootSrc = 3 →
    (s.debugLocked = true ∨ id < 0x10 → ∃ u, exec (.otpProg dr) s = .next u ∧ u.trust.otp = s.trust.otp)
    ∧ (s.debugLocked = false → 0x10 ≤ id →
      let n := Nat.min 2048 (otpBits id - 2048 * k)
      let old := SMap.get 0 s.trust.otp id
      let fits := (v % 2 ^ n) ||| (old / 2 ^ (2048 * k) % 2 ^ n) = v % 2 ^ n
      ∃ u, exec (.otpProg dr) s = .next u
        ∧ (fits → SMap.get 0 u.trust.otp id = old ||| v % 2 ^ n * 2 ^ (2048 * k)
          ∧ ∀ j, j ≠ id → SMap.get 0 u.trust.otp j = SMap.get 0 s.trust.otp j)
        ∧ (¬fits → u.trust.otp = s.trust.otp)))

/-! ### The whole block -/

/-- When epochs start, the first open epoch runs from the current DT to the next boundary, and its record is short unless it
starts on a boundary (R67). -/
def Obligations.FirstEpoch : Prop :=
  ∀ (s : State) (c : CmdRef) len gr, s.accepts c 0x0504 [(1, 0), (2, len), (1, gr)] → 1 ≤ len → len ≤ 3600 → gr ≤ 100 →
    s.ledger.ring.isSome = true → s.ledger.fault = false → s.ledger.openEp = none →
    Claims.answersOk s (.epochConfig c 0 len gr) c fun u => ∃ o, u.ledger.openEp = some o ∧ o.start = s.dt ∧ s.dt < o.endAt
      ∧ o.endAt ≤ s.dt + len * 1000000000 ∧ o.endAt % (len * 1000000000) = 0
      ∧ (LEpoch.flags { o with stop := o.endAt } / 2 % 2 = 1 ↔ s.dt % (len * 1000000000) ≠ 0)

/-- In PRIMING, WARM_RESET and PH_RESTART no command is read and a doorbell only sets the tail; in FAULT, READ-class commands
and DEVICE_RESET are executed and every other command is answered with FAULTED (R491). -/
def Obligations.CommandsByDeviceState : Prop :=
  (∀ s f e, s.dci.st = .priming ∨ s.dci.st = .warmReset ∨ s.dci.st = .phRestart →
    exec (.commandFetch f e) s = .next s
    ∧ ∀ v, s.reach f = true → ∃ u, exec (.cmdDoorbell f v) s = .next u ∧ u.fn f = { s.fn f with cmdTail := v }
      ∧ u.dci.journal = s.dci.journal)
  ∧ (∀ (s : State) (c : CmdRef) op fields body, s.dci.st = .fault → s.cmdDue c op fields = true → s.faults.fenced = [] →
    (op ≠ 0x0105 → readClass op (layout fields) = false → s.command c op fields body = .next (s.answer c (.status 11)))
    ∧ (op = 0x0105 ∨ readClass op (layout fields) = true → s.tooLong c (body s).2 = false →
      s.command c op fields body = .next ((body s).1.answer c (body s).2)))

/-- A step runs the command at the front of the queue on the state with the queue's rest; with nothing queued one nanosecond
passes (the latter is the model's choice, log 1). -/
def Obligations.StepRunsFront : Prop :=
  (∀ s i rest, s.pending = i :: rest → step s = exec i { s with pending := rest })
  ∧ ∀ s, s.pending = [] → step s = .next (s.tick Config.slowGrade)

/-- What reset leaves: DT at 0 in FREERUN, the device in PRIMING, no command queued, sequence numbers at 0, key slots EMPTY,
locks free with generation 0, no spill, groups unmapped, the order settings at their defaults, no lease; general registers
and HBM read 0 (the last two are the model's choice, log 3 and log 63). -/
def Obligations.ResetState : Prop :=
  State.reset.pending = [] ∧ State.reset.dt = 0 ∧ State.reset.time.st = .freerun ∧ State.reset.dci.st = .priming
    ∧ (∀ d, (State.reset.dom d).nextSeq = 0 ∧ (State.reset.dom d).commitSeq = 0)
    ∧ (∀ k, (SMap.get {} State.reset.keys k).alg = 0)
    ∧ (∀ k, (State.reset.lock k).holder = none ∧ (State.reset.lock k).abandoned = false ∧ (State.reset.lock k).gen = 0
      ∧ (State.reset.lock k).waiters = [])
    ∧ (∀ q, (State.reset.queue q).spillEn = false ∧ (State.reset.group (q / 8)).port = 0xFFFF)
    ∧ State.reset.order.cfg = ⟨100, 0, 0, 10, 50⟩ ∧ State.reset.dci.lease.holder = none ∧ State.reset.dci.lease.gen = 0
    ∧ (∀ t r, State.reset.reg t r = 0) ∧ ∀ a, State.reset.mem.byte a = 0

/-- Reset memory is in canonical form and the fault log holds no more than it can. -/
def Obligations.SoundAtReset : Prop := State.reset.sound

/-- Every step keeps memory in canonical form and the fault log within its 4,096 entries, and no bit of the OTP that is 1
becomes 0 (R516, R560). -/
def Obligations.SoundStep : Prop :=
  ∀ s u, s.sound → step s = .next u → u.sound
    ∧ ∀ id, bitsKept (SMap.get 0 s.trust.otp id) (SMap.get 0 u.trust.otp id)

/-- The parts of the device that a command leaves alone, whatever its operands and whether or not it acts: the next state is
the old one but for the parts named. Named here is every command that reaches at most seven parts. -/
def Claims.leavesAlone (i : Instr) (s u : State) : Prop :=
  match i with
  | .dtNowRead .. | .trefQualified .. | .trefLoss .. | .ppsOutRise .. | .ppsOutFall .. | .timebaseSwitchback .. =>
    u = { s with time := u.time }
  | .fifoBankSwap .. | .fragEntryExpiry .. | .parserResetDone .. | .laneRecalDone .. | .linkReturn ..
  | .trainingDone .. | .trainingRetry .. | .moduleScan .. | .moduleLowpwrPoll .. =>
    u = { s with net := u.net }
  | .logRecordAck .. =>
    u = { s with order := u.order }
  | .sizedPoolAlloc .. | .rebuildRetry .. =>
    u = { s with basin := u.basin }
  | .pauseExpiry .. | .spillChoose .. | .pumpResetDone .. | .shaperTokensReturn .. =>
    u = { s with egress := u.egress }
  | .coreGateIdle .. =>
    u = { s with cores := u.cores }
  | .clusterRetentionIdle .. =>
    u = { s with clusters := u.clusters }
  | .rowTimeout .. | .refreshDue .. | .pcPowerDown .. | .stackSelfRefresh .. | .timingTrack .. | .tempRetrain .. =>
    u = { s with hbm := u.hbm }
  | .pwrfailRise .. =>
    u = { s with power := u.power }
  | .emOverlayRetire .. | .lpmRebuildDone .. =>
    u = { s with tables := u.tables }
  | .sealResidualsDone .. | .recordDigestDone .. =>
    u = { s with ledger := u.ledger }
  | .cmdDoorbell .. | .rspHeadWrite .. | .leaseHeartbeatWrite .. | .dciRingDisable .. | .puntRingEnable ..
  | .puntRxPost .. | .puntTxDoorbell .. | .hostLinkUp .. =>
    u = { s with dci := u.dci }
  | .debugNonceExpiry .. | .hostPushGo .. | .idcode .. | .bypass .. | .otpProg .. | .tapReset ..
  | .brownOutRecovery .. =>
    u = { s with trust := u.trust }
  | .rxWhileDown .. =>
    u = { s with out := u.out, net := u.net }
  | .pfcResend .. =>
    u = { s with out := u.out, egress := u.egress }
  | .commandFetch .. | .eseqAckWrite .. | .dciRingEnable .. | .intModExpiry .. =>
    u = { s with out := u.out, dci := u.dci }
  | .refclkReturn .. =>
    u = { s with time := u.time, net := u.net }
  | .learnNoticeSend .. | .l2NoticeApply .. | .l2AgingSweep .. =>
    u = { s with net := u.net, tables := u.tables }
  | .cutThroughStart .. =>
    u = { s with order := u.order, egress := u.egress }
  | .delayTick .. =>
    u = { s with thrs := u.thrs, clusters := u.clusters }
  | .cacheMaintDone .. | .starveGrant .. =>
    u = { s with truns := u.truns, cores := u.cores }
  | .hbmRequest .. =>
    u = { s with hbm := u.hbm, power := u.power }
  | .tblInsert .. | .tblUpdate .. | .tblDelete .. | .tblLookup .. | .tblReadIndex .. | .tblWriteIndex ..
  | .tblDigestBlock .. | .tblCmdDone .. | .emOverlayDecide .. =>
    u = { s with tables := u.tables, free := u.free }
  | .samplePreload .. =>
    u = { s with trust := u.trust, free := u.free }
  | .graphSwitchTimeout .. =>
    u = { s with out := u.out, net := u.net, dci := u.dci }
  | .tableBatchDone .. =>
    u = { s with out := u.out, tables := u.tables, dci := u.dci }
  | .digestScrubBlock .. =>
    u = { s with out := u.out, tables := u.tables, free := u.free }
  | .ledgerReadDone .. =>
    u = { s with out := u.out, ledger := u.ledger, dci := u.dci }
  | .leaseExpiry .. =>
    u = { s with out := u.out, dci := u.dci, faults := u.faults }
  | .refillRead .. =>
    u = { s with egress := u.egress, hbm := u.hbm, power := u.power }
  | .storeBufferDrain .. =>
    u = { s with truns := u.truns, cores := u.cores, clusters := u.clusters }
  | .clusterOffIdle .. =>
    u = { s with cores := u.cores, clusters := u.clusters, mem := u.mem }
  | .clusterWakeDispatch .. =>
    u = { s with cores := u.cores, clusters := u.clusters, power := u.power }
  | .holdoverExpiry .. =>
    u = { s with out := u.out, time := u.time, dci := u.dci, faults := u.faults }
  | .parseStart .. =>
    u = { s with out := u.out, net := u.net, order := u.order, dci := u.dci }
  | .quiesceFall .. | .quiesceRise .. | .trainingTimeout .. | .flapSuppressExpiry .. | .moduleIdPoll ..
  | .modulePagesRead .. | .moduleDiscoveryTimeout .. | .moduleInt .. | .i2cBusRecovery .. =>
    u = { s with out := u.out, net := u.net, dci := u.dci, faults := u.faults }
  | .walUncorrectable .. | .orderStallTimer .. =>
    u = { s with out := u.out, order := u.order, dci := u.dci, faults := u.faults }
  | .holdTimeExpiry .. =>
    u = { s with out := u.out, egress := u.egress, dci := u.dci, faults := u.faults }
  | .partResetDone .. =>
    u = { s with out := u.out, clusters := u.clusters, dci := u.dci, faults := u.faults }
  | .imageLoadDone .. =>
    u = { s with out := u.out, mem := u.mem, dci := u.dci, trust := u.trust }
  | .hbmTempRead .. =>
    u = { s with out := u.out, hbm := u.hbm, dci := u.dci, faults := u.faults }
  | .epochClose .. | .epochSeal .. =>
    u = { s with out := u.out, ledger := u.ledger, dci := u.dci, faults := u.faults }
  | .ledgerInitDone .. =>
    u = { s with out := u.out, ledger := u.ledger, dci := u.dci, free := u.free }
  | .fwUpdateDone .. | .fwConfirmTimeout .. =>
    u = { s with out := u.out, dci := u.dci, faults := u.faults, trust := u.trust }
  | .nopC .. | .deviceInfo .. | .leaseClaim .. | .leaseRelease .. | .leaseConfig .. | .portStatus ..
  | .moduleStatus .. | .intakeStats .. | .tableStats .. | .coreStats .. | .domainStatus .. | .orderStats ..
  | .taskStatus .. | .channelStatus .. | .ledgerInfo .. | .ledgerStats .. | .queueStats .. | .sumpStats ..
  | .powerStatus .. | .faultLogRead .. | .errorStats .. | .debugRead .. | .traceRead .. | .attest ..
  | .identityCert .. | .hbmPartitionRead .. | .hbmStats .. =>
    u = { s with out := u.out, dci := u.dci, faults := u.faults, free := u.free }
  | .writebackAck .. =>
    u = { s with truns := u.truns, cores := u.cores, clusters := u.clusters, mem := u.mem }
  | .classIdle .. | .prewake .. =>
    u = { s with cores := u.cores, clusters := u.clusters, hbm := u.hbm, power := u.power }
  | .ptpLossTimeout .. | .ppsInMissing .. =>
    u = { s with out := u.out, time := u.time, ledger := u.ledger, dci := u.dci, faults := u.faults }
  | .timeStatus .. | .ppsOutConfig .. =>
    u = { s with out := u.out, time := u.time, dci := u.dci, faults := u.faults, free := u.free }
  | .linkDebounceExpiry .. =>
    u = { s with out := u.out, net := u.net, egress := u.egress, dci := u.dci, faults := u.faults }
  | .l2TriggerApply .. =>
    u = { s with out := u.out, net := u.net, tables := u.tables, dci := u.dci, faults := u.faults }
  | .portConfig .. | .portEnable .. | .portDisable .. | .moduleMap .. | .moduleAccess .. | .ecidMapSet ..
  | .sluice .. | .unsluice .. | .parseGraphLoad .. | .parseGraphCommit .. | .hashProfileSet .. | .hashKeySet ..
  | .indirectionSet .. | .wellEnable .. =>
    u = { s with out := u.out, net := u.net, dci := u.dci, faults := u.faults, free := u.free }
  | .puntRingDisable .. =>
    u = { s with out := u.out, order := u.order, basin := u.basin, egress := u.egress, dci := u.dci }
  | .orderConfig .. | .versionFence .. =>
    u = { s with out := u.out, order := u.order, dci := u.dci, faults := u.faults, free := u.free }
  | .basinRebuildDone .. | .aggregateWriteAck .. =>
    u = { s with out := u.out, basin := u.basin, egress := u.egress, dci := u.dci, faults := u.faults }
  | .bufferQuotaSet .. | .bufferStatus .. =>
    u = { s with out := u.out, basin := u.basin, dci := u.dci, faults := u.faults, free := u.free }
  | .cisternShrinkDone .. =>
    u = { s with out := u.out, cistern := u.cistern, mem := u.mem, dci := u.dci, faults := u.faults }
  | .queueSpillSet .. | .queueGroupSet .. | .queueConfig .. | .egressPortSet .. | .wredProfileSet ..
  | .pfcThresholdSet .. | .mcGroupSet .. | .mcMemberOpSet .. | .queueFlush .. | .sumpConfig .. =>
    u = { s with out := u.out, egress := u.egress, dci := u.dci, faults := u.faults, free := u.free }
  | .coreConfig .. =>
    u = { s with out := u.out, cores := u.cores, dci := u.dci, faults := u.faults, free := u.free }
  | .taskConfig .. | .debugBreakSet .. | .traceConfig .. =>
    u = { s with out := u.out, clusters := u.clusters, dci := u.dci, faults := u.faults, free := u.free }
  | .lockGroupSet .. =>
    u = { s with out := u.out, locks := u.locks, dci := u.dci, faults := u.faults, free := u.free }
  | .cryptoKeySet .. =>
    u = { s with out := u.out, keys := u.keys, dci := u.dci, faults := u.faults, free := u.free }
  | .granuleCopyDone .. =>
    u = { s with out := u.out, hbm := u.hbm, power := u.power, dci := u.dci, faults := u.faults }
  | .hbmQosSet .. | .hbmScrubConfig .. | .hbmRepair .. =>
    u = { s with out := u.out, hbm := u.hbm, dci := u.dci, faults := u.faults, free := u.free }
  | .tableBatch .. | .tableRead .. | .emTableSet .. | .l2Flush .. | .tableScrubConfig .. =>
    u = { s with out := u.out, tables := u.tables, dci := u.dci, faults := u.faults, free := u.free }
  | .recordSignDone .. | .epochConfig .. | .ledgerInit .. | .ledgerRead .. | .ledgerAck .. | .ledgerFlushSet .. =>
    u = { s with out := u.out, ledger := u.ledger, dci := u.dci, faults := u.faults, free := u.free }
  | .deviceReset .. | .imageLoad .. | .debugChallenge .. | .debugUnlock .. | .fwUpdate .. =>
    u = { s with out := u.out, dci := u.dci, faults := u.faults, trust := u.trust, free := u.free }
  | .ptpMessageRx .. | .ppsInEdge .. | .timeSource .. =>
    u = { s with out := u.out, time := u.time, ledger := u.ledger, dci := u.dci, faults := u.faults, free := u.free }
  | .linkHoldoffExpiry .. =>
    u = { s with
      out := u.out, net := u.net, egress := u.egress, tables := u.tables, dci := u.dci, faults := u.faults }
  | .l2Config .. =>
    u = { s with out := u.out, net := u.net, tables := u.tables, dci := u.dci, faults := u.faults, free := u.free }
  | .pumpSelect .. | .puntRxDeliver .. =>
    u = { s with
      out := u.out, order := u.order, basin := u.basin, egress := u.egress, dci := u.dci, faults := u.faults }
  | .bufferReclaim .. =>
    u = { s with
      out := u.out, basin := u.basin, egress := u.egress, dci := u.dci, faults := u.faults, free := u.free }
  | .retireDrainDone .. | .retireWaitExpiry .. =>
    u = { s with out := u.out, cistern := u.cistern, mem := u.mem, hbm := u.hbm, dci := u.dci, faults := u.faults }
  | .cisternConfig .. | .hbmPartition .. =>
    u = { s with out := u.out, cistern := u.cistern, mem := u.mem, dci := u.dci, faults := u.faults, free := u.free }
  | .hbmPcRetire .. =>
    u = { s with out := u.out, cistern := u.cistern, hbm := u.hbm, dci := u.dci, faults := u.faults, free := u.free }
  | .clusterConfig .. =>
    u = { s with
      out := u.out, clusters := u.clusters, mem := u.mem, dci := u.dci, faults := u.faults, free := u.free }
  | .clusterAdmit .. =>
    u = { s with
      out := u.out, clusters := u.clusters, dci := u.dci, faults := u.faults, trust := u.trust, free := u.free }
  | .powerFailFlushDone .. =>
    u = { s with
      out := u.out, power := u.power, ledger := u.ledger, dci := u.dci, faults := u.faults, free := u.free }
  | .fragHoldTimeout .. =>
    u = { s with
      out := u.out, net := u.net, order := u.order, basin := u.basin, egress := u.egress, dci := u.dci, faults := u.faults }
  | .sensorRead .. =>
    u = { s with
      out := u.out, net := u.net, clusters := u.clusters, power := u.power, dci := u.dci, faults := u.faults, free := u.free }
  | .flushWalk .. =>
    u = { s with
      out := u.out, order := u.order, basin := u.basin, cistern := u.cistern, egress := u.egress, dci := u.dci, faults := u.faults }
  | .deadlockDetect .. | .waitevWake .. | .joinWake .. | .chgetWake .. | .chputReserveWake .. | .orderEnterWake .. =>
    u = { s with
      out := u.out, order := u.order, thrs := u.thrs, truns := u.truns, clusters := u.clusters, dci := u.dci, faults := u.faults }
  | .clusterDrain .. =>
    u = { s with
      out := u.out, order := u.order, truns := u.truns, clusters := u.clusters, dci := u.dci, faults := u.faults, free := u.free }
  | .lockForceRelease .. =>
    u = { s with
      out := u.out, thrs := u.thrs, truns := u.truns, locks := u.locks, dci := u.dci, faults := u.faults, free := u.free }
  | .clusterLoad .. =>
    u = { s with
      out := u.out, thrs := u.thrs, cores := u.cores, clusters := u.clusters, dci := u.dci, faults := u.faults, free := u.free }
  | .hbmIssue .. =>
    u = { s with
      out := u.out, mem := u.mem, hbm := u.hbm, tables := u.tables, ledger := u.ledger, dci := u.dci, faults := u.faults }
  | .pendingStoreRoom .. =>
    u = { s with
      order := u.order, thrs := u.thrs, truns := u.truns, cores := u.cores, clusters := u.clusters, locks := u.locks, power := u.power }
  | _ => True

/-- Every command that reaches only some parts of the device completes and leaves every other part as it was: the general
registers, memory, the keys, device time and the rest; the commands of class READ are among them (R489). -/
def Obligations.OtherPartsAreLeft : Prop :=
  ∀ i s, ∃ u, exec i s = .next u ∧ Claims.leavesAlone i s u

/-- No command stops the block or touches the queue, and a step takes exactly the front command from it. -/
def Obligations.NeverStops : Prop :=
  (∀ i s, ∃ u, exec i s = .next u ∧ u.pending = s.pending) ∧ ∀ s, ∃ u, step s = .next u ∧ u.pending = s.pending.tail
end

