-- ==== Sys2Proof/Laws/SMap.lean ====
section
/-!
SUPPORT. Laws of the sparse table: a read after a write, and that every write keeps the canonical form.
-/

namespace Sys2Proof

theorem SMap.get_erase_self {α : Type} (d : α) (m : SMap α) (k : Nat) : SMap.get d (SMap.erase m k) k = d := by
  induction m with
  | nil => rfl
  | cons p rest ih =>
    by_cases h : p.1 = k
    · simp [SMap.erase, h, ih]
    · simp [SMap.erase, SMap.get, h, ih]

theorem SMap.get_erase_ne {α : Type} (d : α) (m : SMap α) {k j : Nat} (h : j ≠ k) :
    SMap.get d (SMap.erase m k) j = SMap.get d m j := by
  induction m with
  | nil => rfl
  | cons p rest ih =>
    by_cases hp : p.1 = k
    · simp [SMap.erase, SMap.get, hp, ih, h.symm]
    · simp [SMap.erase, SMap.get, hp, ih]

theorem SMap.get_ins_self {α : Type} (d : α) (m : SMap α) (k : Nat) (v : α) :
    SMap.get d (SMap.ins (SMap.erase m k) k v) k = v := by
  induction m with
  | nil => simp [SMap.erase, SMap.ins, SMap.get]
  | cons p rest ih =>
    by_cases hp : p.1 = k
    · simp [SMap.erase, hp, ih]
    · by_cases hk : k < p.1
      · simp [SMap.erase, SMap.ins, SMap.get, hp, hk]
      · simp [SMap.erase, SMap.ins, SMap.get, hp, hk, ih]

theorem SMap.get_ins_ne {α : Type} (d : α) (m : SMap α) {k j : Nat} (v : α) (h : j ≠ k) :
    SMap.get d (SMap.ins m k v) j = SMap.get d m j := by
  induction m with
  | nil => simp [SMap.ins, SMap.get, h.symm]
  | cons p rest ih =>
    by_cases hk : k < p.1
    · simp [SMap.ins, SMap.get, hk, h.symm]
    · simp [SMap.ins, SMap.get, hk, ih]

/-- A read after a write to the same entry gives the value written. -/
@[simp] theorem SMap.get_set_self {α : Type} [DecidableEq α] (d : α) (m : SMap α) (k : Nat) (v : α) :
    SMap.get d (SMap.set d m k v) k = v := by
  by_cases h : v = d
  · simp [SMap.set, h, SMap.get_erase_self]
  · simp [SMap.set, h, SMap.get_ins_self]

/-- A write leaves every other entry as it was. -/
theorem SMap.get_set_ne {α : Type} [DecidableEq α] (d : α) (m : SMap α) {k j : Nat} (v : α) (h : j ≠ k) :
    SMap.get d (SMap.set d m k v) j = SMap.get d m j := by
  by_cases hv : v = d
  · simp [SMap.set, hv, SMap.get_erase_ne d m h]
  · simp [SMap.set, hv, SMap.get_ins_ne d _ v h, SMap.get_erase_ne d m h]

theorem SMap.get_set {α : Type} [DecidableEq α] (d : α) (m : SMap α) (k j : Nat) (v : α) :
    SMap.get d (SMap.set d m k v) j = if j = k then v else SMap.get d m j := by
  by_cases h : j = k
  · simp [h]
  · simp [h, SMap.get_set_ne d m v h]

theorem SMap.erase_sub {α : Type} (m : SMap α) (k : Nat) {p : Nat × α} (h : p ∈ SMap.erase m k) : p ∈ m := by
  induction m with
  | nil => simp [SMap.erase] at h
  | cons q rest ih =>
    by_cases hq : q.1 = k
    · simp only [SMap.erase, hq, if_true] at h
      exact List.mem_cons_of_mem _ (ih h)
    · simp only [SMap.erase, hq, if_false, List.mem_cons] at h
      rcases h with h | h
      · simp [h]
      · exact List.mem_cons_of_mem _ (ih h)

theorem SMap.erase_ne {α : Type} (m : SMap α) (k : Nat) {p : Nat × α} (h : p ∈ SMap.erase m k) : p.1 ≠ k := by
  induction m with
  | nil => simp [SMap.erase] at h
  | cons q rest ih =>
    by_cases hq : q.1 = k
    · simp only [SMap.erase, hq, if_true] at h
      exact ih h
    · simp only [SMap.erase, hq, if_false, List.mem_cons] at h
      rcases h with h | h
      · rw [h]; exact hq
      · exact ih h

theorem SMap.ins_mem {α : Type} (m : SMap α) (k : Nat) (v : α) {p : Nat × α} (h : p ∈ SMap.ins m k v) :
    p = (k, v) ∨ p ∈ m := by
  induction m with
  | nil => simpa [SMap.ins] using h
  | cons q rest ih =>
    by_cases hk : k < q.1
    · simpa [SMap.ins, hk] using h
    · simp only [SMap.ins, hk, if_false, List.mem_cons] at h
      rcases h with h | h
      · simp [h]
      · rcases ih h with h | h <;> simp [h]

theorem SMap.wf_erase {α : Type} [DecidableEq α] (d : α) (m : SMap α) (k : Nat) (h : SMap.wf d m = true) :
    SMap.wf d (SMap.erase m k) = true := by
  induction m with
  | nil => rfl
  | cons p rest ih =>
    simp only [SMap.wf, Bool.and_eq_true, List.all_eq_true] at h
    by_cases hp : p.1 = k
    · simpa [SMap.erase, hp] using ih h.2
    · simp only [SMap.erase, hp, if_false, SMap.wf, Bool.and_eq_true, List.all_eq_true]
      exact ⟨⟨h.1.1, fun q hq => h.1.2 q (SMap.erase_sub rest k hq)⟩, ih h.2⟩

theorem SMap.wf_ins {α : Type} [DecidableEq α] (d : α) (m : SMap α) (k : Nat) (v : α) (hv : v ≠ d)
    (h : SMap.wf d m = true) (hk : ∀ p ∈ m, p.1 ≠ k) : SMap.wf d (SMap.ins m k v) = true := by
  induction m with
  | nil => simp [SMap.ins, SMap.wf, hv]
  | cons p rest ih =>
    have h' := h
    simp only [SMap.wf, Bool.and_eq_true, List.all_eq_true, decide_eq_true_eq] at h'
    by_cases hlt : k < p.1
    · simp only [SMap.ins, hlt, if_true]
      have : ∀ q ∈ p :: rest, k < q.1 := by
        intro q hq
        rcases List.mem_cons.1 hq with rfl | hq
        · exact hlt
        · exact Nat.lt_trans hlt (h'.1.2 q hq)
      rw [SMap.wf, h, Bool.and_true, Bool.and_eq_true, List.all_eq_true]
      exact ⟨by simpa using hv, fun q hq => by simpa using this q hq⟩
    · have hkp : p.1 < k := Nat.lt_of_le_of_ne (Nat.not_lt.1 hlt) (hk p (by simp))
      simp only [SMap.ins, hlt, if_false, SMap.wf, Bool.and_eq_true, List.all_eq_true]
      refine ⟨⟨h'.1.1, fun q hq => ?_⟩, ih h'.2 fun q hq => hk q (List.mem_cons_of_mem _ hq)⟩
      rcases SMap.ins_mem rest k v hq with rfl | hq
      · simpa using hkp
      · simpa using h'.1.2 q hq

/-- A write keeps the canonical form. -/
theorem SMap.wf_set {α : Type} [DecidableEq α] (d : α) (m : SMap α) (k : Nat) (v : α) (h : SMap.wf d m = true) :
    SMap.wf d (SMap.set d m k v) = true := by
  by_cases hv : v = d
  · simpa [SMap.set, hv] using SMap.wf_erase d m k h
  · simpa [SMap.set, hv] using
      SMap.wf_ins d _ k v hv (SMap.wf_erase d m k h) fun _ hp => SMap.erase_ne m k hp

/-- Dropping entries keeps the canonical form. -/
theorem SMap.wf_filter {α : Type} [DecidableEq α] (d : α) (m : SMap α) (f : Nat × α → Bool) (h : SMap.wf d m = true) :
    SMap.wf d (m.filter f) = true := by
  induction m with
  | nil => rfl
  | cons p rest ih =>
    have h' := h
    simp only [SMap.wf, Bool.and_eq_true, List.all_eq_true, decide_eq_true_eq] at h'
    by_cases hf : f p = true
    · rw [List.filter_cons_of_pos hf]
      simp only [SMap.wf, Bool.and_eq_true, List.all_eq_true, decide_eq_true_eq]
      exact ⟨⟨h'.1.1, fun q hq => h'.1.2 q (List.mem_filter.1 hq).1⟩, ih h'.2⟩
    · rw [List.filter_cons_of_neg hf]
      exact ih h'.2

end Sys2Proof
end

