-- ==== Sys2Proof/Laws/State.lean ====
section
/-!
SUPPORT. What each update of a part of the state leaves alone: one lemma per update and field, and what the part reads
as after the update.
-/

namespace Sys2Proof.Machine

@[simp] theorem State.setThr_pending (s : State) (t : Nat) (x : Thr) : (s.setThr t x).pending = s.pending := rfl
@[simp] theorem State.setThr_out (s : State) (t : Nat) (x : Thr) : (s.setThr t x).out = s.out := rfl
@[simp] theorem State.setThr_time (s : State) (t : Nat) (x : Thr) : (s.setThr t x).time = s.time := rfl
@[simp] theorem State.setThr_net (s : State) (t : Nat) (x : Thr) : (s.setThr t x).net = s.net := rfl
@[simp] theorem State.setThr_order (s : State) (t : Nat) (x : Thr) : (s.setThr t x).order = s.order := rfl
@[simp] theorem State.setThr_basin (s : State) (t : Nat) (x : Thr) : (s.setThr t x).basin = s.basin := rfl
@[simp] theorem State.setThr_cistern (s : State) (t : Nat) (x : Thr) : (s.setThr t x).cistern = s.cistern := rfl
@[simp] theorem State.setThr_egress (s : State) (t : Nat) (x : Thr) : (s.setThr t x).egress = s.egress := rfl
@[simp] theorem State.setThr_truns (s : State) (t : Nat) (x : Thr) : (s.setThr t x).truns = s.truns := rfl
@[simp] theorem State.setThr_scratch (s : State) (t : Nat) (x : Thr) : (s.setThr t x).scratch = s.scratch := rfl
@[simp] theorem State.setThr_cores (s : State) (t : Nat) (x : Thr) : (s.setThr t x).cores = s.cores := rfl
@[simp] theorem State.setThr_clusters (s : State) (t : Nat) (x : Thr) : (s.setThr t x).clusters = s.clusters := rfl
@[simp] theorem State.setThr_locks (s : State) (t : Nat) (x : Thr) : (s.setThr t x).locks = s.locks := rfl
@[simp] theorem State.setThr_keys (s : State) (t : Nat) (x : Thr) : (s.setThr t x).keys = s.keys := rfl
@[simp] theorem State.setThr_mem (s : State) (t : Nat) (x : Thr) : (s.setThr t x).mem = s.mem := rfl
@[simp] theorem State.setThr_hbm (s : State) (t : Nat) (x : Thr) : (s.setThr t x).hbm = s.hbm := rfl
@[simp] theorem State.setThr_power (s : State) (t : Nat) (x : Thr) : (s.setThr t x).power = s.power := rfl
@[simp] theorem State.setThr_tables (s : State) (t : Nat) (x : Thr) : (s.setThr t x).tables = s.tables := rfl
@[simp] theorem State.setThr_ledger (s : State) (t : Nat) (x : Thr) : (s.setThr t x).ledger = s.ledger := rfl
@[simp] theorem State.setThr_dci (s : State) (t : Nat) (x : Thr) : (s.setThr t x).dci = s.dci := rfl
@[simp] theorem State.setThr_faults (s : State) (t : Nat) (x : Thr) : (s.setThr t x).faults = s.faults := rfl
@[simp] theorem State.setThr_trust (s : State) (t : Nat) (x : Thr) : (s.setThr t x).trust = s.trust := rfl
@[simp] theorem State.setThr_free (s : State) (t : Nat) (x : Thr) : (s.setThr t x).free = s.free := rfl

@[simp] theorem State.updThr_pending (s : State) (t : Nat) (f : Thr → Thr) : (s.updThr t f).pending = s.pending := rfl
@[simp] theorem State.updThr_out (s : State) (t : Nat) (f : Thr → Thr) : (s.updThr t f).out = s.out := rfl
@[simp] theorem State.updThr_time (s : State) (t : Nat) (f : Thr → Thr) : (s.updThr t f).time = s.time := rfl
@[simp] theorem State.updThr_net (s : State) (t : Nat) (f : Thr → Thr) : (s.updThr t f).net = s.net := rfl
@[simp] theorem State.updThr_order (s : State) (t : Nat) (f : Thr → Thr) : (s.updThr t f).order = s.order := rfl
@[simp] theorem State.updThr_basin (s : State) (t : Nat) (f : Thr → Thr) : (s.updThr t f).basin = s.basin := rfl
@[simp] theorem State.updThr_cistern (s : State) (t : Nat) (f : Thr → Thr) : (s.updThr t f).cistern = s.cistern := rfl
@[simp] theorem State.updThr_egress (s : State) (t : Nat) (f : Thr → Thr) : (s.updThr t f).egress = s.egress := rfl
@[simp] theorem State.updThr_truns (s : State) (t : Nat) (f : Thr → Thr) : (s.updThr t f).truns = s.truns := rfl
@[simp] theorem State.updThr_scratch (s : State) (t : Nat) (f : Thr → Thr) : (s.updThr t f).scratch = s.scratch := rfl
@[simp] theorem State.updThr_cores (s : State) (t : Nat) (f : Thr → Thr) : (s.updThr t f).cores = s.cores := rfl
@[simp] theorem State.updThr_clusters (s : State) (t : Nat) (f : Thr → Thr) : (s.updThr t f).clusters = s.clusters := rfl
@[simp] theorem State.updThr_locks (s : State) (t : Nat) (f : Thr → Thr) : (s.updThr t f).locks = s.locks := rfl
@[simp] theorem State.updThr_keys (s : State) (t : Nat) (f : Thr → Thr) : (s.updThr t f).keys = s.keys := rfl
@[simp] theorem State.updThr_mem (s : State) (t : Nat) (f : Thr → Thr) : (s.updThr t f).mem = s.mem := rfl
@[simp] theorem State.updThr_hbm (s : State) (t : Nat) (f : Thr → Thr) : (s.updThr t f).hbm = s.hbm := rfl
@[simp] theorem State.updThr_power (s : State) (t : Nat) (f : Thr → Thr) : (s.updThr t f).power = s.power := rfl
@[simp] theorem State.updThr_tables (s : State) (t : Nat) (f : Thr → Thr) : (s.updThr t f).tables = s.tables := rfl
@[simp] theorem State.updThr_ledger (s : State) (t : Nat) (f : Thr → Thr) : (s.updThr t f).ledger = s.ledger := rfl
@[simp] theorem State.updThr_dci (s : State) (t : Nat) (f : Thr → Thr) : (s.updThr t f).dci = s.dci := rfl
@[simp] theorem State.updThr_faults (s : State) (t : Nat) (f : Thr → Thr) : (s.updThr t f).faults = s.faults := rfl
@[simp] theorem State.updThr_trust (s : State) (t : Nat) (f : Thr → Thr) : (s.updThr t f).trust = s.trust := rfl
@[simp] theorem State.updThr_free (s : State) (t : Nat) (f : Thr → Thr) : (s.updThr t f).free = s.free := rfl

@[simp] theorem State.setReg_pending (s : State) (t : Nat) (r : Reg) (v : W64) : (s.setReg t r v).pending = s.pending := rfl
@[simp] theorem State.setReg_out (s : State) (t : Nat) (r : Reg) (v : W64) : (s.setReg t r v).out = s.out := rfl
@[simp] theorem State.setReg_time (s : State) (t : Nat) (r : Reg) (v : W64) : (s.setReg t r v).time = s.time := rfl
@[simp] theorem State.setReg_net (s : State) (t : Nat) (r : Reg) (v : W64) : (s.setReg t r v).net = s.net := rfl
@[simp] theorem State.setReg_order (s : State) (t : Nat) (r : Reg) (v : W64) : (s.setReg t r v).order = s.order := rfl
@[simp] theorem State.setReg_basin (s : State) (t : Nat) (r : Reg) (v : W64) : (s.setReg t r v).basin = s.basin := rfl
@[simp] theorem State.setReg_cistern (s : State) (t : Nat) (r : Reg) (v : W64) : (s.setReg t r v).cistern = s.cistern := rfl
@[simp] theorem State.setReg_egress (s : State) (t : Nat) (r : Reg) (v : W64) : (s.setReg t r v).egress = s.egress := rfl
@[simp] theorem State.setReg_truns (s : State) (t : Nat) (r : Reg) (v : W64) : (s.setReg t r v).truns = s.truns := rfl
@[simp] theorem State.setReg_scratch (s : State) (t : Nat) (r : Reg) (v : W64) : (s.setReg t r v).scratch = s.scratch := rfl
@[simp] theorem State.setReg_cores (s : State) (t : Nat) (r : Reg) (v : W64) : (s.setReg t r v).cores = s.cores := rfl
@[simp] theorem State.setReg_clusters (s : State) (t : Nat) (r : Reg) (v : W64) : (s.setReg t r v).clusters = s.clusters := rfl
@[simp] theorem State.setReg_locks (s : State) (t : Nat) (r : Reg) (v : W64) : (s.setReg t r v).locks = s.locks := rfl
@[simp] theorem State.setReg_keys (s : State) (t : Nat) (r : Reg) (v : W64) : (s.setReg t r v).keys = s.keys := rfl
@[simp] theorem State.setReg_mem (s : State) (t : Nat) (r : Reg) (v : W64) : (s.setReg t r v).mem = s.mem := rfl
@[simp] theorem State.setReg_hbm (s : State) (t : Nat) (r : Reg) (v : W64) : (s.setReg t r v).hbm = s.hbm := rfl
@[simp] theorem State.setReg_power (s : State) (t : Nat) (r : Reg) (v : W64) : (s.setReg t r v).power = s.power := rfl
@[simp] theorem State.setReg_tables (s : State) (t : Nat) (r : Reg) (v : W64) : (s.setReg t r v).tables = s.tables := rfl
@[simp] theorem State.setReg_ledger (s : State) (t : Nat) (r : Reg) (v : W64) : (s.setReg t r v).ledger = s.ledger := rfl
@[simp] theorem State.setReg_dci (s : State) (t : Nat) (r : Reg) (v : W64) : (s.setReg t r v).dci = s.dci := rfl
@[simp] theorem State.setReg_faults (s : State) (t : Nat) (r : Reg) (v : W64) : (s.setReg t r v).faults = s.faults := rfl
@[simp] theorem State.setReg_trust (s : State) (t : Nat) (r : Reg) (v : W64) : (s.setReg t r v).trust = s.trust := rfl
@[simp] theorem State.setReg_free (s : State) (t : Nat) (r : Reg) (v : W64) : (s.setReg t r v).free = s.free := rfl

@[simp] theorem State.setFlags_pending (s : State) (t : Nat) (f : W32) : (s.setFlags t f).pending = s.pending := rfl
@[simp] theorem State.setFlags_out (s : State) (t : Nat) (f : W32) : (s.setFlags t f).out = s.out := rfl
@[simp] theorem State.setFlags_time (s : State) (t : Nat) (f : W32) : (s.setFlags t f).time = s.time := rfl
@[simp] theorem State.setFlags_net (s : State) (t : Nat) (f : W32) : (s.setFlags t f).net = s.net := rfl
@[simp] theorem State.setFlags_order (s : State) (t : Nat) (f : W32) : (s.setFlags t f).order = s.order := rfl
@[simp] theorem State.setFlags_basin (s : State) (t : Nat) (f : W32) : (s.setFlags t f).basin = s.basin := rfl
@[simp] theorem State.setFlags_cistern (s : State) (t : Nat) (f : W32) : (s.setFlags t f).cistern = s.cistern := rfl
@[simp] theorem State.setFlags_egress (s : State) (t : Nat) (f : W32) : (s.setFlags t f).egress = s.egress := rfl
@[simp] theorem State.setFlags_truns (s : State) (t : Nat) (f : W32) : (s.setFlags t f).truns = s.truns := rfl
@[simp] theorem State.setFlags_scratch (s : State) (t : Nat) (f : W32) : (s.setFlags t f).scratch = s.scratch := rfl
@[simp] theorem State.setFlags_cores (s : State) (t : Nat) (f : W32) : (s.setFlags t f).cores = s.cores := rfl
@[simp] theorem State.setFlags_clusters (s : State) (t : Nat) (f : W32) : (s.setFlags t f).clusters = s.clusters := rfl
@[simp] theorem State.setFlags_locks (s : State) (t : Nat) (f : W32) : (s.setFlags t f).locks = s.locks := rfl
@[simp] theorem State.setFlags_keys (s : State) (t : Nat) (f : W32) : (s.setFlags t f).keys = s.keys := rfl
@[simp] theorem State.setFlags_mem (s : State) (t : Nat) (f : W32) : (s.setFlags t f).mem = s.mem := rfl
@[simp] theorem State.setFlags_hbm (s : State) (t : Nat) (f : W32) : (s.setFlags t f).hbm = s.hbm := rfl
@[simp] theorem State.setFlags_power (s : State) (t : Nat) (f : W32) : (s.setFlags t f).power = s.power := rfl
@[simp] theorem State.setFlags_tables (s : State) (t : Nat) (f : W32) : (s.setFlags t f).tables = s.tables := rfl
@[simp] theorem State.setFlags_ledger (s : State) (t : Nat) (f : W32) : (s.setFlags t f).ledger = s.ledger := rfl
@[simp] theorem State.setFlags_dci (s : State) (t : Nat) (f : W32) : (s.setFlags t f).dci = s.dci := rfl
@[simp] theorem State.setFlags_faults (s : State) (t : Nat) (f : W32) : (s.setFlags t f).faults = s.faults := rfl
@[simp] theorem State.setFlags_trust (s : State) (t : Nat) (f : W32) : (s.setFlags t f).trust = s.trust := rfl
@[simp] theorem State.setFlags_free (s : State) (t : Nat) (f : W32) : (s.setFlags t f).free = s.free := rfl

@[simp] theorem State.setPair_pending (s : State) (t : Nat) (b : Reg) (v : BitVec 128) : (s.setPair t b v).pending = s.pending := rfl
@[simp] theorem State.setPair_out (s : State) (t : Nat) (b : Reg) (v : BitVec 128) : (s.setPair t b v).out = s.out := rfl
@[simp] theorem State.setPair_time (s : State) (t : Nat) (b : Reg) (v : BitVec 128) : (s.setPair t b v).time = s.time := rfl
@[simp] theorem State.setPair_net (s : State) (t : Nat) (b : Reg) (v : BitVec 128) : (s.setPair t b v).net = s.net := rfl
@[simp] theorem State.setPair_order (s : State) (t : Nat) (b : Reg) (v : BitVec 128) : (s.setPair t b v).order = s.order := rfl
@[simp] theorem State.setPair_basin (s : State) (t : Nat) (b : Reg) (v : BitVec 128) : (s.setPair t b v).basin = s.basin := rfl
@[simp] theorem State.setPair_cistern (s : State) (t : Nat) (b : Reg) (v : BitVec 128) : (s.setPair t b v).cistern = s.cistern := rfl
@[simp] theorem State.setPair_egress (s : State) (t : Nat) (b : Reg) (v : BitVec 128) : (s.setPair t b v).egress = s.egress := rfl
@[simp] theorem State.setPair_truns (s : State) (t : Nat) (b : Reg) (v : BitVec 128) : (s.setPair t b v).truns = s.truns := rfl
@[simp] theorem State.setPair_scratch (s : State) (t : Nat) (b : Reg) (v : BitVec 128) : (s.setPair t b v).scratch = s.scratch := rfl
@[simp] theorem State.setPair_cores (s : State) (t : Nat) (b : Reg) (v : BitVec 128) : (s.setPair t b v).cores = s.cores := rfl
@[simp] theorem State.setPair_clusters (s : State) (t : Nat) (b : Reg) (v : BitVec 128) : (s.setPair t b v).clusters = s.clusters := rfl
@[simp] theorem State.setPair_locks (s : State) (t : Nat) (b : Reg) (v : BitVec 128) : (s.setPair t b v).locks = s.locks := rfl
@[simp] theorem State.setPair_keys (s : State) (t : Nat) (b : Reg) (v : BitVec 128) : (s.setPair t b v).keys = s.keys := rfl
@[simp] theorem State.setPair_mem (s : State) (t : Nat) (b : Reg) (v : BitVec 128) : (s.setPair t b v).mem = s.mem := rfl
@[simp] theorem State.setPair_hbm (s : State) (t : Nat) (b : Reg) (v : BitVec 128) : (s.setPair t b v).hbm = s.hbm := rfl
@[simp] theorem State.setPair_power (s : State) (t : Nat) (b : Reg) (v : BitVec 128) : (s.setPair t b v).power = s.power := rfl
@[simp] theorem State.setPair_tables (s : State) (t : Nat) (b : Reg) (v : BitVec 128) : (s.setPair t b v).tables = s.tables := rfl
@[simp] theorem State.setPair_ledger (s : State) (t : Nat) (b : Reg) (v : BitVec 128) : (s.setPair t b v).ledger = s.ledger := rfl
@[simp] theorem State.setPair_dci (s : State) (t : Nat) (b : Reg) (v : BitVec 128) : (s.setPair t b v).dci = s.dci := rfl
@[simp] theorem State.setPair_faults (s : State) (t : Nat) (b : Reg) (v : BitVec 128) : (s.setPair t b v).faults = s.faults := rfl
@[simp] theorem State.setPair_trust (s : State) (t : Nat) (b : Reg) (v : BitVec 128) : (s.setPair t b v).trust = s.trust := rfl
@[simp] theorem State.setPair_free (s : State) (t : Nat) (b : Reg) (v : BitVec 128) : (s.setPair t b v).free = s.free := rfl

@[simp] theorem State.setTr_pending (s : State) (t : Nat) (x : ThrRun) : (s.setTr t x).pending = s.pending := rfl
@[simp] theorem State.setTr_out (s : State) (t : Nat) (x : ThrRun) : (s.setTr t x).out = s.out := rfl
@[simp] theorem State.setTr_time (s : State) (t : Nat) (x : ThrRun) : (s.setTr t x).time = s.time := rfl
@[simp] theorem State.setTr_net (s : State) (t : Nat) (x : ThrRun) : (s.setTr t x).net = s.net := rfl
@[simp] theorem State.setTr_order (s : State) (t : Nat) (x : ThrRun) : (s.setTr t x).order = s.order := rfl
@[simp] theorem State.setTr_basin (s : State) (t : Nat) (x : ThrRun) : (s.setTr t x).basin = s.basin := rfl
@[simp] theorem State.setTr_cistern (s : State) (t : Nat) (x : ThrRun) : (s.setTr t x).cistern = s.cistern := rfl
@[simp] theorem State.setTr_egress (s : State) (t : Nat) (x : ThrRun) : (s.setTr t x).egress = s.egress := rfl
@[simp] theorem State.setTr_thrs (s : State) (t : Nat) (x : ThrRun) : (s.setTr t x).thrs = s.thrs := rfl
@[simp] theorem State.setTr_scratch (s : State) (t : Nat) (x : ThrRun) : (s.setTr t x).scratch = s.scratch := rfl
@[simp] theorem State.setTr_cores (s : State) (t : Nat) (x : ThrRun) : (s.setTr t x).cores = s.cores := rfl
@[simp] theorem State.setTr_clusters (s : State) (t : Nat) (x : ThrRun) : (s.setTr t x).clusters = s.clusters := rfl
@[simp] theorem State.setTr_locks (s : State) (t : Nat) (x : ThrRun) : (s.setTr t x).locks = s.locks := rfl
@[simp] theorem State.setTr_keys (s : State) (t : Nat) (x : ThrRun) : (s.setTr t x).keys = s.keys := rfl
@[simp] theorem State.setTr_mem (s : State) (t : Nat) (x : ThrRun) : (s.setTr t x).mem = s.mem := rfl
@[simp] theorem State.setTr_hbm (s : State) (t : Nat) (x : ThrRun) : (s.setTr t x).hbm = s.hbm := rfl
@[simp] theorem State.setTr_power (s : State) (t : Nat) (x : ThrRun) : (s.setTr t x).power = s.power := rfl
@[simp] theorem State.setTr_tables (s : State) (t : Nat) (x : ThrRun) : (s.setTr t x).tables = s.tables := rfl
@[simp] theorem State.setTr_ledger (s : State) (t : Nat) (x : ThrRun) : (s.setTr t x).ledger = s.ledger := rfl
@[simp] theorem State.setTr_dci (s : State) (t : Nat) (x : ThrRun) : (s.setTr t x).dci = s.dci := rfl
@[simp] theorem State.setTr_faults (s : State) (t : Nat) (x : ThrRun) : (s.setTr t x).faults = s.faults := rfl
@[simp] theorem State.setTr_trust (s : State) (t : Nat) (x : ThrRun) : (s.setTr t x).trust = s.trust := rfl
@[simp] theorem State.setTr_free (s : State) (t : Nat) (x : ThrRun) : (s.setTr t x).free = s.free := rfl

@[simp] theorem State.updTr_pending (s : State) (t : Nat) (f : ThrRun → ThrRun) : (s.updTr t f).pending = s.pending := rfl
@[simp] theorem State.updTr_out (s : State) (t : Nat) (f : ThrRun → ThrRun) : (s.updTr t f).out = s.out := rfl
@[simp] theorem State.updTr_time (s : State) (t : Nat) (f : ThrRun → ThrRun) : (s.updTr t f).time = s.time := rfl
@[simp] theorem State.updTr_net (s : State) (t : Nat) (f : ThrRun → ThrRun) : (s.updTr t f).net = s.net := rfl
@[simp] theorem State.updTr_order (s : State) (t : Nat) (f : ThrRun → ThrRun) : (s.updTr t f).order = s.order := rfl
@[simp] theorem State.updTr_basin (s : State) (t : Nat) (f : ThrRun → ThrRun) : (s.updTr t f).basin = s.basin := rfl
@[simp] theorem State.updTr_cistern (s : State) (t : Nat) (f : ThrRun → ThrRun) : (s.updTr t f).cistern = s.cistern := rfl
@[simp] theorem State.updTr_egress (s : State) (t : Nat) (f : ThrRun → ThrRun) : (s.updTr t f).egress = s.egress := rfl
@[simp] theorem State.updTr_thrs (s : State) (t : Nat) (f : ThrRun → ThrRun) : (s.updTr t f).thrs = s.thrs := rfl
@[simp] theorem State.updTr_scratch (s : State) (t : Nat) (f : ThrRun → ThrRun) : (s.updTr t f).scratch = s.scratch := rfl
@[simp] theorem State.updTr_cores (s : State) (t : Nat) (f : ThrRun → ThrRun) : (s.updTr t f).cores = s.cores := rfl
@[simp] theorem State.updTr_clusters (s : State) (t : Nat) (f : ThrRun → ThrRun) : (s.updTr t f).clusters = s.clusters := rfl
@[simp] theorem State.updTr_locks (s : State) (t : Nat) (f : ThrRun → ThrRun) : (s.updTr t f).locks = s.locks := rfl
@[simp] theorem State.updTr_keys (s : State) (t : Nat) (f : ThrRun → ThrRun) : (s.updTr t f).keys = s.keys := rfl
@[simp] theorem State.updTr_mem (s : State) (t : Nat) (f : ThrRun → ThrRun) : (s.updTr t f).mem = s.mem := rfl
@[simp] theorem State.updTr_hbm (s : State) (t : Nat) (f : ThrRun → ThrRun) : (s.updTr t f).hbm = s.hbm := rfl
@[simp] theorem State.updTr_power (s : State) (t : Nat) (f : ThrRun → ThrRun) : (s.updTr t f).power = s.power := rfl
@[simp] theorem State.updTr_tables (s : State) (t : Nat) (f : ThrRun → ThrRun) : (s.updTr t f).tables = s.tables := rfl
@[simp] theorem State.updTr_ledger (s : State) (t : Nat) (f : ThrRun → ThrRun) : (s.updTr t f).ledger = s.ledger := rfl
@[simp] theorem State.updTr_dci (s : State) (t : Nat) (f : ThrRun → ThrRun) : (s.updTr t f).dci = s.dci := rfl
@[simp] theorem State.updTr_faults (s : State) (t : Nat) (f : ThrRun → ThrRun) : (s.updTr t f).faults = s.faults := rfl
@[simp] theorem State.updTr_trust (s : State) (t : Nat) (f : ThrRun → ThrRun) : (s.updTr t f).trust = s.trust := rfl
@[simp] theorem State.updTr_free (s : State) (t : Nat) (f : ThrRun → ThrRun) : (s.updTr t f).free = s.free := rfl

@[simp] theorem State.updRun_pending (s : State) (t : Nat) (f : RunSt → RunSt) : (s.updRun t f).pending = s.pending := rfl
@[simp] theorem State.updRun_out (s : State) (t : Nat) (f : RunSt → RunSt) : (s.updRun t f).out = s.out := rfl
@[simp] theorem State.updRun_time (s : State) (t : Nat) (f : RunSt → RunSt) : (s.updRun t f).time = s.time := rfl
@[simp] theorem State.updRun_net (s : State) (t : Nat) (f : RunSt → RunSt) : (s.updRun t f).net = s.net := rfl
@[simp] theorem State.updRun_order (s : State) (t : Nat) (f : RunSt → RunSt) : (s.updRun t f).order = s.order := rfl
@[simp] theorem State.updRun_basin (s : State) (t : Nat) (f : RunSt → RunSt) : (s.updRun t f).basin = s.basin := rfl
@[simp] theorem State.updRun_cistern (s : State) (t : Nat) (f : RunSt → RunSt) : (s.updRun t f).cistern = s.cistern := rfl
@[simp] theorem State.updRun_egress (s : State) (t : Nat) (f : RunSt → RunSt) : (s.updRun t f).egress = s.egress := rfl
@[simp] theorem State.updRun_thrs (s : State) (t : Nat) (f : RunSt → RunSt) : (s.updRun t f).thrs = s.thrs := rfl
@[simp] theorem State.updRun_scratch (s : State) (t : Nat) (f : RunSt → RunSt) : (s.updRun t f).scratch = s.scratch := rfl
@[simp] theorem State.updRun_cores (s : State) (t : Nat) (f : RunSt → RunSt) : (s.updRun t f).cores = s.cores := rfl
@[simp] theorem State.updRun_clusters (s : State) (t : Nat) (f : RunSt → RunSt) : (s.updRun t f).clusters = s.clusters := rfl
@[simp] theorem State.updRun_locks (s : State) (t : Nat) (f : RunSt → RunSt) : (s.updRun t f).locks = s.locks := rfl
@[simp] theorem State.updRun_keys (s : State) (t : Nat) (f : RunSt → RunSt) : (s.updRun t f).keys = s.keys := rfl
@[simp] theorem State.updRun_mem (s : State) (t : Nat) (f : RunSt → RunSt) : (s.updRun t f).mem = s.mem := rfl
@[simp] theorem State.updRun_hbm (s : State) (t : Nat) (f : RunSt → RunSt) : (s.updRun t f).hbm = s.hbm := rfl
@[simp] theorem State.updRun_power (s : State) (t : Nat) (f : RunSt → RunSt) : (s.updRun t f).power = s.power := rfl
@[simp] theorem State.updRun_tables (s : State) (t : Nat) (f : RunSt → RunSt) : (s.updRun t f).tables = s.tables := rfl
@[simp] theorem State.updRun_ledger (s : State) (t : Nat) (f : RunSt → RunSt) : (s.updRun t f).ledger = s.ledger := rfl
@[simp] theorem State.updRun_dci (s : State) (t : Nat) (f : RunSt → RunSt) : (s.updRun t f).dci = s.dci := rfl
@[simp] theorem State.updRun_faults (s : State) (t : Nat) (f : RunSt → RunSt) : (s.updRun t f).faults = s.faults := rfl
@[simp] theorem State.updRun_trust (s : State) (t : Nat) (f : RunSt → RunSt) : (s.updRun t f).trust = s.trust := rfl
@[simp] theorem State.updRun_free (s : State) (t : Nat) (f : RunSt → RunSt) : (s.updRun t f).free = s.free := rfl

@[simp] theorem State.setCore_pending (s : State) (c : Nat) (x : CoreSt) : (s.setCore c x).pending = s.pending := rfl
@[simp] theorem State.setCore_out (s : State) (c : Nat) (x : CoreSt) : (s.setCore c x).out = s.out := rfl
@[simp] theorem State.setCore_time (s : State) (c : Nat) (x : CoreSt) : (s.setCore c x).time = s.time := rfl
@[simp] theorem State.setCore_net (s : State) (c : Nat) (x : CoreSt) : (s.setCore c x).net = s.net := rfl
@[simp] theorem State.setCore_order (s : State) (c : Nat) (x : CoreSt) : (s.setCore c x).order = s.order := rfl
@[simp] theorem State.setCore_basin (s : State) (c : Nat) (x : CoreSt) : (s.setCore c x).basin = s.basin := rfl
@[simp] theorem State.setCore_cistern (s : State) (c : Nat) (x : CoreSt) : (s.setCore c x).cistern = s.cistern := rfl
@[simp] theorem State.setCore_egress (s : State) (c : Nat) (x : CoreSt) : (s.setCore c x).egress = s.egress := rfl
@[simp] theorem State.setCore_thrs (s : State) (c : Nat) (x : CoreSt) : (s.setCore c x).thrs = s.thrs := rfl
@[simp] theorem State.setCore_truns (s : State) (c : Nat) (x : CoreSt) : (s.setCore c x).truns = s.truns := rfl
@[simp] theorem State.setCore_scratch (s : State) (c : Nat) (x : CoreSt) : (s.setCore c x).scratch = s.scratch := rfl
@[simp] theorem State.setCore_clusters (s : State) (c : Nat) (x : CoreSt) : (s.setCore c x).clusters = s.clusters := rfl
@[simp] theorem State.setCore_locks (s : State) (c : Nat) (x : CoreSt) : (s.setCore c x).locks = s.locks := rfl
@[simp] theorem State.setCore_keys (s : State) (c : Nat) (x : CoreSt) : (s.setCore c x).keys = s.keys := rfl
@[simp] theorem State.setCore_mem (s : State) (c : Nat) (x : CoreSt) : (s.setCore c x).mem = s.mem := rfl
@[simp] theorem State.setCore_hbm (s : State) (c : Nat) (x : CoreSt) : (s.setCore c x).hbm = s.hbm := rfl
@[simp] theorem State.setCore_power (s : State) (c : Nat) (x : CoreSt) : (s.setCore c x).power = s.power := rfl
@[simp] theorem State.setCore_tables (s : State) (c : Nat) (x : CoreSt) : (s.setCore c x).tables = s.tables := rfl
@[simp] theorem State.setCore_ledger (s : State) (c : Nat) (x : CoreSt) : (s.setCore c x).ledger = s.ledger := rfl
@[simp] theorem State.setCore_dci (s : State) (c : Nat) (x : CoreSt) : (s.setCore c x).dci = s.dci := rfl
@[simp] theorem State.setCore_faults (s : State) (c : Nat) (x : CoreSt) : (s.setCore c x).faults = s.faults := rfl
@[simp] theorem State.setCore_trust (s : State) (c : Nat) (x : CoreSt) : (s.setCore c x).trust = s.trust := rfl
@[simp] theorem State.setCore_free (s : State) (c : Nat) (x : CoreSt) : (s.setCore c x).free = s.free := rfl

@[simp] theorem State.updCore_pending (s : State) (c : Nat) (f : CoreSt → CoreSt) : (s.updCore c f).pending = s.pending := rfl
@[simp] theorem State.updCore_out (s : State) (c : Nat) (f : CoreSt → CoreSt) : (s.updCore c f).out = s.out := rfl
@[simp] theorem State.updCore_time (s : State) (c : Nat) (f : CoreSt → CoreSt) : (s.updCore c f).time = s.time := rfl
@[simp] theorem State.updCore_net (s : State) (c : Nat) (f : CoreSt → CoreSt) : (s.updCore c f).net = s.net := rfl
@[simp] theorem State.updCore_order (s : State) (c : Nat) (f : CoreSt → CoreSt) : (s.updCore c f).order = s.order := rfl
@[simp] theorem State.updCore_basin (s : State) (c : Nat) (f : CoreSt → CoreSt) : (s.updCore c f).basin = s.basin := rfl
@[simp] theorem State.updCore_cistern (s : State) (c : Nat) (f : CoreSt → CoreSt) : (s.updCore c f).cistern = s.cistern := rfl
@[simp] theorem State.updCore_egress (s : State) (c : Nat) (f : CoreSt → CoreSt) : (s.updCore c f).egress = s.egress := rfl
@[simp] theorem State.updCore_thrs (s : State) (c : Nat) (f : CoreSt → CoreSt) : (s.updCore c f).thrs = s.thrs := rfl
@[simp] theorem State.updCore_truns (s : State) (c : Nat) (f : CoreSt → CoreSt) : (s.updCore c f).truns = s.truns := rfl
@[simp] theorem State.updCore_scratch (s : State) (c : Nat) (f : CoreSt → CoreSt) : (s.updCore c f).scratch = s.scratch := rfl
@[simp] theorem State.updCore_clusters (s : State) (c : Nat) (f : CoreSt → CoreSt) : (s.updCore c f).clusters = s.clusters := rfl
@[simp] theorem State.updCore_locks (s : State) (c : Nat) (f : CoreSt → CoreSt) : (s.updCore c f).locks = s.locks := rfl
@[simp] theorem State.updCore_keys (s : State) (c : Nat) (f : CoreSt → CoreSt) : (s.updCore c f).keys = s.keys := rfl
@[simp] theorem State.updCore_mem (s : State) (c : Nat) (f : CoreSt → CoreSt) : (s.updCore c f).mem = s.mem := rfl
@[simp] theorem State.updCore_hbm (s : State) (c : Nat) (f : CoreSt → CoreSt) : (s.updCore c f).hbm = s.hbm := rfl
@[simp] theorem State.updCore_power (s : State) (c : Nat) (f : CoreSt → CoreSt) : (s.updCore c f).power = s.power := rfl
@[simp] theorem State.updCore_tables (s : State) (c : Nat) (f : CoreSt → CoreSt) : (s.updCore c f).tables = s.tables := rfl
@[simp] theorem State.updCore_ledger (s : State) (c : Nat) (f : CoreSt → CoreSt) : (s.updCore c f).ledger = s.ledger := rfl
@[simp] theorem State.updCore_dci (s : State) (c : Nat) (f : CoreSt → CoreSt) : (s.updCore c f).dci = s.dci := rfl
@[simp] theorem State.updCore_faults (s : State) (c : Nat) (f : CoreSt → CoreSt) : (s.updCore c f).faults = s.faults := rfl
@[simp] theorem State.updCore_trust (s : State) (c : Nat) (f : CoreSt → CoreSt) : (s.updCore c f).trust = s.trust := rfl
@[simp] theorem State.updCore_free (s : State) (c : Nat) (f : CoreSt → CoreSt) : (s.updCore c f).free = s.free := rfl

@[simp] theorem State.setCl_pending (s : State) (c : Nat) (x : ClusterSt) : (s.setCl c x).pending = s.pending := rfl
@[simp] theorem State.setCl_out (s : State) (c : Nat) (x : ClusterSt) : (s.setCl c x).out = s.out := rfl
@[simp] theorem State.setCl_time (s : State) (c : Nat) (x : ClusterSt) : (s.setCl c x).time = s.time := rfl
@[simp] theorem State.setCl_net (s : State) (c : Nat) (x : ClusterSt) : (s.setCl c x).net = s.net := rfl
@[simp] theorem State.setCl_order (s : State) (c : Nat) (x : ClusterSt) : (s.setCl c x).order = s.order := rfl
@[simp] theorem State.setCl_basin (s : State) (c : Nat) (x : ClusterSt) : (s.setCl c x).basin = s.basin := rfl
@[simp] theorem State.setCl_cistern (s : State) (c : Nat) (x : ClusterSt) : (s.setCl c x).cistern = s.cistern := rfl
@[simp] theorem State.setCl_egress (s : State) (c : Nat) (x : ClusterSt) : (s.setCl c x).egress = s.egress := rfl
@[simp] theorem State.setCl_thrs (s : State) (c : Nat) (x : ClusterSt) : (s.setCl c x).thrs = s.thrs := rfl
@[simp] theorem State.setCl_truns (s : State) (c : Nat) (x : ClusterSt) : (s.setCl c x).truns = s.truns := rfl
@[simp] theorem State.setCl_scratch (s : State) (c : Nat) (x : ClusterSt) : (s.setCl c x).scratch = s.scratch := rfl
@[simp] theorem State.setCl_cores (s : State) (c : Nat) (x : ClusterSt) : (s.setCl c x).cores = s.cores := rfl
@[simp] theorem State.setCl_locks (s : State) (c : Nat) (x : ClusterSt) : (s.setCl c x).locks = s.locks := rfl
@[simp] theorem State.setCl_keys (s : State) (c : Nat) (x : ClusterSt) : (s.setCl c x).keys = s.keys := rfl
@[simp] theorem State.setCl_mem (s : State) (c : Nat) (x : ClusterSt) : (s.setCl c x).mem = s.mem := rfl
@[simp] theorem State.setCl_hbm (s : State) (c : Nat) (x : ClusterSt) : (s.setCl c x).hbm = s.hbm := rfl
@[simp] theorem State.setCl_power (s : State) (c : Nat) (x : ClusterSt) : (s.setCl c x).power = s.power := rfl
@[simp] theorem State.setCl_tables (s : State) (c : Nat) (x : ClusterSt) : (s.setCl c x).tables = s.tables := rfl
@[simp] theorem State.setCl_ledger (s : State) (c : Nat) (x : ClusterSt) : (s.setCl c x).ledger = s.ledger := rfl
@[simp] theorem State.setCl_dci (s : State) (c : Nat) (x : ClusterSt) : (s.setCl c x).dci = s.dci := rfl
@[simp] theorem State.setCl_faults (s : State) (c : Nat) (x : ClusterSt) : (s.setCl c x).faults = s.faults := rfl
@[simp] theorem State.setCl_trust (s : State) (c : Nat) (x : ClusterSt) : (s.setCl c x).trust = s.trust := rfl
@[simp] theorem State.setCl_free (s : State) (c : Nat) (x : ClusterSt) : (s.setCl c x).free = s.free := rfl

@[simp] theorem State.updCl_pending (s : State) (c : Nat) (f : ClusterSt → ClusterSt) : (s.updCl c f).pending = s.pending := rfl
@[simp] theorem State.updCl_out (s : State) (c : Nat) (f : ClusterSt → ClusterSt) : (s.updCl c f).out = s.out := rfl
@[simp] theorem State.updCl_time (s : State) (c : Nat) (f : ClusterSt → ClusterSt) : (s.updCl c f).time = s.time := rfl
@[simp] theorem State.updCl_net (s : State) (c : Nat) (f : ClusterSt → ClusterSt) : (s.updCl c f).net = s.net := rfl
@[simp] theorem State.updCl_order (s : State) (c : Nat) (f : ClusterSt → ClusterSt) : (s.updCl c f).order = s.order := rfl
@[simp] theorem State.updCl_basin (s : State) (c : Nat) (f : ClusterSt → ClusterSt) : (s.updCl c f).basin = s.basin := rfl
@[simp] theorem State.updCl_cistern (s : State) (c : Nat) (f : ClusterSt → ClusterSt) : (s.updCl c f).cistern = s.cistern := rfl
@[simp] theorem State.updCl_egress (s : State) (c : Nat) (f : ClusterSt → ClusterSt) : (s.updCl c f).egress = s.egress := rfl
@[simp] theorem State.updCl_thrs (s : State) (c : Nat) (f : ClusterSt → ClusterSt) : (s.updCl c f).thrs = s.thrs := rfl
@[simp] theorem State.updCl_truns (s : State) (c : Nat) (f : ClusterSt → ClusterSt) : (s.updCl c f).truns = s.truns := rfl
@[simp] theorem State.updCl_scratch (s : State) (c : Nat) (f : ClusterSt → ClusterSt) : (s.updCl c f).scratch = s.scratch := rfl
@[simp] theorem State.updCl_cores (s : State) (c : Nat) (f : ClusterSt → ClusterSt) : (s.updCl c f).cores = s.cores := rfl
@[simp] theorem State.updCl_locks (s : State) (c : Nat) (f : ClusterSt → ClusterSt) : (s.updCl c f).locks = s.locks := rfl
@[simp] theorem State.updCl_keys (s : State) (c : Nat) (f : ClusterSt → ClusterSt) : (s.updCl c f).keys = s.keys := rfl
@[simp] theorem State.updCl_mem (s : State) (c : Nat) (f : ClusterSt → ClusterSt) : (s.updCl c f).mem = s.mem := rfl
@[simp] theorem State.updCl_hbm (s : State) (c : Nat) (f : ClusterSt → ClusterSt) : (s.updCl c f).hbm = s.hbm := rfl
@[simp] theorem State.updCl_power (s : State) (c : Nat) (f : ClusterSt → ClusterSt) : (s.updCl c f).power = s.power := rfl
@[simp] theorem State.updCl_tables (s : State) (c : Nat) (f : ClusterSt → ClusterSt) : (s.updCl c f).tables = s.tables := rfl
@[simp] theorem State.updCl_ledger (s : State) (c : Nat) (f : ClusterSt → ClusterSt) : (s.updCl c f).ledger = s.ledger := rfl
@[simp] theorem State.updCl_dci (s : State) (c : Nat) (f : ClusterSt → ClusterSt) : (s.updCl c f).dci = s.dci := rfl
@[simp] theorem State.updCl_faults (s : State) (c : Nat) (f : ClusterSt → ClusterSt) : (s.updCl c f).faults = s.faults := rfl
@[simp] theorem State.updCl_trust (s : State) (c : Nat) (f : ClusterSt → ClusterSt) : (s.updCl c f).trust = s.trust := rfl
@[simp] theorem State.updCl_free (s : State) (c : Nat) (f : ClusterSt → ClusterSt) : (s.updCl c f).free = s.free := rfl

@[simp] theorem State.updL2_pending (s : State) (c : Nat) (f : L2St → L2St) : (s.updL2 c f).pending = s.pending := rfl
@[simp] theorem State.updL2_out (s : State) (c : Nat) (f : L2St → L2St) : (s.updL2 c f).out = s.out := rfl
@[simp] theorem State.updL2_time (s : State) (c : Nat) (f : L2St → L2St) : (s.updL2 c f).time = s.time := rfl
@[simp] theorem State.updL2_net (s : State) (c : Nat) (f : L2St → L2St) : (s.updL2 c f).net = s.net := rfl
@[simp] theorem State.updL2_order (s : State) (c : Nat) (f : L2St → L2St) : (s.updL2 c f).order = s.order := rfl
@[simp] theorem State.updL2_basin (s : State) (c : Nat) (f : L2St → L2St) : (s.updL2 c f).basin = s.basin := rfl
@[simp] theorem State.updL2_cistern (s : State) (c : Nat) (f : L2St → L2St) : (s.updL2 c f).cistern = s.cistern := rfl
@[simp] theorem State.updL2_egress (s : State) (c : Nat) (f : L2St → L2St) : (s.updL2 c f).egress = s.egress := rfl
@[simp] theorem State.updL2_thrs (s : State) (c : Nat) (f : L2St → L2St) : (s.updL2 c f).thrs = s.thrs := rfl
@[simp] theorem State.updL2_truns (s : State) (c : Nat) (f : L2St → L2St) : (s.updL2 c f).truns = s.truns := rfl
@[simp] theorem State.updL2_scratch (s : State) (c : Nat) (f : L2St → L2St) : (s.updL2 c f).scratch = s.scratch := rfl
@[simp] theorem State.updL2_cores (s : State) (c : Nat) (f : L2St → L2St) : (s.updL2 c f).cores = s.cores := rfl
@[simp] theorem State.updL2_locks (s : State) (c : Nat) (f : L2St → L2St) : (s.updL2 c f).locks = s.locks := rfl
@[simp] theorem State.updL2_keys (s : State) (c : Nat) (f : L2St → L2St) : (s.updL2 c f).keys = s.keys := rfl
@[simp] theorem State.updL2_mem (s : State) (c : Nat) (f : L2St → L2St) : (s.updL2 c f).mem = s.mem := rfl
@[simp] theorem State.updL2_hbm (s : State) (c : Nat) (f : L2St → L2St) : (s.updL2 c f).hbm = s.hbm := rfl
@[simp] theorem State.updL2_power (s : State) (c : Nat) (f : L2St → L2St) : (s.updL2 c f).power = s.power := rfl
@[simp] theorem State.updL2_tables (s : State) (c : Nat) (f : L2St → L2St) : (s.updL2 c f).tables = s.tables := rfl
@[simp] theorem State.updL2_ledger (s : State) (c : Nat) (f : L2St → L2St) : (s.updL2 c f).ledger = s.ledger := rfl
@[simp] theorem State.updL2_dci (s : State) (c : Nat) (f : L2St → L2St) : (s.updL2 c f).dci = s.dci := rfl
@[simp] theorem State.updL2_faults (s : State) (c : Nat) (f : L2St → L2St) : (s.updL2 c f).faults = s.faults := rfl
@[simp] theorem State.updL2_trust (s : State) (c : Nat) (f : L2St → L2St) : (s.updL2 c f).trust = s.trust := rfl
@[simp] theorem State.updL2_free (s : State) (c : Nat) (f : L2St → L2St) : (s.updL2 c f).free = s.free := rfl

@[simp] theorem State.updTask_pending (s : State) (c : Nat) (f : TaskSt → TaskSt) : (s.updTask c f).pending = s.pending := rfl
@[simp] theorem State.updTask_out (s : State) (c : Nat) (f : TaskSt → TaskSt) : (s.updTask c f).out = s.out := rfl
@[simp] theorem State.updTask_time (s : State) (c : Nat) (f : TaskSt → TaskSt) : (s.updTask c f).time = s.time := rfl
@[simp] theorem State.updTask_net (s : State) (c : Nat) (f : TaskSt → TaskSt) : (s.updTask c f).net = s.net := rfl
@[simp] theorem State.updTask_order (s : State) (c : Nat) (f : TaskSt → TaskSt) : (s.updTask c f).order = s.order := rfl
@[simp] theorem State.updTask_basin (s : State) (c : Nat) (f : TaskSt → TaskSt) : (s.updTask c f).basin = s.basin := rfl
@[simp] theorem State.updTask_cistern (s : State) (c : Nat) (f : TaskSt → TaskSt) : (s.updTask c f).cistern = s.cistern := rfl
@[simp] theorem State.updTask_egress (s : State) (c : Nat) (f : TaskSt → TaskSt) : (s.updTask c f).egress = s.egress := rfl
@[simp] theorem State.updTask_thrs (s : State) (c : Nat) (f : TaskSt → TaskSt) : (s.updTask c f).thrs = s.thrs := rfl
@[simp] theorem State.updTask_truns (s : State) (c : Nat) (f : TaskSt → TaskSt) : (s.updTask c f).truns = s.truns := rfl
@[simp] theorem State.updTask_scratch (s : State) (c : Nat) (f : TaskSt → TaskSt) : (s.updTask c f).scratch = s.scratch := rfl
@[simp] theorem State.updTask_cores (s : State) (c : Nat) (f : TaskSt → TaskSt) : (s.updTask c f).cores = s.cores := rfl
@[simp] theorem State.updTask_locks (s : State) (c : Nat) (f : TaskSt → TaskSt) : (s.updTask c f).locks = s.locks := rfl
@[simp] theorem State.updTask_keys (s : State) (c : Nat) (f : TaskSt → TaskSt) : (s.updTask c f).keys = s.keys := rfl
@[simp] theorem State.updTask_mem (s : State) (c : Nat) (f : TaskSt → TaskSt) : (s.updTask c f).mem = s.mem := rfl
@[simp] theorem State.updTask_hbm (s : State) (c : Nat) (f : TaskSt → TaskSt) : (s.updTask c f).hbm = s.hbm := rfl
@[simp] theorem State.updTask_power (s : State) (c : Nat) (f : TaskSt → TaskSt) : (s.updTask c f).power = s.power := rfl
@[simp] theorem State.updTask_tables (s : State) (c : Nat) (f : TaskSt → TaskSt) : (s.updTask c f).tables = s.tables := rfl
@[simp] theorem State.updTask_ledger (s : State) (c : Nat) (f : TaskSt → TaskSt) : (s.updTask c f).ledger = s.ledger := rfl
@[simp] theorem State.updTask_dci (s : State) (c : Nat) (f : TaskSt → TaskSt) : (s.updTask c f).dci = s.dci := rfl
@[simp] theorem State.updTask_faults (s : State) (c : Nat) (f : TaskSt → TaskSt) : (s.updTask c f).faults = s.faults := rfl
@[simp] theorem State.updTask_trust (s : State) (c : Nat) (f : TaskSt → TaskSt) : (s.updTask c f).trust = s.trust := rfl
@[simp] theorem State.updTask_free (s : State) (c : Nat) (f : TaskSt → TaskSt) : (s.updTask c f).free = s.free := rfl

@[simp] theorem State.setChan_pending (s : State) (c n : Nat) (x : Chan) : (s.setChan c n x).pending = s.pending := rfl
@[simp] theorem State.setChan_out (s : State) (c n : Nat) (x : Chan) : (s.setChan c n x).out = s.out := rfl
@[simp] theorem State.setChan_time (s : State) (c n : Nat) (x : Chan) : (s.setChan c n x).time = s.time := rfl
@[simp] theorem State.setChan_net (s : State) (c n : Nat) (x : Chan) : (s.setChan c n x).net = s.net := rfl
@[simp] theorem State.setChan_order (s : State) (c n : Nat) (x : Chan) : (s.setChan c n x).order = s.order := rfl
@[simp] theorem State.setChan_basin (s : State) (c n : Nat) (x : Chan) : (s.setChan c n x).basin = s.basin := rfl
@[simp] theorem State.setChan_cistern (s : State) (c n : Nat) (x : Chan) : (s.setChan c n x).cistern = s.cistern := rfl
@[simp] theorem State.setChan_egress (s : State) (c n : Nat) (x : Chan) : (s.setChan c n x).egress = s.egress := rfl
@[simp] theorem State.setChan_thrs (s : State) (c n : Nat) (x : Chan) : (s.setChan c n x).thrs = s.thrs := rfl
@[simp] theorem State.setChan_truns (s : State) (c n : Nat) (x : Chan) : (s.setChan c n x).truns = s.truns := rfl
@[simp] theorem State.setChan_scratch (s : State) (c n : Nat) (x : Chan) : (s.setChan c n x).scratch = s.scratch := rfl
@[simp] theorem State.setChan_cores (s : State) (c n : Nat) (x : Chan) : (s.setChan c n x).cores = s.cores := rfl
@[simp] theorem State.setChan_locks (s : State) (c n : Nat) (x : Chan) : (s.setChan c n x).locks = s.locks := rfl
@[simp] theorem State.setChan_keys (s : State) (c n : Nat) (x : Chan) : (s.setChan c n x).keys = s.keys := rfl
@[simp] theorem State.setChan_mem (s : State) (c n : Nat) (x : Chan) : (s.setChan c n x).mem = s.mem := rfl
@[simp] theorem State.setChan_hbm (s : State) (c n : Nat) (x : Chan) : (s.setChan c n x).hbm = s.hbm := rfl
@[simp] theorem State.setChan_power (s : State) (c n : Nat) (x : Chan) : (s.setChan c n x).power = s.power := rfl
@[simp] theorem State.setChan_tables (s : State) (c n : Nat) (x : Chan) : (s.setChan c n x).tables = s.tables := rfl
@[simp] theorem State.setChan_ledger (s : State) (c n : Nat) (x : Chan) : (s.setChan c n x).ledger = s.ledger := rfl
@[simp] theorem State.setChan_dci (s : State) (c n : Nat) (x : Chan) : (s.setChan c n x).dci = s.dci := rfl
@[simp] theorem State.setChan_faults (s : State) (c n : Nat) (x : Chan) : (s.setChan c n x).faults = s.faults := rfl
@[simp] theorem State.setChan_trust (s : State) (c n : Nat) (x : Chan) : (s.setChan c n x).trust = s.trust := rfl
@[simp] theorem State.setChan_free (s : State) (c n : Nat) (x : Chan) : (s.setChan c n x).free = s.free := rfl

@[simp] theorem State.setScr_pending (s : State) (t : Nat) (x : ScratchSt) : (s.setScr t x).pending = s.pending := rfl
@[simp] theorem State.setScr_out (s : State) (t : Nat) (x : ScratchSt) : (s.setScr t x).out = s.out := rfl
@[simp] theorem State.setScr_time (s : State) (t : Nat) (x : ScratchSt) : (s.setScr t x).time = s.time := rfl
@[simp] theorem State.setScr_net (s : State) (t : Nat) (x : ScratchSt) : (s.setScr t x).net = s.net := rfl
@[simp] theorem State.setScr_order (s : State) (t : Nat) (x : ScratchSt) : (s.setScr t x).order = s.order := rfl
@[simp] theorem State.setScr_basin (s : State) (t : Nat) (x : ScratchSt) : (s.setScr t x).basin = s.basin := rfl
@[simp] theorem State.setScr_cistern (s : State) (t : Nat) (x : ScratchSt) : (s.setScr t x).cistern = s.cistern := rfl
@[simp] theorem State.setScr_egress (s : State) (t : Nat) (x : ScratchSt) : (s.setScr t x).egress = s.egress := rfl
@[simp] theorem State.setScr_thrs (s : State) (t : Nat) (x : ScratchSt) : (s.setScr t x).thrs = s.thrs := rfl
@[simp] theorem State.setScr_truns (s : State) (t : Nat) (x : ScratchSt) : (s.setScr t x).truns = s.truns := rfl
@[simp] theorem State.setScr_cores (s : State) (t : Nat) (x : ScratchSt) : (s.setScr t x).cores = s.cores := rfl
@[simp] theorem State.setScr_clusters (s : State) (t : Nat) (x : ScratchSt) : (s.setScr t x).clusters = s.clusters := rfl
@[simp] theorem State.setScr_locks (s : State) (t : Nat) (x : ScratchSt) : (s.setScr t x).locks = s.locks := rfl
@[simp] theorem State.setScr_keys (s : State) (t : Nat) (x : ScratchSt) : (s.setScr t x).keys = s.keys := rfl
@[simp] theorem State.setScr_mem (s : State) (t : Nat) (x : ScratchSt) : (s.setScr t x).mem = s.mem := rfl
@[simp] theorem State.setScr_hbm (s : State) (t : Nat) (x : ScratchSt) : (s.setScr t x).hbm = s.hbm := rfl
@[simp] theorem State.setScr_power (s : State) (t : Nat) (x : ScratchSt) : (s.setScr t x).power = s.power := rfl
@[simp] theorem State.setScr_tables (s : State) (t : Nat) (x : ScratchSt) : (s.setScr t x).tables = s.tables := rfl
@[simp] theorem State.setScr_ledger (s : State) (t : Nat) (x : ScratchSt) : (s.setScr t x).ledger = s.ledger := rfl
@[simp] theorem State.setScr_dci (s : State) (t : Nat) (x : ScratchSt) : (s.setScr t x).dci = s.dci := rfl
@[simp] theorem State.setScr_faults (s : State) (t : Nat) (x : ScratchSt) : (s.setScr t x).faults = s.faults := rfl
@[simp] theorem State.setScr_trust (s : State) (t : Nat) (x : ScratchSt) : (s.setScr t x).trust = s.trust := rfl
@[simp] theorem State.setScr_free (s : State) (t : Nat) (x : ScratchSt) : (s.setScr t x).free = s.free := rfl

@[simp] theorem State.setPort_pending (s : State) (p : Nat) (x : Port) : (s.setPort p x).pending = s.pending := rfl
@[simp] theorem State.setPort_out (s : State) (p : Nat) (x : Port) : (s.setPort p x).out = s.out := rfl
@[simp] theorem State.setPort_time (s : State) (p : Nat) (x : Port) : (s.setPort p x).time = s.time := rfl
@[simp] theorem State.setPort_order (s : State) (p : Nat) (x : Port) : (s.setPort p x).order = s.order := rfl
@[simp] theorem State.setPort_basin (s : State) (p : Nat) (x : Port) : (s.setPort p x).basin = s.basin := rfl
@[simp] theorem State.setPort_cistern (s : State) (p : Nat) (x : Port) : (s.setPort p x).cistern = s.cistern := rfl
@[simp] theorem State.setPort_egress (s : State) (p : Nat) (x : Port) : (s.setPort p x).egress = s.egress := rfl
@[simp] theorem State.setPort_thrs (s : State) (p : Nat) (x : Port) : (s.setPort p x).thrs = s.thrs := rfl
@[simp] theorem State.setPort_truns (s : State) (p : Nat) (x : Port) : (s.setPort p x).truns = s.truns := rfl
@[simp] theorem State.setPort_scratch (s : State) (p : Nat) (x : Port) : (s.setPort p x).scratch = s.scratch := rfl
@[simp] theorem State.setPort_cores (s : State) (p : Nat) (x : Port) : (s.setPort p x).cores = s.cores := rfl
@[simp] theorem State.setPort_clusters (s : State) (p : Nat) (x : Port) : (s.setPort p x).clusters = s.clusters := rfl
@[simp] theorem State.setPort_locks (s : State) (p : Nat) (x : Port) : (s.setPort p x).locks = s.locks := rfl
@[simp] theorem State.setPort_keys (s : State) (p : Nat) (x : Port) : (s.setPort p x).keys = s.keys := rfl
@[simp] theorem State.setPort_mem (s : State) (p : Nat) (x : Port) : (s.setPort p x).mem = s.mem := rfl
@[simp] theorem State.setPort_hbm (s : State) (p : Nat) (x : Port) : (s.setPort p x).hbm = s.hbm := rfl
@[simp] theorem State.setPort_power (s : State) (p : Nat) (x : Port) : (s.setPort p x).power = s.power := rfl
@[simp] theorem State.setPort_tables (s : State) (p : Nat) (x : Port) : (s.setPort p x).tables = s.tables := rfl
@[simp] theorem State.setPort_ledger (s : State) (p : Nat) (x : Port) : (s.setPort p x).ledger = s.ledger := rfl
@[simp] theorem State.setPort_dci (s : State) (p : Nat) (x : Port) : (s.setPort p x).dci = s.dci := rfl
@[simp] theorem State.setPort_faults (s : State) (p : Nat) (x : Port) : (s.setPort p x).faults = s.faults := rfl
@[simp] theorem State.setPort_trust (s : State) (p : Nat) (x : Port) : (s.setPort p x).trust = s.trust := rfl
@[simp] theorem State.setPort_free (s : State) (p : Nat) (x : Port) : (s.setPort p x).free = s.free := rfl

@[simp] theorem State.updPort_pending (s : State) (p : Nat) (f : Port → Port) : (s.updPort p f).pending = s.pending := rfl
@[simp] theorem State.updPort_out (s : State) (p : Nat) (f : Port → Port) : (s.updPort p f).out = s.out := rfl
@[simp] theorem State.updPort_time (s : State) (p : Nat) (f : Port → Port) : (s.updPort p f).time = s.time := rfl
@[simp] theorem State.updPort_order (s : State) (p : Nat) (f : Port → Port) : (s.updPort p f).order = s.order := rfl
@[simp] theorem State.updPort_basin (s : State) (p : Nat) (f : Port → Port) : (s.updPort p f).basin = s.basin := rfl
@[simp] theorem State.updPort_cistern (s : State) (p : Nat) (f : Port → Port) : (s.updPort p f).cistern = s.cistern := rfl
@[simp] theorem State.updPort_egress (s : State) (p : Nat) (f : Port → Port) : (s.updPort p f).egress = s.egress := rfl
@[simp] theorem State.updPort_thrs (s : State) (p : Nat) (f : Port → Port) : (s.updPort p f).thrs = s.thrs := rfl
@[simp] theorem State.updPort_truns (s : State) (p : Nat) (f : Port → Port) : (s.updPort p f).truns = s.truns := rfl
@[simp] theorem State.updPort_scratch (s : State) (p : Nat) (f : Port → Port) : (s.updPort p f).scratch = s.scratch := rfl
@[simp] theorem State.updPort_cores (s : State) (p : Nat) (f : Port → Port) : (s.updPort p f).cores = s.cores := rfl
@[simp] theorem State.updPort_clusters (s : State) (p : Nat) (f : Port → Port) : (s.updPort p f).clusters = s.clusters := rfl
@[simp] theorem State.updPort_locks (s : State) (p : Nat) (f : Port → Port) : (s.updPort p f).locks = s.locks := rfl
@[simp] theorem State.updPort_keys (s : State) (p : Nat) (f : Port → Port) : (s.updPort p f).keys = s.keys := rfl
@[simp] theorem State.updPort_mem (s : State) (p : Nat) (f : Port → Port) : (s.updPort p f).mem = s.mem := rfl
@[simp] theorem State.updPort_hbm (s : State) (p : Nat) (f : Port → Port) : (s.updPort p f).hbm = s.hbm := rfl
@[simp] theorem State.updPort_power (s : State) (p : Nat) (f : Port → Port) : (s.updPort p f).power = s.power := rfl
@[simp] theorem State.updPort_tables (s : State) (p : Nat) (f : Port → Port) : (s.updPort p f).tables = s.tables := rfl
@[simp] theorem State.updPort_ledger (s : State) (p : Nat) (f : Port → Port) : (s.updPort p f).ledger = s.ledger := rfl
@[simp] theorem State.updPort_dci (s : State) (p : Nat) (f : Port → Port) : (s.updPort p f).dci = s.dci := rfl
@[simp] theorem State.updPort_faults (s : State) (p : Nat) (f : Port → Port) : (s.updPort p f).faults = s.faults := rfl
@[simp] theorem State.updPort_trust (s : State) (p : Nat) (f : Port → Port) : (s.updPort p f).trust = s.trust := rfl
@[simp] theorem State.updPort_free (s : State) (p : Nat) (f : Port → Port) : (s.updPort p f).free = s.free := rfl

@[simp] theorem State.updLink_pending (s : State) (p : Nat) (f : LinkSt → LinkSt) : (s.updLink p f).pending = s.pending := rfl
@[simp] theorem State.updLink_out (s : State) (p : Nat) (f : LinkSt → LinkSt) : (s.updLink p f).out = s.out := rfl
@[simp] theorem State.updLink_time (s : State) (p : Nat) (f : LinkSt → LinkSt) : (s.updLink p f).time = s.time := rfl
@[simp] theorem State.updLink_order (s : State) (p : Nat) (f : LinkSt → LinkSt) : (s.updLink p f).order = s.order := rfl
@[simp] theorem State.updLink_basin (s : State) (p : Nat) (f : LinkSt → LinkSt) : (s.updLink p f).basin = s.basin := rfl
@[simp] theorem State.updLink_cistern (s : State) (p : Nat) (f : LinkSt → LinkSt) : (s.updLink p f).cistern = s.cistern := rfl
@[simp] theorem State.updLink_egress (s : State) (p : Nat) (f : LinkSt → LinkSt) : (s.updLink p f).egress = s.egress := rfl
@[simp] theorem State.updLink_thrs (s : State) (p : Nat) (f : LinkSt → LinkSt) : (s.updLink p f).thrs = s.thrs := rfl
@[simp] theorem State.updLink_truns (s : State) (p : Nat) (f : LinkSt → LinkSt) : (s.updLink p f).truns = s.truns := rfl
@[simp] theorem State.updLink_scratch (s : State) (p : Nat) (f : LinkSt → LinkSt) : (s.updLink p f).scratch = s.scratch := rfl
@[simp] theorem State.updLink_cores (s : State) (p : Nat) (f : LinkSt → LinkSt) : (s.updLink p f).cores = s.cores := rfl
@[simp] theorem State.updLink_clusters (s : State) (p : Nat) (f : LinkSt → LinkSt) : (s.updLink p f).clusters = s.clusters := rfl
@[simp] theorem State.updLink_locks (s : State) (p : Nat) (f : LinkSt → LinkSt) : (s.updLink p f).locks = s.locks := rfl
@[simp] theorem State.updLink_keys (s : State) (p : Nat) (f : LinkSt → LinkSt) : (s.updLink p f).keys = s.keys := rfl
@[simp] theorem State.updLink_mem (s : State) (p : Nat) (f : LinkSt → LinkSt) : (s.updLink p f).mem = s.mem := rfl
@[simp] theorem State.updLink_hbm (s : State) (p : Nat) (f : LinkSt → LinkSt) : (s.updLink p f).hbm = s.hbm := rfl
@[simp] theorem State.updLink_power (s : State) (p : Nat) (f : LinkSt → LinkSt) : (s.updLink p f).power = s.power := rfl
@[simp] theorem State.updLink_tables (s : State) (p : Nat) (f : LinkSt → LinkSt) : (s.updLink p f).tables = s.tables := rfl
@[simp] theorem State.updLink_ledger (s : State) (p : Nat) (f : LinkSt → LinkSt) : (s.updLink p f).ledger = s.ledger := rfl
@[simp] theorem State.updLink_dci (s : State) (p : Nat) (f : LinkSt → LinkSt) : (s.updLink p f).dci = s.dci := rfl
@[simp] theorem State.updLink_faults (s : State) (p : Nat) (f : LinkSt → LinkSt) : (s.updLink p f).faults = s.faults := rfl
@[simp] theorem State.updLink_trust (s : State) (p : Nat) (f : LinkSt → LinkSt) : (s.updLink p f).trust = s.trust := rfl
@[simp] theorem State.updLink_free (s : State) (p : Nat) (f : LinkSt → LinkSt) : (s.updLink p f).free = s.free := rfl

@[simp] theorem State.setWell_pending (s : State) (w : Nat) (x : Well) : (s.setWell w x).pending = s.pending := rfl
@[simp] theorem State.setWell_out (s : State) (w : Nat) (x : Well) : (s.setWell w x).out = s.out := rfl
@[simp] theorem State.setWell_time (s : State) (w : Nat) (x : Well) : (s.setWell w x).time = s.time := rfl
@[simp] theorem State.setWell_order (s : State) (w : Nat) (x : Well) : (s.setWell w x).order = s.order := rfl
@[simp] theorem State.setWell_basin (s : State) (w : Nat) (x : Well) : (s.setWell w x).basin = s.basin := rfl
@[simp] theorem State.setWell_cistern (s : State) (w : Nat) (x : Well) : (s.setWell w x).cistern = s.cistern := rfl
@[simp] theorem State.setWell_egress (s : State) (w : Nat) (x : Well) : (s.setWell w x).egress = s.egress := rfl
@[simp] theorem State.setWell_thrs (s : State) (w : Nat) (x : Well) : (s.setWell w x).thrs = s.thrs := rfl
@[simp] theorem State.setWell_truns (s : State) (w : Nat) (x : Well) : (s.setWell w x).truns = s.truns := rfl
@[simp] theorem State.setWell_scratch (s : State) (w : Nat) (x : Well) : (s.setWell w x).scratch = s.scratch := rfl
@[simp] theorem State.setWell_cores (s : State) (w : Nat) (x : Well) : (s.setWell w x).cores = s.cores := rfl
@[simp] theorem State.setWell_clusters (s : State) (w : Nat) (x : Well) : (s.setWell w x).clusters = s.clusters := rfl
@[simp] theorem State.setWell_locks (s : State) (w : Nat) (x : Well) : (s.setWell w x).locks = s.locks := rfl
@[simp] theorem State.setWell_keys (s : State) (w : Nat) (x : Well) : (s.setWell w x).keys = s.keys := rfl
@[simp] theorem State.setWell_mem (s : State) (w : Nat) (x : Well) : (s.setWell w x).mem = s.mem := rfl
@[simp] theorem State.setWell_hbm (s : State) (w : Nat) (x : Well) : (s.setWell w x).hbm = s.hbm := rfl
@[simp] theorem State.setWell_power (s : State) (w : Nat) (x : Well) : (s.setWell w x).power = s.power := rfl
@[simp] theorem State.setWell_tables (s : State) (w : Nat) (x : Well) : (s.setWell w x).tables = s.tables := rfl
@[simp] theorem State.setWell_ledger (s : State) (w : Nat) (x : Well) : (s.setWell w x).ledger = s.ledger := rfl
@[simp] theorem State.setWell_dci (s : State) (w : Nat) (x : Well) : (s.setWell w x).dci = s.dci := rfl
@[simp] theorem State.setWell_faults (s : State) (w : Nat) (x : Well) : (s.setWell w x).faults = s.faults := rfl
@[simp] theorem State.setWell_trust (s : State) (w : Nat) (x : Well) : (s.setWell w x).trust = s.trust := rfl
@[simp] theorem State.setWell_free (s : State) (w : Nat) (x : Well) : (s.setWell w x).free = s.free := rfl

@[simp] theorem State.updWell_pending (s : State) (w : Nat) (f : Well → Well) : (s.updWell w f).pending = s.pending := rfl
@[simp] theorem State.updWell_out (s : State) (w : Nat) (f : Well → Well) : (s.updWell w f).out = s.out := rfl
@[simp] theorem State.updWell_time (s : State) (w : Nat) (f : Well → Well) : (s.updWell w f).time = s.time := rfl
@[simp] theorem State.updWell_order (s : State) (w : Nat) (f : Well → Well) : (s.updWell w f).order = s.order := rfl
@[simp] theorem State.updWell_basin (s : State) (w : Nat) (f : Well → Well) : (s.updWell w f).basin = s.basin := rfl
@[simp] theorem State.updWell_cistern (s : State) (w : Nat) (f : Well → Well) : (s.updWell w f).cistern = s.cistern := rfl
@[simp] theorem State.updWell_egress (s : State) (w : Nat) (f : Well → Well) : (s.updWell w f).egress = s.egress := rfl
@[simp] theorem State.updWell_thrs (s : State) (w : Nat) (f : Well → Well) : (s.updWell w f).thrs = s.thrs := rfl
@[simp] theorem State.updWell_truns (s : State) (w : Nat) (f : Well → Well) : (s.updWell w f).truns = s.truns := rfl
@[simp] theorem State.updWell_scratch (s : State) (w : Nat) (f : Well → Well) : (s.updWell w f).scratch = s.scratch := rfl
@[simp] theorem State.updWell_cores (s : State) (w : Nat) (f : Well → Well) : (s.updWell w f).cores = s.cores := rfl
@[simp] theorem State.updWell_clusters (s : State) (w : Nat) (f : Well → Well) : (s.updWell w f).clusters = s.clusters := rfl
@[simp] theorem State.updWell_locks (s : State) (w : Nat) (f : Well → Well) : (s.updWell w f).locks = s.locks := rfl
@[simp] theorem State.updWell_keys (s : State) (w : Nat) (f : Well → Well) : (s.updWell w f).keys = s.keys := rfl
@[simp] theorem State.updWell_mem (s : State) (w : Nat) (f : Well → Well) : (s.updWell w f).mem = s.mem := rfl
@[simp] theorem State.updWell_hbm (s : State) (w : Nat) (f : Well → Well) : (s.updWell w f).hbm = s.hbm := rfl
@[simp] theorem State.updWell_power (s : State) (w : Nat) (f : Well → Well) : (s.updWell w f).power = s.power := rfl
@[simp] theorem State.updWell_tables (s : State) (w : Nat) (f : Well → Well) : (s.updWell w f).tables = s.tables := rfl
@[simp] theorem State.updWell_ledger (s : State) (w : Nat) (f : Well → Well) : (s.updWell w f).ledger = s.ledger := rfl
@[simp] theorem State.updWell_dci (s : State) (w : Nat) (f : Well → Well) : (s.updWell w f).dci = s.dci := rfl
@[simp] theorem State.updWell_faults (s : State) (w : Nat) (f : Well → Well) : (s.updWell w f).faults = s.faults := rfl
@[simp] theorem State.updWell_trust (s : State) (w : Nat) (f : Well → Well) : (s.updWell w f).trust = s.trust := rfl
@[simp] theorem State.updWell_free (s : State) (w : Nat) (f : Well → Well) : (s.updWell w f).free = s.free := rfl

@[simp] theorem State.updNet_pending (s : State) (f : NetSt → NetSt) : (s.updNet f).pending = s.pending := rfl
@[simp] theorem State.updNet_out (s : State) (f : NetSt → NetSt) : (s.updNet f).out = s.out := rfl
@[simp] theorem State.updNet_time (s : State) (f : NetSt → NetSt) : (s.updNet f).time = s.time := rfl
@[simp] theorem State.updNet_order (s : State) (f : NetSt → NetSt) : (s.updNet f).order = s.order := rfl
@[simp] theorem State.updNet_basin (s : State) (f : NetSt → NetSt) : (s.updNet f).basin = s.basin := rfl
@[simp] theorem State.updNet_cistern (s : State) (f : NetSt → NetSt) : (s.updNet f).cistern = s.cistern := rfl
@[simp] theorem State.updNet_egress (s : State) (f : NetSt → NetSt) : (s.updNet f).egress = s.egress := rfl
@[simp] theorem State.updNet_thrs (s : State) (f : NetSt → NetSt) : (s.updNet f).thrs = s.thrs := rfl
@[simp] theorem State.updNet_truns (s : State) (f : NetSt → NetSt) : (s.updNet f).truns = s.truns := rfl
@[simp] theorem State.updNet_scratch (s : State) (f : NetSt → NetSt) : (s.updNet f).scratch = s.scratch := rfl
@[simp] theorem State.updNet_cores (s : State) (f : NetSt → NetSt) : (s.updNet f).cores = s.cores := rfl
@[simp] theorem State.updNet_clusters (s : State) (f : NetSt → NetSt) : (s.updNet f).clusters = s.clusters := rfl
@[simp] theorem State.updNet_locks (s : State) (f : NetSt → NetSt) : (s.updNet f).locks = s.locks := rfl
@[simp] theorem State.updNet_keys (s : State) (f : NetSt → NetSt) : (s.updNet f).keys = s.keys := rfl
@[simp] theorem State.updNet_mem (s : State) (f : NetSt → NetSt) : (s.updNet f).mem = s.mem := rfl
@[simp] theorem State.updNet_hbm (s : State) (f : NetSt → NetSt) : (s.updNet f).hbm = s.hbm := rfl
@[simp] theorem State.updNet_power (s : State) (f : NetSt → NetSt) : (s.updNet f).power = s.power := rfl
@[simp] theorem State.updNet_tables (s : State) (f : NetSt → NetSt) : (s.updNet f).tables = s.tables := rfl
@[simp] theorem State.updNet_ledger (s : State) (f : NetSt → NetSt) : (s.updNet f).ledger = s.ledger := rfl
@[simp] theorem State.updNet_dci (s : State) (f : NetSt → NetSt) : (s.updNet f).dci = s.dci := rfl
@[simp] theorem State.updNet_faults (s : State) (f : NetSt → NetSt) : (s.updNet f).faults = s.faults := rfl
@[simp] theorem State.updNet_trust (s : State) (f : NetSt → NetSt) : (s.updNet f).trust = s.trust := rfl
@[simp] theorem State.updNet_free (s : State) (f : NetSt → NetSt) : (s.updNet f).free = s.free := rfl

@[simp] theorem State.updCage_pending (s : State) (k : Nat) (f : Cage → Cage) : (s.updCage k f).pending = s.pending := rfl
@[simp] theorem State.updCage_out (s : State) (k : Nat) (f : Cage → Cage) : (s.updCage k f).out = s.out := rfl
@[simp] theorem State.updCage_time (s : State) (k : Nat) (f : Cage → Cage) : (s.updCage k f).time = s.time := rfl
@[simp] theorem State.updCage_order (s : State) (k : Nat) (f : Cage → Cage) : (s.updCage k f).order = s.order := rfl
@[simp] theorem State.updCage_basin (s : State) (k : Nat) (f : Cage → Cage) : (s.updCage k f).basin = s.basin := rfl
@[simp] theorem State.updCage_cistern (s : State) (k : Nat) (f : Cage → Cage) : (s.updCage k f).cistern = s.cistern := rfl
@[simp] theorem State.updCage_egress (s : State) (k : Nat) (f : Cage → Cage) : (s.updCage k f).egress = s.egress := rfl
@[simp] theorem State.updCage_thrs (s : State) (k : Nat) (f : Cage → Cage) : (s.updCage k f).thrs = s.thrs := rfl
@[simp] theorem State.updCage_truns (s : State) (k : Nat) (f : Cage → Cage) : (s.updCage k f).truns = s.truns := rfl
@[simp] theorem State.updCage_scratch (s : State) (k : Nat) (f : Cage → Cage) : (s.updCage k f).scratch = s.scratch := rfl
@[simp] theorem State.updCage_cores (s : State) (k : Nat) (f : Cage → Cage) : (s.updCage k f).cores = s.cores := rfl
@[simp] theorem State.updCage_clusters (s : State) (k : Nat) (f : Cage → Cage) : (s.updCage k f).clusters = s.clusters := rfl
@[simp] theorem State.updCage_locks (s : State) (k : Nat) (f : Cage → Cage) : (s.updCage k f).locks = s.locks := rfl
@[simp] theorem State.updCage_keys (s : State) (k : Nat) (f : Cage → Cage) : (s.updCage k f).keys = s.keys := rfl
@[simp] theorem State.updCage_mem (s : State) (k : Nat) (f : Cage → Cage) : (s.updCage k f).mem = s.mem := rfl
@[simp] theorem State.updCage_hbm (s : State) (k : Nat) (f : Cage → Cage) : (s.updCage k f).hbm = s.hbm := rfl
@[simp] theorem State.updCage_power (s : State) (k : Nat) (f : Cage → Cage) : (s.updCage k f).power = s.power := rfl
@[simp] theorem State.updCage_tables (s : State) (k : Nat) (f : Cage → Cage) : (s.updCage k f).tables = s.tables := rfl
@[simp] theorem State.updCage_ledger (s : State) (k : Nat) (f : Cage → Cage) : (s.updCage k f).ledger = s.ledger := rfl
@[simp] theorem State.updCage_dci (s : State) (k : Nat) (f : Cage → Cage) : (s.updCage k f).dci = s.dci := rfl
@[simp] theorem State.updCage_faults (s : State) (k : Nat) (f : Cage → Cage) : (s.updCage k f).faults = s.faults := rfl
@[simp] theorem State.updCage_trust (s : State) (k : Nat) (f : Cage → Cage) : (s.updCage k f).trust = s.trust := rfl
@[simp] theorem State.updCage_free (s : State) (k : Nat) (f : Cage → Cage) : (s.updCage k f).free = s.free := rfl

@[simp] theorem State.updBus_pending (s : State) (b : Nat) (f : Bus → Bus) : (s.updBus b f).pending = s.pending := rfl
@[simp] theorem State.updBus_out (s : State) (b : Nat) (f : Bus → Bus) : (s.updBus b f).out = s.out := rfl
@[simp] theorem State.updBus_time (s : State) (b : Nat) (f : Bus → Bus) : (s.updBus b f).time = s.time := rfl
@[simp] theorem State.updBus_order (s : State) (b : Nat) (f : Bus → Bus) : (s.updBus b f).order = s.order := rfl
@[simp] theorem State.updBus_basin (s : State) (b : Nat) (f : Bus → Bus) : (s.updBus b f).basin = s.basin := rfl
@[simp] theorem State.updBus_cistern (s : State) (b : Nat) (f : Bus → Bus) : (s.updBus b f).cistern = s.cistern := rfl
@[simp] theorem State.updBus_egress (s : State) (b : Nat) (f : Bus → Bus) : (s.updBus b f).egress = s.egress := rfl
@[simp] theorem State.updBus_thrs (s : State) (b : Nat) (f : Bus → Bus) : (s.updBus b f).thrs = s.thrs := rfl
@[simp] theorem State.updBus_truns (s : State) (b : Nat) (f : Bus → Bus) : (s.updBus b f).truns = s.truns := rfl
@[simp] theorem State.updBus_scratch (s : State) (b : Nat) (f : Bus → Bus) : (s.updBus b f).scratch = s.scratch := rfl
@[simp] theorem State.updBus_cores (s : State) (b : Nat) (f : Bus → Bus) : (s.updBus b f).cores = s.cores := rfl
@[simp] theorem State.updBus_clusters (s : State) (b : Nat) (f : Bus → Bus) : (s.updBus b f).clusters = s.clusters := rfl
@[simp] theorem State.updBus_locks (s : State) (b : Nat) (f : Bus → Bus) : (s.updBus b f).locks = s.locks := rfl
@[simp] theorem State.updBus_keys (s : State) (b : Nat) (f : Bus → Bus) : (s.updBus b f).keys = s.keys := rfl
@[simp] theorem State.updBus_mem (s : State) (b : Nat) (f : Bus → Bus) : (s.updBus b f).mem = s.mem := rfl
@[simp] theorem State.updBus_hbm (s : State) (b : Nat) (f : Bus → Bus) : (s.updBus b f).hbm = s.hbm := rfl
@[simp] theorem State.updBus_power (s : State) (b : Nat) (f : Bus → Bus) : (s.updBus b f).power = s.power := rfl
@[simp] theorem State.updBus_tables (s : State) (b : Nat) (f : Bus → Bus) : (s.updBus b f).tables = s.tables := rfl
@[simp] theorem State.updBus_ledger (s : State) (b : Nat) (f : Bus → Bus) : (s.updBus b f).ledger = s.ledger := rfl
@[simp] theorem State.updBus_dci (s : State) (b : Nat) (f : Bus → Bus) : (s.updBus b f).dci = s.dci := rfl
@[simp] theorem State.updBus_faults (s : State) (b : Nat) (f : Bus → Bus) : (s.updBus b f).faults = s.faults := rfl
@[simp] theorem State.updBus_trust (s : State) (b : Nat) (f : Bus → Bus) : (s.updBus b f).trust = s.trust := rfl
@[simp] theorem State.updBus_free (s : State) (b : Nat) (f : Bus → Bus) : (s.updBus b f).free = s.free := rfl

@[simp] theorem State.setPkt_pending (s : State) (p : Nat) (x : Pkt) : (s.setPkt p x).pending = s.pending := rfl
@[simp] theorem State.setPkt_out (s : State) (p : Nat) (x : Pkt) : (s.setPkt p x).out = s.out := rfl
@[simp] theorem State.setPkt_time (s : State) (p : Nat) (x : Pkt) : (s.setPkt p x).time = s.time := rfl
@[simp] theorem State.setPkt_net (s : State) (p : Nat) (x : Pkt) : (s.setPkt p x).net = s.net := rfl
@[simp] theorem State.setPkt_basin (s : State) (p : Nat) (x : Pkt) : (s.setPkt p x).basin = s.basin := rfl
@[simp] theorem State.setPkt_cistern (s : State) (p : Nat) (x : Pkt) : (s.setPkt p x).cistern = s.cistern := rfl
@[simp] theorem State.setPkt_egress (s : State) (p : Nat) (x : Pkt) : (s.setPkt p x).egress = s.egress := rfl
@[simp] theorem State.setPkt_thrs (s : State) (p : Nat) (x : Pkt) : (s.setPkt p x).thrs = s.thrs := rfl
@[simp] theorem State.setPkt_truns (s : State) (p : Nat) (x : Pkt) : (s.setPkt p x).truns = s.truns := rfl
@[simp] theorem State.setPkt_scratch (s : State) (p : Nat) (x : Pkt) : (s.setPkt p x).scratch = s.scratch := rfl
@[simp] theorem State.setPkt_cores (s : State) (p : Nat) (x : Pkt) : (s.setPkt p x).cores = s.cores := rfl
@[simp] theorem State.setPkt_clusters (s : State) (p : Nat) (x : Pkt) : (s.setPkt p x).clusters = s.clusters := rfl
@[simp] theorem State.setPkt_locks (s : State) (p : Nat) (x : Pkt) : (s.setPkt p x).locks = s.locks := rfl
@[simp] theorem State.setPkt_keys (s : State) (p : Nat) (x : Pkt) : (s.setPkt p x).keys = s.keys := rfl
@[simp] theorem State.setPkt_mem (s : State) (p : Nat) (x : Pkt) : (s.setPkt p x).mem = s.mem := rfl
@[simp] theorem State.setPkt_hbm (s : State) (p : Nat) (x : Pkt) : (s.setPkt p x).hbm = s.hbm := rfl
@[simp] theorem State.setPkt_power (s : State) (p : Nat) (x : Pkt) : (s.setPkt p x).power = s.power := rfl
@[simp] theorem State.setPkt_tables (s : State) (p : Nat) (x : Pkt) : (s.setPkt p x).tables = s.tables := rfl
@[simp] theorem State.setPkt_ledger (s : State) (p : Nat) (x : Pkt) : (s.setPkt p x).ledger = s.ledger := rfl
@[simp] theorem State.setPkt_dci (s : State) (p : Nat) (x : Pkt) : (s.setPkt p x).dci = s.dci := rfl
@[simp] theorem State.setPkt_faults (s : State) (p : Nat) (x : Pkt) : (s.setPkt p x).faults = s.faults := rfl
@[simp] theorem State.setPkt_trust (s : State) (p : Nat) (x : Pkt) : (s.setPkt p x).trust = s.trust := rfl
@[simp] theorem State.setPkt_free (s : State) (p : Nat) (x : Pkt) : (s.setPkt p x).free = s.free := rfl

@[simp] theorem State.updPkt_pending (s : State) (p : Nat) (f : Pkt → Pkt) : (s.updPkt p f).pending = s.pending := rfl
@[simp] theorem State.updPkt_out (s : State) (p : Nat) (f : Pkt → Pkt) : (s.updPkt p f).out = s.out := rfl
@[simp] theorem State.updPkt_time (s : State) (p : Nat) (f : Pkt → Pkt) : (s.updPkt p f).time = s.time := rfl
@[simp] theorem State.updPkt_net (s : State) (p : Nat) (f : Pkt → Pkt) : (s.updPkt p f).net = s.net := rfl
@[simp] theorem State.updPkt_basin (s : State) (p : Nat) (f : Pkt → Pkt) : (s.updPkt p f).basin = s.basin := rfl
@[simp] theorem State.updPkt_cistern (s : State) (p : Nat) (f : Pkt → Pkt) : (s.updPkt p f).cistern = s.cistern := rfl
@[simp] theorem State.updPkt_egress (s : State) (p : Nat) (f : Pkt → Pkt) : (s.updPkt p f).egress = s.egress := rfl
@[simp] theorem State.updPkt_thrs (s : State) (p : Nat) (f : Pkt → Pkt) : (s.updPkt p f).thrs = s.thrs := rfl
@[simp] theorem State.updPkt_truns (s : State) (p : Nat) (f : Pkt → Pkt) : (s.updPkt p f).truns = s.truns := rfl
@[simp] theorem State.updPkt_scratch (s : State) (p : Nat) (f : Pkt → Pkt) : (s.updPkt p f).scratch = s.scratch := rfl
@[simp] theorem State.updPkt_cores (s : State) (p : Nat) (f : Pkt → Pkt) : (s.updPkt p f).cores = s.cores := rfl
@[simp] theorem State.updPkt_clusters (s : State) (p : Nat) (f : Pkt → Pkt) : (s.updPkt p f).clusters = s.clusters := rfl
@[simp] theorem State.updPkt_locks (s : State) (p : Nat) (f : Pkt → Pkt) : (s.updPkt p f).locks = s.locks := rfl
@[simp] theorem State.updPkt_keys (s : State) (p : Nat) (f : Pkt → Pkt) : (s.updPkt p f).keys = s.keys := rfl
@[simp] theorem State.updPkt_mem (s : State) (p : Nat) (f : Pkt → Pkt) : (s.updPkt p f).mem = s.mem := rfl
@[simp] theorem State.updPkt_hbm (s : State) (p : Nat) (f : Pkt → Pkt) : (s.updPkt p f).hbm = s.hbm := rfl
@[simp] theorem State.updPkt_power (s : State) (p : Nat) (f : Pkt → Pkt) : (s.updPkt p f).power = s.power := rfl
@[simp] theorem State.updPkt_tables (s : State) (p : Nat) (f : Pkt → Pkt) : (s.updPkt p f).tables = s.tables := rfl
@[simp] theorem State.updPkt_ledger (s : State) (p : Nat) (f : Pkt → Pkt) : (s.updPkt p f).ledger = s.ledger := rfl
@[simp] theorem State.updPkt_dci (s : State) (p : Nat) (f : Pkt → Pkt) : (s.updPkt p f).dci = s.dci := rfl
@[simp] theorem State.updPkt_faults (s : State) (p : Nat) (f : Pkt → Pkt) : (s.updPkt p f).faults = s.faults := rfl
@[simp] theorem State.updPkt_trust (s : State) (p : Nat) (f : Pkt → Pkt) : (s.updPkt p f).trust = s.trust := rfl
@[simp] theorem State.updPkt_free (s : State) (p : Nat) (f : Pkt → Pkt) : (s.updPkt p f).free = s.free := rfl

@[simp] theorem State.setRc_pending (s : State) (p : Nat) (x : RunRec) : (s.setRc p x).pending = s.pending := rfl
@[simp] theorem State.setRc_out (s : State) (p : Nat) (x : RunRec) : (s.setRc p x).out = s.out := rfl
@[simp] theorem State.setRc_time (s : State) (p : Nat) (x : RunRec) : (s.setRc p x).time = s.time := rfl
@[simp] theorem State.setRc_net (s : State) (p : Nat) (x : RunRec) : (s.setRc p x).net = s.net := rfl
@[simp] theorem State.setRc_basin (s : State) (p : Nat) (x : RunRec) : (s.setRc p x).basin = s.basin := rfl
@[simp] theorem State.setRc_cistern (s : State) (p : Nat) (x : RunRec) : (s.setRc p x).cistern = s.cistern := rfl
@[simp] theorem State.setRc_egress (s : State) (p : Nat) (x : RunRec) : (s.setRc p x).egress = s.egress := rfl
@[simp] theorem State.setRc_thrs (s : State) (p : Nat) (x : RunRec) : (s.setRc p x).thrs = s.thrs := rfl
@[simp] theorem State.setRc_truns (s : State) (p : Nat) (x : RunRec) : (s.setRc p x).truns = s.truns := rfl
@[simp] theorem State.setRc_scratch (s : State) (p : Nat) (x : RunRec) : (s.setRc p x).scratch = s.scratch := rfl
@[simp] theorem State.setRc_cores (s : State) (p : Nat) (x : RunRec) : (s.setRc p x).cores = s.cores := rfl
@[simp] theorem State.setRc_clusters (s : State) (p : Nat) (x : RunRec) : (s.setRc p x).clusters = s.clusters := rfl
@[simp] theorem State.setRc_locks (s : State) (p : Nat) (x : RunRec) : (s.setRc p x).locks = s.locks := rfl
@[simp] theorem State.setRc_keys (s : State) (p : Nat) (x : RunRec) : (s.setRc p x).keys = s.keys := rfl
@[simp] theorem State.setRc_mem (s : State) (p : Nat) (x : RunRec) : (s.setRc p x).mem = s.mem := rfl
@[simp] theorem State.setRc_hbm (s : State) (p : Nat) (x : RunRec) : (s.setRc p x).hbm = s.hbm := rfl
@[simp] theorem State.setRc_power (s : State) (p : Nat) (x : RunRec) : (s.setRc p x).power = s.power := rfl
@[simp] theorem State.setRc_tables (s : State) (p : Nat) (x : RunRec) : (s.setRc p x).tables = s.tables := rfl
@[simp] theorem State.setRc_ledger (s : State) (p : Nat) (x : RunRec) : (s.setRc p x).ledger = s.ledger := rfl
@[simp] theorem State.setRc_dci (s : State) (p : Nat) (x : RunRec) : (s.setRc p x).dci = s.dci := rfl
@[simp] theorem State.setRc_faults (s : State) (p : Nat) (x : RunRec) : (s.setRc p x).faults = s.faults := rfl
@[simp] theorem State.setRc_trust (s : State) (p : Nat) (x : RunRec) : (s.setRc p x).trust = s.trust := rfl
@[simp] theorem State.setRc_free (s : State) (p : Nat) (x : RunRec) : (s.setRc p x).free = s.free := rfl

@[simp] theorem State.updRc_pending (s : State) (p : Nat) (f : RunRec → RunRec) : (s.updRc p f).pending = s.pending := rfl
@[simp] theorem State.updRc_out (s : State) (p : Nat) (f : RunRec → RunRec) : (s.updRc p f).out = s.out := rfl
@[simp] theorem State.updRc_time (s : State) (p : Nat) (f : RunRec → RunRec) : (s.updRc p f).time = s.time := rfl
@[simp] theorem State.updRc_net (s : State) (p : Nat) (f : RunRec → RunRec) : (s.updRc p f).net = s.net := rfl
@[simp] theorem State.updRc_basin (s : State) (p : Nat) (f : RunRec → RunRec) : (s.updRc p f).basin = s.basin := rfl
@[simp] theorem State.updRc_cistern (s : State) (p : Nat) (f : RunRec → RunRec) : (s.updRc p f).cistern = s.cistern := rfl
@[simp] theorem State.updRc_egress (s : State) (p : Nat) (f : RunRec → RunRec) : (s.updRc p f).egress = s.egress := rfl
@[simp] theorem State.updRc_thrs (s : State) (p : Nat) (f : RunRec → RunRec) : (s.updRc p f).thrs = s.thrs := rfl
@[simp] theorem State.updRc_truns (s : State) (p : Nat) (f : RunRec → RunRec) : (s.updRc p f).truns = s.truns := rfl
@[simp] theorem State.updRc_scratch (s : State) (p : Nat) (f : RunRec → RunRec) : (s.updRc p f).scratch = s.scratch := rfl
@[simp] theorem State.updRc_cores (s : State) (p : Nat) (f : RunRec → RunRec) : (s.updRc p f).cores = s.cores := rfl
@[simp] theorem State.updRc_clusters (s : State) (p : Nat) (f : RunRec → RunRec) : (s.updRc p f).clusters = s.clusters := rfl
@[simp] theorem State.updRc_locks (s : State) (p : Nat) (f : RunRec → RunRec) : (s.updRc p f).locks = s.locks := rfl
@[simp] theorem State.updRc_keys (s : State) (p : Nat) (f : RunRec → RunRec) : (s.updRc p f).keys = s.keys := rfl
@[simp] theorem State.updRc_mem (s : State) (p : Nat) (f : RunRec → RunRec) : (s.updRc p f).mem = s.mem := rfl
@[simp] theorem State.updRc_hbm (s : State) (p : Nat) (f : RunRec → RunRec) : (s.updRc p f).hbm = s.hbm := rfl
@[simp] theorem State.updRc_power (s : State) (p : Nat) (f : RunRec → RunRec) : (s.updRc p f).power = s.power := rfl
@[simp] theorem State.updRc_tables (s : State) (p : Nat) (f : RunRec → RunRec) : (s.updRc p f).tables = s.tables := rfl
@[simp] theorem State.updRc_ledger (s : State) (p : Nat) (f : RunRec → RunRec) : (s.updRc p f).ledger = s.ledger := rfl
@[simp] theorem State.updRc_dci (s : State) (p : Nat) (f : RunRec → RunRec) : (s.updRc p f).dci = s.dci := rfl
@[simp] theorem State.updRc_faults (s : State) (p : Nat) (f : RunRec → RunRec) : (s.updRc p f).faults = s.faults := rfl
@[simp] theorem State.updRc_trust (s : State) (p : Nat) (f : RunRec → RunRec) : (s.updRc p f).trust = s.trust := rfl
@[simp] theorem State.updRc_free (s : State) (p : Nat) (f : RunRec → RunRec) : (s.updRc p f).free = s.free := rfl

@[simp] theorem State.setDom_pending (s : State) (d : Nat) (x : Dom) : (s.setDom d x).pending = s.pending := rfl
@[simp] theorem State.setDom_out (s : State) (d : Nat) (x : Dom) : (s.setDom d x).out = s.out := rfl
@[simp] theorem State.setDom_time (s : State) (d : Nat) (x : Dom) : (s.setDom d x).time = s.time := rfl
@[simp] theorem State.setDom_net (s : State) (d : Nat) (x : Dom) : (s.setDom d x).net = s.net := rfl
@[simp] theorem State.setDom_basin (s : State) (d : Nat) (x : Dom) : (s.setDom d x).basin = s.basin := rfl
@[simp] theorem State.setDom_cistern (s : State) (d : Nat) (x : Dom) : (s.setDom d x).cistern = s.cistern := rfl
@[simp] theorem State.setDom_egress (s : State) (d : Nat) (x : Dom) : (s.setDom d x).egress = s.egress := rfl
@[simp] theorem State.setDom_thrs (s : State) (d : Nat) (x : Dom) : (s.setDom d x).thrs = s.thrs := rfl
@[simp] theorem State.setDom_truns (s : State) (d : Nat) (x : Dom) : (s.setDom d x).truns = s.truns := rfl
@[simp] theorem State.setDom_scratch (s : State) (d : Nat) (x : Dom) : (s.setDom d x).scratch = s.scratch := rfl
@[simp] theorem State.setDom_cores (s : State) (d : Nat) (x : Dom) : (s.setDom d x).cores = s.cores := rfl
@[simp] theorem State.setDom_clusters (s : State) (d : Nat) (x : Dom) : (s.setDom d x).clusters = s.clusters := rfl
@[simp] theorem State.setDom_locks (s : State) (d : Nat) (x : Dom) : (s.setDom d x).locks = s.locks := rfl
@[simp] theorem State.setDom_keys (s : State) (d : Nat) (x : Dom) : (s.setDom d x).keys = s.keys := rfl
@[simp] theorem State.setDom_mem (s : State) (d : Nat) (x : Dom) : (s.setDom d x).mem = s.mem := rfl
@[simp] theorem State.setDom_hbm (s : State) (d : Nat) (x : Dom) : (s.setDom d x).hbm = s.hbm := rfl
@[simp] theorem State.setDom_power (s : State) (d : Nat) (x : Dom) : (s.setDom d x).power = s.power := rfl
@[simp] theorem State.setDom_tables (s : State) (d : Nat) (x : Dom) : (s.setDom d x).tables = s.tables := rfl
@[simp] theorem State.setDom_ledger (s : State) (d : Nat) (x : Dom) : (s.setDom d x).ledger = s.ledger := rfl
@[simp] theorem State.setDom_dci (s : State) (d : Nat) (x : Dom) : (s.setDom d x).dci = s.dci := rfl
@[simp] theorem State.setDom_faults (s : State) (d : Nat) (x : Dom) : (s.setDom d x).faults = s.faults := rfl
@[simp] theorem State.setDom_trust (s : State) (d : Nat) (x : Dom) : (s.setDom d x).trust = s.trust := rfl
@[simp] theorem State.setDom_free (s : State) (d : Nat) (x : Dom) : (s.setDom d x).free = s.free := rfl

@[simp] theorem State.updDom_pending (s : State) (d : Nat) (f : Dom → Dom) : (s.updDom d f).pending = s.pending := rfl
@[simp] theorem State.updDom_out (s : State) (d : Nat) (f : Dom → Dom) : (s.updDom d f).out = s.out := rfl
@[simp] theorem State.updDom_time (s : State) (d : Nat) (f : Dom → Dom) : (s.updDom d f).time = s.time := rfl
@[simp] theorem State.updDom_net (s : State) (d : Nat) (f : Dom → Dom) : (s.updDom d f).net = s.net := rfl
@[simp] theorem State.updDom_basin (s : State) (d : Nat) (f : Dom → Dom) : (s.updDom d f).basin = s.basin := rfl
@[simp] theorem State.updDom_cistern (s : State) (d : Nat) (f : Dom → Dom) : (s.updDom d f).cistern = s.cistern := rfl
@[simp] theorem State.updDom_egress (s : State) (d : Nat) (f : Dom → Dom) : (s.updDom d f).egress = s.egress := rfl
@[simp] theorem State.updDom_thrs (s : State) (d : Nat) (f : Dom → Dom) : (s.updDom d f).thrs = s.thrs := rfl
@[simp] theorem State.updDom_truns (s : State) (d : Nat) (f : Dom → Dom) : (s.updDom d f).truns = s.truns := rfl
@[simp] theorem State.updDom_scratch (s : State) (d : Nat) (f : Dom → Dom) : (s.updDom d f).scratch = s.scratch := rfl
@[simp] theorem State.updDom_cores (s : State) (d : Nat) (f : Dom → Dom) : (s.updDom d f).cores = s.cores := rfl
@[simp] theorem State.updDom_clusters (s : State) (d : Nat) (f : Dom → Dom) : (s.updDom d f).clusters = s.clusters := rfl
@[simp] theorem State.updDom_locks (s : State) (d : Nat) (f : Dom → Dom) : (s.updDom d f).locks = s.locks := rfl
@[simp] theorem State.updDom_keys (s : State) (d : Nat) (f : Dom → Dom) : (s.updDom d f).keys = s.keys := rfl
@[simp] theorem State.updDom_mem (s : State) (d : Nat) (f : Dom → Dom) : (s.updDom d f).mem = s.mem := rfl
@[simp] theorem State.updDom_hbm (s : State) (d : Nat) (f : Dom → Dom) : (s.updDom d f).hbm = s.hbm := rfl
@[simp] theorem State.updDom_power (s : State) (d : Nat) (f : Dom → Dom) : (s.updDom d f).power = s.power := rfl
@[simp] theorem State.updDom_tables (s : State) (d : Nat) (f : Dom → Dom) : (s.updDom d f).tables = s.tables := rfl
@[simp] theorem State.updDom_ledger (s : State) (d : Nat) (f : Dom → Dom) : (s.updDom d f).ledger = s.ledger := rfl
@[simp] theorem State.updDom_dci (s : State) (d : Nat) (f : Dom → Dom) : (s.updDom d f).dci = s.dci := rfl
@[simp] theorem State.updDom_faults (s : State) (d : Nat) (f : Dom → Dom) : (s.updDom d f).faults = s.faults := rfl
@[simp] theorem State.updDom_trust (s : State) (d : Nat) (f : Dom → Dom) : (s.updDom d f).trust = s.trust := rfl
@[simp] theorem State.updDom_free (s : State) (d : Nat) (f : Dom → Dom) : (s.updDom d f).free = s.free := rfl

@[simp] theorem State.updOrder_pending (s : State) (f : OrderSt → OrderSt) : (s.updOrder f).pending = s.pending := rfl
@[simp] theorem State.updOrder_out (s : State) (f : OrderSt → OrderSt) : (s.updOrder f).out = s.out := rfl
@[simp] theorem State.updOrder_time (s : State) (f : OrderSt → OrderSt) : (s.updOrder f).time = s.time := rfl
@[simp] theorem State.updOrder_net (s : State) (f : OrderSt → OrderSt) : (s.updOrder f).net = s.net := rfl
@[simp] theorem State.updOrder_basin (s : State) (f : OrderSt → OrderSt) : (s.updOrder f).basin = s.basin := rfl
@[simp] theorem State.updOrder_cistern (s : State) (f : OrderSt → OrderSt) : (s.updOrder f).cistern = s.cistern := rfl
@[simp] theorem State.updOrder_egress (s : State) (f : OrderSt → OrderSt) : (s.updOrder f).egress = s.egress := rfl
@[simp] theorem State.updOrder_thrs (s : State) (f : OrderSt → OrderSt) : (s.updOrder f).thrs = s.thrs := rfl
@[simp] theorem State.updOrder_truns (s : State) (f : OrderSt → OrderSt) : (s.updOrder f).truns = s.truns := rfl
@[simp] theorem State.updOrder_scratch (s : State) (f : OrderSt → OrderSt) : (s.updOrder f).scratch = s.scratch := rfl
@[simp] theorem State.updOrder_cores (s : State) (f : OrderSt → OrderSt) : (s.updOrder f).cores = s.cores := rfl
@[simp] theorem State.updOrder_clusters (s : State) (f : OrderSt → OrderSt) : (s.updOrder f).clusters = s.clusters := rfl
@[simp] theorem State.updOrder_locks (s : State) (f : OrderSt → OrderSt) : (s.updOrder f).locks = s.locks := rfl
@[simp] theorem State.updOrder_keys (s : State) (f : OrderSt → OrderSt) : (s.updOrder f).keys = s.keys := rfl
@[simp] theorem State.updOrder_mem (s : State) (f : OrderSt → OrderSt) : (s.updOrder f).mem = s.mem := rfl
@[simp] theorem State.updOrder_hbm (s : State) (f : OrderSt → OrderSt) : (s.updOrder f).hbm = s.hbm := rfl
@[simp] theorem State.updOrder_power (s : State) (f : OrderSt → OrderSt) : (s.updOrder f).power = s.power := rfl
@[simp] theorem State.updOrder_tables (s : State) (f : OrderSt → OrderSt) : (s.updOrder f).tables = s.tables := rfl
@[simp] theorem State.updOrder_ledger (s : State) (f : OrderSt → OrderSt) : (s.updOrder f).ledger = s.ledger := rfl
@[simp] theorem State.updOrder_dci (s : State) (f : OrderSt → OrderSt) : (s.updOrder f).dci = s.dci := rfl
@[simp] theorem State.updOrder_faults (s : State) (f : OrderSt → OrderSt) : (s.updOrder f).faults = s.faults := rfl
@[simp] theorem State.updOrder_trust (s : State) (f : OrderSt → OrderSt) : (s.updOrder f).trust = s.trust := rfl
@[simp] theorem State.updOrder_free (s : State) (f : OrderSt → OrderSt) : (s.updOrder f).free = s.free := rfl

@[simp] theorem State.updCnt_pending (s : State) (f : OrderCnt → OrderCnt) : (s.updCnt f).pending = s.pending := rfl
@[simp] theorem State.updCnt_out (s : State) (f : OrderCnt → OrderCnt) : (s.updCnt f).out = s.out := rfl
@[simp] theorem State.updCnt_time (s : State) (f : OrderCnt → OrderCnt) : (s.updCnt f).time = s.time := rfl
@[simp] theorem State.updCnt_net (s : State) (f : OrderCnt → OrderCnt) : (s.updCnt f).net = s.net := rfl
@[simp] theorem State.updCnt_basin (s : State) (f : OrderCnt → OrderCnt) : (s.updCnt f).basin = s.basin := rfl
@[simp] theorem State.updCnt_cistern (s : State) (f : OrderCnt → OrderCnt) : (s.updCnt f).cistern = s.cistern := rfl
@[simp] theorem State.updCnt_egress (s : State) (f : OrderCnt → OrderCnt) : (s.updCnt f).egress = s.egress := rfl
@[simp] theorem State.updCnt_thrs (s : State) (f : OrderCnt → OrderCnt) : (s.updCnt f).thrs = s.thrs := rfl
@[simp] theorem State.updCnt_truns (s : State) (f : OrderCnt → OrderCnt) : (s.updCnt f).truns = s.truns := rfl
@[simp] theorem State.updCnt_scratch (s : State) (f : OrderCnt → OrderCnt) : (s.updCnt f).scratch = s.scratch := rfl
@[simp] theorem State.updCnt_cores (s : State) (f : OrderCnt → OrderCnt) : (s.updCnt f).cores = s.cores := rfl
@[simp] theorem State.updCnt_clusters (s : State) (f : OrderCnt → OrderCnt) : (s.updCnt f).clusters = s.clusters := rfl
@[simp] theorem State.updCnt_locks (s : State) (f : OrderCnt → OrderCnt) : (s.updCnt f).locks = s.locks := rfl
@[simp] theorem State.updCnt_keys (s : State) (f : OrderCnt → OrderCnt) : (s.updCnt f).keys = s.keys := rfl
@[simp] theorem State.updCnt_mem (s : State) (f : OrderCnt → OrderCnt) : (s.updCnt f).mem = s.mem := rfl
@[simp] theorem State.updCnt_hbm (s : State) (f : OrderCnt → OrderCnt) : (s.updCnt f).hbm = s.hbm := rfl
@[simp] theorem State.updCnt_power (s : State) (f : OrderCnt → OrderCnt) : (s.updCnt f).power = s.power := rfl
@[simp] theorem State.updCnt_tables (s : State) (f : OrderCnt → OrderCnt) : (s.updCnt f).tables = s.tables := rfl
@[simp] theorem State.updCnt_ledger (s : State) (f : OrderCnt → OrderCnt) : (s.updCnt f).ledger = s.ledger := rfl
@[simp] theorem State.updCnt_dci (s : State) (f : OrderCnt → OrderCnt) : (s.updCnt f).dci = s.dci := rfl
@[simp] theorem State.updCnt_faults (s : State) (f : OrderCnt → OrderCnt) : (s.updCnt f).faults = s.faults := rfl
@[simp] theorem State.updCnt_trust (s : State) (f : OrderCnt → OrderCnt) : (s.updCnt f).trust = s.trust := rfl
@[simp] theorem State.updCnt_free (s : State) (f : OrderCnt → OrderCnt) : (s.updCnt f).free = s.free := rfl

@[simp] theorem State.setEport_pending (s : State) (p : Nat) (x : EPort) : (s.setEport p x).pending = s.pending := rfl
@[simp] theorem State.setEport_out (s : State) (p : Nat) (x : EPort) : (s.setEport p x).out = s.out := rfl
@[simp] theorem State.setEport_time (s : State) (p : Nat) (x : EPort) : (s.setEport p x).time = s.time := rfl
@[simp] theorem State.setEport_net (s : State) (p : Nat) (x : EPort) : (s.setEport p x).net = s.net := rfl
@[simp] theorem State.setEport_order (s : State) (p : Nat) (x : EPort) : (s.setEport p x).order = s.order := rfl
@[simp] theorem State.setEport_basin (s : State) (p : Nat) (x : EPort) : (s.setEport p x).basin = s.basin := rfl
@[simp] theorem State.setEport_cistern (s : State) (p : Nat) (x : EPort) : (s.setEport p x).cistern = s.cistern := rfl
@[simp] theorem State.setEport_thrs (s : State) (p : Nat) (x : EPort) : (s.setEport p x).thrs = s.thrs := rfl
@[simp] theorem State.setEport_truns (s : State) (p : Nat) (x : EPort) : (s.setEport p x).truns = s.truns := rfl
@[simp] theorem State.setEport_scratch (s : State) (p : Nat) (x : EPort) : (s.setEport p x).scratch = s.scratch := rfl
@[simp] theorem State.setEport_cores (s : State) (p : Nat) (x : EPort) : (s.setEport p x).cores = s.cores := rfl
@[simp] theorem State.setEport_clusters (s : State) (p : Nat) (x : EPort) : (s.setEport p x).clusters = s.clusters := rfl
@[simp] theorem State.setEport_locks (s : State) (p : Nat) (x : EPort) : (s.setEport p x).locks = s.locks := rfl
@[simp] theorem State.setEport_keys (s : State) (p : Nat) (x : EPort) : (s.setEport p x).keys = s.keys := rfl
@[simp] theorem State.setEport_mem (s : State) (p : Nat) (x : EPort) : (s.setEport p x).mem = s.mem := rfl
@[simp] theorem State.setEport_hbm (s : State) (p : Nat) (x : EPort) : (s.setEport p x).hbm = s.hbm := rfl
@[simp] theorem State.setEport_power (s : State) (p : Nat) (x : EPort) : (s.setEport p x).power = s.power := rfl
@[simp] theorem State.setEport_tables (s : State) (p : Nat) (x : EPort) : (s.setEport p x).tables = s.tables := rfl
@[simp] theorem State.setEport_ledger (s : State) (p : Nat) (x : EPort) : (s.setEport p x).ledger = s.ledger := rfl
@[simp] theorem State.setEport_dci (s : State) (p : Nat) (x : EPort) : (s.setEport p x).dci = s.dci := rfl
@[simp] theorem State.setEport_faults (s : State) (p : Nat) (x : EPort) : (s.setEport p x).faults = s.faults := rfl
@[simp] theorem State.setEport_trust (s : State) (p : Nat) (x : EPort) : (s.setEport p x).trust = s.trust := rfl
@[simp] theorem State.setEport_free (s : State) (p : Nat) (x : EPort) : (s.setEport p x).free = s.free := rfl

@[simp] theorem State.updEport_pending (s : State) (p : Nat) (f : EPort → EPort) : (s.updEport p f).pending = s.pending := rfl
@[simp] theorem State.updEport_out (s : State) (p : Nat) (f : EPort → EPort) : (s.updEport p f).out = s.out := rfl
@[simp] theorem State.updEport_time (s : State) (p : Nat) (f : EPort → EPort) : (s.updEport p f).time = s.time := rfl
@[simp] theorem State.updEport_net (s : State) (p : Nat) (f : EPort → EPort) : (s.updEport p f).net = s.net := rfl
@[simp] theorem State.updEport_order (s : State) (p : Nat) (f : EPort → EPort) : (s.updEport p f).order = s.order := rfl
@[simp] theorem State.updEport_basin (s : State) (p : Nat) (f : EPort → EPort) : (s.updEport p f).basin = s.basin := rfl
@[simp] theorem State.updEport_cistern (s : State) (p : Nat) (f : EPort → EPort) : (s.updEport p f).cistern = s.cistern := rfl
@[simp] theorem State.updEport_thrs (s : State) (p : Nat) (f : EPort → EPort) : (s.updEport p f).thrs = s.thrs := rfl
@[simp] theorem State.updEport_truns (s : State) (p : Nat) (f : EPort → EPort) : (s.updEport p f).truns = s.truns := rfl
@[simp] theorem State.updEport_scratch (s : State) (p : Nat) (f : EPort → EPort) : (s.updEport p f).scratch = s.scratch := rfl
@[simp] theorem State.updEport_cores (s : State) (p : Nat) (f : EPort → EPort) : (s.updEport p f).cores = s.cores := rfl
@[simp] theorem State.updEport_clusters (s : State) (p : Nat) (f : EPort → EPort) : (s.updEport p f).clusters = s.clusters := rfl
@[simp] theorem State.updEport_locks (s : State) (p : Nat) (f : EPort → EPort) : (s.updEport p f).locks = s.locks := rfl
@[simp] theorem State.updEport_keys (s : State) (p : Nat) (f : EPort → EPort) : (s.updEport p f).keys = s.keys := rfl
@[simp] theorem State.updEport_mem (s : State) (p : Nat) (f : EPort → EPort) : (s.updEport p f).mem = s.mem := rfl
@[simp] theorem State.updEport_hbm (s : State) (p : Nat) (f : EPort → EPort) : (s.updEport p f).hbm = s.hbm := rfl
@[simp] theorem State.updEport_power (s : State) (p : Nat) (f : EPort → EPort) : (s.updEport p f).power = s.power := rfl
@[simp] theorem State.updEport_tables (s : State) (p : Nat) (f : EPort → EPort) : (s.updEport p f).tables = s.tables := rfl
@[simp] theorem State.updEport_ledger (s : State) (p : Nat) (f : EPort → EPort) : (s.updEport p f).ledger = s.ledger := rfl
@[simp] theorem State.updEport_dci (s : State) (p : Nat) (f : EPort → EPort) : (s.updEport p f).dci = s.dci := rfl
@[simp] theorem State.updEport_faults (s : State) (p : Nat) (f : EPort → EPort) : (s.updEport p f).faults = s.faults := rfl
@[simp] theorem State.updEport_trust (s : State) (p : Nat) (f : EPort → EPort) : (s.updEport p f).trust = s.trust := rfl
@[simp] theorem State.updEport_free (s : State) (p : Nat) (f : EPort → EPort) : (s.updEport p f).free = s.free := rfl

@[simp] theorem State.setQueue_pending (s : State) (q : Nat) (x : Queue) : (s.setQueue q x).pending = s.pending := rfl
@[simp] theorem State.setQueue_out (s : State) (q : Nat) (x : Queue) : (s.setQueue q x).out = s.out := rfl
@[simp] theorem State.setQueue_time (s : State) (q : Nat) (x : Queue) : (s.setQueue q x).time = s.time := rfl
@[simp] theorem State.setQueue_net (s : State) (q : Nat) (x : Queue) : (s.setQueue q x).net = s.net := rfl
@[simp] theorem State.setQueue_order (s : State) (q : Nat) (x : Queue) : (s.setQueue q x).order = s.order := rfl
@[simp] theorem State.setQueue_basin (s : State) (q : Nat) (x : Queue) : (s.setQueue q x).basin = s.basin := rfl
@[simp] theorem State.setQueue_cistern (s : State) (q : Nat) (x : Queue) : (s.setQueue q x).cistern = s.cistern := rfl
@[simp] theorem State.setQueue_thrs (s : State) (q : Nat) (x : Queue) : (s.setQueue q x).thrs = s.thrs := rfl
@[simp] theorem State.setQueue_truns (s : State) (q : Nat) (x : Queue) : (s.setQueue q x).truns = s.truns := rfl
@[simp] theorem State.setQueue_scratch (s : State) (q : Nat) (x : Queue) : (s.setQueue q x).scratch = s.scratch := rfl
@[simp] theorem State.setQueue_cores (s : State) (q : Nat) (x : Queue) : (s.setQueue q x).cores = s.cores := rfl
@[simp] theorem State.setQueue_clusters (s : State) (q : Nat) (x : Queue) : (s.setQueue q x).clusters = s.clusters := rfl
@[simp] theorem State.setQueue_locks (s : State) (q : Nat) (x : Queue) : (s.setQueue q x).locks = s.locks := rfl
@[simp] theorem State.setQueue_keys (s : State) (q : Nat) (x : Queue) : (s.setQueue q x).keys = s.keys := rfl
@[simp] theorem State.setQueue_mem (s : State) (q : Nat) (x : Queue) : (s.setQueue q x).mem = s.mem := rfl
@[simp] theorem State.setQueue_hbm (s : State) (q : Nat) (x : Queue) : (s.setQueue q x).hbm = s.hbm := rfl
@[simp] theorem State.setQueue_power (s : State) (q : Nat) (x : Queue) : (s.setQueue q x).power = s.power := rfl
@[simp] theorem State.setQueue_tables (s : State) (q : Nat) (x : Queue) : (s.setQueue q x).tables = s.tables := rfl
@[simp] theorem State.setQueue_ledger (s : State) (q : Nat) (x : Queue) : (s.setQueue q x).ledger = s.ledger := rfl
@[simp] theorem State.setQueue_dci (s : State) (q : Nat) (x : Queue) : (s.setQueue q x).dci = s.dci := rfl
@[simp] theorem State.setQueue_faults (s : State) (q : Nat) (x : Queue) : (s.setQueue q x).faults = s.faults := rfl
@[simp] theorem State.setQueue_trust (s : State) (q : Nat) (x : Queue) : (s.setQueue q x).trust = s.trust := rfl
@[simp] theorem State.setQueue_free (s : State) (q : Nat) (x : Queue) : (s.setQueue q x).free = s.free := rfl

@[simp] theorem State.updQueue_pending (s : State) (q : Nat) (f : Queue → Queue) : (s.updQueue q f).pending = s.pending := rfl
@[simp] theorem State.updQueue_out (s : State) (q : Nat) (f : Queue → Queue) : (s.updQueue q f).out = s.out := rfl
@[simp] theorem State.updQueue_time (s : State) (q : Nat) (f : Queue → Queue) : (s.updQueue q f).time = s.time := rfl
@[simp] theorem State.updQueue_net (s : State) (q : Nat) (f : Queue → Queue) : (s.updQueue q f).net = s.net := rfl
@[simp] theorem State.updQueue_order (s : State) (q : Nat) (f : Queue → Queue) : (s.updQueue q f).order = s.order := rfl
@[simp] theorem State.updQueue_basin (s : State) (q : Nat) (f : Queue → Queue) : (s.updQueue q f).basin = s.basin := rfl
@[simp] theorem State.updQueue_cistern (s : State) (q : Nat) (f : Queue → Queue) : (s.updQueue q f).cistern = s.cistern := rfl
@[simp] theorem State.updQueue_thrs (s : State) (q : Nat) (f : Queue → Queue) : (s.updQueue q f).thrs = s.thrs := rfl
@[simp] theorem State.updQueue_truns (s : State) (q : Nat) (f : Queue → Queue) : (s.updQueue q f).truns = s.truns := rfl
@[simp] theorem State.updQueue_scratch (s : State) (q : Nat) (f : Queue → Queue) : (s.updQueue q f).scratch = s.scratch := rfl
@[simp] theorem State.updQueue_cores (s : State) (q : Nat) (f : Queue → Queue) : (s.updQueue q f).cores = s.cores := rfl
@[simp] theorem State.updQueue_clusters (s : State) (q : Nat) (f : Queue → Queue) : (s.updQueue q f).clusters = s.clusters := rfl
@[simp] theorem State.updQueue_locks (s : State) (q : Nat) (f : Queue → Queue) : (s.updQueue q f).locks = s.locks := rfl
@[simp] theorem State.updQueue_keys (s : State) (q : Nat) (f : Queue → Queue) : (s.updQueue q f).keys = s.keys := rfl
@[simp] theorem State.updQueue_mem (s : State) (q : Nat) (f : Queue → Queue) : (s.updQueue q f).mem = s.mem := rfl
@[simp] theorem State.updQueue_hbm (s : State) (q : Nat) (f : Queue → Queue) : (s.updQueue q f).hbm = s.hbm := rfl
@[simp] theorem State.updQueue_power (s : State) (q : Nat) (f : Queue → Queue) : (s.updQueue q f).power = s.power := rfl
@[simp] theorem State.updQueue_tables (s : State) (q : Nat) (f : Queue → Queue) : (s.updQueue q f).tables = s.tables := rfl
@[simp] theorem State.updQueue_ledger (s : State) (q : Nat) (f : Queue → Queue) : (s.updQueue q f).ledger = s.ledger := rfl
@[simp] theorem State.updQueue_dci (s : State) (q : Nat) (f : Queue → Queue) : (s.updQueue q f).dci = s.dci := rfl
@[simp] theorem State.updQueue_faults (s : State) (q : Nat) (f : Queue → Queue) : (s.updQueue q f).faults = s.faults := rfl
@[simp] theorem State.updQueue_trust (s : State) (q : Nat) (f : Queue → Queue) : (s.updQueue q f).trust = s.trust := rfl
@[simp] theorem State.updQueue_free (s : State) (q : Nat) (f : Queue → Queue) : (s.updQueue q f).free = s.free := rfl

@[simp] theorem State.setGroup_pending (s : State) (g : Nat) (x : QGroup) : (s.setGroup g x).pending = s.pending := rfl
@[simp] theorem State.setGroup_out (s : State) (g : Nat) (x : QGroup) : (s.setGroup g x).out = s.out := rfl
@[simp] theorem State.setGroup_time (s : State) (g : Nat) (x : QGroup) : (s.setGroup g x).time = s.time := rfl
@[simp] theorem State.setGroup_net (s : State) (g : Nat) (x : QGroup) : (s.setGroup g x).net = s.net := rfl
@[simp] theorem State.setGroup_order (s : State) (g : Nat) (x : QGroup) : (s.setGroup g x).order = s.order := rfl
@[simp] theorem State.setGroup_basin (s : State) (g : Nat) (x : QGroup) : (s.setGroup g x).basin = s.basin := rfl
@[simp] theorem State.setGroup_cistern (s : State) (g : Nat) (x : QGroup) : (s.setGroup g x).cistern = s.cistern := rfl
@[simp] theorem State.setGroup_thrs (s : State) (g : Nat) (x : QGroup) : (s.setGroup g x).thrs = s.thrs := rfl
@[simp] theorem State.setGroup_truns (s : State) (g : Nat) (x : QGroup) : (s.setGroup g x).truns = s.truns := rfl
@[simp] theorem State.setGroup_scratch (s : State) (g : Nat) (x : QGroup) : (s.setGroup g x).scratch = s.scratch := rfl
@[simp] theorem State.setGroup_cores (s : State) (g : Nat) (x : QGroup) : (s.setGroup g x).cores = s.cores := rfl
@[simp] theorem State.setGroup_clusters (s : State) (g : Nat) (x : QGroup) : (s.setGroup g x).clusters = s.clusters := rfl
@[simp] theorem State.setGroup_locks (s : State) (g : Nat) (x : QGroup) : (s.setGroup g x).locks = s.locks := rfl
@[simp] theorem State.setGroup_keys (s : State) (g : Nat) (x : QGroup) : (s.setGroup g x).keys = s.keys := rfl
@[simp] theorem State.setGroup_mem (s : State) (g : Nat) (x : QGroup) : (s.setGroup g x).mem = s.mem := rfl
@[simp] theorem State.setGroup_hbm (s : State) (g : Nat) (x : QGroup) : (s.setGroup g x).hbm = s.hbm := rfl
@[simp] theorem State.setGroup_power (s : State) (g : Nat) (x : QGroup) : (s.setGroup g x).power = s.power := rfl
@[simp] theorem State.setGroup_tables (s : State) (g : Nat) (x : QGroup) : (s.setGroup g x).tables = s.tables := rfl
@[simp] theorem State.setGroup_ledger (s : State) (g : Nat) (x : QGroup) : (s.setGroup g x).ledger = s.ledger := rfl
@[simp] theorem State.setGroup_dci (s : State) (g : Nat) (x : QGroup) : (s.setGroup g x).dci = s.dci := rfl
@[simp] theorem State.setGroup_faults (s : State) (g : Nat) (x : QGroup) : (s.setGroup g x).faults = s.faults := rfl
@[simp] theorem State.setGroup_trust (s : State) (g : Nat) (x : QGroup) : (s.setGroup g x).trust = s.trust := rfl
@[simp] theorem State.setGroup_free (s : State) (g : Nat) (x : QGroup) : (s.setGroup g x).free = s.free := rfl

@[simp] theorem State.updGroup_pending (s : State) (g : Nat) (f : QGroup → QGroup) : (s.updGroup g f).pending = s.pending := rfl
@[simp] theorem State.updGroup_out (s : State) (g : Nat) (f : QGroup → QGroup) : (s.updGroup g f).out = s.out := rfl
@[simp] theorem State.updGroup_time (s : State) (g : Nat) (f : QGroup → QGroup) : (s.updGroup g f).time = s.time := rfl
@[simp] theorem State.updGroup_net (s : State) (g : Nat) (f : QGroup → QGroup) : (s.updGroup g f).net = s.net := rfl
@[simp] theorem State.updGroup_order (s : State) (g : Nat) (f : QGroup → QGroup) : (s.updGroup g f).order = s.order := rfl
@[simp] theorem State.updGroup_basin (s : State) (g : Nat) (f : QGroup → QGroup) : (s.updGroup g f).basin = s.basin := rfl
@[simp] theorem State.updGroup_cistern (s : State) (g : Nat) (f : QGroup → QGroup) : (s.updGroup g f).cistern = s.cistern := rfl
@[simp] theorem State.updGroup_thrs (s : State) (g : Nat) (f : QGroup → QGroup) : (s.updGroup g f).thrs = s.thrs := rfl
@[simp] theorem State.updGroup_truns (s : State) (g : Nat) (f : QGroup → QGroup) : (s.updGroup g f).truns = s.truns := rfl
@[simp] theorem State.updGroup_scratch (s : State) (g : Nat) (f : QGroup → QGroup) : (s.updGroup g f).scratch = s.scratch := rfl
@[simp] theorem State.updGroup_cores (s : State) (g : Nat) (f : QGroup → QGroup) : (s.updGroup g f).cores = s.cores := rfl
@[simp] theorem State.updGroup_clusters (s : State) (g : Nat) (f : QGroup → QGroup) : (s.updGroup g f).clusters = s.clusters := rfl
@[simp] theorem State.updGroup_locks (s : State) (g : Nat) (f : QGroup → QGroup) : (s.updGroup g f).locks = s.locks := rfl
@[simp] theorem State.updGroup_keys (s : State) (g : Nat) (f : QGroup → QGroup) : (s.updGroup g f).keys = s.keys := rfl
@[simp] theorem State.updGroup_mem (s : State) (g : Nat) (f : QGroup → QGroup) : (s.updGroup g f).mem = s.mem := rfl
@[simp] theorem State.updGroup_hbm (s : State) (g : Nat) (f : QGroup → QGroup) : (s.updGroup g f).hbm = s.hbm := rfl
@[simp] theorem State.updGroup_power (s : State) (g : Nat) (f : QGroup → QGroup) : (s.updGroup g f).power = s.power := rfl
@[simp] theorem State.updGroup_tables (s : State) (g : Nat) (f : QGroup → QGroup) : (s.updGroup g f).tables = s.tables := rfl
@[simp] theorem State.updGroup_ledger (s : State) (g : Nat) (f : QGroup → QGroup) : (s.updGroup g f).ledger = s.ledger := rfl
@[simp] theorem State.updGroup_dci (s : State) (g : Nat) (f : QGroup → QGroup) : (s.updGroup g f).dci = s.dci := rfl
@[simp] theorem State.updGroup_faults (s : State) (g : Nat) (f : QGroup → QGroup) : (s.updGroup g f).faults = s.faults := rfl
@[simp] theorem State.updGroup_trust (s : State) (g : Nat) (f : QGroup → QGroup) : (s.updGroup g f).trust = s.trust := rfl
@[simp] theorem State.updGroup_free (s : State) (g : Nat) (f : QGroup → QGroup) : (s.updGroup g f).free = s.free := rfl

@[simp] theorem State.setPump_pending (s : State) (p : Nat) (x : Pump) : (s.setPump p x).pending = s.pending := rfl
@[simp] theorem State.setPump_out (s : State) (p : Nat) (x : Pump) : (s.setPump p x).out = s.out := rfl
@[simp] theorem State.setPump_time (s : State) (p : Nat) (x : Pump) : (s.setPump p x).time = s.time := rfl
@[simp] theorem State.setPump_net (s : State) (p : Nat) (x : Pump) : (s.setPump p x).net = s.net := rfl
@[simp] theorem State.setPump_order (s : State) (p : Nat) (x : Pump) : (s.setPump p x).order = s.order := rfl
@[simp] theorem State.setPump_basin (s : State) (p : Nat) (x : Pump) : (s.setPump p x).basin = s.basin := rfl
@[simp] theorem State.setPump_cistern (s : State) (p : Nat) (x : Pump) : (s.setPump p x).cistern = s.cistern := rfl
@[simp] theorem State.setPump_thrs (s : State) (p : Nat) (x : Pump) : (s.setPump p x).thrs = s.thrs := rfl
@[simp] theorem State.setPump_truns (s : State) (p : Nat) (x : Pump) : (s.setPump p x).truns = s.truns := rfl
@[simp] theorem State.setPump_scratch (s : State) (p : Nat) (x : Pump) : (s.setPump p x).scratch = s.scratch := rfl
@[simp] theorem State.setPump_cores (s : State) (p : Nat) (x : Pump) : (s.setPump p x).cores = s.cores := rfl
@[simp] theorem State.setPump_clusters (s : State) (p : Nat) (x : Pump) : (s.setPump p x).clusters = s.clusters := rfl
@[simp] theorem State.setPump_locks (s : State) (p : Nat) (x : Pump) : (s.setPump p x).locks = s.locks := rfl
@[simp] theorem State.setPump_keys (s : State) (p : Nat) (x : Pump) : (s.setPump p x).keys = s.keys := rfl
@[simp] theorem State.setPump_mem (s : State) (p : Nat) (x : Pump) : (s.setPump p x).mem = s.mem := rfl
@[simp] theorem State.setPump_hbm (s : State) (p : Nat) (x : Pump) : (s.setPump p x).hbm = s.hbm := rfl
@[simp] theorem State.setPump_power (s : State) (p : Nat) (x : Pump) : (s.setPump p x).power = s.power := rfl
@[simp] theorem State.setPump_tables (s : State) (p : Nat) (x : Pump) : (s.setPump p x).tables = s.tables := rfl
@[simp] theorem State.setPump_ledger (s : State) (p : Nat) (x : Pump) : (s.setPump p x).ledger = s.ledger := rfl
@[simp] theorem State.setPump_dci (s : State) (p : Nat) (x : Pump) : (s.setPump p x).dci = s.dci := rfl
@[simp] theorem State.setPump_faults (s : State) (p : Nat) (x : Pump) : (s.setPump p x).faults = s.faults := rfl
@[simp] theorem State.setPump_trust (s : State) (p : Nat) (x : Pump) : (s.setPump p x).trust = s.trust := rfl
@[simp] theorem State.setPump_free (s : State) (p : Nat) (x : Pump) : (s.setPump p x).free = s.free := rfl

@[simp] theorem State.updPump_pending (s : State) (p : Nat) (f : Pump → Pump) : (s.updPump p f).pending = s.pending := rfl
@[simp] theorem State.updPump_out (s : State) (p : Nat) (f : Pump → Pump) : (s.updPump p f).out = s.out := rfl
@[simp] theorem State.updPump_time (s : State) (p : Nat) (f : Pump → Pump) : (s.updPump p f).time = s.time := rfl
@[simp] theorem State.updPump_net (s : State) (p : Nat) (f : Pump → Pump) : (s.updPump p f).net = s.net := rfl
@[simp] theorem State.updPump_order (s : State) (p : Nat) (f : Pump → Pump) : (s.updPump p f).order = s.order := rfl
@[simp] theorem State.updPump_basin (s : State) (p : Nat) (f : Pump → Pump) : (s.updPump p f).basin = s.basin := rfl
@[simp] theorem State.updPump_cistern (s : State) (p : Nat) (f : Pump → Pump) : (s.updPump p f).cistern = s.cistern := rfl
@[simp] theorem State.updPump_thrs (s : State) (p : Nat) (f : Pump → Pump) : (s.updPump p f).thrs = s.thrs := rfl
@[simp] theorem State.updPump_truns (s : State) (p : Nat) (f : Pump → Pump) : (s.updPump p f).truns = s.truns := rfl
@[simp] theorem State.updPump_scratch (s : State) (p : Nat) (f : Pump → Pump) : (s.updPump p f).scratch = s.scratch := rfl
@[simp] theorem State.updPump_cores (s : State) (p : Nat) (f : Pump → Pump) : (s.updPump p f).cores = s.cores := rfl
@[simp] theorem State.updPump_clusters (s : State) (p : Nat) (f : Pump → Pump) : (s.updPump p f).clusters = s.clusters := rfl
@[simp] theorem State.updPump_locks (s : State) (p : Nat) (f : Pump → Pump) : (s.updPump p f).locks = s.locks := rfl
@[simp] theorem State.updPump_keys (s : State) (p : Nat) (f : Pump → Pump) : (s.updPump p f).keys = s.keys := rfl
@[simp] theorem State.updPump_mem (s : State) (p : Nat) (f : Pump → Pump) : (s.updPump p f).mem = s.mem := rfl
@[simp] theorem State.updPump_hbm (s : State) (p : Nat) (f : Pump → Pump) : (s.updPump p f).hbm = s.hbm := rfl
@[simp] theorem State.updPump_power (s : State) (p : Nat) (f : Pump → Pump) : (s.updPump p f).power = s.power := rfl
@[simp] theorem State.updPump_tables (s : State) (p : Nat) (f : Pump → Pump) : (s.updPump p f).tables = s.tables := rfl
@[simp] theorem State.updPump_ledger (s : State) (p : Nat) (f : Pump → Pump) : (s.updPump p f).ledger = s.ledger := rfl
@[simp] theorem State.updPump_dci (s : State) (p : Nat) (f : Pump → Pump) : (s.updPump p f).dci = s.dci := rfl
@[simp] theorem State.updPump_faults (s : State) (p : Nat) (f : Pump → Pump) : (s.updPump p f).faults = s.faults := rfl
@[simp] theorem State.updPump_trust (s : State) (p : Nat) (f : Pump → Pump) : (s.updPump p f).trust = s.trust := rfl
@[simp] theorem State.updPump_free (s : State) (p : Nat) (f : Pump → Pump) : (s.updPump p f).free = s.free := rfl

@[simp] theorem State.updEgress_pending (s : State) (f : EgressSt → EgressSt) : (s.updEgress f).pending = s.pending := rfl
@[simp] theorem State.updEgress_out (s : State) (f : EgressSt → EgressSt) : (s.updEgress f).out = s.out := rfl
@[simp] theorem State.updEgress_time (s : State) (f : EgressSt → EgressSt) : (s.updEgress f).time = s.time := rfl
@[simp] theorem State.updEgress_net (s : State) (f : EgressSt → EgressSt) : (s.updEgress f).net = s.net := rfl
@[simp] theorem State.updEgress_order (s : State) (f : EgressSt → EgressSt) : (s.updEgress f).order = s.order := rfl
@[simp] theorem State.updEgress_basin (s : State) (f : EgressSt → EgressSt) : (s.updEgress f).basin = s.basin := rfl
@[simp] theorem State.updEgress_cistern (s : State) (f : EgressSt → EgressSt) : (s.updEgress f).cistern = s.cistern := rfl
@[simp] theorem State.updEgress_thrs (s : State) (f : EgressSt → EgressSt) : (s.updEgress f).thrs = s.thrs := rfl
@[simp] theorem State.updEgress_truns (s : State) (f : EgressSt → EgressSt) : (s.updEgress f).truns = s.truns := rfl
@[simp] theorem State.updEgress_scratch (s : State) (f : EgressSt → EgressSt) : (s.updEgress f).scratch = s.scratch := rfl
@[simp] theorem State.updEgress_cores (s : State) (f : EgressSt → EgressSt) : (s.updEgress f).cores = s.cores := rfl
@[simp] theorem State.updEgress_clusters (s : State) (f : EgressSt → EgressSt) : (s.updEgress f).clusters = s.clusters := rfl
@[simp] theorem State.updEgress_locks (s : State) (f : EgressSt → EgressSt) : (s.updEgress f).locks = s.locks := rfl
@[simp] theorem State.updEgress_keys (s : State) (f : EgressSt → EgressSt) : (s.updEgress f).keys = s.keys := rfl
@[simp] theorem State.updEgress_mem (s : State) (f : EgressSt → EgressSt) : (s.updEgress f).mem = s.mem := rfl
@[simp] theorem State.updEgress_hbm (s : State) (f : EgressSt → EgressSt) : (s.updEgress f).hbm = s.hbm := rfl
@[simp] theorem State.updEgress_power (s : State) (f : EgressSt → EgressSt) : (s.updEgress f).power = s.power := rfl
@[simp] theorem State.updEgress_tables (s : State) (f : EgressSt → EgressSt) : (s.updEgress f).tables = s.tables := rfl
@[simp] theorem State.updEgress_ledger (s : State) (f : EgressSt → EgressSt) : (s.updEgress f).ledger = s.ledger := rfl
@[simp] theorem State.updEgress_dci (s : State) (f : EgressSt → EgressSt) : (s.updEgress f).dci = s.dci := rfl
@[simp] theorem State.updEgress_faults (s : State) (f : EgressSt → EgressSt) : (s.updEgress f).faults = s.faults := rfl
@[simp] theorem State.updEgress_trust (s : State) (f : EgressSt → EgressSt) : (s.updEgress f).trust = s.trust := rfl
@[simp] theorem State.updEgress_free (s : State) (f : EgressSt → EgressSt) : (s.updEgress f).free = s.free := rfl

@[simp] theorem State.setLock_pending (s : State) (k : Nat) (x : LockEnt) : (s.setLock k x).pending = s.pending := rfl
@[simp] theorem State.setLock_out (s : State) (k : Nat) (x : LockEnt) : (s.setLock k x).out = s.out := rfl
@[simp] theorem State.setLock_time (s : State) (k : Nat) (x : LockEnt) : (s.setLock k x).time = s.time := rfl
@[simp] theorem State.setLock_net (s : State) (k : Nat) (x : LockEnt) : (s.setLock k x).net = s.net := rfl
@[simp] theorem State.setLock_order (s : State) (k : Nat) (x : LockEnt) : (s.setLock k x).order = s.order := rfl
@[simp] theorem State.setLock_basin (s : State) (k : Nat) (x : LockEnt) : (s.setLock k x).basin = s.basin := rfl
@[simp] theorem State.setLock_cistern (s : State) (k : Nat) (x : LockEnt) : (s.setLock k x).cistern = s.cistern := rfl
@[simp] theorem State.setLock_egress (s : State) (k : Nat) (x : LockEnt) : (s.setLock k x).egress = s.egress := rfl
@[simp] theorem State.setLock_thrs (s : State) (k : Nat) (x : LockEnt) : (s.setLock k x).thrs = s.thrs := rfl
@[simp] theorem State.setLock_truns (s : State) (k : Nat) (x : LockEnt) : (s.setLock k x).truns = s.truns := rfl
@[simp] theorem State.setLock_scratch (s : State) (k : Nat) (x : LockEnt) : (s.setLock k x).scratch = s.scratch := rfl
@[simp] theorem State.setLock_cores (s : State) (k : Nat) (x : LockEnt) : (s.setLock k x).cores = s.cores := rfl
@[simp] theorem State.setLock_clusters (s : State) (k : Nat) (x : LockEnt) : (s.setLock k x).clusters = s.clusters := rfl
@[simp] theorem State.setLock_keys (s : State) (k : Nat) (x : LockEnt) : (s.setLock k x).keys = s.keys := rfl
@[simp] theorem State.setLock_mem (s : State) (k : Nat) (x : LockEnt) : (s.setLock k x).mem = s.mem := rfl
@[simp] theorem State.setLock_hbm (s : State) (k : Nat) (x : LockEnt) : (s.setLock k x).hbm = s.hbm := rfl
@[simp] theorem State.setLock_power (s : State) (k : Nat) (x : LockEnt) : (s.setLock k x).power = s.power := rfl
@[simp] theorem State.setLock_tables (s : State) (k : Nat) (x : LockEnt) : (s.setLock k x).tables = s.tables := rfl
@[simp] theorem State.setLock_ledger (s : State) (k : Nat) (x : LockEnt) : (s.setLock k x).ledger = s.ledger := rfl
@[simp] theorem State.setLock_dci (s : State) (k : Nat) (x : LockEnt) : (s.setLock k x).dci = s.dci := rfl
@[simp] theorem State.setLock_faults (s : State) (k : Nat) (x : LockEnt) : (s.setLock k x).faults = s.faults := rfl
@[simp] theorem State.setLock_trust (s : State) (k : Nat) (x : LockEnt) : (s.setLock k x).trust = s.trust := rfl
@[simp] theorem State.setLock_free (s : State) (k : Nat) (x : LockEnt) : (s.setLock k x).free = s.free := rfl

@[simp] theorem State.setLockGrp_pending (s : State) (g : Nat) (x : LockGrp) : (s.setLockGrp g x).pending = s.pending := rfl
@[simp] theorem State.setLockGrp_out (s : State) (g : Nat) (x : LockGrp) : (s.setLockGrp g x).out = s.out := rfl
@[simp] theorem State.setLockGrp_time (s : State) (g : Nat) (x : LockGrp) : (s.setLockGrp g x).time = s.time := rfl
@[simp] theorem State.setLockGrp_net (s : State) (g : Nat) (x : LockGrp) : (s.setLockGrp g x).net = s.net := rfl
@[simp] theorem State.setLockGrp_order (s : State) (g : Nat) (x : LockGrp) : (s.setLockGrp g x).order = s.order := rfl
@[simp] theorem State.setLockGrp_basin (s : State) (g : Nat) (x : LockGrp) : (s.setLockGrp g x).basin = s.basin := rfl
@[simp] theorem State.setLockGrp_cistern (s : State) (g : Nat) (x : LockGrp) : (s.setLockGrp g x).cistern = s.cistern := rfl
@[simp] theorem State.setLockGrp_egress (s : State) (g : Nat) (x : LockGrp) : (s.setLockGrp g x).egress = s.egress := rfl
@[simp] theorem State.setLockGrp_thrs (s : State) (g : Nat) (x : LockGrp) : (s.setLockGrp g x).thrs = s.thrs := rfl
@[simp] theorem State.setLockGrp_truns (s : State) (g : Nat) (x : LockGrp) : (s.setLockGrp g x).truns = s.truns := rfl
@[simp] theorem State.setLockGrp_scratch (s : State) (g : Nat) (x : LockGrp) : (s.setLockGrp g x).scratch = s.scratch := rfl
@[simp] theorem State.setLockGrp_cores (s : State) (g : Nat) (x : LockGrp) : (s.setLockGrp g x).cores = s.cores := rfl
@[simp] theorem State.setLockGrp_clusters (s : State) (g : Nat) (x : LockGrp) : (s.setLockGrp g x).clusters = s.clusters := rfl
@[simp] theorem State.setLockGrp_keys (s : State) (g : Nat) (x : LockGrp) : (s.setLockGrp g x).keys = s.keys := rfl
@[simp] theorem State.setLockGrp_mem (s : State) (g : Nat) (x : LockGrp) : (s.setLockGrp g x).mem = s.mem := rfl
@[simp] theorem State.setLockGrp_hbm (s : State) (g : Nat) (x : LockGrp) : (s.setLockGrp g x).hbm = s.hbm := rfl
@[simp] theorem State.setLockGrp_power (s : State) (g : Nat) (x : LockGrp) : (s.setLockGrp g x).power = s.power := rfl
@[simp] theorem State.setLockGrp_tables (s : State) (g : Nat) (x : LockGrp) : (s.setLockGrp g x).tables = s.tables := rfl
@[simp] theorem State.setLockGrp_ledger (s : State) (g : Nat) (x : LockGrp) : (s.setLockGrp g x).ledger = s.ledger := rfl
@[simp] theorem State.setLockGrp_dci (s : State) (g : Nat) (x : LockGrp) : (s.setLockGrp g x).dci = s.dci := rfl
@[simp] theorem State.setLockGrp_faults (s : State) (g : Nat) (x : LockGrp) : (s.setLockGrp g x).faults = s.faults := rfl
@[simp] theorem State.setLockGrp_trust (s : State) (g : Nat) (x : LockGrp) : (s.setLockGrp g x).trust = s.trust := rfl
@[simp] theorem State.setLockGrp_free (s : State) (g : Nat) (x : LockGrp) : (s.setLockGrp g x).free = s.free := rfl

@[simp] theorem State.setFn_pending (s : State) (f : HostFn) (x : FnSt) : (s.setFn f x).pending = s.pending := by cases f <;> rfl
@[simp] theorem State.setFn_out (s : State) (f : HostFn) (x : FnSt) : (s.setFn f x).out = s.out := by cases f <;> rfl
@[simp] theorem State.setFn_time (s : State) (f : HostFn) (x : FnSt) : (s.setFn f x).time = s.time := by cases f <;> rfl
@[simp] theorem State.setFn_net (s : State) (f : HostFn) (x : FnSt) : (s.setFn f x).net = s.net := by cases f <;> rfl
@[simp] theorem State.setFn_order (s : State) (f : HostFn) (x : FnSt) : (s.setFn f x).order = s.order := by cases f <;> rfl
@[simp] theorem State.setFn_basin (s : State) (f : HostFn) (x : FnSt) : (s.setFn f x).basin = s.basin := by cases f <;> rfl
@[simp] theorem State.setFn_cistern (s : State) (f : HostFn) (x : FnSt) : (s.setFn f x).cistern = s.cistern := by cases f <;> rfl
@[simp] theorem State.setFn_egress (s : State) (f : HostFn) (x : FnSt) : (s.setFn f x).egress = s.egress := by cases f <;> rfl
@[simp] theorem State.setFn_thrs (s : State) (f : HostFn) (x : FnSt) : (s.setFn f x).thrs = s.thrs := by cases f <;> rfl
@[simp] theorem State.setFn_truns (s : State) (f : HostFn) (x : FnSt) : (s.setFn f x).truns = s.truns := by cases f <;> rfl
@[simp] theorem State.setFn_scratch (s : State) (f : HostFn) (x : FnSt) : (s.setFn f x).scratch = s.scratch := by cases f <;> rfl
@[simp] theorem State.setFn_cores (s : State) (f : HostFn) (x : FnSt) : (s.setFn f x).cores = s.cores := by cases f <;> rfl
@[simp] theorem State.setFn_clusters (s : State) (f : HostFn) (x : FnSt) : (s.setFn f x).clusters = s.clusters := by cases f <;> rfl
@[simp] theorem State.setFn_locks (s : State) (f : HostFn) (x : FnSt) : (s.setFn f x).locks = s.locks := by cases f <;> rfl
@[simp] theorem State.setFn_keys (s : State) (f : HostFn) (x : FnSt) : (s.setFn f x).keys = s.keys := by cases f <;> rfl
@[simp] theorem State.setFn_mem (s : State) (f : HostFn) (x : FnSt) : (s.setFn f x).mem = s.mem := by cases f <;> rfl
@[simp] theorem State.setFn_hbm (s : State) (f : HostFn) (x : FnSt) : (s.setFn f x).hbm = s.hbm := by cases f <;> rfl
@[simp] theorem State.setFn_power (s : State) (f : HostFn) (x : FnSt) : (s.setFn f x).power = s.power := by cases f <;> rfl
@[simp] theorem State.setFn_tables (s : State) (f : HostFn) (x : FnSt) : (s.setFn f x).tables = s.tables := by cases f <;> rfl
@[simp] theorem State.setFn_ledger (s : State) (f : HostFn) (x : FnSt) : (s.setFn f x).ledger = s.ledger := by cases f <;> rfl
@[simp] theorem State.setFn_faults (s : State) (f : HostFn) (x : FnSt) : (s.setFn f x).faults = s.faults := by cases f <;> rfl
@[simp] theorem State.setFn_trust (s : State) (f : HostFn) (x : FnSt) : (s.setFn f x).trust = s.trust := by cases f <;> rfl
@[simp] theorem State.setFn_free (s : State) (f : HostFn) (x : FnSt) : (s.setFn f x).free = s.free := by cases f <;> rfl

@[simp] theorem State.updFn_pending (s : State) (f : HostFn) (g : FnSt → FnSt) : (s.updFn f g).pending = s.pending := by cases f <;> rfl
@[simp] theorem State.updFn_out (s : State) (f : HostFn) (g : FnSt → FnSt) : (s.updFn f g).out = s.out := by cases f <;> rfl
@[simp] theorem State.updFn_time (s : State) (f : HostFn) (g : FnSt → FnSt) : (s.updFn f g).time = s.time := by cases f <;> rfl
@[simp] theorem State.updFn_net (s : State) (f : HostFn) (g : FnSt → FnSt) : (s.updFn f g).net = s.net := by cases f <;> rfl
@[simp] theorem State.updFn_order (s : State) (f : HostFn) (g : FnSt → FnSt) : (s.updFn f g).order = s.order := by cases f <;> rfl
@[simp] theorem State.updFn_basin (s : State) (f : HostFn) (g : FnSt → FnSt) : (s.updFn f g).basin = s.basin := by cases f <;> rfl
@[simp] theorem State.updFn_cistern (s : State) (f : HostFn) (g : FnSt → FnSt) : (s.updFn f g).cistern = s.cistern := by cases f <;> rfl
@[simp] theorem State.updFn_egress (s : State) (f : HostFn) (g : FnSt → FnSt) : (s.updFn f g).egress = s.egress := by cases f <;> rfl
@[simp] theorem State.updFn_thrs (s : State) (f : HostFn) (g : FnSt → FnSt) : (s.updFn f g).thrs = s.thrs := by cases f <;> rfl
@[simp] theorem State.updFn_truns (s : State) (f : HostFn) (g : FnSt → FnSt) : (s.updFn f g).truns = s.truns := by cases f <;> rfl
@[simp] theorem State.updFn_scratch (s : State) (f : HostFn) (g : FnSt → FnSt) : (s.updFn f g).scratch = s.scratch := by cases f <;> rfl
@[simp] theorem State.updFn_cores (s : State) (f : HostFn) (g : FnSt → FnSt) : (s.updFn f g).cores = s.cores := by cases f <;> rfl
@[simp] theorem State.updFn_clusters (s : State) (f : HostFn) (g : FnSt → FnSt) : (s.updFn f g).clusters = s.clusters := by cases f <;> rfl
@[simp] theorem State.updFn_locks (s : State) (f : HostFn) (g : FnSt → FnSt) : (s.updFn f g).locks = s.locks := by cases f <;> rfl
@[simp] theorem State.updFn_keys (s : State) (f : HostFn) (g : FnSt → FnSt) : (s.updFn f g).keys = s.keys := by cases f <;> rfl
@[simp] theorem State.updFn_mem (s : State) (f : HostFn) (g : FnSt → FnSt) : (s.updFn f g).mem = s.mem := by cases f <;> rfl
@[simp] theorem State.updFn_hbm (s : State) (f : HostFn) (g : FnSt → FnSt) : (s.updFn f g).hbm = s.hbm := by cases f <;> rfl
@[simp] theorem State.updFn_power (s : State) (f : HostFn) (g : FnSt → FnSt) : (s.updFn f g).power = s.power := by cases f <;> rfl
@[simp] theorem State.updFn_tables (s : State) (f : HostFn) (g : FnSt → FnSt) : (s.updFn f g).tables = s.tables := by cases f <;> rfl
@[simp] theorem State.updFn_ledger (s : State) (f : HostFn) (g : FnSt → FnSt) : (s.updFn f g).ledger = s.ledger := by cases f <;> rfl
@[simp] theorem State.updFn_faults (s : State) (f : HostFn) (g : FnSt → FnSt) : (s.updFn f g).faults = s.faults := by cases f <;> rfl
@[simp] theorem State.updFn_trust (s : State) (f : HostFn) (g : FnSt → FnSt) : (s.updFn f g).trust = s.trust := by cases f <;> rfl
@[simp] theorem State.updFn_free (s : State) (f : HostFn) (g : FnSt → FnSt) : (s.updFn f g).free = s.free := by cases f <;> rfl

@[simp] theorem State.updDci_pending (s : State) (f : DciSt → DciSt) : (s.updDci f).pending = s.pending := rfl
@[simp] theorem State.updDci_out (s : State) (f : DciSt → DciSt) : (s.updDci f).out = s.out := rfl
@[simp] theorem State.updDci_time (s : State) (f : DciSt → DciSt) : (s.updDci f).time = s.time := rfl
@[simp] theorem State.updDci_net (s : State) (f : DciSt → DciSt) : (s.updDci f).net = s.net := rfl
@[simp] theorem State.updDci_order (s : State) (f : DciSt → DciSt) : (s.updDci f).order = s.order := rfl
@[simp] theorem State.updDci_basin (s : State) (f : DciSt → DciSt) : (s.updDci f).basin = s.basin := rfl
@[simp] theorem State.updDci_cistern (s : State) (f : DciSt → DciSt) : (s.updDci f).cistern = s.cistern := rfl
@[simp] theorem State.updDci_egress (s : State) (f : DciSt → DciSt) : (s.updDci f).egress = s.egress := rfl
@[simp] theorem State.updDci_thrs (s : State) (f : DciSt → DciSt) : (s.updDci f).thrs = s.thrs := rfl
@[simp] theorem State.updDci_truns (s : State) (f : DciSt → DciSt) : (s.updDci f).truns = s.truns := rfl
@[simp] theorem State.updDci_scratch (s : State) (f : DciSt → DciSt) : (s.updDci f).scratch = s.scratch := rfl
@[simp] theorem State.updDci_cores (s : State) (f : DciSt → DciSt) : (s.updDci f).cores = s.cores := rfl
@[simp] theorem State.updDci_clusters (s : State) (f : DciSt → DciSt) : (s.updDci f).clusters = s.clusters := rfl
@[simp] theorem State.updDci_locks (s : State) (f : DciSt → DciSt) : (s.updDci f).locks = s.locks := rfl
@[simp] theorem State.updDci_keys (s : State) (f : DciSt → DciSt) : (s.updDci f).keys = s.keys := rfl
@[simp] theorem State.updDci_mem (s : State) (f : DciSt → DciSt) : (s.updDci f).mem = s.mem := rfl
@[simp] theorem State.updDci_hbm (s : State) (f : DciSt → DciSt) : (s.updDci f).hbm = s.hbm := rfl
@[simp] theorem State.updDci_power (s : State) (f : DciSt → DciSt) : (s.updDci f).power = s.power := rfl
@[simp] theorem State.updDci_tables (s : State) (f : DciSt → DciSt) : (s.updDci f).tables = s.tables := rfl
@[simp] theorem State.updDci_ledger (s : State) (f : DciSt → DciSt) : (s.updDci f).ledger = s.ledger := rfl
@[simp] theorem State.updDci_faults (s : State) (f : DciSt → DciSt) : (s.updDci f).faults = s.faults := rfl
@[simp] theorem State.updDci_trust (s : State) (f : DciSt → DciSt) : (s.updDci f).trust = s.trust := rfl
@[simp] theorem State.updDci_free (s : State) (f : DciSt → DciSt) : (s.updDci f).free = s.free := rfl

@[simp] theorem State.updJ_pending (s : State) (c : Sys2Proof.CmdRef) (f : JCmd → JCmd) : (s.updJ c f).pending = s.pending := rfl
@[simp] theorem State.updJ_out (s : State) (c : Sys2Proof.CmdRef) (f : JCmd → JCmd) : (s.updJ c f).out = s.out := rfl
@[simp] theorem State.updJ_time (s : State) (c : Sys2Proof.CmdRef) (f : JCmd → JCmd) : (s.updJ c f).time = s.time := rfl
@[simp] theorem State.updJ_net (s : State) (c : Sys2Proof.CmdRef) (f : JCmd → JCmd) : (s.updJ c f).net = s.net := rfl
@[simp] theorem State.updJ_order (s : State) (c : Sys2Proof.CmdRef) (f : JCmd → JCmd) : (s.updJ c f).order = s.order := rfl
@[simp] theorem State.updJ_basin (s : State) (c : Sys2Proof.CmdRef) (f : JCmd → JCmd) : (s.updJ c f).basin = s.basin := rfl
@[simp] theorem State.updJ_cistern (s : State) (c : Sys2Proof.CmdRef) (f : JCmd → JCmd) : (s.updJ c f).cistern = s.cistern := rfl
@[simp] theorem State.updJ_egress (s : State) (c : Sys2Proof.CmdRef) (f : JCmd → JCmd) : (s.updJ c f).egress = s.egress := rfl
@[simp] theorem State.updJ_thrs (s : State) (c : Sys2Proof.CmdRef) (f : JCmd → JCmd) : (s.updJ c f).thrs = s.thrs := rfl
@[simp] theorem State.updJ_truns (s : State) (c : Sys2Proof.CmdRef) (f : JCmd → JCmd) : (s.updJ c f).truns = s.truns := rfl
@[simp] theorem State.updJ_scratch (s : State) (c : Sys2Proof.CmdRef) (f : JCmd → JCmd) : (s.updJ c f).scratch = s.scratch := rfl
@[simp] theorem State.updJ_cores (s : State) (c : Sys2Proof.CmdRef) (f : JCmd → JCmd) : (s.updJ c f).cores = s.cores := rfl
@[simp] theorem State.updJ_clusters (s : State) (c : Sys2Proof.CmdRef) (f : JCmd → JCmd) : (s.updJ c f).clusters = s.clusters := rfl
@[simp] theorem State.updJ_locks (s : State) (c : Sys2Proof.CmdRef) (f : JCmd → JCmd) : (s.updJ c f).locks = s.locks := rfl
@[simp] theorem State.updJ_keys (s : State) (c : Sys2Proof.CmdRef) (f : JCmd → JCmd) : (s.updJ c f).keys = s.keys := rfl
@[simp] theorem State.updJ_mem (s : State) (c : Sys2Proof.CmdRef) (f : JCmd → JCmd) : (s.updJ c f).mem = s.mem := rfl
@[simp] theorem State.updJ_hbm (s : State) (c : Sys2Proof.CmdRef) (f : JCmd → JCmd) : (s.updJ c f).hbm = s.hbm := rfl
@[simp] theorem State.updJ_power (s : State) (c : Sys2Proof.CmdRef) (f : JCmd → JCmd) : (s.updJ c f).power = s.power := rfl
@[simp] theorem State.updJ_tables (s : State) (c : Sys2Proof.CmdRef) (f : JCmd → JCmd) : (s.updJ c f).tables = s.tables := rfl
@[simp] theorem State.updJ_ledger (s : State) (c : Sys2Proof.CmdRef) (f : JCmd → JCmd) : (s.updJ c f).ledger = s.ledger := rfl
@[simp] theorem State.updJ_faults (s : State) (c : Sys2Proof.CmdRef) (f : JCmd → JCmd) : (s.updJ c f).faults = s.faults := rfl
@[simp] theorem State.updJ_trust (s : State) (c : Sys2Proof.CmdRef) (f : JCmd → JCmd) : (s.updJ c f).trust = s.trust := rfl
@[simp] theorem State.updJ_free (s : State) (c : Sys2Proof.CmdRef) (f : JCmd → JCmd) : (s.updJ c f).free = s.free := rfl

@[simp] theorem State.setStep_pending (s : State) (n : Nat) : (s.setStep n).pending = s.pending := rfl
@[simp] theorem State.setStep_out (s : State) (n : Nat) : (s.setStep n).out = s.out := rfl
@[simp] theorem State.setStep_time (s : State) (n : Nat) : (s.setStep n).time = s.time := rfl
@[simp] theorem State.setStep_net (s : State) (n : Nat) : (s.setStep n).net = s.net := rfl
@[simp] theorem State.setStep_order (s : State) (n : Nat) : (s.setStep n).order = s.order := rfl
@[simp] theorem State.setStep_basin (s : State) (n : Nat) : (s.setStep n).basin = s.basin := rfl
@[simp] theorem State.setStep_cistern (s : State) (n : Nat) : (s.setStep n).cistern = s.cistern := rfl
@[simp] theorem State.setStep_egress (s : State) (n : Nat) : (s.setStep n).egress = s.egress := rfl
@[simp] theorem State.setStep_thrs (s : State) (n : Nat) : (s.setStep n).thrs = s.thrs := rfl
@[simp] theorem State.setStep_truns (s : State) (n : Nat) : (s.setStep n).truns = s.truns := rfl
@[simp] theorem State.setStep_scratch (s : State) (n : Nat) : (s.setStep n).scratch = s.scratch := rfl
@[simp] theorem State.setStep_cores (s : State) (n : Nat) : (s.setStep n).cores = s.cores := rfl
@[simp] theorem State.setStep_clusters (s : State) (n : Nat) : (s.setStep n).clusters = s.clusters := rfl
@[simp] theorem State.setStep_locks (s : State) (n : Nat) : (s.setStep n).locks = s.locks := rfl
@[simp] theorem State.setStep_keys (s : State) (n : Nat) : (s.setStep n).keys = s.keys := rfl
@[simp] theorem State.setStep_mem (s : State) (n : Nat) : (s.setStep n).mem = s.mem := rfl
@[simp] theorem State.setStep_hbm (s : State) (n : Nat) : (s.setStep n).hbm = s.hbm := rfl
@[simp] theorem State.setStep_power (s : State) (n : Nat) : (s.setStep n).power = s.power := rfl
@[simp] theorem State.setStep_tables (s : State) (n : Nat) : (s.setStep n).tables = s.tables := rfl
@[simp] theorem State.setStep_ledger (s : State) (n : Nat) : (s.setStep n).ledger = s.ledger := rfl
@[simp] theorem State.setStep_faults (s : State) (n : Nat) : (s.setStep n).faults = s.faults := rfl
@[simp] theorem State.setStep_trust (s : State) (n : Nat) : (s.setStep n).trust = s.trust := rfl
@[simp] theorem State.setStep_free (s : State) (n : Nat) : (s.setStep n).free = s.free := rfl

@[simp] theorem State.updMem_pending (s : State) (f : HbmMem → HbmMem) : (s.updMem f).pending = s.pending := rfl
@[simp] theorem State.updMem_out (s : State) (f : HbmMem → HbmMem) : (s.updMem f).out = s.out := rfl
@[simp] theorem State.updMem_time (s : State) (f : HbmMem → HbmMem) : (s.updMem f).time = s.time := rfl
@[simp] theorem State.updMem_net (s : State) (f : HbmMem → HbmMem) : (s.updMem f).net = s.net := rfl
@[simp] theorem State.updMem_order (s : State) (f : HbmMem → HbmMem) : (s.updMem f).order = s.order := rfl
@[simp] theorem State.updMem_basin (s : State) (f : HbmMem → HbmMem) : (s.updMem f).basin = s.basin := rfl
@[simp] theorem State.updMem_cistern (s : State) (f : HbmMem → HbmMem) : (s.updMem f).cistern = s.cistern := rfl
@[simp] theorem State.updMem_egress (s : State) (f : HbmMem → HbmMem) : (s.updMem f).egress = s.egress := rfl
@[simp] theorem State.updMem_thrs (s : State) (f : HbmMem → HbmMem) : (s.updMem f).thrs = s.thrs := rfl
@[simp] theorem State.updMem_truns (s : State) (f : HbmMem → HbmMem) : (s.updMem f).truns = s.truns := rfl
@[simp] theorem State.updMem_scratch (s : State) (f : HbmMem → HbmMem) : (s.updMem f).scratch = s.scratch := rfl
@[simp] theorem State.updMem_cores (s : State) (f : HbmMem → HbmMem) : (s.updMem f).cores = s.cores := rfl
@[simp] theorem State.updMem_clusters (s : State) (f : HbmMem → HbmMem) : (s.updMem f).clusters = s.clusters := rfl
@[simp] theorem State.updMem_locks (s : State) (f : HbmMem → HbmMem) : (s.updMem f).locks = s.locks := rfl
@[simp] theorem State.updMem_keys (s : State) (f : HbmMem → HbmMem) : (s.updMem f).keys = s.keys := rfl
@[simp] theorem State.updMem_hbm (s : State) (f : HbmMem → HbmMem) : (s.updMem f).hbm = s.hbm := rfl
@[simp] theorem State.updMem_power (s : State) (f : HbmMem → HbmMem) : (s.updMem f).power = s.power := rfl
@[simp] theorem State.updMem_tables (s : State) (f : HbmMem → HbmMem) : (s.updMem f).tables = s.tables := rfl
@[simp] theorem State.updMem_ledger (s : State) (f : HbmMem → HbmMem) : (s.updMem f).ledger = s.ledger := rfl
@[simp] theorem State.updMem_dci (s : State) (f : HbmMem → HbmMem) : (s.updMem f).dci = s.dci := rfl
@[simp] theorem State.updMem_faults (s : State) (f : HbmMem → HbmMem) : (s.updMem f).faults = s.faults := rfl
@[simp] theorem State.updMem_trust (s : State) (f : HbmMem → HbmMem) : (s.updMem f).trust = s.trust := rfl
@[simp] theorem State.updMem_free (s : State) (f : HbmMem → HbmMem) : (s.updMem f).free = s.free := rfl

@[simp] theorem State.updBasin_pending (s : State) (f : BasinSt → BasinSt) : (s.updBasin f).pending = s.pending := rfl
@[simp] theorem State.updBasin_out (s : State) (f : BasinSt → BasinSt) : (s.updBasin f).out = s.out := rfl
@[simp] theorem State.updBasin_time (s : State) (f : BasinSt → BasinSt) : (s.updBasin f).time = s.time := rfl
@[simp] theorem State.updBasin_net (s : State) (f : BasinSt → BasinSt) : (s.updBasin f).net = s.net := rfl
@[simp] theorem State.updBasin_order (s : State) (f : BasinSt → BasinSt) : (s.updBasin f).order = s.order := rfl
@[simp] theorem State.updBasin_cistern (s : State) (f : BasinSt → BasinSt) : (s.updBasin f).cistern = s.cistern := rfl
@[simp] theorem State.updBasin_egress (s : State) (f : BasinSt → BasinSt) : (s.updBasin f).egress = s.egress := rfl
@[simp] theorem State.updBasin_thrs (s : State) (f : BasinSt → BasinSt) : (s.updBasin f).thrs = s.thrs := rfl
@[simp] theorem State.updBasin_truns (s : State) (f : BasinSt → BasinSt) : (s.updBasin f).truns = s.truns := rfl
@[simp] theorem State.updBasin_scratch (s : State) (f : BasinSt → BasinSt) : (s.updBasin f).scratch = s.scratch := rfl
@[simp] theorem State.updBasin_cores (s : State) (f : BasinSt → BasinSt) : (s.updBasin f).cores = s.cores := rfl
@[simp] theorem State.updBasin_clusters (s : State) (f : BasinSt → BasinSt) : (s.updBasin f).clusters = s.clusters := rfl
@[simp] theorem State.updBasin_locks (s : State) (f : BasinSt → BasinSt) : (s.updBasin f).locks = s.locks := rfl
@[simp] theorem State.updBasin_keys (s : State) (f : BasinSt → BasinSt) : (s.updBasin f).keys = s.keys := rfl
@[simp] theorem State.updBasin_mem (s : State) (f : BasinSt → BasinSt) : (s.updBasin f).mem = s.mem := rfl
@[simp] theorem State.updBasin_hbm (s : State) (f : BasinSt → BasinSt) : (s.updBasin f).hbm = s.hbm := rfl
@[simp] theorem State.updBasin_power (s : State) (f : BasinSt → BasinSt) : (s.updBasin f).power = s.power := rfl
@[simp] theorem State.updBasin_tables (s : State) (f : BasinSt → BasinSt) : (s.updBasin f).tables = s.tables := rfl
@[simp] theorem State.updBasin_ledger (s : State) (f : BasinSt → BasinSt) : (s.updBasin f).ledger = s.ledger := rfl
@[simp] theorem State.updBasin_dci (s : State) (f : BasinSt → BasinSt) : (s.updBasin f).dci = s.dci := rfl
@[simp] theorem State.updBasin_faults (s : State) (f : BasinSt → BasinSt) : (s.updBasin f).faults = s.faults := rfl
@[simp] theorem State.updBasin_trust (s : State) (f : BasinSt → BasinSt) : (s.updBasin f).trust = s.trust := rfl
@[simp] theorem State.updBasin_free (s : State) (f : BasinSt → BasinSt) : (s.updBasin f).free = s.free := rfl

@[simp] theorem State.setEnt_pending (s : State) (k : Nat) (e : Ent) : (s.setEnt k e).pending = s.pending := rfl
@[simp] theorem State.setEnt_out (s : State) (k : Nat) (e : Ent) : (s.setEnt k e).out = s.out := rfl
@[simp] theorem State.setEnt_time (s : State) (k : Nat) (e : Ent) : (s.setEnt k e).time = s.time := rfl
@[simp] theorem State.setEnt_net (s : State) (k : Nat) (e : Ent) : (s.setEnt k e).net = s.net := rfl
@[simp] theorem State.setEnt_order (s : State) (k : Nat) (e : Ent) : (s.setEnt k e).order = s.order := rfl
@[simp] theorem State.setEnt_cistern (s : State) (k : Nat) (e : Ent) : (s.setEnt k e).cistern = s.cistern := rfl
@[simp] theorem State.setEnt_egress (s : State) (k : Nat) (e : Ent) : (s.setEnt k e).egress = s.egress := rfl
@[simp] theorem State.setEnt_thrs (s : State) (k : Nat) (e : Ent) : (s.setEnt k e).thrs = s.thrs := rfl
@[simp] theorem State.setEnt_truns (s : State) (k : Nat) (e : Ent) : (s.setEnt k e).truns = s.truns := rfl
@[simp] theorem State.setEnt_scratch (s : State) (k : Nat) (e : Ent) : (s.setEnt k e).scratch = s.scratch := rfl
@[simp] theorem State.setEnt_cores (s : State) (k : Nat) (e : Ent) : (s.setEnt k e).cores = s.cores := rfl
@[simp] theorem State.setEnt_clusters (s : State) (k : Nat) (e : Ent) : (s.setEnt k e).clusters = s.clusters := rfl
@[simp] theorem State.setEnt_locks (s : State) (k : Nat) (e : Ent) : (s.setEnt k e).locks = s.locks := rfl
@[simp] theorem State.setEnt_keys (s : State) (k : Nat) (e : Ent) : (s.setEnt k e).keys = s.keys := rfl
@[simp] theorem State.setEnt_mem (s : State) (k : Nat) (e : Ent) : (s.setEnt k e).mem = s.mem := rfl
@[simp] theorem State.setEnt_hbm (s : State) (k : Nat) (e : Ent) : (s.setEnt k e).hbm = s.hbm := rfl
@[simp] theorem State.setEnt_power (s : State) (k : Nat) (e : Ent) : (s.setEnt k e).power = s.power := rfl
@[simp] theorem State.setEnt_tables (s : State) (k : Nat) (e : Ent) : (s.setEnt k e).tables = s.tables := rfl
@[simp] theorem State.setEnt_ledger (s : State) (k : Nat) (e : Ent) : (s.setEnt k e).ledger = s.ledger := rfl
@[simp] theorem State.setEnt_dci (s : State) (k : Nat) (e : Ent) : (s.setEnt k e).dci = s.dci := rfl
@[simp] theorem State.setEnt_faults (s : State) (k : Nat) (e : Ent) : (s.setEnt k e).faults = s.faults := rfl
@[simp] theorem State.setEnt_trust (s : State) (k : Nat) (e : Ent) : (s.setEnt k e).trust = s.trust := rfl
@[simp] theorem State.setEnt_free (s : State) (k : Nat) (e : Ent) : (s.setEnt k e).free = s.free := rfl

@[simp] theorem State.updEnt_pending (s : State) (k : Nat) (f : Ent → Ent) : (s.updEnt k f).pending = s.pending := rfl
@[simp] theorem State.updEnt_out (s : State) (k : Nat) (f : Ent → Ent) : (s.updEnt k f).out = s.out := rfl
@[simp] theorem State.updEnt_time (s : State) (k : Nat) (f : Ent → Ent) : (s.updEnt k f).time = s.time := rfl
@[simp] theorem State.updEnt_net (s : State) (k : Nat) (f : Ent → Ent) : (s.updEnt k f).net = s.net := rfl
@[simp] theorem State.updEnt_order (s : State) (k : Nat) (f : Ent → Ent) : (s.updEnt k f).order = s.order := rfl
@[simp] theorem State.updEnt_cistern (s : State) (k : Nat) (f : Ent → Ent) : (s.updEnt k f).cistern = s.cistern := rfl
@[simp] theorem State.updEnt_egress (s : State) (k : Nat) (f : Ent → Ent) : (s.updEnt k f).egress = s.egress := rfl
@[simp] theorem State.updEnt_thrs (s : State) (k : Nat) (f : Ent → Ent) : (s.updEnt k f).thrs = s.thrs := rfl
@[simp] theorem State.updEnt_truns (s : State) (k : Nat) (f : Ent → Ent) : (s.updEnt k f).truns = s.truns := rfl
@[simp] theorem State.updEnt_scratch (s : State) (k : Nat) (f : Ent → Ent) : (s.updEnt k f).scratch = s.scratch := rfl
@[simp] theorem State.updEnt_cores (s : State) (k : Nat) (f : Ent → Ent) : (s.updEnt k f).cores = s.cores := rfl
@[simp] theorem State.updEnt_clusters (s : State) (k : Nat) (f : Ent → Ent) : (s.updEnt k f).clusters = s.clusters := rfl
@[simp] theorem State.updEnt_locks (s : State) (k : Nat) (f : Ent → Ent) : (s.updEnt k f).locks = s.locks := rfl
@[simp] theorem State.updEnt_keys (s : State) (k : Nat) (f : Ent → Ent) : (s.updEnt k f).keys = s.keys := rfl
@[simp] theorem State.updEnt_mem (s : State) (k : Nat) (f : Ent → Ent) : (s.updEnt k f).mem = s.mem := rfl
@[simp] theorem State.updEnt_hbm (s : State) (k : Nat) (f : Ent → Ent) : (s.updEnt k f).hbm = s.hbm := rfl
@[simp] theorem State.updEnt_power (s : State) (k : Nat) (f : Ent → Ent) : (s.updEnt k f).power = s.power := rfl
@[simp] theorem State.updEnt_tables (s : State) (k : Nat) (f : Ent → Ent) : (s.updEnt k f).tables = s.tables := rfl
@[simp] theorem State.updEnt_ledger (s : State) (k : Nat) (f : Ent → Ent) : (s.updEnt k f).ledger = s.ledger := rfl
@[simp] theorem State.updEnt_dci (s : State) (k : Nat) (f : Ent → Ent) : (s.updEnt k f).dci = s.dci := rfl
@[simp] theorem State.updEnt_faults (s : State) (k : Nat) (f : Ent → Ent) : (s.updEnt k f).faults = s.faults := rfl
@[simp] theorem State.updEnt_trust (s : State) (k : Nat) (f : Ent → Ent) : (s.updEnt k f).trust = s.trust := rfl
@[simp] theorem State.updEnt_free (s : State) (k : Nat) (f : Ent → Ent) : (s.updEnt k f).free = s.free := rfl

@[simp] theorem State.setBuf_pending (s : State) (head : Nat) (b : Buf) : (s.setBuf head b).pending = s.pending := rfl
@[simp] theorem State.setBuf_out (s : State) (head : Nat) (b : Buf) : (s.setBuf head b).out = s.out := rfl
@[simp] theorem State.setBuf_time (s : State) (head : Nat) (b : Buf) : (s.setBuf head b).time = s.time := rfl
@[simp] theorem State.setBuf_net (s : State) (head : Nat) (b : Buf) : (s.setBuf head b).net = s.net := rfl
@[simp] theorem State.setBuf_order (s : State) (head : Nat) (b : Buf) : (s.setBuf head b).order = s.order := rfl
@[simp] theorem State.setBuf_cistern (s : State) (head : Nat) (b : Buf) : (s.setBuf head b).cistern = s.cistern := rfl
@[simp] theorem State.setBuf_egress (s : State) (head : Nat) (b : Buf) : (s.setBuf head b).egress = s.egress := rfl
@[simp] theorem State.setBuf_thrs (s : State) (head : Nat) (b : Buf) : (s.setBuf head b).thrs = s.thrs := rfl
@[simp] theorem State.setBuf_truns (s : State) (head : Nat) (b : Buf) : (s.setBuf head b).truns = s.truns := rfl
@[simp] theorem State.setBuf_scratch (s : State) (head : Nat) (b : Buf) : (s.setBuf head b).scratch = s.scratch := rfl
@[simp] theorem State.setBuf_cores (s : State) (head : Nat) (b : Buf) : (s.setBuf head b).cores = s.cores := rfl
@[simp] theorem State.setBuf_clusters (s : State) (head : Nat) (b : Buf) : (s.setBuf head b).clusters = s.clusters := rfl
@[simp] theorem State.setBuf_locks (s : State) (head : Nat) (b : Buf) : (s.setBuf head b).locks = s.locks := rfl
@[simp] theorem State.setBuf_keys (s : State) (head : Nat) (b : Buf) : (s.setBuf head b).keys = s.keys := rfl
@[simp] theorem State.setBuf_mem (s : State) (head : Nat) (b : Buf) : (s.setBuf head b).mem = s.mem := rfl
@[simp] theorem State.setBuf_hbm (s : State) (head : Nat) (b : Buf) : (s.setBuf head b).hbm = s.hbm := rfl
@[simp] theorem State.setBuf_power (s : State) (head : Nat) (b : Buf) : (s.setBuf head b).power = s.power := rfl
@[simp] theorem State.setBuf_tables (s : State) (head : Nat) (b : Buf) : (s.setBuf head b).tables = s.tables := rfl
@[simp] theorem State.setBuf_ledger (s : State) (head : Nat) (b : Buf) : (s.setBuf head b).ledger = s.ledger := rfl
@[simp] theorem State.setBuf_dci (s : State) (head : Nat) (b : Buf) : (s.setBuf head b).dci = s.dci := rfl
@[simp] theorem State.setBuf_faults (s : State) (head : Nat) (b : Buf) : (s.setBuf head b).faults = s.faults := rfl
@[simp] theorem State.setBuf_trust (s : State) (head : Nat) (b : Buf) : (s.setBuf head b).trust = s.trust := rfl
@[simp] theorem State.setBuf_free (s : State) (head : Nat) (b : Buf) : (s.setBuf head b).free = s.free := rfl

@[simp] theorem State.updBuf_pending (s : State) (head : Nat) (f : Buf → Buf) : (s.updBuf head f).pending = s.pending := by unfold State.updBuf; split <;> rfl
@[simp] theorem State.updBuf_out (s : State) (head : Nat) (f : Buf → Buf) : (s.updBuf head f).out = s.out := by unfold State.updBuf; split <;> rfl
@[simp] theorem State.updBuf_time (s : State) (head : Nat) (f : Buf → Buf) : (s.updBuf head f).time = s.time := by unfold State.updBuf; split <;> rfl
@[simp] theorem State.updBuf_net (s : State) (head : Nat) (f : Buf → Buf) : (s.updBuf head f).net = s.net := by unfold State.updBuf; split <;> rfl
@[simp] theorem State.updBuf_order (s : State) (head : Nat) (f : Buf → Buf) : (s.updBuf head f).order = s.order := by unfold State.updBuf; split <;> rfl
@[simp] theorem State.updBuf_cistern (s : State) (head : Nat) (f : Buf → Buf) : (s.updBuf head f).cistern = s.cistern := by unfold State.updBuf; split <;> rfl
@[simp] theorem State.updBuf_egress (s : State) (head : Nat) (f : Buf → Buf) : (s.updBuf head f).egress = s.egress := by unfold State.updBuf; split <;> rfl
@[simp] theorem State.updBuf_thrs (s : State) (head : Nat) (f : Buf → Buf) : (s.updBuf head f).thrs = s.thrs := by unfold State.updBuf; split <;> rfl
@[simp] theorem State.updBuf_truns (s : State) (head : Nat) (f : Buf → Buf) : (s.updBuf head f).truns = s.truns := by unfold State.updBuf; split <;> rfl
@[simp] theorem State.updBuf_scratch (s : State) (head : Nat) (f : Buf → Buf) : (s.updBuf head f).scratch = s.scratch := by unfold State.updBuf; split <;> rfl
@[simp] theorem State.updBuf_cores (s : State) (head : Nat) (f : Buf → Buf) : (s.updBuf head f).cores = s.cores := by unfold State.updBuf; split <;> rfl
@[simp] theorem State.updBuf_clusters (s : State) (head : Nat) (f : Buf → Buf) : (s.updBuf head f).clusters = s.clusters := by unfold State.updBuf; split <;> rfl
@[simp] theorem State.updBuf_locks (s : State) (head : Nat) (f : Buf → Buf) : (s.updBuf head f).locks = s.locks := by unfold State.updBuf; split <;> rfl
@[simp] theorem State.updBuf_keys (s : State) (head : Nat) (f : Buf → Buf) : (s.updBuf head f).keys = s.keys := by unfold State.updBuf; split <;> rfl
@[simp] theorem State.updBuf_mem (s : State) (head : Nat) (f : Buf → Buf) : (s.updBuf head f).mem = s.mem := by unfold State.updBuf; split <;> rfl
@[simp] theorem State.updBuf_hbm (s : State) (head : Nat) (f : Buf → Buf) : (s.updBuf head f).hbm = s.hbm := by unfold State.updBuf; split <;> rfl
@[simp] theorem State.updBuf_power (s : State) (head : Nat) (f : Buf → Buf) : (s.updBuf head f).power = s.power := by unfold State.updBuf; split <;> rfl
@[simp] theorem State.updBuf_tables (s : State) (head : Nat) (f : Buf → Buf) : (s.updBuf head f).tables = s.tables := by unfold State.updBuf; split <;> rfl
@[simp] theorem State.updBuf_ledger (s : State) (head : Nat) (f : Buf → Buf) : (s.updBuf head f).ledger = s.ledger := by unfold State.updBuf; split <;> rfl
@[simp] theorem State.updBuf_dci (s : State) (head : Nat) (f : Buf → Buf) : (s.updBuf head f).dci = s.dci := by unfold State.updBuf; split <;> rfl
@[simp] theorem State.updBuf_faults (s : State) (head : Nat) (f : Buf → Buf) : (s.updBuf head f).faults = s.faults := by unfold State.updBuf; split <;> rfl
@[simp] theorem State.updBuf_trust (s : State) (head : Nat) (f : Buf → Buf) : (s.updBuf head f).trust = s.trust := by unfold State.updBuf; split <;> rfl
@[simp] theorem State.updBuf_free (s : State) (head : Nat) (f : Buf → Buf) : (s.updBuf head f).free = s.free := by unfold State.updBuf; split <;> rfl

@[simp] theorem State.setReqs_pending (s : State) (b : Nat) (l : List CellReq) : (s.setReqs b l).pending = s.pending := rfl
@[simp] theorem State.setReqs_out (s : State) (b : Nat) (l : List CellReq) : (s.setReqs b l).out = s.out := rfl
@[simp] theorem State.setReqs_time (s : State) (b : Nat) (l : List CellReq) : (s.setReqs b l).time = s.time := rfl
@[simp] theorem State.setReqs_net (s : State) (b : Nat) (l : List CellReq) : (s.setReqs b l).net = s.net := rfl
@[simp] theorem State.setReqs_order (s : State) (b : Nat) (l : List CellReq) : (s.setReqs b l).order = s.order := rfl
@[simp] theorem State.setReqs_cistern (s : State) (b : Nat) (l : List CellReq) : (s.setReqs b l).cistern = s.cistern := rfl
@[simp] theorem State.setReqs_egress (s : State) (b : Nat) (l : List CellReq) : (s.setReqs b l).egress = s.egress := rfl
@[simp] theorem State.setReqs_thrs (s : State) (b : Nat) (l : List CellReq) : (s.setReqs b l).thrs = s.thrs := rfl
@[simp] theorem State.setReqs_truns (s : State) (b : Nat) (l : List CellReq) : (s.setReqs b l).truns = s.truns := rfl
@[simp] theorem State.setReqs_scratch (s : State) (b : Nat) (l : List CellReq) : (s.setReqs b l).scratch = s.scratch := rfl
@[simp] theorem State.setReqs_cores (s : State) (b : Nat) (l : List CellReq) : (s.setReqs b l).cores = s.cores := rfl
@[simp] theorem State.setReqs_clusters (s : State) (b : Nat) (l : List CellReq) : (s.setReqs b l).clusters = s.clusters := rfl
@[simp] theorem State.setReqs_locks (s : State) (b : Nat) (l : List CellReq) : (s.setReqs b l).locks = s.locks := rfl
@[simp] theorem State.setReqs_keys (s : State) (b : Nat) (l : List CellReq) : (s.setReqs b l).keys = s.keys := rfl
@[simp] theorem State.setReqs_mem (s : State) (b : Nat) (l : List CellReq) : (s.setReqs b l).mem = s.mem := rfl
@[simp] theorem State.setReqs_hbm (s : State) (b : Nat) (l : List CellReq) : (s.setReqs b l).hbm = s.hbm := rfl
@[simp] theorem State.setReqs_power (s : State) (b : Nat) (l : List CellReq) : (s.setReqs b l).power = s.power := rfl
@[simp] theorem State.setReqs_tables (s : State) (b : Nat) (l : List CellReq) : (s.setReqs b l).tables = s.tables := rfl
@[simp] theorem State.setReqs_ledger (s : State) (b : Nat) (l : List CellReq) : (s.setReqs b l).ledger = s.ledger := rfl
@[simp] theorem State.setReqs_dci (s : State) (b : Nat) (l : List CellReq) : (s.setReqs b l).dci = s.dci := rfl
@[simp] theorem State.setReqs_faults (s : State) (b : Nat) (l : List CellReq) : (s.setReqs b l).faults = s.faults := rfl
@[simp] theorem State.setReqs_trust (s : State) (b : Nat) (l : List CellReq) : (s.setReqs b l).trust = s.trust := rfl
@[simp] theorem State.setReqs_free (s : State) (b : Nat) (l : List CellReq) : (s.setReqs b l).free = s.free := rfl

@[simp] theorem State.updCistern_pending (s : State) (f : CisternSt → CisternSt) : (s.updCistern f).pending = s.pending := rfl
@[simp] theorem State.updCistern_out (s : State) (f : CisternSt → CisternSt) : (s.updCistern f).out = s.out := rfl
@[simp] theorem State.updCistern_time (s : State) (f : CisternSt → CisternSt) : (s.updCistern f).time = s.time := rfl
@[simp] theorem State.updCistern_net (s : State) (f : CisternSt → CisternSt) : (s.updCistern f).net = s.net := rfl
@[simp] theorem State.updCistern_order (s : State) (f : CisternSt → CisternSt) : (s.updCistern f).order = s.order := rfl
@[simp] theorem State.updCistern_basin (s : State) (f : CisternSt → CisternSt) : (s.updCistern f).basin = s.basin := rfl
@[simp] theorem State.updCistern_egress (s : State) (f : CisternSt → CisternSt) : (s.updCistern f).egress = s.egress := rfl
@[simp] theorem State.updCistern_thrs (s : State) (f : CisternSt → CisternSt) : (s.updCistern f).thrs = s.thrs := rfl
@[simp] theorem State.updCistern_truns (s : State) (f : CisternSt → CisternSt) : (s.updCistern f).truns = s.truns := rfl
@[simp] theorem State.updCistern_scratch (s : State) (f : CisternSt → CisternSt) : (s.updCistern f).scratch = s.scratch := rfl
@[simp] theorem State.updCistern_cores (s : State) (f : CisternSt → CisternSt) : (s.updCistern f).cores = s.cores := rfl
@[simp] theorem State.updCistern_clusters (s : State) (f : CisternSt → CisternSt) : (s.updCistern f).clusters = s.clusters := rfl
@[simp] theorem State.updCistern_locks (s : State) (f : CisternSt → CisternSt) : (s.updCistern f).locks = s.locks := rfl
@[simp] theorem State.updCistern_keys (s : State) (f : CisternSt → CisternSt) : (s.updCistern f).keys = s.keys := rfl
@[simp] theorem State.updCistern_mem (s : State) (f : CisternSt → CisternSt) : (s.updCistern f).mem = s.mem := rfl
@[simp] theorem State.updCistern_hbm (s : State) (f : CisternSt → CisternSt) : (s.updCistern f).hbm = s.hbm := rfl
@[simp] theorem State.updCistern_power (s : State) (f : CisternSt → CisternSt) : (s.updCistern f).power = s.power := rfl
@[simp] theorem State.updCistern_tables (s : State) (f : CisternSt → CisternSt) : (s.updCistern f).tables = s.tables := rfl
@[simp] theorem State.updCistern_ledger (s : State) (f : CisternSt → CisternSt) : (s.updCistern f).ledger = s.ledger := rfl
@[simp] theorem State.updCistern_dci (s : State) (f : CisternSt → CisternSt) : (s.updCistern f).dci = s.dci := rfl
@[simp] theorem State.updCistern_faults (s : State) (f : CisternSt → CisternSt) : (s.updCistern f).faults = s.faults := rfl
@[simp] theorem State.updCistern_trust (s : State) (f : CisternSt → CisternSt) : (s.updCistern f).trust = s.trust := rfl
@[simp] theorem State.updCistern_free (s : State) (f : CisternSt → CisternSt) : (s.updCistern f).free = s.free := rfl

@[simp] theorem State.updTrust_pending (s : State) (f : TrustSt → TrustSt) : (s.updTrust f).pending = s.pending := rfl
@[simp] theorem State.updTrust_out (s : State) (f : TrustSt → TrustSt) : (s.updTrust f).out = s.out := rfl
@[simp] theorem State.updTrust_time (s : State) (f : TrustSt → TrustSt) : (s.updTrust f).time = s.time := rfl
@[simp] theorem State.updTrust_net (s : State) (f : TrustSt → TrustSt) : (s.updTrust f).net = s.net := rfl
@[simp] theorem State.updTrust_order (s : State) (f : TrustSt → TrustSt) : (s.updTrust f).order = s.order := rfl
@[simp] theorem State.updTrust_basin (s : State) (f : TrustSt → TrustSt) : (s.updTrust f).basin = s.basin := rfl
@[simp] theorem State.updTrust_cistern (s : State) (f : TrustSt → TrustSt) : (s.updTrust f).cistern = s.cistern := rfl
@[simp] theorem State.updTrust_egress (s : State) (f : TrustSt → TrustSt) : (s.updTrust f).egress = s.egress := rfl
@[simp] theorem State.updTrust_thrs (s : State) (f : TrustSt → TrustSt) : (s.updTrust f).thrs = s.thrs := rfl
@[simp] theorem State.updTrust_truns (s : State) (f : TrustSt → TrustSt) : (s.updTrust f).truns = s.truns := rfl
@[simp] theorem State.updTrust_scratch (s : State) (f : TrustSt → TrustSt) : (s.updTrust f).scratch = s.scratch := rfl
@[simp] theorem State.updTrust_cores (s : State) (f : TrustSt → TrustSt) : (s.updTrust f).cores = s.cores := rfl
@[simp] theorem State.updTrust_clusters (s : State) (f : TrustSt → TrustSt) : (s.updTrust f).clusters = s.clusters := rfl
@[simp] theorem State.updTrust_locks (s : State) (f : TrustSt → TrustSt) : (s.updTrust f).locks = s.locks := rfl
@[simp] theorem State.updTrust_keys (s : State) (f : TrustSt → TrustSt) : (s.updTrust f).keys = s.keys := rfl
@[simp] theorem State.updTrust_mem (s : State) (f : TrustSt → TrustSt) : (s.updTrust f).mem = s.mem := rfl
@[simp] theorem State.updTrust_hbm (s : State) (f : TrustSt → TrustSt) : (s.updTrust f).hbm = s.hbm := rfl
@[simp] theorem State.updTrust_power (s : State) (f : TrustSt → TrustSt) : (s.updTrust f).power = s.power := rfl
@[simp] theorem State.updTrust_tables (s : State) (f : TrustSt → TrustSt) : (s.updTrust f).tables = s.tables := rfl
@[simp] theorem State.updTrust_ledger (s : State) (f : TrustSt → TrustSt) : (s.updTrust f).ledger = s.ledger := rfl
@[simp] theorem State.updTrust_dci (s : State) (f : TrustSt → TrustSt) : (s.updTrust f).dci = s.dci := rfl
@[simp] theorem State.updTrust_faults (s : State) (f : TrustSt → TrustSt) : (s.updTrust f).faults = s.faults := rfl
@[simp] theorem State.updTrust_free (s : State) (f : TrustSt → TrustSt) : (s.updTrust f).free = s.free := rfl

@[simp] theorem State.updJtag_pending (s : State) (f : JtagSt → JtagSt) : (s.updJtag f).pending = s.pending := rfl
@[simp] theorem State.updJtag_out (s : State) (f : JtagSt → JtagSt) : (s.updJtag f).out = s.out := rfl
@[simp] theorem State.updJtag_time (s : State) (f : JtagSt → JtagSt) : (s.updJtag f).time = s.time := rfl
@[simp] theorem State.updJtag_net (s : State) (f : JtagSt → JtagSt) : (s.updJtag f).net = s.net := rfl
@[simp] theorem State.updJtag_order (s : State) (f : JtagSt → JtagSt) : (s.updJtag f).order = s.order := rfl
@[simp] theorem State.updJtag_basin (s : State) (f : JtagSt → JtagSt) : (s.updJtag f).basin = s.basin := rfl
@[simp] theorem State.updJtag_cistern (s : State) (f : JtagSt → JtagSt) : (s.updJtag f).cistern = s.cistern := rfl
@[simp] theorem State.updJtag_egress (s : State) (f : JtagSt → JtagSt) : (s.updJtag f).egress = s.egress := rfl
@[simp] theorem State.updJtag_thrs (s : State) (f : JtagSt → JtagSt) : (s.updJtag f).thrs = s.thrs := rfl
@[simp] theorem State.updJtag_truns (s : State) (f : JtagSt → JtagSt) : (s.updJtag f).truns = s.truns := rfl
@[simp] theorem State.updJtag_scratch (s : State) (f : JtagSt → JtagSt) : (s.updJtag f).scratch = s.scratch := rfl
@[simp] theorem State.updJtag_cores (s : State) (f : JtagSt → JtagSt) : (s.updJtag f).cores = s.cores := rfl
@[simp] theorem State.updJtag_clusters (s : State) (f : JtagSt → JtagSt) : (s.updJtag f).clusters = s.clusters := rfl
@[simp] theorem State.updJtag_locks (s : State) (f : JtagSt → JtagSt) : (s.updJtag f).locks = s.locks := rfl
@[simp] theorem State.updJtag_keys (s : State) (f : JtagSt → JtagSt) : (s.updJtag f).keys = s.keys := rfl
@[simp] theorem State.updJtag_mem (s : State) (f : JtagSt → JtagSt) : (s.updJtag f).mem = s.mem := rfl
@[simp] theorem State.updJtag_hbm (s : State) (f : JtagSt → JtagSt) : (s.updJtag f).hbm = s.hbm := rfl
@[simp] theorem State.updJtag_power (s : State) (f : JtagSt → JtagSt) : (s.updJtag f).power = s.power := rfl
@[simp] theorem State.updJtag_tables (s : State) (f : JtagSt → JtagSt) : (s.updJtag f).tables = s.tables := rfl
@[simp] theorem State.updJtag_ledger (s : State) (f : JtagSt → JtagSt) : (s.updJtag f).ledger = s.ledger := rfl
@[simp] theorem State.updJtag_dci (s : State) (f : JtagSt → JtagSt) : (s.updJtag f).dci = s.dci := rfl
@[simp] theorem State.updJtag_faults (s : State) (f : JtagSt → JtagSt) : (s.updJtag f).faults = s.faults := rfl
@[simp] theorem State.updJtag_free (s : State) (f : JtagSt → JtagSt) : (s.updJtag f).free = s.free := rfl

@[simp] theorem State.setSlot_pending (s : State) (n : Nat) (x : Sys2Proof.FlashSlot) : (s.setSlot n x).pending = s.pending := by unfold State.setSlot; split <;> rfl
@[simp] theorem State.setSlot_out (s : State) (n : Nat) (x : Sys2Proof.FlashSlot) : (s.setSlot n x).out = s.out := by unfold State.setSlot; split <;> rfl
@[simp] theorem State.setSlot_time (s : State) (n : Nat) (x : Sys2Proof.FlashSlot) : (s.setSlot n x).time = s.time := by unfold State.setSlot; split <;> rfl
@[simp] theorem State.setSlot_net (s : State) (n : Nat) (x : Sys2Proof.FlashSlot) : (s.setSlot n x).net = s.net := by unfold State.setSlot; split <;> rfl
@[simp] theorem State.setSlot_order (s : State) (n : Nat) (x : Sys2Proof.FlashSlot) : (s.setSlot n x).order = s.order := by unfold State.setSlot; split <;> rfl
@[simp] theorem State.setSlot_basin (s : State) (n : Nat) (x : Sys2Proof.FlashSlot) : (s.setSlot n x).basin = s.basin := by unfold State.setSlot; split <;> rfl
@[simp] theorem State.setSlot_cistern (s : State) (n : Nat) (x : Sys2Proof.FlashSlot) : (s.setSlot n x).cistern = s.cistern := by unfold State.setSlot; split <;> rfl
@[simp] theorem State.setSlot_egress (s : State) (n : Nat) (x : Sys2Proof.FlashSlot) : (s.setSlot n x).egress = s.egress := by unfold State.setSlot; split <;> rfl
@[simp] theorem State.setSlot_thrs (s : State) (n : Nat) (x : Sys2Proof.FlashSlot) : (s.setSlot n x).thrs = s.thrs := by unfold State.setSlot; split <;> rfl
@[simp] theorem State.setSlot_truns (s : State) (n : Nat) (x : Sys2Proof.FlashSlot) : (s.setSlot n x).truns = s.truns := by unfold State.setSlot; split <;> rfl
@[simp] theorem State.setSlot_scratch (s : State) (n : Nat) (x : Sys2Proof.FlashSlot) : (s.setSlot n x).scratch = s.scratch := by unfold State.setSlot; split <;> rfl
@[simp] theorem State.setSlot_cores (s : State) (n : Nat) (x : Sys2Proof.FlashSlot) : (s.setSlot n x).cores = s.cores := by unfold State.setSlot; split <;> rfl
@[simp] theorem State.setSlot_clusters (s : State) (n : Nat) (x : Sys2Proof.FlashSlot) : (s.setSlot n x).clusters = s.clusters := by unfold State.setSlot; split <;> rfl
@[simp] theorem State.setSlot_locks (s : State) (n : Nat) (x : Sys2Proof.FlashSlot) : (s.setSlot n x).locks = s.locks := by unfold State.setSlot; split <;> rfl
@[simp] theorem State.setSlot_keys (s : State) (n : Nat) (x : Sys2Proof.FlashSlot) : (s.setSlot n x).keys = s.keys := by unfold State.setSlot; split <;> rfl
@[simp] theorem State.setSlot_mem (s : State) (n : Nat) (x : Sys2Proof.FlashSlot) : (s.setSlot n x).mem = s.mem := by unfold State.setSlot; split <;> rfl
@[simp] theorem State.setSlot_hbm (s : State) (n : Nat) (x : Sys2Proof.FlashSlot) : (s.setSlot n x).hbm = s.hbm := by unfold State.setSlot; split <;> rfl
@[simp] theorem State.setSlot_power (s : State) (n : Nat) (x : Sys2Proof.FlashSlot) : (s.setSlot n x).power = s.power := by unfold State.setSlot; split <;> rfl
@[simp] theorem State.setSlot_tables (s : State) (n : Nat) (x : Sys2Proof.FlashSlot) : (s.setSlot n x).tables = s.tables := by unfold State.setSlot; split <;> rfl
@[simp] theorem State.setSlot_ledger (s : State) (n : Nat) (x : Sys2Proof.FlashSlot) : (s.setSlot n x).ledger = s.ledger := by unfold State.setSlot; split <;> rfl
@[simp] theorem State.setSlot_dci (s : State) (n : Nat) (x : Sys2Proof.FlashSlot) : (s.setSlot n x).dci = s.dci := by unfold State.setSlot; split <;> rfl
@[simp] theorem State.setSlot_faults (s : State) (n : Nat) (x : Sys2Proof.FlashSlot) : (s.setSlot n x).faults = s.faults := by unfold State.setSlot; split <;> rfl
@[simp] theorem State.setSlot_free (s : State) (n : Nat) (x : Sys2Proof.FlashSlot) : (s.setSlot n x).free = s.free := by unfold State.setSlot; split <;> rfl

@[simp] theorem State.updFaults_pending (s : State) (f : FaultSt → FaultSt) : (s.updFaults f).pending = s.pending := rfl
@[simp] theorem State.updFaults_out (s : State) (f : FaultSt → FaultSt) : (s.updFaults f).out = s.out := rfl
@[simp] theorem State.updFaults_time (s : State) (f : FaultSt → FaultSt) : (s.updFaults f).time = s.time := rfl
@[simp] theorem State.updFaults_net (s : State) (f : FaultSt → FaultSt) : (s.updFaults f).net = s.net := rfl
@[simp] theorem State.updFaults_order (s : State) (f : FaultSt → FaultSt) : (s.updFaults f).order = s.order := rfl
@[simp] theorem State.updFaults_basin (s : State) (f : FaultSt → FaultSt) : (s.updFaults f).basin = s.basin := rfl
@[simp] theorem State.updFaults_cistern (s : State) (f : FaultSt → FaultSt) : (s.updFaults f).cistern = s.cistern := rfl
@[simp] theorem State.updFaults_egress (s : State) (f : FaultSt → FaultSt) : (s.updFaults f).egress = s.egress := rfl
@[simp] theorem State.updFaults_thrs (s : State) (f : FaultSt → FaultSt) : (s.updFaults f).thrs = s.thrs := rfl
@[simp] theorem State.updFaults_truns (s : State) (f : FaultSt → FaultSt) : (s.updFaults f).truns = s.truns := rfl
@[simp] theorem State.updFaults_scratch (s : State) (f : FaultSt → FaultSt) : (s.updFaults f).scratch = s.scratch := rfl
@[simp] theorem State.updFaults_cores (s : State) (f : FaultSt → FaultSt) : (s.updFaults f).cores = s.cores := rfl
@[simp] theorem State.updFaults_clusters (s : State) (f : FaultSt → FaultSt) : (s.updFaults f).clusters = s.clusters := rfl
@[simp] theorem State.updFaults_locks (s : State) (f : FaultSt → FaultSt) : (s.updFaults f).locks = s.locks := rfl
@[simp] theorem State.updFaults_keys (s : State) (f : FaultSt → FaultSt) : (s.updFaults f).keys = s.keys := rfl
@[simp] theorem State.updFaults_mem (s : State) (f : FaultSt → FaultSt) : (s.updFaults f).mem = s.mem := rfl
@[simp] theorem State.updFaults_hbm (s : State) (f : FaultSt → FaultSt) : (s.updFaults f).hbm = s.hbm := rfl
@[simp] theorem State.updFaults_power (s : State) (f : FaultSt → FaultSt) : (s.updFaults f).power = s.power := rfl
@[simp] theorem State.updFaults_tables (s : State) (f : FaultSt → FaultSt) : (s.updFaults f).tables = s.tables := rfl
@[simp] theorem State.updFaults_ledger (s : State) (f : FaultSt → FaultSt) : (s.updFaults f).ledger = s.ledger := rfl
@[simp] theorem State.updFaults_dci (s : State) (f : FaultSt → FaultSt) : (s.updFaults f).dci = s.dci := rfl
@[simp] theorem State.updFaults_trust (s : State) (f : FaultSt → FaultSt) : (s.updFaults f).trust = s.trust := rfl
@[simp] theorem State.updFaults_free (s : State) (f : FaultSt → FaultSt) : (s.updFaults f).free = s.free := rfl

@[simp] theorem State.updHbm_pending (s : State) (f : HbmSt → HbmSt) : (s.updHbm f).pending = s.pending := rfl
@[simp] theorem State.updHbm_out (s : State) (f : HbmSt → HbmSt) : (s.updHbm f).out = s.out := rfl
@[simp] theorem State.updHbm_time (s : State) (f : HbmSt → HbmSt) : (s.updHbm f).time = s.time := rfl
@[simp] theorem State.updHbm_net (s : State) (f : HbmSt → HbmSt) : (s.updHbm f).net = s.net := rfl
@[simp] theorem State.updHbm_order (s : State) (f : HbmSt → HbmSt) : (s.updHbm f).order = s.order := rfl
@[simp] theorem State.updHbm_basin (s : State) (f : HbmSt → HbmSt) : (s.updHbm f).basin = s.basin := rfl
@[simp] theorem State.updHbm_cistern (s : State) (f : HbmSt → HbmSt) : (s.updHbm f).cistern = s.cistern := rfl
@[simp] theorem State.updHbm_egress (s : State) (f : HbmSt → HbmSt) : (s.updHbm f).egress = s.egress := rfl
@[simp] theorem State.updHbm_thrs (s : State) (f : HbmSt → HbmSt) : (s.updHbm f).thrs = s.thrs := rfl
@[simp] theorem State.updHbm_truns (s : State) (f : HbmSt → HbmSt) : (s.updHbm f).truns = s.truns := rfl
@[simp] theorem State.updHbm_scratch (s : State) (f : HbmSt → HbmSt) : (s.updHbm f).scratch = s.scratch := rfl
@[simp] theorem State.updHbm_cores (s : State) (f : HbmSt → HbmSt) : (s.updHbm f).cores = s.cores := rfl
@[simp] theorem State.updHbm_clusters (s : State) (f : HbmSt → HbmSt) : (s.updHbm f).clusters = s.clusters := rfl
@[simp] theorem State.updHbm_locks (s : State) (f : HbmSt → HbmSt) : (s.updHbm f).locks = s.locks := rfl
@[simp] theorem State.updHbm_keys (s : State) (f : HbmSt → HbmSt) : (s.updHbm f).keys = s.keys := rfl
@[simp] theorem State.updHbm_mem (s : State) (f : HbmSt → HbmSt) : (s.updHbm f).mem = s.mem := rfl
@[simp] theorem State.updHbm_power (s : State) (f : HbmSt → HbmSt) : (s.updHbm f).power = s.power := rfl
@[simp] theorem State.updHbm_tables (s : State) (f : HbmSt → HbmSt) : (s.updHbm f).tables = s.tables := rfl
@[simp] theorem State.updHbm_ledger (s : State) (f : HbmSt → HbmSt) : (s.updHbm f).ledger = s.ledger := rfl
@[simp] theorem State.updHbm_dci (s : State) (f : HbmSt → HbmSt) : (s.updHbm f).dci = s.dci := rfl
@[simp] theorem State.updHbm_faults (s : State) (f : HbmSt → HbmSt) : (s.updHbm f).faults = s.faults := rfl
@[simp] theorem State.updHbm_trust (s : State) (f : HbmSt → HbmSt) : (s.updHbm f).trust = s.trust := rfl
@[simp] theorem State.updHbm_free (s : State) (f : HbmSt → HbmSt) : (s.updHbm f).free = s.free := rfl

@[simp] theorem State.updPc_pending (s : State) (p : Nat) (f : PcSt → PcSt) : (s.updPc p f).pending = s.pending := rfl
@[simp] theorem State.updPc_out (s : State) (p : Nat) (f : PcSt → PcSt) : (s.updPc p f).out = s.out := rfl
@[simp] theorem State.updPc_time (s : State) (p : Nat) (f : PcSt → PcSt) : (s.updPc p f).time = s.time := rfl
@[simp] theorem State.updPc_net (s : State) (p : Nat) (f : PcSt → PcSt) : (s.updPc p f).net = s.net := rfl
@[simp] theorem State.updPc_order (s : State) (p : Nat) (f : PcSt → PcSt) : (s.updPc p f).order = s.order := rfl
@[simp] theorem State.updPc_basin (s : State) (p : Nat) (f : PcSt → PcSt) : (s.updPc p f).basin = s.basin := rfl
@[simp] theorem State.updPc_cistern (s : State) (p : Nat) (f : PcSt → PcSt) : (s.updPc p f).cistern = s.cistern := rfl
@[simp] theorem State.updPc_egress (s : State) (p : Nat) (f : PcSt → PcSt) : (s.updPc p f).egress = s.egress := rfl
@[simp] theorem State.updPc_thrs (s : State) (p : Nat) (f : PcSt → PcSt) : (s.updPc p f).thrs = s.thrs := rfl
@[simp] theorem State.updPc_truns (s : State) (p : Nat) (f : PcSt → PcSt) : (s.updPc p f).truns = s.truns := rfl
@[simp] theorem State.updPc_scratch (s : State) (p : Nat) (f : PcSt → PcSt) : (s.updPc p f).scratch = s.scratch := rfl
@[simp] theorem State.updPc_cores (s : State) (p : Nat) (f : PcSt → PcSt) : (s.updPc p f).cores = s.cores := rfl
@[simp] theorem State.updPc_clusters (s : State) (p : Nat) (f : PcSt → PcSt) : (s.updPc p f).clusters = s.clusters := rfl
@[simp] theorem State.updPc_locks (s : State) (p : Nat) (f : PcSt → PcSt) : (s.updPc p f).locks = s.locks := rfl
@[simp] theorem State.updPc_keys (s : State) (p : Nat) (f : PcSt → PcSt) : (s.updPc p f).keys = s.keys := rfl
@[simp] theorem State.updPc_mem (s : State) (p : Nat) (f : PcSt → PcSt) : (s.updPc p f).mem = s.mem := rfl
@[simp] theorem State.updPc_power (s : State) (p : Nat) (f : PcSt → PcSt) : (s.updPc p f).power = s.power := rfl
@[simp] theorem State.updPc_tables (s : State) (p : Nat) (f : PcSt → PcSt) : (s.updPc p f).tables = s.tables := rfl
@[simp] theorem State.updPc_ledger (s : State) (p : Nat) (f : PcSt → PcSt) : (s.updPc p f).ledger = s.ledger := rfl
@[simp] theorem State.updPc_dci (s : State) (p : Nat) (f : PcSt → PcSt) : (s.updPc p f).dci = s.dci := rfl
@[simp] theorem State.updPc_faults (s : State) (p : Nat) (f : PcSt → PcSt) : (s.updPc p f).faults = s.faults := rfl
@[simp] theorem State.updPc_trust (s : State) (p : Nat) (f : PcSt → PcSt) : (s.updPc p f).trust = s.trust := rfl
@[simp] theorem State.updPc_free (s : State) (p : Nat) (f : PcSt → PcSt) : (s.updPc p f).free = s.free := rfl

@[simp] theorem State.updStack_pending (s : State) (k : Nat) (f : StackSt → StackSt) : (s.updStack k f).pending = s.pending := by unfold State.updStack; split <;> rfl
@[simp] theorem State.updStack_out (s : State) (k : Nat) (f : StackSt → StackSt) : (s.updStack k f).out = s.out := by unfold State.updStack; split <;> rfl
@[simp] theorem State.updStack_time (s : State) (k : Nat) (f : StackSt → StackSt) : (s.updStack k f).time = s.time := by unfold State.updStack; split <;> rfl
@[simp] theorem State.updStack_net (s : State) (k : Nat) (f : StackSt → StackSt) : (s.updStack k f).net = s.net := by unfold State.updStack; split <;> rfl
@[simp] theorem State.updStack_order (s : State) (k : Nat) (f : StackSt → StackSt) : (s.updStack k f).order = s.order := by unfold State.updStack; split <;> rfl
@[simp] theorem State.updStack_basin (s : State) (k : Nat) (f : StackSt → StackSt) : (s.updStack k f).basin = s.basin := by unfold State.updStack; split <;> rfl
@[simp] theorem State.updStack_cistern (s : State) (k : Nat) (f : StackSt → StackSt) : (s.updStack k f).cistern = s.cistern := by unfold State.updStack; split <;> rfl
@[simp] theorem State.updStack_egress (s : State) (k : Nat) (f : StackSt → StackSt) : (s.updStack k f).egress = s.egress := by unfold State.updStack; split <;> rfl
@[simp] theorem State.updStack_thrs (s : State) (k : Nat) (f : StackSt → StackSt) : (s.updStack k f).thrs = s.thrs := by unfold State.updStack; split <;> rfl
@[simp] theorem State.updStack_truns (s : State) (k : Nat) (f : StackSt → StackSt) : (s.updStack k f).truns = s.truns := by unfold State.updStack; split <;> rfl
@[simp] theorem State.updStack_scratch (s : State) (k : Nat) (f : StackSt → StackSt) : (s.updStack k f).scratch = s.scratch := by unfold State.updStack; split <;> rfl
@[simp] theorem State.updStack_cores (s : State) (k : Nat) (f : StackSt → StackSt) : (s.updStack k f).cores = s.cores := by unfold State.updStack; split <;> rfl
@[simp] theorem State.updStack_clusters (s : State) (k : Nat) (f : StackSt → StackSt) : (s.updStack k f).clusters = s.clusters := by unfold State.updStack; split <;> rfl
@[simp] theorem State.updStack_locks (s : State) (k : Nat) (f : StackSt → StackSt) : (s.updStack k f).locks = s.locks := by unfold State.updStack; split <;> rfl
@[simp] theorem State.updStack_keys (s : State) (k : Nat) (f : StackSt → StackSt) : (s.updStack k f).keys = s.keys := by unfold State.updStack; split <;> rfl
@[simp] theorem State.updStack_mem (s : State) (k : Nat) (f : StackSt → StackSt) : (s.updStack k f).mem = s.mem := by unfold State.updStack; split <;> rfl
@[simp] theorem State.updStack_power (s : State) (k : Nat) (f : StackSt → StackSt) : (s.updStack k f).power = s.power := by unfold State.updStack; split <;> rfl
@[simp] theorem State.updStack_tables (s : State) (k : Nat) (f : StackSt → StackSt) : (s.updStack k f).tables = s.tables := by unfold State.updStack; split <;> rfl
@[simp] theorem State.updStack_ledger (s : State) (k : Nat) (f : StackSt → StackSt) : (s.updStack k f).ledger = s.ledger := by unfold State.updStack; split <;> rfl
@[simp] theorem State.updStack_dci (s : State) (k : Nat) (f : StackSt → StackSt) : (s.updStack k f).dci = s.dci := by unfold State.updStack; split <;> rfl
@[simp] theorem State.updStack_faults (s : State) (k : Nat) (f : StackSt → StackSt) : (s.updStack k f).faults = s.faults := by unfold State.updStack; split <;> rfl
@[simp] theorem State.updStack_trust (s : State) (k : Nat) (f : StackSt → StackSt) : (s.updStack k f).trust = s.trust := by unfold State.updStack; split <;> rfl
@[simp] theorem State.updStack_free (s : State) (k : Nat) (f : StackSt → StackSt) : (s.updStack k f).free = s.free := by unfold State.updStack; split <;> rfl

@[simp] theorem State.updLedger_pending (s : State) (f : LedgerSt → LedgerSt) : (s.updLedger f).pending = s.pending := rfl
@[simp] theorem State.updLedger_out (s : State) (f : LedgerSt → LedgerSt) : (s.updLedger f).out = s.out := rfl
@[simp] theorem State.updLedger_time (s : State) (f : LedgerSt → LedgerSt) : (s.updLedger f).time = s.time := rfl
@[simp] theorem State.updLedger_net (s : State) (f : LedgerSt → LedgerSt) : (s.updLedger f).net = s.net := rfl
@[simp] theorem State.updLedger_order (s : State) (f : LedgerSt → LedgerSt) : (s.updLedger f).order = s.order := rfl
@[simp] theorem State.updLedger_basin (s : State) (f : LedgerSt → LedgerSt) : (s.updLedger f).basin = s.basin := rfl
@[simp] theorem State.updLedger_cistern (s : State) (f : LedgerSt → LedgerSt) : (s.updLedger f).cistern = s.cistern := rfl
@[simp] theorem State.updLedger_egress (s : State) (f : LedgerSt → LedgerSt) : (s.updLedger f).egress = s.egress := rfl
@[simp] theorem State.updLedger_thrs (s : State) (f : LedgerSt → LedgerSt) : (s.updLedger f).thrs = s.thrs := rfl
@[simp] theorem State.updLedger_truns (s : State) (f : LedgerSt → LedgerSt) : (s.updLedger f).truns = s.truns := rfl
@[simp] theorem State.updLedger_scratch (s : State) (f : LedgerSt → LedgerSt) : (s.updLedger f).scratch = s.scratch := rfl
@[simp] theorem State.updLedger_cores (s : State) (f : LedgerSt → LedgerSt) : (s.updLedger f).cores = s.cores := rfl
@[simp] theorem State.updLedger_clusters (s : State) (f : LedgerSt → LedgerSt) : (s.updLedger f).clusters = s.clusters := rfl
@[simp] theorem State.updLedger_locks (s : State) (f : LedgerSt → LedgerSt) : (s.updLedger f).locks = s.locks := rfl
@[simp] theorem State.updLedger_keys (s : State) (f : LedgerSt → LedgerSt) : (s.updLedger f).keys = s.keys := rfl
@[simp] theorem State.updLedger_mem (s : State) (f : LedgerSt → LedgerSt) : (s.updLedger f).mem = s.mem := rfl
@[simp] theorem State.updLedger_hbm (s : State) (f : LedgerSt → LedgerSt) : (s.updLedger f).hbm = s.hbm := rfl
@[simp] theorem State.updLedger_power (s : State) (f : LedgerSt → LedgerSt) : (s.updLedger f).power = s.power := rfl
@[simp] theorem State.updLedger_tables (s : State) (f : LedgerSt → LedgerSt) : (s.updLedger f).tables = s.tables := rfl
@[simp] theorem State.updLedger_dci (s : State) (f : LedgerSt → LedgerSt) : (s.updLedger f).dci = s.dci := rfl
@[simp] theorem State.updLedger_faults (s : State) (f : LedgerSt → LedgerSt) : (s.updLedger f).faults = s.faults := rfl
@[simp] theorem State.updLedger_trust (s : State) (f : LedgerSt → LedgerSt) : (s.updLedger f).trust = s.trust := rfl
@[simp] theorem State.updLedger_free (s : State) (f : LedgerSt → LedgerSt) : (s.updLedger f).free = s.free := rfl

@[simp] theorem State.setWeir_pending (s : State) (w : Nat) (x : Weir) : (s.setWeir w x).pending = s.pending := rfl
@[simp] theorem State.setWeir_out (s : State) (w : Nat) (x : Weir) : (s.setWeir w x).out = s.out := rfl
@[simp] theorem State.setWeir_time (s : State) (w : Nat) (x : Weir) : (s.setWeir w x).time = s.time := rfl
@[simp] theorem State.setWeir_net (s : State) (w : Nat) (x : Weir) : (s.setWeir w x).net = s.net := rfl
@[simp] theorem State.setWeir_order (s : State) (w : Nat) (x : Weir) : (s.setWeir w x).order = s.order := rfl
@[simp] theorem State.setWeir_basin (s : State) (w : Nat) (x : Weir) : (s.setWeir w x).basin = s.basin := rfl
@[simp] theorem State.setWeir_cistern (s : State) (w : Nat) (x : Weir) : (s.setWeir w x).cistern = s.cistern := rfl
@[simp] theorem State.setWeir_egress (s : State) (w : Nat) (x : Weir) : (s.setWeir w x).egress = s.egress := rfl
@[simp] theorem State.setWeir_thrs (s : State) (w : Nat) (x : Weir) : (s.setWeir w x).thrs = s.thrs := rfl
@[simp] theorem State.setWeir_truns (s : State) (w : Nat) (x : Weir) : (s.setWeir w x).truns = s.truns := rfl
@[simp] theorem State.setWeir_scratch (s : State) (w : Nat) (x : Weir) : (s.setWeir w x).scratch = s.scratch := rfl
@[simp] theorem State.setWeir_cores (s : State) (w : Nat) (x : Weir) : (s.setWeir w x).cores = s.cores := rfl
@[simp] theorem State.setWeir_clusters (s : State) (w : Nat) (x : Weir) : (s.setWeir w x).clusters = s.clusters := rfl
@[simp] theorem State.setWeir_locks (s : State) (w : Nat) (x : Weir) : (s.setWeir w x).locks = s.locks := rfl
@[simp] theorem State.setWeir_keys (s : State) (w : Nat) (x : Weir) : (s.setWeir w x).keys = s.keys := rfl
@[simp] theorem State.setWeir_mem (s : State) (w : Nat) (x : Weir) : (s.setWeir w x).mem = s.mem := rfl
@[simp] theorem State.setWeir_hbm (s : State) (w : Nat) (x : Weir) : (s.setWeir w x).hbm = s.hbm := rfl
@[simp] theorem State.setWeir_power (s : State) (w : Nat) (x : Weir) : (s.setWeir w x).power = s.power := rfl
@[simp] theorem State.setWeir_ledger (s : State) (w : Nat) (x : Weir) : (s.setWeir w x).ledger = s.ledger := rfl
@[simp] theorem State.setWeir_dci (s : State) (w : Nat) (x : Weir) : (s.setWeir w x).dci = s.dci := rfl
@[simp] theorem State.setWeir_faults (s : State) (w : Nat) (x : Weir) : (s.setWeir w x).faults = s.faults := rfl
@[simp] theorem State.setWeir_trust (s : State) (w : Nat) (x : Weir) : (s.setWeir w x).trust = s.trust := rfl
@[simp] theorem State.setWeir_free (s : State) (w : Nat) (x : Weir) : (s.setWeir w x).free = s.free := rfl

@[simp] theorem State.updWeirCnt_pending (s : State) (f : WeirCnt → WeirCnt) : (s.updWeirCnt f).pending = s.pending := rfl
@[simp] theorem State.updWeirCnt_out (s : State) (f : WeirCnt → WeirCnt) : (s.updWeirCnt f).out = s.out := rfl
@[simp] theorem State.updWeirCnt_time (s : State) (f : WeirCnt → WeirCnt) : (s.updWeirCnt f).time = s.time := rfl
@[simp] theorem State.updWeirCnt_net (s : State) (f : WeirCnt → WeirCnt) : (s.updWeirCnt f).net = s.net := rfl
@[simp] theorem State.updWeirCnt_order (s : State) (f : WeirCnt → WeirCnt) : (s.updWeirCnt f).order = s.order := rfl
@[simp] theorem State.updWeirCnt_basin (s : State) (f : WeirCnt → WeirCnt) : (s.updWeirCnt f).basin = s.basin := rfl
@[simp] theorem State.updWeirCnt_cistern (s : State) (f : WeirCnt → WeirCnt) : (s.updWeirCnt f).cistern = s.cistern := rfl
@[simp] theorem State.updWeirCnt_egress (s : State) (f : WeirCnt → WeirCnt) : (s.updWeirCnt f).egress = s.egress := rfl
@[simp] theorem State.updWeirCnt_thrs (s : State) (f : WeirCnt → WeirCnt) : (s.updWeirCnt f).thrs = s.thrs := rfl
@[simp] theorem State.updWeirCnt_truns (s : State) (f : WeirCnt → WeirCnt) : (s.updWeirCnt f).truns = s.truns := rfl
@[simp] theorem State.updWeirCnt_scratch (s : State) (f : WeirCnt → WeirCnt) : (s.updWeirCnt f).scratch = s.scratch := rfl
@[simp] theorem State.updWeirCnt_cores (s : State) (f : WeirCnt → WeirCnt) : (s.updWeirCnt f).cores = s.cores := rfl
@[simp] theorem State.updWeirCnt_clusters (s : State) (f : WeirCnt → WeirCnt) : (s.updWeirCnt f).clusters = s.clusters := rfl
@[simp] theorem State.updWeirCnt_locks (s : State) (f : WeirCnt → WeirCnt) : (s.updWeirCnt f).locks = s.locks := rfl
@[simp] theorem State.updWeirCnt_keys (s : State) (f : WeirCnt → WeirCnt) : (s.updWeirCnt f).keys = s.keys := rfl
@[simp] theorem State.updWeirCnt_mem (s : State) (f : WeirCnt → WeirCnt) : (s.updWeirCnt f).mem = s.mem := rfl
@[simp] theorem State.updWeirCnt_hbm (s : State) (f : WeirCnt → WeirCnt) : (s.updWeirCnt f).hbm = s.hbm := rfl
@[simp] theorem State.updWeirCnt_power (s : State) (f : WeirCnt → WeirCnt) : (s.updWeirCnt f).power = s.power := rfl
@[simp] theorem State.updWeirCnt_ledger (s : State) (f : WeirCnt → WeirCnt) : (s.updWeirCnt f).ledger = s.ledger := rfl
@[simp] theorem State.updWeirCnt_dci (s : State) (f : WeirCnt → WeirCnt) : (s.updWeirCnt f).dci = s.dci := rfl
@[simp] theorem State.updWeirCnt_faults (s : State) (f : WeirCnt → WeirCnt) : (s.updWeirCnt f).faults = s.faults := rfl
@[simp] theorem State.updWeirCnt_trust (s : State) (f : WeirCnt → WeirCnt) : (s.updWeirCnt f).trust = s.trust := rfl
@[simp] theorem State.updWeirCnt_free (s : State) (f : WeirCnt → WeirCnt) : (s.updWeirCnt f).free = s.free := rfl

@[simp] theorem State.updTables_pending (s : State) (f : TableSt → TableSt) : (s.updTables f).pending = s.pending := rfl
@[simp] theorem State.updTables_out (s : State) (f : TableSt → TableSt) : (s.updTables f).out = s.out := rfl
@[simp] theorem State.updTables_time (s : State) (f : TableSt → TableSt) : (s.updTables f).time = s.time := rfl
@[simp] theorem State.updTables_net (s : State) (f : TableSt → TableSt) : (s.updTables f).net = s.net := rfl
@[simp] theorem State.updTables_order (s : State) (f : TableSt → TableSt) : (s.updTables f).order = s.order := rfl
@[simp] theorem State.updTables_basin (s : State) (f : TableSt → TableSt) : (s.updTables f).basin = s.basin := rfl
@[simp] theorem State.updTables_cistern (s : State) (f : TableSt → TableSt) : (s.updTables f).cistern = s.cistern := rfl
@[simp] theorem State.updTables_egress (s : State) (f : TableSt → TableSt) : (s.updTables f).egress = s.egress := rfl
@[simp] theorem State.updTables_thrs (s : State) (f : TableSt → TableSt) : (s.updTables f).thrs = s.thrs := rfl
@[simp] theorem State.updTables_truns (s : State) (f : TableSt → TableSt) : (s.updTables f).truns = s.truns := rfl
@[simp] theorem State.updTables_scratch (s : State) (f : TableSt → TableSt) : (s.updTables f).scratch = s.scratch := rfl
@[simp] theorem State.updTables_cores (s : State) (f : TableSt → TableSt) : (s.updTables f).cores = s.cores := rfl
@[simp] theorem State.updTables_clusters (s : State) (f : TableSt → TableSt) : (s.updTables f).clusters = s.clusters := rfl
@[simp] theorem State.updTables_locks (s : State) (f : TableSt → TableSt) : (s.updTables f).locks = s.locks := rfl
@[simp] theorem State.updTables_keys (s : State) (f : TableSt → TableSt) : (s.updTables f).keys = s.keys := rfl
@[simp] theorem State.updTables_mem (s : State) (f : TableSt → TableSt) : (s.updTables f).mem = s.mem := rfl
@[simp] theorem State.updTables_hbm (s : State) (f : TableSt → TableSt) : (s.updTables f).hbm = s.hbm := rfl
@[simp] theorem State.updTables_power (s : State) (f : TableSt → TableSt) : (s.updTables f).power = s.power := rfl
@[simp] theorem State.updTables_ledger (s : State) (f : TableSt → TableSt) : (s.updTables f).ledger = s.ledger := rfl
@[simp] theorem State.updTables_dci (s : State) (f : TableSt → TableSt) : (s.updTables f).dci = s.dci := rfl
@[simp] theorem State.updTables_faults (s : State) (f : TableSt → TableSt) : (s.updTables f).faults = s.faults := rfl
@[simp] theorem State.updTables_trust (s : State) (f : TableSt → TableSt) : (s.updTables f).trust = s.trust := rfl
@[simp] theorem State.updTables_free (s : State) (f : TableSt → TableSt) : (s.updTables f).free = s.free := rfl

@[simp] theorem State.setL2t_pending (s : State) (w : Nat) (x : L2Tbl) : (s.setL2t w x).pending = s.pending := rfl
@[simp] theorem State.setL2t_out (s : State) (w : Nat) (x : L2Tbl) : (s.setL2t w x).out = s.out := rfl
@[simp] theorem State.setL2t_time (s : State) (w : Nat) (x : L2Tbl) : (s.setL2t w x).time = s.time := rfl
@[simp] theorem State.setL2t_net (s : State) (w : Nat) (x : L2Tbl) : (s.setL2t w x).net = s.net := rfl
@[simp] theorem State.setL2t_order (s : State) (w : Nat) (x : L2Tbl) : (s.setL2t w x).order = s.order := rfl
@[simp] theorem State.setL2t_basin (s : State) (w : Nat) (x : L2Tbl) : (s.setL2t w x).basin = s.basin := rfl
@[simp] theorem State.setL2t_cistern (s : State) (w : Nat) (x : L2Tbl) : (s.setL2t w x).cistern = s.cistern := rfl
@[simp] theorem State.setL2t_egress (s : State) (w : Nat) (x : L2Tbl) : (s.setL2t w x).egress = s.egress := rfl
@[simp] theorem State.setL2t_thrs (s : State) (w : Nat) (x : L2Tbl) : (s.setL2t w x).thrs = s.thrs := rfl
@[simp] theorem State.setL2t_truns (s : State) (w : Nat) (x : L2Tbl) : (s.setL2t w x).truns = s.truns := rfl
@[simp] theorem State.setL2t_scratch (s : State) (w : Nat) (x : L2Tbl) : (s.setL2t w x).scratch = s.scratch := rfl
@[simp] theorem State.setL2t_cores (s : State) (w : Nat) (x : L2Tbl) : (s.setL2t w x).cores = s.cores := rfl
@[simp] theorem State.setL2t_clusters (s : State) (w : Nat) (x : L2Tbl) : (s.setL2t w x).clusters = s.clusters := rfl
@[simp] theorem State.setL2t_locks (s : State) (w : Nat) (x : L2Tbl) : (s.setL2t w x).locks = s.locks := rfl
@[simp] theorem State.setL2t_keys (s : State) (w : Nat) (x : L2Tbl) : (s.setL2t w x).keys = s.keys := rfl
@[simp] theorem State.setL2t_mem (s : State) (w : Nat) (x : L2Tbl) : (s.setL2t w x).mem = s.mem := rfl
@[simp] theorem State.setL2t_hbm (s : State) (w : Nat) (x : L2Tbl) : (s.setL2t w x).hbm = s.hbm := rfl
@[simp] theorem State.setL2t_power (s : State) (w : Nat) (x : L2Tbl) : (s.setL2t w x).power = s.power := rfl
@[simp] theorem State.setL2t_ledger (s : State) (w : Nat) (x : L2Tbl) : (s.setL2t w x).ledger = s.ledger := rfl
@[simp] theorem State.setL2t_dci (s : State) (w : Nat) (x : L2Tbl) : (s.setL2t w x).dci = s.dci := rfl
@[simp] theorem State.setL2t_faults (s : State) (w : Nat) (x : L2Tbl) : (s.setL2t w x).faults = s.faults := rfl
@[simp] theorem State.setL2t_trust (s : State) (w : Nat) (x : L2Tbl) : (s.setL2t w x).trust = s.trust := rfl
@[simp] theorem State.setL2t_free (s : State) (w : Nat) (x : L2Tbl) : (s.setL2t w x).free = s.free := rfl

@[simp] theorem State.updL2t_pending (s : State) (w : Nat) (f : L2Tbl → L2Tbl) : (s.updL2t w f).pending = s.pending := rfl
@[simp] theorem State.updL2t_out (s : State) (w : Nat) (f : L2Tbl → L2Tbl) : (s.updL2t w f).out = s.out := rfl
@[simp] theorem State.updL2t_time (s : State) (w : Nat) (f : L2Tbl → L2Tbl) : (s.updL2t w f).time = s.time := rfl
@[simp] theorem State.updL2t_net (s : State) (w : Nat) (f : L2Tbl → L2Tbl) : (s.updL2t w f).net = s.net := rfl
@[simp] theorem State.updL2t_order (s : State) (w : Nat) (f : L2Tbl → L2Tbl) : (s.updL2t w f).order = s.order := rfl
@[simp] theorem State.updL2t_basin (s : State) (w : Nat) (f : L2Tbl → L2Tbl) : (s.updL2t w f).basin = s.basin := rfl
@[simp] theorem State.updL2t_cistern (s : State) (w : Nat) (f : L2Tbl → L2Tbl) : (s.updL2t w f).cistern = s.cistern := rfl
@[simp] theorem State.updL2t_egress (s : State) (w : Nat) (f : L2Tbl → L2Tbl) : (s.updL2t w f).egress = s.egress := rfl
@[simp] theorem State.updL2t_thrs (s : State) (w : Nat) (f : L2Tbl → L2Tbl) : (s.updL2t w f).thrs = s.thrs := rfl
@[simp] theorem State.updL2t_truns (s : State) (w : Nat) (f : L2Tbl → L2Tbl) : (s.updL2t w f).truns = s.truns := rfl
@[simp] theorem State.updL2t_scratch (s : State) (w : Nat) (f : L2Tbl → L2Tbl) : (s.updL2t w f).scratch = s.scratch := rfl
@[simp] theorem State.updL2t_cores (s : State) (w : Nat) (f : L2Tbl → L2Tbl) : (s.updL2t w f).cores = s.cores := rfl
@[simp] theorem State.updL2t_clusters (s : State) (w : Nat) (f : L2Tbl → L2Tbl) : (s.updL2t w f).clusters = s.clusters := rfl
@[simp] theorem State.updL2t_locks (s : State) (w : Nat) (f : L2Tbl → L2Tbl) : (s.updL2t w f).locks = s.locks := rfl
@[simp] theorem State.updL2t_keys (s : State) (w : Nat) (f : L2Tbl → L2Tbl) : (s.updL2t w f).keys = s.keys := rfl
@[simp] theorem State.updL2t_mem (s : State) (w : Nat) (f : L2Tbl → L2Tbl) : (s.updL2t w f).mem = s.mem := rfl
@[simp] theorem State.updL2t_hbm (s : State) (w : Nat) (f : L2Tbl → L2Tbl) : (s.updL2t w f).hbm = s.hbm := rfl
@[simp] theorem State.updL2t_power (s : State) (w : Nat) (f : L2Tbl → L2Tbl) : (s.updL2t w f).power = s.power := rfl
@[simp] theorem State.updL2t_ledger (s : State) (w : Nat) (f : L2Tbl → L2Tbl) : (s.updL2t w f).ledger = s.ledger := rfl
@[simp] theorem State.updL2t_dci (s : State) (w : Nat) (f : L2Tbl → L2Tbl) : (s.updL2t w f).dci = s.dci := rfl
@[simp] theorem State.updL2t_faults (s : State) (w : Nat) (f : L2Tbl → L2Tbl) : (s.updL2t w f).faults = s.faults := rfl
@[simp] theorem State.updL2t_trust (s : State) (w : Nat) (f : L2Tbl → L2Tbl) : (s.updL2t w f).trust = s.trust := rfl
@[simp] theorem State.updL2t_free (s : State) (w : Nat) (f : L2Tbl → L2Tbl) : (s.updL2t w f).free = s.free := rfl

@[simp] theorem State.setEmt_pending (s : State) (k : Nat) (x : Option EmTbl) : (s.setEmt k x).pending = s.pending := rfl
@[simp] theorem State.setEmt_out (s : State) (k : Nat) (x : Option EmTbl) : (s.setEmt k x).out = s.out := rfl
@[simp] theorem State.setEmt_time (s : State) (k : Nat) (x : Option EmTbl) : (s.setEmt k x).time = s.time := rfl
@[simp] theorem State.setEmt_net (s : State) (k : Nat) (x : Option EmTbl) : (s.setEmt k x).net = s.net := rfl
@[simp] theorem State.setEmt_order (s : State) (k : Nat) (x : Option EmTbl) : (s.setEmt k x).order = s.order := rfl
@[simp] theorem State.setEmt_basin (s : State) (k : Nat) (x : Option EmTbl) : (s.setEmt k x).basin = s.basin := rfl
@[simp] theorem State.setEmt_cistern (s : State) (k : Nat) (x : Option EmTbl) : (s.setEmt k x).cistern = s.cistern := rfl
@[simp] theorem State.setEmt_egress (s : State) (k : Nat) (x : Option EmTbl) : (s.setEmt k x).egress = s.egress := rfl
@[simp] theorem State.setEmt_thrs (s : State) (k : Nat) (x : Option EmTbl) : (s.setEmt k x).thrs = s.thrs := rfl
@[simp] theorem State.setEmt_truns (s : State) (k : Nat) (x : Option EmTbl) : (s.setEmt k x).truns = s.truns := rfl
@[simp] theorem State.setEmt_scratch (s : State) (k : Nat) (x : Option EmTbl) : (s.setEmt k x).scratch = s.scratch := rfl
@[simp] theorem State.setEmt_cores (s : State) (k : Nat) (x : Option EmTbl) : (s.setEmt k x).cores = s.cores := rfl
@[simp] theorem State.setEmt_clusters (s : State) (k : Nat) (x : Option EmTbl) : (s.setEmt k x).clusters = s.clusters := rfl
@[simp] theorem State.setEmt_locks (s : State) (k : Nat) (x : Option EmTbl) : (s.setEmt k x).locks = s.locks := rfl
@[simp] theorem State.setEmt_keys (s : State) (k : Nat) (x : Option EmTbl) : (s.setEmt k x).keys = s.keys := rfl
@[simp] theorem State.setEmt_mem (s : State) (k : Nat) (x : Option EmTbl) : (s.setEmt k x).mem = s.mem := rfl
@[simp] theorem State.setEmt_hbm (s : State) (k : Nat) (x : Option EmTbl) : (s.setEmt k x).hbm = s.hbm := rfl
@[simp] theorem State.setEmt_power (s : State) (k : Nat) (x : Option EmTbl) : (s.setEmt k x).power = s.power := rfl
@[simp] theorem State.setEmt_ledger (s : State) (k : Nat) (x : Option EmTbl) : (s.setEmt k x).ledger = s.ledger := rfl
@[simp] theorem State.setEmt_dci (s : State) (k : Nat) (x : Option EmTbl) : (s.setEmt k x).dci = s.dci := rfl
@[simp] theorem State.setEmt_faults (s : State) (k : Nat) (x : Option EmTbl) : (s.setEmt k x).faults = s.faults := rfl
@[simp] theorem State.setEmt_trust (s : State) (k : Nat) (x : Option EmTbl) : (s.setEmt k x).trust = s.trust := rfl
@[simp] theorem State.setEmt_free (s : State) (k : Nat) (x : Option EmTbl) : (s.setEmt k x).free = s.free := rfl

@[simp] theorem State.setTset_pending (s : State) (r : Requester) (x : TblSet) : (s.setTset r x).pending = s.pending := rfl
@[simp] theorem State.setTset_out (s : State) (r : Requester) (x : TblSet) : (s.setTset r x).out = s.out := rfl
@[simp] theorem State.setTset_time (s : State) (r : Requester) (x : TblSet) : (s.setTset r x).time = s.time := rfl
@[simp] theorem State.setTset_net (s : State) (r : Requester) (x : TblSet) : (s.setTset r x).net = s.net := rfl
@[simp] theorem State.setTset_order (s : State) (r : Requester) (x : TblSet) : (s.setTset r x).order = s.order := rfl
@[simp] theorem State.setTset_basin (s : State) (r : Requester) (x : TblSet) : (s.setTset r x).basin = s.basin := rfl
@[simp] theorem State.setTset_cistern (s : State) (r : Requester) (x : TblSet) : (s.setTset r x).cistern = s.cistern := rfl
@[simp] theorem State.setTset_egress (s : State) (r : Requester) (x : TblSet) : (s.setTset r x).egress = s.egress := rfl
@[simp] theorem State.setTset_thrs (s : State) (r : Requester) (x : TblSet) : (s.setTset r x).thrs = s.thrs := rfl
@[simp] theorem State.setTset_truns (s : State) (r : Requester) (x : TblSet) : (s.setTset r x).truns = s.truns := rfl
@[simp] theorem State.setTset_scratch (s : State) (r : Requester) (x : TblSet) : (s.setTset r x).scratch = s.scratch := rfl
@[simp] theorem State.setTset_cores (s : State) (r : Requester) (x : TblSet) : (s.setTset r x).cores = s.cores := rfl
@[simp] theorem State.setTset_clusters (s : State) (r : Requester) (x : TblSet) : (s.setTset r x).clusters = s.clusters := rfl
@[simp] theorem State.setTset_locks (s : State) (r : Requester) (x : TblSet) : (s.setTset r x).locks = s.locks := rfl
@[simp] theorem State.setTset_keys (s : State) (r : Requester) (x : TblSet) : (s.setTset r x).keys = s.keys := rfl
@[simp] theorem State.setTset_mem (s : State) (r : Requester) (x : TblSet) : (s.setTset r x).mem = s.mem := rfl
@[simp] theorem State.setTset_hbm (s : State) (r : Requester) (x : TblSet) : (s.setTset r x).hbm = s.hbm := rfl
@[simp] theorem State.setTset_power (s : State) (r : Requester) (x : TblSet) : (s.setTset r x).power = s.power := rfl
@[simp] theorem State.setTset_ledger (s : State) (r : Requester) (x : TblSet) : (s.setTset r x).ledger = s.ledger := rfl
@[simp] theorem State.setTset_dci (s : State) (r : Requester) (x : TblSet) : (s.setTset r x).dci = s.dci := rfl
@[simp] theorem State.setTset_faults (s : State) (r : Requester) (x : TblSet) : (s.setTset r x).faults = s.faults := rfl
@[simp] theorem State.setTset_trust (s : State) (r : Requester) (x : TblSet) : (s.setTset r x).trust = s.trust := rfl
@[simp] theorem State.setTset_free (s : State) (r : Requester) (x : TblSet) : (s.setTset r x).free = s.free := rfl

@[simp] theorem State.updPower_pending (s : State) (f : PowerSt → PowerSt) : (s.updPower f).pending = s.pending := rfl
@[simp] theorem State.updPower_out (s : State) (f : PowerSt → PowerSt) : (s.updPower f).out = s.out := rfl
@[simp] theorem State.updPower_time (s : State) (f : PowerSt → PowerSt) : (s.updPower f).time = s.time := rfl
@[simp] theorem State.updPower_net (s : State) (f : PowerSt → PowerSt) : (s.updPower f).net = s.net := rfl
@[simp] theorem State.updPower_order (s : State) (f : PowerSt → PowerSt) : (s.updPower f).order = s.order := rfl
@[simp] theorem State.updPower_basin (s : State) (f : PowerSt → PowerSt) : (s.updPower f).basin = s.basin := rfl
@[simp] theorem State.updPower_cistern (s : State) (f : PowerSt → PowerSt) : (s.updPower f).cistern = s.cistern := rfl
@[simp] theorem State.updPower_egress (s : State) (f : PowerSt → PowerSt) : (s.updPower f).egress = s.egress := rfl
@[simp] theorem State.updPower_thrs (s : State) (f : PowerSt → PowerSt) : (s.updPower f).thrs = s.thrs := rfl
@[simp] theorem State.updPower_truns (s : State) (f : PowerSt → PowerSt) : (s.updPower f).truns = s.truns := rfl
@[simp] theorem State.updPower_scratch (s : State) (f : PowerSt → PowerSt) : (s.updPower f).scratch = s.scratch := rfl
@[simp] theorem State.updPower_cores (s : State) (f : PowerSt → PowerSt) : (s.updPower f).cores = s.cores := rfl
@[simp] theorem State.updPower_clusters (s : State) (f : PowerSt → PowerSt) : (s.updPower f).clusters = s.clusters := rfl
@[simp] theorem State.updPower_locks (s : State) (f : PowerSt → PowerSt) : (s.updPower f).locks = s.locks := rfl
@[simp] theorem State.updPower_keys (s : State) (f : PowerSt → PowerSt) : (s.updPower f).keys = s.keys := rfl
@[simp] theorem State.updPower_mem (s : State) (f : PowerSt → PowerSt) : (s.updPower f).mem = s.mem := rfl
@[simp] theorem State.updPower_hbm (s : State) (f : PowerSt → PowerSt) : (s.updPower f).hbm = s.hbm := rfl
@[simp] theorem State.updPower_tables (s : State) (f : PowerSt → PowerSt) : (s.updPower f).tables = s.tables := rfl
@[simp] theorem State.updPower_ledger (s : State) (f : PowerSt → PowerSt) : (s.updPower f).ledger = s.ledger := rfl
@[simp] theorem State.updPower_dci (s : State) (f : PowerSt → PowerSt) : (s.updPower f).dci = s.dci := rfl
@[simp] theorem State.updPower_faults (s : State) (f : PowerSt → PowerSt) : (s.updPower f).faults = s.faults := rfl
@[simp] theorem State.updPower_trust (s : State) (f : PowerSt → PowerSt) : (s.updPower f).trust = s.trust := rfl
@[simp] theorem State.updPower_free (s : State) (f : PowerSt → PowerSt) : (s.updPower f).free = s.free := rfl

@[simp] theorem State.updTime_pending (s : State) (f : TimeSt → TimeSt) : (s.updTime f).pending = s.pending := rfl
@[simp] theorem State.updTime_out (s : State) (f : TimeSt → TimeSt) : (s.updTime f).out = s.out := rfl
@[simp] theorem State.updTime_net (s : State) (f : TimeSt → TimeSt) : (s.updTime f).net = s.net := rfl
@[simp] theorem State.updTime_order (s : State) (f : TimeSt → TimeSt) : (s.updTime f).order = s.order := rfl
@[simp] theorem State.updTime_basin (s : State) (f : TimeSt → TimeSt) : (s.updTime f).basin = s.basin := rfl
@[simp] theorem State.updTime_cistern (s : State) (f : TimeSt → TimeSt) : (s.updTime f).cistern = s.cistern := rfl
@[simp] theorem State.updTime_egress (s : State) (f : TimeSt → TimeSt) : (s.updTime f).egress = s.egress := rfl
@[simp] theorem State.updTime_thrs (s : State) (f : TimeSt → TimeSt) : (s.updTime f).thrs = s.thrs := rfl
@[simp] theorem State.updTime_truns (s : State) (f : TimeSt → TimeSt) : (s.updTime f).truns = s.truns := rfl
@[simp] theorem State.updTime_scratch (s : State) (f : TimeSt → TimeSt) : (s.updTime f).scratch = s.scratch := rfl
@[simp] theorem State.updTime_cores (s : State) (f : TimeSt → TimeSt) : (s.updTime f).cores = s.cores := rfl
@[simp] theorem State.updTime_clusters (s : State) (f : TimeSt → TimeSt) : (s.updTime f).clusters = s.clusters := rfl
@[simp] theorem State.updTime_locks (s : State) (f : TimeSt → TimeSt) : (s.updTime f).locks = s.locks := rfl
@[simp] theorem State.updTime_keys (s : State) (f : TimeSt → TimeSt) : (s.updTime f).keys = s.keys := rfl
@[simp] theorem State.updTime_mem (s : State) (f : TimeSt → TimeSt) : (s.updTime f).mem = s.mem := rfl
@[simp] theorem State.updTime_hbm (s : State) (f : TimeSt → TimeSt) : (s.updTime f).hbm = s.hbm := rfl
@[simp] theorem State.updTime_power (s : State) (f : TimeSt → TimeSt) : (s.updTime f).power = s.power := rfl
@[simp] theorem State.updTime_tables (s : State) (f : TimeSt → TimeSt) : (s.updTime f).tables = s.tables := rfl
@[simp] theorem State.updTime_ledger (s : State) (f : TimeSt → TimeSt) : (s.updTime f).ledger = s.ledger := rfl
@[simp] theorem State.updTime_dci (s : State) (f : TimeSt → TimeSt) : (s.updTime f).dci = s.dci := rfl
@[simp] theorem State.updTime_faults (s : State) (f : TimeSt → TimeSt) : (s.updTime f).faults = s.faults := rfl
@[simp] theorem State.updTime_trust (s : State) (f : TimeSt → TimeSt) : (s.updTime f).trust = s.trust := rfl
@[simp] theorem State.updTime_free (s : State) (f : TimeSt → TimeSt) : (s.updTime f).free = s.free := rfl

@[simp] theorem State.updPunt_pending (s : State) (f : HostFn) (tx : Bool) (r : Nat) (g : PuntRing → PuntRing) : (s.updPunt f tx r g).pending = s.pending := by cases tx <;> cases f <;> rfl
@[simp] theorem State.updPunt_out (s : State) (f : HostFn) (tx : Bool) (r : Nat) (g : PuntRing → PuntRing) : (s.updPunt f tx r g).out = s.out := by cases tx <;> cases f <;> rfl
@[simp] theorem State.updPunt_time (s : State) (f : HostFn) (tx : Bool) (r : Nat) (g : PuntRing → PuntRing) : (s.updPunt f tx r g).time = s.time := by cases tx <;> cases f <;> rfl
@[simp] theorem State.updPunt_net (s : State) (f : HostFn) (tx : Bool) (r : Nat) (g : PuntRing → PuntRing) : (s.updPunt f tx r g).net = s.net := by cases tx <;> cases f <;> rfl
@[simp] theorem State.updPunt_order (s : State) (f : HostFn) (tx : Bool) (r : Nat) (g : PuntRing → PuntRing) : (s.updPunt f tx r g).order = s.order := by cases tx <;> cases f <;> rfl
@[simp] theorem State.updPunt_basin (s : State) (f : HostFn) (tx : Bool) (r : Nat) (g : PuntRing → PuntRing) : (s.updPunt f tx r g).basin = s.basin := by cases tx <;> cases f <;> rfl
@[simp] theorem State.updPunt_cistern (s : State) (f : HostFn) (tx : Bool) (r : Nat) (g : PuntRing → PuntRing) : (s.updPunt f tx r g).cistern = s.cistern := by cases tx <;> cases f <;> rfl
@[simp] theorem State.updPunt_egress (s : State) (f : HostFn) (tx : Bool) (r : Nat) (g : PuntRing → PuntRing) : (s.updPunt f tx r g).egress = s.egress := by cases tx <;> cases f <;> rfl
@[simp] theorem State.updPunt_thrs (s : State) (f : HostFn) (tx : Bool) (r : Nat) (g : PuntRing → PuntRing) : (s.updPunt f tx r g).thrs = s.thrs := by cases tx <;> cases f <;> rfl
@[simp] theorem State.updPunt_truns (s : State) (f : HostFn) (tx : Bool) (r : Nat) (g : PuntRing → PuntRing) : (s.updPunt f tx r g).truns = s.truns := by cases tx <;> cases f <;> rfl
@[simp] theorem State.updPunt_scratch (s : State) (f : HostFn) (tx : Bool) (r : Nat) (g : PuntRing → PuntRing) : (s.updPunt f tx r g).scratch = s.scratch := by cases tx <;> cases f <;> rfl
@[simp] theorem State.updPunt_cores (s : State) (f : HostFn) (tx : Bool) (r : Nat) (g : PuntRing → PuntRing) : (s.updPunt f tx r g).cores = s.cores := by cases tx <;> cases f <;> rfl
@[simp] theorem State.updPunt_clusters (s : State) (f : HostFn) (tx : Bool) (r : Nat) (g : PuntRing → PuntRing) : (s.updPunt f tx r g).clusters = s.clusters := by cases tx <;> cases f <;> rfl
@[simp] theorem State.updPunt_locks (s : State) (f : HostFn) (tx : Bool) (r : Nat) (g : PuntRing → PuntRing) : (s.updPunt f tx r g).locks = s.locks := by cases tx <;> cases f <;> rfl
@[simp] theorem State.updPunt_keys (s : State) (f : HostFn) (tx : Bool) (r : Nat) (g : PuntRing → PuntRing) : (s.updPunt f tx r g).keys = s.keys := by cases tx <;> cases f <;> rfl
@[simp] theorem State.updPunt_mem (s : State) (f : HostFn) (tx : Bool) (r : Nat) (g : PuntRing → PuntRing) : (s.updPunt f tx r g).mem = s.mem := by cases tx <;> cases f <;> rfl
@[simp] theorem State.updPunt_hbm (s : State) (f : HostFn) (tx : Bool) (r : Nat) (g : PuntRing → PuntRing) : (s.updPunt f tx r g).hbm = s.hbm := by cases tx <;> cases f <;> rfl
@[simp] theorem State.updPunt_power (s : State) (f : HostFn) (tx : Bool) (r : Nat) (g : PuntRing → PuntRing) : (s.updPunt f tx r g).power = s.power := by cases tx <;> cases f <;> rfl
@[simp] theorem State.updPunt_tables (s : State) (f : HostFn) (tx : Bool) (r : Nat) (g : PuntRing → PuntRing) : (s.updPunt f tx r g).tables = s.tables := by cases tx <;> cases f <;> rfl
@[simp] theorem State.updPunt_ledger (s : State) (f : HostFn) (tx : Bool) (r : Nat) (g : PuntRing → PuntRing) : (s.updPunt f tx r g).ledger = s.ledger := by cases tx <;> cases f <;> rfl
@[simp] theorem State.updPunt_faults (s : State) (f : HostFn) (tx : Bool) (r : Nat) (g : PuntRing → PuntRing) : (s.updPunt f tx r g).faults = s.faults := by cases tx <;> cases f <;> rfl
@[simp] theorem State.updPunt_trust (s : State) (f : HostFn) (tx : Bool) (r : Nat) (g : PuntRing → PuntRing) : (s.updPunt f tx r g).trust = s.trust := by cases tx <;> cases f <;> rfl
@[simp] theorem State.updPunt_free (s : State) (f : HostFn) (tx : Bool) (r : Nat) (g : PuntRing → PuntRing) : (s.updPunt f tx r g).free = s.free := by cases tx <;> cases f <;> rfl

@[simp] theorem State.updRx_pending (s : State) (f : HostFn) (r : Nat) (g : PuntRing → PuntRing) : (s.updRx f r g).pending = s.pending := by cases f <;> rfl
@[simp] theorem State.updRx_out (s : State) (f : HostFn) (r : Nat) (g : PuntRing → PuntRing) : (s.updRx f r g).out = s.out := by cases f <;> rfl
@[simp] theorem State.updRx_time (s : State) (f : HostFn) (r : Nat) (g : PuntRing → PuntRing) : (s.updRx f r g).time = s.time := by cases f <;> rfl
@[simp] theorem State.updRx_net (s : State) (f : HostFn) (r : Nat) (g : PuntRing → PuntRing) : (s.updRx f r g).net = s.net := by cases f <;> rfl
@[simp] theorem State.updRx_order (s : State) (f : HostFn) (r : Nat) (g : PuntRing → PuntRing) : (s.updRx f r g).order = s.order := by cases f <;> rfl
@[simp] theorem State.updRx_basin (s : State) (f : HostFn) (r : Nat) (g : PuntRing → PuntRing) : (s.updRx f r g).basin = s.basin := by cases f <;> rfl
@[simp] theorem State.updRx_cistern (s : State) (f : HostFn) (r : Nat) (g : PuntRing → PuntRing) : (s.updRx f r g).cistern = s.cistern := by cases f <;> rfl
@[simp] theorem State.updRx_egress (s : State) (f : HostFn) (r : Nat) (g : PuntRing → PuntRing) : (s.updRx f r g).egress = s.egress := by cases f <;> rfl
@[simp] theorem State.updRx_thrs (s : State) (f : HostFn) (r : Nat) (g : PuntRing → PuntRing) : (s.updRx f r g).thrs = s.thrs := by cases f <;> rfl
@[simp] theorem State.updRx_truns (s : State) (f : HostFn) (r : Nat) (g : PuntRing → PuntRing) : (s.updRx f r g).truns = s.truns := by cases f <;> rfl
@[simp] theorem State.updRx_scratch (s : State) (f : HostFn) (r : Nat) (g : PuntRing → PuntRing) : (s.updRx f r g).scratch = s.scratch := by cases f <;> rfl
@[simp] theorem State.updRx_cores (s : State) (f : HostFn) (r : Nat) (g : PuntRing → PuntRing) : (s.updRx f r g).cores = s.cores := by cases f <;> rfl
@[simp] theorem State.updRx_clusters (s : State) (f : HostFn) (r : Nat) (g : PuntRing → PuntRing) : (s.updRx f r g).clusters = s.clusters := by cases f <;> rfl
@[simp] theorem State.updRx_locks (s : State) (f : HostFn) (r : Nat) (g : PuntRing → PuntRing) : (s.updRx f r g).locks = s.locks := by cases f <;> rfl
@[simp] theorem State.updRx_keys (s : State) (f : HostFn) (r : Nat) (g : PuntRing → PuntRing) : (s.updRx f r g).keys = s.keys := by cases f <;> rfl
@[simp] theorem State.updRx_mem (s : State) (f : HostFn) (r : Nat) (g : PuntRing → PuntRing) : (s.updRx f r g).mem = s.mem := by cases f <;> rfl
@[simp] theorem State.updRx_hbm (s : State) (f : HostFn) (r : Nat) (g : PuntRing → PuntRing) : (s.updRx f r g).hbm = s.hbm := by cases f <;> rfl
@[simp] theorem State.updRx_power (s : State) (f : HostFn) (r : Nat) (g : PuntRing → PuntRing) : (s.updRx f r g).power = s.power := by cases f <;> rfl
@[simp] theorem State.updRx_tables (s : State) (f : HostFn) (r : Nat) (g : PuntRing → PuntRing) : (s.updRx f r g).tables = s.tables := by cases f <;> rfl
@[simp] theorem State.updRx_ledger (s : State) (f : HostFn) (r : Nat) (g : PuntRing → PuntRing) : (s.updRx f r g).ledger = s.ledger := by cases f <;> rfl
@[simp] theorem State.updRx_faults (s : State) (f : HostFn) (r : Nat) (g : PuntRing → PuntRing) : (s.updRx f r g).faults = s.faults := by cases f <;> rfl
@[simp] theorem State.updRx_trust (s : State) (f : HostFn) (r : Nat) (g : PuntRing → PuntRing) : (s.updRx f r g).trust = s.trust := by cases f <;> rfl
@[simp] theorem State.updRx_free (s : State) (f : HostFn) (r : Nat) (g : PuntRing → PuntRing) : (s.updRx f r g).free = s.free := by cases f <;> rfl

@[simp] theorem State.updTx_pending (s : State) (f : HostFn) (r : Nat) (g : PuntRing → PuntRing) : (s.updTx f r g).pending = s.pending := by cases f <;> rfl
@[simp] theorem State.updTx_out (s : State) (f : HostFn) (r : Nat) (g : PuntRing → PuntRing) : (s.updTx f r g).out = s.out := by cases f <;> rfl
@[simp] theorem State.updTx_time (s : State) (f : HostFn) (r : Nat) (g : PuntRing → PuntRing) : (s.updTx f r g).time = s.time := by cases f <;> rfl
@[simp] theorem State.updTx_net (s : State) (f : HostFn) (r : Nat) (g : PuntRing → PuntRing) : (s.updTx f r g).net = s.net := by cases f <;> rfl
@[simp] theorem State.updTx_order (s : State) (f : HostFn) (r : Nat) (g : PuntRing → PuntRing) : (s.updTx f r g).order = s.order := by cases f <;> rfl
@[simp] theorem State.updTx_basin (s : State) (f : HostFn) (r : Nat) (g : PuntRing → PuntRing) : (s.updTx f r g).basin = s.basin := by cases f <;> rfl
@[simp] theorem State.updTx_cistern (s : State) (f : HostFn) (r : Nat) (g : PuntRing → PuntRing) : (s.updTx f r g).cistern = s.cistern := by cases f <;> rfl
@[simp] theorem State.updTx_egress (s : State) (f : HostFn) (r : Nat) (g : PuntRing → PuntRing) : (s.updTx f r g).egress = s.egress := by cases f <;> rfl
@[simp] theorem State.updTx_thrs (s : State) (f : HostFn) (r : Nat) (g : PuntRing → PuntRing) : (s.updTx f r g).thrs = s.thrs := by cases f <;> rfl
@[simp] theorem State.updTx_truns (s : State) (f : HostFn) (r : Nat) (g : PuntRing → PuntRing) : (s.updTx f r g).truns = s.truns := by cases f <;> rfl
@[simp] theorem State.updTx_scratch (s : State) (f : HostFn) (r : Nat) (g : PuntRing → PuntRing) : (s.updTx f r g).scratch = s.scratch := by cases f <;> rfl
@[simp] theorem State.updTx_cores (s : State) (f : HostFn) (r : Nat) (g : PuntRing → PuntRing) : (s.updTx f r g).cores = s.cores := by cases f <;> rfl
@[simp] theorem State.updTx_clusters (s : State) (f : HostFn) (r : Nat) (g : PuntRing → PuntRing) : (s.updTx f r g).clusters = s.clusters := by cases f <;> rfl
@[simp] theorem State.updTx_locks (s : State) (f : HostFn) (r : Nat) (g : PuntRing → PuntRing) : (s.updTx f r g).locks = s.locks := by cases f <;> rfl
@[simp] theorem State.updTx_keys (s : State) (f : HostFn) (r : Nat) (g : PuntRing → PuntRing) : (s.updTx f r g).keys = s.keys := by cases f <;> rfl
@[simp] theorem State.updTx_mem (s : State) (f : HostFn) (r : Nat) (g : PuntRing → PuntRing) : (s.updTx f r g).mem = s.mem := by cases f <;> rfl
@[simp] theorem State.updTx_hbm (s : State) (f : HostFn) (r : Nat) (g : PuntRing → PuntRing) : (s.updTx f r g).hbm = s.hbm := by cases f <;> rfl
@[simp] theorem State.updTx_power (s : State) (f : HostFn) (r : Nat) (g : PuntRing → PuntRing) : (s.updTx f r g).power = s.power := by cases f <;> rfl
@[simp] theorem State.updTx_tables (s : State) (f : HostFn) (r : Nat) (g : PuntRing → PuntRing) : (s.updTx f r g).tables = s.tables := by cases f <;> rfl
@[simp] theorem State.updTx_ledger (s : State) (f : HostFn) (r : Nat) (g : PuntRing → PuntRing) : (s.updTx f r g).ledger = s.ledger := by cases f <;> rfl
@[simp] theorem State.updTx_faults (s : State) (f : HostFn) (r : Nat) (g : PuntRing → PuntRing) : (s.updTx f r g).faults = s.faults := by cases f <;> rfl
@[simp] theorem State.updTx_trust (s : State) (f : HostFn) (r : Nat) (g : PuntRing → PuntRing) : (s.updTx f r g).trust = s.trust := by cases f <;> rfl
@[simp] theorem State.updTx_free (s : State) (f : HostFn) (r : Nat) (g : PuntRing → PuntRing) : (s.updTx f r g).free = s.free := by cases f <;> rfl

@[simp] theorem State.setThr_thr (s : State) (k : Nat) (x : Thr) : (s.setThr k x).thr k = x :=
  SMap.get_set_self _ _ _ _
theorem State.setThr_thr_ne (s : State) {k j : Nat} (x : Thr) (h : j ≠ k) : (s.setThr k x).thr j = s.thr j :=
  SMap.get_set_ne _ _ _ h
@[simp] theorem State.setTr_tr (s : State) (k : Nat) (x : ThrRun) : (s.setTr k x).tr k = x :=
  SMap.get_set_self _ _ _ _
theorem State.setTr_tr_ne (s : State) {k j : Nat} (x : ThrRun) (h : j ≠ k) : (s.setTr k x).tr j = s.tr j :=
  SMap.get_set_ne _ _ _ h
@[simp] theorem State.setCore_core (s : State) (k : Nat) (x : CoreSt) : (s.setCore k x).core k = x :=
  SMap.get_set_self _ _ _ _
theorem State.setCore_core_ne (s : State) {k j : Nat} (x : CoreSt) (h : j ≠ k) : (s.setCore k x).core j = s.core j :=
  SMap.get_set_ne _ _ _ h
@[simp] theorem State.setCl_cl (s : State) (k : Nat) (x : ClusterSt) : (s.setCl k x).cl k = x :=
  SMap.get_set_self _ _ _ _
theorem State.setCl_cl_ne (s : State) {k j : Nat} (x : ClusterSt) (h : j ≠ k) : (s.setCl k x).cl j = s.cl j :=
  SMap.get_set_ne _ _ _ h
@[simp] theorem State.setScr_scr (s : State) (k : Nat) (x : ScratchSt) : (s.setScr k x).scr k = x :=
  SMap.get_set_self _ _ _ _
theorem State.setScr_scr_ne (s : State) {k j : Nat} (x : ScratchSt) (h : j ≠ k) : (s.setScr k x).scr j = s.scr j :=
  SMap.get_set_ne _ _ _ h
@[simp] theorem State.setPort_port (s : State) (k : Nat) (x : Port) : (s.setPort k x).port k = x :=
  SMap.get_set_self _ _ _ _
theorem State.setPort_port_ne (s : State) {k j : Nat} (x : Port) (h : j ≠ k) : (s.setPort k x).port j = s.port j :=
  SMap.get_set_ne _ _ _ h
@[simp] theorem State.setWell_well (s : State) (k : Nat) (x : Well) : (s.setWell k x).well k = x :=
  SMap.get_set_self _ _ _ _
theorem State.setWell_well_ne (s : State) {k j : Nat} (x : Well) (h : j ≠ k) : (s.setWell k x).well j = s.well j :=
  SMap.get_set_ne _ _ _ h
@[simp] theorem State.setPkt_pkt (s : State) (k : Nat) (x : Pkt) : (s.setPkt k x).pkt k = x :=
  SMap.get_set_self _ _ _ _
theorem State.setPkt_pkt_ne (s : State) {k j : Nat} (x : Pkt) (h : j ≠ k) : (s.setPkt k x).pkt j = s.pkt j :=
  SMap.get_set_ne _ _ _ h
@[simp] theorem State.setRc_rc (s : State) (k : Nat) (x : RunRec) : (s.setRc k x).rc k = x :=
  SMap.get_set_self _ _ _ _
theorem State.setRc_rc_ne (s : State) {k j : Nat} (x : RunRec) (h : j ≠ k) : (s.setRc k x).rc j = s.rc j :=
  SMap.get_set_ne _ _ _ h
@[simp] theorem State.setDom_dom (s : State) (k : Nat) (x : Dom) : (s.setDom k x).dom k = x :=
  SMap.get_set_self _ _ _ _
theorem State.setDom_dom_ne (s : State) {k j : Nat} (x : Dom) (h : j ≠ k) : (s.setDom k x).dom j = s.dom j :=
  SMap.get_set_ne _ _ _ h
@[simp] theorem State.setEport_eport (s : State) (k : Nat) (x : EPort) : (s.setEport k x).eport k = x :=
  SMap.get_set_self _ _ _ _
theorem State.setEport_eport_ne (s : State) {k j : Nat} (x : EPort) (h : j ≠ k) : (s.setEport k x).eport j = s.eport j :=
  SMap.get_set_ne _ _ _ h
@[simp] theorem State.setQueue_queue (s : State) (k : Nat) (x : Queue) : (s.setQueue k x).queue k = x :=
  SMap.get_set_self _ _ _ _
theorem State.setQueue_queue_ne (s : State) {k j : Nat} (x : Queue) (h : j ≠ k) : (s.setQueue k x).queue j = s.queue j :=
  SMap.get_set_ne _ _ _ h
@[simp] theorem State.setGroup_group (s : State) (k : Nat) (x : QGroup) : (s.setGroup k x).group k = x :=
  SMap.get_set_self _ _ _ _
theorem State.setGroup_group_ne (s : State) {k j : Nat} (x : QGroup) (h : j ≠ k) : (s.setGroup k x).group j = s.group j :=
  SMap.get_set_ne _ _ _ h
@[simp] theorem State.setPump_pump (s : State) (k : Nat) (x : Pump) : (s.setPump k x).pump k = x :=
  SMap.get_set_self _ _ _ _
theorem State.setPump_pump_ne (s : State) {k j : Nat} (x : Pump) (h : j ≠ k) : (s.setPump k x).pump j = s.pump j :=
  SMap.get_set_ne _ _ _ h
@[simp] theorem State.setLock_lock (s : State) (k : Nat) (x : LockEnt) : (s.setLock k x).lock k = x :=
  SMap.get_set_self _ _ _ _
theorem State.setLock_lock_ne (s : State) {k j : Nat} (x : LockEnt) (h : j ≠ k) : (s.setLock k x).lock j = s.lock j :=
  SMap.get_set_ne _ _ _ h
@[simp] theorem State.updThr_thr (s : State) (k : Nat) (f : Thr → Thr) : (s.updThr k f).thr k = f (s.thr k) :=
  SMap.get_set_self _ _ _ _
theorem State.updThr_thr_ne (s : State) {k j : Nat} (f : Thr → Thr) (h : j ≠ k) : (s.updThr k f).thr j = s.thr j :=
  SMap.get_set_ne _ _ _ h
@[simp] theorem State.updTr_tr (s : State) (k : Nat) (f : ThrRun → ThrRun) : (s.updTr k f).tr k = f (s.tr k) :=
  SMap.get_set_self _ _ _ _
theorem State.updTr_tr_ne (s : State) {k j : Nat} (f : ThrRun → ThrRun) (h : j ≠ k) : (s.updTr k f).tr j = s.tr j :=
  SMap.get_set_ne _ _ _ h
@[simp] theorem State.updCore_core (s : State) (k : Nat) (f : CoreSt → CoreSt) : (s.updCore k f).core k = f (s.core k) :=
  SMap.get_set_self _ _ _ _
theorem State.updCore_core_ne (s : State) {k j : Nat} (f : CoreSt → CoreSt) (h : j ≠ k) : (s.updCore k f).core j = s.core j :=
  SMap.get_set_ne _ _ _ h
@[simp] theorem State.updCl_cl (s : State) (k : Nat) (f : ClusterSt → ClusterSt) : (s.updCl k f).cl k = f (s.cl k) :=
  SMap.get_set_self _ _ _ _
theorem State.updCl_cl_ne (s : State) {k j : Nat} (f : ClusterSt → ClusterSt) (h : j ≠ k) : (s.updCl k f).cl j = s.cl j :=
  SMap.get_set_ne _ _ _ h
@[simp] theorem State.updPort_port (s : State) (k : Nat) (f : Port → Port) : (s.updPort k f).port k = f (s.port k) :=
  SMap.get_set_self _ _ _ _
theorem State.updPort_port_ne (s : State) {k j : Nat} (f : Port → Port) (h : j ≠ k) : (s.updPort k f).port j = s.port j :=
  SMap.get_set_ne _ _ _ h
@[simp] theorem State.updWell_well (s : State) (k : Nat) (f : Well → Well) : (s.updWell k f).well k = f (s.well k) :=
  SMap.get_set_self _ _ _ _
theorem State.updWell_well_ne (s : State) {k j : Nat} (f : Well → Well) (h : j ≠ k) : (s.updWell k f).well j = s.well j :=
  SMap.get_set_ne _ _ _ h
@[simp] theorem State.updPkt_pkt (s : State) (k : Nat) (f : Pkt → Pkt) : (s.updPkt k f).pkt k = f (s.pkt k) :=
  SMap.get_set_self _ _ _ _
theorem State.updPkt_pkt_ne (s : State) {k j : Nat} (f : Pkt → Pkt) (h : j ≠ k) : (s.updPkt k f).pkt j = s.pkt j :=
  SMap.get_set_ne _ _ _ h
@[simp] theorem State.updRc_rc (s : State) (k : Nat) (f : RunRec → RunRec) : (s.updRc k f).rc k = f (s.rc k) :=
  SMap.get_set_self _ _ _ _
theorem State.updRc_rc_ne (s : State) {k j : Nat} (f : RunRec → RunRec) (h : j ≠ k) : (s.updRc k f).rc j = s.rc j :=
  SMap.get_set_ne _ _ _ h
@[simp] theorem State.updDom_dom (s : State) (k : Nat) (f : Dom → Dom) : (s.updDom k f).dom k = f (s.dom k) :=
  SMap.get_set_self _ _ _ _
theorem State.updDom_dom_ne (s : State) {k j : Nat} (f : Dom → Dom) (h : j ≠ k) : (s.updDom k f).dom j = s.dom j :=
  SMap.get_set_ne _ _ _ h
@[simp] theorem State.updEport_eport (s : State) (k : Nat) (f : EPort → EPort) : (s.updEport k f).eport k = f (s.eport k) :=
  SMap.get_set_self _ _ _ _
theorem State.updEport_eport_ne (s : State) {k j : Nat} (f : EPort → EPort) (h : j ≠ k) : (s.updEport k f).eport j = s.eport j :=
  SMap.get_set_ne _ _ _ h
@[simp] theorem State.updQueue_queue (s : State) (k : Nat) (f : Queue → Queue) : (s.updQueue k f).queue k = f (s.queue k) :=
  SMap.get_set_self _ _ _ _
theorem State.updQueue_queue_ne (s : State) {k j : Nat} (f : Queue → Queue) (h : j ≠ k) : (s.updQueue k f).queue j = s.queue j :=
  SMap.get_set_ne _ _ _ h
@[simp] theorem State.updGroup_group (s : State) (k : Nat) (f : QGroup → QGroup) : (s.updGroup k f).group k = f (s.group k) :=
  SMap.get_set_self _ _ _ _
theorem State.updGroup_group_ne (s : State) {k j : Nat} (f : QGroup → QGroup) (h : j ≠ k) : (s.updGroup k f).group j = s.group j :=
  SMap.get_set_ne _ _ _ h
@[simp] theorem State.updPump_pump (s : State) (k : Nat) (f : Pump → Pump) : (s.updPump k f).pump k = f (s.pump k) :=
  SMap.get_set_self _ _ _ _
theorem State.updPump_pump_ne (s : State) {k j : Nat} (f : Pump → Pump) (h : j ≠ k) : (s.updPump k f).pump j = s.pump j :=
  SMap.get_set_ne _ _ _ h
@[simp] theorem State.setTr_thr (s : State) (k : Nat) (x : ThrRun) (u : Nat) : (s.setTr k x).thr u = s.thr u := rfl
@[simp] theorem State.setTr_reg (s : State) (k : Nat) (x : ThrRun) (u : Nat) (r : Reg) : (s.setTr k x).reg u r = s.reg u r := rfl
@[simp] theorem State.updTr_thr (s : State) (k : Nat) (f : ThrRun → ThrRun) (u : Nat) : (s.updTr k f).thr u = s.thr u := rfl
@[simp] theorem State.updTr_reg (s : State) (k : Nat) (f : ThrRun → ThrRun) (u : Nat) (r : Reg) : (s.updTr k f).reg u r = s.reg u r := rfl
@[simp] theorem State.setCore_thr (s : State) (c : Nat) (x : CoreSt) (u : Nat) : (s.setCore c x).thr u = s.thr u := rfl
@[simp] theorem State.setCore_reg (s : State) (c : Nat) (x : CoreSt) (u : Nat) (r : Reg) : (s.setCore c x).reg u r = s.reg u r := rfl
@[simp] theorem State.updCore_thr (s : State) (c : Nat) (f : CoreSt → CoreSt) (u : Nat) : (s.updCore c f).thr u = s.thr u := rfl
@[simp] theorem State.updCore_reg (s : State) (c : Nat) (f : CoreSt → CoreSt) (u : Nat) (r : Reg) : (s.updCore c f).reg u r = s.reg u r := rfl
@[simp] theorem State.setCl_thr (s : State) (c : Nat) (x : ClusterSt) (u : Nat) : (s.setCl c x).thr u = s.thr u := rfl
@[simp] theorem State.setCl_reg (s : State) (c : Nat) (x : ClusterSt) (u : Nat) (r : Reg) : (s.setCl c x).reg u r = s.reg u r := rfl
@[simp] theorem State.updCl_thr (s : State) (c : Nat) (f : ClusterSt → ClusterSt) (u : Nat) : (s.updCl c f).thr u = s.thr u := rfl
@[simp] theorem State.updCl_reg (s : State) (c : Nat) (f : ClusterSt → ClusterSt) (u : Nat) (r : Reg) : (s.updCl c f).reg u r = s.reg u r := rfl
@[simp] theorem State.updL2_thr (s : State) (c : Nat) (f : L2St → L2St) (u : Nat) : (s.updL2 c f).thr u = s.thr u := rfl
@[simp] theorem State.updL2_reg (s : State) (c : Nat) (f : L2St → L2St) (u : Nat) (r : Reg) : (s.updL2 c f).reg u r = s.reg u r := rfl
@[simp] theorem State.updMem_thr (s : State) (f : HbmMem → HbmMem) (u : Nat) : (s.updMem f).thr u = s.thr u := rfl
@[simp] theorem State.updMem_reg (s : State) (f : HbmMem → HbmMem) (u : Nat) (r : Reg) : (s.updMem f).reg u r = s.reg u r := rfl
@[simp] theorem State.updOrder_thr (s : State) (f : OrderSt → OrderSt) (u : Nat) : (s.updOrder f).thr u = s.thr u := rfl
@[simp] theorem State.updOrder_reg (s : State) (f : OrderSt → OrderSt) (u : Nat) (r : Reg) : (s.updOrder f).reg u r = s.reg u r := rfl
@[simp] theorem State.updCnt_thr (s : State) (f : OrderCnt → OrderCnt) (u : Nat) : (s.updCnt f).thr u = s.thr u := rfl
@[simp] theorem State.updCnt_reg (s : State) (f : OrderCnt → OrderCnt) (u : Nat) (r : Reg) : (s.updCnt f).reg u r = s.reg u r := rfl
@[simp] theorem State.setPkt_thr (s : State) (p : Nat) (x : Pkt) (u : Nat) : (s.setPkt p x).thr u = s.thr u := rfl
@[simp] theorem State.setPkt_reg (s : State) (p : Nat) (x : Pkt) (u : Nat) (r : Reg) : (s.setPkt p x).reg u r = s.reg u r := rfl
@[simp] theorem State.updPkt_thr (s : State) (p : Nat) (f : Pkt → Pkt) (u : Nat) : (s.updPkt p f).thr u = s.thr u := rfl
@[simp] theorem State.updPkt_reg (s : State) (p : Nat) (f : Pkt → Pkt) (u : Nat) (r : Reg) : (s.updPkt p f).reg u r = s.reg u r := rfl
@[simp] theorem State.updRc_thr (s : State) (p : Nat) (f : RunRec → RunRec) (u : Nat) : (s.updRc p f).thr u = s.thr u := rfl
@[simp] theorem State.updRc_reg (s : State) (p : Nat) (f : RunRec → RunRec) (u : Nat) (r : Reg) : (s.updRc p f).reg u r = s.reg u r := rfl
@[simp] theorem State.updTask_thr (s : State) (c : Nat) (f : TaskSt → TaskSt) (u : Nat) : (s.updTask c f).thr u = s.thr u := rfl
@[simp] theorem State.updTask_reg (s : State) (c : Nat) (f : TaskSt → TaskSt) (u : Nat) (r : Reg) : (s.updTask c f).reg u r = s.reg u r := rfl
@[simp] theorem State.updEgress_thr (s : State) (f : EgressSt → EgressSt) (u : Nat) : (s.updEgress f).thr u = s.thr u := rfl
@[simp] theorem State.updEgress_reg (s : State) (f : EgressSt → EgressSt) (u : Nat) (r : Reg) : (s.updEgress f).reg u r = s.reg u r := rfl
@[simp] theorem State.updTables_thr (s : State) (f : TableSt → TableSt) (u : Nat) : (s.updTables f).thr u = s.thr u := rfl
@[simp] theorem State.updTables_reg (s : State) (f : TableSt → TableSt) (u : Nat) (r : Reg) : (s.updTables f).reg u r = s.reg u r := rfl
@[simp] theorem State.updLedger_thr (s : State) (f : LedgerSt → LedgerSt) (u : Nat) : (s.updLedger f).thr u = s.thr u := rfl
@[simp] theorem State.updLedger_reg (s : State) (f : LedgerSt → LedgerSt) (u : Nat) (r : Reg) : (s.updLedger f).reg u r = s.reg u r := rfl
@[simp] theorem State.updDci_thr (s : State) (f : DciSt → DciSt) (u : Nat) : (s.updDci f).thr u = s.thr u := rfl
@[simp] theorem State.updDci_reg (s : State) (f : DciSt → DciSt) (u : Nat) (r : Reg) : (s.updDci f).reg u r = s.reg u r := rfl
@[simp] theorem State.updFn_thr (s : State) (f : HostFn) (g : FnSt → FnSt) (u : Nat) : (s.updFn f g).thr u = s.thr u := by cases f <;> rfl
@[simp] theorem State.updFn_reg (s : State) (f : HostFn) (g : FnSt → FnSt) (u : Nat) (r : Reg) : (s.updFn f g).reg u r = s.reg u r := by cases f <;> rfl
@[simp] theorem State.updNet_thr (s : State) (f : NetSt → NetSt) (u : Nat) : (s.updNet f).thr u = s.thr u := rfl
@[simp] theorem State.updNet_reg (s : State) (f : NetSt → NetSt) (u : Nat) (r : Reg) : (s.updNet f).reg u r = s.reg u r := rfl
@[simp] theorem State.updHbm_thr (s : State) (f : HbmSt → HbmSt) (u : Nat) : (s.updHbm f).thr u = s.thr u := rfl
@[simp] theorem State.updHbm_reg (s : State) (f : HbmSt → HbmSt) (u : Nat) (r : Reg) : (s.updHbm f).reg u r = s.reg u r := rfl
@[simp] theorem State.updPower_thr (s : State) (f : PowerSt → PowerSt) (u : Nat) : (s.updPower f).thr u = s.thr u := rfl
@[simp] theorem State.updPower_reg (s : State) (f : PowerSt → PowerSt) (u : Nat) (r : Reg) : (s.updPower f).reg u r = s.reg u r := rfl
@[simp] theorem State.updTime_thr (s : State) (f : TimeSt → TimeSt) (u : Nat) : (s.updTime f).thr u = s.thr u := rfl
@[simp] theorem State.updTime_reg (s : State) (f : TimeSt → TimeSt) (u : Nat) (r : Reg) : (s.updTime f).reg u r = s.reg u r := rfl
@[simp] theorem State.updTrust_thr (s : State) (f : TrustSt → TrustSt) (u : Nat) : (s.updTrust f).thr u = s.thr u := rfl
@[simp] theorem State.updTrust_reg (s : State) (f : TrustSt → TrustSt) (u : Nat) (r : Reg) : (s.updTrust f).reg u r = s.reg u r := rfl
@[simp] theorem State.updBasin_thr (s : State) (f : BasinSt → BasinSt) (u : Nat) : (s.updBasin f).thr u = s.thr u := rfl
@[simp] theorem State.updBasin_reg (s : State) (f : BasinSt → BasinSt) (u : Nat) (r : Reg) : (s.updBasin f).reg u r = s.reg u r := rfl

/-! ### Registers (R288) -/

@[simp] theorem Thr.get_zero (x : Thr) : x.get 0 = 0 := rfl

@[simp] theorem Thr.get_set_self (x : Thr) (r : Reg) (v : W64) : (x.set r v).get r = if r = 0 then 0 else v := by
  by_cases h : r = 0
  · simp only [Thr.get, Thr.set, if_pos h]
  · simp only [Thr.get, Thr.set, if_neg h, SMap.get_set_self]

theorem Thr.get_set_ne (x : Thr) {r q : Reg} (v : W64) (h : q ≠ r) : (x.set r v).get q = x.get q := by
  have hn : q.toNat ≠ r.toNat := fun e => h (BitVec.eq_of_toNat_eq e)
  by_cases hr : r = 0
  · simp only [Thr.set, if_pos hr]
  · simp only [Thr.get, Thr.set, if_neg hr, SMap.get_set_ne _ _ _ hn]

@[simp] theorem Thr.set_pc (x : Thr) (r : Reg) (v : W64) : (x.set r v).pc = x.pc := by
  unfold Thr.set; split <;> rfl

/-- A write to g0 is discarded. -/
@[simp] theorem Thr.set_zero (x : Thr) (v : W64) : x.set 0 v = x := rfl

/-- A register write changes nothing but the registers. -/
theorem Thr.set_eq (x : Thr) (r : Reg) (v : W64) : x.set r v = { x with regs := (x.set r v).regs } := by
  unfold Thr.set; split <;> rfl

end Sys2Proof.Machine
end

