-- ==== Sys2Proof/Laws/Host.lean ====
section
/-!
SUPPORT. What interrupts, events, responses and the carrying out of a command can do, said once: the parts of the state
they may change, and which command runs when.
-/

namespace Sys2Proof.Machine

/-! ### Interrupts and writes to host memory change what leaves the device and the host interface alone (R501) -/

theorem State.updFn_frame (s : State) (f : HostFn) (g : FnSt → FnSt) : ∃ d, s.updFn f g = { s with dci := d } := by
  cases f <;> exact ⟨_, rfl⟩

theorem State.sendVector_frame (s : State) (f : HostFn) (v : Nat) :
    ∃ o d, s.sendVector f v = { s with out := o, dci := d } := by
  unfold State.sendVector
  split
  · obtain ⟨d, h⟩ := State.updFn_frame s f fun x => { x with msixPend := x.msixPend ||| (1 <<< v) }
    exact ⟨s.out, d, h⟩
  · exact ⟨_, s.dci, rfl⟩

theorem State.irq_frame (s : State) (f : HostFn) (k : Nat) : ∃ o d, s.irq f k = { s with out := o, dci := d } := by
  unfold State.irq
  dsimp only
  split
  · exact ⟨s.out, s.dci, rfl⟩
  · split
    · obtain ⟨d, h⟩ := State.updFn_frame s f fun x => { x with intWait := insNat x.intWait k }
      exact ⟨s.out, d, h⟩
    · obtain ⟨o, d, h⟩ := State.sendVector_frame s f ((SMap.get 0 (s.fn f).intMap k).toNat % 64)
      rw [h]
      obtain ⟨e, h⟩ := State.updFn_frame { s with out := o, dci := d } f fun x => { x with
        intGap := SMap.set 0 x.intGap k (s.dt + 1000 * ((SMap.get 0 (s.fn f).intMap k).toNat / 65536 % 65536)) }
      exact ⟨o, e, h⟩

/-- A chain of changes to these two parts is such a change. -/
theorem State.foldl_frame {α : Type} (f : State → α → State)
    (hf : ∀ x a, ∃ o d, f x a = { x with out := o, dci := d }) (l : List α) (s : State) :
    ∃ o d, l.foldl f s = { s with out := o, dci := d } := by
  induction l generalizing s with
  | nil => exact ⟨s.out, s.dci, rfl⟩
  | cons a rest ih =>
    obtain ⟨o, d, h⟩ := hf s a
    obtain ⟨o', d', h'⟩ := ih (f s a)
    rw [h] at h'
    exact ⟨o', d', by rw [List.foldl_cons, h, h']⟩

/-! ### Events (R486, R500, R560) -/

theorem State.putEvent_frame (s : State) (f : HostFn) (e : EvRec) : ∃ o d, s.putEvent f e = { s with out := o, dci := d } := by
  unfold State.putEvent
  split
  · obtain ⟨d, h⟩ := State.updFn_frame s f fun x => { x with unput := x.unput + 1 }
    exact ⟨s.out, d, h⟩
  · split
    · obtain ⟨o, d, h⟩ := State.irq_frame (s.hostWrite f
        ((s.fn f).evtBase.toNat / 64 * 64 + 64 * (e.eseq.toNat % 1024)) e.image) f 1
      exact ⟨o, d, h⟩
    · exact ⟨s.out, s.dci, rfl⟩

theorem State.issueEvent_frame (s : State) (f : HostFn) (code : Nat) (dt : W64) (body : List Byte) :
    ∃ o d, s.issueEvent f code dt body = { s with out := o, dci := d } := by
  unfold State.issueEvent
  dsimp only
  obtain ⟨d, h⟩ := State.updFn_frame s f fun x => { x with
    eseqIssued := x.eseqIssued + 1, events := x.events ++ [⟨(s.fn f).eseqIssued + 1, code, dt, body⟩] }
  rw [h]
  obtain ⟨o, e, h⟩ := State.putEvent_frame { s with dci := d } f ⟨(s.fn f).eseqIssued + 1, code, dt, body⟩
  exact ⟨o, e, h⟩

theorem State.lostEvent_frame (s : State) (f : HostFn) : ∃ o d, s.lostEvent f = { s with out := o, dci := d } := by
  unfold State.lostEvent
  dsimp only
  split
  · obtain ⟨o, d, h⟩ := State.issueEvent_frame s f 0x0001 s.time.ns (layout [(4, (s.fn f).lost), (8, (s.fn f).lostDt.toNat)])
    rw [h]
    obtain ⟨e, h⟩ := State.updFn_frame { s with out := o, dci := d } f fun y => { y with lost := 0, lostDt := 0 }
    exact ⟨o, e, h⟩
  · exact ⟨s.out, s.dci, rfl⟩

theorem State.eventOn_frame (s : State) (f : HostFn) (code : Nat) (dt : W64) (body : List Byte) :
    ∃ o d, s.eventOn f code dt body = { s with out := o, dci := d } := by
  unfold State.eventOn
  dsimp only
  obtain ⟨o, d, h⟩ := State.lostEvent_frame s f
  rw [h]
  split
  · obtain ⟨o', d', h'⟩ := State.issueEvent_frame { s with out := o, dci := d } f code dt body
    exact ⟨o', d', h'⟩
  · obtain ⟨e, h⟩ := State.updFn_frame { s with out := o, dci := d } f fun y => { y with
      lost := y.lost + 1, lostDt := if y.lost = 0 then dt else y.lostDt }
    exact ⟨o, e, h⟩

/-- An event changes what leaves the device, the host interface and the fault log. -/
theorem State.event_frame (s : State) (code : Nat) (fields : List (Nat × Nat)) :
    ∃ o d l n, s.event code fields = { s with out := o, dci := d, faults := { s.faults with log := l, nextSeq := n } } := by
  unfold State.event
  dsimp only
  obtain ⟨o, d, h⟩ := State.foldl_frame (fun acc f => State.eventOn acc f code s.time.ns (layout fields))
    (fun x f => State.eventOn_frame x f code s.time.ns (layout fields)) s.fns s
  rw [h]
  unfold State.logEvent
  split
  · exact ⟨o, d, _, _, rfl⟩
  · exact ⟨o, d, s.faults.log, s.faults.nextSeq, rfl⟩

/-- The fault log never holds more than 4,096 entries (R560). -/
theorem State.logEvent_length (s : State) (code : Nat) (dt : W64) (body : List Byte)
    (h : s.faults.log.length ≤ 4096) : (s.logEvent code dt body).faults.log.length ≤ 4096 := by
  unfold State.logEvent
  split
  · simp only [lastN, List.length_drop, List.length_append, List.length_singleton]
    omega
  · exact h

theorem State.event_length (s : State) (code : Nat) (fields : List (Nat × Nat)) (h : s.faults.log.length ≤ 4096) :
    (s.event code fields).faults.log.length ≤ 4096 := by
  unfold State.event
  dsimp only
  obtain ⟨o, d, hf⟩ := State.foldl_frame (fun acc f => State.eventOn acc f code s.time.ns (layout fields))
    (fun x f => State.eventOn_frame x f code s.time.ns (layout fields)) s.fns s
  rw [hf]
  exact State.logEvent_length _ _ _ _ h

/-- A change of DEVICE_STATE.STATE. -/
theorem State.setDev_frame (s : State) (n : DevState) (cause : Nat) :
    ∃ o d l q, s.setDev n cause = { s with out := o, dci := d, faults := { s.faults with log := l, nextSeq := q } } := by
  unfold State.setDev
  dsimp only
  split
  · exact ⟨s.out, s.dci, s.faults.log, s.faults.nextSeq, rfl⟩
  · obtain ⟨o, d, h⟩ := State.foldl_frame (fun acc f => State.irq acc f 2) (fun x f => State.irq_frame x f 2)
      (s.updDci fun d => { d with st := n, cause := cause }).fns (s.updDci fun d => { d with st := n, cause := cause })
    rw [h]
    split
    · exact ⟨o, d, s.faults.log, s.faults.nextSeq, rfl⟩
    · obtain ⟨o', d', l, q, h'⟩ := State.event_frame { s with out := o, dci := d } 0x0003
        [(1, s.dci.st.code), (1, n.code), (1, cause)]
      exact ⟨o', d', l, q, h'⟩

/-! ### Responses (R485, R489, R498) -/

theorem State.putRsp_frame (s : State) (f : HostFn) (cseq : W32) (op status : Nat) (tag : BitVec 16) (orig flags : Nat)
    (detail : W32) (result : List Byte) :
    ∃ o d, s.putRsp f cseq op status tag orig flags detail result = { s with out := o, dci := d } := by
  unfold State.putRsp
  dsimp only
  split
  · obtain ⟨d, h⟩ := State.updFn_frame (s.hostWrite f ((s.fn f).rspBase.toNat / 64 * 64 + 64 * (s.fn f).rspTail.toNat)
      (rspImage cseq op status tag orig (flags + (s.fn f).phase.toNat) (s.fn f).eseqIssued detail result)) f fun y => { y with
        rspTail := y.rspTail + 1, phase := if y.rspTail = 255 then !y.phase else y.phase }
    rw [h]
    obtain ⟨o, e, h⟩ := State.irq_frame { s with out := _, dci := d } f 0
    exact ⟨o, e, h⟩
  · exact ⟨s.out, s.dci, rfl⟩

theorem State.putDup_frame (s : State) (j : JCmd) (r : Resp) (tag : BitVec 16) :
    ∃ o d, s.putDup j r tag = { s with out := o, dci := d } := State.putRsp_frame ..

/-- The response and the DUPLICATEs that waited for it. -/
theorem State.respond_frame (s x : State) (j : JCmd) (r : Resp) (f : HostFn) (cseq : W32) (op status : Nat)
    (tag : BitVec 16) (orig flags : Nat) (detail : W32) (result : List Byte)
    (hx : ∃ o d, x = { s with out := o, dci := d }) :
    ∃ o d, j.dups.foldl (fun acc t => State.putDup acc j r t) (x.putRsp f cseq op status tag orig flags detail result)
      = { s with out := o, dci := d } := by
  obtain ⟨o, d, hx⟩ := hx
  obtain ⟨o1, d1, h1⟩ := State.putRsp_frame x f cseq op status tag orig flags detail result
  obtain ⟨o2, d2, h2⟩ := State.foldl_frame (fun acc t => State.putDup acc j r t) (fun y t => State.putDup_frame y j r t)
    j.dups (x.putRsp f cseq op status tag orig flags detail result)
  rw [h1, hx] at h2
  exact ⟨o2, d2, by rw [h1, hx, h2]⟩

theorem State.finish_frame (s : State) (c : Sys2Proof.CmdRef) (status detail : Nat) (result tail : List Byte) :
    ∃ o d, s.finish c status detail result tail = { s with out := o, dci := d } := by
  unfold State.finish
  split
  · exact ⟨s.out, s.dci, rfl⟩
  · rename_i j hj
    dsimp only
    split
    · exact ⟨s.out, s.dci, rfl⟩
    · apply State.respond_frame
      split
      · exact ⟨_, _, rfl⟩
      · exact ⟨s.out, _, rfl⟩

/-- Carrying out an answer changes what leaves the device and the host interface alone. -/
theorem State.answer_frame (s : State) (c : Sys2Proof.CmdRef) (a : Ans) :
    ∃ o d, s.answer c a = { s with out := o, dci := d } := by
  cases a with
  | reply st d r t => exact State.finish_frame s c st d r t
  | later => exact ⟨s.out, _, rfl⟩
  | wait => exact ⟨s.out, s.dci, rfl⟩

/-! ### Commands (R488, R491) -/

/-- A command that is due in READY, with no part out of service, is its body and its answer; a result too long for its
output buffer leaves what the body did undone. -/
theorem State.command_accepts (s : State) (c : Sys2Proof.CmdRef) (op : Nat) (fields : List (Nat × Nat))
    (body : State → State × Ans) (h : s.accepts c op fields) :
    s.command c op fields body = .next ((if s.tooLong c (body s).2 then s else (body s).1).answer c (body s).2) := by
  obtain ⟨h1, h2, h3⟩ := h
  have hn : s.fenceNotice op (layout fields) = s := by
    unfold State.fenceNotice
    split
    · simp [h2]
    · rfl
  unfold State.command
  rw [if_pos h3, if_neg (by simp [h1]), hn]
  rfl

/-- An answer without a result is never too long. -/
theorem State.tooLong_status (s : State) (c : Sys2Proof.CmdRef) (st d : Nat) (tail : List Byte) :
    s.tooLong c (.reply st d [] tail) = false := by
  unfold State.tooLong
  split
  · rename_i h
    cases h
    simp [JCmd.tooLong]
  · rfl

/-- Everything a command can do: nothing when it is not due, the answer FAULTED, or its body, undone when its result is
too long, and its answer. -/
theorem State.command_cases (s u : State) (c : Sys2Proof.CmdRef) (op : Nat) (fields : List (Nat × Nat))
    (body : State → State × Ans) (h : s.command c op fields body = .next u) :
    u = s ∨ u = s.answer c faulted
      ∨ u = (s.fenceNotice op (layout fields)).answer c (body (s.fenceNotice op (layout fields))).2
      ∨ u = (body (s.fenceNotice op (layout fields))).1.answer c (body (s.fenceNotice op (layout fields))).2 := by
  unfold State.command done at h
  split at h
  · split at h
    · exact .inr (.inl (by simpa using h.symm))
    · dsimp only at h
      split at h
      · exact .inr (.inr (.inl (by simpa using h.symm)))
      · exact .inr (.inr (.inr (by simpa using h.symm)))
  · exact .inl (by simpa using h.symm)

/-- A command always answers a next state. -/
theorem State.command_next (s : State) (c : Sys2Proof.CmdRef) (op : Nat) (fields : List (Nat × Nat))
    (body : State → State × Ans) : ∃ u, s.command c op fields body = .next u := by
  unfold State.command done
  split
  · split
    · exact ⟨_, rfl⟩
    · exact ⟨_, rfl⟩
  · exact ⟨_, rfl⟩

end Sys2Proof.Machine
end

