-- ==== Sys2Proof/Laws/Issue.lean ====
section
/-!
SUPPORT. What fetching and issuing an instruction can do, said once: the fetch changes a core's caches, its cluster and
memory alone, and an instruction that can issue acts on the state after the fetch.
-/

namespace Sys2Proof.Machine

/-- Installing a line changes memory and the clusters alone. -/
theorem State.l2Install_frame (s : State) (c : Nat) (ln : Line) :
    ∃ m k, s.l2Install c ln = { s with mem := m, clusters := k } := by
  unfold State.l2Install
  dsimp only
  split
  · split
    · exact ⟨_, _, rfl⟩
    · exact ⟨_, _, rfl⟩
  · exact ⟨_, _, rfl⟩

theorem State.l2Count_frame (s : State) (c n : Nat) : ∃ k, s.l2Count c n = { s with clusters := k } := by
  unfold State.l2Count
  split
  · exact ⟨_, rfl⟩
  · split
    · exact ⟨_, rfl⟩
    · exact ⟨_, rfl⟩

theorem State.l2Get_frame (s : State) (c n : Nat) : ∃ m k, (s.l2Get c n).1 = { s with mem := m, clusters := k } := by
  unfold State.l2Get
  split
  · split
    · exact ⟨_, _, rfl⟩
    · exact ⟨_, _, rfl⟩
  · exact State.l2Install_frame _ _ _

/-- The fetch changes the cores, memory and the clusters alone. -/
theorem State.fetchLine_frame (s : State) (t : Nat) :
    ∃ c m k, s.fetchLine t = { s with cores := c, mem := m, clusters := k } := by
  unfold State.fetchLine
  dsimp only
  split
  · exact ⟨_, _, _, rfl⟩
  · obtain ⟨k0, h0⟩ := State.l2Count_frame s (clusterOfCore (coreOf t)) ((s.thr t).pc.toNat % hbmSize / 64)
    obtain ⟨m, k, h⟩ := State.l2Get_frame (s.l2Count (clusterOfCore (coreOf t)) ((s.thr t).pc.toNat % hbmSize / 64))
      (clusterOfCore (coreOf t)) ((s.thr t).pc.toNat % hbmSize / 64)
    rw [h, h0]
    exact ⟨_, _, _, rfl⟩

/-- A fetch that hits changes the cores alone. -/
theorem State.fetchLine_hit (s : State) (t : Nat) (h : s.fetchHits t) : ∃ c, s.fetchLine t = { s with cores := c } := by
  unfold State.fetchHits at h
  unfold State.fetchLine
  dsimp only
  split
  · exact ⟨_, rfl⟩
  · rename_i hn
    simp only [List.find?_eq_none, List.any_eq_true] at hn h
    obtain ⟨w, hw, hh⟩ := h
    exact absurd hh (hn w hw)

/-- The state in which an instruction that issues acts. -/
theorem State.fetchLine_reads (s : State) (t : Nat) :
    (s.fetchLine t).thrs = s.thrs ∧ (s.fetchLine t).truns = s.truns ∧ (s.fetchLine t).scratch = s.scratch
      ∧ sameDevice s (s.fetchLine t) := by
  obtain ⟨c, m, k, h⟩ := State.fetchLine_frame s t
  rw [h]
  simp [sameDevice]

/-- An instruction that issues acts on the state after the fetch. -/
theorem issue_some (s : State) (t : Nat) (late : State → Option (Nat × Nat)) (body : State → Option State) (u : State)
    (h : s.issues t) (hb : body (s.fetchLine t) = some u) : issueLate t late body s = .next (u.issued t) := by
  obtain ⟨h1, h2, h3, -, -⟩ := h
  simp [issueLate, h1, h2, h3, hb, done]

/-- With no lookup outstanding no register is busy. -/
theorem State.regBusy_fetch (s : State) (t : Nat) (rs : List Reg) (h : s.issues t) :
    (s.fetchLine t).regBusy t rs = false := by
  have ht : (s.fetchLine t).tr t = s.tr t := by
    unfold State.tr
    rw [(State.fetchLine_reads s t).2.1]
  simp [State.regBusy, ht, h.2.2.2.1]

theorem issueRegs_some (s : State) (t : Nat) (rs : List Reg) (body : State → Option State) (u : State)
    (h : s.issues t) (hb : body (s.fetchLine t) = some u) : issueRegs t rs body s = .next (u.issued t) := by
  unfold issueRegs issue
  exact issue_some s t _ _ u h (by rw [State.regBusy_fetch s t rs h]; simpa using hb)

theorem issueRegsLate_some (s : State) (t : Nat) (rs : List Reg) (late : State → Option (Nat × Nat))
    (body : State → Option State) (u : State) (h : s.issues t) (hb : body (s.fetchLine t) = some u) :
    issueRegsLate t rs late body s = .next (u.issued t) := by
  unfold issueRegsLate
  exact issue_some s t _ _ u h (by rw [State.regBusy_fetch s t rs h]; simpa using hb)

/-- Outside a debug step, an instruction that has acted leaves only its thread's issue marks. -/
theorem State.issued_calm (s : State) (t : Nat) (h : (s.tr t).stepLeft = none) :
    s.issued t = s.updTr t fun x => { x with skipBreak := false, starve := 0, late := none, stalled := false, stepLeft := none } := by
  have e : (s.updTr t fun x => { x with
      skipBreak := false, starve := 0, late := none, stalled := false
      stepLeft := if x.wait = .none then x.stepLeft.map (· - 1) else x.stepLeft })
      = s.updTr t fun x => { x with skipBreak := false, starve := 0, late := none, stalled := false, stepLeft := none } := by
    unfold State.updTr
    simp [h]
  unfold State.issued
  dsimp only
  rw [e]
  unfold State.stepCheck
  rw [if_neg]
  simp only [State.updTr_tr]
  simp

end Sys2Proof.Machine
end

