-- ==== Sys2Proof/Laws/Memory.lean ====
section
/-!
SUPPORT. Laws of HBM contents: a read after a write, that a write leaves every other byte alone, and that every memory
operation keeps the canonical form.
-/

namespace Sys2Proof.Machine

@[simp] theorem HbmMem.byte_setByte (m : HbmMem) (a j : Nat) (b : Byte) :
    (m.setByte a b).byte j = if j = a then b else m.byte j := SMap.get_set 0 m.cells a j b

@[simp] theorem HbmMem.setByte_poison (m : HbmMem) (a : Nat) (b : Byte) : (m.setByte a b).poison = m.poison := rfl
@[simp] theorem HbmMem.setByte_regions (m : HbmMem) (a : Nat) (b : Byte) : (m.setByte a b).regions = m.regions := rfl

@[simp] theorem HbmMem.write_poison (m : HbmMem) (a : Nat) (bs : List Byte) : (m.write a bs).poison = m.poison := by
  induction bs generalizing m a with
  | nil => rfl
  | cons b rest ih => simp [HbmMem.write, ih]

@[simp] theorem HbmMem.write_regions (m : HbmMem) (a : Nat) (bs : List Byte) : (m.write a bs).regions = m.regions := by
  induction bs generalizing m a with
  | nil => rfl
  | cons b rest ih => simp [HbmMem.write, ih]

/-- A write leaves the bytes below it alone. -/
theorem HbmMem.byte_write_below (m : HbmMem) (bs : List Byte) {a j : Nat} (h : j < a) :
    (m.write a bs).byte j = m.byte j := by
  induction bs generalizing m a with
  | nil => rfl
  | cons b rest ih =>
    rw [HbmMem.write, ih _ (Nat.lt_succ_of_lt h), HbmMem.byte_setByte, if_neg (Nat.ne_of_lt h)]

/-- What every byte reads after a write: the bytes written in their range, and what it read before elsewhere. -/
theorem HbmMem.byte_write (m : HbmMem) (bs : List Byte) (a j : Nat) :
    (m.write a bs).byte j = if a ≤ j ∧ j < a + bs.length then bs.getD (j - a) 0 else m.byte j := by
  induction bs generalizing m a with
  | nil =>
    have : ¬(a ≤ j ∧ j < a + ([] : List Byte).length) := by simp
    rw [if_neg this]
    rfl
  | cons b rest ih =>
    by_cases hj : j = a
    · subst hj
      rw [HbmMem.write, HbmMem.byte_write_below _ _ (Nat.lt_succ_self j)]
      simp
    · rw [HbmMem.write, ih, HbmMem.byte_setByte, if_neg hj]
      by_cases hin : a + 1 ≤ j ∧ j < a + 1 + rest.length
      · have h2 : a ≤ j ∧ j < a + (b :: rest).length := ⟨by omega, by simp only [List.length_cons]; omega⟩
        rw [if_pos hin, if_pos h2]
        have : j - a = (j - (a + 1)) + 1 := by omega
        rw [this]
        simp
      · have h2 : ¬(a ≤ j ∧ j < a + (b :: rest).length) := by simp only [List.length_cons]; omega
        rw [if_neg hin, if_neg h2]

@[simp] theorem HbmMem.byte_store (m : HbmMem) (a j : Nat) (bs : List Byte) :
    (m.store a bs).byte j = (m.write a bs).byte j := rfl
@[simp] theorem HbmMem.byte_mark (m : HbmMem) (a n j : Nat) : (m.mark a n).byte j = m.byte j := rfl
@[simp] theorem HbmMem.store_regions (m : HbmMem) (a : Nat) (bs : List Byte) : (m.store a bs).regions = m.regions := by
  simp [HbmMem.store]

/-- A read of a range just written gives the bytes written. -/
theorem HbmMem.read_store_self (m : HbmMem) (a : Nat) (bs : List Byte) : (m.store a bs).read a bs.length = bs := by
  apply List.ext_getElem
  · simp [HbmMem.read]
  · intro k h1 h2
    simp only [HbmMem.read, List.getElem_map, List.getElem_range, HbmMem.byte_store, HbmMem.byte_write]
    rw [if_pos ⟨Nat.le_add_right a k, by omega⟩]
    simp [List.getD, h2]

/-! ### The canonical form -/

theorem HbmMem.wf_setByte (m : HbmMem) (a : Nat) (b : Byte) (h : m.wf = true) : (m.setByte a b).wf = true :=
  SMap.wf_set 0 m.cells a b h

theorem HbmMem.wf_write (m : HbmMem) (a : Nat) (bs : List Byte) (h : m.wf = true) : (m.write a bs).wf = true := by
  induction bs generalizing m a with
  | nil => exact h
  | cons b rest ih => exact ih _ _ (HbmMem.wf_setByte m a b h)

theorem HbmMem.wf_store (m : HbmMem) (a : Nat) (bs : List Byte) (h : m.wf = true) : (m.store a bs).wf = true :=
  HbmMem.wf_write m a bs h

theorem HbmMem.wf_mark (m : HbmMem) (a n : Nat) (h : m.wf = true) : (m.mark a n).wf = true := h

/-- Contents dropped by range stay in canonical form. -/
theorem HbmMem.wf_drop (m : HbmMem) (f : Host.Cell → Bool) (h : m.wf = true) :
    ({ m with cells := m.cells.filter f } : HbmMem).wf = true := SMap.wf_filter 0 m.cells f h

theorem HbmMem.wf_putLine (m : HbmMem) (ln : Line) (h : m.wf = true) : (m.putLine ln).wf = true := by
  have key : ∀ (l : List Nat) (x : HbmMem), x.wf = true → (l.foldl (fun acc k =>
      if ln.dirty.getLsbD k then acc.setByte (64 * ln.no + k) (ln.data.getD k 0) else acc) x).wf = true := by
    intro l
    induction l with
    | nil => exact fun _ hx => hx
    | cons k rest ih =>
      intro x hx
      refine ih _ ?_
      dsimp only
      split
      · exact HbmMem.wf_setByte _ _ _ hx
      · exact hx
  unfold HbmMem.putLine
  dsimp only
  split
  · exact HbmMem.wf_mark _ _ _ (key _ m h)
  · exact key _ m h

/-- Memory at reset is in canonical form. -/
theorem HbmMem.wf_reset : State.reset.mem.wf = true := rfl

end Sys2Proof.Machine
end

