-- ==== Sys2Proof/Tests/Slice0.lean ====
section
/-!
SUPPORT. Tests. A theorem `wit_…` gives a state and operands that meet the hypotheses of an obligation, and mostly also what
the command then does; `test_…` checks one value; `smoke_…` checks well-formedness.
-/

open Sys2Proof Sys2Proof.Machine

namespace Sys2Proof.Tests

set_option Elab.async false

/-- A program image with a handler for every cause. -/
def img : Image := ⟨1, 0x1000, 0x1000, 0, [], List.replicate 16 0x8000001800, [], 0, false⟩

/-- READY with cluster 0 admitted; thread 0 runs packet 0 at the start of its text, with these registers. -/
def run (regs : SMap W64) : State :=
  { State.reset with
    dci := { st := .ready }
    trust := { images := [img], porst := false }
    clusters := [(0, { st := .admitted, version := 1, loaded := true })]
    thrs := [(0, { regs := regs, pc := 0x8000001000 })]
    truns := [(0, { cur := some 0 })]
    order := { pkts := [(0, { st := .run 0, accepted := true, hasSeq := true, tailIn := true, bytes := List.replicate 60 7 })], nextPkt := 1 } }

def after (o : Out) (p : State → Bool) : Bool :=
  match o with
  | .next u => p u
  | _ => false
/-! ### The Usoth instruction set -/

theorem wit_issues : (run []).issues 0 ∧ (run []).fetchHits 0 = False := by
  refine ⟨?_, ?_⟩
  · unfold State.issues; decide
  · unfold State.fetchHits; decide

/-- Values of R294-R296 by hand: wraps, sign changes, amounts over 63, fields at the ends of their ranges. -/
theorem test_alu : ∀ p ∈ [(Instr.addR 0 5 1 2, (0 : W64)), (.subR 0 5 2 1, 2), (.andnR 0 5 1 2, 0xFFFFFFFFFFFFFFFE),
    (.addwR 0 5 3 2, 0xFFFFFFFF80000000), (.subwR 0 5 0 2, 0xFFFFFFFFFFFFFFFF), (.sllR 0 5 2 4, 2), (.srlR 0 5 1 4, 0x7FFFFFFFFFFFFFFF),
    (.sraR 0 5 1 4, 0xFFFFFFFFFFFFFFFF), (.rorR 0 5 2 4, 0x8000000000000000), (.cltR 0 5 1 2, 1), (.cltuR 0 5 1 2, 0),
    (.cleR 0 5 2 2, 1), (.cbsR 0 5 4 4, 0), (.cbcR 0 5 4 4, 1), (.minR 0 5 1 2, 0xFFFFFFFFFFFFFFFF), (.maxuR 0 5 1 2, 0xFFFFFFFFFFFFFFFF),
    (.mulR 0 5 1 1, 1), (.mulhuR 0 5 1 1, 0xFFFFFFFFFFFFFFFE), (.mulhR 0 5 1 1, 0), (.bswap16 0 5 6, 0x4433),
    (.bswap32 0 5 6, 0x44332211), (.bswap64 0 5 6, 0x4433221100FFEEDD), (.popc 0 5 1, 64), (.clz 0 5 0, 64), (.ctz 0 5 0, 64),
    (.clz 0 5 3, 33), (.addi 0 5 2 0xFFFF, 0), (.andi 0 5 1 0x8000, 0x8000), (.shlori 0 5 1 0x1234, 0xFFFFFFFFFFFF1234),
    (.clti 0 5 1 0, 1), (.cltui 0 5 1 0xFFFF, 0), (.extu 0 5 6 8 7, 0x33), (.exts 0 5 1 63 0, 0xFFFFFFFFFFFFFFFF),
    (.insF 0 6 1 60 3, 0xFDEEFF0011223344)],
    after (exec p.1 (run [(1, 0xFFFFFFFFFFFFFFFF), (2, 1), (3, 0x7FFFFFFF), (4, 65), (6, 0xDDEEFF0011223344)]))
      (fun u => u.reg 0 (match p.1 with | .insF .. => 6 | _ => 5) = p.2 && (u.thr 0).pc = 0x8000001004) = true := by decide +kernel

/-- A field past bit 63 and TRET in program mode: the vectors of UNDEF_INSTR and ACCESS (R296, R324). -/
theorem wit_fieldTrap : (run []).issues 0 ∧ ((run []).thr 0).handler = false ∧ (run []).vector 0 1 ≠ 0 ∧ (run []).vector 0 5 ≠ 0
    ∧ after (exec (.extu 0 5 6 32 32) (run [])) (fun u => (u.thr 0).pc = 0x8000001800 && (u.thr 0).tcause = 1) = true
    ∧ after (exec (.tret 0) (run [])) (fun u => (u.thr 0).tcause = 5 && (u.thr 0).tdetail = 3) = true
    ∧ after (exec (.mts 0 1 0x13) (run [])) (fun u => (u.thr 0).tcause = 5) = true := by unfold State.issues; decide

theorem wit_branches : (run [(1, 0x8000001FFC)]).issues 0 ∧ ((run [(1, 0x8000001FFC)]).reg 0 1).toNat % 4 = 0
    ∧ (((run []).thr 0).lk).toNat % 4 = 0
    ∧ after (exec (.bz 0 0 0x1FFFFF) (run [])) (fun u => (u.thr 0).pc = 0x8000000FFC) = true
    ∧ after (exec (.jrl 0 1) (run [(1, 0x8000001FFC)])) (fun u => (u.thr 0).pc = 0x8000001FFC && (u.thr 0).lk = 0x8000001004) = true := by
  unfold State.issues; decide

theorem wit_alignTrap : ((run [(1, 0x4001)]).reg 0 1).toNat % 4 ≠ 0 ∧ ((run []).cl (clusterOf 0)).breaks = []
    ∧ (run []).vector 0 4 ≠ 0
    ∧ after (exec (.lh 0 5 1 0) (run [(1, 0x4001)])) (fun u => (u.thr 0).tcause = 4 && (u.thr 0).taddr = 0x4001) = true
    ∧ after (exec (.sd 0 5 1 3) (run [(1, 0x4001)])) (fun u => (u.thr 0).tcause = 4 && (u.thr 0).taddr = 0x4004) = true := by decide

/-- A word of a unit that is not fitted, and an operation code that unit 0 does not define (R326). -/
theorem wit_decodeTraps : usothDecode 0 0xCC000000 0 = .undef ∧ usothDecode 0 0xC000000F 0 = .refused 0
    ∧ (run []).vector 0 2 ≠ 0
    ∧ after (exec (.coprocUnfitted 0 0xCC000000) (run [])) (fun u => (u.thr 0).tcause = 1 && (u.thr 0).tdetail = 0xCC000000) = true
    ∧ after (exec (.coprocUnfitted 0 0xC000000F) (run [])) (fun u => (u.thr 0).tcause = 2 && (u.thr 0).tdetail = 0x100) = true := by
  decide +kernel

/-- The handler of a trap: it reads TCAUSE, sets TEPC and returns past the instruction (R281). -/
theorem wit_handler :
    let s := (run [(1, 0x8000001004)]).updThr 0 fun x => { x with handler := true, tcause := 7, tepc := 0x8000001000 }
    s.issues 0 ∧ (s.thr 0).handler = true ∧ after (exec (.mfs 0 5 0x09) s) (fun u => u.reg 0 5 = 7) = true
      ∧ after (exec (.mts 0 1 0x08) s) (fun u => (u.thr 0).tepc = 0x8000001004) = true
      ∧ after (exec (.tret 0) s) (fun u => (u.thr 0).pc = 0x8000001000 && !(u.thr 0).handler) = true := by
  unfold State.issues; decide

/-- The last granule of thread scratch, little-endian and in network order (R299). -/
theorem wit_scratch :
    let s := { run [(1, 0x7FF8), (2, 0x1122334455667788)] with scratch := [(0, { bytes := [(0x3FF8, 0x80), (0x3FFF, 1)] })] }
    s.issues 0 ∧ Claims.scratchRange s 0 (Claims.ea s 0 1 0) 8
      ∧ after (exec (.ld 0 5 1 0 none) s) (fun u => u.reg 0 5 = 0x0100000000000080) = true
      ∧ after (exec (.lb 0 5 1 0) s) (fun u => u.reg 0 5 = 0xFFFFFFFFFFFFFF80) = true
      ∧ after (exec (.ldn 0 5 1 0) s) (fun u => u.reg 0 5 = 0x8000000000000001) = true
      ∧ after (exec (.sdn 0 2 1 0) s) (fun u => Claims.scratchAt u 0 0x7FF8 = 0x11 && Claims.scratchAt u 0 0x7FFF = 0x88) = true := by
  unfold State.issues Claims.scratchRange; decide

/-- Uncached HBM: a region that may be written, its line fetched before (R260, R262). -/
def hbmRun (regs : SMap W64) : State :=
  let s := run regs
  { s with
    mem := { cells := [(0x2000, 5)], regions := [⟨0, 0, 0x10000, 16, 3⟩] }
    cores := [(0, { l1i := [(64 % 128 * 4, 65)] })] }

theorem wit_uncached :
    let s := hbmRun [(1, 0xC000002000), (2, 0x0102)]
    s.issues 0 ∧ s.fetchHits 0 ∧ (s.cl (clusterOf 0)).breaks = [] ∧ Claims.ea s 0 1 0 = uncachedBase + 0x2000
      ∧ (∃ r, s.mem.region 0x2000 = some r ∧ r.right = 3)
      ∧ after (exec (.shn 0 2 1 0) s) (fun u => u.mem.byte 0x2000 = 1 && u.mem.byte 0x2001 = 2) = true := by
  refine ⟨?_, ?_, rfl, by decide, ⟨_, rfl, rfl⟩, by decide⟩
  · unfold State.issues; decide
  · unfold State.fetchHits; decide

theorem wit_cachedStore :
    let s := hbmRun [(1, 0x8000002000), (2, 0x0102)]
    Claims.ea s 0 1 0 = cachedBase + 0x2000 ∧ s.sbRoom 0 = true ∧ (s.tr 0).maint = [] ∧ (s.cl (clusterOf 0)).breaks = []
      ∧ after (exec (.shn 0 2 1 0) s) (fun u => (u.tr 0).sb = [⟨0x2000, [1, 2]⟩] && u.mem = s.mem) = true := by decide +kernel

theorem wit_memLoad :
    let s := hbmRun [(1, 0xC000002000)]
    (match (s.fetchLine 0).memLoad 0 (Claims.ea s 0 1 0) 1 with
      | .ok bs v => (v.tr 0).stepLeft = none && bs = [5]
      | _ => false) = true := by decide +kernel
/-! ### Journal, lookups, weirs -/

theorem wit_jemit :
    let s := run [(1, 0x0107_0005_0007_FFFF), (2, 0x4000)]
    let a := s.reg 0 1
    s.issues 0 ∧ Claims.hasRoom s 0 3 ∧ Claims.bits a 0 32 < 524288 ∧ Claims.bits a 51 5 ≤ 16 ∧ Claims.bits a 56 5 = 1
      ∧ Claims.bits a 50 1 = 1 ∧ Claims.bits a 61 3 = 0 ∧ Claims.bits a 48 1 = 1 ∧ (s.scr (s.owner 0)).poison = []
      ∧ after (exec (.jemit 0 5 1 2) s) (fun u => (u.tr 0).run.used = 3 && u.reg 0 5 = 0) = true := by
  unfold State.issues Claims.hasRoom; decide +kernel

theorem wit_jdeliv_jfree :
    let s := run [(1, 5), (2, 0x00400003)]
    s.issues 0 ∧ Claims.hasRoom s 0 1 ∧ Claims.bits (s.reg 0 1) 40 24 = 0 ∧ Claims.bits (s.reg 0 2) 30 34 = 0
      ∧ 64 ≤ Claims.bits (s.reg 0 2) 16 14 ∧ Claims.bits (s.reg 0 1) 32 32 = 0
      ∧ after (exec (.jdeliv 0 5 1 2) s) (fun u => (u.tr 0).run.journal = [.deliver 0 5 false false 0 3 64]) = true
      ∧ after (exec (.jfree 0 5 1) s) (fun u => (u.tr 0).run.journal = [.free 0 5]) = true := by
  unfold State.issues Claims.hasRoom; decide +kernel

theorem wit_jtbl :
    let s := run [(1, 0x111080), (2, 0x4000)]
    s.issues 0 ∧ Claims.bits (s.reg 0 1) 24 40 = 0 ∧ Claims.bits (s.reg 0 1) 16 4 = 1 ∧ Claims.bits (s.reg 0 1) 20 4 = 1
      ∧ Claims.bits (s.reg 0 1) 12 4 ∈ [1, 2, 3, 6] ∧ Claims.hasRoom s 0 3 ∧ (s.scr (s.owner 0)).poison = []
      ∧ after (exec (.jtbl 0 5 1 2) s) (fun u => (u.tr 0).run.used = 3) = true := by
  unfold State.issues Claims.hasRoom; decide +kernel

theorem wit_jcnt :
    let s := run [(1, 0x01_0000_0000_03), (2, 9)]
    let s2 := s.updTr 0 fun x => { x with run := { x.run with journal := [.count 0 3 false 4 5], used := 1 } }
    s.issues 0 ∧ s2.issues 0 ∧ Claims.hasRoom s 0 1 ∧ Claims.bits (s.reg 0 1) 23 17 = 0 ∧ (s.tr 0).run.journal = []
      ∧ Claims.bits (s.reg 0 1) 0 22 = 3 ∧ (s2.tr 0).parent = none
      ∧ after (exec (.jcnt 0 5 1 2) s) (fun u => (u.tr 0).run.journal = [.count 0 3 false 1 9]) = true
      ∧ after (exec (.jcnt 0 5 1 2) s2) (fun u => (u.tr 0).run.journal = [.count 0 3 false 5 14] && (u.tr 0).run.used = 1) = true := by
  unfold State.issues Claims.hasRoom; decide +kernel

theorem wit_jledg :
    let s := run [(1, 0x1F_FFFF), (2, 9)]
    s.issues 0 ∧ Claims.hasRoom s 0 1 ∧ Claims.bits (s.reg 0 1) 21 43 = 0
      ∧ after (exec (.jledg 0 5 1 2) s) (fun u => (u.tr 0).run.journal = [.ledger 0 65535 15 true false 0 9]) = true := by
  unfold State.issues Claims.hasRoom; decide +kernel

theorem wit_jctx :
    let s := run [(1, 0x3FFFFFF), (2, 0x4000)]
    let s2 := s.updTr 0 fun x => { x with run := { x.run with
      journal := [.context 0 1 1, .context 1 2 1, .context 2 3 1, .context 3 4 1], used := 4 } }
    s.issues 0 ∧ s2.issues 0 ∧ (s.tr 0).cur = some 0 ∧ Claims.hasRoom s 0 1 ∧ Claims.bits (s.reg 0 1) 26 38 = 0
      ∧ (s.tr 0).run.held = [] ∧ (s.scr (s.owner 0)).poison = [] ∧ s2.vector 0 3 ≠ 0 ∧ Claims.bits (s2.reg 0 1) 0 24 ∉ [1, 2, 3, 4]
      ∧ after (exec (.jctx 0 5 1 2) s) (fun u => (u.tr 0).run.journal = [.context 0 0xFFFFFF 8]) = true
      ∧ after (exec (.jctx 0 5 1 2) s2) (fun u => (u.thr 0).tcause = 3 && (u.thr 0).tdetail = 1) = true := by
  unfold State.issues Claims.hasRoom; decide +kernel

theorem wit_lkp :
    let s := run [(1, 0x4000), (2, 0x1_4040_0080)]
    s.issues 0 ∧ s.lkpOk (s.reg 0 1) (s.reg 0 2) = true ∧ (s.scr (s.owner 0)).poison = []
      ∧ after (exec (.lkp 0 5 1 2) s) (fun u => (u.tr 0).lkps.length = 1 && (u.thr 0).pc = 0x8000001004) = true := by
  unfold State.issues; decide +kernel

theorem wit_weir :
    let s := run [(1, 7), (2, 100)]
    let s1 := { s with tables := { weirs := [(7, { mode := 1, cbs := 100, tc := 51200 })] } }
    let s2 := s1.updPkt 0 fun x => { x with refusal := some 5 }
    s.issues 0 ∧ s1.issues 0 ∧ s2.issues 0 ∧ (s1.weir 7).mode ≠ 0 ∧ (s2.pkt 0).refusal ≠ none
      ∧ Claims.bits (s.reg 0 1) 18 46 = 0 ∧ Claims.bits (s.reg 0 2) 27 37 = 0 ∧ Claims.bits (s.reg 0 2) 24 2 ≠ 3
      ∧ after (exec (.weir 0 5 1 2) s) (fun u => u.reg 0 5 = 0x200) = true
      ∧ after (exec (.weir 0 5 1 2) s1) (fun u => u.reg 0 5 = 0 && u.tables.debits.length = 1) = true
      ∧ after (exec (.weir 0 5 1 2) s2) (fun u => u.tables.debits = []) = true := by
  unfold State.issues; decide +kernel

/-! ### Tasks, channels, ordered sections and RETIRE -/

theorem wit_flags :
    let s := (run [(1, 6), (2, 4)]).updThr 0 fun x => { x with evflags := 4 }
    let s0 := run [(1, 6), (2, 1)]
    s.issues 0 ∧ s0.issues 0 ∧ s.released 0 = true ∧ (s.reg 0 1).toNat % 2048 / 128 = 0
      ∧ (s.cl (clusterOf 0)).task.lists = []
      ∧ after (exec (.waitev 0 5 1 2) s) (fun u => u.reg 0 5 = 4 && (u.thr 0).evflags = 0) = true
      ∧ after (exec (.waitev 0 5 1 2) s0) (fun u => (u.tr 0).wait = .waitev 5 6 true 0) = true
      ∧ after (exec (.park 0 5 1 2) s0) (fun u => (u.tr 0).wait = .park 5 6 1) = true
      ∧ after (exec (.park 0 5 0 2) s) (fun u => u.reg 0 5 = 1) = true
      ∧ after (exec (.setev 0 1 2) s) (fun u => (u.thr 6).evflags = 4) = true
      ∧ after (exec (.delay 0 5 1 2) s) (fun u => SMap.get [] (u.cl 0).task.lists 0 = [⟨6, 0, 4, 0⟩]) = true := by
  unfold State.issues; decide +kernel

theorem wit_delayFull :
    let s := (run [(1, 6), (2, 0x300)]).updCl 0 fun k => { k with
      task := { lists := [(3, List.replicate 1024 ⟨9, 1, 0, 0⟩)] } }
    s.issues 0 ∧ 1024 ≤ (SMap.get [] (s.cl (clusterOf 0)).task.lists ((s.reg 0 2).toNat / 256 % 4)).length
      ∧ after (exec (.delay 0 5 1 2) s) (fun u => u.reg 0 5 = 1 && (u.thr 0).pc = 0x8000001004) = true := by
  unfold State.issues; decide +kernel

theorem wit_fork :
    let s := { run [(1, 0x8000001100), (2, 77)] with cores := [(0, { workThreads := 4 })] }
    s.issues 0 ∧ s.freePool (coreOf 0) = some 4 ∧ (s.tr 0).sb = [] ∧ (run []).freePool 0 = none
      ∧ after (exec (.fork 0 5 1 2) s) (fun u => u.reg 0 5 = 5 && (u.tr 4).parent = some 0 && u.reg 4 1 = 77) = true
      ∧ after (exec (.fork 0 5 0 2) (run [])) (fun u => u.reg 0 5 = 0 && (u.thr 0).pc = 0x8000001004) = true := by
  unfold State.issues; decide +kernel

theorem wit_join_end :
    let s := { run [(1, 5)] with cores := [(0, { workThreads := 4 })] }
    let s1 := s.updTr 0 fun x => { x with children := [⟨4, some 9⟩] }
    let s2 := s.updTr 0 fun x => { x with children := [⟨4, none⟩] }
    let s3 := (s2.updTr 4 fun x => { x with parent := some 0 }).updThr 4 fun x => { x with pc := 0x8000001000, regs := [(1, 3)] }
    s1.issues 0 ∧ s2.issues 0 ∧ s3.issues 4 ∧ s1.child 0 5 = some ⟨4, some 9⟩ ∧ s2.child 0 5 = some ⟨4, none⟩
      ∧ s3.released 4 = true ∧ (s3.tr 0).children = [⟨4, none⟩]
      ∧ after (exec (.join 0 5 1) s1) (fun u => u.reg 0 5 = 9) = true
      ∧ after (exec (.join 0 5 1) s2) (fun u => (u.tr 0).wait = .join 5 5) = true
      ∧ after (exec (.endI 4) s3) (fun u => (u.tr 0).children = [⟨4, some 3⟩] && (u.tr 4).parent = none) = true := by
  unfold State.issues; decide +kernel

theorem wit_channels :
    let s := run [(1, 255), (2, 9)]
    let s1 := s.updTr 0 fun x => { x with staged := some (255, [1, 2]) }
    let s2 := { s with clusters := [(0, { s.cl 0 with chans := [(255, { msgs := [⟨[7, 8], 0, none⟩] })] })] }
    s.issues 0 ∧ s1.issues 0 ∧ s2.issues 0 ∧ s.chan 0 255 = {} ∧ (s.tr 0).staged = none ∧ s1.released 0 = true
      ∧ (s2.chan 0 255).msgs = [⟨[7, 8], 0, none⟩]
      ∧ after (exec (.chput 0 5 1 2) s) (fun u => (u.tr 0).staged = some (255, [9])) = true
      ∧ after (exec (.chput 0 5 1 2) s1) (fun u => (u.tr 0).staged = some (255, [1, 2, 9])) = true
      ∧ after (exec (.chend 0 5 1) s1) (fun u => (u.chan 0 255).msgs = [⟨[1, 2], 0, none⟩]) = true
      ∧ after (exec (.chget 0 5 1) s2) (fun u => u.reg 0 5 = 7 && (u.chan 0 255).msgs = [⟨[8], 1, some 0⟩]) = true
      ∧ after (exec (.chget 0 5 1) s) (fun u => (u.chan 0 255).consumers = [0]) = true
      ∧ after (exec (.chpoll 0 5 1) s) (fun u => u.reg 0 5 = 0x400) = true := by
  unfold State.issues; decide +kernel

theorem wit_sections :
    let s := run []
    let s1 := s.updTr 0 fun x => { x with run := { x.run with held := [3] } }
    let s2 := { s with order := { s.order with
      pkts := [(0, { s.pkt 0 with seq := 1 }), (1, { s.pkt 0 with st := .listed, seq := 0 })] } }
    s.issues 0 ∧ s1.issues 0 ∧ s2.issues 0 ∧ s.mayEnter 0 3 = true ∧ s2.mayEnter 0 3 = false ∧ (s.tr 0).children = []
      ∧ s.released 0 = true ∧ (s.pkt 0).refusal = none ∧ s.order.pend = [] ∧ (s.tr 0).next = none
      ∧ after (exec (.orderEnter 0 3) s) (fun u => (u.tr 0).run.held = [3]) = true
      ∧ after (exec (.orderEnter 0 3) s2) (fun u => (u.tr 0).wait = .orderEnter 3) = true
      ∧ after (exec (.orderExit 0 3) s1) (fun u => (u.tr 0).run.held = [] && (u.tr 0).run.passed = [3]) = true
      ∧ after (exec (.retire 0 1) s) (fun u => u.order.pend.length = 1 && (u.tr 0).cur.isNone) = true := by
  unfold State.issues; decide +kernel

/-! ### Helpers, strings, REP, caches -/

/-- CSUM of 0xFFFF twice and 1 folds to 1; HRANGE of half the range (R336, R338). -/
theorem wit_short :
    let s := run [(1, 0xFFFF), (2, 0x0000_0001_FFFF_0000), (3, 0x80000000)]
    let s1 := { s with cores := [(0, { helperOff := 1 })] }
    s.issues 0 ∧ s1.issues 0 ∧ s.helperOff 0 0 = false ∧ s.unitBusy 0 0 = false ∧ s.helperOff 0 2 = false ∧ s.unitBusy 0 2 = false
      ∧ s1.helperOff 0 0 = true ∧ s1.vector 0 2 ≠ 0
      ∧ after (exec (.csum 0 5 1 2) s) (fun u => u.reg 0 5 = 1) = true
      ∧ after (exec (.hrange 0 5 3 1) s) (fun u => u.reg 0 5 = 0x7FFF) = true
      ∧ after (exec (.csum 0 5 1 2) s1) (fun u => (u.thr 0).tcause = 2 && (u.thr 0).tdetail = 0x200) = true := by
  unfold State.issues; decide +kernel

theorem wit_tplz :
    let s := run [(1, 0), (2, 0x340)]
    s.issues 0 ∧ Claims.bits (s.reg 0 2) 10 54 = 0 ∧ Claims.bits (s.reg 0 2) 4 6 = 52 := by unfold State.issues; decide +kernel

theorem wit_long :
    let s := { run [(24, 0x4000), (25, 0x4000), (26, 4)] with scratch := [(0, { bytes := [(0, 0xFF), (1, 0xFF), (3, 2)] })] }
    let s1 := s.updTr 0 fun x => { x with wait := .long 0 5 0 .csumm }
    s.issues 0 ∧ Claims.longOver s 0 ∧ Claims.longOver s1 0
      ∧ after (exec (.csumm 0 5 0) s) (fun u => (u.tr 0).wait = .long 0 5 0 .csumm) = true
      ∧ after (exec (.longOpDone 0) s1) (fun u => u.reg 0 5 = 2 && u.reg 0 24 = 0x4004 && u.reg 0 26 = 0) = true := by
  unfold State.issues Claims.longOver; decide +kernel

theorem wit_strings :
    let s := { run [(24, 0x4000), (25, 0x4008), (26, 16), (1, 0xFF)] with scratch := [(0, { bytes := [(0, 1), (8, 2)] })] }
    s.issues 0 ∧ Claims.stringOver s 0 8 ∧ Claims.stringOver s 0 1
      ∧ after (exec (.bcopy 0 3) s) (fun u => Claims.scratchAt u 0 0x4010 = 2 && u.reg 0 26 = 8 && u.reg 0 24 = 0x4000) = true
      ∧ after (exec (.bcmp 0 0 5) s) (fun u => u.reg 0 5 = 1 && (u.thr 0).pc = 0x8000001004) = true
      ∧ after (exec (.bfill 0 0 1) s) (fun u => Claims.scratchAt u 0 0x4008 = 0xFF && u.reg 0 26 = 15) = true
      ∧ after (exec (.bfind 0 3 true 5 0 1) s) (fun u => u.reg 0 5 = 1) = true := by
  unfold State.issues Claims.stringOver; decide +kernel

/-- Ranges that do not overlap are copied from the bottom up (R305). -/
theorem wit_bcopyUp :
    let s := { run [(24, 0x4000), (25, 0x4100), (26, 8)] with scratch := [(0, { bytes := [(0, 1)] })] }
    s.issues 0 ∧ Claims.stringOver s 0 8
      ∧ after (exec (.bcopy 0 3) s) (fun u => Claims.scratchAt u 0 0x4100 = 1 && u.reg 0 24 = 0x4008
        && (u.thr 0).pc = 0x8000001004) = true := by unfold State.issues Claims.stringOver; decide +kernel

theorem test_bcmp_order :
    let s := { run [(24, 0x4000), (25, 0x4008), (26, 1)] with scratch := [(0, { bytes := [(0, 3), (8, 2)] })] }
    after (exec (.bcmp 0 0 5) s) (fun u => u.reg 0 5 = 2) = true ∧ after (exec (.bcmp 0 0 5) (run [(24, 0x4000), (25, 0x4008), (26, 1)]))
      (fun u => u.reg 0 5 = 0 && (u.thr 0).pc = 0x8000001004) = true := by decide +kernel

/-- REP ADDI with the largest immediate count, with a register count over 64, and interruptible (R301-R303). -/
theorem wit_rep :
    let s := run [(1, 100)]
    s.issues 0 ∧ (2 : Nat) ≤ (s.reg 0 1).toNat
      ∧ after (exec (.rep 0 0x9C00003F (wordI 1 5 5 1)) s) (fun u => u.reg 0 5 = 64 && (u.thr 0).pc = 0x8000001008) = true
      ∧ after (exec (.rep 0 0x9D010000 (wordI 1 5 5 1)) s) (fun u => u.reg 0 5 = 64 && u.reg 0 1 = 36) = true
      ∧ after (exec (.rep 0 0x9F010000 (wordI 1 5 5 1)) s) (fun u => u.reg 0 5 = 1 && u.reg 0 1 = 99 && (u.thr 0).pc = 0x8000001000) = true := by
  unfold State.issues; decide +kernel

theorem wit_cacheOps :
    let s := hbmRun [(1, 0x8000002000)]
    s.issues 0 ∧ Claims.ea s 0 1 0 / 64 = cachedBase / 64 + 128 ∧ (∃ r, s.mem.region 0x2000 = some r ∧ r.right = 3)
      ∧ (s.tr 0).maint = [] ∧ (s.core 0).wb = [] ∧ (s.core 0).mshr = [] ∧ (s.core 0).l1d = []
      ∧ after (exec (.cflush 0 false 1 0) s) (fun u => (u.tr 0).maint = [128]) = true
      ∧ (s.tr 0).sb = [] ∧ (s.core 0).posted = [] ∧ 1 ≤ (s.core 0).capMshr ∧ 1 ≤ (s.core 0).capWb ∧ (s.core 0).pfRoom 0 = true
      ∧ (s.l2Filling (clusterOf 0)).length < 64
      ∧ after (exec (.czero 0 false 1 0) s) (fun u => ((u.core 0).line 128).isSome) = true
      ∧ after (exec (.cpref 0 false 1 0) s) (fun u => (u.core 0).mshr.map (·.line) = [128]) = true
      ∧ after (exec (.czero 0 true 0 0x4000) s) (fun u => (u.thr 0).pc = 0x8000001004 && u.scratch = s.scratch) = true := by
  refine ⟨?_, by decide, ⟨_, rfl, rfl⟩, ?_⟩
  · unfold State.issues; decide
  · decide +kernel
theorem wit_crypto :
    let s := { run [(24, 0x4000), (25, 0x4000), (26, 16)] with
      keys := [(0, { alg := 1, key := List.replicate 16 1 })]
      locks := { locks := [(4072, { holder := some (.thread 0), gen := 1 })] } }
    s.issues 0 ∧ Claims.longOver s 0 ∧ s.cryptoBad 0 4 0 = none ∧ s.unitBusy 0 (3 + s.cryptoUnit 0 0) = false
      ∧ (s.reg 0 25).toNat = (s.reg 0 24).toNat
      ∧ after (exec (.gctrEnc 0 4 0) s) (fun u => (u.tr 0).wait = .long 3 4 0 (.gctr true 1 (List.replicate 16 1))) = true := by
  unfold State.issues Claims.longOver; decide +kernel

/-! ### Wakes and timers -/

theorem wit_wakes :
    let s := run [(1, 5)]
    let w := fun (x : Wait) => s.updTr 0 fun r => { r with wait := x }
    let s1 := (w (.waitev 5 4 false 0)).updThr 0 fun x => { x with evflags := 4 }
    let s2 := (w (.park 5 0 4)).updThr 0 fun x => { x with evflags := 4 }
    let s3 := { w (.park 5 1024 0) with time := { ns := 1024 } }
    let s4 := (w (.join 5 8)).updTr 0 fun x => { x with children := [⟨7, some 3⟩] }
    let s5 := { w (.chget 5 9) with clusters := [(0, { s.cl 0 with chans := [(9, { msgs := [⟨[6], 0, none⟩], consumers := [0] })] })] }
    let s6 := { w (.chput 5 9 6) with clusters := [(0, { s.cl 0 with chans := [(9, { producers := [0] })] })] }
    let s7 := w (.orderEnter 2)
    Claims.running s1 0 ∧ Claims.running s3 0 ∧ s4.child 0 8 = some ⟨7, some 3⟩ ∧ s7.mayEnter 0 2 = true
      ∧ s5.chan 0 9 = { msgs := [⟨[6], 0, none⟩], consumers := [0] } ∧ s6.chan 0 9 = { producers := [0] }
      ∧ after (exec (.waitevWake 0) s1) (fun u => u.reg 0 5 = 4 && (u.tr 0).wait = .none) = true
      ∧ after (exec (.parkWake 0) s2) (fun u => u.reg 0 5 = 1) = true
      ∧ after (exec (.parkWake 0) s3) (fun u => u.reg 0 5 = 2) = true
      ∧ after (exec (.joinWake 0) s4) (fun u => u.reg 0 5 = 3) = true
      ∧ after (exec (.chgetWake 0) s5) (fun u => u.reg 0 5 = 6) = true
      ∧ after (exec (.chputReserveWake 0) s6) (fun u => u.reg 0 5 = 0 && (u.tr 0).wait = .none) = true
      ∧ after (exec (.orderEnterWake 0) s7) (fun u => (u.tr 0).run.held = [2]) = true := by
  unfold Claims.running; decide +kernel

theorem wit_lkpComplete :
    let s := (run []).updTr 0 fun x => { x with lkps := [⟨0, 5, 0x200, [0, 0, 0, 0, 0, 0, 0, 0], 0x4000, 16, false⟩] }
    Claims.running s 0 ∧ (s.tr 0).lkps.length = 1 ∧ s.tables.overlay = []
      ∧ after (exec (.lkpComplete 0 0 false) s) (fun u => (u.tr 0).lkps = []) = true := by
  unfold Claims.running; decide +kernel

theorem wit_timers :
    let s := { run [] with time := { ns := 1024 }, clusters := [(0, { (run []).cl 0 with
      task := { lists := [(0, [⟨1024, 3, 31, 0⟩])], holdSince := some 24 } })] }
    let s1 := s.updTr 0 fun x => { x with wdCount := 262144, starve := 1024 }
    (s.cl 0).task.lists = [(0, [⟨1024, 3, 31, 0⟩])] ∧ (s.cl 0).task.tick0 = 10 ∧ SMap.get 0 (s.cl 0).task.tickDt 0 < s.dt / 1024 * 1024 ∧ (s1.tr 0).wdBudget ≤ (s1.tr 0).wdCount ∧ (s1.tr 0).wdGrace = false
      ∧ s1.vector 0 7 ≠ 0 ∧ s1.issuable 0 = true
      ∧ after (exec (.delayTick 0 0) s) (fun u => (u.thr 3).evflags = 0x80000000 && (u.cl 0).task.lists = []) = true
      ∧ after (exec (.watchdogExpiry 0) s1) (fun u => (u.thr 0).tcause = 7 && (u.tr 0).wdGrace) = true
      ∧ after (exec (.starveGrant 0) s1) (fun u => (u.core 0).starveGrants = 1) = true := by decide +kernel

/-- A cluster whose one thread waits for flags that nothing will set (R365). -/
theorem wit_detector :
    let s := { (run []).updTr 0 fun x => { x with wait := .waitev 5 1 false 0 } with
      time := { ns := 2000 }
      clusters := [(0, { (run []).cl 0 with task := { holdSince := some 1000 } })] }
    s.detHolds 0 = true ∧ (s.cl 0).task.ready = true ∧ 1000 + 1000 ≤ s.dt
      ∧ after (exec (.deadlockDetect 0) s) (fun u => !(u.cl 0).task.ready) = true := by decide +kernel

/-! ### The memory system -/

theorem wit_lineFill :
    let m : Mshr := ⟨128, 0, false, true, false, []⟩
    let s := { hbmRun [] with cores := [(0, { mshr := [m] })] }
    let s1 := s.updTr 0 fun x => { x with wait := .fill 5 .bu 0x2000 }
    (s.core 0).mshr = [m] ∧ (∀ t ∈ coreThreads 0, (s.tr t).wait = .none) ∧ (s1.tr 0).wait = .fill 5 .bu 0x2000
      ∧ (∀ t ∈ coreThreads 0, t ≠ 0 → (s1.tr t).wait = .none) ∧ 0 ∈ coreThreads 0 ∧ s.l2Has 0 128 = false
      ∧ s.mem.poisoned 0x2000 64 = false
      ∧ after (exec (.lineFill 0 128 false) s) (fun u => ((u.core 0).line 128).isSome) = true
      ∧ after (exec (.lineFill 0 128 false) s1) (fun u => u.reg 0 5 = 5 && (u.tr 0).wait = .none) = true := by decide +kernel

theorem wit_writeback :
    let ln : Line := ⟨128, List.replicate 64 9, 1, false⟩
    let s := { hbmRun [] with cores := [(0, { wb := [⟨ln, 0, true⟩] })] }
    let s1 := { (hbmRun []).updTr 0 fun x => { x with sb := [⟨0x2000, [7]⟩] } with cores := [(0, { l1d := [(0, some ln)] })] }
    let s2 := s1.updTr 0 fun x => { x with sb := [], maint := [128] }
    (s.core 0).wb.length = 1 ∧ (s1.core 0).line 128 = some ln ∧ (s2.core 0).mshr = []
      ∧ after (exec (.writebackAck 0 128) s) (fun u => (u.core 0).wb = [] && u.l2Has 0 128) = true
      ∧ after (exec (.storeBufferDrain 0) s1) (fun u => (u.tr 0).sb = []) = true
      ∧ after (exec (.cacheMaintDone 0) s2) (fun u => (u.tr 0).maint = []) = true := by decide +kernel

/-! ### Locks -/

theorem wit_locks :
    let s := run []
    let held := fun (e : LockEnt) => { s with locks := { locks := [(0, e)] } }
    let s1 := held { holder := some .pumphouse, gen := 1 }
    let w : LkWaiter := ⟨.thread 0, 5, false, 0, 0, 0⟩
    let s2 := { (held { holder := some .pumphouse, gen := 1, waiters := [w] }).updTr 0 fun x => { x with wait := .lock 0 } with
      time := { cycles := 0 } }
    s.issues 0 ∧ s1.issues 0 ∧ s.lockRight .pumphouse 0 = true ∧ s.lockRight (.thread 0) 0 = true ∧ (s.lock 0).holder = none
      ∧ s1.lockWaiters < 2048 ∧ (s2.lock 0).waiters = [w] ∧ Claims.running s2 0
      ∧ after (exec (.lockAcquire (.thread 0 5) 0) s) (fun u => (u.lock 0).holder = some (.thread 0) && u.reg 0 5 = 0x100000001) = true
      ∧ after (exec (.lockTry .pumphouse 0) s) (fun u => (u.lock 0).holder = some .pumphouse) = true
      ∧ after (exec (.lockAcquire (.thread 0 5) 0) s1) (fun u => (u.tr 0).wait = .lock 0) = true
      ∧ after (exec (.lockRelease .pumphouse 0) s1) (fun u => (u.lock 0).holder = none) = true
      ∧ after (exec (.lockClear .pumphouse 0) s1) (fun u => (u.lock 0).holder = some .pumphouse) = true
      ∧ after (exec (.lockRelease .pumphouse 0) s2) (fun u => (u.lock 0).holder = some (.thread 0) && (u.lock 0).gen = 2) = true
      ∧ after (exec (.lockWaitTimeout 0) s2) (fun u => (u.reg 0 5).getLsbD 2 && (u.tr 0).wait = .none) = true := by
  unfold State.issues Claims.running; decide +kernel

theorem wit_bufferPort :
    let s := run []
    let s1 := s.updTr 0 fun x => { x with run := { x.run with bufs := List.range 16 } }
    s.issues 0 ∧ s1.issues 0 ∧ (s.cl (clusterOf 0)).st ≠ .draining ∧ (s.core 0).retired = false
      ∧ (s1.tr (s1.owner 0)).run.bufs.length = 16
      ∧ ((s.fetchLine 0).allocCells 16 [entCluster 0] 40 []).2.1.isSome = true
      ∧ after (exec (.bufferPortLoad 0 5 40) s) (fun u => (u.tr 0).run.bufs.length = 1 && (u.reg 0 5).getLsbD 32) = true
      ∧ after (exec (.bufferPortLoad 0 5 1) s1) (fun u => u.reg 0 5 = 0x6FFFFFFFF) = true
      ∧ after (exec (.bufferPortLoad 0 5 1) (s.updCl 0 fun k => { k with st := .draining })) (fun u => u.reg 0 5 = 0x8FFFFFFFF) = true
      ∧ after (exec (.bufferPortLoad 0 5 1) { s with basin := { ents := [(entCluster 0, { min := 0, max := 0, alpha := 0 })] } })
        (fun u => u.reg 0 5 = 0x2FFFFFFFF) = true := by
  unfold State.issues; decide +kernel

theorem wit_yield :
    let s := run []
    let a := { s.pkt 0 with st := .listed }
    let s1 := { s.updTr 0 fun x => { x with cur := some 1, wait := .orderEnter 0 } with
      time := { ns := 100 }
      order := { s.order with pkts := [(0, a), (1, { a with st := .run 0, seq := 1 })], list := [0] } }
    s1.domPkts 0 = [0, 1] ∧ seqBefore (s1.pkt 0).seq (s1.pkt 1).seq = true ∧ (s1.pkt 0).refusal = none
      ∧ (s1.pkt 1).refusal = none ∧ (s1.rc 0).heldFrag = false ∧ (s1.rc 0).listDt + 100 ≤ s1.dt ∧ (s1.pkt 1).st = .run 0
      ∧ (s1.tr 0).wait = .orderEnter 0 ∧ (s1.tr 0).halted = none ∧ (s1.tr 0).enterDt + 100 ≤ s1.dt ∧ s1.order.fence = none
      ∧ s1.yieldPair 0 = some (0, 1, 0)
      ∧ after (exec (.orderYield 0) s1) (fun u => (u.tr 0).cur = some 0 && u.order.cnt.orderYield = 1) = true := by decide +kernel

theorem wit_storeRoom :
    let s := { run [] with order := { (run []).order with storeWait := [⟨0, none, {}, 0, some 5⟩] } }
    s.storeRoom 0 0 = some false
      ∧ after (exec .pendingStoreRoom s) (fun u => u.order.pend.length = 1 && u.order.storeWait = []) = true := by decide +kernel

/-! ### HBM -/

/-- The HBM in use: both stacks active, one region of the cistern. -/
def hbmOn : State :=
  { State.reset with
    dci := { st := .ready }
    hbm := { stackA := { mode := .active }, stackB := { mode := .active } }
    mem := { cells := [(0x2000, 5)], regions := [⟨0, 0, 0x10000000, 28, 3⟩] } }

theorem wit_hbmRequest :
    (hbmOn.stack 0).mode ≠ .training ∧ hbmAllowed 2 0 = true ∧ (hbmOn.hbmPlace 0x2000).isSome = true
      ∧ hbmOn.mem.region 0x2000 = some ⟨0, 0, 0x10000000, 28, 3⟩ ∧ hbmOn.mem.region 0x10000000 = none
      ∧ after (exec (.hbmRequest 2 0x2000 32 false []) hbmOn) (fun u =>
        (u.pc ((hbmOn.hbmPlace 0x2000).getD (0, 0)).1).queue.length = 1) = true
      ∧ after (exec (.hbmRequest 2 0x10000000 32 false []) hbmOn) (fun u => u.hbm.stray = 1
        && SMap.get [] u.hbm.answers 2 = [(0x10000000, List.replicate 32 0xFF, false)]) = true := by decide +kernel

theorem wit_hbmIssue :
    let q := fun (r : HbmReq) => { hbmOn with hbm := { hbmOn.hbm with pcs := [(0, { queue := [r] })] } }
    let r : HbmReq := ⟨2, [(0x2000, 32)], false, [], 0⟩
    let w : HbmReq := ⟨2, [(0x2000, 32)], true, List.replicate 32 9, 0⟩
    let w16 := { hbmOn with hbm := { hbmOn.hbm with pcs := [(0, { queue := [w], batch := some 0 })] } }
    (q r).pcRuns 0 = true ∧ (q r).chooseReq 0 = some r ∧ w16.chooseReq 0 = some w
      ∧ after (exec (.hbmIssue 0 .none) (q r)) (fun u => SMap.get 0 u.hbm.portReqs 2 = 1 && u.mem = hbmOn.mem) = true
      ∧ after (exec (.hbmIssue 0 .none) w16) (fun u => u.mem.byte 0x201F = 9 && u.mem.byte 0x2020 = 0) = true := by decide +kernel

theorem wit_hbmUpkeep :
    let pc := fun (p : PcSt) => { hbmOn with hbm := { hbmOn.hbm with pcs := [(0, p)] }, time := { ns := 64000000 } }
    let s := pc { banks := [(3, { isOpen := true, postponed := 8 })], trainTemp := 10 }
    (((s.pc 0).bank 3).isOpen = true) ∧ ((s.pc 0).bank 3).lastNs + s.hbm.rowTimeout ≤ s.iv ∧ s.pcRuns 0 = true
      ∧ (s.pc 0).queue = [] ∧ (s.pc 0).idleNs + 200 ≤ s.iv ∧ (s.pc 0).trackNs + 64000000 ≤ s.iv
      ∧ after (exec (.rowTimeout 0 3) s) (fun u => !((u.pc 0).bank 3).isOpen) = true
      ∧ after (exec (.refreshDue 0 3 false) s) (fun u => ((u.pc 0).bank 3).forced) = true
      ∧ after (exec (.refreshDue 0 3 true) s) (fun u => ((u.pc 0).bank 3).postponed = 0) = true
      ∧ after (exec (.refreshDue 0 4 false) s) (fun u => ((u.pc 0).bank 4).postponed = 1) = true
      ∧ after (exec (.hbmTempRead 0 95) s) (fun u => (u.stack 0).hot) = true
      ∧ after (exec (.pcPowerDown 0) s) (fun u => (u.pc 0).asleep) = true
      ∧ after (exec (.patrolScrub 0 .none) s) (fun u => (u.pc 0).scrubNext = 1) = true
      ∧ after (exec (.timingTrack 0) s) (fun u => (u.pc 0).trackNs = 64000000) = true := by decide +kernel

theorem wit_hbmRetrain :
    let s := { hbmOn with hbm := { hbmOn.hbm with stackA := { mode := .active, temp := 15 } } }
    s.pcRuns 0 = true ∧ (s.pc 0).trainTemp + 15 ≤ (s.stack (stackOf 0)).temp
      ∧ after (exec (.tempRetrain 0) s) (fun u => (u.pc 0).trainTemp = 15) = true := by decide +kernel

theorem wit_selfRefresh :
    let s := { hbmOn with
      time := { ns := 10000 }
      hbm := { hbmOn.hbm with pcs := (List.range 32).map fun k => (k, { scrubDt := 13000 }) } }
    s.selfRefreshAllowed = true ∧ (∀ p, p < 32 → (s.pc p).queue = [] ∧ (s.pc p).idleNs + 10000 ≤ s.iv) ∧ (∀ d ∈ s.stackEvents 0, d < s.dt ∨ s.dt + 2000 ≤ d) ∧ after (exec (.stackSelfRefresh 0) s) (fun u => (u.stack 0).mode = .selfRefresh) = true := by
  decide +kernel

/-- The device READY, with one command of host A accepted and due: its opcode and payload fields. -/
def due (s : State) (op : Nat) (fields : List (Nat × Nat)) : State :=
  let p := layout fields
  let e : CmdEntry := if p.length ≤ 48 then ⟨op, 0, 1, p.length, 0, 0, p⟩ else ⟨op, 1, 1, p.length, 0, 0, List.replicate 48 0 ++ p⟩
  { s with dci := { s.dci with
      st := .ready, journal := [⟨.hostA, e, true, false, false, none, [], 0⟩]
      lease := { holder := some .hostA, deadline := 10 ^ 15 } } }

def c0 : CmdRef := ⟨.hostA, 1⟩

/-- The status it was answered with. -/
def st (s : State) : Option Nat := (s.jcmd c0).bind fun j => j.resp.map (·.status)

/-- A command is due, and it is answered OK with this effect. -/
def okWith (s : State) (i : Instr) (p : State → Bool) : Bool := after (exec i s) fun u => decide (st u = some 0) && p u

/-- Port 0, a 1-lane port of mode 3 with a region of 16 KiB, is UP; every well has a graph. -/
def net (f : Port → Port) : State :=
  { hbmOn with net := {
      ports := [(0, f { lanes := 1, mode := 3, fec := 2, st := .up, enabled := true, link := { present := true, trained := true, anDone := true } })]
      wells := (List.range 8).map fun w => (w, { graphVer := some 0, regions := if w = 0 then [(0, 16)] else [] }) } }
/-- A device whose cistern region is 8 GiB. -/
def cisOn : State := { hbmOn with mem := { regions := [⟨6, 0, 8 * 1073741824, 33, 0⟩] } }

/-! ### HBM commands -/

theorem wit_hbmCommands :
    let s := due hbmOn
    (s 0x0C00 [(1, 0), (1, 0), (1, 0), (1, 0), (4, 64), (4, 64), (4, 64), (4, 2048), (4, 65536)]).accepts c0 0x0C00
        [(1, 0), (1, 0), (1, 0), (1, 0), (4, 64), (4, 64), (4, 64), (4, 2048), (4, 65536)]
      ∧ hbmOn.layoutFree = true
      ∧ partitionOf (64 * mib) (64 * mib) (64 * mib) (2048 * mib) (65536 * mib) ≠ hbmOn.mem.regions
      ∧ okWith (s 0x0C00 [(1, 0), (1, 0), (1, 0), (1, 0), (4, 64), (4, 64), (4, 64), (4, 2048), (4, 65536)])
        (.hbmPartition c0 0 0 0 0 [64, 64, 64, 2048, 65536]) (fun u => u.cistern.sizeGib = 64) = true
      ∧ okWith (s 0x0C02 [(1, 15), (1, 7), (4, 0), (2, 30)]) (.hbmQosSet c0 15 7 0 30) (fun u => u.hbm.rowTimeout = 30) = true
      ∧ okWith (s 0x0C03 [(1, 168), (4, 60000)]) (.hbmScrubConfig c0 168 60000) (fun u => u.hbm.scrubHours = 168) = true
      ∧ okWith (s 0x0C04 [(1, 63), (1, 3), (1, 15), (1, 0), (2, 32767)]) (.hbmRepair c0 63 3 15 0 32767 0)
        (fun u => u.hbm.soft = [63 * 2097152 + 63 * 32768 + 32767]) = true
      ∧ okWith (s 0x0C06 []) (.hbmStats c0) (fun _ => true) = true
      ∧ okWith (s 0x0C01 []) (.hbmPartitionRead c0) (fun _ => true) = true := by
  unfold State.accepts; decide +kernel

theorem wit_hbmDestroy :
    let s := { hbmOn with mem := { hbmOn.mem with cells := [(0x2000, 5), (0x20000005, 6)], regions := hbmOn.mem.regions ++ [⟨13, 0x20000000, 0x10000000, 28, 3⟩] } }
    let d := due s 0x0C00 [(1, 2), (1, 5), (1, 0), (1, 0)]
    d.accepts c0 0x0C00 [(1, 2), (1, 5), (1, 0), (1, 0)]
      ∧ (s.mem.regions.find? fun x => x.use = 8 + 5) = some ⟨13, 0x20000000, 0x10000000, 28, 3⟩
      ∧ (∀ x ∈ s.mem.regions, 8 ≤ x.use → 0x20000000 ≤ x.base)
      ∧ okWith d (.hbmPartition c0 2 5 0 0 []) (fun u => u.mem.cells = [(0x2000, 5)]) = true := by
  unfold State.accepts; decide +kernel

theorem wit_retirement :
    let m : Migration := ⟨3, c0, 0, 10, none⟩
    let b := { hbmOn with
      cistern := { sizeGib := 10, limit := 5120 }
      mem := { regions := [⟨0, 0, 0x280000000, 33, 3⟩] } }
    let d := due b 0x0C05 [(1, 3)]
    let s1 := { b with hbm := { b.hbm with migration := some m }, cistern := { b.cistern with shrinking := true } }
    d.accepts c0 0x0C05 [(1, 3)] ∧ 3 ∉ d.hbm.retired ∧ d.hbm.migration = none ∧ s1.cistern.usedBlocks = []
      ∧ s1.dci.st = .ready ∧ { s1 with time := { ns := 1000000000 } }.hbm.retireWaitMs * 1000000 ≤ 1000000000
      ∧ after (exec (.hbmPcRetire c0 3) d) (fun u => u.hbm.migration = some ⟨3, c0, 0, 10, none⟩ && u.cistern.shrinking) = true
      ∧ after (exec .retireDrainDone s1) (fun u => u.cistern.sizeGib = 8 && u.hbm.pools.length = 1) = true
      ∧ after (exec .retireWaitExpiry { s1 with time := { ns := 1000000000 } }) (fun u => u.hbm.migration = none) = true := by
  unfold State.accepts; decide +kernel

theorem wit_granules :
    let s := fun (l : List Nat) => { hbmOn with hbm := { hbmOn.hbm with
      migration := some ⟨3, c0, 0, 10, some l⟩, pools := [(0x200000000, 0x80000000)] } }
    ((s [6144]).spareGranules 3).length ≠ 0
      ∧ after (exec .granuleCopyDone (s [6144])) (fun u => u.hbm.migration = none && u.hbm.retired = [3]) = true
      ∧ after (exec .granuleCopyDone (s [6144, 6145])) (fun u => u.hbm.migration = some ⟨3, c0, 0, 10, some [6145]⟩) = true := by
  decide +kernel

/-! ### Tables -/

theorem wit_tableCommand :
    let s : State := { hbmOn with tables := { sets := [(0x800, { keys := [(0, 0x5_0000_0000_0001)], data := [(0, 9)] })] } }
    let w : W64 := 0x110070
    Claims.image w 7 1 1 0 ∧ (s.tset .pumphouse).status.getLsbD 0 = false
      ∧ l2Of (SMap.get 0 (s.tset .pumphouse).keys 0) (SMap.get 0 (s.tset .pumphouse).data 0) ≠ none
      ∧ (match l2Of (SMap.get 0 (s.tset .pumphouse).keys 0) (SMap.get 0 (s.tset .pumphouse).data 0) with
        | some n => (s.l2t 7).find n.mac n.bd = none && ((s.l2t 7).place n.mac n.bd).isSome
            && after (exec (.tblInsert .pumphouse w) s) (fun u => ((u.l2t 7).find n.mac n.bd).isSome
              && after (exec (.tblUpdate .pumphouse w) (u.updTables fun t => { t with sets := s.tables.sets }))
                (fun v => ((v.l2t 7).find n.mac n.bd).isSome)
              && after (exec (.tblDelete .pumphouse 0x010070) (u.updTables fun t => { t with sets := s.tables.sets }))
                (fun v => ((v.l2t 7).find n.mac n.bd).isNone))
        | none => false) = true
      ∧ after (exec (.tblLookup .pumphouse w) s) (fun u => (u.tset .pumphouse).status = 1
        && after (exec (.tblLookup .pumphouse w) u) (fun v => (v.tset .pumphouse).status = 3)) = true := by
  unfold Claims.image; decide +kernel

theorem wit_tableCounter :
    let s : State := { hbmOn with tables := { sets := [(0x800, { data := [(0, 9), (1, 10)] })] } }
    let w : W64 := 0x3FFFFF_200900
    let r := { hbmOn with tables := { counters := [(5, { resP := 1, backP := 2, backB := 3 })]
                                      sets := [(0x800, { status := 1, run := some { w := 0x5_000905, keys := [], data := [] } })] } }
    Claims.image w 0x90 0 2 0x3FFFFF ∧ Claims.image (0x5_000905 : W64) 0x90 0 0 5 ∧ (s.tset .pumphouse).status.getLsbD 0 = false
      ∧ after (exec (.tblWriteIndex .pumphouse w) s) (fun u => u.pair' 0x3FFFFF = { backP := 9, backB := 10 }) = true
      ∧ after (exec (.tblCmdDone .pumphouse) r) (fun u => SMap.get 0 (u.tset .pumphouse).data 0 = 3
        && SMap.get 0 (u.tset .pumphouse).data 1 = 3 && (u.tset .pumphouse).run.isNone) = true := by
  unfold Claims.image; decide +kernel

theorem wit_tableLookup :
    let n : L2Ent := ⟨1, 4095, 3, true, false, false, 0⟩
    let b := hbmOn.updTables fun t => { t with sets := [(0x800, { status := 1, run := some { w := 0x10074, keys := [l2Key 1 4095], data := [] } })] }
    let s := match (hbmOn.l2t 7).place 1 4095 with
      | some j => b.updTables fun t => { t with l2 := [(7, { ents := [(j, some n)] })] }
      | none => b
    ((s.l2t 7).find 1 4095).isSome = true ∧ Claims.image (0x10074 : W64) 7 1 0 0
      ∧ after (exec (.tblCmdDone .pumphouse) s) (fun u => SMap.get 0 (u.tset .pumphouse).data 0 = n.data) = true := by
  unfold Claims.image; decide +kernel

theorem wit_overlay :
    let x : EmTbl := { log2 := 10, klen := 1, cache := 0, seed := 0, base := 0 }
    let y := x.put (4 * (x.buckets [5]).1 + 3) (some ⟨[5], List.replicate 6 0⟩)
    let s : State := { hbmOn with tables := { em := [(0, some y)], overlay := [⟨0, 0x40, 2, 0, [5], List.replicate 6 7, none, none⟩] } }
    let d := s.updTables fun t => { t with overlay := [⟨0, 0x40, 2, 0, [5], List.replicate 6 7, none, some {}⟩] }
    (s.tblOp true 0x40 2 0 [5] (List.replicate 6 7)).2.code = 0
      ∧ after (exec .emOverlayDecide s) (fun u => u.tables.overlay.length = 1 && u.tables.em ≠ s.tables.em) = true
      ∧ after (exec .emOverlayRetire d) (fun u => u.tables.overlay = []) = true := by decide +kernel

theorem wit_scrub :
    let s : State := { hbmOn with time := { ns := 10 ^ 12 }, tables := { scrub := [(7, { enable := true, period := 60 })] } }
    (s.scrubOf 7).enable = true ∧ (s.scrubOf 7).lastDt + 60 * 1000000000 / 1024 ≤ s.dt := by decide +kernel

theorem wit_learning :
    let n : Learn := ⟨1, 5, 3⟩
    let w := fun (x : Well) => { hbmOn with net := { wells := [(7, x)] }, time := { ns := 300000000000 } }
    let s1 := w { triggers := [n] }
    let s2 := w { noticesOut := [n] }
    let e : L2Ent := ⟨1, 5, 9, false, false, false, 0⟩
    let tbl := fun (s : State) (e : L2Ent) => match (s.l2t 7).place 1 5 with
      | some j => s.updTables fun t => { t with l2 := [(7, { ents := [(j, some e)] })] }
      | none => s
    let s3 := tbl (w { noticesIn := [n] }) e
    ((s1.l2t 7).place 1 5).isSome = true ∧ ((s3.l2t 7).find 1 5).isSome = true
      ∧ after (exec (.l2TriggerApply 7) s1) (fun u => (u.well 7).noticesOut = [n] && (u.l2t 7).learn = 1) = true
      ∧ after (exec .learnNoticeSend s2) (fun u => (u.well 0).noticesIn = [n] && (u.well 7).noticesOut = []) = true
      ∧ after (exec (.l2NoticeApply 7) s3) (fun u => ((u.l2t 7).ents.map fun p => p.2.map (·.port)) = [some 3]) = true
      ∧ after (exec (.l2AgingSweep 7) s3) (fun u => (u.l2t 7).ents = []) = true
      ∧ s3.tables.ageTime ≠ 0 ∧ (s3.well 7).lastSweep + s3.tables.ageTime * 1000000000 ≤ s3.dt
      ∧ SMap.wf none (s3.l2t 7).ents = true := by decide +kernel

/-- A device whose exact-match region has room. -/
def tblOn : State := { hbmOn with mem := { regions := [⟨1, 0, 0x10000000, 28, 3⟩] } }

theorem wit_tableCommands :
    let sc : List (Nat × Nat) := [(2, 7), (1, 1), (4, 60), (8, 0x1000), (4, 64)]
    (due tblOn 0x0303 [(1, 15), (1, 10), (1, 6), (1, 1), (1, 0), (4, 7)]).accepts c0 0x0303 [(1, 15), (1, 10), (1, 6), (1, 1), (1, 0), (4, 7)]
      ∧ tblOn.emTables = [] ∧ 256 * 2 ^ 10 ≤ tblOn.regionSize 1
      ∧ okWith (due tblOn 0x0303 [(1, 15), (1, 10), (1, 6), (1, 1), (1, 0), (4, 7)]) (.emTableSet c0 15 10 6 1 0 7)
        (fun u => (u.emt 15).isSome) = true
      ∧ okWith (due tblOn 0x0303 [(1, 15), (1, 10), (1, 6), (1, 1), (1, 1), (4, 7)]) (.emTableSet c0 15 10 6 1 1 7)
        (fun u => (u.emt 15).isNone) = true
      ∧ okWith (due tblOn 0x0304 [(4, 10), (1, 0)]) (.l2Config c0 10 0) (fun u => u.tables.ageTime = 10 && !u.tables.flushOnDown) = true
      ∧ okWith (due tblOn 0x0305 [(1, 2), (2, 0)]) (.l2Flush c0 2 0) (fun _ => true) = true
      ∧ okWith (due tblOn 0x0306 sc) (.tableScrubConfig c0 7 1 60 0x1000 64) (fun u => (u.scrubOf 7).enable) = true
      ∧ okWith (due tblOn 0x0302 [(2, 7)]) (.tableStats c0 7) (fun _ => true) = true
      ∧ okWith (due tblOn 0x0301 [(8, 0x5_000905)]) (.tableRead c0 0x5_000905 []) (fun _ => true) = true := by
  unfold State.accepts; decide +kernel

theorem wit_tableBatch :
    let o : TblOp := ⟨0x110070, [0x5_0000_0000_0001], [9]⟩
    let d := due tblOn 0x0300 (batchFields true false [o])
    batchOpOk o = true ∧ d.accepts c0 0x0300 (batchFields true false [o]) ∧ d.tables.batches = []
      ∧ after (exec (.tableBatch c0 true false [o]) d) (fun u => u.tables.batches.length = 1 && u.running c0 0x0300
        && okWith u (.tableBatchDone c0) (fun v => v.tables.batches = [])) = true := by
  unfold State.accepts; decide +kernel

/-! ### Device time and the ledger -/

theorem wit_time :
    let s := { hbmOn with time := { ns := 200, frac := 3, stepGen := 2, phase := 1, ptp :=
      { parent := some 9, req := some (4, 200), haveSync := true, haveT1 := true, t1 := 100, t2 := 150, announced := true
        intervalNs := 60 } } }
    let h : PtpHdr := ⟨2, 0, 9⟩
    s.phRuns = true ∧ s.time.freq ≠ 0 ∧ s.time.phase = 1 ∧ s.time.ptpDomain = 0 ∧ s.time.ptpPort = 0 ∧ s.time.ptp.masters = []
      ∧ s.time.ptp.lastSyncDt + 3 * s.time.ptp.intervalNs ≤ s.dt
      ∧ after (exec (.dtNowRead .pumphouse) s) (fun u => u.dtSnap .pumphouse = 0x200000003) = true
      ∧ after (exec (.ptpMessageRx 0 ⟨h, .announce {}⟩) s) (fun u => u.time.ptp.announceDt = 200 && u.time.ptp.parent = some 9) = true
      ∧ after (exec (.ptpMessageRx 0 ⟨h, .sync 5 false 170 180 1000⟩) s) (fun u => u.time.ptp.req = some (0, 200) && u.time.ptp.t2 = 180) = true
      ∧ after (exec (.ptpMessageRx 0 ⟨h, .delayResp 4 true 230⟩) s) (fun u => u.time.ptp.qualified && u.time.offset = -10) = true
      ∧ after (exec .ptpLossTimeout s) (fun u => u.time.ptp = {}) = true
      ∧ after (exec .trefLoss s) (fun u => !u.time.refs.trefQualified) = true
      ∧ after (exec (.trefQualified (-50000000)) s) (fun u => u.time.refs.trefPpt = -50000000) = true
      ∧ after (exec .ppsInEdge s) (fun u => u.time.refs.ppsGood = 1 && u.time.refs.ppsLast = 200) = true := by decide +kernel

theorem wit_pps :
    let s := { hbmOn with time := { ns := 2000000100, phase := 2, refs := { ppsSeen := true, ppsGood := 3, ppsLast := 1000000100 } } }
    let s1 := { hbmOn with time := { ns := 9000000000, st := .holdover, holdoverS := 9, refs := { ppsSeen := true, ppsLast := 1 }
                                     pps := { freerun := true }, baseReturn := some 9 } }
    s.phRuns = true ∧ s.dt - s.time.refs.ppsLast = 1000000000 ∧ s.dt % 1000000000 < 500000000 ∧ s1.time.ppsOn = true
      ∧ s1.time.refs.ppsLast + 3000100000 < s1.dt
      ∧ after (exec .ppsInEdge s) (fun u => u.time.refs.ppsQualified && u.time.offset = -100) = true
      ∧ after (exec .ppsInMissing s1) (fun u => !u.time.refs.ppsSeen) = true
      ∧ after (exec .holdoverExpiry s1) (fun u => u.time.st = .freerun) = true
      ∧ after (exec .timebaseSwitchback s1) (fun u => u.time.base = 0) = true
      ∧ after (exec .ppsOutRise s1) (fun u => u.time.pps.level
        && after (exec .ppsOutFall { u with time := { u.time with ns := 9100000000 } }) (fun v => !v.time.pps.level)) = true := by
  decide +kernel

theorem wit_refclk :
    after (exec (.refclkLoss 7) hbmOn) (fun u => !(u.well 7).refclk && after (exec (.refclkReturn 7) u) (fun v => (v.well 7).recal
      && after (exec (.laneRecalDone 7) v) (fun x => !(x.well 7).recal))) = true := by decide +kernel

theorem wit_timeCommands :
    let fr := due hbmOn 0x0500 [(1, 3), (1, 2), (2, 127), (1, 127), (4, 604800)]
    let step := due hbmOn 0x0501 [(8, 2 ^ 62), (4, 0)]
    let cl := due { hbmOn with ledger := { closing := some { no := 0, start := 0, endAt := 5, lenNs := 5 } } } 0x0501 [(8, 7), (4, 0)]
    fr.accepts c0 0x0500 [(1, 3), (1, 2), (2, 127), (1, 127), (4, 604800)] ∧ step.accepts c0 0x0501 [(8, 2 ^ 62), (4, 0)]
      ∧ step.mine c0.fn = true ∧ cl.ledger.closing.isSome = true
      ∧ okWith fr (.timeSource c0 3 2 127 127 604800) (fun u => u.time.ptpPort = 127) = true
      ∧ okWith step (.timeStep c0 (2 ^ 62) 0) (fun u => u.dt = 2 ^ 62 && u.time.stepGen = 1) = true
      ∧ after (exec (.timeStep c0 (2 ^ 62) 5) (due hbmOn 0x0501 [(8, 2 ^ 62), (4, 5)])) (fun u => st u = some 10) = true
      ∧ after (exec (.timeStep c0 7 0) cl) (fun u => u.time.deferred.length = 1 && u.running c0 0x0501
        && okWith { u with ledger := {} } .timeStepDeferredApply (fun v => v.dt = 7)) = true
      ∧ okWith (due hbmOn 0x0502 []) (.timeStatus c0) (fun _ => true) = true
      ∧ okWith (due hbmOn 0x0503 [(4, ofInt 32 (-4000000)), (4, 500000000), (1, 1)]) (.ppsOutConfig c0 (-4000000) 500000000 1)
        (fun u => u.time.pps.compQns = -4000000) = true := by unfold State.accepts; decide +kernel

/-- A ledger ring of 256 slots. -/
def ring : Ring := ⟨7, 256, [1, 2, 3], [], [], c0⟩

theorem wit_epochs :
    let e : LEpoch := { no := 0, start := 5, endAt := 60000000000, lenNs := 60000000000, res := [(3, 4)], slot := [(3, 5)] }
    let s := { hbmOn with time := { ns := 70000000000 }, ledger := { ring := some ring, openEp := some e, nextNo := 1 } }
    let s1 := { s with ledger := { ring := some ring, closing := some { e with phase := .closing, sealAt := 70000000000, graceFrom := 60000000000 } } }
    let s2 := { s with ledger := { ring := some ring, recs := [{ e with phase := .sealed }] } }
    let s3 := { s with ledger := { ring := some ring, recs := [{ e with phase := .summed }] } }
    let s4 := { s with ledger := { ring := some ring, recs := [{ e with phase := .digested }] } }
    e.endAt ≤ s.dt ∧ s.ledger.closing = none ∧ SMap.wf 0 e.res = true ∧ e.no + 2 < ring.slots
      ∧ (s3.ledger.recs.map (·.digest)) = [[]] ∧ (s4.ledger.recs.map (·.damaged)) = [false] ∧ s4.ledger.fault = false
      ∧ after (exec .epochClose s) (fun u => u.ledger.openEp.map (·.no) = some 1 && u.ledger.closing.isSome) = true
      ∧ after (exec .epochSeal s1) (fun u => u.ledger.recs.length = 1 && u.ledger.closing.isNone) = true
      ∧ after (exec .sealResidualsDone s2) (fun u => u.ledger.recs.map (fun x => x.slot) = [[(3, 9)]]) = true
      ∧ after (exec .recordSignDone s4) (fun u => u.ledger.recs.map (·.phase) = [.signed]) = true := by decide +kernel

/-- An epoch still closes at the next one's end, and a record whose slot is used again leaves (R435, R437). -/
theorem wit_epochsOverlap :
    let e : LEpoch := { no := 300, start := 5, endAt := 60000000000, lenNs := 60000000000 }
    let s := { hbmOn with time := { ns := 70000000000 }, ledger := { ring := some ring, openEp := some e, nextNo := 301
                                                                     closing := some { e with no := 299, phase := .closing } } }
    let s1 := { s with ledger := { ring := some ring, closing := some e, recs := [{ e with no := 46, phase := .signed }] } }
    after (exec .epochClose s) (fun u => u.ledger.openEp.map (·.no) = some 301 && u.ledger.closing.map (·.no) = some 300) = true
      ∧ after (exec .epochSeal s1) (fun u => u.ledger.recs.map (·.no) = [300]) = true := by decide +kernel

/-- A device with a ring and a region for it. -/
def ledgerOn : State :=
  { hbmOn with
    time := { ns := 5000000000 }
    ledger := { ring := some ring }
    mem := { regions := [⟨5, 0, 256 * 8388608, 31, 0⟩] } }

theorem wit_epochCommands :
    let d := due ledgerOn 0x0504 [(1, 0), (2, 3600), (1, 100)]
    d.accepts c0 0x0504 [(1, 0), (2, 3600), (1, 100)] ∧ d.ledger.ring.isSome = true ∧ d.ledger.openEp = none
      ∧ okWith d (.epochConfig c0 0 3600 100) (fun u => (u.ledger.openEp.map fun o => (o.start, o.endAt, LEpoch.flags { o with stop := o.endAt } / 2 % 2))
        = some (5000000000, 3600000000000, 1)
        && okWith (due u 0x0504 [(1, 1), (2, 1), (1, 0)]) (.epochConfig c0 1 1 0) (fun v => v.ledger.openEp.isNone && v.ledger.closing.isSome)
        && okWith (due u 0x0504 [(1, 2), (2, 1), (1, 0)]) (.epochConfig c0 2 1 0) (fun v => v.ledger.nextLength = 1)) = true := by
  unfold State.accepts; decide +kernel

theorem wit_ledgerCommands :
    let b := { ledgerOn with ledger := {} }
    let r : LEpoch := { no := 3, start := 0, endAt := 5, lenNs := 5, phase := .signed }
    let l := { ledgerOn with ledger := { ring := some ring, recs := [r], nextNo := 4 } }
    let rd := due l 0x0601 [(8, 3), (4, 0), (4, 64), (8, 0x1000)]
    b.trngBad = false ∧ 256 * 8388608 ≤ b.regionSize 5 ∧ l.ledger.unsigned 3 = false ∧ l.ledger.record 3 = some r
      ∧ rd.accepts c0 0x0601 [(8, 3), (4, 0), (4, 64), (8, 0x1000)]
      ∧ after (exec (.ledgerInit c0 256 none) (due b 0x0600 [(2, 256), (1, 0)])) (fun u => u.ledger.init = some ⟨c0, 256, none⟩
        && u.running c0 0x0600) = true
      ∧ after (exec (.ledgerRead c0 3 0 64 0x1000) rd) (fun u => u.out.hostMem.length = 1 && u.running c0 0x0601
        && okWith u (.ledgerReadDone c0) (fun v => v.ledger.reads = [])
        && after (exec (.ledgerReadDone c0) { u with ledger := { u.ledger with recs := [] } }) (fun v => st v = some 4)) = true
      ∧ after (exec (.ledgerInit c0 8192 none) (due { ledgerOn with
          ledger := { ring := some { ring with by_ := ⟨.hostB, 3⟩ }, fault := true }
          mem := { regions := [⟨5, 0, 8192 * 8388608, 36, 0⟩] } } 0x0600 [(2, 8192), (1, 0)]))
        (fun u => u.ledger.init = some ⟨c0, 8192, none⟩) = true
      ∧ okWith (due l 0x0602 [(8, 3)]) (.ledgerAck c0 3) (fun u => u.ledger.acked = some 3) = true
      ∧ okWith (due l 0x0603 [(8, 0x1000)]) (.ledgerFlushSet c0 0x1000) (fun u => u.ledger.flushA = 0x1000) = true
      ∧ okWith (due l 0x0604 []) (.ledgerInfo c0) (fun _ => true) = true
      ∧ okWith (due l 0x0605 []) (.ledgerStats c0) (fun _ => true) = true := by unfold State.accepts; decide +kernel

/-! ### Ports, wells and modules -/

/-- An intake word with these data, even parity (R115). -/
def word (data : Nat) (flags : Nat) : IWord :=
  let w := BitVec.ofNat 72 (data + flags)
  if wordParity w then w else w ^^^ 0x10000000000000000

theorem wit_frameSof :
    let s := net id
    let d := net fun p => { p with dciSluice := true }
    let one := exec (.frameSof 0 ⟨[word 5 (2 ^ 66)], false⟩)
    s.receives 0 = true ∧ s.inProgress 0 = none ∧ State.consumed [word 5 (2 ^ 66)] = false ∧ s.sluiced 0 = false
      ∧ d.receives 0 = true ∧ d.sluiced 0 = true
      ∧ after (one s) (fun u => u.order.nextPkt = 1 && (u.port 0).arriving = [0] && (u.pkt 0).wIn = 1
        && after (exec (.fifoBankSwap 0) u) (fun v => (v.port 0).drain.length = 1)) = true
      ∧ after (one d) (fun u => (u.pkt 0).refusal = some 5 && (u.port 0).arriving = [0]) = true := by decide +kernel

/-- A 64-byte frame of zeros whose last word is still to come. -/
theorem wit_frameTail :
    let bytes := List.replicate 60 0 ++ fcs (List.replicate 60 0)
    let w := word (leVal (bytes.drop 56)) (2 ^ 67)
    let k : Pkt := { bytes := List.replicate 56 0, wIn := 7, wOut := 7, hasSeq := true, parsed := true, head := some 0, asked := 1, st := .listed }
    let b := net fun p => { p with arriving := [0] }
    let s := { b with
      order := { b.order with pkts := [(0, k)], nextPkt := 1 }
      basin := { b.basin with bufs := [(0, Buf.fresh 1 0 [0] [] [])] } }
    s.inProgress 0 = some 0 ∧ wordParity w = true ∧ wordEof w = true ∧ wordSof w = false ∧ wordRxerr w = false
      ∧ bytes = k.bytes ++ wordBytes w true ∧ bytes.drop (bytes.length - 4) = fcs (bytes.take (bytes.length - 4))
      ∧ s.heldCells (s.pkt 0) = 1 ∧ (s.rc 0).lateRun = false ∧ s.fecBad 0 [] = false
      ∧ after (exec (.frameTail 0 [w] []) s) (fun u => (u.pkt 0).accepted && (u.port 0).arriving = []) = true := by decide +kernel

theorem wit_drain :
    let k : Pkt := { bytes := List.replicate 8 0, wIn := 2, wOut := 1, asked := cellsDue 16 false }
    let b := net fun p => { p with arriving := [0], drain := [word 7 0] }
    let s := { b with order := { b.order with pkts := [(0, k)], nextPkt := 1 } }
    let g := { s with basin := { s.basin with reqs := [(15, [⟨7, 0⟩])] } }
    let g2 := { g with
      order := { g.order with pkts := [(0, { k with head := some 3 })] }
      basin := { g.basin with bufs := [(3, Buf.fresh 1 0 [3] [] [])] } }
    wordParity (word 7 0) = true ∧ wordSof (word 7 0) = false ∧ wordEof (word 7 0) = false ∧ (s.pkt 0).refusal = none
      ∧ (s.pkt 0).ended = false ∧ (g.pkt 0).head = none ∧ (g.freeCell 15).isSome = true ∧ (g2.freeCell 15).isSome = true
      ∧ (match g.allows (g.frameEnts (g.pkt 0)) with | .ok _ => true | _ => false) = true
      ∧ (match g2.allows (g2.frameEnts (g2.pkt 0)) with | .ok _ => true | _ => false) = true
      ∧ after (exec (.drainRead 0 1) s) (fun u => (u.pkt 0).bytes = List.replicate 8 0 ++ [7, 0, 0, 0, 0, 0, 0, 0]) = true
      ∧ after (exec (.cellGrant 15) g) (fun u => (u.pkt 0).head.isSome && (SMap.get [] u.basin.reqs 15) = []) = true
      ∧ after (exec (.cellGrant 15) g2) (fun u => (u.buf 3).map (fun x => x.cells.length) = some 2) = true := by
  decide +kernel

theorem wit_walk :
    let k : Pkt := { bytes := List.replicate 256 0, wIn := 40, wOut := 32, head := some 0, asked := 1 }
    let b := net fun p => { p with arriving := [0], parseQ := [0] }
    let s := { b with order := { b.order with pkts := [(0, k)], nextPkt := 1 } }
    s.nextWalk 0 = some 0 ∧ (s.well (s.pkt 0).well).parserReset = false ∧ (s.port 0).cfg.standpipe ≤ (s.pkt 0).bytes.length
      ∧ (s.well (s.pkt 0).well).held.length < 256 ∧ (s.rc 0).lateRun = false
      ∧ after (exec (.parseStart 0) s) (fun u => (u.pkt 0).st = .walking && (u.pkt 0).walkBytes = 256
        && (u.pkt 0).walkGraph.isSome
        && after (exec (.parseComplete 0) u) (fun v => (v.pkt 0).hasSeq && (v.port 0).parseQ = [])) = true := by decide +kernel

theorem wit_wells :
    let b := net id
    let w := fun (x : Well) => { b with
      time := { ns := 40000000 }
      net := { b.net with wells := [(0, x)], committing := some ⟨c0, 9, 0, {}, {}⟩ } }
    let s := w { switchPending := true, frags := [(3, ⟨[1], 0, 0, 0, 0, 0, 0, 10000000⟩)], held := [(0, [1], 0)], parserReset := true }
    let s1 := { s with order := { s.order with pkts := [(0, { st := .held, accepted := true, hasSeq := true, tailIn := true })], nextPkt := 1 } }
    let d := due s 0x020F [(2, 9)]
    let d2 := { d with net := { d.net with wells := d.net.wells ++ [(7, { switchPending := true })] } }
    (s.well 0).switchPending = true ∧ (∀ v, v < 8 → v ≠ 0 → (s.well v).switchPending = false) ∧ 0 + 2000 ≤ s.dt
      ∧ (d2.well 7).switchPending = true
      ∧ (s1.pkt 0).accepted = true ∧ 0 + 1000 * (s1.well 0).holdTimeUs ≤ s1.dt / 10000 * 10000
      ∧ after (exec (.graphSwitchTimeout 0) d) (fun u => (u.well 0).graphVer = some 9 && u.net.committing.isNone) = true
      ∧ after (exec (.graphSwitchTimeout 0) d2) (fun u => (u.well 0).graphVer = some 9 && u.net.committing.isSome) = true
      ∧ after (exec (.fragEntryExpiry 0 3) s) (fun u => (u.well 0).frags = []) = true
      ∧ after (exec (.fragHoldTimeout 0) s1) (fun u => (u.well 0).held = [] && (u.pkt 0).st = .finished) = true
      ∧ after (exec (.parserResetDone 0) s) (fun u => !(u.well 0).parserReset) = true
      ∧ after (exec .quiesceFall s) (fun u => u.net.quiesce && after (exec .quiesceRise u) (fun v => !v.net.quiesce)) = true := by
  decide +kernel

/-- Data on a port that is DOWN, on one in SERDES_FAR and on one that checks a PRBS (R97, R108). -/
theorem wit_rxWhileDown :
    let t := fun (m : Nat) => net fun p => { p with st := .test, testMode := m }
    (t 3).testing 0 3 = true ∧ (t 1).testing 0 1 = true
      ∧ after (exec (.rxWhileDown ⟨0, [1], []⟩) (net fun p => { p with st := .down })) (fun u => (u.port 0).mac.rxWhileDown = 1) = true
      ∧ after (exec (.rxWhileDown ⟨0, [1], []⟩) (t 3)) (fun u => u.out.serdes = [(0, [1])] && u.net = (t 3).net) = true
      ∧ after (exec (.rxWhileDown ⟨0, [1], [(7, true)]⟩) (t 1)) (fun u => SMap.get 0 (u.port 0).mac.prbsErrors 0 = 7
        && SMap.get false (u.port 0).mac.prbsLock 0) = true := by decide +kernel

theorem wit_intake :
    let b := net id
    let g : GraphRec := .state 255 0
    let e : W32 := 0x00C00000
    (due b 0x020C [(1, 0), (2, 0xFFFF)]).accepts c0 0x020C [(1, 0), (2, 0xFFFF)] ∧ graphRecOk g = true ∧ indirOk e = true
      ∧ (selectBytes 0 (List.replicate 128 0)).length ≤ 60 ∧ (b.well 0).graphVer ≠ some 5
      ∧ (due b 0x020D [(1, 0), (2, 1)]).accepts c0 0x020D [(1, 0), (2, 1)] ∧ b.maskPorts 0 1 = [0] ∧ b.maskPorts 7 0 = []
      ∧ okWith (due b 0x020C [(1, 0), (2, 0xFFFF)]) (.sluice c0 0 0xFFFF) (fun u => (u.port 0).dciSluice
        && okWith (due u 0x020D [(1, 0), (2, 1)]) (.unsluice c0 0 1) (fun v => !(v.port 0).dciSluice)) = true
      ∧ okWith (due b 0x020C [(1, 7), (2, 0)]) (.sluice c0 7 0) (fun u => u.net = b.net) = true
      ∧ okWith (due b 0x020F [(2, 0)]) (.parseGraphCommit c0 0) (fun u => u.net = b.net) = true
      ∧ okWith (due b 0x020E (graphFields g)) (.parseGraphLoad c0 [g]) (fun _ => true) = true
      ∧ after (exec (.parseGraphCommit c0 5) (due b 0x020F [(2, 5)])) (fun u => u.net.committing.isSome && (u.well 7).switchPending) = true
      ∧ okWith (due b 0x0210 [(1, 255), (1, 2), (1, 15), (1, 2), (1, 63), (2, 65535), (16, 0)])
        (.hashProfileSet c0 255 2 15 2 63 65535 0) (fun u => (SMap.get {} u.net.profiles 255).mode = 2) = true
      ∧ okWith (due b 0x0211 [(1, 15), bytesField 64 (List.replicate 64 3)]) (.hashKeySet c0 15 (List.replicate 64 3))
        (fun u => (SMap.get [] u.net.hashKeys 15).length = 64) = true
      ∧ okWith (due b 0x0212 [(1, 63), (2, 511), (2, 1), (2, 0), (4, e.toNat)]) (.indirectionSet c0 63 511 [e])
        (fun u => SMap.get 0 u.net.indirection (63 * 512 + 511) = e) = true
      ∧ okWith (due b 0x0213 [(2, 1023)]) (.intakeStats c0 1023) (fun _ => true) = true := by unfold State.accepts; decide +kernel

theorem wit_links :
    let t := fun (s : State) => { s with time := { ns := 2000000000 } }
    let up := net id
    let lost := t (net fun p => { p with link := { p.link with present := false, lossDt := some 2000000000 } })
    let down := t (net fun p => { p with st := .down, link := { p.link with present := false, trainRetry := some 2000000000 } })
    let deb := t (net fun p => { p with st := .down, link := { p.link with debounceDt := some 1990000000 } })
    let an := net fun p => { p with mode := 2, st := .training, cfg := { p.cfg with ability := 0x08 }, link := {} }
    let tr := net fun p => { p with st := .training, link := { p.link with trainFails := 7 } }
    let sup := t (net fun p => { p with st := .suppressed, link := { p.link with suppressEnd := some 2000000000 } })
    resolveMode 1 0x08 0x7F = some 3 ∧ an.reconfigures 0 3 = false ∧ regionSum (an.regionsFor 0 3) ≤ 256
      ∧ (down.well 0).recal = false ∧ (down.well 0).refclk = true
      ∧ after (exec (.linkLoss 0 .lock) up) (fun u => (u.port 0).link.lossDt = some 0 && (u.port 0).st = .up) = true
      ∧ after (exec (.linkReturn 0) down) (fun u => (u.port 0).link.debounceDt = some 2000000000) = true
      ∧ after (exec (.linkHoldoffExpiry 0) lost) (fun u => (u.port 0).st = .down) = true
      ∧ after (exec (.linkDebounceExpiry 0) deb) (fun u => (u.port 0).st = .up) = true
      ∧ after (exec (.anComplete 0 ⟨0x7F, true⟩) an) (fun u => (u.port 0).mode = 3 && (u.port 0).link.anDone) = true
      ∧ after (exec (.trainingDone 0) tr) (fun u => (u.port 0).st = .down && (u.port 0).link.trained) = true
      ∧ after (exec (.trainingTimeout 0) tr) (fun u => (u.port 0).link.trainRetry = some 1000000000) = true
      ∧ after (exec (.trainingTimeout 0) (net fun p => { p with st := .training })) (fun u => (u.port 0).link.trainFails = 1) = true
      ∧ after (exec (.trainingRetry 0) down) (fun u => (u.port 0).st = .training) = true
      ∧ after (exec (.flapSuppressExpiry 0) sup) (fun u => (u.port 0).st ≠ .suppressed) = true := by decide +kernel

/-- A loss on a port that is not UP, a debounce that ends on one that still is, the flap threshold, and a negotiated mode that
waits for the frames in progress (R94, R95, R99, R100). -/
theorem wit_linkCorners :
    let t := fun (s : State) => { s with time := { ns := 2000000000 } }
    let down := net fun p => { p with st := .down }
    let deb := t (net fun p => { p with link := { p.link with debounceDt := some 1000000000, lossDt := some 1990000000 } })
    let flap := t (net fun p => { p with
      cfg := { p.cfg with flapThreshold := 2, flapWindowS := 10 }
      link := { p.link with present := false, lossDt := some 1000000000, downs := [0] } })
    let an := net fun p => { p with lanes := 2, mode := 0, st := .training, cfg := { p.cfg with ability := 0x7F }, link := {}, arriving := [5] }
    (down.port 0).link.present = true ∧ (flap.port 0).cfg.flapThreshold = 2
      ∧ (∃ m, resolveMode 2 0x7F 0x7F = some m ∧ regionSum (an.regionsFor 0 m) ≤ 256 ∧ an.reconfigures 0 m = true)
      ∧ an.wellQuiet (wellOf 0) = false
      ∧ after (exec (.linkLoss 0 .lock) down) (fun u => !(u.port 0).link.present && (u.port 0).st = .down) = true
      ∧ after (exec (.linkDebounceExpiry 0) deb) (fun u => (u.port 0).st = .up && (u.port 0).link.lossDt = none) = true
      ∧ after (exec (.linkHoldoffExpiry 0) flap) (fun u => (u.port 0).st = .suppressed && (u.port 0).link.downs.length = 2) = true
      ∧ after (exec (.anComplete 0 ⟨0x7F, true⟩) an) (fun u => (u.well 0).reconfig && u.port 0 = an.port 0) = true := by
  refine ⟨by decide +kernel, by decide +kernel, ⟨_, rfl, by decide +kernel, by decide +kernel⟩, ?_⟩
  decide +kernel

/-- A PAUSE frame of 0xFFFF quanta (R87). -/
theorem wit_pause :
    let h : List Byte := List.replicate 12 0 ++ [0x88, 0x08, 0, 1, 0xFF, 0xFF] ++ List.replicate 42 0
    let bs := h ++ fcs h
    let s := net fun p => { p with cfg := { p.cfg with fc := .pause } }
    s.receives 0 = true ∧ bs.length = 64 ∧ slice bs 12 2 = [0x88, 0x08] ∧ slice bs 14 2 = [0, 1] ∧ beVal (slice bs 16 2) ≠ 0
      ∧ bs.drop (bs.length - 4) = fcs (bs.take (bs.length - 4))
      ∧ after (exec (.macControlRx 0 bs false) s) (fun u => (u.port 0).mac.pauseRx = 1) = true := by decide +kernel

/-- A PFC frame, and a frame with another opcode and a bad FCS (R87). -/
theorem wit_pfc :
    let h := fun (op : Byte) => List.replicate 12 0 ++ [0x88, 0x08, op, 1, 0, 1] ++ List.replicate 42 0
    let bs := h 1 ++ fcs (h 1)
    let bad := h 9 ++ [1, 2, 3, 4]
    let s := net id
    s.receives 0 = true ∧ s.inProgress 0 = none ∧ bs.length = 64 ∧ slice bs 12 2 = [0x88, 0x08] ∧ slice bs 14 2 = [1, 1]
      ∧ bs.drop (bs.length - 4) = fcs (bs.take (bs.length - 4)) ∧ slice bad 12 2 = [0x88, 0x08]
      ∧ bad.drop (bad.length - 4) ≠ fcs (bad.take (bad.length - 4))
      ∧ after (exec (.macControlRx 0 bs false) s) (fun u => (u.port 0).mac.pfcRx = 1) = true
      ∧ after (exec (.macControlRx 0 bad false) s) (fun u => (u.port 0).mac.ctrlErr = 1 && u.eport 0 = s.eport 0) = true := by
  decide +kernel

theorem wit_portCommands :
    let b := net id
    let a : PortConfigArgs := ⟨10240, 2, 0, 0, 0, 0, 1024, 0, 0, 0, 0, 4095, 0xFAC688, 7, 1000, 0, 60, 0, 3600, 1⟩
    let off := net fun p => { p with st := .disabled, enabled := false }
    let e : W64 := 1 + (128 <<< 30)
    (due b 0x0200 [(2, 0), (1, 2), (1, 2), (1, 1), (1, 2)]).accepts c0 0x0200 [(2, 0), (1, 2), (1, 2), (1, 1), (1, 2)]
      ∧ fecOk 2 2 = true ∧ b.reconfigures 0 2 = false ∧ portConfigOk a = true ∧ fld e 45 19 = 0 ∧ 128 ≤ ecidLport e
      ∧ (b.port (ecidCascade e)).lanes ≠ 0 ∧ b.askedRegions 0 [] = (b.well 0).regions
      ∧ (∀ p ∈ b.wellPorts 0, minRegion (b.port p).mode ≤ SMap.get 0 (b.well 0).regions (p % 16))
      ∧ okWith (due b 0x0200 [(2, 0), (1, 2), (1, 2), (1, 1), (1, 2)]) (.portModeSet c0 0 2 2 1 2)
        (fun u => (u.port 0).mode = 2 && (u.port 0).rxPol = 2) = true
      ∧ okWith (due b 0x0201 ((2, 0) :: portConfigFields a)) (.portConfig c0 0 a) (fun u => (u.port 0).cfg.maxFrame = 10240) = true
      ∧ okWith (due off 0x0202 [(2, 0)]) (.portEnable c0 0) (fun u => (u.port 0).enabled) = true
      ∧ after (exec (.portDisable c0 0) (due b 0x0203 [(2, 0)])) (fun u => (u.port 0).disabling = some c0
        && okWith u (.portDisableComplete 0) (fun v => (v.port 0).st = .disabled)) = true
      ∧ okWith (due b 0x0204 [(2, 0), (1, 4), (1, 0)]) (.portTest c0 0 4 0) (fun u => (u.port 0).st = .test) = true
      ∧ okWith (due b 0x0205 [(2, 127)]) (.portStatus c0 127) (fun _ => true) = true
      ∧ okWith (due b 0x020A [(2, 895), (8, e.toNat)]) (.ecidMapSet c0 895 e) (fun u => SMap.get 0 u.net.ecid 895 = e) = true
      ∧ okWith (due b 0x020B [(1, 0), (2, 7), (2, 20000)]) (.wellConfig c0 0 7 20000 []) (fun u => (u.well 0).holdTimeUs = 20000) = true := by
  unfold State.accepts; decide +kernel

/-- The same commands where the port is busy, already enabled, already disabled or suppressed, or ends its test. -/
theorem wit_portCorners :
    let b := net id
    let busy := net fun p => { p with arriving := [5] }
    let off := net fun p => { p with st := .disabled, enabled := false }
    let sup := net fun p => { p with st := .suppressed, link := { p.link with suppressEnd := some 9 } }
    let tst := net fun p => { p with st := .test, testMode := 2 }
    let md := [(2, 0), (1, 6), (1, 2), (1, 0), (1, 0)]
    let kib := 32 :: List.replicate 15 0
    let wf := [(1, 0), (2, 7), (2, 100)] ++ kib.map fun v => (2, v)
    (due busy 0x0200 md).accepts c0 0x0200 md ∧ busy.reconfigures 0 6 = true ∧ regionSum (busy.regionsFor 0 6) ≤ 256 ∧ fecOk 6 2 = true
      ∧ busy.wellQuiet (wellOf 0) = false ∧ b.wellQuiet (wellOf 0) = true ∧ b.wellOff (wellOf 0) = false
      ∧ (due b 0x020B wf).accepts c0 0x020B wf ∧ b.askedRegions 0 kib ≠ (b.well 0).regions ∧ regionSum (b.askedRegions 0 kib) ≤ 256
      ∧ patternOk (b.port 0).mode 7 = true
      ∧ after (exec (.portModeSet c0 0 6 2 0 0) (due busy 0x0200 md)) (fun u => (u.well 0).reconfig && u.port 0 = busy.port 0) = true
      ∧ okWith (due b 0x0200 md) (.portModeSet c0 0 6 2 0 0) (fun u => (u.port 0).mode = 6 && (u.port 0).lanes = 8) = true
      ∧ okWith (due b 0x0202 [(2, 0)]) (.portEnable c0 0) (fun u => u.net = b.net) = true
      ∧ okWith (due sup 0x0202 [(2, 0)]) (.portEnable c0 0) (fun u => (u.port 0).link.suppressEnd = none && (u.port 0).st ≠ .suppressed) = true
      ∧ okWith (due off 0x0203 [(2, 0)]) (.portDisable c0 0) (fun u => u.net = off.net) = true
      ∧ okWith (due b 0x0203 [(2, 127)]) (.portDisable c0 127) (fun u => u.net = b.net) = true
      ∧ okWith (due b 0x0204 [(2, 0), (1, 1), (1, 7)]) (.portTest c0 0 1 7) (fun u => (u.port 0).testPattern = 7) = true
      ∧ okWith (due tst 0x0204 [(2, 0), (1, 0), (1, 0)]) (.portTest c0 0 0 0) (fun u => (u.port 0).st ≠ .test) = true
      ∧ okWith (due b 0x0204 [(2, 0), (1, 0), (1, 0)]) (.portTest c0 0 0 0) (fun u => u.net = b.net) = true
      ∧ okWith (due b 0x020B wf) (.wellConfig c0 0 7 100 kib) (fun u => (u.well 0).regions = b.askedRegions 0 kib) = true
      ∧ after (exec (.wellConfig c0 0 7 100 kib) (due busy 0x020B wf)) (fun u => (u.well 0).reconfig
        && (u.well 0).regions = (b.well 0).regions) = true := by unfold State.accepts; decide +kernel

/-- A second E-CID entry beside one that is apart from it (R92). -/
theorem wit_ecidApart :
    let e : W64 := 1 + (128 <<< 30)
    let o : W64 := 1 + (129 <<< 30) + (1 <<< 1)
    let b := net id
    let s := { b with net := { b.net with ecid := [(3, o)] } }
    (∀ x ∈ s.net.ecid, x.1 = 895 ∨ ecidApart e x.2 = true) ∧ fld e 28 2 = 0
      ∧ okWith (due s 0x020A [(2, 895), (8, e.toNat)]) (.ecidMapSet c0 895 e) (fun u => SMap.get 0 u.net.ecid 895 = e
        && SMap.get 0 u.net.ecid 3 = o) = true := by decide +kernel

theorem wit_modules :
    let g := fun (c : Cage) => { net id with time := { ns := 10000000 }, net := { (net id).net with cages := [(31, c)] } }
    let s := g { phase := .debounceIn, changeDt := some 0, intSeen := true }
    s.phRuns = true ∧ s.net.captured = none ∧ (g { phase := .idPoll }).pollDue 31 .idPoll = true
      ∧ (g { phase := .lowPower }).pollDue 31 .lowPower = true
      ∧ after (exec (.moduleScan 0) s) (fun u => u.net.captured = some 0) = true
      ∧ after (exec (.presenceDebounceEnd 31) s) (fun u => (u.cage 31).phase = .idPoll && (u.cage 31).resetN) = true
      ∧ after (exec (.moduleIdPoll 31 (some 0x1E) true) (g { phase := .idPoll })) (fun u => (u.cage 31).ident = 0x1E) = true
      ∧ after (exec (.moduleLowpwrPoll 31 true) (g { phase := .lowPower })) (fun u => (u.cage 31).phase = .pages) = true
      ∧ after (exec (.modulePagesRead 31 ⟨0x50, 8, false, 0, []⟩) (g { phase := .pages })) (fun u => (u.cage 31).phase = .powerDenied) = true
      ∧ after (exec (.moduleReady 31) (g { phase := .powerUp })) (fun u => (u.cage 31).phase = .ready) = true
      ∧ after (exec (.moduleDiscoveryTimeout 31) (g { phase := .powerUp })) (fun u => (u.cage 31).phase = .fault) = true
      ∧ after (exec (.moduleInt 31 []) s) (fun u => !(u.cage 31).intSeen) = true
      ∧ after (exec (.i2cBusRecovery 15 true) s) (fun u => (SMap.get {} u.net.buses 15).stuck = 0) = true := by decide +kernel

/-- The other ways of discovery: a captured scan, a module that leaves, no answer, not CMIS, high power, a step too long, a bus
that sticks first (R101, R103, R105, R590). -/
theorem wit_moduleCorners :
    let g := fun (ns : Nat) (c : Cage) => { net id with time := { ns := ns }, net := { (net id).net with cages := [(63, c)] } }
    let v : BitVec 256 := ~~~0
    let s := { g 10000000 { phase := .ready, changeDt := some 0, mapped := true } with net := { (g 0 { phase := .ready, changeDt := some 0, mapped := true }).net with captured := some v } }
    let l := g 2000000001 { phase := .lowPower }
    s.phRuns = true ∧ s.net.captured = some v ∧ (s.cage 63).changeDt = some 0 ∧ 0 + 10000000 ≤ s.dt ∧ (s.cage 63).phase ≠ .debounceIn
      ∧ (l.cage 63).releaseDt + 2000000000 < l.dt ∧ (SMap.get {} s.net.buses 0).stuck = 0
      ∧ after (exec (.moduleScan 0) s) (fun u => u.net.captured = some 0
        && u.cage 63 = (s.cage 63).sees s.dt ((v >>> 252).setWidth 4)) = true
      ∧ after (exec (.presenceDebounceEnd 63) s) (fun u => (u.cage 63).phase = .absent && !(u.cage 63).resetN) = true
      ∧ after (exec (.moduleIdPoll 63 none true) (g 10000000 { phase := .idPoll })) (fun u => (u.cage 63).phase = .idPoll
        && (u.cage 63).pollDt = 10000000) = true
      ∧ after (exec (.moduleIdPoll 63 (some 9) false) (g 10000000 { phase := .idPoll })) (fun u => (u.cage 63).phase = .unsupported) = true
      ∧ after (exec (.moduleLowpwrPoll 63 false) (g 10000000 { phase := .lowPower })) (fun u => (u.cage 63).phase = .lowPower) = true
      ∧ after (exec (.modulePagesRead 63 ⟨0x50, 3, false, 0, []⟩) (g 0 { phase := .pages, powerClass := 3 })) (fun u => (u.cage 63).phase = .powerUp) = true
      ∧ after (exec (.moduleDiscoveryTimeout 63) l) (fun u => (u.cage 63).phase = .fault && !(u.cage 63).resetN) = true
      ∧ after (exec (.moduleDiscoveryTimeout 63) (g 0 { phase := .pages })) (fun u => (u.cage 63).phase = .fault) = true
      ∧ after (exec (.i2cBusRecovery 0 false) s) (fun u => (SMap.get {} u.net.buses 0).stuck = 1
        && (SMap.get {} u.net.buses 0).firstStuckDt = 10000000) = true := by decide +kernel

theorem wit_moduleCommands :
    let b := net id
    let m := { b with net := { b.net with cages := [(31, { mapped := true })] } }
    let d := List.replicate 32 (5 : Byte)
    let off := { b with net := { b.net with wells := [(7, { disabled := true })] } }
    let f := [(1, 31), (1, 0), (1, 0), (1, 128), (1, 32), (1, 1), bytesField 32 d]
    (due m 0x0208 f).accepts c0 0x0208 f ∧ (m.busCages 15).filter (· ≠ 31) = [] ∧ b.wellOff 7 = false ∧ b.wellDrained 7 = true
      ∧ okWith (due b 0x0206 [(1, 31), (1, 15), (1, 120), (1, 8), (1, 0)]) (.moduleMap c0 31 15 120 8 0) (fun u => (u.cage 31).mapped) = true
      ∧ okWith (due m 0x0207 [(1, 31), (1, 0), (1, 127), (1, 8)]) (.modulePolicy c0 31 0 127 8) (fun u => (u.cage 31).powerClass = 8) = true
      ∧ okWith (due m 0x0208 f) (.moduleAccess c0 31 0 0 128 32 1 d []) (fun u => u.out.modWrites = [(31, 0, 0, 128, d)]) = true
      ∧ okWith (due m 0x0208 [(1, 31), (1, 0), (1, 0), (1, 128), (1, 1), (1, 0), bytesField 32 d])
        (.moduleAccess c0 31 0 0 128 1 0 d [9]) (fun _ => true) = true
      ∧ okWith (due m 0x0209 [(1, 31)]) (.moduleStatus c0 31) (fun _ => true) = true
      ∧ after (exec (.wellEnable c0 7 0) (due b 0x0901 [(1, 7), (1, 0)])) (fun u => (u.well 7).disabling = some (some c0)
        && okWith u (.wellDisableDone 7) (fun v => (v.well 7).disabled)) = true
      ∧ okWith (due off 0x0901 [(1, 7), (1, 1)]) (.wellEnable c0 7 1) (fun u => !(u.well 7).disabled) = true
      ∧ okWith (due off 0x0901 [(1, 7), (1, 0)]) (.wellEnable c0 7 0) (fun u => u.net = off.net) = true
      ∧ okWith (due b 0x0901 [(1, 7), (1, 1)]) (.wellEnable c0 7 1) (fun u => u.net = b.net) = true := by
  unfold State.accepts; decide +kernel

/-- A write to an AUTO module beside its control bytes and one to its control bytes where the policy is not AUTO; a well that
ends its drain for the device itself (R107, R555). -/
theorem wit_moduleWrites :
    let b := net id
    let d := List.replicate 32 (5 : Byte)
    let f := [(1, 31), (1, 0), (1, 0), (1, 64), (1, 4), (1, 1), bytesField 32 d]
    let m := fun a => { b with net := { b.net with cages := [(31, { mapped := true, auto := a })] } }
    let w := { b with net := { b.net with wells := [(7, { disabling := some none })] } }
    controlByte 0 64 4 = false ∧ w.wellDrained 7 = true ∧ b.busOk 31 15 true = true
      ∧ okWith (due (m true) 0x0208 f) (.moduleAccess c0 31 0 0 64 4 1 d []) (fun u => u.out.modWrites = [(31, 0, 0, 64, d.take 4)]) = true
      ∧ okWith (due b 0x0206 [(1, 63), (1, 15), (1, 127), (1, 1), (1, 1)]) (.moduleMap c0 63 15 127 1 1) (fun u => (u.cage 63).hasModsel) = true
      ∧ after (exec (.wellDisableDone 7) w) (fun u => (u.well 7).disabled && (u.well 7).disabling = none) = true := by decide +kernel

/-! ### Order -/

/-- Cluster 0 admitted, with one packet on the dispatch list. -/
def listed (f : Pkt → Pkt) : State :=
  { net id with
    trust := { images := [img], porst := false }
    clusters := [(0, { st := .admitted, version := 1, loaded := true })]
    order := { nextPkt := 1, list := [0], pkts := [(0, f { st := .listed, accepted := true, hasSeq := true, parsed := true, tailIn := true, bytes := List.replicate 64 7, head := some 0, pref := 1 })], doms := [(0, { nextSeq := 1 })] }
    basin := { bufs := [(0, Buf.fresh 1 0 [0] (List.replicate 64 7) [])] }
    egress := { groups := [(0, { port := 0 })] } }

theorem wit_dispatch :
    let s := listed id
    s.place 0 = some (0, 0) ∧ s.order.list = [0] ∧ s.order.stopped = false ∧ s.order.fence = none ∧ (s.tr 0).cur = none
      ∧ (s.pkt 0).pref = 1 ∧ s.clusterEligible 0 0 (s.avoidCore 0) = true
      ∧ (s.rc 0).listDt + s.order.cfg.affinityWait ≤ ({ s with time := { ns := 100 } } : State).dt
      ∧ after (exec .dispatch s) (fun u => (u.tr 0).cur = some 0 && u.order.list = [] && (u.rc 0).imageVer = 1) = true
      ∧ after (exec (.affinityWaitExpiry 0) { s with time := { ns := 100 } }) (fun u => (u.tr 0).cur = some 0) = true := by decide +kernel

/-- A journal in the pending store. -/
def pended (j : List JEntry) (f : Pkt → Pkt) : State :=
  let s := listed fun k => f { k with st := .pending }
  { s with order := { s.order with list := [], pend := [⟨0, { journal := j, used := 1, copies := 1 }, 0, false, none⟩] } }

/-- The journal of `pended`. -/
def pj (j : List JEntry) : PendJ := ⟨0, { journal := j, used := 1, copies := 1 }, 0, false, none⟩

theorem wit_commit :
    let e : List JEntry := [.emit 0 0 0 false false none 0 []]
    let s := pended e id
    let s1 := pended [.count 0 5 true 1 2] id
    s.order.pend = [pj e] ∧ s.releasable (pj e) = true ∧ s1.releasable (pj [.count 0 5 true 1 2]) = true
      ∧ (s.pkt 0).domain % 16 = 0 ∧ SMap.get [] s.order.wal 0 = [] ∧ s.order.badLanes = [] ∧ s.order.fence = none
      ∧ s.copyPump (s.mkCopy 0 e 0 0 0 false none 0 [] none 0) < 8 ∧ s.order.marks = [] ∧ (s.rc 0).ct = false ∧ (s.dom 0).voids = []
      ∧ after (exec (.commit 0) s) (fun u => (u.pump 0).arrivals.length = 1 && (u.pkt 0).st = .finished && (u.dom 0).commitSeq = 1) = true
      ∧ after (exec (.commit 0) s1) (fun u => SMap.get {} u.tables.counters 5 = { resP := 1, resB := 66 }
        && (SMap.get [] u.order.wal 0).length = 1
        && after (exec (.logRecordAck 0) u) (fun v => SMap.get [] v.order.wal 0 = [])) = true := by decide +kernel

/-- A packet that has executed RETIRE and is not accepted, or not the oldest of its domain: nothing is released (R25). -/
theorem wit_commitWaits :
    let s := pended [.count 0 5 true 1 2] fun k => { k with accepted := false }
    let b := pended [.count 0 5 true 1 2] fun k => { k with seq := 1 }
    (∀ x ∈ [s, b], ∀ j ∈ x.order.pend, ¬((x.pkt j.pkt).accepted = true ∧ x.oldest j.pkt = true))
      ∧ after (exec (.commit 0) s) (fun u => u = s) = true ∧ after (exec (.commit 0) b) (fun u => u = b) = true := by decide +kernel

theorem wit_cutThrough :
    let s := (pended [.emit 0 0 0 false false none 0 []] fun k => { k with accepted := false, tailIn := false })
    (s.ctCopy 0).isSome = true
      ∧ after (exec (.cutThroughStart 0) s) (fun u => (u.rc 0).ct && (u.eport 0).now.map (·.copy) = (s.ctCopy 0).map Prod.snd) = true := by
  decide +kernel

/-- A fence of every domain whose drain ends at 5 ns. -/
def drainF : Fence := { version := 9, first := 0, count := 65536, breaks := 0, drainEnd := some 5 }

theorem wit_orderEvents :
    let s := listed id
    let f := { s with
      time := { ns := 50000000 }
      order := { s.order with commitReset := true, fence := some drainF, doms := [(0, { nextSeq := 1, live := 1 })] } }
    drainF.covers 0 = true ∧ f.beforeSwitch drainF 0 = true ∧ (f.pkt 0).hasSeq = true ∧ (f.pkt 0).st = .listed
      ∧ (f.pkt 0).refusal = none ∧ (f.rc 0).ct = false ∧ f.isForced 0 = false ∧ f.order.cfg.stallTime ≠ 0
      ∧ (f.dom 0).since + 1000000 * f.order.cfg.stallTime ≤ f.dt
      ∧ after (exec .commitResetResume f) (fun u => !u.order.commitReset) = true
      ∧ after (exec (.walUncorrectable 15 7) s) (fun u => u.order.badLanes = [15] && u.order.commitFault) = true
      ∧ after (exec .fenceDrainExpiry f) (fun u => (u.rc 0).fenced && u.order.cnt.fenceBreak = 1
        && u.order.fence = some { drainF with drainEnd := none, breaks := 1 }) = true
      ∧ after (exec (.orderStallTimer 0) f) (fun u => (u.dom 0).stalled) = true := by decide +kernel

theorem wit_orderCommands :
    let b := listed id
    let d := fun (x : State) (v fl first n : Nat) => due x 0x0409 [(2, v), (1, fl), (2, first), (4, n)]
    let o := [(8, 2000), (1, 2), (1, 63), (1, 100), (2, 1000)]
    let fence := fun (v first n : Nat) => ({ version := v, first := first, count := n, breaks := 0, drainEnd := none } : Fence)
    let f := { b with order := { b.order with fence := some (fence 9 65535 1) } }
    let all := { b with order := { b.order with fence := some (fence 9 0 65536) } }
    (due b 0x0408 o).accepts c0 0x0408 o
      ∧ (d b 9 0 65535 1).accepts c0 0x0409 [(2, 9), (1, false.toNat), (2, 65535), (4, 1)]
      ∧ (d b 9 1 7 0).accepts c0 0x0409 [(2, 9), (1, true.toNat), (2, 7), (4, 0)]
      ∧ (d f 9 2 0 0).accepts c0 0x0409 [(2, 9), (1, false.toNat + 2), (2, 0), (4, 0)]
      ∧ (d f 9 3 0 0).accepts c0 0x0409 [(2, 9), (1, true.toNat + 2), (2, 0), (4, 0)]
      ∧ okWith (due b 0x0408 o) (.orderConfig c0 2000 2 63 100 1000) (fun u => u.order.cfg = ⟨2000, 2, 63, 100, 1000⟩) = true
      ∧ okWith (d b 9 0 65535 1) (.versionFence c0 9 false false 65535 1) (fun u => u.order.fence = some (fence 9 65535 1)) = true
      ∧ okWith (d b 9 1 7 0) (.versionFence c0 9 true false 7 0) (fun u => u.order.fence = some (fence 9 0 65536)) = true
      ∧ okWith (d f 9 0 65535 1) (.versionFence c0 9 false false 65535 1) (fun u => u.order.fence = f.order.fence) = true
      ∧ okWith (d all 9 1 7 0) (.versionFence c0 9 true false 7 0) (fun u => u.order.fence = all.order.fence) = true
      ∧ after (exec (.versionFence c0 8 false false 0 65536) (d f 8 0 0 65536)) (fun u => st u = some 7) = true
      ∧ okWith (d f 9 2 0 0) (.versionFence c0 9 false true 0 0) (fun u => u.order.fence.isNone) = true
      ∧ okWith (d f 9 3 0 0) (.versionFence c0 9 true true 0 0) (fun u => u.order.fence.isNone) = true
      ∧ okWith (due b 0x040A [(2, 65472), (1, 64)]) (.domainStatus c0 65472 64) (fun _ => true) = true
      ∧ okWith (due b 0x040B []) (.orderStats c0) (fun _ => true) = true := by unfold State.accepts; decide +kernel

/-! ### Egress -/

/-- A copy of the 60-byte frame in buffer 0, for queue 0. -/
def cp : Copy :=
  { handle := 0, queue := 0, len := 60, ts := false, mark := false, ct := false, txl := [], edit := [], ops := 0, member := none,
    no := 0, inPort := 0, pkt := 0, domain := 0, seq := 0, finalLen := 64, ingressDt := 0, qns := 0, slots := 0, release := none, hostTx := none }

def buf0 : Buf := { Buf.fresh 1 0 [0] (List.replicate 64 7) [] with count := 2 }

def pumping (f : Pump → Pump) (g : Queue → Queue) : State :=
  let s := listed fun k => { k with st := .finished }
  { s with
    basin := { bufs := [(0, buf0)] }
    egress := { s.egress with pumps := [(0, f {})], queues := [(0, g {})] } }

/-- A queue of an extended port, whose E-channel 0 goes to cascade port 0 (R93). -/
def extended (s : State) : State :=
  { s with
    net := { s.net with ecid := [(0, 1 + (128 <<< 30))] }
    egress := { s.egress with groups := [(0, { port := 128 })] } }

theorem wit_enqueue :
    let s := pumping (fun p => { p with arrivals := [cp] }) id
    let e := extended s
    let w := pumping (fun p => { p with wheel := [(0, cp)] }) id
    Claims.enqueues s cp [] buf0 ∧ Claims.enqueues w cp [] buf0 ∧ Claims.enqueues e cp [] buf0 ∧ (e.bindCascade cp).cascade = some 0
      ∧ (s.pump 0).resetting = false
      ∧ after (exec (.copyArrival 0) s) (fun u => (u.pump 0).arrivals = [] && (u.queue 0).head = [Claims.queued s cp [] buf0]) = true
      ∧ after (exec (.copyArrival 0) e) (fun u => (u.queue 0).head = [Claims.queued e cp [] buf0]) = true
      ∧ after (exec (.wheelSlot 0) w) (fun u => (u.pump 0).wheel = [] && (u.queue 0).head = [Claims.queued w cp [] buf0]) = true := by
  unfold Claims.enqueues; decide +kernel

/-- A release within the wheel, one at its last slot and one beyond it (R412). -/
theorem wit_wheel :
    let t := fun r => pumping (fun p => { p with arrivals := [{ cp with release := some r }] }) id
    (t 1).dt < 1 ∧ ((t 1).pump 0).wheel.length < 16384 ∧ 16383000 ≤ (t 1).dt + 16383000 ∧ (t 1).dt + 16383000 < 16383001
      ∧ after (exec (.copyArrival 0) (t 1)) (fun u => (u.pump 0).wheel.map Prod.fst = [1] && (u.pump 0).arrivals = []) = true
      ∧ after (exec (.copyArrival 0) (t 16383000)) (fun u => (u.pump 0).wheel.map Prod.fst = [16383]) = true
      ∧ after (exec (.copyArrival 0) (t 16383001)) (fun u => (u.pump 0).clamp = 1) = true := by decide +kernel

theorem wit_transmit :
    let s := pumping id fun q => { q with head := [cp] }
    let p := { s with egress := { s.egress with eports := [(0, { now := some ⟨cp, List.replicate 64 7, some 8, 0, 0⟩ })] } }
    s.macTakes 0 = true ∧ (s.select 0).2 = some 0 ∧ s.buf cp.handle = some buf0 ∧ 2 ≤ buf0.count ∧ buf0.broken = none
      ∧ s.testing 0 4 = false ∧ cp.hostTx = none
      ∧ (match s.rewrite 0 cp buf0.frame (buf0.cls = 3) s.dt s.qns with | .frame f => f.length = 60 | _ => false) = true
      ∧ after (exec (.pumpSelect 0 none) s) (fun u => (u.eport 0).now.isSome && (u.queue 0).head = []
        && after (exec (.txComplete 0) u) (fun v => v.out.wire.length = 1 && (v.rc 0).sent = 1
          && (v.buf 0).map (·.count) = some 1)) = true
      ∧ after (exec (.pumpSelect 0 (some (.data 5))) s) (fun u => (u.eport 0).now = none && (u.queue 0).drops = 1) = true
      ∧ after (exec (.txComplete 0) p) (fun u => u.out.wire.map (fun w => (w.bytes.length, w.fcsGood)) = [(8, false)]
        && (u.port 0).mac.stomps = 1) = true := by decide +kernel

theorem wit_egressTimers :
    let s := pumping id fun q => { q with head := [cp], shaper := { rate := 15625, burst := 64, tokens := -100, last := 0 } }
    let e := fun (x : EPort) => { s with time := { ns := 1000000000 }, egress := { s.egress with eports := [(0, x)] } }
    let p := e { pauseEnd := [(8, 5)], xoff := [(8, 5), (0, 5)], phase := .hold }
    let f := e { phase := .flush }
    let q := pumping id fun q => { q with head := [cp], flush := some c0 }
    s.portGroups 0 = [0] ∧ SMap.get 0 (p.eport 0).xoff 8 + 0x8000 * 512 / p.portRate 0 ≤ p.dt + 1 ∧ s.queuePhys 0 = some 0
      ∧ (p.eport 0).downPolicy = 0 ∧ (p.eport 0).downDt + 1000000 * (p.eport 0).holdTime ≤ p.dt
      ∧ ((f.egress.queues.filter fun e => f.pumpOf e.1 = 0).map Prod.fst).find? (fun q => !(f.queue q).empty
        && (f.flushing q || (f.queue q).flush.isSome)) = some 0
      ∧ q.flushing 0 = false
      ∧ after (exec (.shaperTokensReturn 0) (e {})) (fun u => (u.queue 0).shaper.tokens = 64 * 512
        && (u.queue 0).shaper.last = 1000000000 && (u.queue 1).shaper.rate = 0) = true
      ∧ after (exec (.pauseExpiry 0 8) p) (fun u => SMap.get 0 (u.eport 0).pauseEnd 8 = 0) = true
      ∧ after (exec (.pfcResend 0 8) p) (fun u => u.out.fcTx = [(0, 0x100, 0xFFFF)]) = true
      ∧ after (exec (.pfcResend 0 0) p) (fun u => u.out.fcTx.length = 1) = true
      ∧ after (exec (.holdTimeExpiry 0) p) (fun u => (u.eport 0).phase = .flush) = true
      ∧ after (exec (.flushWalk 0) f) (fun u => (u.queue 0).head = [] && (u.queue 0).drops = 1) = true
      ∧ okWith (due q 0x070C [(1, 0), (2, 0)]) (.flushWalk 0) (fun u => (u.queue 0).flush.isNone) = true
      ∧ after (exec (.pumpResetDone 0) (pumping (fun p => { p with resetting := true }) id)) (fun u => !(u.pump 0).resetting) = true := by
  decide +kernel

/-- A cistern record of the copy. -/
def rec0 : SpillRec Copy := { copy := cp, bytes := List.replicate 60 7, poison := false, blocks := [3], recNo := 0 }

/-- `pumping` with the smallest cistern, 3 us after reset. -/
def spilling (g : Queue → Queue) : State :=
  { pumping id g with time := { ns := 3000 }, cistern := { sizeGib := 8, limit := 8 * 262144 } }

theorem wit_spillChoose :
    let t := spilling fun q => { q with tail := List.replicate 257 cp, spillEn := true }
    let g := spilling fun q => { q with tail := List.replicate 257 cp, spillEn := true, agg := some ⟨[cp], 0, false, []⟩ }
    let n := { t with hbm := { t.hbm with capUsed := 262144, capNs := 3000 } }
    (t.queue 0).spillOn < t.cellsOf ((t.queue 0).head ++ (t.queue 0).tail) ∧ t.freeBlock.isSome = true ∧ t.openAggs 0 < 64
      ∧ t.spillSpent = false ∧ n.spillSpent = true ∧ aggBytes ⟨[cp], 0, false, []⟩ < 4064
      ∧ after (exec (.spillChoose 0) t) (fun u => (u.queue 0).tail.length = 256 && (u.queue 0).agg.isSome) = true
      ∧ after (exec (.spillChoose 0) g) (fun u => (u.queue 0).agg.map (·.copies.length) = some 2) = true
      ∧ after (exec (.spillChoose 0) n) (fun u => (u.pump 0).deferBw = 1 && u.queue 0 = n.queue 0) = true := by decide +kernel

theorem wit_spillWrite :
    let a := spilling fun q => { q with agg := some ⟨[cp], 1000, false, []⟩ }
    let w := spilling fun q => { q with writing := [⟨[], 0, true, [rec0]⟩] }
    (a.queue 0).records = [] ∧ (a.buf cp.handle).bind Buf.broken = none ∧ a.freeBlock = some 0
      ∧ (match (a.spillCopy cp).2 with | .frame f => f.length = 60 | _ => false) = true ∧ w.spillBusy true [3] = false
      ∧ after (exec (.aggregateTimer 0 ⟨0, []⟩) a) (fun u => (u.queue 0).agg = none && u.cistern.usedBlocks = [0]
        && (u.queue 0).writing.map (fun x => x.recs.map fun r => (r.copy.handle, r.basin)) = [[(cisternHandle 0 0, 0)]]) = true
      ∧ after (exec (.aggregateWriteAck 0 0) w) (fun u => (u.queue 0).spill = [rec0] && (u.queue 0).writing = []) = true := by decide +kernel

theorem wit_refill :
    let l := spilling fun q => { q with spill := [rec0] }
    let g := spilling fun q => { q with agg := some ⟨[cp], 1000, false, []⟩, tail := [cp] }
    let d := spilling fun q => { q with refilling := [[rec0]] }
    l.cellsOf (l.queue 0).head < (l.queue 0).refillLow ∧ recCells rec0 ≤ l.refillRoom 0
      ∧ d.spillBusy false [3] = false ∧ d.headerPoison [3] = false ∧ d.recPoison rec0 = none
      ∧ (match (d.updQueue 0 fun x => { x with refilling := [] }).allocCells 8 [entRefill 0] (recCells rec0) [] with
        | (_, some (_ :: _), _) => true
        | _ => false) = true
      ∧ after (exec (.refillRead 0) l) (fun u => (u.queue 0).refilling = [[rec0]] && (u.queue 0).spill = []) = true
      ∧ after (exec (.refillRead 0) g) (fun u => (u.queue 0).head = [cp, cp] && (u.queue 0).agg = none && (u.queue 0).tail = []) = true
      ∧ after (exec (.refillReadDone 0 none) d) (fun u => (u.queue 0).head.length = 1 && (u.queue 0).refilling = []) = true := by
  decide +kernel

theorem wit_buffers :
    let b := { hbmOn with basin := { rebuild := true, rebuildWait := true, orphans := [(5, [])] }, time := { ns := 1000000 } }
    let z := { hbmOn with cistern := { sizeGib := 9, limit := 262144 * 8, shrinking := true, shrink := none } }
    let c := due { hbmOn with cistern := { sizeGib := 9, limit := 262144 * 8, shrinking := true, shrink := some c0 } } 0x0702 [(1, 8)]
    b.phRuns = true ∧ poolFor 64 = some 0 ∧ poolFor 1048576 = none ∧ poolFree (SMap.get [] b.basin.pools 2) < poolSize 2 ∧ 0 < poolSize 0
      ∧ after (exec .rebuildRetry b) (fun u => !u.basin.rebuildWait && u.basin.rebuildStart = 1000000
        && after (exec .basinRebuildDone u) (fun v => !v.basin.rebuild && v.basin.orphans = [])) = true
      ∧ after (exec (.sizedPoolAlloc 7 64) b) (fun u => SMap.get [] u.basin.pools 0 = [(0, { cls := 7 })]) = true
      ∧ after (exec .cisternShrinkDone z) (fun u => u.cistern.sizeGib = 8 && !u.cistern.shrinking) = true
      ∧ okWith c .cisternShrinkDone (fun u => u.cistern.sizeGib = 8 && u.cistern.shrink = none) = true := by decide +kernel

theorem wit_bufferCommands :
    let b := { hbmOn with basin := { bufs := [(0, { buf0 with cls := 3, held := true, count := 1 })] } }
    let b0 := { hbmOn with basin := { bufs := [(0, { buf0 with cls := 3, held := true, count := 0 })] } }
    let h := fun (x : State) => due x 0x0703 [(1, 0), (1, 0), (2, 1), (4, 0)]
    let g := { hbmOn with cistern := { sizeGib := 9 } }
    (due b 0x0700 [(1, 5), (2, 0), (4, 5), (4, 5), (1, 0)]).accepts c0 0x0700 [(1, 5), (2, 0), (4, 5), (4, 5), (1, 0)]
      ∧ 0 < entCount 5 ∧ b.minSum - (b.ent (5 * 65536)).min + 5 ≤ 425984 ∧ (8 - 0) * 1073741824 ≤ cisOn.cisternRoom
      ∧ (h b).tooLong c0 (.data (layout [(4, 1), (4, 0)])) = false ∧ (due b 0x0704 []).tooLong c0 (.data b.bufferImage) = false
      ∧ okWith (due b 0x0700 [(1, 5), (2, 0), (4, 5), (4, 5), (1, 0)]) (.bufferQuotaSet c0 5 0 5 5 0) (fun u => (u.ent (5 * 65536)).min = 5) = true
      ∧ okWith (due b 0x0701 [(2, 65535), (1, 1), (4, 256), (2, 16)]) (.queueSpillSet c0 65535 1 256 16) (fun u => (u.queue 65535).spillEn) = true
      ∧ okWith (due cisOn 0x0702 [(1, 8)]) (.cisternConfig c0 8) (fun u => u.cistern.sizeGib = 8) = true
      ∧ okWith (due g 0x0702 [(1, 9)]) (.cisternConfig c0 9) (fun u => u.cistern = g.cistern) = true
      ∧ after (exec (.cisternConfig c0 8) (due g 0x0702 [(1, 8)])) (fun u => u.cistern.shrinking && u.cistern.shrink = some c0) = true
      ∧ okWith (h b) (.bufferReclaim c0 0 0 [0]) (fun u => (u.buf 0).map (·.held) = some false) = true
      ∧ okWith (h b0) (.bufferReclaim c0 0 0 [0]) (fun u => u.buf 0 = none) = true
      ∧ okWith (due b 0x0703 [(1, 1), (1, 11), (2, 0)]) (.bufferReclaim c0 1 11 []) (fun _ => true) = true
      ∧ okWith (due b 0x0704 []) (.bufferStatus c0) (fun _ => true) = true := by unfold State.accepts; decide +kernel

/-! ### Egress commands -/

theorem wit_egressCommands :
    let d := due State.reset
    let q := pumping id fun q => { q with head := [cp] }
    (d 0x0705 [(2, 8191), (2, 1023), (1, 255), (1, 3), (4, 5), (4, 64)]).accepts c0 0x0705
        [(2, 8191), (2, 1023), (1, 255), (1, 3), (4, 5), (4, 64)]
      ∧ State.reset.groupHolds 8191 = false ∧ (memberEdit 0x400000101).isSome = true
      ∧ okWith (d 0x0705 [(2, 8191), (2, 1023), (1, 255), (1, 3), (4, 5), (4, 64)])
        (.queueGroupSet c0 8191 1023 255 3 5 64) (fun u => (u.group 8191).port = 1023) = true
      ∧ okWith (d 0x0706 [(2, 65535), (4, 1048575), (1, 1), (1, 255), (4, 9), (4, 16777215)])
        (.queueConfig c0 65535 1048575 1 255 9 16777215) (fun u => (u.queue 65535).wred = 255) = true
      ∧ okWith (d 0x0707 [(2, 1023), (4, 7), (4, 64), (1, ofInt 8 (-32)), (1, 2), (2, 60000), (4, 0x765432)])
        (.egressPortSet c0 1023 7 64 (-32) 2 60000 0x765432) (fun u => (u.eport 1023).overhead = -32) = true
      ∧ okWith (d 0x0708 [(1, 255), (4, 1), (4, 1048575), (1, 255), (1, 15), (1, 1), (4, 3)])
        (.wredProfileSet c0 255 1 1048575 255 15 1 3) (fun u => (SMap.get {} u.egress.wreds 255).ecn) = true
      ∧ okWith (d 0x0709 [(1, 127), (1, 8), (4, 1048575), (4, 9)]) (.pfcThresholdSet c0 127 8 1048575 9)
        (fun u => SMap.get 0 (u.eport 127).thrOn 8 = 9) = true
      ∧ okWith (d 0x070A [(2, 16383), (1, 1), (1, 0), (4, 0x1FFFFFFF)]) (.mcGroupSet c0 16383 [0x1FFFFFFF])
        (fun u => SMap.get [] u.egress.mcGroups 16383 = [0x1FFFFFFF]) = true
      ∧ okWith (d 0x070B [(2, 4094), (16, 0x400000101)]) (.mcMemberOpSet c0 4094 0x400000101)
        (fun u => SMap.get 0 u.egress.memberOps 4094 = 0x400000101) = true
      ∧ okWith (d 0x070C [(1, 0), (2, 0)]) (.queueFlush c0 0 0) (fun _ => true) = true
      ∧ (q.queue 0).empty = false
      ∧ after (exec (.queueFlush c0 0 0) (due q 0x070C [(1, 0), (2, 0)])) (fun u => (u.queue 0).flush = some c0) = true
      ∧ groupQueues 8191 = (List.range 8).map (65528 + ·) ∧ (∀ k ∈ groupQueues 8191, ((d 0x070C []).queue k).empty = true)
      ∧ okWith (d 0x070C [(1, 1), (2, 8191)]) (.queueFlush c0 1 8191) (fun _ => true) = true
      ∧ after (exec (.queueFlush c0 1 0) (due q 0x070C [(1, 1), (2, 0)])) (fun u => (u.queue 7).flush = some c0) = true
      ∧ okWith (d 0x070D [(1, 10), (1, 20), (1, 2), (1, 63)]) (.sumpConfig c0 10 20 2 63)
        (fun u => (SMap.get {} u.egress.samples 10).ring = 63) = true
      ∧ okWith (d 0x070E [(2, 65535), (2, 1)]) (.queueStats c0 65535 1) (fun _ => true) = true
      ∧ okWith (d 0x070F []) (.sumpStats c0) (fun _ => true) = true := by unfold State.accepts; decide +kernel

/-! ### Host registers -/

/-- Host A's link is up, with its rings placed; the device is READY with a graph in every well. -/
def hostOn (f : FnSt → FnSt) : State :=
  let s := net id
  { s with dci := { st := .ready, fnA := f { linkUp := true }, lease := { holder := some .hostA, gen := 4, deadline := 10 ^ 15 } } }

/-- Two outcomes are the same next state. -/
def same (a b : Out) : Bool :=
  match a, b with
  | .next u, .next v => u = v
  | _, _ => false

/-- The command entry that asks for LEASE_CONFIG with 5,000 ms. -/
def entry (seq : W32) : CmdEntry := ⟨0x0104, 0, seq, 4, 9, 0, [0x88, 0x13, 0, 0]⟩

theorem wit_answer :
    let s := due State.reset 0x0100 []
    ((s.jcmd c0).map fun j => (j.resp, j.e.flags.getLsbD 1, j.dups)) = some (none, false, []) ∧ s.dci.st = .ready
      ∧ (((s.answer c0 (.reply 3 7 [1, 2] [])).jcmd c0).bind fun j => j.resp) = some ⟨3, 7, [1, 2] ++ List.replicate 38 0, false, false⟩
      ∧ (s.answer c0 (.reply 3 7 [1, 2] [])).answer c0 (.reply 5 0 [] []) = s.answer c0 (.reply 3 7 [1, 2] [])
      ∧ ((s.answer c0 .later).jcmd c0).map (·.started) = some true := by decide +kernel

theorem wit_commandFetch :
    let s := hostOn fun x => { x with cmdBase := 1, cmdTail := 3, cseq := 6 }
    let a := after (exec (.commandFetch .hostA (entry 7)) s)
    s.canFetch .hostA = true ∧ s.jcmd ⟨.hostA, 7⟩ = none ∧ s.mine .hostA = true
      ∧ (match catOf 0x0104 with | some r => wellFormedEntry r (entry 7) | none => false) = true
      ∧ (entry 9).cseq - (s.fn .hostA).cseq = 3
      ∧ a (fun u => (u.fn .hostA).cseq = 7 && (u.fn .hostA).cmdHead = 1 && (u.jcmd ⟨.hostA, 7⟩).isSome
        && after (exec (.leaseConfig ⟨.hostA, 7⟩ 5000) u) (fun v => v.dci.lease.timeoutMs = 5000
          && after (exec (.commandFetch .hostA (entry 7)) v) (fun w => w.dci.journal = v.dci.journal && (w.fn .hostA).cmdHead = 2))) = true
      ∧ after (exec (.commandFetch .hostA (entry 9)) s) (fun u => u.dci.journal = [] && (u.fn .hostA).cseq = 6) = true := by
  decide +kernel

theorem wit_hostRings :
    let s := hostOn fun x => { x with eseqIssued := 9, eseqAcked := 3 }
    let o := hostOn fun x => { x with cmdBase := 0x1001 }
    s.reach .hostA = true ∧ (0x4003 : W64).getLsbD 0 = true ∧ ((s.fn .hostA).ringBase 1).getLsbD 0 = false
      ∧ ((9 : W32) - 3).toNat ≤ ((s.fn .hostA).eseqIssued - (s.fn .hostA).eseqAcked).toNat
      ∧ same (exec (.cmdDoorbell .hostA 7) s) (exec (.registerWrite .hostA 0 0x1010 8 7) s) = true
      ∧ same (exec (.rspHeadWrite .hostA 7) s) (exec (.registerWrite .hostA 0 0x1038 8 7) s) = true
      ∧ same (exec (.eseqAckWrite .hostA 9) s) (exec (.registerWrite .hostA 0 0x1060 8 9) s) = true
      ∧ same (exec (.leaseHeartbeatWrite .hostA 4) s) (exec (.registerWrite .hostA 0 0x28 8 4) s) = true
      ∧ after (exec (.cmdDoorbell .hostA 7) s) (fun u => (u.fn .hostA).cmdTail = 7) = true
      ∧ after (exec (.rspHeadWrite .hostA 7) s) (fun u => (u.fn .hostA).rspHead = 7) = true
      ∧ after (exec (.eseqAckWrite .hostA 9) s) (fun u => (u.fn .hostA).eseqAcked = 9) = true
      ∧ after (exec (.dciRingEnable .hostA 1 0x4003) s) (fun u => (u.fn .hostA).rspBase = 0x4001) = true
      ∧ after (exec (.dciRingDisable .hostA 0) o) (fun u => (u.fn .hostA).cmdBase = 0x1000) = true
      ∧ after (exec (.functionReset .hostA true) o) (fun u => !(u.fn .hostA).linkUp && (u.fn .hostA).cmdBase = 0x1000) = true
      ∧ after (exec (.hostLinkUp .hostA) (hostOn fun x => { x with linkUp := false })) (fun u => (u.fn .hostA).linkUp) = true
      ∧ after (exec (.registerWrite .hostA 0 (0x2000 + 8 * 191) 8 0xFFFFFFFFFFFFFFFF) s)
        (fun u => SMap.get 0 (u.fn .hostA).intMap 191 = 0xFFFF013F) = true
      ∧ same (exec (.registerWrite .hostA 0 0x24 8 5) s) (.next s) = true ∧ same (exec (.registerWrite .hostA 0 0x1010 4 5) s) (.next s) = true := by decide +kernel

theorem wit_lease :
    let s := hostOn id
    let l := fun (f : LeaseSt → LeaseSt) => { s with dci := { s.dci with lease := f s.dci.lease } }
    let z := l fun x => { x with frozen := some 5 }
    let e := l fun x => { x with deadline := 0 }
    let d := fun (x : State) op fs (y : LeaseSt) => let v := due x op fs; { v with dci := { v.dci with lease := y } }
    s.mine .hostA = true ∧ z.dci.lease.frozen = some 5 ∧ e.dci.lease.holder.isSome = true ∧ e.dci.lease.deadline ≤ e.dt
      ∧ (d s 0x0102 [] {}).accepts c0 0x0102 []
      ∧ after (exec (.leaseHeartbeatWrite .hostA 4) s) (fun u => u.dci.lease.deadline = 3000000000) = true
      ∧ after (exec (.leaseHeartbeatWrite .hostA 3) s) (fun u => u.dci.lease.ignored = 1) = true
      ∧ after (exec (.leaseHeartbeatWrite .hostA 4) z) (fun u => u.dci.lease.frozen = some 3000000000) = true
      ∧ after (exec .leaseExpiry e) (fun u => u.dci.lease.expired) = true
      ∧ okWith (d s 0x0102 [] {}) (.leaseClaim c0) (fun u => u.dci.lease.holder = some .hostA && u.dci.lease.gen = 1) = true
      ∧ after (exec (.leaseClaim c0) (d s 0x0102 [] { holder := some .hostB })) (fun u => st u = some 7) = true
      ∧ okWith (d s 0x0102 [] { holder := some .hostA, gen := 4 }) (.leaseClaim c0) (fun u => u.dci.lease.gen = 4
        && u.dci.lease.deadline = 3000000000) = true
      ∧ okWith (due s 0x0103 []) (.leaseRelease c0) (fun u => u.dci.lease.holder = none) = true
      ∧ okWith (d s 0x0103 [] {}) (.leaseRelease c0) (fun u => u.dci.lease.gen = 0) = true
      ∧ after (exec (.leaseConfig c0 999) (due s 0x0104 [(4, 999)])) (fun u => st u = some 4) = true
      ∧ after (exec (.leaseConfig c0 60001) (due s 0x0104 [(4, 60001)])) (fun u => st u = some 4) = true
      ∧ okWith (due s 0x0104 [(4, 60000)]) (.leaseConfig c0 60000) (fun u => u.dci.lease.timeoutMs = 60000) = true
      ∧ okWith (due s 0x0100 []) (.nopC c0) (fun _ => true) = true
      ∧ okWith (due s 0x0101 []) (.deviceInfo c0) (fun _ => true) = true
      ∧ okWith (due s 0x0105 [(1, 0)]) (.deviceReset c0 0) (fun u => u.trust.resetAt = some 1000000) = true := by
  unfold State.accepts; decide +kernel

theorem wit_puntRings :
    let p : PuntCopy := ⟨0, List.replicate 60 7, 2, 0, 0, 0, 0, 0, 0, none⟩
    let s := hostOn fun x => { x with intWait := [1], rx := [(63, { base := 1, tail := 1, waiting := [p] })], tx := [(5, { base := 1, tail := 1 })] }
    let f := List.replicate 60 (9 : Byte)
    (s.fn .hostA).intWait.contains 1 = true ∧ SMap.get 0 (s.fn .hostA).intGap 1 ≤ s.dt
      ∧ (s.puntRing .hostA false 9).base.getLsbD 0 = false ∧ (s.puntRing .hostA true 5).base.getLsbD 0 = true
      ∧ (s.rxRing .hostA 63).posted = 1 ∧ bufOk (4096, 256) = true ∧ badDesc 60 0 65535 = false
      ∧ (∃ v h hs g, s.allocCells 17 [entHost .hostA] ((60 + 4 + 255) / 256) [] = (v, some (h :: hs), g))
      ∧ after (exec (.intModExpiry .hostA 1) s) (fun u => (u.fn .hostA).intWait = []) = true
      ∧ after (exec (.puntRingEnable .hostA false 9 0x801F) s) (fun u => (u.puntRing .hostA false 9).base = 0x8001) = true
      ∧ after (exec (.puntRingDisable .hostA true 5) s) (fun u => (u.puntRing .hostA true 5).base = 0) = true
      ∧ after (exec (.puntRxPost .hostA 63 7) s) (fun u => (u.puntRing .hostA false 63).tail = 7) = true
      ∧ after (exec (.puntTxDoorbell .hostA 63 7) s) (fun u => (u.puntRing .hostA true 63).tail = 7) = true
      ∧ same (exec (.puntRxPost .hostA 63 7) s) (exec (.registerWrite .hostA 2 (4096 * 63) 8 7) s) = true
      ∧ same (exec (.puntTxDoorbell .hostA 63 7) s) (exec (.registerWrite .hostA 2 (0x40000 + 4096 * 63) 8 7) s) = true
      ∧ after (exec (.puntRxDeliver .hostA 63 [(4096, 256)]) s) (fun u => u.out.punted = [(.hostA, 63, p.bytes)]) = true
      ∧ after (exec (.puntTxFetch .hostA 5 60 0 0 65535 f) s) (fun u => (u.puntRing .hostA true 5).done = 1
        && (u.pump (s.pumpOf 65535)).arrivals.length = 1) = true := by
  refine ⟨by decide +kernel, by decide +kernel, by decide +kernel, by decide +kernel, by decide +kernel, by decide +kernel,
    by decide +kernel, ⟨_, _, _, _, rfl⟩, ?_⟩
  decide +kernel

/-- A frame over two buffers, and two of host's descriptors (R503, R505). -/
theorem wit_puntParts :
    let p : PuntCopy := ⟨0, List.replicate 300 7, 2, 0, 0, 0, 0, 0, 0, none⟩
    let s := hostOn fun x => { x with rx := [(0, { base := 1, tail := 2, waiting := [p] })], tx := [(63, { base := 1, tail := 1 })] }
    (s.rxRing .hostA 0).posted = 2 ∧ [(4096, 256), (8192, 256)].all bufOk = true ∧ fitsBufs 300 [(4096, 256), (8192, 256)] = true
      ∧ (s.puntRing .hostA true 63).posted ≠ 0 ∧ (s.puntRing .hostA true 63).base.getLsbD 0 = true
      ∧ after (exec (.puntRxDeliver .hostA 0 [(4096, 256), (8192, 256)]) s) (fun u => (u.rxRing .hostA 0).done = 2
        && u.out.punted = [(.hostA, 0, p.bytes)] && (u.rxRing .hostA 0).waiting = []) = true
      ∧ after (exec (.puntTxFetch .hostA 63 13 9 0 0 (List.replicate 13 7)) s) (fun u => (u.puntRing .hostA true 63).done = 1
        && (u.puntRing .hostA true 63).head = 1) = true := by decide +kernel

/-- What a host reads: the end of the interrupt map, the rings, the identity, an offset no register has (R19, R476, R481). -/
theorem wit_hostRead :
    let s := hostOn fun x => { x with cmdBase := 0x4001, intMap := [(191, 5)], eseqAcked := 3 }
    let r := fun (off : Nat) => (s.hostRead .hostA 0 off 8).2
    s.reach .hostA = true ∧ r 0x10 = some 2 ∧ r 0x28 = some 0 ∧ r 0x1000 = some 0x4001 ∧ r 0x1048 = some 1024 ∧ r 0x1028 = some 256
      ∧ r (0x2000 + 8 * 191) = some 5 ∧ r 0x1060 = some 3 ∧ r 0x30 = some ones64 ∧ r 0xFF8 = some ones64
      ∧ (s.hostRead .hostA 0 0x1000 4).2 = some ones64 ∧ (s.hostRead .hostA 0 0x1004 8).2 = some ones64
      ∧ r 0x103000 = some s.basinStatus := by decide +kernel

/-! ### Programs, clusters and units -/

/-- The header of a program image of version 2, whose text is 64 bytes, with this digest. -/
def progHead (digest : List Byte) : List Byte :=
  leBytes 4 0x4B525631 ++ leBytes 2 1 ++ leBytes 2 0 ++ leBytes 2 2 ++ leBytes 2 0 ++ leBytes 4 64 ++ List.replicate 16 0 ++ digest
    ++ List.replicate 192 0

def progImage (digest : List Byte) : List Byte := progHead digest ++ List.replicate 4160 0

/-- A device with room for images. -/
def progOn : State := { net id with mem := { regions := [⟨3, 0x40000000, 0x8000000, 27, 0⟩] } }

/-- SM3 of "abc", the first example of GB/T 32905. -/
theorem test_sm3_abc : sm3 [0x61, 0x62, 0x63] = [0x66, 0xc7, 0xf0, 0xf4, 0x62, 0xee, 0xed, 0xd9, 0xd1, 0xf2, 0xd4, 0x6b, 0xdc,
    0x10, 0xe4, 0xe2, 0x41, 0x67, 0xc4, 0x87, 0x5c, 0xf2, 0xf7, 0xa2, 0x29, 0x7d, 0xa0, 0x2b, 0x8f, 0x4b, 0xa8, 0xe0] := by
  decide +kernel

theorem sm3_len : (sm3 (List.replicate 4160 0)).length = 32 := by decide +kernel

theorem slice_digest (d : List Byte) (hd : d.length = 32) : slice (progImage d) 32 32 = d := by
  unfold progImage progHead slice
  rw [List.append_assoc, List.append_assoc, List.drop_left' (by decide +kernel), List.take_left' hd]
  simp [hd]

theorem leVal_zeros (n : Nat) : leVal (List.replicate n 0) = 0 := by
  induction n with
  | zero => rfl
  | succ n ih => rw [List.replicate_succ, leVal, ih]; rfl

theorem imageWord_zeros (h : List Byte) (hl : h.length = 256) (n i k : Nat) : imageWord (h ++ List.replicate n 0) i k = 0 := by
  have e : (h ++ List.replicate n 0).drop (256 + 2048 * i + 8 * k) = List.replicate (n - (2048 * i + 8 * k)) (0 : Byte) := by
    rw [List.drop_append, List.drop_of_length_le (by omega), List.drop_replicate, hl]
    rw [List.nil_append, show 256 + 2048 * i + 8 * k - 256 = 2048 * i + 8 * k by omega]
  unfold imageWord slice
  simp only [e, List.take_replicate, List.length_replicate, List.replicate_append_replicate, leVal_zeros]

theorem form_of (d : List Byte) (hd : (progHead d).length = 256)
    (h : ((List.range 5).map fun k => leVal (slice (progImage d) (2 * k) 2)) = [0x5631, 0x4B52, 1, 0, 2])
    (h1 : leVal (slice (progImage d) 0 4) = 0x4B525631 ∧ leVal (slice (progImage d) 10 1) = 0
      ∧ leVal (slice (progImage d) 12 4) = 64 ∧ leVal (slice (progImage d) 16 4) = 0) : imageFormOk 2 (progImage d) = true := by
  obtain ⟨a, b, c, e⟩ := h1
  simp [List.range_succ] at h
  have hl : (progImage d).length = 4416 := by unfold progImage; rw [List.length_append, hd, List.length_replicate]
  have w : ∀ i k, imageWord (progImage d) i k = 0 := fun i k => imageWord_zeros _ hd _ i k
  simp [imageFormOk, a, b, c, e, h, hl, w, offsetOk]

theorem wit_imageLoad :
    let f := [(2, 2), (8, 0x5000), (4, 4416)]
    let s := due progOn 0x0400 f
    let bs := progImage (sm3 (List.replicate 4160 0))
    s.accepts c0 0x0400 f ∧ s.trust.loads = [] ∧ bs.length = 4416 ∧ imageFormOk 2 bs = true
      ∧ sm3 (bs.drop 256) = slice bs 32 32 ∧ s.imageSigOk bs = true ∧ s.svn 0x21 ≤ leVal (slice bs 10 1)
      ∧ (s.makeRoom s.trust.images (imageAt bs 0).size s.trust.images.length).isSome = true := by
  refine ⟨by unfold State.accepts; decide +kernel, by decide +kernel, by decide +kernel,
    form_of _ (by decide +kernel) (by decide +kernel) (by decide +kernel), ?_, by decide +kernel, by decide +kernel, by decide +kernel⟩
  have e : (progImage (sm3 (List.replicate 4160 0))).drop 256 = List.replicate 4160 0 := List.drop_left' (by decide +kernel)
  rw [e, slice_digest]; exact sm3_len

theorem wit_imageLoadBad :
    let bs := progImage ((sm3 (List.replicate 4160 0)).map (~~~ ·))
    imageFormOk 2 bs = true ∧ sm3 (bs.drop 256) ≠ slice bs 32 32 := by
  refine ⟨form_of _ (by decide +kernel) (by decide +kernel) (by decide +kernel), ?_⟩
  have e : (progImage ((sm3 (List.replicate 4160 0)).map (~~~ ·))).drop 256 = List.replicate 4160 0 := List.drop_left' (by decide +kernel)
  rw [e, slice_digest _ (by rw [List.length_map]; exact sm3_len)]
  intro h
  have h0 := congrArg (fun l => l.getD 0 0) h
  cases e1 : sm3 (List.replicate 4160 0) with
  | nil => have := sm3_len; rw [e1] at this; cases this
  | cons a l => rw [e1] at h0; simp only [List.map_cons, List.getD_cons_zero] at h0; exact absurd h0 (by clear e1 h0; revert a; decide)

theorem wit_imageLoadDone :
    let i : Image := ⟨2, 0, 64, 0, [], [], [], 0, false⟩
    let s := { due progOn 0x0400 [] with trust := { loads := [⟨c0, [1], i, List.replicate 64 7⟩], porst := false } }
    s.phRuns = true ∧ s.makeRoom s.trust.images 64 0 = some ([], 0x40000000)
      ∧ okWith s (.imageLoadDone c0) (fun u => u.trust.images = [{ i with text := 0x40000000 }] && u.mem.byte 0x4000003F = 7
        && u.trust.meas.length = 1) = true := by decide +kernel

theorem wit_clusters :
    let b := { progOn with trust := { images := [img], porst := false } }
    let k := fun (c : ClusterSt) op f => due { b with clusters := [(11, c)] } op f
    let a := k { st := .admitted, version := 1, loaded := true }
    let d := k { st := .drained, version := 1, loaded := true }
    let g := k { st := .draining, version := 1, drain := some (some c0, 5) } 0x0402 [(1, 11), (4, 100000)]
    (k {} 0x0401 [(1, 11), (2, 1)]).accepts c0 0x0401 [(1, 11), (2, 1)] ∧ b.order.fence = none
      ∧ g.runsOn (clusterThreads 11) = [] ∧ (d 0 []).isDrained 11 = true
      ∧ okWith (k {} 0x0401 [(1, 11), (2, 1)]) (.clusterLoad c0 11 1) (fun u => (u.cl 11).st = .drained) = true
      ∧ after (exec (.clusterDrain c0 11 100000) (a 0x0402 [(1, 11), (4, 100000)])) (fun u => (u.cl 11).drain = some (some c0, 100000000)
        && okWith u (.clusterDrainTimeout 11) fun v => (v.cl 11).st = .drained) = true
      ∧ okWith (d 0x0403 [(1, 11)]) (.clusterAdmit c0 11) (fun u => (u.cl 11).st = .admitted) = true
      ∧ okWith (d 0x0406 [(1, 11), (1, 8), (4, 4096), (1, 8)]) (.clusterConfig c0 11 8 4096 8) (fun u => (u.cl 11).scratchWays = 8) = true := by
  unfold State.accepts; decide +kernel

/-- A drain of a drained, of an empty and of a draining cluster, and of one whose threads still run at its end. -/
theorem wit_drains :
    let f := [(1, 11), (4, 0)]
    let k := fun (c : ClusterSt) => due { progOn with clusters := [(11, c)] } 0x0402 f
    let g := k { st := .draining, version := 1, drain := some (some c0, 5) }
    let e := { k { st := .draining, version := 1, drain := some (some c0, 0) } with truns := [(1535, { cur := some 0 })] }
    (k {}).accepts c0 0x0402 f ∧ (k {}).lastOldSide 11 = false ∧ e.order.fence = none ∧ 0 ≤ e.dt
      ∧ okWith (k {}) (.clusterDrain c0 11 0) (fun u => (u.cl 11).st = .empty) = true
      ∧ okWith (k { st := .drained }) (.clusterDrain c0 11 0) (fun u => (u.cl 11).st = .drained) = true
      ∧ after (exec (.clusterDrain c0 11 0) g) (fun u => (u.cl 11).drain = some (some c0, 5) && st u = none) = true
      ∧ after (exec (.clusterDrain c0 11 0) (k { st := .admitted })) (fun u => (u.cl 11).drain = some (some c0, 100000)) = true
      ∧ after (exec (.clusterDrainTimeout 11) e) (fun u => (u.cl 11).st = .drained) = true := by unfold State.accepts; decide +kernel

theorem wit_cores :
    let k := fun (c : CoreSt) op f => due { progOn with clusters := [(11, { st := .admitted })], cores := [(191, c)] } op f
    let q : CoreConfigArgs := ⟨8, 1, 4, 4, 4, 4, 3⟩
    let qf := [(2, 191), (1, q.workThreads), (1, q.shareMode), (1, q.capSb), (1, q.capMshr), (1, q.capPf), (1, q.capWb), (1, q.defaultPrio)]
    (k {} 0x0404 [(1, 191), (1, 0)]).accepts c0 0x0404 [(1, 191), (1, 0)] ∧ (k {} 0 []).coreLeft 191 = true
      ∧ (k {} 0 []).coreBad 191 = false ∧ coreConfigOk q = true ∧ ((k {} 0 []).core 191).workThreads = 8
      ∧ after (exec (.coreRetire c0 191 0) (k {} 0x0404 [(1, 191), (1, 0)])) (fun u => (u.core 191).retiring = some (some c0, 100000)
        && okWith u (.coreRetireTimeout 191) fun v => (v.core 191).retired) = true
      ∧ okWith (k { retired := true } 0x0404 [(1, 191), (1, 1)]) (.coreRetire c0 191 1) (fun u => !(u.core 191).retired) = true
      ∧ okWith (k {} 0x0405 qf) (.coreConfig c0 191 q) (fun u => (u.core 191).dynamic) = true
      ∧ okWith (k {} 0x0407 [(1, 191)]) (.coreStats c0 191) (fun _ => true) = true := by unfold State.accepts; decide +kernel

/-- A core of a cluster that is not admitted is retired at once; the settings of a whole drained cluster. -/
theorem wit_clusterCores :
    let k := fun (c : ClState) op f => due { progOn with clusters := [(11, { st := c })] } op f
    let q : CoreConfigArgs := ⟨1, 0, 1, 1, 1, 1, 0⟩
    let qf := [(2, 0x100 + 11), (1, q.workThreads), (1, q.shareMode), (1, q.capSb), (1, q.capMshr), (1, q.capPf), (1, q.capWb), (1, q.defaultPrio)]
    (k .drained 0x0405 qf).accepts c0 0x0405 qf ∧ coreConfigOk q = true ∧ (k .drained 0 []).isDrained 11 = true
      ∧ okWith (k .drained 0x0404 [(1, 191), (1, 0)]) (.coreRetire c0 191 0) (fun u => (u.core 191).retired) = true
      ∧ okWith (k .empty 0x0404 [(1, 176), (1, 0)]) (.coreRetire c0 176 0) (fun u => (u.core 176).retired) = true
      ∧ okWith (k .drained 0x0405 qf) (.coreConfig c0 (0x100 + 11) q) (fun u => (List.range 16).all fun j =>
        (u.core (176 + j)).workThreads = 1 && (u.core (176 + j)).capSb = 1) = true := by unfold State.accepts; decide +kernel

theorem wit_units :
    let d := due progOn
    let held := due { progOn with locks := { progOn.locks with locks := [(4095, { holder := some (.thread 0) })] } } 0x040E [(2, 4095)]
    let key := List.replicate 32 (0x5A : Byte)
    (d 0x040C [(1, 0), (1, 1), (1, 23)]).accepts c0 0x040C [(1, 0), (1, 1), (1, 23)]
      ∧ ((d 0x040C [(1, 2), (1, 2), (1, 191)]).guardTaken c0).2 = false ∧ (held.lock 4095).holder.isSome = true ∧ tickOk 10 = true ∧ tickOk 24 = true
      ∧ okWith (d 0x040C [(1, 0), (1, 1), (1, 23)]) (.helperControl c0 0 1 23) (fun u => u.unitOff 1 23) = true
      ∧ okWith (d 0x040C [(1, 1), (1, 1), (1, 23)]) (.helperControl c0 1 1 23) (fun u => !u.unitOff 1 23) = true
      ∧ okWith (d 0x040C [(1, 2), (1, 2), (1, 191)]) (.helperControl c0 2 2 191) (fun u => u.resetCount 7 (2 * 256 + 191) = 1) = true
      ∧ okWith (d 0x040D [(1, 62), (2, 32767), (4, 1024)]) (.lockGroupSet c0 62 32767 1024) (fun u => (u.lockGrp 62).mask = 0x7FFF) = true
      ∧ (held.guardTaken c0).2 = false
      ∧ okWith held (.lockForceRelease c0 4095) (fun u => (u.lock 4095).abandoned) = true
      ∧ okWith (d 0x040E [(2, 4095)]) (.lockForceRelease c0 4095) (fun u => u.locks = progOn.locks) = true
      ∧ okWith (d 0x0B06 [(2, 4095), (1, 1), bytesField 32 key]) (.cryptoKeySet c0 4095 1 key)
        (fun u => SMap.get {} u.keys 4095 = ⟨1, List.replicate 16 0x5A⟩) = true
      ∧ okWith (d 0x040F [(1, 11), (1, 10), (1, 24), (1, 10), (1, 24), (1, 1), (1, 24)]) (.taskConfig c0 11 10 24 10 24 1 24)
        (fun u => (u.cl 11).task.window = 24 && SMap.get 0 (u.cl 11).task.tickDt 0 = 0) = true
      ∧ okWith (d 0x0410 [(2, 1535), (4, 0x80000000)]) (.taskSignal c0 1535 0x80000000) (fun u => (u.thr 1535).evflags = 0x80000000) = true
      ∧ okWith (d 0x0411 [(1, 11)]) (.taskStatus c0 11) (fun _ => true) = true
      ∧ okWith (d 0x0412 [(1, 11), (1, 255), (2, 1)]) (.channelStatus c0 11 255 1) (fun _ => true) = true := by
  unfold State.accepts; decide +kernel

/-! ### Faults, part resets and power -/

theorem wit_partReset :
    let d := due progOn
    let f := fun (k i : Nat) => [(1, k), (2, i)]
    let done0 := { progOn with faults := { resets := [⟨2, 11, [], 0, 0⟩] }, time := { ns := 1000000000 } }
    (d 0x0900 (f 5 0)).accepts c0 0x0900 (f 5 0) ∧ partThere 5 0 = true ∧ progOn.faults.resets = []
      ∧ ((d 0x0900 (f 5 0)).guardTaken c0).2 = false ∧ (progOn.core 191).retired = false ∧ (progOn.well 7).disabled = false
      ∧ done0.partBusy 2 11 = false
      ∧ ([(0, 1535), (1, 191), (2, 11), (3, 7), (4, 7), (5, 0)].all fun p =>
          after (exec (.partReset c0 p.1 p.2) (d 0x0900 (f p.1 p.2))) fun u => u.resetCount p.1 p.2 = 1
            && (u.faults.resets.map fun r => (r.kind, r.index, r.cmds)) = [(p.1, p.2, [c0])]) = true
      ∧ after (exec (.partReset c0 6 0) (d 0x0900 (f 6 0))) (fun u => u.dci.st = .phRestart && u.resetCount 6 0 = 1) = true
      ∧ after (exec (.partResetDone 2 11) done0) (fun u => u.faults.resets = []) = true := by unfold State.accepts; decide +kernel

theorem wit_faultLog :
    let b := { progOn with faults := { log := [⟨7, 0x0901, 3, [1]⟩], nextSeq := 8 } }
    (due b 0x0902 [(4, 7), (2, 1024)]).accepts c0 0x0902 [(4, 7), (2, 1024)]
      ∧ okWith (due b 0x0902 [(4, 7), (2, 1024)]) (.faultLogRead c0 7 1024) (fun _ => true) = true
      ∧ okWith (due b 0x0903 []) (.errorStats c0) (fun _ => true) = true := by unfold State.accepts; decide +kernel

theorem wit_unitFaults :
    let w := { progOn with trust := { progOn.trust with phResets := [3, 5] } }
    progOn.dci.st = .ready ∧ progOn.faults.resets = [] ∧ w.dt < 3 + 10000000000
      ∧ ([(.thread 1535), (.core 191), (.cluster 11), (.helper 1 23), (.well 7), (.pump 7), .commit, .pumphouse] : List FaultUnit).all
          (fun x => progOn.unitThere x && SMap.get [] progOn.faults.auto (resetKey (faultPart x).1 (faultPart x).2) = []
            && after (exec (.unitFault x 3) progOn) fun u => u.resetCount (faultPart x).1 (faultPart x).2 = 1) = true
      ∧ after (exec .phWatchdogExpiry progOn) (fun u => u.dci.st = .phRestart
        && (u.faults.resets.map (·.kind)) = [6] && after (exec .phRestartDone u) (fun v => v.dci.st = .ready && v.faults.resets = [])) = true
      ∧ after (exec .phWatchdogExpiry w) (fun u => u.dci.st = .fault && u.dci.cause = 4) = true := by decide +kernel

/-- Cluster 0 admitted, every core of it gated; the power state it is in and the time it has been idle. -/
def idle (f : ClusterSt → ClusterSt) : State :=
  { progOn with
    clusters := [(0, f { st := .admitted, version := 1, loaded := true })]
    cores := (List.range 16).map fun k => (k, { gated := true })
    trust := { images := [img], porst := false } }

/-- The firmware copy of a restart matches its digest, or holds a poisoned unit (R467, R526). -/
theorem wit_fwCopy :
    let i : FwImage := ⟨[1, 2], [3]⟩
    let a := { progOn with trust := { progOn.trust with fw := some i }, mem := { progOn.mem with cells := [] } }
    let b := (a.copyFw i 0).phPartStart true
    let c := b.updMem fun m => m.mark (b.copyAddr 0 + 16) 1
    b.copyOk = true ∧ c.copyOk = false ∧ a.copyOk = false ∧ c.trust.trial = none
      ∧ (b.faults.resets.map (·.kind)) = [6] ∧ c.dci.st = .phRestart
      ∧ after (exec .phRestartDone b) (fun u => u.dci.st = .ready) = true
      ∧ after (exec .phRestartDone c) (fun u => u.dci.st = .fault && u.dci.cause = 5 && u.faults.resets = []) = true := by
  decide +kernel

theorem wit_power :
    let tol : List W32 := [1, 2, 3, 4, 5, 6, 7, 0xFFFFFFFF]
    let tf := tol.map fun v => (4, v.toNat)
    let a := { progOn with power := { active := 128 } }
    let z := { progOn with cores := [(191, { idleFor := 100 })] }
    let e := hostOn fun x => { x with cmdBase := 1, cmdTail := 1, cseq := 6 }
    let e1 := { e with dci := { e.dci with lease := {} } }
    (due progOn 0x0800 tf).accepts c0 0x0800 tf ∧ a.power.active.getLsbD 7 = true ∧ a.classQuiet 7 = true
      ∧ (z.core 191).gated = false ∧ z.coreParked 191 = true ∧ z.computeState = 3
      ∧ e1.canFetch .hostA = true ∧ e1.mine .hostA = false ∧ e1.jcmd ⟨.hostA, 7⟩ = none
      ∧ okWith (due progOn 0x0800 tf) (.powerPolicy c0 tol) (fun u => SMap.get 2000 u.power.tol 6 = 7) = true
      ∧ okWith (due progOn 0x0801 []) (.powerStatus c0) (fun _ => true) = true
      ∧ after (exec (.commandFetch .hostA ⟨0x0800, 0, 7, 32, 0, 0, List.replicate 32 0⟩) e1)
        (fun u => ((u.jcmd ⟨.hostA, 7⟩).bind fun j => j.resp.map (·.status)) = some 3) = true
      ∧ after (exec (.classIdle 7) a) (fun u => u.power.active = 0) = true
      ∧ after (exec (.coreGateIdle 191) z) (fun u => (u.core 191).gated) = true := by unfold State.accepts; decide +kernel

theorem wit_sleep :
    let r := idle fun k => { k with idleFor := 10000 }
    let o := idle fun k => { k with idleFor := 100000, power := .retention }
    let w := idle fun k => { k with power := .off }
    let q := { w with order := { list := [0], pkts := [(0, { st := .listed, accepted := true, hasSeq := true })] }, time := { ns := 100 } }
    let t := { (idle fun k => { k with power := .retention }) with truns := [(0, { wait := .park 3 5000 1 })], time := { ns := 1000 } }
    r.allGated 0 = true ∧ r.clPower 0 = .active ∧ 2 ≤ r.computeState ∧ soonDue (r.clusterEvents 0) r.dt 4000 = false
      ∧ o.allGated 0 = true ∧ 3 ≤ o.computeState ∧ soonDue (o.clusterEvents 0) o.dt 40000 = false
      ∧ (∀ j, j < 12 → q.clusterEligible 0 j (q.avoidCore 0) = false) ∧ q.order.stopped = false ∧ q.keptAsleep = false
      ∧ t.clusterEvents 0 = [5000] ∧ 5000 ≤ t.dt + 4000
      ∧ after (exec (.clusterRetentionIdle 0) r) (fun u => (u.cl 0).power = .retention) = true
      ∧ after (exec (.clusterOffIdle 0) o) (fun u => (u.cl 0).power = .off) = true
      ∧ after (exec .clusterWakeDispatch q) (fun u => (u.cl 0).power = .waking && (u.cl 0).wakeNs = 40100) = true
      ∧ after (exec (.prewake 0) t) (fun u => (u.cl 0).power = .waking && u.power.prewakes = 1) = true := by decide +kernel

/-- A stack in self-refresh before a patrol pass, and a gated core before a thread's wake (R536). -/
theorem wit_prewake :
    let k := { progOn with hbm := { progOn.hbm with stackA := { mode := .selfRefresh }, pcs := (List.range 32).map fun p => (p, { scrubDt := 500 + p }) } }
    let g := { (idle id) with truns := [(0, { wait := .park 3 90 1 })], time := { ns := 40 } }
    k.stackEvents 0 ≠ [] ∧ 500 ∈ k.stackEvents 0 ∧ 500 ≤ k.dt + 1000 ∧ (k.stack 0).mode = .selfRefresh
      ∧ (g.core 0).gated = true ∧ g.clPower (clusterOfCore 0) = .active ∧ 90 ∈ g.coreEvents 0 ∧ 90 ≤ g.dt + 50
      ∧ after (exec (.prewake 12) k) (fun u => (u.stack 0).mode = .active && u.power.prewakes = 1) = true
      ∧ after (exec (.prewake 14) g) (fun u => !(u.core 0).gated && u.power.prewakes = 1) = true := by decide +kernel

theorem wit_powerLoss :
    let s := { progOn with trust := { progOn.trust with porst := false } }
    s.trust.porst = false ∧ s.trust.brown = false ∧ s.power.failing = false ∧ s.power.flush = none ∧ s.ledger.ring = none
      ∧ (SMap.get {} s.power.sensors 20).level < 3
      ∧ after (exec (.sensorRead 20 115) s) (fun u => u.dci.st = .fault && u.dci.cause = 6 && u.net.shut) = true
      ∧ after (exec (.sensorRead 20 95) s) (fun u => (SMap.get {} u.power.sensors 20).level = 0) = true
      ∧ after (exec .powerFail s) (fun u => u.power.failing && u.net.shut && u.order.stopped
        && after (exec .powerFailFlushDone u) (fun v => v.dci.st = .fault && v.dci.cause = 7)
        && after (exec .pwrfailRise u) fun v => !v.power.failing) = true := by decide +kernel

/-- A flush whose epochs are signed: a closing record of the ledger's ring (R544). -/
theorem wit_flushSigned :
    let s := { ledgerOn with power := { ledgerOn.power with flush := some ⟨1, [], 0, none⟩ } }
    s.power.flush.isSome = true ∧ s.dci.st = .ready ∧ (∀ n ∈ ([] : List Nat), ∃ r ∈ s.ledger.recs, r.no = n ∧ r.phase = .signed)
      ∧ after (exec .powerFailFlushDone s) (fun u => u.power.flush = none && u.dci.st = .fault && u.dci.cause = 7) = true := by
  decide +kernel

/-! ### Debug, trust, resets and JTAG -/

theorem wit_debug :
    let s := run [(5, 77)]
    let h := { s with truns := [(0, { cur := some 0, halted := some .halt })] }
    let l := { s with trust := { s.trust with otp := [(0x14, 1)] } }
    let f := [(2, 0), (1, 0)]
    let r := fun (n : Nat) => [(2, 0), (1, 0), (8, 8 * n), (4, 8)]
    (due s 0x0A00 f).accepts c0 0x0A00 f ∧ s.debugLocked = false ∧ l.debugLocked = true ∧ s.inReset 0 = false
      ∧ (s.tr 0).wait = .none ∧ (h.tr 0).halted.isSome = true ∧ s.inText 0 0x8000001000 = true ∧ (h.guardTaken c0).2 = false
      ∧ okWith (due s 0x0A00 f) (.debugHalt c0 0 0) (fun u => (u.tr 0).halted = some .halt) = true
      ∧ after (exec (.debugHalt c0 0 0) (due l 0x0A00 f)) (fun u => st u = some 8) = true
      ∧ okWith (due h 0x0A01 [(2, 0)]) (.debugResume c0 0) (fun u => (u.tr 0).halted = none) = true
      ∧ okWith (due h 0x0A02 [(2, 0), (2, 65535)]) (.debugStep c0 0 65535) (fun u => (u.tr 0).stepLeft = some 65535) = true
      ∧ after (exec (.debugStep c0 0 1) (due s 0x0A02 [(2, 0), (2, 1)])) (fun u => st u = some 10) = true
      ∧ okWith (due s 0x0A03 [(1, 0), (1, 7), (1, 1), (8, 0x8000001000)]) (.debugBreakSet c0 0 7 1 0x8000001000)
        (fun u => SMap.get {} (u.cl 0).breaks 7 = ⟨1, 0x8000001000⟩) = true
      ∧ okWith (due h 0x0A04 (r 5)) (.debugRead c0 0 0 40 8) (fun u => (u.jcmd c0).map (fun j => j.resp.map fun x => x.result.take 8)
        = some (some [77, 0, 0, 0, 0, 0, 0, 0])) = true
      ∧ okWith (due h 0x0A05 (r 31 ++ [bytesField 24 (List.replicate 24 1)])) (.debugWrite c0 0 0 248 8 (List.replicate 24 1))
        (fun u => u.reg 0 31 = 0x0101010101010101) = true
      ∧ okWith (due s 0x0A06 [(1, 0), (1, 3), (8, 33554431)]) (.traceConfig c0 0 3 33554431) (fun u => (u.cl 0).trace.mode = 3) = true
      ∧ okWith (due s 0x0A07 [(1, 0)]) (.traceRead c0 0) (fun _ => true) = true
      ∧ (s.seqPkt 0 0, (s.rc 0).discard, (s.rc 0).ct) = (some 0, none, false)
      ∧ okWith (due s 0x0A08 [(2, 0), (4, 0)]) (.debugDiscard c0 0 0) (fun u => (u.rc 0).discard = some 0) = true := by
  unfold State.accepts; decide +kernel

/-- RELEASE of a thread with no packet, resuming one not halted, and discarding what is not there or is discarded (R563, R570). -/
theorem wit_debugEnds :
    let s := run []
    let e := { s with truns := [] }
    let x := { s with order := { s.order with recs := [(0, { discard := some 0 })] } }
    let d := fun (s : State) => due s 0x0A08 [(2, 0), (4, 0)]
    (due e 0x0A00 [(2, 1535), (1, 1)]).accepts c0 0x0A00 [(2, 1535), (1, 1)] ∧ e.debugLocked = false ∧ e.inReset 1535 = false
      ∧ (e.tr 1535).cur = none ∧ (e.tr 1535).wait = .none ∧ (x.rc 0).discard = some 0 ∧ s.seqPkt 9 0 = none
      ∧ okWith (due e 0x0A00 [(2, 1535), (1, 1)]) (.debugHalt c0 1535 1) (fun u => (u.tr 1535).halted = some .halt) = true
      ∧ okWith (due e 0x0A01 [(2, 1535)]) (.debugResume c0 1535) (fun u => u.truns = []) = true
      ∧ after (exec (.debugDiscard c0 9 0) (due s 0x0A08 [(2, 9), (4, 0)])) (fun u => st u = some 10) = true
      ∧ okWith (d x) (.debugDiscard c0 0 0) (fun u => u.order = x.order) = true := by unfold State.accepts; decide +kernel

/-- A firmware header with this digest, and no body. -/
def fwHead (digest : List Byte) : List Byte :=
  leBytes 4 0x5A465748 ++ leBytes 2 1 ++ List.replicate 26 0 ++ digest ++ List.replicate 448 0

/-- Firmware with an empty body, its digest right and wrong. -/
def fw : FwImage := ⟨fwHead (sm3 []), []⟩

def fwBad : FwImage := ⟨fwHead (List.replicate 32 0), []⟩

/-- With these keys and no customer key, every header of `fw` is signed (R513). -/
theorem fw_header_ok (hk : sm3 (slice fw.header 64 64) = Config.romKeyHash) (hv : ∀ a b c d, Config.sm2Verify a b c d = true) (s : State)
    (h1 : SMap.get 0 s.trust.otp 0x10 = 0) (h2 : s.svn 0x20 = 0) : s.fwHeaderOk fw = true := by
  have hf : FwImage.formOk fw = true := by decide +kernel
  simp [State.fwHeaderOk, hf, hk, hv, h1, h2]

theorem fw_ok (hk : sm3 (slice fw.header 64 64) = Config.romKeyHash) (hv : ∀ a b c d, Config.sm2Verify a b c d = true) (s : State)
    (h1 : SMap.get 0 s.trust.otp 0x10 = 0) (h2 : s.svn 0x20 = 0) : s.fwOk fw = true := by
  have hb : FwImage.bodyOk fw = true := by decide +kernel
  simp [State.fwOk, hb, fw_header_ok hk hv s h1 h2]

theorem fw_bad (s : State) : s.fwOk fwBad = false := by
  have hb : FwImage.bodyOk fwBad = false := by decide +kernel
  simp [State.fwOk, hb]

theorem wit_trust :
    let d := due progOn
    let n := List.replicate 32 (3 : Byte)
    let e := { progOn with trust := { nonce := some (n, 0) }, time := { ns := 60000000000 } }
    let f := [bytesField 32 n, bytesField 64 (n ++ n)]
    let u := { d 0x0B03 f with trust := { progOn.trust with nonce := some (n, 0) } }
    (d 0x0B00 [bytesField 32 n]).accepts c0 0x0B00 [bytesField 32 n] ∧ (d 0x0B01 []).accepts c0 0x0B01 []
      ∧ (d 0x0B02 []).accepts c0 0x0B02 [] ∧ (d 0x0B03 f).accepts c0 0x0B03 f ∧ progOn.trngBad = false ∧ FwImage.formOk fw = true
      ∧ fw.header.length + fw.body.length = 512 ∧ progOn.trust.unlockBy ≠ some c0 ∧ progOn.trust.nonce = none
      ∧ SMap.get 0 u.trust.otp 0x13 = 0 ∧ u.dt < 0 + 60000000000
      ∧ after (exec (.debugUnlock c0 n (n ++ n)) (d 0x0B03 f)) (fun u => st u = some 8) = true
      ∧ after (exec (.debugUnlock c0 n (n ++ n)) u) (fun v => st v = some 8 && v.trust.nonce = none && !v.trust.unlocked) = true
      ∧ after (exec .debugNonceExpiry e) (fun u => u.trust.nonce = none) = true := by unfold State.accepts; decide +kernel

theorem wit_fw (hk : sm3 (slice fw.header 64 64) = Config.romKeyHash) (hv : ∀ a b c d, Config.sm2Verify a b c d = true) :
    let d := due progOn
    let a := d 0x0B04 [(1, 1), (8, 0), (4, 512)]
    let b := { d 0x0B05 [(1, 1)] with trust := { progOn.trust with slotB := ⟨some fw, 0xFF, 0xFF⟩ } }
    a.accepts c0 0x0B04 [(1, 1), (8, 0), (4, 512)] ∧ a.trust.writing = none ∧ a.trust.trial = none ∧ a.trust.fwSlot ≠ 1
      ∧ a.fwOk fw = true ∧ b.accepts c0 0x0B05 [(1, 1)] ∧ (b.slot 1).image = some fw ∧ b.fwOk fw = true :=
  ⟨by unfold State.accepts; decide +kernel, rfl, rfl, by decide, fw_ok hk hv _ rfl (by decide +kernel), by unfold State.accepts; decide +kernel,
    rfl, fw_ok hk hv _ rfl (by decide +kernel)⟩

/-- Writing ends in time, or too late; an activation that is not confirmed (R529, R530). -/
theorem wit_fwTimes :
    let w := { due progOn 0x0B04 [(1, 1), (8, 0), (4, 512)] with trust := { progOn.trust with writing := some ⟨c0, 1, fw, 0⟩, porst := false } }
    let l := { w with time := { ns := 120000000000 } }
    let t := { progOn with
      dci := { progOn.dci with st := .phRestart }
      trust := { progOn.trust with trial := some ⟨1, fw, 0⟩ }
      time := { ns := 2000000000 } }
    w.phRuns = true ∧ w.dt < 0 + 120000000000 ∧ l.phRuns = true
      ∧ okWith w (.fwUpdateDone c0 true) (fun u => (u.slot 1).image = some fw && u.trust.writing.isNone) = true
      ∧ after (exec (.fwUpdateDone c0 true) l) (fun u => st u = some 9 && (u.slot 1).image = none && (u.slot 1).tries = 0xF8) = true
      ∧ after (exec .fwConfirmTimeout t) (fun u => u.trust.trial.isNone && u.trust.fw.isNone) = true := by decide +kernel

theorem wit_unlock (g : List Byte) (hg : ∀ a b c, Config.sm2Verify a b c g = true) :
    let n := List.replicate 32 (3 : Byte)
    let f := [bytesField 32 n, bytesField 64 (List.replicate 64 1)]
    let s := { due progOn 0x0B03 f with trust := { progOn.trust with nonce := some (n, 5), otp := [(0x13, 9)] } }
    s.accepts c0 0x0B03 f ∧ s.trust.nonce = some (n, 5) ∧ s.dt < 5 + 60000000000 ∧ SMap.get 0 s.trust.otp 0x13 ≠ 0
      ∧ Config.sm2Verify (s.otpBytes 0x13 64) (ascii "QZMDEBUG1") (sm3 (n ++ s.otpBytes 1 8)) g = true :=
  ⟨by unfold State.accepts; decide +kernel, rfl, by decide +kernel, by decide, hg _ _ _⟩

/-- What a priming meets: this source, and nothing broken. -/
def met (src : BitVec 2) : PrimingObs := ⟨src, 0, false, ⟨none, 0xFF, 0xFF⟩, ⟨none, 0xFF, 0xFF⟩, [], [], false, [], true⟩

/-- The device primed from boot source 3, which fetches nothing. -/
def primed : State := { progOn with trust := { porst := false, obs := some (met 3), straps := ⟨3, 0, false⟩, otp := [(1, 5)] } }

theorem wit_priming :
    let w := { State.reset with trust := { boot := { waits := some .hostA } } }
    let g := { w with trust := { boot := { waits := some .hostA, status := 1, ctl := 512 } } }
    let d := { progOn with trust := { primed.trust with jtag := { pins := true, ir := 2 } } }
    State.reset.trust.brown = false ∧ State.reset.trust.obs = none ∧ w.trust.boot.status ≠ 1 ∧ g.trust.boot.waits.isSome = true
      ∧ g.trust.boot.ctl.toNat % 16777216 = 512 ∧ primed.canWarm = true ∧ primed.trust.resetAt = none ∧ primed.dci.st = .ready
      ∧ badPcsOf (met 1) = [] ∧ takesPins 2 = false ∧ d.power.flush = none
      ∧ after (exec (.coldPriming (met 3)) State.reset) (fun u => !u.trust.porst && u.dci.step = 7) = true
      ∧ after (exec (.coldPriming (met 1)) State.reset) (fun u => u.trust.boot.waits = some .hostA && u.dci.step = 2) = true
      ∧ after (exec (.coldPriming (met 0)) State.reset) (fun u => u.trust.boot.waits = some .hostA && u.trust.boot.status = 5) = true
      ∧ after (exec (.hostPushGo .hostA 512) w) (fun u => u.trust.boot.status = 1) = true
      ∧ after (exec (.hostPushGo .hostA 511) w) (fun u => u.trust.boot.status = 4) = true
      ∧ after (exec (.hostPushGo .hostA 8388609) w) (fun u => u.trust.boot.status = 4) = true
      ∧ after (exec .coldReset primed) (fun u => u.trust.porst && u.trust.otp = [(1, 5)]) = true
      ∧ after (exec .brownOut primed) (fun u => u.trust.brown && after (exec .brownOutRecovery u) fun v => !v.trust.brown) = true
      ∧ after (exec .warmReset primed) (fun u => u.dci.st = .warmReset && u.trust.wrst && u.mem = primed.mem
        && after (exec .wrstRise u) fun v => !v.trust.wrst && v.dci.step = 7) = true
      ∧ after (exec .boundaryScanExit d) (fun u => !u.trust.jtag.pins && u.dci.st = .warmReset && u.dci.step = 7) = true := by
  decide +kernel

/-- A warm reset that DEVICE_RESET set off falls due: WRST_N is not low (R527). -/
theorem wit_warmDue :
    let s := { primed with trust := { primed.trust with resetAt := some 5 }, time := { ns := 5 } }
    s.canWarm = true ∧ 5 ≤ s.dt ∧ s.dci.st = .ready ∧ s.trust.straps.bootSrc = 3
      ∧ after (exec .warmReset s) (fun u => u.dci.st = .warmReset && u.dci.step = 7 && !u.trust.wrst) = true := by decide +kernel

theorem candidate_of (s : State) (hi : (s.slot 0).image = some fw) (hh : s.fwHeaderOk fw = true)
    (hf : FlashSlot.failed (s.slot 0) = false) : s.candidate 0 = some fw := by
  simp [State.candidate, hi, hh, hf]

theorem chooses (s : State) (h0 : s.candidate 0 = some fw) (h1 : s.candidate 1 = none) : s.chooseSlot = some (0, fw) := by
  have hb : FwImage.bodyOk fw = true := by decide +kernel
  simp [State.chooseSlot, h0, h1, hb]

/-- A slot with a valid image is started (R514). -/
theorem wit_flashBoot (hk : sm3 (slice fw.header 64 64) = Config.romKeyHash) (hv : ∀ a b c d, Config.sm2Verify a b c d = true) :
    let o := { met 0 with slotA := ⟨some fw, 0xFF, 0xFF⟩ }
    o.bootSrc = 0 ∧ o.sramFatal = false ∧ badPcsOf o = [] ∧ o.trngOk = true ∧ State.reset.dci.st = .priming
      ∧ (State.reset.updTrust fun t => { t with
        slotA := o.slotA, slotB := o.slotB, straps := ⟨o.bootSrc, o.pcieMode, o.strapSafe⟩ }).chooseSlot = some (0, fw) := by
  refine ⟨rfl, rfl, by decide +kernel, rfl, rfl, ?_⟩
  exact chooses _ (candidate_of _ rfl (fw_header_ok hk hv _ rfl (by decide +kernel)) (by decide +kernel)) rfl

theorem wit_hostPush (hk : sm3 (slice fw.header 64 64) = Config.romKeyHash) (hv : ∀ a b c d, Config.sm2Verify a b c d = true) :
    let g := { State.reset with trust := { boot := { waits := some .hostA, status := 1, ctl := 512 }, obs := some (met 1) } }
    g.fwOk fw = true ∧ FwImage.formOk fw = true ∧ g.dci.st = .priming ∧ g.trust.obs = some (met 1)
      ∧ fw.header.length + fw.body.length = g.trust.boot.ctl.toNat % 16777216 :=
  ⟨fw_ok hk hv _ rfl (by decide +kernel), by decide +kernel, rfl, rfl, by decide +kernel⟩

/-- A push whose digest is wrong, and one whose header has no MAGIC (R515). -/
theorem wit_hostPushBad :
    let g := { State.reset with trust := { boot := { waits := some .hostA, status := 1, ctl := 512 } } }
    g.fwOk fwBad = false ∧ FwImage.formOk fwBad = true ∧ FwImage.formOk ⟨[], []⟩ = false
      ∧ fwBad.header.length + fwBad.body.length = g.trust.boot.ctl.toNat % 16777216
      ∧ after (exec (.hostPushDone ⟨[], []⟩) g) (fun u => u.trust.boot.status = 4) = true :=
  ⟨fw_bad _, by decide +kernel, by decide +kernel, by decide +kernel, by decide +kernel⟩

theorem wit_jtag :
    let s := { run [] with trust := primed.trust, truns := [(0, { halted := some .halt })] }
    let dr : BitVec 1024 := BitVec.ofNat 1024 (0x0A01 + 2 * 2 ^ 64)
    let e := leBytes 128 dr.toNat
    let p := (slice e 16 112).take (leVal (slice e 8 2))
    let s1 := s.updJtag fun j => { j with ir := 0x20 }
    leVal (slice e 2 2) = 0 ∧ leVal (slice e 12 4) = 0 ∧ leVal (slice e 8 2) = 2 ∧ s.trust.obs.isSome = true
      ∧ (match debugBody (leVal (slice e 0 2)) p, catOf (leVal (slice e 0 2)) with
        | some body, some r => fitsCommand r p && (match (body s1).2 with | .reply _ 0 [] [] => true | _ => false)
        | _, _ => false) = true
      ∧ after (exec (.debugAccess dr) s) (fun u => u.trust.jtag.ir = 0x20 && (u.tr 0).halted = none) = true
      ∧ after (exec .idcode s) (fun u => u.trust.jtag.ir = 2) = true
      ∧ after (exec .tapReset s) (fun u => u.trust.jtag.ir = 2) = true
      ∧ after (exec .bypass s) (fun u => u.trust.jtag.ir = 0xFF && u.trust.jtag.dr = 0) = true
      ∧ ([(.extest, 0), (.clampJ, 3), (.highz, 4), (.extestPulse, 5), (.extestTrain, 6)] : List (Instr × Nat)).all
        (fun p => after (exec p.1 s) fun u => u.trust.jtag.pins && u.net.shut && u.trust.jtag.ir = p.2) = true
      ∧ after (exec .samplePreload s) (fun u => u.trust.jtag.ir = 1 && !u.trust.jtag.pins) = true := by decide +kernel

/-- DEBUG_ACCESS whose answer is longer than a JTAG result: the command has no effect (R517). -/
theorem wit_debugLong :
    let s := { run [] with trust := primed.trust, truns := [(0, { halted := some .halt })] }
    let dr : BitVec 1024 := BitVec.ofNat 1024 (0x0A04 + 20 * 2 ^ 64 + 2 ^ 256 * 64)
    let e := leBytes 128 dr.toNat
    let p := (slice e 16 112).take (leVal (slice e 8 2))
    let s1 := s.updJtag fun j => { j with ir := 0x20 }
    leVal (slice e 0 2) = 0x0A04 ∧ leVal (slice e 8 2) = 20
      ∧ (match debugBody (leVal (slice e 0 2)) p, catOf (leVal (slice e 0 2)) with
        | some body, some r => fitsCommand r p && (match (body s1).2 with | .reply 0 _ x _ => decide (40 < x.length) | _ => false)
        | _, _ => false) = true
      ∧ after (exec (.debugAccess dr) s) (fun u => u.thrs = s.thrs && u.truns = s.truns) = true := by decide +kernel

/-- A field that fits, one whose value would clear a bit, an identity that the port never programs, a locked device. -/
theorem wit_otp :
    let s := { progOn with trust := { primed.trust with otp := [(0x20, 3)] } }
    let l := { progOn with trust := { primed.trust with otp := [(0x14, 1)] } }
    let dr : Nat → Nat → BitVec 2064 := fun id v => BitVec.ofNat 2064 (id + 65536 * v)
    (dr 0x20 7).toNat = 0x20 + 256 * 0 + 65536 * 7 ∧ s.debugLocked = false ∧ l.debugLocked = true ∧ s.trust.obs.isSome = true
      ∧ s.trust.straps.bootSrc = 3 ∧ (7 ||| 3 = 7 ∧ 4 ||| 3 ≠ 4)
      ∧ after (exec (.otpProg (dr 0x20 7)) s) (fun u => SMap.get 0 u.trust.otp 0x20 = 7) = true
      ∧ after (exec (.otpProg (dr 0x20 4)) s) (fun u => u.trust.otp = s.trust.otp) = true
      ∧ after (exec (.otpProg (dr 0x0F 7)) s) (fun u => u.trust.otp = s.trust.otp) = true
      ∧ after (exec (.otpProg (dr 0x20 7)) l) (fun u => u.trust.otp = l.trust.otp) = true := by decide +kernel

/-! ### The whole block -/

theorem wit_deviceStates :
    let p := hostOn id
    let w := { p with dci := { p.dci with st := .warmReset } }
    let f := fun op fs => let x := due progOn op fs; { x with dci := { x.dci with st := .fault } }
    w.reach .hostA = true ∧ (f 0x0104 [(4, 5000)]).cmdDue c0 0x0104 [(4, 5000)] = true ∧ (f 0 []).faults.fenced = []
      ∧ (f 0x0903 []).tooLong c0 (.data (f 0x0903 []).errorImage) = false ∧ (f 0x0105 [(1, 0)]).tooLong c0 .ok = false
      ∧ readClass 0x0104 (layout [(4, 5000)]) = false ∧ readClass 0x0903 (layout []) = true
      ∧ same (exec (.commandFetch .hostA (entry 7)) w) (.next w) = true
      ∧ after (exec (.cmdDoorbell .hostA 4) w) (fun u => (u.fn .hostA).cmdTail = 4) = true
      ∧ after (exec (.leaseConfig c0 5000) (f 0x0104 [(4, 5000)])) (fun u => st u = some 11) = true
      ∧ okWith (f 0x0903 []) (.errorStats c0) (fun _ => true) = true
      ∧ okWith (f 0x0105 [(1, 0)]) (.deviceReset c0 0) (fun _ => true) = true := by decide +kernel

theorem wit_step :
    let s := { progOn with pending := [.brownOutRecovery, .tapReset] }
    after (step s) (fun u => u.pending = [.tapReset]) = true ∧ after (step progOn) (fun u => u.time.ns = 1 || u.time.ns = 0) = true := by
  decide +kernel

/-! ### Well-formedness: an ill-formed command for each check, and one at the end of its range -/

theorem smoke_core_parts : ([.storeBufferDrain 1536, .coreGateIdle 192, .clusterOffIdle 12, .delayTick 11 4, .lockWaitTimeout 4096,
    .lockAcquire (.thread 1536 3) 5, .lockRelease (.thread 1536) 5, .dtNowRead (.thread 1536), .unitFault (.thread 1536) 1,
    .unitFault (.core 192) 1, .unitFault (.cluster 12) 1, .unitFault (.helper 1 24) 1, .unitFault (.helper 3 0) 1,
    .unitFault (.well 8) 1, .unitFault (.pump 8) 1] : List Instr).all (fun i => !i.wf) = true := by decide

theorem smoke_frame_parts : ([.txComplete 128, .frameSof 0 ⟨[], false⟩, .cellGrant 16, .l2AgingSweep 8, .pauseExpiry 1024 0, .moduleReady 64,
    .i2cBusRecovery 16 true, .orderYield 65536, .commit 16, .spillChoose 65536, .copyArrival 8, .aggregateTimer 7 ⟨65536, []⟩] : List Instr).all
    (fun i => !i.wf) = true := by decide

theorem smoke_other_parts : ([.hbmRequest 16 0 32 false [], .pcPowerDown 64, .rowTimeout 63 64, .stackSelfRefresh 2,
    .dciRingDisable .hostA 3, .puntRxPost .hostB 64 0, .classIdle 8, .sensorRead 21 0] : List Instr).all (fun i => !i.wf) = true := by
  decide

theorem smoke_well_formed : ([.storeBufferDrain 1535, .coreGateIdle 191, .clusterOffIdle 11, .delayTick 11 3, .lockWaitTimeout 4095,
    .unitFault (.helper 1 23) 1, .txComplete 127, .frameSof 127 ⟨[0], true⟩, .cellGrant 15, .pauseExpiry 1023 0, .commit 15,
    .aggregateTimer 7 ⟨65535, []⟩, .rowTimeout 63 63, .puntRxPost .hostB 63 0, .sensorRead 20 0, .bufferQuotaSet ⟨.hostA, 1⟩ 9 9 9 9 99]
    : List Instr).all Instr.wf = true := by decide

/-- No row of the table gives bits, so no word spells a command. -/
theorem test_no_words : decodeTableWord 16 0x1234 = none ∧ State.reset.withFetchWord 16 0x1234 = State.reset := ⟨rfl, rfl⟩

end Sys2Proof.Tests
end

section
/-!
PROOFS. What the operations behind a host function's registers leave alone: events and interrupts (R486, R501), buffers and
cells (R156, R169), the flush of a punt ring (R504), and a host's frame on its way in (R505).
-/

namespace Sys2Proof.Machine

/-! ### Reading a function after a change of one (R475) -/

theorem State.fn_updFn (s : State) (f h : HostFn) (g : FnSt → FnSt) :
    (s.updFn f g).fn h = if h = f then g (s.fn f) else s.fn h := by
  cases f <;> cases h <;> simp [State.updFn, State.setFn, State.fn]

@[simp] theorem State.fn_updFn_self (s : State) (f : HostFn) (g : FnSt → FnSt) : (s.updFn f g).fn f = g (s.fn f) := by
  simp [State.fn_updFn]

@[simp] theorem State.lease_updFn (s : State) (f : HostFn) (g : FnSt → FnSt) :
    (s.updFn f g).dci.lease = s.dci.lease := by
  cases f <;> rfl

@[simp] theorem State.dt_updFn (s : State) (f : HostFn) (g : FnSt → FnSt) : (s.updFn f g).dt = s.dt := by
  simp [State.dt]

@[simp] theorem State.fns_updFn (s : State) (f : HostFn) (g : FnSt → FnSt) : (s.updFn f g).fns = s.fns := by
  simp [State.fns]

/-- A change that leaves the link up leaves the function in reach. -/
theorem State.reach_updFn (s : State) (f : HostFn) (g : FnSt → FnSt)
    (hg : ∀ x, (g x).linkUp = x.linkUp := by exact fun _ => rfl) :
    (s.updFn f g).reach f = s.reach f := by
  simp [State.reach, hg]

theorem State.fn_of_dci {s u : State} (h : u.dci = s.dci) (f : HostFn) : u.fn f = s.fn f := by
  simp [State.fn, h]

theorem State.pump_of_egress {s u : State} (h : u.egress = s.egress) (n : Nat) : u.pump n = s.pump n := by
  simp [State.pump, h]

@[simp] theorem State.fn_hostWrite (s : State) (f h : HostFn) (a : Nat) (bs : List Byte) :
    (s.hostWrite f a bs).fn h = s.fn h := State.fn_of_dci rfl h

/-! ### Punt rings (R502) -/

@[simp] theorem State.rxRing_hostWrite (s : State) (f h : HostFn) (a : Nat) (bs : List Byte) (r : Nat) :
    (s.hostWrite f a bs).rxRing h r = s.rxRing h r := by
  simp [State.rxRing]

@[simp] theorem State.rxRing_updRx_self (s : State) (f : HostFn) (r : Nat) (g : PuntRing → PuntRing) :
    (s.updRx f r g).rxRing f r = g (s.rxRing f r) := by
  simp [State.rxRing, State.updRx]

theorem State.rxRing_updRx (s : State) (f h : HostFn) (r j : Nat) (g : PuntRing → PuntRing) :
    (s.updRx f r g).rxRing h j = if h = f ∧ j = r then g (s.rxRing f r) else s.rxRing h j := by
  by_cases hf : h = f
  · subst hf
    simp [State.rxRing, State.updRx, SMap.get_set]
  · simp [State.rxRing, State.updRx, State.fn_updFn, hf]

@[simp] theorem State.puntRing_updPunt (s : State) (f : HostFn) (tx : Bool) (r : Nat) (g : PuntRing → PuntRing) :
    (s.updPunt f tx r g).puntRing f tx r = g (s.puntRing f tx r) := by
  cases tx
  · simp [State.puntRing, State.updPunt, State.updRx]
  · simp [State.puntRing, State.updPunt, State.updTx]

@[simp] theorem State.puntRing_updTx_self (s : State) (f : HostFn) (r : Nat) (g : PuntRing → PuntRing) :
    (s.updTx f r g).puntRing f true r = g (s.puntRing f true r) :=
  State.puntRing_updPunt s f true r g

/-! ### Events and interrupts leave the registers that hosts write alone (R486, R501) -/

/-- A function's registers without what an event or an interrupt may change. -/
def FnSt.steady (x : FnSt) : FnSt :=
  { x with eseqIssued := 0, events := [], lost := 0, lostDt := 0, unput := 0, intGap := [], intWait := [], msixPend := 0 }

/-- Frames punted and the steady registers of both functions are those of the other state. -/
structure State.EventKept (s u : State) : Prop where
  punted : u.out.punted = s.out.punted
  steady : ∀ f, (u.fn f).steady = (s.fn f).steady

namespace State.EventKept

variable {s u v : State}

theorem refl (s : State) : s.EventKept s := ⟨rfl, fun _ => rfl⟩

theorem trans (h : s.EventKept u) (k : u.EventKept v) : s.EventKept v :=
  ⟨k.punted.trans h.punted, fun f => (k.steady f).trans (h.steady f)⟩

theorem of_dci (ho : u.out.punted = s.out.punted) (hd : u.dci = s.dci) : s.EventKept u :=
  ⟨ho, fun f => by rw [State.fn_of_dci hd f]⟩

theorem rx (h : s.EventKept u) (f : HostFn) : (u.fn f).rx = (s.fn f).rx :=
  (congrArg FnSt.rx (h.steady f) :)
theorem tx (h : s.EventKept u) (f : HostFn) : (u.fn f).tx = (s.fn f).tx :=
  (congrArg FnSt.tx (h.steady f) :)
theorem evtBase (h : s.EventKept u) (f : HostFn) : (u.fn f).evtBase = (s.fn f).evtBase :=
  (congrArg FnSt.evtBase (h.steady f) :)

theorem rxRing (h : s.EventKept u) (f : HostFn) (r : Nat) : u.rxRing f r = s.rxRing f r := by
  simp [State.rxRing, h.rx f]

theorem txRing (h : s.EventKept u) (f : HostFn) (r : Nat) : u.puntRing f true r = s.puntRing f true r := by
  simp [State.puntRing, h.tx f]

theorem foldl {α : Type} (g : State → α → State) (hg : ∀ x a, State.EventKept x (g x a)) (l : List α) (s : State) :
    s.EventKept (l.foldl g s) :=
  List.foldlRecOn l g (EventKept.refl s) fun x hx a _ => hx.trans (hg x a)

end State.EventKept

theorem State.updFn_eventKept (s : State) (f : HostFn) (g : FnSt → FnSt) (hg : (g (s.fn f)).steady = (s.fn f).steady) :
    s.EventKept (s.updFn f g) := by
  refine ⟨by simp, fun h => ?_⟩
  by_cases hf : h = f
  · subst hf
    simpa using hg
  · simp [State.fn_updFn, hf]

theorem State.hostWrite_eventKept (s : State) (f : HostFn) (a : Nat) (bs : List Byte) :
    s.EventKept (s.hostWrite f a bs) := .of_dci rfl rfl

theorem State.sendVector_eventKept (s : State) (f : HostFn) (v : Nat) : s.EventKept (s.sendVector f v) := by
  unfold State.sendVector
  split
  · exact State.updFn_eventKept s f _ rfl
  · exact .of_dci rfl rfl

theorem State.irq_eventKept (s : State) (f : HostFn) (k : Nat) : s.EventKept (s.irq f k) := by
  unfold State.irq
  dsimp only
  split
  · exact .refl s
  · split
    · exact State.updFn_eventKept s f _ rfl
    · exact (State.sendVector_eventKept s f _).trans (State.updFn_eventKept _ f _ rfl)

theorem State.putEvent_eventKept (s : State) (f : HostFn) (e : EvRec) : s.EventKept (s.putEvent f e) := by
  unfold State.putEvent
  split
  · exact State.updFn_eventKept s f _ rfl
  · split
    · exact (State.hostWrite_eventKept s f _ _).trans (State.irq_eventKept _ f 1)
    · exact .refl s

theorem State.issueEvent_eventKept (s : State) (f : HostFn) (code : Nat) (dt : W64) (body : List Byte) :
    s.EventKept (s.issueEvent f code dt body) := by
  unfold State.issueEvent
  exact (State.updFn_eventKept s f _ rfl).trans (State.putEvent_eventKept _ f _)

theorem State.lostEvent_eventKept (s : State) (f : HostFn) : s.EventKept (s.lostEvent f) := by
  unfold State.lostEvent
  dsimp only
  split
  · exact (State.issueEvent_eventKept s f _ _ _).trans (State.updFn_eventKept _ f _ rfl)
  · exact .refl s

theorem State.eventOn_eventKept (s : State) (f : HostFn) (code : Nat) (dt : W64) (body : List Byte) :
    s.EventKept (s.eventOn f code dt body) := by
  unfold State.eventOn
  dsimp only
  split
  · exact (State.lostEvent_eventKept s f).trans (State.issueEvent_eventKept _ f code dt body)
  · exact (State.lostEvent_eventKept s f).trans (State.updFn_eventKept _ f _ rfl)

theorem State.logEvent_eventKept (s : State) (code : Nat) (dt : W64) (body : List Byte) :
    s.EventKept (s.logEvent code dt body) := by
  unfold State.logEvent
  split
  · exact .of_dci rfl rfl
  · exact .refl s

theorem State.event_eventKept (s : State) (code : Nat) (fields : List (Nat × Nat)) :
    s.EventKept (s.event code fields) := by
  unfold State.event
  exact (State.EventKept.foldl _ (fun x f => State.eventOn_eventKept x f code s.time.ns (layout fields)) s.fns s).trans
    (State.logEvent_eventKept _ code _ _)

/-! ### Cells and buffers (R156, R169, R417) -/

/-- Only the basin, the flow-control state of the ports and the flow-control frames sent may differ. -/
def State.BasinStep (s u : State) : Prop :=
  ∃ b e o, u = { s with basin := b, egress := { s.egress with eports := e }, out := { s.out with fcTx := o } }

namespace State.BasinStep

variable {s u v : State}

theorem refl (s : State) : s.BasinStep s := ⟨s.basin, s.egress.eports, s.out.fcTx, rfl⟩

theorem trans (h : s.BasinStep u) (k : u.BasinStep v) : s.BasinStep v := by
  obtain ⟨b, e, o, rfl⟩ := h
  obtain ⟨b', e', o', rfl⟩ := k
  exact ⟨b', e', o', rfl⟩

theorem basin (s : State) (b : BasinSt) : s.BasinStep { s with basin := b } := ⟨b, s.egress.eports, s.out.fcTx, rfl⟩

theorem foldl {α : Type} (g : State → α → State) (hg : ∀ x a, State.BasinStep x (g x a)) (l : List α) (s : State) :
    s.BasinStep (l.foldl g s) :=
  List.foldlRecOn l g (BasinStep.refl s) fun x hx a _ => hx.trans (hg x a)

theorem dci (h : s.BasinStep u) : u.dci = s.dci := by
  obtain ⟨b, e, o, rfl⟩ := h
  rfl

theorem order (h : s.BasinStep u) : u.order = s.order := by
  obtain ⟨b, e, o, rfl⟩ := h
  rfl

theorem pump (h : s.BasinStep u) (n : Nat) : u.pump n = s.pump n := by
  obtain ⟨b, e, o, rfl⟩ := h
  rfl

theorem eventKept (h : s.BasinStep u) : s.EventKept u := by
  obtain ⟨b, e, o, rfl⟩ := h
  exact .of_dci rfl rfl

end State.BasinStep

theorem State.fcCheck1_basinStep (s : State) (port cls used : Nat) : s.BasinStep (s.fcCheck1 port cls used) := by
  unfold State.fcCheck1
  dsimp only
  split
  · split
    · exact ⟨s.basin, _, _, rfl⟩
    · exact .refl s
  · split
    · exact ⟨s.basin, _, _, rfl⟩
    · exact .refl s

theorem State.fcAfter_basinStep (s : State) (ents : List Nat) : s.BasinStep (s.fcAfter ents) := by
  unfold State.fcAfter
  split
  · split
    · unfold State.fcCheck
      split
      · exact .refl s
      · exact State.fcCheck1_basinStep ..
      · exact State.fcCheck1_basinStep ..
    · exact .refl s
  · exact .refl s

theorem State.updEnts_basinStep (s : State) (g : Ent → Ent) (ents : List Nat) :
    s.BasinStep (ents.foldl (fun acc k => State.updEnt acc k g) s) :=
  State.BasinStep.foldl _ (fun x _ => State.BasinStep.basin x _) ents s

theorem State.chargeEnd_basinStep (s : State) (c : Prop) [Decidable c] (n : Nat) (ents : List Nat) :
    s.BasinStep ((if c then { s with basin := { s.basin with sharedUsed := n } } else s).fcAfter ents) := by
  split
  · exact (State.BasinStep.basin s _).trans (State.fcAfter_basinStep _ ents)
  · exact State.fcAfter_basinStep s ents

theorem State.charge_basinStep (s : State) (ents : List Nat) (kind : Nat) : s.BasinStep (s.charge ents kind) :=
  (State.updEnts_basinStep s (Ent.charge · kind) ents).trans (State.chargeEnd_basinStep _ _ _ ents)

theorem State.uncharge_basinStep (s : State) (ents : List Nat) : s.BasinStep (s.uncharge ents) := by
  unfold State.uncharge
  split
  · exact .refl s
  · exact (State.updEnts_basinStep s _ _).trans (State.chargeEnd_basinStep _ _ _ _)

theorem State.giveBack_basinStep (s : State) (ents cells : List Nat) :
    s.BasinStep (cells.foldl (fun acc c => (State.dropCell acc c).uncharge ents) s) :=
  State.BasinStep.foldl _ (fun x _ => (State.BasinStep.basin x _).trans (State.uncharge_basinStep _ ents)) cells s

theorem State.freeBuf_basinStep (s : State) (h : Nat) : s.BasinStep (s.freeBuf h) := by
  unfold State.freeBuf
  split
  · exact .refl s
  · exact (State.BasinStep.basin s _).trans (State.giveBack_basinStep _ _ _)

theorem State.setBuf_basinStep (s : State) (h : Nat) (b : Buf) : s.BasinStep (s.setBuf h b) := .basin s _

theorem State.updBuf_basinStep (s : State) (h : Nat) (g : Buf → Buf) : s.BasinStep (s.updBuf h g) := by
  unfold State.updBuf
  split
  · exact State.setBuf_basinStep ..
  · exact .refl s

theorem State.settle_basinStep (s : State) (h : Nat) : s.BasinStep (s.settle h) := by
  unfold State.settle
  split
  · split
    · exact State.freeBuf_basinStep s h
    · exact .refl s
  · exact .refl s

theorem State.decRef_basinStep (s : State) (h : Nat) : s.BasinStep (s.decRef h) :=
  (State.updBuf_basinStep s h fun b => { b with count := b.count - 1 }).trans (State.settle_basinStep _ h)

theorem State.failCount_basinStep (s : State) (ents : List Nat) (g : Grant) : s.BasinStep (s.failCount ents g) := by
  unfold State.failCount
  split
  · split
    · exact .basin s _
    · exact .refl s
  · exact State.updEnts_basinStep ..
  · exact .refl s

theorem State.allocCells_basinStep (who : Nat) (ents : List Nat) (n : Nat) (s : State) (got : List Nat) :
    s.BasinStep (s.allocCells who ents n got).1 := by
  induction n generalizing s got with
  | zero => exact .refl s
  | succ n ih =>
    have failed (g : Grant) := (State.failCount_basinStep s ents g).trans (State.giveBack_basinStep _ ents got)
    unfold State.allocCells
    dsimp only
    split
    · split
      · exact failed .noBuffer
      · split
        · exact failed .noBuffer
        · refine State.BasinStep.trans ?_ (ih _ _)
          exact (((State.BasinStep.basin s _).trans (.basin _ _)).trans (State.charge_basinStep _ ents _)).trans (.basin _ _)
    · exact failed _

/-- The end of a copy's reference frees cells, or counts a bad free and raises its event (R156, R162). -/
theorem State.endRef_eventKept (s : State) (h : Nat) : s.EventKept (s.endRef h) := by
  have bad (a b c : Nat) : s.EventKept (s.badFree a b c h) := by
    unfold State.badFree
    dsimp only
    split
    · exact State.EventKept.trans (State.BasinStep.basin s _).eventKept (State.event_eventKept _ _ _)
    · exact (State.BasinStep.basin s _).eventKept
  unfold State.endRef
  split
  · exact bad _ _ _
  · split
    · exact bad _ _ _
    · exact (State.decRef_basinStep s h).eventKept

theorem State.outcome_dci (s : State) (p code : Nat) : (s.outcome p code).dci = s.dci := rfl

theorem State.outcome_eventKept (s : State) (p code : Nat) : s.EventKept (s.outcome p code) :=
  .of_dci rfl (State.outcome_dci s p code)

end Sys2Proof.Machine
end

section
/-!
PROOFS. The flush of a punt ring and the locks a host leaves (R354, R504), the descriptors that a delivery writes (R503), and
a host's frame on its way in: it has no sequence number yet, so whatever ends it reaches no run (R26, R505).
-/

namespace Sys2Proof.Machine

/-! ### A flush of a receive ring changes receive rings, and no base register (R504) -/

/-- The lease, and every register of a function but its receive rings, are those of the other state; so are the bases of the
receive rings. -/
structure State.RxStep (s u : State) : Prop where
  lease : u.dci.lease = s.dci.lease
  regs : ∀ f, ∃ m, u.fn f = { s.fn f with rx := m }
  base : ∀ f r, (u.rxRing f r).base = (s.rxRing f r).base

namespace State.RxStep

variable {s u v : State}

theorem of_dci (h : u.dci = s.dci) : s.RxStep u :=
  ⟨by rw [h], fun f => ⟨(s.fn f).rx, State.fn_of_dci h f⟩, fun f r => by simp [State.rxRing, State.fn_of_dci h f]⟩

theorem refl (s : State) : s.RxStep s := .of_dci rfl

theorem trans (h : s.RxStep u) (k : u.RxStep v) : s.RxStep v := by
  refine ⟨k.lease.trans h.lease, fun f => ?_, fun f r => (k.base f r).trans (h.base f r)⟩
  obtain ⟨m, hm⟩ := h.regs f
  obtain ⟨m', hm'⟩ := k.regs f
  exact ⟨m', by rw [hm', hm]⟩

theorem foldl {α : Type} (g : State → α → State) (hg : ∀ x a, State.RxStep x (g x a)) (l : List α) (s : State) :
    s.RxStep (l.foldl g s) :=
  List.foldlRecOn l g (RxStep.refl s) fun x hx a _ => hx.trans (hg x a)

end State.RxStep

theorem State.updRx_rxStep (s : State) (f : HostFn) (r : Nat) (g : PuntRing → PuntRing)
    (hg : ∀ x, (g x).base = x.base := by exact fun _ => rfl) :
    s.RxStep (s.updRx f r g) := by
  refine ⟨State.lease_updFn s f _, fun h => ?_, fun h j => ?_⟩
  · by_cases hf : h = f
    · subst hf
      exact ⟨_, State.fn_updFn_self ..⟩
    · exact ⟨(s.fn h).rx, by simp [State.updRx, State.fn_updFn, hf]⟩
  · rw [State.rxRing_updRx]
    split
    · next e => rw [hg, e.1, e.2]
    · rfl

theorem State.sample_rxStep (s : State) (code sub inPort domain : Nat) (seq : W32) (dt : Nat) (bytes : List Byte) :
    s.RxStep (s.sample code sub inPort domain seq dt bytes) := by
  unfold State.sample
  extract_lets k s1 win used s2 f
  split
  · exact .refl s
  · split
    · exact .of_dci rfl
    · split
      · exact .of_dci rfl
      · split
        · exact State.RxStep.trans (u := s2) (.of_dci rfl) (State.updRx_rxStep s2 f k.ring _)
        · exact .of_dci rfl

theorem State.puntDrop_rxStep (s : State) (f : HostFn) (r : Nat) (c : PuntCopy) (code sub : Nat) :
    s.RxStep (s.puntDrop f r c code sub) := by
  unfold State.puntDrop
  extract_lets s0 s1
  have counted : s.RxStep (s0.sump code sub c.bytes.length) := (State.updRx_rxStep s f r _).trans (.of_dci rfl)
  have released : s.RxStep s1 := (counted.trans (State.sample_rxStep _ code sub c.inPort c.domain c.seq c.dt c.bytes)).trans
    (.of_dci (State.decRef_basinStep _ c.handle).dci)
  split
  · exact .refl s
  · split
    · exact released.trans (.of_dci (State.outcome_dci s1 _ code))
    · exact released

theorem State.puntFlush_rxStep (s : State) (f : HostFn) (r : Nat) : s.RxStep (s.puntFlush f r) :=
  (State.updRx_rxStep s f r fun x => { x with waiting := [] }).trans
    (State.RxStep.foldl _ (fun x c => State.puntDrop_rxStep x f r c 5 0) _ _)

/-! ### A host's locks (R349, R354) -/

theorem State.lockAbandon_dci (s : State) (k : Nat) : (s.lockAbandon k).dci = s.dci := by
  have waiter (x : State) (w : LkWaiter) (v : W64) : (x.answerWaiter w v).dci = x.dci := by
    unfold State.answerWaiter
    split
    · dsimp only
      split
      · rfl
      · unfold State.complete
        split <;> rfl
    · rfl
  unfold State.lockAbandon State.lockPass
  dsimp only
  split
  · rfl
  · rw [waiter]
    rfl

theorem State.abandonAll_dci (s : State) (r : Requester) : (s.abandonAll r).dci = s.dci :=
  List.foldlRecOn (motive := fun x => x.dci = s.dci) (s.locksOf r) State.lockAbandon rfl
    fun x hx k _ => (State.lockAbandon_dci x k).trans hx

/-- What a function reset leaves of the function: its registers as R487 resets them, over whatever its receive rings became;
the lease stays. -/
theorem State.fnReset_fn (s : State) (f : HostFn) :
    (∃ m, (s.fnReset f).fn f = FnSt.reset { s.fn f with rx := m }) ∧ (s.fnReset f).dci.lease = s.dci.lease := by
  have flushed := State.RxStep.foldl (fun acc r => State.puntFlush acc f r) (fun x r => State.puntFlush_rxStep x f r)
    ((s.fn f).rx.map Prod.fst) s
  have locks (x : State) : ((x.lockLeave (.host f)).abandonAll (.host f)).dci = x.dci := State.abandonAll_dci _ _
  obtain ⟨m, hm⟩ := flushed.regs f
  unfold State.fnReset
  dsimp only
  rw [State.fn_of_dci (locks _), locks, State.fn_updFn_self, State.lease_updFn, hm]
  exact ⟨⟨m, rfl⟩, flushed.lease⟩

/-! ### Delivery into posted descriptors (R503) -/

/-- Writing a copy's pieces leaves the frames punted so far, keeps what waits, and counts one descriptor per buffer. -/
theorem State.writePunt_eq (f : HostFn) (ring : Nat) (c : PuntCopy) (bufs : List (Nat × Nat)) (s : State) (bytes : List Byte)
    (first : Bool) :
    (s.writePunt f ring c bytes bufs first).out.punted = s.out.punted
    ∧ ((s.writePunt f ring c bytes bufs first).rxRing f ring).waiting = (s.rxRing f ring).waiting
    ∧ ((s.writePunt f ring c bytes bufs first).rxRing f ring).done
        = (s.rxRing f ring).done + BitVec.ofNat 32 bufs.length := by
  induction bufs generalizing s bytes first with
  | nil => simp [State.writePunt]
  | cons b rest ih =>
    obtain ⟨hp, hw, hd⟩ := ih _ _ _
    unfold State.writePunt
    refine ⟨hp.trans (by rw [State.updRx_out]; rfl), hw.trans ?_, hd.trans ?_⟩
    · rw [State.rxRing_updRx_self, State.rxRing_hostWrite, State.rxRing_hostWrite]
    · rw [State.rxRing_updRx_self, State.rxRing_hostWrite, State.rxRing_hostWrite, List.length_cons,
        Nat.add_comm rest.length 1, BitVec.ofNat_add, ← BitVec.add_assoc]
      rfl

/-! ### A frame without a sequence number (R26, R505) -/

/-- The host interface is that of the other state, and no packet has got a sequence number. -/
structure State.Unsequenced (s u : State) : Prop where
  dci : u.dci = s.dci
  noSeq : ∀ p, (s.pkt p).hasSeq = false → (u.pkt p).hasSeq = false

namespace State.Unsequenced

variable {s u v : State}

theorem of_order (hd : u.dci = s.dci) (ho : u.order.pkts = s.order.pkts) : s.Unsequenced u :=
  ⟨hd, fun p hp => by simpa [State.pkt, ho] using hp⟩

theorem refl (s : State) : s.Unsequenced s := .of_order rfl rfl

theorem trans (h : s.Unsequenced u) (k : u.Unsequenced v) : s.Unsequenced v :=
  ⟨k.dci.trans h.dci, fun p hp => k.noSeq p (h.noSeq p hp)⟩

theorem of_basin (h : s.BasinStep u) : s.Unsequenced u := .of_order h.dci (by rw [h.order])

theorem foldl {α : Type} (g : State → α → State) (hg : ∀ x a, State.Unsequenced x (g x a)) (l : List α) (s : State) :
    s.Unsequenced (l.foldl g s) :=
  List.foldlRecOn l g (Unsequenced.refl s) fun x hx a _ => hx.trans (hg x a)

end State.Unsequenced

theorem State.setPkt_unsequenced (s : State) (p : Nat) (k : Pkt) (hk : (s.pkt p).hasSeq = false → k.hasSeq = false) :
    s.Unsequenced (s.setPkt p k) := by
  refine ⟨rfl, fun q hq => ?_⟩
  by_cases e : q = p
  · subst e
    simpa using hk hq
  · rwa [State.setPkt_pkt_ne s k e]

theorem State.updPkt_unsequenced (s : State) (p : Nat) (g : Pkt → Pkt)
    (hg : ∀ k, (g k).hasSeq = k.hasSeq := by exact fun _ => rfl) :
    s.Unsequenced (s.updPkt p g) :=
  State.setPkt_unsequenced s p _ fun h => (hg _).trans h

theorem State.updPort_unsequenced (s : State) (p : Nat) (g : Port → Port) : s.Unsequenced (s.updPort p g) := .of_order rfl rfl

/-- The frame that comes in is new: it has no sequence number. -/
theorem State.newFrame_unsequenced (s : State) (port well : Nat) (host : Option HostFn) :
    s.Unsequenced (s.newFrame port well host).1
    ∧ ((s.newFrame port well host).1.pkt (s.newFrame port well host).2).hasSeq = false := by
  refine ⟨State.Unsequenced.trans ?_ (State.setPkt_unsequenced _ _ _ fun _ => rfl), by simp [State.newFrame]⟩
  exact .of_order rfl rfl

/-- A refusal of a frame without a sequence number frees its buffer at most. -/
theorem State.refuse_unsequenced (s : State) (p code : Nat) (hp : (s.pkt p).hasSeq = false) :
    s.Unsequenced (s.refuse p code) := by
  have marked : s.Unsequenced ((s.countRefusal (s.pkt p).inPort code).updPkt p fun x => { x with refusal := some code }) :=
    (State.updPort_unsequenced s _ _).trans (State.updPkt_unsequenced _ p _)
  unfold State.refuse
  dsimp only
  split
  · exact .refl s
  · rw [if_pos (by simp [hp])]
    split
    · exact marked
    · split
      · exact marked.trans (.of_basin (State.freeBuf_basinStep _ _))
      · exact marked

theorem State.startFrame_unsequenced (s : State) (port p : Nat) (hp : (s.pkt p).hasSeq = false) :
    s.Unsequenced (s.startFrame port p) := by
  unfold State.startFrame
  split
  · exact State.refuse_unsequenced s p 5 hp
  · exact State.updPort_unsequenced ..

theorem State.macWrite_unsequenced (s : State) (port p : Nat) (words : List IWord) (ended : Bool) :
    s.Unsequenced (s.macWrite port p words ended) := by
  unfold State.macWrite
  exact (State.updPort_unsequenced _ _ _).trans (State.updPkt_unsequenced _ _ _)

theorem State.frameIn_unsequenced (s : State) (port : Nat) (words : List IWord) (ended : Bool) :
    s.Unsequenced (s.frameIn port words ended) := by
  obtain ⟨new, noSeq⟩ := State.newFrame_unsequenced s port (wellOf port) none
  exact ((new.trans (State.updPort_unsequenced _ port _)).trans (State.startFrame_unsequenced _ port _ noSeq)).trans
    (State.macWrite_unsequenced _ port _ words ended)

theorem State.pauseFor_unsequenced (s : State) (p prio quanta : Nat) : s.Unsequenced (s.pauseFor p prio quanta) :=
  .of_order rfl rfl

theorem State.pfcTake_unsequenced (s : State) (p : Nat) (bytes : List Byte) : s.Unsequenced (s.pfcTake p bytes) := by
  unfold State.pfcTake
  refine State.Unsequenced.foldl _ (fun x k => ?_) _ s
  split
  · exact State.pauseFor_unsequenced ..
  · exact .refl x

theorem State.macControl_unsequenced (s : State) (port : Nat) (bytes : List Byte) (rxerr : Bool) :
    s.Unsequenced (s.macControl port bytes rxerr) := by
  have cnt (g : MacCnt → MacCnt) : s.Unsequenced (s.macCnt port g) := State.updPort_unsequenced ..
  unfold State.macControl
  dsimp only
  split
  · exact cnt _
  · split
    · split
      · exact (cnt _).trans (State.pauseFor_unsequenced ..)
      · exact cnt _
    · split
      · split
        · exact (cnt _).trans (State.pfcTake_unsequenced ..)
        · exact cnt _
      · split
        · exact State.frameIn_unsequenced ..
        · exact cnt _

theorem State.macReturn_unsequenced (s : State) (port : Nat) (bytes : List Byte) : s.Unsequenced (s.macReturn port bytes) := by
  unfold State.macReturn
  split
  · exact .refl s
  · split
    · exact State.macControl_unsequenced ..
    · exact State.frameIn_unsequenced ..

theorem State.wire_unsequenced (s : State) (phys : Nat) (bytes : List Byte) (good : Bool) (dt : Nat) :
    s.Unsequenced (s.wire phys bytes good dt) := by
  unfold State.wire
  split
  · exact State.macReturn_unsequenced ..
  · exact .of_order rfl rfl

theorem State.stompNow_unsequenced (s : State) (phys : Nat) (n : TxNow) : s.Unsequenced (s.stompNow phys n) :=
  (State.wire_unsequenced s phys n.bytes false n.started).trans (.of_order rfl rfl)

theorem State.stompCt_unsequenced (s : State) (p : Nat) : s.Unsequenced (s.stompCt p) := by
  unfold State.stompCt
  split
  · exact .of_order rfl rfl
  · refine State.Unsequenced.foldl _ (fun x phys => ?_) _ s
    dsimp only
    split
    · split
      · exact (State.stompNow_unsequenced ..).trans (.of_order rfl rfl)
      · exact .refl x
    · exact .refl x

theorem State.refuseFrame_unsequenced (s : State) (p code : Nat) (hp : (s.pkt p).hasSeq = false) :
    s.Unsequenced (s.refuseFrame p code) := by
  have stomped : s.Unsequenced ((s.updPkt p fun x => { x with stomped := true }).stompCt p) :=
    (State.updPkt_unsequenced s p _).trans (State.stompCt_unsequenced _ p)
  have refused := (stomped.trans (State.refuse_unsequenced _ p code (stomped.noSeq p hp))).trans
    (State.updPkt_unsequenced _ p (fun x => { x with stomped := false }))
  unfold State.refuseFrame
  split
  · exact .refl s
  · split
    · dsimp only
      split
      · exact refused.trans (.of_basin (State.freeBuf_basinStep _ _))
      · exact refused
    · exact State.refuse_unsequenced s p code hp

theorem State.requestCell_unsequenced (s : State) (p : Nat) (hp : (s.pkt p).hasSeq = false) :
    s.Unsequenced (s.requestCell p) := by
  have failed (g : Grant) (code : Nat) : s.Unsequenced ((s.failCount (s.frameEnts (s.pkt p)) g).refuseFrame p code) :=
    have counted := State.Unsequenced.of_basin (State.failCount_basinStep s (s.frameEnts (s.pkt p)) g)
    counted.trans (State.refuseFrame_unsequenced _ p code (counted.noSeq p hp))
  unfold State.requestCell
  dsimp only
  split
  · exact failed _ _
  · exact failed _ _
  · split
    · exact failed _ _
    · refine State.Unsequenced.trans ?_ (State.updPkt_unsequenced _ p _)
      exact .of_order rfl rfl

theorem State.requestCells_unsequenced (p n : Nat) (s : State) (hp : (s.pkt p).hasSeq = false) :
    s.Unsequenced (s.requestCells p n) := by
  induction n generalizing s with
  | zero => exact .refl s
  | succ n ih =>
    have one := State.requestCell_unsequenced s p hp
    unfold State.requestCells
    split
    · exact .refl s
    · exact one.trans (ih _ (one.noSeq p hp))

theorem State.storeBytes_unsequenced (s : State) (p : Nat) : s.Unsequenced (s.storeBytes p) := by
  unfold State.storeBytes
  dsimp only
  split
  · exact .of_basin (State.updBuf_basinStep _ _ _)
  · exact .refl s

/-- At its tail such a frame is refused, or waits for its walk: it is not accepted (R21). -/
theorem State.tailCheck_unsequenced (s : State) (p : Nat) (hp : (s.pkt p).hasSeq = false) :
    s.Unsequenced (s.tailCheck p) := by
  unfold State.tailCheck
  split
  · exact State.refuseFrame_unsequenced s p _ hp
  · have stored := (State.updPkt_unsequenced s p fun x => { x with tailIn := true }).trans
      (State.storeBytes_unsequenced _ p)
    unfold State.tryAccept
    rw [if_pos (by simp [stored.noSeq p hp])]
    exact stored

theorem State.hostIngress_dci (s : State) (f : HostFn) (target : Nat) (frame : List Byte) :
    (s.hostIngress f target frame).1.dci = s.dci := by
  unfold State.hostIngress
  extract_lets r bytes cfg s1
  obtain ⟨new, fresh⟩ : s.Unsequenced r.1 ∧ (r.1.pkt r.2).hasSeq = false := State.newFrame_unsequenced ..
  split
  · exact (new.trans (State.refuse_unsequenced r.1 r.2 5 fresh)).dci
  · have queued : r.1.Unsequenced s1 := (State.updPort_unsequenced _ _ _).trans (State.updPkt_unsequenced _ _ _)
    have hp := queued.noSeq r.2 fresh
    split
    · exact ((new.trans queued).trans (State.refuse_unsequenced s1 r.2 2 hp)).dci
    · have asked := State.requestCells_unsequenced r.2 (cellsDue bytes.length true) s1 hp
      exact (((new.trans queued).trans asked).trans (State.tailCheck_unsequenced _ r.2 (asked.noSeq _ hp))).dci

/-- Taking a transmit descriptor's frame leaves the host interface alone (R505). -/
theorem State.takeTx_dci (s : State) (f : HostFn) (tag len mode : Nat) (ts : Bool) (target : Nat) (frame : List Byte) :
    (s.takeTx f tag len mode ts target frame).1.dci = s.dci := by
  have cells := (State.allocCells_basinStep 17 [entHost f] ((len + 4 + 255) / 256) s []).dci
  unfold State.takeTx
  split
  · rfl
  · split
    · next e => simpa [e] using cells
    · next e => simpa [e] using cells
    · next e =>
      rw [e] at cells
      dsimp only
      split
      · exact cells
      · rw [State.hostIngress_dci, (State.freeBuf_basinStep _ _).dci]
        exact cells

/-- A TO_QUEUE frame that gets its cells arrives at its queue's pump (R505). -/
theorem State.takeTx_arrivals (s : State) (f : HostFn) (tag len : Nat) (ts : Bool) (target : Nat) (frame : List Byte)
    (v : State) (h : Nat) (hs : List Nat) (g : Grant) (hd : badDesc len 0 target = false)
    (ha : s.allocCells 17 [entHost f] ((len + 4 + 255) / 256) [] = (v, some (h :: hs), g)) :
    let c := hostCopy s f tag target h (len + 4) ts
    ((s.takeTx f tag len 0 ts target frame).1.pump (s.copyPump c)).arrivals = (s.pump (s.copyPump c)).arrivals ++ [c] := by
  have cells := State.allocCells_basinStep 17 [entHost f] ((len + 4 + 255) / 256) s []
  rw [ha] at cells
  unfold State.takeTx
  simp only [hd, ha, Bool.false_eq_true, if_false, if_true, List.headD_cons, State.updPump_pump]
  rw [(State.setBuf_basinStep v h _).pump, cells.pump]

end Sys2Proof.Machine
end

section
/-!
PROOFS. O43: the registers of a host function (R16, R19, R475-R482, R487, R492, R501-R505). One equation per command, then one
lemma per register or ring.
-/

namespace Sys2Proof.Machine

/-! ### Function resets, links and moderated interrupts (R475, R487, R501) -/

theorem functionReset_effect (s : State) (f : HostFn) (down : Bool) (hf : s.fns.contains f = true) :
    ∃ u, exec (.functionReset f down) s = .next u ∧ (u.fn f).linkUp = ((s.fn f).linkUp && !down)
      ∧ (u.fn f).cmdBase = (s.fn f).cmdBase &&& ~~~(1 : W64) ∧ (u.fn f).rspBase = (s.fn f).rspBase &&& ~~~(1 : W64)
      ∧ (u.fn f).evtBase = (s.fn f).evtBase &&& ~~~(1 : W64) ∧ (u.fn f).cseq = (s.fn f).cseq
      ∧ u.dci.lease = s.dci.lease := by
  obtain ⟨⟨m, hm⟩, hl⟩ := State.fnReset_fn s f
  refine ⟨(s.fnReset f).updFn f fun x => { x with linkUp := x.linkUp && !down }, ?_, ?_⟩
  · show execFunctionReset f down s = _
    simp only [execFunctionReset, hf, done, Bool.not_true, Bool.false_eq_true, if_false]
  · rw [State.fn_updFn_self, State.lease_updFn, hm, hl]
    exact ⟨rfl, rfl, rfl, rfl, rfl, rfl⟩

theorem hostLinkUp_effect (s : State) (f : HostFn) (hf : s.fns.contains f = true) :
    ∃ u, exec (.hostLinkUp f) s = .next u ∧ u.fn f = { s.fn f with linkUp := true } := by
  refine ⟨s.updFn f fun x => { x with linkUp := true }, ?_, State.fn_updFn_self ..⟩
  show execHostLinkUp f s = _
  rw [execHostLinkUp, if_pos hf, done]

theorem State.sendVector_intWait (s : State) (f : HostFn) (v : Nat) :
    ((s.sendVector f v).fn f).intWait = (s.fn f).intWait := by
  unfold State.sendVector
  split
  · rw [State.fn_updFn_self]
  · exact congrArg FnSt.intWait (State.fn_of_dci rfl f)

/-- A source whose gap is over does not wait again. -/
theorem State.irq_intWait (s : State) (f : HostFn) (k : Nat) (h : SMap.get 0 (s.fn f).intGap k ≤ s.dt) :
    ((s.irq f k).fn f).intWait = (s.fn f).intWait := by
  unfold State.irq
  dsimp only
  split
  · rfl
  · rw [if_neg (Nat.not_lt.2 h), State.fn_updFn_self]
    exact State.sendVector_intWait s f _

theorem intModExpiry_effect (s : State) (f : HostFn) (k : Nat) (hw : (s.fn f).intWait.contains k = true)
    (hg : SMap.get 0 (s.fn f).intGap k ≤ s.dt) :
    ∃ u, exec (.intModExpiry f k) s = .next u ∧ (u.fn f).intWait.contains k = false := by
  refine ⟨(s.updFn f fun y => { y with intWait := y.intWait.filter (· ≠ k) }).irq f k, ?_, ?_⟩
  · show execIntModExpiry f k s = _
    rw [execIntModExpiry, if_pos ⟨hw, hg⟩, done]
  · rw [State.irq_intWait _ f k (by simpa using hg), State.fn_updFn_self]
    simp

/-! ### Writes to register space (R16-R19, R477, R478) -/

theorem registerWrite_bar0 (s : State) (f : HostFn) (off : Nat) (v : W64) (hr : s.reach f = true) (ho : off % 8 = 0) :
    exec (.registerWrite f 0 off 8 v) s = .next (s.bar0Write f off v) := by
  show execRegisterWrite f 0 off 8 v s = _
  simp [execRegisterWrite, hr, ho, done]

theorem registerWrite_bar2 (s : State) (f : HostFn) (off : Nat) (v : W64) (hr : s.reach f = true) (ho : off % 8 = 0) :
    exec (.registerWrite f 2 off 8 v) s = .next (s.bar2Write f off v) := by
  show execRegisterWrite f 2 off 8 v s = _
  simp [execRegisterWrite, hr, ho, done]

/-- A write of another width, off its alignment, or to the read-only registers of the identity block is discarded. -/
theorem registerWrite_discarded (s : State) (f : HostFn) (bar off size : Nat) (v : W64) (hr : s.reach f = true)
    (h : size ≠ 8 ∨ off % 8 ≠ 0 ∨ (bar = 0 ∧ off < 0x28)) : exec (.registerWrite f bar off size v) s = .next s := by
  show execRegisterWrite f bar off size v s = _
  by_cases hw : size ≠ 8 ∨ off % 8 ≠ 0
  · rw [execRegisterWrite, if_pos (.inr hw), done]
  · have hb : bar = 0 ∧ off < 0x28 := by omega
    have same : s.bar0Write f off v = s := by
      unfold State.bar0Write
      iterate 14 rw [if_neg (by omega)]
    simp [execRegisterWrite, hr, hw, hb.1, same, done]

/-! ### Doorbells, heads and ESEQ_ACKED (R481, R483, R484, R486) -/

theorem cmdDoorbell_effect (s : State) (f : HostFn) (v : Byte) (hr : s.reach f = true) :
    ∃ u, exec (.cmdDoorbell f v) s = .next u ∧ u.fn f = { s.fn f with cmdTail := v }
      ∧ exec (.registerWrite f 0 0x1010 8 (v.setWidth 64)) s = .next u := by
  refine ⟨s.updFn f fun x => { x with cmdTail := v }, ?_, State.fn_updFn_self .., ?_⟩
  · show execCmdDoorbell f v s = _
    rw [execCmdDoorbell, if_pos hr, done]
  · rw [registerWrite_bar0 s f _ _ hr rfl]
    simp [State.bar0Write]

theorem rspHeadWrite_effect (s : State) (f : HostFn) (v : Byte) (hr : s.reach f = true) :
    ∃ u, exec (.rspHeadWrite f v) s = .next u ∧ u.fn f = { s.fn f with rspHead := v }
      ∧ exec (.registerWrite f 0 0x1038 8 (v.setWidth 64)) s = .next u := by
  refine ⟨s.updFn f fun x => { x with rspHead := v }, ?_, State.fn_updFn_self .., ?_⟩
  · show execRspHeadWrite f v s = _
    rw [execRspHeadWrite, if_pos hr, done]
  · rw [registerWrite_bar0 s f _ _ hr rfl]
    simp [State.bar0Write]

theorem eseqAckWrite_next (s : State) (f : HostFn) (v : W32) (hr : s.reach f = true) :
    exec (.eseqAckWrite f v) s = .next (s.ackEvents f v) := by
  show execEseqAckWrite f v s = _
  rw [execEseqAckWrite, if_pos hr, done]

/-- With no event lost no LOST event is due. -/
theorem State.lostEvent_none (s : State) (f : HostFn) (h : (s.fn f).lost = 0) : s.lostEvent f = s := by
  simp [State.lostEvent, h]

theorem eseqAckWrite_effect (s : State) (f : HostFn) (v : W32) (hr : s.reach f = true)
    (hv : (v - (s.fn f).eseqAcked).toNat ≤ ((s.fn f).eseqIssued - (s.fn f).eseqAcked).toNat) (hl : (s.fn f).lost = 0) :
    ∃ u, exec (.eseqAckWrite f v) s = .next u ∧ (u.fn f).eseqAcked = v ∧ (u.fn f).eseqIssued = (s.fn f).eseqIssued
      ∧ exec (.registerWrite f 0 0x1060 8 (v.setWidth 64)) s = .next u := by
  refine ⟨s.ackEvents f v, eseqAckWrite_next s f v hr, ?_⟩
  have written : exec (.registerWrite f 0 0x1060 8 (v.setWidth 64)) s = .next (s.ackEvents f v) := by
    rw [registerWrite_bar0 s f _ _ hr rfl]
    simp [State.bar0Write]
  rw [written, State.ackEvents, if_neg (Nat.not_lt.2 hv), State.lostEvent_none _ f (by simpa using hl)]
  simp

/-- A number that has not been issued is not taken. -/
theorem eseqAckWrite_beyond (s : State) (f : HostFn) (v : W32) (hr : s.reach f = true)
    (hv : ((s.fn f).eseqIssued - (s.fn f).eseqAcked).toNat < (v - (s.fn f).eseqAcked).toNat) :
    exec (.eseqAckWrite f v) s = .next s := by
  rw [eseqAckWrite_next s f v hr, State.ackEvents, if_pos hv]

/-! ### The rings of the command interface (R482) -/

@[simp] theorem FnSt.ringBase_setRingBase (x : FnSt) (r : Nat) (v : W64) : (x.setRingBase r v).ringBase r = v := by
  unfold FnSt.setRingBase FnSt.ringBase
  split
  · rfl
  · split <;> rfl

theorem State.ringOn_ringBase (s : State) (f : HostFn) (r : Nat) (v : W64) :
    ((s.ringOn f r v).fn f).ringBase r = baseImage v := by
  match r with
  | 0 =>
    simp only [State.ringOn, State.fn_updFn_self]
    rfl
  | 1 =>
    simp only [State.ringOn, State.fn_updFn_self]
    rfl
  | n + 2 =>
    have based : ((s.updFn f fun x => x.setRingBase (n + 2) (baseImage v)).fn f).evtBase = baseImage v := by
      rw [State.fn_updFn_self]
      rfl
    exact (State.EventKept.evtBase (.foldl _ (fun x e => State.putEvent_eventKept x f e) _ _) f).trans based

theorem dciRingEnable_effect (s : State) (f : HostFn) (r : Nat) (v : W64) (hr : s.reach f = true) (h3 : r < 3)
    (hv : v.getLsbD 0 = true) (ho : ((s.fn f).ringBase r).getLsbD 0 = false) :
    ∃ u, exec (.dciRingEnable f r v) s = .next u ∧ exec (.registerWrite f 0 (0x1000 + 0x20 * r) 8 v) s = .next u
      ∧ (u.fn f).ringBase r = v &&& ~~~(0x3E : W64) ∧ (r = 0 → (u.fn f).cmdHead = 0 ∧ (u.fn f).cmdTail = 0)
      ∧ (r = 1 → (u.fn f).rspHead = 0 ∧ (u.fn f).rspTail = 0 ∧ (u.fn f).phase = true) := by
  refine ⟨s.ringOn f r v, ?_, ?_, State.ringOn_ringBase s f r v, ?_, ?_⟩
  · show execDciRingEnable f r v s = _
    rw [execDciRingEnable, if_pos ⟨hr, h3, hv, by rw [ho]; rfl⟩, done]
  · have enabled : s.ringWrite f r v = s.ringOn f r v := by
      simp only [State.ringWrite, ho, hv, Bool.false_eq_true, if_false, if_true]
    rw [registerWrite_bar0 s f _ v hr (by omega), ← enabled]
    match r, h3 with
    | 0, _ => rfl
    | 1, _ => rfl
    | 2, _ => rfl
  · rintro rfl
    simp [State.ringOn]
  · rintro rfl
    simp [State.ringOn]

theorem dciRingDisable_effect (s : State) (f : HostFn) (r : Nat) (hr : s.reach f = true) (h3 : r < 3) :
    ∃ u, exec (.dciRingDisable f r) s = .next u ∧ (u.fn f).ringBase r = (s.fn f).ringBase r &&& ~~~(1 : W64) := by
  refine ⟨s.ringOff f r, ?_, by simp [State.ringOff]⟩
  show execDciRingDisable f r s = _
  rw [execDciRingDisable, if_pos ⟨hr, h3⟩, done]

/-! ### The heartbeat (R492) -/

theorem leaseHeartbeatWrite_next (s : State) (f : HostFn) (g : W32) (hr : s.reach f = true) :
    exec (.leaseHeartbeatWrite f g) s = .next (s.heartbeat f g) := by
  show execLeaseHeartbeatWrite f g s = _
  rw [execLeaseHeartbeatWrite, if_pos hr, done]

theorem leaseHeartbeatWrite_effect (s : State) (f : HostFn) (g : W32) (hr : s.reach f = true)
    (hz : s.dci.lease.frozen = none) :
    ∃ u, exec (.leaseHeartbeatWrite f g) s = .next u ∧ exec (.registerWrite f 0 0x28 8 (g.setWidth 64)) s = .next u
      ∧ u.dci.lease = if s.mine f = true ∧ g = s.dci.lease.gen
          then { s.dci.lease with deadline := s.dt + 1000000 * s.dci.lease.timeoutMs }
          else { s.dci.lease with ignored := s.dci.lease.ignored + 1 } := by
  refine ⟨s.heartbeat f g, leaseHeartbeatWrite_next s f g hr, ?_, ?_⟩
  · rw [registerWrite_bar0 s f _ _ hr rfl]
    simp [State.bar0Write]
  · unfold State.heartbeat
    split
    · rw [hz]
      rfl
    · rfl

theorem leaseHeartbeatWrite_frozen (s : State) (f : HostFn) (g : W32) (n : Nat) (hr : s.reach f = true)
    (hz : s.dci.lease.frozen = some n) (hm : s.mine f = true) (hg : g = s.dci.lease.gen) :
    ∃ u, exec (.leaseHeartbeatWrite f g) s = .next u
      ∧ u.dci.lease = { s.dci.lease with frozen := some (1000000 * s.dci.lease.timeoutMs) } := by
  refine ⟨s.heartbeat f g, leaseHeartbeatWrite_next s f g hr, ?_⟩
  rw [State.heartbeat, if_pos ⟨hm, hg⟩, hz]
  rfl

/-! ### Punt rings (R502-R505) -/

theorem puntRingEnable_effect (s : State) (f : HostFn) (tx : Bool) (r : Nat) (v : W64) (hr : s.reach f = true) (h64 : r < 64)
    (hv : v.getLsbD 0 = true) (ho : (s.puntRing f tx r).base.getLsbD 0 = false) :
    ∃ u, exec (.puntRingEnable f tx r v) s = .next u ∧ (u.puntRing f tx r).base = v &&& ~~~(0x1E : W64)
      ∧ (u.puntRing f tx r).head = 0 ∧ (u.puntRing f tx r).tail = 0 := by
  refine ⟨s.puntOn f tx r v, ?_, ?_⟩
  · show execPuntRingEnable f tx r v s = _
    rw [execPuntRingEnable, if_pos ⟨hr, h64, hv, by rw [ho]; rfl⟩, done]
  · rw [State.puntOn, State.puntRing_updPunt]
    exact ⟨rfl, rfl, rfl⟩

theorem puntRingDisable_effect (s : State) (f : HostFn) (tx : Bool) (r : Nat) (hr : s.reach f = true) (h64 : r < 64)
    (ho : (s.puntRing f tx r).base.getLsbD 0 = true) :
    ∃ u, exec (.puntRingDisable f tx r) s = .next u
      ∧ (u.puntRing f tx r).base = (s.puntRing f tx r).base &&& ~~~(1 : W64) := by
  refine ⟨s.puntOff f tx r, ?_, ?_⟩
  · show execPuntRingDisable f tx r s = _
    rw [execPuntRingDisable, if_pos ⟨hr, h64, ho⟩, done]
  · rw [State.puntOff, State.puntRing_updPunt]
    cases tx with
    | true => rfl
    | false =>
      show ((s.puntFlush f r).rxRing f r).base &&& _ = _
      rw [(State.puntFlush_rxStep s f r).base f r]
      rfl

theorem puntRxPost_effect (s : State) (f : HostFn) (r : Nat) (v : BitVec 16) (hr : s.reach f = true) (h64 : r < 64) :
    ∃ u, exec (.puntRxPost f r v) s = .next u ∧ u.puntRing f false r = { s.puntRing f false r with tail := v }
      ∧ exec (.registerWrite f 2 (4096 * r) 8 (v.setWidth 64)) s = .next u := by
  refine ⟨s.updRx f r fun x => { x with tail := v }, ?_, State.rxRing_updRx_self .., ?_⟩
  · show execPuntRxPost f r v s = _
    rw [execPuntRxPost, if_pos ⟨hr, h64⟩, done]
  · rw [registerWrite_bar2 s f _ _ hr (by omega), State.bar2Write, if_neg (by omega), if_pos (by omega),
      Nat.mul_div_cancel_left r (by decide)]
    simp

theorem puntTxDoorbell_effect (s : State) (f : HostFn) (r : Nat) (v : BitVec 16) (hr : s.reach f = true) (h64 : r < 64) :
    ∃ u, exec (.puntTxDoorbell f r v) s = .next u ∧ u.puntRing f true r = { s.puntRing f true r with tail := v }
      ∧ exec (.registerWrite f 2 (0x40000 + 4096 * r) 8 (v.setWidth 64)) s = .next u := by
  refine ⟨s.updTx f r fun x => { x with tail := v }, ?_, State.puntRing_updTx_self .., ?_⟩
  · show execPuntTxDoorbell f r v s = _
    rw [execPuntTxDoorbell, if_pos ⟨hr, h64⟩, done]
  · rw [registerWrite_bar2 s f _ _ hr (by omega), State.bar2Write, if_neg (by omega), if_neg (by omega),
      Nat.add_sub_cancel_left, Nat.mul_div_cancel_left r (by decide)]
    simp

/-- A delivery is the descriptors written, the frame punted and the interrupt, then the end of the copy, which leaves the
rings and the frames punted. -/
theorem puntRxDeliver_next (s : State) (f : HostFn) (r : Nat) (c : PuntCopy) (rest : List PuntCopy) (bufs : List (Nat × Nat))
    (hr : s.reach f = true) (hw : (s.rxRing f r).waiting = c :: rest) (ho : (s.rxRing f r).base.getLsbD 0 = true)
    (hn : bufs.length ≤ (s.rxRing f r).posted) (hb : bufs.all bufOk = true) (hf : fitsBufs c.bytes.length bufs = true) :
    let w := (s.updRx f r fun x => { x with waiting := rest }).writePunt f r c c.bytes bufs true
    ∃ u, exec (.puntRxDeliver f r bufs) s = .next u
      ∧ State.EventKept { w with out := { w.out with punted := w.out.punted ++ [(f, r, c.bytes)] } } u := by
  intro w
  show ∃ u, execPuntRxDeliver f r bufs s = .next u ∧ _
  have signalled := State.irq_eventKept { w with out := { w.out with punted := w.out.punted ++ [(f, r, c.bytes)] } } f (64 + r)
  have ended := signalled.trans (State.endRef_eventKept _ c.handle)
  unfold execPuntRxDeliver
  simp only [hw, hr, ho, hb, hf, Nat.not_lt.2 hn, Bool.not_true, Bool.false_eq_true, or_self, if_false]
  split
  · exact ⟨_, rfl, signalled⟩
  · split
    · exact ⟨_, rfl, ended.trans (State.outcome_eventKept _ _ 1)⟩
    · exact ⟨_, rfl, ended⟩

theorem puntRxDeliver_effect (s : State) (f : HostFn) (r : Nat) (c : PuntCopy) (rest : List PuntCopy)
    (bufs : List (Nat × Nat)) (hr : s.reach f = true) (hw : (s.rxRing f r).waiting = c :: rest)
    (ho : (s.rxRing f r).base.getLsbD 0 = true) (hn : bufs.length ≤ (s.rxRing f r).posted) (hb : bufs.all bufOk = true)
    (hf : fitsBufs c.bytes.length bufs = true) :
    ∃ u, exec (.puntRxDeliver f r bufs) s = .next u ∧ u.out.punted = s.out.punted ++ [(f, r, c.bytes)]
      ∧ (u.rxRing f r).waiting = rest ∧ (u.rxRing f r).done = (s.rxRing f r).done + BitVec.ofNat _ bufs.length := by
  obtain ⟨u, hu, kept⟩ := puntRxDeliver_next s f r c rest bufs hr hw ho hn hb hf
  obtain ⟨hp, hwait, hdone⟩ := State.writePunt_eq f r c bufs (s.updRx f r fun x => { x with waiting := rest }) c.bytes true
  refine ⟨u, hu, ?_, ?_, ?_⟩
  · rw [kept.punted, hp, State.updRx_out]
  · rw [kept.rxRing]
    exact hwait.trans (by rw [State.rxRing_updRx_self])
  · rw [kept.rxRing]
    exact hdone.trans (by rw [State.rxRing_updRx_self])

/-- What a fetch of a transmit descriptor leaves: its ring moved on by one, over what taking the frame did to the pumps. -/
theorem puntTxFetch_next (s : State) (f : HostFn) (r len mode : Nat) (ts : Bool) (q : Nat) (frame : List Byte)
    (hr : s.reach f = true) (h64 : r < 64) (ho : (s.puntRing f true r).base.getLsbD 0 = true)
    (hn : (s.puntRing f true r).posted ≠ 0) (hl : frame.length = len) :
    let slot := (s.puntRing f true r).head.toNat % (s.puntRing f true r).entries
    ∃ u, exec (.puntTxFetch f r len mode ts q frame) s = .next u
      ∧ u.egress = (s.takeTx f (r * 65536 + slot) len mode ts q frame).1.egress
      ∧ (u.puntRing f true r).done = (s.puntRing f true r).done + 1
      ∧ (u.puntRing f true r).head = BitVec.ofNat 16 ((slot + 1) % (s.puntRing f true r).entries) := by
  intro slot
  have taken := State.takeTx_dci s f (r * 65536 + slot) len mode ts q frame
  generalize hx : s.takeTx f (r * 65536 + slot) len mode ts q frame = x at taken ⊢
  let g : PuntRing → PuntRing := fun y => { y with
    head := BitVec.ofNat 16 ((slot + 1) % y.entries), done := y.done + 1
    dropped := if x.2.1 = 0 then y.dropped else y.dropped + 1 }
  let at' := (s.puntRing f true r).base.toNat / 32 * 32 + 32 * slot
  let w := (x.1.hostWrite f (at' + 14) [BitVec.ofNat 8 x.2.1, BitVec.ofNat 8 x.2.2]).hostWrite f (at' + 11)
    [BitVec.ofNat 8 (128 + ts.toNat)]
  have ring : w.puntRing f true r = s.puntRing f true r := by
    have hw : w.fn f = s.fn f := State.fn_of_dci taken f
    simp only [State.puntRing, hw]
  have kept := (State.irq_eventKept (w.updTx f r g) f (128 + r)).txRing f r
  rw [State.puntRing_updTx_self, ring] at kept
  obtain ⟨o, d, frame'⟩ := State.irq_frame (w.updTx f r g) f (128 + r)
  refine ⟨(w.updTx f r g).irq f (128 + r), ?_, ?_, ?_, ?_⟩
  · show execPuntTxFetch f r len mode ts q frame s = _
    unfold execPuntTxFetch
    dsimp only
    rw [if_neg (by simp [hr, ho, hn, hl, h64])]
    show done _ = _
    rw [hx]
    rfl
  · rw [frame']
    exact State.updTx_egress w f r g
  · rw [kept]
  · rw [kept]

theorem puntTxFetch_effect (s : State) (f : HostFn) (r len mode : Nat) (ts : Bool) (q : Nat) (frame : List Byte)
    (hr : s.reach f = true) (h64 : r < 64) (ho : (s.puntRing f true r).base.getLsbD 0 = true)
    (hn : (s.puntRing f true r).posted ≠ 0) (hl : frame.length = len) :
    ∃ u, exec (.puntTxFetch f r len mode ts q frame) s = .next u
      ∧ (u.puntRing f true r).done = (s.puntRing f true r).done + 1
      ∧ (u.puntRing f true r).head = BitVec.ofNat 16
        (((s.puntRing f true r).head.toNat % (s.puntRing f true r).entries + 1) % (s.puntRing f true r).entries) := by
  obtain ⟨u, hu, -, hd, hh⟩ := puntTxFetch_next s f r len mode ts q frame hr h64 ho hn hl
  exact ⟨u, hu, hd, hh⟩

theorem puntTxFetch_arrival (s : State) (f : HostFn) (r len : Nat) (ts : Bool) (q : Nat) (frame : List Byte) (v : State)
    (h : Nat) (hs : List Nat) (g : Grant) (hr : s.reach f = true) (h64 : r < 64)
    (ho : (s.puntRing f true r).base.getLsbD 0 = true) (hn : (s.puntRing f true r).posted ≠ 0) (hl : frame.length = len)
    (hd : badDesc len 0 q = false)
    (ha : s.allocCells 17 [entHost f] ((len + 4 + 255) / 256) [] = (v, some (h :: hs), g)) :
    let c := hostCopy s f (r * 65536 + (s.puntRing f true r).head.toNat % (s.puntRing f true r).entries) q h (len + 4) ts
    ∃ u, exec (.puntTxFetch f r len 0 ts q frame) s = .next u
      ∧ (u.pump (s.copyPump c)).arrivals = (s.pump (s.copyPump c)).arrivals ++ [c] := by
  intro c
  obtain ⟨u, hu, he, -, -⟩ := puntTxFetch_next s f r len 0 ts q frame hr h64 ho hn hl
  refine ⟨u, hu, ?_⟩
  rw [State.pump_of_egress he]
  exact State.takeTx_arrivals s f _ len ts q frame v h hs g hd ha

/-! ### Reads of register space (R16, R19, R476-R479, R481) -/

theorem State.hostRead_bar0 (s : State) (f : HostFn) (off : Nat) {u : State} {w : W64} (hr : s.reach f = true)
    (ho : off % 8 = 0) (h : s.bar0Read f off = some (u, w)) : s.hostRead f 0 off 8 = (u, some w) := by
  simp [State.hostRead, hr, ho, h]

/-- A read of another width, off its alignment, or of the gap behind the identity block answers all ones. -/
theorem State.hostRead_ones (s : State) (f : HostFn) (bar off size : Nat) (hr : s.reach f = true)
    (h : size ≠ 8 ∨ off % 8 ≠ 0 ∨ (bar = 0 ∧ 0x30 ≤ off ∧ off < 0x1000)) :
    s.hostRead f bar off size = (s, some ones64) := by
  by_cases hw : size ≠ 8 ∨ off % 8 ≠ 0
  · simp only [State.hostRead, hr, if_pos hw, Bool.not_true, Bool.false_eq_true, if_false]
  · have hb : bar = 0 ∧ 0x30 ≤ off ∧ off < 0x1000 := by omega
    have unassigned : s.bar0Read f off = none := by
      have beyond : (s.identityWords f)[off / 8]? = none := List.getElem?_eq_none (by
        show 6 ≤ off / 8
        omega)
      simp only [State.bar0Read, if_pos hb.2.2, beyond, Option.map_none]
    simp only [State.hostRead, hr, if_neg hw, if_pos hb.1, unassigned, Bool.not_true, Bool.false_eq_true, if_false]

/-- A mapping register takes its assigned bits and reads them back (R501). -/
theorem intMap_readback (s : State) (f : HostFn) (k : Nat) (v : W64) (hr : s.reach f = true)
    (hk : k < 3 ∨ (64 ≤ k ∧ k < 192)) :
    ∃ u, exec (.registerWrite f 0 (0x2000 + 8 * k) 8 v) s = .next u
      ∧ SMap.get 0 (u.fn f).intMap k = v &&& 0xFFFF013F
      ∧ u.hostRead f 0 (0x2000 + 8 * k) 8 = (u, some (v &&& 0xFFFF013F)) := by
  have hoff : (0x2000 + 8 * k - 0x2000) / 8 = k := by omega
  let u := s.updFn f fun x => { x with intMap := SMap.set 0 x.intMap k (v &&& 0xFFFF013F) }
  have stored : SMap.get 0 (u.fn f).intMap k = v &&& 0xFFFF013F := by simp [u]
  refine ⟨u, ?_, stored, State.hostRead_bar0 u f _ ?_ (by omega) ?_⟩
  · rw [registerWrite_bar0 s f _ v hr (by omega), State.bar0Write]
    iterate 7 rw [if_neg (by omega)]
    rw [if_pos (by omega), hoff, State.intMapWrite, if_pos hk]
  · exact (State.reach_updFn s f _).trans hr
  · rw [State.bar0Read]
    iterate 2 rw [if_neg (by omega)]
    rw [if_pos (by omega), hoff, stored]

theorem ringRegs_read (s : State) (f : HostFn) (r : Nat) (hr : s.reach f = true) (h3 : r < 3) :
    s.hostRead f 0 (0x1000 + 0x20 * r) 8 = (s, some ((s.fn f).ringBase r))
      ∧ s.hostRead f 0 (0x1008 + 0x20 * r) 8 = (s, some (if r = 2 then 1024 else 256)) := by
  refine ⟨State.hostRead_bar0 s f _ hr (by omega) ?_, State.hostRead_bar0 s f _ hr (by omega) ?_⟩
  · match r, h3 with
    | 0, _ => rfl
    | 1, _ => rfl
    | 2, _ => rfl
  · match r, h3 with
    | 0, _ => rfl
    | 1, _ => rfl
    | 2, _ => rfl

/-- Settles O43: each clause is a lemma about its command or register. Events and interrupts leave the registers that hosts
write, a punt ring's flush the bases, and a host's frame on its way in the host interface. -/
theorem hostRegisters : Obligations.HostRegisters := by
  unfold Obligations.HostRegisters
  refine ⟨fun s f hf => ⟨fun down => functionReset_effect s f down hf, hostLinkUp_effect s f hf,
    intModExpiry_effect s f⟩, fun s f hr => ?_⟩
  have reads (off : Nat) {w : W64} (ho : off % 8 = 0) (h : s.bar0Read f off = some (s, w)) :
      s.hostRead f 0 off 8 = (s, some w) := State.hostRead_bar0 s f off hr ho h
  exact ⟨fun v => cmdDoorbell_effect s f v hr, fun v => rspHeadWrite_effect s f v hr,
    fun v => eseqAckWrite_effect s f v hr, fun v => eseqAckWrite_beyond s f v hr,
    fun r v => dciRingEnable_effect s f r v hr, fun r => dciRingDisable_effect s f r hr,
    fun g => leaseHeartbeatWrite_effect s f g hr, fun g n => leaseHeartbeatWrite_frozen s f g n hr,
    fun tx r v => puntRingEnable_effect s f tx r v hr, fun tx r => puntRingDisable_effect s f tx r hr,
    fun r v h64 => ⟨puntRxPost_effect s f r v hr h64, puntTxDoorbell_effect s f r v hr h64⟩,
    fun r c rest bufs => puntRxDeliver_effect s f r c rest bufs hr,
    fun r len mode ts q frame => puntTxFetch_effect s f r len mode ts q frame hr,
    fun r len ts q frame v h hs g => puntTxFetch_arrival s f r len ts q frame v h hs g hr,
    fun bar off size v => registerWrite_discarded s f bar off size v hr,
    fun k v => intMap_readback s f k v hr,
    fun bar off size => State.hostRead_ones s f bar off size hr,
    reads 0x00 rfl rfl, reads 0x08 rfl rfl, reads 0x10 rfl rfl, reads 0x18 rfl rfl, reads 0x20 rfl rfl, reads 0x28 rfl rfl,
    fun r => ringRegs_read s f r hr, reads 0x1010 rfl rfl, reads 0x1060 rfl rfl, reads 0x103000 rfl rfl,
    reads 0x107000 rfl rfl⟩

end Sys2Proof.Machine
end

section
/-!
PROOFS. Rules of the operations that frames, walks and commits share: a part of the state read after a change of another
part, the basin's buffers and requests (R151, R166, R169), wakes of sleeping parts (R532, R533), refusals of new frames (R26)
and acceptance (R21).
-/

namespace Sys2Proof.Machine

/-! ### A part read after a change of another -/

theorem State.pkt_of_order {s u : State} (h : u.order = s.order) (p : Nat) : u.pkt p = s.pkt p := by
  rw [State.pkt, h, State.pkt]

theorem State.rc_of_order {s u : State} (h : u.order = s.order) (p : Nat) : u.rc p = s.rc p := by
  rw [State.rc, h, State.rc]

theorem State.dom_of_order {s u : State} (h : u.order = s.order) (d : Nat) : u.dom d = s.dom d := by
  rw [State.dom, h, State.dom]

theorem State.port_of_net {s u : State} (h : u.net = s.net) (p : Nat) : u.port p = s.port p := by
  rw [State.port, h, State.port]

theorem State.well_of_net {s u : State} (h : u.net = s.net) (w : Nat) : u.well w = s.well w := by
  rw [State.well, h, State.well]

section
variable (s : State) (p q : Nat)

@[simp] theorem State.updPort_pkt (g : Port → Port) : (s.updPort p g).pkt q = s.pkt q := rfl
@[simp] theorem State.updPkt_port (g : Pkt → Pkt) : (s.updPkt p g).port q = s.port q := rfl
@[simp] theorem State.updPkt_rc (g : Pkt → Pkt) : (s.updPkt p g).rc q = s.rc q := rfl
@[simp] theorem State.updPkt_dom (g : Pkt → Pkt) : (s.updPkt p g).dom q = s.dom q := rfl
@[simp] theorem State.updPkt_well (g : Pkt → Pkt) : (s.updPkt p g).well q = s.well q := rfl
@[simp] theorem State.updRc_pkt (g : RunRec → RunRec) : (s.updRc p g).pkt q = s.pkt q := rfl
@[simp] theorem State.updDom_pkt (g : Dom → Dom) : (s.updDom p g).pkt q = s.pkt q := rfl
@[simp] theorem State.updCnt_pkt (g : OrderCnt → OrderCnt) : (s.updCnt g).pkt q = s.pkt q := rfl
@[simp] theorem State.updCnt_rc (g : OrderCnt → OrderCnt) : (s.updCnt g).rc q = s.rc q := rfl
@[simp] theorem State.updCnt_dom (g : OrderCnt → OrderCnt) : (s.updCnt g).dom q = s.dom q := rfl
@[simp] theorem State.intakeCnt_pkt (g : IntakeCnt → IntakeCnt) : (s.intakeCnt p g).pkt q = s.pkt q := rfl

end

/-- Counting leaves all of every port but its counters. -/
theorem State.intakeCnt_port (s : State) (p q : Nat) (g : IntakeCnt → IntakeCnt) :
    (s.intakeCnt p g).port q = { s.port q with intake := ((s.intakeCnt p g).port q).intake } := by
  by_cases h : q = p
  · subst h
    simp [State.intakeCnt]
  · rw [State.intakeCnt, State.updPort_port_ne _ _ h]

/-! ### Buffers, cells and their charges (R151, R155, R166, R169) -/

theorem SMap.find?_ins_self {α : Type} (m : SMap α) (k : Nat) (v : α) (h : ∀ e ∈ m, e.1 ≠ k) :
    (SMap.ins m k v).find? (fun e => e.1 = k) = some (k, v) := by
  induction m with
  | nil => simp [SMap.ins]
  | cons e rest ih =>
    have he : e.1 ≠ k := h e (by simp)
    have ih := ih fun x hx => h x (List.mem_cons_of_mem _ hx)
    by_cases hk : k < e.1
    · simp [SMap.ins, hk]
    · simp [SMap.ins, hk, he, ih]

@[simp] theorem State.buf_setBuf_self (s : State) (h : Nat) (b : Buf) : (s.setBuf h b).buf h = some b := by
  simp [State.buf, State.setBuf, SMap.find?_ins_self _ h b fun _ he => SMap.erase_ne s.basin.bufs h he]

theorem State.buf_updBuf_self {s : State} {h : Nat} {b : Buf} (hb : s.buf h = some b) (g : Buf → Buf) :
    (s.updBuf h g).buf h = some (g b) := by
  simp [State.updBuf, hb]

theorem State.BasinStep.net {s u : State} (h : s.BasinStep u) : u.net = s.net := by
  obtain ⟨b, e, o, rfl⟩ := h
  rfl

theorem State.BasinStep.time {s u : State} (h : s.BasinStep u) : u.time = s.time := by
  obtain ⟨b, e, o, rfl⟩ := h
  rfl

theorem State.storeBytes_basinStep (s : State) (p : Nat) : s.BasinStep (s.storeBytes p) := by
  unfold State.storeBytes
  dsimp only
  split
  · exact State.updBuf_basinStep _ _ _
  · exact .refl s

@[simp] theorem State.storeBytes_pkt (s : State) (p q : Nat) : (s.storeBytes p).pkt q = s.pkt q :=
  State.pkt_of_order (State.storeBytes_basinStep s p).order q

@[simp] theorem State.storeBytes_rc (s : State) (p q : Nat) : (s.storeBytes p).rc q = s.rc q :=
  State.rc_of_order (State.storeBytes_basinStep s p).order q

@[simp] theorem State.storeBytes_port (s : State) (p q : Nat) : (s.storeBytes p).port q = s.port q :=
  State.port_of_net (State.storeBytes_basinStep s p).net q

@[simp] theorem State.storeBytes_dt (s : State) (p : Nat) : (s.storeBytes p).dt = s.dt := by
  rw [State.dt, (State.storeBytes_basinStep s p).time, State.dt]

/-- Storing a frame's bytes keeps its chain of cells. -/
theorem State.storeBytes_buf {s : State} {p h : Nat} {b : Buf} (hh : (s.pkt p).head = some h) (hb : s.buf h = some b) :
    ∃ x, (s.storeBytes p).buf h = some x ∧ x.cells = b.cells := by
  unfold State.storeBytes
  simp only [hh]
  exact ⟨_, State.buf_updBuf_self hb _, rfl⟩

/-- So it holds as many cells as before. -/
theorem State.heldCells_storeBytes (s : State) (p : Nat) (k : Pkt) (hk : k.head = (s.pkt p).head) :
    (s.storeBytes p).heldCells k = s.heldCells k := by
  unfold State.heldCells
  rw [hk]
  cases hh : (s.pkt p).head with
  | none => rfl
  | some h =>
    cases hb : s.buf h with
    | none => simp [State.storeBytes, hh, State.updBuf, hb]
    | some b =>
      obtain ⟨x, hx, hc⟩ := State.storeBytes_buf hh hb
      simp [hx, hb, hc]

theorem State.fcAfter_basin (s : State) (ents : List Nat) : (s.fcAfter ents).basin = s.basin := by
  have one (port cls used : Nat) : (s.fcCheck1 port cls used).basin = s.basin := by
    unfold State.fcCheck1
    dsimp only
    split
    · split <;> rfl
    · split <;> rfl
  unfold State.fcAfter
  split
  · split
    · unfold State.fcCheck
      split
      · rfl
      · exact one ..
      · exact one ..
    · rfl
  · rfl

/-- A charge changes the entities and the count of shared cells, and no buffer and no request (R169). -/
theorem State.charge_basin (s : State) (ents : List Nat) (kind : Nat) :
    ∃ e n, (s.charge ents kind).basin = { s.basin with ents := e, sharedUsed := n } := by
  have fold : ∃ e, (ents.foldl (fun acc k => State.updEnt acc k (Ent.charge · kind)) s).basin
      = { s.basin with ents := e } :=
    List.foldlRecOn (motive := fun x : State => ∃ e, x.basin = { s.basin with ents := e }) ents _ ⟨_, rfl⟩
      fun x ⟨e, hx⟩ k _ => ⟨_, by simp only [State.updEnt, State.setEnt, hx]; rfl⟩
  obtain ⟨e, he⟩ := fold
  unfold State.charge
  dsimp only
  rw [State.fcAfter_basin]
  split
  · exact ⟨_, _, by simp only [he]; rfl⟩
  · exact ⟨e, _, he⟩

/-! ### Wakes change the cores, the clusters, the power state and HBM's controller alone (R532, R533) -/

/-- Only these four parts may differ. -/
def State.WakeStep (s u : State) : Prop :=
  ∃ c k p h, u = { s with cores := c, clusters := k, power := p, hbm := h }

namespace State.WakeStep

variable {s u v : State}

theorem refl (s : State) : s.WakeStep s := ⟨s.cores, s.clusters, s.power, s.hbm, rfl⟩

theorem trans (h : s.WakeStep u) (k : u.WakeStep v) : s.WakeStep v := by
  obtain ⟨_, _, _, _, rfl⟩ := h
  obtain ⟨c, k, p, h, rfl⟩ := k
  exact ⟨c, k, p, h, rfl⟩

theorem of_cores (s : State) (c : SMap CoreSt) : s.WakeStep { s with cores := c } := ⟨c, s.clusters, s.power, s.hbm, rfl⟩
theorem of_clusters (s : State) (k : SMap ClusterSt) : s.WakeStep { s with clusters := k } :=
  ⟨s.cores, k, s.power, s.hbm, rfl⟩
theorem of_power (s : State) (p : PowerSt) : s.WakeStep { s with power := p } := ⟨s.cores, s.clusters, p, s.hbm, rfl⟩
theorem of_hbm (s : State) (h : HbmSt) : s.WakeStep { s with hbm := h } := ⟨s.cores, s.clusters, s.power, h, rfl⟩

theorem foldl {α : Type} (g : State → α → State) (hg : ∀ x a, State.WakeStep x (g x a)) (l : List α) (s : State) :
    s.WakeStep (l.foldl g s) :=
  List.foldlRecOn l g (WakeStep.refl s) fun x hx a _ => hx.trans (hg x a)

theorem order (h : s.WakeStep u) : u.order = s.order := by
  obtain ⟨_, _, _, _, rfl⟩ := h
  rfl

theorem net (h : s.WakeStep u) : u.net = s.net := by
  obtain ⟨_, _, _, _, rfl⟩ := h
  rfl

theorem tr (h : s.WakeStep u) (t : Nat) : u.tr t = s.tr t := by
  obtain ⟨_, _, _, _, rfl⟩ := h
  rfl

theorem thr (h : s.WakeStep u) (t : Nat) : u.thr t = s.thr t := by
  obtain ⟨_, _, _, _, rfl⟩ := h
  rfl

end State.WakeStep

theorem State.ungate_wakeStep (s : State) (c : Nat) : s.WakeStep (s.ungate c) := by
  unfold State.ungate
  split
  · exact (State.WakeStep.of_cores s _).trans (.of_power _ _)
  · exact .of_cores s _

theorem State.wakeCluster_wakeStep (s : State) (c : Nat) : s.WakeStep (s.wakeCluster c) := by
  unfold State.wakeCluster
  dsimp only
  split
  · exact .refl s
  · split
    · exact ((State.WakeStep.of_clusters s _).trans (.of_power _ _)).trans (.foldl _ State.ungate_wakeStep _ _)
    · exact .of_clusters s _

theorem State.wakeStack_wakeStep (s : State) (k : Nat) : s.WakeStep (s.wakeStack k) := by
  unfold State.wakeStack
  split
  · exact ((State.WakeStep.of_hbm s _).trans (.of_power _ _)).trans (.of_hbm _ _)
  · exact .refl s

theorem State.applyT_wakeStep (s : State) : s.WakeStep s.applyT := by
  unfold State.applyT
  extract_lets k s1 s2
  have clusters : s.WakeStep s1 := .foldl _ (fun x c => by
    split
    · exact State.wakeCluster_wakeStep x c
    · exact .refl x) _ s
  have cores : s.WakeStep s2 := by
    refine clusters.trans ?_
    by_cases h : k = 0
    · simp only [s2, if_pos h]
      exact .foldl _ State.ungate_wakeStep _ s1
    · simp only [s2, if_neg h]
      exact .refl s1
  split
  · exact cores
  · exact (cores.trans (State.wakeStack_wakeStep s2 0)).trans (State.wakeStack_wakeStep _ 1)

theorem State.classFrame_wakeStep (s : State) (c : Nat) : s.WakeStep (s.classFrame c) := by
  unfold State.classFrame State.classActive
  split
  · exact .of_power s _
  · exact ((State.WakeStep.of_power s _).trans (.of_power _ _)).trans (State.applyT_wakeStep _)

/-! ### Acceptance (R21, R145) -/

theorem State.learnQueue_order (s : State) (k : Pkt) : (s.learnQueue k).order = s.order := by
  unfold State.learnQueue
  split
  · rfl
  · split
    · rfl
    · rfl

/-- A frame whose tail is good, with its cells and its sequence number, and without a late poison, is accepted (R21). -/
theorem State.tryAccept_pkt {s : State} {p : Nat} (ha : (s.pkt p).accepted = false) (hr : (s.pkt p).refusal = none)
    (ht : (s.pkt p).tailIn = true) (hs : (s.pkt p).hasSeq = true)
    (hc : cellsDue (s.pkt p).bytes.length true ≤ s.heldCells (s.pkt p)) (hl : (s.rc p).lateRun = false) :
    (s.tryAccept p).pkt p = { s.pkt p with accepted := true, acceptDt := s.dt } := by
  unfold State.tryAccept
  dsimp only
  rw [if_neg (by simp [ha, hr, ht, hs, hc]), if_neg (by simp [hl]),
    State.pkt_of_order ((State.learnQueue_order _ _).trans (State.classFrame_wakeStep _ _).order)]
  simp

end Sys2Proof.Machine
end

section
/-!
PROOFS. O30: how words enter the intake FIFO, are drained into frames, and how frames get cells and are accepted (R21, R112,
R114-R118, R122, R151, R166).
-/

namespace Sys2Proof.Machine

/-! ### A frame begins (R112, R116, R122) -/

/-- A refusal of a frame that has no cell and no sequence number yet is counted and marked (R26, R29). -/
theorem State.refuse_bare {s : State} {p : Nat} (code : Nat) (hr : (s.pkt p).refusal = none)
    (ha : (s.pkt p).accepted = false) (hh : (s.pkt p).head = none) (hs : (s.pkt p).hasSeq = false) :
    s.refuse p code = (s.countRefusal (s.pkt p).inPort code).updPkt p fun x => { x with refusal := some code } := by
  simp [State.refuse, hr, ha, hh, hs]

/-- The state in which a port's new frame has its number and its place in the order of arrival. -/
def State.arrived (s : State) (port : Nat) : State :=
  (s.newFrame port (wellOf port) none).1.updPort port fun x => { x with arriving := x.arriving ++ [s.order.nextPkt] }

theorem State.frameIn_eq (s : State) (port : Nat) (words : List IWord) (ended : Bool) :
    s.frameIn port words ended
      = ((s.arrived port).startFrame port s.order.nextPkt).macWrite port s.order.nextPkt words ended := rfl

@[simp] theorem State.arrived_port (s : State) (port : Nat) :
    (s.arrived port).port port = { s.port port with arriving := (s.port port).arriving ++ [s.order.nextPkt] } :=
  State.updPort_port ..

@[simp] theorem State.arrived_pkt (s : State) (port : Nat) :
    (s.arrived port).pkt s.order.nextPkt
      = { port := port, well := wellOf port, inPort := port, sofDt := s.dt, qns := s.qns, host := none } :=
  State.setPkt_pkt ..

/-- An arrival does not sluice its port. -/
@[simp] theorem State.arrived_sluiced (s : State) (port : Nat) : (s.arrived port).sluiced port = s.sluiced port := by
  simp only [State.sluiced, State.arrived_port]
  rfl

@[simp] theorem State.macWrite_port (s : State) (port p : Nat) (words : List IWord) (ended : Bool) :
    (s.macWrite port p words ended).port port = { s.port port with fill := (s.port port).fill ++ words } := by
  simp [State.macWrite]

@[simp] theorem State.macWrite_pkt (s : State) (port p : Nat) (words : List IWord) (ended : Bool) :
    (s.macWrite port p words ended).pkt p
      = { s.pkt p with wIn := (s.pkt p).wIn + words.length, ended := (s.pkt p).ended || ended } := by
  simp [State.macWrite]

theorem frameSof_effect (s : State) (port : Nat) (w : IWord) (rest : List IWord) (ended : Bool)
    (hr : s.receives port = true) (hp : s.inProgress port = none) (hc : State.consumed (w :: rest) = false) :
    ∃ u, exec (.frameSof port ⟨w :: rest, ended⟩) s = .next u
      ∧ u.order.nextPkt = s.order.nextPkt + 1 ∧ (u.port port).arriving = (s.port port).arriving ++ [s.order.nextPkt]
      ∧ (u.port port).fill = (s.port port).fill ++ w :: rest ∧ (u.pkt s.order.nextPkt).sofDt = s.dt
      ∧ (u.pkt s.order.nextPkt).wIn = rest.length + 1
      ∧ (s.sluiced port = false → (u.pkt s.order.nextPkt).refusal = none
        ∧ (u.port port).parseQ = (s.port port).parseQ ++ [s.order.nextPkt])
      ∧ (s.sluiced port = true → (u.pkt s.order.nextPkt).refusal = some 5) := by
  refine ⟨s.frameIn port (w :: rest) ended, ?_, ?_⟩
  · show execFrameSof port ⟨w :: rest, ended⟩ s = _
    simp [execFrameSof, hr, hp, hc, done]
  · rw [State.frameIn_eq]
    cases hs : s.sluiced port with
    | false =>
      have started : (s.arrived port).startFrame port s.order.nextPkt
          = (s.arrived port).updPort port fun x => { x with parseQ := x.parseQ ++ [s.order.nextPkt] } := by
        simp [State.startFrame, hs]
      rw [started]
      exact ⟨rfl, by simp⟩
    | true =>
      have refused : (s.arrived port).startFrame port s.order.nextPkt = ((s.arrived port).countRefusal port 5).updPkt
          s.order.nextPkt fun x => { x with refusal := some 5 } := by
        rw [State.startFrame, if_pos (by simp [hs]), State.refuse_bare 5] <;> simp
      rw [refused]
      exact ⟨rfl, by simp [State.countRefusal]⟩

/-! ### The FIFO's halves (R112) -/

theorem fifoBankSwap_effect (s : State) (port : Nat) (hf : (s.port port).fill ≠ []) (hd : (s.port port).drain = []) :
    ∃ u, exec (.fifoBankSwap port) s = .next u ∧ (u.port port).drain = (s.port port).fill ∧ (u.port port).fill = [] := by
  refine ⟨s.updPort port fun x => { x with drain := x.fill, fill := [] }, ?_, by simp, by simp⟩
  show execFifoBankSwap port s = _
  simp [execFifoBankSwap, State.swap, hf, hd, done]

/-! ### The drain (R114-R118) -/

@[simp] theorem wordData_length (w : IWord) : (wordData w).length = 8 := by simp [wordData, leBytes]

/-- A word that is not the last of its frame holds eight of its bytes. -/
@[simp] theorem wordBytes_inside (w : IWord) : wordBytes w false = wordData w := by simp [wordBytes]

/-- The state in which the drain has read a word and its bytes have joined the frame (R114, R170). -/
def State.wordJoined (s : State) (port p : Nat) (w : IWord) (last : Bool) : State :=
  (s.updPkt p fun x => { x with wOut := x.wOut + 1 }).updPkt p fun x => { x with
    bytes := (s.pkt p).bytes ++ wordBytes w last, rxerr := x.rxerr || wordRxerr w
    quotaClass := if (s.pkt p).asked = 0 then (s.port port).cfg.classOf ((s.pkt p).bytes ++ wordBytes w last)
      else x.quotaClass }

theorem State.wordJoined_pkt (s : State) (port p : Nat) (w : IWord) (last : Bool) : ∃ q, (s.wordJoined port p w last).pkt p
    = { s.pkt p with
        wOut := (s.pkt p).wOut + 1, bytes := (s.pkt p).bytes ++ wordBytes w last
        rxerr := (s.pkt p).rxerr || wordRxerr w, quotaClass := q } := by
  rw [State.wordJoined, State.updPkt_pkt, State.updPkt_pkt]
  exact ⟨_, rfl⟩

@[simp] theorem State.wordJoined_port (s : State) (port p q : Nat) (w : IWord) (last : Bool) :
    (s.wordJoined port p w last).port q = s.port q := rfl

/-- What a sound word inside a frame does that calls for no further cell: its bytes join the frame, and the frame's buffer is
written (R114, R116, R151). -/
theorem State.drainWord_inside {s : State} {port p : Nat} {fs : List Nat} {w : IWord} (ha : (s.port port).arriving = p :: fs)
    (he : (s.pkt p).ended = false) (h0 : (s.pkt p).wOut ≠ 0) (hr : (s.pkt p).refusal = none) (hp : wordParity w = true)
    (hs : wordSof w = false) (hw : wordEof w = false)
    (hm : (s.pkt p).bytes.length + 8 ≤ (s.port port).cfg.maxFrame)
    (hc : cellsDue ((s.pkt p).bytes.length + 8) false = (s.pkt p).asked) :
    s.drainWord port w = (s.wordJoined port p w false).storeBytes p := by
  unfold State.drainWord State.wordJoined
  simp [ha, he, h0, hr, hp, hs, hw, hc, Nat.not_lt.2 hm, State.requestCells]

theorem drainRead_effect (s : State) (port : Nat) (w : IWord) (rest : List IWord) (p : Nat) (fs : List Nat)
    (hd : (s.port port).drain = w :: rest) (ha : (s.port port).arriving = p :: fs)
    (he : (s.pkt p).ended = false) (h0 : (s.pkt p).wOut ≠ 0) (hr : (s.pkt p).refusal = none) (hp : wordParity w = true)
    (hs : wordSof w = false) (hw : wordEof w = false)
    (hm : (s.pkt p).bytes.length + 8 ≤ (s.port port).cfg.maxFrame)
    (hc : cellsDue ((s.pkt p).bytes.length + 8) false = (s.pkt p).asked) :
    ∃ u, exec (.drainRead port 1) s = .next u
      ∧ (u.pkt p).bytes = (s.pkt p).bytes ++ wordData w ∧ (u.pkt p).wOut = (s.pkt p).wOut + 1
      ∧ (u.port port).drain = rest ∧ (u.port port).arriving = p :: fs
      ∧ ∀ n, exec (.drainRead port (n + 1)) s = exec (.drainRead port n) u := by
  let v := s.updPort port fun x => { x with drain := rest }
  have hv : v.port port = { s.port port with drain := rest } := State.updPort_port ..
  have step (n : Nat) : s.drain port (n + 1) = (v.drainWord port w).drain port n := by
    rw [State.drain, hd]
  have word := State.drainWord_inside (s := v) (port := port) (by rw [hv]; exact ha) he h0 hr hp hs hw
    (by rw [hv]; exact hm) hc
  obtain ⟨q, joined⟩ := v.wordJoined_pkt port p w false
  refine ⟨v.drainWord port w, congrArg done (step 0), ?_, ?_, ?_, ?_, fun n => congrArg done (step n)⟩
  · rw [word, State.storeBytes_pkt, joined, wordBytes_inside]
    rfl
  · rw [word, State.storeBytes_pkt, joined]
    rfl
  · rw [word, State.storeBytes_port, State.wordJoined_port, hv]
  · rw [word, State.storeBytes_port, State.wordJoined_port, hv]
    exact ha

/-! ### Cell grants (R166, R168, R169) -/

@[simp] theorem State.setReqs_reqs (s : State) (b : Nat) (l : List CellReq) :
    SMap.get [] (s.setReqs b l).basin.reqs b = l := SMap.get_set_self ..

/-- Every well is in a bank's order of requesters, wherever the bank's pointer stands (R166). -/
theorem bankOrder_find (b ptr w : Nat) (hw : w < 8) :
    ((bankOrder b).drop ptr ++ (bankOrder b).take ptr).find? (fun x => decide (w = x)) = some w := by
  have inOrder : w ∈ bankOrder b := by
    by_cases h : w = b / 2
    · simp [bankOrder, h]
    · simp [bankOrder, h, hw]
  have inTurn : w ∈ (bankOrder b).drop ptr ++ (bankOrder b).take ptr := by
    rw [List.mem_append, or_comm, ← List.mem_append, List.take_append_drop]
    exact inOrder
  cases h : ((bankOrder b).drop ptr ++ (bankOrder b).take ptr).find? (fun x => decide (w = x)) with
  | none => exact absurd (decide_eq_true rfl) (List.find?_eq_none.1 h w inTurn)
  | some x =>
    have hx : w = x := by simpa using List.find?_some h
    rw [hx]

/-- The state in which a cell granted to the one request of a bank is taken and charged. -/
def State.cellTaken (s : State) (b c : Nat) (ents : List Nat) (kind next : Nat) : State :=
  let s0 := s.setReqs b []
  let s1 : State := { s0 with basin := { s0.basin with bankPtr := SMap.set 0 s0.basin.bankPtr b next } }
  (s1.takeCell c).charge ents kind

theorem State.cellTaken_order (s : State) (b c : Nat) (ents : List Nat) (kind next : Nat) :
    (s.cellTaken b c ents kind next).order = s.order :=
  (State.charge_basinStep _ ents kind).order

theorem State.cellTaken_reqs (s : State) (b c : Nat) (ents : List Nat) (kind next : Nat) :
    SMap.get [] (s.cellTaken b c ents kind next).basin.reqs b = [] := by
  obtain ⟨e, n, h⟩ := State.charge_basin _ ents kind
  rw [State.cellTaken, h]
  exact State.setReqs_reqs s b []

theorem State.cellTaken_buf (s : State) (b c : Nat) (ents : List Nat) (kind next h : Nat) :
    (s.cellTaken b c ents kind next).buf h = s.buf h := by
  obtain ⟨e, n, hb⟩ := State.charge_basin _ ents kind
  rw [State.buf, State.cellTaken, hb]
  rfl

/-- What is left to do when a bank without requests has granted a cell. -/
theorem State.failReqs_idle {s : State} {b : Nat} (h : SMap.get [] s.basin.reqs b = []) :
    s.failReqs b = s ∨ s.failReqs b = s.setReqs b [] := by
  unfold State.failReqs
  split
  · exact .inl rfl
  · exact .inr (by simp [State.bankReqs, h, State.failThese])

theorem State.updBuf_reqs (s : State) (h : Nat) (g : Buf → Buf) : (s.updBuf h g).basin.reqs = s.basin.reqs := by
  unfold State.updBuf
  split
  · rfl
  · rfl

/-- A frame's first cell makes its buffer (R151, R155). -/
theorem State.addCell_first {s : State} {p : Nat} (c : Nat) (ents : List Nat) (h : (s.pkt p).head = none) :
    (s.addCell p c ents).pkt p = { s.pkt p with head := some c }
      ∧ (s.addCell p c ents).buf c = some (Buf.fresh 1 (s.pkt p).well [c] [] ents)
      ∧ (s.addCell p c ents).basin.reqs = s.basin.reqs := by
  have joined : s.addCell p c ents = (s.setBuf c (Buf.fresh 1 (s.pkt p).well [c] [] ents)).updPkt p fun x => { x with
      head := some c } := by
    simp [State.addCell, h]
  rw [joined]
  exact ⟨State.updPkt_pkt .., State.buf_setBuf_self .., rfl⟩

/-- A further cell lengthens its chain (R151). -/
theorem State.addCell_next {s : State} {p h : Nat} {y : Buf} (c : Nat) (ents : List Nat) (hh : (s.pkt p).head = some h)
    (hy : s.buf h = some y) : (s.addCell p c ents).pkt p = s.pkt p
      ∧ (s.addCell p c ents).buf h = some { y with cells := y.cells ++ [c] }
      ∧ (s.addCell p c ents).basin.reqs = s.basin.reqs := by
  have joined : s.addCell p c ents = s.updBuf h fun z => { z with cells := z.cells ++ [c] } := by
    simp [State.addCell, hh]
  rw [joined]
  exact ⟨State.pkt_of_order (State.updBuf_basinStep s h _).order p, State.buf_updBuf_self hy _, State.updBuf_reqs ..⟩

theorem State.tryAccept_unparsed {s : State} {p : Nat} (h : (s.pkt p).hasSeq = false) : s.tryAccept p = s := by
  simp [State.tryAccept, h]

/-- The one request that waits at a bank gets its lowest free cell, when the quotas allow it (R165, R166, R171). -/
theorem execCellGrant_sole {s : State} {b w p c kind : Nat} (hw : w < 8) (hl : s.basin.lostReqs = [])
    (hq : SMap.get [] s.basin.reqs b = [⟨w, p⟩]) (hr : (s.pkt p).refusal = none) (hf : s.freeCell b = some c)
    (ha : s.allows (s.frameEnts (s.pkt p)) = .ok kind) :
    ∃ next, exec (.cellGrant b) s = .next ((((s.cellTaken b c (s.frameEnts (s.pkt p)) kind next).addCell p c
      (s.frameEnts (s.pkt p))).storeBytes p).tryAccept p |>.failReqs b) := by
  have reqs : s.bankReqs b = [⟨w, p⟩] := by simp [State.bankReqs, hq, hr]
  refine ⟨((bankOrder b).idxOf w + 1) % 11, ?_⟩
  show execCellGrant b s = _
  unfold execCellGrant
  simp [hl, reqs, bankOrder_find b _ w hw, hf, ha, done, State.cellTaken]

theorem State.storeBytes_reqs (s : State) (p : Nat) : (s.storeBytes p).basin.reqs = s.basin.reqs := by
  unfold State.storeBytes
  dsimp only
  split
  · exact State.updBuf_reqs ..
  · rfl

/-- The rest of a grant leaves the chain that the cell has joined: its bytes are written, and a frame without a sequence
number waits on (R21, R151). -/
theorem State.grantRest {v : State} {b p h : Nat} {z : Buf} (hs : (v.pkt p).hasSeq = false)
    (hh : (v.pkt p).head = some h) (hz : v.buf h = some z) (hq : SMap.get [] v.basin.reqs b = []) :
    ∃ x, ((((v.storeBytes p).tryAccept p).failReqs b).pkt p).head = some h
      ∧ (((v.storeBytes p).tryAccept p).failReqs b).buf h = some x ∧ x.cells = z.cells
      ∧ SMap.get [] (((v.storeBytes p).tryAccept p).failReqs b).basin.reqs b = [] := by
  obtain ⟨x, hx, hc⟩ := State.storeBytes_buf hh hz
  have stored : ((v.storeBytes p).pkt p).head = some h := by simpa using hh
  have idle : SMap.get [] (v.storeBytes p).basin.reqs b = [] := by rw [State.storeBytes_reqs, hq]
  rw [State.tryAccept_unparsed (by simpa using hs)]
  rcases State.failReqs_idle idle with e | e
  · rw [e]
    exact ⟨x, stored, hx, hc, idle⟩
  · rw [e]
    exact ⟨x, stored, hx, hc, State.setReqs_reqs ..⟩

theorem cellGrant_effect (s : State) (b w p c kind : Nat) (hw : w < 8) (hl : s.basin.lostReqs = [])
    (hq : SMap.get [] s.basin.reqs b = [⟨w, p⟩]) (hr : (s.pkt p).refusal = none) (hs : (s.pkt p).hasSeq = false)
    (hf : s.freeCell b = some c) (ha : s.allows (s.frameEnts (s.pkt p)) = .ok kind) :
    ((s.pkt p).head = none → ∃ u x, exec (.cellGrant b) s = .next u ∧ (u.pkt p).head = some c ∧ u.buf c = some x
      ∧ x.cells = [c] ∧ SMap.get [] u.basin.reqs b = [])
    ∧ (∀ h y, (s.pkt p).head = some h → s.buf h = some y → ∃ u x, exec (.cellGrant b) s = .next u
      ∧ (u.pkt p).head = some h ∧ u.buf h = some x ∧ x.cells = y.cells ++ [c] ∧ SMap.get [] u.basin.reqs b = []) := by
  obtain ⟨next, run⟩ := execCellGrant_sole hw hl hq hr hf ha
  have order := State.cellTaken_order s b c (s.frameEnts (s.pkt p)) kind next
  have reqs := State.cellTaken_reqs s b c (s.frameEnts (s.pkt p)) kind next
  have bufs := State.cellTaken_buf s b c (s.frameEnts (s.pkt p)) kind next
  generalize s.cellTaken b c (s.frameEnts (s.pkt p)) kind next = v at run order reqs bufs
  have pkt : v.pkt p = s.pkt p := State.pkt_of_order order p
  refine ⟨fun hh => ?_, fun h y hh hy => ?_⟩
  · obtain ⟨hp, hb, hreqs⟩ := State.addCell_first (s := v) c (s.frameEnts (s.pkt p)) (by rw [pkt, hh])
    obtain ⟨x, rest⟩ := State.grantRest (b := b) (by rw [hp, pkt]; exact hs) (by rw [hp]) hb (by rw [hreqs, reqs])
    exact ⟨_, x, run, rest⟩
  · obtain ⟨hp, hb, hreqs⟩ := State.addCell_next (s := v) c (s.frameEnts (s.pkt p)) (by rw [pkt, hh]) ((bufs h).trans hy)
    obtain ⟨x, rest⟩ := State.grantRest (b := b) (by rw [hp, pkt, hs]) (by rw [hp, pkt, hh]) hb (by rw [hreqs, reqs])
    exact ⟨_, x, run, rest⟩

/-! ### The end of a frame (R21, R117, R151) -/

theorem tailVerdict_none {k : Pkt} (hn : 64 ≤ k.bytes.length) (hr : k.rxerr = false) (hc : k.cut = false)
    (hf : k.bytes.drop (k.bytes.length - 4) = fcs (k.bytes.take (k.bytes.length - 4))) : tailVerdict k = none := by
  simp [tailVerdict, Nat.not_lt.2 hn, hr, hc, hf]

/-- A good tail is noted, and the frame is accepted when its cells and its sequence number are there (R21). -/
theorem State.tailCheck_pkt {s : State} {p : Nat} (hv : tailVerdict (s.pkt p) = none) (ha : (s.pkt p).accepted = false)
    (hr : (s.pkt p).refusal = none) (hs : (s.pkt p).hasSeq = true)
    (hc : cellsDue (s.pkt p).bytes.length true ≤ s.heldCells (s.pkt p)) (hl : (s.rc p).lateRun = false) :
    (s.tailCheck p).pkt p = { s.pkt p with tailIn := true, accepted := true, acceptDt := s.dt } := by
  have noted : ((s.updPkt p fun x => { x with tailIn := true }).storeBytes p).pkt p = { s.pkt p with tailIn := true } := by
    simp
  have time : ((s.updPkt p fun x => { x with tailIn := true }).storeBytes p).dt = s.dt :=
    State.storeBytes_dt _ p
  have cells : ((s.updPkt p fun x => { x with tailIn := true }).storeBytes p).heldCells { s.pkt p with tailIn := true }
      = s.heldCells (s.pkt p) := State.heldCells_storeBytes _ p _ (by simp)
  unfold State.tailCheck
  rw [hv]
  dsimp only
  rw [State.tryAccept_pkt, noted, time]
  · rw [noted, ha]
  · rw [noted, hr]
  · rw [noted]
  · rw [noted, hs]
  · rw [noted, cells]
    exact hc
  · simpa using hl

/-- What the last word of a good frame does that calls for no further cell: its bytes join the frame, which is checked and
leaves the port's order of arrival (R114, R116, R117). -/
theorem State.drainWord_last {s : State} {port p : Nat} {w : IWord} (ha : (s.port port).arriving = [p])
    (he : (s.pkt p).ended = true) (hi : (s.pkt p).wIn = (s.pkt p).wOut + 1) (h0 : (s.pkt p).wOut ≠ 0)
    (hr : (s.pkt p).refusal = none) (hc : (s.pkt p).cut = false)
    (hp : wordParity w = true) (hs : wordSof w = false) (hw : wordEof w = true)
    (hm : ((s.pkt p).bytes ++ wordBytes w true).length ≤ (s.port port).cfg.maxFrame)
    (hq : cellsDue ((s.pkt p).bytes ++ wordBytes w true).length true - (s.pkt p).asked = 0)
    (hv : tailVerdict ((s.wordJoined port p w true).pkt p) = none) :
    s.drainWord port w
      = (((s.wordJoined port p w true).storeBytes p).tailCheck p).updPort port fun x => { x with arriving := [] } := by
  unfold State.wordJoined at hv ⊢
  unfold State.drainWord
  simp [-State.updPkt_pkt, -List.length_append, ha, he, hi, h0, hr, hc, hp, hs, hw, Nat.not_lt.2 hm, hq, State.requestCells, hv]

/-- The drain takes the one word that has come in. -/
theorem State.drainAll_word {s : State} {port : Nat} {w : IWord} (hd : (s.port port).drain = [])
    (hf : (s.port port).fill = [w]) :
    s.drainAll port = ((s.swap port).updPort port fun x => { x with drain := [] }).drainWord port w := by
  have swapped : ((s.swap port).port port).drain = [w] := by simp [State.swap, hd, hf]
  simp [State.drainAll, State.drain, hd, swapped]

@[simp] theorem State.swap_pkt (s : State) (port p : Nat) : (s.swap port).pkt p = s.pkt p := by
  unfold State.swap
  split
  · rfl
  · rfl

theorem State.swap_port {s : State} {port : Nat} (h : (s.port port).drain = []) :
    (s.swap port).port port = { s.port port with drain := (s.port port).fill, fill := [] } := by
  simp [State.swap, h]

/-- How many cells a packet holds is said by its head and the buffers. -/
theorem State.heldCells_congr {s u : State} {k j : Pkt} (hb : u.buf = s.buf) (hk : k.head = j.head) :
    u.heldCells k = s.heldCells j := by
  rw [State.heldCells, hk, hb, State.heldCells]

theorem State.fecCount_port (s : State) (port : Nat) (fec : List Nat) :
    ∃ m, (s.fecCount port fec).port port = { s.port port with mac := m } := by
  unfold State.fecCount
  dsimp only
  split
  · exact ⟨_, rfl⟩
  · exact ⟨_, State.updPort_port ..⟩

theorem State.fecCount_frame (s : State) (port : Nat) (fec : List Nat) :
    ∃ n, s.fecCount port fec = { s with net := n } := by
  unfold State.fecCount
  dsimp only
  split
  · exact ⟨_, rfl⟩
  · exact ⟨_, rfl⟩

/-- The state in which a frame's last word has come in and the drain, which had caught up, has taken it. -/
def State.tailTaken (s : State) (port p : Nat) (w : IWord) (fec : List Nat) : State :=
  ((((s.fecCount port fec).updPkt p fun x => { x with rxerr := x.rxerr || s.fecBad port fec }).macWrite port p [w]
    true).swap port).updPort port fun x => { x with drain := [] }

theorem State.tailTaken_pkt (s : State) (port p : Nat) (w : IWord) (fec : List Nat) :
    (s.tailTaken port p w fec).pkt p = { s.pkt p with
      rxerr := (s.pkt p).rxerr || s.fecBad port fec, wIn := (s.pkt p).wIn + 1, ended := true } := by
  obtain ⟨n, h⟩ := s.fecCount_frame port fec
  have counted : (s.fecCount port fec).pkt p = s.pkt p := by rw [h]; rfl
  simp [State.tailTaken, counted]

theorem State.tailTaken_port {s : State} {port : Nat} (p : Nat) (w : IWord) (fec : List Nat)
    (hd : (s.port port).drain = []) : ∃ m l, (s.tailTaken port p w fec).port port
      = { s.port port with mac := m, fill := [], drain := l } := by
  obtain ⟨m, h⟩ := s.fecCount_port port fec
  refine ⟨m, [], ?_⟩
  rw [State.tailTaken, State.updPort_port, State.swap_port (by simp [h, hd])]
  simp [h]

/-- Only packets and ports have changed then. -/
theorem State.tailTaken_frame (s : State) (port p : Nat) (w : IWord) (fec : List Nat) :
    ∃ n k, s.tailTaken port p w fec = { s with net := n, order := { s.order with pkts := k } } := by
  obtain ⟨n, h⟩ := s.fecCount_frame port fec
  unfold State.tailTaken State.swap
  rw [h]
  split
  · exact ⟨_, _, rfl⟩
  · exact ⟨_, _, rfl⟩

theorem execFrameTail_word {s : State} {port p : Nat} {w : IWord} {fec : List Nat} (hp : s.inProgress port = some p)
    (hf : (s.port port).fill = []) (hd : (s.port port).drain = []) :
    exec (.frameTail port [w] fec) s = .next ((s.tailTaken port p w fec).drainWord port w) := by
  obtain ⟨m, h⟩ := s.fecCount_port port fec
  show execFrameTail port [w] fec s = _
  unfold execFrameTail
  simp only [hp]
  rw [State.drainAll_word (w := w) (by simp [h, hd]) (by simp [h, hf])]
  rfl

theorem frameTail_effect (s : State) (port : Nat) (w : IWord) (fec : List Nat) (p : Nat) (bytes : List Byte)
    (hp : s.inProgress port = some p) (ha : (s.port port).arriving = [p]) (hf : (s.port port).fill = [])
    (hd : (s.port port).drain = []) (hi : (s.pkt p).wIn = (s.pkt p).wOut) (h0 : (s.pkt p).wOut ≠ 0)
    (hr : (s.pkt p).refusal = none) (hacc : (s.pkt p).accepted = false) (hx : (s.pkt p).rxerr = false)
    (hc : (s.pkt p).cut = false) (hs : (s.pkt p).hasSeq = true) (hl : (s.rc p).lateRun = false)
    (hfec : s.fecBad port fec = false) (hsof : wordSof w = false) (heof : wordEof w = true) (hpar : wordParity w = true)
    (hrx : wordRxerr w = false) (hb : bytes = (s.pkt p).bytes ++ wordBytes w true) (hn : 64 ≤ bytes.length)
    (hm : bytes.length ≤ (s.port port).cfg.maxFrame)
    (hfcs : bytes.drop (bytes.length - 4) = fcs (bytes.take (bytes.length - 4)))
    (hq : (s.pkt p).asked = (bytes.length + 255) / 256) (hcells : s.heldCells (s.pkt p) = (bytes.length + 255) / 256) :
    ∃ u, exec (.frameTail port [w] fec) s = .next u ∧ (u.pkt p).accepted = true ∧ (u.pkt p).acceptDt = s.dt
      ∧ (u.pkt p).bytes = bytes ∧ (u.port port).arriving = [] := by
  have taken := s.tailTaken_pkt port p w fec
  obtain ⟨m, l, port'⟩ := State.tailTaken_port p w fec hd
  obtain ⟨n, k, frame⟩ := s.tailTaken_frame port p w fec
  have run := execFrameTail_word (w := w) (fec := fec) hp hf hd
  have held : (s.tailTaken port p w fec).buf = s.buf := by rw [frame]; rfl
  have late : (s.tailTaken port p w fec).rc p = s.rc p := by rw [frame]; rfl
  have time : (s.tailTaken port p w fec).dt = s.dt := by rw [frame]; rfl
  generalize s.tailTaken port p w fec = x at taken port' run held late time
  obtain ⟨q, joined⟩ := x.wordJoined_pkt port p w true
  have good : (x.wordJoined port p w true).pkt p = { s.pkt p with
      wIn := (s.pkt p).wIn + 1, ended := true, wOut := (s.pkt p).wOut + 1, bytes := bytes, quotaClass := q } := by
    rw [joined, taken, hb]
    simp [hx, hfec, hrx]
  have verdict : tailVerdict ((x.wordJoined port p w true).pkt p) = none := by
    rw [good]
    exact tailVerdict_none hn hx hc hfcs
  have word : x.drainWord port w
      = (((x.wordJoined port p w true).storeBytes p).tailCheck p).updPort port fun y => { y with arriving := [] } :=
    State.drainWord_last (by rw [port', ha]) (by rw [taken]) (by rw [taken, hi]) (by rw [taken]; exact h0)
      (by rw [taken]; exact hr) (by rw [taken]; exact hc) hpar hsof heof (by rw [taken, port', ← hb]; exact hm)
      (by rw [taken, ← hb, hq]; exact Nat.sub_self _) verdict
  have cells : ((x.wordJoined port p w true).storeBytes p).heldCells ((x.wordJoined port p w true).pkt p)
      = (bytes.length + 255) / 256 := by
    rw [State.heldCells_storeBytes _ p _ rfl, good, ← hcells]
    exact State.heldCells_congr held rfl
  have accepted : (((x.wordJoined port p w true).storeBytes p).tailCheck p).pkt p
      = { (x.wordJoined port p w true).pkt p with tailIn := true, accepted := true, acceptDt := s.dt } := by
    have stored := (x.wordJoined port p w true).storeBytes_pkt p p
    have now : ((x.wordJoined port p w true).storeBytes p).dt = s.dt :=
      (State.storeBytes_dt _ p).trans time
    rw [State.tailCheck_pkt (by rw [stored, verdict]) (by rw [stored, good]; exact hacc) (by rw [stored, good]; exact hr)
      (by rw [stored, good]; exact hs) (by rw [stored, cells, good]; exact le_refl _)
      (by rw [State.storeBytes_rc]; exact (congrArg RunRec.lateRun late).trans hl), stored, now]
  refine ⟨_, run, ?_, ?_, ?_, ?_⟩
  · rw [word, State.updPort_pkt, accepted]
  · rw [word, State.updPort_pkt, accepted]
  · rw [word, State.updPort_pkt, accepted, good]
  · rw [word, State.updPort_port]

/-- Settles O30: each clause is a lemma about its command. -/
theorem framesComeIn : Obligations.FramesComeIn := by
  unfold Obligations.FramesComeIn
  exact ⟨frameSof_effect, fifoBankSwap_effect, drainRead_effect,
    fun s b w p c kind _ hw hl hq hr hs hf ha => cellGrant_effect s b w p c kind hw hl hq hr hs hf ha, frameTail_effect⟩

end Sys2Proof.Machine
end

section
/-!
PROOFS. O31: walks and the order in which they complete (R22, R120, R129), graph switches (R133), fragment timeouts (R140,
R142), QUIESCE_N (R124), the end of a parser reset (R146) and data on a port that is not UP (R97, R108).
-/

namespace Sys2Proof.Machine

/-! ### Graph switches (R133) -/

/-- The state in which a well has taken over the graph of a commit. -/
def State.switched (s : State) (w : Nat) (g : GraphCommit) : State :=
  s.updWell w fun x => { x with graph := g.next, graphVer := some g.version, switchPending := false }

theorem State.switched_self (s : State) (w : Nat) (g : GraphCommit) : (s.switched w g).well w
    = { s.well w with graph := g.next, graphVer := some g.version, switchPending := false } := State.updWell_well ..

theorem State.switched_pending (s : State) (w : Nat) (g : GraphCommit) (v : Nat) :
    ((s.switched w g).well v).switchPending = (decide (v ≠ w) && (s.well v).switchPending) := by
  by_cases h : v = w
  · subst h
    simp [State.switched_self]
  · rw [State.switched, State.updWell_well_ne _ _ h]
    simp [h]

theorem execGraphSwitchTimeout_due {s : State} {w : Nat} {g : GraphCommit} (hg : s.net.committing = some g)
    (ht : g.startDt + 2000 ≤ s.dt) (hp : (s.well w).switchPending = true) : exec (.graphSwitchTimeout w) s = .next (
      if (List.range 8).any fun k => ((s.switched w g).well k).switchPending then s.switched w g
      else ((s.switched w g).updNet fun n => { n with shadow := g.former, committing := none }).finish g.c 0 0 [] []) := by
  show execGraphSwitchTimeout w s = _
  simp [execGraphSwitchTimeout, hg, Nat.not_lt.2 ht, done, State.graphSwitch, hp, State.switched]

/-- The last well that switches completes the commit. -/
theorem graphSwitchTimeout_last (s : State) (w : Nat) (g : GraphCommit) (hg : s.net.committing = some g)
    (ht : g.startDt + 2000 ≤ s.dt) (hp : (s.well w).switchPending = true)
    (others : ∀ v, v ≠ w → (s.well v).switchPending = false) :
    Claims.answersOk s (.graphSwitchTimeout w) g.c fun u =>
      (u.well w).graph = g.next ∧ (u.well w).graphVer = some g.version ∧ u.net.committing = none
        ∧ u.net.shadow = g.former := by
  have noneWaits (k : Nat) : ((s.switched w g).well k).switchPending = false := by
    rw [State.switched_pending]
    by_cases h : k = w
    · simp [h]
    · simp [others k h]
  have graph := s.switched_self w g
  refine ⟨(s.switched w g).updNet fun n => { n with shadow := g.former, committing := none }, ?_,
    congrArg Well.graph graph, congrArg Well.graphVer graph, rfl, rfl⟩
  rw [execGraphSwitchTimeout_due hg ht hp, if_neg (by simp [noneWaits])]
  rfl

/-- While another well waits, the commit goes on. -/
theorem graphSwitchTimeout_more (s : State) (w : Nat) (g : GraphCommit) (hg : s.net.committing = some g)
    (ht : g.startDt + 2000 ≤ s.dt) (hp : (s.well w).switchPending = true) (v : Nat) (hv : v < 8) (hn : v ≠ w)
    (hvp : (s.well v).switchPending = true) : ∃ u, exec (.graphSwitchTimeout w) s = .next u
      ∧ (u.well w).graph = g.next ∧ (u.well w).graphVer = some g.version ∧ u.net.committing = some g := by
  have waits : ((s.switched w g).well v).switchPending = true := by
    rw [State.switched_pending]
    simp [hn, hvp]
  have graph := s.switched_self w g
  refine ⟨s.switched w g, ?_, congrArg Well.graph graph, congrArg Well.graphVer graph, hg⟩
  rw [execGraphSwitchTimeout_due hg ht hp, if_pos (List.any_eq_true.2 ⟨v, List.mem_range.2 hv, waits⟩)]

/-! ### A walk starts (R120, R133) -/

theorem parseStart_effect (s : State) (port p : Nat) (hp : s.nextWalk port = some p)
    (hr : (s.well (s.pkt p).well).parserReset = false)
    (hb : (s.pkt p).tailIn = true ∨ (s.port port).cfg.standpipe ≤ (s.pkt p).bytes.length) :
    ∃ u, exec (.parseStart port) s = .next u ∧ (u.pkt p).st = .walking
      ∧ (u.pkt p).walkBytes = Nat.min 256 (s.pkt p).bytes.length
      ∧ (u.pkt p).walkGraph = some ((u.well (s.pkt p).well).graph, (u.well (s.pkt p).well).graphVer) := by
  let v := s.graphSwitch (s.pkt p).well
  let w := v.well (s.pkt p).well
  refine ⟨v.updPkt p fun x => { x with
    st := .walking, walkBytes := Nat.min 256 (s.pkt p).bytes.length, walkGraph := some (w.graph, w.graphVer) }, ?_, ?_⟩
  · have ready : ¬((s.well (s.pkt p).well).parserReset = true
        ∨ ((!(s.pkt p).tailIn) = true ∧ (s.pkt p).bytes.length < (s.port port).cfg.standpipe)) := by
      rcases hb with h | h
      · simp [hr, h]
      · simp [hr, Nat.not_lt.2 h]
    show execParseStart port s = _
    unfold execParseStart
    rw [hp]
    dsimp only
    rw [if_neg ready]
    rfl
  · simp only [State.updPkt_pkt, State.updPkt_well]
    exact ⟨trivial, trivial, rfl⟩

/-! ### Fragment entries and held fragments (R140, R142) -/

theorem fragEntryExpiry_effect (s : State) (w k : Nat) (e : Nat × Frag)
    (he : ((s.well w).frags.find? fun x => x.1 = k) = some e) (ht : e.2.born + 30000000 ≤ s.dt) :
    ∃ u, exec (.fragEntryExpiry w k) s = .next u ∧ (u.well w).frags = (s.well w).frags.filter fun x => x.1 ≠ k := by
  refine ⟨s.updWell w fun x => { x with frags := x.frags.filter fun y => y.1 ≠ k }, ?_, by rw [State.updWell_well]⟩
  show execFragEntryExpiry w k s = _
  simp [execFragEntryExpiry, he, Nat.not_lt.2 ht, done]

/-! ### QUIESCE_N, the parser reset (R124, R146) -/

theorem State.event_net (s : State) (code : Nat) (fields : List (Nat × Nat)) : (s.event code fields).net = s.net := by
  obtain ⟨o, d, l, n, h⟩ := State.event_frame s code fields
  rw [h]

theorem quiesceFall_effect (s : State) (h : s.net.quiesce = false) :
    ∃ u, exec .quiesceFall s = .next u ∧ u.net.quiesce = true := by
  refine ⟨(s.updNet fun n => { n with quiesce := true }).quiesceEvent 0, ?_, ?_⟩
  · show execQuiesceFall s = _
    simp [execQuiesceFall, h, done]
  · rw [State.quiesceEvent, State.event_net]
    rfl

theorem quiesceRise_effect (s : State) (h : s.net.quiesce = true) :
    ∃ u, exec .quiesceRise s = .next u ∧ u.net.quiesce = false := by
  refine ⟨(s.updNet fun n => { n with quiesce := false }).quiesceEvent 1, ?_, ?_⟩
  · show execQuiesceRise s = _
    simp [execQuiesceRise, h, done]
  · rw [State.quiesceEvent, State.event_net]
    rfl

theorem parserResetDone_effect (s : State) (w : Nat) (hw : w < 8) (h : (s.well w).parserReset = true) :
    ∃ u, exec (.parserResetDone w) s = .next u ∧ (u.well w).parserReset = false := by
  refine ⟨s.updWell w fun x => { x with parserReset := false }, ?_, by rw [State.updWell_well]⟩
  show execParserResetDone w s = _
  simp [execParserResetDone, hw, h, done]

/-! ### Data on a port that is not UP (R97, R108) -/

@[simp] theorem State.macCnt_port (s : State) (p : Nat) (g : MacCnt → MacCnt) :
    (s.macCnt p g).port p = { s.port p with mac := g (s.port p).mac } := State.updPort_port ..

theorem State.testing_st {s : State} {p m : Nat} (h : s.testing p m = true) :
    (s.port p).st = .test ∧ (s.port p).testMode = m := by
  simpa [State.testing] using h

theorem rxWhileDown_counts (s : State) (p : Nat) (data : List Byte) (checks : List (Nat × Bool))
    (hl : (s.port p).lanes ≠ 0) (hs : (s.port p).st = .down ∨ (s.port p).st = .training ∨ (s.port p).st = .suppressed) :
    ∃ u, exec (.rxWhileDown ⟨p, data, checks⟩) s = .next u
      ∧ (u.port p).mac.rxWhileDown = (s.port p).mac.rxWhileDown + 1 ∧ (u.port p).fill = (s.port p).fill := by
  have untested (m : Nat) : s.testing p m = false := by
    rcases hs with h | h | h <;> simp [State.testing, h]
  refine ⟨s.macCnt p fun m => { m with rxWhileDown := m.rxWhileDown + 1 }, ?_, by rw [State.macCnt_port], by
    rw [State.macCnt_port]⟩
  show execRxWhileDown ⟨p, data, checks⟩ s = _
  unfold execRxWhileDown
  dsimp only
  rw [if_neg hl, if_neg (by simp [untested]), if_neg (by simp [untested]), if_neg (by tauto)]
  rfl

theorem rxWhileDown_far (s : State) (p : Nat) (data : List Byte) (checks : List (Nat × Bool))
    (hl : (s.port p).lanes ≠ 0) (ht : s.testing p 3 = true) : ∃ u, exec (.rxWhileDown ⟨p, data, checks⟩) s = .next u
      ∧ u.out.serdes = s.out.serdes ++ [(p, data)] ∧ u.net = s.net := by
  have notChecked : s.testing p 1 = false := by simp [State.testing, (State.testing_st ht).2]
  refine ⟨{ s with out := { s.out with serdes := s.out.serdes ++ [(p, data)] } }, ?_, rfl, rfl⟩
  show execRxWhileDown ⟨p, data, checks⟩ s = _
  unfold execRxWhileDown
  dsimp only
  rw [if_neg hl, if_neg (by simp [notChecked]), if_pos ht]
  rfl

/-- What the checkers of other lanes find leaves lane 0's counter and lock alone. -/
theorem MacCnt.prbs_other (m : MacCnt) {l : List (Nat × (Nat × Bool))} (h : ∀ a ∈ l, a.1 ≠ 0) :
    SMap.get 0 (l.foldl (fun a e => a.prbs e.1 e.2) m).prbsErrors 0 = SMap.get 0 m.prbsErrors 0
      ∧ SMap.get false (l.foldl (fun a e => a.prbs e.1 e.2) m).prbsLock 0 = SMap.get false m.prbsLock 0 :=
  List.foldlRecOn (motive := fun x : MacCnt => SMap.get 0 x.prbsErrors 0 = SMap.get 0 m.prbsErrors 0
    ∧ SMap.get false x.prbsLock 0 = SMap.get false m.prbsLock 0) l _ ⟨rfl, rfl⟩ fun _ hx a ha =>
    ⟨(SMap.get_set_ne _ _ _ (h a ha).symm).trans hx.1, (SMap.get_set_ne _ _ _ (h a ha).symm).trans hx.2⟩

/-- The first of the checks is lane 0's, and no other is. -/
theorem laneChecks_cons (n : Nat) (e : Nat × Bool) (rest : List (Nat × Bool)) (hn : n ≠ 0) :
    ∃ l, ((List.range 8).zip (e :: rest)).take n = (0, e) :: l ∧ ∀ a ∈ l, a.1 ≠ 0 := by
  obtain ⟨n, rfl⟩ := Nat.exists_eq_succ_of_ne_zero hn
  refine ⟨(((List.range 7).map Nat.succ).zip rest).take n, by rw [List.range_succ_eq_map]; rfl, fun a ha => ?_⟩
  obtain ⟨k, -, hk⟩ := List.mem_map.1 (List.of_mem_zip (List.mem_of_mem_take ha)).1
  omega

theorem rxWhileDown_prbs (s : State) (p : Nat) (data : List Byte) (e : Nat × Bool) (rest : List (Nat × Bool))
    (hl : (s.port p).lanes ≠ 0) (ht : s.testing p 1 = true) :
    ∃ u, exec (.rxWhileDown ⟨p, data, e :: rest⟩) s = .next u
      ∧ SMap.get 0 (u.port p).mac.prbsErrors 0 = SMap.get 0 (s.port p).mac.prbsErrors 0 + BitVec.ofNat 48 e.1
      ∧ SMap.get false (u.port p).mac.prbsLock 0 = e.2 ∧ (u.port p).fill = (s.port p).fill := by
  obtain ⟨l, checks, others⟩ := laneChecks_cons (s.port p).lanes e rest hl
  refine ⟨s.macCnt p fun m => (((List.range 8).zip (e :: rest)).take (s.port p).lanes).foldl (fun a e => a.prbs e.1 e.2) m,
    ?_, ?_⟩
  · show execRxWhileDown ⟨p, data, e :: rest⟩ s = _
    unfold execRxWhileDown
    dsimp only
    rw [if_neg hl, if_pos ht]
    rfl
  · obtain ⟨errors, lock⟩ := MacCnt.prbs_other ((s.port p).mac.prbs 0 e) others
    rw [State.macCnt_port, checks, List.foldl_cons, errors, lock]
    simp [MacCnt.prbs]

/-! ### A held fragment's timeout (R142) -/

theorem State.sample_frame (s : State) (code sub inPort domain : Nat) (seq : W32) (dt : Nat) (bytes : List Byte) :
    ∃ e d, s.sample code sub inPort domain seq dt bytes = { s with egress := e, dci := d } := by
  unfold State.sample
  extract_lets k s1 win used s2 f
  split
  · exact ⟨_, _, rfl⟩
  · split
    · exact ⟨_, s.dci, rfl⟩
    · split
      · exact ⟨_, s.dci, rfl⟩
      · split
        · obtain ⟨d, h⟩ := State.updFn_frame s2 f fun x => { x with rx := SMap.set {} x.rx k.ring _ }
          exact ⟨_, d, h⟩
        · exact ⟨_, s.dci, rfl⟩

/-- A disposition changes the packet's record, the sump and the punt rings alone (R428, R429). -/
theorem State.dispose_frame (s : State) (p code sub : Nat) :
    ∃ r e d, s.dispose p code sub = { s with order := { s.order with recs := r }, egress := e, dci := d } := by
  unfold State.dispose
  dsimp only
  split
  · exact ⟨_, _, _, rfl⟩
  · obtain ⟨e, d, h⟩ := State.sample_frame ((s.updRc p fun r => { r with disposition := some code }).sump code sub
      (s.pkt p).bytes.length) code sub (s.pkt p).inPort (s.pkt p).domain (s.pkt p).seq (s.pkt p).sofDt (s.pkt p).bytes
    rw [h]
    exact ⟨_, e, d, rfl⟩

theorem State.dispose_net (s : State) (p code sub : Nat) : (s.dispose p code sub).net = s.net := by
  obtain ⟨r, e, d, h⟩ := s.dispose_frame p code sub
  rw [h]

/-- The fence's check changes the fence, its switch points and what an event changes. -/
theorem State.fenceCheck_frame (s : State) : ∃ f m o d t, s.fenceCheck
    = { s with order := { s.order with fence := f, doms := m }, out := o, dci := d, faults := t } := by
  unfold State.fenceCheck
  split
  · exact ⟨_, _, _, _, _, rfl⟩
  · dsimp only
    split
    · obtain ⟨o, d, l, n, h⟩ := State.event_frame s.disarm 0x0401 _
      rw [h]
      exact ⟨_, _, o, d, _, rfl⟩
    · exact ⟨_, _, _, _, _, rfl⟩

@[simp] theorem State.fenceCheck_net (s : State) : s.fenceCheck.net = s.net := by
  obtain ⟨f, m, o, d, t, h⟩ := s.fenceCheck_frame
  rw [h]

@[simp] theorem State.fenceCheck_pkt (s : State) (p : Nat) : s.fenceCheck.pkt p = s.pkt p := by
  obtain ⟨f, m, o, d, t, h⟩ := s.fenceCheck_frame
  rw [h]
  rfl

theorem fragHoldTimeout_effect (s : State) (w : Nat) (e : Nat × List Nat × Nat)
    (he : ((s.well w).held.find? fun e => (s.pkt e.1).accepted
      && decide (e.2.2 + 1000 * (s.well w).holdTimeUs ≤ s.dt / 10000 * 10000)) = some e) :
    ∃ u, exec (.fragHoldTimeout w) s = .next u ∧ (u.well w).held = ((s.well w).held.filter fun x => x.1 ≠ e.1)
      ∧ (u.pkt e.1).st = .finished := by
  let s1 := s.updWell w fun w => { w with held := w.held.filter fun x => x.1 ≠ e.1 }
  let s3 := match (s.pkt e.1).head with
    | some h => (s1.dispose e.1 8 0).freeBuf h
    | none => s1.dispose e.1 8 0
  have net : s3.net = s1.net := by
    refine Eq.trans ?_ (s1.dispose_net e.1 8 0)
    simp only [s3]
    split
    · exact (State.freeBuf_basinStep _ _).net
    · rfl
  refine ⟨((s3.updPkt e.1 fun x => { x with st := .finished }).updDom (s.pkt e.1).domain fun d =>
    d.void (s.pkt e.1).seq s.dt).fenceCheck, ?_, ?_, ?_⟩
  · show execFragHoldTimeout w s = _
    unfold execFragHoldTimeout
    dsimp only
    rw [he]
    rfl
  · rw [State.well_of_net (State.fenceCheck_net _)]
    show (s3.well w).held = _
    rw [State.well_of_net net, State.updWell_well]
  · rw [State.fenceCheck_pkt, State.updDom_pkt, State.updPkt_pkt]

/-! ### A walk completes (R22, R129) -/

/-- That the frame is parsed, and its place in the order. -/
def Pkt.numbers (k : Pkt) : Bool × Bool × Nat × W32 := (k.parsed, k.hasSeq, k.domain, k.seq)

/-- The walks waited for, the next numbers, the numbers of every packet and the late poisons are those of the other state. -/
structure State.NumbersKept (s u : State) : Prop where
  parseQ : ∀ q, (u.port q).parseQ = (s.port q).parseQ
  nextParse : u.order.nextParse = s.order.nextParse
  nextSeq : ∀ d, (u.dom d).nextSeq = (s.dom d).nextSeq
  lateRun : ∀ q, (u.rc q).lateRun = (s.rc q).lateRun
  numbers : ∀ q, (u.pkt q).numbers = (s.pkt q).numbers

namespace State.NumbersKept

variable {s u v : State}

theorem refl (s : State) : s.NumbersKept s := ⟨fun _ => rfl, rfl, fun _ => rfl, fun _ => rfl, fun _ => rfl⟩

theorem trans (h : s.NumbersKept u) (k : u.NumbersKept v) : s.NumbersKept v :=
  ⟨fun q => (k.parseQ q).trans (h.parseQ q), k.nextParse.trans h.nextParse, fun d => (k.nextSeq d).trans (h.nextSeq d),
    fun q => (k.lateRun q).trans (h.lateRun q), fun q => (k.numbers q).trans (h.numbers q)⟩

theorem of_order (hp : ∀ q, (u.port q).parseQ = (s.port q).parseQ) (ho : u.order = s.order) : s.NumbersKept u :=
  ⟨hp, by rw [ho], fun d => by rw [State.dom_of_order ho], fun q => by rw [State.rc_of_order ho],
    fun q => by rw [State.pkt_of_order ho]⟩

theorem of_basin (h : s.BasinStep u) : s.NumbersKept u := .of_order (fun q => by rw [State.port_of_net h.net]) h.order

theorem of_wake (h : s.WakeStep u) : s.NumbersKept u := .of_order (fun q => by rw [State.port_of_net h.net]) h.order

theorem foldl {α : Type} (g : State → α → State) (hg : ∀ x a, State.NumbersKept x (g x a)) (l : List α) (s : State) :
    s.NumbersKept (l.foldl g s) :=
  List.foldlRecOn l g (NumbersKept.refl s) fun x hx a _ => hx.trans (hg x a)

end State.NumbersKept

theorem State.updPkt_numbersKept (s : State) (p : Nat) (g : Pkt → Pkt)
    (hg : ∀ k, (g k).numbers = k.numbers := by exact fun _ => rfl) : s.NumbersKept (s.updPkt p g) := by
  refine ⟨fun _ => rfl, rfl, fun _ => rfl, fun _ => rfl, fun q => ?_⟩
  by_cases h : q = p
  · subst h
    rw [State.updPkt_pkt, hg]
  · rw [State.updPkt_pkt_ne _ _ h]

theorem State.updRc_numbersKept (s : State) (p : Nat) (g : RunRec → RunRec)
    (hg : ∀ r, (g r).lateRun = r.lateRun := by exact fun _ => rfl) : s.NumbersKept (s.updRc p g) := by
  refine ⟨fun _ => rfl, rfl, fun _ => rfl, fun q => ?_, fun _ => rfl⟩
  by_cases h : q = p
  · subst h
    rw [State.updRc_rc, hg]
  · rw [State.updRc_rc_ne _ _ h]

theorem State.updWell_numbersKept (s : State) (w : Nat) (g : Well → Well) : s.NumbersKept (s.updWell w g) :=
  .of_order (fun _ => rfl) rfl

theorem State.intakeCnt_numbersKept (s : State) (p : Nat) (g : IntakeCnt → IntakeCnt) : s.NumbersKept (s.intakeCnt p g) :=
  .of_order (fun q => by rw [State.intakeCnt_port]) rfl

theorem State.learnQueue_numbersKept (s : State) (k : Pkt) : s.NumbersKept (s.learnQueue k) := by
  unfold State.learnQueue
  split
  · exact .refl s
  · split
    · exact State.updWell_numbersKept ..
    · exact State.intakeCnt_numbersKept ..

/-- Acceptance without a late poison numbers nothing (R21). -/
theorem State.tryAccept_numbersKept (s : State) (p : Nat) (hl : (s.rc p).lateRun = false) :
    s.NumbersKept (s.tryAccept p) := by
  unfold State.tryAccept
  dsimp only
  split
  · exact .refl s
  · rw [if_neg (by simp [hl])]
    exact (((State.updPkt_numbersKept s p _).trans (State.intakeCnt_numbersKept ..)).trans
      (.of_wake (State.classFrame_wakeStep ..))).trans (State.learnQueue_numbersKept ..)

theorem State.listPut_numbersKept (s : State) (p : Nat) : s.NumbersKept (s.listPut p) :=
  ((State.updPkt_numbersKept s p fun x => { x with st := .listed }).trans
    (State.updRc_numbersKept _ p fun r => { r with listDt := s.dt })).trans ⟨fun _ => rfl, rfl, fun _ => rfl, fun _ => rfl,
      fun _ => rfl⟩

theorem State.releaseFrags_numbersKept (s : State) (w : Nat) (key : List Nat) (f : Frag) :
    s.NumbersKept (s.releaseFrags w key f) := by
  unfold State.releaseFrags
  refine (State.updWell_numbersKept s w _).trans (.foldl _ (fun x e => ?_) _ _)
  exact (State.updPkt_numbersKept x e.1 _).trans (State.listPut_numbersKept _ e.1)

/-- Once a frame has its sequence number, its way to the hold queue or to the dispatch list numbers nothing. -/
theorem State.parsed_numbersKept (s : State) (p w : Nat) (pl : FragPlan) (hl : (s.rc p).lateRun = false) :
    (s.assignSeq p pl.dec.domain).NumbersKept (s.parsed p w pl) := by
  have accept {x : State} (h : (s.assignSeq p pl.dec.domain).NumbersKept x) :
      (s.assignSeq p pl.dec.domain).NumbersKept (x.tryAccept p) :=
    h.trans (State.tryAccept_numbersKept x p ((h.lateRun p).trans hl))
  unfold State.parsed
  extract_lets s1 held listed released
  split
  · exact accept (((State.updPkt_numbersKept s1 p _).trans (State.updRc_numbersKept _ p _)).trans
      (State.updWell_numbersKept ..))
  · have put : s1.NumbersKept listed := (State.listPut_numbersKept s1 p).trans (State.updWell_numbersKept ..)
    refine accept (put.trans ?_)
    simp only [released]
    split
    · exact .refl listed
    · exact (State.updWell_numbersKept listed w _).trans (State.releaseFrags_numbersKept ..)

theorem State.assignSeq_pkt (s : State) (p d : Nat) : (s.assignSeq p d).pkt p
    = { s.pkt p with domain := d, seq := (s.dom d).nextSeq, hasSeq := true, parseNo := s.order.nextParse } :=
  State.updPkt_pkt ..

/-- Only a full hold queue refuses a fragment (R141). -/
theorem State.fragPlan_full {s : State} {w : Nat} (i : Option FragInfo) (d : Decision) (l4 : List Byte)
    (h : (s.well w).held.length < 256) : (s.fragPlan w i d l4).full = false := by
  unfold State.fragPlan
  dsimp only
  split
  · rfl
  · split
    · split
      · rfl
      · rfl
    · split
      · split
        · rfl
        · rfl
      · rfl

/-- Up to its sequence number, a completed walk marks its frame as parsed and numbers nothing. -/
theorem State.walkDone_parsed {s : State} {p : Nat} (h : (s.well (s.pkt p).well).held.length < 256) :
    ∃ (x v : State) (pl : FragPlan), s.walkDone p = v.parsed p (s.pkt p).well pl ∧ x.NumbersKept v ∧ (x.pkt p).parsed = true
      ∧ x.net = s.net ∧ x.order.nextParse = s.order.nextParse ∧ x.order.doms = s.order.doms ∧ x.order.recs = s.order.recs := by
  unfold State.walkDone
  extract_lets k w g cfg stage r tag inPort l4 fv0 d pl flags s1 s2
  refine ⟨s1, s2, pl, ?_, ?_, ?_, rfl, rfl, rfl, rfl⟩
  · rw [if_neg (by simp [pl, k, State.fragPlan_full _ d l4 h])]
  · exact (State.intakeCnt_numbersKept ..).trans (.of_basin (State.storeBytes_basinStep ..))
  · simp [s1]

theorem execParseComplete_oldest {s : State} {port p : Nat} {rest : List Nat} (hq : (s.port port).parseQ = p :: rest)
    (hr : (s.pkt p).refusal = none) (hw : (s.well (s.pkt p).well).parserReset = false) (hs : (s.pkt p).st = .walking)
    (hh : (s.pkt p).head.isSome = true) :
    exec (.parseComplete port) s = .next ((s.updPort port fun x => { x with parseQ := rest }).walkDone p) := by
  have held : (s.pkt p).head.isNone = false := by rw [← Option.not_isSome, hh]; rfl
  show execParseComplete port s = _
  simp [execParseComplete, hq, hr, hw, hs, held, done]

theorem parseComplete_effect (s : State) (port p : Nat) (rest : List Nat) (hq : (s.port port).parseQ = p :: rest)
    (hr : (s.pkt p).refusal = none) (hw : (s.well (s.pkt p).well).parserReset = false) (hs : (s.pkt p).st = .walking)
    (hh : (s.pkt p).head.isSome = true) (hf : (s.well (s.pkt p).well).held.length < 256)
    (hl : (s.rc p).lateRun = false) : ∃ u, exec (.parseComplete port) s = .next u
      ∧ (u.port port).parseQ = rest ∧ (u.pkt p).parsed = true ∧ (u.pkt p).hasSeq = true
      ∧ (u.pkt p).seq = (s.dom (u.pkt p).domain).nextSeq ∧ u.order.nextParse = s.order.nextParse + 1 := by
  obtain ⟨x, v, pl, walk, kept, parsed, net, parse, doms, recs⟩ :=
    State.walkDone_parsed (s := s.updPort port fun x => { x with parseQ := rest }) (p := p) hf
  have late : (v.rc p).lateRun = false := by
    rw [kept.lateRun, State.rc, recs]
    exact hl
  have after := State.parsed_numbersKept v p (s.pkt p).well pl late
  have numbers := after.numbers p
  rw [State.assignSeq_pkt] at numbers
  obtain ⟨hparsed, hnum⟩ := Prod.mk.inj numbers
  obtain ⟨hseq, hnum⟩ := Prod.mk.inj hnum
  obtain ⟨hdom, hno⟩ := Prod.mk.inj hnum
  refine ⟨v.parsed p (s.pkt p).well pl, (execParseComplete_oldest hq hr hw hs hh).trans (congrArg _ walk), ?_, ?_, ?_, ?_, ?_⟩
  · rw [after.parseQ]
    show (v.port port).parseQ = rest
    rw [kept.parseQ, State.port_of_net net, State.updPort_port]
  · rw [hparsed, ← parsed]
    exact (Prod.mk.inj (kept.numbers p)).1
  · rw [hseq]
  · rw [hno, hdom, kept.nextSeq, State.dom, doms]
    rfl
  · rw [after.nextParse]
    show v.order.nextParse + 1 = _
    rw [kept.nextParse, parse]
    rfl

/-- Settles O31: each clause is a lemma about its command. -/
theorem walksAndWells : Obligations.WalksAndWells := by
  unfold Obligations.WalksAndWells
  exact ⟨parseStart_effect, parseComplete_effect,
    fun s w g _ hg ht hp => ⟨fun others => graphSwitchTimeout_last s w g hg ht hp others,
      fun v hv hn hvp => graphSwitchTimeout_more s w g hg ht hp v hv hn hvp⟩,
    fragEntryExpiry_effect, fragHoldTimeout_effect, fun s => ⟨quiesceFall_effect s, quiesceRise_effect s⟩,
    parserResetDone_effect, fun s p data checks hl => ⟨rxWhileDown_counts s p data checks hl,
      rxWhileDown_far s p data checks hl, fun ht e rest hc => by
        subst hc
        exact rxWhileDown_prbs s p data e rest hl ht⟩⟩

end Sys2Proof.Machine
end

section
/-!
PROOFS. O36: dispatch (R194, R196-R198), the release, log and application of a packet's journal (R25, R211, R214, R215),
cut-through starts (R27), the log's other commands (R214, R216, R217), a fence's drain (R238) and stalls (R244).
-/

namespace Sys2Proof.Machine

/-! ### High-water marks (R215) -/

theorem SMap.find?_erase_ne {α : Type} (m : SMap α) {k i : Nat} (h : i ≠ k) :
    (SMap.erase m k).find? (fun e => e.1 = i) = m.find? fun e => e.1 = i := by
  induction m with
  | nil => rfl
  | cons e rest ih =>
    by_cases hk : e.1 = k
    · have hi : e.1 ≠ i := fun he => h (he.symm.trans hk)
      simp [SMap.erase, hk, ih, h.symm]
    · simp [SMap.erase, hk, List.find?_cons, ih]

theorem SMap.find?_ins_ne {α : Type} (m : SMap α) {k i : Nat} (v : α) (h : i ≠ k) :
    (SMap.ins m k v).find? (fun e => e.1 = i) = m.find? fun e => e.1 = i := by
  induction m with
  | nil => simp [SMap.ins, h.symm]
  | cons e rest ih =>
    by_cases hk : k < e.1
    · simp [SMap.ins, hk, h.symm, List.find?_cons]
    · simp [SMap.ins, hk, List.find?_cons, ih]

/-- A unit's mark says nothing to another unit. -/
theorem State.fresh_marked (s : State) {u v : Nat} (d : Nat) (q q' : W32) (h : v ≠ u) :
    (s.marked u d q).fresh v d q' = s.fresh v d q' := by
  have key : v * 65536 + d ≠ u * 65536 + d := by omega
  simp only [State.fresh, State.marked, State.updOrder]
  rw [SMap.find?_ins_ne _ _ key, SMap.find?_erase_ne _ key]

theorem State.fresh_unmarked {s : State} (h : s.order.marks = []) (u d : Nat) (q : W32) : s.fresh u d q = true := by
  simp [State.fresh, h]

/-- The order unit is that of the other state but for its packet records and its marks. -/
def State.OrderKept (s u : State) : Prop := ∃ c m, u.order = { s.order with recs := c, marks := m }

theorem State.OrderKept.trans {s u v : State} (h : s.OrderKept u) (k : u.OrderKept v) : s.OrderKept v := by
  obtain ⟨c, m, h⟩ := h
  obtain ⟨c', m', k⟩ := k
  exact ⟨c', m', by rw [k, h]⟩

theorem State.OrderKept.of_eq {s u : State} (h : u.order = s.order) : s.OrderKept u := ⟨_, _, h⟩

@[simp] theorem State.marked_tables (s : State) (u d : Nat) (q : W32) : (s.marked u d q).tables = s.tables := rfl

@[simp] theorem State.marked_egress (s : State) (u d : Nat) (q : W32) : (s.marked u d q).egress = s.egress := rfl

theorem State.marked_orderKept (s : State) (u d : Nat) (q : W32) : s.OrderKept (s.marked u d q) := ⟨_, _, rfl⟩

/-- What applying a record at another target than `v` leaves: the order unit but its packet records and its marks, the
counters, the pumps and what a copy's pump depends on, and whether `v` has applied a record of the domain. -/
structure State.RecKept (v d : Nat) (s u : State) : Prop where
  order : s.OrderKept u
  counters : u.tables.counters = s.tables.counters
  pumps : u.egress.pumps = s.egress.pumps
  groups : u.egress.groups = s.egress.groups
  net : u.net = s.net
  fresh : ∀ q, u.fresh v d q = s.fresh v d q

namespace State.RecKept

variable {v d : Nat} {s u w : State}

theorem refl (s : State) : State.RecKept v d s s := ⟨⟨_, _, rfl⟩, rfl, rfl, rfl, rfl, fun _ => rfl⟩

theorem trans (h : State.RecKept v d s u) (k : State.RecKept v d u w) : State.RecKept v d s w :=
  ⟨h.order.trans k.order, k.counters.trans h.counters, k.pumps.trans h.pumps, k.groups.trans h.groups,
   k.net.trans h.net, fun q => (k.fresh q).trans (h.fresh q)⟩

theorem of_basin (h : s.BasinStep u) : State.RecKept v d s u := by
  obtain ⟨b, e, o, rfl⟩ := h
  exact ⟨⟨_, _, rfl⟩, rfl, rfl, rfl, rfl, fun _ => rfl⟩

theorem copyPump (h : State.RecKept v d s u) (c : Copy) : u.copyPump c = s.copyPump c := by
  have port (q : Nat) : u.queuePort q = s.queuePort q := by
    rw [State.queuePort, State.group, h.groups]
    rfl
  have phys (lp : Nat) : u.physOf lp = s.physOf lp := by
    rw [State.physOf, State.ecidOf, h.net]
    rfl
  simp only [State.copyPump, State.copyPhys, State.bindCascade, port, phys]

theorem pump (h : State.RecKept v d s u) (n : Nat) : u.pump n = s.pump n := by
  rw [State.pump, h.pumps, State.pump]

end State.RecKept

theorem State.marked_recKept (s : State) {u v : Nat} (d : Nat) (q : W32) (h : v ≠ u) :
    State.RecKept v d s (s.marked u d q) :=
  ⟨⟨_, _, rfl⟩, rfl, rfl, rfl, rfl, fun q' => s.fresh_marked d q q' h⟩

theorem State.atUnit_recKept (s : State) {u v : Nat} (r : WalRec) (f : State → State) (h : v ≠ u)
    (hf : State.RecKept v r.domain s (f s)) : State.RecKept v r.domain s (s.atUnit u r f) := by
  unfold State.atUnit
  split
  · exact hf.trans (State.marked_recKept _ r.domain r.seq h)
  · exact .refl s

theorem State.atUnit_fresh {s : State} {u : Nat} {r : WalRec} (f : State → State)
    (h : s.fresh u r.domain r.seq = true) : s.atUnit u r f = (f s).marked u r.domain r.seq := by
  simp [State.atUnit, h]

theorem State.dropVers_recKept (s : State) (v d p : Nat) : State.RecKept v d s (s.dropVers p) :=
  ⟨⟨_, _, rfl⟩, rfl, rfl, rfl, rfl, fun _ => rfl⟩

theorem State.finalize_recKept (s : State) (v d p : Nat) : State.RecKept v d s (s.finalize p) :=
  ⟨⟨_, _, rfl⟩, rfl, rfl, rfl, rfl, fun _ => rfl⟩

theorem State.updRc_recKept (s : State) (v d p : Nat) (g : RunRec → RunRec) : State.RecKept v d s (s.updRc p g) :=
  ⟨⟨_, _, rfl⟩, rfl, rfl, rfl, rfl, fun _ => rfl⟩

theorem State.refCounts_basinStep (s : State) (p : Nat) (run : RunSt) (made : List Made) :
    s.BasinStep (s.refCounts p run made) := by
  unfold State.refCounts
  extract_lets hs s1 s2
  have counted : s.BasinStep s2 :=
    (State.BasinStep.foldl _ (fun x h => State.updBuf_basinStep x h _) _ s).trans
      (State.BasinStep.foldl _ (fun x h => State.updBuf_basinStep x h _) _ s1)
  split
  · exact (counted.trans (State.updBuf_basinStep _ _ _)).trans (State.settle_basinStep _ _)
  · exact counted

/-! ### Applying the record of one count or one emission (R211) -/

/-- The entry acts at the counters or at a pump alone, by one copy at most. -/
def JEntry.lone : JEntry → Bool
  | .count .. => true
  | .emit _ _ _ mc .. => !mc
  | _ => false

theorem State.applyTables_lone (s : State) {e : JEntry} (h : e.lone = true) : s.applyTables [e] = s :=
  match e, h with
  | .count .., _ => rfl
  | .emit .., _ => rfl

theorem State.applyContexts_lone (s : State) (p : Nat) {e : JEntry} (h : e.lone = true) :
    s.applyContexts p [e] = s.dropVers p :=
  match e, h with
  | .count .., _ => rfl
  | .emit .., _ => rfl

theorem State.applyLedger_lone (s : State) (len dt : Nat) {e : JEntry} (h : e.lone = true) :
    s.applyLedger [e] len dt = s :=
  match e, h with
  | .count .., _ => rfl
  | .emit .., _ => rfl

theorem State.applyFrees_lone (s : State) (p : Nat) {e : JEntry} (h : e.lone = true) : s.applyFrees p [e] = s :=
  match e, h with
  | .count .., _ => rfl
  | .emit .., _ => rfl

theorem State.applyCounts_count (s : State) (a k n : Nat) (f : Bool) (b : W64) (len : Nat) :
    s.applyCounts [.count a k f n b] len = s.count k n (b + finalAdd f len) := rfl

theorem State.applyCounts_emit (s : State) (a h q ops len : Nat) (mc ts : Bool) (rel : Option Nat) (edit : List Byte) :
    s.applyCounts [.emit a h q mc ts rel ops edit] len = s := rfl

/-- The record is applied at the tables, the flow contexts and the weirs. -/
def State.beforeCounts (s : State) (r : WalRec) : State :=
  ((s.atUnit 0 r id).atUnit 1 r fun x => x.dropVers r.pkt).atUnit 2 r fun x => x.finalize r.pkt

/-- The record is applied at the tally and the buffer pool manager, with these copies. -/
def State.afterCounts (s : State) (r : WalRec) (cs : List Copy) : State :=
  (s.atUnit 4 r id).atUnit 14 r fun x => (x.updRc r.pkt fun q => { q with
    copies := cs.length, left := cs.length, disposition := r.j.forced }).refCounts r.pkt r.j.run (cs.map Made.copy)

/-- The record is applied at the pumps, with these copies. -/
def State.toPumps (s : State) (r : WalRec) (cs : List Copy) : State :=
  pumpUnits.foldl (fun acc u => acc.atUnit u r fun x => (cs.filter fun c => 5 + x.copyPump c = u).foldl State.toPump x) s

/-- What applying the record of a lone entry comes to. -/
theorem State.applyRec_lone {s : State} {r : WalRec} {e : JEntry} {cs : List Copy} (hj : r.j.run.journal = [e])
    (he : e.lone = true) (hct : (s.rc r.pkt).ct = false)
    (hl : cs = [] ∨ ∃ c, cs = [c])
    (hm : splitMade (s.allMade r.pkt [e] r.j.forced [e] 0) 0 = (cs.map Made.copy, [])) :
    s.applyRec r = (((((s.beforeCounts r).atUnit 3 r fun x => x.applyCounts [e] (s.pkt r.pkt).bytes.length).afterCounts r
      cs).toPumps r cs).atUnit 13 r id) := by
  unfold State.applyRec State.beforeCounts State.afterCounts State.toPumps
  simp only [hj, hm, hct, State.applyTables_lone _ he, State.applyContexts_lone _ _ he, State.applyLedger_lone _ _ _ he,
    State.applyFrees_lone _ _ he, ite_self]
  obtain rfl | ⟨c, rfl⟩ := hl
  · rfl
  · rfl

theorem State.beforeCounts_recKept (s : State) (r : WalRec) {v : Nat} (h : 3 ≤ v) :
    State.RecKept v r.domain s (s.beforeCounts r) :=
  ((s.atUnit_recKept r id (by omega) (.refl s)).trans
    (State.atUnit_recKept _ r _ (by omega) (State.dropVers_recKept ..))).trans
      (State.atUnit_recKept _ r _ (by omega) (State.finalize_recKept ..))

theorem State.afterCounts_recKept (s : State) (r : WalRec) (cs : List Copy) {v : Nat} (h4 : v ≠ 4) (h14 : v ≠ 14) :
    State.RecKept v r.domain s (s.afterCounts r cs) :=
  (s.atUnit_recKept r id h4 (.refl s)).trans (State.atUnit_recKept _ r _ h14
    ((State.updRc_recKept ..).trans (.of_basin (State.refCounts_basinStep ..))))

/-- At the pumps of other copies nothing happens. -/
theorem State.toPumps_recKept (s : State) (r : WalRec) (cs : List Copy) (l : List Nat) {v : Nat} (hv : v ∉ l)
    (hc : ∀ c ∈ cs, 5 + s.copyPump c = v) : State.RecKept v r.domain s (l.foldl (fun acc u =>
      acc.atUnit u r fun x => (cs.filter fun c => 5 + x.copyPump c = u).foldl State.toPump x) s) := by
  refine List.foldlRecOn (motive := fun x => State.RecKept v r.domain s x) l _ (.refl s) fun x hx u hu => ?_
  have hne : v ≠ u := fun h => hv (h ▸ hu)
  have others : (cs.filter fun c => 5 + x.copyPump c = u) = [] := List.filter_eq_nil_iff.2 fun c hcs => by
    rw [hx.copyPump, hc c hcs]
    simpa using hne
  refine hx.trans (State.atUnit_recKept x r _ hne ?_)
  rw [others]
  exact .refl x

theorem State.count_order (s : State) (k n : Nat) (b : W64) : (s.count k n b).order = s.order := rfl

theorem State.toPump_order (s : State) (c : Copy) : (s.toPump c).order = s.order := rfl

theorem State.toPump_pump (s : State) (c : Copy) :
    (s.toPump c).pump (s.copyPump c) = { s.pump (s.copyPump c) with arrivals := (s.pump (s.copyPump c)).arrivals ++ [c] } :=
  State.updPump_pump ..

theorem State.toPump_copyPump (s : State) (c d : Copy) : (s.toPump c).copyPump d = s.copyPump d := rfl

theorem State.marked_copyPump (s : State) (u d : Nat) (q : W32) (c : Copy) : (s.marked u d q).copyPump c = s.copyPump c :=
  rfl

/-- Each pump is one target. -/
theorem pumpUnits_split {n : Nat} (h : n < 8) : ∃ l m, pumpUnits = l ++ (5 + n) :: m ∧ 5 + n ∉ l ∧ 5 + n ∉ m := by
  have mem : 5 + n ∈ pumpUnits := List.mem_map.2 ⟨n, List.mem_range.2 h, rfl⟩
  have nodup : pumpUnits.Nodup := by decide
  obtain ⟨l, m, e⟩ := List.append_of_mem mem
  rw [e, List.nodup_append] at nodup
  obtain ⟨-, tail, apart⟩ := nodup
  exact ⟨l, m, e, fun hl => apart _ hl _ (List.mem_cons_self ..) rfl, (List.nodup_cons.1 tail).1⟩

/-- One copy reaches its pump, once. -/
theorem State.toPumps_one {s : State} {r : WalRec} {c : Copy} {n : Nat} (hn : s.copyPump c = n) (h8 : n < 8)
    (hf : s.fresh (5 + n) r.domain r.seq = true) :
    s.OrderKept (s.toPumps r [c]) ∧ ((s.toPumps r [c]).pump n).arrivals = (s.pump n).arrivals ++ [c] := by
  obtain ⟨l, m, split, hl, hm⟩ := pumpUnits_split h8
  have before := s.toPumps_recKept r [c] l hl (by simp [hn])
  unfold State.toPumps
  rw [split, List.foldl_append, List.foldl_cons]
  generalize l.foldl _ s = x at before ⊢
  have here : x.copyPump c = n := (before.copyPump c).trans hn
  rw [State.atUnit_fresh _ ((before.fresh _).trans hf), List.filter_cons_of_pos (by simp [here]), List.filter_nil,
    List.foldl_cons, List.foldl_nil]
  have after := ((x.toPump c).marked (5 + n) r.domain r.seq).toPumps_recKept r [c] m hm (by
    simp [State.marked_copyPump, State.toPump_copyPump, here])
  refine ⟨((before.order.trans (.of_eq (x.toPump_order c))).trans (State.marked_orderKept ..)).trans after.order, ?_⟩
  have added := x.toPump_pump c
  rw [here] at added
  rw [after.pump, State.pump_of_egress (State.marked_egress ..), added, before.pump]

@[simp] theorem State.count_counter (s : State) (k n : Nat) (b : W64) :
    SMap.get {} (s.count k n b).tables.counters k = (SMap.get {} s.tables.counters k).add n b := SMap.get_set_self ..

/-- A count's record adds to its counter, once (R206, R211). -/
theorem State.applyRec_count {s : State} {r : WalRec} {a k n : Nat} {f : Bool} {b : W64}
    (hj : r.j.run.journal = [.count a k f n b]) (hct : (s.rc r.pkt).ct = false) (hm : s.order.marks = []) :
    s.OrderKept (s.applyRec r)
      ∧ SMap.get {} (s.applyRec r).tables.counters k
        = (SMap.get {} s.tables.counters k).add n (b + finalAdd f (s.pkt r.pkt).bytes.length) := by
  have before : State.RecKept 3 r.domain s (s.beforeCounts r) := s.beforeCounts_recKept r (le_refl 3)
  have fresh : (s.beforeCounts r).fresh 3 r.domain r.seq = true := by rw [before.fresh, State.fresh_unmarked hm]
  have after (v : State) : State.RecKept 3 r.domain v (((v.afterCounts r []).toPumps r []).atUnit 13 r id) := by
    have tally := v.afterCounts_recKept r [] (v := 3) (by decide) (by decide)
    have pumps := (v.afterCounts r []).toPumps_recKept r [] pumpUnits (v := 3) (by decide) (by simp)
    exact (tally.trans pumps).trans (State.atUnit_recKept _ r id (by decide) (.refl _))
  have counted := after (((s.beforeCounts r).count k n (b + finalAdd f (s.pkt r.pkt).bytes.length)).marked 3 r.domain r.seq)
  rw [State.applyRec_lone (cs := []) hj rfl hct (.inl rfl) rfl, State.atUnit_fresh _ fresh,
    State.applyCounts_count]
  refine ⟨((before.order.trans (.of_eq (State.count_order ..))).trans (State.marked_orderKept ..)).trans counted.order, ?_⟩
  rw [counted.counters, State.marked_tables, State.count_counter, before.counters]

/-- An emission's record hands its copy to the copy's pump, once (R211). -/
theorem State.applyRec_emit {s : State} {r : WalRec} {a h q ops : Nat} {ts : Bool} {edit : List Byte}
    (hj : r.j.run.journal = [.emit a h q false ts none ops edit]) (hct : (s.rc r.pkt).ct = false)
    (hm : s.order.marks = []) (c : Copy) (hc : c = s.mkCopy r.pkt r.j.run.journal a h q ts none ops edit none 0)
    (h8 : s.copyPump c < 8) :
    s.OrderKept (s.applyRec r)
      ∧ ((s.applyRec r).pump (s.copyPump c)).arrivals = (s.pump (s.copyPump c)).arrivals ++ [c] := by
  generalize hn : s.copyPump c = n at h8 ⊢
  have made : splitMade (s.allMade r.pkt [.emit a h q false ts none ops edit] r.j.forced
      [.emit a h q false ts none ops edit] 0) 0 = ([c].map Made.copy, []) := by
    rw [hc, hj]
    rfl
  have before : State.RecKept (5 + n) r.domain s (s.beforeCounts r) := s.beforeCounts_recKept r (by omega)
  have counts : State.RecKept (5 + n) r.domain (s.beforeCounts r) ((s.beforeCounts r).atUnit 3 r fun x => x) :=
    State.atUnit_recKept _ r _ (by omega) (.refl _)
  have tally := ((s.beforeCounts r).atUnit 3 r fun x => x).afterCounts_recKept r [c] (v := 5 + n) (by omega) (by omega)
  have reached := (before.trans counts).trans tally
  obtain ⟨order, arrivals⟩ := State.toPumps_one ((reached.copyPump c).trans hn) h8
    ((reached.fresh r.seq).trans (State.fresh_unmarked hm ..))
  have last (x : State) : State.RecKept (5 + n) r.domain x (x.atUnit 13 r id) :=
    State.atUnit_recKept x r id (by omega) (.refl x)
  rw [State.applyRec_lone (cs := [c]) hj rfl hct (.inr ⟨c, rfl⟩) made]
  simp only [State.applyCounts_emit]
  refine ⟨(reached.order.trans order).trans (last _).order, ?_⟩
  rw [(last _).pump, arrivals, reached.pump]

/-! ### COMMIT (R25, R211, R214) -/

/-- Nothing is released while no pending packet is accepted and the oldest of its domain (R25). -/
theorem commit_unreleasable (s : State) (lane : Nat)
    (h : ∀ j ∈ s.order.pend, ¬((s.pkt j.pkt).accepted = true ∧ s.oldest j.pkt = true)) :
    exec (.commit lane) s = .next s := by
  have none : (s.order.pend.find? fun j => (s.pkt j.pkt).domain % 16 = lane && s.releasable j) = none :=
    List.find?_eq_none.2 fun j hj => by
      have := h j hj
      simp only [State.releasable]
      simpa using fun _ => this
  show execCommit lane s = _
  unfold execCommit
  dsimp only
  rw [none]
  simp [done]

/-- The state in which a journal's record is in its lane's share of the log. -/
def State.logged (s : State) (lane : Nat) (j : PendJ) : State := s.updOrder fun o => { o with
  pend := o.pend.filter fun x => x.pkt ≠ j.pkt
  wal := SMap.set [] o.wal lane (SMap.get [] s.order.wal lane ++ [⟨j.pkt, (s.pkt j.pkt).domain, (s.pkt j.pkt).seq, j⟩]) }

/-- A packet's domain moves on, and its lane has committed one more (R211, R242). -/
def State.movedOn (s : State) (lane p d dt : Nat) : State :=
  ((s.updPkt p fun x => { x with st := .finished }).updDom d fun x => x.advance dt).updCnt fun c => { c with
    commits := SMap.set 0 c.commits lane (SMap.get 0 c.commits lane + 1) }

theorem State.movedOn_pkt (s : State) (lane p d dt : Nat) :
    (s.movedOn lane p d dt).pkt p = { s.pkt p with st := .finished } := by
  rw [State.movedOn, State.updCnt_pkt, State.updDom_pkt, State.updPkt_pkt]

theorem State.movedOn_dom (s : State) (lane p d dt : Nat) : (s.movedOn lane p d dt).dom d = (s.dom d).advance dt := by
  rw [State.movedOn, State.updCnt_dom, State.updDom_dom, State.updPkt_dom]

theorem commit_releases {s : State} {lane : Nat} {j : PendJ} (hl : lane < 16) (hr : s.order.commitReset = false)
    (hs : s.order.stopped = false) (hb : lane ∉ s.order.badLanes) (hp : s.order.pend = [j])
    (hd : (s.pkt j.pkt).domain % 16 = lane) (hrel : s.releasable j = true) (hw : SMap.get [] s.order.wal lane = [])
    (hu : j.run.used < 16384) : exec (.commit lane) s = .next ((((s.logged lane j).applyRec
      ⟨j.pkt, (s.pkt j.pkt).domain, (s.pkt j.pkt).seq, j⟩).quietEnd j.pkt j).movedOn lane j.pkt (s.pkt j.pkt).domain
        s.dt).fenceCheck := by
  have found : (s.order.pend.find? fun j => (s.pkt j.pkt).domain % 16 = lane && s.releasable j) = some j := by
    simp [hp, hd, hrel]
  have room : ¬laneShare < total (([] : List WalRec).map fun r => recUnits r.j) + recUnits j := by
    simp only [laneShare, recUnits, total, List.map_nil, List.foldl_nil]
    omega
  show execCommit lane s = _
  unfold execCommit
  dsimp only
  rw [if_neg (by simp [hr, hs, hb, Nat.not_le.2 hl]), found, hw]
  dsimp only
  rw [if_neg room, State.logged, hw]
  rfl

theorem Dom.advance_commitSeq {d : Dom} (dt : Nat) (h : d.voids = []) : (d.advance dt).commitSeq = d.commitSeq + 1 := by
  simp [Dom.advance, h, skipVoids]

theorem State.fenceCheck_unarmed {s : State} (h : s.order.fence = none) : s.fenceCheck = s := by
  simp [State.fenceCheck, h]

theorem State.quietEnd_frame (s : State) (p : Nat) {j : PendJ} (h : j.forced = none) :
    ∃ r e d, s.quietEnd p j = { s with order := { s.order with recs := r }, egress := e, dci := d } := by
  unfold State.quietEnd
  rw [h]
  dsimp only
  split
  · exact ⟨_, _, _, rfl⟩
  · split
    · exact s.dispose_frame p 3 0
    · split
      · exact s.dispose_frame p 6 0
      · exact s.dispose_frame p 2 0

theorem State.quietEnd_sends (s : State) (p : Nat) {j : PendJ} (h : j.forced = none)
    (hs : j.run.journal.any JEntry.sends = true) : s.quietEnd p j = s := by
  simp [State.quietEnd, h, hs]

/-- What a released packet leaves in the order unit, once its record is applied (R211, R214). -/
theorem State.movedOn_rest {s x : State} {lane : Nat} {j : PendJ} (hp : s.order.pend = [j])
    (hw : SMap.get [] s.order.wal lane = []) (hf : s.order.fence = none) (hv : (s.dom (s.pkt j.pkt).domain).voids = [])
    (hx : (s.logged lane j).OrderKept x) : let u := (x.movedOn lane j.pkt (s.pkt j.pkt).domain s.dt).fenceCheck
    u = x.movedOn lane j.pkt (s.pkt j.pkt).domain s.dt ∧ (u.pkt j.pkt).st = .finished ∧ u.order.pend = []
      ∧ (u.dom (s.pkt j.pkt).domain).commitSeq = (s.dom (s.pkt j.pkt).domain).commitSeq + 1
      ∧ SMap.get [] u.order.wal lane = [⟨j.pkt, (s.pkt j.pkt).domain, (s.pkt j.pkt).seq, j⟩] := by
  intro u
  obtain ⟨c, m, ho⟩ := hx
  have dom : x.dom (s.pkt j.pkt).domain = s.dom (s.pkt j.pkt).domain := by
    rw [State.dom, ho]
    rfl
  have unarmed : u = x.movedOn lane j.pkt (s.pkt j.pkt).domain s.dt := State.fenceCheck_unarmed (by
    show x.order.fence = none
    rw [ho]
    exact hf)
  refine ⟨unarmed, ?_, ?_, ?_, ?_⟩
  · rw [unarmed, State.movedOn_pkt]
  · rw [unarmed]
    show x.order.pend = []
    rw [ho]
    simp [State.logged, State.updOrder, hp]
  · rw [unarmed, State.movedOn_dom, dom, Dom.advance_commitSeq _ hv]
  · rw [unarmed]
    show SMap.get [] x.order.wal lane = _
    rw [ho]
    simp [State.logged, State.updOrder, hw]

/-- What COMMIT leaves of a released packet whose journal is a lone entry, without a fence (R211, R214). -/
def State.Released (s : State) (lane : Nat) (j : PendJ) (u : State) : Prop :=
  (u.pkt j.pkt).st = .finished ∧ u.order.pend = []
    ∧ (u.dom (s.pkt j.pkt).domain).commitSeq = (s.dom (s.pkt j.pkt).domain).commitSeq + 1
    ∧ SMap.get [] u.order.wal lane = [⟨j.pkt, (s.pkt j.pkt).domain, (s.pkt j.pkt).seq, j⟩]

section
variable {s : State} {lane : Nat} {j : PendJ} (hl : lane < 16) (hr : s.order.commitReset = false)
  (hs : s.order.stopped = false) (hb : lane ∉ s.order.badLanes) (hp : s.order.pend = [j])
  (hd : (s.pkt j.pkt).domain % 16 = lane) (hrel : s.releasable j = true) (hw : SMap.get [] s.order.wal lane = [])
  (hu : j.run.used < 16384) (hf : s.order.fence = none) (hm : s.order.marks = []) (hj : j.forced = none)
  (hct : (s.rc j.pkt).ct = false) (hv : (s.dom (s.pkt j.pkt).domain).voids = [])
include hl hr hs hb hp hd hrel hw hu hf hm hj hct hv

theorem commit_count (a k : Nat) (f : Bool) (n : Nat) (b : W64) (hjr : j.run.journal = [.count a k f n b]) :
    ∃ u, exec (.commit lane) s = .next u ∧ s.Released lane j u
      ∧ SMap.get {} u.tables.counters k = (SMap.get {} s.tables.counters k).add n
        (b + if f then BitVec.ofNat 64 (s.pkt j.pkt).bytes.length else 0) := by
  obtain ⟨order, counted⟩ := State.applyRec_count (s := s.logged lane j)
    (r := ⟨j.pkt, (s.pkt j.pkt).domain, (s.pkt j.pkt).seq, j⟩) hjr hct hm
  have run := commit_releases hl hr hs hb hp hd hrel hw hu
  generalize (s.logged lane j).applyRec _ = x at run order counted
  obtain ⟨c, e, d, ended⟩ := x.quietEnd_frame j.pkt hj
  have kept : (s.logged lane j).OrderKept (x.quietEnd j.pkt j) := by
    rw [ended]
    exact order.trans ⟨_, _, rfl⟩
  obtain ⟨unarmed, rest⟩ := State.movedOn_rest hp hw hf hv kept
  refine ⟨_, run, rest, ?_⟩
  rw [unarmed]
  show SMap.get {} (x.quietEnd j.pkt j).tables.counters k = _
  rw [ended]
  exact counted

theorem commit_emit (a h q : Nat) (ts : Bool) (ops : Nat) (edit : List Byte)
    (hjr : j.run.journal = [.emit a h q false ts none ops edit]) :
    let c := s.mkCopy j.pkt j.run.journal a h q ts none ops edit none 0
    s.copyPump c < 8 → ∃ u, exec (.commit lane) s = .next u ∧ s.Released lane j u
      ∧ (u.pump (s.copyPump c)).arrivals = (s.pump (s.copyPump c)).arrivals ++ [c] := by
  intro c h8
  obtain ⟨order, arrived⟩ := State.applyRec_emit (s := s.logged lane j)
    (r := ⟨j.pkt, (s.pkt j.pkt).domain, (s.pkt j.pkt).seq, j⟩) hjr hct hm c rfl h8
  have run := commit_releases hl hr hs hb hp hd hrel hw hu
  rw [State.quietEnd_sends _ _ hj (by simp [hjr, JEntry.sends])] at run
  obtain ⟨unarmed, rest⟩ := State.movedOn_rest hp hw hf hv order
  exact ⟨_, run, rest, by rw [unarmed]; exact arrived⟩

end

/-! ### Dispatch (R194, R196-R198) -/

theorem State.traceRec_wakeStep (s : State) (t kind detail : Nat) (addr : W64) :
    s.WakeStep (s.traceRec t kind detail addr) := by
  have put (r : TraceRec) : s.WakeStep (s.tracePut (clusterOf t) r) := by
    unfold State.tracePut
    dsimp only
    split
    · exact .of_clusters s _
    · split
      · exact .of_clusters s _
      · exact .of_clusters s _
  unfold State.traceRec
  extract_lets c tr wanted
  split
  · exact put _
  · exact .refl s

/-- A run starts: the thread has its packet and cleared registers (R196, R246). -/
theorem State.startRun_effect (s : State) (t p : Nat) : ((s.startRun t p).tr t).cur = some p
    ∧ ((s.startRun t p).pkt p).st = .run t ∧ (s.startRun t p).order.list = s.order.list
    ∧ ((s.startRun t p).rc p).imageVer = (s.rc p).imageVer ∧ ∀ r, (s.startRun t p).reg t r = 0 := by
  unfold State.startRun
  extract_lets c k entry s1 s2 s3 s4
  have woke : s3.WakeStep (s4.traceRec t 2 0 (s4.runId p)) :=
    (s3.ungate_wakeStep (coreOf t)).trans (s4.traceRec_wakeStep t 2 0 (s4.runId p))
  refine ⟨?_, ?_, ?_, ?_, fun r => ?_⟩
  · rw [woke.tr]
    show (s2.tr t).cur = some p
    simp only [s2, State.updTr_tr]
  · rw [State.pkt_of_order woke.order]
    simp only [s3, State.updRc_pkt, State.updPkt_pkt]
  · rw [woke.order]
    rfl
  · rw [State.rc_of_order woke.order]
    simp only [s3, State.updRc_rc, State.updPkt_rc]
    rfl
  · rw [State.reg, woke.thr]
    show (s1.thr t).get r = 0
    simp only [s1, State.updThr_thr]
    simp [Thr.get, SMap.get]

theorem State.place_some {s : State} {p c t : Nat} (h : s.place p = some (c, t)) :
    s.chooseCluster p = some c ∧ s.chooseThread p c = some t := by
  unfold State.place at h
  split at h
  · cases h
  · split at h
    · next c' hc =>
      obtain ⟨t', ht, e⟩ := Option.map_eq_some_iff.1 h
      obtain ⟨rfl, rfl⟩ := Prod.mk.inj e
      exact ⟨hc, ht⟩
    · cases h

/-- A thread chosen in a cluster is one of its threads. -/
theorem State.chooseThread_cluster {s : State} {p c t : Nat} (h : s.chooseThread p c = some t) : clusterOf t = c := by
  have free : t ∈ s.freeSlots c (s.avoidCore p) := by
    unfold State.chooseThread at h
    extract_lets l rot at h
    have turn : t ∈ rot := by
      split at h
      · next u hu =>
        obtain rfl := Option.some.inj h
        exact List.mem_of_find?_eq_some hu
      · exact List.mem_of_head? h
    rcases List.mem_append.1 turn with h | h
    · exact (List.mem_filter.1 h).1
    · exact (List.mem_filter.1 h).1
  obtain ⟨k, hk, rfl⟩ := List.mem_map.1 (List.mem_filter.1 free).1
  have := List.mem_range.1 hk
  simp only [clusterOf]
  omega

/-- An eligible cluster that the packet prefers is the one chosen (R198). -/
theorem State.chooseCluster_preferred {s : State} {p : Nat} (h0 : (s.pkt p).pref ≠ 0) (h12 : (s.pkt p).pref ≤ 12)
    (he : s.clusterEligible p ((s.pkt p).pref - 1) (s.avoidCore p) = true) :
    s.chooseCluster p = some ((s.pkt p).pref - 1) := by
  have among : ((List.range 12).filter fun c => s.clusterEligible p c (s.avoidCore p)).contains ((s.pkt p).pref - 1) = true := by
    rw [List.contains_iff_mem, List.mem_filter, List.mem_range]
    exact ⟨by omega, he⟩
  unfold State.chooseCluster
  dsimp only
  rw [if_pos ⟨h0, among⟩]

/-- Without a fence, a slot whose CURRENT is empty takes the packet at once (R194, R196). -/
theorem State.fillSlot_empty {s : State} {p c t : Nat} (hf : s.order.fence = none) (hc : (s.tr t).cur = none) :
    ∃ v : State, s.fillSlot p c t = v.startRun t p ∧ v.order.list = s.order.list.filter (· ≠ p)
      ∧ (v.rc p).imageVer = (s.cl c).version := by
  let v := ((s.toCluster p c).listDrop p).updOrder fun o => { o with lastCluster := c, lastThread := t }
  have unfenced : s.toCluster p c = s.updRc p fun r => { r with
      imageVer := (s.cl c).version, dispatchDt := s.dt, firstDone := true, fenced := r.fenced || false } := by
    simp [State.toCluster, State.fenceDispatch, hf]
  have free : (v.tr t).cur = none := by
    show ((s.toCluster p c).tr t).cur = none
    rw [unfenced]
    exact hc
  refine ⟨v, ?_, ?_, ?_⟩
  · unfold State.fillSlot
    dsimp only
    rw [if_pos (Option.isNone_iff_eq_none.2 free)]
  · show (s.toCluster p c).order.list.filter (· ≠ p) = _
    rw [unfenced]
    rfl
  · show ((s.toCluster p c).rc p).imageVer = _
    rw [unfenced, State.updRc_rc]

theorem dispatch_effect (s : State) (p c t : Nat) (hs : s.order.stopped = false) (hl : s.order.list = [p])
    (hf : s.order.fence = none) (hp : s.place p = some (c, t)) :
    ((s.pkt p).pref ≠ 0 → (s.pkt p).pref ≤ 12 → s.clusterEligible p ((s.pkt p).pref - 1) (s.avoidCore p) = true →
      c = (s.pkt p).pref - 1 ∧ clusterOf t = c)
    ∧ ((s.tr t).cur = none → ∀ i, (i = .dispatch ∨ (i = .affinityWaitExpiry p ∧ (s.pkt p).pref ≠ 0
        ∧ (s.rc p).listDt + s.order.cfg.affinityWait ≤ s.dt)) → ∃ u, exec i s = .next u ∧ (u.tr t).cur = some p
      ∧ (u.pkt p).st = .run t ∧ u.order.list = [] ∧ (u.rc p).imageVer = (s.cl c).version ∧ ∀ r, u.reg t r = 0) := by
  obtain ⟨cluster, thread⟩ := State.place_some hp
  refine ⟨fun h0 h12 he => ?_, fun hc i hi => ?_⟩
  · have := Option.some.inj (cluster.symm.trans (State.chooseCluster_preferred h0 h12 he))
    exact ⟨this, State.chooseThread_cluster thread⟩
  · have fills : exec i s = .next (s.fillSlot p c t) := by
      rcases hi with rfl | ⟨rfl, h0, ht⟩
      · show execDispatch s = _
        simp [execDispatch, hs, hl, hp, done]
      · show execAffinityWaitExpiry p s = _
        simp [execAffinityWaitExpiry, hs, hl, hp, h0, Nat.not_lt.2 ht, done]
    obtain ⟨v, filled, list, version⟩ := State.fillSlot_empty (p := p) (c := c) hf hc
    obtain ⟨cur, st, kept, record, regs⟩ := v.startRun_effect t p
    rw [← filled] at cur st kept record regs
    exact ⟨_, fills, cur, st, by simp [kept, list, hl], record.trans version, regs⟩

/-! ### Cut-through (R27) -/

@[simp] theorem State.updPump_rc (s : State) (n p : Nat) (g : Pump → Pump) : (s.updPump n g).rc p = s.rc p := rfl

@[simp] theorem State.updEport_rc (s : State) (n p : Nat) (g : EPort → EPort) : (s.updEport n g).rc p = s.rc p := rfl

theorem cutThroughStart_effect (s : State) (p phys : Nat) (c : Copy) (h : s.ctCopy p = some (phys, c)) :
    ∃ u, exec (.cutThroughStart p) s = .next u ∧ (u.rc p).ct = true
      ∧ (u.eport phys).now = some ⟨c, [], none, s.dt, s.qns⟩ := by
  refine ⟨(((s.ctVisit phys c).updRc p fun r => { r with ct := true }).updPump (wellOf phys) fun x =>
    x.hold p c.emit c.slots).updEport phys fun x => { x with
      now := some ⟨c, [], none, s.dt, s.qns⟩, lastGroup := c.queue / 8 }, ?_, ?_, by rw [State.updEport_eport]⟩
  · show execCutThroughStart p s = _
    unfold execCutThroughStart
    rw [h]
    rfl
  · rw [State.updEport_rc, State.updPump_rc, State.updRc_rc]

/-! ### The log (R214, R216, R217) -/

theorem logRecordAck_effect (s : State) (lane : Nat) (r : WalRec) (rest : List WalRec)
    (hw : SMap.get [] s.order.wal lane = r :: rest) (hr : s.order.commitReset = false)
    (ha : ∀ n, (s.pump n).arrivals = []) :
    ∃ u, exec (.logRecordAck lane) s = .next u ∧ SMap.get [] u.order.wal lane = rest := by
  refine ⟨s.updOrder fun o => { o with wal := SMap.set [] o.wal lane rest }, ?_, SMap.get_set_self ..⟩
  show execLogRecordAck lane s = _
  simp [execLogRecordAck, hw, hr, ha, done]

theorem commitResetResume_effect (s : State) (h : s.order.commitReset = true) :
    ∃ u, exec .commitResetResume s = .next u ∧ u.order.commitReset = false := by
  refine ⟨((s.order.wal.flatMap fun e => e.2).foldl State.applyRec s).updOrder fun o => { o with commitReset := false },
    ?_, rfl⟩
  show execCommitResetResume s = _
  simp [execCommitResetResume, h, done]

@[simp] theorem State.event_order (s : State) (code : Nat) (fields : List (Nat × Nat)) :
    (s.event code fields).order = s.order := by
  obtain ⟨o, d, l, n, h⟩ := State.event_frame s code fields
  rw [h]

theorem mem_insNat (l : List Nat) (k : Nat) : k ∈ insNat l k := by
  induction l with
  | nil => simp [insNat]
  | cons a rest ih =>
    unfold insNat
    split
    · simp
    · split
      · next h => simp [h]
      · exact List.mem_cons_of_mem _ ih

theorem walUncorrectable_effect (s : State) (lane pos : Nat) (hl : lane < 16) :
    ∃ u, exec (.walUncorrectable lane pos) s = .next u ∧ u.order.commitFault = true
      ∧ lane ∈ u.order.badLanes ∧ u.order.wal = s.order.wal := by
  let v := (s.updOrder fun o => { o with commitFault := true, badLanes := insNat o.badLanes lane }).errCnt 6 fun k => { k with
    uncorrectable := k.uncorrectable + 1 }
  have order : (v.event 0x0400 [(1, lane), (4, pos)]).order = { s.order with
      commitFault := true, badLanes := insNat s.order.badLanes lane } := State.event_order v ..
  refine ⟨v.event 0x0400 [(1, lane), (4, pos)], ?_, by rw [order], by rw [order]; exact mem_insNat .., by rw [order]⟩
  show execWalUncorrectable lane pos s = _
  unfold execWalUncorrectable
  rw [if_neg (Nat.not_le.2 hl)]
  rfl

/-! ### Fence drains and stalls (R238, R244) -/

theorem fenceDrainExpiry_effect (s : State) (f : Fence) (e p : Nat) (x : Pkt) (hf : s.order.fence = some f)
    (he : f.drainEnd = some e) (ht : e ≤ s.dt) (hp : s.order.pkts = [(p, x)]) (hs : x.hasSeq = true)
    (hst : x.st = .listed) (hr : x.refusal = none) (hc : f.covers x.domain = true) (hb : s.beforeSwitch f p = true)
    (hct : (s.rc p).ct = false) (hfc : s.isForced p = false) :
    ∃ u, exec .fenceDrainExpiry s = .next u ∧ u.order.fence = some { f with drainEnd := none, breaks := f.breaks + 1 }
      ∧ (u.rc p).fenced = true ∧ u.order.cnt.fenceBreak = s.order.cnt.fenceBreak + 1 := by
  let s1 := s.updOrder fun o => { o with fence := some { f with drainEnd := none, breaks := f.breaks + 1 } }
  let s2 := (s1.updRc p fun r => r.mark .fenced).updCnt fun c => { c with fenceBreak := c.fenceBreak + 1 }
  have packet : s1.pkt p = x := by
    show SMap.get {} s.order.pkts p = x
    simp [hp, SMap.get]
  have pulled : s1.pullBack p = s1.updRc p fun r => r.mark .fenced := by
    simp [State.pullBack, packet, hst]
  have left : (s.order.pkts.filter fun y => y.2.hasSeq && y.2.st ≠ .finished && y.2.refusal.isNone && f.covers y.2.domain
      && s.beforeSwitch f y.1 && !(s.rc y.1).ct && !s.isForced y.1).map Prod.fst = [p] := by
    simp [hp, hs, hst, hr, hc, hb, hct, hfc]
  have order := s2.event_order 0x0401 [(1, 1), (2, f.version), (4, f.breaks + 1)]
  refine ⟨s2.event 0x0401 [(1, 1), (2, f.version), (4, f.breaks + 1)], ?_, by rw [order]; rfl, ?_, by rw [order]; rfl⟩
  · show execFenceDrainExpiry s = _
    unfold execFenceDrainExpiry
    rw [hf]
    dsimp only
    rw [he]
    dsimp only
    rw [if_neg (Nat.not_lt.2 ht), left]
    simp only [List.length_singleton, List.foldl_cons, List.foldl_nil, List.isEmpty_cons, Bool.false_eq_true, if_false]
    show done (((s1.pullBack p).updCnt fun c => { c with fenceBreak := c.fenceBreak + 1 }).event 0x0401
      [(1, 1), (2, f.version), (4, f.breaks + 1)]) = _
    rw [pulled]
    rfl
  · rw [State.rc_of_order order]
    simp only [s2, State.updCnt_rc, State.updRc_rc]
    rfl

theorem orderStallTimer_effect (s : State) (d : Nat) (h0 : s.order.cfg.stallTime ≠ 0) (hl : (s.dom d).live ≠ 0)
    (hs : (s.dom d).stalled = false) (ht : (s.dom d).since + 1000000 * s.order.cfg.stallTime ≤ s.dt) :
    ∃ u, exec (.orderStallTimer d) s = .next u ∧ (u.dom d).stalled = true
      ∧ (u.dom d).commitSeq = (s.dom d).commitSeq := by
  have marked (fields : List (Nat × Nat)) : ((s.updDom d fun x => { x with stalled := true }).event 0x0402 fields).dom d
      = { s.dom d with stalled := true } := by
    rw [State.dom_of_order (State.event_order ..), State.updDom_dom]
  have holds : ¬(s.order.cfg.stallTime = 0 ∨ (s.dom d).live = 0 ∨ (s.dom d).stalled
      ∨ s.dt < (s.dom d).since + 1000000 * s.order.cfg.stallTime) := by
    simp [h0, hl, hs, Nat.not_lt.2 ht]
  have run : execOrderStallTimer d s = _ := if_neg holds
  exact ⟨_, run, by rw [marked], by rw [marked]⟩

/-- Settles O36: each clause is a lemma about its command. -/
theorem dispatchAndCommit : Obligations.DispatchAndCommit := by
  unfold Obligations.DispatchAndCommit
  exact ⟨dispatch_effect, commit_unreleasable,
    fun s lane j hl hr hs hb hp hd hrel hw hu hf hm hj hct hv =>
      ⟨commit_count hl hr hs hb hp hd hrel hw hu hf hm hj hct hv, commit_emit hl hr hs hb hp hd hrel hw hu hf hm hj hct hv⟩,
    cutThroughStart_effect, logRecordAck_effect, commitResetResume_effect, walUncorrectable_effect,
    fenceDrainExpiry_effect, orderStallTimer_effect⟩

end Sys2Proof.Machine
end

section
/-!
PROOFS. Rules that the time and the ledger commands share: how a command answers its body's result (R488, R495), what an
event leaves alone (R486), and how epochs open, close and are sealed (R65-R68, R435-R438).
-/

namespace Sys2Proof.Machine

/-! ### Answers of commands (R485, R488, R495) -/

theorem State.tooLong_later (s : State) (c : Sys2Proof.CmdRef) : s.tooLong c .later = false := by
  unfold State.tooLong
  split
  · next h => cases h
  · rfl

/-- An accepted command whose result fits answers what its body answers, over what its body leaves. -/
theorem State.command_answers {s u : State} {c : Sys2Proof.CmdRef} {op : Nat} {fields : List (Nat × Nat)}
    {body : State → State × Ans} {a : Ans} (h : s.accepts c op fields) (hb : body s = (u, a))
    (ht : s.tooLong c a = false) : s.command c op fields body = .next (u.answer c a) := by
  rw [State.command_accepts s c op fields body h, hb]
  simp [ht]

theorem State.command_ok {s u : State} {c : Sys2Proof.CmdRef} {op : Nat} {fields : List (Nat × Nat)}
    {body : State → State × Ans} (h : s.accepts c op fields) (hb : body s = (u, .ok)) :
    s.command c op fields body = .next (u.answer c .ok) :=
  State.command_answers h hb (State.tooLong_status ..)

theorem State.command_status {s u : State} {c : Sys2Proof.CmdRef} {op k : Nat} {fields : List (Nat × Nat)}
    {body : State → State × Ans} (h : s.accepts c op fields) (hb : body s = (u, .status k)) :
    s.command c op fields body = .next (u.answer c (.status k)) :=
  State.command_answers h hb (State.tooLong_status ..)

theorem State.command_later {s u : State} {c : Sys2Proof.CmdRef} {op : Nat} {fields : List (Nat × Nat)}
    {body : State → State × Ans} (h : s.accepts c op fields) (hb : body s = (u, .later)) :
    s.command c op fields body = .next (u.answer c .later) :=
  State.command_answers h hb (State.tooLong_later ..)

/-- A command that only reads answers its bytes over the state it found, whether they fit or not. -/
theorem State.command_reads {s : State} {c : Sys2Proof.CmdRef} {op : Nat} {fields : List (Nat × Nat)}
    {body : State → State × Ans} {a : Ans} (h : s.accepts c op fields) (hb : body s = (s, a)) :
    s.command c op fields body = .next (s.answer c a) := by
  rw [State.command_accepts s c op fields body h, hb, ite_self]

/-! ### Events leave device time and the ledger alone (R486) -/

@[simp] theorem State.event_time (s : State) (code : Nat) (fields : List (Nat × Nat)) :
    (s.event code fields).time = s.time := by
  obtain ⟨o, d, l, n, h⟩ := State.event_frame s code fields
  rw [h]

@[simp] theorem State.event_ledger (s : State) (code : Nat) (fields : List (Nat × Nat)) :
    (s.event code fields).ledger = s.ledger := by
  obtain ⟨o, d, l, n, h⟩ := State.event_frame s code fields
  rw [h]

@[simp] theorem State.updLedger_ledger (s : State) (f : LedgerSt → LedgerSt) : (s.updLedger f).ledger = f s.ledger := rfl

@[simp] theorem State.updTime_time (s : State) (f : TimeSt → TimeSt) : (s.updTime f).time = f s.time := rfl

/-! ### Sealing (R435, R437, R438) -/

/-- The slots of the ring, 0 while there is none. -/
def State.slots (s : State) : Nat := (s.ledger.ring.map (·.slots)).getD 0

/-- The record of an epoch at its seal. -/
def State.sealed (s : State) (e : LEpoch) : LEpoch :=
  { e with phase := .sealed, graceUs := Nat.min ((s.dt - e.graceFrom) / 1000) 100000 }

/-- The records once epoch `e` is sealed: its own joins them, and the one in the slot of the epoch after next leaves. -/
def State.retained (s : State) (e : LEpoch) : List LEpoch :=
  (s.ledger.recs ++ [s.sealed e]).filter fun x => !decide (s.slots ≤ e.no + 2 ∧ x.no = e.no + 2 - s.slots)

theorem State.sealClosing_none {s : State} (h : s.ledger.closing = none) : s.sealClosing = s := by
  rw [State.sealClosing, h]

theorem State.sealClosing_some {s : State} {e : LEpoch} (h : s.ledger.closing = some e) :
    ∃ n, s.sealClosing.ledger = { s.ledger with
      closing := none, lastSeal := s.time.ns, lost := n, recs := s.retained e } := by
  unfold State.sealClosing
  split
  · next hn => simp [hn] at h
  · next x hx =>
    obtain rfl : x = e := Option.some.inj (hx.symm.trans h)
    extract_lets slots rec' s1 gone t s2 old
    have hs : slots = s.slots := by
      simp only [slots, State.slots]
      cases s.ledger.ring <;> rfl
    have kept : ∃ n, s2.ledger = { s.ledger with
        closing := none, lastSeal := s.time.ns, lost := n, recs := s.retained x } := by
      by_cases hk : slots ≤ x.no + 2
      · have recs : t.ledger.recs = s.retained x :=
          List.filter_congr fun r _ => by simp [← hs, hk, gone]
        simp only [s2, if_pos hk]
        split
        · exact ⟨_, by rw [State.event_ledger, ← recs]; rfl⟩
        · exact ⟨_, by rw [← recs]; rfl⟩
      · have recs : s1.ledger.recs = s.retained x :=
          (List.filter_eq_self.2 fun r _ => by simp [← hs, hk]).symm
        simp only [s2, if_neg hk]
        exact ⟨_, by rw [← recs]; rfl⟩
    obtain ⟨n, hn⟩ := kept
    refine ⟨n, ?_⟩
    split
    · rw [State.event_ledger, hn]
    · exact hn

/-- Whatever sealing does, it leaves the open epoch, its number, the lengths and the grace as they were. -/
theorem State.sealClosing_kept (s : State) : ∃ c r l n, s.sealClosing.ledger = { s.ledger with
    closing := c, recs := r, lastSeal := l, lost := n } := by
  cases h : s.ledger.closing with
  | none => exact ⟨_, _, _, _, by rw [State.sealClosing_none h]⟩
  | some e =>
    obtain ⟨n, hn⟩ := State.sealClosing_some h
    exact ⟨_, _, _, _, hn⟩

@[simp] theorem State.sealClosing_time (s : State) : s.sealClosing.time = s.time := by
  unfold State.sealClosing
  split
  · rfl
  · extract_lets slots rec' s1 gone t s2 old
    have kept : s2.time = s.time := by
      simp only [s2]
      split
      · split
        · rw [State.event_time]
          rfl
        · rfl
      · rfl
    split
    · rw [State.event_time, kept]
    · exact kept

/-! ### Epochs open and close (R65-R69, R435) -/

/-- The epoch that opens at DT `t` (R65-R67). -/
def State.nextEpoch (s : State) (t : Nat) : LEpoch :=
  { no := s.ledger.nextNo, start := t, endAt := nextMultiple (s.ledger.lengthS * secNs) t
    lenNs := s.ledger.lengthS * secNs, holdover := s.time.st ≠ .locked }

@[simp] theorem State.openEpoch_ledger (s : State) (t : Nat) : (s.openEpoch t).ledger
    = { s.ledger with openEp := some (s.nextEpoch t), nextNo := s.ledger.nextNo + 1 } := rfl

@[simp] theorem State.openEpoch_time (s : State) (t : Nat) : (s.openEpoch t).time = s.time := rfl

/-- An epoch that has closed at DT `t`, whose grace of `ms` counts from `g` (R435). -/
def LEpoch.closed (e : LEpoch) (t g ms : Nat) : LEpoch :=
  { e with phase := .closing, stop := t, graceFrom := g, sealAt := g + 1000000 * ms }

theorem State.closeOpen_ledger {s : State} {e : LEpoch} (h : s.ledger.openEp = some e) (t g : Nat) :
    (s.closeOpen t g).ledger = { s.sealClosing.ledger with
      openEp := none, closing := some (e.closed t g s.ledger.graceMs) } := by
  obtain ⟨c, r, l, n, kept⟩ := s.sealClosing_kept
  have grace : s.sealClosing.ledger.graceMs = s.ledger.graceMs := by rw [kept]
  simp only [State.closeOpen, h, State.updLedger_ledger, grace, LEpoch.closed]

@[simp] theorem State.closeOpen_time (s : State) (t g : Nat) : (s.closeOpen t g).time = s.time := by
  unfold State.closeOpen
  split
  · rfl
  · exact s.sealClosing_time

end Sys2Proof.Machine
end

section
/-!
PROOFS. O28 and O53: how epochs open, close and are sealed, how their records are completed (R65-R67, R435, R437,
R440-R442), and that the first epoch runs to the next boundary.
-/

namespace Sys2Proof.Machine

/-! ### Boundaries (R65, R67) -/

theorem nextMultiple_gt {len : Nat} (h : 0 < len) (t : Nat) : t < nextMultiple len t := by
  rw [nextMultiple, Nat.mul_comm]
  exact Nat.lt_mul_div_succ t h

theorem nextMultiple_le (len t : Nat) : nextMultiple len t ≤ t + len := by
  rw [nextMultiple, Nat.succ_mul]
  exact Nat.add_le_add_right (Nat.div_mul_le_self t len) len

theorem nextMultiple_mod (len t : Nat) : nextMultiple len t % len = 0 := Nat.mul_mod_left _ _

/-- The way to the next boundary is a whole length exactly from a boundary. -/
theorem nextMultiple_sub (len t : Nat) : nextMultiple len t - t = len ↔ t % len = 0 ∨ len = 0 := by
  have parts : t / len * len + t % len = t := Nat.div_add_mod' t len
  rw [nextMultiple, Nat.succ_mul]
  omega

/-- Bit 1 of FLAGS, SHORT: the epoch ended before its length had passed (R440). -/
theorem LEpoch.flags_short (e : LEpoch) : e.flags / 2 % 2 = 1 ↔ e.stop - e.start ≠ e.lenNs := by
  have bit0 := Bool.toNat_le e.holdover
  have bit1 := Bool.toNat_le (decide (e.stop - e.start ≠ e.lenNs))
  have short : (decide (e.stop - e.start ≠ e.lenNs)).toNat = 1 ↔ e.stop - e.start ≠ e.lenNs := by simp
  rw [← short, LEpoch.flags]
  omega

/-! ### EPOCH_CLOSE, EPOCH_SEAL (R65, R435, R437) -/

theorem epochClose_effect (s : State) (e : LEpoch) (h : s.ledger.openEp = some e) (ht : e.endAt ≤ s.dt) :
    ∃ u o, exec .epochClose s = .next u ∧ u.ledger.openEp = some o ∧ o.no = s.ledger.nextNo ∧ o.start = e.endAt
      ∧ o.lenNs = s.ledger.nextLength * 1000000000 ∧ o.endAt = nextMultiple o.lenNs e.endAt ∧ o.slot = [] ∧ o.res = []
      ∧ u.ledger.nextNo = s.ledger.nextNo + 1
      ∧ u.ledger.closing = some { e with
          phase := .closing, stop := e.endAt, graceFrom := e.endAt, sealAt := e.endAt + 1000000 * s.ledger.graceMs }
      ∧ (s.ledger.closing = none → u.ledger.recs = s.ledger.recs) := by
  let s1 := (s.closeOpen e.endAt e.endAt).updLedger fun l => { l with lengthS := l.nextLength }
  have run : exec .epochClose s = .next (s1.openEpoch e.endAt) := by
    show execEpochClose s = _
    simp only [execEpochClose, h, if_neg (Nat.not_lt.2 ht)]
    rfl
  obtain ⟨c, r, l, n, kept⟩ := s.sealClosing_kept
  have closed := State.closeOpen_ledger h e.endAt e.endAt
  have number : s1.ledger.nextNo = s.ledger.nextNo := by simp [s1, closed, kept]
  have length : s1.ledger.lengthS = s.ledger.nextLength := by simp [s1, closed, kept]
  refine ⟨_, s1.nextEpoch e.endAt, run, rfl, number, rfl, congrArg (· * secNs) length, rfl, rfl, rfl,
    congrArg (· + 1) number, ?_, fun hc => ?_⟩
  · rw [State.openEpoch_ledger]
    simp only [s1, State.updLedger_ledger, closed, LEpoch.closed]
  · rw [State.openEpoch_ledger]
    simp only [s1, State.updLedger_ledger, closed, State.sealClosing_none hc]

theorem epochSeal_effect (s : State) (e : LEpoch) (r : Ring) (hc : s.ledger.closing = some e)
    (hr : s.ledger.ring = some r) (ht : e.sealAt ≤ s.dt) :
    ∃ u, exec .epochSeal s = .next u ∧ u.ledger.closing = none ∧ u.ledger.lastSeal = s.time.ns
      ∧ u.ledger.recs = (s.ledger.recs ++ [{ e with
        phase := .sealed, graceUs := Nat.min ((s.dt - e.graceFrom) / 1000) 100000 }]).filter fun x =>
          !decide (r.slots ≤ e.no + 2 ∧ x.no = e.no + 2 - r.slots) := by
  have run : exec .epochSeal s = .next s.sealClosing := by
    show execEpochSeal s = _
    simp only [execEpochSeal, hc, if_neg (Nat.not_lt.2 ht)]
    rfl
  obtain ⟨n, sealed⟩ := State.sealClosing_some hc
  refine ⟨_, run, by rw [sealed], by rw [sealed], ?_⟩
  rw [sealed]
  simp only [State.retained, State.sealed, State.slots, hr, Option.map_some, Option.getD_some]

/-! ### Residuals (R433, R435) -/

theorem SMap.get_of_lt {α : Type} (d : α) (m : SMap α) (k : Nat) (h : ∀ p ∈ m, k < p.1) : SMap.get d m k = d := by
  induction m with
  | nil => rfl
  | cons p rest ih =>
    have hp : p.1 ≠ k := (Nat.ne_of_lt (h p (by simp))).symm
    simpa [SMap.get, hp] using ih fun q hq => h q (List.mem_cons_of_mem _ hq)

/-- Adding a table's entries one by one to counters adds its entry to each counter. -/
theorem SMap.get_foldl_add (m : SMap Nat) (a : SMap W64) (h : SMap.wf 0 m = true) (k : Nat) :
    SMap.get 0 (m.foldl (fun m p => SMap.set 0 m p.1 (SMap.get 0 m p.1 + BitVec.ofNat 64 p.2)) a) k
      = SMap.get 0 a k + BitVec.ofNat 64 (SMap.get 0 m k) := by
  induction m generalizing a with
  | nil => simp [SMap.get]
  | cons p rest ih =>
    simp only [SMap.wf, Bool.and_eq_true, List.all_eq_true, decide_eq_true_eq] at h
    obtain ⟨⟨-, above⟩, hw⟩ := h
    rw [List.foldl_cons, ih _ hw, SMap.get_set, SMap.get]
    by_cases hk : k = p.1
    · subst hk
      simp [SMap.get_of_lt 0 rest p.1 above]
    · simp [hk, Ne.symm hk]

theorem LEpoch.sumUp_slot (e : LEpoch) (h : SMap.wf 0 e.res = true) (k : Nat) :
    SMap.get 0 e.sumUp.slot k = SMap.get 0 e.slot k + BitVec.ofNat 64 (SMap.get 0 e.res k) :=
  SMap.get_foldl_add e.res e.slot h k

theorem sealResidualsDone_effect (s : State) (e : LEpoch) (h : (s.ledger.recs.find? fun x => x.phase = .sealed) = some e)
    (hw : SMap.wf 0 e.res = true) :
    ∃ u x, exec .sealResidualsDone s = .next u
      ∧ u.ledger.recs = s.ledger.recs.map (fun y =>
          if y.no = e.no then { e with phase := .summed, res := [], slot := x } else y)
      ∧ ∀ k, SMap.get 0 x k = SMap.get 0 e.slot k + BitVec.ofNat 64 (SMap.get 0 e.res k) := by
  refine ⟨s.setRec e.sumUp, e.sumUp.slot, ?_, rfl, e.sumUp_slot hw⟩
  show execSealResidualsDone s = _
  rw [execSealResidualsDone, h]
  rfl

/-! ### Digest and signature (R440, R441) -/

/-- What precedes a record in the chain of digests: the ring's statement, or the record before (R441, R442). -/
theorem State.prevDigest_eq {s : State} {r : Ring} {n : Nat} {p : List Byte}
    (h : n = 0 ∧ p = sm3 r.statement ∨ n ≠ 0 ∧ ∃ q, (s.ledger.recs.find? fun x => x.no + 1 = n) = some q
      ∧ q.digest ≠ [] ∧ p = q.digest) : s.prevDigest r n = some p := by
  obtain ⟨hn, hp⟩ | ⟨hn, q, hq, hd, hp⟩ := h
  · rw [State.prevDigest, if_pos hn, hp]
  · rw [State.prevDigest, if_neg hn, hq, hp]
    simp [hd]

theorem recordDigestDone_effect (s : State) (e : LEpoch) (r : Ring) (p : List Byte)
    (h : (s.ledger.recs.find? fun x => x.digest.isEmpty) = some e) (hr : s.ledger.ring = some r)
    (hf : s.ledger.fault = false) (he : e.phase = .summed)
    (hp : e.no = 0 ∧ p = sm3 r.statement ∨ e.no ≠ 0 ∧ ∃ q, (s.ledger.recs.find? fun x => x.no + 1 = e.no) = some q
      ∧ q.digest ≠ [] ∧ p = q.digest) :
    ∃ u x, exec .recordDigestDone s = .next u ∧ x = { e with prev := p }
      ∧ u.ledger.recs = s.ledger.recs.map (fun y => if y.no = e.no
          then { x with phase := .digested, digest := sm3 (x.bytes r.id 0 8388704) } else y) := by
  let x := { e with prev := p }
  refine ⟨s.setRec { x with digest := x.digestOf r.id, phase := .digested }, x, ?_, rfl, rfl⟩
  show execRecordDigestDone s = _
  simp only [execRecordDigestDone, hr, h, State.prevDigest_eq hp, he, hf]
  rfl

theorem recordSignDone_effect (s : State) (e : LEpoch) (r : Ring)
    (h : (s.ledger.recs.find? fun x => x.phase ≠ .signed) = some e) (hr : s.ledger.ring = some r)
    (hf : s.ledger.fault = false) (he : e.phase = .digested) :
    ∃ u, exec .recordSignDone s = .next u
      ∧ u.ledger.recs = s.ledger.recs.map (fun y => if y.no = e.no then { e with
        phase := .signed, sig := Config.sm2Sign r.key (ascii "QZMLEDGER1") e.digest (Config.freeWord s.free) } else y)
      ∧ u.ledger.damagedRecs = if e.damaged then s.ledger.damagedRecs + 1 else s.ledger.damagedRecs := by
  let x := { e with
    phase := .signed, sig := Config.sm2Sign r.key (ascii "QZMLEDGER1") e.digest (Config.freeWord s.free) }
  let s1 := (s.draw.2.setRec x).updLedger fun l => { l with
    damagedRecs := if e.damaged then l.damagedRecs + 1 else l.damagedRecs }
  refine ⟨s1.event 0x0600 [(2, x.flags), (8, x.no), (32, leVal x.digest)], ?_, ?_, ?_⟩
  · show execRecordSignDone s = _
    simp only [execRecordSignDone, hr, h, he, hf]
    rfl
  · rw [State.event_ledger]
    rfl
  · rw [State.event_ledger]
    rfl

/-- Settles O28: each clause is a lemma about its command. -/
theorem epochsAndRecords : Obligations.EpochsAndRecords := by
  unfold Obligations.EpochsAndRecords
  exact ⟨epochClose_effect, epochSeal_effect, sealResidualsDone_effect, recordDigestDone_effect, recordSignDone_effect⟩

/-! ### EPOCH_CONFIG starts epochs (R65-R67) -/

/-- The state in which an EPOCH_CONFIG has taken its length and its grace. -/
def State.epochSet (s : State) (len gr : Nat) : State := s.updLedger fun l => { l with
  nextLength := len, lengthS := if s.ledger.openEp.isSome then l.lengthS else len, graceMs := gr }

theorem epochConfigBody_start {s : State} {len gr : Nat} (h1 : 1 ≤ len) (h2 : len ≤ 3600) (h3 : gr ≤ 100)
    (hr : s.ledger.ring.isSome = true) (hf : s.ledger.fault = false) (ho : s.ledger.openEp = none) :
    epochConfigBody 0 len gr s = ((s.epochSet len gr).openEpoch s.dt, .ok) := by
  have hr : s.ledger.ring.isNone = false := by simpa [Option.isSome_iff_ne_none] using hr
  unfold epochConfigBody
  rw [if_neg (by omega), if_neg (by simp [hr, hf])]
  simp only [ho, State.epochSet]
  rfl

/-- What a start of epochs leaves: the first open epoch, begun now. -/
theorem epochConfig_start (s : State) (c : CmdRef) (len gr : Nat) (h1 : 1 ≤ len) (h2 : len ≤ 3600) (h3 : gr ≤ 100)
    (ha : s.accepts c 0x0504 [(1, 0), (2, len), (1, gr)]) (hr : s.ledger.ring.isSome = true)
    (hf : s.ledger.fault = false) (ho : s.ledger.openEp = none) :
    Claims.answersOk s (.epochConfig c 0 len gr) c fun u => ∃ o, u.ledger.openEp = some o ∧ o.no = s.ledger.nextNo
      ∧ o.start = s.dt ∧ o.lenNs = len * 1000000000 ∧ o.endAt = nextMultiple o.lenNs s.dt ∧ u.ledger.graceMs = gr := by
  have length : (s.epochSet len gr).ledger.lengthS = len := by simp [State.epochSet, ho]
  exact ⟨_, State.command_ok ha (epochConfigBody_start h1 h2 h3 hr hf ho), _, rfl, rfl, rfl,
    congrArg (· * secNs) length, rfl, rfl⟩

/-- Settles O53: the first epoch begins now and ends at the next multiple of its length, so it is short unless DT is one. -/
theorem firstEpoch : Obligations.FirstEpoch := by
  unfold Obligations.FirstEpoch
  intro s c len gr ha h1 h2 h3 hr hf ho
  obtain ⟨u, run, o, open_, -, start, length, ends, -⟩ := epochConfig_start s c len gr h1 h2 h3 ha hr hf ho
  rw [length] at ends
  refine ⟨u, run, o, open_, start, ?_, ?_, ?_, ?_⟩
  · rw [ends]
    exact nextMultiple_gt (by omega) s.dt
  · rw [ends]
    exact nextMultiple_le _ s.dt
  · rw [ends]
    exact nextMultiple_mod _ s.dt
  · rw [LEpoch.flags_short]
    show o.endAt - o.start ≠ o.lenNs ↔ _
    rw [start, length, ends, Ne, nextMultiple_sub]
    omega

end Sys2Proof.Machine
end

section
/-!
PROOFS. O29: the ledger commands (R65-R68, R442-R448).
-/

namespace Sys2Proof.Machine

/-! ### EPOCH_CONFIG stops epochs or sets their length (R66, R68, R69) -/

theorem epochConfigBody_stop {s : State} {len gr : Nat} (h1 : 1 ≤ len) (h2 : len ≤ 3600) (h3 : gr ≤ 100) :
    epochConfigBody 1 len gr s = (((s.closeOpen s.dt s.dt).updLedger fun l => { l with
      nextLength := len, lengthS := if s.ledger.openEp.isSome then l.lengthS else len
      graceMs := gr }).updLedger fun l => { l with lengthS := len }, .ok) := by
  unfold epochConfigBody
  rw [if_neg (by omega), if_neg (by simp)]
  rfl

theorem epochConfig_stop (s : State) (c : CmdRef) (len gr : Nat) (e : LEpoch) (h1 : 1 ≤ len) (h2 : len ≤ 3600)
    (h3 : gr ≤ 100) (ha : s.accepts c 0x0504 [(1, 1), (2, len), (1, gr)]) (he : s.ledger.openEp = some e) :
    Claims.answersOk s (.epochConfig c 1 len gr) c fun u => u.ledger.openEp = none
      ∧ ∃ x, u.ledger.closing = some x ∧ x.no = e.no ∧ x.stop = s.dt ∧ x.res = e.res ∧ x.slot = e.slot := by
  refine ⟨_, State.command_ok ha (epochConfigBody_stop h1 h2 h3), ?_, e.closed s.dt s.dt s.ledger.graceMs, ?_,
    rfl, rfl, rfl, rfl⟩
  · simp only [State.updLedger_ledger, State.closeOpen_ledger he]
  · simp only [State.updLedger_ledger, State.closeOpen_ledger he]

theorem epochConfig_set (s : State) (c : CmdRef) (len gr : Nat) (h1 : 1 ≤ len) (h2 : len ≤ 3600) (h3 : gr ≤ 100)
    (ha : s.accepts c 0x0504 [(1, 2), (2, len), (1, gr)]) :
    Claims.answersOk s (.epochConfig c 2 len gr) c fun u =>
      u.ledger.nextLength = len ∧ u.ledger.graceMs = gr ∧ u.ledger.openEp = s.ledger.openEp := by
  have body : epochConfigBody 2 len gr s = (s.epochSet len gr, .ok) := by
    unfold epochConfigBody
    rw [if_neg (by omega), if_neg (by simp)]
    rfl
  exact ⟨_, State.command_ok ha body, rfl, rfl, rfl⟩

/-! ### LEDGER_INIT (R442, R443) -/

theorem ringStart_goes {s : State} {n : Nat} {prev : Option LedgerPrev} (c : CmdRef) (h1 : 256 ≤ n) (h2 : n ≤ 8192)
    (hs : n * 8388608 ≤ s.regionSize 5) (hp : ∀ p, prev = some p → s.prevOk p = true) :
    ringStart c n prev s = (s.updLedger fun l => { l with init := some ⟨c, n, prev⟩ }, .later) := by
  unfold ringStart
  dsimp only
  rw [if_neg (by omega), if_neg (Nat.not_lt.2 hs)]
  cases prev with
  | none => rfl
  | some p => simp only [hp p rfl, if_true]

theorem ledgerInit_effect (s : State) (c : CmdRef) (n : Nat) (prev : Option LedgerPrev)
    (ha : s.accepts c 0x0600 (ledgerInitFields n prev)) (hi : s.ledger.init = none) (ht : s.trngBad = false)
    (hr : ∀ r, s.ledger.ring = some r → r.by_ ≠ c ∧ s.ledger.fault = true) (hp : ∀ p, prev = some p → s.prevOk p = true)
    (h1 : 256 ≤ n) (h2 : n ≤ 8192) (hs : n * 8388608 ≤ s.regionSize 5) :
    Claims.goesOn s (.ledgerInit c n prev) c fun u =>
      u.ledger.init = some ⟨c, n, prev⟩ ∧ u.ledger.ring = s.ledger.ring := by
  have starts := ringStart_goes c h1 h2 hs hp
  have body : ledgerInitBody c n prev s = (s.updLedger fun l => { l with init := some ⟨c, n, prev⟩ }, .later) := by
    unfold ledgerInitBody
    simp only [hi]
    cases hring : s.ledger.ring with
    | none => simp only [ht, Bool.false_eq_true, if_false, starts]
    | some r =>
      obtain ⟨other, fault⟩ := hr r hring
      simp only [other, fault, ht, Option.isSome_some, Bool.not_true, Bool.and_false, Bool.false_eq_true, if_false, starts]
  exact ⟨_, State.command_later ha body, rfl, rfl⟩

@[simp] theorem leBytes_length (n v : Nat) : (leBytes n v).length = n := by
  simp [leBytes]

@[simp] theorem slice_length (bs : List Byte) (o n : Nat) : (slice bs o n).length = n := by
  simp only [slice, List.length_append, List.length_replicate]
  have taken := List.length_take_le n (bs.drop o)
  omega

/-- The statement's bytes before its signature are 144 (R442). -/
theorem ringHead_length (id : W64) (dt slots : Nat) (prev : Option LedgerPrev) (pub : List Byte) :
    (ringHead id dt slots prev pub).length = 144 := by
  cases prev <;> simp [ringHead]

theorem ledgerInitDone_effect (s : State) (c : CmdRef) (i : RingInit) (hi : s.ledger.init = some i) (hc : i.c = c)
    (hr : s.running c 0x0600 = true) : ∃ (u : State) (r : Ring),
      exec (.ledgerInitDone c) s = .next (u.answer c (.data r.statement)) ∧ u.ledger.ring = some r ∧ r.slots = i.slots
        ∧ r.statement.take 144 = ringHead r.id s.dt i.slots i.prev r.pub ∧ r.pub = Config.sm2Public r.key
        ∧ u.ledger.nextNo = 0 ∧ u.ledger.init = none := by
  let k := s.drawBytes 32
  let d := k.2.draw
  let n := d.2.draw
  let pub := Config.sm2Public k.1
  let head := ringHead d.1 s.dt i.slots i.prev pub
  let r : Ring := ⟨d.1, i.slots, head ++ Config.sm2Sign s.idKey (ascii "QZMDEVICE1") (sm3 head) n.1, k.1, pub, c⟩
  refine ⟨n.2.updLedger fun l => { l with
    ring := some r, init := none, fault := false, nextNo := 0, recs := [], openEp := none, closing := none
    acked := none }, r, ?_, rfl, rfl, List.take_left' (ringHead_length ..), rfl, rfl, rfl⟩
  show execLedgerInitDone c s = _
  simp only [execLedgerInitDone, hi, if_neg (show ¬(i.c ≠ c ∨ (!s.running c 0x0600) = true) by simp [hc, hr])]
  rfl

/-! ### LEDGER_READ (R444, R445) -/

theorem ledgerRead_effect (s : State) (c : CmdRef) (e off len addr : Nat) (r : LEpoch) (ring : Ring)
    (ha : s.accepts c 0x0601 [(8, e), (4, off), (4, len), (8, addr)]) (ho : off % 64 = 0)
    (hl : len % 64 = 0 ∨ off + len = recordLen) (hn : off + len ≤ recordLen) (hu : s.ledger.unsigned e = false)
    (hr : s.ledger.record e = some r) (hring : s.ledger.ring = some ring) :
    Claims.goesOn s (.ledgerRead c e off len addr) c fun u => u.out.hostMem
      = s.out.hostMem ++ [⟨c.fn, addr, (List.range len).map fun k => r.byteAt ring.id (off + k)⟩] := by
  let w := s.hostWrite c.fn addr (r.bytes ring.id off len)
  have body : ledgerReadBody c e off len addr s = (w.updLedger fun l => { l with
      reads := l.reads.filter (fun x => x.c ≠ c) ++ [⟨c, e⟩] }, .later) := by
    unfold ledgerReadBody
    rw [if_neg (by omega), if_neg (by simp [hu])]
    simp only [hr, hring]
    rfl
  exact ⟨_, State.command_later ha body, rfl⟩

/-- The reading of a command that ends: it leaves the list of readings, and its answer tells of the record as it stands. -/
def State.readEnded (s : State) (c : Sys2Proof.CmdRef) : State :=
  s.updLedger fun l => { l with reads := l.reads.filter fun y => y.c ≠ c }

theorem execLedgerReadDone_eq {s : State} {c : CmdRef} {x : LedgerXfer}
    (hx : (s.ledger.reads.find? fun y => y.c = c) = some x) (hr : s.running c 0x0601 = true) :
    exec (.ledgerReadDone c) s = .next ((s.readEnded c).answer c (match s.ledger.record x.epoch with
      | none => badArg
      | some r => if r.badUnits.isEmpty then .ok else faulted)) := by
  show execLedgerReadDone c s = _
  simp only [execLedgerReadDone, hx, hr, Bool.not_true, Bool.false_eq_true, if_false]
  cases s.ledger.record x.epoch <;> rfl

theorem ledgerReadDone_effect (s : State) (c : CmdRef) (x : LedgerXfer)
    (hx : (s.ledger.reads.find? fun y => y.c = c) = some x) (hr : s.running c 0x0601 = true) :
    (∀ r, s.ledger.record x.epoch = some r → r.badUnits = [] → Claims.answersOk s (.ledgerReadDone c) c fun u =>
        u.ledger.reads = (s.ledger.reads.filter fun y => y.c ≠ c) ∧ u.ledger.recs = s.ledger.recs)
      ∧ (s.ledger.record x.epoch = none → ∃ u : State, exec (.ledgerReadDone c) s = .next (u.answer c badArg)
        ∧ u.ledger.reads = s.ledger.reads.filter fun y => y.c ≠ c) := by
  have ends := execLedgerReadDone_eq hx hr
  refine ⟨fun r record sound => ⟨s.readEnded c, ?_, rfl, rfl⟩, fun gone => ⟨s.readEnded c, ?_, rfl⟩⟩
  · rw [ends, record]
    simp only [sound, List.isEmpty_nil, if_true]
  · rw [ends, gone]

/-! ### LEDGER_ACK, LEDGER_FLUSH_SET (R444, R446) -/

theorem ledgerAck_effect (s : State) (c : CmdRef) (e : Nat) (ha : s.accepts c 0x0602 [(8, e)])
    (hk : ∀ a, s.ledger.acked = some a → a < e) (hn : e < s.ledger.nextNo) (hu : s.ledger.unsigned e = false) :
    Claims.answersOk s (.ledgerAck c e) c fun u => u = { s with ledger := { s.ledger with acked := some e } } := by
  have body : ledgerAckBody e s = ({ s with ledger := { s.ledger with acked := some e } }, .ok) := by
    have signed : e < s.ledger.nextNo ∧ (!s.ledger.unsigned e) = true := ⟨hn, by simp [hu]⟩
    unfold ledgerAckBody
    cases hacked : s.ledger.acked with
    | none =>
      simp only [if_pos signed]
      rfl
    | some a =>
      simp only [if_neg (Nat.not_le.2 (hk a hacked)), if_pos signed, ite_self]
      rfl
  exact ⟨_, State.command_ok ha body, rfl⟩

theorem ledgerFlushSet_effect (s : State) (c : CmdRef) (addr : Nat) (ha : s.accepts c 0x0603 [(8, addr)])
    (h : addr % 4096 = 0) : Claims.answersOk s (.ledgerFlushSet c addr) c fun u =>
      (c.fn = .hostA → u.ledger.flushA = BitVec.ofNat 64 addr) ∧ (c.fn = .hostB → u.ledger.flushB = BitVec.ofNat 64 addr) := by
  have aligned : ¬addr % 4096 ≠ 0 := by omega
  have body : ledgerFlushSetBody c.fn addr s = (s.updLedger fun l => match c.fn with
      | .hostA => { l with flushA := BitVec.ofNat 64 addr }
      | .hostB => { l with flushB := BitVec.ofNat 64 addr }, .ok) := by
    unfold ledgerFlushSetBody
    rw [if_neg aligned]
    cases c.fn <;> rfl
  refine ⟨_, State.command_ok ha body, fun hf => ?_, fun hf => ?_⟩
  · simp only [State.updLedger_ledger, hf]
  · simp only [State.updLedger_ledger, hf]

/-! ### LEDGER_INFO, LEDGER_STATS (R447, R448) -/

theorem ledgerInfo_effect (s : State) (c : CmdRef) (r : Ring) (ha : s.accepts c 0x0604 [])
    (hr : s.ledger.ring = some r) : Claims.answersData s (.ledgerInfo c) c
      (r.statement ++ s.ledger.registers.flatMap fun v => leBytes 8 v) := by
  refine State.command_reads ha ?_
  rw [ledgerInfoBody, hr]

/-- Settles O29: each clause is a lemma about its command. -/
theorem ledgerCommands : Obligations.LedgerCommands := by
  unfold Obligations.LedgerCommands
  refine fun s c => ⟨fun len gr h1 h2 h3 => ⟨fun ha hr hf ho => ?_, fun e => epochConfig_stop s c len gr e h1 h2 h3,
    epochConfig_set s c len gr h1 h2 h3⟩, ledgerInit_effect s c, ledgerInitDone_effect s c, ledgerRead_effect s c,
    ledgerReadDone_effect s c, ledgerAck_effect s c, ledgerFlushSet_effect s c, ledgerInfo_effect s c,
    fun ha => State.command_reads ha rfl⟩
  obtain ⟨u, run, o, open_, number, start, length, -, grace⟩ := epochConfig_start s c len gr h1 h2 h3 ha hr hf ho
  exact ⟨u, run, o, open_, number, start, length, grace⟩

end Sys2Proof.Machine
end

section
/-!
PROOFS. A port that goes down leaves the reference clocks of the wells as they are (R76, R97, R98): the runs, copies and
frames that end with it change no well but its queues.
-/

namespace Sys2Proof.Machine

/-- What every step of a chain leaves alone, the chain leaves alone. -/
theorem State.foldl_keeps {α β : Type} (φ : State → β) (g : State → α → State) (hg : ∀ x a, φ (g x a) = φ x) (l : List α)
    (s : State) : φ (l.foldl g s) = φ s :=
  List.foldlRecOn (motive := fun x => φ x = φ s) l g rfl fun x hx a _ => (hg x a).trans hx

/-! ### The end of a run leaves the network side alone (R230-R234, R349, R354) -/

theorem State.answerWaiter_net (s : State) (w : LkWaiter) (v : W64) : (s.answerWaiter w v).net = s.net := by
  unfold State.answerWaiter
  split
  · dsimp only
    split
    · rfl
    · unfold State.complete
      split <;> rfl
  · rfl

theorem State.lockPass_net (s : State) (k : Nat) : (s.lockPass k).net = s.net := by
  unfold State.lockPass
  dsimp only
  split
  · rfl
  · exact State.answerWaiter_net ..

theorem State.abandonAll_net (s : State) (r : Requester) : (s.abandonAll r).net = s.net :=
  State.foldl_keeps State.net _ (fun x k => x.setLock k { x.lock k with abandoned := true } |>.lockPass_net k) _ s

theorem State.quiet_net (s : State) (t : Nat) : (s.quiet t).net = s.net := by
  simp only [State.quiet, State.chanEnd, State.lockLeave, State.updTr_net, State.updCore_net, State.updTask_net,
    State.updCl_net]

theorem State.stopChild_net (s : State) (t : Nat) : (s.stopChild t).net = s.net := by
  rw [State.stopChild, State.updTr_net, State.abandonAll_net, State.quiet_net]

theorem State.stopChildren_net (s : State) (t : Nat) : (s.stopChildren t).net = s.net := by
  rw [State.stopChildren, State.updTr_net]
  exact State.foldl_keeps State.net (fun (x : State) (c : Child) => x.stopChild c.t) (fun x c => x.stopChild_net c.t) _ s

theorem State.startRun_net (s : State) (t p : Nat) : (s.startRun t p).net = s.net := by
  unfold State.startRun
  dsimp only
  rw [(State.traceRec_wakeStep _ _ _ _ _).net, (State.ungate_wakeStep _ _).net]
  rfl

theorem State.nextSlot_net (s : State) (t : Nat) : (s.nextSlot t).net = s.net := by
  unfold State.nextSlot
  dsimp only
  split
  · exact s.abandonAll_net _
  · split
    · rw [State.startRun_net]
      exact s.abandonAll_net _
    · exact s.abandonAll_net _

theorem State.refund_net (s : State) (p : Nat) : (s.refund p).net = s.net :=
  State.foldl_keeps State.net State.refund1 (fun _ _ => rfl) _ _

theorem State.freeProv_net (s : State) (p : Nat) (run : RunSt) : (s.freeProv p run).net = s.net :=
  State.foldl_keeps State.net _ (fun x h => by
    split
    · exact (State.freeBuf_basinStep x h).net
    · rfl) _ s

theorem State.lockAtEnd_net (s : State) (t : Nat) : (s.lockAtEnd t).net = s.net := by
  unfold State.lockAtEnd
  split <;> rfl

/-- A thread whose run is taken away goes on with its next slot (R231). -/
theorem State.threadFreed_net (s : State) (t : Nat) :
    ((((s.lockAtEnd t).stopChildren t).quiet t).nextSlot t).net = s.net := by
  rw [State.nextSlot_net, State.quiet_net, State.stopChildren_net, State.lockAtEnd_net]

theorem State.clearRun_net (s : State) (p : Nat) : (s.clearRun p).net = s.net := by
  unfold State.clearRun
  split
  · split <;> rfl
  · next run _ =>
    have cleared : (((s.refund p).dropVers p).freeProv p run).net = s.net :=
      (State.freeProv_net _ p run).trans (s.refund_net p)
    dsimp only
    split
    · rw [State.threadFreed_net, cleared]
    · split
      · rw [State.threadFreed_net]
        exact cleared
      · exact cleared
    · exact cleared

theorem State.listPut_net (s : State) (p : Nat) : (s.listPut p).net = s.net := by
  simp only [State.listPut, State.updOrder_net, State.updRc_net, State.updPkt_net]

theorem State.redo1_net (s : State) (p : Nat) (m : Mark) : (s.redo1 p m).net = s.net := by
  unfold State.redo1
  dsimp only
  split
  · rw [State.endRefused, State.updPkt_net, State.clearRun_net]
  · rw [State.listPut_net, State.updCnt_net, State.updRc_net, State.clearRun_net]

theorem State.cascade_net (s : State) (l : List Nat) : (s.cascade l).net = s.net :=
  State.foldl_keeps State.net (fun (x : State) q => (x.redo1 q .cascade).updCnt fun c => { c with cascades := c.cascades + 1 })
    (fun x q => by rw [State.updCnt_net, State.redo1_net]) _ s

theorem State.redo_net (s : State) (p : Nat) (m : Mark) : (s.redo p m).net = s.net :=
  (State.redo1_net _ p m).trans (s.cascade_net [p])

/-! ### So does the end of a copy (R156, R426, R428) -/

theorem State.endRef_net (s : State) (h : Nat) : (s.endRef h).net = s.net := by
  have bad (a b c : Nat) : (s.badFree a b c h).net = s.net := by
    unfold State.badFree
    dsimp only
    split
    · rw [State.event_net]
    · rfl
  unfold State.endRef
  split
  · exact bad ..
  · split
    · exact bad ..
    · exact (State.decRef_basinStep s h).net

theorem State.sample_net (s : State) (code sub inPort domain : Nat) (seq : W32) (dt : Nat) (bytes : List Byte) :
    (s.sample code sub inPort domain seq dt bytes).net = s.net := by
  obtain ⟨e, d, h⟩ := s.sample_frame code sub inPort domain seq dt bytes
  rw [h]

theorem State.sumpAt_net (s : State) (lport code bytes : Nat) : (s.sumpAt lport code bytes).net = s.net := by
  unfold State.sumpAt
  split <;> rfl

theorem State.killCopy_net (s : State) (c : Copy) (code sub : Nat) : (s.killCopy c code sub).net = s.net := by
  have outcome (x : State) : (x.copyOutcome c code).net = x.net := by
    unfold State.copyOutcome
    split <;> rfl
  unfold State.killCopy State.dropCopy
  dsimp only
  rw [outcome, if_pos rfl, State.endRef_net, if_pos rfl, State.updPump_net, State.updQueue_net, State.sample_net,
    State.sumpAt_net, State.sump, State.updEgress_net]

/-! ### Reference clocks (R76) -/

/-- Each well's reference input and the recalibration of its lanes. -/
def State.clocks (s : State) (w : Nat) : Bool × Bool := ((s.well w).refclk, (s.well w).recal)

theorem State.clocks_of_net {s u : State} (h : u.net = s.net) : u.clocks = s.clocks := by
  funext w
  rw [State.clocks, State.well_of_net h, State.clocks]

theorem State.updWell_clocks (s : State) (k : Nat) (g : Well → Well)
    (hg : ∀ x, (g x).refclk = x.refclk ∧ (g x).recal = x.recal := by exact fun _ => ⟨rfl, rfl⟩) :
    (s.updWell k g).clocks = s.clocks := by
  funext w
  unfold State.clocks
  by_cases h : w = k
  · subst h
    rw [State.updWell_well, (hg _).1, (hg _).2]
  · rw [State.updWell_well_ne s g h]

section
variable (s : State) (p : Nat)

theorem State.updPkt_clocks (g : Pkt → Pkt) : (s.updPkt p g).clocks = s.clocks := State.clocks_of_net (State.updPkt_net ..)
theorem State.updRc_clocks (g : RunRec → RunRec) : (s.updRc p g).clocks = s.clocks :=
  State.clocks_of_net (State.updRc_net ..)
theorem State.updTr_clocks (g : ThrRun → ThrRun) : (s.updTr p g).clocks = s.clocks :=
  State.clocks_of_net (State.updTr_net ..)
theorem State.updOrder_clocks (g : OrderSt → OrderSt) : (s.updOrder g).clocks = s.clocks :=
  State.clocks_of_net (State.updOrder_net ..)
theorem State.updPump_clocks (g : Pump → Pump) : (s.updPump p g).clocks = s.clocks :=
  State.clocks_of_net (State.updPump_net ..)
theorem State.updEport_clocks (g : EPort → EPort) : (s.updEport p g).clocks = s.clocks :=
  State.clocks_of_net (State.updEport_net ..)
theorem State.updPort_clocks (g : Port → Port) : (s.updPort p g).clocks = s.clocks := by
  funext w
  rfl

end

theorem State.fenceCheck_clocks (s : State) : s.fenceCheck.clocks = s.clocks := State.clocks_of_net s.fenceCheck_net

theorem State.freeBuf_clocks (s : State) (h : Nat) : (s.freeBuf h).clocks = s.clocks :=
  State.clocks_of_net (State.freeBuf_basinStep s h).net

/-! ### A frame is refused, stomped or accepted (R21, R26, R28, R108) -/

theorem State.refuse_clocks (s : State) (p code : Nat) : (s.refuse p code).clocks = s.clocks := by
  unfold State.refuse
  extract_lets k s0 s1 s2 s3
  have h1 : s1.clocks = s.clocks := by
    simp only [s1]
    split
    · exact (State.updPkt_clocks ..).trans (State.updPort_clocks ..)
    · split
      · rw [State.freeBuf_clocks, State.updPkt_clocks, State.countRefusal, State.updPort_clocks]
      · exact (State.updPkt_clocks ..).trans (State.updPort_clocks ..)
  have h2 : s2.net = s1.net := (State.cascade_net _ [p]).trans (s1.refund_net p)
  have h3 : s3.clocks = s.clocks :=
    ((State.fenceCheck_clocks _).trans (State.clocks_of_net ((State.updDom_net ..).trans h2))).trans h1
  have ended (x : State) : (x.endRefused p).clocks = x.clocks := x.updPkt_clocks p _
  split
  · rfl
  · split
    · exact h1
    · split
      · exact ((ended _).trans (State.clocks_of_net (s3.clearRun_net p))).trans h3
      · rw [ended, State.listDrop, State.updOrder_clocks, h3]
      · exact ((ended _).trans (State.updWell_clocks ..)).trans h3
      · rw [ended, State.updTr_clocks, h3]
      · rw [ended, State.updOrder_clocks, State.clocks_of_net (s3.freeProv_net p _), h3]
      · exact h3

theorem State.frameIn_clocks (s : State) (port : Nat) (words : List IWord) (ended : Bool) :
    (s.frameIn port words ended).clocks = s.clocks := by
  have started (x : State) (p : Nat) : (x.startFrame port p).clocks = x.clocks := by
    unfold State.startFrame
    split
    · exact x.refuse_clocks p 5
    · exact x.updPort_clocks port _
  have new : (s.newFrame port (wellOf port) none).1.clocks = s.clocks := State.clocks_of_net rfl
  unfold State.frameIn State.macWrite
  dsimp only
  rw [State.updPkt_clocks, State.updPort_clocks, started, State.updPort_clocks, new]

theorem State.pauseFor_clocks (s : State) (p prio quanta : Nat) : (s.pauseFor p prio quanta).clocks = s.clocks :=
  s.updEport_clocks p _

theorem State.pfcTake_clocks (s : State) (p : Nat) (bytes : List Byte) : (s.pfcTake p bytes).clocks = s.clocks :=
  State.foldl_keeps State.clocks _ (fun x k => by
    split
    · exact x.pauseFor_clocks p k _
    · rfl) _ s

theorem State.macControl_clocks (s : State) (port : Nat) (bytes : List Byte) (rxerr : Bool) :
    (s.macControl port bytes rxerr).clocks = s.clocks := by
  have counted (g : MacCnt → MacCnt) : (s.macCnt port g).clocks = s.clocks := s.updPort_clocks port _
  unfold State.macControl
  dsimp only
  split
  · exact counted _
  · split
    · split
      · rw [State.pauseFor_clocks, counted]
      · exact counted _
    · split
      · split
        · rw [State.pfcTake_clocks, counted]
        · exact counted _
      · split
        · exact State.frameIn_clocks ..
        · exact counted _

theorem State.wire_clocks (s : State) (phys : Nat) (bytes : List Byte) (good : Bool) (dt : Nat) :
    (s.wire phys bytes good dt).clocks = s.clocks := by
  have returned (bs : List Byte) : (s.macReturn phys bs).clocks = s.clocks := by
    unfold State.macReturn
    split
    · rfl
    · split
      · exact State.macControl_clocks ..
      · exact State.frameIn_clocks ..
  unfold State.wire
  split
  · exact returned _
  · rfl

theorem State.stompCt_clocks (s : State) (p : Nat) : (s.stompCt p).clocks = s.clocks := by
  unfold State.stompCt
  split
  · exact s.updRc_clocks p _
  · refine State.foldl_keeps State.clocks _ (fun x phys => ?_) _ s
    dsimp only
    split
    · split
      · rw [State.updRc_clocks, State.updPump_clocks, State.stompNow, State.updEport_clocks, State.stompCount,
          State.updPort_clocks, State.wire_clocks]
      · rfl
    · rfl

theorem State.refuseFrame_clocks (s : State) (p code : Nat) : (s.refuseFrame p code).clocks = s.clocks := by
  unfold State.refuseFrame
  split
  · rfl
  · split
    · dsimp only
      split
      · rw [State.freeBuf_clocks, State.updPkt_clocks, State.refuse_clocks, State.stompCt_clocks, State.updPkt_clocks]
      · rw [State.updPkt_clocks, State.refuse_clocks, State.stompCt_clocks, State.updPkt_clocks]
    · exact s.refuse_clocks p code

theorem State.intakeCnt_clocks (s : State) (p : Nat) (g : IntakeCnt → IntakeCnt) : (s.intakeCnt p g).clocks = s.clocks :=
  s.updPort_clocks p _

theorem State.learnQueue_clocks (s : State) (k : Pkt) : (s.learnQueue k).clocks = s.clocks := by
  unfold State.learnQueue
  split
  · rfl
  · split
    · exact State.updWell_clocks ..
    · exact s.intakeCnt_clocks k.inPort _

theorem State.tryAccept_clocks (s : State) (p : Nat) : (s.tryAccept p).clocks = s.clocks := by
  unfold State.tryAccept
  extract_lets k s1 s2
  have h2 : s2.clocks = s.clocks := by
    simp only [s2, s1]
    rw [State.learnQueue_clocks, State.clocks_of_net (State.classFrame_wakeStep _ _).net, State.intakeCnt_clocks,
      State.updPkt_clocks]
  have stomped : (if (s.rc p).ct then s2.stompCt p else s2).clocks = s.clocks := by
    split
    · rw [State.stompCt_clocks, h2]
    · exact h2
  split
  · rfl
  · split
    · rw [State.clocks_of_net (State.redo_net _ p .poison), State.intakeCnt_clocks, stomped]
    · exact h2

/-! ### A link ends (R97, R98, R100, R109, R425) -/

theorem State.tailCheck_clocks (s : State) (p : Nat) : (s.tailCheck p).clocks = s.clocks := by
  unfold State.tailCheck
  split
  · exact s.refuseFrame_clocks p _
  · rw [State.tryAccept_clocks, State.clocks_of_net (State.storeBytes_basinStep _ p).net, State.updPkt_clocks]

theorem State.cutFrame_clocks (s : State) (port : Nat) : (s.cutFrame port).clocks = s.clocks := by
  unfold State.cutFrame
  split
  · rfl
  · dsimp only
    split
    · rw [State.updPort_clocks]
      split
      · exact State.updPkt_clocks ..
      · rw [State.tailCheck_clocks, State.updPkt_clocks]
    · exact State.updPkt_clocks ..

theorem State.txAbort_clocks (s : State) (phys : Nat) : (s.txAbort phys).clocks = s.clocks := by
  unfold State.txAbort
  split
  · rfl
  · dsimp only
    split
    · rw [State.updRc_clocks, State.updPump_clocks, State.updEport_clocks, State.wire_clocks]
    · rw [State.clocks_of_net (State.killCopy_net ..), State.updEport_clocks, State.wire_clocks]

theorem State.stopLink_clocks (s : State) (p : Nat) : (s.stopLink p).clocks = s.clocks := by
  rw [State.stopLink, State.cutFrame_clocks, State.txAbort_clocks]

theorem State.portEvent_net (s : State) (p type reason : Nat) (detail : List Byte) :
    (s.portEvent p type reason detail).net = s.net := State.event_net ..

theorem State.endTest_clocks (s : State) (p : Nat) (aborted : Bool) : (s.endTest p aborted).clocks = s.clocks := by
  unfold State.endTest
  split
  · rw [State.clocks_of_net (State.portEvent_net ..), State.updPort_clocks, State.stopLink_clocks]
  · rfl

theorem State.l2FlushPort_net (s : State) (names : Nat → Bool) : (s.l2FlushPort names).net = s.net := by
  have removed (x : State) (w : Nat) (p : L2Ent → Bool) : (x.l2Remove w p).net = x.net :=
    State.foldl_keeps State.net (fun (y : State) i => y.updL2t w fun z => z.put i none) (fun _ _ => rfl) _ x
  exact State.foldl_keeps State.net _ (fun x w => removed x w _) _ s

theorem State.policyStart_net (s : State) (p : Nat) : (s.policyStart p).net = s.net := by
  unfold State.policyStart
  dsimp only
  split
  · exact State.event_net ..
  · rfl

theorem State.reportDown_net (s : State) (p reason : Nat) : (s.reportDown p reason).net = s.net := by
  unfold State.reportDown
  extract_lets s1 s2
  have h2 : s2.net = s.net := by
    simp only [s2]
    split
    · exact (State.l2FlushPort_net _ _).trans (State.portEvent_net ..)
    · exact State.portEvent_net ..
  split
  · exact h2
  · exact (State.policyStart_net _ p).trans h2

theorem State.goDown_clocks (s : State) (p reason : Nat) : (s.goDown p reason).clocks = s.clocks := by
  have flapped (x : State) : (x.flap p).clocks = x.clocks := by
    unfold State.flap
    dsimp only
    split
    · rw [State.clocks_of_net (State.portEvent_net ..), State.updPort_clocks, State.updLink, State.updPort_clocks]
    · exact x.updPort_clocks p _
  unfold State.goDown
  extract_lets s1
  have h1 : s1.clocks = s.clocks := (State.updPort_clocks ..).trans (s.stopLink_clocks p)
  split
  · rw [flapped, State.clocks_of_net (State.reportDown_net ..), h1]
  · exact h1

theorem State.takeDown_clocks (s : State) (p reason : Nat) : (s.takeDown p reason).clocks = s.clocks := by
  unfold State.takeDown
  dsimp only
  split
  · rw [State.goDown_clocks, State.endTest_clocks]
  · exact s.endTest_clocks p true

theorem State.bringUp_clocks (s : State) (p : Nat) : (s.bringUp p).clocks = s.clocks := by
  unfold State.bringUp
  dsimp only
  split
  · rfl
  · exact s.updPort_clocks p _

end Sys2Proof.Machine
end

section
/-!
PROOFS. O27: device time. What a change of DT's state leaves of the time block, the sources of phase and frequency (R46,
R49-R54), steps (R60-R62), PPS_OUT (R72), the wells' reference (R76, R588), and the time commands.
-/

namespace Sys2Proof.Machine

/-! ### DT_NOW (R46) -/

theorem dtNowRead_effect (s : State) (r : Requester) :
    ∃ u, exec (.dtNowRead r) s = .next u ∧ SMap.get 0 u.time.reads (reqCode r) = s.time.ns
      ∧ u.dtSnap r = BitVec.ofNat 64 (s.time.frac.toNat + s.time.st.code * 2 ^ 16 + (if s.time.slew ≠ 0 then 2 ^ 18 else 0)
        + (if s.time.stepNeeded then 2 ^ 19 else 0) + s.time.stepGen.toNat * 2 ^ 32) ∧ u = { s with time := u.time }
      ∧ u.dt = s.dt := by
  refine ⟨(s.dtNow r).1, rfl, SMap.get_set_self .., ?_, rfl, rfl⟩
  simp [State.dtSnap, State.dtNow]

/-! ### DT's state, its slew and its servo (R47-R50, R58, R73) -/

/-- The time block without DT's state, its slew, its servo and PPS_OUT. -/
def TimeSt.steady (t : TimeSt) : TimeSt :=
  { t with
    st := .freerun, slew := 0, slewNs := 0, stepNeeded := false, freqCorr := 0, freqHist := [], freqAvg := 0
    goodMeas := 0, holdoverSince := 0, pps := {} }

theorem TimeSt.ppsSettle_eq (t : TimeSt) (was : Bool) :
    ∃ l n, t.ppsSettle was = { t with pps := { t.pps with level := l, lastSecond := n } } := by
  unfold TimeSt.ppsSettle TimeSt.ppsSkip
  split
  · exact ⟨_, _, rfl⟩
  · split
    · exact ⟨_, _, rfl⟩
    · exact ⟨_, _, rfl⟩

theorem TimeSt.ppsSettle_steady (t : TimeSt) (was : Bool) : (t.ppsSettle was).steady = t.steady := by
  obtain ⟨l, n, h⟩ := t.ppsSettle_eq was
  rw [h, TimeSt.steady, TimeSt.steady]

@[simp] theorem State.timeEvent_time (s : State) (old new : DtState) (reason : Nat) :
    (s.timeEvent old new reason).time = s.time := State.event_time ..

theorem State.leaveLocked_steady (s : State) (reason : Nat) : (s.leaveLocked reason).time.steady = s.time.steady := by
  unfold State.leaveLocked
  split
  · rw [State.timeEvent_time]
    rfl
  · rfl

theorem State.lostCheck_steady (s : State) (reason : Nat) : (s.lostCheck reason).time.steady = s.time.steady := by
  unfold State.lostCheck
  split
  · rfl
  · rw [State.leaveLocked_steady]
    rfl

theorem State.enterLocked_steady (s : State) : s.enterLocked.time.steady = s.time.steady := by
  unfold State.enterLocked
  rw [State.timeEvent_time, State.updTime_time, TimeSt.ppsSettle_steady]
  rfl

theorem State.slewRule_steady (s : State) (off : Int) : (s.slewRule off).time.steady = s.time.steady := by
  unfold State.slewRule
  split
  · dsimp only
    split
    · rfl
    · rw [State.event_time]
      rfl
  · split
    · rfl
    · rfl

theorem State.measured_steady (s : State) (off : Int) : (s.measured off).time.steady = s.time.steady := by
  unfold State.measured
  extract_lets s1
  have h1 : s1.time.steady = s.time.steady := (s.slewRule_steady off :)
  split
  · split
    · rw [State.leaveLocked_steady, h1]
    · exact h1
  · split
    · rw [State.enterLocked_steady, h1]
    · exact h1

/-- A measurement whose frequency comes from another source leaves the sources as they are and keeps the offset (R49). -/
theorem State.measure_steady {s : State} (pps : Bool) (off : Int) (hr : s.phRuns = true) (hf : s.time.freq ≠ 0) :
    (s.measure pps off).time.steady = { s.time with offset := off }.steady := by
  unfold State.measure
  rw [if_neg (by simp [hr])]
  dsimp only
  rw [if_neg hf, State.measured_steady]
  rfl

/-! ### The PTP slave (R52) -/

/-- The slave's state after a message, and the Delay_Req that went out with it. -/
def State.ptpTaken (s : State) (q : PtpSt) : State :=
  { s.updTime fun t => { t with ptp := q } with
    out := if decide (q.reqNo ≠ s.time.ptp.reqNo) then
      { s.out with ptpTx := s.out.ptpTx ++ [(s.time.ptpPort, s.time.ptp.reqNo, s.dt)] } else s.out }

section
variable {s : State} {h : PtpHdr} {m : PtpMsg} {q : PtpSt} (hr : s.phRuns = true) (hd : h.domain = s.time.ptpDomain)
  (ht : h.transport ≤ 2) (hp : s.time.phase = 1)
include hr hd ht hp

theorem ptpMessageRx_heard : exec (.ptpMessageRx s.time.ptpPort ⟨h, m⟩) s = .next
    (match (s.time.ptp.take s.dt h.src m).2 with
      | some off => (s.ptpTaken (s.time.ptp.take s.dt h.src m).1).measure false off
      | none => s.ptpTaken (s.time.ptp.take s.dt h.src m).1) := by
  show execPtpMessageRx s.time.ptpPort ⟨h, m⟩ s = _
  unfold execPtpMessageRx
  rw [if_neg (by simp [hr, hd, hp, ht])]
  dsimp only
  cases (s.time.ptp.take s.dt h.src m).2 <;> rfl

theorem ptpMessageRx_state (hm : s.time.ptp.take s.dt h.src m = (q, none)) :
    exec (.ptpMessageRx s.time.ptpPort ⟨h, m⟩) s = .next (s.ptpTaken q) := by
  rw [ptpMessageRx_heard hr hd ht hp, hm]

theorem ptpMessageRx_offset {off : Int} (hm : s.time.ptp.take s.dt h.src m = (q, some off)) :
    exec (.ptpMessageRx s.time.ptpPort ⟨h, m⟩) s = .next ((s.ptpTaken q).measure false off) := by
  rw [ptpMessageRx_heard hr hd ht hp, hm]

/-- The first master heard is selected. -/
theorem ptpAnnounce_effect (d : PtpSet) (hm : s.time.ptp.masters = []) :
    ∃ u, exec (.ptpMessageRx s.time.ptpPort ⟨h, .announce d⟩) s = .next u ∧ u.time.ptp.parent = some h.src
      ∧ u.time.ptp.announced = true ∧ u.time.ptp.announceDt = s.dt := by
  have best : (bestMaster ((s.time.ptp.masters.filter fun m =>
      m.src ≠ h.src && decide (s.dt < m.dt + Config.announceTimeoutNs)) ++ [⟨h.src, d, s.dt⟩])).map (·.src) = some h.src := by
    rw [hm]
    rfl
  refine ⟨_, ptpMessageRx_state hr hd ht hp rfl, ?_⟩
  show (s.time.ptp.announce s.dt h.src d).parent = _ ∧ (s.time.ptp.announce s.dt h.src d).announced = _
    ∧ (s.time.ptp.announce s.dt h.src d).announceDt = _
  unfold PtpSt.announce
  simp only [best, if_true]
  split
  · exact ⟨rfl, rfl, rfl⟩
  · exact ⟨rfl, rfl, rfl⟩

/-- A one-step Sync of the master gives both times, and the slave asks at once. -/
theorem ptpSync_effect (hs : s.time.ptp.parent = some h.src) (n t1 t2 i : Nat) :
    ∃ u, exec (.ptpMessageRx s.time.ptpPort ⟨h, .sync n false t1 t2 i⟩) s = .next u ∧ u.time.ptp.t1 = t1
      ∧ u.time.ptp.t2 = t2 ∧ u.time.ptp.haveT1 = true ∧ u.time.ptp.req = some (s.time.ptp.reqNo, s.dt) := by
  have taken : s.time.ptp.take s.dt h.src (.sync n false t1 t2 i) = (PtpSt.ask { s.time.ptp with
      syncSeq := n, t1 := t1, t2 := t2, haveT1 := false, haveSync := true, lastSyncDt := s.dt, intervalNs := i } s.dt,
      none) := by
    simp [PtpSt.take, hs]
  exact ⟨_, ptpMessageRx_state hr hd ht hp taken, rfl, rfl, rfl, rfl⟩

/-- The answer to the slave's Delay_Req completes the offset, at which PTP is qualified. -/
theorem ptpDelayResp_effect (hs : s.time.ptp.parent = some h.src) (n t3 t4 : Nat) (hsync : s.time.ptp.haveSync = true)
    (h1 : s.time.ptp.haveT1 = true) (hq : s.time.ptp.req = some (n, t3)) (hf : s.time.freq ≠ 0) :
    ∃ u, exec (.ptpMessageRx s.time.ptpPort ⟨h, .delayResp n true t4⟩) s = .next u ∧ u.time.ptp.qualified = true
      ∧ u.time.offset = (((s.time.ptp.t1 : Int) - s.time.ptp.t2) + ((t4 : Int) - t3)) / 2 := by
  have taken : s.time.ptp.take s.dt h.src (.delayResp n true t4) = ({ s.time.ptp with qualified := true, req := none },
      some ((((s.time.ptp.t1 : Int) - s.time.ptp.t2) + ((t4 : Int) - t3)) / 2)) := by
    simp [PtpSt.take, hq, hs, hsync, h1]
  have kept := State.measure_steady (s := s.ptpTaken { s.time.ptp with qualified := true, req := none }) false
    ((((s.time.ptp.t1 : Int) - s.time.ptp.t2) + ((t4 : Int) - t3)) / 2) hr hf
  exact ⟨_, ptpMessageRx_offset hr hd ht hp taken, (congrArg (·.ptp.qualified) kept :), (congrArg TimeSt.offset kept :)⟩

end

theorem ptpLossTimeout_effect (s : State) (ha : s.time.ptp.announced = true)
    (ht : s.time.ptp.announceDt + Config.announceTimeoutNs ≤ s.dt
      ∨ s.time.ptp.haveSync = true ∧ s.time.ptp.lastSyncDt + 3 * s.time.ptp.intervalNs ≤ s.dt) :
    ∃ u, exec .ptpLossTimeout s = .next u ∧ u.time.ptp = {} := by
  refine ⟨(s.updTime fun t => { t with ptp := {} }).lostCheck 1, ?_, (congrArg TimeSt.ptp (State.lostCheck_steady ..) :)⟩
  show execPtpLossTimeout s = _
  simp only [execPtpLossTimeout, if_pos (And.intro ha ht.symm)]
  rfl

/-! ### PPS_IN (R53) -/

theorem secNs_val : secNs = 1000000000 := rfl

/-- The state in which an edge of PPS_IN has been noted. -/
def State.ppsNoted (s : State) (q : Bool) (n : Nat) : State := s.updTime fun t => { t with
  refs := { t.refs with ppsSeen := true, ppsLast := t.ns.toNat, ppsQualified := q, ppsGood := n } }

theorem ppsInEdge_first (s : State) (hs : s.time.refs.ppsSeen = false) (hg : s.time.refs.ppsGood = 0) :
    ∃ u, exec .ppsInEdge s = .next u ∧ u.time.refs.ppsSeen = true ∧ u.time.refs.ppsLast = s.dt
      ∧ u.time.refs.ppsGood = 1 := by
  refine ⟨s.ppsNoted false 1, ?_, rfl, rfl, rfl⟩
  show execPpsInEdge s = _
  unfold execPpsInEdge
  dsimp only
  rw [if_neg (by simp [hs]), hg]
  rfl

theorem ppsInEdge_fourth (s : State) (hr : s.phRuns = true) (_ : s.time.refs.ppsSeen = true)
    (hg : s.time.refs.ppsGood = 3) (hp : s.time.phase = 2) (hf : s.time.freq ≠ 0)
    (gap : s.dt - s.time.refs.ppsLast = 1000000000) (near : s.dt % 1000000000 < 500000000) :
    ∃ u, exec .ppsInEdge s = .next u ∧ u.time.refs.ppsQualified = true
      ∧ u.time.offset = -((s.dt % 1000000000 : Nat) : Int) := by
  let s1 := s.ppsNoted true 4
  have offset : s1.ppsOffset s.dt = (s1, -((s.dt % 1000000000 : Nat) : Int)) := by
    have lower : s.dt % secNs * 2 < secNs := by
      rw [secNs_val]
      omega
    exact if_pos lower
  have kept := State.measure_steady (s := s1) true (-((s.dt % 1000000000 : Nat) : Int)) hr hf
  refine ⟨s1.measure true (-((s.dt % 1000000000 : Nat) : Int)), ?_, (congrArg (·.refs.ppsQualified) kept :),
    (congrArg TimeSt.offset kept :)⟩
  show execPpsInEdge s = _
  have inTime : secNs ≤ 1000000000 + 100000 ∧ 1000000000 ≤ secNs + 100000 := by decide
  unfold execPpsInEdge
  dsimp only
  rw [gap, if_neg (by simp [inTime]), hg, if_pos ⟨rfl, .inl hp⟩]
  show done ((s1.ppsOffset s.dt).1.measure true (s1.ppsOffset s.dt).2) = _
  rw [offset]
  rfl

theorem ppsInMissing_effect (s : State) (hs : s.time.refs.ppsSeen = true)
    (ht : s.time.refs.ppsLast + 3000100000 < s.dt) :
    ∃ u, exec .ppsInMissing s = .next u ∧ u.time.refs.ppsSeen = false ∧ u.time.refs.ppsQualified = false := by
  let s1 := s.updTime fun t => { t with refs := { t.refs with ppsSeen := false, ppsQualified := false, ppsGood := 0 } }
  have late : s.time.refs.ppsSeen = true ∧ s.time.refs.ppsLast + 3 * secNs + 100000 < s.dt :=
    ⟨hs, by have := secNs_val; omega⟩
  have run : exec .ppsInMissing s = .next (if s.time.refs.ppsQualified then s1.lostCheck 1 else s1) := by
    show execPpsInMissing s = _
    rw [execPpsInMissing, if_pos late]
    rfl
  have refs : (if s.time.refs.ppsQualified then s1.lostCheck 1 else s1).time.refs = s1.time.refs := by
    split
    · exact (congrArg TimeSt.refs (s1.lostCheck_steady 1) :)
    · rfl
  exact ⟨_, run, by rw [refs]; rfl, by rw [refs]; rfl⟩

/-! ### TREF_10M, HOLDOVER (R49, R54) -/

theorem trefQualified_effect (s : State) (ppt : Int) (h : ppt.natAbs ≤ 50000000) :
    ∃ u, exec (.trefQualified ppt) s = .next u ∧ u.time.refs.trefQualified = true ∧ u.time.refs.trefPpt = ppt := by
  let s1 := s.updTime fun t => { t with refs := { t.refs with trefQualified := true, trefPpt := ppt } }
  have run : exec (.trefQualified ppt) s = .next (if s.time.freq = 1 then s1.updTime fun t => t.setCorr ppt else s1) := by
    show execTrefQualified ppt s = _
    rw [execTrefQualified, if_neg (Nat.not_lt.2 h)]
    rfl
  refine ⟨_, run, ?_⟩
  split
  · exact ⟨rfl, rfl⟩
  · exact ⟨rfl, rfl⟩

theorem trefLoss_effect (s : State) :
    ∃ u, exec .trefLoss s = .next u ∧ u.time.refs.trefQualified = false ∧ u.time.st = s.time.st := ⟨_, rfl, rfl, rfl⟩

theorem holdoverExpiry_effect (s : State) (hs : s.time.st = .holdover) (h0 : s.time.holdoverS ≠ 0)
    (ht : s.time.holdoverSince + s.time.holdoverS * 1000000000 ≤ s.dt) :
    ∃ u, exec .holdoverExpiry s = .next u ∧ u.time.st = .freerun := by
  have due : s.time.st = .holdover ∧ s.time.holdoverS ≠ 0 ∧ s.time.holdoverSince + s.time.holdoverS * secNs ≤ s.dt :=
    ⟨hs, h0, ht⟩
  refine ⟨_, if_pos due, ?_⟩
  obtain ⟨l, n, h⟩ := TimeSt.ppsSettle_eq { s.time with st := .freerun } true
  rw [State.timeEvent_time, State.updTime_time, h]

/-! ### PPS_OUT (R72) -/

theorem ppsOutRise_effect (s : State) (ho : s.time.ppsOn = true) (hl : s.time.pps.level = false)
    (ht : s.time.pps.lastSecond < s.time.ppsTime / 4000000000) :
    ∃ u, exec .ppsOutRise s = .next u ∧ u.time.pps.level = true ∧ u.time.pps.riseDt = s.dt :=
  ⟨_, if_neg (by simp [ho, hl, ht]), rfl, rfl⟩

theorem ppsOutFall_effect (s : State) (hl : s.time.pps.level = true)
    (ht : s.time.pps.riseDt + s.time.pps.highNs ≤ s.dt) :
    ∃ u, exec .ppsOutFall s = .next u ∧ u.time.pps.level = false := ⟨_, if_pos ⟨hl, ht⟩, rfl⟩

/-! ### The wells' reference and the local time base (R76, R588) -/

theorem State.leaveLocked_net (s : State) (reason : Nat) : (s.leaveLocked reason).net = s.net := by
  unfold State.leaveLocked
  split
  · exact State.event_net ..
  · rfl

theorem State.baseLost_net (s : State) (w : Nat) : (s.baseLost w).net = s.net := by
  unfold State.baseLost
  dsimp only
  split
  · split <;> rfl
  · rw [State.leaveLocked_net, State.updTime_net]
    split <;> rfl

theorem refclkLoss_effect (s : State) (w : Nat) (hw : w < 8) (h : (s.well w).refclk = true) :
    ∃ u, exec (.refclkLoss w) s = .next u ∧ (u.well w).refclk = false := by
  let s1 := s.updWell w fun x => { x with refclk := false, recal := false }
  let s2 := (s1.wellPorts w).foldl (fun acc p => State.takeDown acc p 2) s1
  have run : execRefclkLoss w s = _ := if_neg (show ¬(8 ≤ w ∨ (!(s.well w).refclk) = true) by simp [h, hw])
  have clocks : s2.clocks = s1.clocks := State.foldl_keeps State.clocks _ (fun x p => x.takeDown_clocks p 2) _ s1
  have kept : (s2.well w).refclk = (s1.well w).refclk := congrArg Prod.fst (congrFun clocks w)
  refine ⟨s2.baseLost w, run, ?_⟩
  rw [State.well_of_net (s2.baseLost_net w), kept]
  simp only [s1, State.updWell_well]

theorem refclkReturn_effect (s : State) (w : Nat) (hw : w < 8) (h : (s.well w).refclk = false) :
    ∃ u, exec (.refclkReturn w) s = .next u ∧ (u.well w).refclk = true ∧ (u.well w).recal = true := by
  let s1 := s.updWell w fun x => { x with refclk := true, recal := true }
  have run : execRefclkReturn w s = .next (if w = 0 then s1.baseBack else s1) :=
    if_neg (show ¬(8 ≤ w ∨ (s.well w).refclk = true) by simp [h, hw])
  have kept : (if w = 0 then s1.baseBack else s1).net = s1.net := by
    unfold State.baseBack
    split
    · split <;> rfl
    · rfl
  refine ⟨_, run, ?_⟩
  rw [State.well_of_net kept]
  simp only [s1, State.updWell_well, and_self]

theorem laneRecalDone_effect (s : State) (w : Nat) (h : (s.well w).recal = true) :
    ∃ u, exec (.laneRecalDone w) s = .next u ∧ (u.well w).recal = false := by
  let s1 := s.updWell w fun x => { x with recal := false }
  let s2 := (s1.wellPorts w).foldl (fun acc p => if (State.port acc p).st = .down then State.bringUp acc p else acc) s1
  have run : execLaneRecalDone w s = .next s2 := if_neg (by simp [h])
  have clocks : s2.clocks = s1.clocks := State.foldl_keeps State.clocks _ (fun x p => by
    split
    · exact x.bringUp_clocks p
    · rfl) _ s1
  have kept : (s2.well w).recal = (s1.well w).recal := congrArg Prod.snd (congrFun clocks w)
  refine ⟨s2, run, ?_⟩
  rw [kept]
  simp only [s1, State.updWell_well]

theorem timebaseSwitchback_effect (s : State) (d : Nat) (hd : s.time.baseReturn = some d) (ht : d ≤ s.dt) :
    ∃ u, exec .timebaseSwitchback s = .next u ∧ u.time.base = 0 := by
  refine ⟨s.updTime fun t => { t with base := 0, baseReturn := none }, ?_, rfl⟩
  show execTimebaseSwitchback s = _
  simp only [execTimebaseSwitchback, hd, if_pos ht]
  rfl

/-! ### TIME_SOURCE (R49, R51, R52) -/

/-- A change of the sources leaves the rest of the block, but for the PTP slave, as a change of DT's state does. -/
theorem State.setSource_steady (s : State) (phase freq port domain hold : Nat) :
    ∃ p, (s.setSource phase freq port domain hold).time.steady = { s.time with
      phase := phase, freq := freq, ptpPort := port, ptpDomain := domain, holdoverS := hold, ptp := p }.steady := by
  unfold State.setSource
  extract_lets t samePtp same s1 s2
  have h2 : s2.time.steady = s1.time.steady := by
    simp only [s2]
    split
    · rfl
    · exact State.leaveLocked_steady s1 1
  refine ⟨s1.time.ptp, Eq.trans ?_ h2⟩
  split
  · rfl
  · split
    · rfl
    · split
      · rfl
      · rfl

theorem timeSource_effect (s : State) (c : CmdRef) (ph fr port dom hold : Nat)
    (ha : s.accepts c 0x0500 [(1, ph), (1, fr), (2, port), (1, dom), (4, hold)]) (h1 : ph ≤ 3) (h2 : fr ≤ 2)
    (h3 : dom ≤ 127) (h4 : port ≤ 127) (h5 : hold ≤ 604800) :
    Claims.answersOk s (.timeSource c ph fr port dom hold) c fun u =>
      u.time.phase = ph ∧ u.time.freq = fr ∧ u.time.ptpPort = port ∧ u.time.ptpDomain = dom ∧ u.time.holdoverS = hold
        ∧ u.dt = s.dt := by
  have body : timeSourceBody ph fr port dom hold s = (s.setSource ph fr port dom hold, .ok) := if_neg (by omega)
  obtain ⟨p, kept⟩ := s.setSource_steady ph fr port dom hold
  exact ⟨_, State.command_ok ha body, (congrArg TimeSt.phase kept :), (congrArg TimeSt.freq kept :),
    (congrArg TimeSt.ptpPort kept :), (congrArg TimeSt.ptpDomain kept :), (congrArg TimeSt.holdoverS kept :),
    (congrArg (·.ns.toNat) kept :)⟩

/-! ### Steps (R60-R62) -/

theorem State.stepDelays_time (s : State) (cl : Nat) : (s.stepDelays cl).time = s.time :=
  State.foldl_keeps State.time (fun (x : State) (d : DelayEnt) => x.setFlags d.t (BitVec.ofNat 32 (2 ^ d.flag.toNat)))
    (fun x d => State.setFlags_time x d.t _) _ _

/-- A step of DT: only the time block's own stamps move with it (R62). -/
theorem State.stepDt_time (s : State) (c : Sys2Proof.CmdRef) (a : Nat) : (s.stepDt c a).time = TimeSt.ppsSkip
    { (s.time.move a) with
      ns := s.time.ns + BitVec.ofNat 64 a, stepGen := s.time.stepGen + 1, stepBy := some c, stepNeeded := false
      stepDt := s.dt + a } := by
  unfold State.stepDt
  extract_lets old s1 s2
  have h2 : s2.time = s1.time := State.foldl_keeps State.time State.stepDelays State.stepDelays_time _ s1
  split
  · rw [State.openEpoch_time, State.closeOpen_time, h2]
    rfl
  · rw [h2]
    rfl

theorem State.stepDt_dt {s : State} {a : Nat} (c : Sys2Proof.CmdRef) (h : s.dt + a < 2 ^ 64) :
    (s.stepDt c a).dt = s.dt + a := by
  have ns : (s.stepDt c a).dt = (s.time.ns + BitVec.ofNat 64 a).toNat := congrArg (·.ns.toNat) (s.stepDt_time c a)
  rw [ns, BitVec.toNat_add, BitVec.toNat_ofNat, Nat.add_mod_mod]
  exact Nat.mod_eq_of_lt h

section
variable {s : State} {c : CmdRef} {a : Nat} {g : W32} (hm : s.mine c.fn = true) (h0 : 0 < a) (h1 : a ≤ 2 ^ 62)
  (h2 : s.dt + a < 2 ^ 64)
include hm h0 h1 h2

theorem State.tryStep_applies (hg : g = s.time.stepGen) : s.tryStep c a g = (s.stepDt c a, .ok) := by
  unfold State.tryStep
  rw [if_neg (by simp [hm]), if_neg (by omega), if_pos hg]

theorem State.tryStep_refuses (hg : g ≠ s.time.stepGen) (hn : g + 1 ≠ s.time.stepGen) :
    s.tryStep c a g = (s, wrongState) := by
  unfold State.tryStep
  rw [if_neg (by simp [hm]), if_neg (by omega), if_neg hg, if_neg fun h => hn h.1]

end

/-- With no epoch in its grace and no step waiting, a TIME_STEP is decided at once. -/
theorem timeStepBody_now {s : State} (c : CmdRef) (a : Nat) (g : W32) (hc : s.ledger.closing = none)
    (hd : s.time.deferred = []) : timeStepBody c a g s = s.tryStep c a g := if_neg (by simp [hc, hd])

theorem timeStep_effect (s : State) (c : CmdRef) (a : Nat) (g : W32) (ha : s.accepts c 0x0501 [(8, a), (4, g.toNat)])
    (hm : s.mine c.fn = true) (hc : s.ledger.closing = none) (hd : s.time.deferred = []) (h0 : 0 < a) (h1 : a ≤ 2 ^ 62)
    (h2 : s.dt + a < 2 ^ 64) :
    (g = s.time.stepGen → Claims.answersOk s (.timeStep c a g) c fun u => u.dt = s.dt + a ∧ u.time.stepGen = g + 1
        ∧ u.time.stepNeeded = false)
      ∧ (g ≠ s.time.stepGen → g + 1 ≠ s.time.stepGen → Claims.refusedWith s (.timeStep c a g) c 10) := by
  have now := timeStepBody_now c a g hc hd
  refine ⟨fun hg => ?_, fun hg hn => ?_⟩
  · refine ⟨_, State.command_ok ha (now.trans (State.tryStep_applies hm h0 h1 h2 hg)), State.stepDt_dt c h2, ?_, ?_⟩
    · rw [State.stepDt_time, hg]
      rfl
    · rw [State.stepDt_time]
      rfl
  · exact State.command_status ha (now.trans (State.tryStep_refuses hm h0 h1 h2 hg hn))

theorem timeStep_deferred (s : State) (c : CmdRef) (a : Nat) (g : W32)
    (ha : s.accepts c 0x0501 [(8, a), (4, g.toNat)]) (hc : s.ledger.closing.isSome = true) :
    Claims.goesOn s (.timeStep c a g) c fun u => u.time.deferred = s.time.deferred ++ [⟨c, a, g⟩] ∧ u.dt = s.dt := by
  have body : timeStepBody c a g s
      = (s.updTime fun t => { t with deferred := t.deferred ++ [⟨c, a, g⟩] }, .later) := if_pos (.inl hc)
  exact ⟨_, State.command_later ha body, rfl, rfl⟩

theorem timeStepDeferredApply_effect (s : State) (c : CmdRef) (a : Nat) (g : W32) (hd : s.time.deferred = [⟨c, a, g⟩])
    (hc : s.ledger.closing = none) (hr : s.running c 0x0501 = true) (hm : s.mine c.fn = true) (h0 : 0 < a)
    (h1 : a ≤ 2 ^ 62) (h2 : s.dt + a < 2 ^ 64) (hg : g = s.time.stepGen) :
    Claims.answersOk s .timeStepDeferredApply c fun u => u.dt = s.dt + a ∧ u.time.deferred = [] := by
  let s1 := s.updTime fun t => { t with deferred := [] }
  have step : s1.tryStep c a g = (s1.stepDt c a, .ok) := State.tryStep_applies (s := s1) hm h0 h1 h2 hg
  refine ⟨s1.stepDt c a, ?_, State.stepDt_dt (s := s1) c h2, ?_⟩
  · show execTimeStepDeferredApply s = _
    unfold execTimeStepDeferredApply
    simp only [hd]
    rw [if_neg (by simp [hc, hr])]
    show done ((s1.tryStep c a g).1.answer c (s1.tryStep c a g).2) = _
    rw [step]
    rfl
  · rw [State.stepDt_time]
    rfl

/-! ### TIME_STATUS, PPS_OUT_CONFIG (R46, R72) -/

theorem timeStatus_effect (s : State) (c : CmdRef) (ha : s.accepts c 0x0502 []) :
    ∃ (u : State) (l : List Byte), exec (.dtNowRead .pumphouse) s = .next u
      ∧ l = layout [(8, (u.dtSnap .pumphouse).toNat), (8, ofInt 64 s.time.offset), (1, s.time.ptp.qualified.toNat
        + 2 * s.time.refs.ppsQualified.toNat + 4 * s.time.refs.trefQualified.toNat), (4, ofInt 32 s.time.corr)]
      ∧ (s.tooLong c (.data l) = false → exec (.timeStatus c) s = .next (u.answer c (.data l))) :=
  ⟨_, _, rfl, rfl, fun fits => State.command_answers ha rfl fits⟩

theorem ppsOutConfig_effect (s : State) (c : CmdRef) (q : Int) (h f : Nat)
    (ha : s.accepts c 0x0503 [(4, ofInt 32 q), (4, h), (1, f)]) (hq : q.natAbs ≤ 4000000) (h1 : 1000 ≤ h)
    (h2 : h ≤ 500000000) (hf : f ≤ 1) : Claims.answersOk s (.ppsOutConfig c q h f) c fun u => u.time.pps.compQns = q
      ∧ u.time.pps.highNs = h ∧ u.time.pps.freerun = decide (f = 1) ∧ u.dt = s.dt := by
  have body : ppsOutConfigBody q h f s = _ := if_neg (by omega)
  obtain ⟨l, n, settled⟩ := TimeSt.ppsSettle_eq { s.time with pps := { s.time.pps with
    compQns := q, highNs := h, freerun := f = 1 } } (s.time.ppsOn && decide (q = s.time.pps.compQns))
  exact ⟨_, State.command_ok ha body, (congrArg (·.pps.compQns) settled :), (congrArg (·.pps.highNs) settled :),
    (congrArg (·.pps.freerun) settled :), (congrArg (·.ns.toNat) settled :)⟩

/-- Settles O27: each clause is a lemma about its command. -/
theorem deviceTime : Obligations.DeviceTime := by
  unfold Obligations.DeviceTime
  refine ⟨⟨dtNowRead_effect, fun s h hr hd ht hp => ⟨fun d => ptpAnnounce_effect hr hd ht hp d, fun hs =>
      ⟨fun q t1 t2 i => ptpSync_effect hr hd ht hp hs q t1 t2 i, fun q t3 t4 => ptpDelayResp_effect hr hd ht hp hs q t3 t4⟩⟩,
    ptpLossTimeout_effect, ppsInEdge_first, ppsInEdge_fourth, ppsInMissing_effect, trefQualified_effect, trefLoss_effect,
    holdoverExpiry_effect, ppsOutRise_effect, ppsOutFall_effect, refclkLoss_effect, refclkReturn_effect,
    laneRecalDone_effect, timebaseSwitchback_effect⟩, fun s c => ?_⟩
  exact ⟨timeSource_effect s c, timeStep_effect s c, timeStep_deferred s c, timeStepDeferredApply_effect s c,
    timeStatus_effect s c, ppsOutConfig_effect s c⟩

end Sys2Proof.Machine
end

section
/-!
PROOFS. What a link that ends, goes down or comes up leaves alone (R94-R100, R109, R425, R554): the settings and the state of
every port but its traffic, the modes of the ports, the cages and the wells.
-/

namespace Sys2Proof.Machine

/-! ### A link that ends changes no port but its traffic, and no cage (R97, R425) -/

/-- A port without its counters, its words and its frames. -/
def Port.still (x : Port) : Port := { x with intake := {}, mac := {}, fill := [], drain := [], arriving := [], parseQ := [] }

/-- Every port without its traffic, and the cages. -/
def State.fixtures (s : State) : (Nat → Port) × SMap Cage := (fun q => (s.port q).still, s.net.cages)

theorem State.fixtures_of_net {s u : State} (h : u.net = s.net) : u.fixtures = s.fixtures := by
  simp only [State.fixtures, State.port, h]

/-- What a change of one port keeps of that port, it keeps of every port. -/
theorem State.updPort_keeps {β : Type} (φ : Port → β) (s : State) (p q : Nat) (g : Port → Port)
    (hg : ∀ x, φ (g x) = φ x) : φ ((s.updPort p g).port q) = φ (s.port q) := by
  by_cases h : q = p
  · subst h
    rw [State.updPort_port, hg]
  · rw [State.updPort_port_ne s g h]

theorem State.updPort_fixtures (s : State) (p : Nat) (g : Port → Port)
    (hg : ∀ x, (g x).still = x.still := by exact fun _ => rfl) : (s.updPort p g).fixtures = s.fixtures :=
  Prod.ext (funext fun q => s.updPort_keeps Port.still p q g hg) rfl

section
variable (s : State) (p : Nat)

theorem State.updPkt_fixtures (g : Pkt → Pkt) : (s.updPkt p g).fixtures = s.fixtures :=
  State.fixtures_of_net (State.updPkt_net ..)
theorem State.updRc_fixtures (g : RunRec → RunRec) : (s.updRc p g).fixtures = s.fixtures :=
  State.fixtures_of_net (State.updRc_net ..)
theorem State.updTr_fixtures (g : ThrRun → ThrRun) : (s.updTr p g).fixtures = s.fixtures :=
  State.fixtures_of_net (State.updTr_net ..)
theorem State.updOrder_fixtures (g : OrderSt → OrderSt) : (s.updOrder g).fixtures = s.fixtures :=
  State.fixtures_of_net (State.updOrder_net ..)
theorem State.updPump_fixtures (g : Pump → Pump) : (s.updPump p g).fixtures = s.fixtures :=
  State.fixtures_of_net (State.updPump_net ..)
theorem State.updEport_fixtures (g : EPort → EPort) : (s.updEport p g).fixtures = s.fixtures :=
  State.fixtures_of_net (State.updEport_net ..)
theorem State.updWell_fixtures (g : Well → Well) : (s.updWell p g).fixtures = s.fixtures := rfl
theorem State.freeBuf_fixtures : (s.freeBuf p).fixtures = s.fixtures :=
  State.fixtures_of_net (State.freeBuf_basinStep s p).net
theorem State.intakeCnt_fixtures (g : IntakeCnt → IntakeCnt) : (s.intakeCnt p g).fixtures = s.fixtures :=
  s.updPort_fixtures p _
theorem State.macCnt_fixtures (g : MacCnt → MacCnt) : (s.macCnt p g).fixtures = s.fixtures := s.updPort_fixtures p _

end

/-- A refused frame is counted, and what it was in is left (R26). -/
theorem State.refuse_fixtures (s : State) (p code : Nat) : (s.refuse p code).fixtures = s.fixtures := by
  unfold State.refuse
  extract_lets k s0 s1 s2 s3
  have h0 : s0.fixtures = s.fixtures := (State.updPkt_fixtures ..).trans (s.updPort_fixtures _ _)
  have h1 : s1.fixtures = s.fixtures := by
    simp only [s1]
    split
    · exact h0
    · split
      · exact (State.freeBuf_fixtures ..).trans h0
      · exact h0
  have h2 : s2.net = s1.net := (State.cascade_net _ [p]).trans (s1.refund_net p)
  have h3 : s3.fixtures = s.fixtures :=
    (State.fixtures_of_net ((State.fenceCheck_net _).trans ((State.updDom_net ..).trans h2))).trans h1
  have ended (x : State) : (x.endRefused p).fixtures = x.fixtures := x.updPkt_fixtures p _
  split
  · rfl
  · split
    · exact h1
    · split
      · exact ((ended _).trans (State.fixtures_of_net (s3.clearRun_net p))).trans h3
      · exact ((ended _).trans (State.updOrder_fixtures ..)).trans h3
      · exact ((ended _).trans (State.updWell_fixtures ..)).trans h3
      · exact ((ended _).trans (State.updTr_fixtures ..)).trans h3
      · exact ((ended _).trans ((State.updOrder_fixtures ..).trans (State.fixtures_of_net (s3.freeProv_net p _)))).trans h3
      · exact h3

theorem State.frameIn_fixtures (s : State) (port : Nat) (words : List IWord) (ended : Bool) :
    (s.frameIn port words ended).fixtures = s.fixtures := by
  have started (x : State) (p : Nat) : (x.startFrame port p).fixtures = x.fixtures := by
    unfold State.startFrame
    split
    · exact x.refuse_fixtures p 5
    · exact x.updPort_fixtures port _
  have arrived : (s.arrived port).fixtures = s.fixtures := (State.updPort_fixtures ..).trans (State.fixtures_of_net rfl)
  exact (((State.updPkt_fixtures ..).trans (State.updPort_fixtures _ _ _)).trans (started _ _)).trans arrived

theorem State.pfcTake_net (s : State) (p : Nat) (bytes : List Byte) : (s.pfcTake p bytes).net = s.net :=
  State.foldl_keeps State.net _ (fun x k => by
    split
    · exact x.updEport_net p _
    · rfl) _ s

theorem State.macControl_fixtures (s : State) (port : Nat) (bytes : List Byte) (rxerr : Bool) :
    (s.macControl port bytes rxerr).fixtures = s.fixtures := by
  unfold State.macControl
  dsimp only
  split
  · exact s.macCnt_fixtures port _
  · split
    · split
      · exact (State.updEport_fixtures ..).trans (s.macCnt_fixtures port _)
      · exact s.macCnt_fixtures port _
    · split
      · split
        · exact (State.fixtures_of_net (State.pfcTake_net ..)).trans (s.macCnt_fixtures port _)
        · exact s.macCnt_fixtures port _
      · split
        · exact State.frameIn_fixtures ..
        · exact s.macCnt_fixtures port _

theorem State.wire_fixtures (s : State) (phys : Nat) (bytes : List Byte) (good : Bool) (dt : Nat) :
    (s.wire phys bytes good dt).fixtures = s.fixtures := by
  have returned (bs : List Byte) : (s.macReturn phys bs).fixtures = s.fixtures := by
    unfold State.macReturn
    split
    · rfl
    · split
      · exact State.macControl_fixtures ..
      · exact State.frameIn_fixtures ..
  unfold State.wire
  split
  · exact returned _
  · rfl

theorem State.stompCt_fixtures (s : State) (p : Nat) : (s.stompCt p).fixtures = s.fixtures := by
  unfold State.stompCt
  split
  · exact s.updRc_fixtures p _
  · refine State.foldl_keeps State.fixtures _ (fun x phys => ?_) _ s
    dsimp only
    split
    · split
      · rw [State.updRc_fixtures, State.updPump_fixtures, State.stompNow, State.updEport_fixtures, State.stompCount]
        exact (State.updPort_fixtures _ _ _).trans (State.wire_fixtures ..)
      · rfl
    · rfl

theorem State.refuseFrame_fixtures (s : State) (p code : Nat) : (s.refuseFrame p code).fixtures = s.fixtures := by
  unfold State.refuseFrame
  split
  · rfl
  · split
    · dsimp only
      split
      · rw [State.freeBuf_fixtures, State.updPkt_fixtures, State.refuse_fixtures, State.stompCt_fixtures, State.updPkt_fixtures]
      · rw [State.updPkt_fixtures, State.refuse_fixtures, State.stompCt_fixtures, State.updPkt_fixtures]
    · exact s.refuse_fixtures p code

theorem State.tryAccept_fixtures (s : State) (p : Nat) : (s.tryAccept p).fixtures = s.fixtures := by
  have queued (x : State) (k : Pkt) : (x.learnQueue k).fixtures = x.fixtures := by
    unfold State.learnQueue
    split
    · rfl
    · split
      · rfl
      · exact x.intakeCnt_fixtures k.inPort _
  unfold State.tryAccept
  extract_lets k s1 s2
  have h2 : s2.fixtures = s.fixtures := by
    simp only [s2, s1]
    rw [queued, State.fixtures_of_net (State.classFrame_wakeStep _ _).net, State.intakeCnt_fixtures, State.updPkt_fixtures]
  have stomped : (if (s.rc p).ct then s2.stompCt p else s2).fixtures = s.fixtures := by
    split
    · rw [State.stompCt_fixtures, h2]
    · exact h2
  split
  · rfl
  · split
    · rw [State.fixtures_of_net (State.redo_net _ p .poison), State.intakeCnt_fixtures, stomped]
    · exact h2

theorem State.cutFrame_fixtures (s : State) (port : Nat) : (s.cutFrame port).fixtures = s.fixtures := by
  have checked (x : State) (p : Nat) : (x.tailCheck p).fixtures = x.fixtures := by
    unfold State.tailCheck
    split
    · exact x.refuseFrame_fixtures p _
    · rw [State.tryAccept_fixtures, State.fixtures_of_net (State.storeBytes_basinStep _ p).net, State.updPkt_fixtures]
  unfold State.cutFrame
  split
  · rfl
  · dsimp only
    split
    · refine (State.updPort_fixtures _ _ _).trans ?_
      split
      · exact State.updPkt_fixtures ..
      · rw [checked, State.updPkt_fixtures]
    · exact State.updPkt_fixtures ..

theorem State.txAbort_fixtures (s : State) (phys : Nat) : (s.txAbort phys).fixtures = s.fixtures := by
  unfold State.txAbort
  split
  · rfl
  · dsimp only
    split
    · rw [State.updRc_fixtures, State.updPump_fixtures, State.updEport_fixtures, State.wire_fixtures]
    · rw [State.fixtures_of_net (State.killCopy_net ..), State.updEport_fixtures, State.wire_fixtures]

theorem State.stopLink_fixtures (s : State) (p : Nat) : (s.stopLink p).fixtures = s.fixtures := by
  rw [State.stopLink, State.cutFrame_fixtures, State.txAbort_fixtures]

theorem State.stopLink_still (s : State) (p q : Nat) : ((s.stopLink p).port q).still = (s.port q).still :=
  congrFun (congrArg Prod.fst (s.stopLink_fixtures p)) q

/-! ### Ports that go down and come up keep their lanes, and change no cage (R96, R98-R100, R109) -/

/-- The lanes of every port, and the cages. -/
def State.grouping (s : State) : (Nat → Nat) × SMap Cage := (fun q => (s.port q).lanes, s.net.cages)

theorem State.grouping_of_net {s u : State} (h : u.net = s.net) : u.grouping = s.grouping := by
  simp only [State.grouping, State.port, h]

theorem State.updPort_grouping (s : State) (p : Nat) (g : Port → Port)
    (hg : ∀ x, (g x).lanes = x.lanes := by exact fun _ => rfl) : (s.updPort p g).grouping = s.grouping :=
  Prod.ext (funext fun q => s.updPort_keeps Port.lanes p q g hg) rfl

theorem State.stopLink_grouping (s : State) (p : Nat) : (s.stopLink p).grouping = s.grouping :=
  Prod.ext (funext fun q => (congrArg Port.lanes (s.stopLink_still p q) :)) (congrArg Prod.snd (s.stopLink_fixtures p) :)

theorem State.endTest_grouping (s : State) (p : Nat) (aborted : Bool) : (s.endTest p aborted).grouping = s.grouping := by
  unfold State.endTest
  split
  · exact (State.grouping_of_net (State.portEvent_net ..)).trans
      ((State.updPort_grouping _ _ _).trans (s.stopLink_grouping p))
  · rfl

theorem State.flap_grouping (s : State) (p : Nat) : (s.flap p).grouping = s.grouping := by
  unfold State.flap
  dsimp only
  split
  · exact (State.grouping_of_net (State.portEvent_net ..)).trans
      ((State.updPort_grouping _ _ _).trans (State.updPort_grouping _ _ _))
  · exact s.updPort_grouping p _

theorem State.goDown_grouping (s : State) (p reason : Nat) : (s.goDown p reason).grouping = s.grouping := by
  unfold State.goDown
  extract_lets s1
  have h1 : s1.grouping = s.grouping := (State.updPort_grouping _ _ _).trans (s.stopLink_grouping p)
  split
  · rw [State.flap_grouping, State.grouping_of_net (State.reportDown_net ..), h1]
  · exact h1

theorem State.takeDown_grouping (s : State) (p reason : Nat) : (s.takeDown p reason).grouping = s.grouping := by
  unfold State.takeDown
  dsimp only
  split
  · rw [State.goDown_grouping, State.endTest_grouping]
  · exact s.endTest_grouping p true

theorem State.bringUp_grouping (s : State) (p : Nat) : (s.bringUp p).grouping = s.grouping := by
  unfold State.bringUp
  dsimp only
  split
  · rfl
  · exact s.updPort_grouping p _

theorem State.unsuppress_grouping (s : State) (p : Nat) : (s.unsuppress p).grouping = s.grouping :=
  (State.grouping_of_net (State.portEvent_net ..)).trans
    ((State.bringUp_grouping _ p).trans (State.updPort_grouping _ _ _))

theorem State.modeAlone_grouping (s : State) (p mode fec : Nat) : (s.modeAlone p mode fec).grouping = s.grouping := by
  have set (x : State) : (x.updPort p fun y => { y with mode := mode, fec := fec }).grouping = x.grouping :=
    x.updPort_grouping p _
  unfold State.modeAlone
  dsimp only
  split
  · rw [State.bringUp_grouping, set, State.takeDown_grouping]
  · rw [set, State.takeDown_grouping]

/-! ### Bring-up changes a port's state and link (R94, R95) -/

theorem State.bringUp_wells (s : State) (p : Nat) : (s.bringUp p).net.wells = s.net.wells := by
  unfold State.bringUp
  dsimp only
  split
  · rfl
  · rfl

/-- What does not read a port's state and link is the same after bring-up. -/
theorem State.bringUp_keeps {β : Type} (φ : Port → β) (s : State) (p q : Nat)
    (hφ : ∀ (x : Port) st l, φ { x with st := st, link := l } = φ x := by exact fun _ _ _ => rfl) :
    φ ((s.bringUp p).port q) = φ (s.port q) := by
  unfold State.bringUp
  dsimp only
  split
  · rfl
  · exact s.updPort_keeps φ p q _ fun x => hφ x _ _

/-- An enabled port goes to training, or DOWN where it has none or its lanes have no clock. -/
theorem State.bringUp_enabled {s : State} {p : Nat} (h : (s.port p).enabled = true) :
    (((s.bringUp p).port p).st = .training ∨ ((s.bringUp p).port p).st = .down)
      ∧ ((s.bringUp p).port p).link.downs = (s.port p).link.downs ∧ ((s.bringUp p).port p).link.suppressEnd = none := by
  unfold State.bringUp
  dsimp only
  rw [if_neg (by simp [h]), State.updPort_port]
  refine ⟨?_, rfl, rfl⟩
  dsimp only
  split
  · exact .inl rfl
  · exact .inr rfl

/-- A port that is DOWN or SUPPRESSED is not in TEST after bring-up. -/
theorem State.bringUp_st_ne_test {s : State} {p : Nat} (h : (s.port p).st ≠ .test) : ((s.bringUp p).port p).st ≠ .test := by
  cases he : (s.port p).enabled with
  | false =>
    have unchanged : s.bringUp p = s := if_pos (by simp [he])
    rw [unchanged]
    exact h
  | true =>
    obtain ⟨st, -⟩ := State.bringUp_enabled he
    rcases st with st | st <;> simp [st]

/-! ### A well restarts (R81) -/

@[simp] theorem State.updWell_port (s : State) (w q : Nat) (g : Well → Well) : (s.updWell w g).port q = s.port q := rfl

/-- The state in which all ports of a well have gone DOWN for a new grouping. -/
def State.wellDown (s : State) (w : Nat) : State := (s.wellPorts w).foldl (fun acc p => State.takeDown acc p 5) s

/-- What does not read a port's state and link is, after a restart, as the change left it. -/
theorem State.restartWell_keeps {β : Type} (φ : Port → β) (s : State) (w q : Nat) (change : State → State)
    (hφ : ∀ (x : Port) st l, φ { x with st := st, link := l } = φ x := by exact fun _ _ _ => rfl) :
    φ ((s.restartWell w change).port q) = φ ((change (s.wellDown w)).port q) :=
  State.foldl_keeps (fun x => φ (x.port q)) _ (fun x p => by
    split
    · rfl
    · exact x.bringUp_keeps φ p q hφ) _ _

/-- The well is as the change left it, and no longer sluiced for it. -/
theorem State.restartWell_well (s : State) (w : Nat) (change : State → State) :
    (s.restartWell w change).well w = { (change (s.wellDown w)).well w with reconfig := false } := by
  have wells : (s.restartWell w change).net.wells
      = ((change (s.wellDown w)).updWell w fun x => { x with reconfig := false }).net.wells :=
    State.foldl_keeps (fun x => x.net.wells) _ (fun x p => by
      split
      · rfl
      · exact x.bringUp_wells p) _ _
  rw [State.well, wells]
  exact State.updWell_well ..

end Sys2Proof.Machine
end

section
/-!
PROOFS. O33: links are lost and return, hold-off, debounce, damping, negotiation and training take their steps, and MAC control
frames act (R87, R94, R95, R98-R100, R416).
-/

namespace Sys2Proof.Machine

/-! ### Loss and return (R98, R99) -/

theorem linkLoss_effect (s : State) (p : Nat) (k : LossKind) (h : (s.port p).link.present = true) :
    ∃ u, exec (.linkLoss p k) s = .next u ∧ (u.port p).link.present = false ∧ (u.port p).link.debounceDt = none
      ∧ (u.port p).st = (s.port p).st
      ∧ ((s.port p).st = .up → (s.port p).link.lossDt = none → (u.port p).link.lossDt = some s.dt) := by
  have stopped : ((s.stopLink p).port p).st = (s.port p).st := (congrArg Port.st (s.stopLink_still p p) :)
  refine ⟨s.loseLink p (LossKind.code k), if_pos h, ?_⟩
  unfold State.loseLink
  dsimp only
  by_cases hold : (s.port p).st = .up ∧ (s.port p).link.lossDt.isNone
  · rw [if_pos hold]
    simp [State.updLink, stopped]
  · rw [if_neg hold]
    simp only [State.updLink, State.updPort_port]
    exact ⟨trivial, trivial, stopped, fun up loss => absurd ⟨up, by simp [loss]⟩ hold⟩

theorem linkReturn_effect (s : State) (p : Nat) (hl : (s.port p).lanes ≠ 0) (he : (s.port p).enabled = true)
    (hp : (s.port p).link.present = false) (ht : (s.port p).link.trained = true) (hr : (s.well (wellOf p)).refclk = true)
    (hc : (s.well (wellOf p)).recal = false) (hj : s.trust.jtag.pins = false)
    (hs : (s.port p).st = .down ∨ (s.port p).st = .up) : ∃ u, exec (.linkReturn p) s = .next u
      ∧ (u.port p).link.present = true ∧ (u.port p).link.debounceDt = some s.dt := by
  have comes : execLinkReturn p s = .next (s.updLink p fun l => { l with present := true, debounceDt := some s.dt }) := by
    unfold execLinkReturn
    rcases hs with st | st <;> simp [hl, he, hp, ht, hr, hc, hj, st, done]
  exact ⟨_, comes, by simp [State.updLink]⟩

/-! ### Hold-off, debounce and damping (R98-R100) -/

theorem State.l2FlushPort_time (s : State) (names : Nat → Bool) : (s.l2FlushPort names).time = s.time :=
  State.foldl_keeps State.time (fun (x : State) (w : Nat) => x.l2Remove w _)
    (fun x w => State.foldl_keeps State.time (fun (y : State) i => y.updL2t w fun z => z.put i none) (fun _ _ => rfl) _ x) _ s

theorem State.policyStart_time (s : State) (p : Nat) : (s.policyStart p).time = s.time := by
  unfold State.policyStart
  dsimp only
  split
  · exact State.event_time ..
  · rfl

theorem State.reportDown_dt (s : State) (p reason : Nat) : (s.reportDown p reason).dt = s.dt := by
  unfold State.reportDown
  extract_lets s1 s2
  have h2 : s2.time = s.time := by
    simp only [s2]
    split
    · exact (State.l2FlushPort_time _ _).trans (State.event_time ..)
    · exact State.event_time ..
  have kept : (if (s2.eport p).phase = .flush then s2 else s2.policyStart p).time = s.time := by
    split
    · exact h2
    · exact (State.policyStart_time _ p).trans h2
  rw [State.dt, kept, State.dt]

/-- The port's transitions to DOWN within its window, with the one now (R100). -/
def State.downsNow (s : State) (p : Nat) : List Nat :=
  s.dt :: (s.port p).link.downs.filter fun d => s.dt < d + (s.port p).cfg.flapWindowS * secNs

/-- A transition to DOWN enters the window, and suppresses the port at the threshold. -/
theorem State.flap_port (s : State) (p : Nat) : ((s.flap p).port p).link.downs = s.downsNow p
    ∧ ((s.flap p).port p).link.lossDt = (s.port p).link.lossDt
    ∧ ((s.flap p).port p).st = if (s.port p).cfg.flapThreshold ≠ 0 ∧ (s.port p).cfg.flapThreshold ≤ (s.downsNow p).length
        then .suppressed else (s.port p).st := by
  let s1 := s.updLink p fun l => { l with downs := s.downsNow p }
  by_cases full : (s.port p).cfg.flapThreshold ≠ 0 ∧ (s.port p).cfg.flapThreshold ≤ (s.downsNow p).length
  · have suppressed : s.flap p = _ := if_pos full
    rw [suppressed, if_pos full, State.port_of_net (State.portEvent_net ..)]
    simp [State.updLink, State.downsNow]
  · have counted : s.flap p = s1 := if_neg full
    rw [counted, if_neg full]
    simp [s1, State.updLink]

theorem linkHoldoffExpiry_effect (s : State) (p d : Nat) (hd : (s.port p).link.lossDt = some d)
    (ht : d + 1000000 * (s.port p).cfg.holdoffMs ≤ s.dt) :
    let w := (s.port p).cfg.flapWindowS * 1000000000
    let downs := s.dt :: (s.port p).link.downs.filter fun d => s.dt < d + w
    ∃ u, exec (.linkHoldoffExpiry p) s = .next u ∧ (u.port p).link.lossDt = none ∧ (u.port p).link.downs = downs
      ∧ (u.port p).st = if (s.port p).cfg.flapThreshold ≠ 0 ∧ (s.port p).cfg.flapThreshold ≤ downs.length
          then .suppressed else .down := by
  let s1 := s.updPort p fun y => { y with st := .down, link := { y.link with lossDt := none } }
  let s2 := s1.reportDown p (s.port p).link.lossReason
  have port : s2.port p = { s.port p with st := .down, link := { (s.port p).link with lossDt := none } } := by
    rw [State.port_of_net (State.reportDown_net ..), State.updPort_port]
  have downs : s2.downsNow p = s.downsNow p := by
    rw [State.downsNow, port, State.reportDown_dt]
    rfl
  have run : exec (.linkHoldoffExpiry p) s = .next (s2.flap p) := by
    show execLinkHoldoffExpiry p s = _
    simp only [execLinkHoldoffExpiry, hd, if_neg (Nat.not_lt.2 ht)]
    rfl
  obtain ⟨window, loss, st⟩ := s2.flap_port p
  rw [downs] at window st
  rw [port] at loss st
  exact ⟨_, run, loss, window, st⟩

theorem State.policyEnd_net (s : State) (p : Nat) : (s.policyEnd p).net = s.net := by
  unfold State.policyEnd
  dsimp only
  split
  · exact State.event_net ..
  · rfl

theorem linkDebounceExpiry_effect (s : State) (p d : Nat) (hd : (s.port p).link.debounceDt = some d)
    (ht : d + 1000000 * (s.port p).cfg.debounceMs ≤ s.dt) :
    ∃ u, exec (.linkDebounceExpiry p) s = .next u ∧ (u.port p).st = .up ∧ (u.port p).link.debounceDt = none
      ∧ (u.port p).link.lossDt = none := by
  let s1 := s.updLink p fun l => { l with debounceDt := none, lossDt := none }
  have run : exec (.linkDebounceExpiry p) s = .next (if (s.port p).st = .up then s1 else
      ((s1.updPort p fun y => { y with st := .up }).portEvent p 0 0 []).policyEnd p) := by
    show execLinkDebounceExpiry p s = _
    simp only [execLinkDebounceExpiry, hd, if_neg (Nat.not_lt.2 ht)]
    split <;> rfl
  refine ⟨_, run, ?_⟩
  by_cases up : (s.port p).st = .up
  · rw [if_pos up]
    simp [s1, State.updLink, up]
  · rw [if_neg up, State.port_of_net ((State.policyEnd_net ..).trans (State.portEvent_net ..))]
    simp [s1, State.updLink]

/-- Bring-up restarts with an empty window. -/
theorem State.unsuppress_port {s : State} {p : Nat} (he : (s.port p).enabled = true) :
    (((s.unsuppress p).port p).st = .training ∨ ((s.unsuppress p).port p).st = .down)
      ∧ ((s.unsuppress p).port p).link.downs = [] ∧ ((s.unsuppress p).port p).link.suppressEnd = none := by
  let s1 := s.updLink p fun l => { l with downs := [], suppressEnd := none }
  have port : s1.port p = { s.port p with link := { (s.port p).link with downs := [], suppressEnd := none } } :=
    State.updPort_port ..
  obtain ⟨st, downs, ended⟩ := State.bringUp_enabled (s := s1) (p := p) (by rw [port]; exact he)
  rw [State.unsuppress, State.port_of_net (State.portEvent_net ..)]
  exact ⟨st, downs.trans (congrArg (·.link.downs) port :), ended⟩

theorem flapSuppressExpiry_effect (s : State) (p d : Nat) (hd : (s.port p).link.suppressEnd = some d) (ht : d ≤ s.dt)
    (hs : (s.port p).st = .suppressed) (he : (s.port p).enabled = true) :
    ∃ u, exec (.flapSuppressExpiry p) s = .next u ∧ ((u.port p).st = .training ∨ (u.port p).st = .down)
      ∧ (u.port p).link.downs = [] ∧ (u.port p).link.suppressEnd = none := by
  have run : exec (.flapSuppressExpiry p) s = .next (s.unsuppress p) := by
    show execFlapSuppressExpiry p s = _
    simp [execFlapSuppressExpiry, hd, hs, Nat.not_lt.2 ht, done]
  exact ⟨_, run, State.unsuppress_port he⟩

/-! ### Negotiation and training (R81, R94, R95) -/

/-- What a port's lanes are grouped and coded as. -/
def Port.setting (x : Port) : Nat × Nat × Nat := (x.lanes, x.mode, x.fec)

/-- The port that the regrouping is for takes its new lanes, mode and FEC. -/
theorem State.modeRegroup_setting (s : State) (p mode fec : Nat) :
    ((s.modeRegroup p mode fec).port p).setting = (lanesOf mode, mode, fec) := by
  unfold State.modeRegroup
  refine (State.restartWell_keeps Port.setting s (wellOf p) p _).trans ?_
  simp only [State.updWell_port, State.updPort_port, Port.setting]

/-- The negotiated mode is the port's, and it goes on to training. -/
theorem State.negotiated_port (s : State) (p mode fec : Nat) : ((s.negotiated p mode fec).port p).mode = mode
    ∧ ((s.negotiated p mode fec).port p).link.anDone = true ∧ ((s.negotiated p mode fec).port p).st = .training := by
  let s1 := if s.reconfigures p mode then s.modeRegroup p mode fec
    else s.updPort p fun x => { x with mode := mode, fec := fec }
  have taken : (s1.port p).mode = mode := by
    simp only [s1]
    split
    · exact (congrArg (·.2.1) (s.modeRegroup_setting p mode fec) :)
    · rw [State.updPort_port]
  rw [State.negotiated, State.port_of_net (State.portEvent_net ..)]
  simp only [State.updPort_port]
  exact ⟨taken, trivial, trivial⟩

section
variable {s : State} {p m : Nat} {x : Partner} (hs : (s.port p).st = .training) (ha : (s.port p).link.anDone = false)
  (hm : resolveMode (s.port p).lanes (s.port p).cfg.ability x.modes = some m) (hg : regionSum (s.regionsFor p m) ≤ 256)
include hs ha hm hg

theorem anComplete_resolved : exec (.anComplete p x) s = .next (if s.reconfigures p m ∧ !s.wellQuiet (wellOf p) then
    s.updWell (wellOf p) fun w => { w with reconfig := true } else s.negotiated p m (resolveFec m x.rsfec)) := by
  show execAnComplete p x s = _
  unfold execAnComplete
  dsimp only
  rw [if_neg (by simp [hs, ha]), hm]
  dsimp only
  rw [if_neg (Nat.not_lt.2 hg)]
  split <;> rfl

theorem anComplete_takes (h : s.reconfigures p m = false ∨ s.wellQuiet (wellOf p) = true) :
    ∃ u, exec (.anComplete p x) s = .next u ∧ (u.port p).mode = m ∧ (u.port p).link.anDone = true
      ∧ (u.port p).st = .training := by
  have atOnce : ¬(s.reconfigures p m ∧ (!s.wellQuiet (wellOf p)) = true) := by
    rcases h with h | h <;> simp [h]
  refine ⟨_, anComplete_resolved hs ha hm hg, ?_⟩
  rw [if_neg atOnce]
  exact s.negotiated_port p m _

theorem anComplete_waits (h : s.reconfigures p m = true) (hq : s.wellQuiet (wellOf p) = false) :
    ∃ u, exec (.anComplete p x) s = .next u ∧ (u.well (wellOf p)).reconfig = true ∧ u.port p = s.port p := by
  refine ⟨_, anComplete_resolved hs ha hm hg, ?_⟩
  rw [if_pos (by simp [h, hq]), State.updWell_well]
  exact ⟨rfl, rfl⟩

end

section
variable {s : State} {p : Nat} (hs : (s.port p).st = .training) (ha : (s.port p).link.anDone = true)
include hs ha

theorem trainingDone_effect :
    ∃ u, exec (.trainingDone p) s = .next u ∧ (u.port p).link.trained = true ∧ (u.port p).st = .down :=
  ⟨_, if_neg (by simp [hs, ha]), by simp⟩

theorem trainingTimeout_again (h : (s.port p).link.trainFails < 7) : ∃ u, exec (.trainingTimeout p) s = .next u
    ∧ (u.port p).link.trainFails = (s.port p).link.trainFails + 1 ∧ (u.port p).st = .training := by
  refine ⟨s.updLink p fun l => { l with trainFails := (s.port p).link.trainFails + 1 }, ?_, by simp [State.updLink, hs]⟩
  show execTrainingTimeout p s = _
  unfold execTrainingTimeout
  dsimp only
  rw [if_neg (by simp [hs, ha]), if_pos (by omega)]
  rfl

theorem trainingTimeout_fails (h : 7 ≤ (s.port p).link.trainFails) : ∃ u, exec (.trainingTimeout p) s = .next u
    ∧ (u.port p).st = .down ∧ (u.port p).link.trainRetry = some (s.dt + 1000000000) := by
  let n := (s.port p).link.trainFails + 1
  let s1 := s.updPort p fun y => { y with
    st := .down, link := { y.link with trainFails := n, trainRetry := some (s.dt + secNs) } }
  have run : exec (.trainingTimeout p) s = .next (if n = 8 then s1.portEvent p 3 0 [] else s1) := by
    show execTrainingTimeout p s = _
    unfold execTrainingTimeout
    dsimp only
    rw [if_neg (by simp [hs, ha]), if_neg (by omega)]
    rfl
  have net : (if n = 8 then s1.portEvent p 3 0 [] else s1).net = s1.net := by
    split
    · exact State.portEvent_net ..
    · rfl
  refine ⟨_, run, ?_⟩
  rw [State.port_of_net net, State.updPort_port]
  exact ⟨rfl, rfl⟩

end

theorem trainingRetry_effect (s : State) (p d : Nat) (hd : (s.port p).link.trainRetry = some d) (ht : d ≤ s.dt)
    (hs : (s.port p).st = .down) (hr : (s.well (wellOf p)).refclk = true) (hc : (s.well (wellOf p)).recal = false) :
    ∃ u, exec (.trainingRetry p) s = .next u ∧ (u.port p).st = .training ∧ (u.port p).link.trainRetry = none := by
  refine ⟨s.updPort p fun y => { y with st := .training, link := { y.link with trainRetry := none } }, ?_, by simp⟩
  show execTrainingRetry p s = _
  simp [execTrainingRetry, hd, hs, hr, hc, Nat.not_lt.2 ht, done]

/-! ### MAC control frames (R87, R416) -/

/-- A MAC control frame is good: its length fits the port, no code error was met, and its FCS is right. -/
def State.macGood (s : State) (p : Nat) (bs : List Byte) (rx : Bool) : Prop :=
  64 ≤ bs.length ∧ bs.length ≤ (s.port p).cfg.maxFrame ∧ rx = false
    ∧ bs.drop (bs.length - 4) = fcs (bs.take (bs.length - 4))

/-- The condition under which the model counts the frame as bad. -/
theorem State.macGood_iff (s : State) (p : Nat) (bs : List Byte) (rx : Bool) : s.macGood p bs rx ↔
    ¬(rx = true ∨ bs.length < 64 ∨ (s.port p).cfg.maxFrame < bs.length
      ∨ bs.drop (bs.length - 4) ≠ fcs (bs.take (bs.length - 4))) := by
  simp only [State.macGood, not_or, not_lt, ne_eq, not_not, Bool.not_eq_true]
  tauto

section
variable {s : State} {p : Nat} {bs : List Byte} {rx : Bool} (hr : s.receives p = true) (hp : s.inProgress p = none)
  (hl : 14 ≤ bs.length) (ht : slice bs 12 2 = [0x88, 0x08])
include hr hp hl ht

theorem macControlRx_consumed : exec (.macControlRx p bs rx) s = .next (s.macControl p bs rx) := by
  have control : isMacControl bs = true := by simp [isMacControl, hl, ht]
  exact if_neg (by simp [hr, hp, control])

theorem macControlRx_pause (ok : s.macGood p bs rx) (op : slice bs 14 2 = [0, 1]) (hf : (s.port p).cfg.fc = .pause)
    (hq : beVal (slice bs 16 2) ≠ 0) : ∃ u, exec (.macControlRx p bs rx) s = .next u
      ∧ (u.port p).mac.pauseRx = (s.port p).mac.pauseRx + 1
      ∧ SMap.get 0 (u.eport p).pauseEnd 8 = s.dt + (beVal (slice bs 16 2) * 512 + s.portRate p - 1) / s.portRate p := by
  let s1 := s.macCnt p fun m => { m with pauseRx := m.pauseRx + 1 }
  have act : s.macControl p bs rx = s1.pauseFor p 8 (beVal (slice bs 16 2)) := by
    unfold State.macControl
    dsimp only
    rw [if_neg ((s.macGood_iff p bs rx).1 ok), op, if_pos (by rfl), if_pos hf]
  have port : s1.port p = { s.port p with mac := { (s.port p).mac with pauseRx := (s.port p).mac.pauseRx + 1 } } :=
    State.macCnt_port ..
  have rate : s1.portRate p = s.portRate p := by rw [State.portRate, port, State.portRate]
  refine ⟨_, macControlRx_consumed hr hp hl ht, ?_⟩
  rw [act, State.pauseFor, rate, State.port_of_net (State.updEport_net ..), port]
  refine ⟨rfl, ?_⟩
  simp only [State.updEport_eport, SMap.get_set_self, if_neg hq]
  rfl

theorem macControlRx_pfc (ok : s.macGood p bs rx) (op : slice bs 14 2 = [1, 1]) : ∃ u,
    exec (.macControlRx p bs rx) s = .next u ∧ (u.port p).mac.pfcRx = (s.port p).mac.pfcRx + 1 := by
  let s1 := s.macCnt p fun m => { m with pfcRx := m.pfcRx + 1 }
  have act : s.macControl p bs rx = if (s.port p).cfg.fc = .pfc then s1.pfcTake p bs else s1 := by
    unfold State.macControl
    dsimp only
    rw [if_neg ((s.macGood_iff p bs rx).1 ok), op, if_neg (by decide), if_pos (by rfl)]
  have net : (if (s.port p).cfg.fc = .pfc then s1.pfcTake p bs else s1).net = s1.net := by
    split
    · exact s1.pfcTake_net p bs
    · rfl
  refine ⟨_, macControlRx_consumed hr hp hl ht, ?_⟩
  rw [act, State.port_of_net net, State.macCnt_port]

theorem macControlRx_bad (bad : ¬s.macGood p bs rx) : ∃ u, exec (.macControlRx p bs rx) s = .next u
    ∧ (u.port p).mac.ctrlErr = (s.port p).mac.ctrlErr + 1 ∧ u.eport p = s.eport p := by
  have act : s.macControl p bs rx = s.macCnt p fun m => { m with ctrlErr := m.ctrlErr + 1 } :=
    if_pos (by_contra fun h => bad ((s.macGood_iff p bs rx).2 h))
  refine ⟨_, macControlRx_consumed hr hp hl ht, ?_⟩
  rw [act, State.macCnt_port]
  exact ⟨rfl, rfl⟩

end

/-- Settles O33: each clause is a lemma about its event. -/
theorem linksComeAndGo : Obligations.LinksComeAndGo := by
  unfold Obligations.LinksComeAndGo
  refine ⟨linkLoss_effect, linkReturn_effect, linkHoldoffExpiry_effect, fun s p d hd ht _ =>
    linkDebounceExpiry_effect s p d hd ht, fun s p x m hs ha hm hg => ⟨anComplete_takes hs ha hm hg,
    anComplete_waits hs ha hm hg⟩, fun s p hs ha => ⟨trainingDone_effect hs ha, trainingTimeout_again hs ha,
    trainingTimeout_fails hs ha⟩, trainingRetry_effect, flapSuppressExpiry_effect, fun s p bs rx hr hp hl ht => ?_⟩
  exact ⟨fun ok op => macControlRx_pause hr hp hl ht ok op, fun ok => macControlRx_pfc hr hp hl ht ok,
    fun bad => macControlRx_bad hr hp hl ht bad⟩

end Sys2Proof.Machine
end

section
/-!
PROOFS. O34: the port commands: mode, configuration, enabling and disabling, tests, status, the E-CID map, and the settings of a
well (R77-R83, R91, R108, R113, R554).
-/

namespace Sys2Proof.Machine

theorem State.tooLong_wait (s : State) (c : Sys2Proof.CmdRef) : s.tooLong c .wait = false := by
  unfold State.tooLong
  split
  · next h => cases h
  · rfl

/-- A command that waits leaves what its body leaves. -/
theorem State.command_waits {s u : State} {c : Sys2Proof.CmdRef} {op : Nat} {fields : List (Nat × Nat)}
    {body : State → State × Ans} (h : s.accepts c op fields) (hb : body s = (u, .wait)) :
    s.command c op fields body = .next u :=
  State.command_answers h hb (s.tooLong_wait c)

/-! ### PORT_MODE_SET (R77-R79, R81) -/

theorem fecOk_le {mode fec : Nat} (h : fecOk mode fec = true) : fec ≤ 2 := by
  unfold fecOk at h
  split at h
  · simp only [decide_eq_true_eq] at h
    omega
  · split at h
    · simp only [decide_eq_true_eq] at h
      omega
    · simp only [decide_eq_true_eq] at h
      omega

/-- A port that changes within its lanes takes its mode and FEC, and keeps its lanes. -/
theorem State.modeAlone_setting (s : State) (p mode fec : Nat) :
    ((s.modeAlone p mode fec).port p).setting = ((s.port p).lanes, mode, fec) := by
  let s1 := (s.takeDown p 5).updPort p fun x => { x with mode := mode, fec := fec }
  have lanes : ((s.takeDown p 5).port p).lanes = (s.port p).lanes :=
    congrFun (congrArg Prod.fst (s.takeDown_grouping p 5)) p
  have coded : (s1.port p).setting = ((s.port p).lanes, mode, fec) := by
    rw [State.updPort_port]
    exact congrArg (·, mode, fec) lanes
  have up : ((if s1.portOn p then s1.bringUp p else s1).port p).setting = (s1.port p).setting := by
    split
    · exact s1.bringUp_keeps Port.setting p p
    · rfl
  exact up.trans coded

/-- A change that reconfigures nothing, or whose well has no frame in progress, is done at once. -/
theorem State.modeChange_atOnce {s : State} {p mode : Nat} (fec : Nat)
    (h : s.reconfigures p mode = false ∨ s.wellQuiet (wellOf p) = true) :
    ∃ u, s.modeChange p mode fec = (u, true) ∧ (u.port p).setting = (lanesOf mode, mode, fec) := by
  unfold State.modeChange
  cases hr : s.reconfigures p mode with
  | false =>
    have lanes : (s.port p).lanes = lanesOf mode := by
      simp only [State.reconfigures, Bool.or_eq_false_iff, decide_eq_false_iff_not, not_not] at hr
      exact hr.1
    exact ⟨_, rfl, by rw [State.modeAlone_setting, lanes]⟩
  | true =>
    have quiet : s.wellQuiet (wellOf p) = true := h.resolve_left (by simp [hr])
    exact ⟨_, if_pos quiet, s.modeRegroup_setting p mode fec⟩

section
variable {s : State} {c : CmdRef} {p m fec : Nat} {tx rx : Byte} (hp : p ≤ 127) (hm : m ≤ 6) (hf : fecOk m fec = true)
  (hl : p % lanesOf m = 0) (ho : s.wellOff (wellOf p) = false)
  (hd : ¬((s.port p).mode = m ∧ (s.port p).fec = fec ∧ (s.port p).txPol = tx ∧ (s.port p).rxPol = rx))
  (hg : regionSum (s.regionsFor p m) ≤ 256)
include hp hm hf hl ho hd hg

theorem portModeSetBody_changes : portModeSetBody p m fec tx rx s = if (s.modeChange p m fec).2 then
    ((s.modeChange p m fec).1.updPort p fun y => { y with txPol := tx, rxPol := rx }, .ok)
    else ((s.modeChange p m fec).1, .wait) := by
  have fecIn := fecOk_le hf
  unfold portModeSetBody
  dsimp only
  rw [if_neg (by omega), if_neg (by omega), if_neg (by simp [hf, Nat.not_lt.2 hm]), if_neg (by simp [hl]),
    if_neg (by simp [ho]), if_neg fun h => hd h.2, if_neg (Nat.not_lt.2 hg)]

variable (ha : s.accepts c 0x0200 [(2, p), (1, m), (1, fec), (1, tx.toNat), (1, rx.toNat)])
include ha

theorem portModeSet_atOnce (h : s.reconfigures p m = false ∨ s.wellQuiet (wellOf p) = true) :
    Claims.answersOk s (.portModeSet c p m fec tx rx) c fun u => (u.port p).mode = m ∧ (u.port p).fec = fec
      ∧ (u.port p).txPol = tx ∧ (u.port p).rxPol = rx ∧ (u.port p).lanes = lanesOf m := by
  obtain ⟨v, change, setting⟩ := State.modeChange_atOnce fec h
  have body := portModeSetBody_changes hp hm hf hl ho hd hg
  rw [change] at body
  refine ⟨_, State.command_ok ha body, ?_⟩
  simp only [State.updPort_port]
  simp only [Port.setting, Prod.mk.injEq] at setting
  obtain ⟨lanes, mode, coding⟩ := setting
  exact ⟨mode, coding, trivial, trivial, lanes⟩

theorem portModeSet_waits (h : s.reconfigures p m = true) (hq : s.wellQuiet (wellOf p) = false) :
    ∃ u, exec (.portModeSet c p m fec tx rx) s = .next u ∧ (u.well (wellOf p)).reconfig = true ∧ u.port p = s.port p := by
  have waits : s.modeChange p m fec = (s.updWell (wellOf p) fun w => { w with reconfig := true }, false) := by
    simp [State.modeChange, h, hq]
  have body := portModeSetBody_changes hp hm hf hl ho hd hg
  rw [waits] at body
  exact ⟨_, State.command_waits ha body, by rw [State.updWell_well], rfl⟩

end

/-! ### PORT_CONFIG, PORT_ENABLE, PORT_DISABLE (R82, R83, R100, R134, R554) -/

theorem portConfig_effect (s : State) (c : CmdRef) (p : Nat) (a : PortConfigArgs)
    (ha : s.accepts c 0x0201 ((2, p) :: portConfigFields a)) (hp : p ≤ 127) (hc : portConfigOk a = true)
    (hl : (s.port p).lanes ≠ 0) : Claims.answersOk s (.portConfig c p a) c fun u => u = { s with net := u.net }
      ∧ u.port p = { s.port p with cfg := portCfgOf a } ∧ ∀ q, q ≠ p → u.port q = s.port q := by
  have body : portConfigBody p a s = (s.updPort p fun x => { x with cfg := portCfgOf a }, .ok) := by
    unfold portConfigBody
    rw [if_neg (by simp [hc, Nat.not_lt.2 hp]), if_neg hl]
  exact ⟨_, State.command_ok ha body, rfl, State.updPort_port .., fun q hq => State.updPort_port_ne s _ hq⟩

section
variable {s : State} {c : CmdRef} {p : Nat} (ha : s.accepts c 0x0202 [(2, p)]) (hp : p ≤ 127) (hl : (s.port p).lanes ≠ 0)
  (hg : (s.well (wellOf p)).graphVer.isSome = true) (ho : s.wellOff (wellOf p) = false)

include hp hl hg ho in
theorem portEnableBody_acts : portEnableBody p s = if (s.port p).st = .suppressed then (s.unsuppress p, .ok)
    else if (s.port p).enabled then (s, .ok)
    else ((s.updPort p fun y => { y with enabled := true, link := {} }).bringUp p, .ok) := by
  unfold portEnableBody
  dsimp only
  rw [if_neg (by omega), if_neg (by simp [hl, ho, Option.isSome_iff_ne_none.1 hg])]

include ha hp hl hg ho

theorem portEnable_disabled (hs : (s.port p).st ≠ .suppressed) (he : (s.port p).enabled = false) :
    Claims.answersOk s (.portEnable c p) c fun u =>
      (u.port p).enabled = true ∧ ((u.port p).st = .training ∨ (u.port p).st = .down) := by
  let s1 := s.updPort p fun y => { y with enabled := true, link := {} }
  have enabled : (s1.port p).enabled = true := by rw [State.updPort_port]
  have body := portEnableBody_acts hp hl hg ho
  rw [if_neg hs, if_neg (by simp [he])] at body
  obtain ⟨st, -⟩ := State.bringUp_enabled enabled
  exact ⟨_, State.command_ok ha body, (s1.bringUp_keeps Port.enabled p p).trans enabled, st⟩

theorem portEnable_suppressed (hs : (s.port p).st = .suppressed) (he : (s.port p).enabled = true) :
    Claims.answersOk s (.portEnable c p) c fun u =>
      (u.port p).link.suppressEnd = none ∧ ((u.port p).st = .training ∨ (u.port p).st = .down) := by
  have body := portEnableBody_acts hp hl hg ho
  rw [if_pos hs] at body
  obtain ⟨st, -, ended⟩ := State.unsuppress_port he
  exact ⟨_, State.command_ok ha body, ended, st⟩

theorem portEnable_enabled (hs : (s.port p).st ≠ .suppressed) (he : (s.port p).enabled = true) :
    Claims.answersOk s (.portEnable c p) c fun u => u = s := by
  have body := portEnableBody_acts hp hl hg ho
  rw [if_neg hs, if_pos he] at body
  exact ⟨s, State.command_ok ha body, rfl⟩

end

theorem portDisable_waits (s : State) (c : CmdRef) (p : Nat) (ha : s.accepts c 0x0203 [(2, p)]) (hp : p ≤ 127)
    (hl : (s.port p).lanes ≠ 0) (hs : (s.port p).st ≠ .disabled) : ∃ u, exec (.portDisable c p) s = .next u
      ∧ (u.port p).disabling = some c ∧ u.sluiced p = true := by
  have body : portDisableBody c p s = (s.updPort p fun y => { y with disabling := some c }, .wait) := by
    unfold portDisableBody
    dsimp only
    rw [if_neg (by omega), if_neg (by simp [hl, hs])]
  exact ⟨_, State.command_waits ha body, by simp, by simp [State.sluiced]⟩

theorem portDisable_noop (s : State) (c : CmdRef) (p : Nat) (ha : s.accepts c 0x0203 [(2, p)]) (hp : p ≤ 127)
    (h : (s.port p).lanes = 0 ∨ (s.port p).st = .disabled) :
    Claims.answersOk s (.portDisable c p) c fun u => u = s := by
  have body : portDisableBody c p s = (s, .ok) := by
    unfold portDisableBody
    dsimp only
    rw [if_neg (by omega), if_pos h]
  exact ⟨s, State.command_ok ha body, rfl⟩

/-- A port whose lanes are powered off is DISABLED. -/
theorem State.portOff_port (s : State) (p : Nat) : ((s.portOff p).port p).st = .disabled
    ∧ ((s.portOff p).port p).enabled = false ∧ ((s.portOff p).port p).disabling = none := by
  rw [State.portOff, State.port_of_net (State.reportDown_net ..), State.updPort_port]
  exact ⟨rfl, rfl, rfl⟩

theorem portDisableComplete_effect (s : State) (c : CmdRef) (p : Nat) (hd : (s.port p).disabling = some c) :
    Claims.answersOk s (.portDisableComplete p) c fun u =>
      (u.port p).st = .disabled ∧ (u.port p).enabled = false ∧ (u.port p).disabling = none := by
  refine ⟨s.portOff p, ?_, s.portOff_port p⟩
  show execPortDisableComplete p s = _
  rw [execPortDisableComplete, hd]
  rfl

/-! ### PORT_TEST (R82, R108, R109) -/

theorem portTest_enters (s : State) (c : CmdRef) (p m pat : Nat) (ha : s.accepts c 0x0204 [(2, p), (1, m), (1, pat)])
    (hp : p ≤ 127) (ht : pat ≤ 7) (hl : (s.port p).lanes ≠ 0) (h1 : 1 ≤ m) (h4 : m ≤ 4)
    (hk : m = 1 → patternOk (s.port p).mode pat = true) (he : (s.port p).enabled = true)
    (hn : ¬((s.port p).st = .test ∧ (s.port p).testMode = m ∧ (s.port p).testPattern = pat)) :
    Claims.answersOk s (.portTest c p m pat) c fun u =>
      (u.port p).st = .test ∧ (u.port p).testMode = m ∧ (u.port p).testPattern = pat := by
  let s1 := (s.stopLink p).updPort p fun y => { y with
    st := .test, testMode := m, testPattern := pat
    link := { y.link with present := false, lossDt := none, debounceDt := none, trainRetry := none }
    mac := { y.mac with prbsErrors := [], prbsLock := [] } }
  have body : portTestBody p m pat s = (s1.portEvent p 14 0 [1, 0], .ok) := by
    unfold portTestBody
    dsimp only
    rw [if_neg (by omega), if_neg hl, if_neg (by omega), if_neg fun h => by simp [hk h.1] at h, if_neg (by simp [he]),
      if_neg hn]
  refine ⟨_, State.command_ok ha body, ?_⟩
  dsimp only
  rw [State.port_of_net (State.portEvent_net ..), State.updPort_port]
  exact ⟨rfl, rfl, rfl⟩

/-- A port that has left TEST is in it no longer, brought up or not. -/
theorem State.leaveTest_st {s : State} {p : Nat} (aborted : Bool) (h : (s.port p).st = .test) :
    ((s.leaveTest p aborted).port p).st ≠ .test := by
  let s1 := s.endTest p aborted
  have ended : (s1.port p).st ≠ .test := by
    simp only [s1, State.endTest, if_pos h]
    rw [State.port_of_net (State.portEvent_net ..), State.updPort_port]
    dsimp only
    split <;> simp
  show ((if s1.portOn p then s1.bringUp p else s1).port p).st ≠ .test
  split
  · exact State.bringUp_st_ne_test ended
  · exact ended

theorem portTestBody_zero {s : State} {p pat : Nat} (hp : p ≤ 127) (ht : pat ≤ 7) (hl : (s.port p).lanes ≠ 0) :
    portTestBody p 0 pat s = (if (s.port p).st = .test then s.leaveTest p false else s, .ok) := by
  unfold portTestBody
  dsimp only
  rw [if_neg (by omega), if_neg hl, if_pos rfl]

theorem portTest_leaves (s : State) (c : CmdRef) (p pat : Nat) (ha : s.accepts c 0x0204 [(2, p), (1, 0), (1, pat)])
    (hp : p ≤ 127) (ht : pat ≤ 7) (hl : (s.port p).lanes ≠ 0) (hs : (s.port p).st = .test) :
    Claims.answersOk s (.portTest c p 0 pat) c fun u => (u.port p).st ≠ .test := by
  have body := portTestBody_zero hp ht hl
  rw [if_pos hs] at body
  exact ⟨_, State.command_ok ha body, State.leaveTest_st false hs⟩

theorem portTest_noop (s : State) (c : CmdRef) (p pat : Nat) (ha : s.accepts c 0x0204 [(2, p), (1, 0), (1, pat)])
    (hp : p ≤ 127) (ht : pat ≤ 7) (hl : (s.port p).lanes ≠ 0) (hs : (s.port p).st ≠ .test) :
    Claims.answersOk s (.portTest c p 0 pat) c fun u => u = s := by
  have body := portTestBody_zero hp ht hl
  rw [if_neg hs] at body
  exact ⟨_, State.command_ok ha body, rfl⟩

/-! ### PORT_STATUS, ECID_MAP_SET (R80, R91) -/

theorem portStatus_effect (s : State) (c : CmdRef) (p : Nat) (ha : s.accepts c 0x0205 [(2, p)]) (hp : p ≤ 127) :
    Claims.answersData s (.portStatus c p) c (portStatusImage (s.port p)) :=
  State.command_reads ha (if_neg (Nat.not_lt.2 hp))

theorem ecidMapSet_effect (s : State) (c : CmdRef) (k : Nat) (e : W64) (ha : s.accepts c 0x020A [(2, k), (8, e.toNat)])
    (hk : k ≤ 895) (h1 : fld e 28 2 = 0) (h2 : fld e 45 19 = 0)
    (apart : ∀ x ∈ s.net.ecid, x.1 = k ∨ ecidApart e x.2 = true) (hlp : 128 ≤ ecidLport e)
    (hl : (s.port (ecidCascade e)).lanes ≠ 0) :
    Claims.answersOk s (.ecidMapSet c k e) c fun u => SMap.get 0 u.net.ecid k = e ∧ u = { s with net := u.net } := by
  have unshared : (s.net.ecid.any fun x => x.1 ≠ k && !ecidApart e x.2) = false := by
    refine List.any_eq_false.2 fun x hx => ?_
    rcases apart x hx with h | h <;> simp [h]
  have body : ecidBody k e s = (s.updNet fun n => { n with ecid := SMap.set 0 n.ecid k e }, .ok) := by
    unfold ecidBody
    rw [if_neg (by simp [h1, h2, hk]), if_neg (by rw [unshared]; simp [hl, hlp])]
  exact ⟨_, State.command_ok ha body, SMap.get_set_self .., rfl⟩

/-! ### WELL_CONFIG (R81, R113, R142) -/

section
variable {s : State} {c : CmdRef} {w d us : Nat} {kib : List Nat} (hw : w ≤ 7) (hu : us = 0 ∨ 100 ≤ us ∧ us ≤ 20000)
  (hg : regionSum (s.askedRegions w kib) ≤ 256)
  (hr : ∀ p ∈ s.wellPorts w, minRegion (s.port p).mode ≤ SMap.get 0 (s.askedRegions w kib) (p % 16))

/-- The settings that WELL_CONFIG gives a well. -/
def Well.configured (x : Well) (hold us : Nat) (regs : SMap Nat) : Well :=
  { x with holdDomain := some hold, holdTimeUs := if us = 0 then 2000 else us, regions := regs }

include hw hu hg hr in
theorem wellConfigBody_sets : wellConfigBody w d us kib s =
    (let set := fun (x : State) => x.updWell w fun y => y.configured d us (s.askedRegions w kib)
    if s.askedRegions w kib = (s.well w).regions then (set s, .ok)
    else if s.wellQuiet w then (s.restartWell w set, .ok)
    else (s.updWell w fun y => { y with reconfig := true }, .wait)) := by
  have fits : (s.wellPorts w).any (fun p => SMap.get 0 (s.askedRegions w kib) (p % 16) < minRegion (s.port p).mode) = false :=
    List.any_eq_false.2 fun p hp => by simpa using hr p hp
  unfold wellConfigBody
  dsimp only
  rw [if_neg (by rw [fits, Bool.false_eq_true, or_false]; omega)]
  rfl

variable (ha : s.accepts c 0x020B ([(1, w), (2, d), (2, us)] ++ kib.map fun v => (2, v)))
include hw hu hg hr ha

theorem wellConfig_hold (h : s.askedRegions w kib = (s.well w).regions) :
    Claims.answersOk s (.wellConfig c w d us kib) c fun u =>
      u.well w = { s.well w with holdDomain := some d, holdTimeUs := if us = 0 then 2000 else us }
        ∧ ∀ v, v ≠ w → u.well v = s.well v := by
  have body := wellConfigBody_sets (d := d) hw hu hg hr
  dsimp only at body
  rw [if_pos h] at body
  refine ⟨_, State.command_ok ha body, ?_, fun v hv => State.updWell_well_ne s _ hv⟩
  rw [State.updWell_well, h]
  rfl

theorem wellConfig_restarts (h : s.askedRegions w kib ≠ (s.well w).regions) (hq : s.wellQuiet w = true) :
    Claims.answersOk s (.wellConfig c w d us kib) c fun u => (u.well w).regions = s.askedRegions w kib
      ∧ (u.well w).holdDomain = some d ∧ (u.well w).reconfig = false := by
  have body := wellConfigBody_sets (d := d) hw hu hg hr
  dsimp only at body
  rw [if_neg h, if_pos hq] at body
  refine ⟨_, State.command_ok ha body, ?_⟩
  dsimp only
  rw [State.restartWell_well, State.updWell_well]
  exact ⟨rfl, rfl, rfl⟩

theorem wellConfig_waits (h : s.askedRegions w kib ≠ (s.well w).regions) (hq : s.wellQuiet w = false) :
    ∃ u, exec (.wellConfig c w d us kib) s = .next u ∧ (u.well w).reconfig = true
      ∧ (u.well w).regions = (s.well w).regions := by
  have body := wellConfigBody_sets (d := d) hw hu hg hr
  dsimp only at body
  rw [if_neg h, if_neg (by simp [hq])] at body
  refine ⟨_, State.command_waits ha body, ?_⟩
  rw [State.updWell_well]
  exact ⟨rfl, rfl⟩

end

/-- Settles O34: each clause is a lemma about its command. -/
theorem portCommands : Obligations.PortCommands := by
  unfold Obligations.PortCommands
  intro s c
  refine ⟨fun p m fec tx rx ha hp hm hf hl ho hd hg => ⟨portModeSet_atOnce hp hm hf hl ho hd hg ha,
      portModeSet_waits hp hm hf hl ho hd hg ha⟩, portConfig_effect s c, fun p ha hp hl hg ho =>
    ⟨portEnable_disabled ha hp hl hg ho, portEnable_suppressed ha hp hl hg ho, portEnable_enabled ha hp hl hg ho⟩,
    fun p ha hp => ⟨portDisable_waits s c p ha hp, portDisable_noop s c p ha hp⟩, portDisableComplete_effect s c,
    fun p m pat ha hp ht hl => ⟨portTest_enters s c p m pat ha hp ht hl, ?_, ?_⟩, portStatus_effect s c,
    ecidMapSet_effect s c, fun w d us kib ha hw hu hg hr => ⟨wellConfig_hold hw hu hg hr ha,
      wellConfig_restarts hw hu hg hr ha, wellConfig_waits hw hu hg hr ha⟩⟩
  · rintro rfl
    exact portTest_leaves s c p pat ha hp ht hl
  · rintro rfl
    exact portTest_noop s c p pat ha hp ht hl

end Sys2Proof.Machine
end

section
/-!
PROOFS. O35: the shift chain is scanned, modules are discovered, fail and are removed, and the module and well commands act
(R101-R107, R555, R590, R591).
-/

namespace Sys2Proof.Machine

/-! ### Cages and buses read after a change -/

@[simp] theorem State.updCage_cage (s : State) (k : Nat) (g : Cage → Cage) : (s.updCage k g).cage k = g (s.cage k) :=
  SMap.get_set_self ..

theorem State.updCage_cage_ne (s : State) {k j : Nat} (g : Cage → Cage) (h : j ≠ k) :
    (s.updCage k g).cage j = s.cage j := SMap.get_set_ne _ _ _ h

@[simp] theorem State.updBus_cage (s : State) (b k : Nat) (g : Bus → Bus) : (s.updBus b g).cage k = s.cage k := rfl

@[simp] theorem State.busSpeed_cage (s : State) (b k : Nat) : (s.busSpeed b).cage k = s.cage k := rfl

theorem State.cage_of_net {s u : State} (h : u.net = s.net) (k : Nat) : u.cage k = s.cage k := by
  rw [State.cage, h, State.cage]

@[simp] theorem State.cageEvent_net (s : State) (k type : Nat) (detail : List Byte) :
    (s.cageEvent k type detail).net = s.net := State.portEvent_net ..

@[simp] theorem State.cageEvent_cage (s : State) (k type j : Nat) (detail : List Byte) :
    (s.cageEvent k type detail).cage j = s.cage j := State.cage_of_net (State.cageEvent_net ..) j

/-- What a change of one cage keeps of that cage, it keeps of every cage. -/
theorem State.updCage_keeps {β : Type} (φ : Cage → β) (s : State) (k j : Nat) (g : Cage → Cage)
    (hg : ∀ x, φ (g x) = φ x) : φ ((s.updCage k g).cage j) = φ (s.cage j) := by
  by_cases h : j = k
  · subst h
    rw [State.updCage_cage, hg]
  · rw [State.updCage_cage_ne s g h]

/-- Addressing a cage of a shared bus changes the MODSEL_N outputs alone (R102). -/
theorem State.busSelect_keeps {β : Type} (φ : Cage → β) (s : State) (k j : Nat)
    (hφ : ∀ (x : Cage) b, φ { x with modselN := b } = φ x := by exact fun _ _ => rfl) :
    φ ((s.busSelect k).cage j) = φ (s.cage j) :=
  State.foldl_keeps (fun x => φ (x.cage j)) _ (fun x i => by
    split
    · exact x.updCage_keeps φ i j _ fun y => hφ y _
    · rfl) _ s

/-! ### The shift chain (R101, R591) -/

/-- A change of each of the first `n` cages in turn. -/
theorem State.foldl_updCage (s : State) (g : Nat → Cage → Cage) (n k : Nat) :
    ((List.range n).foldl (fun acc j => State.updCage acc j (g j)) s).cage k
      = if k < n then g k (s.cage k) else s.cage k := by
  induction n with
  | zero => rfl
  | succ n ih =>
    rw [List.range_succ, List.foldl_append, List.foldl_cons, List.foldl_nil]
    by_cases h : k = n
    · subst h
      rw [State.updCage_cage, ih, if_neg (Nat.lt_irrefl k), if_pos (Nat.lt_succ_self k)]
    · rw [State.updCage_cage_ne _ _ h, ih]
      exact if_congr (by omega) rfl rfl

/-- The cages as a scan that shifts in these inputs leaves them. -/
def State.scanned (s : State) (w : BitVec 256) : State :=
  (List.range 64).foldl (fun (acc : State) j => acc.updCage j fun g => g.sees s.dt ((w >>> (4 * j)).setWidth 4)) s

theorem State.scanned_cage (s : State) (w : BitVec 256) {k : Nat} (hk : k < 64) :
    (s.scanned w).cage k = (s.cage k).sees s.dt ((w >>> (4 * k)).setWidth 4) := by
  unfold State.scanned
  exact (s.foldl_updCage (fun j g => g.sees s.dt ((w >>> (4 * j)).setWidth 4)) 64 k).trans (if_pos hk)

/-- The chain's registers after a scan (R591). -/
def State.chainShifted (s : State) (v outs : BitVec 256) : State :=
  s.updNet fun n => { n with captured := some v, latched := outs, chainValid := true }

theorem State.chainShifted_cage (s : State) (v outs : BitVec 256) (k : Nat) :
    (s.chainShifted v outs).cage k = s.cage k := rfl

theorem moduleScan_effect (s : State) (k : Nat) (hr : s.phRuns = true) (v : BitVec 256) :
    ∃ u, exec (.moduleScan v) s = .next u ∧ u.net.captured = some v ∧ u.net.latched = s.chainOuts
      ∧ (s.net.captured = none → u.net.cages = s.net.cages)
      ∧ ∀ w, s.net.captured = some w → k < 64 → u.cage k = (s.cage k).sees s.dt ((w >>> (4 * k)).setWidth 4) := by
  have runs : ¬(!s.phRuns) = true := by simp [hr]
  cases seen : s.net.captured with
  | none =>
    refine ⟨s.chainShifted v s.chainOuts, ?_, rfl, rfl, fun _ => rfl, fun _ hw => nomatch hw⟩
    show execModuleScan v s = _
    simp only [execModuleScan, if_neg runs, seen]
    rfl
  | some w =>
    refine ⟨(s.scanned w).chainShifted v s.chainOuts, ?_, rfl, rfl, (fun h => nomatch h), fun w' hw hk => ?_⟩
    · show execModuleScan v s = _
      simp only [execModuleScan, if_neg runs, seen]
      rfl
    · cases hw
      rw [State.chainShifted_cage, s.scanned_cage w hk]

/-! ### Discovery (R103-R105) -/

theorem presenceDebounceEnd_found (s : State) (k d : Nat) (hr : s.phRuns = true) (hd : (s.cage k).changeDt = some d)
    (ht : d + 10000000 ≤ s.dt) (hp : (s.cage k).phase = .debounceIn) : ∃ u, exec (.presenceDebounceEnd k) s = .next u
      ∧ (u.cage k).phase = .idPoll ∧ (u.cage k).resetN = true ∧ (u.cage k).releaseDt = s.dt := by
  refine ⟨s.cageRelease k, ?_, by simp [State.cageRelease]⟩
  show execPresenceDebounceEnd k s = _
  unfold execPresenceDebounceEnd
  simp only [hd]
  rw [if_neg (by simp [hr, debounceNs, ht]), if_pos hp]
  rfl

theorem presenceDebounceEnd_removed (s : State) (k d : Nat) (hr : s.phRuns = true) (hd : (s.cage k).changeDt = some d)
    (ht : d + 10000000 ≤ s.dt) (hp : (s.cage k).phase ≠ .debounceIn) : ∃ u, exec (.presenceDebounceEnd k) s = .next u
      ∧ (u.cage k).phase = .absent ∧ (u.cage k).resetN = false := by
  refine ⟨s.cageRemoved k, ?_, by simp [State.cageRemoved]⟩
  show execPresenceDebounceEnd k s = _
  unfold execPresenceDebounceEnd
  simp only [hd]
  rw [if_neg (by simp [hr, debounceNs, ht]), if_neg hp]
  rfl

theorem State.pollDue_phase {s : State} {k : Nat} {ph : ModPhase} (h : s.pollDue k ph = true) :
    (s.cage k).phase = ph := by
  simp only [State.pollDue, Bool.and_eq_true, decide_eq_true_eq] at h
  obtain ⟨⟨⟨-, phase⟩, -⟩, -⟩ := h
  exact phase

theorem moduleIdPoll_silent (s : State) (k : Nat) (h : s.pollDue k .idPoll = true) (cmis : Bool) :
    ∃ u, exec (.moduleIdPoll k none cmis) s = .next u ∧ (u.cage k).phase = .idPoll ∧ (u.cage k).pollDt = s.dt := by
  have run : exec (.moduleIdPoll k none cmis) s = _ := if_neg (show ¬(!s.pollDue k .idPoll) = true by simp [h])
  refine ⟨_, run, ?_⟩
  rw [State.updCage_cage]
  exact ⟨(s.busSelect_keeps Cage.phase k k).trans (State.pollDue_phase h), rfl⟩

theorem moduleIdPoll_answer (s : State) (k : Nat) (h : s.pollDue k .idPoll = true) (b : Byte) (cmis : Bool) :
    ∃ u, exec (.moduleIdPoll k (some b) cmis) s = .next u ∧ (u.cage k).ident = b
      ∧ (u.cage k).phase = if cmis then .lowPower else .unsupported := by
  have run : exec (.moduleIdPoll k (some b) cmis) s = _ := if_neg (show ¬(!s.pollDue k .idPoll) = true by simp [h])
  cases cmis with
  | false => exact ⟨_, run, by simp⟩
  | true => exact ⟨_, run, by simp⟩

theorem moduleLowpwrPoll_effect (s : State) (k : Nat) (h : s.pollDue k .lowPower = true) (low : Bool) :
    ∃ u, exec (.moduleLowpwrPoll k low) s = .next u ∧ (u.cage k).phase = if low then .pages else .lowPower :=
  ⟨_, if_neg (by simp [h]), by rw [State.updCage_cage]⟩

theorem modulePagesRead_effect (s : State) (k : Nat) (hr : s.phRuns = true) (pages : ModPages)
    (h : (s.cage k).phase = .pages) : ∃ u, exec (.modulePagesRead k pages) s = .next u ∧ (u.cage k).pages = some pages
      ∧ (u.cage k).phase = if pages.powerClass ≤ (s.cage k).powerClass then .powerUp else .powerDenied := by
  refine ⟨s.cagePages k pages, if_neg (by simp [hr, h]), ?_⟩
  unfold State.cagePages
  dsimp only
  split
  · simp
  · simp

theorem moduleDiscoveryTimeout_effect (s : State) (k : Nat) (hr : s.phRuns = true)
    (h : (s.cage k).phase = .pages ∨ (s.cage k).phase = .powerUp ∨ ((s.cage k).phase = .idPoll ∨ (s.cage k).phase = .lowPower)
      ∧ (s.cage k).releaseDt + 2000000000 < s.dt) : ∃ u, exec (.moduleDiscoveryTimeout k) s = .next u
      ∧ (u.cage k).phase = .fault ∧ (u.cage k).resetN = false := by
  have late : s.phRuns = true ∧ (((s.cage k).phase = .idPoll || (s.cage k).phase = .lowPower) = true
      ∧ (s.cage k).releaseDt + 2 * secNs < s.dt ∨ (s.cage k).phase = .pages ∨ (s.cage k).phase = .powerUp) := by
    refine ⟨hr, ?_⟩
    rcases h with h | h | ⟨polls, time⟩
    · exact .inr (.inl h)
    · exact .inr (.inr h)
    · exact .inl ⟨by simpa using polls, time⟩
  exact ⟨s.cageFault k, if_pos late, by simp [State.cageFault]⟩

theorem moduleInt_effect (s : State) (k : Nat) (hr : s.phRuns = true) (bs : List Byte) (h : (s.cage k).intSeen = true) :
    ∃ u, exec (.moduleInt k bs) s = .next u ∧ (u.cage k).intSeen = false :=
  ⟨_, if_neg (by simp [hr, h]), by simp⟩

@[simp] theorem State.updBus_bus (s : State) (b : Nat) (g : Bus → Bus) :
    SMap.get {} (s.updBus b g).net.buses b = g (SMap.get {} s.net.buses b) := SMap.get_set_self ..

theorem i2cBusRecovery_released (s : State) (b : Nat) (hr : s.phRuns = true) (hb : b ≤ 15) :
    ∃ u, exec (.i2cBusRecovery b true) s = .next u ∧ (SMap.get {} u.net.buses b).stuck = 0 := by
  refine ⟨s.updBus b fun x => { x with stuck := 0 }, ?_, by rw [State.updBus_bus]⟩
  show execI2cBusRecovery b true s = _
  simp [execI2cBusRecovery, hr, Nat.not_lt.2 hb, done]

theorem i2cBusRecovery_first (s : State) (b : Nat) (hr : s.phRuns = true) (hb : b ≤ 15)
    (h : (SMap.get {} s.net.buses b).stuck = 0) : ∃ u, exec (.i2cBusRecovery b false) s = .next u
      ∧ (SMap.get {} u.net.buses b).stuck = 1 ∧ (SMap.get {} u.net.buses b).firstStuckDt = s.dt := by
  refine ⟨s.updBus b fun x => { x with stuck := 1, firstStuckDt := s.dt }, ?_, by simp⟩
  show execI2cBusRecovery b false s = _
  simp [execI2cBusRecovery, hr, Nat.not_lt.2 hb, h, done]

/-! ### Automatic configuration (R106) -/

theorem State.portEnableBody_grouping (s : State) (p : Nat) : (portEnableBody p s).1.grouping = s.grouping := by
  unfold portEnableBody
  dsimp only
  split
  · rfl
  · split
    · rfl
    · split
      · exact s.unsuppress_grouping p
      · split
        · rfl
        · exact (State.bringUp_grouping _ p).trans (s.updPort_grouping p _)

/-- Setting and enabling a port changes no cage. -/
theorem State.autoPort_cage (s : State) (mode p k : Nat) : (s.autoPort mode p).cage k = s.cage k := by
  have grouping : (s.autoPort mode p).grouping = s.grouping := by
    unfold State.autoPort
    dsimp only
    rw [State.portEnableBody_grouping]
    split
    · rfl
    · exact s.modeAlone_grouping p mode _
  have cages : (s.autoPort mode p).net.cages = s.net.cages := congrArg Prod.snd grouping
  rw [State.cage, cages, State.cage]

/-- The choice of an application changes, of a cage, its MODSEL_N and what is selected. -/
theorem State.autoConfig_keeps {β : Type} (φ : Cage → β) (s : State) (k j : Nat)
    (hφ : ∀ (x : Cage) b n, φ { x with modselN := b, selected := n } = φ x := by exact fun _ _ _ => rfl) :
    φ ((s.autoConfig k).cage j) = φ (s.cage j) := by
  have written (x : State) (bank page offset : Nat) (data : List Byte) :
      φ ((x.moduleWrite k bank page offset data).cage j) = φ (x.cage j) :=
    x.busSelect_keeps φ k j fun y b => hφ y b y.selected
  have ports (x : State) (mode : Nat) (l : List Nat) :
      (l.foldl (fun acc p => State.autoPort acc mode p) x).cage j = x.cage j :=
    State.foldl_keeps (fun y => y.cage j) _ (fun y p => y.autoPort_cage mode p j) l x
  unfold State.autoConfig
  extract_lets g apps
  split
  · extract_lets mode s1
    rw [State.cageEvent_cage, ports]
    refine (State.updCage_keeps φ _ k j _ fun y => hφ y y.modselN _).trans ?_
    simp only [State.dataPathInit, written]
  · rw [State.cageEvent_cage]

theorem moduleReady_effect (s : State) (k : Nat) (hr : s.phRuns = true) (h : (s.cage k).phase = .powerUp) :
    ∃ u, exec (.moduleReady k) s = .next u ∧ (u.cage k).phase = .ready := by
  let s1 := s.updCage k fun g => { g with phase := .ready }
  have ready : (s1.cage k).phase = .ready := by rw [State.updCage_cage]
  have run : exec (.moduleReady k) s = .next (if (s.cage k).auto then s1.autoConfig k else s1) :=
    if_neg (by simp [hr, h])
  refine ⟨_, run, ?_⟩
  split
  · exact (s1.autoConfig_keeps Cage.phase k k).trans ready
  · exact ready

/-! ### The module commands (R102, R106, R107) -/

theorem moduleMap_effect (s : State) (c : CmdRef) (k b first n m : Nat)
    (ha : s.accepts c 0x0206 [(1, k), (1, b), (1, first), (1, n), (1, m)]) (hk : k ≤ 63) (hb : b ≤ 15)
    (hl : first + n ≤ 128) (hm : m ≤ 1) (ok : s.busOk k b (decide (m = 1)) = true) :
    Claims.answersOk s (.moduleMap c k b first n m) c fun u => (u.cage k).mapped = true ∧ (u.cage k).bus = b
      ∧ (u.cage k).firstLane = first ∧ (u.cage k).lanes = n ∧ (u.cage k).hasModsel = decide (m = 1) := by
  have body : moduleMapBody k b first n m s = _ := if_neg (by rw [ok]; simp only [Bool.not_true, Bool.false_eq_true, or_false]; omega)
  exact ⟨_, State.command_ok ha body, by simp⟩

/-- What MODULE_POLICY sets of a cage. -/
def Cage.policy (g : Cage) : Bool × Byte × Nat := (g.auto, g.modeMask, g.powerClass)

theorem modulePolicy_effect (s : State) (c : CmdRef) (k mode : Nat) (m : Byte) (cls : Nat)
    (ha : s.accepts c 0x0207 [(1, k), (1, mode), (1, m.toNat), (1, cls)]) (hk : k ≤ 63) (h1 : mode ≤ 1)
    (hm : m.toNat ≤ 127) : Claims.answersOk s (.modulePolicy c k mode m cls) c fun u =>
      (u.cage k).auto = decide (mode = 1) ∧ (u.cage k).modeMask = m ∧ (u.cage k).powerClass = cls := by
  let s1 := s.updCage k fun g => { g with auto := mode = 1, modeMask := m, powerClass := cls }
  let s2 := if mode = 1 ∧ !(s.cage k).auto ∧ (s.cage k).phase = .ready then s1.autoConfig k else s1
  have body : modulePolicyBody k mode m cls s = (s2, .ok) := if_neg (by omega)
  have kept : (s2.cage k).policy = (s1.cage k).policy := by
    simp only [s2]
    split
    · exact s1.autoConfig_keeps Cage.policy k k
    · rfl
  rw [State.updCage_cage] at kept
  simp only [Cage.policy, Prod.mk.injEq] at kept
  exact ⟨s2, State.command_ok ha body, kept⟩

theorem moduleAccess_reads (s : State) (c : CmdRef) (k bank pg off n : Nat) (data ans : List Byte)
    (ha : s.accepts c 0x0208 [(1, k), (1, bank), (1, pg), (1, off), (1, n), (1, 0), bytesField 32 data]) (hk : k ≤ 63)
    (h1 : 1 ≤ n) (hn : n ≤ 32) (hm : (s.cage k).mapped = true) (hans : ans ≠ []) :
    ∃ u : State, exec (.moduleAccess c k bank pg off n 0 data ans) s
      = .next (u.answer c (.data (slice (ans.take n) 0 32))) := by
  have body : moduleAccessBody k bank pg off n 0 data ans s = (s.busSelect k, .data (slice (ans.take n) 0 32)) := by
    unfold moduleAccessBody
    rw [if_neg (by omega), if_neg (by simp [hm]), if_neg (by omega), if_neg (by simpa using hans)]
  have run := State.command_accepts s c _ _ (moduleAccessBody k bank pg off n 0 data ans) ha
  rw [body] at run
  exact ⟨_, run⟩

theorem moduleAccess_writes (s : State) (c : CmdRef) (k bank pg off n : Nat) (data ans : List Byte)
    (ha : s.accepts c 0x0208 [(1, k), (1, bank), (1, pg), (1, off), (1, n), (1, 1), bytesField 32 data]) (hk : k ≤ 63)
    (h1 : 1 ≤ n) (hn : n ≤ 32) (hm : (s.cage k).mapped = true)
    (hc : (s.cage k).auto = false ∨ controlByte pg off n = false) :
    Claims.answersOk s (.moduleAccess c k bank pg off n 1 data ans) c fun u =>
      u.out.modWrites = s.out.modWrites ++ [(k, bank, pg, off, data.take n)] := by
  have free : ¬((s.cage k).auto = true ∧ controlByte pg off n = true) := by
    rcases hc with h | h <;> simp [h]
  have body : moduleAccessBody k bank pg off n 1 data ans s
      = ((s.moduleWrite k bank pg off (data.take n)).updCage k fun g => { g with
        spareOut := Config.spareOutput bank pg off (data.take n) g.spareOut }, .ok) := by
    unfold moduleAccessBody
    rw [if_neg (by omega), if_neg (by simp [hm]), if_pos rfl, if_neg free]
  exact ⟨_, State.command_ok ha body, rfl⟩

theorem moduleStatus_effect (s : State) (c : CmdRef) (k : Nat) (ha : s.accepts c 0x0209 [(1, k)]) (hk : k ≤ 63) :
    Claims.answersData s (.moduleStatus c k) c (cageImage (s.cage k)) :=
  State.command_reads ha (if_neg (Nat.not_lt.2 hk))

/-! ### Disabling and enabling a well (R555) -/

theorem wellEnable_disables (s : State) (c : CmdRef) (w : Nat) (hw : w ≤ 7) (ha : s.accepts c 0x0901 [(1, w), (1, 0)])
    (h : s.wellOff w = false) :
    ∃ u, exec (.wellEnable c w 0) s = .next u ∧ (u.well w).disabling = some (some c) := by
  simp only [State.wellOff, Bool.or_eq_false_iff] at h
  obtain ⟨disabled, disabling⟩ := h
  have body : wellEnableBody c w 0 s = (s.updWell w fun y => { y with
      disabling := some (some c), enabledBefore := (s.wellPorts w).filter fun p => (s.port p).enabled }, .wait) := by
    unfold wellEnableBody
    dsimp only
    rw [if_neg (by omega), if_pos rfl, if_neg (by simp [disabled]), if_neg (by simp [disabling])]
  exact ⟨_, State.command_waits ha body, by rw [State.updWell_well]⟩

theorem wellEnable_disabled (s : State) (c : CmdRef) (w : Nat) (hw : w ≤ 7) (ha : s.accepts c 0x0901 [(1, w), (1, 0)])
    (h : (s.well w).disabled = true) : Claims.answersOk s (.wellEnable c w 0) c fun u => u = s := by
  have body : wellEnableBody c w 0 s = (s, .ok) := by
    unfold wellEnableBody
    dsimp only
    rw [if_neg (by omega), if_pos rfl, if_pos h]
  exact ⟨s, State.command_ok ha body, rfl⟩

theorem wellEnable_enables (s : State) (c : CmdRef) (w : Nat) (hw : w ≤ 7) (ha : s.accepts c 0x0901 [(1, w), (1, 1)])
    (h : (s.well w).disabled = true) :
    Claims.answersOk s (.wellEnable c w 1) c fun u => (u.well w).disabled = false := by
  let s0 := s.updWell w fun y => { y with disabled := false, enabledBefore := [] }
  let s1 := s0.unfence 3 w
  let s2 := (s.well w).enabledBefore.foldl (fun (acc : State) p =>
    (acc.updPort p fun y => { y with enabled := true, link := {} }).bringUp p) s1
  have body : wellEnableBody c w 1 s = (s2, .ok) := by
    unfold wellEnableBody
    dsimp only
    rw [if_neg (by omega), if_neg (by omega), if_neg (by simp [h])]
  have wells : s2.net.wells = s1.net.wells := by
    refine State.foldl_keeps (fun x => x.net.wells) _ (fun x p => ?_) _ s1
    exact State.bringUp_wells _ p
  have enabled : (s0.well w).disabled = false := by rw [State.updWell_well]
  refine ⟨s2, State.command_ok ha body, ?_⟩
  show (s2.well w).disabled = false
  rw [State.well, wells]
  exact enabled

theorem wellEnable_enabled (s : State) (c : CmdRef) (w : Nat) (hw : w ≤ 7) (ha : s.accepts c 0x0901 [(1, w), (1, 1)])
    (h : (s.well w).disabled = false) : Claims.answersOk s (.wellEnable c w 1) c fun u => u = s := by
  have body : wellEnableBody c w 1 s = (s, .ok) := by
    unfold wellEnableBody
    dsimp only
    rw [if_neg (by omega), if_neg (by omega), if_pos (by simp [h])]
  exact ⟨s, State.command_ok ha body, rfl⟩

/-- The state in which a drained well is disabled. -/
def State.wellStopped (s : State) (w : Nat) : State :=
  (((s.wellPorts w).filter fun p => (s.port p).st ≠ .disabled).foldl State.portOff s).updWell w fun x => { x with
    disabled := true, disabling := none }

theorem State.wellStopped_well (s : State) (w : Nat) :
    ((s.wellStopped w).well w).disabled = true ∧ ((s.wellStopped w).well w).disabling = none := by
  rw [State.wellStopped, State.updWell_well]
  exact ⟨rfl, rfl⟩

theorem wellDisableDone_answers (s : State) (c : CmdRef) (w : Nat) (hd : s.wellDrained w = true)
    (h : (s.well w).disabling = some (some c)) :
    Claims.answersOk s (.wellDisableDone w) c fun u => (u.well w).disabled = true ∧ (u.well w).disabling = none := by
  refine ⟨s.wellStopped w, ?_, s.wellStopped_well w⟩
  show execWellDisableDone w s = _
  unfold execWellDisableDone
  simp only [h]
  rw [if_neg (by simp [hd])]
  rfl

theorem wellDisableDone_escalation (s : State) (w : Nat) (hd : s.wellDrained w = true)
    (h : (s.well w).disabling = some none) : ∃ u, exec (.wellDisableDone w) s = .next u ∧ (u.well w).disabled = true
      ∧ (u.well w).disabling = none := by
  refine ⟨s.wellStopped w, ?_, s.wellStopped_well w⟩
  show execWellDisableDone w s = _
  unfold execWellDisableDone
  simp only [h]
  rw [if_neg (by simp [hd])]
  rfl

/-- Settles O35: each clause is a lemma about its event or command. -/
theorem modulesAndWells : Obligations.ModulesAndWells := by
  unfold Obligations.ModulesAndWells
  refine ⟨fun s k hr => ⟨moduleScan_effect s k hr, fun d hd ht => ⟨presenceDebounceEnd_found s k d hr hd ht,
      presenceDebounceEnd_removed s k d hr hd ht⟩, fun h => ⟨moduleIdPoll_silent s k h, moduleIdPoll_answer s k h⟩,
    moduleLowpwrPoll_effect s k, modulePagesRead_effect s k hr, moduleReady_effect s k hr,
    moduleDiscoveryTimeout_effect s k hr, moduleInt_effect s k hr, fun b hb => ⟨i2cBusRecovery_released s b hr hb,
      i2cBusRecovery_first s b hr hb⟩⟩, fun s c => ?_⟩
  exact ⟨moduleMap_effect s c, modulePolicy_effect s c, fun k bank pg off n data hk h1 hn hm =>
      ⟨fun ans ha => moduleAccess_reads s c k bank pg off n data ans ha hk h1 hn hm,
        fun ha hc ans => moduleAccess_writes s c k bank pg off n data ans ha hk h1 hn hm hc⟩,
    moduleStatus_effect s c, fun w hw => ⟨fun ha => ⟨wellEnable_disables s c w hw ha, wellEnable_disabled s c w hw ha⟩,
      fun ha => ⟨wellEnable_enables s c w hw ha, wellEnable_enabled s c w hw ha⟩⟩,
    fun w hd => ⟨wellDisableDone_answers s c w hd, wellDisableDone_escalation s w hd⟩⟩

end Sys2Proof.Machine
end

section
/-!
PROOFS. O32: the intake's commands: the DCI sluice, the shadow graph and its commit, hash profiles, hash keys and indirection,
the intake counters (R123, R133-R137, R148).
-/

namespace Sys2Proof.Machine

/-- An idempotent change made at each index of a list in turn: an index of the list reads as changed once, every other as it
was. -/
theorem foldl_read {σ α : Type} {read : σ → Nat → α} {upd : σ → Nat → σ} {g : α → α}
    (same : ∀ x k, read (upd x k) k = g (read x k)) (other : ∀ x k j, j ≠ k → read (upd x k) j = read x j)
    (idem : ∀ a, g (g a) = g a) (l : List Nat) (x : σ) (j : Nat) :
    read (l.foldl upd x) j = if j ∈ l then g (read x j) else read x j := by
  induction l generalizing x with
  | nil => rfl
  | cons k rest ih =>
    rw [List.foldl_cons, ih]
    by_cases h : j = k
    · subst h
      rw [same, idem, ite_self, if_pos List.mem_cons_self]
    · rw [other x k j h]
      simp only [List.mem_cons, h, false_or]

/-! ### SLUICE, UNSLUICE (R123) -/

/-- The state with the DCI sluice of these ports set or removed. -/
def State.dciSluiced (s : State) (l : List Nat) (on : Bool) : State :=
  l.foldl (fun acc p => acc.updPort p fun x => { x with dciSluice := on }) s

theorem State.dciSluiced_port (s : State) (l : List Nat) (on : Bool) (p : Nat) :
    (s.dciSluiced l on).port p = if p ∈ l then { s.port p with dciSluice := on } else s.port p :=
  foldl_read (read := State.port) (g := fun x => { x with dciSluice := on }) (fun x k => x.updPort_port k _)
    (fun x _ _ h => x.updPort_port_ne _ h) (fun _ => rfl) l s p

theorem State.dciSluiced_effect (s : State) (l : List Nat) (on : Bool) :
    (∀ p ∈ l, ((s.dciSluiced l on).port p).dciSluice = on) ∧ ∀ p, p ∉ l → (s.dciSluiced l on).port p = s.port p :=
  ⟨fun p hp => by rw [State.dciSluiced_port, if_pos hp], fun p hp => by rw [State.dciSluiced_port, if_neg hp]⟩

theorem sluiceBody_ok (s : State) {w : Nat} (m : BitVec 16) (on : Bool) (hw : w < 8) :
    sluiceBody w m on s = (s.dciSluiced (s.maskPorts w m) on, .ok) := if_neg (Nat.not_le.2 hw)

theorem sluice_effect (s : State) (c : CmdRef) (w : Nat) (m : BitVec 16) (hw : w < 8)
    (ha : s.accepts c 0x020C [(1, w), (2, m.toNat)]) : Claims.answersOk s (.sluice c w m) c fun u =>
      (∀ p ∈ s.maskPorts w m, (u.port p).dciSluice = true) ∧ ∀ p, p ∉ s.maskPorts w m → u.port p = s.port p :=
  ⟨_, State.command_ok ha (sluiceBody_ok s m true hw), s.dciSluiced_effect _ true⟩

theorem unsluice_effect (s : State) (c : CmdRef) (w : Nat) (m : BitVec 16) (hw : w < 8)
    (ha : s.accepts c 0x020D [(1, w), (2, m.toNat)]) : Claims.answersOk s (.unsluice c w m) c fun u =>
      (∀ p ∈ s.maskPorts w m, (u.port p).dciSluice = false) ∧ ∀ p, p ∉ s.maskPorts w m → u.port p = s.port p :=
  ⟨_, State.command_ok ha (sluiceBody_ok s m false hw), s.dciSluiced_effect _ false⟩

/-! ### PARSE_GRAPH_LOAD, PARSE_GRAPH_COMMIT (R133, R134) -/

theorem parseGraphLoad_effect (s : State) (c : CmdRef) (recs : List GraphRec)
    (ha : s.accepts c 0x020E (recs.flatMap graphFields)) (hn : s.net.committing = none) (hr : recs.all graphRecOk = true) :
    Claims.answersOk s (.parseGraphLoad c recs) c fun u => u = { s with net := u.net }
      ∧ u.net.shadow = recs.foldl Graph.put s.net.shadow ∧ u.net.wells = s.net.wells := by
  have body : parseGraphLoadBody recs s
      = (s.updNet fun n => { n with shadow := recs.foldl Graph.put n.shadow }, .ok) := by
    unfold parseGraphLoadBody
    rw [if_neg (by simp [hn]), if_neg (by simp [hr])]
  exact ⟨_, State.command_ok ha body, rfl, rfl, rfl⟩

/-- The commit that a PARSE_GRAPH_COMMIT starts in this state. -/
def State.newCommit (s : State) (c : CmdRef) (v : Nat) : GraphCommit := ⟨c, v, s.dt, s.net.shadow, (s.well 0).graph⟩

/-- The state in which this well is still to switch to the graph of the commit. -/
def State.pendSwitch (s : State) (w : Nat) : State := s.updWell w fun x => { x with switchPending := true }

/-- The state in which the commit is in progress, and every well still to switch. -/
def State.commitStarted (s : State) (g : GraphCommit) : State :=
  (List.range 8).foldl State.pendSwitch (s.updNet fun n => { n with committing := some g })

theorem State.commitStarted_committing (s : State) (g : GraphCommit) : (s.commitStarted g).net.committing = some g :=
  State.foldl_keeps (fun x => x.net.committing) State.pendSwitch (fun _ _ => rfl) (List.range 8)
    (s.updNet fun n => { n with committing := some g })

theorem State.commitStarted_well (s : State) (g : GraphCommit) {w : Nat} (hw : w < 8) :
    (s.commitStarted g).well w = { s.well w with switchPending := true } :=
  (foldl_read (read := State.well) (upd := State.pendSwitch) (g := fun x => { x with switchPending := true })
    (fun x k => x.updWell_well k _) (fun x _ _ h => x.updWell_well_ne _ h) (fun _ => rfl) (List.range 8) _ w).trans
    (if_pos (List.mem_range.2 hw))

section
variable {s : State} {c : CmdRef} {v : Nat} (hn : s.net.committing = none)

include hn in
theorem parseGraphCommitBody_idle : parseGraphCommitBody c v s
    = if (s.well 0).graphVer = some v then (s, .ok) else (s.commitStarted (s.newCommit c v), .later) := by
  unfold parseGraphCommitBody
  rw [hn]
  rfl

variable (ha : s.accepts c 0x020F [(2, v)])
include hn ha

theorem parseGraphCommit_starts (hv : (s.well 0).graphVer ≠ some v) :
    Claims.goesOn s (.parseGraphCommit c v) c fun u => (∀ w, w < 8 → (u.well w).switchPending = true)
      ∧ ∃ g, u.net.committing = some g ∧ g.version = v ∧ g.next = s.net.shadow ∧ g.c = c :=
  ⟨_, State.command_later ha ((parseGraphCommitBody_idle hn).trans (if_neg hv)),
    fun _ hw => congrArg Well.switchPending (s.commitStarted_well _ hw), s.newCommit c v,
    s.commitStarted_committing _, rfl, rfl, rfl⟩

theorem parseGraphCommit_repeats (hv : (s.well 0).graphVer = some v) :
    Claims.answersOk s (.parseGraphCommit c v) c fun u => u = s :=
  ⟨s, State.command_ok ha ((parseGraphCommitBody_idle hn).trans (if_pos hv)), rfl⟩

end

/-! ### HASH_PROFILE_SET, HASH_KEY_SET, INDIRECTION_SET (R135-R137) -/

theorem hashProfileSet_effect (s : State) (c : CmdRef) (pr alg ks mode tb fd : Nat) (inp : BitVec 128)
    (ha : s.accepts c 0x0210 [(1, pr), (1, alg), (1, ks), (1, mode), (1, tb), (2, fd), (16, inp.toNat)]) (hp : pr ≤ 255)
    (hg : alg ≤ 2) (hk : ks ≤ 15) (hm : mode ≤ 2) (ht : tb ≤ 63) (hd : fd ≤ 65535) (hi : inp.extractLsb' 0 16 = 0)
    (h1 : alg = 1 → (selectBytes inp (List.replicate 128 0)).length ≤ 60)
    (h2 : alg = 2 → (selectBytes inp (List.replicate 128 0)).length ≤ 64) :
    Claims.answersOk s (.hashProfileSet c pr alg ks mode tb fd inp) c fun u => u = { s with net := u.net }
      ∧ SMap.get {} u.net.profiles pr = ⟨alg, ks, inp, mode, tb, fd⟩ := by
  have body : hashProfileBody pr ⟨alg, ks, inp, mode, tb, fd⟩ s
      = (s.updNet fun n => { n with profiles := SMap.set {} n.profiles pr ⟨alg, ks, inp, mode, tb, fd⟩ }, .ok) := by
    refine if_neg ?_
    simp only [not_or, not_lt, not_and, not_not]
    exact ⟨hp, hg, hk, hm, ht, hd, hi, h2, h1⟩
  exact ⟨_, State.command_ok ha body, rfl, SMap.get_set_self ..⟩

theorem hashKeySet_effect (s : State) (c : CmdRef) (k : Nat) (bs : List Byte)
    (ha : s.accepts c 0x0211 [(1, k), bytesField 64 bs]) (hk : k ≤ 15) (hb : bs.length = 64) :
    Claims.answersOk s (.hashKeySet c k bs) c fun u => SMap.get [] u.net.hashKeys k = bs ∧ u = { s with net := u.net } := by
  have body : hashKeyBody k bs s = (s.updNet fun n => { n with hashKeys := SMap.set [] n.hashKeys k bs }, .ok) :=
    if_neg (by omega)
  exact ⟨_, State.command_ok ha body, SMap.get_set_self .., rfl⟩

/-- The table with these values written one after the other from an index on. -/
def SMap.setFrom {α : Type} [DecidableEq α] (d : α) (m : SMap α) (base : Nat) (es : List α) : SMap α :=
  ((List.range es.length).zip es).foldl (fun m e => SMap.set d m (base + e.1) e.2) m

theorem SMap.get_setFrom {α : Type} [DecidableEq α] (d : α) (m : SMap α) (base : Nat) (es : List α) {k : Nat}
    (hk : k < es.length) : SMap.get d (SMap.setFrom d m base es) (base + k) = es.getD k d := by
  unfold SMap.setFrom
  induction es using List.reverseRecOn with
  | nil => simp at hk
  | append_singleton rest e ih =>
    rw [List.length_append, List.length_singleton] at hk ⊢
    rw [List.range_succ, List.zip_append List.length_range, List.foldl_append, List.zip_cons_cons, List.zip_nil_right,
      List.foldl_cons, List.foldl_nil]
    by_cases last : k = rest.length
    · rw [last, SMap.get_set_self]
      simp
    · have inRest : k < rest.length := by omega
      rw [SMap.get_set_ne _ _ _ (by omega), ih inRest, List.getD_append _ _ _ _ inRest]

theorem indirectionSet_effect (s : State) (c : CmdRef) (tb first : Nat) (es : List W32)
    (ha : s.accepts c 0x0212 ([(1, tb), (2, first), (2, es.length), (2, 0)] ++ es.map fun e => (4, e.toNat))) (ht : tb ≤ 63)
    (hn : es ≠ []) (hl : first + es.length ≤ 512) (he : es.all indirOk = true) :
    Claims.answersOk s (.indirectionSet c tb first es) c fun u => u = { s with net := u.net }
      ∧ ∀ k, k < es.length → SMap.get 0 u.net.indirection (tb * 512 + first + k) = es.getD k 0 := by
  have body : indirectionBody tb first es s = (s.updNet fun n => { n with
      indirection := SMap.setFrom 0 n.indirection (tb * 512 + first) es }, .ok) := by
    refine if_neg ?_
    simp only [not_or, not_lt]
    exact ⟨ht, by simp [hn], hl, by simp [he]⟩
  exact ⟨_, State.command_ok ha body, rfl, fun _ hk => SMap.get_setFrom 0 _ _ es hk⟩

/-! ### INTAKE_STATS (R148) -/

theorem intakeStats_effect (s : State) (c : CmdRef) (p : Nat) (ha : s.accepts c 0x0213 [(2, p)]) (hp : p ≤ 1023) :
    Claims.answersData s (.intakeStats c p) c (s.port p).intake.image :=
  State.command_reads ha (if_neg (Nat.not_lt.2 hp))

/-- Settles O32: each clause is a lemma about its command. -/
theorem intakeCommands : Obligations.IntakeCommands := by
  unfold Obligations.IntakeCommands
  intro s c
  exact ⟨fun w m hw => ⟨sluice_effect s c w m hw, unsluice_effect s c w m hw⟩, parseGraphLoad_effect s c,
    fun v ha hn => ⟨parseGraphCommit_starts hn ha, parseGraphCommit_repeats hn ha⟩, hashProfileSet_effect s c,
    hashKeySet_effect s c, indirectionSet_effect s c, intakeStats_effect s c⟩

end Sys2Proof.Machine
end

section
/-!
PROOFS. O20: buffer port loads, the yield of a slot, and room in the pending store (R156, R196, R209, R226). The statement asks of
every state that a journal which enters the store stays there; the RETIRE that completes with it also starts the packet in its
thread's NEXT slot, and no hypothesis says that this is another packet.
-/

namespace Sys2Proof.Machine

/-- A thread whose run is over starts the packet in its NEXT slot (R196). -/
theorem State.nextSlot_next {s : State} {t p : Nat} (next : ((s.abandonAll (.thread t)).tr t).next = some p)
    (halted : ((s.abandonAll (.thread t)).tr t).halted = none) : ∃ v : State, s.nextSlot t = v.startRun t p := by
  unfold State.nextSlot
  extract_lets s1
  have n1 : (s1.tr t).next = some p := by simpa only [s1, State.updTr_tr] using next
  have h1 : (s1.tr t).halted.isSome = false := by simp only [s1, State.updTr_tr, halted, Option.isSome_none]
  rw [h1, n1]
  exact ⟨s1, rfl⟩

/-- A RETIRE of packet 0 waits for room, and packet 0 stands in the NEXT slot of its thread as well. -/
def retiringItsNext : State := { State.reset with
  truns := [(0, { cur := some 0, next := some 0, wait := .store })]
  order := { storeWait := [⟨0, some 0, {}, 0, none⟩] } }

/-- The journal of `retiringItsNext` in the pending store, and its thread quiet. -/
def retiredItsNext : State :=
  let s := retiringItsNext.updOrder fun o => { o with storeWait := o.storeWait.filter fun x => x.pkt ≠ 0 }
  let s1 := (s.storePut 0 (some 0) {} 0 none).updThr 0 fun x => { x with handler := false }
  ((s1.lockAtEnd 0).stopChildren 0).quiet 0

/-- The packet whose journal has entered the store runs again. -/
theorem retiringItsNext_runs : ∃ v : State, exec .pendingStoreRoom retiringItsNext = .next (v.startRun 0 0) := by
  obtain ⟨v, hv⟩ := State.nextSlot_next (s := retiredItsNext) (t := 0) (p := 0) (by decide +kernel) (by decide +kernel)
  exact ⟨v, congrArg Host.Outcome.next hv⟩

/-- Refutes O20: the clause on the pending store fails where the packet that retires is also in its thread's NEXT slot, a state
that no hypothesis excludes: its new run takes it out of the store's state. -/
theorem not_portLoadsYieldsAndStoreRoom : ¬ Obligations.PortLoadsYieldsAndStoreRoom := by
  unfold Obligations.PortLoadsYieldsAndStoreRoom
  rintro ⟨-, -, -, enters⟩
  obtain ⟨u, hu, -, pending, -⟩ := enters retiringItsNext ⟨0, some 0, {}, 0, none⟩ [] false rfl rfl (by decide)
  obtain ⟨v, hv⟩ := retiringItsNext_runs
  obtain rfl : v.startRun 0 0 = u := Host.Outcome.next.inj (hv.symm.trans hu)
  exact absurd ((v.startRun_effect 0 0).2.1.symm.trans pending) (by decide)

end Sys2Proof.Machine
end

section
/-!
PROOFS. Entities and buffers of the basin: what a change of an entity shows, and what frees and changes of a count do to a buffer
(R156, R169).
-/

namespace Sys2Proof.Machine

/-! ### Entities and buffers (R156, R169) -/

theorem SMap.get_absent {α : Type} (d : α) (m : SMap α) (k : Nat) (h : ∀ e ∈ m, e.1 ≠ k) : SMap.get d m k = d := by
  induction m with
  | nil => rfl
  | cons e rest ih =>
    simp [SMap.get, h e List.mem_cons_self, ih fun x hx => h x (List.mem_cons_of_mem _ hx)]

/-- A write leaves what another default shows of every other entry. -/
theorem SMap.get_set_other {α : Type} [DecidableEq α] (d d' : α) (m : SMap α) {k j : Nat} (v : α) (h : j ≠ k) :
    SMap.get d' (SMap.set d m k v) j = SMap.get d' m j := by
  unfold SMap.set
  split
  · exact SMap.get_erase_ne d' m h
  · rw [SMap.get_ins_ne d' _ v h, SMap.get_erase_ne d' m h]

theorem State.updEnt_ent (s : State) (k j : Nat) (f : Ent → Ent) :
    (s.updEnt k f).ent j = if j = k then f (s.ent j) else s.ent j := by
  by_cases h : j = k
  · subst h
    rw [if_pos rfl]
    exact SMap.get_set_self (entDef j) s.basin.ents j _
  · rw [if_neg h]
    exact SMap.get_set_other (entDef k) (entDef j) s.basin.ents _ h

theorem State.updBasin_ent (s : State) (j : Nat) {g : BasinSt → BasinSt} (hg : (g s.basin).ents = s.basin.ents) :
    (s.updBasin g).ent j = s.ent j := by
  rw [State.ent, State.updBasin, hg]
  rfl

theorem State.updEnt_keeps {β : Type} (φ : Ent → β) {f : Ent → Ent} (hf : ∀ e, φ (f e) = φ e) (s : State) (k j : Nat) :
    φ ((s.updEnt k f).ent j) = φ (s.ent j) := by
  rw [State.updEnt_ent]
  split
  · exact hf _
  · rfl

theorem State.chargeEnd_bufs (s : State) (c : Prop) [Decidable c] (n : Nat) (ents : List Nat) :
    ((if c then { s with basin := { s.basin with sharedUsed := n } } else s).fcAfter ents).basin.bufs = s.basin.bufs := by
  rw [State.fcAfter_basin]
  split
  · rfl
  · rfl

theorem State.uncharge_bufs (s : State) (ents : List Nat) : (s.uncharge ents).basin.bufs = s.basin.bufs := by
  unfold State.uncharge
  split
  · rfl
  · exact (State.chargeEnd_bufs _ _ _ _).trans
      (State.foldl_keeps (fun x : State => x.basin.bufs) (fun x k => x.updEnt k (Ent.uncharge · _)) (fun _ _ => rfl) _ s)

/-- Cells given back change no buffer (R169). -/
theorem State.giveBack_bufs (s : State) (ents cells : List Nat) :
    (cells.foldl (fun acc c => (State.dropCell acc c).uncharge ents) s).basin.bufs = s.basin.bufs :=
  State.foldl_keeps (fun x : State => x.basin.bufs) _ (fun x c => (x.dropCell c).uncharge_bufs ents) cells s

/-- A freed buffer is gone (R156). -/
theorem State.freeBuf_buf {s : State} {h : Nat} {b : Buf} (hb : s.buf h = some b) : (s.freeBuf h).buf h = none := by
  have gone : (SMap.erase s.basin.bufs h).find? (fun e => e.1 = h) = none :=
    List.find?_eq_none.2 fun e he => by simpa using SMap.erase_ne s.basin.bufs h he
  unfold State.freeBuf
  rw [hb]
  unfold State.buf
  rw [State.giveBack_bufs, gone]
  rfl

theorem State.settle_free {s : State} {h : Nat} {b : Buf} (hb : s.buf h = some b) (hc : b.count = 0) (hh : b.held = false) :
    s.settle h = s.freeBuf h := by
  simp [State.settle, hb, hc, hh]

theorem State.settle_counted {s : State} {h : Nat} {b : Buf} (hb : s.buf h = some b) (hc : b.count ≠ 0) : s.settle h = s := by
  simp [State.settle, hb, hc]

end Sys2Proof.Machine
end

section
/-!
PROOFS. O40: the buffer commands: quotas, spill settings, the cistern's size, reclaim and status (R161, R173, R178, R181, R193).
-/

namespace Sys2Proof.Machine

/-! ### BUFFER_QUOTA_SET (R173) -/

/-- An entity's settings and its cells, whatever of them the shared pool holds. -/
def Ent.quota (e : Ent) : Nat × Nat × Nat × Nat := (e.min, e.max, e.alpha, e.used)

theorem State.minLowered_quota (s : State) (k n : Nat) (port : Option Nat) (j : Nat) :
    ((s.minLowered k n port).ent j).quota = (s.ent j).quota := by
  unfold State.minLowered
  extract_lets s1 s2
  have one : (s1.ent j).quota = (s.ent j).quota := s.updEnt_keeps Ent.quota (by exact fun _ => rfl) k j
  have two : (s2.ent j).quota = (s1.ent j).quota := by
    simp only [s2]
    split
    · exact s1.updEnt_keeps Ent.quota (by exact fun _ => rfl) _ j
    · rfl
  exact two.trans one

theorem State.portLowered_quota (s : State) (p n j : Nat) : ((s.portLowered p n).ent j).quota = (s.ent j).quota := by
  unfold State.portLowered
  dsimp only
  generalize hr : List.foldl _ (s, n) (List.range 8) = r
  have classes : (r.1.ent j).quota = (s.ent j).quota := by
    rw [← hr]
    exact List.foldlRecOn (motive := fun x : State × Nat => (x.1.ent j).quota = (s.ent j).quota) _ _ rfl
      fun x hx c _ => (x.1.updEnt_keeps Ent.quota (by exact fun _ => rfl) _ j).trans hx
  rw [State.updBasin_ent _ j (by rfl), State.updEnt_keeps Ent.quota (by exact fun _ => rfl), classes]

theorem State.setQuota_quota (s : State) (k ix lo hi al : Nat) : ((s.setQuota k ix lo hi al).ent (k * 65536 + ix)).quota
    = (lo, hi, al, (s.ent (k * 65536 + ix)).used) := by
  have written : ((s.updEnt (k * 65536 + ix) fun x => { x with min := lo, max := hi, alpha := al }).ent (k * 65536 + ix)).quota
      = (lo, hi, al, (s.ent (k * 65536 + ix)).used) := by
    rw [State.updEnt_ent, if_pos rfl]
    rfl
  unfold State.setQuota
  dsimp only
  split
  · exact (State.portLowered_quota _ _ _ _).trans written
  · exact (State.minLowered_quota _ _ _ _ _).trans written

theorem bufferQuotaSet_effect (s : State) (c : CmdRef) (k ix lo hi al : Nat)
    (ha : s.accepts c 0x0700 [(1, k), (2, ix), (4, lo), (4, hi), (1, al)]) (hk : k ≤ 5) (hx : ix < entCount k)
    (hl : lo ≤ 1048575) (hh : hi ≤ 1048575) (hal : al ≤ 12) (h5 : k = 5 → al = 0) (hm : hi = 0 ∨ lo ≤ hi)
    (hs : s.minSum - (s.ent (k * 65536 + ix)).min + lo ≤ 425984) :
    Claims.answersOk s (.bufferQuotaSet c k ix lo hi al) c fun u => (u.ent (k * 65536 + ix)).min = lo
      ∧ (u.ent (k * 65536 + ix)).max = hi ∧ (u.ent (k * 65536 + ix)).alpha = al
      ∧ (u.ent (k * 65536 + ix)).used = (s.ent (k * 65536 + ix)).used := by
  have body : bufferQuotaBody k ix lo hi al s = (s.setQuota k ix lo hi al, .ok) := if_neg (by omega)
  exact ⟨_, State.command_ok ha body, by simpa [Ent.quota] using s.setQuota_quota k ix lo hi al⟩

/-! ### QUEUE_SPILL_SET, CISTERN_CONFIG (R178, R181) -/

theorem queueSpillSet_effect (s : State) (c : CmdRef) (q en on low : Nat)
    (ha : s.accepts c 0x0701 [(2, q), (1, en), (4, on), (2, low)]) (he : en ≤ 1) (h1 : 256 ≤ on) (h2 : on ≤ 1048575)
    (hl : 16 ≤ low) : Claims.answersOk s (.queueSpillSet c q en on low) c fun u =>
      u.queue q = { s.queue q with spillEn := en = 1, spillOn := on, refillLow := low }
        ∧ u = { s with egress := u.egress } := by
  have body : queueSpillBody q en on low s = (s.updQueue q fun x => { x with
      spillEn := en = 1, spillOn := on, refillLow := low }, .ok) := if_neg (by omega)
  exact ⟨_, State.command_ok ha body, State.updQueue_queue .., rfl⟩

section

variable {s : State} {c : CmdRef} {g : Nat}

theorem cisternConfigBody_idle (h8 : 8 ≤ g) (h64 : g ≤ 64) (hi : s.cistern.shrinking = false) : cisternConfigBody c g s
    = if g = s.cistern.sizeGib then (s, .ok)
      else if s.cistern.sizeGib < g then
        if s.cisternRoom < (g - s.cistern.sizeGib) * 1073741824 then (s, noRoom) else (s.cisternResize g, .ok)
      else (s.updCistern fun x => { x with limit := blocksOfGib g, shrink := some c, shrinking := true, shrinkCause := 0 },
        .later) := by
  unfold cisternConfigBody
  dsimp only
  rw [if_neg (by omega), hi, if_neg Bool.false_ne_true]

variable (ha : s.accepts c 0x0702 [(1, g)]) (h8 : 8 ≤ g) (h64 : g ≤ 64) (hi : s.cistern.shrinking = false)
include ha h8 h64 hi

theorem cisternConfig_grows (h : s.cistern.sizeGib < g) (room : (g - s.cistern.sizeGib) * 1073741824 ≤ s.cisternRoom) :
    Claims.answersOk s (.cisternConfig c g) c fun u => u.cistern.sizeGib = g ∧ u.cistern.limit = blocksOfGib g := by
  have body : cisternConfigBody c g s = (s.cisternResize g, .ok) := by
    rw [cisternConfigBody_idle h8 h64 hi, if_neg (by omega), if_pos h, if_neg (by omega)]
  exact ⟨_, State.command_ok ha body, rfl, rfl⟩

theorem cisternConfig_same (h : g = s.cistern.sizeGib) : Claims.answersOk s (.cisternConfig c g) c fun u => u = s :=
  ⟨s, State.command_ok ha ((cisternConfigBody_idle h8 h64 hi).trans (if_pos h)), rfl⟩

theorem cisternConfig_shrinks (h : g < s.cistern.sizeGib) : Claims.goesOn s (.cisternConfig c g) c fun u =>
    u.cistern.limit = blocksOfGib g ∧ u.cistern.shrinking = true ∧ u.cistern.shrink = some c
      ∧ u.cistern.sizeGib = s.cistern.sizeGib := by
  have body : cisternConfigBody c g s = (s.updCistern fun x => { x with
      limit := blocksOfGib g, shrink := some c, shrinking := true, shrinkCause := 0 }, .later) := by
    rw [cisternConfigBody_idle h8 h64 hi, if_neg (by omega), if_neg (by omega)]
  exact ⟨_, State.command_later ha body, rfl, rfl, rfl, rfl⟩

end

/-! ### BUFFER_RECLAIM (R161) -/

theorem bufferReclaim_answers (s : State) (c : CmdRef) (mode cl : Nat) (hs : List W32)
    (ha : s.accepts c 0x0703 ([(1, mode), (1, cl), (2, hs.length)] ++ hs.map fun h => (4, h.toNat))) (hm : mode ≤ 1)
    (hcl : mode = 1 → cl ≤ 11) : ∃ (u : State) (n m : Nat),
      exec (.bufferReclaim c mode cl hs) s = .next (u.answer c (.data (layout [(4, n), (4, m)]))) := by
  have body : ∃ v n m, bufferReclaimBody mode cl hs s = (v, .data (layout [(4, n), (4, m)])) :=
    ⟨_, _, _, if_neg (by omega)⟩
  obtain ⟨v, n, m, hb⟩ := body
  have answered := State.command_accepts s c _ _ (bufferReclaimBody mode cl hs) ha
  rw [hb] at answered
  exact ⟨_, n, m, answered⟩

/-- The release of a held CLUSTER buffer: it stays while copies refer to it (R156, R160). -/
theorem State.releaseHeld_buf {s : State} {h : Nat} {b : Buf} (reqTag : Nat) (hv : h < 524288) (hb : s.buf h = some b)
    (hc : b.cls = 3) (hh : b.held = true) :
    (s.releaseHeld h reqTag).buf h = if b.count = 0 then none else some { b with held := false } := by
  have basin : h / 0x40000000 = 0 := by omega
  have valid : s.invalidHandle h = false := by
    unfold State.invalidHandle
    rw [basin]
    exact decide_eq_false (by omega)
  have near : ¬ 0x40000000 ≤ h := by omega
  have released : s.releaseHeld h reqTag = (s.updBuf h fun b => { b with held := false }).settle h := by
    simp [State.releaseHeld, valid, near, hb, hc, hh]
  have unheld := State.buf_updBuf_self hb fun b => { b with held := false }
  rw [released]
  split
  · next zero => rw [State.settle_free unheld zero rfl, State.freeBuf_buf unheld]
  · next counted => rw [State.settle_counted unheld counted, unheld]

theorem bufferReclaim_held (s : State) (c : CmdRef) (h : W32) (b : Buf)
    (ha : s.accepts c 0x0703 [(1, 0), (1, 0), (2, 1), (4, h.toNat)]) (hv : h.toNat < 524288) (hb : s.buf h.toNat = some b)
    (hc : b.cls = 3) (hh : b.held = true) (hp : b.prov = none) (ht : s.tooLong c (.data (layout [(4, 1), (4, 0)])) = false) :
    ∃ u : State, exec (.bufferReclaim c 0 0 [h]) s = .next (u.answer c (.data (layout [(4, 1), (4, 0)])))
      ∧ u.buf h.toNat = if b.count = 0 then none else some { b with held := false } := by
  have one : s.reclaim1 h.toNat = (s.releaseHeld h.toNat 0x400, 1, 0) := by simp [State.reclaim1, hb, hc, hh, hp]
  have body : bufferReclaimBody 0 0 [h] s = (s.releaseHeld h.toNat 0x400, .data (layout [(4, 1), (4, 0)])) := by
    simp [bufferReclaimBody, one]
  exact ⟨_, State.command_answers ha body ht, State.releaseHeld_buf 0x400 hv hb hc hh⟩

/-! ### BUFFER_STATUS (R193) -/

/-- The entity with its peak at its current count. -/
def Ent.peakNow (e : Ent) : Ent := { e with peak := e.used }

theorem entDef_peakNow (k : Nat) : (entDef k).peakNow = entDef k := by
  unfold entDef
  split <;> rfl

/-- The peaks restart at the current counts: an entity without an entry has none. -/
theorem State.peaksRestart_ent (s : State) (k : Nat) :
    (s.basin.ents.foldl (fun acc e => State.updEnt acc e.1 fun x => { x with peak := x.used }) s).ent k
      = (s.ent k).peakNow := by
  have read := foldl_read (read := State.ent) (upd := fun x k => x.updEnt k Ent.peakNow) (g := Ent.peakNow)
    (fun x k => (x.updEnt_ent k k _).trans (if_pos rfl)) (fun x k j h => (x.updEnt_ent k j _).trans (if_neg h))
    (fun _ => rfl) (s.basin.ents.map Prod.fst) s k
  rw [List.foldl_map] at read
  refine read.trans ?_
  split
  · rfl
  · next absent =>
    have unset : s.ent k = entDef k := SMap.get_absent _ _ _ fun e he h => absent (List.mem_map.2 ⟨e, he, h⟩)
    rw [unset, entDef_peakNow]

theorem bufferStatus_effect (s : State) (c : CmdRef) (ha : s.accepts c 0x0704 []) :
    ∃ u : State, exec (.bufferStatus c) s = .next (u.answer c (.data s.bufferImage))
      ∧ (s.tooLong c (.data s.bufferImage) = false →
        ∀ k, (u.ent k).peak = (s.ent k).used ∧ (u.ent k).used = (s.ent k).used) := by
  refine ⟨_, State.command_accepts s c _ _ bufferStatusBody ha, fun ht k => ?_⟩
  rw [show s.tooLong c (bufferStatusBody s).2 = false from ht, if_neg Bool.false_ne_true]
  have restarted : (bufferStatusBody s).1.ent k = (s.ent k).peakNow := s.peaksRestart_ent k
  rw [restarted]
  exact ⟨rfl, rfl⟩

/-- Settles O40: each clause is a lemma about its command. -/
theorem bufferCommands : Obligations.BufferCommands := by
  unfold Obligations.BufferCommands
  intro s c
  exact ⟨bufferQuotaSet_effect s c, queueSpillSet_effect s c,
    fun g ha h8 h64 hi =>
      ⟨cisternConfig_grows ha h8 h64 hi, cisternConfig_same ha h8 h64 hi, cisternConfig_shrinks ha h8 h64 hi⟩,
    bufferReclaim_answers s c, bufferReclaim_held s c, bufferStatus_effect s c⟩

end Sys2Proof.Machine
end

section
/-!
PROOFS. What the end of a copy leaves of the sending side (R156, R417, R426, R428): the release of its buffer, the sump and its
events change no queue but by the count of drops, no group, no port but its flow control, and put nothing on a wire.
-/

namespace Sys2Proof.Machine

/-! ### Events put nothing on a wire (R486, R501) -/

theorem State.sendVector_wire (s : State) (f : HostFn) (v : Nat) : (s.sendVector f v).out.wire = s.out.wire := by
  unfold State.sendVector
  split
  · rw [State.updFn_out]
  · rfl

theorem State.irq_wire (s : State) (f : HostFn) (k : Nat) : (s.irq f k).out.wire = s.out.wire := by
  unfold State.irq
  dsimp only
  split
  · rfl
  · split
    · rw [State.updFn_out]
    · rw [State.updFn_out, State.sendVector_wire]

theorem State.putEvent_wire (s : State) (f : HostFn) (e : EvRec) : (s.putEvent f e).out.wire = s.out.wire := by
  unfold State.putEvent
  split
  · rw [State.updFn_out]
  · split
    · rw [State.irq_wire, State.hostWrite]
    · rfl

theorem State.issueEvent_wire (s : State) (f : HostFn) (code : Nat) (dt : W64) (body : List Byte) :
    (s.issueEvent f code dt body).out.wire = s.out.wire := by
  rw [State.issueEvent, State.putEvent_wire, State.updFn_out]

theorem State.eventOn_wire (s : State) (f : HostFn) (code : Nat) (dt : W64) (body : List Byte) :
    (s.eventOn f code dt body).out.wire = s.out.wire := by
  have lost : (s.lostEvent f).out.wire = s.out.wire := by
    unfold State.lostEvent
    dsimp only
    split
    · rw [State.updFn_out, State.issueEvent_wire]
    · rfl
  unfold State.eventOn
  dsimp only
  split
  · rw [State.issueEvent_wire, lost]
  · rw [State.updFn_out, lost]

theorem State.event_wire (s : State) (code : Nat) (fields : List (Nat × Nat)) :
    (s.event code fields).out.wire = s.out.wire := by
  have logged (x : State) (body : List Byte) : (x.logEvent code s.time.ns body).out.wire = x.out.wire := by
    unfold State.logEvent
    split
    · rfl
    · rfl
  rw [State.event, logged]
  exact State.foldl_keeps (fun x : State => x.out.wire) _ (fun x f => x.eventOn_wire f code _ _) _ s

/-! ### What of the sending side the end of a copy leaves alone (R156, R417, R426, R428) -/

/-- The queues, their groups and pumps, the ports but for their flow control, the frames sent, the network side and the time. -/
structure Sending where
  queues : SMap Queue
  groups : SMap QGroup
  pumps : SMap Pump
  eport : Nat → EPort
  wire : List TxFrame
  net : NetSt
  time : TimeSt

def State.sending (s : State) : Sending where
  queues := s.egress.queues
  groups := s.egress.groups
  pumps := s.egress.pumps
  eport p := { s.eport p with xoff := [] }
  wire := s.out.wire
  net := s.net
  time := s.time

section

variable {s u : State} (h : u.sending = s.sending)
include h

theorem State.queue_of_sending (q : Nat) : u.queue q = s.queue q :=
  congrArg (fun x : Sending => SMap.get ({} : Queue) x.queues q) h

theorem State.now_of_sending (p : Nat) : (u.eport p).now = (s.eport p).now :=
  congrArg (fun x : Sending => (x.eport p).now) h

theorem State.flushed_of_sending (p : Nat) : (u.eport p).flushed = (s.eport p).flushed :=
  congrArg (fun x : Sending => (x.eport p).flushed) h

theorem State.updQueue_sending (q : Nat) (g : Queue → Queue) : (u.updQueue q g).sending = (s.updQueue q g).sending := by
  have queues : u.egress.queues = s.egress.queues := congrArg Sending.queues h
  have set : (u.updQueue q g).egress.queues = (s.updQueue q g).egress.queues := by
    simp only [State.updQueue, State.setQueue, State.queue, queues]
  exact congrArg₂ (fun (x : Sending) l => { x with queues := l }) h set

theorem State.updPump_sending (n : Nat) (g : Pump → Pump) : (u.updPump n g).sending = (s.updPump n g).sending := by
  have pumps : u.egress.pumps = s.egress.pumps := congrArg Sending.pumps h
  have set : (u.updPump n g).egress.pumps = (s.updPump n g).egress.pumps := by
    simp only [State.updPump, State.setPump, State.pump, pumps]
  exact congrArg₂ (fun (x : Sending) l => { x with pumps := l }) h set

end

theorem State.event_sending (s : State) (code : Nat) (fields : List (Nat × Nat)) :
    (s.event code fields).sending = s.sending := by
  have wire := s.event_wire code fields
  obtain ⟨o, d, l, n, h⟩ := s.event_frame code fields
  rw [h] at wire ⊢
  exact congrArg (fun w => { s.sending with wire := w }) wire

theorem State.updEport_sending (s : State) (p : Nat) (g : EPort → EPort)
    (hg : { g (s.eport p) with xoff := [] } = { s.eport p with xoff := [] }) : (s.updEport p g).sending = s.sending := by
  have ports : (fun q => { (s.updEport p g).eport q with xoff := [] }) = fun q => { s.eport q with xoff := [] } := by
    funext q
    by_cases h : q = p
    · rw [h, State.updEport_eport, hg]
    · rw [State.updEport_eport_ne _ _ h]
  exact congrArg (fun e => { s.sending with eport := e }) ports

theorem State.fcCheck1_sending (s : State) (port cls used : Nat) : (s.fcCheck1 port cls used).sending = s.sending := by
  unfold State.fcCheck1
  dsimp only
  split
  · split
    · exact State.updEport_sending _ _ _ rfl
    · rfl
  · split
    · exact State.updEport_sending _ _ _ rfl
    · rfl

theorem State.fcAfter_sending (s : State) (ents : List Nat) : (s.fcAfter ents).sending = s.sending := by
  unfold State.fcAfter
  split
  · split
    · unfold State.fcCheck
      split
      · rfl
      · exact State.fcCheck1_sending ..
      · exact State.fcCheck1_sending ..
    · rfl
  · rfl

theorem State.uncharge_sending (s : State) (ents : List Nat) : (s.uncharge ents).sending = s.sending := by
  have done (x : State) (c : Prop) [Decidable c] (n : Nat) :
      ((if c then { x with basin := { x.basin with sharedUsed := n } } else x).fcAfter ents).sending = x.sending := by
    rw [State.fcAfter_sending]
    split
    · rfl
    · rfl
  unfold State.uncharge
  split
  · rfl
  · exact (done _ _ _).trans
      (State.foldl_keeps State.sending (fun x k => x.updEnt k (Ent.uncharge · _)) (fun _ _ => rfl) _ s)

theorem State.freeBuf_sending (s : State) (h : Nat) : (s.freeBuf h).sending = s.sending := by
  unfold State.freeBuf
  split
  · rfl
  · exact State.foldl_keeps State.sending _ (fun x c => (x.dropCell c).uncharge_sending _) _
      { s with basin := { s.basin with bufs := SMap.erase s.basin.bufs h } }

theorem State.updBuf_sending (s : State) (h : Nat) (g : Buf → Buf) : (s.updBuf h g).sending = s.sending := by
  unfold State.updBuf
  split
  · rfl
  · rfl

theorem State.decRef_sending (s : State) (h : Nat) : (s.decRef h).sending = s.sending := by
  unfold State.decRef State.settle
  split
  · split
    · rw [State.freeBuf_sending, State.updBuf_sending]
    · exact s.updBuf_sending h _
  · exact s.updBuf_sending h _

theorem State.badFree_sending (s : State) (reason reqTag bufTag handle : Nat) :
    (s.badFree reason reqTag bufTag handle).sending = s.sending := by
  unfold State.badFree
  dsimp only
  split
  · exact State.event_sending ..
  · rfl

theorem State.endRef_sending (s : State) (h : Nat) : (s.endRef h).sending = s.sending := by
  unfold State.endRef
  split
  · exact s.badFree_sending ..
  · split
    · exact s.badFree_sending ..
    · exact s.decRef_sending h

theorem State.sample_sending (s : State) (code sub inPort domain : Nat) (seq : W32) (dt : Nat) (bytes : List Byte) :
    (s.sample code sub inPort domain seq dt bytes).sending = s.sending := by
  have other (x : State) (f : HostFn) (g : FnSt → FnSt) : (x.updFn f g).sending = x.sending := by
    cases f
    · rfl
    · rfl
  unfold State.sample
  extract_lets k s1 win used s2 f
  split
  · rfl
  · split
    · rfl
    · split
      · rfl
      · split
        · exact other _ _ _
        · rfl

theorem State.sumpAt_sending (s : State) (lport code bytes : Nat) : (s.sumpAt lport code bytes).sending = s.sending := by
  unfold State.sumpAt
  split
  · rfl
  · rfl

theorem State.copyOutcome_sending (s : State) (c : Copy) (code : Nat) : (s.copyOutcome c code).sending = s.sending := by
  unfold State.copyOutcome
  split
  · rfl
  · rfl

/-- A copy that ends without completing is counted as a drop of its queue, and its edit list goes. -/
theorem State.killCopy_sending (s : State) (c : Copy) (code sub : Nat) : (s.killCopy c code sub).sending
    = ((s.updQueue c.queue fun q => { q with drops := q.drops + 1 }).updPump (s.copyPump c) fun x =>
        x.release c.pkt c.emit).sending := by
  unfold State.killCopy State.dropCopy
  dsimp only
  rw [if_pos rfl, if_pos rfl, State.copyOutcome_sending, State.endRef_sending]
  refine State.updPump_sending (State.updQueue_sending ?_ _ _) _ _
  rw [State.sample_sending, State.sumpAt_sending]
  rfl

end Sys2Proof.Machine
end

section
/-!
PROOFS. O39: spill and refill of the queues, the cistern's shrink, the sized pools and the basin's rebuild (R175, R176,
R178-R186, R189).
-/

namespace Sys2Proof.Machine

/-! ### The choice of a queue's tail packet (R182, R183, R186) -/

section

variable {s : State} {q : Nat} {c : Copy} {rest : List Copy} (ht : (s.queue q).tail = c :: rest)
  (en : (s.queue q).spillEn = true) (on : (s.queue q).spillOn < s.cellsOf ((s.queue q).head ++ (s.queue q).tail))
  (ha : ∀ a, (s.queue q).agg = some a → aggBytes a < 4064) (hr : (s.pump (s.pumpOf q)).resetting = false)
include ht en on ha hr

theorem execSpillChoose_due : execSpillChoose q s =
    if s.spillSpent then done (s.updPump (s.pumpOf q) fun x => { x with
      deferBw := x.deferBw + BitVec.ofNat 64 (s.copyCells c) })
    else if s.freeBlock = none then done (s.updPump (s.pumpOf q) fun x => { x with
      deferFull := x.deferFull + BitVec.ofNat 64 (s.copyCells c) })
    else if (s.queue q).agg.isNone ∧ 64 ≤ s.openAggs (s.pumpOf q) then done (s.updPump (s.pumpOf q) fun x => { x with
      deferAgg := x.deferAgg + BitVec.ofNat 64 (s.copyCells c) })
    else
      let a := (s.queue q).agg.getD ⟨[], s.dt, false, []⟩
      done (s.setQueue q { s.queue q with tail := rest, agg := some { a with copies := a.copies ++ [c] } }) := by
  have full : ((s.queue q).agg.any fun a => decide (4064 ≤ aggBytes a)) = false := by
    cases h : (s.queue q).agg with
    | none => rfl
    | some a => exact decide_eq_false (Nat.not_le.2 (ha a h))
  unfold execSpillChoose
  extract_lets x pn
  split
  · next none => exact absurd (ht.symm.trans none) (by simp)
  · next d l some =>
    obtain ⟨rfl, rfl⟩ := List.cons.inj (ht.symm.trans some)
    exact if_neg (by simp [x, pn, en, hr, full, on])

theorem spillChoose_defers (spent : s.spillSpent = true) : ∃ u, exec (.spillChoose q) s = .next u
    ∧ (u.pump (s.pumpOf q)).deferBw = (s.pump (s.pumpOf q)).deferBw + BitVec.ofNat 64 (s.copyCells c)
    ∧ u.queue q = s.queue q := by
  refine ⟨_, (execSpillChoose_due ht en on ha hr).trans (if_pos spent), ?_, rfl⟩
  rw [State.updPump_pump]

theorem spillChoose_moves (spent : s.spillSpent = false) (block : s.freeBlock.isSome = true)
    (room : (s.queue q).agg = none → s.openAggs (s.pumpOf q) < 64) : ∃ u a, exec (.spillChoose q) s = .next u
      ∧ a = (s.queue q).agg.getD ⟨[], s.dt, false, []⟩ ∧ (u.queue q).tail = rest
      ∧ (u.queue q).agg = some { a with copies := a.copies ++ [c] } ∧ (u.queue q).head = (s.queue q).head := by
  have free : s.freeBlock ≠ none := Option.isSome_iff_ne_none.1 block
  have opens : ¬ ((s.queue q).agg.isNone = true ∧ 64 ≤ s.openAggs (s.pumpOf q)) := fun h =>
    absurd (room (Option.isNone_iff_eq_none.1 h.1)) (Nat.not_lt.2 h.2)
  refine ⟨_, _, (execSpillChoose_due ht en on ha hr).trans ((if_neg (by simp [spent])).trans
    ((if_neg free).trans (if_neg opens))), rfl, ?_⟩
  rw [State.setQueue_queue]
  exact ⟨rfl, rfl, rfl⟩

end

/-! ### The write of an aggregate (R179, R183) -/

@[simp] theorem State.updPump_queue (s : State) (n q : Nat) (g : Pump → Pump) : (s.updPump n g).queue q = s.queue q := rfl

/-- Requests to the HBM change its controllers and the power state alone (R460, R465). -/
theorem State.spillReq_frame (s : State) (write : Bool) (block : Nat) (data : List Byte) :
    ∃ h p, s.spillReq write block data = { s with hbm := h, power := p } := by
  have stack (x : State) (k : Nat) : ∃ h p, x.wakeStack k = { x with hbm := h, power := p } := by
    unfold State.wakeStack
    split
    · exact ⟨_, _, rfl⟩
    · exact ⟨x.hbm, x.power, rfl⟩
  have pc (x : State) (p : Nat) : ∃ h w, x.wakePc p = { x with hbm := h, power := w } := by
    unfold State.wakePc
    obtain ⟨h, w, e⟩ := stack x (stackOf p)
    rw [e]
    dsimp only
    split
    · exact ⟨_, _, rfl⟩
    · exact ⟨h, w, rfl⟩
  have part (x : State) (port pc' : Nat) (a : Nat) (ps : List (Nat × Nat × Nat)) :
      ∃ h w, x.hbmPart port write data a pc' ps = { x with hbm := h, power := w } := by
    unfold State.hbmPart
    obtain ⟨h, w, e⟩ := pc x pc'
    rw [e]
    exact ⟨_, _, rfl⟩
  unfold State.spillReq
  dsimp only
  exact List.foldlRecOn (motive := fun x : State => ∃ h p, x = { s with hbm := h, power := p }) _ _ ⟨s.hbm, s.power, rfl⟩
    fun x ⟨h, w, hx⟩ pc _ => by
      obtain ⟨h', w', e⟩ := part x (if write then 0 else 1) pc _ _
      exact ⟨h', w', by rw [e, hx]⟩

/-- A queue that settles moves its tail to its head (R182). -/
theorem Queue.settle_head (x : Queue) : ∃ l, x.settle.head = x.head ++ l := by
  unfold Queue.settle
  split
  · exact ⟨x.tail, rfl⟩
  · exact ⟨[], (List.append_nil _).symm⟩

theorem Queue.settle_rest (x : Queue) : ∃ a b, x.settle = { x with head := a, tail := b } := by
  unfold Queue.settle
  split
  · exact ⟨_, _, rfl⟩
  · exact ⟨x.head, x.tail, rfl⟩

@[simp] theorem Queue.settle_agg (x : Queue) : x.settle.agg = x.agg := by
  obtain ⟨a, b, h⟩ := x.settle_rest
  rw [h]

@[simp] theorem Queue.settle_writing (x : Queue) : x.settle.writing = x.writing := by
  obtain ⟨a, b, h⟩ := x.settle_rest
  rw [h]

theorem State.recImage_length (s : State) (c : Copy) (f : List Byte) (poison : Bool) :
    (s.recImage c f poison).length = 16 + f.length + (8 - f.length % 8) % 8 := by
  simp [State.recImage, State.queueEntry]
  omega

/-- Bytes that fit into the last block of a chain stay in it (R179). -/
theorem State.chainPut_fits (s : State) (full : List (Nat × List Byte × Nat)) (b n fuel : Nat) (img bs : List Byte)
    (got : List Nat) (hi : img.length < 4064) (hb : bs.length ≤ 4064 - img.length) :
    s.chainPut ⟨full, some (b, img, n)⟩ bs (fuel + 1) got = some (s, ⟨full, some (b, img ++ bs, n)⟩, got ++ [b]) := by
  have room : s.chainRoom ⟨full, some (b, img, n)⟩ = some (s, ⟨full, some (b, img, n)⟩, b, img, n) := if_pos hi
  unfold State.chainPut
  rw [room]
  dsimp only
  rw [if_pos hb, List.take_of_length_le hb]

/-- The record of one copy at the start of an empty block (R179). -/
def soleRecord (w : Copy) (f : List Byte) (poison : Bool) (b basin : Nat) : SpillRec Copy :=
  ⟨{ w with handle := cisternHandle b 0 }, f, poison, [b], 0, 0, basin⟩

/-- The queue after the write of its aggregate as one record, which lies in a block with these bytes. -/
def State.aggWritten (s : State) (q o : Nat) (img : List Byte) (r : SpillRec Copy) : State :=
  s.updQueue q fun y => Queue.settle { y with
    agg := none, spillLast := img, spillRecs := 1
    writing := y.writing ++ [{ copies := [], opened := o, written := true, recs := [r] }] }

section

variable {s : State} {c w : Copy} {f : List Byte} {b : Nat} (intact : (s.buf c.handle).bind Buf.broken = none)
  (hw : s.spillCopy c = (w, .frame f)) (hf : f.length ≤ 4048) (hb : s.freeBlock = some b)
include intact hw hf hb

/-- One copy is written as one record, which a free block takes whole (R179, R422). -/
theorem State.writeAgg_one : ∃ (v : State) (img : List Byte) (poison : Bool),
    s.writeAgg [] 0 [c] ⟨[], none⟩ [] = some (v, [soleRecord w f poison b c.handle], ⟨[], some (b, img, 1)⟩)
      ∧ v.egress.queues = s.egress.queues ∧ b ∈ v.cistern.usedBlocks := by
  have read : s.readError c none = (s, none) := congrArg (Prod.mk s) intact
  have block : s.chainRoom ⟨[], none⟩ = some (s.takeBlock b, ⟨[], none⟩, b, [], 0) := by
    rw [State.chainRoom, hb]
    rfl
  unfold State.writeAgg
  dsimp only [List.find?_nil, Option.map_none]
  rw [read]
  dsimp only
  rw [hw]
  dsimp only
  rw [block]
  dsimp only
  rw [State.chainPut_fits _ _ _ _ _ _ _ _ (by simp) (by rw [State.recImage_length]; simp; omega)]
  exact ⟨_, _, _, rfl, rfl, mem_insNat _ _⟩

theorem aggregateTimer_writes {q n o : Nat} (ha : (s.queue q).agg = some ⟨[c], o, false, []⟩) (hn : s.pumpOf q = n)
    (ho : o + 2000 ≤ s.dt) (hr : (s.queue q).records = []) : ∃ u r, exec (.aggregateTimer n ⟨q, []⟩) s = .next u
      ∧ (u.queue q).agg = none
      ∧ (u.queue q).writing = (s.queue q).writing ++ [{ copies := [], opened := o, written := true, recs := [r] }]
      ∧ r.copy = { w with handle := cisternHandle b 0 } ∧ r.bytes = f ∧ r.blocks = [b] ∧ r.basin = c.handle
      ∧ b ∈ u.cistern.usedBlocks := by
  have fresh : (s.queue q).chain = ⟨[], none⟩ := by
    rw [Queue.chain, hr]
    rfl
  obtain ⟨v, img, poison, written, queues, used⟩ := State.writeAgg_one intact hw hf hb
  have kept : v.queue q = s.queue q := congrArg (fun l => SMap.get ({} : Queue) l q) queues
  obtain ⟨h, p, sent⟩ := (v.aggWritten q o img (soleRecord w f poison b c.handle)).spillReq_frame true b
    (blockHeader none q 1 ++ img)
  have run : exec (.aggregateTimer n ⟨q, []⟩) s = .next (((v.aggWritten q o img (soleRecord w f poison b c.handle)).spillReq
      true b (blockHeader none q 1 ++ img)).updPump n fun y => { y with blocksWritten := y.blocksWritten + 1 }) := by
    show execAggregateTimer n ⟨q, []⟩ s = _
    unfold execAggregateTimer
    dsimp only
    rw [ha]
    dsimp only
    rw [if_neg (by simp [hn]; omega), fresh, written]
    rfl
  rw [sent] at run
  refine ⟨_, soleRecord w f poison b c.handle, run, ?_, ?_, rfl, rfl, rfl, rfl, used⟩
  · show ((v.aggWritten q o img _).queue q).agg = none
    simp [State.aggWritten]
  · show ((v.aggWritten q o img _).queue q).writing = _
    simp [State.aggWritten, kept]

end

/-! ### The write's acknowledgement (R183) -/

theorem State.unchargeBuf_sending (s : State) (h : Nat) : (s.unchargeBuf h).sending = s.sending := by
  unfold State.unchargeBuf
  split
  · rfl
  · rw [State.updBuf_sending]
    exact State.foldl_keeps State.sending _ (fun x _ => x.uncharge_sending _) _ s

theorem aggregateWriteAck_effect (s : State) (q n : Nat) (a : Agg) (rest : List Agg) (hw : (s.queue q).writing = a :: rest)
    (hn : s.pumpOf q = n) (hb : s.spillBusy true (a.recs.flatMap (·.blocks)) = false) :
    ∃ u, exec (.aggregateWriteAck n q) s = .next u ∧ (u.queue q).writing = rest
      ∧ (u.queue q).spill = (s.queue q).spill ++ a.recs := by
  have run : exec (.aggregateWriteAck n q) s = .next (a.recs.foldl (fun acc r => (acc.unchargeBuf r.basin).endRef r.basin)
      (s.updQueue q fun x => { x with writing := rest, spill := x.spill ++ a.recs })) := by
    show execAggregateWriteAck n q s = _
    unfold execAggregateWriteAck
    rw [hw]
    exact if_neg (by simp [hn, hb])
  have released (x : State) (l : List (SpillRec Copy)) :
      (l.foldl (fun acc r => (State.unchargeBuf acc r.basin).endRef r.basin) x).sending = x.sending :=
    State.foldl_keeps State.sending (fun x (r : SpillRec Copy) => (x.unchargeBuf r.basin).endRef r.basin)
      (fun x r => ((x.unchargeBuf r.basin).endRef_sending r.basin).trans (x.unchargeBuf_sending r.basin)) l x
  refine ⟨_, run, ?_⟩
  rw [State.queue_of_sending (released _ _), State.updQueue_queue]
  exact ⟨rfl, rfl⟩

/-! ### The reads that refill a head (R182, R184) -/

theorem refillRead_reads (s : State) (q : Nat) (low : s.cellsOf (s.queue q).head < (s.queue q).refillLow)
    (hr : (s.pump (s.pumpOf q)).resetting = false) (r : SpillRec Copy) (rest : List (SpillRec Copy))
    (hs : (s.queue q).spill = r :: rest) (room : recCells r ≤ s.refillRoom (s.pumpOf q)) :
    ∃ u l, exec (.refillRead q) s = .next u ∧ l = fitRecs (r :: rest) r.blocks.head? (s.refillRoom (s.pumpOf q)) ∧ l ≠ []
      ∧ (u.queue q).refilling = (s.queue q).refilling ++ [l] ∧ (u.queue q).spill = (r :: rest).drop l.length
      ∧ (u.queue q).head = (s.queue q).head := by
  have fits : fitRecs (r :: rest) r.blocks.head? (s.refillRoom (s.pumpOf q)) ≠ [] := by simp [fitRecs, room]
  generalize hl : fitRecs (r :: rest) r.blocks.head? (s.refillRoom (s.pumpOf q)) = l at fits
  have run : exec (.refillRead q) s = .next (((l.flatMap (·.blocks)).dedup.foldl
      (fun acc b => acc.spillReq false b [])
      (s.setQueue q { s.queue q with spill := (r :: rest).drop l.length, refilling := (s.queue q).refilling ++ [l] })).updPump
        (s.pumpOf q) fun x => { x with blocksRead := x.blocksRead + BitVec.ofNat 64 (l.flatMap (·.blocks)).dedup.length }) := by
    show execRefillRead q s = _
    unfold execRefillRead
    dsimp only
    rw [if_neg (by simp [hr, low]), hs]
    dsimp only
    rw [hl]
    exact if_neg (by simpa using fits)
  have reads (x : State) (bs : List Nat) : (bs.foldl (fun acc b => State.spillReq acc false b []) x).queue q = x.queue q :=
    State.foldl_keeps (State.queue · q) _ (fun x b => by
      obtain ⟨h, p, e⟩ := x.spillReq_frame false b []
      rw [e]
      rfl) bs x
  refine ⟨_, l, run, rfl, fits, ?_⟩
  rw [State.updPump_queue, reads, State.setQueue_queue]
  exact ⟨rfl, rfl, rfl⟩

theorem Queue.records_nil {x : Queue} (h : x.records = []) : x.spill = [] := by
  simp only [Queue.records, List.append_eq_nil_iff] at h
  exact h.1.2

/-- The queue with an aggregate's packets back in its head, and its tail behind them. -/
def Queue.takeBack (x : Queue) (a : Agg) : Queue := { x with head := x.head ++ a.copies ++ x.tail, agg := none, tail := [] }

theorem Queue.settle_takeBack (x : Queue) (a : Agg) (h : x.records = []) :
    Queue.settle { x with head := x.head ++ a.copies, agg := none } = x.takeBack a :=
  if_pos ⟨List.isEmpty_iff.2 h, rfl⟩

theorem refillRead_gives_back (s : State) (q : Nat) (low : s.cellsOf (s.queue q).head < (s.queue q).refillLow)
    (hr : (s.pump (s.pumpOf q)).resetting = false) (a : Agg) (he : (s.queue q).records = [])
    (ha : (s.queue q).agg = some a) : ∃ u, exec (.refillRead q) s = .next u
      ∧ (u.queue q).head = (s.queue q).head ++ a.copies ++ (s.queue q).tail ∧ (u.queue q).agg = none
      ∧ (u.queue q).tail = [] := by
  have run : exec (.refillRead q) s = .next (s.setQueue q ((s.queue q).takeBack a)) := by
    show execRefillRead q s = _
    unfold execRefillRead
    extract_lets x pn
    rw [if_neg (by simp [x, pn, hr, low])]
    split
    · next r l spilled => exact absurd (spilled.symm.trans (Queue.records_nil he)) (by simp)
    · split
      · next b hb =>
        obtain rfl : a = b := Option.some.inj (ha.symm.trans hb)
        rw [if_pos (List.isEmpty_iff.2 he), x.settle_takeBack a he]
        rfl
      · next none => exact absurd (ha.symm.trans none) (by simp)
  refine ⟨_, run, ?_⟩
  rw [State.setQueue_queue]
  exact ⟨rfl, rfl, rfl⟩

/-! ### A record read joins the head (R180, R184) -/

theorem State.BasinStep.queue {s u : State} (h : s.BasinStep u) (q : Nat) : u.queue q = s.queue q := by
  obtain ⟨b, e, o, rfl⟩ := h
  rfl

@[simp] theorem Queue.settle_refilling (x : Queue) : x.settle.refilling = x.refilling := by
  obtain ⟨a, b, h⟩ := x.settle_rest
  rw [h]

theorem State.freeBlocks_queue (s : State) (q : Nat) (l : List (SpillRec Copy)) : ∃ a n,
    (s.freeBlocks q l).queue q = { s.queue q with spillLast := a, spillRecs := n } := by
  unfold State.freeBlocks
  extract_lets left old s1
  split
  · exact ⟨_, _, State.updQueue_queue ..⟩
  · exact ⟨_, _, rfl⟩

theorem State.freeBlocks_buf (s : State) (q h : Nat) (l : List (SpillRec Copy)) : (s.freeBlocks q l).buf h = s.buf h := by
  unfold State.freeBlocks
  dsimp only
  split
  · rfl
  · rfl

@[simp] theorem State.setBuf_queue (s : State) (h q : Nat) (b : Buf) : (s.setBuf h b).queue q = s.queue q := rfl

@[simp] theorem State.updQueue_buf (s : State) (q h : Nat) (g : Queue → Queue) : (s.updQueue q g).buf h = s.buf h := rfl

/-- The state with a record as a REFILL buffer of a pump, in these cells, at the end of a queue's head (R184). -/
def State.refilled (v : State) (q n h : Nat) (hs : List Nat) (r : SpillRec Copy) : State :=
  (v.setBuf h {
    cls := 2, id := n, count := 1, held := false, cells := h :: hs, data := r.bytes
    poison := if r.poison then [0] else [], prov := none, ents := [entRefill n] }).updQueue q fun x =>
      { x with head := x.head ++ [{ r.copy with handle := h }] }

section

variable {s v : State} {q h : Nat} {hs : List Nat} {g : Grant} {r : SpillRec Copy} {later : List (List (SpillRec Copy))}

theorem State.refillAll_one {n : Nat} (hp : s.recPoison r = none)
    (hc : s.allocCells (8 + n) [entRefill n] (recCells r) [] = (v, some (h :: hs), g)) :
    s.refillAll q n none [r] = some (v.refilled q n h hs r) := by
  have one : s.refillOne q n r = some (v.refilled q n h hs r) := by
    rw [State.refillOne, hc]
    rfl
  simp [State.refillAll, hp, one]

theorem refillReadDone_joins (hl : (s.queue q).refilling = [r] :: later) (hb : s.spillBusy false r.blocks = false)
    (hh : s.headerPoison r.blocks = false) (hp : s.recPoison r = none)
    (hc : (s.updQueue q fun x => { x with refilling := later }).allocCells (8 + s.pumpOf q) [entRefill (s.pumpOf q)]
      (recCells r) [] = (v, some (h :: hs), g)) : ∃ u l, exec (.refillReadDone q none) s = .next u
      ∧ (u.queue q).refilling = later ∧ (u.queue q).head = (s.queue q).head ++ [{ r.copy with handle := h }] ++ l
      ∧ (u.buf h).map (fun b => (b.cls, b.id, b.data)) = some (2, s.pumpOf q, r.bytes) := by
  have blocks : [r].flatMap (·.blocks) = r.blocks := by simp
  have all := State.refillAll_one (q := q) (n := s.pumpOf q) (s := s.updQueue q fun x => { x with refilling := later }) hp hc
  have run : exec (.refillReadDone q none) s
      = .next (((v.refilled q (s.pumpOf q) h hs r).freeBlocks q [r]).updQueue q Queue.settle) := by
    show execRefillReadDone q none s = _
    unfold execRefillReadDone
    rw [hl]
    dsimp only
    rw [blocks, if_neg (by simp [hb]), hh, if_neg Bool.false_ne_true]
    dsimp only
    rw [all]
    rfl
  obtain ⟨a, n, freed⟩ := (v.refilled q (s.pumpOf q) h hs r).freeBlocks_queue q [r]
  have step := State.allocCells_basinStep (8 + s.pumpOf q) [entRefill (s.pumpOf q)] (recCells r)
    (s.updQueue q fun x => { x with refilling := later }) []
  rw [hc] at step
  have queue : v.queue q = { s.queue q with refilling := later } := (step.queue q).trans (State.updQueue_queue ..)
  have joined : (v.refilled q (s.pumpOf q) h hs r).queue q = { s.queue q with
      refilling := later, head := (s.queue q).head ++ [{ r.copy with handle := h }] } := by
    rw [State.refilled, State.updQueue_queue, State.setBuf_queue, queue]
  obtain ⟨l, head⟩ := Queue.settle_head { (v.refilled q (s.pumpOf q) h hs r).queue q with spillLast := a, spillRecs := n }
  refine ⟨_, l, run, ?_, ?_, ?_⟩
  · rw [State.updQueue_queue, Queue.settle_refilling, freed, joined]
  · rw [State.updQueue_queue, freed, head, joined]
  · rw [State.updQueue_buf, State.freeBlocks_buf, State.refilled, State.updQueue_buf, State.buf_setBuf_self, Option.map_some]

end

/-! ### The cistern's shrink (R178) -/

theorem State.event_cistern (s : State) (code : Nat) (fields : List (Nat × Nat)) :
    (s.event code fields).cistern = s.cistern := by
  obtain ⟨o, d, l, n, h⟩ := s.event_frame code fields
  rw [h]

theorem State.event_basin (s : State) (code : Nat) (fields : List (Nat × Nat)) : (s.event code fields).basin = s.basin := by
  obtain ⟨o, d, l, n, h⟩ := s.event_frame code fields
  rw [h]

/-- The shrink is over: the cistern takes its new size, and CISTERN_RESIZED tells of it. -/
def State.shrunk (s : State) : State :=
  ((s.cisternResize (s.cistern.limit / 262144)).updCistern fun x => { x with shrinking := false, shrink := none }).event 0x0704
    [(1, s.cistern.limit / 262144), (1, s.cistern.shrinkCause)]

theorem State.shrunk_cistern (s : State) : s.shrunk.cistern.shrinking = false ∧ s.shrunk.cistern.shrink = none
    ∧ s.shrunk.cistern.sizeGib = s.cistern.limit / 262144 := by
  rw [State.shrunk, State.event_cistern]
  exact ⟨rfl, rfl, rfl⟩

theorem execCisternShrinkDone_empty {s : State} (hs : s.cistern.shrinking = true)
    (he : ∀ b ∈ s.cistern.usedBlocks, b < s.cistern.limit) : execCisternShrinkDone s = match s.cistern.shrink with
      | some c => done (s.shrunk.answer c .ok)
      | none => done s.shrunk := by
  have below : (s.cistern.usedBlocks.any fun b => decide (s.cistern.limit ≤ b)) = false :=
    List.any_eq_false.2 fun b hb => by simpa using he b hb
  unfold execCisternShrinkDone
  dsimp only
  rw [if_neg (by simp [hs, below])]
  rfl

theorem cisternShrinkDone_effect (s : State) (hs : s.cistern.shrinking = true)
    (he : ∀ b ∈ s.cistern.usedBlocks, b < s.cistern.limit) :
    (∀ c, s.cistern.shrink = some c → Claims.answersOk s .cisternShrinkDone c fun u => u.cistern.shrinking = false
      ∧ u.cistern.shrink = none ∧ u.cistern.sizeGib = s.cistern.limit / 262144)
    ∧ (s.cistern.shrink = none → ∃ u, exec .cisternShrinkDone s = .next u ∧ u.cistern.shrinking = false
      ∧ u.cistern.sizeGib = s.cistern.limit / 262144) := by
  have run := execCisternShrinkDone_empty hs he
  obtain ⟨shrinking, shrink, size⟩ := s.shrunk_cistern
  constructor
  · intro c hc
    rw [hc] at run
    exact ⟨s.shrunk, run, shrinking, shrink, size⟩
  · intro hc
    rw [hc] at run
    exact ⟨s.shrunk, run, shrinking, size⟩

/-! ### Sized pools and the basin's rebuild (R175, R176, R189) -/

theorem State.poolTake_free {s : State} {cls len p : Nat} (hp : poolFor len = some p)
    (hf : poolFree (SMap.get [] s.basin.pools p) < poolSize p) : s.poolTake cls len
      = (s.updBasin fun b => { b with pools := SMap.set [] b.pools p (SMap.ins (SMap.get [] s.basin.pools p)
          (poolFree (SMap.get [] s.basin.pools p)) { cls := cls }) }, true) := by
  unfold State.poolTake
  rw [hp]
  exact if_neg (Nat.not_le.2 hf)

theorem sizedPoolAlloc_effect (s : State) (cls len p : Nat) (h7 : 7 ≤ cls) (h9 : cls ≤ 9) (hp : poolFor len = some p)
    (hf : poolFree (SMap.get [] s.basin.pools p) < poolSize p) : ∃ u, exec (.sizedPoolAlloc cls len) s = .next u
      ∧ SMap.get [] u.basin.pools p
        = SMap.ins (SMap.get [] s.basin.pools p) (poolFree (SMap.get [] s.basin.pools p)) { cls := cls } := by
  have class_ok : ¬ (cls < 7 ∨ 9 < cls) := by omega
  show ∃ u, execSizedPoolAlloc cls len s = .next u ∧ _
  unfold execSizedPoolAlloc
  rw [if_neg class_ok, State.poolTake_free hp hf]
  dsimp only
  split
  · exact ⟨_, rfl, SMap.get_set_self ..⟩
  · exact ⟨_, rfl, SMap.get_set_self ..⟩

theorem rebuildRetry_effect (s : State) (hr : s.phRuns = true) (hb : s.basin.rebuild = true)
    (hw : s.basin.rebuildWait = true) (ht : s.basin.rebuildStart + 1000000 ≤ s.dt) : ∃ u, exec .rebuildRetry s = .next u
      ∧ u.basin.rebuildStart = s.dt
      ∧ (poolFree (SMap.get [] s.basin.pools 2) < poolSize 2 → u.basin.rebuildWait = false) := by
  refine ⟨_, if_neg (by simp [hr, hb, hw]; omega), rfl, fun hf => ?_⟩
  rw [State.poolTake_free (p := 2) rfl hf]
  rfl

theorem basinRebuildDone_effect (s : State) (hr : s.phRuns = true) (hb : s.basin.rebuild = true)
    (hw : s.basin.rebuildWait = false) : ∃ u, exec .basinRebuildDone s = .next u ∧ u.basin.rebuild = false
      ∧ u.basin.orphans = [] ∧ u.basin.fenced = [] := by
  refine ⟨_, if_neg (by simp [hr, hb, hw]), ?_⟩
  rw [State.event_basin]
  exact ⟨rfl, rfl, rfl⟩

/-- Settles O39: each clause is a lemma about its command. -/
theorem spillAndRefill : Obligations.SpillAndRefill := by
  unfold Obligations.SpillAndRefill
  exact ⟨fun s q c rest ht en on ha hr => ⟨spillChoose_defers ht en on ha hr, spillChoose_moves ht en on ha hr⟩,
    fun s q n c o w f b ha hn ho hr intact hw hf hb => aggregateTimer_writes intact hw hf hb ha hn ho hr,
    aggregateWriteAck_effect,
    fun s q low hr => ⟨refillRead_reads s q low hr, refillRead_gives_back s q low hr⟩,
    fun s q r later h hs v g hl hb hh hp hc => refillReadDone_joins hl hb hh hp hc,
    cisternShrinkDone_effect, sizedPoolAlloc_effect,
    fun s hr hb => ⟨rebuildRetry_effect s hr hb, basinRebuildDone_effect s hr hb⟩⟩

end Sys2Proof.Machine
end

section
/-!
PROOFS. O38: copies arrive, wait in the wheel and join their queues; shapers, pauses, holds and pump resets (R187, R410,
R412-R414, R416, R417, R424, R427).
-/

namespace Sys2Proof.Machine

/-! ### Arrival and release of copies (R93, R412-R414) -/

theorem State.WakeStep.egress {s u : State} (h : s.WakeStep u) : u.egress = s.egress := by
  obtain ⟨c, k, p, m, rfl⟩ := h
  rfl

theorem State.classActive_egress (s : State) (c : Nat) : (s.classActive c).egress = s.egress := by
  unfold State.classActive
  split
  · rfl
  · exact (State.applyT_wakeStep _).egress

@[simp] theorem State.classActive_queue (s : State) (c q : Nat) : (s.classActive c).queue q = s.queue q := by
  rw [State.queue, State.classActive_egress, State.queue]

@[simp] theorem State.classActive_pump (s : State) (c n : Nat) : (s.classActive c).pump n = s.pump n := by
  rw [State.pump, State.classActive_egress, State.pump]

/-- The cascade port a copy is bound to is the one field that changes (R93). -/
theorem State.bindCascade_eq (s : State) (c : Copy) : ∃ k, s.bindCascade c = { c with cascade := k } := by
  unfold State.bindCascade
  dsimp only
  split
  · exact ⟨c.cascade, rfl⟩
  · exact ⟨_, rfl⟩

theorem State.bindCascade_twice (s : State) (c : Copy) : s.bindCascade (s.bindCascade c) = s.bindCascade c := by
  by_cases h : s.queuePort c.queue < 128 ∨ s.queuePort c.queue = 0xFFFF ∨ c.cascade.isSome
  · have same : s.bindCascade c = c := if_pos h
    rw [same, same]
  · have bound : s.bindCascade c = { c with cascade := s.physOf (s.queuePort c.queue) } := if_neg h
    rw [bound]
    unfold State.bindCascade
    dsimp only
    split
    · rfl
    · rfl

theorem State.enqueue_bound (s : State) (c : Copy) : s.enqueue (s.bindCascade c) = s.enqueue c := by
  unfold State.enqueue
  rw [State.bindCascade_twice]

theorem State.append'_head {s : State} {c : Copy} (hr : (s.queue c.queue).records = []) (ht : (s.queue c.queue).tail = [])
    (ha : (s.queue c.queue).agg = none) :
    ((s.append' c).queue c.queue).head = (s.queue c.queue).head ++ [c] := by
  unfold State.append'
  dsimp only
  rw [State.updQueue_queue, State.classActive_queue, if_pos ⟨List.isEmpty_iff.2 hr, by rw [ha]; rfl, List.isEmpty_iff.2 ht⟩]

@[simp] theorem State.append'_pump (s : State) (c : Copy) (n : Nat) : (s.append' c).pump n = s.pump n :=
  s.classActive_pump _ n

/-- A copy that passes every check of R414 holds its edit list and joins its queue. -/
theorem State.enqueue_joins {s : State} {c : Copy} {ops : List EOp} {b : Buf} (h : Claims.enqueues s c ops b) :
    s.enqueue c = (s.updPump (s.copyPump (s.bindCascade c)) fun x => x.hold c.pkt c.emit (c.edit.length / 16)).append'
      (Claims.queued s c ops b) := by
  obtain ⟨mapped, phys, flush, list, buf, member, room, limit, wred, -, -, -, ct⟩ := h
  obtain ⟨k, bound⟩ := s.bindCascade_eq c
  have twice := s.bindCascade_twice c
  unfold Claims.queued
  unfold State.enqueue
  rw [bound] at phys flush room twice ⊢
  have list' : s.copyOps { c with cascade := k } = some ops := list
  have below : ¬ ((s.queue c.queue).qmax ≠ 0 ∧ (s.queue c.queue).qmax ≤ s.queueLen (s.queue c.queue)) := by omega
  dsimp only
  rw [if_neg mapped, if_neg (Option.isSome_iff_ne_none.1 phys), if_neg (by simp [flush]), list', buf]
  dsimp only
  rw [if_neg (by simp [member]), room, if_neg (by simp), if_neg below, if_pos (.inl wred)]
  simp [Copy.member', member, ct]

theorem State.enqueue_head {s : State} {c : Copy} {ops : List EOp} {b : Buf} (h : Claims.enqueues s c ops b) :
    ((s.enqueue c).queue c.queue).head = (s.queue c.queue).head ++ [Claims.queued s c ops b] := by
  have joins := State.enqueue_joins h
  obtain ⟨-, -, -, -, -, -, -, -, -, hr, ht, ha, -⟩ := h
  obtain ⟨k, bound⟩ := s.bindCascade_eq c
  have queue : (Claims.queued s c ops b).queue = c.queue := by rw [Claims.queued, bound]
  have head := State.append'_head
    (s := s.updPump (s.copyPump (s.bindCascade c)) fun x => x.hold c.pkt c.emit (c.edit.length / 16))
    (c := Claims.queued s c ops b)
  rw [queue] at head
  rw [joins, head hr ht ha, State.updPump_queue]

theorem Pump.hold_lists (x : Pump) (pkt emit slots : Nat) : (x.hold pkt emit slots).arrivals = x.arrivals
    ∧ (x.hold pkt emit slots).wheel = x.wheel := by
  unfold Pump.hold
  split
  · exact ⟨rfl, rfl⟩
  · split
    · exact ⟨rfl, rfl⟩
    · exact ⟨rfl, rfl⟩

theorem State.enqueue_lists {s : State} {c : Copy} {ops : List EOp} {b : Buf} (h : Claims.enqueues s c ops b) (n : Nat) :
    ((s.enqueue c).pump n).arrivals = (s.pump n).arrivals ∧ ((s.enqueue c).pump n).wheel = (s.pump n).wheel := by
  rw [State.enqueue_joins h, State.append'_pump]
  by_cases hn : n = s.copyPump (s.bindCascade c)
  · subst hn
    rw [State.updPump_pump]
    exact Pump.hold_lists ..
  · rw [State.updPump_pump_ne _ _ hn]
    exact ⟨rfl, rfl⟩

theorem Pump.hasRoom_of_edits {x y : Pump} (h : x.edits = y.edits) : x.hasRoom = y.hasRoom := by
  unfold Pump.hasRoom Pump.editUsed
  rw [h]

/-- The checks of an enqueue do not see the other lists of a pump. -/
theorem State.enqueues_updPump {s : State} {c : Copy} {ops : List EOp} {b : Buf} (n : Nat) {g : Pump → Pump}
    (hg : ∀ x, (g x).edits = x.edits) (h : Claims.enqueues s c ops b) : Claims.enqueues (s.updPump n g) c ops b := by
  obtain ⟨mapped, phys, flush, list, buf, member, room, rest⟩ := h
  refine ⟨mapped, phys, flush, list, buf, member, ?_, rest⟩
  show (((s.updPump n g).pump (s.copyPump (s.bindCascade c))).hasRoom c.pkt c.emit (c.edit.length / 16)) = true
  rw [← room]
  by_cases hn : s.copyPump (s.bindCascade c) = n
  · subst hn
    rw [State.updPump_pump, Pump.hasRoom_of_edits (hg _)]
  · rw [State.updPump_pump_ne _ _ hn]

theorem copyArrival_run {s : State} {n : Nat} {c : Copy} {rest : List Copy} (hr : (s.pump n).resetting = false)
    (ha : (s.pump n).arrivals = c :: rest) : exec (.copyArrival n) s
      = .next ((s.updPump n fun x => { x with arrivals := rest }).arrive n c) := by
  show execCopyArrival n s = _
  unfold execCopyArrival
  rw [ha]
  exact if_neg (by simp [hr])

theorem copyArrival_joins {s : State} {n : Nat} {c : Copy} {rest : List Copy} {ops : List EOp} {b : Buf}
    (hr : (s.pump n).resetting = false) (he : Claims.enqueues s c ops b) (ha : (s.pump n).arrivals = c :: rest)
    (now : ∀ r, c.release = some r → r ≤ s.dt) : ∃ u, exec (.copyArrival n) s = .next u ∧ (u.pump n).arrivals = rest
      ∧ (u.queue c.queue).head = (s.queue c.queue).head ++ [Claims.queued s c ops b] := by
  have passes := State.enqueues_updPump n (g := fun x => { x with arrivals := rest }) (fun _ => rfl) he
  obtain ⟨k, bound⟩ := (s.updPump n fun x => { x with arrivals := rest }).bindCascade_eq c
  have slot : ((s.updPump n fun x => { x with arrivals := rest }).bindCascade c).release.bind
      (s.updPump n fun x => { x with arrivals := rest }).wheelSlot = none := by
    rw [bound]
    cases h : c.release with
    | none => rfl
    | some r => exact if_pos (now r h)
  have arrives : (s.updPump n fun x => { x with arrivals := rest }).arrive n c
      = (s.updPump n fun x => { x with arrivals := rest }).enqueue c := by
    unfold State.arrive
    dsimp only
    rw [slot]
    exact State.enqueue_bound ..
  refine ⟨_, (copyArrival_run hr ha).trans (congrArg _ arrives), ?_, State.enqueue_head passes⟩
  rw [(State.enqueue_lists passes n).1, State.updPump_pump]

theorem wheelSlot_joins {s : State} {n : Nat} {c : Copy} {ops : List EOp} {b : Buf} (hr : (s.pump n).resetting = false)
    (he : Claims.enqueues s c ops b) (k : Nat) (hw : (s.pump n).wheel = [(k, c)]) (hk : k * 1000 ≤ s.dt) :
    ∃ u, exec (.wheelSlot n) s = .next u ∧ (u.pump n).wheel = []
      ∧ (u.queue c.queue).head = (s.queue c.queue).head ++ [Claims.queued s c ops b] := by
  have passes := State.enqueues_updPump n (g := fun x => { x with wheel := x.wheel.filter fun e => s.dt < e.1 * 1000 })
    (fun _ => rfl) he
  have run : exec (.wheelSlot n) s = .next ((s.updPump n fun x => { x with
      wheel := x.wheel.filter fun e => s.dt < e.1 * 1000 }).enqueue c) := by
    show execWheelSlot n s = _
    have due : (s.pump n).wheel.filter (fun e => decide (e.1 * 1000 ≤ s.dt)) = [(k, c)] := by
      rw [hw]
      simp [hk]
    unfold execWheelSlot
    dsimp only
    rw [due, if_neg (by simp [hr])]
    rfl
  refine ⟨_, run, ?_, State.enqueue_head passes⟩
  rw [(State.enqueue_lists passes n).2, State.updPump_pump, hw]
  simp [hk]

section

variable {s : State} {n r : Nat} {c : Copy} {rest : List Copy} (hr : (s.pump n).resetting = false)
  (ha : (s.pump n).arrivals = c :: rest) (hc : c.release = some r) (room : (s.pump n).wheel.length < 16384)
include hr ha hc room

/-- A copy released later waits in the wheel. -/
theorem copyArrival_waits {k : Nat} {clamped : Bool} (hs : s.wheelSlot r = some (k, clamped)) :
    exec (.copyArrival n) s = .next (((s.updPump n fun x => { x with arrivals := rest }).classActive (c.queue % 8)).updPump n
      fun x => { x with wheel := x.wheel ++ [(k, s.bindCascade c)], clamp := if clamped then x.clamp + 1 else x.clamp }) := by
  obtain ⟨p, bound⟩ := s.bindCascade_eq c
  have bound' : (s.updPump n fun x => { x with arrivals := rest }).bindCascade c = s.bindCascade c := rfl
  have slot : (s.bindCascade c).release.bind (s.updPump n fun x => { x with arrivals := rest }).wheelSlot
      = some (k, clamped) := by
    rw [bound, hc]
    exact hs
  have wheel : ¬ 16384 ≤ ((s.updPump n fun x => { x with arrivals := rest }).pump n).wheel.length := by
    rw [State.updPump_pump]
    exact Nat.not_le.2 room
  rw [copyArrival_run hr ha]
  unfold State.arrive
  dsimp only
  rw [bound', slot]
  dsimp only
  rw [if_neg wheel, bound]

theorem copyArrival_slot (late : s.dt < r) (h : r ≤ s.dt + 16383000) : ∃ u, exec (.copyArrival n) s = .next u
    ∧ (u.pump n).arrivals = rest ∧ (u.pump n).wheel = (s.pump n).wheel ++ [((r + 999) / 1000, s.bindCascade c)]
    ∧ u.queue c.queue = s.queue c.queue := by
  have slot : s.wheelSlot r = some ((r + 999) / 1000, false) := (if_neg (by omega)).trans (if_neg (by omega))
  refine ⟨_, copyArrival_waits hr ha hc room slot, ?_, ?_, ?_⟩
  · simp
  · simp
  · simp

theorem copyArrival_clamped (h : s.dt + 16383000 < r) : ∃ u, exec (.copyArrival n) s = .next u
    ∧ (u.pump n).clamp = (s.pump n).clamp + 1 ∧ u.queue c.queue = s.queue c.queue := by
  have slot : ∃ k, s.wheelSlot r = some (k, true) := ⟨_, (if_neg (by omega)).trans (if_pos h)⟩
  obtain ⟨k, slot⟩ := slot
  refine ⟨_, copyArrival_waits hr ha hc room slot, ?_, ?_⟩
  · simp
  · simp

end

/-! ### Shapers, pauses, holds (R410, R416, R417, R424, R427) -/

theorem Shaper.refill_twice (x : Shaper) (now : Nat) : (x.refill now).refill now = x.refill now := by
  simp [Shaper.refill]

/-- The queue with its shaper brought up to date (R410). -/
def Queue.topUp (now : Nat) (x : Queue) : Queue :=
  if x.shaper.rate = 0 then x else { x with shaper := x.shaper.refill now }

theorem Queue.topUp_twice (now : Nat) (x : Queue) : (x.topUp now).topUp now = x.topUp now := by
  by_cases h : x.shaper.rate = 0
  · simp [Queue.topUp, h]
  · have rate : (x.shaper.refill now).rate ≠ 0 := h
    simp [Queue.topUp, h, rate, Shaper.refill_twice]

/-- The state with the shapers of a group, of its port and of its queues brought up to date. -/
def State.topUp (s : State) (g : Nat) : State :=
  (groupQueues g).foldl (fun b q => b.updQueue q (Queue.topUp s.dt))
    ((s.updEport (s.group g).port fun x => if x.shaper.rate = 0 then x else { x with shaper := x.shaper.refill s.dt }).updGroup
      g fun x => if x.shaper.rate = 0 then x else { x with shaper := x.shaper.refill s.dt })

theorem State.topUp_queue (s : State) (g q : Nat) (hq : q ∈ groupQueues g) :
    (s.topUp g).queue q = (s.queue q).topUp s.dt :=
  (foldl_read (read := State.queue) (fun x k => x.updQueue_queue k _) (fun x _ _ h => x.updQueue_queue_ne _ h)
    (Queue.topUp_twice s.dt) (groupQueues g) _ q).trans (if_pos hq)

theorem shaperTokensReturn_effect (s : State) (p g : Nat) (hg : s.portGroups p = [g]) :
    ∃ u, exec (.shaperTokensReturn p) s = .next u ∧ ∀ k, k < 8 →
      let x := (s.queue (8 * g + k)).shaper
      let y := (u.queue (8 * g + k)).shaper
      (x.rate = 0 → y = x) ∧ (x.rate ≠ 0 → y.rate = x.rate ∧ y.burst = x.burst ∧ y.last = s.dt
        ∧ y.tokens = min (x.tokens + ((x.rate * (s.dt - x.last) / 15625 : Nat) : Int)) ((x.burst * 512 : Nat) : Int)) := by
  have run : exec (.shaperTokensReturn p) s = .next (s.topUp g) := by
    show execShaperTokensReturn p s = _
    unfold execShaperTokensReturn
    simp only [hg, List.foldl_cons, List.foldl_nil]
    unfold State.topUp Queue.topUp
    rfl
  refine ⟨_, run, fun k hk => ?_⟩
  intro x y
  have topped : y = ((s.queue (8 * g + k)).topUp s.dt).shaper :=
    congrArg Queue.shaper (s.topUp_queue g _ (List.mem_map.2 ⟨k, List.mem_range.2 hk, rfl⟩))
  rw [topped, Queue.topUp]
  constructor
  · intro h0
    rw [if_pos h0]
  · intro h0
    rw [if_neg h0]
    exact ⟨rfl, rfl, rfl, rfl⟩

theorem pauseExpiry_effect (s : State) (p k : Nat) (h0 : SMap.get 0 (s.eport p).pauseEnd k ≠ 0)
    (hd : SMap.get 0 (s.eport p).pauseEnd k ≤ s.dt) : ∃ u, exec (.pauseExpiry p k) s = .next u
      ∧ SMap.get 0 (u.eport p).pauseEnd k = 0 := by
  refine ⟨_, if_pos ⟨h0, hd⟩, ?_⟩
  rw [State.updEport_eport, SMap.get_set_self]

theorem pfcResend_effect (s : State) (p k : Nat) :
    let cls := if k = 8 then 8 else (s.port p).cfg.classMap.toNat / 8 ^ k % 8
    SMap.get 0 (s.eport p).xoff cls ≠ 0 → SMap.get 0 (s.eport p).xoff cls + 0x8000 * 512 / s.portRate p ≤ s.dt + 1 →
    ∃ u m, exec (.pfcResend p k) s = .next u ∧ u.out.fcTx = s.out.fcTx ++ [(p, m, 0xFFFF)] ∧ (k = 8 → m = 0x100)
      ∧ SMap.get 0 (u.eport p).xoff cls = s.dt + 1 := by
  intro cls h0 hd
  refine ⟨_, _, if_neg (by simp only [not_or, not_lt]; exact ⟨h0, hd⟩), rfl, fun h8 => ?_, ?_⟩
  · rw [if_pos h8]
    rfl
  · rw [State.updEport_eport, SMap.get_set_self]

theorem State.flushStart_phase (s : State) (p : Nat) : ((s.flushStart p).eport p).phase = .flush := by
  have ports := congrArg (fun x : Sending => (x.eport p).phase)
    ((s.updEport p fun x => { x with phase := .flush, flushed := 0 }).event_sending 0x0705 [(1, 0), (2, p), (4, 0)])
  refine ports.trans ?_
  show ((s.updEport p _).eport p).phase = _
  rw [State.updEport_eport]

theorem holdTimeExpiry_effect (s : State) (p : Nat) (hp : (s.eport p).phase = .hold) (h0 : (s.eport p).downPolicy = 0)
    (hd : (s.eport p).downDt + 1000000 * (s.eport p).holdTime ≤ s.dt) : ∃ u, exec (.holdTimeExpiry p) s = .next u
      ∧ (u.eport p).phase = .flush :=
  ⟨_, if_pos ⟨hp, h0, hd⟩, s.flushStart_phase p⟩

theorem pumpResetDone_effect (s : State) (n : Nat) (h : (s.pump n).resetting = true) :
    ∃ u, exec (.pumpResetDone n) s = .next u ∧ (u.pump n).resetting = false
      ∧ (u.pump n).arrivals = (s.pump n).arrivals := by
  refine ⟨_, if_pos h, ?_⟩
  rw [State.updPump_pump]
  exact ⟨rfl, rfl⟩

end Sys2Proof.Machine
end

section
/-!
PROOFS. O38: the selected copy starts, or ends where its buffer shows an error (R156, R187, R408, R409).
-/

namespace Sys2Proof.Machine

/-! ### What selection leaves alone (R409) -/

/-- The queues, groups and ports but for their deficits and the last ones served, and the rest of the device. -/
def State.unscheduled (s : State) : (Nat → Queue) × (Nat → QGroup) × (Nat → EPort) × State :=
  (fun q => { s.queue q with deficit := 0 }, fun g => { s.group g with deficit := 0, lastClass := 0 },
    fun p => { s.eport p with lastGroup := 0 }, { s with egress := { s.egress with queues := [], groups := [], eports := [] } })

theorem State.updQueue_unscheduled (s : State) (q : Nat) {g : Queue → Queue}
    (hg : ∀ x, { g x with deficit := 0 } = { x with deficit := 0 }) : (s.updQueue q g).unscheduled = s.unscheduled := by
  refine congrArg (fun f => (f, s.unscheduled.2)) (funext fun j => ?_)
  by_cases h : j = q
  · rw [h, State.updQueue_queue, hg]
  · rw [State.updQueue_queue_ne _ _ h]

theorem State.updGroup_unscheduled (s : State) (k : Nat) {g : QGroup → QGroup}
    (hg : ∀ x, { g x with deficit := 0, lastClass := 0 } = { x with deficit := 0, lastClass := 0 }) :
    (s.updGroup k g).unscheduled = s.unscheduled := by
  refine congrArg (fun f => (s.unscheduled.1, f, s.unscheduled.2.2)) (funext fun j => ?_)
  by_cases h : j = k
  · rw [h, State.updGroup_group, hg]
  · rw [State.updGroup_group_ne _ _ h]

theorem State.updEport_unscheduled (s : State) (p : Nat) {g : EPort → EPort}
    (hg : ∀ x, { g x with lastGroup := 0 } = { x with lastGroup := 0 }) : (s.updEport p g).unscheduled = s.unscheduled := by
  refine congrArg (fun f => (s.unscheduled.1, s.unscheduled.2.1, f, s.unscheduled.2.2.2)) (funext fun j => ?_)
  by_cases h : j = p
  · rw [h, State.updEport_eport, hg]
  · rw [State.updEport_eport_ne _ _ h]

theorem State.clearDeficits_unscheduled (s : State) (p : Nat) : (s.clearDeficits p).unscheduled = s.unscheduled := by
  refine State.foldl_keeps State.unscheduled _ (fun x g => ?_) _ s
  refine (State.foldl_keeps State.unscheduled _ (fun y q => ?_) _ _).trans ?_
  · split
    · rfl
    · exact y.updQueue_unscheduled q fun _ => rfl
  · split
    · rfl
    · exact x.updGroup_unscheduled g fun _ => rfl

theorem State.selectLoop_unscheduled (s : State) (p : Nat) (order : List Nat) (fuel : Nat) :
    (s.selectLoop p order fuel).1.unscheduled = s.unscheduled := by
  induction fuel generalizing s order with
  | zero => rfl
  | succ n ih =>
    cases order with
    | nil => rfl
    | cons g rest =>
      unfold State.selectLoop
      extract_lets s1
      have credited : s1.unscheduled = s.unscheduled := s.updGroup_unscheduled g fun _ => rfl
      split
      · exact (ih s1 _).trans credited
      · next c strict =>
        extract_lets q w s2 s3 s4
        have served : s2.unscheduled = s1.unscheduled := by
          simp only [s2]
          split
          · rfl
          · exact (State.updGroup_unscheduled _ _ (by exact fun _ => rfl)).trans
              (State.updQueue_unscheduled _ _ (by exact fun _ => rfl))
        have paid : s4.unscheduled = s2.unscheduled := by
          simp only [s4, s3]
          split
          · exact s2.updGroup_unscheduled g fun _ => rfl
          · exact (State.updQueue_unscheduled _ _ (by exact fun _ => rfl)).trans
              (State.updGroup_unscheduled _ _ (by exact fun _ => rfl))
        split
        · exact (State.updEport_unscheduled _ _ (by exact fun _ => rfl)).trans (paid.trans (served.trans credited))
        · rw [ih s2, served, credited]

theorem State.select_unscheduled (s : State) (p : Nat) : (s.select p).1.unscheduled = s.unscheduled :=
  (State.selectLoop_unscheduled _ p _ _).trans (s.clearDeficits_unscheduled p)

/-! ### The end of a copy that is not sent (R187, R417) -/

theorem State.killCopy_queue (s : State) (c : Copy) (code sub : Nat) : (s.killCopy c code sub).queue c.queue
    = { s.queue c.queue with drops := (s.queue c.queue).drops + 1 } := by
  rw [State.queue_of_sending (s.killCopy_sending c code sub), State.updPump_queue, State.updQueue_queue]

theorem State.killCopy_now (s : State) (c : Copy) (code sub p : Nat) :
    ((s.killCopy c code sub).eport p).now = (s.eport p).now :=
  State.now_of_sending (s.killCopy_sending c code sub) p

theorem State.killCopy_flushed (s : State) (c : Copy) (code sub p : Nat) :
    ((s.killCopy c code sub).eport p).flushed = (s.eport p).flushed :=
  State.flushed_of_sending (s.killCopy_sending c code sub) p

@[simp] theorem State.updEport_queue (s : State) (p q : Nat) (g : EPort → EPort) : (s.updEport p g).queue q = s.queue q := rfl

/-! ### The selected copy (R156, R408) -/

section

variable {s u : State} (h : u.unscheduled = s.unscheduled)
include h

theorem State.head_of_unscheduled (q : Nat) : (u.queue q).head = (s.queue q).head :=
  congrArg (fun x => (x.1 q).head) h

theorem State.drops_of_unscheduled (q : Nat) : (u.queue q).drops = (s.queue q).drops :=
  congrArg (fun x => (x.1 q).drops) h

theorem State.queuePort_of_unscheduled (q : Nat) : u.queuePort q = s.queuePort q :=
  congrArg (fun x => (x.2.1 (q / 8)).port) h

theorem State.now_of_unscheduled (p : Nat) : (u.eport p).now = (s.eport p).now :=
  congrArg (fun x => (x.2.2.1 p).now) h

theorem State.buf_of_unscheduled (k : Nat) : u.buf k = s.buf k := congrArg (fun x => x.2.2.2.buf k) h

theorem State.time_of_unscheduled : u.time = s.time := congrArg (fun x => x.2.2.2.time) h

theorem State.net_of_unscheduled : u.net = s.net := congrArg (fun x => x.2.2.2.net) h

end

theorem State.rewrite_congr {s u : State} (hq : ∀ q, u.queuePort q = s.queuePort q) (hn : u.net = s.net) (p : Nat) (c : Copy)
    (frame : List Byte) (cluster : Bool) (dt q : Nat) : u.rewrite p c frame cluster dt q = s.rewrite p c frame cluster dt q := by
  have tag : u.copyTag p c.queue = s.copyTag p c.queue := by
    unfold State.copyTag State.ecidOf
    rw [hq, hn]
  unfold State.rewrite
  rw [tag]

theorem Queue.settle_drops (x : Queue) : x.settle.drops = x.drops := by
  obtain ⟨a, b, h⟩ := x.settle_rest
  rw [h]

theorem State.popHead_head (s : State) (q : Nat) :
    ∃ l, ((s.popHead q).queue q).head = (s.queue q).head.drop 1 ++ l := by
  rw [State.popHead, State.updQueue_queue]
  exact Queue.settle_head _

theorem State.popHead_drops (s : State) (q : Nat) : ((s.popHead q).queue q).drops = (s.queue q).drops := by
  rw [State.popHead, State.updQueue_queue]
  exact Queue.settle_drops _

/-- The state after the selected copy has left its queue. -/
def State.picked (s : State) (p q : Nat) : State := ((s.select p).1.popHead q).clearDeficits p

/-- What the selection of a copy leaves alone: all but the queue it comes from and the deficits. -/
structure State.PickedFrom (s u : State) (q : Nat) (rest : List Copy) : Prop where
  head : ∃ l, (u.queue q).head = rest ++ l
  drops : (u.queue q).drops = (s.queue q).drops
  now : ∀ p, (u.eport p).now = (s.eport p).now
  buf : ∀ k, u.buf k = s.buf k
  port : ∀ k, u.queuePort k = s.queuePort k
  time : u.time = s.time
  net : u.net = s.net

theorem State.PickedFrom.of_unscheduled {s x y : State} {q : Nat} {c : Copy} {rest : List Copy}
    (hh : (s.queue q).head = c :: rest) (selected : x.unscheduled = s.unscheduled)
    (cleared : y.unscheduled = (x.popHead q).unscheduled) : s.PickedFrom y q rest where
  head := by
    obtain ⟨l, popped⟩ := x.popHead_head q
    rw [State.head_of_unscheduled selected, hh] at popped
    exact ⟨l, (State.head_of_unscheduled cleared q).trans popped⟩
  drops := by rw [State.drops_of_unscheduled cleared, State.popHead_drops, State.drops_of_unscheduled selected]
  now k := (State.now_of_unscheduled cleared k).trans (State.now_of_unscheduled selected k)
  buf k := (State.buf_of_unscheduled cleared k).trans (State.buf_of_unscheduled selected k)
  port k := (State.queuePort_of_unscheduled cleared k).trans (State.queuePort_of_unscheduled selected k)
  time := (State.time_of_unscheduled cleared).trans (State.time_of_unscheduled (u := x) selected)
  net := (State.net_of_unscheduled cleared).trans (State.net_of_unscheduled (u := x) selected)

theorem State.picked_from {s : State} {q : Nat} {c : Copy} {rest : List Copy} (p : Nat) (hh : (s.queue q).head = c :: rest) :
    s.PickedFrom (s.picked p q) q rest :=
  .of_unscheduled hh (s.select_unscheduled p) (State.clearDeficits_unscheduled _ p)

/-- What the read of a selected copy's buffer leads to. -/
def State.readPicked (s : State) (p : Nat) (c : Copy) (err : Option BufErr) : State :=
  match (s.readError c err).2 with
  | some sub => (s.readError c err).1.killCopy c 6 sub
  | none => (s.readError c err).1.startCopy p c

/-- A copy whose buffer reads well starts (R408). -/
theorem State.readPicked_starts {s : State} {p : Nat} {c : Copy} {b : Buf} {f : List Byte} (hb : s.buf c.handle = some b)
    (ok : b.broken = none) (hf : s.rewrite p c b.frame (b.cls = 3) s.dt s.qns = .frame f) : s.readPicked p c none
      = s.updEport p fun x => { x with now := some ⟨c, f, poisonPlace b f.length, s.dt, s.qns⟩ } := by
  have reads : s.readError c none = (s, none) := by
    unfold State.readError
    rw [hb]
    exact congrArg (Prod.mk _) ok
  unfold State.readPicked State.startCopy
  rw [reads]
  dsimp only
  rw [hb]
  dsimp only
  rw [hf]

theorem State.dataError_sending (s : State) (c : Copy) (k : Nat) :
    (s.readError c (some (.data k))).1.sending = s.sending := by
  have fault (x : State) (cell : Nat) : (x.cellFault cell).sending = x.sending := by
    unfold State.cellFault
    split
    · split
      · rfl
      · rfl
    · rfl
  unfold State.readError State.bufferError
  exact (fault _ _).trans (State.event_sending _ _ _)

/-- A copy whose buffer shows a data error ends (R187). -/
theorem State.readPicked_ends (s : State) (p : Nat) (c : Copy) (k : Nat) :
    (s.readPicked p c (some (.data k))).queue c.queue = { s.queue c.queue with drops := (s.queue c.queue).drops + 1 }
      ∧ ((s.readPicked p c (some (.data k))).eport p).now = (s.eport p).now := by
  have sending := s.dataError_sending c k
  have killed := State.killCopy_queue (s.readError c (some (.data k))).1 c 6 1
  rw [State.queue_of_sending sending] at killed
  exact ⟨killed, (State.killCopy_now _ c 6 1 p).trans (State.now_of_sending sending p)⟩

section

variable {s : State} {p q : Nat} {c : Copy} {rest : List Copy} (hm : s.macTakes p = true) (hs : (s.select p).2 = some q)
  (hh : (s.queue q).head = c :: rest)
include hm hs hh

theorem pumpSelect_reads (err : Option BufErr) : exec (.pumpSelect p err) s = .next ((s.picked p q).readPicked p c err) := by
  have head : ((s.select p).1.queue q).head = c :: rest :=
    (State.head_of_unscheduled (s.select_unscheduled p) q).trans hh
  show execPumpSelect p err s = _
  unfold execPumpSelect
  dsimp only
  rw [hm, hs]
  dsimp only
  rw [head, if_neg (by decide), State.readPicked, State.picked]
  dsimp only
  cases (((s.select p).1.popHead q).clearDeficits p |>.readError c err).2 with
  | none => rfl
  | some sub => rfl

theorem pumpSelect_starts {b : Buf} {f : List Byte} (hb : s.buf c.handle = some b) (ok : b.broken = none)
    (hf : s.rewrite p c b.frame (b.cls = 3) s.dt s.qns = .frame f) : ∃ u l, exec (.pumpSelect p none) s = .next u
      ∧ (u.queue q).head = rest ++ l ∧ (u.eport p).now = some ⟨c, f, poisonPlace b f.length, s.dt, s.qns⟩ := by
  obtain ⟨⟨l, head⟩, -, -, buf, port, time, net⟩ := State.picked_from p hh
  have dt : (s.picked p q).dt = s.dt := by rw [State.dt, time, State.dt]
  have qns : (s.picked p q).qns = s.qns := by rw [State.qns, time, State.qns]
  have run := pumpSelect_reads hm hs hh none
  rw [State.readPicked_starts ((buf _).trans hb) ok (by rw [State.rewrite_congr port net, dt, qns, hf]), dt, qns] at run
  refine ⟨_, l, run, ?_, ?_⟩
  · rw [State.updEport_queue]
    exact head
  · rw [State.updEport_eport]

theorem pumpSelect_ends (hc : c.queue = q) (k : Nat) : ∃ u l, exec (.pumpSelect p (some (.data k))) s = .next u
    ∧ (u.queue q).head = rest ++ l ∧ (u.eport p).now = none ∧ (u.queue q).drops = (s.queue q).drops + 1 := by
  obtain ⟨⟨l, head⟩, drops, now, -, -, -, -⟩ := State.picked_from p hh
  have idle : (s.eport p).now = none := by
    simp only [State.macTakes, Bool.and_eq_true, Option.isNone_iff_eq_none] at hm
    exact hm.1.2
  obtain ⟨queue, sent⟩ := (s.picked p q).readPicked_ends p c k
  rw [hc] at queue
  refine ⟨_, l, pumpSelect_reads hm hs hh _, ?_, ?_, ?_⟩
  · rw [queue]
    exact head
  · rw [sent, now, idle]
  · rw [queue, ← drops]

end

end Sys2Proof.Machine
end

section
/-!
PROOFS. O38: the flush walk, the end of a frame, and the statement (R156, R187, R408, R417, R425, R428).
-/

namespace Sys2Proof.Machine

/-! ### The flush walk (R417, R425) -/

theorem State.flushOne_head {s : State} {q : Nat} {c : Copy} {rest : List Copy} (hh : (s.queue q).head = c :: rest) (sub : Nat) :
    s.flushOne q sub = ((s.popHead q).killCopy c 5 sub, 1) := by
  unfold State.flushOne
  dsimp only
  rw [hh]

/-- The walk in a port's FLUSH ends a copy (R417). -/
theorem flushWalk_port {s : State} {n q p : Nat} {c : Copy} {rest : List Copy} (hr : (s.pump n).resetting = false)
    (hf : (((s.egress.queues.filter fun e => s.pumpOf e.1 = n).map Prod.fst).find? fun q => !(s.queue q).empty
      && (s.flushing q || (s.queue q).flush.isSome)) = some q) (hh : (s.queue q).head = c :: rest) (hc : c.queue = q)
    (hp : s.queuePhys q = some p) (phase : (s.eport p).phase = .flush) (asked : (s.queue q).flush = none) :
    ∃ u, exec (.flushWalk n) s = .next u ∧ (u.queue q).drops = (s.queue q).drops + 1
      ∧ (u.eport p).flushed = (s.eport p).flushed + 1 := by
  have flushing : s.flushing q = true := by
    unfold State.flushing
    rw [hp]
    exact decide_eq_true phase
  have run : exec (.flushWalk n) s
      = .next (((s.popHead q).killCopy c 5 0).updEport p fun x => { x with flushed := x.flushed + 1 }) := by
    show execFlushWalk n s = _
    unfold execFlushWalk
    dsimp only
    rw [if_neg (by simp [hr]), hf]
    dsimp only
    rw [flushing, if_pos rfl, State.flushOne_head hh, hp, asked]
    rfl
  subst hc
  refine ⟨_, run, ?_, ?_⟩
  · rw [State.updEport_queue, State.killCopy_queue, ← s.popHead_drops]
  · rw [State.updEport_eport, State.killCopy_flushed]
    rfl

/-! ### QUEUE_FLUSH (R425) -/

theorem State.queue_of_only {s : State} {q : Nat} {x : Queue} (only : s.egress.queues = [(q, x)]) : s.queue q = x := by
  simp [State.queue, only, SMap.get]

theorem State.updQueue_only {s : State} {q : Nat} {x : Queue} {d : CmdRef} {g : Queue → Queue}
    (only : s.egress.queues = [(q, x)]) (hg : (g x).flush = some d) : (s.updQueue q g).egress.queues = [(q, g x)] := by
  have held : g x ≠ {} := fun h => by simp [h] at hg
  have read := State.queue_of_only only
  calc (s.updQueue q g).egress.queues
      _ = SMap.set {} [(q, x)] q (g x) := by rw [← only, ← read]; rfl
      _ = SMap.ins (SMap.erase [(q, x)] q) q (g x) := if_neg held
      _ = [(q, g x)] := by simp [SMap.erase, SMap.ins]

theorem State.killCopy_queues (s : State) (c : Copy) (code sub : Nat) : (s.killCopy c code sub).egress.queues
    = (s.updQueue c.queue fun q => { q with drops := q.drops + 1 }).egress.queues :=
  congrArg Sending.queues (s.killCopy_sending c code sub)

theorem Queue.settle_of_tail {x : Queue} (h : x.tail = []) : x.settle = x := by
  unfold Queue.settle
  split
  · cases x
    simp_all
  · rfl

/-- The queue after its one copy was flushed for QUEUE_FLUSH. -/
def Queue.flushedOne (x : Queue) : Queue := { x with head := [], drops := x.drops + 1, flushed := x.flushed + 1 }

theorem Queue.flushedOne_empty {x : Queue} (records : x.records = []) (agg : x.agg = none) (tail : x.tail = []) :
    x.flushedOne.empty = true := by
  have records' : x.flushedOne.records = [] := records
  have agg' : x.flushedOne.agg = none := agg
  have head' : x.flushedOne.head = [] := rfl
  have tail' : x.flushedOne.tail = [] := tail
  simp [Queue.empty, Queue.aggCopies, head', records', agg', tail']

/-- The walk on a queue with one copy, which QUEUE_FLUSH is to empty. -/
def State.flushLast (s : State) (q : Nat) (c : Copy) : State :=
  ((s.popHead q).killCopy c 5 5).updQueue q fun x => { x with flushed := x.flushed + 1 }

section

variable {s : State} {q : Nat} {x : Queue} {c : Copy} {d : CmdRef} (only : s.egress.queues = [(q, x)]) (asked : x.flush = some d)
include only asked

theorem State.flushLast_only (hh : x.head = [c]) (hc : c.queue = q) (tail : x.tail = []) :
    (s.flushLast q c).egress.queues = [(q, x.flushedOne)] := by
  have settled : Queue.settle { x with head := x.head.drop 1 } = { x with head := [] } := by
    refine (Queue.settle_of_tail ?_).trans ?_
    · exact tail
    · rw [hh]
      rfl
  have popped := State.updQueue_only (g := fun x => Queue.settle { x with head := x.head.drop 1 }) only
    (by rw [settled]; exact asked)
  rw [settled] at popped
  have dropped := State.updQueue_only (g := fun x => { x with drops := x.drops + 1 }) popped asked
  subst hc
  have killed := (State.killCopy_queues (s.popHead c.queue) c 5 5).trans dropped
  exact State.updQueue_only (g := fun x => { x with flushed := x.flushed + 1 }) killed asked

theorem State.flushCheck_only (empty : x.empty = true) : s.flushCheck d
    = (s.updQueue q fun x => { x with flush := none, flushed := 0 }).answer d (.data (leBytes 4 x.flushed)) := by
  have asks : s.flushQueues d = [q] := by simp [State.flushQueues, only, asked]
  have read := State.queue_of_only only
  unfold State.flushCheck
  dsimp only
  rw [asks, if_pos (by simp [read, empty])]
  simp [read, total]

end

theorem flushWalk_answers {s : State} {n q : Nat} {x : Queue} {c : Copy} {d : CmdRef} (hr : (s.pump n).resetting = false)
    (only : s.egress.queues = [(q, x)]) (hn : s.pumpOf q = n) (hh : x.head = [c]) (hc : c.queue = q) (records : x.records = [])
    (agg : x.agg = none) (tail : x.tail = []) (port : s.flushing q = false) (asked : x.flush = some d) :
    ∃ u : State, exec (.flushWalk n) s = .next (u.answer d (.data (leBytes 4 (x.flushed + 1)))) ∧ (u.queue q).head = []
      ∧ (u.queue q).flush = none := by
  have read := State.queue_of_only only
  have left := State.flushLast_only only asked hh hc tail
  have run : exec (.flushWalk n) s = .next ((s.flushLast q c).flushCheck d) := by
    show execFlushWalk n s = _
    have found : ((s.egress.queues.filter fun e => s.pumpOf e.1 = n).map Prod.fst).find? (fun q => !(s.queue q).empty
        && (s.flushing q || (s.queue q).flush.isSome)) = some q := by
      simp [only, hn, read, asked, Queue.empty, hh]
    unfold execFlushWalk
    dsimp only
    rw [if_neg (by simp [hr]), found]
    dsimp only
    rw [port, if_neg Bool.false_ne_true, State.flushOne_head (read ▸ hh), read, asked]
    rfl
  rw [State.flushCheck_only left asked (Queue.flushedOne_empty records agg tail)] at run
  refine ⟨_, run, ?_, ?_⟩
  · rw [State.updQueue_queue, State.queue_of_only left]
    rfl
  · rw [State.updQueue_queue]

/-! ### The end of a frame (R156, R408, R410, R428) -/

/-- The records, the buffers, the network side, the frames sent, and the frames in progress. -/
def State.framesView (s : State) : OrderSt × BasinSt × NetSt × List TxFrame × (Nat → Option TxNow) :=
  (s.order, s.basin, s.net, s.out.wire, fun p => (s.eport p).now)

theorem State.eventOn_framesView (s : State) (f : HostFn) (code : Nat) (dt : W64) (body : List Byte) :
    (s.eventOn f code dt body).framesView = s.framesView := by
  have wire := s.eventOn_wire f code dt body
  obtain ⟨o, d, h⟩ := s.eventOn_frame f code dt body
  rw [h] at wire ⊢
  exact congrArg (fun w => (s.order, s.basin, s.net, w, fun p => (s.eport p).now)) wire

theorem State.txStamp_framesView (s : State) (n : TxNow) : (s.txStamp n).framesView = s.framesView := by
  unfold State.txStamp
  dsimp only
  split
  · exact State.eventOn_framesView ..
  · exact State.eventOn_framesView ..

theorem State.ledgerAdd_framesView (s : State) (acct ctr : Nat) (v : W64) (t : Nat) :
    (s.ledgerAdd acct ctr v t).framesView = s.framesView := by
  unfold State.ledgerAdd
  dsimp only
  split
  · rfl
  · split
    · rfl
    · rfl
  · split
    · rfl
    · split
      · rfl
      · rfl
  · split
    · rfl
    · rfl

theorem State.txLedger_framesView (s : State) (n : TxNow) : (s.txLedger n).framesView = s.framesView :=
  State.foldl_keeps State.framesView _ (fun x _ => x.ledgerAdd_framesView _ _ _ _) _ s

theorem State.updEport_framesView (s : State) (p : Nat) {g : EPort → EPort} (hg : ∀ x, (g x).now = x.now) :
    (s.updEport p g).framesView = s.framesView := by
  refine congrArg (fun f => (s.order, s.basin, s.net, s.out.wire, f)) (funext fun q => ?_)
  by_cases h : q = p
  · rw [h, State.updEport_eport, hg]
  · rw [State.updEport_eport_ne _ _ h]

theorem State.chargeShapers_framesView (s : State) (q bytes : Nat) : (s.chargeShapers q bytes).framesView = s.framesView :=
  State.updEport_framesView _ _ fun _ => rfl

/-- The state at the end of a frame, up to the release of its reference. -/
def State.frameSent (s : State) (p : Nat) (n : TxNow) : State :=
  let s1 := (s.sendFrame p n).updEport p fun x => { x with now := none }
  let s2 := if n.copy.ts then s1.txStamp n else s1
  ((s2.txLedger n).updPump (s2.copyPump n.copy) fun x => x.release n.copy.pkt n.copy.emit).chargeShapers n.copy.queue
    (n.bytes.length + 24)

theorem State.frameSent_framesView (s : State) (p : Nat) (n : TxNow) : (s.frameSent p n).framesView
    = ((s.sendFrame p n).updEport p fun x => { x with now := none }).framesView := by
  unfold State.frameSent
  extract_lets s1 s2
  have stamped : s2.framesView = s1.framesView := by
    unfold s2
    split
    · exact s1.txStamp_framesView n
    · rfl
  exact (State.chargeShapers_framesView _ _ _).trans ((s2.txLedger_framesView n).trans stamped)

theorem State.badFree_order (s : State) (reason reqTag bufTag handle : Nat) :
    (s.badFree reason reqTag bufTag handle).order = s.order := by
  unfold State.badFree
  dsimp only
  split
  · exact State.event_order ..
  · rfl

theorem State.endRef_order (s : State) (h : Nat) : (s.endRef h).order = s.order := by
  unfold State.endRef
  split
  · exact s.badFree_order ..
  · split
    · exact s.badFree_order ..
    · exact (s.decRef_basinStep h).order

theorem State.endRef_buf {s : State} {h : Nat} {b : Buf} (hb : s.buf h = some b) (shared : 2 ≤ b.count) :
    (s.endRef h).buf h = some { b with count := b.count - 1 } := by
  have left := State.buf_updBuf_self hb fun b => { b with count := b.count - 1 }
  unfold State.endRef
  rw [hb]
  dsimp only
  rw [if_neg (by omega), State.decRef, State.settle_counted left (by dsimp only; omega), left]

@[simp] theorem State.copyOutcome_buf (s : State) (c : Copy) (code h : Nat) : (s.copyOutcome c code).buf h = s.buf h := by
  unfold State.copyOutcome
  split
  · rfl
  · rfl

/-- A packet's copy that completed is counted (R428). -/
theorem State.copyOutcome_sent {s : State} {c : Copy} (h : c.hostTx = none) :
    ((s.copyOutcome c 0).rc c.pkt).sent = (s.rc c.pkt).sent + 1 := by
  unfold State.copyOutcome State.outcome
  rw [if_neg (by simp [h])]
  dsimp only
  rw [State.setRc_rc]
  split
  · rfl
  · rfl

section

variable (s : State) (p : Nat) (n : TxNow)

/-- The state after the end of a frame. -/
def State.frameDone : State := ((s.frameSent p n).endRef n.copy.handle).copyOutcome n.copy 0

theorem State.frameDone_sending : (s.frameDone p n).sending = (s.frameSent p n).sending := by
  rw [State.frameDone, State.copyOutcome_sending, State.endRef_sending]

theorem State.frameDone_now : ((s.frameDone p n).eport p).now = none := by
  have idle := congrFun (congrArg (·.2.2.2.2) (s.frameSent_framesView p n)) p
  refine (State.now_of_sending (s.frameDone_sending p n) p).trans (idle.trans ?_)
  show (((s.sendFrame p n).updEport p _).eport p).now = none
  rw [State.updEport_eport]

theorem State.frameDone_wire : (s.frameDone p n).out.wire = (s.sendFrame p n).out.wire :=
  (congrArg Sending.wire (s.frameDone_sending p n)).trans (congrArg (·.2.2.2.1) (s.frameSent_framesView p n))

theorem State.frameDone_net : (s.frameDone p n).net = (s.sendFrame p n).net :=
  (congrArg Sending.net (s.frameDone_sending p n)).trans (congrArg (·.2.2.1) (s.frameSent_framesView p n))

theorem State.frameSent_buf (same : (s.sendFrame p n).basin = s.basin) (h : Nat) : (s.frameSent p n).buf h = s.buf h := by
  have basin : (s.frameSent p n).basin = s.basin := (congrArg (·.2.1) (s.frameSent_framesView p n)).trans same
  rw [State.buf, basin, State.buf]

theorem State.frameDone_sent (same : (s.sendFrame p n).order = s.order) (h : n.copy.hostTx = none) :
    ((s.frameDone p n).rc n.copy.pkt).sent = (s.rc n.copy.pkt).sent + 1 := by
  have order : (s.frameSent p n).order = s.order := (congrArg Prod.fst (s.frameSent_framesView p n)).trans same
  rw [State.frameDone, State.copyOutcome_sent h, State.rc_of_order (State.endRef_order _ _), State.rc_of_order order]

theorem State.frameDone_buf (same : (s.sendFrame p n).basin = s.basin) (b : Buf) (hb : s.buf n.copy.handle = some b)
    (shared : 2 ≤ b.count) : (s.frameDone p n).buf n.copy.handle = some { b with count := b.count - 1 } := by
  rw [State.frameDone, State.copyOutcome_buf, State.endRef_buf ((s.frameSent_buf p n same _).trans hb) shared]

end

section

variable {s : State} {p : Nat} {n : TxNow} (hn : (s.eport p).now = some n) (hc : n.copy.ct = false)
  (ht : s.testing p 4 = false)

include ht in
theorem State.wire_sent (bytes : List Byte) (good : Bool) (dt : Nat) :
    s.wire p bytes good dt = { s with out := { s.out with wire := s.out.wire ++ [⟨p, bytes, good, dt⟩] } } :=
  if_neg (by simp [ht])

include hn hc in
/-- A copy that needs no commit ends with its frame. -/
theorem txComplete_run : exec (.txComplete p) s = .next (s.frameDone p n) := by
  show execTxComplete p s = _
  unfold execTxComplete
  rw [hn]
  dsimp only
  rw [hc]
  rfl

include hn hc ht

/-- A frame that ends well goes out whole, and its copy is counted as sent (R156, R408). -/
theorem txComplete_whole (whole : n.poisonAt = none) : ∃ u, exec (.txComplete p) s = .next u ∧ (u.eport p).now = none
    ∧ u.out.wire = s.out.wire ++ [⟨p, n.bytes, true, n.started⟩]
    ∧ (∀ b, s.buf n.copy.handle = some b → 2 ≤ b.count → u.buf n.copy.handle = some { b with count := b.count - 1 })
    ∧ (n.copy.hostTx = none → (u.rc n.copy.pkt).sent = (s.rc n.copy.pkt).sent + 1) := by
  have sends : s.sendFrame p n = { s with out := { s.out with wire := s.out.wire ++ [⟨p, n.bytes, true, n.started⟩] } } := by
    unfold State.sendFrame
    rw [whole]
    exact State.wire_sent ht ..
  refine ⟨_, txComplete_run hn hc, s.frameDone_now p n, ?_, s.frameDone_buf p n (by rw [sends]),
    s.frameDone_sent p n (by rw [sends])⟩
  rw [State.frameDone_wire, sends]

/-- A frame with poison is cut there with a stomped FCS (R187). -/
theorem txComplete_stomped {k : Nat} (poison : n.poisonAt = some k) : ∃ u, exec (.txComplete p) s = .next u
    ∧ (u.eport p).now = none ∧ u.out.wire = s.out.wire ++ [⟨p, n.bytes.take k, false, n.started⟩]
    ∧ (u.port p).mac.stomps = (s.port p).mac.stomps + 1 := by
  have sends : s.sendFrame p n = ({ s with
      out := { s.out with wire := s.out.wire ++ [⟨p, n.bytes.take k, false, n.started⟩] } } : State).stompCount p := by
    unfold State.sendFrame
    rw [poison]
    exact congrArg (·.stompCount p) (State.wire_sent ht ..)
  refine ⟨_, txComplete_run hn hc, s.frameDone_now p n, ?_, ?_⟩
  · rw [State.frameDone_wire, sends]
    rfl
  · rw [State.port_of_net (s.frameDone_net p n), sends, State.stompCount, State.updPort_port]
    rfl

end

/-- Settles O38: each step of the pumps by the lemma that says what it does. -/
theorem pumpSteps : Obligations.PumpSteps := by
  unfold Obligations.PumpSteps
  exact ⟨fun s n c rest ops b hr he => ⟨copyArrival_joins hr he, wheelSlot_joins hr he⟩,
    fun s n c rest r hr ha hc late room => ⟨copyArrival_slot hr ha hc room late, copyArrival_clamped hr ha hc room⟩,
    fun s p q c rest b hm hs hh hc hb =>
      ⟨fun f ok hf => pumpSelect_starts hm hs hh hb ok hf, pumpSelect_ends hm hs hh hc⟩,
    fun s p n hn hc ht => ⟨txComplete_whole hn hc ht, fun k => txComplete_stomped hn hc ht⟩,
    shaperTokensReturn_effect, pauseExpiry_effect, pfcResend_effect, holdTimeExpiry_effect,
    fun s n q c rest p => flushWalk_port, fun s n q x c d => flushWalk_answers, pumpResetDone_effect⟩

end Sys2Proof.Machine
end

section
/-!
PROOFS. O12: ordered sections and RETIRE (R208, R209, R219-R221, R319): the fetch and the issue marks change nothing that they
read or leave, and the end of a run leaves the pending store as RETIRE has filled it.
-/

namespace Sys2Proof.Machine

/-! ### Instructions that issue (R264) -/

/-- An instruction that reads no late byte acts on the state after the fetch. -/
theorem issue_acts {s u : State} {t : Nat} {body : State → Option State} (h : s.issues t)
    (hb : body (s.fetchLine t) = some u) : issue t body s = .next (u.issued t) := issue_some s t _ body u h hb

theorem State.fetchLine_tr (s : State) (t k : Nat) : (s.fetchLine t).tr k = s.tr k := by
  rw [State.tr, (s.fetchLine_reads t).2.1, State.tr]

theorem State.fetchLine_thr (s : State) (t k : Nat) : (s.fetchLine t).thr k = s.thr k := by
  rw [State.thr, (s.fetchLine_reads t).1, State.thr]

theorem State.fetchLine_order (s : State) (t : Nat) : (s.fetchLine t).order = s.order := by
  obtain ⟨c, m, k, h⟩ := s.fetchLine_frame t
  rw [h]

theorem State.fetchLine_mayEnter (s : State) (t p n : Nat) : (s.fetchLine t).mayEnter p n = s.mayEnter p n := by
  obtain ⟨c, m, k, h⟩ := s.fetchLine_frame t
  rw [h]
  rfl

/-- Outside a debug step the issue marks hide nothing of a thread's run. -/
theorem State.issued_keeps {u : State} {t : Nat} (calm : (u.tr t).stepLeft = none) :
    (u.issued t).order = u.order ∧ (u.issued t).thr t = u.thr t ∧ ((u.issued t).tr t).run = (u.tr t).run
      ∧ ((u.issued t).tr t).wait = (u.tr t).wait ∧ ((u.issued t).tr t).cur = (u.tr t).cur := by
  rw [u.issued_calm t calm, State.updTr_tr]
  exact ⟨rfl, rfl, rfl, rfl, rfl⟩

/-- No debug step is under way in a thread that issues (R565). -/
theorem State.issues_calm {s : State} {t : Nat} (h : s.issues t) : (s.tr t).stepLeft = none := by
  obtain ⟨-, -, -, -, calm⟩ := h
  exact calm

/-- A work thread works on its own packet (R257). -/
theorem State.fetchLine_curPkt {s : State} {t p : Nat} (work : (s.tr t).parent = none) (cur : (s.tr t).cur = some p) :
    (s.fetchLine t).curPkt t = some p := by
  simp only [State.curPkt, State.owner, State.fetchLine_tr, work, cur]

@[simp] theorem State.updRun_tr (s : State) (t : Nat) (f : RunSt → RunSt) :
    (s.updRun t f).tr t = { s.tr t with run := f (s.tr t).run } := s.updTr_tr t _

@[simp] theorem State.advance_tr (s : State) (t k : Nat) : (s.advance t).tr k = s.tr k := rfl

theorem State.advance_pc (s : State) (t : Nat) : ((s.advance t).thr t).pc = (s.thr t).pc + 4 :=
  congrArg Thr.pc (s.updThr_thr t _)

/-- An instruction that changes its thread's run and falls through. -/
theorem issue_updRun {s : State} {t : Nat} {f : RunSt → RunSt} {body : State → Option State} (h : s.issues t)
    (hb : body (s.fetchLine t) = some (((s.fetchLine t).updRun t f).advance t)) :
    ∃ u, issue t body s = .next u ∧ (u.tr t).run = f (s.tr t).run ∧ (u.thr t).pc = (s.thr t).pc + 4 := by
  have tr : (((s.fetchLine t).updRun t f).advance t).tr t = { s.tr t with run := f (s.tr t).run } := by
    rw [State.advance_tr, State.updRun_tr, State.fetchLine_tr]
  obtain ⟨-, hthr, hrun, -, -⟩ := State.issued_keeps (u := ((s.fetchLine t).updRun t f).advance t) (t := t)
    (by rw [tr]; exact State.issues_calm h)
  refine ⟨_, issue_acts h hb, by rw [hrun, tr], ?_⟩
  rw [hthr, State.advance_pc, ← s.fetchLine_thr t t]
  rfl

/-! ### ORDER_ENTER, ORDER_EXIT (R219-R221) -/

/-- The run after it enters a section. -/
def RunSt.entered (r : RunSt) (n : Nat) : RunSt := { r with held := r.held ++ [n] }

/-- The run after it leaves a section. -/
def RunSt.exited (r : RunSt) (n : Nat) : RunSt :=
  { r with held := r.held.filter (· ≠ n), passed := if r.passed.contains n then r.passed else r.passed ++ [n] }

theorem RunSt.mem_exited (r : RunSt) (n : Nat) : n ∈ (r.exited n).passed := by
  by_cases passed : n ∈ r.passed
  · simp [RunSt.exited, passed]
  · simp [RunSt.exited, passed]

section

variable {s : State} {t p : Nat} {n : BitVec 2} (issues : s.issues t) (work : (s.tr t).parent = none)
include issues work

theorem orderEnter_enters (cur : (s.tr t).cur = some p) (outside : (s.tr t).run.held = [])
    (may : s.mayEnter p n.toNat = true) : ∃ u, exec (.orderEnter t n) s = .next u
      ∧ (u.tr t).run.held = [n.toNat] ∧ (u.thr t).pc = (s.thr t).pc + 4 := by
  have acts : ∃ u, execOrderEnter t n s = .next u
      ∧ (u.tr t).run = (s.tr t).run.entered n.toNat ∧ (u.thr t).pc = (s.thr t).pc + 4 := by
    unfold execOrderEnter
    refine issue_updRun issues (f := fun r => r.entered n.toNat) ?_
    simp [State.fetchLine_curPkt work cur, State.fetchLine_tr, State.fetchLine_mayEnter, work, outside, may,
      State.enterSection, RunSt.entered]
  obtain ⟨u, hu, run, pc⟩ := acts
  exact ⟨u, hu, by simp [run, RunSt.entered, outside], pc⟩

theorem orderEnter_waits (cur : (s.tr t).cur = some p) (outside : (s.tr t).run.held = [])
    (may : s.mayEnter p n.toNat = false) : Claims.waits s (.orderEnter t n) t (.orderEnter n.toNat) := by
  have acts : exec (.orderEnter t n) s = .next (((s.fetchLine t).updTr t fun x => { x with
      wait := .orderEnter n.toNat, enterDt := (s.fetchLine t).dt }).issued t) := by
    change execOrderEnter t n s = _
    unfold execOrderEnter
    refine issue_acts issues ?_
    simp [State.fetchLine_curPkt work cur, State.fetchLine_tr, State.fetchLine_mayEnter, work, outside, may]
  obtain ⟨-, hthr, -, hwait, -⟩ := State.issued_keeps (u := (s.fetchLine t).updTr t fun x => { x with
      wait := .orderEnter n.toNat, enterDt := (s.fetchLine t).dt }) (t := t)
    (by rw [State.updTr_tr, State.fetchLine_tr]; exact State.issues_calm issues)
  exact ⟨_, acts, by rw [hwait, State.updTr_tr], by rw [hthr, State.updTr_thr, State.fetchLine_thr]⟩

theorem orderExit_passes (held : (s.tr t).run.held = [n.toNat]) : ∃ u, exec (.orderExit t n) s = .next u
    ∧ (u.tr t).run.held = [] ∧ n.toNat ∈ (u.tr t).run.passed ∧ (u.thr t).pc = (s.thr t).pc + 4 := by
  have acts : ∃ u, execOrderExit t n s = .next u ∧ (u.tr t).run = (s.tr t).run.exited n.toNat
      ∧ (u.thr t).pc = (s.thr t).pc + 4 := by
    unfold execOrderExit
    refine issue_updRun issues (f := fun r => r.exited n.toNat) ?_
    simp [State.fetchLine_tr, work, held, RunSt.exited]
  obtain ⟨u, hu, run, pc⟩ := acts
  exact ⟨u, hu, by simp [run, RunSt.exited, held], run ▸ (s.tr t).run.mem_exited n.toNat, pc⟩

end

/-! ### The end of a run leaves the order unit and its own thread's NEXT slot alone (R196, R349, R354) -/

/-- The order unit, a thread's NEXT slot, and whether a debug step of it is under way. -/
def State.slotView (s : State) (t : Nat) : OrderSt × Option Nat × Bool :=
  (s.order, (s.tr t).next, (s.tr t).stepLeft.isNone)

theorem State.updTr_slotView (s : State) (k t : Nat) {f : ThrRun → ThrRun} (next : ∀ x, (f x).next = x.next)
    (step : ∀ x, (f x).stepLeft.isNone = x.stepLeft.isNone) : (s.updTr k f).slotView t = s.slotView t := by
  unfold State.slotView
  by_cases h : t = k
  · subst h
    rw [State.updTr_tr, next, step, State.updTr_order]
  · rw [State.updTr_tr_ne _ _ h, State.updTr_order]

theorem State.answerWaiter_slotView (s : State) (w : LkWaiter) (v : W64) (t : Nat) :
    (s.answerWaiter w v).slotView t = s.slotView t := by
  unfold State.answerWaiter
  split
  · next k _ =>
    dsimp only
    split
    · exact s.updTr_slotView k t (by exact fun _ => rfl) (by exact fun _ => rfl)
    · unfold State.complete
      split
      · exact s.updTr_slotView k t (by exact fun _ => rfl) (by exact fun _ => rfl)
      · exact State.updTr_slotView _ k t (by exact fun _ => rfl) (by exact fun _ => Option.isNone_map)
  · rfl

theorem State.abandonAll_slotView (s : State) (r : Requester) (t : Nat) : (s.abandonAll r).slotView t = s.slotView t := by
  refine State.foldl_keeps (fun x => x.slotView t) _ (fun x k => ?_) _ s
  unfold State.lockAbandon State.lockPass
  dsimp only
  split
  · rfl
  · exact State.answerWaiter_slotView ..

/-- A thread whose run is over, with nothing in its NEXT slot, is free. -/
theorem State.nextSlot_free {s : State} {t : Nat} (next : (s.tr t).next = none) (calm : (s.tr t).stepLeft = none) :
    (s.nextSlot t).order = s.order ∧ ((s.nextSlot t).tr t).cur = none ∧ ((s.nextSlot t).tr t).stepLeft = none := by
  have view := s.abandonAll_slotView (.thread t) t
  simp only [State.slotView, Prod.mk.injEq, next, calm, Option.isNone_none, Option.isNone_iff_eq_none] at view
  obtain ⟨order, next', calm'⟩ := view
  unfold State.nextSlot
  extract_lets s1
  have freed : s1.order = s.order ∧ (s1.tr t).cur = none ∧ (s1.tr t).stepLeft = none := by
    rw [State.updTr_tr]
    exact ⟨order, rfl, calm'⟩
  have empty : (s1.tr t).next = none := by simp only [s1, State.updTr_tr, next']
  split
  · exact freed
  · rw [empty]
    exact freed

theorem State.stopChildren_childless {s : State} {t : Nat} (h : (s.tr t).children = []) :
    s.stopChildren t = s.updTr t fun x => { x with children := [] } := by
  unfold State.stopChildren
  rw [h]
  rfl

theorem State.lockAtEnd_reads (s : State) (t : Nat) : (s.lockAtEnd t).order = s.order ∧ (s.lockAtEnd t).truns = s.truns := by
  unfold State.lockAtEnd
  split
  · exact ⟨rfl, rfl⟩
  · exact ⟨rfl, rfl⟩

theorem State.quiet_order (s : State) (t : Nat) : (s.quiet t).order = s.order := by
  simp only [State.quiet, State.chanEnd, State.lockLeave, State.updTr_order, State.updCore_order, State.updTask_order,
    State.updCl_order]

theorem State.quiet_tr (s : State) (t : Nat) : ((s.quiet t).tr t).next = (s.tr t).next
    ∧ ((s.quiet t).tr t).stepLeft = none := by
  have left : (((s.lockLeave (.thread t)).chanEnd t).tr t).next = (s.tr t).next := by
    unfold State.chanEnd
    rw [State.updTr_tr]
    rfl
  unfold State.quiet
  dsimp only
  rw [State.updTr_tr]
  exact ⟨left, rfl⟩

/-- Where nothing of the run goes on, its end leaves the order unit alone. -/
theorem State.runOver_reads {s : State} {t : Nat} (childless : (s.tr t).children = []) (next : (s.tr t).next = none) :
    let u := ((s.lockAtEnd t).stopChildren t).quiet t
    u.order = s.order ∧ (u.tr t).next = none ∧ (u.tr t).stepLeft = none := by
  obtain ⟨order, truns⟩ := s.lockAtEnd_reads t
  have tr : (s.lockAtEnd t).tr t = s.tr t := by rw [State.tr, truns, State.tr]
  have order' := ((s.lockAtEnd t).stopChildren t).quiet_order t
  obtain ⟨next', calm⟩ := ((s.lockAtEnd t).stopChildren t).quiet_tr t
  rw [State.stopChildren_childless (by rw [tr, childless])] at order' next' calm ⊢
  exact ⟨order'.trans order, by rw [next', State.updTr_tr, tr, next], calm⟩

theorem State.retireDone_frees {s : State} {t : Nat} (childless : (s.tr t).children = []) (next : (s.tr t).next = none) :
    (s.retireDone t).order = s.order ∧ ((s.retireDone t).tr t).cur = none ∧ ((s.retireDone t).tr t).stepLeft = none := by
  obtain ⟨order, next', calm⟩ := State.runOver_reads (s := s.updThr t fun x => { x with handler := false }) childless next
  obtain ⟨order', freed⟩ := State.nextSlot_free next' calm
  exact ⟨order'.trans order, freed⟩

/-! ### RETIRE (R208, R209, R319) -/

/-- An empty store has room for any journal (R209). -/
theorem State.storePut_empty {s : State} (p : Nat) (t : Option Nat) {run : RunSt} (reason : Nat) (forced : Option Nat)
    (empty : s.order.pend = []) (small : run.used ≤ 128) :
    let u := s.storePut p t run reason forced
    u.order.pend = [⟨p, run, reason, false, forced⟩] ∧ (u.pkt p).st = .pending ∧ u.truns = s.truns := by
  have room : s.storeRoom p run.used = some false := by
    unfold State.storeRoom
    rw [empty]
    exact if_pos ⟨by decide, Nat.le_trans (Nat.add_le_add_left small _) (by decide)⟩
  have stored : (s.updPkt p fun x => { x with st := .pending }).order.pend ++ [⟨p, run, reason, false, forced⟩]
      = [⟨p, run, reason, false, forced⟩] := by
    rw [show (s.updPkt p fun x => { x with st := .pending }).order.pend = [] from empty, List.nil_append]
  have marked : ((s.updPkt p fun x => { x with st := .pending }).pkt p).st = .pending := by rw [State.updPkt_pkt]
  unfold State.storePut
  rw [room]
  exact ⟨stored, marked, rfl⟩

/-- The packet's journal in the store, as RETIRE hands it over. -/
def State.handedOver (s : State) (t p reason : Nat) : State :=
  (s.traceRec t 3 reason (s.runId p)).storePut p (some t) { (s.tr t).run with held := [] } reason none

theorem State.handedOver_reads {s : State} {t p reason : Nat} (empty : s.order.pend = []) (small : (s.tr t).run.used ≤ 128) :
    (s.handedOver t p reason).order.pend = [⟨p, { (s.tr t).run with held := [] }, reason, false, none⟩]
      ∧ ((s.handedOver t p reason).pkt p).st = .pending ∧ (s.handedOver t p reason).tr t = s.tr t := by
  have traced := s.traceRec_wakeStep t 3 reason (s.runId p)
  obtain ⟨pend, pending, truns⟩ := State.storePut_empty (s := s.traceRec t 3 reason (s.runId p)) p (some t)
    (run := { (s.tr t).run with held := [] }) reason none (by rw [traced.order, empty]) small
  refine ⟨pend, pending, ?_⟩
  rw [← traced.tr t, State.tr, State.tr, ← truns]
  rfl

section

variable {s : State} {t p : Nat} {r : BitVec 2} (issues : s.issues t) (work : (s.tr t).parent = none)
  (cur : (s.tr t).cur = some p) (known : r ≠ 3) (childless : (s.tr t).children = []) (released : s.released t = true)
  (fine : (s.pkt p).refusal = none)
include issues work cur known childless released fine

/-- A journal that the store takes at once ends the run (R209). -/
theorem retire_acts (stored : (((s.fetchLine t).handedOver t p r.toNat).pkt p).st = .pending) :
    exec (.retire t r) s = .next ((((s.fetchLine t).handedOver t p r.toNat).retireDone t).issued t) := by
  have tr : (s.fetchLine t).tr t = s.tr t := s.fetchLine_tr t t
  have due : (s.fetchLine t).released t = true := by rw [State.released, tr]; exact released
  have accepted : (((s.fetchLine t).traceRec t 3 r.toNat ((s.fetchLine t).runId p)).pkt p).refusal = none := by
    rw [State.pkt_of_order ((State.traceRec_wakeStep ..).order.trans (s.fetchLine_order t)), fine]
  change execRetire t r s = _
  unfold execRetire
  refine issue_acts issues ?_
  dsimp only
  rw [State.fetchLine_curPkt work cur, Option.getD_some, if_neg known, if_neg (by simp [tr, work, childless]),
    if_neg (by simp [due]), if_neg (by simp [accepted])]
  exact if_pos stored

theorem retire_hands_over (empty : s.order.pend = []) (small : (s.tr t).run.used ≤ 128) (next : (s.tr t).next = none) :
    ∃ u, exec (.retire t r) s = .next u ∧ (u.tr t).cur = none ∧ (u.pkt p).st = .pending
      ∧ u.order.pend = [⟨p, { (s.tr t).run with held := [] }, r.toNat, false, none⟩] := by
  have tr : (s.fetchLine t).tr t = s.tr t := s.fetchLine_tr t t
  obtain ⟨pend, stored, run⟩ := State.handedOver_reads (s := s.fetchLine t) (t := t) (p := p) (reason := r.toNat)
    (by rw [State.fetchLine_order, empty]) (by rw [tr]; exact small)
  obtain ⟨order, freed, calm⟩ := State.retireDone_frees (s := (s.fetchLine t).handedOver t p r.toNat) (t := t)
    (by rw [run, tr, childless]) (by rw [run, tr, next])
  obtain ⟨hord, -, -, -, hcur⟩ := State.issued_keeps calm
  refine ⟨_, retire_acts issues work cur known childless released fine stored, hcur.trans freed, ?_, ?_⟩
  · rw [State.pkt_of_order (hord.trans order), stored]
  · rw [hord, order, pend, tr]

end

/-- Settles O12: each clause is a lemma about its instruction. -/
theorem orderedSectionsAndRetire : Obligations.OrderedSectionsAndRetire := by
  unfold Obligations.OrderedSectionsAndRetire
  intro s t p issues work cur
  exact ⟨fun n => orderEnter_enters issues work cur, fun n => orderEnter_waits issues work cur,
    fun n => orderExit_passes issues work,
    fun r => retire_hands_over issues work cur⟩

end Sys2Proof.Machine
end

section
/-!
PROOFS. O37: the order commands: settings, the version fence, a domain's status and the counters (R236, R242-R244).
-/

namespace Sys2Proof.Machine

/-! ### ORDER_CONFIG (R243) -/

theorem orderConfig_effect (s : State) (c : CmdRef) (aw eh er fd st : Nat)
    (ha : s.accepts c 0x0408 [(8, aw), (1, eh), (1, er), (1, fd), (2, st)]) (haw : aw ≤ 2000) (heh : eh ≤ 2) (her : er ≤ 63)
    (hfd : 1 ≤ fd) (hfd' : fd ≤ 100) (hst : st ≤ 1000) : Claims.answersOk s (.orderConfig c aw eh er fd st) c fun u =>
      u = { s with order := { s.order with cfg := ⟨aw, eh, er, fd, st⟩ } } := by
  have body : orderConfigBody aw eh er fd st s
      = (s.updOrder fun o => { o with cfg := ⟨aw, eh, er, fd, st⟩ }, .ok) := if_neg (by omega)
  exact ⟨_, State.command_ok ha body, rfl⟩

/-! ### VERSION_FENCE (R236) -/

/-- The fence that VERSION_FENCE arms: over every domain, or over a range of them. -/
def Fence.armed (version : Nat) (all : Bool) (first count : Nat) : Fence :=
  { version := version, first := if all then 0 else first, count := if all then 65536 else count, breaks := 0, drainEnd := none }

section

variable {s : State} {c : CmdRef} {v first n : Nat} {all : Bool}

/-- A fence over a range of domains that exist is armed, or compared with the one that is. -/
theorem versionFenceBody_arms (range : all = false → 1 ≤ n ∧ first + n ≤ 65536) : versionFenceBody v all false first n s
    = match s.order.fence with
      | some x => if x.version = v ∧ x.first = (Fence.armed v all first n).first ∧ x.count = (Fence.armed v all first n).count
          then (s, .ok) else (s, busy)
      | none => (s.updOrder fun o => { o with fence := some (Fence.armed v all first n) }, .ok) := by
  have valid : ¬ ((if all then 65536 else n) = 0 ∨ 65536 < (if all then 0 else first) + if all then 65536 else n) := by
    cases all with
    | false =>
      obtain ⟨nonempty, within⟩ := range rfl
      simp only [Bool.false_eq_true, if_false]
      omega
    | true => simp only [if_true]; omega
  unfold versionFenceBody
  dsimp only
  rw [if_neg Bool.false_ne_true, if_neg valid]
  rfl

section

variable (ha : s.accepts c 0x0409 [(2, v), (1, all.toNat), (2, first), (4, n)])
  (range : all = false → 1 ≤ n ∧ first + n ≤ 65536)
include ha range

theorem versionFence_arms (h : s.order.fence = none) : Claims.answersOk s (.versionFence c v all false first n) c fun u =>
    u = { s with order := { s.order with fence := some (Fence.armed v all first n) } } := by
  have body : versionFenceBody v all false first n s
      = (s.updOrder fun o => { o with fence := some (Fence.armed v all first n) }, .ok) := by
    rw [versionFenceBody_arms range, h]
  exact ⟨_, State.command_ok ha body, rfl⟩

theorem versionFence_again {f : Fence} (h : s.order.fence = some f) (hv : f.version = v)
    (hf : f.first = (Fence.armed v all first n).first) (hn : f.count = (Fence.armed v all first n).count) :
    Claims.answersOk s (.versionFence c v all false first n) c fun u => u = s := by
  have body : versionFenceBody v all false first n s = (s, .ok) := by
    rw [versionFenceBody_arms range, h]
    exact if_pos ⟨hv, hf, hn⟩
  exact ⟨_, State.command_ok ha body, rfl⟩

theorem versionFence_other {f : Fence} (h : s.order.fence = some f) (hv : f.version ≠ v) :
    Claims.refusedWith s (.versionFence c v all false first n) c 7 := by
  have body : versionFenceBody v all false first n s = (s, busy) := by
    rw [versionFenceBody_arms range, h]
    exact if_neg fun same => hv same.1
  exact State.command_status ha body

end

/-- A read after a change of every entry, one that keeps the default. -/
theorem SMap.get_map {α : Type} {d : α} {g : α → α} (hd : g d = d) (m : SMap α) (k : Nat) :
    SMap.get d (m.map fun e => (e.1, g e.2)) k = g (SMap.get d m k) := by
  induction m with
  | nil => exact hd.symm
  | cons e rest ih =>
    by_cases he : e.1 = k
    · simp [SMap.get, he]
    · simpa [SMap.get, he] using ih

/-- The domain without its switch point. -/
def Dom.unswitched (x : Dom) : Dom := { x with switch := none }

theorem State.disarm_dom (s : State) (d : Nat) : s.disarm.dom d = (s.dom d).unswitched :=
  SMap.get_map (g := Dom.unswitched) rfl s.order.doms d

theorem versionFence_cancels (ha : s.accepts c 0x0409 [(2, v), (1, all.toNat + 2), (2, first), (4, n)]) :
    Claims.answersOk s (.versionFence c v all true first n) c fun u => u.order.fence = none
      ∧ ∀ d, (u.dom d).switch = none := by
  have body : versionFenceBody v all true first n s = (s.disarm, .ok) := if_pos rfl
  exact ⟨_, State.command_ok ha body, rfl, fun d => congrArg Dom.switch (s.disarm_dom d)⟩

end

/-! ### DOMAIN_STATUS, ORDER_STATS (R242, R244) -/

theorem domainStatus_answers (s : State) (c : CmdRef) (first n : Nat) (ha : s.accepts c 0x040A [(2, first), (1, n)])
    (h1 : 1 ≤ n) (h64 : n ≤ 64) (hd : first + n ≤ 65536) :
    Claims.answersData s (.domainStatus c first n) c ((List.range n).flatMap fun k => s.domainImage (first + k)) := by
  have body : domainStatusBody first n s = (s, .data ((List.range n).flatMap fun k => s.domainImage (first + k))) :=
    if_neg (by omega)
  exact State.command_reads ha body

theorem orderStats_answers (s : State) (c : CmdRef) (ha : s.accepts c 0x040B []) :
    Claims.answersData s (.orderStats c) c (wordsBytes s.order.cnt.words) :=
  State.command_reads (body := orderStatsBody) ha rfl

/-- Settles O37: each clause is a lemma about its command. -/
theorem orderCommands : Obligations.OrderCommands := by
  unfold Obligations.OrderCommands
  intro s c
  exact ⟨orderConfig_effect s c,
    fun v first n all ha range => ⟨versionFence_arms ha range, fun f => versionFence_again ha range,
      fun f => versionFence_other ha range⟩,
    fun v first n all => versionFence_cancels, domainStatus_answers s c, orderStats_answers s c⟩

end Sys2Proof.Machine
end

section
/-!
PROOFS. The end of a run leaves the drains of the clusters as they are (R230-R234, R558): what discards a run, and what returns a
packet to the dispatch list, changes no cluster but its tasks, its channels and its trace.
-/

namespace Sys2Proof.Machine

/-- Who drains each cluster, and until when. -/
def State.drains (s : State) (k : Nat) : Option (Option Sys2Proof.CmdRef × Nat) := (s.cl k).drain

theorem State.drains_of_clusters {s u : State} (h : u.clusters = s.clusters) : u.drains = s.drains := by
  unfold State.drains State.cl
  rw [h]

theorem State.updCl_drains (s : State) (c : Nat) {f : ClusterSt → ClusterSt} (hf : ∀ x, (f x).drain = x.drain) :
    (s.updCl c f).drains = s.drains := by
  funext k
  unfold State.drains
  by_cases h : k = c
  · rw [h, State.updCl_cl, hf]
  · rw [State.updCl_cl_ne _ _ h]

theorem State.answerWaiter_drains (s : State) (w : LkWaiter) (v : W64) : (s.answerWaiter w v).drains = s.drains := by
  unfold State.answerWaiter
  split
  · dsimp only
    split
    · rfl
    · unfold State.complete
      split
      · rfl
      · rfl
  · rfl

theorem State.abandonAll_drains (s : State) (r : Requester) : (s.abandonAll r).drains = s.drains := by
  refine State.foldl_keeps State.drains _ (fun x k => ?_) _ s
  unfold State.lockAbandon State.lockPass
  dsimp only
  split
  · rfl
  · exact State.answerWaiter_drains ..

theorem State.lockAtEnd_drains (s : State) (t : Nat) : (s.lockAtEnd t).drains = s.drains := by
  unfold State.lockAtEnd
  split
  · rfl
  · exact s.updCl_drains _ (by exact fun _ => rfl)

theorem State.chanEnd_drains (s : State) (t : Nat) : (s.chanEnd t).drains = s.drains := by
  unfold State.chanEnd
  extract_lets c staged part s1 s2
  have ended : s1.drains = s.drains := s.updCl_drains c (by exact fun _ => rfl)
  have counted : s2.drains = s1.drains := s1.updCl_drains c (by exact fun _ => rfl)
  exact counted.trans ended

theorem State.quiet_drains (s : State) (t : Nat) : (s.quiet t).drains = s.drains :=
  (s.lockLeave (.thread t)).chanEnd_drains t

theorem State.stopChild_drains (s : State) (t : Nat) : (s.stopChild t).drains = s.drains :=
  (State.abandonAll_drains _ _).trans (s.quiet_drains t)

theorem State.stopChildren_drains (s : State) (t : Nat) : (s.stopChildren t).drains = s.drains :=
  State.foldl_keeps State.drains (fun (x : State) (c : Child) => x.stopChild c.t) (fun x c => x.stopChild_drains c.t) _ s

theorem State.traceRec_drains (s : State) (t kind detail : Nat) (addr : W64) :
    (s.traceRec t kind detail addr).drains = s.drains := by
  have put (r : TraceRec) : (s.tracePut (clusterOf t) r).drains = s.drains := by
    unfold State.tracePut
    dsimp only
    split
    · exact s.updCl_drains _ (by exact fun _ => rfl)
    · split
      · exact s.updCl_drains _ (by exact fun _ => rfl)
      · exact s.updCl_drains _ (by exact fun _ => rfl)
  unfold State.traceRec
  extract_lets c tr wanted
  split
  · exact put _
  · rfl

theorem State.ungate_drains (s : State) (c : Nat) : (s.ungate c).drains = s.drains := by
  unfold State.ungate
  split
  · rfl
  · rfl

theorem State.startRun_drains (s : State) (t p : Nat) : (s.startRun t p).drains = s.drains := by
  unfold State.startRun
  dsimp only
  rw [State.traceRec_drains, State.ungate_drains]
  rfl

theorem State.nextSlot_drains (s : State) (t : Nat) : (s.nextSlot t).drains = s.drains := by
  have freed : ((s.abandonAll (.thread t)).updTr t fun x => { x with cur := none, run := {}, wait := .none }).drains
      = s.drains := s.abandonAll_drains _
  unfold State.nextSlot
  dsimp only
  split
  · exact freed
  · split
    · exact (State.startRun_drains ..).trans freed
    · exact (State.updCl_drains _ _ (by exact fun _ => rfl)).trans freed

/-- A thread whose run is taken away goes on with its next slot (R231). -/
theorem State.threadFreed_drains (s : State) (t : Nat) :
    ((((s.lockAtEnd t).stopChildren t).quiet t).nextSlot t).drains = s.drains := by
  rw [State.nextSlot_drains, State.quiet_drains, State.stopChildren_drains, State.lockAtEnd_drains]

theorem State.BasinStep.drains {s u : State} (h : s.BasinStep u) : u.drains = s.drains := by
  obtain ⟨b, e, o, rfl⟩ := h
  rfl

theorem State.freeProv_drains (s : State) (p : Nat) (run : RunSt) : (s.freeProv p run).drains = s.drains :=
  State.foldl_keeps State.drains _ (fun x h => by
    split
    · exact (State.freeBuf_basinStep x h).drains
    · rfl) _ s

theorem State.refund_drains (s : State) (p : Nat) : (s.refund p).drains = s.drains :=
  State.foldl_keeps State.drains State.refund1 (fun _ _ => rfl) _ _

theorem State.clearRun_drains (s : State) (p : Nat) : (s.clearRun p).drains = s.drains := by
  unfold State.clearRun
  split
  · split
    · rfl
    · rfl
    · rfl
  · next run _ =>
    have cleared : (((s.refund p).dropVers p).freeProv p run).drains = s.drains :=
      (State.freeProv_drains _ p run).trans (s.refund_drains p)
    dsimp only
    split
    · rw [State.threadFreed_drains, cleared]
    · split
      · rw [State.threadFreed_drains]
        exact cleared
      · exact cleared
    · exact cleared

theorem State.listPut_clusters (s : State) (p : Nat) : (s.listPut p).clusters = s.clusters := by
  simp only [State.listPut, State.updOrder_clusters, State.updRc_clusters, State.updPkt_clusters]

theorem State.redo1_drains (s : State) (p : Nat) (m : Mark) : (s.redo1 p m).drains = s.drains := by
  unfold State.redo1
  dsimp only
  split
  · exact (State.drains_of_clusters (State.updPkt_clusters ..)).trans (s.clearRun_drains p)
  · rw [State.drains_of_clusters (State.listPut_clusters ..), State.drains_of_clusters (State.updCnt_clusters ..),
      State.drains_of_clusters (State.updRc_clusters ..), State.clearRun_drains]

theorem State.redo_drains (s : State) (p : Nat) (m : Mark) : (s.redo p m).drains = s.drains :=
  (State.redo1_drains _ p m).trans
    (State.foldl_keeps State.drains (fun (x : State) q => (x.redo1 q .cascade).updCnt fun c => { c with
      cascades := c.cascades + 1 }) (fun x q => x.redo1_drains q .cascade) _ s)

/-- A packet that leaves a NEXT slot changes threads and the order unit alone. -/
theorem State.returnNext_frame (s : State) (t : Nat) : ∃ r o, s.returnNext t = { s with truns := r, order := o } := by
  have put (x : State) (p : Nat) : x.listPut p = { x with order := (x.listPut p).order } := rfl
  unfold State.returnNext
  split
  · exact ⟨_, _, put _ _⟩
  · exact ⟨s.truns, s.order, rfl⟩

theorem State.returnNexts_frame (s : State) (ts : List Nat) :
    ∃ r o, ts.foldl State.returnNext s = { s with truns := r, order := o } := by
  induction ts generalizing s with
  | nil => exact ⟨s.truns, s.order, rfl⟩
  | cons t rest ih =>
    obtain ⟨r, o, first⟩ := s.returnNext_frame t
    obtain ⟨r', o', later⟩ := ih (s.returnNext t)
    rw [first] at later
    exact ⟨r', o', by rw [List.foldl_cons, first, later]⟩

theorem State.returnNexts_cl (s : State) (ts : List Nat) (k : Nat) : (ts.foldl State.returnNext s).cl k = s.cl k := by
  obtain ⟨r, o, h⟩ := s.returnNexts_frame ts
  rw [h]
  rfl

theorem State.returnNexts_core (s : State) (ts : List Nat) (k : Nat) : (ts.foldl State.returnNext s).core k = s.core k := by
  obtain ⟨r, o, h⟩ := s.returnNexts_frame ts
  rw [h]
  rfl

/-- The discard of the runs on some threads (R558). -/
theorem State.runsGone_drains (s : State) (ts runs : List Nat) :
    (runs.foldl (fun (acc : State) p => acc.redo p .none) (ts.foldl State.returnNext s)).drains = s.drains := by
  have returned : (ts.foldl State.returnNext s).drains = s.drains :=
    funext fun k => congrArg ClusterSt.drain (s.returnNexts_cl ts k)
  exact (State.foldl_keeps State.drains (fun (x : State) p => x.redo p .none) (fun x p => x.redo_drains p .none) _ _).trans
    returned

end Sys2Proof.Machine
end

section
/-!
PROOFS. O45: images are loaded and measured (R518, R521), clusters are loaded, drained, admitted and configured (R238, R558), and
cores are retired, restored and configured (R287, R557, R559).
-/

namespace Sys2Proof.Machine

/-! ### IMAGE_LOAD (R518, R521) -/

section

variable {s : State} {c : CmdRef} {v a n : Nat} {bs : List Byte}

/-- A well-formed image that is new to a device that loads none. -/
theorem imageLoadBody_new (idle : s.trust.loads = []) (len : bs.length = n) (form : imageFormOk v bs = true)
    (fresh : ∀ x ∈ s.trust.images, x.version ≠ v) : imageLoadBody c v n bs s
      = if sm3 (bs.drop 256) ≠ slice bs 32 32 ∨ !s.imageSigOk bs ∨ leVal (slice bs 10 1) < s.svn 0x21 then (s, authFail)
        else if (s.makeRoom s.trust.images (imageAt bs 0).size s.trust.images.length).isNone then (s, noRoom)
        else (s.updTrust fun t => { t with loads := t.loads ++ [⟨c, bs.take 256, imageAt bs 0, bs.drop 4352⟩] }, .later) := by
  have unknown : (s.trust.images.find? fun x => x.version = v) = none := by simpa using fresh
  unfold imageLoadBody
  dsimp only
  rw [unknown, if_neg (by simp [idle]), if_neg (by simp [len, form])]
  rfl

variable (ha : s.accepts c 0x0400 [(2, v), (8, a), (4, n)]) (idle : s.trust.loads = []) (len : bs.length = n)
  (form : imageFormOk v bs = true) (fresh : ∀ x ∈ s.trust.images, x.version ≠ v)
include ha idle len form fresh

theorem imageLoad_wrong (digest : sm3 (bs.drop 256) ≠ slice bs 32 32) : Claims.refusedWith s (.imageLoad c v a n bs) c 8 := by
  have body : imageLoadBody c v n bs s = (s, authFail) := by
    rw [imageLoadBody_new idle len form fresh]
    exact if_pos (.inl digest)
  exact State.command_status ha body

theorem imageLoad_right (digest : sm3 (bs.drop 256) = slice bs 32 32) (sig : s.imageSigOk bs = true)
    (svn : s.svn 0x21 ≤ leVal (slice bs 10 1))
    (room : (s.makeRoom s.trust.images (imageAt bs 0).size s.trust.images.length).isSome = true) :
    Claims.goesOn s (.imageLoad c v a n bs) c fun u =>
      u.trust.loads = [⟨c, bs.take 256, imageAt bs 0, bs.drop 4352⟩] ∧ u = { s with trust := u.trust } := by
  have body : imageLoadBody c v n bs s = (s.updTrust fun t => { t with
      loads := t.loads ++ [⟨c, bs.take 256, imageAt bs 0, bs.drop 4352⟩] }, .later) := by
    rw [imageLoadBody_new idle len form fresh, if_neg (by simp [digest, sig, svn]),
      if_neg (by simpa [Option.isSome_iff_ne_none] using room)]
  refine ⟨_, State.command_later ha body, ?_, rfl⟩
  show s.trust.loads ++ _ = _
  rw [idle, List.nil_append]

end

/-- What a loaded image leaves: its entry, its bytes, and its measurement. -/
def State.imageKept (s : State) (left : List Image) (a : Nat) (l : ImgLoad) : State :=
  (((s.updTrust fun t => { t with loads := t.loads.filter fun x => x.c ≠ l.c }).updTrust fun t => { t with
    images := left ++ [l.image.moved a] }).updMem fun m => m.store a l.bytes).logMeas 4 l.image.version (sm3 l.header)

theorem imageLoadDone_effect (s : State) (c : CmdRef) (l : ImgLoad) (left : List Image) (a : Nat) (hl : s.trust.loads = [l])
    (hc : l.c = c) (hr : s.phRuns = true) (fresh : ∀ x ∈ s.trust.images, x.version ≠ l.image.version)
    (room : s.makeRoom s.trust.images l.image.size s.trust.images.length = some (left, a)) :
    Claims.answersOk s (.imageLoadDone c) c fun u => u.trust.images = left ++ [l.image.moved a] ∧ u.trust.loads = []
      ∧ (∀ k, k < l.bytes.length → u.mem.byte (a + k) = l.bytes.getD k 0)
      ∧ (∀ x, x < a ∨ a + l.bytes.length ≤ x → u.mem.byte x = s.mem.byte x)
      ∧ u.trust.meas = if s.trust.meas.length < 1024
        then s.trust.meas ++ [⟨4, l.image.version, s.time.ns, slice (sm3 l.header) 0 32⟩] else s.trust.meas := by
  have unknown : (s.trust.images.find? fun x => x.version = l.image.version) = none := by simpa using fresh
  have loaded : execImageLoadDone c s = .next ((s.imageKept left a l).answer c .ok) := by
    subst hc
    simp [execImageLoadDone, hl, hr, unknown, room, State.imageKept, done]
  have emptied : (s.imageKept left a l).trust.loads = [] := by
    show s.trust.loads.filter _ = []
    simp [hl]
  have written (x : Nat) : (s.imageKept left a l).mem.byte x
      = if a ≤ x ∧ x < a + l.bytes.length then l.bytes.getD (x - a) 0 else s.mem.byte x := s.mem.byte_write l.bytes a x
  refine ⟨_, loaded, rfl, emptied, fun k hk => ?_, fun x hx => ?_, rfl⟩
  · rw [written, if_pos ⟨Nat.le_add_right a k, by omega⟩, Nat.add_sub_cancel_left]
  · rw [written, if_neg (by omega)]

theorem State.loadImage_cl (s : State) (k v : Nat) : ((s.loadImage k v).cl k).st = .drained
    ∧ ((s.loadImage k v).cl k).version = v ∧ ((s.loadImage k v).cl k).loaded = true := by
  unfold State.loadImage
  dsimp only
  rw [State.updCl_cl]
  exact ⟨rfl, rfl, rfl⟩

/-- A drain that starts names its command and its limit (R238, R558). -/
theorem State.drainStart_cl (s : State) (k : Nat) (by_ : Option Sys2Proof.CmdRef) (us : Nat) :
    ((s.drainStart k by_ us).cl k).st = .draining
      ∧ ((s.drainStart k by_ us).cl k).drain = some (by_, s.dt + if s.lastOldSide k = true then
        1000000 * s.order.cfg.fenceDrain else 1000 * if us = 0 then 100 else us) := by
  unfold State.drainStart
  dsimp only
  rw [State.returnNexts_cl, State.updCl_cl]
  exact ⟨rfl, rfl⟩

/-- A counter of the OTP array changes trust alone (R519). -/
theorem State.raiseSvn_clusters (s : State) (id n : Nat) : (s.raiseSvn id n).clusters = s.clusters := by
  unfold State.raiseSvn
  split
  · rfl
  · rfl

/-- Answering the commands in the background changes what leaves the device and the host interface alone (R485). -/
theorem State.answerAll_frame (s : State) (op part : Nat) (a : Ans) :
    ∃ o d, s.answerAll op part a = { s with out := o, dci := d } :=
  State.foldl_frame (fun x c => x.answer c a) (fun x c => x.answer_frame c a) _ s

theorem State.answerAll_cl (s : State) (op part : Nat) (a : Ans) (k : Nat) : (s.answerAll op part a).cl k = s.cl k := by
  obtain ⟨o, d, h⟩ := s.answerAll_frame op part a
  rw [h]
  rfl

theorem State.answerAll_core (s : State) (op part : Nat) (a : Ans) (k : Nat) : (s.answerAll op part a).core k = s.core k := by
  obtain ⟨o, d, h⟩ := s.answerAll_frame op part a
  rw [h]
  rfl

/-- A drain that a command has started ends DRAINED (R558). -/
theorem State.drainEnd_cl {s : State} {k e : Nat} {c : Sys2Proof.CmdRef} (h : (s.cl k).drain = some (some c, e)) :
    ((s.drainEnd k).cl k).st = .drained ∧ ((s.drainEnd k).cl k).drain = none := by
  unfold State.drainEnd
  rw [h]
  dsimp only
  rw [State.answerAll_cl, State.updCl_cl]
  exact ⟨rfl, rfl⟩

/-! ### CLUSTER_LOAD, CLUSTER_DRAIN, CLUSTER_ADMIT, CLUSTER_CONFIG (R238, R558) -/

section

variable {s : State} {c : CmdRef} {k : Nat} (hk : k ≤ 11)
include hk

theorem clusterLoad_effect {v : Nat} (ha : s.accepts c 0x0401 [(1, k), (2, v)])
    (quiet : (s.cl k).st = .empty ∨ (s.cl k).st = .drained) (other : (s.cl k).version ≠ v)
    (held : (s.trust.images.any fun i => i.version = v) = true) : Claims.answersOk s (.clusterLoad c k v) c fun u =>
      (u.cl k).st = .drained ∧ (u.cl k).version = v ∧ (u.cl k).loaded = true := by
  have stopped : ¬ ((s.cl k).st ≠ .empty ∧ (s.cl k).st ≠ .drained) := by tauto
  have body : clusterLoadBody k v s = (s.loadImage k v, .ok) := by
    unfold clusterLoadBody
    dsimp only
    rw [if_neg (by omega), if_neg stopped, if_neg fun same => other same.2, if_neg (by simp only [held]; decide)]
  exact ⟨_, State.command_ok ha body, s.loadImage_cl k v⟩

section

variable {us : Nat} (ha : s.accepts c 0x0402 [(1, k), (4, us)]) (hu : us ≤ 100000)
include ha hu

theorem clusterDrain_starts (st : (s.cl k).st = .admitted) : Claims.goesOn s (.clusterDrain c k us) c fun u =>
    (u.cl k).st = .draining
      ∧ (u.cl k).drain = some (some c, s.dt + if s.lastOldSide k = true then 1000000 * s.order.cfg.fenceDrain
        else 1000 * if us = 0 then 100 else us) := by
  have body : clusterDrainBody c k us s = (s.drainStart k (some c) us, .later) := by
    unfold clusterDrainBody
    rw [if_neg (by omega), st]
  exact ⟨_, State.command_later ha body, s.drainStart_cl k (some c) us⟩

theorem clusterDrain_joins (st : (s.cl k).st = .draining) : Claims.goesOn s (.clusterDrain c k us) c fun u => u = s := by
  have body : clusterDrainBody c k us s = (s, .later) := by
    unfold clusterDrainBody
    rw [if_neg (by omega), st]
  exact ⟨s, State.command_later ha body, rfl⟩

theorem clusterDrain_drained (st : (s.cl k).st = .empty ∨ (s.cl k).st = .drained) :
    Claims.answersData s (.clusterDrain c k us) c (leBytes 4 0) := by
  have body : clusterDrainBody c k us s = (s, .data (leBytes 4 0)) := by
    unfold clusterDrainBody
    rw [if_neg (by omega)]
    obtain st | st := st <;> rw [st]
  exact State.command_reads ha body

end

theorem clusterAdmit_effect (ha : s.accepts c 0x0403 [(1, k)]) (st : (s.cl k).st = .drained) :
    Claims.answersOk s (.clusterAdmit c k) c fun u => (u.cl k).st = .admitted ∧ ∀ j, j ≠ k → u.cl j = s.cl j := by
  have body : ∃ u : State, clusterAdmitBody k s = (u, .ok)
      ∧ u.clusters = (s.updCl k fun x => { x with st := .admitted }).clusters := by
    unfold clusterAdmitBody
    rw [if_neg (by omega), st]
    refine ⟨_, rfl, ?_⟩
    split
    · split
      · exact State.raiseSvn_clusters ..
      · rfl
    · rfl
  obtain ⟨u, hb, same⟩ := body
  have read (j : Nat) : u.cl j = (s.updCl k fun x => { x with st := .admitted }).cl j := by rw [State.cl, same, State.cl]
  refine ⟨u, State.command_ok ha hb, ?_, fun j hj => ?_⟩
  · rw [read, State.updCl_cl]
  · rw [read, State.updCl_cl_ne _ _ hj]

theorem clusterConfig_effect {w wd pf : Nat} (ha : s.accepts c 0x0406 [(1, k), (1, w), (4, wd), (1, pf)]) (hw : w ≤ 8)
    (hd : 4096 ≤ wd) (hd' : wd ≤ 16777215) (hp : 1 ≤ pf) (hp' : pf ≤ 8)
    (may : w = (s.cl k).scratchWays ∨ s.isDrained k = true) : Claims.answersOk s (.clusterConfig c k w wd pf) c fun u =>
      (u.cl k).scratchWays = w ∧ (u.cl k).watchdog = wd ∧ (u.cl k).pfDepth = pf := by
  have allowed : ¬ ((s.cl k).scratchWays ≠ w ∧ (!s.isDrained k) = true) := by
    rintro ⟨differs, active⟩
    obtain rfl | drained := may
    · exact differs rfl
    · simp [drained] at active
  have body : clusterConfigBody k w wd pf s
      = ((if (s.cl k).scratchWays = w then s else s.setScratchWays k w).updCl k fun x => { x with
          watchdog := wd, pfDepth := pf }, .ok) := by
    unfold clusterConfigBody
    rw [if_neg (by omega), if_neg allowed]
  have ways : ((if (s.cl k).scratchWays = w then s else s.setScratchWays k w).cl k).scratchWays = w := by
    split
    · next same => exact same
    · unfold State.setScratchWays
      dsimp only
      rw [State.updCl_cl]
  refine ⟨_, State.command_ok ha body, ?_⟩
  dsimp only
  rw [State.updCl_cl]
  exact ⟨ways, rfl, rfl⟩

/-- A drain ends once no run is active or its limit has expired (R558). -/
theorem clusterDrainTimeout_effect {e : Nat} (hd : (s.cl k).drain = some (some c, e)) (unfenced : s.order.fence = none)
    (ended : s.runsOn (clusterThreads k) = [] ∨ e ≤ s.dt) : ∃ u, exec (.clusterDrainTimeout k) s = .next u
      ∧ (u.cl k).st = .drained ∧ (u.cl k).drain = none := by
  have late : ¬ ((false = true ∧ s.oldLeft = true)
      ∨ (s.dt < e ∧ (!(s.runsOn (clusterThreads k)).isEmpty) = true) ∨ 11 < k) := by
    rintro (⟨fenced, -⟩ | ⟨early, active⟩ | high)
    · cases fenced
    · obtain idle | expired := ended
      · simp [idle] at active
      · omega
    · omega
  have gone : ∃ v : State, execClusterDrainTimeout k s = .next (v.drainEnd k) ∧ v.drains = s.drains := by
    unfold execClusterDrainTimeout
    rw [hd, unfenced]
    dsimp only
    rw [if_neg late]
    refine ⟨_, rfl, (State.updCl_drains _ _ (by exact fun _ => rfl)).trans ?_⟩
    rw [State.drains_of_clusters (State.updOrder_clusters ..), State.runsGone_drains]
  obtain ⟨v, hv, same⟩ := gone
  exact ⟨_, hv, State.drainEnd_cl ((congrFun same k).trans hd)⟩

end

/-! ### CORE_RETIRE (R287, R557, R559) -/

theorem State.coreGone_core (s : State) (k : Nat) :
    ((s.coreGone k).core k).retired = true ∧ ((s.coreGone k).core k).retiring = none := by
  unfold State.coreGone
  dsimp only
  rw [State.updCore_core]
  exact ⟨rfl, rfl⟩

section

variable {s : State} {c : CmdRef} {k : Nat} (hk : k ≤ 191)
include hk

theorem coreRetire_leaves (ha : s.accepts c 0x0404 [(1, k), (1, 0)]) (st : (s.cl (clusterOfCore k)).st = .admitted)
    (other : s.coreLeft k = true) (hr : (s.core k).retired = false) (hg : (s.core k).retiring = none) :
    Claims.goesOn s (.coreRetire c k 0) c fun u => (u.core k).retiring = some (some c, s.dt + 100000) := by
  have body : coreRetireBody c k 0 s = (s.coreLeave k (some c), .later) := by
    unfold coreRetireBody
    simp [st, other, hr, hg, show ¬ 191 < k by omega]
  refine ⟨_, State.command_later ha body, ?_⟩
  unfold State.coreLeave
  dsimp only
  rw [State.returnNexts_core, State.updCore_core]

theorem coreRetire_gone (ha : s.accepts c 0x0404 [(1, k), (1, 0)])
    (st : (s.cl (clusterOfCore k)).st = .empty ∨ (s.cl (clusterOfCore k)).st = .drained) (hr : (s.core k).retired = false)
    (hg : (s.core k).retiring = none) : Claims.answersOk s (.coreRetire c k 0) c fun u => (u.core k).retired = true := by
  have body : coreRetireBody c k 0 s = (s.coreGone k, .ok) := by
    unfold coreRetireBody
    have present : ¬ 191 < k := by omega
    obtain st | st := st <;> simp [st, hr, hg, present]
  exact ⟨_, State.command_ok ha body, (s.coreGone_core k).1⟩

theorem coreRetire_restores (ha : s.accepts c 0x0404 [(1, k), (1, 1)]) (hr : (s.core k).retired = true)
    (hg : (s.core k).retiring = none) (good : s.coreBad k = false) :
    Claims.answersOk s (.coreRetire c k 1) c fun u => (u.core k).retired = false ∧ (u.core k).gated = false := by
  have body : ∃ v : State, coreRetireBody c k 1 s = (v.updCore k fun x => { x with
      retired := false, gated := false, idleFor := 0, l1d := [], l1dLru := [], l1i := [], l1iLru := [] }, .ok) := by
    unfold coreRetireBody
    dsimp only
    rw [if_neg (by omega), if_pos rfl, hg, if_neg (by decide), hr, if_neg (by decide), good, if_neg (by decide)]
    exact ⟨_, rfl⟩
  obtain ⟨v, hb⟩ := body
  refine ⟨_, State.command_ok ha hb, ?_⟩
  dsimp only
  rw [State.updCore_core]
  exact ⟨rfl, rfl⟩

theorem coreRetireTimeout_effect {b : Option CmdRef} {e : Nat} (hg : (s.core k).retiring = some (b, e))
    (ended : e ≤ s.dt ∨ s.runsOn (coreThreads k) = []) : ∃ u, exec (.coreRetireTimeout k) s = .next u
      ∧ (u.core k).retired = true ∧ (u.core k).retiring = none := by
  have late : ¬ (191 < k ∨ (s.dt < e ∧ (!(s.runsOn (coreThreads k)).isEmpty) = true)) := by
    rintro (high | ⟨early, active⟩)
    · omega
    · obtain expired | idle := ended
      · omega
      · simp [idle] at active
  have gone : execCoreRetireTimeout k s = .next ((s.coreGone k).answerAll 0x0404 k .ok) := by
    unfold execCoreRetireTimeout
    rw [hg]
    exact if_neg late
  refine ⟨_, gone, ?_⟩
  rw [State.answerAll_core]
  exact s.coreGone_core k

end

/-! ### CORE_CONFIG, CORE_STATS (R287) -/

/-- A core with the settings of CORE_CONFIG. -/
def CoreSt.configured (x : CoreSt) (a : CoreConfigArgs) : CoreSt := { x with
  workThreads := a.workThreads, dynamic := a.shareMode = 1, capSb := a.capSb, capMshr := a.capMshr, capPf := a.capPf
  capWb := a.capWb, defaultPrio := BitVec.ofNat 2 a.defaultPrio }

def State.coresConfigured (s : State) (cs : List Nat) (a : CoreConfigArgs) : State :=
  cs.foldl (fun (acc : State) k => acc.updCore k fun x => x.configured a) s

theorem State.coresConfigured_core {s : State} {cs : List Nat} {k : Nat} (a : CoreConfigArgs) (hk : k ∈ cs) :
    (s.coresConfigured cs a).core k = (s.core k).configured a := by
  have read := foldl_read (read := State.core) (upd := fun x k => x.updCore k fun y => y.configured a)
    (g := fun y => y.configured a) (fun x k => x.updCore_core k _) (fun x k j h => x.updCore_core_ne _ h) (fun _ => rfl) cs s k
  rw [if_pos hk] at read
  exact read

/-- Every core named keeps its work threads or lies in a drained cluster. -/
theorem coreConfigBody_sets {s : State} {target : Nat} {cs : List Nat} {a : CoreConfigArgs}
    (names : targetCores target = some cs) (valid : coreConfigOk a = true)
    (may : ∀ k ∈ cs, a.workThreads = (s.core k).workThreads ∨ s.isDrained (clusterOfCore k) = true) :
    coreConfigBody target a s = (s.coresConfigured cs a, .ok) := by
  have allowed : (cs.any fun k => decide ((s.core k).workThreads ≠ a.workThreads) && !s.isDrained (clusterOfCore k))
      = false := by
    rw [List.any_eq_false]
    intro k hk
    obtain same | drained := may k hk
    · simp [same]
    · simp [drained]
  unfold coreConfigBody
  rw [names]
  dsimp only
  rw [valid, if_neg (by decide), allowed, if_neg (by decide)]
  rfl

theorem coreConfig_one (s : State) (c : CmdRef) {k : Nat} (hk : k ≤ 191) (a : CoreConfigArgs)
    (ha : s.accepts c 0x0405 [(2, k), (1, a.workThreads), (1, a.shareMode), (1, a.capSb), (1, a.capMshr), (1, a.capPf),
      (1, a.capWb), (1, a.defaultPrio)]) (valid : coreConfigOk a = true)
    (may : a.workThreads = (s.core k).workThreads ∨ s.isDrained (clusterOfCore k) = true) :
    Claims.answersOk s (.coreConfig c k a) c fun u => u.core k = (s.core k).configured a := by
  have body := coreConfigBody_sets (s := s) (a := a) (show targetCores k = some [k] from if_pos (by omega)) valid
    (by simpa using may)
  exact ⟨_, State.command_ok ha body, State.coresConfigured_core a (List.mem_singleton_self k)⟩

theorem coreConfig_cluster (s : State) (c : CmdRef) {k : Nat} (a : CoreConfigArgs) (hk : k ≤ 11)
    (ha : s.accepts c 0x0405 [(2, 0x100 + k), (1, a.workThreads), (1, a.shareMode), (1, a.capSb), (1, a.capMshr),
      (1, a.capPf), (1, a.capWb), (1, a.defaultPrio)]) (valid : coreConfigOk a = true) (drained : s.isDrained k = true) :
    Claims.answersOk s (.coreConfig c (0x100 + k) a) c fun u => ∀ j, j < 16 →
      (u.core (16 * k + j)).workThreads = a.workThreads ∧ (u.core (16 * k + j)).capSb = a.capSb := by
  have names : targetCores (0x100 + k) = some ((List.range 16).map (16 * k + ·)) := by
    unfold targetCores
    rw [if_neg (by omega), if_pos (by omega), Nat.add_sub_cancel_left]
  have within : ∀ i ∈ (List.range 16).map (16 * k + ·), clusterOfCore i = k := by
    intro i hi
    obtain ⟨j, hj, rfl⟩ := List.mem_map.1 hi
    have := List.mem_range.1 hj
    unfold clusterOfCore
    omega
  have body := coreConfigBody_sets (s := s) (a := a) names valid fun i hi => .inr (by rw [within i hi, drained])
  refine ⟨_, State.command_ok ha body, fun j hj => ?_⟩
  rw [State.coresConfigured_core a (List.mem_map.2 ⟨j, List.mem_range.2 hj, rfl⟩)]
  exact ⟨rfl, rfl⟩

theorem coreStats_answers (s : State) (c : CmdRef) {k : Nat} (hk : k ≤ 191) (ha : s.accepts c 0x0407 [(1, k)]) :
    Claims.answersData s (.coreStats c k) c (s.coreImage k) := by
  have body : coreStatsBody k s = (s, .data (s.coreImage k)) := if_neg (by omega)
  exact State.command_reads ha body

/-- Settles O45: each clause is a lemma about its command or event. -/
theorem programAndClusterCommands : Obligations.ProgramAndClusterCommands := by
  unfold Obligations.ProgramAndClusterCommands
  intro s c
  refine ⟨fun v a n bs ha idle len form fresh =>
      ⟨imageLoad_wrong ha idle len form fresh, imageLoad_right ha idle len form fresh⟩,
    imageLoadDone_effect s c, fun k v hk => ⟨clusterLoad_effect hk, ?drain, fun e => clusterDrainTimeout_effect hk,
      clusterAdmit_effect hk, fun w wd pf => clusterConfig_effect hk⟩,
    fun k hk => ⟨coreRetire_leaves hk, coreRetire_gone hk, coreRetire_restores hk, fun b e => coreRetireTimeout_effect hk,
      coreConfig_one s c hk, fun a => coreConfig_cluster s c a, coreStats_answers s c hk⟩⟩
  case drain =>
    exact fun us ha hu => ⟨clusterDrain_starts hk ha hu, clusterDrain_joins hk ha hu, clusterDrain_drained hk ha hu⟩

end Sys2Proof.Machine
end

section
/-!
PROOFS. Rules of an instruction that falls through with a result (R251, R264): what the fetch and the issue marks leave alone, and
that such an instruction changes its register and its PC only.
-/

namespace Sys2Proof.Machine

/-! ### What the fetch leaves alone (R264) -/

theorem State.fetchLine_reg (s : State) (t k : Nat) (r : Reg) : (s.fetchLine t).reg k r = s.reg k r := by
  rw [State.reg, s.fetchLine_thr, State.reg]

/-- The fetch touches the L1I and the L2 alone, so a core keeps what decides who may fork on it. -/
theorem State.fetchLine_workThreads (s : State) (t k : Nat) :
    ((s.fetchLine t).core k).workThreads = (s.core k).workThreads := by
  have touched (u : State) (f : CoreSt → CoreSt) (hf : ∀ x, (f x).workThreads = x.workThreads) :
      ((u.updCore (coreOf t) f).core k).workThreads = (u.core k).workThreads := by
    by_cases h : k = coreOf t
    · rw [h, State.updCore_core, hf]
    · rw [State.updCore_core_ne _ _ h]
  unfold State.fetchLine
  extract_lets core no c set look touch w cl s1
  have same : s1.core k = s.core k := by
    obtain ⟨k0, h0⟩ := s.l2Count_frame cl no
    obtain ⟨m, k1, h1⟩ := (s.l2Count cl no).l2Get_frame cl no
    rw [show s1 = _ from h1, h0]
    rfl
  clear_value look
  cases look with
  | some w => exact touched s _ fun _ => rfl
  | none =>
    rw [← same]
    exact touched s1 _ fun _ => rfl

theorem State.fetchLine_freePool (s : State) (t c : Nat) : (s.fetchLine t).freePool c = s.freePool c := by
  have faults : (s.fetchLine t).faults = s.faults := by
    obtain ⟨x, m, k, h⟩ := s.fetchLine_frame t
    rw [h]
  have same (u : Nat) : (s.fetchLine t).isPool u = s.isPool u ∧ (s.fetchLine t).inReset u = s.inReset u := by
    constructor
    · rw [State.isPool, s.fetchLine_workThreads, State.isPool]
    · rw [State.inReset, faults, State.inReset]
  simp only [State.freePool, same, s.fetchLine_tr]

/-! ### An instruction that writes one register and falls through -/

@[simp] theorem State.result_tr (s : State) (t k : Nat) (gd : Reg) (v : W64) : (s.result t gd v).tr k = s.tr k := rfl

theorem State.result_thr (s : State) (t : Nat) (gd : Reg) (v : W64) :
    (s.result t gd v).thr t = { (s.thr t).set gd v with pc := (s.thr t).pc + 4 } := by
  simp only [State.result, State.advance, State.setReg, State.updThr_thr, Thr.set_pc]

theorem State.result_thr_ne (s : State) {t k : Nat} (gd : Reg) (v : W64) (h : k ≠ t) : (s.result t gd v).thr k = s.thr k := by
  simp only [State.result, State.advance, State.setReg, State.updThr_thr_ne _ _ h]

theorem State.result_reg (s : State) (t : Nat) (gd : Reg) (v : W64) :
    (s.result t gd v).reg t gd = if gd = 0 then 0 else v := by
  rw [State.reg, State.result_thr]
  exact Thr.get_set_self ..

theorem State.result_reg_ne (s : State) (t : Nat) {gd r : Reg} (v : W64) (h : r ≠ gd) :
    (s.result t gd v).reg t r = s.reg t r := by
  rw [State.reg, State.result_thr]
  exact Thr.get_set_ne _ _ h

/-- Outside a debug step an instruction that has acted keeps every thread's registers, and every other thread. -/
theorem State.issued_leaves {u : State} {t : Nat} (calm : (u.tr t).stepLeft = none) :
    (u.issued t).thrs = u.thrs ∧ (∀ k, k ≠ t → (u.issued t).tr k = u.tr k)
      ∧ ((u.issued t).tr t).children = (u.tr t).children ∧ ((u.issued t).tr t).parent = (u.tr t).parent := by
  rw [u.issued_calm t calm]
  refine ⟨rfl, fun k h => State.updTr_tr_ne _ _ h, ?_, ?_⟩
  · rw [State.updTr_tr]
  · rw [State.updTr_tr]

/-- An instruction that writes one register changes the threads alone. -/
theorem State.result_issued_frame {u : State} {t : Nat} {gd : Reg} {v : W64} (calm : ((u.result t gd v).tr t).stepLeft = none) :
    ∃ x y, (u.result t gd v).issued t = { u with thrs := x, truns := y } := by
  rw [State.issued_calm _ t calm]
  exact ⟨_, _, rfl⟩

/-- An instruction whose result is the state after the fetch with one register written changes nothing else. -/
theorem completes_of_result {s : State} {i : Instr} {t : Nat} {gd : Reg} {v : W64} (h : s.issues t)
    (acts : exec i s = .next (((s.fetchLine t).result t gd v).issued t)) : Claims.completes s i t gd v := by
  have calm : (((s.fetchLine t).result t gd v).tr t).stepLeft = none := by
    rw [State.result_tr, s.fetchLine_tr]
    exact State.issues_calm h
  obtain ⟨thrs, others, -, -⟩ := State.issued_leaves calm
  have thr (k : Nat) : (((s.fetchLine t).result t gd v).issued t).thr k = ((s.fetchLine t).result t gd v).thr k := by
    rw [State.thr, thrs, State.thr]
  have reg (r : Reg) : (((s.fetchLine t).result t gd v).issued t).reg t r = ((s.fetchLine t).result t gd v).reg t r := by
    rw [State.reg, thr, State.reg]
  obtain ⟨x, y, rest⟩ := State.result_issued_frame calm
  obtain ⟨-, -, scratch, device⟩ := s.fetchLine_reads t
  refine ⟨_, acts, by rw [reg, State.result_reg], ?_, ?_, ?_, ?_, ?_, ?_, ?_⟩
  · rw [thr, State.result_thr, s.fetchLine_thr]
  · intro r hr
    rw [reg, State.result_reg_ne _ _ _ (by simpa using hr), s.fetchLine_reg]
  · rw [thr, State.result_thr, s.fetchLine_thr, Thr.set_eq]
  · intro k hk
    exact ⟨by rw [thr, State.result_thr_ne _ _ _ hk, s.fetchLine_thr],
      by rw [others k hk, State.result_tr, s.fetchLine_tr]⟩
  · rw [rest]
    exact scratch
  · rw [rest]
    exact device
  · intro hits
    obtain ⟨c, hc⟩ := s.fetchLine_hit t hits
    rw [rest, hc]
    exact ⟨rfl, rfl⟩

end Sys2Proof.Machine
end

section
/-!
PROOFS. O10: FORK, JOIN and END (R256-R259, R320): the child begins with one register of its own, and what ends with it changes no
other thread's children.
-/

namespace Sys2Proof.Machine

/-! ### FORK (R256, R257) -/

/-- The state after FORK has started thread `k` for thread `t`, before its handle is given. -/
def State.forked (s : State) (t k : Nat) (entry arg : W64) : State :=
  let p := s.thr t
  let s1 := s.updThr k fun x => { x with
    regs := SMap.set 0 [] 1 arg, lk := 0, pc := entry, handler := false
    prio := p.prio, bufsel := p.bufsel, pfctl := true }
  let s2 := s1.updTr k fun x => { x with
    parent := some t, wait := .none, run := {}, children := []
    lkps := [], late := none, stalled := false, str := none, gran := [], staged := none, starve := 0 }
  s2.updTr t fun x => { x with children := (x.children.filter fun c => c.t ≠ k) ++ [⟨k, none⟩] }

section

variable (s : State) {t k : Nat} (entry arg : W64)

theorem State.forked_child (hk : k ≠ t) : ((s.forked t k entry arg).tr k).parent = some t := by
  unfold State.forked
  dsimp only
  rw [State.updTr_tr_ne _ _ hk, State.updTr_tr]

theorem State.forked_parent (hk : k ≠ t) : ((s.forked t k entry arg).tr t).stepLeft = (s.tr t).stepLeft
    ∧ ⟨k, none⟩ ∈ ((s.forked t k entry arg).tr t).children := by
  unfold State.forked
  dsimp only
  rw [State.updTr_tr, State.updTr_tr_ne _ _ hk.symm]
  exact ⟨rfl, List.mem_append_right _ (List.mem_singleton_self _)⟩

theorem State.forked_thr (t : Nat) : ((s.forked t k entry arg).thr k).pc = entry
    ∧ ((s.forked t k entry arg).thr k).regs = SMap.set 0 [] 1 arg := by
  unfold State.forked
  dsimp only
  rw [State.updTr_thr, State.updTr_thr, State.updThr_thr]
  exact ⟨rfl, rfl⟩

/-- A child's g1 is the argument, and every other register 0. -/
theorem State.forked_reg (t : Nat) (r : Reg) : (s.forked t k entry arg).reg k r = if r = 1 then arg else 0 := by
  have regs := (s.forked_thr (k := k) entry arg t).2
  unfold State.reg Thr.get
  rw [regs]
  by_cases one : r = 1
  · subst one
    exact SMap.get_set_self ..
  · have other : r.toNat ≠ 1 := fun e => one (BitVec.eq_of_toNat_eq e)
    rw [SMap.get_set_ne _ _ _ other, if_neg one]
    exact ite_self _

end

theorem State.fetchLine_child (s : State) (t : Nat) (v : W64) : (s.fetchLine t).child t v = s.child t v := by
  rw [State.child, s.fetchLine_tr, State.child]

section

variable {s : State} {t k : Nat} {gd ga gb : Reg} (h : s.issues t)
include h

theorem fork_starts (free : s.freePool (coreOf t) = some k) (hk : k ≠ t) (aligned : (s.reg t ga).toNat % 4 = 0)
    (work : (s.tr t).parent = none) (drained : (s.tr t).sb = []) : ∃ u, exec (.fork t gd ga gb) s = .next u
      ∧ u.reg t gd = (if gd = 0 then 0 else BitVec.ofNat 64 (k % 8 + 1)) ∧ (u.tr k).parent = some t
      ∧ (u.thr k).pc = s.reg t ga ∧ u.reg k 1 = s.reg t gb ∧ (∀ r, r ≠ 1 → u.reg k r = 0)
      ∧ ⟨k, none⟩ ∈ (u.tr t).children := by
  let v := (s.fetchLine t).forked t k (s.reg t ga) (s.reg t gb)
  let w := v.result t gd (BitVec.ofNat 64 (k % 8 + 1))
  have acts : exec (.fork t gd ga gb) s = .next (w.issued t) := by
    change execFork t gd ga gb s = _
    unfold execFork
    refine issueRegs_some s t _ _ _ h ?_
    simp only [s.fetchLine_reg, s.fetchLine_tr, s.fetchLine_freePool, free, work, drained]
    rw [if_neg (not_not_intro aligned), if_neg (by decide), if_neg (by decide)]
    rfl
  obtain ⟨calm, listed⟩ := (s.fetchLine t).forked_parent (s.reg t ga) (s.reg t gb) hk
  obtain ⟨thrs, others, children, -⟩ := State.issued_leaves (u := w) (t := t) (by
    rw [State.result_tr, calm, s.fetchLine_tr]
    exact State.issues_calm h)
  have reg (j : Nat) (r : Reg) : (w.issued t).reg j r = w.reg j r := by rw [State.reg, State.thr, thrs, State.reg, State.thr]
  have thr : (w.issued t).thr k = v.thr k := by rw [State.thr, thrs, ← v.result_thr_ne gd _ hk, State.thr]
  have child (r : Reg) : (w.issued t).reg k r = if r = 1 then s.reg t gb else 0 := by
    rw [State.reg, thr]
    exact (s.fetchLine t).forked_reg _ _ t r
  refine ⟨_, acts, by rw [reg, State.result_reg], ?_, ?_, by rw [child, if_pos rfl], ?_, ?_⟩
  · rw [others k hk, State.result_tr]
    exact (s.fetchLine t).forked_child _ _ hk
  · rw [thr]
    exact ((s.fetchLine t).forked_thr _ _ t).1
  · exact fun r hr => by rw [child, if_neg hr]
  · rw [children, State.result_tr]
    exact listed

/-- With every pool thread of the core taken the handle is 0 (R256). -/
theorem fork_full (free : s.freePool (coreOf t) = none) (aligned : (s.reg t ga).toNat % 4 = 0) :
    Claims.completes s (.fork t gd ga gb) t gd 0 := by
  refine completes_of_result h ?_
  change execFork t gd ga gb s = _
  unfold execFork
  refine issueRegs_some s t _ _ _ h ?_
  simp only [s.fetchLine_reg, s.fetchLine_freePool, free]
  rw [if_neg (not_not_intro aligned)]
  exact ite_self _

/-! ### JOIN (R258) -/

theorem join_gives {v : W64} (ended : s.child t (s.reg t ga) = some ⟨k, some v⟩) :
    Claims.completes s (.join t gd ga) t gd v := by
  refine completes_of_result h ?_
  change execJoin t gd ga s = _
  unfold execJoin
  refine issueRegs_some s t _ _ _ h ?_
  rw [s.fetchLine_reg, s.fetchLine_child, ended]

theorem join_waits (runs : s.child t (s.reg t ga) = some ⟨k, none⟩) :
    Claims.waits s (.join t gd ga) t (.join gd (s.reg t ga).toNat) := by
  let v := ((s.fetchLine t).wasBusy (clusterOf t)).updTr t fun x => { x with wait := .join gd (s.reg t ga).toNat }
  have acts : exec (.join t gd ga) s = .next (v.issued t) := by
    change execJoin t gd ga s = _
    unfold execJoin
    refine issueRegs_some s t _ _ _ h ?_
    rw [s.fetchLine_reg, s.fetchLine_child, runs]
  have waiting : v.tr t = { s.tr t with wait := .join gd (s.reg t ga).toNat } := by
    rw [← s.fetchLine_tr t t]
    exact State.updTr_tr ..
  obtain ⟨-, thr, -, wait, -⟩ := State.issued_keeps (u := v) (t := t) (by rw [waiting]; exact State.issues_calm h)
  refine ⟨_, acts, by rw [wait, waiting], ?_⟩
  rw [thr, ← s.fetchLine_thr t t]
  rfl

end

/-! ### END (R258, R259, R354, R357) -/

/-- The children of a thread's run, which the locks do not touch. -/
def State.childrenOf (s : State) (p : Nat) : List Child := (s.tr p).children

theorem State.updTr_childrenOf (s : State) (k p : Nat) {f : ThrRun → ThrRun} (hf : ∀ x, (f x).children = x.children) :
    (s.updTr k f).childrenOf p = s.childrenOf p := by
  unfold State.childrenOf
  by_cases h : p = k
  · rw [h, State.updTr_tr, hf]
  · rw [State.updTr_tr_ne _ _ h]

theorem State.answerWaiter_childrenOf (s : State) (w : LkWaiter) (v : W64) (p : Nat) :
    (s.answerWaiter w v).childrenOf p = s.childrenOf p := by
  unfold State.answerWaiter
  split
  · next k _ =>
    dsimp only
    split
    · exact s.updTr_childrenOf k p (by exact fun _ => rfl)
    · unfold State.complete
      split
      · exact s.updTr_childrenOf k p (by exact fun _ => rfl)
      · exact State.updTr_childrenOf _ k p (by exact fun _ => rfl)
  · rfl

theorem State.abandonAll_childrenOf (s : State) (r : Requester) (p : Nat) :
    (s.abandonAll r).childrenOf p = s.childrenOf p := by
  refine State.foldl_keeps (fun x => x.childrenOf p) _ (fun x k => ?_) _ s
  unfold State.lockAbandon State.lockPass
  dsimp only
  split
  · rfl
  · exact State.answerWaiter_childrenOf ..

theorem State.quiet_childrenOf (s : State) (t p : Nat) : (s.quiet t).childrenOf p = s.childrenOf p := by
  have left : ((s.lockLeave (.thread t)).chanEnd t).childrenOf p = s.childrenOf p := by
    unfold State.chanEnd
    exact State.updTr_childrenOf _ t p (by exact fun _ => rfl)
  exact (State.updTr_childrenOf _ t p (by exact fun _ => rfl)).trans left

/-- A child that ends: its parent has its g1, and what it held goes. -/
def State.childEnded (s : State) (t p : Nat) (v : W64) : State :=
  (((s.updTr p fun x => { x with children := x.children.map fun c => if c.t = t then { c with ended := some v } else c }).quiet
    t).abandonAll (.thread t)).updTr t fun x => { x with parent := none }

theorem State.childEnded_tr (s : State) (t p : Nat) (v : W64) : ((s.childEnded t p v).tr t).parent = none
    ∧ ((s.childEnded t p v).tr t).stepLeft = none := by
  have left (x : State) : (((x.quiet t).abandonAll (.thread t)).tr t).stepLeft = none := by
    have view := (x.quiet t).abandonAll_slotView (.thread t) t
    simp only [State.slotView, Prod.mk.injEq, (x.quiet_tr t).2, Option.isNone_none, Option.isNone_iff_eq_none] at view
    exact view.2.2
  unfold State.childEnded
  rw [State.updTr_tr]
  exact ⟨rfl, left _⟩

theorem State.childEnded_children {s : State} {t p : Nat} (v : W64) (only : (s.tr p).children = [⟨t, none⟩]) :
    (s.childEnded t p v).childrenOf p = [⟨t, some v⟩] := by
  unfold State.childEnded
  rw [State.updTr_childrenOf _ t p (by exact fun _ => rfl), State.abandonAll_childrenOf, State.quiet_childrenOf,
    State.childrenOf, State.updTr_tr, only]
  simp

theorem endI_returns {s : State} {t p : Nat} (h : s.issues t) (child : (s.tr t).parent = some p) (hp : p ≠ t)
    (released : s.released t = true) (only : (s.tr p).children = [⟨t, none⟩]) :
    ∃ u, exec (.endI t) s = .next u ∧ (u.tr t).parent = none ∧ (u.tr p).children = [⟨t, some (s.reg t 1)⟩] := by
  have acts : exec (.endI t) s = .next (((s.fetchLine t).childEnded t p (s.reg t 1)).issued t) := by
    change execEndI t s = _
    unfold execEndI
    refine issueRegs_some s t _ _ _ h ?_
    have due : (s.fetchLine t).released t = true := by rw [State.released, s.fetchLine_tr]; exact released
    rw [s.fetchLine_tr, child, s.fetchLine_reg]
    exact if_neg (by simp [due])
  obtain ⟨free, calm⟩ := (s.fetchLine t).childEnded_tr t p (s.reg t 1)
  obtain ⟨-, others, -, parent⟩ := State.issued_leaves calm
  refine ⟨_, acts, by rw [parent, free], ?_⟩
  rw [others p hp]
  exact State.childEnded_children _ (by rw [s.fetchLine_tr, only])

/-- Settles O10: each clause is a lemma about its instruction. -/
theorem forkJoinEnd : Obligations.ForkJoinEnd := by
  unfold Obligations.ForkJoinEnd
  intro s t gd ga gb k h
  exact ⟨fork_starts h, fork_full h, fun v => join_gives h, join_waits h, fun p => endI_returns h⟩

end Sys2Proof.Machine
end

section
/-!
PROOFS. Rules of the caches (R265-R273): the first way of a set that holds a line, a line put into the L1D or the L2, and what a
request of another line leaves alone.
-/

namespace Sys2Proof.Machine

/-! ### The ways of a set (R265, R266) -/

/-- Entry `k` of a cache holds line `no`. -/
def holdsLine (m : SMap (Option Line)) (k no : Nat) : Bool :=
  match SMap.get none m k with
  | some ln => ln.no = no
  | none => false

/-- The first of `n` ways from entry `base` that holds line `no`. -/
def firstWay (m : SMap (Option Line)) (base n no : Nat) : Option Nat :=
  (List.range n).find? fun w => holdsLine m (base + w) no

theorem CoreSt.way_eq (c : CoreSt) (no : Nat) : c.way no = firstWay c.l1d (no % 64 * 8) 8 no := rfl

theorem L2St.way_eq (x : L2St) (no n : Nat) : x.way no n = firstWay x.lines (no % 4096 * 16) n no := rfl

theorem holdsLine_iff {m : SMap (Option Line)} {k no : Nat} :
    holdsLine m k no = true ↔ ∃ ln, SMap.get none m k = some ln ∧ ln.no = no := by
  unfold holdsLine
  cases SMap.get none m k with
  | none => simp
  | some ln => simp

theorem firstWay_some {m : SMap (Option Line)} {base n no w : Nat} (h : firstWay m base n no = some w) :
    w < n ∧ ∃ ln, SMap.get none m (base + w) = some ln ∧ ln.no = no := by
  obtain ⟨holds, inside, -⟩ := List.find?_range_eq_some.1 h
  exact ⟨List.mem_range.1 inside, holdsLine_iff.1 holds⟩

/-- A line put into a set that holds it nowhere, or in this very way, is found there. -/
theorem firstWay_set {m : SMap (Option Line)} {base n w : Nat} {ln : Line} (hw : w < n)
    (was : firstWay m base n ln.no = none ∨ firstWay m base n ln.no = some w) :
    firstWay (SMap.set none m (base + w) (some ln)) base n ln.no = some w := by
  have before (j : Nat) (hj : j < w) : holdsLine m (base + j) ln.no = false := by
    obtain absent | found := was
    · simpa using List.find?_eq_none.1 absent j (List.mem_range.2 (by omega))
    · simpa using (List.find?_range_eq_some.1 found).2.2 j hj
  refine List.find?_range_eq_some.2 ⟨holdsLine_iff.2 ⟨ln, SMap.get_set_self .., rfl⟩, List.mem_range.2 hw, fun j hj => ?_⟩
  have other : base + j ≠ base + w := by omega
  unfold holdsLine at before ⊢
  rw [SMap.get_set_ne _ _ _ other, before j hj]
  rfl

/-- The way that the tree names lies below the limit, or is way 0. -/
theorem plruVictim_lt (bits levels limit : Nat) : plruVictim bits levels limit = 0 ∨ plruVictim bits levels limit < limit := by
  unfold plruVictim
  refine List.foldlRecOn (motive := fun acc : Nat × Nat => acc.2 = 0 ∨ acc.2 < limit) (List.range levels) _ (.inl rfl)
    fun acc below k _ => ?_
  dsimp only
  split
  · next upper =>
    simp only [Bool.and_eq_true, decide_eq_true_eq] at upper
    exact .inr upper.2
  · exact below

theorem L2St.victim_lt (x : L2St) (set : Nat) {n : Nat} (hn : n ≤ 16) : x.victim set n < 16 := by
  unfold L2St.victim
  split
  · next w found =>
    have := List.mem_range.1 (List.mem_of_find?_eq_some found)
    omega
  · have := plruVictim_lt (SMap.get 0 x.lru set).toNat 4 n
    omega

/-! ### The L1D -/

theorem CoreSt.line_of_l1d {c d : CoreSt} (h : d.l1d = c.l1d) (no : Nat) : d.line no = c.line no := by
  rw [CoreSt.line, CoreSt.way, h, CoreSt.line, CoreSt.way]

theorem CoreSt.line_some {c : CoreSt} {no : Nat} {ln : Line} (h : c.line no = some ln) :
    ∃ w, c.way no = some w ∧ w < 8 ∧ ln.no = no := by
  unfold CoreSt.line at h
  split at h
  · next w found =>
    obtain ⟨inside, l, there, number⟩ := firstWay_some found
    exact ⟨w, found, inside, by rw [← number, Option.some.inj (h.symm.trans there)]⟩
  · cases h

theorem CoreSt.put_line {c : CoreSt} {w : Nat} {ln : Line} (hw : w < 8)
    (was : c.way ln.no = none ∨ c.way ln.no = some w) : (c.put w ln).line ln.no = some ln := by
  have found : (c.put w ln).way ln.no = some w := firstWay_set hw was
  unfold CoreSt.line
  rw [found]
  exact SMap.get_set_self none c.l1d (ln.no % 64 * 8 + w) (some ln)

theorem CoreSt.empty_way {c : CoreSt} (h : c.l1d = []) (no : Nat) : c.way no = none := by
  rw [CoreSt.way_eq, h]
  rfl

theorem CoreSt.empty_install {c : CoreSt} (h : c.l1d = []) (t : Nat) (ln : Line) : c.install t ln = some (c.put 0 ln) := by
  have first : c.victim (ln.no % 64) = 0 := by
    unfold CoreSt.victim
    rw [h]
    rfl
  unfold CoreSt.install
  rw [first, h]
  rfl

/-- With no write-back waiting a request reclaims nothing (R271). -/
theorem CoreSt.reclaim_idle {c : CoreSt} (h : c.wb = []) (no : Nat) : c.reclaim no = c := by
  unfold CoreSt.reclaim
  rw [h]
  rfl

/-! ### The L2 (R265, R267) -/

@[simp] theorem State.updL2_l2 (s : State) (c : Nat) (f : L2St → L2St) : ((s.updL2 c f).cl c).l2 = f (s.cl c).l2 :=
  congrArg ClusterSt.l2 (s.updCl_cl c _)

theorem L2St.put_way {x : L2St} {w : Nat} {ln : Line} (hw : w < 16)
    (was : x.way ln.no 16 = none ∨ x.way ln.no 16 = some w) : (x.put w ln).way ln.no 16 = some w := firstWay_set hw was

theorem L2St.put_get (x : L2St) (w : Nat) (ln : Line) :
    SMap.get none (x.put w ln).lines (ln.no % 4096 * 16 + w) = some ln :=
  SMap.get_set_self none x.lines (ln.no % 4096 * 16 + w) (some ln)

/-- A line that the L2 did not hold is in one of its ways once it is installed. -/
theorem State.l2Install_way {s : State} {c : Nat} {ln : Line} (absent : (s.cl c).l2.way ln.no 16 = none) :
    ∃ w, ((s.l2Install c ln).cl c).l2.way ln.no 16 = some w := by
  unfold State.l2Install
  extract_lets w s1
  have same : (s1.cl c).l2.lines = (s.cl c).l2.lines := by
    unfold s1
    split
    · split
      · rw [State.updL2_l2]
        rfl
      · rfl
    · rfl
  have inside : w < 16 := L2St.victim_lt _ _ (Nat.sub_le ..)
  refine ⟨w, ?_⟩
  rw [State.updL2_l2]
  refine L2St.put_way inside (.inl ?_)
  rw [L2St.way_eq, same]
  exact absent

/-- A line that the L2 has fetched or met is in it. -/
theorem State.l2Get_way (s : State) (c no : Nat) : ∃ w, ((s.l2Get c no).1.cl c).l2.way no 16 = some w := by
  unfold State.l2Get
  split
  · next w found =>
    obtain ⟨inside, ln, there, rfl⟩ := firstWay_some found
    rw [there]
    refine ⟨w, ?_⟩
    dsimp only
    rw [State.updL2_l2]
    exact L2St.put_way inside (.inr found)
  · next absent => exact State.l2Install_way absent

/-- A line that the L2 has not comes from HBM, clean. -/
theorem State.l2Get_miss {s : State} {c no : Nat} (absent : s.l2Has c no = false) :
    (s.l2Get c no).2 = ⟨no, s.mem.read (64 * no) 64, 0, s.mem.poisoned (64 * no) 64⟩ := by
  have none : (s.cl c).l2.way no 16 = none := by simpa [State.l2Has] using absent
  unfold State.l2Get
  rw [none]

theorem mergeBytes_getD {old new : List Byte} {mask : BitVec 64} {k : Nat} (hk : k < 64) (dirty : mask.getLsbD k = true) :
    (mergeBytes old new mask).getD k 0 = new.getD k 0 := by
  simp [mergeBytes, hk, dirty]

/-- The dirty bytes of a line that reaches the L2 are in it, and dirty there (R267). -/
theorem State.l2Merge_puts (s : State) (c : Nat) (e : Line) : ∃ w ln, ((s.l2Merge c e).cl c).l2.way e.no 16 = some w
    ∧ SMap.get none ((s.l2Merge c e).cl c).l2.lines (e.no % 4096 * 16 + w) = some ln
    ∧ ∀ k, k < 64 → e.dirty.getLsbD k = true → ln.data.getD k 0 = e.data.getD k 0 ∧ ln.dirty.getLsbD k = true := by
  obtain ⟨w, found⟩ := s.l2Get_way c e.no
  obtain ⟨inside, -⟩ := firstWay_some found
  let old := (s.l2Get c e.no).2
  let ln : Line := ⟨e.no, mergeBytes old.data e.data e.dirty, old.dirty ||| e.dirty, old.poison || e.poison⟩
  have merged : s.l2Merge c e = (s.l2Get c e.no).1.updL2 c fun x => x.put w ln := by
    unfold State.l2Merge
    dsimp only
    rw [found]
  rw [merged, State.updL2_l2]
  refine ⟨w, ln, L2St.put_way (ln := ln) inside (.inr found), L2St.put_get _ w ln, fun k hk dirty =>
    ⟨mergeBytes_getD hk dirty, ?_⟩⟩
  change (old.dirty ||| e.dirty).getLsbD k = true
  rw [BitVec.getLsbD_or, dirty, Bool.or_true]

/-! ### Threads that go on (R251, R268) -/

theorem State.unstall_frame (s : State) (c : Nat) : ∃ r, s.unstall c = { s with truns := r } := by
  unfold State.unstall
  refine List.foldlRecOn (motive := fun x : State => ∃ r, x = { s with truns := r }) _ _ ⟨s.truns, rfl⟩ fun x hx t _ => ?_
  obtain ⟨r, rfl⟩ := hx
  split
  · exact ⟨_, rfl⟩
  · exact ⟨_, rfl⟩

theorem State.unstall_core (s : State) (c k : Nat) : (s.unstall c).core k = s.core k := by
  obtain ⟨r, h⟩ := s.unstall_frame c
  rw [h]
  rfl

theorem State.unstall_thr (s : State) (c t : Nat) : (s.unstall c).thr t = s.thr t := by
  obtain ⟨r, h⟩ := s.unstall_frame c
  rw [h]
  rfl

theorem State.unstall_cl (s : State) (c k : Nat) : (s.unstall c).cl k = s.cl k := by
  obtain ⟨r, h⟩ := s.unstall_frame c
  rw [h]
  rfl

/-- A thread that is tried again has lost no more than its mark. -/
theorem State.unstall_tr (s : State) (c t : Nat) :
    { (s.unstall c).tr t with stalled := false } = { s.tr t with stalled := false } := by
  refine State.foldl_keeps (fun x => { x.tr t with stalled := false }) _ (fun x k => ?_) _ s
  dsimp only
  split
  · by_cases h : t = k
    · rw [h, State.updTr_tr]
    · rw [State.updTr_tr_ne _ _ h]
  · rfl

end Sys2Proof.Machine
end

section
/-!
PROOFS. O18: the memory system's own steps (R265-R273). A fill that is the core's only miss goes into its empty L1D and wakes the
loads that wait for it; what the stride detector then requests changes no line of the L1D.
-/

namespace Sys2Proof.Machine

/-- A chain in which one step alone does something is that step. -/
theorem foldl_once {σ α : Type} {f : σ → α → σ} {l : List α} {a : α} {s x : σ} (once : l.Nodup) (ha : a ∈ l)
    (acts : f s a = x) (before : ∀ b ∈ l, b ≠ a → f s b = s) (after : ∀ b ∈ l, b ≠ a → f x b = x) :
    l.foldl f s = x := by
  obtain ⟨l1, l2, rfl⟩ := List.append_of_mem ha
  have fixed (y : σ) (part : List α) (h : ∀ b ∈ part, f y b = y) : part.foldl f y = y :=
    List.foldlRecOn (motive := (· = y)) part f rfl fun z hz b hb => by rw [hz, h b hb]
  obtain ⟨-, tail, disjoint⟩ := List.nodup_append.1 once
  obtain ⟨absent, -⟩ := List.nodup_cons.1 tail
  rw [List.foldl_append, fixed s l1 fun b hb => before b (by simp [hb]) (disjoint b hb a (by simp)), List.foldl_cons, acts]
  exact fixed x l2 fun b hb => after b (by simp [hb]) (by rintro rfl; exact absent hb)

theorem coreThreads_nodup (c : Nat) : (coreThreads c).Nodup :=
  List.nodup_range.map fun a b h => by omega

/-! ### LINE_FILL (R268) -/

/-- A running thread's wait completes with a value for its register. -/
theorem State.complete_runs {s : State} {t : Nat} (running : (s.tr t).halted = none) (gd : Reg) (v : W64) :
    s.complete t gd v = (s.result t gd v).updTr t fun x => { x with wait := .none, stepLeft := x.stepLeft.map (· - 1) } := by
  unfold State.complete
  rw [running]
  rfl

/-- A line that no thread waits for wakes none. -/
theorem State.wakeFill_calm {s : State} {c : Nat} (calm : ∀ t ∈ coreThreads c, (s.tr t).wait = .none) (no : Nat)
    (data : List Byte) (poison : Bool) : s.wakeFill c no data poison = s := by
  unfold State.wakeFill
  refine List.foldlRecOn (motive := (· = s)) _ _ rfl fun x hx t ht => ?_
  rw [hx, calm t ht]

/-- The one load that waits for a line completes with its bytes, and the thread's own waiting stores over them. -/
theorem State.wakeFill_one {s : State} {c t : Nat} {gd : Reg} {k : LdKind} {addr : Nat} (ht : t ∈ coreThreads c)
    (alone : ∀ u ∈ coreThreads c, u ≠ t → (s.tr u).wait = .none) (wait : (s.tr t).wait = .fill gd k addr)
    (running : (s.tr t).halted = none) (data : List Byte) : s.wakeFill c (addr / 64) data false
      = s.complete t gd (k.value (overlay (s.tr t).sb addr (slice data (addr % 64) k.size))) := by
  unfold State.wakeFill
  refine foldl_once (coreThreads_nodup c) ht ?_ (fun u hu other => ?_) (fun u hu other => ?_)
  · rw [wait]
    dsimp only
    rw [if_pos rfl, if_neg (by decide)]
  · rw [alone u hu other]
  · rw [State.complete_runs running, State.updTr_tr_ne _ _ other, State.result_tr, alone u hu other]

/-- The line of a miss in way 0 of its L1D set, as the L2 gives it, and the miss ended. -/
def State.lineIn (s : State) (c : Nat) (m : Mshr) : State :=
  let g := s.l2Get (clusterOfCore c) m.line
  g.1.setCore c ({ s.core c with mshr := [] }.put 0 ⟨m.line, g.2.data, 0, g.2.poison⟩)

theorem State.l2Get_core (s : State) (c no k : Nat) : (s.l2Get c no).1.core k = s.core k := by
  obtain ⟨m, x, h⟩ := s.l2Get_frame c no
  rw [h]
  rfl

theorem State.lineIn_threads (s : State) (c : Nat) (m : Mshr) : (s.lineIn c m).thrs = s.thrs
    ∧ (s.lineIn c m).truns = s.truns := by
  obtain ⟨x, y, h⟩ := s.l2Get_frame (clusterOfCore c) m.line
  unfold State.lineIn
  dsimp only
  rw [h]
  exact ⟨rfl, rfl⟩

theorem State.lineIn_tr (s : State) (c : Nat) (m : Mshr) (t : Nat) : (s.lineIn c m).tr t = s.tr t := by
  rw [State.tr, (s.lineIn_threads c m).2, State.tr]

section

variable {s : State} {c : Nat} {m : Mshr} (sole : (s.core c).mshr = [m]) (kept : m.dropped = false) (plain : m.ops = [])
  (empty : (s.core c).l1d = []) (idle : (s.core c).wb = [])
include sole kept plain empty idle

theorem lineFill_acts : exec (.lineFill c m.line false) s = .next (((s.lineIn c m).wakeFill c m.line
    (s.l2Get (clusterOfCore c) m.line).2.data (s.l2Get (clusterOfCore c) m.line).2.poison).unstall c) := by
  have found : s.fillOf c m.line = some (s, m) := by
    unfold State.fillOf
    simp [sole]
  have free : (s.core c).wbIssued m.line = false := by rw [CoreSt.wbIssued, idle]; rfl
  have ended : [m].erase m = [] := List.erase_cons_head ..
  have filled : s.fill c m.line false = (((s.lineIn c m).wakeFill c m.line
      (s.l2Get (clusterOfCore c) m.line).2.data (s.l2Get (clusterOfCore c) m.line).2.poison).unstall c) := by
    unfold State.fill
    dsimp only
    rw [found]
    dsimp only
    rw [if_neg (by simp [free]), if_neg (by simp [kept]), if_neg (by simp), s.l2Get_core, sole, ended,
      CoreSt.empty_install (c := { s.core c with mshr := [] }) empty, plain]
    unfold State.lineIn
    dsimp only [List.foldl_nil]
  exact congrArg Host.Outcome.next filled

theorem lineFill_installs (calm : ∀ t ∈ coreThreads c, (s.tr t).wait = .none) :
    ∃ u, exec (.lineFill c m.line false) s = .next u ∧ (u.core c).mshr = [] ∧ ∃ ln, (u.core c).line m.line = some ln
      ∧ (s.l2Has (clusterOfCore c) m.line = false → ln.data = s.mem.read (64 * m.line) 64 ∧ ln.dirty = 0) := by
  let ln := (s.l2Get (clusterOfCore c) m.line).2
  have asleep := (s.lineIn c m).wakeFill_calm (fun t ht => by rw [s.lineIn_tr, calm t ht]) m.line ln.data ln.poison
  have core : ((s.lineIn c m).unstall c).core c = { s.core c with mshr := [] }.put 0 ⟨m.line, ln.data, 0, ln.poison⟩ := by
    rw [State.unstall_core]
    exact State.setCore_core ..
  refine ⟨_, by rw [lineFill_acts sole kept plain empty idle, asleep], by rw [core]; rfl,
    ⟨m.line, ln.data, 0, ln.poison⟩, ?_, ?_⟩
  · rw [core]
    exact CoreSt.put_line (ln := ⟨m.line, ln.data, 0, ln.poison⟩) (by decide) (.inl (CoreSt.empty_way empty _))
  · exact fun absent => ⟨by simp only [ln, State.l2Get_miss absent], rfl⟩

/-- The load that waits for the line completes with its bytes (R268). -/
theorem lineFill_wakes {t : Nat} {gd : Reg} {k : LdKind} {addr : Nat} (ht : t ∈ coreThreads c)
    (alone : ∀ u ∈ coreThreads c, u ≠ t → (s.tr u).wait = .none) (wait : (s.tr t).wait = .fill gd k addr)
    (inside : addr / 64 = m.line) (drained : (s.tr t).sb = []) (running : Claims.running s t)
    (absent : s.l2Has (clusterOfCore c) m.line = false) (sane : s.mem.poisoned (64 * m.line) 64 = false) :
    ∃ u, exec (.lineFill c m.line false) s = .next u ∧ (u.tr t).wait = .none ∧ (u.thr t).pc = (s.thr t).pc + 4
      ∧ u.reg t gd = (if gd = 0 then 0 else k.value (slice (s.mem.read (64 * m.line) 64) (addr % 64) k.size)) := by
  let value := k.value (slice (s.mem.read (64 * m.line) 64) (addr % 64) k.size)
  let v := s.lineIn c m
  have vtr (j : Nat) : v.tr j = s.tr j := s.lineIn_tr c m j
  have vthr : v.thr t = s.thr t := by rw [State.thr, (s.lineIn_threads c m).1, State.thr]
  have awake : (v.tr t).halted = none := by rw [vtr, running.1]
  have woken : v.wakeFill c m.line (s.mem.read (64 * m.line) 64) false = v.complete t gd value := by
    rw [← inside, State.wakeFill_one ht (fun u hu other => by rw [vtr, alone u hu other]) (by rw [vtr, wait]) awake, vtr,
      drained, inside]
    rfl
  have acts : exec (.lineFill c m.line false) s = .next ((v.complete t gd value).unstall c) := by
    rw [lineFill_acts sole kept plain empty idle, State.l2Get_miss absent, ← woken, sane]
  have thr : ((v.complete t gd value).unstall c).thr t = (v.result t gd value).thr t := by
    rw [State.unstall_thr, State.complete_runs awake, State.updTr_thr]
  refine ⟨_, acts, ?_, ?_, ?_⟩
  · have mark := congrArg ThrRun.wait ((v.complete t gd value).unstall_tr c t)
    dsimp only at mark
    rw [mark, State.complete_runs awake, State.updTr_tr]
  · rw [thr, State.result_thr, vthr]
  · rw [State.reg, thr]
    exact State.result_reg ..

end

/-! ### WRITEBACK_ACK (R267, R271) -/

theorem State.l2Merge_core (s : State) (c : Nat) (ln : Line) (k : Nat) : (s.l2Merge c ln).core k = s.core k := by
  rw [← s.l2Get_core c ln.no k]
  unfold State.l2Merge
  dsimp only
  split
  · rfl
  · rfl

theorem writebackAck_merges {s : State} {c : Nat} {e : WbEnt} (sole : (s.core c).wb = [e]) (issued : e.issued = true) :
    ∃ u, exec (.writebackAck c e.ln.no) s = .next u ∧ (u.core c).wb = []
      ∧ ∃ w ln, (u.cl (clusterOfCore c)).l2.way e.ln.no 16 = some w
        ∧ SMap.get none (u.cl (clusterOfCore c)).l2.lines (e.ln.no % 4096 * 16 + w) = some ln
        ∧ ∀ k, k < 64 → e.ln.dirty.getLsbD k = true →
          ln.data.getD k 0 = e.ln.data.getD k 0 ∧ ln.dirty.getLsbD k = true := by
  let v := (s.l2Merge (clusterOfCore c) e.ln).updCore c fun x => { x with wb := x.wb.filter fun y => y.ln.no ≠ e.ln.no }
  have acks : s.wbAck c e.ln.no = v.unstall c := by
    have found : (s.core c).wb.find? (fun x => x.ln.no = e.ln.no && x.issued) = some e := by simp [sole, issued]
    unfold State.wbAck
    rw [found]
  refine ⟨_, congrArg Host.Outcome.next acks, ?_, ?_⟩
  · rw [State.unstall_core, State.updCore_core, State.l2Merge_core, sole]
    simp
  · rw [State.unstall_cl]
    exact s.l2Merge_puts (clusterOfCore c) e.ln

/-! ### STORE_BUFFER_DRAIN (R269, R273) -/

/-- The lines of a core's L1D and its write-backs, and the threads. -/
def State.linesView (s : State) (c : Nat) : SMap (Option Line) × List WbEnt × SMap ThrRun :=
  ((s.core c).l1d, (s.core c).wb, s.truns)

theorem State.updCore_linesView (s : State) (c : Nat) {f : CoreSt → CoreSt} (lines : ∀ x, (f x).l1d = x.l1d)
    (wb : ∀ x, (f x).wb = x.wb) : (s.updCore c f).linesView c = s.linesView c := by
  rw [State.linesView, State.updCore_core, lines, wb]
  rfl

theorem State.l2Count_linesView (s : State) (c no k : Nat) : (s.l2Count c no).linesView k = s.linesView k := by
  obtain ⟨x, h⟩ := s.l2Count_frame c no
  rw [h]
  rfl

/-- A prefetch with no write-back waiting changes no line of the L1D. -/
theorem State.prefetch_linesView {s : State} {c : Nat} (idle : (s.core c).wb = []) (t no : Nat) :
    (s.prefetch c t no).linesView c = s.linesView c := by
  have reclaimed : (s.updCore c fun x => x.reclaim no).linesView c = s.linesView c := by
    rw [State.linesView, State.updCore_core, CoreSt.reclaim_idle idle]
    rfl
  unfold State.prefetch
  extract_lets s0 k
  split
  · exact reclaimed
  · split
    · refine Eq.trans ?_ reclaimed
      rw [State.updCore_linesView _ c (by exact fun _ => rfl) (by exact fun _ => rfl)]
      unfold State.startMiss
      dsimp only
      rw [State.updCore_linesView _ c (by exact fun _ => rfl) (by exact fun _ => rfl), State.l2Count_linesView]
    · exact (s0.updCore_linesView c (by exact fun _ => rfl) (by exact fun _ => rfl)).trans reclaimed

theorem State.streamAhead_linesView {s : State} {c : Nat} (idle : (s.core c).wb = []) (t addr : Nat) (stride : Int) (n : Nat) :
    (s.streamAhead c t addr stride n).linesView c = s.linesView c := by
  unfold State.streamAhead
  refine List.foldlRecOn (motive := fun x : State => x.linesView c = s.linesView c) _ _ rfl fun x same k _ => ?_
  have calm : (x.core c).wb = [] := (congrArg (·.2.1) same).trans idle
  dsimp only
  split
  · have ahead := (x.prefetch_linesView calm t (((addr : Int) + stride * (k + 1)).toNat / 64)).trans same
    split
    · exact ahead
    · exact (State.updCore_linesView _ c (by exact fun _ => rfl) (by exact fun _ => rfl)).trans ahead
  · exact (x.updCore_linesView c (by exact fun _ => rfl) (by exact fun _ => rfl)).trans same

theorem State.hitSeen_linesView {s : State} {c : Nat} (idle : (s.core c).wb = []) (t addr : Nat) :
    (s.hitSeen c t addr).linesView c = s.linesView c := by
  unfold State.hitSeen
  dsimp only
  split
  · next x _ =>
    rw [State.updCore_linesView _ c (by exact fun _ => rfl) (by exact fun _ => rfl)]
    have marked := s.updCore_linesView c (f := fun y => { y with streams := y.streams.map fun z =>
      if z.t = t && z.stride = x.stride then { z with unused := z.unused.filter (· ≠ addr / 64) } else z })
      (by exact fun _ => rfl) (by exact fun _ => rfl)
    rw [State.streamAhead_linesView ((congrArg (·.2.1) marked).trans idle), marked]
  · rfl

theorem storeBufferDrain_puts {s : State} {t : Nat} {e : SbEntry} {rest : List SbEntry} {ln : Line}
    (oldest : (s.tr t).sb = e :: rest) (there : (s.core (coreOf t)).line (e.addr / 64) = some ln)
    (idle : (s.core (coreOf t)).wb = []) : ∃ u, exec (.storeBufferDrain t) s = .next u ∧ (u.tr t).sb = rest
      ∧ (u.core (coreOf t)).line (e.addr / 64) = some { ln with
        data := splice ln.data (e.addr % 64) e.bytes, dirty := ln.dirty ||| byteMask (e.addr % 64) e.bytes.length } := by
  obtain ⟨w, way, inside, number⟩ := CoreSt.line_some there
  let stored : Line := { ln with
    data := splice ln.data (e.addr % 64) e.bytes, dirty := ln.dirty ||| byteMask (e.addr % 64) e.bytes.length }
  have core0 : (s.updCore (coreOf t) fun x => x.reclaim (e.addr / 64)).core (coreOf t) = s.core (coreOf t) :=
    (s.updCore_core _ _).trans (CoreSt.reclaim_idle idle _)
  let s1 := (s.updCore (coreOf t) fun x => x.reclaim (e.addr / 64)).updCore (coreOf t) fun x => x.put w stored
  let v := (s1.hitSeen (coreOf t) t e.addr).updTr t fun x => { x with sb := rest }
  have core1 : s1.core (coreOf t) = (s.core (coreOf t)).put w stored := (State.updCore_core ..).trans (by rw [core0])
  have drains : s.drainStore t = v.unstall (coreOf t) := by
    unfold State.drainStore
    rw [oldest]
    dsimp only
    rw [core0, there]
    dsimp only
    rw [way]
    rfl
  have hit := s1.hitSeen_linesView (c := coreOf t) (by rw [core1]; exact idle) t e.addr
  simp only [State.linesView, Prod.mk.injEq] at hit
  obtain ⟨hit, -, -⟩ := hit
  refine ⟨_, congrArg Host.Outcome.next drains, ?_, ?_⟩
  · have mark := congrArg ThrRun.sb (v.unstall_tr (coreOf t) t)
    dsimp only at mark
    rw [mark, State.updTr_tr]
  · have lines : ((v.unstall (coreOf t)).core (coreOf t)).l1d = ((s.core (coreOf t)).put w stored).l1d := by
      rw [State.unstall_core, State.core, State.updTr_cores, ← State.core, hit, core1]
    rw [CoreSt.line_of_l1d lines, ← number]
    exact CoreSt.put_line (ln := stored) inside (.inr (by rw [← way, ← number]))

/-! ### CACHE_MAINT_DONE (R270, R272) -/

theorem cacheMaintDone_completes {s : State} {t no : Nat} {rest : List Nat} (oldest : (s.tr t).maint = no :: rest)
    (idle : (s.core (coreOf t)).mshr = []) : ∃ u, exec (.cacheMaintDone t) s = .next u ∧ (u.tr t).maint = rest := by
  let v := (s.updTr t fun x => { x with maint := rest }).updCore (coreOf t) fun c => { c with
    posted := dropFirst (fun e => e.t = t && e.line = no) c.posted }
  have acts : exec (.cacheMaintDone t) s = .next (v.unstall (coreOf t)) := by
    change execCacheMaintDone t s = _
    unfold execCacheMaintDone
    rw [oldest, idle]
    rfl
  have marked : (v.tr t).maint = rest := by
    change ((s.updTr t fun x => { x with maint := rest }).tr t).maint = rest
    rw [State.updTr_tr]
  have mark := congrArg ThrRun.maint (v.unstall_tr (coreOf t) t)
  dsimp only at mark
  exact ⟨_, acts, mark.trans marked⟩

/-- Settles O18: each clause is a lemma about its event. -/
theorem memorySystemSteps : Obligations.MemorySystemSteps := by
  unfold Obligations.MemorySystemSteps
  exact ⟨fun s c m _ sole kept plain empty idle => lineFill_installs sole kept plain empty idle,
    fun s c m t gd k addr _ sole kept plain empty idle ht alone wait inside drained running absent sane =>
      lineFill_wakes sole kept plain empty idle ht alone wait inside drained running absent sane,
    fun s c e sole issued _ => writebackAck_merges sole issued,
    fun s t e rest ln => storeBufferDrain_puts,
    fun s t no rest => cacheMaintDone_completes⟩

end Sys2Proof.Machine
end

section
/-!
PROOFS. O16: the cache operations (R255, R260, R270, R308). The statement asks of every state that CCLEAN of a line of writable HBM
is posted, and no hypothesis bounds the scratch ways of the cluster. CLUSTER_CONFIG gives at most 8; with 1,835,009 or more the scratch
region reaches into the cached view, and a cache operation on an address that lies in both acts on scratch and does nothing.
-/

namespace Sys2Proof.Machine

/-- A cache operation on cluster scratch does nothing but fall through. -/
theorem execMaint_scratch {s : State} {t : Nat} {ga : Reg} {imm : BitVec 16} (h : s.issues t)
    (place : (s.fetchLine t).mreg t (Claims.ea s t ga imm) = some .clScratch) (op : Nat) (all : Bool) :
    execMaint t op all ga imm s = .next (((s.fetchLine t).advance t).issued t) := by
  have scratch : (s.fetchLine t).mreg t (s.reg t ga + sext imm).toNat = some .clScratch := place
  unfold execMaint
  refine issueRegs_some s t _ _ _ h ?_
  dsimp only
  rw [s.fetchLine_reg, scratch]

/-- Cluster 0 runs thread 0 at the start of its text; the cluster's scratch of 2,097,152 ways ends above the line of writable HBM
that g1 names. -/
def scratchOverHbm : State := { State.reset with
  trust := { images := [⟨1, 0x1000, 0x1000, 0, [], [], [], 0, false⟩] }
  clusters := [(0, { loaded := true, version := 1, scratchWays := 2097152 })]
  mem := { regions := [⟨0, 0, 0x10000, 0, 3⟩] }
  thrs := [(0, { regs := [(1, 0x8000002000)], pc := 0x8000001000 })]
  truns := [(0, { cur := some 0 })] }

theorem scratchOverHbm_issues : scratchOverHbm.issues 0 := by
  unfold State.issues
  decide

theorem scratchOverHbm_cclean : exec (.cclean 0 false 1 0) scratchOverHbm
    = .next (((scratchOverHbm.fetchLine 0).advance 0).issued 0) := by
  have place : (scratchOverHbm.fetchLine 0).mreg 0 (Claims.ea scratchOverHbm 0 1 0) = some .clScratch := by decide +kernel
  exact execMaint_scratch scratchOverHbm_issues place 1 false

/-- Refutes O16: in `scratchOverHbm` CCLEAN of line 128 of HBM acts on cluster scratch, and nothing is posted. -/
theorem not_cacheOperations : ¬ Obligations.CacheOperations := by
  unfold Obligations.CacheOperations
  intro claim
  obtain ⟨-, -, hbm⟩ := claim scratchOverHbm 0 false 1 0 128 scratchOverHbm_issues
  have writable : ∃ r, scratchOverHbm.mem.region (Claims.ea scratchOverHbm 0 1 0 - cachedBase) = some r ∧ r.right = 3 :=
    ⟨⟨0, 0, 0x10000, 0, 3⟩, by decide, rfl⟩
  obtain ⟨posts, -⟩ := hbm (by decide) (by decide) writable rfl rfl rfl rfl rfl (by decide) (by decide)
  obtain ⟨u, acts, posted, -⟩ := posts (.cclean 0 false 1 0) (by simp)
  rw [scratchOverHbm_cclean] at acts
  obtain rfl := Host.Outcome.next.inj acts
  have idle : ((scratchOverHbm.fetchLine 0).advance 0).tr 0 = scratchOverHbm.tr 0 := scratchOverHbm.fetchLine_tr 0 0
  rw [State.issued_calm _ 0 (by rw [idle]; rfl), State.updTr_tr, idle] at posted
  exact absurd posted (by decide)

end Sys2Proof.Machine
end

section
/-!
PROOFS. Rules of an instruction that reads its core and its cluster, jumps or traps (R264, R278-R281, R297): the fetch changes the L1I
and the L2 and nothing else of a core or a cluster, and a trap in program mode with a vector enters the handler.
-/

namespace Sys2Proof.Machine

/-! ### The fetch leaves all of a cluster but its L2, and all of a core but its L1I (R264, R265) -/

/-- Of every cluster at most the L2 differs. -/
structure State.L2Step (s u : State) : Prop where
  cl : ∀ k, ∃ x, u.cl k = { s.cl k with l2 := x }

namespace State.L2Step

variable {s u v : State}

theorem refl (s : State) : s.L2Step s := ⟨fun k => ⟨(s.cl k).l2, rfl⟩⟩

theorem of_clusters (h : u.clusters = s.clusters) : s.L2Step u :=
  ⟨fun k => ⟨(s.cl k).l2, by rw [State.cl, h, State.cl]⟩⟩

theorem trans (h : s.L2Step u) (g : u.L2Step v) : s.L2Step v := by
  refine ⟨fun k => ?_⟩
  obtain ⟨x, hx⟩ := h.cl k
  obtain ⟨y, hy⟩ := g.cl k
  exact ⟨y, by rw [hy, hx]⟩

theorem updL2 (s : State) (c : Nat) (f : L2St → L2St) : s.L2Step (s.updL2 c f) := by
  refine ⟨fun k => ?_⟩
  by_cases h : k = c
  · subst h
    exact ⟨f (s.cl k).l2, s.updCl_cl k _⟩
  · exact ⟨(s.cl k).l2, s.updCl_cl_ne _ h⟩

end State.L2Step

theorem State.l2Install_l2Step (s : State) (c : Nat) (ln : Line) : s.L2Step (s.l2Install c ln) := by
  unfold State.l2Install
  extract_lets w s1
  refine .trans (u := s1) ?_ (.updL2 ..)
  unfold s1
  split
  · split
    · next v _ _ => exact .trans (u := s.updMem fun m => m.putLine v) (.of_clusters rfl) (.updL2 ..)
    · exact .refl s
  · exact .refl s

theorem State.l2Get_l2Step (s : State) (c no : Nat) : s.L2Step (s.l2Get c no).1 := by
  unfold State.l2Get
  split
  · split
    · next ln _ => exact .updL2 s c fun x => x.put _ ln
    · exact .refl s
  · exact s.l2Install_l2Step ..

theorem State.l2Count_l2Step (s : State) (c no : Nat) : s.L2Step (s.l2Count c no) := by
  unfold State.l2Count
  split
  · exact .updL2 ..
  · split
    · exact .refl s
    · exact .updL2 ..

theorem State.fetchLine_l2Step (s : State) (t : Nat) : s.L2Step (s.fetchLine t) := by
  unfold State.fetchLine
  extract_lets core no c set look touch w cl s1
  clear_value look
  cases look with
  | some w => exact .of_clusters rfl
  | none => exact .trans (.trans (s.l2Count_l2Step cl no) (State.l2Get_l2Step ..)) (.of_clusters rfl)

theorem State.fetchLine_task (s : State) (t k : Nat) : ((s.fetchLine t).cl k).task = (s.cl k).task := by
  obtain ⟨x, h⟩ := (s.fetchLine_l2Step t).cl k
  rw [h]

theorem State.fetchLine_breaks (s : State) (t k : Nat) : ((s.fetchLine t).cl k).breaks = (s.cl k).breaks := by
  obtain ⟨x, h⟩ := (s.fetchLine_l2Step t).cl k
  rw [h]

theorem State.fetchLine_chan (s : State) (t k n : Nat) : (s.fetchLine t).chan k n = s.chan k n := by
  obtain ⟨x, h⟩ := (s.fetchLine_l2Step t).cl k
  rw [State.chan, h, State.chan]

theorem State.fetchLine_vector (s : State) (t k c : Nat) : (s.fetchLine t).vector k c = s.vector k c := by
  obtain ⟨x, h⟩ := (s.fetchLine_l2Step t).cl (clusterOf k)
  obtain ⟨_, _, _, frame⟩ := s.fetchLine_frame t
  have trust : (s.fetchLine t).trust = s.trust := by rw [frame]
  simp only [State.vector, State.image, h, trust]

theorem State.fetchLine_dt (s : State) (t : Nat) : (s.fetchLine t).dt = s.dt := by
  obtain ⟨_, _, _, frame⟩ := s.fetchLine_frame t
  rw [frame]
  rfl

theorem State.fetchLine_owner (s : State) (t k : Nat) : (s.fetchLine t).owner k = s.owner k := by
  rw [State.owner, s.fetchLine_tr, State.owner]

theorem State.fetchLine_released (s : State) (t k : Nat) : (s.fetchLine t).released k = s.released k := by
  rw [State.released, s.fetchLine_tr, State.released]

/-- Of a core the fetch changes the L1I and its counters. -/
theorem State.fetchLine_core (s : State) (t k : Nat) : ∃ a b c d,
    (s.fetchLine t).core k = { s.core k with l1i := a, l1iLru := b, l1iHits := c, l1iMisses := d } := by
  have touched (u : State) (same : u.core k = s.core k) (f : CoreSt → CoreSt)
      (hf : ∀ x, ∃ a b c d, f x = { x with l1i := a, l1iLru := b, l1iHits := c, l1iMisses := d }) :
      ∃ a b c d, (u.updCore (coreOf t) f).core k = { s.core k with l1i := a, l1iLru := b, l1iHits := c, l1iMisses := d } := by
    rw [← same]
    by_cases h : k = coreOf t
    · rw [h, State.updCore_core]
      exact hf _
    · rw [State.updCore_core_ne _ _ h]
      exact ⟨_, _, _, _, rfl⟩
  unfold State.fetchLine
  extract_lets core no c set look touch w cl s1
  have same : s1.core k = s.core k := by
    obtain ⟨k0, h0⟩ := s.l2Count_frame cl no
    exact ((s.l2Count cl no).l2Get_core cl no k).trans (by rw [h0]; rfl)
  clear_value look
  cases look with
  | some w => exact touched s rfl _ fun x => ⟨_, _, _, _, rfl⟩
  | none => exact touched s1 same _ fun x => ⟨_, _, _, _, rfl⟩

theorem State.fetchLine_sbRoom (s : State) (t k : Nat) : (s.fetchLine t).sbRoom k = s.sbRoom k := by
  obtain ⟨_, _, _, _, h⟩ := s.fetchLine_core t (coreOf k)
  simp only [State.sbRoom, h, s.fetchLine_tr, shareOf]
  rfl

/-! ### Parts of a thread or a cluster that a change of another leaves alone -/

@[simp] theorem State.updThr_tr (s : State) (t k : Nat) (f : Thr → Thr) : (s.updThr t f).tr k = s.tr k := rfl
@[simp] theorem State.setReg_tr (s : State) (t k : Nat) (r : Reg) (v : W64) : (s.setReg t r v).tr k = s.tr k := rfl
@[simp] theorem State.setFlags_tr (s : State) (t k : Nat) (f : W32) : (s.setFlags t f).tr k = s.tr k := rfl
@[simp] theorem State.clearFlags_tr (s : State) (t k : Nat) (f : W32) : (s.clearFlags t f).tr k = s.tr k := rfl
@[simp] theorem State.updCl_tr (s : State) (c k : Nat) (f : ClusterSt → ClusterSt) : (s.updCl c f).tr k = s.tr k := rfl
@[simp] theorem State.updTask_tr (s : State) (c k : Nat) (f : TaskSt → TaskSt) : (s.updTask c f).tr k = s.tr k := rfl
@[simp] theorem State.wasBusy_tr (s : State) (c k : Nat) : (s.wasBusy c).tr k = s.tr k := rfl
@[simp] theorem State.setChan_tr (s : State) (c n k : Nat) (x : Chan) : (s.setChan c n x).tr k = s.tr k := rfl
@[simp] theorem State.wasBusy_thr (s : State) (c k : Nat) : (s.wasBusy c).thr k = s.thr k := rfl
@[simp] theorem State.setChan_thr (s : State) (c n k : Nat) (x : Chan) : (s.setChan c n x).thr k = s.thr k := rfl
@[simp] theorem State.result_cl (s : State) (t : Nat) (gd : Reg) (v : W64) (k : Nat) : (s.result t gd v).cl k = s.cl k := rfl
@[simp] theorem State.updTr_cl (s : State) (t : Nat) (f : ThrRun → ThrRun) (k : Nat) : (s.updTr t f).cl k = s.cl k := rfl

@[simp] theorem State.updTask_task (s : State) (c : Nat) (f : TaskSt → TaskSt) : ((s.updTask c f).cl c).task = f (s.cl c).task :=
  congrArg ClusterSt.task (s.updCl_cl c _)

@[simp] theorem State.setChan_chan (s : State) (c n : Nat) (x : Chan) : (s.setChan c n x).chan c n = x := by
  rw [State.chan, State.setChan, State.updCl_cl]
  exact SMap.get_set_self ..

/-! ### An instruction read through its own thread -/

section

variable {u : State} {t : Nat} (calm : (u.tr t).stepLeft = none)
include calm

/-- The issue marks change the threads' runs alone. -/
theorem State.issued_cl (k : Nat) : (u.issued t).cl k = u.cl k := by
  rw [u.issued_calm t calm, State.updTr_cl]

theorem State.issued_thr (k : Nat) : (u.issued t).thr k = u.thr k := by
  rw [u.issued_calm t calm, State.updTr_thr]

end

/-- The state in which an instruction acts is in no debug step. -/
theorem fetchLine_calm {s : State} {t : Nat} (h : s.issues t) : ((s.fetchLine t).tr t).stepLeft = none := by
  rw [s.fetchLine_tr]
  exact State.issues_calm h

/-- What an instruction that has acted shows of its own thread. -/
theorem acts_on_thread {s u : State} {i : Instr} {t : Nat} (acts : exec i s = .next (u.issued t))
    (calm : (u.tr t).stepLeft = none) : ∃ w, exec i s = .next w ∧ w.thr t = u.thr t :=
  ⟨_, acts, (State.issued_keeps calm).2.1⟩

/-! ### Traps in program mode (R278-R281) -/

section

variable (u : State) (t c : Nat) (detail addr tepc : W64)

theorem State.enterHandler_thr : (u.enterHandler t c detail addr tepc).thr t = { u.thr t with
    tepc := tepc, tcause := BitVec.ofNat 8 c, tdetail := detail, taddr := addr, handler := true, pc := u.vector t c } := by
  unfold State.enterHandler
  rw [State.updTr_thr, State.updThr_thr, (u.traceRec_wakeStep ..).thr]

theorem State.enterHandler_stepLeft : ((u.enterHandler t c detail addr tepc).tr t).stepLeft = (u.tr t).stepLeft := by
  unfold State.enterHandler
  rw [State.updTr_tr]
  exact (congrArg ThrRun.stepLeft ((u.traceRec_wakeStep t 1 c (u.thr t).pc).tr t) :)

end

/-- An instruction whose effect is a trap enters the handler when its thread runs the program and the cause has a vector. -/
theorem enters_of_trap {s : State} {i : Instr} {t : Nat} {x : Trap} (h : s.issues t) (program : (s.thr t).handler = false)
    (acts : exec i s = .next (((s.fetchLine t).trap t x).issued t)) (vector : s.vector t x.cause.code ≠ 0) :
    ∃ u, exec i s = .next u ∧ Claims.entersHandler s u t x.cause.code x.detail x.addr := by
  have entered : (s.fetchLine t).trap t x
      = (s.fetchLine t).enterHandler t x.cause.code x.detail x.addr (s.thr t).pc := by
    unfold State.trap
    dsimp only
    rw [s.fetchLine_thr, s.fetchLine_vector]
    exact if_pos (by simpa [program] using vector)
  rw [entered] at acts
  obtain ⟨u, hu, thr⟩ := acts_on_thread acts (by
    rw [State.enterHandler_stepLeft, s.fetchLine_tr]
    exact State.issues_calm h)
  rw [State.enterHandler_thr, s.fetchLine_thr, s.fetchLine_vector] at thr
  refine ⟨u, hu, ?_⟩
  simp only [Claims.entersHandler, State.reg, thr, true_and]
  exact fun _ => rfl

end Sys2Proof.Machine
end

section
/-!
PROOFS. O1: the ALU and field forms (R294-R296). Each row of the statement's tables names one operation of the model: that operation
computes what the row says, and the instruction does that operation.
-/

namespace Sys2Proof.Machine

/-! ### Comparisons, minima and maxima (R294) -/

theorem bit_decide (p : Prop) [Decidable p] : bit (decide p) = if p then 1 else 0 := by
  unfold bit
  by_cases h : p
  · rw [if_pos h, decide_eq_true h, if_pos rfl]
  · rw [if_neg h, decide_eq_false h]
    rfl

theorem bit_decide_ne (a b : W64) : bit (a ≠ b) = if a = b then 0 else 1 := by
  rw [bit_decide]
  exact ite_not ..

theorem bit_not_getLsbD (a : W64) (k : Nat) : bit (!a.getLsbD k) = 1 - Claims.bitAt a k := by
  unfold Claims.bitAt
  cases a.getLsbD k with
  | false => rfl
  | true => rfl

/-- Of two equal numbers either is the smaller and either the larger. -/
theorem ite_slt {a b x y : W64} (tie : a = b → x = y) :
    (if a.slt b then x else y) = if a.toInt ≤ b.toInt then x else y := by
  simp only [BitVec.slt_iff_toInt_lt]
  split
  · rw [if_pos (by omega)]
  · split
    · exact (tie (BitVec.eq_of_toInt_eq (by omega))).symm
    · rfl

theorem ite_ult {a b x y : W64} (tie : a = b → x = y) :
    (if a.ult b then x else y) = if a.toNat ≤ b.toNat then x else y := by
  simp only [BitVec.ult_iff_toNat_lt]
  split
  · rw [if_pos (by omega)]
  · split
    · exact (tie (BitVec.eq_of_toNat_eq (by omega))).symm
    · rfl

/-! ### Rotation, counts of bits and zeros (R294) -/

theorem rotr64_eq (a : W64) {n : Nat} (h : n < 64) : rotr64 a n = a.rotateRight n := by
  unfold rotr64 BitVec.rotateRight BitVec.rotateRightAux
  rw [Nat.mod_eq_of_lt h]
  by_cases zero : n = 0
  · subst zero
    simp
  · rw [Nat.mod_eq_of_lt (by omega : 64 - n < 64)]

theorem foldl_bitAt (a : W64) (l : List Nat) (z : W64) : (l.map (Claims.bitAt a)).foldl (· + ·) z
    = z + BitVec.ofNat 64 (l.filter fun k => a.getLsbD k).length := by
  induction l generalizing z with
  | nil => simp
  | cons k rest ih =>
    rw [List.map_cons, List.foldl_cons, ih, Claims.bitAt]
    cases h : a.getLsbD k with
    | false => rw [List.filter_cons_of_neg (by simp [h])]; simp
    | true =>
      rw [List.filter_cons_of_pos h, List.length_cons, Nat.add_comm _ 1, BitVec.ofNat_add, ← BitVec.add_assoc]
      rfl

theorem popCount_eq (a : W64) : BitVec.ofNat 64 (popCount a) = ((List.range 64).map (Claims.bitAt a)).foldl (· + ·) 0 := by
  rw [foldl_bitAt, popCount]
  exact (BitVec.zero_add _).symm

/-- The zeros before the first 1, by the search for its place. -/
theorem find_zerosBefore (a : W64) (g : Nat → Nat) (k m : Nat) :
    (List.range' k (m + 1)).find? (fun n => n = k + m || a.getLsbD (g n))
      = some (k + zerosBefore a ((List.range' k m).map g)) := by
  induction m generalizing k with
  | zero => simp [List.range', zerosBefore]
  | succ m ih =>
    rw [List.range'_succ (n := m + 1)]
    rw [List.range'_succ (s := k) (n := m), List.map_cons, List.find?_cons, zerosBefore]
    cases h : a.getLsbD (g k) with
    | true => simp
    | false =>
      have later := ih (k + 1)
      rw [show k + 1 + m = k + (m + 1) by omega] at later
      simp [later]
      omega

theorem clz_eq (a : W64) : zerosBefore a (List.range 64).reverse = Claims.leadingZeros a := by
  have downward : (List.range 64).reverse = (List.range' 0 64).map (63 - ·) := by decide
  have found := find_zerosBefore a (63 - ·) 0 64
  rw [← List.range_eq_range', Nat.zero_add, Nat.zero_add] at found
  rw [downward, Claims.leadingZeros, found, Option.getD_some]

theorem ctz_eq (a : W64) : zerosBefore a (List.range 64) = Claims.trailingZeros a := by
  have found := find_zerosBefore a id 0 64
  rw [← List.range_eq_range', Nat.zero_add, Nat.zero_add, List.map_id] at found
  rw [Claims.trailingZeros]
  simp only [id] at found
  rw [found, Option.getD_some, List.range_eq_range']

/-! ### Byte swaps (R294) -/

/-- A byte below a number, in a word. -/
theorem ofNat_byte_below (b : Byte) (n : Nat) :
    BitVec.ofNat 64 (b.toNat + 256 * n) = (BitVec.ofNat 64 n <<< 8) ||| b.setWidth 64 := by
  have apart : (BitVec.ofNat 64 n <<< 8) &&& b.setWidth 64 = 0#64 := by
    apply BitVec.eq_of_getLsbD_eq
    intro i hi
    by_cases low : i < 8
    · simp [low]
    · simp [BitVec.getLsbD_of_ge b i (by omega)]
  rw [← BitVec.add_eq_or_of_and_eq_zero _ _ apart]
  apply BitVec.eq_of_toNat_eq
  simp [Nat.shiftLeft_eq]
  omega

theorem byteAt_eq (a : W64) (k : Nat) : Claims.byteAt a k = (BitVec.ofNat 8 (a.toNat / 256 ^ k)).setWidth 64 := by
  have power : 2 ^ (8 * k) = 256 ^ k := by rw [Nat.pow_mul]
  apply BitVec.eq_of_toNat_eq
  rw [Claims.byteAt, BitVec.toNat_and, BitVec.toNat_ushiftRight, Nat.shiftRight_eq_div_pow, power,
    show (0xFF : W64).toNat = 2 ^ 8 - 1 from rfl, Nat.and_two_pow_sub_one_eq_mod, BitVec.toNat_setWidth, BitVec.toNat_ofNat]
  omega

theorem bswap16_eq (a : W64) : BitVec.ofNat 64 (beVal (leBytes 2 a.toNat)) = (Claims.byteAt a 0 <<< 8) ||| Claims.byteAt a 1 := by
  simp only [beVal, leBytes, List.range, List.range.loop, List.map, List.reverse_cons, List.reverse_nil, List.nil_append,
    List.cons_append, leVal, ofNat_byte_below, byteAt_eq]
  simp

theorem bswap32_eq (a : W64) : BitVec.ofNat 64 (beVal (leBytes 4 a.toNat)) = (Claims.byteAt a 0 <<< 24)
    ||| (Claims.byteAt a 1 <<< 16) ||| (Claims.byteAt a 2 <<< 8) ||| Claims.byteAt a 3 := by
  simp only [beVal, leBytes, List.range, List.range.loop, List.map, List.reverse_cons, List.reverse_nil, List.nil_append,
    List.cons_append, leVal, ofNat_byte_below, byteAt_eq, BitVec.shiftLeft_or_distrib, ← BitVec.shiftLeft_add]
  simp

theorem bswap64_eq (a : W64) : rev64 a = (Claims.byteAt a 0 <<< 56) ||| (Claims.byteAt a 1 <<< 48) ||| (Claims.byteAt a 2 <<< 40)
    ||| (Claims.byteAt a 3 <<< 32) ||| (Claims.byteAt a 4 <<< 24) ||| (Claims.byteAt a 5 <<< 16) ||| (Claims.byteAt a 6 <<< 8)
    ||| Claims.byteAt a 7 := by
  simp only [rev64, beVal, leBytes, List.range, List.range.loop, List.map, List.reverse_cons, List.reverse_nil, List.nil_append,
    List.cons_append, leVal, ofNat_byte_below, byteAt_eq, BitVec.shiftLeft_or_distrib, ← BitVec.shiftLeft_add]
  simp

/-! ### Fields (R296) -/

theorem ones_getLsbD {len i : Nat} (hi : i < 64) : (Claims.ones len).getLsbD i = decide (i < len) := by
  rw [Claims.ones, BitVec.getLsbD_ofNat, Nat.testBit_two_pow_sub_one]
  simp [hi]

/-- Shifted up to the top and back down, a field shows its own bits and above them its topmost one. -/
theorem signed_getLsbD (a : W64) {pos len i : Nat} (hi : i < 64) (some : 1 ≤ len) (fits : pos + len ≤ 64) :
    (((a >>> pos) <<< (64 - len)).sshiftRight (64 - len)).getLsbD i
      = if i < len then a.getLsbD (pos + i) else a.getLsbD (pos + len - 1) := by
  simp only [BitVec.getLsbD_sshiftRight, BitVec.msb_eq_getLsbD_last, BitVec.getLsbD_shiftLeft, BitVec.getLsbD_ushiftRight]
  by_cases low : i < len
  · have place : 64 - len + i - (64 - len) = i := by omega
    have inside : 64 - len + i < 64 := by omega
    simp [low, place, inside, hi]
  · have place : pos + (64 - 1 - (64 - len)) = pos + len - 1 := by omega
    have outside : ¬ 64 - len + i < 64 := by omega
    have top : ¬ 64 - 1 < 64 - len := by omega
    simp only [low, place, outside, top, if_false, decide_false, Bool.not_false, Bool.and_true, Bool.true_and,
      decide_eq_false (Nat.not_le.2 hi), show decide (64 - 1 < 64) = true from rfl]

theorem exts_eq (a : W64) {pos len : Nat} (some : 1 ≤ len) (fits : pos + len ≤ 64) :
    ((a >>> pos) <<< (64 - len)).sshiftRight (64 - len)
      = if a.getLsbD (pos + len - 1) then ((a >>> pos) &&& Claims.ones len) ||| ~~~Claims.ones len
        else (a >>> pos) &&& Claims.ones len := by
  apply BitVec.eq_of_getLsbD_eq
  intro i hi
  rw [signed_getLsbD a hi some fits]
  cases sign : a.getLsbD (pos + len - 1) with
  | false =>
    rw [if_neg Bool.false_ne_true, BitVec.getLsbD_and, BitVec.getLsbD_ushiftRight, ones_getLsbD hi]
    by_cases low : i < len
    · simp [low]
    · simp [low]
  | true =>
    rw [if_pos rfl, BitVec.getLsbD_or, BitVec.getLsbD_and, BitVec.getLsbD_not, BitVec.getLsbD_ushiftRight, ones_getLsbD hi]
    by_cases low : i < len
    · simp [low]
    · simp [low, hi]

/-! ### Rows of the tables and their operations (R294-R296) -/

theorem low32_eq (a : W64) : (a.setWidth 32).signExtend 64 = (a.extractLsb' 0 32).signExtend 64 := by
  rw [BitVec.setWidth_eq_extractLsb' (by decide)]

theorem aluRows_ops : ∀ p ∈ Claims.aluRows, ∃ f : Alu,
    (∀ t gd ga gb s, exec (p.1 t gd ga gb) s = execAlu t f gd ga (.reg gb) s) ∧ ∀ a b d, f.eval a b d = p.2 a b := by
  simp only [Claims.aluRows, List.forall_mem_cons, List.not_mem_nil, false_implies, implies_true, and_true]
  have amount (b : W64) : b.toNat % 64 < 64 := Nat.mod_lt _ (by decide)
  exact ⟨⟨.add, fun _ _ _ _ _ => rfl, fun _ _ _ => rfl⟩, ⟨.sub, fun _ _ _ _ _ => rfl, fun _ _ _ => rfl⟩,
    ⟨.and, fun _ _ _ _ _ => rfl, fun _ _ _ => rfl⟩, ⟨.or, fun _ _ _ _ _ => rfl, fun _ _ _ => rfl⟩,
    ⟨.xor, fun _ _ _ _ _ => rfl, fun _ _ _ => rfl⟩, ⟨.andn, fun _ _ _ _ _ => rfl, fun _ _ _ => rfl⟩,
    ⟨.addw, fun _ _ _ _ _ => rfl, fun a b _ => low32_eq (a + b)⟩, ⟨.subw, fun _ _ _ _ _ => rfl, fun a b _ => low32_eq (a - b)⟩,
    ⟨.sll, fun _ _ _ _ _ => rfl, fun _ _ _ => rfl⟩, ⟨.srl, fun _ _ _ _ _ => rfl, fun _ _ _ => rfl⟩,
    ⟨.sra, fun _ _ _ _ _ => rfl, fun _ _ _ => rfl⟩, ⟨.ror, fun _ _ _ _ _ => rfl, fun a b _ => rotr64_eq a (amount b)⟩,
    ⟨.ceq, fun _ _ _ _ _ => rfl, fun _ _ _ => bit_decide _⟩, ⟨.cne, fun _ _ _ _ _ => rfl, fun a b _ => bit_decide_ne a b⟩,
    ⟨.clt, fun _ _ _ _ _ => rfl, fun _ _ _ => bit_decide _⟩, ⟨.cltu, fun _ _ _ _ _ => rfl, fun _ _ _ => bit_decide _⟩,
    ⟨.cle, fun _ _ _ _ _ => rfl, fun _ _ _ => bit_decide _⟩, ⟨.cleu, fun _ _ _ _ _ => rfl, fun _ _ _ => bit_decide _⟩,
    ⟨.cbs, fun _ _ _ _ _ => rfl, fun _ _ _ => rfl⟩, ⟨.cbc, fun _ _ _ _ _ => rfl, fun a _ _ => bit_not_getLsbD a _⟩,
    ⟨.min, fun _ _ _ _ _ => rfl, fun _ _ _ => ite_slt id⟩, ⟨.max, fun _ _ _ _ _ => rfl, fun _ _ _ => ite_slt Eq.symm⟩,
    ⟨.minu, fun _ _ _ _ _ => rfl, fun _ _ _ => ite_ult id⟩, ⟨.maxu, fun _ _ _ _ _ => rfl, fun _ _ _ => ite_ult Eq.symm⟩,
    ⟨.mul, fun _ _ _ _ _ => rfl, fun _ _ _ => rfl⟩, ⟨.mulhu, fun _ _ _ _ _ => rfl, fun _ _ _ => rfl⟩,
    ⟨.mulh, fun _ _ _ _ _ => rfl, fun _ _ _ => rfl⟩⟩

theorem aluRows1_ops : ∀ p ∈ Claims.aluRows1, ∃ f : Alu,
    (∀ t gd ga s, exec (p.1 t gd ga) s = execAlu t f gd ga (.imm 0) s) ∧ ∀ a d, f.eval a 0 d = p.2 a := by
  simp only [Claims.aluRows1, List.forall_mem_cons, List.not_mem_nil, false_implies, implies_true, and_true]
  exact ⟨⟨.bswap16, fun _ _ _ _ => rfl, fun a _ => bswap16_eq a⟩, ⟨.bswap32, fun _ _ _ _ => rfl, fun a _ => bswap32_eq a⟩,
    ⟨.bswap64, fun _ _ _ _ => rfl, fun a _ => bswap64_eq a⟩, ⟨.popc, fun _ _ _ _ => rfl, fun a _ => popCount_eq a⟩,
    ⟨.clz, fun _ _ _ _ => rfl, fun a _ => congrArg (BitVec.ofNat 64) (clz_eq a)⟩,
    ⟨.ctz, fun _ _ _ _ => rfl, fun a _ => congrArg (BitVec.ofNat 64) (ctz_eq a)⟩⟩

/-- A 16-bit immediate is extended with its sign or with zeros, as its row says. -/
theorem immRows_ops : ∀ p ∈ Claims.immRows, ∃ (f : Alu) (ext : BitVec 16 → W64),
    (∀ t gd ga i s, exec (p.1 t gd ga i) s = execAlu t f gd ga (.imm (ext i)) s) ∧ ∀ a i d, f.eval a (ext i) d = p.2 a i := by
  simp only [Claims.immRows, List.forall_mem_cons, List.not_mem_nil, false_implies, implies_true, and_true]
  have below (a : W64) (i : BitVec 16) : bit (a.ult (zext i)) = if a.toNat < i.toNat then 1 else 0 := by
    rw [BitVec.ult, bit_decide, zext, BitVec.toNat_setWidth_of_le (by decide)]
  exact ⟨⟨.add, sext, fun _ _ _ _ _ => rfl, fun _ _ _ => rfl⟩, ⟨.and, zext, fun _ _ _ _ _ => rfl, fun _ _ _ => rfl⟩,
    ⟨.or, zext, fun _ _ _ _ _ => rfl, fun _ _ _ => rfl⟩, ⟨.xor, zext, fun _ _ _ _ _ => rfl, fun _ _ _ => rfl⟩,
    ⟨.shlor, zext, fun _ _ _ _ _ => rfl, fun _ _ _ => rfl⟩, ⟨.ceq, sext, fun _ _ _ _ _ => rfl, fun _ _ _ => bit_decide _⟩,
    ⟨.cne, sext, fun _ _ _ _ _ => rfl, fun a i _ => bit_decide_ne a (sext i)⟩,
    ⟨.clt, sext, fun _ _ _ _ _ => rfl, fun _ _ _ => bit_decide _⟩, ⟨.cltu, zext, fun _ _ _ _ _ => rfl, fun a i _ => below a i⟩⟩

theorem amtRows_ops : ∀ p ∈ Claims.amtRows, ∃ f : Alu,
    (∀ t gd ga n s, exec (p.1 t gd ga n) s = execAlu t f gd ga (.imm (n.setWidth 64)) s)
      ∧ ∀ a (n : BitVec 6) d, f.eval a (n.setWidth 64) d = p.2 a n.toNat := by
  simp only [Claims.amtRows, List.forall_mem_cons, List.not_mem_nil, false_implies, implies_true, and_true]
  have amount (n : BitVec 6) : (n.setWidth 64 : W64).toNat % 64 = n.toNat := by
    rw [BitVec.toNat_setWidth_of_le (by decide), Nat.mod_eq_of_lt n.isLt]
  exact ⟨⟨.sll, fun _ _ _ _ _ => rfl, fun a n _ => congrArg (a <<< ·) (amount n)⟩,
    ⟨.srl, fun _ _ _ _ _ => rfl, fun a n _ => congrArg (a >>> ·) (amount n)⟩,
    ⟨.sra, fun _ _ _ _ _ => rfl, fun a n _ => congrArg a.sshiftRight (amount n)⟩,
    ⟨.ror, fun _ _ _ _ _ => rfl, fun a n _ => (congrArg (rotr64 a) (amount n)).trans (rotr64_eq a n.isLt)⟩,
    ⟨.cbs, fun _ _ _ _ _ => rfl, fun a n _ => congrArg (Claims.bitAt a) (amount n)⟩,
    ⟨.cbc, fun _ _ _ _ _ => rfl, fun a n _ => (congrArg (fun k => bit (!a.getLsbD k)) (amount n)).trans (bit_not_getLsbD a _)⟩⟩

theorem fieldRows_ops : ∀ p ∈ Claims.fieldRows, ∃ (major : Nat) (f : Nat → Nat → Alu) (signed : Bool),
    (∀ t gd ga pos len s, exec (p.1 t gd ga pos len) s = execField t major f gd ga pos len signed s)
      ∧ ∀ a d pos len, 1 ≤ len → pos + len ≤ 64 → (f pos len).eval a 0 d = p.2 a d pos len := by
  simp only [Claims.fieldRows, List.forall_mem_cons, List.not_mem_nil, false_implies, implies_true, and_true]
  exact ⟨⟨0x0C, .extu, false, fun _ _ _ _ _ _ => rfl, fun _ _ _ _ _ _ => rfl⟩,
    ⟨0x0C, .exts, true, fun _ _ _ _ _ _ => rfl, fun a _ _ _ => exts_eq a⟩,
    ⟨0x0D, .ins, false, fun _ _ _ _ _ _ => rfl, fun _ _ _ _ _ _ => rfl⟩⟩

/-! ### The instructions -/

section

variable {s : State} {t : Nat} (h : s.issues t)
include h

theorem execAlu_completes {i : Instr} {f : Alu} {gd ga : Reg} {b : Src} (does : exec i s = execAlu t f gd ga b s) :
    Claims.completes s i t gd (f.eval (s.reg t ga) (b.val s t) (s.reg t gd)) := by
  have operand : b.val (s.fetchLine t) t = b.val s t := by
    cases b with
    | reg gb => exact s.fetchLine_reg t t gb
    | imm v => rfl
  refine completes_of_result h (does.trans ?_)
  unfold execAlu
  refine issueRegs_some s t _ _ _ h ?_
  rw [State.aluVal, s.fetchLine_reg, s.fetchLine_reg, operand]

/-- A field past bit 63 traps with UNDEF_INSTR (R296). -/
theorem execField_traps {i : Instr} {major : Nat} {f : Nat → Nat → Alu} {gd ga : Reg} {pos len : BitVec 6} {signed : Bool}
    (does : exec i s = execField t major f gd ga pos len signed s) (past : 64 < pos.toNat + len.toNat + 1)
    (program : (s.thr t).handler = false) (vector : s.vector t 1 ≠ 0) : ∃ u, exec i s = .next u
      ∧ Claims.entersHandler s u t 1 ((wordI major gd ga (fieldImm pos len signed)).setWidth 64) 0 := by
  refine enters_of_trap (x := undef (wordI major gd ga (fieldImm pos len signed))) h program (does.trans ?_) vector
  unfold execField
  rw [if_pos past]
  exact issue_acts h rfl

end

/-- Settles O1: every row completes with what its operation computes, and a field past bit 63 traps. -/
theorem aluForms : Obligations.AluForms := by
  unfold Obligations.AluForms
  refine ⟨?_, ?_, ⟨?_, ?_⟩, ?_⟩
  · intro p hp s t gd ga gb h
    obtain ⟨f, does, computes⟩ := aluRows_ops p hp
    exact computes _ _ _ ▸ execAlu_completes h (does t gd ga gb s)
  · intro p hp s t gd ga h
    obtain ⟨f, does, computes⟩ := aluRows1_ops p hp
    exact computes _ _ ▸ execAlu_completes h (does t gd ga s)
  · intro p hp s t gd ga imm h
    obtain ⟨f, ext, does, computes⟩ := immRows_ops p hp
    exact computes _ _ _ ▸ execAlu_completes h (does t gd ga imm s)
  · intro p hp s t gd ga amt h
    obtain ⟨f, does, computes⟩ := amtRows_ops p hp
    exact computes _ _ _ ▸ execAlu_completes h (does t gd ga amt s)
  · intro p hp s t gd ga pos lenm1 h
    obtain ⟨major, f, signed, does, computes⟩ := fieldRows_ops p hp
    refine ⟨fun fits => ?_, fun past program vector => ?_⟩
    · have inside : exec (p.1 t gd ga pos lenm1) s = execAlu t (f pos.toNat (lenm1.toNat + 1)) gd ga (.imm 0) s :=
        (does t gd ga pos lenm1 s).trans (if_neg (Nat.not_lt.2 fits))
      exact computes _ _ pos.toNat (lenm1.toNat + 1) (Nat.le_add_left ..) fits ▸ execAlu_completes h inside
    · obtain ⟨u, acts, handler, pc, tepc, cause, -, -, regs⟩ := execField_traps h (does t gd ga pos lenm1 s) past program vector
      exact ⟨u, acts, handler, pc, cause, tepc, regs⟩

end Sys2Proof.Machine
end

section
/-!
PROOFS. O2: branches, jumps and the link register (R294, R297).
-/

namespace Sys2Proof.Machine

/-! ### Branches and jumps -/

theorem State.advance_thr (s : State) (t : Nat) : (s.advance t).thr t = { s.thr t with pc := (s.thr t).pc + 4 } := s.updThr_thr t _

theorem branchTo_eq (pc : W64) {w : Nat} (off : BitVec w) : branchTo pc off = pc + off.signExtend 64 * 4 := by
  rw [branchTo, BitVec.shiftLeft_eq_mul_twoPow]
  rfl

section

variable (s : State) (t : Nat)

theorem State.goto_thr (pc : W64) : (s.goto t pc).thr t = { s.thr t with pc := pc } := by
  rw [State.goto, (State.traceRec_wakeStep ..).thr, State.updThr_thr]

theorem State.goto_tr (pc : W64) (k : Nat) : (s.goto t pc).tr k = s.tr k := (State.traceRec_wakeStep ..).tr k

theorem State.branchIf_thr (c : Bool) (off : BitVec 21) : (s.branchIf t c off).thr t
    = { s.thr t with pc := if c then (s.thr t).pc + off.signExtend 64 * 4 else (s.thr t).pc + 4 } := by
  unfold State.branchIf
  cases c with
  | true => exact (s.goto_thr t _).trans (by rw [branchTo_eq]; rfl)
  | false => exact s.advance_thr t

theorem State.branchIf_tr (c : Bool) (off : BitVec 21) (k : Nat) : (s.branchIf t c off).tr k = s.tr k := by
  unfold State.branchIf
  cases c with
  | true => exact s.goto_tr t _ k
  | false => rfl

end

theorem State.jump_aligned {s : State} {t : Nat} {target : W64} (aligned : target.toNat % 4 = 0) (link : Bool) :
    (s.jump t target link).thr t
        = { s.thr t with pc := target, lk := if link then (s.thr t).pc + 4 else (s.thr t).lk }
      ∧ (s.jump t target link).tr t = s.tr t := by
  unfold State.jump
  rw [if_neg (not_not_intro aligned), State.goto_thr, State.updThr_thr, State.goto_tr]
  exact ⟨rfl, rfl⟩

section

variable {s : State} {t : Nat} (h : s.issues t)
include h

/-- An instruction that goes somewhere, by the thread it leaves. -/
theorem goes_of_thr {u : State} {i : Instr} {target link : W64} (acts : exec i s = .next (u.issued t))
    (tr : u.tr t = (s.fetchLine t).tr t) (thr : u.thr t = { (s.fetchLine t).thr t with pc := target, lk := link }) :
    ∃ u, exec i s = .next u ∧ (u.thr t).pc = target ∧ (u.thr t).lk = link ∧ ∀ r, u.reg t r = s.reg t r := by
  obtain ⟨w, hw, same⟩ := acts_on_thread acts (by rw [tr, s.fetchLine_tr]; exact State.issues_calm h)
  rw [thr, s.fetchLine_thr] at same
  refine ⟨w, hw, by rw [same], by rw [same], fun r => ?_⟩
  rw [State.reg, same]
  rfl

theorem jump_goes {i : Instr} {target : W64} {link : Bool} (aligned : target.toNat % 4 = 0)
    (acts : exec i s = .next (((s.fetchLine t).jump t target link).issued t)) :
    ∃ u, exec i s = .next u ∧ (u.thr t).pc = target
      ∧ (u.thr t).lk = (if link then (s.thr t).pc + 4 else (s.thr t).lk) ∧ ∀ r, u.reg t r = s.reg t r := by
  obtain ⟨thr, tr⟩ := State.jump_aligned (s := s.fetchLine t) (t := t) aligned link
  refine goes_of_thr h acts tr (thr.trans ?_)
  rw [s.fetchLine_thr]

theorem bz_acts (ga : Reg) (off : BitVec 21) :
    exec (.bz t ga off) s = .next (((s.fetchLine t).branchIf t (s.reg t ga = 0) off).issued t) := by
  change execBz t ga off s = _
  refine issueRegs_some s t _ _ _ h ?_
  rw [s.fetchLine_reg]

theorem bnz_acts (ga : Reg) (off : BitVec 21) :
    exec (.bnz t ga off) s = .next (((s.fetchLine t).branchIf t (s.reg t ga ≠ 0) off).issued t) := by
  change execBnz t ga off s = _
  refine issueRegs_some s t _ _ _ h ?_
  rw [s.fetchLine_reg]

theorem br_acts (off : BitVec 26) :
    exec (.br t off) s = .next (((s.fetchLine t).goto t (branchTo (s.thr t).pc off)).issued t) := by
  change execBr t off s = _
  refine issue_acts h ?_
  rw [s.fetchLine_thr]

theorem call_acts (off : BitVec 26) : exec (.call t off) s
    = .next ((((s.fetchLine t).updThr t fun x => { x with lk := x.pc + 4 }).goto t (branchTo (s.thr t).pc off)).issued t) := by
  change execCall t off s = _
  refine issue_acts h ?_
  rw [s.fetchLine_thr]

theorem jr_acts (ga : Reg) : exec (.jr t ga) s = .next (((s.fetchLine t).jump t (s.reg t ga) false).issued t) := by
  change execJr t ga s = _
  refine issueRegs_some s t _ _ _ h ?_
  rw [s.fetchLine_reg]

theorem jrl_acts (ga : Reg) : exec (.jrl t ga) s = .next (((s.fetchLine t).jump t (s.reg t ga) true).issued t) := by
  change execJrl t ga s = _
  refine issueRegs_some s t _ _ _ h ?_
  rw [s.fetchLine_reg]

theorem retI_acts : exec (.retI t) s = .next (((s.fetchLine t).jump t (s.thr t).lk false).issued t) := by
  change execRetI t s = _
  refine issue_acts h ?_
  rw [s.fetchLine_thr]

theorem jlk_acts : exec (.jlk t) s = .next (((s.fetchLine t).jump t (s.thr t).lk true).issued t) := by
  change execJlk t s = _
  refine issue_acts h ?_
  rw [s.fetchLine_thr]

theorem rdlk_acts (gd : Reg) : exec (.rdlk t gd) s = .next (((s.fetchLine t).result t gd (s.thr t).lk).issued t) := by
  change execRdlk t gd s = _
  refine issueRegs_some s t _ _ _ h ?_
  rw [s.fetchLine_thr]

theorem wrlk_acts (ga : Reg) : exec (.wrlk t ga) s
    = .next ((((s.fetchLine t).updThr t fun x => { x with lk := x.get ga }).advance t).issued t) := by
  change execWrlk t ga s = _
  refine issueRegs_some s t _ _ _ h ?_
  rfl

end

/-- Settles O2: each instruction by the thread it leaves. -/
theorem branchesAndLink : Obligations.BranchesAndLink := by
  unfold Obligations.BranchesAndLink
  intro s t h
  have fetched := s.fetchLine_thr t t
  refine ⟨fun ga off => ?_, fun ga off => ?_, fun off => ?_, fun off => ?_, fun ga aligned => ⟨?_, ?_⟩, fun aligned => ⟨?_, ?_⟩,
    fun gd => ?_, fun ga => ?_⟩
  · refine goes_of_thr h (bz_acts h ga off) (State.branchIf_tr ..) ((State.branchIf_thr ..).trans ?_)
    rw [fetched]
    simp only [decide_eq_true_eq]
  · refine goes_of_thr h (bnz_acts h ga off) (State.branchIf_tr ..) ((State.branchIf_thr ..).trans ?_)
    rw [fetched]
    simp only [decide_eq_true_eq, ite_not]
  · refine goes_of_thr h (br_acts h off) (State.goto_tr ..) ((State.goto_thr ..).trans ?_)
    rw [branchTo_eq, fetched]
  · refine goes_of_thr h (call_acts h off) (State.goto_tr ..) ((State.goto_thr ..).trans ?_)
    rw [branchTo_eq, State.updThr_thr, fetched]
  · exact jump_goes h aligned (jr_acts h ga)
  · exact jump_goes h aligned (jrl_acts h ga)
  · exact jump_goes h aligned (retI_acts h)
  · exact jump_goes h aligned (jlk_acts h)
  · exact completes_of_result h (rdlk_acts h gd)
  · refine goes_of_thr h (wrlk_acts h ga) rfl ((State.advance_thr ..).trans ?_)
    rw [State.updThr_thr, fetched]
    rfl

end Sys2Proof.Machine
end

section
/-!
PROOFS. O3: the traps of a program with a vector (R278-R280, R297, R299, R325-R327).
-/

namespace Sys2Proof.Machine

/-- With no breakpoint set in its cluster no access is watched (R567). -/
theorem State.watch_idle {s : State} {t : Nat} (h : (s.cl (clusterOf t)).breaks = []) (a : Nat) (store : Bool) :
    s.watch t a store = none := by
  unfold State.watch
  rw [h]
  exact ite_self _

theorem jump_misaligned {s : State} {t : Nat} {target : W64} (h : target.toNat % 4 ≠ 0) (link : Bool) :
    s.jump t target link = s.trap t ⟨.align, 0, target⟩ := if_pos h

/-- Majors 0x33 to 0x37 are of units that are not fitted (R292, R326). -/
theorem usothDecode_unfitted (t : Nat) {w : W32} (from33 : 0x33 ≤ wMajor w) (to37 : wMajor w ≤ 0x37) :
    usothDecode t w 0 = .undef := by
  unfold usothDecode
  generalize wMajor w = major at from33 to37
  interval_cases major
  all_goals rfl

section

variable {s : State} {t : Nat} (h : s.issues t) (program : (s.thr t).handler = false)
include h program

theorem breakI_enters (code : BitVec 15) (vector : s.vector t 10 ≠ 0) :
    ∃ u, exec (.breakI t code) s = .next u ∧ Claims.entersHandler s u t 10 (code.setWidth 64) 0 := by
  refine enters_of_trap (x := ⟨.brk, code.setWidth 64, 0⟩) h program ?_ vector
  change execBreakI t code s = _
  exact issue_acts h rfl

theorem undef_enters {w : W32} (unknown : usothDecode t w 0 = .undef) (vector : s.vector t 1 ≠ 0) :
    ∃ u, exec (.coprocUnfitted t w) s = .next u ∧ Claims.entersHandler s u t 1 (w.setWidth 64) 0 := by
  refine enters_of_trap (x := undef w) h program ?_ vector
  change execCoprocUnfitted t w s = _
  unfold execCoprocUnfitted
  rw [unknown]
  exact issue_acts h rfl

theorem refused_enters {w : W32} {k : Nat} (unknown : usothDecode t w 0 = .refused k) (vector : s.vector t 2 ≠ 0) :
    ∃ u, exec (.coprocUnfitted t w) s = .next u ∧ Claims.entersHandler s u t 2 (BitVec.ofNat 64 (k + 256)) 0 := by
  refine enters_of_trap (x := refused k 1) h program ?_ vector
  change execCoprocUnfitted t w s = _
  unfold execCoprocUnfitted
  rw [unknown]
  exact issue_acts h rfl

theorem jump_enters {i : Instr} {target : W64} {link : Bool} (unaligned : target.toNat % 4 ≠ 0)
    (acts : exec i s = .next (((s.fetchLine t).jump t target link).issued t)) (vector : s.vector t 4 ≠ 0) :
    ∃ u, exec i s = .next u ∧ Claims.entersHandler s u t 4 0 target :=
  enters_of_trap (x := ⟨.align, 0, target⟩) h program (jump_misaligned unaligned link ▸ acts) vector

variable {gd ga : Reg} {imm : BitVec 16} (quiet : (s.cl (clusterOf t)).breaks = [])
include quiet

theorem load_enters {i : Instr} {k : LdKind} {err : Option CoreArray} {n : Nat} (unaligned : (s.reg t ga + imm.signExtend 64).toNat % n ≠ 0)
    (does : exec i s = execLoad t k gd ga imm err s) (size : k.size = n) (vector : s.vector t 4 ≠ 0) :
    ∃ u, exec i s = .next u ∧ Claims.entersHandler s u t 4 0 (s.reg t ga + imm.signExtend 64) := by
  refine enters_of_trap (x := ⟨.align, 0, s.reg t ga + imm.signExtend 64⟩) h program (does.trans ?_) vector
  unfold execLoad
  refine issueRegsLate_some s t _ _ _ _ h ?_
  dsimp only
  rw [State.watch_idle (by rw [s.fetchLine_breaks, quiet]), s.fetchLine_reg, size]
  exact if_pos unaligned

theorem store_enters {i : Instr} {k : StKind} {n : Nat} (unaligned : (s.reg t ga + imm.signExtend 64).toNat % n ≠ 0)
    (does : exec i s = execStore t k gd ga imm s) (size : k.size = n) (vector : s.vector t 4 ≠ 0) :
    ∃ u, exec i s = .next u ∧ Claims.entersHandler s u t 4 0 (s.reg t ga + imm.signExtend 64) := by
  refine enters_of_trap (x := ⟨.align, 0, s.reg t ga + imm.signExtend 64⟩) h program (does.trans ?_) vector
  unfold execStore
  refine issueRegs_some s t _ _ _ h ?_
  dsimp only
  rw [State.watch_idle (by rw [s.fetchLine_breaks, quiet]), s.fetchLine_reg, size]
  exact if_pos unaligned

end

/-- Settles O3: each trap by the lemma about what raises it. -/
theorem trapEntry : Obligations.TrapEntry := by
  unfold Obligations.TrapEntry
  intro s t h program
  refine ⟨breakI_enters h program, fun w => undef_enters h program, fun w => usothDecode_unfitted t,
    fun w k => refused_enters h program, fun ga unaligned => ⟨?_, ?_⟩, fun gd ga imm k quiet unaligned => ⟨?_, ?_, ?_⟩⟩
  · exact jump_enters h program unaligned (jr_acts h ga)
  · exact jump_enters h program unaligned (jrl_acts h ga)
  · rintro rfl
    simp only [List.forall_mem_cons, List.not_mem_nil, false_implies, implies_true, and_true]
    exact ⟨load_enters (k := .h) (gd := gd) (err := none) h program quiet unaligned rfl rfl, load_enters (k := .hu) (gd := gd) (err := none) h program quiet unaligned rfl rfl,
      load_enters (k := .hn) (gd := gd) (err := none) h program quiet unaligned rfl rfl, store_enters (k := ⟨2, false⟩) (gd := gd) h program quiet unaligned rfl rfl,
      store_enters (k := ⟨2, true⟩) (gd := gd) h program quiet unaligned rfl rfl⟩
  · rintro rfl
    simp only [List.forall_mem_cons, List.not_mem_nil, false_implies, implies_true, and_true]
    exact ⟨load_enters (k := .w) (gd := gd) (err := none) h program quiet unaligned rfl rfl, load_enters (k := .wu) (gd := gd) (err := none) h program quiet unaligned rfl rfl,
      load_enters (k := .wn) (gd := gd) (err := none) h program quiet unaligned rfl rfl, store_enters (k := ⟨4, false⟩) (gd := gd) h program quiet unaligned rfl rfl,
      store_enters (k := ⟨4, true⟩) (gd := gd) h program quiet unaligned rfl rfl⟩
  · rintro rfl
    simp only [List.forall_mem_cons, List.not_mem_nil, false_implies, implies_true, and_true]
    exact ⟨load_enters (k := .d) (gd := gd) (err := none) h program quiet unaligned rfl rfl, load_enters (k := .dn) (gd := gd) (err := none) h program quiet unaligned rfl rfl,
      store_enters (k := ⟨8, false⟩) (gd := gd) h program quiet unaligned rfl rfl, store_enters (k := ⟨8, true⟩) (gd := gd) h program quiet unaligned rfl rfl⟩

end Sys2Proof.Machine
end

section
/-!
PROOFS. O4: the special registers and TRET (R277, R281, R283, R323, R324, R359).
-/

namespace Sys2Proof.Machine

/-- The fetch changes no special register. -/
theorem State.fetchLine_special (s : State) (t n : Nat) : (s.fetchLine t).special t n = s.special t n := by
  have clock : (s.fetchLine t).time = s.time ∧ (s.fetchLine t).locks = s.locks := by
    obtain ⟨_, _, _, frame⟩ := s.fetchLine_frame t
    rw [frame]
    exact ⟨rfl, rfl⟩
  obtain ⟨_, _, _, _, core⟩ := s.fetchLine_core t (coreOf t)
  simp only [State.special, State.isPool, State.jslots, State.wdrem, State.locksHeld, State.locksOf, s.fetchLine_owner,
    s.fetchLine_thr, s.fetchLine_tr, core, clock]
  rfl

/-- A trap save register takes the value (R283). -/
theorem Thr.setSpecial_tsave (x : Thr) {n : Nat} (v : W64) (from10 : 0x10 ≤ n) (to13 : n ≤ 0x13) :
    x.setSpecial n v = { x with tsave := SMap.set 0 x.tsave (n - 0x10) v } := by
  interval_cases n
  all_goals rfl

theorem State.special_tsave (s : State) (t : Nat) {n : Nat} (from10 : 0x10 ≤ n) (to13 : n ≤ 0x13) :
    s.special t n = SMap.get 0 (s.thr t).tsave (n - 0x10) := by
  interval_cases n
  all_goals rfl

/-- TRET resumes the program at TEPC (R281). -/
def State.resumed (s : State) (t : Nat) : State :=
  let s1 := s.updThr t fun x => { x with handler := false, pc := x.tepc }
  if (s.thr t).tcause = 7 then
    s1.updTr (s.owner t) fun x => if x.wdGrace then { x with wdBudget := 4096, wdCount := 0 } else x
  else s1

theorem State.resumed_thr (s : State) (t : Nat) :
    (s.resumed t).thr t = { s.thr t with handler := false, pc := (s.thr t).tepc } := by
  unfold State.resumed
  dsimp only
  split
  · rw [State.updTr_thr, State.updThr_thr]
  · rw [State.updThr_thr]

theorem State.resumed_stepLeft (s : State) (t : Nat) : ((s.resumed t).tr t).stepLeft = (s.tr t).stepLeft := by
  unfold State.resumed
  dsimp only
  split
  · by_cases own : t = s.owner t
    · rw [← own, State.updTr_tr]
      split
      · rfl
      · rfl
    · rw [State.updTr_tr_ne _ _ own]
      rfl
  · rfl

section

variable {s : State} {t : Nat} (h : s.issues t) {n : BitVec 8}
include h

/-- A handler's register is the program's when the thread is in its handler. -/
theorem mfs_completes (known : specialReg n.toNat = true) (may : handlerReg n.toNat = false ∨ (s.thr t).handler = true)
    (gd : Reg) : Claims.completes s (.mfs t gd n) t gd (s.special t n.toNat) := by
  refine completes_of_result h ?_
  change execMfs t gd n s = _
  unfold execMfs
  refine issueRegs_some s t _ _ _ h ?_
  rw [if_neg (by simp [known]), s.fetchLine_thr, if_neg (by obtain may | may := may <;> simp [may]), s.fetchLine_special]

theorem mts_writes (known : specialReg n.toNat = true) (may : handlerReg n.toNat = false ∨ (s.thr t).handler = true)
    (free : n.toNat ≠ 0x0C) (gd : Reg) : ∃ u, exec (.mts t gd n) s = .next u
      ∧ u.thr t = { (s.thr t).setSpecial n.toNat (s.reg t gd) with pc := ((s.thr t).setSpecial n.toNat (s.reg t gd)).pc + 4 } := by
  have acts : exec (.mts t gd n) s
      = .next ((((s.fetchLine t).updThr t fun x => x.setSpecial n.toNat (s.reg t gd)).advance t).issued t) := by
    change execMts t gd n s = _
    unfold execMts
    refine issueRegs_some s t _ _ _ h ?_
    rw [if_neg (by simp [known]), s.fetchLine_thr, if_neg (by obtain may | may := may <;> simp [may]), if_neg (by simp [free]), s.fetchLine_reg]
  obtain ⟨u, hu, thr⟩ := acts_on_thread acts (by
    rw [State.advance_tr]
    exact (congrArg ThrRun.stepLeft (s.fetchLine_tr t t)).trans (State.issues_calm h))
  exact ⟨u, hu, by rw [thr, State.advance_thr, State.updThr_thr, s.fetchLine_thr]⟩

theorem tret_resumes (handler : (s.thr t).handler = true) : ∃ u, exec (.tret t) s = .next u
    ∧ u.thr t = { s.thr t with handler := false, pc := (s.thr t).tepc } := by
  have acts : exec (.tret t) s = .next (((s.fetchLine t).resumed t).issued t) := by
    change execTret t s = _
    unfold execTret
    refine issue_acts h ?_
    rw [s.fetchLine_thr, if_neg (by simp [handler]), State.resumed, s.fetchLine_thr]
  obtain ⟨u, hu, thr⟩ := acts_on_thread acts (by
    rw [State.resumed_stepLeft, s.fetchLine_tr]
    exact State.issues_calm h)
  exact ⟨u, hu, by rw [thr, State.resumed_thr, s.fetchLine_thr]⟩

/-! ### In program mode (R324) -/

section

variable (program : (s.thr t).handler = false) (vector : s.vector t 5 ≠ 0)
include program vector

theorem mode_enters {i : Instr} (acts : exec i s = .next (((s.fetchLine t).trap t badMode).issued t)) :
    ∃ u, exec i s = .next u ∧ Claims.entersHandler s u t 5 3 0 := enters_of_trap (x := badMode) h program acts vector

theorem mfs_enters (known : specialReg n.toNat = true) (own : handlerReg n.toNat = true) (gd : Reg) :
    ∃ u, exec (.mfs t gd n) s = .next u ∧ Claims.entersHandler s u t 5 3 0 := by
  refine mode_enters h program vector ?_
  change execMfs t gd n s = _
  unfold execMfs
  refine issueRegs_some s t _ _ _ h ?_
  rw [if_neg (by simp [known]), s.fetchLine_thr]
  exact if_pos (by simp [own, program])

theorem mts_enters (known : specialReg n.toNat = true) (own : handlerReg n.toNat = true) (gd : Reg) :
    ∃ u, exec (.mts t gd n) s = .next u ∧ Claims.entersHandler s u t 5 3 0 := by
  refine mode_enters h program vector ?_
  change execMts t gd n s = _
  unfold execMts
  refine issueRegs_some s t _ _ _ h ?_
  rw [if_neg (by simp [known]), s.fetchLine_thr]
  exact if_pos (by simp [own, program])

theorem tret_enters : ∃ u, exec (.tret t) s = .next u ∧ Claims.entersHandler s u t 5 3 0 := by
  refine mode_enters h program vector ?_
  change execTret t s = _
  unfold execTret
  refine issue_acts h ?_
  rw [s.fetchLine_thr]
  exact if_pos (by simp [program])

end

end

/-- The handler's registers (R283). -/
theorem handlerRegs : ∀ n ∈ [(0x08 : BitVec 8), 0x09, 0x0A, 0x0B, 0x0C, 0x10, 0x11, 0x12, 0x13],
    specialReg n.toNat = true ∧ handlerReg n.toNat = true := by decide

theorem specialReg_tsave {n : Nat} (from10 : 0x10 ≤ n) (to13 : n ≤ 0x13) : specialReg n = true := by
  simp [specialReg, handlerReg, from10, to13]

/-- Settles O4: each register through the rule of MFS or MTS. -/
theorem specialRegisters : Obligations.SpecialRegisters := by
  unfold Obligations.SpecialRegisters
  intro s t h
  refine ⟨fun gd => ⟨?_, ?_, ?_, ?_, ?_, ?_⟩, ?_, fun handler => ⟨?_, ?_, ?_, ?_⟩, ?_, fun program vector => ?_⟩
  · exact mfs_completes h rfl (.inl rfl) gd
  · exact mfs_completes h rfl (.inl rfl) gd
  · exact mfs_completes h rfl (.inl rfl) gd
  · exact mfs_completes h rfl (.inl rfl) gd
  · exact mfs_completes h rfl (.inl rfl) gd
  · exact mfs_completes h rfl (.inl rfl) gd
  · rintro gd _ rfl
    exact ⟨mts_writes h rfl (.inl rfl) (by decide) gd, mts_writes h rfl (.inl rfl) (by decide) gd, mts_writes h rfl (.inl rfl) (by decide) gd,
      mts_writes h rfl (.inl rfl) (by decide) gd, mts_writes h rfl (.inl rfl) (by decide) gd⟩
  · exact fun gd => ⟨mfs_completes h rfl (.inr handler) gd, mfs_completes h rfl (.inr handler) gd,
      mfs_completes h rfl (.inr handler) gd, mfs_completes h rfl (.inr handler) gd⟩
  · intro gd n from10 to13
    have known := specialReg_tsave from10 to13
    refine ⟨State.special_tsave s t from10 to13 ▸ mfs_completes h known (.inr handler) gd, ?_⟩
    obtain ⟨u, hu, thr⟩ := mts_writes h known (.inr handler) (by omega) gd
    rw [Thr.setSpecial_tsave _ _ from10 to13] at thr
    exact ⟨u, hu, by rw [thr]; exact SMap.get_set_self .., by rw [thr]⟩
  · exact mts_writes h rfl (.inr handler) (by decide)
  · exact tret_resumes h handler
  · intro program vector gd n hn
    obtain ⟨known, own⟩ := handlerRegs n hn
    exact ⟨mfs_enters h program vector known own gd, mts_enters h program vector known own gd⟩
  · exact tret_enters h program vector

end Sys2Proof.Machine
end

section
/-!
PROOFS. O6: the stores of R299. Like O16 it asks of every state that a store to writable HBM acts on memory, and no hypothesis bounds
the scratch ways of the cluster; where the scratch region reaches into the cached view a store to an address in both goes to scratch.
-/

namespace Sys2Proof.Machine

/-- A store to cluster scratch enters the cluster's scratch at once, and no store buffer. -/
theorem execStore_scratch {s : State} {t : Nat} {gd ga : Reg} {imm : BitVec 16} {k : StKind} (h : s.issues t)
    (quiet : (s.cl (clusterOf t)).breaks = []) (aligned : Claims.ea s t ga imm % k.size = 0) (drained : (s.tr t).sb = [])
    (room : s.sbRoom t = true) (place : (s.fetchLine t).mreg t (Claims.ea s t ga imm) = some .clScratch) :
    execStore t k gd ga imm s = .next ((((s.fetchLine t).clWrite (clusterOf t) (Claims.ea s t ga imm - 0x1000000000)
      (k.bytes (s.reg t gd))).advance t).issued t) := by
  have address : (s.reg t ga + sext imm).toNat = Claims.ea s t ga imm := rfl
  unfold execStore
  refine issueRegs_some s t _ _ _ h ?_
  dsimp only
  rw [State.watch_idle (by rw [s.fetchLine_breaks, quiet]), s.fetchLine_reg, s.fetchLine_reg, address,
    if_neg (not_not_intro aligned), State.memStore, place]
  simp only [State.inOrder, s.fetchLine_tr, s.fetchLine_sbRoom, drained, room, List.isEmpty_nil, Bool.and_self, if_true]

/-- `scratchOverHbm` with the line of its instruction in the L1I. -/
def fetchedOverHbm : State := { scratchOverHbm with cores := [(0, { l1i := [(64 % 128 * 4, 65)] })] }

theorem fetchedOverHbm_issues : fetchedOverHbm.issues 0 := by
  unfold State.issues
  decide

theorem fetchedOverHbm_sb : exec (.sb 0 0 1 0) fetchedOverHbm
    = .next ((((fetchedOverHbm.fetchLine 0).clWrite 0 (Claims.ea fetchedOverHbm 0 1 0 - 0x1000000000) [0]).advance 0).issued 0) := by
  have place : (fetchedOverHbm.fetchLine 0).mreg 0 (Claims.ea fetchedOverHbm 0 1 0) = some .clScratch := by decide +kernel
  exact execStore_scratch (k := ⟨1, false⟩) fetchedOverHbm_issues rfl (Nat.mod_one _) rfl (by decide) place

/-- Refutes O6: in `fetchedOverHbm` SB to byte 0x2000 of cached HBM goes to cluster scratch, and not to the store buffer. -/
theorem not_stores : ¬ Obligations.Stores := by
  unfold Obligations.Stores
  rintro ⟨-, -, cached⟩
  have row := cached (Instr.sb, 1, fun v k => (v >>> (8 * k)).setWidth 8) List.mem_cons_self
  have writable : ∃ r, fetchedOverHbm.mem.region 0x2000 = some r ∧ r.right = 3 := ⟨⟨0, 0, 0x10000, 0, 3⟩, by decide, rfl⟩
  have hits : fetchedOverHbm.fetchHits 0 := by
    unfold State.fetchHits
    decide
  obtain ⟨u, acts, -, waits, -⟩ := row fetchedOverHbm 0 0 1 0 0x2000 fetchedOverHbm_issues hits rfl (by decide) (Nat.mod_one _)
    (by decide) writable (by decide) rfl
  obtain rfl := Host.Outcome.next.inj (fetchedOverHbm_sb.symm.trans acts)
  have idle : (((fetchedOverHbm.fetchLine 0).clWrite 0 (Claims.ea fetchedOverHbm 0 1 0 - 0x1000000000) [0]).advance 0).tr 0
      = fetchedOverHbm.tr 0 := fetchedOverHbm.fetchLine_tr 0 0
  rw [State.issued_calm _ 0 (by rw [idle]; rfl), State.updTr_tr, idle] at waits
  exact absurd waits (by decide)

end Sys2Proof.Machine
end

section
/-!
PROOFS. O5: the loads of R299, and rules of thread scratch (R247, R276): what a load reads there.
-/

namespace Sys2Proof.Machine

/-! ### Thread scratch (R247) -/

theorem State.issues_curPkt {s : State} {t : Nat} (h : s.issues t) : (s.curPkt t).isSome = true := by
  obtain ⟨ready, -, -, -, -⟩ := h
  simp only [State.ready, Bool.and_eq_true] at ready
  exact ready.1.1.2

theorem State.issues_lkps {s : State} {t : Nat} (h : s.issues t) : (s.tr t).lkps = [] := by
  obtain ⟨-, -, -, lkps, -⟩ := h
  exact lkps

theorem State.curPkt_fetchLine (s : State) (t k : Nat) : (s.fetchLine t).curPkt k = s.curPkt k := by
  rw [State.curPkt, s.fetchLine_owner, s.fetchLine_tr, State.curPkt]

theorem State.scr_fetchLine (s : State) (t k : Nat) : (s.fetchLine t).scr k = s.scr k := by
  obtain ⟨-, -, scratch, -⟩ := s.fetchLine_reads t
  rw [State.scr, scratch, State.scr]

/-- With no lookup outstanding no access meets a result area (R311). -/
theorem State.lkpOverlap_idle {s : State} {t : Nat} (h : (s.tr t).lkps = []) (a n : Nat) : s.lkpOverlap t a n = false := by
  rw [State.lkpOverlap, h]
  rfl

theorem State.scratchPoisoned_clean {s : State} {t : Nat} (h : (s.scr (s.owner t)).poison = []) (a n : Nat) :
    s.scratchPoisoned t a n = false := by
  rw [State.scratchPoisoned, h]
  rfl

/-- Bytes of thread scratch that a thread may load: in its run, none poisoned, no lookup outstanding. -/
structure State.CleanScratch (s : State) (t a n : Nat) : Prop where
  run : (s.curPkt t).isSome = true
  lkps : (s.tr t).lkps = []
  clean : (s.scr (s.owner t)).poison = []
  low : 0x4000 ≤ a
  high : a + n ≤ 0x8000

theorem State.mreg_local (s : State) (t : Nat) {a : Nat} (h : a < 0x10000) : s.mreg t a = some .localView := if_pos h

theorem State.CleanScratch.memLoad {s : State} {t a n : Nat} (h : s.CleanScratch t a n) :
    s.memLoad t a n = .ok (s.scratchBytes t a n) s := by
  obtain ⟨run, lkps, clean, low, high⟩ := h
  obtain ⟨p, cur⟩ := Option.isSome_iff_exists.1 run
  have inside : inScratch a n = true := by simp [inScratch, low, high]
  rw [State.memLoad, s.mreg_local t (by omega), State.localRead, cur]
  dsimp only
  rw [State.lkpOverlap_idle lkps, if_neg Bool.false_ne_true, if_neg (by omega), if_neg (by omega), if_neg (by omega),
    if_pos inside, State.scratchPoisoned_clean clean, if_neg Bool.false_ne_true]

theorem State.fetchLine_cleanScratch {s : State} {t a n : Nat} (h : s.issues t) (clean : (s.scr (s.owner t)).poison = [])
    (low : 0x4000 ≤ a) (high : a + n ≤ 0x8000) : (s.fetchLine t).CleanScratch t a n where
  run := by rw [State.curPkt_fetchLine]; exact State.issues_curPkt h
  lkps := by rw [s.fetchLine_tr]; exact State.issues_lkps h
  clean := by rw [State.scr_fetchLine, s.fetchLine_owner]; exact clean
  low := low
  high := high

theorem State.scratchBytes_eq (s : State) (t a n : Nat) : s.scratchBytes t a n = Claims.scratchRun s t a n := rfl

theorem State.fetchLine_scratchRun (s : State) (t a n : Nat) :
    Claims.scratchRun (s.fetchLine t) t a n = Claims.scratchRun s t a n := by
  simp only [Claims.scratchRun, Claims.scratchAt, State.scr_fetchLine, s.fetchLine_owner]

/-! ### Values (R299) -/

theorem leVal_foldr (bs : List Byte) : leVal bs = bs.foldr (fun b n => b.toNat + 256 * n) 0 := by
  induction bs with
  | nil => rfl
  | cons b rest ih => rw [leVal, ih, List.foldr_cons]

theorem beVal_foldl (bs : List Byte) : beVal bs = bs.foldl (fun n b => b.toNat + 256 * n) 0 := by
  rw [beVal, leVal_foldr, List.foldr_reverse]

/-- Each row is a load of the model with its size and its value. -/
theorem loadRows_kinds : ∀ p ∈ Claims.loadRows, ∃ k : LdKind, k.size = p.2.1
    ∧ (∀ t gd ga i s, exec (p.1 t gd ga i) s = execLoad t k gd ga i none s) ∧ ∀ bs, k.value bs = p.2.2 bs := by
  simp only [Claims.loadRows, List.forall_mem_cons, List.not_mem_nil, false_implies, implies_true, and_true, ← leVal_foldr,
    ← beVal_foldl]
  have signed (n w : Nat) (h : w ≤ 64) : (BitVec.ofNat w n).signExtend 64 = ((BitVec.ofNat 64 n).setWidth w).signExtend 64 := by
    rw [BitVec.setWidth_ofNat_of_le h]
  exact ⟨⟨.b, rfl, fun _ _ _ _ _ => rfl, fun _ => signed _ 8 (by decide)⟩, ⟨.bu, rfl, fun _ _ _ _ _ => rfl, fun _ => rfl⟩,
    ⟨.h, rfl, fun _ _ _ _ _ => rfl, fun _ => signed _ 16 (by decide)⟩, ⟨.hu, rfl, fun _ _ _ _ _ => rfl, fun _ => rfl⟩,
    ⟨.w, rfl, fun _ _ _ _ _ => rfl, fun _ => signed _ 32 (by decide)⟩, ⟨.wu, rfl, fun _ _ _ _ _ => rfl, fun _ => rfl⟩,
    ⟨.d, rfl, fun _ _ _ _ _ => rfl, fun _ => rfl⟩, ⟨.hn, rfl, fun _ _ _ _ _ => rfl, fun _ => rfl⟩,
    ⟨.wn, rfl, fun _ _ _ _ _ => rfl, fun _ => rfl⟩, ⟨.dn, rfl, fun _ _ _ _ _ => rfl, fun _ => rfl⟩⟩

/-! ### The loads -/

/-- A load that its memory answers gives its register the value of the bytes. -/
theorem execLoad_answered {s v : State} {t : Nat} {k : LdKind} {gd ga : Reg} {imm : BitVec 16} {bs : List Byte} (h : s.issues t)
    (quiet : (s.cl (clusterOf t)).breaks = []) (aligned : Claims.ea s t ga imm % k.size = 0)
    (answer : (s.fetchLine t).memLoad t (Claims.ea s t ga imm) k.size = .ok bs v) :
    execLoad t k gd ga imm none s = .next ((v.result t gd (k.value bs)).issued t) := by
  have address : (s.reg t ga + sext imm).toNat = Claims.ea s t ga imm := rfl
  unfold execLoad
  refine issueRegsLate_some s t _ _ _ _ h ?_
  dsimp only
  rw [State.watch_idle (by rw [s.fetchLine_breaks, quiet]), s.fetchLine_reg, address, if_neg (not_not_intro aligned), answer]

/-- Settles O5: a load by what its memory answers, and scratch answers with its bytes. -/
theorem loads : Obligations.Loads := by
  unfold Obligations.Loads
  refine ⟨fun p hp s t gd ga imm h range => ?_, fun p hp s t gd ga imm bs v h quiet aligned answer calm _ => ?_⟩
  · obtain ⟨k, size, does, value⟩ := loadRows_kinds p hp
    obtain ⟨low, high, aligned, clean, quiet⟩ := range
    have answer := (State.fetchLine_cleanScratch h clean low high).memLoad
    rw [State.scratchBytes_eq, s.fetchLine_scratchRun] at answer
    rw [← size] at aligned answer ⊢
    rw [← value]
    exact completes_of_result h ((does t gd ga imm s).trans (execLoad_answered h quiet aligned answer))
  · obtain ⟨k, size, does, value⟩ := loadRows_kinds p hp
    rw [← size] at aligned answer
    obtain ⟨u, acts, thr⟩ := acts_on_thread ((does t gd ga imm s).trans (execLoad_answered (gd := gd) h quiet aligned answer)) calm
    refine ⟨u, acts, ?_, fun r hr => ?_, by rw [thr, State.result_thr]⟩
    · rw [State.reg, thr, ← value]
      exact State.result_reg ..
    · rw [State.reg, thr]
      exact State.result_reg_ne _ _ _ hr

end Sys2Proof.Machine
end

section
/-!
PROOFS. O7: the journal instructions (R203-R207, R259, R309, R313-R317): what each appends once its operands and the journal's room are
checked, and an addition that merges.
-/

namespace Sys2Proof.Machine

/-! ### Fields of an operand and values in scratch -/

theorem fld_eq_bits (a : W64) (lo n : Nat) : fld a lo n = Claims.bits a lo n := by
  rw [fld, Claims.bits, BitVec.extractLsb'_toNat, Nat.shiftRight_eq_div_pow]

theorem leVal_range (f : Nat → Byte) (n : Nat) :
    leVal ((List.range n).map f) = ((List.range n).map fun k => (f k).toNat * 256 ^ k).sum := by
  induction n generalizing f with
  | zero => rfl
  | succ n ih =>
    simp only [List.range_succ_eq_map, List.map_cons, List.map_map, leVal, List.sum_cons, Function.comp_def, Nat.pow_zero,
      Nat.mul_one, Nat.pow_succ]
    rw [ih fun k => f (k + 1)]
    simp only [← List.sum_map_mul_left, Nat.mul_comm, Nat.mul_left_comm]

theorem leVal_scratchRun (s : State) (t a n : Nat) : leVal (Claims.scratchRun s t a n) = Claims.scratchVal s t a n :=
  leVal_range _ n

theorem State.fetchLine_scratchVal (s : State) (t a n : Nat) :
    Claims.scratchVal (s.fetchLine t) t a n = Claims.scratchVal s t a n := by
  rw [← leVal_scratchRun, s.fetchLine_scratchRun, leVal_scratchRun]

theorem State.scratchWords_eq (s : State) (t a n : Nat) :
    s.scratchWords t a n = (List.range n).map fun k => BitVec.ofNat 64 (Claims.scratchVal s t (a + 8 * k) 8) := by
  simp only [State.scratchWords, State.scratchBytes_eq, leVal_scratchRun]

/-! ### An instruction that changes the journal and gives a slot index (R203, R309) -/

/-- Its run is changed, its register written, and its PC moves on. -/
theorem journal_acts {s : State} {i : Instr} {t : Nat} {gd : Reg} {v : W64} {f : RunSt → RunSt} (h : s.issues t)
    (acts : exec i s = .next ((((s.fetchLine t).updRun t f).result t gd v).issued t)) :
    ∃ u, exec i s = .next u ∧ (u.tr t).run = f (s.tr t).run ∧ u.reg t gd = (if gd = 0 then 0 else v)
      ∧ (u.thr t).pc = (s.thr t).pc + 4 ∧ ∀ r, r ≠ gd → u.reg t r = s.reg t r := by
  have tr : (((s.fetchLine t).updRun t f).result t gd v).tr t = { s.tr t with run := f (s.tr t).run } := by
    rw [State.result_tr, State.updRun_tr, s.fetchLine_tr]
  obtain ⟨-, thr, run, -, -⟩ := State.issued_keeps (u := ((s.fetchLine t).updRun t f).result t gd v) (t := t)
    (by rw [tr]; exact State.issues_calm h)
  refine ⟨_, acts, by rw [run, tr], ?_, ?_, fun r hr => ?_⟩
  · rw [State.reg, thr]
    exact State.result_reg ..
  · rw [thr, State.result_thr, ← s.fetchLine_thr t t]
    rfl
  · rw [State.reg, thr]
    exact (State.result_reg_ne _ _ _ hr).trans (s.fetchLine_reg t t r)

theorem appends_of_acts {s : State} {i : Instr} {t : Nat} {gd : Reg} {need copies : Nat} {e : JEntry} (h : s.issues t)
    (acts : exec i s = .next (((s.fetchLine t).append t gd need copies e).issued t)) :
    Claims.appends s i t gd e need copies := by
  rw [State.append, s.fetchLine_tr] at acts
  obtain ⟨u, hu, run, value, pc, others⟩ := journal_acts h acts
  exact ⟨u, hu, by rw [run], by rw [run], by rw [run], value, pc, others⟩

/-! ### The checks of a journal instruction (R207, R259, R276, R279, R309, R311) -/

section

variable {s : State} {t : Nat} (h : s.issues t) (work : (s.tr t).parent = none)
include h work

theorem journalFrom_acts {rs : List Reg} {ok : State → Bool} {full : State → Option Nat} {src : State → Nat × Nat}
    {body : State → State} (well : ok (s.fetchLine t) = true) (room : full (s.fetchLine t) = none)
    (clean : (src (s.fetchLine t)).2 = 0 ∨ (s.scr (s.owner t)).poison = []) :
    journalFrom t rs ok full src body s = .next ((body (s.fetchLine t)).issued t) := by
  unfold journalFrom
  refine issueRegs_some s t _ _ _ h ?_
  have unread : ¬((src (s.fetchLine t)).2 ≠ 0 ∧ (s.fetchLine t).scratchPoisoned t (src (s.fetchLine t)).1 (src (s.fetchLine t)).2
      = true) := by
    rintro ⟨reads, poisoned⟩
    obtain none | clean := clean
    · exact reads none
    · rw [State.scratchPoisoned_clean (by rw [State.scr_fetchLine, s.fetchLine_owner]; exact clean)] at poisoned
      cases poisoned
  rw [s.fetchLine_tr, work, if_neg (by decide), well, if_neg (by decide),
    if_neg (by simp [State.lkpOverlap_idle (show ((s.fetchLine t).tr t).lkps = [] by
      rw [s.fetchLine_tr]; exact State.issues_lkps h)]), room]
  exact if_neg unread

theorem journalOp_acts {rs : List Reg} {ok : State → Bool} {full : State → Option Nat}
    {body : State → State} (well : ok (s.fetchLine t) = true) (room : full (s.fetchLine t) = none) :
    journalOp t rs ok full body s = .next ((body (s.fetchLine t)).issued t) :=
  journalFrom_acts h work well room (.inl rfl)

end

/-- A journal with slots and copies to spare is not full (R207). -/
theorem State.full_none {s : State} {t need : Nat} (room : Claims.hasRoom s t need) (copies : Nat) :
    (s.fetchLine t).full t need copies = none := by
  obtain ⟨-, slots, below⟩ := room
  rw [State.full, s.fetchLine_tr, if_neg (by omega), if_neg (by omega)]

/-! ### JEMIT (R205, R313) -/

theorem State.fetchLine_egress (s : State) (t : Nat) : (s.fetchLine t).egress = s.egress := by
  obtain ⟨_, _, _, frame⟩ := s.fetchLine_frame t
  rw [frame]

/-- A field of one bit is 0 or 1. -/
theorem bits_one (a : W64) (lo : Nat) : Claims.bits a lo 1 = 0 ∨ Claims.bits a lo 1 = 1 := by
  have := (a.extractLsb' lo 1).isLt
  unfold Claims.bits
  omega

/-- The conditions on the operands of JEMIT, in the statement's terms. -/
structure EmitFields (a : W64) (b : Nat) : Prop where
  handle : Claims.bits a 0 32 < 524288
  group : Claims.bits a 48 1 = 1 → Claims.bits a 32 16 < 16384
  edits : Claims.bits a 51 5 ≤ 16
  slots : Claims.bits a 56 5 ≤ 16
  ext : Claims.bits a 56 5 + Claims.bits a 50 1 ≤ 16
  zero : Claims.bits a 61 3 = 0
  none : Claims.bits a 56 5 + Claims.bits a 50 1 = 0 → b = 0
  block : Claims.bits a 56 5 + Claims.bits a 50 1 ≠ 0 →
    b % 16 = 0 ∧ 0x4000 ≤ b ∧ b + 16 * (Claims.bits a 56 5 + Claims.bits a 50 1) ≤ 0x8000

theorem EmitFields.emitOk {a b : W64} (h : EmitFields a b.toNat) : emitOk a b = true := by
  obtain ⟨handle, group, edits, slots, ext, zero, none, block⟩ := h
  have copies : Claims.bits a 48 1 = 0 ∨ Claims.bits a 32 16 < 16384 := (bits_one a 48).imp_right group
  have source : (if Claims.bits a 56 5 + Claims.bits a 50 1 = 0 then decide (b.toNat = 0)
      else decide (b.toNat % 16 = 0) && inScratch b.toNat (16 * (Claims.bits a 56 5 + Claims.bits a 50 1))) = true := by
    split
    · next zero => exact decide_eq_true (none zero)
    · next some =>
      obtain ⟨aligned, low, high⟩ := block some
      simp [inScratch, aligned, low, high]
  unfold Machine.emitOk emitExt
  simp only [fld_eq_bits]
  rw [source]
  simp [handle, copies, edits, slots, ext, zero]

/-- The number of a group is the low 14 bits of a port field that holds no more (R313). -/
theorem EmitFields.emitCopies {a : W64} {b : Nat} (h : EmitFields a b) (s : State) : s.emitCopies a
    = if Claims.bits a 48 1 = 1 then (SMap.get [] s.egress.mcGroups (Claims.bits a 32 16)).length else 1 := by
  rw [State.emitCopies, fld_eq_bits]
  split
  · next multi =>
    have small := h.group multi
    have same : fld a 32 14 = Claims.bits a 32 16 := by
      rw [← fld_eq_bits, fld] at small ⊢
      rw [fld]
      omega
    rw [same]
  · rfl

theorem State.emitEntry_eq (s : State) (t : Nat) (a b : W64) : (s.fetchLine t).emitEntry t a b
    = .emit (s.tr t).run.used (Claims.bits a 0 32) (Claims.bits a 32 16) (Claims.bits a 48 1 = 1) (Claims.bits a 49 1 = 1)
      (if Claims.bits a 50 1 = 1 then some (Claims.scratchVal s t b.toNat 8) else none) (Claims.bits a 51 5)
      (Claims.scratchRun s t (if Claims.bits a 50 1 = 1 then b.toNat + 16 else b.toNat) (16 * Claims.bits a 56 5)) := by
  simp only [State.emitEntry, fld_eq_bits, State.scratchBytes_eq, leVal_scratchRun, s.fetchLine_scratchRun,
    s.fetchLine_tr]

theorem jemit_appends {s : State} {t : Nat} {gd ga gb : Reg} (h : s.issues t)
    (room : Claims.hasRoom s t (1 + emitExt (s.reg t ga))) (fields : EmitFields (s.reg t ga) (s.reg t gb).toNat)
    (clean : (s.scr (s.owner t)).poison = []) :
    Claims.appends s (.jemit t gd ga gb) t gd ((s.fetchLine t).emitEntry t (s.reg t ga) (s.reg t gb))
      (1 + emitExt (s.reg t ga)) ((s.fetchLine t).emitCopies (s.reg t ga)) := by
  refine appends_of_acts h ?_
  change execJemit t gd ga gb s = _
  unfold execJemit
  rw [journalFrom_acts h room.1]
  · rw [s.fetchLine_reg, s.fetchLine_reg]
  · rw [s.fetchLine_reg, s.fetchLine_reg]
    exact fields.emitOk
  · rw [s.fetchLine_reg]
    exact State.full_none room _
  · exact .inr clean

/-! ### JDELIV, JFREE, JTBL (R314, R316, R317) -/

section

variable {s : State} {t : Nat} {gd ga gb : Reg} (h : s.issues t)
include h

theorem jdeliv_appends (room : Claims.hasRoom s t 1) (handle : Claims.bits (s.reg t ga) 0 32 < 524288)
    (zeroA : Claims.bits (s.reg t ga) 40 24 = 0) (zeroB : Claims.bits (s.reg t gb) 30 34 = 0)
    (limit : Claims.bits (s.reg t gb) 16 14 = 0
      ∨ (64 ≤ Claims.bits (s.reg t gb) 16 14 ∧ Claims.bits (s.reg t gb) 16 14 ≤ 10240)) :
    Claims.appends s (.jdeliv t gd ga gb) t gd
      (.deliver (s.tr t).run.used (Claims.bits (s.reg t ga) 0 32) (Claims.bits (s.reg t ga) 32 1 = 1)
        (Claims.bits (s.reg t ga) 33 1 = 1) (Claims.bits (s.reg t ga) 34 6) (Claims.bits (s.reg t gb) 0 16)
        (Claims.bits (s.reg t gb) 16 14)) 1 1 := by
  refine appends_of_acts h ?_
  change execJdeliv t gd ga gb s = _
  unfold execJdeliv
  rw [journalOp_acts h room.1]
  · simp only [s.fetchLine_reg, s.fetchLine_tr, fld_eq_bits]
  · simp only [s.fetchLine_reg, delivOk, fld_eq_bits]
    simp [handle, zeroA, zeroB, limit]
  · exact State.full_none room _

theorem jfree_appends (room : Claims.hasRoom s t 1) (zero : Claims.bits (s.reg t ga) 32 32 = 0) :
    Claims.appends s (.jfree t gd ga) t gd (.free (s.tr t).run.used (Claims.bits (s.reg t ga) 0 32)) 1 0 := by
  refine appends_of_acts h ?_
  change execJfree t gd ga s = _
  unfold execJfree
  rw [journalOp_acts h room.1]
  · simp only [s.fetchLine_reg, s.fetchLine_tr, fld_eq_bits]
  · simpa only [s.fetchLine_reg, fld_eq_bits, decide_eq_true_eq] using zero
  · exact State.full_none room _

theorem jtbl_appends (well : tblOk (s.reg t ga) (s.reg t gb) = true)
    (room : Claims.hasRoom s t (1 + tblExt (s.reg t ga))) (clean : (s.scr (s.owner t)).poison = []) :
    Claims.appends s (.jtbl t gd ga gb) t gd
      (.table (s.tr t).run.used (fld (s.reg t ga) 0 12) (fld (s.reg t ga) 12 4) (fld (s.reg t ga) 16 4) (fld (s.reg t ga) 20 4)
        (s.scratchWords t (s.reg t gb).toNat (fld (s.reg t ga) 16 4))
        (s.scratchWords t ((s.reg t gb).toNat + 8 * fld (s.reg t ga) 16 4) (fld (s.reg t ga) 20 4)))
      (1 + tblExt (s.reg t ga)) 0 := by
  refine appends_of_acts h ?_
  change execJtbl t gd ga gb s = _
  unfold execJtbl
  rw [journalFrom_acts h room.1]
  · simp only [s.fetchLine_reg, s.fetchLine_tr, State.scratchWords_eq, s.fetchLine_scratchVal]
  · rw [s.fetchLine_reg, s.fetchLine_reg]
    exact well
  · rw [s.fetchLine_reg]
    exact State.full_none room _
  · exact .inr clean

/-! ### JCNT and JLEDG (R206, R315) -/

/-- An entry that may merge is appended to an empty journal. -/
theorem merging_appends {i : Instr} {rs : List Reg} {ok : State → Bool} {e : State → JEntry} (work : (s.tr t).parent = none)
    (does : exec i s = journalOp t rs ok (fun s => s.mergeFull t (e s)) (fun s => s.mergeOrAppend t gd (e s)) s)
    (well : ok (s.fetchLine t) = true) (room : Claims.hasRoom s t 1) (empty : (s.tr t).run.journal = []) :
    Claims.appends s i t gd (e (s.fetchLine t)) 1 0 := by
  have alone : mergeInto ((s.fetchLine t).tr t).run.journal (e (s.fetchLine t)) = none := by
    rw [s.fetchLine_tr, empty]
    rfl
  have appended : (s.fetchLine t).mergeOrAppend t gd (e (s.fetchLine t)) = (s.fetchLine t).append t gd 1 0 (e (s.fetchLine t)) := by
    rw [State.mergeOrAppend, alone]
  refine appends_of_acts h (does.trans ?_)
  rw [journalOp_acts h work well, appended]
  rw [State.mergeFull, alone]
  exact State.full_none room 0

theorem jcnt_appends (room : Claims.hasRoom s t 1) (zero : Claims.bits (s.reg t ga) 23 17 = 0)
    (empty : (s.tr t).run.journal = []) :
    Claims.appends s (.jcnt t gd ga gb) t gd (s.countEntry t (s.reg t ga) (s.reg t gb)) 1 0 := by
  have entry : (s.fetchLine t).countEntry t ((s.fetchLine t).reg t ga) ((s.fetchLine t).reg t gb)
      = s.countEntry t (s.reg t ga) (s.reg t gb) := by
    rw [s.fetchLine_reg, s.fetchLine_reg, State.countEntry, s.fetchLine_tr, State.countEntry]
  refine entry ▸ merging_appends (rs := [gd, ga, gb]) (ok := fun s => fld (s.reg t ga) 23 17 = 0)
    (e := fun s => s.countEntry t (s.reg t ga) (s.reg t gb)) h room.1 rfl ?_ room empty
  simpa only [s.fetchLine_reg, fld_eq_bits, decide_eq_true_eq] using zero

theorem jledg_appends (room : Claims.hasRoom s t 1) (zero : Claims.bits (s.reg t ga) 21 43 = 0)
    (empty : (s.tr t).run.journal = []) :
    Claims.appends s (.jledg t gd ga gb) t gd (.ledger (s.tr t).run.used (Claims.bits (s.reg t ga) 0 16)
      (Claims.bits (s.reg t ga) 16 4) (Claims.bits (s.reg t ga) 20 1 = 1) false 0 (s.reg t gb)) 1 0 := by
  have fields : fld (s.reg t ga) 29 35 = 0 ∧ fld (s.reg t ga) 21 1 = 0 ∧ fld (s.reg t ga) 22 7 = 0 := by
    have width := (s.reg t ga).isLt
    rw [← fld_eq_bits] at zero
    unfold fld at zero ⊢
    omega
  obtain ⟨upper, noRef, ref⟩ := fields
  have entry : (s.fetchLine t).ledgEntry t ((s.fetchLine t).reg t ga) ((s.fetchLine t).reg t gb)
      = .ledger (s.tr t).run.used (Claims.bits (s.reg t ga) 0 16) (Claims.bits (s.reg t ga) 16 4)
        (Claims.bits (s.reg t ga) 20 1 = 1) false 0 (s.reg t gb) := by
    rw [s.fetchLine_reg, s.fetchLine_reg, State.ledgEntry, s.fetchLine_tr, noRef, ref]
    simp only [fld_eq_bits]
    rfl
  refine entry ▸ merging_appends (rs := [gd, ga, gb]) (ok := fun s => s.ledgOk t (s.reg t ga))
    (e := fun s => s.ledgEntry t (s.reg t ga) (s.reg t gb)) h room.1 rfl ?_ room empty
  simp only [s.fetchLine_reg, State.ledgOk, upper, noRef, ref]
  rfl

/-- A counter already in the journal takes the addition (R206). -/
theorem jcnt_merges {k n : Nat} {m : W64} (work : (s.tr t).parent = none) (zero : Claims.bits (s.reg t ga) 23 17 = 0)
    (there : (s.tr t).run.journal = [.count k (Claims.bits (s.reg t ga) 0 22) (Claims.bits (s.reg t ga) 22 1 = 1) n m]) :
    ∃ u, exec (.jcnt t gd ga gb) s = .next u ∧ (u.tr t).run.used = (s.tr t).run.used
      ∧ (u.tr t).run.journal = [.count k (Claims.bits (s.reg t ga) 0 22) (Claims.bits (s.reg t ga) 22 1 = 1)
        ((n + Claims.bits (s.reg t ga) 40 24) % 2 ^ 24) (m + s.reg t gb)]
      ∧ u.reg t gd = (if gd = 0 then 0 else BitVec.ofNat 64 k) := by
  have merged : mergeInto ((s.fetchLine t).tr t).run.journal
        ((s.fetchLine t).countEntry t ((s.fetchLine t).reg t ga) ((s.fetchLine t).reg t gb))
      = some ([.count k (Claims.bits (s.reg t ga) 0 22) (Claims.bits (s.reg t ga) 22 1 = 1)
        ((n + Claims.bits (s.reg t ga) 40 24) % 2 ^ 24) (m + s.reg t gb)], k) := by
    rw [s.fetchLine_tr, there, s.fetchLine_reg, s.fetchLine_reg]
    simp only [State.countEntry, fld_eq_bits, mergeInto, JEntry.merge, JEntry.slot, and_self, if_true]
  have acts : exec (.jcnt t gd ga gb) s = .next ((((s.fetchLine t).updRun t fun r => { r with
      journal := [.count k (Claims.bits (s.reg t ga) 0 22) (Claims.bits (s.reg t ga) 22 1 = 1)
        ((n + Claims.bits (s.reg t ga) 40 24) % 2 ^ 24) (m + s.reg t gb)] }).result t gd (BitVec.ofNat 64 k)).issued t) := by
    change execJcnt t gd ga gb s = _
    unfold execJcnt
    rw [journalOp_acts h work, State.mergeOrAppend, merged]
    · simpa only [s.fetchLine_reg, fld_eq_bits, decide_eq_true_eq] using zero
    · rw [State.mergeFull, merged]
      rfl
  obtain ⟨u, hu, run, value, -, -⟩ := journal_acts h acts
  exact ⟨u, hu, by rw [run], by rw [run], value⟩

end

/-- Settles O7: each clause is the lemma about its instruction. -/
theorem journalInstructions : Obligations.JournalInstructions := by
  unfold Obligations.JournalInstructions
  refine ⟨fun s t gd ga gb h => ?_, fun s t gd ga gb h => ⟨jdeliv_appends h, jfree_appends h, ?_, ?_, ?_, jledg_appends h⟩⟩
  · intro a b ext edits room handle group edits' slots small zero none block clean
    have fields : EmitFields a b := ⟨handle, group, edits', slots, small, zero, none, block⟩
    have width : emitExt a = ext := by rw [emitExt, fld_eq_bits, fld_eq_bits]
    have appends := jemit_appends (gd := gd) h (by rw [width]; exact room) fields clean
    rw [s.emitEntry_eq, fields.emitCopies, width, s.fetchLine_egress] at appends
    exact appends
  · intro zero words most most' op aligned low high room clean
    have well : tblOk (s.reg t ga) (s.reg t gb) = true := by
      simp only [tblOk, tblLen, inScratch, fld_eq_bits]
      simp only [List.mem_cons, List.not_mem_nil, or_false] at op
      simp [zero, words, most, most', op, aligned, low, high, or_assoc]
    have slots : tblExt (s.reg t ga) = (Claims.bits (s.reg t ga) 16 4 + 1) / 2 + (Claims.bits (s.reg t ga) 20 4 + 1) / 2 := by
      rw [tblExt, fld_eq_bits, fld_eq_bits]
    have appends := jtbl_appends (gd := gd) h well (by rw [slots]; exact room) clean
    simp only [slots, State.scratchWords_eq, fld_eq_bits] at appends
    exact appends
  · intro room zero empty
    have appends := jcnt_appends (gd := gd) (gb := gb) h room zero empty
    simp only [State.countEntry, fld_eq_bits] at appends
    exact appends
  · exact fun k n m => jcnt_merges h

end Sys2Proof.Machine
end

section
/-!
PROOFS. O9: event flags, the delay lists and PARK (R320, R321, R359-R361).
-/

namespace Sys2Proof.Machine

theorem low32 (v : W64) : v.setWidth 32 = v.extractLsb' 0 32 := BitVec.setWidth_eq_extractLsb' (by decide)

theorem flagsMet_iff (f m : W32) (all : Bool) :
    flagsMet f m all = true ↔ if all = true then f &&& m = m else f &&& m ≠ 0 := by
  unfold flagsMet
  cases all with
  | true => exact decide_eq_true_iff
  | false => exact decide_eq_true_iff

/-- A wait that was not broken gives the flags alone. -/
theorem State.flagValue_unbroken (s : State) (t : Nat) (m : W32) :
    s.flagValue t m false = ((s.thr t).evflags &&& m).setWidth 64 := BitVec.or_zero

section

variable {s : State} {t : Nat} (h : s.issues t)
include h

/-- A thread that goes to wait keeps its registers and its PC. -/
theorem waits_of_acts {i : Instr} {c : Nat} {f : ThrRun → ThrRun}
    (acts : exec i s = .next ((((s.fetchLine t).wasBusy c).updTr t f).issued t))
    (step : (f (s.tr t)).stepLeft = (s.tr t).stepLeft) : Claims.waits s i t (f (s.tr t)).wait := by
  have tr : (((s.fetchLine t).wasBusy c).updTr t f).tr t = f (s.tr t) := by
    rw [State.updTr_tr, ← s.fetchLine_tr t t]
    rfl
  obtain ⟨-, thr, -, wait, -⟩ := State.issued_keeps (u := ((s.fetchLine t).wasBusy c).updTr t f) (t := t)
    (by rw [tr, step]; exact State.issues_calm h)
  refine ⟨_, acts, by rw [wait, tr], ?_⟩
  rw [thr, ← s.fetchLine_thr t t]
  rfl

variable {gd ga gb : Reg}

/-! ### WAITEV (R321) -/

theorem waitev_takes (met : flagsMet (s.thr t).evflags ((s.reg t ga).extractLsb' 0 32) ((s.reg t gb).getLsbD 0) = true) :
    ∃ u, exec (.waitev t gd ga gb) s = .next u
      ∧ u.reg t gd = (if gd = 0 then 0 else ((s.thr t).evflags &&& (s.reg t ga).extractLsb' 0 32).setWidth 64)
      ∧ (u.thr t).evflags = (s.thr t).evflags &&& ~~~((s.reg t ga).extractLsb' 0 32)
      ∧ (u.thr t).pc = (s.thr t).pc + 4 := by
  have acts : exec (.waitev t gd ga gb) s = .next ((((s.fetchLine t).clearFlags t ((s.reg t ga).extractLsb' 0 32)).result t gd
      (((s.thr t).evflags &&& (s.reg t ga).extractLsb' 0 32).setWidth 64)).issued t) := by
    change execWaitev t gd ga gb s = _
    unfold execWaitev
    refine issueRegs_some s t _ _ _ h ?_
    dsimp only
    rw [s.fetchLine_reg, s.fetchLine_reg, s.fetchLine_thr, low32, if_pos (.inr met), State.flagValue_unbroken, s.fetchLine_thr]
  obtain ⟨u, hu, thr⟩ := acts_on_thread acts (by simpa using fetchLine_calm h)
  rw [State.result_thr, State.clearFlags, State.updThr_thr, s.fetchLine_thr, Thr.set_eq] at thr
  refine ⟨u, hu, ?_, by rw [thr], by rw [thr]⟩
  rw [State.reg, thr]
  exact Thr.get_set_self { s.thr t with evflags := _ } gd _

theorem waitev_waits (asks : (s.reg t ga).extractLsb' 0 32 ≠ 0)
    (unmet : ¬ flagsMet (s.thr t).evflags ((s.reg t ga).extractLsb' 0 32) ((s.reg t gb).getLsbD 0) = true) :
    Claims.waits s (.waitev t gd ga gb) t (.waitev gd ((s.reg t ga).extractLsb' 0 32) ((s.reg t gb).getLsbD 0) s.dt) := by
  refine waits_of_acts (c := clusterOf t) h (f := fun x => { x with
    wait := .waitev gd ((s.reg t ga).extractLsb' 0 32) ((s.reg t gb).getLsbD 0) s.dt }) ?_ rfl
  change execWaitev t gd ga gb s = _
  unfold execWaitev
  refine issueRegs_some s t _ _ _ h ?_
  dsimp only
  rw [s.fetchLine_reg, s.fetchLine_reg, s.fetchLine_thr, s.fetchLine_dt, low32, if_neg (not_or.2 ⟨asks, unmet⟩)]

/-! ### PARK (R321) -/

theorem park_waits (clear : (s.thr t).evflags &&& (s.reg t gb).extractLsb' 0 32 = 0) :
    Claims.waits s (.park t gd ga gb) t (.park gd (s.reg t ga) ((s.reg t gb).extractLsb' 0 32)) := by
  refine waits_of_acts (c := clusterOf t) h (f := fun x => { x with
    wait := .park gd (s.reg t ga) ((s.reg t gb).extractLsb' 0 32), parkDt := s.dt }) ?_ rfl
  change execPark t gd ga gb s = _
  unfold execPark
  refine issueRegs_some s t _ _ _ h ?_
  dsimp only
  rw [s.fetchLine_reg, s.fetchLine_reg, s.fetchLine_thr, s.fetchLine_dt, low32, if_neg (not_not_intro clear)]

theorem park_ends (set : (s.thr t).evflags &&& (s.reg t gb).extractLsb' 0 32 ≠ 0) (untimed : s.reg t ga = 0) :
    Claims.completes s (.park t gd ga gb) t gd 1 := by
  refine completes_of_result h ?_
  change execPark t gd ga gb s = _
  unfold execPark
  refine issueRegs_some s t _ _ _ h ?_
  dsimp only
  rw [s.fetchLine_reg, s.fetchLine_reg, s.fetchLine_thr, low32, if_pos set, untimed,
    decide_eq_false (fun timed => timed.1 rfl)]
  rfl

/-! ### SETEV (R320, R359) -/

theorem setev_sets (near : (s.reg t ga).toNat % 2048 / 128 = t / 128) (released : s.released t = true) :
    ∃ u, exec (.setev t ga gb) s = .next u ∧ (u.thr ((s.reg t ga).toNat % 2048)).evflags
      = (s.thr ((s.reg t ga).toNat % 2048)).evflags ||| (s.reg t gb).extractLsb' 0 32 := by
  have acts : exec (.setev t ga gb) s = .next ((((s.fetchLine t).setFlags ((s.reg t ga).toNat % 2048)
      ((s.reg t gb).extractLsb' 0 32)).advance t).issued t) := by
    change execSetev t ga gb s = _
    unfold execSetev
    refine issueRegs_some s t _ _ _ h ?_
    dsimp only
    rw [s.fetchLine_reg, s.fetchLine_reg, s.fetchLine_released, released, low32, if_neg (not_not_intro (by exact near))]
    rfl
  refine ⟨_, acts, ?_⟩
  have flags (u : State) (k : Nat) : ((u.advance t).thr k).evflags = (u.thr k).evflags := by
    by_cases self : k = t
    · rw [self, State.advance_thr]
    · rw [State.advance, State.updThr_thr_ne _ _ self]
  rw [State.issued_thr (by simpa using fetchLine_calm h), flags, State.setFlags, State.updThr_thr, s.fetchLine_thr]

/-! ### DELAY (R320, R361) -/

theorem delay_enters (empty : (s.cl (clusterOf t)).task.lists = []) : ∃ u, exec (.delay t gd ga gb) s = .next u
    ∧ u.reg t gd = 0 ∧ SMap.get [] (u.cl (clusterOf t)).task.lists ((s.reg t gb).toNat / 256 % 4)
      = [⟨s.reg t ga, t, (s.reg t gb).extractLsb' 0 5, s.dt⟩] := by
  have acts : exec (.delay t gd ga gb) s = .next ((((s.fetchLine t).updTask (clusterOf t) fun k => { k with
      lists := SMap.set [] k.lists ((s.reg t gb).toNat / 256 % 4)
        [⟨s.reg t ga, t, (s.reg t gb).extractLsb' 0 5, s.dt⟩] }).result t gd 0).issued t) := by
    change execDelay t gd ga gb s = _
    unfold execDelay
    refine issueRegs_some s t _ _ _ h ?_
    dsimp only
    rw [s.fetchLine_task, empty, s.fetchLine_reg, s.fetchLine_reg, s.fetchLine_dt, BitVec.setWidth_eq_extractLsb' (by decide)]
    rfl
  have calm := fetchLine_calm h
  refine ⟨_, acts, ?_, ?_⟩
  · rw [State.reg, State.issued_thr (by simpa using calm)]
    exact (State.result_reg ..).trans (ite_self 0)
  · rw [State.issued_cl (by simpa using calm), State.result_cl, State.updTask_task]
    dsimp only
    rw [SMap.get_set_self]

theorem delay_full (full : 1024 ≤ (SMap.get [] (s.cl (clusterOf t)).task.lists ((s.reg t gb).toNat / 256 % 4)).length) :
    Claims.completes s (.delay t gd ga gb) t gd 1 := by
  refine completes_of_result h ?_
  change execDelay t gd ga gb s = _
  unfold execDelay
  refine issueRegs_some s t _ _ _ h ?_
  dsimp only
  rw [s.fetchLine_task, s.fetchLine_reg, if_pos full]

end

/-- Settles O9: each clause is the lemma about its instruction. -/
theorem eventFlagsAndWaits : Obligations.EventFlagsAndWaits := by
  unfold Obligations.EventFlagsAndWaits
  intro s t gd ga gb h
  exact ⟨fun _ met => waitev_takes h ((flagsMet_iff ..).2 met), fun asks unmet => waitev_waits h asks fun met => unmet ((flagsMet_iff ..).1 met),
    park_waits h, park_ends h, setev_sets h, delay_enters h, delay_full h⟩

end Sys2Proof.Machine
end

section
/-!
PROOFS. O11: the channels (R322, R355, R356).
-/

namespace Sys2Proof.Machine

theorem chanNo_below {v : W64} (h : v.toNat < 256) : chanNo v = some v.toNat := if_pos h

/-- An empty channel has room for a message (R356). -/
theorem Chan.free_empty : ({} : Chan).free = 32 := rfl

@[simp] theorem State.result_chan (s : State) (t : Nat) (gd : Reg) (v : W64) (c n : Nat) :
    (s.result t gd v).chan c n = s.chan c n := rfl

@[simp] theorem State.updTr_chan (s : State) (t : Nat) (f : ThrRun → ThrRun) (c n : Nat) : (s.updTr t f).chan c n = s.chan c n := rfl

theorem State.issued_chan {u : State} {t : Nat} (calm : (u.tr t).stepLeft = none) (c n : Nat) :
    (u.issued t).chan c n = u.chan c n := by
  rw [State.chan, State.issued_cl calm, State.chan]

theorem State.issued_staged {u : State} {t : Nat} (calm : (u.tr t).stepLeft = none) :
    ((u.issued t).tr t).staged = (u.tr t).staged := by
  rw [u.issued_calm t calm, State.updTr_tr]

/-- What an instruction with a result shows of its register, its thread's staged message and the channels. -/
theorem result_shows {s v : State} {i : Instr} {t : Nat} {gd : Reg} {w : W64}
    (acts : exec i s = .next ((v.result t gd w).issued t)) (calm : (v.tr t).stepLeft = none) : ∃ u, exec i s = .next u
      ∧ u.reg t gd = (if gd = 0 then 0 else w) ∧ (u.tr t).staged = (v.tr t).staged ∧ ∀ c n, u.chan c n = v.chan c n := by
  have still : ((v.result t gd w).tr t).stepLeft = none := by simpa using calm
  refine ⟨_, acts, ?_, ?_, fun c n => ?_⟩
  · rw [State.reg, State.issued_thr still]
    exact State.result_reg ..
  · rw [State.issued_staged still, State.result_tr]
  · rw [State.issued_chan still, State.result_chan]

section

variable {s : State} {t : Nat} {gd ga gb : Reg} (h : s.issues t) (number : (s.reg t ga).toNat < 256)
include h number

/-! ### CHPUT (R322, R355) -/

theorem chput_stages (empty : s.chan (clusterOf t) (s.reg t ga).toNat = {}) (fresh : (s.tr t).staged = none) :
    ∃ u, exec (.chput t gd ga gb) s = .next u ∧ u.reg t gd = 0
      ∧ (u.tr t).staged = some ((s.reg t ga).toNat, [s.reg t gb])
      ∧ (u.chan (clusterOf t) (s.reg t ga).toNat).stagers = [t] := by
  have acts : exec (.chput t gd ga gb) s
      = .next ((((s.fetchLine t).stage t (s.reg t ga).toNat (s.reg t gb)).result t gd 0).issued t) := by
    change execChput t gd ga gb s = _
    unfold execChput
    refine issueRegs_some s t _ _ _ h ?_
    dsimp only
    rw [s.fetchLine_reg, s.fetchLine_reg, chanNo_below number, s.fetchLine_tr, fresh]
    dsimp only
    rw [s.fetchLine_chan, empty]
    exact if_pos ⟨by rw [Chan.free_empty]; decide, rfl⟩
  have run : ((s.fetchLine t).stage t (s.reg t ga).toNat (s.reg t gb)).tr t
      = { s.tr t with staged := some ((s.reg t ga).toNat, [s.reg t gb]) } := by
    rw [State.stage, State.updTr_tr, State.setChan_tr, s.fetchLine_tr]
  obtain ⟨u, hu, value, staged, chan⟩ := result_shows acts (by rw [run]; exact State.issues_calm h)
  refine ⟨u, hu, value.trans (ite_self 0), by rw [staged, run], ?_⟩
  rw [chan, State.stage, State.updTr_chan, State.setChan_chan, s.fetchLine_chan, empty]
  rfl

theorem chput_adds {ws : List W64} (staging : (s.tr t).staged = some ((s.reg t ga).toNat, ws)) (room : ws.length < 8) :
    ∃ u, exec (.chput t gd ga gb) s = .next u ∧ u.reg t gd = 0
      ∧ (u.tr t).staged = some ((s.reg t ga).toNat, ws ++ [s.reg t gb]) := by
  have acts : exec (.chput t gd ga gb) s = .next ((((s.fetchLine t).updTr t fun x => { x with
      staged := some ((s.reg t ga).toNat, ws ++ [s.reg t gb]) }).result t gd 0).issued t) := by
    change execChput t gd ga gb s = _
    unfold execChput
    refine issueRegs_some s t _ _ _ h ?_
    dsimp only
    rw [s.fetchLine_reg, s.fetchLine_reg, chanNo_below number, s.fetchLine_tr, staging]
    dsimp only
    rw [if_neg (not_not_intro rfl), if_neg (by omega)]
  obtain ⟨u, hu, value, staged, -⟩ := result_shows acts (by rw [State.updTr_tr]; exact fetchLine_calm h)
  exact ⟨u, hu, value.trans (ite_self 0), by rw [staged, State.updTr_tr]⟩

/-! ### CHEND (R322, R355) -/

theorem chend_publishes {ws : List W64} (staging : (s.tr t).staged = some ((s.reg t ga).toNat, ws))
    (released : s.released t = true) : ∃ u, exec (.chend t gd ga) s = .next u ∧ u.reg t gd = 0 ∧ (u.tr t).staged = none
      ∧ (u.chan (clusterOf t) (s.reg t ga).toNat).msgs
        = (s.chan (clusterOf t) (s.reg t ga).toNat).msgs ++ [⟨ws, 0, none⟩] := by
  let c := s.chan (clusterOf t) (s.reg t ga).toNat
  have acts : exec (.chend t gd ga) s = .next (((((s.fetchLine t).setChan (clusterOf t) (s.reg t ga).toNat { c with
      stagers := c.stagers.filter (· ≠ t), msgs := c.msgs ++ [⟨ws, 0, none⟩] }).updTr t fun x => { x with
        staged := none }).result t gd 0).issued t) := by
    change execChend t gd ga s = _
    unfold execChend
    refine issueRegs_some s t _ _ _ h ?_
    dsimp only
    rw [s.fetchLine_reg, chanNo_below number, s.fetchLine_tr, staging]
    dsimp only
    rw [if_neg (not_not_intro rfl), s.fetchLine_released, released, s.fetchLine_chan]
    rfl
  obtain ⟨u, hu, value, staged, chan⟩ := result_shows acts (by rw [State.updTr_tr]; exact fetchLine_calm h)
  exact ⟨u, hu, value.trans (ite_self 0), by rw [staged, State.updTr_tr], by rw [chan, State.updTr_chan, State.setChan_chan]⟩

/-! ### CHGET (R322, R356) -/

/-- The next word of the only message of a channel that nobody waits at. -/
theorem chget_reads {w w2 : W64} (only : (s.chan (clusterOf t) (s.reg t ga).toNat).msgs = [⟨[w, w2], 0, none⟩])
    (alone : (s.chan (clusterOf t) (s.reg t ga).toNat).consumers = []) : ∃ u, exec (.chget t gd ga) s = .next u
      ∧ u.reg t gd = (if gd = 0 then 0 else w)
      ∧ (u.chan (clusterOf t) (s.reg t ga).toNat).msgs = [⟨[w2], 1, some t⟩] := by
  let n := (s.reg t ga).toNat
  let c := s.chan (clusterOf t) n
  have read : (s.fetchLine t).readMsg t n 0 = ((s.fetchLine t).setChan (clusterOf t) n { c with
      consumers := c.consumers.filter (· ≠ t), msgs := [⟨[w2], 1, some t⟩] }, w) := by
    unfold State.readMsg
    dsimp only
    rw [s.fetchLine_chan, only]
    rfl
  have source : c.source t = some 0 := by
    unfold Chan.source
    rw [only]
    rfl
  have acts : exec (.chget t gd ga) s = .next ((((s.fetchLine t).setChan (clusterOf t) n { c with
      consumers := c.consumers.filter (· ≠ t), msgs := [⟨[w2], 1, some t⟩] }).result t gd w).issued t) := by
    change execChget t gd ga s = _
    unfold execChget
    refine issueRegs_some s t _ _ _ h ?_
    dsimp only
    rw [s.fetchLine_reg, chanNo_below number]
    dsimp only
    rw [s.fetchLine_chan, source]
    dsimp only
    rw [if_pos (.inr (by rw [alone]; rfl)), read]
  obtain ⟨u, hu, value, -, chan⟩ := result_shows acts (by rw [State.setChan_tr]; exact fetchLine_calm h)
  exact ⟨u, hu, value, by rw [chan, State.setChan_chan]⟩

theorem chget_waits (empty : (s.chan (clusterOf t) (s.reg t ga).toNat).msgs = [])
    (alone : (s.chan (clusterOf t) (s.reg t ga).toNat).consumers = []) : ∃ u, exec (.chget t gd ga) s = .next u
      ∧ (u.tr t).wait = .chget gd (s.reg t ga).toNat
      ∧ (u.chan (clusterOf t) (s.reg t ga).toNat).consumers = [t] := by
  let n := (s.reg t ga).toNat
  let c := s.chan (clusterOf t) n
  let v := (((s.fetchLine t).wasBusy (clusterOf t)).setChan (clusterOf t) n { c with consumers := c.consumers ++ [t] }).updTr t
    fun x => { x with wait := .chget gd n }
  have source : c.source t = none := by
    unfold Chan.source
    rw [empty]
    rfl
  have acts : exec (.chget t gd ga) s = .next (v.issued t) := by
    change execChget t gd ga s = _
    unfold execChget
    refine issueRegs_some s t _ _ _ h ?_
    dsimp only
    rw [s.fetchLine_reg, chanNo_below number]
    dsimp only
    rw [s.fetchLine_chan, source]
  have run : v.tr t = { s.tr t with wait := .chget gd n } := by
    rw [State.updTr_tr, State.setChan_tr, State.wasBusy_tr, s.fetchLine_tr]
  have calm : (v.tr t).stepLeft = none := by
    rw [run]
    exact State.issues_calm h
  obtain ⟨-, -, -, wait, -⟩ := State.issued_keeps calm
  refine ⟨_, acts, by rw [wait, run], ?_⟩
  rw [State.issued_chan calm, State.updTr_chan, State.setChan_chan, alone]
  rfl

/-! ### CHPOLL (R322) -/

theorem chpoll_empty (empty : s.chan (clusterOf t) (s.reg t ga).toNat = {}) :
    Claims.completes s (.chpoll t gd ga) t gd 0x400 := by
  refine completes_of_result h ?_
  change execChpoll t gd ga s = _
  unfold execChpoll
  refine issueRegs_some s t _ _ _ h ?_
  dsimp only
  rw [s.fetchLine_reg, chanNo_below number]
  dsimp only
  rw [s.fetchLine_chan, empty]
  rfl

end

/-- Settles O11: each clause is the lemma about its instruction. -/
theorem channels : Obligations.Channels := by
  unfold Obligations.Channels
  intro s t gd ga gb h number
  exact ⟨chput_stages h number, fun ws => chput_adds h number, fun ws => chend_publishes h number,
    fun w w2 => chget_reads h number, chget_waits h number, chpoll_empty h number⟩

end Sys2Proof.Machine
end

section
/-!
PROOFS. O15, strings: what a store to thread scratch leaves for a later load to read (R247, R299), and one granule of a string
instruction there (R304-R307).
-/

namespace Sys2Proof.Machine

/-! ### Bytes and the values they spell (R11) -/

theorem leBytes_succ (n v : Nat) : leBytes (n + 1) v = BitVec.ofNat 8 v :: leBytes n (v / 256) := by
  rw [leBytes, List.range_succ_eq_map, List.map_cons, List.map_map, pow_zero, Nat.div_one, leBytes]
  refine congrArg _ (List.map_congr_left fun k _ => ?_)
  rw [Function.comp, Nat.succ_eq_add_one, Nat.pow_succ', Nat.div_div_eq_div_mul]

theorem leBytes_leVal (bs : List Byte) : leBytes bs.length (leVal bs) = bs := by
  induction bs with
  | nil => rfl
  | cons b rest ih =>
    have low : BitVec.ofNat 8 (b.toNat + 256 * leVal rest) = b := by
      apply BitVec.eq_of_toNat_eq
      rw [BitVec.toNat_ofNat, Nat.add_mul_mod_self_left, Nat.mod_eq_of_lt b.isLt]
    have high : (b.toNat + 256 * leVal rest) / 256 = leVal rest := by
      rw [Nat.add_mul_div_left _ _ (by decide), Nat.div_eq_of_lt b.isLt, Nat.zero_add]
    rw [List.length_cons, leVal, leBytes_succ, low, high, ih]

/-- The low bytes of a word, by shifts. -/
theorem leBytes_toNat (n : Nat) (v : W64) : leBytes n v.toNat = (List.range n).map fun k => (v >>> (8 * k)).setWidth 8 := by
  refine List.map_congr_left fun k _ => BitVec.eq_of_toNat_eq ?_
  rw [BitVec.toNat_ofNat, BitVec.toNat_setWidth, BitVec.toNat_ushiftRight, Nat.shiftRight_eq_div_pow, Nat.pow_mul]

theorem scratchRun_length (s : State) (t a n : Nat) : (Claims.scratchRun s t a n).length = n := by
  rw [Claims.scratchRun, List.length_map, List.length_range]

/-! ### A map written at consecutive keys -/

theorem SMap.get_foldl_set {α : Type} [DecidableEq α] (d : α) (m : SMap α) (o : Nat) (v : Nat → α) (n k : Nat) :
    SMap.get d ((List.range n).foldl (fun m i => SMap.set d m (o + i) (v i)) m) k
      = if o ≤ k ∧ k < o + n then v (k - o) else SMap.get d m k := by
  induction n with
  | zero => rw [List.range_zero, List.foldl_nil, if_neg (by omega)]
  | succ n ih =>
    rw [List.range_succ, List.foldl_append, List.foldl_cons, List.foldl_nil]
    by_cases last : k = o + n
    · subst last
      rw [SMap.get_set_self, if_pos (by omega), Nat.add_sub_cancel_left]
    · rw [SMap.get_set_ne _ _ _ last, ih]
      exact if_congr (by omega) rfl rfl

/-! ### Scratch, read after a change -/

/-- Scratch is read through the run's scratch memory and its owner. -/
theorem scratchRun_congr {s u : State} {t : Nat} (scratch : u.scratch = s.scratch) (parent : (u.tr t).parent = (s.tr t).parent)
    (a n : Nat) : Claims.scratchRun u t a n = Claims.scratchRun s t a n := by
  have owner : u.owner t = s.owner t := by rw [State.owner, parent, State.owner]
  simp only [Claims.scratchRun, Claims.scratchAt, State.scr, owner, scratch]

@[simp] theorem scratchRun_setReg (s : State) (t k : Nat) (r : Reg) (v : W64) (a n : Nat) :
    Claims.scratchRun (s.setReg k r v) t a n = Claims.scratchRun s t a n := rfl

@[simp] theorem State.scratchWrite_thr (s : State) (t k a : Nat) (bs : List Byte) : (s.scratchWrite t a bs).thr k = s.thr k := rfl
@[simp] theorem State.scratchWrite_reg (s : State) (t k a : Nat) (bs : List Byte) (r : Reg) :
    (s.scratchWrite t a bs).reg k r = s.reg k r := rfl
@[simp] theorem State.scratchWrite_tr (s : State) (t k a : Nat) (bs : List Byte) : (s.scratchWrite t a bs).tr k = s.tr k := rfl

/-- What a store to thread scratch wrote is read back. -/
theorem scratchRun_scratchWrite (s : State) (t : Nat) {a n : Nat} (low : 0x4000 ≤ a) {bs : List Byte} (len : bs.length = n) :
    Claims.scratchRun (s.scratchWrite t a bs) t a n = bs := by
  refine List.ext_getElem (by rw [scratchRun_length, len]) fun k hk hb => ?_
  have at_k : Claims.scratchAt (s.scratchWrite t a bs) t (a + k) = bs.getD k 0 := by
    have scr : (s.scratchWrite t a bs).scr (s.owner t) = _ := SMap.get_set_self ..
    rw [Claims.scratchAt, show (s.scratchWrite t a bs).owner t = s.owner t from rfl, scr, SMap.get_foldl_set,
      if_pos (by omega), show a + k - 0x4000 - (a - 0x4000) = k by omega]
  simp only [Claims.scratchRun, List.getElem_map, List.getElem_range]
  rw [at_k, List.getD_eq_getElem _ _ hb]

/-- The value that a granule's load has brought stands from now on (R307). -/
def State.kept (s : State) (t v : Nat) : State := s.updTr t fun x => { x with gran := x.gran ++ [BitVec.ofNat 64 v] }

@[simp] theorem State.kept_thr (s : State) (t v k : Nat) : (s.kept t v).thr k = s.thr k := rfl
@[simp] theorem State.kept_reg (s : State) (t v k : Nat) (r : Reg) : (s.kept t v).reg k r = s.reg k r := rfl

@[simp] theorem State.kept_tr (s : State) (t v : Nat) :
    (s.kept t v).tr t = { s.tr t with gran := (s.tr t).gran ++ [BitVec.ofNat 64 v] } := by
  rw [State.kept, State.updTr_tr]

@[simp] theorem scratchRun_kept (s : State) (t v a n : Nat) : Claims.scratchRun (s.kept t v) t a n = Claims.scratchRun s t a n := by
  refine scratchRun_congr (s := s) (u := s.kept t v) rfl ?_ a n
  rw [State.kept_tr]

/-- A register after a write to the same or to another one. -/
theorem State.reg_setReg (s : State) (t : Nat) (q r : Reg) (v : W64) :
    (s.setReg t q v).reg t r = if r = q then (if q = 0 then 0 else v) else s.reg t r := by
  rw [State.reg, State.setReg, State.updThr_thr]
  split
  · next same => rw [same, Thr.get_set_self]
  · next other => rw [Thr.get_set_ne _ _ other, State.reg]

theorem State.setReg_pc (s : State) (t : Nat) (r : Reg) (v : W64) : ((s.setReg t r v).thr t).pc = (s.thr t).pc := by
  rw [State.setReg, State.updThr_thr, Thr.set_pc]

@[simp] theorem State.bump_tr (s : State) (t k : Nat) (r : Reg) (v : W64) : (s.bump t r v).tr k = s.tr k := rfl

theorem State.bump_pc (s : State) (t : Nat) (r : Reg) (v : W64) : ((s.bump t r v).thr t).pc = (s.thr t).pc := State.setReg_pc ..

@[simp] theorem scratchRun_bump (s : State) (t k : Nat) (r : Reg) (v : W64) (a n : Nat) :
    Claims.scratchRun (s.bump k r v) t a n = Claims.scratchRun s t a n := rfl

/-! ### A thread that loads from its scratch and stores to it (R247, R263, R273) -/

/-- A thread in its run, with no lookup outstanding, no poisoned word in its scratch, and room for a store that is in order. -/
structure State.Copying (s : State) (t : Nat) : Prop where
  run : (s.curPkt t).isSome = true
  lkps : (s.tr t).lkps = []
  clean : (s.scr (s.owner t)).poison = []
  sb : (s.tr t).sb = []
  room : s.sbRoom t = true

namespace State.Copying

variable {s : State} {t : Nat}

theorem cleanScratch (h : s.Copying t) {a n : Nat} (low : 0x4000 ≤ a) (high : a + n ≤ 0x8000) : s.CleanScratch t a n :=
  ⟨h.run, h.lkps, h.clean, low, high⟩

theorem memLoad (h : s.Copying t) {a n : Nat} (low : 0x4000 ≤ a) (high : a + n ≤ 0x8000) :
    s.memLoad t a n = .ok (Claims.scratchRun s t a n) s := (h.cleanScratch low high).memLoad

theorem memStore (h : s.Copying t) {a : Nat} {bs : List Byte} (low : 0x4000 ≤ a) (high : a + bs.length ≤ 0x8000) :
    s.memStore t a bs = .ok (s.scratchWrite t a bs) := by
  have inside : inScratch a bs.length = true := by simp [inScratch, low, high]
  have writes : s.localWrite t a bs = .ok (s.scratchWrite t a bs) := by
    rw [State.localWrite]
    dsimp only
    rw [State.lkpOverlap_idle h.lkps, if_neg Bool.false_ne_true, if_neg (by omega), if_pos inside]
  rw [State.memStore, s.mreg_local t (by omega), writes]
  simp only [State.inOrder, h.sb, h.room, List.isEmpty_nil, Bool.and_self, if_true]

/-- The marks of a string instruction under way change nothing that its loads and stores read. -/
theorem marked (h : s.Copying t) {f : ThrRun → ThrRun} (marks : ∀ x, f x = { x with str := (f x).str, gran := (f x).gran }) :
    (s.updTr t f).Copying t := by
  have tr : (s.updTr t f).tr t = { s.tr t with str := (f (s.tr t)).str, gran := (f (s.tr t)).gran } := by
    rw [State.updTr_tr, marks]
  have owner : (s.updTr t f).owner t = s.owner t := by rw [State.owner, tr, State.owner]
  have others (k : Nat) : ((s.updTr t f).tr k).sb = (s.tr k).sb ∧ ((s.updTr t f).tr k).cur = (s.tr k).cur := by
    by_cases own : k = t
    · rw [own, tr]
      exact ⟨rfl, rfl⟩
    · rw [State.updTr_tr_ne _ _ own]
      exact ⟨rfl, rfl⟩
  refine ⟨?_, by rw [tr]; exact h.lkps, by rw [owner]; exact h.clean, by rw [tr]; exact h.sb, ?_⟩
  · rw [State.curPkt, owner, (others _).2]
    exact h.run
  · rw [← h.room]
    simp only [State.sbRoom, (others _).1]
    rfl

theorem kept (h : s.Copying t) (v : Nat) : (s.kept t v).Copying t := h.marked fun _ => rfl

theorem setReg (h : s.Copying t) (r : Reg) (v : W64) : (s.setReg t r v).Copying t :=
  ⟨h.run, h.lkps, h.clean, h.sb, h.room⟩

/-- A granule that is read now goes on with its value. -/
theorem granule (h : s.Copying t) {i a n : Nat} (low : 0x4000 ≤ a) (high : a + n ≤ 0x8000) (new : (s.tr t).gran.length ≤ i)
    (k : Nat → State → GrR) : s.granule t i a n k = k (leVal (Claims.scratchRun s t a n))
      (s.kept t (leVal (Claims.scratchRun s t a n))) := by
  rw [State.granule, List.getElem?_eq_none new]
  dsimp only
  rw [h.memLoad low high]
  rfl

theorem putGranule (h : s.Copying t) {a n v : Nat} (low : 0x4000 ≤ a) (high : a + n ≤ 0x8000) (k : State → GrR) :
    s.putGranule t a n v k = k (s.scratchWrite t a (leBytes n v)) := by
  rw [State.putGranule, h.memStore low (by rw [leBytes_length]; exact high)]

theorem loadAccess (h : s.Copying t) {a n : Nat} (low : 0x4000 ≤ a) (high : a + n ≤ 0x8000) : s.loadAccess t a n = none := by
  rw [State.loadAccess, h.memLoad low high]

theorem storeAccess (h : s.Copying t) {a n : Nat} (low : 0x4000 ≤ a) (high : a + n ≤ 0x8000) : s.storeAccess t a n = none := by
  rw [State.storeAccess, h.memStore low (by rw [List.length_replicate]; exact high)]

/-- The checks at the start of a string instruction over thread scratch pass (R306). -/
theorem stringCheck (h : s.Copying t) {n o : Nat} (ops : Claims.stringOver s t n) (first : o + n ≤ (s.reg t 26).toNat)
    (use : StrUse) : s.stringCheck t n o use = none := by
  obtain ⟨srcAligned, dstAligned, whole, begun, srcLow, srcHigh, dstLow, dstHigh, -⟩ := ops
  have inside {a : Nat} (high : a + (s.reg t 26).toNat ≤ 0x8000) : s.leaves t a (s.reg t 26).toNat = false := by
    rw [State.leaves, s.mreg_local t (by omega), s.mreg_local t (by omega)]
    simp
  rw [State.stringCheck]
  dsimp only
  rw [if_neg fun bad => bad.2 srcAligned, if_neg fun bad => bad.2 dstAligned, h.loadAccess (by omega) (by omega),
    h.loadAccess (by omega) (by omega), h.storeAccess (by omega) (by omega)]
  simp only [ite_self]
  rw [if_neg (by omega), inside srcHigh, inside dstHigh]
  simp only [Bool.false_eq_true, and_false, if_false]

end State.Copying

/-! ### One granule (R304-R307) -/

theorem fetchLine_copying {s : State} {t n : Nat} (h : s.issues t) (ops : Claims.stringOver s t n) :
    (s.fetchLine t).Copying t := by
  obtain ⟨-, -, -, -, -, -, -, -, clean, -, -, sb, room⟩ := ops
  exact ⟨by rw [State.curPkt_fetchLine]; exact State.issues_curPkt h, by rw [s.fetchLine_tr]; exact State.issues_lkps h,
    by rw [State.scr_fetchLine, s.fetchLine_owner]; exact clean, by rw [s.fetchLine_tr]; exact sb,
    by rw [s.fetchLine_sbRoom]; exact room⟩

theorem stringOver_fetchLine {s : State} {t n : Nat} (ops : Claims.stringOver s t n) :
    Claims.stringOver (s.fetchLine t) t n := by
  simpa only [Claims.stringOver, s.fetchLine_reg, s.fetchLine_owner, State.scr_fetchLine, s.fetchLine_tr, s.fetchLine_sbRoom]
    using ops

/-- A granule is left to do (R306). -/
theorem stringOver_fits {s : State} {t n : Nat} (ops : Claims.stringOver s t n) : n ≤ (s.reg t 26).toNat := by
  obtain ⟨-, -, whole, begun, -⟩ := ops
  exact Nat.le_of_dvd begun (Nat.dvd_of_mod_eq_zero whole)

/-- The registers and the scratch of a thread are those of another state, and its PC is as given. -/
structure State.AtPc (u : State) (t : Nat) (w : State) (pc : W64) : Prop where
  thr : u.thr t = { w.thr t with pc := pc }
  scratch : ∀ a n, Claims.scratchRun u t a n = Claims.scratchRun w t a n

theorem State.AtPc.reg {u w : State} {t : Nat} {pc : W64} (h : u.AtPc t w pc) (r : Reg) : u.reg t r = w.reg t r := by
  rw [State.reg, h.thr]
  rfl

theorem State.AtPc.pc {u w : State} {t : Nat} {pc : W64} (h : u.AtPc t w pc) : (u.thr t).pc = pc := by
  rw [h.thr]

theorem State.strNext_atPc {w : State} {t : Nat} (calm : (w.tr t).stepLeft = none) (d : Option Bool) :
    ((w.strNext t d).issued t).AtPc t w (w.thr t).pc := by
  have calm' : ((w.strNext t d).tr t).stepLeft = none := by rw [State.strNext, State.updTr_tr]; exact calm
  rw [State.issued_calm _ t calm']
  exact ⟨rfl, scratchRun_congr rfl (by simp [State.strNext])⟩

theorem State.strNext_advance_atPc {w : State} {t : Nat} (calm : (w.tr t).stepLeft = none) (d : Option Bool) :
    (((w.strNext t d).advance t).issued t).AtPc t w ((w.thr t).pc + 4) := by
  have calm' : (((w.strNext t d).advance t).tr t).stepLeft = none := by
    rw [State.advance_tr, State.strNext, State.updTr_tr]; exact calm
  rw [State.issued_calm _ t calm']
  exact ⟨State.advance_thr .., scratchRun_congr rfl (by simp [State.strNext])⟩

/-- The state a fresh string instruction's granule acts on: its first assignment is made and its direction is chosen (R305). -/
def State.strBegun (s : State) (t : Nat) (down : State → Bool) (zero : State → State) : State :=
  (zero (s.fetchLine t)).updTr t fun x => { x with str := some (down (s.fetchLine t)) }

section

variable {s w : State} {t : Nat} {size : BitVec 2} {down : State → Bool} {zero : State → State} {body : Nat → State → GrR} (h : s.issues t)
  (ops : Claims.stringOver s t (2 ^ size.toNat)) (counted : (zero (s.fetchLine t)).reg t 26 = s.reg t 26)
include h ops counted

/-- The instruction is done when its granule ends it or uses the count up, and stays under way else. -/
theorem stringOp_acts {u : State} {rs : List Reg} {use : StrUse} {late : Nat → State → Option (Nat × Nat)}
    (comes : (body (2 ^ size.toNat) (s.strBegun t down zero) = .fin w
        ∨ body (2 ^ size.toNat) (s.strBegun t down zero) = .cont w ∧ w.reg t 26 = 0) ∧ u = (w.strNext t none).advance t
      ∨ (body (2 ^ size.toNat) (s.strBegun t down zero) = .cont w ∧ w.reg t 26 ≠ 0)
        ∧ u = w.strNext t (some (down (s.fetchLine t)))) :
    stringOp t rs size use down zero late body s = .next (u.issued t) := by
  obtain ⟨-, -, -, begun, -, -, -, -, -, fresh, -⟩ := id ops
  have fits := stringOver_fits ops
  have passes := (fetchLine_copying h ops).stringCheck (stringOver_fetchLine ops)
    (o := if down (s.fetchLine t) then ((s.fetchLine t).reg t 26).toNat - 2 ^ size.toNat else 0)
    (by rw [s.fetchLine_reg]; split <;> omega) use
  have counts : (s.strBegun t down zero).reg t 26 ≠ 0 := by
    rw [State.strBegun, State.updTr_reg, counted]
    intro none
    rw [none] at begun
    exact Nat.lt_irrefl 0 begun
  unfold stringOp
  refine issueRegsLate_some s t _ _ _ _ h ?_
  dsimp only
  rw [s.fetchLine_tr, fresh, Option.isNone_none, if_pos rfl, passes]
  dsimp only
  rw [if_pos rfl, ← State.strBegun, if_neg counts]
  obtain ⟨ends | ⟨step, last⟩, rfl⟩ | ⟨⟨step, more⟩, rfl⟩ := comes
  · rw [ends]
  · rw [step]
    exact if_pos last
  · rw [step]
    exact if_neg more

/-- A granule that goes on: PC stays until the count is used up. -/
theorem stringOp_cont (step : body (2 ^ size.toNat) (s.strBegun t down zero) = .cont w)
    (left : w.reg t 26 = s.reg t 26 - BitVec.ofNat 64 (2 ^ size.toNat)) (calm : (w.tr t).stepLeft = none)
    (stays : (w.thr t).pc = (s.thr t).pc) :
    ∃ u, (∀ rs use late, stringOp t rs size use down zero late body s = .next u) ∧ u.AtPc t w (Claims.stringPc s t (2 ^ size.toNat)) := by
  have last : w.reg t 26 = 0 ↔ (s.reg t 26).toNat = 2 ^ size.toNat := by
    have small : 2 ^ size.toNat < 2 ^ 64 := Nat.pow_lt_pow_right (by decide) (by omega)
    rw [left, sub_eq_zero, ← BitVec.toNat_inj, BitVec.toNat_ofNat, Nat.mod_eq_of_lt small]
  rw [Claims.stringPc, ← stays]
  split
  · next used => exact ⟨_, fun _ _ _ => stringOp_acts h ops counted (.inl ⟨.inr ⟨step, last.2 used⟩, rfl⟩), State.strNext_advance_atPc calm _⟩
  · next more => exact ⟨_, fun _ _ _ => stringOp_acts h ops counted (.inr ⟨⟨step, fun none => more (last.1 none)⟩, rfl⟩), State.strNext_atPc calm _⟩

/-- A granule that ends the instruction. -/
theorem stringOp_fin (step : body (2 ^ size.toNat) (s.strBegun t down zero) = .fin w) (calm : (w.tr t).stepLeft = none)
    (stays : (w.thr t).pc = (s.thr t).pc) :
    ∃ u, (∀ rs use late, stringOp t rs size use down zero late body s = .next u) ∧ u.AtPc t w ((s.thr t).pc + 4) :=
  ⟨_, fun _ _ _ => stringOp_acts h ops counted (.inl ⟨.inl step, rfl⟩), stays ▸ State.strNext_advance_atPc calm _⟩

end

/-! ### The granules of BCOPY, BFILL, BCMP and BFIND (R305) -/

/-- A string instruction has begun in a state that differs from the one before only in its marks and registers. -/
structure State.Begun (v s : State) (t : Nat) : Prop where
  copying : v.Copying t
  gran : (v.tr t).gran = []
  calm : (v.tr t).stepLeft = none
  pc : (v.thr t).pc = (s.thr t).pc
  scratch : ∀ a n, Claims.scratchRun v t a n = Claims.scratchRun s t a n

/-- The first assignment of a string instruction changes at most registers. -/
theorem strBegun_begun {s : State} {t n : Nat} {zero : State → State} (h : s.issues t) (ops : Claims.stringOver s t n)
    (down : State → Bool) (copying : (zero (s.fetchLine t)).Copying t)
    (tr : (zero (s.fetchLine t)).tr t = (s.fetchLine t).tr t) (pc : ((zero (s.fetchLine t)).thr t).pc = (s.thr t).pc)
    (scratch : (zero (s.fetchLine t)).scratch = (s.fetchLine t).scratch) : (s.strBegun t down zero).Begun s t := by
  have marked : (s.strBegun t down zero).tr t = { s.tr t with str := some (down (s.fetchLine t)) } := by
    rw [State.strBegun, State.updTr_tr, tr, s.fetchLine_tr]
  obtain ⟨-, -, -, -, -, -, -, -, -, -, gran, -⟩ := id ops
  refine ⟨copying.marked fun _ => rfl, by rw [marked]; exact gran, by rw [marked]; exact State.issues_calm h, pc, fun a n => ?_⟩
  rw [← s.fetchLine_scratchRun]
  refine scratchRun_congr (u := s.strBegun t down zero) scratch ?_ a n
  rw [marked, s.fetchLine_tr]

theorem strBegun_id {s : State} {t n : Nat} (h : s.issues t) (ops : Claims.stringOver s t n) (down : State → Bool) :
    (s.strBegun t down id).Begun s t :=
  strBegun_begun h ops down (fetchLine_copying h ops) rfl (by rw [id, s.fetchLine_thr]) rfl

theorem strBegun_setReg {s : State} {t n : Nat} (h : s.issues t) (ops : Claims.stringOver s t n) (down : State → Bool)
    (r : Reg) (x : W64) : (s.strBegun t down fun s => s.setReg t r x).Begun s t :=
  strBegun_begun h ops down ((fetchLine_copying h ops).setReg r x) rfl (by rw [State.setReg_pc, s.fetchLine_thr]) rfl

theorem ofNat_sub_toNat (x : W64) {n : Nat} (le : n ≤ x.toNat) : BitVec.ofNat 64 (x.toNat - n) = x - BitVec.ofNat 64 n := by
  bv_omega

theorem leBytes_scratchRun (s : State) (t a n : Nat) :
    leBytes n (leVal (Claims.scratchRun s t a n)) = Claims.scratchRun s t a n := by
  have bytes := leBytes_leVal (Claims.scratchRun s t a n)
  rwa [scratchRun_length] at bytes

section

variable {v s : State} {t n : Nat} (hv : v.Begun s t)
include hv

theorem State.Begun.loads (i : Nat) {a : Nat} (low : 0x4000 ≤ a) (high : a + n ≤ 0x8000) (k : Nat → State → GrR) :
    v.granule t i a n k = k (leVal (Claims.scratchRun s t a n)) (v.kept t (leVal (Claims.scratchRun s t a n))) := by
  rw [← hv.scratch]
  exact hv.copying.granule low high (by rw [hv.gran]; exact Nat.zero_le i) k

/-- A granule from the source goes to the destination, both upwards (R305). -/
theorem bcopyStep_up (up : v.copyDown t = false) (srcLow : 0x4000 ≤ (v.reg t 24).toNat)
    (srcHigh : (v.reg t 24).toNat + n ≤ 0x8000) (dstLow : 0x4000 ≤ (v.reg t 25).toNat) (dstHigh : (v.reg t 25).toNat + n ≤ 0x8000)
    (fits : n ≤ (v.reg t 26).toNat) :
    ∃ w, v.bcopyStep t n = .cont w ∧ (w.tr t).stepLeft = none ∧ (w.thr t).pc = (s.thr t).pc
      ∧ Claims.scratchRun w t (v.reg t 25).toNat n = Claims.scratchRun s t (v.reg t 24).toNat n
      ∧ w.reg t 24 = v.reg t 24 + BitVec.ofNat 64 n ∧ w.reg t 25 = v.reg t 25 + BitVec.ofNat 64 n
      ∧ w.reg t 26 = v.reg t 26 - BitVec.ofNat 64 n := by
  have step : v.bcopyStep t n = .cont (((((v.kept t (leVal (Claims.scratchRun s t (v.reg t 24).toNat n))).scratchWrite t
      (v.reg t 25).toNat (Claims.scratchRun s t (v.reg t 24).toNat n)).bump t 24 (BitVec.ofNat 64 n)).bump t 25
      (BitVec.ofNat 64 n)).setReg t 26 (v.reg t 26 - BitVec.ofNat 64 n)) := by
    rw [State.bcopyStep, up, if_neg Bool.false_ne_true, hv.loads 0 srcLow srcHigh,
      (hv.copying.kept _).putGranule dstLow dstHigh, leBytes_scratchRun, ofNat_sub_toNat _ fits]
  have written := scratchRun_scratchWrite (v.kept t (leVal (Claims.scratchRun s t (v.reg t 24).toNat n))) t dstLow
    (scratchRun_length s t (v.reg t 24).toNat n)
  refine ⟨_, step, ?_, ?_, by rwa [scratchRun_setReg, scratchRun_bump, scratchRun_bump], ?_⟩ <;>
    simp [State.bump, State.reg_setReg, State.setReg_pc, hv.calm, hv.pc]

/-- The topmost granule left goes to the destination; the pointers stay (R305). -/
theorem bcopyStep_down {src dst : Nat} (down : v.copyDown t = true) (atSrc : (v.reg t 24).toNat + ((v.reg t 26).toNat - n) = src)
    (atDst : (v.reg t 25).toNat + ((v.reg t 26).toNat - n) = dst) (srcLow : 0x4000 ≤ src) (srcHigh : src + n ≤ 0x8000)
    (dstLow : 0x4000 ≤ dst) (dstHigh : dst + n ≤ 0x8000) (fits : n ≤ (v.reg t 26).toNat) :
    ∃ w, v.bcopyStep t n = .cont w ∧ (w.tr t).stepLeft = none ∧ (w.thr t).pc = (s.thr t).pc
      ∧ Claims.scratchRun w t dst n = Claims.scratchRun s t src n ∧ w.reg t 24 = v.reg t 24 ∧ w.reg t 25 = v.reg t 25
      ∧ w.reg t 26 = v.reg t 26 - BitVec.ofNat 64 n := by
  have step : v.bcopyStep t n = .cont (((v.kept t (leVal (Claims.scratchRun s t src n))).scratchWrite t dst
      (Claims.scratchRun s t src n)).setReg t 26 (v.reg t 26 - BitVec.ofNat 64 n)) := by
    rw [State.bcopyStep, if_pos down, atSrc, atDst, hv.loads 0 srcLow srcHigh, (hv.copying.kept _).putGranule dstLow dstHigh,
      leBytes_scratchRun, ofNat_sub_toNat _ fits]
  refine ⟨_, step, ?_, ?_, scratchRun_scratchWrite _ _ dstLow (scratchRun_length ..), ?_⟩ <;>
    simp [State.reg_setReg, State.setReg_pc, hv.calm, hv.pc]

/-- The low bytes of ga go to the destination (R305). -/
theorem bfillStep_effect (ga : Reg) (dstLow : 0x4000 ≤ (v.reg t 25).toNat) (dstHigh : (v.reg t 25).toNat + n ≤ 0x8000) :
    ∃ w, v.bfillStep t ga n = .cont w ∧ (w.tr t).stepLeft = none ∧ (w.thr t).pc = (s.thr t).pc
      ∧ Claims.scratchRun w t (v.reg t 25).toNat n = (List.range n).map (fun k => (v.reg t ga >>> (8 * k)).setWidth 8)
      ∧ w.reg t 26 = v.reg t 26 - BitVec.ofNat 64 n := by
  have step : v.bfillStep t ga n = .cont (((v.scratchWrite t (v.reg t 25).toNat (leBytes n (v.reg t ga).toNat)).bump t 25
      (BitVec.ofNat 64 n)).setReg t 26 (v.reg t 26 - BitVec.ofNat 64 n)) := by
    rw [State.bfillStep, hv.copying.putGranule dstLow dstHigh]
  rw [← leBytes_toNat]
  have written := scratchRun_scratchWrite v t dstLow (leBytes_length n (v.reg t ga).toNat)
  refine ⟨_, step, ?_, ?_, by rwa [scratchRun_setReg, scratchRun_bump], ?_⟩ <;>
    simp [State.bump, State.reg_setReg, State.setReg_pc, hv.calm, hv.pc]

/-- The two values are compared; equal ones let the comparison go on (R305). -/
theorem bcmpStep_effect (gd : Reg) (srcLow : 0x4000 ≤ (v.reg t 24).toNat)
    (srcHigh : (v.reg t 24).toNat + n ≤ 0x8000) (dstLow : 0x4000 ≤ (v.reg t 25).toNat) (dstHigh : (v.reg t 25).toNat + n ≤ 0x8000) :
    let a := Claims.scratchVal s t (v.reg t 24).toNat n
    let b := Claims.scratchVal s t (v.reg t 25).toNat n
    v.bcmpStep t gd n = if a ≠ b then .fin (((v.kept t a).kept t b).setReg t gd (if a < b then 1 else 2))
      else .cont (((((v.kept t a).kept t b).bump t 24 (BitVec.ofNat 64 n)).bump t 25 (BitVec.ofNat 64 n)).setReg t 26
        (v.reg t 26 - BitVec.ofNat 64 n)) := by
  dsimp only
  rw [State.bcmpStep, hv.loads 0 srcLow srcHigh, leVal_scratchRun,
    (hv.copying.kept _).granule dstLow dstHigh (by rw [State.kept_tr, hv.gran]; rfl), scratchRun_kept, hv.scratch,
    leVal_scratchRun]

/-- The value is compared with ga under the mask of gb (R305). -/
theorem bfindStep_effect (ne : Bool) (gd ga gb : Reg) (srcLow : 0x4000 ≤ (v.reg t 24).toNat)
    (srcHigh : (v.reg t 24).toNat + n ≤ 0x8000) :
    let a := Claims.scratchVal s t (v.reg t 24).toNat n
    let m := (v.reg t gb).toNat % 256 ^ n
    v.bfindStep t ne gd ga gb n = if decide (a &&& m = (v.reg t ga).toNat % 256 ^ n &&& m) != ne
      then .fin ((v.kept t a).setReg t gd 1)
      else .cont (((v.kept t a).bump t 24 (BitVec.ofNat 64 n)).setReg t 26 (v.reg t 26 - BitVec.ofNat 64 n)) := by
  dsimp only
  rw [State.bfindStep, hv.loads 0 srcLow srcHigh, leVal_scratchRun]

end

/-! ### The string instructions over thread scratch -/

section

variable (s : State) (t : Nat) (size : BitVec 2)

theorem bcopy_stringOp : ∃ rs use late, exec (.bcopy t size) s
    = stringOp t rs size use (fun s => s.copyDown t) id late (State.bcopyStep t) s :=
  ⟨_, _, _, (rfl : execBcopy t size s = _)⟩

theorem bfill_stringOp (ga : Reg) : ∃ rs use late, exec (.bfill t size ga) s
    = stringOp t rs size use (fun _ => false) id late (State.bfillStep t ga) s :=
  ⟨_, _, _, (rfl : execBfill t size ga s = _)⟩

theorem bcmp_stringOp (gd : Reg) : ∃ rs use late, exec (.bcmp t size gd) s
    = stringOp t rs size use (fun _ => false) (fun s => s.setReg t gd 0) late (State.bcmpStep t gd) s :=
  ⟨_, _, _, (rfl : execBcmp t size gd s = _)⟩

theorem bfind_stringOp (ne : Bool) (gd ga gb : Reg) : ∃ rs use late, exec (.bfind t size ne gd ga gb) s
    = stringOp t rs size use (fun _ => false) (fun s => s.setReg t gd 0) late (State.bfindStep t ne gd ga gb) s :=
  ⟨_, _, _, (rfl : execBfind t size ne gd ga gb s = _)⟩

end

section

variable {s : State} {t : Nat} {size : BitVec 2} (h : s.issues t) (ops : Claims.stringOver s t (2 ^ size.toNat))

theorem State.strBegun_id_reg (s : State) (t : Nat) (down : State → Bool) (r : Reg) :
    (s.strBegun t down id).reg t r = s.reg t r := by
  rw [State.strBegun, State.updTr_reg, id, s.fetchLine_reg]

include ops in
/-- BCOPY keeps to the direction it chose at its start (R305). -/
theorem strBegun_copyDown : (s.strBegun t (fun s => s.copyDown t) id).copyDown t
    = decide ((s.reg t 24).toNat < (s.reg t 25).toNat ∧ (s.reg t 25).toNat < (s.reg t 24).toNat + (s.reg t 26).toNat) := by
  obtain ⟨-, -, -, -, -, -, -, -, -, fresh, -⟩ := ops
  have chosen : (s.fetchLine t).copyDown t
      = decide ((s.reg t 24).toNat < (s.reg t 25).toNat ∧ (s.reg t 25).toNat < (s.reg t 24).toNat + (s.reg t 26).toNat) := by
    rw [State.copyDown, s.fetchLine_tr, fresh]
    simp only [s.fetchLine_reg]
  rw [← chosen, State.copyDown, State.strBegun, State.updTr_tr]

include h ops

theorem bcopy_up (up : ¬ ((s.reg t 24).toNat < (s.reg t 25).toNat ∧ (s.reg t 25).toNat < (s.reg t 24).toNat + (s.reg t 26).toNat)) :
    ∃ u, exec (.bcopy t size) s = .next u
      ∧ Claims.scratchRun u t (s.reg t 25).toNat (2 ^ size.toNat) = Claims.scratchRun s t (s.reg t 24).toNat (2 ^ size.toNat)
      ∧ u.reg t 24 = s.reg t 24 + BitVec.ofNat 64 (2 ^ size.toNat) ∧ u.reg t 25 = s.reg t 25 + BitVec.ofNat 64 (2 ^ size.toNat)
      ∧ u.reg t 26 = s.reg t 26 - BitVec.ofNat 64 (2 ^ size.toNat) ∧ (u.thr t).pc = Claims.stringPc s t (2 ^ size.toNat) := by
  have fits := stringOver_fits ops
  have begun := strBegun_id h ops (fun s => s.copyDown t)
  have dir := (strBegun_copyDown ops).trans (decide_eq_false up)
  have reg := s.strBegun_id_reg t (fun s => s.copyDown t)
  obtain ⟨-, -, -, -, srcLow, srcHigh, dstLow, dstHigh, -⟩ := id ops
  obtain ⟨w, step, calm, pc, bytes, r24, r25, r26⟩ := bcopyStep_up begun dir (n := 2 ^ size.toNat) (by rw [reg]; exact srcLow)
    (by rw [reg]; omega) (by rw [reg]; exact dstLow) (by rw [reg]; omega) (by rw [reg]; exact fits)
  simp only [reg] at bytes r24 r25 r26
  obtain ⟨_, _, _, does⟩ := bcopy_stringOp s t size
  obtain ⟨u, acts, shows⟩ := stringOp_cont h ops (s.fetchLine_reg ..) step r26 calm pc
  exact ⟨u, does.trans (acts ..), (shows.scratch ..).trans bytes, (shows.reg _).trans r24, (shows.reg _).trans r25, (shows.reg _).trans r26, shows.pc⟩

theorem bcopy_down (above : (s.reg t 24).toNat < (s.reg t 25).toNat)
    (overlap : (s.reg t 25).toNat < (s.reg t 24).toNat + (s.reg t 26).toNat) :
    ∃ u, exec (.bcopy t size) s = .next u
      ∧ Claims.scratchRun u t ((s.reg t 25).toNat + (s.reg t 26).toNat - 2 ^ size.toNat) (2 ^ size.toNat)
        = Claims.scratchRun s t ((s.reg t 24).toNat + (s.reg t 26).toNat - 2 ^ size.toNat) (2 ^ size.toNat)
      ∧ u.reg t 24 = s.reg t 24 ∧ u.reg t 25 = s.reg t 25
      ∧ u.reg t 26 = s.reg t 26 - BitVec.ofNat 64 (2 ^ size.toNat) ∧ (u.thr t).pc = Claims.stringPc s t (2 ^ size.toNat) := by
  have fits := stringOver_fits ops
  have begun := strBegun_id h ops (fun s => s.copyDown t)
  have dir := (strBegun_copyDown ops).trans (decide_eq_true ⟨above, overlap⟩)
  have reg := s.strBegun_id_reg t (fun s => s.copyDown t)
  obtain ⟨-, -, -, -, srcLow, srcHigh, dstLow, dstHigh, -⟩ := id ops
  obtain ⟨w, step, calm, pc, bytes, r24, r25, r26⟩ := bcopyStep_down begun (n := 2 ^ size.toNat)
    (src := (s.reg t 24).toNat + (s.reg t 26).toNat - 2 ^ size.toNat)
    (dst := (s.reg t 25).toNat + (s.reg t 26).toNat - 2 ^ size.toNat) dir (by rw [reg, reg]; omega) (by rw [reg, reg]; omega)
    (by omega) (by omega) (by omega) (by omega) (by rw [reg]; exact fits)
  simp only [reg] at r24 r25 r26
  obtain ⟨_, _, _, does⟩ := bcopy_stringOp s t size
  obtain ⟨u, acts, shows⟩ := stringOp_cont h ops (s.fetchLine_reg ..) step r26 calm pc
  exact ⟨u, does.trans (acts ..), (shows.scratch ..).trans bytes, (shows.reg _).trans r24, (shows.reg _).trans r25, (shows.reg _).trans r26, shows.pc⟩

theorem bfill_granule (ga : Reg) : ∃ u, exec (.bfill t size ga) s = .next u
    ∧ Claims.scratchRun u t (s.reg t 25).toNat (2 ^ size.toNat)
      = (List.range (2 ^ size.toNat)).map (fun k => (s.reg t ga >>> (8 * k)).setWidth 8)
    ∧ u.reg t 26 = s.reg t 26 - BitVec.ofNat 64 (2 ^ size.toNat) ∧ (u.thr t).pc = Claims.stringPc s t (2 ^ size.toNat) := by
  have fits := stringOver_fits ops
  have begun := strBegun_id h ops (fun _ => false)
  have reg := s.strBegun_id_reg t (fun _ => false)
  obtain ⟨-, -, -, -, -, -, dstLow, dstHigh, -⟩ := id ops
  obtain ⟨w, step, calm, pc, bytes, r26⟩ := bfillStep_effect begun (n := 2 ^ size.toNat) ga (by rw [reg]; exact dstLow)
    (by rw [reg]; omega)
  simp only [reg] at bytes r26
  obtain ⟨_, _, _, does⟩ := bfill_stringOp s t size ga
  obtain ⟨u, acts, shows⟩ := stringOp_cont h ops (s.fetchLine_reg ..) step r26 calm pc
  exact ⟨u, does.trans (acts ..), (shows.scratch ..).trans bytes, (shows.reg _).trans r26, shows.pc⟩

end

/-! ### BCMP and BFIND clear gd first (R305) -/

theorem decide_bne_iff (p : Prop) [Decidable p] (b : Bool) : (decide p != b) = true ↔ (b = true ↔ ¬ p) := by
  cases b <;> simp

section

variable {s : State} {t : Nat} {size : BitVec 2} {gd : Reg} (h : s.issues t) (ops : Claims.stringOver s t (2 ^ size.toNat))
  (named : gd ∉ [0, 24, 25, 26])

include named in
theorem named_ne : gd ≠ 0 ∧ gd ≠ 24 ∧ gd ≠ 25 ∧ gd ≠ 26 := by
  simpa only [List.mem_cons, List.not_mem_nil, or_false, not_or] using named

/-- The state in which a comparison or a search begins: gd is 0. -/
def State.strCleared (s : State) (t : Nat) (gd : Reg) : State := s.strBegun t (fun _ => false) fun s => s.setReg t gd 0

theorem State.strCleared_reg (s : State) (t : Nat) (gd r : Reg) :
    (s.strCleared t gd).reg t r = if r = gd then 0 else s.reg t r := by
  rw [State.strCleared, State.strBegun, State.updTr_reg, State.reg_setReg, s.fetchLine_reg, ite_self]

include named in
theorem State.strCleared_operands : (s.strCleared t gd).reg t 24 = s.reg t 24
    ∧ (s.strCleared t gd).reg t 25 = s.reg t 25 ∧ (s.strCleared t gd).reg t 26 = s.reg t 26 := by
  obtain ⟨-, h24, h25, h26⟩ := named_ne named
  refine ⟨?_, ?_, ?_⟩ <;> rw [State.strCleared_reg, if_neg]
  exacts [Ne.symm h24, Ne.symm h25, Ne.symm h26]

include named in
theorem setReg_count : ((s.fetchLine t).setReg t gd 0).reg t 26 = s.reg t 26 := by
  obtain ⟨-, -, -, h26⟩ := named_ne named
  rw [State.reg_setReg, if_neg (Ne.symm h26), s.fetchLine_reg]

include h ops in
theorem State.strCleared_begun (gd : Reg) : (s.strCleared t gd).Begun s t := strBegun_setReg h ops _ gd 0

include h ops named

/-- The granules of BCMP, from the state in which it begins. -/
theorem bcmp_step :
    let a := Claims.scratchVal s t (s.reg t 24).toNat (2 ^ size.toNat)
    let b := Claims.scratchVal s t (s.reg t 25).toNat (2 ^ size.toNat)
    let v := ((s.strCleared t gd).kept t a).kept t b
    (s.strCleared t gd).bcmpStep t gd (2 ^ size.toNat) = if a ≠ b then .fin (v.setReg t gd (if a < b then 1 else 2))
      else .cont (((v.bump t 24 (BitVec.ofNat 64 (2 ^ size.toNat))).bump t 25 (BitVec.ofNat 64 (2 ^ size.toNat))).setReg t 26
        (s.reg t 26 - BitVec.ofNat 64 (2 ^ size.toNat))) := by
  have fits := stringOver_fits ops
  obtain ⟨r24, r25, r26⟩ := State.strCleared_operands (s := s) (t := t) named
  obtain ⟨-, -, -, -, srcLow, srcHigh, dstLow, dstHigh, -⟩ := id ops
  have step := bcmpStep_effect (State.strCleared_begun h ops gd) (n := 2 ^ size.toNat) gd (by rw [r24]; exact srcLow)
    (by rw [r24]; omega) (by rw [r25]; exact dstLow) (by rw [r25]; omega)
  rwa [r24, r25, r26] at step

theorem bcmp_differs (differs : Claims.scratchVal s t (s.reg t 24).toNat (2 ^ size.toNat)
      ≠ Claims.scratchVal s t (s.reg t 25).toNat (2 ^ size.toNat)) : ∃ u, exec (.bcmp t size gd) s = .next u
    ∧ u.reg t gd = (if Claims.scratchVal s t (s.reg t 24).toNat (2 ^ size.toNat)
      < Claims.scratchVal s t (s.reg t 25).toNat (2 ^ size.toNat) then 1 else 2)
    ∧ u.reg t 26 = s.reg t 26 ∧ (u.thr t).pc = (s.thr t).pc + 4 := by
  have step := (bcmp_step h ops named).trans (if_pos differs)
  have begun := State.strCleared_begun h ops gd
  obtain ⟨r24, r25, r26⟩ := State.strCleared_operands (s := s) (t := t) named
  obtain ⟨_, _, _, does⟩ := bcmp_stringOp s t size gd
  obtain ⟨h0, -, -, h26⟩ := named_ne named
  obtain ⟨u, acts, shows⟩ := stringOp_fin (zero := fun s => s.setReg t gd 0) h ops (setReg_count named) step
    (by rw [State.setReg_tr, State.kept_tr, State.kept_tr]; exact begun.calm)
    ((State.setReg_pc ..).trans begun.pc)
  refine ⟨u, does.trans (acts ..), ?_, ?_, shows.pc⟩
  · rw [shows.reg, State.reg_setReg, if_pos rfl, if_neg h0]
  · rw [shows.reg, State.reg_setReg, if_neg (Ne.symm h26), State.kept_reg, State.kept_reg, r26]

theorem bcmp_equal (equal : Claims.scratchVal s t (s.reg t 24).toNat (2 ^ size.toNat)
      = Claims.scratchVal s t (s.reg t 25).toNat (2 ^ size.toNat)) : ∃ u, exec (.bcmp t size gd) s = .next u
    ∧ u.reg t gd = 0 ∧ u.reg t 26 = s.reg t 26 - BitVec.ofNat 64 (2 ^ size.toNat)
    ∧ (u.thr t).pc = Claims.stringPc s t (2 ^ size.toNat) := by
  have step := (bcmp_step h ops named).trans (if_neg (not_not_intro equal))
  have begun := State.strCleared_begun h ops gd
  obtain ⟨_, _, _, does⟩ := bcmp_stringOp s t size gd
  obtain ⟨u, acts, shows⟩ := stringOp_cont (zero := fun s => s.setReg t gd 0) h ops (setReg_count named) step (by simp [State.reg_setReg])
    (by simp only [State.setReg_tr, State.bump_tr, State.kept_tr, begun.calm])
    (by simp only [State.setReg_pc, State.bump_pc, State.kept_thr, begun.pc])
  obtain ⟨-, h24, h25, h26⟩ := named_ne named
  refine ⟨u, does.trans (acts ..), ?_, ?_, shows.pc⟩
  · simp only [shows.reg, State.bump, State.reg_setReg, if_neg h24, if_neg h25, if_neg h26, State.kept_reg,
      State.strCleared_reg, if_true]
  · simp [shows.reg, State.reg_setReg]

section

variable {ga gb : Reg} (ne : Bool) (src : ga ≠ gd) (mask : gb ≠ gd)

/-- The value under the mask of gb is that of ga (R305). -/
abbrev State.finds (s : State) (t n : Nat) (ga gb : Reg) : Prop :=
  Claims.scratchVal s t (s.reg t 24).toNat n &&& (s.reg t gb).toNat % 256 ^ n
    = (s.reg t ga).toNat % 256 ^ n &&& (s.reg t gb).toNat % 256 ^ n

include src mask

/-- The granule of BFIND, from the state in which it begins. -/
theorem bfind_step :
    let v := (s.strCleared t gd).kept t (Claims.scratchVal s t (s.reg t 24).toNat (2 ^ size.toNat))
    ((ne = true ↔ ¬ s.finds t (2 ^ size.toNat) ga gb) →
        (s.strCleared t gd).bfindStep t ne gd ga gb (2 ^ size.toNat) = .fin (v.setReg t gd 1))
      ∧ ((ne = true ↔ s.finds t (2 ^ size.toNat) ga gb) →
        (s.strCleared t gd).bfindStep t ne gd ga gb (2 ^ size.toNat) = .cont ((v.bump t 24 (BitVec.ofNat 64 (2 ^ size.toNat))).setReg
          t 26 (s.reg t 26 - BitVec.ofNat 64 (2 ^ size.toNat)))) := by
  have fits := stringOver_fits ops
  obtain ⟨r24, -, r26⟩ := State.strCleared_operands (s := s) (t := t) named
  obtain ⟨-, -, -, -, srcLow, srcHigh, -⟩ := id ops
  have step := bfindStep_effect (State.strCleared_begun h ops gd) (n := 2 ^ size.toNat) ne gd ga gb (by rw [r24]; exact srcLow)
    (by rw [r24]; omega)
  dsimp only at step
  rw [r24, r26, State.strCleared_reg, if_neg mask, State.strCleared_reg, if_neg src] at step
  exact ⟨fun found => step.trans (if_pos ((decide_bne_iff ..).2 found)),
    fun passed => step.trans (if_neg fun bad => not_iff_self ((passed.symm.trans ((decide_bne_iff ..).1 bad)).symm))⟩

theorem bfind_finds (found : ne = true ↔ ¬ s.finds t (2 ^ size.toNat) ga gb) :
    ∃ u, exec (.bfind t size ne gd ga gb) s = .next u ∧ u.reg t gd = 1 ∧ u.reg t 26 = s.reg t 26
      ∧ (u.thr t).pc = (s.thr t).pc + 4 := by
  have step := (bfind_step h ops named ne src mask).1 found
  have begun := State.strCleared_begun h ops gd
  obtain ⟨-, -, r26⟩ := State.strCleared_operands (s := s) (t := t) named
  obtain ⟨h0, -, -, h26⟩ := named_ne named
  obtain ⟨_, _, _, does⟩ := bfind_stringOp s t size ne gd ga gb
  obtain ⟨u, acts, shows⟩ := stringOp_fin (zero := fun s => s.setReg t gd 0) h ops (setReg_count named) step
    (by rw [State.setReg_tr, State.kept_tr]; exact begun.calm) ((State.setReg_pc ..).trans begun.pc)
  refine ⟨u, does.trans (acts ..), ?_, ?_, shows.pc⟩
  · rw [shows.reg, State.reg_setReg, if_pos rfl, if_neg h0]
  · rw [shows.reg, State.reg_setReg, if_neg (Ne.symm h26), State.kept_reg, r26]

theorem bfind_passes (passed : ne = true ↔ s.finds t (2 ^ size.toNat) ga gb) :
    ∃ u, exec (.bfind t size ne gd ga gb) s = .next u ∧ u.reg t gd = 0
      ∧ u.reg t 24 = s.reg t 24 + BitVec.ofNat 64 (2 ^ size.toNat) ∧ u.reg t 26 = s.reg t 26 - BitVec.ofNat 64 (2 ^ size.toNat)
      ∧ (u.thr t).pc = Claims.stringPc s t (2 ^ size.toNat) := by
  have step := (bfind_step h ops named ne src mask).2 passed
  have begun := State.strCleared_begun h ops gd
  obtain ⟨r24, -, -⟩ := State.strCleared_operands (s := s) (t := t) named
  obtain ⟨-, h24, -, h26⟩ := named_ne named
  obtain ⟨_, _, _, does⟩ := bfind_stringOp s t size ne gd ga gb
  obtain ⟨u, acts, shows⟩ := stringOp_cont (zero := fun s => s.setReg t gd 0) h ops (setReg_count named) step (by simp [State.reg_setReg])
    (by simp only [State.setReg_tr, State.bump_tr, State.kept_tr, begun.calm])
    (by simp only [State.setReg_pc, State.bump_pc, State.kept_thr, begun.pc])
  refine ⟨u, does.trans (acts ..), ?_, ?_, ?_, shows.pc⟩
  · simp only [shows.reg, State.bump, State.reg_setReg, if_neg h24, if_neg h26, State.kept_reg, State.strCleared_reg, if_true]
  · rw [← r24]
    simp [shows.reg, State.bump, State.reg_setReg]
  · simp [shows.reg, State.reg_setReg]

end

end

end Sys2Proof.Machine
end

section
/-!
PROOFS. O15, REP (R301-R303): the fields of its word, and what its elements leave.
-/

namespace Sys2Proof.Machine

/-! ### The two words of a REP of ADDI gd, gd, 1 (R301, R302) -/

theorem repFields_word {w : W32} {i r : Bool} {ga : Reg} {count : Nat} (small : count < 64)
    (immediate : r = false → i = false ∧ ga = 0) (register : r = true → count = 0)
    (word : w.toNat = 0x27 * 0x4000000 + i.toNat * 0x2000000 + r.toNat * 0x1000000 + ga.toNat * 0x10000 + count) :
    repFields w = some (i, r, ga, count) := by
  have reg : BitVec.ofNat 5 (w.toNat / 0x10000) = ga := by
    apply BitVec.eq_of_toNat_eq
    have := ga.isLt
    rw [BitVec.toNat_ofNat, word]
    omega
  have bits : w.toNat / 0x4000000 = 0x27 ∧ w.toNat / 0x200000 % 8 = 0 ∧ w.toNat / 64 % 1024 = 0 ∧ w.toNat % 64 = count
      ∧ w.toNat / 0x2000000 % 2 = i.toNat ∧ w.toNat / 0x1000000 % 2 = r.toNat := by
    have := ga.isLt
    have := i.toNat_lt
    have := r.toNat_lt
    omega
  obtain ⟨major, zero1, zero2, low, hi, hr⟩ := bits
  unfold repFields
  simp only [major, zero1, zero2, low, hi, hr, reg]
  cases r with
  | false =>
    obtain ⟨rfl, rfl⟩ := immediate rfl
    rfl
  | true =>
    obtain rfl := register rfl
    cases i <;> rfl

/-- ADDI gd, gd, 1, as REP repeats it. -/
def RepOp.increment (gd : Reg) : RepOp := ⟨.add, gd, gd, .imm 1⟩

theorem repOp_addi (gd : Reg) : repOp (wordI 0x01 gd gd 1) = some (.increment gd) := by
  have lt := gd.isLt
  have word : (wordI 0x01 gd gd 1).toNat = 0x4000000 + gd.toNat * 0x200000 + gd.toNat * 0x10000 + 1 := by
    rw [wordI, BitVec.toNat_ofNat, show (1 : BitVec 16).toNat = 1 from rfl]
    omega
  have major : (wordI 0x01 gd gd 1).toNat / 0x4000000 = 1 := by omega
  have hd : BitVec.ofNat 5 ((wordI 0x01 gd gd 1).toNat / 0x200000) = gd := by
    apply BitVec.eq_of_toNat_eq
    rw [BitVec.toNat_ofNat, show (wordI 0x01 gd gd 1).toNat / 0x200000 = 32 + gd.toNat by omega]
    omega
  have ha : BitVec.ofNat 5 ((wordI 0x01 gd gd 1).toNat / 0x10000) = gd := by
    apply BitVec.eq_of_toNat_eq
    rw [BitVec.toNat_ofNat]
    omega
  have one : BitVec.ofNat 16 (wordI 0x01 gd gd 1).toNat = 1 := by
    apply BitVec.eq_of_toNat_eq
    rw [BitVec.toNat_ofNat, show (1 : BitVec 16).toNat = 1 from rfl]
    omega
  unfold repOp
  simp only [major, hd, ha, one]
  rfl

/-! ### Elements -/

/-- `n` increments add `n` and leave every other register, the PC and the thread's run. -/
theorem State.elements_increment (s : State) (t : Nat) {gd : Reg} (named : gd ≠ 0) (n : Nat) :
    (s.elements t (.increment gd) n).reg t gd = s.reg t gd + BitVec.ofNat 64 n
      ∧ (∀ r, r ≠ gd → (s.elements t (.increment gd) n).reg t r = s.reg t r)
      ∧ ((s.elements t (.increment gd) n).thr t).pc = (s.thr t).pc
      ∧ (s.elements t (.increment gd) n).tr t = s.tr t := by
  induction n generalizing s with
  | zero => exact ⟨(BitVec.add_zero _).symm, fun _ _ => rfl, rfl, rfl⟩
  | succ n ih =>
    have first : s.elements t (.increment gd) (n + 1) = (s.setReg t gd (s.reg t gd + 1)).elements t (.increment gd) n := rfl
    obtain ⟨sum, others, pc, tr⟩ := ih (s.setReg t gd (s.reg t gd + 1))
    rw [first]
    refine ⟨?_, fun r hr => ?_, ?_, ?_⟩
    · rw [sum, State.reg_setReg, if_pos rfl, if_neg named, BitVec.ofNat_add, add_comm (BitVec.ofNat 64 n), add_assoc]
      rfl
    · rw [others r hr, State.reg_setReg, if_neg hr]
    · rw [pc, State.setReg_pc]
    · rw [tr, State.setReg_tr]

/-! ### REP -/

/-- PC moves past the REP and the instruction it repeats (R301). -/
def State.past (s : State) (t : Nat) : State := s.updThr t fun x => { x with pc := x.pc + 8 }

/-- What a well-formed REP does: all of an immediate count, 64 of a counted one, one of an interruptible one (R301-R303). -/
def State.repeated (s : State) (t : Nat) (o : RepOp) (i r : Bool) (ga : Reg) (count : Nat) : State :=
  let c := (s.reg t ga).toNat
  let one := (s.elements t o 1).setReg t ga (s.reg t ga - 1)
  if !r then (s.elements t o (count + 1)).past t
  else if c = 0 then s.past t
  else if i then (if c = 1 then one.past t else one)
  else ((s.elements t o (Nat.min c 64)).setReg t ga (s.reg t ga - BitVec.ofNat 64 (Nat.min c 64))).past t

theorem rep_acts {s : State} {t : Nat} {w nxt : W32} {o : RepOp} {i r : Bool} {ga : Reg} {count : Nat} (h : s.issues t)
    (fields : repFields w = some (i, r, ga, count)) (op : repOp nxt = some o) (apart : r = true → o.gd ≠ ga) :
    exec (.rep t w nxt) s = .next (((s.fetchLine t).repeated t o i r ga count).issued t) := by
  change execRep t w nxt s = _
  unfold execRep
  refine issue_acts h ?_
  rw [fields, op]
  dsimp only
  rw [if_neg (by simpa using apart), State.regBusy_fetch s t _ h, if_neg Bool.false_ne_true]
  simp only [State.repeated, apply_ite some]
  rfl

section

variable {s : State} {t : Nat} {w nxt : W32} {gd ga : Reg} (h : s.issues t) (dest : gd ≠ 0)
  (op : repOp nxt = some (.increment gd))

include h in
/-- A REP that leaves past its instruction shows what its elements have left. -/
theorem rep_past {v : State} {i : Instr} (acts : exec i s = .next ((v.past t).issued t)) (tr : v.tr t = s.tr t) :
    ∃ u, exec i s = .next u ∧ (∀ r, u.reg t r = v.reg t r) ∧ (u.thr t).pc = (v.thr t).pc + 8 := by
  obtain ⟨u, does, thr⟩ := acts_on_thread acts (tr ▸ State.issues_calm h)
  rw [State.past, State.updThr_thr] at thr
  exact ⟨u, does, fun r => by rw [State.reg, thr]; rfl, by rw [thr]⟩

include h dest op

theorem rep_immediate {count : Nat} (fields : repFields w = some (false, false, 0, count)) :
    ∃ u, exec (.rep t w nxt) s = .next u ∧ u.reg t gd = s.reg t gd + BitVec.ofNat 64 (count + 1)
      ∧ (u.thr t).pc = (s.thr t).pc + 8 := by
  have acts := rep_acts h fields op nofun
  have leaves : (s.fetchLine t).repeated t (.increment gd) false false 0 count
      = ((s.fetchLine t).elements t (.increment gd) (count + 1)).past t := by
    rw [State.repeated, if_pos (by rfl)]
  rw [leaves] at acts
  obtain ⟨sum, -, pc, tr⟩ := (s.fetchLine t).elements_increment t dest (count + 1)
  obtain ⟨u, does, reg, past⟩ := rep_past h acts (tr.trans (s.fetchLine_tr t t))
  exact ⟨u, does, by rw [reg, sum, s.fetchLine_reg], by rw [past, pc, s.fetchLine_thr]⟩

variable (source : ga ≠ 0) (apart : ga ≠ gd)
include source apart

theorem rep_counted (fields : repFields w = some (false, true, ga, 0)) :
    ∃ u, exec (.rep t w nxt) s = .next u ∧ u.reg t gd = s.reg t gd + BitVec.ofNat 64 (Nat.min (s.reg t ga).toNat 64)
      ∧ u.reg t ga = s.reg t ga - BitVec.ofNat 64 (Nat.min (s.reg t ga).toNat 64) ∧ (u.thr t).pc = (s.thr t).pc + 8 := by
  have acts := rep_acts h fields op fun _ => Ne.symm apart
  have regs := s.fetchLine_reg t t
  by_cases none : (s.reg t ga).toNat = 0
  · have leaves : (s.fetchLine t).repeated t (.increment gd) false true ga 0 = (s.fetchLine t).past t := by
      rw [State.repeated, regs, if_neg (by decide), if_pos none]
    rw [leaves] at acts
    obtain ⟨u, does, reg, past⟩ := rep_past h acts (s.fetchLine_tr t t)
    refine ⟨u, does, ?_, ?_, by rw [past, s.fetchLine_thr]⟩ <;> simp [reg, regs, none]
  · have leaves : (s.fetchLine t).repeated t (.increment gd) false true ga 0
        = (((s.fetchLine t).elements t (.increment gd) (Nat.min (s.reg t ga).toNat 64)).setReg t ga
          (s.reg t ga - BitVec.ofNat 64 (Nat.min (s.reg t ga).toNat 64))).past t := by
      rw [State.repeated, regs, if_neg (by decide), if_neg none, if_neg Bool.false_ne_true]
    rw [leaves] at acts
    obtain ⟨sum, -, pc, tr⟩ := (s.fetchLine t).elements_increment t dest (Nat.min (s.reg t ga).toNat 64)
    obtain ⟨u, does, reg, past⟩ := rep_past h acts (tr.trans (s.fetchLine_tr t t))
    refine ⟨u, does, ?_, ?_, by rw [past, State.setReg_pc, pc, s.fetchLine_thr]⟩
    · rw [reg, State.reg_setReg, if_neg (Ne.symm apart), sum, regs]
    · rw [reg, State.reg_setReg, if_pos rfl, if_neg source]

theorem rep_interruptible (fields : repFields w = some (true, true, ga, 0)) (more : 2 ≤ (s.reg t ga).toNat) :
    ∃ u, exec (.rep t w nxt) s = .next u ∧ u.reg t gd = s.reg t gd + 1 ∧ u.reg t ga = s.reg t ga - 1
      ∧ (u.thr t).pc = (s.thr t).pc := by
  have acts := rep_acts h fields op fun _ => Ne.symm apart
  have regs := s.fetchLine_reg t t
  have stays : (s.fetchLine t).repeated t (.increment gd) true true ga 0
      = ((s.fetchLine t).elements t (.increment gd) 1).setReg t ga (s.reg t ga - 1) := by
    rw [State.repeated, regs, if_neg (by decide), if_neg (by omega), if_pos rfl, if_neg (by omega)]
  rw [stays] at acts
  obtain ⟨sum, -, pc, tr⟩ := (s.fetchLine t).elements_increment t dest 1
  obtain ⟨u, does, thr⟩ := acts_on_thread acts (by rw [State.setReg_tr, tr]; exact fetchLine_calm h)
  refine ⟨u, does, ?_, ?_, by rw [thr, State.setReg_pc, pc, s.fetchLine_thr]⟩
  · rw [State.reg, thr, ← State.reg, State.reg_setReg, if_neg (Ne.symm apart), sum, regs]
    rfl
  · rw [State.reg, thr, ← State.reg, State.reg_setReg, if_pos rfl, if_neg source]

end

/-- Settles O15: each granule by its instruction's step over thread scratch, each form of REP by its word's fields. -/
theorem stringsAndRepetition : Obligations.StringsAndRepetition := by
  unfold Obligations.StringsAndRepetition
  refine ⟨fun s t size h => ?_, fun s t count gd ga h dest source apart => ?_⟩
  · dsimp only
    intro ops
    refine ⟨bcopy_up h ops, bcopy_down h ops, bfill_granule h ops, fun gd named => ⟨fun less => ?_, fun more => ?_,
      bcmp_equal h ops named⟩, fun gd ga gb ne named src mask => ⟨bfind_finds h ops named ne src mask,
      bfind_passes h ops named ne src mask⟩⟩
    · simpa only [if_pos less] using bcmp_differs h ops named less.ne
    · obtain ⟨u, acts, two, -, pc⟩ := bcmp_differs h ops named more.ne'
      exact ⟨u, acts, two.trans (if_neg more.not_gt), pc⟩
  · have op := repOp_addi gd
    have low := count.isLt
    have named := ga.isLt
    exact ⟨rep_immediate h dest op (repFields_word low (fun _ => ⟨rfl, rfl⟩) nofun (by simp; omega)),
      rep_counted h dest op source apart (repFields_word (by decide) nofun (fun _ => rfl) (by simp; omega)),
      rep_interruptible h dest op source apart (repFields_word (by decide) nofun (fun _ => rfl) (by simp; omega))⟩

end Sys2Proof.Machine
end

section
/-!
PROOFS. O13: the short operations of units 0 and 2 (R333, R336-R338): the fetch leaves alone what they read of their unit, and the
folded sums of R336 are a fixed point of the end-around carry after three of them.
-/

namespace Sys2Proof.Machine

/-! ### The units as an instruction finds them (R332, R334) -/

theorem State.fetchLine_helperOff (s : State) (t k unit : Nat) : (s.fetchLine t).helperOff k unit = s.helperOff k unit := by
  obtain ⟨_, _, _, _, h⟩ := s.fetchLine_core t (coreOf k)
  rw [State.helperOff, h, State.helperOff]

theorem State.fetchLine_unitBusy (s : State) (t k unit : Nat) : (s.fetchLine t).unitBusy k unit = s.unitBusy k unit := by
  simp only [State.unitBusy, s.fetchLine_tr]

theorem State.fetchLine_tplzVal (s : State) (t : Nat) (d a b : W64) : (s.fetchLine t).tplzVal d a b = s.tplzVal d a b := by
  obtain ⟨_, _, _, frame⟩ := s.fetchLine_frame t
  have net : (s.fetchLine t).net = s.net := by rw [frame]
  rw [State.tplzVal, State.hashKey, net, State.tplzVal, State.hashKey]

section

variable {s : State} {i : Instr} {t unit : Nat} {rs : List Reg} {gd : Reg} {v : State → W64} {bad : State → Option Nat}
  (h : s.issues t) (runs : exec i s = shortOp t unit rs bad gd v s)
include h runs

/-- An enabled, idle unit gives the result of a short operation whose operands it accepts. -/
theorem shortOp_completes (on : s.helperOff t unit = false) (idle : s.unitBusy t unit = false)
    (accepts : bad (s.fetchLine t) = none) {w : W64} (value : v (s.fetchLine t) = w) : Claims.completes s i t gd w := by
  refine completes_of_result h (runs.trans ?_)
  unfold shortOp
  refine issueRegs_some s t _ _ _ h ?_
  rw [accepts, s.fetchLine_helperOff, on, s.fetchLine_unitBusy, idle, value]
  rfl

/-- A disabled unit refuses an operation that it defines, with reason 2 (R333). -/
theorem shortOp_disabled (off : s.helperOff t unit = true) (defined : bad (s.fetchLine t) ≠ some 1)
    (program : (s.thr t).handler = false) (vector : s.vector t 2 ≠ 0) :
    ∃ u, exec i s = .next u ∧ Claims.entersHandler s u t 2 (BitVec.ofNat 64 (unit + 256 * 2)) 0 := by
  refine enters_of_trap (x := refused unit 2) h program (runs.trans ?_) vector
  unfold shortOp
  refine issueRegs_some s t _ _ _ h ?_
  rw [if_neg defined, s.fetchLine_helperOff, off]
  rfl

end

/-! ### Folded sums (R336) -/

/-- One round of fold(s): the carry comes back in at the low end. -/
def endCarry (n : Nat) : Nat := n % 65536 + n / 65536

theorem endCarry_fixed {n : Nat} (h : n ≤ 0xFFFF) : endCarry n = n := by
  unfold endCarry
  omega

theorem foldSum_iterate (n : Nat) : foldSum n = endCarry^[8] n := by
  have round : ∀ a, (if a ≤ 0xFFFF then a else a % 65536 + a / 65536) = endCarry a := by
    intro a
    split
    · next small => exact (endCarry_fixed small).symm
    · rfl
  simp only [foldSum, round, List.foldl_const, List.length_range]

theorem endAround_iterate (n : Nat) : Claims.endAround n = endCarry^[3] n := rfl

theorem endCarry_le {n : Nat} (h : n < 2 ^ 33) : endCarry n ≤ 0x2FFFE := by
  unfold endCarry
  omega

theorem endCarry_second {n : Nat} (h : n ≤ 0x2FFFE) : endCarry n ≤ 0x10000 := by
  unfold endCarry
  omega

theorem endCarry_third {n : Nat} (h : n ≤ 0x10000) : endCarry n ≤ 0xFFFF := by
  unfold endCarry
  omega

/-- Three carries make a sum of this size fit in 16 bits, and the rounds after them change nothing. -/
theorem foldSum_endAround {n : Nat} (h : n < 2 ^ 33) : foldSum n = Claims.endAround n := by
  have fits : Claims.endAround n ≤ 0xFFFF := endCarry_third (endCarry_second (endCarry_le h))
  calc foldSum n = endCarry^[5] (endCarry^[3] n) := foldSum_iterate n
    _ = Claims.endAround n := Function.iterate_fixed (endCarry_fixed fits) 5

theorem Claims.bits_lt (a : W64) (lo n : Nat) : Claims.bits a lo n < 2 ^ n := (a.extractLsb' lo n).isLt

/-- The top 16 bits are what lies above them in the number. -/
theorem bits_top (b : W64) : Claims.bits b 48 16 = b.toNat / 2 ^ 48 := by
  have := b.isLt
  rw [← fld_eq_bits, fld]
  omega

theorem csumVal_eq (a b : W64) : csumVal a b = BitVec.ofNat 64 (Claims.endAround (a.toNat % 2 ^ 32 + Claims.bits b 48 16
    + Claims.bits b 32 16 + Claims.bits b 16 16 + Claims.bits b 0 16)) := by
  have := Claims.bits_lt b 48 16
  have := Claims.bits_lt b 32 16
  have := Claims.bits_lt b 16 16
  have := Claims.bits_lt b 0 16
  rw [← foldSum_endAround (by omega), bits_top, ← fld_eq_bits, ← fld_eq_bits, ← fld_eq_bits]
  simp [csumVal, fld]

theorem csumadjVal_eq (a b : W64) : csumadjVal a b = BitVec.ofNat 64 (65535
    - Claims.endAround ((65535 - Claims.bits a 0 16) + (65535 - Claims.bits b 16 16) + Claims.bits b 0 16)) := by
  have := Claims.bits_lt b 0 16
  rw [← foldSum_endAround (by omega), ← fld_eq_bits, ← fld_eq_bits, ← fld_eq_bits]
  simp [csumadjVal, fld]

/-! ### The operations (R336-R338) -/

theorem hrangeVal_eq (a b : W64) :
    hrangeVal a b = BitVec.ofNat 64 (Claims.bits a 0 32 * Claims.bits b 0 32 / 2 ^ 32) := by
  rw [← fld_eq_bits, ← fld_eq_bits]
  simp [hrangeVal, fld]

section

variable {s : State} {t : Nat} {gd ga gb : Reg} (h : s.issues t)
include h

/-- The value of an operation on ga and gb that accepts all of them. -/
theorem shortOp_value {i : Instr} {unit : Nat} {rs : List Reg} {f : W64 → W64 → W64}
    (runs : exec i s = shortOp t unit rs (fun _ => none) gd (fun s => f (s.reg t ga) (s.reg t gb)) s)
    (on : s.helperOff t unit = false) (idle : s.unitBusy t unit = false) :
    Claims.completes s i t gd (f (s.reg t ga) (s.reg t gb)) :=
  shortOp_completes h runs on idle rfl (by rw [s.fetchLine_reg, s.fetchLine_reg])

/-- TPLZ accepts an offset of at most 52 with nothing above it (R333). -/
theorem tplz_completes (on : s.helperOff t 2 = false) (idle : s.unitBusy t 2 = false) (zero : Claims.bits (s.reg t gb) 10 54 = 0)
    (offset : Claims.bits (s.reg t gb) 4 6 ≤ 52) :
    Claims.completes s (.tplz t gd ga gb) t gd (s.tplzVal (s.reg t gd) (s.reg t ga) (s.reg t gb)) := by
  have accepts : ¬ ((s.reg t gb).toNat / 1024 ≠ 0) ∧ ¬ 52 < (s.reg t gb).toNat / 16 % 64 := by
    have := (s.reg t gb).isLt
    rw [← fld_eq_bits, fld] at zero offset
    omega
  have runs : exec (.tplz t gd ga gb) s = execTplz t gd ga gb s := rfl
  unfold execTplz at runs
  refine shortOp_completes h runs on idle ?_ (by rw [s.fetchLine_tplzVal, s.fetchLine_reg, s.fetchLine_reg, s.fetchLine_reg])
  dsimp only
  rw [s.fetchLine_reg, if_neg accepts.1, if_neg accepts.2]

end

/-- Settles O13: each operation is a short one of its unit, and its value is the one that its rule gives. -/
theorem shortHelpers : Obligations.ShortHelpers := by
  unfold Obligations.ShortHelpers
  intro s t gd ga gb h
  refine ⟨fun on idle => ⟨?csum, ?csumadj, fun size ieee => ?crc⟩, fun on idle => ⟨?hmix, ?hrange, tplz_completes h on idle⟩,
    ?disabled⟩
  case csum => exact csumVal_eq .. ▸ shortOp_value (f := csumVal) h rfl on idle
  case csumadj => exact csumadjVal_eq .. ▸ shortOp_value (f := csumadjVal) h rfl on idle
  case crc => exact shortOp_value (f := fun a b => crcVal a b (2 ^ size.toNat) ieee) h rfl on idle
  case hmix => exact shortOp_value (f := hmixVal) h rfl on idle
  case hrange => exact hrangeVal_eq .. ▸ shortOp_value (f := hrangeVal) h rfl on idle
  case disabled =>
    exact fun off => shortOp_disabled (i := .csum t gd ga gb) (bad := fun _ => none)
      (v := fun s => csumVal (s.reg t ga) (s.reg t gb)) h rfl off nofun

end Sys2Proof.Machine
end

section
/-!
PROOFS. O14: the long operations over thread scratch (R331, R336, R337, R341-R344): their start, GCM_FINAL, and the end of a sum.
-/

namespace Sys2Proof.Machine

/-! ### Operands in thread scratch (R331) -/

theorem inScratch_of_bounds {a n : Nat} (low : 0x4000 ≤ a) (high : a + n ≤ 0x8000) : inScratch a n = true := by
  simp [inScratch, low, high]

theorem localArea_scratch {a n : Nat} (low : 0x4000 ≤ a) (high : a + n ≤ 0x8000) : localArea a n = some 2 := by
  rw [localArea, if_neg (by omega), if_neg (by omega), inScratch_of_bounds low high]
  rfl

theorem State.CleanScratch.localRead {s : State} {t a n : Nat} (h : s.CleanScratch t a n) :
    s.localRead t a n = .ok (Claims.scratchRun s t a n) := by
  obtain ⟨run, lkps, clean, low, high⟩ := h
  obtain ⟨p, cur⟩ := Option.isSome_iff_exists.1 run
  rw [State.localRead, cur]
  dsimp only
  rw [State.lkpOverlap_idle lkps, if_neg Bool.false_ne_true, if_neg (by omega), if_neg (by omega), if_neg (by omega),
    inScratch_of_bounds low high, if_pos rfl, State.scratchPoisoned_clean clean, if_neg Bool.false_ne_true,
    State.scratchBytes_eq]

theorem State.fetchLine_longOver {s : State} {t : Nat} (ops : Claims.longOver s t) : Claims.longOver (s.fetchLine t) t := by
  unfold Claims.longOver
  rw [s.fetchLine_reg, s.fetchLine_reg, State.scr_fetchLine, s.fetchLine_owner, State.curPkt_fetchLine]
  exact ops

section

variable {s : State} {t : Nat} (ops : Claims.longOver s t)
include ops

theorem longOver_clean (lkps : (s.tr t).lkps = []) : s.CleanScratch t (s.src t) (s.cnt t) := by
  obtain ⟨-, -, low, high, clean, run⟩ := ops
  exact ⟨run, lkps, clean, low, high⟩

/-- Operands in scratch break no rule, of a writing operation where it works in place. -/
theorem State.longBad_scratch {writing : Bool} (inPlace : writing = true → (s.reg t 25).toNat = (s.reg t 24).toNat) :
    s.longBad t writing = none := by
  obtain ⟨pos, few, low, high, -, -⟩ := ops
  have counted : 0 < s.cnt t := pos
  have bounded : s.cnt t ≤ 10240 := few
  have area : localArea (s.src t) (s.cnt t) = some 2 := localArea_scratch low high
  unfold State.longBad
  dsimp only
  rw [if_neg (not_lt.2 bounded), if_neg counted.ne', area]
  cases writing with
  | false => rfl
  | true =>
    have same : s.dst t = s.src t := inPlace rfl
    rw [same, area]
    simp

/-- An idle unit takes an operation over scratch, and the thread waits in it. -/
theorem State.startLong_scratch {unit : Nat} (lkps : (s.tr t).lkps = []) (idle : s.unitBusy t unit = false) (gd ga : Reg)
    (op : LongOp) : s.startLong t unit gd ga op = some (s.updTr t fun x => { x with wait := .long unit gd ga op }) := by
  have read := (longOver_clean ops lkps).localRead
  obtain ⟨pos, -, -, -, -, -⟩ := ops
  have counted : 0 < s.cnt t := pos
  unfold State.startLong
  rw [idle, if_neg Bool.false_ne_true, if_neg counted.ne', read]

end

/-! ### The operations start (R332, R334, R341) -/

theorem State.fetchLine_lkps {s : State} {t : Nat} (h : s.issues t) : ((s.fetchLine t).tr t).lkps = [] := by
  rw [s.fetchLine_tr]
  exact State.issues_lkps h

/-- A thread that begins to wait keeps its registers and its PC. -/
theorem waits_of_updTr {s : State} {i : Instr} {t : Nat} {f : ThrRun → ThrRun} (h : s.issues t)
    (acts : exec i s = .next (((s.fetchLine t).updTr t f).issued t)) (step : (f (s.tr t)).stepLeft = (s.tr t).stepLeft) :
    Claims.waits s i t (f (s.tr t)).wait := by
  have tr : ((s.fetchLine t).updTr t f).tr t = f (s.tr t) := by rw [State.updTr_tr, s.fetchLine_tr]
  obtain ⟨-, thr, -, wait, -⟩ := State.issued_keeps (u := (s.fetchLine t).updTr t f) (t := t)
    (by rw [tr, step]; exact State.issues_calm h)
  exact ⟨_, acts, by rw [wait, tr], by rw [thr, State.updTr_thr, s.fetchLine_thr]⟩

theorem State.fetchLine_lock (s : State) (t k : Nat) : (s.fetchLine t).lock k = s.lock k := by
  obtain ⟨_, _, _, frame⟩ := s.fetchLine_frame t
  rw [frame]
  rfl

theorem State.fetchLine_keySlot (s : State) (t k : Nat) : (s.fetchLine t).keySlot k = s.keySlot k := by
  obtain ⟨_, _, _, frame⟩ := s.fetchLine_frame t
  rw [frame]
  rfl

theorem State.fetchLine_cryptoOff (s : State) (t k : Nat) : ((s.fetchLine t).cl k).cryptoOff = (s.cl k).cryptoOff := by
  obtain ⟨x, h⟩ := (s.fetchLine_l2Step t).cl k
  rw [h]

theorem State.fetchLine_cryptoBad (s : State) (t : Nat) (gd ga : Reg) :
    (s.fetchLine t).cryptoBad t gd ga = s.cryptoBad t gd ga := by
  simp only [State.cryptoBad, s.fetchLine_reg, s.fetchLine_lock, s.fetchLine_keySlot, s.fetchLine_cryptoOff]

theorem State.fetchLine_cryptoUnit (s : State) (t : Nat) (ga : Reg) : (s.fetchLine t).cryptoUnit t ga = s.cryptoUnit t ga := by
  rw [State.cryptoUnit, s.fetchLine_reg, State.cryptoUnit]

theorem State.fetchLine_cryptoKey (s : State) (t : Nat) (ga : Reg) : (s.fetchLine t).cryptoKey t ga = s.cryptoKey t ga := by
  rw [State.cryptoKey, s.fetchLine_reg, s.fetchLine_keySlot, State.cryptoKey]

section

variable {s : State} {t : Nat} {gd ga : Reg} (h : s.issues t) (ops : Claims.longOver s t)
include h ops

omit h in
theorem fetchLine_longBad {writing : Bool} (inPlace : writing = true → (s.reg t 25).toNat = (s.reg t 24).toNat) :
    (s.fetchLine t).longBad t writing = none :=
  State.longBad_scratch (State.fetchLine_longOver ops) fun w => by rw [s.fetchLine_reg, s.fetchLine_reg, inPlace w]

theorem fetchLine_startLong {unit : Nat} (idle : s.unitBusy t unit = false) (op : LongOp) :
    (s.fetchLine t).startLong t unit gd ga op
      = some ((s.fetchLine t).updTr t fun x => { x with wait := .long unit gd ga op }) :=
  State.startLong_scratch (State.fetchLine_longOver ops) (State.fetchLine_lkps h) (by rw [s.fetchLine_unitBusy, idle]) gd ga op

section

variable (on : s.helperOff t 0 = false) (idle : s.unitBusy t 0 = false)
include on idle

theorem csumm_waits : Claims.waits s (.csumm t gd ga) t (.long 0 gd ga .csumm) := by
  refine waits_of_updTr h (f := fun x => { x with wait := .long 0 gd ga .csumm }) ?_ rfl
  change execCsumm t gd ga s = _
  unfold execCsumm
  refine issueRegsLate_some s t _ _ _ _ h ?_
  rw [s.fetchLine_helperOff, on, if_neg Bool.false_ne_true, fetchLine_longBad (writing := false) ops nofun]
  exact fetchLine_startLong h ops idle .csumm

theorem crcm_waits (ieee : Bool) : Claims.waits s (.crcm t gd ga ieee) t (.long 0 gd ga (.crcm ieee)) := by
  refine waits_of_updTr h (f := fun x => { x with wait := .long 0 gd ga (.crcm ieee) }) ?_ rfl
  change execCrcm t gd ga ieee s = _
  unfold execCrcm
  refine issueRegsLate_some s t _ _ _ _ h ?_
  rw [s.fetchLine_helperOff, on, if_neg Bool.false_ne_true, fetchLine_longBad (writing := false) ops nofun]
  exact fetchLine_startLong h ops idle (.crcm ieee)

end

theorem cryptoLong_waits {i : Instr} {writing : Bool} {op : KeySlot → LongOp}
    (runs : exec i s = cryptoLong t gd ga writing op s) (may : s.cryptoBad t gd ga = none)
    (idle : s.unitBusy t (3 + s.cryptoUnit t ga) = false) (inPlace : (s.reg t 25).toNat = (s.reg t 24).toNat) :
    Claims.waits s i t (.long (3 + s.cryptoUnit t ga) gd ga (op (s.cryptoKey t ga))) := by
  refine waits_of_updTr h (f := fun x => { x with wait := .long (3 + s.cryptoUnit t ga) gd ga (op (s.cryptoKey t ga)) })
    (runs.trans ?_) rfl
  unfold cryptoLong
  refine issueRegsLate_some s t _ _ _ _ h ?_
  rw [s.fetchLine_cryptoBad, may, s.fetchLine_cryptoUnit, s.fetchLine_cryptoKey, fetchLine_longBad ops fun _ => inPlace]
  exact fetchLine_startLong h ops idle _

end

/-! ### GCM_FINAL (R343, R344) -/

@[simp] theorem State.setPair_tr (s : State) (t k : Nat) (b : Reg) (v : BitVec 128) : (s.setPair t b v).tr k = s.tr k := rfl

/-- Two registers other than g0 give back the block written to them. -/
theorem State.pair_setPair (s : State) (t : Nat) {b : Reg} (v : BitVec 128) (first : b ≠ 0) (second : b + 1 ≠ 0) :
    (s.setPair t b v).pair t b = v := by
  have apart : b ≠ b + 1 := by bv_omega
  have := v.isLt
  simp only [State.pair, State.setPair, State.reg_setReg, if_neg apart, if_neg first, if_neg second, if_true]
  apply BitVec.eq_of_toNat_eq
  simp only [BitVec.toNat_ofNat]
  omega

theorem groupOk_pair {b : Reg} (h : groupOk b = true) : b + 2 ≠ 0 ∧ b + 2 + 1 ≠ 0 := by
  revert b
  decide

/-- Every crypto operation names an allowed state group (R344). -/
theorem State.cryptoBad_groupOk {s : State} {t : Nat} {gd ga : Reg} (may : s.cryptoBad t gd ga = none) : groupOk gd = true := by
  unfold State.cryptoBad at may
  split at may
  · cases may
  · split_ifs at may with _ _ _ group
    simpa using group

theorem State.pair_of_thr {s u : State} {t : Nat} (h : u.thr t = s.thr t) (b : Reg) : u.pair t b = s.pair t b := by
  simp only [State.pair, State.reg, h]

theorem State.advance_reg (s : State) (t : Nat) (r : Reg) : (s.advance t).reg t r = s.reg t r := by
  rw [State.reg, State.advance, State.updThr_thr]
  rfl

theorem State.advance_pair (s : State) (t : Nat) (b : Reg) : (s.advance t).pair t b = s.pair t b := by
  rw [State.pair, s.advance_reg, s.advance_reg, State.pair]

theorem gcmFinal_tag {s : State} {t : Nat} {gd ga : Reg} (h : s.issues t) (may : s.cryptoBad t gd ga = none)
    (idle : s.unitBusy t (3 + s.cryptoUnit t ga) = false) (gb : Reg) : ∃ u, exec (.gcmFinal t gd ga gb) s = .next u
      ∧ u.pair t (gd + 2) = gcmTag (s.cryptoKey t ga).alg (s.cryptoKey t ga).key (s.pair t gd) (s.pair t (gd + 2))
        (Claims.bits (s.reg t gb) 0 32) (Claims.bits (s.reg t gb) 32 32) := by
  have pairs (b : Reg) : (s.fetchLine t).pair t b = s.pair t b := State.pair_of_thr (s.fetchLine_thr t t) b
  have lengths : Claims.bits (s.reg t gb) 0 32 = (s.reg t gb).toNat % 2 ^ 32
      ∧ Claims.bits (s.reg t gb) 32 32 = (s.reg t gb).toNat / 2 ^ 32 := by
    have := (s.reg t gb).isLt
    rw [← fld_eq_bits, ← fld_eq_bits, fld, fld]
    omega
  have acts : exec (.gcmFinal t gd ga gb) s = .next ((((s.fetchLine t).setPair t (gd + 2)
      (gcmTag (s.cryptoKey t ga).alg (s.cryptoKey t ga).key (s.pair t gd) (s.pair t (gd + 2))
        (Claims.bits (s.reg t gb) 0 32) (Claims.bits (s.reg t gb) 32 32))).advance t).issued t) := by
    change execGcmFinal t gd ga gb s = _
    unfold execGcmFinal
    refine issueRegs_some s t _ _ _ h ?_
    dsimp only
    rw [s.fetchLine_cryptoBad, may, s.fetchLine_cryptoUnit, s.fetchLine_unitBusy, idle, s.fetchLine_cryptoKey, pairs, pairs,
      s.fetchLine_reg, lengths.1, lengths.2]
    rfl
  obtain ⟨first, second⟩ := groupOk_pair (State.cryptoBad_groupOk may)
  obtain ⟨u, hu, thr⟩ := acts_on_thread acts (by simpa using fetchLine_calm h)
  exact ⟨u, hu, by rw [State.pair_of_thr thr, State.advance_pair, State.pair_setPair _ _ _ first second]⟩

/-! ### The end of a sum (R331, R336, R337) -/

theorem State.stepCheck_calm {s : State} {t : Nat} (calm : (s.tr t).stepLeft = none) : s.stepCheck t = s := by
  rw [State.stepCheck, calm]
  rfl

theorem State.unstall_stepLeft (s : State) (c t : Nat) : ((s.unstall c).tr t).stepLeft = (s.tr t).stepLeft := by
  simpa only using congrArg ThrRun.stepLeft (s.unstall_tr c t)

theorem State.unstall_wait (s : State) (c t : Nat) : ((s.unstall c).tr t).wait = (s.tr t).wait := by
  simpa only using congrArg ThrRun.wait (s.unstall_tr c t)

/-- The operands of a sum move on in a running thread, and it goes on after the instruction. -/
theorem State.longEnd_runs {v s : State} {t : Nat} (running : Claims.running v t) :
    let u := (v.longEnd s t false).stepCheck t
    (u.tr t).wait = .none ∧ u.thr t = (((v.setReg t 24 (s.reg t 24 + s.reg t 26)).setReg t 26 0).advance t).thr t := by
  obtain ⟨resumed, calm⟩ := running
  have moved : v.longEnd s t false = ((((v.setReg t 24 (s.reg t 24 + s.reg t 26)).setReg t 26 0).result t 0 0).updTr t
      fun x => { x with wait := .none, stepLeft := x.stepLeft.map (· - 1) }).unstall (coreOf t) := by
    rw [State.longEnd, if_neg Bool.false_ne_true, State.complete_runs (by exact resumed)]
  dsimp only
  rw [moved, State.stepCheck_calm, State.unstall_wait, State.unstall_thr, State.updTr_tr, State.updTr_thr]
  · refine ⟨rfl, ?_⟩
    rw [State.result_thr, Thr.set_zero, State.advance, State.updThr_thr]
  · rw [State.unstall_stepLeft, State.updTr_tr]
    simp [calm]

/-- The result of a sum that has ended is in gd, g24 has moved past the bytes, and g26 is 0. -/
theorem longOpDone_sum {s : State} {t : Nat} {gd : Reg} (running : Claims.running s t) (free : gd ∉ [0, 24, 25, 26]) {v : W64}
    (acts : exec (.longOpDone t) s = .next (((s.setReg t gd v).longEnd s t false).stepCheck t)) :
    ∃ u, exec (.longOpDone t) s = .next u ∧ (u.tr t).wait = .none ∧ u.reg t gd = v
      ∧ u.reg t 24 = s.reg t 24 + s.reg t 26 ∧ u.reg t 26 = 0 ∧ (u.thr t).pc = (s.thr t).pc + 4 := by
  simp only [List.mem_cons, List.not_mem_nil, or_false, not_or] at free
  obtain ⟨named, notSrc, -, notCount⟩ := free
  obtain ⟨wait, thr⟩ := State.longEnd_runs (v := s.setReg t gd v) (s := s) running
  have reg (r : Reg) : (((s.setReg t gd v).longEnd s t false).stepCheck t).reg t r
      = (((s.setReg t gd v).setReg t 24 (s.reg t 24 + s.reg t 26)).setReg t 26 0).reg t r := by
    rw [State.reg, thr, ← State.reg, State.advance_reg]
  refine ⟨_, acts, wait, ?_, ?_, ?_, ?_⟩
  · rw [reg, State.reg_setReg, if_neg notCount, State.reg_setReg, if_neg notSrc, State.reg_setReg, if_pos rfl, if_neg named]
  · simp [reg, State.reg_setReg]
  · simp [reg, State.reg_setReg]
  · rw [thr, State.advance_pc, State.setReg_pc, State.setReg_pc, State.setReg_pc]

section

variable {s : State} {t : Nat} {gd ga : Reg} (ops : Claims.longOver s t) (running : Claims.running s t)
  (lkps : (s.tr t).lkps = []) (free : gd ∉ [0, 24, 25, 26])
include ops running lkps free

theorem longOpDone_csumm (wait : (s.tr t).wait = .long 0 gd ga .csumm) : ∃ u, exec (.longOpDone t) s = .next u
    ∧ (u.tr t).wait = .none
    ∧ u.reg t gd = BitVec.ofNat 64 (foldSum (Claims.bits (s.reg t ga) 0 32 + pairSum (Claims.longBytes s t)))
    ∧ u.reg t 24 = s.reg t 24 + s.reg t 26 ∧ u.reg t 26 = 0 ∧ (u.thr t).pc = (s.thr t).pc + 4 := by
  refine longOpDone_sum running free ?_
  change execLongOpDone t s = _
  unfold execLongOpDone
  rw [wait]
  dsimp only
  rw [(longOver_clean ops lkps).localRead, ← fld_eq_bits, fld, Nat.pow_zero, Nat.div_one]
  rfl

theorem longOpDone_crcm {ieee : Bool} (wait : (s.tr t).wait = .long 0 gd ga (.crcm ieee)) :
    ∃ u, exec (.longOpDone t) s = .next u ∧ (u.tr t).wait = .none
      ∧ u.reg t gd = (crcBytes (crcPoly ieee) ((s.reg t ga).extractLsb' 0 32) (Claims.longBytes s t)).setWidth 64
      ∧ u.reg t 26 = 0 := by
  have acts : exec (.longOpDone t) s = .next (((s.setReg t gd ((crcBytes (crcPoly ieee) ((s.reg t ga).extractLsb' 0 32)
      (Claims.longBytes s t)).setWidth 64)).longEnd s t false).stepCheck t) := by
    change execLongOpDone t s = _
    unfold execLongOpDone
    rw [wait]
    dsimp only
    rw [(longOver_clean ops lkps).localRead, ← low32]
    rfl
  obtain ⟨u, hu, none, value, -, zero, -⟩ := longOpDone_sum running free acts
  exact ⟨u, hu, none, value, zero⟩

end

/-- Settles O14: each operation starts by its lemma, and a sum ends with its value over the bytes that scratch holds. -/
theorem longHelpers : Obligations.LongHelpers := by
  unfold Obligations.LongHelpers
  refine ⟨fun s t gd ga h ops => ⟨fun on idle => ⟨csumm_waits h ops on idle, crcm_waits h ops on idle⟩,
      fun may idle inPlace => ?_⟩,
    fun s t gd ga ops resumed calm lkps free => ⟨longOpDone_csumm ops ⟨resumed, calm⟩ lkps free,
      fun ieee => longOpDone_crcm ops ⟨resumed, calm⟩ lkps free⟩⟩
  exact ⟨cryptoLong_waits (op := fun k => .gctr true k.alg k.key) h ops rfl may idle inPlace,
    cryptoLong_waits (op := fun k => .gctr false k.alg k.key) h ops rfl may idle inPlace,
    cryptoLong_waits (op := fun k => .ghash k.alg k.key) h ops rfl may idle inPlace, gcmFinal_tag h may idle⟩

end Sys2Proof.Machine
end

section
/-!
PROOFS. O19 fails: a wait that times out is answered in the register it names only while its thread does not wait at a granule of a
string instruction, whose value is held for the instruction instead (R305, R349).
-/

namespace Sys2Proof.Machine

/-- Thread 0 waits for lock 0 at a granule of a string instruction, while its entry in the queue names g1. -/
def granuleWaiter : LkWaiter := ⟨.thread 0, 1, false, 0, 0, 0⟩

def granuleWait : State := { State.reset with
  locks := { State.reset.locks with locks := [(0, { waiters := [granuleWaiter] })] }
  truns := [(0, { wait := .granLock 0 })] }

/-- The timeout hands the answer to the instruction as the granule's value: the register keeps its 0. -/
theorem granuleWait_timeout {u : State} (acts : exec (.lockWaitTimeout 0) granuleWait = .next u) : u.reg 0 1 = 0 := by
  cases acts
  rfl

/-- Refutes O19: its last clause asks for TIMEOUT in the register that the queue's entry names, but a thread that waits at a
granule of a string instruction gets the answer as the granule's value, and the register keeps its 0. No hypothesis says that the thread waits in a
load. -/
theorem not_locksPassInTurn : ¬ Obligations.LocksPassInTurn := by
  unfold Obligations.LocksPassInTurn
  rintro ⟨-, -, -, -, -, timedOut⟩
  obtain ⟨u, hu, -, -, -, timeout⟩ := timedOut granuleWait 0 granuleWaiter 0 rfl rfl (by decide) ⟨rfl, rfl⟩ rfl (by decide)
  rw [show granuleWaiter.gd = 1 from rfl, granuleWait_timeout hu] at timeout
  exact absurd timeout (by decide)

end Sys2Proof.Machine
end

section
/-!
PROOFS. O46, units: what the end of a run leaves alone of the faults (R230-R234, R552), and a unit disabled, enabled and reset (R334).
-/

namespace Sys2Proof.Machine

/-! ### The end of a run leaves the fault unit alone (R230-R234, R349, R354) -/

/-- An answer changes threads, or what the Pumphouse or a host was answered last. -/
theorem State.answerWaiter_frame (s : State) (w : LkWaiter) (v : W64) : ∃ x y z,
    s.answerWaiter w v = { s with thrs := x, truns := y, locks := { s.locks with answers := z } } := by
  unfold State.answerWaiter
  split
  · dsimp only
    split
    · exact ⟨s.thrs, _, s.locks.answers, rfl⟩
    · unfold State.complete
      split
      · exact ⟨s.thrs, _, s.locks.answers, rfl⟩
      · exact ⟨_, _, s.locks.answers, rfl⟩
  · exact ⟨s.thrs, s.truns, _, rfl⟩

theorem State.answerWaiter_faults (s : State) (w : LkWaiter) (v : W64) : (s.answerWaiter w v).faults = s.faults := by
  obtain ⟨_, _, _, h⟩ := s.answerWaiter_frame w v
  rw [h]

theorem State.answerWaiter_lock (s : State) (w : LkWaiter) (v : W64) (k : Nat) : (s.answerWaiter w v).lock k = s.lock k := by
  obtain ⟨_, _, _, h⟩ := s.answerWaiter_frame w v
  rw [h]
  rfl

theorem State.lockPass_faults (s : State) (k : Nat) : (s.lockPass k).faults = s.faults := by
  unfold State.lockPass
  dsimp only
  split
  · rfl
  · exact State.answerWaiter_faults ..

theorem State.abandonAll_faults (s : State) (r : Requester) : (s.abandonAll r).faults = s.faults :=
  State.foldl_keeps State.faults _ (fun x k => x.setLock k { x.lock k with abandoned := true } |>.lockPass_faults k) _ s

theorem State.quiet_faults (s : State) (t : Nat) : (s.quiet t).faults = s.faults := by
  simp only [State.quiet, State.chanEnd, State.lockLeave, State.updTr_faults, State.updCore_faults, State.updTask_faults,
    State.updCl_faults]

theorem State.stopChild_faults (s : State) (t : Nat) : (s.stopChild t).faults = s.faults := by
  rw [State.stopChild, State.updTr_faults, State.abandonAll_faults, State.quiet_faults]

theorem State.stopChildren_faults (s : State) (t : Nat) : (s.stopChildren t).faults = s.faults := by
  rw [State.stopChildren, State.updTr_faults]
  exact State.foldl_keeps State.faults (fun (x : State) (c : Child) => x.stopChild c.t) (fun x c => x.stopChild_faults c.t) _ s

theorem State.WakeStep.faults {s u : State} (h : s.WakeStep u) : u.faults = s.faults := by
  obtain ⟨_, _, _, _, rfl⟩ := h
  rfl

theorem State.BasinStep.faults {s u : State} (h : s.BasinStep u) : u.faults = s.faults := by
  obtain ⟨_, _, _, rfl⟩ := h
  rfl

theorem State.startRun_faults (s : State) (t p : Nat) : (s.startRun t p).faults = s.faults := by
  unfold State.startRun
  dsimp only
  rw [(State.traceRec_wakeStep ..).faults, (State.ungate_wakeStep ..).faults, State.updRc_faults, State.updPkt_faults,
    State.updTr_faults, State.updThr_faults]

theorem State.nextSlot_faults (s : State) (t : Nat) : (s.nextSlot t).faults = s.faults := by
  unfold State.nextSlot
  dsimp only
  split
  · exact s.abandonAll_faults _
  · split
    · exact (State.startRun_faults ..).trans (s.abandonAll_faults _)
    · exact s.abandonAll_faults _

theorem State.lockAtEnd_faults (s : State) (t : Nat) : (s.lockAtEnd t).faults = s.faults := by
  unfold State.lockAtEnd
  split
  · rfl
  · rfl

theorem State.threadFreed_faults (s : State) (t : Nat) :
    ((((s.lockAtEnd t).stopChildren t).quiet t).nextSlot t).faults = s.faults := by
  rw [State.nextSlot_faults, State.quiet_faults, State.stopChildren_faults, State.lockAtEnd_faults]

theorem State.runDropped_faults (s : State) (p : Nat) (run : RunSt) :
    (((s.refund p).dropVers p).freeProv p run).faults = s.faults := by
  have freed (x : State) : (x.freeProv p run).faults = x.faults := State.foldl_keeps State.faults _ (fun y h => by
    split
    · exact (State.freeBuf_basinStep y h).faults
    · rfl) _ x
  exact (freed _).trans (State.foldl_keeps State.faults State.refund1 (fun _ _ => rfl) _ _)

theorem State.clearRun_faults (s : State) (p : Nat) : (s.clearRun p).faults = s.faults := by
  unfold State.clearRun
  split
  · split
    · rfl
    · rfl
    · rfl
  · next run _ =>
    dsimp only
    split
    · rw [State.threadFreed_faults, s.runDropped_faults]
    · split
      · rw [State.threadFreed_faults, State.updOrder_faults, s.runDropped_faults]
      · rw [State.updOrder_faults, s.runDropped_faults]
    · rw [State.updOrder_faults, s.runDropped_faults]

theorem State.listPut_faults (s : State) (p : Nat) : (s.listPut p).faults = s.faults := by
  simp only [State.listPut, State.updOrder_faults, State.updRc_faults, State.updPkt_faults]

theorem State.redo1_faults (s : State) (p : Nat) (m : Mark) : (s.redo1 p m).faults = s.faults := by
  unfold State.redo1
  dsimp only
  split
  · rw [State.endRefused, State.updPkt_faults, State.clearRun_faults]
  · rw [State.listPut_faults, State.updCnt_faults, State.updRc_faults, State.clearRun_faults]

theorem State.cascade_faults (s : State) (l : List Nat) : (s.cascade l).faults = s.faults :=
  State.foldl_keeps State.faults (fun (x : State) q => (x.redo1 q .cascade).updCnt fun c => { c with cascades := c.cascades + 1 })
    (fun x q => by rw [State.updCnt_faults, State.redo1_faults]) _ s

theorem State.storePut_faults (s : State) (p : Nat) (t : Option Nat) (run : RunSt) (reason : Nat) (forced : Option Nat) :
    (s.storePut p t run reason forced).faults = s.faults := by
  unfold State.storePut
  split
  · rfl
  · rfl

/-- A counted failure of a run is no fault. -/
theorem State.fail_faults (s : State) (p lastTrap : Nat) : (s.fail p lastTrap).faults = s.faults := by
  have cleared : ((s.cascade [p]).clearRun p).faults = s.faults := (State.clearRun_faults ..).trans (s.cascade_faults [p])
  unfold State.fail State.failAt State.endForced
  dsimp only
  split
  · split
    · rw [State.endRefused, State.updPkt_faults, cleared]
    · rw [State.storePut_faults, State.updCnt_faults, State.updRc_faults, cleared]
  · split
    · rw [State.endRefused, State.updPkt_faults, cleared]
    · rw [State.listPut_faults, State.updCnt_faults, State.updRc_faults, cleared]

/-! ### HELPER_CONTROL (R334) -/

/-- One bit of a mask set or cleared. -/
theorem getLsbD_switched {n : Nat} (off : Bool) (v : BitVec n) {k : Nat} (h : k < n) :
    (BitVec.ofNat n (if off then v.toNat ||| 2 ^ k else v.toNat &&& (2 ^ n - 1 - 2 ^ k))).getLsbD k = off := by
  rw [BitVec.getLsbD_ofNat, decide_eq_true h, Bool.true_and]
  cases off with
  | true => simp
  | false =>
    rw [if_neg Bool.false_ne_true, Nat.testBit_and, show 2 ^ n - 1 - 2 ^ k = 2 ^ n - (2 ^ k + 1) by omega,
      Nat.testBit_two_pow_sub_succ (Nat.pow_lt_pow_right (by decide) h)]
    simp

theorem State.setUnit_unitOff (s : State) {n : Nat} (hn : n ≤ 2) (k : Nat) (off : Bool) : (s.setUnit n k off).unitOff n k = off := by
  unfold State.setUnit State.unitOff
  dsimp only
  by_cases crypto : n = 1
  · rw [if_pos crypto, if_pos crypto, State.updCl_cl]
    exact getLsbD_switched off _ (by omega)
  · rw [if_neg crypto, if_neg crypto, State.updCore_core]
    exact getLsbD_switched off _ (by omega)

theorem State.setUnit_resetCount (s : State) (n k : Nat) (off : Bool) (kind i : Nat) :
    (s.setUnit n k off).resetCount kind i = s.resetCount kind i := by
  cases off with
  | true =>
    unfold State.setUnit
    dsimp only
    split
    · rfl
    · rfl
  | false =>
    unfold State.setUnit
    dsimp only
    split
    · rfl
    · rfl

theorem State.bumpReset_resetCount (s : State) (kind i : Nat) :
    (s.bumpReset kind i).resetCount kind i = s.resetCount kind i + 1 := SMap.get_set_self ..

theorem State.unitReset_effect (s : State) {n : Nat} (hn : n ≤ 2) (k : Nat) : (s.unitReset n k).unitOff n k = false
    ∧ (s.unitReset n k).resetCount 7 (n * 256 + k) = s.resetCount 7 (n * 256 + k) + 1 := by
  unfold State.unitReset
  extract_lets s1
  have faults : s1.faults = s.faults := State.foldl_keeps State.faults _ (fun x t => by
    split
    · exact x.fail_faults _ 0
    · rfl) _ s
  refine ⟨s1.setUnit_unitOff hn k false, ?_⟩
  rw [State.bumpReset_resetCount, State.setUnit_resetCount, State.resetCount, faults, State.resetCount]

section

variable (s : State) (c : CmdRef) {n k : Nat} (hn : n ≤ 2) (hk : k ≤ if n = 1 then 23 else 191)
include hn hk

theorem helperControl_switches {a : Nat} (known : a < 2) (ha : s.accepts c 0x040C [(1, a), (1, n), (1, k)]) :
    Claims.answersOk s (.helperControl c a n k) c fun u => u.unitOff n k = decide (a = 0) := by
  have body : helperControlBody c a n k s = (s.setUnit n k (a = 0), .ok) := by
    unfold helperControlBody
    dsimp only
    rw [if_neg (by omega), if_pos known]
  exact ⟨_, State.command_ok ha body, s.setUnit_unitOff hn k _⟩

theorem helperControl_resets (ha : s.accepts c 0x040C [(1, 2), (1, n), (1, k)]) (first : (s.guardTaken c).2 = false) :
    Claims.answersOk s (.helperControl c 2 n k) c fun u => u.unitOff n k = false
      ∧ u.resetCount 7 (n * 256 + k) = s.resetCount 7 (n * 256 + k) + 1 := by
  have body : helperControlBody c 2 n k s
      = ((s.unitReset n k).errCnt 9 fun e => { e with cmdResets := e.cmdResets + 1 }, .ok) := by
    unfold helperControlBody
    dsimp only
    rw [if_neg (by omega), if_neg (by decide), if_neg (by simp [first])]
  exact ⟨_, State.command_ok ha body, s.unitReset_effect hn k⟩

end

end Sys2Proof.Machine
end

section
/-!
PROOFS. O46: the commands of lock groups, locks, keys, ticks, signals and their status images (R340, R346, R352, R358, R360, R362).
-/

namespace Sys2Proof.Machine

/-! ### What a lock, a list of ticks and a map read as after a change (R349, R362) -/

/-- A lock that becomes free goes to its first waiter (R349). -/
theorem State.lockPass_lock (s : State) (k : Nat) : ((s.lockPass k).lock k).holder = (s.lock k).waiters.head?.map (·.who)
    ∧ ((s.lockPass k).lock k).abandoned = (s.lock k).abandoned := by
  unfold State.lockPass
  dsimp only
  split
  · next empty =>
    rw [State.setLock_lock, empty]
    exact ⟨rfl, rfl⟩
  · next w rest queue =>
    rw [State.answerWaiter_lock, State.setLock_lock, queue]
    exact ⟨rfl, rfl⟩

/-- A map written at the keys below a bound that do not meet a condition. -/
theorem SMap.get_foldl_set_unless {α : Type} [DecidableEq α] (d : α) (m : SMap α) (p : Nat → Prop) [DecidablePred p] (v : α)
    (n k : Nat) : SMap.get d ((List.range n).foldl (fun m i => if p i then m else SMap.set d m i v) m) k
      = if k < n ∧ ¬ p k then v else SMap.get d m k := by
  induction n with
  | zero => rw [List.range_zero, List.foldl_nil, if_neg (by omega)]
  | succ n ih =>
    rw [List.range_succ, List.foldl_append, List.foldl_cons, List.foldl_nil]
    by_cases last : k = n
    · subst last
      by_cases kept : p k
      · rw [if_pos kept, ih, if_neg (by omega), if_neg (by tauto)]
      · rw [if_neg kept, SMap.get_set_self, if_pos ⟨by omega, kept⟩]
    · have below : (k < n + 1 ∧ ¬ p k) ↔ (k < n ∧ ¬ p k) := and_congr_left' (by omega)
      rw [if_congr below rfl rfl, ← ih]
      split
      · rfl
      · rw [SMap.get_set_ne _ _ _ last]

theorem TaskSt.tick_below (k : TaskSt) {l : Nat} (h : l < 4) :
    k.tick l = [k.tick0, k.tick1, k.tick2, k.tick3].getD l 0 := by
  match l, h with
  | 0, _ => rfl
  | 1, _ => rfl
  | 2, _ => rfl
  | 3, _ => rfl

section

variable (s : State) (c : CmdRef)

/-! ### LOCK_GROUP_SET, LOCK_FORCE_RELEASE (R346, R352, R354) -/

theorem lockGroupSet_sets {g m t : Nat} (ha : s.accepts c 0x040D [(1, g), (2, m), (4, t)]) (hg : g ≤ 62) (hm : m ≤ 32767)
    (low : 1024 ≤ t) (high : t ≤ 16777215) : Claims.answersOk s (.lockGroupSet c g m t) c fun u =>
      u.lockGrp g = { s.lockGrp g with mask := BitVec.ofNat 15 m, timeout := t } ∧ u = { s with locks := u.locks } := by
  have body : lockGroupBody g m t s
      = (s.setLockGrp g { s.lockGrp g with mask := BitVec.ofNat 15 m, timeout := t }, .ok) := if_neg (by omega)
  exact ⟨_, State.command_ok ha body, SMap.get_set_self .., rfl⟩

theorem lockForceRelease_passes {k : Nat} (ha : s.accepts c 0x040E [(2, k)]) (hk : k ≤ 4095) (first : (s.guardTaken c).2 = false)
    (held : (s.lock k).holder.isSome = true) : Claims.answersOk s (.lockForceRelease c k) c fun u =>
      (u.lock k).abandoned = true ∧ (u.lock k).holder = ((s.lock k).waiters.head?).map (·.who) := by
  have taken : ¬ ((s.lock k).holder.isNone = true ∨ (s.guardTaken c).2 = true ∧ (s.lock k).gen.toNat ≠ (s.guardTaken c).1) := by
    rintro (free | ⟨again, -⟩)
    · simp [Option.isNone_iff_eq_none.1 free] at held
    · simp [first] at again
  have body : lockForceBody c k s = (s.lockAbandon k, .ok) := by
    unfold lockForceBody
    dsimp only
    rw [if_neg (by omega), if_neg taken]
  obtain ⟨holder, abandoned⟩ := (s.setLock k { s.lock k with abandoned := true }).lockPass_lock k
  rw [State.setLock_lock] at holder abandoned
  exact ⟨_, State.command_ok ha body, abandoned, holder⟩

theorem lockForceRelease_free {k : Nat} (ha : s.accepts c 0x040E [(2, k)]) (hk : k ≤ 4095) (free : (s.lock k).holder = none) :
    Claims.answersOk s (.lockForceRelease c k) c fun u => u = s := by
  have body : lockForceBody c k s = (s, .ok) := by
    unfold lockForceBody
    dsimp only
    rw [if_neg (by omega), if_pos (.inl (by rw [free]; rfl))]
  exact ⟨s, State.command_ok ha body, rfl⟩

/-! ### CRYPTO_KEY_SET (R340) -/

theorem cryptoKeySet_writes {k alg : Nat} {key : List Byte} (ha : s.accepts c 0x0B06 [(2, k), (1, alg), bytesField 32 key])
    (hk : k ≤ 4095) (known : alg ≤ 3) : Claims.answersOk s (.cryptoKeySet c k alg key) c fun u =>
      SMap.get {} u.keys k = ⟨alg, key.take ([0, 16, 32, 16].getD alg 0)⟩ ∧ u = { s with keys := u.keys } := by
  have body : cryptoKeyBody k alg key s = ({ s with keys := SMap.set {} s.keys k ⟨alg, key.take (keyBytes alg)⟩ }, .ok) :=
    if_neg (by omega)
  exact ⟨_, State.command_ok ha body, SMap.get_set_self .., rfl⟩

/-! ### TASK_CONFIG (R362) -/

theorem taskConfig_sets {k t0 t1 t2 t3 en w : Nat}
    (ha : s.accepts c 0x040F [(1, k), (1, t0), (1, t1), (1, t2), (1, t3), (1, en), (1, w)]) (hk : k ≤ 11)
    (ok0 : tickOk t0 = true) (ok1 : tickOk t1 = true) (ok2 : tickOk t2 = true) (ok3 : tickOk t3 = true) (hen : en ≤ 1)
    (low : 4 ≤ w) (high : w ≤ 24) : Claims.answersOk s (.taskConfig c k t0 t1 t2 t3 en w) c fun u =>
      (u.cl k).task = { (s.cl k).task with
        tick0 := t0, tick1 := t1, tick2 := t2, tick3 := t3, detect := en = 1, window := w, tickDt := (u.cl k).task.tickDt }
      ∧ ∀ l, l < 4 → SMap.get 0 (u.cl k).task.tickDt l = if (s.cl k).task.tick l = (u.cl k).task.tick l
        then SMap.get 0 (s.cl k).task.tickDt l else s.dt := by
  refine ⟨_, State.command_ok ha (if_neg ?valid), ?_⟩
  case valid =>
    simp only [ok0, ok1, ok2, ok3, Bool.not_true, Bool.false_eq_true, false_or]
    omega
  dsimp only
  rw [State.updTask_task]
  refine ⟨rfl, fun l hl => ?_⟩
  simp only [SMap.get_foldl_set_unless, TaskSt.tick_below _ hl, hl, true_and, ite_not]

/-! ### TASK_SIGNAL (R360) -/

theorem taskSignal_sets {t : Nat} {f : W32} (ha : s.accepts c 0x0410 [(2, t), (4, f.toNat)]) (ht : t ≤ 1535) :
    Claims.answersOk s (.taskSignal c t f) c fun u =>
      (u.thr t).evflags = (s.thr t).evflags ||| f ∧ ∀ r, u.reg t r = s.reg t r := by
  have body : taskSignalBody t f s = ((s.wakeCluster (clusterOf t)).setFlags t f, .ok) := if_neg (by omega)
  have thr : ((s.wakeCluster (clusterOf t)).setFlags t f).thr t = { s.thr t with evflags := (s.thr t).evflags ||| f } := by
    rw [State.setFlags, State.updThr_thr, (s.wakeCluster_wakeStep _).thr]
  refine ⟨_, State.command_ok ha body, by rw [thr], fun r => ?_⟩
  rw [State.reg, thr]
  rfl

/-! ### TASK_STATUS, CHANNEL_STATUS (R358, R365) -/

theorem taskStatus_answers {k : Nat} (ha : s.accepts c 0x0411 [(1, k)]) (hk : k ≤ 11) :
    Claims.answersData s (.taskStatus c k) c (s.taskImage k) := by
  have body : taskStatusBody k s = (s, .data (s.taskImage k)) := if_neg (by omega)
  exact State.command_reads ha body

theorem channelStatus_answers {k f n : Nat} (ha : s.accepts c 0x0412 [(1, k), (1, f), (2, n)]) (hk : k ≤ 11) (hn : f + n ≤ 256) :
    Claims.answersData s (.channelStatus c k f n) c (wordsBytes ((List.range n).map fun j => (s.chan k (f + j)).status)) := by
  have body : channelStatusBody k f n s
      = (s, .data (wordsBytes ((List.range n).map fun j => (s.chan k (f + j)).status))) := if_neg (by omega)
  exact State.command_reads ha body

end

/-- Settles O46: each clause is the lemma about its command. -/
theorem unitAndTaskCommands : Obligations.UnitAndTaskCommands := by
  unfold Obligations.UnitAndTaskCommands
  intro s c
  exact ⟨fun n k hn hk => ⟨helperControl_switches s c hn hk (by decide), helperControl_switches s c hn hk (by decide),
      helperControl_resets s c hn hk⟩,
    fun g m t => lockGroupSet_sets s c, fun k => lockForceRelease_passes s c, fun k => lockForceRelease_free s c,
    fun k alg key => cryptoKeySet_writes s c, fun k t0 t1 t2 t3 en w => taskConfig_sets s c, fun t f => taskSignal_sets s c,
    fun k => taskStatus_answers s c, fun k f n => channelStatus_answers s c⟩

end Sys2Proof.Machine
end

section
/-!
PROOFS. Rules of the forwarding tables: what a table or a register set reads as after a change, the fields of a TBL_CMD image
(R394), and what an operation that passes its checks does to an L2 table and to a counter (R366, R370, R389, R396).
-/

namespace Sys2Proof.Machine

/-! ### A table read after a change -/

section
variable (s : State)

@[simp] theorem State.setL2t_l2t (w : Nat) (x : L2Tbl) : (s.setL2t w x).l2t w = x := SMap.get_set_self ..

theorem State.setL2t_l2t_ne {w v : Nat} (x : L2Tbl) (h : v ≠ w) : (s.setL2t w x).l2t v = s.l2t v := SMap.get_set_ne _ _ _ h

@[simp] theorem State.updL2t_l2t (w : Nat) (f : L2Tbl → L2Tbl) : (s.updL2t w f).l2t w = f (s.l2t w) := SMap.get_set_self ..

theorem State.updL2t_l2t_ne {w v : Nat} (f : L2Tbl → L2Tbl) (h : v ≠ w) : (s.updL2t w f).l2t v = s.l2t v :=
  SMap.get_set_ne _ _ _ h

@[simp] theorem State.setTset_tset (r : Requester) (x : TblSet) : (s.setTset r x).tset r = x := SMap.get_set_self ..
@[simp] theorem State.dpTouch_l2t (tbl i w : Nat) : (s.dpTouch tbl i).l2t w = s.l2t w := rfl
@[simp] theorem State.dpTouch_well (tbl i w : Nat) : (s.dpTouch tbl i).well w = s.well w := rfl
@[simp] theorem State.updL2t_well (w : Nat) (f : L2Tbl → L2Tbl) (v : Nat) : (s.updL2t w f).well v = s.well v := rfl
@[simp] theorem State.setL2t_well (w : Nat) (x : L2Tbl) (v : Nat) : (s.setL2t w x).well v = s.well v := rfl
@[simp] theorem State.setWell_l2t (w : Nat) (x : Well) (v : Nat) : (s.setWell w x).l2t v = s.l2t v := rfl
@[simp] theorem State.updWell_l2t (w : Nat) (f : Well → Well) (v : Nat) : (s.updWell w f).l2t v = s.l2t v := rfl

end

/-! ### Sparse tables and lists of changes -/

/-- A table in canonical form lists the entries that are not the default, and no others. -/
theorem SMap.mem_iff_get {α : Type} [DecidableEq α] {d : α} {m : SMap α} (h : SMap.wf d m = true) (k : Nat) (v : α) :
    (k, v) ∈ m ↔ SMap.get d m k = v ∧ v ≠ d := by
  induction m with
  | nil => simp [SMap.get, eq_comm]
  | cons p rest ih =>
    simp only [SMap.wf, Bool.and_eq_true, List.all_eq_true, decide_eq_true_eq, bne_iff_ne, ne_eq] at h
    obtain ⟨⟨shown, above⟩, tail⟩ := h
    rw [List.mem_cons, ih tail]
    by_cases here : p.1 = k
    · have absent : SMap.get d rest k = d := SMap.get_of_lt d rest k (here ▸ above)
      have read : SMap.get d (p :: rest) k = p.2 := if_pos here
      rw [absent, read]
      constructor
      · rintro (rfl | ⟨rfl, ne⟩)
        · exact ⟨rfl, shown⟩
        · exact absurd rfl ne
      · rintro ⟨rfl, -⟩
        exact .inl (Prod.ext here.symm rfl)
    · have read : SMap.get d (p :: rest) k = SMap.get d rest k := if_neg here
      have other : (k, v) ≠ p := fun e => here (e ▸ rfl)
      simp only [read, other, false_or]

/-- Words written to a table from entry 0 on. -/
theorem SMap.get_foldl_words (m : SMap W64) (ws : List W64) {k : Nat} (hk : k < ws.length) :
    SMap.get 0 ((List.range ws.length).foldl (fun m k => SMap.set 0 m k (ws.getD k 0)) m) k = ws.getD k 0 := by
  simpa [hk] using SMap.get_foldl_set 0 m 0 (fun k => ws.getD k 0) ws.length k

/-- A change made once at each index of a list: an index of the list reads as changed, every other as it was. -/
theorem foldl_read_once {σ α : Type} {read : σ → Nat → α} {upd : σ → Nat → σ} {g : Nat → α → α}
    (same : ∀ x k, read (upd x k) k = g k (read x k)) (other : ∀ x k j, j ≠ k → read (upd x k) j = read x j)
    {l : List Nat} (once : l.Nodup) (x : σ) (j : Nat) :
    read (l.foldl upd x) j = if j ∈ l then g j (read x j) else read x j := by
  induction l generalizing x with
  | nil => rfl
  | cons k rest ih =>
    obtain ⟨absent, once⟩ := List.nodup_cons.1 once
    rw [List.foldl_cons, ih once]
    by_cases h : j = k
    · subst h
      rw [if_neg absent, if_pos List.mem_cons_self, same]
    · simp only [other x k j h, List.mem_cons, h, false_or]

/-! ### The fields of a TBL_CMD image (R394) -/

/-- What TBL_CMD holds after a write of an image with its row's operation: the reserved bits are 0. -/
def heldImage (w : W64) (op : Nat) : W64 := withOp w op &&& 0x000FFFFFFFFFFFFF

theorem withOp_toNat (w : W64) {op : Nat} (h : op < 16) : (withOp w op).toNat = w.toNat / 16 * 16 + op :=
  (BitVec.toNat_ofNat ..).trans (Nat.mod_eq_of_lt (by have := w.isLt; omega))

theorem heldImage_toNat (w : W64) {op : Nat} (h : op < 16) : (heldImage w op).toNat = (w.toNat / 16 * 16 + op) % 2 ^ 52 := by
  rw [heldImage, BitVec.toNat_and, withOp_toNat w h]
  exact Nat.and_two_pow_sub_one_eq_mod _ 52

theorem cmdOp_heldImage (w : W64) {op : Nat} (h : op < 16) : cmdOp (heldImage w op) = op := by
  rw [cmdOp, fld, heldImage_toNat w h]
  omega

/-- The other fields are the image's own. -/
theorem fld_heldImage (w : W64) {op lo n : Nat} (h : op < 16) (low : 4 ≤ lo) (high : lo + n ≤ 52) :
    fld (heldImage w op) lo n = fld w lo n := by
  have above (m : Nat) : m / 2 ^ lo = m / 16 / 2 ^ (lo - 4) := by
    rw [Nat.div_div_eq_div_mul, show 16 = 2 ^ 4 from rfl, ← pow_add, Nat.add_sub_cancel' low]
  have untouched : (w.toNat / 16 * 16 + op) / 2 ^ lo = w.toNat / 2 ^ lo := by
    rw [above, above w.toNat]
    exact congrArg (· / _) (by omega)
  rw [fld, fld, heldImage_toNat w h, show 52 = lo + (52 - lo) by omega, pow_add, Nat.mod_mul_right_div_self, untouched]
  exact Nat.mod_mod_of_dvd _ (pow_dvd_pow 2 (by omega))

/-! ### The checks of an operation (R366, R367, R394, R396) -/

/-- The checks that a command's operation passes: it is one of its table's, the table exists, its key and data words are as
many as it wants, and its index or block lies in the table. -/
theorem State.tblCheck_passes {s : State} {tbl op i : Nat} {keys data : List W64} {k : TblKind} (kind : tblKind tbl = some k)
    (named : 0 < op ∧ op < 8) (ok : k.cmdOk op = true) (made : ∀ n, k = .em n → s.emt n ≠ none)
    (lens : s.lensOk k op keys.length data.length (keys.headD 0) = true) (inside : op = 5 ∨ op = 6 → i < s.tblSize k)
    (block : op = 7 → 256 * i < s.tblSize k) : s.tblCheck true tbl op i keys data = none := by
  simp only [State.tblCheck, kind]
  rw [if_neg (by omega), if_neg (by simp [ok]), if_neg ?existing, if_neg (by rw [lens]; decide),
    if_neg fun h => absurd (inside h.1) (by omega), if_neg fun h => absurd (block h.1) (by omega)]
  case existing =>
    cases k with
    | em n => simpa using made n rfl
    | _ => exact Bool.false_ne_true

/-- An operation that passes its checks is carried out on its table. -/
theorem State.tblOp_acts {s : State} {cmd : Bool} {tbl op i : Nat} {keys data : List W64} {k : TblKind}
    (kind : tblKind tbl = some k) (checked : s.tblCheck cmd tbl op i keys data = none) :
    s.tblOp cmd tbl op i keys data = s.tblAct k op i keys data := by
  simp only [State.tblOp, checked, kind]

theorem tblKind_l2 {t : Nat} (h : t < 8) : tblKind t = some (.l2 t) := if_pos h

theorem emChange_below {t : Nat} (h : t < 64) (op : Nat) : emChange t op = false := by
  simp [emChange, show ¬ 64 ≤ t by omega]

/-- On a well's L2 table INSERT and UPDATE want a key and a data word, DELETE and LOOKUP a key. -/
theorem State.tblCheck_l2 (s : State) {t op i : Nat} {a : W64} {data : List W64} (ht : t < 8) (hop : 1 ≤ op ∧ op ≤ 4)
    (words : data.length = 1 ∨ data.length = 0 ∧ 3 ≤ op) : s.tblCheck true t op i [a] data = none := by
  have wanted : data.length = 1 ∨ (op = 3 ∨ op = 4 ∨ op = 5 ∨ op = 7) ∧ data.length = 0 := by omega
  have lens : s.lensOk (.l2 t) op [a].length data.length ([a].headD 0) = true := by
    rcases wanted with one | ⟨bare, empty⟩
    · simp [State.lensOk, State.tblKlen, State.tblDlen, one]
    · rcases bare with rfl | rfl | rfl | rfl <;> simp [State.lensOk, State.tblKlen, empty]
  have ok : (TblKind.l2 t).cmdOk op = true := by
    simp only [TblKind.cmdOk, ne_eq, decide_not, Bool.not_eq_true', decide_eq_false_iff_not]
    omega
  exact State.tblCheck_passes (tblKind_l2 ht) (by omega) ok (fun _ h => nomatch h) lens (by omega) (by omega)

theorem State.tblOp_l2 (s : State) {t op i : Nat} {a : W64} {data : List W64} (ht : t < 8) (hop : 1 ≤ op ∧ op ≤ 4)
    (words : data.length = 1 ∨ data.length = 0 ∧ 3 ≤ op) : s.tblOp true t op i [a] data
      = (s.setL2t t ((s.l2t t).op op i [a] data).1, ((s.l2t t).op op i [a] data).2) :=
  State.tblOp_acts (tblKind_l2 ht) (s.tblCheck_l2 ht hop words)

/-! ### L2 entries (R370, R396) -/

section
variable {x : L2Tbl} {i j : Nat} {a d : W64} {n e : L2Ent}

theorem L2Tbl.insert_places (entry : l2Of a d = some n) (new : x.find n.mac n.bd = none)
    (room : x.place n.mac n.bd = some j) : x.op 1 i [a] [d] = (x.put j (some n), { index := j }) := by
  simp [L2Tbl.op, entry, new, room]

theorem L2Tbl.update_replaces (entry : l2Of a d = some n) (found : x.find n.mac n.bd = some j)
    (held : SMap.get none x.ents j = some e) :
    x.op 2 i [a] [d] = (x.put j (some { n with hit := e.hit }), { index := j }) := by
  simp [L2Tbl.op, entry, found, held]

theorem L2Tbl.delete_removes (entry : l2Of a 0 = some n) (found : x.find n.mac n.bd = some j)
    (held : SMap.get none x.ents j = some e) : x.op 3 i [a] [] = (x.put j none, { index := j }) := by
  simp only [L2Tbl.op, List.headD_cons, Nat.reduceEqDiff, or_self, if_false, entry, found, held, if_true]

theorem L2Tbl.lookup_reads (entry : l2Of a 0 = some n) (found : x.find n.mac n.bd = some j)
    (held : SMap.get none x.ents j = some e) : x.op 4 i [a] [] = (x, { index := j, data := [e.data] }) := by
  simp only [L2Tbl.op, List.headD_cons, Nat.reduceEqDiff, or_self, if_false, entry, found, held]

end

/-- The key that an address spells names it. -/
theorem l2Of_l2Key (mac : BitVec 48) {bd : Nat} (h : bd < 4096) :
    l2Of (l2Key mac bd) 0 = some ⟨mac, bd, 0, false, true, false, 0⟩ := by
  have key : (l2Key mac bd).toNat = mac.toNat + bd * 2 ^ 48 := by
    rw [l2Key, BitVec.toNat_ofNat]
    exact Nat.mod_eq_of_lt (by have := mac.isLt; omega)
  have address : (l2Key mac bd).setWidth 48 = mac :=
    BitVec.eq_of_toNat_eq (by rw [BitVec.toNat_setWidth, key, Nat.add_mul_mod_self_right, Nat.mod_eq_of_lt mac.isLt])
  have domain : (l2Key mac bd).toNat / 2 ^ 48 % 4096 = bd := by
    rw [key]
    have := mac.isLt
    omega
  have reserved : (l2Key mac bd).toNat / 2 ^ 60 = 0 := by
    rw [key]
    have := mac.isLt
    omega
  rw [l2Of, if_neg (by rw [reserved]; decide), address, domain]
  rfl

/-! ### Counters (R389, R396) -/

/-- The words that a read of a counter gives: its backing totals with its residuals. -/
def CtrPair.words (c : CtrPair) : List W64 := [c.backP + BitVec.ofNat 64 c.resP, c.backB + BitVec.ofNat 64 c.resB]

theorem State.readCounter (s : State) {k : Nat} (hk : k < 4194304) : s.tblOp true 0x90 5 k [] []
    = (s, { code := if (s.pair' k).lost then 6 else 0, index := k, data := (s.pair' k).words }) :=
  have checked : s.tblCheck true 0x90 5 k [] [] = none :=
    State.tblCheck_passes (k := .counters) rfl (by decide) rfl (fun _ h => nomatch h) rfl (fun _ => hk) (fun h => nomatch h)
  State.tblOp_acts (k := .counters) rfl checked

theorem State.writeCounter_checked (s : State) {k : Nat} (hk : k < 4194304) (p b : W64) :
    s.tblCheck true 0x90 6 k [] [p, b] = none :=
  State.tblCheck_passes (k := .counters) rfl (by decide) rfl (fun _ h => nomatch h) rfl (fun _ => hk) (fun h => nomatch h)

theorem State.writeCounter (s : State) {k : Nat} (hk : k < 4194304) (p b : W64) : s.tblOp true 0x90 6 k [] [p, b]
    = (s.updTables fun t => { t with counters := SMap.set {} t.counters k { backP := p, backB := b } }, { index := k }) :=
  State.tblOp_acts (k := .counters) rfl (s.writeCounter_checked hk p b)

end Sys2Proof.Machine
end

section
/-!
PROOFS. O24: what a write of TBL_CMD does (R394, R395), and what TBL_CMD_DONE answers (R389, R395, R396).
-/

namespace Sys2Proof.Machine

/-- The run that an image starts: it copies the key and data words that the image counts (R395). -/
def TblSet.runOf (x : TblSet) (w : W64) : TblRun :=
  { w := w, keys := (List.range (fld w 16 4)).map fun k => SMap.get 0 x.keys k
    data := (List.range (fld w 20 4)).map fun k => SMap.get 0 x.data k }

/-- The set in which a run of an image is under way. -/
def TblSet.busyWith (x : TblSet) (w : W64) (run : TblRun) : TblSet := { x with cmd := w, status := 1, run := some run }

section
variable {s : State} {r : Requester} {w : W64} {op : Nat}

/-! ### A write of TBL_CMD (R394, R395) -/

theorem State.tblStart_lost (image : W64) (busy : (s.tset r).status.getLsbD 0 = true) :
    s.tblStart r image = s.setTset r { s.tset r with status := (s.tset r).status ||| 2 } := if_pos busy

/-- A change that waits for the overlay's room or decision leaves its set busy with it. -/
theorem State.tblEnter_busy {x : TblSet} {run : TblRun} (h : s.tset r = x.busyWith w run) :
    ∃ run', (s.tblEnter r run).tset r = x.busyWith w run' := by
  unfold State.tblEnter
  split
  · exact ⟨_, h⟩
  · exact ⟨_, by rw [State.setTset_tset, h]; rfl⟩

/-- An idle set is busy with the run after the write, whatever the operation and its checks. -/
theorem State.tblStart_busy (idle : (s.tset r).status.getLsbD 0 = false) (hop : 0 < op ∧ op < 8) :
    ∃ run, (s.tblStart r (withOp w op)).tset r = (s.tset r).busyWith (heldImage w op) run := by
  obtain ⟨low, high⟩ := hop
  have start : (s.setTset r ((s.tset r).busyWith (heldImage w op) ((s.tset r).runOf (heldImage w op)))).tset r
    = (s.tset r).busyWith (heldImage w op) ((s.tset r).runOf (heldImage w op)) := State.setTset_tset ..
  unfold State.tblStart
  extract_lets image x op' keys data run s1
  have named : op' = op := cmdOp_heldImage w (by omega)
  rw [if_neg (by rw [idle]; decide), if_neg (by omega)]
  split
  · exact ⟨_, State.setTset_tset ..⟩
  · split
    · exact ⟨_, start⟩
    · split
      · exact ⟨_, State.setTset_tset ..⟩
      · split
        · exact State.tblEnter_busy start
        · exact ⟨_, State.setTset_tset ..⟩

/-- The Pumphouse's set as it runs an image. -/
def State.begun (s : State) (w : W64) : State :=
  s.setTset .pumphouse ((s.tset .pumphouse).busyWith w ((s.tset .pumphouse).runOf w))

section
variable {tbl klen dlen i : Nat} (fields : Claims.image w tbl klen dlen i)
include fields

theorem Claims.image_read : cmdTable w = tbl ∧ fld w 16 4 = klen ∧ fld w 20 4 = dlen ∧ cmdIndex w = i := by
  simp only [Claims.image, ← fld_eq_bits] at fields
  exact fields

theorem Claims.image_held (h : op < 16) : Claims.image (heldImage w op) tbl klen dlen i := by
  simpa only [Claims.image, ← fld_eq_bits, fld_heldImage w h (Nat.le_refl 4), fld_heldImage w h (show 4 ≤ 16 by decide),
    fld_heldImage w h (show 4 ≤ 20 by decide), fld_heldImage w h (show 4 ≤ 24 by decide), Nat.reduceAdd, Nat.reduceLeDiff]
    using fields

/-- A change of the Pumphouse that passes its checks and does not go through the overlay is carried out at once. -/
theorem State.tblStart_acts (idle : (s.tset .pumphouse).status.getLsbD 0 = false) (hop : 0 < op ∧ op < 8)
    (change : readOp op = false) (direct : emChange tbl op = false) {keys data : List W64}
    (hk : keys = (List.range klen).map fun k => SMap.get 0 (s.tset .pumphouse).keys k)
    (hd : data = (List.range dlen).map fun k => SMap.get 0 (s.tset .pumphouse).data k)
    (checked : s.tblCheck true tbl op i keys data = none) :
    ∃ y, s.tblStart .pumphouse (withOp w op)
      = ((s.begun (heldImage w op)).tblOp true tbl op i keys data).1.setTset .pumphouse y := by
  obtain ⟨low, high⟩ := hop
  obtain ⟨table, keyWords, dataWords, index⟩ := Claims.image_read (Claims.image_held fields (op := op) (by omega))
  have named : cmdOp (heldImage w op) = op := cmdOp_heldImage w (by omega)
  have held : withOp w op &&& 0x000FFFFFFFFFFFFF = heldImage w op := rfl
  have known : ¬ (op = 0 ∨ 8 ≤ op) := by omega
  have writer : readsOnly .pumphouse = false := rfl
  subst hk hd
  simp only [State.begun, TblSet.busyWith, TblSet.runOf, State.tblStart, held, named, table, keyWords, dataWords, index, checked,
    direct, change, idle, known, writer, Bool.false_eq_true, false_and, if_false]
  exact ⟨_, rfl⟩

end

end

/-! ### The Pumphouse's changes (R370, R389, R396) -/

section
variable {s : State} {w : W64} {k idx : Nat} {n : L2Ent} (hk : k < 8)
  (idle : (s.tset .pumphouse).status.getLsbD 0 = false)
include hk idle

/-- A change of an L2 table of the Pumphouse leaves the table that its operation leaves, and the other wells' tables. -/
theorem State.tblStart_l2 {op dlen : Nat} (hop : 1 ≤ op ∧ op ≤ 3) (words : dlen = 1 ∨ dlen = 0 ∧ 3 ≤ op)
    (fields : Claims.image w k 1 dlen idx) {data : List W64}
    (hd : data = (List.range dlen).map fun k => SMap.get 0 (s.tset .pumphouse).data k) :
    ((s.tblStart .pumphouse (withOp w op)).l2t k = ((s.l2t k).op op idx [SMap.get 0 (s.tset .pumphouse).keys 0] data).1)
      ∧ ∀ v, v ≠ k → (s.tblStart .pumphouse (withOp w op)).l2t v = s.l2t v := by
  obtain ⟨low, high⟩ := hop
  have counted : data.length = 1 ∨ data.length = 0 ∧ 3 ≤ op := by simpa [hd] using words
  have change : readOp op = false := by
    simp [readOp]
    omega
  obtain ⟨y, acts⟩ := State.tblStart_acts fields idle (by omega) change (emChange_below (by omega) op)
    (keys := [SMap.get 0 (s.tset .pumphouse).keys 0]) rfl hd (s.tblCheck_l2 hk (by omega) counted)
  rw [acts, State.tblOp_l2 _ hk (by omega) counted]
  exact ⟨State.setL2t_l2t .., fun v h => State.setL2t_l2t_ne _ _ h⟩

theorem tblInsert_places (fields : Claims.image w k 1 1 idx)
    (entry : l2Of (SMap.get 0 (s.tset .pumphouse).keys 0) (SMap.get 0 (s.tset .pumphouse).data 0) = some n) {j : Nat}
    (new : (s.l2t k).find n.mac n.bd = none) (room : (s.l2t k).place n.mac n.bd = some j) :
    ∃ u, exec (.tblInsert .pumphouse w) s = .next u ∧ (u.l2t k).ents = SMap.set none (s.l2t k).ents j (some n)
      ∧ ∀ v, v ≠ k → u.l2t v = s.l2t v := by
  obtain ⟨changed, others⟩ := State.tblStart_l2 hk idle (op := 1) (by decide) (.inl rfl) fields
    (data := [SMap.get 0 (s.tset .pumphouse).data 0]) rfl
  exact ⟨_, rfl, by rw [changed, L2Tbl.insert_places entry new room]; rfl, others⟩

theorem tblUpdate_replaces (fields : Claims.image w k 1 1 idx)
    (entry : l2Of (SMap.get 0 (s.tset .pumphouse).keys 0) (SMap.get 0 (s.tset .pumphouse).data 0) = some n) {j : Nat}
    {e : L2Ent} (found : (s.l2t k).find n.mac n.bd = some j) (held : SMap.get none (s.l2t k).ents j = some e) :
    ∃ u, exec (.tblUpdate .pumphouse w) s = .next u
      ∧ (u.l2t k).ents = SMap.set none (s.l2t k).ents j (some { n with hit := e.hit })
      ∧ ∀ v, v ≠ k → u.l2t v = s.l2t v := by
  obtain ⟨changed, others⟩ := State.tblStart_l2 hk idle (op := 2) (by decide) (.inl rfl) fields
    (data := [SMap.get 0 (s.tset .pumphouse).data 0]) rfl
  exact ⟨_, rfl, by rw [changed, L2Tbl.update_replaces entry found held]; rfl, others⟩

theorem tblDelete_removes (fields : Claims.image w k 1 0 idx)
    (entry : l2Of (SMap.get 0 (s.tset .pumphouse).keys 0) 0 = some n) {j : Nat} {e : L2Ent}
    (found : (s.l2t k).find n.mac n.bd = some j) (held : SMap.get none (s.l2t k).ents j = some e) :
    ∃ u, exec (.tblDelete .pumphouse w) s = .next u ∧ (u.l2t k).ents = SMap.set none (s.l2t k).ents j none
      ∧ ∀ v, v ≠ k → u.l2t v = s.l2t v := by
  obtain ⟨changed, others⟩ := State.tblStart_l2 hk idle (op := 3) (by decide) (.inr ⟨rfl, Nat.le_refl 3⟩) fields (data := []) rfl
  exact ⟨_, rfl, by rw [changed, L2Tbl.delete_removes entry found held]; rfl, others⟩

end

theorem tblWriteIndex_counter {s : State} {w : W64} {k : Nat} (hk : k < 4194304) (fields : Claims.image w 0x90 0 2 k)
    (idle : (s.tset .pumphouse).status.getLsbD 0 = false) :
    ∃ u, exec (.tblWriteIndex .pumphouse w) s = .next u ∧ (∀ j, j ≠ k → u.pair' j = s.pair' j)
      ∧ u.pair' k = { backP := SMap.get 0 (s.tset .pumphouse).data 0, backB := SMap.get 0 (s.tset .pumphouse).data 1 } := by
  obtain ⟨y, acts⟩ := State.tblStart_acts fields idle (op := 6) (by decide) rfl rfl (keys := []) rfl
    (data := [SMap.get 0 (s.tset .pumphouse).data 0, SMap.get 0 (s.tset .pumphouse).data 1]) rfl
    (s.writeCounter_checked hk _ _)
  rw [State.writeCounter _ hk] at acts
  exact ⟨_, congrArg Host.Outcome.next acts, fun j h => SMap.get_set_ne _ _ _ h, SMap.get_set_self ..⟩

/-! ### TBL_CMD_DONE (R395, R396) -/

section
variable {s : State} {r : Requester} {run : TblRun}

theorem State.tblFinish_tset (h : (s.tset r).run = some run) (res : TblRes) :
    ((s.tblFinish r res).tset r).run = none
      ∧ ((s.tblFinish r res).tset r).status = ((s.tset r).status &&& 2) ||| res.status := by
  simp only [State.tblFinish, h, State.setTset_tset, and_self]

/-- A read leaves its data words in the data registers. -/
theorem State.tblFinish_data (h : (s.tset r).run = some run) {res : TblRes} (read : readOp (cmdOp run.w) = true) {k : Nat}
    (hk : k < res.data.length) : SMap.get 0 ((s.tblFinish r res).tset r).data k = res.data.getD k 0 := by
  simp only [State.tblFinish, h, State.setTset_tset, read, if_true]
  exact SMap.get_foldl_words _ _ hk

theorem State.tblFinish_l2t (r : Requester) (res : TblRes) (w : Nat) : (s.tblFinish r res).l2t w = s.l2t w := by
  unfold State.tblFinish
  dsimp only
  split
  · rfl
  · rfl

variable (h : (s.tset r).run = some run)
include h

theorem tblCmdDone_finishes {res : TblRes} (known : run.res = some res) :
    exec (.tblCmdDone r) s = .next (s.tblFinish r res) := by
  show execTblCmdDone r s = _
  simp only [execTblCmdDone, h, known]
  rfl

/-- A read is carried out when it is done; a lookup, once no undecided change of its key is in the overlay. -/
theorem tblCmdDone_reads (unknown : run.res = none) (read : readOp (cmdOp run.w) = true)
    (settled : ¬ (cmdOp run.w = 4 ∧ s.ovWaits (cmdTable run.w) run.keys = true)) {u : State} {res : TblRes}
    (acts : s.tblOp true (cmdTable run.w) (cmdOp run.w) (cmdIndex run.w) run.keys run.data = (u, res)) :
    exec (.tblCmdDone r) s = .next (u.tblFinish r res) := by
  show execTblCmdDone r s = _
  simp only [execTblCmdDone, h, unknown, read, if_true, if_neg settled, acts]
  rfl

end

theorem tblCmdDone_counter {s : State} {r : Requester} {w : W64} {k : Nat} (hk : k < 4194304)
    (h : (s.tset r).run = some { w := w, keys := [], data := [] }) (named : w.toNat % 16 = 5)
    (fields : Claims.image w 0x90 0 0 k) : ∃ u, exec (.tblCmdDone r) s = .next u ∧ (u.tset r).run = none
      ∧ SMap.get 0 (u.tset r).data 0 = (s.pair' k).backP + BitVec.ofNat 64 (s.pair' k).resP
      ∧ SMap.get 0 (u.tset r).data 1 = (s.pair' k).backB + BitVec.ofNat 64 (s.pair' k).resB := by
  obtain ⟨table, -, -, rfl⟩ := Claims.image_read fields
  have op : cmdOp w = 5 := by simpa [cmdOp, fld] using named
  have read : readOp (cmdOp w) = true := by rw [op]; rfl
  have acts := s.readCounter hk
  rw [← table, ← op] at acts
  exact ⟨_, tblCmdDone_reads h rfl read (fun waits => absurd (op.symm.trans waits.1) (by decide)) acts,
    (State.tblFinish_tset h _).1, State.tblFinish_data h read (Nat.zero_lt_two),
    State.tblFinish_data h read (Nat.one_lt_two)⟩

theorem tblCmdDone_lookup {s : State} {r : Requester} {w : W64} {t bd : Nat} {mac : BitVec 48} {j idx : Nat} {e : L2Ent}
    (ht : t < 8) (h : (s.tset r).run = some { w := w, keys := [l2Key mac bd], data := [] }) (hbd : bd < 4096)
    (named : w.toNat % 16 = 4) (fields : Claims.image w t 1 0 idx) (settled : s.tables.overlay = [])
    (found : (s.l2t t).find mac bd = some j) (held : SMap.get none (s.l2t t).ents j = some e) :
    ∃ u, exec (.tblCmdDone r) s = .next u ∧ SMap.get 0 (u.tset r).data 0 = e.data ∧ u.l2t t = s.l2t t := by
  obtain ⟨table, -, -, -⟩ := Claims.image_read fields
  have op : cmdOp w = 4 := by simpa [cmdOp, fld] using named
  have read : readOp (cmdOp w) = true := by rw [op]; rfl
  have acts : s.tblOp true (cmdTable w) (cmdOp w) (cmdIndex w) [l2Key mac bd] []
      = (s.setL2t t (s.l2t t), { index := j, data := [e.data] }) := by
    rw [table, op, State.tblOp_l2 s ht (by decide) (.inr ⟨rfl, by decide⟩), L2Tbl.lookup_reads (l2Of_l2Key mac hbd) found held]
  refine ⟨_, tblCmdDone_reads h rfl read (fun waits => ?_) acts,
    State.tblFinish_data (s := s.setL2t t (s.l2t t)) h read Nat.one_pos, ?_⟩
  · simp [State.ovWaits, settled] at waits
  · rw [State.tblFinish_l2t, State.setL2t_l2t]

/-- The rows that write TBL_CMD. -/
def tblRows (r : Requester) (w : W64) : List Instr :=
  [.tblInsert r w, .tblUpdate r w, .tblDelete r w, .tblLookup r w, .tblReadIndex r w, .tblWriteIndex r w, .tblDigestBlock r w]

/-- Each row writes the image with its own operation. -/
theorem tblRows_start (s : State) {r : Requester} {w : W64} {i : Instr} (h : i ∈ tblRows r w) :
    ∃ op, (0 < op ∧ op < 8) ∧ exec i s = .next (s.tblStart r (withOp w op)) := by
  simp only [tblRows, List.mem_cons, List.not_mem_nil, or_false] at h
  rcases h with rfl | rfl | rfl | rfl | rfl | rfl | rfl
  exacts [⟨1, by decide, rfl⟩, ⟨2, by decide, rfl⟩, ⟨3, by decide, rfl⟩, ⟨4, by decide, rfl⟩, ⟨5, by decide, rfl⟩,
    ⟨6, by decide, rfl⟩, ⟨7, by decide, rfl⟩]

/-- Settles O24: a write of TBL_CMD and TBL_CMD_DONE by the lemma about the operation that they carry out. -/
theorem tableCommandRegisters : Obligations.TableCommandRegisters := by
  unfold Obligations.TableCommandRegisters
  refine ⟨fun s r w => ⟨fun idle i hi => ?starts, fun busy i hi => ?lost⟩,
    fun s w k n idx hk idle => ⟨fun fields entry => ⟨fun j => tblInsert_places hk idle fields entry,
      fun j e => tblUpdate_replaces hk idle fields entry⟩, fun fields entry j e => tblDelete_removes hk idle fields entry⟩,
    fun s w k => tblWriteIndex_counter, fun s r w run h => ⟨fun res known => ⟨_, tblCmdDone_finishes h known,
      State.tblFinish_tset h res⟩, ?counter, ?lookup⟩⟩
  case starts =>
    obtain ⟨op, named, writes⟩ := tblRows_start s hi
    obtain ⟨run, busy⟩ := State.tblStart_busy (w := w) idle named
    exact ⟨_, writes, by rw [busy]; exact ⟨rfl, rfl, rfl⟩⟩
  case lost =>
    obtain ⟨op, -, writes⟩ := tblRows_start s hi
    rw [writes, State.tblStart_lost _ busy]
  case counter =>
    rintro k hk rfl
    exact tblCmdDone_counter hk h
  case lookup =>
    rintro t n j e idx ht rfl hbd named fields settled
    exact tblCmdDone_lookup ht h hbd named fields settled

end Sys2Proof.Machine
end

section
/-!
PROOFS. O25, upkeep: the overlay drains (R384), a rebuild ends (R399), and the scrubber records a block (R400, R401).
-/

namespace Sys2Proof.Machine

/-! ### The overlay (R384) -/

theorem State.l2AllOp_overlay (s : State) (op : Nat) (keys data : List W64) :
    (s.l2AllOp op keys data).1.tables.overlay = s.tables.overlay :=
  List.foldlRecOn (motive := fun acc : State × TblRes => acc.1.tables.overlay = s.tables.overlay) _ _ rfl
    fun _ kept _ _ => kept

theorem State.ctxWrite_overlay (s : State) (ctx q : Nat) (bs : List Byte) :
    (s.ctxWrite ctx q bs).tables.overlay = s.tables.overlay := by
  simp only [State.ctxWrite, State.updTables]
  split
  · rfl
  · rfl

/-- An operation on a table leaves the overlay alone. -/
theorem State.tblAct_overlay (s : State) (k : TblKind) (op i : Nat) (keys data : List W64) :
    (s.tblAct k op i keys data).1.tables.overlay = s.tables.overlay := by
  cases k with
  | l2 w => rfl
  | l2All => exact s.l2AllOp_overlay op keys data
  | l2Ingress => rfl
  | lpm => rfl
  | em n =>
    simp only [State.tblAct]
    split
    · rfl
    · rfl
  | ctx =>
    simp only [State.tblAct]
    split
    · rfl
    · exact s.ctxWrite_overlay ..
  | counters =>
    simp only [State.tblAct]
    split
    · rfl
    · rfl
  | weirs =>
    simp only [State.tblAct]
    split
    · rfl
    · split
      · rfl
      · split
        · rfl
        · rfl

theorem State.tblOp_overlay (s : State) (cmd : Bool) (tbl op i : Nat) (keys data : List W64) :
    (s.tblOp cmd tbl op i keys data).1.tables.overlay = s.tables.overlay := by
  unfold State.tblOp
  split
  · rfl
  · split
    · exact s.tblAct_overlay ..
    · rfl

section
variable {s v : State} {e : OvEnt} {r : TblRes} (lone : s.tables.overlay = [e])
include lone

theorem emOverlayDecide_commits (commits : e.who = none) (undecided : e.done = none)
    (acts : s.tblOp true e.tbl e.op e.index e.key e.data = (v, r)) (ok : r.code = 0) :
    ∃ u, exec .emOverlayDecide s = .next u ∧ u.tables.em = v.tables.em
      ∧ u.tables.overlay = [{ e with done := some r }] := by
  have overlay : v.tables.overlay = [e] := by
    rw [← lone, ← s.tblOp_overlay true e.tbl e.op e.index e.key e.data, acts]
  have decides : exec .emOverlayDecide s = .next (s.ovDecide e) := by
    show execEmOverlayDecide s = _
    simp only [execEmOverlayDecide, lone, List.find?_cons, undecided, Option.isNone_none]
    rfl
  have decided : s.ovDecide e = (v.dpTouch e.tbl r.index).updTables fun t => { t with
      overlay := t.overlay.map fun x => if x.id = e.id then { x with done := some r } else x } := by
    simp only [State.ovDecide, acts, commits, Option.isNone_none, ok, if_true]
  refine ⟨_, decides, by rw [decided]; rfl, ?_⟩
  rw [decided]
  show v.tables.overlay.map _ = _
  simp [overlay]

theorem emOverlayRetire_empties (decided : e.done ≠ none) :
    ∃ u, exec .emOverlayRetire s = .next u ∧ u.tables.overlay = [] ∧ u.tables.em = s.tables.em := by
  have retires : exec .emOverlayRetire s
      = .next (s.updTables fun t => { t with overlay := t.overlay.filter fun x => x.id ≠ e.id }) := by
    show execEmOverlayRetire s = _
    simp only [execEmOverlayRetire, lone, List.find?_cons, Option.isSome_iff_ne_none.2 decided]
    rfl
  refine ⟨_, retires, ?_, rfl⟩
  show s.tables.overlay.filter _ = _
  simp [lone]

end

/-! ### A rebuilt trie (R399) -/

theorem lpmRebuildDone_whole (s : State) (vrf fam : Nat) : ∃ u, exec (.lpmRebuildDone vrf fam) s = .next u
    ∧ (∀ x, (vrf, fam, x) ∉ u.tables.lpm.damaged) ∧ u.tables.lpm.store = s.tables.lpm.store := by
  refine ⟨_, rfl, fun x damaged => ?_, rfl⟩
  have other := (List.mem_filter.1 damaged).2
  simp at other

/-! ### The scrubber (R400, R401) -/

/-- A digest of a block of an L2 table changes no table. -/
theorem State.tblOp_l2Digest (s : State) {k block : Nat} (hk : k < 8) (inside : block < 1024) :
    ∃ res, s.tblOp true k 7 block [] [] = (s.setL2t k (s.l2t k), res) := by
  have size : 256 * block < s.tblSize (.l2 k) := show _ < 262144 by omega
  have checked : s.tblCheck true k 7 block [] [] = none :=
    State.tblCheck_passes (tblKind_l2 hk) (by decide) rfl (fun _ h => nomatch h) rfl (fun h => by omega) fun _ => size
  rw [State.tblOp_acts (tblKind_l2 hk) checked]
  exact ⟨_, rfl⟩

/-- A table's settings after a record: the next block is due a step later (R401). -/
def ScrubCfg.passed (c : ScrubCfg) (dt : Nat) : ScrubCfg :=
  { c with produced := c.produced + 1, next := (c.next % 1024 + 1) % 1024, lastDt := dt }

/-- The record of a well's next block and PRODUCED are written to the ring (R401). -/
def State.recorded (s : State) (k : Nat) (c : ScrubCfg) (digest : W64) : State :=
  ((s.hostWrite c.host (c.ring + 16 + 16 * (c.produced.toNat % c.entries)) (s.scrubRecord k (c.next % 1024) digest)).hostWrite
    c.host c.ring (leBytes 8 (c.produced + 1).toNat)).updTables fun t => { t with
      dpMod := SMap.set false t.dpMod (k * 1048576 + c.next % 1024) false
      scrub := SMap.set {} t.scrub k (c.passed s.dt) }

theorem State.recorded_scrub (s : State) (k : Nat) (c : ScrubCfg) (digest : W64) :
    (s.recorded k c digest).scrubOf k = c.passed s.dt := SMap.get_set_self ..

theorem State.recorded_hostMem (s : State) (k : Nat) (c : ScrubCfg) (digest : W64) :
    (s.recorded k c digest).out.hostMem.length = s.out.hostMem.length + 2 := by
  simp [State.recorded, State.hostWrite]

section
variable {s : State} {k : Nat} {c : ScrubCfg} (hk : k < 8) (runs : s.phRuns = true) (settings : s.scrubOf k = c)
  (enabled : c.enable = true) (due : c.lastDt + c.period * 1000000000 / 1024 ≤ s.dt)
include hk runs settings enabled due

theorem digestScrubBlock_stalls (full : c.entries ≤ (c.produced - s.draw.1).toNat) : exec (.digestScrubBlock k) s
    = .next (s.draw.2.updTables fun t => { t with scrubStall := t.scrubStall + 1 }) := by
  show execDigestScrubBlock k s = _
  simp only [execDigestScrubBlock, tblKind_l2 hk, settings, runs, enabled, State.tblSize]
  rw [if_neg (by simpa using due), if_pos full]
  rfl

theorem digestScrubBlock_records (room : (c.produced - s.draw.1).toNat < c.entries) : ∃ digest,
    exec (.digestScrubBlock k) s = .next ((s.draw.2.setL2t k (s.draw.2.l2t k)).recorded k c digest) := by
  obtain ⟨res, acts⟩ := State.tblOp_l2Digest s.draw.2 hk (Nat.mod_lt c.next (show 0 < 1024 by decide))
  refine ⟨res.data.headD 0, ?_⟩
  show execDigestScrubBlock k s = _
  simp only [execDigestScrubBlock, tblKind_l2 hk, settings, runs, enabled, State.tblSize, Nat.reduceAdd, Nat.reduceDiv, acts]
  rw [if_neg (by simpa using due), if_neg (Nat.not_le.2 room)]
  simp only [State.recorded, ScrubCfg.passed, enabled]
  rfl

theorem digestScrubBlock_effect : ∃ u, exec (.digestScrubBlock k) s = .next u
    ∧ (c.entries ≤ (c.produced - Config.freeWord s.free).toNat → u.tables.scrubStall = s.tables.scrubStall + 1
      ∧ u.scrubOf k = c)
    ∧ ((c.produced - Config.freeWord s.free).toNat < c.entries → (u.scrubOf k).produced = c.produced + 1
      ∧ (u.scrubOf k).next = (c.next % 1024 + 1) % 1024 ∧ (u.scrubOf k).lastDt = s.dt
      ∧ u.out.hostMem.length = s.out.hostMem.length + 2) := by
  rcases Nat.lt_or_ge (c.produced - s.draw.1).toNat c.entries with room | full
  · obtain ⟨digest, records⟩ := digestScrubBlock_records hk runs settings enabled due room
    refine ⟨_, records, fun full => absurd room (Nat.not_lt.2 full), fun _ => ?_⟩
    rw [State.recorded_scrub, State.recorded_hostMem]
    exact ⟨rfl, rfl, rfl, rfl⟩
  · exact ⟨_, digestScrubBlock_stalls hk runs settings enabled due full, fun _ => ⟨rfl, settings⟩,
      fun room => absurd room (Nat.not_lt.2 full)⟩

end

end Sys2Proof.Machine
end

section
/-!
PROOFS. O25, L2 learning and aging: triggers, notices and the learn bus (R371, R373), and the removal of dynamic entries by the
aging sweep and by a flush (R375, R376).
-/

namespace Sys2Proof.Machine

/-! ### Triggers and notices (R371, R373) -/

section
variable {s : State} {w : Nat} {n : Learn} {j : Nat}

theorem State.notice_queues (room : (s.well w).noticesOut.length < 1024) :
    s.notice w n = s.updWell w fun x => { x with noticesOut := x.noticesOut ++ [n] } := if_pos room

/-- A trigger for an unknown address learns it and gives notice. -/
theorem State.trigger_learns (new : (s.l2t w).find n.mac n.bd = none) (place : (s.l2t w).place n.mac n.bd = some j) :
    s.trigger w n = (((s.setL2t w ((s.l2t w).put j (some (learnt n)))).updL2t w fun y => { y with
      learn := y.learn + 1 }).dpTouch w j).notice w n := by
  simp only [State.trigger, new, place]

theorem l2TriggerApply_learns (oldest : (s.well w).triggers = [n]) (quiet : (s.well w).noticesIn = [])
    (new : (s.l2t w).find n.mac n.bd = none) (place : (s.l2t w).place n.mac n.bd = some j)
    (room : (s.well w).noticesOut.length < 1024) :
    ∃ u, exec (.l2TriggerApply w) s = .next u ∧ (u.well w).triggers = []
      ∧ (u.well w).noticesOut = (s.well w).noticesOut ++ [n]
      ∧ (u.l2t w).ents = SMap.set none (s.l2t w).ents j (some (learnt n)) ∧ (u.l2t w).learn = (s.l2t w).learn + 1 := by
  have applies : exec (.l2TriggerApply w) s = .next ((s.setWell w { s.well w with triggers := [] }).trigger w n) := by
    show execL2TriggerApply w s = _
    simp only [execL2TriggerApply, oldest, quiet]
    rfl
  refine ⟨_, applies, ?_⟩
  rw [State.trigger_learns (by simpa using new) (by simpa using place), State.notice_queues (by simpa using room)]
  simp [L2Tbl.put]

/-- A notice of a dynamic entry's address moves the entry. -/
theorem State.heed_moves {e : L2Ent} (found : (s.l2t w).find n.mac n.bd = some j)
    (held : SMap.get none (s.l2t w).ents j = some e) (dynamic : e.static = false) :
    s.heed w n = (s.setL2t w ((s.l2t w).put j (some { e with port := n.port, hit := true }))).dpTouch w j := by
  simp only [State.heed, found, held, dynamic, Bool.false_eq_true, if_false]

theorem l2NoticeApply_moves {rest : List Learn} {e : L2Ent} (oldest : (s.well w).noticesIn = n :: rest)
    (found : (s.l2t w).find n.mac n.bd = some j) (held : SMap.get none (s.l2t w).ents j = some e)
    (dynamic : e.static = false) : ∃ u, exec (.l2NoticeApply w) s = .next u ∧ (u.well w).noticesIn = rest
      ∧ (u.l2t w).ents = SMap.set none (s.l2t w).ents j (some { e with port := n.port, hit := true }) := by
  have applies : exec (.l2NoticeApply w) s = .next ((s.setWell w { s.well w with noticesIn := rest }).heed w n) := by
    show execL2NoticeApply w s = _
    simp only [execL2NoticeApply, oldest]
    rfl
  refine ⟨_, applies, ?_⟩
  rw [State.heed_moves (by simpa using found) (by simpa using held) dynamic]
  simp [L2Tbl.put]

/-! ### The learn bus (R373) -/

/-- The only well with a notice is the one that the bus serves, wherever it stands. -/
theorem State.learnBus_serves {rest : List Learn} (hw : w < 8) (waits : (s.well w).noticesOut = n :: rest)
    (alone : ∀ v, v ≠ w → (s.well v).noticesOut = []) (start : Nat) :
    (((List.range 8).map fun k => (start + k) % 8).find? fun v => !(s.well v).noticesOut.isEmpty) = some w := by
  have turn : w ∈ (List.range 8).map fun k => (start + k) % 8 :=
    List.mem_map.2 ⟨(w + 8 - start % 8) % 8, List.mem_range.2 (Nat.mod_lt _ (by decide)), by omega⟩
  have ready : (!(s.well w).noticesOut.isEmpty) = true := by simp [waits]
  obtain ⟨v, served⟩ := Option.isSome_iff_exists.1
    (List.find?_isSome (p := fun v => !(s.well v).noticesOut.isEmpty) |>.2 ⟨w, turn, ready⟩)
  have same : v = w := by
    by_contra other
    have nonempty := List.find?_some served
    simp [alone v other] at nonempty
  rw [served, same]

/-- A notice has reached a well. -/
def Well.reachedBy (x : Well) (n : Learn) : Well := { x with noticesIn := x.noticesIn ++ [n] }

/-- The bus carries a notice to every well but one. -/
def State.carried (s : State) (w : Nat) (n : Learn) : State :=
  (List.range 8).foldl (fun acc v => if v = w then acc else acc.updWell v (Well.reachedBy · n)) s

theorem State.carried_well (s : State) (w : Nat) {v : Nat} (n : Learn) (hv : v < 8) :
    (s.carried w n).well v = if v = w then s.well v else (s.well v).reachedBy n := by
  refine (foldl_read_once (read := State.well) (g := fun v x => if v = w then x else x.reachedBy n) (fun x k => ?same)
    (fun x k j h => ?other) List.nodup_range s v).trans (if_pos (List.mem_range.2 hv))
  case same =>
    split
    · rfl
    · exact x.updWell_well ..
  case other =>
    split
    · rfl
    · exact x.updWell_well_ne _ h

theorem learnNoticeSend_carries {rest : List Learn} (hw : w < 8) (waits : (s.well w).noticesOut = n :: rest)
    (alone : ∀ v, v ≠ w → (s.well v).noticesOut = []) : ∃ u, exec .learnNoticeSend s = .next u
      ∧ (u.well w).noticesOut = rest ∧ (u.well w).noticesIn = (s.well w).noticesIn
      ∧ ∀ v, v < 8 → v ≠ w → (u.well v).noticesIn = (s.well v).noticesIn ++ [n] := by
  let taken := s.updWell w fun x => { x with noticesOut := rest }
  have sends : exec .learnNoticeSend s = .next ((taken.updTables fun t => { t with learnPtr := w }).carried w n) := by
    show execLearnNoticeSend s = _
    simp only [execLearnNoticeSend, State.learnBus_serves hw waits alone, waits]
    rfl
  have sender : taken.well w = { s.well w with noticesOut := rest } := State.updWell_well ..
  have others {v : Nat} (h : v ≠ w) : taken.well v = s.well v := State.updWell_well_ne _ _ h
  refine ⟨_, sends, ?_, ?_, fun v hv h => ?_⟩
  · rw [State.carried_well _ w n hw, if_pos rfl]
    show (taken.well w).noticesOut = rest
    rw [sender]
  · rw [State.carried_well _ w n hw, if_pos rfl]
    show (taken.well w).noticesIn = (s.well w).noticesIn
    rw [sender]
  · rw [State.carried_well _ w n hv, if_neg h]
    exact congrArg (fun x => (Well.reachedBy x n).noticesIn) (others h)

end

/-! ### Dynamic entries go (R375, R376) -/

/-- The table without the dynamic entries that a predicate names. -/
def L2Tbl.without (x : L2Tbl) (p : L2Ent → Bool) : L2Tbl := (x.dynamic p).foldl (fun y i => y.put i none) x

theorem State.l2Remove_l2t (s : State) (w : Nat) (p : L2Ent → Bool) : (s.l2Remove w p).l2t w = (s.l2t w).without p := by
  have removed (l : List Nat) (s : State) : (l.foldl (fun (acc : State) i => acc.updL2t w fun x => x.put i none) s).l2t w
      = l.foldl (fun y i => y.put i none) (s.l2t w) := by
    induction l generalizing s with
    | nil => rfl
    | cons i rest ih => rw [List.foldl_cons, ih, State.updL2t_l2t, List.foldl_cons]
  exact removed _ s

theorem State.l2Remove_l2t_ne (s : State) {w v : Nat} (p : L2Ent → Bool) (h : v ≠ w) :
    (s.l2Remove w p).l2t v = s.l2t v :=
  State.foldl_keeps (State.l2t · v) _ (fun x _ => x.updL2t_l2t_ne _ h) _ s

theorem L2Tbl.dynamic_iff {x : L2Tbl} (wf : SMap.wf none x.ents = true) (p : L2Ent → Bool) (j : Nat) :
    j ∈ x.dynamic p ↔ ∃ e, SMap.get none x.ents j = some e ∧ e.static = false ∧ p e = true := by
  rw [L2Tbl.dynamic, List.mem_filterMap]
  constructor
  · rintro ⟨⟨i, v⟩, listed, named⟩
    cases v with
    | none => cases named
    | some e =>
      by_cases hp : (!e.static && p e) = true
      · obtain rfl : i = j := by simpa [hp] using named
        exact ⟨e, ((SMap.mem_iff_get wf _ _).1 listed).1, by simpa using hp⟩
      · simp [hp] at named
  · rintro ⟨e, held, dynamic, named⟩
    exact ⟨(j, some e), (SMap.mem_iff_get wf _ _).2 ⟨held, by simp⟩, by simp [dynamic, named]⟩

theorem L2Tbl.foldl_put_none (l : List Nat) (x : L2Tbl) (j : Nat) :
    SMap.get none (l.foldl (fun y i => y.put i none) x).ents j = if j ∈ l then none else SMap.get none x.ents j :=
  foldl_read (read := fun y j => SMap.get none (L2Tbl.ents y) j) (upd := fun y i => y.put i none) (g := fun _ => none)
    (fun x k => SMap.get_set_self none x.ents k none) (fun x _ _ h => SMap.get_set_ne none x.ents none h) (fun _ => rfl) l x j

/-- A static entry stays, and a dynamic one unless the predicate names it. -/
theorem L2Tbl.without_entry {x : L2Tbl} (wf : SMap.wf none x.ents = true) (p : L2Ent → Bool) {j : Nat} {e : L2Ent}
    (held : SMap.get none x.ents j = some e) :
    SMap.get none (x.without p).ents j = if e.static = false ∧ p e = true then none else some e := by
  rw [L2Tbl.without, L2Tbl.foldl_put_none, held]
  refine if_congr ((x.dynamic_iff wf p j).trans ⟨?_, fun named => ⟨e, held, named⟩⟩) rfl rfl
  rintro ⟨e', held', named⟩
  obtain rfl : e = e' := Option.some.inj (held.symm.trans held')
  exact named

/-! ### The aging sweep (R375) -/

/-- What the sweep leaves of an entry that it does not remove. -/
def L2Ent.rested (e : L2Ent) : L2Ent := if e.static then e else { e with hit := false }

/-- The table after a sweep. -/
def L2Tbl.swept (x : L2Tbl) : L2Tbl :=
  let y := x.without fun e => !e.hit
  { y with
    aged := y.aged + BitVec.ofNat 64 (x.dynamic fun e => !e.hit).length
    ents := y.ents.map fun e => (e.1, e.2.map L2Ent.rested) }

theorem L2Tbl.swept_entry {x : L2Tbl} (wf : SMap.wf none x.ents = true) {j : Nat} {e : L2Ent}
    (held : SMap.get none x.ents j = some e) : SMap.get none x.swept.ents j
      = if e.static then some e else if e.hit then some { e with hit := false } else none := by
  rw [L2Tbl.swept, SMap.get_map (g := Option.map L2Ent.rested) rfl, L2Tbl.without_entry wf _ held]
  cases static : e.static
  · cases hit : e.hit
    · rfl
    · simp [L2Ent.rested, static]
  · simp [L2Ent.rested, static]

theorem l2AgingSweep_sweeps {s : State} {w : Nat} (ages : (s.well w).sweepAge ≠ 0)
    (due : (s.well w).lastSweep + (s.well w).sweepAge * 1000000000 ≤ s.dt) :
    ∃ u, exec (.l2AgingSweep w) s = .next u ∧ (u.well w).lastSweep = s.dt ∧ (u.well w).sweepAge = s.tables.ageTime
      ∧ u.l2t w = (s.l2t w).swept := by
  have same : (((s.l2t w).dynamic fun _ => true).foldl (fun acc i => acc.dpTouch w i) s).l2t w = s.l2t w :=
    State.foldl_keeps (State.l2t · w) (fun acc i => acc.dpTouch w i) (fun _ _ => rfl) _ s
  refine ⟨_, if_neg (by omega), ?_⟩
  rw [State.updWell_well, State.updWell_l2t, State.updL2t_l2t, State.l2Remove_l2t, same]
  exact ⟨rfl, rfl, rfl⟩

theorem l2AgingSweep_ages {s : State} {w : Nat} (ages : (s.well w).sweepAge ≠ 0)
    (due : (s.well w).lastSweep + (s.well w).sweepAge * 1000000000 ≤ s.dt) (wf : SMap.wf none (s.l2t w).ents = true) :
    ∃ u, exec (.l2AgingSweep w) s = .next u ∧ (u.well w).lastSweep = s.dt ∧ (u.well w).sweepAge = s.tables.ageTime
      ∧ ∀ j e, SMap.get none (s.l2t w).ents j = some e → SMap.get none (u.l2t w).ents j
        = if e.static then some e else if e.hit then some { e with hit := false } else none := by
  obtain ⟨u, sweeps, now, age, table⟩ := l2AgingSweep_sweeps ages due
  exact ⟨u, sweeps, now, age, fun j e held => by rw [table, L2Tbl.swept_entry wf held]⟩

/-- Settles O25: each clause is the lemma about its event. -/
theorem tableUpkeep : Obligations.TableUpkeep := by
  unfold Obligations.TableUpkeep
  refine ⟨⟨fun s v e r lone commits => ⟨emOverlayDecide_commits lone commits, emOverlayRetire_empties lone⟩,
      lpmRebuildDone_whole, fun s k c => digestScrubBlock_effect⟩,
    fun s w n j => l2TriggerApply_learns, fun s w n rest => learnNoticeSend_carries, fun s w n rest j e => l2NoticeApply_moves,
    fun s w => l2AgingSweep_ages⟩

end Sys2Proof.Machine
end

section
/-!
PROOFS. O26: the table commands (R374, R376, R382, R389, R397, R398, R401).
-/

namespace Sys2Proof.Machine

section
variable {s : State} {c : CmdRef}

/-! ### TABLE_BATCH (R397, R398) -/

/-- A table that a command has set reads as it set it. -/
theorem State.setEmt_seen (s : State) (k : Nat) (x : Option EmTbl) (c : CmdRef) : ((s.setEmt k x).tblSeen c).emt k = x :=
  SMap.get_set_self ..

@[simp] theorem State.tblSeen_l2t (s : State) (c : CmdRef) (w : Nat) : (s.tblSeen c).l2t w = s.l2t w := rfl

/-- A command's batch is recorded with its results. -/
def State.batched (s : State) (c : CmdRef) (b : BatchRun) : State :=
  (s.updTables fun t => { t with batches := t.batches ++ [b] }).tblSeen c

section
variable {o : TblOp} {v : State} {r : TblRes} (acts : s.batchOp o = (v, r))
include acts

/-- A batch of one operation carries it out, and stops there either way. -/
theorem State.batchRun_one (stop : Bool) : s.batchRun [o] stop [] = (v, [r]) := by
  simp only [State.batchRun, acts, List.nil_append, ite_self]

theorem State.batchAtomic_applies (ok : r.code = 0) : s.batchAtomic c [o] = (v, ⟨c, [r.status], 1, 0xFF⟩) := by
  simp [State.batchAtomic, State.batchRun_one acts, batchResult, ok]

theorem State.batchAtomic_undone (failed : r.code ≠ 0) :
    s.batchAtomic c [o] = ({ s with free := v.free }, ⟨c, [r.status], 0, 0⟩) := by
  simp [State.batchAtomic, State.batchRun_one acts, batchResult, failed]

theorem State.batchPlain_applies (stop : Bool) (ok : r.code = 0) :
    s.batchPlain c [o] stop = (v, ⟨c, [r.status], 1, 0xFF⟩) := by
  simp [State.batchPlain, State.batchRun_one acts, batchResult, ok]

end

section
variable {o : TblOp} {a b : Bool} (counted : batchOpOk o = true) (due : s.accepts c 0x0300 (batchFields a b [o]))
  (fresh : s.tables.batches = [])
include counted due fresh

/-- A new batch of one operation leaves what carrying it out leaves, and its record. -/
theorem tableBatch_records {u : State} {run : BatchRun}
    (acts : (if a then s.batchAtomic c [o] else s.batchPlain c [o] b) = (u, run)) :
    exec (.tableBatch c a b [o]) s = .next ((u.batched c run).answer c .later) := by
  have body : tableBatchBody c a b [o] s = (u.batched c run, .later) := by
    unfold tableBatchBody
    rw [if_neg (by simp), if_neg (by simp), if_neg (by simp [fresh]), acts]
    rfl
  show execTableBatch c a b [o] s = _
  rw [execTableBatch, if_neg (by simp [counted]), State.command_later due body]

variable {v : State} {r : TblRes} (acts : s.batchOp o = (v, r))
include acts

theorem tableBatch_applies (quiet : v.tables.batches = []) (ok : r.code = 0) :
    Claims.goesOn s (.tableBatch c a b [o]) c fun u => u.tables.l2 = v.tables.l2 ∧ u.tables.em = v.tables.em
      ∧ u.tables.weirs = v.tables.weirs ∧ u.tables.batches = [⟨c, [r.status], 1, 0xFF⟩] := by
  have run : (if a then s.batchAtomic c [o] else s.batchPlain c [o] b) = (v, ⟨c, [r.status], 1, 0xFF⟩) := by
    rw [State.batchAtomic_applies acts ok, State.batchPlain_applies acts b ok, ite_self]
  exact ⟨_, tableBatch_records counted due fresh run, rfl, rfl, rfl, congrArg (· ++ _) quiet⟩

theorem tableBatch_undone (failed : r.code ≠ 0) (atomic : a = true) :
    Claims.goesOn s (.tableBatch c a b [o]) c fun u => u.tables.l2 = s.tables.l2 ∧ u.tables.em = s.tables.em
      ∧ u.tables.weirs = s.tables.weirs ∧ u.tables.batches = [⟨c, [r.status], 0, 0⟩] := by
  have run : (if a then s.batchAtomic c [o] else s.batchPlain c [o] b)
      = ({ s with free := v.free }, ⟨c, [r.status], 0, 0⟩) := by
    rw [if_pos atomic, State.batchAtomic_undone acts failed]
  exact ⟨_, tableBatch_records counted due fresh run, rfl, rfl, rfl, congrArg (· ++ _) fresh⟩

end

theorem tableBatchDone_answers {b : BatchRun} (runs : s.running c 0x0300 = true) (lone : s.tables.batches = [b])
    (own : b.c = c) : ∃ u : State, exec (.tableBatchDone c) s
      = .next (u.answer c (.reply 0 0 (wordsBytes b.results) [BitVec.ofNat 8 b.applied, BitVec.ofNat 8 b.failIndex]))
      ∧ u.tables.batches = [] := by
  refine ⟨s.updTables fun t => { t with batches := t.batches.filter fun x => x.c ≠ c }, ?_, ?_⟩
  · show execTableBatchDone c s = _
    simp only [execTableBatchDone, lone, List.find?_cons, own, decide_true, runs, Bool.not_true, Bool.false_eq_true, if_false]
    rfl
  · show s.tables.batches.filter _ = []
    simp [lone, own]

/-! ### TABLE_READ, TABLE_STATS (R389, R397) -/

/-- The status word of an operation that ends OK: its index in bits 8 and up (R395). -/
theorem TblRes.status_index (r : TblRes) (ok : r.code = 0) (len : r.len = 0) (dflt : r.dflt = false) (h : r.index < 2 ^ 28) :
    r.status = BitVec.ofNat 64 (r.index * 256) := by
  rw [TblRes.status, ok, len, dflt, Nat.mod_eq_of_lt h]
  simp

@[simp] theorem CtrPair.words_length (x : CtrPair) : x.words.length = 2 := rfl

theorem tableRead_counter {w : W64} {k : Nat} (due : s.accepts c 0x0301 [(8, w.toNat)]) (named : w.toNat % 16 = 5)
    (fields : Claims.image w 0x90 0 0 k) (hk : k < 4194304) (whole : (s.pair' k).lost = false) :
    Claims.answersData s (.tableRead c w []) c (wordsBytes [BitVec.ofNat 64 (k * 256),
      (s.pair' k).backP + BitVec.ofNat 64 (s.pair' k).resP, (s.pair' k).backB + BitVec.ofNat 64 (s.pair' k).resB]) := by
  obtain ⟨table, -, words, rfl⟩ := Claims.image_read fields
  have op : cmdOp w = 5 := by simpa [cmdOp, fld] using named
  have read : s.tblOp true 0x90 5 (cmdIndex w) [] [] = (s, { index := cmdIndex w, data := (s.pair' (cmdIndex w)).words }) := by
    rw [s.readCounter hk, whole]
    rfl
  have status : TblRes.status { index := cmdIndex w, data := (s.pair' (cmdIndex w)).words }
      = BitVec.ofNat 64 (cmdIndex w * 256) := TblRes.status_index _ rfl rfl rfl (show cmdIndex w < 2 ^ 28 by omega)
  have body : tableReadBody c w [] s = (s, .data (wordsBytes (BitVec.ofNat 64 (cmdIndex w * 256)
      :: (s.pair' (cmdIndex w)).words))) := by
    simp [tableReadBody, op, words, table, read, status, readOp]
  exact State.command_reads due body

theorem tableStats_l2 {k : Nat} (hk : k < 8) (due : s.accepts c 0x0302 [(2, k)]) :
    ∃ rest, Claims.answersData s (.tableStats c k) c (wordsBytes
      (BitVec.ofNat 64 ((s.l2t k).ents.filter fun e => e.2.isSome).length :: rest)) := by
  obtain ⟨rest, body⟩ : ∃ rest, tableStatsBody k s = (s, .data (wordsBytes
      (BitVec.ofNat 64 ((s.l2t k).ents.filter fun e => e.2.isSome).length :: rest))) := by
    simp only [tableStatsBody, tblKind_l2 hk, State.tblOccupancy, List.cons_append]
    exact ⟨_, rfl⟩
  exact ⟨rest, State.command_reads due body⟩

/-! ### EM_TABLE_SET (R382, R385) -/

theorem emTableSet_creates {t n klen cache : Nat} {seed : W32}
    (due : s.accepts c 0x0303 [(1, t), (1, n), (1, klen), (1, cache), (1, 0), (4, seed.toNat)]) (ht : t ≤ 15) (low : 10 ≤ n)
    (high : n ≤ 24) (key : 1 ≤ klen) (long : klen ≤ 6) (hc : cache ≤ 1) (empty : s.emTables = []) (new : s.emt t = none)
    (room : 256 * 2 ^ n ≤ s.regionSize 1) : Claims.answersOk s (.emTableSet c t n klen cache 0 seed) c fun u =>
      u.emt t = some { log2 := n, klen := klen, cache := cache, seed := seed, base := 0 } := by
  have place : s.emPlace n = some 0 := by
    simp [State.emPlace, empty, emBytes, room]
  have body : emTableBody c t n klen cache 0 seed s = ((s.setEmt t (some
      { log2 := n, klen := klen, cache := cache, seed := seed, base := 0 })).tblSeen c, .ok) := by
    unfold emTableBody
    rw [if_neg (by omega), if_neg (by decide), if_neg (by omega)]
    simp only [new, place]
    rw [if_neg (by omega)]
  exact ⟨_, State.command_ok due body, State.setEmt_seen ..⟩

theorem emTableSet_destroys {t n klen cache : Nat} {seed : W32}
    (due : s.accepts c 0x0303 [(1, t), (1, n), (1, klen), (1, cache), (1, 1), (4, seed.toNat)]) (ht : t ≤ 15) :
    Claims.answersOk s (.emTableSet c t n klen cache 1 seed) c fun u => u.emt t = none := by
  have body : emTableBody c t n klen cache 1 seed s = ((s.setEmt t none).tblSeen c, .ok) :=
    (if_neg (by omega)).trans (if_pos rfl)
  exact ⟨_, State.command_ok due body, State.setEmt_seen ..⟩

/-! ### L2_CONFIG, L2_FLUSH (R374-R376) -/

theorem l2Config_sets {age fl : Nat} (due : s.accepts c 0x0304 [(4, age), (1, fl)]) (low : age = 0 ∨ 10 ≤ age)
    (high : age ≤ 1000000) (flag : fl ≤ 1) : Claims.answersOk s (.l2Config c age fl) c fun u => u.tables.ageTime = age
      ∧ u.tables.flushOnDown = decide (fl = 1) ∧ u.tables.l2 = s.tables.l2 := by
  have kept (l : List Nat) (x : State) : (l.foldl (fun (acc : State) w => if (acc.well w).sweepAge = 0 then
      acc.updWell w fun x => { x with lastSweep := s.dt, sweepAge := age } else acc) x).tables = x.tables :=
    State.foldl_keeps State.tables _ (fun _ _ => by split <;> rfl) l x
  refine ⟨_, State.command_ok due (if_neg (by omega)), ?_⟩
  dsimp only
  rw [kept]
  exact ⟨rfl, rfl, rfl⟩

/-- A flush removes from each well the dynamic entries that it names. -/
theorem State.flushed_l2t (s : State) (p : L2Ent → Bool) {w : Nat} (hw : w < 8) :
    ((List.range 8).foldl (fun acc w => acc.l2Remove w p) s).l2t w = (s.l2t w).without p :=
  (foldl_read_once (read := State.l2t) (upd := fun acc w => acc.l2Remove w p) (g := fun _ x => x.without p)
    (fun x k => x.l2Remove_l2t k p) (fun x _ _ h => x.l2Remove_l2t_ne p h) List.nodup_range s w).trans
    (if_pos (List.mem_range.2 hw))

theorem l2Flush_all {val w : Nat} (due : s.accepts c 0x0305 [(1, 2), (2, val)]) (hw : w < 8)
    (wf : SMap.wf none (s.l2t w).ents = true) : Claims.answersOk s (.l2Flush c 2 val) c fun u =>
      ∀ j e, SMap.get none (s.l2t w).ents j = some e →
        SMap.get none (u.l2t w).ents j = if e.static then some e else none := by
  have body : l2FlushBody c 2 val s
      = (((List.range 8).foldl (fun acc w => acc.l2Remove w fun _ => true) s).tblSeen c, .ok) := if_neg (by omega)
  refine ⟨_, State.command_ok due body, fun j e held => ?_⟩
  rw [State.tblSeen_l2t, State.flushed_l2t s _ hw, L2Tbl.without_entry wf _ held]
  cases e.static <;> rfl

/-! ### TABLE_SCRUB_CONFIG (R401) -/

theorem State.scrubOf_set (s : State) (k : Nat) (x : ScrubCfg) :
    (s.updTables fun t => { t with scrub := SMap.set {} t.scrub k x }).scrubOf k = x := SMap.get_set_self ..

theorem tableScrubConfig_starts {t per ring : Nat}
    (due : s.accepts c 0x0306 [(2, t), (1, 1), (4, per), (8, ring), (4, 64)]) (ht : t < 8) (low : 60 ≤ per)
    (high : per ≤ 86400) (off : (s.scrubOf t).enable = false) :
    Claims.answersOk s (.tableScrubConfig c t 1 per ring 64) c fun u =>
      u.scrubOf t = { enable := true, period := per, host := c.fn, ring := ring, entries := 64, lastDt := s.dt } := by
  have digest : hasDigest t = true := by simp [hasDigest, tblKind_l2 ht]
  have size : ((List.range 11).map fun k => 64 * 2 ^ k).contains 64 = true := by decide
  refine ⟨_, State.command_ok due ((if_neg ?valid).trans (if_neg ?changed)), State.scrubOf_set ..⟩
  case valid =>
    rw [digest, size]
    simp only [Bool.not_true, Bool.false_eq_true, false_or, or_false]
    omega
  case changed => simp [off]

end

/-- Settles O26: each clause is the lemma about its command. -/
theorem tableCommands : Obligations.TableCommands := by
  unfold Obligations.TableCommands
  intro s c
  exact ⟨fun o a b counted due fresh v r acts quiet => ⟨tableBatch_applies counted due fresh acts quiet,
      tableBatch_undone counted due fresh acts⟩,
    fun b => tableBatchDone_answers, fun w k => tableRead_counter, fun k => tableStats_l2,
    fun t n klen cache seed => emTableSet_creates, fun t n klen cache seed => emTableSet_destroys,
    fun age fl => l2Config_sets, fun val w => l2Flush_all, fun t per ring => tableScrubConfig_starts⟩

end Sys2Proof.Machine
end

section
/-!
PROOFS. What each function of the model may change (O58, O59, O60).

`Reaches ps r u` says that `u` comes from `r` by safe changes to the parts `ps` alone: the queue is the same, every other part
is the same, memory keeps its canonical form, the fault log its bound, and no bit of the OTP falls. One lemma per function of
the model says which parts it reaches, from the lemmas of the functions that it calls; the functions that reach the same parts
share a section. A command `Completes` with a state that it `Reaches`.
-/

namespace Sys2Proof.Machine

-- One frame lemma for each function of the model: elaborated one after the other, they need far less memory.
set_option Elab.async false

/-- A part of the device's state; the queue of commands is none of them. -/
inductive Part where
  | out | time | net | order | basin | cistern | egress | thrs | truns | scratch | cores | clusters | locks | keys |
      mem | hbm
  | power | tables | ledger | dci | faults | trust | free
deriving DecidableEq

/-- The two states agree on a part. -/
def State.agrees (s u : State) (p : Part) : Prop :=
  match p with
  | .out => u.out = s.out
  | .time => u.time = s.time
  | .net => u.net = s.net
  | .order => u.order = s.order
  | .basin => u.basin = s.basin
  | .cistern => u.cistern = s.cistern
  | .egress => u.egress = s.egress
  | .thrs => u.thrs = s.thrs
  | .truns => u.truns = s.truns
  | .scratch => u.scratch = s.scratch
  | .cores => u.cores = s.cores
  | .clusters => u.clusters = s.clusters
  | .locks => u.locks = s.locks
  | .keys => u.keys = s.keys
  | .mem => u.mem = s.mem
  | .hbm => u.hbm = s.hbm
  | .power => u.power = s.power
  | .tables => u.tables = s.tables
  | .ledger => u.ledger = s.ledger
  | .dci => u.dci = s.dci
  | .faults => u.faults = s.faults
  | .trust => u.trust = s.trust
  | .free => u.free = s.free

/-- What a step may do to what stays sound: memory keeps its canonical form and the fault log its bound, and no bit of the
OTP falls back to 0. -/
structure State.safeTo (s u : State) : Prop where
  mem : s.mem.wf = true → u.mem.wf = true
  log : s.faults.log.length ≤ 4096 → u.faults.log.length ≤ 4096
  otp : ∀ id, bitsKept (SMap.get 0 s.trust.otp id) (SMap.get 0 u.trust.otp id)

/-- `u` comes from `r` by safe changes to the parts `ps` alone. -/
structure Reaches (ps : List Part) (r u : State) : Prop where
  pending : u.pending = r.pending
  same : ∀ p, p ∉ ps → r.agrees u p
  safe : r.safeTo u

/-- The command completes, and its next state comes from `r` by safe changes to the parts `ps` alone. -/
def Completes (ps : List Part) (r : State) (o : Out) : Prop := ∃ u, o = .next u ∧ Reaches ps r u

/-- The state that an operation may leave, if it leaves one, comes from `r` by safe changes to the parts `ps` alone. -/
def Maybe (ps : List Part) (r : State) (o : Option State) : Prop := ∀ u, o = some u → Reaches ps r u

theorem State.agrees_refl (s : State) (p : Part) : s.agrees s p := by cases p <;> rfl

theorem State.agrees_trans {s t u : State} {p : Part} (h : s.agrees t p) (k : t.agrees u p) : s.agrees u p := by
  cases p <;> exact Eq.trans k h

theorem State.safeTo_refl (s : State) : s.safeTo s := ⟨id, id, fun _ _ h => h⟩

theorem State.safeTo_trans {s t u : State} (h : s.safeTo t) (k : t.safeTo u) : s.safeTo u :=
  ⟨k.mem ∘ h.mem, k.log ∘ h.log, fun id b e => k.otp id b (h.otp id b e)⟩

theorem Reaches.refl (ps : List Part) (s : State) : Reaches ps s s :=
  ⟨rfl, fun p _ => s.agrees_refl p, s.safeTo_refl⟩

theorem Reaches.trans {ps : List Part} {r s u : State} (h : Reaches ps r s) (k : Reaches ps s u) : Reaches ps r u :=
  ⟨k.pending.trans h.pending, fun p hp => State.agrees_trans (h.same p hp) (k.same p hp), State.safeTo_trans h.safe
      k.safe⟩

theorem Reaches.mono {ps qs : List Part} {r u : State} (h : Reaches ps r u) (sub : ps ⊆ qs) : Reaches qs r u :=
  ⟨h.pending, fun p hp => h.same p fun hq => hp (sub hq), h.safe⟩

theorem Reaches.changes {ps : List Part} {r s u : State} (h : Reaches ps r s) (p : Part) (hp : p ∈ ps)
    (pending : u.pending = s.pending) (same : ∀ q, q ≠ p → s.agrees u q) (safe : s.safeTo u) : Reaches ps r u :=
  h.trans ⟨pending, fun q hq => same q fun e => hq (e ▸ hp), safe⟩

section
variable {ps : List Part} {r s : State} (h : Reaches ps r s)
include h

theorem Reaches.with_out (out : .out ∈ ps) (x) : Reaches ps r { s with out := x } :=
  h.changes .out out rfl (fun q hq => by cases q with | out => exact absurd rfl hq | _ => rfl)
      ⟨id, id, fun _ _ e => e⟩
theorem Reaches.with_time (time : .time ∈ ps) (x) : Reaches ps r { s with time := x } :=
  h.changes .time time rfl (fun q hq => by cases q with | time => exact absurd rfl hq | _ => rfl)
      ⟨id, id, fun _ _ e => e⟩
theorem Reaches.with_net (net : .net ∈ ps) (x) : Reaches ps r { s with net := x } :=
  h.changes .net net rfl (fun q hq => by cases q with | net => exact absurd rfl hq | _ => rfl)
      ⟨id, id, fun _ _ e => e⟩
theorem Reaches.with_order (order : .order ∈ ps) (x) : Reaches ps r { s with order := x } :=
  h.changes .order order rfl (fun q hq => by cases q with | order => exact absurd rfl hq | _ => rfl)
      ⟨id, id, fun _ _ e => e⟩
theorem Reaches.with_basin (basin : .basin ∈ ps) (x) : Reaches ps r { s with basin := x } :=
  h.changes .basin basin rfl (fun q hq => by cases q with | basin => exact absurd rfl hq | _ => rfl)
      ⟨id, id, fun _ _ e => e⟩
theorem Reaches.with_cistern (cistern : .cistern ∈ ps) (x) : Reaches ps r { s with cistern := x } :=
  h.changes .cistern cistern rfl (fun q hq => by cases q with | cistern => exact absurd rfl hq | _ => rfl)
      ⟨id, id, fun _ _ e => e⟩
theorem Reaches.with_egress (egress : .egress ∈ ps) (x) : Reaches ps r { s with egress := x } :=
  h.changes .egress egress rfl (fun q hq => by cases q with | egress => exact absurd rfl hq | _ => rfl)
      ⟨id, id, fun _ _ e => e⟩
theorem Reaches.with_thrs (thrs : .thrs ∈ ps) (x) : Reaches ps r { s with thrs := x } :=
  h.changes .thrs thrs rfl (fun q hq => by cases q with | thrs => exact absurd rfl hq | _ => rfl)
      ⟨id, id, fun _ _ e => e⟩
theorem Reaches.with_truns (truns : .truns ∈ ps) (x) : Reaches ps r { s with truns := x } :=
  h.changes .truns truns rfl (fun q hq => by cases q with | truns => exact absurd rfl hq | _ => rfl)
      ⟨id, id, fun _ _ e => e⟩
theorem Reaches.with_scratch (scratch : .scratch ∈ ps) (x) : Reaches ps r { s with scratch := x } :=
  h.changes .scratch scratch rfl (fun q hq => by cases q with | scratch => exact absurd rfl hq | _ => rfl)
      ⟨id, id, fun _ _ e => e⟩
theorem Reaches.with_cores (cores : .cores ∈ ps) (x) : Reaches ps r { s with cores := x } :=
  h.changes .cores cores rfl (fun q hq => by cases q with | cores => exact absurd rfl hq | _ => rfl)
      ⟨id, id, fun _ _ e => e⟩
theorem Reaches.with_clusters (clusters : .clusters ∈ ps) (x) : Reaches ps r { s with clusters := x } :=
  h.changes .clusters clusters rfl (fun q hq => by cases q with | clusters => exact absurd rfl hq | _ => rfl)
      ⟨id, id, fun _ _ e => e⟩
theorem Reaches.with_locks (locks : .locks ∈ ps) (x) : Reaches ps r { s with locks := x } :=
  h.changes .locks locks rfl (fun q hq => by cases q with | locks => exact absurd rfl hq | _ => rfl)
      ⟨id, id, fun _ _ e => e⟩
theorem Reaches.with_keys (keys : .keys ∈ ps) (x) : Reaches ps r { s with keys := x } :=
  h.changes .keys keys rfl (fun q hq => by cases q with | keys => exact absurd rfl hq | _ => rfl)
      ⟨id, id, fun _ _ e => e⟩
theorem Reaches.with_hbm (hbm : .hbm ∈ ps) (x) : Reaches ps r { s with hbm := x } :=
  h.changes .hbm hbm rfl (fun q hq => by cases q with | hbm => exact absurd rfl hq | _ => rfl)
      ⟨id, id, fun _ _ e => e⟩
theorem Reaches.with_power (power : .power ∈ ps) (x) : Reaches ps r { s with power := x } :=
  h.changes .power power rfl (fun q hq => by cases q with | power => exact absurd rfl hq | _ => rfl)
      ⟨id, id, fun _ _ e => e⟩
theorem Reaches.with_tables (tables : .tables ∈ ps) (x) : Reaches ps r { s with tables := x } :=
  h.changes .tables tables rfl (fun q hq => by cases q with | tables => exact absurd rfl hq | _ => rfl)
      ⟨id, id, fun _ _ e => e⟩
theorem Reaches.with_ledger (ledger : .ledger ∈ ps) (x) : Reaches ps r { s with ledger := x } :=
  h.changes .ledger ledger rfl (fun q hq => by cases q with | ledger => exact absurd rfl hq | _ => rfl)
      ⟨id, id, fun _ _ e => e⟩
theorem Reaches.with_dci (dci : .dci ∈ ps) (x) : Reaches ps r { s with dci := x } :=
  h.changes .dci dci rfl (fun q hq => by cases q with | dci => exact absurd rfl hq | _ => rfl)
      ⟨id, id, fun _ _ e => e⟩
theorem Reaches.with_free (free : .free ∈ ps) (x) : Reaches ps r { s with free := x } :=
  h.changes .free free rfl (fun q hq => by cases q with | free => exact absurd rfl hq | _ => rfl)
      ⟨id, id, fun _ _ e => e⟩

theorem Reaches.with_mem (mem : .mem ∈ ps) (m : HbmMem) (wf : s.mem.wf = true → m.wf = true) :
    Reaches ps r { s with mem := m } :=
  h.changes .mem mem rfl (fun q hq => by cases q with | mem => exact absurd rfl hq | _ => rfl)
      ⟨wf, id, fun _ _ e => e⟩
theorem Reaches.with_faults (faults : .faults ∈ ps) (x : FaultSt)
    (log : s.faults.log.length ≤ 4096 → x.log.length ≤ 4096) : Reaches ps r { s with faults := x } :=
  h.changes .faults faults rfl (fun q hq => by cases q with | faults => exact absurd rfl hq | _ => rfl)
    ⟨id, log, fun _ _ e => e⟩
theorem Reaches.with_trust (trust : .trust ∈ ps) (x : TrustSt)
    (otp : ∀ id, bitsKept (SMap.get 0 s.trust.otp id) (SMap.get 0 x.otp id)) : Reaches ps r { s with trust := x } :=
  h.changes .trust trust rfl (fun q hq => by cases q with | trust => exact absurd rfl hq | _ => rfl) ⟨id, id, otp⟩

theorem Reaches.completes : Completes ps r (done s) := ⟨s, rfl, h⟩

theorem Reaches.maybe : Maybe ps r (some s) := fun _ e => Option.some.inj e ▸ h

omit h in
theorem Maybe.none : Maybe ps r none := fun _ e => nomatch e

omit h in
theorem bitsKept_refl (a : Nat) : bitsKept a a := fun _ h => h

theorem Reaches.ite {c : Prop} [Decidable c] {u : State} (k : Reaches ps r u) : Reaches ps r (if c then s else u)
    := by
  split
  · exact h
  · exact k

theorem Reaches.foldl {α : Type} {f : State → α → State} (l : List α) (step : ∀ x a, Reaches ps x (f x a)) :
    Reaches ps r (l.foldl f s) := by
  induction l generalizing s with
  | nil => exact h
  | cons a l ih => exact ih (h.trans (step s a))
end

/-- The first part of a pair that holds a state. -/
theorem Reaches.of_fst {α : Type} {ps : List Part} {r u : State} {p : State × α} {a : α} (e : p = (u, a))
    (k : Reaches ps r p.1) : Reaches ps r u := by
  subst e
  exact k

theorem Reaches.of_snd {α : Type} {ps : List Part} {r u : State} {p : α × State} {a : α} (e : p = (a, u))
    (k : Reaches ps r p.2) : Reaches ps r u := by
  subst e
  exact k

theorem Reaches.foldl_fst {α β : Type} {ps : List Part} {r s : State} (h : Reaches ps r s) (l : List α) (b : β)
    {f : State × β → α → State × β} (step : ∀ x a, Reaches ps x.1 (f x a).1) : Reaches ps r (l.foldl f (s, b)).1 :=
  List.foldlRecOn (motive := fun x => Reaches ps r x.1) l f h fun x k a _ => k.trans (step x a)

theorem Maybe.ite {ps : List Part} {r : State} {c : Prop} [Decidable c] {o q : Option State} (h : Maybe ps r o)
    (k : Maybe ps r q) : Maybe ps r (if c then o else q) := by
  split
  · exact h
  · exact k

theorem Completes.ite {ps : List Part} {r : State} {c : Prop} [Decidable c] {o q : Out} (h : Completes ps r o)
    (k : Completes ps r q) : Completes ps r (if c then o else q) := by
  split
  · exact h
  · exact k

theorem Maybe.map {α : Type} {ps : List Part} {r : State} {o : Option α} {f : α → State}
    (k : ∀ a, Reaches ps r (f a)) : Maybe ps r (o.map f) := by
  intro u e
  obtain ⟨a, -, rfl⟩ := Option.map_eq_some_iff.1 e
  exact k a

/-- The state in the answer of an access to a unit, of a load, of a store and of a granule of a string instruction comes
from `r` by safe changes to the parts `ps` alone. -/
def DevR.reaches (ps : List Part) (r : State) (x : DevR) : Prop :=
  match x with
  | .ok _ s => Reaches ps r s
  | _ => True

def LdR.reaches (ps : List Part) (r : State) (x : LdR) : Prop :=
  match x with
  | .ok _ s | .trap _ s | .miss s => Reaches ps r s
  | .stall => True

def MemR.reaches (ps : List Part) (r : State) (x : MemR) : Prop :=
  match x with
  | .ok _ s | .trap _ s | .miss s => Reaches ps r s
  | _ => True

def StR.reaches (ps : List Part) (r : State) (x : StR) : Prop :=
  match x with
  | .ok s => Reaches ps r s
  | _ => True

def DbgW.reaches (ps : List Part) (r : State) (x : DbgW) : Prop :=
  match x with
  | .ok s => Reaches ps r s
  | _ => True

def GrR.reaches (ps : List Part) (r : State) (x : GrR) : Prop :=
  match x with
  | .cont s | .fin s | .trap _ s | .miss _ s | .lock _ s => Reaches ps r s
  | .stall => True

theorem GrR.reaches.trans {ps : List Part} {r s : State} {x : GrR} (k : x.reaches ps s) (h : Reaches ps r s) :
    x.reaches ps r := by
  cases x with
  | stall => trivial
  | _ => exact Reaches.trans h k

theorem DevR.reaches.of {ps : List Part} {r : State} {x y : DevR} (e : x = y) (k : x.reaches ps r) : y.reaches ps r :=
    e ▸ k

theorem LdR.reaches.of {ps : List Part} {r : State} {x y : LdR} (e : x = y) (k : x.reaches ps r) : y.reaches ps r := e
    ▸ k

theorem StR.reaches.of {ps : List Part} {r : State} {x y : StR} (e : x = y) (k : x.reaches ps r) : y.reaches ps r := e
    ▸ k

theorem DbgW.reaches.of {ps : List Part} {r : State} {x y : DbgW} (e : x = y) (k : x.reaches ps r) : y.reaches ps r :=
    e ▸ k

theorem DevR.reaches.ite {ps : List Part} {r : State} {c : Prop} [Decidable c] {x y : DevR} (k : x.reaches ps r)
    (l : y.reaches ps r) : (if c then x else y).reaches ps r := by
  split
  · exact k
  · exact l

theorem bitsKept_or (a b : Nat) : bitsKept a (a ||| b) := fun k e => by simp [e]

theorem bitsKept_set {m : SMap Nat} (k v : Nat) (kept : bitsKept (SMap.get 0 m k) v) (id : Nat) :
    bitsKept (SMap.get 0 m id) (SMap.get 0 (SMap.set 0 m k v) id) := by
  rw [SMap.get_set]
  split
  · rename_i e
    exact e ▸ kept
  · exact bitsKept_refl _

theorem testBit_add_two_pow {v b : Nat} (clear : v.testBit b = false) {k : Nat} (one : v.testBit k = true) :
    (v + 2 ^ b).testBit k = true := by
  have low : v % 2 ^ b < 2 ^ b := Nat.mod_lt _ (by positivity)
  have cut : v = 2 ^ b * (v / 2 ^ b) + v % 2 ^ b := (Nat.div_add_mod _ _).symm
  have raised : v + 2 ^ b = 2 ^ b * (v / 2 ^ b + 1) + v % 2 ^ b := by
    rw [mul_add]
    omega
  have even : v / 2 ^ b % 2 = 0 := by simpa [Nat.testBit_eq_decide_div_mod_eq] using clear
  rw [cut, Nat.testBit_two_pow_mul_add _ low] at one
  rw [raised, Nat.testBit_two_pow_mul_add _ low]
  split at one
  · rwa [if_pos ‹_›]
  · rw [if_neg ‹_›]
    cases h : k - b with
    | zero => rw [h, Nat.testBit_zero, even] at one; exact absurd one (by decide)
    | succ j =>
      rw [h, Nat.testBit_succ] at one
      rw [Nat.testBit_succ]
      exact (by omega : (v / 2 ^ b + 1) / 2 = v / 2 ^ b / 2) ▸ one

/-- What priming writes before its random words are drawn. -/
def freshParts : List Part := [.basin, .cistern, .cores, .clusters, .mem, .hbm, .free]

/-- Setting bits that are 0 until enough are 1 keeps those that are 1. -/
theorem bitsKept_raiseBits (v n fuel : Nat) : bitsKept v (raiseBits v n fuel) := by
  induction fuel generalizing v with
  | zero => exact bitsKept_refl v
  | succ fuel ih =>
    unfold raiseBits
    split
    · exact bitsKept_refl v
    · split
      · rename_i b e
        have clear : v.testBit b = false := by simpa using List.find?_some e
        exact fun k one => ih _ k (testBit_add_two_pow clear one)
      · exact bitsKept_refl v

section
variable {ps : List Part} {r s : State} (h : Reaches ps r s)
include h

omit h in
theorem StR.reaches.inOrder (t : Nat) {x : StR} (k : x.reaches ps r) : (s.inOrder t x).reaches ps r := by
  unfold State.inOrder
  split
  · split
    · exact k
    · trivial
  · exact k

theorem Reaches.channelStatusBody (cl : ℕ) (first : ℕ) (count : ℕ) : Reaches ps r
    (channelStatusBody cl first count s).1 := by
  unfold Machine.channelStatusBody
  split
  · exact h
  · exact h

theorem Reaches.coreStatsBody (c : ℕ) : Reaches ps r (coreStatsBody c s).1 := by
  unfold Machine.coreStatsBody
  split
  · exact h
  · exact h

theorem Reaches.traceReadBody (cl : ℕ) : Reaches ps r (traceReadBody cl s).1 := by
  unfold Machine.traceReadBody
  dsimp only
  split
  · exact h
  · exact h

theorem Reaches.guarded (body : State → State × Ans) (k : ∀ x, Reaches ps x (body x).1) :
    Reaches ps r (guarded body s).1 := by
  unfold Machine.guarded
  split
  · exact h
  · exact h.trans (k s)

theorem Reaches.deviceInfoBody (f : HostFn) : Reaches ps r (deviceInfoBody f s).1 := by
  unfold Machine.deviceInfoBody
  exact h

theorem Reaches.domainStatusBody (first : ℕ) (count : ℕ) : Reaches ps r (domainStatusBody first count s).1 := by
  unfold Machine.domainStatusBody
  split
  · exact h
  · exact h

theorem Reaches.errorStatsBody : Reaches ps r (errorStatsBody s).1 := by
  unfold Machine.errorStatsBody
  exact h

theorem Reaches.hbmStatsBody : Reaches ps r (hbmStatsBody s).1 := by
  unfold Machine.hbmStatsBody
  exact h

theorem Reaches.hbmPartitionReadBody : Reaches ps r (hbmPartitionReadBody s).1 := by
  unfold Machine.hbmPartitionReadBody
  exact h

theorem Reaches.identityCertBody : Reaches ps r (identityCertBody s).1 := by
  unfold Machine.identityCertBody
  exact h

theorem Reaches.faultLogReadBody (frm : W32) (count : ℕ) : Reaches ps r (faultLogReadBody frm count s).1 := by
  unfold Machine.faultLogReadBody
  dsimp only
  split
  · exact h
  · exact h

theorem Reaches.powerStatusBody : Reaches ps r (powerStatusBody s).1 := by
  unfold Machine.powerStatusBody
  exact h

theorem Reaches.sumpStatsBody : Reaches ps r (sumpStatsBody s).1 := by
  unfold Machine.sumpStatsBody
  exact h

theorem Reaches.queueStatsBody (first : ℕ) (count : ℕ) : Reaches ps r (queueStatsBody first count s).1 := by
  unfold Machine.queueStatsBody
  split
  · exact h
  · exact h

theorem Reaches.ledgerStatsBody : Reaches ps r (ledgerStatsBody s).1 := by
  unfold Machine.ledgerStatsBody
  dsimp only
  exact h

theorem Reaches.ledgerInfoBody : Reaches ps r (ledgerInfoBody s).1 := by
  unfold Machine.ledgerInfoBody
  dsimp only
  exact h

theorem Reaches.taskStatusBody (cl : ℕ) : Reaches ps r (taskStatusBody cl s).1 := by
  unfold Machine.taskStatusBody
  split
  · exact h
  · exact h

theorem Reaches.orderStatsBody : Reaches ps r (orderStatsBody s).1 := by
  unfold Machine.orderStatsBody
  exact h

theorem Reaches.tableStatsBody (table : ℕ) : Reaches ps r (tableStatsBody table s).1 := by
  unfold Machine.tableStatsBody
  split
  · exact h
  · dsimp only
    exact h

theorem Reaches.intakeStatsBody (port : ℕ) : Reaches ps r (intakeStatsBody port s).1 := by
  unfold Machine.intakeStatsBody
  split
  · exact h
  · exact h

theorem Reaches.moduleStatusBody (k : ℕ) : Reaches ps r (moduleStatusBody k s).1 := by
  unfold Machine.moduleStatusBody
  split
  · exact h
  · exact h

theorem Reaches.portStatusBody (p : ℕ) : Reaches ps r (portStatusBody p s).1 := by
  unfold Machine.portStatusBody
  split
  · exact h
  · exact h

end

section
variable {ps : List Part} {r s : State} (h : Reaches ps r s) (basin : .basin ∈ ps)
include h basin

theorem Reaches.setBuf (head : ℕ) (b : Buf) : Reaches ps r (s.setBuf head b) := by
  unfold State.setBuf
  exact h.with_basin basin _

theorem Reaches.updBuf (head : ℕ) (f : Buf → Buf) : Reaches ps r (s.updBuf head f) := by
  unfold State.updBuf
  split
  · exact h.setBuf basin _ _
  · exact h

theorem Reaches.requested (who : ℕ) (b : ℕ) : Reaches ps r (s.requested who b) := by
  unfold State.requested
  exact h.with_basin basin _

theorem Reaches.takeCell (c : ℕ) : Reaches ps r (s.takeCell c) := by
  unfold State.takeCell
  exact h.with_basin basin _

theorem Reaches.setEnt (k : ℕ) (e : Ent) : Reaches ps r (s.setEnt k e) := by
  unfold State.setEnt
  exact h.with_basin basin _

theorem Reaches.updEnt (k : ℕ) (f : Ent → Ent) : Reaches ps r (s.updEnt k f) := by
  unfold State.updEnt
  exact h.setEnt basin _ _

theorem Reaches.granted (who : ℕ) (b : ℕ) : Reaches ps r (s.granted who b) := by
  unfold State.granted
  exact h.with_basin basin _

theorem Reaches.failCount (ents : List ℕ) (g : Grant) : Reaches ps r (s.failCount ents g) := by
  unfold State.failCount
  split
  · split
    · exact h.updEnt basin _ _
    · exact h
  · exact Reaches.foldl h _ fun x _ => ((Reaches.refl ps x)).updEnt basin _ _
  · exact h

theorem Reaches.dropCell (c : ℕ) : Reaches ps r (s.dropCell c) := by
  unfold State.dropCell
  exact h.with_basin basin _

theorem Reaches.storeBytes (p : ℕ) : Reaches ps r (s.storeBytes p) := by
  unfold State.storeBytes
  dsimp only
  split
  · exact h.updBuf basin _ _
  · exact h

theorem Reaches.updBasin (f : BasinSt → BasinSt) : Reaches ps r (s.updBasin f) := by
  unfold State.updBasin
  exact h.with_basin basin _

theorem Reaches.poolDrop (cls : ℕ) : Reaches ps r (s.poolDrop cls) := by
  unfold State.poolDrop
  exact Reaches.foldl h _ fun x _ => ((Reaches.refl ps x)).updBasin basin _

theorem Reaches.breakLink (h' : ℕ) (cell : ℕ) : Reaches ps r (s.breakLink h' cell) := by
  unfold State.breakLink
  split
  · exact h
  · exact (h.updBuf basin _ _).with_basin basin _

theorem Reaches.cellFault (c : ℕ) : Reaches ps r (s.cellFault c) := by
  unfold State.cellFault
  split
  · exact Reaches.ite (h.with_basin basin _) (h.with_basin basin _)
  · exact h.with_basin basin _

theorem Reaches.setReqs (b : ℕ) (l : List CellReq) : Reaches ps r (s.setReqs b l) := by
  unfold State.setReqs
  exact h.with_basin basin _

theorem Reaches.rebuildBegin : Reaches ps r s.rebuildBegin := by
  unfold State.rebuildBegin
  exact Reaches.ite h (h.with_basin basin _)

theorem Reaches.fenceWord (c : ℕ) : Reaches ps r (s.fenceWord c) := by
  unfold State.fenceWord
  exact (h.with_basin basin _).rebuildBegin basin

theorem Reaches.minLowered (k : ℕ) (n : ℕ) (port : Option ℕ) : Reaches ps r (s.minLowered k n port) := by
  unfold State.minLowered
  dsimp only
  refine Reaches.updBasin ?_ basin _
  split
  · exact (h.updEnt basin _ _).updEnt basin _ _
  · exact h.updEnt basin _ _

theorem Reaches.poolTake (cls : ℕ) (len : ℕ) : Reaches ps r (s.poolTake cls len).1 := by
  unfold State.poolTake
  split
  · exact h
  · dsimp only
    split
    · exact h
    · dsimp only
      exact h.updBasin basin _

theorem Reaches.portLowered (p n : Nat) : Reaches ps r (s.portLowered p n) := by
  unfold State.portLowered
  dsimp only
  refine Reaches.updBasin (Reaches.updEnt (h.foldl_fst _ _ fun x _ => ?_) basin _ _) basin _
  dsimp only
  exact (Reaches.refl ps x.1).updEnt basin _ _

theorem Reaches.setQuota (kind : ℕ) (index : ℕ) (min : ℕ) (max : ℕ) (alpha : ℕ) : Reaches ps r
    (s.setQuota kind index min max alpha) := by
  unfold State.setQuota
  exact Reaches.ite ((h.updEnt basin _ _).portLowered basin _ _) ((h.updEnt basin _ _).minLowered basin _ _ _)

theorem Reaches.bufferQuotaBody (kind : ℕ) (index : ℕ) (min : ℕ) (max : ℕ) (alpha : ℕ) : Reaches ps r
    (bufferQuotaBody kind index min max alpha s).1 := by
  unfold Machine.bufferQuotaBody
  split
  · exact h
  · dsimp only
    exact h.setQuota basin _ _ _ _ _

theorem Reaches.bufferStatusBody : Reaches ps r (bufferStatusBody s).1 := by
  unfold Machine.bufferStatusBody
  dsimp only
  exact Reaches.foldl h _ fun x _ => ((Reaches.refl ps x)).updEnt basin _ _

theorem Reaches.execRebuildRetry : Completes ps r (execRebuildRetry s) := by
  unfold Machine.execRebuildRetry
  exact Completes.ite h.completes (((h.poolTake basin _ _).updBasin basin _).completes)

theorem Reaches.execSizedPoolAlloc (cls : ℕ) (len : ℕ) : Completes ps r (execSizedPoolAlloc cls len s) := by
  unfold Machine.execSizedPoolAlloc
  exact Completes.ite h.completes (Completes.ite (((h.poolTake basin _ _).updBasin basin _).completes)
      ((h.poolTake basin _ _).completes))

end

section
variable {ps : List Part} {r s : State} (h : Reaches ps r s) (cistern : .cistern ∈ ps)
include h cistern

theorem Reaches.takeBlock (b : ℕ) : Reaches ps r (s.takeBlock b) := by
  unfold State.takeBlock
  exact h.with_cistern cistern _

theorem Reaches.chainRoom (x : Chain) : ∀ u ∈ s.chainRoom x, Reaches ps r u.1 := by
  intro u hu
  unfold State.chainRoom at hu
  split at hu
  · split at hu
    · cases hu
      exact h
    · obtain ⟨b, -, rfl⟩ := Option.map_eq_some_iff.1 hu
      exact h.takeBlock cistern _
  · obtain ⟨b, -, rfl⟩ := Option.map_eq_some_iff.1 hu
    exact h.takeBlock cistern _

theorem Reaches.chainPut (x : Chain) (bs : List Byte) (fuel : Nat) (got : List Nat) :
    ∀ y ∈ s.chainPut x bs fuel got, Reaches ps r y.1 := by
  induction fuel generalizing s x bs got with
  | zero => exact fun _ hy => nomatch hy
  | succ n ih =>
    unfold State.chainPut
    split
    · exact fun _ hy => nomatch hy
    · rename_i eq
      have h1 := h.chainRoom cistern _ _ eq
      dsimp only
      split
      · intro y hy
        cases hy
        exact h1
      · exact ih h1 _ _ _

theorem Reaches.updCistern (f : CisternSt → CisternSt) : Reaches ps r (s.updCistern f) := by
  unfold State.updCistern
  exact h.with_cistern cistern _

end

section
variable {ps : List Part} {r s : State} (h : Reaches ps r s) (clusters : .clusters ∈ ps)
include h clusters

theorem Reaches.setCl (c : ℕ) (x : ClusterSt) : Reaches ps r (s.setCl c x) := by
  unfold State.setCl
  exact h.with_clusters clusters _

theorem Reaches.updCl (c : ℕ) (f : ClusterSt → ClusterSt) : Reaches ps r (s.updCl c f) := by
  unfold State.updCl
  exact h.setCl clusters _ _

theorem Reaches.updTask (c : ℕ) (f : TaskSt → TaskSt) : Reaches ps r (s.updTask c f) := by
  unfold State.updTask
  exact h.updCl clusters _ _

theorem Reaches.lockAtEnd (t : ℕ) : Reaches ps r (s.lockAtEnd t) := by
  unfold State.lockAtEnd
  exact Reaches.ite h (h.updTask clusters _ _)

theorem Reaches.wasBusy (c : ℕ) : Reaches ps r (s.wasBusy c) := by
  unfold State.wasBusy
  exact h.updTask clusters _ _

theorem Reaches.tracePut (c : ℕ) (r' : TraceRec) : Reaches ps r (s.tracePut c r') := by
  unfold State.tracePut
  exact Reaches.ite (h.updCl clusters _ _) (Reaches.ite (h.updCl clusters _ _) (h.updCl clusters _ _))

theorem Reaches.traceRec (t : ℕ) (kind : ℕ) (detail : ℕ) (addr : W64) : Reaches ps r (s.traceRec t kind detail addr)
    := by
  unfold State.traceRec
  exact Reaches.ite (h.tracePut clusters _ _) h

theorem Reaches.updL2 (c : ℕ) (f : L2St → L2St) : Reaches ps r (s.updL2 c f) := by
  unfold State.updL2
  exact h.updCl clusters _ _

theorem Reaches.dropDelays (t : ℕ) : Reaches ps r (s.dropDelays t) := by
  unfold State.dropDelays
  exact h.updTask clusters _ _

theorem Reaches.l2Count (c : ℕ) (no : ℕ) : Reaches ps r (s.l2Count c no) := by
  unfold State.l2Count
  exact Reaches.ite (h.updL2 clusters _ _) (Reaches.ite h (h.updL2 clusters _ _))

theorem Reaches.clWrite (c : ℕ) (o : ℕ) (bs : List Byte) : Reaches ps r (s.clWrite c o bs) := by
  unfold State.clWrite
  exact h.updCl clusters _ _

theorem Reaches.detWatch (c : ℕ) : Reaches ps r (s.detWatch c) := by
  unfold State.detWatch
  exact h.updTask clusters _ _

theorem Reaches.l2Drop (c : ℕ) (no : ℕ) : Reaches ps r (s.l2Drop c no) := by
  unfold State.l2Drop
  split
  · exact h.updL2 clusters _ _
  · exact h

theorem Reaches.setChan (c : ℕ) (n : ℕ) (x : Chan) : Reaches ps r (s.setChan c n x) := by
  unfold State.setChan
  exact h.updCl clusters _ _

theorem Reaches.readMsg (t : ℕ) (n : ℕ) (k : ℕ) : Reaches ps r (s.readMsg t n k).1 := by
  unfold State.readMsg
  dsimp only
  split
  · exact h
  · dsimp only
    exact h.setChan clusters _ _ _

theorem Reaches.tickCluster (n : ℕ) (c : ℕ) : Reaches ps r (s.tickCluster n c) := by
  unfold State.tickCluster
  exact (h.updCl clusters _ _).detWatch clusters _

theorem Reaches.traceConfigBody (cl : ℕ) (mode : ℕ) (filter : W64) : Reaches ps r (traceConfigBody cl mode filter s).1
    := by
  unfold Machine.traceConfigBody
  split
  · exact h
  · dsimp only
    exact h.updCl clusters _ _

theorem Reaches.debugBreakBody (cl : ℕ) (slot : ℕ) (kind : ℕ) (addr : ℕ) : Reaches ps r
    (debugBreakBody cl slot kind addr s).1 := by
  unfold Machine.debugBreakBody
  split
  · exact h
  · dsimp only
    exact h.updCl clusters _ _

theorem Reaches.execClusterRetentionIdle (cluster : ℕ) : Completes ps r (execClusterRetentionIdle cluster s) := by
  unfold Machine.execClusterRetentionIdle
  exact Completes.ite h.completes ((h.updCl clusters _ _).completes)

theorem Reaches.taskConfigBody (cl : ℕ) (t0 : ℕ) (t1 : ℕ) (t2 : ℕ) (t3 : ℕ) (en : ℕ) (w : ℕ) : Reaches ps r
    (taskConfigBody cl t0 t1 t2 t3 en w s).1 := by
  unfold Machine.taskConfigBody
  split
  · exact h
  · dsimp only
    exact h.updTask clusters _ _

end

section
variable {ps : List Part} {r s : State} (h : Reaches ps r s) (cores : .cores ∈ ps)
include h cores

theorem Reaches.setCore (c : ℕ) (x : CoreSt) : Reaches ps r (s.setCore c x) := by
  unfold State.setCore
  exact h.with_cores cores _

theorem Reaches.updCore (c : ℕ) (f : CoreSt → CoreSt) : Reaches ps r (s.updCore c f) := by
  unfold State.updCore
  exact h.setCore cores _ _

theorem Reaches.tickCore (n : ℕ) (c : ℕ) : Reaches ps r (s.tickCore n c) := by
  unfold State.tickCore
  exact h.updCore cores _ _

theorem Reaches.zeroLine (t no : Nat) : Maybe ps r (s.zeroLine t no) := by
  unfold State.zeroLine
  dsimp only
  split
  · exact (h.setCore cores _ _).maybe
  · exact Maybe.map fun _ => h.setCore cores _ _

theorem Reaches.coreConfigBody (target : ℕ) (a : CoreConfigArgs) : Reaches ps r (coreConfigBody target a s).1 := by
  unfold Machine.coreConfigBody
  split
  · exact h
  · split
    · exact h
    · split
      · exact h
      · dsimp only
        exact Reaches.foldl h _ fun x _ => ((Reaches.refl ps x)).updCore cores _ _

theorem Reaches.execCoreGateIdle (core : ℕ) : Completes ps r (execCoreGateIdle core s) := by
  unfold Machine.execCoreGateIdle
  dsimp only
  exact Completes.ite h.completes ((h.updCore cores _ _).completes)

end

section
variable {ps : List Part} {r s : State} (h : Reaches ps r s) (dci : .dci ∈ ps)
include h dci

theorem Reaches.updDci (f : DciSt → DciSt) : Reaches ps r (s.updDci f) := by
  unfold State.updDci
  exact h.with_dci dci _

theorem Reaches.updJ (c : CmdRef) (f : JCmd → JCmd) : Reaches ps r (s.updJ c f) := by
  unfold State.updJ
  exact h.updDci dci _

theorem Reaches.setFn (f : HostFn) (x : FnSt) : Reaches ps r (s.setFn f x) := by
  unfold State.setFn
  split
  · exact h.with_dci dci _
  · exact h.with_dci dci _

theorem Reaches.updFn (f : HostFn) (g : FnSt → FnSt) : Reaches ps r (s.updFn f g) := by
  unfold State.updFn
  exact h.setFn dci _ _

theorem Reaches.renew : Reaches ps r s.renew := by
  unfold State.renew
  exact h.updDci dci _

theorem Reaches.trimJournal (f : HostFn) : Reaches ps r (s.trimJournal f) := by
  unfold State.trimJournal
  exact h.updDci dci _

theorem Reaches.updRx (f : HostFn) (r' : ℕ) (g : PuntRing → PuntRing) : Reaches ps r (s.updRx f r' g) := by
  unfold State.updRx
  exact h.updFn dci _ _

theorem Reaches.leaseFreeze : Reaches ps r s.leaseFreeze := by
  unfold State.leaseFreeze
  exact h.updDci dci _

theorem Reaches.updTx (f : HostFn) (r' : ℕ) (g : PuntRing → PuntRing) : Reaches ps r (s.updTx f r' g) := by
  unfold State.updTx
  exact h.updFn dci _ _

theorem Reaches.updPunt (f : HostFn) (tx : Bool) (r' : ℕ) (g : PuntRing → PuntRing) : Reaches ps r
    (s.updPunt f tx r' g) := by
  unfold State.updPunt
  exact Reaches.ite (h.updTx dci _ _ _) (h.updRx dci _ _ _)

theorem Reaches.puntSizeWrite (f : HostFn) (tx : Bool) (r' : ℕ) (v : W64) : Reaches ps r (s.puntSizeWrite f tx r' v)
    := by
  unfold State.puntSizeWrite
  exact Reaches.ite h (h.updPunt dci _ _ _ _)

theorem Reaches.puntOn (f : HostFn) (tx : Bool) (r' : ℕ) (v : W64) : Reaches ps r (s.puntOn f tx r' v) := by
  unfold State.puntOn
  exact h.updPunt dci _ _ _ _

theorem Reaches.intMapWrite (f : HostFn) (src : ℕ) (v : W64) : Reaches ps r (s.intMapWrite f src v) := by
  unfold State.intMapWrite
  exact Reaches.ite (h.updFn dci _ _) h

theorem Reaches.ringOff (f : HostFn) (ring : ℕ) : Reaches ps r (s.ringOff f ring) := by
  unfold State.ringOff
  exact h.updFn dci _ _

theorem Reaches.heartbeat (f : HostFn) (gen : W32) : Reaches ps r (s.heartbeat f gen) := by
  unfold State.heartbeat
  split
  · split
    · exact h.updDci dci _
    · exact h.renew dci
  · exact h.updDci dci _

theorem Reaches.bar2Write (f : HostFn) (off : ℕ) (v : W64) : Reaches ps r (s.bar2Write f off v) := by
  unfold State.bar2Write
  exact Reaches.ite h (Reaches.ite (h.updRx dci _ _ _) (h.updTx dci _ _ _))

theorem Reaches.rerunAll : Reaches ps r s.rerunAll := by
  unfold State.rerunAll
  exact h.updDci dci _

theorem Reaches.leaseThaw : Reaches ps r s.leaseThaw := by
  unfold State.leaseThaw
  exact h.updDci dci _

theorem Reaches.setStep (n : ℕ) : Reaches ps r (s.setStep n) := by
  unfold State.setStep
  exact h.updDci dci _

theorem Reaches.execHostLinkUp (fn : HostFn) : Completes ps r (execHostLinkUp fn s) := by
  unfold Machine.execHostLinkUp
  exact Completes.ite ((h.updFn dci _ _).completes) h.completes

theorem Reaches.execPuntTxDoorbell (fn : HostFn) (ring : ℕ) (tail : BitVec 16) : Completes ps r
    (execPuntTxDoorbell fn ring tail s) := by
  unfold Machine.execPuntTxDoorbell
  exact Completes.ite ((h.updTx dci _ _ _).completes) h.completes

theorem Reaches.execPuntRxPost (fn : HostFn) (ring : ℕ) (tail : BitVec 16) : Completes ps r
    (execPuntRxPost fn ring tail s) := by
  unfold Machine.execPuntRxPost
  exact Completes.ite ((h.updRx dci _ _ _).completes) h.completes

theorem Reaches.execPuntRingEnable (fn : HostFn) (tx : Bool) (ring : ℕ) (base : W64) : Completes ps r
    (execPuntRingEnable fn tx ring base s) := by
  unfold Machine.execPuntRingEnable
  exact Completes.ite ((h.puntOn dci _ _ _ _).completes) h.completes

theorem Reaches.execDciRingDisable (fn : HostFn) (ring : ℕ) : Completes ps r (execDciRingDisable fn ring s) := by
  unfold Machine.execDciRingDisable
  exact Completes.ite ((h.ringOff dci _ _).completes) h.completes

theorem Reaches.execLeaseHeartbeatWrite (fn : HostFn) (gen : W32) : Completes ps r (execLeaseHeartbeatWrite fn gen s)
    := by
  unfold Machine.execLeaseHeartbeatWrite
  exact Completes.ite ((h.heartbeat dci _ _).completes) h.completes

theorem Reaches.execRspHeadWrite (fn : HostFn) (head : Byte) : Completes ps r (execRspHeadWrite fn head s) := by
  unfold Machine.execRspHeadWrite
  exact Completes.ite ((h.updFn dci _ _).completes) h.completes

theorem Reaches.execCmdDoorbell (fn : HostFn) (tail : Byte) : Completes ps r (execCmdDoorbell fn tail s) := by
  unfold Machine.execCmdDoorbell
  exact Completes.ite ((h.updFn dci _ _).completes) h.completes

end

section
variable {ps : List Part} {r s : State} (h : Reaches ps r s) (egress : .egress ∈ ps)
include h egress

theorem Reaches.setEport (p : ℕ) (x : EPort) : Reaches ps r (s.setEport p x) := by
  unfold State.setEport
  exact h.with_egress egress _

theorem Reaches.updEport (p : ℕ) (f : EPort → EPort) : Reaches ps r (s.updEport p f) := by
  unfold State.updEport
  exact h.setEport egress _ _

theorem Reaches.setQueue (q : ℕ) (x : Queue) : Reaches ps r (s.setQueue q x) := by
  unfold State.setQueue
  exact h.with_egress egress _

theorem Reaches.updQueue (q : ℕ) (f : Queue → Queue) : Reaches ps r (s.updQueue q f) := by
  unfold State.updQueue
  exact h.setQueue egress _ _

theorem Reaches.updEgress (f : EgressSt → EgressSt) : Reaches ps r (s.updEgress f) := by
  unfold State.updEgress
  exact h.with_egress egress _

theorem Reaches.sump (code : ℕ) (sub : ℕ) (bytes : ℕ) : Reaches ps r (s.sump code sub bytes) := by
  unfold State.sump
  exact h.updEgress egress _

theorem Reaches.setPump (p : ℕ) (x : Pump) : Reaches ps r (s.setPump p x) := by
  unfold State.setPump
  exact h.with_egress egress _

theorem Reaches.updPump (p : ℕ) (f : Pump → Pump) : Reaches ps r (s.updPump p f) := by
  unfold State.updPump
  exact h.setPump egress _ _

theorem Reaches.toPump (c : Copy) : Reaches ps r (s.toPump c) := by
  unfold State.toPump
  exact h.updPump egress _ _

theorem Reaches.sumpAt (lport : ℕ) (code : ℕ) (bytes : ℕ) : Reaches ps r (s.sumpAt lport code bytes) := by
  unfold State.sumpAt
  exact Reaches.ite h (h.updEgress egress _)

theorem Reaches.pauseFor (p : ℕ) (prio : ℕ) (quanta : ℕ) : Reaches ps r (s.pauseFor p prio quanta) := by
  unfold State.pauseFor
  exact h.updEport egress _ _

theorem Reaches.pfcTake (p : ℕ) (bytes : List Byte) : Reaches ps r (s.pfcTake p bytes) := by
  unfold State.pfcTake
  exact Reaches.foldl h _ fun x _ => Reaches.ite (((Reaches.refl ps x)).pauseFor egress _ _ _) ((Reaches.refl ps x))

theorem Reaches.setGroup (g : ℕ) (x : QGroup) : Reaches ps r (s.setGroup g x) := by
  unfold State.setGroup
  exact h.with_egress egress _

theorem Reaches.updGroup (g : ℕ) (f : QGroup → QGroup) : Reaches ps r (s.updGroup g f) := by
  unfold State.updGroup
  exact h.setGroup egress _ _

theorem Reaches.chargeShapers (q : ℕ) (bytes : ℕ) : Reaches ps r (s.chargeShapers q bytes) := by
  unfold State.chargeShapers
  exact ((h.updQueue egress _ _).updGroup egress _ _).updEport egress _ _

theorem Reaches.clearDeficits (phys : ℕ) : Reaches ps r (s.clearDeficits phys) := by
  unfold State.clearDeficits
  exact Reaches.foldl h _ fun x _ => Reaches.foldl (Reaches.ite ((Reaches.refl ps x))
      (((Reaches.refl ps x)).updGroup egress _ _)) _ fun x _ => Reaches.ite ((Reaches.refl ps x))
      (((Reaches.refl ps x)).updQueue egress _ _)

theorem Reaches.ctCharge (q : ℕ) (wire : ℕ) : Reaches ps r (s.ctCharge q wire) := by
  unfold State.ctCharge
  exact Reaches.ite (h.updGroup egress _ _) ((h.updGroup egress _ _).updQueue egress _ _)

theorem Reaches.selectLoop (phys : Nat) (groups : List Nat) (fuel : Nat) :
    Reaches ps r (s.selectLoop phys groups fuel).1 := by
  induction fuel generalizing s groups with
  | zero => exact h
  | succ n ih =>
    cases groups with
    | nil => exact h
    | cons g rest =>
      unfold State.selectLoop
      dsimp only
      split
      · exact ih (h.updGroup egress _ _) _
      · rename_i c strict _
        generalize hx : (if strict = true then s.updGroup g _ else _) = x
        have spent : Reaches ps r x := hx ▸ .ite (h.updGroup egress _ _)
          (((h.updGroup egress _ _).updQueue egress _ _).updGroup egress _ _)
        split
        · dsimp only
          refine Reaches.updEport ?_ egress _ _
          exact .ite (spent.updGroup egress _ _) ((spent.updGroup egress _ _).updQueue egress _ _)
        · exact ih spent _

theorem Reaches.select (phys : ℕ) : Reaches ps r (s.select phys).1 := by
  unfold State.select
  dsimp only
  exact (h.clearDeficits egress _).selectLoop egress _ _ _

theorem Reaches.ctVisit (phys : ℕ) (c : Copy) : Reaches ps r (s.ctVisit phys c) := by
  unfold State.ctVisit
  exact (((h.updQueue egress _ _).select egress _).updGroup egress _ _).updQueue egress _ _

theorem Reaches.popHead (q : ℕ) : Reaches ps r (s.popHead q) := by
  unfold State.popHead
  exact h.updQueue egress _ _

theorem Reaches.egressPortBody (p : ℕ) (rate : ℕ) (burst : ℕ) (overhead : ℤ) (down : ℕ) (hold : ℕ)
    (pfc : BitVec 24) : Reaches ps r (egressPortBody p rate burst overhead down hold pfc s).1 := by
  unfold Machine.egressPortBody
  split
  · exact h
  · dsimp only
    exact h.setEport egress _ _

theorem Reaches.execShaperTokensReturn (port : ℕ) : Completes ps r (execShaperTokensReturn port s) := by
  unfold Machine.execShaperTokensReturn
  dsimp only
  exact (Reaches.foldl h _ fun x _ => Reaches.foldl ((((Reaches.refl ps x)).updEport egress _ _).updGroup
      egress _ _) _ fun x _ => ((Reaches.refl ps x)).updQueue egress _ _).completes

theorem Reaches.sumpConfigBody (code : ℕ) (rate : ℕ) (host : ℕ) (ring : ℕ) : Reaches ps r
    (sumpConfigBody code rate host ring s).1 := by
  unfold Machine.sumpConfigBody
  split
  · exact h
  · dsimp only
    exact h.updEgress egress _

theorem Reaches.queueFlushBody (c : CmdRef) (scope index : Nat) : Reaches ps r (queueFlushBody c scope index s).1
    := by
  unfold Machine.queueFlushBody
  generalize (if scope = 0 then [index] else groupQueues index) = qs
  dsimp only
  repeat' split
  · exact h
  · exact h
  · exact h
  · exact h.foldl _ fun x _ => (Reaches.refl ps x).updQueue egress _ _

theorem Reaches.mcMemberBody (mop : ℕ) (slot : BitVec 128) : Reaches ps r (mcMemberBody mop slot s).1 := by
  unfold Machine.mcMemberBody
  split
  · exact h
  · dsimp only
    exact h.updEgress egress _

theorem Reaches.mcGroupBody (g : ℕ) (members : List W32) : Reaches ps r (mcGroupBody g members s).1 := by
  unfold Machine.mcGroupBody
  split
  · exact h
  · split
    · exact h
    · dsimp only
      exact h.updEgress egress _

theorem Reaches.wredBody (n : ℕ) (w : Wred) (ecn : ℕ) : Reaches ps r (wredBody n w ecn s).1 := by
  unfold Machine.wredBody
  split
  · exact h
  · dsimp only
    exact h.updEgress egress _

theorem Reaches.queueConfigBody (q : ℕ) (qmax : ℕ) (weight : ℕ) (wred : ℕ) (rate : ℕ) (burst : ℕ) : Reaches ps r
    (queueConfigBody q qmax weight wred rate burst s).1 := by
  unfold Machine.queueConfigBody
  split
  · exact h
  · dsimp only
    exact h.setQueue egress _ _

theorem Reaches.queueGroupBody (g : ℕ) (port : ℕ) (weight : ℕ) (sp : Byte) (rate : ℕ) (burst : ℕ) : Reaches ps r
    (queueGroupBody g port weight sp rate burst s).1 := by
  unfold Machine.queueGroupBody
  split
  · exact h
  · split
    · exact h
    · dsimp only
      exact h.setGroup egress _ _

theorem Reaches.queueSpillBody (q : ℕ) (en : ℕ) (on : ℕ) (low : ℕ) : Reaches ps r (queueSpillBody q en on low s).1
    := by
  unfold Machine.queueSpillBody
  split
  · exact h
  · dsimp only
    exact h.updQueue egress _ _

theorem Reaches.execPumpResetDone (pump : ℕ) : Completes ps r (execPumpResetDone pump s) := by
  unfold Machine.execPumpResetDone
  exact Completes.ite ((h.updPump egress _ _).completes) h.completes

theorem Reaches.execSpillChoose (queue : ℕ) : Completes ps r (execSpillChoose queue s) := by
  unfold Machine.execSpillChoose
  dsimp only
  split
  · exact h.completes
  · exact Completes.ite h.completes (Completes.ite ((h.updPump egress _ _).completes)
        (Completes.ite ((h.updPump egress _ _).completes) (Completes.ite ((h.updPump egress _ _).completes)
        ((h.setQueue egress _ _).completes))))

theorem Reaches.execPauseExpiry (port : ℕ) (prio : ℕ) : Completes ps r (execPauseExpiry port prio s) := by
  unfold Machine.execPauseExpiry
  dsimp only
  exact Completes.ite ((h.updEport egress _ _).completes) h.completes

end

section
variable {ps : List Part} {r s : State} (h : Reaches ps r s) (faults : .faults ∈ ps)
include h faults

theorem Reaches.logEvent (code : Nat) (dt : W64) (body : List Byte) : Reaches ps r (s.logEvent code dt body) := by
  have bound := State.logEvent_length s code dt body
  unfold State.logEvent at bound ⊢
  split
  · exact h.with_faults faults _ (by simp_all)
  · exact h

theorem Reaches.errCnt (unit : ℕ) (f : ErrCnt → ErrCnt) : Reaches ps r (s.errCnt unit f) := by
  unfold State.errCnt
  exact h.with_faults faults _ (fun e => e)

theorem Reaches.bumpReset (kind : ℕ) (idx : ℕ) : Reaches ps r (s.bumpReset kind idx) := by
  unfold State.bumpReset
  exact h.with_faults faults _ (fun e => e)

theorem Reaches.updFaults (f : FaultSt → FaultSt)
    (log : s.faults.log.length ≤ 4096 → (f s.faults).log.length ≤ 4096) : Reaches ps r (s.updFaults f) :=
  Reaches.with_faults h faults _ log

theorem Reaches.unfence (kind : ℕ) (idx : ℕ) : Reaches ps r (s.unfence kind idx) := by
  unfold State.unfence
  exact h.with_faults faults _ (fun e => e)

theorem Reaches.fencePart (kind : ℕ) (idx : ℕ) : Reaches ps r (s.fencePart kind idx) := by
  unfold State.fencePart
  exact h.with_faults faults _ (fun e => e)

end

section
variable {ps : List Part} {r s : State} (h : Reaches ps r s) (free : .free ∈ ps)
include h free

theorem Reaches.draw : Reaches ps r s.draw.2 := by
  unfold State.draw
  dsimp only
  exact h.with_free free _

theorem Reaches.drawBytes (n : ℕ) : Reaches ps r (s.drawBytes n).2 := by
  unfold State.drawBytes
  dsimp only
  exact h.with_free free _

theorem Reaches.ppsOffset (t : ℕ) : Reaches ps r (s.ppsOffset t).1 := by
  unfold State.ppsOffset
  dsimp only
  split
  · exact h
  · split
    · exact h
    · dsimp only
      exact h.draw free

theorem Reaches.attestBody (nonce : List Byte) : Reaches ps r (attestBody nonce s).1 := by
  unfold Machine.attestBody
  split
  · exact h
  · dsimp only
    exact h.draw free

theorem Reaches.debugReadBody (t : ℕ) (space : ℕ) (addr : ℕ) (len : ℕ) : Reaches ps r
    (debugReadBody t space addr len s).1 := by
  unfold Machine.debugReadBody
  split
  · exact h
  · split
    · exact h
    · split
      · dsimp only
        exact h.with_free free _
      · exact h
      · exact h

end

section
variable {ps : List Part} {r s : State} (h : Reaches ps r s) (hbm : .hbm ∈ ps)
include h hbm

theorem Reaches.updHbm (f : HbmSt → HbmSt) : Reaches ps r (s.updHbm f) := by
  unfold State.updHbm
  exact h.with_hbm hbm _

theorem Reaches.updStack (k : ℕ) (f : StackSt → StackSt) : Reaches ps r (s.updStack k f) := by
  unfold State.updStack
  exact h.updHbm hbm _

theorem Reaches.updPc (p : ℕ) (f : PcSt → PcSt) : Reaches ps r (s.updPc p f) := by
  unfold State.updPc
  exact h.updHbm hbm _

theorem Reaches.stacks (m : StackMode) : Reaches ps r (s.stacks m) := by
  unfold State.stacks
  exact (h.updStack hbm _ _).updStack hbm _ _

theorem Reaches.hbmAnswer (port : ℕ) (addr : ℕ) (bytes : List Byte) (poison : Bool) : Reaches ps r
    (s.hbmAnswer port addr bytes poison) := by
  unfold State.hbmAnswer
  exact h.updHbm hbm _

theorem Reaches.hbmServed (pc : ℕ) (r' : HbmReq) (batch : Option ℕ) : Reaches ps r (s.hbmServed pc r' batch) := by
  unfold State.hbmServed
  exact (h.updPc hbm _ _).updHbm hbm _

theorem Reaches.hbmRepairBody (pc : ℕ) (sid : ℕ) (bank : ℕ) (kind : ℕ) (row : ℕ) (spare : Bool) : Reaches ps r
    (hbmRepairBody pc sid bank kind row spare s).1 := by
  unfold Machine.hbmRepairBody
  dsimp only
  split
  · exact h
  · split
    · split
      · exact h
      · split
        · exact h
        · dsimp only
          exact h.updHbm hbm _
    · split
      · exact h
      · split
        · exact h
        · dsimp only
          exact h.updHbm hbm _

theorem Reaches.hbmScrubBody (hours : ℕ) (wait : ℕ) : Reaches ps r (hbmScrubBody hours wait s).1 := by
  unfold Machine.hbmScrubBody
  split
  · exact h
  · dsimp only
    exact h.updHbm hbm _

theorem Reaches.hbmQosBody (port : ℕ) (priority : ℕ) (target : ℕ) (rowTimeout : ℕ) : Reaches ps r
    (hbmQosBody port priority target rowTimeout s).1 := by
  unfold Machine.hbmQosBody
  split
  · exact h
  · dsimp only
    exact h.updHbm hbm _

theorem Reaches.execTempRetrain (pc : ℕ) : Completes ps r (execTempRetrain pc s) := by
  unfold Machine.execTempRetrain
  dsimp only
  exact Completes.ite h.completes ((h.updPc hbm _ _).completes)

theorem Reaches.execTimingTrack (pc : ℕ) : Completes ps r (execTimingTrack pc s) := by
  unfold Machine.execTimingTrack
  exact Completes.ite h.completes ((h.updPc hbm _ _).completes)

theorem Reaches.execStackSelfRefresh (stack : ℕ) : Completes ps r (execStackSelfRefresh stack s) := by
  unfold Machine.execStackSelfRefresh
  dsimp only
  exact Completes.ite h.completes ((h.updStack hbm _ _).completes)

theorem Reaches.execPcPowerDown (pc : ℕ) : Completes ps r (execPcPowerDown pc s) := by
  unfold Machine.execPcPowerDown
  exact Completes.ite h.completes ((h.updPc hbm _ _).completes)

theorem Reaches.execRefreshDue (pc : ℕ) (bank : ℕ) (idle : Bool) : Completes ps r (execRefreshDue pc bank idle s)
    := by
  unfold Machine.execRefreshDue
  exact Completes.ite h.completes (Completes.ite ((h.updPc hbm _ _).completes)
      (Completes.ite ((h.updPc hbm _ _).completes) ((h.updPc hbm _ _).completes)))

theorem Reaches.execRowTimeout (pc : ℕ) (bank : ℕ) : Completes ps r (execRowTimeout pc bank s) := by
  unfold Machine.execRowTimeout
  dsimp only
  exact Completes.ite h.completes ((h.updPc hbm _ _).completes)

end

section
variable {ps : List Part} {r s : State} (h : Reaches ps r s) (keys : .keys ∈ ps)
include h keys

theorem Reaches.cryptoKeyBody (slot : ℕ) (alg : ℕ) (key : List Byte) : Reaches ps r (cryptoKeyBody slot alg key s).1
    := by
  unfold Machine.cryptoKeyBody
  split
  · exact h
  · dsimp only
    exact h.with_keys keys _

end

section
variable {ps : List Part} {r s : State} (h : Reaches ps r s) (ledger : .ledger ∈ ps)
include h ledger

theorem Reaches.updLedger (f : LedgerSt → LedgerSt) : Reaches ps r (s.updLedger f) := by
  unfold State.updLedger
  exact h.with_ledger ledger _

theorem Reaches.ledgerAdd (acct : ℕ) (ctr : ℕ) (v : W64) (t : ℕ) : Reaches ps r (s.ledgerAdd acct ctr v t) := by
  unfold State.ledgerAdd
  dsimp only
  split
  · exact h.updLedger ledger _
  · exact Reaches.ite (h.updLedger ledger _) (h.updLedger ledger _)
  · exact Reaches.ite (h.updLedger ledger _) (Reaches.ite (h.updLedger ledger _) (h.updLedger ledger _))
  · exact Reaches.ite (h.updLedger ledger _) (h.updLedger ledger _)

theorem Reaches.applyLedger (j : List JEntry) (len : ℕ) (dt : ℕ) : Reaches ps r (s.applyLedger j len dt) := by
  unfold State.applyLedger
  refine Reaches.foldl ?_ _ fun x a => ?_
  · exact h
  · split
    · exact ((Reaches.refl ps x)).ledgerAdd ledger _ _ _ _
    · exact (Reaches.refl ps x)

theorem Reaches.markHoldover : Reaches ps r s.markHoldover := by
  unfold State.markHoldover
  exact h.updLedger ledger _

theorem Reaches.openEpoch (t : ℕ) : Reaches ps r (s.openEpoch t) := by
  unfold State.openEpoch
  exact h.updLedger ledger _

theorem Reaches.setRec (e : LEpoch) : Reaches ps r (s.setRec e) := by
  unfold State.setRec
  exact h.updLedger ledger _

theorem Reaches.txLedger (n : TxNow) : Reaches ps r (s.txLedger n) := by
  unfold State.txLedger
  exact Reaches.foldl h _ fun x _ => ((Reaches.refl ps x)).ledgerAdd ledger _ _ _ _

theorem Reaches.ledgerFlushSetBody (f : HostFn) (addr : ℕ) : Reaches ps r (ledgerFlushSetBody f addr s).1 := by
  unfold Machine.ledgerFlushSetBody
  split
  · exact h
  · split
    · dsimp only
      exact h.updLedger ledger _
    · dsimp only
      exact h.updLedger ledger _

theorem Reaches.ledgerAckBody (epoch : ℕ) : Reaches ps r (ledgerAckBody epoch s).1 := by
  unfold Machine.ledgerAckBody
  split
  · split
    · exact h
    · split
      · dsimp only
        exact h.updLedger ledger _
      · split
        · dsimp only
          exact h.updLedger ledger _
        · exact h
  · split
    · dsimp only
      exact h.updLedger ledger _
    · exact h

theorem Reaches.ringStart (c : CmdRef) (slots : ℕ) (prev : Option LedgerPrev) : Reaches ps r
    (ringStart c slots prev s).1 := by
  unfold Machine.ringStart
  dsimp only
  split
  · exact h
  · split
    · exact h
    · split
      · split
        · dsimp only
          exact h.updLedger ledger _
        · exact h
      · dsimp only
        exact h.updLedger ledger _

theorem Reaches.ledgerInitBody (c : CmdRef) (slots : ℕ) (prev : Option LedgerPrev) : Reaches ps r
    (ledgerInitBody c slots prev s).1 := by
  unfold Machine.ledgerInitBody
  split
  · split
    · exact h
    · exact h
  · dsimp only
    split
    · split
      · exact h
      · split
        · exact h
        · split
          · exact h
          · exact h.ringStart ledger _ _ _
    · split
      · exact h
      · exact h.ringStart ledger _ _ _

theorem Reaches.execRecordDigestDone : Completes ps r (execRecordDigestDone s) := by
  unfold Machine.execRecordDigestDone
  split
  · split
    · exact Completes.ite h.completes ((h.setRec ledger _).completes)
    · exact h.completes
  · exact h.completes

theorem Reaches.execSealResidualsDone : Completes ps r (execSealResidualsDone s) := by
  unfold Machine.execSealResidualsDone
  split
  · exact h.completes
  · exact (h.setRec ledger _).completes

end

section
variable {ps : List Part} {r s : State} (h : Reaches ps r s) (locks : .locks ∈ ps)
include h locks

theorem Reaches.setLock (k : ℕ) (x : LockEnt) : Reaches ps r (s.setLock k x) := by
  unfold State.setLock
  exact h.with_locks locks _

theorem Reaches.lockAnswer (r' : Requester) (v : W64) : Reaches ps r (s.lockAnswer r' v) := by
  unfold State.lockAnswer
  exact h.with_locks locks _

theorem Reaches.lockLeave (r' : Requester) : Reaches ps r (s.lockLeave r') := by
  unfold State.lockLeave
  exact h.with_locks locks _

theorem Reaches.setLockGrp (g : ℕ) (x : LockGrp) : Reaches ps r (s.setLockGrp g x) := by
  unfold State.setLockGrp
  exact h.with_locks locks _

theorem Reaches.lockGrant (k : ℕ) (r' : Requester) : Reaches ps r (s.lockGrant k r') := by
  unfold State.lockGrant
  exact h.setLock locks _ _

theorem Reaches.lockAcquireNow (r' : Requester) (k : ℕ) (tryOnly : Bool) : Reaches ps r
    (s.lockAcquireNow r' k tryOnly).1 := by
  unfold State.lockAcquireNow
  dsimp only
  split
  · exact h
  · split
    · exact h
    · split
      · dsimp only
        exact h.lockGrant locks _ _
      · split
        · exact h
        · split
          · exact h
          · exact h

theorem Reaches.lockJoin (w : Requester) (gd : Reg) (net' : Bool) (k : ℕ) : Reaches ps r (s.lockJoin w gd net' k)
    := by
  unfold State.lockJoin
  exact h.setLock locks _ _

theorem Reaches.lockGroupBody (g : ℕ) (mask : ℕ) (timeout : ℕ) : Reaches ps r (lockGroupBody g mask timeout s).1 := by
  unfold Machine.lockGroupBody
  split
  · exact h
  · dsimp only
    exact h.setLockGrp locks _ _

end

section
variable {ps : List Part} {r s : State} (h : Reaches ps r s) (mem : .mem ∈ ps)
include h mem

theorem Reaches.updMem (f : HbmMem → HbmMem) (wf : s.mem.wf = true → (f s.mem).wf = true) :
    Reaches ps r (s.updMem f) :=
  Reaches.with_mem h mem _ wf

theorem Reaches.copyFw (i : FwImage) (place : Nat) : Reaches ps r (s.copyFw i place) :=
  h.updMem mem _ (HbmMem.wf_store _ _ _)

theorem Reaches.createBody (id order right size : Nat) : Reaches ps r (createBody id order right size s).1 := by
  unfold Machine.createBody
  dsimp only
  repeat' split
  · exact h
  · exact h
  · exact h
  · dsimp only
    exact h.updMem mem _ fun wf => wf

theorem Reaches.destroyBody (id : Nat) : Reaches ps r (destroyBody id s).1 := by
  unfold Machine.destroyBody
  repeat' split
  · exact h
  · exact h
  · dsimp only
    exact h.updMem mem _ (SMap.wf_filter 0 _ _)

end

section
variable {ps : List Part} {r s : State} (h : Reaches ps r s) (net : .net ∈ ps)
include h net

theorem Reaches.setPort (p : ℕ) (x : Port) : Reaches ps r (s.setPort p x) := by
  unfold State.setPort
  exact h.with_net net _

theorem Reaches.updPort (p : ℕ) (f : Port → Port) : Reaches ps r (s.updPort p f) := by
  unfold State.updPort
  exact h.setPort net _ _

theorem Reaches.bringUp (p : ℕ) : Reaches ps r (s.bringUp p) := by
  unfold State.bringUp
  exact Reaches.ite h (h.updPort net _ _)

theorem Reaches.updLink (p : ℕ) (f : LinkSt → LinkSt) : Reaches ps r (s.updLink p f) := by
  unfold State.updLink
  exact h.updPort net _ _

theorem Reaches.setWell (w : ℕ) (x : Well) : Reaches ps r (s.setWell w x) := by
  unfold State.setWell
  exact h.with_net net _

theorem Reaches.updWell (w : ℕ) (f : Well → Well) : Reaches ps r (s.updWell w f) := by
  unfold State.updWell
  exact h.setWell net _ _

theorem Reaches.countRefusal (port : ℕ) (code : ℕ) : Reaches ps r (s.countRefusal port code) := by
  unfold State.countRefusal
  exact h.updPort net _ _

theorem Reaches.macCnt (p : ℕ) (f : MacCnt → MacCnt) : Reaches ps r (s.macCnt p f) := by
  unfold State.macCnt
  exact h.updPort net _ _

theorem Reaches.stompCount (phys : ℕ) : Reaches ps r (s.stompCount phys) := by
  unfold State.stompCount
  exact h.updPort net _ _

theorem Reaches.intakeCnt (port : ℕ) (f : IntakeCnt → IntakeCnt) : Reaches ps r (s.intakeCnt port f) := by
  unfold State.intakeCnt
  exact h.updPort net _ _

theorem Reaches.learnQueue (k : Pkt) : Reaches ps r (s.learnQueue k) := by
  unfold State.learnQueue
  split
  · exact h
  · exact Reaches.ite (h.updWell net _ _) (h.intakeCnt net _ _)

theorem Reaches.updNet (f : NetSt → NetSt) : Reaches ps r (s.updNet f) := by
  unfold State.updNet
  exact h.with_net net _

theorem Reaches.updCage (k : ℕ) (f : Cage → Cage) : Reaches ps r (s.updCage k f) := by
  unfold State.updCage
  exact h.updNet net _

theorem Reaches.busSelect (k : ℕ) : Reaches ps r (s.busSelect k) := by
  unfold State.busSelect
  exact Reaches.foldl h _ fun x _ => Reaches.ite (((Reaches.refl ps x)).updCage net _ _) ((Reaches.refl ps x))

theorem Reaches.updBus (b : ℕ) (f : Bus → Bus) : Reaches ps r (s.updBus b f) := by
  unfold State.updBus
  exact h.updNet net _

theorem Reaches.busSpeed (b : ℕ) : Reaches ps r (s.busSpeed b) := by
  unfold State.busSpeed
  exact h.updBus net _ _

theorem Reaches.cageRelease (k : ℕ) : Reaches ps r (s.cageRelease k) := by
  unfold State.cageRelease
  exact (h.updCage net _ _).updBus net _ _

theorem Reaches.swap (port : ℕ) : Reaches ps r (s.swap port) := by
  unfold State.swap
  exact Reaches.ite (h.updPort net _ _) h

theorem Reaches.fecCount (port : ℕ) (fec : List ℕ) : Reaches ps r (s.fecCount port fec) := by
  unfold State.fecCount
  exact Reaches.ite h (h.updPort net _ _)

theorem Reaches.restartModules : Reaches ps r s.restartModules := by
  unfold State.restartModules
  refine Reaches.foldl ?_ _ fun x a => ?_
  · exact h
  · split
    · exact ((Reaches.refl ps x)).cageRelease net _
    · exact ((Reaches.refl ps x)).cageRelease net _
    · exact ((Reaches.refl ps x)).cageRelease net _
    · exact ((Reaches.refl ps x)).cageRelease net _
    · exact (Reaches.refl ps x)

theorem Reaches.ecidBody (index : ℕ) (e : W64) : Reaches ps r (ecidBody index e s).1 := by
  unfold Machine.ecidBody
  split
  · exact h
  · split
    · exact h
    · dsimp only
      exact h.updNet net _

theorem Reaches.indirectionBody (table : ℕ) (first : ℕ) (es : List W32) : Reaches ps r
    (indirectionBody table first es s).1 := by
  unfold Machine.indirectionBody
  split
  · exact h
  · dsimp only
    exact h.updNet net _

theorem Reaches.hashKeyBody (key : ℕ) (bytes : List Byte) : Reaches ps r (hashKeyBody key bytes s).1 := by
  unfold Machine.hashKeyBody
  split
  · exact h
  · dsimp only
    exact h.updNet net _

theorem Reaches.hashProfileBody (profile : ℕ) (x : HashProfile) : Reaches ps r (hashProfileBody profile x s).1 := by
  unfold Machine.hashProfileBody
  dsimp only
  split
  · exact h
  · dsimp only
    exact h.updNet net _

theorem Reaches.parseGraphCommitBody (c : CmdRef) (version : ℕ) : Reaches ps r (parseGraphCommitBody c version s).1
    := by
  unfold Machine.parseGraphCommitBody
  split
  · split
    · exact h
    · exact h
  · split
    · exact h
    · dsimp only
      exact Reaches.foldl (h.updNet net _) _ fun x _ => ((Reaches.refl ps x)).updWell net _ _

theorem Reaches.parseGraphLoadBody (recs : List GraphRec) : Reaches ps r (parseGraphLoadBody recs s).1 := by
  unfold Machine.parseGraphLoadBody
  split
  · exact h
  · split
    · exact h
    · dsimp only
      exact h.updNet net _

theorem Reaches.sluiceBody (well : ℕ) (mask : BitVec 16) (on : Bool) : Reaches ps r (sluiceBody well mask on s).1
    := by
  unfold Machine.sluiceBody
  split
  · exact h
  · dsimp only
    exact Reaches.foldl h _ fun x _ => ((Reaches.refl ps x)).updPort net _ _

theorem Reaches.moduleMapBody (k : ℕ) (bus : ℕ) (first : ℕ) (lanes : ℕ) (modsel : ℕ) : Reaches ps r
    (moduleMapBody k bus first lanes modsel s).1 := by
  unfold Machine.moduleMapBody
  split
  · exact h
  · dsimp only
    exact ((h.updCage net _ _).busSpeed net _).busSpeed net _

theorem Reaches.portDisableBody (c : CmdRef) (p : ℕ) : Reaches ps r (portDisableBody c p s).1 := by
  unfold Machine.portDisableBody
  dsimp only
  split
  · exact h
  · split
    · exact h
    · dsimp only
      exact h.updPort net _ _

theorem Reaches.portConfigBody (p : ℕ) (a : PortConfigArgs) : Reaches ps r (portConfigBody p a s).1 := by
  unfold Machine.portConfigBody
  split
  · exact h
  · split
    · exact h
    · dsimp only
      exact h.updPort net _ _

theorem Reaches.execModuleLowpwrPoll (slot : ℕ) (low : Bool) : Completes ps r (execModuleLowpwrPoll slot low s) := by
  unfold Machine.execModuleLowpwrPoll
  exact Completes.ite h.completes (((h.busSelect net _).updCage net _ _).completes)

theorem Reaches.execModuleScan (inputs : BitVec 256) : Completes ps r (execModuleScan inputs s) := by
  unfold Machine.execModuleScan
  split
  · exact h.completes
  · dsimp only
    refine Reaches.completes ?_
    refine Reaches.updNet ?_ net _
    split
    · exact Reaches.foldl h _ fun x _ => ((Reaches.refl ps x)).updCage net _ _
    · exact h

theorem Reaches.execTrainingRetry (port : ℕ) : Completes ps r (execTrainingRetry port s) := by
  unfold Machine.execTrainingRetry
  split
  · dsimp only
    exact Completes.ite h.completes ((h.updPort net _ _).completes)
  · exact h.completes

theorem Reaches.execTrainingDone (port : ℕ) : Completes ps r (execTrainingDone port s) := by
  unfold Machine.execTrainingDone
  dsimp only
  exact Completes.ite h.completes ((h.updPort net _ _).completes)

theorem Reaches.execLinkReturn (port : ℕ) : Completes ps r (execLinkReturn port s) := by
  unfold Machine.execLinkReturn
  dsimp only
  exact Completes.ite h.completes ((h.updLink net _ _).completes)

theorem Reaches.execLaneRecalDone (well : ℕ) : Completes ps r (execLaneRecalDone well s) := by
  unfold Machine.execLaneRecalDone
  exact Completes.ite h.completes ((Reaches.foldl (h.updWell net _ _) _ fun x _ => Reaches.ite
      (((Reaches.refl ps x)).bringUp net _) ((Reaches.refl ps x))).completes)

theorem Reaches.execParserResetDone (well : ℕ) : Completes ps r (execParserResetDone well s) := by
  unfold Machine.execParserResetDone
  exact Completes.ite ((h.updWell net _ _).completes) h.completes

theorem Reaches.execFragEntryExpiry (well : ℕ) (entry : ℕ) : Completes ps r (execFragEntryExpiry well entry s) := by
  unfold Machine.execFragEntryExpiry
  split
  · exact Completes.ite h.completes ((h.updWell net _ _).completes)
  · exact h.completes

theorem Reaches.execFifoBankSwap (port : ℕ) : Completes ps r (execFifoBankSwap port s) := by
  unfold Machine.execFifoBankSwap
  exact Completes.ite h.completes ((h.swap net _).completes)

end

section
variable {ps : List Part} {r s : State} (h : Reaches ps r s) (order : .order ∈ ps)
include h order

theorem Reaches.setPkt (p : ℕ) (x : Pkt) : Reaches ps r (s.setPkt p x) := by
  unfold State.setPkt
  exact h.with_order order _

theorem Reaches.updPkt (p : ℕ) (f : Pkt → Pkt) : Reaches ps r (s.updPkt p f) := by
  unfold State.updPkt
  exact h.setPkt order _ _

theorem Reaches.setRc (p : ℕ) (x : RunRec) : Reaches ps r (s.setRc p x) := by
  unfold State.setRc
  exact h.with_order order _

theorem Reaches.outcome (p : ℕ) (code : ℕ) : Reaches ps r (s.outcome p code) := by
  unfold State.outcome
  exact h.setRc order _ _

theorem Reaches.copyOutcome (c : Copy) (code : ℕ) : Reaches ps r (s.copyOutcome c code) := by
  unfold State.copyOutcome
  exact Reaches.ite h (h.outcome order _ _)

theorem Reaches.updRc (p : ℕ) (f : RunRec → RunRec) : Reaches ps r (s.updRc p f) := by
  unfold State.updRc
  exact h.setRc order _ _

theorem Reaches.updOrder (f : OrderSt → OrderSt) : Reaches ps r (s.updOrder f) := by
  unfold State.updOrder
  exact h.with_order order _

theorem Reaches.marked (unit : ℕ) (domain : ℕ) (seq : W32) : Reaches ps r (s.marked unit domain seq) := by
  unfold State.marked
  exact h.updOrder order _

theorem Reaches.atUnit (unit : Nat) (w : WalRec) (f : State → State) (k : ∀ x, Reaches ps x (f x)) :
    Reaches ps r (s.atUnit unit w f) := by
  unfold State.atUnit
  split
  · exact (h.trans (k s)).marked order _ _ _
  · exact h

theorem Reaches.setDom (d : ℕ) (x : Dom) : Reaches ps r (s.setDom d x) := by
  unfold State.setDom
  exact h.with_order order _

theorem Reaches.updDom (d : ℕ) (f : Dom → Dom) : Reaches ps r (s.updDom d f) := by
  unfold State.updDom
  exact h.setDom order _ _

theorem Reaches.assignSeq (p : ℕ) (d : ℕ) : Reaches ps r (s.assignSeq p d) := by
  unfold State.assignSeq
  exact ((h.updDom order _ _).updOrder order _).updPkt order _ _

theorem Reaches.listDrop (p : ℕ) : Reaches ps r (s.listDrop p) := by
  unfold State.listDrop
  exact h.updOrder order _

theorem Reaches.endRefused (p : ℕ) : Reaches ps r (s.endRefused p) := by
  unfold State.endRefused
  exact h.updPkt order _ _

theorem Reaches.disarm : Reaches ps r s.disarm := by
  unfold State.disarm
  exact h.updOrder order _

theorem Reaches.updCnt (f : OrderCnt → OrderCnt) : Reaches ps r (s.updCnt f) := by
  unfold State.updCnt
  exact h.updOrder order _

theorem Reaches.listPut (p : ℕ) : Reaches ps r (s.listPut p) := by
  unfold State.listPut
  exact ((h.updPkt order _ _).updRc order _ _).updOrder order _

theorem Reaches.newFrame (port : ℕ) (well : ℕ) (host : Option HostFn) : Reaches ps r (s.newFrame port well host).1
    := by
  unfold State.newFrame
  dsimp only
  exact (h.updOrder order _).setPkt order _ _

theorem Reaches.storePut (p : ℕ) (t : Option ℕ) (run : RunSt) (reason : ℕ) (forced : Option ℕ) : Reaches ps r
    (s.storePut p t run reason forced) := by
  unfold State.storePut
  split
  · exact (h.updPkt order _ _).updOrder order _
  · exact (h.updPkt order _ _).updOrder order _

theorem Reaches.versionFenceBody (version : Nat) (all cancel : Bool) (first count : Nat) :
    Reaches ps r (versionFenceBody version all cancel first count s).1 := by
  unfold Machine.versionFenceBody
  generalize (if all then 0 else first) = f
  generalize (if all then 65536 else count) = n
  dsimp only
  split
  · exact h.disarm order
  · split
    · exact h
    · split
      · split <;> exact h
      · dsimp only
        exact h.updOrder order _

theorem Reaches.orderConfigBody (affinityWait : ℕ) (excHost : ℕ) (excRing : ℕ) (fenceDrain : ℕ)
    (stallTime : ℕ) : Reaches ps r (orderConfigBody affinityWait excHost excRing fenceDrain stallTime s).1 := by
  unfold Machine.orderConfigBody
  split
  · exact h
  · dsimp only
    exact h.updOrder order _

theorem Reaches.execLogRecordAck (lane : ℕ) : Completes ps r (execLogRecordAck lane s) := by
  unfold Machine.execLogRecordAck
  split
  · exact h.completes
  · dsimp only
    exact Completes.ite h.completes ((h.updOrder order _).completes)

end

section
variable {ps : List Part} {r s : State} (h : Reaches ps r s) (out : .out ∈ ps)
include h out

theorem Reaches.hostWrite (f : HostFn) (a : ℕ) (bs : List Byte) : Reaches ps r (s.hostWrite f a bs) := by
  unfold State.hostWrite
  exact h.with_out out _

theorem Reaches.sendFc (port : ℕ) (cls : ℕ) (quanta : ℕ) : Reaches ps r (s.sendFc port cls quanta) := by
  unfold State.sendFc
  exact h.with_out out _

theorem Reaches.pushRecords (f : HostFn) (a : Nat) (es : List Nat) : Reaches ps r (s.pushRecords f a es) := by
  refine Reaches.hostWrite (Reaches.foldl h _ fun x k => ?_) out _ _ _
  split
  · exact (Reaches.refl ps x).hostWrite out _ _ _
  · exact .refl ps x

end

section
variable {ps : List Part} {r s : State} (h : Reaches ps r s) (power : .power ∈ ps)
include h power

theorem Reaches.updPower (f : PowerSt → PowerSt) : Reaches ps r (s.updPower f) := by
  unfold State.updPower
  exact h.with_power power _

theorem Reaches.countWake (k : ℕ) : Reaches ps r (s.countWake k) := by
  unfold State.countWake
  exact h.updPower power _

theorem Reaches.tickThrottle (n : ℕ) : Reaches ps r (s.tickThrottle n) := by
  unfold State.tickThrottle
  exact h.updPower power _

theorem Reaches.execPwrfailRise : Completes ps r (execPwrfailRise s) := by
  unfold Machine.execPwrfailRise
  exact (h.updPower power _).completes

end

section
variable {ps : List Part} {r s : State} (h : Reaches ps r s) (scratch : .scratch ∈ ps)
include h scratch

theorem Reaches.setScr (t : ℕ) (x : ScratchSt) : Reaches ps r (s.setScr t x) := by
  unfold State.setScr
  exact h.with_scratch scratch _

theorem Reaches.scratchWrite (t : ℕ) (a : ℕ) (bs : List Byte) : Reaches ps r (s.scratchWrite t a bs) := by
  unfold State.scratchWrite
  exact h.setScr scratch _ _

end

section
variable {ps : List Part} {r s : State} (h : Reaches ps r s) (tables : .tables ∈ ps)
include h tables

theorem Reaches.dropVers (p : ℕ) : Reaches ps r (s.dropVers p) := by
  unfold State.dropVers
  exact h.with_tables tables _

theorem Reaches.updTables (f : TableSt → TableSt) : Reaches ps r (s.updTables f) := by
  unfold State.updTables
  exact h.with_tables tables _

theorem Reaches.ctxCommit (ctx : ℕ) (q : ℕ) (bs : List Byte) : Reaches ps r (s.ctxCommit ctx q bs) := by
  unfold State.ctxCommit
  exact h.updTables tables _

theorem Reaches.applyContexts (p : ℕ) (j : List JEntry) : Reaches ps r (s.applyContexts p j) := by
  unfold State.applyContexts
  dsimp only
  refine Reaches.dropVers ?_ tables _
  refine Reaches.foldl ?_ _ fun x a => ?_
  · exact h
  · split
    · refine Reaches.foldl ?_ _ fun x a => ?_
      · exact (Reaches.refl ps x)
      · split
        · split
          · exact ((Reaches.refl ps x)).ctxCommit tables _ _ _
          · exact (Reaches.refl ps x)
        · exact (Reaches.refl ps x)
    · exact (Reaches.refl ps x)

theorem Reaches.count (k : ℕ) (pkts : ℕ) (bytes : W64) : Reaches ps r (s.count k pkts bytes) := by
  unfold State.count
  exact h.updTables tables _

theorem Reaches.applyCounts (j : List JEntry) (len : ℕ) : Reaches ps r (s.applyCounts j len) := by
  unfold State.applyCounts
  refine Reaches.foldl ?_ _ fun x a => ?_
  · exact h
  · split
    · exact ((Reaches.refl ps x)).count tables _ _ _
    · exact (Reaches.refl ps x)

theorem Reaches.updWeirCnt (f : WeirCnt → WeirCnt) : Reaches ps r (s.updWeirCnt f) := by
  unfold State.updWeirCnt
  exact h.with_tables tables _

theorem Reaches.finalize (p : ℕ) : Reaches ps r (s.finalize p) := by
  unfold State.finalize
  exact (h.with_tables tables _).updWeirCnt tables _

theorem Reaches.dpTouch (tbl : ℕ) (index : ℕ) : Reaches ps r (s.dpTouch tbl index) := by
  unfold State.dpTouch
  exact h.updTables tables _

theorem Reaches.setWeir (w : ℕ) (x : Weir) : Reaches ps r (s.setWeir w x) := by
  unfold State.setWeir
  exact h.with_tables tables _

theorem Reaches.ctxWrite (ctx : ℕ) (q : ℕ) (bs : List Byte) : Reaches ps r (s.ctxWrite ctx q bs) := by
  unfold State.ctxWrite
  exact h.updTables tables _

theorem Reaches.setEmt (k : ℕ) (x : Option EmTbl) : Reaches ps r (s.setEmt k x) := by
  unfold State.setEmt
  exact h.updTables tables _

theorem Reaches.setL2t (w : ℕ) (x : L2Tbl) : Reaches ps r (s.setL2t w x) := by
  unfold State.setL2t
  exact h.updTables tables _

theorem Reaches.l2AllOp (op : Nat) (key data : List W64) : Reaches ps r (s.l2AllOp op key data).1 := by
  refine h.foldl_fst _ _ fun x _ => ?_
  dsimp only
  exact (Reaches.refl ps x.1).setL2t tables _ _

theorem Reaches.ovEnter (tbl : ℕ) (op : ℕ) (index : ℕ) (keys' : List W64) (data : List W64)
    (who : Option Requester) : Reaches ps r (s.ovEnter tbl op index keys' data who) := by
  unfold State.ovEnter
  exact h.updTables tables _

theorem Reaches.jtblFailed (tbl : ℕ) (code : ℕ) : Reaches ps r (s.jtblFailed tbl code) := by
  unfold State.jtblFailed
  exact h.updTables tables _

theorem Reaches.updL2t (w : ℕ) (f : L2Tbl → L2Tbl) : Reaches ps r (s.updL2t w f) := by
  unfold State.updL2t
  exact h.setL2t tables _ _

theorem Reaches.l2Remove (w : ℕ) (p : L2Ent → Bool) : Reaches ps r (s.l2Remove w p) := by
  unfold State.l2Remove
  exact Reaches.foldl h _ fun x _ => ((Reaches.refl ps x)).updL2t tables _ _

theorem Reaches.l2FlushPort (names : ℕ → Bool) : Reaches ps r (s.l2FlushPort names) := by
  unfold State.l2FlushPort
  exact Reaches.foldl h _ fun x _ => ((Reaches.refl ps x)).l2Remove tables _ _

theorem Reaches.refund1 (d : Debit) : Reaches ps r (s.refund1 d) := by
  unfold State.refund1
  exact (h.setWeir tables _ _).updWeirCnt tables _

theorem Reaches.refund (p : ℕ) : Reaches ps r (s.refund p) := by
  unfold State.refund
  exact Reaches.foldl (h.with_tables tables _) _ fun x _ => ((Reaches.refl ps x)).refund1 tables _

theorem Reaches.setTset (r' : Requester) (x : TblSet) : Reaches ps r (s.setTset r' x) := by
  unfold State.setTset
  exact h.updTables tables _

theorem Reaches.tblEnter (r' : Requester) (run : TblRun) : Reaches ps r (s.tblEnter r' run) := by
  unfold State.tblEnter
  exact Reaches.ite h ((h.ovEnter tables _ _ _ _ _ _).setTset tables _ _)

theorem Reaches.ctxFetch (ctx : ℕ) : Reaches ps r (s.ctxFetch ctx) := by
  unfold State.ctxFetch
  exact h.updTables tables _

theorem Reaches.heed (v : ℕ) (n : Learn) : Reaches ps r (s.heed v n) := by
  unfold State.heed
  dsimp only
  split
  · split
    · exact (h.setL2t tables _ _).dpTouch tables _ _
    · exact h.updL2t tables _ _
  · split
    · exact h
    · exact Reaches.ite h ((h.setL2t tables _ _).dpTouch tables _ _)

theorem Reaches.tblFinish (r' : Requester) (res : TblRes) : Reaches ps r (s.tblFinish r' res) := by
  unfold State.tblFinish
  dsimp only
  split
  · exact h
  · exact h.setTset tables _ _

theorem Reaches.tblSeen (c : CmdRef) : Reaches ps r (s.tblSeen c) := by
  unfold State.tblSeen
  exact h.updTables tables _

theorem Reaches.emTableBody (c : CmdRef) (t : ℕ) (log2 : ℕ) (klen : ℕ) (cache : ℕ) (destroy : ℕ)
    (seed : W32) : Reaches ps r (emTableBody c t log2 klen cache destroy seed s).1 := by
  unfold Machine.emTableBody
  split
  · exact h
  · split
    · dsimp only
      exact (h.setEmt tables _ _).tblSeen tables _
    · split
      · exact h
      · split
        · exact h
        · split
          · exact h
          · split
            · exact h
            · dsimp only
              exact (h.setEmt tables _ _).tblSeen tables _

theorem Reaches.tableScrubBody (f : HostFn) (table : ℕ) (enable : ℕ) (period : ℕ) (ring : ℕ) (entries : ℕ) : Reaches
    ps r (tableScrubBody f table enable period ring entries s).1 := by
  unfold Machine.tableScrubBody
  split
  · exact h
  · dsimp only
    split
    · exact h
    · dsimp only
      exact h.updTables tables _

theorem Reaches.l2FlushBody (c : CmdRef) (scope : ℕ) (value : ℕ) : Reaches ps r (l2FlushBody c scope value s).1 := by
  unfold Machine.l2FlushBody
  split
  · exact h
  · dsimp only
    exact (Reaches.foldl h _ fun x _ => ((Reaches.refl ps x)).l2Remove tables _ _).tblSeen tables _

theorem Reaches.execLpmRebuildDone (vrf : ℕ) (family : ℕ) : Completes ps r (execLpmRebuildDone vrf family s) := by
  unfold Machine.execLpmRebuildDone
  exact (h.updTables tables _).completes

theorem Reaches.execEmOverlayRetire : Completes ps r (execEmOverlayRetire s) := by
  unfold Machine.execEmOverlayRetire
  split
  · exact (h.updTables tables _).completes
  · exact h.completes

end

section
variable {ps : List Part} {r s : State} (h : Reaches ps r s) (thrs : .thrs ∈ ps)
include h thrs

theorem Reaches.setThr (t : ℕ) (x : Thr) : Reaches ps r (s.setThr t x) := by
  unfold State.setThr
  exact h.with_thrs thrs _

theorem Reaches.updThr (t : ℕ) (f : Thr → Thr) : Reaches ps r (s.updThr t f) := by
  unfold State.updThr
  exact h.setThr thrs _ _

theorem Reaches.setReg (t : ℕ) (r' : Reg) (v : W64) : Reaches ps r (s.setReg t r' v) := by
  unfold State.setReg
  exact h.updThr thrs _ _

theorem Reaches.advance (t : ℕ) : Reaches ps r (s.advance t) := by
  unfold State.advance
  exact h.updThr thrs _ _

theorem Reaches.result (t : ℕ) (gd : Reg) (v : W64) : Reaches ps r (s.result t gd v) := by
  unfold State.result
  exact (h.setReg thrs _ _ _).advance thrs _

theorem Reaches.bump (t : ℕ) (r' : Reg) (v : W64) : Reaches ps r (s.bump t r' v) := by
  unfold State.bump
  exact h.setReg thrs _ _ _

theorem Reaches.clearFlags (t : ℕ) (mask : W32) : Reaches ps r (s.clearFlags t mask) := by
  unfold State.clearFlags
  exact h.updThr thrs _ _

theorem Reaches.debugSetReg (t : ℕ) (n : ℕ) (v : W64) : (s.debugSetReg t n v).reaches ps r := by
  unfold State.debugSetReg
  split
  · exact trivial
  · split
    · exact h.updThr thrs _ _
    · split
      · exact h.updThr thrs _ _
      · split
        · exact h.updThr thrs _ _
        · split
          · exact h.updThr thrs _ _
          · exact trivial

theorem Reaches.elements (t : Nat) (o : RepOp) (n : Nat) : Reaches ps r (s.elements t o n) := by
  induction n generalizing s with
  | zero => exact h
  | succ n ih => exact ih (h.setReg thrs _ _ _)

theorem Reaches.setFlags (t : ℕ) (f : W32) : Reaches ps r (s.setFlags t f) := by
  unfold State.setFlags
  exact h.updThr thrs _ _

theorem Reaches.setPair (t : ℕ) (b : Reg) (v : BitVec 128) : Reaches ps r (s.setPair t b v) := by
  unfold State.setPair
  exact (h.setReg thrs _ _ _).setReg thrs _ _ _

end

section
variable {ps : List Part} {r s : State} (h : Reaches ps r s) (time : .time ∈ ps)
include h time

theorem Reaches.updTime (f : TimeSt → TimeSt) : Reaches ps r (s.updTime f) := by
  unfold State.updTime
  exact h.with_time time _

theorem Reaches.baseBack : Reaches ps r s.baseBack := by
  unfold State.baseBack
  exact Reaches.ite h (h.updTime time _)

theorem Reaches.dtNow (r' : Requester) : Reaches ps r (s.dtNow r').1 := by
  unfold State.dtNow
  dsimp only
  exact h.with_time time _

theorem Reaches.timeReg (q : Requester) (off : Nat) : ∀ x ∈ s.timeReg q off, Reaches ps r x.1 := by
  intro x hx
  unfold State.timeReg at hx
  repeat' split at hx
  all_goals cases hx
  · exact h.dtNow time _
  all_goals exact h

theorem Reaches.ppsOutConfigBody (comp : ℤ) (high : ℕ) (free' : ℕ) : Reaches ps r
    (ppsOutConfigBody comp high free' s).1 := by
  unfold Machine.ppsOutConfigBody
  split
  · exact h
  · dsimp only
    exact h.updTime time _

theorem Reaches.timeStatusBody : Reaches ps r (timeStatusBody s).1 := by
  unfold Machine.timeStatusBody
  dsimp only
  exact h.dtNow time _

theorem Reaches.execTimebaseSwitchback : Completes ps r (execTimebaseSwitchback s) := by
  unfold Machine.execTimebaseSwitchback
  split
  · exact Completes.ite ((h.updTime time _).completes) h.completes
  · exact h.completes

theorem Reaches.execPpsOutFall : Completes ps r (execPpsOutFall s) := by
  unfold Machine.execPpsOutFall
  dsimp only
  exact Completes.ite ((h.updTime time _).completes) h.completes

theorem Reaches.execPpsOutRise : Completes ps r (execPpsOutRise s) := by
  unfold Machine.execPpsOutRise
  dsimp only
  exact Completes.ite h.completes ((h.updTime time _).completes)

theorem Reaches.execTrefLoss : Completes ps r (execTrefLoss s) := by
  unfold Machine.execTrefLoss
  exact (h.updTime time _).completes

theorem Reaches.execTrefQualified (ppt : ℤ) : Completes ps r (execTrefQualified ppt s) := by
  unfold Machine.execTrefQualified
  exact Completes.ite h.completes ((Reaches.ite ((h.updTime time _).updTime time _) (h.updTime time _)).completes)

theorem Reaches.execDtNowRead (r' : Requester) : Completes ps r (execDtNowRead r' s) := by
  unfold Machine.execDtNowRead
  exact (h.dtNow time _).completes

end

section
variable {ps : List Part} {r s : State} (h : Reaches ps r s) (truns : .truns ∈ ps)
include h truns

theorem Reaches.setTr (t : ℕ) (x : ThrRun) : Reaches ps r (s.setTr t x) := by
  unfold State.setTr
  exact h.with_truns truns _

theorem Reaches.updTr (t : ℕ) (f : ThrRun → ThrRun) : Reaches ps r (s.updTr t f) := by
  unfold State.updTr
  exact h.setTr truns _ _

theorem Reaches.updRun (t : ℕ) (f : RunSt → RunSt) : Reaches ps r (s.updRun t f) := by
  unfold State.updRun
  exact h.updTr truns _ _

theorem Reaches.unstall (core : ℕ) : Reaches ps r (s.unstall core) := by
  unfold State.unstall
  exact Reaches.foldl h _ fun x _ => Reaches.ite (((Reaches.refl ps x)).updTr truns _ _) ((Reaches.refl ps x))

theorem Reaches.enterSection (t : ℕ) (n : ℕ) : Reaches ps r (s.enterSection t n) := by
  unfold State.enterSection
  exact h.updRun truns _ _

theorem Reaches.strNext (t : ℕ) (d : Option Bool) : Reaches ps r (s.strNext t d) := by
  unfold State.strNext
  exact h.updTr truns _ _

theorem Reaches.tickThr (t : ℕ) (n : ℕ) : Reaches ps r (s.tickThr t n) := by
  unfold State.tickThr
  exact Reaches.ite (h.updTr truns _ _) h

end

section
variable {ps : List Part} {r s : State} (h : Reaches ps r s) (trust : .trust ∈ ps)
include h trust

theorem Reaches.updTrust (f : TrustSt → TrustSt)
    (otp : ∀ id, bitsKept (SMap.get 0 s.trust.otp id) (SMap.get 0 (f s.trust).otp id)) :
    Reaches ps r (s.updTrust f) :=
  Reaches.with_trust h trust _ otp

theorem Reaches.bootWrite (f : HostFn) (off : Nat) (v : W64) : Reaches ps r (s.bootWrite f off v) := by
  have keep (b : BootSt) : Reaches ps r { s with trust := { s.trust with boot := b } } :=
    h.with_trust trust _ fun _ => bitsKept_refl _
  unfold State.bootWrite
  dsimp only
  exact .ite h (.ite (keep _) (keep _))

theorem Reaches.logMeas (type : ℕ) (index : ℕ) (digest : List Byte) : Reaches ps r (s.logMeas type index digest) := by
  unfold State.logMeas
  exact h.updTrust trust _ (fun _ => bitsKept_refl _)

theorem Reaches.raiseSvn (id n : Nat) : Reaches ps r (s.raiseSvn id n) := by
  unfold State.raiseSvn
  dsimp only
  exact .ite h ((h.updTrust trust _ (bitsKept_set _ _ (bitsKept_raiseBits _ _ _))).logMeas trust _ _ _)

theorem Reaches.setSlot (n : Nat) (x : FlashSlot) : Reaches ps r (s.setSlot n x) :=
  h.updTrust trust _ fun id => by split <;> exact bitsKept_refl _

theorem Reaches.confirmFw : Reaches ps r s.confirmFw := by
  unfold State.confirmFw
  split
  · exact h
  · exact Reaches.ite h (Reaches.ite ((h.setSlot trust _ _).raiseSvn trust _ _) (h.setSlot trust _ _))

theorem Reaches.tried (n : ℕ) : Reaches ps r (s.tried n) := by
  unfold State.tried
  exact Reaches.ite h (h.setSlot trust _ _)

theorem Reaches.updJtag (f : JtagSt → JtagSt) : Reaches ps r (s.updJtag f) := by
  unfold State.updJtag
  exact h.updTrust trust _ (fun _ => bitsKept_refl _)

theorem Reaches.jtagAnswer (e : List Byte) (a : Ans) : Reaches ps r (s.jtagAnswer e a) := by
  unfold State.jtagAnswer
  dsimp only
  split
  · exact Reaches.ite (h.updJtag trust _) (h.updJtag trust _)
  · exact h

theorem Reaches.loadIr (ir : ℕ) (dr : ℕ) : Reaches ps r (s.loadIr ir dr) := by
  unfold State.loadIr
  exact h.updJtag trust _

theorem Reaches.otpWrite (id c v : Nat) : Reaches ps r (s.otpWrite id c v) := by
  unfold State.otpWrite
  dsimp only
  exact .ite h (h.updTrust trust _ (bitsKept_set _ _ (bitsKept_or _ _)))

theorem Reaches.debugUnlockBody (by_ : Option CmdRef) (nonce sig : List Byte) :
    Reaches ps r (debugUnlockBody by_ nonce sig s).1 := by
  have used : Reaches ps r (s.updTrust fun t => { t with nonce := none }) :=
    h.updTrust trust _ fun _ => bitsKept_refl _
  unfold Machine.debugUnlockBody
  extract_lets t key fresh s1
  repeat' split
  · exact h
  · exact h
  · exact (used.updTrust trust _ fun _ => bitsKept_refl _).logMeas trust _ _ _
  · exact used

theorem Reaches.deviceResetBody (kind : ℕ) : Reaches ps r (deviceResetBody kind s).1 := by
  unfold Machine.deviceResetBody
  split
  · exact h
  · dsimp only
    exact h.updTrust trust _ (fun _ => bitsKept_refl _)

theorem Reaches.execBrownOutRecovery : Completes ps r (execBrownOutRecovery s) := by
  unfold Machine.execBrownOutRecovery
  exact (h.updTrust trust _ (fun _ => bitsKept_refl _)).completes

theorem Reaches.execTapReset : Completes ps r (execTapReset s) := by
  unfold Machine.execTapReset
  exact (h.loadIr trust _ _).completes

theorem Reaches.execOtpProg (dr : BitVec 2064) : Completes ps r (execOtpProg dr s) := by
  unfold Machine.execOtpProg
  dsimp only
  exact Completes.ite h.completes (Completes.ite ((h.loadIr trust _ _).completes)
      (((h.otpWrite trust _ _ _).loadIr trust _ _).completes))

theorem Reaches.execBypass : Completes ps r (execBypass s) := by
  unfold Machine.execBypass
  exact (h.loadIr trust _ _).completes

theorem Reaches.execIdcode : Completes ps r (execIdcode s) := by
  unfold Machine.execIdcode
  exact (h.loadIr trust _ _).completes

theorem Reaches.execHostPushGo (fn : HostFn) (len : ℕ) : Completes ps r (execHostPushGo fn len s) := by
  unfold Machine.execHostPushGo
  exact (h.bootWrite trust _ _ _).completes

theorem Reaches.execDebugNonceExpiry : Completes ps r (execDebugNonceExpiry s) := by
  unfold Machine.execDebugNonceExpiry
  split
  · exact Completes.ite h.completes ((h.updTrust trust _ (fun _ => bitsKept_refl _)).completes)
  · exact h.completes

theorem Reaches.imageLoadBody (c : CmdRef) (version : ℕ) (len : ℕ) (image : List Byte) : Reaches ps r
    (imageLoadBody c version len image s).1 := by
  unfold Machine.imageLoadBody
  dsimp only
  split
  · exact h
  · split
    · exact h
    · split
      · exact h
      · split
        · exact h
        · split
          · exact h
          · dsimp only
            exact h.updTrust trust _ (fun _ => bitsKept_refl _)

end

section
variable {ps : List Part} {r s : State} (h : Reaches ps r s) (basin : .basin ∈ ps) (scratch : .scratch ∈ ps)
include h basin scratch

theorem Reaches.localWrite (t : ℕ) (a : ℕ) (bs : List Byte) : (s.localWrite t a bs).reaches ps r := by
  unfold State.localWrite
  dsimp only
  split
  · exact trivial
  · split
    · exact trivial
    · split
      · exact h.scratchWrite scratch _ _ _
      · split
        · split
          · split
            · exact h.updBuf basin _ _
            · exact trivial
          · exact trivial
        · exact trivial

end

section
variable {ps : List Part} {r s : State} (h : Reaches ps r s) (cistern : .cistern ∈ ps) (egress : .egress ∈ ps)
include h cistern egress

theorem Reaches.freeBlocks (q : ℕ) (gone : List (SpillRec Copy)) : Reaches ps r (s.freeBlocks q gone) := by
  unfold State.freeBlocks
  exact Reaches.ite ((h.with_cistern cistern _).updQueue egress _ _) (h.with_cistern cistern _)

end

section
variable {ps : List Part} {r s : State} (h : Reaches ps r s) (cistern : .cistern ∈ ps) (hbm : .hbm ∈ ps)
include h cistern hbm

theorem Reaches.pcRetireBody (c : CmdRef) (pc : ℕ) : Reaches ps r (pcRetireBody c pc s).1 := by
  unfold Machine.pcRetireBody
  split
  · exact h
  · split
    · exact h
    · split
      · split
        · exact h
        · exact h
      · split
        · exact h
        · split
          · exact h
          · dsimp only
            exact (h.updCistern cistern _).updHbm hbm _

end

section
variable {ps : List Part} {r s : State} (h : Reaches ps r s) (cistern : .cistern ∈ ps) (mem : .mem ∈ ps)
include h cistern mem

theorem Reaches.cisternResize (gib : Nat) : Reaches ps r (s.cisternResize gib) :=
  (h.updMem mem _ fun wf => wf).updCistern cistern _

theorem Reaches.cisternConfigBody (c : CmdRef) (gib : ℕ) : Reaches ps r (cisternConfigBody c gib s).1 := by
  unfold Machine.cisternConfigBody
  dsimp only
  split
  · exact h
  · split
    · exact h
    · split
      · exact h
      · split
        · split
          · exact h
          · dsimp only
            exact h.cisternResize cistern mem _
        · dsimp only
          exact h.updCistern cistern _

theorem Reaches.layoutBody (sizes : List Nat) : Reaches ps r (layoutBody sizes s).1 := by
  unfold Machine.layoutBody
  split
  · dsimp only
    repeat' split
    · exact h
    · exact h
    · exact h
    · exact h
    · dsimp only
      exact Reaches.updCistern (h.updMem mem _ fun wf => wf) cistern _
  · exact h

theorem Reaches.hbmPartitionBody (action : ℕ) (id : ℕ) (order' : ℕ) (right : ℕ) (sizes : List ℕ) : Reaches ps r
    (hbmPartitionBody action id order' right sizes s).1 := by
  unfold Machine.hbmPartitionBody
  split
  · exact h.layoutBody cistern mem _
  · dsimp only
    split
    · exact h
    · exact h.createBody mem _ _ _ _
  · split
    · exact h
    · exact h.destroyBody mem _
  · exact h

end

section
variable {ps : List Part} {r s : State} (h : Reaches ps r s) (clusters : .clusters ∈ ps) (mem : .mem ∈ ps)
include h clusters mem

theorem Reaches.l2Install (c : Nat) (ln : Line) : Reaches ps r (s.l2Install c ln) := by
  unfold State.l2Install
  refine Reaches.updL2 ?_ clusters _ _
  split
  · exact .ite ((h.updMem mem _ (HbmMem.wf_putLine _ _)).updL2 clusters _ _) h
  · exact h

theorem Reaches.l2Get (c : ℕ) (no : ℕ) : Reaches ps r (s.l2Get c no).1 := by
  unfold State.l2Get
  split
  · split
    · dsimp only
      exact h.updL2 clusters _ _
    · exact h
  · dsimp only
    exact h.l2Install clusters mem _ _

theorem Reaches.l2Merge (c : ℕ) (ln : Line) : Reaches ps r (s.l2Merge c ln) := by
  unfold State.l2Merge
  split
  · rename_i eq
    have k := Reaches.of_fst eq (h.l2Get clusters mem _ _)
    split
    · exact k.updL2 clusters _ _
    · exact k

theorem Reaches.l2Clean (c no : Nat) : Reaches ps r (s.l2Clean c no) := by
  unfold State.l2Clean
  split
  · split
    · exact .ite h ((h.updMem mem _ (HbmMem.wf_putLine _ _)).updL2 clusters _ _)
    · exact h
  · exact h

theorem Reaches.l2Flush (c : ℕ) (poison : Bool) : Reaches ps r (s.l2Flush c poison) := by
  unfold State.l2Flush
  exact (Reaches.foldl h _ fun x _ => ((Reaches.refl ps x)).l2Clean clusters mem _ _).updL2 clusters _ _

theorem Reaches.maintL2 (c : ℕ) (no : ℕ) (op : ℕ) (all : Bool) : Reaches ps r (s.maintL2 c no op all) := by
  unfold State.maintL2
  split
  · exact h
  · split
    · exact h.l2Clean clusters mem _ _
    · exact h.l2Drop clusters _ _
    · exact (h.l2Clean clusters mem _ _).l2Drop clusters _ _

theorem Reaches.setScratchWays (cl : ℕ) (n : ℕ) : Reaches ps r (s.setScratchWays cl n) := by
  unfold State.setScratchWays
  exact (Reaches.foldl h _ fun x _ => (((Reaches.refl ps x)).l2Clean clusters mem _ _).l2Drop clusters _ _).updCl
      clusters _ _

theorem Reaches.clusterConfigBody (cl : ℕ) (ways : ℕ) (watchdog : ℕ) (depth : ℕ) : Reaches ps r
    (clusterConfigBody cl ways watchdog depth s).1 := by
  unfold Machine.clusterConfigBody
  split
  · exact h
  · split
    · exact h
    · dsimp only
      exact (Reaches.ite h (h.setScratchWays clusters mem _ _)).updCl clusters _ _

end

section
variable {ps : List Part} {r s : State} (h : Reaches ps r s) (clusters : .clusters ∈ ps) (trust : .trust ∈ ps)
include h clusters trust

theorem Reaches.clusterAdmitBody (cl : ℕ) : Reaches ps r (clusterAdmitBody cl s).1 := by
  unfold Machine.clusterAdmitBody
  split
  · exact h
  · split
    · exact h
    · dsimp only
      split
      · exact Reaches.ite ((h.updCl clusters _ _).raiseSvn trust _ _) (h.updCl clusters _ _)
      · exact h.updCl clusters _ _
    · exact h

end

section
variable {ps : List Part} {r s : State} (h : Reaches ps r s) (cores : .cores ∈ ps) (clusters : .clusters ∈ ps)
include h cores clusters

theorem Reaches.startMiss (core : ℕ) (t : ℕ) (no : ℕ) (prefetch : Bool) : Reaches ps r
    (s.startMiss core t no prefetch) := by
  unfold State.startMiss
  exact (h.l2Count clusters _ _).updCore cores _ _

theorem Reaches.prefetch (core : ℕ) (t : ℕ) (no : ℕ) : Reaches ps r (s.prefetch core t no) := by
  unfold State.prefetch
  exact Reaches.ite (h.updCore cores _ _) (Reaches.ite (((h.updCore cores _ _).startMiss cores
      clusters _ _ _ _).updCore cores _ _) ((h.updCore cores _ _).updCore cores _ _))

theorem Reaches.streamAhead (core : ℕ) (t : ℕ) (addr : ℕ) (stride : ℤ) (n : ℕ) : Reaches ps r
    (s.streamAhead core t addr stride n) := by
  unfold State.streamAhead
  exact Reaches.foldl h _ fun x _ => Reaches.ite (Reaches.ite (((Reaches.refl ps x)).prefetch cores clusters _ _ _)
      ((((Reaches.refl ps x)).prefetch cores clusters _ _ _).updCore cores _ _))
      (((Reaches.refl ps x)).updCore cores _ _)

theorem Reaches.hitSeen (core : ℕ) (t : ℕ) (addr : ℕ) : Reaches ps r (s.hitSeen core t addr) := by
  unfold State.hitSeen
  dsimp only
  split
  · exact ((h.updCore cores _ _).streamAhead cores clusters _ _ _ _ _).updCore cores _ _
  · exact h

theorem Reaches.invalLine (core : ℕ) (no : ℕ) (all : Bool) : Reaches ps r (s.invalLine core no all) := by
  unfold State.invalLine
  exact Reaches.ite ((h.updCore cores _ _).l2Drop clusters _ _) (h.updCore cores _ _)

theorem Reaches.fillOf (core no : Nat) : ∀ x ∈ s.fillOf core no, Reaches ps r x.1 := by
  intro x hx
  unfold State.fillOf at hx
  dsimp only at hx
  repeat' split at hx
  all_goals cases hx
  · exact h
  · dsimp only
    exact (h.l2Count clusters _ _).updCore cores _ _

end

section
variable {ps : List Part} {r s : State} (h : Reaches ps r s) (cores : .cores ∈ ps) (power : .power ∈ ps)
include h cores power

theorem Reaches.ungate (core : ℕ) : Reaches ps r (s.ungate core) := by
  unfold State.ungate
  exact Reaches.ite ((h.updCore cores _ _).countWake power _) (h.updCore cores _ _)

end

section
variable {ps : List Part} {r s : State} (h : Reaches ps r s) (dci : .dci ∈ ps) (trust : .trust ∈ ps)
include h dci trust

theorem Reaches.startFw (n : ℕ) (i : FwImage) : Reaches ps r (s.startFw n i) := by
  unfold State.startFw
  exact ((h.updTrust trust _ (fun _ => bitsKept_refl _)).updDci dci _).logMeas trust _ _ _

theorem Reaches.waitPush (f : HostFn) (status : ℕ) : Reaches ps r (s.waitPush f status) := by
  unfold State.waitPush
  exact (h.setStep dci _).updTrust trust _ (fun _ => bitsKept_refl _)

theorem Reaches.startActive : Reaches ps r s.startActive := by
  unfold State.startActive
  split
  · exact h.startFw dci trust _ _
  · exact h

end

section
variable {ps : List Part} {r s : State} (h : Reaches ps r s) (egress : .egress ∈ ps) (dci : .dci ∈ ps)
include h egress dci

theorem Reaches.sample (code : ℕ) (sub : ℕ) (inPort : ℕ) (domain : ℕ) (seq : W32) (dt : ℕ)
    (bytes : List Byte) : Reaches ps r (s.sample code sub inPort domain seq dt bytes) := by
  unfold State.sample
  exact Reaches.ite h (Reaches.ite (h.updEgress egress _) (Reaches.ite ((h.updEgress egress _).updEgress egress _)
      (Reaches.ite (((h.updEgress egress _).updEgress egress _).updRx dci _ _ _)
      ((h.updEgress egress _).updEgress egress _))))

end

section
variable {ps : List Part} {r s : State} (h : Reaches ps r s) (hbm : .hbm ∈ ps) (faults : .faults ∈ ps)
include h hbm faults

theorem Reaches.caParity (pc : ℕ) : Reaches ps r (s.caParity pc) := by
  unfold State.caParity
  exact Reaches.ite (((h.updPc hbm _ _).errCnt faults _ _).updPc hbm _ _)
      (((h.updPc hbm _ _).errCnt faults _ _).updPc hbm _ _)

end

section
variable {ps : List Part} {r s : State} (h : Reaches ps r s) (hbm : .hbm ∈ ps) (free : .free ∈ ps)
include h hbm free

theorem Reaches.passEnd (pc : ℕ) : Reaches ps r (s.passEnd pc) := by
  unfold State.passEnd
  exact (h.draw free).updPc hbm _ _

end

section
variable {ps : List Part} {r s : State} (h : Reaches ps r s) (hbm : .hbm ∈ ps) (power : .power ∈ ps)
include h hbm power

theorem Reaches.wakeStack (k : ℕ) : Reaches ps r (s.wakeStack k) := by
  unfold State.wakeStack
  exact Reaches.ite (((h.updStack hbm _ _).countWake power _).updHbm hbm _) h

theorem Reaches.wakePc (p : ℕ) : Reaches ps r (s.wakePc p) := by
  unfold State.wakePc
  exact Reaches.ite (((h.wakeStack hbm power _).updPc hbm _ _).countWake power _) (h.wakeStack hbm power _)

theorem Reaches.hbmPart (port : ℕ) (write : Bool) (data : List Byte) (addr : ℕ) (pc : ℕ)
    (ps' : List (ℕ × ℕ × ℕ)) : Reaches ps r (s.hbmPart port write data addr pc ps') := by
  unfold State.hbmPart
  exact (h.wakePc hbm power _).updPc hbm _ _

theorem Reaches.redirectPart (r' : HbmReq) (p : ℕ × ℕ) (data : List Byte) : Reaches ps r (s.redirectPart r' p data)
    := by
  unfold State.redirectPart
  split
  · exact (h.wakePc hbm power _).updPc hbm _ _
  · exact h

theorem Reaches.redirectQueue (pc : ℕ) : Reaches ps r (s.redirectQueue pc) := by
  unfold State.redirectQueue
  exact Reaches.foldl (h.updPc hbm _ _) _ fun x _ => Reaches.foldl ((Reaches.refl ps x)) _
      fun x _ => ((Reaches.refl ps x)).redirectPart hbm power _ _ _

theorem Reaches.spillReq (write : Bool) (block : ℕ) (data : List Byte) : Reaches ps r (s.spillReq write block data)
    := by
  unfold State.spillReq
  exact Reaches.foldl h _ fun x _ => ((Reaches.refl ps x)).hbmPart hbm power _ _ _ _ _ _

theorem Reaches.writeChain (queue : Nat) (l : List (Nat × List Byte × Nat)) : Reaches ps r (s.writeChain queue l)
    := by
  induction l generalizing s with
  | nil => exact h
  | cons x rest ih => exact ih (h.spillReq hbm power _ _ _)

theorem Reaches.execHbmRequest (port : ℕ) (addr : ℕ) (len : ℕ) (write : Bool) (data : List Byte) : Completes ps r
    (execHbmRequest port addr len write data s) := by
  unfold Machine.execHbmRequest
  split
  · exact h.completes
  · dsimp only
    split
    · exact Completes.ite ((Reaches.foldl (h.updHbm hbm _) _ fun x _ => ((Reaches.refl ps x)).hbmPart hbm
          power _ _ _ _ _ _).completes) ((Reaches.ite ((h.updHbm hbm _).updHbm hbm _)
          (((h.updHbm hbm _).updHbm hbm _).hbmAnswer hbm _ _ _ _)).completes)
    · exact (Reaches.ite ((h.updHbm hbm _).updHbm hbm _) (((h.updHbm hbm _).updHbm hbm _).hbmAnswer
          hbm _ _ _ _)).completes

end

section
variable {ps : List Part} {r s : State} (h : Reaches ps r s) (mem : .mem ∈ ps) (hbm : .hbm ∈ ps)
include h mem hbm

theorem Reaches.hbmAct (q : HbmReq) : Reaches ps r (s.hbmAct q) := by
  unfold State.hbmAct
  refine .ite (h.updMem mem _ fun wf => ?_) (h.foldl _ fun x _ => (Reaches.refl ps x).hbmAnswer hbm _ _ _ _)
  exact List.foldlRecOn (motive := fun m => HbmMem.wf m = true) _ _ wf fun m k _ _ => HbmMem.wf_store _ _ _ k

end

section
variable {ps : List Part} {r s : State} (h : Reaches ps r s) (net : .net ∈ ps) (faults : .faults ∈ ps)
include h net faults

theorem Reaches.wellEnableBody (c : CmdRef) (w : ℕ) (enable : ℕ) : Reaches ps r (wellEnableBody c w enable s).1 := by
  unfold Machine.wellEnableBody
  dsimp only
  split
  · exact h
  · split
    · split
      · exact h
      · split
        · exact h
        · dsimp only
          exact h.updWell net _ _
    · split
      · exact h
      · dsimp only
        exact Reaches.foldl ((h.updWell net _ _).unfence faults _ _) _
            fun x _ => (((Reaches.refl ps x)).updPort net _ _).bringUp net _

end

section
variable {ps : List Part} {r s : State} (h : Reaches ps r s) (net : .net ∈ ps) (order : .order ∈ ps)
include h net order

theorem Reaches.macWrite (port : ℕ) (p : ℕ) (words : List IWord) (ended : Bool) : Reaches ps r
    (s.macWrite port p words ended) := by
  unfold State.macWrite
  exact (h.updPort net _ _).updPkt order _ _

theorem Reaches.parserResetStart (well : ℕ) : Reaches ps r (s.parserResetStart well) := by
  unfold State.parserResetStart
  exact (h.updWell net _ _).updOrder order _

theorem Reaches.releaseFrags (well : ℕ) (key : List ℕ) (f : Frag) : Reaches ps r (s.releaseFrags well key f) := by
  unfold State.releaseFrags
  exact Reaches.foldl (h.updWell net _ _) _ fun x _ => (((Reaches.refl ps x)).updPkt order _ _).listPut order _

end

section
variable {ps : List Part} {r s : State} (h : Reaches ps r s) (net : .net ∈ ps) (tables : .tables ∈ ps)
include h net tables

theorem Reaches.notice (w : ℕ) (n : Learn) : Reaches ps r (s.notice w n) := by
  unfold State.notice
  exact Reaches.ite (h.updWell net _ _) (h.updL2t tables _ _)

theorem Reaches.l2ConfigBody (age : ℕ) (flush : ℕ) : Reaches ps r (l2ConfigBody age flush s).1 := by
  unfold Machine.l2ConfigBody
  split
  · exact h
  · dsimp only
    exact Reaches.foldl (h.updTables tables _) _ fun x _ => Reaches.ite (((Reaches.refl ps x)).updWell net _ _)
        ((Reaches.refl ps x))

theorem Reaches.execL2AgingSweep (well : ℕ) : Completes ps r (execL2AgingSweep well s) := by
  unfold Machine.execL2AgingSweep
  dsimp only
  exact Completes.ite h.completes (((((Reaches.foldl h _ fun x _ => ((Reaches.refl ps x)).dpTouch tables _ _).l2Remove
      tables _ _).updL2t tables _ _).updWell net _ _).completes)

theorem Reaches.execL2NoticeApply (well : ℕ) : Completes ps r (execL2NoticeApply well s) := by
  unfold Machine.execL2NoticeApply
  dsimp only
  split
  · exact ((h.setWell net _ _).heed tables _ _).completes
  · exact h.completes

theorem Reaches.execLearnNoticeSend : Completes ps r (execLearnNoticeSend s) := by
  unfold Machine.execLearnNoticeSend
  split
  · exact h.completes
  · split
    · exact h.completes
    · dsimp only
      exact (Reaches.foldl ((h.updWell net _ _).updTables tables _) _ fun x _ => Reaches.ite ((Reaches.refl ps x))
          (((Reaches.refl ps x)).updWell net _ _)).completes

end

section
variable {ps : List Part} {r s : State} (h : Reaches ps r s) (order : .order ∈ ps) (basin : .basin ∈ ps)
include h order basin

theorem Reaches.addCell (p : ℕ) (cell : ℕ) (ents : List ℕ) : Reaches ps r (s.addCell p cell ents) := by
  unfold State.addCell
  dsimp only
  split
  · exact h.updBuf basin _ _
  · exact (h.setBuf basin _ _).updPkt order _ _

end

section
variable {ps : List Part} {r s : State} (h : Reaches ps r s) (order : .order ∈ ps) (egress : .egress ∈ ps)
include h order egress

theorem Reaches.execCutThroughStart (pkt : ℕ) : Completes ps r (execCutThroughStart pkt s) := by
  unfold Machine.execCutThroughStart
  split
  · exact h.completes
  · dsimp only
    exact ((((h.ctVisit egress _ _).updRc order _ _).updPump egress _ _).updEport egress _ _).completes

end

section
variable {ps : List Part} {r s : State} (h : Reaches ps r s) (order : .order ∈ ps) (truns : .truns ∈ ps)
include h order truns

theorem Reaches.returnNext (t : ℕ) : Reaches ps r (s.returnNext t) := by
  unfold State.returnNext
  split
  · exact (h.updTr truns _ _).listPut order _
  · exact h

end

section
variable {ps : List Part} {r s : State} (h : Reaches ps r s) (out : .out ∈ ps) (dci : .dci ∈ ps)
include h out dci

theorem Reaches.sendVector (f : HostFn) (v : ℕ) : Reaches ps r (s.sendVector f v) := by
  unfold State.sendVector
  exact Reaches.ite (h.updFn dci _ _) (h.with_out out _)

theorem Reaches.irq (f : HostFn) (src : ℕ) : Reaches ps r (s.irq f src) := by
  unfold State.irq
  exact Reaches.ite h (Reaches.ite (h.updFn dci _ _) ((h.sendVector out dci _ _).updFn dci _ _))

theorem Reaches.putRsp (f : HostFn) (cseq : W32) (op : ℕ) (status : ℕ) (tag : BitVec 16) (orig : ℕ) (flags : ℕ)
    (detail : W32) (result : List Byte) : Reaches ps r (s.putRsp f cseq op status tag orig flags detail result) := by
  unfold State.putRsp
  exact Reaches.ite (((h.hostWrite out _ _ _).updFn dci _ _).irq out dci _ _) h

theorem Reaches.putDup (j : JCmd) (r' : Resp) (tag : BitVec 16) : Reaches ps r (s.putDup j r' tag) := by
  unfold State.putDup
  exact h.putRsp out dci _ _ _ _ _ _ _ _ _

theorem Reaches.finish (c : CmdRef) (status : ℕ) (detail : ℕ) (result : List Byte) (tail : List Byte) : Reaches ps r
    (s.finish c status detail result tail) := by
  unfold State.finish
  split
  · exact h
  · exact Reaches.ite h (Reaches.foldl (((Reaches.ite (h.hostWrite out _ _ _) h).updJ dci _ _).putRsp out
        dci _ _ _ _ _ _ _ _ _) _ fun x _ => ((Reaches.refl ps x)).putDup out dci _ _ _)

theorem Reaches.answer (c : CmdRef) (a : Ans) : Reaches ps r (s.answer c a) := by
  unfold State.answer
  split
  · exact h.finish out dci _ _ _ _ _
  · exact h.updJ dci _ _
  · exact h

theorem Reaches.accept (f : HostFn) (e : CmdEntry) : Reaches ps r (s.accept f e) := by
  unfold State.accept
  dsimp only
  split
  · exact (Reaches.ite ((((h.updFn dci _ _).updDci dci _).trimJournal dci _).renew dci)
        (((h.updFn dci _ _).updDci dci _).trimJournal dci _)).answer out dci _ _
  · exact Reaches.ite ((Reaches.ite ((((h.updFn dci _ _).updDci dci _).trimJournal dci _).renew dci)
        (((h.updFn dci _ _).updDci dci _).trimJournal dci _)).answer out dci _ _)
        (Reaches.ite ((Reaches.ite ((((h.updFn dci _ _).updDci dci _).trimJournal dci _).renew dci)
        (((h.updFn dci _ _).updDci dci _).trimJournal dci _)).answer out dci _ _)
        (Reaches.ite ((((h.updFn dci _ _).updDci dci _).trimJournal dci _).renew dci)
        (((h.updFn dci _ _).updDci dci _).trimJournal dci _)))

theorem Reaches.putEvent (f : HostFn) (e : EvRec) : Reaches ps r (s.putEvent f e) := by
  unfold State.putEvent
  exact Reaches.ite (h.updFn dci _ _) (Reaches.ite ((h.hostWrite out _ _ _).irq out dci _ _) h)

theorem Reaches.issueEvent (f : HostFn) (code : ℕ) (dt : W64) (body : List Byte) : Reaches ps r
    (s.issueEvent f code dt body) := by
  unfold State.issueEvent
  exact (h.updFn dci _ _).putEvent out dci _ _

theorem Reaches.lostEvent (f : HostFn) : Reaches ps r (s.lostEvent f) := by
  unfold State.lostEvent
  exact Reaches.ite ((h.issueEvent out dci _ _ _ _).updFn dci _ _) h

theorem Reaches.ackEvents (f : HostFn) (seq : W32) : Reaches ps r (s.ackEvents f seq) := by
  unfold State.ackEvents
  exact Reaches.ite h ((h.updFn dci _ _).lostEvent out dci _)

theorem Reaches.answerAll (op : ℕ) (part : ℕ) (a : Ans) : Reaches ps r (s.answerAll op part a) := by
  unfold State.answerAll
  exact Reaches.foldl h _ fun x _ => ((Reaches.refl ps x)).answer out dci _ _

theorem Reaches.eventOn (f : HostFn) (code : ℕ) (dt : W64) (body : List Byte) : Reaches ps r
    (s.eventOn f code dt body) := by
  unfold State.eventOn
  exact Reaches.ite ((h.lostEvent out dci _).issueEvent out dci _ _ _ _) ((h.lostEvent out dci _).updFn dci _ _)

theorem Reaches.msixWrite (f : HostFn) (k : ℕ) (v : W64) : Reaches ps r (s.msixWrite f k v) := by
  unfold State.msixWrite
  exact Reaches.ite (((h.updFn dci _ _).updFn dci _ _).sendVector out dci _ _) (h.updFn dci _ _)

theorem Reaches.ringOn (f : HostFn) (ring : ℕ) (v : W64) : Reaches ps r (s.ringOn f ring v) := by
  unfold State.ringOn
  dsimp only
  split
  · exact (h.updFn dci _ _).updFn dci _ _
  · exact (h.updFn dci _ _).updFn dci _ _
  · exact Reaches.foldl (h.updFn dci _ _) _ fun x _ => ((Reaches.refl ps x)).putEvent out dci _ _

theorem Reaches.ringWrite (f : HostFn) (ring : ℕ) (v : W64) : Reaches ps r (s.ringWrite f ring v) := by
  unfold State.ringWrite
  exact Reaches.ite (Reaches.ite h (Reaches.ite h (h.ringOff dci _ _)))
      (Reaches.ite (h.ringOn out dci _ _ _) (h.updFn dci _ _))

theorem Reaches.putWaiting (f : HostFn) : Reaches ps r (s.putWaiting f) := by
  unfold State.putWaiting
  exact Reaches.foldl (h.updFn dci _ _) _ fun x _ => ((Reaches.refl ps x)).putEvent out dci _ _

theorem Reaches.warmEnd : Reaches ps r s.warmEnd := by
  unfold State.warmEnd
  exact Reaches.foldl (h.leaseThaw dci) _ fun x _ => ((Reaches.refl ps x)).finish out dci _ _ _ _ _

theorem Reaches.txStamp (n : TxNow) : Reaches ps r (s.txStamp n) := by
  unfold State.txStamp
  dsimp only
  split
  · exact h.eventOn out dci _ _ _ _
  · exact h.eventOn out dci _ _ _ _

theorem Reaches.writePunt (f : HostFn) (ring : Nat) (c : PuntCopy) (bytes : List Byte) (bufs : List (Nat × Nat))
    (first : Bool) : Reaches ps r (s.writePunt f ring c bytes bufs first) := by
  induction bufs generalizing s bytes first with
  | nil => exact h
  | cons b rest ih => exact ih (((h.hostWrite out _ _ _).hostWrite out _ _ _).updRx dci _ _ _) _ _

theorem Reaches.execIntModExpiry (fn : HostFn) (source : ℕ) : Completes ps r (execIntModExpiry fn source s) := by
  unfold Machine.execIntModExpiry
  dsimp only
  exact Completes.ite (((h.updFn dci _ _).irq out dci _ _).completes) h.completes

theorem Reaches.execDciRingEnable (fn : HostFn) (ring : ℕ) (base : W64) : Completes ps r
    (execDciRingEnable fn ring base s) := by
  unfold Machine.execDciRingEnable
  exact Completes.ite ((h.ringOn out dci _ _ _).completes) h.completes

theorem Reaches.execEseqAckWrite (fn : HostFn) (seq : W32) : Completes ps r (execEseqAckWrite fn seq s) := by
  unfold Machine.execEseqAckWrite
  exact Completes.ite ((h.ackEvents out dci _ _).completes) h.completes

theorem Reaches.execCommandFetch (fn : HostFn) (e : CmdEntry) : Completes ps r (execCommandFetch fn e s) := by
  unfold Machine.execCommandFetch
  split
  · exact h.completes
  · dsimp only
    split
    · exact ((h.updFn dci _ _).accept out dci _ _).completes
    · split
      · split
        · split
          · exact ((h.updFn dci _ _).putDup out dci _ _ _).completes
          · exact ((h.updFn dci _ _).updJ dci _ _).completes
        · exact ((h.updFn dci _ _).putRsp out dci _ _ _ _ _ _ _ _ _).completes
      · exact ((h.updFn dci _ _).putRsp out dci _ _ _ _ _ _ _ _ _).completes

end

section
variable {ps : List Part} {r s : State} (h : Reaches ps r s) (out : .out ∈ ps) (egress : .egress ∈ ps)
include h out egress

theorem Reaches.fcCheck1 (port : ℕ) (cls : ℕ) (used : ℕ) : Reaches ps r (s.fcCheck1 port cls used) := by
  unfold State.fcCheck1
  exact Reaches.ite (Reaches.ite ((h.sendFc out _ _ _).updEport egress _ _) h)
      (Reaches.ite ((h.sendFc out _ _ _).updEport egress _ _) h)

theorem Reaches.fcCheck (port : ℕ) (cls : ℕ) : Reaches ps r (s.fcCheck port cls) := by
  unfold State.fcCheck
  split
  · exact h
  · exact h.fcCheck1 out egress _ _ _
  · exact h.fcCheck1 out egress _ _ _

theorem Reaches.fcAfter (ents : List ℕ) : Reaches ps r (s.fcAfter ents) := by
  unfold State.fcAfter
  split
  · exact Reaches.ite (h.fcCheck out egress _ _) h
  · exact h

theorem Reaches.pfcThresholdBody (p : ℕ) (cls : ℕ) (xoff : ℕ) (xon : ℕ) : Reaches ps r
    (pfcThresholdBody p cls xoff xon s).1 := by
  unfold Machine.pfcThresholdBody
  split
  · exact h
  · dsimp only
    exact (h.updEport egress _ _).fcCheck out egress _ _

theorem Reaches.execPfcResend (port : ℕ) (prio : ℕ) : Completes ps r (execPfcResend port prio s) := by
  unfold Machine.execPfcResend
  dsimp only
  exact Completes.ite h.completes (((h.sendFc out _ _ _).updEport egress _ _).completes)

end

section
variable {ps : List Part} {r s : State} (h : Reaches ps r s) (out : .out ∈ ps) (ledger : .ledger ∈ ps)
include h out ledger

theorem Reaches.ledgerReadBody (c : CmdRef) (epoch : ℕ) (offset : ℕ) (len : ℕ) (addr : ℕ) : Reaches ps r
    (ledgerReadBody c epoch offset len addr s).1 := by
  unfold Machine.ledgerReadBody
  split
  · exact h
  · split
    · exact h
    · split
      · dsimp only
        exact (h.hostWrite out _ _ _).updLedger ledger _
      · exact h

end

section
variable {ps : List Part} {r s : State} (h : Reaches ps r s) (out : .out ∈ ps) (net : .net ∈ ps)
include h out net

theorem Reaches.moduleWrite (k : ℕ) (bank : ℕ) (page : ℕ) (offset : ℕ) (data : List Byte) : Reaches ps r
    (s.moduleWrite k bank page offset data) := by
  unfold State.moduleWrite
  exact (h.busSelect net _).with_out out _

theorem Reaches.dataPathInit (k : ℕ) (n : ℕ) (mode : ℕ) : Reaches ps r (s.dataPathInit k n mode) := by
  unfold State.dataPathInit
  exact (((h.moduleWrite out net _ _ _ _ _).moduleWrite out net _ _ _ _ _).moduleWrite out net _ _ _ _ _).moduleWrite
      out net _ _ _ _ _

theorem Reaches.execRxWhileDown (rx : DownRx) : Completes ps r (execRxWhileDown rx s) := by
  unfold Machine.execRxWhileDown
  dsimp only
  exact Completes.ite h.completes (Completes.ite ((h.macCnt net _ _).completes)
      (Completes.ite ((h.with_out out _).completes) (Completes.ite h.completes ((h.macCnt net _ _).completes))))

theorem Reaches.moduleAccessBody (k : ℕ) (bank : ℕ) (page : ℕ) (offset : ℕ) (len : ℕ) (write : ℕ) (data : List Byte)
    (answer : List Byte) : Reaches ps r (moduleAccessBody k bank page offset len write data answer s).1 := by
  unfold Machine.moduleAccessBody
  split
  · exact h
  · split
    · exact h
    · split
      · split
        · exact h
        · dsimp only
          exact (h.moduleWrite out net _ _ _ _ _).updCage net _ _
      · split
        · exact h
        · dsimp only
          exact h.busSelect net _

end

section
variable {ps : List Part} {r s : State} (h : Reaches ps r s) (tables : .tables ∈ ps) (free : .free ∈ ps)
include h tables free

theorem Reaches.tblAct (k : TblKind) (op : ℕ) (index : ℕ) (keys' : List W64) (data : List W64) : Reaches ps r
    (s.tblAct k op index keys' data).1 := by
  unfold State.tblAct
  split
  · dsimp only
    exact h.setL2t tables _ _
  · exact h.l2AllOp tables _ _ _
  · exact h
  · dsimp only
    exact (h.draw free).updTables tables _
  · split
    · exact h
    · dsimp only
      exact (h.draw free).setEmt tables _ _
  · dsimp only
    split
    · exact h
    · dsimp only
      exact h.ctxWrite tables _ _ _
  · dsimp only
    split
    · exact h
    · dsimp only
      exact h.updTables tables _
  · dsimp only
    split
    · exact h
    · split
      · exact h
      · split
        · dsimp only
          exact h.setWeir tables _ _
        · exact h

theorem Reaches.tblOp (cmd : Bool) (tbl : ℕ) (op : ℕ) (index : ℕ) (keys' : List W64) (data : List W64) : Reaches ps r
    (s.tblOp cmd tbl op index keys' data).1 := by
  unfold State.tblOp
  split
  · exact h
  · split
    · exact h.tblAct tables free _ _ _ _ _
    · exact h

theorem Reaches.jtblApply (tbl : ℕ) (op : ℕ) (keys' : List W64) (data : List W64) : Reaches ps r
    (s.jtblApply tbl op keys' data) := by
  unfold State.jtblApply
  split
  · exact h.jtblFailed tables _ _
  · exact Reaches.ite (Reaches.ite ((h.jtblFailed tables _ _).updTables tables _) (h.ovEnter tables _ _ _ _ _ _))
        (Reaches.ite (Reaches.ite (Reaches.foldl (h.tblOp tables free _ _ _ _ _ _) _ fun x _ => Reaches.ite
        ((Reaches.refl ps x)) (((Reaches.refl ps x)).dpTouch tables _ _))
        (Reaches.ite ((h.tblOp tables free _ _ _ _ _ _).dpTouch tables _ _) (h.tblOp tables free _ _ _ _ _ _)))
        ((Reaches.ite (Reaches.foldl (h.tblOp tables free _ _ _ _ _ _) _ fun x _ => Reaches.ite ((Reaches.refl ps x))
        (((Reaches.refl ps x)).dpTouch tables _ _)) (Reaches.ite ((h.tblOp tables free _ _ _ _ _ _).dpTouch
        tables _ _) (h.tblOp tables free _ _ _ _ _ _))).jtblFailed tables _ _))

theorem Reaches.applyTables (j : List JEntry) : Reaches ps r (s.applyTables j) := by
  unfold State.applyTables
  refine Reaches.foldl ?_ _ fun x a => ?_
  · exact h
  · split
    · exact ((Reaches.refl ps x)).jtblApply tables free _ _ _ _
    · exact (Reaches.refl ps x)

theorem Reaches.tblStart (r' : Requester) (image : W64) : Reaches ps r (s.tblStart r' image) := by
  unfold State.tblStart
  dsimp only
  split
  · exact h.setTset tables _ _
  · split
    · exact h.setTset tables _ _
    · split
      · exact (h.setTset tables _ _).setTset tables _ _
      · split
        · exact h.setTset tables _ _
        · split
          · exact (h.setTset tables _ _).setTset tables _ _
          · exact Reaches.ite ((h.setTset tables _ _).tblEnter tables _ _)
                (((h.setTset tables _ _).tblOp tables free _ _ _ _ _ _).setTset tables _ _)

theorem Reaches.tsetWrite (r' : Requester) (off : ℕ) (v : W64) : Maybe ps r (s.tsetWrite r' off v) := by
  unfold State.tsetWrite
  dsimp only
  exact Maybe.ite Maybe.none (Maybe.ite ((h.tblStart tables free _ _).maybe)
      (Maybe.ite h.maybe (Maybe.ite ((h.setTset tables _ _).maybe) ((h.setTset tables _ _).maybe))))

theorem Reaches.ovDecide (e : OvEnt) : Reaches ps r (s.ovDecide e) := by
  unfold State.ovDecide
  dsimp only
  refine Reaches.updTables ?_ tables _
  split
  · exact (Reaches.ite (Reaches.ite ((h.tblOp tables free _ _ _ _ _ _).dpTouch tables _ _)
        ((h.tblOp tables free _ _ _ _ _ _).jtblFailed tables _ _)) (h.tblOp tables free _ _ _ _ _ _)).updTables
        tables _
  · exact Reaches.ite (Reaches.ite ((h.tblOp tables free _ _ _ _ _ _).dpTouch tables _ _)
        ((h.tblOp tables free _ _ _ _ _ _).jtblFailed tables _ _)) (h.tblOp tables free _ _ _ _ _ _)

theorem Reaches.ovSettle : Reaches ps r s.ovSettle := by
  unfold State.ovSettle
  exact Reaches.foldl h _ fun x _ => ((Reaches.refl ps x)).ovDecide tables free _

theorem Reaches.tblNow (tbl : ℕ) (op : ℕ) (index : ℕ) (keys' : List W64) (data : List W64) : Reaches ps r
    (s.tblNow tbl op index keys' data).1 := by
  unfold State.tblNow
  split
  · dsimp only
    exact (h.ovSettle tables free).tblOp tables free _ _ _ _ _ _
  · exact h.tblOp tables free _ _ _ _ _ _

theorem Reaches.batchOp (o : TblOp) : Reaches ps r (s.batchOp o).1 := by
  unfold State.batchOp
  exact h.tblNow tables free _ _ _ _ _

theorem Reaches.batchRun (ops : List TblOp) (stop : Bool) (got : List TblRes) :
    Reaches ps r (s.batchRun ops stop got).1 := by
  induction ops generalizing s got with
  | nil => exact h
  | cons o rest ih =>
    unfold State.batchRun
    dsimp only
    split
    · exact h.batchOp tables free _
    · exact ih (h.batchOp tables free _) _

theorem Reaches.batchAtomic (c : CmdRef) (ops : List TblOp) : Reaches ps r (s.batchAtomic c ops).1 := by
  unfold State.batchAtomic
  dsimp only
  split
  · exact h.batchRun tables free _ _ _
  · exact h.with_free free _

theorem Reaches.batchPlain (c : CmdRef) (ops : List TblOp) (stop : Bool) : Reaches ps r (s.batchPlain c ops stop).1
    := by
  unfold State.batchPlain
  dsimp only
  exact h.batchRun tables free _ _ _

theorem Reaches.tableReadBody (c : CmdRef) (w : W64) (key : List W64) : Reaches ps r (tableReadBody c w key s).1 := by
  unfold Machine.tableReadBody
  split
  · exact h
  · split
    · exact h
    · extract_lets ok x
      have read : Reaches ps r x.1 := by
        unfold x
        split
        · exact h.tblOp tables free _ _ _ _ _ _
        · exact h
      split
      · exact h
      · exact read

theorem Reaches.tableBatchBody (c : CmdRef) (atomic stop : Bool) (ops : List TblOp) :
    Reaches ps r (tableBatchBody c atomic stop ops s).1 := by
  unfold Machine.tableBatchBody
  split
  · exact h
  · split
    · exact h
    · split
      · exact h
      · extract_lets x
        have batch : Reaches ps r x.1 := by
          unfold x
          split
          · exact h.batchAtomic tables free _ _
          · exact h.batchPlain tables free _ _ _
        exact (batch.updTables tables _).tblSeen tables _

theorem Reaches.execEmOverlayDecide : Completes ps r (execEmOverlayDecide s) := by
  unfold Machine.execEmOverlayDecide
  split
  · exact (h.ovDecide tables free _).completes
  · exact h.completes

theorem Reaches.execTblCmdDone (r' : Requester) : Completes ps r (execTblCmdDone r' s) := by
  unfold Machine.execTblCmdDone
  split
  · exact h.completes
  · split
    · exact (h.tblFinish tables _ _).completes
    · dsimp only
      exact Completes.ite (Completes.ite h.completes (((h.tblOp tables free _ _ _ _ _ _).tblFinish
          tables _ _).completes)) (Completes.ite ((h.tblEnter tables _ _).completes) h.completes)

theorem Reaches.execTblDigestBlock (r' : Requester) (w : W64) : Completes ps r (execTblDigestBlock r' w s) := by
  unfold Machine.execTblDigestBlock
  exact (h.tblStart tables free _ _).completes

theorem Reaches.execTblWriteIndex (r' : Requester) (w : W64) : Completes ps r (execTblWriteIndex r' w s) := by
  unfold Machine.execTblWriteIndex
  exact (h.tblStart tables free _ _).completes

theorem Reaches.execTblReadIndex (r' : Requester) (w : W64) : Completes ps r (execTblReadIndex r' w s) := by
  unfold Machine.execTblReadIndex
  exact (h.tblStart tables free _ _).completes

theorem Reaches.execTblLookup (r' : Requester) (w : W64) : Completes ps r (execTblLookup r' w s) := by
  unfold Machine.execTblLookup
  exact (h.tblStart tables free _ _).completes

theorem Reaches.execTblDelete (r' : Requester) (w : W64) : Completes ps r (execTblDelete r' w s) := by
  unfold Machine.execTblDelete
  exact (h.tblStart tables free _ _).completes

theorem Reaches.execTblUpdate (r' : Requester) (w : W64) : Completes ps r (execTblUpdate r' w s) := by
  unfold Machine.execTblUpdate
  exact (h.tblStart tables free _ _).completes

theorem Reaches.execTblInsert (r' : Requester) (w : W64) : Completes ps r (execTblInsert r' w s) := by
  unfold Machine.execTblInsert
  exact (h.tblStart tables free _ _).completes

end

section
variable {ps : List Part} {r s : State} (h : Reaches ps r s) (thrs : .thrs ∈ ps) (clusters : .clusters ∈ ps)
include h thrs clusters

theorem Reaches.goto (t : ℕ) (pc : W64) : Reaches ps r (s.goto t pc) := by
  unfold State.goto
  exact (h.updThr thrs _ _).traceRec clusters _ _ _ _

theorem Reaches.branchIf (t : ℕ) (c : Bool) (off : BitVec 21) : Reaches ps r (s.branchIf t c off) := by
  unfold State.branchIf
  exact Reaches.ite (h.goto thrs clusters _ _) (h.advance thrs _)

theorem Reaches.stepDelays (cl : ℕ) : Reaches ps r (s.stepDelays cl) := by
  unfold State.stepDelays
  exact Reaches.foldl (h.updTask clusters _ _) _ fun x _ => ((Reaches.refl ps x)).setFlags thrs _ _

theorem Reaches.execDelayTick (cluster : ℕ) (lst : ℕ) : Completes ps r (execDelayTick cluster lst s) := by
  unfold Machine.execDelayTick
  dsimp only
  exact (Reaches.foldl (h.updTask clusters _ _) _ fun x _ => ((Reaches.refl ps x)).setFlags thrs _ _).completes

end

section
variable {ps : List Part} {r s : State} (h : Reaches ps r s) (thrs : .thrs ∈ ps) (truns : .truns ∈ ps)
include h thrs truns

theorem Reaches.complete (t : ℕ) (gd : Reg) (v : W64) : Reaches ps r (s.complete t gd v) := by
  unfold State.complete
  exact Reaches.ite (h.updTr truns _ _) (((h.setReg thrs _ _ _).advance thrs _).updTr truns _ _)

theorem Reaches.append (t : ℕ) (gd : Reg) (need : ℕ) (copies : ℕ) (e : JEntry) : Reaches ps r
    (s.append t gd need copies e) := by
  unfold State.append
  exact (h.updRun truns _ _).result thrs _ _ _

theorem Reaches.ctxEntry (t : ℕ) (gd : Reg) (ctx : ℕ) (q : ℕ) : Reaches ps r (s.ctxEntry t gd ctx q) := by
  unfold State.ctxEntry
  split
  · exact (h.updRun truns _ _).result thrs _ _ _
  · exact h.append thrs truns _ _ _ _ _

theorem Reaches.mergeOrAppend (t : ℕ) (gd : Reg) (e : JEntry) : Reaches ps r (s.mergeOrAppend t gd e) := by
  unfold State.mergeOrAppend
  split
  · exact (h.updRun truns _ _).result thrs _ _ _
  · exact h.append thrs truns _ _ _ _ _

theorem Reaches.wakeFlags (t : ℕ) (gd : Reg) (mask : W32) (broken : Bool) : Reaches ps r
    (s.wakeFlags t gd mask broken) := by
  unfold State.wakeFlags
  exact (h.clearFlags thrs _ _).complete thrs truns _ _ _

end

section
variable {ps : List Part} {r s : State} (h : Reaches ps r s) (time : .time ∈ ps) (net : .net ∈ ps)
include h time net

theorem Reaches.execRefclkReturn (well : ℕ) : Completes ps r (execRefclkReturn well s) := by
  unfold Machine.execRefclkReturn
  exact Completes.ite h.completes ((Reaches.ite ((h.updWell net _ _).baseBack time) (h.updWell net _ _)).completes)

end

section
variable {ps : List Part} {r s : State} (h : Reaches ps r s) (truns : .truns ∈ ps) (clusters : .clusters ∈ ps)
include h truns clusters

theorem Reaches.chanEnd (t : ℕ) : Reaches ps r (s.chanEnd t) := by
  unfold State.chanEnd
  exact ((h.updCl clusters _ _).updTask clusters _ _).updTr truns _ _

theorem Reaches.stage (t : ℕ) (n : ℕ) (w : W64) : Reaches ps r (s.stage t n w) := by
  unfold State.stage
  exact (h.setChan clusters _ _ _).updTr truns _ _

end

section
variable {ps : List Part} {r s : State} (h : Reaches ps r s) (truns : .truns ∈ ps) (cores : .cores ∈ ps)
include h truns cores

theorem Reaches.post (p : Posted) : Reaches ps r (s.post p) := by
  unfold State.post
  exact (h.updTr truns _ _).updCore cores _ _

theorem Reaches.execStarveGrant (t : ℕ) : Completes ps r (execStarveGrant t s) := by
  unfold Machine.execStarveGrant
  exact Completes.ite (((h.updCore cores _ _).updTr truns _ _).completes) h.completes

theorem Reaches.execCacheMaintDone (t : ℕ) : Completes ps r (execCacheMaintDone t s) := by
  unfold Machine.execCacheMaintDone
  split
  · exact h.completes
  · exact Completes.ite h.completes ((((h.updTr truns _ _).updCore cores _ _).unstall truns _).completes)

end

section
variable {ps : List Part} {r s : State} (h : Reaches ps r s) (trust : .trust ∈ ps) (free : .free ∈ ps)
include h trust free

theorem Reaches.scanIr (ir : ℕ) : Reaches ps r (s.scanIr ir) := by
  unfold State.scanIr
  exact (h.draw free).loadIr trust _ _

theorem Reaches.debugChallengeBody : Reaches ps r (debugChallengeBody s).1 := by
  unfold Machine.debugChallengeBody
  split
  · exact h
  · dsimp only
    exact (h.drawBytes free _).updTrust trust _ (fun _ => bitsKept_refl _)

theorem Reaches.execSamplePreload : Completes ps r (execSamplePreload s) := by
  unfold Machine.execSamplePreload
  exact (h.scanIr trust free _).completes

end

section
variable {ps : List Part} {r s : State} (h : Reaches ps r s) (basin : .basin ∈ ps) (cores : .cores ∈ ps)
    (clusters : .clusters ∈ ps)
include h basin cores clusters

theorem Reaches.bistDone (o : PrimingObs) : Reaches ps r (s.bistDone o) := by
  unfold State.bistDone
  exact (Reaches.foldl (Reaches.foldl h _ fun x _ => ((Reaches.refl ps x)).updCore cores _ _) _
      fun x _ => ((Reaches.refl ps x)).updCl clusters _ _).poolDrop basin _

end

section
variable {ps : List Part} {r s : State} (h : Reaches ps r s) (cistern : .cistern ∈ ps) (mem : .mem ∈ ps)
    (hbm : .hbm ∈ ps)
include h cistern mem hbm

theorem Reaches.trainRetire (pc : ℕ) : Reaches ps r (s.trainRetire pc) := by
  unfold State.trainRetire
  exact (((h.cisternResize cistern mem _).updCistern cistern _).updHbm hbm _).updHbm hbm _

theorem Reaches.coldTrain (o : PrimingObs) : Reaches ps r (s.coldTrain o) := by
  unfold State.coldTrain
  exact Reaches.foldl ((h.updMem mem _ (fun e => e)).updCistern cistern _) _
      fun x _ => ((Reaches.refl ps x)).trainRetire cistern mem hbm _

end

section
variable {ps : List Part} {r s : State} (h : Reaches ps r s) (cores : .cores ∈ ps) (clusters : .clusters ∈ ps)
    (faults : .faults ∈ ps)
include h cores clusters faults

theorem Reaches.setUnit (unit : ℕ) (index : ℕ) (off : Bool) : Reaches ps r (s.setUnit unit index off) := by
  unfold State.setUnit
  exact Reaches.ite ((Reaches.ite h (h.unfence faults _ _)).updCl clusters _ _)
      ((Reaches.ite h (h.unfence faults _ _)).updCore cores _ _)

theorem Reaches.coreCorrected (core : ℕ) (array : ℕ) : Reaches ps r (s.coreCorrected core array) := by
  unfold State.coreCorrected
  exact Reaches.ite h (Reaches.ite (((h.updCore cores _ _).errCnt faults _ _).updL2 clusters _ _)
      ((h.updCore cores _ _).errCnt faults _ _))

end

section
variable {ps : List Part} {r s : State} (h : Reaches ps r s) (cores : .cores ∈ ps) (clusters : .clusters ∈ ps)
    (mem : .mem ∈ ps)
include h cores clusters mem

theorem Reaches.coreFlush (core : ℕ) (poison : Bool) : Reaches ps r (s.coreFlush core poison) := by
  unfold State.coreFlush
  exact (Reaches.foldl h _ fun x _ => ((Reaches.refl ps x)).l2Merge clusters mem _ _).updCore cores _ _

theorem Reaches.cleanLine (core : ℕ) (no : ℕ) (all : Bool) : Reaches ps r (s.cleanLine core no all) := by
  unfold State.cleanLine
  dsimp only
  split
  · refine Reaches.l2Clean ?_ clusters mem _ _
    split
    · exact Reaches.ite h ((h.l2Merge clusters mem _ _).updCore cores _ _)
    · exact h
  · split
    · exact Reaches.ite h ((h.l2Merge clusters mem _ _).updCore cores _ _)
    · exact h

theorem Reaches.textWritten (core : ℕ) (no : ℕ) : Reaches ps r (s.textWritten core no) := by
  unfold State.textWritten
  exact Reaches.foldl (h.cleanLine cores clusters mem _ _ _) _ fun x _ => ((Reaches.refl ps x)).updCore cores _ _

theorem Reaches.pokeLine (core : ℕ) (h' : ℕ) (bs : List Byte) : Reaches ps r (s.pokeLine core h' bs) := by
  unfold State.pokeLine
  dsimp only
  split
  · exact h.updCore cores _ _
  · exact h.l2Merge clusters mem _ _

theorem Reaches.fetchLine (t : ℕ) : Reaches ps r (s.fetchLine t) := by
  unfold State.fetchLine
  dsimp only
  split
  · exact h.updCore cores _ _
  · exact ((h.l2Count clusters _ _).l2Get clusters mem _ _).updCore cores _ _

theorem Reaches.maintLine (core : ℕ) (no : ℕ) (op : ℕ) (all : Bool) : Reaches ps r (s.maintLine core no op all) := by
  unfold State.maintLine
  split
  · exact h.cleanLine cores clusters mem _ _ _
  · exact h.invalLine cores clusters _ _ _
  · exact (h.cleanLine cores clusters mem _ _ _).invalLine cores clusters _ _ _

theorem Reaches.maintOp (t : ℕ) (no : ℕ) (op : ℕ) (all : Bool) : Reaches ps r (s.maintOp t no op all) := by
  unfold State.maintOp
  exact Reaches.ite (h.updCore cores _ _) ((h.updCore cores _ _).maintLine cores clusters mem _ _ _ _)

theorem Reaches.execClusterOffIdle (cluster : ℕ) : Completes ps r (execClusterOffIdle cluster s) := by
  unfold Machine.execClusterOffIdle
  exact Completes.ite h.completes ((((Reaches.foldl h _ fun x _ => ((Reaches.refl ps x)).coreFlush cores clusters
      mem _ _).l2Flush clusters mem _ _).updCl clusters _ _).completes)

end

section
variable {ps : List Part} {r s : State} (h : Reaches ps r s) (cores : .cores ∈ ps) (clusters : .clusters ∈ ps)
    (power : .power ∈ ps)
include h cores clusters power

theorem Reaches.wakeCluster (c : ℕ) : Reaches ps r (s.wakeCluster c) := by
  unfold State.wakeCluster
  exact Reaches.ite h (Reaches.ite (Reaches.foldl ((h.updCl clusters _ _).countWake power _) _
      fun x _ => ((Reaches.refl ps x)).ungate cores power _) (h.updCl clusters _ _))

theorem Reaches.wakeThread (t : ℕ) : Reaches ps r (s.wakeThread t) := by
  unfold State.wakeThread
  exact ((h.wakeCluster cores clusters power _).ungate cores power _).countWake power _

theorem Reaches.execClusterWakeDispatch : Completes ps r (execClusterWakeDispatch s) := by
  unfold Machine.execClusterWakeDispatch
  dsimp only
  split
  · exact h.completes
  · split
    · exact (h.wakeCluster cores clusters power _).completes
    · exact h.completes

end

section
variable {ps : List Part} {r s : State} (h : Reaches ps r s) (egress : .egress ∈ ps) (hbm : .hbm ∈ ps)
    (power : .power ∈ ps)
include h egress hbm power

theorem Reaches.execRefillRead (queue : ℕ) : Completes ps r (execRefillRead queue s) := by
  unfold Machine.execRefillRead
  dsimp only
  split
  · exact h.completes
  · split
    · exact Completes.ite h.completes (((Reaches.foldl (h.setQueue egress _ _) _
          fun x _ => ((Reaches.refl ps x)).spillReq hbm power _ _ _).updPump egress _ _).completes)
    · split
      · exact Completes.ite ((h.setQueue egress _ _).completes) h.completes
      · exact h.completes

end

section
variable {ps : List Part} {r s : State} (h : Reaches ps r s) (net : .net ∈ ps) (basin : .basin ∈ ps)
    (egress : .egress ∈ ps)
include h net basin egress

theorem Reaches.moveNet (a : Nat) : Reaches ps r (s.moveNet a) :=
  ((h.with_net net (s.moveNet a).net).with_basin basin (s.moveNet a).basin).with_egress egress (s.moveNet a).egress

end

section
variable {ps : List Part} {r s : State} (h : Reaches ps r s) (net : .net ∈ ps) (egress : .egress ∈ ps)
    (clusters : .clusters ∈ ps)
include h net egress clusters

theorem Reaches.powerOff : Reaches ps r s.powerOff := by
  unfold State.powerOff
  exact Reaches.foldl ((h.updNet net _).with_egress egress _) _ fun x _ => ((Reaches.refl ps x)).updCl clusters _ _

end

section
variable {ps : List Part} {r s : State} (h : Reaches ps r s) (net : .net ∈ ps) (order : .order ∈ ps)
    (truns : .truns ∈ ps)
include h net order truns

theorem Reaches.unplace (p : ℕ) : Reaches ps r (s.unplace p) := by
  unfold State.unplace
  split
  · exact h.listDrop order _
  · exact h.updTr truns _ _
  · exact h.updWell net _ _
  · exact h

end

section
variable {ps : List Part} {r s : State} (h : Reaches ps r s) (order : .order ∈ ps) (egress : .egress ∈ ps)
    (dci : .dci ∈ ps)
include h order egress dci

theorem Reaches.dispose (p : ℕ) (code : ℕ) (sub : ℕ) : Reaches ps r (s.dispose p code sub) := by
  unfold State.dispose
  exact Reaches.ite (h.updRc order _ _) (((h.updRc order _ _).sump egress _ _ _).sample egress dci _ _ _ _ _ _ _)

theorem Reaches.quietEnd (p : ℕ) (j : PendJ) : Reaches ps r (s.quietEnd p j) := by
  unfold State.quietEnd
  split
  · exact h.dispose order egress dci _ _ _
  · exact (h.sump egress _ _ _).sample egress dci _ _ _ _ _ _ _
  · exact Reaches.ite h (Reaches.ite (h.dispose order egress dci _ _ _)
        (Reaches.ite (h.dispose order egress dci _ _ _) (h.dispose order egress dci _ _ _)))

end

section
variable {ps : List Part} {r s : State} (h : Reaches ps r s) (order : .order ∈ ps) (truns : .truns ∈ ps)
    (cores : .cores ∈ ps)
include h order truns cores

theorem Reaches.coreLeave (core : ℕ) (by_ : Option CmdRef) : Reaches ps r (s.coreLeave core by_) := by
  unfold State.coreLeave
  exact Reaches.foldl (h.updCore cores _ _) _ fun x _ => ((Reaches.refl ps x)).returnNext order truns _

end

section
variable {ps : List Part} {r s : State} (h : Reaches ps r s) (out : .out ∈ ps) (basin : .basin ∈ ps)
    (egress : .egress ∈ ps)
include h out basin egress

theorem Reaches.charge (ents : List ℕ) (kind : ℕ) : Reaches ps r (s.charge ents kind) := by
  unfold State.charge
  exact (Reaches.ite ((Reaches.foldl h _ fun x _ => ((Reaches.refl ps x)).updEnt basin _ _).with_basin basin _)
      (Reaches.foldl h _ fun x _ => ((Reaches.refl ps x)).updEnt basin _ _)).fcAfter out egress _

theorem Reaches.uncharge (ents : List ℕ) : Reaches ps r (s.uncharge ents) := by
  unfold State.uncharge
  split
  · exact h
  · exact (Reaches.ite ((Reaches.foldl h _ fun x _ => ((Reaches.refl ps x)).updEnt basin _ _).with_basin basin _)
        (Reaches.foldl h _ fun x _ => ((Reaches.refl ps x)).updEnt basin _ _)).fcAfter out egress _

theorem Reaches.allocCells (who : Nat) (ents : List Nat) (n : Nat) (got : List Nat) :
    Reaches ps r (s.allocCells who ents n got).1 := by
  induction n generalizing s got with
  | zero => exact h
  | succ n ih =>
    have undo {x : State} (k : Reaches ps r x) :
        Reaches ps r (got.foldl (fun acc c => (acc.dropCell c).uncharge ents) x) :=
      k.foldl _ fun y _ => ((Reaches.refl ps y).dropCell basin _).uncharge out basin egress _
    unfold State.allocCells
    dsimp only
    split
    · split
      · exact undo (h.failCount basin _ _)
      · split
        · exact undo (h.failCount basin _ _)
        · exact ih ((((h.requested basin _ _).takeCell basin _).charge out basin egress _ _).granted basin _ _) _
    · exact undo (h.failCount basin _ _)

theorem Reaches.freeBuf (head : ℕ) : Reaches ps r (s.freeBuf head) := by
  unfold State.freeBuf
  split
  · exact h
  · exact Reaches.foldl (h.with_basin basin _) _ fun x _ => (((Reaches.refl ps x)).dropCell basin _).uncharge out
        basin egress _

theorem Reaches.settle (head : ℕ) : Reaches ps r (s.settle head) := by
  unfold State.settle
  split
  · exact Reaches.ite (h.freeBuf out basin egress _) h
  · exact h

theorem Reaches.decRef (head : ℕ) : Reaches ps r (s.decRef head) := by
  unfold State.decRef
  exact (h.updBuf basin _ _).settle out basin egress _

theorem Reaches.refCounts (p : ℕ) (run : RunSt) (made : List Made) : Reaches ps r (s.refCounts p run made) := by
  unfold State.refCounts
  dsimp only
  split
  · exact ((Reaches.foldl (Reaches.foldl h _ fun x _ => ((Reaches.refl ps x)).updBuf basin _ _) _
        fun x _ => ((Reaches.refl ps x)).updBuf basin _ _).updBuf basin _ _).settle out basin egress _
  · exact Reaches.foldl (Reaches.foldl h _ fun x _ => ((Reaches.refl ps x)).updBuf basin _ _) _
        fun x _ => ((Reaches.refl ps x)).updBuf basin _ _

theorem Reaches.freeProv (p : ℕ) (run : RunSt) : Reaches ps r (s.freeProv p run) := by
  unfold State.freeProv
  exact Reaches.foldl h _ fun x _ => Reaches.ite (((Reaches.refl ps x)).freeBuf out basin egress _)
      ((Reaches.refl ps x))

theorem Reaches.restartBuffers : Reaches ps r s.restartBuffers := by
  unfold State.restartBuffers
  exact Reaches.ite ((Reaches.foldl h _ fun x _ => ((Reaches.refl ps x)).freeBuf out basin egress _).updBasin basin _)
      (Reaches.foldl h _ fun x _ => ((Reaches.refl ps x)).freeBuf out basin egress _)

theorem Reaches.rebuildOwner (h' : ℕ) : Reaches ps r (s.rebuildOwner h') := by
  unfold State.rebuildOwner
  split
  · exact h
  · exact Reaches.ite h (Reaches.ite (h.freeBuf out basin egress _) (h.updBuf basin _ _))

theorem Reaches.refillOne (queue : ℕ) (pn : ℕ) (r' : SpillRec Copy) : Maybe ps r (s.refillOne queue pn r') := by
  unfold State.refillOne
  split
  · rename_i eq
    have k := Reaches.of_fst eq (h.allocCells out basin egress _ _ _ _)
    dsimp only
    exact ((k.setBuf basin _ _).updQueue egress _ _).maybe
  · exact Maybe.none

theorem Reaches.unchargeBuf (h' : ℕ) : Reaches ps r (s.unchargeBuf h') := by
  unfold State.unchargeBuf
  split
  · exact h
  · exact (Reaches.foldl h _ fun x _ => ((Reaches.refl ps x)).uncharge out basin egress _).updBuf basin _ _

end

section
variable {ps : List Part} {r s : State} (h : Reaches ps r s) (out : .out ∈ ps) (clusters : .clusters ∈ ps)
    (dci : .dci ∈ ps)
include h out clusters dci

theorem Reaches.drainEnd (c : ℕ) : Reaches ps r (s.drainEnd c) := by
  unfold State.drainEnd
  split
  · exact h
  · exact (h.updCl clusters _ _).answerAll out dci _ _ _

end

section
variable {ps : List Part} {r s : State} (h : Reaches ps r s) (out : .out ∈ ps) (dci : .dci ∈ ps)
    (faults : .faults ∈ ps)
include h out dci faults

theorem Reaches.event (code : ℕ) (fields : List (ℕ × ℕ)) : Reaches ps r (s.event code fields) := by
  unfold State.event
  exact (Reaches.foldl h _ fun x _ => ((Reaches.refl ps x)).eventOn out dci _ _ _ _).logEvent faults _ _ _

theorem Reaches.portEvent (subject : ℕ) (type : ℕ) (reason : ℕ) (detail : List Byte) : Reaches ps r
    (s.portEvent subject type reason detail) := by
  unfold State.portEvent
  exact h.event out dci faults _ _

theorem Reaches.cageEvent (k : ℕ) (type : ℕ) (detail : List Byte) : Reaches ps r (s.cageEvent k type detail) := by
  unfold State.cageEvent
  exact h.portEvent out dci faults _ _ _ _

theorem Reaches.timeEvent (old : DtState) (new : DtState) (reason : ℕ) : Reaches ps r (s.timeEvent old new reason)
    := by
  unfold State.timeEvent
  exact h.event out dci faults _ _

theorem Reaches.setDev (n : DevState) (cause : ℕ) : Reaches ps r (s.setDev n cause) := by
  unfold State.setDev
  exact Reaches.ite h (Reaches.ite (Reaches.foldl (h.updDci dci _) _ fun x _ => ((Reaches.refl ps x)).irq out dci _ _)
      ((Reaches.foldl (h.updDci dci _) _ fun x _ => ((Reaches.refl ps x)).irq out dci _ _).event out dci faults _ _))

theorem Reaches.faultEvent (unit : ℕ) (cause : ℕ) (idx : ℕ) (info : ℕ) : Reaches ps r
    (s.faultEvent unit cause idx info) := by
  unfold State.faultEvent
  exact h.event out dci faults _ _

theorem Reaches.bufferError (e : BufErr) (loc : ℕ) : Reaches ps r (s.bufferError e loc) := by
  unfold State.bufferError
  exact (h.errCnt faults _ _).event out dci faults _ _

theorem Reaches.fwState (slot : ℕ) (st : ℕ) : Reaches ps r (s.fwState slot st) := by
  unfold State.fwState
  exact h.event out dci faults _ _

theorem Reaches.leaveRestart (st : DevState) (cause : ℕ) : Reaches ps r (s.leaveRestart st cause) := by
  unfold State.leaveRestart
  exact (Reaches.foldl ((h.event out dci faults _ _).with_dci dci _) _
      fun x _ => (((Reaches.refl ps x)).putWaiting out dci _).irq out dci _ _).event out dci faults _ _

theorem Reaches.leaseChange (cause : ℕ) : Reaches ps r (s.leaseChange cause) := by
  unfold State.leaseChange
  exact h.event out dci faults _ _

theorem Reaches.quiesceEvent (level : ℕ) : Reaches ps r (s.quiesceEvent level) := by
  unfold State.quiesceEvent
  exact h.event out dci faults _ _

theorem Reaches.restarted (f : HostFn) : Reaches ps r (s.restarted f) := by
  unfold State.restarted
  exact (h.eventOn out dci _ _ _ _).logEvent faults _ _ _

theorem Reaches.leaseConfigBody (timeoutMs : ℕ) : Reaches ps r (leaseConfigBody timeoutMs s).1 := by
  unfold Machine.leaseConfigBody
  split
  · exact h
  · split
    · exact h
    · dsimp only
      exact (Reaches.ite ((h.updDci dci _).renew dci) (h.updDci dci _)).leaseChange out dci faults _

theorem Reaches.leaseReleaseBody (f : HostFn) : Reaches ps r (leaseReleaseBody f s).1 := by
  unfold Machine.leaseReleaseBody
  split
  · dsimp only
    exact (h.updDci dci _).leaseChange out dci faults _
  · exact h

theorem Reaches.leaseClaimBody (f : HostFn) : Reaches ps r (leaseClaimBody f s).1 := by
  unfold Machine.leaseClaimBody
  dsimp only
  split
  · dsimp only
    exact ((h.updDci dci _).renew dci).leaseChange out dci faults _
  · split
    · dsimp only
      exact h.renew dci
    · exact h

theorem Reaches.execLeaseExpiry : Completes ps r (execLeaseExpiry s) := by
  unfold Machine.execLeaseExpiry
  dsimp only
  exact Completes.ite (((h.updDci dci _).leaseChange out dci faults _).completes) h.completes

end

section
variable {ps : List Part} {r s : State} (h : Reaches ps r s) (out : .out ∈ ps) (egress : .egress ∈ ps)
    (dci : .dci ∈ ps)
include h out egress dci

theorem Reaches.flushCheck (c : CmdRef) : Reaches ps r (s.flushCheck c) := by
  unfold State.flushCheck
  exact Reaches.ite ((Reaches.foldl h _ fun x _ => ((Reaches.refl ps x)).updQueue egress _ _).answer out dci _ _) h

end

section
variable {ps : List Part} {r s : State} (h : Reaches ps r s) (out : .out ∈ ps) (ledger : .ledger ∈ ps)
    (dci : .dci ∈ ps)
include h out ledger dci

theorem Reaches.execLedgerReadDone (c : CmdRef) : Completes ps r (execLedgerReadDone c s) := by
  unfold Machine.execLedgerReadDone
  split
  · exact h.completes
  · split
    · exact h.completes
    · dsimp only
      split
      · exact ((h.updLedger ledger _).answer out dci _ _).completes
      · exact ((h.updLedger ledger _).answer out dci _ _).completes

end

section
variable {ps : List Part} {r s : State} (h : Reaches ps r s) (out : .out ∈ ps) (net : .net ∈ ps) (dci : .dci ∈ ps)
include h out net dci

theorem Reaches.graphSwitch (w : ℕ) : Reaches ps r (s.graphSwitch w) := by
  unfold State.graphSwitch
  split
  · exact h
  · exact Reaches.ite h (Reaches.ite (h.updWell net _ _) (((h.updWell net _ _).updNet net _).finish out
        dci _ _ _ _ _))

theorem Reaches.execGraphSwitchTimeout (well : ℕ) : Completes ps r (execGraphSwitchTimeout well s) := by
  unfold Machine.execGraphSwitchTimeout
  split
  · exact Completes.ite h.completes ((h.graphSwitch out net dci _).completes)
  · exact h.completes

end

section
variable {ps : List Part} {r s : State} (h : Reaches ps r s) (out : .out ∈ ps) (tables : .tables ∈ ps)
    (dci : .dci ∈ ps)
include h out tables dci

theorem Reaches.execTableBatchDone (c : CmdRef) : Completes ps r (execTableBatchDone c s) := by
  unfold Machine.execTableBatchDone
  split
  · exact h.completes
  · exact Completes.ite h.completes (((h.updTables tables _).answer out dci _ _).completes)

end

section
variable {ps : List Part} {r s : State} (h : Reaches ps r s) (out : .out ∈ ps) (tables : .tables ∈ ps)
    (free : .free ∈ ps)
include h out tables free

theorem Reaches.execDigestScrubBlock (tbl : ℕ) : Completes ps r (execDigestScrubBlock tbl s) := by
  unfold Machine.execDigestScrubBlock
  dsimp only
  split
  · exact h.completes
  · exact Completes.ite h.completes (Completes.ite (((h.draw free).updTables tables _).completes)
        ((((((h.draw free).tblOp tables free _ _ _ _ _ _).hostWrite out _ _ _).hostWrite out _ _ _).updTables
        tables _).completes))

end

section
variable {ps : List Part} {r s : State} (h : Reaches ps r s) (thrs : .thrs ∈ ps) (cores : .cores ∈ ps)
    (clusters : .clusters ∈ ps)
include h thrs cores clusters

theorem Reaches.loadImage (c : ℕ) (version : ℕ) : Reaches ps r (s.loadImage c version) := by
  unfold State.loadImage
  exact (Reaches.foldl ((Reaches.foldl h _ fun x _ => ((Reaches.refl ps x)).updCore cores _ _).updL2 clusters _ _) _
      fun x _ => ((Reaches.refl ps x)).updThr thrs _ _).updCl clusters _ _

theorem Reaches.clusterLoadBody (cl : ℕ) (version : ℕ) : Reaches ps r (clusterLoadBody cl version s).1 := by
  unfold Machine.clusterLoadBody
  dsimp only
  split
  · exact h
  · split
    · exact h
    · split
      · exact h
      · split
        · exact h
        · dsimp only
          exact h.loadImage thrs cores clusters _ _

end

section
variable {ps : List Part} {r s : State} (h : Reaches ps r s) (thrs : .thrs ∈ ps) (truns : .truns ∈ ps)
    (clusters : .clusters ∈ ps)
include h thrs truns clusters

theorem Reaches.enterHandler (t : ℕ) (c : ℕ) (detail : W64) (addr : W64) (tepc : W64) : Reaches ps r
    (s.enterHandler t c detail addr tepc) := by
  unfold State.enterHandler
  exact ((h.traceRec clusters _ _ _ _).updThr thrs _ _).updTr truns _ _

end

section
variable {ps : List Part} {r s : State} (h : Reaches ps r s) (thrs : .thrs ∈ ps) (truns : .truns ∈ ps)
    (locks : .locks ∈ ps)
include h thrs truns locks

theorem Reaches.answerWaiter (w : LkWaiter) (v : W64) : Reaches ps r (s.answerWaiter w v) := by
  unfold State.answerWaiter
  split
  · dsimp only
    split
    · exact h.updTr truns _ _
    · exact h.complete thrs truns _ _ _
  · exact h.lockAnswer locks _ _

theorem Reaches.lockPass (k : ℕ) : Reaches ps r (s.lockPass k) := by
  unfold State.lockPass
  dsimp only
  split
  · exact h.setLock locks _ _
  · exact (h.setLock locks _ _).answerWaiter thrs truns locks _ _

theorem Reaches.lockAbandon (k : ℕ) : Reaches ps r (s.lockAbandon k) := by
  unfold State.lockAbandon
  exact (h.setLock locks _ _).lockPass thrs truns locks _

theorem Reaches.abandonAll (r' : Requester) : Reaches ps r (s.abandonAll r') := by
  unfold State.abandonAll
  exact Reaches.foldl h _ fun x _ => ((Reaches.refl ps x)).lockAbandon thrs truns locks _

theorem Reaches.lockForceBody (c : CmdRef) (k : ℕ) : Reaches ps r (lockForceBody c k s).1 := by
  unfold Machine.lockForceBody
  dsimp only
  split
  · exact h
  · split
    · exact h
    · dsimp only
      exact h.lockAbandon thrs truns locks _

end

section
variable {ps : List Part} {r s : State} (h : Reaches ps r s) (truns : .truns ∈ ps) (clusters : .clusters ∈ ps)
    (locks : .locks ∈ ps)
include h truns clusters locks

theorem Reaches.abandonWait (t : ℕ) : Reaches ps r (s.abandonWait t) := by
  unfold State.abandonWait
  exact ((h.lockLeave locks _).updCl clusters _ _).updTr truns _ _

end

section
variable {ps : List Part} {r s : State} (h : Reaches ps r s) (truns : .truns ∈ ps) (cores : .cores ∈ ps)
    (clusters : .clusters ∈ ps)
include h truns cores clusters

theorem Reaches.missSeen (core t addr : Nat) : Reaches ps r (s.missSeen core t addr) := by
  unfold State.missSeen
  extract_lets w d same run s1 s2 inRange c mine s3
  have h1 : Reaches ps r s1 := h.updTr truns _ _
  have h2 : Reaches ps r s2 := .ite h1 (h1.updCore cores _ _)
  have h3 : Reaches ps r s3 := .ite h2 (.ite (h2.updCore cores _ _) h2)
  split
  · split
    · exact h3.streamAhead cores clusters _ _ _ _ _
    · exact h3
  · exact h2

theorem Reaches.cachedLoad (t : ℕ) (a : ℕ) (n : ℕ) : (s.cachedLoad t a n).reaches ps r := by
  unfold State.cachedLoad
  dsimp only
  split
  · exact trivial
  · split
    · exact h
    · split
      · split
        · exact h.updCore cores _ _
        · exact ((h.updCore cores _ _).updCore cores _ _).hitSeen cores clusters _ _ _
      · split
        · exact (h.updCore cores _ _).hitSeen cores clusters _ _ _
        · split
          · exact (((h.updCore cores _ _).startMiss cores clusters _ _ _ _).updCore cores _ _).missSeen truns cores
                clusters _ _ _
          · exact trivial

theorem Reaches.drainStore (t : ℕ) : Reaches ps r (s.drainStore t) := by
  unfold State.drainStore
  split
  · exact h
  · dsimp only
    split
    · exact ((((h.updCore cores _ _).updCore cores _ _).hitSeen cores clusters _ _ _).updTr truns _ _).unstall truns _
    · exact Reaches.ite ((h.updCore cores _ _).hitSeen cores clusters _ _ _)
          (Reaches.ite ((((h.updCore cores _ _).startMiss cores clusters _ _ _ _).updCore cores _ _).missSeen truns
          cores clusters _ _ _) (h.updCore cores _ _))

theorem Reaches.execStoreBufferDrain (t : ℕ) : Completes ps r (execStoreBufferDrain t s) := by
  unfold Machine.execStoreBufferDrain
  exact (h.drainStore truns cores clusters _).completes

end

section
variable {ps : List Part} {r s : State} (h : Reaches ps r s) (cores : .cores ∈ ps) (clusters : .clusters ∈ ps)
    (hbm : .hbm ∈ ps) (power : .power ∈ ps)
include h cores clusters hbm power

theorem Reaches.applyT : Reaches ps r s.applyT := by
  unfold State.applyT
  exact Reaches.ite (Reaches.ite (Reaches.foldl (Reaches.foldl h _ fun x _ => Reaches.ite
      (((Reaches.refl ps x)).wakeCluster cores clusters power _) ((Reaches.refl ps x))) _
      fun x _ => ((Reaches.refl ps x)).ungate cores power _) (Reaches.foldl h _ fun x _ => Reaches.ite
      (((Reaches.refl ps x)).wakeCluster cores clusters power _) ((Reaches.refl ps x))))
      (((Reaches.ite (Reaches.foldl (Reaches.foldl h _ fun x _ => Reaches.ite
      (((Reaches.refl ps x)).wakeCluster cores clusters power _) ((Reaches.refl ps x))) _
      fun x _ => ((Reaches.refl ps x)).ungate cores power _) (Reaches.foldl h _ fun x _ => Reaches.ite
      (((Reaches.refl ps x)).wakeCluster cores clusters power _) ((Reaches.refl ps x)))).wakeStack hbm
      power _).wakeStack hbm power _)

theorem Reaches.classActive (c : ℕ) : Reaches ps r (s.classActive c) := by
  unfold State.classActive
  exact Reaches.ite h ((h.updPower power _).applyT cores clusters hbm power)

theorem Reaches.classFrame (c : ℕ) : Reaches ps r (s.classFrame c) := by
  unfold State.classFrame
  exact (h.updPower power _).classActive cores clusters hbm power _

theorem Reaches.execPrewake (part : ℕ) : Completes ps r (execPrewake part s) := by
  unfold Machine.execPrewake
  split
  · exact h.completes
  · split
    · exact h.completes
    · dsimp only
      exact (Reaches.ite ((h.updPower power _).wakeCluster cores clusters power _)
          (Reaches.ite ((h.updPower power _).wakeStack hbm power _)
          ((h.updPower power _).ungate cores power _))).completes

theorem Reaches.execClassIdle (cls : ℕ) : Completes ps r (execClassIdle cls s) := by
  unfold Machine.execClassIdle
  exact Completes.ite h.completes (((h.updPower power _).applyT cores clusters hbm power).completes)

theorem Reaches.powerPolicyBody (tol : List W32) : Reaches ps r (powerPolicyBody tol s).1 := by
  unfold Machine.powerPolicyBody
  dsimp only
  exact (h.updPower power _).applyT cores clusters hbm power

end

section
variable {ps : List Part} {r s : State} (h : Reaches ps r s) (order : .order ∈ ps) (truns : .truns ∈ ps)
    (cores : .cores ∈ ps) (faults : .faults ∈ ps)
include h order truns cores faults

theorem Reaches.coreOut (core : ℕ) : Reaches ps r (s.coreOut core) := by
  unfold State.coreOut
  exact Reaches.ite h ((h.fencePart faults _ _).coreLeave order truns cores _ _)

end

section
variable {ps : List Part} {r s : State} (h : Reaches ps r s) (out : .out ∈ ps) (basin : .basin ∈ ps) (dci : .dci ∈ ps)
    (faults : .faults ∈ ps)
include h out basin dci faults

theorem Reaches.badFree (reason : ℕ) (reqTag : ℕ) (bufTag : ℕ) (handle : ℕ) : Reaches ps r
    (s.badFree reason reqTag bufTag handle) := by
  unfold State.badFree
  exact Reaches.ite (((h.with_basin basin _).with_basin basin _).event out dci faults _ _)
      ((h.with_basin basin _).with_basin basin _)

theorem Reaches.readError (c : Copy) (err : Option BufErr) : Reaches ps r (s.readError c err).1 := by
  unfold State.readError
  split
  · dsimp only
    exact (h.bufferError out dci faults _ _).cellFault basin _
  · dsimp only
    exact (h.bufferError out dci faults _ _).breakLink basin _ _
  · dsimp only
    exact ((h.bufferError out dci faults _ _).updBuf basin _ _).rebuildBegin basin
  · dsimp only
    exact (h.bufferError out dci faults _ _).fenceWord basin _
  · exact h

end

section
variable {ps : List Part} {r s : State} (h : Reaches ps r s) (out : .out ∈ ps) (basin : .basin ∈ ps)
    (egress : .egress ∈ ps) (truns : .truns ∈ ps)
include h out basin egress truns

theorem Reaches.portLoad (t : ℕ) (n : ℕ) : Reaches ps r (s.portLoad t n).1 := by
  unfold State.portLoad
  dsimp only
  split
  · exact h
  · split
    · exact h
    · split
      · rename_i eq
        have k := Reaches.of_fst eq (h.allocCells out basin egress _ _ _ _)
        dsimp only
        exact (k.setBuf basin _ _).updRun truns _ _
      · rename_i eq
        have k := Reaches.of_fst eq (h.allocCells out basin egress _ _ _ _)
        exact k
      · rename_i eq
        have k := Reaches.of_fst eq (h.allocCells out basin egress _ _ _ _)
        exact k

end

section
variable {ps : List Part} {r s : State} (h : Reaches ps r s) (out : .out ∈ ps) (clusters : .clusters ∈ ps)
    (dci : .dci ∈ ps) (faults : .faults ∈ ps)
include h out clusters dci faults

theorem Reaches.partDone (r' : ResetRun) : Reaches ps r (s.partDone r') := by
  unfold State.partDone
  exact Reaches.foldl ((Reaches.ite (((h.updFaults faults _ (fun e => e)).unfence faults _ _).updCl clusters _ _)
      (h.updFaults faults _ (fun e => e))).event out dci faults _ _) _ fun x _ => ((Reaches.refl ps x)).finish out
      dci _ _ _ _ _

theorem Reaches.execPartResetDone (kind : ℕ) (index : ℕ) : Completes ps r (execPartResetDone kind index s) := by
  unfold Machine.execPartResetDone
  split
  · exact h.completes
  · exact Completes.ite h.completes ((h.partDone out clusters dci faults _).completes)

end

section
variable {ps : List Part} {r s : State} (h : Reaches ps r s) (out : .out ∈ ps) (dci : .dci ∈ ps)
    (faults : .faults ∈ ps) (free : .free ∈ ps)
include h out dci faults free

theorem Reaches.deviceFault : Reaches ps r s.deviceFault := by
  unfold State.deviceFault
  exact ((h.draw free).draw free).faultEvent out dci faults _ _ _ _

theorem Reaches.toFault (cause : ℕ) : Reaches ps r (s.toFault cause) := by
  unfold State.toFault
  exact Reaches.ite h ((h.setDev out dci faults _ _).deviceFault out dci faults free)

theorem Reaches.raiseFault (kind : ℕ) (idx : ℕ) (cause : ℕ) : Reaches ps r (s.raiseFault kind idx cause) := by
  unfold State.raiseFault
  exact (h.draw free).faultEvent out dci faults _ _ _ _

theorem Reaches.fenceNotice (op : ℕ) (p : List Byte) : Reaches ps r (s.fenceNotice op p) := by
  unfold State.fenceNotice
  split
  · exact Reaches.ite (h.raiseFault out dci faults free _ _ _) h
  · exact h

theorem Reaches.command (c : CmdRef) (op : Nat) (fields : List (Nat × Nat)) (body : State → State × Ans)
    (k : ∀ x, Reaches ps x (body x).1) : Completes ps r (s.command c op fields body) := by
  have told : Reaches ps r (s.fenceNotice op (layout fields)) := h.fenceNotice out dci faults free _ _
  unfold State.command
  dsimp only
  split
  · split
    · exact (h.answer out dci _ _).completes
    · exact ((Reaches.ite told (told.trans (k _))).answer out dci _ _).completes
  · exact h.completes

theorem Reaches.primeFault (step : ℕ) (cause : ℕ) : Reaches ps r (s.primeFault step cause) := by
  unfold State.primeFault
  exact (h.setStep dci _).toFault out dci faults free _

theorem Reaches.execHbmStats (c : CmdRef) : Completes ps r (execHbmStats c s) := by
  unfold Machine.execHbmStats
  exact h.command out dci faults free _ _ _ _ (fun x => ((Reaches.refl ps x)).hbmStatsBody)

theorem Reaches.execHbmPartitionRead (c : CmdRef) : Completes ps r (execHbmPartitionRead c s) := by
  unfold Machine.execHbmPartitionRead
  exact h.command out dci faults free _ _ _ _ (fun x => ((Reaches.refl ps x)).hbmPartitionReadBody)

theorem Reaches.execIdentityCert (c : CmdRef) : Completes ps r (execIdentityCert c s) := by
  unfold Machine.execIdentityCert
  exact h.command out dci faults free _ _ _ _ (fun x => ((Reaches.refl ps x)).identityCertBody)

theorem Reaches.execAttest (c : CmdRef) (nonce : List Byte) : Completes ps r (execAttest c nonce s) := by
  unfold Machine.execAttest
  exact h.command out dci faults free _ _ _ _ (fun x => ((Reaches.refl ps x)).attestBody free _)

theorem Reaches.execTraceRead (c : CmdRef) (cluster : ℕ) : Completes ps r (execTraceRead c cluster s) := by
  unfold Machine.execTraceRead
  exact h.command out dci faults free _ _ _ _ (fun x => ((Reaches.refl ps x)).guarded _
      (fun x => ((Reaches.refl ps x)).traceReadBody _))

theorem Reaches.execDebugRead (c : CmdRef) (thread : ℕ) (space : ℕ) (addr : ℕ) (len : ℕ) : Completes ps r
    (execDebugRead c thread space addr len s) := by
  unfold Machine.execDebugRead
  exact h.command out dci faults free _ _ _ _ (fun x => ((Reaches.refl ps x)).guarded _
      (fun x => ((Reaches.refl ps x)).debugReadBody free _ _ _ _))

theorem Reaches.execErrorStats (c : CmdRef) : Completes ps r (execErrorStats c s) := by
  unfold Machine.execErrorStats
  exact h.command out dci faults free _ _ _ _ (fun x => ((Reaches.refl ps x)).errorStatsBody)

theorem Reaches.execFaultLogRead (c : CmdRef) (frm : W32) (count : ℕ) : Completes ps r
    (execFaultLogRead c frm count s) := by
  unfold Machine.execFaultLogRead
  exact h.command out dci faults free _ _ _ _ (fun x => ((Reaches.refl ps x)).faultLogReadBody _ _)

theorem Reaches.execPowerStatus (c : CmdRef) : Completes ps r (execPowerStatus c s) := by
  unfold Machine.execPowerStatus
  exact h.command out dci faults free _ _ _ _ (fun x => ((Reaches.refl ps x)).powerStatusBody)

theorem Reaches.execSumpStats (c : CmdRef) : Completes ps r (execSumpStats c s) := by
  unfold Machine.execSumpStats
  exact h.command out dci faults free _ _ _ _ (fun x => ((Reaches.refl ps x)).sumpStatsBody)

theorem Reaches.execQueueStats (c : CmdRef) (first : ℕ) (count : ℕ) : Completes ps r (execQueueStats c first count s)
    := by
  unfold Machine.execQueueStats
  exact h.command out dci faults free _ _ _ _ (fun x => ((Reaches.refl ps x)).queueStatsBody _ _)

theorem Reaches.execLedgerStats (c : CmdRef) : Completes ps r (execLedgerStats c s) := by
  unfold Machine.execLedgerStats
  exact h.command out dci faults free _ _ _ _ (fun x => ((Reaches.refl ps x)).ledgerStatsBody)

theorem Reaches.execLedgerInfo (c : CmdRef) : Completes ps r (execLedgerInfo c s) := by
  unfold Machine.execLedgerInfo
  exact h.command out dci faults free _ _ _ _ (fun x => ((Reaches.refl ps x)).ledgerInfoBody)

theorem Reaches.execChannelStatus (c : CmdRef) (cluster : ℕ) (first : ℕ) (count : ℕ) : Completes ps r
    (execChannelStatus c cluster first count s) := by
  unfold Machine.execChannelStatus
  exact h.command out dci faults free _ _ _ _ (fun x => ((Reaches.refl ps x)).channelStatusBody _ _ _)

theorem Reaches.execTaskStatus (c : CmdRef) (cluster : ℕ) : Completes ps r (execTaskStatus c cluster s) := by
  unfold Machine.execTaskStatus
  exact h.command out dci faults free _ _ _ _ (fun x => ((Reaches.refl ps x)).taskStatusBody _)

theorem Reaches.execOrderStats (c : CmdRef) : Completes ps r (execOrderStats c s) := by
  unfold Machine.execOrderStats
  exact h.command out dci faults free _ _ _ _ (fun x => ((Reaches.refl ps x)).orderStatsBody)

theorem Reaches.execDomainStatus (c : CmdRef) (first : ℕ) (count : ℕ) : Completes ps r
    (execDomainStatus c first count s) := by
  unfold Machine.execDomainStatus
  exact h.command out dci faults free _ _ _ _ (fun x => ((Reaches.refl ps x)).domainStatusBody _ _)

theorem Reaches.execCoreStats (c : CmdRef) (core : ℕ) : Completes ps r (execCoreStats c core s) := by
  unfold Machine.execCoreStats
  exact h.command out dci faults free _ _ _ _ (fun x => ((Reaches.refl ps x)).coreStatsBody _)

theorem Reaches.execTableStats (c : CmdRef) (table : ℕ) : Completes ps r (execTableStats c table s) := by
  unfold Machine.execTableStats
  exact h.command out dci faults free _ _ _ _ (fun x => ((Reaches.refl ps x)).tableStatsBody _)

theorem Reaches.execIntakeStats (c : CmdRef) (port : ℕ) : Completes ps r (execIntakeStats c port s) := by
  unfold Machine.execIntakeStats
  exact h.command out dci faults free _ _ _ _ (fun x => ((Reaches.refl ps x)).intakeStatsBody _)

theorem Reaches.execModuleStatus (c : CmdRef) (slot : ℕ) : Completes ps r (execModuleStatus c slot s) := by
  unfold Machine.execModuleStatus
  exact h.command out dci faults free _ _ _ _ (fun x => ((Reaches.refl ps x)).moduleStatusBody _)

theorem Reaches.execPortStatus (c : CmdRef) (port : ℕ) : Completes ps r (execPortStatus c port s) := by
  unfold Machine.execPortStatus
  exact h.command out dci faults free _ _ _ _ (fun x => ((Reaches.refl ps x)).portStatusBody _)

theorem Reaches.execLeaseConfig (c : CmdRef) (timeoutMs : ℕ) : Completes ps r (execLeaseConfig c timeoutMs s) := by
  unfold Machine.execLeaseConfig
  exact h.command out dci faults free _ _ _ _ (fun x => ((Reaches.refl ps x)).leaseConfigBody out dci faults _)

theorem Reaches.execLeaseRelease (c : CmdRef) : Completes ps r (execLeaseRelease c s) := by
  unfold Machine.execLeaseRelease
  exact h.command out dci faults free _ _ _ _ (fun x => ((Reaches.refl ps x)).leaseReleaseBody out dci faults _)

theorem Reaches.execLeaseClaim (c : CmdRef) : Completes ps r (execLeaseClaim c s) := by
  unfold Machine.execLeaseClaim
  exact h.command out dci faults free _ _ _ _ (fun x => ((Reaches.refl ps x)).leaseClaimBody out dci faults _)

theorem Reaches.execDeviceInfo (c : CmdRef) : Completes ps r (execDeviceInfo c s) := by
  unfold Machine.execDeviceInfo
  exact h.command out dci faults free _ _ _ _ (fun x => ((Reaches.refl ps x)).deviceInfoBody _)

theorem Reaches.execNopC (c : CmdRef) : Completes ps r (execNopC c s) := by
  unfold Machine.execNopC
  exact h.command out dci faults free _ _ _ _ (fun x => (Reaches.refl ps x))

end

section
variable {ps : List Part} {r s : State} (h : Reaches ps r s) (out : .out ∈ ps) (dci : .dci ∈ ps)
    (faults : .faults ∈ ps) (trust : .trust ∈ ps)
include h out dci faults trust

theorem Reaches.rollBack : Reaches ps r s.rollBack := by
  unfold State.rollBack
  split
  · exact h
  · exact (h.updTrust trust _ (fun _ => bitsKept_refl _)).fwState out dci faults _ _

theorem Reaches.execFwConfirmTimeout : Completes ps r (execFwConfirmTimeout s) := by
  unfold Machine.execFwConfirmTimeout
  split
  · exact h.completes
  · exact Completes.ite h.completes ((h.rollBack out dci faults trust).completes)

theorem Reaches.execFwUpdateDone (c : CmdRef) (ok : Bool) : Completes ps r (execFwUpdateDone c ok s) := by
  unfold Machine.execFwUpdateDone
  split
  · exact h.completes
  · dsimp only
    exact Completes.ite h.completes (Completes.ite (((((h.updTrust trust _ (fun _ => bitsKept_refl _)).setSlot
        trust _ _).fwState out dci faults _ _).answer out dci _ _).completes)
        (((((h.updTrust trust _ (fun _ => bitsKept_refl _)).setSlot trust _ _).fwState out dci faults _ _).answer out
        dci _ _).completes))

theorem Reaches.fwUpdateBody (c : CmdRef) (slot : ℕ) (len : ℕ) (image : FwImage) : Reaches ps r
    (fwUpdateBody c slot len image s).1 := by
  unfold Machine.fwUpdateBody
  split
  · exact h
  · split
    · exact h
    · split
      · exact h
      · split
        · exact h
        · split
          · exact h
          · split
            · exact h
            · dsimp only
              exact ((h.setSlot trust _ _).updTrust trust _ (fun _ => bitsKept_refl _)).fwState out dci faults _ _

end

section
variable {ps : List Part} {r s : State} (h : Reaches ps r s) (out : .out ∈ ps) (egress : .egress ∈ ps)
    (dci : .dci ∈ ps) (faults : .faults ∈ ps)
include h out egress dci faults

theorem Reaches.flushStart (p : ℕ) : Reaches ps r (s.flushStart p) := by
  unfold State.flushStart
  exact (h.updEport egress _ _).event out dci faults _ _

theorem Reaches.policyStart (p : ℕ) : Reaches ps r (s.policyStart p) := by
  unfold State.policyStart
  exact Reaches.ite ((h.updEport egress _ _).flushStart out egress dci faults _) (h.updEport egress _ _)

theorem Reaches.policyEnd (p : ℕ) : Reaches ps r (s.policyEnd p) := by
  unfold State.policyEnd
  exact Reaches.ite ((h.updEport egress _ _).event out dci faults _ _) (h.updEport egress _ _)

theorem Reaches.execHoldTimeExpiry (port : ℕ) : Completes ps r (execHoldTimeExpiry port s) := by
  unfold Machine.execHoldTimeExpiry
  dsimp only
  exact Completes.ite ((h.flushStart out egress dci faults _).completes) h.completes

end

section
variable {ps : List Part} {r s : State} (h : Reaches ps r s) (out : .out ∈ ps) (hbm : .hbm ∈ ps) (dci : .dci ∈ ps)
    (faults : .faults ∈ ps)
include h out hbm dci faults

theorem Reaches.hbmErrorEvent (pc : ℕ) (a : ℕ) (port : ℕ) : Reaches ps r (s.hbmErrorEvent pc a port) := by
  unfold State.hbmErrorEvent
  exact Reaches.ite (h.updPc hbm _ _) ((h.updPc hbm _ _).event out dci faults _ _)

theorem Reaches.rowCorrected (pc : ℕ) (bank : ℕ) (row : ℕ) : Reaches ps r (s.rowCorrected pc bank row) := by
  unfold State.rowCorrected
  exact Reaches.ite (((h.updPc hbm _ _).errCnt faults _ _).event out dci faults _ _)
      ((h.updPc hbm _ _).errCnt faults _ _)

theorem Reaches.execHbmTempRead (stack : ℕ) (temp : ℕ) : Completes ps r (execHbmTempRead stack temp s) := by
  unfold Machine.execHbmTempRead
  exact Completes.ite h.completes (Completes.ite ((h.updStack hbm _ _).completes)
      (((h.updStack hbm _ _).event out dci faults _ _).completes))

end

section
variable {ps : List Part} {r s : State} (h : Reaches ps r s) (out : .out ∈ ps) (ledger : .ledger ∈ ps)
    (dci : .dci ∈ ps) (faults : .faults ∈ ps)
include h out ledger dci faults

theorem Reaches.sealClosing : Reaches ps r s.sealClosing := by
  unfold State.sealClosing
  split
  · exact h
  · exact Reaches.ite ((Reaches.ite (Reaches.ite ((((h.updLedger ledger _).updLedger ledger _).updLedger
        ledger _).event out dci faults _ _) ((h.updLedger ledger _).updLedger ledger _)) (h.updLedger ledger _)).event
        out dci faults _ _) (Reaches.ite (Reaches.ite ((((h.updLedger ledger _).updLedger ledger _).updLedger
        ledger _).event out dci faults _ _) ((h.updLedger ledger _).updLedger ledger _)) (h.updLedger ledger _))

theorem Reaches.closeOpen (t : ℕ) (g : ℕ) : Reaches ps r (s.closeOpen t g) := by
  unfold State.closeOpen
  split
  · exact h
  · exact (h.sealClosing out ledger dci faults).updLedger ledger _

theorem Reaches.ledgerUnit (off : ℕ) : Reaches ps r (s.ledgerUnit off) := by
  unfold State.ledgerUnit
  split
  · exact h
  · exact Reaches.foldl (h.updLedger ledger _) _ fun x _ => Reaches.foldl ((Reaches.refl ps x)) _
        fun x _ => ((Reaches.refl ps x)).event out dci faults _ _

theorem Reaches.sealEarly (cause : ℕ) : Reaches ps r (s.sealEarly cause) := by
  unfold State.sealEarly
  dsimp only
  refine Reaches.updLedger ?_ ledger _
  split
  · exact h.sealClosing out ledger dci faults
  · exact ((h.sealClosing out ledger dci faults).updLedger ledger _).sealClosing out ledger dci faults

theorem Reaches.epochConfigBody (action : ℕ) (lengthS : ℕ) (graceMs : ℕ) : Reaches ps r
    (epochConfigBody action lengthS graceMs s).1 := by
  unfold Machine.epochConfigBody
  split
  · exact h
  · split
    · exact h
    · dsimp only
      split
      · dsimp only
        exact Reaches.ite (h.updLedger ledger _) ((h.updLedger ledger _).openEpoch ledger _)
      · dsimp only
        exact ((h.closeOpen out ledger dci faults _ _).updLedger ledger _).updLedger ledger _
      · dsimp only
        exact h.updLedger ledger _

theorem Reaches.execEpochSeal : Completes ps r (execEpochSeal s) := by
  unfold Machine.execEpochSeal
  split
  · exact h.completes
  · exact Completes.ite h.completes ((h.sealClosing out ledger dci faults).completes)

theorem Reaches.execEpochClose : Completes ps r (execEpochClose s) := by
  unfold Machine.execEpochClose
  split
  · exact h.completes
  · exact Completes.ite h.completes ((((h.closeOpen out ledger dci faults _ _).updLedger ledger _).openEpoch
        ledger _).completes)

end

section
variable {ps : List Part} {r s : State} (h : Reaches ps r s) (out : .out ∈ ps) (ledger : .ledger ∈ ps)
    (dci : .dci ∈ ps) (free : .free ∈ ps)
include h out ledger dci free

theorem Reaches.execLedgerInitDone (c : CmdRef) : Completes ps r (execLedgerInitDone c s) := by
  unfold Machine.execLedgerInitDone
  split
  · exact h.completes
  · exact Completes.ite h.completes ((((((h.drawBytes free _).draw free).draw free).updLedger ledger _).answer out
        dci _ _).completes)

end

section
variable {ps : List Part} {r s : State} (h : Reaches ps r s) (out : .out ∈ ps) (locks : .locks ∈ ps) (dci : .dci ∈ ps)
    (faults : .faults ∈ ps)
include h out locks dci faults

theorem Reaches.lockFault (reason : ℕ) (k : ℕ) (r' : Requester) : Reaches ps r (s.lockFault reason k r') := by
  unfold State.lockFault
  exact Reaches.ite (((h.setLockGrp locks _ _).with_locks locks _).event out dci faults _ _)
      ((h.setLockGrp locks _ _).with_locks locks _)

theorem Reaches.lockClear (r' : Requester) (k : ℕ) : Reaches ps r (s.lockClear r' k) := by
  unfold State.lockClear
  exact Reaches.ite (h.lockFault out locks dci faults _ _ _) (Reaches.ite (h.lockFault out locks dci faults _ _ _)
      (h.setLock locks _ _))

end

section
variable {ps : List Part} {r s : State} (h : Reaches ps r s) (out : .out ∈ ps) (mem : .mem ∈ ps) (dci : .dci ∈ ps)
    (trust : .trust ∈ ps)
include h out mem dci trust

theorem Reaches.execImageLoadDone (c : CmdRef) : Completes ps r (execImageLoadDone c s) := by
  unfold Machine.execImageLoadDone
  split
  · exact h.completes
  · rename_i l _
    split
    · exact h.completes
    · extract_lets s1
      have h1 : Reaches ps r s1 := h.updTrust trust _ fun _ => bitsKept_refl _
      split
      · exact (h1.answer out dci _ _).completes
      · split
        · exact (h1.answer out dci _ _).completes
        · rename_i left a _
          have h2 := h1.updTrust trust (fun t => { t with images := left ++ [l.image.moved a] })
              fun _ => bitsKept_refl _
          have h3 := h2.updMem mem (fun m => m.store a l.bytes) (HbmMem.wf_store _ _ _)
          exact ((h3.logMeas trust _ _ _).answer out dci _ _).completes

end

section
variable {ps : List Part} {r s : State} (h : Reaches ps r s) (out : .out ∈ ps) (net : .net ∈ ps) (dci : .dci ∈ ps)
    (faults : .faults ∈ ps)
include h out net dci faults

theorem Reaches.unsuppress (p : ℕ) : Reaches ps r (s.unsuppress p) := by
  unfold State.unsuppress
  exact ((h.updLink net _ _).bringUp net _).portEvent out dci faults _ _ _ _

theorem Reaches.portEnableBody (p : ℕ) : Reaches ps r (portEnableBody p s).1 := by
  unfold Machine.portEnableBody
  dsimp only
  split
  · exact h
  · split
    · exact h
    · split
      · dsimp only
        exact h.unsuppress out net dci faults _
      · split
        · exact h
        · dsimp only
          exact (h.updPort net _ _).bringUp net _

theorem Reaches.flap (p : ℕ) : Reaches ps r (s.flap p) := by
  unfold State.flap
  exact Reaches.ite (((h.updLink net _ _).updPort net _ _).portEvent out dci faults _ _ _ _) (h.updLink net _ _)

theorem Reaches.cageFault (k : ℕ) : Reaches ps r (s.cageFault k) := by
  unfold State.cageFault
  exact (h.updCage net _ _).cageEvent out dci faults _ _ _

theorem Reaches.cagePages (k : ℕ) (pages : ModPages) : Reaches ps r (s.cagePages k pages) := by
  unfold State.cagePages
  exact Reaches.ite (((((h.busSelect net _).updCage net _ _).busSpeed net _).cageEvent out dci faults _ _ _).updCage
      net _ _) ((((((h.busSelect net _).updCage net _ _).busSpeed net _).cageEvent out dci faults _ _ _).updCage
      net _ _).cageEvent out dci faults _ _ _)

theorem Reaches.execI2cBusRecovery (bus : ℕ) (released : Bool) : Completes ps r (execI2cBusRecovery bus released s)
    := by
  unfold Machine.execI2cBusRecovery
  dsimp only
  exact Completes.ite h.completes (Completes.ite ((h.updBus net _ _).completes)
      (Completes.ite ((h.updBus net _ _).completes) ((Reaches.foldl (h.updBus net _ _) _
      fun x _ => ((Reaches.refl ps x)).cageFault out net dci faults _).completes)))

theorem Reaches.execModuleInt (slot : ℕ) (flags : List Byte) : Completes ps r (execModuleInt slot flags s) := by
  unfold Machine.execModuleInt
  exact Completes.ite h.completes ((((h.busSelect net _).updCage net _ _).cageEvent out dci faults _ _ _).completes)

theorem Reaches.execModuleDiscoveryTimeout (slot : ℕ) : Completes ps r (execModuleDiscoveryTimeout slot s) := by
  unfold Machine.execModuleDiscoveryTimeout
  dsimp only
  exact Completes.ite ((h.cageFault out net dci faults _).completes) h.completes

theorem Reaches.execModulePagesRead (slot : ℕ) (pages : ModPages) : Completes ps r (execModulePagesRead slot pages s)
    := by
  unfold Machine.execModulePagesRead
  exact Completes.ite h.completes ((h.cagePages out net dci faults _ _).completes)

theorem Reaches.execModuleIdPoll (slot : ℕ) (answer : Option Byte) (cmis : Bool) : Completes ps r
    (execModuleIdPoll slot answer cmis s) := by
  unfold Machine.execModuleIdPoll
  split
  · exact h.completes
  · dsimp only
    split
    · exact ((h.busSelect net _).updCage net _ _).completes
    · exact Completes.ite ((((h.busSelect net _).updCage net _ _).updCage net _ _).completes)
          (((((h.busSelect net _).updCage net _ _).updCage net _ _).cageEvent out dci faults _ _ _).completes)

theorem Reaches.execFlapSuppressExpiry (port : ℕ) : Completes ps r (execFlapSuppressExpiry port s) := by
  unfold Machine.execFlapSuppressExpiry
  split
  · exact Completes.ite h.completes ((h.unsuppress out net dci faults _).completes)
  · exact h.completes

theorem Reaches.execTrainingTimeout (port : ℕ) : Completes ps r (execTrainingTimeout port s) := by
  unfold Machine.execTrainingTimeout
  dsimp only
  exact Completes.ite h.completes (Completes.ite ((h.updLink net _ _).completes)
      ((Reaches.ite ((h.updPort net _ _).portEvent out dci faults _ _ _ _) (h.updPort net _ _)).completes))

theorem Reaches.execQuiesceRise : Completes ps r (execQuiesceRise s) := by
  unfold Machine.execQuiesceRise
  exact Completes.ite h.completes (((h.updNet net _).quiesceEvent out dci faults _).completes)

theorem Reaches.execQuiesceFall : Completes ps r (execQuiesceFall s) := by
  unfold Machine.execQuiesceFall
  exact Completes.ite h.completes (((h.updNet net _).quiesceEvent out dci faults _).completes)

end

section
variable {ps : List Part} {r s : State} (h : Reaches ps r s) (out : .out ∈ ps) (net : .net ∈ ps) (order : .order ∈ ps)
    (dci : .dci ∈ ps)
include h out net order dci

theorem Reaches.execParseStart (port : ℕ) : Completes ps r (execParseStart port s) := by
  unfold Machine.execParseStart
  split
  · exact h.completes
  · dsimp only
    exact Completes.ite h.completes (((h.graphSwitch out net dci _).updPkt order _ _).completes)

end

section
variable {ps : List Part} {r s : State} (h : Reaches ps r s) (out : .out ∈ ps) (order : .order ∈ ps) (dci : .dci ∈ ps)
    (faults : .faults ∈ ps)
include h out order dci faults

theorem Reaches.fenceCheck : Reaches ps r s.fenceCheck := by
  unfold State.fenceCheck
  split
  · exact h
  · exact Reaches.ite ((h.disarm order).event out dci faults _ _) h

theorem Reaches.fenceDrain (c : ℕ) : Reaches ps r (s.fenceDrain c) := by
  unfold State.fenceDrain
  split
  · exact h
  · exact (h.updOrder order _).fenceCheck out order dci faults

theorem Reaches.execOrderStallTimer (domain : ℕ) : Completes ps r (execOrderStallTimer domain s) := by
  unfold Machine.execOrderStallTimer
  dsimp only
  exact Completes.ite h.completes (((h.updDom order _ _).event out dci faults _ _).completes)

theorem Reaches.execWalUncorrectable (lane : ℕ) (position : ℕ) : Completes ps r (execWalUncorrectable lane position s)
    := by
  unfold Machine.execWalUncorrectable
  exact Completes.ite h.completes ((((h.updOrder order _).errCnt faults _ _).event out dci faults _ _).completes)

end

section
variable {ps : List Part} {r s : State} (h : Reaches ps r s) (out : .out ∈ ps) (tables : .tables ∈ ps)
    (dci : .dci ∈ ps) (faults : .faults ∈ ps)
include h out tables dci faults

theorem Reaches.tableError (tbl : ℕ) (effect : ℕ) (index : ℕ) : Reaches ps r (s.tableError tbl effect index) := by
  unfold State.tableError
  exact Reaches.ite (((h.errCnt faults _ _).updTables tables _).event out dci faults _ _)
      ((h.errCnt faults _ _).updTables tables _)

theorem Reaches.lkpLpm (key : List W64) (err : Bool) : Reaches ps r (s.lkpLpm key err).1 := by
  unfold State.lkpLpm
  split
  · exact h
  · extract_lets dir s1 x
    have h1 : Reaches ps r s1 := .ite ((h.updTables tables _).tableError out tables dci faults _ _ _) h
    split
    · exact h1
    · exact h1

theorem Reaches.lkpL2 (w : ℕ) (key0 : W64) (err : Bool) : Reaches ps r (s.lkpL2 w key0 err).1 := by
  unfold State.lkpL2
  split
  · exact h
  · dsimp only
    split
    · dsimp only
      exact (h.updL2t tables _ _).tableError out tables dci faults _ _ _
    · split
      · exact h
      · split
        · exact h
        · exact h

theorem Reaches.staticMove (w : ℕ) (e : L2Ent) (n : Learn) : Reaches ps r (s.staticMove w e n) := by
  unfold State.staticMove
  exact Reaches.ite (h.updL2t tables _ _) (Reaches.ite (((h.updL2t tables _ _).updL2t tables _ _).event out dci
      faults _ _) ((h.updL2t tables _ _).updL2t tables _ _))

end

section
variable {ps : List Part} {r s : State} (h : Reaches ps r s) (out : .out ∈ ps) (time : .time ∈ ps) (dci : .dci ∈ ps)
    (faults : .faults ∈ ps)
include h out time dci faults

theorem Reaches.enterLocked : Reaches ps r s.enterLocked := by
  unfold State.enterLocked
  exact (h.updTime time _).timeEvent out dci faults _ _ _

theorem Reaches.slewRule (off : ℤ) : Reaches ps r (s.slewRule off) := by
  unfold State.slewRule
  exact Reaches.ite (Reaches.ite (h.updTime time _) ((h.updTime time _).event out dci faults _ _))
      (Reaches.ite (h.updTime time _) (h.updTime time _))

theorem Reaches.execHoldoverExpiry : Completes ps r (execHoldoverExpiry s) := by
  unfold Machine.execHoldoverExpiry
  dsimp only
  exact Completes.ite (((h.updTime time _).timeEvent out dci faults _ _ _).completes) h.completes

end

section
variable {ps : List Part} {r s : State} (h : Reaches ps r s) (thrs : .thrs ∈ ps) (cores : .cores ∈ ps)
    (clusters : .clusters ∈ ps) (power : .power ∈ ps)
include h thrs cores clusters power

theorem Reaches.taskSignalBody (t : ℕ) (flags : W32) : Reaches ps r (taskSignalBody t flags s).1 := by
  unfold Machine.taskSignalBody
  split
  · exact h
  · dsimp only
    exact (h.wakeCluster cores clusters power _).setFlags thrs _ _

end

section
variable {ps : List Part} {r s : State} (h : Reaches ps r s) (truns : .truns ∈ ps) (cores : .cores ∈ ps)
    (clusters : .clusters ∈ ps) (locks : .locks ∈ ps)
include h truns cores clusters locks

theorem Reaches.quiet (t : ℕ) : Reaches ps r (s.quiet t) := by
  unfold State.quiet
  exact (((h.lockLeave locks _).chanEnd truns clusters _).updCore cores _ _).updTr truns _ _

end

section
variable {ps : List Part} {r s : State} (h : Reaches ps r s) (truns : .truns ∈ ps) (cores : .cores ∈ ps)
    (clusters : .clusters ∈ ps) (mem : .mem ∈ ps)
include h truns cores clusters mem

theorem Reaches.resetCore (core : ℕ) : Reaches ps r (s.resetCore core) := by
  unfold State.resetCore
  exact Reaches.foldl ((h.coreFlush cores clusters mem _ _).updCore cores _ _) _
      fun x _ => ((Reaches.refl ps x)).updTr truns _ _

theorem Reaches.resetCluster (c : ℕ) : Reaches ps r (s.resetCluster c) := by
  unfold State.resetCluster
  exact Reaches.ite (((Reaches.foldl h _ fun x _ => ((Reaches.refl ps x)).resetCore truns cores clusters
      mem _).l2Flush clusters mem _ _).updCl clusters _ _) ((((Reaches.foldl h _
      fun x _ => ((Reaches.refl ps x)).resetCore truns cores clusters mem _).l2Flush clusters mem _ _).updCl
      clusters _ _).tracePut clusters _ _)

theorem Reaches.wbAck (core : ℕ) (no : ℕ) : Reaches ps r (s.wbAck core no) := by
  unfold State.wbAck
  split
  · exact ((h.l2Merge clusters mem _ _).updCore cores _ _).unstall truns _
  · exact h

theorem Reaches.execWritebackAck (core : ℕ) (line : ℕ) : Completes ps r (execWritebackAck core line s) := by
  unfold Machine.execWritebackAck
  exact (h.wbAck truns cores clusters mem _ _).completes

end

section
variable {ps : List Part} {r s : State} (h : Reaches ps r s) (egress : .egress ∈ ps) (cores : .cores ∈ ps)
    (clusters : .clusters ∈ ps) (hbm : .hbm ∈ ps) (power : .power ∈ ps)
include h egress cores clusters hbm power

theorem Reaches.append' (c : Copy) : Reaches ps r (s.append' c) := by
  unfold State.append'
  exact (h.classActive cores clusters hbm power _).updQueue egress _ _

end

section
variable {ps : List Part} {r s : State} (h : Reaches ps r s) (out : .out ∈ ps) (basin : .basin ∈ ps) (dci : .dci ∈ ps)
    (faults : .faults ∈ ps) (free : .free ∈ ps)
include h out basin dci faults free

theorem Reaches.execBufferStatus (c : CmdRef) : Completes ps r (execBufferStatus c s) := by
  unfold Machine.execBufferStatus
  exact h.command out dci faults free _ _ _ _ (fun x => ((Reaches.refl ps x)).bufferStatusBody basin)

theorem Reaches.execBufferQuotaSet (c : CmdRef) (kind : ℕ) (index : ℕ) (min : ℕ) (max : ℕ) (alpha : ℕ) : Completes ps
    r (execBufferQuotaSet c kind index min max alpha s) := by
  unfold Machine.execBufferQuotaSet
  exact h.command out dci faults free _ _ _ _ (fun x => ((Reaches.refl ps x)).bufferQuotaBody basin _ _ _ _ _)

end

section
variable {ps : List Part} {r s : State} (h : Reaches ps r s) (out : .out ∈ ps) (basin : .basin ∈ ps)
    (egress : .egress ∈ ps) (dci : .dci ∈ ps) (faults : .faults ∈ ps)
include h out basin egress dci faults

theorem Reaches.releaseHeld (h' : ℕ) (reqTag : ℕ) : Reaches ps r (s.releaseHeld h' reqTag) := by
  unfold State.releaseHeld
  split
  · exact h.badFree out basin dci faults _ _ _ _
  · split
    · split
      · exact h.badFree out basin dci faults _ _ _ _
      · exact h.badFree out basin dci faults _ _ _ _
    · split
      · exact Reaches.ite (h.badFree out basin dci faults _ _ _ _) (h.badFree out basin dci faults _ _ _ _)
      · exact Reaches.ite (h.badFree out basin dci faults _ _ _ _)
            (Reaches.ite (h.badFree out basin dci faults _ _ _ _) ((h.updBuf basin _ _).settle out basin egress _))

theorem Reaches.applyFrees (p : ℕ) (j : List JEntry) : Reaches ps r (s.applyFrees p j) := by
  unfold State.applyFrees
  refine Reaches.foldl ?_ _ fun x a => ?_
  · exact h
  · split
    · exact Reaches.ite (((Reaches.refl ps x)).badFree out basin dci faults _ _ _ _)
          (((Reaches.refl ps x)).releaseHeld out basin egress dci faults _ _)
    · exact (Reaches.refl ps x)

theorem Reaches.endRef (h' : ℕ) : Reaches ps r (s.endRef h') := by
  unfold State.endRef
  split
  · exact h.badFree out basin dci faults _ _ _ _
  · exact Reaches.ite (h.badFree out basin dci faults _ _ _ _) (h.decRef out basin egress _)

theorem Reaches.reclaim1 (h' : ℕ) : Reaches ps r (s.reclaim1 h').1 := by
  unfold State.reclaim1
  split
  · split
    · exact h
    · split
      · exact h
      · split
        · dsimp only
          exact h.releaseHeld out basin egress dci faults _ _
        · dsimp only
          exact h.releaseHeld out basin egress dci faults _ _
  · split
    · dsimp only
      exact h.releaseHeld out basin egress dci faults _ _
    · exact h

theorem Reaches.bufferReclaimBody (mode cluster : Nat) (hs : List W32) :
    Reaches ps r (bufferReclaimBody mode cluster hs s).1 := by
  unfold Machine.bufferReclaimBody
  dsimp only
  split
  · exact h
  · refine h.foldl_fst _ _ fun x _ => ?_
    dsimp only
    exact (Reaches.refl ps x.1).reclaim1 out basin egress dci faults _

theorem Reaches.execAggregateWriteAck (pump : ℕ) (queue : ℕ) : Completes ps r (execAggregateWriteAck pump queue s)
    := by
  unfold Machine.execAggregateWriteAck
  split
  · exact h.completes
  · exact Completes.ite h.completes ((Reaches.foldl (h.updQueue egress _ _) _
        fun x _ => (((Reaches.refl ps x)).unchargeBuf out basin egress _).endRef out basin egress dci
        faults _).completes)

theorem Reaches.execBasinRebuildDone : Completes ps r (execBasinRebuildDone s) := by
  unfold Machine.execBasinRebuildDone
  exact Completes.ite h.completes (((((Reaches.foldl (Reaches.foldl h _ fun x _ => ((Reaches.refl ps x)).rebuildOwner
      out basin egress _) _ fun x _ => (((Reaches.refl ps x)).dropCell basin _).uncharge out basin egress _).updBasin
      basin _).poolDrop basin _).event out dci faults _ _).completes)

end

section
variable {ps : List Part} {r s : State} (h : Reaches ps r s) (out : .out ∈ ps) (cistern : .cistern ∈ ps)
    (mem : .mem ∈ ps) (dci : .dci ∈ ps) (faults : .faults ∈ ps)
include h out cistern mem dci faults

theorem Reaches.execCisternShrinkDone : Completes ps r (execCisternShrinkDone s) := by
  unfold Machine.execCisternShrinkDone
  dsimp only
  split
  · exact h.completes
  · split
    · exact ((((h.cisternResize cistern mem _).updCistern cistern _).event out dci faults _ _).answer out
          dci _ _).completes
    · exact (((h.cisternResize cistern mem _).updCistern cistern _).event out dci faults _ _).completes

end

section
variable {ps : List Part} {r s : State} (h : Reaches ps r s) (out : .out ∈ ps) (clusters : .clusters ∈ ps)
    (dci : .dci ∈ ps) (faults : .faults ∈ ps) (free : .free ∈ ps)
include h out clusters dci faults free

theorem Reaches.execTraceConfig (c : CmdRef) (cluster : ℕ) (mode : ℕ) (filter : W64) : Completes ps r
    (execTraceConfig c cluster mode filter s) := by
  unfold Machine.execTraceConfig
  exact h.command out dci faults free _ _ _ _ (fun x => ((Reaches.refl ps x)).guarded _
      (fun x => ((Reaches.refl ps x)).traceConfigBody clusters _ _ _))

theorem Reaches.execDebugBreakSet (c : CmdRef) (cluster : ℕ) (slot : ℕ) (kind : ℕ) (addr : ℕ) : Completes ps r
    (execDebugBreakSet c cluster slot kind addr s) := by
  unfold Machine.execDebugBreakSet
  exact h.command out dci faults free _ _ _ _ (fun x => ((Reaches.refl ps x)).guarded _
      (fun x => ((Reaches.refl ps x)).debugBreakBody clusters _ _ _ _))

theorem Reaches.execTaskConfig (c : CmdRef) (cluster : ℕ) (tick0 : ℕ) (tick1 : ℕ) (tick2 : ℕ) (tick3 : ℕ)
    (detectEn : ℕ) (window : ℕ) : Completes ps r (execTaskConfig c cluster tick0 tick1 tick2 tick3 detectEn window s)
    := by
  unfold Machine.execTaskConfig
  exact h.command out dci faults free _ _ _ _ (fun x => ((Reaches.refl ps x)).taskConfigBody clusters _ _ _ _ _ _ _)

end

section
variable {ps : List Part} {r s : State} (h : Reaches ps r s) (out : .out ∈ ps) (cores : .cores ∈ ps)
    (clusters : .clusters ∈ ps) (dci : .dci ∈ ps) (faults : .faults ∈ ps)
include h out cores clusters dci faults

theorem Reaches.coreMemError (core : ℕ) (array : ℕ) (set : ℕ) (way : ℕ) : Reaches ps r
    (s.coreMemError core array set way) := by
  unfold State.coreMemError
  exact Reaches.ite ((((Reaches.ite ((h.updCore cores _ _).updL2 clusters _ _) (h.updCore cores _ _)).errCnt
      faults _ _).updCl clusters _ _).event out dci faults _ _) (((Reaches.ite
      ((h.updCore cores _ _).updL2 clusters _ _) (h.updCore cores _ _)).errCnt faults _ _).updCl clusters _ _)

end

section
variable {ps : List Part} {r s : State} (h : Reaches ps r s) (out : .out ∈ ps) (cores : .cores ∈ ps) (dci : .dci ∈ ps)
    (faults : .faults ∈ ps) (free : .free ∈ ps)
include h out cores dci faults free

theorem Reaches.execCoreConfig (c : CmdRef) (target : ℕ) (a : CoreConfigArgs) : Completes ps r
    (execCoreConfig c target a s) := by
  unfold Machine.execCoreConfig
  exact h.command out dci faults free _ _ _ _ (fun x => ((Reaches.refl ps x)).coreConfigBody cores _ _)

end

section
variable {ps : List Part} {r s : State} (h : Reaches ps r s) (out : .out ∈ ps) (dci : .dci ∈ ps)
    (faults : .faults ∈ ps) (trust : .trust ∈ ps) (free : .free ∈ ps)
include h out dci faults trust free

theorem Reaches.execFwUpdate (c : CmdRef) (slot : ℕ) (addr : ℕ) (len : ℕ) (image : FwImage) : Completes ps r
    (execFwUpdate c slot addr len image s) := by
  unfold Machine.execFwUpdate
  exact h.command out dci faults free _ _ _ _ (fun x => ((Reaches.refl ps x)).fwUpdateBody out dci faults
      trust _ _ _ _)

theorem Reaches.execDebugUnlock (c : CmdRef) (nonce : List Byte) (sig : List Byte) : Completes ps r
    (execDebugUnlock c nonce sig s) := by
  unfold Machine.execDebugUnlock
  exact h.command out dci faults free _ _ _ _ (fun x => ((Reaches.refl ps x)).debugUnlockBody trust _ _ _)

theorem Reaches.execDebugChallenge (c : CmdRef) : Completes ps r (execDebugChallenge c s) := by
  unfold Machine.execDebugChallenge
  exact h.command out dci faults free _ _ _ _ (fun x => ((Reaches.refl ps x)).debugChallengeBody trust free)

theorem Reaches.execImageLoad (c : CmdRef) (version : ℕ) (addr : ℕ) (len : ℕ) (image : List Byte) : Completes ps r
    (execImageLoad c version addr len image s) := by
  unfold Machine.execImageLoad
  exact h.command out dci faults free _ _ _ _ (fun x => ((Reaches.refl ps x)).imageLoadBody trust _ _ _ _)

theorem Reaches.execDeviceReset (c : CmdRef) (kind : ℕ) : Completes ps r (execDeviceReset c kind s) := by
  unfold Machine.execDeviceReset
  exact h.command out dci faults free _ _ _ _ (fun x => ((Reaches.refl ps x)).deviceResetBody trust _)

end

section
variable {ps : List Part} {r s : State} (h : Reaches ps r s) (out : .out ∈ ps) (egress : .egress ∈ ps)
    (dci : .dci ∈ ps) (faults : .faults ∈ ps) (free : .free ∈ ps)
include h out egress dci faults free

theorem Reaches.execSumpConfig (c : CmdRef) (code : ℕ) (rate : ℕ) (host : ℕ) (ring : ℕ) : Completes ps r
    (execSumpConfig c code rate host ring s) := by
  unfold Machine.execSumpConfig
  exact h.command out dci faults free _ _ _ _ (fun x => ((Reaches.refl ps x)).sumpConfigBody egress _ _ _ _)

theorem Reaches.execQueueFlush (c : CmdRef) (scope : ℕ) (index : ℕ) : Completes ps r (execQueueFlush c scope index s)
    := by
  unfold Machine.execQueueFlush
  exact h.command out dci faults free _ _ _ _ (fun x => ((Reaches.refl ps x)).queueFlushBody egress _ _ _)

theorem Reaches.execMcMemberOpSet (c : CmdRef) (mop : ℕ) (slot : BitVec 128) : Completes ps r
    (execMcMemberOpSet c mop slot s) := by
  unfold Machine.execMcMemberOpSet
  exact h.command out dci faults free _ _ _ _ (fun x => ((Reaches.refl ps x)).mcMemberBody egress _ _)

theorem Reaches.execMcGroupSet (c : CmdRef) (group : ℕ) (members : List W32) : Completes ps r
    (execMcGroupSet c group members s) := by
  unfold Machine.execMcGroupSet
  exact h.command out dci faults free _ _ _ _ (fun x => ((Reaches.refl ps x)).mcGroupBody egress _ _)

theorem Reaches.execPfcThresholdSet (c : CmdRef) (port : ℕ) (cls : ℕ) (xoff : ℕ) (xon : ℕ) : Completes ps r
    (execPfcThresholdSet c port cls xoff xon s) := by
  unfold Machine.execPfcThresholdSet
  exact h.command out dci faults free _ _ _ _ (fun x => ((Reaches.refl ps x)).pfcThresholdBody out egress _ _ _ _)

theorem Reaches.execWredProfileSet (c : CmdRef) (profile : ℕ) (min : ℕ) (max : ℕ) (pmax : ℕ) (w : ℕ) (ecn : ℕ)
    (kmark : ℕ) : Completes ps r (execWredProfileSet c profile min max pmax w ecn kmark s) := by
  unfold Machine.execWredProfileSet
  exact h.command out dci faults free _ _ _ _ (fun x => ((Reaches.refl ps x)).wredBody egress _ _ _)

theorem Reaches.execEgressPortSet (c : CmdRef) (port : ℕ) (rate : ℕ) (burst : ℕ) (overhead : ℤ) (downPolicy : ℕ)
    (holdTime : ℕ) (pfcMap : BitVec 24) : Completes ps r (execEgressPortSet c port rate burst overhead downPolicy
    holdTime pfcMap s) := by
  unfold Machine.execEgressPortSet
  exact h.command out dci faults free _ _ _ _ (fun x => ((Reaches.refl ps x)).egressPortBody egress _ _ _ _ _ _ _)

theorem Reaches.execQueueConfig (c : CmdRef) (queue : ℕ) (qmax : ℕ) (weight : ℕ) (wred : ℕ) (rate : ℕ)
    (burst : ℕ) : Completes ps r (execQueueConfig c queue qmax weight wred rate burst s) := by
  unfold Machine.execQueueConfig
  exact h.command out dci faults free _ _ _ _ (fun x => ((Reaches.refl ps x)).queueConfigBody egress _ _ _ _ _ _)

theorem Reaches.execQueueGroupSet (c : CmdRef) (group : ℕ) (port : ℕ) (weight : ℕ) (spMask : Byte) (rate : ℕ)
    (burst : ℕ) : Completes ps r (execQueueGroupSet c group port weight spMask rate burst s) := by
  unfold Machine.execQueueGroupSet
  exact h.command out dci faults free _ _ _ _ (fun x => ((Reaches.refl ps x)).queueGroupBody egress _ _ _ _ _ _)

theorem Reaches.execQueueSpillSet (c : CmdRef) (queue : ℕ) (en : ℕ) (spillOn : ℕ) (refillLow : ℕ) : Completes ps r
    (execQueueSpillSet c queue en spillOn refillLow s) := by
  unfold Machine.execQueueSpillSet
  exact h.command out dci faults free _ _ _ _ (fun x => ((Reaches.refl ps x)).queueSpillBody egress _ _ _ _)

end

section
variable {ps : List Part} {r s : State} (h : Reaches ps r s) (out : .out ∈ ps) (egress : .egress ∈ ps)
    (tables : .tables ∈ ps) (dci : .dci ∈ ps) (faults : .faults ∈ ps)
include h out egress tables dci faults

theorem Reaches.reportDown (p : ℕ) (reason : ℕ) : Reaches ps r (s.reportDown p reason) := by
  unfold State.reportDown
  exact Reaches.ite (Reaches.ite ((h.portEvent out dci faults _ _ _ _).l2FlushPort tables _)
      (h.portEvent out dci faults _ _ _ _)) ((Reaches.ite ((h.portEvent out dci faults _ _ _ _).l2FlushPort tables _)
      (h.portEvent out dci faults _ _ _ _)).policyStart out egress dci faults _)

end

section
variable {ps : List Part} {r s : State} (h : Reaches ps r s) (out : .out ∈ ps) (hbm : .hbm ∈ ps) (dci : .dci ∈ ps)
    (faults : .faults ∈ ps) (free : .free ∈ ps)
include h out hbm dci faults free

theorem Reaches.execHbmRepair (c : CmdRef) (pc : ℕ) (sid : ℕ) (bank : ℕ) (kind : ℕ) (row : ℕ)
    (spare : Bool) : Completes ps r (execHbmRepair c pc sid bank kind row spare s) := by
  unfold Machine.execHbmRepair
  exact h.command out dci faults free _ _ _ _ (fun x => ((Reaches.refl ps x)).hbmRepairBody hbm _ _ _ _ _ _)

theorem Reaches.execHbmScrubConfig (c : CmdRef) (periodH : ℕ) (retireWaitMs : ℕ) : Completes ps r
    (execHbmScrubConfig c periodH retireWaitMs s) := by
  unfold Machine.execHbmScrubConfig
  exact h.command out dci faults free _ _ _ _ (fun x => ((Reaches.refl ps x)).hbmScrubBody hbm _ _)

theorem Reaches.execHbmQosSet (c : CmdRef) (port : ℕ) (priority : ℕ) (targetNs : ℕ) (rowTimeoutNs : ℕ) : Completes ps
    r (execHbmQosSet c port priority targetNs rowTimeoutNs s) := by
  unfold Machine.execHbmQosSet
  exact h.command out dci faults free _ _ _ _ (fun x => ((Reaches.refl ps x)).hbmQosBody hbm _ _ _ _)

end

section
variable {ps : List Part} {r s : State} (h : Reaches ps r s) (out : .out ∈ ps) (hbm : .hbm ∈ ps) (power : .power ∈ ps)
    (dci : .dci ∈ ps) (faults : .faults ∈ ps)
include h out hbm power dci faults

theorem Reaches.retireEnd (m : Migration) : Reaches ps r (s.retireEnd m) := by
  unfold State.retireEnd
  exact (((h.updHbm hbm _).redirectQueue hbm power _).event out dci faults _ _).answer out dci _ _

theorem Reaches.execGranuleCopyDone : Completes ps r (execGranuleCopyDone s) := by
  unfold Machine.execGranuleCopyDone
  split
  · exact h.completes
  · split
    · exact Completes.ite h.completes ((Reaches.ite ((h.updHbm hbm _).retireEnd out hbm power dci faults _)
          (h.updHbm hbm _)).completes)
    · exact h.completes

end

section
variable {ps : List Part} {r s : State} (h : Reaches ps r s) (out : .out ∈ ps) (keys : .keys ∈ ps) (dci : .dci ∈ ps)
    (faults : .faults ∈ ps) (free : .free ∈ ps)
include h out keys dci faults free

theorem Reaches.execCryptoKeySet (c : CmdRef) (slot : ℕ) (alg : ℕ) (key : List Byte) : Completes ps r
    (execCryptoKeySet c slot alg key s) := by
  unfold Machine.execCryptoKeySet
  exact h.command out dci faults free _ _ _ _ (fun x => ((Reaches.refl ps x)).cryptoKeyBody keys _ _ _)

end

section
variable {ps : List Part} {r s : State} (h : Reaches ps r s) (out : .out ∈ ps) (ledger : .ledger ∈ ps)
    (dci : .dci ∈ ps) (faults : .faults ∈ ps) (free : .free ∈ ps)
include h out ledger dci faults free

theorem Reaches.execLedgerFlushSet (c : CmdRef) (addr : ℕ) : Completes ps r (execLedgerFlushSet c addr s) := by
  unfold Machine.execLedgerFlushSet
  exact h.command out dci faults free _ _ _ _ (fun x => ((Reaches.refl ps x)).ledgerFlushSetBody ledger _ _)

theorem Reaches.execLedgerAck (c : CmdRef) (epoch : ℕ) : Completes ps r (execLedgerAck c epoch s) := by
  unfold Machine.execLedgerAck
  exact h.command out dci faults free _ _ _ _ (fun x => ((Reaches.refl ps x)).ledgerAckBody ledger _)

theorem Reaches.execLedgerRead (c : CmdRef) (epoch : ℕ) (offset : ℕ) (len : ℕ) (addr : ℕ) : Completes ps r
    (execLedgerRead c epoch offset len addr s) := by
  unfold Machine.execLedgerRead
  exact h.command out dci faults free _ _ _ _ (fun x => ((Reaches.refl ps x)).ledgerReadBody out ledger _ _ _ _ _)

theorem Reaches.execLedgerInit (c : CmdRef) (slots : ℕ) (prev : Option LedgerPrev) : Completes ps r
    (execLedgerInit c slots prev s) := by
  unfold Machine.execLedgerInit
  exact h.command out dci faults free _ _ _ _ (fun x => ((Reaches.refl ps x)).ledgerInitBody ledger _ _ _)

theorem Reaches.execEpochConfig (c : CmdRef) (action : ℕ) (lengthS : ℕ) (graceMs : ℕ) : Completes ps r
    (execEpochConfig c action lengthS graceMs s) := by
  unfold Machine.execEpochConfig
  exact h.command out dci faults free _ _ _ _ (fun x => ((Reaches.refl ps x)).epochConfigBody out ledger dci
      faults _ _ _)

theorem Reaches.execRecordSignDone : Completes ps r (execRecordSignDone s) := by
  unfold Machine.execRecordSignDone
  split
  · exact Completes.ite h.completes (((((h.draw free).setRec ledger _).updLedger ledger _).event out dci
        faults _ _).completes)
  · exact h.completes

end

section
variable {ps : List Part} {r s : State} (h : Reaches ps r s) (out : .out ∈ ps) (locks : .locks ∈ ps) (dci : .dci ∈ ps)
    (faults : .faults ∈ ps) (free : .free ∈ ps)
include h out locks dci faults free

theorem Reaches.execLockGroupSet (c : CmdRef) (group : ℕ) (mask : ℕ) (timeout : ℕ) : Completes ps r
    (execLockGroupSet c group mask timeout s) := by
  unfold Machine.execLockGroupSet
  exact h.command out dci faults free _ _ _ _ (fun x => ((Reaches.refl ps x)).lockGroupBody locks _ _ _)

end

section
variable {ps : List Part} {r s : State} (h : Reaches ps r s) (out : .out ∈ ps) (mem : .mem ∈ ps) (dci : .dci ∈ ps)
    (faults : .faults ∈ ps) (trust : .trust ∈ ps)
include h out mem dci faults trust

theorem Reaches.restartFw : Reaches ps r s.restartFw := by
  unfold State.restartFw
  split
  · exact Reaches.ite (((((h.copyFw mem _ _).updTrust trust _ (fun _ => bitsKept_refl _)).startFw dci
        trust _ _).confirmFw trust).fwState out dci faults _ _) ((h.rollBack out dci faults trust).startActive dci
        trust)
  · exact h.startActive dci trust

end

section
variable {ps : List Part} {r s : State} (h : Reaches ps r s) (out : .out ∈ ps) (mem : .mem ∈ ps) (hbm : .hbm ∈ ps)
    (dci : .dci ∈ ps) (faults : .faults ∈ ps)
include h out mem hbm dci faults

theorem Reaches.hbmError (addr port : Nat) : Reaches ps r (s.hbmError addr port) := by
  unfold State.hbmError
  extract_lets s1
  have h1 : Reaches ps r s1 := (h.updMem mem _ (HbmMem.wf_mark _ _ _)).errCnt faults _ _
  split
  · exact (h1.updPc hbm _ _).hbmErrorEvent out hbm dci faults _ _ _
  · exact h1

theorem Reaches.cisternError (e : BufErr) (block : ℕ) (off : ℕ) : Reaches ps r (s.cisternError e block off) := by
  unfold State.cisternError
  exact (h.bufferError out dci faults _ _).hbmError out mem hbm dci faults _ _

end

section
variable {ps : List Part} {r s : State} (h : Reaches ps r s) (out : .out ∈ ps) (net : .net ∈ ps) (dci : .dci ∈ ps)
    (faults : .faults ∈ ps) (free : .free ∈ ps)
include h out net dci faults free

theorem Reaches.execWellEnable (c : CmdRef) (well : ℕ) (enable : ℕ) : Completes ps r (execWellEnable c well enable s)
    := by
  unfold Machine.execWellEnable
  exact h.command out dci faults free _ _ _ _ (fun x => ((Reaches.refl ps x)).wellEnableBody net faults _ _ _)

theorem Reaches.execIndirectionSet (c : CmdRef) (table : ℕ) (first : ℕ) (entries : List W32) : Completes ps r
    (execIndirectionSet c table first entries s) := by
  unfold Machine.execIndirectionSet
  exact h.command out dci faults free _ _ _ _ (fun x => ((Reaches.refl ps x)).indirectionBody net _ _ _)

theorem Reaches.execHashKeySet (c : CmdRef) (key : ℕ) (bytes : List Byte) : Completes ps r
    (execHashKeySet c key bytes s) := by
  unfold Machine.execHashKeySet
  exact h.command out dci faults free _ _ _ _ (fun x => ((Reaches.refl ps x)).hashKeyBody net _ _)

theorem Reaches.execHashProfileSet (c : CmdRef) (profile : ℕ) (alg : ℕ) (keySel : ℕ) (mode : ℕ) (table : ℕ)
    (fixedDomain : ℕ) (input : BitVec 128) : Completes ps r (execHashProfileSet c profile alg keySel mode table
    fixedDomain input s) := by
  unfold Machine.execHashProfileSet
  exact h.command out dci faults free _ _ _ _ (fun x => ((Reaches.refl ps x)).hashProfileBody net _ _)

theorem Reaches.execParseGraphCommit (c : CmdRef) (version : ℕ) : Completes ps r (execParseGraphCommit c version s)
    := by
  unfold Machine.execParseGraphCommit
  exact h.command out dci faults free _ _ _ _ (fun x => ((Reaches.refl ps x)).parseGraphCommitBody net _ _)

theorem Reaches.execParseGraphLoad (c : CmdRef) (recs : List GraphRec) : Completes ps r (execParseGraphLoad c recs s)
    := by
  unfold Machine.execParseGraphLoad
  exact h.command out dci faults free _ _ _ _ (fun x => ((Reaches.refl ps x)).parseGraphLoadBody net _)

theorem Reaches.execUnsluice (c : CmdRef) (well : ℕ) (mask : BitVec 16) : Completes ps r (execUnsluice c well mask s)
    := by
  unfold Machine.execUnsluice
  exact h.command out dci faults free _ _ _ _ (fun x => ((Reaches.refl ps x)).sluiceBody net _ _ _)

theorem Reaches.execSluice (c : CmdRef) (well : ℕ) (mask : BitVec 16) : Completes ps r (execSluice c well mask s)
    := by
  unfold Machine.execSluice
  exact h.command out dci faults free _ _ _ _ (fun x => ((Reaches.refl ps x)).sluiceBody net _ _ _)

theorem Reaches.execEcidMapSet (c : CmdRef) (index : ℕ) (entry : W64) : Completes ps r
    (execEcidMapSet c index entry s) := by
  unfold Machine.execEcidMapSet
  exact h.command out dci faults free _ _ _ _ (fun x => ((Reaches.refl ps x)).ecidBody net _ _)

theorem Reaches.execModuleAccess (c : CmdRef) (slot : ℕ) (bank : ℕ) (page : ℕ) (offset : ℕ) (len : ℕ) (write : ℕ)
    (data : List Byte) (answer : List Byte) : Completes ps r (execModuleAccess c slot bank page offset len write data
    answer s) := by
  unfold Machine.execModuleAccess
  exact h.command out dci faults free _ _ _ _ (fun x => ((Reaches.refl ps x)).moduleAccessBody out
      net _ _ _ _ _ _ _ _)

theorem Reaches.execModuleMap (c : CmdRef) (slot : ℕ) (bus : ℕ) (firstLane : ℕ) (lanes : ℕ)
    (hasModsel : ℕ) : Completes ps r (execModuleMap c slot bus firstLane lanes hasModsel s) := by
  unfold Machine.execModuleMap
  exact h.command out dci faults free _ _ _ _ (fun x => ((Reaches.refl ps x)).moduleMapBody net _ _ _ _ _)

theorem Reaches.execPortDisable (c : CmdRef) (port : ℕ) : Completes ps r (execPortDisable c port s) := by
  unfold Machine.execPortDisable
  exact h.command out dci faults free _ _ _ _ (fun x => ((Reaches.refl ps x)).portDisableBody net _ _)

theorem Reaches.execPortEnable (c : CmdRef) (port : ℕ) : Completes ps r (execPortEnable c port s) := by
  unfold Machine.execPortEnable
  exact h.command out dci faults free _ _ _ _ (fun x => ((Reaches.refl ps x)).portEnableBody out net dci faults _)

theorem Reaches.execPortConfig (c : CmdRef) (port : ℕ) (a : PortConfigArgs) : Completes ps r
    (execPortConfig c port a s) := by
  unfold Machine.execPortConfig
  exact h.command out dci faults free _ _ _ _ (fun x => ((Reaches.refl ps x)).portConfigBody net _ _)

end

section
variable {ps : List Part} {r s : State} (h : Reaches ps r s) (out : .out ∈ ps) (net : .net ∈ ps)
    (egress : .egress ∈ ps) (dci : .dci ∈ ps) (faults : .faults ∈ ps)
include h out net egress dci faults

theorem Reaches.dropPort (q : ℕ) : Reaches ps r (s.dropPort q) := by
  unfold State.dropPort
  exact Reaches.ite ((h.setPort net _ _).policyStart out egress dci faults _) (h.setPort net _ _)

theorem Reaches.execLinkDebounceExpiry (port : ℕ) : Completes ps r (execLinkDebounceExpiry port s) := by
  unfold Machine.execLinkDebounceExpiry
  dsimp only
  split
  · exact h.completes
  · exact Completes.ite h.completes (Completes.ite ((h.updLink net _ _).completes)
        (((((h.updLink net _ _).updPort net _ _).portEvent out dci faults _ _ _ _).policyEnd out egress dci
        faults _).completes))

end

section
variable {ps : List Part} {r s : State} (h : Reaches ps r s) (out : .out ∈ ps) (net : .net ∈ ps)
    (tables : .tables ∈ ps) (dci : .dci ∈ ps) (faults : .faults ∈ ps)
include h out net tables dci faults

theorem Reaches.trigger (w : ℕ) (n : Learn) : Reaches ps r (s.trigger w n) := by
  unfold State.trigger
  dsimp only
  split
  · split
    · exact (((h.setL2t tables _ _).updL2t tables _ _).dpTouch tables _ _).notice net tables _ _
    · exact h.updL2t tables _ _
  · split
    · exact h
    · exact Reaches.ite (Reaches.ite h (((h.setL2t tables _ _).dpTouch tables _ _).notice net tables _ _))
          (Reaches.ite (h.staticMove out tables dci faults _ _ _)
          ((((h.setL2t tables _ _).updL2t tables _ _).dpTouch tables _ _).notice net tables _ _))

theorem Reaches.execL2TriggerApply (well : ℕ) : Completes ps r (execL2TriggerApply well s) := by
  unfold Machine.execL2TriggerApply
  dsimp only
  split
  · exact ((h.setWell net _ _).trigger out net tables dci faults _ _).completes
  · exact h.completes

end

section
variable {ps : List Part} {r s : State} (h : Reaches ps r s) (out : .out ∈ ps) (order : .order ∈ ps)
    (basin : .basin ∈ ps) (egress : .egress ∈ ps) (dci : .dci ∈ ps)
include h out order basin egress dci

theorem Reaches.puntDrop (f : HostFn) (ring : ℕ) (c : PuntCopy) (code : ℕ) (sub : ℕ) : Reaches ps r
    (s.puntDrop f ring c code sub) := by
  unfold State.puntDrop
  split
  · exact h
  · dsimp only
    split
    · exact ((((h.updRx dci _ _ _).sump egress _ _ _).sample egress dci _ _ _ _ _ _ _).decRef out basin
          egress _).outcome order _ _
    · exact (((h.updRx dci _ _ _).sump egress _ _ _).sample egress dci _ _ _ _ _ _ _).decRef out basin egress _

theorem Reaches.puntArrive (f : HostFn) (ring : ℕ) (c : PuntCopy) : Reaches ps r (s.puntArrive f ring c) := by
  unfold State.puntArrive
  exact Reaches.ite (h.puntDrop out order basin egress dci _ _ _ _ _)
      (Reaches.ite (h.puntDrop out order basin egress dci _ _ _ _ _) (h.updRx dci _ _ _))

theorem Reaches.puntFlush (f : HostFn) (ring : ℕ) : Reaches ps r (s.puntFlush f ring) := by
  unfold State.puntFlush
  exact Reaches.foldl (h.updRx dci _ _ _) _ fun x _ => ((Reaches.refl ps x)).puntDrop out order basin egress
      dci _ _ _ _ _

theorem Reaches.puntOff (f : HostFn) (tx : Bool) (r' : ℕ) : Reaches ps r (s.puntOff f tx r') := by
  unfold State.puntOff
  exact (Reaches.ite h (h.puntFlush out order basin egress dci _ _)).updPunt dci _ _ _ _

theorem Reaches.puntBaseWrite (f : HostFn) (tx : Bool) (r' : ℕ) (v : W64) : Reaches ps r (s.puntBaseWrite f tx r' v)
    := by
  unfold State.puntBaseWrite
  exact Reaches.ite (Reaches.ite h (Reaches.ite h (h.puntOff out order basin egress dci _ _ _)))
      (Reaches.ite (h.puntOn dci _ _ _ _) (h.updPunt dci _ _ _ _))

theorem Reaches.puntCfgWrite (f : HostFn) (tx : Bool) (o : ℕ) (v : W64) : Reaches ps r (s.puntCfgWrite f tx o v) := by
  unfold State.puntCfgWrite
  split
  · exact h.puntBaseWrite out order basin egress dci _ _ _ _
  · exact h.puntSizeWrite dci _ _ _ _
  · exact h

theorem Reaches.execPuntRingDisable (fn : HostFn) (tx : Bool) (ring : ℕ) : Completes ps r
    (execPuntRingDisable fn tx ring s) := by
  unfold Machine.execPuntRingDisable
  exact Completes.ite ((h.puntOff out order basin egress dci _ _ _).completes) h.completes

end

section
variable {ps : List Part} {r s : State} (h : Reaches ps r s) (out : .out ∈ ps) (order : .order ∈ ps) (dci : .dci ∈ ps)
    (faults : .faults ∈ ps) (free : .free ∈ ps)
include h out order dci faults free

theorem Reaches.execVersionFence (c : CmdRef) (version : ℕ) (all : Bool) (cancel : Bool) (first : ℕ)
    (count : ℕ) : Completes ps r (execVersionFence c version all cancel first count s) := by
  unfold Machine.execVersionFence
  exact h.command out dci faults free _ _ _ _ (fun x => ((Reaches.refl ps x)).versionFenceBody order _ _ _ _ _)

theorem Reaches.execOrderConfig (c : CmdRef) (affinityWait : ℕ) (excHost : ℕ) (excRing : ℕ) (fenceDrain : ℕ)
    (stallTime : ℕ) : Completes ps r (execOrderConfig c affinityWait excHost excRing fenceDrain stallTime s) := by
  unfold Machine.execOrderConfig
  exact h.command out dci faults free _ _ _ _ (fun x => ((Reaches.refl ps x)).orderConfigBody order _ _ _ _ _)

end

section
variable {ps : List Part} {r s : State} (h : Reaches ps r s) (out : .out ∈ ps) (order : .order ∈ ps)
    (tables : .tables ∈ ps) (dci : .dci ∈ ps) (faults : .faults ∈ ps)
include h out order tables dci faults

theorem Reaches.weirFull : Reaches ps r s.weirFull := by
  unfold State.weirFull
  exact Reaches.ite (((h.updCnt order _).updWeirCnt tables _).event out dci faults _ _)
      ((h.updCnt order _).updWeirCnt tables _)

theorem Reaches.weirCharge (p : ℕ) (w : ℕ) (bytes : ℕ) (inCol : ℕ) (aware : Bool) : Reaches ps r
    (s.weirCharge p w bytes inCol aware).1 := by
  unfold State.weirCharge
  split
  · dsimp only
    exact h.updWeirCnt tables _
  · dsimp only
    split
    · dsimp only
      exact (h.setWeir tables _ _).updWeirCnt tables _
    · split
      · dsimp only
        exact ((h.setWeir tables _ _).updWeirCnt tables _).weirFull out order tables dci faults
      · dsimp only
        exact (((h.setWeir tables _ _).updWeirCnt tables _).setWeir tables _ _).updTables tables _

end

section
variable {ps : List Part} {r s : State} (h : Reaches ps r s) (out : .out ∈ ps) (tables : .tables ∈ ps)
    (dci : .dci ∈ ps) (faults : .faults ∈ ps) (free : .free ∈ ps)
include h out tables dci faults free

theorem Reaches.execTableScrubConfig (c : CmdRef) (table : ℕ) (enable : ℕ) (periodS : ℕ) (ringAddr : ℕ)
    (ringEntries : ℕ) : Completes ps r (execTableScrubConfig c table enable periodS ringAddr ringEntries s) := by
  unfold Machine.execTableScrubConfig
  exact h.command out dci faults free _ _ _ _ (fun x => ((Reaches.refl ps x)).tableScrubBody tables _ _ _ _ _ _)

theorem Reaches.execL2Flush (c : CmdRef) (scope : ℕ) (value : ℕ) : Completes ps r (execL2Flush c scope value s) := by
  unfold Machine.execL2Flush
  exact h.command out dci faults free _ _ _ _ (fun x => ((Reaches.refl ps x)).l2FlushBody tables _ _ _)

theorem Reaches.execEmTableSet (c : CmdRef) (table : ℕ) (bucketsLog2 : ℕ) (klen : ℕ) (cache : ℕ) (destroy : ℕ)
    (seed : W32) : Completes ps r (execEmTableSet c table bucketsLog2 klen cache destroy seed s) := by
  unfold Machine.execEmTableSet
  exact h.command out dci faults free _ _ _ _ (fun x => ((Reaches.refl ps x)).emTableBody tables _ _ _ _ _ _ _)

theorem Reaches.execTableRead (c : CmdRef) (w : W64) (keys' : List W64) : Completes ps r (execTableRead c w keys' s)
    := by
  unfold Machine.execTableRead
  exact h.command out dci faults free _ _ _ _ (fun x => ((Reaches.refl ps x)).tableReadBody tables free _ _ _)

theorem Reaches.execTableBatch (c : CmdRef) (atomic : Bool) (stopOnError : Bool) (ops : List TblOp) : Completes ps r
    (execTableBatch c atomic stopOnError ops s) := by
  unfold Machine.execTableBatch
  exact Completes.ite h.completes (h.command out dci faults free _ _ _ _
      (fun x => ((Reaches.refl ps x)).tableBatchBody tables free _ _ _ _))

end

section
variable {ps : List Part} {r s : State} (h : Reaches ps r s) (out : .out ∈ ps) (tables : .tables ∈ ps)
    (ledger : .ledger ∈ ps) (dci : .dci ∈ ps) (faults : .faults ∈ ps)
include h out tables ledger dci faults

theorem Reaches.regionHurt (use : ℕ) (off : ℕ) : Reaches ps r (s.regionHurt use off) := by
  unfold State.regionHurt
  split
  · exact (h.updTables tables _).tableError out tables dci faults _ _ _
  · split
    · exact (h.setEmt tables _ _).tableError out tables dci faults _ _ _
    · exact h
  · exact (h.updTables tables _).tableError out tables dci faults _ _ _
  · exact h.ledgerUnit out ledger dci faults _
  · exact h

end

section
variable {ps : List Part} {r s : State} (h : Reaches ps r s) (out : .out ∈ ps) (time : .time ∈ ps) (dci : .dci ∈ ps)
    (faults : .faults ∈ ps) (free : .free ∈ ps)
include h out time dci faults free

theorem Reaches.execPpsOutConfig (c : CmdRef) (compQns : ℤ) (highNs : ℕ) (freerun : ℕ) : Completes ps r
    (execPpsOutConfig c compQns highNs freerun s) := by
  unfold Machine.execPpsOutConfig
  exact h.command out dci faults free _ _ _ _ (fun x => ((Reaches.refl ps x)).ppsOutConfigBody time _ _ _)

theorem Reaches.execTimeStatus (c : CmdRef) : Completes ps r (execTimeStatus c s) := by
  unfold Machine.execTimeStatus
  exact h.command out dci faults free _ _ _ _ (fun x => ((Reaches.refl ps x)).timeStatusBody time)

end

section
variable {ps : List Part} {r s : State} (h : Reaches ps r s) (out : .out ∈ ps) (time : .time ∈ ps)
    (ledger : .ledger ∈ ps) (dci : .dci ∈ ps) (faults : .faults ∈ ps)
include h out time ledger dci faults

theorem Reaches.leaveLocked (reason : ℕ) : Reaches ps r (s.leaveLocked reason) := by
  unfold State.leaveLocked
  exact Reaches.ite (((h.updTime time _).markHoldover ledger).timeEvent out dci faults _ _ _) h

theorem Reaches.baseLost (well : ℕ) : Reaches ps r (s.baseLost well) := by
  unfold State.baseLost
  exact Reaches.ite (Reaches.ite (h.updTime time _) h) (((Reaches.ite (h.updTime time _) h).updTime
      time _).leaveLocked out time ledger dci faults _)

theorem Reaches.freqRange (pps : Bool) : Reaches ps r (s.freqRange pps) := by
  unfold State.freqRange
  exact Reaches.ite ((h.updTime time _).leaveLocked out time ledger dci faults _)
      (((h.updTime time _).updTime time _).timeEvent out dci faults _ _ _)

theorem Reaches.lostCheck (reason : ℕ) : Reaches ps r (s.lostCheck reason) := by
  unfold State.lostCheck
  exact Reaches.ite h ((h.updTime time _).leaveLocked out time ledger dci faults _)

theorem Reaches.measured (off : ℤ) : Reaches ps r (s.measured off) := by
  unfold State.measured
  exact Reaches.ite (Reaches.ite (((h.slewRule out time dci faults _).updTime time _).leaveLocked out time ledger dci
      faults _) ((h.slewRule out time dci faults _).updTime time _))
      (Reaches.ite (((h.slewRule out time dci faults _).updTime time _).enterLocked out time dci faults)
      ((h.slewRule out time dci faults _).updTime time _))

theorem Reaches.setSource (phase : ℕ) (freq : ℕ) (port : ℕ) (domain : ℕ) (hold : ℕ) : Reaches ps r
    (s.setSource phase freq port domain hold) := by
  unfold State.setSource
  exact Reaches.ite (Reaches.ite (h.updTime time _) ((h.updTime time _).leaveLocked out time ledger dci faults _))
      (Reaches.ite ((Reaches.ite (h.updTime time _) ((h.updTime time _).leaveLocked out time ledger dci
      faults _)).updTime time _) (Reaches.ite ((Reaches.ite (h.updTime time _)
      ((h.updTime time _).leaveLocked out time ledger dci faults _)).updTime time _)
      (Reaches.ite (h.updTime time _) ((h.updTime time _).leaveLocked out time ledger dci faults _))))

theorem Reaches.timeSourceBody (phase : ℕ) (freq : ℕ) (port : ℕ) (domain : ℕ) (hold : ℕ) : Reaches ps r
    (timeSourceBody phase freq port domain hold s).1 := by
  unfold Machine.timeSourceBody
  split
  · exact h
  · dsimp only
    exact h.setSource out time ledger dci faults _ _ _ _ _

theorem Reaches.execPpsInMissing : Completes ps r (execPpsInMissing s) := by
  unfold Machine.execPpsInMissing
  exact Completes.ite ((Reaches.ite ((h.updTime time _).lostCheck out time ledger dci faults _)
      (h.updTime time _)).completes) h.completes

theorem Reaches.execPtpLossTimeout : Completes ps r (execPtpLossTimeout s) := by
  unfold Machine.execPtpLossTimeout
  dsimp only
  exact Completes.ite (((h.updTime time _).lostCheck out time ledger dci faults _).completes) h.completes

end

section
variable {ps : List Part} {r s : State} (h : Reaches ps r s) (thrs : .thrs ∈ ps) (truns : .truns ∈ ps)
    (cores : .cores ∈ ps) (clusters : .clusters ∈ ps) (locks : .locks ∈ ps)
include h thrs truns cores clusters locks

theorem Reaches.stopChild (t : ℕ) : Reaches ps r (s.stopChild t) := by
  unfold State.stopChild
  exact ((h.quiet truns cores clusters locks _).abandonAll thrs truns locks _).updTr truns _ _

theorem Reaches.stopChildren (t : ℕ) : Reaches ps r (s.stopChildren t) := by
  unfold State.stopChildren
  exact (Reaches.foldl h _ fun x _ => ((Reaches.refl ps x)).stopChild thrs truns cores clusters locks _).updTr
      truns _ _

end

section
variable {ps : List Part} {r s : State} (h : Reaches ps r s) (order : .order ∈ ps) (thrs : .thrs ∈ ps)
    (truns : .truns ∈ ps) (cores : .cores ∈ ps) (clusters : .clusters ∈ ps) (power : .power ∈ ps)
include h order thrs truns cores clusters power

theorem Reaches.startRun (t : ℕ) (p : ℕ) : Reaches ps r (s.startRun t p) := by
  unfold State.startRun
  exact (((((h.updThr thrs _ _).updTr truns _ _).updPkt order _ _).updRc order _ _).ungate cores power _).traceRec
      clusters _ _ _ _

end

section
variable {ps : List Part} {r s : State} (h : Reaches ps r s) (out : .out ∈ ps) (basin : .basin ∈ ps)
    (egress : .egress ∈ ps) (dci : .dci ∈ ps) (faults : .faults ∈ ps) (free : .free ∈ ps)
include h out basin egress dci faults free

theorem Reaches.execBufferReclaim (c : CmdRef) (mode : ℕ) (cluster : ℕ) (handles : List W32) : Completes ps r
    (execBufferReclaim c mode cluster handles s) := by
  unfold Machine.execBufferReclaim
  exact h.command out dci faults free _ _ _ _ (fun x => ((Reaches.refl ps x)).bufferReclaimBody out basin egress dci
      faults _ _ _)

end

section
variable {ps : List Part} {r s : State} (h : Reaches ps r s) (out : .out ∈ ps) (basin : .basin ∈ ps)
    (ledger : .ledger ∈ ps) (dci : .dci ∈ ps) (faults : .faults ∈ ps) (trust : .trust ∈ ps)
include h out basin ledger dci faults trust

theorem Reaches.primeReady (warm : Bool) : Reaches ps r (s.primeReady warm) := by
  unfold State.primeReady
  exact Reaches.ite ((Reaches.ite ((((((h.setStep dci _).setDev out dci faults _ _).confirmFw trust).poolDrop
      basin _).openEpoch ledger _).updLedger ledger _) ((((h.setStep dci _).setDev out dci faults _ _).confirmFw
      trust).poolDrop basin _)).warmEnd out dci) (Reaches.ite ((((((h.setStep dci _).setDev out dci
      faults _ _).confirmFw trust).poolDrop basin _).openEpoch ledger _).updLedger ledger _)
      ((((h.setStep dci _).setDev out dci faults _ _).confirmFw trust).poolDrop basin _))

end

section
variable {ps : List Part} {r s : State} (h : Reaches ps r s) (out : .out ∈ ps) (cistern : .cistern ∈ ps)
    (hbm : .hbm ∈ ps) (dci : .dci ∈ ps) (faults : .faults ∈ ps) (free : .free ∈ ps)
include h out cistern hbm dci faults free

theorem Reaches.execHbmPcRetire (c : CmdRef) (pc : ℕ) : Completes ps r (execHbmPcRetire c pc s) := by
  unfold Machine.execHbmPcRetire
  exact h.command out dci faults free _ _ _ _ (fun x => ((Reaches.refl ps x)).pcRetireBody cistern hbm _ _)

end

section
variable {ps : List Part} {r s : State} (h : Reaches ps r s) (out : .out ∈ ps) (cistern : .cistern ∈ ps)
    (mem : .mem ∈ ps) (dci : .dci ∈ ps) (faults : .faults ∈ ps) (free : .free ∈ ps)
include h out cistern mem dci faults free

theorem Reaches.execHbmPartition (c : CmdRef) (action : ℕ) (id : ℕ) (order' : ℕ) (right : ℕ)
    (sizes : List ℕ) : Completes ps r (execHbmPartition c action id order' right sizes s) := by
  unfold Machine.execHbmPartition
  exact h.command out dci faults free _ _ _ _ (fun x => ((Reaches.refl ps x)).hbmPartitionBody cistern mem _ _ _ _ _)

theorem Reaches.execCisternConfig (c : CmdRef) (sizeGib : ℕ) : Completes ps r (execCisternConfig c sizeGib s) := by
  unfold Machine.execCisternConfig
  exact h.command out dci faults free _ _ _ _ (fun x => ((Reaches.refl ps x)).cisternConfigBody cistern mem _ _)

end

section
variable {ps : List Part} {r s : State} (h : Reaches ps r s) (out : .out ∈ ps) (cistern : .cistern ∈ ps)
    (mem : .mem ∈ ps) (hbm : .hbm ∈ ps) (dci : .dci ∈ ps) (faults : .faults ∈ ps)
include h out cistern mem hbm dci faults

theorem Reaches.execRetireWaitExpiry : Completes ps r (execRetireWaitExpiry s) := by
  unfold Machine.execRetireWaitExpiry
  split
  · exact h.completes
  · exact Completes.ite h.completes ((((((h.cisternResize cistern mem _).updCistern cistern _).updHbm hbm _).event out
        dci faults _ _).answer out dci _ _).completes)

theorem Reaches.execRetireDrainDone : Completes ps r (execRetireDrainDone s) := by
  unfold Machine.execRetireDrainDone
  split
  · exact h.completes
  · dsimp only
    exact Completes.ite h.completes (((((Reaches.ite (((h.cisternResize cistern mem _).updCistern cistern _).event out
        dci faults _ _) h).updHbm hbm _).updHbm hbm _).event out dci faults _ _).completes)

end

section
variable {ps : List Part} {r s : State} (h : Reaches ps r s) (out : .out ∈ ps) (clusters : .clusters ∈ ps)
    (dci : .dci ∈ ps) (faults : .faults ∈ ps) (trust : .trust ∈ ps) (free : .free ∈ ps)
include h out clusters dci faults trust free

theorem Reaches.execClusterAdmit (c : CmdRef) (cluster : ℕ) : Completes ps r (execClusterAdmit c cluster s) := by
  unfold Machine.execClusterAdmit
  exact h.command out dci faults free _ _ _ _ (fun x => ((Reaches.refl ps x)).clusterAdmitBody clusters trust _)

end

section
variable {ps : List Part} {r s : State} (h : Reaches ps r s) (out : .out ∈ ps) (clusters : .clusters ∈ ps)
    (mem : .mem ∈ ps) (dci : .dci ∈ ps) (faults : .faults ∈ ps) (free : .free ∈ ps)
include h out clusters mem dci faults free

theorem Reaches.execClusterConfig (c : CmdRef) (cluster : ℕ) (scratchWays : ℕ) (watchdog : ℕ)
    (pfDepth : ℕ) : Completes ps r (execClusterConfig c cluster scratchWays watchdog pfDepth s) := by
  unfold Machine.execClusterConfig
  exact h.command out dci faults free _ _ _ _ (fun x => ((Reaches.refl ps x)).clusterConfigBody clusters mem _ _ _ _)

end

section
variable {ps : List Part} {r s : State} (h : Reaches ps r s) (out : .out ∈ ps) (mem : .mem ∈ ps) (hbm : .hbm ∈ ps)
    (tables : .tables ∈ ps) (dci : .dci ∈ ps) (faults : .faults ∈ ps)
include h out mem hbm tables dci faults

theorem Reaches.lkpEm (k : ℕ) (keys' : List W64) (err : Bool) : Reaches ps r (s.lkpEm k keys' err).1 := by
  unfold State.lkpEm
  split
  · exact h
  · split
    · exact h
    · split
      · dsimp only
        exact ((h.setEmt tables _ _).tableError out tables dci faults _ _ _).hbmError out mem hbm dci faults _ _
      · split
        · exact h
        · split
          · exact h
          · exact h

end

section
variable {ps : List Part} {r s : State} (h : Reaches ps r s) (out : .out ∈ ps) (net : .net ∈ ps)
    (clusters : .clusters ∈ ps) (dci : .dci ∈ ps) (faults : .faults ∈ ps) (free : .free ∈ ps)
include h out net clusters dci faults free

theorem Reaches.critical : Reaches ps r s.critical := by
  unfold State.critical
  exact Reaches.ite ((Reaches.foldl (h.updNet net _) _ fun x _ => Reaches.ite ((Reaches.refl ps x))
      (((Reaches.refl ps x)).updCl clusters _ _)).toFault out dci faults free _)
      (Reaches.foldl (h.updNet net _) _ fun x _ => Reaches.ite ((Reaches.refl ps x))
      (((Reaches.refl ps x)).updCl clusters _ _))

end

section
variable {ps : List Part} {r s : State} (h : Reaches ps r s) (out : .out ∈ ps) (net : .net ∈ ps)
    (egress : .egress ∈ ps) (tables : .tables ∈ ps) (dci : .dci ∈ ps) (faults : .faults ∈ ps)
include h out net egress tables dci faults

theorem Reaches.execLinkHoldoffExpiry (port : ℕ) : Completes ps r (execLinkHoldoffExpiry port s) := by
  unfold Machine.execLinkHoldoffExpiry
  dsimp only
  split
  · exact h.completes
  · exact Completes.ite h.completes ((((h.updPort net _ _).reportDown out egress tables dci faults _ _).flap out net
        dci faults _).completes)

end

section
variable {ps : List Part} {r s : State} (h : Reaches ps r s) (out : .out ∈ ps) (net : .net ∈ ps)
    (tables : .tables ∈ ps) (dci : .dci ∈ ps) (faults : .faults ∈ ps) (free : .free ∈ ps)
include h out net tables dci faults free

theorem Reaches.execL2Config (c : CmdRef) (ageTimeS : ℕ) (flushOnDown : ℕ) : Completes ps r
    (execL2Config c ageTimeS flushOnDown s) := by
  unfold Machine.execL2Config
  exact h.command out dci faults free _ _ _ _ (fun x => ((Reaches.refl ps x)).l2ConfigBody net tables _ _)

end

section
variable {ps : List Part} {r s : State} (h : Reaches ps r s) (out : .out ∈ ps) (order : .order ∈ ps)
    (basin : .basin ∈ ps) (egress : .egress ∈ ps) (dci : .dci ∈ ps) (faults : .faults ∈ ps)
include h out order basin egress dci faults

theorem Reaches.dropCopy (c : Copy) (code : ℕ) (sub : ℕ) (bytes : List Byte) (ref : Bool) (held : Bool) : Reaches ps r
    (s.dropCopy c code sub bytes ref held) := by
  unfold State.dropCopy
  exact (Reaches.ite ((Reaches.ite (((((h.sump egress _ _ _).sumpAt egress _ _ _).sample egress
      dci _ _ _ _ _ _ _).updQueue egress _ _).updPump egress _ _)
      ((((h.sump egress _ _ _).sumpAt egress _ _ _).sample egress dci _ _ _ _ _ _ _).updQueue egress _ _)).endRef out
      basin egress dci faults _) (Reaches.ite (((((h.sump egress _ _ _).sumpAt egress _ _ _).sample egress
      dci _ _ _ _ _ _ _).updQueue egress _ _).updPump egress _ _)
      ((((h.sump egress _ _ _).sumpAt egress _ _ _).sample egress dci _ _ _ _ _ _ _).updQueue
      egress _ _))).copyOutcome order _ _

theorem Reaches.killCopy (c : Copy) (code : ℕ) (sub : ℕ) : Reaches ps r (s.killCopy c code sub) := by
  unfold State.killCopy
  exact h.dropCopy out order basin egress dci faults _ _ _ _ _ _

theorem Reaches.killRec (r' : SpillRec Copy) (code : ℕ) (sub : ℕ) : Reaches ps r (s.killRec r' code sub) := by
  unfold State.killRec
  exact h.dropCopy out order basin egress dci faults _ _ _ _ _ _

theorem Reaches.refillAll (queue pn : Nat) (bad : Option Nat) (l : List (SpillRec Copy)) :
    Maybe ps r (s.refillAll queue pn bad l) := by
  induction l generalizing s with
  | nil => exact h.maybe
  | cons x rest ih =>
    unfold State.refillAll
    split
    · exact ih (h.killRec out order basin egress dci faults _ _ _)
    · split
      · exact ih ((h.bufferError out dci faults _ _).killRec out order basin egress dci faults _ _ _)
      · split
        · rename_i eq
          exact ih (h.refillOne out basin egress _ _ _ _ eq)
        · exact .none

theorem Reaches.startCopy (phys : ℕ) (c : Copy) : Reaches ps r (s.startCopy phys c) := by
  unfold State.startCopy
  split
  · exact h.killCopy out order basin egress dci faults _ _ _
  · split
    · exact h.killCopy out order basin egress dci faults _ _ _
    · exact h.updEport egress _ _

theorem Reaches.execPuntRxDeliver (fn : HostFn) (ring : ℕ) (bufs : List (ℕ × ℕ)) : Completes ps r
    (execPuntRxDeliver fn ring bufs s) := by
  unfold Machine.execPuntRxDeliver
  dsimp only
  split
  · exact h.completes
  · split
    · exact h.completes
    · split
      · exact ((((h.updRx dci _ _ _).writePunt out dci _ _ _ _ _ _).with_out out _).irq out dci _ _).completes
      · split
        · exact ((((((h.updRx dci _ _ _).writePunt out dci _ _ _ _ _ _).with_out out _).irq out dci _ _).endRef out
              basin egress dci faults _).outcome order _ _).completes
        · exact (((((h.updRx dci _ _ _).writePunt out dci _ _ _ _ _ _).with_out out _).irq out dci _ _).endRef out
              basin egress dci faults _).completes

theorem Reaches.execPumpSelect (port : ℕ) (err : Option BufErr) : Completes ps r (execPumpSelect port err s) := by
  unfold Machine.execPumpSelect
  split
  · exact h.completes
  · dsimp only
    split
    · exact (h.select egress _).completes
    · split
      · exact (h.select egress _).completes
      · split
        · exact (((((h.select egress _).popHead egress _).clearDeficits egress _).readError out basin dci
              faults _ _).killCopy out order basin egress dci faults _ _ _).completes
        · exact (((((h.select egress _).popHead egress _).clearDeficits egress _).readError out basin dci
              faults _ _).startCopy out order basin egress dci faults _ _).completes

end

section
variable {ps : List Part} {r s : State} (h : Reaches ps r s) (out : .out ∈ ps) (order : .order ∈ ps)
    (truns : .truns ∈ ps) (clusters : .clusters ∈ ps) (dci : .dci ∈ ps) (faults : .faults ∈ ps)
include h out order truns clusters dci faults

theorem Reaches.drainStart (c : ℕ) (by_ : Option CmdRef) (us : ℕ) : Reaches ps r (s.drainStart c by_ us) := by
  unfold State.drainStart
  exact Reaches.foldl ((Reaches.ite (h.fenceDrain out order dci faults _) h).updCl clusters _ _) _
      fun x _ => ((Reaches.refl ps x)).returnNext order truns _

theorem Reaches.clusterDrainBody (c : CmdRef) (cl : ℕ) (us : ℕ) : Reaches ps r (clusterDrainBody c cl us s).1 := by
  unfold Machine.clusterDrainBody
  split
  · exact h
  · split
    · dsimp only
      exact h.drainStart out order truns clusters dci faults _ _ _
    · exact h
    · exact h
    · exact h

end

section
variable {ps : List Part} {r s : State} (h : Reaches ps r s) (out : .out ∈ ps) (power : .power ∈ ps)
    (ledger : .ledger ∈ ps) (dci : .dci ∈ ps) (faults : .faults ∈ ps) (free : .free ∈ ps)
include h out power ledger dci faults free

theorem Reaches.execPowerFailFlushDone : Completes ps r (execPowerFailFlushDone s) := by
  unfold Machine.execPowerFailFlushDone
  split
  · exact h.completes
  · dsimp only
    split
    · exact h.completes
    · refine Reaches.completes ?_
      refine Reaches.toFault ?_ out dci faults free _
      refine Reaches.updPower ?_ power _
      split
      · exact Reaches.ite h ((h.pushRecords out _ _ _).updLedger ledger _)
      · exact h

end

section
variable {ps : List Part} {r s : State} (h : Reaches ps r s) (out : .out ∈ ps) (thrs : .thrs ∈ ps)
    (truns : .truns ∈ ps) (locks : .locks ∈ ps) (dci : .dci ∈ ps) (faults : .faults ∈ ps)
include h out thrs truns locks dci faults

theorem Reaches.lockRelease (r' : Requester) (k : ℕ) : Reaches ps r (s.lockRelease r' k) := by
  unfold State.lockRelease
  exact Reaches.ite (h.lockFault out locks dci faults _ _ _) (Reaches.ite (h.lockFault out locks dci faults _ _ _)
      (h.lockPass thrs truns locks _))

end

section
variable {ps : List Part} {r s : State} (h : Reaches ps r s) (out : .out ∈ ps) (time : .time ∈ ps)
    (basin : .basin ∈ ps) (egress : .egress ∈ ps) (truns : .truns ∈ ps) (locks : .locks ∈ ps)
include h out time basin egress truns locks

theorem Reaches.devLoad (t a : Nat) : (s.devLoad t a).reaches ps r := by
  have lock (b : Bool) := h.lockAcquireNow locks (.thread t) ((a - lockBase) / 64) b
  unfold State.devLoad
  extract_lets no q
  refine .ite ?_ (.ite h (.ite (h.portLoad out basin egress truns _ _)
      (.ite h (.ite h (.ite h (.ite h (.ite ?_ (.ite h (.ite h
    (.ite ?_ (.ite h trivial)))))))))))
  · split
    · rename_i eq
      exact h.timeReg time _ _ _ eq
    · trivial
  · split
    · split
      · rename_i eq
        exact Reaches.of_fst eq (lock _)
      · trivial
    · split
      · rename_i eq
        exact Reaches.of_fst eq (lock _)
      · trivial
    · exact h
    · trivial
    · trivial
    · trivial
  · split
    · exact h
    · trivial

end

section
variable {ps : List Part} {r s : State} (h : Reaches ps r s) (out : .out ∈ ps) (time : .time ∈ ps)
    (ledger : .ledger ∈ ps) (dci : .dci ∈ ps) (faults : .faults ∈ ps) (free : .free ∈ ps)
include h out time ledger dci faults free

theorem Reaches.measure (pps : Bool) (off : ℤ) : Reaches ps r (s.measure pps off) := by
  unfold State.measure
  exact Reaches.ite h (Reaches.ite (Reaches.ite (((h.updTime time _).draw free).freqRange out time ledger dci
      faults _) ((((h.updTime time _).draw free).updTime time _).measured out time ledger dci faults _))
      ((h.updTime time _).measured out time ledger dci faults _))

theorem Reaches.execTimeSource (c : CmdRef) (phase : ℕ) (freq : ℕ) (ptpPort : ℕ) (ptpDomain : ℕ)
    (holdoverS : ℕ) : Completes ps r (execTimeSource c phase freq ptpPort ptpDomain holdoverS s) := by
  unfold Machine.execTimeSource
  exact h.command out dci faults free _ _ _ _ (fun x => ((Reaches.refl ps x)).timeSourceBody out time ledger dci
      faults _ _ _ _ _)

theorem Reaches.execPpsInEdge : Completes ps r (execPpsInEdge s) := by
  unfold Machine.execPpsInEdge
  dsimp only
  exact Completes.ite ((Reaches.ite ((h.updTime time _).lostCheck out time ledger dci faults _)
      (h.updTime time _)).completes) (Completes.ite ((((h.updTime time _).ppsOffset free _).measure out time ledger
      dci faults free _ _).completes) ((h.updTime time _).completes))

theorem Reaches.execPtpMessageRx (port : ℕ) (rx : PtpRx) : Completes ps r (execPtpMessageRx port rx s) := by
  unfold Machine.execPtpMessageRx
  split
  · exact h.completes
  · dsimp only
    split
    · exact (((h.updTime time _).with_out out _).measure out time ledger dci faults free _ _).completes
    · exact ((h.updTime time _).with_out out _).completes

end

section
variable {ps : List Part} {r s : State} (h : Reaches ps r s) (thrs : .thrs ∈ ps) (truns : .truns ∈ ps)
    (scratch : .scratch ∈ ps) (cores : .cores ∈ ps) (clusters : .clusters ∈ ps) (locks : .locks ∈ ps)
include h thrs truns scratch cores clusters locks

theorem Reaches.clearThread (t : ℕ) : Reaches ps r (s.clearThread t) := by
  unfold State.clearThread
  exact (((((h.quiet truns cores clusters locks _).abandonAll thrs truns locks _).dropDelays clusters _).setThr
      thrs _ _).setScr scratch _ _).updTr truns _ _

end

section
variable {ps : List Part} {r s : State} (h : Reaches ps r s) (time : .time ∈ ps) (order : .order ∈ ps)
    (truns : .truns ∈ ps) (cores : .cores ∈ ps) (clusters : .clusters ∈ ps) (power : .power ∈ ps)
include h time order truns cores clusters power

theorem Reaches.tick (slow : Bool) : Reaches ps r (s.tick slow) := by
  unfold State.tick
  exact Reaches.ite h ((Reaches.foldl (Reaches.foldl (Reaches.foldl ((h.updTime time _).updCnt order _) _
      fun x _ => ((Reaches.refl ps x)).tickThr truns _ _) _ fun x _ => ((Reaches.refl ps x)).tickCore cores _ _) _
      fun x _ => ((Reaches.refl ps x)).tickCluster clusters _ _).tickThrottle power _)

end

section
variable {ps : List Part} {r s : State} (h : Reaches ps r s) (order : .order ∈ ps) (thrs : .thrs ∈ ps)
    (truns : .truns ∈ ps) (cores : .cores ∈ ps) (clusters : .clusters ∈ ps) (locks : .locks ∈ ps)
    (power : .power ∈ ps)
include h order thrs truns cores clusters locks power

theorem Reaches.nextSlot (t : ℕ) : Reaches ps r (s.nextSlot t) := by
  unfold State.nextSlot
  dsimp only
  split
  · exact (h.abandonAll thrs truns locks _).updTr truns _ _
  · split
    · exact ((h.abandonAll thrs truns locks _).updTr truns _ _).startRun order thrs truns cores clusters power _ _
    · exact ((h.abandonAll thrs truns locks _).updTr truns _ _).wasBusy clusters _

theorem Reaches.retireDone (t : ℕ) : Reaches ps r (s.retireDone t) := by
  unfold State.retireDone
  exact ((((h.updThr thrs _ _).lockAtEnd clusters _).stopChildren thrs truns cores clusters locks _).quiet truns cores
      clusters locks _).nextSlot order thrs truns cores clusters locks power _

theorem Reaches.execPendingStoreRoom : Completes ps r (execPendingStoreRoom s) := by
  unfold Machine.execPendingStoreRoom
  split
  · exact h.completes
  · dsimp only
    split
    · exact (((h.updOrder order _).storePut order _ _ _ _ _).retireDone order thrs truns cores clusters locks
          power _).completes
    · exact ((h.updOrder order _).storePut order _ _ _ _ _).completes

end

section
variable {ps : List Part} {r s : State} (h : Reaches ps r s) (out : .out ∈ ps) (basin : .basin ∈ ps)
    (egress : .egress ∈ ps) (dci : .dci ∈ ps) (faults : .faults ∈ ps) (trust : .trust ∈ ps) (free : .free ∈ ps)
include h out basin egress dci faults trust free

theorem Reaches.copyFault (x : ResetRun) : Reaches ps r (s.copyFault x) := by
  unfold State.copyFault
  refine Reaches.updFaults ?_ faults _ ?_
  · exact (((((h.rollBack out dci faults trust).restartBuffers out basin egress).rerunAll dci).leaveRestart
      out dci faults _ _).deviceFault out dci faults free).leaseThaw dci
  · dsimp only
    exact id

end

section
variable {ps : List Part} {r s : State} (h : Reaches ps r s) (out : .out ∈ ps) (basin : .basin ∈ ps)
    (scratch : .scratch ∈ ps) (cores : .cores ∈ ps) (clusters : .clusters ∈ ps) (dci : .dci ∈ ps)
    (faults : .faults ∈ ps)
include h out basin scratch cores clusters dci faults

theorem Reaches.coreErr (t : ℕ) (a : ℕ) (e : CoreArray) : Reaches ps r (s.coreErr t a e) := by
  unfold State.coreErr
  dsimp only
  split
  · exact (h.updCore cores _ _).coreMemError out cores clusters dci faults _ _ _ _
  · exact (h.updCore cores _ _).coreMemError out cores clusters dci faults _ _ _ _
  · exact (h.updCore cores _ _).coreMemError out cores clusters dci faults _ _ _ _
  · exact (h.updCore cores _ _).coreMemError out cores clusters dci faults _ _ _ _
  · exact (h.updL2 clusters _ _).coreMemError out cores clusters dci faults _ _ _ _
  · exact (h.updL2 clusters _ _).coreMemError out cores clusters dci faults _ _ _ _
  · exact (h.updL2 clusters _ _).coreMemError out cores clusters dci faults _ _ _ _
  · split
    · exact Reaches.ite ((h.updBuf basin _ _).cellFault basin _) h
    · exact h
  · exact h.coreCorrected cores clusters faults _ _
  · exact (Reaches.ite (h.setScr scratch _ _) (Reaches.ite (h.updCl clusters _ _) h)).coreMemError out cores clusters
        dci faults _ _ _ _

end

section
variable {ps : List Part} {r s : State} (h : Reaches ps r s) (out : .out ∈ ps) (mem : .mem ∈ ps) (hbm : .hbm ∈ ps)
    (tables : .tables ∈ ps) (ledger : .ledger ∈ ps) (dci : .dci ∈ ps) (faults : .faults ∈ ps)
include h out mem hbm tables ledger dci faults

theorem Reaches.hbmUncorrectable (addr : ℕ) (port : ℕ) : Reaches ps r (s.hbmUncorrectable addr port) := by
  unfold State.hbmUncorrectable
  dsimp only
  split
  · exact (h.hbmError out mem hbm dci faults _ _).regionHurt out tables ledger dci faults _ _
  · exact h.hbmError out mem hbm dci faults _ _

theorem Reaches.execHbmIssue (pc : ℕ) (err : HbmErr) : Completes ps r (execHbmIssue pc err s) := by
  unfold Machine.execHbmIssue
  split
  · exact h.completes
  · split
    · exact (h.updPc hbm _ _).completes
    · split
      · exact h.completes
      · split
        · exact (h.caParity hbm faults _).completes
        · dsimp only
          refine Reaches.completes ?_
          refine Reaches.hbmAct ?_ mem hbm _
          split
          · exact h.hbmServed hbm _ _ _
          · split
            · exact ((h.hbmServed hbm _ _ _).updPc hbm _ _).errCnt faults _ _
            · exact (h.hbmServed hbm _ _ _).hbmUncorrectable out mem hbm tables ledger dci faults _ _
            · exact h.hbmServed hbm _ _ _

end

section
variable {ps : List Part} {r s : State} (h : Reaches ps r s) (out : .out ∈ ps) (net : .net ∈ ps)
    (clusters : .clusters ∈ ps) (power : .power ∈ ps) (dci : .dci ∈ ps) (faults : .faults ∈ ps) (free : .free ∈ ps)
include h out net clusters power dci faults free

theorem Reaches.execSensorRead (sensor : ℕ) (temp : ℕ) : Completes ps r (execSensorRead sensor temp s) := by
  unfold Machine.execSensorRead
  exact Completes.ite h.completes (Completes.ite ((h.updPower power _).completes)
      ((Reaches.ite (((h.updPower power _).event out dci faults _ _).critical out net clusters dci faults free)
      ((h.updPower power _).event out dci faults _ _)).completes))

end

section
variable {ps : List Part} {r s : State} (h : Reaches ps r s) (out : .out ∈ ps) (net : .net ∈ ps) (order : .order ∈ ps)
    (basin : .basin ∈ ps) (egress : .egress ∈ ps) (dci : .dci ∈ ps) (faults : .faults ∈ ps)
include h out net order basin egress dci faults

theorem Reaches.execFragHoldTimeout (well : ℕ) : Completes ps r (execFragHoldTimeout well s) := by
  unfold Machine.execFragHoldTimeout
  dsimp only
  split
  · exact h.completes
  · refine Reaches.completes ?_
    refine Reaches.fenceCheck ?_ out order dci faults
    refine Reaches.updDom ?_ order _ _
    refine Reaches.updPkt ?_ order _ _
    split
    · exact ((h.updWell net _ _).dispose order egress dci _ _ _).freeBuf out basin egress _
    · exact (h.updWell net _ _).dispose order egress dci _ _ _

end

section
variable {ps : List Part} {r s : State} (h : Reaches ps r s) (out : .out ∈ ps) (order : .order ∈ ps)
    (basin : .basin ∈ ps) (cistern : .cistern ∈ ps) (egress : .egress ∈ ps) (dci : .dci ∈ ps) (faults : .faults ∈ ps)
include h out order basin cistern egress dci faults

theorem Reaches.flushOne (q : ℕ) (sub : ℕ) : Reaches ps r (s.flushOne q sub).1 := by
  unfold State.flushOne
  dsimp only
  split
  · dsimp only
    exact (h.popHead egress _).killCopy out order basin egress dci faults _ _ _
  · dsimp only
    exact ((h.updQueue egress _ _).freeBlocks cistern egress _ _).killRec out order basin egress dci faults _ _ _
  · dsimp only
    exact Reaches.foldl ((h.updQueue egress _ _).freeBlocks cistern egress _ _) _
        fun x _ => ((Reaches.refl ps x)).killRec out order basin egress dci faults _ _ _
  · split
    · exact h
    · split
      · split
        · dsimp only
          exact (h.updQueue egress _ _).killCopy out order basin egress dci faults _ _ _
        · dsimp only
          exact h.updQueue egress _ _
      · split
        · dsimp only
          exact (h.updQueue egress _ _).killCopy out order basin egress dci faults _ _ _
        · exact h

theorem Reaches.writeAgg (errs : List (Nat × BufErr)) (k : Nat) (l : List Copy) (x : Chain)
    (recs : List (SpillRec Copy)) : ∀ y ∈ s.writeAgg errs k l x recs, Reaches ps r y.1 := by
  induction l generalizing s k x recs with
  | nil =>
    intro y hy
    cases hy
    exact h
  | cons c rest ih =>
    unfold State.writeAgg
    extract_lets e s0 w
    have h0 : Reaches ps r s0 := h.readError out basin dci faults _ _
    split
    · exact ih (h0.killCopy out order basin egress dci faults _ _ _) _ _ _
    · split
      · exact ih (h0.killCopy out order basin egress dci faults _ _ _) _ _ _
      · split
        · exact fun _ hy => nomatch hy
        · rename_i eq
          have h1 := h0.chainRoom cistern _ _ eq
          extract_lets poison c1
          split
          · exact fun _ hy => nomatch hy
          · rename_i eq
            exact ih ((h1.updPump egress _ _).chainPut cistern _ _ _ _ _ eq) _ _ _

theorem Reaches.execFlushWalk (pump : ℕ) : Completes ps r (execFlushWalk pump s) := by
  unfold Machine.execFlushWalk
  dsimp only
  split
  · exact h.completes
  · split
    · refine Reaches.completes ?_
      refine Reaches.foldl ?_ _ fun x a => ?_
      · exact h
      · split
        · exact ((Reaches.refl ps x)).flushCheck out egress dci _
        · exact (Reaches.refl ps x)
    · split
      · refine Reaches.completes ?_
        refine Reaches.flushCheck ?_ out egress dci _
        split
        · refine Reaches.updQueue ?_ egress _ _
          split
          · exact (h.flushOne out order basin cistern egress dci faults _ _).updEport egress _ _
          · exact h.flushOne out order basin cistern egress dci faults _ _
        · split
          · exact (h.flushOne out order basin cistern egress dci faults _ _).updEport egress _ _
          · exact h.flushOne out order basin cistern egress dci faults _ _
      · refine Reaches.completes ?_
        split
        · refine Reaches.updQueue ?_ egress _ _
          split
          · exact (h.flushOne out order basin cistern egress dci faults _ _).updEport egress _ _
          · exact h.flushOne out order basin cistern egress dci faults _ _
        · split
          · exact (h.flushOne out order basin cistern egress dci faults _ _).updEport egress _ _
          · exact h.flushOne out order basin cistern egress dci faults _ _

end

section
variable {ps : List Part} {r s : State} (h : Reaches ps r s) (out : .out ∈ ps) (order : .order ∈ ps)
    (thrs : .thrs ∈ ps) (truns : .truns ∈ ps) (clusters : .clusters ∈ ps) (dci : .dci ∈ ps) (faults : .faults ∈ ps)
include h out order thrs truns clusters dci faults

theorem Reaches.halt (t : ℕ) (r' : HaltReason) : Reaches ps r (s.halt t r') := by
  unfold State.halt
  exact ((((h.returnNext order truns _).updTr truns _ _).updThr thrs _ _).traceRec clusters _ _ _ _).event out dci
      faults _ _

theorem Reaches.stepCheck (t : ℕ) : Reaches ps r (s.stepCheck t) := by
  unfold State.stepCheck
  exact Reaches.ite (h.halt out order thrs truns clusters dci faults _ _) h

theorem Reaches.issued (t : ℕ) : Reaches ps r (s.issued t) := by
  unfold State.issued
  exact (h.updTr truns _ _).stepCheck out order thrs truns clusters dci faults _

theorem Reaches.resume (t : ℕ) (steps : Option ℕ) : Reaches ps r (s.resume t steps) := by
  unfold State.resume
  dsimp only
  split
  · exact (((h.updTr truns _ _).traceRec clusters _ _ _ _).complete thrs truns _ _ _).stepCheck out order thrs truns
        clusters dci faults _
  · exact (h.updTr truns _ _).traceRec clusters _ _ _ _

theorem Reaches.debugStepNow (t : ℕ) (count : ℕ) : Reaches ps r (debugStepNow t count s).1 := by
  unfold Machine.debugStepNow
  split
  · exact h
  · split
    · exact h
    · dsimp only
      exact (h.updTr truns _ _).resume out order thrs truns clusters dci faults _ _

theorem Reaches.debugResumeBody (t : ℕ) : Reaches ps r (debugResumeBody t s).1 := by
  unfold Machine.debugResumeBody
  split
  · exact h
  · dsimp only
    exact Reaches.ite (h.resume out order thrs truns clusters dci faults _ _) h

theorem Reaches.debugStepBody (c : CmdRef) (t : ℕ) (count : ℕ) : Reaches ps r (debugStepBody c t count s).1 := by
  unfold Machine.debugStepBody
  dsimp only
  split
  · exact h
  · exact h.debugStepNow out order thrs truns clusters dci faults _ _

theorem Reaches.execOrderEnterWake (t : ℕ) : Completes ps r (execOrderEnterWake t s) := by
  unfold Machine.execOrderEnterWake
  split
  · exact Completes.ite ((((h.enterSection truns _ _).complete thrs truns _ _ _).stepCheck out order thrs truns
        clusters dci faults _).completes) h.completes
  · exact h.completes

theorem Reaches.execChputReserveWake (t : ℕ) : Completes ps r (execChputReserveWake t s) := by
  unfold Machine.execChputReserveWake
  split
  · dsimp only
    exact Completes.ite ((((h.stage truns clusters _ _ _).complete thrs truns _ _ _).stepCheck out order thrs truns
        clusters dci faults _).completes) h.completes
  · exact h.completes

theorem Reaches.execChgetWake (t : ℕ) : Completes ps r (execChgetWake t s) := by
  unfold Machine.execChgetWake
  split
  · dsimp only
    split
    · exact Completes.ite ((((h.readMsg clusters _ _ _).complete thrs truns _ _ _).stepCheck out order thrs truns
          clusters dci faults _).completes) h.completes
    · exact h.completes
  · exact h.completes

theorem Reaches.execJoinWake (t : ℕ) : Completes ps r (execJoinWake t s) := by
  unfold Machine.execJoinWake
  split
  · split
    · split
      · exact ((h.complete thrs truns _ _ _).stepCheck out order thrs truns clusters dci faults _).completes
      · exact h.completes
    · exact h.completes
  · exact h.completes

theorem Reaches.execWaitevWake (t : ℕ) : Completes ps r (execWaitevWake t s) := by
  unfold Machine.execWaitevWake
  split
  · exact Completes.ite (((h.wakeFlags thrs truns _ _ _ _).stepCheck out order thrs truns clusters dci
        faults _).completes) h.completes
  · exact h.completes

theorem Reaches.execDeadlockDetect (cluster : Nat) : Completes ps r (execDeadlockDetect cluster s) := by
  unfold Machine.execDeadlockDetect
  extract_lets k due ts waiting parked longest s1
  have h1 : Reaches ps r s1 := (h.updTask clusters _ _).event out dci faults _ _
  refine .ite h.completes ?_
  clear_value s1 longest
  split
  · exact (((h1.updTask clusters _ _).wakeFlags thrs truns _ _ _ _).stepCheck out order thrs truns clusters dci
        faults _).completes
  · exact (h1.updTask clusters _ _).completes

end

section
variable {ps : List Part} {r s : State} (h : Reaches ps r s) (out : .out ∈ ps) (order : .order ∈ ps)
    (truns : .truns ∈ ps) (clusters : .clusters ∈ ps) (dci : .dci ∈ ps) (faults : .faults ∈ ps) (free : .free ∈ ps)
include h out order truns clusters dci faults free

theorem Reaches.execClusterDrain (c : CmdRef) (cluster : ℕ) (timeoutUs : ℕ) : Completes ps r
    (execClusterDrain c cluster timeoutUs s) := by
  unfold Machine.execClusterDrain
  exact h.command out dci faults free _ _ _ _ (fun x => ((Reaches.refl ps x)).clusterDrainBody out order truns
      clusters dci faults _ _ _)

end

section
variable {ps : List Part} {r s : State} (h : Reaches ps r s) (out : .out ∈ ps) (thrs : .thrs ∈ ps)
    (cores : .cores ∈ ps) (clusters : .clusters ∈ ps) (dci : .dci ∈ ps) (faults : .faults ∈ ps) (free : .free ∈ ps)
include h out thrs cores clusters dci faults free

theorem Reaches.execClusterLoad (c : CmdRef) (cluster : ℕ) (version : ℕ) : Completes ps r
    (execClusterLoad c cluster version s) := by
  unfold Machine.execClusterLoad
  exact h.command out dci faults free _ _ _ _ (fun x => ((Reaches.refl ps x)).clusterLoadBody thrs cores clusters _ _)

end

section
variable {ps : List Part} {r s : State} (h : Reaches ps r s) (out : .out ∈ ps) (thrs : .thrs ∈ ps)
    (truns : .truns ∈ ps) (locks : .locks ∈ ps) (dci : .dci ∈ ps) (faults : .faults ∈ ps) (free : .free ∈ ps)
include h out thrs truns locks dci faults free

theorem Reaches.execLockForceRelease (c : CmdRef) (lock : ℕ) : Completes ps r (execLockForceRelease c lock s) := by
  unfold Machine.execLockForceRelease
  exact h.command out dci faults free _ _ _ _ (fun x => ((Reaches.refl ps x)).lockForceBody thrs truns locks _ _)

end

section
variable {ps : List Part} {r s : State} (h : Reaches ps r s) (out : .out ∈ ps) (truns : .truns ∈ ps) (mem : .mem ∈ ps)
    (hbm : .hbm ∈ ps) (tables : .tables ∈ ps) (dci : .dci ∈ ps) (faults : .faults ∈ ps)
include h out truns mem hbm tables dci faults

theorem Reaches.lkpCtx (t : ℕ) (keys' : List W64) (sec : Bool) (err : Bool) : Reaches ps r
    (s.lkpCtx t keys' sec err).1 := by
  unfold State.lkpCtx
  dsimp only
  split
  · exact h
  · dsimp only
    exact (Reaches.ite (Reaches.ite h (Reaches.ite ((Reaches.foldl h _ fun x _ => ((Reaches.refl ps x)).ctxWrite
        tables _ _ _).tableError out tables dci faults _ _ _) (((Reaches.foldl h _
        fun x _ => ((Reaches.refl ps x)).ctxWrite tables _ _ _).tableError out tables dci faults _ _ _).hbmError out
        mem hbm dci faults _ _))) ((Reaches.ite h (Reaches.ite ((Reaches.foldl h _
        fun x _ => ((Reaches.refl ps x)).ctxWrite tables _ _ _).tableError out tables dci faults _ _ _)
        (((Reaches.foldl h _ fun x _ => ((Reaches.refl ps x)).ctxWrite tables _ _ _).tableError out tables dci
        faults _ _ _).hbmError out mem hbm dci faults _ _))).ctxFetch tables _)).updRun truns _ _

theorem Reaches.lkpDo (t : ℕ) (l : Lkp) (err : Bool) : Reaches ps r (s.lkpDo t l err).1 := by
  unfold State.lkpDo
  dsimp only
  split
  · split
    · exact h.lkpL2 out tables dci faults _ _ _
    · exact h
  · split
    · exact h.lkpL2 out tables dci faults _ _ _
    · exact h
  · exact h.lkpLpm out tables dci faults _ _
  · exact h.lkpEm out mem hbm tables dci faults _ _ _
  · exact h.lkpCtx out truns mem hbm tables dci faults _ _ _ _
  · exact h

end

section
variable {ps : List Part} {r s : State} (h : Reaches ps r s) (out : .out ∈ ps) (cores : .cores ∈ ps)
    (clusters : .clusters ∈ ps) (hbm : .hbm ∈ ps) (power : .power ∈ ps) (dci : .dci ∈ ps) (faults : .faults ∈ ps)
    (free : .free ∈ ps)
include h out cores clusters hbm power dci faults free

theorem Reaches.execPowerPolicy (c : CmdRef) (tol : List W32) : Completes ps r (execPowerPolicy c tol s) := by
  unfold Machine.execPowerPolicy
  exact h.command out dci faults free _ _ _ _ (fun x => ((Reaches.refl ps x)).powerPolicyBody cores clusters hbm
      power _)

end

section
variable {ps : List Part} {r s : State} (h : Reaches ps r s) (out : .out ∈ ps) (net : .net ∈ ps) (order : .order ∈ ps)
    (truns : .truns ∈ ps) (cores : .cores ∈ ps) (clusters : .clusters ∈ ps) (dci : .dci ∈ ps) (faults : .faults ∈ ps)
include h out net order truns cores clusters dci faults

theorem Reaches.escalate (u : FaultUnit) : Reaches ps r (s.escalate u) := by
  unfold State.escalate
  split
  · exact h.coreOut order truns cores faults _
  · exact h.coreOut order truns cores faults _
  · dsimp only
    split
    · exact (h.fencePart faults _ _).drainStart out order truns clusters dci faults _ _ _
    · exact (h.fencePart faults _ _).updCl clusters _ _
    · exact (h.fencePart faults _ _).updCl clusters _ _
  · exact (h.setUnit cores clusters faults _ _ _).fencePart faults _ _
  · exact (h.fencePart faults _ _).updWell net _ _
  · exact h.setDev out dci faults _ _
  · exact h.setDev out dci faults _ _
  · exact h

end

section
variable {ps : List Part} {r s : State} (h : Reaches ps r s) (out : .out ∈ ps) (order : .order ∈ ps)
    (basin : .basin ∈ ps) (egress : .egress ∈ ps) (thrs : .thrs ∈ ps) (truns : .truns ∈ ps) (locks : .locks ∈ ps)
    (dci : .dci ∈ ps)
include h out order basin egress thrs truns locks dci

theorem Reaches.fnReset (f : HostFn) : Reaches ps r (s.fnReset f) := by
  unfold State.fnReset
  exact (((Reaches.foldl h _ fun x _ => ((Reaches.refl ps x)).puntFlush out order basin egress dci _ _).updFn
      dci _ _).lockLeave locks _).abandonAll thrs truns locks _

theorem Reaches.execFunctionReset (fn : HostFn) (linkDown : Bool) : Completes ps r (execFunctionReset fn linkDown s)
    := by
  unfold Machine.execFunctionReset
  exact Completes.ite h.completes (((h.fnReset out order basin egress thrs truns locks dci _).updFn
      dci _ _).completes)

end

section
variable {ps : List Part} {r s : State} (h : Reaches ps r s) (out : .out ∈ ps) (order : .order ∈ ps)
    (thrs : .thrs ∈ ps) (truns : .truns ∈ ps) (clusters : .clusters ∈ ps) (dci : .dci ∈ ps) (faults : .faults ∈ ps)
    (free : .free ∈ ps)
include h out order thrs truns clusters dci faults free

theorem Reaches.execDebugStep (c : CmdRef) (thread : ℕ) (count : ℕ) : Completes ps r (execDebugStep c thread count s)
    := by
  unfold Machine.execDebugStep
  exact h.command out dci faults free _ _ _ _ (fun x => ((Reaches.refl ps x)).guarded _
      (fun x => ((Reaches.refl ps x)).debugStepBody out order thrs truns clusters dci faults _ _ _))

theorem Reaches.execDebugResume (c : CmdRef) (thread : ℕ) : Completes ps r (execDebugResume c thread s) := by
  unfold Machine.execDebugResume
  exact h.command out dci faults free _ _ _ _ (fun x => ((Reaches.refl ps x)).debugResumeBody out order thrs truns
      clusters dci faults _)

end

section
variable {ps : List Part} {r s : State} (h : Reaches ps r s) (out : .out ∈ ps) (order : .order ∈ ps)
    (thrs : .thrs ∈ ps) (truns : .truns ∈ ps) (clusters : .clusters ∈ ps) (locks : .locks ∈ ps) (dci : .dci ∈ ps)
    (faults : .faults ∈ ps)
include h out order thrs truns clusters locks dci faults

theorem Reaches.execLockWaitTimeout (lock : ℕ) : Completes ps r (execLockWaitTimeout lock s) := by
  unfold Machine.execLockWaitTimeout
  dsimp only
  split
  · exact h.completes
  · split
    · exact (((h.setLock locks _ _).answerWaiter thrs truns locks _ _).stepCheck out order thrs truns clusters dci
          faults _).completes
    · exact ((h.setLock locks _ _).answerWaiter thrs truns locks _ _).completes

end

section
variable {ps : List Part} {r s : State} (h : Reaches ps r s) (out : .out ∈ ps) (thrs : .thrs ∈ ps)
    (cores : .cores ∈ ps) (clusters : .clusters ∈ ps) (power : .power ∈ ps) (dci : .dci ∈ ps) (faults : .faults ∈ ps)
    (free : .free ∈ ps)
include h out thrs cores clusters power dci faults free

theorem Reaches.execTaskSignal (c : CmdRef) (thread : ℕ) (flags : W32) : Completes ps r
    (execTaskSignal c thread flags s) := by
  unfold Machine.execTaskSignal
  exact h.command out dci faults free _ _ _ _ (fun x => ((Reaches.refl ps x)).taskSignalBody thrs cores clusters
      power _ _)

end

section
variable {ps : List Part} {r s : State} (h : Reaches ps r s) (out : .out ∈ ps) (thrs : .thrs ∈ ps)
    (truns : .truns ∈ ps) (locks : .locks ∈ ps) (tables : .tables ∈ ps) (dci : .dci ∈ ps) (faults : .faults ∈ ps)
    (free : .free ∈ ps)
include h out thrs truns locks tables dci faults free

theorem Reaches.devStore (t : ℕ) (a : ℕ) (v : W64) : (s.devStore t a v).reaches ps r := by
  unfold State.devStore
  dsimp only
  split
  · exact h
  · split
    · split
      · split
        · exact h.lockRelease out thrs truns locks dci faults _ _
        · exact trivial
      · split
        · exact h.lockClear out locks dci faults _ _
        · exact trivial
      · exact trivial
      · exact trivial
      · exact trivial
      · exact trivial
    · split
      · exact trivial
      · split
        · split
          · rename_i eq
            have k := (h.tsetWrite tables free _ _ _) _ eq
            exact k
          · exact trivial
        · split
          · exact trivial
          · exact trivial

end

section
variable {ps : List Part} {r s : State} (h : Reaches ps r s) (out : .out ∈ ps) (time : .time ∈ ps)
    (basin : .basin ∈ ps) (egress : .egress ∈ ps) (truns : .truns ∈ ps) (cores : .cores ∈ ps)
    (clusters : .clusters ∈ ps) (locks : .locks ∈ ps)
include h out time basin egress truns cores clusters locks

theorem Reaches.memLoad (t : ℕ) (a : ℕ) (n : ℕ) : (s.memLoad t a n).reaches ps r := by
  unfold State.memLoad
  split
  · exact h
  · split
    · exact h
    · exact trivial
    · exact h
  · dsimp only
    split
    · exact h
    · exact h
  · split
    · exact h
    · exact h
  · split
    · split
      · rename_i eq
        have k := DevR.reaches.of eq (h.devLoad out time basin egress truns locks _ _)
        change Reaches ps _ _ at k
        exact k
      · exact h
      · exact trivial
    · split
      · exact h
      · exact h
  · split
    · exact h
    · split
      · rename_i eq
        have k := LdR.reaches.of eq (h.cachedLoad truns cores clusters _ _ _)
        change Reaches ps _ _ at k
        exact k
      · rename_i eq
        have k := LdR.reaches.of eq (h.cachedLoad truns cores clusters _ _ _)
        change Reaches ps _ _ at k
        exact k
      · exact trivial
      · rename_i eq
        have k := LdR.reaches.of eq (h.cachedLoad truns cores clusters _ _ _)
        change Reaches ps _ _ at k
        exact k
  · split
    · exact h
    · split
      · exact h
      · exact h

theorem Reaches.granule (t i a n : Nat) (f : Nat → State → GrR) (k : ∀ v x, (f v x).reaches ps x) :
    (s.granule t i a n f).reaches ps r := by
  have load := h.memLoad out time basin egress truns cores clusters locks t a n
  unfold State.granule
  split
  · exact (k _ _).trans h
  · dsimp only
    split <;> rename_i eq <;> rw [eq] at load
    · exact (k _ _).trans (load.updTr truns _ _)
    · exact load
    · trivial
    · exact load
    · exact h

end

section
variable {ps : List Part} {r s : State} (h : Reaches ps r s) (out : .out ∈ ps) (mem : .mem ∈ ps) (hbm : .hbm ∈ ps)
    (power : .power ∈ ps) (tables : .tables ∈ ps) (ledger : .ledger ∈ ps) (dci : .dci ∈ ps) (faults : .faults ∈ ps)
    (free : .free ∈ ps)
include h out mem hbm power tables ledger dci faults free

theorem Reaches.execPatrolScrub (pc : ℕ) (err : HbmErr) : Completes ps r (execPatrolScrub pc err s) := by
  unfold Machine.execPatrolScrub
  extract_lets x period a s1 s2
  have h1 : Reaches ps r s1 := h.updPc hbm _ _
  have h2 : Reaches ps r s2 := by
    unfold s2
    split
    · exact h1.rowCorrected out hbm dci faults _ _ _
    · split
      · exact h1.hbmUncorrectable out mem hbm tables ledger dci faults _ _
      · exact (h1.updPc hbm _ _).hbmErrorEvent out hbm dci faults _ _ _
    · exact h1
  have last : Reaches ps r (if (s2.pc pc).scrubNext = unitsPerPc then s2.passEnd pc else s2) :=
    .ite (h2.passEnd hbm free _) h2
  exact .ite h.completes (.ite (.ite (h.wakePc hbm power _).completes h.completes)
    (.ite (h.caParity hbm faults _).completes last.completes))

end

section
variable {ps : List Part} {r s : State} (h : Reaches ps r s) (out : .out ∈ ps) (order : .order ∈ ps)
    (basin : .basin ∈ ps) (cistern : .cistern ∈ ps) (egress : .egress ∈ ps) (hbm : .hbm ∈ ps) (power : .power ∈ ps)
    (dci : .dci ∈ ps) (faults : .faults ∈ ps)
include h out order basin cistern egress hbm power dci faults

theorem Reaches.execAggregateTimer (pump : ℕ) (read : AggRead) : Completes ps r (execAggregateTimer pump read s) := by
  unfold Machine.execAggregateTimer
  dsimp only
  split
  · exact h.completes
  · split
    · exact h.completes
    · split
      · exact h.completes
      · rename_i eq
        have k := (h.writeAgg out order basin cistern egress dci faults _ _ _ _ _) _ eq
        exact Completes.ite ((k.updQueue egress _ _).completes) ((((k.updQueue egress _ _).writeChain hbm
            power _ _).updPump egress _ _).completes)

end

section
variable {ps : List Part} {r s : State} (h : Reaches ps r s) (out : .out ∈ ps) (order : .order ∈ ps)
    (basin : .basin ∈ ps) (cistern : .cistern ∈ ps) (egress : .egress ∈ ps) (mem : .mem ∈ ps) (hbm : .hbm ∈ ps)
    (dci : .dci ∈ ps) (faults : .faults ∈ ps)
include h out order basin cistern egress mem hbm dci faults

theorem Reaches.execRefillReadDone (queue : Nat) (err : Option BufErr) :
    Completes ps r (execRefillReadDone queue err s) := by
  unfold Machine.execRefillReadDone
  split
  · exact h.completes
  · refine .ite h.completes ?_
    extract_lets b met all s1 s2 bad s3 s4
    have h1 : Reaches ps r s1 := (h.updQueue egress _ _).freeBlocks cistern egress _ _
    have h2 : Reaches ps r s2 := (h1.cisternError out mem hbm dci faults _ _ _).foldl _ fun x e =>
      (Reaches.refl ps x).killRec out order basin egress dci faults _ _ _
    have h3 : Reaches ps r s3 := h.updQueue egress _ _
    have h4 : Reaches ps r s4 := by
      unfold s4
      clear_value bad
      cases bad with
      | some u => exact h3.cisternError out mem hbm dci faults _ _ _
      | none => exact h3
    clear_value met s2 bad s4
    split
    · exact (h2.event out dci faults _ _).completes
    · generalize eq : s4.refillAll _ _ _ _ = o
      cases o with
      | none => exact h.completes
      | some x =>
        exact (((h4.refillAll out order basin egress dci faults _ _ _ _ _ eq).freeBlocks cistern egress _ _).updQueue
            egress _ _).completes

end

section
variable {ps : List Part} {r s : State} (h : Reaches ps r s) (out : .out ∈ ps) (order : .order ∈ ps)
    (basin : .basin ∈ ps) (egress : .egress ∈ ps) (tables : .tables ∈ ps) (ledger : .ledger ∈ ps) (dci : .dci ∈ ps)
    (faults : .faults ∈ ps) (free : .free ∈ ps)
include h out order basin egress tables ledger dci faults free

theorem Reaches.applyRec (w : WalRec) : Reaches ps r (s.applyRec w) := by
  unfold State.applyRec
  extract_lets p k j len ct all copies hosts empties s1 s2 s3 s4 s5 s6 s7 s8
  have h1 : Reaches ps r s1 := h.atUnit order _ _ _ fun x => (Reaches.refl ps x).applyTables tables free _
  have h2 : Reaches ps r s2 := h1.atUnit order _ _ _ fun x => (Reaches.refl ps x).applyContexts tables _ _
  have h3 : Reaches ps r s3 := h2.atUnit order _ _ _ fun x => (Reaches.refl ps x).finalize tables _
  have h4 : Reaches ps r s4 := h3.atUnit order _ _ _ fun x => (Reaches.refl ps x).applyCounts tables _ _
  have h5 : Reaches ps r s5 := h4.atUnit order _ _ _ fun x => (Reaches.refl ps x).applyLedger ledger _ _ _
  have h6 : Reaches ps r s6 := h5.atUnit order _ _ _ fun x =>
    ((Reaches.refl ps x).updRc order _ _).refCounts out basin egress _ _ _
  have h7 : Reaches ps r s7 := h6.foldl _ fun x u => (Reaches.refl ps x).atUnit order _ _ _ fun y => .ite
    (.ite ((Reaches.refl ps y).foldl _ fun z c => (Reaches.refl ps z).dropCopy out order basin egress dci
        faults _ _ _ _ _ _) (.refl ps y))
    ((Reaches.refl ps y).foldl _ fun z c => (Reaches.refl ps z).toPump egress _)
  have h8 : Reaches ps r s8 := h7.atUnit order _ _ _ fun x => Reaches.foldl
      (Reaches.foldl (Reaches.foldl (.refl ps x) _
    fun y _ => ((Reaches.refl ps y).sump egress _ _ _).outcome order _ _) _
    fun y _ => ((Reaches.refl ps y).sump egress _ _ _).outcome order _ _) _
    fun y c => (Reaches.refl ps y).puntArrive out order basin egress dci _ _ _
  exact .ite (h8.applyFrees out basin egress dci faults _ _) h8

theorem Reaches.execCommitResetResume : Completes ps r (execCommitResetResume s) := by
  unfold Machine.execCommitResetResume
  exact Completes.ite h.completes (((Reaches.foldl h _ fun x _ => ((Reaches.refl ps x)).applyRec out order basin
      egress tables ledger dci faults free _).updOrder order _).completes)

theorem Reaches.execCommit (lane : ℕ) : Completes ps r (execCommit lane s) := by
  unfold Machine.execCommit
  dsimp only
  split
  · exact h.completes
  · split
    · exact h.completes
    · exact Completes.ite h.completes ((((((((h.updOrder order _).applyRec out order basin egress tables ledger dci
          faults free _).quietEnd order egress dci _ _).updPkt order _ _).updDom order _ _).updCnt order _).fenceCheck
          out order dci faults).completes)

end

section
variable {ps : List Part} {r s : State} (h : Reaches ps r s) (out : .out ∈ ps) (order : .order ∈ ps)
    (thrs : .thrs ∈ ps) (truns : .truns ∈ ps) (cores : .cores ∈ ps) (clusters : .clusters ∈ ps) (power : .power ∈ ps)
    (dci : .dci ∈ ps) (faults : .faults ∈ ps)
include h out order thrs truns cores clusters power dci faults

theorem Reaches.execParkWake (t : ℕ) : Completes ps r (execParkWake t s) := by
  unfold Machine.execParkWake
  split
  · dsimp only
    exact Completes.ite ((((h.wakeThread cores clusters power _).complete thrs truns _ _ _).stepCheck out order thrs
        truns clusters dci faults _).completes) h.completes
  · exact h.completes

end

section
variable {ps : List Part} {r s : State} (h : Reaches ps r s) (out : .out ∈ ps) (thrs : .thrs ∈ ps)
    (truns : .truns ∈ ps) (scratch : .scratch ∈ ps) (mem : .mem ∈ ps) (hbm : .hbm ∈ ps) (tables : .tables ∈ ps)
    (dci : .dci ∈ ps) (faults : .faults ∈ ps)
include h out thrs truns scratch mem hbm tables dci faults

theorem Reaches.execLkpComplete (t : ℕ) (idx : ℕ) (err : Bool) : Completes ps r (execLkpComplete t idx err s) := by
  unfold Machine.execLkpComplete
  split
  · exact h.completes
  · exact Completes.ite h.completes ((((((h.lkpDo out truns mem hbm tables dci faults _ _ _).updTr truns _ _).unstall
        truns _).scratchWrite scratch _ _ _).setReg thrs _ _ _).completes)

end

section
variable {ps : List Part} {r s : State} (h : Reaches ps r s) (out : .out ∈ ps) (time : .time ∈ ps)
    (basin : .basin ∈ ps) (egress : .egress ∈ ps) (thrs : .thrs ∈ ps) (truns : .truns ∈ ps) (cores : .cores ∈ ps)
    (clusters : .clusters ∈ ps) (locks : .locks ∈ ps)
include h out time basin egress thrs truns cores clusters locks

theorem Reaches.bcmpStep (t : Nat) (gd : Reg) (n : Nat) : (s.bcmpStep t gd n).reaches ps r := by
  refine h.granule out time basin egress truns cores clusters locks _ _ _ _ _ fun a x => (Reaches.refl ps x).granule
      out time basin egress truns cores clusters locks _ _ _ _ _ fun b y => ?_
  have hy := Reaches.refl ps y
  split
  · exact hy.setReg thrs _ _ _
  · exact ((hy.bump thrs _ _ _).bump thrs _ _ _).setReg thrs _ _ _

theorem Reaches.bfindStep (t : Nat) (ne : Bool) (gd ga gb : Reg) (n : Nat) :
    (s.bfindStep t ne gd ga gb n).reaches ps r := by
  refine h.granule out time basin egress truns cores clusters locks _ _ _ _ _ fun a x => ?_
  have hx := Reaches.refl ps x
  extract_lets m eq
  split
  · exact hx.setReg thrs _ _ _
  · exact (hx.bump thrs _ _ _).setReg thrs _ _ _

end

section
variable {ps : List Part} {r s : State} (h : Reaches ps r s) (out : .out ∈ ps) (time : .time ∈ ps) (thrs : .thrs ∈ ps)
    (truns : .truns ∈ ps) (locks : .locks ∈ ps) (ledger : .ledger ∈ ps) (dci : .dci ∈ ps) (faults : .faults ∈ ps)
    (trust : .trust ∈ ps)
include h out time thrs truns locks ledger dci faults trust

theorem Reaches.phResetStart : Reaches ps r s.phResetStart := by
  unfold State.phResetStart
  exact (((Reaches.ite (((((h.setDev out dci faults _ _).leaseFreeze dci).lockLeave locks _).abandonAll thrs truns
      locks _).leaveLocked out time ledger dci faults _) ((((h.setDev out dci faults _ _).leaseFreeze dci).lockLeave
      locks _).abandonAll thrs truns locks _)).updTime time _).updDci dci _).updTrust trust _
      (fun _ => bitsKept_refl _)

end

section
variable {ps : List Part} {r s : State} (h : Reaches ps r s) (out : .out ∈ ps) (net : .net ∈ ps) (basin : .basin ∈ ps)
    (egress : .egress ∈ ps) (clusters : .clusters ∈ ps) (mem : .mem ∈ ps) (dci : .dci ∈ ps) (faults : .faults ∈ ps)
    (trust : .trust ∈ ps) (free : .free ∈ ps)
include h out net basin egress clusters mem dci faults trust free

theorem Reaches.execPhRestartDone : Completes ps r (execPhRestartDone s) := by
  unfold Machine.execPhRestartDone
  split
  · exact h.completes
  · exact Completes.ite h.completes (Completes.ite ((h.copyFault out basin egress dci faults trust free _).completes)
        ((((Reaches.foldl (Reaches.ite (((((h.restartFw out mem dci faults trust).restartBuffers out basin
        egress).restartModules net).rerunAll dci).leaveRestart out dci faults _ _)
        (Reaches.foldl ((((h.restartFw out mem dci faults trust).restartBuffers out basin egress).restartModules
        net).rerunAll dci) _ fun x _ => ((Reaches.refl ps x)).putWaiting out dci _)) _
        fun x _ => ((Reaches.refl ps x)).restarted out dci faults _).leaseThaw dci).partDone out clusters dci
        faults _).completes))

end

section
variable {ps : List Part} {r s : State} (h : Reaches ps r s) (order : .order ∈ ps) (truns : .truns ∈ ps)
    (cores : .cores ∈ ps) (clusters : .clusters ∈ ps) (locks : .locks ∈ ps) (hbm : .hbm ∈ ps) (power : .power ∈ ps)
    (tables : .tables ∈ ps) (dci : .dci ∈ ps) (faults : .faults ∈ ps) (trust : .trust ∈ ps)
include h order truns cores clusters locks hbm power tables dci faults trust

theorem Reaches.moveUnits (a : Nat) : Reaches ps r (s.moveUnits a) := by
  refine h.trans ⟨rfl, fun p hp => ?_, id, id, fun _ => bitsKept_refl _⟩
  cases p with
  | order => exact absurd order hp
  | truns => exact absurd truns hp
  | cores => exact absurd cores hp
  | clusters => exact absurd clusters hp
  | locks => exact absurd locks hp
  | hbm => exact absurd hbm hp
  | power => exact absurd power hp
  | tables => exact absurd tables hp
  | dci => exact absurd dci hp
  | faults => exact absurd faults hp
  | trust => exact absurd trust hp
  | _ => rfl

end

section
variable {ps : List Part} {r s : State} (h : Reaches ps r s) (out : .out ∈ ps) (net : .net ∈ ps) (order : .order ∈ ps)
    (egress : .egress ∈ ps) (clusters : .clusters ∈ ps) (hbm : .hbm ∈ ps) (power : .power ∈ ps)
    (ledger : .ledger ∈ ps) (dci : .dci ∈ ps) (faults : .faults ∈ ps) (free : .free ∈ ps)
include h out net order egress clusters hbm power ledger dci faults free

theorem Reaches.execPowerFail : Completes ps r (execPowerFail s) := by
  unfold Machine.execPowerFail
  exact Completes.ite h.completes (Completes.ite (((h.updPower power _).toFault out dci faults free _).completes)
      ((((((Reaches.ite (((h.updNet net _).updOrder order _).updPower power _)
      (((((h.updNet net _).updOrder order _).updPower power _).sealEarly out ledger dci faults _).updLedger
      ledger _)).wakeStack hbm power _).wakeStack hbm power _).powerOff net egress clusters).updPower
      power _).completes))

end

section
variable {ps : List Part} {r s : State} (h : Reaches ps r s) (out : .out ∈ ps) (order : .order ∈ ps)
    (basin : .basin ∈ ps) (egress : .egress ∈ ps) (cores : .cores ∈ ps) (clusters : .clusters ∈ ps) (hbm : .hbm ∈ ps)
    (power : .power ∈ ps) (dci : .dci ∈ ps) (faults : .faults ∈ ps) (free : .free ∈ ps)
include h out order basin egress cores clusters hbm power dci faults free

theorem Reaches.enqueue (c0 : Copy) : Reaches ps r (s.enqueue c0) := by
  have drop (c x y z u v) : Reaches ps r (s.dropCopy c x y z u v) := h.dropCopy out order basin egress dci
      faults _ _ _ _ _ _
  unfold State.enqueue
  extract_lets c q bytes pn len w d
  refine .ite (drop _ _ _ _ _ _) (.ite (drop _ _ _ _ _ _) (.ite (drop _ _ _ _ _ _) ?_))
  split
  · refine .ite (drop _ _ _ _ _ _) ?_
    extract_lets c1 k s1
    have hold (c2 p) {x : State} (hx : Reaches ps r x) : Reaches ps r ((x.updPump pn p).append' c2) :=
      (hx.updPump egress _ _).append' egress cores clusters hbm power _
    have h1 : Reaches ps r s1 := (h.draw free).updQueue egress _ _
    exact .ite (drop _ _ _ _ _ _) (.ite (drop _ _ _ _ _ _) (.ite (hold _ _ h)
      (.ite (h1.dropCopy out order basin egress dci faults _ _ _ _ _ _) (hold _ _ h1))))
  · exact drop _ _ _ _ _ _

theorem Reaches.arrive (pn : ℕ) (c0 : Copy) : Reaches ps r (s.arrive pn c0) := by
  unfold State.arrive
  dsimp only
  split
  · exact h.enqueue out order basin egress cores clusters hbm power dci faults free _
  · exact Reaches.ite (h.dropCopy out order basin egress dci faults _ _ _ _ _ _)
        ((h.classActive cores clusters hbm power _).updPump egress _ _)

theorem Reaches.execWheelSlot (pump : ℕ) : Completes ps r (execWheelSlot pump s) := by
  unfold Machine.execWheelSlot
  dsimp only
  exact Completes.ite h.completes ((Reaches.foldl (h.updPump egress _ _) _ fun x _ => ((Reaches.refl ps x)).enqueue
      out order basin egress cores clusters hbm power dci faults free _).completes)

theorem Reaches.execCopyArrival (pump : ℕ) : Completes ps r (execCopyArrival pump s) := by
  unfold Machine.execCopyArrival
  split
  · exact h.completes
  · exact Completes.ite h.completes (((h.updPump egress _ _).arrive out order basin egress cores clusters hbm power
        dci faults free _ _).completes)

end

section
variable {ps : List Part} {r s : State} (h : Reaches ps r s) (out : .out ∈ ps) (order : .order ∈ ps)
    (basin : .basin ∈ ps) (egress : .egress ∈ ps) (thrs : .thrs ∈ ps) (truns : .truns ∈ ps) (cores : .cores ∈ ps)
    (clusters : .clusters ∈ ps) (locks : .locks ∈ ps) (power : .power ∈ ps) (tables : .tables ∈ ps)
include h out order basin egress thrs truns cores clusters locks power tables

theorem Reaches.clearRun (p : ℕ) : Reaches ps r (s.clearRun p) := by
  unfold State.clearRun
  split
  · split
    · exact h.listDrop order _
    · exact h.updTr truns _ _
    · exact h
  · dsimp only
    split
    · exact ((((((h.refund tables _).dropVers tables _).freeProv out basin egress _ _).lockAtEnd
          clusters _).stopChildren thrs truns cores clusters locks _).quiet truns cores clusters locks _).nextSlot
          order thrs truns cores clusters locks power _
    · exact Reaches.ite ((((((((h.refund tables _).dropVers tables _).freeProv out basin egress _ _).updOrder
          order _).lockAtEnd clusters _).stopChildren thrs truns cores clusters locks _).quiet truns cores clusters
          locks _).nextSlot order thrs truns cores clusters locks power _)
          ((((h.refund tables _).dropVers tables _).freeProv out basin egress _ _).updOrder order _)
    · exact (((h.refund tables _).dropVers tables _).freeProv out basin egress _ _).updOrder order _

theorem Reaches.redo1 (p : ℕ) (m : Mark) : Reaches ps r (s.redo1 p m) := by
  unfold State.redo1
  exact Reaches.ite ((h.clearRun out order basin egress thrs truns cores clusters locks power tables _).endRefused
      order _) ((((h.clearRun out order basin egress thrs truns cores clusters locks power tables _).updRc
      order _ _).updCnt order _).listPut order _)

theorem Reaches.cascade (from' : List ℕ) : Reaches ps r (s.cascade from') := by
  unfold State.cascade
  exact Reaches.foldl h _ fun x _ => (((Reaches.refl ps x)).redo1 out order basin egress thrs truns cores clusters
      locks power tables _ _).updCnt order _

theorem Reaches.redo (p : ℕ) (m : Mark) : Reaches ps r (s.redo p m) := by
  unfold State.redo
  exact (h.cascade out order basin egress thrs truns cores clusters locks power tables _).redo1 out order basin egress
      thrs truns cores clusters locks power tables _ _

theorem Reaches.endForced (p : ℕ) (cause : ℕ) (disp : ℕ) : Reaches ps r (s.endForced p cause disp) := by
  unfold State.endForced
  exact Reaches.ite (((h.cascade out order basin egress thrs truns cores clusters locks power tables _).clearRun out
      order basin egress thrs truns cores clusters locks power tables _).endRefused order _)
      (((((h.cascade out order basin egress thrs truns cores clusters locks power tables _).clearRun out order basin
      egress thrs truns cores clusters locks power tables _).updRc order _ _).updCnt order _).storePut
      order _ _ _ _ _)

theorem Reaches.failAt (p : ℕ) (lastTrap : ℕ) (core : Option ℕ) : Reaches ps r (s.failAt p lastTrap core) := by
  unfold State.failAt
  exact Reaches.ite (h.endForced out order basin egress thrs truns cores clusters locks power tables _ _ _)
      (Reaches.ite (((h.cascade out order basin egress thrs truns cores clusters locks power tables _).clearRun out
      order basin egress thrs truns cores clusters locks power tables _).endRefused order _)
      (((((h.cascade out order basin egress thrs truns cores clusters locks power tables _).clearRun out order basin
      egress thrs truns cores clusters locks power tables _).updRc order _ _).updCnt order _).listPut order _))

theorem Reaches.fail (p : ℕ) (lastTrap : ℕ) : Reaches ps r (s.fail p lastTrap) := by
  unfold State.fail
  exact h.failAt out order basin egress thrs truns cores clusters locks power tables _ _ _

theorem Reaches.coreGone (core : ℕ) : Reaches ps r (s.coreGone core) := by
  unfold State.coreGone
  exact (Reaches.foldl (Reaches.foldl (Reaches.foldl h _ fun x _ => ((Reaches.refl ps x)).returnNext order truns _) _
      fun x _ => ((Reaches.refl ps x)).redo out order basin egress thrs truns cores clusters locks power tables _ _) _
      fun x _ => ((Reaches.refl ps x)).abandonAll thrs truns locks _).updCore cores _ _

theorem Reaches.discardPkt (p : ℕ) (sub : ℕ) : Reaches ps r (s.discardPkt p sub) := by
  unfold State.discardPkt
  exact Reaches.ite ((((h.cascade out order basin egress thrs truns cores clusters locks power tables _).clearRun out
      order basin egress thrs truns cores clusters locks power tables _).updRc order _ _).endRefused order _)
      ((((h.cascade out order basin egress thrs truns cores clusters locks power tables _).clearRun out order basin
      egress thrs truns cores clusters locks power tables _).updRc order _ _).storePut order _ _ _ _ _)

theorem Reaches.pullBack (p : ℕ) : Reaches ps r (s.pullBack p) := by
  unfold State.pullBack
  split
  · exact Reaches.ite h (h.redo out order basin egress thrs truns cores clusters locks power tables _ _)
  · exact Reaches.ite h (h.redo out order basin egress thrs truns cores clusters locks power tables _ _)
  · exact Reaches.ite h (h.redo out order basin egress thrs truns cores clusters locks power tables _ _)
  · exact ((h.updTr truns _ _).listPut order _).updRc order _ _
  · exact h.updRc order _ _
  · exact h.updRc order _ _
  · exact h

theorem Reaches.unresolved (t : ℕ) (cause : ℕ) : Reaches ps r (s.unresolved t cause) := by
  unfold State.unresolved
  split
  · exact h
  · exact Reaches.ite (h.endForced out order basin egress thrs truns cores clusters locks power tables _ _ _)
        (h.fail out order basin egress thrs truns cores clusters locks power tables _ _)

theorem Reaches.writeVer (t : ℕ) (ctx : ℕ) (q : ℕ) (bytes : List Byte) : Reaches ps r (s.writeVer t ctx q bytes) := by
  unfold State.writeVer
  exact Reaches.ite (Reaches.foldl (h.with_tables tables _) _ fun x _ => (((Reaches.refl ps x)).redo1 out order basin
      egress thrs truns cores clusters locks power tables _ _).updCnt order _) (h.with_tables tables _)

theorem Reaches.execWatchdogExpiry (t : ℕ) : Completes ps r (execWatchdogExpiry t s) := by
  unfold Machine.execWatchdogExpiry
  dsimp only
  exact Completes.ite h.completes (Completes.ite (((h.abandonWait truns clusters locks _).unresolved out order basin
      egress thrs truns cores clusters locks power tables _ _).completes)
      ((((h.abandonWait truns clusters locks _).updTr truns _ _).enterHandler thrs truns
      clusters _ _ _ _ _).completes))

end

section
variable {ps : List Part} {r s : State} (h : Reaches ps r s) (out : .out ∈ ps) (basin : .basin ∈ ps)
    (cistern : .cistern ∈ ps) (cores : .cores ∈ ps) (clusters : .clusters ∈ ps) (mem : .mem ∈ ps) (hbm : .hbm ∈ ps)
    (ledger : .ledger ∈ ps) (dci : .dci ∈ ps) (faults : .faults ∈ ps) (trust : .trust ∈ ps) (free : .free ∈ ps)
include h out basin cistern cores clusters mem hbm ledger dci faults trust free

omit basin cistern cores clusters mem hbm ledger trust in
theorem Reaches.primeFaultEnd (warm : Prop) [Decidable warm] (step cause : Nat) :
    Reaches ps r (if warm then (s.primeFault step cause).warmEnd else s.primeFault step cause) :=
  .ite ((h.primeFault out dci faults free _ _).warmEnd out dci) (h.primeFault out dci faults free _ _)

theorem Reaches.primeRest : Reaches ps r s.primeRest := by
  unfold State.primeRest
  split
  · exact h
  · rename_i o _
    extract_lets warm fault s1 s2 s3 k
    have k1 : Reaches freshParts s s1 := (Reaches.refl _ s).bistDone (by decide) (by decide) (by decide) _
    have k2 : Reaches freshParts s s2 :=
      (Reaches.ite (k1.updHbm (by decide) _) (k1.coldTrain (by decide) (by decide) (by decide) _)).stacks
          (by decide) _
    have k3 : Reaches freshParts s s3 := by
      unfold s3
      split
      · exact k2.copyFw (by decide) _ _
      · exact k2
    have kk : Reaches freshParts s k.2 := k3.drawBytes (by decide) _
    have sub : freshParts ⊆ ps := by
      simp [freshParts, basin, cistern, cores, clusters, mem, hbm, free]
    have h3 := h.trans (k3.mono sub)
    have faulted (step cause : Nat) {x : State} (hx : Reaches ps r x) : Reaches ps r (fault step cause x) :=
      hx.primeFaultEnd out dci faults free warm step cause
    refine .ite (faulted _ _ h) (.ite (faulted _ _ (h.stacks hbm _)) ?_)
    split
    · exact h3.primeReady out basin ledger dci faults trust _
    · rename_i fresh
      have same : k.2.trust = s.trust := kk.same .trust (by decide)
      have hk := h.trans (kk.mono sub)
      clear_value k
      have clear : bitsKept (SMap.get 0 k.2.trust.otp 2) (leVal k.1) := by
        rw [same, not_not.1 fresh]
        exact fun b one => by simp at one
      exact .ite (faulted _ _ h3) ((hk.with_trust trust _ (bitsKept_set 2 _ clear)).primeReady out basin ledger dci
          faults trust _)

theorem Reaches.fwFetch : Reaches ps r s.fwFetch := by
  unfold State.fwFetch
  split
  · exact h.setStep dci _
  · split
    · exact h.waitPush dci trust _ _
    · exact ((h.tried trust _).startFw dci trust _ _).primeRest out basin cistern cores clusters mem hbm ledger dci
          faults trust free
    · exact h.waitPush dci trust _ _

theorem Reaches.execWrstRise : Completes ps r (execWrstRise s) := by
  unfold Machine.execWrstRise
  exact Completes.ite h.completes (((h.updTrust trust _ (fun _ => bitsKept_refl _)).fwFetch out basin cistern cores
      clusters mem hbm ledger dci faults trust free).completes)

theorem Reaches.execHostPushDone (image : FwImage) : Completes ps r (execHostPushDone image s) := by
  unfold Machine.execHostPushDone
  dsimp only
  exact Completes.ite h.completes (Completes.ite ((h.updTrust trust _ (fun _ => bitsKept_refl _)).completes)
      (Completes.ite ((h.updTrust trust _ (fun _ => bitsKept_refl _)).completes)
      ((((h.updTrust trust _ (fun _ => bitsKept_refl _)).startFw dci trust _ _).primeRest out basin cistern cores
      clusters mem hbm ledger dci faults trust free).completes)))

theorem Reaches.execColdPriming (o : PrimingObs) : Completes ps r (execColdPriming o s) := by
  unfold Machine.execColdPriming
  exact Completes.ite h.completes (((((h.updTrust trust _ (fun _ => bitsKept_refl _)).logMeas trust _ _ _).logMeas
      trust _ _ _).fwFetch out basin cistern cores clusters mem hbm ledger dci faults trust free).completes)

end

section
variable {ps : List Part} {r s : State} (h : Reaches ps r s) (out : .out ∈ ps) (basin : .basin ∈ ps)
    (thrs : .thrs ∈ ps) (truns : .truns ∈ ps) (scratch : .scratch ∈ ps) (clusters : .clusters ∈ ps)
    (locks : .locks ∈ ps) (mem : .mem ∈ ps) (tables : .tables ∈ ps) (dci : .dci ∈ ps) (faults : .faults ∈ ps)
    (free : .free ∈ ps)
include h out basin thrs truns scratch clusters locks mem tables dci faults free

theorem Reaches.memStore (t a : Nat) (bs : List Byte) : (s.memStore t a bs).reaches ps r := by
  unfold State.memStore
  split
  · trivial
  · exact .inOrder _ (h.localWrite basin scratch _ _ _)
  · exact .inOrder _ (h.clWrite clusters _ _ _)
  · trivial
  · split
    · exact .inOrder _ (h.devStore out thrs truns locks tables dci faults free _ _ _)
    · split
      · exact .inOrder _ h
      · trivial
  · split
    · trivial
    · split
      · trivial
      · exact h.updTr truns _ _
  · split
    · trivial
    · exact .inOrder _ (h.updMem mem _ (HbmMem.wf_store _ _ _))

theorem Reaches.putGranule (t a n v : Nat) (f : State → GrR) (k : ∀ x, (f x).reaches ps x) :
    (s.putGranule t a n v f).reaches ps r := by
  have store := h.memStore out basin thrs truns scratch clusters locks mem tables dci faults free t a (leBytes n v)
  unfold State.putGranule
  split
  · rename_i eq
    rw [eq] at store
    exact (k _).trans store
  · exact h
  · trivial

theorem Reaches.bfillStep (t : Nat) (ga : Reg) (n : Nat) : (s.bfillStep t ga n).reaches ps r :=
  h.putGranule out basin thrs truns scratch clusters locks mem tables dci faults free _ _ _ _ _
      fun x => ((Reaches.refl ps x).bump thrs _ _ _).setReg thrs _ _ _

end

section
variable {ps : List Part} {r s : State} (h : Reaches ps r s) (out : .out ∈ ps) (order : .order ∈ ps)
    (basin : .basin ∈ ps) (egress : .egress ∈ ps) (thrs : .thrs ∈ ps) (truns : .truns ∈ ps) (cores : .cores ∈ ps)
    (clusters : .clusters ∈ ps) (locks : .locks ∈ ps) (power : .power ∈ ps) (tables : .tables ∈ ps) (dci : .dci ∈ ps)
include h out order basin egress thrs truns cores clusters locks power tables dci

theorem Reaches.execCoreRetireTimeout (core : ℕ) : Completes ps r (execCoreRetireTimeout core s) := by
  unfold Machine.execCoreRetireTimeout
  split
  · exact h.completes
  · exact Completes.ite h.completes (((h.coreGone out order basin egress thrs truns cores clusters locks power
        tables _).answerAll out dci _ _ _).completes)

theorem Reaches.execClusterDrainTimeout (cluster : ℕ) : Completes ps r (execClusterDrainTimeout cluster s) := by
  unfold Machine.execClusterDrainTimeout
  split
  · exact h.completes
  · dsimp only
    exact Completes.ite h.completes (((((Reaches.foldl (Reaches.foldl h _ fun x _ => ((Reaches.refl ps x)).returnNext
        order truns _) _ fun x _ => ((Reaches.refl ps x)).redo out order basin egress thrs truns cores clusters locks
        power tables _ _).updOrder order _).updCl clusters _ _).drainEnd out clusters dci _).completes)

end

section
variable {ps : List Part} {r s : State} (h : Reaches ps r s) (out : .out ∈ ps) (order : .order ∈ ps)
    (basin : .basin ∈ ps) (egress : .egress ∈ ps) (thrs : .thrs ∈ ps) (truns : .truns ∈ ps) (cores : .cores ∈ ps)
    (clusters : .clusters ∈ ps) (locks : .locks ∈ ps) (power : .power ∈ ps) (tables : .tables ∈ ps)
    (faults : .faults ∈ ps)
include h out order basin egress thrs truns cores clusters locks power tables faults

theorem Reaches.unitReset (unit : ℕ) (index : ℕ) : Reaches ps r (s.unitReset unit index) := by
  unfold State.unitReset
  dsimp only
  refine Reaches.bumpReset ?_ faults _ _
  refine Reaches.setUnit ?_ cores clusters faults _ _ _
  refine Reaches.foldl ?_ _ fun x a => ?_
  · exact h
  · split
    · exact ((Reaches.refl ps x)).fail out order basin egress thrs truns cores clusters locks power tables _ _
    · exact ((Reaches.refl ps x)).updTr truns _ _

theorem Reaches.coreRetireBody (c : CmdRef) (core : ℕ) (restore : ℕ) : Reaches ps r
    (coreRetireBody c core restore s).1 := by
  unfold Machine.coreRetireBody
  dsimp only
  split
  · exact h
  · split
    · split
      · exact h
      · split
        · exact h
        · split
          · exact h
          · dsimp only
            exact (Reaches.foldl (h.unfence faults _ _) _ fun x _ => ((Reaches.refl ps x)).setThr thrs _ _).updCore
                cores _ _
    · split
      · exact h
      · split
        · exact h
        · split
          · exact h
          · split
            · dsimp only
              exact h.coreGone out order basin egress thrs truns cores clusters locks power tables _
            · dsimp only
              exact h.coreLeave order truns cores _ _

theorem Reaches.helperControlBody (c : CmdRef) (action unit index : Nat) :
    Reaches ps r (helperControlBody c action unit index s).1 := by
  unfold Machine.helperControlBody
  generalize (if unit = 1 then 23 else 191) = last
  dsimp only
  repeat' split
  · exact h
  · dsimp only
    exact h.setUnit cores clusters faults _ _ _
  · exact h
  · dsimp only
    exact (h.unitReset out order basin egress thrs truns cores clusters locks power tables faults _ _).errCnt
        faults _ _

end

section
variable {ps : List Part} {r s : State} (h : Reaches ps r s) (out : .out ∈ ps) (order : .order ∈ ps)
    (basin : .basin ∈ ps) (egress : .egress ∈ ps) (thrs : .thrs ∈ ps) (truns : .truns ∈ ps) (locks : .locks ∈ ps)
    (tables : .tables ∈ ps) (dci : .dci ∈ ps) (faults : .faults ∈ ps) (trust : .trust ∈ ps) (free : .free ∈ ps)
include h out order basin egress thrs truns locks tables dci faults trust free

omit out order basin egress thrs truns locks dci faults trust in
theorem Reaches.tsetWrite_getD (q : Requester) (off : Nat) (v : W64) : Reaches ps r ((s.tsetWrite q off v).getD s)
    := by
  cases eq : s.tsetWrite q off v with
  | none => exact h
  | some u => exact h.tsetWrite tables free _ _ _ _ eq

theorem Reaches.bar0Write (f : HostFn) (off : Nat) (v : W64) : Reaches ps r (s.bar0Write f off v) := by
  unfold State.bar0Write
  refine .ite (h.heartbeat dci _ _) (.ite (h.ringWrite out dci _ _ _) (.ite (h.ringWrite out dci _ _ _)
    (.ite (h.ringWrite out dci _ _ _) (.ite (h.updFn dci _ _) (.ite (h.updFn dci _ _) (.ite (h.ackEvents out dci _ _)
    (.ite (h.intMapWrite dci _ _ _) (.ite (h.tsetWrite_getD tables free _ _ _) (.ite (h.bootWrite trust _ _ _)
    (.ite (h.msixWrite out dci _ _ _) (.ite (h.puntCfgWrite out order basin egress dci _ _ _ _)
    (.ite (h.puntCfgWrite out order basin egress dci _ _ _ _) (.ite ?_ h)))))))))))))
  split
  · exact h.lockRelease out thrs truns locks dci faults _ _
  · exact h.lockClear out locks dci faults _ _
  · exact h

theorem Reaches.execRegisterWrite (fn : HostFn) (bar : ℕ) (off : ℕ) (size : ℕ) (val : W64) : Completes ps r
    (execRegisterWrite fn bar off size val s) := by
  unfold Machine.execRegisterWrite
  exact Completes.ite h.completes (Completes.ite ((h.bar0Write out order basin egress thrs truns locks tables dci
      faults trust free _ _ _).completes) (Completes.ite ((h.bar2Write dci _ _ _).completes) h.completes))

end

section
variable {ps : List Part} {r s : State} (h : Reaches ps r s) (out : .out ∈ ps) (order : .order ∈ ps)
    (basin : .basin ∈ ps) (egress : .egress ∈ ps) (thrs : .thrs ∈ ps) (truns : .truns ∈ ps) (scratch : .scratch ∈ ps)
    (cores : .cores ∈ ps) (clusters : .clusters ∈ ps) (locks : .locks ∈ ps) (power : .power ∈ ps)
    (tables : .tables ∈ ps)
include h out order basin egress thrs truns scratch cores clusters locks power tables

theorem Reaches.resetThreads (ts : List ℕ) : Reaches ps r (s.resetThreads ts) := by
  unfold State.resetThreads
  exact Reaches.foldl (Reaches.foldl (Reaches.foldl h _ fun x _ => ((Reaches.refl ps x)).returnNext order truns _) _
      fun x _ => ((Reaches.refl ps x)).failAt out order basin egress thrs truns cores clusters locks power
      tables _ _ _) _ fun x _ => ((Reaches.refl ps x)).clearThread thrs truns scratch cores clusters locks _

end

section
variable {ps : List Part} {r s : State} (h : Reaches ps r s) (out : .out ∈ ps) (thrs : .thrs ∈ ps)
    (truns : .truns ∈ ps) (scratch : .scratch ∈ ps) (cores : .cores ∈ ps) (clusters : .clusters ∈ ps)
    (locks : .locks ∈ ps) (mem : .mem ∈ ps) (tables : .tables ∈ ps) (dci : .dci ∈ ps) (faults : .faults ∈ ps)
    (free : .free ∈ ps)
include h out thrs truns scratch cores clusters locks mem tables dci faults free

theorem Reaches.debugPoke (t a : Nat) (bs : List Byte) : (s.debugPoke t a bs).reaches ps r := by
  have written {x : State} (k : Reaches ps r x) (no : Nat) :
      (if s.pokeRight (a - no) = 3 then DbgW.ok x
        else if s.pokeRight (a - no) = 2 then .ok (x.textWritten (coreOf t) ((a - no) / 64)) else .bad).reaches ps r
            := by
    split
    · exact k
    · split
      · exact k.textWritten cores clusters mem _ _
      · trivial
  unfold State.debugPoke
  split
  · split
    · exact h.scratchWrite scratch _ _ _
    · trivial
  · exact h.clWrite clusters _ _ _
  · split
    · rename_i eq
      exact StR.reaches.of eq (h.devStore out thrs truns locks tables dci faults free _ _ _)
    · trivial
    · trivial
  · exact written (h.pokeLine cores clusters mem _ _ _) _
  · exact written (h.updMem mem (fun m => m.store _ bs) (HbmMem.wf_store _ _ _)) _
  · trivial

theorem Reaches.debugSet (t : ℕ) (space : ℕ) (a : ℕ) (bs : List Byte) : (s.debugSet t space a bs).reaches ps r := by
  unfold State.debugSet
  split
  · exact h.debugSetReg thrs _ _ _
  · split
    · exact h.scratchWrite scratch _ _ _
    · exact trivial
  · exact h.debugPoke out thrs truns scratch cores clusters locks mem tables dci faults free _ _ _
  · exact trivial

theorem Reaches.debugSets (t space a n : Nat) (data : List Byte) : (s.debugSets t space a n data).reaches ps r := by
  induction n generalizing s a data with
  | zero => exact h
  | succ n ih =>
    have k := h.debugSet out thrs truns scratch cores clusters locks mem tables dci faults free t space a
        (slice data 0 8)
    unfold State.debugSets
    split
    · rename_i eq
      rw [eq] at k
      exact ih k _ _
    · trivial
    · trivial

theorem Reaches.debugWriteBody (t : ℕ) (space : ℕ) (addr : ℕ) (len : ℕ) (data : List Byte) : Reaches ps r
    (debugWriteBody t space addr len data s).1 := by
  unfold Machine.debugWriteBody
  split
  · exact h
  · split
    · exact h
    · split
      · rename_i eq
        have k := DbgW.reaches.of eq (h.debugSets out thrs truns scratch cores clusters locks mem tables dci faults
            free _ _ _ _ _)
        change Reaches ps _ _ at k
        exact k
      · exact h
      · exact h

theorem Reaches.execDebugWrite (c : CmdRef) (thread : ℕ) (space : ℕ) (addr : ℕ) (len : ℕ)
    (data : List Byte) : Completes ps r (execDebugWrite c thread space addr len data s) := by
  unfold Machine.execDebugWrite
  exact h.command out dci faults free _ _ _ _ (fun x => ((Reaches.refl ps x)).guarded _
      (fun x => ((Reaches.refl ps x)).debugWriteBody out thrs truns scratch cores clusters locks mem tables dci faults
      free _ _ _ _ _))

end

section
variable {ps : List Part} {r s : State} (h : Reaches ps r s) (out : .out ∈ ps) (order : .order ∈ ps)
    (basin : .basin ∈ ps) (egress : .egress ∈ ps) (thrs : .thrs ∈ ps) (truns : .truns ∈ ps) (cores : .cores ∈ ps)
    (clusters : .clusters ∈ ps) (locks : .locks ∈ ps) (power : .power ∈ ps) (tables : .tables ∈ ps) (dci : .dci ∈ ps)
    (faults : .faults ∈ ps)
include h out order basin egress thrs truns cores clusters locks power tables dci faults

theorem Reaches.debugHalt (t : ℕ) (release : Bool) : Reaches ps r (s.debugHalt t release) := by
  unfold State.debugHalt
  split
  · exact Reaches.ite ((h.halt out order thrs truns clusters dci faults _ _).redo out order basin egress thrs truns
        cores clusters locks power tables _ _) (Reaches.ite h (h.halt out order thrs truns clusters dci faults _ _))
  · exact Reaches.ite h (h.halt out order thrs truns clusters dci faults _ _)

theorem Reaches.fenceDispatch (p : ℕ) (ver : ℕ) : Reaches ps r (s.fenceDispatch p ver) := by
  unfold State.fenceDispatch
  split
  · exact h
  · exact Reaches.ite h ((Reaches.foldl (h.updDom order _ _) _ fun x _ => ((Reaches.refl ps x)).pullBack out order
        basin egress thrs truns cores clusters locks power tables _).fenceCheck out order dci faults)

theorem Reaches.trap (t : ℕ) (x : Trap) : Reaches ps r (s.trap t x) := by
  unfold State.trap
  exact Reaches.ite (h.enterHandler thrs truns clusters _ _ _ _ _)
      (Reaches.ite (h.halt out order thrs truns clusters dci faults _ _)
      (h.unresolved out order basin egress thrs truns cores clusters locks power tables _ _))

theorem Reaches.wakeFill (core : ℕ) (no : ℕ) (data : List Byte) (poison : Bool) : Reaches ps r
    (s.wakeFill core no data poison) := by
  unfold State.wakeFill
  refine Reaches.foldl ?_ _ fun x a => ?_
  · exact h
  · split
    · exact Reaches.ite (Reaches.ite ((((Reaches.refl ps x)).updTr truns _ _).trap out order basin egress thrs truns
          cores clusters locks power tables dci faults _ _) (((Reaches.refl ps x)).complete thrs truns _ _ _))
          ((Reaches.refl ps x))
    · exact Reaches.ite (((Reaches.refl ps x)).updTr truns _ _) ((Reaches.refl ps x))
    · exact (Reaches.refl ps x)

theorem Reaches.toCluster (p : ℕ) (c : ℕ) : Reaches ps r (s.toCluster p c) := by
  unfold State.toCluster
  exact (h.fenceDispatch out order basin egress thrs truns cores clusters locks power tables dci faults _ _).updRc
      order _ _

theorem Reaches.fillSlot (p : ℕ) (c : ℕ) (t : ℕ) : Reaches ps r (s.fillSlot p c t) := by
  unfold State.fillSlot
  exact Reaches.ite ((((h.toCluster out order basin egress thrs truns cores clusters locks power tables dci
      faults _ _).listDrop order _).updOrder order _).startRun order thrs truns cores clusters power _ _)
      (((((h.toCluster out order basin egress thrs truns cores clusters locks power tables dci faults _ _).listDrop
      order _).updOrder order _).updTr truns _ _).updPkt order _ _)

theorem Reaches.jump (t : ℕ) (target : W64) (link : Bool) : Reaches ps r (s.jump t target link) := by
  unfold State.jump
  exact Reaches.ite (h.trap out order basin egress thrs truns cores clusters locks power tables dci faults _ _)
      ((h.updThr thrs _ _).goto thrs clusters _ _)

theorem Reaches.startLong (t : ℕ) (unit : ℕ) (gd : Reg) (ga : Reg) (op : LongOp) : Maybe ps r
    (s.startLong t unit gd ga op) := by
  unfold State.startLong
  split
  · exact Maybe.none
  · split
    · exact (h.advance thrs _).maybe
    · split
      · exact Maybe.none
      · exact (h.trap out order basin egress thrs truns cores clusters locks power tables dci faults _ _).maybe
      · exact (h.updTr truns _ _).maybe

theorem Reaches.debugHaltBody (t : ℕ) (release : ℕ) : Reaches ps r (debugHaltBody t release s).1 := by
  unfold Machine.debugHaltBody
  split
  · exact h
  · split
    · exact h
    · split
      · exact h
      · dsimp only
        exact h.debugHalt out order basin egress thrs truns cores clusters locks power tables dci faults _ _

theorem Reaches.trapAt (t : ℕ) (x : Trap) : Maybe ps r (trapAt t x s) := by
  unfold Machine.trapAt
  exact (h.trap out order basin egress thrs truns cores clusters locks power tables dci faults _ _).maybe

theorem Reaches.execFenceDrainExpiry : Completes ps r (execFenceDrainExpiry s) := by
  unfold Machine.execFenceDrainExpiry
  split
  · exact h.completes
  · split
    · exact h.completes
    · exact Completes.ite h.completes ((Reaches.ite ((Reaches.foldl (h.updOrder order _) _
          fun x _ => ((Reaches.refl ps x)).pullBack out order basin egress thrs truns cores clusters locks power
          tables _).updCnt order _) (((Reaches.foldl (h.updOrder order _) _ fun x _ => ((Reaches.refl ps x)).pullBack
          out order basin egress thrs truns cores clusters locks power tables _).updCnt order _).event out dci
          faults _ _)).completes)

theorem Reaches.execOrderYield (domain : ℕ) : Completes ps r (execOrderYield domain s) := by
  unfold Machine.execOrderYield
  split
  · exact h.completes
  · dsimp only
    refine Reaches.completes ?_
    refine Reaches.updCnt ?_ order _
    refine Reaches.startRun ?_ order thrs truns cores clusters power _ _
    refine Reaches.updTr ?_ truns _ _
    refine Reaches.toCluster ?_ out order basin egress thrs truns cores clusters locks power tables dci faults _ _
    refine Reaches.redo ?_ out order basin egress thrs truns cores clusters locks power tables _ _
    refine Reaches.updTr ?_ truns _ _
    split
    · exact h.updTr truns _ _
    · exact h.listDrop order _

theorem Reaches.execAffinityWaitExpiry (pkt : ℕ) : Completes ps r (execAffinityWaitExpiry pkt s) := by
  unfold Machine.execAffinityWaitExpiry
  split
  · exact h.completes
  · split
    · exact (h.fillSlot out order basin egress thrs truns cores clusters locks power tables dci
          faults _ _ _).completes
    · exact h.completes

theorem Reaches.execDispatch : Completes ps r (execDispatch s) := by
  unfold Machine.execDispatch
  split
  · exact h.completes
  · split
    · exact h.completes
    · split
      · exact (h.fillSlot out order basin egress thrs truns cores clusters locks power tables dci
            faults _ _ _).completes
      · exact h.completes

end

section
variable {ps : List Part} {r s : State} (h : Reaches ps r s) (out : .out ∈ ps) (net : .net ∈ ps) (order : .order ∈ ps)
    (basin : .basin ∈ ps) (egress : .egress ∈ ps) (thrs : .thrs ∈ ps) (truns : .truns ∈ ps) (cores : .cores ∈ ps)
    (clusters : .clusters ∈ ps) (locks : .locks ∈ ps) (power : .power ∈ ps) (tables : .tables ∈ ps) (dci : .dci ∈ ps)
    (faults : .faults ∈ ps)
include h out net order basin egress thrs truns cores clusters locks power tables dci faults

theorem Reaches.refuse (p : ℕ) (code : ℕ) : Reaches ps r (s.refuse p code) := by
  unfold State.refuse
  dsimp only
  split
  · exact h
  · split
    · split
      · exact (h.countRefusal net _ _).updPkt order _ _
      · split
        · exact ((h.countRefusal net _ _).updPkt order _ _).freeBuf out basin egress _
        · exact (h.countRefusal net _ _).updPkt order _ _
    · split
      · refine Reaches.endRefused ?_ order _
        refine Reaches.clearRun ?_ out order basin egress thrs truns cores clusters locks power tables _
        refine Reaches.fenceCheck ?_ out order dci faults
        refine Reaches.updDom ?_ order _ _
        refine Reaches.dropVers ?_ tables _
        refine Reaches.cascade ?_ out order basin egress thrs truns cores clusters locks power tables _
        refine Reaches.refund ?_ tables _
        split
        · exact (h.countRefusal net _ _).updPkt order _ _
        · split
          · exact ((h.countRefusal net _ _).updPkt order _ _).freeBuf out basin egress _
          · exact (h.countRefusal net _ _).updPkt order _ _
      · refine Reaches.endRefused ?_ order _
        refine Reaches.listDrop ?_ order _
        refine Reaches.fenceCheck ?_ out order dci faults
        refine Reaches.updDom ?_ order _ _
        refine Reaches.dropVers ?_ tables _
        refine Reaches.cascade ?_ out order basin egress thrs truns cores clusters locks power tables _
        refine Reaches.refund ?_ tables _
        split
        · exact (h.countRefusal net _ _).updPkt order _ _
        · split
          · exact ((h.countRefusal net _ _).updPkt order _ _).freeBuf out basin egress _
          · exact (h.countRefusal net _ _).updPkt order _ _
      · refine Reaches.endRefused ?_ order _
        refine Reaches.updWell ?_ net _ _
        refine Reaches.fenceCheck ?_ out order dci faults
        refine Reaches.updDom ?_ order _ _
        refine Reaches.dropVers ?_ tables _
        refine Reaches.cascade ?_ out order basin egress thrs truns cores clusters locks power tables _
        refine Reaches.refund ?_ tables _
        split
        · exact (h.countRefusal net _ _).updPkt order _ _
        · split
          · exact ((h.countRefusal net _ _).updPkt order _ _).freeBuf out basin egress _
          · exact (h.countRefusal net _ _).updPkt order _ _
      · refine Reaches.endRefused ?_ order _
        refine Reaches.updTr ?_ truns _ _
        refine Reaches.fenceCheck ?_ out order dci faults
        refine Reaches.updDom ?_ order _ _
        refine Reaches.dropVers ?_ tables _
        refine Reaches.cascade ?_ out order basin egress thrs truns cores clusters locks power tables _
        refine Reaches.refund ?_ tables _
        split
        · exact (h.countRefusal net _ _).updPkt order _ _
        · split
          · exact ((h.countRefusal net _ _).updPkt order _ _).freeBuf out basin egress _
          · exact (h.countRefusal net _ _).updPkt order _ _
      · refine Reaches.endRefused ?_ order _
        refine Reaches.updOrder ?_ order _
        refine Reaches.freeProv ?_ out basin egress _ _
        refine Reaches.fenceCheck ?_ out order dci faults
        refine Reaches.updDom ?_ order _ _
        refine Reaches.dropVers ?_ tables _
        refine Reaches.cascade ?_ out order basin egress thrs truns cores clusters locks power tables _
        refine Reaches.refund ?_ tables _
        split
        · exact (h.countRefusal net _ _).updPkt order _ _
        · split
          · exact ((h.countRefusal net _ _).updPkt order _ _).freeBuf out basin egress _
          · exact (h.countRefusal net _ _).updPkt order _ _
      · refine Reaches.fenceCheck ?_ out order dci faults
        refine Reaches.updDom ?_ order _ _
        refine Reaches.dropVers ?_ tables _
        refine Reaches.cascade ?_ out order basin egress thrs truns cores clusters locks power tables _
        refine Reaches.refund ?_ tables _
        split
        · exact (h.countRefusal net _ _).updPkt order _ _
        · split
          · exact ((h.countRefusal net _ _).updPkt order _ _).freeBuf out basin egress _
          · exact (h.countRefusal net _ _).updPkt order _ _

theorem Reaches.startFrame (port : ℕ) (p : ℕ) : Reaches ps r (s.startFrame port p) := by
  unfold State.startFrame
  exact Reaches.ite (h.refuse out net order basin egress thrs truns cores clusters locks power tables dci faults _ _)
      (h.updPort net _ _)

theorem Reaches.frameIn (port : ℕ) (words : List IWord) (ended : Bool) : Reaches ps r (s.frameIn port words ended)
    := by
  unfold State.frameIn
  exact (((h.newFrame order _ _ _).updPort net _ _).startFrame out net order basin egress thrs truns cores clusters
      locks power tables dci faults _ _).macWrite net order _ _ _ _

theorem Reaches.macControl (port : ℕ) (bytes : List Byte) (rxerr : Bool) : Reaches ps r
    (s.macControl port bytes rxerr) := by
  unfold State.macControl
  exact Reaches.ite (h.macCnt net _ _) (Reaches.ite (Reaches.ite ((h.macCnt net _ _).pauseFor egress _ _ _)
      (h.macCnt net _ _)) (Reaches.ite (Reaches.ite ((h.macCnt net _ _).pfcTake egress _ _) (h.macCnt net _ _))
      (Reaches.ite (h.frameIn out net order basin egress thrs truns cores clusters locks power tables dci
      faults _ _ _) (h.macCnt net _ _))))

theorem Reaches.macReturn (port : ℕ) (bytes : List Byte) : Reaches ps r (s.macReturn port bytes) := by
  unfold State.macReturn
  exact Reaches.ite h (Reaches.ite (h.macControl out net order basin egress thrs truns cores clusters locks power
      tables dci faults _ _ _) (h.frameIn out net order basin egress thrs truns cores clusters locks power tables dci
      faults _ _ _))

theorem Reaches.wire (phys : ℕ) (bytes : List Byte) (good : Bool) (dt : ℕ) : Reaches ps r (s.wire phys bytes good dt)
    := by
  unfold State.wire
  exact Reaches.ite (h.macReturn out net order basin egress thrs truns cores clusters locks power tables dci
      faults _ _) (h.with_out out _)

theorem Reaches.txAbort (phys : ℕ) : Reaches ps r (s.txAbort phys) := by
  unfold State.txAbort
  split
  · exact h
  · exact Reaches.ite ((((h.wire out net order basin egress thrs truns cores clusters locks power tables dci
        faults _ _ _ _).updEport egress _ _).updPump egress _ _).updRc order _ _)
        (((h.wire out net order basin egress thrs truns cores clusters locks power tables dci faults _ _ _ _).updEport
        egress _ _).killCopy out order basin egress dci faults _ _ _)

theorem Reaches.stompNow (phys : ℕ) (n : TxNow) : Reaches ps r (s.stompNow phys n) := by
  unfold State.stompNow
  exact ((h.wire out net order basin egress thrs truns cores clusters locks power tables dci
      faults _ _ _ _).stompCount net _).updEport egress _ _

theorem Reaches.stompCt (p : ℕ) : Reaches ps r (s.stompCt p) := by
  unfold State.stompCt
  split
  · exact h.updRc order _ _
  · refine Reaches.foldl ?_ _ fun x a => ?_
    · exact h
    · split
      · exact Reaches.ite (((((Reaches.refl ps x)).stompNow out net order basin egress thrs truns cores clusters locks
            power tables dci faults _ _).updPump egress _ _).updRc order _ _) ((Reaches.refl ps x))
      · exact (Reaches.refl ps x)

theorem Reaches.refuseFrame (p : ℕ) (code : ℕ) : Reaches ps r (s.refuseFrame p code) := by
  unfold State.refuseFrame
  split
  · exact h
  · split
    · dsimp only
      split
      · exact ((((h.updPkt order _ _).stompCt out net order basin egress thrs truns cores clusters locks power tables
            dci faults _).refuse out net order basin egress thrs truns cores clusters locks power tables dci
            faults _ _).updPkt order _ _).freeBuf out basin egress _
      · exact (((h.updPkt order _ _).stompCt out net order basin egress thrs truns cores clusters locks power tables
            dci faults _).refuse out net order basin egress thrs truns cores clusters locks power tables dci
            faults _ _).updPkt order _ _
    · exact h.refuse out net order basin egress thrs truns cores clusters locks power tables dci faults _ _

theorem Reaches.pumpCut (phys : ℕ) : Reaches ps r (s.pumpCut phys) := by
  unfold State.pumpCut
  split
  · exact h
  · exact Reaches.ite (((h.stompNow out net order basin egress thrs truns cores clusters locks power tables dci
        faults _ _).updPump egress _ _).updRc order _ _) ((h.stompNow out net order basin egress thrs truns cores
        clusters locks power tables dci faults _ _).updQueue egress _ _)

theorem Reaches.pumpResetStart (p : ℕ) : Reaches ps r (s.pumpResetStart p) := by
  unfold State.pumpResetStart
  exact Reaches.foldl (Reaches.foldl (h.updPump egress _ _) _ fun x _ => ((Reaches.refl ps x)).pumpCut out net order
      basin egress thrs truns cores clusters locks power tables dci faults _) _
      fun x _ => ((Reaches.refl ps x)).updQueue egress _ _

theorem Reaches.requestCell (p : ℕ) : Reaches ps r (s.requestCell p) := by
  unfold State.requestCell
  dsimp only
  split
  · exact (h.failCount basin _ _).refuseFrame out net order basin egress thrs truns cores clusters locks power tables
        dci faults _ _
  · exact (h.failCount basin _ _).refuseFrame out net order basin egress thrs truns cores clusters locks power tables
        dci faults _ _
  · split
    · exact (h.failCount basin _ _).refuseFrame out net order basin egress thrs truns cores clusters locks power
          tables dci faults _ _
    · exact ((h.requested basin _ _).with_basin basin _).updPkt order _ _

theorem Reaches.requestCells (p n : Nat) : Reaches ps r (s.requestCells p n) := by
  induction n generalizing s with
  | zero => exact h
  | succ n ih =>
    unfold State.requestCells
    split
    · exact h
    · exact ih (h.requestCell out net order basin egress thrs truns cores clusters locks power tables dci faults _)

theorem Reaches.poisonWord (p : ℕ) (idx : ℕ) : Reaches ps r (s.poisonWord p idx) := by
  unfold State.poisonWord
  exact Reaches.ite ((((h.updPkt order _ _).intakeCnt net _ _).updRc order _ _).stompCt out net order basin egress
      thrs truns cores clusters locks power tables dci faults _) (((h.updPkt order _ _).intakeCnt net _ _).updRc
      order _ _)

theorem Reaches.failThese (l : List CellReq) : Reaches ps r (s.failThese l) := by
  unfold State.failThese
  exact Reaches.foldl h _ fun x _ => (((Reaches.refl ps x)).failCount basin _ _).refuseFrame out net order basin
      egress thrs truns cores clusters locks power tables dci faults _ _

theorem Reaches.failLost (b : ℕ) : Reaches ps r (s.failLost b) := by
  unfold State.failLost
  exact ((h.setReqs basin _ _).with_basin basin _).failThese out net order basin egress thrs truns cores clusters
      locks power tables dci faults _

theorem Reaches.failReqs (b : ℕ) : Reaches ps r (s.failReqs b) := by
  unfold State.failReqs
  exact Reaches.ite h ((h.setReqs basin _ _).failThese out net order basin egress thrs truns cores clusters locks
      power tables dci faults _)

theorem Reaches.sendFrame (port : ℕ) (n : TxNow) : Reaches ps r (s.sendFrame port n) := by
  unfold State.sendFrame
  split
  · exact (h.wire out net order basin egress thrs truns cores clusters locks power tables dci
        faults _ _ _ _).stompCount net _
  · exact h.wire out net order basin egress thrs truns cores clusters locks power tables dci faults _ _ _ _

theorem Reaches.debugDiscardBody (domain : ℕ) (seq : W32) : Reaches ps r (debugDiscardBody domain seq s).1 := by
  unfold Machine.debugDiscardBody
  split
  · exact h
  · split
    · exact h
    · dsimp only
      exact ((Reaches.ite (h.stompCt out net order basin egress thrs truns cores clusters locks power tables dci
          faults _) h).unplace net order truns _).discardPkt out order basin egress thrs truns cores clusters locks
          power tables _ _

theorem Reaches.execMacControlRx (port : ℕ) (bytes : List Byte) (rxerr : Bool) : Completes ps r
    (execMacControlRx port bytes rxerr s) := by
  unfold Machine.execMacControlRx
  exact Completes.ite h.completes ((h.macControl out net order basin egress thrs truns cores clusters locks power
      tables dci faults _ _ _).completes)

theorem Reaches.execFrameSof (port : ℕ) (first : SofWords) : Completes ps r (execFrameSof port first s) := by
  unfold Machine.execFrameSof
  exact Completes.ite h.completes ((h.frameIn out net order basin egress thrs truns cores clusters locks power tables
      dci faults _ _ _).completes)

end

section
variable {ps : List Part} {r s : State} (h : Reaches ps r s) (out : .out ∈ ps) (order : .order ∈ ps)
    (basin : .basin ∈ ps) (egress : .egress ∈ ps) (thrs : .thrs ∈ ps) (truns : .truns ∈ ps) (cores : .cores ∈ ps)
    (clusters : .clusters ∈ ps) (locks : .locks ∈ ps) (mem : .mem ∈ ps) (power : .power ∈ ps) (tables : .tables ∈ ps)
    (dci : .dci ∈ ps) (faults : .faults ∈ ps)
include h out order basin egress thrs truns cores clusters locks mem power tables dci faults

theorem Reaches.issueLate (t : Nat) (late : State → Option (Nat × Nat)) (body : State → Option State)
    (k : ∀ x, Maybe ps x (body x)) : Completes ps r (issueLate t late body s) := by
  unfold Machine.issueLate
  split
  · exact h.completes
  · split
    · split
      · exact (h.discardPkt out order basin egress thrs truns cores clusters locks power tables _ _).completes
      · exact (h.halt out order thrs truns clusters dci faults _ _).completes
    · split
      · exact ((h.trap out order basin egress thrs truns cores clusters locks power tables dci faults _ _).issued out
            order thrs truns clusters dci faults _).completes
      · split
        · rename_i eq
          exact (((h.fetchLine cores clusters mem _).trans (k _ _ eq)).issued out order thrs truns clusters dci
              faults _).completes
        · split <;> exact (h.updTr truns _ _).completes

theorem Reaches.issueRegsLate (t : Nat) (rs : List Reg) (late : State → Option (Nat × Nat))
    (body : State → Option State) (k : ∀ x, Maybe ps x (body x)) : Completes ps r (issueRegsLate t rs late body s) :=
  h.issueLate out order basin egress thrs truns cores clusters locks mem power tables dci faults t _ _ fun x => .ite
      .none (k x)

theorem Reaches.cryptoLong (t : ℕ) (gd : Reg) (ga : Reg) (writing : Bool) (op : KeySlot → LongOp) : Completes ps r
    (cryptoLong t gd ga writing op s) := by
  unfold Machine.cryptoLong
  refine h.issueRegsLate out order basin egress thrs truns cores clusters locks mem power tables dci faults _ _ _ _
      fun x => ?_
  have hx := Reaches.refl ps x
  split
  · exact (hx.trap out order basin egress thrs truns cores clusters locks power tables dci faults _ _).maybe
  · split
    · exact (hx.trap out order basin egress thrs truns cores clusters locks power tables dci faults _ _).maybe
    · exact hx.startLong out order basin egress thrs truns cores clusters locks power tables dci faults _ _ _ _ _

theorem Reaches.issue (t : Nat) (body : State → Option State) (k : ∀ x, Maybe ps x (body x)) :
    Completes ps r (issue t body s) := h.issueLate out order basin egress thrs truns cores clusters locks mem power
        tables dci faults t _ _ k

theorem Reaches.execCoprocUnfitted (t : ℕ) (w : W32) : Completes ps r (execCoprocUnfitted t w s) := by
  unfold Machine.execCoprocUnfitted
  split
  · exact h.completes
  · exact h.issue out order basin egress thrs truns cores clusters locks mem power tables dci faults _ _
        (fun x => (((Reaches.refl ps x)).trap out order basin egress thrs truns cores clusters locks power tables dci
        faults _ _).maybe)
  · exact h.issue out order basin egress thrs truns cores clusters locks mem power tables dci faults _ _
        (fun x => (((Reaches.refl ps x)).trap out order basin egress thrs truns cores clusters locks power tables dci
        faults _ _).maybe)

theorem Reaches.issueRegs (t : Nat) (rs : List Reg) (body : State → Option State) (k : ∀ x, Maybe ps x (body x)) :
    Completes ps r (issueRegs t rs body s) := h.issue out order basin egress thrs truns cores clusters locks mem power
        tables dci faults t _ fun x => .ite .none (k x)

theorem Reaches.execGcmFinal (t : ℕ) (gd : Reg) (ga : Reg) (gb : Reg) : Completes ps r (execGcmFinal t gd ga gb s)
    := by
  unfold Machine.execGcmFinal
  refine h.issueRegs out order basin egress thrs truns cores clusters locks mem power tables dci faults _ _ _
      fun x => ?_
  have hx := Reaches.refl ps x
  split
  · exact (hx.trap out order basin egress thrs truns cores clusters locks power tables dci faults _ _).maybe
  · exact Maybe.ite Maybe.none (((hx.setPair thrs _ _ _).advance thrs _).maybe)

theorem Reaches.execGhashAad (t : ℕ) (gd : Reg) (ga : Reg) : Completes ps r (execGhashAad t gd ga s) := by
  unfold Machine.execGhashAad
  exact h.cryptoLong out order basin egress thrs truns cores clusters locks mem power tables dci faults _ _ _ _ _

theorem Reaches.execGctrDec (t : ℕ) (gd : Reg) (ga : Reg) : Completes ps r (execGctrDec t gd ga s) := by
  unfold Machine.execGctrDec
  exact h.cryptoLong out order basin egress thrs truns cores clusters locks mem power tables dci faults _ _ _ _ _

theorem Reaches.execGctrEnc (t : ℕ) (gd : Reg) (ga : Reg) : Completes ps r (execGctrEnc t gd ga s) := by
  unfold Machine.execGctrEnc
  exact h.cryptoLong out order basin egress thrs truns cores clusters locks mem power tables dci faults _ _ _ _ _

theorem Reaches.shortOp (t unit : Nat) (rs : List Reg) (bad : State → Option Nat) (gd : Reg) (v : State → W64) :
    Completes ps r (shortOp t unit rs bad gd v s) := by
  refine h.issueRegs out order basin egress thrs truns cores clusters locks mem power tables dci faults _ _ _
      fun x => ?_
  have hx := Reaches.refl ps x
  refine .ite (hx.trap out order basin egress thrs truns cores clusters locks power tables dci faults _ _).maybe
      (.ite (hx.trap out order basin egress thrs truns cores clusters locks power tables dci faults _ _).maybe ?_)
  split
  · exact (hx.trap out order basin egress thrs truns cores clusters locks power tables dci faults _ _).maybe
  · exact .ite .none (hx.result thrs _ _ _).maybe

theorem Reaches.execHrange (t : Nat) (gd ga gb : Reg) : Completes ps r (execHrange t gd ga gb s) :=
  h.shortOp out order basin egress thrs truns cores clusters locks mem power tables dci faults _ _ _ _ _ _

theorem Reaches.execTplz (t : ℕ) (gd : Reg) (ga : Reg) (gb : Reg) : Completes ps r (execTplz t gd ga gb s) := by
  unfold Machine.execTplz
  exact h.shortOp out order basin egress thrs truns cores clusters locks mem power tables dci faults _ _ _ _ _ _

theorem Reaches.execHmix (t : ℕ) (gd : Reg) (ga : Reg) (gb : Reg) : Completes ps r (execHmix t gd ga gb s) := by
  unfold Machine.execHmix
  exact h.shortOp out order basin egress thrs truns cores clusters locks mem power tables dci faults _ _ _ _ _ _

theorem Reaches.execCrcm (t : ℕ) (gd : Reg) (ga : Reg) (ieee : Bool) : Completes ps r (execCrcm t gd ga ieee s) := by
  unfold Machine.execCrcm
  refine h.issueRegsLate out order basin egress thrs truns cores clusters locks mem power tables dci faults _ _ _ _
      fun x => ?_
  have hx := Reaches.refl ps x
  split
  · exact (hx.trap out order basin egress thrs truns cores clusters locks power tables dci faults _ _).maybe
  · split
    · exact (hx.trap out order basin egress thrs truns cores clusters locks power tables dci faults _ _).maybe
    · exact hx.startLong out order basin egress thrs truns cores clusters locks power tables dci faults _ _ _ _ _

theorem Reaches.execCsumm (t : ℕ) (gd : Reg) (ga : Reg) : Completes ps r (execCsumm t gd ga s) := by
  unfold Machine.execCsumm
  refine h.issueRegsLate out order basin egress thrs truns cores clusters locks mem power tables dci faults _ _ _ _
      fun x => ?_
  have hx := Reaches.refl ps x
  split
  · exact (hx.trap out order basin egress thrs truns cores clusters locks power tables dci faults _ _).maybe
  · split
    · exact (hx.trap out order basin egress thrs truns cores clusters locks power tables dci faults _ _).maybe
    · exact hx.startLong out order basin egress thrs truns cores clusters locks power tables dci faults _ _ _ _ _

theorem Reaches.execCrc (t : ℕ) (gd : Reg) (ga : Reg) (gb : Reg) (size : BitVec 2) (ieee : Bool) : Completes ps r
    (execCrc t gd ga gb size ieee s) := by
  unfold Machine.execCrc
  exact h.shortOp out order basin egress thrs truns cores clusters locks mem power tables dci faults _ _ _ _ _ _

theorem Reaches.execCsumadj (t : ℕ) (gd : Reg) (ga : Reg) (gb : Reg) : Completes ps r (execCsumadj t gd ga gb s) := by
  unfold Machine.execCsumadj
  exact h.shortOp out order basin egress thrs truns cores clusters locks mem power tables dci faults _ _ _ _ _ _

theorem Reaches.execCsum (t : ℕ) (gd : Reg) (ga : Reg) (gb : Reg) : Completes ps r (execCsum t gd ga gb s) := by
  unfold Machine.execCsum
  exact h.shortOp out order basin egress thrs truns cores clusters locks mem power tables dci faults _ _ _ _ _ _

theorem Reaches.execBreakI (t : ℕ) (code : BitVec 15) : Completes ps r (execBreakI t code s) := by
  unfold Machine.execBreakI
  exact h.issue out order basin egress thrs truns cores clusters locks mem power tables dci faults _ _
      (fun x => (((Reaches.refl ps x)).trap out order basin egress thrs truns cores clusters locks power tables dci
      faults _ _).maybe)

theorem Reaches.execTret (t : ℕ) : Completes ps r (execTret t s) := by
  unfold Machine.execTret
  exact h.issue out order basin egress thrs truns cores clusters locks mem power tables dci faults _ _
      (fun x => Maybe.ite ((((Reaches.refl ps x)).trap out order basin egress thrs truns cores clusters locks power
      tables dci faults _ _).maybe) ((Reaches.ite ((((Reaches.refl ps x)).updThr thrs _ _).updTr truns _ _)
      (((Reaches.refl ps x)).updThr thrs _ _)).maybe))

theorem Reaches.execMts (t : ℕ) (gd : Reg) (n : BitVec 8) : Completes ps r (execMts t gd n s) := by
  unfold Machine.execMts
  exact h.issueRegs out order basin egress thrs truns cores clusters locks mem power tables dci faults _ _ _
      (fun x => Maybe.ite ((((Reaches.refl ps x)).trap out order basin egress thrs truns cores clusters locks power
      tables dci faults _ _).maybe) (Maybe.ite ((((Reaches.refl ps x)).trap out order basin egress thrs truns cores
      clusters locks power tables dci faults _ _).maybe) (Maybe.ite
      ((((Reaches.refl ps x)).unresolved out order basin egress thrs truns cores clusters locks power
      tables _ _).maybe) (((((Reaches.refl ps x)).updThr thrs _ _).advance thrs _).maybe))))

theorem Reaches.execMfs (t : ℕ) (gd : Reg) (n : BitVec 8) : Completes ps r (execMfs t gd n s) := by
  unfold Machine.execMfs
  exact h.issueRegs out order basin egress thrs truns cores clusters locks mem power tables dci faults _ _ _
      (fun x => Maybe.ite ((((Reaches.refl ps x)).trap out order basin egress thrs truns cores clusters locks power
      tables dci faults _ _).maybe) (Maybe.ite ((((Reaches.refl ps x)).trap out order basin egress thrs truns cores
      clusters locks power tables dci faults _ _).maybe) ((((Reaches.refl ps x)).result thrs _ _ _).maybe)))

theorem Reaches.execChpoll (t : Nat) (gd ga : Reg) : Completes ps r (execChpoll t gd ga s) := by
  refine h.issueRegs out order basin egress thrs truns cores clusters locks mem power tables dci faults _ _ _
      fun x => ?_
  have hx := Reaches.refl ps x
  split
  · exact (hx.trap out order basin egress thrs truns cores clusters locks power tables dci faults _ _).maybe
  · exact (hx.result thrs _ _ _).maybe

theorem Reaches.execChget (t : ℕ) (gd : Reg) (ga : Reg) : Completes ps r (execChget t gd ga s) := by
  unfold Machine.execChget
  refine h.issueRegs out order basin egress thrs truns cores clusters locks mem power tables dci faults _ _ _
      fun x => ?_
  have hx := Reaches.refl ps x
  split
  · exact (hx.trap out order basin egress thrs truns cores clusters locks power tables dci faults _ _).maybe
  · dsimp only
    split
    · exact Maybe.ite (((hx.readMsg clusters _ _ _).result thrs _ _ _).maybe)
          ((((hx.wasBusy clusters _).setChan clusters _ _ _).updTr truns _ _).maybe)
    · exact (((hx.wasBusy clusters _).setChan clusters _ _ _).updTr truns _ _).maybe

theorem Reaches.execChend (t : ℕ) (gd : Reg) (ga : Reg) : Completes ps r (execChend t gd ga s) := by
  unfold Machine.execChend
  refine h.issueRegs out order basin egress thrs truns cores clusters locks mem power tables dci faults _ _ _
      fun x => ?_
  have hx := Reaches.refl ps x
  split
  · exact (hx.trap out order basin egress thrs truns cores clusters locks power tables dci faults _ _).maybe
  · split
    · exact Maybe.ite ((hx.result thrs _ _ _).maybe) (Maybe.ite Maybe.none
          ((((hx.setChan clusters _ _ _).updTr truns _ _).result thrs _ _ _).maybe))
    · exact (hx.result thrs _ _ _).maybe

theorem Reaches.execChput (t : ℕ) (gd : Reg) (ga : Reg) (gb : Reg) : Completes ps r (execChput t gd ga gb s) := by
  unfold Machine.execChput
  refine h.issueRegs out order basin egress thrs truns cores clusters locks mem power tables dci faults _ _ _
      fun x => ?_
  have hx := Reaches.refl ps x
  split
  · exact (hx.trap out order basin egress thrs truns cores clusters locks power tables dci faults _ _).maybe
  · dsimp only
    split
    · exact Maybe.ite ((hx.result thrs _ _ _).maybe) (Maybe.ite ((hx.result thrs _ _ _).maybe)
          (((hx.updTr truns _ _).result thrs _ _ _).maybe))
    · exact Maybe.ite (((hx.stage truns clusters _ _ _).result thrs _ _ _).maybe)
          ((((hx.wasBusy clusters _).setChan clusters _ _ _).updTr truns _ _).maybe)

theorem Reaches.execEndI (t : ℕ) : Completes ps r (execEndI t s) := by
  unfold Machine.execEndI
  refine h.issueRegs out order basin egress thrs truns cores clusters locks mem power tables dci faults _ _ _
      fun x => ?_
  have hx := Reaches.refl ps x
  split
  · exact (hx.trap out order basin egress thrs truns cores clusters locks power tables dci faults _ _).maybe
  · exact Maybe.ite Maybe.none (((((hx.updTr truns _ _).quiet truns cores clusters locks _).abandonAll thrs truns
        locks _).updTr truns _ _).maybe)

theorem Reaches.execPark (t : ℕ) (gd : Reg) (ga : Reg) (gb : Reg) : Completes ps r (execPark t gd ga gb s) := by
  unfold Machine.execPark
  exact h.issueRegs out order basin egress thrs truns cores clusters locks mem power tables dci faults _ _ _
      (fun x => Maybe.ite ((((Reaches.refl ps x)).result thrs _ _ _).maybe)
      (((((Reaches.refl ps x)).wasBusy clusters _).updTr truns _ _).maybe))

theorem Reaches.execJoin (t : ℕ) (gd : Reg) (ga : Reg) : Completes ps r (execJoin t gd ga s) := by
  unfold Machine.execJoin
  refine h.issueRegs out order basin egress thrs truns cores clusters locks mem power tables dci faults _ _ _
      fun x => ?_
  have hx := Reaches.refl ps x
  split
  · exact (hx.trap out order basin egress thrs truns cores clusters locks power tables dci faults _ _).maybe
  · split
    · exact (hx.result thrs _ _ _).maybe
    · exact ((hx.wasBusy clusters _).updTr truns _ _).maybe

theorem Reaches.execFork (t : ℕ) (gd : Reg) (ga : Reg) (gb : Reg) : Completes ps r (execFork t gd ga gb s) := by
  unfold Machine.execFork
  refine h.issueRegs out order basin egress thrs truns cores clusters locks mem power tables dci faults _ _ _
      fun x => ?_
  have hx := Reaches.refl ps x
  dsimp only
  split
  · exact (hx.trap out order basin egress thrs truns cores clusters locks power tables dci faults _ _).maybe
  · split
    · exact (hx.result thrs _ _ _).maybe
    · split
      · exact (hx.result thrs _ _ _).maybe
      · exact Maybe.ite Maybe.none (((((hx.updThr thrs _ _).updTr truns _ _).updTr truns _ _).result
            thrs _ _ _).maybe)

theorem Reaches.execDelay (t : ℕ) (gd : Reg) (ga : Reg) (gb : Reg) : Completes ps r (execDelay t gd ga gb s) := by
  unfold Machine.execDelay
  exact h.issueRegs out order basin egress thrs truns cores clusters locks mem power tables dci faults _ _ _
      (fun x => Maybe.ite ((((Reaches.refl ps x)).result thrs _ _ _).maybe)
      (((((Reaches.refl ps x)).updTask clusters _ _).result thrs _ _ _).maybe))

theorem Reaches.execSetev (t : ℕ) (ga : Reg) (gb : Reg) : Completes ps r (execSetev t ga gb s) := by
  unfold Machine.execSetev
  exact h.issueRegs out order basin egress thrs truns cores clusters locks mem power tables dci faults _ _ _
      (fun x => Maybe.ite ((((Reaches.refl ps x)).trap out order basin egress thrs truns cores clusters locks power
      tables dci faults _ _).maybe) (Maybe.ite Maybe.none (((((Reaches.refl ps x)).setFlags thrs _ _).advance
      thrs _).maybe)))

theorem Reaches.execWaitev (t : ℕ) (gd : Reg) (ga : Reg) (gb : Reg) : Completes ps r (execWaitev t gd ga gb s) := by
  unfold Machine.execWaitev
  exact h.issueRegs out order basin egress thrs truns cores clusters locks mem power tables dci faults _ _ _
      (fun x => Maybe.ite (((((Reaches.refl ps x)).clearFlags thrs _ _).result thrs _ _ _).maybe)
      (((((Reaches.refl ps x)).wasBusy clusters _).updTr truns _ _).maybe))

theorem Reaches.execRetire (t : ℕ) (reason : BitVec 2) : Completes ps r (execRetire t reason s) := by
  unfold Machine.execRetire
  exact h.issue out order basin egress thrs truns cores clusters locks mem power tables dci faults _ _
      (fun x => Maybe.ite ((((Reaches.refl ps x)).trap out order basin egress thrs truns cores clusters locks power
      tables dci faults _ _).maybe) (Maybe.ite ((((Reaches.refl ps x)).trap out order basin egress thrs truns cores
      clusters locks power tables dci faults _ _).maybe) (Maybe.ite Maybe.none
      (Maybe.ite ((((((((Reaches.refl ps x)).traceRec clusters _ _ _ _).freeProv out basin egress _ _).dropVers
      tables _).endRefused order _).retireDone order thrs truns cores clusters locks power _).maybe)
      (Maybe.ite ((((((Reaches.refl ps x)).traceRec clusters _ _ _ _).storePut order _ _ _ _ _).retireDone order thrs
      truns cores clusters locks power _).maybe) ((((((Reaches.refl ps x)).traceRec clusters _ _ _ _).storePut
      order _ _ _ _ _).updTr truns _ _).maybe))))))

theorem Reaches.execOrderExit (t : ℕ) (n : BitVec 2) : Completes ps r (execOrderExit t n s) := by
  unfold Machine.execOrderExit
  exact h.issue out order basin egress thrs truns cores clusters locks mem power tables dci faults _ _
      (fun x => Maybe.ite ((((Reaches.refl ps x)).trap out order basin egress thrs truns cores clusters locks power
      tables dci faults _ _).maybe) (Maybe.ite ((((Reaches.refl ps x)).trap out order basin egress thrs truns cores
      clusters locks power tables dci faults _ _).maybe) (((((Reaches.refl ps x)).updRun truns _ _).advance
      thrs _).maybe)))

theorem Reaches.execOrderEnter (t : ℕ) (n : BitVec 2) : Completes ps r (execOrderEnter t n s) := by
  unfold Machine.execOrderEnter
  exact h.issue out order basin egress thrs truns cores clusters locks mem power tables dci faults _ _
      (fun x => Maybe.ite ((((Reaches.refl ps x)).trap out order basin egress thrs truns cores clusters locks power
      tables dci faults _ _).maybe) (Maybe.ite ((((Reaches.refl ps x)).trap out order basin egress thrs truns cores
      clusters locks power tables dci faults _ _).maybe) (Maybe.ite
      (((((Reaches.refl ps x)).enterSection truns _ _).advance thrs _).maybe)
      ((((Reaches.refl ps x)).updTr truns _ _).maybe))))

theorem Reaches.journalFrom (t : Nat) (rs : List Reg) (ok : State → Bool) (full : State → Option Nat)
    (src : State → Nat × Nat) (body : State → State) (k : ∀ x, Reaches ps x (body x)) :
    Completes ps r (journalFrom t rs ok full src body s) := by
  refine h.issueRegs out order basin egress thrs truns cores clusters locks mem power tables dci faults t _ _
      fun x => ?_
  have trapped (y : Trap) : Maybe ps x (some (x.trap t y)) := ((Reaches.refl ps x).trap out order basin egress thrs
      truns cores clusters locks power tables dci faults _ _).maybe
  refine .ite (trapped _) (.ite (trapped _) (.ite .none ?_))
  split
  · exact trapped _
  · exact .ite (trapped _) (k x).maybe

theorem Reaches.journalOp (t : Nat) (rs : List Reg) (ok : State → Bool) (full : State → Option Nat)
    (body : State → State) (k : ∀ x, Reaches ps x (body x)) : Completes ps r (journalOp t rs ok full body s) :=
  h.journalFrom out order basin egress thrs truns cores clusters locks mem power tables dci faults t _ _ _ _ _ k

theorem Reaches.execJfree (t : ℕ) (gd : Reg) (ga : Reg) : Completes ps r (execJfree t gd ga s) := by
  unfold Machine.execJfree
  exact h.journalOp out order basin egress thrs truns cores clusters locks mem power tables dci faults _ _ _ _ _
      (fun x => ((Reaches.refl ps x)).append thrs truns _ _ _ _ _)

theorem Reaches.execJctx (t : ℕ) (gd : Reg) (ga : Reg) (gb : Reg) : Completes ps r (execJctx t gd ga gb s) := by
  unfold Machine.execJctx
  exact h.journalFrom out order basin egress thrs truns cores clusters locks mem power tables dci faults _ _ _ _ _ _
      (fun x => (((Reaches.refl ps x)).ctxEntry thrs truns _ _ _ _).writeVer out order basin egress thrs truns cores
      clusters locks power tables _ _ _ _)

theorem Reaches.execJtbl (t : ℕ) (gd : Reg) (ga : Reg) (gb : Reg) : Completes ps r (execJtbl t gd ga gb s) := by
  unfold Machine.execJtbl
  exact h.journalFrom out order basin egress thrs truns cores clusters locks mem power tables dci faults _ _ _ _ _ _
      (fun x => ((Reaches.refl ps x)).append thrs truns _ _ _ _ _)

theorem Reaches.execJledg (t : ℕ) (gd : Reg) (ga : Reg) (gb : Reg) : Completes ps r (execJledg t gd ga gb s) := by
  unfold Machine.execJledg
  exact h.journalOp out order basin egress thrs truns cores clusters locks mem power tables dci faults _ _ _ _ _
      (fun x => ((Reaches.refl ps x)).mergeOrAppend thrs truns _ _ _)

theorem Reaches.execJcnt (t : ℕ) (gd : Reg) (ga : Reg) (gb : Reg) : Completes ps r (execJcnt t gd ga gb s) := by
  unfold Machine.execJcnt
  exact h.journalOp out order basin egress thrs truns cores clusters locks mem power tables dci faults _ _ _ _ _
      (fun x => ((Reaches.refl ps x)).mergeOrAppend thrs truns _ _ _)

theorem Reaches.execJdeliv (t : ℕ) (gd : Reg) (ga : Reg) (gb : Reg) : Completes ps r (execJdeliv t gd ga gb s) := by
  unfold Machine.execJdeliv
  exact h.journalOp out order basin egress thrs truns cores clusters locks mem power tables dci faults _ _ _ _ _
      (fun x => ((Reaches.refl ps x)).append thrs truns _ _ _ _ _)

theorem Reaches.execJemit (t : ℕ) (gd : Reg) (ga : Reg) (gb : Reg) : Completes ps r (execJemit t gd ga gb s) := by
  unfold Machine.execJemit
  exact h.journalFrom out order basin egress thrs truns cores clusters locks mem power tables dci faults _ _ _ _ _ _
      (fun x => ((Reaches.refl ps x)).append thrs truns _ _ _ _ _)

theorem Reaches.execWeir (t : ℕ) (gd : Reg) (ga : Reg) (gb : Reg) : Completes ps r (execWeir t gd ga gb s) := by
  unfold Machine.execWeir
  exact h.issueRegs out order basin egress thrs truns cores clusters locks mem power tables dci faults _ _ _
      (fun x => Maybe.ite ((((Reaches.refl ps x)).trap out order basin egress thrs truns cores clusters locks power
      tables dci faults _ _).maybe) (Maybe.ite ((((Reaches.refl ps x)).trap out order basin egress thrs truns cores
      clusters locks power tables dci faults _ _).maybe) (((((Reaches.refl ps x)).weirCharge out order tables dci
      faults _ _ _ _ _).result thrs _ _ _).maybe)))

theorem Reaches.execLkp (t : ℕ) (gd : Reg) (ga : Reg) (gb : Reg) : Completes ps r (execLkp t gd ga gb s) := by
  unfold Machine.execLkp
  refine h.issueRegsLate out order basin egress thrs truns cores clusters locks mem power tables dci faults _ _ _ _
      fun x => ?_
  have hx := Reaches.refl ps x
  dsimp only
  split
  · exact (hx.trap out order basin egress thrs truns cores clusters locks power tables dci faults _ _).maybe
  · split
    · exact Maybe.none
    · split
      · exact Maybe.none
      · exact (hx.trap out order basin egress thrs truns cores clusters locks power tables dci faults _ _).maybe
      · exact ((hx.updTr truns _ _).advance thrs _).maybe

theorem Reaches.stringOp (t : Nat) (rs : List Reg) (size : BitVec 2) (u : StrUse) (down : State → Bool)
    (zero : State → State) (late : Nat → State → Option (Nat × Nat)) (body : Nat → State → GrR)
    (z : ∀ x, Reaches ps x (zero x)) (k : ∀ n x, (body n x).reaches ps x) :
    Completes ps r (stringOp t rs size u down zero late body s) := by
  refine h.issueRegsLate out order basin egress thrs truns cores clusters locks mem power tables dci faults t _ _ _
      fun x => ?_
  dsimp only
  split
  · exact ((Reaches.refl ps x).trap out order basin egress thrs truns cores clusters locks power tables dci
        faults _ _).maybe
  · generalize hy : (if (x.tr t).str.isNone then zero x else x).updTr t _ = y
    have ready : Reaches ps x y := hy ▸ (Reaches.ite (z x) (.refl ps x)).updTr truns _ _
    have granule := k (2 ^ size.toNat) y
    split
    · exact ((ready.strNext truns _ _).advance thrs _).maybe
    · split <;> rename_i eq <;> rw [eq] at granule
      · exact .ite (((ready.trans granule).strNext truns _ _).advance thrs _).maybe
          ((ready.trans granule).strNext truns _ _).maybe
      · exact (((ready.trans granule).strNext truns _ _).advance thrs _).maybe
      · exact (((ready.trans granule).strNext truns _ _).trap out order basin egress thrs truns cores clusters locks
            power tables dci faults _ _).maybe
      · exact .none
      · exact ((ready.trans granule).updTr truns _ _).maybe
      · exact (((ready.trans granule).lockJoin locks _ _ _ _).updTr truns _ _).maybe

theorem Reaches.execRep (t : ℕ) (w : W32) (nxt : W32) : Completes ps r (execRep t w nxt s) := by
  unfold Machine.execRep
  refine h.issue out order basin egress thrs truns cores clusters locks mem power tables dci faults _ _ fun x => ?_
  have hx := Reaches.refl ps x
  split
  · exact Maybe.ite ((hx.trap out order basin egress thrs truns cores clusters locks power tables dci
        faults _ _).maybe) (Maybe.ite Maybe.none (Maybe.ite (((hx.elements thrs _ _ _).updThr thrs _ _).maybe)
        (Maybe.ite ((hx.updThr thrs _ _).maybe) (Maybe.ite ((Reaches.ite
        (((hx.elements thrs _ _ _).setReg thrs _ _ _).updThr thrs _ _)
        ((hx.elements thrs _ _ _).setReg thrs _ _ _)).maybe) ((((hx.elements thrs _ _ _).setReg thrs _ _ _).updThr
        thrs _ _).maybe)))))
  · exact (hx.trap out order basin egress thrs truns cores clusters locks power tables dci faults _ _).maybe

theorem Reaches.execCpref (t : ℕ) (_all : Bool) (ga : Reg) (imm : BitVec 16) : Completes ps r
    (execCpref t _all ga imm s) := by
  unfold Machine.execCpref
  exact h.issueRegs out order basin egress thrs truns cores clusters locks mem power tables dci faults _ _ _
      (fun x => ((Reaches.ite (((Reaches.refl ps x)).prefetch cores clusters _ _ _)
      (((Reaches.refl ps x)).updCore cores _ _)).advance thrs _).maybe)

theorem Reaches.execMaint (t op : Nat) (all : Bool) (ga : Reg) (imm : BitVec 16) :
    Completes ps r (execMaint t op all ga imm s) := by
  refine h.issueRegs out order basin egress thrs truns cores clusters locks mem power tables dci faults _ _ _
      fun x => ?_
  have hx := Reaches.refl ps x
  have trapped (y : Trap) : Maybe ps x (some (x.trap t y)) := (hx.trap out order basin egress thrs truns cores
      clusters locks power tables dci faults _ _).maybe
  have advanced : Maybe ps x (some (x.advance t)) := (hx.advance thrs _).maybe
  dsimp only
  split
  · exact trapped _
  · exact .ite (trapped _) advanced
  · split
    · exact trapped _
    · refine .ite .none (.ite (fun u e => ?_) ((((hx.maintOp cores clusters mem _ _ _ _).post truns cores _).advance
          thrs _).maybe))
      obtain ⟨y, eq, rfl⟩ := Option.map_eq_some_iff.1 e
      exact ((hx.zeroLine cores _ _ _ eq).post truns cores _).advance thrs _
  · exact advanced

theorem Reaches.execCflush (t : ℕ) (all : Bool) (ga : Reg) (imm : BitVec 16) : Completes ps r
    (execCflush t all ga imm s) := by
  unfold Machine.execCflush
  exact h.execMaint out order basin egress thrs truns cores clusters locks mem power tables dci faults _ _ _ _ _

theorem Reaches.execCinval (t : ℕ) (all : Bool) (ga : Reg) (imm : BitVec 16) : Completes ps r
    (execCinval t all ga imm s) := by
  unfold Machine.execCinval
  exact h.execMaint out order basin egress thrs truns cores clusters locks mem power tables dci faults _ _ _ _ _

theorem Reaches.execCclean (t : ℕ) (all : Bool) (ga : Reg) (imm : BitVec 16) : Completes ps r
    (execCclean t all ga imm s) := by
  unfold Machine.execCclean
  exact h.execMaint out order basin egress thrs truns cores clusters locks mem power tables dci faults _ _ _ _ _

theorem Reaches.execCzero (t : ℕ) (all : Bool) (ga : Reg) (imm : BitVec 16) : Completes ps r
    (execCzero t all ga imm s) := by
  unfold Machine.execCzero
  exact h.execMaint out order basin egress thrs truns cores clusters locks mem power tables dci faults _ _ _ _ _

theorem Reaches.execJlk (t : ℕ) : Completes ps r (execJlk t s) := by
  unfold Machine.execJlk
  exact h.issue out order basin egress thrs truns cores clusters locks mem power tables dci faults _ _
      (fun x => (((Reaches.refl ps x)).jump out order basin egress thrs truns cores clusters locks power tables dci
      faults _ _ _).maybe)

theorem Reaches.execRetI (t : ℕ) : Completes ps r (execRetI t s) := by
  unfold Machine.execRetI
  exact h.issue out order basin egress thrs truns cores clusters locks mem power tables dci faults _ _
      (fun x => (((Reaches.refl ps x)).jump out order basin egress thrs truns cores clusters locks power tables dci
      faults _ _ _).maybe)

theorem Reaches.execJrl (t : ℕ) (ga : Reg) : Completes ps r (execJrl t ga s) := by
  unfold Machine.execJrl
  exact h.issueRegs out order basin egress thrs truns cores clusters locks mem power tables dci faults _ _ _
      (fun x => (((Reaches.refl ps x)).jump out order basin egress thrs truns cores clusters locks power tables dci
      faults _ _ _).maybe)

theorem Reaches.execJr (t : ℕ) (ga : Reg) : Completes ps r (execJr t ga s) := by
  unfold Machine.execJr
  exact h.issueRegs out order basin egress thrs truns cores clusters locks mem power tables dci faults _ _ _
      (fun x => (((Reaches.refl ps x)).jump out order basin egress thrs truns cores clusters locks power tables dci
      faults _ _ _).maybe)

theorem Reaches.execCall (t : ℕ) (off : BitVec 26) : Completes ps r (execCall t off s) := by
  unfold Machine.execCall
  exact h.issue out order basin egress thrs truns cores clusters locks mem power tables dci faults _ _
      (fun x => ((((Reaches.refl ps x)).updThr thrs _ _).goto thrs clusters _ _).maybe)

theorem Reaches.execBr (t : ℕ) (off : BitVec 26) : Completes ps r (execBr t off s) := by
  unfold Machine.execBr
  exact h.issue out order basin egress thrs truns cores clusters locks mem power tables dci faults _ _
      (fun x => (((Reaches.refl ps x)).goto thrs clusters _ _).maybe)

theorem Reaches.execBnz (t : ℕ) (ga : Reg) (off : BitVec 21) : Completes ps r (execBnz t ga off s) := by
  unfold Machine.execBnz
  exact h.issueRegs out order basin egress thrs truns cores clusters locks mem power tables dci faults _ _ _
      (fun x => (((Reaches.refl ps x)).branchIf thrs clusters _ _ _).maybe)

theorem Reaches.execBz (t : ℕ) (ga : Reg) (off : BitVec 21) : Completes ps r (execBz t ga off s) := by
  unfold Machine.execBz
  exact h.issueRegs out order basin egress thrs truns cores clusters locks mem power tables dci faults _ _ _
      (fun x => (((Reaches.refl ps x)).branchIf thrs clusters _ _ _).maybe)

theorem Reaches.execAlu (t : ℕ) (f : Alu) (gd : Reg) (ga : Reg) (b : Src) : Completes ps r (execAlu t f gd ga b s)
    := by
  unfold Machine.execAlu
  exact h.issueRegs out order basin egress thrs truns cores clusters locks mem power tables dci faults _ _ _
      (fun x => (((Reaches.refl ps x)).result thrs _ _ _).maybe)

theorem Reaches.execField (t : ℕ) (major : ℕ) (f : ℕ → ℕ → Alu) (gd : Reg) (ga : Reg) (pos : BitVec 6)
    (lenm1 : BitVec 6) (signed : Bool) : Completes ps r (execField t major f gd ga pos lenm1 signed s) := by
  unfold Machine.execField
  exact Completes.ite (h.issue out order basin egress thrs truns cores clusters locks mem power tables dci faults _ _
      (fun x => ((Reaches.refl ps x)).trapAt out order basin egress thrs truns cores clusters locks power tables dci
      faults _ _)) (h.execAlu out order basin egress thrs truns cores clusters locks mem power tables dci
      faults _ _ _ _ _)

theorem Reaches.execInsF (t : ℕ) (gd : Reg) (ga : Reg) (pos : BitVec 6) (lenm1 : BitVec 6) : Completes ps r
    (execInsF t gd ga pos lenm1 s) := by
  unfold Machine.execInsF
  exact h.execField out order basin egress thrs truns cores clusters locks mem power tables dci faults _ _ _ _ _ _ _ _

theorem Reaches.execExts (t : ℕ) (gd : Reg) (ga : Reg) (pos : BitVec 6) (lenm1 : BitVec 6) : Completes ps r
    (execExts t gd ga pos lenm1 s) := by
  unfold Machine.execExts
  exact h.execField out order basin egress thrs truns cores clusters locks mem power tables dci faults _ _ _ _ _ _ _ _

theorem Reaches.execExtu (t : ℕ) (gd : Reg) (ga : Reg) (pos : BitVec 6) (lenm1 : BitVec 6) : Completes ps r
    (execExtu t gd ga pos lenm1 s) := by
  unfold Machine.execExtu
  exact h.execField out order basin egress thrs truns cores clusters locks mem power tables dci faults _ _ _ _ _ _ _ _

theorem Reaches.execCbci (t : ℕ) (gd : Reg) (ga : Reg) (amt : BitVec 6) : Completes ps r (execCbci t gd ga amt s)
    := by
  unfold Machine.execCbci
  exact h.execAlu out order basin egress thrs truns cores clusters locks mem power tables dci faults _ _ _ _ _

theorem Reaches.execCbsi (t : ℕ) (gd : Reg) (ga : Reg) (amt : BitVec 6) : Completes ps r (execCbsi t gd ga amt s)
    := by
  unfold Machine.execCbsi
  exact h.execAlu out order basin egress thrs truns cores clusters locks mem power tables dci faults _ _ _ _ _

theorem Reaches.execCltui (t : ℕ) (gd : Reg) (ga : Reg) (imm : BitVec 16) : Completes ps r (execCltui t gd ga imm s)
    := by
  unfold Machine.execCltui
  exact h.execAlu out order basin egress thrs truns cores clusters locks mem power tables dci faults _ _ _ _ _

theorem Reaches.execClti (t : ℕ) (gd : Reg) (ga : Reg) (imm : BitVec 16) : Completes ps r (execClti t gd ga imm s)
    := by
  unfold Machine.execClti
  exact h.execAlu out order basin egress thrs truns cores clusters locks mem power tables dci faults _ _ _ _ _

theorem Reaches.execCnei (t : ℕ) (gd : Reg) (ga : Reg) (imm : BitVec 16) : Completes ps r (execCnei t gd ga imm s)
    := by
  unfold Machine.execCnei
  exact h.execAlu out order basin egress thrs truns cores clusters locks mem power tables dci faults _ _ _ _ _

theorem Reaches.execCeqi (t : ℕ) (gd : Reg) (ga : Reg) (imm : BitVec 16) : Completes ps r (execCeqi t gd ga imm s)
    := by
  unfold Machine.execCeqi
  exact h.execAlu out order basin egress thrs truns cores clusters locks mem power tables dci faults _ _ _ _ _

theorem Reaches.execRori (t : ℕ) (gd : Reg) (ga : Reg) (amt : BitVec 6) : Completes ps r (execRori t gd ga amt s)
    := by
  unfold Machine.execRori
  exact h.execAlu out order basin egress thrs truns cores clusters locks mem power tables dci faults _ _ _ _ _

theorem Reaches.execSrai (t : ℕ) (gd : Reg) (ga : Reg) (amt : BitVec 6) : Completes ps r (execSrai t gd ga amt s)
    := by
  unfold Machine.execSrai
  exact h.execAlu out order basin egress thrs truns cores clusters locks mem power tables dci faults _ _ _ _ _

theorem Reaches.execSrli (t : ℕ) (gd : Reg) (ga : Reg) (amt : BitVec 6) : Completes ps r (execSrli t gd ga amt s)
    := by
  unfold Machine.execSrli
  exact h.execAlu out order basin egress thrs truns cores clusters locks mem power tables dci faults _ _ _ _ _

theorem Reaches.execSlli (t : ℕ) (gd : Reg) (ga : Reg) (amt : BitVec 6) : Completes ps r (execSlli t gd ga amt s)
    := by
  unfold Machine.execSlli
  exact h.execAlu out order basin egress thrs truns cores clusters locks mem power tables dci faults _ _ _ _ _

theorem Reaches.execShlori (t : ℕ) (gd : Reg) (ga : Reg) (imm : BitVec 16) : Completes ps r (execShlori t gd ga imm s)
    := by
  unfold Machine.execShlori
  exact h.execAlu out order basin egress thrs truns cores clusters locks mem power tables dci faults _ _ _ _ _

theorem Reaches.execXori (t : ℕ) (gd : Reg) (ga : Reg) (imm : BitVec 16) : Completes ps r (execXori t gd ga imm s)
    := by
  unfold Machine.execXori
  exact h.execAlu out order basin egress thrs truns cores clusters locks mem power tables dci faults _ _ _ _ _

theorem Reaches.execOri (t : ℕ) (gd : Reg) (ga : Reg) (imm : BitVec 16) : Completes ps r (execOri t gd ga imm s) := by
  unfold Machine.execOri
  exact h.execAlu out order basin egress thrs truns cores clusters locks mem power tables dci faults _ _ _ _ _

theorem Reaches.execAndi (t : ℕ) (gd : Reg) (ga : Reg) (imm : BitVec 16) : Completes ps r (execAndi t gd ga imm s)
    := by
  unfold Machine.execAndi
  exact h.execAlu out order basin egress thrs truns cores clusters locks mem power tables dci faults _ _ _ _ _

theorem Reaches.execAddi (t : ℕ) (gd : Reg) (ga : Reg) (imm : BitVec 16) : Completes ps r (execAddi t gd ga imm s)
    := by
  unfold Machine.execAddi
  exact h.execAlu out order basin egress thrs truns cores clusters locks mem power tables dci faults _ _ _ _ _

theorem Reaches.execWrlk (t : ℕ) (ga : Reg) : Completes ps r (execWrlk t ga s) := by
  unfold Machine.execWrlk
  exact h.issueRegs out order basin egress thrs truns cores clusters locks mem power tables dci faults _ _ _
      (fun x => ((((Reaches.refl ps x)).updThr thrs _ _).advance thrs _).maybe)

theorem Reaches.execRdlk (t : ℕ) (gd : Reg) : Completes ps r (execRdlk t gd s) := by
  unfold Machine.execRdlk
  exact h.issueRegs out order basin egress thrs truns cores clusters locks mem power tables dci faults _ _ _
      (fun x => (((Reaches.refl ps x)).result thrs _ _ _).maybe)

theorem Reaches.execCtz (t : ℕ) (gd : Reg) (ga : Reg) : Completes ps r (execCtz t gd ga s) := by
  unfold Machine.execCtz
  exact h.execAlu out order basin egress thrs truns cores clusters locks mem power tables dci faults _ _ _ _ _

theorem Reaches.execClz (t : ℕ) (gd : Reg) (ga : Reg) : Completes ps r (execClz t gd ga s) := by
  unfold Machine.execClz
  exact h.execAlu out order basin egress thrs truns cores clusters locks mem power tables dci faults _ _ _ _ _

theorem Reaches.execPopc (t : ℕ) (gd : Reg) (ga : Reg) : Completes ps r (execPopc t gd ga s) := by
  unfold Machine.execPopc
  exact h.execAlu out order basin egress thrs truns cores clusters locks mem power tables dci faults _ _ _ _ _

theorem Reaches.execBswap64 (t : ℕ) (gd : Reg) (ga : Reg) : Completes ps r (execBswap64 t gd ga s) := by
  unfold Machine.execBswap64
  exact h.execAlu out order basin egress thrs truns cores clusters locks mem power tables dci faults _ _ _ _ _

theorem Reaches.execBswap32 (t : ℕ) (gd : Reg) (ga : Reg) : Completes ps r (execBswap32 t gd ga s) := by
  unfold Machine.execBswap32
  exact h.execAlu out order basin egress thrs truns cores clusters locks mem power tables dci faults _ _ _ _ _

theorem Reaches.execBswap16 (t : ℕ) (gd : Reg) (ga : Reg) : Completes ps r (execBswap16 t gd ga s) := by
  unfold Machine.execBswap16
  exact h.execAlu out order basin egress thrs truns cores clusters locks mem power tables dci faults _ _ _ _ _

theorem Reaches.execMulhR (t : ℕ) (gd : Reg) (ga : Reg) (gb : Reg) : Completes ps r (execMulhR t gd ga gb s) := by
  unfold Machine.execMulhR
  exact h.execAlu out order basin egress thrs truns cores clusters locks mem power tables dci faults _ _ _ _ _

theorem Reaches.execMulhuR (t : ℕ) (gd : Reg) (ga : Reg) (gb : Reg) : Completes ps r (execMulhuR t gd ga gb s) := by
  unfold Machine.execMulhuR
  exact h.execAlu out order basin egress thrs truns cores clusters locks mem power tables dci faults _ _ _ _ _

theorem Reaches.execMulR (t : ℕ) (gd : Reg) (ga : Reg) (gb : Reg) : Completes ps r (execMulR t gd ga gb s) := by
  unfold Machine.execMulR
  exact h.execAlu out order basin egress thrs truns cores clusters locks mem power tables dci faults _ _ _ _ _

theorem Reaches.execMaxuR (t : ℕ) (gd : Reg) (ga : Reg) (gb : Reg) : Completes ps r (execMaxuR t gd ga gb s) := by
  unfold Machine.execMaxuR
  exact h.execAlu out order basin egress thrs truns cores clusters locks mem power tables dci faults _ _ _ _ _

theorem Reaches.execMinuR (t : ℕ) (gd : Reg) (ga : Reg) (gb : Reg) : Completes ps r (execMinuR t gd ga gb s) := by
  unfold Machine.execMinuR
  exact h.execAlu out order basin egress thrs truns cores clusters locks mem power tables dci faults _ _ _ _ _

theorem Reaches.execMaxR (t : ℕ) (gd : Reg) (ga : Reg) (gb : Reg) : Completes ps r (execMaxR t gd ga gb s) := by
  unfold Machine.execMaxR
  exact h.execAlu out order basin egress thrs truns cores clusters locks mem power tables dci faults _ _ _ _ _

theorem Reaches.execMinR (t : ℕ) (gd : Reg) (ga : Reg) (gb : Reg) : Completes ps r (execMinR t gd ga gb s) := by
  unfold Machine.execMinR
  exact h.execAlu out order basin egress thrs truns cores clusters locks mem power tables dci faults _ _ _ _ _

theorem Reaches.execCbcR (t : ℕ) (gd : Reg) (ga : Reg) (gb : Reg) : Completes ps r (execCbcR t gd ga gb s) := by
  unfold Machine.execCbcR
  exact h.execAlu out order basin egress thrs truns cores clusters locks mem power tables dci faults _ _ _ _ _

theorem Reaches.execCbsR (t : ℕ) (gd : Reg) (ga : Reg) (gb : Reg) : Completes ps r (execCbsR t gd ga gb s) := by
  unfold Machine.execCbsR
  exact h.execAlu out order basin egress thrs truns cores clusters locks mem power tables dci faults _ _ _ _ _

theorem Reaches.execCleuR (t : ℕ) (gd : Reg) (ga : Reg) (gb : Reg) : Completes ps r (execCleuR t gd ga gb s) := by
  unfold Machine.execCleuR
  exact h.execAlu out order basin egress thrs truns cores clusters locks mem power tables dci faults _ _ _ _ _

theorem Reaches.execCleR (t : ℕ) (gd : Reg) (ga : Reg) (gb : Reg) : Completes ps r (execCleR t gd ga gb s) := by
  unfold Machine.execCleR
  exact h.execAlu out order basin egress thrs truns cores clusters locks mem power tables dci faults _ _ _ _ _

theorem Reaches.execCltuR (t : ℕ) (gd : Reg) (ga : Reg) (gb : Reg) : Completes ps r (execCltuR t gd ga gb s) := by
  unfold Machine.execCltuR
  exact h.execAlu out order basin egress thrs truns cores clusters locks mem power tables dci faults _ _ _ _ _

theorem Reaches.execCltR (t : ℕ) (gd : Reg) (ga : Reg) (gb : Reg) : Completes ps r (execCltR t gd ga gb s) := by
  unfold Machine.execCltR
  exact h.execAlu out order basin egress thrs truns cores clusters locks mem power tables dci faults _ _ _ _ _

theorem Reaches.execCneR (t : ℕ) (gd : Reg) (ga : Reg) (gb : Reg) : Completes ps r (execCneR t gd ga gb s) := by
  unfold Machine.execCneR
  exact h.execAlu out order basin egress thrs truns cores clusters locks mem power tables dci faults _ _ _ _ _

theorem Reaches.execCeqR (t : ℕ) (gd : Reg) (ga : Reg) (gb : Reg) : Completes ps r (execCeqR t gd ga gb s) := by
  unfold Machine.execCeqR
  exact h.execAlu out order basin egress thrs truns cores clusters locks mem power tables dci faults _ _ _ _ _

theorem Reaches.execRorR (t : ℕ) (gd : Reg) (ga : Reg) (gb : Reg) : Completes ps r (execRorR t gd ga gb s) := by
  unfold Machine.execRorR
  exact h.execAlu out order basin egress thrs truns cores clusters locks mem power tables dci faults _ _ _ _ _

theorem Reaches.execSraR (t : ℕ) (gd : Reg) (ga : Reg) (gb : Reg) : Completes ps r (execSraR t gd ga gb s) := by
  unfold Machine.execSraR
  exact h.execAlu out order basin egress thrs truns cores clusters locks mem power tables dci faults _ _ _ _ _

theorem Reaches.execSrlR (t : ℕ) (gd : Reg) (ga : Reg) (gb : Reg) : Completes ps r (execSrlR t gd ga gb s) := by
  unfold Machine.execSrlR
  exact h.execAlu out order basin egress thrs truns cores clusters locks mem power tables dci faults _ _ _ _ _

theorem Reaches.execSllR (t : ℕ) (gd : Reg) (ga : Reg) (gb : Reg) : Completes ps r (execSllR t gd ga gb s) := by
  unfold Machine.execSllR
  exact h.execAlu out order basin egress thrs truns cores clusters locks mem power tables dci faults _ _ _ _ _

theorem Reaches.execSubwR (t : ℕ) (gd : Reg) (ga : Reg) (gb : Reg) : Completes ps r (execSubwR t gd ga gb s) := by
  unfold Machine.execSubwR
  exact h.execAlu out order basin egress thrs truns cores clusters locks mem power tables dci faults _ _ _ _ _

theorem Reaches.execAddwR (t : ℕ) (gd : Reg) (ga : Reg) (gb : Reg) : Completes ps r (execAddwR t gd ga gb s) := by
  unfold Machine.execAddwR
  exact h.execAlu out order basin egress thrs truns cores clusters locks mem power tables dci faults _ _ _ _ _

theorem Reaches.execAndnR (t : ℕ) (gd : Reg) (ga : Reg) (gb : Reg) : Completes ps r (execAndnR t gd ga gb s) := by
  unfold Machine.execAndnR
  exact h.execAlu out order basin egress thrs truns cores clusters locks mem power tables dci faults _ _ _ _ _

theorem Reaches.execXorR (t : ℕ) (gd : Reg) (ga : Reg) (gb : Reg) : Completes ps r (execXorR t gd ga gb s) := by
  unfold Machine.execXorR
  exact h.execAlu out order basin egress thrs truns cores clusters locks mem power tables dci faults _ _ _ _ _

theorem Reaches.execOrR (t : ℕ) (gd : Reg) (ga : Reg) (gb : Reg) : Completes ps r (execOrR t gd ga gb s) := by
  unfold Machine.execOrR
  exact h.execAlu out order basin egress thrs truns cores clusters locks mem power tables dci faults _ _ _ _ _

theorem Reaches.execAndR (t : ℕ) (gd : Reg) (ga : Reg) (gb : Reg) : Completes ps r (execAndR t gd ga gb s) := by
  unfold Machine.execAndR
  exact h.execAlu out order basin egress thrs truns cores clusters locks mem power tables dci faults _ _ _ _ _

theorem Reaches.execSubR (t : ℕ) (gd : Reg) (ga : Reg) (gb : Reg) : Completes ps r (execSubR t gd ga gb s) := by
  unfold Machine.execSubR
  exact h.execAlu out order basin egress thrs truns cores clusters locks mem power tables dci faults _ _ _ _ _

theorem Reaches.execAddR (t : ℕ) (gd : Reg) (ga : Reg) (gb : Reg) : Completes ps r (execAddR t gd ga gb s) := by
  unfold Machine.execAddR
  exact h.execAlu out order basin egress thrs truns cores clusters locks mem power tables dci faults _ _ _ _ _

theorem Reaches.lockStore (q : Requester) (act : State → State) (k : ∀ x, Reaches ps x (act x)) :
    Completes ps r (lockStore q act s) := by
  unfold Machine.lockStore
  split
  · exact h.issue out order basin egress thrs truns cores clusters locks mem power tables dci faults _ _ fun x => .ite
        ((k x).advance thrs _).maybe .none
  · exact (h.trans (k s)).completes

theorem Reaches.execLockClear (r' : Requester) (lock : ℕ) : Completes ps r (execLockClear r' lock s) := by
  unfold Machine.execLockClear
  exact h.lockStore out order basin egress thrs truns cores clusters locks mem power tables dci faults _ _
      (fun x => ((Reaches.refl ps x)).lockClear out locks dci faults _ _)

theorem Reaches.execLockRelease (r' : Requester) (lock : ℕ) : Completes ps r (execLockRelease r' lock s) := by
  unfold Machine.execLockRelease
  exact h.lockStore out order basin egress thrs truns cores clusters locks mem power tables dci faults _ _
      (fun x => ((Reaches.refl ps x)).lockRelease out thrs truns locks dci faults _ _)

theorem Reaches.lockLoad (t : ℕ) (gd : Reg) (k : ℕ) (tryOnly : Bool) : Completes ps r (lockLoad t gd k tryOnly s)
    := by
  unfold Machine.lockLoad
  refine h.issueRegs out order basin egress thrs truns cores clusters locks mem power tables dci faults _ _ _
      fun x => ?_
  have hx := Reaches.refl ps x
  split
  · rename_i eq
    have k := Reaches.of_fst eq (hx.lockAcquireNow locks _ _ _)
    exact (k.result thrs _ _ _).maybe
  · rename_i eq
    have k := Reaches.of_fst eq (hx.lockAcquireNow locks _ _ _)
    exact ((k.lockJoin locks _ _ _ _).updTr truns _ _).maybe

theorem Reaches.execLockTry (r' : LockReq) (lock : ℕ) : Completes ps r (execLockTry r' lock s) := by
  unfold Machine.execLockTry
  split
  · exact h.lockLoad out order basin egress thrs truns cores clusters locks mem power tables dci faults _ _ _ _
  · dsimp only
    exact ((h.lockAcquireNow locks _ _ _).lockAnswer locks _ _).completes
  · dsimp only
    exact ((h.lockAcquireNow locks _ _ _).lockAnswer locks _ _).completes

theorem Reaches.execLockAcquire (r' : LockReq) (lock : ℕ) : Completes ps r (execLockAcquire r' lock s) := by
  unfold Machine.execLockAcquire
  split
  · exact h.lockLoad out order basin egress thrs truns cores clusters locks mem power tables dci faults _ _ _ _
  · split
    · rename_i eq
      have k := Reaches.of_fst eq (h.lockAcquireNow locks _ _ _)
      exact (k.lockAnswer locks _ _).completes
    · rename_i eq
      have k := Reaches.of_fst eq (h.lockAcquireNow locks _ _ _)
      exact (k.lockJoin locks _ _ _ _).completes
  · dsimp only
    exact ((h.lockAcquireNow locks _ _ _).lockAnswer locks _ _).completes

theorem Reaches.execBufferPortLoad (t : ℕ) (gd : Reg) (n : ℕ) : Completes ps r (execBufferPortLoad t gd n s) := by
  unfold Machine.execBufferPortLoad
  exact h.issueRegs out order basin egress thrs truns cores clusters locks mem power tables dci faults _ _ _
      (fun x => Maybe.ite ((((Reaches.refl ps x)).trap out order basin egress thrs truns cores clusters locks power
      tables dci faults _ _).maybe) (((((Reaches.refl ps x)).portLoad out basin egress truns _ _).result
      thrs _ _ _).maybe))

end

section
variable {ps : List Part} {r s : State} (h : Reaches ps r s) (out : .out ∈ ps) (order : .order ∈ ps)
    (basin : .basin ∈ ps) (egress : .egress ∈ ps) (thrs : .thrs ∈ ps) (truns : .truns ∈ ps) (cores : .cores ∈ ps)
    (clusters : .clusters ∈ ps) (locks : .locks ∈ ps) (power : .power ∈ ps) (tables : .tables ∈ ps) (dci : .dci ∈ ps)
    (faults : .faults ∈ ps) (free : .free ∈ ps)
include h out order basin egress thrs truns cores clusters locks power tables dci faults free

theorem Reaches.execDebugHalt (c : CmdRef) (thread : ℕ) (release : ℕ) : Completes ps r
    (execDebugHalt c thread release s) := by
  unfold Machine.execDebugHalt
  exact h.command out dci faults free _ _ _ _ (fun x => ((Reaches.refl ps x)).guarded _
      (fun x => ((Reaches.refl ps x)).debugHaltBody out order basin egress thrs truns cores clusters locks power
      tables dci faults _ _))

theorem Reaches.execHelperControl (c : CmdRef) (action : ℕ) (unitNo : ℕ) (index : ℕ) : Completes ps r
    (execHelperControl c action unitNo index s) := by
  unfold Machine.execHelperControl
  exact h.command out dci faults free _ _ _ _ (fun x => ((Reaches.refl ps x)).helperControlBody out order basin egress
      thrs truns cores clusters locks power tables faults _ _ _ _)

theorem Reaches.execCoreRetire (c : CmdRef) (core : ℕ) (restore : ℕ) : Completes ps r
    (execCoreRetire c core restore s) := by
  unfold Machine.execCoreRetire
  exact h.command out dci faults free _ _ _ _ (fun x => ((Reaches.refl ps x)).coreRetireBody out order basin egress
      thrs truns cores clusters locks power tables faults _ _ _)

end

section
variable {ps : List Part} {r s : State} (h : Reaches ps r s) (out : .out ∈ ps) (order : .order ∈ ps)
    (basin : .basin ∈ ps) (egress : .egress ∈ ps) (thrs : .thrs ∈ ps) (truns : .truns ∈ ps) (scratch : .scratch ∈ ps)
    (cores : .cores ∈ ps) (clusters : .clusters ∈ ps) (locks : .locks ∈ ps) (power : .power ∈ ps)
    (tables : .tables ∈ ps) (dci : .dci ∈ ps) (faults : .faults ∈ ps)
include h out order basin egress thrs truns scratch cores clusters locks power tables dci faults

omit out order basin egress scratch cores clusters locks power tables dci faults in
theorem Reaches.longEnd (s0 : State) (t : Nat) (writing : Bool) : Reaches ps r (s.longEnd s0 t writing) := by
  have k := h.setReg thrs t 24 (s0.reg t 24 + s0.reg t 26)
  exact ((Reaches.setReg (.ite (k.setReg thrs _ _ _) k) thrs _ _ _).complete thrs truns _ _ _).unstall truns _

theorem Reaches.execLongOpDone (t : Nat) : Completes ps r (execLongOpDone t s) := by
  have broken (x) : Reaches ps r ((s.updTr t fun r => { r with wait := .none }).trap t x) :=
    (h.updTr truns _ _).trap out order basin egress thrs truns cores clusters locks power tables dci faults _ _
  unfold Machine.execLongOpDone
  split
  · split
    · exact h.completes
    · exact (broken _).completes
    · refine Reaches.completes (Reaches.stepCheck ?_ out order thrs truns clusters dci faults _)
      split
      · exact (h.setReg thrs _ _ _).longEnd thrs truns _ _ _
      · exact (h.setReg thrs _ _ _).longEnd thrs truns _ _ _
      · exact (h.setPair thrs _ _ _).longEnd thrs truns _ _ _
      · extract_lets x
        split
        · rename_i eq
          have k := StR.reaches.of eq (h.localWrite basin scratch _ _ _)
          exact ((Reaches.setPair k thrs _ _ _).setPair thrs _ _ _).longEnd thrs truns _ _ _
        · exact h
        · exact broken _
  · exact h.completes

end

section
variable {ps : List Part} {r s : State} (h : Reaches ps r s) (out : .out ∈ ps) (net : .net ∈ ps) (order : .order ∈ ps)
    (basin : .basin ∈ ps) (egress : .egress ∈ ps) (thrs : .thrs ∈ ps) (truns : .truns ∈ ps) (cores : .cores ∈ ps)
    (clusters : .clusters ∈ ps) (locks : .locks ∈ ps) (hbm : .hbm ∈ ps) (power : .power ∈ ps) (tables : .tables ∈ ps)
    (dci : .dci ∈ ps) (faults : .faults ∈ ps)
include h out net order basin egress thrs truns cores clusters locks hbm power tables dci faults

theorem Reaches.tryAccept (p : ℕ) : Reaches ps r (s.tryAccept p) := by
  unfold State.tryAccept
  exact Reaches.ite h (Reaches.ite (((Reaches.ite (((((h.updPkt order _ _).intakeCnt net _ _).classFrame cores
      clusters hbm power _).learnQueue net _).stompCt out net order basin egress thrs truns cores clusters locks power
      tables dci faults _) ((((h.updPkt order _ _).intakeCnt net _ _).classFrame cores clusters hbm
      power _).learnQueue net _)).intakeCnt net _ _).redo out order basin egress thrs truns cores clusters locks power
      tables _ _) ((((h.updPkt order _ _).intakeCnt net _ _).classFrame cores clusters hbm power _).learnQueue net _))

theorem Reaches.tailCheck (p : ℕ) : Reaches ps r (s.tailCheck p) := by
  unfold State.tailCheck
  split
  · exact h.refuseFrame out net order basin egress thrs truns cores clusters locks power tables dci faults _ _
  · exact ((h.updPkt order _ _).storeBytes basin _).tryAccept out net order basin egress thrs truns cores clusters
        locks hbm power tables dci faults _

theorem Reaches.cutFrame (port : ℕ) : Reaches ps r (s.cutFrame port) := by
  unfold State.cutFrame
  split
  · exact h
  · exact Reaches.ite ((Reaches.ite (h.updPkt order _ _) ((h.updPkt order _ _).tailCheck out net order basin egress
        thrs truns cores clusters locks hbm power tables dci faults _)).updPort net _ _) (h.updPkt order _ _)

theorem Reaches.stopLink (p : ℕ) : Reaches ps r (s.stopLink p) := by
  unfold State.stopLink
  exact (h.txAbort out net order basin egress thrs truns cores clusters locks power tables dci faults _).cutFrame out
      net order basin egress thrs truns cores clusters locks hbm power tables dci faults _

theorem Reaches.goDown (p : ℕ) (reason : ℕ) : Reaches ps r (s.goDown p reason) := by
  unfold State.goDown
  exact Reaches.ite ((((h.stopLink out net order basin egress thrs truns cores clusters locks hbm power tables dci
      faults _).updPort net _ _).reportDown out egress tables dci faults _ _).flap out net dci faults _)
      ((h.stopLink out net order basin egress thrs truns cores clusters locks hbm power tables dci faults _).updPort
      net _ _)

theorem Reaches.endTest (p : ℕ) (aborted : Bool) : Reaches ps r (s.endTest p aborted) := by
  unfold State.endTest
  exact Reaches.ite (((h.stopLink out net order basin egress thrs truns cores clusters locks hbm power tables dci
      faults _).updPort net _ _).portEvent out dci faults _ _ _ _) h

theorem Reaches.takeDown (p : ℕ) (reason : ℕ) : Reaches ps r (s.takeDown p reason) := by
  unfold State.takeDown
  exact Reaches.ite ((h.endTest out net order basin egress thrs truns cores clusters locks hbm power tables dci
      faults _ _).goDown out net order basin egress thrs truns cores clusters locks hbm power tables dci faults _ _)
      (h.endTest out net order basin egress thrs truns cores clusters locks hbm power tables dci faults _ _)

theorem Reaches.modeAlone (p : ℕ) (mode : ℕ) (fec : ℕ) : Reaches ps r (s.modeAlone p mode fec) := by
  unfold State.modeAlone
  exact Reaches.ite (((h.takeDown out net order basin egress thrs truns cores clusters locks hbm power tables dci
      faults _ _).updPort net _ _).bringUp net _) ((h.takeDown out net order basin egress thrs truns cores clusters
      locks hbm power tables dci faults _ _).updPort net _ _)

theorem Reaches.autoPort (mode : ℕ) (p : ℕ) : Reaches ps r (s.autoPort mode p) := by
  unfold State.autoPort
  exact (Reaches.ite h (h.modeAlone out net order basin egress thrs truns cores clusters locks hbm power tables dci
      faults _ _ _)).portEnableBody out net dci faults _

theorem Reaches.autoConfig (k : ℕ) : Reaches ps r (s.autoConfig k) := by
  unfold State.autoConfig
  dsimp only
  split
  · exact (Reaches.foldl ((h.dataPathInit out net _ _ _).updCage net _ _) _ fun x _ => ((Reaches.refl ps x)).autoPort
        out net order basin egress thrs truns cores clusters locks hbm power tables dci faults _ _).cageEvent out dci
        faults _ _ _
  · exact h.cageEvent out dci faults _ _ _

theorem Reaches.loseLink (p : ℕ) (reason : ℕ) : Reaches ps r (s.loseLink p reason) := by
  unfold State.loseLink
  exact (Reaches.ite ((h.stopLink out net order basin egress thrs truns cores clusters locks hbm power tables dci
      faults _).updLink net _ _) (h.stopLink out net order basin egress thrs truns cores clusters locks hbm power
      tables dci faults _)).updLink net _ _

theorem Reaches.leaveTest (p : ℕ) (aborted : Bool) : Reaches ps r (s.leaveTest p aborted) := by
  unfold State.leaveTest
  exact Reaches.ite ((h.endTest out net order basin egress thrs truns cores clusters locks hbm power tables dci
      faults _ _).bringUp net _) (h.endTest out net order basin egress thrs truns cores clusters locks hbm power
      tables dci faults _ _)

theorem Reaches.cageRemoved (k : ℕ) : Reaches ps r (s.cageRemoved k) := by
  unfold State.cageRemoved
  exact (((Reaches.foldl h _ fun x _ => Reaches.ite (((Reaches.refl ps x)).leaveTest out net order basin egress thrs
      truns cores clusters locks hbm power tables dci faults _ _)
      (Reaches.ite (((Reaches.refl ps x)).loseLink out net order basin egress thrs truns cores clusters locks hbm
      power tables dci faults _ _) ((Reaches.refl ps x)))).updCage net _ _).busSpeed net _).cageEvent out dci
      faults _ _ _

theorem Reaches.drainWord (port : ℕ) (w : IWord) : Reaches ps r (s.drainWord port w) := by
  unfold State.drainWord
  split
  · exact h
  · exact Reaches.ite (Reaches.ite ((h.updPkt order _ _).updPort net _ _) (h.updPkt order _ _))
        (Reaches.ite (Reaches.ite (((h.updPkt order _ _).refuseFrame out net order basin egress thrs truns cores
        clusters locks power tables dci faults _ _).updPort net _ _)
        ((h.updPkt order _ _).refuseFrame out net order basin egress thrs truns cores clusters locks power tables dci
        faults _ _)) (Reaches.ite (Reaches.ite ((((Reaches.ite (h.updPkt order _ _)
        ((h.updPkt order _ _).poisonWord out net order basin egress thrs truns cores clusters locks power tables dci
        faults _ _)).updPkt order _ _).refuseFrame out net order basin egress thrs truns cores clusters locks power
        tables dci faults _ _).updPort net _ _) (((Reaches.ite (h.updPkt order _ _)
        ((h.updPkt order _ _).poisonWord out net order basin egress thrs truns cores clusters locks power tables dci
        faults _ _)).updPkt order _ _).refuseFrame out net order basin egress thrs truns cores clusters locks power
        tables dci faults _ _)) (Reaches.ite ((Reaches.ite ((Reaches.ite
        ((Reaches.ite (h.updPkt order _ _) ((h.updPkt order _ _).poisonWord out net order basin egress thrs truns
        cores clusters locks power tables dci faults _ _)).updPkt order _ _)
        ((((Reaches.ite (h.updPkt order _ _) ((h.updPkt order _ _).poisonWord out net order basin egress thrs truns
        cores clusters locks power tables dci faults _ _)).updPkt order _ _).requestCells out net order basin egress
        thrs truns cores clusters locks power tables dci faults _ _).storeBytes basin _)).tailCheck out net order
        basin egress thrs truns cores clusters locks hbm power tables dci faults _)
        (Reaches.ite ((Reaches.ite (h.updPkt order _ _) ((h.updPkt order _ _).poisonWord out net order basin egress
        thrs truns cores clusters locks power tables dci faults _ _)).updPkt order _ _)
        ((((Reaches.ite (h.updPkt order _ _) ((h.updPkt order _ _).poisonWord out net order basin egress thrs truns
        cores clusters locks power tables dci faults _ _)).updPkt order _ _).requestCells out net order basin egress
        thrs truns cores clusters locks power tables dci faults _ _).storeBytes basin _))).updPort net _ _)
        (Reaches.ite ((Reaches.ite ((Reaches.ite (h.updPkt order _ _)
        ((h.updPkt order _ _).poisonWord out net order basin egress thrs truns cores clusters locks power tables dci
        faults _ _)).updPkt order _ _) ((((Reaches.ite (h.updPkt order _ _)
        ((h.updPkt order _ _).poisonWord out net order basin egress thrs truns cores clusters locks power tables dci
        faults _ _)).updPkt order _ _).requestCells out net order basin egress thrs truns cores clusters locks power
        tables dci faults _ _).storeBytes basin _)).tailCheck out net order basin egress thrs truns cores clusters
        locks hbm power tables dci faults _) (Reaches.ite ((Reaches.ite (h.updPkt order _ _)
        ((h.updPkt order _ _).poisonWord out net order basin egress thrs truns cores clusters locks power tables dci
        faults _ _)).updPkt order _ _) ((((Reaches.ite (h.updPkt order _ _)
        ((h.updPkt order _ _).poisonWord out net order basin egress thrs truns cores clusters locks power tables dci
        faults _ _)).updPkt order _ _).requestCells out net order basin egress thrs truns cores clusters locks power
        tables dci faults _ _).storeBytes basin _))))))

theorem Reaches.drain (port n : Nat) : Reaches ps r (s.drain port n) := by
  induction n generalizing s with
  | zero => exact h
  | succ n ih =>
    unfold State.drain
    split
    · exact h
    · exact ih ((h.updPort net _ _).drainWord out net order basin egress thrs truns cores clusters locks hbm power
          tables dci faults _ _)

theorem Reaches.drainAll (port : ℕ) : Reaches ps r (s.drainAll port) := by
  unfold State.drainAll
  exact ((h.drain out net order basin egress thrs truns cores clusters locks hbm power tables dci faults _ _).swap
      net _).drain out net order basin egress thrs truns cores clusters locks hbm power tables dci faults _ _

theorem Reaches.hostIngress (f : HostFn) (target : ℕ) (frame : List Byte) : Reaches ps r
    (s.hostIngress f target frame).1 := by
  unfold State.hostIngress
  dsimp only
  split
  · dsimp only
    exact (h.newFrame order _ _ _).refuse out net order basin egress thrs truns cores clusters locks power tables dci
        faults _ _
  · split
    · dsimp only
      exact (((h.newFrame order _ _ _).updPort net _ _).updPkt order _ _).refuse out net order basin egress thrs truns
          cores clusters locks power tables dci faults _ _
    · dsimp only
      exact ((((h.newFrame order _ _ _).updPort net _ _).updPkt order _ _).requestCells out net order basin egress
          thrs truns cores clusters locks power tables dci faults _ _).tailCheck out net order basin egress thrs truns
          cores clusters locks hbm power tables dci faults _

theorem Reaches.restartWell (w : Nat) (change : State → State) (k : ∀ x, Reaches ps x (change x)) :
    Reaches ps r (s.restartWell w change) := by
  refine Reaches.foldl (Reaches.updWell ((h.foldl _ fun x _ => ?_).trans (k _)) net _ _) _ fun x _ => ?_
  · exact (Reaches.refl ps x).takeDown out net order basin egress thrs truns cores clusters locks hbm power tables dci
        faults _ _
  · exact .ite (.refl ps x) ((Reaches.refl ps x).bringUp net _)

theorem Reaches.modeRegroup (p : ℕ) (mode : ℕ) (fec : ℕ) : Reaches ps r (s.modeRegroup p mode fec) := by
  unfold State.modeRegroup
  exact h.restartWell out net order basin egress thrs truns cores clusters locks hbm power tables dci faults _ _
      (fun x => ((Reaches.foldl ((Reaches.refl ps x)) _ fun x _ => ((Reaches.refl ps x)).dropPort out net egress dci
      faults _).updPort net _ _).updWell net _ _)

theorem Reaches.modeChange (p : ℕ) (mode : ℕ) (fec : ℕ) : Reaches ps r (s.modeChange p mode fec).1 := by
  unfold State.modeChange
  split
  · dsimp only
    exact h.modeAlone out net order basin egress thrs truns cores clusters locks hbm power tables dci faults _ _ _
  · split
    · dsimp only
      exact h.modeRegroup out net order basin egress thrs truns cores clusters locks hbm power tables dci faults _ _ _
    · dsimp only
      exact h.updWell net _ _

theorem Reaches.negotiated (p : ℕ) (mode : ℕ) (fec : ℕ) : Reaches ps r (s.negotiated p mode fec) := by
  unfold State.negotiated
  exact ((Reaches.ite (h.modeRegroup out net order basin egress thrs truns cores clusters locks hbm power tables dci
      faults _ _ _) (h.updPort net _ _)).updPort net _ _).portEvent out dci faults _ _ _ _

theorem Reaches.parsed (p : ℕ) (well : ℕ) (pl : FragPlan) : Reaches ps r (s.parsed p well pl) := by
  unfold State.parsed
  dsimp only
  split
  · exact ((((h.assignSeq order _ _).updPkt order _ _).updRc order _ _).updWell net _ _).tryAccept out net order basin
        egress thrs truns cores clusters locks hbm power tables dci faults _
  · refine Reaches.tryAccept ?_ out net order basin egress thrs truns cores clusters locks hbm power tables dci
        faults _
    split
    · exact ((h.assignSeq order _ _).listPut order _).updWell net _ _
    · exact ((((h.assignSeq order _ _).listPut order _).updWell net _ _).updWell net _ _).releaseFrags net order _ _ _

theorem Reaches.portOff (p : ℕ) : Reaches ps r (s.portOff p) := by
  unfold State.portOff
  exact (((h.endTest out net order basin egress thrs truns cores clusters locks hbm power tables dci
      faults _ _).stopLink out net order basin egress thrs truns cores clusters locks hbm power tables dci
      faults _).updPort net _ _).reportDown out egress tables dci faults _ _

theorem Reaches.takeTx (f : HostFn) (tag : ℕ) (len : ℕ) (mode : ℕ) (ts : Bool) (target : ℕ)
    (frame : List Byte) : Reaches ps r (s.takeTx f tag len mode ts target frame).1 := by
  unfold State.takeTx
  split
  · exact h
  · split
    · rename_i eq
      have k := Reaches.of_fst eq (h.allocCells out basin egress _ _ _ _)
      exact k
    · rename_i eq
      have k := Reaches.of_fst eq (h.allocCells out basin egress _ _ _ _)
      exact k
    · rename_i eq
      have k := Reaches.of_fst eq (h.allocCells out basin egress _ _ _ _)
      dsimp only
      split
      · dsimp only
        exact (k.setBuf basin _ _).updPump egress _ _
      · exact ((k.setBuf basin _ _).freeBuf out basin egress _).hostIngress out net order basin egress thrs truns
            cores clusters locks hbm power tables dci faults _ _ _

theorem Reaches.walkDone (p : ℕ) : Reaches ps r (s.walkDone p) := by
  unfold State.walkDone
  exact Reaches.ite ((((h.updPkt order _ _).intakeCnt net _ _).storeBytes basin _).refuseFrame out net order basin
      egress thrs truns cores clusters locks power tables dci faults _ _)
      ((((h.updPkt order _ _).intakeCnt net _ _).storeBytes basin _).parsed out net order basin egress thrs truns
      cores clusters locks hbm power tables dci faults _ _ _)

theorem Reaches.wellConfigBody (w : ℕ) (hold : ℕ) (us : ℕ) (kib : List ℕ) : Reaches ps r
    (wellConfigBody w hold us kib s).1 := by
  unfold Machine.wellConfigBody
  dsimp only
  split
  · exact h
  · split
    · dsimp only
      exact h.updWell net _ _
    · split
      · dsimp only
        exact h.restartWell out net order basin egress thrs truns cores clusters locks hbm power tables dci faults _ _
            (fun x => ((Reaches.refl ps x)).updWell net _ _)
      · dsimp only
        exact h.updWell net _ _

theorem Reaches.modulePolicyBody (k : ℕ) (mode : ℕ) (mask : Byte) (cls : ℕ) : Reaches ps r
    (modulePolicyBody k mode mask cls s).1 := by
  unfold Machine.modulePolicyBody
  split
  · exact h
  · dsimp only
    exact Reaches.ite ((h.updCage net _ _).autoConfig out net order basin egress thrs truns cores clusters locks hbm
        power tables dci faults _) (h.updCage net _ _)

theorem Reaches.portTestBody (p : ℕ) (mode : ℕ) (pattern : ℕ) : Reaches ps r (portTestBody p mode pattern s).1 := by
  unfold Machine.portTestBody
  dsimp only
  split
  · exact h
  · split
    · exact h
    · split
      · dsimp only
        exact Reaches.ite (h.leaveTest out net order basin egress thrs truns cores clusters locks hbm power tables dci
            faults _ _) h
      · split
        · exact h
        · split
          · exact h
          · split
            · exact h
            · dsimp only
              exact ((h.stopLink out net order basin egress thrs truns cores clusters locks hbm power tables dci
                  faults _).updPort net _ _).portEvent out dci faults _ _ _ _

theorem Reaches.portModeSetBody (p : ℕ) (mode : ℕ) (fec : ℕ) (tx : Byte) (rx : Byte) : Reaches ps r
    (portModeSetBody p mode fec tx rx s).1 := by
  unfold Machine.portModeSetBody
  dsimp only
  split
  · exact h
  · split
    · exact h
    · split
      · exact h
      · split
        · exact h
        · split
          · exact h
          · split
            · exact h
            · split
              · exact h
              · split
                · dsimp only
                  exact (h.modeChange out net order basin egress thrs truns cores clusters locks hbm power tables dci
                      faults _ _ _).updPort net _ _
                · dsimp only
                  exact h.modeChange out net order basin egress thrs truns cores clusters locks hbm power tables dci
                      faults _ _ _

theorem Reaches.execPuntTxFetch (fn : HostFn) (ring : ℕ) (len : ℕ) (mode : ℕ) (ts : Bool) (target : ℕ)
    (frame : List Byte) : Completes ps r (execPuntTxFetch fn ring len mode ts target frame s) := by
  unfold Machine.execPuntTxFetch
  dsimp only
  exact Completes.ite h.completes ((((((h.takeTx out net order basin egress thrs truns cores clusters locks hbm power
      tables dci faults _ _ _ _ _ _ _).hostWrite out _ _ _).hostWrite out _ _ _).updTx dci _ _ _).irq out
      dci _ _).completes)

theorem Reaches.execWellDisableDone (well : ℕ) : Completes ps r (execWellDisableDone well s) := by
  unfold Machine.execWellDisableDone
  split
  · exact h.completes
  · split
    · exact h.completes
    · dsimp only
      split
      · exact (((Reaches.foldl h _ fun x _ => ((Reaches.refl ps x)).portOff out net order basin egress thrs truns
            cores clusters locks hbm power tables dci faults _).updWell net _ _).finish out dci _ _ _ _ _).completes
      · exact ((Reaches.foldl h _ fun x _ => ((Reaches.refl ps x)).portOff out net order basin egress thrs truns cores
            clusters locks hbm power tables dci faults _).updWell net _ _).completes

theorem Reaches.execPortDisableComplete (port : ℕ) : Completes ps r (execPortDisableComplete port s) := by
  unfold Machine.execPortDisableComplete
  split
  · exact h.completes
  · exact ((h.portOff out net order basin egress thrs truns cores clusters locks hbm power tables dci faults _).finish
        out dci _ _ _ _ _).completes

theorem Reaches.execModuleReady (slot : ℕ) : Completes ps r (execModuleReady slot s) := by
  unfold Machine.execModuleReady
  exact Completes.ite h.completes ((Reaches.ite ((h.updCage net _ _).autoConfig out net order basin egress thrs truns
      cores clusters locks hbm power tables dci faults _) (h.updCage net _ _)).completes)

theorem Reaches.execPresenceDebounceEnd (slot : ℕ) : Completes ps r (execPresenceDebounceEnd slot s) := by
  unfold Machine.execPresenceDebounceEnd
  split
  · exact h.completes
  · exact Completes.ite h.completes (Completes.ite ((h.cageRelease net _).completes)
        ((h.cageRemoved out net order basin egress thrs truns cores clusters locks hbm power tables dci
        faults _).completes))

theorem Reaches.execAnComplete (port : ℕ) (partner : Partner) : Completes ps r (execAnComplete port partner s) := by
  unfold Machine.execAnComplete
  dsimp only
  split
  · exact h.completes
  · split
    · exact h.completes
    · exact Completes.ite h.completes (Completes.ite ((h.updWell net _ _).completes)
          ((h.negotiated out net order basin egress thrs truns cores clusters locks hbm power tables dci
          faults _ _ _).completes))

theorem Reaches.execLinkLoss (port : ℕ) (kind : LossKind) : Completes ps r (execLinkLoss port kind s) := by
  unfold Machine.execLinkLoss
  exact Completes.ite ((h.loseLink out net order basin egress thrs truns cores clusters locks hbm power tables dci
      faults _ _).completes) h.completes

theorem Reaches.execFrameTail (port : ℕ) (words : List IWord) (fec : List ℕ) : Completes ps r
    (execFrameTail port words fec s) := by
  unfold Machine.execFrameTail
  split
  · exact h.completes
  · exact Completes.ite h.completes (((((h.fecCount net _ _).updPkt order _ _).macWrite net order _ _ _ _).drainAll
        out net order basin egress thrs truns cores clusters locks hbm power tables dci faults _).completes)

theorem Reaches.execParseComplete (port : ℕ) : Completes ps r (execParseComplete port s) := by
  unfold Machine.execParseComplete
  split
  · exact h.completes
  · exact Completes.ite h.completes (Completes.ite (((h.updPort net _ _).updPkt order _ _).completes)
        (Completes.ite h.completes (((h.updPort net _ _).walkDone out net order basin egress thrs truns cores clusters
        locks hbm power tables dci faults _).completes)))

theorem Reaches.execCellGrant (bank : ℕ) : Completes ps r (execCellGrant bank s) := by
  unfold Machine.execCellGrant
  dsimp only
  split
  · exact ((Reaches.ite h (h.failLost out net order basin egress thrs truns cores clusters locks power tables dci
        faults _)).setReqs basin _ _).completes
  · split
    · exact (Reaches.ite h (h.failLost out net order basin egress thrs truns cores clusters locks power tables dci
          faults _)).completes
    · split
      · exact ((Reaches.ite h (h.failLost out net order basin egress thrs truns cores clusters locks power tables dci
            faults _)).failReqs out net order basin egress thrs truns cores clusters locks power tables dci
            faults _).completes
      · exact ((((Reaches.ite h (h.failLost out net order basin egress thrs truns cores clusters locks power tables
            dci faults _)).setReqs basin _ _).failCount basin _ _).refuseFrame out net order basin egress thrs truns
            cores clusters locks power tables dci faults _ _).completes
      · exact ((((Reaches.ite h (h.failLost out net order basin egress thrs truns cores clusters locks power tables
            dci faults _)).setReqs basin _ _).failCount basin _ _).refuseFrame out net order basin egress thrs truns
            cores clusters locks power tables dci faults _ _).completes
      · exact (((((((((Reaches.ite h (h.failLost out net order basin egress thrs truns cores clusters locks power
            tables dci faults _)).setReqs basin _ _).with_basin basin _).takeCell basin _).charge out basin
            egress _ _).addCell order basin _ _ _).storeBytes basin _).tryAccept out net order basin egress thrs truns
            cores clusters locks hbm power tables dci faults _).failReqs out net order basin egress thrs truns cores
            clusters locks power tables dci faults _).completes

theorem Reaches.execDrainRead (port : ℕ) (n : ℕ) : Completes ps r (execDrainRead port n s) := by
  unfold Machine.execDrainRead
  exact (h.drain out net order basin egress thrs truns cores clusters locks hbm power tables dci faults _ _).completes

end

section
variable {ps : List Part} {r s : State} (h : Reaches ps r s) (out : .out ∈ ps) (net : .net ∈ ps) (order : .order ∈ ps)
    (basin : .basin ∈ ps) (egress : .egress ∈ ps) (thrs : .thrs ∈ ps) (truns : .truns ∈ ps) (cores : .cores ∈ ps)
    (clusters : .clusters ∈ ps) (locks : .locks ∈ ps) (power : .power ∈ ps) (tables : .tables ∈ ps) (dci : .dci ∈ ps)
    (faults : .faults ∈ ps) (free : .free ∈ ps)
include h out net order basin egress thrs truns cores clusters locks power tables dci faults free

theorem Reaches.execDebugDiscard (c : CmdRef) (domain : ℕ) (seq : W32) : Completes ps r
    (execDebugDiscard c domain seq s) := by
  unfold Machine.execDebugDiscard
  exact h.command out dci faults free _ _ _ _ (fun x => ((Reaches.refl ps x)).debugDiscardBody out net order basin
      egress thrs truns cores clusters locks power tables dci faults _ _)

end

section
variable {ps : List Part} {r s : State} (h : Reaches ps r s) (out : .out ∈ ps) (net : .net ∈ ps) (order : .order ∈ ps)
    (basin : .basin ∈ ps) (egress : .egress ∈ ps) (thrs : .thrs ∈ ps) (truns : .truns ∈ ps) (cores : .cores ∈ ps)
    (clusters : .clusters ∈ ps) (locks : .locks ∈ ps) (power : .power ∈ ps) (tables : .tables ∈ ps)
    (ledger : .ledger ∈ ps) (dci : .dci ∈ ps) (faults : .faults ∈ ps)
include h out net order basin egress thrs truns cores clusters locks power tables ledger dci faults

theorem Reaches.txDone (port : ℕ) (n : TxNow) : Reaches ps r (s.txDone port n) := by
  unfold State.txDone
  exact (((((Reaches.ite (((h.sendFrame out net order basin egress thrs truns cores clusters locks power tables dci
      faults _ _).updEport egress _ _).txStamp out dci _) ((h.sendFrame out net order basin egress thrs truns cores
      clusters locks power tables dci faults _ _).updEport egress _ _)).txLedger ledger _).updPump
      egress _ _).chargeShapers egress _ _).endRef out basin egress dci faults _).copyOutcome order _ _

theorem Reaches.execTxComplete (port : ℕ) : Completes ps r (execTxComplete port s) := by
  unfold Machine.execTxComplete
  split
  · exact h.completes
  · split
    · exact (h.txDone out net order basin egress thrs truns cores clusters locks power tables ledger dci
          faults _ _).completes
    · split
      · exact h.completes
      · split
        · exact (h.txDone out net order basin egress thrs truns cores clusters locks power tables ledger dci
              faults _ _).completes
        · split
          · exact ((h.stompNow out net order basin egress thrs truns cores clusters locks power tables dci
                faults _ _).killCopy out order basin egress dci faults _ _ _).completes
          · dsimp only
            exact (((h.ctCharge egress _ _).txDone out net order basin egress thrs truns cores clusters locks power
                tables ledger dci faults _ _).clearDeficits egress _).completes

end

section
variable {ps : List Part} {r s : State} (h : Reaches ps r s) (out : .out ∈ ps) (order : .order ∈ ps)
    (basin : .basin ∈ ps) (egress : .egress ∈ ps) (thrs : .thrs ∈ ps) (truns : .truns ∈ ps) (cores : .cores ∈ ps)
    (clusters : .clusters ∈ ps) (locks : .locks ∈ ps) (mem : .mem ∈ ps) (hbm : .hbm ∈ ps) (power : .power ∈ ps)
    (tables : .tables ∈ ps) (dci : .dci ∈ ps) (faults : .faults ∈ ps)
include h out order basin egress thrs truns cores clusters locks mem hbm power tables dci faults

theorem Reaches.fill (core no : Nat) (err : Bool) : Reaches ps r (s.fill core no err) := by
  unfold State.fill
  extract_lets c cl
  split
  · exact h
  · rename_i sm m eq
    have k : Reaches ps r sm := (h.fillOf cores clusters _ _) _ eq
    refine .ite h ?_
    extract_lets s0
    have k0 : Reaches ps r s0 := .ite (k.hbmError out mem hbm dci faults _ _) k
    split
    rename_i s1 ln0 got
    have k1 : Reaches ps r s1 := Reaches.of_fst got (k0.l2Get clusters mem cl no)
    extract_lets ln c1
    clear_value ln c1
    have filled (c2) : Reaches ps r (((s1.setCore core c2).wakeFill core no ln.data ln.poison).unstall core) :=
      ((Reaches.setCore k1 cores _ _).wakeFill out order basin egress thrs truns cores clusters locks power tables dci
          faults _ _ _ _).unstall truns _
    split
    · exact (filled _).foldl _ fun x _ => (Reaches.refl ps x).maintL2 clusters mem _ _ _ _
    · split
      · exact h
      · exact (filled _).foldl _ fun x _ => (Reaches.refl ps x).maintLine cores clusters mem _ _ _ _

theorem Reaches.execLineFill (core : ℕ) (line : ℕ) (err : Bool) : Completes ps r (execLineFill core line err s) := by
  unfold Machine.execLineFill
  exact (h.fill out order basin egress thrs truns cores clusters locks mem hbm power tables dci
      faults _ _ _).completes

end

section
variable {ps : List Part} {r s : State} (h : Reaches ps r s) (out : .out ∈ ps) (time : .time ∈ ps)
    (basin : .basin ∈ ps) (egress : .egress ∈ ps) (thrs : .thrs ∈ ps) (truns : .truns ∈ ps) (scratch : .scratch ∈ ps)
    (cores : .cores ∈ ps) (clusters : .clusters ∈ ps) (locks : .locks ∈ ps) (mem : .mem ∈ ps) (tables : .tables ∈ ps)
    (dci : .dci ∈ ps) (faults : .faults ∈ ps) (free : .free ∈ ps)
include h out time basin egress thrs truns scratch cores clusters locks mem tables dci faults free

theorem Reaches.bcopyStep (t n : Nat) : (s.bcopyStep t n).reaches ps r := by
  unfold State.bcopyStep
  extract_lets src dst left
  split
  · exact h.granule out time basin egress truns cores clusters locks _ _ _ _ _
        fun v x => (Reaches.refl ps x).putGranule out basin thrs truns scratch clusters locks mem tables dci faults
        free _ _ _ _ _ fun y =>
      (Reaches.refl ps y).setReg thrs _ _ _
  · exact h.granule out time basin egress truns cores clusters locks _ _ _ _ _
        fun v x => (Reaches.refl ps x).putGranule out basin thrs truns scratch clusters locks mem tables dci faults
        free _ _ _ _ _ fun y =>
      (((Reaches.refl ps y).bump thrs _ _ _).bump thrs _ _ _).setReg thrs _ _ _

end

section
variable {ps : List Part} {r s : State} (h : Reaches ps r s) (out : .out ∈ ps) (time : .time ∈ ps)
    (order : .order ∈ ps) (basin : .basin ∈ ps) (egress : .egress ∈ ps) (thrs : .thrs ∈ ps) (truns : .truns ∈ ps)
    (cores : .cores ∈ ps) (clusters : .clusters ∈ ps) (locks : .locks ∈ ps) (mem : .mem ∈ ps) (power : .power ∈ ps)
    (tables : .tables ∈ ps) (dci : .dci ∈ ps) (faults : .faults ∈ ps)
include h out time order basin egress thrs truns cores clusters locks mem power tables dci faults

theorem Reaches.execBfind (t : ℕ) (size : BitVec 2) (ne : Bool) (gd : Reg) (ga : Reg) (gb : Reg) : Completes ps r
    (execBfind t size ne gd ga gb s) := by
  unfold Machine.execBfind
  exact h.stringOp out order basin egress thrs truns cores clusters locks mem power tables dci faults _ _ _ _ _ _ _ _
      (fun x => ((Reaches.refl ps x)).setReg thrs _ _ _) (fun _ x => ((Reaches.refl ps x)).bfindStep out time basin
      egress thrs truns cores clusters locks _ _ _ _ _ _)

theorem Reaches.execBcmp (t : ℕ) (size : BitVec 2) (gd : Reg) : Completes ps r (execBcmp t size gd s) := by
  unfold Machine.execBcmp
  exact h.stringOp out order basin egress thrs truns cores clusters locks mem power tables dci faults _ _ _ _ _ _ _ _
      (fun x => ((Reaches.refl ps x)).setReg thrs _ _ _) (fun _ x => ((Reaches.refl ps x)).bcmpStep out time basin
      egress thrs truns cores clusters locks _ _ _)

end

section
variable {ps : List Part} {r s : State} (h : Reaches ps r s) (out : .out ∈ ps) (net : .net ∈ ps) (order : .order ∈ ps)
    (basin : .basin ∈ ps) (egress : .egress ∈ ps) (thrs : .thrs ∈ ps) (truns : .truns ∈ ps) (cores : .cores ∈ ps)
    (clusters : .clusters ∈ ps) (locks : .locks ∈ ps) (hbm : .hbm ∈ ps) (power : .power ∈ ps) (tables : .tables ∈ ps)
    (dci : .dci ∈ ps) (faults : .faults ∈ ps) (free : .free ∈ ps)
include h out net order basin egress thrs truns cores clusters locks hbm power tables dci faults free

theorem Reaches.execWellConfig (c : CmdRef) (well : ℕ) (holdDomain : ℕ) (holdTimeUs : ℕ)
    (regionKib : List ℕ) : Completes ps r (execWellConfig c well holdDomain holdTimeUs regionKib s) := by
  unfold Machine.execWellConfig
  exact h.command out dci faults free _ _ _ _ (fun x => ((Reaches.refl ps x)).wellConfigBody out net order basin
      egress thrs truns cores clusters locks hbm power tables dci faults _ _ _ _)

theorem Reaches.execModulePolicy (c : CmdRef) (slot : ℕ) (mode : ℕ) (mask : Byte) (powerClass : ℕ) : Completes ps r
    (execModulePolicy c slot mode mask powerClass s) := by
  unfold Machine.execModulePolicy
  exact h.command out dci faults free _ _ _ _ (fun x => ((Reaches.refl ps x)).modulePolicyBody out net order basin
      egress thrs truns cores clusters locks hbm power tables dci faults _ _ _ _)

theorem Reaches.execPortTest (c : CmdRef) (port : ℕ) (mode : ℕ) (pattern : ℕ) : Completes ps r
    (execPortTest c port mode pattern s) := by
  unfold Machine.execPortTest
  exact h.command out dci faults free _ _ _ _ (fun x => ((Reaches.refl ps x)).portTestBody out net order basin egress
      thrs truns cores clusters locks hbm power tables dci faults _ _ _)

theorem Reaches.execPortModeSet (c : CmdRef) (port : ℕ) (mode : ℕ) (fec : ℕ) (txPol : Byte) (rxPol : Byte) : Completes
    ps r (execPortModeSet c port mode fec txPol rxPol s) := by
  unfold Machine.execPortModeSet
  exact h.command out dci faults free _ _ _ _ (fun x => ((Reaches.refl ps x)).portModeSetBody out net order basin
      egress thrs truns cores clusters locks hbm power tables dci faults _ _ _ _ _)

end

section
variable {ps : List Part} {r s : State} (h : Reaches ps r s) (out : .out ∈ ps) (net : .net ∈ ps) (order : .order ∈ ps)
    (basin : .basin ∈ ps) (egress : .egress ∈ ps) (thrs : .thrs ∈ ps) (truns : .truns ∈ ps) (cores : .cores ∈ ps)
    (clusters : .clusters ∈ ps) (locks : .locks ∈ ps) (hbm : .hbm ∈ ps) (power : .power ∈ ps) (tables : .tables ∈ ps)
    (dci : .dci ∈ ps) (faults : .faults ∈ ps) (trust : .trust ∈ ps)
include h out net order basin egress thrs truns cores clusters locks hbm power tables dci faults trust

theorem Reaches.takePins : Reaches ps r s.takePins := by
  unfold State.takePins
  exact Reaches.foldl ((h.updJtag trust _).updNet net _) _ fun x _ => ((Reaches.refl ps x)).loseLink out net order
      basin egress thrs truns cores clusters locks hbm power tables dci faults _ _

theorem Reaches.execHighz : Completes ps r (execHighz s) := by
  unfold Machine.execHighz
  exact ((h.loadIr trust _ _).takePins out net order basin egress thrs truns cores clusters locks hbm power tables dci
      faults trust).completes

theorem Reaches.execClampJ : Completes ps r (execClampJ s) := by
  unfold Machine.execClampJ
  exact ((h.loadIr trust _ _).takePins out net order basin egress thrs truns cores clusters locks hbm power tables dci
      faults trust).completes

end

section
variable {ps : List Part} {r s : State} (h : Reaches ps r s) (out : .out ∈ ps) (net : .net ∈ ps) (order : .order ∈ ps)
    (basin : .basin ∈ ps) (egress : .egress ∈ ps) (thrs : .thrs ∈ ps) (truns : .truns ∈ ps) (scratch : .scratch ∈ ps)
    (cores : .cores ∈ ps) (clusters : .clusters ∈ ps) (locks : .locks ∈ ps) (mem : .mem ∈ ps) (power : .power ∈ ps)
    (tables : .tables ∈ ps) (dci : .dci ∈ ps) (faults : .faults ∈ ps)
include h out net order basin egress thrs truns scratch cores clusters locks mem power tables dci faults

theorem Reaches.partEffect (kind : ℕ) (idx : ℕ) : Reaches ps r (s.partEffect kind idx) := by
  unfold State.partEffect
  split
  · exact h.resetThreads out order basin egress thrs truns scratch cores clusters locks power tables _
  · exact (h.resetThreads out order basin egress thrs truns scratch cores clusters locks power tables _).resetCore
        truns cores clusters mem _
  · exact (h.resetThreads out order basin egress thrs truns scratch cores clusters locks power tables _).resetCluster
        truns cores clusters mem _
  · exact h.parserResetStart net order _
  · exact h.pumpResetStart out net order basin egress thrs truns cores clusters locks power tables dci faults _
  · exact h.updOrder order _
  · exact h

theorem Reaches.partStart (kind : ℕ) (idx : ℕ) (cmds : List CmdRef) (auto : Bool) : Reaches ps r
    (s.partStart kind idx cmds auto) := by
  unfold State.partStart
  exact Reaches.ite ((((((h.partEffect out net order basin egress thrs truns scratch cores clusters locks mem power
      tables dci faults _ _).bumpReset faults _ _).updFaults faults _ (fun e => e)).errCnt faults _ _).updCl
      clusters _ _).drainEnd out clusters dci _) ((((h.partEffect out net order basin egress thrs truns scratch cores
      clusters locks mem power tables dci faults _ _).bumpReset faults _ _).updFaults faults _ (fun e => e)).errCnt
      faults _ _)

end

section
variable {ps : List Part} {r s : State} (h : Reaches ps r s) (out : .out ∈ ps) (order : .order ∈ ps)
    (basin : .basin ∈ ps) (egress : .egress ∈ ps) (thrs : .thrs ∈ ps) (truns : .truns ∈ ps) (scratch : .scratch ∈ ps)
    (cores : .cores ∈ ps) (clusters : .clusters ∈ ps) (locks : .locks ∈ ps) (mem : .mem ∈ ps) (power : .power ∈ ps)
    (tables : .tables ∈ ps) (dci : .dci ∈ ps) (faults : .faults ∈ ps) (free : .free ∈ ps)
include h out order basin egress thrs truns scratch cores clusters locks mem power tables dci faults free

theorem Reaches.execBfill (t : Nat) (size : BitVec 2) (ga : Reg) : Completes ps r (execBfill t size ga s) :=
  h.stringOp out order basin egress thrs truns cores clusters locks mem power tables dci faults _ _ _ _ _ _ _ _
      (fun x => .refl ps x) fun _ x => (Reaches.refl ps x).bfillStep out basin thrs truns scratch clusters locks mem
      tables dci faults free _ _ _

theorem Reaches.execStore (t : ℕ) (k : StKind) (gd : Reg) (ga : Reg) (imm : BitVec 16) : Completes ps r
    (execStore t k gd ga imm s) := by
  unfold Machine.execStore
  refine h.issueRegs out order basin egress thrs truns cores clusters locks mem power tables dci faults _ _ _
      fun x => ?_
  have hx := Reaches.refl ps x
  dsimp only
  split
  · exact (hx.halt out order thrs truns clusters dci faults _ _).maybe
  · split
    · exact (hx.trap out order basin egress thrs truns cores clusters locks power tables dci faults _ _).maybe
    · split
      · rename_i eq
        have k := StR.reaches.of eq (hx.memStore out basin thrs truns scratch clusters locks mem tables dci faults
            free _ _ _)
        change Reaches ps _ _ at k
        exact (k.advance thrs _).maybe
      · exact (hx.trap out order basin egress thrs truns cores clusters locks power tables dci faults _ _).maybe
      · exact Maybe.none

theorem Reaches.execSdn (t : ℕ) (gd : Reg) (ga : Reg) (imm : BitVec 16) : Completes ps r (execSdn t gd ga imm s) := by
  unfold Machine.execSdn
  exact h.execStore out order basin egress thrs truns scratch cores clusters locks mem power tables dci faults
      free _ _ _ _ _

theorem Reaches.execSwn (t : ℕ) (gd : Reg) (ga : Reg) (imm : BitVec 16) : Completes ps r (execSwn t gd ga imm s) := by
  unfold Machine.execSwn
  exact h.execStore out order basin egress thrs truns scratch cores clusters locks mem power tables dci faults
      free _ _ _ _ _

theorem Reaches.execShn (t : ℕ) (gd : Reg) (ga : Reg) (imm : BitVec 16) : Completes ps r (execShn t gd ga imm s) := by
  unfold Machine.execShn
  exact h.execStore out order basin egress thrs truns scratch cores clusters locks mem power tables dci faults
      free _ _ _ _ _

theorem Reaches.execSd (t : ℕ) (gd : Reg) (ga : Reg) (imm : BitVec 16) : Completes ps r (execSd t gd ga imm s) := by
  unfold Machine.execSd
  exact h.execStore out order basin egress thrs truns scratch cores clusters locks mem power tables dci faults
      free _ _ _ _ _

theorem Reaches.execSw (t : ℕ) (gd : Reg) (ga : Reg) (imm : BitVec 16) : Completes ps r (execSw t gd ga imm s) := by
  unfold Machine.execSw
  exact h.execStore out order basin egress thrs truns scratch cores clusters locks mem power tables dci faults
      free _ _ _ _ _

theorem Reaches.execSh (t : ℕ) (gd : Reg) (ga : Reg) (imm : BitVec 16) : Completes ps r (execSh t gd ga imm s) := by
  unfold Machine.execSh
  exact h.execStore out order basin egress thrs truns scratch cores clusters locks mem power tables dci faults
      free _ _ _ _ _

theorem Reaches.execSb (t : ℕ) (gd : Reg) (ga : Reg) (imm : BitVec 16) : Completes ps r (execSb t gd ga imm s) := by
  unfold Machine.execSb
  exact h.execStore out order basin egress thrs truns scratch cores clusters locks mem power tables dci faults
      free _ _ _ _ _

end

section
variable {ps : List Part} {r s : State} (h : Reaches ps r s) (out : .out ∈ ps) (time : .time ∈ ps)
    (order : .order ∈ ps) (basin : .basin ∈ ps) (egress : .egress ∈ ps) (thrs : .thrs ∈ ps) (truns : .truns ∈ ps)
    (scratch : .scratch ∈ ps) (cores : .cores ∈ ps) (clusters : .clusters ∈ ps) (locks : .locks ∈ ps)
    (mem : .mem ∈ ps) (power : .power ∈ ps) (tables : .tables ∈ ps) (dci : .dci ∈ ps) (faults : .faults ∈ ps)
include h out time order basin egress thrs truns scratch cores clusters locks mem power tables dci faults

theorem Reaches.execLoad (t : Nat) (k : LdKind) (gd ga : Reg) (imm : BitVec 16) (err : Option CoreArray) :
    Completes ps r (execLoad t k gd ga imm err s) := by
  refine h.issueRegsLate out order basin egress thrs truns cores clusters locks mem power tables dci faults _ _ _ _
      fun x => ?_
  have hx := Reaches.refl ps x
  extract_lets addr a s0
  have h0 : Reaches ps x s0 := by
    unfold s0
    split
    · exact hx.coreErr out basin scratch cores clusters dci faults _ _ _
    · exact hx
  have load := h0.memLoad out time basin egress truns cores clusters locks t a k.size
  clear_value s0
  split
  · exact (hx.halt out order thrs truns clusters dci faults _ _).maybe
  · refine .ite (hx.trap out order basin egress thrs truns cores clusters locks power tables dci faults _ _).maybe ?_
    split <;> rename_i eq <;> rw [eq] at load
    · exact (Reaches.result load thrs _ _ _).maybe
    · exact (Reaches.trap load out order basin egress thrs truns cores clusters locks power tables dci
          faults _ _).maybe
    · exact .none
    · exact (Reaches.updTr load truns _ _).maybe
    · exact ((h0.lockJoin locks _ _ _ _).updTr truns _ _).maybe

theorem Reaches.execLdn (t : ℕ) (gd : Reg) (ga : Reg) (imm : BitVec 16) : Completes ps r (execLdn t gd ga imm s) := by
  unfold Machine.execLdn
  exact h.execLoad out time order basin egress thrs truns scratch cores clusters locks mem power tables dci
      faults _ _ _ _ _ _

theorem Reaches.execLwn (t : ℕ) (gd : Reg) (ga : Reg) (imm : BitVec 16) : Completes ps r (execLwn t gd ga imm s) := by
  unfold Machine.execLwn
  exact h.execLoad out time order basin egress thrs truns scratch cores clusters locks mem power tables dci
      faults _ _ _ _ _ _

theorem Reaches.execLhn (t : ℕ) (gd : Reg) (ga : Reg) (imm : BitVec 16) : Completes ps r (execLhn t gd ga imm s) := by
  unfold Machine.execLhn
  exact h.execLoad out time order basin egress thrs truns scratch cores clusters locks mem power tables dci
      faults _ _ _ _ _ _

theorem Reaches.execLd (t : ℕ) (gd : Reg) (ga : Reg) (imm : BitVec 16) (err : Option CoreArray) : Completes ps r
    (execLd t gd ga imm err s) := by
  unfold Machine.execLd
  exact h.execLoad out time order basin egress thrs truns scratch cores clusters locks mem power tables dci
      faults _ _ _ _ _ _

theorem Reaches.execLwu (t : ℕ) (gd : Reg) (ga : Reg) (imm : BitVec 16) : Completes ps r (execLwu t gd ga imm s) := by
  unfold Machine.execLwu
  exact h.execLoad out time order basin egress thrs truns scratch cores clusters locks mem power tables dci
      faults _ _ _ _ _ _

theorem Reaches.execLw (t : ℕ) (gd : Reg) (ga : Reg) (imm : BitVec 16) : Completes ps r (execLw t gd ga imm s) := by
  unfold Machine.execLw
  exact h.execLoad out time order basin egress thrs truns scratch cores clusters locks mem power tables dci
      faults _ _ _ _ _ _

theorem Reaches.execLhu (t : ℕ) (gd : Reg) (ga : Reg) (imm : BitVec 16) : Completes ps r (execLhu t gd ga imm s) := by
  unfold Machine.execLhu
  exact h.execLoad out time order basin egress thrs truns scratch cores clusters locks mem power tables dci
      faults _ _ _ _ _ _

theorem Reaches.execLh (t : ℕ) (gd : Reg) (ga : Reg) (imm : BitVec 16) : Completes ps r (execLh t gd ga imm s) := by
  unfold Machine.execLh
  exact h.execLoad out time order basin egress thrs truns scratch cores clusters locks mem power tables dci
      faults _ _ _ _ _ _

theorem Reaches.execLbu (t : ℕ) (gd : Reg) (ga : Reg) (imm : BitVec 16) : Completes ps r (execLbu t gd ga imm s) := by
  unfold Machine.execLbu
  exact h.execLoad out time order basin egress thrs truns scratch cores clusters locks mem power tables dci
      faults _ _ _ _ _ _

theorem Reaches.execLb (t : ℕ) (gd : Reg) (ga : Reg) (imm : BitVec 16) : Completes ps r (execLb t gd ga imm s) := by
  unfold Machine.execLb
  exact h.execLoad out time order basin egress thrs truns scratch cores clusters locks mem power tables dci
      faults _ _ _ _ _ _

end

section
variable {ps : List Part} {r s : State} (h : Reaches ps r s) (out : .out ∈ ps) (net : .net ∈ ps) (order : .order ∈ ps)
    (basin : .basin ∈ ps) (egress : .egress ∈ ps) (thrs : .thrs ∈ ps) (truns : .truns ∈ ps) (cores : .cores ∈ ps)
    (clusters : .clusters ∈ ps) (locks : .locks ∈ ps) (hbm : .hbm ∈ ps) (power : .power ∈ ps) (tables : .tables ∈ ps)
    (dci : .dci ∈ ps) (faults : .faults ∈ ps) (trust : .trust ∈ ps) (free : .free ∈ ps)
include h out net order basin egress thrs truns cores clusters locks hbm power tables dci faults trust free

theorem Reaches.execExtestTrain : Completes ps r (execExtestTrain s) := by
  unfold Machine.execExtestTrain
  exact ((h.scanIr trust free _).takePins out net order basin egress thrs truns cores clusters locks hbm power tables
      dci faults trust).completes

theorem Reaches.execExtestPulse : Completes ps r (execExtestPulse s) := by
  unfold Machine.execExtestPulse
  exact ((h.scanIr trust free _).takePins out net order basin egress thrs truns cores clusters locks hbm power tables
      dci faults trust).completes

theorem Reaches.execExtest : Completes ps r (execExtest s) := by
  unfold Machine.execExtest
  exact ((h.scanIr trust free _).takePins out net order basin egress thrs truns cores clusters locks hbm power tables
      dci faults trust).completes

end

section
variable {ps : List Part} {r s : State} (h : Reaches ps r s) (out : .out ∈ ps) (time : .time ∈ ps) (net : .net ∈ ps)
    (order : .order ∈ ps) (basin : .basin ∈ ps) (egress : .egress ∈ ps) (thrs : .thrs ∈ ps) (truns : .truns ∈ ps)
    (cores : .cores ∈ ps) (clusters : .clusters ∈ ps) (locks : .locks ∈ ps) (hbm : .hbm ∈ ps) (power : .power ∈ ps)
    (tables : .tables ∈ ps) (ledger : .ledger ∈ ps) (dci : .dci ∈ ps) (faults : .faults ∈ ps)
include h out time net order basin egress thrs truns cores clusters locks hbm power tables ledger dci faults

theorem Reaches.execRefclkLoss (well : ℕ) : Completes ps r (execRefclkLoss well s) := by
  unfold Machine.execRefclkLoss
  exact Completes.ite h.completes (((Reaches.foldl (h.updWell net _ _) _ fun x _ => ((Reaches.refl ps x)).takeDown out
      net order basin egress thrs truns cores clusters locks hbm power tables dci faults _ _).baseLost out time ledger
      dci faults _).completes)

end

section
variable {ps : List Part} {r s : State} (h : Reaches ps r s) (out : .out ∈ ps) (time : .time ∈ ps)
    (order : .order ∈ ps) (basin : .basin ∈ ps) (egress : .egress ∈ ps) (thrs : .thrs ∈ ps) (truns : .truns ∈ ps)
    (scratch : .scratch ∈ ps) (cores : .cores ∈ ps) (clusters : .clusters ∈ ps) (locks : .locks ∈ ps)
    (mem : .mem ∈ ps) (power : .power ∈ ps) (tables : .tables ∈ ps) (dci : .dci ∈ ps) (faults : .faults ∈ ps)
    (free : .free ∈ ps)
include h out time order basin egress thrs truns scratch cores clusters locks mem power tables dci faults free

theorem Reaches.execBcopy (t : Nat) (size : BitVec 2) : Completes ps r (execBcopy t size s) :=
  h.stringOp out order basin egress thrs truns cores clusters locks mem power tables dci faults _ _ _ _ _ _ _ _
      (fun x => .refl ps x) fun _ x => (Reaches.refl ps x).bcopyStep out time basin egress thrs truns scratch cores
      clusters locks mem tables dci faults free _ _

end

section
variable {ps : List Part} {r s : State} (h : Reaches ps r s) (out : .out ∈ ps) (net : .net ∈ ps) (order : .order ∈ ps)
    (basin : .basin ∈ ps) (egress : .egress ∈ ps) (thrs : .thrs ∈ ps) (truns : .truns ∈ ps) (scratch : .scratch ∈ ps)
    (cores : .cores ∈ ps) (clusters : .clusters ∈ ps) (locks : .locks ∈ ps) (mem : .mem ∈ ps) (power : .power ∈ ps)
    (tables : .tables ∈ ps) (dci : .dci ∈ ps) (faults : .faults ∈ ps) (trust : .trust ∈ ps) (free : .free ∈ ps)
include h out net order basin egress thrs truns scratch cores clusters locks mem power tables dci faults trust free

theorem Reaches.debugBody (op : Nat) (p : List Byte) :
    ∀ body ∈ debugBody op p, Reaches ps r (body s).1 := by
  intro body hb
  unfold Machine.debugBody at hb
  dsimp only at hb
  split at hb <;> cases hb
  · exact h.guarded _ fun x => (Reaches.refl ps x).debugHaltBody out order basin egress thrs truns cores clusters
        locks power tables dci faults _ _
  · exact h.debugResumeBody out order thrs truns clusters dci faults _
  · exact h.guarded _ fun x => (Reaches.refl ps x).debugStepNow out order thrs truns clusters dci faults _ _
  · exact h.guarded _ fun x => (Reaches.refl ps x).debugBreakBody clusters _ _ _ _
  · exact h.guarded _ fun x => (Reaches.refl ps x).debugReadBody free _ _ _ _
  · exact h.guarded _ fun x => (Reaches.refl ps x).debugWriteBody out thrs truns scratch cores clusters locks mem
        tables dci faults free _ _ _ _ _
  · exact h.guarded _ fun x => (Reaches.refl ps x).traceConfigBody clusters _ _ _
  · exact h.guarded _ fun x => (Reaches.refl ps x).traceReadBody _
  · exact h.debugDiscardBody out net order basin egress thrs truns cores clusters locks power tables dci faults _ _
  · exact h.debugChallengeBody trust free
  · exact h.debugUnlockBody trust _ _ _

theorem Reaches.execDebugAccess (dr : BitVec 1024) : Completes ps r (execDebugAccess dr s) := by
  unfold Machine.execDebugAccess
  extract_lets e op plen p s1
  have h1 : Reaches ps r s1 := h.updJtag trust _
  split
  · exact h.completes
  · split
    · rename_i eq _
      split
      · exact (h1.jtagAnswer trust _ _).completes
      · split
        · exact h.completes
        · rename_i done
          have h2 := Reaches.of_fst done (h1.debugBody out net order basin egress thrs truns scratch cores clusters
              locks mem power tables dci faults trust free _ _ _ eq)
          extract_lets tooLong
          exact ((Reaches.ite h1 h2).jtagAnswer trust _ _).completes
    · exact (h1.jtagAnswer trust _ _).completes

end

section
variable {ps : List Part} {r s : State} (h : Reaches ps r s) (out : .out ∈ ps) (time : .time ∈ ps) (net : .net ∈ ps)
    (order : .order ∈ ps) (basin : .basin ∈ ps) (egress : .egress ∈ ps) (thrs : .thrs ∈ ps) (truns : .truns ∈ ps)
    (cores : .cores ∈ ps) (clusters : .clusters ∈ ps) (locks : .locks ∈ ps) (hbm : .hbm ∈ ps) (power : .power ∈ ps)
    (tables : .tables ∈ ps) (ledger : .ledger ∈ ps) (dci : .dci ∈ ps) (faults : .faults ∈ ps) (trust : .trust ∈ ps)
include h out time net order basin egress thrs truns cores clusters locks hbm power tables ledger dci faults trust

theorem Reaches.stepDt (c : CmdRef) (a : ℕ) : Reaches ps r (s.stepDt c a) := by
  unfold State.stepDt
  exact Reaches.ite (((Reaches.foldl (((h.moveNet net basin egress _).moveUnits order truns cores clusters locks hbm
      power tables dci faults trust _).updTime time _) _ fun x _ => ((Reaches.refl ps x)).stepDelays thrs
      clusters _).closeOpen out ledger dci faults _ _).openEpoch ledger _)
      (Reaches.foldl (((h.moveNet net basin egress _).moveUnits order truns cores clusters locks hbm power tables dci
      faults trust _).updTime time _) _ fun x _ => ((Reaches.refl ps x)).stepDelays thrs clusters _)

theorem Reaches.tryStep (c : CmdRef) (amount : ℕ) (gen : W32) : Reaches ps r (s.tryStep c amount gen).1 := by
  unfold State.tryStep
  split
  · exact h
  · split
    · exact h
    · split
      · dsimp only
        exact h.stepDt out time net order basin egress thrs truns cores clusters locks hbm power tables ledger dci
            faults trust _ _
      · split
        · exact h
        · exact h

theorem Reaches.timeStepBody (c : CmdRef) (amount : ℕ) (gen : W32) : Reaches ps r (timeStepBody c amount gen s).1
    := by
  unfold Machine.timeStepBody
  split
  · dsimp only
    exact h.updTime time _
  · exact h.tryStep out time net order basin egress thrs truns cores clusters locks hbm power tables ledger dci faults
        trust _ _ _

theorem Reaches.execTimeStepDeferredApply : Completes ps r (execTimeStepDeferredApply s) := by
  unfold Machine.execTimeStepDeferredApply
  split
  · exact h.completes
  · exact Completes.ite h.completes ((((h.updTime time _).tryStep out time net order basin egress thrs truns cores
        clusters locks hbm power tables ledger dci faults trust _ _ _).answer out dci _ _).completes)

end

section
variable {ps : List Part} {r s : State} (h : Reaches ps r s) (out : .out ∈ ps) (time : .time ∈ ps) (net : .net ∈ ps)
    (order : .order ∈ ps) (basin : .basin ∈ ps) (egress : .egress ∈ ps) (thrs : .thrs ∈ ps) (truns : .truns ∈ ps)
    (cores : .cores ∈ ps) (clusters : .clusters ∈ ps) (locks : .locks ∈ ps) (hbm : .hbm ∈ ps) (power : .power ∈ ps)
    (tables : .tables ∈ ps) (ledger : .ledger ∈ ps) (dci : .dci ∈ ps) (faults : .faults ∈ ps) (trust : .trust ∈ ps)
    (free : .free ∈ ps)
include h out time net order basin egress thrs truns cores clusters locks hbm power tables ledger dci faults trust
    free

theorem Reaches.execTimeStep (c : CmdRef) (amount : ℕ) (gen : W32) : Completes ps r (execTimeStep c amount gen s)
    := by
  unfold Machine.execTimeStep
  exact h.command out dci faults free _ _ _ _ (fun x => ((Reaches.refl ps x)).timeStepBody out time net order basin
      egress thrs truns cores clusters locks hbm power tables ledger dci faults trust _ _ _)

end

section
variable {ps : List Part} {r s : State} (h : Reaches ps r s) (out : .out ∈ ps) (time : .time ∈ ps) (net : .net ∈ ps)
    (order : .order ∈ ps) (basin : .basin ∈ ps) (egress : .egress ∈ ps) (thrs : .thrs ∈ ps) (truns : .truns ∈ ps)
    (scratch : .scratch ∈ ps) (cores : .cores ∈ ps) (clusters : .clusters ∈ ps) (locks : .locks ∈ ps)
    (mem : .mem ∈ ps) (power : .power ∈ ps) (tables : .tables ∈ ps) (ledger : .ledger ∈ ps) (dci : .dci ∈ ps)
    (faults : .faults ∈ ps) (trust : .trust ∈ ps)
include h out time net order basin egress thrs truns scratch cores clusters locks mem power tables ledger dci faults
    trust

theorem Reaches.phPartStart (auto : Bool) : Reaches ps r (s.phPartStart auto) := by
  unfold State.phPartStart
  exact (h.phResetStart out time thrs truns locks ledger dci faults trust).partStart out net order basin egress thrs
      truns scratch cores clusters locks mem power tables dci faults _ _ _ _

theorem Reaches.fwActivateBody (c : CmdRef) (slot : Nat) : Reaches ps r (fwActivateBody c slot s).1 := by
  unfold Machine.fwActivateBody
  split
  · exact h
  · split
    · exact h
    · split
      · exact h
      · split
        · exact h
        · extract_lets s1
          have h1 : Reaches ps r s1 :=
            ((h.answer out dci c .ok).fwState out dci faults slot 2).updTrust trust _ fun _ => bitsKept_refl _
          exact h1.phPartStart out time net order basin egress thrs truns scratch cores clusters locks mem power
              tables ledger dci faults trust _

theorem Reaches.partResetBody (c : CmdRef) (kind : ℕ) (idx : ℕ) : Reaches ps r (partResetBody c kind idx s).1 := by
  unfold Machine.partResetBody
  dsimp only
  split
  · exact h
  · split
    · exact h
    · split
      · dsimp only
        exact h.updFaults faults _ (fun e => e)
      · split
        · exact h
        · split
          · dsimp only
            exact (h.answer out dci _ _).phPartStart out time net order basin egress thrs truns scratch cores clusters
                locks mem power tables ledger dci faults trust _
          · dsimp only
            exact h.partStart out net order basin egress thrs truns scratch cores clusters locks mem power tables dci
                faults _ _ _ _

end

section
variable {ps : List Part} {r s : State} (h : Reaches ps r s) (out : .out ∈ ps) (time : .time ∈ ps) (net : .net ∈ ps)
    (order : .order ∈ ps) (basin : .basin ∈ ps) (egress : .egress ∈ ps) (thrs : .thrs ∈ ps) (truns : .truns ∈ ps)
    (scratch : .scratch ∈ ps) (cores : .cores ∈ ps) (clusters : .clusters ∈ ps) (locks : .locks ∈ ps)
    (mem : .mem ∈ ps) (power : .power ∈ ps) (tables : .tables ∈ ps) (ledger : .ledger ∈ ps) (dci : .dci ∈ ps)
    (faults : .faults ∈ ps) (trust : .trust ∈ ps) (free : .free ∈ ps)
include h out time net order basin egress thrs truns scratch cores clusters locks mem power tables ledger dci faults
    trust free

theorem Reaches.phWatchdog : Reaches ps r s.phWatchdog := by
  unfold State.phWatchdog
  exact Reaches.ite ((((((((h.updTrust trust _ (fun _ => bitsKept_refl _)).bumpReset faults _ _).errCnt
      faults _ _).lockLeave locks _).abandonAll thrs truns locks _).leaveLocked out time ledger dci faults _).updTime
      time _).toFault out dci faults free _) ((h.updTrust trust _ (fun _ => bitsKept_refl _)).phPartStart out time net
      order basin egress thrs truns scratch cores clusters locks mem power tables ledger dci faults trust _)

theorem Reaches.autoReset (u : FaultUnit) : Reaches ps r (s.autoReset u) := by
  unfold State.autoReset
  split
  · exact (h.unitReset out order basin egress thrs truns cores clusters locks power tables faults _ _).errCnt
        faults _ _
  · exact h.phWatchdog out time net order basin egress thrs truns scratch cores clusters locks mem power tables ledger
        dci faults trust free
  · exact h.partStart out net order basin egress thrs truns scratch cores clusters locks mem power tables dci
        faults _ _ _ _

theorem Reaches.execUnitFault (u : FaultUnit) (cause : Nat) : Completes ps r (execUnitFault u cause s) := by
  unfold Machine.execUnitFault
  extract_lets k running failed near s1
  have h1 : Reaches ps r s1 := (h.raiseFault out dci faults free _ _ _).errCnt faults _ _
  clear_value s1
  exact .ite h.completes (.ite (h1.escalate out net order truns cores clusters dci faults _).completes
      (.ite h1.completes
    (.ite ((h1.raiseFault out dci faults free _ _ _).escalate out net order truns cores clusters dci
        faults _).completes
      ((h1.updFaults faults _ fun e => e).autoReset out time net order basin egress thrs truns scratch cores clusters
          locks mem power tables ledger dci faults trust free _).completes)))

theorem Reaches.execPhWatchdogExpiry : Completes ps r (execPhWatchdogExpiry s) := by
  unfold Machine.execPhWatchdogExpiry
  exact Completes.ite ((h.phWatchdog out time net order basin egress thrs truns scratch cores clusters locks mem power
      tables ledger dci faults trust free).completes) h.completes

theorem Reaches.execFwActivate (c : CmdRef) (slot : ℕ) : Completes ps r (execFwActivate c slot s) := by
  unfold Machine.execFwActivate
  exact h.command out dci faults free _ _ _ _ (fun x => ((Reaches.refl ps x)).fwActivateBody out time net order basin
      egress thrs truns scratch cores clusters locks mem power tables ledger dci faults trust _ _)

theorem Reaches.execPartReset (c : CmdRef) (kind : ℕ) (index : ℕ) : Completes ps r (execPartReset c kind index s)
    := by
  unfold Machine.execPartReset
  exact h.command out dci faults free _ _ _ _ (fun x => ((Reaches.refl ps x)).partResetBody out time net order basin
      egress thrs truns scratch cores clusters locks mem power tables ledger dci faults trust _ _ _)

end

section
variable {ps : List Part} {r s : State} (h : Reaches ps r s) (out : .out ∈ ps) (time : .time ∈ ps) (net : .net ∈ ps)
    (order : .order ∈ ps) (basin : .basin ∈ ps) (cistern : .cistern ∈ ps) (egress : .egress ∈ ps) (thrs : .thrs ∈ ps)
    (truns : .truns ∈ ps) (scratch : .scratch ∈ ps) (cores : .cores ∈ ps) (clusters : .clusters ∈ ps)
    (locks : .locks ∈ ps) (keys : .keys ∈ ps) (mem : .mem ∈ ps) (hbm : .hbm ∈ ps) (power : .power ∈ ps)
    (tables : .tables ∈ ps) (ledger : .ledger ∈ ps) (dci : .dci ∈ ps) (faults : .faults ∈ ps) (trust : .trust ∈ ps)
    (free : .free ∈ ps)
include h out time net order basin cistern egress thrs truns scratch cores clusters locks keys mem hbm power tables
    ledger dci faults trust free

theorem Reaches.coldReset (low dark : Bool) : Reaches ps r (s.coldReset low dark) :=
  h.trans ⟨rfl, fun p hp => by cases p <;> exact absurd ‹_› hp, ⟨fun _ => rfl, fun _ => Nat.zero_le _,
      fun _ => bitsKept_refl _⟩⟩

theorem Reaches.logicReset : Reaches ps r s.logicReset :=
  h.trans ⟨rfl, fun p hp => by cases p <;> exact absurd ‹_› hp, ⟨id, id, fun _ => bitsKept_refl _⟩⟩

theorem Reaches.warmStart : Reaches ps r s.warmStart := by
  unfold State.warmStart
  exact (((Reaches.ite ((((h.setDev out dci faults _ _).leaseFreeze dci).updNet net _).leaveLocked out time ledger dci
      faults _) (((h.setDev out dci faults _ _).leaseFreeze dci).updNet net _)).sealEarly out ledger dci
      faults _).updLedger ledger _).logicReset out time net order basin cistern egress thrs truns scratch cores
      clusters locks keys mem hbm power tables ledger dci faults trust free

theorem Reaches.warmOrPrime : Reaches ps r s.warmOrPrime := by
  unfold State.warmOrPrime
  exact Reaches.ite ((h.setStep dci _).updTrust trust _ (fun _ => bitsKept_refl _))
      (h.warmStart out time net order basin cistern egress thrs truns scratch cores clusters locks keys mem hbm power
      tables ledger dci faults trust free)

theorem Reaches.execBoundaryScanExit : Completes ps r (execBoundaryScanExit s) := by
  unfold Machine.execBoundaryScanExit
  dsimp only
  exact Completes.ite h.completes ((Reaches.ite (((h.updJtag trust _).warmOrPrime out time net order basin cistern
      egress thrs truns scratch cores clusters locks keys mem hbm power tables ledger dci faults trust free).fwFetch
      out basin cistern cores clusters mem hbm ledger dci faults trust free) (h.updJtag trust _)).completes)

theorem Reaches.execWarmReset : Completes ps r (execWarmReset s) := by
  unfold Machine.execWarmReset
  exact Completes.ite h.completes (Completes.ite (((h.warmOrPrime out time net order basin cistern egress thrs truns
      scratch cores clusters locks keys mem hbm power tables ledger dci faults trust free).fwFetch out basin cistern
      cores clusters mem hbm ledger dci faults trust free).completes)
      (((h.warmOrPrime out time net order basin cistern egress thrs truns scratch cores clusters locks keys mem hbm
      power tables ledger dci faults trust free).updTrust trust _ (fun _ => bitsKept_refl _)).completes))

theorem Reaches.execBrownOut : Completes ps r (execBrownOut s) := by
  unfold Machine.execBrownOut
  exact (h.coldReset out time net order basin cistern egress thrs truns scratch cores clusters locks keys mem hbm
      power tables ledger dci faults trust free _ _).completes

theorem Reaches.execColdReset : Completes ps r (execColdReset s) := by
  unfold Machine.execColdReset
  exact (h.coldReset out time net order basin cistern egress thrs truns scratch cores clusters locks keys mem hbm
      power tables ledger dci faults trust free _ _).completes

end

/-- Every part of the state. -/
def everything : List Part :=
  [.out, .time, .net, .order, .basin, .cistern, .egress, .thrs, .truns, .scratch, .cores, .clusters, .locks, .keys,
      .mem, .hbm,
    .power, .tables, .ledger, .dci, .faults, .trust, .free]

theorem mem_everything (p : Part) : p ∈ everything := by
  cases p <;> decide

/-- The parts that a command may write, as `Claims.leavesAlone` names them; a command that it leaves open may write all. -/
def partsOf : Instr → List Part
  | .dtNowRead .. | .trefQualified .. | .trefLoss .. | .ppsOutRise .. | .ppsOutFall .. | .timebaseSwitchback .. =>
      [.time]
  | .fifoBankSwap .. | .fragEntryExpiry .. | .parserResetDone .. | .laneRecalDone .. | .linkReturn ..
  | .trainingDone .. | .trainingRetry .. | .moduleScan .. | .moduleLowpwrPoll .. => [.net]
  | .logRecordAck .. => [.order]
  | .sizedPoolAlloc .. | .rebuildRetry .. => [.basin]
  | .pauseExpiry .. | .spillChoose .. | .pumpResetDone .. | .shaperTokensReturn .. => [.egress]
  | .coreGateIdle .. => [.cores]
  | .clusterRetentionIdle .. => [.clusters]
  | .rowTimeout .. | .refreshDue .. | .pcPowerDown .. | .stackSelfRefresh .. | .timingTrack .. | .tempRetrain .. =>
      [.hbm]
  | .pwrfailRise .. => [.power]
  | .emOverlayRetire .. | .lpmRebuildDone .. => [.tables]
  | .sealResidualsDone .. | .recordDigestDone .. => [.ledger]
  | .cmdDoorbell .. | .rspHeadWrite .. | .leaseHeartbeatWrite .. | .dciRingDisable .. | .puntRingEnable ..
  | .puntRxPost .. | .puntTxDoorbell .. | .hostLinkUp .. => [.dci]
  | .debugNonceExpiry .. | .hostPushGo .. | .idcode .. | .bypass .. | .otpProg .. | .tapReset ..
  | .brownOutRecovery .. => [.trust]
  | .rxWhileDown .. => [.out, .net]
  | .pfcResend .. => [.out, .egress]
  | .commandFetch .. | .eseqAckWrite .. | .dciRingEnable .. | .intModExpiry .. => [.out, .dci]
  | .refclkReturn .. => [.time, .net]
  | .learnNoticeSend .. | .l2NoticeApply .. | .l2AgingSweep .. => [.net, .tables]
  | .cutThroughStart .. => [.order, .egress]
  | .delayTick .. => [.thrs, .clusters]
  | .cacheMaintDone .. | .starveGrant .. => [.truns, .cores]
  | .hbmRequest .. => [.hbm, .power]
  | .tblInsert .. | .tblUpdate .. | .tblDelete .. | .tblLookup .. | .tblReadIndex .. | .tblWriteIndex ..
  | .tblDigestBlock .. | .tblCmdDone .. | .emOverlayDecide .. => [.tables, .free]
  | .samplePreload .. => [.trust, .free]
  | .graphSwitchTimeout .. => [.out, .net, .dci]
  | .tableBatchDone .. => [.out, .tables, .dci]
  | .digestScrubBlock .. => [.out, .tables, .free]
  | .ledgerReadDone .. => [.out, .ledger, .dci]
  | .leaseExpiry .. => [.out, .dci, .faults]
  | .refillRead .. => [.egress, .hbm, .power]
  | .storeBufferDrain .. => [.truns, .cores, .clusters]
  | .clusterOffIdle .. => [.cores, .clusters, .mem]
  | .clusterWakeDispatch .. => [.cores, .clusters, .power]
  | .holdoverExpiry .. => [.out, .time, .dci, .faults]
  | .parseStart .. => [.out, .net, .order, .dci]
  | .quiesceFall .. | .quiesceRise .. | .trainingTimeout .. | .flapSuppressExpiry .. | .moduleIdPoll ..
  | .modulePagesRead .. | .moduleDiscoveryTimeout .. | .moduleInt .. | .i2cBusRecovery .. =>
      [.out, .net, .dci, .faults]
  | .walUncorrectable .. | .orderStallTimer .. => [.out, .order, .dci, .faults]
  | .holdTimeExpiry .. => [.out, .egress, .dci, .faults]
  | .partResetDone .. => [.out, .clusters, .dci, .faults]
  | .imageLoadDone .. => [.out, .mem, .dci, .trust]
  | .hbmTempRead .. => [.out, .hbm, .dci, .faults]
  | .epochClose .. | .epochSeal .. => [.out, .ledger, .dci, .faults]
  | .ledgerInitDone .. => [.out, .ledger, .dci, .free]
  | .fwUpdateDone .. | .fwConfirmTimeout .. => [.out, .dci, .faults, .trust]
  | .nopC .. | .deviceInfo .. | .leaseClaim .. | .leaseRelease .. | .leaseConfig .. | .portStatus ..
  | .moduleStatus .. | .intakeStats .. | .tableStats .. | .coreStats .. | .domainStatus .. | .orderStats ..
  | .taskStatus .. | .channelStatus .. | .ledgerInfo .. | .ledgerStats .. | .queueStats .. | .sumpStats ..
  | .powerStatus .. | .faultLogRead .. | .errorStats .. | .debugRead .. | .traceRead .. | .attest ..
  | .identityCert .. | .hbmPartitionRead .. | .hbmStats .. => [.out, .dci, .faults, .free]
  | .writebackAck .. => [.truns, .cores, .clusters, .mem]
  | .classIdle .. | .prewake .. => [.cores, .clusters, .hbm, .power]
  | .ptpLossTimeout .. | .ppsInMissing .. => [.out, .time, .ledger, .dci, .faults]
  | .timeStatus .. | .ppsOutConfig .. => [.out, .time, .dci, .faults, .free]
  | .linkDebounceExpiry .. => [.out, .net, .egress, .dci, .faults]
  | .l2TriggerApply .. => [.out, .net, .tables, .dci, .faults]
  | .portConfig .. | .portEnable .. | .portDisable .. | .moduleMap .. | .moduleAccess .. | .ecidMapSet ..
  | .sluice .. | .unsluice .. | .parseGraphLoad .. | .parseGraphCommit .. | .hashProfileSet .. | .hashKeySet ..
  | .indirectionSet .. | .wellEnable .. => [.out, .net, .dci, .faults, .free]
  | .puntRingDisable .. => [.out, .order, .basin, .egress, .dci]
  | .orderConfig .. | .versionFence .. => [.out, .order, .dci, .faults, .free]
  | .basinRebuildDone .. | .aggregateWriteAck .. => [.out, .basin, .egress, .dci, .faults]
  | .bufferQuotaSet .. | .bufferStatus .. => [.out, .basin, .dci, .faults, .free]
  | .cisternShrinkDone .. => [.out, .cistern, .mem, .dci, .faults]
  | .queueSpillSet .. | .queueGroupSet .. | .queueConfig .. | .egressPortSet .. | .wredProfileSet ..
  | .pfcThresholdSet .. | .mcGroupSet .. | .mcMemberOpSet .. | .queueFlush .. | .sumpConfig .. =>
      [.out, .egress, .dci, .faults, .free]
  | .coreConfig .. => [.out, .cores, .dci, .faults, .free]
  | .taskConfig .. | .debugBreakSet .. | .traceConfig .. => [.out, .clusters, .dci, .faults, .free]
  | .lockGroupSet .. => [.out, .locks, .dci, .faults, .free]
  | .cryptoKeySet .. => [.out, .keys, .dci, .faults, .free]
  | .granuleCopyDone .. => [.out, .hbm, .power, .dci, .faults]
  | .hbmQosSet .. | .hbmScrubConfig .. | .hbmRepair .. => [.out, .hbm, .dci, .faults, .free]
  | .tableBatch .. | .tableRead .. | .emTableSet .. | .l2Flush .. | .tableScrubConfig .. =>
      [.out, .tables, .dci, .faults, .free]
  | .recordSignDone .. | .epochConfig .. | .ledgerInit .. | .ledgerRead .. | .ledgerAck .. | .ledgerFlushSet .. =>
      [.out, .ledger, .dci, .faults, .free]
  | .deviceReset .. | .imageLoad .. | .debugChallenge .. | .debugUnlock .. | .fwUpdate .. =>
      [.out, .dci, .faults, .trust, .free]
  | .ptpMessageRx .. | .ppsInEdge .. | .timeSource .. => [.out, .time, .ledger, .dci, .faults, .free]
  | .linkHoldoffExpiry .. => [.out, .net, .egress, .tables, .dci, .faults]
  | .l2Config .. => [.out, .net, .tables, .dci, .faults, .free]
  | .pumpSelect .. | .puntRxDeliver .. => [.out, .order, .basin, .egress, .dci, .faults]
  | .bufferReclaim .. => [.out, .basin, .egress, .dci, .faults, .free]
  | .retireDrainDone .. | .retireWaitExpiry .. => [.out, .cistern, .mem, .hbm, .dci, .faults]
  | .cisternConfig .. | .hbmPartition .. => [.out, .cistern, .mem, .dci, .faults, .free]
  | .hbmPcRetire .. => [.out, .cistern, .hbm, .dci, .faults, .free]
  | .clusterConfig .. => [.out, .clusters, .mem, .dci, .faults, .free]
  | .clusterAdmit .. => [.out, .clusters, .dci, .faults, .trust, .free]
  | .powerFailFlushDone .. => [.out, .power, .ledger, .dci, .faults, .free]
  | .fragHoldTimeout .. => [.out, .net, .order, .basin, .egress, .dci, .faults]
  | .sensorRead .. => [.out, .net, .clusters, .power, .dci, .faults, .free]
  | .flushWalk .. => [.out, .order, .basin, .cistern, .egress, .dci, .faults]
  | .deadlockDetect .. | .waitevWake .. | .joinWake .. | .chgetWake .. | .chputReserveWake .. | .orderEnterWake .. =>
      [.out, .order, .thrs, .truns, .clusters, .dci, .faults]
  | .clusterDrain .. => [.out, .order, .truns, .clusters, .dci, .faults, .free]
  | .lockForceRelease .. => [.out, .thrs, .truns, .locks, .dci, .faults, .free]
  | .clusterLoad .. => [.out, .thrs, .cores, .clusters, .dci, .faults, .free]
  | .hbmIssue .. => [.out, .mem, .hbm, .tables, .ledger, .dci, .faults]
  | .pendingStoreRoom .. => [.order, .thrs, .truns, .cores, .clusters, .locks, .power]
  | _ => everything

/-- The old state with the parts `ps` of the new one. -/
def State.patch (ps : List Part) (s u : State) : State :=
  { s with
    out := if .out ∈ ps then u.out else s.out
    time := if .time ∈ ps then u.time else s.time
    net := if .net ∈ ps then u.net else s.net
    order := if .order ∈ ps then u.order else s.order
    basin := if .basin ∈ ps then u.basin else s.basin
    cistern := if .cistern ∈ ps then u.cistern else s.cistern
    egress := if .egress ∈ ps then u.egress else s.egress
    thrs := if .thrs ∈ ps then u.thrs else s.thrs
    truns := if .truns ∈ ps then u.truns else s.truns
    scratch := if .scratch ∈ ps then u.scratch else s.scratch
    cores := if .cores ∈ ps then u.cores else s.cores
    clusters := if .clusters ∈ ps then u.clusters else s.clusters
    locks := if .locks ∈ ps then u.locks else s.locks
    keys := if .keys ∈ ps then u.keys else s.keys
    mem := if .mem ∈ ps then u.mem else s.mem
    hbm := if .hbm ∈ ps then u.hbm else s.hbm
    power := if .power ∈ ps then u.power else s.power
    tables := if .tables ∈ ps then u.tables else s.tables
    ledger := if .ledger ∈ ps then u.ledger else s.ledger
    dci := if .dci ∈ ps then u.dci else s.dci
    faults := if .faults ∈ ps then u.faults else s.faults
    trust := if .trust ∈ ps then u.trust else s.trust
    free := if .free ∈ ps then u.free else s.free }

/-- States that agree on the queue and on every part are equal. -/
theorem State.eq_of_agrees {s u : State} (pending : u.pending = s.pending) (same : ∀ p, s.agrees u p) : u = s := by
  cases s
  cases u
  rw [State.mk.injEq]
  exact ⟨pending, same .out, same .time, same .net, same .order, same .basin, same .cistern, same .egress, same .thrs,
      same .truns, same .scratch, same .cores, same .clusters, same .locks, same .keys, same .mem, same .hbm, same
      .power, same .tables, same .ledger, same .dci, same .faults, same .trust, same .free⟩

theorem Reaches.eq_patch {ps : List Part} {s u : State} (h : Reaches ps s u) : u = s.patch ps u :=
  State.eq_of_agrees h.pending fun p => by
    have same {α : Type} {x y : α} (agree : p ∉ ps → x = y) : x = if p ∈ ps then x else y := by
      split
      · rfl
      · exact agree ‹_›
    cases p <;> exact same (h.same _)

/-- Every command completes, and its next state comes from the old one by safe changes to the parts that it may write. -/
theorem exec_completes (i : Instr) (s : State) : Completes (partsOf i) s (exec i s) := by
  cases i with
  | frameSof => apply Reaches.execFrameSof (.refl _ s) <;> exact mem_everything _
  | fifoBankSwap => exact Reaches.execFifoBankSwap (.refl _ s) (List.mem_of_elem_eq_true rfl) _
  | drainRead => apply Reaches.execDrainRead (.refl _ s) <;> exact mem_everything _
  | cellGrant => apply Reaches.execCellGrant (.refl _ s) <;> exact mem_everything _
  | parseStart => apply Reaches.execParseStart (.refl _ s) <;> exact List.mem_of_elem_eq_true rfl
  | parseComplete => apply Reaches.execParseComplete (.refl _ s) <;> exact mem_everything _
  | frameTail => apply Reaches.execFrameTail (.refl _ s) <;> exact mem_everything _
  | graphSwitchTimeout => apply Reaches.execGraphSwitchTimeout (.refl _ s) <;> exact List.mem_of_elem_eq_true rfl
  | fragEntryExpiry => exact Reaches.execFragEntryExpiry (.refl _ s) (List.mem_of_elem_eq_true rfl) _ _
  | fragHoldTimeout => apply Reaches.execFragHoldTimeout (.refl _ s) <;> exact List.mem_of_elem_eq_true rfl
  | quiesceFall => apply Reaches.execQuiesceFall (.refl _ s) <;> exact List.mem_of_elem_eq_true rfl
  | quiesceRise => apply Reaches.execQuiesceRise (.refl _ s) <;> exact List.mem_of_elem_eq_true rfl
  | parserResetDone => exact Reaches.execParserResetDone (.refl _ s) (List.mem_of_elem_eq_true rfl) _
  | dispatch => apply Reaches.execDispatch (.refl _ s) <;> exact mem_everything _
  | affinityWaitExpiry => apply Reaches.execAffinityWaitExpiry (.refl _ s) <;> exact mem_everything _
  | orderYield => apply Reaches.execOrderYield (.refl _ s) <;> exact mem_everything _
  | pendingStoreRoom => apply Reaches.execPendingStoreRoom (.refl _ s) <;> exact List.mem_of_elem_eq_true rfl
  | commit => apply Reaches.execCommit (.refl _ s) <;> exact mem_everything _
  | cutThroughStart => apply Reaches.execCutThroughStart (.refl _ s) <;> exact List.mem_of_elem_eq_true rfl
  | logRecordAck => exact Reaches.execLogRecordAck (.refl _ s) (List.mem_of_elem_eq_true rfl) _
  | commitResetResume => apply Reaches.execCommitResetResume (.refl _ s) <;> exact mem_everything _
  | walUncorrectable => apply Reaches.execWalUncorrectable (.refl _ s) <;> exact List.mem_of_elem_eq_true rfl
  | fenceDrainExpiry => apply Reaches.execFenceDrainExpiry (.refl _ s) <;> exact mem_everything _
  | orderStallTimer => apply Reaches.execOrderStallTimer (.refl _ s) <;> exact List.mem_of_elem_eq_true rfl
  | dtNowRead => exact Reaches.execDtNowRead (.refl _ s) (List.mem_of_elem_eq_true rfl) _
  | ptpMessageRx => apply Reaches.execPtpMessageRx (.refl _ s) <;> exact List.mem_of_elem_eq_true rfl
  | ptpLossTimeout => apply Reaches.execPtpLossTimeout (.refl _ s) <;> exact List.mem_of_elem_eq_true rfl
  | ppsInEdge => apply Reaches.execPpsInEdge (.refl _ s) <;> exact List.mem_of_elem_eq_true rfl
  | ppsInMissing => apply Reaches.execPpsInMissing (.refl _ s) <;> exact List.mem_of_elem_eq_true rfl
  | trefQualified => exact Reaches.execTrefQualified (.refl _ s) (List.mem_of_elem_eq_true rfl) _
  | trefLoss => exact Reaches.execTrefLoss (.refl _ s) (List.mem_of_elem_eq_true rfl)
  | holdoverExpiry => apply Reaches.execHoldoverExpiry (.refl _ s) <;> exact List.mem_of_elem_eq_true rfl
  | timeStepDeferredApply => apply Reaches.execTimeStepDeferredApply (.refl _ s) <;> exact mem_everything _
  | ppsOutRise => exact Reaches.execPpsOutRise (.refl _ s) (List.mem_of_elem_eq_true rfl)
  | ppsOutFall => exact Reaches.execPpsOutFall (.refl _ s) (List.mem_of_elem_eq_true rfl)
  | epochClose => apply Reaches.execEpochClose (.refl _ s) <;> exact List.mem_of_elem_eq_true rfl
  | epochSeal => apply Reaches.execEpochSeal (.refl _ s) <;> exact List.mem_of_elem_eq_true rfl
  | sealResidualsDone => exact Reaches.execSealResidualsDone (.refl _ s) (List.mem_of_elem_eq_true rfl)
  | recordDigestDone => exact Reaches.execRecordDigestDone (.refl _ s) (List.mem_of_elem_eq_true rfl)
  | recordSignDone => apply Reaches.execRecordSignDone (.refl _ s) <;> exact List.mem_of_elem_eq_true rfl
  | refclkLoss => apply Reaches.execRefclkLoss (.refl _ s) <;> exact mem_everything _
  | refclkReturn => apply Reaches.execRefclkReturn (.refl _ s) <;> exact List.mem_of_elem_eq_true rfl
  | laneRecalDone => exact Reaches.execLaneRecalDone (.refl _ s) (List.mem_of_elem_eq_true rfl) _
  | timebaseSwitchback => exact Reaches.execTimebaseSwitchback (.refl _ s) (List.mem_of_elem_eq_true rfl)
  | macControlRx => apply Reaches.execMacControlRx (.refl _ s) <;> exact mem_everything _
  | pauseExpiry => exact Reaches.execPauseExpiry (.refl _ s) (List.mem_of_elem_eq_true rfl) _ _
  | linkLoss => apply Reaches.execLinkLoss (.refl _ s) <;> exact mem_everything _
  | linkReturn => exact Reaches.execLinkReturn (.refl _ s) (List.mem_of_elem_eq_true rfl) _
  | linkHoldoffExpiry => apply Reaches.execLinkHoldoffExpiry (.refl _ s) <;> exact List.mem_of_elem_eq_true rfl
  | linkDebounceExpiry => apply Reaches.execLinkDebounceExpiry (.refl _ s) <;> exact List.mem_of_elem_eq_true rfl
  | anComplete => apply Reaches.execAnComplete (.refl _ s) <;> exact mem_everything _
  | trainingDone => exact Reaches.execTrainingDone (.refl _ s) (List.mem_of_elem_eq_true rfl) _
  | trainingTimeout => apply Reaches.execTrainingTimeout (.refl _ s) <;> exact List.mem_of_elem_eq_true rfl
  | trainingRetry => exact Reaches.execTrainingRetry (.refl _ s) (List.mem_of_elem_eq_true rfl) _
  | flapSuppressExpiry => apply Reaches.execFlapSuppressExpiry (.refl _ s) <;> exact List.mem_of_elem_eq_true rfl
  | moduleScan => exact Reaches.execModuleScan (.refl _ s) (List.mem_of_elem_eq_true rfl) _
  | presenceDebounceEnd => apply Reaches.execPresenceDebounceEnd (.refl _ s) <;> exact mem_everything _
  | moduleIdPoll => apply Reaches.execModuleIdPoll (.refl _ s) <;> exact List.mem_of_elem_eq_true rfl
  | moduleLowpwrPoll => exact Reaches.execModuleLowpwrPoll (.refl _ s) (List.mem_of_elem_eq_true rfl) _ _
  | modulePagesRead => apply Reaches.execModulePagesRead (.refl _ s) <;> exact List.mem_of_elem_eq_true rfl
  | moduleReady => apply Reaches.execModuleReady (.refl _ s) <;> exact mem_everything _
  | moduleDiscoveryTimeout =>
    apply Reaches.execModuleDiscoveryTimeout (.refl _ s) <;> exact List.mem_of_elem_eq_true rfl
  | moduleInt => apply Reaches.execModuleInt (.refl _ s) <;> exact List.mem_of_elem_eq_true rfl
  | i2cBusRecovery => apply Reaches.execI2cBusRecovery (.refl _ s) <;> exact List.mem_of_elem_eq_true rfl
  | portDisableComplete => apply Reaches.execPortDisableComplete (.refl _ s) <;> exact mem_everything _
  | wellDisableDone => apply Reaches.execWellDisableDone (.refl _ s) <;> exact mem_everything _
  | l2TriggerApply => apply Reaches.execL2TriggerApply (.refl _ s) <;> exact List.mem_of_elem_eq_true rfl
  | learnNoticeSend => apply Reaches.execLearnNoticeSend (.refl _ s) <;> exact List.mem_of_elem_eq_true rfl
  | l2NoticeApply => apply Reaches.execL2NoticeApply (.refl _ s) <;> exact List.mem_of_elem_eq_true rfl
  | l2AgingSweep => apply Reaches.execL2AgingSweep (.refl _ s) <;> exact List.mem_of_elem_eq_true rfl
  | bufferPortLoad => apply Reaches.execBufferPortLoad (.refl _ s) <;> exact mem_everything _
  | sizedPoolAlloc => exact Reaches.execSizedPoolAlloc (.refl _ s) (List.mem_of_elem_eq_true rfl) _ _
  | basinRebuildDone => apply Reaches.execBasinRebuildDone (.refl _ s) <;> exact List.mem_of_elem_eq_true rfl
  | rebuildRetry => exact Reaches.execRebuildRetry (.refl _ s) (List.mem_of_elem_eq_true rfl)
  | spillChoose => exact Reaches.execSpillChoose (.refl _ s) (List.mem_of_elem_eq_true rfl) _
  | aggregateTimer => apply Reaches.execAggregateTimer (.refl _ s) <;> exact mem_everything _
  | aggregateWriteAck => apply Reaches.execAggregateWriteAck (.refl _ s) <;> exact List.mem_of_elem_eq_true rfl
  | refillRead => apply Reaches.execRefillRead (.refl _ s) <;> exact List.mem_of_elem_eq_true rfl
  | refillReadDone => apply Reaches.execRefillReadDone (.refl _ s) <;> exact mem_everything _
  | cisternShrinkDone => apply Reaches.execCisternShrinkDone (.refl _ s) <;> exact List.mem_of_elem_eq_true rfl
  | copyArrival => apply Reaches.execCopyArrival (.refl _ s) <;> exact mem_everything _
  | wheelSlot => apply Reaches.execWheelSlot (.refl _ s) <;> exact mem_everything _
  | pumpSelect => apply Reaches.execPumpSelect (.refl _ s) <;> exact List.mem_of_elem_eq_true rfl
  | txComplete => apply Reaches.execTxComplete (.refl _ s) <;> exact mem_everything _
  | pfcResend => apply Reaches.execPfcResend (.refl _ s) <;> exact List.mem_of_elem_eq_true rfl
  | holdTimeExpiry => apply Reaches.execHoldTimeExpiry (.refl _ s) <;> exact List.mem_of_elem_eq_true rfl
  | flushWalk => apply Reaches.execFlushWalk (.refl _ s) <;> exact List.mem_of_elem_eq_true rfl
  | pumpResetDone => exact Reaches.execPumpResetDone (.refl _ s) (List.mem_of_elem_eq_true rfl) _
  | lockAcquire => apply Reaches.execLockAcquire (.refl _ s) <;> exact mem_everything _
  | lockTry => apply Reaches.execLockTry (.refl _ s) <;> exact mem_everything _
  | lockRelease => apply Reaches.execLockRelease (.refl _ s) <;> exact mem_everything _
  | lockClear => apply Reaches.execLockClear (.refl _ s) <;> exact mem_everything _
  | lockWaitTimeout => apply Reaches.execLockWaitTimeout (.refl _ s) <;> exact mem_everything _
  | delayTick => apply Reaches.execDelayTick (.refl _ s) <;> exact List.mem_of_elem_eq_true rfl
  | deadlockDetect => apply Reaches.execDeadlockDetect (.refl _ s) <;> exact List.mem_of_elem_eq_true rfl
  | waitevWake => apply Reaches.execWaitevWake (.refl _ s) <;> exact List.mem_of_elem_eq_true rfl
  | parkWake => apply Reaches.execParkWake (.refl _ s) <;> exact mem_everything _
  | joinWake => apply Reaches.execJoinWake (.refl _ s) <;> exact List.mem_of_elem_eq_true rfl
  | chgetWake => apply Reaches.execChgetWake (.refl _ s) <;> exact List.mem_of_elem_eq_true rfl
  | chputReserveWake => apply Reaches.execChputReserveWake (.refl _ s) <;> exact List.mem_of_elem_eq_true rfl
  | orderEnterWake => apply Reaches.execOrderEnterWake (.refl _ s) <;> exact List.mem_of_elem_eq_true rfl
  | longOpDone => apply Reaches.execLongOpDone (.refl _ s) <;> exact mem_everything _
  | lkpComplete => apply Reaches.execLkpComplete (.refl _ s) <;> exact mem_everything _
  | lineFill => apply Reaches.execLineFill (.refl _ s) <;> exact mem_everything _
  | writebackAck => apply Reaches.execWritebackAck (.refl _ s) <;> exact List.mem_of_elem_eq_true rfl
  | cacheMaintDone => apply Reaches.execCacheMaintDone (.refl _ s) <;> exact List.mem_of_elem_eq_true rfl
  | starveGrant => apply Reaches.execStarveGrant (.refl _ s) <;> exact List.mem_of_elem_eq_true rfl
  | watchdogExpiry => apply Reaches.execWatchdogExpiry (.refl _ s) <;> exact mem_everything _
  | addR => apply Reaches.execAddR (.refl _ s) <;> exact mem_everything _
  | subR => apply Reaches.execSubR (.refl _ s) <;> exact mem_everything _
  | andR => apply Reaches.execAndR (.refl _ s) <;> exact mem_everything _
  | orR => apply Reaches.execOrR (.refl _ s) <;> exact mem_everything _
  | xorR => apply Reaches.execXorR (.refl _ s) <;> exact mem_everything _
  | andnR => apply Reaches.execAndnR (.refl _ s) <;> exact mem_everything _
  | addwR => apply Reaches.execAddwR (.refl _ s) <;> exact mem_everything _
  | subwR => apply Reaches.execSubwR (.refl _ s) <;> exact mem_everything _
  | sllR => apply Reaches.execSllR (.refl _ s) <;> exact mem_everything _
  | srlR => apply Reaches.execSrlR (.refl _ s) <;> exact mem_everything _
  | sraR => apply Reaches.execSraR (.refl _ s) <;> exact mem_everything _
  | rorR => apply Reaches.execRorR (.refl _ s) <;> exact mem_everything _
  | ceqR => apply Reaches.execCeqR (.refl _ s) <;> exact mem_everything _
  | cneR => apply Reaches.execCneR (.refl _ s) <;> exact mem_everything _
  | cltR => apply Reaches.execCltR (.refl _ s) <;> exact mem_everything _
  | cltuR => apply Reaches.execCltuR (.refl _ s) <;> exact mem_everything _
  | cleR => apply Reaches.execCleR (.refl _ s) <;> exact mem_everything _
  | cleuR => apply Reaches.execCleuR (.refl _ s) <;> exact mem_everything _
  | cbsR => apply Reaches.execCbsR (.refl _ s) <;> exact mem_everything _
  | cbcR => apply Reaches.execCbcR (.refl _ s) <;> exact mem_everything _
  | minR => apply Reaches.execMinR (.refl _ s) <;> exact mem_everything _
  | maxR => apply Reaches.execMaxR (.refl _ s) <;> exact mem_everything _
  | minuR => apply Reaches.execMinuR (.refl _ s) <;> exact mem_everything _
  | maxuR => apply Reaches.execMaxuR (.refl _ s) <;> exact mem_everything _
  | mulR => apply Reaches.execMulR (.refl _ s) <;> exact mem_everything _
  | mulhuR => apply Reaches.execMulhuR (.refl _ s) <;> exact mem_everything _
  | mulhR => apply Reaches.execMulhR (.refl _ s) <;> exact mem_everything _
  | bswap16 => apply Reaches.execBswap16 (.refl _ s) <;> exact mem_everything _
  | bswap32 => apply Reaches.execBswap32 (.refl _ s) <;> exact mem_everything _
  | bswap64 => apply Reaches.execBswap64 (.refl _ s) <;> exact mem_everything _
  | popc => apply Reaches.execPopc (.refl _ s) <;> exact mem_everything _
  | clz => apply Reaches.execClz (.refl _ s) <;> exact mem_everything _
  | ctz => apply Reaches.execCtz (.refl _ s) <;> exact mem_everything _
  | rdlk => apply Reaches.execRdlk (.refl _ s) <;> exact mem_everything _
  | wrlk => apply Reaches.execWrlk (.refl _ s) <;> exact mem_everything _
  | addi => apply Reaches.execAddi (.refl _ s) <;> exact mem_everything _
  | andi => apply Reaches.execAndi (.refl _ s) <;> exact mem_everything _
  | ori => apply Reaches.execOri (.refl _ s) <;> exact mem_everything _
  | xori => apply Reaches.execXori (.refl _ s) <;> exact mem_everything _
  | shlori => apply Reaches.execShlori (.refl _ s) <;> exact mem_everything _
  | slli => apply Reaches.execSlli (.refl _ s) <;> exact mem_everything _
  | srli => apply Reaches.execSrli (.refl _ s) <;> exact mem_everything _
  | srai => apply Reaches.execSrai (.refl _ s) <;> exact mem_everything _
  | rori => apply Reaches.execRori (.refl _ s) <;> exact mem_everything _
  | ceqi => apply Reaches.execCeqi (.refl _ s) <;> exact mem_everything _
  | cnei => apply Reaches.execCnei (.refl _ s) <;> exact mem_everything _
  | clti => apply Reaches.execClti (.refl _ s) <;> exact mem_everything _
  | cltui => apply Reaches.execCltui (.refl _ s) <;> exact mem_everything _
  | cbsi => apply Reaches.execCbsi (.refl _ s) <;> exact mem_everything _
  | cbci => apply Reaches.execCbci (.refl _ s) <;> exact mem_everything _
  | extu => apply Reaches.execExtu (.refl _ s) <;> exact mem_everything _
  | exts => apply Reaches.execExts (.refl _ s) <;> exact mem_everything _
  | insF => apply Reaches.execInsF (.refl _ s) <;> exact mem_everything _
  | bz => apply Reaches.execBz (.refl _ s) <;> exact mem_everything _
  | bnz => apply Reaches.execBnz (.refl _ s) <;> exact mem_everything _
  | br => apply Reaches.execBr (.refl _ s) <;> exact mem_everything _
  | call => apply Reaches.execCall (.refl _ s) <;> exact mem_everything _
  | jr => apply Reaches.execJr (.refl _ s) <;> exact mem_everything _
  | jrl => apply Reaches.execJrl (.refl _ s) <;> exact mem_everything _
  | retI => apply Reaches.execRetI (.refl _ s) <;> exact mem_everything _
  | jlk => apply Reaches.execJlk (.refl _ s) <;> exact mem_everything _
  | lb => apply Reaches.execLb (.refl _ s) <;> exact mem_everything _
  | lbu => apply Reaches.execLbu (.refl _ s) <;> exact mem_everything _
  | lh => apply Reaches.execLh (.refl _ s) <;> exact mem_everything _
  | lhu => apply Reaches.execLhu (.refl _ s) <;> exact mem_everything _
  | lw => apply Reaches.execLw (.refl _ s) <;> exact mem_everything _
  | lwu => apply Reaches.execLwu (.refl _ s) <;> exact mem_everything _
  | ld => apply Reaches.execLd (.refl _ s) <;> exact mem_everything _
  | lhn => apply Reaches.execLhn (.refl _ s) <;> exact mem_everything _
  | lwn => apply Reaches.execLwn (.refl _ s) <;> exact mem_everything _
  | ldn => apply Reaches.execLdn (.refl _ s) <;> exact mem_everything _
  | sb => apply Reaches.execSb (.refl _ s) <;> exact mem_everything _
  | sh => apply Reaches.execSh (.refl _ s) <;> exact mem_everything _
  | sw => apply Reaches.execSw (.refl _ s) <;> exact mem_everything _
  | sd => apply Reaches.execSd (.refl _ s) <;> exact mem_everything _
  | shn => apply Reaches.execShn (.refl _ s) <;> exact mem_everything _
  | swn => apply Reaches.execSwn (.refl _ s) <;> exact mem_everything _
  | sdn => apply Reaches.execSdn (.refl _ s) <;> exact mem_everything _
  | czero => apply Reaches.execCzero (.refl _ s) <;> exact mem_everything _
  | cclean => apply Reaches.execCclean (.refl _ s) <;> exact mem_everything _
  | cinval => apply Reaches.execCinval (.refl _ s) <;> exact mem_everything _
  | cflush => apply Reaches.execCflush (.refl _ s) <;> exact mem_everything _
  | cpref t all ga imm => apply Reaches.execCpref (_all := all) (.refl _ s) <;> exact mem_everything _
  | rep => apply Reaches.execRep (.refl _ s) <;> exact mem_everything _
  | bcopy => apply Reaches.execBcopy (.refl _ s) <;> exact mem_everything _
  | bfill => apply Reaches.execBfill (.refl _ s) <;> exact mem_everything _
  | bcmp => apply Reaches.execBcmp (.refl _ s) <;> exact mem_everything _
  | bfind => apply Reaches.execBfind (.refl _ s) <;> exact mem_everything _
  | lkp => apply Reaches.execLkp (.refl _ s) <;> exact mem_everything _
  | weir => apply Reaches.execWeir (.refl _ s) <;> exact mem_everything _
  | jemit => apply Reaches.execJemit (.refl _ s) <;> exact mem_everything _
  | jdeliv => apply Reaches.execJdeliv (.refl _ s) <;> exact mem_everything _
  | jcnt => apply Reaches.execJcnt (.refl _ s) <;> exact mem_everything _
  | jledg => apply Reaches.execJledg (.refl _ s) <;> exact mem_everything _
  | jtbl => apply Reaches.execJtbl (.refl _ s) <;> exact mem_everything _
  | jctx => apply Reaches.execJctx (.refl _ s) <;> exact mem_everything _
  | jfree => apply Reaches.execJfree (.refl _ s) <;> exact mem_everything _
  | orderEnter => apply Reaches.execOrderEnter (.refl _ s) <;> exact mem_everything _
  | orderExit => apply Reaches.execOrderExit (.refl _ s) <;> exact mem_everything _
  | retire => apply Reaches.execRetire (.refl _ s) <;> exact mem_everything _
  | waitev => apply Reaches.execWaitev (.refl _ s) <;> exact mem_everything _
  | setev => apply Reaches.execSetev (.refl _ s) <;> exact mem_everything _
  | delay => apply Reaches.execDelay (.refl _ s) <;> exact mem_everything _
  | fork => apply Reaches.execFork (.refl _ s) <;> exact mem_everything _
  | join => apply Reaches.execJoin (.refl _ s) <;> exact mem_everything _
  | park => apply Reaches.execPark (.refl _ s) <;> exact mem_everything _
  | endI => apply Reaches.execEndI (.refl _ s) <;> exact mem_everything _
  | chput => apply Reaches.execChput (.refl _ s) <;> exact mem_everything _
  | chend => apply Reaches.execChend (.refl _ s) <;> exact mem_everything _
  | chget => apply Reaches.execChget (.refl _ s) <;> exact mem_everything _
  | chpoll => apply Reaches.execChpoll (.refl _ s) <;> exact mem_everything _
  | mfs => apply Reaches.execMfs (.refl _ s) <;> exact mem_everything _
  | mts => apply Reaches.execMts (.refl _ s) <;> exact mem_everything _
  | tret => apply Reaches.execTret (.refl _ s) <;> exact mem_everything _
  | breakI => apply Reaches.execBreakI (.refl _ s) <;> exact mem_everything _
  | csum => apply Reaches.execCsum (.refl _ s) <;> exact mem_everything _
  | csumadj => apply Reaches.execCsumadj (.refl _ s) <;> exact mem_everything _
  | crc => apply Reaches.execCrc (.refl _ s) <;> exact mem_everything _
  | csumm => apply Reaches.execCsumm (.refl _ s) <;> exact mem_everything _
  | crcm => apply Reaches.execCrcm (.refl _ s) <;> exact mem_everything _
  | hmix => apply Reaches.execHmix (.refl _ s) <;> exact mem_everything _
  | tplz => apply Reaches.execTplz (.refl _ s) <;> exact mem_everything _
  | hrange => apply Reaches.execHrange (.refl _ s) <;> exact mem_everything _
  | gctrEnc => apply Reaches.execGctrEnc (.refl _ s) <;> exact mem_everything _
  | gctrDec => apply Reaches.execGctrDec (.refl _ s) <;> exact mem_everything _
  | ghashAad => apply Reaches.execGhashAad (.refl _ s) <;> exact mem_everything _
  | gcmFinal => apply Reaches.execGcmFinal (.refl _ s) <;> exact mem_everything _
  | coprocUnfitted => apply Reaches.execCoprocUnfitted (.refl _ s) <;> exact mem_everything _
  | tblInsert => apply Reaches.execTblInsert (.refl _ s) <;> exact List.mem_of_elem_eq_true rfl
  | tblUpdate => apply Reaches.execTblUpdate (.refl _ s) <;> exact List.mem_of_elem_eq_true rfl
  | tblDelete => apply Reaches.execTblDelete (.refl _ s) <;> exact List.mem_of_elem_eq_true rfl
  | tblLookup => apply Reaches.execTblLookup (.refl _ s) <;> exact List.mem_of_elem_eq_true rfl
  | tblReadIndex => apply Reaches.execTblReadIndex (.refl _ s) <;> exact List.mem_of_elem_eq_true rfl
  | tblWriteIndex => apply Reaches.execTblWriteIndex (.refl _ s) <;> exact List.mem_of_elem_eq_true rfl
  | tblDigestBlock => apply Reaches.execTblDigestBlock (.refl _ s) <;> exact List.mem_of_elem_eq_true rfl
  | tblCmdDone => apply Reaches.execTblCmdDone (.refl _ s) <;> exact List.mem_of_elem_eq_true rfl
  | emOverlayDecide => apply Reaches.execEmOverlayDecide (.refl _ s) <;> exact List.mem_of_elem_eq_true rfl
  | emOverlayRetire => exact Reaches.execEmOverlayRetire (.refl _ s) (List.mem_of_elem_eq_true rfl)
  | lpmRebuildDone => exact Reaches.execLpmRebuildDone (.refl _ s) (List.mem_of_elem_eq_true rfl) _ _
  | digestScrubBlock => apply Reaches.execDigestScrubBlock (.refl _ s) <;> exact List.mem_of_elem_eq_true rfl
  | hbmRequest => apply Reaches.execHbmRequest (.refl _ s) <;> exact List.mem_of_elem_eq_true rfl
  | hbmIssue => apply Reaches.execHbmIssue (.refl _ s) <;> exact List.mem_of_elem_eq_true rfl
  | rowTimeout => exact Reaches.execRowTimeout (.refl _ s) (List.mem_of_elem_eq_true rfl) _ _
  | refreshDue => exact Reaches.execRefreshDue (.refl _ s) (List.mem_of_elem_eq_true rfl) _ _ _
  | hbmTempRead => apply Reaches.execHbmTempRead (.refl _ s) <;> exact List.mem_of_elem_eq_true rfl
  | pcPowerDown => exact Reaches.execPcPowerDown (.refl _ s) (List.mem_of_elem_eq_true rfl) _
  | stackSelfRefresh => exact Reaches.execStackSelfRefresh (.refl _ s) (List.mem_of_elem_eq_true rfl) _
  | patrolScrub => apply Reaches.execPatrolScrub (.refl _ s) <;> exact mem_everything _
  | timingTrack => exact Reaches.execTimingTrack (.refl _ s) (List.mem_of_elem_eq_true rfl) _
  | tempRetrain => exact Reaches.execTempRetrain (.refl _ s) (List.mem_of_elem_eq_true rfl) _
  | retireDrainDone => apply Reaches.execRetireDrainDone (.refl _ s) <;> exact List.mem_of_elem_eq_true rfl
  | retireWaitExpiry => apply Reaches.execRetireWaitExpiry (.refl _ s) <;> exact List.mem_of_elem_eq_true rfl
  | granuleCopyDone => apply Reaches.execGranuleCopyDone (.refl _ s) <;> exact List.mem_of_elem_eq_true rfl
  | cmdDoorbell => exact Reaches.execCmdDoorbell (.refl _ s) (List.mem_of_elem_eq_true rfl) _ _
  | commandFetch => apply Reaches.execCommandFetch (.refl _ s) <;> exact List.mem_of_elem_eq_true rfl
  | rspHeadWrite => exact Reaches.execRspHeadWrite (.refl _ s) (List.mem_of_elem_eq_true rfl) _ _
  | eseqAckWrite => apply Reaches.execEseqAckWrite (.refl _ s) <;> exact List.mem_of_elem_eq_true rfl
  | leaseHeartbeatWrite => exact Reaches.execLeaseHeartbeatWrite (.refl _ s) (List.mem_of_elem_eq_true rfl) _ _
  | leaseExpiry => apply Reaches.execLeaseExpiry (.refl _ s) <;> exact List.mem_of_elem_eq_true rfl
  | dciRingEnable => apply Reaches.execDciRingEnable (.refl _ s) <;> exact List.mem_of_elem_eq_true rfl
  | dciRingDisable => exact Reaches.execDciRingDisable (.refl _ s) (List.mem_of_elem_eq_true rfl) _ _
  | functionReset => apply Reaches.execFunctionReset (.refl _ s) <;> exact mem_everything _
  | intModExpiry => apply Reaches.execIntModExpiry (.refl _ s) <;> exact List.mem_of_elem_eq_true rfl
  | puntRingEnable => exact Reaches.execPuntRingEnable (.refl _ s) (List.mem_of_elem_eq_true rfl) _ _ _ _
  | puntRingDisable => apply Reaches.execPuntRingDisable (.refl _ s) <;> exact List.mem_of_elem_eq_true rfl
  | puntRxPost => exact Reaches.execPuntRxPost (.refl _ s) (List.mem_of_elem_eq_true rfl) _ _ _
  | puntRxDeliver => apply Reaches.execPuntRxDeliver (.refl _ s) <;> exact List.mem_of_elem_eq_true rfl
  | puntTxDoorbell => exact Reaches.execPuntTxDoorbell (.refl _ s) (List.mem_of_elem_eq_true rfl) _ _ _
  | puntTxFetch => apply Reaches.execPuntTxFetch (.refl _ s) <;> exact mem_everything _
  | registerWrite => apply Reaches.execRegisterWrite (.refl _ s) <;> exact mem_everything _
  | nopC => apply Reaches.execNopC (.refl _ s) <;> exact List.mem_of_elem_eq_true rfl
  | deviceInfo => apply Reaches.execDeviceInfo (.refl _ s) <;> exact List.mem_of_elem_eq_true rfl
  | leaseClaim => apply Reaches.execLeaseClaim (.refl _ s) <;> exact List.mem_of_elem_eq_true rfl
  | leaseRelease => apply Reaches.execLeaseRelease (.refl _ s) <;> exact List.mem_of_elem_eq_true rfl
  | leaseConfig => apply Reaches.execLeaseConfig (.refl _ s) <;> exact List.mem_of_elem_eq_true rfl
  | deviceReset => apply Reaches.execDeviceReset (.refl _ s) <;> exact List.mem_of_elem_eq_true rfl
  | portModeSet => apply Reaches.execPortModeSet (.refl _ s) <;> exact mem_everything _
  | portConfig => apply Reaches.execPortConfig (.refl _ s) <;> exact List.mem_of_elem_eq_true rfl
  | portEnable => apply Reaches.execPortEnable (.refl _ s) <;> exact List.mem_of_elem_eq_true rfl
  | portDisable => apply Reaches.execPortDisable (.refl _ s) <;> exact List.mem_of_elem_eq_true rfl
  | portTest => apply Reaches.execPortTest (.refl _ s) <;> exact mem_everything _
  | portStatus => apply Reaches.execPortStatus (.refl _ s) <;> exact List.mem_of_elem_eq_true rfl
  | moduleMap => apply Reaches.execModuleMap (.refl _ s) <;> exact List.mem_of_elem_eq_true rfl
  | modulePolicy => apply Reaches.execModulePolicy (.refl _ s) <;> exact mem_everything _
  | moduleAccess => apply Reaches.execModuleAccess (.refl _ s) <;> exact List.mem_of_elem_eq_true rfl
  | moduleStatus => apply Reaches.execModuleStatus (.refl _ s) <;> exact List.mem_of_elem_eq_true rfl
  | ecidMapSet => apply Reaches.execEcidMapSet (.refl _ s) <;> exact List.mem_of_elem_eq_true rfl
  | wellConfig => apply Reaches.execWellConfig (.refl _ s) <;> exact mem_everything _
  | sluice => apply Reaches.execSluice (.refl _ s) <;> exact List.mem_of_elem_eq_true rfl
  | unsluice => apply Reaches.execUnsluice (.refl _ s) <;> exact List.mem_of_elem_eq_true rfl
  | parseGraphLoad => apply Reaches.execParseGraphLoad (.refl _ s) <;> exact List.mem_of_elem_eq_true rfl
  | parseGraphCommit => apply Reaches.execParseGraphCommit (.refl _ s) <;> exact List.mem_of_elem_eq_true rfl
  | hashProfileSet => apply Reaches.execHashProfileSet (.refl _ s) <;> exact List.mem_of_elem_eq_true rfl
  | hashKeySet => apply Reaches.execHashKeySet (.refl _ s) <;> exact List.mem_of_elem_eq_true rfl
  | indirectionSet => apply Reaches.execIndirectionSet (.refl _ s) <;> exact List.mem_of_elem_eq_true rfl
  | intakeStats => apply Reaches.execIntakeStats (.refl _ s) <;> exact List.mem_of_elem_eq_true rfl
  | tableBatch => apply Reaches.execTableBatch (.refl _ s) <;> exact List.mem_of_elem_eq_true rfl
  | tableBatchDone => apply Reaches.execTableBatchDone (.refl _ s) <;> exact List.mem_of_elem_eq_true rfl
  | tableRead => apply Reaches.execTableRead (.refl _ s) <;> exact List.mem_of_elem_eq_true rfl
  | tableStats => apply Reaches.execTableStats (.refl _ s) <;> exact List.mem_of_elem_eq_true rfl
  | emTableSet => apply Reaches.execEmTableSet (.refl _ s) <;> exact List.mem_of_elem_eq_true rfl
  | l2Config => apply Reaches.execL2Config (.refl _ s) <;> exact List.mem_of_elem_eq_true rfl
  | l2Flush => apply Reaches.execL2Flush (.refl _ s) <;> exact List.mem_of_elem_eq_true rfl
  | tableScrubConfig => apply Reaches.execTableScrubConfig (.refl _ s) <;> exact List.mem_of_elem_eq_true rfl
  | imageLoad => apply Reaches.execImageLoad (.refl _ s) <;> exact List.mem_of_elem_eq_true rfl
  | imageLoadDone => apply Reaches.execImageLoadDone (.refl _ s) <;> exact List.mem_of_elem_eq_true rfl
  | clusterLoad => apply Reaches.execClusterLoad (.refl _ s) <;> exact List.mem_of_elem_eq_true rfl
  | clusterDrain => apply Reaches.execClusterDrain (.refl _ s) <;> exact List.mem_of_elem_eq_true rfl
  | clusterDrainTimeout => apply Reaches.execClusterDrainTimeout (.refl _ s) <;> exact mem_everything _
  | clusterAdmit => apply Reaches.execClusterAdmit (.refl _ s) <;> exact List.mem_of_elem_eq_true rfl
  | coreRetire => apply Reaches.execCoreRetire (.refl _ s) <;> exact mem_everything _
  | coreRetireTimeout => apply Reaches.execCoreRetireTimeout (.refl _ s) <;> exact mem_everything _
  | coreConfig => apply Reaches.execCoreConfig (.refl _ s) <;> exact List.mem_of_elem_eq_true rfl
  | clusterConfig => apply Reaches.execClusterConfig (.refl _ s) <;> exact List.mem_of_elem_eq_true rfl
  | coreStats => apply Reaches.execCoreStats (.refl _ s) <;> exact List.mem_of_elem_eq_true rfl
  | orderConfig => apply Reaches.execOrderConfig (.refl _ s) <;> exact List.mem_of_elem_eq_true rfl
  | versionFence => apply Reaches.execVersionFence (.refl _ s) <;> exact List.mem_of_elem_eq_true rfl
  | domainStatus => apply Reaches.execDomainStatus (.refl _ s) <;> exact List.mem_of_elem_eq_true rfl
  | orderStats => apply Reaches.execOrderStats (.refl _ s) <;> exact List.mem_of_elem_eq_true rfl
  | helperControl => apply Reaches.execHelperControl (.refl _ s) <;> exact mem_everything _
  | lockGroupSet => apply Reaches.execLockGroupSet (.refl _ s) <;> exact List.mem_of_elem_eq_true rfl
  | lockForceRelease => apply Reaches.execLockForceRelease (.refl _ s) <;> exact List.mem_of_elem_eq_true rfl
  | taskConfig => apply Reaches.execTaskConfig (.refl _ s) <;> exact List.mem_of_elem_eq_true rfl
  | taskSignal => apply Reaches.execTaskSignal (.refl _ s) <;> exact mem_everything _
  | taskStatus => apply Reaches.execTaskStatus (.refl _ s) <;> exact List.mem_of_elem_eq_true rfl
  | channelStatus => apply Reaches.execChannelStatus (.refl _ s) <;> exact List.mem_of_elem_eq_true rfl
  | timeSource => apply Reaches.execTimeSource (.refl _ s) <;> exact List.mem_of_elem_eq_true rfl
  | timeStep => apply Reaches.execTimeStep (.refl _ s) <;> exact mem_everything _
  | timeStatus => apply Reaches.execTimeStatus (.refl _ s) <;> exact List.mem_of_elem_eq_true rfl
  | ppsOutConfig => apply Reaches.execPpsOutConfig (.refl _ s) <;> exact List.mem_of_elem_eq_true rfl
  | epochConfig => apply Reaches.execEpochConfig (.refl _ s) <;> exact List.mem_of_elem_eq_true rfl
  | ledgerInit => apply Reaches.execLedgerInit (.refl _ s) <;> exact List.mem_of_elem_eq_true rfl
  | ledgerInitDone => apply Reaches.execLedgerInitDone (.refl _ s) <;> exact List.mem_of_elem_eq_true rfl
  | ledgerRead => apply Reaches.execLedgerRead (.refl _ s) <;> exact List.mem_of_elem_eq_true rfl
  | ledgerReadDone => apply Reaches.execLedgerReadDone (.refl _ s) <;> exact List.mem_of_elem_eq_true rfl
  | ledgerAck => apply Reaches.execLedgerAck (.refl _ s) <;> exact List.mem_of_elem_eq_true rfl
  | ledgerFlushSet => apply Reaches.execLedgerFlushSet (.refl _ s) <;> exact List.mem_of_elem_eq_true rfl
  | ledgerInfo => apply Reaches.execLedgerInfo (.refl _ s) <;> exact List.mem_of_elem_eq_true rfl
  | ledgerStats => apply Reaches.execLedgerStats (.refl _ s) <;> exact List.mem_of_elem_eq_true rfl
  | bufferQuotaSet => apply Reaches.execBufferQuotaSet (.refl _ s) <;> exact List.mem_of_elem_eq_true rfl
  | queueSpillSet => apply Reaches.execQueueSpillSet (.refl _ s) <;> exact List.mem_of_elem_eq_true rfl
  | cisternConfig => apply Reaches.execCisternConfig (.refl _ s) <;> exact List.mem_of_elem_eq_true rfl
  | bufferReclaim => apply Reaches.execBufferReclaim (.refl _ s) <;> exact List.mem_of_elem_eq_true rfl
  | bufferStatus => apply Reaches.execBufferStatus (.refl _ s) <;> exact List.mem_of_elem_eq_true rfl
  | queueGroupSet => apply Reaches.execQueueGroupSet (.refl _ s) <;> exact List.mem_of_elem_eq_true rfl
  | queueConfig => apply Reaches.execQueueConfig (.refl _ s) <;> exact List.mem_of_elem_eq_true rfl
  | egressPortSet => apply Reaches.execEgressPortSet (.refl _ s) <;> exact List.mem_of_elem_eq_true rfl
  | wredProfileSet => apply Reaches.execWredProfileSet (.refl _ s) <;> exact List.mem_of_elem_eq_true rfl
  | pfcThresholdSet => apply Reaches.execPfcThresholdSet (.refl _ s) <;> exact List.mem_of_elem_eq_true rfl
  | mcGroupSet => apply Reaches.execMcGroupSet (.refl _ s) <;> exact List.mem_of_elem_eq_true rfl
  | mcMemberOpSet => apply Reaches.execMcMemberOpSet (.refl _ s) <;> exact List.mem_of_elem_eq_true rfl
  | queueFlush => apply Reaches.execQueueFlush (.refl _ s) <;> exact List.mem_of_elem_eq_true rfl
  | sumpConfig => apply Reaches.execSumpConfig (.refl _ s) <;> exact List.mem_of_elem_eq_true rfl
  | queueStats => apply Reaches.execQueueStats (.refl _ s) <;> exact List.mem_of_elem_eq_true rfl
  | sumpStats => apply Reaches.execSumpStats (.refl _ s) <;> exact List.mem_of_elem_eq_true rfl
  | powerPolicy => apply Reaches.execPowerPolicy (.refl _ s) <;> exact mem_everything _
  | powerStatus => apply Reaches.execPowerStatus (.refl _ s) <;> exact List.mem_of_elem_eq_true rfl
  | partReset => apply Reaches.execPartReset (.refl _ s) <;> exact mem_everything _
  | partResetDone => apply Reaches.execPartResetDone (.refl _ s) <;> exact List.mem_of_elem_eq_true rfl
  | wellEnable => apply Reaches.execWellEnable (.refl _ s) <;> exact List.mem_of_elem_eq_true rfl
  | faultLogRead => apply Reaches.execFaultLogRead (.refl _ s) <;> exact List.mem_of_elem_eq_true rfl
  | errorStats => apply Reaches.execErrorStats (.refl _ s) <;> exact List.mem_of_elem_eq_true rfl
  | debugHalt => apply Reaches.execDebugHalt (.refl _ s) <;> exact mem_everything _
  | debugResume => apply Reaches.execDebugResume (.refl _ s) <;> exact mem_everything _
  | debugStep => apply Reaches.execDebugStep (.refl _ s) <;> exact mem_everything _
  | debugBreakSet => apply Reaches.execDebugBreakSet (.refl _ s) <;> exact List.mem_of_elem_eq_true rfl
  | debugRead => apply Reaches.execDebugRead (.refl _ s) <;> exact List.mem_of_elem_eq_true rfl
  | debugWrite => apply Reaches.execDebugWrite (.refl _ s) <;> exact mem_everything _
  | traceConfig => apply Reaches.execTraceConfig (.refl _ s) <;> exact List.mem_of_elem_eq_true rfl
  | traceRead => apply Reaches.execTraceRead (.refl _ s) <;> exact List.mem_of_elem_eq_true rfl
  | debugDiscard => apply Reaches.execDebugDiscard (.refl _ s) <;> exact mem_everything _
  | attest => apply Reaches.execAttest (.refl _ s) <;> exact List.mem_of_elem_eq_true rfl
  | identityCert => apply Reaches.execIdentityCert (.refl _ s) <;> exact List.mem_of_elem_eq_true rfl
  | debugChallenge => apply Reaches.execDebugChallenge (.refl _ s) <;> exact List.mem_of_elem_eq_true rfl
  | debugUnlock => apply Reaches.execDebugUnlock (.refl _ s) <;> exact List.mem_of_elem_eq_true rfl
  | debugNonceExpiry => exact Reaches.execDebugNonceExpiry (.refl _ s) (List.mem_of_elem_eq_true rfl)
  | fwUpdate => apply Reaches.execFwUpdate (.refl _ s) <;> exact List.mem_of_elem_eq_true rfl
  | fwUpdateDone => apply Reaches.execFwUpdateDone (.refl _ s) <;> exact List.mem_of_elem_eq_true rfl
  | fwActivate => apply Reaches.execFwActivate (.refl _ s) <;> exact mem_everything _
  | fwConfirmTimeout => apply Reaches.execFwConfirmTimeout (.refl _ s) <;> exact List.mem_of_elem_eq_true rfl
  | cryptoKeySet => apply Reaches.execCryptoKeySet (.refl _ s) <;> exact List.mem_of_elem_eq_true rfl
  | hbmPartition => apply Reaches.execHbmPartition (.refl _ s) <;> exact List.mem_of_elem_eq_true rfl
  | hbmPartitionRead => apply Reaches.execHbmPartitionRead (.refl _ s) <;> exact List.mem_of_elem_eq_true rfl
  | hbmQosSet => apply Reaches.execHbmQosSet (.refl _ s) <;> exact List.mem_of_elem_eq_true rfl
  | hbmScrubConfig => apply Reaches.execHbmScrubConfig (.refl _ s) <;> exact List.mem_of_elem_eq_true rfl
  | hbmRepair => apply Reaches.execHbmRepair (.refl _ s) <;> exact List.mem_of_elem_eq_true rfl
  | hbmPcRetire => apply Reaches.execHbmPcRetire (.refl _ s) <;> exact List.mem_of_elem_eq_true rfl
  | hbmStats => apply Reaches.execHbmStats (.refl _ s) <;> exact List.mem_of_elem_eq_true rfl
  | phWatchdogExpiry => apply Reaches.execPhWatchdogExpiry (.refl _ s) <;> exact mem_everything _
  | phRestartDone => apply Reaches.execPhRestartDone (.refl _ s) <;> exact mem_everything _
  | unitFault => apply Reaches.execUnitFault (.refl _ s) <;> exact mem_everything _
  | coldPriming => apply Reaches.execColdPriming (.refl _ s) <;> exact mem_everything _
  | coldReset => apply Reaches.execColdReset (.refl _ s) <;> exact mem_everything _
  | brownOut => apply Reaches.execBrownOut (.refl _ s) <;> exact mem_everything _
  | hostPushGo => exact Reaches.execHostPushGo (.refl _ s) (List.mem_of_elem_eq_true rfl) _ _
  | hostPushDone => apply Reaches.execHostPushDone (.refl _ s) <;> exact mem_everything _
  | warmReset => apply Reaches.execWarmReset (.refl _ s) <;> exact mem_everything _
  | wrstRise => apply Reaches.execWrstRise (.refl _ s) <;> exact mem_everything _
  | powerFail => apply Reaches.execPowerFail (.refl _ s) <;> exact mem_everything _
  | powerFailFlushDone => apply Reaches.execPowerFailFlushDone (.refl _ s) <;> exact List.mem_of_elem_eq_true rfl
  | pwrfailRise => exact Reaches.execPwrfailRise (.refl _ s) (List.mem_of_elem_eq_true rfl)
  | classIdle => apply Reaches.execClassIdle (.refl _ s) <;> exact List.mem_of_elem_eq_true rfl
  | coreGateIdle => exact Reaches.execCoreGateIdle (.refl _ s) (List.mem_of_elem_eq_true rfl) _
  | clusterRetentionIdle => exact Reaches.execClusterRetentionIdle (.refl _ s) (List.mem_of_elem_eq_true rfl) _
  | clusterOffIdle => apply Reaches.execClusterOffIdle (.refl _ s) <;> exact List.mem_of_elem_eq_true rfl
  | clusterWakeDispatch => apply Reaches.execClusterWakeDispatch (.refl _ s) <;> exact List.mem_of_elem_eq_true rfl
  | prewake => apply Reaches.execPrewake (.refl _ s) <;> exact List.mem_of_elem_eq_true rfl
  | sensorRead => apply Reaches.execSensorRead (.refl _ s) <;> exact List.mem_of_elem_eq_true rfl
  | extest => apply Reaches.execExtest (.refl _ s) <;> exact mem_everything _
  | samplePreload => apply Reaches.execSamplePreload (.refl _ s) <;> exact List.mem_of_elem_eq_true rfl
  | idcode => exact Reaches.execIdcode (.refl _ s) (List.mem_of_elem_eq_true rfl)
  | clampJ => apply Reaches.execClampJ (.refl _ s) <;> exact mem_everything _
  | highz => apply Reaches.execHighz (.refl _ s) <;> exact mem_everything _
  | extestPulse => apply Reaches.execExtestPulse (.refl _ s) <;> exact mem_everything _
  | extestTrain => apply Reaches.execExtestTrain (.refl _ s) <;> exact mem_everything _
  | bypass => exact Reaches.execBypass (.refl _ s) (List.mem_of_elem_eq_true rfl)
  | boundaryScanExit => apply Reaches.execBoundaryScanExit (.refl _ s) <;> exact mem_everything _
  | debugAccess => apply Reaches.execDebugAccess (.refl _ s) <;> exact mem_everything _
  | otpProg => exact Reaches.execOtpProg (.refl _ s) (List.mem_of_elem_eq_true rfl) _
  | tapReset => exact Reaches.execTapReset (.refl _ s) (List.mem_of_elem_eq_true rfl)
  | rxWhileDown => apply Reaches.execRxWhileDown (.refl _ s) <;> exact List.mem_of_elem_eq_true rfl
  | shaperTokensReturn => exact Reaches.execShaperTokensReturn (.refl _ s) (List.mem_of_elem_eq_true rfl) _
  | brownOutRecovery => exact Reaches.execBrownOutRecovery (.refl _ s) (List.mem_of_elem_eq_true rfl)
  | hostLinkUp => exact Reaches.execHostLinkUp (.refl _ s) (List.mem_of_elem_eq_true rfl) _
  | storeBufferDrain => apply Reaches.execStoreBufferDrain (.refl _ s) <;> exact List.mem_of_elem_eq_true rfl

theorem leavesAlone_of_reaches {i : Instr} {s u : State} (h : Reaches (partsOf i) s u) : Claims.leavesAlone i s u
    := by
  have only : u = s.patch (partsOf i) u := h.eq_patch
  cases i with
  | dtNowRead | trefQualified | trefLoss | ppsOutRise | ppsOutFall | timebaseSwitchback | fifoBankSwap
  | fragEntryExpiry | parserResetDone | laneRecalDone | linkReturn | trainingDone | trainingRetry | moduleScan
  | moduleLowpwrPoll | logRecordAck | sizedPoolAlloc | rebuildRetry | pauseExpiry | spillChoose | pumpResetDone
  | shaperTokensReturn | coreGateIdle | clusterRetentionIdle | rowTimeout | refreshDue | pcPowerDown |
      stackSelfRefresh
  | timingTrack | tempRetrain | pwrfailRise | emOverlayRetire | lpmRebuildDone | sealResidualsDone | recordDigestDone
  | cmdDoorbell | rspHeadWrite | leaseHeartbeatWrite | dciRingDisable | puntRingEnable | puntRxPost | puntTxDoorbell
  | hostLinkUp | debugNonceExpiry | hostPushGo | idcode | bypass | otpProg | tapReset | brownOutRecovery | rxWhileDown
  | pfcResend | commandFetch | eseqAckWrite | dciRingEnable | intModExpiry | refclkReturn | learnNoticeSend
  | l2NoticeApply | l2AgingSweep | cutThroughStart | delayTick | cacheMaintDone | starveGrant | hbmRequest | tblInsert
  | tblUpdate | tblDelete | tblLookup | tblReadIndex | tblWriteIndex | tblDigestBlock | tblCmdDone | emOverlayDecide
  | samplePreload | graphSwitchTimeout | tableBatchDone | digestScrubBlock | ledgerReadDone | leaseExpiry | refillRead
  | storeBufferDrain | clusterOffIdle | clusterWakeDispatch | holdoverExpiry | parseStart | quiesceFall | quiesceRise
  | trainingTimeout | flapSuppressExpiry | moduleIdPoll | modulePagesRead | moduleDiscoveryTimeout | moduleInt
  | i2cBusRecovery | walUncorrectable | orderStallTimer | holdTimeExpiry | partResetDone | imageLoadDone | hbmTempRead
  | epochClose | epochSeal | ledgerInitDone | fwUpdateDone | fwConfirmTimeout | nopC | deviceInfo | leaseClaim
  | leaseRelease | leaseConfig | portStatus | moduleStatus | intakeStats | tableStats | coreStats | domainStatus
  | orderStats | taskStatus | channelStatus | ledgerInfo | ledgerStats | queueStats | sumpStats | powerStatus
  | faultLogRead | errorStats | debugRead | traceRead | attest | identityCert | hbmPartitionRead | hbmStats
  | writebackAck | classIdle | prewake | ptpLossTimeout | ppsInMissing | timeStatus | ppsOutConfig |
      linkDebounceExpiry
  | l2TriggerApply | portConfig | portEnable | portDisable | moduleMap | moduleAccess | ecidMapSet | sluice | unsluice
  | parseGraphLoad | parseGraphCommit | hashProfileSet | hashKeySet | indirectionSet | wellEnable | puntRingDisable
  | orderConfig | versionFence | basinRebuildDone | aggregateWriteAck | bufferQuotaSet | bufferStatus
  | cisternShrinkDone | queueSpillSet | queueGroupSet | queueConfig | egressPortSet | wredProfileSet | pfcThresholdSet
  | mcGroupSet | mcMemberOpSet | queueFlush | sumpConfig | coreConfig | taskConfig | debugBreakSet | traceConfig
  | lockGroupSet | cryptoKeySet | granuleCopyDone | hbmQosSet | hbmScrubConfig | hbmRepair | tableBatch | tableRead
  | emTableSet | l2Flush | tableScrubConfig | recordSignDone | epochConfig | ledgerInit | ledgerRead | ledgerAck
  | ledgerFlushSet | deviceReset | imageLoad | debugChallenge | debugUnlock | fwUpdate | ptpMessageRx | ppsInEdge
  | timeSource | linkHoldoffExpiry | l2Config | pumpSelect | puntRxDeliver | bufferReclaim | retireDrainDone
  | retireWaitExpiry | cisternConfig | hbmPartition | hbmPcRetire | clusterConfig | clusterAdmit | powerFailFlushDone
  | fragHoldTimeout | sensorRead | flushWalk | deadlockDetect | waitevWake | joinWake | chgetWake | chputReserveWake
  | orderEnterWake | clusterDrain | lockForceRelease | clusterLoad | hbmIssue | pendingStoreRoom => exact only
  | _ => trivial

/-- Every step is safe, and leaves the queue without its front command. -/
theorem step_cases (s : State) : ∃ u, step s = .next u ∧ u.pending = s.pending.tail ∧ s.safeTo u := by
  unfold step
  split
  · rename_i idle
    have reached : Reaches everything s (s.tick Config.slowGrade) := by
      apply Reaches.tick (.refl _ s) <;> exact mem_everything _
    exact ⟨_, rfl, by rw [reached.pending, idle]; rfl, reached.safe⟩
  · rename_i i rest queued
    obtain ⟨u, next, reached⟩ := exec_completes i { s with pending := rest }
    exact ⟨u, next, by rw [reached.pending, queued]; rfl, reached.safe.mem, reached.safe.log, reached.safe.otp⟩

/-- Settles O58: each step is safe, by the frame of every command. -/
theorem soundStep : Obligations.SoundStep := by
  intro s u ⟨mem, log⟩ stepped
  obtain ⟨v, next, -, safe⟩ := step_cases s
  cases stepped.symm.trans next
  exact ⟨⟨safe.mem mem, safe.log log⟩, safe.otp⟩

/-- Settles O60: no function of the model writes the queue, and a step takes its front. -/
theorem neverStops : Obligations.NeverStops := by
  refine ⟨fun i s => ?_, fun s => ?_⟩
  · obtain ⟨u, next, reached⟩ := exec_completes i s
    exact ⟨u, next, reached.pending⟩
  · obtain ⟨u, next, queue, -⟩ := step_cases s
    exact ⟨u, next, queue⟩

/-- Settles O59: the frame of each command, with the parts that the claim names. -/
theorem otherPartsAreLeft : Obligations.OtherPartsAreLeft := fun i s => by
  obtain ⟨u, next, reached⟩ := exec_completes i s
  exact ⟨u, next, leavesAlone_of_reaches reached⟩

end Sys2Proof.Machine
end

section
/-!
PROOFS. The host interface: reset, which commands each device state reads, the journal of accepted commands, and the lease
(O54-O57, O42, O44).
-/

namespace Sys2Proof.Machine

/-! ### Reset and the step -/

/-- Settles O57. -/
theorem soundAtReset : Obligations.SoundAtReset := ⟨rfl, Nat.zero_le _⟩

/-- Settles O55, by the two branches of `step`. -/
theorem stepRunsFront : Obligations.StepRunsFront :=
  ⟨fun s i rest queued => by rw [step, queued], fun s idle => by rw [step, idle]⟩

/-- Settles O56: every table is empty at reset, so each entry is its default. -/
theorem resetState : Obligations.ResetState :=
  ⟨rfl, rfl, rfl, rfl, fun _ => ⟨rfl, rfl⟩, fun _ => rfl, fun _ => ⟨rfl, rfl, rfl, rfl⟩, fun _ => ⟨rfl, rfl⟩, rfl, rfl, rfl,
    fun _ _ => ite_self _, fun _ => rfl⟩

/-! ### What events and responses leave of the host interface (R485, R486, R498) -/

/-- The host interface without its two functions' registers. -/
def DciSt.central (d : DciSt) : DciSt := { d with fnA := {}, fnB := {} }

theorem DciSt.lease_of_central {d e : DciSt} (h : d.central = e.central) : d.lease = e.lease := congrArg (·.lease) h

theorem DciSt.journal_of_central {d e : DciSt} (h : d.central = e.central) : d.journal = e.journal := congrArg (·.journal) h

theorem DciSt.st_of_central {d e : DciSt} (h : d.central = e.central) : d.st = e.st := congrArg (·.st) h

@[simp] theorem State.updFn_central (s : State) (f : HostFn) (g : FnSt → FnSt) :
    (s.updFn f g).dci.central = s.dci.central := by
  cases f <;> rfl

@[simp] theorem State.irq_central (s : State) (f : HostFn) (k : Nat) : (s.irq f k).dci.central = s.dci.central := by
  have sent (v : Nat) : (s.sendVector f v).dci.central = s.dci.central := by
    unfold State.sendVector
    split
    · exact s.updFn_central f _
    · rfl
  unfold State.irq
  dsimp only
  split
  · rfl
  · split
    · exact s.updFn_central f _
    · rw [State.updFn_central, sent]

@[simp] theorem State.hostWrite_central (s : State) (f : HostFn) (a : Nat) (bs : List Byte) :
    (s.hostWrite f a bs).dci.central = s.dci.central := rfl

theorem State.issueEvent_central (s : State) (f : HostFn) (code : Nat) (dt : W64) (body : List Byte) :
    (s.issueEvent f code dt body).dci.central = s.dci.central := by
  unfold State.issueEvent State.putEvent
  dsimp only
  split
  · simp
  · split <;> simp

theorem State.eventOn_central (s : State) (f : HostFn) (code : Nat) (dt : W64) (body : List Byte) :
    (s.eventOn f code dt body).dci.central = s.dci.central := by
  have lost : (s.lostEvent f).dci.central = s.dci.central := by
    unfold State.lostEvent
    dsimp only
    split
    · rw [State.updFn_central, State.issueEvent_central]
    · rfl
  unfold State.eventOn
  dsimp only
  split
  · rw [State.issueEvent_central, lost]
  · rw [State.updFn_central, lost]

@[simp] theorem State.event_central (s : State) (code : Nat) (fields : List (Nat × Nat)) :
    (s.event code fields).dci.central = s.dci.central := by
  have logged (x : State) (dt : W64) (body : List Byte) : (x.logEvent code dt body).dci = x.dci := by
    unfold State.logEvent
    split <;> rfl
  unfold State.event
  rw [logged]
  exact State.foldl_keeps (·.dci.central) _ (fun x f => x.eventOn_central f _ _ _) _ _

@[simp] theorem State.leaseChange_lease (s : State) (cause : Nat) : (s.leaseChange cause).dci.lease = s.dci.lease :=
  DciSt.lease_of_central (s.event_central _ _)

theorem State.putRsp_central (s : State) (f : HostFn) (cseq : W32) (op status : Nat) (tag : BitVec 16) (orig flags : Nat)
    (detail : W32) (result : List Byte) :
    (s.putRsp f cseq op status tag orig flags detail result).dci.central = s.dci.central := by
  unfold State.putRsp
  dsimp only
  split
  · simp
  · rfl

/-- What a response leaves of a function's registers. -/
structure FnSt.sameQueue (x y : FnSt) : Prop where
  cseq : y.cseq = x.cseq
  cmdHead : y.cmdHead = x.cmdHead

theorem State.irq_sameQueue (s : State) (f : HostFn) (k : Nat) (g : HostFn) : (s.fn g).sameQueue ((s.irq f k).fn g) :=
  have steady := (s.irq_eventKept f k).steady g
  ⟨(congrArg FnSt.cseq steady :), (congrArg FnSt.cmdHead steady :)⟩

theorem State.putRsp_fn (s : State) (f : HostFn) (cseq : W32) (op status : Nat) (tag : BitVec 16) (orig flags : Nat)
    (detail : W32) (result : List Byte) (g : HostFn) :
    (s.fn g).sameQueue ((s.putRsp f cseq op status tag orig flags detail result).fn g) := by
  unfold State.putRsp
  dsimp only
  split
  · obtain ⟨cseq, head⟩ := State.irq_sameQueue ((s.hostWrite f _ _).updFn f _) f 0 g
    refine ⟨cseq.trans ?_, head.trans ?_⟩
    all_goals
      rw [State.fn_updFn, State.fn_hostWrite, State.fn_hostWrite]
      split
      · next same => rw [same]
      · rfl
  · exact ⟨rfl, rfl⟩

/-! ### The journal (R485, R489) -/

/-- A change of a command's entry that leaves the entry's name is what the journal then holds for it. -/
theorem State.jcmd_updJ {s : State} {c : CmdRef} {j : JCmd} {g : JCmd → JCmd} (h : s.jcmd c = some j)
    (named : ∀ x, CmdRef.isFor c (g x) = CmdRef.isFor c x) : (s.updJ c g).jcmd c = some (g j) := by
  have cond : (fun x => CmdRef.isFor c x) ∘ (fun x => if CmdRef.isFor c x then g x else x) = fun x => CmdRef.isFor c x := by
    funext x
    by_cases isFor : CmdRef.isFor c x <;> simp [isFor, named]
  have found : CmdRef.isFor c j = true := List.find?_some (p := fun x => CmdRef.isFor c x) h
  show (s.dci.journal.map _).find? _ = _
  rw [List.find?_map, cond]
  show (s.jcmd c).map _ = _
  rw [h, Option.map_some, if_pos found]

theorem State.jcmd_of_central {s u : State} (h : u.dci.central = s.dci.central) (c : CmdRef) : u.jcmd c = s.jcmd c := by
  rw [State.jcmd, DciSt.journal_of_central h]
  rfl

/-! ### Answers (R485, R489, R498) -/

/-- A command in the inline form with a result that fits is answered with it. -/
theorem State.answer_inline {s : State} {c : CmdRef} {j : JCmd} (h : s.jcmd c = some j) (open' : j.resp = none)
    (ready : s.dci.st = .ready) (inline : j.e.flags.getLsbD 1 = false) (alone : j.dups = []) (st d : Nat) (r : List Byte) :
    (s.answer c (.reply st d r [])).jcmd c
      = some { j with resp := some ⟨st, BitVec.ofNat 32 d, slice r 0 40, false, j.rerun⟩, dups := [] } := by
  have live : ¬(s.dci.st = .phRestart ∨ j.resp.isSome = true) := by simp [ready, open']
  have fits : j.tooLong r = false := by rw [JCmd.tooLong, inline]; rfl
  simp only [State.answer, State.finish, h, if_neg live, alone, List.foldl_nil]
  rw [State.jcmd_of_central (State.putRsp_central ..)]
  simp only [inline, fits, Bool.false_and, Bool.false_eq_true, if_false, List.append_nil]
  exact State.jcmd_updJ h fun _ => rfl

/-- A command that has its response takes no second one. -/
theorem State.answer_again {s : State} {c : CmdRef} {j : JCmd} (h : s.jcmd c = some j) (answered : j.resp.isSome = true)
    (st d : Nat) (r tail : List Byte) : s.answer c (.reply st d r tail) = s := by
  simp [State.answer, State.finish, h, answered]

theorem State.command_in_fault {s : State} {c : CmdRef} {op : Nat} {fields : List (Nat × Nat)} (fault : s.dci.st = .fault)
    (due : s.cmdDue c op fields = true) (fenced : s.faults.fenced = []) (body : State → State × Ans) :
    s.command c op fields body = .next (if op ≠ 0x0105 ∧ readClass op (layout fields) = false then s.answer c faulted
      else (if s.tooLong c (body s).2 then s else (body s).1).answer c (body s).2) := by
  have notice : s.fenceNotice op (layout fields) = s := by
    unfold State.fenceNotice
    split
    · simp [fenced]
    · rfl
  unfold State.command
  rw [if_pos due, notice]
  simp only [fault, true_and, Bool.not_eq_true', done]
  split <;> rfl

/-- Settles O54: no command is fetched in the three states, and in FAULT the wrapper of every command asks for its class. -/
theorem commandsByDeviceState : Obligations.CommandsByDeviceState := by
  refine ⟨fun s f e closed => ⟨?_, fun v reach => ⟨_, if_pos reach, s.fn_updFn_self f _, ?_⟩⟩, ?_⟩
  · have unread : s.canFetch f = false := by
      rcases closed with h | h | h <;> simp [State.canFetch, h]
    show execCommandFetch f e s = _
    simp [execCommandFetch, unread, done]
  · exact DciSt.journal_of_central (s.updFn_central f _)
  · intro s c op fields body fault due fenced
    rw [State.command_in_fault fault due fenced body]
    refine ⟨fun other write => by rw [if_pos ⟨other, write⟩]; rfl, fun allowed fits => ?_⟩
    have executed : ¬(op ≠ 0x0105 ∧ readClass op (layout fields) = false) := by
      rcases allowed with h | h <;> simp [h]
    rw [if_neg executed, fits]
    rfl

/-! ### The fetch of a command (R483, R490, R495) -/

/-- The state after the head has moved past an entry. -/
def State.headPast (s : State) (f : HostFn) : State := s.updFn f fun x => { x with cmdHead := x.cmdHead + 1 }

theorem State.headPast_central (s : State) (f : HostFn) : (s.headPast f).dci.central = s.dci.central := s.updFn_central f _

theorem State.headPast_fn (s : State) (f : HostFn) : (s.headPast f).fn f = { s.fn f with cmdHead := (s.fn f).cmdHead + 1 } :=
  s.fn_updFn_self f _

theorem State.headPast_jcmd (s : State) (f : HostFn) (c : CmdRef) : (s.headPast f).jcmd c = s.jcmd c :=
  State.jcmd_of_central (s.headPast_central f) c

theorem State.headPast_mine (s : State) (f : HostFn) : (s.headPast f).mine f = s.mine f := by
  rw [State.mine, DciSt.lease_of_central (s.headPast_central f)]
  rfl

/-- An entry outside the order and a repeated one only move the head: a response says what became of it. -/
structure State.fetchedOnly (s u : State) (f : HostFn) : Prop where
  journal : u.dci.journal = s.dci.journal
  cseq : (u.fn f).cseq = (s.fn f).cseq
  head : (u.fn f).cmdHead = (s.fn f).cmdHead + 1

theorem State.putRsp_fetchedOnly (s : State) (f : HostFn) (cseq : W32) (op status : Nat) (tag : BitVec 16) (orig flags : Nat)
    (detail : W32) (result : List Byte) :
    s.fetchedOnly ((s.headPast f).putRsp f cseq op status tag orig flags detail result)
      f := by
  have fn := (s.headPast f).putRsp_fn f cseq op status tag orig flags detail result f
  rw [State.headPast_fn] at fn
  exact ⟨DciSt.journal_of_central ((State.putRsp_central ..).trans (s.headPast_central f)), fn.cseq, fn.cmdHead⟩

/-- What a fetch does with an entry that it may read. -/
theorem execCommandFetch_can {s : State} {f : HostFn} (can : s.canFetch f = true) (e : CmdEntry) :
    exec (.commandFetch f e) s =
      if (e.cseq - (s.fn f).cseq).toNat = 1 then .next ((s.headPast f).accept f e)
      else if (e.cseq - (s.fn f).cseq).toNat = 0 ∨ 4294967296 - 255 ≤ (e.cseq - (s.fn f).cseq).toNat then
        match (s.headPast f).jcmd ⟨f, e.cseq⟩ with
        | some j => match j.resp with
          | some r => .next ((s.headPast f).putDup j r e.tag)
          | none => .next ((s.headPast f).updJ ⟨f, e.cseq⟩ fun y => { y with dups := y.dups ++ [e.tag] })
        | none => .next ((s.headPast f).putRsp f e.cseq e.opcode 1 e.tag 0 0 0 [])
      else .next ((s.headPast f).putRsp f e.cseq e.opcode 2 e.tag 0 0 ((s.fn f).cseq + 1) []) := by
  show execCommandFetch f e s = _
  unfold execCommandFetch
  rw [can]
  rfl

theorem execCommandFetch_next {s : State} {f : HostFn} {e : CmdEntry} (can : s.canFetch f = true)
    (next : e.cseq = (s.fn f).cseq + 1) :
    exec (.commandFetch f e) s = .next ((s.headPast f).accept f e) := by
  simp [execCommandFetch_can can, next]

/-- The journal's new entry for a command that is read now. -/
def State.newEntry (s : State) (f : HostFn) (e : CmdEntry) : JCmd :=
  ⟨f, e, s.mine f, false, false, none, [], s.guardOf e.opcode (entryPayload e)⟩

/-- The state in which a command that is read now waits. -/
def State.entered (s : State) (f : HostFn) (e : CmdEntry) : State :=
  let s1 := (((s.updFn f fun x => { x with cseq := e.cseq }).updDci fun d => { d with
    journal := d.journal ++ [s.newEntry f e] }).trimJournal f)
  if s.mine f then s1.renew else s1

/-- What accepting an entry does: it waits, or it is refused at once. -/
theorem State.accept_eq (s : State) (f : HostFn) (e : CmdEntry) : s.accept f e =
    match catOf e.opcode with
    | none => (s.entered f e).answer ⟨f, e.cseq⟩ unsupported
    | some r =>
      if (r.need = .lease || (r.need = .writeLease && (entryPayload e).getD 5 0 ≠ 0)) && !s.mine f then
        (s.entered f e).answer ⟨f, e.cseq⟩ (.status 3)
      else if !wellFormedEntry r e then (s.entered f e).answer ⟨f, e.cseq⟩ badArg
      else s.entered f e := by
  rfl

theorem State.accept_allowed {s : State} {f : HostFn} {e : CmdEntry} {r : Cat} (known : catOf e.opcode = some r)
    (allowed : s.mine f = true ∨ r.need = .read) (formed : wellFormedEntry r e = true) : s.accept f e = s.entered f e := by
  have free : ((r.need = .lease || (r.need = .writeLease && (entryPayload e).getD 5 0 ≠ 0)) && !s.mine f) = false := by
    rcases allowed with h | h
    · rw [h, Bool.not_true, Bool.and_false]
    · simp [h]
  rw [State.accept_eq, known]
  simp only [free, formed, Bool.not_true, Bool.false_eq_true, if_false]

/-- The entry that waits is found by its name. -/
theorem State.entered_jcmd {s : State} {f : HostFn} {e : CmdEntry} (fresh : s.jcmd ⟨f, e.cseq⟩ = none) :
    (s.entered f e).jcmd ⟨f, e.cseq⟩ = some (s.newEntry f e) := by
  have new : (CmdRef.isFor ⟨f, e.cseq⟩ (s.newEntry f e)) = true := by simp [CmdRef.isFor, State.newEntry]
  have old : ∀ j ∈ s.dci.journal, CmdRef.isFor ⟨f, e.cseq⟩ j = false := by simpa [State.jcmd] using fresh
  have entered : (s.entered f e).dci.journal = ((s.updFn f fun x => { x with cseq := e.cseq }).dci.journal ++
      [s.newEntry f e]).filter fun j =>
        j.fn ≠ f || j.resp.isNone || decide ((((s.entered f e).fn f).cseq - j.e.cseq).toNat < 256) := by
    unfold State.entered
    dsimp only
    split <;> rfl
  rw [State.jcmd, entered, DciSt.journal_of_central (s.updFn_central f _), List.find?_filter, List.find?_append,
    List.find?_eq_none.2 fun j hj => by simp [old j hj]]
  have unanswered : (s.newEntry f e).resp = none := rfl
  simp [new, unanswered]

theorem State.entered_fn (s : State) (f : HostFn) (e : CmdEntry) : (s.entered f e).fn f = { s.fn f with cseq := e.cseq } := by
  unfold State.entered
  dsimp only
  split
  all_goals exact s.fn_updFn_self f _

/-- Settles O42: an answer writes the command's response into the journal, and a fetch appends what is next in sequence. -/
theorem commandProtocol : Obligations.CommandProtocol := by
  refine ⟨fun s c j known unanswered ready inline alone => ⟨fun st d r _ => ?_, _, ?_, rfl⟩,
    fun s f e can => ⟨fun r next fresh cat allowed formed => ?_, fun early late => ?_, fun j r same known answered => ?_⟩⟩
  · have answered := State.answer_inline known unanswered ready inline alone st d r
    exact ⟨_, answered, rfl, fun b => State.answer_again answered rfl ..⟩
  · exact State.jcmd_updJ known fun _ => rfl
  · have waits : (s.headPast f).accept f e = (s.headPast f).entered f e :=
      State.accept_allowed cat (allowed.imp_left (s.headPast_mine f).trans) formed
    refine ⟨_, (s.headPast f).newEntry f e, waits ▸ execCommandFetch_next can next, ?_⟩
    rw [State.entered_fn, State.headPast_fn]
    exact ⟨rfl, rfl, State.entered_jcmd ((s.headPast_jcmd f _).trans fresh), rfl, rfl, rfl⟩
  · have kept := s.putRsp_fetchedOnly f e.cseq e.opcode 2 e.tag 0 0 ((s.fn f).cseq + 1) []
    refine ⟨_, ?_, kept.journal, kept.cseq, kept.head⟩
    rw [execCommandFetch_can can, if_neg (by omega), if_neg (by omega)]
  · have named : j.fn = f := by
      have isFor := List.find?_some (p := fun x => CmdRef.isFor ⟨f, e.cseq⟩ x) known
      simp only [CmdRef.isFor, Bool.and_eq_true, decide_eq_true_eq] at isFor
      exact isFor.1
    have kept := s.putRsp_fetchedOnly f j.e.cseq j.e.opcode 1 e.tag r.status (2 * r.outWritten.toNat + 4 * r.repeated.toNat)
      r.detail r.result
    refine ⟨_, ?_, kept.journal, kept.cseq, kept.head⟩
    simp only [execCommandFetch_can can, same, s.headPast_jcmd, same ▸ known, answered, State.putDup, named]
    simp

/-! ### The lease and the other control commands (R479, R492, R493, R527) -/

section
variable {s : State} {c : CmdRef}

theorem leaseClaim_free (h : s.accepts c 0x0102 []) (free : s.dci.lease.holder = none ∨ s.dci.lease.expired = true) :
    let a := Ans.data (s.claimResult (s.dci.lease.gen + 1) s.dci.lease.holder)
    s.tooLong c a = false → ∃ u : State, exec (.leaseClaim c) s = .next (u.answer c a)
      ∧ u.dci.lease.holder = some c.fn ∧ u.dci.lease.gen = s.dci.lease.gen + 1 ∧ u.dci.lease.expired = false
      ∧ u.dci.lease.deadline = s.dt + 1000000 * s.dci.lease.timeoutMs := by
  intro a fits
  have free' : s.dci.lease.holder.isNone = true ∨ s.dci.lease.expired = true := free.imp_left fun none => by simp [none]
  refine ⟨_, State.command_answers h (if_pos free') fits, ?_⟩
  rw [State.leaseChange_lease]
  exact ⟨rfl, rfl, rfl, rfl⟩

theorem leaseClaim_again (h : s.accepts c 0x0102 []) (mine : s.dci.lease.holder = some c.fn)
    (live : s.dci.lease.expired = false) :
    let a := Ans.data (s.claimResult s.dci.lease.gen s.dci.lease.holder)
    s.tooLong c a = false → ∃ u : State, exec (.leaseClaim c) s = .next (u.answer c a)
      ∧ u.dci.lease = { s.dci.lease with deadline := s.dt + 1000000 * s.dci.lease.timeoutMs } := by
  intro a fits
  have body : leaseClaimBody c.fn s = (s.renew, a) := by simp [leaseClaimBody, mine, live, a]
  exact ⟨_, State.command_answers h body fits, rfl⟩

theorem leaseClaim_busy (h : s.accepts c 0x0102 []) {g : HostFn} (held : s.dci.lease.holder = some g)
    (live : s.dci.lease.expired = false) (other : g ≠ c.fn) : Claims.refusedWith s (.leaseClaim c) c 7 :=
  State.command_status h (by simp [leaseClaimBody, held, live, other, busy])

theorem leaseRelease_mine (h : s.accepts c 0x0103 []) (mine : s.mine c.fn = true) :
    Claims.answersOk s (.leaseRelease c) c fun u => u.dci.lease.holder = none ∧ u.dci.lease.gen = s.dci.lease.gen := by
  refine ⟨_, State.command_ok h (if_pos mine), ?_⟩
  beta_reduce
  rw [State.leaseChange_lease]
  exact ⟨rfl, rfl⟩

theorem leaseRelease_other (h : s.accepts c 0x0103 []) (other : s.mine c.fn = false) :
    Claims.answersOk s (.leaseRelease c) c fun u => u = s :=
  ⟨s, State.command_ok h (by simp [leaseReleaseBody, other]), rfl⟩

theorem leaseConfig_sets {ms : Nat} (h : s.accepts c 0x0104 [(4, ms)]) (low : 1000 ≤ ms) (high : ms ≤ 60000) :
    Claims.answersOk s (.leaseConfig c ms) c fun u =>
      u.dci.lease.timeoutMs = ms ∧ u.dci.lease.holder = s.dci.lease.holder := by
  have inRange : ¬(ms < 1000 ∨ 60000 < ms) := by omega
  by_cases same : ms = s.dci.lease.timeoutMs
  · exact ⟨s, State.command_ok h (by rw [leaseConfigBody, if_neg inRange, if_pos same]), same.symm, rfl⟩
  · refine ⟨_, State.command_ok h ((if_neg inRange).trans (if_neg same)), ?_⟩
    beta_reduce
    rw [State.leaseChange_lease]
    split <;> exact ⟨rfl, rfl⟩

theorem leaseConfig_refuses {ms : Nat} (h : s.accepts c 0x0104 [(4, ms)]) (out : ms < 1000 ∨ 60000 < ms) :
    Claims.refusedWith s (.leaseConfig c ms) c 4 :=
  State.command_status h (if_pos out)

end

theorem leaseExpiry_expires {s : State} (held : s.dci.lease.holder.isSome = true) (live : s.dci.lease.expired = false)
    (running : s.dci.lease.frozen = none) (late : s.dci.lease.deadline ≤ s.dt) :
    ∃ u, exec .leaseExpiry s = .next u ∧ u.dci.lease = { s.dci.lease with expired := true } :=
  ⟨_, if_pos ⟨held, by simp [live], by simp [running], late⟩, State.leaseChange_lease _ 2⟩

/-- Settles O44, command by command: an event of the lease's change leaves the lease as it was set. -/
theorem leaseAndControl : Obligations.LeaseAndControl := fun _ _ =>
  ⟨fun h => State.command_ok (body := fun s => (s, .ok)) h rfl, fun h => State.command_reads h rfl,
    fun h => ⟨leaseClaim_free h, leaseClaim_again h, fun _ => leaseClaim_busy h⟩,
    fun h => ⟨leaseRelease_mine h, leaseRelease_other h⟩,
    fun _ h => ⟨leaseConfig_sets h, leaseConfig_refuses h⟩,
    leaseExpiry_expires, fun h => ⟨_, State.command_ok h rfl, rfl, rfl⟩⟩

end Sys2Proof.Machine
end

section
/-!
PROOFS. O41: the egress commands (R404-R406, R415, R417, R418, R425, R428, R429). Each setter writes one entry of one egress
table; the rest of the state is untouched by construction.
-/

namespace Sys2Proof.Machine

/-- A shaper is left alone when nothing changes; either way it holds the two values. -/
theorem Shaper.configured (x : Shaper) (now rate burst : Nat) :
    let y := if x.rate = rate ∧ x.burst = burst then x else x.config now rate burst
    y.rate = rate ∧ y.burst = burst := by
  intro y
  by_cases same : x.rate = rate ∧ x.burst = burst
  · rw [show y = x from if_pos same]
    exact same
  · rw [show y = x.config now rate burst from if_neg same]
    exact ⟨rfl, rfl⟩

theorem burstOk_of_range {burst : Nat} (low : 64 ≤ burst) (high : burst ≤ 16777215) : burstOk burst = true := by
  simp [burstOk, low, high]

section
variable {s : State} {c : CmdRef}

theorem queueGroupSet_sets {g p w : Nat} {sp : Byte} {rate burst : Nat}
    (h : s.accepts c 0x0705 [(2, g), (2, p), (1, w), (1, sp.toNat), (4, rate), (4, burst)]) (hg : g ≤ 8191)
    (hp : p ≤ 1023 ∨ p = 0xFFFF) (low : 1 ≤ w) (high : w ≤ 255) (blow : 64 ≤ burst) (bhigh : burst ≤ 16777215)
    (idle : p = (s.group g).port ∨ s.groupHolds g = false) :
    Claims.answersOk s (.queueGroupSet c g p w sp rate burst) c fun u => (u.group g).port = p ∧ (u.group g).weight = w
      ∧ (u.group g).spMask = sp ∧ (u.group g).shaper.rate = rate ∧ (u.group g).shaper.burst = burst
      ∧ u = { s with egress := u.egress } := by
  have good : ¬(8191 < g ∨ (1023 < p ∧ p ≠ 0xFFFF) ∨ w = 0 ∨ 255 < w ∨ (!burstOk burst) = true) := by
    simp only [burstOk_of_range blow bhigh, Bool.not_true, Bool.false_eq_true, or_false]
    omega
  have movable : ¬(p ≠ (s.group g).port ∧ s.groupHolds g = true) := by
    rcases idle with h | h <;> simp [h]
  obtain ⟨hrate, hburst⟩ := (s.group g).shaper.configured s.dt rate burst
  refine ⟨_, State.command_ok h ((if_neg good).trans (if_neg movable)), ?_⟩
  beta_reduce
  rw [State.setGroup_group]
  exact ⟨rfl, rfl, rfl, hrate, hburst, rfl⟩

theorem queueConfig_sets {q qm w wr rate burst : Nat}
    (h : s.accepts c 0x0706 [(2, q), (4, qm), (1, w), (1, wr), (4, rate), (4, burst)]) (hq : q ≤ 65535) (hm : qm ≤ 1048575)
    (low : 1 ≤ w) (high : w ≤ 255) (hwr : wr ≤ 255) (blow : 64 ≤ burst) (bhigh : burst ≤ 16777215) :
    Claims.answersOk s (.queueConfig c q qm w wr rate burst) c fun u => (u.queue q).qmax = qm ∧ (u.queue q).weight = w
      ∧ (u.queue q).wred = wr ∧ (u.queue q).shaper.rate = rate ∧ (u.queue q).shaper.burst = burst
      ∧ (u.queue q).head = (s.queue q).head ∧ u = { s with egress := u.egress } := by
  have good : ¬(65535 < q ∨ 1048575 < qm ∨ w = 0 ∨ 255 < w ∨ 255 < wr ∨ (!burstOk burst) = true) := by
    simp only [burstOk_of_range blow bhigh, Bool.not_true, Bool.false_eq_true, or_false]
    omega
  obtain ⟨hrate, hburst⟩ := (s.queue q).shaper.configured s.dt rate burst
  refine ⟨_, State.command_ok h (if_neg good), ?_⟩
  beta_reduce
  rw [State.setQueue_queue]
  exact ⟨rfl, rfl, rfl, hrate, hburst, rfl, rfl⟩

theorem egressPortSet_sets {p rate burst : Nat} {oh : Int} {dp ht : Nat} {pfc : BitVec 24}
    (h : s.accepts c 0x0707 [(2, p), (4, rate), (4, burst), (1, ofInt 8 oh), (1, dp), (2, ht), (4, pfc.toNat)])
    (hp : p ≤ 1023) (blow : 64 ≤ burst) (bhigh : burst ≤ 16777215) (olow : -32 ≤ oh) (ohigh : oh ≤ 63) (hd : dp ≤ 2)
    (hh : ht ≤ 60000) : Claims.answersOk s (.egressPortSet c p rate burst oh dp ht pfc) c fun u =>
      (u.eport p).overhead = oh ∧ (u.eport p).downPolicy = dp ∧ (u.eport p).holdTime = ht ∧ (u.eport p).pfcMap = pfc
        ∧ (u.eport p).shaper.rate = rate ∧ (u.eport p).shaper.burst = burst ∧ (u.eport p).now = (s.eport p).now := by
  have signed : (BitVec.ofInt 8 oh).toInt = oh := by
    rw [BitVec.toInt_ofInt]
    exact Int.bmod_eq_of_le (by omega) (by omega)
  have good : ¬(1023 < p ∨ (!burstOk burst) = true ∨ (BitVec.ofInt 8 oh).toInt < -32 ∨ 63 < (BitVec.ofInt 8 oh).toInt ∨ 2 < dp
      ∨ 60000 < ht) := by
    simp only [burstOk_of_range blow bhigh, Bool.not_true, Bool.false_eq_true, false_or, signed]
    omega
  obtain ⟨hrate, hburst⟩ := (s.eport p).shaper.configured s.dt rate burst
  refine ⟨_, State.command_ok h (if_neg good), ?_⟩
  beta_reduce
  rw [State.setEport_eport]
  exact ⟨signed, rfl, rfl, rfl, hrate, hburst, rfl⟩

theorem wredProfileSet_sets {n lo hi pm w ecn km : Nat}
    (h : s.accepts c 0x0708 [(1, n), (4, lo), (4, hi), (1, pm), (1, w), (1, ecn), (4, km)]) (low : 1 ≤ n) (high : n ≤ 255)
    (order : lo < hi) (hhi : hi ≤ 1048575) (hpm : pm ≤ 255) (hw : w ≤ 15) (he : ecn ≤ 1) :
    Claims.answersOk s (.wredProfileSet c n lo hi pm w ecn km) c fun u =>
      SMap.get {} u.egress.wreds n = ⟨lo, hi, pm, w, ecn = 1, km⟩ ∧ u = { s with egress := u.egress } :=
  ⟨_, State.command_ok h (if_neg (by dsimp only; omega)), SMap.get_set_self .., rfl⟩

@[simp] theorem State.fcCheck_thresholds (s : State) (p k : Nat) :
    ((s.fcCheck p k).eport p).thrOff = (s.eport p).thrOff ∧ ((s.fcCheck p k).eport p).thrOn = (s.eport p).thrOn := by
  have one (cls used : Nat) : ((s.fcCheck1 p cls used).eport p).thrOff = (s.eport p).thrOff
      ∧ ((s.fcCheck1 p cls used).eport p).thrOn = (s.eport p).thrOn := by
    unfold State.fcCheck1
    dsimp only
    split
    · split
      · rw [State.updEport_eport]
        exact ⟨rfl, rfl⟩
      · exact ⟨rfl, rfl⟩
    · split
      · rw [State.updEport_eport]
        exact ⟨rfl, rfl⟩
      · exact ⟨rfl, rfl⟩
  unfold State.fcCheck
  split
  · exact ⟨rfl, rfl⟩
  · exact one _ _
  · exact one _ _

theorem pfcThresholdSet_sets {p k off on : Nat} (h : s.accepts c 0x0709 [(1, p), (1, k), (4, off), (4, on)]) (hp : p ≤ 127)
    (hk : k ≤ 8) (hoff : off ≤ 1048575) (order : off = 0 ∨ on < off) :
    Claims.answersOk s (.pfcThresholdSet c p k off on) c fun u =>
      SMap.get 0 (u.eport p).thrOff k = off ∧ SMap.get 0 (u.eport p).thrOn k = on := by
  refine ⟨_, State.command_ok h (if_neg (by omega)), ?_⟩
  beta_reduce
  obtain ⟨hOff, hOn⟩ := State.fcCheck_thresholds (s.updEport p fun e => { e with
    thrOff := SMap.set 0 e.thrOff k off, thrOn := SMap.set 0 e.thrOn k on }) p k
  rw [hOff, hOn, State.updEport_eport]
  exact ⟨SMap.get_set_self .., SMap.get_set_self ..⟩

theorem mcGroupSet_sets {g : Nat} {l : List W32}
    (h : s.accepts c 0x070A ([(2, g), (1, l.length), (1, 0)] ++ l.map fun m => (4, m.toNat))) (hg : g ≤ 16383)
    (hl : l.length ≤ 255) (small : ∀ m ∈ l, m.toNat < 0x20000000) (room : s.poolUsed + l.length ≤ 131072) :
    Claims.answersOk s (.mcGroupSet c g l) c fun u => SMap.get [] u.egress.mcGroups g = l
      ∧ u = { s with egress := u.egress } := by
  have good : ¬(16383 < g ∨ 255 < l.length ∨ l.any (fun m => decide (0x20000000 ≤ m.toNat)) = true) := by
    simp only [List.any_eq_true, decide_eq_true_eq]
    rintro (h | h | ⟨m, hm, h⟩)
    · omega
    · omega
    · exact absurd (small m hm) (by omega)
  exact ⟨_, State.command_ok h ((if_neg good).trans (if_neg (by omega))), SMap.get_set_self .., rfl⟩

theorem mcMemberOpSet_sets {k : Nat} {slot : BitVec 128} (h : s.accepts c 0x070B [(2, k), (16, slot.toNat)]) (hk : k ≤ 4094)
    (formed : (memberEdit slot).isSome = true) : Claims.answersOk s (.mcMemberOpSet c k slot) c fun u =>
      SMap.get 0 u.egress.memberOps k = slot ∧ u = { s with egress := u.egress } := by
  have good : ¬(4094 < k ∨ (memberEdit slot).isNone = true) := by
    rintro (h | h)
    · omega
    · simp [Option.isNone_iff_eq_none.1 h] at formed
  exact ⟨_, State.command_ok h (if_neg good), SMap.get_set_self .., rfl⟩

/-! ### QUEUE_FLUSH (R425) -/

/-- The queues that a flush takes hold its name, and every other queue is as it was. -/
theorem State.markFlush_queue (c : CmdRef) (qs : List Nat) (s : State) (q : Nat) :
    (qs.foldl (fun (acc : State) q => acc.updQueue q fun x => { x with flush := some c, flushed := 0 }) s).queue q
      = if q ∈ qs then { s.queue q with flush := some c, flushed := 0 } else s.queue q := by
  induction qs generalizing s with
  | nil => rfl
  | cons k qs ih =>
    rw [List.foldl_cons, ih]
    by_cases same : q = k
    · subst same
      simp
    · simp [State.updQueue_queue_ne, same]

theorem State.markFlush_frame (c : CmdRef) (qs : List Nat) (s : State) :
    let u := qs.foldl (fun (acc : State) q => acc.updQueue q fun x => { x with flush := some c, flushed := 0 }) s
    u = { s with egress := u.egress } :=
  Reaches.eq_patch (ps := [.egress]) ((Reaches.refl _ s).foldl qs fun x _ => (Reaches.refl _ x).updQueue (by decide) _ _)

/-- A flush of queues that no other flush holds, with the refusals of its index past. -/
theorem queueFlush_free {scope index : Nat} {qs : List Nat} (hqs : (if scope = 0 then [index] else groupQueues index) = qs)
    (good : ¬(1 < scope ∨ (scope = 0 ∧ 65535 < index) ∨ (scope = 1 ∧ 8191 < index)))
    (free : ∀ q ∈ qs, (s.queue q).flush = none) : queueFlushBody c scope index s =
      if qs.all fun q => (s.queue q).empty then (s, .data (leBytes 4 0))
      else (qs.foldl (fun (acc : State) q => acc.updQueue q fun x => { x with flush := some c, flushed := 0 }) s, .later) := by
  have unheld : (qs.any fun q => (s.queue q).flush.isSome && (s.queue q).flush ≠ some c) = false := by
    simp only [List.any_eq_false]
    intro q hq
    simp [free q hq]
  unfold queueFlushBody
  simp only [hqs]
  rw [if_neg good, unheld]
  rfl

theorem queueFlush_empty {scope index : Nat} {qs : List Nat} (h : s.accepts c 0x070C [(1, scope), (2, index)])
    (hqs : (if scope = 0 then [index] else groupQueues index) = qs)
    (good : ¬(1 < scope ∨ (scope = 0 ∧ 65535 < index) ∨ (scope = 1 ∧ 8191 < index)))
    (free : ∀ q ∈ qs, (s.queue q).flush = none) (empty : ∀ q ∈ qs, (s.queue q).empty = true) :
    Claims.answersData s (.queueFlush c scope index) c (leBytes 4 0) :=
  State.command_reads h ((queueFlush_free hqs good free).trans (if_pos (List.all_eq_true.2 empty)))

theorem queueFlush_starts {scope index : Nat} {qs : List Nat} (h : s.accepts c 0x070C [(1, scope), (2, index)])
    (hqs : (if scope = 0 then [index] else groupQueues index) = qs)
    (good : ¬(1 < scope ∨ (scope = 0 ∧ 65535 < index) ∨ (scope = 1 ∧ 8191 < index)))
    (free : ∀ q ∈ qs, (s.queue q).flush = none) (held : ∃ q ∈ qs, (s.queue q).empty = false) :
    Claims.goesOn s (.queueFlush c scope index) c fun u => (∀ q ∈ qs, (u.queue q).flush = some c
      ∧ (u.queue q).head = (s.queue q).head) ∧ u = { s with egress := u.egress } := by
  have some' : ¬(qs.all fun q => (s.queue q).empty) = true := by
    obtain ⟨q, hq, e⟩ := held
    simp only [List.all_eq_true, not_forall]
    exact ⟨q, hq, by simp [e]⟩
  refine ⟨_, State.command_later h ((queueFlush_free hqs good free).trans (if_neg some')), fun q hq => ?_,
    State.markFlush_frame c qs s⟩
  rw [State.markFlush_queue, if_pos hq]
  exact ⟨rfl, rfl⟩

end

/-- Settles O41, command by command. -/
theorem egressCommands : Obligations.EgressCommands := by
  intro s c
  refine ⟨fun g p w sp rate burst => queueGroupSet_sets, fun q qm w wr rate burst => queueConfig_sets,
    fun p rate burst oh dp ht pfc => egressPortSet_sets, fun n lo hi pm w ecn km => wredProfileSet_sets,
    fun p k off on => pfcThresholdSet_sets, fun g l => mcGroupSet_sets, fun k slot => mcMemberOpSet_sets,
    fun q h hq free => ⟨fun empty => ?_, fun held => ?_⟩, fun g h hg free => ⟨fun empty => ?_, fun held => ?_⟩,
    fun k rate ho r h low high hr hh hri => ?_, fun q n h hn => ?_, fun h => State.command_reads h rfl⟩
  · exact queueFlush_empty h rfl (by omega) (by simpa using free) (by simpa using empty)
  · obtain ⟨u, next, marked, frame⟩ := queueFlush_starts h rfl (by omega) (by simpa using free) ⟨q, by simp, held⟩
    obtain ⟨flush, head⟩ := marked q (by simp)
    exact ⟨u, next, flush, head, frame⟩
  · exact queueFlush_empty h rfl (by omega) free empty
  · obtain ⟨u, next, marked, frame⟩ := queueFlush_starts h rfl (by omega) free held
    exact ⟨u, next, fun q hq => (marked q hq).1, frame⟩
  · exact ⟨_, State.command_ok h (if_neg (by omega)), SMap.get_set_self .., rfl⟩
  · exact State.command_reads h (if_neg (by omega))

end Sys2Proof.Machine
end

section
/-!
PROOFS. O21 and O22: requests to the HBM and what the controllers do of their own (R451, R452, R458, R460, R464, R465, R467-R469,
R538).
-/

namespace Sys2Proof.Machine

/-! ### Rules of the HBM's parts -/

@[simp] theorem State.updPc_pc (s : State) (p : Nat) (f : PcSt → PcSt) : (s.updPc p f).pc p = f (s.pc p) := by
  show SMap.get {} (SMap.set {} s.hbm.pcs p _) p = _
  rw [SMap.get_set_self]

theorem State.updPc_pc_ne (s : State) {p q : Nat} (f : PcSt → PcSt) (h : q ≠ p) : (s.updPc p f).pc q = s.pc q := by
  show SMap.get {} (SMap.set {} s.hbm.pcs p _) q = _
  rw [SMap.get_set, if_neg h]
  rfl

theorem State.updStack_stack (s : State) {k : Nat} (h : k ≤ 1) (f : StackSt → StackSt) :
    (s.updStack k f).stack k = f (s.stack k) := by
  obtain rfl | rfl : k = 0 ∨ k = 1 := by omega
  · rfl
  · rfl

@[simp] theorem PcSt.setBank_bank (x : PcSt) (b : Nat) (k : BankSt) : (x.setBank b k).bank b = k :=
  SMap.get_set_self ..

theorem State.updHbm_pc (s : State) (f : HbmSt → HbmSt) (q : Nat) : (s.updHbm f).pc q = SMap.get {} (f s.hbm).pcs q := rfl

@[simp] theorem State.countWake_pc (s : State) (k q : Nat) : (s.countWake k).pc q = s.pc q := rfl

@[simp] theorem State.countWake_hbm (s : State) (k : Nat) : (s.countWake k).hbm = s.hbm := rfl

@[simp] theorem State.updStack_pcs (s : State) (k : Nat) (f : StackSt → StackSt) : (s.updStack k f).hbm.pcs = s.hbm.pcs := by
  unfold State.updStack State.updHbm
  dsimp only
  split <;> rfl

/-- What waits at a pseudo-channel: the requests in its queue and those that found no room. -/
def PcSt.held (x : PcSt) : List HbmReq × List HbmReq := (x.queue, x.waiting)

theorem PcSt.held_foldl (f : PcSt → PcSt) (hf : ∀ x, (f x).held = x.held) (l : List Nat) (m : SMap PcSt) (q : Nat) :
    PcSt.held (SMap.get {} (l.foldl (fun m p => SMap.set {} m p (f (SMap.get {} m p))) m) q)
      = PcSt.held (SMap.get {} m q) := by
  refine List.foldlRecOn (motive := fun n => PcSt.held (SMap.get {} n q) = PcSt.held (SMap.get {} m q)) l _ rfl
    fun n hn p _ => ?_
  rw [SMap.get_set]
  split
  · next same => rw [hf, ← same, hn]
  · exact hn

/-- Waking a stack or a pseudo-channel leaves what waits there. -/
theorem State.wakeStack_held (s : State) (k q : Nat) : ((s.wakeStack k).pc q).held = (s.pc q).held := by
  unfold State.wakeStack
  split
  · rw [State.updHbm_pc]
    generalize (List.range 32).map (32 * k + ·) = l
    refine (PcSt.held_foldl (fun x => { x with wakeNs := s.iv + 1000, idleNs := s.iv + 1000 }) (fun _ => rfl) _ _ q).trans ?_
    rw [State.countWake_hbm, State.updStack_pcs]
    rfl
  · rfl

theorem State.wakePc_held (s : State) (p q : Nat) : ((s.wakePc p).pc q).held = (s.pc q).held := by
  rw [← State.wakeStack_held s (stackOf p) q]
  unfold State.wakePc
  dsimp only
  split
  · rw [State.countWake_pc]
    by_cases same : q = p
    · subst same
      rw [State.updPc_pc]
      rfl
    · rw [State.updPc_pc_ne _ _ same]
  · rfl

@[simp] theorem State.wakeStack_mem (s : State) (k : Nat) : (s.wakeStack k).mem = s.mem := by
  unfold State.wakeStack
  split <;> rfl

@[simp] theorem State.wakePc_mem (s : State) (p : Nat) : (s.wakePc p).mem = s.mem := by
  rw [← State.wakeStack_mem s (stackOf p)]
  unfold State.wakePc
  dsimp only
  split <;> rfl

theorem PcSt.takeIn_one {x : PcSt} (idle : x.held = ([], [])) (r : HbmReq) : (x.takeIn [r]).queue = [r] := by
  obtain ⟨queue, waiting⟩ := Prod.mk.inj idle
  have room : x.room r.port = true := by simp [PcSt.room, queue]
  simp [PcSt.takeIn, room, queue, waiting]

/-! ### Requests (R451, R452, R460) -/

/-- A request that is well formed does its work: no check of HBM_REQUEST stands in its way. -/
theorem hbmRequest_formed {s : State} {port addr len : Nat} {write : Bool} {data : List Byte} (hp : port ≤ 15)
    (hl : len ∈ [32, 64, 128, 256]) (aligned : addr % len = 0) (inside : addr < hbmSize)
    (trained : (s.stack 0).mode ≠ .training) (full : write = true → data.length = len) :
    ¬(15 < port ∨ (!([32, 64, 128, 256, 512, 1024, 2048, 4096] : List Nat).contains len) = true ∨ addr % len ≠ 0 ∨ hbmSize ≤ addr
      ∨ (write = true ∧ (len < data.length ∨ data.isEmpty = true)) ∨ (s.stack 0).mode = .training) := by
  have sized : ([32, 64, 128, 256, 512, 1024, 2048, 4096] : List Nat).contains len = true ∧ 32 ≤ len := by
    simp only [List.mem_cons, List.not_mem_nil, or_false] at hl
    rcases hl with rfl | rfl | rfl | rfl <;> decide
  rintro (h | h | h | h | ⟨w, h | h⟩ | h)
  · omega
  · rw [sized.1] at h
    exact absurd h (by decide)
  · exact h aligned
  · omega
  · have := full w
    omega
  · have := full w
    rw [List.isEmpty_iff.1 h] at this
    simp at this
    omega
  · exact trained h

theorem hbmRequest_enters {s : State} {port addr len : Nat} {write : Bool} {data : List Byte} {r : Region} {pc a : Nat}
    (good : ¬(15 < port ∨ (!([32, 64, 128, 256, 512, 1024, 2048, 4096] : List Nat).contains len) = true ∨ addr % len ≠ 0
      ∨ hbmSize ≤ addr ∨ (write = true ∧ (len < data.length ∨ data.isEmpty = true)) ∨ (s.stack 0).mode = .training))
    (one : len ≤ 256) (full : write = true → data.length = len) (region : s.mem.region addr = some r)
    (allowed : hbmAllowed port r.use = true) (place : s.hbmPlace addr = some (pc, a)) (queue : (s.pc pc).queue = [])
    (waiting : (s.pc pc).waiting = []) : ∃ u, exec (.hbmRequest port addr len write data) s = .next u
      ∧ (u.pc pc).queue = [⟨port, [(addr, len)], write, if write then data else [], s.iv⟩] ∧ u.mem = s.mem := by
  have pieces : s.hbmPieces addr len = [(pc, addr, len)] := by
    simp [State.hbmPieces, one, place]
  refine ⟨(s.updHbm fun h => { h with answers := SMap.set [] h.answers port [] }).hbmPart port write data addr pc
    [(pc, addr, len)], ?_, ?_, ?_⟩
  · show execHbmRequest port addr len write data s = _
    unfold execHbmRequest
    rw [if_neg good]
    simp only [region, allowed, pieces, if_true]
    rfl
  · have idle : ((s.updHbm fun h => { h with answers := SMap.set [] h.answers port [] }).wakePc pc |>.pc pc).held = ([], []) := by
      rw [State.wakePc_held]
      exact Prod.ext queue waiting
    rw [State.hbmPart, State.updPc_pc, PcSt.takeIn_one idle]
    cases write with
    | false => simp; rfl
    | true => simp [← full rfl]; rfl
  · exact State.wakePc_mem _ _

theorem State.hbmAnswer_answers (s : State) (port addr : Nat) (bytes : List Byte) (poison : Bool) :
    (addr, bytes, poison) ∈ SMap.get [] (s.hbmAnswer port addr bytes poison).hbm.answers port := by
  show _ ∈ SMap.get [] (SMap.set [] s.hbm.answers port _) port
  simp

theorem hbmRequest_stray {s : State} {port addr len : Nat} {write : Bool} {data : List Byte}
    (good : ¬(15 < port ∨ (!([32, 64, 128, 256, 512, 1024, 2048, 4096] : List Nat).contains len) = true ∨ addr % len ≠ 0
      ∨ hbmSize ≤ addr ∨ (write = true ∧ (len < data.length ∨ data.isEmpty = true)) ∨ (s.stack 0).mode = .training))
    (stray : ∀ r, s.mem.region addr = some r → hbmAllowed port r.use = false) :
    ∃ u, exec (.hbmRequest port addr len write data) s = .next u ∧ u.hbm.stray = s.hbm.stray + 1 ∧ u.mem = s.mem
      ∧ (write = false → SMap.get [] u.hbm.answers port = [(addr, List.replicate len 0xFF, false)]) := by
  let s1 := (s.updHbm fun h => { h with answers := SMap.set [] h.answers port [] }).updHbm fun h =>
    { h with stray := h.stray + 1 }
  refine ⟨if write then s1 else s1.hbmAnswer port addr (List.replicate len 0xFF) false, ?_, ?_, ?_, fun read => ?_⟩
  · show execHbmRequest port addr len write data s = _
    unfold execHbmRequest
    rw [if_neg good]
    cases region : s.mem.region addr with
    | none => rfl
    | some r =>
      simp only [stray r region, Bool.false_eq_true, if_false]
      rfl
  · split <;> rfl
  · split <;> rfl
  · rw [read]
    show SMap.get [] (SMap.set [] (SMap.set [] s.hbm.answers port []) port
      ((SMap.get [] (SMap.set [] s.hbm.answers port []) port).filter _ ++ _)) port = _
    rw [SMap.get_set_self, SMap.get_set_self]
    rfl

/-! ### Issues (R460, R467) -/

@[simp] theorem State.hbmServed_mem (s : State) (pc : Nat) (r : HbmReq) (batch : Option Nat) :
    (s.hbmServed pc r batch).mem = s.mem := rfl

/-- With no refresh forced and no error, the chosen request is served and acts. -/
theorem hbmIssue_acts {s : State} {pc : Nat} {r : HbmReq} (runs : s.pcRuns pc = true)
    (free : ∀ e ∈ (s.pc pc).banks, e.2.forced = false) (chosen : s.chooseReq pc = some r) :
    exec (.hbmIssue pc .none) s = .next ((s.hbmServed pc r (s.batchNow pc)).hbmAct r) := by
  have unforced : (s.pc pc).banks.find? (fun e => e.2.forced) = none := by
    simpa using fun a b h => free (a, b) h
  show execHbmIssue pc .none s = _
  unfold execHbmIssue
  simp [runs, unforced, chosen, done]

theorem State.hbmAct_read {s : State} {r : HbmReq} {a n : Nat} (one : r.pieces = [(a, n)]) (read : r.write = false) :
    s.hbmAct r = s.hbmAnswer r.port a (s.mem.read a n) (s.mem.poisoned a n) := by
  simp [State.hbmAct, one, read]

theorem State.hbmAct_write {s : State} {r : HbmReq} {a n : Nat} (one : r.pieces = [(a, n)]) (write : r.write = true)
    (full : r.data.length = n) : (s.hbmAct r).mem = s.mem.store a r.data := by
  simp only [State.hbmAct, one, write, writePieces, ← full, List.take_length, if_true]
  rfl

/-- Settles O21. -/
theorem hbmRequestsAndIssues : Obligations.HbmRequestsAndIssues := by
  refine ⟨fun s port addr len write data hp hl aligned inside trained full => ?_, fun s pc r a n runs free chosen one =>
    ⟨fun read => ⟨_, hbmIssue_acts runs free chosen, ?_⟩, fun write hfull => ⟨_, hbmIssue_acts runs free chosen, ?_⟩⟩⟩
  · have good := hbmRequest_formed hp hl aligned inside trained full
    have small : len ≤ 256 := by
      simp only [List.mem_cons, List.not_mem_nil, or_false] at hl
      omega
    exact ⟨fun r pc a region allowed place queue waiting =>
      hbmRequest_enters good small full region allowed place queue waiting, hbmRequest_stray good⟩
  · rw [State.hbmAct_read one read]
    exact ⟨rfl, State.hbmAnswer_answers .., SMap.get_set_self ..⟩
  · rw [State.hbmAct_write one write hfull, State.hbmServed_mem]
    simp only [HbmMem.byte_store, HbmMem.byte_write, hfull]
    exact ⟨fun k hk => by simp [hk], fun x hx => if_neg (by omega)⟩

/-! ### The controllers' own steps (R458, R464, R465, R468, R469, R538) -/

theorem rowTimeout_closes {s : State} {pc b : Nat} (opened : ((s.pc pc).bank b).isOpen = true)
    (idle : ((s.pc pc).bank b).lastNs + s.hbm.rowTimeout ≤ s.iv) :
    ∃ u, exec (.rowTimeout pc b) s = .next u ∧ ((u.pc pc).bank b).isOpen = false := by
  refine ⟨_, if_neg (by simp [opened, idle]), ?_⟩
  rw [State.updPc_pc, PcSt.setBank_bank]

/-- What a refresh that is due does to its bank. -/
theorem refreshDue_acts {s : State} {pc b : Nat} (hp : pc < 64) (hb : b < 64)
    (active : (s.stack (stackOf pc)).mode = .active) (inService : pc ∉ s.hbm.retired) (idle : Bool) :
    ∃ u, exec (.refreshDue pc b idle) s = .next u ∧ (u.pc pc).bank b =
      let k := (s.pc pc).bank b
      if idle then { k.refresh with postponed := 0 }
      else if k.postponed < 8 then { k with postponed := k.postponed + 1 } else { k with forced := true } := by
  have good : ¬(63 < pc ∨ 63 < b ∨ (s.stack (stackOf pc)).mode ≠ .active ∨ s.hbm.retired.contains pc = true) := by
    simp [active, inService]
    omega
  show ∃ u, execRefreshDue pc b idle s = .next u ∧ _
  unfold execRefreshDue
  rw [if_neg good]
  dsimp only
  split
  · exact ⟨_, rfl, by rw [State.updPc_pc, PcSt.setBank_bank]⟩
  · split
    · exact ⟨_, rfl, by rw [State.updPc_pc, PcSt.setBank_bank]⟩
    · exact ⟨_, rfl, by rw [State.updPc_pc, PcSt.setBank_bank]⟩

theorem State.event_stack (s : State) (code : Nat) (fields : List (Nat × Nat)) (k : Nat) :
    (s.event code fields).stack k = s.stack k := by
  obtain ⟨o, d, l, n, h⟩ := State.event_frame s code fields
  rw [h]
  rfl

theorem hbmTempRead_keeps {s : State} {k temp : Nat} (hk : k ≤ 1) (ht : temp ≤ 255) :
    ∃ u, exec (.hbmTempRead k temp) s = .next u ∧ (u.stack k).temp = temp ∧ (95 ≤ temp → (u.stack k).hot = true)
      ∧ (temp < 90 → (u.stack k).hot = false) := by
  let f : StackSt → StackSt := fun y => { y with
    temp := temp, level := hbmLevel temp, hot := if 95 ≤ temp then true else if temp < 90 then false else y.hot }
  have kept : ((s.updStack k f).stack k).temp = temp ∧ (95 ≤ temp → ((s.updStack k f).stack k).hot = true)
      ∧ (temp < 90 → ((s.updStack k f).stack k).hot = false) := by
    rw [State.updStack_stack s hk]
    exact ⟨rfl, fun high => if_pos high, fun low => (if_neg (by omega)).trans (if_pos low)⟩
  show ∃ u, execHbmTempRead k temp s = .next u ∧ _
  unfold execHbmTempRead
  rw [if_neg (by omega)]
  dsimp only
  split
  · exact ⟨_, rfl, kept⟩
  · refine ⟨_, rfl, ?_⟩
    rw [State.event_stack]
    exact kept

theorem pcPowerDown_sleeps {s : State} {pc : Nat} (runs : s.pcRuns pc = true) (empty : (s.pc pc).queue = [])
    (idle : (s.pc pc).idleNs + 200 ≤ s.iv) : ∃ u, exec (.pcPowerDown pc) s = .next u ∧ (u.pc pc).asleep = true :=
  ⟨_, if_neg (by simp [runs, empty, idle]), by rw [State.updPc_pc]⟩

theorem stackSelfRefresh_enters {s : State} {k : Nat} (hk : k ≤ 1) (active : (s.stack k).mode = .active)
    (allowed : s.selfRefreshAllowed = true)
    (idle : ∀ p, p / 32 = k → (s.pc p).queue = [] ∧ (s.pc p).idleNs + 10000 ≤ s.iv)
    (quiet : ∀ d ∈ s.stackEvents k, d < s.dt ∨ s.dt + 2000 ≤ d) :
    ∃ u, exec (.stackSelfRefresh k) s = .next u ∧ (u.stack k).mode = .selfRefresh := by
  have asleep : ¬((List.range 32).map (32 * k + ·)).any
      (fun p => !(s.pc p).queue.isEmpty || decide (s.iv < (s.pc p).idleNs + 10000)) = true := by
    simp only [List.any_map, List.any_eq_true, List.mem_range, not_exists, not_and]
    intro p hp
    obtain ⟨queue, old⟩ := idle (32 * k + p) (by omega)
    simp [queue, old]
  have unasked : ¬(s.stackEvents k).any (fun d => decide (s.dt ≤ d ∧ d < s.dt + 2000)) = true := by
    simp only [List.any_eq_true, decide_eq_true_eq, not_exists, not_and]
    intro d hd
    have := quiet d hd
    omega
  refine ⟨_, if_neg ?_, by rw [State.updStack_stack s hk]⟩
  rintro (h | h | h | h | h)
  · omega
  · exact h active
  · simp [allowed] at h
  · exact asleep h
  · exact unasked h

theorem patrolScrub_next {s : State} {pc : Nat} (runs : s.pcRuns pc = true) (cool : (s.stack (stackOf pc)).hot = false)
    (more : (s.pc pc).scrubNext + 1 < 67108864)
    (due : (s.pc pc).scrubNext * (s.hbm.scrubHours * 3600000000000) ≤ (s.dt - (s.pc pc).scrubDt) * 67108864) :
    ∃ u, exec (.patrolScrub pc .none) s = .next u ∧ (u.pc pc).scrubNext = (s.pc pc).scrubNext + 1 ∧ u.mem = s.mem := by
  obtain ⟨low, inService⟩ : pc < 64 ∧ s.hbm.retired.contains pc = false := by
    simp only [State.pcRuns, Bool.and_eq_true, Bool.not_eq_true', decide_eq_true_eq] at runs
    exact ⟨runs.1.1.1.1, runs.1.1.2⟩
  have good : ¬(63 < pc ∨ s.hbm.retired.contains pc = true ∨ (s.stack (stackOf pc)).hot = true
      ∨ (s.dt - (s.pc pc).scrubDt) * unitsPerPc < (s.pc pc).scrubNext * (s.hbm.scrubHours * 3600 * secNs)) := by
    have period : s.hbm.scrubHours * 3600 * secNs = s.hbm.scrubHours * 3600000000000 := by simp only [secNs, mul_assoc, Nat.reduceMul]
    rw [period, cool, inService, unitsPerPc]
    rintro (h | h | h | h)
    · omega
    · exact absurd h (by decide)
    · exact absurd h (by decide)
    · exact absurd h (Nat.not_lt.2 due)
  let s1 := s.updPc pc fun y => { y with scrubNext := y.scrubNext + 1, parity := false }
  have next : (s1.pc pc).scrubNext = (s.pc pc).scrubNext + 1 := by rw [State.updPc_pc]
  refine ⟨s1, ?_, next, rfl⟩
  show execPatrolScrub pc .none s = _
  unfold execPatrolScrub
  dsimp only
  rw [if_neg good, if_neg (by simp [runs]), if_neg (by decide)]
  refine congrArg Host.Outcome.next (if_neg ?_)
  show (s1.pc pc).scrubNext ≠ 67108864
  omega

theorem timingTrack_marks {s : State} {pc : Nat} (runs : s.pcRuns pc = true) (due : (s.pc pc).trackNs + 64000000 ≤ s.iv) :
    ∃ u, exec (.timingTrack pc) s = .next u ∧ (u.pc pc).trackNs = s.iv :=
  ⟨_, if_neg (by simp [runs, due]), by rw [State.updPc_pc]⟩

/-- After training every bank is closed, with its predictor at 2. -/
theorem PcSt.train_bank (x : PcSt) (temp now b : Nat) :
    ((x.train temp now).bank b).p = 2 ∧ ((x.train temp now).bank b).isOpen = false := by
  refine List.foldlRecOn (motive := fun m : SMap BankSt => (SMap.get {} m b).p = 2 ∧ (SMap.get {} m b).isOpen = false)
    x.banks _ ⟨rfl, rfl⟩ fun m hm e _ => ?_
  rw [SMap.get_set]
  split
  · exact ⟨rfl, rfl⟩
  · exact hm

theorem tempRetrain_trains {s : State} {pc : Nat} (runs : s.pcRuns pc = true)
    (warm : (s.pc pc).trainTemp + 15 ≤ (s.stack (stackOf pc)).temp) : ∃ u, exec (.tempRetrain pc) s = .next u
      ∧ (u.pc pc).trainTemp = (s.stack (stackOf pc)).temp
      ∧ ∀ b, ((u.pc pc).bank b).p = 2 ∧ ((u.pc pc).bank b).isOpen = false := by
  refine ⟨_, if_neg (by simp only [runs]; simp; omega), ?_⟩
  rw [State.updPc_pc]
  exact ⟨rfl, PcSt.train_bank _ _ _⟩

/-- Settles O22, step by step. -/
theorem hbmUpkeep : Obligations.HbmUpkeep := by
  refine ⟨fun s pc b => rowTimeout_closes, fun s pc b hp hb active inService => ⟨?_, fun few => ?_, fun eight => ?_⟩,
    fun s k temp => hbmTempRead_keeps, fun s pc => pcPowerDown_sleeps, fun s k => stackSelfRefresh_enters,
    fun s pc => patrolScrub_next, fun s pc => timingTrack_marks, fun s pc => tempRetrain_trains⟩
  · obtain ⟨u, next, bank⟩ := refreshDue_acts hp hb active inService true
    exact ⟨u, next, by rw [bank]; rfl, by rw [bank]; rfl⟩
  · obtain ⟨u, next, bank⟩ := refreshDue_acts hp hb active inService false
    exact ⟨u, next, by rw [bank]; simp [few]⟩
  · obtain ⟨u, next, bank⟩ := refreshDue_acts hp hb active inService false
    exact ⟨u, next, by rw [bank]; simp [eight]⟩

end Sys2Proof.Machine
end

section
/-!
PROOFS. O23: the HBM commands and a retirement (R454, R455, R459, R463, R468, R470, R471, R474).
-/

namespace Sys2Proof.Machine

/-! ### Sums and tables -/

theorem total_eq_sum (l : List Nat) : total l = l.sum := List.sum_eq_foldl.symm

/-- What a table holds once the keys that `p` refuses are gone. -/
theorem SMap.get_filter_key {α : Type} (d : α) (m : SMap α) (p : Nat → Bool) (k : Nat) :
    SMap.get d (m.filter fun e => p e.1) k = if p k then SMap.get d m k else d := by
  induction m with
  | nil => simp [SMap.get]
  | cons e rest ih =>
    obtain ⟨j, v⟩ := e
    rw [List.filter_cons]
    by_cases same : j = k
    · subst same
      by_cases kept : p j = true
      · simp [SMap.get, kept]
      · simpa [kept] using ih
    · have skip : SMap.get d ((j, v) :: rest) k = SMap.get d rest k := by simp [SMap.get, same]
      rw [skip, ← ih]
      split
      · simp [SMap.get, same]
      · rfl

/-! ### HBM_PARTITION (R454, R455) -/

section
variable {s : State} {c : CmdRef}

theorem sized_sum (l : List Region) : ((l.filter fun r => r.size ≠ 0).map (·.size)).sum = (l.map (·.size)).sum := by
    induction l with
    | nil => rfl
    | cons r l ih =>
      rw [List.filter_cons]
      by_cases empty : r.size = 0
      · simp [empty] at ih ⊢
        exact ih
      · simp [empty] at ih ⊢
        exact ih
theorem partitionOf_total (em im gl le ci : Nat) : ((partitionOf em im gl le ci).map (·.size)).sum
    = 4294967296 + (em + (67108864 + (im + (gl + (le + (ci + (1073741824 + 0))))))) := by
  have sizes (a b d b1 b2 b3 b4 b5 b6 b7 : Nat) : ((([⟨0, 0, a, 0, 0⟩, ⟨1, b1, em, 0, 0⟩, ⟨2, b2, b, 0, 0⟩, ⟨3, b3, im, 0, 2⟩,
      ⟨4, b4, gl, 0, 3⟩, ⟨5, b5, le, 0, 0⟩, ⟨6, b6, ci, 1, 0⟩, ⟨7, b7, d, 3, 0⟩] : List Region).filter fun r =>
        r.size ≠ 0).map (·.size)).sum = a + (em + (b + (im + (gl + (le + (ci + (d + 0))))))) := by
    rw [sized_sum]
    rfl
  unfold partitionOf
  exact sizes 4294967296 67108864 1073741824 _ _ _ _ _ _ _
theorem hbmPartition_layout {em im gl le ci : Nat}
    (h : s.accepts c 0x0C00 [(1, 0), (1, 0), (1, 0), (1, 0), (4, em), (4, im), (4, gl), (4, le), (4, ci)])
    (whole : ∀ n ∈ [em, im, gl, le, ci], n % 64 = 0) (hem : em ≤ 32768) (him : 64 ≤ im) (him' : im ≤ 1024) (hgl : gl ≤ 65536)
    (hle : 2048 ≤ le) (hle' : le ≤ 65536) (hci : 8192 ≤ ci) (hci' : ci ≤ 65536) (gib : ci % 1024 = 0)
    (differs : partitionOf (em * mib) (im * mib) (gl * mib) (le * mib) (ci * mib) ≠ s.mem.regions)
    (free : s.layoutFree = true)
    (fits : 4294967296 + 67108864 + 1073741824 + (em + im + gl + le + ci) * 1048576 ≤ hbmSize) :
    Claims.answersOk s (.hbmPartition c 0 0 0 0 [em, im, gl, le, ci]) c fun u => u.cistern.sizeGib = ci / 1024
      ∧ u.mem.regions = partitionOf (em * mib) (im * mib) (gl * mib) (le * mib) (ci * mib)
      ∧ u = { s with mem := u.mem, cistern := u.cistern } := by
  have good : ¬([em, im, gl, le, ci].any (fun n => decide (n % 64 ≠ 0)) = true ∨ 32768 < em ∨ im < 64 ∨ 1024 < im ∨ 65536 < gl
      ∨ le < 2048 ∨ 65536 < le ∨ ci < 8192 ∨ 65536 < ci ∨ ci % 1024 ≠ 0) := by
    have even : [em, im, gl, le, ci].any (fun n => decide (n % 64 ≠ 0)) = false := by
      rw [List.any_eq_false]
      intro n hn
      simp [whole n hn]
    simp only [even, Bool.false_eq_true, false_or]
    omega
  have small : ¬(hbmSize < total ((partitionOf (em * mib) (im * mib) (gl * mib) (le * mib) (ci * mib)).map (·.size))) := by
    rw [total_eq_sum, partitionOf_total, mib]
    omega
  exact ⟨_, State.command_ok (body := hbmPartitionBody 0 0 0 0 [em, im, gl, le, ci]) h ((if_neg good).trans
    ((if_neg differs).trans ((if_neg (by simp [free])).trans (if_neg small)))), rfl, rfl, rfl⟩

theorem hbmPartition_create {id ord right n : Nat}
    (h : s.accepts c 0x0C00 [(1, 1), (1, id), (1, ord), (1, right), (4, n)]) (low : 1 ≤ id) (high : id ≤ 5) (hord : ord ≤ 3)
    (hright : right ≤ 3) (hn : 1 ≤ n) (whole : n % 64 = 0) (new : ∀ x ∈ s.mem.regions, x.use ≠ 8 + id) :
    let top := s.regionAddr 6 0 + s.cistern.sizeGib * 1073741824 + (s.hbm.pools.map Prod.snd).sum
    let low := ((s.mem.regions.filter fun x => top ≤ x.base).map (·.base)).foldl Nat.min hbmSize
    top + n * 1048576 ≤ low → Claims.answersOk s (.hbmPartition c 1 id ord right [n]) c fun u =>
      u.mem.regions = s.mem.regions ++ [⟨8 + id, low - n * 1048576, n * 1048576, ord, right⟩] ∧ u.mem.cells = s.mem.cells := by
  intro top low room
  have none : s.mem.regions.find? (fun r => decide (r.use = 8 + id)) = none := by simpa using new
  have body : hbmPartitionBody 1 id ord right [n] s = (s.updMem fun m => { m with
      regions := m.regions ++ [⟨8 + id, low - n * 1048576, n * 1048576, ord, right⟩] }, .ok) := by
    have good : ¬(id < 1 ∨ 5 < id ∨ 3 < ord ∨ 3 < right ∨ n = 0 ∨ n % 64 ≠ 0) := by omega
    refine (if_neg good).trans ?_
    unfold createBody
    rw [none]
    dsimp only
    rw [total_eq_sum, ← List.foldl_map]
    exact if_neg (Nat.not_lt.2 room)
  exact ⟨_, State.command_ok (body := hbmPartitionBody 1 id ord right [n]) h body, rfl, rfl⟩

theorem hbmPartition_destroy {id : Nat} {r : Region} (h : s.accepts c 0x0C00 [(1, 2), (1, id), (1, 0), (1, 0)]) (low : 1 ≤ id)
    (high : id ≤ 5) (found : (s.mem.regions.find? fun x => x.use = 8 + id) = some r)
    (lowest : ∀ x ∈ s.mem.regions, 8 ≤ x.use → r.base ≤ x.base) :
    Claims.answersOk s (.hbmPartition c 2 id 0 0 []) c fun u => (∀ x ∈ u.mem.regions, x.use ≠ 8 + id)
      ∧ (∀ a, r.base ≤ a → a < r.base + r.size → u.mem.byte a = 0)
      ∧ (∀ a, a < r.base ∨ r.base + r.size ≤ a → u.mem.byte a = s.mem.byte a) := by
  have below : ¬(s.mem.regions.any fun x => 8 ≤ x.use && decide (x.base < r.base)) = true := by
    simp only [List.any_eq_true, Bool.and_eq_true, decide_eq_true_eq, not_exists, not_and]
    intro x hx customer
    have := lowest x hx customer
    omega
  have body : hbmPartitionBody 2 id 0 0 [] s = (s.updMem fun m => { m with
      regions := m.regions.filter fun x => x.use ≠ 8 + id
      cells := m.cells.filter fun e => !(r.base ≤ e.1 && e.1 < r.base + r.size)
      poison := m.poison.filter fun u => !(r.base ≤ 32 * u && 32 * u < r.base + r.size) }, .ok) := by
    refine (if_neg (by omega)).trans ?_
    unfold destroyBody
    rw [found]
    exact if_neg below
  have bytes (a : Nat) : SMap.get 0 (s.mem.cells.filter fun e => !(r.base ≤ e.1 && e.1 < r.base + r.size)) a
      = if (!(r.base ≤ a && a < r.base + r.size)) = true then s.mem.byte a else 0 :=
    SMap.get_filter_key 0 s.mem.cells (fun k => !(r.base ≤ k && k < r.base + r.size)) a
  refine ⟨_, State.command_ok (body := hbmPartitionBody 2 id 0 0 []) h body, fun x hx => by simpa using (List.mem_filter.1 hx).2,
    fun a inside below => (bytes a).trans (if_neg (by simp [inside, below])),
    fun a outside => (bytes a).trans (if_pos (by simp; omega))⟩

/-! ### The other commands (R459, R463, R468, R470) -/

theorem hbmQosSet_sets {port prio target rt : Nat} (h : s.accepts c 0x0C02 [(1, port), (1, prio), (4, target), (2, rt)])
    (hport : port ≤ 15) (hprio : prio ≤ 7) (htarget : target = 0 ∨ (100 ≤ target ∧ target ≤ 1000000)) (low : 30 ≤ rt)
    (high : rt ≤ 1000) : Claims.answersOk s (.hbmQosSet c port prio target rt) c fun u => u.hbmPort port = ⟨prio, target⟩
      ∧ u.hbm.rowTimeout = rt ∧ (∀ p, p ≠ port → u.hbmPort p = s.hbmPort p) ∧ u = { s with hbm := u.hbm } := by
  have good : ¬(15 < port ∨ 7 < prio ∨ (target ≠ 0 ∧ (target < 100 ∨ 1000000 < target)) ∨ rt < 30 ∨ 1000 < rt) := by omega
  refine ⟨_, State.command_ok h (if_neg good), ?_, rfl, fun p other => ?_, rfl⟩
  · show (SMap.get none (SMap.set none s.hbm.qos port _) port).getD (hbmPortDef port) = _
    rw [SMap.get_set_self]
    split
    · next standard => exact standard.symm
    · rfl
  · show (SMap.get none (SMap.set none s.hbm.qos port _) p).getD (hbmPortDef p) = _
    rw [SMap.get_set_ne _ _ _ other]
    rfl

theorem hbmRepair_soft {pc sid bank row : Nat} {sp : Bool}
    (h : s.accepts c 0x0C04 [(1, pc), (1, sid), (1, bank), (1, 0), (2, row)]) (hpc : pc ≤ 63) (hsid : sid ≤ 3)
    (hbank : bank ≤ 15) (hrow : row ≤ 32767) (none : s.hbm.soft = []) :
    Claims.answersOk s (.hbmRepair c pc sid bank 0 row sp) c fun u =>
      u.hbm.soft = [pc * 2097152 + (sid * 16 + bank) * 32768 + row] ∧ u = { s with hbm := u.hbm } := by
  have body : hbmRepairBody pc sid bank 0 row sp s = (s.updHbm fun h => { h with
      soft := insNat h.soft (pc * 2097152 + (sid * 16 + bank) * 32768 + row) }, .ok) := by
    unfold hbmRepairBody
    dsimp only
    rw [if_neg (by omega), if_pos rfl, none]
    rfl
  refine ⟨_, State.command_ok h body, ?_, rfl⟩
  show insNat s.hbm.soft _ = _
  rw [none]
  rfl

theorem hbmPcRetire_starts {pc : Nat} (h : s.accepts c 0x0C05 [(1, pc)]) (hpc : pc ≤ 63) (inService : pc ∉ s.hbm.retired)
    (idle : s.hbm.migration = none) (few : s.hbm.retired.length < 4) (large : 10 ≤ s.cistern.sizeGib)
    (still : s.cistern.shrinking = false) : Claims.goesOn s (.hbmPcRetire c pc) c fun u =>
      u.hbm.migration = some ⟨pc, c, s.iv, s.cistern.sizeGib, none⟩ ∧ u.cistern.shrinking = true ∧ pc ∈ u.cistern.fencedPcs := by
  have body : pcRetireBody c pc s = ((s.updCistern fun k => { k with
      limit := blocksOfGib (s.cistern.sizeGib - 2), shrinking := true, shrink := none, shrinkCause := 1
      fencedPcs := insNat k.fencedPcs pc }).updHbm fun h => { h with
    migration := some ⟨pc, c, s.iv, s.cistern.sizeGib, none⟩ }, .later) := by
    unfold pcRetireBody
    rw [if_neg (by omega), if_neg (by simpa using inService), idle]
    dsimp only
    rw [if_neg (by omega), if_neg (by simp [still])]
  exact ⟨_, State.command_later h body, rfl, rfl, mem_insNat ..⟩

end

/-! ### A retirement (R471) -/

section
variable {s : State} {m : Migration}

theorem State.phRuns_of_ready (ready : s.dci.st = .ready) : s.phRuns = true := by simp [State.phRuns, ready]

theorem State.event_hbm (s : State) (code : Nat) (fields : List (Nat × Nat)) : (s.event code fields).hbm = s.hbm := by
  obtain ⟨o, d, l, n, h⟩ := State.event_frame s code fields
  rw [h]

/-- The state once 2 GiB of the cistern have become a spare pool. -/
def State.spared (s : State) (m : Migration) : State :=
  let s1 := ((s.cisternResize (m.oldGib - 2)).updCistern fun x => { x with shrinking := false }).event 0x0704
    [(1, m.oldGib - 2), (1, 1)]
  s1.updHbm fun h => { h with pools := h.pools ++ [(s1.regionAddr 6 ((m.oldGib - 2) * 1073741824), 2147483648)] }

theorem State.spared_cistern (s : State) (m : Migration) :
    (s.spared m).cistern.sizeGib = m.oldGib - 2 ∧ (s.spared m).cistern.shrinking = false := by
  unfold State.spared
  dsimp only
  rw [State.updHbm_cistern, State.event_cistern]
  exact ⟨rfl, rfl⟩

theorem State.spared_pools (s : State) (m : Migration) : (s.spared m).hbm.pools.length = s.hbm.pools.length + 1 := by
  unfold State.spared State.updHbm
  dsimp only
  rw [List.length_append, State.event_hbm]
  rfl

/-- The state in which the copies of a retirement begin. -/
def State.copying (s : State) (m : Migration) : State :=
  let w := s.granuleWork m.pc
  s.updHbm fun h => { h with
    redirects := mapGranules h.redirects w.2 ((s.spareGranules m.pc).drop w.1.length)
    migration := some { m with todo := some w.1 } }

theorem retireDrainDone_frees (running : s.hbm.migration = some m) (ready : s.dci.st = .ready) (draining : m.todo = none)
    (shrinking : s.cistern.shrinking = true) (empty : s.cistern.usedBlocks = []) :
    ∃ u w, exec .retireDrainDone s = .next u ∧ u.hbm.migration = some { m with todo := some w }
      ∧ u.cistern.sizeGib = m.oldGib - 2 ∧ u.cistern.shrinking = false ∧ u.hbm.pools.length = s.hbm.pools.length + 1 := by
  have good : ¬((!s.phRuns) = true ∨ m.todo.isSome = true
      ∨ s.cistern.usedBlocks.any (fun b => decide (blocksOfGib (m.oldGib - 2) ≤ b) || b % 64 = m.pc) = true) := by
    simp [State.phRuns_of_ready ready, draining, empty]
  have run : execRetireDrainDone s = .next (((s.spared m).copying m).event 0x0C03 [(1, m.pc), (1, 0)]) := by
    unfold execRetireDrainDone
    rw [running]
    dsimp only
    rw [if_neg good, if_pos shrinking]
    rfl
  refine ⟨_, ((s.spared m).granuleWork m.pc).1, run, ?_⟩
  rw [State.event_hbm, State.event_cistern]
  exact ⟨rfl, (s.spared_cistern m).1, (s.spared_cistern m).2, s.spared_pools m⟩

theorem retireWaitExpiry_gives_up (running : s.hbm.migration = some m) (ready : s.dci.st = .ready) (draining : m.todo = none)
    (late : m.startNs + 1000000 * s.hbm.retireWaitMs ≤ s.iv) : ∃ u : State,
      exec .retireWaitExpiry s = .next (u.answer m.c (.status 9)) ∧ u.hbm.migration = none ∧ u.cistern.sizeGib = m.oldGib
        ∧ u.cistern.shrinking = false ∧ m.pc ∉ u.cistern.fencedPcs := by
  have good : ¬((!s.phRuns) = true ∨ m.todo.isSome = true ∨ s.iv < m.startNs + 1000000 * s.hbm.retireWaitMs) := by
    simp [State.phRuns_of_ready ready, draining, late]
  show ∃ u : State, execRetireWaitExpiry s = _ ∧ _
  unfold execRetireWaitExpiry
  rw [running]
  dsimp only
  rw [if_neg good]
  refine ⟨_, rfl, ?_⟩
  rw [State.event_hbm, State.event_cistern]
  refine ⟨rfl, rfl, rfl, fun h => ?_⟩
  simpa using (List.mem_filter.1 h).2

/-- What a retirement has recorded. -/
def HbmSt.moved (h : HbmSt) : Option Migration × List Nat × SMap Nat := (h.migration, h.retired, h.redirects)

theorem State.wakePc_moved (s : State) (p : Nat) : (s.wakePc p).hbm.moved = s.hbm.moved := by
  have stack (k : Nat) : (s.wakeStack k).hbm.moved = s.hbm.moved := by
    unfold State.wakeStack State.updStack
    split
    · split <;> rfl
    · rfl
  rw [← stack (stackOf p)]
  unfold State.wakePc
  dsimp only
  split <;> rfl

theorem State.updPc_moved (s : State) (p : Nat) (f : PcSt → PcSt) : (s.updPc p f).hbm.moved = s.hbm.moved := rfl

theorem State.redirectQueue_moved (s : State) (pc : Nat) : (s.redirectQueue pc).hbm.moved = s.hbm.moved := by
  have part (x : State) (r : HbmReq) (p : Nat × Nat) (data : List Byte) :
      (x.redirectPart r p data).hbm.moved = x.hbm.moved := by
    unfold State.redirectPart
    split
    · exact (State.updPc_moved _ _ _).trans (State.wakePc_moved x _)
    · rfl
  unfold State.redirectQueue
  exact State.foldl_keeps (·.hbm.moved) _ (fun x r => State.foldl_keeps (·.hbm.moved) _ (fun y e => part y r _ _) _ x) _ _

theorem mapGranules_one (redirects : SMap Nat) (w g : Nat) (spare : List Nat) :
    SMap.get 0 (mapGranules redirects [w] (g :: spare)) w = g + 1 := by
  simp [mapGranules]

theorem granuleCopyDone_last {w g : Nat} {rest : List Nat} (running : s.hbm.migration = some m) (ready : s.dci.st = .ready)
    (last : m.todo = some [w]) (spare : s.spareGranules m.pc = g :: rest) : ∃ u : State,
      exec .granuleCopyDone s = .next (u.answer m.c .ok) ∧ u.hbm.migration = none ∧ m.pc ∈ u.hbm.retired
        ∧ SMap.get 0 u.hbm.redirects w = g + 1 := by
  show ∃ u : State, execGranuleCopyDone s = _ ∧ _
  unfold execGranuleCopyDone
  simp only [running, last, State.phRuns_of_ready ready, spare, Bool.not_true, Bool.false_eq_true, if_false,
    List.isEmpty_nil, if_true]
  refine ⟨_, rfl, ?_⟩
  rw [State.event_hbm]
  have moved := State.redirectQueue_moved ((s.updHbm fun h => { h with
      redirects := mapGranules h.redirects [w] (g :: rest), migration := some { m with todo := some [] } }).updHbm fun h =>
    { h with retired := insNat h.retired m.pc, migration := none }) m.pc
  simp only [HbmSt.moved, Prod.mk.injEq] at moved
  obtain ⟨migration, retired, redirects⟩ := moved
  refine ⟨migration, ?_, ?_⟩
  · rw [retired]
    exact mem_insNat ..
  · rw [redirects]
    exact mapGranules_one s.hbm.redirects w g rest

theorem granuleCopyDone_next {w w1 g : Nat} {rest gs : List Nat} (running : s.hbm.migration = some m)
    (ready : s.dci.st = .ready) (more : m.todo = some (w :: w1 :: rest)) (spare : s.spareGranules m.pc = g :: gs) :
    ∃ u, exec .granuleCopyDone s = .next u ∧ u.hbm.migration = some { m with todo := some (w1 :: rest) }
      ∧ SMap.get 0 u.hbm.redirects w = g + 1 := by
  show ∃ u : State, execGranuleCopyDone s = _ ∧ _
  unfold execGranuleCopyDone
  simp only [running, more, State.phRuns_of_ready ready, spare, Bool.not_true, Bool.false_eq_true, if_false, List.isEmpty_cons]
  exact ⟨_, rfl, rfl, mapGranules_one s.hbm.redirects w g gs⟩

end

/-- Settles O23, command by command and step by step. -/
theorem hbmCommandsAndRetirement : Obligations.HbmCommandsAndRetirement := by
  refine ⟨fun s c => ⟨fun em im gl le ci => hbmPartition_layout, fun id ord right n => hbmPartition_create,
    fun id r => hbmPartition_destroy, fun h => State.command_reads h rfl, fun port prio target rt => hbmQosSet_sets,
    fun ho w h low high wlow whigh => ⟨_, State.command_ok h (if_neg (by omega)), rfl⟩, fun pc sid bank row sp => hbmRepair_soft,
    fun pc => hbmPcRetire_starts, fun h => State.command_reads h rfl⟩, fun s m running ready => ⟨retireDrainDone_frees running ready,
    retireWaitExpiry_gives_up running ready, fun w g rest => granuleCopyDone_last running ready,
    fun w w1 rest g gs => granuleCopyDone_next running ready⟩⟩

end Sys2Proof.Machine
end

section
/-!
PROOFS. O48: power classes, idle parts, wakes, sensors and the power-fail flush (R531-R545), and what a change of the device's
state leaves of the host interface (R490, R549).
-/

namespace Sys2Proof.Machine

/-! ### The device's state (R490, R549) -/

/-- A change of STATE writes STATE and its cause, and nothing else that is the host interface's own. -/
theorem State.setDev_central {s : State} {n : DevState} (moves : s.dci.st ≠ n) (cause : Nat) :
    (s.setDev n cause).dci.central = ({ s.dci with st := n, cause := cause } : DciSt).central := by
  have told (l : List HostFn) (x : State) : (l.foldl (fun acc f => acc.irq f 2) x).dci.central = x.dci.central :=
    State.foldl_keeps (·.dci.central) _ (fun x f => x.irq_central f 2) l x
  unfold State.setDev
  dsimp only
  rw [if_neg moves]
  split
  · exact told _ _
  · rw [State.event_central]
    exact told _ _

theorem State.toFault_central {s : State} (healthy : s.dci.st ≠ .fault) (cause : Nat) :
    (s.toFault cause).dci.central = ({ s.dci with st := .fault, cause := cause } : DciSt).central := by
  unfold State.toFault State.deviceFault State.faultEvent
  rw [if_neg healthy]
  dsimp only
  rw [State.event_central]
  exact State.setDev_central healthy cause

theorem State.toFault_dci {s : State} (healthy : s.dci.st ≠ .fault) (cause : Nat) :
    (s.toFault cause).dci.st = .fault ∧ (s.toFault cause).dci.cause = cause :=
  ⟨congrArg DciSt.st (State.toFault_central healthy cause), congrArg DciSt.cause (State.toFault_central healthy cause)⟩

/-! ### Wakes (R534, R536) -/

/-- The power state without the counters of wakes. -/
def PowerSt.unwoken (p : PowerSt) : PowerSt := { p with wakes := [] }

@[simp] theorem State.countWake_unwoken (s : State) (k : Nat) : (s.countWake k).power.unwoken = s.power.unwoken := rfl

theorem State.ungate_unwoken (s : State) (k : Nat) : (s.ungate k).power.unwoken = s.power.unwoken := by
  unfold State.ungate
  split <;> rfl

theorem State.ungateAll_unwoken (l : List Nat) (s : State) : (l.foldl State.ungate s).power.unwoken = s.power.unwoken :=
  State.foldl_keeps (·.power.unwoken) _ State.ungate_unwoken l s

theorem State.wakeCluster_unwoken (s : State) (c : Nat) : (s.wakeCluster c).power.unwoken = s.power.unwoken := by
  unfold State.wakeCluster
  dsimp only
  split
  · rfl
  · split
    · exact State.ungateAll_unwoken _ _
    · rfl

theorem State.wakeStack_unwoken (s : State) (k : Nat) : (s.wakeStack k).power.unwoken = s.power.unwoken := by
  unfold State.wakeStack
  split <;> rfl

theorem State.applyT_unwoken (s : State) : s.applyT.power.unwoken = s.power.unwoken := by
  unfold State.applyT
  extract_lets k s1 s2
  have clusters : s1.power.unwoken = s.power.unwoken := by
    refine State.foldl_keeps (·.power.unwoken) _ (fun x c => ?_) _ s
    split
    · exact x.wakeCluster_unwoken c
    · rfl
  have cores : s2.power.unwoken = s.power.unwoken := by
    unfold s2
    split
    · exact (State.ungateAll_unwoken _ _).trans clusters
    · exact clusters
  split
  · exact cores
  · rw [State.wakeStack_unwoken, State.wakeStack_unwoken, cores]

theorem PowerSt.of_unwoken {p q : PowerSt} (h : p.unwoken = q.unwoken) :
    p.tol = q.tol ∧ p.active = q.active ∧ p.prewakes = q.prewakes ∧ p.failing = q.failing ∧ p.flush = q.flush := by
  simp only [PowerSt.unwoken, PowerSt.mk.injEq] at h
  simp [h]

/-! ### POWER_POLICY and classes (R532, R535) -/

theorem powerPolicy_sets {s : State} {c : CmdRef} {tol : List W32}
    (h : s.accepts c 0x0800 (tol.map fun v => (4, (v : W32).toNat))) :
    Claims.answersOk s (.powerPolicy c tol) c fun u => ∀ k, k < 8 → SMap.get 2000 u.power.tol k = (tol.getD k 0).toNat := by
  refine ⟨_, State.command_ok h rfl, fun k hk => ?_⟩
  rw [(PowerSt.of_unwoken (State.applyT_unwoken _)).1]
  have set := SMap.get_foldl_set 2000 s.power.tol 0 (fun c => (tol.getD c 0).toNat) 8 k
  simp only [Nat.zero_add] at set
  exact set.trans (if_pos ⟨Nat.zero_le k, hk⟩)

/-- A refusal is recorded with its status, whatever form the command has. -/
theorem State.answer_status {s : State} {c : CmdRef} {j : JCmd} (h : s.jcmd c = some j) (unanswered : j.resp = none)
    (up : s.dci.st ≠ .phRestart) (alone : j.dups = []) (k : Nat) : ∃ r,
      (s.answer c (.status k)).jcmd c = some { j with resp := some r, dups := [] } ∧ r.status = k := by
  have live : ¬(s.dci.st = .phRestart ∨ j.resp.isSome = true) := by simp [up, unanswered]
  have fits : j.tooLong [] = false := by simp [JCmd.tooLong]
  refine ⟨⟨k, 0, slice [] 0 40, false, j.rerun⟩, ?_, rfl⟩
  simp only [Ans.status, State.answer, State.finish, h, if_neg live, alone, List.foldl_nil]
  rw [State.jcmd_of_central (State.putRsp_central ..)]
  simp only [fits, List.isEmpty_nil, Bool.not_true, Bool.and_false, Bool.false_and, Bool.false_eq_true, if_false,
    List.append_nil]
  exact State.jcmd_updJ h fun _ => rfl

theorem State.entered_st (s : State) (f : HostFn) (e : CmdEntry) : (s.entered f e).dci.st = s.dci.st := by
  refine Eq.trans ?_ (DciSt.st_of_central (s.updFn_central f fun x => { x with cseq := e.cseq }))
  unfold State.entered
  dsimp only
  split <;> rfl

theorem State.entered_power (s : State) (f : HostFn) (e : CmdEntry) : (s.entered f e).power = s.power := by
  rw [← s.updFn_power f fun x => { x with cseq := e.cseq }]
  unfold State.entered
  dsimp only
  split <;> rfl

/-- POWER_POLICY without the lease is answered STATUS 3 at once. -/
theorem powerPolicy_unleased {s : State} {f : HostFn} {e : CmdEntry} (can : s.canFetch f = true)
    (next : e.cseq = (s.fn f).cseq + 1) (fresh : s.jcmd ⟨f, e.cseq⟩ = none) (op : e.opcode = 0x0800)
    (other : s.mine f = false) : ∃ u j r, exec (.commandFetch f e) s = .next u ∧ u.jcmd ⟨f, e.cseq⟩ = some j
      ∧ j.resp = some r ∧ r.status = 3 ∧ u.power = s.power := by
  have refused : (s.headPast f).accept f e = ((s.headPast f).entered f e).answer ⟨f, e.cseq⟩ (.status 3) := by
    rw [State.accept_eq, op, show catOf 0x0800 = some ⟨0x0800, .lease, List.replicate 8 4, false, false⟩ from rfl]
    simp [State.headPast_mine, other]
  have up : ((s.headPast f).entered f e).dci.st ≠ .phRestart := by
    rw [State.entered_st, DciSt.st_of_central (s.headPast_central f)]
    intro restart
    simp [State.canFetch, restart] at can
  obtain ⟨r, answered, status⟩ := State.answer_status (State.entered_jcmd ((s.headPast_jcmd f _).trans fresh)) rfl up rfl 3
  refine ⟨_, _, r, refused ▸ execCommandFetch_next can next, answered, rfl, status, ?_⟩
  obtain ⟨o, d, frame⟩ := State.answer_frame ((s.headPast f).entered f e) ⟨f, e.cseq⟩ (.status 3)
  rw [frame]
  exact (State.entered_power ..).trans (s.updFn_power f _)

theorem classIdle_idles {s : State} {k : Nat} (hk : k < 8) (active : s.power.active.getLsbD k = true)
    (quiet : s.classQuiet k = true) : ∃ u, exec (.classIdle k) s = .next u ∧ u.power.active.getLsbD k = false := by
  refine ⟨_, if_neg (by simp [active, quiet]; omega), ?_⟩
  rw [(PowerSt.of_unwoken (State.applyT_unwoken _)).2.1]
  simp [State.updPower, hk]

/-! ### Idle parts (R531, R536) -/

theorem coreGateIdle_gates {s : State} {k : Nat} (hk : k < 192) (on : (s.core k).gated = false)
    (there : (s.core k).retired = false) (idle : 100 ≤ (s.core k).idleFor) (parked : s.coreParked k = true)
    (deep : 1 ≤ s.computeState) (quiet : soonDue (s.coreEvents k) s.dt 50 = false) :
    ∃ u, exec (.coreGateIdle k) s = .next u ∧ u.core k = { s.core k with gated := true } := by
  refine ⟨_, if_neg ?_, State.updCore_core ..⟩
  have latency : exitNs 1 = 50 := rfl
  simp [on, there, parked, quiet, latency]
  omega

theorem clusterRetentionIdle_retains {s : State} {k : Nat} (hk : k < 12) (gated : s.allGated k = true)
    (active : s.clPower k = .active) (idle : 10000 ≤ (s.cl k).idleFor) (deep : 2 ≤ s.computeState)
    (quiet : soonDue (s.clusterEvents k) s.dt 4000 = false) :
    ∃ u, exec (.clusterRetentionIdle k) s = .next u ∧ u.cl k = { s.cl k with power := .retention } := by
  refine ⟨_, if_neg ?_, State.updCl_cl ..⟩
  have latency : exitNs 2 = 4000 := rfl
  simp [active, gated, quiet, latency]
  omega

/-- Flushing a core empties its L1s and touches no other core. -/
theorem State.coreFlush_core (s : State) (k : Nat) (poison : Bool) (j : Nat) : ((s.coreFlush k poison).core j) =
    if j = k then { s.core k with
      l1d := [], l1dLru := [], l1i := [], l1iLru := [], mshr := [], wb := [], posted := [], streams := [] } else s.core j := by
  have merged (l : List Line) (i : Nat) :
      (l.foldl (fun (acc : State) ln => acc.l2Merge (clusterOfCore k) ln) s).core i = s.core i :=
    State.foldl_keeps (·.core i) _ (fun x ln => x.l2Merge_core _ ln i) l s
  unfold State.coreFlush
  dsimp only
  split
  · next same =>
    rw [same, State.updCore_core, merged]
  · next other => rw [State.updCore_core_ne _ _ other, merged]

/-- A core whose L1s are empty. -/
def CoreSt.flushed (x : CoreSt) : Prop := x.l1d = [] ∧ x.l1i = []

theorem State.coreFlush_flushed (l : List Nat) (poison : Bool) (s : State) (j : Nat) (h : j ∈ l ∨ (s.core j).flushed) :
    ((l.foldl (fun (acc : State) k => acc.coreFlush k poison) s).core j).flushed := by
  induction l generalizing s with
  | nil => exact h.resolve_left List.not_mem_nil
  | cons k l ih =>
    refine ih _ ?_
    rw [State.coreFlush_core]
    split
    · exact .inr ⟨rfl, rfl⟩
    · next other => exact h.imp_left fun mem => (List.mem_cons.1 mem).resolve_left other

theorem State.l2Flush_lines (s : State) (c : Nat) (poison : Bool) : ((s.l2Flush c poison).cl c).l2.lines = [] := by
  unfold State.l2Flush State.updL2
  rw [State.updCl_cl]

theorem clusterOffIdle_empties {s : State} {k : Nat} (hk : k < 12) (gated : s.allGated k = true)
    (on : s.clPower k = .active ∨ s.clPower k = .retention) (idle : 100000 ≤ (s.cl k).idleFor)
    (ways : (s.cl k).scratchWays = 0) (deep : 3 ≤ s.computeState)
    (quiet : soonDue (s.clusterEvents k) s.dt 40000 = false) :
    ∃ u, exec (.clusterOffIdle k) s = .next u ∧ (u.cl k).power = .off ∧ (u.cl k).l2.lines = []
      ∧ ∀ j, j < 16 → (u.core (16 * k + j)).l1d = [] ∧ (u.core (16 * k + j)).l1i = [] := by
  have good : ¬(11 < k ∨ (s.clPower k ≠ .active ∧ s.clPower k ≠ .retention) ∨ (!s.allGated k) = true
      ∨ (s.cl k).idleFor < 100000 ∨ (s.cl k).scratchWays ≠ 0 ∨ s.computeState < 3
      ∨ soonDue (s.clusterEvents k) s.dt (exitNs 3) = true) := by
    have latency : exitNs 3 = 40000 := rfl
    rcases on with h | h <;> simp [h, gated, ways, quiet, latency] <;> omega
  refine ⟨_, if_neg good, ?_, ?_, fun j hj => ?_⟩
  · rw [State.updCl_cl]
  · rw [State.updCl_cl, State.l2Flush_lines]
  · have flushed := State.coreFlush_flushed ((List.range 16).map (16 * k + ·)) true s (16 * k + j)
      (.inl (List.mem_map.2 ⟨j, List.mem_range.2 hj, rfl⟩))
    have cores (x : State) : ((x.l2Flush k true).updCl k fun c => { c with power := .off }).cores = x.cores := by
      exact (((Reaches.refl [.clusters, .mem] x).l2Flush (by decide) (by decide) k true).updCl (by decide) k _).same .cores
        (by decide)
    rw [State.core, cores]
    exact flushed

/-! ### Wakes by a dispatch and by a known event (R534, R536) -/

theorem State.ungateAll_cl (l : List Nat) (s : State) (k : Nat) : (l.foldl State.ungate s).cl k = s.cl k := by
  refine State.foldl_keeps (·.cl k) _ (fun x c => ?_) l s
  unfold State.ungate
  split <;> rfl

/-- A sleeping cluster that may wake is waking, until its exit latency has passed. -/
theorem State.wakeCluster_cl {s : State} {k : Nat} (asleep : (s.cl k).power = .retention ∨ (s.cl k).power = .off)
    (free : s.keptAsleep = false) : ((s.wakeCluster k).cl k).power = .waking
      ∧ ((s.wakeCluster k).cl k).wakeNs = s.iv + (if (s.cl k).power = .off then 40000 else 4000) := by
  unfold State.wakeCluster
  dsimp only
  rw [if_neg (by simp [free]), if_pos asleep, State.ungateAll_cl]
  have woken (f : ClusterSt → ClusterSt) (n : Nat) : ((s.updCl k f).countWake n).cl k = f (s.cl k) := State.updCl_cl ..
  rw [woken]
  refine ⟨rfl, ?_⟩
  split <;> rfl

theorem clusterWakeDispatch_wakes {s : State} {p k : Nat} (listed : p ∈ s.order.list)
    (old : (s.rc p).listDt + 100 ≤ s.dt) (stuck : ∀ j, j < 12 → s.clusterEligible p j (s.avoidCore p) = false)
    (goes : s.order.stopped = false) (free : s.keptAsleep = false) (hk : k < 12) (admitted : (s.cl k).st = .admitted)
    (asleep : (s.cl k).power = .retention ∨ (s.cl k).power = .off)
    (lowest : ∀ j, j < k → (s.cl j).st = .admitted → (s.cl j).power ≠ .retention ∧ (s.cl j).power ≠ .off) :
    ∃ u, exec .clusterWakeDispatch s = .next u ∧ (u.cl k).power = .waking
      ∧ (u.cl k).wakeNs = s.iv + (if (s.cl k).power = .off then 40000 else 4000) := by
  have waits : (s.order.list.any fun p => decide ((s.rc p).listDt + 100 ≤ s.dt)
      && (List.range 12).all fun c => !s.clusterEligible p c (s.avoidCore p)) = true := by
    refine List.any_eq_true.2 ⟨p, listed, ?_⟩
    simpa [old] using stuck
  have first : ((List.range 12).find? fun c => (s.cl c).st = .admitted
      && ((s.cl c).power = .retention || (s.cl c).power = .off)) = some k := by
    rw [List.find?_range_eq_some]
    refine ⟨by simpa [admitted] using asleep, List.mem_range.2 hk, fun j hj => ?_⟩
    by_cases there : (s.cl j).st = .admitted
    · simp [there, lowest j hj there]
    · simp [there]
  refine ⟨s.wakeCluster k, ?_, State.wakeCluster_cl asleep free⟩
  show execClusterWakeDispatch s = _
  unfold execClusterWakeDispatch
  rw [waits, if_neg (by simp [goes]), first]
  rfl

/-- A known event that falls due wakes its part and counts one early wake. -/
theorem prewake_wakes {s : State} {part lat d : Nat} {l : List Nat} (sleeps : s.sleepOf part = some (lat, l)) (hd : d ∈ l)
    (due : d ≤ s.dt + lat) : ∃ late, exec (.prewake part) s = .next
      (let s1 := s.updPower fun p => { p with prewakes := p.prewakes + 1, prewakeLate := late }
       if part < 12 then s1.wakeCluster part else if part < 14 then s1.wakeStack (part - 12) else s1.ungate (part - 14)) := by
  have soon : d ∈ l.filter fun d => decide (d ≤ s.dt + lat) := List.mem_filter.2 ⟨hd, by simpa using due⟩
  show ∃ late, execPrewake part s = _
  unfold execPrewake
  simp only [sleeps]
  cases events : l.filter fun d => decide (d ≤ s.dt + lat) with
  | nil => simp [events] at soon
  | cons first rest => exact ⟨_, rfl⟩

theorem prewake_cluster {s : State} {k d : Nat} (hk : k < 12) (asleep : (s.cl k).power = .retention ∨ (s.cl k).power = .off)
    (hd : d ∈ s.clusterEvents k) (due : d ≤ s.dt + (if (s.cl k).power = .off then 40000 else 4000))
    (free : s.keptAsleep = false) : ∃ u, exec (.prewake k) s = .next u ∧ (u.cl k).power = .waking
      ∧ u.power.prewakes = s.power.prewakes + 1 := by
  have sleeps : s.sleepOf k = some (if (s.cl k).power = .off then 40000 else 4000, s.clusterEvents k) := by
    unfold State.sleepOf
    rw [if_pos hk]
    rcases asleep with h | h <;> rw [h] <;> rfl
  obtain ⟨late, run⟩ := prewake_wakes sleeps hd due
  refine ⟨_, run, ?_⟩
  dsimp only
  rw [if_pos hk]
  have waking := State.wakeCluster_cl (s := s.updPower fun p => { p with
    prewakes := p.prewakes + 1, prewakeLate := late }) asleep free
  exact ⟨waking.1, (PowerSt.of_unwoken (State.wakeCluster_unwoken _ k)).2.2.1⟩

theorem State.wakeStack_mode {s : State} {k : Nat} (hk : k < 2) (asleep : (s.stack k).mode = .selfRefresh) :
    ((s.wakeStack k).stack k).mode = .active := by
  obtain rfl | rfl : k = 0 ∨ k = 1 := by omega
  · unfold State.wakeStack
    rw [if_pos asleep]
    rfl
  · unfold State.wakeStack
    rw [if_pos asleep]
    rfl

theorem prewake_stack {s : State} {k d : Nat} (hk : k < 2) (asleep : (s.stack k).mode = .selfRefresh)
    (hd : d ∈ s.stackEvents k) (due : d ≤ s.dt + 1000) : ∃ u, exec (.prewake (12 + k)) s = .next u
      ∧ (u.stack k).mode = .active ∧ u.power.prewakes = s.power.prewakes + 1 := by
  have part : 12 + k - 12 = k := by omega
  have sleeps : s.sleepOf (12 + k) = some (1000, s.stackEvents k) := by
    unfold State.sleepOf
    rw [if_neg (by omega), if_pos (by omega), part, if_pos asleep]
  obtain ⟨late, run⟩ := prewake_wakes sleeps hd due
  refine ⟨_, run, ?_⟩
  dsimp only
  rw [if_neg (by omega), if_pos (by omega), part]
  exact ⟨State.wakeStack_mode hk asleep, (PowerSt.of_unwoken (State.wakeStack_unwoken _ k)).2.2.1⟩

theorem State.countWake_core (s : State) (n k : Nat) : (s.countWake n).core k = s.core k := rfl

theorem State.ungate_core (s : State) (k : Nat) : ((s.ungate k).core k).gated = false := by
  unfold State.ungate
  split
  · rw [State.countWake_core, State.updCore_core]
  · next running =>
    rw [State.updCore_core]
    simpa using running

theorem prewake_core {s : State} {k d : Nat} (hk : k < 192) (gated : (s.core k).gated = true)
    (active : s.clPower (clusterOfCore k) = .active) (hd : d ∈ s.coreEvents k) (due : d ≤ s.dt + 50) :
    ∃ u, exec (.prewake (14 + k)) s = .next u ∧ (u.core k).gated = false ∧ u.power.prewakes = s.power.prewakes + 1 := by
  have part : 14 + k - 14 = k := by omega
  have sleeps : s.sleepOf (14 + k) = some (50, s.coreEvents k) := by
    unfold State.sleepOf
    rw [if_neg (by omega), if_neg (by omega), part, if_pos ⟨by omega, gated, active⟩]
    rfl
  obtain ⟨late, run⟩ := prewake_wakes sleeps hd due
  refine ⟨_, run, ?_⟩
  dsimp only
  rw [if_neg (by omega), if_neg (by omega), part]
  exact ⟨State.ungate_core .., (PowerSt.of_unwoken (State.ungate_unwoken _ k)).2.2.1⟩

/-! ### Sensors (R537) -/

theorem sensorLevel_high {old temp : Nat} (high : 115 ≤ temp) : sensorLevel old temp = 3 := if_pos (.inl high)

theorem sensorLevel_low {old temp : Nat} (low : temp ≤ 95) : sensorLevel old temp = 0 := by
  unfold sensorLevel
  rw [if_neg (by omega), if_neg (by omega), if_neg (by omega)]

/-- The reading that a sensor gives stands whatever its level leads to. -/
theorem State.critical_frame (s : State) : s.critical.power = s.power := by
  have reached : Reaches [.out, .net, .clusters, .dci, .faults, .free] s s.critical := by
    apply Reaches.critical (.refl _ s) <;> decide
  exact reached.same .power (by decide)

theorem State.toFault_frame (s : State) (cause : Nat) :
    Reaches [.out, .dci, .faults, .free] s (s.toFault cause) := by
  apply Reaches.toFault (.refl _ s) <;> decide

theorem State.critical_faults {s : State} (ready : s.dci.st = .ready) :
    s.critical.dci.st = .fault ∧ s.critical.dci.cause = 6 ∧ s.critical.net.shut = true := by
  unfold State.critical
  extract_lets s1 s2
  have reached : Reaches [.clusters] s1 s2 := by
    refine (Reaches.refl _ s1).foldl _ fun x c => ?_
    split
    · exact .refl _ x
    · exact (Reaches.refl _ x).updCl (by decide) c _
  have dci : s2.dci = s.dci := reached.same .dci (by decide)
  have net : s2.net = s1.net := reached.same .net (by decide)
  have shut : s1.net.shut = true := rfl
  clear_value s2
  have kept : (s2.toFault 6).net = s2.net := (s2.toFault_frame 6).same .net (by decide)
  rw [if_pos (.inl (dci ▸ ready)), kept, net]
  obtain ⟨st, cause⟩ := State.toFault_dci (s := s2) (by rw [dci, ready]; decide) 6
  exact ⟨st, cause, shut⟩

theorem sensorRead_reads {s : State} {k t : Nat} (hk : k ≤ 20) (ht : t ≤ 255) (powered : s.trust.porst = false)
    (bright : s.trust.brown = false) : ∃ u, exec (.sensorRead k t) s = .next u
      ∧ (SMap.get {} u.power.sensors k).temp = t
      ∧ (115 ≤ t → (SMap.get {} u.power.sensors k).level = 3)
      ∧ (t ≤ 95 → (SMap.get {} u.power.sensors k).level = 0)
      ∧ (115 ≤ t → (SMap.get {} s.power.sensors k).level < 3 → s.dci.st = .ready → u.dci.st = .fault ∧ u.dci.cause = 6
        ∧ u.net.shut = true) := by
  let n := sensorLevel (SMap.get {} s.power.sensors k).level t
  let s1 := s.updPower fun p => { p with sensors := SMap.set {} p.sensors k ⟨n, t⟩ }
  have read : SMap.get {} s1.power.sensors k = ⟨n, t⟩ := SMap.get_set_self ..
  have shown (u : State) (same : u.power = s1.power) : (SMap.get {} u.power.sensors k).temp = t
      ∧ (115 ≤ t → (SMap.get {} u.power.sensors k).level = 3) ∧ (t ≤ 95 → (SMap.get {} u.power.sensors k).level = 0) := by
    rw [same, read]
    exact ⟨rfl, sensorLevel_high, sensorLevel_low⟩
  have good : ¬(20 < k ∨ 255 < t ∨ s.trust.porst = true ∨ s.trust.brown = true) := by
    simp only [powered, bright, Bool.false_eq_true, or_false]
    omega
  by_cases same : n = (SMap.get {} s.power.sensors k).level
  · obtain ⟨temp, high, low⟩ := shown s1 rfl
    refine ⟨s1, (if_neg good).trans (if_pos same), temp, high, low, fun hot below => ?_⟩
    exact absurd (same ▸ below) (by rw [show n = 3 from sensorLevel_high hot]; decide)
  · obtain ⟨s2, run, power, st⟩ : ∃ s2 : State, exec (.sensorRead k t) s = .next (if n = 3 then s2.critical else s2)
        ∧ s2.power = s1.power ∧ s2.dci.st = s.dci.st := by
      refine ⟨s1.event 0x0800 [(1, k), (1, n), (1, t)], (if_neg good).trans (if_neg same), ?_,
        DciSt.st_of_central (State.event_central ..)⟩
      obtain ⟨o, d, l, q, h⟩ := State.event_frame s1 0x0800 [(1, k), (1, n), (1, t)]
      rw [h]
    by_cases hot : n = 3
    · rw [if_pos hot] at run
      obtain ⟨temp, high, low⟩ := shown s2.critical (s2.critical_frame.trans power)
      exact ⟨_, run, temp, high, low, fun _ _ ready => State.critical_faults (st.trans ready)⟩
    · rw [if_neg hot] at run
      obtain ⟨temp, high, low⟩ := shown s2 power
      exact ⟨_, run, temp, high, low, fun above => absurd (sensorLevel_high above) hot⟩

/-! ### The power-fail flush (R540-R543) -/

theorem State.powerOff_cl (s : State) {k : Nat} (hk : k < 12) : (s.powerOff.cl k).power = .off := by
  unfold State.powerOff
  have off (l : List Nat) (x : State) (h : k ∈ l ∨ (x.cl k).power = .off) :
      ((l.foldl (fun (acc : State) c => acc.updCl c fun k => { k with power := .off }) x).cl k).power = .off := by
    induction l generalizing x with
    | nil => exact h.resolve_left List.not_mem_nil
    | cons c l ih =>
      refine ih _ ?_
      by_cases same : k = c
      · rw [same, State.updCl_cl]
        exact .inr rfl
      · rw [State.updCl_cl_ne _ _ same]
        exact h.imp_left fun mem => (List.mem_cons.1 mem).resolve_left same
  exact off _ _ (.inl (List.mem_range.2 hk))

/-- What stands when the parts of the device lose power. -/
structure State.stopsFor (s u : State) : Prop where
  order : u.order = s.order
  shut : u.net.shut = s.net.shut
  power : u.power.unwoken = s.power.unwoken

theorem State.sealed_stopsFor {s u : State} (h : Reaches [.out, .ledger, .dci, .faults] s u) : s.stopsFor u :=
  ⟨h.same .order (by decide), congrArg (·.shut) (h.same .net (by decide)), congrArg (·.unwoken) (h.same .power (by decide))⟩

theorem State.wakeStack_stopsFor (s : State) (k : Nat) : s.stopsFor (s.wakeStack k) :=
  have reached : Reaches [.hbm, .power] s (s.wakeStack k) := (Reaches.refl _ s).wakeStack (by decide) (by decide) k
  ⟨reached.same .order (by decide), congrArg (·.shut) (reached.same .net (by decide)), s.wakeStack_unwoken k⟩

theorem State.powerOff_stopsFor (s : State) : s.stopsFor s.powerOff := by
  have reached : Reaches [.net, .egress, .clusters] s s.powerOff := by
    apply Reaches.powerOff (.refl _ s) <;> decide
  refine ⟨reached.same .order (by decide), ?_, congrArg (·.unwoken) (reached.same .power (by decide))⟩
  have off (l : List Nat) (x : State) : (l.foldl (fun (acc : State) c => acc.updCl c fun k => { k with power := .off })
      x).net.shut = x.net.shut := by
    refine State.foldl_keeps (·.net.shut) _ (fun x c => ?_) l x
    rfl
  unfold State.powerOff
  rw [off]
  rfl

theorem State.stopsFor.trans {s t u : State} (h : s.stopsFor t) (k : t.stopsFor u) : s.stopsFor u :=
  ⟨k.order.trans h.order, k.shut.trans h.shut, k.power.trans h.power⟩

theorem powerFail_stops {s : State} (first : s.power.failing = false) (idle : s.power.flush = none)
    (powered : s.trust.porst = false) (bright : s.trust.brown = false) (ready : s.dci.st = .ready) :
    ∃ u, exec .powerFail s = .next u ∧ u.power.failing = true ∧ u.power.flush.isSome = true ∧ u.order.stopped = true
      ∧ u.net.shut = true ∧ ∀ k, k < 12 → (u.cl k).power = .off := by
  have good : ¬(s.power.failing = true ∨ s.power.flush.isSome = true ∨ s.trust.porst = true ∨ s.trust.brown = true) := by
    simp [first, idle, powered, bright]
  show ∃ u, execPowerFail s = .next u ∧ _
  unfold execPowerFail
  rw [if_neg good, if_neg (by simp [ready])]
  extract_lets s1 s2 s3 l
  have sealed : Reaches [.out, .ledger, .dci, .faults] s1 s2 := by
    unfold s2
    split
    · exact .refl _ s1
    · exact ((Reaches.refl _ s1).sealEarly (by decide) (by decide) (by decide) (by decide) 2).updLedger (by decide) _
  have off (k : Nat) (hk : k < 12) : (s3.cl k).power = .off := State.powerOff_cl _ hk
  have stops : s1.stopsFor s3 := (State.sealed_stopsFor sealed).trans
    ((s2.wakeStack_stopsFor 0).trans (((s2.wakeStack 0).wakeStack_stopsFor 1).trans (State.powerOff_stopsFor _)))
  have failing : s3.power.failing = true := (PowerSt.of_unwoken stops.power).2.2.2.1
  have stopped : s3.order.stopped = true := congrArg OrderSt.stopped stops.order
  have shut : s3.net.shut = true := stops.shut
  clear_value s3
  exact ⟨_, rfl, failing, rfl, stopped, shut, off⟩

theorem powerFailFlushDone_faults {s : State} {x : FlushRun} (flushing : s.power.flush = some x)
    (written : s.ledger.ring = none ∨ s.ledger.fault = true ∨ ∀ n ∈ x.todo, ∃ r ∈ s.ledger.recs, r.no = n ∧ r.phase = .signed)
    (ready : s.dci.st = .ready) : ∃ u, exec .powerFailFlushDone s = .next u ∧ u.power.flush = none ∧ u.dci.st = .fault
      ∧ u.dci.cause = 7 := by
  have finished : ¬(s.ledger.ring.isSome = true ∧ (!s.ledger.fault) = true
      ∧ (!x.todo.all fun n => s.ledger.recs.any fun r => r.no = n && r.phase = .signed) = true) := by
    rintro ⟨ring, whole, unsigned⟩
    rcases written with h | h | h
    · simp [h] at ring
    · simp [h] at whole
    · simp only [Bool.not_eq_true', List.all_eq_false, List.any_eq_true, not_exists, not_and] at unsigned
      obtain ⟨n, hn, none⟩ := unsigned
      obtain ⟨r, hr, no, phase⟩ := h n hn
      exact none r hr (by simp [no, phase])
  show ∃ u, execPowerFailFlushDone s = .next u ∧ _
  unfold execPowerFailFlushDone
  rw [flushing]
  dsimp -zeta only
  extract_lets signed s1
  have pushed : Reaches [.out, .ledger] s s1 := by
    unfold s1
    split
    · split
      · exact .refl _ s
      · exact ((Reaches.refl _ s).pushRecords (by decide) _ _ _).updLedger (by decide) _
    · exact .refl _ s
  have up : (s1.updPower fun p => { p with flush := none }).dci.st ≠ .fault := by
    rw [State.updPower_dci, show s1.dci = s.dci from pushed.same .dci (by decide), ready]
    decide
  obtain ⟨st, cause⟩ := State.toFault_dci up 7
  refine ⟨_, if_neg finished, ?_, st, cause⟩
  exact congrArg PowerSt.flush ((State.toFault_frame _ 7).same .power (by decide))

/-! ### The tolerances over a warm reset (R535) -/

/-- With no DEVICE_RESET due, a warm reset holds the device after its logic reset. -/
theorem warmReset_holds {s : State} (can : s.canWarm = true) (none : s.trust.resetAt = none) (ready : s.dci.st = .ready) :
    exec .warmReset s = .next (s.warmStart.updTrust fun t => { t with wrst := true }) := by
  show execWarmReset s = _
  unfold execWarmReset State.warmOrPrime
  simp [can, none, ready, done]

/-- Settles O48, step by step. -/
theorem powerAndSleep : Obligations.PowerAndSleep := by
  refine ⟨fun s c => ⟨fun tol h _ => powerPolicy_sets h, fun h => State.command_reads h rfl⟩,
    fun s f e => powerPolicy_unleased, fun s can none ready => ⟨_, warmReset_holds can none ready, fun k => rfl⟩,
    fun s k => classIdle_idles, fun s k => coreGateIdle_gates,
    fun s k hk gated => ⟨fun on => clusterRetentionIdle_retains hk gated on, fun on => clusterOffIdle_empties hk gated on⟩,
    fun s p k => clusterWakeDispatch_wakes, fun s k d => prewake_cluster, fun s k d => prewake_stack, fun s k d => prewake_core,
    fun s k t => sensorRead_reads, fun s => powerFail_stops, fun s x => powerFailFlushDone_faults, fun s => ⟨_, rfl, rfl, rfl⟩⟩

end Sys2Proof.Machine
end

section
/-!
PROOFS. O47: resets of parts by command and by fault, the restarts of the Pumphouse, and the fault log (R524, R526, R547, R552,
R560, R561).
-/

namespace Sys2Proof.Machine

/-! ### What keeps the marks of resets: everything but a reset itself (R547, R552) -/

/-- The fault state without the log and the error counters: the runs, counts and times of resets, and the fenced parts. -/
def FaultSt.marks (f : FaultSt) : FaultSt := { f with log := [], nextSeq := 1, cnt := [] }

/-- Every part of the state but the faults. -/
def notFaults : List Part :=
  [.out, .time, .net, .order, .basin, .cistern, .egress, .thrs, .truns, .scratch, .cores, .clusters, .locks, .keys, .mem, .hbm,
    .power, .tables, .ledger, .dci, .trust, .free]

theorem Reaches.faults {s u : State} (h : Reaches notFaults s u) : u.faults = s.faults := h.same .faults (by decide)

theorem Reaches.marks {s u : State} (h : Reaches notFaults s u) : u.faults.marks = s.faults.marks := congrArg _ h.faults

theorem FaultSt.resets_of_marks {f g : FaultSt} (h : f.marks = g.marks) : f.resets = g.resets :=
  (congrArg FaultSt.resets h :)

theorem State.resetCount_of_counts {s u : State} (h : u.faults.counts = s.faults.counts) (k i : Nat) :
    u.resetCount k i = s.resetCount k i :=
  congrArg (SMap.get 0 · (resetKey k i)) h

theorem State.resetCount_of_marks {s u : State} (h : u.faults.marks = s.faults.marks) (k i : Nat) :
    u.resetCount k i = s.resetCount k i :=
  State.resetCount_of_counts (congrArg FaultSt.counts h :) k i

@[simp] theorem State.event_marks (s : State) (code : Nat) (fields : List (Nat × Nat)) :
    (s.event code fields).faults.marks = s.faults.marks := by
  obtain ⟨o, d, l, n, h⟩ := s.event_frame code fields
  rw [h]
  rfl

@[simp] theorem State.errCnt_marks (s : State) (unit : Nat) (f : ErrCnt → ErrCnt) :
    (s.errCnt unit f).faults.marks = s.faults.marks := rfl

theorem State.errCnt_st (s : State) (unit : Nat) (f : ErrCnt → ErrCnt) : (s.errCnt unit f).dci.st = s.dci.st := rfl

@[simp] theorem State.raiseFault_marks (s : State) (k i cause : Nat) : (s.raiseFault k i cause).faults.marks = s.faults.marks :=
  State.event_marks ..

theorem State.raiseFault_st (s : State) (k i cause : Nat) : (s.raiseFault k i cause).dci.st = s.dci.st :=
  DciSt.st_of_central (State.event_central ..)

@[simp] theorem State.setDev_marks (s : State) (n : DevState) (cause : Nat) :
    (s.setDev n cause).faults.marks = s.faults.marks := by
  obtain ⟨o, d, l, q, h⟩ := s.setDev_frame n cause
  rw [h]
  rfl

@[simp] theorem State.toFault_marks (s : State) (cause : Nat) : (s.toFault cause).faults.marks = s.faults.marks := by
  unfold State.toFault State.deviceFault State.faultEvent
  split
  · rfl
  · exact (State.event_marks _ _ _).trans (s.setDev_marks _ _)

@[simp] theorem State.leaveLocked_marks (s : State) (reason : Nat) : (s.leaveLocked reason).faults.marks = s.faults.marks := by
  unfold State.leaveLocked
  split
  · exact State.event_marks ..
  · rfl

theorem State.fenceCheck_marks (s : State) : s.fenceCheck.faults.marks = s.faults.marks := by
  unfold State.fenceCheck
  split
  · rfl
  · dsimp only
    split
    · exact (State.event_marks _ _ _).trans
        (Reaches.marks (Reaches.disarm (.refl _ s) (by decide)))
    · rfl

theorem State.refuse_marks (s : State) (p code : Nat) : (s.refuse p code).faults.marks = s.faults.marks := by
  unfold State.refuse
  extract_lets k s0 s1 s2 s3
  have freed : Reaches notFaults s s1 := by
    have counted : Reaches notFaults s s0 := ((Reaches.refl _ s).countRefusal (by decide) _ _).updPkt (by decide) _ _
    unfold s1
    split
    · exact counted
    · split
      · apply counted.freeBuf <;> decide
      · exact counted
  have undone : Reaches notFaults s s2 := by
    refine Reaches.dropVers ?_ (by decide) _
    apply Reaches.cascade (freed.refund (by decide) _) <;> decide
  have checked : s3.faults.marks = s.faults.marks :=
    (State.fenceCheck_marks _).trans (undone.updDom (by decide) _ _).marks
  split
  · rfl
  · split
    · exact freed.marks
    · have taken {u : State} (h : Reaches notFaults s3 u) : (u.endRefused p).faults.marks = s.faults.marks :=
        (h.endRefused (by decide) p).marks.trans checked
      split
      · apply taken
        apply Reaches.clearRun (.refl _ s3) <;> decide
      · exact taken ((Reaches.refl _ s3).listDrop (by decide) _)
      · exact taken ((Reaches.refl _ s3).updWell (by decide) _ _)
      · exact taken ((Reaches.refl _ s3).updTr (by decide) _ _)
      · refine taken (Reaches.updOrder ?_ (by decide) _)
        apply Reaches.freeProv (.refl _ s3) <;> decide
      · exact checked

theorem State.startFrame_marks (s : State) (port p : Nat) : (s.startFrame port p).faults.marks = s.faults.marks := by
  unfold State.startFrame
  split
  · exact s.refuse_marks _ _
  · rfl

theorem State.frameIn_marks (s : State) (port : Nat) (words : List IWord) (ended : Bool) :
    (s.frameIn port words ended).faults.marks = s.faults.marks := by
  unfold State.frameIn
  extract_lets r s1
  have arrives : Reaches notFaults s s1 := ((Reaches.refl _ s).newFrame (by decide) _ _ _).updPort (by decide) _ _
  have written : Reaches notFaults (s1.startFrame port r.2) ((s1.startFrame port r.2).macWrite port r.2 words ended) := by
    apply Reaches.macWrite (.refl _ _) <;> decide
  exact written.marks.trans ((s1.startFrame_marks port r.2).trans arrives.marks)

theorem State.macControl_marks (s : State) (port : Nat) (bytes : List Byte) (rxerr : Bool) :
    (s.macControl port bytes rxerr).faults.marks = s.faults.marks := by
  have counts (f : MacCnt → MacCnt) : Reaches notFaults s (s.macCnt port f) := (Reaches.refl _ s).macCnt (by decide) _ _
  unfold State.macControl
  dsimp only
  split
  · exact (counts _).marks
  · split
    · split
      · exact ((counts _).pauseFor (by decide) _ _ _).marks
      · exact (counts _).marks
    · split
      · split
        · exact ((counts _).pfcTake (by decide) _ _).marks
        · exact (counts _).marks
      · split
        · exact s.frameIn_marks ..
        · exact (counts _).marks

theorem State.wire_marks (s : State) (phys : Nat) (bytes : List Byte) (good : Bool) (dt : Nat) :
    (s.wire phys bytes good dt).faults.marks = s.faults.marks := by
  have returns (bs : List Byte) : (s.macReturn phys bs).faults.marks = s.faults.marks := by
    unfold State.macReturn
    split
    · rfl
    · split
      · exact s.macControl_marks ..
      · exact s.frameIn_marks ..
  unfold State.wire
  split
  · exact returns _
  · rfl

theorem State.pumpCut_marks (s : State) (phys : Nat) : (s.pumpCut phys).faults.marks = s.faults.marks := by
  have stomped (n : TxNow) : (s.stompNow phys n).faults.marks = s.faults.marks := by
    unfold State.stompNow
    exact (Reaches.marks (((Reaches.refl _ _).stompCount (by decide) _).updEport (by decide) _ _)).trans (s.wire_marks ..)
  unfold State.pumpCut
  split
  · rfl
  · dsimp only
    split
    · exact (Reaches.marks (((Reaches.refl _ _).updPump (by decide) _ _).updRc (by decide) _ _)).trans (stomped _)
    · exact (Reaches.marks ((Reaches.refl _ _).updQueue (by decide) _ _)).trans (stomped _)

theorem State.pumpResetStart_marks (s : State) (p : Nat) : (s.pumpResetStart p).faults.marks = s.faults.marks := by
  unfold State.pumpResetStart
  extract_lets s1 qs
  have cut : s1.faults.marks = s.faults.marks := State.foldl_keeps (·.faults.marks) State.pumpCut State.pumpCut_marks _ _
  refine (Reaches.marks (Reaches.foldl (.refl _ s1) qs fun x q => ?_)).trans cut
  exact (Reaches.refl _ x).updQueue (by decide) q _

/-! ### A part's reset begins (R552) -/

theorem State.partEffect_marks (s : State) (kind idx : Nat) : (s.partEffect kind idx).faults.marks = s.faults.marks := by
  have threads (ts : List Nat) : Reaches notFaults s (s.resetThreads ts) := by
    apply Reaches.resetThreads (.refl _ s) <;> decide
  unfold State.partEffect
  split
  · exact (threads _).marks
  · refine Reaches.marks ?_
    apply (threads _).resetCore <;> decide
  · refine Reaches.marks ?_
    apply (threads _).resetCluster <;> decide
  · refine Reaches.marks ?_
    apply Reaches.parserResetStart (.refl _ s) <;> decide
  · exact s.pumpResetStart_marks _
  · rfl
  · rfl

theorem State.drainEnd_faults (s : State) (c : Nat) : (s.drainEnd c).faults = s.faults := by
  refine Reaches.faults ?_
  apply Reaches.drainEnd (.refl _ s) <;> decide

theorem State.partStart_marks (s : State) (k i : Nat) (cmds : List CmdRef) (auto : Bool) :
    (s.partStart k i cmds auto).faults.marks = { (s.bumpReset k i).faults.marks with
      resets := (s.faults.resets.filter fun r => !partContains k i r.kind r.index) ++ [⟨k, i,
        (s.faults.resets.filter fun r => partContains k i r.kind r.index).flatMap (·.cmds) ++ cmds,
        (s.runsOn (partThreads k i)).length
          + total ((s.faults.resets.filter fun r => partContains k i r.kind r.index).map (·.replayed)), s.dt⟩] } := by
  have effect := s.partEffect_marks k i
  unfold State.partStart
  extract_lets inside n run s1 s2
  have bumped : s1.faults.marks = { (s.bumpReset k i).faults.marks with
      resets := (s.faults.resets.filter fun r => !partContains k i r.kind r.index) ++ [run] } := by
    have resets := FaultSt.resets_of_marks effect
    have count := State.resetCount_of_marks effect k i
    simp only [FaultSt.marks, FaultSt.mk.injEq, true_and] at effect
    simp only [s1, State.updFaults, State.bumpReset, FaultSt.marks, count, effect]
  split
  · exact (congrArg FaultSt.marks (State.drainEnd_faults _ i)).trans bumped
  · exact bumped

theorem State.partStart_resetCount (s : State) (k i : Nat) (cmds : List CmdRef) (auto : Bool) :
    (s.partStart k i cmds auto).resetCount k i = s.resetCount k i + 1 :=
  (congrArg (SMap.get 0 · (resetKey k i)) (congrArg FaultSt.counts (s.partStart_marks k i cmds auto) :)).trans
    (s.bumpReset_resetCount k i)

theorem State.partStart_resets {s : State} (idle : s.faults.resets = []) (k i : Nat) (cmds : List CmdRef) (auto : Bool) :
    (s.partStart k i cmds auto).faults.resets = [⟨k, i, cmds, (s.runsOn (partThreads k i)).length, s.dt⟩] := by
  refine (congrArg FaultSt.resets (s.partStart_marks k i cmds auto) :).trans ?_
  simp [idle, total]

/-! ### STATE over a reset of the Pumphouse (R526) -/

theorem State.foldl_putDup_central (j : JCmd) (r : Resp) (l : List (BitVec 16)) (s : State) :
    (l.foldl (fun acc t => acc.putDup j r t) s).dci.central = s.dci.central :=
  State.foldl_keeps (·.dci.central) _ (fun x _ => x.putRsp_central ..) l s

theorem State.finish_st (s : State) (c : CmdRef) (status detail : Nat) (result tail : List Byte) :
    (s.finish c status detail result tail).dci.st = s.dci.st := by
  unfold State.finish
  split
  · rfl
  · dsimp only
    split
    · rfl
    · refine (DciSt.st_of_central ((State.foldl_putDup_central _ _ _ _).trans (State.putRsp_central ..))).trans ?_
      split <;> rfl

theorem State.answer_st (s : State) (c : CmdRef) (a : Ans) : (s.answer c a).dci.st = s.dci.st := by
  cases a with
  | reply st d r t => exact s.finish_st c st d r t
  | later => rfl
  | wait => rfl

theorem State.answer_faults (s : State) (c : CmdRef) (a : Ans) : (s.answer c a).faults = s.faults := by
  obtain ⟨o, d, h⟩ := s.answer_frame c a
  rw [h]

theorem State.leaveLocked_central (s : State) (reason : Nat) : (s.leaveLocked reason).dci.central = s.dci.central := by
  unfold State.leaveLocked
  split
  · exact State.event_central ..
  · rfl

theorem State.leaseFreeze_st (s : State) : s.leaseFreeze.dci.st = s.dci.st := by
  unfold State.leaseFreeze State.updDci
  dsimp only
  split <;> rfl

/-- What the Pumphouse's reset does to STATE and to the resets. -/
theorem State.phResetStart_state {s : State} (up : s.dci.st ≠ .phRestart) :
    s.phResetStart.dci.st = .phRestart ∧ s.phResetStart.faults.marks = s.faults.marks := by
  unfold State.phResetStart
  extract_lets s1 s2
  have st1 : s1.dci.st = .phRestart := by
    refine (congrArg DciSt.st (State.abandonAll_dci _ _)).trans ?_
    exact (s.setDev .phRestart 0).leaseFreeze_st.trans (DciSt.st_of_central (State.setDev_central up 0))
  have marks1 : s1.faults.marks = s.faults.marks :=
    (congrArg FaultSt.marks (State.abandonAll_faults _ _)).trans (s.setDev_marks _ _)
  have later : s2.dci.st = s1.dci.st ∧ s2.faults.marks = s1.faults.marks := by
    unfold s2
    split
    · exact ⟨DciSt.st_of_central (s1.leaveLocked_central 5), s1.leaveLocked_marks 5⟩
    · exact ⟨rfl, rfl⟩
  clear_value s2 s1
  exact ⟨later.1.trans st1, later.2.trans marks1⟩

theorem State.phPartStart_state {s : State} (up : s.dci.st ≠ .phRestart) (auto : Bool) :
    (s.phPartStart auto).dci.st = .phRestart ∧ (s.phPartStart auto).resetCount 6 0 = s.resetCount 6 0 + 1 := by
  obtain ⟨st, marks⟩ := State.phResetStart_state up
  refine ⟨st, ?_⟩
  rw [← State.resetCount_of_marks marks]
  exact s.phResetStart.partStart_resetCount 6 0 [] auto

/-! ### PART_RESET and its end (R552) -/

section

variable {s : State} {c : CmdRef} {k i : Nat}

theorem partResetBody_eq (there : partThere k i = true) (idle : s.faults.resets = []) (fresh : (s.guardTaken c).2 = false)
    (thread : k = 0 → (s.core (coreOf i)).retired = false) (core : k = 1 → (s.core i).retired = false)
    (well : k = 3 → (s.well i).disabled = false) : partResetBody c k i s =
      if k = 6 then ((s.answer c .ok).phPartStart false, .wait) else (s.partStart k i [c] false, .later) := by
  have present : ¬((k = 0 ∧ (s.core (coreOf i)).retired = true) ∨ (k = 1 ∧ (s.core i).retired = true)
      ∨ (k = 3 ∧ (s.well i).disabled = true)) := by
    rintro (⟨rfl, h⟩ | ⟨rfl, h⟩ | ⟨rfl, h⟩)
    · exact absurd h (by simp [thread rfl])
    · exact absurd h (by simp [core rfl])
    · exact absurd h (by simp [well rfl])
  simp [partResetBody, there, if_neg present, idle, fresh]

theorem partReset_starts (h : s.accepts c 0x0900 [(1, k), (2, i)]) (idle : s.faults.resets = [])
    (body : partResetBody c k i s = (s.partStart k i [c] false, .later)) :
    Claims.goesOn s (.partReset c k i) c fun u => u.resetCount k i = s.resetCount k i + 1
      ∧ u.faults.resets = [⟨k, i, [c], (s.runsOn (partThreads k i)).length, s.dt⟩] :=
  ⟨_, State.command_later h body, s.partStart_resetCount k i [c] false, State.partStart_resets idle k i [c] false⟩

theorem partReset_pumphouse (h : s.accepts c 0x0900 [(1, 6), (2, 0)])
    (body : partResetBody c 6 0 s = ((s.answer c .ok).phPartStart false, .wait)) :
    ∃ u, exec (.partReset c 6 0) s = .next u ∧ u.dci.st = .phRestart ∧ u.resetCount 6 0 = s.resetCount 6 0 + 1 := by
  have up : (s.answer c .ok).dci.st ≠ .phRestart := by
    rw [State.answer_st, h.1]
    decide
  obtain ⟨st, count⟩ := State.phPartStart_state up false
  refine ⟨_, State.command_waits h body, st, count.trans ?_⟩
  rw [State.resetCount, State.answer_faults, State.resetCount]

end

theorem State.partDone_resets {s : State} {r : ResetRun} (only : s.faults.resets = [r]) : (s.partDone r).faults.resets = [] := by
  unfold State.partDone
  extract_lets s1 s2 s3
  have ended : s3.faults.resets = [] := by
    have gone : s1.faults.resets = [] := by simp [s1, State.updFaults, only]
    refine (FaultSt.resets_of_marks (State.event_marks _ _ _)).trans ?_
    unfold s2
    split <;> exact gone
  have answered : (r.cmds.foldl (fun (acc : State) c => acc.finish c 0 0 [] []) s3).faults = s3.faults :=
    State.foldl_keeps (·.faults) _ (fun x c => x.answer_faults c (.reply 0 0 [] [])) r.cmds s3
  exact (congrArg FaultSt.resets answered).trans ended

theorem partResetDone_ends {s : State} {r : ResetRun} (only : s.faults.resets = [r]) (kind : r.kind ≤ 5)
    (late : r.kind ≤ 2 → r.startDt + partNs r.kind ≤ s.dt) (quiet : s.partBusy r.kind r.index = false) :
    ∃ u, exec (.partResetDone r.kind r.index) s = .next u ∧ u.faults.resets = [] := by
  have ends : ¬(r.kind = 6 ∨ s.partBusy r.kind r.index = true ∨ (r.kind ≤ 2 ∧ s.dt < r.startDt + partNs r.kind)) := by
    simp only [quiet, Bool.false_eq_true, false_or]
    omega
  refine ⟨s.partDone r, ?_, State.partDone_resets only⟩
  show execPartResetDone r.kind r.index s = _
  simp [execPartResetDone, only, ends, done]

/-! ### Faults of units and of the Pumphouse (R526, R547) -/

/-- The Pumphouse's watchdog counts its reset; the third within 10 s leads to FAULT, and before that it restarts (R526). -/
theorem State.phWatchdog_state {s : State} (ready : s.dci.st = .ready) :
    s.phWatchdog.resetCount 6 0 = s.resetCount 6 0 + 1
      ∧ (2 ≤ (s.trust.phResets.filter fun d => decide (s.dt < d + 10 * secNs)).length →
        s.phWatchdog.dci.st = .fault ∧ s.phWatchdog.dci.cause = 4)
      ∧ ((s.trust.phResets.filter fun d => decide (s.dt < d + 10 * secNs)).length < 2 →
        s.phWatchdog.dci.st = .phRestart) := by
  unfold State.phWatchdog
  extract_lets near s1 s2 s3
  have count : s2.resetCount 6 0 = s.resetCount 6 0 + 1 := s1.bumpReset_resetCount 6 0
  have marks : s3.faults.marks = s2.faults.marks :=
    (congrArg FaultSt.marks (State.abandonAll_faults _ _)).trans rfl
  have st : s3.dci.st = .ready := (congrArg DciSt.st (State.abandonAll_dci _ _)).trans ready
  have first : s1.dci.st ≠ .phRestart := by
    rw [State.updTrust_dci, ready]
    decide
  have restart := State.phPartStart_state first true
  clear_value s3
  by_cases third : 2 ≤ near.length
  · have left : ((s3.leaveLocked 5).updTime fun t => { t with ptp := {}, deferred := [] }).faults.marks = s2.faults.marks :=
      (s3.leaveLocked_marks 5).trans marks
    have healthy : ((s3.leaveLocked 5).updTime fun t => { t with ptp := {}, deferred := [] }).dci.st ≠ .fault := by
      rw [State.updTime_dci, DciSt.st_of_central (s3.leaveLocked_central 5), st]
      decide
    rw [if_pos third]
    exact ⟨(State.resetCount_of_marks ((State.toFault_marks _ 4).trans left) 6 0).trans count,
      fun _ => State.toFault_dci healthy 4, fun few => absurd third (Nat.not_le_of_lt few)⟩
  · rw [if_neg third]
    exact ⟨restart.2, fun many => absurd many third, fun _ => restart.1⟩

/-- The automatic reset of a unit's part counts it. -/
theorem State.autoReset_resetCount {s : State} {x : FaultUnit} (ready : s.dci.st = .ready)
    (helper : ∀ n i, x = .helper n i → n ≤ 2) :
    (s.autoReset x).resetCount (faultPart x).1 (faultPart x).2 = s.resetCount (faultPart x).1 (faultPart x).2 + 1 := by
  cases x with
  | helper n i => exact (s.unitReset_effect (helper n i rfl) i).2
  | pumphouse => exact (State.phWatchdog_state ready).1
  | thread t => exact s.partStart_resetCount 0 t [] true
  | core k => exact s.partStart_resetCount 1 k [] true
  | cluster k => exact s.partStart_resetCount 2 k [] true
  | well w => exact s.partStart_resetCount 3 w [] true
  | pump p => exact s.partStart_resetCount 4 p [] true
  | commit => exact s.partStart_resetCount 5 0 [] true

theorem unitFault_resets {s : State} {x : FaultUnit} {cause : Nat} (low : 1 ≤ cause) (high : cause ≤ 3)
    (ready : s.dci.st = .ready) (there : s.unitThere x = true) (idle : s.faults.resets = [])
    (first : SMap.get [] s.faults.auto (resetKey (faultPart x).1 (faultPart x).2) = []) :
    ∃ u, exec (.unitFault x cause) s = .next u
      ∧ u.resetCount (faultPart x).1 (faultPart x).2 = s.resetCount (faultPart x).1 (faultPart x).2 + 1 := by
  have helper : ∀ n i, x = .helper n i → n ≤ 2 := by
    rintro n i rfl
    simp only [State.unitThere, Bool.and_eq_true, decide_eq_true_eq] at there
    omega
  show ∃ u, execUnitFault x cause s = .next u ∧ _
  unfold execUnitFault
  extract_lets k running failed near s1
  have alone : running.isSome = false := by simp [running, idle]
  have recent : near.length = 0 := by simp only [near, k, first, List.filter_nil, List.length_nil]
  have acts : ¬(cause = 0 ∨ 4 < cause ∨ (cause = 4 ∧ (!failed) = true) ∨ (!s.unitThere x) = true ∨ s.dci.st = .priming
      ∨ s.dci.st = .warmReset) := by
    simp only [there, ready, Bool.not_true, Bool.false_eq_true, reduceCtorEq, or_false]
    omega
  have marks : s1.faults.marks = s.faults.marks := 
    (State.errCnt_marks _ _ _).trans (s.raiseFault_marks k.1 k.2 cause)
  have up : s1.dci.st = .ready :=
    (State.errCnt_st _ _ _).trans ((s.raiseFault_st k.1 k.2 cause).trans ready)
  clear_value s1 failed running near
  rw [if_neg acts, if_neg (by omega), if_neg (by simp [alone]), if_neg (by omega)]
  refine ⟨_, rfl, ?_⟩
  have noted (g : FaultSt → FaultSt) (counts : (g s1.faults).counts = s1.faults.counts) :
      ((s1.updFaults g).autoReset x).resetCount (faultPart x).1 (faultPart x).2
        = s.resetCount (faultPart x).1 (faultPart x).2 + 1 := by
    have ready' : (s1.updFaults g).dci.st = .ready := by rw [State.updFaults_dci, up]
    rw [State.autoReset_resetCount ready' helper,
      State.resetCount_of_counts (s := s) (counts.trans (congrArg FaultSt.counts marks :))]
  exact noted _ rfl

theorem phWatchdog_restarts {s : State} (ready : s.dci.st = .ready) (first : s.trust.phResets = []) :
    ∃ u, exec .phWatchdogExpiry s = .next u ∧ u.dci.st = .phRestart := by
  have few := (State.phWatchdog_state ready).2.2
  rw [first, List.filter_nil] at few
  exact ⟨s.phWatchdog, if_pos ready, few Nat.zero_lt_two⟩

theorem phWatchdog_faults {s : State} {d e : Nat} (ready : s.dci.st = .ready) (two : s.trust.phResets = [d, e])
    (hd : s.dt < d + 10000000000) (he : s.dt < e + 10000000000) :
    ∃ u, exec .phWatchdogExpiry s = .next u ∧ u.dci.st = .fault ∧ u.dci.cause = 4 := by
  have span : 10 * secNs = 10000000000 := rfl
  have third := (State.phWatchdog_state ready).2.1
  rw [two, span, List.filter_cons_of_pos (by simpa using hd), List.filter_cons_of_pos (by simpa using he)] at third
  exact ⟨s.phWatchdog, if_pos ready, third (Nat.le_add_left 2 0)⟩

/-! ### A restart of the Pumphouse ends (R526) -/

theorem DciSt.cause_of_central {d e : DciSt} (h : d.central = e.central) : d.cause = e.cause := congrArg (·.cause) h

/-- The end of a restart sets STATE and its cause, and changes nothing of the resets. -/
theorem State.leaveRestart_dci (s : State) (st : DevState) (cause : Nat) :
    (s.leaveRestart st cause).dci.st = st ∧ (s.leaveRestart st cause).dci.cause = cause
      ∧ (s.leaveRestart st cause).faults.marks = s.faults.marks := by
  unfold State.leaveRestart
  extract_lets held moved live told
  have put (x : State) (f : HostFn) : ((x.putWaiting f).irq f 2).dci.central = x.dci.central := by
    have events (l : List EvRec) (y : State) : (l.foldl (fun (acc : State) e => acc.putEvent f e) y).dci.central = y.dci.central := by
      refine State.foldl_keeps (·.dci.central) _ (fun z e => ?_) l y
      unfold State.putEvent
      split
      · exact z.updFn_central f _
      · split
        · exact (State.irq_central _ f 1).trans (z.hostWrite_central f _ _)
        · rfl
    exact (State.irq_central _ f 2).trans ((events _ _).trans (x.updFn_central f _))
  have central : told.dci.central = live.dci.central := State.foldl_keeps (·.dci.central) _ put live.fns live
  have final := (State.event_central told 0x0003 [(1, 2), (1, st.code), (1, cause)]).trans central
  have frame : Reaches [.out, .dci] live told := by
    refine Reaches.foldl (.refl _ live) _ fun x f => ?_
    apply Reaches.irq (Reaches.putWaiting (.refl _ x) _ _ _) <;> decide
  have kept : told.faults = held.faults := frame.same .faults (by decide)
  have st' : live.dci.st = st ∧ live.dci.cause = cause := ⟨rfl, rfl⟩
  clear_value told live
  refine ⟨(DciSt.st_of_central final).trans st'.1, (DciSt.cause_of_central final).trans st'.2, ?_⟩
  rw [State.event_marks, kept, State.event_marks]

theorem State.leaseThaw_st (s : State) : s.leaseThaw.dci.st = s.dci.st ∧ s.leaseThaw.dci.cause = s.dci.cause := by
  unfold State.leaseThaw State.updDci
  dsimp only
  split <;> exact ⟨rfl, rfl⟩

theorem State.rollBack_state (s : State) :
    s.rollBack.faults.marks = s.faults.marks ∧ s.rollBack.trust.meas = s.trust.meas := by
  unfold State.rollBack
  split
  · exact ⟨rfl, rfl⟩
  · next t _ =>
    have frame : Reaches [.out, .dci, .faults] (s.updTrust fun x => { x with trial := none }) _ :=
      (Reaches.refl _ _).fwState (by decide) (by decide) (by decide) t.slot 4
    have trust : _ = _ := frame.same .trust (by decide)
    exact ⟨State.event_marks .., (congrArg TrustSt.meas trust :)⟩

theorem State.deviceFault_state (s : State) : s.deviceFault.dci.central = s.dci.central
    ∧ s.deviceFault.faults.marks = s.faults.marks := ⟨State.event_central .., State.event_marks ..⟩

theorem State.copyFault_state {s : State} {r : ResetRun} (only : s.faults.resets = [r]) :
    (s.copyFault r).dci.st = .fault ∧ (s.copyFault r).dci.cause = 5 ∧ (s.copyFault r).faults.resets = []
      ∧ (s.copyFault r).trust.meas = s.trust.meas := by
  obtain ⟨rolled, meas⟩ := s.rollBack_state
  unfold State.copyFault
  have buffers : Reaches [.out, .basin, .egress] s.rollBack s.rollBack.restartBuffers := by
    apply Reaches.restartBuffers (.refl _ _) <;> decide
  have again : Reaches [.out, .basin, .egress, .dci] s.rollBack s.rollBack.restartBuffers.rerunAll :=
    (buffers.mono (by simp)).rerunAll (by decide)
  generalize s.rollBack.restartBuffers.rerunAll = x at again ⊢
  obtain ⟨st, cause, marks⟩ := x.leaveRestart_dci .fault 5
  obtain ⟨central, faulted⟩ := (x.leaveRestart .fault 5).deviceFault_state
  have left : Reaches [.out, .dci, .faults, .free] x (x.leaveRestart .fault 5).deviceFault := by
    apply Reaches.deviceFault (Reaches.leaveRestart (.refl _ x) _ _ _ _ _) <;> decide
  generalize (x.leaveRestart .fault 5).deviceFault = y at central faulted left ⊢
  obtain ⟨thawSt, thawCause⟩ := y.leaseThaw_st
  have thawed : Reaches [.dci] y y.leaseThaw := (Reaches.refl _ y).leaseThaw (by decide)
  have resets : y.leaseThaw.faults.resets = [r] := by
    rw [show y.leaseThaw.faults = y.faults from thawed.same .faults (by decide),
      FaultSt.resets_of_marks (faulted.trans marks), show x.faults = s.rollBack.faults from again.same .faults (by decide),
      FaultSt.resets_of_marks rolled, only]
  have trust : y.leaseThaw.trust.meas = s.trust.meas := by
    rw [show y.leaseThaw.trust = y.trust from thawed.same .trust (by decide),
      show y.trust = x.trust from left.same .trust (by decide),
      show x.trust = s.rollBack.trust from again.same .trust (by decide), meas]
  rw [State.updFaults_dci, State.updFaults_trust]
  exact ⟨thawSt.trans ((DciSt.st_of_central central).trans st), thawCause.trans ((DciSt.cause_of_central central).trans cause),
    by simp [State.updFaults, resets], trust⟩

theorem phRestartDone_copyFault {s : State} {r : ResetRun} (only : s.faults.resets = [r]) (kind : r.kind = 6)
    (down : s.dci.st = .phRestart) (noTrial : s.trust.trial = none) (broken : s.copyOk = false) :
    ∃ u, exec .phRestartDone s = .next u ∧ u.dci.st = .fault ∧ u.dci.cause = 5 ∧ u.faults.resets = []
      ∧ u.trust.meas = s.trust.meas := by
  refine ⟨s.copyFault r, ?_, State.copyFault_state only⟩
  show execPhRestartDone s = _
  simp [execPhRestartDone, only, kind, down, State.trialOk, noTrial, broken, done]

theorem State.partDone_st {s : State} {r : ResetRun} (kind : r.kind = 6) : (s.partDone r).dci.st = s.dci.st := by
  have answered (l : List CmdRef) (x : State) :
      (l.foldl (fun (acc : State) c => acc.finish c 0 0 [] []) x).dci.st = x.dci.st :=
    State.foldl_keeps (·.dci.st) _ (fun y c => y.finish_st c 0 0 [] []) l x
  have other : ¬(r.kind = 2 ∧ (s.cl r.index).st = .failed) := by simp [kind]
  unfold State.partDone
  extract_lets s1 s2 s3
  have same : s2 = s1 := if_neg other
  rw [answered, DciSt.st_of_central (State.event_central ..), same, State.updFaults_dci]

theorem State.logEvent_state (s : State) (code : Nat) (dt : W64) (body : List Byte) :
    (s.logEvent code dt body).dci = s.dci ∧ (s.logEvent code dt body).faults.marks = s.faults.marks := by
  have frame : ∃ l n, s.logEvent code dt body = { s with faults := { s.faults with log := l, nextSeq := n } } := by
    unfold State.logEvent
    split
    · exact ⟨_, _, rfl⟩
    · exact ⟨s.faults.log, s.faults.nextSeq, rfl⟩
  obtain ⟨l, n, h⟩ := frame
  rw [h]
  exact ⟨rfl, rfl⟩

theorem State.restarted_state (s : State) (f : HostFn) :
    (s.restarted f).dci.central = s.dci.central ∧ (s.restarted f).faults.marks = s.faults.marks := by
  unfold State.restarted
  extract_lets body
  obtain ⟨dci, marks⟩ := (s.eventOn f 0x0004 s.time.ns body).logEvent_state 0x0004 s.time.ns body
  have sent : Reaches [.out, .dci] s (s.eventOn f 0x0004 s.time.ns body) := by
    apply Reaches.eventOn (.refl _ s) <;> decide
  have faults : (s.eventOn f 0x0004 s.time.ns body).faults = s.faults := sent.same .faults (by decide)
  exact ⟨(congrArg DciSt.central dci).trans (State.eventOn_central ..), marks.trans (congrArg FaultSt.marks faults)⟩

theorem State.restartFw_marks (s : State) : s.restartFw.faults.marks = s.faults.marks := by
  have active (x : State) : Reaches notFaults x x.startActive := by
    apply Reaches.startActive (.refl _ x) <;> decide
  unfold State.restartFw
  split
  · next t _ =>
    split
    · dsimp only
      refine (State.event_marks _ _ _).trans (Reaches.marks (s := s) ?_)
      have placed : Reaches notFaults s ((s.copyFw t.image (1 - s.trust.fwPlace)).updTrust fun x => { x with
          trial := none, fwPlace := 1 - s.trust.fwPlace }) :=
        ((Reaches.refl _ s).copyFw (by decide) _ _).updTrust (by decide) _ fun _ _ h => h
      apply Reaches.confirmFw (Reaches.startFw placed _ _ _ _) <;> decide
    · exact (active _).marks.trans s.rollBack_state.1
  · exact (active s).marks

/-- A restart over a good copy of the firmware ends in READY, and no time passes. -/
theorem phRestartDone_ready {s : State} {r : ResetRun} (only : s.faults.resets = [r]) (kind : r.kind = 6)
    (down : s.dci.st = .phRestart) (whole : s.copyOk = true) :
    ∃ u, exec .phRestartDone s = .next u ∧ u.dci.st = .ready ∧ u.faults.resets = [] ∧ u.dt = s.dt := by
  have found : s.faults.resets.find? (fun r => r.kind = 6) = some r := by simp [only, kind]
  have fw : Reaches [.out, .mem, .dci, .faults, .trust] s s.restartFw := by
    apply Reaches.restartFw (.refl _ s) <;> decide
  have fwResets : s.restartFw.faults.resets = [r] := (FaultSt.resets_of_marks s.restartFw_marks).trans only
  have run : exec .phRestartDone s = .next (let s2 := (s.restartFw.restartBuffers.restartModules.rerunAll).leaveRestart .ready 0
      (s2.fns.foldl State.restarted s2).leaseThaw.partDone r) := by
    show execPhRestartDone s = _
    unfold execPhRestartDone
    rw [found]
    simp [down, whole, done]
  refine ⟨_, run, ?_⟩
  generalize s.restartFw = f at fw fwResets
  have built : Reaches [.out, .basin, .egress, .net, .dci] f f.restartBuffers.restartModules.rerunAll := by
    apply Reaches.rerunAll (Reaches.restartModules (Reaches.restartBuffers (.refl _ f) _ _ _) _) <;> decide
  generalize f.restartBuffers.restartModules.rerunAll = x at built
  obtain ⟨st, -, marks⟩ := x.leaveRestart_dci .ready 0
  have left : Reaches [.out, .dci, .faults] x (x.leaveRestart .ready 0) := by
    apply Reaches.leaveRestart (.refl _ x) <;> decide
  generalize x.leaveRestart .ready 0 = y at st marks left
  have told := State.foldl_keeps (·.dci.central) State.restarted (fun z f => (z.restarted_state f).1) y.fns y
  have kept := State.foldl_keeps (·.faults.marks) State.restarted (fun z f => (z.restarted_state f).2) y.fns y
  have same : Reaches [.out, .dci, .faults] y (y.fns.foldl State.restarted y) := by
    refine Reaches.foldl (.refl _ y) _ fun z f => ?_
    apply Reaches.restarted (.refl _ z) <;> decide
  dsimp only
  generalize y.fns.foldl State.restarted y = z at told kept same
  have thawed : Reaches [.dci] z z.leaseThaw := (Reaches.refl _ z).leaseThaw (by decide)
  have ended : Reaches [.out, .clusters, .dci, .faults] z.leaseThaw (z.leaseThaw.partDone r) := by
    apply Reaches.partDone (.refl _ _) <;> decide
  have resets : z.leaseThaw.faults.resets = [r] := by
    rw [show z.leaseThaw.faults = z.faults from thawed.same .faults (by decide), FaultSt.resets_of_marks (kept.trans marks),
      show x.faults = f.faults from built.same .faults (by decide), fwResets]
  have time : (z.leaseThaw.partDone r).time = s.time :=
    calc (z.leaseThaw.partDone r).time = z.leaseThaw.time := ended.same .time (by decide)
      _ = z.time := thawed.same .time (by decide)
      _ = y.time := same.same .time (by decide)
      _ = x.time := left.same .time (by decide)
      _ = f.time := built.same .time (by decide)
      _ = s.time := fw.same .time (by decide)
  refine ⟨?_, State.partDone_resets resets, congrArg (·.ns.toNat) time⟩
  rw [State.partDone_st kind, z.leaseThaw_st.1, DciSt.st_of_central told, st]

/-- Settles O47, clause by clause. -/
theorem faultsAndPartResets : Obligations.FaultsAndPartResets := by
  refine ⟨fun s c => ⟨fun k i h there idle fresh thread core well => ?_, fun frm n h low high => ?_,
    fun h => State.command_reads h rfl⟩, fun s r => partResetDone_ends, fun s x cause => unitFault_resets,
    fun s ready => ⟨phWatchdog_restarts ready, fun d e => phWatchdog_faults ready⟩,
    fun s r only kind down => ⟨phRestartDone_ready only kind down, phRestartDone_copyFault only kind down⟩⟩
  · have body := partResetBody_eq there idle fresh thread core well
    refine ⟨fun other => partReset_starts h idle (body.trans (if_neg other)), ?_⟩
    rintro rfl
    obtain rfl : i = 0 := by simpa [partThere] using there
    exact partReset_pumphouse h (body.trans (if_pos rfl))
  · exact State.command_reads h (if_neg (by omega))

end Sys2Proof.Machine
end

section
/-!
PROOFS. O49: halting and stepping threads, breakpoints, debug reads and writes, DEBUG_DISCARD and the trace (R523, R562-R571).
-/

namespace Sys2Proof.Machine

theorem guarded_open {s : State} (unlocked : s.debugLocked = false) (body : State → State × Ans) : guarded body s = body s := by
  simp [guarded, unlocked]

theorem Reaches.tr {ps : List Part} {s u : State} (h : Reaches ps s u) (kept : .truns ∉ ps) (t : Nat) : u.tr t = s.tr t :=
  congrArg (SMap.get ({} : ThrRun) · t) (h.same .truns kept)

theorem Reaches.thr {ps : List Part} {s u : State} (h : Reaches ps s u) (kept : .thrs ∉ ps) (t : Nat) : u.thr t = s.thr t :=
  congrArg (SMap.get ({} : Thr) · t) (h.same .thrs kept)

/-! ### Halts (R563) -/

theorem State.returnNext_run (s : State) (t : Nat) :
    ((s.returnNext t).tr t).cur = (s.tr t).cur ∧ (s.returnNext t).thrs = s.thrs := by
  unfold State.returnNext
  split
  · have listed (x : State) (p : Nat) : Reaches [.order] x (x.listPut p) := (Reaches.refl _ x).listPut (by decide) p
    refine ⟨?_, (listed _ _).same .thrs (by decide)⟩
    rw [(listed _ _).tr (by decide), State.updTr_tr]
  · exact ⟨rfl, rfl⟩

/-- A halted thread stops where it is: its run stays, and only TDETAIL and TADDR change of its registers. -/
theorem State.halt_keeps (s : State) (t : Nat) (r : HaltReason) :
    ((s.halt t r).tr t).halted = some r ∧ ((s.halt t r).tr t).cur = (s.tr t).cur
      ∧ ((s.halt t r).thr t).pc = (s.thr t).pc ∧ ∀ q, (s.halt t r).reg t q = s.reg t q := by
  obtain ⟨cur, thrs⟩ := s.returnNext_run t
  unfold State.halt
  extract_lets s1 s2
  have told : Reaches [.out, .clusters, .dci, .faults] s2 ((s2.traceRec t 4 r.code (s2.thr t).pc).event 0x0A00
      [(2, t), (1, r.code), (8, (s2.thr t).pc.toNat)]) := by
    apply Reaches.event ((Reaches.refl _ s2).traceRec (by decide) _ _ _ _) <;> decide
  generalize (s2.traceRec t 4 r.code (s2.thr t).pc).event 0x0A00 _ = u at told
  have tr : u.tr t = s1.tr t := told.tr (by decide) t
  have thr : u.thr t = { s.thr t with tdetail := r.detail, taddr := r.addr } := by
    refine (told.thr (by decide) t).trans ?_
    refine (s1.updThr_thr t _).trans ?_
    exact congrArg (fun x : Thr => { x with tdetail := r.detail, taddr := r.addr }) (congrArg (SMap.get {} · t) thrs)
  have halted : s1.tr t = { (s.returnNext t).tr t with halted := some r, stepLeft := none, str := none } := State.updTr_tr ..
  refine ⟨by rw [tr, halted], by rw [tr, halted, ← cur], by rw [thr], fun q => ?_⟩
  rw [State.reg, thr]
  rfl

section

variable {s : State} {c : CmdRef} {t : Nat}

theorem debugHaltBody_halts {release : Nat} (ht : t ≤ 1535) (hr : release ≤ 1) (there : s.inReset t = false)
    (free : (s.tr t).wait = .none) : debugHaltBody t release s = (s.debugHalt t (release = 1), .ok) := by
  have inRange : ¬(1535 < t ∨ 1 < release) := by omega
  simp [debugHaltBody, inRange, there, free]

theorem debugHalt_locked (h : s.accepts c 0x0A00 [(2, t), (1, 0)]) (locked : s.debugLocked = true) :
    Claims.refusedWith s (.debugHalt c t 0) c 8 :=
  State.command_status h (if_pos locked)

theorem debugHalt_halts (ht : t ≤ 1535) (h : s.accepts c 0x0A00 [(2, t), (1, 0)]) (unlocked : s.debugLocked = false)
    (there : s.inReset t = false) (free : (s.tr t).wait = .none) (runs : (s.tr t).halted = none) :
    Claims.answersOk s (.debugHalt c t 0) c fun u => (u.tr t).halted = some .halt ∧ (u.tr t).cur = (s.tr t).cur
      ∧ (u.thr t).pc = (s.thr t).pc ∧ ∀ r, u.reg t r = s.reg t r := by
  have halts : s.debugHalt t false = s.halt t .halt := by
    unfold State.debugHalt
    split <;> simp [runs]
  refine ⟨_, State.command_ok h ((guarded_open unlocked _).trans (debugHaltBody_halts ht (by omega) there free)), ?_⟩
  exact halts ▸ s.halt_keeps t .halt

/-- A release of a thread with no run halts it. -/
theorem debugHalt_releases (ht : t ≤ 1535) (h : s.accepts c 0x0A00 [(2, t), (1, 1)]) (unlocked : s.debugLocked = false)
    (there : s.inReset t = false) (free : (s.tr t).wait = .none) (runs : (s.tr t).halted = none)
    (idle : (s.tr t).cur = none) : Claims.answersOk s (.debugHalt c t 1) c fun u => (u.tr t).halted = some .halt := by
  have halts : s.debugHalt t true = s.halt t .halt := by simp [State.debugHalt, idle, runs]
  refine ⟨_, State.command_ok h ((guarded_open unlocked _).trans (debugHaltBody_halts ht (by omega) there free)), ?_⟩
  exact halts ▸ (s.halt_keeps t .halt).1

/-! ### Resuming and stepping (R565) -/

/-- A thread that waits for nothing issues again, with the steps left to it. -/
theorem State.resume_runs (free : (s.tr t).wait = .none) (steps : Option Nat) :
    ((s.resume t steps).tr t) = { s.tr t with halted := none, skipBreak := true, stepLeft := steps }
      ∧ (s.resume t steps).thrs = s.thrs := by
  unfold State.resume
  extract_lets s1 s2
  have traced : Reaches [.clusters] s1 s2 := (Reaches.refl _ s1).traceRec (by decide) _ _ _ _
  have tr : s2.tr t = s1.tr t := traced.tr (by decide) t
  have now : s1.tr t = { s.tr t with halted := none, skipBreak := true, stepLeft := steps } := State.updTr_tr ..
  have thrs : s2.thrs = s1.thrs := traced.same .thrs (by decide)
  have waits : (s2.tr t).wait = .none := by rw [tr, now, free]
  rw [waits]
  exact ⟨tr.trans now, thrs⟩

theorem debugResume_running (ht : t ≤ 1535) (h : s.accepts c 0x0A01 [(2, t)]) (runs : (s.tr t).halted = none) :
    Claims.answersOk s (.debugResume c t) c fun u => u = s := by
  have inRange : ¬1535 < t := by omega
  exact ⟨s, State.command_ok h (by simp [debugResumeBody, inRange, runs]), rfl⟩

theorem debugResume_resumes (ht : t ≤ 1535) (h : s.accepts c 0x0A01 [(2, t)]) (halted : (s.tr t).halted.isSome = true)
    (free : (s.tr t).wait = .none) : Claims.answersOk s (.debugResume c t) c fun u =>
      (u.tr t).halted = none ∧ (u.tr t).stepLeft = none ∧ (u.thr t).pc = (s.thr t).pc := by
  have inRange : ¬1535 < t := by omega
  obtain ⟨tr, thrs⟩ := State.resume_runs free none
  refine ⟨s.resume t none, State.command_ok h (by simp [debugResumeBody, inRange, halted]), ?_⟩
  beta_reduce
  rw [tr]
  exact ⟨rfl, rfl, congrArg (fun l => (SMap.get {} l t : Thr).pc) thrs⟩

section

variable {n : Nat} (ht : t ≤ 1535) (unlocked : s.debugLocked = false) (fresh : (s.guardTaken c).2 = false) (low : 1 ≤ n)
  (high : n ≤ 65535)
include ht unlocked fresh low high

theorem debugStepBody_first : guarded (debugStepBody c t n) s = if (s.tr t).halted.isNone then (s, wrongState)
    else ((s.updTr t fun x => { x with stepCount := x.stepCount + 1 }).resume t (some n), .ok) := by
  have inRange : ¬(1535 < t ∨ n = 0 ∨ 65535 < n) := by omega
  rw [guarded_open unlocked]
  simp [debugStepBody, fresh, debugStepNow, inRange]

theorem debugStep_running (h : s.accepts c 0x0A02 [(2, t), (2, n)]) (runs : (s.tr t).halted = none) : Claims.refusedWith s (.debugStep c t n) c 10 :=
  State.command_status h ((debugStepBody_first ht unlocked fresh low high).trans (if_pos (by simp [runs])))

theorem debugStep_steps (h : s.accepts c 0x0A02 [(2, t), (2, n)]) (free : (s.tr t).wait = .none) (halted : (s.tr t).halted.isSome = true) :
    Claims.answersOk s (.debugStep c t n) c fun u => (u.tr t).halted = none ∧ (u.tr t).stepLeft = some n
      ∧ (u.tr t).stepCount = (s.tr t).stepCount + 1 := by
  have counted : (s.updTr t fun x => { x with stepCount := x.stepCount + 1 }).tr t
      = { s.tr t with stepCount := (s.tr t).stepCount + 1 } := State.updTr_tr ..
  obtain ⟨tr, -⟩ := State.resume_runs (t := t) (s := s.updTr t fun x => { x with stepCount := x.stepCount + 1 })
    (by rw [counted, free]) (some n)
  refine ⟨_, State.command_ok h ((debugStepBody_first ht unlocked fresh low high).trans (if_neg ?_)), ?_⟩
  · simpa using Option.isSome_iff_ne_none.mp halted
  · beta_reduce
    rw [tr, counted]
    exact ⟨rfl, rfl, rfl⟩

end

/-! ### Breakpoints and the trace (R567, R571) -/

theorem debugBreakSet_sets {k i kind a : Nat} (h : s.accepts c 0x0A03 [(1, k), (1, i), (1, kind), (8, a)])
    (unlocked : s.debugLocked = false) (hk : k ≤ 11) (hi : i ≤ 7) (hkind : kind ≤ 5)
    (text : kind = 1 → a % 4 = 0 ∧ s.inText k a = true) : Claims.answersOk s (.debugBreakSet c k i kind a) c fun u =>
      SMap.get {} (u.cl k).breaks i = ⟨kind, BitVec.ofNat 64 a⟩ ∧ ∀ j, j ≠ k → u.cl j = s.cl j := by
  have formed : ¬(11 < k ∨ 7 < i ∨ 5 < kind ∨ (kind = 1 ∧ (a % 4 ≠ 0 ∨ (!s.inText k a) = true))) := by
    rintro (h | h | h | ⟨one, unaligned | outside⟩)
    · omega
    · omega
    · omega
    · exact unaligned (text one).1
    · simp [(text one).2] at outside
  refine ⟨_, State.command_ok h ((guarded_open unlocked _).trans (if_neg formed)), ?_, fun j hj => State.updCl_cl_ne _ _ hj⟩
  rw [State.updCl_cl]
  exact SMap.get_set_self ..

theorem traceConfig_sets {k m : Nat} {f : W64} (h : s.accepts c 0x0A06 [(1, k), (1, m), (8, f.toNat)])
    (unlocked : s.debugLocked = false) (hk : k ≤ 11) (hm : m ≤ 3) (hf : f.toNat < 2 ^ 25) :
    Claims.answersOk s (.traceConfig c k m f) c fun u => (u.cl k).trace = { mode := m, filter := f } := by
  have formed : ¬(11 < k ∨ 3 < m ∨ 2 ^ 25 ≤ f.toNat) := by omega
  refine ⟨_, State.command_ok h ((guarded_open unlocked _).trans (if_neg formed)), ?_⟩
  beta_reduce
  rw [State.updCl_cl]

theorem traceRead_answers {k : Nat} (h : s.accepts c 0x0A07 [(1, k)]) (unlocked : s.debugLocked = false) (hk : k ≤ 11) :
    Claims.answersData s (.traceRead c k) c (leBytes 4 (s.cl k).trace.recs.length ++ leBytes 8 (s.cl k).trace.drops.toNat
      ++ leBytes 4 (s.cl k).trace.wrapped.toNat ++ (s.cl k).trace.recs.flatMap TraceRec.image) :=
  State.command_reads h ((guarded_open unlocked _).trans (if_neg (by omega)))

/-! ### General registers (R569) -/

section

variable {n : Nat} (ht : t ≤ 1535) (hn : n < 32) (unlocked : s.debugLocked = false) (halted : (s.tr t).halted.isSome = true)
include ht hn unlocked halted

theorem debugRead_reads (h : s.accepts c 0x0A04 [(2, t), (1, 0), (8, 8 * n), (4, 8)]) :
    ∃ u : State, exec (.debugRead c t 0 (8 * n) 8) s
      = .next (u.answer c (.reply 0 0 (leBytes 8 (s.reg t (BitVec.ofNat 5 n)).toNat) [0])) ∧ u.thrs = s.thrs := by
  have formed : ¬(1535 < t ∨ 3 < 0 ∨ 8 * n % 8 ≠ 0 ∨ 8 % 8 ≠ 0 ∨ 8 = 0 ∨ 4096 < 8) := by omega
  have running : ¬(needsHalt 0 = true ∧ (s.tr t).halted.isNone = true) := by
    rintro ⟨-, none'⟩
    simp [Option.isNone_iff_eq_none.mp none'] at halted
  have read : debugReadBody t 0 (8 * n) 8 s
      = ({ s with free := s.free + 1 }, .reply 0 0 (leBytes 8 (s.reg t (BitVec.ofNat 5 n)).toNat) [0]) := by
    unfold debugReadBody
    rw [if_neg formed, if_neg running]
    simp [State.debugWords, State.debugWord, State.debugReg, State.reg, hn]
  have run := State.command_accepts s c _ _ (guarded (debugReadBody t 0 (8 * n) 8)) h
  rw [guarded_open unlocked, read] at run
  refine ⟨_, run, ?_⟩
  split <;> rfl

theorem debugWrite_writes (low : 1 ≤ n) {data : List Byte}
    (h : s.accepts c 0x0A05 [(2, t), (1, 0), (8, 8 * n), (4, 8), bytesField 24 data]) :
    Claims.answersOk s (.debugWrite c t 0 (8 * n) 8 data) c fun u =>
      u.reg t (BitVec.ofNat 5 n) = BitVec.ofNat 64 (leVal (slice data 0 8))
        ∧ ∀ r, r ≠ BitVec.ofNat 5 n → u.reg t r = s.reg t r := by
  have formed : ¬(1535 < t ∨ 3 < 0 ∨ 8 * n % 8 ≠ 0 ∨ 8 % 8 ≠ 0 ∨ 8 = 0 ∨ 24 < 8) := by omega
  have running : ¬(needsHalt 0 = true ∧ (s.tr t).halted.isNone = true) := by
    rintro ⟨-, none'⟩
    simp [Option.isNone_iff_eq_none.mp none'] at halted
  have nonzero : n ≠ 0 := by omega
  have written : debugWriteBody t 0 (8 * n) 8 data s
      = (s.updThr t fun x => x.set (BitVec.ofNat 5 n) (BitVec.ofNat 64 (leVal (slice data 0 8))), .ok) := by
    unfold debugWriteBody
    rw [if_neg formed, if_neg running]
    simp [State.debugSets, State.debugSet, State.debugSetReg, nonzero, hn]
  have set : (BitVec.ofNat 5 n : Reg) ≠ 0 := by
    intro zero
    have := congrArg BitVec.toNat zero
    simp at this
    omega
  refine ⟨_, State.command_ok h ((guarded_open unlocked _).trans written), ?_, fun r hr => ?_⟩
  · rw [State.reg, State.updThr_thr, Thr.get_set_self, if_neg set]
  · rw [State.reg, State.updThr_thr, Thr.get_set_ne _ _ hr, State.reg]

end

/-! ### DEBUG_DISCARD (R570) -/

theorem State.discardPkt_discard (s : State) (p sub : Nat) : ((s.discardPkt p sub).rc p).discard = some sub := by
  unfold State.discardPkt
  extract_lets s1
  have noted : (s1.rc p).discard = some sub := by simp only [s1, State.updRc_rc]
  clear_value s1
  split
  · exact noted
  · unfold State.storePut
    split <;> exact noted

theorem debugDiscard_absent {d : Nat} {q : W32} (h : s.accepts c 0x0A08 [(2, d), (4, q.toNat)]) (absent : s.seqPkt d q = none) :
    Claims.refusedWith s (.debugDiscard c d q) c 10 :=
  State.command_status h (by simp [debugDiscardBody, absent, wrongState])

theorem debugDiscard_discards {d p : Nat} {q : W32} (h : s.accepts c 0x0A08 [(2, d), (4, q.toNat)])
    (found : s.seqPkt d q = some p) (first : (s.rc p).discard = none) :
    Claims.answersOk s (.debugDiscard c d q) c fun u => (u.rc p).discard = some 0 := by
  have body : debugDiscardBody d q s = (((if (s.rc p).ct then s.stompCt p else s).unplace p).discardPkt p 0, .ok) := by
    unfold debugDiscardBody
    rw [found]
    exact if_neg (by simp [first])
  exact ⟨_, State.command_ok h body, State.discardPkt_discard _ p 0⟩

theorem debugDiscard_again {d p : Nat} {q : W32} (h : s.accepts c 0x0A08 [(2, d), (4, q.toNat)])
    (found : s.seqPkt d q = some p) (again : (s.rc p).discard.isSome = true) :
    Claims.answersOk s (.debugDiscard c d q) c fun u => u = s :=
  ⟨s, State.command_ok h (by simp [debugDiscardBody, found, again]), rfl⟩

end

/-- Settles O49, command by command. -/
theorem debugCommands : Obligations.DebugCommands := fun _ _ _ ht =>
  ⟨fun h => ⟨debugHalt_locked h, debugHalt_halts ht h⟩, debugHalt_releases ht, debugResume_running ht, debugResume_resumes ht,
    fun _ h unlocked fresh low high free => ⟨debugStep_running ht unlocked fresh low high h,
      debugStep_steps ht unlocked fresh low high h free⟩,
    fun _ _ _ _ => debugBreakSet_sets, fun _ hn h unlocked halted => debugRead_reads ht hn unlocked halted h,
    fun _ _ low hn h unlocked halted => debugWrite_writes ht hn unlocked halted low h,
    fun _ _ h => ⟨debugDiscard_absent h, fun _ => debugDiscard_discards h, fun _ => debugDiscard_again h⟩,
    fun _ _ _ => traceConfig_sets, fun _ => traceRead_answers⟩

end Sys2Proof.Machine
end

section
/-!
PROOFS. O50: attestation, the debug unlock, and the update and activation of firmware (R520-R523, R529, R530).
-/

namespace Sys2Proof.Machine

section

variable {s : State} {c : CmdRef}

/-! ### Attestation and the debug unlock (R520, R522, R523) -/

theorem attest_quotes {n : List Byte} (h : s.accepts c 0x0B00 [bytesField 32 n]) (trng : s.trngBad = false) :
    ∃ (u : State) (k : W64), exec (.attest c n) s = .next (u.answer c (.data (Claims.quote s n
      ++ Config.sm2Sign s.idKey (ascii "QZMDEVICE1") (sm3 (Claims.quote s n)) k))) ∧ u.trust = s.trust := by
  have body : attestBody n s = (s.draw.2, .data (Claims.quote s n
      ++ Config.sm2Sign s.idKey (ascii "QZMDEVICE1") (sm3 (Claims.quote s n)) s.draw.1)) := if_neg (by simp [trng])
  have run := State.command_accepts s c _ _ (attestBody n) h
  rw [body] at run
  refine ⟨_, _, run, ?_⟩
  split <;> rfl

theorem freeBytes_length (n len : Nat) : (Config.freeBytes n len).length = len := by
  simp [Config.freeBytes]

theorem debugChallenge_draws (h : s.accepts c 0x0B02 []) (trng : s.trngBad = false) :
    ∃ (u : State) (n : List Byte), exec (.debugChallenge c) s = .next (u.answer c (.data n)) ∧ n.length = 32
      ∧ (s.tooLong c (.data n) = false → u.trust.nonce = some (n, s.dt)) := by
  have body : debugChallengeBody s = ((s.drawBytes 32).2.updTrust fun t => { t with
      nonce := some ((s.drawBytes 32).1, s.dt) }, .data (s.drawBytes 32).1) := if_neg (by simp [trng])
  have run := State.command_accepts s c _ _ debugChallengeBody h
  rw [body] at run
  refine ⟨_, _, run, freeBytes_length _ _, fun fits => ?_⟩
  rw [if_neg (by simp [fits])]
  rfl

section

variable {n g : List Byte} (h : s.accepts c 0x0B03 [bytesField 32 n, bytesField 64 g]) (first : s.trust.unlockBy ≠ some c)
include h first

theorem debugUnlock_unasked (none' : s.trust.nonce = none) : Claims.refusedWith s (.debugUnlock c n g) c 8 :=
  State.command_status h (by simp [debugUnlockBody, first, none', authFail])

section

variable {d : Nat} (nonce : s.trust.nonce = some (n, d)) (inTime : s.dt < d + 60000000000)
include nonce inTime

omit h in
theorem debugUnlockBody_fresh : debugUnlockBody (some c) n g s =
    if SMap.get 0 s.trust.otp 0x13 ≠ 0
        ∧ Config.sm2Verify (s.otpBytes 0x13 64) (ascii "QZMDEBUG1") (sm3 (n ++ s.otpBytes 1 8)) g = true then
      (((s.updTrust fun t => { t with nonce := none }).updTrust fun t => { t with
        unlocked := true, unlockBy := some c }).logMeas 5 0 (sm3 n), .ok)
    else (s.updTrust fun t => { t with nonce := none }, authFail) := by
  have span : 60 * secNs = 60000000000 := rfl
  have other : ¬((some c).isSome = true ∧ s.trust.unlockBy = some c) := fun h => first h.2
  unfold debugUnlockBody
  extract_lets t key fresh s1
  have named : fresh = true := by simp [fresh, t, nonce, span, inTime]
  rw [if_neg other, if_neg (by simp [named])]

theorem debugUnlock_unlocks (key : SMap.get 0 s.trust.otp 0x13 ≠ 0)
    (signed : Config.sm2Verify (s.otpBytes 0x13 64) (ascii "QZMDEBUG1") (sm3 (n ++ s.otpBytes 1 8)) g = true) :
    Claims.answersOk s (.debugUnlock c n g) c fun u => u.trust.unlocked = true ∧ u.trust.nonce = none :=
  ⟨_, State.command_ok h ((debugUnlockBody_fresh first nonce inTime).trans (if_pos ⟨key, signed⟩)), rfl, rfl⟩

theorem debugUnlock_refuses (bad : SMap.get 0 s.trust.otp 0x13 = 0
      ∨ Config.sm2Verify (s.otpBytes 0x13 64) (ascii "QZMDEBUG1") (sm3 (n ++ s.otpBytes 1 8)) g = false) :
    ∃ u : State, exec (.debugUnlock c n g) s = .next (u.answer c (.status 8))
      ∧ u = { s with trust := { s.trust with nonce := none } } := by
  refine ⟨_, State.command_status h ((debugUnlockBody_fresh first nonce inTime).trans (if_neg ?_)), rfl⟩
  rintro ⟨key, signed⟩
  rcases bad with none' | unsigned
  · exact key none'
  · simp [signed] at unsigned

end

end

theorem debugNonce_expires {n : List Byte} {d : Nat} (nonce : s.trust.nonce = some (n, d)) (late : d + 60000000000 ≤ s.dt) :
    ∃ u, exec .debugNonceExpiry s = .next u ∧ u.trust = { s.trust with nonce := none } := by
  refine ⟨s.updTrust fun t => { t with nonce := none }, ?_, rfl⟩
  show execDebugNonceExpiry s = _
  unfold execDebugNonceExpiry
  rw [nonce]
  exact if_neg (Nat.not_lt.mpr late)

/-! ### Firmware is written (R529) -/

theorem State.fwState_trust (s : State) (slot st : Nat) : (s.fwState slot st).trust = s.trust := by
  obtain ⟨o, d, l, n, h⟩ := s.event_frame 0x0B00 [(1, slot), (1, st)]
  rw [State.fwState, h]

theorem State.slot_setSlot (s : State) (k : Nat) (x : FlashSlot) : (s.setSlot k x).slot k = x := by
  unfold State.setSlot State.slot
  by_cases zero : k = 0 <;> simp [zero, State.updTrust]

theorem State.slot_of_trust {s u : State} (h : u.trust = s.trust) (k : Nat) : u.slot k = s.slot k := by
  rw [State.slot, State.slot, h]

theorem fwUpdate_starts {k a n : Nat} {i : FwImage} (h : s.accepts c 0x0B04 [(1, k), (8, a), (4, n)]) (hk : k ≤ 1)
    (idle : s.trust.writing = none) (settled : s.trust.trial = none) (other : s.trust.fwSlot ≠ k) (formed : FwImage.formOk i = true)
    (len : i.header.length + i.body.length = n) (valid : s.fwOk i = true) :
    Claims.goesOn s (.fwUpdate c k a n i) c fun u => u.trust.writing = some ⟨c, k, i, s.dt⟩
      ∧ (u.slot k).image = none ∧ u.trust.fw = s.trust.fw := by
  have inRange : ¬1 < k := by omega
  have body : fwUpdateBody c k n i s = (((s.setSlot k ⟨none, 0xFF, 0xFF⟩).updTrust fun t => { t with
      writing := some ⟨c, k, i, s.dt⟩ }).fwState k 0, .later) := by
    unfold fwUpdateBody
    simp [inRange, idle, settled, other, formed, len, valid]
  refine ⟨_, State.command_later h body, ?_⟩
  beta_reduce
  rw [State.fwState_trust, State.slot_of_trust (State.fwState_trust _ k 0)]
  refine ⟨rfl, ?_, ?_⟩
  · exact congrArg FlashSlot.image (s.slot_setSlot k ⟨none, 0xFF, 0xFF⟩)
  · obtain rfl | rfl : k = 0 ∨ k = 1 := by omega
    · rfl
    · rfl

/-- The slot that a write's end leaves. -/
theorem State.slot_written (s : State) (k st : Nat) (x : FlashSlot) :
    (((s.updTrust fun t => { t with writing := none }).setSlot k x).fwState k st).slot k = x
      ∧ (((s.updTrust fun t => { t with writing := none }).setSlot k x).fwState k st).trust.writing = none := by
  refine ⟨(State.slot_of_trust (State.fwState_trust _ _ _) k).trans (State.slot_setSlot _ k x), ?_⟩
  rw [State.fwState_trust]
  unfold State.setSlot State.updTrust
  dsimp only
  split <;> rfl

section

variable {w : FwWrite} (writing : s.trust.writing = some w) (mine : w.c = c) (runs : s.phRuns = true)
include writing mine runs

theorem execFwUpdateDone_eq {ok : Bool} (ends : ok = true ∨ w.startDt + 120 * secNs ≤ s.dt) : exec (.fwUpdateDone c ok) s =
    .next (if ok = true ∧ s.dt < w.startDt + 120 * secNs then
      (((s.updTrust fun t => { t with writing := none }).setSlot w.slot ⟨some w.image, 0xFF, 0xFF⟩).fwState w.slot 1).answer c .ok
    else (((s.updTrust fun t => { t with writing := none }).setSlot w.slot ⟨none, 0xF8, 0xFF⟩).fwState w.slot 5).answer c
      timedOut) := by
  show execFwUpdateDone c ok s = _
  unfold execFwUpdateDone
  rw [writing]
  dsimp -zeta only
  extract_lets late s1
  have ended : ¬(w.c ≠ c ∨ (!s.phRuns) = true ∨ ((!ok) = true ∧ (!late) = true)) := by
    simp only [mine, ne_eq, not_true_eq_false, runs, Bool.not_true, Bool.false_eq_true, false_or, Bool.not_eq_true', late,
      decide_eq_false_iff_not, not_and, not_not]
    rintro rfl
    exact ends.resolve_left Bool.false_ne_true
  have inTime : (ok = true ∧ (!late) = true) ↔ (ok = true ∧ s.dt < w.startDt + 120 * secNs) := by simp [late]
  rw [if_neg ended, if_congr inTime rfl rfl]
  exact (apply_ite Host.Outcome.next _ _ _).symm

theorem fwUpdateDone_writes (inTime : s.dt < w.startDt + 120000000000) : Claims.answersOk s (.fwUpdateDone c true) c fun u =>
    u.slot w.slot = ⟨some w.image, 0xFF, 0xFF⟩ ∧ u.trust.writing = none := by
  refine ⟨_, (execFwUpdateDone_eq writing mine runs (.inl rfl)).trans (congrArg _ (if_pos ⟨rfl, inTime⟩)), ?_⟩
  exact s.slot_written w.slot 1 ⟨some w.image, 0xFF, 0xFF⟩

theorem fwUpdateDone_late (late : w.startDt + 120000000000 ≤ s.dt) (ok : Bool) :
    ∃ u : State, exec (.fwUpdateDone c ok) s = .next (u.answer c (.status 9))
      ∧ u.slot w.slot = ⟨none, 0xF8, 0xFF⟩ ∧ u.trust.writing = none := by
  have tooLate : ¬(ok = true ∧ s.dt < w.startDt + 120 * secNs) := fun h => absurd h.2 (Nat.not_lt.mpr late)
  refine ⟨_, (execFwUpdateDone_eq writing mine runs (.inr late)).trans (congrArg _ (if_neg tooLate)), ?_⟩
  exact s.slot_written w.slot 5 ⟨none, 0xF8, 0xFF⟩

end

/-! ### Activation (R530) -/

theorem State.phResetStart_trial (s : State) : s.phResetStart.trust.trial = s.trust.trial := by
  unfold State.phResetStart
  extract_lets s1 s2
  have held : Reaches [.out, .thrs, .truns, .locks, .dci, .faults] s s1 := by
    apply Reaches.abandonAll (Reaches.lockLeave (Reaches.leaseFreeze (Reaches.setDev (.refl _ s) _ _ _ _ _) _) _ _) <;> decide
  have left : Reaches [.out, .time, .ledger, .dci, .faults] s1 s2 := by
    unfold s2
    split
    · apply Reaches.leaveLocked (.refl _ s1) <;> decide
    · exact .refl _ s1
  have trust : s2.trust = s.trust := (left.same .trust (by decide)).trans (held.same .trust (by decide))
  clear_value s2
  exact (congrArg TrustSt.trial trust :)

theorem State.phPartStart_trial (s : State) (auto : Bool) : (s.phPartStart auto).trust.trial = s.trust.trial := by
  have started : Reaches (notFaults.filter (· ≠ .trust) ++ [.faults]) s.phResetStart (s.phPartStart auto) := by
    apply Reaches.partStart (.refl _ _) <;> decide
  exact (congrArg TrustSt.trial (started.same .trust (by decide))).trans s.phResetStart_trial

theorem State.fwState_st (s : State) (slot st : Nat) : (s.fwState slot st).dci.st = s.dci.st :=
  DciSt.st_of_central (State.event_central ..)

theorem fwActivate_restarts {k : Nat} {i : FwImage} (h : s.accepts c 0x0B05 [(1, k)]) (hk : k ≤ 1)
    (idle : s.trust.writing = none) (settled : s.trust.trial = none) (image : (s.slot k).image = some i)
    (valid : s.fwOk i = true) : ∃ u, exec (.fwActivate c k) s = .next u ∧ u.dci.st = .phRestart
      ∧ u.trust.trial = some ⟨k, i, s.dt⟩ := by
  have inRange : ¬1 < k := by omega
  have body : fwActivateBody c k s = ((((s.answer c .ok).fwState k 2).updTrust fun t => { t with
      trial := some ⟨k, i, s.dt⟩ }).phPartStart false, .wait) := by
    unfold fwActivateBody
    simp [inRange, idle, settled, image, valid]
  have up : (((s.answer c .ok).fwState k 2).updTrust fun t => { t with trial := some ⟨k, i, s.dt⟩ }).dci.st ≠ .phRestart := by
    rw [State.updTrust_dci, State.fwState_st, State.answer_st, h.1]
    decide
  exact ⟨_, State.command_waits h body, (State.phPartStart_state up false).1, State.phPartStart_trial _ false⟩

theorem fwConfirmTimeout_rolls {t : FwTrial} (trial : s.trust.trial = some t) (down : s.dci.st = .phRestart)
    (late : t.startDt + 2000000000 ≤ s.dt) :
    ∃ u, exec .fwConfirmTimeout s = .next u ∧ u.trust.trial = none ∧ u.trust.fw = s.trust.fw := by
  have ends : ¬(s.dci.st ≠ .phRestart ∨ s.dt < t.startDt + 2 * secNs) := by
    rintro (h | h)
    · exact h down
    · exact absurd h (Nat.not_lt.mpr late)
  have rolled : s.rollBack.trust = { s.trust with trial := none } := by
    rw [State.rollBack, trial]
    exact State.fwState_trust _ t.slot 4
  refine ⟨s.rollBack, ?_, by rw [rolled], by rw [rolled]⟩
  show execFwConfirmTimeout s = _
  unfold execFwConfirmTimeout
  rw [trial]
  exact if_neg ends

end

/-- Settles O50, command by command. -/
theorem trustAndFirmware : Obligations.TrustAndFirmware := fun _ _ =>
  ⟨fun _ => attest_quotes, fun h => State.command_reads h rfl, debugChallenge_draws,
    fun _ _ h first => ⟨debugUnlock_unasked h first, fun _ nonce inTime => debugUnlock_unlocks h first nonce inTime,
      fun _ nonce inTime => debugUnlock_refuses h first nonce inTime⟩,
    fun _ _ => debugNonce_expires, fun _ _ _ _ => fwUpdate_starts,
    fun _ writing mine runs => ⟨fwUpdateDone_writes writing mine runs, fwUpdateDone_late writing mine runs⟩,
    fun _ _ => fwActivate_restarts, fun _ => fwConfirmTimeout_rolls⟩

end Sys2Proof.Machine
end

section
/-!
PROOFS. O51: priming, the host's push of firmware, and the cold and warm resets (R507-R515, R524-R528, R586).
-/

namespace Sys2Proof.Machine

/-! ### What starts (R512-R514, R519, R521) -/

theorem State.logMeas_frame (s : State) (type index : Nat) (digest : List Byte) : ∃ c m o,
    s.logMeas type index digest = s.updTrust fun t => { t with chain := c, meas := m, overflow := o } := ⟨_, _, _, rfl⟩

theorem State.startFw_state (s : State) (n : Nat) (i : FwImage) :
    (s.startFw n i).trust.fw = some i ∧ (s.startFw n i).trust.fwSlot = n ∧ (s.startFw n i).trust.obs = s.trust.obs
      ∧ (s.startFw n i).dci = { s.dci with firmware := BitVec.ofNat 32 (FwImage.version i) } := by
  obtain ⟨c, m, o, h⟩ := ((s.updTrust fun t => { t with fw := some i, fwSlot := n }).updDci fun d => { d with
    firmware := BitVec.ofNat 32 (FwImage.version i) }).logMeas_frame 3 n (sm3 i.header)
  rw [State.startFw, h]
  exact ⟨rfl, rfl, rfl, rfl⟩

theorem State.setSlot_fw (s : State) (k : Nat) (x : FlashSlot) : (s.setSlot k x).trust.fw = s.trust.fw
    ∧ (s.setSlot k x).trust.fwSlot = s.trust.fwSlot ∧ (s.setSlot k x).trust.obs = s.trust.obs := by
  unfold State.setSlot State.updTrust
  dsimp only
  split <;> exact ⟨rfl, rfl, rfl⟩

theorem State.raiseSvn_fw (s : State) (id n : Nat) :
    (s.raiseSvn id n).trust.fw = s.trust.fw ∧ (s.raiseSvn id n).trust.fwSlot = s.trust.fwSlot := by
  unfold State.raiseSvn
  split
  · exact ⟨rfl, rfl⟩
  · extract_lets s1
    obtain ⟨c, m, o, h⟩ := s1.logMeas_frame 6 (id - 0x20) [BitVec.ofNat 8 (s1.svn id)]
    rw [h]
    exact ⟨rfl, rfl⟩

theorem State.confirmFw_fw (s : State) :
    s.confirmFw.trust.fw = s.trust.fw ∧ s.confirmFw.trust.fwSlot = s.trust.fwSlot := by
  unfold State.confirmFw
  split
  · exact ⟨rfl, rfl⟩
  · split
    · exact ⟨rfl, rfl⟩
    · extract_lets x s1
      obtain ⟨fw, slot, -⟩ : s1.trust.fw = _ ∧ s1.trust.fwSlot = _ ∧ s1.trust.obs = _ := s.setSlot_fw _ _
      split
      · obtain ⟨fw', slot'⟩ := s1.raiseSvn_fw 0x20 _
        exact ⟨fw'.trans fw, slot'.trans slot⟩
      · exact ⟨fw, slot⟩

/-! ### The steps of priming up to READY (R508) -/

/-- What a step of priming leaves of the firmware that runs. -/
structure State.sameFw (s u : State) : Prop where
  fw : u.trust.fw = s.trust.fw
  slot : u.trust.fwSlot = s.trust.fwSlot
  shown : u.dci.firmware = s.dci.firmware

theorem State.sameFw.trans {s t u : State} (h : s.sameFw t) (k : t.sameFw u) : s.sameFw u :=
  ⟨k.fw.trans h.fw, k.slot.trans h.slot, k.shown.trans h.shown⟩

theorem Reaches.sameFw {ps : List Part} {s u : State} (h : Reaches ps s u) (trust : .trust ∉ ps) (dci : .dci ∉ ps) :
    s.sameFw u := by
  have trust' : u.trust = s.trust := h.same .trust trust
  have dci' : u.dci = s.dci := h.same .dci dci
  exact ⟨by rw [trust'], by rw [trust'], by rw [dci']⟩

theorem State.primeReady_ready {s : State} (notYet : s.dci.st ≠ .ready) :
    (s.primeReady false).dci.st = .ready ∧ s.sameFw (s.primeReady false) := by
  have moved := State.setDev_central (s := s.setStep 6) (n := .ready) notYet 0
  have trust : ((s.setStep 6).setDev .ready 0).trust = s.trust := by
    obtain ⟨o, d, l, q, h⟩ := (s.setStep 6).setDev_frame .ready 0
    rw [h]
    rfl
  unfold State.primeReady
  extract_lets s1 s2
  rw [if_neg Bool.false_ne_true]
  have confirmed : Reaches [.trust] ((s.setStep 6).setDev .ready 0) ((s.setStep 6).setDev .ready 0).confirmFw :=
    (Reaches.refl _ _).confirmFw (by decide)
  have dropped : Reaches [.basin] ((s.setStep 6).setDev .ready 0).confirmFw s1 := (Reaches.refl _ _).poolDrop (by decide) 7
  have resumed : Reaches [.ledger] s1 s2 := by
    unfold s2
    split
    · exact ((Reaches.refl _ s1).openEpoch (by decide) _).updLedger (by decide) _
    · exact .refl _ s1
  obtain ⟨fw, slot⟩ := ((s.setStep 6).setDev .ready 0).confirmFw_fw
  have dci : s2.dci = ((s.setStep 6).setDev .ready 0).dci :=
    (resumed.same .dci (by decide)).trans ((dropped.same .dci (by decide)).trans (confirmed.same .dci (by decide)))
  have trust2 : s2.trust = ((s.setStep 6).setDev .ready 0).confirmFw.trust :=
    (resumed.same .trust (by decide)).trans (dropped.same .trust (by decide))
  clear_value s2 s1
  generalize (s.setStep 6).setDev .ready 0 = y at *
  refine ⟨?_, ?_, ?_, ?_⟩
  · rw [dci, DciSt.st_of_central moved]
  · rw [trust2, fw, trust]
  · rw [trust2, slot, trust]
  · rw [dci]
    exact (congrArg DciSt.firmware moved :)

/-- The observations of a good part: no array beyond repair stops priming, every pseudo-channel trains, and the TRNG is healthy. -/
structure Healthy (o : PrimingObs) : Prop where
  sram : o.sramFatal = false
  pcs : badPcsOf o = []
  trng : o.trngOk = true

theorem State.primeRest_ready {s : State} {o : PrimingObs} (obs : s.trust.obs = some o) (good : Healthy o)
    (priming : s.dci.st = .priming) : s.primeRest.dci.st = .ready ∧ s.sameFw s.primeRest := by
  unfold State.primeRest
  rw [obs]
  dsimp -zeta only
  extract_lets warm fault s1 s2 s3 k
  have cold : ¬warm := by simp [warm, priming]
  have trained : Reaches [.basin, .cores, .clusters, .cistern, .mem, .hbm] s s2 := by
    have tested : Reaches [.basin, .cores, .clusters, .cistern, .mem, .hbm] s s1 := by
      apply Reaches.bistDone (.refl _ s) <;> decide
    unfold s2
    rw [if_neg cold]
    apply Reaches.stacks (Reaches.coldTrain tested _ _ _ _) <;> decide
  have copied : Reaches [.basin, .cores, .clusters, .cistern, .mem, .hbm] s s3 := by
    unfold s3
    split
    · exact trained.copyFw (by decide) _ _
    · exact trained
  have drawn : Reaches [.basin, .cores, .clusters, .cistern, .mem, .hbm, .free] s k.2 :=
    (copied.mono (by decide)).drawBytes (by decide) 32
  have waits {u : State} (same : u.dci = s.dci) : u.dci.st ≠ .ready := by
    rw [same, priming]
    decide
  rw [if_neg (by simp [good.sram]), if_neg (by simp [good.pcs]), decide_eq_false cold]
  split
  · obtain ⟨st, fw⟩ := State.primeReady_ready (waits (copied.same .dci (by decide)))
    exact ⟨st, (copied.sameFw (by decide) (by decide)).trans fw⟩
  · rw [if_neg (by simp [good.trng])]
    have kept := drawn.sameFw (by decide) (by decide)
    have dci : k.2.dci = s.dci := drawn.same .dci (by decide)
    clear_value k
    have stored (f : TrustSt → SMap Nat) : k.2.sameFw (k.2.updTrust fun t => { t with otp := f t }) := ⟨rfl, rfl, rfl⟩
    obtain ⟨st, fw⟩ := State.primeReady_ready (s := k.2.updTrust fun t => { t with otp := SMap.set 0 t.otp 2 (leVal k.1) })
      (by rw [State.updTrust_dci]; exact waits dci)
    exact ⟨st, kept.trans ((stored fun t => SMap.set 0 t.otp 2 (leVal k.1)).trans fw)⟩

/-- Firmware that starts on a good part runs on to READY. -/
theorem State.startFw_ready {s : State} {o : PrimingObs} (obs : s.trust.obs = some o) (good : Healthy o)
    (priming : s.dci.st = .priming) (n : Nat) (i : FwImage) : (s.startFw n i).primeRest.dci.st = .ready
      ∧ (s.startFw n i).primeRest.trust.fw = some i ∧ (s.startFw n i).primeRest.trust.fwSlot = n
      ∧ (s.startFw n i).primeRest.dci.firmware = BitVec.ofNat 32 (FwImage.version i) := by
  obtain ⟨fw, slot, seen, dci⟩ := s.startFw_state n i
  obtain ⟨st, same⟩ := State.primeRest_ready (seen.trans obs) good (by rw [dci]; exact priming)
  exact ⟨st, same.fw.trans fw, same.slot.trans slot, by rw [same.shown, dci]⟩

/-! ### Choosing a slot (R514) -/

theorem State.chooseSlot_of_trust {s u : State} (a : u.trust.slotA = s.trust.slotA) (b : u.trust.slotB = s.trust.slotB)
    (otp : u.trust.otp = s.trust.otp) (straps : u.trust.straps = s.trust.straps) : u.chooseSlot = s.chooseSlot := by
  have header (i : FwImage) : u.fwHeaderOk i = s.fwHeaderOk i := by
    unfold State.fwHeaderOk State.otpBytes State.svn
    rw [otp]
  have slot (n : Nat) : u.slot n = s.slot n := by rw [State.slot, State.slot, a, b]
  have candidate (n : Nat) : u.candidate n = s.candidate n := by
    unfold State.candidate
    simp only [slot, header]
  unfold State.chooseSlot
  rw [candidate, candidate, straps]

theorem State.chooseSlot_empty {s : State} (a : s.trust.slotA.image = none) (b : s.trust.slotB.image = none) :
    s.chooseSlot = none := by
  have slotA : s.candidate 0 = none := by simp [State.candidate, State.slot, a]
  have slotB : s.candidate 1 = none := by simp [State.candidate, State.slot, b]
  simp [State.chooseSlot, slotA, slotB]

/-! ### Cold priming (R508, R510, R514) -/

theorem State.tried_state (x : State) (n : Nat) : (x.tried n).trust.obs = x.trust.obs ∧ (x.tried n).dci = x.dci := by
  unfold State.tried
  dsimp only
  split
  · exact ⟨rfl, rfl⟩
  · exact ⟨(x.setSlot_fw _ _).2.2, rfl⟩

/-- The state in which the straps are sampled and the boot ROM is measured. -/
structure State.sampled (s : State) (o : PrimingObs) (u : State) : Prop where
  obs : u.trust.obs = some o
  porst : u.trust.porst = false
  straps : u.trust.straps = ⟨o.bootSrc, o.pcieMode, o.strapSafe⟩
  slotA : u.trust.slotA = o.slotA
  slotB : u.trust.slotB = o.slotB
  otp : u.trust.otp = s.trust.otp
  dci : u.dci = s.dci

theorem coldPriming_samples {s : State} (powered : s.trust.brown = false) (first : s.trust.obs = none) (o : PrimingObs) :
    ∃ x, exec (.coldPriming o) s = .next x.fwFetch ∧ s.sampled o x := by
  have starts : ¬(s.trust.brown = true ∨ s.trust.obs.isSome = true) := by simp [powered, first]
  show ∃ x, execColdPriming o s = _ ∧ _
  unfold execColdPriming
  rw [if_neg starts]
  extract_lets s1
  obtain ⟨c1, m1, o1, rom⟩ := s1.logMeas_frame 1 Config.romRev.toNat Config.romDigest
  obtain ⟨c2, m2, o2, config⟩ := (s1.logMeas 1 Config.romRev.toNat Config.romDigest).logMeas_frame 2 0 s1.otpConfig
  refine ⟨_, rfl, ?_⟩
  rw [config, rom]
  exact ⟨rfl, rfl, rfl, rfl, rfl, rfl, rfl⟩

section

variable {s : State} {o : PrimingObs} (powered : s.trust.brown = false) (first : s.trust.obs = none)
include powered first

theorem coldPriming_manufacturing (src : o.bootSrc = 3) : ∃ u, exec (.coldPriming o) s = .next u ∧ u.trust.obs = some o
    ∧ u.trust.porst = false ∧ u.dci.step = 7 ∧ u.trust.straps = ⟨o.bootSrc, o.pcieMode, o.strapSafe⟩ := by
  obtain ⟨x, run, seen⟩ := coldPriming_samples powered first o
  have stops : x.fwFetch = x.setStep 7 := if_pos (by rw [seen.straps, src])
  rw [stops] at run
  exact ⟨_, run, seen.obs, seen.porst, rfl, seen.straps⟩

theorem coldPriming_waits (src : o.bootSrc = 1) : ∃ u, exec (.coldPriming o) s = .next u
    ∧ u.trust.boot.waits = some .hostA ∧ u.dci.step = 2 := by
  obtain ⟨x, run, seen⟩ := coldPriming_samples powered first o
  have push : x.pushFn = some .hostA := by simp [State.pushFn, seen.straps, src]
  have waits : x.fwFetch = x.waitPush .hostA 0 := by
    unfold State.fwFetch
    rw [if_neg (by simp [seen.straps, src]), push]
  rw [waits] at run
  exact ⟨_, run, rfl, rfl⟩

theorem coldPriming_empty (src : o.bootSrc = 0) (a : o.slotA.image = none) (b : o.slotB.image = none) :
    ∃ u, exec (.coldPriming o) s = .next u ∧ u.trust.boot.waits = some .hostA ∧ u.trust.boot.status = 5 ∧ u.dci.step = 2 := by
  obtain ⟨x, run, seen⟩ := coldPriming_samples powered first o
  have push : x.pushFn = none := by simp [State.pushFn, seen.straps, src]
  have none' : x.chooseSlot = none := State.chooseSlot_empty (by rw [seen.slotA, a]) (by rw [seen.slotB, b])
  have waits : x.fwFetch = x.waitPush .hostA 5 := by
    unfold State.fwFetch
    rw [if_neg (by simp [seen.straps, src]), push, none']
  rw [waits] at run
  exact ⟨_, run, rfl, rfl, rfl⟩

theorem coldPriming_ready {n : Nat} {i : FwImage} (src : o.bootSrc = 0) (good : Healthy o) (priming : s.dci.st = .priming)
    (chosen : (s.updTrust fun t => { t with
      slotA := o.slotA, slotB := o.slotB, straps := ⟨o.bootSrc, o.pcieMode, o.strapSafe⟩ }).chooseSlot = some (n, i)) :
    ∃ u, exec (.coldPriming o) s = .next u ∧ u.dci.st = .ready ∧ u.trust.fw = some i ∧ u.trust.fwSlot = n
      ∧ u.dci.firmware = BitVec.ofNat 32 (FwImage.version i) := by
  obtain ⟨x, run, seen⟩ := coldPriming_samples powered first o
  have push : x.pushFn = none := by simp [State.pushFn, seen.straps, src]
  have choice : x.chooseSlot = some (n, i) :=
    (State.chooseSlot_of_trust (s := s.updTrust fun t => { t with slotA := o.slotA, slotB := o.slotB, straps := _ })
      seen.slotA seen.slotB seen.otp seen.straps).trans chosen
  have starts : x.fwFetch = ((x.tried n).startFw n i).primeRest := by
    unfold State.fwFetch
    rw [if_neg (by simp [seen.straps, src]), push, choice]
  obtain ⟨obs, dci⟩ := x.tried_state n
  rw [starts] at run
  exact ⟨_, run, State.startFw_ready (obs.trans seen.obs) good (by rw [dci, seen.dci, priming]) n i⟩

end

/-! ### The host's push (R515) -/

/-- The word that GO writes: LEN in its low 24 bits, and bit 24. -/
theorem goWord {n : Nat} (hn : n < 16777216) :
    let v : W64 := BitVec.ofNat 64 (n % 16777216 + 16777216)
    v.toNat % 2 ^ 24 = n ∧ v.getLsbD 24 = true ∧ v &&& 0xFFFFFF = BitVec.ofNat 64 n := by
  intro v
  have value : v.toNat = n + 16777216 := by
    simp only [v, BitVec.toNat_ofNat]
    omega
  refine ⟨by omega, ?_, ?_⟩
  · rw [BitVec.getLsbD, value, Nat.testBit_eq_decide_div_mod_eq, decide_eq_true_eq]
    omega
  · apply BitVec.eq_of_toNat_eq
    have mask : (0xFFFFFF : W64).toNat = 2 ^ 24 - 1 := rfl
    rw [BitVec.toNat_and, mask, Nat.and_two_pow_sub_one_eq_mod, value, BitVec.toNat_ofNat]
    omega

section

variable {s : State}

theorem hostPushGo_goes {f : HostFn} {n : Nat} (waits : s.trust.boot.waits = some f) (idle : s.trust.boot.status ≠ 1)
    (hn : n < 16777216) : ∃ u, exec (.hostPushGo f n) s = .next u ∧ u.trust.boot.ctl = BitVec.ofNat 64 n
      ∧ u.trust.boot.status = if 512 ≤ n ∧ n ≤ 8388608 then 1 else 4 := by
  obtain ⟨len, go, low⟩ := goWord hn
  refine ⟨s.bootWrite f 0x4008 (BitVec.ofNat 64 (n % 16777216 + 16777216)), rfl, ?_⟩
  unfold State.bootWrite
  generalize BitVec.ofNat 64 (n % 16777216 + 16777216) = v at len go low
  dsimp only
  rw [if_neg (not_not.mpr waits), if_neg (by decide)]
  refine ⟨low, ?_⟩
  have started : ¬((!v.getLsbD 24) = true ∨ s.trust.boot.status = 1) := by simp [go, idle]
  have range : (n < 512 ∨ 8388608 < n) ↔ ¬(512 ≤ n ∧ n ≤ 8388608) := by omega
  rw [len, if_neg started, if_congr range rfl rfl, ite_not]

theorem hostPushDone_malformed {i : FwImage} (reads : s.trust.boot.status = 1) (waits : s.trust.boot.waits.isSome = true)
    (malformed : FwImage.formOk i = false) :
    ∃ u, exec (.hostPushDone i) s = .next u ∧ u.trust.boot.status = 4 ∧ u.trust.fw = s.trust.fw := by
  have acts : ¬(s.trust.boot.status ≠ 1 ∨ s.trust.boot.waits.isNone = true) := by
    simp [reads, Option.isSome_iff_ne_none.mp waits]
  exact ⟨_, (if_neg acts).trans (if_pos (.inl (by simp [malformed]))), rfl, rfl⟩

section

variable {i : FwImage} (reads : s.trust.boot.status = 1) (waits : s.trust.boot.waits.isSome = true)
  (formed : FwImage.formOk i = true) (len : i.header.length + i.body.length = s.trust.boot.ctl.toNat % 16777216)
include reads waits formed len

theorem execHostPushDone_formed : exec (.hostPushDone i) s = .next (if s.fwOk i = true then
    ((s.updTrust fun t => { t with boot := { t.boot with status := 2, waits := none } }).startFw 2 i).primeRest
    else s.updTrust fun t => { t with boot := { t.boot with status := 3 } }) := by
  have acts : ¬(s.trust.boot.status ≠ 1 ∨ s.trust.boot.waits.isNone = true) := by
    simp [reads, Option.isSome_iff_ne_none.mp waits]
  have whole : ¬((!FwImage.formOk i) = true ∨ i.header.length + i.body.length ≠ s.trust.boot.ctl.toNat % 16777216) := by
    simp [formed, len]
  show execHostPushDone i s = _
  unfold execHostPushDone
  dsimp only
  rw [if_neg acts, if_neg whole]
  by_cases valid : s.fwOk i = true <;> simp [valid, done]

theorem hostPushDone_invalid (invalid : s.fwOk i = false) : ∃ u, exec (.hostPushDone i) s = .next u
    ∧ u.trust.boot.status = 3 ∧ u.trust.fw = s.trust.fw ∧ u.dci = s.dci :=
  ⟨_, (execHostPushDone_formed reads waits formed len).trans (congrArg _ (if_neg (by simp [invalid]))), rfl, rfl, rfl⟩

theorem hostPushDone_starts {o : PrimingObs} (valid : s.fwOk i = true) (obs : s.trust.obs = some o) (good : Healthy o)
    (priming : s.dci.st = .priming) : ∃ u, exec (.hostPushDone i) s = .next u ∧ u.dci.st = .ready ∧ u.trust.fw = some i
      ∧ u.dci.firmware = BitVec.ofNat 32 (FwImage.version i) := by
  obtain ⟨st, fw, -, shown⟩ := State.startFw_ready (s := s.updTrust fun t => { t with
    boot := { t.boot with status := 2, waits := none } }) obs good priming 2 i
  exact ⟨_, (execHostPushDone_formed reads waits formed len).trans (congrArg _ (if_pos valid)), st, fw, shown⟩

end

end

/-! ### Warm reset (R525, R527) -/

/-- What a warm reset keeps, and what its logic reset clears. -/
structure State.warmed (s u : State) : Prop where
  st : u.dci.st = .warmReset
  dt : u.dt = s.dt
  mem : u.mem = s.mem
  otp : u.trust.otp = s.trust.otp
  meas : u.trust.meas = s.trust.meas
  straps : u.trust.straps = s.trust.straps
  wrst : u.trust.wrst = s.trust.wrst
  thrs : u.thrs = State.reset.thrs

theorem State.sealClosing_st (s : State) : s.sealClosing.dci.st = s.dci.st := by
  have sent (x : State) (code : Nat) (fields : List (Nat × Nat)) : (x.event code fields).dci.st = x.dci.st :=
    DciSt.st_of_central (x.event_central code fields)
  unfold State.sealClosing
  split
  · rfl
  · next e _ =>
    extract_lets slots rec' s1 gone x s2 old
    have zeroed : s2.dci.st = s.dci.st := by
      unfold s2
      split
      · split
        · exact sent _ _ _
        · rfl
      · rfl
    split
    · exact (sent s2 _ _).trans zeroed
    · exact zeroed

theorem State.sealEarly_st (s : State) (cause : Nat) : (s.sealEarly cause).dci.st = s.dci.st := by
  unfold State.sealEarly
  extract_lets s1 s2
  have early : s2.dci.st = s1.dci.st := by
    unfold s2
    split
    · rfl
    · exact State.sealClosing_st _
  exact early.trans s.sealClosing_st

/-- The state that the logic reset of a warm reset finds. -/
structure State.stopped (s x : State) : Prop where
  frame : Reaches [.out, .time, .net, .ledger, .dci, .faults] s x
  dt : x.dt = s.dt
  st : s.dci.st ≠ .warmReset → x.dci.st = .warmReset

theorem State.warmStart_stops (s : State) : ∃ x, s.warmStart = x.logicReset ∧ s.stopped x := by
  unfold State.warmStart
  extract_lets s1 s2 s3
  refine ⟨s3, rfl, ?_⟩
  have begun : Reaches [.out, .net, .dci, .faults] s s1 := by
    refine Reaches.updNet ?_ (by decide) _
    apply Reaches.leaseFreeze (Reaches.setDev (.refl _ s) _ _ _ _ _) <;> decide
  have st1 : s.dci.st ≠ .warmReset → s1.dci.st = .warmReset := fun moves =>
    (State.leaseFreeze_st _).trans (DciSt.st_of_central (State.setDev_central moves 0))
  have left : Reaches [.out, .time, .ledger, .dci, .faults] s1 s2 ∧ s2.dci.st = s1.dci.st ∧ s2.dt = s1.dt := by
    unfold s2
    split
    · refine ⟨?_, DciSt.st_of_central (s1.leaveLocked_central 5), ?_⟩
      · apply Reaches.leaveLocked (.refl _ s1) <;> decide
      · next locked =>
        unfold State.leaveLocked
        rw [if_pos locked]
        exact congrArg (·.ns.toNat) (State.event_time _ 0x0100 _)
    · exact ⟨.refl _ s1, rfl, rfl⟩
  obtain ⟨frame2, st2, dt2⟩ := left
  have sealed : Reaches [.out, .ledger, .dci, .faults] s2 s3 := by
    refine Reaches.updLedger ?_ (by decide) _
    apply Reaches.sealEarly (.refl _ s2) <;> decide
  have st3 : s3.dci.st = s2.dci.st := s2.sealEarly_st 1
  have dt : s3.dt = s.dt :=
    calc s3.dt = s2.dt := congrArg (·.ns.toNat) (sealed.same .time (by decide))
      _ = s1.dt := dt2
      _ = s.dt := congrArg (·.ns.toNat) (begun.same .time (by decide))
  exact ⟨(begun.mono (by decide)).trans ((frame2.mono (by decide)).trans (sealed.mono (by decide))), dt,
    fun moves => st3.trans (st2.trans (st1 moves))⟩

theorem State.warmStart_trust (s : State) : s.warmStart.trust = s.trust.warm := by
  obtain ⟨x, reset, stops⟩ := s.warmStart_stops
  rw [reset]
  exact congrArg TrustSt.warm (stops.frame.same .trust (by decide))

theorem State.warmStart_warms {s : State} (ready : s.dci.st = .ready) : s.warmed s.warmStart := by
  have trust := s.warmStart_trust
  obtain ⟨x, reset, stops⟩ := s.warmStart_stops
  have moves : s.dci.st ≠ .warmReset := by simp [ready]
  have mem : x.mem = s.mem := stops.frame.same .mem (by decide)
  refine ⟨?_, ?_, ?_, by rw [trust]; rfl, by rw [trust]; rfl, by rw [trust]; rfl, by rw [trust]; rfl, by rw [reset]; rfl⟩
  · rw [reset]
    exact stops.st moves
  · rw [reset]
    exact stops.dt
  · rw [reset]
    exact mem

theorem warmReset_held {s : State} (can : s.canWarm = true) (none' : s.trust.resetAt = none) (ready : s.dci.st = .ready) :
    ∃ u, exec .warmReset s = .next u ∧ u.dci.st = .warmReset ∧ u.trust.wrst = true ∧ u.dt = s.dt ∧ u.mem = s.mem
      ∧ u.trust.otp = s.trust.otp ∧ u.trust.meas = s.trust.meas ∧ u.thrs = State.reset.thrs := by
  have w := State.warmStart_warms ready
  refine ⟨_, warmReset_holds can none' ready, ?_⟩
  generalize s.warmStart = x at w
  exact ⟨w.st, rfl, w.dt, w.mem, w.otp, w.meas, w.thrs⟩

theorem warmReset_manufacturing {s : State} {d : Nat} (can : s.canWarm = true) (set : s.trust.resetAt = some d) (due : d ≤ s.dt)
    (ready : s.dci.st = .ready) (src : s.trust.straps.bootSrc = 3) :
    ∃ u, exec .warmReset s = .next u ∧ u.dci.st = .warmReset ∧ u.dci.step = 7 ∧ u.trust.wrst = s.trust.wrst := by
  have w := State.warmStart_warms ready
  have warm : s.warmOrPrime = s.warmStart := if_neg (by simp [ready])
  have run : exec .warmReset s = .next s.warmStart.fwFetch := by
    show execWarmReset s = _
    unfold execWarmReset
    rw [warm]
    simp [can, set, due, done]
  have stops : s.warmStart.fwFetch = s.warmStart.setStep 7 := if_pos (by rw [w.straps, src])
  rw [stops] at run
  refine ⟨_, run, ?_⟩
  generalize s.warmStart = x at w
  exact ⟨w.st, rfl, w.wrst⟩

theorem wrstRise_manufacturing {s : State} (low : s.trust.wrst = true) (src : s.trust.straps.bootSrc = 3) :
    ∃ u, exec .wrstRise s = .next u ∧ u.trust.wrst = false ∧ u.dci.step = 7 := by
  have stops : (s.updTrust fun t => { t with wrst := false }).fwFetch = (s.updTrust fun t => { t with wrst := false }).setStep 7 :=
    if_pos src
  refine ⟨_, (if_neg (by simp [low])).trans (congrArg done stops), rfl, rfl⟩

/-- Settles O51, reset by reset. -/
theorem primingAndResets : Obligations.PrimingAndResets := by
  refine ⟨fun s o powered first => ⟨coldPriming_manufacturing powered first, coldPriming_waits powered first,
      coldPriming_empty powered first,
      fun n i src sram pcs trng priming => coldPriming_ready powered first src ⟨sram, pcs, trng⟩ priming⟩,
    fun s f n => hostPushGo_goes, fun s i => hostPushDone_malformed,
    fun s i o reads waits formed len => ⟨hostPushDone_invalid reads waits formed len,
      fun valid obs sram pcs trng => hostPushDone_starts reads waits formed len valid obs ⟨sram, pcs, trng⟩⟩,
    fun s => ⟨⟨_, rfl, rfl, rfl, rfl, rfl, rfl, rfl, rfl, rfl, rfl, rfl⟩, ⟨_, rfl, rfl, rfl, rfl⟩, ⟨_, rfl, rfl, rfl⟩⟩,
    fun s => warmReset_held, fun s d => warmReset_manufacturing, fun s => wrstRise_manufacturing⟩

end Sys2Proof.Machine
end

section
/-!
PROOFS. O52: the JTAG port: its registers, the pins, DEBUG_ACCESS and OTP_PROG (R516, R517, R573, R574, R593).
-/

namespace Sys2Proof.Machine

/-! ### Losing a link leaves the network side shut (R96, R593) -/

/-- Every port is sluiced: a name for the one entry of the network side that follows from no single port or well. -/
def State.shutAll (s : State) : Bool := s.net.shut

/-- Every part of the state but the network side. -/
def notNet : List Part :=
  [.out, .time, .order, .basin, .cistern, .egress, .thrs, .truns, .scratch, .cores, .clusters, .locks, .keys, .mem, .hbm,
    .power, .tables, .ledger, .dci, .faults, .trust, .free]

theorem Reaches.shutAll {s u : State} (h : Reaches notNet s u) : u.shutAll = s.shutAll :=
  congrArg NetSt.shut (h.same .net (by decide))

@[simp] theorem State.updPort_shutAll (s : State) (p : Nat) (g : Port → Port) : (s.updPort p g).shutAll = s.shutAll := rfl

@[simp] theorem State.intakeCnt_shutAll (s : State) (p : Nat) (g : IntakeCnt → IntakeCnt) :
    (s.intakeCnt p g).shutAll = s.shutAll := s.updPort_shutAll p _

@[simp] theorem State.updWell_shutAll (s : State) (w : Nat) (g : Well → Well) : (s.updWell w g).shutAll = s.shutAll := rfl

@[simp] theorem State.updPkt_shutAll (s : State) (p : Nat) (g : Pkt → Pkt) : (s.updPkt p g).shutAll = s.shutAll := rfl

@[simp] theorem State.updRc_shutAll (s : State) (p : Nat) (g : RunRec → RunRec) : (s.updRc p g).shutAll = s.shutAll := rfl

@[simp] theorem State.updEport_shutAll (s : State) (p : Nat) (g : EPort → EPort) : (s.updEport p g).shutAll = s.shutAll := rfl

@[simp] theorem State.updPump_shutAll (s : State) (p : Nat) (g : Pump → Pump) : (s.updPump p g).shutAll = s.shutAll := rfl

theorem State.freeBuf_shutAll (s : State) (b : Nat) : (s.freeBuf b).shutAll = s.shutAll := by
  refine Reaches.shutAll ?_
  apply Reaches.freeBuf (.refl _ s) <;> decide

theorem State.refuse_shutAll (s : State) (p code : Nat) : (s.refuse p code).shutAll = s.shutAll := by
  unfold State.refuse
  extract_lets k s0 s1 s2 s3
  have freed : s1.shutAll = s.shutAll := by
    unfold s1
    split
    · rfl
    · split
      · exact s0.freeBuf_shutAll _
      · rfl
  have undone : Reaches notNet s1 s3 := by
    refine Reaches.fenceCheck (Reaches.updDom (Reaches.dropVers ?_ (by decide) _) (by decide) _ _) (by decide) (by decide)
      (by decide) (by decide)
    apply Reaches.cascade ((Reaches.refl _ s1).refund (by decide) _) <;> decide
  have checked : s3.shutAll = s.shutAll := undone.shutAll.trans freed
  split
  · rfl
  · split
    · exact freed
    · have taken {u : State} (h : Reaches notNet s3 u) : (u.endRefused p).shutAll = s.shutAll :=
        (h.endRefused (by decide) p).shutAll.trans checked
      split
      · apply taken
        apply Reaches.clearRun (.refl _ s3) <;> decide
      · exact taken ((Reaches.refl _ s3).listDrop (by decide) _)
      · rw [State.endRefused, State.updPkt_shutAll, State.updWell_shutAll, checked]
      · exact taken ((Reaches.refl _ s3).updTr (by decide) _ _)
      · refine taken (Reaches.updOrder ?_ (by decide) _)
        apply Reaches.freeProv (.refl _ s3) <;> decide
      · exact checked

theorem State.frameIn_shutAll (s : State) (port : Nat) (words : List IWord) (ended : Bool) :
    (s.frameIn port words ended).shutAll = s.shutAll := by
  unfold State.frameIn
  extract_lets r s1
  have framed : Reaches notNet s r.1 := (Reaches.refl _ s).newFrame (by decide) _ _ _
  have arrives : s1.shutAll = s.shutAll := by rw [State.updPort_shutAll, framed.shutAll]
  have starts : (s1.startFrame port r.2).shutAll = s1.shutAll := by
    unfold State.startFrame
    split
    · exact s1.refuse_shutAll _ _
    · rfl
  rw [State.macWrite, State.updPkt_shutAll, State.updPort_shutAll, starts, arrives]

theorem State.macControl_shutAll (s : State) (port : Nat) (bytes : List Byte) (rxerr : Bool) :
    (s.macControl port bytes rxerr).shutAll = s.shutAll := by
  have pauses (x : State) (k q : Nat) : Reaches notNet x (x.pauseFor port k q) := (Reaches.refl _ x).pauseFor (by decide) _ _ _
  have takes (x : State) : Reaches notNet x (x.pfcTake port bytes) := (Reaches.refl _ x).pfcTake (by decide) _ _
  have counts (g : MacCnt → MacCnt) : (s.macCnt port g).shutAll = s.shutAll := s.updPort_shutAll port _
  unfold State.macControl
  dsimp only
  split
  · rfl
  · split
    · split
      · exact (pauses _ _ _).shutAll.trans (counts _)
      · rfl
    · split
      · split
        · exact (takes _).shutAll.trans (counts _)
        · rfl
      · split
        · exact s.frameIn_shutAll ..
        · rfl

theorem State.wire_shutAll (s : State) (phys : Nat) (bytes : List Byte) (good : Bool) (dt : Nat) :
    (s.wire phys bytes good dt).shutAll = s.shutAll := by
  have returns (bs : List Byte) : (s.macReturn phys bs).shutAll = s.shutAll := by
    unfold State.macReturn
    split
    · rfl
    · split
      · exact s.macControl_shutAll ..
      · exact s.frameIn_shutAll ..
  unfold State.wire
  split
  · exact returns _
  · rfl

theorem State.stompCt_shutAll (s : State) (p : Nat) : (s.stompCt p).shutAll = s.shutAll := by
  unfold State.stompCt
  split
  · rfl
  · refine State.foldl_keeps State.shutAll _ (fun x phys => ?_) _ s
    dsimp only
    split
    · split
      · rw [State.updRc_shutAll, State.updPump_shutAll, State.stompNow, State.updEport_shutAll, State.stompCount,
          State.updPort_shutAll, State.wire_shutAll]
      · rfl
    · rfl

theorem State.refuseFrame_shutAll (s : State) (p code : Nat) : (s.refuseFrame p code).shutAll = s.shutAll := by
  unfold State.refuseFrame
  split
  · rfl
  · split
    · dsimp only
      split
      · rw [State.freeBuf_shutAll, State.updPkt_shutAll, State.refuse_shutAll, State.stompCt_shutAll, State.updPkt_shutAll]
      · rw [State.updPkt_shutAll, State.refuse_shutAll, State.stompCt_shutAll, State.updPkt_shutAll]
    · exact s.refuse_shutAll p code

theorem State.tryAccept_shutAll (s : State) (p : Nat) : (s.tryAccept p).shutAll = s.shutAll := by
  have queued (x : State) (k : Pkt) : (x.learnQueue k).shutAll = x.shutAll := by
    unfold State.learnQueue
    split
    · rfl
    · split <;> rfl
  have redone (x : State) : (x.redo p .poison).shutAll = x.shutAll := by
    refine Reaches.shutAll ?_
    apply Reaches.redo (.refl _ x) <;> decide
  unfold State.tryAccept
  extract_lets k s1 s2
  have counted : (s1.classFrame k.quotaClass).shutAll = s1.shutAll := by
    refine Reaches.shutAll ?_
    apply Reaches.classFrame (.refl _ s1) <;> decide
  have h2 : s2.shutAll = s.shutAll := by
    rw [queued, counted]
    simp only [s1, State.intakeCnt_shutAll, State.updPkt_shutAll]
  have stomped : (if (s.rc p).ct then s2.stompCt p else s2).shutAll = s.shutAll := by
    split
    · rw [State.stompCt_shutAll, h2]
    · exact h2
  split
  · rfl
  · split
    · exact (redone _).trans stomped
    · exact h2

theorem State.stopLink_shutAll (s : State) (p : Nat) : (s.stopLink p).shutAll = s.shutAll := by
  have checked (x : State) (q : Nat) : (x.tailCheck q).shutAll = x.shutAll := by
    unfold State.tailCheck
    split
    · exact x.refuseFrame_shutAll q _
    · refine (State.tryAccept_shutAll _ q).trans ?_
      exact Reaches.shutAll (((Reaches.refl _ x).updPkt (by decide) _ _).storeBytes (by decide) _)
  have cut (x : State) : (x.cutFrame p).shutAll = x.shutAll := by
    unfold State.cutFrame
    split
    · rfl
    · dsimp only
      split
      · rw [State.updPort_shutAll]
        split
        · rfl
        · rw [checked, State.updPkt_shutAll]
      · rfl
  have aborted : (s.txAbort p).shutAll = s.shutAll := by
    unfold State.txAbort
    split
    · rfl
    · next n _ =>
      dsimp only
      split
      · rw [State.updRc_shutAll, State.updPump_shutAll, State.updEport_shutAll, State.wire_shutAll]
      · have killed (y : State) : (y.killCopy n.copy 5 4).shutAll = y.shutAll := by
          refine Reaches.shutAll ?_
          apply Reaches.killCopy (.refl _ y) <;> decide
        rw [killed, State.updEport_shutAll, State.wire_shutAll]
  exact (cut _).trans aborted

theorem State.loseLink_shutAll (s : State) (p reason : Nat) : (s.loseLink p reason).shutAll = s.shutAll := by
  unfold State.loseLink
  dsimp only
  refine Eq.trans (b := (s.stopLink p).shutAll) ?_ (s.stopLink_shutAll p)
  split <;> rfl

/-! ### The instructions and the pins (R573, R593) -/

/-- What a pin-taking instruction does. -/
theorem State.takePins_takes (s : State) : s.takePins.trust.jtag = { s.trust.jtag with pins := true } ∧ s.takePins.net.shut = true := by
  unfold State.takePins
  extract_lets s1
  have lost (l : List Nat) : Reaches [.out, .net, .order, .basin, .egress, .thrs, .truns, .cores, .clusters, .locks, .hbm, .power,
      .tables, .dci, .faults] s1 (l.foldl (fun (acc : State) p => acc.loseLink p 0) s1) := by
    refine Reaches.foldl (.refl _ s1) l fun x p => ?_
    apply Reaches.loseLink (.refl _ x) <;> decide
  have shut (l : List Nat) : (l.foldl (fun (acc : State) p => acc.loseLink p 0) s1).shutAll = s1.shutAll :=
    State.foldl_keeps State.shutAll _ (fun x p => x.loseLink_shutAll p 0) l s1
  exact ⟨congrArg TrustSt.jtag ((lost _).same .trust (by decide)), shut _⟩

theorem takes_pins (s : State) : ∀ p ∈ ([(.extest, 0), (.clampJ, 3), (.highz, 4), (.extestPulse, 5), (.extestTrain, 6)] :
    List (Instr × Nat)), ∃ u, exec p.1 s = .next u ∧ u.trust.jtag.ir = p.2 ∧ u.trust.jtag.pins = true ∧ u.net.shut = true := by
  have taken (x : State) : x.takePins.trust.jtag.ir = x.trust.jtag.ir ∧ x.takePins.trust.jtag.pins = true
      ∧ x.takePins.net.shut = true := by
    obtain ⟨jtag, shut⟩ := x.takePins_takes
    rw [jtag]
    exact ⟨rfl, rfl, shut⟩
  simp only [List.forall_mem_cons, List.not_mem_nil, false_imp_iff, implies_true, and_true]
  exact ⟨⟨_, rfl, taken (s.scanIr 0)⟩, ⟨_, rfl, taken (s.loadIr 3 0)⟩, ⟨_, rfl, taken (s.loadIr 4 0)⟩,
    ⟨_, rfl, taken (s.scanIr 5)⟩, ⟨_, rfl, taken (s.scanIr 6)⟩⟩

/-! ### Leaving the pins (R593) -/

theorem State.logMeas_jtag (s : State) (type index : Nat) (digest : List Byte) :
    (s.logMeas type index digest).trust.jtag = s.trust.jtag := by
  obtain ⟨c, m, o, h⟩ := s.logMeas_frame type index digest
  rw [h]
  rfl

theorem State.setSlot_jtag (s : State) (k : Nat) (x : FlashSlot) : (s.setSlot k x).trust.jtag = s.trust.jtag := by
  unfold State.setSlot State.updTrust
  dsimp only
  split <;> rfl

theorem State.startFw_jtag (s : State) (n : Nat) (i : FwImage) : (s.startFw n i).trust.jtag = s.trust.jtag :=
  State.logMeas_jtag ..

theorem State.confirmFw_jtag (s : State) : s.confirmFw.trust.jtag = s.trust.jtag := by
  have raised (x : State) (id n : Nat) : (x.raiseSvn id n).trust.jtag = x.trust.jtag := by
    unfold State.raiseSvn
    split
    · rfl
    · exact State.logMeas_jtag ..
  unfold State.confirmFw
  split
  · rfl
  · split
    · rfl
    · dsimp only
      split
      · exact (raised _ _ _).trans (s.setSlot_jtag _ _)
      · exact s.setSlot_jtag _ _

/-- Every part of the state but what trust holds. -/
def notTrust : List Part :=
  [.out, .time, .net, .order, .basin, .cistern, .egress, .thrs, .truns, .scratch, .cores, .clusters, .locks, .keys, .mem, .hbm,
    .power, .tables, .ledger, .dci, .faults, .free]

theorem Reaches.jtag {s u : State} (h : Reaches notTrust s u) : u.trust.jtag = s.trust.jtag :=
  congrArg TrustSt.jtag (h.same .trust (by decide))

theorem State.warmEnd_jtag (s : State) : s.warmEnd.trust.jtag = s.trust.jtag := by
  refine Reaches.jtag ?_
  apply Reaches.warmEnd (.refl _ s) <;> decide

theorem State.primeReady_jtag (s : State) (warm : Bool) : (s.primeReady warm).trust.jtag = s.trust.jtag := by
  unfold State.primeReady
  extract_lets s1 s2
  have begun : Reaches notTrust s ((s.setStep 6).setDev .ready 0) := by
    apply Reaches.setDev ((Reaches.refl _ s).setStep (by decide) _) <;> decide
  have dropped : Reaches notTrust ((s.setStep 6).setDev .ready 0).confirmFw s1 := (Reaches.refl _ _).poolDrop (by decide) 7
  have resumed : Reaches notTrust s1 s2 := by
    unfold s2
    split
    · exact ((Reaches.refl _ s1).openEpoch (by decide) _).updLedger (by decide) _
    · exact .refl _ s1
  have ready : s2.trust.jtag = s.trust.jtag :=
    resumed.jtag.trans (dropped.jtag.trans ((State.confirmFw_jtag _).trans begun.jtag))
  split
  · exact s2.warmEnd_jtag.trans ready
  · exact ready

theorem State.primeRest_jtag (s : State) : s.primeRest.trust.jtag = s.trust.jtag := by
  unfold State.primeRest
  split
  · rfl
  · next o _ =>
    extract_lets warm fault s1 s2 s3 k
    have faulted (step cause : Nat) (x : State) : (fault step cause x).trust.jtag = x.trust.jtag := by
      have prime : Reaches notTrust x (x.primeFault step cause) := by
        apply Reaches.primeFault (.refl _ x) <;> decide
      unfold fault
      split
      · exact (State.warmEnd_jtag _).trans prime.jtag
      · exact prime.jtag
    have stacked (x : State) (m : StackMode) : Reaches notTrust x (x.stacks m) := (Reaches.refl _ x).stacks (by decide) m
    have tested : Reaches notTrust s s1 := by
      apply Reaches.bistDone (.refl _ s) <;> decide
    have trained : Reaches notTrust s s2 := by
      unfold s2
      refine Reaches.stacks ?_ (by decide) _
      split
      · exact tested.updHbm (by decide) _
      · apply tested.coldTrain <;> decide
    have copied : Reaches notTrust s s3 := by
      unfold s3
      split
      · exact trained.copyFw (by decide) _ _
      · exact trained
    have drawn : Reaches notTrust s k.2 := copied.drawBytes (by decide) 32
    clear_value k s3
    split
    · exact faulted _ _ _
    · split
      · exact (faulted _ _ _).trans (stacked s .fault).jtag
      · split
        · exact (s3.primeReady_jtag _).trans copied.jtag
        · split
          · exact (faulted _ _ _).trans copied.jtag
          · exact (State.primeReady_jtag _ _).trans drawn.jtag

theorem State.fwFetch_jtag (s : State) : s.fwFetch.trust.jtag = s.trust.jtag := by
  have tried (n : Nat) : (s.tried n).trust.jtag = s.trust.jtag := by
    unfold State.tried
    dsimp only
    split
    · rfl
    · exact s.setSlot_jtag _ _
  unfold State.fwFetch
  split
  · rfl
  · split
    · rfl
    · exact (State.primeRest_jtag _).trans ((State.startFw_jtag _ _ _).trans (tried _))
    · rfl

theorem State.warmOrPrime_jtag (s : State) : s.warmOrPrime.trust.jtag = s.trust.jtag := by
  unfold State.warmOrPrime
  split
  · rfl
  · rw [State.warmStart_trust]
    rfl

theorem boundaryScanExit_leaves {s : State} (pins : s.trust.jtag.pins = true) (gone : takesPins s.trust.jtag.ir = false)
    (settled : s.power.flush = none) : ∃ u, exec .boundaryScanExit s = .next u ∧ u.trust.jtag.pins = false
      ∧ (s.canWarm = true → s.dci.st = .ready → s.trust.straps.bootSrc = 3 → u.dci.st = .warmReset ∧ u.dci.step = 7) := by
  have leaves : ¬((!s.trust.jtag.pins) = true ∨ takesPins s.trust.jtag.ir = true ∨ s.power.flush.isSome = true) := by
    simp [pins, gone, settled]
  refine ⟨_, if_neg leaves, ?_, fun can ready src => ?_⟩
  · split
    · rw [State.fwFetch_jtag, State.warmOrPrime_jtag]
      rfl
    · rfl
  · generalize left : (s.updJtag fun j => { j with pins := false }) = x
    have ready' : x.dci.st = .ready := by rw [← left]; exact ready
    have src' : x.trust.straps.bootSrc = 3 := by rw [← left]; exact src
    have can' : x.canWarm = true := by rw [← left]; exact can
    have w := State.warmStart_warms ready'
    have warm : x.warmOrPrime = x.warmStart := if_neg (by simp [ready'])
    have stops : x.warmStart.fwFetch = x.warmStart.setStep 7 := if_pos (by rw [w.straps, src'])
    rw [if_pos can', warm, stops]
    exact ⟨w.st, rfl⟩

/-! ### DEBUG_ACCESS (R574) -/

/-- DEBUG_ACCESS of an entry `e` that carries one of its commands, well formed, whose body answers. -/
theorem execDebugAccess_of_entry {s : State} {dr : BitVec 1024} {e p : List Byte} {body : State → State × Ans} {r : Cat}
    {u s1 : State} {a d : Nat} {res tail : List Byte} (entry : leBytes 128 dr.toNat = e)
    (payload : (slice e 16 112).take (leVal (slice e 8 2)) = p) (loaded : (s.updJtag fun j => { j with ir := 0x20 }) = s1)
    (powered : ¬(s.trust.porst = true ∨ s.trust.brown = true ∨ s.trust.obs.isNone = true))
    (known : debugBody (leVal (slice e 0 2)) p = some body) (cat : catOf (leVal (slice e 0 2)) = some r)
    (formed : ¬(leVal (slice e 2 2) ≠ 0 ∨ leVal (slice e 12 4) ≠ 0 ∨ 112 < leVal (slice e 8 2) ∨ (!fitsCommand r p) = true))
    (run : body s1 = (u, .reply a d res tail)) :
    exec (.debugAccess dr) s = .next ((if 40 < res.length then s1 else u).jtagAnswer e (.reply a d res tail)) := by
  show execDebugAccess dr s = _
  unfold execDebugAccess
  dsimp only
  rw [entry, payload, loaded, if_neg powered, known, cat]
  dsimp only
  rw [if_neg formed, run]
  simp only [decide_eq_true_eq]
  rfl

theorem debugAccess_runs (s : State) (dr : BitVec 1024) (body : State → State × Ans) (r : Cat) (u : State) (a d : Nat)
    (res tail : List Byte) :
    let e := leBytes 128 dr.toNat
    let p := (slice e 16 112).take (leVal (slice e 8 2))
    let s1 := s.updJtag fun j => { j with ir := 0x20 }
    s.trust.porst = false → s.trust.brown = false → s.trust.obs.isSome = true → debugBody (leVal (slice e 0 2)) p = some body →
    catOf (leVal (slice e 0 2)) = some r → leVal (slice e 2 2) = 0 → leVal (slice e 12 4) = 0 → leVal (slice e 8 2) ≤ 112 →
    fitsCommand r p = true → body s1 = (u, .reply a d res tail) →
    exec (.debugAccess dr) s = .next ((if 40 < res.length then s1 else u).jtagAnswer e (.reply a d res tail)) := by
  intro e p s1 porst brown obs known cat flags reserved len fits run
  have powered : ¬(s.trust.porst = true ∨ s.trust.brown = true ∨ s.trust.obs.isNone = true) := by
    simp [porst, brown, Option.isSome_iff_ne_none.mp obs]
  refine execDebugAccess_of_entry rfl rfl rfl powered known cat ?_ run
  rintro (h | h | h | h)
  · exact h flags
  · exact h reserved
  · exact absurd len (Nat.not_le_of_lt h)
  · exact absurd (h.symm.trans (congrArg not fits)) (by decide)

/-! ### OTP_PROG (R516, R517) -/

/-- What OTP_PROG reads of its register: the field, the chunk and the value. -/
theorem otpProg_fields {id k v d : Nat} (hid : id < 256) (hk : k < 256) (hd : d = id + 256 * k + 65536 * v) :
    d % 256 = id ∧ d / 256 % 256 = k ∧ d / 65536 = v := by
  omega

section

variable {s : State} {dr : BitVec 2064} {id k v : Nat} (hid : id < 256) (hk : k < 256)
  (hd : dr.toNat = id + 256 * k + 65536 * v) (porst : s.trust.porst = false) (brown : s.trust.brown = false)
include hid hk hd porst brown

theorem execOtpProg_eq : exec (.otpProg dr) s = .next (
    if !(s.trust.obs.isSome && s.trust.straps.bootSrc = 3 && !s.debugLocked) ∨ id < 0x10 then s.loadIr 0x21 (id + 256 * k)
    else (s.otpWrite id k v).loadIr 0x21 (id + 256 * k + 65536 * ((s.otpWrite id k v).otpChunk id k).2)) := by
  obtain ⟨field, chunk, value⟩ := otpProg_fields hid hk hd
  show execOtpProg dr s = _
  unfold execOtpProg
  rw [field, chunk, value]
  dsimp only
  rw [if_neg (by simp [porst, brown])]
  exact (apply_ite Host.Outcome.next _ _ _).symm

theorem otpProg_closed (closed : s.debugLocked = true ∨ id < 0x10) :
    ∃ u, exec (.otpProg dr) s = .next u ∧ u.trust.otp = s.trust.otp := by
  refine ⟨_, (execOtpProg_eq hid hk hd porst brown).trans (congrArg _ (if_pos ?_)), rfl⟩
  rcases closed with locked | low
  · exact .inl (by simp [locked])
  · exact .inr low

theorem otpProg_programs (obs : s.trust.obs.isSome = true) (src : s.trust.straps.bootSrc = 3) (unlocked : s.debugLocked = false)
    (high : 0x10 ≤ id) :
    let n := Nat.min 2048 (otpBits id - 2048 * k)
    let old := SMap.get 0 s.trust.otp id
    let fits := (v % 2 ^ n) ||| (old / 2 ^ (2048 * k) % 2 ^ n) = v % 2 ^ n
    ∃ u, exec (.otpProg dr) s = .next u
      ∧ (fits → SMap.get 0 u.trust.otp id = old ||| v % 2 ^ n * 2 ^ (2048 * k)
        ∧ ∀ j, j ≠ id → SMap.get 0 u.trust.otp j = SMap.get 0 s.trust.otp j)
      ∧ (¬fits → u.trust.otp = s.trust.otp) := by
  intro n old fits
  have open' : ¬((!(s.trust.obs.isSome && decide (s.trust.straps.bootSrc = 3) && !s.debugLocked)) = true ∨ id < 0x10) := by
    simp only [obs, src, unlocked, Bool.not_false, decide_true, Bool.and_self, Bool.not_true, Bool.false_eq_true, false_or]
    omega
  refine ⟨_, (execOtpProg_eq hid hk hd porst brown).trans (congrArg _ (if_neg open')), fun fit => ?_, fun misfit => ?_⟩
  · have written : s.otpWrite id k v = s.updTrust fun t => { t with
        otp := SMap.set 0 t.otp id (SMap.get 0 t.otp id ||| v % 2 ^ n * 2 ^ (2048 * k)) } := if_neg (not_not.mpr fit)
    rw [written]
    exact ⟨SMap.get_set_self .., fun j hj => SMap.get_set_ne _ _ _ hj⟩
  · have kept : s.otpWrite id k v = s := if_pos misfit
    rw [kept]
    rfl

end

/-- Settles O52, instruction by instruction. -/
theorem jtagPort : Obligations.JtagPort :=
  ⟨fun s => ⟨⟨_, rfl, rfl⟩, rfl, ⟨_, rfl, rfl⟩, ⟨_, rfl, rfl, rfl⟩, takes_pins s⟩, fun _ => boundaryScanExit_leaves,
    debugAccess_runs, fun _ _ _ _ _ hid hk _ hd porst brown obs src =>
      ⟨otpProg_closed hid hk hd porst brown, otpProg_programs hid hk hd porst brown obs src⟩⟩

end Sys2Proof.Machine
end
